-- ==== Sys2Proof/Word.lean ====
section
/-! DEFINITION. Words of the JT72: bytes and register words, and the plainest arithmetic on numbers held in a given
number of bits (chapter 0, "Notation" and "Register access"). Registers hold natural numbers below 2^width; a signed
field is the two's complement of its value in the field's width. -/

namespace Sys2Proof

/-- One octet. -/
abbrev Byte := BitVec 8

/-- A number cut to `w` bits. -/
def trunc (w n : Nat) : Nat := n % 2 ^ w

/-- The bits `lsb + w - 1 : lsb` of a number. -/
def bits (lsb w n : Nat) : Nat := n / 2 ^ lsb % 2 ^ w

/-- Bit `k` of a number. -/
def bit (k n : Nat) : Bool := n / 2 ^ k % 2 == 1

/-- A number with bit `k` set. -/
def setBit (k n : Nat) : Nat := if bit k n then n else n + 2 ^ k

/-- A number with bit `k` clear. -/
def clrBit (k n : Nat) : Nat := if bit k n then n - 2 ^ k else n

/-- A number with its bits `lsb + w - 1 : lsb` replaced by those of `v`. -/
def putBits (lsb w v n : Nat) : Nat := n - bits lsb w n * 2 ^ lsb + v % 2 ^ w * 2 ^ lsb

/-- Addition that saturates at the largest `w`-bit number (counters marked "saturating"). -/
def satAdd (w a b : Nat) : Nat := min (a + b) (2 ^ w - 1)

/-- The signed value of a `w`-bit number. -/
def toS (w n : Nat) : Int := if n % 2 ^ w < 2 ^ (w - 1) then (n % 2 ^ w : Nat) else (n % 2 ^ w : Nat) - (2 ^ w : Nat)

/-- The `w`-bit two's complement of an integer. -/
def ofS (w : Nat) (i : Int) : Nat := (i % (2 ^ w : Nat)).toNat

/-- The bits of `n` that are clear in `m`. -/
def andNot (n m : Nat) : Nat := n ^^^ (n &&& m)

/-- The positions of the set bits below `w`, in rising order. -/
def bitsOf (w n : Nat) : List Nat := (List.range w).filter (fun k => bit k n)

/-- The number whose set bits are the listed positions. -/
def maskOf (ks : List Nat) : Nat := ks.foldl (fun m k => setBit k m) 0

/-- A byte list read as a little-endian number. -/
def leNat : List Byte → Nat
  | [] => 0
  | b :: t => b.toNat + 256 * leNat t

/-- The `n` low bytes of a number, lowest first. -/
def leBytes : Nat → Nat → List Byte
  | 0, _ => []
  | n + 1, v => BitVec.ofNat 8 v :: leBytes n (v / 256)

/-- A byte list read as a big-endian number. -/
def beNat (l : List Byte) : Nat := leNat l.reverse

/-- The `n` low bytes of a number, highest first. -/
def beBytes (n v : Nat) : List Byte := (leBytes n v).reverse

/-- Division of an integer rounded to the nearest integer, halves up. -/
def divRound (a : Int) (b : Nat) : Int := (2 * a + b) / (2 * b)

end Sys2Proof
end

