-- ==== Sys2Proof/Syntax.lean ====
section
/-! DEFINITION. The commands and events of the JT72: one constructor per row of the table of operations, with its
operands. A physical measurement, the octets of a received frame, the data a host memory read returns and the like are
operands: the command says what arrived, the model says what comes of it. -/

namespace Sys2Proof

/-- A requester of register accesses (R10): the host over PCIe, the I2C target, the Reeve, an engine. -/
inductive Req where
  | host | i2c | reeve
  | eng (e : Fin 16)
  deriving DecidableEq, Repr

/-- A requester of pool buffers (Table 8.2): a port's ingress, an engine, the Reeve, the host DMA. -/
inductive PoolWho where
  | port (p : Fin 72)
  | eng (e : Fin 16)
  | reeve
  | hostDma
  deriving DecidableEq, Repr

/-- One request for a buffer (R265, R266). -/
structure PoolReq where
  who : PoolWho
  pool : Fin 4
  fallback : Bool
  deriving DecidableEq, Repr

/-- The failure events of Table 8.4. -/
inductive StackCause where
  | errors | training | temperature | mark
  deriving DecidableEq, Repr

/-- Where a TZ instruction executes: a thread of an engine, the Reeve, a track of a stage cell, or the Weighhouse core
(R279, R312, R355, R420). -/
inductive Core where
  | eng (e : Fin 16) (t : Fin 8)
  | reeve
  | cell (c : Fin 96) (egress : Bool)
  | wgh
  deriving DecidableEq, Repr

/-- The issue of one instruction: the core, and whether the fetch met an uncorrectable error (Table 9.5). -/
structure Issue where
  core : Core
  fetchUe : Bool
  deriving DecidableEq, Repr

/-- Operand fields of the R format (Table 9.8). -/
structure RIns where
  pred : Fin 8
  d : Fin 32
  a : Fin 32
  b : Fin 32
  deriving DecidableEq, Repr

/-- Operand fields of the I and B formats (Table 9.8). -/
structure IIns where
  pred : Fin 8
  d : Fin 32
  a : Fin 32
  imm : BitVec 12
  deriving DecidableEq, Repr

/-- Operand fields of the J and U formats (Table 9.8). -/
structure JIns where
  d : Fin 32
  imm : BitVec 20
  deriving DecidableEq, Repr

/-- Operand fields of the V format (Table 9.8). -/
structure VIns where
  ty : Fin 8
  pm : Fin 8
  vd : Fin 32
  va : Fin 32
  vb : Fin 32
  deriving DecidableEq, Repr

/-- What the monitors of one slot measured over the last second and the last 64 s, as signed 10^-12, and its phase as
signed 2^-16 ns (R151, R165). -/
structure SlotMeas where
  slot : Fin 16
  y1 : BitVec 32
  y64 : BitVec 32
  phase : BitVec 64
  deriving DecidableEq, Repr

/-- What the monitor of one slot measured over the last 4096 s. -/
structure SlotLong where
  slot : Fin 16
  y : BitVec 32
  deriving DecidableEq, Repr

/-- How a CMIS transaction ended on the wire (R63, R66). -/
inductive ModRes where
  /-- completed; the octets a read returned -/
  | ok (data : List Byte)
  | nack
  /-- the module was removed meanwhile -/
  | absent
  deriving DecidableEq, Repr

/-- What a lane's hardware saw of a frame's stamp bit on reception (R110, R112, R115, R188): the lane within the port, the
ticks since the tick before the transmit word edge, the phases in 1/64 UI, the bit's place in its codeword and after the
last marker, and a codeword with uncorrectable errors. -/
structure StampIn where
  lane : Fin 4
  ago : BitVec 16
  txPhase : BitVec 16
  rxPhase : BitVec 12
  f : BitVec 13
  am : BitVec 15
  uncorr : Bool
  deriving DecidableEq, Repr

/-- What a lane's hardware saw of a frame's stamp bit at departure. -/
structure StampOut where
  lane : Fin 4
  ago : BitVec 16
  txPhase : BitVec 16
  f : BitVec 13
  am : BitVec 15
  deriving DecidableEq, Repr

/-- The header of a PTP message as an observer sees it (R211): port, domainNumber, majorSdoId, sourcePortIdentity,
sequenceId and correctionField. -/
structure ObsHdr where
  port : Fin 72
  domain : BitVec 8
  sdo : BitVec 4
  spid : BitVec 80
  seq : BitVec 16
  cf : BitVec 64
  deriving DecidableEq, Repr

/-- The stamp record of an event message: ball time, VOID and CAUTION (Table 6.4). -/
structure ObsStamp where
  time : BitVec 96
  void : Bool
  caution : Bool
  deriving DecidableEq, Repr

/-- A PTP message an observer considers (R211, R212, R214). A timestamp is 48 bits of seconds and 32 of nanoseconds. -/
inductive ObsMsg where
  | sync (x : ObsStamp) (twoStep : Bool) (origin : BitVec 80) (logInt : BitVec 8)
  | followUp (precise : BitVec 80)
  | delayReq (x : ObsStamp)
  | delayResp (receive : BitVec 80)
  | pdelayReq (x : ObsStamp)
  | pdelayResp (x : ObsStamp) (twoStep : Bool) (receipt : BitVec 80)
  | pdelayRespFollowUp (origin : BitVec 80)
  | announce (cls acc logInt : BitVec 8)
  deriving DecidableEq, Repr

/-- A register write that changes an observer's configuration (R211): STAMP_OBS CFG, or the whole of PARENT. -/
inductive ObsWrite where
  | cfg (w : BitVec 32)
  | parent (v : BitVec 80)
  deriving DecidableEq, Repr

/-- The fields of a received survey message (Table 4.5): FLAGS, SEQ, SURVEY_ID, T_A, T_B, DLY_SUM, LAMBDA. -/
structure SurvMsg where
  flags : BitVec 8
  seq : BitVec 16
  id : BitVec 16
  ta : BitVec 96
  tb : BitVec 96
  dlySum : BitVec 32
  lambda : BitVec 32
  deriving DecidableEq, Repr

/-- A message received on the twin link: lane, whether its CRC, CLASS or VER is bad (R391, R393), SEQ, FLAGS. -/
structure TwHdr where
  lane : Fin 2
  bad : Bool
  seq : BitVec 16
  flags : BitVec 8
  deriving DecidableEq, Repr

/-- Body of a twin HELLO (Table 12.1). -/
structure TwHello where
  twin : Fin 2
  role : Fin 3
  roleGen : BitVec 16
  cycle : BitVec 4
  tstate : Fin 5
  relinq : Bool
  deriving DecidableEq, Repr

/-- A prescaled edge on a Weighhouse source as its interpolator reads it (R423, R425, R426): the coarse count K, the code N,
the pair N1 and N2 made after the timestamp, the prescaled edges counted since the last such command for the source, this
one included, and whether the source was beyond 110 M prescaled edges/s. -/
structure WEdge where
  src : Fin 8
  k : BitVec 48
  code : BitVec 12
  n1 : BitVec 12
  n2 : BitVec 12
  count : BitVec 40
  fast : Bool
  deriving DecidableEq, Repr


/-- Outcome of an LBIST run (Tables 14.11, 14.16): blocks failed. -/
structure Lbist where
  eng : BitVec 16
  pair : BitVec 8
  /-- lookup store, Bell Tower, Crier and Tally -/
  fatal : BitVec 3
  stack : BitVec 4
  /-- bits 47:0 Granary banks, bits 63:48 quads -/
  unit : BitVec 64
  deriving DecidableEq, Repr

/-- A sensor reading (Table 14.3). -/
inductive Sens where
  | temp (i : Fin 24) (v : BitVec 16)
  | volt (i : Fin 16) (v : BitVec 16)
  | proc (i : Fin 8) (v : BitVec 24)
  | age (i : Fin 8) (v : BitVec 16)
  deriving DecidableEq, Repr

/-- How a tagged instruction ran, as the sampling hardware saw it (Table 16.6): thread, address, word, predicate false,
exception raised, market cycles to completion, stall bits, effective address. -/
structure Sample where
  thread : Fin 8
  pc : BitVec 48
  insn : BitVec 32
  predFalse : Bool
  exc : Bool
  lat : BitVec 32
  stall : BitVec 5
  ea : BitVec 64
  deriving DecidableEq, Repr

/-- Header of an in-band message as a frame brought it (Table 12.2): whether its CLASS is unlisted in band or its VER not
0x01 (R393), SEQ, SRC, DST, HOPS, FLAGS, GEN. -/
structure TreHdr where
  bad : Bool
  seq : BitVec 16
  src : BitVec 16
  dst : BitVec 16
  hops : BitVec 8
  flags : BitVec 8
  gen : BitVec 16
  deriving DecidableEq, Repr

/-- Body of an in-band RECORD (Table 12.5): down, the counter and how many records from it; up, the signed records. -/
inductive TreRec where
  | ask (counter : BitVec 64) (max : BitVec 8)
  | give (records : List Byte)
  deriving DecidableEq, Repr

/-- The commands and events of the block: one constructor per row of opcode_table.json. -/
inductive Instr where
  /-- REGISTER_WRITE (R12): A write to a register field that has no behaviour of its own sets, ignores, clears or sets bits by its access type, or is refused by the field's range rule. -/
  | registerWrite (r : Req) (a : BitVec 32) (v : BitVec 32) (narrow : Bool)
  /-- MULTIWORD_LOW_READ (R10): A read of the lowest word of a multi-word value returns it and copies the upper words into the requester's snapshot latch. -/
  | multiwordLowRead (r : Req) (a : BitVec 32)
  /-- MULTIWORD_HIGH_WRITE (R11): A write of the highest word of a read-write multi-word value makes the whole held value take effect in one cycle. -/
  | multiwordHighWrite (r : Req) (a : BitVec 32) (v : BitVec 32)
  /-- SHADOW_WRITE (R99): A write that changes a shadow field, or any write of GLB_MODE.TARGET, sets the unit's pending bit or is refused while the controller is not IDLE. -/
  | shadowWrite (r : Req) (a : BitVec 32) (v : BitVec 32)
  /-- COMMIT_MARK_WRITE (R99): A write of 1 to a GLB_COMMIT_MARK bit marks that unit pending without changing its shadow. -/
  | commitMarkWrite (r : Req) (k : Fin 8) (v : BitVec 32)
  /-- COMMIT_PEND_CLEAR (R546): A write of 1 to a GLB_COMMIT_PEND bit clears the pending mark and keeps the shadow. -/
  | commitPendClear (r : Req) (k : Fin 8) (v : BitVec 32)
  /-- COMMIT (R100): A COMMIT written to GLB_COMMIT_CTL arms the controller for time T with the pending units, or is refused. -/
  | commit (r : Req) (gen : BitVec 16)
  /-- ROLLBACK (R104): A ROLLBACK arms the controller to return the last commit's participants to their previous settings at T2. -/
  | rollback (r : Req) (gen : BitVec 16)
  /-- CANCEL (R100): A CANCEL at least 10 µs before T returns an armed controller to IDLE and restores the set-aside masks. -/
  | cancel (r : Req)
  /-- COMMIT_APPLY (R101): When bell time reaches T each able participant applies its shadow at its first cycle at or after T and sets its bit in VEC. -/
  | commitApply
  /-- COMMIT_GRACE_EXPIRY (R100): At T plus grace with participants missing from VEC the controller enters SPLIT and raises GLB.COMMIT_SPLIT. -/
  | commitGraceExpiry
  /-- COMMIT_LATE_APPLY (R102): A unit that could not apply at T applies at power-up, reset exit or late receipt, sets its LATE bit and may end SPLIT. -/
  | commitLateApply (u : Fin 222)
  /-- INTERNAL_COMMIT_REQUEST (R105): An internal request for a commit enters, or merges into, the one-entry queue. -/
  | internalCommitRequest (mode : Option (Fin 7)) (role : Option (Fin 3)) (src : Option Bool)
  /-- INTERNAL_COMMIT_ISSUE (R105): Once the controller is IDLE the queued entry is written to the shadows and committed at now plus 1 ms. -/
  | internalCommitIssue
  /-- LANE_MODE_WRITE (R35): A write of LANE_CTL MODE, FEC or MEDIUM configures the lane or port, takes a running link down, or is refused. -/
  | laneModeWrite (r : Req) (n : Fin 74) (mode : Fin 16) (fec : Fin 4) (medium : Bool)
  /-- LANE_TXEQ_WRITE (R47): A write of the upper word of LANE_TXEQ installs the six coefficients or is refused. -/
  | laneTxeqWrite (r : Req) (n : Fin 74) (v : BitVec 64)
  /-- LANE_RAW_WRITE (R44): A write of LANE_RAW VCO or DIV on a raw spur lane is checked against the symbol-rate limit. -/
  | laneRawWrite (r : Req) (n : Fin 74) (div : Fin 16) (vco : BitVec 20)
  /-- QUAD_CTL_WRITE (R42): A write of QUAD_CTL FAMILY or VCO is refused while any lane of the quad is not OFF. -/
  | quadCtlWrite (r : Req) (q : Fin 16) (family : Fin 4) (txRef : Bool) (vco : BitVec 20)
  /-- QUAD_PLL_LOCK (R43): The quad transmit PLL reaches lock after powering up and the waiting lane proceeds. -/
  | quadPllLock (q : Fin 16)
  /-- TX_IDLE_EXIT (R51): TX_IDLE going to 0 in a raw mode sends the 64 UI training burst and then data. -/
  | txIdleExit (r : Req) (n : Fin 74)
  /-- RX_CDR_ACQUIRE (R52): A receiver re-centres or acquires afresh after electrical idle and sets CDR_LOCK. -/
  | rxCdrAcquire (n : Fin 74)
  /-- SLIP (R53): A write of 1 to LANE_SLIP.SLIP in a raw mode moves the receive word boundary, or is refused. -/
  | slip (r : Req) (n : Fin 74)
  /-- SLIP_DONE (R53): The slip completes within 8 parallel words and SLIP_BUSY clears. -/
  | slipDone (n : Fin 74)
  /-- ALIGNMENT_EVENT (R55): At each alignment marker or every 1024th word the lane samples and publishes its alignment positions. -/
  | alignmentEvent (n : Fin 74) (word : Fin 64) (gbx : Fin 64) (fec : BitVec 13) (am : BitVec 15)
  /-- AN_RESOLVED (R39): Clause 73 negotiation completes and a resolved mode that differs from the configured one holds the link down. -/
  | anResolved (n : Fin 72) (mode : Fin 16)
  /-- EYE_SCAN (R57): Every 10 ms while locked the eye monitor scans the lane and publishes LANE_EYE. -/
  | eyeScan (n : Fin 74) (w : Fin 65) (h : Fin 256) (worst : Fin 4)
  /-- OFFER_RECEIVE (R59): A received OFFER block advances the twin-lane bring-up from BASE to STEP or RUN, or from STEP to SWITCH. -/
  | offerReceive (t : Fin 2) (rate : Fin 3) (switch : Bool) (countdown : Fin 16)
  /-- TWIN_SWITCH_LOCK (R59): Block lock on both directions after a rate switch takes the twin lane to RUN. -/
  | twinSwitchLock (t : Fin 2)
  /-- TWIN_SWITCH_TIMEOUT (R59): No block lock within 10 ms of a rate switch returns the twin lane to BASE and counts a failure. -/
  | twinSwitchTimeout (t : Fin 2)
  /-- TWIN_LOCK_LOSS (R59): Block lock lost for 1 ms in RUN returns the twin lane to BASE. -/
  | twinLockLoss (t : Fin 2)
  /-- SKIP_BLOCK_RECEIVE (R60): A received SKIP block is deleted or duplicated to keep the 16-block elastic buffer between its limits. -/
  | skipBlockReceive (t : Fin 2) (fill : Fin 17) (slip : Bool)
  /-- MODULE_GO (R64): A write of GO starts a CMIS transaction on the module master, or is refused while busy. -/
  | moduleGo (r : Req) (m : Fin 8) (len : BitVec 8) (write : Bool)
  /-- MODULE_TRANSACTION_DONE (R63): A CMIS transaction completes with DONE, NACK, LOCKED or ABSENT. -/
  | moduleTransactionDone (m : Fin 8) (res : ModRes)
  /-- MODULE_TIMEOUT (R66): A transaction that makes no progress for 10 ms ends with STOP and sets TIMEOUT. -/
  | moduleTimeout (m : Fin 8)
  /-- MODULE_CHANGE (R67): A MODPRS_N change that lasts 50 ms raises LANE.MODULE_CHANGE and clears the port's delay validity. -/
  | moduleChange (p : Fin 72) (present : Bool) (cmis : Option (BitVec 16 × BitVec 16))
  /-- MEAS_POST (R76): A posted time-offset sample receives the first gate verdict that holds and is counted, and an accepted one enters the servo ring. -/
  | measPost (r : Req) (ofs : BitVec 64) (at_ : BitVec 96) (src : BitVec 8)
  /-- JUMP_PERSIST (R85): The persistence timer reaching JUMP_PERSIST switches to HOLD at once and requests HOLDOVER or FREE-RUN. -/
  | jumpPersist
  /-- SERVO_CYCLE_BOUNDARY (R77): At a cycle boundary the Bell Tower writes the ring header of the closing cycle and starts the next cycle's entries. -/
  | servoCycleBoundary (phase : BitVec 64)
  /-- SERVO_DEADLINE (R88): At a cycle deadline the last valid firmware word takes effect, or a miss is counted, and the hardware servo computes. -/
  | servoDeadline
  /-- BELL_FW_UPD (R88): A write of the upper word of BELL_FW_UPD posts a firmware frequency word for the pending deadline, or counts a SEQ error. -/
  | bellFwUpd (r : Req) (freq : BitVec 48) (seq : BitVec 16)
  /-- STEP_REQ (R80): A write of BELL_STEP_CTL.REQ schedules a step as a timed commit at T, or is refused. -/
  | stepReq (r : Req) (kind : Bool)
  /-- STEP_DONE (R82): The last phase step completes, STEPPING clears and BELL.STEP_DONE is raised. -/
  | stepDone
  /-- STEP_AUTH (R86): A write of BELL_STEP_AUTH in PERSISTENT authorises a step of −JUMP_OFS, or is refused. -/
  | stepAuth (r : Req) (gen : BitVec 16)
  /-- REPLICA_MARKER (R95): A replica receives the broadcast marker every 16 ticks and checks its agreement with it. -/
  | replicaMarker (n : Fin 90) (agrees stepFlag : Bool)
  /-- REPLICA_ECHO (R93): Every 1 s and at each 2 °C change the replica's crossing delay is measured by echo and published. -/
  | replicaEcho (n : Fin 90) (dly : BitVec 24)
  /-- COARSE_COPY_SET (R94): Each second the Hearth sets its coarse copy of the timescale from the PPSOUT0 tap. -/
  | coarseCopySet
  /-- LEAP_APPLIED (R97): SEC reaching BELL_LEAP_AT with a leap flag set adjusts UTC_OFS, clears the flags and raises BELL.LEAP_APPLIED. -/
  | leapApplied
  /-- FRAME_RECEIVE (R243): A received frame is checked by the MAC, stamped at the ball and dropped, stomped or passed on. -/
  | frameReceive (p : Fin 72) (x : StampIn) (octets : List (BitVec 8))
  /-- PHASE_PUBLISH (R110): Once per millisecond LANE_PHASE publishes TX_PHASE and RX_PHASE. -/
  | phasePublish (n : Fin 74) (tx : BitVec 16) (rx : BitVec 12)
  /-- SENSOR_SAMPLE (R453): The Hearth samples each sensor at its period, publishes it and raises REE.SENSOR_LIMIT beyond the limits. -/
  | sensorSample (x : Sens) (bad : Option (Fin 17))
  /-- DELAY_CHECK_START (R142): START with KIND 0, or link up with AUTO_CHECK, begins a port delay check. -/
  | delayCheckStart (r : Req) (p : Fin 72)
  /-- DELAY_CHECK_WAIT_EXPIRY (R142): 100 ms after ALIGN_VALID the check reads module delays and runs the loopback comparison and exchanges. -/
  | delayCheckWaitExpiry (p : Fin 72) (cmis : Option (BitVec 16 × BitVec 16)) (resid : BitVec 16)
  /-- DELAY_CHECK_DONE (R142): The check ends after its exchanges and sets DLY_VALID or raises LANE.DELAY_SHIFT. -/
  | delayCheckDone (p : Fin 72) (rt : Option (BitVec 64))
  /-- ASYM_SURVEY_START (R133): START with KIND 1 begins an asymmetry survey in TUNE, or is refused. -/
  | asymSurveyStart (r : Req) (p : Fin 72) (probe : Bool)
  /-- LOOPBACK_SURVEY_START (R127): START with KIND 2 begins a loopback delay survey in its Weighhouse phase. -/
  | loopbackSurveyStart (r : Req) (p : Fin 72)
  /-- LOOPBACK_PHASE1_DONE (R127): After 64 s of Weighhouse records MOD_TX is computed and the lane returns to Ethernet for phase 2. -/
  | loopbackPhase1Done (mean : BitVec 64) (bad : Fin 65) (rec : BitVec 32)
  /-- LOOPBACK_PROBE_TIMEOUT (R128): No Weighhouse record within 2 s of a launch fails phase 1 with ERR PROBE. -/
  | loopbackProbeTimeout
  /-- LOOPBACK_SURVEY_DONE (R127): Phase 2's 4096 looped requests complete and MOD_RX, or the assumed split, is published. -/
  | loopbackSurveyDone (rt : BitVec 64)
  /-- SURVEY_ABORT (R135): A write of ABORT, or link down, takes a running survey to FAIL. -/
  | surveyAbort (r : Req)
  /-- SURVEY_APPLY (R135): A write of APPLY in DONE makes the published ASYM take effect at the next cycle boundary. -/
  | surveyApply (r : Req)
  /-- SURVEY_EXCHANGE (R135): Each millisecond in MEASURE the survey sends a REQ exchange. -/
  | surveyExchange
  /-- SURVEY_REQ_RECEIVE (R136): A received survey REQ is answered with a RESP carrying t2, t3 and DLY_SUM while RESP_EN is 1. -/
  | surveyReqReceive (p : Fin 72) (t2 : ObsStamp) (m : SurvMsg)
  /-- SURVEY_RESP_RECEIVE (R135): A received RESP completes an exchange and may end a segment. -/
  | surveyRespReceive (p : Fin 72) (t4 : ObsStamp) (m : SurvMsg)
  /-- SURVEY_TUNE_RECEIVE (R138): A received TUNE retunes the responder's module and answers TUNE_ACK. -/
  | surveyTuneReceive (p : Fin 72) (m : SurvMsg) (ok : Bool)
  /-- SURVEY_TUNE_ACK_RECEIVE (R135): A received TUNE_ACK lets the survey leave TUNE once the link is valid and RETUNE_WAIT has elapsed. -/
  | surveyTuneAckReceive (p : Fin 72) (m : SurvMsg)
  /-- SURVEY_END_RECEIVE (R136): A received END message closes the peer's part of the survey. -/
  | surveyEndReceive (p : Fin 72) (m : SurvMsg)
  /-- RETUNE_WAIT_EXPIRY (R135): RETUNE_WAIT elapsing with acknowledgement and valid link moves TUNE to MEASURE. -/
  | retuneWaitExpiry (tuned : Bool)
  /-- SURVEY_TUNE_TIMEOUT (R135): No TUNE_ACK within 5 s, or no link in time, takes the survey to FAIL. -/
  | surveyTuneTimeout
  /-- SURVEY_PEER_TIMEOUT (R135): No response to three consecutive requests takes the survey to FAIL with ERR PEER. -/
  | surveyPeerTimeout
  /-- SURVEY_SOLVE (R139): SOLVE computes Δ, ASYM and their uncertainty, restores pair A and may apply the result. -/
  | surveySolve
  /-- SLOT_ENABLE_WRITE (R145): A write of a selector slot's ENABLE moves it between OFF and LOS, or is refused for a duplicate source. -/
  | slotEnableWrite (r : Req) (n : Fin 16) (v : Bool)
  /-- SLOT_SRC_WRITE (R145): A write that changes an enabled slot's SRC restarts the slot in LOS, or is refused. -/
  | slotSrcWrite (r : Req) (n : Fin 16) (src : BitVec 7)
  /-- SLOT_LOCKOUT_WRITE (R156): A write of LOCKOUT takes a slot out of selection into LOCKOUT, or returns it to DISQUALIFIED. -/
  | slotLockoutWrite (r : Req) (n : Fin 16) (v : Bool)
  /-- SIGNAL_PRESENCE_CHANGE (R565): A change of a slot's signal presence moves it between LOS, QUALIFYING and DISQUALIFIED within 10 µs. -/
  | signalPresenceChange (src : Fin 82) (present : Bool)
  /-- MONITOR_EVALUATION (R152): Every second each valid window is checked against its limits and the middle-window agreement check runs. -/
  | monitorEvaluation (ms : List SlotMeas)
  /-- LONG_WINDOW_EVALUATION (R151): Every 64 s the long window and the drift rate are evaluated and checked. -/
  | longWindowEvaluation (ms : List SlotLong)
  /-- WTR_EXPIRY (R156): The wait-to-restore timer expiring makes a WTR slot QUALIFIED. -/
  | wtrExpiry (n : Fin 16)
  /-- FORCE_WRITE (R159): A write of FORCE_EN or FORCE_SLOT selects the forced slot or is refused. -/
  | forceWrite (r : Req) (en : Bool) (slot : Fin 16)
  /-- ESMC_RECEIVE (R149): A received ESMC PDU updates the port's quality, which takes effect at the next evaluation. -/
  | esmcReceive (p : Fin 72) (ssm : BitVec 4) (ext : Option (BitVec 8))
  /-- ESMC_TIMEOUT (R149): No ESMC PDU for 5 s makes the port's quality QL-FAILED. -/
  | esmcTimeout (p : Fin 72)
  /-- ESMC_INFO_SEND (R150): Each second an ESMC information PDU is sent on each enabled syntonised port. -/
  | esmcInfoSend (p : Fin 72)
  /-- ESMC_EVENT_SEND (R150): An ESMC event PDU is sent within 10 ms of a change of the transmitted quality. -/
  | esmcEventSend (p : Fin 72)
  /-- REFERENCE_LOOP_UPDATE (R164): At each phase-detector period the type-2 reference loop updates the frequency word. -/
  | referenceLoopUpdate (phase : BitVec 64)
  /-- OPLL_UNLOCK (R167): Loss of output PLL lock voids stamps and records, squelches every output and raises PLL.OPLL_UNLOCK. -/
  | opllUnlock
  /-- OPLL_RELOCK (R167): On relock the timescale is reloaded from the Hearth's coarse copy and the mode transition for the loss is taken. -/
  | opllRelock
  /-- HOLDOVER_HISTORY_ENTRY (R168): Every 64 s while LOCKED the Hearth stores a holdover history entry and updates HIST_S. -/
  | holdoverHistoryEntry
  /-- HOLDOVER_EXPIRED (R171): B(t) above TE_MAX or t above T_MAX sets EXPIRED and raises SEL.HOLDOVER_EXPIRED. -/
  | holdoverExpired
  /-- DAC_TRANSFER (R172): At each 16th deadline the OCXO DAC code moves one step toward the mean word and DAC_XFER changes. -/
  | dacTransfer
  /-- DAC_CODE_WRITE (R172): A host write of CODE in SURVEY or SERVICE sets the DAC code, or is refused in other modes. -/
  | dacCodeWrite (r : Req) (v : BitVec 20)
  /-- TRIG_ARM (R179): A write of ARM schedules a trigger output at TRIG_T plus the delay, or is refused and sets MISSED. -/
  | trigArm (r : Req) (k : Fin 8)
  /-- TRIG_DISARM (R179): A write of DISARM ends the trigger at the end of its high phase. -/
  | trigDisarm (r : Req) (k : Fin 8)
  /-- TRIGGER_FIRE (R179): The trigger's scheduled time arrives and the output rises, pulses or starts its train. -/
  | triggerFire (k : Fin 8)
  /-- TRIGGER_DONE (R179): The last pulse of a trigger ends and DONE is set. -/
  | triggerDone (k : Fin 8)
  /-- TOD_SEND (R182): START ms after the PPSOUT edge the time-of-day output sends its time event and announce messages. -/
  | todSend
  /-- CAPTURE_EDGE (R183): A selected edge on ECAPk is stamped and its record enters the FIFO, or is dropped as DEAD or OVERRUN. -/
  | captureEdge (k : Fin 8) (rise : Bool) (ofs : Fin 160)
  /-- CAPTURE_FIFO_READ (R184): A read of the FIFO's word 0 removes the oldest capture record into the reader's latch. -/
  | captureFifoRead (r : Req) (k : Fin 8)
  /-- INTERVAL_TIMEOUT (R185): A capture interval open longer than IV_MAX is discarded and counted in TIMEOUT. -/
  | intervalTimeout (j : Fin 4)
  /-- FRAME_DEPARTURE (R194): A frame's first word leaving the transmit queue fixes its departure time and its stamp action is applied in flight. -/
  | frameDeparture (p : Fin 72) (x : StampOut)
  /-- FRAME_TRANSMIT_END (R202): The last octet of a frame leaves the ball and its transmit record is written. -/
  | frameTransmitEnd (p : Fin 72)
  /-- RING_ENABLE_WRITE (R200): A write of RING_EN = 1 sets HEAD to 0 and PHASE to 1, and ring fields are refused while enabled. -/
  | ringEnableWrite (r : Req) (p : Fin 72) (w : BitVec 32)
  /-- PEER_DELAY_RESPOND (R209): A frame with PDR = 1 is consumed by the responder, which answers a matching Pdelay_Req or drops it. -/
  | peerDelayRespond (p : Fin 72)
  /-- PDELAY_FOLLOW_UP_SEND (R210): In two-step mode the responder sends Pdelay_Resp_Follow_Up with the response's departure time. -/
  | pdelayFollowUpSend (p : Fin 72)
  /-- OBSERVER_MESSAGE (R212): An observer pairs a matching PTP message's records into an exchange and its offset and path delay. -/
  | observerMessage (o : Fin 4) (h : ObsHdr) (m : ObsMsg)
  /-- OBSERVER_STALE (R214): No Announce or Sync from the parent in three intervals sets STALE and raises STAMP.OBS_STALE. -/
  | observerStale (o : Fin 4)
  /-- OBSERVER_CFG_WRITE (R211): A write of PARENT, PORT or DOM clears the observer's pairing state. -/
  | observerCfgWrite (r : Req) (o : Fin 4) (w : ObsWrite)
  /-- HEAD_WINDOW_COMPLETE (R219): A frame's head window is complete and it enters the ingress pipeline, runs its program and is enqueued. -/
  | headWindowComplete (p : Fin 72)
  /-- FRAME_COMPLETE (R233): A stored frame's last cell is written and its FCS passes, making its descriptors eligible. -/
  | frameComplete (p : Fin 72)
  /-- CUT_THROUGH_UNDERRUN (R235): A cell not written within 1 µs of the egress needing it stomps the cut-through copy. -/
  | cutThroughUnderrun (p : Fin 72)
  /-- SCHEDULER_SELECT (R239): When the transmitter can start a frame the scheduler picks an eligible queue and the frame passes the egress pipeline. -/
  | schedulerSelect (p : Fin 72) (ue : Option (Fin 64 × BitVec 16))
  /-- PROGRAM_WORD_WRITE (R223): A write of a stage-cell program word updates the inactive bank, or is refused for the bank in effect. -/
  | programWordWrite (r : Req) (c : Fin 96) (eg bankB : Bool) (k : Fin 24) (w : BitVec 32)
  /-- LKP_TBL_WRITE (R225): A write of a table descriptor binds the table, empties it with KIND 0, or is refused. -/
  | lkpTblWrite (r : Req) (t : Fin 64) (word1 : Bool) (w : BitVec 32)
  /-- LKP_NOP (R225): Lookup command NOP does nothing and returns OK. -/
  | lkpNop (r : Req) (i : Fin 2) (tbl : Fin 64) (vis : Fin 4)
  /-- LKP_INSERT (R226): Lookup command INSERT adds an exact-match entry, relocating up to 64 entries, or ends EXISTS or FULL. -/
  | lkpInsert (r : Req) (i : Fin 2) (tbl : Fin 64) (vis : Fin 4)
  /-- LKP_DELETE (R228): Lookup command DELETE removes a key. -/
  | lkpDelete (r : Req) (i : Fin 2) (tbl : Fin 64) (vis : Fin 4)
  /-- LKP_MODIFY (R228): Lookup command MODIFY replaces the DATA and VIS of a key. -/
  | lkpModify (r : Req) (i : Fin 2) (tbl : Fin 64) (vis : Fin 4)
  /-- LKP_READ_KEY (R228): Lookup command READ_KEY returns the DATA, VIS, HIT and INDEX of a key. -/
  | lkpReadKey (r : Req) (i : Fin 2) (tbl : Fin 64) (vis : Fin 4)
  /-- LKP_READ_INDEX (R228): Lookup command READ_INDEX returns the entry at an index. -/
  | lkpReadIndex (r : Req) (i : Fin 2) (tbl : Fin 64) (vis : Fin 4)
  /-- LKP_WRITE_INDEX (R227): Lookup command WRITE_INDEX writes a ternary entry at an index. -/
  | lkpWriteIndex (r : Req) (i : Fin 2) (tbl : Fin 64) (vis : Fin 4)
  /-- LKP_CLEAR_HIT (R228): Lookup command CLEAR_HIT returns and clears an entry's HIT bit. -/
  | lkpClearHit (r : Req) (i : Fin 2) (tbl : Fin 64) (vis : Fin 4)
  /-- GATE_EDGE (R240): A gate-list entry boundary, applied GATE_LEAD ahead, opens or closes queue gates. -/
  | gateEdge (p : Fin 72)
  /-- GATE_LIST_SWAP (R241): At the first cycle start at or after T the committed admin list becomes the operating list. -/
  | gateListSwap (p : Fin 72)
  /-- PAUSE_RECEIVE (R247): A received PAUSE frame pauses all eight queues for its quanta or resumes them. -/
  | pauseReceive (p : Fin 72) (quanta : BitVec 16)
  /-- PFC_RECEIVE (R247): A received PFC frame pauses or resumes the queues mapped to its enabled priorities. -/
  | pfcReceive (p : Fin 72) (en : BitVec 8) (times : BitVec 128)
  /-- PAUSE_EXPIRY (R247): A received pause time runs out and the class's queues resume. -/
  | pauseExpiry (p : Fin 72) (c : Fin 9)
  /-- PAUSE_FRAME_SEND (R248): The port sends XOFF, repeated XOFF or XON pause frames as its ingress owner's cell count crosses thresholds. -/
  | pauseFrameSend (p : Fin 72) (c : Fin 9)
  /-- PAUSE_STORM (R249): A queue paused for PWD_LIMIT ms is released, ignores pauses for PWD_HOLD and PORT.PAUSE_STORM is raised. -/
  | pauseStorm (p : Fin 72) (t : Fin 8)
  /-- PAUSE_HOLD_EXPIRY (R249): The watchdog hold ends and the queue obeys pause frames again. -/
  | pauseHoldExpiry (p : Fin 72) (t : Fin 8)
  /-- PORT_EN_WRITE (R250): A write of PORT_CTL.EN moves a port out of DISABLED, or drains it to DISABLED. -/
  | portEnWrite (r : Req) (p : Fin 72) (v : Bool)
  /-- LINK_DOWN (R250): Link loss truncates the frame in transmission, starts the flush and clears delay validity. -/
  | linkDown (p : Fin 72) (lock : Bool)
  /-- LINK_UP (R250): Link return moves a DOWN port to HOLDOFF or starts the hold-off in DRAINING. -/
  | linkUp (p : Fin 72)
  /-- HOLDOFF_EXPIRY (R250): The hold-off timer reaching HOLDOFF ms makes the port UP and may start a delay check. -/
  | holdoffExpiry (p : Fin 72)
  /-- FLUSH_STEP (R252): Each market cycle the egress returns one descriptor of a draining port and reduces its frame's count. -/
  | flushStep (sl : Fin 8)
  /-- POOL_REQUEST (R265): A buffer request is granted from reserve or the shared part in the cycle's order, or denied. -/
  | poolRequest (fp : Fin 8) (fe : Fin 16) (rs : List PoolReq)
  /-- BUFFER_REF (R268): A REF adds to a buffer's reference count, or is refused above 255. -/
  | bufferRef (w : PoolWho) (h : BitVec 32) (k : Fin 256)
  /-- BUFFER_DEREF (R268): A DEREF subtracts from a buffer's count and frees it at zero. -/
  | bufferDeref (w : PoolWho) (h : BitVec 32) (k : Fin 256)
  /-- POOL_THAW (R271): A write of a handle to POOL_THAW returns a frozen buffer or chain to the bitmap. -/
  | poolThaw (r : Req) (h : BitVec 32)
  /-- POOL_OPEN_WRITE (R261): A write of OPEN = 1 opens the pools or is refused by the partition and reserve checks. -/
  | poolOpenWrite (r : Req) (v : Bool)
  /-- SPILL_EN_WRITE (R276): A write of SPILL_EN = 1 enables spilling or is refused. -/
  | spillEnWrite (r : Req) (v : Bool)
  /-- SPILL (R272): A copy enqueued above SPILL_THR is copied to a Cellar buffer and its Granary chain dereferenced. -/
  | spill (p : Fin 72) (t : Fin 8)
  /-- REFILL (R273): While the Granary part is below REFILL_THR the oldest Cellar frame is copied back, retried each cycle when denied. -/
  | refill (p : Fin 72) (t : Fin 8)
  /-- STACK_FAIL (R275): A Cellar stack failure marks the stack unusable, removes its buffers and clears SPILL_EN. -/
  | stackFail (k : Fin 4) (c : StackCause)
  /-- STACK_MARK (R275): A host write of CEL_STACK.MARK fails the stack. -/
  | stackMark (r : Req) (k : Fin 4)
  /-- WIPE_DONE (R277): A hardware memory wipe completes and WIPE_DONE reads 1. -/
  | wipeDone (m : Option (Fin 4))
  /-- THREAD_START (R300): A write of TCTL.START starts an IDLE thread at TPC and its level, or is refused. -/
  | threadStart (r : Req) (e : Fin 16) (t : Fin 8)
  /-- THREAD_STOP (R300): A write of TCTL.STOP stops a running or waiting thread at the next instruction boundary. -/
  | threadStop (r : Req) (e : Fin 16) (t : Fin 8)
  /-- THREAD_RESUME (R300): A write of TCTL.RESUME restarts a stopped thread from TPC. -/
  | threadResume (r : Req) (e : Fin 16) (t : Fin 8)
  /-- THREAD_CLEAR (R300): A write of TCTL.CLEAR sets the thread IDLE with its registers cleared. -/
  | threadClear (r : Req) (e : Fin 16) (t : Fin 8)
  /-- STOP_ALL (R300): A write of ENG_CTL.STOP_ALL sends STOP to every thread. -/
  | stopAll (r : Req) (e : Fin 16)
  /-- ENG_CINV_WRITE (R283): A write of ENG_CTL.CINV invalidates every line of the Cellar cache. -/
  | engCinvWrite (r : Req) (e : Fin 16)
  /-- ENG_MARK (R302): Marking an engine unusable halts its threads, flushes its queues and raises ENG.UNUSABLE. -/
  | engMark (r : Req) (e : Fin 16)
  /-- ENG_FRESET (R303): An engine function reset idles its threads, flushes queues and hatches, and wipes its Pantry. -/
  | engFreset (r : Req) (e : Fin 16)
  /-- PANTRY_WIPE_DONE (R303): The 50 µs Pantry wipe completes and WIPING clears. -/
  | pantryWipeDone (e : Fin 16)
  /-- ASYNC_STORE_FAIL (R299): A posted Cellar store that fails after issue raises ASYNC at the thread's next instruction boundary. -/
  | asyncStoreFail (e : Fin 16) (t : Fin 8) (a : BitVec 48)
  /-- WAIT_DEADLINE (R301): A blocking wait's deadline time is reached and the wait completes with result 0. -/
  | waitDeadline (e : Fin 16) (t : Fin 8)
  /-- HATCH_PUT (R307): A Reeve or host write of ENG_HATCH.PUT posts a message to a hatch, or sets HREFUSED. -/
  | hatchPut (r : Req) (e : Fin 16) (h : Fin 16) (v : BitVec 64)
  /-- ENGINE_QUEUE_OFFER (R304): A copy offered to an engine input queue is stored, waking a waiting QDEQ, or refused. -/
  | engineQueueOffer (e : Fin 16) (q : Fin 64) (h : BitVec 32) (md : BitVec 512)
  /-- ADD (R325): Instruction add writes the sum of two registers. -/
  | add (x : Issue) (i : RIns)
  /-- SUB (R325): Instruction sub writes the difference of two registers. -/
  | sub (x : Issue) (i : RIns)
  /-- AND (R325): Instruction and writes the bitwise and. -/
  | tzAnd (x : Issue) (i : RIns)
  /-- OR (R325): Instruction or writes the bitwise or. -/
  | or (x : Issue) (i : RIns)
  /-- XOR (R325): Instruction xor writes the bitwise exclusive or. -/
  | xor (x : Issue) (i : RIns)
  /-- SHL (R325): Instruction shl shifts left by a register amount. -/
  | shl (x : Issue) (i : RIns)
  /-- SHR (R325): Instruction shr shifts right logically by a register amount. -/
  | shr (x : Issue) (i : RIns)
  /-- SAR (R325): Instruction sar shifts right arithmetically by a register amount. -/
  | sar (x : Issue) (i : RIns)
  /-- MUL (R325): Instruction mul writes the low 64 bits of the product. -/
  | mul (x : Issue) (i : RIns)
  /-- MULH (R325): Instruction mulh writes the high 64 bits of the signed product. -/
  | mulh (x : Issue) (i : RIns)
  /-- DIV (R326): Instruction div writes the signed quotient without trapping. -/
  | div (x : Issue) (i : RIns)
  /-- REM (R326): Instruction rem writes the signed remainder without trapping. -/
  | rem (x : Issue) (i : RIns)
  /-- MIN (R325): Instruction min writes the signed minimum. -/
  | min (x : Issue) (i : RIns)
  /-- MAX (R325): Instruction max writes the signed maximum. -/
  | max (x : Issue) (i : RIns)
  /-- MINU (R325): Instruction minu writes the unsigned minimum. -/
  | minu (x : Issue) (i : RIns)
  /-- MAXU (R325): Instruction maxu writes the unsigned maximum. -/
  | maxu (x : Issue) (i : RIns)
  /-- ADDI (R327): Instruction addi adds a sign-extended immediate. -/
  | addi (x : Issue) (i : IIns)
  /-- ANDI (R327): Instruction andi ands a sign-extended immediate. -/
  | andi (x : Issue) (i : IIns)
  /-- ORI (R327): Instruction ori ors a sign-extended immediate. -/
  | ori (x : Issue) (i : IIns)
  /-- XORI (R327): Instruction xori exclusive-ors a sign-extended immediate. -/
  | xori (x : Issue) (i : IIns)
  /-- SHLI (R327): Instruction shli shifts left by an immediate. -/
  | shli (x : Issue) (i : IIns)
  /-- SHRI (R327): Instruction shri shifts right logically by an immediate. -/
  | shri (x : Issue) (i : IIns)
  /-- SARI (R327): Instruction sari shifts right arithmetically by an immediate. -/
  | sari (x : Issue) (i : IIns)
  /-- LUI (R327): Instruction lui loads a sign-extended upper immediate. -/
  | lui (x : Issue) (i : JIns)
  /-- CMP (R327): Instruction cmp.cc writes a predicate from comparing two registers. -/
  | cmp (x : Issue) (f : Fin 128) (i : RIns)
  /-- CMPI (R327): Instruction cmpi.cc writes a predicate from comparing a register with an immediate. -/
  | cmpi (x : Issue) (i : IIns)
  /-- PAND (R327): Instruction pand ands two predicates. -/
  | pand (x : Issue) (i : RIns)
  /-- POR (R327): Instruction por ors two predicates. -/
  | por (x : Issue) (i : RIns)
  /-- PXOR (R327): Instruction pxor exclusive-ors two predicates. -/
  | pxor (x : Issue) (i : RIns)
  /-- PANDN (R327): Instruction pandn ands a predicate with the complement of another. -/
  | pandn (x : Issue) (i : RIns)
  /-- PMOV (R327): Instruction pmov moves between predicate and general registers. -/
  | pmov (x : Issue) (k : Fin 3) (i : RIns)
  /-- BFX (R327): Instruction bfx extracts a bit field. -/
  | bfx (x : Issue) (i : IIns)
  /-- BFI (R327): Instruction bfi inserts a bit field. -/
  | bfi (x : Issue) (i : IIns)
  /-- BR (R328): Instruction br branches when its predicate is 1. -/
  | br (x : Issue) (i : IIns)
  /-- BRN (R328): Instruction brn branches when its predicate is 0. -/
  | brn (x : Issue) (i : IIns)
  /-- JAL (R328): Instruction jal jumps and links unconditionally. -/
  | jal (x : Issue) (i : JIns)
  /-- SKIP (R313): Instruction skip passes over the next n words when its predicate is 1. -/
  | skip (x : Issue) (i : IIns)
  /-- LD_B (R330): Instruction ld.b loads one byte zero-extended. -/
  | ldB (x : Issue) (ue : Bool) (i : IIns)
  /-- LD_H (R330): Instruction ld.h loads two bytes zero-extended. -/
  | ldH (x : Issue) (ue : Bool) (i : IIns)
  /-- LD_W (R330): Instruction ld.w loads four bytes zero-extended. -/
  | ldW (x : Issue) (ue : Bool) (i : IIns)
  /-- LD_D (R330): Instruction ld.d loads eight bytes. -/
  | ldD (x : Issue) (ue : Bool) (i : IIns)
  /-- ST_B (R330): Instruction st.b stores one byte. -/
  | stB (x : Issue) (i : IIns)
  /-- ST_H (R330): Instruction st.h stores two bytes. -/
  | stH (x : Issue) (i : IIns)
  /-- ST_W (R330): Instruction st.w stores four bytes. -/
  | stW (x : Issue) (i : IIns)
  /-- ST_D (R330): Instruction st.d stores eight bytes. -/
  | stD (x : Issue) (i : IIns)
  /-- AMO_ADD (R331): Atomic amo.add adds to a word and returns the old value. -/
  | amoAdd (x : Issue) (ue : Bool) (i : RIns)
  /-- AMO_AND (R331): Atomic amo.and ands into a word and returns the old value. -/
  | amoAnd (x : Issue) (ue : Bool) (i : RIns)
  /-- AMO_OR (R331): Atomic amo.or ors into a word and returns the old value. -/
  | amoOr (x : Issue) (ue : Bool) (i : RIns)
  /-- AMO_XOR (R331): Atomic amo.xor exclusive-ors into a word and returns the old value. -/
  | amoXor (x : Issue) (ue : Bool) (i : RIns)
  /-- AMO_SWAP (R331): Atomic amo.swap exchanges a word and returns the old value. -/
  | amoSwap (x : Issue) (ue : Bool) (i : RIns)
  /-- AMO_MIN (R331): Atomic amo.min keeps the signed minimum and returns the old value. -/
  | amoMin (x : Issue) (ue : Bool) (i : RIns)
  /-- AMO_MAX (R331): Atomic amo.max keeps the signed maximum and returns the old value. -/
  | amoMax (x : Issue) (ue : Bool) (i : RIns)
  /-- AMO_MINU (R331): Atomic amo.minu keeps the unsigned minimum and returns the old value. -/
  | amoMinu (x : Issue) (ue : Bool) (i : RIns)
  /-- AMO_MAXU (R331): Atomic amo.maxu keeps the unsigned maximum and returns the old value. -/
  | amoMaxu (x : Issue) (ue : Bool) (i : RIns)
  /-- CAS (R331): Atomic cas writes a new value if the word equals the expected one and returns the old value. -/
  | cas (x : Issue) (ue : Bool) (i : RIns)
  /-- VADD (R333): Vector vadd adds selected elements. -/
  | vadd (x : Issue) (i : VIns)
  /-- VSUB (R333): Vector vsub subtracts selected elements. -/
  | vsub (x : Issue) (i : VIns)
  /-- VMUL (R333): Vector vmul multiplies selected elements. -/
  | vmul (x : Issue) (i : VIns)
  /-- VAND (R333): Vector vand ands selected elements. -/
  | vand (x : Issue) (i : VIns)
  /-- VOR (R333): Vector vor ors selected elements. -/
  | vor (x : Issue) (i : VIns)
  /-- VXOR (R333): Vector vxor exclusive-ors selected elements. -/
  | vxor (x : Issue) (i : VIns)
  /-- VSHR (R333): Vector vshr shifts selected elements right arithmetically. -/
  | vshr (x : Issue) (i : VIns)
  /-- VMIN (R333): Vector vmin takes the signed minimum of real elements. -/
  | vmin (x : Issue) (i : VIns)
  /-- VMAX (R333): Vector vmax takes the signed maximum of real elements. -/
  | vmax (x : Issue) (i : VIns)
  /-- VMAC (R334): Vector vmac accumulates real products into accumulators. -/
  | vmac (x : Issue) (i : VIns)
  /-- VCMAC (R334): Vector vcmac accumulates complex products into accumulators. -/
  | vcmac (x : Issue) (i : VIns)
  /-- VCMACJ (R334): Vector vcmacj accumulates conjugated complex products. -/
  | vcmacj (x : Issue) (i : VIns)
  /-- VRED_SUM (R335): Vector vred.sum sums selected elements. -/
  | vredSum (x : Issue) (i : VIns)
  /-- VRED_MAX (R335): Vector vred.max finds the largest selected element and its index. -/
  | vredMax (x : Issue) (i : VIns)
  /-- VRED_CAT (R335): Vector vred.cat packs selected elements. -/
  | vredCat (x : Issue) (i : VIns)
  /-- VLD (R336): Vector vld loads 64 bytes. -/
  | vld (x : Issue) (ue : Bool) (i : IIns)
  /-- VST (R336): Vector vst stores 64 bytes. -/
  | vst (x : Issue) (i : IIns)
  /-- VMOV (R336): Vector vmov copies selected lanes. -/
  | vmov (x : Issue) (i : VIns)
  /-- VSPLAT (R336): Vector vsplat fills selected elements from a general register. -/
  | vsplat (x : Issue) (i : VIns)
  /-- VPERM (R336): Vector vperm permutes elements by index. -/
  | vperm (x : Issue) (i : VIns)
  /-- VCVT (R337): Vector vcvt widens, narrows or copies element types. -/
  | vcvt (x : Issue) (f : Fin 16) (i : VIns)
  /-- FEXT (R339): Frame instruction fext reads octets of a frame big-endian. -/
  | fext (x : Issue) (ue : Bool) (i : IIns)
  /-- FINS (R339): Frame instruction fins writes octets into a frame big-endian. -/
  | fins (x : Issue) (i : IIns)
  /-- FCSUM (R340): Frame instruction fcsum updates a one's-complement checksum for replaced words. -/
  | fcsum (x : Issue) (f : Fin 128) (i : RIns)
  /-- FCFADD (R341): Frame instruction fcfadd adds to a PTP correctionField with checksum handling. -/
  | fcfadd (x : Issue) (f : Fin 128) (i : RIns)
  /-- MDLD (R342): Stage-cell instruction mdld reads frame metadata. -/
  | mdld (x : Issue) (i : IIns)
  /-- MDST (R342): Stage-cell instruction mdst writes frame metadata where allowed. -/
  | mdst (x : Issue) (i : IIns)
  /-- FWIN (R342): Stage-cell instruction fwin inserts or removes octets in the head window. -/
  | fwin (x : Issue) (i : IIns)
  /-- LKX (R343): Instruction lkx issues an exact-match lookup. -/
  | lkx (x : Issue) (i : IIns)
  /-- LKT (R343): Instruction lkt issues a ternary lookup. -/
  | lkt (x : Issue) (i : IIns)
  /-- LKRES (R343): Instruction lkres reads a lookup result word or hit predicate. -/
  | lkres (x : Issue) (i : IIns)
  /-- LKUPD (R345): Instruction lkupd executes a lookup command from a Pantry command block and waits for it. -/
  | lkupd (x : Issue) (f : Fin 128) (i : RIns)
  /-- TNOW (R346): Instruction tnow reads the replica's bell time. -/
  | tnow (x : Issue) (i : RIns)
  /-- TCMP (R346): Instruction tcmp compares two time registers. -/
  | tcmp (x : Issue) (f : Fin 128) (i : RIns)
  /-- TADD (R347): Instruction tadd adds a signed offset to a time with normalisation. -/
  | tadd (x : Issue) (i : RIns)
  /-- TSUB (R346): Instruction tsub writes the saturated difference of two times. -/
  | tsub (x : Issue) (i : RIns)
  /-- TMOV (R346): Instruction tmov copies a time register. -/
  | tmov (x : Issue) (i : RIns)
  /-- TMOV_LO (R346): Instruction tmov.lo moves the low 64 bits of a time to a register. -/
  | tmovLo (x : Issue) (i : RIns)
  /-- TMOV_HI (R346): Instruction tmov.hi moves the high 32 bits of a time to a register. -/
  | tmovHi (x : Issue) (i : RIns)
  /-- TMOV_SET (R347): Instruction tmov.set builds a normalised time from two registers. -/
  | tmovSet (x : Issue) (i : RIns)
  /-- TWAIT (R348): Instruction twait blocks the thread until the replica reads a given time. -/
  | twait (x : Issue) (i : RIns)
  /-- TWAIT_FIRE (R301): The replica reaches a waiting twait's time, or a step passes it, and the thread resumes. -/
  | twaitFire (c : Core)
  /-- TEMIT (R349): Instruction temit schedules a frame for release at a time, or returns 0. -/
  | temit (x : Issue) (f : Fin 128) (i : RIns)
  /-- EMIT_RELEASE (R349): A pending emit's time arrives and the frame is offered as qenq offers. -/
  | emitRelease (e : Fin 16)
  /-- PALLOC (R350): Instruction palloc requests a buffer for the engine's owner. -/
  | palloc (x : Issue) (f : Fin 128) (i : RIns)
  /-- PDEREF (R350): Instruction pderef applies DEREF to a handle. -/
  | pderef (x : Issue) (i : RIns)
  /-- PREF (R350): Instruction pref applies REF to a handle. -/
  | pref (x : Issue) (i : RIns)
  /-- QENQ (R351): Instruction qenq offers a handle to a destination and consumes the reference on acceptance. -/
  | qenq (x : Issue) (i : RIns)
  /-- QDEQ (R351): Instruction qdeq takes a descriptor from the lowest non-empty masked input queue, or waits. -/
  | qdeq (x : Issue) (f : Fin 128) (i : RIns)
  /-- HPUT (R351): Instruction hput puts a message into a hatch of an engine. -/
  | hput (x : Issue) (i : RIns)
  /-- HGET (R351): Instruction hget takes the oldest message of an own hatch, or waits. -/
  | hget (x : Issue) (f : Fin 128) (i : RIns)
  /-- EVRAISE (R352): Instruction evraise raises the engine's or pair's program event with a code. -/
  | evraise (x : Issue) (i : IIns)
  /-- TRAP (R353): Instruction trap raises TRAP with its immediate. -/
  | trap (x : Issue) (i : RIns)
  /-- TRET (R298): Instruction tret returns from a trap to TEPC at the saved level. -/
  | tret (x : Issue) (i : RIns)
  /-- FENCE (R295): Instruction fence completes when every earlier access is visible. -/
  | fence (x : Issue) (i : RIns)
  /-- CINV (R353): Instruction cinv invalidates the Cellar cache and completes with it. -/
  | cinv (x : Issue) (i : RIns)
  /-- YIELD (R353): Instruction yield puts the thread last in its issue rotation. -/
  | yield (x : Issue) (i : RIns)
  /-- HALT (R353): Instruction halt sets the thread IDLE. -/
  | halt (x : Issue) (i : RIns)
  /-- BKPT (R353): Instruction bkpt raises BKPT. -/
  | bkpt (x : Issue) (i : RIns)
  /-- CSRR (R354): Instruction csrr reads a control register. -/
  | csrr (x : Issue) (i : IIns)
  /-- CSRW (R354): Instruction csrw writes a control register. -/
  | csrw (x : Issue) (i : IIns)
  /-- CONTRIBUTION_OFFER (R361): A gather contribution receives the first verdict of Table 11.3, is claimed into its bin or dropped. -/
  | contributionOffer (hf : Fin 2)
  /-- GATHER_STEP (R376): The gather unit accumulates one queued contribution into its bin and dereferences it. -/
  | gatherStep (e : Fin 16)
  /-- BIN_DEADLINE (R365): A bin's deadline fires, FLOOR advances and the bin is emitted once its claims are accumulated. -/
  | binDeadline (g : Fin 512)
  /-- OUTPUT_ALLOC_TIMEOUT (R383): An output allocation still denied after 10 µs loses the output and counts BIN_LOST. -/
  | outputAllocTimeout (e : Fin 16)
  /-- RELIVE_WRITE (R382): A write to RELIVE returns an engine to ENG_LIVE for bins that open afterwards. -/
  | reliveWrite (r : Req) (g : Fin 512) (m : BitVec 8)
  /-- TWIN_HELLO_SEND (R392): Each twin sends HELLO on the twin link every 1 ms. -/
  | twinHelloSend
  /-- TWIN_HELLO_RECEIVE (R392): A received HELLO keeps the link UP, checks IDs and CYCLE, and may hand over the role on RELINQUISH. -/
  | twinHelloReceive (h : TwHdr) (b : TwHello)
  /-- TWIN_LINK_TIMEOUT (R392): No HELLO within TMO takes the twin link DOWN and raises TWN.LINK_LOST. -/
  | twinLinkTimeout
  /-- TWIN_STATE_RECEIVE (R399): The standby stores a received STATE in TWN_COPY and copies the leap fields. -/
  | twinStateReceive (h : TwHdr) (b : BitVec 832)
  /-- TWIN_PHASE_REQ_SEND (R394): The standby sends PHASE_REQ every 1 ms. -/
  | twinPhaseReqSend (x : StampOut)
  /-- TWIN_PHASE_REQ_RECEIVE (R392): The active answers a PHASE_REQ with PHASE_RESP carrying t2 and t3. -/
  | twinPhaseReqReceive (h : TwHdr) (x : StampIn) (y : StampOut)
  /-- TWIN_PHASE_RESP_RECEIVE (R394): The standby forms an offset from a PHASE exchange and, when seeking, may request its first-lock step. -/
  | twinPhaseRespReceive (h : TwHdr) (x : StampIn) (t2 t3 : BitVec 96)
  /-- TWN_SWAP_GO (R403): A write of TWN_SWAP.GO sends SWAP for a role exchange at T, or sets SWAP_FAIL. -/
  | twnSwapGo (r : Req)
  /-- TWIN_SWAP_RECEIVE (R403): A received SWAP is answered with SWAP_ACK and unit 27 is committed to the other role at T. -/
  | twinSwapReceive (h : TwHdr) (t : BitVec 96) (gen : BitVec 16)
  /-- TWIN_SWAP_ACK_RECEIVE (R403): A received SWAP_ACK confirms the swap or fails it for a non-aligned standby. -/
  | twinSwapAckReceive (h : TwHdr) (accepted aligned : Bool)
  /-- SWAP_ACK_TIMEOUT (R403): No SWAP_ACK within 1 ms refuses the swap and sets SWAP_FAIL. -/
  | swapAckTimeout
  /-- NO_ACTIVE (R402): Every second that both twins are STANDBY with the link UP each raises TWN.NO_ACTIVE. -/
  | noActive
  /-- STREAM_RESET_TIMEOUT (R407): RESET_MS without a frame resets the stream's recovery history. -/
  | streamResetTimeout (k : Fin 256)
  /-- SNAP_SAVE (R410): A write of SNAP_CMD.SAVE has the Reeve write a snapshot of the selected parts. -/
  | snapSave (r : Req)
  /-- SNAP_RESTORE (R411): A write of SNAP_CMD.RESTORE checks the snapshot and writes and commits its records. -/
  | snapRestore (r : Req)
  /-- SNAP_DONE (R411): A save or restore completes and SNAP_STAT.BUSY clears with its code. -/
  | snapDone
  /-- TREE_HELLO_SEND (R412): Each node sends an in-band HELLO every second. -/
  | treeHelloSend
  /-- TREE_HELLO_RECEIVE (R413): A received in-band HELLO updates depth and may set TOO_DEEP. -/
  | treeHelloReceive (p : Fin 72) (h : TreHdr) (node : BitVec 16) (role depth : BitVec 8)
  /-- TREE_REG_RECEIVE (R413): An accepted REG message acts as host register writes when REG_EN is 1, and is relayed. -/
  | treeRegReceive (p : Fin 72) (h : TreHdr) (a : BitVec 32) (wr : Bool) (count : BitVec 8) (words : List (BitVec 32))
  /-- TREE_COMMIT_RECEIVE (R414): An accepted in-band COMMIT commits the worker's pending units and sends REPORT. -/
  | treeCommitReceive (p : Fin 72) (h : TreHdr) (t : BitVec 96) (tgen : BitVec 16) (rollback : Bool)
  /-- TREE_REPORT_RECEIVE (R413): An upward REPORT is relayed toward the manager. -/
  | treeReportReceive (p : Fin 72) (h : TreHdr) (tgen gen : BitVec 16) (code split : BitVec 8)
  /-- TREE_RECORD_RECEIVE (R415): A RECORD request is answered with the signed records from the named counter. -/
  | treeRecordReceive (p : Fin 72) (h : TreHdr) (r : TreRec)
  /-- TREE_IMAGE_RECEIVE (R415): An IMAGE block is written into the inactive flash bank in order and acknowledged. -/
  | treeImageReceive (p : Fin 72) (h : TreHdr) (id : BitVec 64) (total ofs : BitVec 32) (data : List Byte)
  /-- TREE_IMAGE_ACK_RECEIVE (R413): An upward IMAGE_ACK is relayed toward the manager. -/
  | treeImageAckReceive (p : Fin 72) (h : TreHdr) (id : BitVec 64) (upto : BitVec 32) (code : BitVec 8)
  /-- WGH_CONFIG (R432): Weighhouse command CONFIG sets a slot's measurement configuration. -/
  | wghConfig (slot : Fin 4) (seq : BitVec 16) (args : List (BitVec 32))
  /-- WGH_RUN (R432): Weighhouse command RUN starts a slot. -/
  | wghRun (slot : Fin 4) (seq : BitVec 16)
  /-- WGH_STOP (R432): Weighhouse command STOP stops a slot after the result in progress. -/
  | wghStop (slot : Fin 4) (seq : BitVec 16)
  /-- WGH_SET_PARAM (R440): Weighhouse command SET_PARAM changes a sealed parameter and counts the event, or is refused. -/
  | wghSetParam (seq : BitVec 16) (args : List (BitVec 32))
  /-- WGH_IMAGE_INSTALL (R443): Weighhouse command IMAGE_INSTALL verifies the staged image and starts installing it. -/
  | wghImageInstall (seq : BitVec 16) (len : BitVec 32)
  /-- WGH_IMAGE_INSTALLED (R443): The install completes, the Weighhouse restarts on the new image and WGH.IMAGE_UPDATED is raised. -/
  | wghImageInstalled
  /-- WGH_VERIFY (R446): Weighhouse command VERIFY starts the self-verification checks in SERVICE. -/
  | wghVerify (seq : BitVec 16) (args : List (BitVec 32))
  /-- WGH_VERIFY_DONE (R446): The verification ends with a signed TYPE 4 record and WGH.VERIFY_DONE. -/
  | wghVerifyDone (fails : Fin 32)
  /-- WGH_READ_ID (R445): Weighhouse command READ_ID echoes FW_ID, EVCNT and KEY_ID. -/
  | wghReadId (seq : BitVec 16)
  /-- WGH_HOST_WRITE (R419): A host write to a WGH offset is ignored and counted in HOST_WR. -/
  | wghHostWrite (r : Req)
  /-- WEIGHHOUSE_EDGE (R425): A prescaled edge needed by a measurement is timestamped and may open or close a result. -/
  | weighhouseEdge (e : WEdge)
  /-- INTERPOLATOR_CALIBRATE (R426): An interpolator idle for 1 ms repeats its N1 and N2 readings. -/
  | interpolatorCalibrate (src : Fin 8) (n1 n2 : BitVec 12)
  /-- OVR_RATE_CLEAR (R423): A source's OVR_RATE flag clears after 1 ms within the rate limit. -/
  | ovrRateClear (src : Fin 8)
  /-- WGH_INTERVAL_TIMEOUT (R431): An interval open longer than IV_MAX is discarded and counted in TIMEOUT. -/
  | wghIntervalTimeout (slot : Fin 4)
  /-- RECORD_SIGN (R437): A queued result is signed into a record and written to the hatch slot. -/
  | recordSign
  /-- UPDATE_BEGIN (R463): Mailbox command UPDATE_BEGIN puts the inactive bank in WRITING. -/
  | updateBegin (m : Fin 2) (seq : BitVec 16) (bank : BitVec 32)
  /-- UPDATE_WRITE (R465): Mailbox command UPDATE_WRITE programs host data into the inactive bank. -/
  | updateWrite (m : Fin 2) (seq : BitVec 16) (addr : BitVec 64) (len ofs : BitVec 32)
  /-- UPDATE_ACTIVATE (R463): Mailbox command UPDATE_ACTIVATE verifies the bank, makes it TRIAL and schedules a warm reset. -/
  | updateActivate (m : Fin 2) (seq : BitVec 16)
  /-- UPDATE_CONFIRM (R463): Mailbox command UPDATE_CONFIRM, or the CONFIRM bit, makes the trial bank ACTIVE and raises the counters. -/
  | updateConfirm (m : Fin 2) (seq : BitVec 16)
  /-- CONFIRM_TIMEOUT (R464): CONFIRM_S elapsing unconfirmed marks the trial bank BAD and warm-resets to ACTIVE. -/
  | confirmTimeout
  /-- LOAD_IMAGE (R318): Mailbox command LOAD_IMAGE loads an engine or stage-cell image, or refuses it. -/
  | loadImage (m : Fin 2) (seq : BitVec 16) (id : BitVec 64) (mask : BitVec 32)
  /-- WGH_PASSTHROUGH (R445): Mailbox command WGH passes its words to WGH_CMD and copies the response. -/
  | wghPassthrough (m : Fin 2) (seq : BitVec 16) (words : List (BitVec 32))
  /-- LC_REQ (R469): Mailbox command LC_REQ checks its token and runs the life-cycle transition. -/
  | lcReq (m : Fin 2) (seq : BitVec 16) (target : BitVec 32)
  /-- KEY_PROG (R456): Mailbox command KEY_PROG writes a key slot under a token. -/
  | keyProg (m : Fin 2) (seq : BitVec 16) (slot : BitVec 32)
  /-- REVOKE (R456): Mailbox command REVOKE revokes a key slot under a token. -/
  | revoke (m : Fin 2) (seq : BitVec 16) (slot : BitVec 32)
  /-- SHUTDOWN (R474): Mailbox command SHUTDOWN runs the orderly shutdown with optional short LBIST and commits DORMANT. -/
  | shutdown (m : Fin 2) (seq : BitVec 16) (lbist : Bool) (v : Lbist)
  /-- LBIST_RUN (R478): Mailbox command LBIST_RUN runs the full self-test set and restarts. -/
  | lbistRun (m : Fin 2) (seq : BitVec 16) (v : Lbist)
  /-- ALMANAC_WRITE (R120): Mailbox command ALMANAC_WRITE rewrites an Almanac set whose CRC matches. -/
  | almanacWrite (m : Fin 2) (seq : BitVec 16) (set : BitVec 32) (addr : BitVec 64)
  /-- CONTEXT_RESTORE (R493): Mailbox command CONTEXT_RESTORE writes back a domain's saved context. -/
  | contextRestore (m : Fin 2) (seq : BitVec 16) (dom : BitVec 32)
  /-- UNMARK (R476): Mailbox command UNMARK removes a host or ladder unusable mark. -/
  | unmark (m : Fin 2) (seq : BitVec 16) (loc : BitVec 32)
  /-- RECOVERY_GO (R462): Mailbox command RECOVERY_GO runs the checked recovery image from SRAM. -/
  | recoveryGo (m : Fin 2) (seq : BitVec 16)
  /-- WDT_KICK (R451): A write of 0xA5 to REE_WDT.KICK restarts the watchdog. -/
  | wdtKick (r : Req) (v : BitVec 8)
  /-- WDT_TRIP (R451): A missed kick increments WDT_TRIP, raises REE.WDT and takes recovery step 3. -/
  | wdtTrip
  /-- BOOT (R460): At every start the boot ROM wipes SRAM, applies the verdict, and loads the first good Reeve image. -/
  | boot (v : Lbist) (alm : BitVec 17)
  /-- RECOVERY_RETRY (R479): A failed operation is repeated at 1, 10 and 100 ms. -/
  | recoveryRetry (loc : BitVec 32) (n : Fin 4) (fails : Bool)
  /-- RECOVERY_REINIT (R479): A function is reset and its context restored by the Reeve. -/
  | recoveryReinit (loc : BitVec 32)
  /-- RECOVERY_POWER_CYCLE (R479): The Hearth drives MAIN_EN low for 500 ms and a Hearth-kept start follows. -/
  | recoveryPowerCycle
  /-- RAIL_GOOD (R484): A rail above its warning level for 1 ms becomes good and its domains may leave isolation. -/
  | railGood (rail : Fin 8)
  /-- SUPPLY_CAUTION_ENTRY (R487): A rail below warning for 50 ns enters CAUTION and raises HRT.SUPPLY_CAUTION. -/
  | supplyCautionEntry (rail : Fin 8) (mv : BitVec 16)
  /-- SUPPLY_CAUTION_EXIT (R487): Every rail above warning for 100 µs ends CAUTION and writes a SUPPLY_CAUTION Ledger entry. -/
  | supplyCautionExit
  /-- SUPPLY_RESET (R488): A rail below its reset level for 1 µs powers off the domains it feeds. -/
  | supplyReset (rail : Fin 8)
  /-- VID_STEP (R485): The Hearth moves the VCORE setpoint code by one per millisecond toward its target. -/
  | vidStep
  /-- HEARTH_SRC_CHANGE (R489): The source carrying the Hearth load changes and HRT.HEARTH_SRC is raised. -/
  | hearthSrcChange (src : Fin 3) (pd : Bool) (cls : BitVec 4)
  /-- HRT_PWR_REQ_WRITE (R491): A write of HRT_PWR_REQ switches a domain on or off, or is refused with GLB.DOMAIN_REFUSED. -/
  | hrtPwrReqWrite (r : Req) (req : BitVec 9) (railsOff : Bool)
  /-- DOMAIN_POWERED (R491): A domain finishes its switch-on sequence and becomes ON. -/
  | domainPowered (d : Fin 10)
  /-- WAKE (R494): WAKE_N low for 1 µs, or the coarse time reaching HRT_WAKE_AT, wakes the part into a Hearth-kept start. -/
  | wake (pin : Bool)
  /-- CRYSTAL_STABLE (R495): Twenty agreeing windows declare the crystal stable and the PLLs start. -/
  | crystalStable
  /-- CRYSTAL_LOSS (R496): Loss of the crystal holds the main domains in reset and raises GLB.CLOCK_FAULT. -/
  | crystalLoss
  /-- OCXO_LOSS (R497): Loss of the OCXO switches the Hearth clock to the crystal and discards holdover history. -/
  | ocxoLoss
  /-- HCLK_RETRY (R497): A write of HCLK_RETRY returns the Hearth clock to the OCXO if it is within limits. -/
  | hclkRetry (r : Req) (present : Bool)
  /-- CLK_EN_WRITE (R498): A write of a block clock enable gates the block, or a write of 0 to a busy block is refused. -/
  | clkEnWrite (r : Req) (v : BitVec 64)
  /-- COLD_START (R499): VDD_HEARTH becoming good after Hearth power loss starts the whole package with the coarse time invalid. -/
  | coldStart (ocxo : Bool)
  /-- HEARTH_KEPT_START (R499): Main rails becoming good while the Hearth stayed up start the main domains. -/
  | hearthKeptStart
  /-- PIN_RESET (R500): RESET_N low for 1 µs holds the main domains in reset until release. -/
  | pinReset
  /-- GLB_RESET (R544): A write of GLB_RESET with the key schedules a warm reset 2 ms later, or counts KEY_ERR. -/
  | glbReset (r : Req) (warm : Bool) (key : BitVec 16)
  /-- WARM_RESET (R501): The switch-die domains are held in reset for 10 µs and restarted. -/
  | warmReset
  /-- GLB_FRESET (R506): A write of a location word to GLB_FRESET resets the named function, or is refused. -/
  | glbFreset (r : Req) (loc : BitVec 32)
  /-- FUNCTION_RESET_DONE (R506): A function reset's time elapses and the function restarts. -/
  | functionResetDone (k : Fin 117)
  /-- VECTOR_HOLD_EXPIRY (R516): The end of a vector's hold sends one message if it is still pending. -/
  | vectorHoldExpiry (v : Fin 64)
  /-- REARM_WRITE (R516): A write of CRI_VEC.REARM while the vector is pending resends its message. -/
  | rearmWrite (r : Req) (v : Fin 64)
  /-- RFIFO_READ (R519): A Reeve read of CRI_RFIFO word 0 removes the oldest record into its latch. -/
  | rfifoRead (r : Req)
  /-- TALLY_CFG_WRITE (R521): A write of a counter's CFG reprograms it from PRELOAD, or is refused. -/
  | tallyCfgWrite (r : Req) (i : Fin 512) (cfg : BitVec 32) (wraps : Bool)
  /-- COUNTER_WRAP (R522): A counter wraps from 2^48 − 1 to 0, sets OVF and raises TAL.OVERFLOW. -/
  | counterWrap (i : Fin 512)
  /-- TALLY_DUMP (R524): At each PERIOD multiple the Tally snapshots its counters and writes a dump, or skips if late. -/
  | tallyDump (late : Bool)
  /-- SAMPLE_TAG (R526): The sampling down-counter reaching zero tags the next instruction to issue and reloads. -/
  | sampleTag (e : Fin 16)
  /-- SAMPLE_RECORD (R526): A tagged instruction completes and its sample record enters the ring. -/
  | sampleRecord (e : Fin 16) (x : Sample)
  /-- ENDPOINT_RESET (R530): PERST_N, function-level or hot reset resets the endpoint and frame DMA only. -/
  | endpointReset
  /-- DMA_RING_ENABLE (R532): A write of RX_EN or TX_EN starts a ring at HEAD 0, or stops it after the frame in transfer. -/
  | dmaRingEnable (r : Req) (q : Fin 16) (w : BitVec 32)
  /-- DMA_TX_DESCRIPTOR (R533): A posted transmit descriptor's frame is copied into cells, offered and its status written. -/
  | dmaTxDescriptor (q : Fin 16)
  /-- DMA_RX_FRAME (R534): A frame offered to a receive queue is written to the next posted buffer, or refused. -/
  | dmaRxFrame (q : Fin 16)
  /-- I2C_WRITE (R537): SMBus block write 0x01 writes a BAR0 offset, or returns REFUSED or BUS_ERROR. -/
  | i2cWrite (a v : BitVec 32) (pecBad : Bool)
  /-- I2C_READ (R537): SMBus block write 0x02 and the following block read return status and a BAR0 word. -/
  | i2cRead (a : BitVec 32)
  /-- I2C_BUS_TIMEOUT (R536): A transaction held past the stretch or bus timeout is answered BUSY or discarded. -/
  | i2cBusTimeout (discarded : Bool)
  /-- BYPASS (R540): JTAG instruction BYPASS selects the bypass register. -/
  | bypass
  /-- IDCODE (R540): JTAG instruction IDCODE shifts out 0x04A7_233F. -/
  | idcode
  /-- SAMPLE_PRELOAD (R540): JTAG instruction SAMPLE/PRELOAD samples and preloads the boundary register. -/
  | samplePreload (v : BitVec 1024)
  /-- EXTEST (R541): JTAG instruction EXTEST drives the balls while RESET_N is low, otherwise acts as BYPASS. -/
  | extest
  /-- EXTEST_PULSE (R541): JTAG instruction EXTEST_PULSE tests AC-coupled lanes while RESET_N is low. -/
  | extestPulse
  /-- EXTEST_TRAIN (R541): JTAG instruction EXTEST_TRAIN sends a pulse train on lanes while RESET_N is low. -/
  | extestTrain
  /-- CLAMP (R541): JTAG instruction CLAMP holds the balls from the boundary register while RESET_N is low. -/
  | clamp
  /-- HIGHZ (R541): JTAG instruction HIGHZ floats the outputs while RESET_N is low. -/
  | highz
  /-- INTERNAL_SCAN (R472): An internal scan instruction acts only when SCAN_READY, otherwise shifts zeros and counts SCAN_REFUSED. -/
  | internalScan
  /-- THERMAL_TRIP (R557): A sensor at 125 °C for 1 ms drives MAIN_EN low, logs THERMAL_TRIP and raises HRT.THERMAL_TRIP. -/
  | thermalTrip (i : Fin 22) (v : BitVec 16)
  /-- THERMAL_RELEASE (R557): 60 s after a thermal trip the Hearth releases MAIN_EN and a Hearth-kept start follows. -/
  | thermalRelease
  /-- LIFE_MINUTE (R559): Each minute the highest sensor reading is counted in its temperature band. -/
  | lifeMinute
  /-- LIFE_HOUR (R559): On the hour whole hours move into the NVM band and EQUIV counters. -/
  | lifeHour
  /-- RC_FIELD_READ (R12): A read of an RC field returns its value and then clears it. -/
  | rcFieldRead (r : Req) (a : BitVec 32)
  /-- RECEIVER_ELECTRICAL_IDLE (R52): A receiver that sees electrical idle drops CDR_LOCK and starts timing the idle that decides re-centring or fresh acquisition. -/
  | receiverElectricalIdle (n : Fin 74)
  /-- CRYSTAL_STABLE_TIMEOUT (R495): If the crystal is not declared stable within 100 ms the JT72 raises GLB.CLOCK_FAULT and keeps the PCIe endpoint disabled while it goes on waiting. -/
  | crystalStableTimeout
  /-- PIN_RESET_RELEASE (R500): The release of RESET_N ends the reset hold, and the ladder-exhausted hold, and starts the main domains. -/
  | pinResetRelease
  /-- GATE_CAUTION_END (R76): 10 ms after CAUTION ends, the measurement gate's discard window closes and BELL_STATUS.GATE_CAUTION clears. -/
  | gateCautionEnd
  /-- CINV_DONE (R283): The Cellar cache invalidation completes within 256 market cycles and CINV_BUSY clears. -/
  | cinvDone (e : Fin 16)
  /-- MSIX_VECTOR_UNMASK (R516): The host unmasking an MSI-X vector whose message was held sends that pending message. -/
  | msixVectorUnmask (v : Fin 64)
  /-- BAR2_WRITE (R531): A host write through BAR2 changes Cellar or Pantry contents, or completes as a completer abort for absent, unusable, wiping or protected targets. -/
  | bar2Write (a : BitVec 37) (data : List (BitVec 8))
  /-- HEARTH_LINK_LOSS (R479): The Hearth link drops and is retrained, with a warm reset after three failed attempts. -/
  | hearthLinkLoss (fails : Fin 4)
  deriving DecidableEq, Repr

end Sys2Proof
end

