-- ==== Sys2Proof/Decode.lean ====
section
/-! DEFINITION. The command that a word of the table of operations spells. spec/opcode_table.json gives no row any bits: a
command reaches the block as an access, an event or a measurement, never as a coded word. The TZ instruction words, which
the part does encode (Tables 9.8, 10.1), are operands here: see `encR`, `encI` and their like in Machine/Thread, and
`szLegal` in Machine/CellRun for the stage-cell subset. -/

namespace Sys2Proof

/-- No row has bits, so no word spells a command. -/
def decodeTableWord (_nbits _w : Nat) : Option Instr := none

end Sys2Proof
end

