-- ==== Sys2Proof/Machine/Event.lean ====
section
/-! DEFINITION. The Crier's events by name (Tables 16.1 and 16.2). -/

namespace Sys2Proof.Machine

/-- The events. -/
inductive Ev where
  | GLB_DOMAIN_REFUSED | GLB_CONTEXT_LOST | GLB_CLOCK_FAULT | CRI_RING_LOST | BELL_FREQ_CLAMPED | BELL_STEP_REFUSED
  | BELL_STEP_DONE | BELL_JUMP_REFUSED | BELL_JUMP_CLEARED | BELL_JUMP_PERSIST | BELL_STEP_AUTH_REFUSED
  | BELL_SERVO_MISS | BELL_SERVO_FALLBACK | BELL_SERVO_MOVED | BELL_REP_FAULT | BELL_LEAP_APPLIED | SEL_QUALIFIED
  | SEL_DISQUALIFIED | SEL_SOFT_LIMIT | SEL_REF_CONFLICT | SEL_FORCE_LOST | SEL_SWITCH | SEL_LOCK | SEL_UNLOCK
  | SEL_HOLDOVER_EXPIRED | PLL_OPLL_UNLOCK | TOUT_TRIG_MISSED | TOD_OVERRUN | ECAP_READY | ECAP_OVERRUN
  | STAMP_CF_SAT | STAMP_OBS_STALE | STAMP_RATE_DROP | CORE_PROG_REFUSED | CORE_LKP_FULL | CORE_PROG_EVENT
  | POOL_GRAN_UE | POOL_SHARED_EMPTY | POOL_REF_UNDERFLOW | POOL_SPILL_OFF | CEL_STACK_FAIL | ENG_THREAD_FAULT
  | ENG_UNUSABLE | ENG_PROG_EVENT | GTH_QUEUE_FULL | GTH_LATE | GTH_SPILL | GTH_NO_SLOT | GTH_BIN_LOST
  | GTH_GROUP_FAULT | REE_WDT | REE_SENSOR_LIMIT | REE_RECOVERY | REE_LBIST_FAIL | REE_UPDATE_REVERTED
  | REE_SHUTDOWN_DONE | TAL_OVERFLOW | TAL_SAMPLE | TAL_DUMP_LATE | WGH_CAL_FAULT | WGH_PARAM_CHANGED
  | WGH_SEAL_ATTEMPT | WGH_IMAGE_UPDATED | WGH_VERIFY_DONE | HRT_ALMANAC_SET_BAD | HRT_SUPPLY_CAUTION
  | HRT_SUPPLY_CAUTION_EXIT | HRT_HEARTH_SRC | HRT_THERMAL_TRIP | GLB_COMMIT_REFUSED | GLB_COMMIT_DONE
  | GLB_COMMIT_SPLIT | GLB_COMMIT_LATE | TWN_LINK_LOST | TWN_LINK_UP | TWN_RATE_FALLBACK | TWN_ELASTIC_SLIP
  | TWN_ROLE_CHANGE | TWN_ROLE_CLASH | TWN_SEQ_LOSS | TWN_NO_ACTIVE | TWN_ALIGN | PORT_LINK_DOWN | PORT_LINK_UP
  | PORT_DRAIN_DONE | PORT_CT_STOMP | PORT_PAUSE_STORM | LANE_MODE_REFUSED | LANE_ALIGN_CHANGE | LANE_MODULE_CHANGE
  | LANE_DELAY_VALID | LANE_DELAY_SHIFT | LANE_SURVEY_DONE | LANE_SURVEY_FAIL | LANE_ASYM_APPLIED | STAMP_STOMP
  | STAMP_RING_FULL | LANE_AN_MISMATCH
  deriving DecidableEq, Repr

/-- The source of an event: device source n, or source k of a port (R508). -/
inductive Src where
  | dev (n : Nat)
  | port (k : Nat)
  deriving DecidableEq, Repr

/-- Source and CODE of each event (R510, R511). -/
def Ev.src : Ev → Src × Nat
  | .GLB_DOMAIN_REFUSED => (.dev 0, 0)
  | .GLB_CONTEXT_LOST => (.dev 1, 0)
  | .GLB_CLOCK_FAULT => (.dev 2, 0)
  | .CRI_RING_LOST => (.dev 3, 0)
  | .BELL_FREQ_CLAMPED => (.dev 8, 0)
  | .BELL_STEP_REFUSED => (.dev 9, 0)
  | .BELL_STEP_DONE => (.dev 10, 0)
  | .BELL_JUMP_REFUSED => (.dev 11, 0)
  | .BELL_JUMP_CLEARED => (.dev 12, 0)
  | .BELL_JUMP_PERSIST => (.dev 13, 0)
  | .BELL_STEP_AUTH_REFUSED => (.dev 14, 0)
  | .BELL_SERVO_MISS => (.dev 15, 0)
  | .BELL_SERVO_FALLBACK => (.dev 16, 0)
  | .BELL_SERVO_MOVED => (.dev 17, 0)
  | .BELL_REP_FAULT => (.dev 18, 0)
  | .BELL_LEAP_APPLIED => (.dev 19, 0)
  | .SEL_QUALIFIED => (.dev 24, 0)
  | .SEL_DISQUALIFIED => (.dev 25, 0)
  | .SEL_SOFT_LIMIT => (.dev 26, 0)
  | .SEL_REF_CONFLICT => (.dev 27, 0)
  | .SEL_FORCE_LOST => (.dev 28, 0)
  | .SEL_SWITCH => (.dev 29, 0)
  | .SEL_LOCK => (.dev 30, 0)
  | .SEL_UNLOCK => (.dev 31, 0)
  | .SEL_HOLDOVER_EXPIRED => (.dev 32, 0)
  | .PLL_OPLL_UNLOCK => (.dev 33, 0)
  | .TOUT_TRIG_MISSED => (.dev 40, 0)
  | .TOD_OVERRUN => (.dev 41, 0)
  | .ECAP_READY => (.dev 42, 0)
  | .ECAP_OVERRUN => (.dev 43, 0)
  | .STAMP_CF_SAT => (.dev 48, 0)
  | .STAMP_OBS_STALE => (.dev 49, 0)
  | .STAMP_RATE_DROP => (.dev 50, 0)
  | .CORE_PROG_REFUSED => (.dev 56, 0)
  | .CORE_LKP_FULL => (.dev 57, 0)
  | .CORE_PROG_EVENT => (.dev 58, 0)
  | .POOL_GRAN_UE => (.dev 72, 0)
  | .POOL_SHARED_EMPTY => (.dev 73, 0)
  | .POOL_REF_UNDERFLOW => (.dev 74, 0)
  | .POOL_SPILL_OFF => (.dev 75, 0)
  | .CEL_STACK_FAIL => (.dev 80, 0)
  | .ENG_THREAD_FAULT => (.dev 88, 0)
  | .ENG_UNUSABLE => (.dev 89, 0)
  | .ENG_PROG_EVENT => (.dev 90, 0)
  | .GTH_QUEUE_FULL => (.dev 91, 0)
  | .GTH_LATE => (.dev 92, 0)
  | .GTH_SPILL => (.dev 93, 0)
  | .GTH_NO_SLOT => (.dev 94, 0)
  | .GTH_BIN_LOST => (.dev 95, 0)
  | .GTH_GROUP_FAULT => (.dev 96, 0)
  | .REE_WDT => (.dev 104, 0)
  | .REE_SENSOR_LIMIT => (.dev 105, 0)
  | .REE_RECOVERY => (.dev 106, 0)
  | .REE_LBIST_FAIL => (.dev 107, 0)
  | .REE_UPDATE_REVERTED => (.dev 108, 0)
  | .REE_SHUTDOWN_DONE => (.dev 109, 0)
  | .TAL_OVERFLOW => (.dev 110, 0)
  | .TAL_SAMPLE => (.dev 111, 0)
  | .TAL_DUMP_LATE => (.dev 111, 1)
  | .WGH_CAL_FAULT => (.dev 112, 0)
  | .WGH_PARAM_CHANGED => (.dev 113, 0)
  | .WGH_SEAL_ATTEMPT => (.dev 114, 0)
  | .WGH_IMAGE_UPDATED => (.dev 115, 0)
  | .WGH_VERIFY_DONE => (.dev 116, 0)
  | .HRT_ALMANAC_SET_BAD => (.dev 117, 0)
  | .HRT_SUPPLY_CAUTION => (.dev 118, 0)
  | .HRT_SUPPLY_CAUTION_EXIT => (.dev 118, 1)
  | .HRT_HEARTH_SRC => (.dev 119, 0)
  | .HRT_THERMAL_TRIP => (.dev 119, 1)
  | .GLB_COMMIT_REFUSED => (.dev 120, 0)
  | .GLB_COMMIT_DONE => (.dev 121, 0)
  | .GLB_COMMIT_SPLIT => (.dev 122, 0)
  | .GLB_COMMIT_LATE => (.dev 123, 0)
  | .TWN_LINK_LOST => (.dev 124, 0)
  | .TWN_LINK_UP => (.dev 124, 1)
  | .TWN_RATE_FALLBACK => (.dev 125, 0)
  | .TWN_ELASTIC_SLIP => (.dev 125, 1)
  | .TWN_ROLE_CHANGE => (.dev 126, 0)
  | .TWN_ROLE_CLASH => (.dev 126, 1)
  | .TWN_SEQ_LOSS => (.dev 126, 2)
  | .TWN_NO_ACTIVE => (.dev 126, 3)
  | .TWN_ALIGN => (.dev 127, 0)
  | .PORT_LINK_DOWN => (.port 0, 0)
  | .PORT_LINK_UP => (.port 1, 0)
  | .PORT_DRAIN_DONE => (.port 2, 0)
  | .PORT_CT_STOMP => (.port 3, 0)
  | .PORT_PAUSE_STORM => (.port 4, 0)
  | .LANE_MODE_REFUSED => (.port 5, 0)
  | .LANE_ALIGN_CHANGE => (.port 6, 0)
  | .LANE_MODULE_CHANGE => (.port 7, 0)
  | .LANE_DELAY_VALID => (.port 8, 0)
  | .LANE_DELAY_SHIFT => (.port 9, 0)
  | .LANE_SURVEY_DONE => (.port 10, 0)
  | .LANE_SURVEY_FAIL => (.port 11, 0)
  | .LANE_ASYM_APPLIED => (.port 12, 0)
  | .STAMP_STOMP => (.port 13, 0)
  | .STAMP_RING_FULL => (.port 14, 0)
  | .LANE_AN_MISMATCH => (.port 15, 0)

end Sys2Proof.Machine
end

