-- ==== Sys2Proof/Config.lean ====
section
/-! DEFINITION. What one part of the JT72 family fixes and what the manual leaves open. The variant and the per-part
identity stand in State (they are plain data read from OTP); here are the values that no rule gives: free values, each an
opaque constant, so that no proof can rest on what it is. -/

namespace Sys2Proof

/-- The variants of Table 0.1. -/
inductive Machine.Variant where
  /-- JT72-S: even quads, engines 0-3 and 8-11, no Cellar. -/
  | s
  /-- JT72-M: all lanes and engines, stacks 0-1. -/
  | m
  /-- JT72-X: all lanes and engines, stacks 0-3. -/
  | x
  deriving DecidableEq, Repr

/-- The n-th value the manual leaves open: the step applies it to the counter `State.freeN` and advances the counter. -/
opaque Config.free : Nat → Nat

/-- Ed25519 verification (RFC 8032): key, message, signature. The manual names the algorithm and does not define it. -/
opaque Config.ed25519Verify : List (BitVec 8) → List (BitVec 8) → List (BitVec 8) → Bool

/-- The ECDSA P-256 signature of a message under the Weighhouse device key; the manual names the algorithm only, and
the private key never leaves the device. -/
opaque Config.ecdsaSign : List (BitVec 8) → List (BitVec 8)

/-- SHA-256 of a message (FIPS 180-4), named and not defined by the manual; 32 octets as one big-endian number. -/
opaque Config.sha256 : List (BitVec 8) → Nat

/-- The octets of the Reeve's boot ROM (R449), whose contents the manual does not give. -/
opaque Config.romByte : Nat → BitVec 8

/-- The four hash functions of the lookup store (R226), named and not defined by the manual: function number, key. -/
opaque Config.lkHash : Nat → Nat → Nat

/-- G in bits and P in blocks of the alignment markers of a mode and FEC choice (Table 4.2), which the manual leaves to
IEEE 802.3 but for 100GAUI-1. -/
opaque Config.markers : Nat → Nat → Nat × Nat

/-- What the Almanac holds for the oscillator: NOM in 2^-48, T_NOM in 1/16 °C and the temperature coefficient in 10^-15/K
(R173). Each part is trimmed; the manual gives no values. -/
opaque Config.almNom : Int
opaque Config.almTNom : Int
opaque Config.almTc : Int

/-- The trimmed delay in 0.01 ps of fine tap `t` of output `k` (TOUT0-7, PPSOUT0-1 at 8-9) at a temperature in 1/16 °C
(R178). -/
opaque Config.tapDelay : Nat → Int → Nat → Nat

/-- Octets of the time event and time announce messages of the time-of-day format (R182), which the manual leaves to
ITU-T G.8271. -/
opaque Config.todEventLen : Nat
opaque Config.todAnnounceLen : Nat

/-- The Almanac fixed delay of capture input `k` at a temperature in 1/16 °C, in 2^-16 ns (R183). -/
opaque Config.ecapDelay : Nat → Int → Int

/-- GATE_LEAD in ns by the port's rate code (R242): fixed, published, at most 70 ns, and given by no rule. -/
opaque Config.gateLead : Nat → Nat

/-- The IP and UDP headers, from the EtherType on, by L4 (1 IPv4, 2 IPv6), UDP port and message length (R412): the manual
gives no addresses. -/
opaque Config.udpHead : Nat → Nat → Nat → List (BitVec 8)

/-- Octets in each half of the boot flash, where bank 1 starts (R459): the board fits a flash of at least 64 MiB. -/
opaque Config.flashHalf : Nat

/-- The boot ROM's fixed manufacturing public key (R456), 32 octets. -/
opaque Config.romKey : List (BitVec 8)

/-- c(N) of interpolator `k` at a temperature in 1/16 °C and a code, in 2^-32 ns (R425): trimmed, given by no rule. -/
opaque Config.inl : Nat → Int → Nat → Int

/-- The Almanac's trimmed delay of Weighhouse tap `k` (4-7) at a temperature in 1/16 °C, in 2^-16 ns (R422). -/
opaque Config.wghTap : Nat → Int → Int

/-- The Almanac's fixed delay of a lane in a mode in set `k`, receive or transmit, in 2^-16 ns (R118), by the contents of
the set: 0 as trimmed at manufacture, else 1 + the octets it was rewritten with. The manual gives no layout of a set. -/
opaque Config.almFix : Nat → Nat → Nat → Bool → Nat → Nat

/-- Octets of an Almanac set (Table 4.3). -/
opaque Config.almSetLen : Nat

/-- The VCORE setpoint code of the part's Almanac (R485). -/
opaque Config.almVid : Nat

/-- Octets between the end of one dump slot and the start of the next, by the dump's length: R524 gives the slots no pitch. -/
opaque Config.dumpGap : Nat → Nat

end Sys2Proof
end

