-- ==== Sys2Proof/Machine/Field.lean ====
section
/-! DEFINITION. The register fields: one constructor for every field of every register table of the
manual (Tables 2.8-2.19, 3.7-3.13, 4.8-4.11, 5.9-5.15, 6.8-6.11, 7.6-7.13, 8.6-8.10, 9.14-9.19, 11.6-11.9, 12.6-12.9,
13.10-13.13, 14.15-14.17, 15.3, 15.7-15.9, 16.7-16.9, 17.5-17.8, 18.11), sorted by register block, and the groups of
register instances they lie in. Where a table gives an array of registers, one constructor stands for the array and
the instance number says which element. -/

namespace Sys2Proof.Machine

/-- Fields of the GLB block: GLB, Tables 15.3, 15.9, 17.5-17.8. -/
inductive GlbF where
  | CLK_EN_QUAD | CLK_EN_SPUR | CLK_EN_TWIN | CLK_EN_STAMP | CLK_EN_TAL | CLK_EN_MOD | CLK_EN_GTH | CLK_EN_SURV
  | CLK_EN_CEL | CLK_EN_REFUSED | FRESET_LOC | ID | VARIANT | VARIANT_STEP | VARIANT_HSTEP | QUADS | ENGINES | STACKS
  | SPURS | TWINS | WEIGH | DEVICE_UID | PCI_SPEED | PCI_WIDTH | PCI_LINK_RESETS | JTAG_HELD | RESET_WARM | RESET_KEY
  | RESET_ST_KEY_ERR | MODE_TARGET | MODE_ROLE | MODE | COMMIT_CTL_OP | COMMIT_CTL_GEN | COMMIT_T | COMMIT_GRACE
  | COMMIT_STATE | COMMIT_STATE_SHADOW_REFUSED | COMMIT_STATE_CFG_REFUSED | INT_MERGED | DEV_GEN | COMMIT_PEND
  | COMMIT_PART | COMMIT_VEC | COMMIT_LATE | COMMIT_SPLIT | COMMIT_MARK | DMA_CFG_RX_EN | DMA_CFG_TX_EN
  | DMA_CFG_RX_SIZE_LOG | DMA_CFG_TX_SIZE_LOG | DMA_CFG_WEIGHT | DMA_CFG_REFUSED | DMA_RX_BASE | DMA_TX_BASE
  | DMA_RXHT_HEAD | DMA_RXHT_TAIL | DMA_TXHT_HEAD | DMA_TXHT_TAIL | DMA_RXDROP
  deriving DecidableEq, Repr

/-- Fields of the CRI block: Crier, Table 16.8. -/
inductive CriF where
  | LIVE | LATCH | EN | MASK | FOLD | PORT_LIVE | PORT_LATCH | PORT_EN | PORT_MASK | VMAP | PVMAP | VEC_PEND
  | VEC_REARM | VEC_HOLD | PIN_VEC | PSUM | RING_EN | RING_SIZE | RING_CFG_REFUSED | RING_RBASE | RING_HEAD
  | RING_TAIL | RING_LOST | RFIFO_LOST | RFIFO
  deriving DecidableEq, Repr

/-- Fields of the BELL block: Bell Tower, Tables 3.7-3.13. -/
inductive BellF where
  | CTL_SERVO_ENG | CTL_CYCLE | CTL_DL | CTL_SERVO_SRC | CTL_CFG_REFUSED | STATUS_STEPPED | STATUS_STEPPING
  | STATUS_SRC_APPLIED | STATUS_NCO_SRC | STATUS_JSTATE | STATUS_MISS_CNT | STATUS_FREQ_CLAMPED | STATUS_STEP_REFUSED
  | STATUS_AUTH_REFUSED | STATUS_GATE_CAUTION | NOW | FREQ_NOW | FW_UPD_FREQ | FW_UPD_SEQ | CYCLE_NUM
  | SERVO_CNT_SEQ_ERR | SERVO_CNT_LATE_UPD | STEP_CTL_REQ | STEP_CTL_KIND | STEP_OFS | STEP_TIME | STEP_T
  | STEP_LAST_SUB | STEP_LAST_GEN | STEP_AUTH_GEN | JUMP_CFG_THR | JUMP_CFG_PERSIST | JUMP_GEN | CLEAR_CNT | JUMP_OFS
  | HWS_KP | HWS_KI | HWS_I | GATE_ACC | GATE_REF | GATE_DISC | GATE_OVR | RING_BASE | LEAP_UTC_OFS | LEAP61 | LEAP59
  | LEAP_UTC_VALID | LEAP_TIME_TRACEABLE | LEAP_FREQ_TRACEABLE | LEAP_TIME_SOURCE | LEAP_AT_SEC | MEAS_OFS | MEAS_AT
  | MEAS_SRC | REP_DLY | REP_VALID | REP_FAULT
  deriving DecidableEq, Repr

/-- Fields of the SEL block: selector, holdover, PLLs, outputs and captures, Tables 5.9-5.15. -/
inductive SelF where
  | CTL_REVERTIVE | CTL_QL_OPT | CTL_FORCE_EN | CTL_FORCE_SLOT | CTL_CFG_REFUSED | AGREE | TIMES_WTR | TIMES_GUARD
  | TIMES2_GUARD_SHORT | TIMES2_LOCK_CYC | TIMES2_LOCK_THR | STATUS_STATE | STATUS_ACTIVE | STATUS_SELECTED
  | STATUS_CONFLICT | STATUS_FORCED | STATUS_SWITCH_CNT | ESMC_TX_EN | ESMC_HOLD_QL | SLOT_CFG_ENABLE | SLOT_CFG_SRC
  | SLOT_CFG_PRIO | SLOT_CFG_USE_FOLLOW | SLOT_CFG_USE_LEAD | SLOT_CFG_QOVR_EN | SLOT_CFG_QOVR | SLOT_CFG_LOCKOUT
  | SLOT_CFG_SCALE | SLOT_CFG_ACC_MAX | SLOT_RDIV | SLOT_FNOM | SLOT_SOFT | SLOT_HARD | SLOT_DRIFT | SLOT_STAT_SSTATE
  | SLOT_STAT_CAUSE | SLOT_STAT_QRANK | SLOT_STAT_RX_QL | SLOT_STAT_WV | SLOT_STAT_DRATE_V | SLOT_STAT_SOFT_HIT
  | SLOT_STAT_OUTVOTED | SLOT_Y | SLOT_DRATE | SLOT_WTR_LEFT | SLOT_SRC_ID | SLOT_PHASE | HOLD_CFG_OSC_MODE
  | HOLD_CFG_TSENS | HOLD_CFG_AGE_FIT | HOLD_CFG_HIST_MIN | HOLD_LIM_TE_MAX | HOLD_LIM_T_MAX | HOLD_TC | HOLD_TC_U
  | HOLD_AGE | HOLD_DAC_K | HOLD_DAC_CODE | HOLD_DAC_XFER | HOLD_STAT_HIST_VALID | HOLD_STAT_EXPIRED
  | HOLD_STAT_AGE_FITTED | HOLD_HIST_S | HOLD_Y0 | HOLD_U_Y | HOLD_U_A | HOLD_T0 | HOLD_B | HOLD_ELAPSED | HOLD_NOM
  | HOLD_NOM_T | DPLL_LOOP | DPLL_BW | OPLL_IN_SCALE | OSTAT_LOCK | OSTAT_UNLOCK_CNT | TOUT_CTL_EN | TOUT_CTL_MODE
  | TOUT_CTL_TKIND | TOUT_CTL_SQUELCH | TOUT_DIV | TOUT_DLY_COARSE | TOUT_DLY_FINE | TOUT_TRIG_T | TOUT_TRIG_W_WIDTH
  | TOUT_TRIG_N_COUNT | TOUT_TRIG_CTL_ARM | TOUT_TRIG_CTL_ARMED | TOUT_TRIG_CTL_DISARM | TOUT_TRIG_CTL_MISSED
  | TOUT_TRIG_CTL_DONE | TOUT_STAT_ACTIVE | TOUT_STAT_SQUELCHED | TOUT_STAT_TAP | TOUT_STAT_RESID | PPS_CTL_EN
  | PPS_CTL_SQUELCH | PPS_WIDTH | PPS_DLY_COARSE | PPS_DLY_FINE | TOD_EN | TOD_SRC | TOD_BAUD | TOD_START | TOD_SENT
  | ECAP_CFG_EN | ECAP_CFG_EDGE | ECAP_CFG_IV_MODE | ECAP_CAB_DLY | ECAP_IVMAX_IV_MAX | ECAP_TIME | ECAP_FLAGS_GEN
  | ECAP_FLAGS_RISE | ECAP_FLAGS_CAUTION | ECAP_FLAGS_VOID | ECAP_FLAGS_VALID | ECAP_FLAGS_IV | ECAP_FLAGS_WITHIN_RES
  | ECAP_FLAGS_NEG | ECAP_FILL_LEVEL | ECAP_CNT_DEAD | ECAP_CNT_OVERRUN | ECAP_CNT_ORDER | ECAP_CNT_TIMEOUT
  | ECAP_CNT2_RESTART
  deriving DecidableEq, Repr

/-- Fields of the STAMP block: stamping unit, Tables 6.8-6.11. -/
inductive StampF where
  | CTL_EN | CTL_CFG_REFUSED | CLKID | CNT_CF_SAT | CNT_RATE_DROP | DOM_DOMAIN_NUM | DOM_MAJOR_SDO | DOM_MINOR_SDO
  | DOM_RATE_OFS | OBS_CFG_EN | OBS_CFG_PORT | OBS_CFG_DOM | OBS_CFG_MECH | OBS_CFG_STALE | OBS_PARENT | OBS_OFS
  | OBS_MPD | OBS_ANN_CLASS | OBS_ANN_ACC | OBS_ANN_LOG_INT | OBS_CNT_EXCH | OBS_CNT_OBS_DISC | SPORT_CFG_RING_EN
  | SPORT_CFG_RING_LOC | SPORT_CFG_RING_ENG | SPORT_CFG_RING_SIZE | SPORT_CFG_PDR_MODE | SPORT_CFG_PDR_DOM
  | SPORT_RBASE | SPORT_HEAD | SPORT_TAIL | SPORT_CNT_LOST | SPORT_CNT_VOID_STOMP | SPORT_CNT2_NOROLE
  | SPORT_CNT2_DESC_ERR | SPORT_CNT2_NO_TRAILER | SPORT_CNT2_PLANE_OFF | SPORT_PEER_DLY | SPORT_PDR_DROP
  deriving DecidableEq, Repr

/-- Fields of the LANE block: lanes, Tables 2.8-2.17 and 4.8-4.10. -/
inductive LaneF where
  | CTL_MODE | CTL_FEC | CTL_MEDIUM | CTL_TX_REF | CTL_TX_POL | CTL_RX_POL | CTL_LOOPBACK | CTL_TX_IDLE
  | CTL_CFG_REFUSED | STATUS_CDR_LOCK | STATUS_BLOCK_LOCK | STATUS_AM_LOCK | STATUS_FEC_LOCK | STATUS_LINK_UP
  | STATUS_SIG_DET | STATUS_RX_IDLE | STATUS_TX_IDLE_ST | STATUS_AN_DONE | STATUS_LT_DONE | STATUS_AN_MISMATCH
  | STATUS_MOD_PRESENT | STATUS_TX_REF_APPLIED | STATUS_EFF_MODE | RAW_DIV | RAW_VCO | TXEQ_PRE3 | TXEQ_PRE2
  | TXEQ_PRE1 | TXEQ_MAIN | TXEQ_POST1 | TXEQ_POST2 | RXEQ_CTLE | RXEQ_CTLE_AUTO | RXEQ_DFE_AUTO | RXEQ_FREEZE
  | RXEQ_DFE_SEL | RXEQ_DFE_VAL | EYE_W | EYE_H | EYE_WORST | EYE_AGE | EYE_VALID | ALIGN_WORD_OFS | ALIGN_GBX_PHASE
  | ALIGN_GEN | ALIGN_VALID | ALIGN_FEC_POS | ALIGN_AM_POS | SLIP | SLIP_BUSY | SLIP_REFUSED | RM_SKIP_INTERVAL
  | RM_CNT_INS | RM_CNT_DEL | TWIN_MAX_RATE | TWIN_CUR_RATE | TWIN_TSTATE | TWIN_FAIL1 | TWIN_FAIL2 | PHASE_TX_PHASE
  | PHASE_RX_PHASE | PHASE_PH_VALID | TERM_RX_WORD | TERM_TX_WORD | TERM_RX_GBX | TERM_TX_GBX | TERM_RX_FEC
  | TERM_TX_FEC | TERM_RX_AM | TERM_TX_AM | TERM_RX_TERM_VALID | TERM_TX_TERM_VALID | FIX_RX_A | FIX_TX_A
  | CAL_SET_LO | CAL_SET_HI | CAL_TEMP | CAL_DEG | CAL_NONE | CAL_EXTRAP | RESID | RESID_VALID | BRD_TX | BRD_RX
  | MOD_TX | MOD_RX | DLY_CFG_MOD_SRC | DLY_CFG_RESP_EN | DLY_CFG_AUTO_CHECK | DLY_CFG_TX_SHARE | DLY_CFG_CMIS_PAGE
  | DLY_CFG_CMIS_OFS | DLY_STAT_DLY_VALID | DLY_STAT_ASYM_SRC | DLY_STAT_CHECKING | DLY_STAT_SPLIT_ASSUMED
  | DLY_STAT_CAUSE | DLY_STAT_CFG_REFUSED | ASYM | ASYM_U | RT | FIBRE_D | FIBRE_S | FIBRE_S_U | FIBRE_TG
  | OP_LAMBDA_OUT | OP_LAMBDA_IN
  deriving DecidableEq, Repr

/-- Fields of the QUAD block: quads, Table 2.18. -/
inductive QuadF where
  | CTL_FAMILY | CTL_TX_REF | CTL_TX_REF_APPLIED | CTL_PLL_LOCK | CTL_VCO | CTL_CFG_REFUSED
  deriving DecidableEq, Repr

/-- Fields of the MOD block: module masters, Table 2.19. -/
inductive ModF where
  | CFG_ENABLE | CFG_SPEED | ADDR_OFFSET | ADDR_PAGE | ADDR_BANK | ADDR_SLOT | CMD_LEN | CMD_WRITE | CMD_GO
  | STATUS_BUSY | STATUS_DONE | STATUS_NACK | STATUS_TIMEOUT | STATUS_LOCKED | STATUS_REFUSED | STATUS_ABSENT
  | PRESENT | BUF
  deriving DecidableEq, Repr

/-- Fields of the SURV block: survey controller, Table 4.11. -/
inductive SurvF where
  | CTL_START | CTL_ABORT | CTL_KIND | CTL_PORT | CTL_PORT_B | CTL_AUTO_APPLY | CTL_APPLY | CTL_WH_IN | SEQ_N | SEQ_K
  | SEQ_RETUNE_WAIT | LAMBDA | U_LAMBDA | U_MAX | FIX_D_LOOP | PROBE_D_PROBE | STATUS_STATE | STATUS_ERR
  | STATUS_CYCLE | STATUS_SEG | STATUS_DONE | STATUS_FAIL | STATUS_REFUSED | DRT | DELTA | U | LEN | WHREC | RT_LOOP
  deriving DecidableEq, Repr

/-- Fields of the PORT block: ports, Tables 7.13 and 16.7. -/
inductive PortF where
  | CTL_EN | CTL_CT_EN | CTL_FC_MODE | CTL_MGMT_TRAP | CTL_MGMT_DEST | CTL_HOSTQ | CTL_CFG_REFUSED | CTL_HOLDOFF
  | STATUS_PSTATE | STATUS_RATE | STATUS_PAUSED | STATUS_PWD_HOLD | MAX_LEN | STA_ADDR | STA_EN | FC_RX_PFC_EN
  | FC_TX_PFC_EN | FC_RX_EN | FC_TX_EN | PFC_MAP | TX_QUANTA | XOFF_THR | XON_THR | PWD_LIMIT | PWD_HOLD
  | CNT_CT_STOMP | CNT_DOWN_DROP | CNT_TX_TRUNC | CNT_CTL_DROP | CNT_PAUSE_IGN | CNT_PWD_TRIP | CNT_IN_OVERRUN
  | CNT_TRAPPED | STAT_FRAMES_TX | STAT_FRAMES_RX | STAT_FCS_ERR | STAT_OCTETS_TX | STAT_OCTETS_RX | STAT_MCAST_TX
  | STAT_BCAST_TX | STAT_MCAST_RX | STAT_BCAST_RX | STAT_TOO_LONG | STAT_UNDERSIZE | STAT_CTL_TX | STAT_CTL_RX
  | STAT_PAUSE_TX | STAT_PAUSE_RX | STAT_FEC_CORR | STAT_FEC_UNCORR | STAT_SYM_ERR | PFC_RX
  deriving DecidableEq, Repr

/-- Fields of the CORE block: switch core, Tables 7.6-7.12. -/
inductive CoreF where
  | PAIR_CTL_BANK | PAIR_CTL_BANK_APPLIED | PAIR_CTL_CHK_A | PAIR_CTL_CHK_B | PAIR_CTL_CFG_REFUSED | PAIR_CNT_NO_DEST
  | PAIR_CNT_BAD_DEST | PAIR_CNT_PROG_FAULT | PAIR_CNT_STALL_CYC | CELLAIN_INSN | CELLAEG_INSN | CELLBIN_INSN
  | CELLBEG_INSN | TBL_KIND | TBL_STAGE | TBL_KEY_BITS | TBL_DATA_BITS | TBL_BASE | TBL_SIZE | TBL_COUNT | LKP_OP
  | LKP_TBL | LKP_VIS | LKP_GO | LKP_STATUS_BUSY | LKP_STATUS_CODE | LKP_STATUS_HIT | LKP_INDEX | LKP_KEY | LKP_MASK
  | LKP_DATA | MCG_PORTS0 | MCG_PORTS1 | MCG_PORTS2 | MCG_ENGINES | MCG_EQ | MCG_HOST_EN | MCG_HOSTQ | MCG_HAIRPIN
  | QUEUE_MAX | QUEUE_SP | QUEUE_ECN_THR | QUEUE_QUANTUM | QUEUE_Q_DROP | QUEUE_DEPTH | QUEUE_PAUSED
  | QUEUE_GATE_OPEN | GATE_EN | GATE_LEN | GATE_OPER_EN | GATE_PEND | GATE_CYCLE | GATE_BASE | GATE_NOW_ENTRY
  | GATE_NOW_GATES | GATE_HELD | GATE_LEAD | ADMIN_INTERVAL | ADMIN_GATES | OPER_INTERVAL | OPER_GATES
  deriving DecidableEq, Repr

/-- Fields of the POOL block: pool manager, Tables 8.6-8.9. -/
inductive PoolF where
  | CTL_OPEN | CTL_SPILL_EN | CTL_WIPE_DONE | CTL_CFG_REFUSED | CFG_C1 | CFG_C2 | CFG_C3 | THAW_HANDLE
  | FROZEN_HANDLE | ECC_CE | ECC_UE | STAT_TOTAL | STAT_FREE | STAT_SHARED | STAT_FROZEN | STAT_REF_OVER
  | STAT_FROZEN_OP | STAT_BAD_HANDLE | OWN_RSV | OWN_MAX | OWN_USE | OWN_DENY | SPILL_THR | SPILL_REFILL_THR
  | SPILL_GRAN_DEPTH | SPILL_CEL_DEPTH | SPILL_DENY | SPILL_LOST | SPILL_REFILL_WAIT
  deriving DecidableEq, Repr

/-- Fields of the CEL block: Cellar, Table 8.10. -/
inductive CelF where
  | CTL_ENG_SIZE | STACK_STATE | STACK_MARK | STACK_UE_LIM | STACK_CE | STACK_UE | STACK_TEMP
  deriving DecidableEq, Repr

/-- Fields of the ENG block: engines, Tables 9.14-9.19. -/
inductive EngF where
  | CTL_CLK_EN | CTL_MARK | CTL_UNUSABLE | CTL_STOP_ALL | CTL_CINV | CTL_CINV_BUSY | CTL_FRESET | CTL_WIPING
  | CTL_CFG_REFUSED | STATUS_TSTATE | TVEC | ECC_CE | ECC_UE | PWIN_PAGE | QSTORE_FREE | THR_TCTL_START
  | THR_TCTL_STOP | THR_TCTL_RESUME | THR_TCTL_CLEAR | THR_TCTL_PRIV | THR_TCTL_HIPRI | THR_TCTL_STATE
  | THR_TCTL_REFUSED | THR_TPC_PC | THR_TCAUSE_CAUSE | THR_TCAUSE_INTRAP | THR_TEPC_EPC | THR_TVAL_VAL | EQ_MAX
  | EQ_DEPTH | EQ_DROP | HATCH_SEND | HATCH_U_SEND | HATCH_FILL | HATCH_HREFUSED | HATCH_FULL_CNT | HATCH_PUT
  | CWIN_BASE | CWIN_SIZE | CWIN_R | CWIN_W | CWIN_EN | PATTR_U_R | PATTR_U_W | PATTR_U_X | PATTR_CODE
  deriving DecidableEq, Repr

/-- Fields of the GTH block: gather units, Tables 11.6-11.9. -/
inductive GthF where
  | CTL_CFG_REFUSED | BAD_GBAD | SPILL_USED | ENG_GSHARE | ENG_QDEPTH | ENG_QFULL | GRP_EN | GRP_WBANK | GRP_RED
  | GRP_IN_TYPE | GRP_WT_TYPE | GRP_OUT_TYPE | GRP_NOUT | GRP_LATE_MODE | GRP_EMIT_MODE | GRP_EMIT_EMPTY | GRP_EVICT
  | GRP_SPILL | GRP_BIN_HOME | GRP_MAX_IDX | GRP_SAMPLE_FMT | GRP_PLEN | GRP_PAY_REL | GRP_CID_REL | GRP_ENG_MASK
  | GRP_NSLOT | GRP_OSHIFT | GRP_WLEN_LOG | GRP_BPER | GRP_DL_OFS | GRP_EMIT_OFS | GRP_FUTURE | GRP_LATE_MAX | GRP_T0
  | GRP_SPER | GRP_EXPECT | GRP_BIN_BASE | GRP_WBASE_A | GRP_WBASE_B | GRP_TPL_OFS | GRP_TPL_LEN | GRP_GB_OFS
  | GRP_RTAG_OFS | GRP_OMETA_OFS | GRP_STATE | GRP_WBANK_APPLIED | GRP_ENG_LIVE | GRP_RELIVE | GRP_OPEN | GRP_FLOOR
  | GCNT_EMIT_FULL | GCNT_EMIT_PART | GCNT_LATE | GCNT_SUPP | GCNT_DUP | GCNT_EARLY | GCNT_BAD_LEN | GCNT_NOT_EXP
  | GCNT_OUT_RUN | GCNT_NO_SLOT | GCNT_SPILLED | GCNT_EVICTED | GCNT_BIN_LOST | GCNT_SAT | GCNT_SKIPPED
  | GCNT_EMIT_LATE
  deriving DecidableEq, Repr

/-- Fields of the TAL block: Tally, Table 16.9. -/
inductive TalF where
  | CTR_LOC | CTR_THR | CTR_EN | CTR_MODE | CTR_SIG | CTR_VAL | CTR_OVF | CTR_PRELOAD | OVF | CFG_REFUSED | DUMP_EN
  | DUMP_LOC | DUMP_SLOTS_LOG | DUMP_PERIOD | DUMP_BASE | DUMP_FIRST | DUMP_LAST | DUMP_SEQ | DUMP_SKIP | SAMP_EN
  | SAMP_LOC | SAMP_JITTER_LOG | SAMP_SIZE_LOG | SAMP_WM_LOG | SAMP_PERIOD | SAMP_BASE | SAMP_HEAD | SAMP_TAIL
  | SAMP_SAMPLES | SAMP_LOST
  deriving DecidableEq, Repr

/-- Fields of the REE block: Reeve, Tables 14.15-14.17. -/
inductive ReeF where
  | STATUS_RSTATE | STATUS_CFG_REFUSED | WDT_KICK | WDT_EN | WDT_MS | BOOT_CNT | BOOT_BANK | BOOT_RECOVERY
  | BOOT_WDT_TRIP | NONCE | LC_STATE | LC_ARMED | LC_SCAN_READY | LC_RETURN_USED | LC_SCAN_REFUSED | ARB_ENG
  | ARB_STG | ARB_REV | KEYS_BITS | BANK_STATE0 | BANK_STATE1 | BANK_TRIAL_CNT | BANK_CONFIRM | BANK_CONFIRM_S
  | LBIST_VALID | LBIST_FULL | LBIST_FATAL | LBIST_AGE_H | LBIST_FAIL_ENG | LBIST_FAIL_PAIR | LBIST_FAIL_FATAL
  | LBIST_FAIL_STACK | LBIST_FAIL_UNIT | LEDGER_HEAD | LEDGER_SEQ | ARCH_IDX | ARCH_WRAP | ARCH_ENTRY | MBOX_WORD
  | MBOX_CODE | MBOX_BUSY | MBOX_DETAIL | MBOX_SEQ | MBOX_DATA | MBOX_CMD_LOST | TOKEN | RING_ENTRY | TEMP_T
  | TEMP_LIM_LO | TEMP_LIM_HI | VOLT_V | PROC_F | AGE_LOSS
  deriving DecidableEq, Repr

/-- Fields of the WGH block: Weighhouse, Tables 13.10-13.13. -/
inductive WghF where
  | STATUS_STATE | STATUS_SEALED | STATUS_BUSY | STATUS_CAL_BAD | STATUS_OVR_RATE | STATUS_HOST_WR | STATUS_CMD_LOST
  | EVCNT | ATTEMPT | HEAD_RECNO | FW_ID | PUBKEY | KEY_ID | INSTR_ID | IN_DLY | IN_THR | LEGAL_SLOTS | TB_REQ
  | CMD_WORD | RSP_CODE | RSP_DETAIL | RSP_SEQ | RSP_DATA | SLOT_TYPE | SLOT_SRC_A | SLOT_SRC_B | SLOT_PS_A
  | SLOT_PS_B | SLOT_MODE | SLOT_RUNSTATE | SLOT_GATE | SLOT_IV_MAX | SLOT_COUNT_N | SLOT_MADE | RECORD | LOG_ENTRY
  deriving DecidableEq, Repr

/-- Fields of the HRT block: Hearth, Tables 15.7, 15.8, 18.11. -/
inductive HrtF where
  | PWR_REQ_HEARTH | PWR_REQ | PWR_REQ_RAILS_OFF | PWR_REQ_CFG_REFUSED | PWR_STAT_STATE | CTX_CONTEXT_LOST
  | SUPPLY_CAUTION | SUPPLY_RAIL | SUPPLY_GOOD | SUPPLY_VID | VMIN | VMIN_CAUTION_CNT | LINE_PD_POWERED | LINE_SRC
  | LINE_CLASS | CLK_XTAL_OK | CLK_HSRC | CLK_HCLK_RETRY | CLK_OCXO_PRESENT | CLK_XTAL_LOSS | RESET_LAST
  | RESET_WARM_CNT | RESET_SUPPLY_CNT | WAKE_EN | WAKE_PIN_EN | WAKE_AT_T | COARSE_TIME | COARSE_ST_VALID
  | LIFEH_HOURS | LIFE_EQ_EQUIV | LIFE_MAX_TJ_MAX | LIFE_ST_VID_CAP | LIFE_ST_BUDGET_OUT | LIFE_ST_TRIP_CNT
  deriving DecidableEq, Repr

/-- Fields of the TWN block: twins and timing trees, Tables 12.6-12.9. -/
inductive TwnF where
  | CTL_ROLE | CTL_AUTO_TAKE | CTL_RELINQ_UNLOCK | CTL_AUTO_RESTORE | CTL_SWAP_FAIL | CTL_CFG_REFUSED | CFG_TWIN_ID
  | CFG_TMO | CFG_ALIGN_THR | CFG_ALIGN_CYC | STATUS_ROLE_APPLIED | STATUS_LINK | STATUS_TSTATE | STATUS_PEER_ROLE
  | STATUS_CFG_MISMATCH | STATUS_ROLE_GEN | SWAP_T | SWAP_GO | TW_KP | TW_KI | TW_ASYM | OFS | TWN_I | TWN_DOSC
  | CNT_RX_BAD | CNT_STATE_MISS | COPY | WATCH_STREAM | WATCH_PORT | WATCH_EN | WATCH_SEQ_LOSS | WATCH_LAST_SEQ
  | WATCH_LOST | SNAP_CMD_SAVE | SNAP_CMD_RESTORE | SNAP_CMD_SNAP_LOC | SNAP_CMD_SNAP_SEL | SNAP_ADDR
  | SNAP_STAT_BUSY | SNAP_STAT_CODE | SNAP_LEN | TRE_L4 | TRE_REG_EN | TRE_TOO_DEEP | TRE_ETYPE | TRE_UDP | TRE_NODE
  | TRE_MGR_NODE | TRE_UP_PORT | TRE_DOWN_MASK | TRE_DA | TRE_DROP | STRM_DA | STRM_VID | STRM_EN | STRM_WINDOW
  | STRM_RESET_MS | STRM_RECOV_SEQ | SCNT_PASSED | SCNT_DISCARD | SCNT_ROGUE | SCNT_UNTAGGED | SCNT_RESETS
  deriving DecidableEq, Repr

/-- A register field: its block and its name there (R12, Tables 17.4 and 0.4). -/
inductive Fld where
  | glb (f : GlbF)
  | cri (f : CriF)
  | bell (f : BellF)
  | sel (f : SelF)
  | stamp (f : StampF)
  | lane (f : LaneF)
  | quad (f : QuadF)
  | mod (f : ModF)
  | surv (f : SurvF)
  | port (f : PortF)
  | core (f : CoreF)
  | pool (f : PoolF)
  | cel (f : CelF)
  | eng (f : EngF)
  | gth (f : GthF)
  | tal (f : TalF)
  | ree (f : ReeF)
  | wgh (f : WghF)
  | hrt (f : HrtF)
  | twn (f : TwnF)
  deriving DecidableEq, Repr

/-- The register blocks of BAR0 (Table 17.4). -/
inductive Blk where
  | glb | cri | bell | sel | stamp | lane | quad | mod | surv | port | core | pool | cel | eng | gth | tal | ree | wgh | hrt | twn
  deriving DecidableEq, Repr

/-- The groups of like register instances inside the blocks. -/
inductive Grp where
  | GLB | DMA | CRI | CRIPORT | CRIVEC | CRIFOLD | CRIVMAP | CRIPVMAP | BELL | BELLREP | SEL | SLOT | SLOTY | TOUT
  | PPS | ECAP | STAMP | DOM | OBS | SPORT | LANE | QUAD | MOD | MODBUF | SURV | SURVLAM | PORT | PORTSTA | PORTXOFF
  | PORTSTAT | PORTPFCRX | PAIR | CELLAIN | CELLAEG | CELLBIN | CELLBEG | LKPTBL | LKPCMD | MCG | QUEUE | GATE
  | GATEADM | GATEOPER | POOL | POOLSTAT | OWN | SPILL | CEL | STACK | ENG | THR | EQ | HATCH | CWIN | PATTR | GTH
  | GTHENG | GRP | GCNT | TAL | CTR | SAMP | REE | MBOX | TEMP | VOLT | PROC | AGE | LEDRING | WGH | WGHDLY | WGHTHR
  | WSLOT | WREC | WLOG | HRT | LIFEH | TWN | TWNASYM | WATCH | STRM | SCNT
  deriving DecidableEq, Repr

/-- Access types (Table 0.4). -/
inductive Acc where
  | RW | RO | WO | W1C | W1S | RC | RWL
  deriving DecidableEq, Repr

/-- Survival codes (Table 0.5). -/
inductive Surv where
  | H | W | F | N
  deriving DecidableEq, Repr

/-- The power domains of Table 1.7, in its order. -/
inductive Dom where
  | hearth | weigh | reeve | bell | core | trunkA | trunkB | spur | engine | cellar
  deriving DecidableEq, Repr

end Sys2Proof.Machine
end

