-- ==== Sys2Proof/Machine/Hidden.lean ====
section
/-! DEFINITION. Hidden state: what the manual says the part remembers outside its register tables (timers that run,
values set aside, sequencer positions). Each is a number, 0 at reset. -/

namespace Sys2Proof.Machine

/-- Where a hidden value lives, which says what resets lose it. -/
inductive HidHome where
  /-- NVM or OTP: never lost. -/
  | nvm
  /-- Hearth domain, code H: lost at loss of Hearth power. -/
  | hearth
  | weigh
  /-- REEVE domain, code N. -/
  | reeve
  /-- REEVE domain, code W (kept across a warm reset). -/
  | reeveW
  | bell
  | core
  /-- the domain of lane n -/
  | lane
  /-- the domain of quad n -/
  | quad
  | engine
  | cellar
  deriving DecidableEq, Repr

/-- The hidden values. -/
inductive Hid where
  /-- applied generation of commit unit u (R103) -/
  | unitGen
  /-- what the commit in hand is: 0 COMMIT, 1 ROLLBACK, 2 step (R80) -/
  | commitKind
  /-- PART of the last commit, set aside at arming (Table 3.6) -/
  | asidePart
  /-- VEC set aside at arming -/
  | asideVec
  /-- LATE set aside at arming -/
  | asideLate
  /-- SPLIT set aside at arming -/
  | asideSplit
  /-- T of the armed commit, 96-bit bell time -/
  | commitT
  /-- the one-entry queue of internal requests holds a request (R105) -/
  | intFull
  /-- units named by the internal request -/
  | intUnits
  /-- 1 + TARGET requested by the internal request, 0 none -/
  | intMode
  /-- 1 + twin ROLE requested by the internal request, 0 none -/
  | intRole
  /-- 1 + SERVO_SRC requested by the internal request, 0 none -/
  | intSrc
  /-- the hold of vector v runs (R516) -/
  | vecHold
  /-- vector v went pending again within its hold -/
  | vecAgain
  /-- messages sent for vector v -/
  | vecMsgs
  /-- vector v is unmasked in the MSI-X table; an endpoint reset masks it (PCIe) -/
  | msixOpen
  /-- pending bit of vector v in the MSI-X table -/
  | msixPend
  /-- PHASE of the event ring, 0 for 1 before the first enable (R202, R518) -/
  | ringPhase
  /-- the next event record carries LOST -/
  | ringLostNext
  /-- entries ever written to the Ledger archive (R454) -/
  | archCount
  /-- the start window of R491 is open -/
  | startWindow
  /-- the Hearth link is trained (R18) -/
  | hlink
  /-- what holds the main domains in reset: bit 0 RESET_N low, bit 1 crystal lost (R496, R500) -/
  | mainHold
  /-- whole ticks of the step in hand, 64-bit two's complement (R81) -/
  | stepK
  /-- sub-tick steps of the step in hand (R81) -/
  | stepS
  /-- the armed step is an authorised one (Table 3.3) -/
  | stepAuth
  /-- find-first-free cursor of pool p (R262) -/
  | poolCursor
  /-- pool p's shared part has become empty and has not yet held 1 % again (R267) -/
  | poolEmptied
  /-- the last answer to owner o: 1 denied, 2 + handle granted (Table 8.3) -/
  | poolCmd
  /-- Granary banks marked unusable, one bit each (R259) -/
  | bankBad
  /-- the Granary is being wiped (R277) -/
  | granWipe
  /-- 1 + thread of engine e that YIELD put last in its class (R353) -/
  | lastInRotation
  /-- CORE_CFG_REFUSED, which Table 7.8 names and no register holds -/
  | coreCfgRefused
  /-- port n's delay check: 0 none, 1 waits for ALIGN_VALID and 100 ms, 2 runs its exchanges (R142) -/
  | chkStage
  /-- RT of port n holds a tracked value (R142) -/
  | rtTracked
  /-- age at which port n's link went down -/
  | linkDownAt
  /-- survey that runs: 0 none, 1 asymmetry, 2 loopback -/
  | survKind
  /-- wavelength pair the local module is tuned to: 0 A, 1 B -/
  | survPair
  /-- phase of a loopback survey: 1 Weighhouse, 2 looped requests (R127) -/
  | survPhase
  /-- hold-off timer of port p runs (Table 7.4) -/
  | holdRun
  /-- it has expired while the port drains -/
  | holdDone
  /-- age at which it expires -/
  | holdAt
  /-- 1 + first lane of the port that lane n is a member of (R36) -/
  | laneOwner
  /-- a new mode of port p waits for the end of DRAINING (R37) -/
  | modeWait
  /-- word offset lane n's transmitter chose at link start (Table 4.1) -/
  | txWord
  /-- its gearbox slot -/
  | txGbx
  /-- pipeline pairs marked unusable, one bit each (Table 14.11) -/
  | pairBad
  /-- place in slice s after the draining port served last (R252) -/
  | flushNext
  /-- bits slipped on lane n since the last mode write (R53, R114) -/
  | slipBits
  /-- age at lane n's last eye publication (R57) -/
  | eyeAt
  /-- 1 + rate code of the last OFFER twin lane n received -/
  | offerRate
  /-- consistent OFFERs received in a row -/
  | offerCnt
  /-- rate agreed in STEP and SWITCH (R59) -/
  | twinRate
  /-- MOD_TX and MOD_RX of port n are awaited from a loopback survey (Table 4.6) -/
  | modAwait
  /-- the CMIS module delays of port n have been read (R142) -/
  | modRead
  /-- BRD_TX of port n in effect (R125) -/
  | effBrdTx
  /-- BRD_RX in effect -/
  | effBrdRx
  /-- MOD_TX in effect -/
  | effModTx
  /-- MOD_RX in effect -/
  | effModRx
  /-- the selection is LOCKED (R162) -/
  | locked
  /-- consecutive servo cycles within LOCK_THR -/
  | lockIn
  /-- consecutive servo cycles beyond 4 × LOCK_THR -/
  | lockOut
  /-- slot whose history is in use (Table 5.6) -/
  | histSlot
  /-- age at which the history entry in hand began -/
  | histStart
  /-- age up to which its sums run -/
  | histAt
  /-- signed sum of total correction × ticks -/
  | histSum
  /-- signed sum of temperature × ticks -/
  | histTemp
  /-- what the HOLD source holds: 0 nothing, 1 the fitted model, 2 a constant correction, 3 the frozen word -/
  | holdKind
  /-- the constant or frozen word, signed -/
  | holdWord
  /-- age at which the HOLD source was selected (t = 0 of R170) -/
  | holdFrom
  /-- CODE stays at a host-written value until the next mode commit (R172) -/
  | dacPinned
  /-- signed sum of the words in effect over the deadlines since the last transfer check (R172) -/
  | dacSum
  /-- deadlines in that sum -/
  | dacCnt
  /-- signal present on slot n (Table 5.1) -/
  | slotSig
  /-- 1 when the signal of slot n has been reported present at its input -/
  | slotIn
  /-- age since which slot n's signal has been present -/
  | sigAt
  /-- consecutive middle-window evaluations at which slot n was outvoted (R153) -/
  | ovMid
  /-- consecutive long-window evaluations -/
  | ovLong
  /-- slot n was outvoted at the last long-window evaluation -/
  | ovLast
  /-- age at which slot n's wait-to-restore ends -/
  | wtrAt
  /-- age of the last monitor evaluation -/
  | monAt
  /-- age of the last long-window evaluation -/
  | longAt
  /-- phase build-out of the selected slot, signed 2^-16 ns (R160) -/
  | buildOut
  /-- 1 + the selected slot -/
  | selSlot
  /-- the force settings have changed since the last selection (R158) -/
  | forceChg
  /-- received quality of port p: 1 + SSM code + 32 × (1 + extended code) (R149) -/
  | portQl
  /-- last quality sent on port p: 1 + code, + 64 for an event PDU (R150) -/
  | esmcTx
  /-- ESMC PDUs sent on port p -/
  | esmcCnt
  /-- ageing rate of the fit in 10^-18/s, signed (R170) -/
  | fitAge
  /-- TOUTk's trigger: 0 idle, 1 armed, 2 running -/
  | trigState
  /-- its target, TRIG_T + D, in 2^-16 ns / 125 since the epoch -/
  | trigAt
  /-- the instant at which it began, in the same unit -/
  | trigFired
  /-- its TKIND, as armed -/
  | trigKind
  /-- its WIDTH in VCO periods, as armed -/
  | trigW
  /-- its pulses, as armed; 0 without end -/
  | trigN
  /-- its period in VCO periods, as armed -/
  | trigP
  /-- 1 while it runs squelched -/
  | trigSq
  /-- the instant at which that squelch began -/
  | trigSqAt
  /-- age at which the last ESMC PDU of port p arrived -/
  | esmcAt
  /-- messages observer d has had from its parent since it started: 1 Announce, 2 Sync -/
  | obsHas
  /-- number of the servo cycle in hand, not reduced (R78) -/
  | cycNum
  /-- CYCLE in effect -/
  | cycEff
  /-- DL in effect -/
  | dlEff
  /-- 1 while the deadline of the cycle in hand is still to come -/
  | dlPend
  /-- 1 + the firmware word posted for the pending deadline (R88) -/
  | fwPend
  /-- 1 while the hardware servo waits for the moved servo's first update (R87) -/
  | servoAwait
  /-- end of the most recent step's phase shift in 2^-16 ns (Table 3.2) -/
  | stepEnd
  /-- age at which the persistence timer ends (Table 3.3) -/
  | jumpAt
  /-- age of the first refused sample of the jump in hand (R169) -/
  | jumpFirst
  /-- age at which the last CAUTION ended (Table 3.2) -/
  | cautionEnd
  /-- consecutive markers replica n has disagreed with (R95) -/
  | repBad
  /-- 1 while a leap flag is set and SEC has been below BELL_LEAP_AT (R97) -/
  | leapArm
  /-- 1 + the age of the last accepted edge of ECAPk in 10 ps (R183) -/
  | ecapLast
  /-- the interval of pair k / 2: 0 none open, 1 opened on k, 2 on k + 1 (R185) -/
  | ivOpen
  /-- its start, signed 2^-16 ns / 125 -/
  | ivStart
  /-- flags of its start: 1 CAUTION, 2 VOID -/
  | ivFlags
  /-- age at which it was opened -/
  | ivAt
  /-- entries of port p's operating gate list -/
  | gateLen
  /-- its cycle in ns -/
  | gateCyc
  /-- its base, 96-bit bell time -/
  | gateBase
  /-- first cycle start of the list that waits, in 2^-16 ns (R241) -/
  | gateAt
  /-- 1 + handle of the head frame of queue 8 p + t the guard holds (HELD) -/
  | gateHeld
  /-- deficit of queue 8 p + t in octets (R239) -/
  | dwrr
  /-- queue of port p the round robin visits -/
  | dwrrAt
  /-- that visit has had its quantum -/
  | dwrrIn
  /-- 1 + age at which class c (0-7 priority, 8 PAUSE) ends on queue q = 8 p + t, at 9 q + c (R247) -/
  | pauseEnd
  /-- 1 + age since which queue 8 p + t is paused without interruption (R249) -/
  | pauseFrom
  /-- age at which the watchdog hold of queue 8 p + t ends -/
  | pwdEnd
  /-- 1 + age at which class c of port p last sent XOFF, at 9 p + c; 0 while not paused by it (R248) -/
  | xoffAt
  /-- PHASE of port p's stamp ring, 0 for 1 (R202) -/
  | sringPhase
  /-- the next record of port p's stamp ring carries LOST -/
  | sringLost
  /-- second of age in which stamp records are being counted (R203) -/
  | recSec
  /-- records in it -/
  | recCnt
  /-- stream has taken a first sequence number since its last reset (R407) -/
  | strmTake
  /-- sequence history of the stream, bit i for RECOV_SEQ - i -/
  | strmHist
  /-- age of the last frame accepted in the stream -/
  | strmAt
  /-- 1 + age of the last Announce observer o had from its parent (R214) -/
  | obsAnn
  /-- 1 + age of the last Sync -/
  | obsSync
  /-- logMessageInterval of that Sync, signed 8-bit -/
  | obsSyncInt
  /-- 1 while port p owes a Pdelay_Resp_Follow_Up (R210) -/
  | pdrFu
  /-- its request's octets as one number: requestingPortIdentity, sequenceId, domain, sdo -/
  | pdrFuData
  /-- the request's correctionField, signed -/
  | pdrFuCf
  /-- fibre-plane departure of the response in 2^-16 ns, + 1 -/
  | pdrFuDep
  /-- destination address of the response -/
  | pdrDa
  /-- HELLOs still to carry RELINQUISH (R404) -/
  | relinq
  /-- ticks for which port n's link was down before it last came up (R142) -/
  | linkGap
  /-- MOD_TX of port n from the last loopback survey (R124) -/
  | loopTx
  /-- MOD_RX from it -/
  | loopRx
  /-- a loopback survey has given them -/
  | loopHave
  /-- 1 + SURVEY_ID of the survey a peer runs on port p (R136) -/
  | survPeer
  /-- SURVEY_ID of the survey in hand -/
  | survId
  /-- the peer has acknowledged this segment's TUNE -/
  | survAck
  /-- RETUNE_WAIT has elapsed with the local module tuned -/
  | survWaited
  /-- age at which TUNE, or the loopback survey, was entered -/
  | survAt
  /-- SEQ of the last REQ sent -/
  | survSeq
  /-- that REQ is unanswered -/
  | survOpen
  /-- requests unanswered in a row before it -/
  | survMiss
  /-- exchanges complete in the segment in hand -/
  | survCnt
  /-- their signed sum of round trips in 2^-16 ns -/
  | survSum
  /-- repeats of the segment in hand -/
  | survRep
  /-- mean round trip of segment k of the cycle in hand, signed -/
  | survMean
  /-- twice the ΔRT of cycle k, signed -/
  | survDrt
  /-- signed sum of the pair-A segment means -/
  | survRtA
  /-- the loopback survey splits by TX_SHARE (R128) -/
  | survSplit
  /-- 1 + ball departure of port p's last REQ in 2^-16 ns -/
  | survT1
  /-- that stamp carried VOID or CAUTION -/
  | survT1Bad
  /-- a solved survey waits for the next servo cycle boundary (Table 4.4) -/
  | survApply
  /-- next SEQ of in-band class c (Table 12.2) -/
  | treSeq
  /-- START of group g as a bin number (R387) -/
  | gthStart
  /-- STOP of group g as a bin number -/
  | gthStop
  /-- T of the last change of group g's WBANK, in 2^-16 ns (R375) -/
  | gthBankT
  /-- its bank before that -/
  | gthBankOld
  /-- 1 + the timescale in 2^-16 ns just before the last step (R369) -/
  | stepFrom
  /-- and just after it -/
  | stepTo
  /-- age at which the Pantry wipe of engine e completes (R303) -/
  | pwipeAt
  /-- a switchover has left a restore for when the commit is done (R411) -/
  | autoRest
  /-- the armed commit's change of role is the twins' own: a swap or an internal request (Table 12.4) -/
  | roleInt
  /-- a commit or a host lookup command has come since the snapshot began (R410) -/
  | snapStale
  /-- age at which the next HELLO is due (R392) -/
  | twHelloAt
  /-- age of the last HELLO that keeps the link UP -/
  | twHeard
  /-- next SEQ of twin message class c (Table 12.2) -/
  | twSeq
  /-- 1 + SEQ of the last message received of class c (R391) -/
  | twSeen
  /-- TSTATE of the peer's last HELLO -/
  | peerT
  /-- the peer's CYCLE differs (R398) -/
  | twMisCyc
  /-- departure of the PHASE_REQ in hand, 2^-16 ns (R394) -/
  | twT1
  /-- 1 + SEQ of the PHASE_REQ in hand, 0 none -/
  | twT1Ok
  /-- its stamp carries VOID or CAUTION -/
  | twT1Bad
  /-- the lane it left on -/
  | twLane
  /-- exchanges gathered in SEEKING (R395) -/
  | trkN
  /-- sum of their offsets, 192-bit two's complement -/
  | trkSum
  /-- what the Reeve does with a snapshot: 0 nothing, 1 a save, 2 a restore, 3 a restore whose check failed (R410, R411) -/
  | snapOp
  /-- depth of this node below the manager (R413) -/
  | treDepth
  /-- age at which the next in-band HELLO is due (R412) -/
  | treHelloAt
  /-- 1 + TGEN of the in-band commit whose second REPORT is to come (R414) -/
  | treRep
  /-- total length of the image that arrives in band, 0 none (R415) -/
  | treImgTot
  /-- IMAGE_ID of the image that arrives in band -/
  | treImgId
  /-- octets of it written so far, in order -/
  | treImgOfs
  /-- the OCXO signal was lost and the Hearth clock has not returned to it (R497) -/
  | ocxoLost
  /-- cycles within ALIGN_THR in a row -/
  | trkIn
  /-- cycles beyond it in a row -/
  | trkOut
  /-- a STATE has come since the last deadline -/
  | twGot
  /-- a STATE has come since the last cycle boundary (R399) -/
  | twLeap
  /-- a SWAP waits for its ACK (R403) -/
  | swapPend
  /-- age at which it fails -/
  | swapAt
  /-- age at which TWN.NO_ACTIVE is next raised, 0 when the condition does not hold (R402) -/
  | noActAt
  /-- age at which the next PHASE_REQ is due -/
  | twReqAt
  /-- key of verification slot k, 32 octets (R456) -/
  | keySlot
  /-- the Weighhouse's anti-rollback value (R443) -/
  | wArb
  /-- RECNO at the last checkpoint (R436) -/
  | wCkpt
  /-- IN_DLY of input i, 64-bit two's complement (Table 13.6) -/
  | wDly
  /-- the Weighhouse signing key exists (R434, R444) -/
  | wKey
  /-- N1 of the interpolator of source k (R425) -/
  | wN1
  /-- N2 of the interpolator of source k -/
  | wN2
  /-- age at which source k last exceeded its rate (R423) -/
  | wOvrAt
  /-- a long command runs: 5 IMAGE_INSTALL, 6 VERIFY (R445) -/
  | wRun
  /-- length of the image being installed -/
  | wRunLen
  /-- sequence number it answers -/
  | wRunSeq
  /-- quads marked unusable, one bit each (Table 14.11) -/
  | quadBad
  /-- Cellar stacks marked unusable by self-test or the ladder, one bit each -/
  | stackBad
  /-- who marked block k (Table 14.11): 1 LBIST, 2 ladder, 3 host; engine e at e, pair s at 16 + s, bank b at 24 + b, quad q at 72 + q, stack k at 88 + k -/
  | markWhy
  /-- Almanac sets that failed their check, one bit each (R120) -/
  | almBad
  /-- contents of Almanac set k: 0 as trimmed, else 1 + the octets it was rewritten with -/
  | almImg
  /-- 1 + the temperature reading at lane n's last evaluation (R119) -/
  | calTemp
  /-- 1 + age at which the scheduled warm reset acts, 0 none (R501, Table 14.8) -/
  | warmAt
  /-- orderly shutdown in hand: 0 none, 1 waits for SERVICE with LBIST, 2 without, 3 waits for DORMANT (R474) -/
  | shut
  /-- 1 + outcome of the short set of the shutdown in hand, 0 where none is given -/
  | lbRes
  /-- 1 + target of the life-cycle transition that waits for DORMANT (R471) -/
  | lcPend
  /-- 1 + target of the transition whose ARM bit is blown (R471) -/
  | lcTo
  /-- 1 + source that writes the WRITING bank: 0 host mailbox, 1 I2C mailbox, 2 in band (R465) -/
  | bankSrc
  /-- BANK_SEQ of bank b (R459) -/
  | bankSeq
  /-- 1 + age at which CONFIRM_S ends (R464) -/
  | confirmAt
  /-- 1 + age at which the function reset of function k ends, 0 none (R506) -/
  | frEnd
  /-- 1 + ages of the last two re-initialisations of function k, at 2 k and 2 k + 1 (Table 14.12) -/
  | reAge
  /-- 1 + ages of the last two warm resets of the ladder, at 0 and 1 -/
  | warmAge
  /-- 1 + age of the ladder's last power cycle -/
  | cycAge
  /-- 1 + ages of the last two thermal trips, at 0 and 1 (R557) -/
  | tripAge
  /-- MAIN_EN is driven low: 1 DORMANT with RAILS_OFF, 2 power cycle, 3 ladder ended, 4 thermal trip -/
  | mainEn
  /-- age at which it is released again -/
  | mainEnAt
  /-- 1 + kind of the start that waits for the main rails (Table 15.4), 0 none -/
  | startKind
  /-- domains whose context the Reeve has saved, one bit each (R493) -/
  | ctxHave
  /-- GLB.CONTEXT_LOST is to be raised when the Crier runs -/
  | ctxRaise
  /-- GLB.COMMIT_SPLIT is to be raised after the warm reset (Table 3.6) -/
  | splitRaise
  /-- the firmware servo has been placed since this start (R87) -/
  | servoPlaced
  /-- the boot ROM has not yet run -/
  | bootPend
  /-- the PCIe endpoint is enabled (R530, R462) -/
  | pcieOn
  /-- minutes counted in band b and not yet moved (R559) -/
  | lifeMin
  /-- 1 + 32768 + the highest reading of sensors 0-21 in the minute in hand, 0 none -/
  | tjMax
  /-- age at which the verdict in force was stored (R475) -/
  | verdAge
  /-- the verdict in force was stored in the present Hearth power span -/
  | verdSpan
  /-- age of the last accepted watchdog kick (R451) -/
  | wdtAt
  /-- public key that the accepted token of the life-cycle transition carries -/
  | lcArg
  /-- LOC of counter i in effect (R521) -/
  | talLoc
  /-- THR of counter i in effect -/
  | talThr
  /-- age at which counter i was last brought up to date -/
  | talAt
  /-- counter i was reprogrammed since the last snapshot (Table 16.5) -/
  | talResel
  /-- an instruction of engine e is tagged (R526) -/
  | sampTag
  /-- what the sampling down-counter of engine e was last loaded with -/
  | sampCnt
  /-- PHASE of engine e's sample ring, 0 for 1 -/
  | sampPhase
  /-- the next sample record of engine e carries LOST -/
  | sampLost
  /-- PHASE of the receive ring of host queue q, 0 for 1 (R532) -/
  | dmaRxPhase
  /-- PHASE of its transmit ring, 0 for 1 -/
  | dmaTxPhase
  /-- JTAG instruction loaded: 0 BYPASS, 1 IDCODE, 2 SAMPLE/PRELOAD, 3 EXTEST, 4 EXTEST_PULSE, 5 EXTEST_TRAIN, 6 CLAMP, 7 HIGHZ, 8 internal scan -/
  | jtagIr
  /-- value preloaded into the boundary register, as one number -/
  | jtagBsr
  deriving DecidableEq, Repr

/-- The home of each hidden value. -/
def Hid.home : Hid → HidHome
  | .unitGen | .commitKind | .asidePart | .asideVec | .asideLate | .asideSplit | .commitT | .roleInt | .reAge
  | .splitRaise => .reeveW
  | .intFull | .intUnits | .intMode | .intRole | .intSrc | .vecHold | .vecAgain | .vecMsgs | .msixOpen
  | .msixPend | .ringPhase | .ringLostNext | .startWindow | .hlink | .autoRest | .warmAt | .shut | .lbRes
  | .lcPend | .bankSrc | .frEnd | .ctxHave | .servoPlaced | .bootPend | .pcieOn | .wdtAt | .talLoc | .talThr
  | .talAt | .talResel | .sampTag | .sampCnt | .sampPhase | .sampLost | .dmaRxPhase | .dmaTxPhase => .reeve
  | .archCount | .keySlot | .wArb | .wCkpt | .wDly | .wKey | .almImg | .bankSeq => .nvm
  | .mainHold | .bankBad | .pairBad | .holdKind | .holdWord | .holdFrom | .dacPinned | .fitAge | .ocxoLost
  | .quadBad | .stackBad | .markWhy | .almBad | .lcTo | .confirmAt | .warmAge | .cycAge | .tripAge | .mainEn
  | .mainEnAt | .startKind | .ctxRaise | .lifeMin | .tjMax | .verdAge | .verdSpan | .lcArg | .jtagIr
  | .jtagBsr => .hearth
  | .stepK | .stepS | .stepAuth | .locked | .lockIn | .lockOut | .histSlot | .histStart | .histAt | .histSum
  | .histTemp | .dacSum | .dacCnt | .slotSig | .slotIn | .sigAt | .ovMid | .ovLong | .ovLast | .wtrAt
  | .monAt | .longAt | .buildOut | .selSlot | .forceChg | .trigState | .trigAt | .trigFired | .trigKind
  | .trigW | .trigN | .trigP | .trigSq | .trigSqAt | .cycNum | .cycEff | .dlEff | .dlPend | .fwPend
  | .servoAwait | .stepEnd | .jumpAt | .jumpFirst | .cautionEnd | .repBad | .leapArm | .ecapLast | .ivOpen
  | .ivStart | .ivFlags | .ivAt | .strmTake | .strmHist | .strmAt | .relinq | .stepFrom | .stepTo
  | .snapStale | .twHelloAt | .twHeard | .twSeq | .twSeen | .peerT | .twMisCyc | .twT1 | .twT1Ok | .twT1Bad
  | .twLane | .trkN | .trkSum | .snapOp | .treDepth | .treHelloAt | .treRep | .treImgTot | .treImgId
  | .treImgOfs | .trkIn | .trkOut | .twGot | .twLeap | .swapPend | .swapAt | .noActAt | .twReqAt => .bell
  | .poolCursor | .poolEmptied | .poolCmd | .granWipe | .coreCfgRefused | .survKind | .survPair | .survPhase
  | .holdRun | .holdDone | .holdAt | .flushNext | .portQl | .esmcTx | .esmcCnt | .esmcAt | .obsHas | .gateLen
  | .gateCyc | .gateBase | .gateAt | .gateHeld | .dwrr | .dwrrAt | .dwrrIn | .pauseEnd | .pauseFrom | .pwdEnd
  | .xoffAt | .sringPhase | .sringLost | .recSec | .recCnt | .obsAnn | .obsSync | .obsSyncInt | .pdrFu
  | .pdrFuData | .pdrFuCf | .pdrFuDep | .pdrDa | .survPeer | .survId | .survAck | .survWaited | .survAt
  | .survSeq | .survOpen | .survMiss | .survCnt | .survSum | .survRep | .survMean | .survDrt | .survRtA
  | .survSplit | .survT1 | .survT1Bad | .survApply | .treSeq | .gthStart | .gthStop | .gthBankT | .gthBankOld => .core
  | .lastInRotation | .pwipeAt => .engine
  | .chkStage | .rtTracked | .linkDownAt | .laneOwner | .modeWait | .txWord | .txGbx | .slipBits | .eyeAt
  | .offerRate | .offerCnt | .twinRate | .modAwait | .modRead | .effBrdTx | .effBrdRx | .effModTx | .effModRx
  | .linkGap | .loopTx | .loopRx | .loopHave | .calTemp => .lane
  | .wN1 | .wN2 | .wOvrAt | .wRun | .wRunLen | .wRunSeq => .weigh

end Sys2Proof.Machine
end

