-- ==== Sys2Proof/Machine/RegMap.lean ====
section
/-! DEFINITION. The register map: the groups' places in BAR0 (Table 17.4 and the placement sentence of each register
set) and, for every field, its word offset, bits, access type, reset value and survival code, as its register table
gives them. Generated from the tables of the manual. -/

namespace Sys2Proof.Machine

/-- Where a group of instances lies: its block, the address of its first instance, and the count and stride of each
array dimension, outermost first. -/
structure GrpInfo where
  blk : Blk
  base : Nat
  dims : List (Nat × Nat)
  deriving DecidableEq, Repr

/-- The placement of each group. -/
def Grp.info : Grp → GrpInfo
  | .GLB => ⟨.glb, 0x0, []⟩
  | .DMA => ⟨.glb, 0x1000, [(16, 0x40)]⟩
  | .CRI => ⟨.cri, 0x100000, []⟩
  | .CRIPORT => ⟨.cri, 0x100100, [(72, 0x10)]⟩
  | .CRIVEC => ⟨.cri, 0x100800, [(64, 0x4)]⟩
  | .CRIFOLD => ⟨.cri, 0x100040, [(32, 0x4)]⟩
  | .CRIVMAP => ⟨.cri, 0x100600, [(32, 0x4)]⟩
  | .CRIPVMAP => ⟨.cri, 0x100680, [(18, 0x4)]⟩
  | .BELL => ⟨.bell, 0x200000, []⟩
  | .BELLREP => ⟨.bell, 0x200400, [(90, 0x4)]⟩
  | .SEL => ⟨.sel, 0x300000, []⟩
  | .SLOT => ⟨.sel, 0x300400, [(16, 0x40)]⟩
  | .SLOTY => ⟨.sel, 0x30041C, [(16, 0x40), (3, 0x4)]⟩
  | .TOUT => ⟨.sel, 0x300800, [(8, 0x40)]⟩
  | .PPS => ⟨.sel, 0x300A00, [(2, 0x10)]⟩
  | .ECAP => ⟨.sel, 0x300C00, [(8, 0x40)]⟩
  | .STAMP => ⟨.stamp, 0x400000, []⟩
  | .DOM => ⟨.stamp, 0x400100, [(8, 0x10)]⟩
  | .OBS => ⟨.stamp, 0x400200, [(4, 0x40)]⟩
  | .SPORT => ⟨.stamp, 0x401000, [(72, 0x40)]⟩
  | .LANE => ⟨.lane, 0x800000, [(74, 0x4000)]⟩
  | .QUAD => ⟨.quad, 0xD00000, [(16, 0x1000)]⟩
  | .MOD => ⟨.mod, 0xE00000, [(8, 0x1000)]⟩
  | .MODBUF => ⟨.mod, 0xE00100, [(8, 0x1000), (32, 0x4)]⟩
  | .SURV => ⟨.surv, 0xF00000, []⟩
  | .SURVLAM => ⟨.surv, 0xF00010, [(4, 0x4)]⟩
  | .PORT => ⟨.port, 0x1000000, [(72, 0x10000)]⟩
  | .PORTSTA => ⟨.port, 0x1000010, [(72, 0x10000), (8, 0x8)]⟩
  | .PORTXOFF => ⟨.port, 0x1000060, [(72, 0x10000), (8, 0x4)]⟩
  | .PORTSTAT => ⟨.port, 0x1000200, [(72, 0x10000)]⟩
  | .PORTPFCRX => ⟨.port, 0x1000290, [(72, 0x10000), (8, 0x8)]⟩
  | .PAIR => ⟨.core, 0x2000000, [(8, 0x100)]⟩
  | .CELLAIN => ⟨.core, 0x2100000, [(96, 0x400), (24, 0x4)]⟩
  | .CELLAEG => ⟨.core, 0x2100080, [(96, 0x400), (24, 0x4)]⟩
  | .CELLBIN => ⟨.core, 0x2100100, [(96, 0x400), (24, 0x4)]⟩
  | .CELLBEG => ⟨.core, 0x2100180, [(96, 0x400), (24, 0x4)]⟩
  | .LKPTBL => ⟨.core, 0x2200000, [(64, 0x10)]⟩
  | .LKPCMD => ⟨.core, 0x2210000, [(2, 0x1000)]⟩
  | .MCG => ⟨.core, 0x2300000, [(65536, 0x10)]⟩
  | .QUEUE => ⟨.core, 0x2400000, [(72, 0x100), (8, 0x10)]⟩
  | .GATE => ⟨.core, 0x2800000, [(72, 0x2000)]⟩
  | .GATEADM => ⟨.core, 0x2801000, [(72, 0x2000), (256, 0x8)]⟩
  | .GATEOPER => ⟨.core, 0x2801800, [(72, 0x2000), (256, 0x8)]⟩
  | .POOL => ⟨.pool, 0x3000000, []⟩
  | .POOLSTAT => ⟨.pool, 0x3000040, [(4, 0x20)]⟩
  | .OWN => ⟨.pool, 0x3001000, [(90, 0x40), (4, 0x10)]⟩
  | .SPILL => ⟨.pool, 0x3010000, [(72, 0x100), (8, 0x20)]⟩
  | .CEL => ⟨.cel, 0x8000000, []⟩
  | .STACK => ⟨.cel, 0x8000100, [(4, 0x40)]⟩
  | .ENG => ⟨.eng, 0x4000000, [(16, 0x100000)]⟩
  | .THR => ⟨.eng, 0x4000100, [(16, 0x100000), (8, 0x40)]⟩
  | .EQ => ⟨.eng, 0x4001000, [(16, 0x100000), (64, 0x10)]⟩
  | .HATCH => ⟨.eng, 0x4002000, [(16, 0x100000), (16, 0x20)]⟩
  | .CWIN => ⟨.eng, 0x4003000, [(16, 0x100000), (8, 0x10)]⟩
  | .PATTR => ⟨.eng, 0x4005000, [(16, 0x100000), (1024, 0x4)]⟩
  | .GTH => ⟨.gth, 0x5000000, [(2, 0x100000)]⟩
  | .GTHENG => ⟨.gth, 0x5000100, [(2, 0x100000), (8, 0x10)]⟩
  | .GRP => ⟨.gth, 0x5010000, [(2, 0x100000), (256, 0x80)]⟩
  | .GCNT => ⟨.gth, 0x5020000, [(2, 0x100000), (256, 0x40)]⟩
  | .TAL => ⟨.tal, 0x6000000, []⟩
  | .CTR => ⟨.tal, 0x6000000, [(512, 0x20)]⟩
  | .SAMP => ⟨.tal, 0x600A000, [(16, 0x40)]⟩
  | .REE => ⟨.ree, 0x7000000, []⟩
  | .MBOX => ⟨.ree, 0x7000100, [(2, 0x100)]⟩
  | .TEMP => ⟨.ree, 0x7000800, [(24, 0x4)]⟩
  | .VOLT => ⟨.ree, 0x7000860, [(16, 0x4)]⟩
  | .PROC => ⟨.ree, 0x70008A0, [(8, 0x4)]⟩
  | .AGE => ⟨.ree, 0x70008C0, [(8, 0x4)]⟩
  | .LEDRING => ⟨.ree, 0x7010000, [(8192, 0x20)]⟩
  | .WGH => ⟨.wgh, 0x7800000, []⟩
  | .WGHDLY => ⟨.wgh, 0x7800110, [(4, 0x4)]⟩
  | .WGHTHR => ⟨.wgh, 0x7800120, [(4, 0x4)]⟩
  | .WSLOT => ⟨.wgh, 0x7800200, [(4, 0x20)]⟩
  | .WREC => ⟨.wgh, 0x7810000, [(256, 0x100)]⟩
  | .WLOG => ⟨.wgh, 0x7820000, [(1024, 0x20)]⟩
  | .HRT => ⟨.hrt, 0x7C00000, []⟩
  | .LIFEH => ⟨.hrt, 0x7C00100, [(6, 0x4)]⟩
  | .TWN => ⟨.twn, 0x7E00000, []⟩
  | .TWNASYM => ⟨.twn, 0x7E00028, [(2, 0x4)]⟩
  | .WATCH => ⟨.twn, 0x7E00200, [(8, 0x10)]⟩
  | .STRM => ⟨.twn, 0x7E01000, [(256, 0x10)]⟩
  | .SCNT => ⟨.twn, 0x7E02000, [(256, 0x10)]⟩

/-- One row of a register table. `off` is the offset of the field's first word inside its instance, `lsb` the field's
lowest bit counted from bit 0 of that word, `vw` the number of words of the multi-word value it belongs to (R10, R11;
1 for a field that stands alone and for a field wider than 96 bits, R562). -/
structure Desc where
  grp : Grp
  off : Nat
  lsb : Nat
  width : Nat
  acc : Acc
  reset : Nat
  surv : Surv
  /-- words of the multi-word value -/
  vw : Nat := 1
  /-- held in NVM or OTP (R16) -/
  nvm : Bool := false
  /-- a commit shadow (R99) -/
  shadow : Bool := false
  deriving DecidableEq, Repr

/-- Rows of the GLB block: GLB, Tables 15.3, 15.9, 17.5-17.8. -/
def GlbF.desc : GlbF → Desc
  | .CLK_EN_QUAD => { grp := .GLB, off := 0x40, lsb := 0, width := 16, acc := .RW, reset := 0, surv := .W, vw := 2 }
  | .CLK_EN_SPUR => { grp := .GLB, off := 0x40, lsb := 16, width := 1, acc := .RW, reset := 0, surv := .W, vw := 2 }
  | .CLK_EN_TWIN => { grp := .GLB, off := 0x40, lsb := 17, width := 1, acc := .RW, reset := 0, surv := .W, vw := 2 }
  | .CLK_EN_STAMP => { grp := .GLB, off := 0x40, lsb := 18, width := 1, acc := .RW, reset := 0, surv := .W, vw := 2 }
  | .CLK_EN_TAL => { grp := .GLB, off := 0x40, lsb := 19, width := 1, acc := .RW, reset := 0, surv := .W, vw := 2 }
  | .CLK_EN_MOD => { grp := .GLB, off := 0x40, lsb := 20, width := 8, acc := .RW, reset := 0, surv := .W, vw := 2 }
  | .CLK_EN_GTH => { grp := .GLB, off := 0x40, lsb := 28, width := 2, acc := .RW, reset := 0, surv := .W, vw := 2 }
  | .CLK_EN_SURV => { grp := .GLB, off := 0x40, lsb := 30, width := 1, acc := .RW, reset := 0, surv := .W, vw := 2 }
  | .CLK_EN_CEL => { grp := .GLB, off := 0x40, lsb := 32, width := 4, acc := .RW, reset := 0, surv := .W, vw := 2 }
  | .CLK_EN_REFUSED => { grp := .GLB, off := 0x40, lsb := 63, width := 1, acc := .W1C, reset := 0, surv := .N, vw := 2 }
  | .FRESET_LOC => ⟨.GLB, 0x48, 0, 32, .WO, 0, .N, 1, false, false⟩
  | .ID => { grp := .GLB, off := 0x0, lsb := 0, width := 32, acc := .RO, reset := 0x4A540048, surv := .H, nvm := true }
  | .VARIANT => { grp := .GLB, off := 0x4, lsb := 0, width := 2, acc := .RO, reset := 0, surv := .H, nvm := true }
  | .VARIANT_STEP => { grp := .GLB, off := 0x4, lsb := 8, width := 4, acc := .RO, reset := 0, surv := .H, nvm := true }
  | .VARIANT_HSTEP => { grp := .GLB, off := 0x4, lsb := 12, width := 4, acc := .RO, reset := 0, surv := .H, nvm := true }
  | .QUADS => { grp := .GLB, off := 0x8, lsb := 0, width := 16, acc := .RO, reset := 0, surv := .H, nvm := true }
  | .ENGINES => { grp := .GLB, off := 0x8, lsb := 16, width := 16, acc := .RO, reset := 0, surv := .H, nvm := true }
  | .STACKS => { grp := .GLB, off := 0xC, lsb := 0, width := 4, acc := .RO, reset := 0, surv := .H, nvm := true }
  | .SPURS => { grp := .GLB, off := 0xC, lsb := 4, width := 8, acc := .RO, reset := 0xFF, surv := .H, nvm := true }
  | .TWINS => { grp := .GLB, off := 0xC, lsb := 12, width := 2, acc := .RO, reset := 3, surv := .H, nvm := true }
  | .WEIGH => { grp := .GLB, off := 0xC, lsb := 14, width := 1, acc := .RO, reset := 1, surv := .H, nvm := true }
  | .DEVICE_UID => { grp := .GLB, off := 0x10, lsb := 0, width := 128, acc := .RO, reset := 0, surv := .H, nvm := true }
  | .PCI_SPEED => { grp := .GLB, off := 0x20, lsb := 0, width := 3, acc := .RO, reset := 0, surv := .N, nvm := true }
  | .PCI_WIDTH => { grp := .GLB, off := 0x20, lsb := 3, width := 4, acc := .RO, reset := 0, surv := .N, nvm := true }
  | .PCI_LINK_RESETS => { grp := .GLB, off := 0x20, lsb := 16, width := 16, acc := .RC, reset := 0, surv := .W, nvm := true }
  | .JTAG_HELD => { grp := .GLB, off := 0x28, lsb := 0, width := 16, acc := .RC, reset := 0, surv := .W, nvm := true }
  | .RESET_WARM => ⟨.GLB, 0x50, 0, 1, .WO, 0, .N, 1, false, false⟩
  | .RESET_KEY => ⟨.GLB, 0x50, 16, 16, .WO, 0, .N, 1, false, false⟩
  | .RESET_ST_KEY_ERR => ⟨.GLB, 0x54, 0, 8, .RC, 0, .W, 1, false, false⟩
  | .MODE_TARGET => { grp := .GLB, off := 0x60, lsb := 0, width := 3, acc := .RW, reset := 1, surv := .W, shadow := true }
  | .MODE_ROLE => ⟨.GLB, 0x60, 4, 2, .RO, 2, .W, 1, false, false⟩
  | .MODE => ⟨.GLB, 0x60, 8, 3, .RO, 0, .N, 1, false, false⟩
  | .COMMIT_CTL_OP => ⟨.GLB, 0x100, 0, 2, .WO, 0, .N, 1, false, false⟩
  | .COMMIT_CTL_GEN => ⟨.GLB, 0x100, 16, 16, .WO, 0, .N, 1, false, false⟩
  | .COMMIT_T => { grp := .GLB, off := 0x108, lsb := 0, width := 96, acc := .RW, reset := 0, surv := .W, vw := 3 }
  | .COMMIT_GRACE => ⟨.GLB, 0x114, 0, 20, .RW, 0x3E8, .W, 1, false, false⟩
  | .COMMIT_STATE => ⟨.GLB, 0x118, 0, 2, .RO, 0, .W, 1, false, false⟩
  | .COMMIT_STATE_SHADOW_REFUSED => ⟨.GLB, 0x118, 8, 1, .W1C, 0, .N, 1, false, false⟩
  | .COMMIT_STATE_CFG_REFUSED => ⟨.GLB, 0x118, 9, 1, .W1C, 0, .N, 1, false, false⟩
  | .INT_MERGED => ⟨.GLB, 0x118, 12, 4, .RC, 0, .N, 1, false, false⟩
  | .DEV_GEN => ⟨.GLB, 0x118, 16, 16, .RO, 0, .W, 1, false, false⟩
  | .COMMIT_PEND => ⟨.GLB, 0x120, 0, 256, .W1C, 0, .W, 1, false, false⟩
  | .COMMIT_PART => ⟨.GLB, 0x140, 0, 256, .RO, 0, .W, 1, false, false⟩
  | .COMMIT_VEC => ⟨.GLB, 0x160, 0, 256, .RO, 0, .W, 1, false, false⟩
  | .COMMIT_LATE => ⟨.GLB, 0x180, 0, 256, .RO, 0, .W, 1, false, false⟩
  | .COMMIT_SPLIT => ⟨.GLB, 0x1A0, 0, 256, .RO, 0, .W, 1, false, false⟩
  | .COMMIT_MARK => ⟨.GLB, 0x1C0, 0, 256, .WO, 0, .N, 1, false, false⟩
  | .DMA_CFG_RX_EN => ⟨.DMA, 0x0, 0, 1, .RW, 0, .F, 1, false, false⟩
  | .DMA_CFG_TX_EN => ⟨.DMA, 0x0, 1, 1, .RW, 0, .F, 1, false, false⟩
  | .DMA_CFG_RX_SIZE_LOG => ⟨.DMA, 0x0, 4, 4, .RW, 0xA, .F, 1, false, false⟩
  | .DMA_CFG_TX_SIZE_LOG => ⟨.DMA, 0x0, 8, 4, .RW, 0xA, .F, 1, false, false⟩
  | .DMA_CFG_WEIGHT => ⟨.DMA, 0x0, 16, 8, .RW, 1, .F, 1, false, false⟩
  | .DMA_CFG_REFUSED => ⟨.DMA, 0x0, 31, 1, .W1C, 0, .N, 1, false, false⟩
  | .DMA_RX_BASE => { grp := .DMA, off := 0x8, lsb := 0, width := 64, acc := .RW, reset := 0, surv := .F, vw := 2 }
  | .DMA_TX_BASE => { grp := .DMA, off := 0x10, lsb := 0, width := 64, acc := .RW, reset := 0, surv := .F, vw := 2 }
  | .DMA_RXHT_HEAD => ⟨.DMA, 0x18, 0, 14, .RO, 0, .N, 1, false, false⟩
  | .DMA_RXHT_TAIL => ⟨.DMA, 0x18, 16, 14, .RW, 0, .N, 1, false, false⟩
  | .DMA_TXHT_HEAD => ⟨.DMA, 0x1C, 0, 14, .RO, 0, .N, 1, false, false⟩
  | .DMA_TXHT_TAIL => ⟨.DMA, 0x1C, 16, 14, .RW, 0, .N, 1, false, false⟩
  | .DMA_RXDROP => ⟨.DMA, 0x20, 0, 32, .RC, 0, .N, 1, false, false⟩

/-- Rows of the CRI block: Crier, Table 16.8. -/
def CriF.desc : CriF → Desc
  | .LIVE => ⟨.CRI, 0x0, 0, 128, .RO, 0, .N, 1, false, false⟩
  | .LATCH => ⟨.CRI, 0x10, 0, 128, .W1C, 0, .N, 1, false, false⟩
  | .EN => ⟨.CRI, 0x20, 0, 128, .RW, 0xFFFFFFFFFFFFFFFFFFFFFFFFFFFFFFFF, .W, 1, false, false⟩
  | .MASK => ⟨.CRI, 0x30, 0, 128, .RW, 0xFFFFFFFFFFFFFFFFFFFFFFFFFFFFFFFF, .W, 1, false, false⟩
  | .FOLD => ⟨.CRIFOLD, 0x0, 0, 32, .RC, 0, .N, 1, false, false⟩
  | .PORT_LIVE => ⟨.CRIPORT, 0x0, 0, 24, .RO, 0, .N, 1, false, false⟩
  | .PORT_LATCH => ⟨.CRIPORT, 0x4, 0, 24, .W1C, 0, .N, 1, false, false⟩
  | .PORT_EN => ⟨.CRIPORT, 0x8, 0, 24, .RW, 0xFFFFFF, .W, 1, false, false⟩
  | .PORT_MASK => ⟨.CRIPORT, 0xC, 0, 24, .RW, 0xFFFFFF, .W, 1, false, false⟩
  | .VMAP => ⟨.CRIVMAP, 0x0, 0, 30, .RW, 0, .W, 1, false, false⟩
  | .PVMAP => ⟨.CRIPVMAP, 0x0, 0, 30, .RW, 0, .W, 1, false, false⟩
  | .VEC_PEND => ⟨.CRIVEC, 0x0, 0, 1, .RO, 0, .N, 1, false, false⟩
  | .VEC_REARM => ⟨.CRIVEC, 0x0, 1, 1, .W1S, 0, .N, 1, false, false⟩
  | .VEC_HOLD => ⟨.CRIVEC, 0x0, 16, 10, .RW, 0, .W, 1, false, false⟩
  | .PIN_VEC => { grp := .CRI, off := 0x900, lsb := 0, width := 64, acc := .RW, reset := 0xFFFFFFFFFFFFFFFF, surv := .W, vw := 2 }
  | .PSUM => { grp := .CRI, off := 0x910, lsb := 0, width := 72, acc := .RO, reset := 0, surv := .N, vw := 3 }
  | .RING_EN => ⟨.CRI, 0xA00, 0, 1, .RW, 0, .W, 1, false, false⟩
  | .RING_SIZE => ⟨.CRI, 0xA00, 1, 5, .RW, 0xA, .W, 1, false, false⟩
  | .RING_CFG_REFUSED => ⟨.CRI, 0xA00, 31, 1, .W1C, 0, .N, 1, false, false⟩
  | .RING_RBASE => { grp := .CRI, off := 0xA08, lsb := 0, width := 64, acc := .RW, reset := 0, surv := .W, vw := 2 }
  | .RING_HEAD => ⟨.CRI, 0xA10, 0, 16, .RO, 0, .N, 1, false, false⟩
  | .RING_TAIL => ⟨.CRI, 0xA14, 0, 16, .RW, 0, .N, 1, false, false⟩
  | .RING_LOST => ⟨.CRI, 0xA18, 0, 16, .RC, 0, .N, 1, false, false⟩
  | .RFIFO_LOST => ⟨.CRI, 0xA18, 16, 16, .RC, 0, .N, 1, false, false⟩
  | .RFIFO => ⟨.CRI, 0xB00, 0, 256, .RO, 0, .N, 1, false, false⟩

/-- Rows of the BELL block: Bell Tower, Tables 3.7-3.13. -/
def BellF.desc : BellF → Desc
  | .CTL_SERVO_ENG => ⟨.BELL, 0x0, 0, 4, .RW, 0, .W, 1, false, false⟩
  | .CTL_CYCLE => ⟨.BELL, 0x0, 4, 3, .RW, 4, .W, 1, false, false⟩
  | .CTL_DL => ⟨.BELL, 0x0, 8, 3, .RW, 4, .W, 1, false, false⟩
  | .CTL_SERVO_SRC => { grp := .BELL, off := 0x0, lsb := 12, width := 1, acc := .RW, reset := 0, surv := .W, shadow := true }
  | .CTL_CFG_REFUSED => ⟨.BELL, 0x0, 31, 1, .W1C, 0, .N, 1, false, false⟩
  | .STATUS_STEPPED => ⟨.BELL, 0x4, 0, 1, .RO, 0, .N, 1, false, false⟩
  | .STATUS_STEPPING => ⟨.BELL, 0x4, 1, 1, .RO, 0, .N, 1, false, false⟩
  | .STATUS_SRC_APPLIED => ⟨.BELL, 0x4, 2, 1, .RO, 0, .N, 1, false, false⟩
  | .STATUS_NCO_SRC => ⟨.BELL, 0x4, 3, 2, .RO, 3, .N, 1, false, false⟩
  | .STATUS_JSTATE => ⟨.BELL, 0x4, 5, 2, .RO, 0, .N, 1, false, false⟩
  | .STATUS_MISS_CNT => ⟨.BELL, 0x4, 8, 2, .RO, 0, .N, 1, false, false⟩
  | .STATUS_FREQ_CLAMPED => ⟨.BELL, 0x4, 10, 1, .W1C, 0, .N, 1, false, false⟩
  | .STATUS_STEP_REFUSED => ⟨.BELL, 0x4, 11, 1, .W1C, 0, .N, 1, false, false⟩
  | .STATUS_AUTH_REFUSED => ⟨.BELL, 0x4, 12, 1, .W1C, 0, .N, 1, false, false⟩
  | .STATUS_GATE_CAUTION => ⟨.BELL, 0x4, 13, 1, .RO, 0, .N, 1, false, false⟩
  | .NOW => { grp := .BELL, off := 0x10, lsb := 0, width := 96, acc := .RO, reset := 0, surv := .N, vw := 3 }
  | .FREQ_NOW => { grp := .BELL, off := 0x20, lsb := 0, width := 48, acc := .RO, reset := 0, surv := .N, vw := 2 }
  | .FW_UPD_FREQ => { grp := .BELL, off := 0x28, lsb := 0, width := 48, acc := .WO, reset := 0, surv := .N, vw := 2 }
  | .FW_UPD_SEQ => { grp := .BELL, off := 0x28, lsb := 48, width := 16, acc := .WO, reset := 0, surv := .N, vw := 2 }
  | .CYCLE_NUM => ⟨.BELL, 0x30, 0, 32, .RO, 0, .N, 1, false, false⟩
  | .SERVO_CNT_SEQ_ERR => ⟨.BELL, 0x34, 0, 16, .RC, 0, .N, 1, false, false⟩
  | .SERVO_CNT_LATE_UPD => ⟨.BELL, 0x34, 16, 16, .RC, 0, .N, 1, false, false⟩
  | .STEP_CTL_REQ => ⟨.BELL, 0x40, 0, 1, .WO, 0, .N, 1, false, false⟩
  | .STEP_CTL_KIND => ⟨.BELL, 0x40, 1, 1, .RW, 0, .W, 1, false, false⟩
  | .STEP_OFS => { grp := .BELL, off := 0x48, lsb := 0, width := 64, acc := .RW, reset := 0, surv := .W, vw := 2 }
  | .STEP_TIME => { grp := .BELL, off := 0x50, lsb := 0, width := 96, acc := .RW, reset := 0, surv := .W, vw := 3 }
  | .STEP_T => { grp := .BELL, off := 0x60, lsb := 0, width := 96, acc := .RW, reset := 0, surv := .W, vw := 3 }
  | .STEP_LAST_SUB => ⟨.BELL, 0x6C, 0, 10, .RO, 0, .N, 1, false, false⟩
  | .STEP_LAST_GEN => ⟨.BELL, 0x6C, 16, 16, .RO, 0, .N, 1, false, false⟩
  | .STEP_AUTH_GEN => ⟨.BELL, 0x90, 0, 16, .WO, 0, .N, 1, false, false⟩
  | .JUMP_CFG_THR => ⟨.BELL, 0x80, 0, 20, .RW, 0x64, .W, 1, false, false⟩
  | .JUMP_CFG_PERSIST => ⟨.BELL, 0x80, 20, 12, .RW, 0x1E, .W, 1, false, false⟩
  | .JUMP_GEN => ⟨.BELL, 0x84, 0, 16, .RO, 0, .N, 1, false, false⟩
  | .CLEAR_CNT => ⟨.BELL, 0x84, 16, 4, .RO, 0, .N, 1, false, false⟩
  | .JUMP_OFS => { grp := .BELL, off := 0x88, lsb := 0, width := 64, acc := .RO, reset := 0, surv := .N, vw := 2 }
  | .HWS_KP => ⟨.BELL, 0xA0, 0, 32, .RW, 0x4000, .W, 1, false, false⟩
  | .HWS_KI => ⟨.BELL, 0xA4, 0, 32, .RW, 0x100, .W, 1, false, false⟩
  | .HWS_I => { grp := .BELL, off := 0xA8, lsb := 0, width := 48, acc := .RO, reset := 0, surv := .N, vw := 2 }
  | .GATE_ACC => ⟨.BELL, 0xB0, 0, 32, .RC, 0, .N, 1, false, false⟩
  | .GATE_REF => ⟨.BELL, 0xB4, 0, 32, .RC, 0, .N, 1, false, false⟩
  | .GATE_DISC => ⟨.BELL, 0xB8, 0, 32, .RC, 0, .N, 1, false, false⟩
  | .GATE_OVR => ⟨.BELL, 0xBC, 0, 32, .RC, 0, .N, 1, false, false⟩
  | .RING_BASE => ⟨.BELL, 0xC0, 13, 9, .RW, 0, .W, 1, false, false⟩
  | .LEAP_UTC_OFS => ⟨.BELL, 0xD0, 0, 16, .RW, 0, .H, 1, false, false⟩
  | .LEAP61 => ⟨.BELL, 0xD0, 16, 1, .RW, 0, .H, 1, false, false⟩
  | .LEAP59 => ⟨.BELL, 0xD0, 17, 1, .RW, 0, .H, 1, false, false⟩
  | .LEAP_UTC_VALID => ⟨.BELL, 0xD0, 18, 1, .RW, 0, .H, 1, false, false⟩
  | .LEAP_TIME_TRACEABLE => ⟨.BELL, 0xD0, 19, 1, .RW, 0, .H, 1, false, false⟩
  | .LEAP_FREQ_TRACEABLE => ⟨.BELL, 0xD0, 20, 1, .RW, 0, .H, 1, false, false⟩
  | .LEAP_TIME_SOURCE => ⟨.BELL, 0xD0, 24, 8, .RW, 0xA0, .H, 1, false, false⟩
  | .LEAP_AT_SEC => { grp := .BELL, off := 0xD8, lsb := 0, width := 48, acc := .RW, reset := 0, surv := .H, vw := 2 }
  | .MEAS_OFS => { grp := .BELL, off := 0x100, lsb := 0, width := 64, acc := .WO, reset := 0, surv := .N, vw := 2 }
  | .MEAS_AT => { grp := .BELL, off := 0x108, lsb := 0, width := 96, acc := .WO, reset := 0, surv := .N, vw := 3 }
  | .MEAS_SRC => ⟨.BELL, 0x114, 0, 8, .WO, 0, .N, 1, false, false⟩
  | .REP_DLY => ⟨.BELLREP, 0x0, 0, 24, .RO, 0, .N, 1, false, false⟩
  | .REP_VALID => ⟨.BELLREP, 0x0, 30, 1, .RO, 0, .N, 1, false, false⟩
  | .REP_FAULT => ⟨.BELLREP, 0x0, 31, 1, .W1C, 0, .N, 1, false, false⟩

/-- Rows of the SEL block: selector, holdover, PLLs, outputs and captures, Tables 5.9-5.15. -/
def SelF.desc : SelF → Desc
  | .CTL_REVERTIVE => { grp := .SEL, off := 0x0, lsb := 0, width := 1, acc := .RW, reset := 0, surv := .W, shadow := true }
  | .CTL_QL_OPT => { grp := .SEL, off := 0x0, lsb := 1, width := 1, acc := .RW, reset := 0, surv := .W, shadow := true }
  | .CTL_FORCE_EN => ⟨.SEL, 0x0, 2, 1, .RW, 0, .W, 1, false, false⟩
  | .CTL_FORCE_SLOT => ⟨.SEL, 0x0, 4, 4, .RW, 0, .W, 1, false, false⟩
  | .CTL_CFG_REFUSED => ⟨.SEL, 0x0, 31, 1, .W1C, 0, .N, 1, false, false⟩
  | .AGREE => { grp := .SEL, off := 0x4, lsb := 0, width := 32, acc := .RW, reset := 0x3E8, surv := .W, shadow := true }
  | .TIMES_WTR => ⟨.SEL, 0x8, 0, 16, .RW, 0x258, .W, 1, false, false⟩
  | .TIMES_GUARD => ⟨.SEL, 0x8, 16, 16, .RW, 0x258, .W, 1, false, false⟩
  | .TIMES2_GUARD_SHORT => ⟨.SEL, 0xC, 0, 8, .RW, 0xA, .W, 1, false, false⟩
  | .TIMES2_LOCK_CYC => ⟨.SEL, 0xC, 8, 8, .RW, 0x10, .W, 1, false, false⟩
  | .TIMES2_LOCK_THR => ⟨.SEL, 0xC, 16, 10, .RW, 0xA, .W, 1, false, false⟩
  | .STATUS_STATE => ⟨.SEL, 0x10, 0, 3, .RO, 0, .N, 1, false, false⟩
  | .STATUS_ACTIVE => ⟨.SEL, 0x10, 4, 4, .RO, 0, .N, 1, false, false⟩
  | .STATUS_SELECTED => ⟨.SEL, 0x10, 8, 1, .RO, 0, .N, 1, false, false⟩
  | .STATUS_CONFLICT => ⟨.SEL, 0x10, 9, 1, .RO, 0, .N, 1, false, false⟩
  | .STATUS_FORCED => ⟨.SEL, 0x10, 10, 1, .RO, 0, .N, 1, false, false⟩
  | .STATUS_SWITCH_CNT => ⟨.SEL, 0x10, 16, 16, .RC, 0, .N, 1, false, false⟩
  | .ESMC_TX_EN => { grp := .SEL, off := 0x20, lsb := 0, width := 72, acc := .RW, reset := 0, surv := .W, vw := 3 }
  | .ESMC_HOLD_QL => ⟨.SEL, 0x30, 0, 6, .RW, 0xB, .W, 1, false, false⟩
  | .SLOT_CFG_ENABLE => ⟨.SLOT, 0x0, 0, 1, .RW, 0, .W, 1, false, false⟩
  | .SLOT_CFG_SRC => ⟨.SLOT, 0x0, 1, 7, .RW, 0, .W, 1, false, false⟩
  | .SLOT_CFG_PRIO => ⟨.SLOT, 0x0, 8, 4, .RW, 0xF, .W, 1, false, false⟩
  | .SLOT_CFG_USE_FOLLOW => ⟨.SLOT, 0x0, 12, 1, .RW, 0, .W, 1, false, false⟩
  | .SLOT_CFG_USE_LEAD => ⟨.SLOT, 0x0, 13, 1, .RW, 0, .W, 1, false, false⟩
  | .SLOT_CFG_QOVR_EN => ⟨.SLOT, 0x0, 14, 1, .RW, 0, .W, 1, false, false⟩
  | .SLOT_CFG_QOVR => ⟨.SLOT, 0x0, 16, 4, .RW, 0xF, .W, 1, false, false⟩
  | .SLOT_CFG_LOCKOUT => ⟨.SLOT, 0x0, 20, 1, .RW, 0, .W, 1, false, false⟩
  | .SLOT_CFG_SCALE => ⟨.SLOT, 0x0, 21, 2, .RW, 0, .W, 1, false, false⟩
  | .SLOT_CFG_ACC_MAX => ⟨.SLOT, 0x0, 24, 8, .RW, 0xFE, .W, 1, false, false⟩
  | .SLOT_RDIV => ⟨.SLOT, 0x4, 0, 24, .RW, 1, .W, 1, false, false⟩
  | .SLOT_FNOM => ⟨.SLOT, 0x8, 0, 30, .RW, 0, .W, 1, false, false⟩
  | .SLOT_SOFT => ⟨.SLOT, 0xC, 0, 32, .RW, 0x1E8480, .W, 1, false, false⟩
  | .SLOT_HARD => ⟨.SLOT, 0x10, 0, 32, .RW, 0x4630C0, .W, 1, false, false⟩
  | .SLOT_DRIFT => ⟨.SLOT, 0x14, 0, 32, .RW, 0x64, .W, 1, false, false⟩
  | .SLOT_STAT_SSTATE => ⟨.SLOT, 0x18, 0, 3, .RO, 0, .N, 1, false, false⟩
  | .SLOT_STAT_CAUSE => ⟨.SLOT, 0x18, 4, 3, .RO, 0, .N, 1, false, false⟩
  | .SLOT_STAT_QRANK => ⟨.SLOT, 0x18, 8, 4, .RO, 0xF, .N, 1, false, false⟩
  | .SLOT_STAT_RX_QL => ⟨.SLOT, 0x18, 12, 6, .RO, 0, .N, 1, false, false⟩
  | .SLOT_STAT_WV => ⟨.SLOT, 0x18, 18, 3, .RO, 0, .N, 1, false, false⟩
  | .SLOT_STAT_DRATE_V => ⟨.SLOT, 0x18, 21, 1, .RO, 0, .N, 1, false, false⟩
  | .SLOT_STAT_SOFT_HIT => ⟨.SLOT, 0x18, 24, 1, .W1C, 0, .N, 1, false, false⟩
  | .SLOT_STAT_OUTVOTED => ⟨.SLOT, 0x18, 25, 1, .RO, 0, .N, 1, false, false⟩
  | .SLOT_Y => ⟨.SLOTY, 0x0, 0, 32, .RO, 0, .N, 1, false, false⟩
  | .SLOT_DRATE => ⟨.SLOT, 0x28, 0, 32, .RO, 0, .N, 1, false, false⟩
  | .SLOT_WTR_LEFT => ⟨.SLOT, 0x2C, 0, 16, .RO, 0, .N, 1, false, false⟩
  | .SLOT_SRC_ID => ⟨.SLOT, 0x2C, 16, 8, .RW, 0, .W, 1, false, false⟩
  | .SLOT_PHASE => { grp := .SLOT, off := 0x30, lsb := 0, width := 64, acc := .RO, reset := 0, surv := .N, vw := 2 }
  | .HOLD_CFG_OSC_MODE => ⟨.SEL, 0x80, 0, 1, .RW, 0, .H, 1, false, false⟩
  | .HOLD_CFG_TSENS => ⟨.SEL, 0x80, 1, 5, .RW, 0, .H, 1, false, false⟩
  | .HOLD_CFG_AGE_FIT => ⟨.SEL, 0x80, 6, 1, .RW, 1, .H, 1, false, false⟩
  | .HOLD_CFG_HIST_MIN => ⟨.SEL, 0x80, 16, 16, .RW, 0x258, .H, 1, false, false⟩
  | .HOLD_LIM_TE_MAX => ⟨.SEL, 0x84, 0, 16, .RW, 0x3E8, .H, 1, false, false⟩
  | .HOLD_LIM_T_MAX => ⟨.SEL, 0x84, 16, 16, .RW, 0x18, .H, 1, false, false⟩
  | .HOLD_TC => ⟨.SEL, 0x88, 0, 16, .RWL, 0, .H, 1, false, false⟩
  | .HOLD_TC_U => ⟨.SEL, 0x88, 16, 16, .RWL, 0x3E8, .H, 1, false, false⟩
  | .HOLD_AGE => ⟨.SEL, 0x8C, 0, 32, .RWL, 0, .H, 1, false, false⟩
  | .HOLD_DAC_K => ⟨.SEL, 0x90, 0, 24, .RWL, 0xD6, .H, 1, false, false⟩
  | .HOLD_DAC_CODE => ⟨.SEL, 0x94, 0, 20, .RW, 0x80000, .H, 1, false, false⟩
  | .HOLD_DAC_XFER => ⟨.SEL, 0x98, 0, 32, .RO, 0, .W, 1, false, false⟩
  | .HOLD_STAT_HIST_VALID => ⟨.SEL, 0xA0, 0, 1, .RO, 0, .H, 1, false, false⟩
  | .HOLD_STAT_EXPIRED => ⟨.SEL, 0xA0, 1, 1, .RO, 0, .H, 1, false, false⟩
  | .HOLD_STAT_AGE_FITTED => ⟨.SEL, 0xA0, 2, 1, .RO, 0, .H, 1, false, false⟩
  | .HOLD_HIST_S => ⟨.SEL, 0xA4, 0, 32, .RO, 0, .H, 1, false, false⟩
  | .HOLD_Y0 => { grp := .SEL, off := 0xA8, lsb := 0, width := 48, acc := .RO, reset := 0, surv := .H, vw := 2 }
  | .HOLD_U_Y => ⟨.SEL, 0xB0, 0, 32, .RO, 0, .H, 1, false, false⟩
  | .HOLD_U_A => ⟨.SEL, 0xB4, 0, 32, .RO, 0, .H, 1, false, false⟩
  | .HOLD_T0 => ⟨.SEL, 0xB8, 0, 16, .RO, 0, .H, 1, false, false⟩
  | .HOLD_B => ⟨.SEL, 0xBC, 0, 32, .RO, 0, .N, 1, false, false⟩
  | .HOLD_ELAPSED => ⟨.SEL, 0xC0, 0, 32, .RO, 0, .H, 1, false, false⟩
  | .HOLD_NOM => { grp := .SEL, off := 0xC4, lsb := 0, width := 48, acc := .RO, reset := 0, surv := .H, vw := 2 }
  | .HOLD_NOM_T => ⟨.SEL, 0xCC, 0, 16, .RO, 0, .H, 1, false, false⟩
  | .DPLL_LOOP => { grp := .SEL, off := 0xD0, lsb := 0, width := 1, acc := .RW, reset := 0, surv := .W, shadow := true }
  | .DPLL_BW => { grp := .SEL, off := 0xD0, lsb := 8, width := 20, acc := .RW, reset := 0x3E8, surv := .W, shadow := true }
  | .OPLL_IN_SCALE => { grp := .SEL, off := 0xE0, lsb := 0, width := 2, acc := .RW, reset := 0, surv := .W, shadow := true }
  | .OSTAT_LOCK => ⟨.SEL, 0xE4, 0, 1, .RO, 0, .N, 1, false, false⟩
  | .OSTAT_UNLOCK_CNT => ⟨.SEL, 0xE4, 16, 16, .RC, 0, .N, 1, false, false⟩
  | .TOUT_CTL_EN => { grp := .TOUT, off := 0x0, lsb := 0, width := 1, acc := .RW, reset := 0, surv := .W, shadow := true }
  | .TOUT_CTL_MODE => { grp := .TOUT, off := 0x0, lsb := 1, width := 1, acc := .RW, reset := 0, surv := .W, shadow := true }
  | .TOUT_CTL_TKIND => ⟨.TOUT, 0x0, 2, 2, .RW, 1, .W, 1, false, false⟩
  | .TOUT_CTL_SQUELCH => ⟨.TOUT, 0x0, 4, 2, .RW, 0, .W, 1, false, false⟩
  | .TOUT_DIV => { grp := .TOUT, off := 0x8, lsb := 0, width := 40, acc := .RW, reset := 0x10, surv := .W, vw := 2, shadow := true }
  | .TOUT_DLY_COARSE => { grp := .TOUT, off := 0x10, lsb := 0, width := 24, acc := .RW, reset := 0, surv := .W, shadow := true }
  | .TOUT_DLY_FINE => { grp := .TOUT, off := 0x10, lsb := 24, width := 8, acc := .RW, reset := 0, surv := .W, shadow := true }
  | .TOUT_TRIG_T => { grp := .TOUT, off := 0x18, lsb := 0, width := 96, acc := .RW, reset := 0, surv := .N, vw := 3 }
  | .TOUT_TRIG_W_WIDTH => ⟨.TOUT, 0x24, 0, 24, .RW, 0x2710, .N, 1, false, false⟩
  | .TOUT_TRIG_N_COUNT => ⟨.TOUT, 0x28, 0, 16, .RW, 1, .N, 1, false, false⟩
  | .TOUT_TRIG_CTL_ARM => ⟨.TOUT, 0x2C, 0, 1, .W1S, 0, .N, 1, false, false⟩
  | .TOUT_TRIG_CTL_ARMED => ⟨.TOUT, 0x2C, 1, 1, .RO, 0, .N, 1, false, false⟩
  | .TOUT_TRIG_CTL_DISARM => ⟨.TOUT, 0x2C, 2, 1, .W1S, 0, .N, 1, false, false⟩
  | .TOUT_TRIG_CTL_MISSED => ⟨.TOUT, 0x2C, 3, 1, .W1C, 0, .N, 1, false, false⟩
  | .TOUT_TRIG_CTL_DONE => ⟨.TOUT, 0x2C, 4, 1, .W1C, 0, .N, 1, false, false⟩
  | .TOUT_STAT_ACTIVE => ⟨.TOUT, 0x30, 0, 1, .RO, 0, .N, 1, false, false⟩
  | .TOUT_STAT_SQUELCHED => ⟨.TOUT, 0x30, 1, 1, .RO, 0, .N, 1, false, false⟩
  | .TOUT_STAT_TAP => ⟨.TOUT, 0x30, 2, 8, .RO, 0, .N, 1, false, false⟩
  | .TOUT_STAT_RESID => ⟨.TOUT, 0x30, 16, 16, .RO, 0, .N, 1, false, false⟩
  | .PPS_CTL_EN => { grp := .PPS, off := 0x0, lsb := 0, width := 1, acc := .RW, reset := 0, surv := .W, shadow := true }
  | .PPS_CTL_SQUELCH => ⟨.PPS, 0x0, 1, 2, .RW, 0, .W, 1, false, false⟩
  | .PPS_WIDTH => ⟨.PPS, 0x4, 0, 20, .RW, 0x186A0, .W, 1, false, false⟩
  | .PPS_DLY_COARSE => { grp := .PPS, off := 0x8, lsb := 0, width := 24, acc := .RWL, reset := 0, surv := .W, shadow := true }
  | .PPS_DLY_FINE => { grp := .PPS, off := 0x8, lsb := 24, width := 8, acc := .RWL, reset := 0, surv := .W, shadow := true }
  | .TOD_EN => { grp := .SEL, off := 0xA20, lsb := 0, width := 1, acc := .RW, reset := 0, surv := .W, shadow := true }
  | .TOD_SRC => { grp := .SEL, off := 0xA20, lsb := 1, width := 1, acc := .RW, reset := 0, surv := .W, shadow := true }
  | .TOD_BAUD => { grp := .SEL, off := 0xA20, lsb := 2, width := 2, acc := .RW, reset := 0, surv := .W, shadow := true }
  | .TOD_START => { grp := .SEL, off := 0xA20, lsb := 8, width := 8, acc := .RW, reset := 1, surv := .W, shadow := true }
  | .TOD_SENT => ⟨.SEL, 0xA24, 0, 16, .RC, 0, .N, 1, false, false⟩
  | .ECAP_CFG_EN => { grp := .ECAP, off := 0x0, lsb := 0, width := 1, acc := .RW, reset := 0, surv := .W, shadow := true }
  | .ECAP_CFG_EDGE => ⟨.ECAP, 0x0, 1, 2, .RW, 0, .W, 1, false, false⟩
  | .ECAP_CFG_IV_MODE => ⟨.ECAP, 0x0, 3, 2, .RW, 0, .W, 1, false, false⟩
  | .ECAP_CAB_DLY => ⟨.ECAP, 0x4, 0, 32, .RWL, 0, .W, 1, false, false⟩
  | .ECAP_IVMAX_IV_MAX => ⟨.ECAP, 0x8, 0, 24, .RW, 0xF4240, .W, 1, false, false⟩
  | .ECAP_TIME => { grp := .ECAP, off := 0x10, lsb := 0, width := 96, acc := .RO, reset := 0, surv := .N, vw := 3 }
  | .ECAP_FLAGS_GEN => ⟨.ECAP, 0x1C, 0, 16, .RO, 0, .N, 1, false, false⟩
  | .ECAP_FLAGS_RISE => ⟨.ECAP, 0x1C, 16, 1, .RO, 0, .N, 1, false, false⟩
  | .ECAP_FLAGS_CAUTION => ⟨.ECAP, 0x1C, 17, 1, .RO, 0, .N, 1, false, false⟩
  | .ECAP_FLAGS_VOID => ⟨.ECAP, 0x1C, 18, 1, .RO, 0, .N, 1, false, false⟩
  | .ECAP_FLAGS_VALID => ⟨.ECAP, 0x1C, 19, 1, .RO, 0, .N, 1, false, false⟩
  | .ECAP_FLAGS_IV => ⟨.ECAP, 0x1C, 20, 1, .RO, 0, .N, 1, false, false⟩
  | .ECAP_FLAGS_WITHIN_RES => ⟨.ECAP, 0x1C, 21, 1, .RO, 0, .N, 1, false, false⟩
  | .ECAP_FLAGS_NEG => ⟨.ECAP, 0x1C, 22, 1, .RO, 0, .N, 1, false, false⟩
  | .ECAP_FILL_LEVEL => ⟨.ECAP, 0x20, 0, 7, .RO, 0, .N, 1, false, false⟩
  | .ECAP_CNT_DEAD => ⟨.ECAP, 0x24, 0, 8, .RC, 0, .N, 1, false, false⟩
  | .ECAP_CNT_OVERRUN => ⟨.ECAP, 0x24, 8, 8, .RC, 0, .N, 1, false, false⟩
  | .ECAP_CNT_ORDER => ⟨.ECAP, 0x24, 16, 8, .RC, 0, .N, 1, false, false⟩
  | .ECAP_CNT_TIMEOUT => ⟨.ECAP, 0x24, 24, 8, .RC, 0, .N, 1, false, false⟩
  | .ECAP_CNT2_RESTART => ⟨.ECAP, 0x28, 0, 8, .RC, 0, .N, 1, false, false⟩

/-- Rows of the STAMP block: stamping unit, Tables 6.8-6.11. -/
def StampF.desc : StampF → Desc
  | .CTL_EN => ⟨.STAMP, 0x0, 0, 1, .RW, 0, .W, 1, false, false⟩
  | .CTL_CFG_REFUSED => ⟨.STAMP, 0x0, 31, 1, .W1C, 0, .N, 1, false, false⟩
  | .CLKID => { grp := .STAMP, off := 0x8, lsb := 0, width := 64, acc := .RW, reset := 0, surv := .W, vw := 2 }
  | .CNT_CF_SAT => ⟨.STAMP, 0x10, 0, 16, .RC, 0, .N, 1, false, false⟩
  | .CNT_RATE_DROP => ⟨.STAMP, 0x10, 16, 16, .RC, 0, .N, 1, false, false⟩
  | .DOM_DOMAIN_NUM => ⟨.DOM, 0x0, 0, 8, .RW, 0, .W, 1, false, false⟩
  | .DOM_MAJOR_SDO => ⟨.DOM, 0x0, 8, 4, .RW, 0, .W, 1, false, false⟩
  | .DOM_MINOR_SDO => ⟨.DOM, 0x0, 12, 8, .RW, 0, .W, 1, false, false⟩
  | .DOM_RATE_OFS => ⟨.DOM, 0x4, 0, 32, .RW, 0, .W, 1, false, false⟩
  | .OBS_CFG_EN => ⟨.OBS, 0x0, 0, 1, .RW, 0, .W, 1, false, false⟩
  | .OBS_CFG_PORT => ⟨.OBS, 0x0, 1, 7, .RW, 0, .W, 1, false, false⟩
  | .OBS_CFG_DOM => ⟨.OBS, 0x0, 8, 3, .RW, 0, .W, 1, false, false⟩
  | .OBS_CFG_MECH => ⟨.OBS, 0x0, 11, 1, .RW, 0, .W, 1, false, false⟩
  | .OBS_CFG_STALE => ⟨.OBS, 0x0, 12, 1, .RO, 0, .N, 1, false, false⟩
  | .OBS_PARENT => { grp := .OBS, off := 0x4, lsb := 0, width := 80, acc := .RW, reset := 0, surv := .W, vw := 3 }
  | .OBS_OFS => { grp := .OBS, off := 0x10, lsb := 0, width := 64, acc := .RO, reset := 0, surv := .N, vw := 2 }
  | .OBS_MPD => { grp := .OBS, off := 0x18, lsb := 0, width := 64, acc := .RO, reset := 0, surv := .N, vw := 2 }
  | .OBS_ANN_CLASS => ⟨.OBS, 0x20, 0, 8, .RO, 0xFF, .N, 1, false, false⟩
  | .OBS_ANN_ACC => ⟨.OBS, 0x20, 8, 8, .RO, 0xFE, .N, 1, false, false⟩
  | .OBS_ANN_LOG_INT => ⟨.OBS, 0x20, 16, 8, .RO, 0, .N, 1, false, false⟩
  | .OBS_CNT_EXCH => ⟨.OBS, 0x24, 0, 16, .RC, 0, .N, 1, false, false⟩
  | .OBS_CNT_OBS_DISC => ⟨.OBS, 0x24, 16, 16, .RC, 0, .N, 1, false, false⟩
  | .SPORT_CFG_RING_EN => ⟨.SPORT, 0x0, 0, 1, .RW, 0, .W, 1, false, false⟩
  | .SPORT_CFG_RING_LOC => ⟨.SPORT, 0x0, 1, 1, .RW, 0, .W, 1, false, false⟩
  | .SPORT_CFG_RING_ENG => ⟨.SPORT, 0x0, 2, 4, .RW, 0, .W, 1, false, false⟩
  | .SPORT_CFG_RING_SIZE => ⟨.SPORT, 0x0, 6, 5, .RW, 0xA, .W, 1, false, false⟩
  | .SPORT_CFG_PDR_MODE => ⟨.SPORT, 0x0, 11, 2, .RW, 0, .W, 1, false, false⟩
  | .SPORT_CFG_PDR_DOM => ⟨.SPORT, 0x0, 13, 3, .RW, 0, .W, 1, false, false⟩
  | .SPORT_RBASE => { grp := .SPORT, off := 0x8, lsb := 0, width := 64, acc := .RW, reset := 0, surv := .W, vw := 2 }
  | .SPORT_HEAD => ⟨.SPORT, 0x10, 0, 16, .RO, 0, .N, 1, false, false⟩
  | .SPORT_TAIL => ⟨.SPORT, 0x14, 0, 16, .RW, 0, .N, 1, false, false⟩
  | .SPORT_CNT_LOST => ⟨.SPORT, 0x18, 0, 16, .RC, 0, .N, 1, false, false⟩
  | .SPORT_CNT_VOID_STOMP => ⟨.SPORT, 0x18, 16, 16, .RC, 0, .N, 1, false, false⟩
  | .SPORT_CNT2_NOROLE => ⟨.SPORT, 0x1C, 0, 8, .RC, 0, .N, 1, false, false⟩
  | .SPORT_CNT2_DESC_ERR => ⟨.SPORT, 0x1C, 8, 8, .RC, 0, .N, 1, false, false⟩
  | .SPORT_CNT2_NO_TRAILER => ⟨.SPORT, 0x1C, 16, 8, .RC, 0, .N, 1, false, false⟩
  | .SPORT_CNT2_PLANE_OFF => ⟨.SPORT, 0x1C, 24, 8, .RC, 0, .N, 1, false, false⟩
  | .SPORT_PEER_DLY => { grp := .SPORT, off := 0x20, lsb := 0, width := 64, acc := .RW, reset := 0, surv := .W, vw := 2 }
  | .SPORT_PDR_DROP => ⟨.SPORT, 0x28, 0, 16, .RC, 0, .N, 1, false, false⟩

/-- Rows of the LANE block: lanes, Tables 2.8-2.17 and 4.8-4.10. -/
def LaneF.desc : LaneF → Desc
  | .CTL_MODE => ⟨.LANE, 0x0, 0, 4, .RW, 0, .F, 1, false, false⟩
  | .CTL_FEC => ⟨.LANE, 0x0, 4, 2, .RW, 0, .F, 1, false, false⟩
  | .CTL_MEDIUM => ⟨.LANE, 0x0, 6, 1, .RW, 0, .F, 1, false, false⟩
  | .CTL_TX_REF => { grp := .LANE, off := 0x0, lsb := 7, width := 1, acc := .RW, reset := 0, surv := .F, shadow := true }
  | .CTL_TX_POL => ⟨.LANE, 0x0, 8, 1, .RW, 0, .F, 1, false, false⟩
  | .CTL_RX_POL => ⟨.LANE, 0x0, 9, 1, .RW, 0, .F, 1, false, false⟩
  | .CTL_LOOPBACK => ⟨.LANE, 0x0, 10, 2, .RW, 0, .F, 1, false, false⟩
  | .CTL_TX_IDLE => ⟨.LANE, 0x0, 12, 1, .RW, 1, .F, 1, false, false⟩
  | .CTL_CFG_REFUSED => ⟨.LANE, 0x0, 31, 1, .W1C, 0, .N, 1, false, false⟩
  | .STATUS_CDR_LOCK => ⟨.LANE, 0x4, 0, 1, .RO, 0, .N, 1, false, false⟩
  | .STATUS_BLOCK_LOCK => ⟨.LANE, 0x4, 1, 1, .RO, 0, .N, 1, false, false⟩
  | .STATUS_AM_LOCK => ⟨.LANE, 0x4, 2, 1, .RO, 0, .N, 1, false, false⟩
  | .STATUS_FEC_LOCK => ⟨.LANE, 0x4, 3, 1, .RO, 0, .N, 1, false, false⟩
  | .STATUS_LINK_UP => ⟨.LANE, 0x4, 4, 1, .RO, 0, .N, 1, false, false⟩
  | .STATUS_SIG_DET => ⟨.LANE, 0x4, 5, 1, .RO, 0, .N, 1, false, false⟩
  | .STATUS_RX_IDLE => ⟨.LANE, 0x4, 6, 1, .RO, 0, .N, 1, false, false⟩
  | .STATUS_TX_IDLE_ST => ⟨.LANE, 0x4, 7, 1, .RO, 1, .N, 1, false, false⟩
  | .STATUS_AN_DONE => ⟨.LANE, 0x4, 8, 1, .RO, 0, .N, 1, false, false⟩
  | .STATUS_LT_DONE => ⟨.LANE, 0x4, 9, 1, .RO, 0, .N, 1, false, false⟩
  | .STATUS_AN_MISMATCH => ⟨.LANE, 0x4, 10, 1, .RO, 0, .N, 1, false, false⟩
  | .STATUS_MOD_PRESENT => ⟨.LANE, 0x4, 11, 1, .RO, 0, .N, 1, false, false⟩
  | .STATUS_TX_REF_APPLIED => ⟨.LANE, 0x4, 12, 1, .RO, 0, .N, 1, false, false⟩
  | .STATUS_EFF_MODE => ⟨.LANE, 0x4, 16, 4, .RO, 0, .N, 1, false, false⟩
  | .RAW_DIV => ⟨.LANE, 0x8, 0, 4, .RW, 1, .F, 1, false, false⟩
  | .RAW_VCO => ⟨.LANE, 0x8, 8, 20, .RW, 0xC96A8, .F, 1, false, false⟩
  | .TXEQ_PRE3 => { grp := .LANE, off := 0x10, lsb := 0, width := 8, acc := .RW, reset := 0, surv := .F, vw := 2 }
  | .TXEQ_PRE2 => { grp := .LANE, off := 0x10, lsb := 8, width := 8, acc := .RW, reset := 0, surv := .F, vw := 2 }
  | .TXEQ_PRE1 => { grp := .LANE, off := 0x10, lsb := 16, width := 8, acc := .RW, reset := 0, surv := .F, vw := 2 }
  | .TXEQ_MAIN => { grp := .LANE, off := 0x10, lsb := 24, width := 8, acc := .RW, reset := 0x40, surv := .F, vw := 2 }
  | .TXEQ_POST1 => { grp := .LANE, off := 0x10, lsb := 32, width := 8, acc := .RW, reset := 0, surv := .F, vw := 2 }
  | .TXEQ_POST2 => { grp := .LANE, off := 0x10, lsb := 40, width := 8, acc := .RW, reset := 0, surv := .F, vw := 2 }
  | .RXEQ_CTLE => ⟨.LANE, 0x18, 0, 4, .RW, 8, .F, 1, false, false⟩
  | .RXEQ_CTLE_AUTO => ⟨.LANE, 0x18, 4, 1, .RW, 1, .F, 1, false, false⟩
  | .RXEQ_DFE_AUTO => ⟨.LANE, 0x18, 5, 1, .RW, 1, .F, 1, false, false⟩
  | .RXEQ_FREEZE => ⟨.LANE, 0x18, 6, 1, .RW, 0, .F, 1, false, false⟩
  | .RXEQ_DFE_SEL => ⟨.LANE, 0x18, 8, 4, .RW, 0, .F, 1, false, false⟩
  | .RXEQ_DFE_VAL => ⟨.LANE, 0x18, 16, 8, .RO, 0, .N, 1, false, false⟩
  | .EYE_W => ⟨.LANE, 0x1C, 0, 8, .RO, 0, .N, 1, false, false⟩
  | .EYE_H => ⟨.LANE, 0x1C, 8, 8, .RO, 0, .N, 1, false, false⟩
  | .EYE_WORST => ⟨.LANE, 0x1C, 16, 2, .RO, 0, .N, 1, false, false⟩
  | .EYE_AGE => ⟨.LANE, 0x1C, 24, 7, .RO, 0x7F, .N, 1, false, false⟩
  | .EYE_VALID => ⟨.LANE, 0x1C, 31, 1, .RO, 0, .N, 1, false, false⟩
  | .ALIGN_WORD_OFS => { grp := .LANE, off := 0x20, lsb := 0, width := 6, acc := .RO, reset := 0, surv := .N, vw := 2 }
  | .ALIGN_GBX_PHASE => { grp := .LANE, off := 0x20, lsb := 8, width := 6, acc := .RO, reset := 0, surv := .N, vw := 2 }
  | .ALIGN_GEN => { grp := .LANE, off := 0x20, lsb := 16, width := 8, acc := .RO, reset := 0, surv := .N, vw := 2 }
  | .ALIGN_VALID => { grp := .LANE, off := 0x20, lsb := 31, width := 1, acc := .RO, reset := 0, surv := .N, vw := 2 }
  | .ALIGN_FEC_POS => { grp := .LANE, off := 0x20, lsb := 32, width := 13, acc := .RO, reset := 0, surv := .N, vw := 2 }
  | .ALIGN_AM_POS => { grp := .LANE, off := 0x20, lsb := 48, width := 15, acc := .RO, reset := 0, surv := .N, vw := 2 }
  | .SLIP => ⟨.LANE, 0x28, 0, 1, .WO, 0, .N, 1, false, false⟩
  | .SLIP_BUSY => ⟨.LANE, 0x28, 1, 1, .RO, 0, .N, 1, false, false⟩
  | .SLIP_REFUSED => ⟨.LANE, 0x28, 2, 1, .W1C, 0, .N, 1, false, false⟩
  | .RM_SKIP_INTERVAL => ⟨.LANE, 0x30, 0, 13, .RW, 0x400, .F, 1, false, false⟩
  | .RM_CNT_INS => ⟨.LANE, 0x34, 0, 16, .RC, 0, .N, 1, false, false⟩
  | .RM_CNT_DEL => ⟨.LANE, 0x34, 16, 16, .RC, 0, .N, 1, false, false⟩
  | .TWIN_MAX_RATE => ⟨.LANE, 0x38, 0, 2, .RW, 2, .F, 1, false, false⟩
  | .TWIN_CUR_RATE => ⟨.LANE, 0x38, 2, 2, .RO, 0, .N, 1, false, false⟩
  | .TWIN_TSTATE => ⟨.LANE, 0x38, 4, 3, .RO, 0, .N, 1, false, false⟩
  | .TWIN_FAIL1 => ⟨.LANE, 0x38, 8, 2, .RO, 0, .N, 1, false, false⟩
  | .TWIN_FAIL2 => ⟨.LANE, 0x38, 10, 2, .RO, 0, .N, 1, false, false⟩
  | .PHASE_TX_PHASE => ⟨.LANE, 0x40, 0, 16, .RO, 0, .N, 1, false, false⟩
  | .PHASE_RX_PHASE => ⟨.LANE, 0x40, 16, 12, .RO, 0, .N, 1, false, false⟩
  | .PHASE_PH_VALID => ⟨.LANE, 0x40, 31, 1, .RO, 0, .N, 1, false, false⟩
  | .TERM_RX_WORD => { grp := .LANE, off := 0x48, lsb := 0, width := 12, acc := .RO, reset := 0, surv := .N, vw := 2 }
  | .TERM_TX_WORD => { grp := .LANE, off := 0x50, lsb := 0, width := 12, acc := .RO, reset := 0, surv := .N, vw := 2 }
  | .TERM_RX_GBX => { grp := .LANE, off := 0x48, lsb := 12, width := 12, acc := .RO, reset := 0, surv := .N, vw := 2 }
  | .TERM_TX_GBX => { grp := .LANE, off := 0x50, lsb := 12, width := 12, acc := .RO, reset := 0, surv := .N, vw := 2 }
  | .TERM_RX_FEC => { grp := .LANE, off := 0x48, lsb := 24, width := 15, acc := .RO, reset := 0, surv := .N, vw := 2 }
  | .TERM_TX_FEC => { grp := .LANE, off := 0x50, lsb := 24, width := 15, acc := .RO, reset := 0, surv := .N, vw := 2 }
  | .TERM_RX_AM => { grp := .LANE, off := 0x48, lsb := 40, width := 17, acc := .RO, reset := 0, surv := .N, vw := 2 }
  | .TERM_TX_AM => { grp := .LANE, off := 0x50, lsb := 40, width := 17, acc := .RO, reset := 0, surv := .N, vw := 2 }
  | .TERM_RX_TERM_VALID => { grp := .LANE, off := 0x48, lsb := 63, width := 1, acc := .RO, reset := 0, surv := .N, vw := 2 }
  | .TERM_TX_TERM_VALID => { grp := .LANE, off := 0x50, lsb := 63, width := 1, acc := .RO, reset := 0, surv := .N, vw := 2 }
  | .FIX_RX_A => ⟨.LANE, 0x58, 0, 24, .RO, 0, .N, 1, false, false⟩
  | .FIX_TX_A => ⟨.LANE, 0x5C, 0, 24, .RO, 0, .N, 1, false, false⟩
  | .CAL_SET_LO => ⟨.LANE, 0x60, 0, 5, .RO, 0, .N, 1, false, false⟩
  | .CAL_SET_HI => ⟨.LANE, 0x60, 5, 5, .RO, 0, .N, 1, false, false⟩
  | .CAL_TEMP => ⟨.LANE, 0x60, 16, 8, .RO, 0, .N, 1, false, false⟩
  | .CAL_DEG => ⟨.LANE, 0x60, 24, 1, .RO, 0, .N, 1, false, false⟩
  | .CAL_NONE => ⟨.LANE, 0x60, 25, 1, .RO, 0, .N, 1, false, false⟩
  | .CAL_EXTRAP => ⟨.LANE, 0x60, 26, 1, .RO, 0, .N, 1, false, false⟩
  | .RESID => ⟨.LANE, 0x64, 0, 16, .RO, 0, .N, 1, false, false⟩
  | .RESID_VALID => ⟨.LANE, 0x64, 31, 1, .RO, 0, .N, 1, false, false⟩
  | .BRD_TX => ⟨.LANE, 0x80, 0, 32, .RWL, 0, .W, 1, false, false⟩
  | .BRD_RX => ⟨.LANE, 0x84, 0, 32, .RWL, 0, .W, 1, false, false⟩
  | .MOD_TX => ⟨.LANE, 0x88, 0, 32, .RWL, 0, .W, 1, false, false⟩
  | .MOD_RX => ⟨.LANE, 0x8C, 0, 32, .RWL, 0, .W, 1, false, false⟩
  | .DLY_CFG_MOD_SRC => ⟨.LANE, 0x90, 0, 2, .RWL, 0, .W, 1, false, false⟩
  | .DLY_CFG_RESP_EN => ⟨.LANE, 0x90, 2, 1, .RW, 0, .W, 1, false, false⟩
  | .DLY_CFG_AUTO_CHECK => ⟨.LANE, 0x90, 3, 1, .RW, 1, .W, 1, false, false⟩
  | .DLY_CFG_TX_SHARE => ⟨.LANE, 0x90, 8, 8, .RW, 0x32, .W, 1, false, false⟩
  | .DLY_CFG_CMIS_PAGE => ⟨.LANE, 0x90, 16, 8, .RW, 0, .W, 1, false, false⟩
  | .DLY_CFG_CMIS_OFS => ⟨.LANE, 0x90, 24, 8, .RW, 0x80, .W, 1, false, false⟩
  | .DLY_STAT_DLY_VALID => ⟨.LANE, 0x94, 0, 1, .RO, 0, .N, 1, false, false⟩
  | .DLY_STAT_ASYM_SRC => ⟨.LANE, 0x94, 1, 2, .RO, 0, .W, 1, false, false⟩
  | .DLY_STAT_CHECKING => ⟨.LANE, 0x94, 3, 1, .RO, 0, .N, 1, false, false⟩
  | .DLY_STAT_SPLIT_ASSUMED => ⟨.LANE, 0x94, 4, 1, .RO, 0, .W, 1, false, false⟩
  | .DLY_STAT_CAUSE => ⟨.LANE, 0x94, 8, 4, .RO, 0, .N, 1, false, false⟩
  | .DLY_STAT_CFG_REFUSED => ⟨.LANE, 0x94, 31, 1, .W1C, 0, .N, 1, false, false⟩
  | .ASYM => ⟨.LANE, 0x98, 0, 32, .RWL, 0, .W, 1, false, false⟩
  | .ASYM_U => ⟨.LANE, 0x9C, 0, 32, .RWL, 0, .W, 1, false, false⟩
  | .RT => { grp := .LANE, off := 0xA0, lsb := 0, width := 64, acc := .RO, reset := 0, surv := .N, vw := 2 }
  | .FIBRE_D => ⟨.LANE, 0xA8, 0, 20, .RW, 0x4268, .W, 1, false, false⟩
  | .FIBRE_S => ⟨.LANE, 0xAC, 0, 16, .RW, 0x244, .W, 1, false, false⟩
  | .FIBRE_S_U => ⟨.LANE, 0xAC, 16, 16, .RW, 0x1E, .W, 1, false, false⟩
  | .FIBRE_TG => ⟨.LANE, 0xB0, 0, 24, .RW, 0x4ABA78, .W, 1, false, false⟩
  | .OP_LAMBDA_OUT => ⟨.LANE, 0xB4, 0, 24, .RW, 0, .W, 1, false, false⟩
  | .OP_LAMBDA_IN => ⟨.LANE, 0xB8, 0, 24, .RW, 0, .W, 1, false, false⟩

/-- Rows of the QUAD block: quads, Table 2.18. -/
def QuadF.desc : QuadF → Desc
  | .CTL_FAMILY => ⟨.QUAD, 0x0, 0, 2, .RW, 0, .F, 1, false, false⟩
  | .CTL_TX_REF => { grp := .QUAD, off := 0x0, lsb := 2, width := 1, acc := .RW, reset := 0, surv := .F, shadow := true }
  | .CTL_TX_REF_APPLIED => ⟨.QUAD, 0x0, 3, 1, .RO, 0, .N, 1, false, false⟩
  | .CTL_PLL_LOCK => ⟨.QUAD, 0x0, 4, 1, .RO, 0, .N, 1, false, false⟩
  | .CTL_VCO => ⟨.QUAD, 0x0, 8, 20, .RW, 0xCF850, .F, 1, false, false⟩
  | .CTL_CFG_REFUSED => ⟨.QUAD, 0x0, 31, 1, .W1C, 0, .N, 1, false, false⟩

/-- Rows of the MOD block: module masters, Table 2.19. -/
def ModF.desc : ModF → Desc
  | .CFG_ENABLE => ⟨.MOD, 0x0, 0, 1, .RW, 0, .F, 1, false, false⟩
  | .CFG_SPEED => ⟨.MOD, 0x0, 1, 1, .RW, 1, .F, 1, false, false⟩
  | .ADDR_OFFSET => ⟨.MOD, 0x4, 0, 8, .RW, 0, .F, 1, false, false⟩
  | .ADDR_PAGE => ⟨.MOD, 0x4, 8, 8, .RW, 0, .F, 1, false, false⟩
  | .ADDR_BANK => ⟨.MOD, 0x4, 16, 8, .RW, 0, .F, 1, false, false⟩
  | .ADDR_SLOT => ⟨.MOD, 0x4, 24, 4, .RW, 0, .F, 1, false, false⟩
  | .CMD_LEN => ⟨.MOD, 0x8, 0, 8, .RW, 1, .F, 1, false, false⟩
  | .CMD_WRITE => ⟨.MOD, 0x8, 8, 1, .RW, 0, .F, 1, false, false⟩
  | .CMD_GO => ⟨.MOD, 0x8, 9, 1, .W1S, 0, .N, 1, false, false⟩
  | .STATUS_BUSY => ⟨.MOD, 0xC, 0, 1, .RO, 0, .N, 1, false, false⟩
  | .STATUS_DONE => ⟨.MOD, 0xC, 1, 1, .W1C, 0, .N, 1, false, false⟩
  | .STATUS_NACK => ⟨.MOD, 0xC, 2, 1, .W1C, 0, .N, 1, false, false⟩
  | .STATUS_TIMEOUT => ⟨.MOD, 0xC, 3, 1, .W1C, 0, .N, 1, false, false⟩
  | .STATUS_LOCKED => ⟨.MOD, 0xC, 4, 1, .W1C, 0, .N, 1, false, false⟩
  | .STATUS_REFUSED => ⟨.MOD, 0xC, 5, 1, .W1C, 0, .N, 1, false, false⟩
  | .STATUS_ABSENT => ⟨.MOD, 0xC, 6, 1, .W1C, 0, .N, 1, false, false⟩
  | .PRESENT => ⟨.MOD, 0x10, 0, 9, .RO, 0, .N, 1, false, false⟩
  | .BUF => ⟨.MODBUF, 0x0, 0, 32, .RW, 0, .N, 1, false, false⟩

/-- Rows of the SURV block: survey controller, Table 4.11. -/
def SurvF.desc : SurvF → Desc
  | .CTL_START => ⟨.SURV, 0x0, 0, 1, .W1S, 0, .N, 1, false, false⟩
  | .CTL_ABORT => ⟨.SURV, 0x0, 1, 1, .W1S, 0, .N, 1, false, false⟩
  | .CTL_KIND => ⟨.SURV, 0x0, 2, 2, .RW, 0, .W, 1, false, false⟩
  | .CTL_PORT => ⟨.SURV, 0x0, 4, 7, .RW, 0, .W, 1, false, false⟩
  | .CTL_PORT_B => ⟨.SURV, 0x0, 11, 7, .RW, 0x7F, .W, 1, false, false⟩
  | .CTL_AUTO_APPLY => ⟨.SURV, 0x0, 18, 1, .RW, 1, .W, 1, false, false⟩
  | .CTL_APPLY => ⟨.SURV, 0x0, 19, 1, .W1S, 0, .N, 1, false, false⟩
  | .CTL_WH_IN => ⟨.SURV, 0x0, 20, 2, .RW, 0, .W, 1, false, false⟩
  | .SEQ_N => ⟨.SURV, 0x4, 0, 16, .RW, 0x400, .W, 1, false, false⟩
  | .SEQ_K => ⟨.SURV, 0x4, 16, 8, .RW, 0x10, .W, 1, false, false⟩
  | .SEQ_RETUNE_WAIT => ⟨.SURV, 0x4, 24, 8, .RW, 0x14, .W, 1, false, false⟩
  | .LAMBDA => ⟨.SURVLAM, 0x0, 0, 24, .RW, 0, .W, 1, false, false⟩
  | .U_LAMBDA => ⟨.SURV, 0x20, 0, 16, .RW, 0x14, .W, 1, false, false⟩
  | .U_MAX => ⟨.SURV, 0x20, 16, 16, .RW, 0x32, .W, 1, false, false⟩
  | .FIX_D_LOOP => ⟨.SURV, 0x24, 0, 24, .RW, 0, .W, 1, false, false⟩
  | .PROBE_D_PROBE => ⟨.SURV, 0x28, 0, 24, .RW, 0, .W, 1, false, false⟩
  | .STATUS_STATE => ⟨.SURV, 0x30, 0, 4, .RO, 0, .N, 1, false, false⟩
  | .STATUS_ERR => ⟨.SURV, 0x30, 4, 4, .RO, 0, .N, 1, false, false⟩
  | .STATUS_CYCLE => ⟨.SURV, 0x30, 8, 8, .RO, 0, .N, 1, false, false⟩
  | .STATUS_SEG => ⟨.SURV, 0x30, 16, 2, .RO, 0, .N, 1, false, false⟩
  | .STATUS_DONE => ⟨.SURV, 0x30, 24, 1, .W1C, 0, .N, 1, false, false⟩
  | .STATUS_FAIL => ⟨.SURV, 0x30, 25, 1, .W1C, 0, .N, 1, false, false⟩
  | .STATUS_REFUSED => ⟨.SURV, 0x30, 26, 1, .W1C, 0, .N, 1, false, false⟩
  | .DRT => { grp := .SURV, off := 0x40, lsb := 0, width := 64, acc := .RO, reset := 0, surv := .N, vw := 2 }
  | .DELTA => ⟨.SURV, 0x48, 0, 32, .RO, 0, .N, 1, false, false⟩
  | .U => ⟨.SURV, 0x4C, 0, 32, .RO, 0, .N, 1, false, false⟩
  | .LEN => ⟨.SURV, 0x50, 0, 24, .RO, 0, .N, 1, false, false⟩
  | .WHREC => ⟨.SURV, 0x54, 0, 32, .RO, 0, .N, 1, false, false⟩
  | .RT_LOOP => { grp := .SURV, off := 0x58, lsb := 0, width := 64, acc := .RO, reset := 0, surv := .N, vw := 2 }

/-- Rows of the PORT block: ports, Tables 7.13 and 16.7. -/
def PortF.desc : PortF → Desc
  | .CTL_EN => ⟨.PORT, 0x0, 0, 1, .RW, 0, .W, 1, false, false⟩
  | .CTL_CT_EN => ⟨.PORT, 0x0, 1, 1, .RW, 0, .W, 1, false, false⟩
  | .CTL_FC_MODE => ⟨.PORT, 0x0, 2, 2, .RW, 0, .W, 1, false, false⟩
  | .CTL_MGMT_TRAP => ⟨.PORT, 0x0, 4, 1, .RW, 1, .W, 1, false, false⟩
  | .CTL_MGMT_DEST => ⟨.PORT, 0x0, 5, 1, .RW, 0, .W, 1, false, false⟩
  | .CTL_HOSTQ => ⟨.PORT, 0x0, 6, 4, .RW, 0, .W, 1, false, false⟩
  | .CTL_CFG_REFUSED => ⟨.PORT, 0x0, 15, 1, .W1C, 0, .N, 1, false, false⟩
  | .CTL_HOLDOFF => ⟨.PORT, 0x0, 16, 16, .RW, 0x32, .W, 1, false, false⟩
  | .STATUS_PSTATE => ⟨.PORT, 0x4, 0, 3, .RO, 0, .N, 1, false, false⟩
  | .STATUS_RATE => ⟨.PORT, 0x4, 3, 4, .RO, 0, .N, 1, false, false⟩
  | .STATUS_PAUSED => ⟨.PORT, 0x4, 8, 8, .RO, 0, .N, 1, false, false⟩
  | .STATUS_PWD_HOLD => ⟨.PORT, 0x4, 16, 8, .RO, 0, .N, 1, false, false⟩
  | .MAX_LEN => ⟨.PORT, 0x8, 0, 14, .RW, 0x5F2, .W, 1, false, false⟩
  | .STA_ADDR => { grp := .PORTSTA, off := 0x0, lsb := 0, width := 48, acc := .RW, reset := 0, surv := .W, vw := 2 }
  | .STA_EN => { grp := .PORTSTA, off := 0x0, lsb := 63, width := 1, acc := .RW, reset := 0, surv := .W, vw := 2 }
  | .FC_RX_PFC_EN => ⟨.PORT, 0x50, 0, 8, .RW, 0, .W, 1, false, false⟩
  | .FC_TX_PFC_EN => ⟨.PORT, 0x50, 8, 8, .RW, 0, .W, 1, false, false⟩
  | .FC_RX_EN => ⟨.PORT, 0x50, 24, 1, .RW, 0, .W, 1, false, false⟩
  | .FC_TX_EN => ⟨.PORT, 0x50, 25, 1, .RW, 0, .W, 1, false, false⟩
  | .PFC_MAP => { grp := .PORT, off := 0x54, lsb := 0, width := 64, acc := .RW, reset := 0x8040201008040201, surv := .W, vw := 2 }
  | .TX_QUANTA => ⟨.PORT, 0x5C, 0, 16, .RW, 0xFFFF, .W, 1, false, false⟩
  | .XOFF_THR => ⟨.PORTXOFF, 0x0, 0, 16, .RW, 0x400, .W, 1, false, false⟩
  | .XON_THR => ⟨.PORTXOFF, 0x0, 16, 16, .RW, 0x200, .W, 1, false, false⟩
  | .PWD_LIMIT => ⟨.PORT, 0x80, 0, 16, .RW, 0x64, .W, 1, false, false⟩
  | .PWD_HOLD => ⟨.PORT, 0x80, 16, 16, .RW, 0x3E8, .W, 1, false, false⟩
  | .CNT_CT_STOMP => ⟨.PORT, 0x100, 0, 32, .RC, 0, .N, 1, false, false⟩
  | .CNT_DOWN_DROP => ⟨.PORT, 0x104, 0, 32, .RC, 0, .N, 1, false, false⟩
  | .CNT_TX_TRUNC => ⟨.PORT, 0x108, 0, 16, .RC, 0, .N, 1, false, false⟩
  | .CNT_CTL_DROP => ⟨.PORT, 0x108, 16, 16, .RC, 0, .N, 1, false, false⟩
  | .CNT_PAUSE_IGN => ⟨.PORT, 0x10C, 0, 16, .RC, 0, .N, 1, false, false⟩
  | .CNT_PWD_TRIP => ⟨.PORT, 0x10C, 16, 16, .RC, 0, .N, 1, false, false⟩
  | .CNT_IN_OVERRUN => ⟨.PORT, 0x110, 0, 32, .RC, 0, .N, 1, false, false⟩
  | .CNT_TRAPPED => ⟨.PORT, 0x114, 0, 32, .RC, 0, .N, 1, false, false⟩
  | .STAT_FRAMES_TX => { grp := .PORTSTAT, off := 0x0, lsb := 0, width := 64, acc := .RO, reset := 0, surv := .N, vw := 2 }
  | .STAT_FRAMES_RX => { grp := .PORTSTAT, off := 0x8, lsb := 0, width := 64, acc := .RO, reset := 0, surv := .N, vw := 2 }
  | .STAT_FCS_ERR => { grp := .PORTSTAT, off := 0x10, lsb := 0, width := 64, acc := .RO, reset := 0, surv := .N, vw := 2 }
  | .STAT_OCTETS_TX => { grp := .PORTSTAT, off := 0x18, lsb := 0, width := 64, acc := .RO, reset := 0, surv := .N, vw := 2 }
  | .STAT_OCTETS_RX => { grp := .PORTSTAT, off := 0x20, lsb := 0, width := 64, acc := .RO, reset := 0, surv := .N, vw := 2 }
  | .STAT_MCAST_TX => { grp := .PORTSTAT, off := 0x28, lsb := 0, width := 64, acc := .RO, reset := 0, surv := .N, vw := 2 }
  | .STAT_BCAST_TX => { grp := .PORTSTAT, off := 0x30, lsb := 0, width := 64, acc := .RO, reset := 0, surv := .N, vw := 2 }
  | .STAT_MCAST_RX => { grp := .PORTSTAT, off := 0x38, lsb := 0, width := 64, acc := .RO, reset := 0, surv := .N, vw := 2 }
  | .STAT_BCAST_RX => { grp := .PORTSTAT, off := 0x40, lsb := 0, width := 64, acc := .RO, reset := 0, surv := .N, vw := 2 }
  | .STAT_TOO_LONG => { grp := .PORTSTAT, off := 0x48, lsb := 0, width := 64, acc := .RO, reset := 0, surv := .N, vw := 2 }
  | .STAT_UNDERSIZE => { grp := .PORTSTAT, off := 0x50, lsb := 0, width := 64, acc := .RO, reset := 0, surv := .N, vw := 2 }
  | .STAT_CTL_TX => { grp := .PORTSTAT, off := 0x58, lsb := 0, width := 64, acc := .RO, reset := 0, surv := .N, vw := 2 }
  | .STAT_CTL_RX => { grp := .PORTSTAT, off := 0x60, lsb := 0, width := 64, acc := .RO, reset := 0, surv := .N, vw := 2 }
  | .STAT_PAUSE_TX => { grp := .PORTSTAT, off := 0x68, lsb := 0, width := 64, acc := .RO, reset := 0, surv := .N, vw := 2 }
  | .STAT_PAUSE_RX => { grp := .PORTSTAT, off := 0x70, lsb := 0, width := 64, acc := .RO, reset := 0, surv := .N, vw := 2 }
  | .STAT_FEC_CORR => { grp := .PORTSTAT, off := 0x78, lsb := 0, width := 64, acc := .RO, reset := 0, surv := .N, vw := 2 }
  | .STAT_FEC_UNCORR => { grp := .PORTSTAT, off := 0x80, lsb := 0, width := 64, acc := .RO, reset := 0, surv := .N, vw := 2 }
  | .STAT_SYM_ERR => { grp := .PORTSTAT, off := 0x88, lsb := 0, width := 64, acc := .RO, reset := 0, surv := .N, vw := 2 }
  | .PFC_RX => { grp := .PORTPFCRX, off := 0x0, lsb := 0, width := 64, acc := .RO, reset := 0, surv := .N, vw := 2 }

/-- Rows of the CORE block: switch core, Tables 7.6-7.12. -/
def CoreF.desc : CoreF → Desc
  | .PAIR_CTL_BANK => { grp := .PAIR, off := 0x0, lsb := 0, width := 1, acc := .RW, reset := 0, surv := .W, shadow := true }
  | .PAIR_CTL_BANK_APPLIED => ⟨.PAIR, 0x0, 1, 1, .RO, 0, .N, 1, false, false⟩
  | .PAIR_CTL_CHK_A => ⟨.PAIR, 0x0, 2, 1, .RO, 1, .N, 1, false, false⟩
  | .PAIR_CTL_CHK_B => ⟨.PAIR, 0x0, 3, 1, .RO, 1, .N, 1, false, false⟩
  | .PAIR_CTL_CFG_REFUSED => ⟨.PAIR, 0x0, 31, 1, .W1C, 0, .N, 1, false, false⟩
  | .PAIR_CNT_NO_DEST => ⟨.PAIR, 0x10, 0, 32, .RC, 0, .N, 1, false, false⟩
  | .PAIR_CNT_BAD_DEST => ⟨.PAIR, 0x14, 0, 32, .RC, 0, .N, 1, false, false⟩
  | .PAIR_CNT_PROG_FAULT => ⟨.PAIR, 0x18, 0, 32, .RC, 0, .N, 1, false, false⟩
  | .PAIR_CNT_STALL_CYC => ⟨.PAIR, 0x1C, 0, 32, .RC, 0, .N, 1, false, false⟩
  | .CELLAIN_INSN => ⟨.CELLAIN, 0x0, 0, 32, .RW, 0, .F, 1, false, false⟩
  | .CELLAEG_INSN => ⟨.CELLAEG, 0x0, 0, 32, .RW, 0, .F, 1, false, false⟩
  | .CELLBIN_INSN => ⟨.CELLBIN, 0x0, 0, 32, .RW, 0, .F, 1, false, false⟩
  | .CELLBEG_INSN => ⟨.CELLBEG, 0x0, 0, 32, .RW, 0, .F, 1, false, false⟩
  | .TBL_KIND => ⟨.LKPTBL, 0x0, 0, 2, .RW, 0, .F, 1, false, false⟩
  | .TBL_STAGE => ⟨.LKPTBL, 0x0, 2, 3, .RW, 2, .F, 1, false, false⟩
  | .TBL_KEY_BITS => ⟨.LKPTBL, 0x0, 5, 10, .RW, 0x20, .F, 1, false, false⟩
  | .TBL_DATA_BITS => ⟨.LKPTBL, 0x0, 15, 9, .RW, 0, .F, 1, false, false⟩
  | .TBL_BASE => ⟨.LKPTBL, 0x4, 0, 16, .RW, 0, .F, 1, false, false⟩
  | .TBL_SIZE => ⟨.LKPTBL, 0x4, 16, 16, .RW, 0, .F, 1, false, false⟩
  | .TBL_COUNT => ⟨.LKPTBL, 0x8, 0, 32, .RO, 0, .N, 1, false, false⟩
  | .LKP_OP => ⟨.LKPCMD, 0x0, 0, 3, .RW, 0, .N, 1, false, false⟩
  | .LKP_TBL => ⟨.LKPCMD, 0x0, 3, 6, .RW, 0, .N, 1, false, false⟩
  | .LKP_VIS => ⟨.LKPCMD, 0x0, 9, 2, .RW, 3, .N, 1, false, false⟩
  | .LKP_GO => ⟨.LKPCMD, 0x0, 31, 1, .W1S, 0, .N, 1, false, false⟩
  | .LKP_STATUS_BUSY => ⟨.LKPCMD, 0x4, 0, 1, .RO, 0, .N, 1, false, false⟩
  | .LKP_STATUS_CODE => ⟨.LKPCMD, 0x4, 1, 3, .RO, 0, .N, 1, false, false⟩
  | .LKP_STATUS_HIT => ⟨.LKPCMD, 0x4, 4, 1, .RO, 0, .N, 1, false, false⟩
  | .LKP_INDEX => ⟨.LKPCMD, 0x8, 0, 22, .RW, 0, .N, 1, false, false⟩
  | .LKP_KEY => ⟨.LKPCMD, 0x40, 0, 640, .RW, 0, .N, 1, false, false⟩
  | .LKP_MASK => ⟨.LKPCMD, 0x90, 0, 640, .RW, 0, .N, 1, false, false⟩
  | .LKP_DATA => ⟨.LKPCMD, 0xE0, 0, 256, .RW, 0, .N, 1, false, false⟩
  | .MCG_PORTS0 => ⟨.MCG, 0x0, 0, 32, .RW, 0, .F, 1, false, false⟩
  | .MCG_PORTS1 => ⟨.MCG, 0x4, 0, 32, .RW, 0, .F, 1, false, false⟩
  | .MCG_PORTS2 => ⟨.MCG, 0x8, 0, 8, .RW, 0, .F, 1, false, false⟩
  | .MCG_ENGINES => ⟨.MCG, 0x8, 8, 16, .RW, 0, .F, 1, false, false⟩
  | .MCG_EQ => ⟨.MCG, 0xC, 0, 6, .RW, 0, .F, 1, false, false⟩
  | .MCG_HOST_EN => ⟨.MCG, 0xC, 8, 1, .RW, 0, .F, 1, false, false⟩
  | .MCG_HOSTQ => ⟨.MCG, 0xC, 9, 4, .RW, 0, .F, 1, false, false⟩
  | .MCG_HAIRPIN => ⟨.MCG, 0xC, 16, 1, .RW, 0, .F, 1, false, false⟩
  | .QUEUE_MAX => ⟨.QUEUE, 0x0, 0, 20, .RW, 0x2000, .F, 1, false, false⟩
  | .QUEUE_SP => ⟨.QUEUE, 0x0, 24, 1, .RW, 0, .F, 1, false, false⟩
  | .QUEUE_ECN_THR => ⟨.QUEUE, 0x4, 0, 20, .RW, 0xFFFFF, .F, 1, false, false⟩
  | .QUEUE_QUANTUM => ⟨.QUEUE, 0x8, 0, 16, .RW, 0x800, .F, 1, false, false⟩
  | .QUEUE_Q_DROP => ⟨.QUEUE, 0x8, 16, 16, .RC, 0, .N, 1, false, false⟩
  | .QUEUE_DEPTH => ⟨.QUEUE, 0xC, 0, 20, .RO, 0, .N, 1, false, false⟩
  | .QUEUE_PAUSED => ⟨.QUEUE, 0xC, 20, 1, .RO, 0, .N, 1, false, false⟩
  | .QUEUE_GATE_OPEN => ⟨.QUEUE, 0xC, 21, 1, .RO, 1, .N, 1, false, false⟩
  | .GATE_EN => { grp := .GATE, off := 0x0, lsb := 0, width := 1, acc := .RW, reset := 0, surv := .W, shadow := true }
  | .GATE_LEN => { grp := .GATE, off := 0x0, lsb := 1, width := 9, acc := .RW, reset := 1, surv := .W, shadow := true }
  | .GATE_OPER_EN => ⟨.GATE, 0x0, 16, 1, .RO, 0, .N, 1, false, false⟩
  | .GATE_PEND => ⟨.GATE, 0x0, 17, 1, .RO, 0, .N, 1, false, false⟩
  | .GATE_CYCLE => { grp := .GATE, off := 0x4, lsb := 0, width := 30, acc := .RW, reset := 0x3D090, surv := .W, shadow := true }
  | .GATE_BASE => { grp := .GATE, off := 0x8, lsb := 0, width := 96, acc := .RW, reset := 0, surv := .W, vw := 3, shadow := true }
  | .GATE_NOW_ENTRY => ⟨.GATE, 0x18, 0, 8, .RO, 0, .N, 1, false, false⟩
  | .GATE_NOW_GATES => ⟨.GATE, 0x18, 8, 8, .RO, 0xFF, .N, 1, false, false⟩
  | .GATE_HELD => ⟨.GATE, 0x1C, 0, 32, .RC, 0, .N, 1, false, false⟩
  | .GATE_LEAD => ⟨.GATE, 0x20, 0, 8, .RO, 0, .N, 1, false, false⟩
  | .ADMIN_INTERVAL => { grp := .GATEADM, off := 0x0, lsb := 0, width := 30, acc := .RW, reset := 0x3E8, surv := .W, shadow := true }
  | .ADMIN_GATES => { grp := .GATEADM, off := 0x4, lsb := 0, width := 8, acc := .RW, reset := 0xFF, surv := .W, shadow := true }
  | .OPER_INTERVAL => ⟨.GATEOPER, 0x0, 0, 30, .RO, 0x3E8, .N, 1, false, false⟩
  | .OPER_GATES => ⟨.GATEOPER, 0x4, 0, 8, .RO, 0xFF, .N, 1, false, false⟩

/-- Rows of the POOL block: pool manager, Tables 8.6-8.9. -/
def PoolF.desc : PoolF → Desc
  | .CTL_OPEN => ⟨.POOL, 0x0, 0, 1, .RW, 0, .W, 1, false, false⟩
  | .CTL_SPILL_EN => ⟨.POOL, 0x0, 1, 1, .RW, 0, .W, 1, false, false⟩
  | .CTL_WIPE_DONE => ⟨.POOL, 0x0, 2, 1, .RO, 0, .N, 1, false, false⟩
  | .CTL_CFG_REFUSED => ⟨.POOL, 0x0, 31, 1, .W1C, 0, .N, 1, false, false⟩
  | .CFG_C1 => ⟨.POOL, 0x10, 0, 24, .RW, 0x100000, .W, 1, false, false⟩
  | .CFG_C2 => ⟨.POOL, 0x14, 0, 24, .RW, 0x40000, .W, 1, false, false⟩
  | .CFG_C3 => ⟨.POOL, 0x18, 0, 24, .RW, 0x8000, .W, 1, false, false⟩
  | .THAW_HANDLE => ⟨.POOL, 0x20, 0, 32, .WO, 0, .N, 1, false, false⟩
  | .FROZEN_HANDLE => ⟨.POOL, 0x24, 0, 32, .RO, 0, .N, 1, false, false⟩
  | .ECC_CE => ⟨.POOL, 0x28, 0, 16, .RC, 0, .N, 1, false, false⟩
  | .ECC_UE => ⟨.POOL, 0x28, 16, 16, .RC, 0, .N, 1, false, false⟩
  | .STAT_TOTAL => ⟨.POOLSTAT, 0x0, 0, 30, .RO, 0, .N, 1, false, false⟩
  | .STAT_FREE => ⟨.POOLSTAT, 0x4, 0, 30, .RO, 0, .N, 1, false, false⟩
  | .STAT_SHARED => ⟨.POOLSTAT, 0x8, 0, 30, .RO, 0, .N, 1, false, false⟩
  | .STAT_FROZEN => ⟨.POOLSTAT, 0xC, 0, 16, .RO, 0, .N, 1, false, false⟩
  | .STAT_REF_OVER => ⟨.POOLSTAT, 0x10, 0, 16, .RC, 0, .N, 1, false, false⟩
  | .STAT_FROZEN_OP => ⟨.POOLSTAT, 0x10, 16, 16, .RC, 0, .N, 1, false, false⟩
  | .STAT_BAD_HANDLE => ⟨.POOLSTAT, 0x14, 0, 16, .RC, 0, .N, 1, false, false⟩
  | .OWN_RSV => ⟨.OWN, 0x0, 0, 30, .RW, 0, .W, 1, false, false⟩
  | .OWN_MAX => ⟨.OWN, 0x4, 0, 30, .RW, 0x3FFFFFFF, .W, 1, false, false⟩
  | .OWN_USE => ⟨.OWN, 0x8, 0, 30, .RO, 0, .N, 1, false, false⟩
  | .OWN_DENY => ⟨.OWN, 0xC, 0, 32, .RC, 0, .N, 1, false, false⟩
  | .SPILL_THR => ⟨.SPILL, 0x0, 0, 20, .RW, 0, .W, 1, false, false⟩
  | .SPILL_REFILL_THR => ⟨.SPILL, 0x4, 0, 20, .RW, 0, .W, 1, false, false⟩
  | .SPILL_GRAN_DEPTH => ⟨.SPILL, 0x8, 0, 20, .RO, 0, .N, 1, false, false⟩
  | .SPILL_CEL_DEPTH => ⟨.SPILL, 0xC, 0, 20, .RO, 0, .N, 1, false, false⟩
  | .SPILL_DENY => ⟨.SPILL, 0x10, 0, 16, .RC, 0, .N, 1, false, false⟩
  | .SPILL_LOST => ⟨.SPILL, 0x10, 16, 16, .RC, 0, .N, 1, false, false⟩
  | .SPILL_REFILL_WAIT => ⟨.SPILL, 0x14, 0, 16, .RC, 0, .N, 1, false, false⟩

/-- Rows of the CEL block: Cellar, Table 8.10. -/
def CelF.desc : CelF → Desc
  | .CTL_ENG_SIZE => ⟨.CEL, 0x0, 0, 5, .RW, 4, .W, 1, false, false⟩
  | .STACK_STATE => ⟨.STACK, 0x0, 0, 3, .RO, 0, .N, 1, false, false⟩
  | .STACK_MARK => ⟨.STACK, 0x0, 8, 1, .W1S, 0, .H, 1, false, false⟩
  | .STACK_UE_LIM => ⟨.STACK, 0x0, 16, 8, .RW, 8, .W, 1, false, false⟩
  | .STACK_CE => ⟨.STACK, 0x4, 0, 16, .RC, 0, .N, 1, false, false⟩
  | .STACK_UE => ⟨.STACK, 0x4, 16, 16, .RC, 0, .N, 1, false, false⟩
  | .STACK_TEMP => ⟨.STACK, 0x8, 0, 8, .RO, 0, .N, 1, false, false⟩

/-- Rows of the ENG block: engines, Tables 9.14-9.19. -/
def EngF.desc : EngF → Desc
  | .CTL_CLK_EN => ⟨.ENG, 0x0, 0, 1, .RW, 0, .F, 1, false, false⟩
  | .CTL_MARK => ⟨.ENG, 0x0, 1, 1, .W1S, 0, .H, 1, false, false⟩
  | .CTL_UNUSABLE => ⟨.ENG, 0x0, 2, 1, .RO, 0, .H, 1, false, false⟩
  | .CTL_STOP_ALL => ⟨.ENG, 0x0, 3, 1, .W1S, 0, .N, 1, false, false⟩
  | .CTL_CINV => ⟨.ENG, 0x0, 4, 1, .W1S, 0, .N, 1, false, false⟩
  | .CTL_CINV_BUSY => ⟨.ENG, 0x0, 5, 1, .RO, 0, .N, 1, false, false⟩
  | .CTL_FRESET => ⟨.ENG, 0x0, 6, 1, .W1S, 0, .N, 1, false, false⟩
  | .CTL_WIPING => ⟨.ENG, 0x0, 7, 1, .RO, 0, .N, 1, false, false⟩
  | .CTL_CFG_REFUSED => ⟨.ENG, 0x0, 31, 1, .W1C, 0, .N, 1, false, false⟩
  | .STATUS_TSTATE => ⟨.ENG, 0x4, 0, 24, .RO, 0, .N, 1, false, false⟩
  | .TVEC => { grp := .ENG, off := 0x8, lsb := 0, width := 48, acc := .RW, reset := 0, surv := .F, vw := 2 }
  | .ECC_CE => ⟨.ENG, 0x10, 0, 16, .RC, 0, .N, 1, false, false⟩
  | .ECC_UE => ⟨.ENG, 0x10, 16, 16, .RC, 0, .N, 1, false, false⟩
  | .PWIN_PAGE => ⟨.ENG, 0x14, 0, 3, .RW, 0, .F, 1, false, false⟩
  | .QSTORE_FREE => ⟨.ENG, 0x18, 0, 13, .RO, 0x1000, .N, 1, false, false⟩
  | .THR_TCTL_START => ⟨.THR, 0x0, 0, 1, .W1S, 0, .N, 1, false, false⟩
  | .THR_TCTL_STOP => ⟨.THR, 0x0, 1, 1, .W1S, 0, .N, 1, false, false⟩
  | .THR_TCTL_RESUME => ⟨.THR, 0x0, 2, 1, .W1S, 0, .N, 1, false, false⟩
  | .THR_TCTL_CLEAR => ⟨.THR, 0x0, 3, 1, .W1S, 0, .N, 1, false, false⟩
  | .THR_TCTL_PRIV => ⟨.THR, 0x0, 4, 1, .RW, 0, .F, 1, false, false⟩
  | .THR_TCTL_HIPRI => ⟨.THR, 0x0, 5, 1, .RW, 0, .F, 1, false, false⟩
  | .THR_TCTL_STATE => ⟨.THR, 0x0, 8, 3, .RO, 0, .N, 1, false, false⟩
  | .THR_TCTL_REFUSED => ⟨.THR, 0x0, 31, 1, .W1C, 0, .N, 1, false, false⟩
  | .THR_TPC_PC => { grp := .THR, off := 0x8, lsb := 0, width := 48, acc := .RW, reset := 0, surv := .N, vw := 2 }
  | .THR_TCAUSE_CAUSE => ⟨.THR, 0x10, 0, 8, .RO, 0, .N, 1, false, false⟩
  | .THR_TCAUSE_INTRAP => ⟨.THR, 0x10, 8, 1, .RO, 0, .N, 1, false, false⟩
  | .THR_TEPC_EPC => { grp := .THR, off := 0x18, lsb := 0, width := 48, acc := .RO, reset := 0, surv := .N, vw := 2 }
  | .THR_TVAL_VAL => { grp := .THR, off := 0x20, lsb := 0, width := 64, acc := .RO, reset := 0, surv := .N, vw := 2 }
  | .EQ_MAX => ⟨.EQ, 0x0, 0, 13, .RW, 0x100, .F, 1, false, false⟩
  | .EQ_DEPTH => ⟨.EQ, 0x4, 0, 13, .RO, 0, .N, 1, false, false⟩
  | .EQ_DROP => ⟨.EQ, 0x8, 0, 32, .RC, 0, .N, 1, false, false⟩
  | .HATCH_SEND => ⟨.HATCH, 0x0, 0, 18, .RW, 0x3FFFF, .F, 1, false, false⟩
  | .HATCH_U_SEND => ⟨.HATCH, 0x0, 24, 1, .RW, 0, .F, 1, false, false⟩
  | .HATCH_FILL => ⟨.HATCH, 0x4, 0, 5, .RO, 0, .N, 1, false, false⟩
  | .HATCH_HREFUSED => ⟨.HATCH, 0x4, 8, 1, .W1C, 0, .N, 1, false, false⟩
  | .HATCH_FULL_CNT => ⟨.HATCH, 0x4, 16, 16, .RC, 0, .N, 1, false, false⟩
  | .HATCH_PUT => { grp := .HATCH, off := 0x8, lsb := 0, width := 64, acc := .WO, reset := 0, surv := .N, vw := 2 }
  | .CWIN_BASE => ⟨.CWIN, 0x0, 0, 20, .RW, 0, .F, 1, false, false⟩
  | .CWIN_SIZE => ⟨.CWIN, 0x4, 0, 21, .RW, 0, .F, 1, false, false⟩
  | .CWIN_R => ⟨.CWIN, 0x8, 0, 1, .RW, 0, .F, 1, false, false⟩
  | .CWIN_W => ⟨.CWIN, 0x8, 1, 1, .RW, 0, .F, 1, false, false⟩
  | .CWIN_EN => ⟨.CWIN, 0x8, 2, 1, .RW, 0, .F, 1, false, false⟩
  | .PATTR_U_R => ⟨.PATTR, 0x0, 0, 1, .RW, 0, .F, 1, false, false⟩
  | .PATTR_U_W => ⟨.PATTR, 0x0, 1, 1, .RW, 0, .F, 1, false, false⟩
  | .PATTR_U_X => ⟨.PATTR, 0x0, 2, 1, .RW, 0, .F, 1, false, false⟩
  | .PATTR_CODE => ⟨.PATTR, 0x0, 3, 1, .RO, 0, .F, 1, false, false⟩

/-- Rows of the GTH block: gather units, Tables 11.6-11.9. -/
def GthF.desc : GthF → Desc
  | .CTL_CFG_REFUSED => ⟨.GTH, 0x0, 31, 1, .W1C, 0, .N, 1, false, false⟩
  | .BAD_GBAD => ⟨.GTH, 0x4, 0, 32, .RC, 0, .N, 1, false, false⟩
  | .SPILL_USED => ⟨.GTH, 0x8, 0, 7, .RO, 0, .N, 1, false, false⟩
  | .ENG_GSHARE => ⟨.GTHENG, 0x0, 0, 5, .RW, 0x10, .W, 1, false, false⟩
  | .ENG_QDEPTH => ⟨.GTHENG, 0x4, 0, 10, .RO, 0, .N, 1, false, false⟩
  | .ENG_QFULL => ⟨.GTHENG, 0x8, 0, 32, .RC, 0, .N, 1, false, false⟩
  | .GRP_EN => { grp := .GRP, off := 0x0, lsb := 0, width := 1, acc := .RW, reset := 0, surv := .W, shadow := true }
  | .GRP_WBANK => { grp := .GRP, off := 0x0, lsb := 1, width := 1, acc := .RW, reset := 0, surv := .W, shadow := true }
  | .GRP_RED => ⟨.GRP, 0x0, 2, 2, .RW, 1, .W, 1, false, false⟩
  | .GRP_IN_TYPE => ⟨.GRP, 0x0, 4, 3, .RW, 5, .W, 1, false, false⟩
  | .GRP_WT_TYPE => ⟨.GRP, 0x0, 7, 1, .RW, 0, .W, 1, false, false⟩
  | .GRP_OUT_TYPE => ⟨.GRP, 0x0, 8, 3, .RW, 5, .W, 1, false, false⟩
  | .GRP_NOUT => ⟨.GRP, 0x0, 11, 2, .RW, 0, .W, 1, false, false⟩
  | .GRP_LATE_MODE => ⟨.GRP, 0x0, 13, 1, .RW, 0, .W, 1, false, false⟩
  | .GRP_EMIT_MODE => ⟨.GRP, 0x0, 14, 1, .RW, 0, .W, 1, false, false⟩
  | .GRP_EMIT_EMPTY => ⟨.GRP, 0x0, 15, 1, .RW, 0, .W, 1, false, false⟩
  | .GRP_EVICT => ⟨.GRP, 0x0, 16, 1, .RW, 0, .W, 1, false, false⟩
  | .GRP_SPILL => ⟨.GRP, 0x0, 17, 1, .RW, 1, .W, 1, false, false⟩
  | .GRP_BIN_HOME => ⟨.GRP, 0x0, 18, 1, .RW, 0, .W, 1, false, false⟩
  | .GRP_MAX_IDX => ⟨.GRP, 0x0, 19, 1, .RW, 0, .W, 1, false, false⟩
  | .GRP_SAMPLE_FMT => ⟨.GRP, 0x0, 20, 2, .RW, 0, .W, 1, false, false⟩
  | .GRP_PLEN => ⟨.GRP, 0x4, 0, 14, .RW, 0x400, .W, 1, false, false⟩
  | .GRP_PAY_REL => ⟨.GRP, 0x4, 16, 8, .RW, 0xC, .W, 1, false, false⟩
  | .GRP_CID_REL => ⟨.GRP, 0x4, 24, 8, .RW, 0xFF, .W, 1, false, false⟩
  | .GRP_ENG_MASK => ⟨.GRP, 0x8, 0, 8, .RW, 0, .W, 1, false, false⟩
  | .GRP_NSLOT => ⟨.GRP, 0x8, 8, 4, .RW, 4, .W, 1, false, false⟩
  | .GRP_OSHIFT => ⟨.GRP, 0x8, 12, 6, .RW, 0, .W, 1, false, false⟩
  | .GRP_WLEN_LOG => ⟨.GRP, 0x8, 18, 4, .RW, 0, .W, 1, false, false⟩
  | .GRP_BPER => ⟨.GRP, 0xC, 0, 30, .RW, 0x1000, .W, 1, false, false⟩
  | .GRP_DL_OFS => ⟨.GRP, 0x10, 0, 30, .RW, 0x2710, .W, 1, false, false⟩
  | .GRP_EMIT_OFS => ⟨.GRP, 0x14, 0, 30, .RW, 0, .W, 1, false, false⟩
  | .GRP_FUTURE => ⟨.GRP, 0x18, 0, 16, .RW, 0x10, .W, 1, false, false⟩
  | .GRP_LATE_MAX => ⟨.GRP, 0x18, 16, 16, .RW, 0x40, .W, 1, false, false⟩
  | .GRP_T0 => { grp := .GRP, off := 0x20, lsb := 0, width := 96, acc := .RW, reset := 0, surv := .W, vw := 3 }
  | .GRP_SPER => ⟨.GRP, 0x2C, 0, 32, .RW, 0, .W, 1, false, false⟩
  | .GRP_EXPECT => ⟨.GRP, 0x30, 0, 256, .RW, 0, .W, 1, false, false⟩
  | .GRP_BIN_BASE => ⟨.GRP, 0x50, 0, 22, .RW, 0, .W, 1, false, false⟩
  | .GRP_WBASE_A => ⟨.GRP, 0x54, 0, 22, .RW, 0, .W, 1, false, false⟩
  | .GRP_WBASE_B => ⟨.GRP, 0x58, 0, 22, .RW, 0, .W, 1, false, false⟩
  | .GRP_TPL_OFS => ⟨.GRP, 0x5C, 0, 22, .RW, 0, .W, 1, false, false⟩
  | .GRP_TPL_LEN => ⟨.GRP, 0x60, 0, 9, .RW, 0x40, .W, 1, false, false⟩
  | .GRP_GB_OFS => ⟨.GRP, 0x60, 16, 8, .RW, 0xE, .W, 1, false, false⟩
  | .GRP_RTAG_OFS => ⟨.GRP, 0x60, 24, 8, .RW, 0, .W, 1, false, false⟩
  | .GRP_OMETA_OFS => ⟨.GRP, 0x64, 0, 22, .RW, 0, .W, 1, false, false⟩
  | .GRP_STATE => ⟨.GRP, 0x68, 0, 2, .RO, 0, .N, 1, false, false⟩
  | .GRP_WBANK_APPLIED => ⟨.GRP, 0x68, 2, 1, .RO, 0, .N, 1, false, false⟩
  | .GRP_ENG_LIVE => ⟨.GRP, 0x68, 8, 8, .RO, 0, .N, 1, false, false⟩
  | .GRP_RELIVE => ⟨.GRP, 0x68, 16, 8, .W1S, 0, .N, 1, false, false⟩
  | .GRP_OPEN => ⟨.GRP, 0x68, 24, 8, .RO, 0, .N, 1, false, false⟩
  | .GRP_FLOOR => { grp := .GRP, off := 0x70, lsb := 0, width := 64, acc := .RO, reset := 0, surv := .N, vw := 2 }
  | .GCNT_EMIT_FULL => ⟨.GCNT, 0x0, 0, 32, .RC, 0, .N, 1, false, false⟩
  | .GCNT_EMIT_PART => ⟨.GCNT, 0x4, 0, 32, .RC, 0, .N, 1, false, false⟩
  | .GCNT_LATE => ⟨.GCNT, 0x8, 0, 32, .RC, 0, .N, 1, false, false⟩
  | .GCNT_SUPP => ⟨.GCNT, 0xC, 0, 32, .RC, 0, .N, 1, false, false⟩
  | .GCNT_DUP => ⟨.GCNT, 0x10, 0, 32, .RC, 0, .N, 1, false, false⟩
  | .GCNT_EARLY => ⟨.GCNT, 0x14, 0, 32, .RC, 0, .N, 1, false, false⟩
  | .GCNT_BAD_LEN => ⟨.GCNT, 0x18, 0, 32, .RC, 0, .N, 1, false, false⟩
  | .GCNT_NOT_EXP => ⟨.GCNT, 0x1C, 0, 32, .RC, 0, .N, 1, false, false⟩
  | .GCNT_OUT_RUN => ⟨.GCNT, 0x20, 0, 32, .RC, 0, .N, 1, false, false⟩
  | .GCNT_NO_SLOT => ⟨.GCNT, 0x24, 0, 32, .RC, 0, .N, 1, false, false⟩
  | .GCNT_SPILLED => ⟨.GCNT, 0x28, 0, 32, .RC, 0, .N, 1, false, false⟩
  | .GCNT_EVICTED => ⟨.GCNT, 0x2C, 0, 32, .RC, 0, .N, 1, false, false⟩
  | .GCNT_BIN_LOST => ⟨.GCNT, 0x30, 0, 32, .RC, 0, .N, 1, false, false⟩
  | .GCNT_SAT => ⟨.GCNT, 0x34, 0, 32, .RC, 0, .N, 1, false, false⟩
  | .GCNT_SKIPPED => ⟨.GCNT, 0x38, 0, 32, .RC, 0, .N, 1, false, false⟩
  | .GCNT_EMIT_LATE => ⟨.GCNT, 0x3C, 0, 32, .RC, 0, .N, 1, false, false⟩

/-- Rows of the TAL block: Tally, Table 16.9. -/
def TalF.desc : TalF → Desc
  | .CTR_LOC => ⟨.CTR, 0x0, 0, 32, .RW, 0, .N, 1, false, false⟩
  | .CTR_THR => ⟨.CTR, 0x4, 0, 20, .RW, 0, .N, 1, false, false⟩
  | .CTR_EN => ⟨.CTR, 0x8, 0, 1, .RW, 0, .N, 1, false, false⟩
  | .CTR_MODE => ⟨.CTR, 0x8, 1, 2, .RW, 0, .N, 1, false, false⟩
  | .CTR_SIG => ⟨.CTR, 0x8, 8, 8, .RW, 0, .N, 1, false, false⟩
  | .CTR_VAL => { grp := .CTR, off := 0x10, lsb := 0, width := 48, acc := .RO, reset := 0, surv := .N, vw := 2 }
  | .CTR_OVF => ⟨.CTR, 0x14, 31, 1, .RO, 0, .N, 1, false, false⟩
  | .CTR_PRELOAD => { grp := .CTR, off := 0x18, lsb := 0, width := 48, acc := .RW, reset := 0, surv := .N, vw := 2 }
  | .OVF => ⟨.TAL, 0x8000, 0, 512, .W1C, 0, .N, 1, false, false⟩
  | .CFG_REFUSED => ⟨.TAL, 0x9000, 0, 1, .W1C, 0, .N, 1, false, false⟩
  | .DUMP_EN => ⟨.TAL, 0x9004, 0, 1, .RW, 0, .N, 1, false, false⟩
  | .DUMP_LOC => ⟨.TAL, 0x9004, 1, 1, .RW, 0, .N, 1, false, false⟩
  | .DUMP_SLOTS_LOG => ⟨.TAL, 0x9004, 4, 4, .RW, 4, .N, 1, false, false⟩
  | .DUMP_PERIOD => ⟨.TAL, 0x9008, 0, 30, .RW, 0x3B9ACA00, .N, 1, false, false⟩
  | .DUMP_BASE => { grp := .TAL, off := 0x9010, lsb := 0, width := 64, acc := .RW, reset := 0, surv := .N, vw := 2 }
  | .DUMP_FIRST => ⟨.TAL, 0x9018, 0, 9, .RW, 0, .N, 1, false, false⟩
  | .DUMP_LAST => ⟨.TAL, 0x9018, 16, 9, .RW, 0x1FF, .N, 1, false, false⟩
  | .DUMP_SEQ => ⟨.TAL, 0x901C, 0, 32, .RO, 0, .N, 1, false, false⟩
  | .DUMP_SKIP => ⟨.TAL, 0x9020, 0, 16, .RC, 0, .N, 1, false, false⟩
  | .SAMP_EN => ⟨.SAMP, 0x0, 0, 1, .RW, 0, .N, 1, false, false⟩
  | .SAMP_LOC => ⟨.SAMP, 0x0, 1, 1, .RW, 0, .N, 1, false, false⟩
  | .SAMP_JITTER_LOG => ⟨.SAMP, 0x0, 4, 4, .RW, 8, .N, 1, false, false⟩
  | .SAMP_SIZE_LOG => ⟨.SAMP, 0x0, 8, 5, .RW, 0xA, .N, 1, false, false⟩
  | .SAMP_WM_LOG => ⟨.SAMP, 0x0, 16, 5, .RW, 8, .N, 1, false, false⟩
  | .SAMP_PERIOD => ⟨.SAMP, 0x4, 0, 32, .RW, 0x10000, .N, 1, false, false⟩
  | .SAMP_BASE => { grp := .SAMP, off := 0x8, lsb := 0, width := 64, acc := .RW, reset := 0, surv := .N, vw := 2 }
  | .SAMP_HEAD => ⟨.SAMP, 0x10, 0, 16, .RO, 0, .N, 1, false, false⟩
  | .SAMP_TAIL => ⟨.SAMP, 0x14, 0, 16, .RW, 0, .N, 1, false, false⟩
  | .SAMP_SAMPLES => { grp := .SAMP, off := 0x18, lsb := 0, width := 48, acc := .RO, reset := 0, surv := .N, vw := 2 }
  | .SAMP_LOST => ⟨.SAMP, 0x20, 0, 16, .RC, 0, .N, 1, false, false⟩

/-- Rows of the REE block: Reeve, Tables 14.15-14.17. -/
def ReeF.desc : ReeF → Desc
  | .STATUS_RSTATE => ⟨.REE, 0x0, 0, 2, .RO, 0, .N, 1, false, false⟩
  | .STATUS_CFG_REFUSED => ⟨.REE, 0x0, 31, 1, .W1C, 0, .N, 1, false, false⟩
  | .WDT_KICK => ⟨.REE, 0x4, 0, 8, .WO, 0, .N, 1, false, false⟩
  | .WDT_EN => ⟨.REE, 0x4, 8, 1, .RW, 1, .W, 1, false, false⟩
  | .WDT_MS => ⟨.REE, 0x4, 16, 16, .RW, 0x3E8, .W, 1, false, false⟩
  | .BOOT_CNT => { grp := .REE, off := 0x8, lsb := 0, width := 16, acc := .RO, reset := 0, surv := .H, nvm := true }
  | .BOOT_BANK => ⟨.REE, 0x8, 16, 1, .RO, 0, .N, 1, false, false⟩
  | .BOOT_RECOVERY => ⟨.REE, 0x8, 17, 1, .RO, 0, .N, 1, false, false⟩
  | .BOOT_WDT_TRIP => ⟨.REE, 0x8, 24, 4, .RC, 0, .H, 1, false, false⟩
  | .NONCE => ⟨.REE, 0x10, 0, 128, .RO, 0, .N, 1, false, false⟩
  | .LC_STATE => { grp := .REE, off := 0x20, lsb := 0, width := 3, acc := .RO, reset := 0, surv := .H, nvm := true }
  | .LC_ARMED => ⟨.REE, 0x20, 3, 1, .RO, 0, .H, 1, false, false⟩
  | .LC_SCAN_READY => ⟨.REE, 0x20, 4, 1, .RO, 0, .N, 1, false, false⟩
  | .LC_RETURN_USED => { grp := .REE, off := 0x20, lsb := 5, width := 3, acc := .RO, reset := 0, surv := .H, nvm := true }
  | .LC_SCAN_REFUSED => { grp := .REE, off := 0x20, lsb := 16, width := 16, acc := .RO, reset := 0, surv := .H, nvm := true }
  | .ARB_ENG => { grp := .REE, off := 0x24, lsb := 0, width := 8, acc := .RO, reset := 0, surv := .H, nvm := true }
  | .ARB_STG => { grp := .REE, off := 0x24, lsb := 8, width := 8, acc := .RO, reset := 0, surv := .H, nvm := true }
  | .ARB_REV => { grp := .REE, off := 0x24, lsb := 16, width := 8, acc := .RO, reset := 0, surv := .H, nvm := true }
  | .KEYS_BITS => ⟨.REE, 0x28, 0, 8, .RO, 0, .H, 1, false, false⟩
  | .BANK_STATE0 => ⟨.REE, 0x30, 0, 3, .RO, 0, .H, 1, false, false⟩
  | .BANK_STATE1 => ⟨.REE, 0x30, 4, 3, .RO, 0, .H, 1, false, false⟩
  | .BANK_TRIAL_CNT => ⟨.REE, 0x30, 8, 2, .RO, 0, .H, 1, false, false⟩
  | .BANK_CONFIRM => ⟨.REE, 0x30, 10, 1, .W1S, 0, .N, 1, false, false⟩
  | .BANK_CONFIRM_S => ⟨.REE, 0x30, 16, 16, .RW, 0x258, .W, 1, false, false⟩
  | .LBIST_VALID => ⟨.REE, 0x40, 0, 1, .RO, 0, .H, 1, false, false⟩
  | .LBIST_FULL => ⟨.REE, 0x40, 1, 1, .RO, 0, .H, 1, false, false⟩
  | .LBIST_FATAL => ⟨.REE, 0x40, 2, 1, .RO, 0, .H, 1, false, false⟩
  | .LBIST_AGE_H => ⟨.REE, 0x40, 8, 24, .RO, 0, .H, 1, false, false⟩
  | .LBIST_FAIL_ENG => ⟨.REE, 0x44, 0, 16, .RO, 0, .H, 1, false, false⟩
  | .LBIST_FAIL_PAIR => ⟨.REE, 0x44, 16, 8, .RO, 0, .H, 1, false, false⟩
  | .LBIST_FAIL_FATAL => ⟨.REE, 0x44, 24, 3, .RO, 0, .H, 1, false, false⟩
  | .LBIST_FAIL_STACK => ⟨.REE, 0x44, 28, 4, .RO, 0, .H, 1, false, false⟩
  | .LBIST_FAIL_UNIT => { grp := .REE, off := 0x48, lsb := 0, width := 64, acc := .RO, reset := 0, surv := .H, vw := 2 }
  | .LEDGER_HEAD => ⟨.REE, 0x400, 0, 13, .RO, 0, .H, 1, false, false⟩
  | .LEDGER_SEQ => ⟨.REE, 0x404, 0, 32, .RO, 0, .H, 1, false, false⟩
  | .ARCH_IDX => ⟨.REE, 0x408, 0, 17, .RW, 0, .N, 1, false, false⟩
  | .ARCH_WRAP => { grp := .REE, off := 0x40C, lsb := 0, width := 16, acc := .RO, reset := 0, surv := .H, nvm := true }
  | .ARCH_ENTRY => { grp := .REE, off := 0x420, lsb := 0, width := 256, acc := .RO, reset := 0, surv := .H, nvm := true }
  | .MBOX_WORD => ⟨.MBOX, 0x0, 0, 512, .WO, 0, .N, 1, false, false⟩
  | .MBOX_CODE => ⟨.MBOX, 0x40, 0, 4, .RO, 0, .N, 1, false, false⟩
  | .MBOX_BUSY => ⟨.MBOX, 0x40, 4, 1, .RO, 0, .N, 1, false, false⟩
  | .MBOX_DETAIL => ⟨.MBOX, 0x40, 8, 8, .RO, 0, .N, 1, false, false⟩
  | .MBOX_SEQ => ⟨.MBOX, 0x40, 16, 16, .RO, 0, .N, 1, false, false⟩
  | .MBOX_DATA => ⟨.MBOX, 0x44, 0, 224, .RO, 0, .N, 1, false, false⟩
  | .MBOX_CMD_LOST => ⟨.MBOX, 0x60, 0, 8, .RC, 0, .N, 1, false, false⟩
  | .TOKEN => ⟨.REE, 0x300, 0, 1280, .RW, 0, .N, 1, false, false⟩
  | .RING_ENTRY => ⟨.LEDRING, 0x0, 0, 256, .RO, 0, .H, 1, false, false⟩
  | .TEMP_T => ⟨.TEMP, 0x0, 0, 16, .RO, 0, .N, 1, false, false⟩
  | .TEMP_LIM_LO => ⟨.TEMP, 0x0, 16, 8, .RW, 0xD8, .W, 1, false, false⟩
  | .TEMP_LIM_HI => ⟨.TEMP, 0x0, 24, 8, .RW, 0x69, .W, 1, false, false⟩
  | .VOLT_V => ⟨.VOLT, 0x0, 0, 16, .RO, 0, .N, 1, false, false⟩
  | .PROC_F => ⟨.PROC, 0x0, 0, 24, .RO, 0, .N, 1, false, false⟩
  | .AGE_LOSS => { grp := .AGE, off := 0x0, lsb := 0, width := 16, acc := .RO, reset := 0, surv := .H, nvm := true }

/-- Rows of the WGH block: Weighhouse, Tables 13.10-13.13. -/
def WghF.desc : WghF → Desc
  | .STATUS_STATE => ⟨.WGH, 0x0, 0, 2, .RO, 0, .N, 1, false, false⟩
  | .STATUS_SEALED => ⟨.WGH, 0x0, 2, 1, .RO, 0, .H, 1, false, false⟩
  | .STATUS_BUSY => ⟨.WGH, 0x0, 3, 1, .RO, 0, .N, 1, false, false⟩
  | .STATUS_CAL_BAD => ⟨.WGH, 0x0, 4, 8, .RO, 0, .N, 1, false, false⟩
  | .STATUS_OVR_RATE => ⟨.WGH, 0x0, 12, 8, .RO, 0, .N, 1, false, false⟩
  | .STATUS_HOST_WR => ⟨.WGH, 0x0, 20, 8, .RC, 0, .N, 1, false, false⟩
  | .STATUS_CMD_LOST => ⟨.WGH, 0x0, 28, 4, .RC, 0, .N, 1, false, false⟩
  | .EVCNT => { grp := .WGH, off := 0x8, lsb := 0, width := 32, acc := .RO, reset := 0, surv := .H, nvm := true }
  | .ATTEMPT => { grp := .WGH, off := 0xC, lsb := 0, width := 32, acc := .RO, reset := 0, surv := .H, nvm := true }
  | .HEAD_RECNO => { grp := .WGH, off := 0x10, lsb := 0, width := 64, acc := .RO, reset := 0, surv := .H, vw := 2 }
  | .FW_ID => ⟨.WGH, 0x40, 0, 256, .RO, 0, .H, 1, false, false⟩
  | .PUBKEY => ⟨.WGH, 0x60, 0, 512, .RO, 0, .H, 1, false, false⟩
  | .KEY_ID => { grp := .WGH, off := 0xA0, lsb := 0, width := 64, acc := .RO, reset := 0, surv := .H, vw := 2 }
  | .INSTR_ID => { grp := .WGH, off := 0x100, lsb := 0, width := 128, acc := .RO, reset := 0, surv := .H, nvm := true }
  | .IN_DLY => { grp := .WGHDLY, off := 0x0, lsb := 0, width := 32, acc := .RO, reset := 0, surv := .H, nvm := true }
  | .IN_THR => { grp := .WGHTHR, off := 0x0, lsb := 0, width := 13, acc := .RO, reset := 0x190, surv := .H, nvm := true }
  | .LEGAL_SLOTS => { grp := .WGH, off := 0x130, lsb := 0, width := 4, acc := .RO, reset := 0, surv := .H, nvm := true }
  | .TB_REQ => { grp := .WGH, off := 0x134, lsb := 0, width := 1, acc := .RO, reset := 0, surv := .H, nvm := true }
  | .CMD_WORD => ⟨.WGH, 0x400, 0, 512, .WO, 0, .N, 1, false, false⟩
  | .RSP_CODE => ⟨.WGH, 0x440, 0, 3, .RO, 0, .N, 1, false, false⟩
  | .RSP_DETAIL => ⟨.WGH, 0x440, 8, 8, .RO, 0, .N, 1, false, false⟩
  | .RSP_SEQ => ⟨.WGH, 0x440, 16, 16, .RO, 0, .N, 1, false, false⟩
  | .RSP_DATA => ⟨.WGH, 0x444, 0, 224, .RO, 0, .N, 1, false, false⟩
  | .SLOT_TYPE => ⟨.WSLOT, 0x0, 0, 3, .RO, 0, .H, 1, false, false⟩
  | .SLOT_SRC_A => ⟨.WSLOT, 0x0, 3, 3, .RO, 0, .H, 1, false, false⟩
  | .SLOT_SRC_B => ⟨.WSLOT, 0x0, 6, 3, .RO, 0, .H, 1, false, false⟩
  | .SLOT_PS_A => ⟨.WSLOT, 0x0, 9, 2, .RO, 0, .H, 1, false, false⟩
  | .SLOT_PS_B => ⟨.WSLOT, 0x0, 11, 2, .RO, 0, .H, 1, false, false⟩
  | .SLOT_MODE => ⟨.WSLOT, 0x0, 13, 1, .RO, 0, .H, 1, false, false⟩
  | .SLOT_RUNSTATE => ⟨.WSLOT, 0x0, 14, 2, .RO, 0, .H, 1, false, false⟩
  | .SLOT_GATE => ⟨.WSLOT, 0x4, 0, 14, .RO, 0x3E8, .H, 1, false, false⟩
  | .SLOT_IV_MAX => ⟨.WSLOT, 0x8, 0, 24, .RO, 0xF4240, .H, 1, false, false⟩
  | .SLOT_COUNT_N => ⟨.WSLOT, 0xC, 0, 32, .RO, 0, .H, 1, false, false⟩
  | .SLOT_MADE => ⟨.WSLOT, 0x10, 0, 32, .RO, 0, .H, 1, false, false⟩
  | .RECORD => ⟨.WREC, 0x0, 0, 1536, .RO, 0, .H, 1, false, false⟩
  | .LOG_ENTRY => { grp := .WLOG, off := 0x0, lsb := 0, width := 256, acc := .RO, reset := 0, surv := .H, nvm := true }

/-- Rows of the HRT block: Hearth, Tables 15.7, 15.8, 18.11. -/
def HrtF.desc : HrtF → Desc
  | .PWR_REQ_HEARTH => ⟨.HRT, 0x0, 0, 1, .RO, 1, .H, 1, false, false⟩
  | .PWR_REQ => ⟨.HRT, 0x0, 1, 9, .RW, 3, .H, 1, false, false⟩
  | .PWR_REQ_RAILS_OFF => ⟨.HRT, 0x0, 16, 1, .RW, 0, .H, 1, false, false⟩
  | .PWR_REQ_CFG_REFUSED => ⟨.HRT, 0x0, 31, 1, .W1C, 0, .N, 1, false, false⟩
  | .PWR_STAT_STATE => ⟨.HRT, 0x4, 0, 20, .RO, 3, .N, 1, false, false⟩
  | .CTX_CONTEXT_LOST => ⟨.HRT, 0x8, 0, 10, .W1C, 0x3FF, .H, 1, false, false⟩
  | .SUPPLY_CAUTION => ⟨.HRT, 0x10, 0, 1, .RO, 0, .N, 1, false, false⟩
  | .SUPPLY_RAIL => ⟨.HRT, 0x10, 4, 3, .RO, 0, .H, 1, false, false⟩
  | .SUPPLY_GOOD => ⟨.HRT, 0x10, 8, 8, .RO, 0, .N, 1, false, false⟩
  | .SUPPLY_VID => ⟨.HRT, 0x10, 16, 5, .RO, 0, .N, 1, false, false⟩
  | .VMIN => ⟨.HRT, 0x14, 0, 16, .RO, 0, .H, 1, false, false⟩
  | .VMIN_CAUTION_CNT => ⟨.HRT, 0x14, 16, 16, .RC, 0, .H, 1, false, false⟩
  | .LINE_PD_POWERED => ⟨.HRT, 0x20, 0, 1, .RO, 0, .N, 1, false, false⟩
  | .LINE_SRC => ⟨.HRT, 0x20, 1, 2, .RO, 0, .N, 1, false, false⟩
  | .LINE_CLASS => ⟨.HRT, 0x20, 4, 4, .RO, 0, .N, 1, false, false⟩
  | .CLK_XTAL_OK => ⟨.HRT, 0x30, 0, 1, .RO, 0, .N, 1, false, false⟩
  | .CLK_HSRC => ⟨.HRT, 0x30, 1, 1, .RO, 0, .H, 1, false, false⟩
  | .CLK_HCLK_RETRY => ⟨.HRT, 0x30, 2, 1, .W1S, 0, .N, 1, false, false⟩
  | .CLK_OCXO_PRESENT => ⟨.HRT, 0x30, 3, 1, .RO, 0, .N, 1, false, false⟩
  | .CLK_XTAL_LOSS => ⟨.HRT, 0x30, 16, 16, .RC, 0, .H, 1, false, false⟩
  | .RESET_LAST => ⟨.HRT, 0x40, 0, 4, .RO, 0, .H, 1, false, false⟩
  | .RESET_WARM_CNT => ⟨.HRT, 0x44, 0, 16, .RC, 0, .H, 1, false, false⟩
  | .RESET_SUPPLY_CNT => ⟨.HRT, 0x44, 16, 16, .RC, 0, .H, 1, false, false⟩
  | .WAKE_EN => ⟨.HRT, 0x50, 0, 1, .RW, 0, .H, 1, false, false⟩
  | .WAKE_PIN_EN => ⟨.HRT, 0x50, 1, 1, .RW, 1, .H, 1, false, false⟩
  | .WAKE_AT_T => { grp := .HRT, off := 0x58, lsb := 0, width := 96, acc := .RW, reset := 0, surv := .H, vw := 3 }
  | .COARSE_TIME => { grp := .HRT, off := 0x70, lsb := 0, width := 96, acc := .RO, reset := 0, surv := .H, vw := 3 }
  | .COARSE_ST_VALID => ⟨.HRT, 0x7C, 0, 1, .RO, 0, .H, 1, false, false⟩
  | .LIFEH_HOURS => { grp := .LIFEH, off := 0x0, lsb := 0, width := 32, acc := .RO, reset := 0, surv := .H, nvm := true }
  | .LIFE_EQ_EQUIV => { grp := .HRT, off := 0x120, lsb := 0, width := 32, acc := .RO, reset := 0, surv := .H, nvm := true }
  | .LIFE_MAX_TJ_MAX => { grp := .HRT, off := 0x124, lsb := 0, width := 16, acc := .RO, reset := 0x8000, surv := .H, nvm := true }
  | .LIFE_ST_VID_CAP => { grp := .HRT, off := 0x128, lsb := 0, width := 1, acc := .RO, reset := 0, surv := .H, nvm := true }
  | .LIFE_ST_BUDGET_OUT => { grp := .HRT, off := 0x128, lsb := 1, width := 1, acc := .RO, reset := 0, surv := .H, nvm := true }
  | .LIFE_ST_TRIP_CNT => { grp := .HRT, off := 0x128, lsb := 16, width := 16, acc := .RO, reset := 0, surv := .H, nvm := true }

/-- Rows of the TWN block: twins and timing trees, Tables 12.6-12.9. -/
def TwnF.desc : TwnF → Desc
  | .CTL_ROLE => { grp := .TWN, off := 0x0, lsb := 0, width := 2, acc := .RW, reset := 0, surv := .W, shadow := true }
  | .CTL_AUTO_TAKE => ⟨.TWN, 0x0, 5, 1, .RW, 0, .W, 1, false, false⟩
  | .CTL_RELINQ_UNLOCK => ⟨.TWN, 0x0, 6, 1, .RW, 0, .W, 1, false, false⟩
  | .CTL_AUTO_RESTORE => ⟨.TWN, 0x0, 7, 1, .RW, 0, .W, 1, false, false⟩
  | .CTL_SWAP_FAIL => ⟨.TWN, 0x0, 8, 1, .W1C, 0, .N, 1, false, false⟩
  | .CTL_CFG_REFUSED => ⟨.TWN, 0x0, 31, 1, .W1C, 0, .N, 1, false, false⟩
  | .CFG_TWIN_ID => ⟨.TWN, 0x4, 0, 1, .RW, 0, .W, 1, false, false⟩
  | .CFG_TMO => ⟨.TWN, 0x4, 8, 8, .RW, 0xA, .W, 1, false, false⟩
  | .CFG_ALIGN_THR => ⟨.TWN, 0x4, 16, 8, .RW, 0x14, .W, 1, false, false⟩
  | .CFG_ALIGN_CYC => ⟨.TWN, 0x4, 24, 8, .RW, 0x10, .W, 1, false, false⟩
  | .STATUS_ROLE_APPLIED => ⟨.TWN, 0x8, 0, 2, .RO, 0, .N, 1, false, false⟩
  | .STATUS_LINK => ⟨.TWN, 0x8, 2, 2, .RO, 0, .N, 1, false, false⟩
  | .STATUS_TSTATE => ⟨.TWN, 0x8, 4, 3, .RO, 0, .N, 1, false, false⟩
  | .STATUS_PEER_ROLE => ⟨.TWN, 0x8, 7, 2, .RO, 0, .N, 1, false, false⟩
  | .STATUS_CFG_MISMATCH => ⟨.TWN, 0x8, 9, 1, .RO, 0, .N, 1, false, false⟩
  | .STATUS_ROLE_GEN => ⟨.TWN, 0x8, 16, 16, .RO, 0, .H, 1, false, false⟩
  | .SWAP_T => { grp := .TWN, off := 0x10, lsb := 0, width := 96, acc := .RW, reset := 0, surv := .N, vw := 3 }
  | .SWAP_GO => ⟨.TWN, 0x1C, 0, 1, .W1S, 0, .N, 1, false, false⟩
  | .TW_KP => ⟨.TWN, 0x20, 0, 32, .RW, 0x4000, .W, 1, false, false⟩
  | .TW_KI => ⟨.TWN, 0x24, 0, 32, .RW, 0x100, .W, 1, false, false⟩
  | .TW_ASYM => ⟨.TWNASYM, 0x0, 0, 32, .RWL, 0, .W, 1, false, false⟩
  | .OFS => { grp := .TWN, off := 0x30, lsb := 0, width := 64, acc := .RO, reset := 0, surv := .N, vw := 2 }
  | .TWN_I => { grp := .TWN, off := 0x38, lsb := 0, width := 48, acc := .RO, reset := 0, surv := .N, vw := 2 }
  | .TWN_DOSC => { grp := .TWN, off := 0x40, lsb := 0, width := 48, acc := .RO, reset := 0, surv := .H, vw := 2 }
  | .CNT_RX_BAD => ⟨.TWN, 0x48, 0, 16, .RC, 0, .N, 1, false, false⟩
  | .CNT_STATE_MISS => ⟨.TWN, 0x48, 16, 16, .RC, 0, .N, 1, false, false⟩
  | .COPY => ⟨.TWN, 0x100, 0, 832, .RO, 0, .N, 1, false, false⟩
  | .WATCH_STREAM => ⟨.WATCH, 0x0, 0, 8, .RW, 0, .W, 1, false, false⟩
  | .WATCH_PORT => ⟨.WATCH, 0x0, 8, 7, .RW, 0, .W, 1, false, false⟩
  | .WATCH_EN => ⟨.WATCH, 0x0, 15, 1, .RW, 0, .W, 1, false, false⟩
  | .WATCH_SEQ_LOSS => ⟨.WATCH, 0x4, 0, 16, .RW, 0x40, .W, 1, false, false⟩
  | .WATCH_LAST_SEQ => ⟨.WATCH, 0x8, 0, 16, .RO, 0, .N, 1, false, false⟩
  | .WATCH_LOST => ⟨.WATCH, 0x8, 31, 1, .RO, 0, .N, 1, false, false⟩
  | .SNAP_CMD_SAVE => ⟨.TWN, 0x300, 0, 1, .W1S, 0, .N, 1, false, false⟩
  | .SNAP_CMD_RESTORE => ⟨.TWN, 0x300, 1, 1, .W1S, 0, .N, 1, false, false⟩
  | .SNAP_CMD_SNAP_LOC => ⟨.TWN, 0x300, 2, 1, .RW, 0, .W, 1, false, false⟩
  | .SNAP_CMD_SNAP_SEL => ⟨.TWN, 0x300, 8, 7, .RW, 0, .W, 1, false, false⟩
  | .SNAP_ADDR => { grp := .TWN, off := 0x308, lsb := 0, width := 64, acc := .RW, reset := 0, surv := .W, vw := 2 }
  | .SNAP_STAT_BUSY => ⟨.TWN, 0x310, 0, 1, .RO, 0, .N, 1, false, false⟩
  | .SNAP_STAT_CODE => ⟨.TWN, 0x310, 1, 3, .RO, 0, .N, 1, false, false⟩
  | .SNAP_LEN => ⟨.TWN, 0x314, 0, 32, .RO, 0, .N, 1, false, false⟩
  | .TRE_L4 => ⟨.TWN, 0x800, 0, 2, .RW, 0, .W, 1, false, false⟩
  | .TRE_REG_EN => ⟨.TWN, 0x800, 2, 1, .RW, 0, .W, 1, false, false⟩
  | .TRE_TOO_DEEP => ⟨.TWN, 0x800, 3, 1, .RO, 0, .N, 1, false, false⟩
  | .TRE_ETYPE => ⟨.TWN, 0x800, 16, 16, .RW, 0, .W, 1, false, false⟩
  | .TRE_UDP => ⟨.TWN, 0x804, 0, 16, .RW, 0, .W, 1, false, false⟩
  | .TRE_NODE => ⟨.TWN, 0x808, 0, 16, .RW, 0, .W, 1, false, false⟩
  | .TRE_MGR_NODE => ⟨.TWN, 0x808, 16, 16, .RW, 0, .W, 1, false, false⟩
  | .TRE_UP_PORT => ⟨.TWN, 0x80C, 0, 7, .RW, 0x7F, .W, 1, false, false⟩
  | .TRE_DOWN_MASK => { grp := .TWN, off := 0x810, lsb := 0, width := 72, acc := .RW, reset := 0, surv := .W, vw := 3 }
  | .TRE_DA => { grp := .TWN, off := 0x820, lsb := 0, width := 48, acc := .RW, reset := 0xFFFFFFFFFFFF, surv := .W, vw := 2 }
  | .TRE_DROP => ⟨.TWN, 0x828, 0, 32, .RC, 0, .N, 1, false, false⟩
  | .STRM_DA => { grp := .STRM, off := 0x0, lsb := 0, width := 48, acc := .RW, reset := 0, surv := .W, vw := 2 }
  | .STRM_VID => ⟨.STRM, 0x4, 16, 12, .RW, 0xFFF, .W, 1, false, false⟩
  | .STRM_EN => ⟨.STRM, 0x4, 31, 1, .RW, 0, .W, 1, false, false⟩
  | .STRM_WINDOW => ⟨.STRM, 0x8, 0, 16, .RW, 0x40, .W, 1, false, false⟩
  | .STRM_RESET_MS => ⟨.STRM, 0x8, 16, 16, .RW, 0x64, .W, 1, false, false⟩
  | .STRM_RECOV_SEQ => ⟨.STRM, 0xC, 0, 16, .RO, 0, .N, 1, false, false⟩
  | .SCNT_PASSED => ⟨.SCNT, 0x0, 0, 32, .RC, 0, .N, 1, false, false⟩
  | .SCNT_DISCARD => ⟨.SCNT, 0x4, 0, 32, .RC, 0, .N, 1, false, false⟩
  | .SCNT_ROGUE => ⟨.SCNT, 0x8, 0, 32, .RC, 0, .N, 1, false, false⟩
  | .SCNT_UNTAGGED => ⟨.SCNT, 0xC, 0, 16, .RC, 0, .N, 1, false, false⟩
  | .SCNT_RESETS => ⟨.SCNT, 0xC, 16, 16, .RC, 0, .N, 1, false, false⟩

/-- The register-table row of a field. -/
def Fld.desc : Fld → Desc
  | .glb f => f.desc
  | .cri f => f.desc
  | .bell f => f.desc
  | .sel f => f.desc
  | .stamp f => f.desc
  | .lane f => f.desc
  | .quad f => f.desc
  | .mod f => f.desc
  | .surv f => f.desc
  | .port f => f.desc
  | .core f => f.desc
  | .pool f => f.desc
  | .cel f => f.desc
  | .eng f => f.desc
  | .gth f => f.desc
  | .tal f => f.desc
  | .ree f => f.desc
  | .wgh f => f.desc
  | .hrt f => f.desc
  | .twn f => f.desc

/-- All fields of the GLB block, in table order. -/
def GlbF.all : List GlbF :=
  List.flatten [
    [.CLK_EN_QUAD, .CLK_EN_SPUR, .CLK_EN_TWIN, .CLK_EN_STAMP, .CLK_EN_TAL, .CLK_EN_MOD, .CLK_EN_GTH, .CLK_EN_SURV,
     .CLK_EN_CEL, .CLK_EN_REFUSED, .FRESET_LOC, .ID],
    [.VARIANT, .VARIANT_STEP, .VARIANT_HSTEP, .QUADS, .ENGINES, .STACKS, .SPURS, .TWINS, .WEIGH, .DEVICE_UID,
     .PCI_SPEED, .PCI_WIDTH],
    [.PCI_LINK_RESETS, .JTAG_HELD, .RESET_WARM, .RESET_KEY, .RESET_ST_KEY_ERR, .MODE_TARGET, .MODE_ROLE, .MODE,
     .COMMIT_CTL_OP, .COMMIT_CTL_GEN, .COMMIT_T, .COMMIT_GRACE],
    [.COMMIT_STATE, .COMMIT_STATE_SHADOW_REFUSED, .COMMIT_STATE_CFG_REFUSED, .INT_MERGED, .DEV_GEN, .COMMIT_PEND,
     .COMMIT_PART, .COMMIT_VEC, .COMMIT_LATE, .COMMIT_SPLIT, .COMMIT_MARK, .DMA_CFG_RX_EN],
    [.DMA_CFG_TX_EN, .DMA_CFG_RX_SIZE_LOG, .DMA_CFG_TX_SIZE_LOG, .DMA_CFG_WEIGHT, .DMA_CFG_REFUSED, .DMA_RX_BASE,
     .DMA_TX_BASE, .DMA_RXHT_HEAD, .DMA_RXHT_TAIL, .DMA_TXHT_HEAD, .DMA_TXHT_TAIL, .DMA_RXDROP]]

/-- All fields of the CRI block, in table order. -/
def CriF.all : List CriF :=
  List.flatten [
    [.LIVE, .LATCH, .EN, .MASK, .FOLD, .PORT_LIVE, .PORT_LATCH, .PORT_EN, .PORT_MASK, .VMAP, .PVMAP, .VEC_PEND],
    [.VEC_REARM, .VEC_HOLD, .PIN_VEC, .PSUM, .RING_EN, .RING_SIZE, .RING_CFG_REFUSED, .RING_RBASE, .RING_HEAD,
     .RING_TAIL, .RING_LOST, .RFIFO_LOST],
    [.RFIFO]]

/-- All fields of the BELL block, in table order. -/
def BellF.all : List BellF :=
  List.flatten [
    [.CTL_SERVO_ENG, .CTL_CYCLE, .CTL_DL, .CTL_SERVO_SRC, .CTL_CFG_REFUSED, .STATUS_STEPPED, .STATUS_STEPPING,
     .STATUS_SRC_APPLIED, .STATUS_NCO_SRC, .STATUS_JSTATE, .STATUS_MISS_CNT, .STATUS_FREQ_CLAMPED],
    [.STATUS_STEP_REFUSED, .STATUS_AUTH_REFUSED, .STATUS_GATE_CAUTION, .NOW, .FREQ_NOW, .FW_UPD_FREQ, .FW_UPD_SEQ,
     .CYCLE_NUM, .SERVO_CNT_SEQ_ERR, .SERVO_CNT_LATE_UPD, .STEP_CTL_REQ, .STEP_CTL_KIND],
    [.STEP_OFS, .STEP_TIME, .STEP_T, .STEP_LAST_SUB, .STEP_LAST_GEN, .STEP_AUTH_GEN, .JUMP_CFG_THR,
     .JUMP_CFG_PERSIST, .JUMP_GEN, .CLEAR_CNT, .JUMP_OFS, .HWS_KP],
    [.HWS_KI, .HWS_I, .GATE_ACC, .GATE_REF, .GATE_DISC, .GATE_OVR, .RING_BASE, .LEAP_UTC_OFS, .LEAP61, .LEAP59,
     .LEAP_UTC_VALID, .LEAP_TIME_TRACEABLE],
    [.LEAP_FREQ_TRACEABLE, .LEAP_TIME_SOURCE, .LEAP_AT_SEC, .MEAS_OFS, .MEAS_AT, .MEAS_SRC, .REP_DLY, .REP_VALID,
     .REP_FAULT]]

/-- All fields of the SEL block, in table order. -/
def SelF.all : List SelF :=
  List.flatten [
    [.CTL_REVERTIVE, .CTL_QL_OPT, .CTL_FORCE_EN, .CTL_FORCE_SLOT, .CTL_CFG_REFUSED, .AGREE, .TIMES_WTR, .TIMES_GUARD,
     .TIMES2_GUARD_SHORT, .TIMES2_LOCK_CYC, .TIMES2_LOCK_THR, .STATUS_STATE],
    [.STATUS_ACTIVE, .STATUS_SELECTED, .STATUS_CONFLICT, .STATUS_FORCED, .STATUS_SWITCH_CNT, .ESMC_TX_EN,
     .ESMC_HOLD_QL, .SLOT_CFG_ENABLE, .SLOT_CFG_SRC, .SLOT_CFG_PRIO, .SLOT_CFG_USE_FOLLOW, .SLOT_CFG_USE_LEAD],
    [.SLOT_CFG_QOVR_EN, .SLOT_CFG_QOVR, .SLOT_CFG_LOCKOUT, .SLOT_CFG_SCALE, .SLOT_CFG_ACC_MAX, .SLOT_RDIV,
     .SLOT_FNOM, .SLOT_SOFT, .SLOT_HARD, .SLOT_DRIFT, .SLOT_STAT_SSTATE, .SLOT_STAT_CAUSE],
    [.SLOT_STAT_QRANK, .SLOT_STAT_RX_QL, .SLOT_STAT_WV, .SLOT_STAT_DRATE_V, .SLOT_STAT_SOFT_HIT, .SLOT_STAT_OUTVOTED,
     .SLOT_Y, .SLOT_DRATE, .SLOT_WTR_LEFT, .SLOT_SRC_ID, .SLOT_PHASE, .HOLD_CFG_OSC_MODE],
    [.HOLD_CFG_TSENS, .HOLD_CFG_AGE_FIT, .HOLD_CFG_HIST_MIN, .HOLD_LIM_TE_MAX, .HOLD_LIM_T_MAX, .HOLD_TC, .HOLD_TC_U,
     .HOLD_AGE, .HOLD_DAC_K, .HOLD_DAC_CODE, .HOLD_DAC_XFER, .HOLD_STAT_HIST_VALID],
    [.HOLD_STAT_EXPIRED, .HOLD_STAT_AGE_FITTED, .HOLD_HIST_S, .HOLD_Y0, .HOLD_U_Y, .HOLD_U_A, .HOLD_T0, .HOLD_B,
     .HOLD_ELAPSED, .HOLD_NOM, .HOLD_NOM_T, .DPLL_LOOP],
    [.DPLL_BW, .OPLL_IN_SCALE, .OSTAT_LOCK, .OSTAT_UNLOCK_CNT, .TOUT_CTL_EN, .TOUT_CTL_MODE, .TOUT_CTL_TKIND,
     .TOUT_CTL_SQUELCH, .TOUT_DIV, .TOUT_DLY_COARSE, .TOUT_DLY_FINE, .TOUT_TRIG_T],
    [.TOUT_TRIG_W_WIDTH, .TOUT_TRIG_N_COUNT, .TOUT_TRIG_CTL_ARM, .TOUT_TRIG_CTL_ARMED, .TOUT_TRIG_CTL_DISARM,
     .TOUT_TRIG_CTL_MISSED, .TOUT_TRIG_CTL_DONE, .TOUT_STAT_ACTIVE, .TOUT_STAT_SQUELCHED, .TOUT_STAT_TAP,
     .TOUT_STAT_RESID, .PPS_CTL_EN],
    [.PPS_CTL_SQUELCH, .PPS_WIDTH, .PPS_DLY_COARSE, .PPS_DLY_FINE, .TOD_EN, .TOD_SRC, .TOD_BAUD, .TOD_START,
     .TOD_SENT, .ECAP_CFG_EN, .ECAP_CFG_EDGE, .ECAP_CFG_IV_MODE],
    [.ECAP_CAB_DLY, .ECAP_IVMAX_IV_MAX, .ECAP_TIME, .ECAP_FLAGS_GEN, .ECAP_FLAGS_RISE, .ECAP_FLAGS_CAUTION,
     .ECAP_FLAGS_VOID, .ECAP_FLAGS_VALID, .ECAP_FLAGS_IV, .ECAP_FLAGS_WITHIN_RES, .ECAP_FLAGS_NEG, .ECAP_FILL_LEVEL],
    [.ECAP_CNT_DEAD, .ECAP_CNT_OVERRUN, .ECAP_CNT_ORDER, .ECAP_CNT_TIMEOUT, .ECAP_CNT2_RESTART]]

/-- All fields of the STAMP block, in table order. -/
def StampF.all : List StampF :=
  List.flatten [
    [.CTL_EN, .CTL_CFG_REFUSED, .CLKID, .CNT_CF_SAT, .CNT_RATE_DROP, .DOM_DOMAIN_NUM, .DOM_MAJOR_SDO, .DOM_MINOR_SDO,
     .DOM_RATE_OFS, .OBS_CFG_EN, .OBS_CFG_PORT, .OBS_CFG_DOM],
    [.OBS_CFG_MECH, .OBS_CFG_STALE, .OBS_PARENT, .OBS_OFS, .OBS_MPD, .OBS_ANN_CLASS, .OBS_ANN_ACC, .OBS_ANN_LOG_INT,
     .OBS_CNT_EXCH, .OBS_CNT_OBS_DISC, .SPORT_CFG_RING_EN, .SPORT_CFG_RING_LOC],
    [.SPORT_CFG_RING_ENG, .SPORT_CFG_RING_SIZE, .SPORT_CFG_PDR_MODE, .SPORT_CFG_PDR_DOM, .SPORT_RBASE, .SPORT_HEAD,
     .SPORT_TAIL, .SPORT_CNT_LOST, .SPORT_CNT_VOID_STOMP, .SPORT_CNT2_NOROLE, .SPORT_CNT2_DESC_ERR,
     .SPORT_CNT2_NO_TRAILER],
    [.SPORT_CNT2_PLANE_OFF, .SPORT_PEER_DLY, .SPORT_PDR_DROP]]

/-- All fields of the LANE block, in table order. -/
def LaneF.all : List LaneF :=
  List.flatten [
    [.CTL_MODE, .CTL_FEC, .CTL_MEDIUM, .CTL_TX_REF, .CTL_TX_POL, .CTL_RX_POL, .CTL_LOOPBACK, .CTL_TX_IDLE,
     .CTL_CFG_REFUSED, .STATUS_CDR_LOCK, .STATUS_BLOCK_LOCK, .STATUS_AM_LOCK],
    [.STATUS_FEC_LOCK, .STATUS_LINK_UP, .STATUS_SIG_DET, .STATUS_RX_IDLE, .STATUS_TX_IDLE_ST, .STATUS_AN_DONE,
     .STATUS_LT_DONE, .STATUS_AN_MISMATCH, .STATUS_MOD_PRESENT, .STATUS_TX_REF_APPLIED, .STATUS_EFF_MODE, .RAW_DIV],
    [.RAW_VCO, .TXEQ_PRE3, .TXEQ_PRE2, .TXEQ_PRE1, .TXEQ_MAIN, .TXEQ_POST1, .TXEQ_POST2, .RXEQ_CTLE, .RXEQ_CTLE_AUTO,
     .RXEQ_DFE_AUTO, .RXEQ_FREEZE, .RXEQ_DFE_SEL],
    [.RXEQ_DFE_VAL, .EYE_W, .EYE_H, .EYE_WORST, .EYE_AGE, .EYE_VALID, .ALIGN_WORD_OFS, .ALIGN_GBX_PHASE, .ALIGN_GEN,
     .ALIGN_VALID, .ALIGN_FEC_POS, .ALIGN_AM_POS],
    [.SLIP, .SLIP_BUSY, .SLIP_REFUSED, .RM_SKIP_INTERVAL, .RM_CNT_INS, .RM_CNT_DEL, .TWIN_MAX_RATE, .TWIN_CUR_RATE,
     .TWIN_TSTATE, .TWIN_FAIL1, .TWIN_FAIL2, .PHASE_TX_PHASE],
    [.PHASE_RX_PHASE, .PHASE_PH_VALID, .TERM_RX_WORD, .TERM_TX_WORD, .TERM_RX_GBX, .TERM_TX_GBX, .TERM_RX_FEC,
     .TERM_TX_FEC, .TERM_RX_AM, .TERM_TX_AM, .TERM_RX_TERM_VALID, .TERM_TX_TERM_VALID],
    [.FIX_RX_A, .FIX_TX_A, .CAL_SET_LO, .CAL_SET_HI, .CAL_TEMP, .CAL_DEG, .CAL_NONE, .CAL_EXTRAP, .RESID,
     .RESID_VALID, .BRD_TX, .BRD_RX],
    [.MOD_TX, .MOD_RX, .DLY_CFG_MOD_SRC, .DLY_CFG_RESP_EN, .DLY_CFG_AUTO_CHECK, .DLY_CFG_TX_SHARE,
     .DLY_CFG_CMIS_PAGE, .DLY_CFG_CMIS_OFS, .DLY_STAT_DLY_VALID, .DLY_STAT_ASYM_SRC, .DLY_STAT_CHECKING,
     .DLY_STAT_SPLIT_ASSUMED],
    [.DLY_STAT_CAUSE, .DLY_STAT_CFG_REFUSED, .ASYM, .ASYM_U, .RT, .FIBRE_D, .FIBRE_S, .FIBRE_S_U, .FIBRE_TG,
     .OP_LAMBDA_OUT, .OP_LAMBDA_IN]]

/-- All fields of the QUAD block, in table order. -/
def QuadF.all : List QuadF :=
  List.flatten [
    [.CTL_FAMILY, .CTL_TX_REF, .CTL_TX_REF_APPLIED, .CTL_PLL_LOCK, .CTL_VCO, .CTL_CFG_REFUSED]]

/-- All fields of the MOD block, in table order. -/
def ModF.all : List ModF :=
  List.flatten [
    [.CFG_ENABLE, .CFG_SPEED, .ADDR_OFFSET, .ADDR_PAGE, .ADDR_BANK, .ADDR_SLOT, .CMD_LEN, .CMD_WRITE, .CMD_GO,
     .STATUS_BUSY, .STATUS_DONE, .STATUS_NACK],
    [.STATUS_TIMEOUT, .STATUS_LOCKED, .STATUS_REFUSED, .STATUS_ABSENT, .PRESENT, .BUF]]

/-- All fields of the SURV block, in table order. -/
def SurvF.all : List SurvF :=
  List.flatten [
    [.CTL_START, .CTL_ABORT, .CTL_KIND, .CTL_PORT, .CTL_PORT_B, .CTL_AUTO_APPLY, .CTL_APPLY, .CTL_WH_IN, .SEQ_N,
     .SEQ_K, .SEQ_RETUNE_WAIT, .LAMBDA],
    [.U_LAMBDA, .U_MAX, .FIX_D_LOOP, .PROBE_D_PROBE, .STATUS_STATE, .STATUS_ERR, .STATUS_CYCLE, .STATUS_SEG,
     .STATUS_DONE, .STATUS_FAIL, .STATUS_REFUSED, .DRT],
    [.DELTA, .U, .LEN, .WHREC, .RT_LOOP]]

/-- All fields of the PORT block, in table order. -/
def PortF.all : List PortF :=
  List.flatten [
    [.CTL_EN, .CTL_CT_EN, .CTL_FC_MODE, .CTL_MGMT_TRAP, .CTL_MGMT_DEST, .CTL_HOSTQ, .CTL_CFG_REFUSED, .CTL_HOLDOFF,
     .STATUS_PSTATE, .STATUS_RATE, .STATUS_PAUSED, .STATUS_PWD_HOLD],
    [.MAX_LEN, .STA_ADDR, .STA_EN, .FC_RX_PFC_EN, .FC_TX_PFC_EN, .FC_RX_EN, .FC_TX_EN, .PFC_MAP, .TX_QUANTA,
     .XOFF_THR, .XON_THR, .PWD_LIMIT],
    [.PWD_HOLD, .CNT_CT_STOMP, .CNT_DOWN_DROP, .CNT_TX_TRUNC, .CNT_CTL_DROP, .CNT_PAUSE_IGN, .CNT_PWD_TRIP,
     .CNT_IN_OVERRUN, .CNT_TRAPPED, .STAT_FRAMES_TX, .STAT_FRAMES_RX, .STAT_FCS_ERR],
    [.STAT_OCTETS_TX, .STAT_OCTETS_RX, .STAT_MCAST_TX, .STAT_BCAST_TX, .STAT_MCAST_RX, .STAT_BCAST_RX,
     .STAT_TOO_LONG, .STAT_UNDERSIZE, .STAT_CTL_TX, .STAT_CTL_RX, .STAT_PAUSE_TX, .STAT_PAUSE_RX],
    [.STAT_FEC_CORR, .STAT_FEC_UNCORR, .STAT_SYM_ERR, .PFC_RX]]

/-- All fields of the CORE block, in table order. -/
def CoreF.all : List CoreF :=
  List.flatten [
    [.PAIR_CTL_BANK, .PAIR_CTL_BANK_APPLIED, .PAIR_CTL_CHK_A, .PAIR_CTL_CHK_B, .PAIR_CTL_CFG_REFUSED,
     .PAIR_CNT_NO_DEST, .PAIR_CNT_BAD_DEST, .PAIR_CNT_PROG_FAULT, .PAIR_CNT_STALL_CYC, .CELLAIN_INSN, .CELLAEG_INSN,
     .CELLBIN_INSN],
    [.CELLBEG_INSN, .TBL_KIND, .TBL_STAGE, .TBL_KEY_BITS, .TBL_DATA_BITS, .TBL_BASE, .TBL_SIZE, .TBL_COUNT, .LKP_OP,
     .LKP_TBL, .LKP_VIS, .LKP_GO],
    [.LKP_STATUS_BUSY, .LKP_STATUS_CODE, .LKP_STATUS_HIT, .LKP_INDEX, .LKP_KEY, .LKP_MASK, .LKP_DATA, .MCG_PORTS0,
     .MCG_PORTS1, .MCG_PORTS2, .MCG_ENGINES, .MCG_EQ],
    [.MCG_HOST_EN, .MCG_HOSTQ, .MCG_HAIRPIN, .QUEUE_MAX, .QUEUE_SP, .QUEUE_ECN_THR, .QUEUE_QUANTUM, .QUEUE_Q_DROP,
     .QUEUE_DEPTH, .QUEUE_PAUSED, .QUEUE_GATE_OPEN, .GATE_EN],
    [.GATE_LEN, .GATE_OPER_EN, .GATE_PEND, .GATE_CYCLE, .GATE_BASE, .GATE_NOW_ENTRY, .GATE_NOW_GATES, .GATE_HELD,
     .GATE_LEAD, .ADMIN_INTERVAL, .ADMIN_GATES, .OPER_INTERVAL],
    [.OPER_GATES]]

/-- All fields of the POOL block, in table order. -/
def PoolF.all : List PoolF :=
  List.flatten [
    [.CTL_OPEN, .CTL_SPILL_EN, .CTL_WIPE_DONE, .CTL_CFG_REFUSED, .CFG_C1, .CFG_C2, .CFG_C3, .THAW_HANDLE,
     .FROZEN_HANDLE, .ECC_CE, .ECC_UE, .STAT_TOTAL],
    [.STAT_FREE, .STAT_SHARED, .STAT_FROZEN, .STAT_REF_OVER, .STAT_FROZEN_OP, .STAT_BAD_HANDLE, .OWN_RSV, .OWN_MAX,
     .OWN_USE, .OWN_DENY, .SPILL_THR, .SPILL_REFILL_THR],
    [.SPILL_GRAN_DEPTH, .SPILL_CEL_DEPTH, .SPILL_DENY, .SPILL_LOST, .SPILL_REFILL_WAIT]]

/-- All fields of the CEL block, in table order. -/
def CelF.all : List CelF :=
  List.flatten [
    [.CTL_ENG_SIZE, .STACK_STATE, .STACK_MARK, .STACK_UE_LIM, .STACK_CE, .STACK_UE, .STACK_TEMP]]

/-- All fields of the ENG block, in table order. -/
def EngF.all : List EngF :=
  List.flatten [
    [.CTL_CLK_EN, .CTL_MARK, .CTL_UNUSABLE, .CTL_STOP_ALL, .CTL_CINV, .CTL_CINV_BUSY, .CTL_FRESET, .CTL_WIPING,
     .CTL_CFG_REFUSED, .STATUS_TSTATE, .TVEC, .ECC_CE],
    [.ECC_UE, .PWIN_PAGE, .QSTORE_FREE, .THR_TCTL_START, .THR_TCTL_STOP, .THR_TCTL_RESUME, .THR_TCTL_CLEAR,
     .THR_TCTL_PRIV, .THR_TCTL_HIPRI, .THR_TCTL_STATE, .THR_TCTL_REFUSED, .THR_TPC_PC],
    [.THR_TCAUSE_CAUSE, .THR_TCAUSE_INTRAP, .THR_TEPC_EPC, .THR_TVAL_VAL, .EQ_MAX, .EQ_DEPTH, .EQ_DROP, .HATCH_SEND,
     .HATCH_U_SEND, .HATCH_FILL, .HATCH_HREFUSED, .HATCH_FULL_CNT],
    [.HATCH_PUT, .CWIN_BASE, .CWIN_SIZE, .CWIN_R, .CWIN_W, .CWIN_EN, .PATTR_U_R, .PATTR_U_W, .PATTR_U_X, .PATTR_CODE]]

/-- All fields of the GTH block, in table order. -/
def GthF.all : List GthF :=
  List.flatten [
    [.CTL_CFG_REFUSED, .BAD_GBAD, .SPILL_USED, .ENG_GSHARE, .ENG_QDEPTH, .ENG_QFULL, .GRP_EN, .GRP_WBANK, .GRP_RED,
     .GRP_IN_TYPE, .GRP_WT_TYPE, .GRP_OUT_TYPE],
    [.GRP_NOUT, .GRP_LATE_MODE, .GRP_EMIT_MODE, .GRP_EMIT_EMPTY, .GRP_EVICT, .GRP_SPILL, .GRP_BIN_HOME, .GRP_MAX_IDX,
     .GRP_SAMPLE_FMT, .GRP_PLEN, .GRP_PAY_REL, .GRP_CID_REL],
    [.GRP_ENG_MASK, .GRP_NSLOT, .GRP_OSHIFT, .GRP_WLEN_LOG, .GRP_BPER, .GRP_DL_OFS, .GRP_EMIT_OFS, .GRP_FUTURE,
     .GRP_LATE_MAX, .GRP_T0, .GRP_SPER, .GRP_EXPECT],
    [.GRP_BIN_BASE, .GRP_WBASE_A, .GRP_WBASE_B, .GRP_TPL_OFS, .GRP_TPL_LEN, .GRP_GB_OFS, .GRP_RTAG_OFS,
     .GRP_OMETA_OFS, .GRP_STATE, .GRP_WBANK_APPLIED, .GRP_ENG_LIVE, .GRP_RELIVE],
    [.GRP_OPEN, .GRP_FLOOR, .GCNT_EMIT_FULL, .GCNT_EMIT_PART, .GCNT_LATE, .GCNT_SUPP, .GCNT_DUP, .GCNT_EARLY,
     .GCNT_BAD_LEN, .GCNT_NOT_EXP, .GCNT_OUT_RUN, .GCNT_NO_SLOT],
    [.GCNT_SPILLED, .GCNT_EVICTED, .GCNT_BIN_LOST, .GCNT_SAT, .GCNT_SKIPPED, .GCNT_EMIT_LATE]]

/-- All fields of the TAL block, in table order. -/
def TalF.all : List TalF :=
  List.flatten [
    [.CTR_LOC, .CTR_THR, .CTR_EN, .CTR_MODE, .CTR_SIG, .CTR_VAL, .CTR_OVF, .CTR_PRELOAD, .OVF, .CFG_REFUSED,
     .DUMP_EN, .DUMP_LOC],
    [.DUMP_SLOTS_LOG, .DUMP_PERIOD, .DUMP_BASE, .DUMP_FIRST, .DUMP_LAST, .DUMP_SEQ, .DUMP_SKIP, .SAMP_EN, .SAMP_LOC,
     .SAMP_JITTER_LOG, .SAMP_SIZE_LOG, .SAMP_WM_LOG],
    [.SAMP_PERIOD, .SAMP_BASE, .SAMP_HEAD, .SAMP_TAIL, .SAMP_SAMPLES, .SAMP_LOST]]

/-- All fields of the REE block, in table order. -/
def ReeF.all : List ReeF :=
  List.flatten [
    [.STATUS_RSTATE, .STATUS_CFG_REFUSED, .WDT_KICK, .WDT_EN, .WDT_MS, .BOOT_CNT, .BOOT_BANK, .BOOT_RECOVERY,
     .BOOT_WDT_TRIP, .NONCE, .LC_STATE, .LC_ARMED],
    [.LC_SCAN_READY, .LC_RETURN_USED, .LC_SCAN_REFUSED, .ARB_ENG, .ARB_STG, .ARB_REV, .KEYS_BITS, .BANK_STATE0,
     .BANK_STATE1, .BANK_TRIAL_CNT, .BANK_CONFIRM, .BANK_CONFIRM_S],
    [.LBIST_VALID, .LBIST_FULL, .LBIST_FATAL, .LBIST_AGE_H, .LBIST_FAIL_ENG, .LBIST_FAIL_PAIR, .LBIST_FAIL_FATAL,
     .LBIST_FAIL_STACK, .LBIST_FAIL_UNIT, .LEDGER_HEAD, .LEDGER_SEQ, .ARCH_IDX],
    [.ARCH_WRAP, .ARCH_ENTRY, .MBOX_WORD, .MBOX_CODE, .MBOX_BUSY, .MBOX_DETAIL, .MBOX_SEQ, .MBOX_DATA,
     .MBOX_CMD_LOST, .TOKEN, .RING_ENTRY, .TEMP_T],
    [.TEMP_LIM_LO, .TEMP_LIM_HI, .VOLT_V, .PROC_F, .AGE_LOSS]]

/-- All fields of the WGH block, in table order. -/
def WghF.all : List WghF :=
  List.flatten [
    [.STATUS_STATE, .STATUS_SEALED, .STATUS_BUSY, .STATUS_CAL_BAD, .STATUS_OVR_RATE, .STATUS_HOST_WR,
     .STATUS_CMD_LOST, .EVCNT, .ATTEMPT, .HEAD_RECNO, .FW_ID, .PUBKEY],
    [.KEY_ID, .INSTR_ID, .IN_DLY, .IN_THR, .LEGAL_SLOTS, .TB_REQ, .CMD_WORD, .RSP_CODE, .RSP_DETAIL, .RSP_SEQ,
     .RSP_DATA, .SLOT_TYPE],
    [.SLOT_SRC_A, .SLOT_SRC_B, .SLOT_PS_A, .SLOT_PS_B, .SLOT_MODE, .SLOT_RUNSTATE, .SLOT_GATE, .SLOT_IV_MAX,
     .SLOT_COUNT_N, .SLOT_MADE, .RECORD, .LOG_ENTRY]]

/-- All fields of the HRT block, in table order. -/
def HrtF.all : List HrtF :=
  List.flatten [
    [.PWR_REQ_HEARTH, .PWR_REQ, .PWR_REQ_RAILS_OFF, .PWR_REQ_CFG_REFUSED, .PWR_STAT_STATE, .CTX_CONTEXT_LOST,
     .SUPPLY_CAUTION, .SUPPLY_RAIL, .SUPPLY_GOOD, .SUPPLY_VID, .VMIN, .VMIN_CAUTION_CNT],
    [.LINE_PD_POWERED, .LINE_SRC, .LINE_CLASS, .CLK_XTAL_OK, .CLK_HSRC, .CLK_HCLK_RETRY, .CLK_OCXO_PRESENT,
     .CLK_XTAL_LOSS, .RESET_LAST, .RESET_WARM_CNT, .RESET_SUPPLY_CNT, .WAKE_EN],
    [.WAKE_PIN_EN, .WAKE_AT_T, .COARSE_TIME, .COARSE_ST_VALID, .LIFEH_HOURS, .LIFE_EQ_EQUIV, .LIFE_MAX_TJ_MAX,
     .LIFE_ST_VID_CAP, .LIFE_ST_BUDGET_OUT, .LIFE_ST_TRIP_CNT]]

/-- All fields of the TWN block, in table order. -/
def TwnF.all : List TwnF :=
  List.flatten [
    [.CTL_ROLE, .CTL_AUTO_TAKE, .CTL_RELINQ_UNLOCK, .CTL_AUTO_RESTORE, .CTL_SWAP_FAIL, .CTL_CFG_REFUSED,
     .CFG_TWIN_ID, .CFG_TMO, .CFG_ALIGN_THR, .CFG_ALIGN_CYC, .STATUS_ROLE_APPLIED, .STATUS_LINK],
    [.STATUS_TSTATE, .STATUS_PEER_ROLE, .STATUS_CFG_MISMATCH, .STATUS_ROLE_GEN, .SWAP_T, .SWAP_GO, .TW_KP, .TW_KI,
     .TW_ASYM, .OFS, .TWN_I, .TWN_DOSC],
    [.CNT_RX_BAD, .CNT_STATE_MISS, .COPY, .WATCH_STREAM, .WATCH_PORT, .WATCH_EN, .WATCH_SEQ_LOSS, .WATCH_LAST_SEQ,
     .WATCH_LOST, .SNAP_CMD_SAVE, .SNAP_CMD_RESTORE, .SNAP_CMD_SNAP_LOC],
    [.SNAP_CMD_SNAP_SEL, .SNAP_ADDR, .SNAP_STAT_BUSY, .SNAP_STAT_CODE, .SNAP_LEN, .TRE_L4, .TRE_REG_EN,
     .TRE_TOO_DEEP, .TRE_ETYPE, .TRE_UDP, .TRE_NODE, .TRE_MGR_NODE],
    [.TRE_UP_PORT, .TRE_DOWN_MASK, .TRE_DA, .TRE_DROP, .STRM_DA, .STRM_VID, .STRM_EN, .STRM_WINDOW, .STRM_RESET_MS,
     .STRM_RECOV_SEQ, .SCNT_PASSED, .SCNT_DISCARD],
    [.SCNT_ROGUE, .SCNT_UNTAGGED, .SCNT_RESETS]]

/-- All fields of a block. -/
def Blk.fields : Blk → List Fld
  | .glb => GlbF.all.map .glb
  | .cri => CriF.all.map .cri
  | .bell => BellF.all.map .bell
  | .sel => SelF.all.map .sel
  | .stamp => StampF.all.map .stamp
  | .lane => LaneF.all.map .lane
  | .quad => QuadF.all.map .quad
  | .mod => ModF.all.map .mod
  | .surv => SurvF.all.map .surv
  | .port => PortF.all.map .port
  | .core => CoreF.all.map .core
  | .pool => PoolF.all.map .pool
  | .cel => CelF.all.map .cel
  | .eng => EngF.all.map .eng
  | .gth => GthF.all.map .gth
  | .tal => TalF.all.map .tal
  | .ree => ReeF.all.map .ree
  | .wgh => WghF.all.map .wgh
  | .hrt => HrtF.all.map .hrt
  | .twn => TwnF.all.map .twn

/-- The BAR0 regions of Table 17.4: base, end (inclusive) and block. -/
def regions : List (Nat × Nat × Blk) :=
  [(0x00000000, 0x000FFFFF, .glb),
   (0x00100000, 0x001FFFFF, .cri),
   (0x00200000, 0x002FFFFF, .bell),
   (0x00300000, 0x003FFFFF, .sel),
   (0x00400000, 0x007FFFFF, .stamp),
   (0x00800000, 0x00927FFF, .lane),
   (0x00D00000, 0x00D0FFFF, .quad),
   (0x00E00000, 0x00E07FFF, .mod),
   (0x00F00000, 0x00F00FFF, .surv),
   (0x01000000, 0x0147FFFF, .port),
   (0x02000000, 0x02FFFFFF, .core),
   (0x03000000, 0x03FFFFFF, .pool),
   (0x04000000, 0x04FFFFFF, .eng),
   (0x05000000, 0x051FFFFF, .gth),
   (0x06000000, 0x06FFFFFF, .tal),
   (0x07000000, 0x077FFFFF, .ree),
   (0x07800000, 0x07BFFFFF, .wgh),
   (0x07C00000, 0x07DFFFFF, .hrt),
   (0x07E00000, 0x07FFFFFF, .twn),
   (0x08000000, 0x08FFFFFF, .cel)]

end Sys2Proof.Machine
end

