-- ==== Sys2Proof/Machine/Map.lean ====
section
/-! DEFINITION. What the register map means for one part: the instance a field belongs to, its power domain (Tables
1.7, 3.5), its presence on the variant (R3), its reset value, its commit unit (Table 3.5), and the order of the stores. -/

namespace Sys2Proof.Machine

/-- Bit number of a domain in Tables 1.7 and 15.7. -/
def Dom.idx : Dom → Nat
  | .hearth => 0 | .weigh => 1 | .reeve => 2 | .bell => 3 | .core => 4
  | .trunkA => 5 | .trunkB => 6 | .spur => 7 | .engine => 8 | .cellar => 9

/-- All domains, in the order of Table 1.7. -/
def Dom.all : List Dom := [.hearth, .weigh, .reeve, .bell, .core, .trunkA, .trunkB, .spur, .engine, .cellar]

/-- The prerequisite of a domain (Table 1.7). -/
def Dom.prereq : Dom → Option Dom
  | .hearth => none | .weigh => some .hearth | .reeve => some .hearth | .bell => some .reeve | .core => some .bell
  | .trunkA => some .core | .trunkB => some .core | .spur => some .core | .engine => some .core | .cellar => some .core

/-- Domain of lane n (Table 3.5). -/
def laneDom (n : Nat) : Dom := if n < 32 then .trunkA else if n < 64 then .trunkB else .spur

/-- Domain of quad q (Table 3.5). -/
def quadDom (q : Nat) : Dom := if q < 8 then .trunkA else .trunkB

/-- Number of instances inside one unit of the group's outermost dimension. -/
def Grp.inner (g : Grp) : Nat := (g.info.dims.drop 1).foldl (fun a d => a * d.1) 1

/-- Number of instances of a group. -/
def Grp.count (g : Grp) : Nat := g.info.dims.foldl (fun a d => a * d.1) 1

/-- The unit (lane, engine, port, …) that instance `i` of a group lies in. -/
def Grp.outer (g : Grp) (i : Nat) : Nat := i / g.inner

/-- The power domain of the registers of unit `o` of a group (Tables 1.7 and 3.5; DESIGN CHOICE for MOD and SURV, log
entry 6). -/
def Grp.dom (g : Grp) (o : Nat) : Dom :=
  match g.info.blk with
  | .glb => .reeve | .cri => .reeve | .tal => .reeve | .ree => .reeve | .mod => .reeve
  | .bell => .bell | .sel => .bell | .twn => .bell
  | .stamp => .core | .surv => .core | .port => .core | .core => .core | .pool => .core
  | .lane => laneDom o | .quad => quadDom o
  | .cel => if g = .CEL then .core else .cellar
  | .eng => .engine | .gth => .engine
  | .wgh => .weigh | .hrt => .hearth

/-- Quads enabled on the variant (Table 0.1). -/
def Variant.quads : Variant → Nat
  | .s => 0x5555 | .m => 0xFFFF | .x => 0xFFFF

/-- Engines enabled on the variant (Table 0.1). -/
def Variant.engines : Variant → Nat
  | .s => 0x0F0F | .m => 0xFFFF | .x => 0xFFFF

/-- Cellar stacks present on the variant (Table 0.1). -/
def Variant.stacks : Variant → Nat
  | .s => 0 | .m => 0x3 | .x => 0xF

/-- VARIANT code of Table 17.5. -/
def Variant.code : Variant → Nat
  | .s => 0 | .m => 1 | .x => 2

/-- Quad q is present. -/
def Variant.hasQuad (v : Variant) (q : Nat) : Bool := q < 16 && bit q v.quads

/-- Lane n (0-73) is present: a trunk lane with its quad, a spur or twin lane always (R3, Table 0.1). -/
def Variant.hasLane (v : Variant) (n : Nat) : Bool := if n < 64 then v.hasQuad (n / 4) else n < 74

/-- Port p (0-71) is present: its first lane is. -/
def Variant.hasPort (v : Variant) (p : Nat) : Bool := p < 72 && v.hasLane p

/-- Engine e is present. -/
def Variant.hasEngine (v : Variant) (e : Nat) : Bool := e < 16 && bit e v.engines

/-- Cellar stack k is present. -/
def Variant.hasStack (v : Variant) (k : Nat) : Bool := k < 4 && bit k v.stacks

/-- Presence of unit `o` of a group on the variant (R3, R4). -/
def Grp.present (g : Grp) (v : Variant) (i : Nat) : Bool :=
  match g with
  | .LANE => v.hasLane i
  | .QUAD => v.hasQuad i
  | .PORT | .SPORT | .CRIPORT => v.hasPort i
  | .PORTSTA | .PORTXOFF | .PORTPFCRX | .QUEUE | .SPILL => v.hasPort (i / 8)
  | .PORTSTAT | .GATE => v.hasPort i
  | .GATEADM | .GATEOPER => v.hasPort (i / 256)
  | .ENG | .SAMP => v.hasEngine i
  | .THR | .CWIN => v.hasEngine (i / 8)
  | .EQ => v.hasEngine (i / 64)
  | .HATCH => v.hasEngine (i / 16)
  | .PATTR => v.hasEngine (i / 1024)
  | .GTHENG => v.hasEngine i
  | .STACK => v.hasStack i
  | .POOLSTAT => i = 0 || v.stacks ≠ 0
  | .OWN => i % 4 = 0 || v.stacks ≠ 0
  | .BELLREP => if i < 74 then v.hasLane i else v.hasEngine (i - 74)
  | _ => true

/-- The reset value of a field instance: its table's, or the per-variant value of Table 17.5 and the per-owner reserve
of Table 8.8. -/
def resetVal (v : Variant) (f : Fld) (i : Nat) : Nat :=
  match f with
  | .glb .VARIANT => v.code
  | .glb .QUADS => v.quads
  | .glb .ENGINES => v.engines
  | .glb .STACKS => v.stacks
  | .pool .OWN_RSV =>
    if i % 4 ≠ 0 then 0 else if i / 4 < 72 then 0x400 else if i / 4 = 88 then 0x100 else if i / 4 = 89 then 0x800 else 0
  | f => f.desc.reset

/-- The power domain of a field instance; a commit shadow lies in REEVE (R99). -/
def fldDom (f : Fld) (i : Nat) : Dom :=
  if f.desc.shadow then .reeve else f.desc.grp.dom (f.desc.grp.outer i)

/-- The power domain of a hidden value; `none` for NVM. -/
def HidHome.dom (h : HidHome) (i : Nat) : Option Dom :=
  match h with
  | .nvm => none | .hearth => some .hearth | .weigh => some .weigh | .reeve => some .reeve | .reeveW => some .reeve
  | .bell => some .bell | .core => some .core | .lane => some (laneDom i) | .quad => some (quadDom i)
  | .engine => some .engine | .cellar => some .cellar

/-- Survival code of a hidden value's home. -/
def HidHome.surv : HidHome → Surv
  | .nvm => .H | .hearth => .H | .reeveW => .W | _ => .N

/-- The commit unit a shadow field instance belongs to (Table 3.5). -/
def shadowUnit (f : Fld) (i : Nat) : Nat :=
  match f.desc.grp with
  | .GLB => 0
  | .BELL => 1
  | .SEL => match f with
    | .sel .DPLL_LOOP | .sel .DPLL_BW => 2
    | .sel .OPLL_IN_SCALE => 3
    | .sel .TOD_EN | .sel .TOD_SRC | .sel .TOD_BAUD | .sel .TOD_START => 26
    | _ => 4
  | .TOUT => 8 + i
  | .ECAP => 16 + i
  | .PPS => 24 + i
  | .TWN => 27
  | .GRP => 30 + i / 256
  | .QUAD => 32 + i
  | .LANE => 48 + i
  | .GATE => 122 + i
  | .GATEADM => 122 + i / 256
  | .PAIR => 194 + i
  | _ => 255

/-- The power domain of a commit unit (Table 3.5). -/
def unitDom (u : Nat) : Dom :=
  if u = 0 then .reeve else if u ≤ 4 then .bell else if u = 5 then .hearth else if u = 6 then .weigh
  else if u = 7 then .reeve else if u ≤ 27 then .bell else if u ≤ 29 then .core else if u ≤ 31 then .engine
  else if u ≤ 47 then quadDom (u - 32) else if u ≤ 121 then laneDom (u - 48) else if u ≤ 201 then .core
  else if u ≤ 217 then .engine else .cellar

/-- A commit unit is present on the variant (R3, R98). -/
def unitPresent (v : Variant) (u : Nat) : Bool :=
  if u < 32 then true
  else if u ≤ 47 then v.hasQuad (u - 32)
  else if u ≤ 121 then v.hasLane (u - 48)
  else if u ≤ 193 then v.hasPort (u - 122)
  else if u ≤ 201 then true
  else if u ≤ 217 then v.hasEngine (u - 202)
  else if u ≤ 221 then v.hasStack (u - 218)
  else false

/-- Number of the block in the order of the stores. -/
def Fld.blkIdx : Fld → Nat
  | .glb _ => 0 | .cri _ => 1 | .bell _ => 2 | .sel _ => 3 | .stamp _ => 4 | .lane _ => 5 | .quad _ => 6 | .mod _ => 7
  | .surv _ => 8 | .port _ => 9 | .core _ => 10 | .pool _ => 11 | .cel _ => 12 | .eng _ => 13 | .gth _ => 14
  | .tal _ => 15 | .ree _ => 16 | .wgh _ => 17 | .hrt _ => 18 | .twn _ => 19

/-- Number of the field inside its block. -/
def Fld.subIdx : Fld → Nat
  | .glb f => f.ctorIdx | .cri f => f.ctorIdx | .bell f => f.ctorIdx | .sel f => f.ctorIdx | .stamp f => f.ctorIdx
  | .lane f => f.ctorIdx | .quad f => f.ctorIdx | .mod f => f.ctorIdx | .surv f => f.ctorIdx | .port f => f.ctorIdx
  | .core f => f.ctorIdx | .pool f => f.ctorIdx | .cel f => f.ctorIdx | .eng f => f.ctorIdx | .gth f => f.ctorIdx
  | .tal f => f.ctorIdx | .ree f => f.ctorIdx | .wgh f => f.ctorIdx | .hrt f => f.ctorIdx | .twn f => f.ctorIdx

/-- Order of pairs of numbers, first component first. -/
def pairLt (a b c d : Nat) : Bool := a < c || (a == c && b < d)

/-- Order of register keys: block, field, instance. -/
def fldLt (a b : Fld × Nat) : Bool :=
  a.1.blkIdx < b.1.blkIdx || (a.1.blkIdx == b.1.blkIdx && pairLt a.1.subIdx a.2 b.1.subIdx b.2)

/-- Order of hidden-state keys. -/
def hidLt (a b : Hid × Nat) : Bool := pairLt a.1.ctorIdx a.2 b.1.ctorIdx b.2

/-- Order of memory addresses. -/
def natLt (a b : Nat) : Bool := a < b

end Sys2Proof.Machine
end

