-- ==== Sys2Proof/Machine/Types.lean ====
section
/-! DEFINITION. What the part holds beside registers: pool buffers, descriptors, frames in reception and transmission, the
contexts of the stage-cell tracks, lookup entries and pending emits. -/

namespace Sys2Proof.Machine

/-- A held or frozen buffer of a pool (R262-R270); a free one has the default value. -/
structure Buf where
  held : Bool := false
  frozen : Bool := false
  owner : Nat := 0
  refs : Nat := 0
  /-- handle of the first cell of the chain it lies in (R257) -/
  head : Nat := 0
  /-- the later cells of the chain, in order, on the first cell -/
  chain : List Nat := []
  /-- priority the frame is charged to for flow control (Table 7.3), on the first cell -/
  pri : Nat := 0
  /-- length in octets, FCS included, of the frame it holds, on the first cell; 0 where the part has not written one -/
  len : Nat := 0
  deriving DecidableEq, Repr

/-- A descriptor: one copy of a frame (R231). -/
structure Copy where
  handle : Nat
  /-- the 64 bytes of metadata (Table 9.7) as one little-endian number -/
  md : Nat
  /-- the frame's last cell is written and its FCS has passed (R233) -/
  done : Bool := true
  /-- the copy is cut through -/
  ct : Bool := false
  /-- the copy belongs to the queue's Cellar part (R272) -/
  cel : Bool := false
  /-- it is still to be moved to the Cellar -/
  spill : Bool := false
  deriving DecidableEq, Repr

/-- A frame in reception on a port, from its head window to its end. -/
structure Rx where
  /-- octets from octet 0 of R189 to the FCS -/
  octets : List Byte
  /-- 0 correct, 1 FCS error, 2 longer than MAX_LEN, 3 link lost before its end, 4 no buffer -/
  err : Nat
  md : Nat
  /-- it has passed the ingress pipeline -/
  entered : Bool := false
  /-- cells granted so far, in order -/
  cells : List Nat := []
  /-- its receive stamp carries VOID; CAUTION -/
  void : Bool := false
  caution : Bool := false
  /-- it is to be dropped whole (no copy wanted) -/
  dead : Bool := false
  /-- low 16 bits of the servo cycle number at its stamp (Table 6.4) -/
  cyc : Nat := 0
  /-- a receive record is to be written (RXREC); it goes to the peer-delay responder (PDR) -/
  recd : Bool := false
  pdr : Bool := false
  /-- some copy of it is cut through -/
  ct : Bool := false
  /-- copies for engines, host queues and the Reeve, offered at its end: kind, destination, copy (R233) -/
  late : List (Nat × Nat × Copy) := []
  deriving DecidableEq, Repr

/-- A frame in transmission on a port. -/
structure Tx where
  desc : Copy
  queue : Nat
  /-- octets as they leave, FCS included -/
  octets : List Byte
  /-- departure time in 2^-16 ns, once fixed (R194) -/
  dep : Nat := 0
  departed : Bool := false
  /-- the record of the departure carries VOID; CAUTION (R204) -/
  void : Bool := false
  caution : Bool := false
  gen : Nat := 0
  cyc : Nat := 0
  stomped : Bool := false
  /-- made by the port itself and held by no buffer: 1 MAC Control, 2 of the peer-delay responder, 3 a survey REQ, 4 a survey
  RESP or twin message that takes its departure time at octet `desc.handle`, 5 other in-band management -/
  own : Nat := 0
  deriving DecidableEq, Repr

/-- A Sync an observer keeps (R212): sequenceId, t1' so far and whether it is whole, t2, a VOID or CAUTION stamp. -/
structure ObsSync where
  seq : Nat
  t1 : Int
  whole : Bool
  t2 : Int
  bad : Bool
  deriving DecidableEq, Repr

/-- A Delay_Req an observer has seen leave: sequenceId, t3, a VOID or CAUTION stamp. -/
structure ObsReq where
  seq : Nat
  t3 : Int
  bad : Bool
  deriving DecidableEq, Repr

/-- The peer-delay exchange an observer has in hand: sequenceId, t1, t4, the responder's share so far, what is still to come. -/
structure ObsPd where
  seq : Nat
  t1 : Int
  t4 : Int := 0
  sub : Int := 0
  got : Bool := false
  bad : Bool := false
  deriving DecidableEq, Repr

/-- The pairing state of an observer, newest first, and the exchanges complete in the servo cycle in hand (R212, R213). -/
structure ObsState where
  syncs : List ObsSync := []
  reqs : List ObsReq := []
  pd : Option ObsPd := none
  mpd : Option Int := none
  exch : List (Int × Int × Nat) := []
  deriving DecidableEq, Repr

/-- A lookup result (R225). -/
structure LkRes where
  hit : Bool
  data : Nat
  deriving DecidableEq, Repr

/-- A frame passing one track of a stage cell (R312). -/
structure Track where
  md : Nat := 0
  win : List Byte := []
  /-- octets inserted and removed so far in this pipeline (R220) -/
  ins : Nat := 0
  del : Nat := 0
  /-- results by stage index and kind -/
  look : List ((Nat × Nat) × LkRes) := []
  deriving DecidableEq, Repr

/-- An entry of the lookup store (R226, R227). -/
structure LkEntry where
  valid : Bool := false
  key : Nat := 0
  mask : Nat := 0
  data : Nat := 0
  vis : Nat := 0
  hit : Bool := false
  deriving DecidableEq, Repr

/-- A pending emit (R349). -/
structure Emit where
  eng : Nat
  /-- release time, 96-bit bell time -/
  time : Nat
  handle : Nat
  md : Nat
  deriving DecidableEq, Repr

/-- A capture record (R183-R185). -/
structure CapRec where
  time : Nat
  gen : Nat := 0
  rise : Bool := false
  caution : Bool := false
  void : Bool := false
  iv : Bool := false
  withinRes : Bool := false
  neg : Bool := false
  deriving DecidableEq, Repr

/-- A holdover history entry (R168): when it was completed, the mean total correction in 2^-48 and the mean temperature in
1/16 °C. -/
structure HistEntry where
  fin : Nat
  y : Int
  temp : Int
  deriving DecidableEq, Repr

/-- A bin of a gather group (R364), from its first accepted contribution on. -/
structure Bin where
  grp : Nat
  n : Nat
  bank : Bool
  eng : Nat
  slot : Nat
  /-- it holds its slot; its Cellar buffer when spilled -/
  holds : Bool
  home : Option Nat
  /-- contributors claimed and accumulated -/
  claims : Nat := 0
  done : Nat := 0
  /-- its deadline has fired; it has been emitted; it was lost or evicted, so that what still comes is late (R380, R381) -/
  fired : Bool := false
  emitted : Bool := false
  lost : Bool := false
  /-- accumulators: parts of SUM and WSUM by output, element and part; value parts and 1 + index of MAX; octets of CAT -/
  acc : List Int := []
  deriving DecidableEq, Repr

/-- A claimed contribution in a gather queue (R361, R376): group, bin, contributor, place of the payload. -/
structure Contrib where
  grp : Nat
  n : Nat
  c : Nat
  handle : Nat
  pay : Nat
  deriving DecidableEq, Repr

/-- A gather output that waits for its buffers (R383): serving engine, group, octets without FCS, metadata, and its release
time where it has one (R384). -/
structure GOut where
  eng : Nat
  grp : Nat
  octets : List Byte
  md : Nat
  time : Option Nat
  deriving DecidableEq, Repr

/-- A timestamp of the Weighhouse (R425): source, time in 2^-16 ns as a fraction, the coarse time, flags (1 CAUTION, 2 no PLL
lock, 4 OVR_RATE, 8 CAL_BAD, 16 SERVICE), the calibration pair. -/
structure WStamp where
  src : Nat
  num : Int
  den : Nat
  time : Nat
  flags : Nat
  n1 : Nat
  n2 : Nat
  deriving DecidableEq, Repr

/-- A slot configuration (Table 13.7): TYPE, sources, prescale codes, MODE, GATE, IV_MAX, COUNT_N. -/
structure WCfg where
  type : Nat
  a : Nat
  b : Nat
  psA : Nat
  psB : Nat
  mode : Nat
  gate : Nat
  ivMax : Nat
  countN : Nat
  deriving DecidableEq, Repr

/-- The sealed parameters a result is made under (R440). -/
structure WParams where
  instr : Nat := 0
  dly : List Int := []
  legal : Nat := 0
  tb : Nat := 0
  deriving DecidableEq, Repr

/-- A B edge of PPS_OFFSET that waits for the A edges around it: its stamp, the A edge before it, its age (R431). -/
structure WWait where
  b : WStamp
  prev : Option WStamp
  at_ : Nat
  deriving DecidableEq, Repr

/-- What a measurement slot has in hand (R430-R432, R437). -/
structure WSlot where
  /-- the opening edge, on side B where true -/
  opened : Option (Bool × WStamp) := none
  openAt : Nat := 0
  /-- prescaled edges since the opening one -/
  edges : Nat := 0
  lastA : Option WStamp := none
  waits : List WWait := []
  /-- counts and record flags since the last record -/
  dead : Nat := 0
  order : Nat := 0
  misc : Nat := 0
  flags : Nat := 0
  /-- STOP waits for the result in progress; a configuration for the next result boundary -/
  stop : Bool := false
  next : Option WCfg := none
  par : WParams := {}
  deriving DecidableEq, Repr

/-- How an instruction ends on a core. -/
inductive Sig where
  /-- it completes; the next instruction follows -/
  | next
  /-- it completes at a new pc -/
  | jump (pc : Nat)
  /-- it waits (R301) -/
  | wait
  /-- it raises an exception and has no effect (R297) -/
  | exc (cause val : Nat)
  /-- it completes and leaves the thread IDLE -/
  | halt
  deriving DecidableEq, Repr

end Sys2Proof.Machine
end

