-- ==== Sys2Proof/Machine/State.lean ====
section
/-! DEFINITION. The state of the block: plain data, holding every register field, the hidden state the manual gives the
part, its memories and queues, and the queue of waiting commands. -/

namespace Sys2Proof.Machine

/-- How an access ended (R9, R15, R531, R537). -/
inductive RespCode where
  | ok
  /-- completer abort on PCIe, load/store fault on a TZ core (R9) -/
  | busError
  /-- I2C status REFUSED (R537) -/
  | refused
  /-- I2C status BUSY (R536) -/
  | busy
  deriving DecidableEq, Repr

/-- The answer to the last access: its ending and the data a read returned. -/
structure Resp where
  code : RespCode
  data : Nat
  deriving DecidableEq, Repr

/-- A Crier record (Table 16.3). PHASE and LOST are added when it is written to the event ring. -/
structure EvRec where
  time : Nat
  src : Nat
  code : Nat
  timeCoarse : Bool
  caution : Bool
  loc : Nat
  detail : Nat
  gen : Nat
  deriving DecidableEq, Repr

/-- The state. -/
structure State where
  /-- the variant, from OTP (Table 0.1) -/
  variant : Variant
  /-- the register fields that differ from their reset value, by field and instance -/
  regs : List ((Fld × Nat) × Nat)
  /-- the shadow fields in effect (R99), as `regs` -/
  applied : List ((Fld × Nat) × Nat)
  /-- the settings the participants of the last commit held before it (R104), as `regs` -/
  prev : List ((Fld × Nat) × Nat)
  /-- hidden state that differs from 0 -/
  hid : List ((Hid × Nat) × Nat)
  /-- the timescale: bell ticks since the epoch (R69, R70) -/
  now : Nat
  /-- the Hearth's coarse copy, in tenths of a nanosecond since the epoch (R94) -/
  coarse : Nat
  /-- ticks of nominal length that have passed since reset; no step or set ever moves it (the model's own field) -/
  age : Nat
  /-- the holdover history, oldest first (R168) -/
  hist : List HistEntry
  /-- long-window values of each selector slot, newest first (Table 5.4) -/
  y4096 : List (Nat × List Int)
  /-- samples accepted in the servo cycle in hand: OFS and SRC; a reference-loop error has SRC 256 (R77, R164) -/
  meas : List (Int × Nat)
  /-- those of the cycle closed at the last boundary (R91) -/
  measPrev : List (Int × Nat)
  /-- offsets of the refused samples of the jump in hand, newest first, at most eight (R85) -/
  refused : List Int
  /-- the capture FIFOs, oldest first (R183) -/
  caps : List (Nat × List CapRec)
  /-- all byte memories, region by region (see Ops) -/
  mem : List Host.Cell
  /-- the snapshot latch of each requester: the upper words of the value last read low, and the number of its register's
  domain (R10) -/
  latch : List (Nat × (Nat × Nat))
  /-- the hold registers: by requester and address, 1 + the word written and not yet in effect, and the number of its
  register's domain (R11) -/
  hold : List ((Nat × Nat) × (Nat × Nat))
  /-- the answer to the last access -/
  resp : Resp
  /-- free values used so far (the model's own field) -/
  freeN : Nat
  /-- the Reeve's record FIFO, oldest first (R519) -/
  rfifo : List EvRec
  /-- records of sources 112-119 held in the Hearth while REEVE is off (R515) -/
  held : List EvRec
  /-- the Ledger archive by entry number, 256-bit entries (R454) -/
  archive : List (Nat × Nat)
  /-- registers of the TZ cores by core and number (see Thread): 64-bit g, 512-bit v, p, 96-bit t and the rest (R284) -/
  treg : List ((Nat × Nat) × Nat)
  /-- the held and frozen buffers of the pools, by handle (R256, R262) -/
  bufs : List (Nat × Buf)
  /-- the egress queues, queue t of port p at 8 p + t, head first (R237) -/
  queues : List (Nat × List Copy)
  /-- the engine input queues, queue q of engine e at 64 e + q, head first (R304) -/
  eqs : List (Nat × List Copy)
  /-- the host queues 0-15 and, at 16, the frames delivered to the Reeve, head first (R229, R245, R534) -/
  hostq : List (Nat × List Copy)
  /-- the hatches, hatch h of engine e at 16 e + h, oldest message first (R307) -/
  hatches : List (Nat × List Nat)
  /-- lines of the engines' Cellar caches: engine and line address / 64; 1 + the 64 octets as one number (R283) -/
  cache : List ((Nat × Nat) × Nat)
  /-- open bins of the gather groups (R364) -/
  bins : List Bin
  /-- gather queues of the engines, oldest first (R376) -/
  gq : List (Nat × List Contrib)
  /-- contributions offered to the gather unit of each half and not yet examined (R358) -/
  gin : List (Nat × List Copy)
  /-- gather outputs that wait for buffers (R383) -/
  gouts : List GOut
  /-- pending emits, in order of time and then of issue (R349) -/
  emits : List Emit
  /-- the frame in reception on port p, and at 72 + p the one its peer-delay responder holds (R219, R209) -/
  rx : List (Nat × Option Rx)
  /-- the frame in transmission on each port -/
  tx : List (Nat × Option Tx)
  /-- MAC Control frames and responses a port has still to send, ahead of its queues (R239, R248, R209) -/
  ctl : List (Nat × List Tx)
  /-- the frame each track of each stage cell holds: ingress track of cell c at 2 c, egress track at 2 c + 1 (R217) -/
  tracks : List (Nat × Track)
  /-- the pairing state of the observers (R212) -/
  obs : List (Nat × ObsState)
  /-- the round trips a port's RT is the mean of, newest first, at most 1000 (R142) -/
  rtLog : List (Nat × List Int)
  /-- samples of the twin tracker: 0 offsets of the servo cycle in hand, 1 of the closed one, 2 TWN_I in ALIGNED, newest
  first (R396) -/
  twl : List (Nat × List Int)
  /-- the last message sent on the twin link, by class (R391) -/
  twTx : List (Nat × List Byte)
  /-- the Weighhouse slots, the last timestamp of each source (R427), and the results that wait for signing, oldest first,
  as record octets 0-127 (R437) -/
  wslots : List (Nat × WSlot)
  wlast : List (Nat × Option WStamp)
  wqueue : List (List Byte)
  /-- the Reeve's context store: saved fields of code W and F (R493) -/
  ctx : List ((Fld × Nat) × Nat)
  /-- entries of the lookup store, by table and index (R225) -/
  lkp : List ((Nat × Nat) × LkEntry)
  /-- the commands that wait, first in, first out -/
  pending : List Instr
  deriving DecidableEq, Repr

/-- Faults: no command of this block ends in one. -/
inductive Fault where
  /-- Raised by nobody: the part answers every access and every event with a state of its own. Safe. -/
  | none
  deriving DecidableEq, Repr

/-- Refusals. -/
inductive Refusal where
  /-- Raised by `exec` for a command that has no meaning yet. Safe: the model stops. -/
  | notModelled (mnemonic : String)
  deriving DecidableEq, Repr

/-- The part right after reset: every register field at its documented reset value (so HEARTH is ON and every other
domain OFF, Table 15.7), hidden state and memories at 0 or empty, the variant JT72-X (R2), an empty queue. -/
def State.reset : State where
  variant := .x
  regs := []
  applied := []
  prev := []
  hid := []
  now := 0
  coarse := 0
  age := 0
  hist := []
  y4096 := []
  meas := []
  measPrev := []
  refused := []
  caps := []
  mem := []
  latch := []
  hold := []
  resp := ⟨.ok, 0⟩
  freeN := 0
  rfifo := []
  held := []
  archive := []
  treg := []
  bufs := []
  queues := []
  eqs := []
  hostq := []
  hatches := []
  emits := []
  bins := []
  gq := []
  gin := []
  gouts := []
  cache := []
  rx := []
  tx := []
  ctl := []
  tracks := []
  obs := []
  rtLog := []
  twl := []
  wslots := []
  wlast := []
  wqueue := []
  twTx := []
  ctx := []
  lkp := []
  pending := []

end Sys2Proof.Machine
end

