-- ==== Sys2Proof/Machine/Store.lean ====
section
/-! DEFINITION. Sparse stores: lists of (key, value) pairs in one canonical form, keys strictly rising and no entry
equal to what an unlisted key reads as, so that equal contents are equal lists. Registers, hidden state and memory are
stores. -/

namespace Sys2Proof.Machine

/-- What the store holds at `k`; an unlisted key reads as `d`. -/
def Assoc.get {κ α : Type} [DecidableEq κ] (d : α) (k : κ) : List (κ × α) → α
  | [] => d
  | (k', v) :: t => if k' = k then v else Assoc.get d k t

/-- The store without key `k`. -/
def Assoc.erase {κ α : Type} [DecidableEq κ] (k : κ) : List (κ × α) → List (κ × α)
  | [] => []
  | (k', v) :: t => if k' = k then Assoc.erase k t else (k', v) :: Assoc.erase k t

/-- Insertion before the first greater key. -/
def Assoc.ins {κ α : Type} (lt : κ → κ → Bool) (k : κ) (v : α) : List (κ × α) → List (κ × α)
  | [] => [(k, v)]
  | (k', v') :: t => if lt k k' then (k, v) :: (k', v') :: t else (k', v') :: Assoc.ins lt k v t

/-- The store with `v` at `k`; writing what an unlisted key reads as removes the entry. -/
def Assoc.set {κ α : Type} [DecidableEq κ] [DecidableEq α] (lt : κ → κ → Bool) (d : α) (k : κ) (v : α)
    (l : List (κ × α)) : List (κ × α) :=
  if v = d then Assoc.erase k l else Assoc.ins lt k v (Assoc.erase k l)

/-- Keys strictly rising. -/
def Assoc.sorted {κ α : Type} (lt : κ → κ → Bool) : List (κ × α) → Bool
  | [] => true
  | (k, _) :: t => t.all (fun e => lt k e.1) && Assoc.sorted lt t

/-- The canonical form: keys strictly rising, no entry equal to the default. -/
def Assoc.wf {κ α : Type} [DecidableEq α] (lt : κ → κ → Bool) (d : α) (l : List (κ × α)) : Bool :=
  Assoc.sorted lt l && l.all (fun e => decide (e.2 ≠ d))

end Sys2Proof.Machine
end

