-- ==== Sys2Proof/Machine/Ops.lean ====
section
/-! DEFINITION. The named operations over the state: register fields, hidden values, memories, free values, domains and
the reachability of a unit. Every meaning is written over these. -/

namespace Sys2Proof.Machine

/-! ## Register fields -/

/-- The value of a register field instance. -/
def State.rd (s : State) (f : Fld) (i : Nat) : Nat := Assoc.get (resetVal s.variant f i) (f, i) s.regs

/-- The state with a register field instance set, cut to the field's width. -/
def State.wr (s : State) (f : Fld) (i v : Nat) : State :=
  { s with regs := Assoc.set fldLt (resetVal s.variant f i) (f, i) (trunc f.desc.width v) s.regs }

/-- The value of a shadow field in effect (R99). -/
def State.rdA (s : State) (f : Fld) (i : Nat) : Nat := Assoc.get (resetVal s.variant f i) (f, i) s.applied

/-- The state with a shadow field in effect set. -/
def State.wrA (s : State) (f : Fld) (i v : Nat) : State :=
  { s with applied := Assoc.set fldLt (resetVal s.variant f i) (f, i) (trunc f.desc.width v) s.applied }

/-- A one-bit field reads 1. -/
def State.on (s : State) (f : Fld) (i : Nat) : Bool := s.rd f i == 1

/-- A signed field. -/
def State.rdS (s : State) (f : Fld) (i : Nat) : Int := toS f.desc.width (s.rd f i)

/-- A signed field set. -/
def State.wrS (s : State) (f : Fld) (i : Nat) (v : Int) : State := s.wr f i (ofS f.desc.width v)

/-- A saturating counter advanced by `n` (marks "saturating" of the tables). -/
def State.count (s : State) (f : Fld) (i : Nat) (n : Nat := 1) : State := s.wr f i (satAdd f.desc.width (s.rd f i) n)

/-- A counter that wraps, advanced by `n`. -/
def State.bump (s : State) (f : Fld) (i : Nat) (n : Nat := 1) : State := s.wr f i (s.rd f i + n)

/-- Bit `k` of a wide field set. -/
def State.setBitF (s : State) (f : Fld) (i k : Nat) : State := s.wr f i (setBit k (s.rd f i))

/-- Bit `k` of a wide field cleared. -/
def State.clrBitF (s : State) (f : Fld) (i k : Nat) : State := s.wr f i (clrBit k (s.rd f i))

/-- The same value written to a list of fields of one instance. -/
def State.wrAll (s : State) (fs : List Fld) (i v : Nat) : State := fs.foldl (fun s f => s.wr f i v) s

/-! ## Hidden values -/

/-- A hidden value. -/
def State.h (s : State) (x : Hid) (i : Nat := 0) : Nat := Assoc.get 0 (x, i) s.hid

/-- The state with a hidden value set. -/
def State.setH (s : State) (x : Hid) (i v : Nat) : State := { s with hid := Assoc.set hidLt 0 (x, i) v s.hid }

/-- A signed hidden value. -/
def State.hS (s : State) (x : Hid) (i : Nat := 0) : Int := toS 192 (s.h x i)

/-- A signed hidden value set. -/
def State.setHS (s : State) (x : Hid) (i : Nat) (v : Int) : State := s.setH x i (ofS 192 v)

/-! ## Memories

Each byte memory is a region of `mem`; the byte at an address lies at 16 × address + region. A byte that nothing has written reads 0:
the wipes of Table 8.5 and R303 leave zeros (log entry 4). -/

/-- The byte memories. -/
inductive Region where
  /-- host memory behind PCIe -/
  | host
  /-- the Granary, cell i at 256 i (R255) -/
  | granary
  /-- the Cellar, stack k at k × 2^34 (R260) -/
  | cellar
  /-- the Pantries, engine e at e × 4 MiB -/
  | pantry
  /-- boot flash, two banks -/
  | flash
  /-- the staging window of R462 -/
  | reeStage
  /-- the Weighhouse staging window (R445) -/
  | wghStage
  /-- Reeve SRAM -/
  | sram
  /-- Almanac NVM -/
  | almanac
  /-- memory of the Weighhouse core, whose layout the manual does not give (R418) -/
  | wghMem
  /-- the installed Weighhouse image (R443) -/
  | wghNvm
  deriving DecidableEq, Repr

/-- Number of a region. -/
def Region.idx (r : Region) : Nat := r.ctorIdx

/-- The key of a byte. -/
def Region.key (r : Region) (a : Nat) : Nat := 16 * a + r.idx

/-- One byte of a memory. -/
def State.byte (s : State) (r : Region) (a : Nat) : Byte := Assoc.get 0 (r.key a) s.mem

/-- The state with one byte written. -/
def State.setByte (s : State) (r : Region) (a : Nat) (b : Byte) : State :=
  { s with mem := Assoc.set natLt 0 (r.key a) b s.mem }

/-- `n` bytes from address `a`. -/
def State.bytes (s : State) (r : Region) (a : Nat) : Nat → List Byte
  | 0 => []
  | n + 1 => s.byte r a :: s.bytes r (a + 1) n

/-- The state with a list of bytes written from address `a`. -/
def State.setBytes (s : State) (r : Region) (a : Nat) : List Byte → State
  | [] => s
  | b :: t => (s.setByte r a b).setBytes r (a + 1) t

/-- A little-endian number of `n` bytes. -/
def State.rdMem (s : State) (r : Region) (a n : Nat) : Nat := leNat (s.bytes r a n)

/-- A little-endian number written in `n` bytes. -/
def State.wrMem (s : State) (r : Region) (a n v : Nat) : State := s.setBytes r a (leBytes n v)

/-- A memory's addresses `lo` to `hi - 1` wiped to 0. -/
def State.wipe (s : State) (r : Region) (lo hi : Nat) : State :=
  { s with mem := s.mem.filter (fun c => decide (¬ (c.1 % 16 = r.idx ∧ lo ≤ c.1 / 16 ∧ c.1 / 16 < hi))) }

/-- The memory is in canonical form: addresses strictly rising, no entry equal to 0. -/
def State.memWf (s : State) : Bool := Assoc.wf natLt (0 : Byte) s.mem

/-! ## Buffers, queues and frames -/

/-- Order of pairs. -/
def pairKeyLt (a b : Nat × Nat) : Bool := pairLt a.1 a.2 b.1 b.2

/-- A buffer; a free one has the default value. -/
def State.buf (s : State) (h : Nat) : Buf := Assoc.get {} h s.bufs
/-- The state with a buffer's record set. -/
def State.setBuf (s : State) (h : Nat) (b : Buf) : State := { s with bufs := Assoc.set natLt {} h b s.bufs }
/-- Egress queue k = 8 p + t. -/
def State.queue (s : State) (k : Nat) : List Copy := Assoc.get [] k s.queues
/-- The state with an egress queue set. -/
def State.setQueue (s : State) (k : Nat) (l : List Copy) : State := { s with queues := Assoc.set natLt [] k l s.queues }
/-- Engine input queue k = 64 e + q. -/
def State.eq (s : State) (k : Nat) : List Copy := Assoc.get [] k s.eqs
/-- The state with an engine input queue set. -/
def State.setEq (s : State) (k : Nat) (l : List Copy) : State := { s with eqs := Assoc.set natLt [] k l s.eqs }
/-- Host queue k; 16 is the Reeve's. -/
def State.hq (s : State) (k : Nat) : List Copy := Assoc.get [] k s.hostq
/-- The state with a host queue set. -/
def State.setHq (s : State) (k : Nat) (l : List Copy) : State := { s with hostq := Assoc.set natLt [] k l s.hostq }
/-- Hatch k = 16 e + h. -/
def State.hatch (s : State) (k : Nat) : List Nat := Assoc.get [] k s.hatches
/-- The state with a hatch set. -/
def State.setHatch (s : State) (k : Nat) (l : List Nat) : State := { s with hatches := Assoc.set natLt [] k l s.hatches }
/-- The frame in reception on port p. -/
def State.rxOf (s : State) (p : Nat) : Option Rx := Assoc.get none p s.rx
/-- The state with the frame in reception on port p set. -/
def State.setRx (s : State) (p : Nat) (r : Option Rx) : State := { s with rx := Assoc.set natLt none p r s.rx }
/-- The frame in transmission on port p. -/
def State.txOf (s : State) (p : Nat) : Option Tx := Assoc.get none p s.tx
/-- The state with the frame in transmission on port p set. -/
def State.setTx (s : State) (p : Nat) (r : Option Tx) : State := { s with tx := Assoc.set natLt none p r s.tx }
/-- The frames port p itself has still to send. -/
def State.ctlOf (s : State) (p : Nat) : List Tx := Assoc.get [] p s.ctl
/-- The state with those set. -/
def State.setCtl (s : State) (p : Nat) (l : List Tx) : State := { s with ctl := Assoc.set natLt [] p l s.ctl }
/-- What a stage-cell track holds. -/
def State.track (s : State) (k : Nat) : Track := Assoc.get {} k s.tracks
/-- The state with a track set. -/
def State.setTrack (s : State) (k : Nat) (t : Track) : State := { s with tracks := Assoc.set natLt {} k t s.tracks }
/-- A lookup entry. -/
def State.entry (s : State) (t i : Nat) : LkEntry := Assoc.get {} (t, i) s.lkp
/-- The state with a lookup entry set. -/
def State.setEntry (s : State) (t i : Nat) (e : LkEntry) : State :=
  { s with lkp := Assoc.set pairKeyLt {} (t, i) e s.lkp }
/-- Long-window values of slot n. -/
def State.long (s : State) (n : Nat) : List Int := Assoc.get [] n s.y4096
/-- The state with those set. -/
def State.setLong (s : State) (n : Nat) (l : List Int) : State := { s with y4096 := Assoc.set natLt [] n l s.y4096 }
/-- Capture FIFO k. -/
def State.cap (s : State) (k : Nat) : List CapRec := Assoc.get [] k s.caps
/-- The state with a capture FIFO set. -/
def State.setCap (s : State) (k : Nat) (l : List CapRec) : State := { s with caps := Assoc.set natLt [] k l s.caps }
/-- The pairing state of observer o. -/
def State.obsOf (s : State) (o : Nat) : ObsState := Assoc.get {} o s.obs
/-- The state with it set. -/
def State.setObs (s : State) (o : Nat) (x : ObsState) : State := { s with obs := Assoc.set natLt {} o x s.obs }
/-- The gather queue of engine e. -/
def State.gqOf (s : State) (e : Nat) : List Contrib := Assoc.get [] e s.gq
/-- The state with it set. -/
def State.setGq (s : State) (e : Nat) (l : List Contrib) : State := { s with gq := Assoc.set natLt [] e l s.gq }
/-- The contributions that wait at half h's gather unit. -/
def State.ginOf (s : State) (h : Nat) : List Copy := Assoc.get [] h s.gin
/-- The state with them set. -/
def State.setGin (s : State) (h : Nat) (l : List Copy) : State := { s with gin := Assoc.set natLt [] h l s.gin }
/-- The round trips tracked on port p. -/
def State.rts (s : State) (p : Nat) : List Int := Assoc.get [] p s.rtLog
/-- The state with those set. -/
def State.setRts (s : State) (p : Nat) (l : List Int) : State := { s with rtLog := Assoc.set natLt [] p l s.rtLog }
/-- List k of the twin tracker. -/
def State.twls (s : State) (k : Nat) : List Int := Assoc.get [] k s.twl
/-- The state with list k of the twin tracker set. -/
def State.setTwl (s : State) (k : Nat) (l : List Int) : State := { s with twl := Assoc.set natLt [] k l s.twl }
/-- Weighhouse slot k. -/
def State.wslot (s : State) (k : Nat) : WSlot := Assoc.get {} k s.wslots
/-- The state with a Weighhouse slot set. -/
def State.setWslot (s : State) (k : Nat) (x : WSlot) : State := { s with wslots := Assoc.set natLt {} k x s.wslots }
/-- The last timestamp of Weighhouse source k. -/
def State.wlastOf (s : State) (k : Nat) : Option WStamp := Assoc.get none k s.wlast
/-- The state with that set. -/
def State.setWlast (s : State) (k : Nat) (x : Option WStamp) : State := { s with wlast := Assoc.set natLt none k x s.wlast }
/-- Register n of TZ core c. -/
def State.tr (s : State) (c n : Nat) : Nat := Assoc.get 0 (c, n) s.treg
/-- The state with a register of a TZ core set. -/
def State.setTr (s : State) (c n v : Nat) : State := { s with treg := Assoc.set pairKeyLt 0 (c, n) v s.treg }

/-! ## Free values -/

/-- The next free value, cut to `w` bits: a value the manual leaves open. -/
def State.freeVal (s : State) (w : Nat) : Nat := trunc w (Config.free s.freeN)

/-- The counter of free values advanced. -/
def State.nextFree (s : State) : State := { s with freeN := s.freeN + 1 }

/-! ## Answers to accesses -/

/-- The access completes; a read returns `v`. -/
def State.ok (s : State) (v : Nat := 0) : State := { s with resp := ⟨.ok, v⟩ }

/-- The access ends in a bus error (R9). -/
def State.busError (s : State) : State := { s with resp := ⟨.busError, 0⟩ }

/-! ## Domains and units -/

/-- State of a domain (HRT_PWR_STAT): 0 OFF, 1 RAMPING, 2 ISOLATED, 3 ON. -/
def State.domState (s : State) (d : Dom) : Nat := bits (2 * d.idx) 2 (s.rd (.hrt .PWR_STAT_STATE) 0)

/-- A domain is ON. -/
def State.domOn (s : State) (d : Dom) : Bool := s.domState d == 3

/-- The state with a domain's state set. -/
def State.setDom (s : State) (d : Dom) (v : Nat) : State :=
  s.wr (.hrt .PWR_STAT_STATE) 0 (putBits (2 * d.idx) 2 v (s.rd (.hrt .PWR_STAT_STATE) 0))

/-- The clock enable of lane n's block (Table 15.3). -/
def State.laneClk (s : State) (n : Nat) : Bool :=
  if n < 64 then bit (n / 4) (s.rd (.glb .CLK_EN_QUAD) 0)
  else if n < 72 then s.on (.glb .CLK_EN_SPUR) 0 else s.on (.glb .CLK_EN_TWIN) 0

/-- The clock enable of unit `o` of a group; true where R498 lists none. -/
def State.clkOn (s : State) (g : Grp) (o : Nat) : Bool :=
  match g.info.blk with
  | .lane => s.laneClk o
  | .quad => bit o (s.rd (.glb .CLK_EN_QUAD) 0)
  | .twn => s.on (.glb .CLK_EN_TWIN) 0
  | .stamp => s.on (.glb .CLK_EN_STAMP) 0
  | .tal => s.on (.glb .CLK_EN_TAL) 0
  | .mod => bit o (s.rd (.glb .CLK_EN_MOD) 0)
  | .gth => bit o (s.rd (.glb .CLK_EN_GTH) 0)
  | .surv => s.on (.glb .CLK_EN_SURV) 0
  | .cel => if g = .STACK then bit o (s.rd (.glb .CLK_EN_CEL) 0) else true
  | .eng => s.on (.eng .CTL_CLK_EN) o
  | _ => true

/-- The unit is present, its domain is on and its clock runs: it works. -/
def State.up (s : State) (g : Grp) (i : Nat) : Bool :=
  g.present s.variant i && s.domOn (g.dom (g.outer i)) && s.clkOn g (g.outer i)

/-- A unit that is absent, off or not clocked does nothing: the effect `k` happens only in one that works. -/
def State.inUnit (s : State) (g : Grp) (i : Nat) (k : State → State) : State := if s.up g i then k s else s

/-- An effect that needs only its domain on. -/
def State.inDom (s : State) (d : Dom) (k : State → State) : State := if s.domOn d then k s else s

/-- An effect that happens only under a condition. -/
def State.when (s : State) (c : Bool) (k : State → State) : State := if c then k s else s

/-- The Hearth link stands between the requester and the register (R18): every requester but the I2C target, which lies
in the HEARTH domain (R536). -/
def linkNeeded (r : Req) (b : Blk) : Bool :=
  match b with
  | .hrt | .wgh => r ≠ .i2c
  | _ => false

/-- How an access of a requester to unit `i` of a group ends before any effect (R3, R15, R18, R492): `none` when it
reaches the registers. An absent unit reads 0 and ignores writes; a domain that is not ON, a gated block and an untrained
Hearth link are bus errors. The endpoint does not answer the
host before it is enabled (R530). ENG_CTL (offset 0 of an engine's block) is not gated (R498). -/
def State.access (s : State) (r : Req) (g : Grp) (i : Nat) (gated : Bool := true) : Option State :=
  if r = .host ∧ s.h .pcieOn = 0 then some s.busError
  else if ¬ g.present s.variant i then some s.ok
  else if ¬ s.domOn (g.dom (g.outer i)) then some s.busError
  else if gated ∧ ¬ s.clkOn g (g.outer i) then some s.busError
  else if linkNeeded r g.info.blk ∧ s.h .hlink = 0 then some s.busError
  else none

/-- A register write by a requester that reaches the registers of unit `i`: it completes with the effect `k`. -/
def State.writeTo (s : State) (r : Req) (g : Grp) (i : Nat) (k : State → State) (gated : Bool := true) : State :=
  match s.access r g i gated with
  | some s' => s'
  | none => (k s).ok

/-! ## Resets -/

/-- Fields and hidden values of the domains in `ds` whose survival code is in `lost` return to their reset values (R16,
Table 15.5). NVM and OTP keep. A unit's settings in effect are lost with its domain; its shadow is not (R99). -/
def State.lose (s : State) (ds : List Dom) (lost : List Surv) : State :=
  { s with
    regs := s.regs.filter (fun e => decide (¬ (fldDom e.1.1 e.1.2 ∈ ds ∧ e.1.1.desc.surv ∈ lost ∧ e.1.1.desc.nvm = false)))
    hid := s.hid.filter (fun e => match e.1.1.home.dom e.1.2 with
      | some d => decide (¬ (d ∈ ds ∧ e.1.1.home.surv ∈ lost))
      | none => true)
    applied := s.applied.filter (fun e => decide (e.1.1.desc.grp.dom (e.1.1.desc.grp.outer e.1.2) ∉ ds))
    prev := if Dom.reeve ∈ ds ∧ Surv.W ∈ lost then [] else s.prev
    rfifo := if Dom.reeve ∈ ds then [] else s.rfifo
    ctx := if Dom.reeve ∈ ds then [] else s.ctx
    bufs := if Dom.core ∈ ds then [] else s.bufs
    queues := if Dom.core ∈ ds then [] else s.queues
    rx := if Dom.core ∈ ds then [] else s.rx
    tx := if Dom.core ∈ ds then [] else s.tx
    ctl := if Dom.core ∈ ds then [] else s.ctl
    tracks := if Dom.core ∈ ds then [] else s.tracks
    lkp := if Dom.core ∈ ds then [] else s.lkp
    obs := if Dom.core ∈ ds then [] else s.obs
    rtLog := s.rtLog.filter (fun e => decide (laneDom e.1 ∉ ds))
    hostq := if Dom.core ∈ ds then [] else s.hostq
    wslots := if Dom.weigh ∈ ds then [] else s.wslots
    wlast := if Dom.weigh ∈ ds then [] else s.wlast
    wqueue := if Dom.weigh ∈ ds then [] else s.wqueue
    twl := if Dom.bell ∈ ds then [] else s.twl
    twTx := if Dom.bell ∈ ds then [] else s.twTx
    hist := if Dom.hearth ∈ ds ∧ Surv.H ∈ lost then [] else s.hist
    y4096 := if Dom.bell ∈ ds then [] else s.y4096
    meas := if Dom.bell ∈ ds then [] else s.meas
    measPrev := if Dom.bell ∈ ds then [] else s.measPrev
    refused := if Dom.bell ∈ ds then [] else s.refused
    caps := if Dom.bell ∈ ds then [] else s.caps
    eqs := if Dom.engine ∈ ds ∨ Dom.core ∈ ds then [] else s.eqs
    hatches := if Dom.engine ∈ ds then [] else s.hatches
    cache := if Dom.engine ∈ ds then [] else s.cache
    bins := if Dom.engine ∈ ds ∨ Dom.core ∈ ds then [] else s.bins
    gq := if Dom.engine ∈ ds ∨ Dom.core ∈ ds then [] else s.gq
    gin := if Dom.engine ∈ ds ∨ Dom.core ∈ ds then [] else s.gin
    gouts := if Dom.engine ∈ ds ∨ Dom.core ∈ ds then [] else s.gouts
    emits := if Dom.engine ∈ ds ∨ Dom.core ∈ ds then [] else s.emits
    treg := s.treg.filter (fun e =>
      if e.1.1 < 128 then decide (Dom.engine ∉ ds) else if e.1.1 = 128 then decide (Dom.reeve ∉ ds)
      else if e.1.1 = 321 then decide (Dom.weigh ∉ ds)
      else decide (Dom.core ∉ ds))
    latch := s.latch.filter (fun e => ds.all (fun d => e.2.2 != d.idx))
    hold := s.hold.filter (fun e => ds.all (fun d => e.2.2 != d.idx)) }

end Sys2Proof.Machine
end

