-- ==== Sys2Proof/Machine/Operands.lean ====
section
/-! DEFINITION. The operand forms that many commands share: bell times in their 96-bit form (R7, R8, R70), the comparison
of a bell time with the timescale, and location words (R22). -/

namespace Sys2Proof.Machine

/-- Bell ticks in one second (R69). -/
def ticksPerSec : Nat := 625000000

/-- A tick count in the 96-bit form of R8: nanoseconds floor(TICK × 1.6), fraction rounded to nearest (R70). -/
def bell96 (t : Nat) : Nat :=
  let tick := t % ticksPerSec
  let ns := tick * 8 / 5
  let fr := (2 * (tick * 8 % 5) * 65536 + 5) / 10
  t / ticksPerSec * 2 ^ 48 + ns * 2 ^ 16 + fr

/-- A 96-bit bell time in units of 2^-16 ns since the epoch. -/
def u96 (w : Nat) : Nat := bits 48 48 w * (1000000000 * 65536) + bits 16 32 w * 65536 + bits 0 16 w

/-- Units of 2^-16 ns since the epoch in the 96-bit form. -/
def of96 (u : Nat) : Nat :=
  let ns := u / 65536
  ns / 1000000000 * 2 ^ 48 + ns % 1000000000 * 2 ^ 16 + u % 65536

/-- A count of bell ticks in units of 2^-16 ns / 5, which is exact. -/
def tickQ (t : Nat) : Nat := t * 524288

/-- The first tick at or after a time in 2^-16 ns. -/
def tickAt (u : Nat) : Nat := (u * 5 + 524287) / 524288

/-- Bell time of the state, in the 96-bit form. -/
def State.bellNow (s : State) : Nat := bell96 s.now

/-- Bell time of the state in 2^-16 ns, rounded down. -/
def State.nowU (s : State) : Nat := tickQ s.now / 5

/-- The timescale has reached the 96-bit time `w` (R101: its first reading at or after it). -/
def State.reached (s : State) (w : Nat) : Bool := tickAt (u96 w) ≤ s.now

/-- Ticks in a number of microseconds. -/
def usTicks (us : Nat) : Nat := us * 625

/-- Ticks in a number of milliseconds. -/
def msTicks (ms : Nat) : Nat := ms * 625000

/-- The coarse copy in the 96-bit form: it counts tenths of a nanosecond. -/
def coarse96 (c : Nat) : Nat :=
  c / 10000000000 * 2 ^ 48 + c % 10000000000 / 10 * 2 ^ 16 + (2 * (c % 10) * 65536 + 10) / 20

/-- Time passes: the bell clock counts `n` ticks while the BELL domain is on, and the coarse copy counts its nominal
length (R69, R94). -/
def State.pass (s : State) (n : Nat) : State :=
  { s with now := if s.domOn .bell then s.now + n else s.now, coarse := s.coarse + 16 * n, age := s.age + n }

/-- Time passes until the timescale reads tick `t`; a time already past, or a bell clock that does not run, changes
nothing. -/
def State.passTo (s : State) (t : Nat) : State := if s.domOn .bell then s.pass (t - s.now) else s

/-- Time passes until `age` reads `t`: an interval that no step of the timescale moves. -/
def State.passAge (s : State) (t : Nat) : State := s.pass (t - s.age)

/-- A location word (R22, Table 1.3). -/
def locWord (level die kind index : Nat) (sub : Nat := 0) : Nat :=
  level * 2 ^ 29 + die * 2 ^ 26 + kind * 2 ^ 21 + index * 2 ^ 12 + sub

/-- Location of lane n. -/
def locLane (n : Nat) : Nat := locWord 2 0 0x06 n
/-- Location of quad q. -/
def locQuad (q : Nat) : Nat := locWord 3 0 0x04 q
/-- Location of slice s. -/
def locSlice (s : Nat) : Nat := locWord 4 0 0x03 s
/-- Location of Granary bank b. -/
def locBank (b : Nat) : Nat := locWord 2 0 0x07 b
/-- Location of stage cell c. -/
def locCell (c : Nat) : Nat := locWord 4 0 0x08 c
/-- Location of engine e. -/
def locEngine (e : Nat) : Nat := locWord 5 0 0x09 e
/-- Location of Cellar stack k. -/
def locStack (k : Nat) : Nat := locWord 6 (2 + k) 0x01 0
/-- Location of half h. -/
def locHalf (h : Nat) : Nat := locWord 5 0 0x02 h
/-- Location of the Bell Tower. -/
def locBell : Nat := locWord 6 0 0x0C 0
/-- Location of the Reeve. -/
def locReeve : Nat := locWord 6 0 0x0D 0
/-- Location of the switch die. -/
def locSwitchDie : Nat := locWord 6 0 0x01 0
/-- Location of the lookup store. -/
def locLookup : Nat := locWord 6 0 0x0E 0
/-- Location of the Weighhouse. -/
def locWgh : Nat := locWord 6 1 0x0F 0
/-- Location of the Hearth always-on domain. -/
def locHearth : Nat := locWord 6 1 0x10 0
/-- Location of timing output k. -/
def locTout (k : Nat) : Nat := locWord 6 0 0x11 k
/-- Location of capture input k. -/
def locEcap (k : Nat) : Nat := locWord 6 0 0x12 k

end Sys2Proof.Machine
end

