-- ==== Sys2Proof/Machine/Flags.lean ====
section
/-! DEFINITION. The flags every command may touch: the Crier's latches, records and vectors (R508-R519, R564) and the
Ledger (R454, R455). Raising an event and writing a Ledger entry are written here once. -/

namespace Sys2Proof.Machine

/-! ## Vectors -/

/-- Vector of device source n (CRI_VMAP). -/
def State.vecOfDev (s : State) (n : Nat) : Nat := bits (8 * (n % 4)) 6 (s.rd (.cri .VMAP) (n / 4))

/-- Vector of port p's sources (CRI_PVMAP). -/
def State.vecOfPort (s : State) (p : Nat) : Nat := bits (8 * (p % 4)) 6 (s.rd (.cri .PVMAP) (p / 4))

/-- The pending sources of the device (R514). -/
def State.devPend (s : State) : Nat := andNot (s.rd (.cri .LATCH) 0) (s.rd (.cri .MASK) 0)

/-- The pending sources of port p (R514). -/
def State.portPend (s : State) (p : Nat) : Nat := andNot (s.rd (.cri .PORT_LATCH) p) (s.rd (.cri .PORT_MASK) p)

/-- Vector v is pending: some source routed to it is (R516). -/
def State.vecPending (s : State) (v : Nat) : Bool :=
  (bitsOf 128 s.devPend).any (fun n => s.vecOfDev n == v) ||
  (List.range 72).any (fun p => s.portPend p != 0 && s.vecOfPort p == v)

/-- Vector v's message is sent, or held with its pending bit while the MSI-X table masks it (R516); the hold starts. -/
def State.vecSend (s : State) (v : Nat) : State :=
  let s := if s.h .msixOpen v = 0 then s.setH .msixPend v 1 else s.setH .vecMsgs v (s.h .vecMsgs v + 1)
  if s.rd (.cri .VEC_HOLD) v = 0 then s else s.setH .vecHold v 1

/-- Vector v after a change from state `old`: going from not pending to pending sends its message, or waits for the end
of a running hold (R516). -/
def State.vecUpdate (old s : State) (v : Nat) : State :=
  if ¬ old.vecPending v ∧ s.vecPending v then
    if s.h .vecHold v = 1 then s.setH .vecAgain v 1 else s.vecSend v
  else s

/-- All vectors after a change from state `old`. -/
def State.vecUpdateAll (old s : State) : State := (List.range 64).foldl (fun s v => State.vecUpdate old s v) s

/-- EVT_N is driven low: some vector set in CRI_PIN_VEC is pending (R517); it floats while REEVE is off. -/
def State.evtLow (s : State) : Bool :=
  s.domOn .reeve && (bitsOf 64 (s.rd (.cri .PIN_VEC) 0)).any (fun v => s.vecPending v)

/-! ## Records -/

/-- The 32 octets of an event record (Table 16.3) as written to the ring. -/
def EvRec.toBytes (r : EvRec) (phase lost : Bool) : List Byte :=
  leBytes 12 r.time ++ leBytes 2 r.src ++ leBytes 1 r.code ++
  leBytes 1 (phase.toNat + 2 * lost.toNat + 4 * r.timeCoarse.toNat + 8 * r.caution.toNat) ++
  leBytes 4 r.loc ++ leBytes 8 r.detail ++ leBytes 2 r.gen ++ leBytes 2 0

/-- The octets of a record as one number, for the Reeve's record FIFO; PHASE and LOST read 0 there (log entry 9). -/
def EvRec.toNat (r : EvRec) : Nat := leNat (r.toBytes false false)

/-- Setting the LATCH of device source n with no record, when it is enabled (CRI.RING_LOST while the ring is full). -/
def State.latchDev (s : State) (n : Nat) : State :=
  if bit n (s.rd (.cri .EN) 0) then
    if bit n (s.rd (.cri .LATCH) 0) then
      s.wr (.cri .FOLD) (n / 4) (putBits (8 * (n % 4)) 8 (satAdd 8 (bits (8 * (n % 4)) 8 (s.rd (.cri .FOLD) (n / 4))) 1)
        (s.rd (.cri .FOLD) (n / 4)))
    else State.vecUpdate s (s.setBitF (.cri .LATCH) 0 n) (s.vecOfDev n)
  else s

/-- The event ring takes a record, or drops it when full (R518). -/
def State.ringPut (s : State) (r : EvRec) : State :=
  if ¬ s.on (.cri .RING_EN) 0 then s
  else
    let size := 2 ^ s.rd (.cri .RING_SIZE) 0
    let head := s.rd (.cri .RING_HEAD) 0
    if (head + 1) % size = s.rd (.cri .RING_TAIL) 0 % size then
      ((s.count (.cri .RING_LOST) 0).setH .ringLostNext 0 1).latchDev 3
    else
      let s := s.setBytes .host (s.rd (.cri .RING_RBASE) 0 + 32 * head)
        (r.toBytes (s.h .ringPhase == 1) (s.h .ringLostNext == 1))
      let s := s.setH .ringLostNext 0 0
      let s := s.wr (.cri .RING_HEAD) 0 ((head + 1) % size)
      if head + 1 = size then s.setH .ringPhase 0 (1 - s.h .ringPhase) else s

/-- A record enters the Reeve's FIFO of 256 entries, or is counted lost, and goes to the event ring (R518, R519). -/
def State.recPut (s : State) (r : EvRec) : State :=
  let s := if s.rfifo.length < 256 then { s with rfifo := s.rfifo ++ [r] } else s.count (.cri .RFIFO_LOST) 0
  s.ringPut r

/-- Time of a record: bell time, or the coarse copy's with TIME_COARSE when BELL is off or STEPPED = 0 (Table 16.3). -/
def State.recTime (s : State) : Nat × Bool :=
  if s.domOn .bell && s.on (.bell .STATUS_STEPPED) 0 then (s.bellNow, false) else (coarse96 s.coarse, true)

/-- The commit unit whose applied generation a record carries; `none` means DEV_GEN (R564). -/
def Ev.genUnit (e : Ev) (port loc : Nat) : Option Nat :=
  let idx := bits 12 9 loc
  match e.src.1 with
  | .dev n =>
    if n ≤ 2 then some 0 else if n ≤ 7 then none else if n ≤ 23 then some 1 else if n = 33 then some 3
    else if n ≤ 32 then some 4 else if n = 40 then some (8 + idx) else if n = 41 then some 26
    else if n ≤ 43 then some (16 + (if bits 21 5 loc = 0x12 then idx else 0))
    else if n ≤ 55 then some 28 else if n = 57 then none
    else if n ≤ 71 then some (194 + idx) else if n ≤ 79 then some 29
    else if n ≤ 87 then some (218 + (bits 26 3 loc - 2)) else if n ≤ 90 then some (202 + idx)
    else if n ≤ 103 then some (30 + idx % 2) else if n ≤ 109 then some 7 else if n ≤ 111 then none
    else if n ≤ 116 then some 6 else if n ≤ 119 then some 5 else if n ≤ 123 then some 0 else some 27
  | .port k => if k ≤ 4 then some (122 + port) else if k = 13 ∨ k = 14 then some 28 else some (48 + port)

/-- The record of a raise (R512, R564). -/
def State.mkRec (s : State) (e : Ev) (port loc detail : Nat) : EvRec :=
  { time := s.recTime.1
    src := match e.src.1 with | .dev n => n | .port k => 128 + 24 * port + k
    code := e.src.2
    timeCoarse := s.recTime.2
    caution := s.on (.hrt .SUPPLY_CAUTION) 0
    loc := loc
    detail := trunc 64 detail
    gen := match e.genUnit port loc with | some u => s.h .unitGen u | none => s.rd (.glb .DEV_GEN) 0 }

/-- An event is raised (R513-R515): with EN = 1 it sets LATCH and, if LATCH was 0, writes one record; a raise while LATCH
is set counts in FOLD. While REEVE is off, sources 112-119 latch in the Hearth and hold one record each; no other source
leaves a trace. -/
def State.raise (s : State) (e : Ev) (loc : Nat := 0) (detail : Nat := 0) (port : Nat := 0) : State :=
  match e.src.1 with
  | .dev n =>
    if ¬ bit n (s.rd (.cri .EN) 0) then s
    else if s.domOn .reeve then
      if bit n (s.rd (.cri .LATCH) 0) then s.latchDev n else (s.latchDev n).recPut (s.mkRec e port loc detail)
    else if 112 ≤ n ∧ n ≤ 119 then
      if bit n (s.rd (.cri .LATCH) 0) then s
      else { s.setBitF (.cri .LATCH) 0 n with held := s.held ++ [{ s.mkRec e port loc detail with timeCoarse := true }] }
    else s
  | .port k =>
    if ¬ s.domOn .reeve ∨ ¬ s.variant.hasPort port ∨ ¬ bit k (s.rd (.cri .PORT_EN) port) then s
    else if bit k (s.rd (.cri .PORT_LATCH) port) then s
    else
      let s' := State.vecUpdate s (s.setBitF (.cri .PORT_LATCH) port k) (s.vecOfPort port)
      s'.recPut (s.mkRec e port loc detail)

/-- A port source is raised on port p. -/
def State.raiseP (s : State) (e : Ev) (p : Nat) (detail : Nat := 0) : State := s.raise e (locLane p) detail p

/-! ## Ledger -/

/-- Who writes a Ledger entry (Table 14.4). -/
inductive LedSrc where
  | hw | reeve | rom
  deriving DecidableEq, Repr

/-- A Ledger entry is written at HEAD, and copied into the archive when lasting (R454, Table 14.4). -/
def State.ledger (s : State) (code : Nat) (lasting : Bool) (loc detail : Nat) (src : LedSrc := .hw) : State :=
  let seq := s.rd (.ree .LEDGER_SEQ) 0
  let head := s.rd (.ree .LEDGER_HEAD) 0
  let flags := lasting.toNat + 2 * s.recTime.2.toNat + 4 * (s.rd (.hrt .SUPPLY_CAUTION) 0)
  let e := leNat (leBytes 4 seq ++ leBytes 12 s.recTime.1 ++ leBytes 2 code ++ leBytes 1 flags ++
    leBytes 1 src.ctorIdx ++ leBytes 4 loc ++ leBytes 8 detail)
  let s := s.wr (.ree .RING_ENTRY) head e
  let s := s.bump (.ree .LEDGER_HEAD) 0
  let s := s.bump (.ree .LEDGER_SEQ) 0
  if lasting then
    let n := s.h .archCount
    let s := { s with archive := Assoc.set natLt 0 (n % 131072) e s.archive }
    let s := s.setH .archCount 0 (n + 1)
    if n < 131072 then s else s.bump (.ree .ARCH_WRAP) 0
  else s

end Sys2Proof.Machine
end

