-- ==== Sys2Proof/Machine/Arm.lean ====
section
/-! DEFINITION. Arming the commit controller (Table 3.6, R100) and the one-entry queue of internal requests (R105). -/

namespace Sys2Proof.Machine

/-- Mode codes of Table 5.7. -/
def modeDormant : Nat := 0
def modeSurvey : Nat := 1
def modeFollow : Nat := 2
def modeLead : Nat := 3
def modeHoldover : Nat := 4
def modeFreeRun : Nat := 5
def modeService : Nat := 6

/-- The mode in effect. -/
def State.mode (s : State) : Nat := s.rd (.glb .MODE) 0

/-- Time in units of 2^-16 ns / 5 by which a commit is judged: bell time, or the coarse copy while the bell clock is off
(log entry 12). -/
def State.timeQ (s : State) : Nat := if s.domOn .bell then tickQ s.now else s.coarse * 32768

/-- T lies between now + 10 µs and now + 86 400 s (R100). -/
def State.tOk (s : State) (t : Nat) : Bool :=
  s.timeQ + tickQ (usTicks 10) ≤ u96 t * 5 && u96 t * 5 ≤ s.timeQ + tickQ (86400 * ticksPerSec)

/-- A host commit of TARGET `t` from mode `m` has a row in Table 5.8. -/
def targetRow (m t : Nat) : Bool :=
  if m = 1 then t == 0 || t == 2 || t == 3 || t == 6
  else if m = 6 then t == 0 || t == 1 || t == 2 || t == 3
  else if 2 ≤ m ∧ m ≤ 5 then t == 0 || t == 1 || t == 2 || t == 3 || t == 6
  else false

/-- While FATAL = 1 the mode controller takes only SERVICE and DORMANT (R477). -/
def State.fatalOk (s : State) (t : Nat) : Bool := !s.on (.ree .LBIST_FATAL) 0 || t == 0 || t == 6

/-- Commit controller states (Table 17.7). -/
def State.cstate (s : State) : Nat := s.rd (.glb .COMMIT_STATE) 0

/-- Units that are present and whose domain is on (R99). -/
def State.liveUnits (s : State) : List Nat :=
  (List.range 222).filter (fun u => unitPresent s.variant u && s.domOn (unitDom u))

/-- A refused COMMIT, ROLLBACK or CANCEL (Table 3.6). -/
def State.commitRefused (s : State) : State := s.raise .GLB_COMMIT_REFUSED

/-- The controller goes to ARMED with the participants `part`; PEND becomes `pend`; the masks of the last commit are set
aside (Table 3.6). A snapshot being saved becomes stale (R410). -/
def State.arm (s : State) (kind part pend gen t : Nat) : State :=
  let s := s.setH .asidePart 0 (s.rd (.glb .COMMIT_PART) 0)
  let s := s.setH .asideVec 0 (s.rd (.glb .COMMIT_VEC) 0)
  let s := s.setH .asideLate 0 (s.rd (.glb .COMMIT_LATE) 0)
  let s := s.setH .asideSplit 0 (s.rd (.glb .COMMIT_SPLIT) 0)
  let s := s.wr (.glb .COMMIT_PART) 0 part
  let s := s.wr (.glb .COMMIT_PEND) 0 pend
  let s := s.wr (.glb .COMMIT_VEC) 0 0
  let s := s.wr (.glb .COMMIT_LATE) 0 0
  let s := s.wr (.glb .DEV_GEN) 0 gen
  let s := (s.setH .commitKind 0 kind).setH .roleInt 0 0
  let s := ((s.setH .commitT 0 t).setH .snapStale 0 1).setH .treRep 0 0
  s.wr (.glb .COMMIT_STATE) 0 1

/-- A COMMIT with generation `gen` at T is acceptable (R100, R175, R477). -/
def State.commitOk (s : State) (gen t : Nat) : Bool :=
  let pend := s.rd (.glb .COMMIT_PEND) 0
  let target := s.rd (.glb .MODE_TARGET) 0
  s.cstate == 0 && gen == (s.rd (.glb .DEV_GEN) 0 + 1) % 65536 && s.tOk t && pend != 0 &&
  (!bit 0 pend || (targetRow s.mode target && s.fatalOk target))

/-- A COMMIT (first and second rows of Table 3.6). -/
def State.doCommit (s : State) (gen t : Nat) : State :=
  if s.commitOk gen t then s.arm 0 (s.rd (.glb .COMMIT_PEND) 0) 0 gen t else s.commitRefused

/-- The TARGET unit 0 held before the last commit. -/
def State.prevTarget (s : State) : Nat := Assoc.get 1 (.glb .MODE_TARGET, 0) s.prev

/-- A ROLLBACK with generation `gen` at T2 is acceptable (R100, R175). -/
def State.rollbackOk (s : State) (gen t : Nat) : Bool :=
  let part := s.rd (.glb .COMMIT_PART) 0
  (s.cstate == 0 || s.cstate == 3) && gen == (s.rd (.glb .DEV_GEN) 0 + 1) % 65536 && s.tOk t && part != 0 &&
  (!bit 0 part || s.fatalOk s.prevTarget)

/-- A ROLLBACK: PART keeps the PART of the last commit, PEND is unchanged (Table 3.6). -/
def State.doRollback (s : State) (gen t : Nat) : State :=
  if s.rollbackOk gen t then s.arm 1 (s.rd (.glb .COMMIT_PART) 0) (s.rd (.glb .COMMIT_PEND) 0) gen t
  else s.commitRefused

/-- A CANCEL: at least 10 µs before T it returns an ARMED controller to IDLE and restores what arming set aside; otherwise
it is refused (Table 3.6). -/
def State.doCancel (s : State) : State :=
  if s.cstate = 1 ∧ s.timeQ + tickQ (usTicks 10) ≤ u96 (s.h .commitT) * 5 then
    let s := if s.h .commitKind = 0 then
        s.wr (.glb .COMMIT_PEND) 0 (s.rd (.glb .COMMIT_PEND) 0 ||| s.rd (.glb .COMMIT_PART) 0) else s
    let s := s.wr (.glb .COMMIT_PART) 0 (s.h .asidePart)
    let s := s.wr (.glb .COMMIT_VEC) 0 (s.h .asideVec)
    let s := s.wr (.glb .COMMIT_LATE) 0 (s.h .asideLate)
    let s := s.wr (.glb .COMMIT_SPLIT) 0 (s.h .asideSplit)
    let s := s.wr (.glb .DEV_GEN) 0 (s.rd (.glb .DEV_GEN) 0 + 65535)
    s.wr (.glb .COMMIT_STATE) 0 0
  else s.commitRefused

/-- A shadow field is written (R99): refused while the controller is not IDLE, otherwise the shadow changes and the unit's
PEND bit is set. `k` makes the change. -/
def State.shadowWrite (s : State) (unit : Nat) (k : State → State) : State :=
  if s.cstate ≠ 0 then s.wr (.glb .COMMIT_STATE_SHADOW_REFUSED) 0 1
  else (k s).setBitF (.glb .COMMIT_PEND) 0 unit

/-- A write of a shadow field with a value the field's rule accepts or refuses (`good`): a write that leaves the value
changes nothing (R563). -/
def State.shadowSet (s : State) (f : Fld) (i v : Nat) (good : Bool := true) : State :=
  if trunc f.desc.width v = s.rd f i then s
  else if ¬ good then s.wr (.glb .COMMIT_STATE_SHADOW_REFUSED) 0 1
  else s.shadowWrite (shadowUnit f i) (fun s => s.wr f i v)

/-- A write of GLB_MODE.TARGET: always a shadow write, marking every present unit whose domain is on; codes 4, 5 and 7 are
refused (R99, R174). -/
def State.targetWrite (s : State) (t : Nat) : State :=
  if t = 4 ∨ t = 5 ∨ t = 7 ∨ s.cstate ≠ 0 then s.wr (.glb .COMMIT_STATE_SHADOW_REFUSED) 0 1
  else
    let s := s.wr (.glb .MODE_TARGET) 0 t
    s.wr (.glb .COMMIT_PEND) 0 (s.rd (.glb .COMMIT_PEND) 0 ||| maskOf s.liveUnits)

/-- What an internal request asks for (R105): each part is 1 + the setting, 0 where it names none. -/
structure IntReq where
  mode : Nat := 0
  role : Nat := 0
  src : Nat := 0
  deriving DecidableEq, Repr

/-- The units an internal request names: unit 0 for a mode, unit 27 for a role, unit 1 for a servo source. -/
def IntReq.units (q : IntReq) : Nat :=
  (if q.mode = 0 then 0 else 1) + (if q.src = 0 then 0 else 2) + (if q.role = 0 then 0 else 2 ^ 27)

/-- An internal request enters the one-entry queue, or is merged into the entry: units are added, the later setting
stands, the merge is counted (R105). -/
def State.intRequest (s : State) (q : IntReq) : State :=
  let s := if s.h .intFull = 1 then s.count (.glb .INT_MERGED) 0 else s.setH .intFull 0 1
  let s := s.setH .intUnits 0 (s.h .intUnits ||| q.units)
  let s := if q.mode = 0 then s else s.setH .intMode 0 q.mode
  let s := if q.role = 0 then s else s.setH .intRole 0 q.role
  if q.src = 0 then s else s.setH .intSrc 0 q.src

/-- Roles of TWN_CTL.ROLE (R389). -/
def twSOLO : Nat := 0
def twACTIVE : Nat := 1
def twSTANDBY : Nat := 2

/-- The role in effect. -/
def State.role (s : State) : Nat := s.rd (.twn .STATUS_ROLE_APPLIED) 0

/-- The twin link is UP. -/
def State.twUp (s : State) : Bool := s.rd (.twn .STATUS_LINK) 0 == 2

/-- The role in effect is STANDBY. -/
def State.standby (s : State) : Bool := s.role == twSTANDBY

/-- States of the twin tracker (R395). -/
def tkOFF : Nat := 0
def tkSEEKING : Nat := 1
def tkTRACKING : Nat := 2
def tkALIGNED : Nat := 3
def tkORPHAN : Nat := 4

/-- State of the twin tracker. -/
def State.trk (s : State) : Nat := s.rd (.twn .STATUS_TSTATE) 0

/-- The tracker is the source of the servo's word (R396). -/
def State.trkRuns (s : State) : Bool := s.standby && (s.trk == tkTRACKING || s.trk == tkALIGNED)

/-- `n` octets at octet `o` of the copied STATE (R399, Table 12.3), big-endian. -/
def State.copied (s : State) (o n : Nat) : Nat := beNat (((leBytes 104 (s.rd (.twn .COPY) 0)).drop o).take n)

/-- The active relinquishes (R404, Table 12.4): RELINQUISH in the next three HELLOs, STANDBY at now + 1 ms. While the link
is down it has no effect. -/
def State.relinquish (s : State) : State :=
  if s.role = twACTIVE ∧ s.twUp then (s.setH .relinq 0 3).intRequest { role := twSTANDBY + 1 } else s

end Sys2Proof.Machine
end

