-- ==== Sys2Proof/Machine/RegAccess.lean ====
section
/-! DEFINITION. From addresses to fields: which fields a register word holds, the bits of a word, and the hold registers of
multi-word writes (R10-R12, R542, R562). -/

namespace Sys2Proof.Machine

/-- Where address `a` falls in a group: instance and offset inside it. -/
def Grp.find (g : Grp) (a : Nat) : Option (Nat × Nat) :=
  let b := g.info.base
  if a < b then none
  else match g.info.dims with
    | [] => some (0, a - b)
    | [(c, st)] => if (a - b) / st < c then some ((a - b) / st, (a - b) % st) else none
    | (c, st) :: (c2, st2) :: _ =>
      if (a - b) / st < c ∧ (a - b) % st / st2 < c2 then
        some ((a - b) / st * c2 + (a - b) % st / st2, (a - b) % st % st2)
      else none

/-- Address of instance `i` of a group. -/
def Grp.addr (g : Grp) (i : Nat) : Nat :=
  match g.info.dims with
  | [] => g.info.base
  | [(_, st)] => g.info.base + i * st
  | (_, st) :: (c2, st2) :: _ => g.info.base + i / c2 * st + i % c2 * st2

/-- Address of the first word of a field instance. -/
def Fld.addr (f : Fld) (i : Nat) : Nat := f.desc.grp.addr i + f.desc.off

/-- Word `k` of a field's register holds some of its bits. -/
def Desc.inWord (d : Desc) (k : Nat) : Bool := d.lsb < 32 * k + 32 && 32 * k < d.lsb + d.width

/-- The field instance that lies in the word at `a`, with the number of the word in its register. -/
def Fld.atWord (f : Fld) (a : Nat) : Option (Fld × Nat × Nat) :=
  match f.desc.grp.find a with
  | none => none
  | some (i, off) =>
    if f.desc.off ≤ off ∧ f.desc.inWord ((off - f.desc.off) / 4) then some (f, i, (off - f.desc.off) / 4) else none

/-- The block an address lies in (Table 17.4). -/
def blkAt (a : Nat) : Option Blk := (regions.find? (fun r => r.1 ≤ a && a ≤ r.2.1)).map (fun r => r.2.2)

/-- The fields in the word at address `a`: field, instance, word number. -/
def fieldsAt (a : Nat) : List (Fld × Nat × Nat) :=
  match blkAt a with
  | none => []
  | some b => b.fields.filterMap (fun f => f.atWord a)

/-- The part of a field's value that word `k` shows. -/
def Desc.toWord (d : Desc) (k v : Nat) : Nat := v * 2 ^ d.lsb / 2 ^ (32 * k) % 2 ^ 32

/-- The field's value with the bits that word `k` shows replaced by those of `w`. -/
def Desc.fromWord (d : Desc) (k w v : Nat) : Nat :=
  let lo := max d.lsb (32 * k)
  let hi := min (d.lsb + d.width) (32 * k + 32)
  putBits (lo - d.lsb) (hi - lo) (w / 2 ^ (lo - 32 * k)) v

/-- The bits of the field that word `k` shows, as a mask on the field's value. -/
def Desc.wordMask (d : Desc) (k : Nat) : Nat := d.fromWord k (2 ^ 32 - 1) 0

/-- The bits a written word gives the field, at their places in the field's value, the rest 0. -/
def Desc.written (d : Desc) (k w : Nat) : Nat := d.fromWord k w 0

/-- The stored word at an address, from the fields as they stand. -/
def State.word (s : State) (a : Nat) : Nat :=
  (fieldsAt a).foldl (fun n e => n + e.1.desc.toWord e.2.2 (s.rd e.1 e.2.1)) 0

/-- Number of a requester. -/
def reqIdx : Req → Nat
  | .host => 0 | .i2c => 1 | .reeve => 2 | .eng e => 3 + e.val

/-- Order of hold keys. -/
def holdLt (a b : Nat × Nat) : Bool := pairLt a.1 a.2 b.1 b.2

/-- The word a requester has written to `a` since the value last took effect from it, else the word as it stands (R11). -/
def State.heldOr (s : State) (r : Req) (a : Nat) : Nat :=
  match Assoc.get (0, 0) (reqIdx r, a) s.hold with
  | (0, _) => s.word a
  | (w + 1, _) => w

/-- A lower word of a multi-word value is held for its requester (R11). -/
def State.holdPut (s : State) (r : Req) (a w : Nat) (d : Dom) : State :=
  { s with hold := Assoc.set holdLt (0, 0) (reqIdx r, a) (w + 1, d.idx) s.hold }

/-- The hold register of a word is emptied (R11). -/
def State.holdClear (s : State) (r : Req) (a : Nat) : State :=
  { s with hold := Assoc.erase (reqIdx r, a) s.hold }

/-- The whole value of a multi-word write whose highest word `w` is written at `a + 4 (n - 1)` (R11). -/
def State.heldValue (s : State) (r : Req) (a n w : Nat) : Nat :=
  (List.range (n - 1)).foldl (fun v k => v + s.heldOr r (a + 4 * k) * 2 ^ (32 * k)) (w * 2 ^ (32 * (n - 1)))

/-- The hold registers of a value's lower words are emptied. -/
def State.holdClearAll (s : State) (r : Req) (a n : Nat) : State :=
  (List.range (n - 1)).foldl (fun s k => s.holdClear r (a + 4 * k)) s

/-- The snapshot latch of a requester takes the upper words of a value it has read low (R10). -/
def State.setLatch (s : State) (r : Req) (v : Nat) (d : Dom) : State :=
  { s with latch := Assoc.set natLt (0, 0) (reqIdx r) (v, d.idx) s.latch }

/-- What the requester's latch holds (R10). -/
def State.latchOf (s : State) (r : Req) : Nat := (Assoc.get (0, 0) (reqIdx r) s.latch).1

end Sys2Proof.Machine
end

