-- ==== Sys2Proof/Machine/Hold.lean ====
section
/-! DEFINITION. The frequency word (R72-R74), the holdover history and its fit, the held and nominal words and the DAC
(R168-R173). -/

namespace Sys2Proof.Machine

/-! ## The word in effect -/

/-- ±200 ppm in units of 2^-48 (R73). -/
def freqLimit : Int := 56294995342

/-- NCO_SRC codes (Table 3.1). -/
def ncoSERVO : Nat := 0
def ncoHOLD : Nat := 1
def ncoNOMINAL : Nat := 2
def ncoNONE : Nat := 3

/-- The word in effect. -/
def State.wordNow (s : State) : Int := s.rdS (.bell .FREQ_NOW) 0

/-- The DAC carries a share of the correction: OSC_MODE = 1 (R172). -/
def State.dacMode (s : State) : Bool := s.on (.sel .HOLD_CFG_OSC_MODE) 0

/-- Units of 2^-48 per DAC code. -/
def State.dacK (s : State) : Nat := s.rd (.sel .HOLD_DAC_K) 0

/-- The DAC's contribution, counted from the mid-scale code (R172). -/
def State.dacPart (s : State) : Int := ((s.rd (.sel .HOLD_DAC_CODE) 0 : Int) - 0x80000) * s.dacK

/-- The total frequency correction (R168). -/
def State.totalNow (s : State) : Int := if s.dacMode then s.wordNow + s.dacPart else s.wordNow

/-- Temperature of sensor TSENS in 1/16 °C. -/
def State.tsens (s : State) : Int := s.rdS (.ree .TEMP_T) (s.rd (.sel .HOLD_CFG_TSENS) 0)

/-- The history is being recorded: LOCKED in FOLLOW or LEAD (R168). -/
def State.recording (s : State) : Bool :=
  s.h .locked == 1 && (s.rd (.glb .MODE) 0 == 2 || s.rd (.glb .MODE) 0 == 3)

/-- The sums of the history entry in hand are brought up to the present; called before the word or the temperature
changes. -/
def State.histSum (s : State) : State :=
  if s.recording then
    let dt : Int := s.age - s.h .histAt
    let s := s.setHS .histSum 0 (s.hS .histSum + s.totalNow * dt)
    let s := s.setHS .histTemp 0 (s.hS .histTemp + s.tsens * dt)
    s.setH .histAt 0 s.age
  else s

/-- A source word takes effect, clamped to ±200 ppm (R73). -/
def State.putWord (s : State) (w : Int) : State :=
  let s := s.histSum
  if freqLimit < w ∨ w < -freqLimit then
    ((s.wrS (.bell .FREQ_NOW) 0 (if w < 0 then -freqLimit else freqLimit)).wr (.bell .STATUS_FREQ_CLAMPED) 0 1).raise
      .BELL_FREQ_CLAMPED locBell
  else s.wrS (.bell .FREQ_NOW) 0 w

/-! ## History (R168, R169) -/

/-- HIST_S and HIST_VALID follow the retained entries (R168, R169). -/
def State.histPublish (s : State) : State :=
  let n := 64 * s.hist.length
  (s.wr (.sel .HOLD_HIST_S) 0 n).wr (.sel .HOLD_STAT_HIST_VALID) 0 (if s.rd (.sel .HOLD_CFG_HIST_MIN) 0 ≤ n then 1 else 0)

/-- The entry in hand starts afresh. -/
def State.histRestart (s : State) : State :=
  (((s.setH .histStart 0 s.age).setH .histAt 0 s.age).setH .histSum 0 0).setH .histTemp 0 0

/-- Ticks of nominal length in 64 s. -/
def histTicks : Nat := 64 * ticksPerSec

/-- An entry is complete 64 s after it began (R168); at most 1024 are kept. -/
def State.histEntry (s : State) : State :=
  if s.recording then
    let s := (s.passAge (s.h .histStart + histTicks)).histSum
    let n := max 1 (s.age - s.h .histStart)
    let e : HistEntry := ⟨s.age, divRound (s.hS .histSum) n, divRound (s.hS .histTemp) n⟩
    let l := s.hist ++ [e]
    ({ s with hist := l.drop (l.length - 1024) }).histRestart.histPublish
  else s

/-- HOLDOVER_HISTORY_ENTRY (R168). -/
def execHoldoverHistoryEntry (s : State) : Host.Outcome State Fault Refusal := .next (s.inDom .bell State.histEntry)

/-- History later than `cut` is discarded; only completed entries wholly before it stay (R169). -/
def State.histTrim (s : State) (cut : Nat) : State :=
  let s := { s with hist := s.hist.filter (fun e => e.fin ≤ cut) }
  (if cut < s.age then s.histRestart else s).histPublish

/-- The history of the last `sec` seconds is discarded. -/
def State.histGuard (s : State) (sec : Nat) : State := s.histTrim (s.age - sec * ticksPerSec)

/-- HIST_VALID = 1. -/
def State.histValid (s : State) : Bool := s.on (.sel .HOLD_STAT_HIST_VALID) 0

/-! ## Fit and held word (R170, R171) -/

/-- What a held correction is computed from. -/
structure Fit where
  y0 : Int
  t0 : Int
  age : Int
  fitted : Bool
  deriving DecidableEq, Repr

/-- Sum of a list. -/
def sumInt (l : List Int) : Int := l.foldl (fun a b => a + b) 0

/-- The least-squares fit of the retained entries, each taken at its middle and corrected to the mean temperature by TC:
the correction at the history's end and, where fitted, the ageing rate; otherwise the rate is OSC_AGE (R170). Values are in
1/16 000 000 of 2^-48, times in ticks before the end. -/
def holdFit (l : List HistEntry) (tc oscAge : Int) (ageFit : Bool) : Fit :=
  let n : Int := l.length
  let t0 := divRound (sumInt (l.map (fun e => e.temp))) l.length
  let fin := (l.getLastD ⟨0, 0, 0⟩).fin
  let span := fin + histTicks - (l.headD ⟨0, 0, 0⟩).fin
  let xs := l.map (fun e => (e.fin : Int) - histTicks / 2 - fin)
  let ys := l.map (fun e => e.y * 16000000 - tc * 281475 * (e.temp - t0))
  let sx := sumInt xs
  let sy := sumInt ys
  let num := n * sumInt (List.zipWith (· * ·) xs ys) - sx * sy
  let den := n * sumInt (xs.map (fun x => x * x)) - sx * sx
  if ageFit ∧ 16384 * ticksPerSec ≤ span ∧ 0 < den then
    { y0 := divRound (sy * den - num * sx) (n * den * 16000000).toNat
      t0 := t0
      age := divRound (num * 625000000000) (16 * 281475 * den).toNat
      fitted := true }
  else
    { y0 := divRound (sy * 625000000000 - oscAge * 281475 * 16 * sx) (l.length * 16000000 * 625000000000)
      t0 := t0
      age := oscAge
      fitted := false }

/-- A standby without a valid history of its own holds on the copied one (R400). -/
def State.useCopy (s : State) : Bool := s.standby && !s.histValid && bit 0 (s.copied 86 1)

/-- The held correction of a standby on the copied history: Y0 and TWN_DOSC, the copied uncertainties and ageing (R400). -/
def State.holdCopy (s : State) : State :=
  let s := s.wrS (.sel .HOLD_Y0) 0 (toS 48 (s.copied 62 6) + s.rdS (.twn .TWN_DOSC) 0)
  let s := (s.wr (.sel .HOLD_U_Y) 0 (s.copied 68 4)).wr (.sel .HOLD_U_A) 0 (s.copied 72 4)
  let s := (s.wr (.sel .HOLD_T0) 0 (s.copied 76 2)).wr (.sel .HOLD_STAT_AGE_FITTED) 0 0
  (s.setH .holdKind 0 1).setHS .fitAge 0 (toS 32 (s.copied 78 4))

/-- The HOLD source is selected, or HOLDOVER entered: the fit is made, or with no entry retained the total correction in
effect is held. U_Y, and U_A of a fitted rate, are values the manual gives no formula for: free values (R170). -/
def State.holdSelect (s : State) : State :=
  let s := s.histSum.setH .holdFrom 0 s.age
  let s := s.wr (.sel .HOLD_ELAPSED) 0 0
  if s.useCopy then s.holdCopy
  else if s.hist = [] then
    let y := s.totalNow
    let s := (s.wrS (.sel .HOLD_Y0) 0 y).wrS (.sel .HOLD_T0) 0 s.tsens
    let s := s.wrAll [.sel .HOLD_U_Y, .sel .HOLD_U_A, .sel .HOLD_STAT_AGE_FITTED] 0 0
    (s.setH .holdKind 0 2).setHS .holdWord 0 y
  else
    let oscAge := s.rdS (.sel .HOLD_AGE) 0
    let f := holdFit s.hist (s.rdS (.sel .HOLD_TC) 0) oscAge (s.on (.sel .HOLD_CFG_AGE_FIT) 0)
    let s := (s.wrS (.sel .HOLD_Y0) 0 f.y0).wrS (.sel .HOLD_T0) 0 f.t0
    let s := s.wr (.sel .HOLD_STAT_AGE_FITTED) 0 f.fitted.toNat
    let s := (s.wr (.sel .HOLD_U_Y) 0 (s.freeVal 32)).nextFree
    let s := if f.fitted then (s.wr (.sel .HOLD_U_A) 0 (s.freeVal 32)).nextFree
      else s.wr (.sel .HOLD_U_A) 0 (oscAge.natAbs / 2)
    (s.setH .holdKind 0 1).setHS .fitAge 0 f.age

/-- The word in effect is frozen as the HOLD word (Table 3.3). -/
def State.holdFreeze (s : State) : State :=
  ((s.setH .holdKind 0 3).setHS .holdWord 0 s.wordNow).setH .holdFrom 0 s.age

/-- Seconds since the HOLD source was selected. -/
def State.holdSecs (s : State) : Nat := (s.age - s.h .holdFrom) / ticksPerSec

/-- The held correction of R170: the model, or the constant. -/
def State.holdTotal (s : State) : Int :=
  if s.h .holdKind = 1 then
    let tc := s.rdS (.sel .HOLD_TC) 0
    s.rdS (.sel .HOLD_Y0) 0 + (tc * (s.tsens - s.rdS (.sel .HOLD_T0) 0) * 281475).tdiv 16000000 +
      (s.hS .fitAge * s.holdSecs * 281475).tdiv 1000000000
  else s.hS .holdWord

/-- The nominal correction (R173). -/
def State.nominalTotal (s : State) : Int :=
  s.rdS (.sel .HOLD_NOM) 0 + (Config.almTc * (s.tsens - s.rdS (.sel .HOLD_NOM_T) 0) * 281475).tdiv 16000000

/-- The code nearest a total correction, held within the DAC's range (R172). -/
def dacCode (k : Nat) (total : Int) : Nat := (max 0 (min 0xFFFFF (0x80000 + divRound total k))).toNat

/-- A held or nominal correction takes effect: in DAC mode the DAC carries it, rounded to a code, and the NCO the rest; a
code written by the host stays (R172). -/
def State.carry (s : State) (total : Int) : State :=
  if s.dacMode ∧ s.dacK ≠ 0 then
    let s := s.histSum
    let s := if s.h .dacPinned = 1 then s else s.wr (.sel .HOLD_DAC_CODE) 0 (dacCode s.dacK total)
    s.putWord (total - s.dacPart)
  else s.putWord total

/-- The held or nominal word is computed again (Table 3.1). -/
def State.wordRefresh (s : State) : State :=
  let nco := s.rd (.bell .STATUS_NCO_SRC) 0
  if ¬ s.domOn .bell then s
  else if nco = ncoHOLD then (if s.h .holdKind = 3 then s.putWord (s.hS .holdWord) else s.carry s.holdTotal)
  else if nco = ncoNOMINAL then s.carry s.nominalTotal
  else s

/-- The source of the frequency word changes (Table 3.1). A HOLD source that was not in use before is fitted now. -/
def State.setNco (s : State) (n : Nat) : State :=
  let old := s.rd (.bell .STATUS_NCO_SRC) 0
  let s := if n = ncoHOLD ∧ old ≠ ncoHOLD then s.holdSelect else s
  (s.histSum.wr (.bell .STATUS_NCO_SRC) 0 n).wordRefresh

/-- The bound B(t) of R171 in units of 1/16 · 10^-9 ns: B = (U_Y + TC_U × |T − T0|) t + ½ U_A t². -/
def State.holdBound (s : State) : Nat :=
  let t := s.holdSecs
  (s.rd (.sel .HOLD_U_Y) 0 * 16 + s.rd (.sel .HOLD_TC_U) 0 * (s.tsens - s.rdS (.sel .HOLD_T0) 0).natAbs) * t * 1000 +
    8 * s.rd (.sel .HOLD_U_A) 0 * t * t

/-- The bound or the time is beyond its limit (R171). -/
def State.holdOver (s : State) : Bool :=
  decide (s.rd (.sel .HOLD_LIM_TE_MAX) 0 * 16000000000 < s.holdBound) ||
  decide (s.rd (.sel .HOLD_LIM_T_MAX) 0 * 3600 < s.holdSecs)

/-- HOLD_B and HOLD_ELAPSED are published in HOLDOVER (R171). -/
def State.holdPublish (s : State) : State :=
  (s.wr (.sel .HOLD_B) 0 (min (s.holdBound / 16000000000) (2 ^ 32 - 1))).wr (.sel .HOLD_ELAPSED) 0 s.holdSecs

/-- HOLDOVER ends: EXPIRED cleared, HOLD_ELAPSED reset (Table 5.8). -/
def State.holdLeave (s : State) : State := s.wrAll [.sel .HOLD_STAT_EXPIRED, .sel .HOLD_ELAPSED, .sel .HOLD_B] 0 0

/-! ## DAC (R172) -/

/-- One step of the DAC toward the mean word: CODE, the word, BELL_HWS_I and DAC_XFER move together; not made beyond the
range (R172). -/
def State.dacStep (s : State) (up : Bool) : State :=
  let d : Int := if up then 1 else -1
  let code := (s.rd (.sel .HOLD_DAC_CODE) 0 : Int) + d
  if code < 0 ∨ 0xFFFFF < code then s
  else
    let s := s.histSum
    let s := s.wr (.sel .HOLD_DAC_CODE) 0 code.toNat
    let s := s.wrS (.sel .HOLD_DAC_XFER) 0 (s.rdS (.sel .HOLD_DAC_XFER) 0 + d)
    let s := s.wrS (.bell .HWS_I) 0 (s.rdS (.bell .HWS_I) 0 - d * s.dacK)
    s.putWord (s.wordNow - d * s.dacK)

/-- The check of every 16th deadline (R172). -/
def State.dacTransfer (s : State) : State :=
  let sum := s.hS .dacSum
  let n := s.h .dacCnt
  let s := (s.setH .dacSum 0 0).setH .dacCnt 0 0
  if n = 0 ∨ ¬ s.dacMode then s
  else if (n * s.dacK : Nat) < (2 * sum).natAbs then s.dacStep (decide (0 < sum)) else s

/-- A deadline's word enters the mean of R172; only the servo's word is transferred, a held one is carried whole. -/
def State.dacCount (s : State) : State :=
  if s.dacMode ∧ s.rd (.bell .STATUS_NCO_SRC) 0 = ncoSERVO then
    (s.setHS .dacSum 0 (s.hS .dacSum + s.wordNow)).setH .dacCnt 0 (s.h .dacCnt + 1)
  else (s.setH .dacSum 0 0).setH .dacCnt 0 0

/-- DAC_TRANSFER (R172): after 16 deadlines with the servo's word. -/
def execDacTransfer (s : State) : Host.Outcome State Fault Refusal :=
  .next (s.inDom .bell (fun s => s.when (decide (16 ≤ s.h .dacCnt)) State.dacTransfer))

/-- CODE is written: in SURVEY and SERVICE it is set and stays until the next mode commit, and the NCO carries the rest;
otherwise refused (R172, R186, R563). -/
def State.dacCodeWrite (s : State) (v : Nat) : State :=
  if v = s.rd (.sel .HOLD_DAC_CODE) 0 then s
  else if s.rd (.glb .MODE) 0 ≠ 1 ∧ s.rd (.glb .MODE) 0 ≠ 6 then s.wr (.sel .CTL_CFG_REFUSED) 0 1
  else ((s.wr (.sel .HOLD_DAC_CODE) 0 v).setH .dacPinned 0 1).wordRefresh

/-- DAC_CODE_WRITE (R172). -/
def execDacCodeWrite (r : Req) (v : BitVec 20) (s : State) : Host.Outcome State Fault Refusal :=
  .next (s.writeTo r .SEL 0 (fun s => s.dacCodeWrite v.toNat))

end Sys2Proof.Machine
end

