-- ==== Sys2Proof/Machine/Trig.lean ====
section
/-! DEFINITION. The timing outputs: squelch, fine taps and triggers (R176-R180). Instants are counted in units of
2^-16 ns / 125, in which a bell tick is 13 107 200, a VCO period of 100 ps 819 200 and half a picosecond 4096. -/

namespace Sys2Proof.Machine

/-- Units of one VCO period. -/
def vcoV : Nat := 819200

/-- The timescale in units of 2^-16 ns / 125. -/
def State.nowV (s : State) : Nat := s.now * 13107200

/-- The first tick at or after an instant. -/
def tickAtV (v : Nat) : Nat := (v + 13107199) / 13107200

/-- The delay D of TOUTk in effect (R176). -/
def State.outDelay (s : State) (k : Nat) : Nat :=
  s.rdA (.sel .TOUT_DLY_COARSE) k * vcoV + s.rdA (.sel .TOUT_DLY_FINE) k * 4096

/-- EN of TOUTk in effect. -/
def State.outEn (s : State) (k : Nat) : Bool := s.rdA (.sel .TOUT_CTL_EN) k == 1

/-- TOUTk is in trigger mode. -/
def State.outTrig (s : State) (k : Nat) : Bool := s.rdA (.sel .TOUT_CTL_MODE) k == 1

/-- SQUELCH names the selector state (R180), or the output PLL is unlocked (R167). -/
def State.squelched (s : State) (code : Nat) : Bool :=
  let st := s.rd (.sel .STATUS_STATE) 0
  !s.on (.sel .OSTAT_LOCK) 0 ||
    (code == 1 && st == 1) || (code == 2 && (st == 1 || st == 3)) || (code == 3 && st != 5)

/-- TOUTk is squelched. -/
def State.outSquelched (s : State) (k : Nat) : Bool := s.outEn k && s.squelched (s.rd (.sel .TOUT_CTL_SQUELCH) k)

/-- The tap whose trimmed delay is nearest a remainder, the lower one on a tie, and its distance; both in
0.01 ps / 8192 (R178). -/
def tapFor (out : Nat) (temp : Int) (rem : Nat) : Nat × Int :=
  (List.range 256).foldl (fun b t =>
    let d : Int := (Config.tapDelay out temp t * 8192 : Nat) - (rem * 100 : Nat)
    if t = 0 ∨ d.natAbs < b.2.natAbs then (t, d) else b) (0, 0)

/-- TAP and RESID of TOUTk for a target offset (R178). -/
def State.tapSet (s : State) (k v : Nat) : State :=
  let t := tapFor k (s.rdS (.ree .TEMP_T) 19) (v % vcoV)
  let r := divRound t.2 8192
  (s.wr (.sel .TOUT_STAT_TAP) k t.1).wrS (.sel .TOUT_STAT_RESID) k (max (-32768) (min 32767 r))

/-- A trigger was missed (R179, R180). -/
def State.trigMissed (s : State) (k : Nat) : State :=
  (s.wr (.sel .TOUT_TRIG_CTL_MISSED) k 1).raise .TOUT_TRIG_MISSED (locTout k)

/-- The trigger of TOUTk ends. -/
def State.trigEnd (s : State) (k : Nat) : State :=
  ((s.setH .trigState k 0).setH .trigSq k 0).wr (.sel .TOUT_TRIG_CTL_ARMED) k 0

/-- The number of the first pulse at or after an instant. -/
def State.pulseAt (s : State) (k v : Nat) : Nat :=
  let p := max 1 (s.h .trigP k * vcoV)
  (v - s.h .trigAt k + p - 1) / p

/-- Pulse `n` belongs to the trigger. -/
def State.pulseIn (s : State) (k n : Nat) : Bool := s.h .trigN k == 0 || decide (n < s.h .trigN k)

/-- A pulse of the trigger is still to come. -/
def State.unsent (s : State) (k : Nat) : Bool :=
  s.h .trigState k == 1 ||
    (s.h .trigState k == 2 && s.h .trigKind k != 0 && s.pulseIn k (s.pulseAt k s.nowV))

/-- The pulses whose positions fell while squelched count as MISSED (R180). -/
def State.sqMissed (s : State) (k : Nat) : State :=
  let n := s.pulseAt k (s.h .trigSqAt k)
  if s.pulseIn k n ∧ n < s.pulseAt k s.nowV then s.trigMissed k else s

/-- A running trigger follows the beginning and the end of squelch (R180). -/
def State.trigSquelch (s : State) (k : Nat) : State :=
  if s.h .trigState k ≠ 2 then s
  else if s.outSquelched k ∧ s.h .trigSq k = 0 then
    if s.h .trigKind k = 0 then (s.trigEnd k).trigMissed k
    else (s.setH .trigSq k 1).setH .trigSqAt k s.nowV
  else if ¬ s.outSquelched k ∧ s.h .trigSq k = 1 then (s.sqMissed k).setH .trigSq k 0
  else s

/-- TOUT_STAT of TOUTk follows its settings and the selector state (R178, R180). -/
def State.outSync (s : State) (k : Nat) : State :=
  let s := s.trigSquelch k
  let s := s.wr (.sel .TOUT_STAT_SQUELCHED) k (s.outSquelched k).toNat
  let s := s.wr (.sel .TOUT_STAT_ACTIVE) k (s.outEn k && !s.outSquelched k).toNat
  if ¬ s.outEn k then (s.wr (.sel .TOUT_STAT_TAP) k 0).wr (.sel .TOUT_STAT_RESID) k 0
  else if s.outTrig k then s
  else s.tapSet k (s.outDelay k)

/-- All outputs follow (R180). -/
def State.outsSync (s : State) : State := (List.range 8).foldl (fun s k => s.outSync k) s

/-- Loss of lock cuts a running trigger at once (R167). -/
def State.trigCut (s : State) (k : Nat) : State :=
  if s.h .trigState k = 2 then (if s.unsent k ∨ s.h .trigKind k = 0 then s.trigMissed k else s).trigEnd k else s

/-- The output's applied settings change at T: a trigger of an output that is now disabled or in clock mode ends (R177,
R180). -/
def State.outApplied (s : State) (k : Nat) : State :=
  let s := if s.h .trigState k ≠ 0 ∧ ¬ (s.outEn k ∧ s.outTrig k) then
      (if s.unsent k then s.trigMissed k else s).trigEnd k else s
  s.outSync k

/-- ARM (R179): in clock mode it does nothing. -/
def State.trigArm (s : State) (k : Nat) : State :=
  if ¬ s.outTrig k then s
  else
    let at_ := u96 (s.rd (.sel .TOUT_TRIG_T) k) * 125 + s.outDelay k
    let kind := s.rd (.sel .TOUT_CTL_TKIND) k
    let w := s.rd (.sel .TOUT_TRIG_W_WIDTH) k
    let p := s.rdA (.sel .TOUT_DIV) k
    if at_ < s.nowV + usTicks 1 * 13107200 ∨ ¬ s.outEn k ∨ (kind = 2 ∧ p ≤ w) then s.trigMissed k
    else
      let s := (s.trigEnd k).tapSet k at_
      let s := (s.setH .trigState k 1).setH .trigAt k at_
      let s := (s.setH .trigKind k kind).setH .trigW k w
      let s := (s.setH .trigN k (if kind = 2 then s.rd (.sel .TOUT_TRIG_N_COUNT) k else 1)).setH .trigP k p
      s.wr (.sel .TOUT_TRIG_CTL_ARMED) k 1

/-- TRIG_ARM (R179). -/
def execTrigArm (r : Req) (k : Fin 8) (s : State) : Host.Outcome State Fault Refusal :=
  .next (s.writeTo r .TOUT k (fun s => s.trigArm k))

/-- DISARM (R179): a waiting trigger is dropped; a running one ends with its high phase. A pulse in its high phase becomes
the last one, and TRIGGER_DONE ends it. -/
def State.trigDisarm (s : State) (k : Nat) : State :=
  if s.h .trigState k ≠ 2 then s.trigEnd k
  else
    let p := max 1 (s.h .trigP k * vcoV)
    let n := if s.h .trigN k = 1 then 0 else (s.nowV - s.h .trigAt k) / p
    if s.h .trigKind k ≠ 0 ∧ s.h .trigSq k = 0 ∧ s.pulseIn k n ∧
        s.nowV < max (s.h .trigAt k + n * p) (s.h .trigFired k) + s.h .trigW k * vcoV then s.setH .trigN k (n + 1)
    else (s.trigEnd k).wr (.sel .TOUT_TRIG_CTL_DONE) k 1

/-- TRIG_DISARM (R179). -/
def execTrigDisarm (r : Req) (k : Fin 8) (s : State) : Host.Outcome State Fault Refusal :=
  .next (s.writeTo r .TOUT k (fun s => s.trigDisarm k))

/-- An armed trigger's time arrives (R179); squelched at its time, it is missed (R180). -/
def State.trigFire (s : State) (k : Nat) : State :=
  if s.h .trigState k ≠ 1 then s
  else
    let fired := max (s.h .trigAt k) s.nowV
    let s := s.passTo (tickAtV (s.h .trigAt k))
    if s.outSquelched k then (s.trigEnd k).trigMissed k
    else (s.setH .trigState k 2).setH .trigFired k fired

/-- TRIGGER_FIRE (R179). -/
def execTriggerFire (k : Fin 8) (s : State) : Host.Outcome State Fault Refusal :=
  .next (s.inDom .bell (fun s => s.trigFire k))

/-- The last pulse ends: DONE (R179). An EDGE and a TRAIN of COUNT 0 run until DISARM. -/
def State.trigDone (s : State) (k : Nat) : State :=
  if s.h .trigState k ≠ 2 ∨ s.h .trigKind k = 0 ∨ s.h .trigN k = 0 then s
  else
    let last := s.h .trigAt k + (s.h .trigN k - 1) * s.h .trigP k * vcoV
    let s := s.passTo (tickAtV (max last (s.h .trigFired k) + s.h .trigW k * vcoV))
    let s := if s.h .trigSq k = 1 then s.sqMissed k else s
    (s.trigEnd k).wr (.sel .TOUT_TRIG_CTL_DONE) k 1

/-- TRIGGER_DONE (R179). -/
def execTriggerDone (k : Fin 8) (s : State) : Host.Outcome State Fault Refusal :=
  .next (s.inDom .bell (fun s => s.trigDone k))

end Sys2Proof.Machine
end

