-- ==== Sys2Proof/Machine/Select.lean ====
section
/-! DEFINITION. The reference selector (R145-R162): slots, signal presence, quality ranks, monitors, agreement, selection,
and the transmitted quality (R149, R150). -/

namespace Sys2Proof.Machine

/-! ## Slots -/

/-- SSTATE codes (Table 5.10). -/
def ssOFF : Nat := 0
def ssLOS : Nat := 1
def ssQUALIFYING : Nat := 2
def ssQUALIFIED : Nat := 3
def ssDISQ : Nat := 4
def ssWTR : Nat := 5
def ssLOCKOUT : Nat := 6

/-- State of slot n. -/
def State.sstate (s : State) (n : Nat) : Nat := s.rd (.sel .SLOT_STAT_SSTATE) n

/-- Source of slot n. -/
def State.slotSrc (s : State) (n : Nat) : Nat := s.rd (.sel .SLOT_CFG_SRC) n

/-- The source is absent on the variant (R145). -/
def State.srcAbsent (s : State) (src : Nat) : Bool := src < 72 && !s.variant.hasPort src

/-- F_IN of a slot in units of 1/64 Hz (R147); 0 where it has none. -/
def State.slotFin (s : State) (n : Nat) : Nat :=
  let src := s.slotSrc n
  if src < 72 then
    match s.rd (.lane .STATUS_EFF_MODE) src with
    | 1 => 1250000000
    | 2 => 10312500000
    | 3 => 25781250000
    | 4 => 53125000000
    | 5 => 106250000000
    | 6 => 106250000000
    | 7 => 106250000000
    | _ => 0
  else if src ≤ 75 then (if s.rd (.sel .SLOT_FNOM) n ≤ 800000000 then 64 * s.rd (.sel .SLOT_FNOM) n else 0)
  else 64

/-- The scaling of a slot is within R147's limits; a time-type source has none. -/
def State.slotCfgOk (s : State) (n : Nat) : Bool :=
  let src := s.slotSrc n
  let fin := s.slotFin n
  let sc := s.rd (.sel .SLOT_CFG_SCALE) n
  let rdiv := s.rd (.sel .SLOT_RDIV) n
  let f2 := if sc = 1 then 4 * fin else if sc = 2 then fin else 2 * fin
  78 ≤ src || (src < 72 && fin == 0) ||
    (rdiv != 0 && !(sc == 1 && 64 * 400000000 < fin) && 128 * rdiv ≤ f2 && f2 ≤ 128 * 1000000 * rdiv)

/-- Signal present (Table 5.1). -/
def State.srcSignal (s : State) (n : Nat) : Bool :=
  let src := s.slotSrc n
  s.slotCfgOk n &&
    (if src < 72 then s.up .LANE src && s.slotFin n != 0 && s.on (.lane .STATUS_CDR_LOCK) src && s.on (.lane .STATUS_LINK_UP) src
     else if src < 78 then s.h .slotIn src == 1
     else src < 82 && s.domOn .core && s.on (.stamp .OBS_CFG_EN) (src - 78) && s.h .obsHas (src - 78) == 3 &&
       !s.on (.stamp .OBS_CFG_STALE) (src - 78))

/-- The three windows of a slot are emptied (R151). -/
def State.clearWindows (s : State) (n : Nat) : State :=
  let s := (s.wrAll [.sel .SLOT_STAT_WV, .sel .SLOT_STAT_DRATE_V] n 0).setLong n []
  (((s.setH .slotSig n 0).setH .ovMid n 0).setH .ovLong n 0).setH .ovLast n 0

/-- The slot becomes QUALIFIED (Table 5.5). -/
def State.qualify (s : State) (n : Nat) : State :=
  ((s.wr (.sel .SLOT_STAT_SSTATE) n ssQUALIFIED).wr (.sel .SLOT_STAT_CAUSE) n 0).raise .SEL_QUALIFIED locBell

/-- The slot is the selected one. -/
def State.isSel (s : State) (n : Nat) : Bool := s.h .selSlot == n + 1

/-- The history that a disqualification or a leaving of the selected slot discards (R169). -/
def State.trimFor (s : State) (n cause : Nat) : State :=
  if s.isSel n then
    s.histGuard (if cause = 3 ∨ cause = 4 then s.rd (.sel .TIMES_GUARD) 0 else s.rd (.sel .TIMES2_GUARD_SHORT) 0)
  else s

/-- The slot is DISQUALIFIED with a cause (Table 5.5). -/
def State.disq (s : State) (n cause : Nat) : State :=
  let s := (s.wr (.sel .SLOT_STAT_SSTATE) n ssDISQ).wr (.sel .SLOT_STAT_CAUSE) n cause
  (s.raise .SEL_DISQUALIFIED locBell).trimFor n cause

/-- The wait-to-restore timer starts (Table 5.5). -/
def State.wtrStart (s : State) (n : Nat) : State :=
  let w := s.rd (.sel .TIMES_WTR) 0
  ((s.wr (.sel .SLOT_STAT_SSTATE) n ssWTR).wr (.sel .SLOT_WTR_LEFT) n w).setH .wtrAt n (s.age + w * ticksPerSec)

/-- Slot n follows its signal (R565). -/
def State.sigUpdate (s : State) (n : Nat) : State :=
  let st := s.sstate n
  if st = ssOFF then s
  else if s.srcSignal n then
    let s := if s.h .slotSig n = 1 then s else (s.setH .slotSig n 1).setH .sigAt n s.age
    if st = ssLOS then s.wr (.sel .SLOT_STAT_SSTATE) n ssQUALIFYING else s
  else
    let s := if s.h .slotSig n = 1 then s.clearWindows n else s
    if st = ssQUALIFYING then s.wr (.sel .SLOT_STAT_SSTATE) n ssLOS
    else if st = ssQUALIFIED ∨ st = ssWTR then s.disq n 1
    else s

/-- Every slot follows its signal. -/
def State.sigUpdateAll (s : State) : State := (List.range 16).foldl (fun s n => s.sigUpdate n) s

/-! ## Ranks (R148, Table 5.2) -/

/-- Rank of an option-1 code. -/
def rank1 (c : Nat) : Nat :=
  match c with
  | 0x21 => 0 | 0x20 => 1 | 0x23 => 2 | 0x2 => 3 | 0x4 => 5 | 0x8 => 6 | 0x22 => 8 | 0xB => 9 | _ => 15

/-- Rank of an option-2 code. -/
def rank2 (c : Nat) : Nat :=
  match c with
  | 0x1 => 3 | 0x0 => 4 | 0x7 => 5 | 0x4 => 6 | 0xD => 7 | 0xA => 9 | 0xE => 10 | _ => 15

/-- Rank of a clockClass. -/
def rankClass (c : Nat) : Nat :=
  match c with
  | 6 => 1 | 7 => 4 | 135 => 7 | 140 => 10 | 150 => 10 | 160 => 10 | 165 => 11 | 248 => 14 | _ => 15

/-- QL_OPT in effect. -/
def State.qlOpt (s : State) : Bool := s.rdA (.sel .CTL_QL_OPT) 0 == 1

/-- The quality code received on port p: the extended code where its TLV is present and counts, else the SSM code; `none`
is QL-FAILED (R148, R149). -/
def State.portCode (s : State) (p : Nat) : Option Nat :=
  match s.h .portQl p with
  | 0 => none
  | v + 1 => if v / 32 ≠ 0 ∧ ¬ s.qlOpt then some (v / 32 - 1) else some (v % 32)

/-- The quality code of slot n's source. -/
def State.slotCode (s : State) (n : Nat) : Option Nat := if s.slotSrc n < 72 then s.portCode (s.slotSrc n) else none

/-- The rank of slot n (R148). -/
def State.slotRank (s : State) (n : Nat) : Nat :=
  let src := s.slotSrc n
  if s.on (.sel .SLOT_CFG_QOVR_EN) n then s.rd (.sel .SLOT_CFG_QOVR) n
  else if src < 72 then
    match s.portCode src with
    | none => 15
    | some c => if s.qlOpt then rank2 c else rank1 c
  else if 78 ≤ src ∧ src < 82 then
    if s.rd (.sel .SLOT_CFG_ACC_MAX) n < s.rd (.stamp .OBS_ANN_ACC) (src - 78) then 15
    else rankClass (s.rd (.stamp .OBS_ANN_CLASS) (src - 78))
  else 15

/-- QRANK and RX_QL follow at a monitor evaluation (R149). -/
def State.rankUpdate (s : State) (n : Nat) : State :=
  (s.wr (.sel .SLOT_STAT_QRANK) n (s.slotRank n)).wr (.sel .SLOT_STAT_RX_QL) n ((s.slotCode n).getD 0)

/-! ## Selection (R155-R162) -/

/-- The selector runs (R157). -/
def State.selRuns (s : State) : Bool := s.domOn .bell && s.mode != modeDormant

/-- The committed role is LEAD. -/
def State.roleLead (s : State) : Bool := s.rd (.glb .MODE_ROLE) 0 == 3

/-- The slot's USE bit matches the role (R146). -/
def State.slotUse (s : State) (n : Nat) : Bool :=
  if s.roleLead then s.on (.sel .SLOT_CFG_USE_LEAD) n else s.on (.sel .SLOT_CFG_USE_FOLLOW) n

/-- Slot n may be selected. -/
def State.candidate (s : State) (n : Nat) : Bool := s.sstate n == ssQUALIFIED && s.slotUse n

/-- QRANK in effect. -/
def State.qrank (s : State) (n : Nat) : Nat := s.rd (.sel .SLOT_STAT_QRANK) n

/-- The pair (QRANK, PRIO) as one number. -/
def State.pairKey (s : State) (n : Nat) : Nat := s.qrank n * 16 + s.rd (.sel .SLOT_CFG_PRIO) n

/-- The key (QRANK, PRIO, slot number) as one number (R158). -/
def State.slotKey (s : State) (n : Nat) : Nat := s.pairKey n * 16 + n

/-- The candidates in the order of their keys. -/
def State.candidates (s : State) : List Nat := (List.range 16).filter (fun n => s.candidate n)

/-- The slot of a list with the best key. -/
def State.bestOf (s : State) (l : List Nat) : Option Nat :=
  l.foldl (fun b n => match b with
    | none => some n
    | some m => if s.slotKey n < s.slotKey m then some n else b) none

/-- Value of window k of slot n: 0 short, 1 middle, 2 long. -/
def State.yOf (s : State) (n k : Nat) : Int := s.rdS (.sel .SLOT_Y) (3 * n + k)

/-- Window k of slot n is valid. -/
def State.yValid (s : State) (n k : Nat) : Bool := bit k (s.rd (.sel .SLOT_STAT_WV) n)

/-- AGREE in effect. -/
def State.agree (s : State) : Int := s.rdA (.sel .AGREE) 0

/-- During a conflict slot n may be selected from nothing: its pair is strictly better than that of every slot it disagrees
with (R155). -/
def State.conflictOk (s : State) (n : Nat) : Bool :=
  !s.yValid n 1 ||
    (List.range 16).all (fun m => m == n || s.sstate m != ssQUALIFIED || !s.yValid m 1 ||
      decide ((s.yOf n 1 - s.yOf m 1).natAbs ≤ s.agree.toNat) || decide (s.pairKey n < s.pairKey m))

/-- CONFLICT = 1. -/
def State.conflict (s : State) : Bool := s.on (.sel .STATUS_CONFLICT) 0

/-- The choice from nothing selected (R155, R158). -/
def State.freshPick (s : State) : Option Nat :=
  s.bestOf (s.candidates.filter (fun n => !s.conflict || s.conflictOk n))

/-- The forced slot is to be selected (R159). -/
def State.forced (s : State) : Bool :=
  s.on (.sel .CTL_FORCE_EN) 0 && s.candidate (s.rd (.sel .CTL_FORCE_SLOT) 0)

/-- The slot to select (R155, R158, R159). -/
def State.pick (s : State) : Option Nat :=
  let cur := match s.h .selSlot with
    | 0 => none
    | n + 1 => if s.candidate n then some n else none
  if ¬ s.selRuns then none
  else if s.forced then some (s.rd (.sel .CTL_FORCE_SLOT) 0)
  else match cur with
    | none => s.freshPick
    | some c =>
      if s.conflict then some c
      else if s.h .forceChg = 1 ∨ s.on (.sel .STATUS_FORCED) 0 then s.freshPick
      else match s.bestOf s.candidates with
        | none => some c
        | some b =>
          if s.qrank b < s.qrank c ∨ (s.rdA (.sel .CTL_REVERTIVE) 0 = 1 ∧ s.slotKey b < s.slotKey c) then some b
          else some c

/-- The selection leaves LOCKED (R162). -/
def State.unlock (s : State) : State :=
  let s := ((s.histSum.setH .locked 0 0).setH .lockIn 0 0).setH .lockOut 0 0
  s.raise .SEL_UNLOCK locBell

/-- The selection becomes LOCKED; the history in use is from here this slot's, and an entry begins (R162, R168). -/
def State.lock (s : State) : State :=
  let s := ((s.setH .locked 0 1).setH .lockIn 0 0).setH .lockOut 0 0
  ((s.setH .histSlot 0 (s.h .selSlot - 1)).histRestart).raise .SEL_LOCK locBell

/-- SEL_STATUS and the pins (Table 5.6, R161); the outputs follow the state (R180). -/
def State.selStatus (s : State) : State :=
  let m := s.mode
  let st := if m = modeDormant ∨ m = 7 then 0 else if m = modeSurvey ∨ m = modeService then 6
    else if m = modeFreeRun then 1
    else if m = modeHoldover then (if s.on (.sel .HOLD_STAT_EXPIRED) 0 then 3 else 2)
    else if s.standby then (if s.trk = tkALIGNED then 5 else 4)
    else if s.h .locked = 1 then 5 else 4
  let act := if st < 2 then 0 else if st < 4 then s.h .histSlot
    else if s.standby ∧ st < 6 then s.copied 17 1 / 16 else s.h .selSlot - 1
  let s := (s.wr (.sel .STATUS_STATE) 0 st).wr (.sel .STATUS_ACTIVE) 0 act
  (s.wr (.sel .STATUS_SELECTED) 0 (if s.h .selSlot = 0 then 0 else 1)).outsSync

/-- The fallback mode of Table 5.8. -/
def State.fallbackMode (s : State) : Nat := if s.histValid ∨ s.useCopy then modeHoldover else modeFreeRun

/-- The source of the word in a mode (Table 3.1). -/
def State.ncoFor (s : State) (m : Nat) : Nat :=
  if m = modeFollow ∨ m = modeLead then ncoSERVO
  else if m = modeHoldover then ncoHOLD
  else if m = modeSurvey ∨ m = modeService then (if s.histValid then ncoHOLD else ncoNOMINAL)
  else if m = modeFreeRun then ncoNOMINAL
  else ncoNONE

/-- A reference steers or may steer: a selected slot, or for a standby its tracker, SEEKING included (R397). -/
def State.hasRef (s : State) : Bool :=
  if s.standby then s.trk == tkSEEKING || s.trkRuns else s.h .selSlot != 0

/-- What a change of the selection asks of the mode (Table 5.8): the word at once, the mode by an internal commit. A
persistent jump keeps its own request. -/
def State.modeRecheck (s : State) : State :=
  let m := s.mode
  let role := s.rd (.glb .MODE_ROLE) 0
  if (m = modeFollow ∨ m = modeLead) ∧ ¬ s.hasRef then
    let t := s.fallbackMode
    (s.setNco (s.ncoFor t)).intRequest { mode := t + 1 }
  else if (m = modeHoldover ∨ m = modeFreeRun) ∧ s.hasRef then s.intRequest { mode := role + 1 }
  else if (m = modeFollow ∨ m = modeLead) ∧ s.h .intFull = 1 ∧ 5 ≤ s.h .intMode ∧ s.rd (.bell .STATUS_JSTATE) 0 ≠ 2 then
    (s.setNco ncoSERVO).intRequest { mode := m + 1 }
  else s

/-- The selected slot changes (R160). -/
def State.selSwitch (s : State) (new : Option Nat) (forced : Bool) : State :=
  let old := s.h .selSlot
  let s := (s.raise .SEL_SWITCH locBell).count (.sel .STATUS_SWITCH_CNT) 0
  let s := match new with
    | none => s
    | some n =>
      let bo := if old ≠ 0 ∧ s.slotSrc (old - 1) < 76 ∧ s.slotSrc n < 76 then
          s.rdS (.sel .SLOT_PHASE) n - (s.rdS (.sel .SLOT_PHASE) (old - 1) - s.hS .buildOut) else 0
      let s := s.setHS .buildOut 0 bo
      if forced ∧ old ≠ 0 then s.histGuard (s.rd (.sel .TIMES2_GUARD_SHORT) 0) else s
  let s := if s.standby then s else if s.h .locked = 1 then s.unlock else s.setH .lockIn 0 0
  let s := s.setH .selSlot 0 (match new with | none => 0 | some n => n + 1)
  s.modeRecheck

/-- The selector selects again (R155, R158, R159). -/
def State.reselect (s : State) : State :=
  let f := s.selRuns && s.forced
  let new := s.pick
  let lost := s.on (.sel .STATUS_FORCED) 0 && !f && s.on (.sel .CTL_FORCE_EN) 0 && s.h .forceChg == 0
  let s := if lost then s.raise .SEL_FORCE_LOST locBell else s
  let s := (s.wr (.sel .STATUS_FORCED) 0 f.toNat).setH .forceChg 0 0
  let s := if (match new with | none => 0 | some n => n + 1) = s.h .selSlot then s else s.selSwitch new f
  s.selStatus

/-- Presence changes act at once and the selector selects again (R565). -/
def State.sigRefresh (s : State) : State := if s.domOn .bell then s.sigUpdateAll.reselect else s

/-- SIGNAL_PRESENCE_CHANGE (R565): of source `src`. A REFIN or PPSIN reports its signal's state; a port's or an observed
domain's follows from its own registers (Table 5.1). -/
def execSignalPresenceChange (src : Fin 82) (present : Bool) (s : State) : Host.Outcome State Fault Refusal :=
  .next (s.inDom .bell (fun s =>
    (if 72 ≤ src.val ∧ src.val < 78 then s.setH .slotIn src present.toNat else s).sigRefresh))

/-- The selector starts after a power-up or reset of the BELL domain (R156). -/
def State.selStart (s : State) : State :=
  let s := (List.range 16).foldl (fun s n =>
    let s := s.clearWindows n
    let s := s.wr (.sel .SLOT_STAT_CAUSE) n 0
    s.wr (.sel .SLOT_STAT_SSTATE) n
      (if s.on (.sel .SLOT_CFG_ENABLE) n && !s.srcAbsent (s.slotSrc n) then ssLOS else ssOFF)) s
  ((s.setH .monAt 0 s.age).setH .longAt 0 s.age).sigRefresh

/-! ## Agreement (R153, R154) -/

/-- Insertion into a rising list. -/
def insInt (x : Int) : List Int → List Int
  | [] => [x]
  | y :: t => if x ≤ y then x :: y :: t else y :: insInt x t

/-- Twice the median of a list, for an even number the mean of the two middle values (R153). -/
def median2 (l : List Int) : Int :=
  let v := l.foldl (fun a x => insInt x a) []
  let n := v.length
  if n % 2 = 1 then 2 * v.getD (n / 2) 0 else v.getD (n / 2 - 1) 0 + v.getD (n / 2) 0

/-- The values of window k of the slots of a list where it is valid. -/
def State.windowOf (s : State) (k : Nat) (l : List Nat) : List (Nat × Int) :=
  (l.filter (fun n => s.yValid n k)).map (fun n => (n, s.yOf n k))

/-- The slots outvoted in window k, and whether the qualified ones conflict (R153, R154). -/
def State.vote (s : State) (k : Nat) : List Nat × Bool :=
  let q := s.windowOf k ((List.range 16).filter (fun n => s.sstate n == ssQUALIFIED))
  let all := s.windowOf k ((List.range 16).filter (fun n =>
    s.sstate n == ssQUALIFIED || s.sstate n == ssDISQ || s.sstate n == ssWTR))
  let a := s.agree.toNat
  match q with
  | [] => ([], false)
  | [_] => ([], false)
  | [x, y] => ([], decide (a < (x.2 - y.2).natAbs))
  | l =>
    let m := median2 (l.map (fun e => e.2))
    let near := fun (e : Nat × Int) => decide ((2 * e.2 - m).natAbs ≤ 2 * a)
    if (l.filter near).length < 2 then ([], true) else ((all.filter (fun e => !near e)).map (fun e => e.1), false)

/-- The run of evaluations at which a slot was outvoted goes on or ends. -/
def State.ovRun (s : State) (x : Hid) (out : List Nat) : State :=
  (List.range 16).foldl (fun s n => s.setH x n (if n ∈ out then s.h x n + 1 else 0)) s

/-! ## Evaluations (R151, R152) -/

/-- Seconds for which slot n's signal has been present. -/
def State.sigSecs (s : State) (n : Nat) : Nat := if s.h .slotSig n = 1 then (s.age - s.h .sigAt n) / ticksPerSec else 0

/-- |Y| of a window beyond a limit. -/
def State.beyond (s : State) (n k : Nat) (f : SelF) : Bool :=
  s.yValid n k && decide (s.rd (.sel f) n < (s.yOf n k).natAbs)

/-- The measured values of a slot are published (R151). -/
def State.measure (s : State) (m : SlotMeas) : State :=
  let n := m.slot.val
  if s.h .slotSig n = 0 then s
  else
    let w := (if 1 ≤ s.sigSecs n then 1 else 0) + (if 64 ≤ s.sigSecs n then 2 else 0) +
      s.rd (.sel .SLOT_STAT_WV) n / 4 * 4
    let s := s.wr (.sel .SLOT_STAT_WV) n w
    let s := if bit 0 w then s.wr (.sel .SLOT_Y) (3 * n) m.y1.toNat else s
    let s := if bit 1 w then s.wr (.sel .SLOT_Y) (3 * n + 1) m.y64.toNat else s
    s.wr (.sel .SLOT_PHASE) n m.phase.toNat

/-- One slot is judged at the 1 s evaluation (R152, R153, Table 5.5). -/
def State.judge (s : State) (n : Nat) : State :=
  let soft := s.beyond n 0 .SLOT_SOFT || s.beyond n 1 .SLOT_SOFT
  let hard := s.beyond n 0 .SLOT_HARD || s.beyond n 1 .SLOT_HARD
  let any := soft || s.beyond n 2 .SLOT_SOFT
  let out := s.on (.sel .SLOT_STAT_OUTVOTED) n
  let s := if soft then (s.wr (.sel .SLOT_STAT_SOFT_HIT) n 1).raise .SEL_SOFT_LIMIT locBell else s
  let st := s.sstate n
  if st = ssQUALIFIED ∨ st = ssWTR then
    if s.qrank n = 15 then s.disq n 2
    else if hard then s.disq n 3
    else if 3 ≤ s.h .ovMid n then s.disq n 4
    else if st = ssWTR ∧ any then s.wtrStart n
    else s
  else if st = ssQUALIFYING then
    if s.yValid n 1 && !s.beyond n 1 .SLOT_SOFT && s.qrank n < 15 then s.qualify n else s
  else if st = ssDISQ then
    if s.h .slotSig n == 1 && s.qrank n < 15 && !any && !out then s.wtrStart n else s
  else s

/-- The 1 s evaluation (R149, R151-R154). -/
def State.monitorEval (s : State) (ms : List SlotMeas) : State :=
  let s := s.passAge (s.h .monAt + ticksPerSec)
  let s := (s.setH .monAt 0 s.age).sigUpdateAll
  let s := (List.range 16).foldl (fun s n => s.rankUpdate n) s
  let s := ms.foldl (fun s m => s.measure m) s
  let s := (List.range 16).foldl (fun s n => if s.sstate n = ssWTR then
    s.wr (.sel .SLOT_WTR_LEFT) n ((s.h .wtrAt n - s.age) / ticksPerSec) else s.wr (.sel .SLOT_WTR_LEFT) n 0) s
  let v := s.vote 1
  let s := s.ovRun .ovMid v.1
  let s := (List.range 16).foldl (fun s n =>
    s.wr (.sel .SLOT_STAT_OUTVOTED) n (if n ∈ v.1 ∨ s.h .ovLast n = 1 then 1 else 0)) s
  let s := (List.range 16).foldl (fun s n => if s.sstate n = ssOFF then s else s.judge n) s
  let s := if v.2 = s.conflict then s else
    (s.wr (.sel .STATUS_CONFLICT) 0 v.2.toNat).raise .SEL_REF_CONFLICT locBell
  s.reselect

/-- MONITOR_EVALUATION (R152). -/
def execMonitorEvaluation (ms : List SlotMeas) (s : State) : Host.Outcome State Fault Refusal :=
  .next (if s.selRuns then s.monitorEval ms else s)

/-- The long window and the drift rate of a slot (Table 5.4). -/
def State.measureLong (s : State) (m : SlotLong) : State :=
  let n := m.slot.val
  if s.sigSecs n < 4096 then s
  else
    let s := s.wr (.sel .SLOT_STAT_WV) n (s.rd (.sel .SLOT_STAT_WV) n % 4 + 4)
    let s := s.wr (.sel .SLOT_Y) (3 * n + 2) m.y.toNat
    let l := (m.y.toInt :: s.long n).take 65
    let s := s.setLong n l
    match l[64]? with
    | none => s
    | some y => (s.wrS (.sel .SLOT_DRATE) n (divRound ((m.y.toInt - y) * 1000) 4096)).wr (.sel .SLOT_STAT_DRATE_V) n 1

/-- One slot is judged at the 64 s evaluation (R152, R153). -/
def State.judgeLong (s : State) (n : Nat) : State :=
  let soft := s.beyond n 2 .SLOT_SOFT
  let drift := s.on (.sel .SLOT_STAT_DRATE_V) n && decide (s.rd (.sel .SLOT_DRIFT) n < (s.rdS (.sel .SLOT_DRATE) n).natAbs)
  let s := if soft then (s.wr (.sel .SLOT_STAT_SOFT_HIT) n 1).raise .SEL_SOFT_LIMIT locBell else s
  let st := s.sstate n
  if st = ssQUALIFIED ∨ st = ssWTR then
    if s.beyond n 2 .SLOT_HARD || drift || decide (3 ≤ s.h .ovLong n) then s.disq n 3
    else if st = ssWTR ∧ soft then s.wtrStart n
    else s
  else s

/-- The 64 s evaluation (R151-R153). -/
def State.longEval (s : State) (ms : List SlotLong) : State :=
  let s := s.passAge (s.h .longAt + 64 * ticksPerSec)
  let s := (s.setH .longAt 0 s.age).sigUpdateAll
  let s := ms.foldl (fun s m => s.measureLong m) s
  let v := s.vote 2
  let s := s.ovRun .ovLong v.1
  let s := (List.range 16).foldl (fun s n => s.setH .ovLast n (if n ∈ v.1 then 1 else 0)) s
  let s := (List.range 16).foldl (fun s n => if n ∈ v.1 then s.wr (.sel .SLOT_STAT_OUTVOTED) n 1 else s) s
  let s := (List.range 16).foldl (fun s n => if s.sstate n = ssOFF then s else s.judgeLong n) s
  s.reselect

/-- LONG_WINDOW_EVALUATION (R151). -/
def execLongWindowEvaluation (ms : List SlotLong) (s : State) : Host.Outcome State Fault Refusal :=
  .next (if s.selRuns then s.longEval ms else s)

/-- WTR_EXPIRY (R156). -/
def execWtrExpiry (n : Fin 16) (s : State) : Host.Outcome State Fault Refusal :=
  .next (s.inDom .bell (fun s => if s.sstate n = ssWTR then
    (((s.passAge (s.h .wtrAt n)).qualify n).wr (.sel .SLOT_WTR_LEFT) n 0).reselect else s))

/-! ## Writes of a slot and of the force settings -/

/-- Another enabled slot names the source. -/
def State.srcTaken (s : State) (n src : Nat) : Bool :=
  (List.range 16).any (fun m => m != n && s.on (.sel .SLOT_CFG_ENABLE) m && s.slotSrc m == src)

/-- The slot leaves to OFF: windows cleared (Table 5.5), history trimmed if it was selected (R169). -/
def State.slotOff (s : State) (n : Nat) : State :=
  ((s.trimFor n 1).clearWindows n).wr (.sel .SLOT_STAT_SSTATE) n ssOFF

/-- The slot enters LOS; with an absent source it stays OFF (R145); with LOCKOUT = 1 it goes on to LOCKOUT. A scaling
outside R147's limits sets CFG_REFUSED. -/
def State.slotLos (s : State) (n : Nat) : State :=
  if s.srcAbsent (s.slotSrc n) then s
  else
    let s := s.wr (.sel .SLOT_STAT_SSTATE) n (if s.on (.sel .SLOT_CFG_LOCKOUT) n then ssLOCKOUT else ssLOS)
    if s.slotCfgOk n then s else s.wr (.sel .CTL_CFG_REFUSED) 0 1

/-- ENABLE and SRC of a slot are written (R145, Table 5.5). -/
def State.slotWrite (s : State) (n : Nat) (en : Bool) (src : Nat) : State :=
  let oldEn := s.on (.sel .SLOT_CFG_ENABLE) n
  let oldSrc := s.slotSrc n
  let bad := (src != oldSrc && (82 ≤ src || s.srcTaken n src)) || (en && !oldEn && s.srcTaken n src)
  if bad then s.wr (.sel .CTL_CFG_REFUSED) 0 1
  else if en = oldEn ∧ src = oldSrc then s
  else
    let s := if oldEn then s.slotOff n else s
    let s := (s.wr (.sel .SLOT_CFG_SRC) n src).wr (.sel .SLOT_CFG_ENABLE) n en.toNat
    let s := if en ∧ oldEn then s.wr (.sel .SLOT_STAT_CAUSE) n 0 else s
    (if en then s.slotLos n else s).sigRefresh

/-- SLOT_ENABLE_WRITE (R145). -/
def execSlotEnableWrite (r : Req) (n : Fin 16) (v : Bool) (s : State) : Host.Outcome State Fault Refusal :=
  .next (s.writeTo r .SLOT n (fun s => s.slotWrite n v (s.slotSrc n)))

/-- SLOT_SRC_WRITE (R145). -/
def execSlotSrcWrite (r : Req) (n : Fin 16) (src : BitVec 7) (s : State) : Host.Outcome State Fault Refusal :=
  .next (s.writeTo r .SLOT n (fun s => s.slotWrite n (s.on (.sel .SLOT_CFG_ENABLE) n) src.toNat))

/-- LOCKOUT of a slot is written (Table 5.5). -/
def State.lockoutWrite (s : State) (n : Nat) (v : Bool) : State :=
  let s := s.wr (.sel .SLOT_CFG_LOCKOUT) n v.toNat
  let st := s.sstate n
  let s := if v ∧ st ≠ ssOFF ∧ st ≠ ssLOCKOUT then (s.trimFor n 5).wr (.sel .SLOT_STAT_SSTATE) n ssLOCKOUT
    else if ¬ v ∧ st = ssLOCKOUT then (s.wr (.sel .SLOT_STAT_SSTATE) n ssDISQ).wr (.sel .SLOT_STAT_CAUSE) n 5
    else s
  s.reselect

/-- SLOT_LOCKOUT_WRITE (R156). -/
def execSlotLockoutWrite (r : Req) (n : Fin 16) (v : Bool) (s : State) : Host.Outcome State Fault Refusal :=
  .next (s.writeTo r .SLOT n (fun s => s.lockoutWrite n v))

/-- The force settings are written (R159). -/
def State.forceWrite (s : State) (en : Bool) (slot : Nat) : State :=
  if en.toNat = s.rd (.sel .CTL_FORCE_EN) 0 ∧ slot = s.rd (.sel .CTL_FORCE_SLOT) 0 then s
  else if en ∧ s.sstate slot ≠ ssQUALIFIED then s.wr (.sel .CTL_CFG_REFUSED) 0 1
  else (((s.wr (.sel .CTL_FORCE_EN) 0 en.toNat).wr (.sel .CTL_FORCE_SLOT) 0 slot).setH .forceChg 0 1).reselect

/-- FORCE_WRITE (R159). -/
def execForceWrite (r : Req) (en : Bool) (slot : Fin 16) (s : State) : Host.Outcome State Fault Refusal :=
  .next (s.writeTo r .SEL 0 (fun s => s.forceWrite en slot))

/-! ## ESMC (R149, R150) -/

/-- ESMC_RECEIVE (R149): the SSM code and, where the TLV is present, the extended code. -/
def execEsmcReceive (p : Fin 72) (ssm : BitVec 4) (ext : Option (BitVec 8)) (s : State) : Host.Outcome State Fault Refusal :=
  .next (s.inUnit .PORT p (fun s =>
    (s.setH .portQl p (1 + ssm.toNat + 32 * (match ext with | none => 0 | some e => 1 + e.toNat))).setH .esmcAt p s.age))

/-- ESMC_TIMEOUT (R149): 5 s without a PDU. -/
def execEsmcTimeout (p : Fin 72) (s : State) : Host.Outcome State Fault Refusal :=
  .next (s.inUnit .PORT p (fun s => (s.passAge (s.h .esmcAt p + 5 * ticksPerSec)).setH .portQl p 0))

/-- The transmit reference in effect on port p is the Bell Tower (R150). -/
def State.txRefBell (s : State) (p : Nat) : Bool :=
  if p < 64 then s.on (.quad .CTL_TX_REF_APPLIED) (p / 4) else s.on (.lane .STATUS_TX_REF_APPLIED) p

/-- The option-1 code of a rank; QL-DNU where none has it. -/
def codeOfRank (r : Nat) : Nat :=
  match r with
  | 0 => 0x21 | 1 => 0x20 | 2 => 0x23 | 3 => 0x2 | 5 => 0x4 | 6 => 0x8 | 8 => 0x22 | 9 => 0xB | _ => 0xF

/-- The quality sent on port p (Table 5.3, R150). -/
def State.txQuality (s : State) (p : Nat) : Nat :=
  let st := s.rd (.sel .STATUS_STATE) 0
  if ¬ s.txRefBell p then 0xF
  else if st = 4 ∨ st = 5 then
    match s.h .selSlot with
    | 0 => 0xF
    | n + 1 => if s.slotSrc n = p then 0xF else (s.slotCode n).getD (codeOfRank (s.rd (.sel .SLOT_CFG_QOVR) n))
  else if st = 2 ∨ st = 3 then s.rd (.sel .ESMC_HOLD_QL) 0
  else if s.qlOpt then 0xA else 0xB

/-- Port p sends ESMC PDUs. -/
def State.esmcOn (s : State) (p : Nat) : Bool :=
  s.up .PORT p && s.domOn .bell && bit p (s.rd (.sel .ESMC_TX_EN) 0) && s.on (.lane .STATUS_LINK_UP) p

/-- ESMC_INFO_SEND (R150). -/
def execEsmcInfoSend (p : Fin 72) (s : State) : Host.Outcome State Fault Refusal :=
  .next (if s.esmcOn p then (s.setH .esmcTx p (1 + s.txQuality p)).setH .esmcCnt p (s.h .esmcCnt p + 1) else s)

/-- ESMC_EVENT_SEND (R150): a PDU goes out when the quality differs from the last one sent. -/
def execEsmcEventSend (p : Fin 72) (s : State) : Host.Outcome State Fault Refusal :=
  .next (if s.esmcOn p && s.h .esmcTx p % 64 != 1 + s.txQuality p then
    (s.setH .esmcTx p (65 + s.txQuality p)).setH .esmcCnt p (s.h .esmcCnt p + 1) else s)

end Sys2Proof.Machine
end

