-- ==== Sys2Proof/Machine/Bell.lean ====
section
/-! DEFINITION. The Bell Tower (R69-R97): the measurement gate, the jump checker, the servo cycle, the servos, steps,
replicas, the coarse copy, leap seconds, loss of the output PLL's lock and the reference loop. -/

namespace Sys2Proof.Machine

/-! ## The servo cycle (R77, R78) -/

/-- The tick of boundary n: the first tick at or after n periods of 2^-CYCLE s. -/
def boundaryTick (cyc n : Nat) : Nat := (n * ticksPerSec + 2 ^ cyc - 1) / 2 ^ cyc

/-- The tick of the deadline of cycle n: the first at or after boundary + (DL / 8) × period. -/
def deadlineTick (cyc dl n : Nat) : Nat :=
  (8 * boundaryTick cyc n * 2 ^ cyc + dl * ticksPerSec + 8 * 2 ^ cyc - 1) / (8 * 2 ^ cyc)

/-- Number of the cycle that holds a tick. -/
def cycleAt (cyc t : Nat) : Nat := t * 2 ^ cyc / ticksPerSec

/-- The servo cycle's period in 2^-16 ns. -/
def State.periodU (s : State) : Nat := 1000000000 * 65536 / 2 ^ s.h .cycEff

/-- BELL_CYCLE.NUM follows: the cycle whose deadline is pending. -/
def State.cyclePublish (s : State) : State :=
  s.wr (.bell .CYCLE_NUM) 0 (if s.h .dlPend = 1 then s.h .cycNum else s.h .cycNum + 1)

/-- The cycle in hand becomes the one that holds the present time; a deadline already past is passed over (R78). -/
def State.cyclePlace (s : State) : State :=
  let n := cycleAt (s.h .cycEff) s.now
  let s := s.setH .cycNum 0 n
  (s.setH .dlPend 0 (if s.now ≤ deadlineTick (s.h .cycEff) (s.h .dlEff) n then 1 else 0)).cyclePublish

/-- The servo ring's entry k in the Pantry of the servo engine (R77). -/
def State.ringAddr (s : State) (k : Nat) : Nat :=
  s.rd (.bell .CTL_SERVO_ENG) 0 * 2 ^ 22 + s.rd (.bell .RING_BASE) 0 * 8192 + 32 * k

/-- Samples the measurement gate has accepted in a cycle. -/
def gateSamples (l : List (Int × Nat)) : List (Int × Nat) := l.filter (fun e => e.2 < 256)

/-- The closing cycle's header is written and its samples become those of the closed cycle (R77). -/
def State.cycleClose (s : State) : State :=
  let n := (gateSamples s.meas).length
  let s' := s.inDom .engine (fun s => s.setBytes .pantry (s.ringAddr 0) (leBytes 4 (s.h .cycNum) ++ leBytes 4 n))
  { s' with measPrev := s.meas, meas := [] }

/-- An accepted sample is written to the ring's next entry (R77). -/
def State.ringSample (s : State) (ofs : Int) (at_ src : Nat) : State :=
  let k := (gateSamples s.meas).length + 1
  let s := s.inDom .engine (fun s => s.setBytes .pantry (s.ringAddr k)
    (leBytes 8 (ofS 64 ofs) ++ leBytes 12 at_ ++ leBytes 2 src ++ leBytes 2 (s.h .cycNum) ++ leBytes 8 0))
  { s with meas := s.meas ++ [(ofs, src)] }

/-- Mean of a list, rounded to nearest; 0 of none. -/
def meanOf (l : List Int) : Int := if l = [] then 0 else divRound (sumInt l) l.length

/-! ## Jump checker (R84, R85, Table 3.3) -/

/-- JUMP_THR in 2^-16 ns. -/
def State.jumpThr (s : State) : Nat := s.rd (.bell .JUMP_CFG_THR) 0 * 65536

/-- A new jump generation begins with a refused sample. -/
def State.jumpNew (s : State) (ofs : Int) : State :=
  { (s.bump (.bell .JUMP_GEN) 0).wrS (.bell .JUMP_OFS) 0 ofs with refused := [ofs] }

/-- The persistence timer starts. -/
def State.jumpTimer (s : State) : State :=
  s.setH .jumpAt 0 (s.age + s.rd (.bell .JUMP_CFG_PERSIST) 0 * ticksPerSec)

/-- A sample beyond JUMP_THR is refused (Table 3.3). -/
def State.jumpRefuse (s : State) (ofs : Int) : State :=
  let js := s.rd (.bell .STATUS_JSTATE) 0
  let far := decide (s.jumpThr < (ofs - s.rdS (.bell .JUMP_OFS) 0).natAbs)
  let s := s.wr (.bell .CLEAR_CNT) 0 0
  if js = 0 then
    ((((s.jumpNew ofs).wr (.bell .STATUS_JSTATE) 0 1).jumpTimer).setH .jumpFirst 0 s.age).raise .BELL_JUMP_REFUSED locBell
  else if far then
    let s := s.jumpNew ofs
    if js = 1 then s.jumpTimer.raise .BELL_JUMP_REFUSED locBell else s
  else
    let l := (ofs :: s.refused).take 8
    { s.wrS (.bell .JUMP_OFS) 0 (meanOf l) with refused := l }

/-- A sample within JUMP_THR counts towards the end of the jump (R85). -/
def State.jumpWithin (s : State) : State :=
  if s.rd (.bell .STATUS_JSTATE) 0 = 0 then s
  else
    let c := s.rd (.bell .CLEAR_CNT) 0 + 1
    let s := s.wr (.bell .CLEAR_CNT) 0 c
    if 8 ≤ c then
      { (s.wr (.bell .STATUS_JSTATE) 0 0).raise .BELL_JUMP_CLEARED locBell with refused := [] }
    else s

/-- JUMP_PERSIST (Table 3.3): the word in effect is frozen as the HOLD word at once, the history from GUARD_SHORT before the
first refused sample is discarded, and HOLDOVER or FREE-RUN is requested. -/
def State.jumpPersist (s : State) : State :=
  if s.rd (.bell .STATUS_JSTATE) 0 ≠ 1 then s
  else
    let s := s.passAge (s.h .jumpAt)
    let s := (s.wr (.bell .STATUS_JSTATE) 0 2).histSum.holdFreeze
    let s := s.wr (.bell .STATUS_NCO_SRC) 0 ncoHOLD
    let s := s.histTrim (s.h .jumpFirst - s.rd (.sel .TIMES2_GUARD_SHORT) 0 * ticksPerSec)
    let s := s.raise .BELL_JUMP_PERSIST locBell
    if s.mode = modeFollow ∨ s.mode = modeLead then s.intRequest { mode := s.fallbackMode + 1 } else s

/-- JUMP_PERSIST (R85). -/
def execJumpPersist (s : State) : Host.Outcome State Fault Refusal := .next (s.inDom .bell State.jumpPersist)

/-! ## The measurement gate (R75, R76) -/

/-- The verdicts of Table 3.2. -/
inductive Verdict where
  | disc | ref | ovr | acc
  deriving DecidableEq, Repr

/-- Verdicts 1 to 3: the sample is discarded. -/
def State.gateDiscards (s : State) (at_ : Nat) : Bool :=
  s.on (.bell .STATUS_GATE_CAUTION) 0 || s.on (.bell .STATUS_STEPPING) 0 || decide (at_ < s.h .stepEnd) ||
    decide (s.nowU < at_) || decide (at_ + 2 * s.periodU < s.nowU)

/-- The first verdict of Table 3.2 that holds, for a sample taken at `at_` (2^-16 ns). -/
def State.verdict (s : State) (ofs : Int) (at_ : Nat) : Verdict :=
  if s.gateDiscards at_ then .disc
  else if s.on (.bell .STATUS_STEPPED) 0 ∧ s.jumpThr < ofs.natAbs then .ref
  else if 255 ≤ (gateSamples s.meas).length then .ovr
  else .acc

/-- A sample passes the gate (R76): `at_` is its 96-bit time. -/
def State.measPost (s : State) (ofs : Int) (at_ src : Nat) : State :=
  match s.verdict ofs (u96 at_) with
  | .disc => s.count (.bell .GATE_DISC) 0
  | .ref => (s.count (.bell .GATE_REF) 0).jumpRefuse ofs
  | .ovr => (s.count (.bell .GATE_OVR) 0).jumpWithin
  | .acc => ((s.count (.bell .GATE_ACC) 0).ringSample ofs at_ src).jumpWithin

/-- MEAS_POST (R75): the write of SRC posts the sample. -/
def execMeasPost (r : Req) (ofs : BitVec 64) (at_ : BitVec 96) (src : BitVec 8) (s : State) :
    Host.Outcome State Fault Refusal :=
  .next (s.writeTo r .BELL 0 (fun s => s.measPost ofs.toInt at_.toNat src.toNat))

/-- GATE_CAUTION_END (R76): 10 ms after CAUTION has ended. -/
def execGateCautionEnd (s : State) : Host.Outcome State Fault Refusal :=
  .next (s.inDom .bell (fun s => if s.on (.bell .STATUS_GATE_CAUTION) 0 ∧ ¬ s.on (.hrt .SUPPLY_CAUTION) 0 then
    (s.passAge (s.h .cautionEnd + msTicks 10)).wr (.bell .STATUS_GATE_CAUTION) 0 0 else s))

/-! ## Servos (R87-R92) -/

/-- The servo's word takes effect where the servo is the source (Table 3.1). -/
def State.servoWord (s : State) (w : Int) : State :=
  if s.rd (.bell .STATUS_NCO_SRC) 0 = ncoSERVO ∧ ¬ s.trkRuns then s.putWord w else s

/-- The hardware servo takes over (R90). -/
def State.servoFallback (s : State) : State :=
  ((s.wr (.bell .STATUS_SRC_APPLIED) 0 1).setH .servoAwait 0 0).raise .BELL_SERVO_FALLBACK locBell

/-- BELL_FW_UPD is posted (R88, R90). -/
def State.fwUpd (s : State) (freq seq : Nat) : State :=
  if s.on (.bell .STATUS_SRC_APPLIED) 0 ∧ s.h .servoAwait = 0 then s.count (.bell .SERVO_CNT_LATE_UPD) 0
  else if seq ≠ s.rd (.bell .CYCLE_NUM) 0 % 65536 then s.count (.bell .SERVO_CNT_SEQ_ERR) 0
  else s.setH .fwPend 0 (freq + 1)

/-- BELL_FW_UPD (R88). -/
def execBellFwUpd (r : Req) (freq : BitVec 48) (seq : BitVec 16) (s : State) : Host.Outcome State Fault Refusal :=
  .next (s.writeTo r .BELL 0 (fun s => s.fwUpd freq.toNat seq.toNat))

/-- The reference loop acts on the word (R163, R164). -/
def State.loopRuns (s : State) : Bool :=
  s.mode == modeLead && !s.standby && s.rdA (.sel .DPLL_LOOP) 0 == 0 && s.h .selSlot != 0 && s.slotSrc (s.h .selSlot - 1) < 78 &&
    s.on (.bell .STATUS_SRC_APPLIED) 0

/-- The hardware servo's integrator and word from the samples of the closed cycle (R91). -/
def State.hwServo (s : State) : Int × Int :=
  let i := s.rdS (.bell .HWS_I) 0
  match (gateSamples s.measPrev).map (fun e => e.1) with
  | [] => (i, i)
  | l =>
    let x := meanOf l
    let i := i - (s.rd (.bell .HWS_KI) 0 * x) / 65536
    (i, i - (s.rd (.bell .HWS_KP) 0 * x) / 65536)

/-- The servo part of a deadline (R88-R91). -/
def State.servoDeadline (s : State) : State :=
  let fw := s.h .fwPend
  let hw := s.on (.bell .STATUS_SRC_APPLIED) 0
  let s := s.setH .fwPend 0 0
  if s.loopRuns then s
  else
    let (i, f) := s.hwServo
    let s := s.wrS (.bell .HWS_I) 0 i
    if fw ≠ 0 ∧ (¬ hw ∨ s.h .servoAwait = 1) then
      let w := toS 48 (fw - 1)
      let s := ((s.wrS (.bell .HWS_I) 0 w).wr (.bell .STATUS_MISS_CNT) 0 0).servoWord w
      if hw then (s.wr (.bell .STATUS_SRC_APPLIED) 0 0).setH .servoAwait 0 0 else s
    else if hw then s.servoWord f
    else
      let m := s.rd (.bell .STATUS_MISS_CNT) 0 + 1
      let s := (s.wr (.bell .STATUS_MISS_CNT) 0 (min 3 m)).raise .BELL_SERVO_MISS locBell
      if 3 ≤ m then s.servoFallback.servoWord f else s

/-- Unit 1 applies SERVO_SRC (R92); `usable`: the servo engine is usable. -/
def State.servoSrc (s : State) (v : Nat) (usable : Bool) : State :=
  if v = 1 then (s.wr (.bell .STATUS_SRC_APPLIED) 0 1).setH .servoAwait 0 0
  else if s.on (.bell .STATUS_SRC_APPLIED) 0 ∧ usable ∧ ¬ s.trkRuns then
    (((s.wr (.bell .STATUS_SRC_APPLIED) 0 0).wr (.bell .STATUS_MISS_CNT) 0 0).setH .fwPend 0 0).setH .servoAwait 0 0
  else s

/-! ## Lock (R162) -/

/-- The selected slot steers the clock; a standby's does not (R397). -/
def State.steers (s : State) : Bool :=
  (s.mode == modeFollow || s.mode == modeLead) && s.h .selSlot != 0 && !s.standby

/-- The mean phase error of the closed cycle: the reference loop's, or that of the samples with the slot's SRC_ID. -/
def State.phaseError (s : State) : Option Int :=
  let id := if s.loopRuns then 256 else s.rd (.sel .SLOT_SRC_ID) (s.h .selSlot - 1)
  match (s.measPrev.filter (fun e => e.2 == id)).map (fun e => e.1) with
  | [] => none
  | l => some (meanOf l)

/-- The lock evaluation of a servo cycle (R162). -/
def State.lockEval (s : State) : State :=
  let thr := s.rd (.sel .TIMES2_LOCK_THR) 0 * 65536
  let cyc := s.rd (.sel .TIMES2_LOCK_CYC) 0
  let locked := s.h .locked == 1
  if s.standby then s
  else if ¬ s.steers ∨ ¬ s.on (.bell .STATUS_STEPPED) 0 then (if locked then s.unlock else s.setH .lockIn 0 0)
  else match s.phaseError with
    | none => s.setH .lockIn 0 0
    | some e =>
      if ¬ locked then
        let n := if e.natAbs ≤ thr then s.h .lockIn + 1 else 0
        if cyc ≤ n then s.lock else s.setH .lockIn 0 n
      else
        let n := if 4 * thr < e.natAbs then s.h .lockOut + 1 else 0
        if cyc ≤ n then s.unlock else s.setH .lockOut 0 n

/-- The selected slot's phase is posted to the gate once per servo cycle (R163). -/
def State.phasePost (s : State) (phase : Nat) : State :=
  if s.steers then
    let n := s.h .selSlot - 1
    let s := s.wr (.sel .SLOT_PHASE) n phase
    if s.loopRuns then s
    else s.measPost (s.rdS (.sel .SLOT_PHASE) n - s.hS .buildOut) s.bellNow (s.rd (.sel .SLOT_SRC_ID) n)
  else s

/-- REFERENCE_LOOP_UPDATE (R164): a phase error passes verdicts 1 to 4; the loop's gains are derived internally, so the new
integrator and word are free values. -/
def State.loopUpdate (s : State) (phase : Int) : State :=
  let x := phase - s.hS .buildOut
  if ¬ s.loopRuns then s
  else match s.verdict x s.nowU with
    | .disc => s
    | .ref => s.jumpRefuse x
    | _ =>
      let s := (s.wr (.bell .HWS_I) 0 (s.freeVal 48)).nextFree
      let w := toS 48 (s.freeVal 48)
      let s := (s.nextFree.servoWord w).jumpWithin
      { s with meas := s.meas ++ [(x, 256)] }

/-- REFERENCE_LOOP_UPDATE (R164). -/
def execReferenceLoopUpdate (phase : BitVec 64) (s : State) : Host.Outcome State Fault Refusal :=
  .next (s.inDom .bell (fun s => s.loopUpdate phase.toInt))

/-! ## Leap seconds (R96, R97) -/

/-- A leap flag is set. -/
def State.leapSet (s : State) : Bool := s.on (.bell .LEAP61) 0 || s.on (.bell .LEAP59) 0

/-- SEC of the timescale. -/
def State.sec (s : State) : Nat := s.now / ticksPerSec

/-- SEC has reached BELL_LEAP_AT from below. -/
def State.leapDue (s : State) : Bool := s.h .leapArm == 1 && s.leapSet && s.rd (.bell .LEAP_AT_SEC) 0 ≤ s.sec

/-- The leap is applied (R97). -/
def State.leapApply (s : State) : State :=
  let d : Int := if s.on (.bell .LEAP61) 0 then 1 else -1
  let s := s.wrS (.bell .LEAP_UTC_OFS) 0 (s.rdS (.bell .LEAP_UTC_OFS) 0 + d)
  ((s.wrAll [.bell .LEAP61, .bell .LEAP59] 0 0).setH .leapArm 0 0).raise .BELL_LEAP_APPLIED locBell

/-- The leap is watched for while SEC lies below BELL_LEAP_AT with a flag set. -/
def State.leapWatch (s : State) : State :=
  if s.leapSet ∧ s.sec < s.rd (.bell .LEAP_AT_SEC) 0 then s.setH .leapArm 0 1 else s

/-- LEAP_APPLIED (R97): SEC counts up to BELL_LEAP_AT. -/
def execLeapApplied (s : State) : Host.Outcome State Fault Refusal :=
  .next (s.inDom .bell (fun s =>
    if s.h .leapArm = 1 ∧ s.leapSet then
      (s.passTo (s.rd (.bell .LEAP_AT_SEC) 0 * ticksPerSec)).leapApply
    else s))

/-! ## Steps (R79-R83, R86) -/

/-- A step of `d` (2^-16 ns) at T is acceptable under R80 and R100; T in 2^-16 ns form `u`. -/
def State.stepOk (s : State) (t : Nat) (d : Int) : Bool :=
  s.cstate == 0 && s.tOk t && decide (0 ≤ (u96 t : Int) + d) &&
    decide ((u96 t : Int) + d < 2 ^ 48 * 1000000000 * 65536)

/-- The units of a step commit (R80): 1, 3, 8-15 and 24-26. -/
def stepUnits : Nat := 0x0700FF0A

/-- The step is split as R81 gives: ticks and phase steps. -/
def stepSplit (d : Int) : Int × Nat :=
  let q := d * 5
  let k := q / 524288
  let r := (q % 524288).toNat
  let n := (r + 256) / 512
  if n = 1024 then (k + 1, 0) else (k, n)

/-- A step becomes a timed commit with GEN = DEV_GEN + 1 (R80). -/
def State.stepArm (s : State) (t : Nat) (d : Int) (auth : Bool) : State :=
  let (k, n) := stepSplit d
  let s := ((s.setHS .stepK 0 k).setH .stepS 0 n).setH .stepAuth 0 auth.toNat
  s.arm 2 stepUnits (s.rd (.glb .COMMIT_PEND) 0) ((s.rd (.glb .DEV_GEN) 0 + 1) % 65536) t

/-- A step request (R79, R80). -/
def State.stepReq (s : State) (kind : Bool) : State :=
  let s := s.wr (.bell .STEP_CTL_KIND) 0 kind.toNat
  let t := s.rd (.bell .STEP_T) 0
  let d : Int := if kind then (u96 (s.rd (.bell .STEP_TIME) 0) : Int) - u96 t else s.rdS (.bell .STEP_OFS) 0
  if s.on (.bell .STATUS_STEPPED) 0 ∨ (¬ kind ∧ 2 ^ 59 < d.natAbs) ∨ ¬ s.stepOk t d then
    (s.wr (.bell .STATUS_STEP_REFUSED) 0 1).raise .BELL_STEP_REFUSED locBell
  else s.stepArm t d false

/-- STEP_REQ (R80). -/
def execStepReq (r : Req) (kind : Bool) (s : State) : Host.Outcome State Fault Refusal :=
  .next (s.writeTo r .BELL 0 (fun s => s.stepReq kind))

/-- A step authorisation (R86): d = −JUMP_OFS at BELL_STEP_T. -/
def State.stepAuthWrite (s : State) (gen : Nat) : State :=
  let t := s.rd (.bell .STEP_T) 0
  let d := -s.rdS (.bell .JUMP_OFS) 0
  if gen ≠ s.rd (.bell .JUMP_GEN) 0 ∨ s.rd (.bell .STATUS_JSTATE) 0 ≠ 2 ∨ ¬ s.stepOk t d then
    (s.wr (.bell .STATUS_AUTH_REFUSED) 0 1).raise .BELL_STEP_AUTH_REFUSED locBell
  else s.stepArm t d true

/-- STEP_AUTH (R86). -/
def execStepAuth (r : Req) (gen : BitVec 16) (s : State) : Host.Outcome State Fault Refusal :=
  .next (s.writeTo r .BELL 0 (fun s => s.stepAuthWrite gen.toNat))

/-- At T the step is made (R78, R81, R82, R97). -/
def State.stepApply (s : State) : State :=
  let s := s.cycleClose
  let old := s.rd (.bell .CYCLE_NUM) 0
  let s := s.setH .stepFrom 0 (s.nowU + 1)
  let s := { s with now := ((s.now : Int) + s.hS .stepK).toNat }
  let s := s.setH .stepTo 0 s.nowU
  let s := (s.wr (.bell .STATUS_STEPPED) 0 1).wr (.bell .STATUS_STEPPING) 0 1
  let s := s.cyclePlace
  let s := if s.rd (.bell .CYCLE_NUM) 0 = old then s else s.setH .fwPend 0 0
  if s.leapDue then s.leapApply else s.leapWatch

/-- The last phase step is complete: 10 ns for each (R82, Table 3.3). -/
def State.stepDone (s : State) : State :=
  if ¬ s.on (.bell .STATUS_STEPPING) 0 then s
  else
    let n := s.h .stepS
    let s := s.pass ((n * 100 + 15) / 16)
    let s := (s.wr (.bell .STATUS_STEPPING) 0 0).setH .stepEnd 0 s.nowU
    let s := (s.wr (.bell .STEP_LAST_SUB) 0 n).wr (.bell .STEP_LAST_GEN) 0 (s.h .unitGen 1)
    let s := s.raise .BELL_STEP_DONE locBell
    if s.rd (.bell .STATUS_JSTATE) 0 = 2 ∧ s.h .stepAuth = 1 then
      { (s.wr (.bell .STATUS_JSTATE) 0 0).wrAll [.bell .CLEAR_CNT, .bell .JUMP_OFS] 0 0 with refused := [] }
    else s

/-- STEP_DONE (R82). -/
def execStepDone (s : State) : Host.Outcome State Fault Refusal := .next (s.inDom .bell State.stepDone)

/-! ## Loading the timescale (R32, R79, R505) -/

/-- STEPPED becomes 0 and the jump state is cleared (R79, Table 3.3). -/
def State.unstep (s : State) : State :=
  let s := s.wrAll [.bell .STATUS_STEPPED, .bell .STATUS_STEPPING, .bell .STATUS_JSTATE, .bell .CLEAR_CNT,
    .bell .JUMP_OFS] 0 0
  { s.setH .stepEnd 0 0 with refused := [] }

/-- The timescale is loaded from the Hearth's coarse copy, or starts at 0 while that is invalid (R32, R505); the CYCLE and
DL that BELL_CTL holds take effect (R78). -/
def State.loadTime (s : State) : State :=
  let s := { s with now := if s.on (.hrt .COARSE_ST_VALID) 0 then s.coarse / 16 else 0 }
  let s := s.unstep
  let s := (s.setH .cycEff 0 (s.rd (.bell .CTL_CYCLE) 0)).setH .dlEff 0 (s.rd (.bell .CTL_DL) 0)
  let s := { s.setH .fwPend 0 0 with meas := [], measPrev := [] }
  s.cyclePlace.leapWatch

/-! ## Output PLL (R167) -/

/-- Loss of lock. -/
def State.opllUnlock (s : State) : State :=
  if ¬ s.on (.sel .OSTAT_LOCK) 0 then s
  else
    let s := (List.range 8).foldl (fun s k => s.trigCut k) s
    let s := (s.wr (.sel .OSTAT_LOCK) 0 0).count (.sel .OSTAT_UNLOCK_CNT) 0
    let s := if s.on (.twn .CTL_RELINQ_UNLOCK) 0 then s.relinquish else s
    (s.raise .PLL_OPLL_UNLOCK locBell).outsSync

/-- OPLL_UNLOCK (R167). -/
def execOpllUnlock (s : State) : Host.Outcome State Fault Refusal := .next (s.inDom .bell State.opllUnlock)

/-- Relock: the timescale is reloaded and the transition of Table 5.8 is taken. -/
def State.opllRelock (s : State) : State :=
  if s.on (.sel .OSTAT_LOCK) 0 then s
  else
    let s := (s.wr (.sel .OSTAT_LOCK) 0 1).loadTime
    let m := s.mode
    let s := if m = modeFollow ∨ m = modeLead ∨ m = modeHoldover then
        let t := s.fallbackMode
        let s := s.setNco (s.ncoFor t)
        if t = m then s else s.intRequest { mode := t + 1 }
      else s.setNco (s.ncoFor m)
    s.selStatus

/-- OPLL_RELOCK (R167). -/
def execOpllRelock (s : State) : Host.Outcome State Fault Refusal := .next (s.inDom .bell State.opllRelock)

/-! ## Replicas and the coarse copy (R93-R95) -/

/-- Location of replica n: its lane or engine. -/
def locRep (n : Nat) : Nat := if n < 74 then locLane n else locEngine (n - 74)

/-- A replica's unit has power. -/
def State.repUp (s : State) (n : Nat) : Bool :=
  s.up .BELLREP n && s.domOn (if n < 74 then laneDom n else .engine)

/-- Stamps and records of replica n carry VOID (R95). -/
def State.repVoid (s : State) (n : Nat) : Bool := s.h .repBad n != 0 || !s.on (.bell .REP_VALID) n

/-- A marker reaches replica n (R95): after a third disagreement it reloads from this one. -/
def State.repMarker (s : State) (n : Nat) (agrees stepFlag : Bool) : State :=
  let bad := s.h .repBad n
  if ¬ s.on (.bell .REP_VALID) n ∨ 3 ≤ bad then (s.setH .repBad n 0).wr (.bell .REP_VALID) n 1
  else if agrees ∨ stepFlag then s.setH .repBad n 0
  else
    let s := s.setH .repBad n (bad + 1)
    if bad + 1 = 3 then (s.wr (.bell .REP_FAULT) n 1).raise .BELL_REP_FAULT (locRep n) (locRep n) else s

/-- REPLICA_MARKER (R95): `agrees` within two units of its read resolution. -/
def execReplicaMarker (n : Fin 90) (agrees stepFlag : Bool) (s : State) : Host.Outcome State Fault Refusal :=
  .next (if s.repUp n then s.repMarker n agrees stepFlag else s)

/-- REPLICA_ECHO (R93): the measured crossing delay is published. -/
def execReplicaEcho (n : Fin 90) (dly : BitVec 24) (s : State) : Host.Outcome State Fault Refusal :=
  .next (if s.repUp n then s.wr (.bell .REP_DLY) n dly.toNat else s)

/-- The Hearth sets its coarse copy at the next whole second of the timescale (R94, R505). -/
def State.coarseSet (s : State) : State :=
  let s := s.passTo ((s.now + ticksPerSec - 1) / ticksPerSec * ticksPerSec)
  { s.wr (.hrt .COARSE_ST_VALID) 0 1 with coarse := 16 * s.now }

/-- COARSE_COPY_SET (R94). -/
def execCoarseCopySet (s : State) : Host.Outcome State Fault Refusal :=
  .next (s.inDom .bell State.coarseSet)

/-! ## Holdover expiry (R171) -/

/-- B or t is beyond its limit in HOLDOVER: EXPIRED. -/
def State.expire (s : State) : State :=
  if s.mode ≠ modeHoldover ∨ s.on (.sel .HOLD_STAT_EXPIRED) 0 then s
  else if s.holdPublish.holdOver then
    ((s.holdPublish.wr (.sel .HOLD_STAT_EXPIRED) 0 1).raise .SEL_HOLDOVER_EXPIRED locBell).selStatus
  else s.holdPublish

/-- HOLDOVER_EXPIRED (R171): the bound has grown beyond TE_MAX, or the time runs up to T_MAX. -/
def execHoldoverExpired (s : State) : Host.Outcome State Fault Refusal :=
  .next (s.inDom .bell (fun s =>
    if s.mode ≠ modeHoldover then s
    else if s.holdOver then s.expire
    else (s.passAge (s.h .holdFrom + (s.rd (.sel .HOLD_LIM_T_MAX) 0 * 3600 + 1) * ticksPerSec)).expire))

end Sys2Proof.Machine
end

