-- ==== Sys2Proof/Machine/Pool.lean ====
section
/-! DEFINITION. The pool manager (chapter 8): grants, reference counts, freezing, the Cellar partition, stack failure and
wipes. -/

namespace Sys2Proof.Machine

/-! ## Pools and handles -/

/-- Pool and index of a handle (R256). -/
def hPool (h : Nat) : Nat := bits 30 2 h
/-- Index of a handle (R256). -/
def hIdx (h : Nat) : Nat := bits 0 30 h
/-- The handle of buffer `i` of pool `p` (R256). -/
def mkHandle (p i : Nat) : Nat := p * 2 ^ 30 + i

/-- The number of stacks on the variant, S of R255. -/
def Variant.nStacks : Variant → Nat
  | .s => 0 | .m => 2 | .x => 4

/-- Buffer size of a pool in octets (Table 8.1). -/
def poolSize (p : Nat) : Nat := if p = 0 then 256 else if p = 1 then 2048 else if p = 2 then 16384 else 131072

/-- Buffers per stack of pools 1-3 (R261). -/
def State.perStack (s : State) (p : Nat) : Nat :=
  if p = 1 then s.rd (.pool .CFG_C1) 0 else if p = 2 then s.rd (.pool .CFG_C2) 0 else s.rd (.pool .CFG_C3) 0

/-- Index range of a pool: its buffers, usable or not (Table 8.1). -/
def State.poolRange (s : State) (p : Nat) : Nat :=
  if p = 0 then 393216 else s.perStack p * s.variant.nStacks

/-- Stack k holds pool buffers and answers accesses: STATE ready (Table 8.10). -/
def State.stackReady (s : State) (k : Nat) : Bool :=
  s.variant.hasStack k && s.domOn .cellar && s.rd (.cel .STACK_STATE) k == 3

/-- Stacks that are ready. -/
def State.readyStacks (s : State) : List Nat := (List.range 4).filter s.stackReady

/-- Buffer `i` of pool `p` lies in usable memory (R259, R260, R275, R277). -/
def State.usable (s : State) (p i : Nat) : Bool :=
  i < s.poolRange p &&
  (if p = 0 then !bit (i / 8192) (s.h .bankBad) && s.h .granWipe == 0 else s.stackReady (i % s.variant.nStacks))

/-- Usable buffers of a pool (POOL_STAT.TOTAL, R259, R276). -/
def State.poolTotal (s : State) (p : Nat) : Nat :=
  if p = 0 then 393216 - 8192 * (bitsOf 48 (s.h .bankBad)).length else s.perStack p * s.readyStacks.length

/-- Held or frozen buffers of a pool that lie in usable memory. -/
def State.taken (s : State) (p : Nat) : List Nat :=
  (s.bufs.filter (fun e => hPool e.1 == p && s.usable p (hIdx e.1))).map (fun e => hIdx e.1)

/-- Free buffers of a pool (POOL_STAT.FREE). -/
def State.poolFree (s : State) (p : Nat) : Nat :=
  if p = 0 ∧ s.h .granWipe ≠ 0 then 0 else s.poolTotal p - (s.taken p).length

/-- Number of the owner register instance of owner `o` and pool `p` (Table 8.8). -/
def ownIdx (o p : Nat) : Nat := 4 * o + p

/-- Headroom H of a pool (R264). -/
def State.headroom (s : State) (p : Nat) : Nat :=
  (List.range 90).foldl (fun n o => n + (s.rd (.pool .OWN_RSV) (ownIdx o p) - s.rd (.pool .OWN_USE) (ownIdx o p))) 0

/-- Free buffers of a pool's shared part (POOL_STAT.SHARED). -/
def State.poolShared (s : State) (p : Nat) : Nat := s.poolFree p - s.headroom p

/-- A handle names a buffer of a pool that exists (R256). -/
def State.handleOk (s : State) (h : Nat) : Bool :=
  h < 2 ^ 32 && hIdx h < s.poolRange (hPool h)

/-- Address of buffer `i` of pool 1-3 in the Cellar (R260). -/
def State.cellarAddr (s : State) (p i : Nat) : Nat :=
  let n := s.variant.nStacks
  let c3 := s.rd (.pool .CFG_C3) 0 * 131072
  let base := if p = 3 then 0 else if p = 2 then c3 else c3 + s.rd (.pool .CFG_C2) 0 * 16384
  i % n * 2 ^ 34 + s.rd (.cel .CTL_ENG_SIZE) 0 * 2 ^ 30 + base + i / n * poolSize p

/-! ## Finding a free buffer -/

/-- Buffer `i` of pool `p` is free (R262). -/
def State.isFree (s : State) (p i : Nat) : Bool := s.usable p i && s.buf (mkHandle p i) == {}

/-- Indices that can be the first free one at or after the cursor: the cursor, 0, and what follows a taken buffer or a run
of unusable ones. -/
def State.freeCandidates (s : State) (p : Nat) : List Nat :=
  let c := s.h .poolCursor p
  let ends := (s.bufs.filter (fun e => hPool e.1 == p)).map (fun e => hIdx e.1 + 1)
  if p = 0 then c :: 0 :: ends ++ (bitsOf 48 (s.h .bankBad)).map (fun b => 8192 * (b + 1))
  else (c :: 0 :: ends).flatMap (fun i => [i, i + 1, i + 2, i + 3])

/-- Find-first-free: the first free buffer from the cursor on, wrapping at the pool's end (R262). -/
def State.findFree (s : State) (p : Nat) : Option Nat :=
  let n := s.poolRange p
  let c := s.h .poolCursor p
  let dist := fun i => (i + n - c) % n
  ((s.freeCandidates p).filter (s.isFree p)).foldl
    (fun best i => match best with
      | none => some i
      | some j => if dist i < dist j then some i else some j) none

/-! ## Grants -/

/-- A pool's shared part has become empty, or holds 1 % of the pool again (R267). -/
def State.sharedCheck (s : State) (p : Nat) : State :=
  if s.poolShared p = 0 then
    if s.h .poolEmptied p = 1 then s else (s.setH .poolEmptied p 1).raise .POOL_SHARED_EMPTY locSwitchDie p
  else if s.poolTotal p ≤ 100 * s.poolShared p then s.setH .poolEmptied p 0 else s

/-- The pool manager may grant from pool `p`: it exists, pools are open (R261, R266). -/
def State.poolGrants (s : State) (p : Nat) : Bool :=
  s.domOn .core && s.on (.pool .CTL_OPEN) 0 && (p == 0 || s.variant.nStacks != 0)

/-- Owner `o` has its reserve open in pool `p`. -/
def State.inReserve (s : State) (o p : Nat) : Bool :=
  s.rd (.pool .OWN_USE) (ownIdx o p) < s.rd (.pool .OWN_RSV) (ownIdx o p)

/-- Owner `o` may take from the shared part of pool `p` (R264). -/
def State.inShare (s : State) (o p : Nat) : Bool :=
  s.rd (.pool .OWN_USE) (ownIdx o p) < s.rd (.pool .OWN_MAX) (ownIdx o p) && s.poolShared p != 0

/-- Buffer `i` of pool `p` is granted to owner `o` with count 1 and charged to it (R263, R268). -/
def State.take (s : State) (o p i : Nat) : State :=
  let h := mkHandle p i
  let s := s.setBuf h { held := true, owner := o, refs := 1, head := h }
  let s := s.bump (.pool .OWN_USE) (ownIdx o p)
  let s := s.setH .poolCursor p ((i + 1) % s.poolRange p)
  s.sharedCheck p

/-- One request of owner `o` to pool `p`: granted from reserve or the shared part, else denied and counted (R264, R267). -/
def State.grant (s : State) (o p : Nat) : Option Nat × State :=
  if s.poolGrants p && (s.inReserve o p || s.inShare o p) then
    match s.findFree p with
    | some i => (some (mkHandle p i), s.take o p i)
    | none => (none, s.count (.pool .OWN_DENY) (ownIdx o p))
  else (none, s.count (.pool .OWN_DENY) (ownIdx o p))

/-- A request with FALLBACK: tried in the next larger pool when denied in pool 1 or 2 (R266). -/
def State.grantFb (s : State) (o p : Nat) (fb : Bool) : Option Nat × State :=
  match s.grant o p with
  | (some h, s) => (some h, s)
  | (none, s) =>
    if fb && p == 1 then
      match s.grant o 2 with
      | (some h, s) => (some h, s)
      | (none, s) => s.grant o 3
    else if fb && p == 2 then s.grant o 3
    else (none, s)

/-! ## Reference counts -/

/-- The handles of a buffer's chain, itself first. -/
def Buf.cells (b : Buf) (h : Nat) : List Nat := h :: b.chain

/-- Buffers are uncharged from their owner (R263). -/
def State.uncharge (s : State) (hs : List Nat) : State :=
  hs.foldl (fun s h => s.wr (.pool .OWN_USE) (ownIdx (s.buf h).owner (hPool h))
    (s.rd (.pool .OWN_USE) (ownIdx (s.buf h).owner (hPool h)) - 1)) s

/-- A buffer, or a chain as a whole, is freed: uncharged and returned to the bitmap (R257, R268). -/
def State.freeBuf (s : State) (h : Nat) : State :=
  let hs := (s.buf h).cells h
  let s := s.uncharge hs
  let s := hs.foldl (fun s h => s.setBuf h {}) s
  s.sharedCheck (hPool h)

/-- A buffer or chain is frozen (R270). -/
def State.freeze (s : State) (h requester : Nat) : State :=
  let b := s.buf h
  let s := if b.held then s.uncharge (b.cells h) else s
  let s := (b.cells h).foldl (fun s k => s.setBuf k { s.buf k with held := false, frozen := true, head := h }) s
  let s := s.wr (.pool .FROZEN_HANDLE) 0 h
  s.raise .POOL_REF_UNDERFLOW (if hPool h = 0 then locBank (hIdx h / 8192) else locStack (hIdx h % s.variant.nStacks))
    (h + requester * 2 ^ 32)

/-- A REF or DEREF of `k` that is not applied for want of a valid, unfrozen buffer (R256, R270): `none` when it may go
on. -/
def State.refRefused (s : State) (h : Nat) : Option State :=
  if ¬ s.handleOk h then some (s.count (.pool .STAT_BAD_HANDLE) (hPool h))
  else if (s.buf h).frozen then some (s.count (.pool .STAT_FROZEN_OP) (hPool h))
  else none

/-- REF: adds k, refused above 255; on a free buffer it freezes (R268-R270). The flag says whether it was applied. -/
def State.ref (s : State) (h k requester : Nat) : Bool × State :=
  if k = 0 ∨ 255 < k then (false, s)
  else match s.refRefused h with
    | some s => (false, s)
    | none =>
      let b := s.buf h
      if ¬ b.held then (false, s.freeze h requester)
      else if 255 < b.refs + k then (false, s.count (.pool .STAT_REF_OVER) (hPool h))
      else (true, s.setBuf h { b with refs := b.refs + k })

/-- DEREF: subtracts k; at zero the buffer is freed; below zero, or on a free buffer, it freezes (R268, R270). -/
def State.deref (s : State) (h k requester : Nat) : Bool × State :=
  if k = 0 ∨ 255 < k then (false, s)
  else match s.refRefused h with
    | some s => (false, s)
    | none =>
      let b := s.buf h
      if ¬ b.held ∨ b.refs < k then (false, s.freeze h requester)
      else if b.refs = k then (true, s.freeBuf h)
      else (true, s.setBuf h { b with refs := b.refs - k })

/-- DEREF 1 by the part itself. -/
def State.drop1 (s : State) (h : Nat) : State := (s.deref h 1 90).2

/-! ## Requests of one market cycle (R265) -/

/-- Owner a requester is charged to, for a request without a frame (Table 8.2). -/
def whoOwner : PoolWho → Nat
  | .port p => p | .eng e => 72 + e.val | .reeve => 88 | .hostDma => 89

/-- Place of a requester in the order of its step of R265: pairs and engines rotate from `fp` and `fe`. -/
def whoRank (fp fe : Nat) : PoolWho → Nat
  | .port p => ((if p.val < 64 then p.val / 8 else p.val - 64) + 8 - fp % 8) % 8
  | .eng e => 8 + (e.val + 16 - fe % 16) % 16
  | .reeve => 24
  | .hostDma => 25

/-- One requester per pool: a pipeline pair, an engine, the Reeve, the host DMA. -/
def whoUnit : PoolWho → Nat
  | .port p => if p.val < 64 then p.val / 8 else p.val - 64
  | .eng e => 8 + e.val
  | .reeve => 24
  | .hostDma => 25

/-- A requester's denial or grant is kept for it: 1 denied, 2 + handle granted (Table 8.3). -/
def State.poolAnswer (s : State) (w : PoolWho) (r : Option Nat) : State :=
  s.setH .poolCmd (whoOwner w) (match r with | none => 1 | some h => h + 2)

/-- Insertion into a list ordered by rank. -/
def rankIns (fp fe : Nat) (r : PoolReq) : List PoolReq → List PoolReq
  | [] => [r]
  | a :: t => if whoRank fp fe r.who < whoRank fp fe a.who then r :: a :: t else a :: rankIns fp fe r t

/-- The requests in the order of steps 2-5 of R265. -/
def rankSort (fp fe : Nat) (rs : List PoolReq) : List PoolReq := rs.foldl (fun l r => rankIns fp fe r l) []

/-- The first request of each requester; a second one to the same pool is not accepted in the cycle (R265). -/
def onePer : List PoolReq → List PoolReq
  | [] => []
  | r :: t => r :: (onePer t).filter (fun a => whoUnit a.who != whoUnit r.who)

/-- The cell granted to a frame in reception joins its chain; its 256 octets are written (R257). -/
def State.addCell (s : State) (p h : Nat) : State :=
  match s.rxOf p with
  | none => s
  | some r =>
    let k := r.cells.length
    let s := s.setBytes .granary (256 * hIdx h) ((r.octets.drop (256 * k)).take 256)
    let first := r.cells.headD h
    let s := s.setBuf h { s.buf h with head := first, refs := if k = 0 then 1 else 0 }
    let s := if k = 0 then s else s.setBuf first { s.buf first with chain := (s.buf first).chain ++ [h] }
    s.setRx p (some { r with cells := r.cells ++ [h] })

/-- Copies of a frame that have left in cut-through are stomped when they end (R235, R236): PORT p's copy. -/
def State.stompTx (s : State) (p : Nat) : State :=
  match s.txOf p with
  | none => s
  | some t =>
    if t.stomped then s
    else
      let s := s.setTx p (some { t with stomped := true })
      if t.desc.ct then (s.count (.port .CNT_CT_STOMP) p).raiseP .PORT_CT_STOMP p else s

/-- Every cut-through copy of the frame `h` in transmission is stomped. -/
def State.stompCopies (s : State) (h : Nat) : State :=
  (List.range 72).foldl (fun s p => match s.txOf p with
    | some t => if t.desc.ct ∧ t.desc.handle = h then s.stompTx p else s
    | none => s) s

/-- The copies of frame `h` still held in queues are dropped, each with DEREF 1 (R236). -/
def State.dropQueued (s : State) (h : Nat) : State :=
  (List.range 576).foldl (fun s k =>
    let q := s.queue k
    let n := (q.filter (fun d => d.handle == h && !d.cel)).length
    if n = 0 then s
    else (List.range n).foldl (fun s _ => s.drop1 h) (s.setQueue k (q.filter (fun d => !(d.handle == h && !d.cel))))) s

/-- The rest of a frame in reception is lost for cause `err`: copies that have left in cut-through are stomped, copies held
for store-and-forward are dropped, cells already granted go when no copy holds them (R235, R236, Table 8.3). -/
def State.failRx (s : State) (p err : Nat) : State :=
  match s.rxOf p with
  | none => s
  | some r =>
    let h := r.cells.headD 0
    let s := s.setRx p (some { r with err := err, dead := true, late := [] })
    if r.cells = [] then s
    else if r.entered then r.late.foldl (fun s _ => s.drop1 h) ((s.stompCopies h).dropQueued h)
    else s.freeBuf h

/-- The effect of an answered request: an ingress pipeline's cell joins the frame, or its denial drops or stomps it
(Table 8.3). -/
def State.poolEffect (s : State) (w : PoolWho) (r : Option Nat) : State :=
  match w with
  | .port p =>
    match r with
    | some h => match s.rxOf p.val with
      | some f => if f.dead then s.freeBuf h else s.addCell p.val h
      | none => s.poolAnswer w r
    | none => s.failRx p.val 4
  | _ => s.poolAnswer w r

/-- One pool's requests in one cycle: those grantable from reserve first, then the shared ones in order; answers what is
denied and may fall back (R265, R266). -/
def State.poolCycle (s : State) (fp fe p : Nat) (direct fb : List PoolReq) : List PoolReq × State :=
  let pre := direct.filter (fun r => s.inReserve (whoOwner r.who) p)
  let post := direct.filter (fun r => !s.inReserve (whoOwner r.who) p)
  (pre ++ rankSort fp fe post ++ rankSort fp fe fb).foldl (fun (a : List PoolReq × State) r =>
    match a.2.grant (whoOwner r.who) p with
    | (some h, s) => (a.1, s.poolEffect r.who (some h))
    | (none, s) =>
      if r.fallback && (p == 1 || p == 2) then (a.1 ++ [r], s) else (a.1, s.poolEffect r.who none)) ([], s)

/-- POOL_REQUEST (R265-R267): the requests of one market cycle, in which pair `fp` and engine `fe` stand first. -/
def execPoolRequest (fp : Fin 8) (fe : Fin 16) (rs : List PoolReq) (s : State) : Host.Outcome State Fault Refusal :=
  .next (s.inDom .core (fun s =>
    let of := fun p => onePer (rs.filter (fun r => r.pool.val == p))
    let (_, s) := s.poolCycle fp fe 0 (of 0) []
    let (f1, s) := s.poolCycle fp fe 1 (of 1) []
    let (f2, s) := s.poolCycle fp fe 2 (of 2) f1
    let (_, s) := s.poolCycle fp fe 3 (of 3) f2
    s))

/-- BUFFER_REF (R268-R270). -/
def execBufferRef (w : PoolWho) (h : BitVec 32) (k : Fin 256) (s : State) : Host.Outcome State Fault Refusal :=
  .next (s.inDom .core (fun s => (s.ref h.toNat k (whoOwner w)).2))

/-- BUFFER_DEREF (R268, R270). -/
def execBufferDeref (w : PoolWho) (h : BitVec 32) (k : Fin 256) (s : State) : Host.Outcome State Fault Refusal :=
  .next (s.inDom .core (fun s => (s.deref h.toNat k (whoOwner w)).2))

/-! ## Registers of the pool manager and the Cellar -/

/-- A POOL write is refused. -/
def State.poolRefused (s : State) : State := s.wr (.pool .CTL_CFG_REFUSED) 0 1

/-- A handle is written to POOL_THAW (R271). -/
def State.thaw (s : State) (h : Nat) : State :=
  let b := s.buf h
  if s.handleOk h && b.frozen then
    let hd := b.head
    let s := ((s.buf hd).cells hd).foldl (fun s k => s.setBuf k {}) s
    s.sharedCheck (hPool h)
  else s.poolRefused

/-- POOL_THAW (R271). -/
def execPoolThaw (r : Req) (h : BitVec 32) (s : State) : Host.Outcome State Fault Refusal :=
  .next (s.writeTo r .POOL 0 (fun s => s.thaw h.toNat))

/-- Sum of the owners' reserved minima in a pool. -/
def State.sumRsv (s : State) (p : Nat) : Nat :=
  (List.range 90).foldl (fun n o => n + s.rd (.pool .OWN_RSV) (ownIdx o p)) 0

/-- The partition fits a stack and the reserves fit the pools (R261). -/
def State.openOk (s : State) : Bool :=
  s.rd (.cel .CTL_ENG_SIZE) 0 * 2 ^ 30 + s.rd (.pool .CFG_C3) 0 * 131072 + s.rd (.pool .CFG_C2) 0 * 16384 +
    s.rd (.pool .CFG_C1) 0 * 2048 ≤ 2 ^ 34 &&
  (List.range 4).all (fun p => (p != 0 && s.variant.nStacks == 0) || decide (s.sumRsv p ≤ s.poolRange p -
    (if p = 0 then 8192 * (bitsOf 48 (s.h .bankBad)).length else 0)))

/-- OPEN is written (R261). -/
def State.openWrite (s : State) (v : Bool) : State :=
  if ¬ v then s.wr (.pool .CTL_OPEN) 0 0
  else if s.on (.pool .CTL_OPEN) 0 then s
  else if s.openOk then s.wr (.pool .CTL_OPEN) 0 1
  else s.poolRefused

/-- POOL_OPEN_WRITE (R261). -/
def execPoolOpenWrite (r : Req) (v : Bool) (s : State) : Host.Outcome State Fault Refusal :=
  .next (s.writeTo r .POOL 0 (fun s => s.openWrite v))

/-- SPILL_EN is written (R276). -/
def State.spillEnWrite (s : State) (v : Bool) : State :=
  if ¬ v then s.wr (.pool .CTL_SPILL_EN) 0 0
  else if s.on (.pool .CTL_SPILL_EN) 0 then s
  else if s.readyStacks = [] ∨ [1, 2, 3].any (fun p => decide (s.poolTotal p < s.sumRsv p)) then s.poolRefused
  else s.wr (.pool .CTL_SPILL_EN) 0 1

/-- SPILL_EN_WRITE (R276). -/
def execSpillEnWrite (r : Req) (v : Bool) (s : State) : Host.Outcome State Fault Refusal :=
  .next (s.writeTo r .POOL 0 (fun s => s.spillEnWrite v))

/-! ## Stack failure and wipes -/

/-- STATE codes (Table 11.8). -/
def gOFF : Nat := 0
def gRUN : Nat := 1
def gDRAIN : Nat := 2
def gFAULT : Nat := 3
/-- STATE of a group. -/
def gState (s : State) (g : Nat) : Nat := s.rd (.gth .GRP_STATE) g

/-- Open bins of a group: present, neither emitted nor lost. -/
def State.openBins (s : State) (g : Nat) : List Bin := s.bins.filter (fun b => b.grp == g && !b.emitted && !b.lost)

/-- A draining group with no open bin is OFF (R387). -/
def State.gDrained (s : State) (g : Nat) : State :=
  if gState s g = gDRAIN ∧ s.openBins g = [] then
    { s with bins := s.bins.filter (fun b => b.grp != g) }.wr (.gth .GRP_STATE) g gOFF
  else s

/-- A bin that has lost its storage (R381). -/
def Bin.dead (x : Bin) : Bin := { x with lost := true, holds := false, home := none, acc := [] }

/-- An open bin is lost (R381): its claimed contributions not yet accumulated give their references back, BIN_LOST, GTH.BIN_LOST.
Its Cellar buffer goes; what remains of it makes later contributions late. A draining group may end with it (R387). -/
def State.binLose (s : State) (b : Bin) : State :=
  let mine := (s.gqOf b.eng).filter (fun c => c.grp == b.grp && c.n == b.n)
  let s := s.setGq b.eng ((s.gqOf b.eng).filter (fun c => !(c.grp == b.grp && c.n == b.n)))
  let s := mine.foldl (fun s c => s.drop1 c.handle) s
  let s := match b.home with | some h => s.drop1 h | none => s
  let s := { s with bins := s.bins.map (fun (x : Bin) => if x.grp = b.grp ∧ x.n = b.n then x.dead else x) }
  ((s.count (.gth .GCNT_BIN_LOST) b.grp).raise .GTH_BIN_LOST (locHalf (b.grp / 256))).gDrained b.grp

/-- Every open bin with a property is lost. -/
def State.binsLose (s : State) (p : Bin → Bool) : State :=
  (s.bins.filter (fun b => !b.lost && !b.emitted && p b)).foldl (fun s b => s.binLose b) s

/-- A stack fails (R275): marked unusable, a lasting Ledger entry, CEL.STACK_FAIL, spilling off. Its buffers leave the
bitmaps because `usable` asks for a ready stack. -/
def State.stackFail (s : State) (k cause : Nat) : State :=
  if s.rd (.cel .STACK_STATE) k = 4 then s
  else
    let s := s.wr (.cel .STACK_STATE) k 4
    let s := s.ledger 0x000C true (locStack k) cause
    let s := s.raise .CEL_STACK_FAIL (locStack k) cause
    let s := (List.range 4).foldl (fun s p => s.sharedCheck p) s
    let s := s.binsLose (fun b => match b.home with | some h => hIdx h % s.variant.nStacks == k | none => false)
    if s.on (.pool .CTL_SPILL_EN) 0 then (s.wr (.pool .CTL_SPILL_EN) 0 0).raise .POOL_SPILL_OFF (locStack k) else s

/-- Number of a failure event in the order of Table 8.4 (log entry 20). -/
def stackCauseCode : StackCause → Nat
  | .errors => 1 | .training => 2 | .temperature => 3 | .mark => 4

/-- STACK_FAIL (R275, Table 8.4). -/
def execStackFail (k : Fin 4) (c : StackCause) (s : State) : Host.Outcome State Fault Refusal :=
  .next (s.inUnit .STACK k (fun s => s.stackFail k (stackCauseCode c)))

/-- A host's 1 is written to CEL_STACK.MARK (Table 8.4). -/
def State.stackMark (s : State) (k : Nat) : State := (s.wr (.cel .STACK_MARK) k 1).stackFail k 4

/-- STACK_MARK (R275). -/
def execStackMark (r : Req) (k : Fin 4) (s : State) : Host.Outcome State Fault Refusal :=
  .next (s.writeTo r .STACK k (fun s => s.stackMark k))

/-- A wipe of the Granary begins: nothing is granted from it until it ends (R277). -/
def State.granWipeStart (s : State) : State := (s.setH .granWipe 0 1).wr (.pool .CTL_WIPE_DONE) 0 0

/-- A wipe of stack k begins (R277). -/
def State.stackWipeStart (s : State) (k : Nat) : State :=
  if s.variant.hasStack k then (s.wr (.cel .STACK_STATE) k 2).wr (.pool .CTL_WIPE_DONE) 0 0 else s

/-- Some memory of Table 8.5 is being wiped. -/
def State.wiping (s : State) : Bool :=
  s.h .granWipe != 0 || (List.range 4).any (fun k => s.rd (.cel .STACK_STATE) k == 2)

/-- Buffers that lie in wiped memory become free, uncharged and unfrozen (R277). -/
def State.wipeBufs (s : State) (inMem : Nat → Bool) : State :=
  let gone := s.bufs.filter (fun e => inMem e.1)
  let s := gone.foldl (fun s e => if e.2.held then s.uncharge [e.1] else s) s
  { s with bufs := s.bufs.filter (fun e => !inMem e.1) }

/-- WIPE_DONE reads 1 when nothing is being wiped any more (R277). -/
def State.wipeFlag (s : State) : State := if s.wiping then s else s.wr (.pool .CTL_WIPE_DONE) 0 1

/-- The Granary's wipe ends (R277, Table 8.5). -/
def State.granWiped (s : State) : State :=
  let s := (s.wipe .granary 0 (393216 * 256)).wipeBufs (fun h => hPool h == 0)
  (s.setH .granWipe 0 0).wipeFlag

/-- The wipe of stack k ends: it is ready, or unusable while a mark stands (R277, Table 8.10). -/
def State.stackWiped (s : State) (k : Nat) : State :=
  let n := s.variant.nStacks
  let s := (s.wipe .cellar (k * 2 ^ 34) ((k + 1) * 2 ^ 34)).wipeBufs (fun h => hPool h != 0 && n != 0 && hIdx h % n == k)
  (s.wr (.cel .STACK_STATE) k (if s.on (.cel .STACK_MARK) k || bit k (s.h .stackBad) then 4 else 3)).wipeFlag

/-- WIPE_DONE (R277): of the Granary, or of a stack. -/
def execWipeDone (m : Option (Fin 4)) (s : State) : Host.Outcome State Fault Refusal :=
  .next (match m with
    | none => s.inDom .core (fun s => s.when (s.h .granWipe == 1) State.granWiped)
    | some k => s.inDom .cellar (fun s => s.when (s.rd (.cel .STACK_STATE) k == 2) (fun s => s.stackWiped k)))

end Sys2Proof.Machine
end

