-- ==== Sys2Proof/Machine/Frame.lean ====
section
/-! DEFINITION. Frames: their metadata (Table 9.7), their octets in the Granary or the Cellar (R257, R338), and the spill
mover (R272-R274). -/

namespace Sys2Proof.Machine

/-! ## Metadata -/

/-- A metadata field: lowest bit and width in the 512-bit value (Table 9.7). -/
structure MdF where
  lsb : Nat
  w : Nat
  deriving DecidableEq, Repr

def mdHANDLE : MdF := ⟨0, 32⟩
def mdLEN : MdF := ⟨32, 14⟩
def mdIN_PORT : MdF := ⟨46, 7⟩
def mdBANK : MdF := ⟨53, 1⟩
def mdSHORT : MdF := ⟨54, 1⟩
def mdCONG : MdF := ⟨55, 1⟩
def mdSTA_HIT : MdF := ⟨56, 1⟩
def mdSTA_IDX : MdF := ⟨57, 3⟩
def mdMGMT_HIT : MdF := ⟨60, 1⟩
def mdTS_ABSENT : MdF := ⟨61, 1⟩
def mdTS_VOID : MdF := ⟨62, 1⟩
def mdTS_CAUTION : MdF := ⟨63, 1⟩
def mdARR : MdF := ⟨64, 96⟩
def mdTS_GEN : MdF := ⟨160, 16⟩
def mdPAIR_GEN : MdF := ⟨176, 16⟩
def mdSTAMP : MdF := ⟨192, 32⟩
def mdDKIND : MdF := ⟨224, 3⟩
def mdTC : MdF := ⟨227, 3⟩
def mdPFC_PRI : MdF := ⟨230, 3⟩
def mdCT_OK : MdF := ⟨233, 1⟩
def mdDEST : MdF := ⟨240, 16⟩
def mdREF : MdF := ⟨256, 96⟩
def mdMIRROR : MdF := ⟨352, 7⟩
def mdINJ : MdF := ⟨360, 2⟩
def mdSRC_ENG : MdF := ⟨362, 4⟩
def mdGRP : MdF := ⟨384, 16⟩
def mdSTIME_OFS : MdF := ⟨400, 8⟩
def mdGFLAGS : MdF := ⟨408, 8⟩
def mdSCRATCH : MdF := ⟨416, 96⟩

/-- A metadata field read. -/
def MdF.get (f : MdF) (md : Nat) : Nat := bits f.lsb f.w md

/-- A metadata field written. -/
def MdF.put (f : MdF) (v md : Nat) : Nat := putBits f.lsb f.w v md

/-- Port copies a metadata field's value. -/
def Copy.len (d : Copy) : Nat := mdLEN.get d.md

/-- Cells of a frame of `n` octets (R257). -/
def cellsOf (n : Nat) : Nat := (n + 255) / 256

/-- Cells of a copy (R237). -/
def Copy.nCells (d : Copy) : Nat := cellsOf d.len

/-! ## Octets -/

/-- Octets a handle bounds (R338). -/
def State.frameBound (s : State) (h : Nat) : Nat :=
  if hPool h = 0 then 256 * ((s.buf h).cells h).length else poolSize (hPool h)

/-- Place of octet `o` of the buffer or chain `h`. -/
def State.framePlace (s : State) (h o : Nat) : Region × Nat :=
  if hPool h = 0 then (.granary, 256 * hIdx (((s.buf h).cells h).getD (o / 256) h) + o % 256)
  else (.cellar, s.cellarAddr (hPool h) (hIdx h) + o)

/-- `n` octets of a frame from octet `o`. -/
def State.frameBytes (s : State) (h o n : Nat) : List Byte :=
  (List.range n).map (fun k => s.byte (s.framePlace h (o + k)).1 (s.framePlace h (o + k)).2)

/-- Octets written into a frame from octet `o`. -/
def State.setFrameBytes (s : State) (h o : Nat) : List Byte → State
  | [] => s
  | b :: t => ((s.setByte (s.framePlace h o).1 (s.framePlace h o).2 b).setFrameBytes h (o + 1) t)

/-- The octets of a copy. -/
def State.copyBytes (s : State) (d : Copy) : List Byte := s.frameBytes d.handle 0 d.len

/-! ## Queue depths -/

/-- Cells in the Granary part of a queue. -/
def granDepth (q : List Copy) : Nat := (q.filter (fun d => !d.cel)).foldl (fun n d => n + d.nCells) 0

/-- Cells in the Cellar part of a queue. -/
def celDepth (q : List Copy) : Nat := (q.filter (fun d => d.cel)).foldl (fun n d => n + d.nCells) 0

/-- Depth of a queue in cells, both parts (R237, R274). -/
def qDepth (q : List Copy) : Nat := granDepth q + celDepth q

/-! ## The spill mover -/

/-- A copy enqueued now on queue k is spilled (R272). -/
def State.spillWanted (s : State) (k : Nat) : Bool :=
  s.on (.pool .CTL_SPILL_EN) 0 && s.rd (.pool .SPILL_THR) k != 0 &&
  (decide (s.rd (.pool .SPILL_THR) k ≤ granDepth (s.queue k)) || (s.queue k).any (fun d => d.cel))

/-- Half of a port: trunk ports 0-31 and spurs 0-3 lie in half A. -/
def portHalf (p : Nat) : Nat := if p < 64 then p / 32 else (p - 64) / 4

/-- Descriptors in the spill queue of a half (R274). -/
def State.spillBacklog (s : State) (half : Nat) : Nat :=
  (s.queues.filter (fun e => portHalf (e.1 / 8) == half)).foldl
    (fun n e => n + (e.2.filter (fun d => d.spill)).length) 0

/-- The first element with a property replaced, or removed where `f` gives none. -/
def updFirst (p : Copy → Bool) (f : Copy → Option Copy) : List Copy → List Copy
  | [] => []
  | d :: t => if p d then (match f d with | some d' => d' :: t | none => t) else d :: updFirst p f t

/-- The copy of queue k that was to be spilled first cannot be: kept in the Granary when the Cellar part is otherwise
empty, else dropped; counted in SPILL_DENY (R274, log entry 22). -/
def State.spillDenied (s : State) (k : Nat) (d : Copy) : State :=
  let s := s.count (.pool .SPILL_DENY) k
  if ((s.queue k).filter (fun e => e.cel)).length ≤ 1 then
    s.setQueue k (updFirst (fun e => e.spill) (fun e => some { e with cel := false, spill := false }) (s.queue k))
  else (s.setQueue k (updFirst (fun e => e.spill) (fun _ => none) (s.queue k))).drop1 d.handle

/-- The mover takes the oldest copy of queue k that waits to be spilled (R272). -/
def State.spill (s : State) (k : Nat) : State :=
  match (s.queue k).find? (fun d => d.spill) with
  | none => s
  | some d =>
    if ¬ d.done then s
    else
      match s.grantFb (s.buf d.handle).owner (if d.len ≤ 2048 then 1 else 2) true with
      | (none, s) => s.spillDenied k d
      | (some h, s) =>
        let s := s.setFrameBytes h 0 (s.copyBytes d)
        let s := s.setBuf h { s.buf h with len := d.len }
        let s := s.setQueue k (updFirst (fun e => e.spill)
          (fun e => some { e with handle := h, md := mdHANDLE.put h e.md, spill := false }) (s.queue k))
        s.drop1 d.handle

/-- SPILL (R272, R274). -/
def execSpill (p : Fin 72) (t : Fin 8) (s : State) : Host.Outcome State Fault Refusal :=
  .next (s.inUnit .PORT p (fun s => s.spill (8 * p + t)))

/-- A chain of `n` cells for owner `o`: all or, on a denial, none. -/
def State.grantChain (s : State) (o : Nat) : Nat → List Nat → Option (List Nat) × State
  | 0, got => (some got, s)
  | n + 1, got =>
    match s.grant o 0 with
    | (some h, s) => s.grantChain o n (got ++ [h])
    | (none, s) => (none, got.foldl (fun s h => s.freeBuf h) s)

/-- Granted cells are joined in a chain that names a frame with count `refs` (R257). -/
def State.joinChain (s : State) (refs pri : Nat) : List Nat → State
  | [] => s
  | h :: t =>
    let s := s.setBuf h { s.buf h with head := h, refs := refs, chain := t, pri := pri }
    t.foldl (fun s c => s.setBuf c { s.buf c with head := h, refs := 0 }) s

/-- The mover refills queue k with the oldest frame of its Cellar part (R273, R275). -/
def State.refill (s : State) (k : Nat) : State :=
  if s.rd (.pool .SPILL_REFILL_THR) k ≤ granDepth (s.queue k) then s
  else
    match (s.queue k).find? (fun d => d.cel) with
    | none => s
    | some d =>
      if d.spill then s
      else if ¬ s.usable (hPool d.handle) (hIdx d.handle) then
        ((s.setQueue k (updFirst (fun e => e.cel) (fun _ => none) (s.queue k))).count (.pool .SPILL_LOST) k).drop1 d.handle
      else
        match s.grantChain (s.buf d.handle).owner d.nCells [] with
        | (none, s) => s.count (.pool .SPILL_REFILL_WAIT) k
        | (some hs, s) =>
          let h := hs.headD 0
          let s := s.joinChain 1 (mdPFC_PRI.get d.md) hs
          let s := s.setFrameBytes h 0 (s.copyBytes d)
          let s := s.setBuf h { s.buf h with len := d.len }
          let s := s.setQueue k (updFirst (fun e => e.cel)
            (fun e => some { e with handle := h, md := mdHANDLE.put h e.md, cel := false }) (s.queue k))
          s.drop1 d.handle

/-- REFILL (R273, R275). -/
def execRefill (p : Fin 72) (t : Fin 8) (s : State) : Host.Outcome State Fault Refusal :=
  .next (s.inUnit .PORT p (fun s => s.refill (8 * p + t)))

end Sys2Proof.Machine
end

