-- ==== Sys2Proof/Machine/Thread.lean ====
section
/-! DEFINITION. The TZ cores: registers of a thread (Table 9.2), issue under a predicate, exceptions and traps
(R297, R298), thread states (Table 9.6), hatches and engine input queues (R304-R307). -/

namespace Sys2Proof.Machine

/-! ## Registers

The registers of a core are held by number: g0-g31 at 0, v0-v31 at 32, p0-p7 at 64, t0-t3 at 72, then TSCR, the level, PPRV
and INSTRET, the last lookup results, the wait in progress, and for the Reeve the trap registers that an engine keeps in
its register block. -/

/-- Number of a core in `State.treg`. -/
def coreNo : Core → Nat
  | .eng e t => 8 * e.val + t.val
  | .reeve => 128
  | .wgh => 321
  | .cell c eg => 129 + 2 * c.val + eg.toNat

def rTSCR : Nat := 76
def rLEVEL : Nat := 77
def rPPRV : Nat := 78
def rINSTRET : Nat := 79
def rLK (k : Nat) : Nat := 80 + 3 * k
def rWAIT : Nat := 90
def rDEADLINE : Nat := 91
def rWD : Nat := 92
def rWP : Nat := 93
def rWMASK : Nat := 94
def rWADDR : Nat := 95
def rASYNC : Nat := 96
def rPCHI : Nat := 97
def rCAUSE : Nat := 100
def rINTRAP : Nat := 101
def rEPC : Nat := 102
def rVAL : Nat := 103
def rHIPRI : Nat := 104
def rPC : Nat := 105
def rSTATE : Nat := 106
def rTVEC : Nat := 107

/-- g[n] of a core; g0 reads 0 (R284). -/
def State.g (s : State) (c : Core) (n : Nat) : Nat := if n = 0 then 0 else s.tr (coreNo c) n
/-- g[n] written; writes to g0 are discarded. -/
def State.setG (s : State) (c : Core) (n v : Nat) : State := if n = 0 then s else s.setTr (coreNo c) n (trunc 64 v)
/-- p[n]; p0 reads all ones (R284). -/
def State.p (s : State) (c : Core) (n : Nat) : Nat := if n = 0 then 2 ^ 64 - 1 else s.tr (coreNo c) (64 + n)
/-- p[n] written; writes to p0 are discarded. -/
def State.setP (s : State) (c : Core) (n v : Nat) : State := if n = 0 then s else s.setTr (coreNo c) (64 + n) (trunc 64 v)
/-- t[n]. -/
def State.t (s : State) (c : Core) (n : Nat) : Nat := s.tr (coreNo c) (72 + n)
/-- t[n] written. -/
def State.setT (s : State) (c : Core) (n v : Nat) : State := s.setTr (coreNo c) (72 + n) (trunc 96 v)
/-- v[n]. -/
def State.v (s : State) (c : Core) (n : Nat) : Nat := s.tr (coreNo c) (32 + n)
/-- v[n] written. -/
def State.setV (s : State) (c : Core) (n v : Nat) : State := s.setTr (coreNo c) (32 + n) (trunc 512 v)

/-- All ones (chapter 10, notation). -/
def ones64 : Nat := 2 ^ 64 - 1

/-- Instance of a thread's registers. -/
def thrIdx (e t : Nat) : Nat := 8 * e + t

/-- pc of a core: TPC, with the upper bits of a branch target beyond 48 bits (R328). -/
def State.pc (s : State) : Core → Nat
  | .eng e t => s.rd (.eng .THR_TPC_PC) (thrIdx e t) + 2 ^ 48 * s.tr (thrIdx e t) rPCHI
  | .reeve => s.tr 128 rPC
  | .wgh => s.tr 321 rPC
  | .cell .. => 0

/-- pc of a core set. -/
def State.setPc (s : State) (c : Core) (v : Nat) : State :=
  match c with
  | .eng e t => (s.wr (.eng .THR_TPC_PC) (thrIdx e t) v).setTr (thrIdx e t) rPCHI (bits 48 16 v)
  | .reeve => s.setTr 128 rPC (trunc 64 v)
  | .wgh => s.setTr 321 rPC (trunc 64 v)
  | .cell .. => s

/-- Thread states of Table 9.6. -/
def tIDLE : Nat := 0
def tRUNNING : Nat := 1
def tWAITING : Nat := 2
def tSTOPPED : Nat := 3
def tHALTED : Nat := 4

/-- State of thread t of engine e. -/
def State.tstate (s : State) (e t : Nat) : Nat := s.rd (.eng .THR_TCTL_STATE) (thrIdx e t)

/-- State of a thread set, in TCTL and ENG_STATUS. -/
def State.setTstate (s : State) (e t v : Nat) : State :=
  (s.wr (.eng .THR_TCTL_STATE) (thrIdx e t) v).wr (.eng .STATUS_TSTATE) e
    (putBits (3 * t) 3 v (s.rd (.eng .STATUS_TSTATE) e))

/-- State of the thread of a core. -/
def State.cst (s : State) : Core → Nat
  | .eng e t => s.tstate e t
  | .reeve => s.tr 128 rSTATE
  | .wgh => s.tr 321 rSTATE
  | .cell .. => 1

/-- State of the thread of a core set. -/
def State.setCst (s : State) (c : Core) (v : Nat) : State :=
  match c with
  | .eng e t => s.setTstate e t v
  | .reeve => s.setTr 128 rSTATE v
  | .wgh =>
    let s := s.setTr 321 rSTATE v
    if v = tHALTED then s.wr (.wgh .STATUS_STATE) 0 3 else s
  | .cell .. => s

/-- The core runs at P: an engine thread by its level, the Reeve always (R287, R449); the Weighhouse core's level S grants
what P does (R420). -/
def State.privP (s : State) : Core → Bool
  | .eng e t => s.tr (thrIdx e t) rLEVEL == 1
  | .reeve | .wgh => true
  | .cell .. => false

/-- TVEC of a core. -/
def State.tvec (s : State) : Core → Nat
  | .eng e _ => s.rd (.eng .TVEC) e
  | .reeve => s.tr 128 rTVEC
  | .wgh => s.tr 321 rTVEC
  | .cell .. => 0

/-- INTRAP of a core. -/
def State.intrap (s : State) : Core → Bool
  | .eng e t => s.on (.eng .THR_TCAUSE_INTRAP) (thrIdx e t)
  | .reeve => s.tr 128 rINTRAP == 1
  | .wgh => s.tr 321 rINTRAP == 1
  | .cell .. => false

/-- INTRAP of a core set. -/
def State.setIntrap (s : State) (c : Core) (v : Nat) : State :=
  match c with
  | .eng e t => s.wr (.eng .THR_TCAUSE_INTRAP) (thrIdx e t) v
  | .reeve => s.setTr 128 rINTRAP v
  | .wgh => s.setTr 321 rINTRAP v
  | .cell .. => s

/-- TCAUSE, TEPC and TVAL of a core recorded (R298). -/
def State.recordTrap (s : State) (c : Core) (cause epc val : Nat) : State :=
  match c with
  | .eng e t =>
    let i := thrIdx e t
    ((s.wr (.eng .THR_TCAUSE_CAUSE) i cause).wr (.eng .THR_TEPC_EPC) i epc).wr (.eng .THR_TVAL_VAL) i val
  | .reeve => ((s.setTr 128 rCAUSE cause).setTr 128 rEPC (trunc 48 epc)).setTr 128 rVAL (trunc 64 val)
  | .wgh => ((s.setTr 321 rCAUSE cause).setTr 321 rEPC (trunc 48 epc)).setTr 321 rVAL (trunc 64 val)
  | .cell .. => s

/-! ## Exception causes (Table 9.5) -/

def cILLEGAL : Nat := 1
def cPRIV : Nat := 2
def cFETCH : Nat := 3
def cMISALIGN : Nat := 4
def cLOAD : Nat := 5
def cSTORE : Nat := 6
def cPROT : Nat := 7
def cDATA_UE : Nat := 8
def cASYNC : Nat := 9
def cTRAP : Nat := 10
def cBKPT : Nat := 11
def cFETCH_UE : Nat := 12
def cUNUSABLE : Nat := 13

/-- TAKING AN EXCEPTION (R298): with INTRAP = 0 and TVEC ≠ 0 the trap entry, else the thread is HALTED and, on an engine,
ENG.THREAD_FAULT is raised. -/
def State.trap (s : State) (c : Core) (cause val : Nat) : State :=
  let epc := s.pc c
  let handled := !s.intrap c && s.tvec c != 0
  let lvl := (s.privP c).toNat
  let s := s.recordTrap c cause epc val
  if handled then
    let s := s.setTr (coreNo c) rPPRV lvl
    let s := s.setIntrap c 1
    let s := s.setTr (coreNo c) rLEVEL 1
    s.setPc c (s.tvec c)
  else
    let s := s.setCst c tHALTED
    match c with
    | .eng e t => s.raise .ENG_THREAD_FAULT (locEngine e) t.val
    | _ => s

/-- TEPC of a core. -/
def State.epc (s : State) : Core → Nat
  | .eng e t => s.rd (.eng .THR_TEPC_EPC) (thrIdx e t)
  | .reeve => s.tr 128 rEPC
  | .wgh => s.tr 321 rEPC
  | .cell .. => 0

/-- RETURN FROM A TRAP (R298): the level of PPRV, INTRAP 0; the thread continues at TEPC. -/
def State.tretBody (s : State) (c : Core) : Sig × State :=
  (.jump (s.epc c), (s.setTr (coreNo c) rLEVEL (s.tr (coreNo c) rPPRV)).setIntrap c 0)

/-! ## Issue -/

/-- Number of the pair of a stage cell: 12 cells each (R217). -/
def cellPair (c : Nat) : Nat := c / 12

/-- A condition of R315 or R309 in a stage cell is counted in PROG_FAULT of its pair. -/
def State.progFault (s : State) (c : Core) : State :=
  match c with
  | .cell c _ => s.count (.core .PAIR_CNT_PROG_FAULT) (cellPair c)
  | _ => s

/-- The core can issue: the engine works and the thread is RUNNING; the Reeve runs; the stage cell's domain is on. -/
def State.canIssue (s : State) (c : Core) : Bool :=
  match c with
  | .eng e _ => s.up .ENG e && s.cst c == tRUNNING
  | .reeve => s.domOn .reeve && s.cst c == tRUNNING
  | .wgh => s.domOn .weigh && s.cst c == tRUNNING
  | .cell .. => s.domOn .core

/-- The fetch at pc is allowed: the own Pantry, at U a page with U_X; for the Reeve its SRAM or ROM (R290, R293, R450). No
rule limits the Weighhouse core's own memory. -/
def State.fetchOk (s : State) (c : Core) : Bool :=
  match c with
  | .eng e _ => s.pc c < 0x400000 && !s.on (.eng .CTL_WIPING) e &&
      (s.privP c || s.on (.eng .PATTR_U_X) (1024 * e + s.pc c / 4096))
  | .wgh => true
  | .reeve => s.pc c < 0x200000 || (0x8000000000 ≤ s.pc c && s.pc c < 0x8000010000)
  | .cell .. => true

/-- An instruction's end on a core: the next pc and the retired count, a wait, a trap, the thread IDLE (R285, R297, Table
9.6). In a stage cell an exception is only counted (R315). -/
def State.finish (old : State) (c : Core) (r : Sig × State) : State :=
  let retired := fun (s : State) => match c with
    | .cell .. => s
    | _ => s.setTr (coreNo c) rINSTRET (trunc 64 (s.tr (coreNo c) rINSTRET + 1))
  match r.1 with
  | .next => retired (r.2.setPc c (old.pc c + 4))
  | .jump a => retired (r.2.setPc c a)
  | .wait => r.2.setCst c tWAITING
  | .halt => retired ((r.2.setPc c (old.pc c + 4)).setCst c tIDLE)
  | .exc cause v => match c with
    | .cell .. => r.2.progFault c
    | _ => r.2.trap c cause v

/-- What comes before an instruction on a core: an ASYNC that waits (R299), the fetch checks (Table 9.5). -/
def State.preTrap (s : State) (x : Issue) : Option State :=
  match x.core with
  | .cell .. => none
  | c =>
    if s.tr (coreNo c) rASYNC ≠ 0 then
      some ((s.setTr (coreNo c) rASYNC 0).trap c cASYNC (s.tr (coreNo c) rASYNC - 1))
    else if ¬ s.fetchOk c then some (s.trap c cFETCH (s.pc c))
    else if x.fetchUe then some (s.trap c cFETCH_UE (s.pc c))
    else none

/-- Issue of an instruction with word `w` under predicate register `k` (0 always): body `f` runs when the core can issue,
nothing traps before it, the predicate is 1 (R285), its fields are legal and its group exists on the core (R311, R355). -/
def State.issue (s : State) (x : Issue) (k w : Nat) (legal : Bool) (f : State → Sig × State) : State :=
  if ¬ s.canIssue x.core then s
  else match s.preTrap x with
    | some s => s
    | none =>
      if s.p x.core k % 2 = 0 then s.finish x.core (.next, s)
      else if ¬ legal then s.finish x.core (.exc cILLEGAL w, s)
      else s.finish x.core (f s)

/-! ## Instruction words (Table 9.8) -/

def encR (op f : Nat) (i : RIns) : Nat :=
  f * 2 ^ 25 + i.b.val * 2 ^ 20 + i.pred.val * 2 ^ 17 + i.a.val * 2 ^ 12 + i.d.val * 2 ^ 7 + op

def encI (op : Nat) (i : IIns) : Nat :=
  i.imm.toNat * 2 ^ 20 + i.pred.val * 2 ^ 17 + i.a.val * 2 ^ 12 + i.d.val * 2 ^ 7 + op

def encJ (op : Nat) (i : JIns) : Nat := i.imm.toNat * 2 ^ 12 + i.d.val * 2 ^ 7 + op

def encV (op f : Nat) (i : VIns) : Nat :=
  f * 2 ^ 28 + i.ty.val * 2 ^ 25 + i.vb.val * 2 ^ 20 + i.pm.val * 2 ^ 17 + i.va.val * 2 ^ 12 + i.vd.val * 2 ^ 7 + op

/-- A general register number is legal on the core: 0-15 in a stage cell (R312). -/
def gOk (c : Core) (n : Nat) : Bool :=
  match c with | .cell .. => n < 16 | _ => true

/-- A predicate register number is legal. -/
def pOk (n : Nat) : Bool := n < 8

/-- A time register number is legal: 0-3, 0-1 in a stage cell (R346). -/
def tNumOk (c : Core) (n : Nat) : Bool :=
  match c with | .cell .. => n < 2 | _ => n < 4

/-- The core is an engine thread. -/
def isEng : Core → Bool
  | .eng .. => true | _ => false

/-- The core runs a thread: an engine's, the Reeve's or the Weighhouse's. -/
def isTz : Core → Bool
  | .cell .. => false | _ => true

/-- The core is a stage cell. -/
def isCell : Core → Bool
  | .cell .. => true | _ => false

/-! ## Thread control (Table 9.6) -/

/-- Life-cycle state codes (REE_LC, Table 14.9). -/
def State.lc (s : State) : Nat := s.rd (.ree .LC_STATE) 0

end Sys2Proof.Machine
end

