-- ==== Sys2Proof/Machine/Lookup.lean ====
section
/-! DEFINITION. The lookup store (R225-R228): tables, entries, lookups and the commands of Table 7.2. -/

namespace Sys2Proof.Machine

/-- Kind of a table: 0 off, 1 exact match, 2 ternary (Table 7.8). -/
def State.tblKind (s : State) (t : Nat) : Nat := s.rd (.core .TBL_KIND) t

/-- Octets of an entry of an exact-match table (R226). -/
def State.exactEntry (s : State) (t : Nat) : Nat :=
  (s.rd (.core .TBL_KEY_BITS) t + s.rd (.core .TBL_DATA_BITS) t + 16 + 127) / 128 * 16

/-- Entries of a ternary table in one row (R227). -/
def ternPerRow (keyBits : Nat) : Nat := if keyBits ≤ 160 then 4 else if keyBits ≤ 320 then 2 else 1

/-- Capacity of a table in entries. -/
def State.tblCap (s : State) (t : Nat) : Nat :=
  if s.tblKind t = 1 then s.rd (.core .TBL_SIZE) t * 65536 / s.exactEntry t
  else s.rd (.core .TBL_SIZE) t * 512 * ternPerRow (s.rd (.core .TBL_KEY_BITS) t)

/-- Bits of data an entry of the table holds (R226, R227). -/
def State.tblDataBits (s : State) (t : Nat) : Nat :=
  if s.tblKind t = 1 then s.rd (.core .TBL_DATA_BITS) t else 256 / ternPerRow (s.rd (.core .TBL_KEY_BITS) t)

/-- The valid entries of a table, by index. -/
def State.entries (s : State) (t : Nat) : List (Nat × LkEntry) :=
  (s.lkp.filter (fun e => e.1.1 == t && e.2.valid)).map (fun e => (e.1.2, e.2))

/-- Valid entries of a table (LKP_TBL.COUNT). -/
def State.tblCount (s : State) (t : Nat) : Nat := (s.entries t).length

/-- The entry of an exact-match table that holds a key. -/
def State.findKey (s : State) (t key : Nat) : Option (Nat × LkEntry) := (s.entries t).find? (fun e => e.2.key == key)

/-! ## Lookups -/

/-- A lookup by kind (0 exact match, 1 ternary) in bank `b`: the entry that matches, with VIS bit `b` set; of several
ternary ones the lowest index (R226-R228). -/
def State.lookFind (s : State) (t kind b key : Nat) : Option (Nat × LkEntry) :=
  if kind = 0 then (s.entries t).find? (fun e => bit b e.2.vis && e.2.key == key)
  else (s.entries t).find? (fun e => bit b e.2.vis && ((key ^^^ e.2.key) &&& e.2.mask) == 0)

/-- A lookup: its result, and the HIT bit of the entry it matches (R228). A table that is off, or of the other kind, gives a
miss. -/
def State.look (s : State) (t kind b key : Nat) : LkRes × State :=
  if s.tblKind t ≠ kind + 1 then (⟨false, 0⟩, s)
  else match s.lookFind t kind b (trunc (s.rd (.core .TBL_KEY_BITS) t) key) with
    | none => (⟨false, 0⟩, s)
    | some (i, e) => (⟨true, e.data⟩, s.setEntry t i { e with hit := true })

/-! ## Commands (Table 7.2) -/

/-- A command's operands. -/
structure LkCmd where
  tbl : Nat
  key : Nat
  mask : Nat
  data : Nat
  index : Nat
  vis : Nat
  deriving DecidableEq, Repr

/-- A command's result: CODE, and what READ and CLEAR_HIT return. -/
structure LkOut where
  code : Nat
  hit : Bool := false
  index : Nat := 0
  ent : Option LkEntry := none
  deriving DecidableEq, Repr

def lkOK : Nat := 0
def lkEXISTS : Nat := 1
def lkFULL : Nat := 2
def lkABSENT : Nat := 3
def lkBADINDEX : Nat := 4
def lkBADTABLE : Nat := 5

/-- The four candidate slots of a key (R226). -/
def State.slots (s : State) (t key : Nat) : List Nat :=
  (List.range 4).map (fun k => Config.lkHash k key % s.tblCap t)

/-- Placing an entry: a free candidate slot, else the occupant of a candidate the manual does not name (a free value) gives
way and is placed in turn, at most `fuel` times. `none` when no slot is found. -/
def State.place (s : State) (t : Nat) (e : LkEntry) : Nat → Option State
  | 0 => match (s.slots t e.key).find? (fun i => !(s.entry t i).valid) with
    | some i => some (s.setEntry t i e)
    | none => none
  | fuel + 1 => match (s.slots t e.key).find? (fun i => !(s.entry t i).valid) with
    | some i => some (s.setEntry t i e)
    | none =>
      let i := (s.slots t e.key).getD (s.freeVal 2) 0
      let out := s.entry t i
      (s.nextFree.setEntry t i e).place t out fuel

/-- INSERT (R226): EXISTS leaves the entry; FULL leaves the table and raises CORE.LKP_FULL. -/
def State.lkInsert (s : State) (c : LkCmd) : LkOut × State :=
  if s.tblKind c.tbl ≠ 1 then ({ code := lkBADTABLE }, s)
  else
    let key := trunc (s.rd (.core .TBL_KEY_BITS) c.tbl) c.key
    match s.findKey c.tbl key with
    | some (i, _) => ({ code := lkEXISTS, index := i }, s)
    | none =>
      let e : LkEntry := { valid := true, key := key, data := trunc (s.tblDataBits c.tbl) c.data, vis := c.vis }
      match if s.tblCap c.tbl = 0 then none else s.place c.tbl e 64 with
      | some s' => ({ code := lkOK, index := ((s'.findKey c.tbl key).getD (0, {})).1 }, s')
      | none => ({ code := lkFULL }, s.raise .CORE_LKP_FULL locLookup 0)

/-- DELETE (Table 7.2). -/
def State.lkDelete (s : State) (c : LkCmd) : LkOut × State :=
  if s.tblKind c.tbl ≠ 1 then ({ code := lkBADTABLE }, s)
  else match s.findKey c.tbl (trunc (s.rd (.core .TBL_KEY_BITS) c.tbl) c.key) with
    | some (i, _) => ({ code := lkOK, index := i }, s.setEntry c.tbl i {})
    | none => ({ code := lkABSENT }, s)

/-- MODIFY (Table 7.2). -/
def State.lkModify (s : State) (c : LkCmd) : LkOut × State :=
  if s.tblKind c.tbl ≠ 1 then ({ code := lkBADTABLE }, s)
  else match s.findKey c.tbl (trunc (s.rd (.core .TBL_KEY_BITS) c.tbl) c.key) with
    | some (i, e) => ({ code := lkOK, index := i },
        s.setEntry c.tbl i { e with data := trunc (s.tblDataBits c.tbl) c.data, vis := c.vis })
    | none => ({ code := lkABSENT }, s)

/-- READ_KEY (Table 7.2). -/
def State.lkReadKey (s : State) (c : LkCmd) : LkOut × State :=
  if s.tblKind c.tbl ≠ 1 then ({ code := lkBADTABLE }, s)
  else match s.findKey c.tbl (trunc (s.rd (.core .TBL_KEY_BITS) c.tbl) c.key) with
    | some (i, e) => ({ code := lkOK, hit := e.hit, index := i, ent := some e }, s)
    | none => ({ code := lkABSENT }, s)

/-- READ_INDEX (Table 7.2), of either kind. -/
def State.lkReadIndex (s : State) (c : LkCmd) : LkOut × State :=
  if s.tblKind c.tbl = 0 then ({ code := lkBADTABLE }, s)
  else if s.tblCap c.tbl ≤ c.index then ({ code := lkBADINDEX, index := c.index }, s)
  else
    let e := s.entry c.tbl c.index
    ({ code := lkOK, hit := e.hit, index := c.index, ent := some e }, s)

/-- WRITE_INDEX (R227, Table 7.2), ternary only. -/
def State.lkWriteIndex (s : State) (c : LkCmd) : LkOut × State :=
  if s.tblKind c.tbl ≠ 2 then ({ code := lkBADTABLE }, s)
  else if s.tblCap c.tbl ≤ c.index then ({ code := lkBADINDEX, index := c.index }, s)
  else
    let kb := s.rd (.core .TBL_KEY_BITS) c.tbl
    ({ code := lkOK, index := c.index }, s.setEntry c.tbl c.index
      { valid := true, key := trunc kb c.key, mask := trunc kb c.mask, data := trunc (s.tblDataBits c.tbl) c.data, vis := c.vis })

/-- CLEAR_HIT (Table 7.2). -/
def State.lkClearHit (s : State) (c : LkCmd) : LkOut × State :=
  if s.tblKind c.tbl = 0 then ({ code := lkBADTABLE }, s)
  else if s.tblCap c.tbl ≤ c.index then ({ code := lkBADINDEX, index := c.index }, s)
  else
    let e := s.entry c.tbl c.index
    ({ code := lkOK, hit := e.hit, index := c.index }, s.setEntry c.tbl c.index { e with hit := false })

/-- NOP: no effect, OK; a table that is off is BAD_TABLE (Table 7.2). -/
def State.lkNop (s : State) (c : LkCmd) : LkOut × State :=
  ({ code := if s.tblKind c.tbl = 0 then lkBADTABLE else lkOK, index := c.index }, s)

/-- The command of OP `op` (Table 7.2). -/
def State.lkRun (s : State) (op : Nat) (c : LkCmd) : LkOut × State :=
  if op = 0 then s.lkNop c else if op = 1 then s.lkInsert c else if op = 2 then s.lkDelete c
  else if op = 3 then s.lkModify c else if op = 4 then s.lkReadKey c else if op = 5 then s.lkReadIndex c
  else if op = 6 then s.lkWriteIndex c else s.lkClearHit c

/-! ## The command interfaces (Table 7.9) -/

/-- Operands from the registers of interface `i` (0 host, 1 Reeve). -/
def State.ifCmd (s : State) (i tbl vis : Nat) : LkCmd :=
  { tbl := tbl, key := s.rd (.core .LKP_KEY) i, mask := s.rd (.core .LKP_MASK) i, data := s.rd (.core .LKP_DATA) i,
    index := s.rd (.core .LKP_INDEX) i, vis := vis }

/-- What READ_KEY and READ_INDEX return (OP 4 and 5): DATA, VIS, INDEX, and the whole entry. -/
def State.ifReturn (s : State) (i op : Nat) (o : LkOut) : State :=
  match o.ent with
  | none => s
  | some e =>
    let s := ((s.wr (.core .LKP_DATA) i e.data).wr (.core .LKP_VIS) i e.vis).wr (.core .LKP_INDEX) i o.index
    if op = 5 then (s.wr (.core .LKP_KEY) i e.key).wr (.core .LKP_MASK) i e.mask else s

/-- LKP_CMD is written with GO = 1 and OP `op`: the fields are taken and the command runs to its end (R228). -/
def State.lkGo (s : State) (i op tbl vis : Nat) : State :=
  let s := ((s.wr (.core .LKP_OP) i op).wr (.core .LKP_TBL) i tbl).wr (.core .LKP_VIS) i vis
  let s := if i = 0 then s.setH .snapStale 0 1 else s
  let (o, s) := s.lkRun op (s.ifCmd i tbl vis)
  let s := (s.wr (.core .LKP_STATUS_CODE) i o.code).wr (.core .LKP_STATUS_HIT) i o.hit.toNat
  s.ifReturn i op o

/-- LKP_NOP (R225). -/
def execLkpNop (r : Req) (i : Fin 2) (tbl : Fin 64) (vis : Fin 4) (s : State) : Host.Outcome State Fault Refusal :=
  .next (s.writeTo r .LKPCMD i (fun s => s.lkGo i 0 tbl vis))
/-- LKP_INSERT (R226). -/
def execLkpInsert (r : Req) (i : Fin 2) (tbl : Fin 64) (vis : Fin 4) (s : State) : Host.Outcome State Fault Refusal :=
  .next (s.writeTo r .LKPCMD i (fun s => s.lkGo i 1 tbl vis))
/-- LKP_DELETE (R228). -/
def execLkpDelete (r : Req) (i : Fin 2) (tbl : Fin 64) (vis : Fin 4) (s : State) : Host.Outcome State Fault Refusal :=
  .next (s.writeTo r .LKPCMD i (fun s => s.lkGo i 2 tbl vis))
/-- LKP_MODIFY (R228). -/
def execLkpModify (r : Req) (i : Fin 2) (tbl : Fin 64) (vis : Fin 4) (s : State) : Host.Outcome State Fault Refusal :=
  .next (s.writeTo r .LKPCMD i (fun s => s.lkGo i 3 tbl vis))
/-- LKP_READ_KEY (R228). -/
def execLkpReadKey (r : Req) (i : Fin 2) (tbl : Fin 64) (vis : Fin 4) (s : State) : Host.Outcome State Fault Refusal :=
  .next (s.writeTo r .LKPCMD i (fun s => s.lkGo i 4 tbl vis))
/-- LKP_READ_INDEX (R228). -/
def execLkpReadIndex (r : Req) (i : Fin 2) (tbl : Fin 64) (vis : Fin 4) (s : State) : Host.Outcome State Fault Refusal :=
  .next (s.writeTo r .LKPCMD i (fun s => s.lkGo i 5 tbl vis))
/-- LKP_WRITE_INDEX (R227). -/
def execLkpWriteIndex (r : Req) (i : Fin 2) (tbl : Fin 64) (vis : Fin 4) (s : State) : Host.Outcome State Fault Refusal :=
  .next (s.writeTo r .LKPCMD i (fun s => s.lkGo i 6 tbl vis))
/-- LKP_CLEAR_HIT (R228). -/
def execLkpClearHit (r : Req) (i : Fin 2) (tbl : Fin 64) (vis : Fin 4) (s : State) : Host.Outcome State Fault Refusal :=
  .next (s.writeTo r .LKPCMD i (fun s => s.lkGo i 7 tbl vis))

/-! ## Table descriptors (Table 7.8) -/

/-- CORE_CFG_REFUSED is set; the manual places it in no register (log entry 27). -/
def State.coreRefused (s : State) : State := s.setH .coreCfgRefused 0 1

/-- A table's pages or blocks lie in the store and apart from every other table of its kind (Table 7.8, log entry 28). -/
def State.tblFits (s : State) (t kind : Nat) : Bool :=
  let b := s.rd (.core .TBL_BASE) t
  let n := s.rd (.core .TBL_SIZE) t
  b + n ≤ (if kind = 1 then 768 else 64) &&
  (List.range 64).all (fun u => u == t || s.tblKind u != kind ||
    decide (b + n ≤ s.rd (.core .TBL_BASE) u ∨ s.rd (.core .TBL_BASE) u + s.rd (.core .TBL_SIZE) u ≤ b))

/-- Word 0 of a table descriptor is written: KIND, STAGE, KEY_BITS, DATA_BITS (Table 7.8). -/
def State.tblWrite0 (s : State) (t w : Nat) : State :=
  let kind := bits 0 2 w
  let stage := bits 2 3 w
  let kb := bits 5 10 w
  let db := bits 15 9 w
  let fieldsOk := 2 ≤ stage && db ≤ 256 &&
    (if kind = 1 then 16 ≤ kb && kb ≤ 512 else if kind = 2 then 1 ≤ kb && kb ≤ 640 else true)
  let put := fun (s : State) => (((s.wr (.core .TBL_KIND) t kind).wr (.core .TBL_STAGE) t stage).wr (.core .TBL_KEY_BITS) t kb).wr
    (.core .TBL_DATA_BITS) t db
  if kind = 0 then
    let s := { s with lkp := s.lkp.filter (fun e => e.1.1 != t) }
    if fieldsOk then put s else (s.wr (.core .TBL_KIND) t 0).coreRefused
  else if s.tblKind t ≠ 0 ∨ kind = 3 ∨ ¬ fieldsOk ∨ ¬ s.tblFits t kind then s.coreRefused
  else put s

/-- Word 1 of a table descriptor is written: BASE, SIZE; refused while the table is on (Table 7.8). -/
def State.tblWrite1 (s : State) (t w : Nat) : State :=
  if s.tblKind t ≠ 0 ∨ 768 ≤ bits 0 16 w then s.coreRefused
  else (s.wr (.core .TBL_BASE) t (bits 0 16 w)).wr (.core .TBL_SIZE) t (bits 16 16 w)

/-- LKP_TBL_WRITE (R225): word 0 or word 1 of table `t`. -/
def execLkpTblWrite (r : Req) (t : Fin 64) (word1 : Bool) (w : BitVec 32) (s : State) : Host.Outcome State Fault Refusal :=
  .next (s.writeTo r .LKPTBL t (fun s => if word1 then s.tblWrite1 t w.toNat else s.tblWrite0 t w.toNat))

end Sys2Proof.Machine
end

