-- ==== Sys2Proof/Machine/TzScalar.lean ====
section
/-! DEFINITION. TZ scalar instructions without memory: integer, immediate, compare, predicate, bit-field, branch, time and
system groups (R325-R329, R346-R348, R353). -/

namespace Sys2Proof.Machine

/-! ## Integer (R325, R326) -/

/-- 64-bit signed value. -/
def s64 (n : Nat) : Int := toS 64 n
/-- 64-bit two's complement. -/
def u64 (i : Int) : Nat := ofS 64 i

/-- The operation of function code `f` of major 0x00 (Table 10.1). -/
def aluOp (f a b : Nat) : Nat :=
  if f = 0x00 then a + b
  else if f = 0x01 then u64 ((a : Int) - b)
  else if f = 0x02 then a &&& b
  else if f = 0x03 then a ||| b
  else if f = 0x04 then a ^^^ b
  else if f = 0x05 then a * 2 ^ (b % 64)
  else if f = 0x06 then a / 2 ^ (b % 64)
  else if f = 0x07 then u64 (s64 a / (2 ^ (b % 64) : Nat))
  else if f = 0x08 then a * b
  else if f = 0x09 then u64 (s64 a * s64 b / (2 ^ 64 : Nat))
  else if f = 0x0A then if b = 0 then ones64 else u64 ((s64 a).tdiv (s64 b))
  else if f = 0x0B then if b = 0 then a else u64 ((s64 a).tmod (s64 b))
  else if f = 0x0C then if s64 a ≤ s64 b then a else b
  else if f = 0x0D then if s64 a ≤ s64 b then b else a
  else if f = 0x0E then min a b
  else max a b

/-- Major 0x00: function codes 9-11 are not in TZ-S (Table 10.1). -/
def State.tzAlu (x : Issue) (f : Nat) (i : RIns) (s : State) : State :=
  s.issue x i.pred (encR 0x00 f i)
    (gOk x.core i.d && gOk x.core i.a && gOk x.core i.b && (isTz x.core || f < 9 || 11 < f))
    (fun s => (.next, s.setG x.core i.d (aluOp f (s.g x.core i.a) (s.g x.core i.b))))

/-- ADD (R325). -/
def execAdd (x : Issue) (i : RIns) (s : State) : Host.Outcome State Fault Refusal := .next (s.tzAlu x 0x00 i)
/-- SUB (R325). -/
def execSub (x : Issue) (i : RIns) (s : State) : Host.Outcome State Fault Refusal := .next (s.tzAlu x 0x01 i)
/-- AND (R325). -/
def execTzAnd (x : Issue) (i : RIns) (s : State) : Host.Outcome State Fault Refusal := .next (s.tzAlu x 0x02 i)
/-- OR (R325). -/
def execOr (x : Issue) (i : RIns) (s : State) : Host.Outcome State Fault Refusal := .next (s.tzAlu x 0x03 i)
/-- XOR (R325). -/
def execXor (x : Issue) (i : RIns) (s : State) : Host.Outcome State Fault Refusal := .next (s.tzAlu x 0x04 i)
/-- SHL (R325). -/
def execShl (x : Issue) (i : RIns) (s : State) : Host.Outcome State Fault Refusal := .next (s.tzAlu x 0x05 i)
/-- SHR (R325). -/
def execShr (x : Issue) (i : RIns) (s : State) : Host.Outcome State Fault Refusal := .next (s.tzAlu x 0x06 i)
/-- SAR (R325). -/
def execSar (x : Issue) (i : RIns) (s : State) : Host.Outcome State Fault Refusal := .next (s.tzAlu x 0x07 i)
/-- MUL (R325). -/
def execMul (x : Issue) (i : RIns) (s : State) : Host.Outcome State Fault Refusal := .next (s.tzAlu x 0x08 i)
/-- MULH (R325). -/
def execMulh (x : Issue) (i : RIns) (s : State) : Host.Outcome State Fault Refusal := .next (s.tzAlu x 0x09 i)
/-- DIV (R326). -/
def execDiv (x : Issue) (i : RIns) (s : State) : Host.Outcome State Fault Refusal := .next (s.tzAlu x 0x0A i)
/-- REM (R326). -/
def execRem (x : Issue) (i : RIns) (s : State) : Host.Outcome State Fault Refusal := .next (s.tzAlu x 0x0B i)
/-- MIN (R325). -/
def execMin (x : Issue) (i : RIns) (s : State) : Host.Outcome State Fault Refusal := .next (s.tzAlu x 0x0C i)
/-- MAX (R325). -/
def execMax (x : Issue) (i : RIns) (s : State) : Host.Outcome State Fault Refusal := .next (s.tzAlu x 0x0D i)
/-- MINU (R325). -/
def execMinu (x : Issue) (i : RIns) (s : State) : Host.Outcome State Fault Refusal := .next (s.tzAlu x 0x0E i)
/-- MAXU (R325). -/
def execMaxu (x : Issue) (i : RIns) (s : State) : Host.Outcome State Fault Refusal := .next (s.tzAlu x 0x0F i)

/-! ## Immediate, compare, predicate and bit-field (Table 10.2) -/

/-- A 12-bit immediate sign-extended to 64 bits. -/
def sext12 (i : BitVec 12) : Nat := u64 (toS 12 i.toNat)

/-- Majors 0x01-0x04. -/
def State.tzAluI (x : Issue) (op : Nat) (i : IIns) (s : State) : State :=
  s.issue x i.pred (encI op i) (gOk x.core i.d && gOk x.core i.a)
    (fun s =>
      let a := s.g x.core i.a
      let m := sext12 i.imm
      (.next, s.setG x.core i.d (if op = 1 then a + m else if op = 2 then a &&& m else if op = 3 then a ||| m else a ^^^ m)))

/-- ADDI (R327). -/
def execAddi (x : Issue) (i : IIns) (s : State) : Host.Outcome State Fault Refusal := .next (s.tzAluI x 0x01 i)
/-- ANDI (R327). -/
def execAndi (x : Issue) (i : IIns) (s : State) : Host.Outcome State Fault Refusal := .next (s.tzAluI x 0x02 i)
/-- ORI (R327). -/
def execOri (x : Issue) (i : IIns) (s : State) : Host.Outcome State Fault Refusal := .next (s.tzAluI x 0x03 i)
/-- XORI (R327). -/
def execXori (x : Issue) (i : IIns) (s : State) : Host.Outcome State Fault Refusal := .next (s.tzAluI x 0x04 i)

/-- An I-format word with bits of its immediate replaced: the selector of an instruction that keeps it there. -/
def IIns.sel (i : IIns) (lsb w v : Nat) : IIns := { i with imm := BitVec.ofNat 12 (putBits lsb w v i.imm.toNat) }

/-- Major 0x05: imm[7:6] = `k` selects the shift, imm[5:0] is n, imm[11:8] must be 0. -/
def State.tzShiftI (x : Issue) (k : Nat) (i : IIns) (s : State) : State :=
  s.issue x i.pred (encI 0x05 (IIns.sel i 6 2 k))
    (gOk x.core i.d && gOk x.core i.a && bits 8 4 i.imm.toNat == 0 && k < 3)
    (fun s => (.next, s.setG x.core i.d (aluOp (5 + k) (s.g x.core i.a) (bits 0 6 i.imm.toNat))))

/-- SHLI (R327). -/
def execShli (x : Issue) (i : IIns) (s : State) : Host.Outcome State Fault Refusal := .next (s.tzShiftI x 0 i)
/-- SHRI (R327). -/
def execShri (x : Issue) (i : IIns) (s : State) : Host.Outcome State Fault Refusal := .next (s.tzShiftI x 1 i)
/-- SARI (R327). -/
def execSari (x : Issue) (i : IIns) (s : State) : Host.Outcome State Fault Refusal := .next (s.tzShiftI x 2 i)

/-- Major 0x06: imm[19:0] << 12 as a signed 32-bit value; no predicate field (R321, R327). -/
def State.tzLui (x : Issue) (i : JIns) (s : State) : State :=
  s.issue x 0 (encJ 0x06 i) (gOk x.core i.d) (fun s => (.next, s.setG x.core i.d (u64 (toS 32 (i.imm.toNat * 4096)))))

/-- LUI (R327). -/
def execLui (x : Issue) (i : JIns) (s : State) : Host.Outcome State Fault Refusal := .next (s.tzLui x i)

/-- The condition of code `cc` (R327). -/
def cond (cc a b : Nat) : Bool :=
  if cc = 0 then a == b else if cc = 1 then a != b else if cc = 2 then s64 a < s64 b else if cc = 3 then a < b
  else if cc = 4 then s64 b ≤ s64 a else b ≤ a

/-- Ones for a condition that holds, 0 otherwise (R327). -/
def allIf (c : Bool) : Nat := if c then ones64 else 0

/-- Major 0x07: f is the condition. -/
def State.tzCmp (x : Issue) (f : Nat) (i : RIns) (s : State) : State :=
  s.issue x i.pred (encR 0x07 f i) (pOk i.d && gOk x.core i.a && gOk x.core i.b && f < 6)
    (fun s => (.next, s.setP x.core i.d (allIf (cond f (s.g x.core i.a) (s.g x.core i.b)))))

/-- CMP (R327). -/
def execCmp (x : Issue) (f : Fin 128) (i : RIns) (s : State) : Host.Outcome State Fault Refusal := .next (s.tzCmp x f i)

/-- Major 0x08: imm[11:9] the condition, imm[8:0] signed. -/
def State.tzCmpi (x : Issue) (i : IIns) (s : State) : State :=
  let n := i.imm.toNat
  s.issue x i.pred (encI 0x08 i) (pOk i.d && gOk x.core i.a && bits 9 3 n < 6)
    (fun s => (.next, s.setP x.core i.d (allIf (cond (bits 9 3 n) (s.g x.core i.a) (u64 (toS 9 n))))))

/-- CMPI (R327). -/
def execCmpi (x : Issue) (i : IIns) (s : State) : Host.Outcome State Fault Refusal := .next (s.tzCmpi x i)

/-- The predicate operation of f 0-3 of major 0x09. -/
def predOp (f a b : Nat) : Nat :=
  if f = 0 then a &&& b else if f = 1 then a ||| b else if f = 2 then a ^^^ b else andNot a b

/-- Major 0x09, f 0-3. -/
def State.tzPred (x : Issue) (f : Nat) (i : RIns) (s : State) : State :=
  s.issue x i.pred (encR 0x09 f i) (pOk i.d && pOk i.a && pOk i.b)
    (fun s => (.next, s.setP x.core i.d (predOp f (s.p x.core i.a) (s.p x.core i.b))))

/-- PAND (R327). -/
def execPand (x : Issue) (i : RIns) (s : State) : Host.Outcome State Fault Refusal := .next (s.tzPred x 0 i)
/-- POR (R327). -/
def execPor (x : Issue) (i : RIns) (s : State) : Host.Outcome State Fault Refusal := .next (s.tzPred x 1 i)
/-- PXOR (R327). -/
def execPxor (x : Issue) (i : RIns) (s : State) : Host.Outcome State Fault Refusal := .next (s.tzPred x 2 i)
/-- PANDN (R327). -/
def execPandn (x : Issue) (i : RIns) (s : State) : Host.Outcome State Fault Refusal := .next (s.tzPred x 3 i)

/-- Major 0x09, f 4, 5, 6: p to p, g to p, p to g; b 0. -/
def State.tzPmov (x : Issue) (f : Nat) (i : RIns) (s : State) : State :=
  s.issue x i.pred (encR 0x09 f i)
    (i.b == 0 && f < 7 &&
      (if f = 4 then pOk i.d && pOk i.a else if f = 5 then pOk i.d && gOk x.core i.a else gOk x.core i.d && pOk i.a))
    (fun s => (.next,
      if f = 4 then s.setP x.core i.d (s.p x.core i.a)
      else if f = 5 then s.setP x.core i.d (s.g x.core i.a)
      else s.setG x.core i.d (s.p x.core i.a)))

/-- PMOV (R327): `k` = f − 4. -/
def execPmov (x : Issue) (k : Fin 3) (i : RIns) (s : State) : Host.Outcome State Fault Refusal :=
  .next (s.tzPmov x (4 + k) i)

/-- Major 0x0A: imm[11] = `ins`, imm[10:6] len − 1, imm[5:0] pos. -/
def State.tzBf (x : Issue) (ins : Nat) (i : IIns) (s : State) : State :=
  let n := i.imm.toNat
  let len := bits 6 5 n + 1
  let pos := bits 0 6 n
  s.issue x i.pred (encI 0x0A (IIns.sel i 11 1 ins)) (gOk x.core i.d && gOk x.core i.a && pos + len ≤ 64)
    (fun s => (.next, s.setG x.core i.d
      (if ins = 0 then bits pos len (s.g x.core i.a) else putBits pos len (s.g x.core i.a) (s.g x.core i.d))))

/-- BFX (R327). -/
def execBfx (x : Issue) (i : IIns) (s : State) : Host.Outcome State Fault Refusal := .next (s.tzBf x 0 i)
/-- BFI (R327). -/
def execBfi (x : Issue) (i : IIns) (s : State) : Host.Outcome State Fault Refusal := .next (s.tzBf x 1 i)

/-! ## Branch (R328) -/

/-- The taken branch: MISALIGN before the link is written, else the link and the new pc. -/
def State.branchTo (s : State) (c : Core) (d base : Nat) (off : Int) : Sig × State :=
  let tgt := u64 ((base : Int) + 4 * off)
  if tgt % 4 ≠ 0 then (.exc cMISALIGN tgt, s)
  else (.jump tgt, s.setG c d (s.pc c + 4))

/-- br and brn: the predicate field is the condition (R321); `brn` reads 1 for major 0x11, where pred 0 is ILLEGAL. Not in
TZ-S. -/
def State.tzBr (x : Issue) (brn : Nat) (i : IIns) (s : State) : State :=
  s.issue x 0 (encI (0x10 + brn) i) (isTz x.core && (brn == 0 || i.pred != 0))
    (fun s =>
      if s.p x.core i.pred % 2 = 1 - brn then
        s.branchTo x.core i.d (if i.a = 0 then s.pc x.core else s.g x.core i.a) (toS 12 i.imm.toNat)
      else (.next, s))

/-- BR (R328). -/
def execBr (x : Issue) (i : IIns) (s : State) : Host.Outcome State Fault Refusal := .next (s.tzBr x 0 i)
/-- BRN (R328). -/
def execBrn (x : Issue) (i : IIns) (s : State) : Host.Outcome State Fault Refusal := .next (s.tzBr x 1 i)

/-- jal: always, relative to its own address, ±2 MiB (R328). Not in TZ-S. -/
def State.tzJal (x : Issue) (i : JIns) (s : State) : State :=
  s.issue x 0 (encJ 0x12 i) (isTz x.core)
    (fun s => s.branchTo x.core i.d (s.pc x.core) (toS 20 i.imm.toNat))

/-- JAL (R328). -/
def execJal (x : Issue) (i : JIns) (s : State) : Host.Outcome State Fault Refusal := .next (s.tzJal x i)

/-- skip #n: a 0, d 0; n from 1 to 2047, to 23 in a stage cell (R313, R328). In a stage cell the passing-over is the stage
program's (see CellRun). -/
def State.tzSkip (x : Issue) (i : IIns) (s : State) : State :=
  let n := toS 12 i.imm.toNat
  s.issue x i.pred (encI 0x13 i) (i.a == 0 && i.d == 0 && 0 < n && (isTz x.core || n ≤ 23))
    (fun s => (.jump (s.pc x.core + 4 * (i.imm.toNat + 1)), s))

/-- SKIP (R313, R328). -/
def execSkip (x : Issue) (i : IIns) (s : State) : Host.Outcome State Fault Refusal := .next (s.tzSkip x i)

/-! ## Time (R346, R347) -/

/-- The largest time in 2^-16 ns (R347). -/
def uMax : Nat := ((2 ^ 48 - 1) * 1000000000 + 999999999) * 65536 + 65535

/-- A time in 2^-16 ns kept within the representable range, in the layout of R8 (R347). -/
def normTime (u : Int) : Nat := of96 (if u < 0 then 0 else min u.toNat uMax)

/-- Saturation to signed 64 bits, as a 64-bit value. -/
def sat64 (i : Int) : Nat := u64 (max (-(2 ^ 63 : Nat)) (min i ((2 ^ 63 : Nat) - 1)))

/-- tnow: the replica's reading; a, b 0. -/
def State.tzTnow (x : Issue) (i : RIns) (s : State) : State :=
  s.issue x i.pred (encR 0x4C 0 i) (tNumOk x.core i.d && i.a == 0 && i.b == 0)
    (fun s => (.next, s.setT x.core i.d s.bellNow))

/-- TNOW (R346). -/
def execTnow (x : Issue) (i : RIns) (s : State) : Host.Outcome State Fault Refusal := .next (s.tzTnow x i)

/-- tcmp.cc: 0 eq, 1 ne, 2 lt, 3 le on the unsigned 96-bit values. -/
def State.tzTcmp (x : Issue) (f : Nat) (i : RIns) (s : State) : State :=
  s.issue x i.pred (encR 0x4D f i) (pOk i.d && tNumOk x.core i.a && tNumOk x.core i.b && f < 4)
    (fun s =>
      let a := s.t x.core i.a
      let b := s.t x.core i.b
      (.next, s.setP x.core i.d (allIf (if f = 0 then a == b else if f = 1 then a != b else if f = 2 then a < b else a ≤ b))))

/-- TCMP (R346). -/
def execTcmp (x : Issue) (f : Fin 128) (i : RIns) (s : State) : Host.Outcome State Fault Refusal := .next (s.tzTcmp x f i)

/-- tadd: t[a] plus the signed g[b], normalised (R347). -/
def State.tzTadd (x : Issue) (i : RIns) (s : State) : State :=
  s.issue x i.pred (encR 0x50 0 i) (tNumOk x.core i.d && tNumOk x.core i.a && gOk x.core i.b)
    (fun s => (.next, s.setT x.core i.d (normTime ((u96 (s.t x.core i.a) : Int) + s64 (s.g x.core i.b)))))

/-- TADD (R347). -/
def execTadd (x : Issue) (i : RIns) (s : State) : Host.Outcome State Fault Refusal := .next (s.tzTadd x i)

/-- tsub: the difference in 2^-16 ns, saturated (R346). -/
def State.tzTsub (x : Issue) (i : RIns) (s : State) : State :=
  s.issue x i.pred (encR 0x50 1 i) (gOk x.core i.d && tNumOk x.core i.a && tNumOk x.core i.b)
    (fun s => (.next, s.setG x.core i.d (sat64 ((u96 (s.t x.core i.a) : Int) - u96 (s.t x.core i.b)))))

/-- TSUB (R346). -/
def execTsub (x : Issue) (i : RIns) (s : State) : Host.Outcome State Fault Refusal := .next (s.tzTsub x i)

/-- tmov, tmov.lo, tmov.hi (f 2, 3, 4). -/
def State.tzTmov (x : Issue) (f : Nat) (i : RIns) (s : State) : State :=
  s.issue x i.pred (encR 0x50 f i)
    ((if f = 2 then tNumOk x.core i.d else gOk x.core i.d) && tNumOk x.core i.a)
    (fun s => (.next,
      if f = 2 then s.setT x.core i.d (s.t x.core i.a)
      else if f = 3 then s.setG x.core i.d (bits 0 64 (s.t x.core i.a))
      else s.setG x.core i.d (bits 64 32 (s.t x.core i.a))))

/-- TMOV (R346). -/
def execTmov (x : Issue) (i : RIns) (s : State) : Host.Outcome State Fault Refusal := .next (s.tzTmov x 2 i)
/-- TMOV_LO (R346). -/
def execTmovLo (x : Issue) (i : RIns) (s : State) : Host.Outcome State Fault Refusal := .next (s.tzTmov x 3 i)
/-- TMOV_HI (R346). -/
def execTmovHi (x : Issue) (i : RIns) (s : State) : Host.Outcome State Fault Refusal := .next (s.tzTmov x 4 i)

/-- tmov.set: t[d] = (g[b][31:0], g[a]), normalised (R347). -/
def State.tzTset (x : Issue) (i : RIns) (s : State) : State :=
  s.issue x i.pred (encR 0x50 5 i) (tNumOk x.core i.d && gOk x.core i.a && gOk x.core i.b)
    (fun s => (.next, s.setT x.core i.d
      (normTime (u96 (bits 0 32 (s.g x.core i.b) * 2 ^ 64 + s.g x.core i.a)))))

/-- TMOV_SET (R347). -/
def execTmovSet (x : Issue) (i : RIns) (s : State) : Host.Outcome State Fault Refusal := .next (s.tzTset x i)

/-! ## System (R353) -/

/-- The R-format operands of a system instruction are 0. -/
def sysZero (i : RIns) : Bool := i.a == 0 && i.b == 0 && i.d == 0

/-- trap #n: n = b × 32 + a; d 0. -/
def State.tzTrap (x : Issue) (i : RIns) (s : State) : State :=
  s.issue x i.pred (encR 0x70 0 i) (isTz x.core && i.d == 0) (fun s => (.exc cTRAP (i.b.val * 32 + i.a.val), s))

/-- TRAP (R353). -/
def execTrap (x : Issue) (i : RIns) (s : State) : Host.Outcome State Fault Refusal := .next (s.tzTrap x i)

/-- tret: PRIV at U, ILLEGAL when INTRAP = 0 (R298, R353). -/
def State.tzTret (x : Issue) (i : RIns) (s : State) : State :=
  s.issue x i.pred (encR 0x70 1 i) (isTz x.core && sysZero i && s.intrap x.core)
    (fun s => if s.privP x.core then s.tretBody x.core else (.exc cPRIV (encR 0x70 1 i), s))

/-- TRET (R298). -/
def execTret (x : Issue) (i : RIns) (s : State) : Host.Outcome State Fault Refusal := .next (s.tzTret x i)

/-- fence: every earlier access has completed, which holds at once where accesses complete in order (R295). -/
def State.tzFence (x : Issue) (i : RIns) (s : State) : State :=
  s.issue x i.pred (encR 0x70 2 i) (isTz x.core && sysZero i) (fun s => (.next, s))

/-- FENCE (R295). -/
def execFence (x : Issue) (i : RIns) (s : State) : Host.Outcome State Fault Refusal := .next (s.tzFence x i)

/-- yield: the thread is last in the issue rotation of its class in the next cycle (R353). -/
def State.tzYield (x : Issue) (i : RIns) (s : State) : State :=
  s.issue x i.pred (encR 0x70 4 i) (isTz x.core && sysZero i)
    (fun s => (.next, match x.core with | .eng e t => s.setH .lastInRotation e (t.val + 1) | _ => s))

/-- YIELD (R353). -/
def execYield (x : Issue) (i : RIns) (s : State) : Host.Outcome State Fault Refusal := .next (s.tzYield x i)

/-- halt: thread to IDLE, TPC after the HALT (Table 9.6). -/
def State.tzHalt (x : Issue) (i : RIns) (s : State) : State :=
  s.issue x i.pred (encR 0x70 5 i) (isTz x.core && sysZero i) (fun s => (.halt, s))

/-- HALT (R353). -/
def execHalt (x : Issue) (i : RIns) (s : State) : Host.Outcome State Fault Refusal := .next (s.tzHalt x i)

/-- bkpt: raises BKPT with TVAL = pc (Table 9.5). -/
def State.tzBkpt (x : Issue) (i : RIns) (s : State) : State :=
  s.issue x i.pred (encR 0x70 6 i) (isTz x.core && sysZero i) (fun s => (.exc cBKPT (s.pc x.core), s))

/-- BKPT (R353). -/
def execBkpt (x : Issue) (i : RIns) (s : State) : Host.Outcome State Fault Refusal := .next (s.tzBkpt x i)

/-- csrr and csrw: imm[10:0] the number of Table 9.3, imm[11] read or write, which the mnemonic fixes (R286, R354). -/
def csrNo (i : IIns) : Nat := bits 0 11 i.imm.toNat

/-- The number is listed in Table 9.3. -/
def csrListed (n : Nat) : Bool := n ≤ 6 || n == 0x10 || n == 0x11

/-- A control register's value; CYCLE is a free value, the count of a clock the model does not run (log entry 25). -/
def State.csr (s : State) (c : Core) (n : Nat) : Nat :=
  let r := coreNo c
  match c with
  | .eng e t =>
    let i := thrIdx e t
    if n = 0 then 8 * e.val + t.val
    else if n = 1 then (s.privP c).toNat + 2 * s.tr r rPPRV + 4 * (s.intrap c).toNat + 8 * s.rd (.eng .THR_TCTL_HIPRI) i
    else if n = 2 then s.rd (.eng .THR_TCAUSE_CAUSE) i
    else if n = 3 then s.rd (.eng .THR_TEPC_EPC) i
    else if n = 4 then s.rd (.eng .THR_TVAL_VAL) i
    else if n = 5 then s.tvec c
    else if n = 6 then s.tr r rTSCR
    else if n = 0x10 then s.freeVal 64
    else s.tr r rINSTRET
  | _ =>
    if n = 0 then 0
    else if n = 1 then (s.privP c).toNat + 2 * s.tr r rPPRV + 4 * (s.intrap c).toNat + 8 * s.tr r rHIPRI
    else if n = 2 then s.tr r rCAUSE
    else if n = 3 then s.tr r rEPC
    else if n = 4 then s.tr r rVAL
    else if n = 5 then s.tvec c
    else if n = 6 then s.tr r rTSCR
    else if n = 0x10 then s.freeVal 64
    else s.tr r rINSTRET

/-- A control register written; read-only numbers ignore it (R286). -/
def State.setCsr (s : State) (c : Core) (n v : Nat) : State :=
  let r := coreNo c
  match c with
  | .eng e t =>
    let i := thrIdx e t
    if n = 1 then
      ((s.setTr r rPPRV (bits 1 1 v)).setIntrap c (bits 2 1 v)).wr (.eng .THR_TCTL_HIPRI) i (bits 3 1 v)
    else if n = 2 then s.wr (.eng .THR_TCAUSE_CAUSE) i v
    else if n = 3 then s.wr (.eng .THR_TEPC_EPC) i v
    else if n = 4 then s.wr (.eng .THR_TVAL_VAL) i v
    else if n = 5 then s.wr (.eng .TVEC) e v
    else if n = 6 then s.setTr r rTSCR (trunc 64 v)
    else s
  | _ =>
    if n = 1 then ((s.setTr r rPPRV (bits 1 1 v)).setIntrap c (bits 2 1 v)).setTr r rHIPRI (bits 3 1 v)
    else if n = 2 then s.setTr r rCAUSE (trunc 64 v)
    else if n = 3 then s.setTr r rEPC (trunc 48 v)
    else if n = 4 then s.setTr r rVAL (trunc 64 v)
    else if n = 5 then s.setTr r rTVEC (trunc 48 v)
    else if n = 6 then s.setTr r rTSCR (trunc 64 v)
    else s

/-- csrr: at U only TID (R288); an unlisted number is ILLEGAL; a 0. -/
def State.tzCsrr (x : Issue) (i : IIns) (s : State) : State :=
  let n := csrNo i
  let w := encI 0x71 (IIns.sel i 11 1 0)
  s.issue x i.pred w (isTz x.core && i.a == 0 && csrListed n)
    (fun s =>
      if ¬ s.privP x.core ∧ n ≠ 0 then (.exc cPRIV w, s)
      else
        let v := s.csr x.core n
        (.next, (if n = 0x10 then s.nextFree else s).setG x.core i.d v))

/-- CSRR (R354). -/
def execCsrr (x : Issue) (i : IIns) (s : State) : Host.Outcome State Fault Refusal := .next (s.tzCsrr x i)

/-- csrw: PRIV at U; an unlisted number is ILLEGAL; d 0. -/
def State.tzCsrw (x : Issue) (i : IIns) (s : State) : State :=
  let n := csrNo i
  let w := encI 0x71 (IIns.sel i 11 1 1)
  s.issue x i.pred w (isTz x.core && i.d == 0 && csrListed n)
    (fun s => if ¬ s.privP x.core then (.exc cPRIV w, s) else (.next, s.setCsr x.core n (s.g x.core i.a)))

/-- CSRW (R354). -/
def execCsrw (x : Issue) (i : IIns) (s : State) : Host.Outcome State Fault Refusal := .next (s.tzCsrw x i)

/-! ## Events (R352) -/

/-- evraise #code: the engine's or the pair's program event, with the code and the thread or cell and track; a 0, d 0. On
the Reeve, which has no program event, the event group raises nothing (log entry 26). -/
def State.tzEvraise (x : Issue) (i : IIns) (s : State) : State :=
  s.issue x i.pred (encI 0x60 i) (i.a == 0 && i.d == 0)
    (fun s => (.next,
      match x.core with
      | .eng e t => s.raise .ENG_PROG_EVENT (locEngine e) (i.imm.toNat + 2 ^ 12 * t.val)
      | .cell c eg => s.raise .CORE_PROG_EVENT (locSlice (cellPair c)) (i.imm.toNat + 2 ^ 12 * (2 * c.val + eg.toNat))
      | .reeve | .wgh => s))

/-- EVRAISE (R352). -/
def execEvraise (x : Issue) (i : IIns) (s : State) : Host.Outcome State Fault Refusal := .next (s.tzEvraise x i)

end Sys2Proof.Machine
end

