-- ==== Sys2Proof/Machine/TzFrame.lean ====
section
/-! DEFINITION. TZ frame and lookup instructions (R338-R345), on engines and in stage cells, with the defined results of
Table 10.11. -/

namespace Sys2Proof.Machine

/-! ## Checksums (R199, R340) -/

/-- One's-complement folding to 16 bits. -/
def fold16 (n : Nat) : Nat :=
  let a := n % 65536 + n / 65536
  let b := a % 65536 + a / 65536
  b % 65536 + b / 65536

/-- Complement of a 16-bit word. -/
def not16 (n : Nat) : Nat := 65535 - n % 65536

/-- R340's update of a checksum `hc` for `n` words old `a`, new `b`. -/
def csumUpd (n hc a b : Nat) : Nat :=
  not16 (fold16 ((List.range n).foldl (fun s k => s + not16 (a / 2 ^ (16 * k)) + b / 2 ^ (16 * k) % 65536) (not16 hc)))

/-- A trailer or checksum word after the words `olds` become `news`: each adds old and the complement of new (R199). -/
def trailerUpd (tr : Nat) (olds news : List Nat) : Nat :=
  fold16 ((olds.zip news).foldl (fun s p => s + p.1 + not16 p.2) tr)

/-- The 16-bit words of an 8-octet value, most significant first. -/
def words4 (v : Nat) : List Nat := [v / 2 ^ 48 % 65536, v / 2 ^ 32 % 65536, v / 2 ^ 16 % 65536, v % 65536]

/-! ## Where a frame instruction finds its frame (R338) -/

/-- Stage index of a stage cell. -/
def cellStage (c : Nat) : Nat := c % 12

/-- Number of a track. -/
def trackNo (c : Nat) (eg : Bool) : Nat := 2 * c + eg.toNat

/-- The head window's extent: 192 octets, more by what was inserted, less by what was removed (R219, R220). -/
def Track.extent (t : Track) : Nat := 192 + t.ins - t.del

/-- Octets of a list from `o`, zeros beyond its end. -/
def octetsAt (l : List Byte) (o n : Nat) : List Byte := (List.range n).map (fun k => l.getD (o + k) 0)

/-- A list with octets from `o` replaced. -/
def octetsPut (l : List Byte) (o : Nat) (new : List Byte) : List Byte := l.take o ++ new ++ l.drop (o + new.length)

/-- A U access to the Cellar lies in one enabled window of the engine that grants it (R293). -/
def State.cwinOk (s : State) (e a n : Nat) (write : Bool) : Bool :=
  (List.range 8).any (fun w =>
    let i := 8 * e + w
    let lo := s.rd (.eng .CWIN_BASE) i * 65536
    s.on (.eng .CWIN_EN) i && s.on (if write then .eng .CWIN_W else .eng .CWIN_R) i &&
    decide (lo ≤ a ∧ a + n ≤ lo + s.rd (.eng .CWIN_SIZE) i * 65536))

/-- The exception of an engine's frame access, if any: PROT before LOAD or STORE (R322, R338). -/
def State.frExc (s : State) (c : Core) (a o n : Nat) (write : Bool) : Option (Nat × Nat) :=
  let h := bits 0 32 (s.g c a)
  let off := bits 32 16 (s.g c a) + o
  let bad := some (if write then cSTORE else cLOAD, off)
  if ¬ s.handleOk h then bad
  else
    let eng := match c with | .eng e _ => e.val | _ => 0
    if hPool h ≠ 0 ∧ ¬ s.privP c ∧ ¬ s.cwinOk eng (s.cellarAddr (hPool h) (hIdx h) + off) n write then some (cPROT, off)
    else if s.frameBound h < off + n ∨ (hPool h ≠ 0 ∧ ¬ s.stackReady (hIdx h % s.variant.nStacks)) then bad
    else none

/-- An invalid handle is counted (R256). -/
def State.badHandle (s : State) (c : Core) (a : Nat) : State :=
  let h := bits 0 32 (s.g c a)
  if s.handleOk h then s else s.count (.pool .STAT_BAD_HANDLE) (hPool h)

/-- fext on an engine. `ue`: the read meets an uncorrectable error. -/
def State.fextEng (s : State) (c : Core) (d a o n : Nat) (ue : Bool) : Sig × State :=
  match s.frExc c a o n false with
  | some (cause, v) => (.exc cause v, s.badHandle c a)
  | none =>
    let off := bits 32 16 (s.g c a) + o
    if ue then (.exc cDATA_UE off, s)
    else (.next, s.setG c d (beNat (s.frameBytes (bits 0 32 (s.g c a)) off n)))

/-- fext in a stage cell (Table 10.11); a read beyond the frame's end is one of the conditions it counts (R356). -/
def State.fextCell (s : State) (c : Core) (k d a o n : Nat) : Sig × State :=
  let t := s.track k
  let off := s.g c a + o
  if t.extent < off + n then (.next, (s.setG c d 0).progFault c)
  else
    let s := if t.win.length < off + n then (s.setTrack k { t with md := mdSHORT.put 1 t.md }).progFault c else s
    (.next, s.setG c d (beNat (octetsAt t.win off n)))

/-- fext d, a, #w:o (R339). -/
def State.tzFext (x : Issue) (ue : Bool) (i : IIns) (s : State) : State :=
  let o := bits 0 10 i.imm.toNat
  let n := 2 ^ bits 10 2 i.imm.toNat
  s.issue x i.pred (encI 0x40 i) ((isEng x.core || isCell x.core) && gOk x.core i.d && gOk x.core i.a)
    (fun s => match x.core with
      | .cell c eg => s.fextCell x.core (trackNo c eg) i.d i.a o n
      | c => s.fextEng c i.d i.a o n ue)

/-- FEXT (R339). -/
def execFext (x : Issue) (ue : Bool) (i : IIns) (s : State) : Host.Outcome State Fault Refusal := .next (s.tzFext x ue i)

/-- fins d, a, #w:o: the low octets of g[d], big-endian (R339, R315). -/
def State.tzFins (x : Issue) (i : IIns) (s : State) : State :=
  let o := bits 0 10 i.imm.toNat
  let n := 2 ^ bits 10 2 i.imm.toNat
  s.issue x i.pred (encI 0x41 i) ((isEng x.core || isCell x.core) && gOk x.core i.d && gOk x.core i.a)
    (fun s => match x.core with
      | .cell c eg =>
        let t := s.track (trackNo c eg)
        let off := s.g x.core i.a + o
        if t.win.length < off + n then (.next, s.progFault x.core)
        else (.next, s.setTrack (trackNo c eg) { t with win := octetsPut t.win off (beBytes n (s.g x.core i.d)) })
      | c => match s.frExc c i.a o n true with
        | some (cause, v) => (.exc cause v, s.badHandle c i.a)
        | none => (.next, s.setFrameBytes (bits 0 32 (s.g c i.a)) (bits 32 16 (s.g c i.a) + o) (beBytes n (s.g c i.d))))

/-- FINS (R339). -/
def execFins (x : Issue) (i : IIns) (s : State) : Host.Outcome State Fault Refusal := .next (s.tzFins x i)

/-- fcsum: f 0, 1, 2 for one, two, four words (R340). -/
def State.tzFcsum (x : Issue) (f : Nat) (i : RIns) (s : State) : State :=
  s.issue x i.pred (encR 0x42 f i)
    ((isEng x.core || isCell x.core) && gOk x.core i.d && gOk x.core i.a && gOk x.core i.b && f < 3)
    (fun s => (.next, s.setG x.core i.d (csumUpd (2 ^ f) (s.g x.core i.d) (s.g x.core i.a) (s.g x.core i.b))))

/-- FCSUM (R340). -/
def execFcsum (x : Issue) (f : Fin 128) (i : RIns) (s : State) : Host.Outcome State Fault Refusal := .next (s.tzFcsum x f i)

/-! ## Correction field (R192, R199, R341) -/

/-- A correctionField sum outside 64 bits is held at the largest value, counted and raised (R192). -/
def State.cfSat (s : State) (v : Int) (loc : Nat) : Nat × State :=
  if v < -(2 ^ 63 : Nat) ∨ (2 ^ 63 : Nat) - 1 < v then
    (0x7FFFFFFFFFFFFFFF, (s.count (.stamp .CNT_CF_SAT) 0).raise .STAMP_CF_SAT loc)
  else (ofS 64 v, s)

/-- The checksum trailer of an L4 = 2 frame whose PTP header lies at `h`, if present (R199). -/
def trailerAt (l : List Byte) (h : Nat) : Option Nat :=
  let udp := beNat (octetsAt l (h - 4) 2)
  let ml := beNat (octetsAt l (h + 2) 2)
  if 8 ≤ h ∧ ml + 10 ≤ udp ∧ ml % 2 = 0 ∧ h + ml + 2 ≤ l.length then some (h + ml) else none

/-- A frame's octets with its correctionField set, and the checksum handled by `l4` (R199). -/
def cfStore (l : List Byte) (h l4 cf : Nat) : List Byte :=
  let old := beNat (octetsAt l (h + 8) 8)
  let l' := octetsPut l (h + 8) (beBytes 8 cf)
  if l4 = 1 then octetsPut l' (h - 2) [0, 0]
  else if l4 = 2 then match trailerAt l h with
    | some t => octetsPut l' t (beBytes 2 (trailerUpd (beNat (octetsAt l t 2)) (words4 old) (words4 cf)))
    | none => l'
  else l'

/-- fcfadd on an engine. -/
def State.fcfaddEng (s : State) (c : Core) (l4 d a b : Nat) : Sig × State :=
  let hnd := bits 0 32 (s.g c a)
  let h := bits 32 16 (s.g c a)
  match s.frExc c a 0 16 true with
  | some (cause, v) => (.exc cause v, s.badHandle c a)
  | none =>
    let l := s.frameBytes hnd 0 (s.frameBound hnd)
    if l4 = 2 ∧ trailerAt l h = none then (.exc cSTORE h, s)
    else
      let loc := match c with | .eng e _ => locEngine e | _ => 0
      let (cf, s) := s.cfSat (toS 64 (beNat (octetsAt l (h + 8) 8)) + s64 (s.g c b)) loc
      (.next, (s.setFrameBytes hnd 0 (cfStore l h l4 cf)).setG c d cf)

/-- fcfadd in a stage cell (Table 10.11). -/
def State.fcfaddCell (s : State) (c : Core) (k l4 d a b : Nat) : Sig × State :=
  let t := s.track k
  let h := s.g c a
  if t.win.length < h + 16 then (.next, (s.setG c d 0).progFault c)
  else
    let old := beNat (octetsAt t.win (h + 8) 8)
    if l4 = 2 ∧ trailerAt t.win h = none then (.next, (s.setG c d old).progFault c)
    else
      let loc := match c with | .cell n _ => locCell n | _ => 0
      let (cf, s) := s.cfSat (toS 64 old + s64 (s.g c b)) loc
      (.next, (s.setTrack k { t with win := cfStore t.win h l4 cf }).setG c d cf)

/-- fcfadd d, a, b: f[1:0] = L4, 3 ILLEGAL (R341). -/
def State.tzFcfadd (x : Issue) (f : Nat) (i : RIns) (s : State) : State :=
  s.issue x i.pred (encR 0x43 f i)
    ((isEng x.core || isCell x.core) && gOk x.core i.d && gOk x.core i.a && gOk x.core i.b && f < 3)
    (fun s => match x.core with
      | .cell c eg => s.fcfaddCell x.core (trackNo c eg) f i.d i.a i.b
      | c => s.fcfaddEng c f i.d i.a i.b)

/-- FCFADD (R341). -/
def execFcfadd (x : Issue) (f : Fin 128) (i : RIns) (s : State) : Host.Outcome State Fault Refusal := .next (s.tzFcfadd x f i)

/-! ## Metadata and window (R342) -/

/-- mdld d, #w:o: natural alignment within 64 octets, else 0 and PROG_FAULT. ILLEGAL on a TZ core. -/
def State.tzMdld (x : Issue) (i : IIns) (s : State) : State :=
  let o := bits 0 6 i.imm.toNat
  let n := 2 ^ bits 10 2 i.imm.toNat
  s.issue x i.pred (encI 0x44 i) (isCell x.core && gOk x.core i.d && bits 6 4 i.imm.toNat == 0)
    (fun s => match x.core with
      | .cell c eg =>
        if o % n ≠ 0 ∨ 64 < o + n then (.next, (s.setG x.core i.d 0).progFault x.core)
        else (.next, s.setG x.core i.d (bits (8 * o) (8 * n) (s.track (trackNo c eg)).md))
      | _ => (.next, s))

/-- MDLD (R342). -/
def execMdld (x : Issue) (i : IIns) (s : State) : Host.Outcome State Fault Refusal := .next (s.tzMdld x i)

/-- Bit `k` of the metadata is one that R309 forbids the track to write in the stage. -/
def mdForbidden (stage : Nat) (eg : Bool) (k : Nat) : Bool :=
  k < 192 || (360 ≤ k && k < 366) ||
  (192 ≤ k && k < 224 && eg && stage != 8 && stage != 9) ||
  (((224 ≤ k && k < 234) || (240 ≤ k && k < 256) || (352 ≤ k && k < 359)) && (eg || stage < 10))

/-- Bit `k` is listed in Table 9.7. -/
def mdListed (k : Nat) : Bool := !((234 ≤ k && k < 240) || k == 359 || (366 ≤ k && k < 384))

/-- mdst #w:o: ignored as a whole when it touches a forbidden bit; bits not listed stay 0 (R308, R309). -/
def State.tzMdst (x : Issue) (i : IIns) (s : State) : State :=
  let o := bits 0 6 i.imm.toNat
  let n := 2 ^ bits 10 2 i.imm.toNat
  s.issue x i.pred (encI 0x45 i) (isCell x.core && gOk x.core i.d && bits 6 4 i.imm.toNat == 0)
    (fun s => match x.core with
      | .cell c eg =>
        if o % n ≠ 0 ∨ 64 < o + n ∨ (List.range (8 * n)).any (fun k => mdForbidden (cellStage c) eg (8 * o + k)) then
          (.next, s.progFault x.core)
        else
          let t := s.track (trackNo c eg)
          let v := (List.range (8 * n)).foldl (fun v k => if mdListed (8 * o + k) then v else clrBit k v) (s.g x.core i.d)
          (.next, s.setTrack (trackNo c eg) { t with md := putBits (8 * o) (8 * n) v t.md })
      | _ => (.next, s))

/-- MDST (R342). -/
def execMdst (x : Issue) (i : IIns) (s : State) : Host.Outcome State Fault Refusal := .next (s.tzMdst x i)

/-- fwin a, #n: inserts n zeros before, or removes −n octets from, window octet g[a]; LEN follows (R342, R220). -/
def State.tzFwin (x : Issue) (i : IIns) (s : State) : State :=
  let n := toS 12 i.imm.toNat
  s.issue x i.pred (encI 0x46 i)
    (isCell x.core && i.d == 0 && gOk x.core i.a && ((1 ≤ n && n ≤ 32) || (-64 ≤ n && n ≤ -1)))
    (fun s => match x.core with
      | .cell c eg =>
        let k := trackNo c eg
        let t := s.track k
        let o := s.g x.core i.a
        if 0 < n then
          let m := n.toNat
          if t.win.length < o ∨ 32 < t.ins + m then (.next, s.progFault x.core)
          else (.next, s.setTrack k { t with
            win := t.win.take o ++ List.replicate m 0 ++ t.win.drop o, ins := t.ins + m,
            md := mdLEN.put (mdLEN.get t.md + m) t.md })
        else
          let m := (-n).toNat
          if t.win.length < o + m ∨ 64 < t.del + m then (.next, s.progFault x.core)
          else (.next, s.setTrack k { t with
            win := t.win.take o ++ t.win.drop (o + m), del := t.del + m,
            md := mdLEN.put (mdLEN.get t.md - m) t.md })
      | _ => (.next, s))

/-- FWIN (R342). -/
def execFwin (x : Issue) (i : IIns) (s : State) : Host.Outcome State Fault Refusal := .next (s.tzFwin x i)

/-! ## Lookup (R343-R345) -/

/-- The key from g[a] onward, with key bit 0 at bit 0 of g[a]; registers beyond the file read 0. -/
def State.lkKey (s : State) (c : Core) (a n : Nat) : Nat :=
  (List.range n).foldl (fun v k => v + (if gOk c (a + k) && a + k < 32 then s.g c (a + k) else 0) * 2 ^ (64 * k)) 0

/-- lkx (kind 0) and lkt (kind 1). In a stage cell a table that is off or of another stage is counted (R225); one of the other
kind gives a miss alone (R343). -/
def State.tzLk (x : Issue) (kind : Nat) (i : IIns) (s : State) : State :=
  let w := i.imm.toNat
  let tbl := bits 0 6 w
  s.issue x i.pred (encI (0x48 + kind) i)
    ((isEng x.core || isCell x.core) && i.d == 0 && gOk x.core i.a && bits 7 5 w == 0 && (!isCell x.core || bits 6 1 w == 0))
    (fun s =>
      let key := s.lkKey x.core i.a ((s.rd (.core .TBL_KEY_BITS) tbl + 63) / 64)
      match x.core with
      | .cell c eg =>
        let k := trackNo c eg
        let t := s.track k
        let stage := cellStage c
        let again := t.look.any (fun e => e.1 == (stage, kind))
        if stage < 2 ∨ 7 < stage ∨ again ∨ s.tblKind tbl = 0 ∨ s.rd (.core .TBL_STAGE) tbl ≠ stage then
          (.next, (s.setTrack k { t with
            look := ((stage, kind), ⟨false, 0⟩) :: t.look.filter (fun e => e.1 != (stage, kind)) }).progFault x.core)
        else
          let (r, s) := s.look tbl kind (mdBANK.get t.md) key
          (.next, s.setTrack k { t with look := ((stage, kind), r) :: t.look })
      | c =>
        let (r, s) := s.look tbl kind (bits 6 1 w) key
        let n := coreNo c
        (.next, ((s.setTr n (rLK kind) 1).setTr n (rLK kind + 1) r.hit.toNat).setTr n (rLK kind + 2) r.data))

/-- LKX (R343). -/
def execLkx (x : Issue) (i : IIns) (s : State) : Host.Outcome State Fault Refusal := .next (s.tzLk x 0 i)
/-- LKT (R343). -/
def execLkt (x : Issue) (i : IIns) (s : State) : Host.Outcome State Fault Refusal := .next (s.tzLk x 1 i)

/-- lkres d: a data word to g[d], or hit to p[d]; early or never issued in a stage cell is a miss and counted (R314, R343,
R344). -/
def State.tzLkres (x : Issue) (i : IIns) (s : State) : State :=
  let w := i.imm.toNat
  let stage := bits 0 3 w
  let kind := bits 3 1 w
  let toP := bits 6 1 w == 1
  s.issue x i.pred (encI 0x4A i)
    ((isEng x.core || isCell x.core) && bits 7 5 w == 0 && (if toP then pOk i.d else gOk x.core i.d) && (isCell x.core || stage == 0))
    (fun s =>
      let put := fun (s : State) (hit : Bool) (data : Nat) =>
        if toP then s.setP x.core i.d (allIf hit) else s.setG x.core i.d (if hit then bits (64 * bits 4 2 w) 64 data else 0)
      match x.core with
      | .cell c eg =>
        match (s.track (trackNo c eg)).look.find? (fun e => e.1 == (stage, kind)) with
        | some e => if cellStage c < stage + 2 then (.next, (put s false 0).progFault x.core) else (.next, put s e.2.hit e.2.data)
        | none => (.next, (put s false 0).progFault x.core)
      | c =>
        let n := coreNo c
        (.next, put s (s.tr n (rLK kind) == 1 && s.tr n (rLK kind + 1) == 1) (s.tr n (rLK kind + 2))))

/-- LKRES (R343). -/
def execLkres (x : Issue) (i : IIns) (s : State) : Host.Outcome State Fault Refusal := .next (s.tzLkres x i)

/-- lkupd d, a, b: PRIV at U; MISALIGN, LOAD for the block's place; the results are written into the block (R345). -/
def State.tzLkupd (x : Issue) (f : Nat) (i : RIns) (s : State) : State :=
  let w := encR 0x4B f i
  s.issue x i.pred w (isEng x.core && f < 8)
    (fun s =>
      let c := x.core
      let blk := s.g c i.a
      let e := match c with | .eng e _ => e.val | _ => 0
      let base := e * 0x400000 + blk
      if ¬ s.privP c then (.exc cPRIV w, s)
      else if blk % 64 ≠ 0 then (.exc cMISALIGN blk, s)
      else if 0x400000 < blk + 256 then (.exc cLOAD blk, s)
      else
        let cmd : LkCmd := ⟨bits 0 6 (s.g c i.b), s.rdMem .pantry base 80, s.rdMem .pantry (base + 80) 80,
          s.rdMem .pantry (base + 160) 32, bits 0 22 (s.rdMem .pantry (base + 192) 4),
          bits 0 2 (s.rdMem .pantry (base + 196) 1)⟩
        let (o, s) := s.lkRun f cmd
        let s := match o.ent with
          | none => s
          | some en =>
            let s := (s.wrMem .pantry (base + 160) 32 en.data).wrMem .pantry (base + 196) 1 en.vis
            if f = 5 then (s.wrMem .pantry base 80 en.key).wrMem .pantry (base + 80) 80 en.mask else s
        let s := if 4 ≤ f ∧ f ≠ 6 ∧ o.code = lkOK then s.wrMem .pantry (base + 192) 4 o.index else s
        (.next, s.setG c i.d (o.code + 8 * o.hit.toNat + o.index * 2 ^ 16)))

/-- LKUPD (R345). -/
def execLkupd (x : Issue) (f : Fin 128) (i : RIns) (s : State) : Host.Outcome State Fault Refusal := .next (s.tzLkupd x f i)

end Sys2Proof.Machine
end

