-- ==== Sys2Proof/Machine/Crc.lean ====
section
/-! DEFINITION. Cyclic redundancy checks the manual names: the Ethernet FCS (IEEE 802.3 CRC-32, R198) and CRC-32C
(Castagnoli, Table 4.3). Both are taken in their usual reflected form (log entry 40). -/

namespace Sys2Proof.Machine

/-- One bit step of a reflected CRC. -/
def crcBit (poly c : Nat) : Nat := if c % 2 = 1 then c / 2 ^^^ poly else c / 2

/-- `n` bit steps. -/
def crcBits (poly : Nat) : Nat → Nat → Nat
  | 0, c => c
  | n + 1, c => crcBits poly n (crcBit poly c)

/-- A reflected CRC with all-ones start and complement. -/
def crcOf (poly : Nat) (l : List Byte) : Nat :=
  l.foldl (fun c b => crcBits poly 8 (c ^^^ b.toNat)) 0xFFFFFFFF ^^^ 0xFFFFFFFF

/-- The Ethernet FCS of a list of octets. -/
def crc32 (l : List Byte) : Nat := crcOf 0xEDB88320 l

/-- CRC-32C. -/
def crc32c (l : List Byte) : Nat := crcOf 0x82F63B78 l

/-- A frame without its last four octets, the FCS. -/
def fcsBody (l : List Byte) : List Byte := l.take (l.length - 4)

/-- The FCS a frame carries. -/
def fcsOf (l : List Byte) : Nat := leNat (l.drop (l.length - 4))

/-- The FCS of a frame is correct. -/
def fcsGood (l : List Byte) : Bool := 4 ≤ l.length && crc32 (fcsBody l) == fcsOf l

/-- The FCS after the octets of frame `old` became the body `new`: the CRC-32 of the difference is added, so an error the
frame carried elsewhere still shows (R198). -/
def refcs (old new : List Byte) : List Byte :=
  new ++ leBytes 4 (crc32 new ^^^ (crc32 (fcsBody old) ^^^ fcsOf old))

/-- A correct FCS appended (R246). -/
def withFcs (l : List Byte) : List Byte := l ++ leBytes 4 (crc32 l)

/-- Zero octets that make a body at least 60 octets long, 64 with its FCS (R246). -/
def padBody (l : List Byte) : List Byte := l ++ List.replicate (60 - l.length) 0

/-- A stomped frame: its FCS is the complement of the correct one of the octets sent (R235). -/
def stomped (l : List Byte) : List Byte := fcsBody l ++ leBytes 4 (crc32 (fcsBody l) ^^^ 0xFFFFFFFF)

end Sys2Proof.Machine
end

