-- ==== Sys2Proof/Machine/CellRun.lean ====
section
/-! DEFINITION. Stage cells: program memory and its banks (R222-R224), the check of a bank, and the run of a stage program
and of a whole pipeline (R217-R220, R312-R315). -/

namespace Sys2Proof.Machine

/-! ## Words of a stage program -/

/-- R-format operands of a word. -/
def rOf (w : Nat) : RIns :=
  ⟨Fin.ofNat 8 (bits 17 3 w), Fin.ofNat 32 (bits 7 5 w), Fin.ofNat 32 (bits 12 5 w), Fin.ofNat 32 (bits 20 5 w)⟩
/-- I-format operands of a word. -/
def iOf (w : Nat) : IIns :=
  ⟨Fin.ofNat 8 (bits 17 3 w), Fin.ofNat 32 (bits 7 5 w), Fin.ofNat 32 (bits 12 5 w), BitVec.ofNat 12 (bits 20 12 w)⟩
/-- U-format operands of a word. -/
def jOf (w : Nat) : JIns := ⟨Fin.ofNat 32 (bits 7 5 w), BitVec.ofNat 20 (bits 12 20 w)⟩

/-- The words of a track's program in a bank: cell, egress track, bank B (Table 7.7). -/
def insnFld (eg bankB : Bool) : Fld :=
  if bankB then (if eg then .core .CELLBEG_INSN else .core .CELLBIN_INSN)
  else (if eg then .core .CELLAEG_INSN else .core .CELLAIN_INSN)

/-- The 24 words of a program. -/
def State.program (s : State) (c : Nat) (eg bankB : Bool) : List Nat :=
  (List.range 24).map (fun k => s.rd (insnFld eg bankB) (24 * c + k))

/-- Word `w` at place `k` of a program passes the check of R224: an instruction of the TZ-S subset by Tables 9.8 and 9.9
and the rules of chapter 10, a skip staying within the program (R311-R313). -/
def szLegal (k w : Nat) : Bool :=
  let op := bits 0 7 w
  let f := bits 25 7 w
  let d := bits 7 5 w
  let a := bits 12 5 w
  let b := bits 20 5 w
  let m := bits 20 12 w
  let ga := a < 16
  let gd := d < 16
  let gb := b < 16
  if op = 0x00 then f < 16 && !(9 ≤ f && f ≤ 11) && gd && ga && gb
  else if 1 ≤ op ∧ op ≤ 4 then gd && ga
  else if op = 0x05 then gd && ga && bits 8 4 m == 0 && bits 6 2 m < 3
  else if op = 0x06 then gd
  else if op = 0x07 then d < 8 && ga && gb && f < 6
  else if op = 0x08 then d < 8 && ga && bits 9 3 m < 6
  else if op = 0x09 then
    if f < 4 then d < 8 && a < 8 && b < 8
    else if f = 4 then d < 8 && a < 8 && b == 0
    else if f = 5 then d < 8 && ga && b == 0
    else f == 6 && gd && a < 8 && b == 0
  else if op = 0x0A then gd && ga && bits 0 6 m + bits 6 5 m + 1 ≤ 64
  else if op = 0x13 then a == 0 && d == 0 && 1 ≤ m && k + m ≤ 23
  else if op = 0x40 ∨ op = 0x41 then gd && ga
  else if op = 0x42 ∨ op = 0x43 then gd && ga && gb && f < 3
  else if op = 0x44 ∨ op = 0x45 then gd && ga && bits 6 4 m == 0
  else if op = 0x46 then d == 0 && ga && ((1 ≤ m && m ≤ 32) || (0x1000 - 64 ≤ m))
  else if op = 0x48 ∨ op = 0x49 then d == 0 && ga && bits 6 6 m == 0
  else if op = 0x4A then bits 7 5 m == 0 && (if bits 6 1 m = 1 then d < 8 else gd)
  else if op = 0x4C then d < 2 && a == 0 && b == 0 && f == 0
  else if op = 0x4D then d < 8 && a < 2 && b < 2 && f < 4
  else if op = 0x50 then
    if f = 0 then d < 2 && a < 2 && gb
    else if f = 1 then gd && a < 2 && b < 2
    else if f = 2 then d < 2 && a < 2
    else if f = 3 ∨ f = 4 then gd && a < 2
    else f == 5 && d < 2 && ga && gb
  else op == 0x60 && a == 0 && d == 0

/-- A program passes the check. -/
def progLegal : Nat → List Nat → Bool
  | _, [] => true
  | k, w :: t => szLegal k w && progLegal (k + 1) t

/-- All 24 programs of a bank of pair `pr` pass the check (R224). -/
def State.bankLegal (s : State) (pr : Nat) (bankB : Bool) : Bool :=
  (List.range 12).all (fun k => progLegal 0 (s.program (12 * pr + k) false bankB) &&
    progLegal 0 (s.program (12 * pr + k) true bankB))

/-- CHK_A and CHK_B of a pair are kept current (R224). -/
def State.chkSync (s : State) (pr : Nat) : State :=
  (s.wr (.core .PAIR_CTL_CHK_A) pr (s.bankLegal pr false).toNat).wr (.core .PAIR_CTL_CHK_B) pr (s.bankLegal pr true).toNat

/-- A requester that is the host: over PCIe, or its management controller over I2C (log entry 41). -/
def isHost (r : Req) : Bool := r = .host ∨ r = .i2c

/-- Word `k` of a program is written (R223): refused in the bank in effect, and for the host outside SERVICE. -/
def State.progWrite (s : State) (r : Req) (c : Nat) (eg bankB : Bool) (k w : Nat) : State :=
  let pr := cellPair c
  if s.on (.core .PAIR_CTL_BANK_APPLIED) pr = bankB ∨ (isHost r ∧ s.mode ≠ modeService) then
    s.wr (.core .PAIR_CTL_CFG_REFUSED) pr 1
  else (s.wr (insnFld eg bankB) (24 * c + k) w).chkSync pr

/-- PROGRAM_WORD_WRITE (R223, R224). -/
def execProgramWordWrite (r : Req) (c : Fin 96) (eg bankB : Bool) (k : Fin 24) (w : BitVec 32) (s : State) :
    Host.Outcome State Fault Refusal :=
  .next (s.writeTo r .PAIR (cellPair c) (fun s => s.progWrite r c eg bankB k w.toNat))

/-! ## The run of a program -/

/-- One word executes on a track (Table 9.9). A word the check would refuse is counted in PROG_FAULT; a bank in effect holds
none. -/
def State.cellWord (s : State) (c : Fin 96) (eg : Bool) (w : Nat) : State :=
  let x : Issue := ⟨.cell c eg, false⟩
  let op := bits 0 7 w
  let f := bits 25 7 w
  let i := iOf w
  let r := rOf w
  if ¬ szLegal 0 w then s.progFault x.core
  else if op = 0x00 then s.tzAlu x f r
  else if op ≤ 0x04 then s.tzAluI x op i
  else if op = 0x05 then s.tzShiftI x (bits 26 2 w) { i with imm := i.imm &&& 0xF3F }
  else if op = 0x06 then s.tzLui x (jOf w)
  else if op = 0x07 then s.tzCmp x f r
  else if op = 0x08 then s.tzCmpi x i
  else if op = 0x09 then (if f < 4 then s.tzPred x f r else s.tzPmov x f r)
  else if op = 0x0A then s.tzBf x (bits 31 1 w) i
  else if op = 0x40 then s.tzFext x false i
  else if op = 0x41 then s.tzFins x i
  else if op = 0x42 then s.tzFcsum x f r
  else if op = 0x43 then s.tzFcfadd x f r
  else if op = 0x44 then s.tzMdld x i
  else if op = 0x45 then s.tzMdst x i
  else if op = 0x46 then s.tzFwin x i
  else if op = 0x48 then s.tzLk x 0 i
  else if op = 0x49 then s.tzLk x 1 i
  else if op = 0x4A then s.tzLkres x i
  else if op = 0x4C then s.tzTnow x r
  else if op = 0x4D then s.tzTcmp x f r
  else if op = 0x50 then
    if f = 0 then s.tzTadd x r else if f = 1 then s.tzTsub x r else if f = 5 then s.tzTset x r else s.tzTmov x f r
  else if op = 0x60 then s.tzEvraise x i
  else s

/-- A program runs: `pass` words are still to be passed over by a skip, which itself acts only under its predicate
(R313). -/
def State.cellProg (s : State) (c : Fin 96) (eg : Bool) : Nat → List Nat → State
  | _, [] => s
  | pass + 1, _ :: t => s.cellProg c eg pass t
  | 0, w :: t =>
    if bits 0 7 w = 0x13 then
      s.cellProg c eg (if s.p (.cell c eg) (bits 17 3 w) % 2 = 1 then bits 20 12 w else 0) t
    else (s.cellWord c eg w).cellProg c eg 0 t

/-- The registers of a track are cleared at the entry of its stage (R312). -/
def State.clearCell (s : State) (c : Fin 96) (eg : Bool) : State :=
  { s with treg := s.treg.filter (fun e => e.1.1 != coreNo (.cell c eg)) }

/-- A frame passes one stage: in, its program, out. -/
def State.stage (s : State) (c : Fin 96) (eg : Bool) (t : Track) : Track × State :=
  let k := trackNo c eg
  let s := (s.clearCell c eg).setTrack k t
  let s := s.cellProg c eg 0 (s.program c eg (mdBANK.get t.md == 1))
  (s.track k, s.setTrack k {})

/-- A frame passes the 12 stages of a pipeline of pair `pr` (R217, R218). -/
def State.pipeline (s : State) (pr : Nat) (eg : Bool) (t : Track) : Track × State :=
  (List.range 12).foldl (fun (a : Track × State) k => a.2.stage (Fin.ofNat 96 (12 * pr + k)) eg a.1) (t, s)

end Sys2Proof.Machine
end

