-- ==== Sys2Proof/Machine/PortLink.lean ====
section
/-! DEFINITION. Delay validity of a port (Table 4.6), the port state machine (Table 7.4, R250-R252), and the ends of frames
that a lost link brings. -/

namespace Sys2Proof.Machine

/-! ## Delay validity (R140-R142) -/

/-- ASYM_SRC codes (Table 4.10). -/
def srcMODEL : Nat := 0
def srcSURVEY : Nat := 1
def srcENTERED : Nat := 2

/-- The dispersion model of R132: ASYM and ASYM_U from RT, wavelengths and fibre constants, rounded to the nearest 2^-16 ns
(log entry 30). -/
def State.modelAsym (s : State) (p : Nat) : State :=
  let rt : Int := s.rd (.lane .RT) p
  let tg := s.rd (.lane .FIBRE_TG) p
  let lo := s.rd (.lane .OP_LAMBDA_OUT) p
  let li := s.rd (.lane .OP_LAMBDA_IN) p
  let u : Int := divRound (250 * rt) (160 * tg)
  let s := s.wr (.lane .DLY_STAT_ASYM_SRC) p srcMODEL
  if lo = 0 ∨ li = 0 then (s.wrS (.lane .ASYM) p 0).wrS (.lane .ASYM_U) p (max u 16384)
  else
    let xo : Int := (lo : Int) - 15500000
    let xi : Int := (li : Int) - 15500000
    let k : Int := 200000 * (s.rd (.lane .FIBRE_D) p : Int) * (xo - xi) + (s.rd (.lane .FIBRE_S) p : Int) * (xo * xo - xi * xi)
    (s.wrS (.lane .ASYM) p (divRound (-(rt * k)) (8000000000000 * tg))).wrS (.lane .ASYM_U) p u

/-- ASYM follows the model while it is the source (R132). -/
def State.modelFollow (s : State) (p : Nat) : State :=
  if s.rd (.lane .DLY_STAT_ASYM_SRC) p = srcMODEL then s.modelAsym p else s

/-- DLY_VALID becomes 0 for a cause of Table 4.6; causes 2-4 discard the tracked round trip (R142). A check that runs is
given up. -/
def State.dlyInvalid (s : State) (p cause : Nat) : State :=
  let was := s.on (.lane .DLY_STAT_DLY_VALID) p
  let s := s.wr (.lane .DLY_STAT_DLY_VALID) p 0
  let s := s.wr (.lane .DLY_STAT_CAUSE) p cause
  let s := (s.wr (.lane .DLY_STAT_CHECKING) p 0).setH .chkStage p 0
  let s := if 2 ≤ cause ∧ cause ≤ 4 then (((s.wr (.lane .RT) p 0).setH .rtTracked p 0).setRts p []).modelFollow p else s
  if was then s.raiseP .LANE_DELAY_VALID p cause else s

/-- DLY_VALID becomes 1 (Table 4.6). -/
def State.dlyValid (s : State) (p : Nat) : State :=
  let was := s.on (.lane .DLY_STAT_DLY_VALID) p
  let s := s.wr (.lane .DLY_STAT_DLY_VALID) p 1
  if was then s else s.raiseP .LANE_DELAY_VALID p (s.rd (.lane .DLY_STAT_CAUSE) p)

/-! ## Fixed delays (R118-R121) -/

/-- Almanac sets of the variant, and the spacing of their temperatures in °C (Table 4.3). -/
def almCount (v : Variant) : Nat × Nat := if v = .x then (17, 10) else (5, 40)

/-- Temperature of set k in 1/16 °C. -/
def almTemp (v : Variant) (k : Nat) : Int := 16 * (((almCount v).2 * k : Nat) - 40)

/-- The valid sets, in rising order (R120): one that failed its check is skipped on JT72-X. -/
def State.almValid (s : State) : List Nat :=
  (List.range (almCount s.variant).1).filter (fun k => !(s.variant == .x && bit k (s.h .almBad)))

/-- Sensor of lane n (R119). -/
def laneSensor (n : Nat) : Nat := if n < 64 then n / 4 else if n < 68 then 16 else if n < 72 then 17 else 18

/-- The mode whose fixed delays lane n uses: a member lane's is its port's. -/
def State.fixMode (s : State) (n : Nat) : Nat :=
  let m := s.rd (.lane .STATUS_EFF_MODE) n
  if m = 8 then s.rd (.lane .STATUS_EFF_MODE) (s.h .laneOwner n - 1) else m

/-- Fixed delay of lane n in set k; 0 with the lane OFF. -/
def State.fixAt (s : State) (n k : Nat) (tx : Bool) : Int :=
  if s.fixMode n = 0 then 0 else (Config.almFix n (s.fixMode n) k tx (s.h .almImg k) % 2 ^ 24 : Nat)

/-- Fixed delay of lane n at a temperature, between sets `lo` and `hi`, rounded to the nearest (R119). -/
def State.fixBetween (s : State) (n lo hi : Nat) (t : Int) (tx : Bool) : Nat :=
  let a := s.fixAt n lo tx
  let b := s.fixAt n hi tx
  let ta := almTemp s.variant lo
  let tb := almTemp s.variant hi
  (if lo = hi then a else a + divRound ((b - a) * (t - ta)) (tb - ta).toNat).toNat

/-- The delays of lane n are taken between Almanac sets lo and hi at temperature t (R119, R121). -/
def State.calPut (s : State) (n : Nat) (t : Int) (lo hi : Nat) (deg extrap : Bool) : State :=
  let s := (s.wr (.lane .CAL_SET_LO) n lo).wr (.lane .CAL_SET_HI) n hi
  let s := (s.wr (.lane .CAL_DEG) n deg.toNat).wr (.lane .CAL_EXTRAP) n extrap.toNat
  let s := s.wr (.lane .CAL_NONE) n 0
  (s.wr (.lane .FIX_RX_A) n (s.fixBetween n lo hi t false)).wr (.lane .FIX_TX_A) n (s.fixBetween n lo hi t true)

/-- The fixed delays of lane n are evaluated at the present temperature (R119, R121). With no valid set CAL_NONE is set,
the delays read 0 and the port's delay validity is cleared (Table 4.6, CAUSE 4). -/
def State.calEval (s : State) (n : Nat) : State :=
  let t := s.rdS (.ree .TEMP_T) (laneSensor n)
  let step : Int := 16 * (almCount s.variant).2
  let v := s.variant
  let s := (s.setH .calTemp n (1 + s.rd (.ree .TEMP_T) (laneSensor n))).wrS (.lane .CAL_TEMP) n (t / 16)
  let below := (s.almValid.filter (fun k => decide (almTemp v k ≤ t))).getLast?
  let above := (s.almValid.filter (fun k => decide (t ≤ almTemp v k))).head?
  match below, above with
  | some lo, some hi => s.calPut n t lo hi (decide (2 * step < almTemp v hi - almTemp v lo)) false
  | some k, none => s.calPut n t k k (decide (step < t - almTemp v k)) true
  | none, some k => s.calPut n t k k (decide (step < almTemp v k - t)) true
  | none, none =>
    let was := s.on (.lane .CAL_NONE) n
    let s := ((s.wr (.lane .CAL_NONE) n 1).wr (.lane .CAL_DEG) n 0).wr (.lane .CAL_EXTRAP) n 0
    let s := (s.wr (.lane .FIX_RX_A) n 0).wr (.lane .FIX_TX_A) n 0
    if n < 72 ∧ ¬ was then s.dlyInvalid n 4 else s

/-- A port delay check begins (R142): its first step waits for ALIGN_VALID and 100 ms. -/
def State.checkStart (s : State) (p : Nat) : State :=
  (s.wr (.lane .DLY_STAT_CHECKING) p 1).setH .chkStage p 1

/-- The delay check that starts by itself on link up (Table 4.6). -/
def State.autoCheck (s : State) (p : Nat) : State :=
  if s.on (.lane .DLY_CFG_AUTO_CHECK) p then s.checkStart p else s

/-! ## Survey failure (Table 4.4) -/

/-- Port under survey. -/
def State.survPort (s : State) : Nat := s.rd (.surv .CTL_PORT) 0

/-- The survey has ended: slot 3 returns to STOP (R433). -/
def State.wghFree (s : State) : State := if s.rd (.wgh .SLOT_RUNSTATE) 3 = 2 then s.wr (.wgh .SLOT_RUNSTATE) 3 0 else s

/-- A running survey goes to FAIL with an error and so to IDLE; pair A is restored, ASYM stays (Table 4.4). -/
def State.survFail (s : State) (err : Nat) : State :=
  let s := s.wr (.surv .STATUS_ERR) 0 err
  let s := s.wr (.surv .STATUS_FAIL) 0 1
  let s := s.wr (.surv .STATUS_STATE) 0 0
  let s := s.wr (.surv .CTL_START) 0 0
  let s := ((s.setH .survKind 0 0).setH .survPair 0 0).setH .survPhase 0 0
  s.wghFree.raiseP .LANE_SURVEY_FAIL s.survPort

/-- A survey of kind 1 or 2 runs (Table 4.4, R127). -/
def State.survRuns (s : State) : Bool := s.h .survKind != 0

/-- Link down on the port of a running survey takes it to FAIL with ERR = LINK; phase 1 of a loopback survey runs without
a link (Table 4.4). -/
def State.survLinkDown (s : State) (p : Nat) : State :=
  let s := s.setH .survPeer p 0
  if s.survRuns ∧ s.survPort = p ∧ s.h .survPhase ≠ 1 ∧ s.rd (.surv .STATUS_STATE) 0 ≠ 1 then s.survFail 2 else s

/-! ## Port states (Table 7.4) -/

def pDISABLED : Nat := 0
def pDOWN : Nat := 1
def pUP : Nat := 2
def pDRAINING : Nat := 3
def pHOLDOFF : Nat := 4

/-- PSTATE of port p. -/
def State.pstate (s : State) (p : Nat) : Nat := s.rd (.port .STATUS_PSTATE) p

/-- The link of port p is up: LINK_UP of its first lane, and marker lock on every member lane (R250). -/
def State.linkUp (s : State) (p : Nat) : Bool :=
  let n := if s.rd (.lane .STATUS_EFF_MODE) p = 7 then 4 else if s.rd (.lane .STATUS_EFF_MODE) p = 6 then 2 else 1
  s.on (.lane .STATUS_LINK_UP) p && (n == 1 || (List.range n).all (fun k => s.on (.lane .STATUS_AM_LOCK) (p + k)))

/-- The hold-off timer starts (Table 7.4). -/
def State.holdStart (s : State) (p : Nat) : State :=
  ((s.setH .holdRun p 1).setH .holdDone p 0).setH .holdAt p (s.age + msTicks (s.rd (.port .CTL_HOLDOFF) p))

/-- The hold-off timer is cancelled. -/
def State.holdStop (s : State) (p : Nat) : State := (s.setH .holdRun p 0).setH .holdDone p 0

/-- The port goes UP (Table 7.4): PORT.LINK_UP, and the delay check where AUTO_CHECK = 1. -/
def State.portUp (s : State) (p : Nat) : State :=
  (((s.wr (.port .STATUS_PSTATE) p pUP).holdStop p).raiseP .PORT_LINK_UP p).autoCheck p

/-- The port's queues hold no descriptor. -/
def State.drained (s : State) (p : Nat) : Bool := (List.range 8).all (fun t => (s.queue (8 * p + t)).isEmpty)

/-- The lane's transmit PLL is locked: the quad's for a trunk lane (R41, R43). -/
def State.pllOk (s : State) (n : Nat) : Bool := 64 ≤ n || s.on (.quad .CTL_PLL_LOCK) (n / 4)

/-- TX_IDLE_ST follows R50: idle while the mode is OFF, while TX_IDLE = 1 in a raw mode, while a twin lane is held idle by
Table 2.6, and until the PLL is locked (R43, R51). -/
def State.txSync (s : State) (n : Nat) : State :=
  let m := s.rd (.lane .STATUS_EFF_MODE) n
  let ts := s.rd (.lane .TWIN_TSTATE) n
  let idle := m = 0 ∨ ((m = 9 ∨ m = 10) ∧ s.on (.lane .CTL_TX_IDLE) n) ∨ (m = 11 ∧ (ts = 0 ∨ ts = 3)) ∨ ¬ s.pllOk n
  s.wr (.lane .STATUS_TX_IDLE_ST) n (if idle then 1 else 0)

/-- The mode and FEC carry alignment or codeword markers (Table 4.2). -/
def hasMarkers (m fec : Nat) : Bool := (4 ≤ m && m ≤ 7) || (m == 3 && fec == 2)

/-- A lane's new mode starts: EFF_MODE, the port's RATE and the transmitter follow; the receiver starts afresh (R37, R50). -/
def State.laneApply (s : State) (n : Nat) : State :=
  let m := s.rd (.lane .CTL_MODE) n
  let s := s.wr (.lane .STATUS_EFF_MODE) n m
  let s := s.wrAll [.lane .STATUS_CDR_LOCK, .lane .STATUS_BLOCK_LOCK, .lane .STATUS_AM_LOCK, .lane .STATUS_FEC_LOCK,
    .lane .STATUS_LINK_UP, .lane .STATUS_AN_DONE, .lane .STATUS_LT_DONE, .lane .ALIGN_VALID, .lane .TERM_RX_TERM_VALID,
    .lane .TERM_TX_TERM_VALID, .lane .PHASE_PH_VALID, .lane .EYE_VALID, .lane .RESID_VALID] n 0
  let s := (s.txSync n).calEval n
  if n < 72 then s.wr (.port .STATUS_RATE) n (if 1 ≤ m ∧ m ≤ 7 then m else 0) else s

/-- The lanes of the quad that lane n's new mode concerns: itself and the members of its old and new port (R36). -/
def State.modeLanes (s : State) (n : Nat) : List Nat :=
  n :: (List.range 74).filter (fun k => decide (n < k ∧ k / 4 = n / 4 ∧ n < 64) &&
    ((s.rd (.lane .CTL_MODE) k == 8 && s.h .laneOwner k == n + 1) ||
     (s.rd (.lane .CTL_MODE) k == 0 && s.rd (.lane .STATUS_EFF_MODE) k == 8)))

/-- A mode that waited for the port to leave DRAINING starts (R37). -/
def State.modeStart (s : State) (p : Nat) : State :=
  if s.h .modeWait p = 1 then (s.modeLanes p).foldl (fun s n => s.laneApply n) (s.setH .modeWait p 0) else s

/-- The flush is complete and the port leaves DRAINING (Table 7.4, R37). -/
def State.drainDone (s : State) (p : Nat) : State :=
  let s := s.raiseP .PORT_DRAIN_DONE p
  let s := if ¬ s.on (.port .CTL_EN) p then (s.wr (.port .STATUS_PSTATE) p pDISABLED).holdStop p
    else if ¬ s.linkUp p then (s.wr (.port .STATUS_PSTATE) p pDOWN).holdStop p
    else if s.h .holdDone p = 1 then s.portUp p
    else s.wr (.port .STATUS_PSTATE) p pHOLDOFF
  s.modeStart p

/-- The frame in transmission is truncated and stomped, TX_TRUNC + 1 (Table 7.4). -/
def State.truncate (s : State) (p : Nat) : State :=
  match s.txOf p with
  | none => s
  | some _ => (s.stompTx p).count (.port .CNT_TX_TRUNC) p

/-- The port starts DRAINING (Table 7.4): truncation, flush, delay validity. -/
def State.drainStart (s : State) (p : Nat) : State :=
  let s := s.truncate p
  let s := s.wr (.port .STATUS_PSTATE) p pDRAINING
  let s := s.setH .linkDownAt p s.age
  let s := s.dlyInvalid p 1
  let s := (s.failRx p 3).survLinkDown p
  if s.drained p then s.drainDone p else s

/-- Link down on port p (Table 7.4). `lock`: block lock is lost too, which makes the alignment invalid (R56). -/
def State.linkDown (s : State) (p : Nat) (lock : Bool) : State :=
  let s := s.wr (.lane .STATUS_LINK_UP) p 0
  let s := if lock then s.wrAll [.lane .STATUS_BLOCK_LOCK, .lane .STATUS_AM_LOCK, .lane .STATUS_FEC_LOCK, .lane .ALIGN_VALID,
    .lane .TERM_RX_TERM_VALID, .lane .TERM_TX_TERM_VALID] p 0 else s
  if s.pstate p = pUP then ((s.holdStop p).raiseP .PORT_LINK_DOWN p).drainStart p
  else if s.pstate p = pHOLDOFF then (((s.holdStop p).wr (.port .STATUS_PSTATE) p pDOWN).failRx p 3).survLinkDown p
  else if s.pstate p = pDRAINING then s.holdStop p
  else (s.failRx p 3).survLinkDown p

/-- LINK_DOWN (R250). -/
def execLinkDown (p : Fin 72) (lock : Bool) (s : State) : Host.Outcome State Fault Refusal :=
  .next (s.inUnit .PORT p (fun s => s.when (s.on (.lane .STATUS_LINK_UP) p) (fun s => s.linkDown p lock)))

/-- A lane can have its link up: an Ethernet mode in effect, CDR lock, and no negotiation mismatch (R39, R43). -/
def State.linkCan (s : State) (n : Nat) : Bool :=
  1 ≤ s.rd (.lane .STATUS_EFF_MODE) n && s.rd (.lane .STATUS_EFF_MODE) n ≤ 7 && s.on (.lane .STATUS_CDR_LOCK) n &&
  !(s.on (.lane .CTL_MEDIUM) n && s.on (.lane .STATUS_AN_MISMATCH) n)

/-- The lanes of port p. -/
def State.portLanes (s : State) (p : Nat) : List Nat :=
  (List.range (if s.rd (.lane .STATUS_EFF_MODE) p = 7 then 4 else if s.rd (.lane .STATUS_EFF_MODE) p = 6 then 2 else 1)).map
    (fun k => p + k)

/-- The link of port p is up (Table 7.4). At a link start the transmitter chooses its word offset and gearbox slot, which
no rule gives (Table 4.1). -/
def State.linkRise (s : State) (p : Nat) : State :=
  let m := s.rd (.lane .STATUS_EFF_MODE) p
  let s := (s.portLanes p).foldl (fun s n =>
    let s := ((s.wr (.lane .STATUS_BLOCK_LOCK) n 1).wr (.lane .STATUS_SIG_DET) n 1).wr (.lane .STATUS_AM_LOCK) n
      (if hasMarkers m (s.rd (.lane .CTL_FEC) p) then 1 else 0)
    let s := s.wr (.lane .STATUS_FEC_LOCK) n (if s.rd (.lane .CTL_FEC) p = 0 then 0 else 1)
    let s := if s.on (.lane .CTL_MEDIUM) p then s.wr (.lane .STATUS_LT_DONE) n 1 else s
    let s := (s.setH .txWord n (s.freeVal 6)).nextFree
    (s.setH .txGbx n (s.freeVal 5)).nextFree) s
  let s := (s.wr (.lane .STATUS_LINK_UP) p 1).setH .linkGap p (s.age - s.h .linkDownAt p)
  if s.pstate p = pDOWN then (s.wr (.port .STATUS_PSTATE) p pHOLDOFF).holdStart p
  else if s.pstate p = pDRAINING then s.holdStart p
  else s

/-- LINK_UP (R250). -/
def execLinkUp (p : Fin 72) (s : State) : Host.Outcome State Fault Refusal :=
  .next (s.inUnit .PORT p (fun s => s.when (s.linkCan p && !s.on (.lane .STATUS_LINK_UP) p) (fun s => s.linkRise p)))

/-- The hold-off timer reaches HOLDOFF ms (Table 7.4). -/
def State.holdExpire (s : State) (p : Nat) : State :=
  if s.h .holdRun p = 0 then s
  else
    let s := s.passAge (s.h .holdAt p)
    if s.pstate p = pHOLDOFF then s.portUp p
    else if s.pstate p = pDRAINING then (s.setH .holdRun p 0).setH .holdDone p 1
    else s

/-- HOLDOFF_EXPIRY (R250). -/
def execHoldoffExpiry (p : Fin 72) (s : State) : Host.Outcome State Fault Refusal :=
  .next (s.inUnit .PORT p (fun s => s.holdExpire p))

/-- Slice of a port. -/
def portSlice (p : Nat) : Nat := if p < 64 then p / 8 else p - 64

/-- PORT_CTL.EN is written (Table 7.4); EN of a port whose slice has an unusable pair is refused (Table 14.11). -/
def State.portEnWrite (s : State) (p : Nat) (v : Bool) : State :=
  if v then
    if bit (portSlice p) (s.h .pairBad) then s.wr (.port .CTL_CFG_REFUSED) p 1
    else
      let s := s.wr (.port .CTL_EN) p 1
      if s.pstate p ≠ pDISABLED then s
      else if s.linkUp p then (s.wr (.port .STATUS_PSTATE) p pHOLDOFF).holdStart p
      else s.wr (.port .STATUS_PSTATE) p pDOWN
  else
    let s := s.wr (.port .CTL_EN) p 0
    if s.pstate p = pUP ∨ s.pstate p = pHOLDOFF ∨ s.pstate p = pDOWN then (s.holdStop p).drainStart p else s

/-- PORT_EN_WRITE (R250). -/
def execPortEnWrite (r : Req) (p : Fin 72) (v : Bool) (s : State) : Host.Outcome State Fault Refusal :=
  .next (s.writeTo r .PORT p (fun s => s.portEnWrite p v))

/-- The ports of a slice, in order. -/
def slicePorts (sl : Nat) : List Nat := (List.range 8).map (fun k => 8 * sl + k) ++ [64 + sl]

/-- The draining port of a slice whose turn it is: the first after the last one served (R252). -/
def State.flushPort (s : State) (sl : Nat) : Option Nat :=
  let order := (List.range 9).map (fun k => (slicePorts sl).getD ((s.h .flushNext sl + k) % 9) 0)
  order.find? (fun p => s.pstate p == pDRAINING && !s.drained p)

/-- One descriptor of a draining port is returned, its lowest-numbered queue first (log entry 31); when the queues hold
none the flush is complete (R252). -/
def State.flushOne (s : State) (p : Nat) : State :=
  match (List.range 8).find? (fun t => !(s.queue (8 * p + t)).isEmpty) with
  | none => s
  | some t =>
    match s.queue (8 * p + t) with
    | [] => s
    | d :: q =>
      let s := (s.setQueue (8 * p + t) q).drop1 d.handle
      if s.drained p then s.drainDone p else s

/-- FLUSH_STEP (R252): one market cycle of the egress pipeline of slice `sl`. -/
def execFlushStep (sl : Fin 8) (s : State) : Host.Outcome State Fault Refusal :=
  .next (s.inDom .core (fun s => match s.flushPort sl with
    | none => s
    | some p => (s.setH .flushNext sl ((if p < 64 then p % 8 else 8) + 1)).flushOne p))

end Sys2Proof.Machine
end

