-- ==== Sys2Proof/Machine/Lane.lean ====
section
/-! DEFINITION. Lanes, quads and module masters (chapter 2): lane modes, equaliser and raw-rate writes, the quad PLL,
electrical idle, bit-slip, alignment reports, eye scans, twin-lane bring-up and CMIS transactions. -/

namespace Sys2Proof.Machine

/-! ## Lane kinds and modes (Tables 2.1-2.3) -/

/-- Trunk lane. -/
def isTrunk (n : Nat) : Bool := n < 64
/-- Spur lane. -/
def isSpur (n : Nat) : Bool := 64 ≤ n && n < 72
/-- Twin lane. -/
def isTwin (n : Nat) : Bool := 72 ≤ n

/-- The mode is allowed on the lane (Table 2.2). -/
def modeOnLane (n m : Nat) : Bool :=
  if m = 0 then true
  else if isTwin n then m == 11
  else if isSpur n then (1 ≤ m && m ≤ 3) || m == 9
  else (1 ≤ m && m ≤ 5) || (m == 6 && n % 2 == 0) || (m == 7 && n % 4 == 0) || m == 9 || m == 10

/-- The FEC choice is allowed in the mode (Table 2.2); OFF takes 0. -/
def fecOk (m fec : Nat) : Bool :=
  if m = 2 then fec ≤ 1 else if m = 3 then fec ≤ 2 else if 4 ≤ m ∧ m ≤ 7 then fec == 3 else fec == 0

/-- Lanes per port of a mode (Table 2.2). -/
def modeWidth (m : Nat) : Nat := if m = 6 then 2 else if m = 7 then 4 else 1

/-- Quad family of a mode (Tables 2.2, 2.3). -/
def modeFamily (m : Nat) : Nat := if 4 ≤ m ∧ m ≤ 7 then 0 else if m = 2 ∨ m = 3 then 1 else if m = 1 then 2 else 3

/-- Divider of a DIV code (Table 2.10). -/
def divOf (c : Nat) : Nat := [1, 2, 4, 5, 8, 10, 16, 20, 40].getD c 1

/-- A spur lane's raw symbol rate is within 25.781 25 GBd (R44), VCO in 1/16 MHz. -/
def spurRateOk (vco div : Nat) : Bool := vco ≤ 412500 * divOf div

/-- The first lane of the port lane n belongs to (R36). -/
def State.lanePort (s : State) (n : Nat) : Nat :=
  if s.rd (.lane .CTL_MODE) n = 8 then s.h .laneOwner n - 1 else n

/-- A LANE_CTL write of MODE, FEC and MEDIUM is acceptable (R35, R36, R38, R41, R44). -/
def State.modeOk (s : State) (n m fec : Nat) (medium : Bool) : Bool :=
  modeOnLane n m && fecOk m fec && !(medium && (m == 0 || 8 ≤ m)) &&
  (List.range (modeWidth m - 1)).all (fun k =>
    s.rd (.lane .CTL_MODE) (n + k + 1) == 0 ||
    (s.rd (.lane .CTL_MODE) (n + k + 1) == 8 && s.h .laneOwner (n + k + 1) == n + 1)) &&
  (m == 0 || !isTrunk n || !bit (n / 4) (s.h .quadBad)) &&
  (m == 0 || !isTrunk n || s.rd (.quad .CTL_FAMILY) (n / 4) == modeFamily m) &&
  (!(isSpur n && m == 9) || spurRateOk (s.rd (.lane .RAW_VCO) n) (s.rd (.lane .RAW_DIV) n))

/-- A refused lane configuration: CFG_REFUSED, and LANE.MODE_REFUSED on the lane's port (R35). -/
def State.modeRefused (s : State) (n : Nat) : State :=
  (s.wr (.lane .CTL_CFG_REFUSED) n 1).raiseP .LANE_MODE_REFUSED (s.lanePort n)

/-- The quad PLL is powered down when its four lanes are OFF (R43). -/
def State.pllCheck (s : State) (q : Nat) : State :=
  if (List.range 4).all (fun k => s.rd (.lane .CTL_MODE) (4 * q + k) == 0) then s.wr (.quad .CTL_PLL_LOCK) q 0 else s

/-- Twin-lane bring-up follows a MODE write (Table 2.6): OFF clears failures and exclusions, TWIN goes to BASE. -/
def State.twinModeSet (s : State) (n m : Nat) : State :=
  let s := (s.setH .offerRate n 0).setH .offerCnt n 0
  let s := s.wr (.lane .TWIN_CUR_RATE) n 0
  if m = 0 then s.wrAll [.lane .TWIN_TSTATE, .lane .TWIN_FAIL1, .lane .TWIN_FAIL2] n 0 else s.wr (.lane .TWIN_TSTATE) n 1

/-- Former members of lane n's port go to OFF, new ones read MODE 8 (R36). -/
def State.setMembers (s : State) (n m : Nat) : State :=
  let old := (List.range 74).filter (fun k => s.rd (.lane .CTL_MODE) k == 8 && s.h .laneOwner k == n + 1)
  let s := old.foldl (fun s k => ((s.wr (.lane .CTL_MODE) k 0).wr (.lane .CTL_FEC) k 0).setH .laneOwner k 0) s
  (List.range (modeWidth m - 1)).foldl (fun s i =>
    ((s.wr (.lane .CTL_MODE) (n + i + 1) 8).wr (.lane .CTL_FEC) (n + i + 1) 0).setH .laneOwner (n + i + 1) (n + 1)) s

/-- An accepted configuration takes effect: the slip is abandoned, delay validity goes (Table 4.6), an up port first goes
through DRAINING, and otherwise the mode starts at once (R37). -/
def State.modeSet (s : State) (n m fec : Nat) (medium : Bool) : State :=
  let changed := s.rd (.lane .CTL_MODE) n ≠ m ∨ s.rd (.lane .CTL_FEC) n ≠ fec
  let s := s.setMembers n m
  let s := ((s.wr (.lane .CTL_MODE) n m).wr (.lane .CTL_FEC) n fec).wr (.lane .CTL_MEDIUM) n medium.toNat
  let s := (s.wr (.lane .SLIP_BUSY) n 0).setH .slipBits n 0
  let s := if isTwin n then s.twinModeSet n m else s
  let s := if isTrunk n then s.pllCheck (n / 4) else s
  if 72 ≤ n then s.laneApply n
  else
    let s := if changed then s.dlyInvalid n 2 else s
    if s.pstate n = pUP ∨ s.pstate n = pDRAINING then
      let s := s.setH .modeWait n 1
      if s.on (.lane .STATUS_LINK_UP) n then s.linkDown n true else s
    else
      let s := if s.on (.lane .STATUS_LINK_UP) n then s.linkDown n true else s
      (s.modeLanes n).foldl (fun s k => s.laneApply k) s

/-- MODE, FEC and MEDIUM are written (R35-R38); a write that changes none of them does nothing (R563), a member ignores
MODE and FEC (R36). -/
def State.modeWrite (s : State) (n m fec : Nat) (medium : Bool) : State :=
  let med := s.on (.lane .CTL_MEDIUM) n
  if s.rd (.lane .CTL_MODE) n = 8 then
    if medium = med then s else if medium then s.modeRefused n else s.wr (.lane .CTL_MEDIUM) n 0
  else if s.rd (.lane .CTL_MODE) n = m ∧ s.rd (.lane .CTL_FEC) n = fec ∧ med = medium then s
  else if s.modeOk n m fec medium then s.modeSet n m fec medium
  else s.modeRefused n

/-- LANE_MODE_WRITE (R35-R38, R44). -/
def execLaneModeWrite (r : Req) (n : Fin 74) (mode : Fin 16) (fec : Fin 4) (medium : Bool) (s : State) :
    Host.Outcome State Fault Refusal :=
  .next (s.writeTo r .LANE n (fun s => s.modeWrite n mode fec medium))

/-! ## Equaliser, raw rate, quad PLL -/

/-- Magnitude of a signed coefficient. -/
def coefAbs (v : Nat) : Nat := (toS 8 v).natAbs

/-- The six coefficients of a 64-bit LANE_TXEQ value; spur and twin lanes have three (R47). -/
def taps (n v : Nat) : List (Fld × Nat) :=
  [(.lane .TXEQ_PRE3, if isTrunk n then bits 0 8 v else 0), (.lane .TXEQ_PRE2, if isTrunk n then bits 8 8 v else 0),
   (.lane .TXEQ_PRE1, bits 16 8 v), (.lane .TXEQ_MAIN, bits 24 8 v), (.lane .TXEQ_POST1, bits 32 8 v),
   (.lane .TXEQ_POST2, if isTrunk n then bits 40 8 v else 0)]

/-- The coefficients are installed, or refused when MAIN is below 16 or their magnitudes sum to more than 64 (R47). -/
def State.txeqWrite (s : State) (n v : Nat) : State :=
  if toS 8 (bits 24 8 v) < 16 ∨ 64 < (taps n v).foldl (fun a t => a + coefAbs t.2) 0 then s.wr (.lane .CTL_CFG_REFUSED) n 1
  else (taps n v).foldl (fun s t => s.wr t.1 n t.2) s

/-- LANE_TXEQ_WRITE (R47): the upper word is written with what the requester's hold register carries (R11). -/
def execLaneTxeqWrite (r : Req) (n : Fin 74) (v : BitVec 64) (s : State) : Host.Outcome State Fault Refusal :=
  .next (s.writeTo r .LANE n (fun s =>
    (s.txeqWrite n v.toNat).holdClear r (Fld.addr (.lane .TXEQ_PRE3) n)))

/-- DIV and VCO are written (R44, Table 2.10): VCO is a spur lane's; neither exists on a twin lane (R68). -/
def State.rawWrite (s : State) (n div vco : Nat) : State :=
  if isTwin n then s
  else
    let divBad := 8 < div
    let vcoBad := isSpur n && !(424000 ≤ vco && vco ≤ 850000)
    let d := if divBad then s.rd (.lane .RAW_DIV) n else div
    let v := if vcoBad ∨ ¬ isSpur n then s.rd (.lane .RAW_VCO) n else vco
    let rateBad := isSpur n && s.rd (.lane .CTL_MODE) n == 9 && !spurRateOk v d
    let s := if divBad ∨ vcoBad ∨ rateBad then s.wr (.lane .CTL_CFG_REFUSED) n 1 else s
    if rateBad then s else (s.wr (.lane .RAW_DIV) n d).wr (.lane .RAW_VCO) n v

/-- LANE_RAW_WRITE (R44). -/
def execLaneRawWrite (r : Req) (n : Fin 74) (div : Fin 16) (vco : BitVec 20) (s : State) : Host.Outcome State Fault Refusal :=
  .next (s.writeTo r .LANE n (fun s => s.rawWrite n div vco.toNat))

/-- FAMILY and VCO are written: refused, each where it changes, while a lane of the quad is not OFF or the VCO is out of
range (R42, R563). -/
def State.quadPllWrite (s : State) (q family vco : Nat) : State :=
  let busy := (List.range 4).any (fun k => s.rd (.lane .CTL_MODE) (4 * q + k) != 0)
  let f := s.rd (.quad .CTL_FAMILY) q
  let v := s.rd (.quad .CTL_VCO) q
  let fBad := family ≠ f ∧ busy
  let vBad := vco ≠ v ∧ (busy ∨ ¬ (424000 ≤ vco ∧ vco ≤ 850000))
  let s := if fBad ∨ vBad then s.wr (.quad .CTL_CFG_REFUSED) q 1 else s
  let s := if fBad then s else s.wr (.quad .CTL_FAMILY) q family
  if vBad then s else s.wr (.quad .CTL_VCO) q vco

/-- QUAD_CTL_WRITE (R42); TX_REF is a shadow (R45, R99). -/
def execQuadCtlWrite (r : Req) (q : Fin 16) (family : Fin 4) (txRef : Bool) (vco : BitVec 20) (s : State) :
    Host.Outcome State Fault Refusal :=
  .next (s.writeTo r .QUAD q (fun s =>
    (s.quadPllWrite q family vco.toNat).shadowSet (.quad .CTL_TX_REF) q txRef.toNat))

/-- The quad PLL locks; its transmitters leave idle where nothing else holds them there (R43, R51). -/
def State.pllLocked (s : State) (q : Nat) : State :=
  if (List.range 4).all (fun k => s.rd (.lane .CTL_MODE) (4 * q + k) == 0) then s
  else (List.range 4).foldl (fun s k => s.txSync (4 * q + k)) (s.wr (.quad .CTL_PLL_LOCK) q 1)

/-- QUAD_PLL_LOCK (R43). -/
def execQuadPllLock (q : Fin 16) (s : State) : Host.Outcome State Fault Refusal :=
  .next (s.inUnit .QUAD q (fun s => s.pllLocked q))

/-! ## Electrical idle (R50-R52) -/

/-- TX_IDLE is written (R50, R51). -/
def State.txIdleWrite (s : State) (n : Nat) (v : Bool) : State := (s.wr (.lane .CTL_TX_IDLE) n v.toNat).txSync n

/-- TX_IDLE_EXIT (R51): TX_IDLE goes to 0; the transmitter sends its burst and then data once the PLL is locked. -/
def execTxIdleExit (r : Req) (n : Fin 74) (s : State) : Host.Outcome State Fault Refusal :=
  .next (s.writeTo r .LANE n (fun s => s.txIdleWrite n false))

/-- The receiver loses its clock: what reads 0 without CDR_LOCK (R52, R56, R111, Table 4.9). -/
def State.cdrLost (s : State) (n : Nat) : State :=
  s.wrAll [.lane .STATUS_CDR_LOCK, .lane .PHASE_PH_VALID, .lane .EYE_VALID, .lane .RESID_VALID] n 0

/-- CDR_LOCK is set when the mode in effect is not OFF and the PLL is locked (R43, R52). Raw and twin lanes have their word
or block lock with it (log entry 32). -/
def State.cdrAcquire (s : State) (n : Nat) : State :=
  let m := s.rd (.lane .STATUS_EFF_MODE) n
  if m = 0 ∨ ¬ s.pllOk n then s
  else
    let s := (s.cdrLost n).wr (.lane .STATUS_CDR_LOCK) n 1
    let s := (s.wr (.lane .STATUS_RX_IDLE) n 0).wr (.lane .STATUS_SIG_DET) n 1
    if m = 9 ∨ m = 10 ∨ m = 11 then s.wr (.lane .STATUS_BLOCK_LOCK) n 1 else s

/-- RX_CDR_ACQUIRE (R52). -/
def execRxCdrAcquire (n : Fin 74) (s : State) : Host.Outcome State Fault Refusal :=
  .next (s.inUnit .LANE n (fun s => s.cdrAcquire n))

/-- The receiver sees electrical idle. -/
def State.rxIdle (s : State) (n : Nat) : State :=
  ((s.cdrLost n).wr (.lane .STATUS_RX_IDLE) n 1).wr (.lane .STATUS_SIG_DET) n 0

/-- RECEIVER_ELECTRICAL_IDLE (R52). -/
def execReceiverElectricalIdle (n : Fin 74) (s : State) : Host.Outcome State Fault Refusal :=
  .next (s.inUnit .LANE n (fun s => s.when (s.rd (.lane .STATUS_EFF_MODE) n != 0) (fun s => s.rxIdle n)))

/-! ## Bit-slip and alignment (R53-R56, R112-R115) -/

/-- The lane runs a raw mode. -/
def State.rawMode (s : State) (n : Nat) : Bool :=
  s.rd (.lane .STATUS_EFF_MODE) n == 9 || s.rd (.lane .STATUS_EFF_MODE) n == 10

/-- A 1 is written to SLIP: accepted in a raw mode while none is in progress (R53, R54). -/
def State.slip (s : State) (n : Nat) : State :=
  if isTwin n then s
  else if s.rawMode n ∧ ¬ s.on (.lane .SLIP_BUSY) n then s.wr (.lane .SLIP_BUSY) n 1
  else s.wr (.lane .SLIP_REFUSED) n 1

/-- SLIP (R53, R54). -/
def execSlip (r : Req) (n : Fin 74) (s : State) : Host.Outcome State Fault Refusal :=
  .next (s.writeTo r .LANE n (fun s => s.slip n))

/-- The slip completes: the boundary lies one bit later, in PAM4 one symbol of two bits, modulo 64 (R53). -/
def State.slipDone (s : State) (n : Nat) : State :=
  let k := if s.rd (.lane .STATUS_EFF_MODE) n = 10 then 2 else 1
  (s.wr (.lane .SLIP_BUSY) n 0).setH .slipBits n ((s.h .slipBits n + k) % 64)

/-- SLIP_DONE (R53). -/
def execSlipDone (n : Fin 74) (s : State) : Host.Outcome State Fault Refusal :=
  .next (s.inUnit .LANE n (fun s => s.when (s.on (.lane .SLIP_BUSY) n) (fun s => s.slipDone n)))

/-- W_OUT of Table 4.2. -/
def wOut (m fec : Nat) : Nat :=
  if m = 1 then 10 else if m = 2 then 66 else if m = 3 then (if fec = 2 then 80 else 66)
  else if 4 ≤ m ∧ m ≤ 7 then 80 else 0

/-- N and K of Table 4.2, none without FEC. -/
def fecNK (fec : Nat) : Option (Nat × Nat) :=
  if fec = 1 then some (2112, 2080) else if fec = 2 then some (5280, 5140) else if fec = 3 then some (5440, 5140) else none

/-- G and P of Table 4.2: given for 100GAUI-1, elsewhere what the mode's clause fixes. -/
def markerGP (m fec : Nat) : Nat × Nat := if m = 5 then (1285, 16384) else Config.markers m fec

/-- The four terms of Table 4.1 in 1/64 UI, receive. -/
def termsRx (m fec word gbx f am : Nat) : Nat × Nat × Nat × Nat :=
  (64 * word, 64 * (gbx * wOut m fec % 64),
   match fecNK fec with | some (n, k) => 64 * f * (n - k) / k | none => 0,
   if hasMarkers m fec then 64 * (markerGP m fec).1 * am / (markerGP m fec).2 else 0)

/-- The four terms of Table 4.1 in 1/64 UI, transmit. -/
def termsTx (m fec word gbx f am : Nat) : Nat × Nat × Nat × Nat :=
  (64 * word, 64 * (gbx * wOut m fec % 64),
   match fecNK fec with | some (n, k) => 64 * (k - f) * (n - k) / k | none => 0,
   if hasMarkers m fec then 64 * (markerGP m fec).1 - 64 * (markerGP m fec).1 * am / (markerGP m fec).2 else 0)

/-- FEC of the lane: the port's first lane holds it. -/
def State.laneFec (s : State) (n : Nat) : Nat := s.rd (.lane .CTL_FEC) (s.lanePort n)

/-- Mode of the lane's port in effect. -/
def State.laneMode (s : State) (n : Nat) : Nat := s.rd (.lane .STATUS_EFF_MODE) (s.lanePort n)

/-- Both sets of terms are published for the reference word (R115). The transmit terms take the published codeword and
marker positions (log entry 33). -/
def State.putTerms (s : State) (n : Nat) : State :=
  let m := s.laneMode n
  let fec := s.laneFec n
  let f := s.rd (.lane .ALIGN_FEC_POS) n
  let am := s.rd (.lane .ALIGN_AM_POS) n
  let r := termsRx m fec (s.rd (.lane .ALIGN_WORD_OFS) n) (s.rd (.lane .ALIGN_GBX_PHASE) n) f am
  let t := termsTx m fec (s.h .txWord n) (s.h .txGbx n) f am
  let v := s.rd (.lane .ALIGN_VALID) n
  let s := (s.wr (.lane .TERM_RX_WORD) n r.1).wr (.lane .TERM_RX_GBX) n r.2.1
  let s := (s.wr (.lane .TERM_RX_FEC) n r.2.2.1).wr (.lane .TERM_RX_AM) n r.2.2.2
  let s := (s.wr (.lane .TERM_TX_WORD) n t.1).wr (.lane .TERM_TX_GBX) n t.2.1
  let s := (s.wr (.lane .TERM_TX_FEC) n t.2.2.1).wr (.lane .TERM_TX_AM) n t.2.2.2
  (s.wr (.lane .TERM_RX_TERM_VALID) n v).wr (.lane .TERM_TX_TERM_VALID) n v

/-- The positions are sampled and published; a change of any advances ALIGN_GEN and, on a port with a timing role, raises
LANE.ALIGN_CHANGE (R55, R56). WORD_OFS of a raw lane is its slip count (R114). -/
def State.alignEvent (s : State) (n word gbx fec am : Nat) : State :=
  let m := s.laneMode n
  let c := s.laneFec n
  let new := [(Fld.lane .ALIGN_WORD_OFS, if s.rawMode n then s.h .slipBits n else word),
    (.lane .ALIGN_GBX_PHASE, if wOut m c = 0 then 0 else gbx),
    (.lane .ALIGN_FEC_POS, if (fecNK c).isSome then fec else 0),
    (.lane .ALIGN_AM_POS, if hasMarkers m c then am else 0)]
  let changed := new.any (fun e => s.rd e.1 n != e.2)
  let s := new.foldl (fun s e => s.wr e.1 n e.2) s
  let s := (s.wr (.lane .ALIGN_VALID) n (s.rd (.lane .STATUS_BLOCK_LOCK) n)).putTerms n
  if ¬ changed then s
  else
    let s := s.bump (.lane .ALIGN_GEN) n
    if s.on (.lane .DLY_STAT_DLY_VALID) (s.lanePort n) then s.raiseP .LANE_ALIGN_CHANGE (s.lanePort n) else s

/-- ALIGNMENT_EVENT (R55, R56). -/
def execAlignmentEvent (n : Fin 74) (word gbx : Fin 64) (fec : BitVec 13) (am : BitVec 15) (s : State) :
    Host.Outcome State Fault Refusal :=
  .next (s.inUnit .LANE n (fun s => s.when (s.rd (.lane .STATUS_EFF_MODE) n != 0)
    (fun s => s.alignEvent n word gbx fec.toNat am.toNat)))

/-! ## Negotiation and eye -/

/-- AN_RESOLVED (R39): a resolved mode that differs from the configured one is a mismatch, until the next negotiation, and
raises LANE.AN_MISMATCH (Table 16.2). -/
def execAnResolved (n : Fin 72) (mode : Fin 16) (s : State) : Host.Outcome State Fault Refusal :=
  .next (s.inUnit .LANE n (fun s =>
    s.when (s.on (.lane .CTL_MEDIUM) n && 1 ≤ s.rd (.lane .STATUS_EFF_MODE) n && s.rd (.lane .STATUS_EFF_MODE) n ≤ 7)
      (fun s =>
        let s := s.wr (.lane .STATUS_AN_DONE) n 1
        if mode.val = s.rd (.lane .STATUS_EFF_MODE) n then s.wr (.lane .STATUS_AN_MISMATCH) n 0
        else (s.wr (.lane .STATUS_AN_MISMATCH) n 1).raiseP .LANE_AN_MISMATCH n)))

/-- EYE_SCAN (R57): while CDR_LOCK = 1 the worst eye is published; EYE_WORST names it in PAM4. -/
def execEyeScan (n : Fin 74) (w : Fin 65) (h : Fin 256) (worst : Fin 4) (s : State) : Host.Outcome State Fault Refusal :=
  .next (s.inUnit .LANE n (fun s => s.when (s.on (.lane .STATUS_CDR_LOCK) n) (fun s =>
    let m := s.laneMode n
    let s := (s.wr (.lane .EYE_W) n w).wr (.lane .EYE_H) n h
    let s := s.wr (.lane .EYE_WORST) n (if (4 ≤ m ∧ m ≤ 7) ∨ m = 10 then worst else 0)
    (s.wr (.lane .EYE_VALID) n 1).setH .eyeAt n s.age)))

/-! ## Twin-lane bring-up (Table 2.6) -/

/-- A rate is excluded after its third failure (R59). -/
def State.rateExcluded (s : State) (n rate : Nat) : Bool :=
  (rate == 1 && s.rd (.lane .TWIN_FAIL1) n == 3) || (rate == 2 && s.rd (.lane .TWIN_FAIL2) n == 3)

/-- The agreed rate: the lower of the two MAX_RATEs, less excluded rates (R59). -/
def State.agreedRate (s : State) (n rate : Nat) : Nat :=
  ((List.range (min rate (s.rd (.lane .TWIN_MAX_RATE) n) + 1)).filter (fun r => !s.rateExcluded n r)).foldl max 0

/-- A twin lane returns to BASE: rate 0, offers counted afresh. -/
def State.twinBase (s : State) (n : Nat) : State :=
  let s := (s.wr (.lane .TWIN_TSTATE) n 1).wr (.lane .TWIN_CUR_RATE) n 0
  let s := ((s.setH .offerRate n 0).setH .offerCnt n 0).wr (.lane .STATUS_BLOCK_LOCK) n 0
  s.txSync n

/-- An OFFER on a twin lane: from BASE two consistent ones lead to STEP or RUN, in STEP the last of the countdown leads to
SWITCH (Table 2.6). -/
def State.offer (s : State) (n rate : Nat) (switch : Bool) (countdown : Nat) : State :=
  let st := s.rd (.lane .TWIN_TSTATE) n
  if st = 1 then
    let c := if s.h .offerRate n = rate + 1 then s.h .offerCnt n + 1 else 1
    let s := (s.setH .offerRate n (rate + 1)).setH .offerCnt n c
    if c < 2 ∨ ¬ s.on (.lane .STATUS_BLOCK_LOCK) n then s
    else
      let a := s.agreedRate n rate
      let s := s.setH .twinRate n a
      if a = 0 then (s.wr (.lane .TWIN_TSTATE) n 4).wr (.lane .TWIN_CUR_RATE) n 0 else s.wr (.lane .TWIN_TSTATE) n 2
  else if st = 2 ∧ switch ∧ countdown = 0 then (s.wr (.lane .TWIN_TSTATE) n 3).txSync n
  else s

/-- OFFER_RECEIVE (R59). -/
def execOfferReceive (t : Fin 2) (rate : Fin 3) (switch : Bool) (countdown : Fin 16) (s : State) :
    Host.Outcome State Fault Refusal :=
  .next (s.inUnit .LANE (72 + t.val) (fun s => s.offer (72 + t.val) rate switch countdown))

/-- TWIN_SWITCH_LOCK (R59): RUN at the agreed rate. -/
def execTwinSwitchLock (t : Fin 2) (s : State) : Host.Outcome State Fault Refusal :=
  let n := 72 + t.val
  .next (s.inUnit .LANE n (fun s => s.when (s.rd (.lane .TWIN_TSTATE) n == 3) (fun s =>
    let s := (s.wr (.lane .TWIN_TSTATE) n 4).wr (.lane .TWIN_CUR_RATE) n (s.h .twinRate n)
    ((s.wr (.lane .STATUS_CDR_LOCK) n 1).wr (.lane .STATUS_BLOCK_LOCK) n 1).txSync n)))

/-- The FAIL count of a rate advances to at most 3, which excludes it (R59). -/
def State.twinFail (s : State) (n rate : Nat) : State :=
  if rate = 1 then s.count (.lane .TWIN_FAIL1) n else if rate = 2 then s.count (.lane .TWIN_FAIL2) n else s

/-- TWIN_SWITCH_TIMEOUT (R59): back to BASE with a failure of the agreed rate. -/
def execTwinSwitchTimeout (t : Fin 2) (s : State) : Host.Outcome State Fault Refusal :=
  let n := 72 + t.val
  .next (s.inUnit .LANE n (fun s => s.when (s.rd (.lane .TWIN_TSTATE) n == 3) (fun s =>
    ((s.twinFail n (s.h .twinRate n)).twinBase n).raise .TWN_RATE_FALLBACK (locLane n))))

/-- TWIN_LOCK_LOSS (R59): from RUN back to BASE, no failure counted. -/
def execTwinLockLoss (t : Fin 2) (s : State) : Host.Outcome State Fault Refusal :=
  let n := 72 + t.val
  .next (s.inUnit .LANE n (fun s => s.when (s.rd (.lane .TWIN_TSTATE) n == 4) (fun s =>
    (s.twinBase n).raise .TWN_RATE_FALLBACK (locLane n))))

/-- A SKIP arrives at elastic-buffer fill `fill`; `slip`: the buffer has overflowed or run empty since the last one (R60). -/
def State.skip (s : State) (n fill : Nat) (slip : Bool) : State :=
  let s := if 12 < fill then s.count (.lane .RM_CNT_DEL) n else if fill < 4 then s.count (.lane .RM_CNT_INS) n else s
  if slip then s.raise .TWN_ELASTIC_SLIP (locLane n) else s

/-- SKIP_BLOCK_RECEIVE (R60). -/
def execSkipBlockReceive (t : Fin 2) (fill : Fin 17) (slip : Bool) (s : State) : Host.Outcome State Fault Refusal :=
  .next (s.inUnit .LANE (72 + t.val) (fun s => s.when (s.rd (.lane .TWIN_TSTATE) (72 + t.val) != 0)
    (fun s => s.skip (72 + t.val) fill slip)))

/-! ## Module masters (R61-R67) -/

/-- Port whose module is in slot `k` of master m (R61). -/
def slotPort (m k : Nat) : Nat := if k = 8 then 64 + m else 8 * m + k
/-- Master and slot of a port. -/
def portSlot (p : Nat) : Nat × Nat := if p < 64 then (p / 8, p % 8) else (p - 64, 8)

/-- A survey or delay check holds the port's module (R65). -/
def State.slotHeld (s : State) (p : Nat) : Bool :=
  (s.survRuns && s.survPort == p) || s.on (.lane .DLY_STAT_CHECKING) p

/-- CMD is written with GO = 1: it starts the transaction, or is refused while busy or with LEN out of range (R64). With
the master off nothing starts (log entry 34). -/
def State.modGo (s : State) (m len : Nat) (write : Bool) : State :=
  if s.on (.mod .STATUS_BUSY) m then s.wr (.mod .STATUS_REFUSED) m 1
  else if len = 0 ∨ 128 < len then s.wr (.mod .STATUS_REFUSED) m 1
  else
    let s := (s.wr (.mod .CMD_LEN) m len).wr (.mod .CMD_WRITE) m write.toNat
    if s.on (.mod .CFG_ENABLE) m then (s.wr (.mod .CMD_GO) m 1).wr (.mod .STATUS_BUSY) m 1 else s

/-- MODULE_GO (R64). -/
def execModuleGo (r : Req) (m : Fin 8) (len : BitVec 8) (write : Bool) (s : State) : Host.Outcome State Fault Refusal :=
  .next (s.writeTo r .MOD m (fun s => s.modGo m len.toNat write))

/-- The master is idle again. -/
def State.modIdle (s : State) (m : Nat) : State := (s.wr (.mod .CMD_GO) m 0).wr (.mod .STATUS_BUSY) m 0

/-- Octets into a master's BUF from byte `k`. -/
def State.modBuf (s : State) (m k : Nat) : List Byte → State
  | [] => s
  | b :: t =>
    let i := 32 * m + k / 4
    (s.wr (.mod .BUF) i (putBits (8 * (k % 4)) 8 b.toNat (s.rd (.mod .BUF) i))).modBuf m (k + 1) t

/-- The host's write touched the tunable-laser page of a port's module: a surveyed ASYM is replaced by the model's
(Table 4.6). -/
def State.laserWritten (s : State) (p : Nat) : State :=
  if s.rd (.lane .DLY_STAT_ASYM_SRC) p = srcSURVEY then (s.modelAsym p).raiseP .LANE_ASYM_APPLIED p else s

/-- The transaction in hand writes page 0x12 in upper memory (R65). -/
def State.modLaser (s : State) (m : Nat) : Bool :=
  s.on (.mod .CMD_WRITE) m && s.rd (.mod .ADDR_PAGE) m == 0x12 && decide (128 < s.rd (.mod .ADDR_OFFSET) m + s.rd (.mod .CMD_LEN) m)

/-- A host transaction ends (R63, R65, R66). -/
def State.modDone (s : State) (m : Nat) (res : ModRes) : State :=
  let p := slotPort m (s.rd (.mod .ADDR_SLOT) m)
  let laser := s.modLaser m
  let s := s.modIdle m
  if laser ∧ s.slotHeld p then s.wr (.mod .STATUS_LOCKED) m 1
  else match res with
    | .nack => s.wr (.mod .STATUS_NACK) m 1
    | .absent => s.wr (.mod .STATUS_ABSENT) m 1
    | .ok data =>
      let s := s.wr (.mod .STATUS_DONE) m 1
      let s := if s.on (.mod .CMD_WRITE) m then s else s.modBuf m 0 (data.take (s.rd (.mod .CMD_LEN) m))
      if laser then s.laserWritten p else s

/-- MODULE_TRANSACTION_DONE (R63). -/
def execModuleTransactionDone (m : Fin 8) (res : ModRes) (s : State) : Host.Outcome State Fault Refusal :=
  .next (s.inUnit .MOD m (fun s => s.when (s.on (.mod .STATUS_BUSY) m) (fun s => s.modDone m res)))

/-- MODULE_TIMEOUT (R66). -/
def execModuleTimeout (m : Fin 8) (s : State) : Host.Outcome State Fault Refusal :=
  .next (s.inUnit .MOD m (fun s => s.when (s.on (.mod .STATUS_BUSY) m)
    (fun s => (s.modIdle m).wr (.mod .STATUS_TIMEOUT) m 1)))

/-- A count of 1 ps in 2^-16 ns, rounded to nearest. -/
def psToQ (ps : Nat) : Nat := (2 * ps * 65536 + 1000) / 2000

/-- The module delays are read over CMIS: the values, or a read that failed (R124). -/
def State.modDelays (s : State) (p : Nat) (r : Option (BitVec 16 × BitVec 16)) : State :=
  match r with
  | none => s.setH .modRead p 0
  | some (tx, rx) =>
    let s := (s.wr (.lane .MOD_TX) p (psToQ tx.toNat)).wr (.lane .MOD_RX) p (psToQ rx.toNat)
    ((s.setH .effModTx p (psToQ tx.toNat)).setH .effModRx p (psToQ rx.toNat)).setH .modRead p 1

/-- A debounced presence change (R67, Table 4.6). `cmis`: what a read of the new module's delays returns. -/
def State.moduleChange (s : State) (p : Nat) (present : Bool) (cmis : Option (BitVec 16 × BitVec 16)) : State :=
  let (m, k) := portSlot p
  let s := s.wr (.lane .STATUS_MOD_PRESENT) p present.toNat
  let s := s.wr (.mod .PRESENT) m (if present then setBit k (s.rd (.mod .PRESENT) m) else clrBit k (s.rd (.mod .PRESENT) m))
  let s := if ¬ present ∧ s.on (.mod .STATUS_BUSY) m ∧ s.rd (.mod .ADDR_SLOT) m = k then
      (s.modIdle m).wr (.mod .STATUS_ABSENT) m 1 else s
  let s := s.raiseP .LANE_MODULE_CHANGE p
  let s := s.dlyInvalid p 3
  let s := if s.rd (.lane .DLY_STAT_ASYM_SRC) p = srcENTERED then s else s.modelAsym p
  let src := s.rd (.lane .DLY_CFG_MOD_SRC) p
  let s := s.setH .modRead p 0
  let s := if src = 1 ∧ present then s.modDelays p cmis else s
  let s := if src = 2 then
      ((s.wrAll [.lane .MOD_TX, .lane .MOD_RX, .lane .DLY_STAT_SPLIT_ASSUMED] p 0).setH .modAwait p 1).setH .effModTx p 0
      |>.setH .effModRx p 0 else s
  if s.pstate p = pUP then s.checkStart p else s

/-- MODULE_CHANGE (R67). -/
def execModuleChange (p : Fin 72) (present : Bool) (cmis : Option (BitVec 16 × BitVec 16)) (s : State) :
    Host.Outcome State Fault Refusal :=
  .next (s.inUnit .LANE p (fun s => s.when (s.on (.lane .STATUS_MOD_PRESENT) p != present)
    (fun s => s.moduleChange p present cmis)))

end Sys2Proof.Machine
end

