-- ==== Sys2Proof/Machine/Gate.lean ====
section
/-! DEFINITION. Time-aware gates (R240-R242) and flow control: PAUSE, PFC and the pause watchdog (R247-R249). -/

namespace Sys2Proof.Machine

/-! ## Rates -/

/-- RATE code of a port (Table 7.13). -/
def State.rate (s : State) (p : Nat) : Nat := s.rd (.port .STATUS_RATE) p

/-- Nominal rate in Gb/s of a RATE code. -/
def gbps (r : Nat) : Nat := [0, 1, 10, 25, 50, 100, 200, 400].getD r 0

/-- Time of `n` bits at a rate code, in 2^-16 ns, rounded up. -/
def bitsU (r n : Nat) : Nat := if gbps r = 0 then 0 else (n * 65536 + gbps r - 1) / gbps r

/-- Ticks of a time in 2^-16 ns, rounded up. -/
def uTicks (u : Nat) : Nat := (u * 5 + 524287) / 524288

/-- GATE_LEAD of port p in ns (R242). -/
def State.gateLead (s : State) (p : Nat) : Nat := min 70 (Config.gateLead (s.rate p))

/-! ## The operating list -/

/-- Interval of operating entry k of port p, in ns. -/
def State.operInt (s : State) (p k : Nat) : Nat := s.rd (.core .OPER_INTERVAL) (256 * p + k)
/-- Gates of operating entry k of port p. -/
def State.operGates (s : State) (p k : Nat) : Nat := s.rd (.core .OPER_GATES) (256 * p + k)

/-- Gates run on port p. -/
def State.gatesOn (s : State) (p : Nat) : Bool := s.on (.core .GATE_OPER_EN) p

/-- The operating list's length and cycle in 2^-16 ns. -/
def State.gateLen (s : State) (p : Nat) : Nat := s.h .gateLen p
/-- The cycle. -/
def State.gateCycU (s : State) (p : Nat) : Nat := s.h .gateCyc p * 65536

/-- The entry in force at offset `o` (2^-16 ns) into a cycle and the offset of its end: the last entry lasts to the cycle's
end, a longer list is cut there (R240). -/
def State.entryAt (s : State) (p o : Nat) : Nat → Nat → Nat → Nat × Nat
  | 0, k, _ => (k, s.gateCycU p)
  | n + 1, k, start =>
    let fin := if n = 0 then s.gateCycU p else min (start + s.operInt p k * 65536) (s.gateCycU p)
    if o < fin then (k, fin) else s.entryAt p o n (k + 1) fin

/-- The entry in force at time `u` (2^-16 ns), and the time of its end; before the base, entry 0 from the base on. -/
def State.gateEntry (s : State) (p u : Nat) : Nat × Nat :=
  let b := u96 (s.h .gateBase p)
  let c := s.gateCycU p
  if u < b ∨ c = 0 then (0, b)
  else
    let o := (u - b) % c
    let e := s.entryAt p o (s.gateLen p) 0 0
    (e.1, u - o + e.2)

/-- The gate states are published: in the port's NOW register and in each queue's (R240). -/
def State.gatePut (s : State) (p k g : Nat) : State :=
  let s := (s.wr (.core .GATE_NOW_ENTRY) p k).wr (.core .GATE_NOW_GATES) p g
  (List.range 8).foldl (fun s t => s.wr (.core .QUEUE_GATE_OPEN) (8 * p + t) (bit t g).toNat) s

/-- Each gate takes the state that the operating list gives for the present time, GATE_LEAD ahead; with OPER_EN = 0 every
gate is open (R240, R242). -/
def State.gateSync (s : State) (p : Nat) : State :=
  if ¬ s.gatesOn p then s.gatePut p 0 0xFF
  else
    let e := s.gateEntry p (s.nowU + s.gateLead p * 65536)
    s.gatePut p e.1 (s.operGates p e.1)

/-- GATE_EDGE (R240, R242): time passes to the next entry boundary of port p, GATE_LEAD ahead of it. -/
def execGateEdge (p : Fin 72) (s : State) : Host.Outcome State Fault Refusal :=
  .next (s.inUnit .GATE p (fun s =>
    if ¬ s.gatesOn p then s
    else
      let lead := s.gateLead p * 65536
      let e := s.gateEntry p (s.nowU + lead)
      (s.passTo (tickAt (e.2 - lead))).gateSync p))

/-- At a commit's T the new admin list waits for its first cycle start at or after T (R241). -/
def State.gateCommit (s : State) (p t : Nat) : State :=
  let b := u96 (s.rdA (.core .GATE_BASE) p)
  let c := s.rdA (.core .GATE_CYCLE) p * 65536
  let n := if t ≤ b ∨ c = 0 then 0 else (t - b + c - 1) / c
  (s.wr (.core .GATE_PEND) p 1).setH .gateAt p (b + n * c)

/-- The admin list becomes the operating list (R241). -/
def State.gateSwap (s : State) (p : Nat) : State :=
  let s := s.wr (.core .GATE_PEND) p 0
  let s := s.wr (.core .GATE_OPER_EN) p (s.rdA (.core .GATE_EN) p)
  let s := s.setH .gateLen p (s.rdA (.core .GATE_LEN) p)
  let s := s.setH .gateCyc p (s.rdA (.core .GATE_CYCLE) p)
  let s := s.setH .gateBase p (s.rdA (.core .GATE_BASE) p)
  let s := (List.range 256).foldl (fun s k =>
    (s.wr (.core .OPER_INTERVAL) (256 * p + k) (s.rdA (.core .ADMIN_INTERVAL) (256 * p + k))).wr (.core .OPER_GATES)
      (256 * p + k) (s.rdA (.core .ADMIN_GATES) (256 * p + k))) s
  s.gateSync p

/-- GATE_LIST_SWAP (R241). -/
def execGateListSwap (p : Fin 72) (s : State) : Host.Outcome State Fault Refusal :=
  .next (s.inUnit .GATE p (fun s =>
    if ¬ s.on (.core .GATE_PEND) p then s
    else (s.passTo (tickAt (s.h .gateAt p - s.gateLead p * 65536))).gateSwap p))

/-- The time at which the gate of queue t of port p next closes, from time `u` on; `none` when no entry closes it
(R238). -/
def State.closeFrom (s : State) (p t : Nat) : Nat → Nat → Option Nat
  | 0, _ => none
  | n + 1, u =>
    let e := s.gateEntry p u
    if bit t (s.operGates p e.1) then s.closeFrom p t n (max e.2 (u + 1)) else some u

/-- The close the guard reckons with: of the operating list, or of a change of list ahead that closes the gate in its first
entry (R238). -/
def State.gateClose (s : State) (p t u : Nat) : Option Nat :=
  let own := if s.gatesOn p then s.closeFrom p t (s.gateLen p + 2) u else none
  if s.on (.core .GATE_PEND) p ∧ s.rdA (.core .GATE_EN) p = 1 ∧ ¬ bit t (s.rdA (.core .ADMIN_GATES) (256 * p)) then
    match own with
    | some c => some (min c (s.h .gateAt p))
    | none => some (s.h .gateAt p)
  else own

/-- A frame of `len` octets started now on queue t of port p completes before its gate closes, with 8 octets of preamble
and 12 of gap (R238). -/
def State.guardOk (s : State) (p t len : Nat) : Bool :=
  let start := s.nowU + s.gateLead p * 65536
  match s.gateClose p t start with
  | none => true
  | some c => start + bitsU (s.rate p) ((len + 20) * 8) ≤ c

/-- The gate of queue t of port p is open. -/
def State.gateOpen (s : State) (p t : Nat) : Bool := s.on (.core .QUEUE_GATE_OPEN) (8 * p + t)

/-! ## Received pauses (R247) -/

/-- Queue q = 8 p + t is paused. -/
def State.paused (s : State) (q : Nat) : Bool := s.on (.core .QUEUE_PAUSED) q

/-- Some class still pauses queue q. -/
def State.pauseRuns (s : State) (q : Nat) : Bool := (List.range 9).any (fun c => s.h .pauseEnd (9 * q + c) != 0)

/-- PAUSED of queue q and of its port follow its classes. -/
def State.pauseSync (s : State) (q : Nat) : State :=
  let on := s.pauseRuns q
  let s := if on && !s.paused q then s.setH .pauseFrom q (s.age + 1) else if on then s else s.setH .pauseFrom q 0
  let s := s.wr (.core .QUEUE_PAUSED) q on.toNat
  let p := q / 8
  s.wr (.port .STATUS_PAUSED) p
    (if on then setBit (q % 8) (s.rd (.port .STATUS_PAUSED) p) else clrBit (q % 8) (s.rd (.port .STATUS_PAUSED) p))

/-- Queue q is in watchdog hold. -/
def State.inHold (s : State) (q : Nat) : Bool := bit (q % 8) (s.rd (.port .STATUS_PWD_HOLD) (q / 8))

/-- A pause of `quanta` for class `c` on the queues `qs` of port p: queues in watchdog hold ignore it, and such a frame is
counted (R247, R249). -/
def State.pauseSet (s : State) (p c quanta : Nat) (qs : List Nat) : State :=
  let s := if qs.any (fun q => s.inHold q) then s.count (.port .CNT_PAUSE_IGN) p else s
  let fin := if quanta = 0 then 0 else s.age + uTicks (bitsU (s.rate p) (512 * quanta)) + 1
  qs.foldl (fun s q => if s.inHold q then s else (s.setH .pauseEnd (9 * q + c) fin).pauseSync q) s

/-- The queues of port p whose bits are set in `m`. -/
def queuesOf (p m : Nat) : List Nat := (bitsOf 8 m).map (fun t => 8 * p + t)

/-- A PAUSE or PFC frame is received. -/
def State.pauseCount (s : State) (p : Nat) : State := (s.bump (.port .STAT_CTL_RX) p).bump (.port .STAT_PAUSE_RX) p

/-- A PAUSE frame of `quanta` (R247). -/
def State.pauseRx (s : State) (p quanta : Nat) : State :=
  let s := s.pauseCount p
  if s.rd (.port .CTL_FC_MODE) p ≠ 1 then s.count (.port .CNT_PAUSE_IGN) p
  else if ¬ s.on (.port .FC_RX_EN) p then s
  else s.pauseSet p 8 quanta (queuesOf p 0xFF)

/-- PAUSE_RECEIVE (R247). -/
def execPauseReceive (p : Fin 72) (quanta : BitVec 16) (s : State) : Host.Outcome State Fault Refusal :=
  .next (s.inUnit .PORT p (fun s => s.pauseRx p quanta.toNat))

/-- Quanta of priority i in a PFC frame's eight 16-bit fields, priority 0 lowest. -/
def pfcTime (times i : Nat) : Nat := bits (16 * i) 16 times

/-- A PFC frame with class-enable vector `en` (R247, PFC_RX of Table 16.7). -/
def State.pfcRx (s : State) (p en times : Nat) : State :=
  let s := s.pauseCount p
  let s := (bitsOf 8 en).foldl (fun s i => s.bump (.port .PFC_RX) (8 * p + i)) s
  if s.rd (.port .CTL_FC_MODE) p ≠ 2 then s.count (.port .CNT_PAUSE_IGN) p
  else (bitsOf 8 (en &&& s.rd (.port .FC_RX_PFC_EN) p)).foldl (fun s i =>
    s.pauseSet p i (pfcTime times i) (queuesOf p (bits (8 * i) 8 (s.rd (.port .PFC_MAP) p)))) s

/-- PFC_RECEIVE (R247). -/
def execPfcReceive (p : Fin 72) (en : BitVec 8) (times : BitVec 128) (s : State) : Host.Outcome State Fault Refusal :=
  .next (s.inUnit .PORT p (fun s => s.pfcRx p en.toNat times.toNat))

/-- PAUSE_EXPIRY (R247): the time of class `c` (0-7 a priority, 8 PAUSE) of port p runs out. -/
def execPauseExpiry (p : Fin 72) (c : Fin 9) (s : State) : Host.Outcome State Fault Refusal :=
  .next (s.inUnit .PORT p (fun s =>
    let qs := (queuesOf p 0xFF).filter (fun q => s.h .pauseEnd (9 * q + c) != 0)
    let s := s.passAge (qs.foldl (fun m q => max m (s.h .pauseEnd (9 * q + c) - 1)) 0)
    qs.foldl (fun s q => (s.setH .pauseEnd (9 * q + c) 0).pauseSync q) s))

/-! ## The watchdog (R249) -/

/-- The watchdog trips on queue q: released, held, counted, raised. -/
def State.pwdTrip (s : State) (q : Nat) : State :=
  let p := q / 8
  let s := s.passAge (s.h .pauseFrom q - 1 + msTicks (s.rd (.port .PWD_LIMIT) p))
  let s := ((List.range 9).foldl (fun s c => s.setH .pauseEnd (9 * q + c) 0) s).pauseSync q
  let s := s.wr (.port .STATUS_PWD_HOLD) p (setBit (q % 8) (s.rd (.port .STATUS_PWD_HOLD) p))
  let s := s.setH .pwdEnd q (s.age + msTicks (s.rd (.port .PWD_HOLD) p))
  (s.count (.port .CNT_PWD_TRIP) p).raiseP .PORT_PAUSE_STORM p (q % 8)

/-- PAUSE_STORM (R249). -/
def execPauseStorm (p : Fin 72) (t : Fin 8) (s : State) : Host.Outcome State Fault Refusal :=
  .next (s.inUnit .PORT p (fun s =>
    s.when (s.paused (8 * p + t) && s.rd (.port .PWD_LIMIT) p != 0) (fun s => s.pwdTrip (8 * p + t))))

/-- PAUSE_HOLD_EXPIRY (R249). -/
def execPauseHoldExpiry (p : Fin 72) (t : Fin 8) (s : State) : Host.Outcome State Fault Refusal :=
  .next (s.inUnit .PORT p (fun s =>
    if ¬ s.inHold (8 * p + t) then s
    else
      let s := s.passAge (s.h .pwdEnd (8 * p + t))
      s.wr (.port .STATUS_PWD_HOLD) p (clrBit t (s.rd (.port .STATUS_PWD_HOLD) p))))

/-! ## Sent pauses (R248) -/

/-- Granary cells charged to port p; for a class below 8 those of frames charged to that priority (R248). -/
def State.heldCells (s : State) (p c : Nat) : Nat :=
  (s.bufs.filter (fun e => e.2.held && e.2.owner == p && hPool e.1 == 0 &&
    (c == 8 || (s.buf e.2.head).pri == c))).length

/-- The class is one the port sends pauses for: PFC priority c, or PAUSE at 8 (R248). -/
def State.txPauses (s : State) (p c : Nat) : Bool :=
  if c = 8 then s.rd (.port .CTL_FC_MODE) p == 1 && s.on (.port .FC_TX_EN) p
  else s.rd (.port .CTL_FC_MODE) p == 2 && bit c (s.rd (.port .FC_TX_PFC_EN) p)

/-- The reserved MAC Control address. -/
def macCtlDa : Nat := 0x0180C2000001

/-- A PAUSE or PFC frame: address, station address 0, EtherType 0x8808, opcode and quanta; padded, with FCS (R248). -/
def State.pauseFrame (s : State) (p c quanta : Nat) : List Byte :=
  let hd := beBytes 6 macCtlDa ++ beBytes 6 (s.rd (.port .STA_ADDR) (8 * p)) ++ beBytes 2 0x8808
  let body := if c = 8 then beBytes 2 0x0001 ++ beBytes 2 quanta
    else beBytes 2 0x0101 ++ beBytes 2 (2 ^ c) ++ (List.range 8).flatMap (fun i => beBytes 2 (if i = c then quanta else 0))
  withFcs (padBody (hd ++ body))

/-- A frame of the port's own waits ahead of its queues. `own`: 1 MAC Control, 2 peer delay. -/
def State.ctlPut (s : State) (p own : Nat) (octets : List Byte) : State :=
  s.setCtl p (s.ctlOf p ++ [{ desc := { handle := 0, md := 0 }, queue := 0, octets := octets, own := own }])

/-- PAUSE_FRAME_SEND (R248): at XOFF_THR the quanta, every half of their time while above XON_THR the same again, at
XON_THR quanta 0. -/
def State.pauseSend (s : State) (p c : Nat) : State :=
  let k := 8 * p + (if c = 8 then 0 else c)
  let n := s.heldCells p c
  let q := s.rd (.port .TX_QUANTA) p
  let x := 9 * p + c
  if ¬ s.txPauses p c then s
  else if s.h .xoffAt x = 0 then
    if s.rd (.port .XOFF_THR) k ≤ n then (s.ctlPut p 1 (s.pauseFrame p c q)).setH .xoffAt x (s.age + 1) else s
  else if n ≤ s.rd (.port .XON_THR) k then (s.ctlPut p 1 (s.pauseFrame p c 0)).setH .xoffAt x 0
  else
    let s := s.passAge (s.h .xoffAt x - 1 + uTicks (bitsU (s.rate p) (256 * q)))
    (s.ctlPut p 1 (s.pauseFrame p c q)).setH .xoffAt x (s.age + 1)

/-- PAUSE_FRAME_SEND (R248). -/
def execPauseFrameSend (p : Fin 72) (c : Fin 9) (s : State) : Host.Outcome State Fault Refusal :=
  .next (s.inUnit .PORT p (fun s => s.pauseSend p c))

end Sys2Proof.Machine
end

