-- ==== Sys2Proof/Machine/Stamp.lean ====
section
/-! DEFINITION. Time stamps: the latency sum of R112, VOID and CAUTION (R111, R116, Table 6.5), the fibre plane (R193), and
the stamp rings (R200-R203). -/

namespace Sys2Proof.Machine

/-! ## The latency sum (R108, R112) -/

/-- Bit rate of a mode in Gb/s, as a fraction (Table 2.2). -/
def laneRate (m : Nat) : Nat × Nat :=
  if m = 1 then (5, 4) else if m = 2 then (165, 16) else if m = 3 then (825, 32) else if m = 4 then (425, 8) else (425, 4)

/-- A stamp in 2^-16 ns: the tick, `n64` in 1/64 UI of a mode, and a fixed delay in 2^-16 ns, rounded once (R108). -/
def stampOf (tick m : Nat) (n64 fixed : Int) : Nat :=
  let num := (laneRate m).1
  let den := (laneRate m).2
  (divRound ((tick * 524288 * num : Nat) + n64 * (5120 * den : Nat) + fixed * (5 * num : Nat)) (5 * num)).toNat

/-- Sum of four latency terms. -/
def termSum (t : Nat × Nat × Nat × Nat) : Int := (t.1 + t.2.1 + t.2.2.1 + t.2.2.2 : Nat)

/-- The physical lane of a port that carried a stamp bit (R188). -/
def State.stampLane (s : State) (p k : Nat) : Nat := if k < (s.portLanes p).length then p + k else p

/-- The receive stamp (R112). -/
def State.rxStamp (s : State) (p : Nat) (x : StampIn) : Nat :=
  let n := s.stampLane p x.lane
  let m := s.laneMode n
  let t := termsRx m (s.laneFec n) (s.rd (.lane .ALIGN_WORD_OFS) n) (s.rd (.lane .ALIGN_GBX_PHASE) n) x.f.toNat x.am.toNat
  stampOf (s.now - x.ago.toNat) m (((x.txPhase.toNat + x.rxPhase.toNat : Nat) : Int) - termSum t)
    (-(s.rd (.lane .FIX_RX_A) n : Int))

/-- The transmit stamp (R112). -/
def State.txStamp (s : State) (p : Nat) (x : StampOut) : Nat :=
  let n := s.stampLane p x.lane
  let m := s.laneMode n
  let t := termsTx m (s.laneFec n) (s.h .txWord n) (s.h .txGbx n) x.f.toNat x.am.toNat
  stampOf (s.now - x.ago.toNat) m ((x.txPhase.toNat : Int) + termSum t) (s.rd (.lane .FIX_TX_A) n)

/-- The phases of lane n are valid (R111). -/
def State.phValid (s : State) (n : Nat) : Bool :=
  s.on (.lane .STATUS_CDR_LOCK) n && s.pllOk n && !s.repVoid n

/-- A stamp of lane n taken now carries VOID (R111, R116, R95, R167). -/
def State.laneVoid (s : State) (n : Nat) : Bool :=
  !s.phValid n || !s.on (.lane .ALIGN_VALID) n || !s.on (.sel .OSTAT_LOCK) 0

/-- CAUTION at the stamp instant (Table 6.5). -/
def State.caution (s : State) : Bool := s.on (.hrt .SUPPLY_CAUTION) 0

/-- The servo cycle number's low 16 bits (Table 6.4). -/
def State.cyc16 (s : State) : Nat := s.h .cycNum % 65536

/-- Applied generation of unit 28. -/
def State.stampGen (s : State) : Nat := s.h .unitGen 28

/-- Ball to fibre on transmission: BRD_TX + MOD_TX in effect (R125, R193). -/
def State.fibreTx (s : State) (p : Nat) : Nat := s.h .effBrdTx p + s.h .effModTx p
/-- Fibre to ball on reception: BRD_RX + MOD_RX in effect. -/
def State.fibreRx (s : State) (p : Nat) : Nat := s.h .effBrdRx p + s.h .effModRx p

/-- DLY_VALID of a port (R140). -/
def State.dlyOk (s : State) (p : Nat) : Bool := s.on (.lane .DLY_STAT_DLY_VALID) p

/-! ## PHASE_PUBLISH (R109-R111) -/

/-- PHASE_PUBLISH (R110). -/
def execPhasePublish (n : Fin 74) (tx : BitVec 16) (rx : BitVec 12) (s : State) : Host.Outcome State Fault Refusal :=
  .next (s.inUnit .LANE n (fun s =>
    ((s.wr (.lane .PHASE_TX_PHASE) n tx.toNat).wr (.lane .PHASE_RX_PHASE) n rx.toNat).wr (.lane .PHASE_PH_VALID) n
      (s.phValid n).toNat))

/-! ## Stamp rings (R200-R203) -/

/-- A stamp record before it enters its ring. -/
structure StampRec where
  time : Nat
  tx : Bool
  caution : Bool
  void : Bool
  ct : Bool
  gen : Nat
  cyc : Nat
  /-- the frame's octets and the place of the PTP header -/
  octets : List Byte
  hdr : Nat
  deriving DecidableEq, Repr

/-- The 32 octets of a record (Table 6.4). -/
def StampRec.toBytes (r : StampRec) (port : Nat) (phase lost : Bool) : List Byte :=
  let flags := r.caution.toNat + 2 * r.void.toNat + 4 * phase.toNat + 8 * r.ct.toNat + 16 * lost.toNat
  let frame := fcsBody r.octets
  let at_ := fun (o n : Nat) => octetsAt frame (r.hdr + o) n
  leBytes 12 r.time ++ leBytes 1 (port + 128 * r.tx.toNat) ++ leBytes 1 flags ++ leBytes 2 r.gen ++
    at_ 30 2 ++ at_ 0 1 ++ at_ 4 1 ++ at_ 20 10 ++ leBytes 2 r.cyc

/-- Stamp records the part may write in a second (R203). -/
def recRate : Nat := 64000000

/-- The rate of records is counted over the seconds of `age` (log entry 43): whether one more passes. -/
def State.recCount (s : State) : Bool × State :=
  let sec := s.age / ticksPerSec
  let n := if s.h .recSec = sec then s.h .recCnt else 0
  if n < recRate then (true, (s.setH .recSec 0 sec).setH .recCnt 0 (n + 1)) else (false, s)

/-- A record of port p is lost (R203). -/
def State.recLost (s : State) (p : Nat) : State := (s.count (.stamp .SPORT_CNT_LOST) p).setH .sringLost p 1

/-- The ring's memory can be written: the host's, or the Pantry of an engine that is usable and on (R203). -/
def State.ringOk (s : State) (p : Nat) : Bool :=
  let e := s.rd (.stamp .SPORT_CFG_RING_ENG) p
  s.rd (.stamp .SPORT_CFG_RING_LOC) p == 0 ||
    (s.variant.hasEngine e && s.domOn .engine && !s.on (.eng .CTL_UNUSABLE) e)

/-- A record enters the port's ring, or is dropped and counted (R202, R203). With STAMP_CTL.EN = 0 none is made. -/
def State.recWrite (s : State) (p : Nat) (r : StampRec) : State :=
  if ¬ s.on (.stamp .CTL_EN) 0 ∨ ¬ s.on (.stamp .SPORT_CFG_RING_EN) p then s
  else if ¬ s.ringOk p then s.recLost p
  else
    match s.recCount with
    | (false, s) => ((s.recLost p).count (.stamp .CNT_RATE_DROP) 0).raise .STAMP_RATE_DROP
    | (true, s) =>
      let size := 2 ^ s.rd (.stamp .SPORT_CFG_RING_SIZE) p
      let head := s.rd (.stamp .SPORT_HEAD) p
      if (head + 1) % size = s.rd (.stamp .SPORT_TAIL) p % size then (s.recLost p).raiseP .STAMP_RING_FULL p
      else
        let a := s.rd (.stamp .SPORT_RBASE) p + 32 * head
        let b := r.toBytes p (s.h .sringPhase p == 0) (s.h .sringLost p == 1)
        let s := if s.rd (.stamp .SPORT_CFG_RING_LOC) p = 0 then s.setBytes .host a b
          else s.setBytes .pantry (s.rd (.stamp .SPORT_CFG_RING_ENG) p * 0x400000 + a % 0x400000) b
        let s := (s.setH .sringLost p 0).wr (.stamp .SPORT_HEAD) p ((head + 1) % size)
        if head + 1 = size then s.setH .sringPhase p (1 - s.h .sringPhase p) else s

/-- RING_EN is written (R200): going to 1 sets HEAD to 0 and PHASE to 1 (log entry 44). -/
def State.ringEnWrite (s : State) (p : Nat) (v : Bool) : State :=
  if v ∧ s.on (.stamp .SPORT_CFG_RING_EN) p then s
  else if v then ((s.wr (.stamp .SPORT_CFG_RING_EN) p 1).wr (.stamp .SPORT_HEAD) p 0).setH .sringPhase p 0
  else s.wr (.stamp .SPORT_CFG_RING_EN) p 0

/-- A STAMP write is refused. -/
def State.stampRefused (s : State) : State := s.wr (.stamp .CTL_CFG_REFUSED) 0 1

/-- The ring fields of STAMP_PORT CFG are written (R200): RING_LOC, RING_ENG and RING_SIZE change only while RING_EN = 0,
and RING_SIZE only to 6-16; then RING_EN acts. PDR_MODE 3 is refused. -/
def State.sportCfgWrite (s : State) (p w : Nat) : State :=
  let size := bits 6 5 w
  let change := bits 1 1 w ≠ s.rd (.stamp .SPORT_CFG_RING_LOC) p ∨ bits 2 4 w ≠ s.rd (.stamp .SPORT_CFG_RING_ENG) p ∨
    size ≠ s.rd (.stamp .SPORT_CFG_RING_SIZE) p
  let s := if ¬ change then s
    else if s.on (.stamp .SPORT_CFG_RING_EN) p then s.stampRefused
    else
      let s := (s.wr (.stamp .SPORT_CFG_RING_LOC) p (bits 1 1 w)).wr (.stamp .SPORT_CFG_RING_ENG) p (bits 2 4 w)
      if 6 ≤ size ∧ size ≤ 16 then s.wr (.stamp .SPORT_CFG_RING_SIZE) p size else s.stampRefused
  let s := s.wr (.stamp .SPORT_CFG_PDR_DOM) p (bits 13 3 w)
  let s := if bits 11 2 w = 3 then s.stampRefused else s.wr (.stamp .SPORT_CFG_PDR_MODE) p (bits 11 2 w)
  s.ringEnWrite p (bits 0 1 w == 1)

/-- RING_ENABLE_WRITE (R200): a write of STAMP_PORT CFG. -/
def execRingEnableWrite (r : Req) (p : Fin 72) (w : BitVec 32) (s : State) : Host.Outcome State Fault Refusal :=
  .next (s.writeTo r .SPORT p (fun s => s.sportCfgWrite p w.toNat))

end Sys2Proof.Machine
end

