-- ==== Sys2Proof/Machine/Offer.lean ====
section
/-! DEFINITION. Offering a copy of a frame to a destination: an egress queue (R237, R251), an engine input queue (R304,
R305), a host queue (R534, R535) or the Reeve (R245); and the end of a thread's wait that a delivery brings (R301). -/

namespace Sys2Proof.Machine

/-! ## Waiting threads (R301) -/

/-- What a thread waits for, in `rWAIT`. -/
def wTWAIT : Nat := 1
def wQDEQ : Nat := 2
def wHGET : Nat := 3

/-- A wait completes: the thread is RUNNING at the next instruction (Table 9.6). -/
def State.waitEnd (s : State) (c : Core) : State :=
  let n := coreNo c
  let s := ((s.setTr n rWAIT 0).setCst c tRUNNING).setPc c (s.pc c + 4)
  s.setTr n rINSTRET (trunc 64 (s.tr n rINSTRET + 1))

/-- The deadline's result: ones short of a handle or message, and 0 in the predicate (R351). -/
def State.waitDeadline (s : State) (c : Core) (kind : Nat) : State :=
  let n := coreNo c
  let s := s.setP c (s.tr n rWP) 0
  if kind = wQDEQ then s.setG c (s.tr n rWD) 0xFFFFFFFF else if kind = wHGET then s.setG c (s.tr n rWD) 0xFFFFFFFF else s

/-- The engine of a core, by number. -/
def engOf : Core → Nat
  | .eng e _ => e.val
  | _ => 0

/-- Thread t of engine e, as a core. -/
def thr (e t : Nat) : Core := .eng (Fin.ofNat 16 e) (Fin.ofNat 8 t)

/-- The lowest-numbered non-empty input queue of engine e in a mask (R305). -/
def State.eqPick (s : State) (e mask : Nat) : Option Nat :=
  (List.range 64).find? (fun q => bit q mask && !(s.eq (64 * e + q)).isEmpty)

/-- A descriptor reaches a thread: the handle in g[d], ones in p, the metadata at `addr` of the own Pantry (R305). -/
def State.qdeqPut (s : State) (c : Core) (q d p addr : Nat) : State :=
  match s.eq (64 * engOf c + q) with
  | [] => s
  | x :: t =>
    let s := s.setEq (64 * engOf c + q) t
    let s := s.wrMem .pantry (engOf c * 0x400000 + addr) 64 (mdHANDLE.put x.handle x.md)
    (s.setG c d x.handle).setP c p ones64

/-- Threads of engine e in rotating order from a start the cycle count gives, which the model does not run (a free value)
(R280). -/
def State.rotation (s : State) : List Nat := (List.range 8).map (fun k => (s.freeVal 3 + k) % 8)

/-- A descriptor in queue q of engine e wakes the first thread in rotating order that waits for it (R301, R305). -/
def State.eqWake (s : State) (e q : Nat) : State :=
  match s.rotation.find? (fun t => s.tstate e t == tWAITING && s.tr (thrIdx e t) rWAIT == wQDEQ &&
    bit q (s.tr (thrIdx e t) rWMASK)) with
  | none => s
  | some t =>
    let n := thrIdx e t
    let c := thr e t
    (s.nextFree.qdeqPut c q (s.tr n rWD) (s.tr n rWP) (s.tr n rWADDR)).waitEnd c

/-! ## Engine queues -/

/-- Descriptors in the store of engine e. -/
def State.eqStore (s : State) (e : Nat) : Nat := (List.range 64).foldl (fun n q => n + (s.eq (64 * e + q)).length) 0

/-- An engine takes descriptors: present, its domain on, not marked unusable (R302, R304). -/
def State.engTakes (s : State) (e : Nat) : Bool :=
  s.variant.hasEngine e && s.domOn .engine && !s.on (.eng .CTL_UNUSABLE) e

/-- A copy offered to input queue q of engine e (R304). One with GATHER = 1 goes to the gather unit of the engine's half
instead (R358). -/
def State.eqOffer (s : State) (e q : Nat) (d : Copy) : Bool × State :=
  let k := 64 * e + q
  if s.engTakes e ∧ mdDKIND.get d.md = 3 ∧ mdGFLAGS.get d.md % 2 = 1 then
    (true, s.setGin (e / 8) (s.ginOf (e / 8) ++ [d]))
  else if ¬ s.engTakes e ∨ s.rd (.eng .EQ_MAX) k ≤ (s.eq k).length ∨ 4096 ≤ s.eqStore e then
    (false, s.count (.eng .EQ_DROP) k)
  else (true, (s.setEq k (s.eq k ++ [d])).eqWake e q)

/-! ## Host queues and the Reeve -/

/-- Posted receive descriptors of host queue q that no accepted frame has yet taken (R534). -/
def State.rxPosted (s : State) (q : Nat) : Nat :=
  let size := 2 ^ s.rd (.glb .DMA_CFG_RX_SIZE_LOG) q
  (s.rd (.glb .DMA_RXHT_TAIL) q + size - s.rd (.glb .DMA_RXHT_HEAD) q % size) % size - (s.hq q).length

/-- A copy offered to host queue q; 16 is the Reeve's. -/
def State.hqOffer (s : State) (q : Nat) (d : Copy) : Bool × State :=
  if q = 16 then (true, s.setHq 16 (s.hq 16 ++ [d]))
  else if ¬ s.domOn .reeve ∨ ¬ s.on (.glb .DMA_CFG_RX_EN) q ∨ s.rxPosted q = 0 ∨ 512 ≤ (s.hq q).length then
    (false, s.count (.glb .DMA_RXDROP) q)
  else (true, s.setHq q (s.hq q ++ [d]))

/-! ## Egress queues -/

/-- A copy enters egress queue t of port p, or is refused and counted (R237, R251); it spills where R272 says. -/
def State.portOffer (s : State) (p t : Nat) (d : Copy) : Bool × State :=
  let k := 8 * p + t
  if s.pstate p ≠ pUP then (false, s.count (.port .CNT_DOWN_DROP) p)
  else if s.rd (.core .QUEUE_MAX) k < qDepth (s.queue k) + d.nCells then (false, s.count (.core .QUEUE_Q_DROP) k)
  else
    let sp := s.spillWanted k && !d.ct && hPool d.handle == 0
    (true, s.setQueue k (s.queue k ++ [{ d with cel := sp, spill := sp }]))

/-- Destination kinds (Table 7.3). -/
def dkDROP : Nat := 0
def dkPORT : Nat := 1
def dkGROUP : Nat := 2
def dkENGINE : Nat := 3
def dkHOST : Nat := 4

/-- The domain of port p's lane is on, and its pipeline pair is not marked unusable (Table 14.11). -/
def State.portOn (s : State) (p : Nat) : Bool :=
  s.variant.hasPort p && s.domOn (laneDom p) && !bit (if p < 64 then p / 8 else p - 64) (s.h .pairBad)

/-- The destination exists and is on (R230). -/
def State.destOk (s : State) (kind dest : Nat) : Bool :=
  if kind = dkPORT then dest < 72 && s.portOn dest
  else if kind = dkGROUP then true
  else if kind = dkENGINE then dest < 1024 && s.engTakes (dest / 64)
  else kind == dkHOST && dest < 16

/-- A copy offered to one destination of kind PORT, ENGINE or HOST (R229). -/
def State.offerTo (s : State) (kind dest tc : Nat) (d : Copy) : Bool × State :=
  if kind = dkPORT then s.portOffer dest tc d
  else if kind = dkENGINE then s.eqOffer (dest / 64) (dest % 64) d
  else s.hqOffer dest d

/-- A copy as qenq offers it (R306, R351): to one destination that exists, else refused; an absent or wrong one has no
counter of its own. -/
def State.offerMd (s : State) (d : Copy) : Bool × State :=
  let kind := mdDKIND.get d.md
  let dest := mdDEST.get d.md
  if kind = dkENGINE ∧ dest < 1024 then s.eqOffer (dest / 64) (dest % 64) d
  else if kind = dkGROUP ∨ ¬ s.destOk kind dest then (false, s)
  else s.offerTo kind dest (mdTC.get d.md) d

/-- The metadata of a frame an engine, the host DMA or the Reeve injects (R306): HANDLE, LEN, IN_PORT, INJ and SRC_ENG
overwritten, TS_ABSENT set; bits Table 9.7 does not list read 0. -/
def injMd (md handle len inj eng : Nat) : Nat :=
  let m := mdHANDLE.put handle (mdLEN.put len (mdIN_PORT.put 127 md))
  let m := mdTS_ABSENT.put 1 (mdINJ.put inj (mdSRC_ENG.put eng m))
  (bitsOf 512 m).foldl (fun v k => if mdListed k then v else clrBit k v) m

/-- LEN of the frame a handle names: what the part wrote there, else a value no rule gives (log entry 45). -/
def State.frameLen (s : State) (h : Nat) : Nat × State :=
  if (s.buf h).len ≠ 0 then ((s.buf h).len, s) else (s.freeVal 14, s.nextFree)

end Sys2Proof.Machine
end

