-- ==== Sys2Proof/Machine/Engine.lean ====
section
/-! DEFINITION. Engines: thread control (Table 9.6), waits (R301), queue and hatch instructions (R351), emits (R349), pool
instructions (R350) and the Cellar cache's invalidation (R283). -/

namespace Sys2Proof.Machine

/-! ## Thread control -/

/-- A control write is refused. -/
def State.thrRefused (s : State) (i : Nat) : State := s.wr (.eng .THR_TCTL_REFUSED) i 1

/-- The host may not start threads (R289). -/
def State.hostBarred (s : State) (r : Req) : Bool := isHost r && (s.lc == 2 || s.lc == 3)

/-- START on thread t of engine e: from IDLE, at TPC and the level of TCTL.PRIV (R289, Table 9.6). A thread of an unusable
engine does not start (R302). -/
def State.thrStart (s : State) (r : Req) (e t : Nat) : State :=
  let i := thrIdx e t
  if s.tstate e t ≠ tIDLE ∨ s.hostBarred r ∨ s.on (.eng .CTL_UNUSABLE) e then s.thrRefused i
  else
    let s := s.setTstate e t tRUNNING
    ((s.setTr i rLEVEL (s.rd (.eng .THR_TCTL_PRIV) i)).wr (.eng .THR_TCAUSE_INTRAP) i 0).setTr i rPCHI 0

/-- STOP: at the next instruction boundary; a wait is abandoned, to execute again on RESUME. -/
def State.thrStop (s : State) (e t : Nat) : State :=
  if s.tstate e t = tRUNNING then s.setTstate e t tSTOPPED
  else if s.tstate e t = tWAITING then (s.setTr (thrIdx e t) rWAIT 0).setTstate e t tSTOPPED
  else s.thrRefused (thrIdx e t)

/-- RESUME: from STOPPED at TPC. -/
def State.thrResume (s : State) (e t : Nat) : State :=
  if s.tstate e t = tSTOPPED then (s.setTstate e t tRUNNING).setTr (thrIdx e t) rPCHI 0 else s.thrRefused (thrIdx e t)

/-- The registers of Table 9.2 of a thread are set to 0. -/
def State.thrZero (s : State) (e t : Nat) : State :=
  { s with treg := s.treg.filter (fun x => x.1.1 != thrIdx e t) }.wr (.eng .THR_TPC_PC) (thrIdx e t) 0

/-- CLEAR: from IDLE, STOPPED or HALTED. -/
def State.thrClear (s : State) (e t : Nat) : State :=
  if s.tstate e t = tRUNNING ∨ s.tstate e t = tWAITING then s.thrRefused (thrIdx e t)
  else (s.thrZero e t).setTstate e t tIDLE

/-- THREAD_START (R300). -/
def execThreadStart (r : Req) (e : Fin 16) (t : Fin 8) (s : State) : Host.Outcome State Fault Refusal :=
  .next (s.writeTo r .ENG e (fun s => s.thrStart r e t))
/-- THREAD_STOP (R300). -/
def execThreadStop (r : Req) (e : Fin 16) (t : Fin 8) (s : State) : Host.Outcome State Fault Refusal :=
  .next (s.writeTo r .ENG e (fun s => s.thrStop e t))
/-- THREAD_RESUME (R300). -/
def execThreadResume (r : Req) (e : Fin 16) (t : Fin 8) (s : State) : Host.Outcome State Fault Refusal :=
  .next (s.writeTo r .ENG e (fun s => s.thrResume e t))
/-- THREAD_CLEAR (R300). -/
def execThreadClear (r : Req) (e : Fin 16) (t : Fin 8) (s : State) : Host.Outcome State Fault Refusal :=
  .next (s.writeTo r .ENG e (fun s => s.thrClear e t))

/-- STOP to every thread of an engine. -/
def State.stopAll (s : State) (e : Nat) : State := (List.range 8).foldl (fun s t => s.thrStop e t) s

/-- STOP_ALL (R300). ENG_CTL is not gated (R498). -/
def execStopAll (r : Req) (e : Fin 16) (s : State) : Host.Outcome State Fault Refusal :=
  .next (s.writeTo r .ENG e (fun s => s.stopAll e) false)

/-! ## The Cellar cache (R283) -/

/-- The cached line of an engine. -/
def State.cacheGet (s : State) (e line : Nat) : Option Nat :=
  match Assoc.get 0 (e, line) s.cache with
  | 0 => none
  | v + 1 => some v

/-- A cached line set. -/
def State.cacheSet (s : State) (e line v : Nat) : State := { s with cache := Assoc.set pairKeyLt 0 (e, line) (v + 1) s.cache }

/-- A line leaves the cache. -/
def State.cacheDrop (s : State) (e line : Nat) : State := { s with cache := Assoc.erase (e, line) s.cache }

/-- Every line of an engine's cache leaves it. -/
def State.cacheClear (s : State) (e : Nat) : State := { s with cache := s.cache.filter (fun x => x.1.1 != e) }

/-- The lines an engine holds in the set of `line`. -/
def State.cacheWays (s : State) (e line : Nat) : List Nat :=
  (s.cache.filter (fun x => x.1.1 == e && x.1.2 % 256 == line % 256)).map (fun x => x.1.2)

/-- A line is filled; which way of a full set gives way the manual does not say: a free value. -/
def State.cacheFill (s : State) (e line v : Nat) : State :=
  let w := s.cacheWays e line
  if w.length < 4 then s.cacheSet e line v
  else ((s.cacheDrop e (w.getD (s.freeVal 2) 0)).nextFree).cacheSet e line v

/-- ENG_CTL.CINV is written. -/
def State.cinvStart (s : State) (e : Nat) : State := s.wr (.eng .CTL_CINV_BUSY) e 1

/-- ENG_CINV_WRITE (R283). -/
def execEngCinvWrite (r : Req) (e : Fin 16) (s : State) : Host.Outcome State Fault Refusal :=
  .next (s.writeTo r .ENG e (fun s => s.cinvStart e) false)

/-- CINV_DONE (R283): within 256 market cycles. -/
def execCinvDone (e : Fin 16) (s : State) : Host.Outcome State Fault Refusal :=
  .next (s.inUnit .ENG e (fun s => s.when (s.on (.eng .CTL_CINV_BUSY) e)
    (fun s => (s.cacheClear e).wr (.eng .CTL_CINV_BUSY) e 0)))

/-- cinv: completes with the invalidation (R353). -/
def State.tzCinv (x : Issue) (i : RIns) (s : State) : State :=
  s.issue x i.pred (encR 0x70 3 i) (isTz x.core && i.d.val == 0 && i.a.val == 0 && i.b.val == 0)
    (fun s => (.next, match x.core with | .eng e _ => s.cacheClear e | _ => s))

/-- CINV (R353). -/
def execCinv (x : Issue) (i : RIns) (s : State) : Host.Outcome State Fault Refusal := .next (s.tzCinv x i)

/-! ## Waits (R301) -/

/-- t[k] has been reached. -/
def State.timeReached (s : State) (v : Nat) : Bool := v ≤ s.bellNow

/-- twait pd, ta (R348). -/
def State.tzTwait (x : Issue) (i : RIns) (s : State) : State :=
  s.issue x i.pred (encR 0x4E 0 i) (isTz x.core && pOk i.d && tNumOk x.core i.a && i.b.val == 0)
    (fun s =>
      let v := s.t x.core i.a
      if s.timeReached v then (.next, s.setP x.core i.d 0)
      else
        let n := coreNo x.core
        (.wait, ((s.setTr n rWAIT wTWAIT).setTr n rWP i.d).setTr n rDEADLINE (v + 1)))

/-- TWAIT (R348). -/
def execTwait (x : Issue) (i : RIns) (s : State) : Host.Outcome State Fault Refusal := .next (s.tzTwait x i)

/-- Time passes to a 96-bit bell time, unless it has been reached or passed over. -/
def State.passBell (s : State) (v : Nat) : State := if s.timeReached v then s else s.passTo (tickAt (u96 v))

/-- A core that a wait holds. -/
def State.waits (s : State) (c : Core) : Bool := s.cst c == tWAITING

/-- The named time of a twait is reached: ones, and the thread goes on (R348). -/
def State.twaitFire (s : State) (c : Core) : State :=
  let n := coreNo c
  let s := s.passBell (s.tr n rDEADLINE - 1)
  (s.setP c (s.tr n rWP) ones64).waitEnd c

/-- The core's domain works. -/
def State.coreUp (s : State) (c : Core) : Bool :=
  match c with
  | .eng e _ => s.up .ENG e
  | .reeve => s.domOn .reeve
  | .wgh => s.domOn .weigh
  | .cell .. => s.domOn .core

/-- TWAIT_FIRE (R301). -/
def execTwaitFire (c : Core) (s : State) : Host.Outcome State Fault Refusal :=
  .next (s.when (s.coreUp c && s.waits c && s.tr (coreNo c) rWAIT == wTWAIT) (fun s => s.twaitFire c))

/-- WAIT_DEADLINE (R301): the deadline of a qdeq or hget is reached. -/
def execWaitDeadline (e : Fin 16) (t : Fin 8) (s : State) : Host.Outcome State Fault Refusal :=
  let c := Core.eng e t
  .next (s.when (s.up .ENG e && s.waits c && s.tr (coreNo c) rDEADLINE != 0 &&
      (s.tr (coreNo c) rWAIT == wQDEQ || s.tr (coreNo c) rWAIT == wHGET))
    (fun s => ((s.passBell (s.tr (coreNo c) rDEADLINE - 1)).waitDeadline c (s.tr (coreNo c) rWAIT)).waitEnd c))

/-- ASYNC_STORE_FAIL (R299): the first failure before a boundary is kept, the others are counted. -/
def execAsyncStoreFail (e : Fin 16) (t : Fin 8) (a : BitVec 48) (s : State) : Host.Outcome State Fault Refusal :=
  let n := thrIdx e t
  .next (s.inUnit .ENG e (fun s =>
    if s.tr n rASYNC = 0 then s.setTr n rASYNC (a.toNat + 1) else s.count (.eng .ECC_UE) e))

/-! ## Metadata in the own Pantry -/

/-- The exception of a 64-byte access to metadata at `a` of the own Pantry (R349, R351). -/
def State.mdExc (s : State) (c : Core) (a : Nat) (write : Bool) : Option (Nat × Nat) :=
  let e := engOf c
  if a % 64 ≠ 0 then some (cMISALIGN, a)
  else if 0x400000 < a + 64 ∨ s.on (.eng .CTL_WIPING) e then some (if write then cSTORE else cLOAD, a)
  else if ¬ s.privP c ∧ ¬ s.on (if write then .eng .PATTR_U_W else .eng .PATTR_U_R) (1024 * e + a / 4096) then
    some (cPROT, a)
  else none

/-- The metadata at `a` of the own Pantry. -/
def State.mdAt (s : State) (c : Core) (a : Nat) : Nat := s.rdMem .pantry (engOf c * 0x400000 + a) 64

/-! ## Emits (R349) -/

/-- A destination kind qenq and temit accept. -/
def kindOk (k : Nat) : Bool := k == dkPORT || k == dkENGINE || k == dkHOST

/-- The handle names a held buffer: what a thread holds a reference to. -/
def State.heldHandle (s : State) (h : Nat) : Bool := s.handleOk h && (s.buf h).held

/-- An emit in order of time and then of issue. -/
def emitIn (x : Emit) : List Emit → List Emit
  | [] => [x]
  | y :: l => if x.time < y.time then x :: y :: l else y :: emitIn x l

/-- temit pd, ga, gb: f[1:0] the time register (R349). -/
def State.tzTemit (x : Issue) (f : Nat) (i : RIns) (s : State) : State :=
  s.issue x i.pred (encR 0x4F f i) (isEng x.core && pOk i.d && f < 4)
    (fun s =>
      let c := x.core
      match s.mdExc c (s.g c i.b) false with
      | some (k, v) => (.exc k v, s)
      | none =>
        let md := s.mdAt c (s.g c i.b)
        let h := s.g c i.a % 2 ^ 32
        if ¬ kindOk (mdDKIND.get md) ∨ 64 ≤ (s.emits.filter (fun y => y.eng == engOf c)).length ∨ ¬ s.heldHandle h then
          (.next, s.setP c i.d 0)
        else
          let (len, s) := s.frameLen h
          let y : Emit := ⟨engOf c, s.t c f, h, injMd md h len 1 (engOf c)⟩
          (.next, { s with emits := emitIn y s.emits }.setP c i.d ones64))

/-- TEMIT (R349). -/
def execTemit (x : Issue) (f : Fin 128) (i : RIns) (s : State) : Host.Outcome State Fault Refusal := .next (s.tzTemit x f i)

/-- A copy is offered; refused, it gives its reference back. -/
def State.offerOrDrop (s : State) (d : Copy) : State :=
  match s.offerMd d with
  | (true, s) => s
  | (false, s) => s.drop1 d.handle

/-- The earliest pending emit of an engine is released at its time. -/
def State.emitRelease (s : State) (e : Nat) : State :=
  match s.emits.find? (fun y => y.eng == e) with
  | none => s
  | some y =>
    let s := s.passBell y.time
    { s with emits := s.emits.erase y }.offerOrDrop { handle := y.handle, md := y.md }

/-- EMIT_RELEASE (R349). -/
def execEmitRelease (e : Fin 16) (s : State) : Host.Outcome State Fault Refusal :=
  .next (s.inUnit .ENG e (fun s => s.emitRelease e))

/-! ## Pool instructions (R350) -/

/-- palloc gd, #pool, pb: f[1:0] pool, f[2] FALLBACK. -/
def State.tzPalloc (x : Issue) (f : Nat) (i : RIns) (s : State) : State :=
  s.issue x i.pred (encR 0x54 f i) (isEng x.core && f < 8 && i.a.val == 0 && pOk i.b)
    (fun s => match s.grantFb (72 + engOf x.core) (f % 4) (bit 2 f) with
      | (some h, s) => (.next, (s.setG x.core i.d h).setP x.core i.b ones64)
      | (none, s) => (.next, (s.setG x.core i.d 0xFFFFFFFF).setP x.core i.b 0))

/-- PALLOC (R350). -/
def execPalloc (x : Issue) (f : Fin 128) (i : RIns) (s : State) : Host.Outcome State Fault Refusal := .next (s.tzPalloc x f i)

/-- A predicate result: ones or 0. -/
def State.setPb (s : State) (c : Core) (n : Nat) (b : Bool) : State := s.setP c n (if b then ones64 else 0)

/-- pderef pd, ga, gb. -/
def State.tzPderef (x : Issue) (i : RIns) (s : State) : State :=
  s.issue x i.pred (encR 0x55 0 i) (isEng x.core && pOk i.d)
    (fun s =>
      let (ok, s) := s.deref (s.g x.core i.a) (s.g x.core i.b % 256) (72 + engOf x.core)
      (.next, s.setPb x.core i.d ok))

/-- PDEREF (R350). -/
def execPderef (x : Issue) (i : RIns) (s : State) : Host.Outcome State Fault Refusal := .next (s.tzPderef x i)

/-- pref pd, ga, gb. -/
def State.tzPref (x : Issue) (i : RIns) (s : State) : State :=
  s.issue x i.pred (encR 0x56 0 i) (isEng x.core && pOk i.d)
    (fun s =>
      let (ok, s) := s.ref (s.g x.core i.a) (s.g x.core i.b % 256) (72 + engOf x.core)
      (.next, s.setPb x.core i.d ok))

/-- PREF (R350). -/
def execPref (x : Issue) (i : RIns) (s : State) : Host.Outcome State Fault Refusal := .next (s.tzPref x i)

/-! ## Queues (R351) -/

/-- The frame of handle h is offered to the egress with metadata md; p[d] tells whether it was taken (R351). -/
def State.qenqMd (s : State) (c : Core) (md h d : Nat) : Sig × State :=
  if ¬ kindOk (mdDKIND.get md) ∨ ¬ s.heldHandle h then (.next, s.setP c d 0)
  else
    let r := s.frameLen h
    let q := r.2.offerMd { handle := h, md := injMd md h r.1 1 (engOf c) }
    (.next, q.2.setPb c d q.1)

/-- qenq pd, ga, gb. -/
def State.tzQenq (x : Issue) (i : RIns) (s : State) : State :=
  s.issue x i.pred (encR 0x58 0 i) (isEng x.core && pOk i.d)
    (fun s =>
      let c := x.core
      match s.mdExc c (s.g c i.b) false with
      | some (k, v) => (.exc k v, s)
      | none =>
        s.qenqMd c (s.mdAt c (s.g c i.b)) (s.g c i.a % 2 ^ 32) i.d)

/-- QENQ (R351). -/
def execQenq (x : Issue) (i : RIns) (s : State) : Host.Outcome State Fault Refusal := .next (s.tzQenq x i)

/-- A wait begins: kind, destination, result predicate, and 1 + the deadline where f[2] = 1. -/
def State.waitBegin (s : State) (c : Core) (kind d f : Nat) : State :=
  let n := coreNo c
  let s := ((s.setTr n rWAIT kind).setTr n rWD d).setTr n rWP (bits 3 3 f)
  s.setTr n rDEADLINE (if bit 2 f then s.t c (f % 4) + 1 else 0)

/-- The wait's deadline is enabled and has been reached at issue. -/
def State.deadlinePast (s : State) (c : Core) (f : Nat) : Bool := bit 2 f && s.timeReached (s.t c (f % 4))

/-- What a deadline leaves: ones in the low word of g[d], 0 in the predicate. -/
def State.noGet (s : State) (c : Core) (d f : Nat) : State := (s.setG c d 0xFFFFFFFF).setP c (bits 3 3 f) 0

/-- qdeq gd, ga, gb: f[1:0] the deadline's t register, f[2] deadline enabled, f[5:3] the result's p register (R351). -/
def State.tzQdeq (x : Issue) (f : Nat) (i : RIns) (s : State) : State :=
  s.issue x i.pred (encR 0x59 f i) (isEng x.core && f < 64)
    (fun s =>
      let c := x.core
      match s.mdExc c (s.g c i.a) true with
      | some (k, v) => (.exc k v, s)
      | none =>
        let mask := s.g c i.b
        match s.eqPick (engOf c) mask with
        | some q => (.next, s.qdeqPut c q i.d (bits 3 3 f) (s.g c i.a))
        | none =>
          if mask = 0 ∨ s.deadlinePast c f then (.next, s.noGet c i.d f)
          else
            let n := coreNo c
            (.wait, ((s.waitBegin c wQDEQ i.d f).setTr n rWMASK mask).setTr n rWADDR (s.g c i.a)))

/-- QDEQ (R351). -/
def execQdeq (x : Issue) (f : Fin 128) (i : RIns) (s : State) : Host.Outcome State Fault Refusal := .next (s.tzQdeq x f i)

/-- ENGINE_QUEUE_OFFER (R304): a copy of buffer `h` with metadata `md` is offered to input queue q of engine e; a refused
one gives its reference back (R231). -/
def execEngineQueueOffer (e : Fin 16) (q : Fin 64) (h : BitVec 32) (md : BitVec 512) (s : State) :
    Host.Outcome State Fault Refusal :=
  .next (s.inDom .core (fun s =>
    match s.eqOffer e q { handle := h.toNat, md := mdHANDLE.put h.toNat md.toNat } with
    | (true, s) => s
    | (false, s) => s.drop1 h.toNat))

/-! ## Hatches (R307) -/

/-- The oldest message of hatch h goes to a thread. -/
def State.hatchGet (s : State) (c : Core) (h d p : Nat) : State :=
  let k := 16 * engOf c + h
  match s.hatch k with
  | [] => s
  | v :: l => ((s.setHatch k l).setG c d v).setP c p ones64

/-- A message in hatch h of engine e ends the wait of the first thread in rotating order that waits for it. -/
def State.hatchWake (s : State) (e h : Nat) : State :=
  match s.rotation.find? (fun t => s.tstate e t == tWAITING && s.tr (thrIdx e t) rWAIT == wHGET &&
    s.tr (thrIdx e t) rWMASK == h) with
  | none => s
  | some t => (s.nextFree.hatchGet (thr e t) h (s.tr (thrIdx e t) rWD) (s.tr (thrIdx e t) rWP)).waitEnd (thr e t)

/-- A message enters hatch h of engine e; a full one counts and refuses it. -/
def State.hatchPut (s : State) (e h v : Nat) : Bool × State :=
  let k := 16 * e + h
  if 16 ≤ (s.hatch k).length then (false, s.count (.eng .HATCH_FULL_CNT) k)
  else (true, (s.setHatch k (s.hatch k ++ [v])).hatchWake e h)

/-- A put by the Reeve or the host, with SEND bits 16 and 17; no other requester sends here (R307). -/
def State.hatchReg (s : State) (r : Req) (e h v : Nat) : State :=
  let k := 16 * e + h
  let b := if r = .reeve then 16 else 17
  if (r ≠ .reeve ∧ ¬ isHost r) ∨ ¬ bit b (s.rd (.eng .HATCH_SEND) k) then s.wr (.eng .HATCH_HREFUSED) k 1
  else match s.hatchPut e h v with
    | (true, s) => s
    | (false, s) => s.wr (.eng .HATCH_HREFUSED) k 1

/-- HATCH_PUT (R307). -/
def execHatchPut (r : Req) (e : Fin 16) (h : Fin 16) (v : BitVec 64) (s : State) : Host.Outcome State Fault Refusal :=
  .next (s.writeTo r .ENG e (fun s => s.hatchReg r e h v.toNat))

/-- hput pd, ga, gb (R351). -/
def State.tzHput (x : Issue) (i : RIns) (s : State) : State :=
  s.issue x i.pred (encR 0x5A 0 i) (isEng x.core && pOk i.d)
    (fun s =>
      let c := x.core
      let a := s.g c i.a
      let e := a % 16
      let k := 16 * e + bits 4 4 a
      if ¬ s.variant.hasEngine e ∨ s.on (.eng .CTL_UNUSABLE) e then (.exc cSTORE a, s)
      else if ¬ bit (engOf c) (s.rd (.eng .HATCH_SEND) k) ∨ (¬ s.privP c ∧ ¬ s.on (.eng .HATCH_U_SEND) k) then
        (.exc cPROT a, s)
      else
        let (ok, s) := s.hatchPut e (bits 4 4 a) (s.g c i.b)
        (.next, s.setPb c i.d ok))

/-- HPUT (R351). -/
def execHput (x : Issue) (i : RIns) (s : State) : Host.Outcome State Fault Refusal := .next (s.tzHput x i)

/-- hget gd, #h: b = h, 0-15 (R351). -/
def State.tzHget (x : Issue) (f : Nat) (i : RIns) (s : State) : State :=
  s.issue x i.pred (encR 0x5B f i) (isEng x.core && f < 64 && i.b.val < 16 && i.a.val == 0)
    (fun s =>
      let c := x.core
      if s.hatch (16 * engOf c + i.b) ≠ [] then (.next, s.hatchGet c i.b i.d (bits 3 3 f))
      else if s.deadlinePast c f then (.next, s.noGet c i.d f)
      else (.wait, (s.waitBegin c wHGET i.d f).setTr (coreNo c) rWMASK i.b))

/-- HGET (R351). -/
def execHget (x : Issue) (f : Fin 128) (i : RIns) (s : State) : Host.Outcome State Fault Refusal := .next (s.tzHget x f i)

end Sys2Proof.Machine
end

