-- ==== Sys2Proof/Machine/Gather.lean ====
section
/-! DEFINITION. Time-coherent gathering (R357-R387). The accumulators of a bin are held in the bin, since their place and order
inside its BIN_SIZE octets the manual does not give (log entry 55); weights, templates and metadata are read from the Pantry. -/

namespace Sys2Proof.Machine

/-! ## Configuration of a group -/

/-- Width of a part of a type and parts per element (Table 10.5). -/
def typePart (ty : Nat) : Nat := [4, 8, 16, 32, 4, 8, 16, 32].getD (ty % 8) 4
def typeParts (ty : Nat) : Nat := if ty < 4 then 1 else 2

def gRED (s : State) (g : Nat) : Nat := s.rd (.gth .GRP_RED) g
def gIN (s : State) (g : Nat) : Nat := s.rd (.gth .GRP_IN_TYPE) g
def gOUT (s : State) (g : Nat) : Nat := s.rd (.gth .GRP_OUT_TYPE) g
def gNOUT (s : State) (g : Nat) : Nat := s.rd (.gth .GRP_NOUT) g + 1
def gPLEN (s : State) (g : Nat) : Nat := s.rd (.gth .GRP_PLEN) g
/-- E of R360. -/
def gE (s : State) (g : Nat) : Nat := gPLEN s g * 8 / (typePart (gIN s g) * typeParts (gIN s g))
/-- CMAX of R371. -/
def gCMAX (s : State) (g : Nat) : Nat := (bitsOf 256 (s.rd (.gth .GRP_EXPECT) g)).foldl (fun m k => max m (k + 1)) 0
/-- Width of an accumulator part (Table 11.4). -/
def gAccW (s : State) (g : Nat) : Nat :=
  if gRED s g = 0 then (if gIN s g = 6 then 64 else 32)
  else if gIN s g ≤ 5 ∧ s.rd (.gth .GRP_WT_TYPE) g = 0 then 32 else 64
/-- BIN_SIZE in bytes (Table 11.4). -/
def gBinSize (s : State) (g : Nat) : Nat :=
  if gRED s g = 0 then gE s g * typeParts (gIN s g) * gAccW s g / 8
  else if gRED s g = 1 then gE s g * gNOUT s g * 2 * gAccW s g / 8
  else if gRED s g = 2 then gE s g * 8
  else gCMAX s g * gPLEN s g
/-- Octets of an output's payload (R373, R374). -/
def gOutLen (s : State) (g : Nat) : Nat :=
  if gRED s g ≤ 1 then gE s g * typePart (gOUT s g) * typeParts (gOUT s g) / 8
  else if gRED s g = 2 then gPLEN s g + (if s.on (.gth .GRP_MAX_IDX) g then gE s g else 0)
  else gCMAX s g * gPLEN s g
/-- BPER in 2^-16 ns. -/
def gBPER (s : State) (g : Nat) : Nat := s.rd (.gth .GRP_BPER) g * 65536
/-- T0 in 2^-16 ns. -/
def gT0 (s : State) (g : Nat) : Nat := u96 (s.rd (.gth .GRP_T0) g)
/-- Start of bin n (R362). -/
def gStart (s : State) (g n : Nat) : Nat := gT0 s g + n * gBPER s g
/-- The types of a group fit its reduction (Table 11.4, R372, R373). -/
def gTypesOk (s : State) (g : Nat) : Bool :=
  let t := gIN s g
  let o := gOUT s g
  let outOk := typeParts o == typeParts t && 8 ≤ typePart o * typeParts o
  let nout := s.rd (.gth .GRP_NOUT) g
  if gRED s g = 0 then (t == 1 || t == 2 || t == 4 || t == 5 || t == 6) && outOk && nout == 0
  else if gRED s g = 1 then (t == 4 || t == 5 || t == 6) && outOk && s.rd (.gth .GRP_WLEN_LOG) g ≤ 12
  else if gRED s g = 2 then (t == 1 || t == 2 || t == 4 || t == 5 || t == 6) && nout == 0
  else nout == 0

/-- Octets of the weights of a bank (R372). -/
def gWtLen (s : State) (g : Nat) : Nat :=
  if gRED s g = 1 then gNOUT s g * gCMAX s g * 2 ^ s.rd (.gth .GRP_WLEN_LOG) g * (2 * (s.rd (.gth .GRP_WT_TYPE) g + 1)) else 0

/-- A write of EN = 1 is accepted (R386). -/
def State.gthEnOk (s : State) (g : Nat) : Bool :=
  let bper := s.rd (.gth .GRP_BPER) g
  let dl := s.rd (.gth .GRP_DL_OFS) g
  let plen := gPLEN s g
  let mask := s.rd (.gth .GRP_ENG_MASK) g
  let tpl := s.rd (.gth .GRP_TPL_LEN) g
  let gb := s.rd (.gth .GRP_GB_OFS) g
  let rt := s.rd (.gth .GRP_RTAG_OFS) g
  let home := s.on (.gth .GRP_BIN_HOME) g
  let wl := gWtLen s g
  256 ≤ bper && bper ≤ 1000000000 && dl ≤ 1000000000 &&
  !(s.on (.gth .GRP_EMIT_MODE) g && decide (s.rd (.gth .GRP_EMIT_OFS) g < dl)) &&
  plen % 64 == 0 && 64 ≤ plen && plen ≤ 16320 && s.rd (.gth .GRP_SAMPLE_FMT) g != 3 && gTypesOk s g &&
  s.rd (.gth .GRP_EXPECT) g != 0 && mask != 0 &&
  (bitsOf 8 mask).all (fun j => s.variant.hasEngine (8 * (g / 256) + j) && !s.on (.eng .CTL_UNUSABLE) (8 * (g / 256) + j)) &&
  (home || decide (s.rd (.gth .GRP_BIN_BASE) g + s.rd (.gth .GRP_NSLOT) g * gBinSize s g ≤ 0x400000)) &&
  s.rd (.gth .GRP_WBASE_A) g + wl ≤ 0x400000 && s.rd (.gth .GRP_WBASE_B) g + wl ≤ 0x400000 &&
  s.rd (.gth .GRP_TPL_OFS) g + tpl ≤ 0x400000 && s.rd (.gth .GRP_OMETA_OFS) g + 64 ≤ 0x400000 &&
  gb + 64 ≤ tpl && (rt == 0 || (decide (rt + 2 ≤ tpl) && (decide (rt + 2 ≤ gb) || decide (gb + 64 ≤ rt)))) &&
  tpl + gOutLen s g + 4 ≤ 16383 && !(home && (s.variant.nStacks == 0 || decide (131072 < gBinSize s g)))

/-! ## Serving engines and banks (R363, R375) -/

/-- The serving engines of a group, ascending, as numbers in the half. -/
def gList (s : State) (g : Nat) : List Nat := bitsOf 8 (s.rd (.gth .GRP_ENG_MASK) g)

/-- The engine that serves bin n: its own, or the next live one of the list, wrapping. -/
def gServe (s : State) (g n : Nat) : Option Nat :=
  let l := gList s g
  let k := if l.length = 0 then 0 else n % l.length
  ((l.drop k ++ l.take k).find? (fun j => bit j (s.rd (.gth .GRP_ENG_LIVE) g))).map (fun j => 8 * (g / 256) + j)

/-- Local slot of bin n. -/
def gSlot (s : State) (g n : Nat) : Nat :=
  let l := (gList s g).length
  if l = 0 ∨ s.rd (.gth .GRP_NSLOT) g = 0 then 0 else n / l % s.rd (.gth .GRP_NSLOT) g

/-- The weight bank a bin that opens now takes. -/
def gBank (s : State) (g n : Nat) : Bool :=
  if s.h .gthBankT g ≤ gStart s g n then s.on (.gth .GRP_WBANK_APPLIED) g else s.h .gthBankOld g == 1

/-- No serving engine is live: FAULT (R363). -/
def State.gthFault (s : State) (g : Nat) : State :=
  (s.wr (.gth .GRP_STATE) g gFAULT).raise .GTH_GROUP_FAULT (locHalf (g / 256)) g

/-! ## Reductions (R370-R374) -/

/-- A number wrapped to `w` bits, signed. -/
def wrapS (w : Nat) (v : Int) : Int := toS w (ofS w v)

/-- Part k of a payload of parts of `w` bits. -/
def payPart (w : Nat) (p : List Byte) (k : Nat) : Int :=
  if w = 4 then toS 4 (bits (4 * (k % 2)) 4 (p.getD (k / 2) 0).toNat) else toS w (leNat ((p.drop (k * (w / 8))).take (w / 8)))

/-- A bin's accumulators before any contribution. -/
def gZero (s : State) (g : Nat) : List Int :=
  let n := if gRED s g = 0 then gE s g * typeParts (gIN s g)
    else if gRED s g = 1 then gNOUT s g * gE s g * 2
    else if gRED s g = 2 then gE s g * 3 else gCMAX s g * gPLEN s g
  List.replicate n 0

/-- Weight w[o][c][k] from the Pantry of engine `e`: real and imaginary part (R372). -/
def State.weight (s : State) (g e : Nat) (bank : Bool) (o c k : Nat) : Int × Int :=
  let sz := 2 * (s.rd (.gth .GRP_WT_TYPE) g + 1)
  let base := if bank then s.rd (.gth .GRP_WBASE_B) g else s.rd (.gth .GRP_WBASE_A) g
  let a := e * 0x400000 + base + ((o * gCMAX s g + c) * 2 ^ s.rd (.gth .GRP_WLEN_LOG) g + k) * sz
  let v := s.rdMem .pantry a sz
  (toS (4 * sz) (v % 2 ^ (4 * sz)), toS (4 * sz) (v / 2 ^ (4 * sz)))

/-- Accumulators with contributor `c`'s payload accumulated. -/
def State.reduce (s : State) (g e : Nat) (bank : Bool) (c : Nat) (p : List Byte) (acc : List Int) : List Int :=
  let t := gIN s g
  let w := typePart t
  let np := typeParts t
  let aw := gAccW s g
  if gRED s g = 0 then acc.mapIdx (fun k v => wrapS aw (v + payPart w p k))
  else if gRED s g = 1 then
    let ne := gE s g
    acc.mapIdx (fun k v =>
      let o := k / (2 * ne)
      let i := k % (2 * ne) / 2
      let (wr, wi) := s.weight g e bank o c (i % 2 ^ s.rd (.gth .GRP_WLEN_LOG) g)
      let xr := payPart w p (2 * i)
      let xi := payPart w p (2 * i + 1)
      wrapS aw (v + (if k % 2 = 0 then wr * xr - wi * xi else wr * xi + wi * xr)))
  else if gRED s g = 2 then
    (List.range (gE s g)).flatMap (fun i =>
      let re := payPart w p (np * i)
      let im := if np = 2 then payPart w p (2 * i + 1) else 0
      let ore := acc.getD (3 * i) 0
      let oim := acc.getD (3 * i + 1) 0
      let oc := acc.getD (3 * i + 2) 0
      let key := if np = 2 then re * re + im * im else re
      let okey := if np = 2 then ore * ore + oim * oim else ore
      if oc = 0 ∨ okey < key ∨ (okey = key ∧ (c : Int) + 1 < oc) then [re, im, c + 1] else [ore, oim, oc])
  else acc.take (c * gPLEN s g) ++ p.map (fun b => (b.toNat : Int)) ++ acc.drop (c * gPLEN s g + p.length)

/-- One accumulator part converted to a part of `w` bits: the value, and whether it saturated (R373). -/
def convPart (w sh : Nat) (v : Int) : Int × Bool :=
  let r : Int := if sh = 0 then 0 else 2 ^ (sh - 1)
  let y := (v + r) / 2 ^ sh
  let hi : Int := 2 ^ (w - 1) - 1
  if hi < y then (hi, true) else if y < -(hi + 1) then (-(hi + 1), true) else (y, false)

/-- Parts packed little-endian (R360). -/
def packParts (w : Nat) (l : List Int) : List Byte :=
  leBytes ((l.length * w + 7) / 8) ((l.foldr (fun v n => n * 2 ^ w + ofS w v) 0))

/-- Payload of output `o`. -/
def State.gPayload (s : State) (g o : Nat) (acc : List Int) : List Byte :=
  if gRED s g ≤ 1 then
    let n := gE s g * typeParts (gIN s g)
    let w := typePart (gOUT s g)
    packParts w (((acc.drop (o * n)).take n).map (fun v => (convPart w (s.rd (.gth .GRP_OSHIFT) g) v).1))
  else if gRED s g = 2 then
    let np := typeParts (gIN s g)
    let vals := (List.range (gE s g)).flatMap (fun i => (acc.drop (3 * i)).take np)
    packParts (typePart (gIN s g)) vals ++
      (if s.on (.gth .GRP_MAX_IDX) g then
        (List.range (gE s g)).map (fun i => BitVec.ofInt 8 (acc.getD (3 * i + 2) 0 - 1)) else [])
  else acc.map (fun v => BitVec.ofInt 8 v)

/-- Some part of the bin saturates. -/
def State.gSat (s : State) (g : Nat) (acc : List Int) : Bool :=
  gRED s g ≤ 1 && acc.any (fun v => (convPart (typePart (gOUT s g)) (s.rd (.gth .GRP_OSHIFT) g) v).2)

/-! ## Output frames (R383, R384) -/

/-- The kinds of emission. -/
structure EmitKind where
  supp : Bool := false
  empty : Bool := false
  evicted : Bool := false
  deriving DecidableEq, Repr

/-- The gather block (Table 11.5). -/
def State.gBlock (s : State) (g n o : Nat) (k : EmitKind) (full sat bank : Bool) (done : Nat) : List Byte :=
  let part := !full && !k.supp
  let flags := (full && !k.supp).toNat + 2 * part.toNat + 4 * k.supp.toNat + 8 * k.empty.toNat + 16 * k.evicted.toNat +
    32 * sat.toNat + 64 * bank.toNat
  beBytes 12 (of96 (gStart s g n)) ++ beBytes 8 n ++ beBytes 2 g ++ beBytes 1 o ++ beBytes 1 flags ++
    beBytes 2 (bitsOf 256 done).length ++ beBytes 2 (s.h .unitGen (30 + g / 256)) ++ beBytes 4 0 ++ leBytes 32 done

/-- Octets of output `o`'s frame, without FCS. -/
def State.gFrame (s : State) (g n o e : Nat) (blk payload : List Byte) : List Byte :=
  let tpl := s.bytes .pantry (e * 0x400000 + s.rd (.gth .GRP_TPL_OFS) g) (s.rd (.gth .GRP_TPL_LEN) g)
  let f := octetsPut tpl (s.rd (.gth .GRP_GB_OFS) g) blk
  let rt := s.rd (.gth .GRP_RTAG_OFS) g
  (if rt = 0 then f else octetsPut f rt (beBytes 2 (n * gNOUT s g + o))) ++ payload

/-- A copy an output or an emit offers; refused, it is freed. An output with a release time waits in the engine's emit store
where that has room. -/
def State.goutOffer (s : State) (x : GOut) (h : Nat) : State :=
  let md := injMd x.md h (x.octets.length + 4) 1 x.eng
  match x.time with
  | none => s.offerOrDrop { handle := h, md := md }
  | some t =>
    if s.timeReached t ∨ 64 ≤ (s.emits.filter (fun y => y.eng == x.eng)).length then
      (s.count (.gth .GCNT_EMIT_LATE) x.grp).offerOrDrop { handle := h, md := md }
    else { s with emits := emitIn ⟨x.eng, t, h, md⟩ s.emits }

/-- An output is lost. -/
def State.goutLost (s : State) (x : GOut) : State := s.count (.gth .GCNT_BIN_LOST) x.grp

/-- An output takes its Granary chain and is offered; false where the allocation is denied. -/
def State.goutTry (s : State) (x : GOut) : Bool × State :=
  if ¬ kindOk (mdDKIND.get x.md) then (true, s.goutLost x)
  else match s.grantChain (72 + x.eng) (cellsOf (x.octets.length + 4)) [] with
    | (none, s) => (false, s)
    | (some hs, s) =>
      let h := hs.headD 0
      let s := s.joinChain 1 (mdPFC_PRI.get x.md) hs
      let s := s.setFrameBytes h 0 x.octets
      let s := s.setBuf h { s.buf h with len := x.octets.length + 4 }
      (true, s.goutOffer x h)

/-- An output is sent, or waits up to 10 µs for its buffers. -/
def State.goutSend (s : State) (x : GOut) : State :=
  match s.goutTry x with
  | (true, s) => s
  | (false, s) => { s with gouts := s.gouts ++ [x] }

/-- OUTPUT_ALLOC_TIMEOUT (R383): engine e's oldest waiting output, tried once more. -/
def execOutputAllocTimeout (e : Fin 16) (s : State) : Host.Outcome State Fault Refusal :=
  .next (s.inUnit .GTH (e / 8) (fun s =>
    match s.gouts.find? (fun x => x.eng == e.val) with
    | none => s
    | some x =>
      match { s with gouts := s.gouts.erase x }.goutTry x with
      | (true, s) => s
      | (false, s) => s.goutLost x))

/-- One frame for each output of a bin or supplement (R383). -/
def State.gEmitFrames (s : State) (g n e : Nat) (k : EmitKind) (bank : Bool) (done : Nat) (acc : List Int) : State :=
  let full := done == s.rd (.gth .GRP_EXPECT) g
  let sat := s.gSat g acc
  let s := if sat then s.count (.gth .GCNT_SAT) g else s
  let md := s.rdMem .pantry (e * 0x400000 + s.rd (.gth .GRP_OMETA_OFS) g) 64
  let flags := 2 + 4 * (!full && !k.supp).toNat + 8 * k.supp.toNat
  let md := mdGFLAGS.put flags (mdSTIME_OFS.put (s.rd (.gth .GRP_GB_OFS) g) (mdGRP.put g md))
  let time := if s.on (.gth .GRP_EMIT_MODE) g then
      some (of96 (gStart s g (n + 1) + s.rd (.gth .GRP_EMIT_OFS) g * 65536)) else none
  (List.range (gNOUT s g)).foldl (fun s o =>
    s.goutSend ⟨e, g, s.gFrame g n o e (s.gBlock g n o k full sat bank done) (s.gPayload g o acc), md, time⟩) s

/-- An open bin replaced. -/
def State.setBin (s : State) (b : Bin) : State :=
  { s with bins := s.bins.map (fun x => if x.grp = b.grp ∧ x.n = b.n then b else x) }

/-- A bin is emitted once (R365); its Cellar buffer goes. A bin whose deadline has fired leaves. -/
def State.binEmit (s : State) (b : Bin) (k : EmitKind) : State :=
  let full := b.done == s.rd (.gth .GRP_EXPECT) b.grp
  let s := s.count (if full then .gth .GCNT_EMIT_FULL else .gth .GCNT_EMIT_PART) b.grp
  let s := s.gEmitFrames b.grp b.n b.eng k b.bank b.done b.acc
  let s := match b.home with | some h => s.drop1 h | none => s
  let s := if b.fired then { s with bins := s.bins.filter (fun x => !(x.grp == b.grp && x.n == b.n)) }
    else s.setBin
      { b with emitted := true, home := none, acc := [], holds := b.holds && !k.evicted, lost := b.lost || k.evicted }
  s.gDrained b.grp

/-- The open bin n of a group. -/
def State.binOf (s : State) (g n : Nat) : Option Bin := s.bins.find? (fun b => b.grp == g && b.n == n)

/-- The bin is due: complete, or past its deadline with every claim accumulated (R365). -/
def State.binDue (s : State) (b : Bin) : Bool :=
  !b.emitted && !b.lost && b.claims == b.done && (b.fired || b.claims == s.rd (.gth .GRP_EXPECT) b.grp)

/-! ## Accumulation (R376) -/

/-- A queued contribution is accumulated into its bin and gives its reference back. -/
def State.accumulate (s : State) (x : Contrib) : State :=
  match s.binOf x.grp x.n with
  | none => s.drop1 x.handle
  | some b =>
    let p := s.frameBytes x.handle x.pay (gPLEN s x.grp)
    let b := { b with done := setBit x.c b.done, acc := s.reduce x.grp b.eng b.bank x.c p b.acc }
    (s.setBin b).drop1 x.handle

/-- GATHER_STEP (R376): engine e's gather unit emits what waits for buffers, else accumulates its oldest contribution. -/
def State.gatherStep (s : State) (e : Nat) : State :=
  let s := (s.gouts.filter (fun x => x.eng == e)).foldl (fun s x =>
    match s.goutTry x with
    | (true, s) => { s with gouts := s.gouts.erase x }
    | (false, s) => s) s
  match s.gqOf e with
  | [] => s
  | x :: l =>
    let s := (s.setGq e l).accumulate x
    match s.binOf x.grp x.n with
    | none => s
    | some b => if s.binDue b then s.binEmit b {} else s

/-- GATHER_STEP (R376). -/
def execGatherStep (e : Fin 16) (s : State) : Host.Outcome State Fault Refusal :=
  .next (s.inUnit .GTH (e / 8) (fun s => s.gatherStep e))

/-! ## Deadlines (R366, R368, R369) -/

/-- Deadline of bin n in 2^-16 ns. -/
def gDeadline (s : State) (g n : Nat) : Nat := gStart s g (n + 1) + s.rd (.gth .GRP_DL_OFS) g * 65536

/-- The last step passed over a time. -/
def State.stepOver (s : State) (u : Nat) : Bool :=
  s.h .stepFrom != 0 && decide (s.h .stepFrom - 1 < u ∧ u ≤ s.h .stepTo)

/-- An empty bin is emitted, or counted where a step passed its deadline over (R368). -/
def State.emptyEmit (s : State) (g n : Nat) : State :=
  if ¬ s.on (.gth .GRP_EMIT_EMPTY) g then s
  else if s.stepOver (gDeadline s g n) then s.count (.gth .GCNT_SKIPPED) g
  else match gServe s g n with
    | none => s.gthFault g
    | some e =>
      (s.count (.gth .GCNT_EMIT_PART) g).gEmitFrames g n e { empty := true } (gBank s g n) 0 (gZero s g)

/-- Bin n of group g meets its deadline (R365). -/
def State.binFire (s : State) (g n : Nat) : State :=
  match s.binOf g n with
  | none => s.emptyEmit g n
  | some b =>
    if b.emitted ∨ b.lost then { s with bins := s.bins.filter (fun x => !(x.grp == g && x.n == n)) }
    else
      let b := { b with fired := true }
      let s := s.setBin b
      if s.binDue b then s.binEmit b {} else s

/-- The deadline of the bin at FLOOR fires. -/
def State.binDeadline (s : State) (g : Nat) : State :=
  let n := s.rd (.gth .GRP_FLOOR) g
  ((s.passBell (of96 (gDeadline s g n))).wr (.gth .GRP_FLOOR) g (n + 1)).binFire g n

/-- BIN_DEADLINE (R365): the next deadline of group g. -/
def execBinDeadline (g : Fin 512) (s : State) : Host.Outcome State Fault Refusal :=
  .next (s.inUnit .GTH (g / 256) (fun s =>
    s.when (gState s g == gRUN || gState s g == gDRAIN) (fun s => s.binDeadline g)))

/-! ## Contributions (R361, R364-R367, R379, R380) -/

/-- A contribution is dropped: counted, DEREF 1. -/
def State.contribDrop (s : State) (f : Fld) (i h : Nat) : State := (s.count f i).drop1 h

/-- Octets of the sample-time field (Table 11.2). -/
def stimeLen (fmt : Nat) : Nat := if fmt = 0 then 12 else if fmt = 1 then 10 else 8

/-- The sample time of a contribution in 2^-16 ns (Table 11.2). -/
def State.sampleTime (s : State) (g h ofs : Nat) : Nat :=
  let fmt := s.rd (.gth .GRP_SAMPLE_FMT) g
  let v := beNat (s.frameBytes h ofs (stimeLen fmt))
  if fmt = 0 then u96 v else if fmt = 1 then u96 (v * 65536) else gT0 s g + v * s.rd (.gth .GRP_SPER) g

/-- Place of the contributor octet (signed) and of the payload in the frame. -/
def State.cidAt (s : State) (g ofs : Nat) : Int := (ofs : Int) + s.rdS (.gth .GRP_CID_REL) g
def State.payAt (s : State) (g ofs : Nat) : Nat := ofs + s.rd (.gth .GRP_PAY_REL) g

/-- The pool of a spilled bin: the smallest that holds it. -/
def spillPool (n : Nat) : Nat := if n ≤ 2048 then 1 else if n ≤ 16384 then 2 else 3

/-- Bins of half `h` in the Cellar. -/
def State.spilled (s : State) (h : Nat) : Nat := (s.bins.filter (fun b => b.grp / 256 == h && b.home.isSome)).length

/-- A Cellar buffer for a bin, where it may spill (R379, R380). -/
def State.binHome (s : State) (g e : Nat) : Option Nat × State :=
  if s.variant.nStacks = 0 ∨ 131072 < gBinSize s g ∨ 64 ≤ s.spilled (g / 256) then (none, s)
  else s.grantFb (72 + e) (spillPool (gBinSize s g)) true

/-- A bin opens (R364). -/
def State.binOpen (s : State) (g n e : Nat) (home : Option Nat) : State :=
  { s with bins := s.bins ++ [{ grp := g, n := n, bank := gBank s g n, eng := e, slot := gSlot s g n,
                                holds := home.isNone, home := home, acc := gZero s g }] }

/-- The bin that holds the slot of bin n on engine `e`. -/
def State.slotHolder (s : State) (g n e : Nat) : Option Bin :=
  s.bins.find? (fun b => b.grp == g && b.holds && b.eng == e && b.slot == gSlot s g n && b.n != n)

/-- The older bin is emitted at once, after its claimed contributions (R380). -/
def State.evict (s : State) (b : Bin) : State :=
  let mine := (s.gqOf b.eng).filter (fun c => c.grp == b.grp && c.n == b.n)
  let s := s.setGq b.eng ((s.gqOf b.eng).filter (fun c => !(c.grp == b.grp && c.n == b.n)))
  let s := mine.foldl (fun s c => s.accumulate c) s
  let s := s.count (.gth .GCNT_EVICTED) b.grp
  match s.binOf b.grp b.n with
  | none => s
  | some b => if b.emitted then s.setBin { b with holds := false, lost := true } else s.binEmit b { evicted := true }

/-- Bin n gets its place on engine `e`, or none (R364, R379, R380). -/
def State.binPlace (s : State) (g n e : Nat) : Bool × State :=
  let holder := s.slotHolder g n e
  let always := s.on (.gth .GRP_BIN_HOME) g
  if holder = none ∧ ¬ always then (true, s.binOpen g n e none)
  else
    let (home, s) := if always ∨ s.on (.gth .GRP_SPILL) g then s.binHome g e else (none, s)
    match home with
    | some h => (true, ((s.binOpen g n e (some h)).count (.gth .GCNT_SPILLED) g).raise .GTH_SPILL (locHalf (g / 256)) g)
    | none =>
      match holder with
      | some b => if s.on (.gth .GRP_EVICT) g then (true, (s.evict b).binOpen g n e none) else (false, s)
      | none => (false, s)

/-- A late contribution: dropped, or a supplement (R367). -/
def State.contribLate (s : State) (g n c h ofs : Nat) : State :=
  let old := n + s.rd (.gth .GRP_LATE_MAX) g < s.rd (.gth .GRP_FLOOR) g
  match gServe s g n with
  | some e =>
    if ¬ s.on (.gth .GRP_LATE_MODE) g ∨ old then
      let s := s.contribDrop (.gth .GCNT_LATE) g h
      if s.on (.gth .GRP_LATE_MODE) g then s else s.raise .GTH_LATE (locHalf (g / 256)) g
    else
      let bank := gBank s g n
      let acc := s.reduce g e bank c (s.frameBytes h (s.payAt g ofs) (gPLEN s g)) (gZero s g)
      ((s.gEmitFrames g n e { supp := true } bank (2 ^ c) acc).count (.gth .GCNT_SUPP) g).drop1 h
  | none => (s.contribDrop (.gth .GCNT_LATE) g h).raise .GTH_LATE (locHalf (g / 256)) g

/-- Rows 8 to 10 of Table 11.3. -/
def State.contribClaim (s : State) (g n c h ofs : Nat) : State :=
  let serve := match s.binOf g n with | some b => some b.eng | none => gServe s g n
  match serve with
  | none => (s.contribDrop (.gth .GCNT_NO_SLOT) g h).gthFault g
  | some e =>
    let (ok, s1) := match s.binOf g n with | some _ => (true, s) | none => s.binPlace g n e
    if ¬ ok then (s1.contribDrop (.gth .GCNT_NO_SLOT) g h).raise .GTH_NO_SLOT (locHalf (g / 256)) g
    else if 512 ≤ (s.gqOf e).length then (s.contribDrop (.gth .ENG_QFULL) e h).raise .GTH_QUEUE_FULL (locEngine e)
    else match s1.binOf g n with
      | none => s1.drop1 h
      | some b =>
        (s1.setBin { b with claims := setBit c b.claims }).setGq e (s1.gqOf e ++ [⟨g, n, c, h, s1.payAt g ofs⟩])

/-- The bin is late: its deadline has fired, it was lost or evicted, or its slot holds a newer bin (R366, R381). -/
def State.binLate (s : State) (g n : Nat) : Bool :=
  decide (n < s.rd (.gth .GRP_FLOOR) g) ||
  (match s.binOf g n with
   | some b => b.lost
   | none => match gServe s g n with
     | some e => (match s.slotHolder g n e with | some b => decide (n < b.n) | none => false)
     | none => false)

/-- A contribution of half `hf` gets the first verdict of Table 11.3 that holds. -/
def State.contribute (s : State) (hf : Nat) (d : Copy) : State :=
  let g := mdGRP.get d.md
  let h := d.handle
  if 511 < g ∨ g / 256 ≠ hf ∨ ¬ (gState s g = gRUN ∨ gState s g = gDRAIN) then s.contribDrop (.gth .BAD_GBAD) hf h
  else
    let ofs := mdSTIME_OFS.get d.md
    let lim := d.len - 4
    let ci := s.cidAt g ofs
    if lim < ofs + stimeLen (s.rd (.gth .GRP_SAMPLE_FMT) g) ∨ ci < 0 ∨ (lim : Int) ≤ ci ∨ lim < s.payAt g ofs + gPLEN s g then
      s.contribDrop (.gth .GCNT_BAD_LEN) g h
    else
      let c := beNat (s.frameBytes h ci.toNat 1)
      let t := s.sampleTime g h ofs
      let n := (t - gT0 s g) / gBPER s g
      if ¬ bit c (s.rd (.gth .GRP_EXPECT) g) then s.contribDrop (.gth .GCNT_NOT_EXP) g h
      else if t < gT0 s g ∨ n < s.h .gthStart g ∨ (gState s g = gDRAIN ∧ s.h .gthStop g ≤ n) then
        s.contribDrop (.gth .GCNT_OUT_RUN) g h
      else if s.nowU + s.rd (.gth .GRP_FUTURE) g * gBPER s g < gStart s g n then s.contribDrop (.gth .GCNT_EARLY) g h
      else if s.binLate g n then s.contribLate g n c h ofs
      else if (match s.binOf g n with | some b => bit c b.claims | none => false) then s.contribDrop (.gth .GCNT_DUP) g h
      else s.contribClaim g n c h ofs

/-- CONTRIBUTION_OFFER (R361): the gather unit of a half examines its oldest waiting contribution. -/
def execContributionOffer (hf : Fin 2) (s : State) : Host.Outcome State Fault Refusal :=
  .next (s.inUnit .GTH hf (fun s =>
    match s.ginOf hf with
    | [] => s
    | d :: l => (s.setGin hf l).contribute hf d))

/-! ## Engines that leave and return (R381, R382) -/

/-- Engine e is marked unusable or function-reset: out of every group, its bins lost, its gather queue empty. -/
def State.gthEngLost (s : State) (e : Nat) : State :=
  let s := s.binsLose (fun b => b.eng == e)
  let s := s.setGq e []
  let s := { s with gouts := s.gouts.filter (fun x => x.eng != e) }
  (List.range 256).foldl (fun s k =>
    let g := 256 * (e / 8) + k
    if bit (e % 8) (s.rd (.gth .GRP_ENG_LIVE) g) then
      let s := s.clrBitF (.gth .GRP_ENG_LIVE) g (e % 8)
      let s := if (gState s g = gRUN ∨ gState s g = gDRAIN) ∧ s.rd (.gth .GRP_ENG_LIVE) g = 0 then s.gthFault g else s
      s.gDrained g
    else s) s

/-- Bits written to RELIVE return to ENG_LIVE: serving engines that are usable. -/
def State.relive (s : State) (g m : Nat) : State :=
  ((bitsOf 8 m).filter (fun j => bit j (s.rd (.gth .GRP_ENG_MASK) g) && s.engTakes (8 * (g / 256) + j))).foldl
    (fun s j => s.setBitF (.gth .GRP_ENG_LIVE) g j) s

/-- RELIVE_WRITE (R382). -/
def execReliveWrite (r : Req) (g : Fin 512) (m : BitVec 8) (s : State) : Host.Outcome State Fault Refusal :=
  .next (s.writeTo r .GTH (g / 256) (fun s => s.relive g m.toNat))

/-! ## Commit of a gather unit (R375, R387) -/

/-- The first bin that starts at or after `u`. -/
def gFirst (s : State) (g u : Nat) : Nat :=
  if u ≤ gT0 s g ∨ gBPER s g = 0 then 0 else (u - gT0 s g + gBPER s g - 1) / gBPER s g

/-- Group g applies EN and WBANK at `u`. -/
def State.gthApply (s : State) (g u : Nat) : State :=
  let bank := s.rdA (.gth .GRP_WBANK) g
  let old := s.rd (.gth .GRP_WBANK_APPLIED) g
  let s := if bank = old then s
    else ((s.setH .gthBankOld g old).setH .gthBankT g u).wr (.gth .GRP_WBANK_APPLIED) g bank
  if s.rdA (.gth .GRP_EN) g = 1 then
    if gState s g ≠ gOFF then s
    else
      let n := gFirst s g u
      let s := ((s.wr (.gth .GRP_STATE) g gRUN).wr (.gth .GRP_FLOOR) g n).setH .gthStart g n
      s.wr (.gth .GRP_ENG_LIVE) g
        (maskOf ((gList s g).filter (fun j => s.engTakes (8 * (g / 256) + j))))
  else if gState s g = gRUN ∨ gState s g = gFAULT then
    ((s.wr (.gth .GRP_STATE) g gDRAIN).setH .gthStop g (gFirst s g u)).gDrained g
  else s

/-- Unit 30 + h applies at `u` in 2^-16 ns. -/
def State.gthCommit (s : State) (hf u : Nat) : State :=
  (List.range 256).foldl (fun s k => s.gthApply (256 * hf + k) u) s

end Sys2Proof.Machine
end

