-- ==== Sys2Proof/Machine/EngMark.lean ====
section
/-! DEFINITION. Engines marked unusable (R302) and the function reset of an engine (R303). -/

namespace Sys2Proof.Machine

/-- Drop every descriptor of an engine's input queues: DEREF 1 each, counted in EQ DROP where `counted`. -/
def State.eqFlush (s : State) (e : Nat) (counted : Bool) : State :=
  (List.range 64).foldl (fun s q =>
    let k := 64 * e + q
    let l := s.eq k
    let s := if counted then s.count (.eng .EQ_DROP) k l.length else s
    l.foldl (fun s d => s.drop1 d.handle) (s.setEq k [])) s

/-- Pending emits of an engine are dropped. -/
def State.emitFlush (s : State) (e : Nat) : State :=
  let mine := s.emits.filter (fun x => x.eng == e)
  mine.foldl (fun s x => s.drop1 x.handle) { s with emits := s.emits.filter (fun x => x.eng != e) }

/-- The servo engine has become unusable (R90). -/
def State.servoLost (s : State) (e : Nat) : State :=
  if s.domOn .bell ∧ s.rd (.bell .CTL_SERVO_ENG) 0 = e ∧ ¬ s.on (.bell .STATUS_SRC_APPLIED) 0 then s.servoFallback else s

/-- Engine e is marked unusable (R302): by LBIST (`why` 1), by the recovery actions (2) or by a write of MARK (3). -/
def State.engMark (s : State) (e why : Nat) : State :=
  if s.on (.eng .CTL_UNUSABLE) e then s
  else
    let s := (s.wr (.eng .CTL_UNUSABLE) e 1).setH .markWhy e why
    let s := (List.range 8).foldl (fun s t =>
      (s.setTstate e t tHALTED).wr (.eng .THR_TCAUSE_CAUSE) (thrIdx e t) 0x0D) s
    let s := ((s.eqFlush e true).emitFlush e).gthEngLost e
    let s := (s.ledger 0x0007 true (locEngine e) why).raise .ENG_UNUSABLE (locEngine e)
    s.servoLost e

/-- ENG_MARK (R302): ENG_CTL.MARK is written 1. ENG_CTL is not gated (R498). -/
def execEngMark (r : Req) (e : Fin 16) (s : State) : Host.Outcome State Fault Refusal :=
  .next (s.writeTo r .ENG e (fun s => (s.wr (.eng .CTL_MARK) e 1).engMark e 3) false)

/-- Fields coded F of the units a predicate picks return to their reset values (R16). -/
def State.resetF (s : State) (p : Grp → Nat → Bool) : State :=
  { s with regs := s.regs.filter (fun x => decide (x.1.1.desc.surv ≠ .F) || x.1.1.desc.nvm || !p x.1.1.desc.grp x.1.2) }

/-- Register groups of one engine. -/
def engGrp (g : Grp) : Bool := [Grp.ENG, .THR, .EQ, .HATCH, .CWIN, .PATTR].contains g

/-- The function reset of engine e (R303). -/
def State.engFreset (s : State) (e : Nat) : State :=
  let s := (List.range 8).foldl (fun s t => ((s.thrZero e t).setTstate e t tIDLE).wr (.eng .THR_TCAUSE_INTRAP) (thrIdx e t) 0) s
  let s := ((s.eqFlush e false).emitFlush e).gthEngLost e
  let s := (List.range 16).foldl (fun s h => s.setHatch (16 * e + h) []) s
  let s := (s.cacheClear e).wr (.eng .CTL_CINV_BUSY) e 0
  let s := s.resetF (fun g i => engGrp g && g.outer i == e)
  (s.wr (.eng .CTL_WIPING) e 1).setH .pwipeAt e (s.age + usTicks 50)

/-- ENG_FRESET (R303). -/
def execEngFreset (r : Req) (e : Fin 16) (s : State) : Host.Outcome State Fault Refusal :=
  .next (s.writeTo r .ENG e (fun s => s.engFreset e) false)

/-- The Pantry of engine e reads 0. -/
def State.pantryWipe (s : State) (e : Nat) : State := s.wipe .pantry (e * 0x400000) (e * 0x400000 + 0x400000)

/-- PANTRY_WIPE_DONE (R303): 50 µs after the reset. -/
def execPantryWipeDone (e : Fin 16) (s : State) : Host.Outcome State Fault Refusal :=
  .next (s.inDom .engine (fun s => s.when (s.on (.eng .CTL_WIPING) e)
    (fun s => ((s.passAge (s.h .pwipeAt e)).pantryWipe e).wr (.eng .CTL_WIPING) e 0)))

end Sys2Proof.Machine
end

