-- ==== Sys2Proof/Machine/Stream.lean ====
section
/-! DEFINITION. What the hardware reads in a frame: EtherType and tags, in-band management (R244, R412), streams and their
sequence recovery (R407), and the sequence watch (R406). -/

namespace Sys2Proof.Machine

/-! ## Frame fields -/

/-- A big-endian field of `n` octets at octet `o`. -/
def fieldAt (l : List Byte) (o n : Nat) : Nat := beNat (octetsAt l o n)

/-- Destination address. -/
def frameDa (l : List Byte) : Nat := fieldAt l 0 6

/-- The frame carries one VLAN tag. -/
def tagged (l : List Byte) : Bool := fieldAt l 12 2 == 0x8100

/-- Place of the EtherType behind an optional tag. -/
def etAt (l : List Byte) : Nat := if tagged l then 16 else 12

/-- VID, 4095 for an untagged frame (R407). -/
def frameVid (l : List Byte) : Nat := if tagged l then fieldAt l 14 2 % 4096 else 4095

/-- A MAC Control frame, with its opcode (R246). -/
def macCtl (l : List Byte) : Option Nat := if fieldAt l 12 2 = 0x8808 then some (fieldAt l 14 2) else none

/-- Place of the in-band management header, where the frame is one of the programmed EtherType or UDP port (R412). -/
def State.mgmtAt (s : State) (l : List Byte) : Option Nat :=
  let e := etAt l
  let et := fieldAt l e 2
  let l4 := s.rd (.twn .TRE_L4) 0
  let udp := s.rd (.twn .TRE_UDP) 0
  if l4 = 0 then (if s.rd (.twn .TRE_ETYPE) 0 ≠ 0 ∧ et = s.rd (.twn .TRE_ETYPE) 0 then some (e + 2) else none)
  else if udp = 0 then none
  else if l4 = 1 then
    let ihl := fieldAt l (e + 2) 1 % 16 * 4
    if et = 0x0800 ∧ fieldAt l (e + 11) 1 = 17 ∧ fieldAt l (e + 2 + ihl + 2) 2 = udp then some (e + 2 + ihl + 8) else none
  else if et = 0x86DD ∧ fieldAt l (e + 8) 1 = 17 ∧ fieldAt l (e + 44) 2 = udp then some (e + 50)
  else none

/-- The frame is a survey message: in-band management of class 0x05 (R137). -/
def State.isSurvey (s : State) (l : List Byte) : Bool :=
  match s.mgmtAt l with
  | some h => fieldAt l h 1 == 0x05
  | none => false

/-- The enabled station address of port p that the destination equals (R244). -/
def State.staHit (s : State) (p : Nat) (l : List Byte) : Option Nat :=
  (List.range 8).find? (fun k => s.on (.port .STA_EN) (8 * p + k) && s.rd (.port .STA_ADDR) (8 * p + k) == frameDa l)

/-! ## Streams (R407) -/

/-- The enabled stream of a frame: null stream identification on destination address and VID (R407). -/
def State.streamOf (s : State) (l : List Byte) : Option Nat :=
  (List.range 256).find? (fun k => s.on (.twn .STRM_EN) k && s.rd (.twn .STRM_DA) k == frameDa l &&
    s.rd (.twn .STRM_VID) k == frameVid l)

/-- The sequence number of an R-TAG directly after the source address or after one VLAN tag (R407). -/
def rtagSeq (l : List Byte) : Option Nat :=
  if fieldAt l (etAt l) 2 = 0xF1C1 then some (fieldAt l (etAt l + 4) 2) else none

/-- A frame of stream k with number `seq` passes the vector recovery algorithm of IEEE 802.1CB (R407, log entry 46): the
answer says whether it passes. -/
def State.recover (s : State) (k seq : Nat) : Bool × State :=
  let pass := fun (s : State) => (s.count (.twn .SCNT_PASSED) k).setH .strmAt k s.age
  let w := s.rd (.twn .STRM_WINDOW) k
  let rec_ := s.rd (.twn .STRM_RECOV_SEQ) k
  let hist := s.h .strmHist k
  let fwd := (seq + 65536 - rec_) % 65536
  if s.h .strmTake k = 0 then
    (true, pass (((s.setH .strmTake k 1).setH .strmHist k 1).wr (.twn .STRM_RECOV_SEQ) k seq))
  else if fwd < 32768 ∧ fwd ≠ 0 then
    if w ≤ fwd then (false, s.count (.twn .SCNT_ROGUE) k)
    else (true, pass ((s.setH .strmHist k (trunc w (hist * 2 ^ fwd + 1))).wr (.twn .STRM_RECOV_SEQ) k seq))
  else
    let back := (65536 - fwd) % 65536
    if w ≤ back then (false, s.count (.twn .SCNT_ROGUE) k)
    else if bit back hist then (false, s.count (.twn .SCNT_DISCARD) k)
    else (true, pass (s.setH .strmHist k (setBit back hist)))

/-! ## The sequence watch (R406) -/

/-- The condition for the standby to take the active role by itself (R402, R406): link DOWN, AUTO_TAKE, some watch entry
enabled and every enabled one LOST. -/
def State.autoTake (s : State) : Bool :=
  let ws := (List.range 8).filter (fun w => s.on (.twn .WATCH_EN) w)
  s.role == twSTANDBY && s.rd (.twn .STATUS_LINK) 0 == 0 && s.on (.twn .CTL_AUTO_TAKE) 0 && !ws.isEmpty &&
    ws.all (fun w => s.on (.twn .WATCH_LOST) w)

/-- When that condition comes to hold, an internal commit is asked for and TWN.SEQ_LOSS raised (Table 12.4). -/
def State.autoTakeFrom (old s : State) : State :=
  if s.autoTake ∧ ¬ old.autoTake then (s.intRequest { role := twACTIVE + 1 }).raise .TWN_SEQ_LOSS else s

/-- Entry w's gap is above SEQ_LOSS (R406). -/
def State.watchGapOver (s : State) (w : Nat) : Bool :=
  s.rd (.twn .WATCH_SEQ_LOSS) w <
    (s.rd (.twn .STRM_RECOV_SEQ) (s.rd (.twn .WATCH_STREAM) w) + 65536 - s.rd (.twn .WATCH_LAST_SEQ) w) % 65536

/-- After RECOV_SEQ of stream k has moved, its watch entries may be LOST (R406). -/
def State.watchMoved (s : State) (k : Nat) : State :=
  let s' := (List.range 8).foldl (fun s w =>
    if s.on (.twn .WATCH_EN) w ∧ s.rd (.twn .WATCH_STREAM) w = k ∧ s.watchGapOver w then s.wr (.twn .WATCH_LOST) w 1 else s) s
  State.autoTakeFrom s s'

/-- A frame of a watched stream is received on port p, before elimination: LAST_SEQ, and LOST by its gap (R406). -/
def State.watchRx (s : State) (p : Nat) (l : List Byte) : State :=
  match s.streamOf l, rtagSeq l with
  | some k, some seq =>
    let s' := (List.range 8).foldl (fun s w =>
      if s.on (.twn .WATCH_EN) w ∧ s.rd (.twn .WATCH_STREAM) w = k ∧ s.rd (.twn .WATCH_PORT) w = p then
        let s := s.wr (.twn .WATCH_LAST_SEQ) w seq
        s.wr (.twn .WATCH_LOST) w (s.watchGapOver w).toNat
      else s) s
    State.autoTakeFrom s s'
  | _, _ => s

/-- Recovery as the frame leaves ingress stage 11: `false` where it is discarded (R407). -/
def State.streamPass (s : State) (l : List Byte) : Bool × State :=
  match s.streamOf l with
  | none => (true, s)
  | some k =>
    match rtagSeq l with
    | none => (true, s.count (.twn .SCNT_UNTAGGED) k)
    | some seq => let r := s.recover k seq; (r.1, r.2.watchMoved k)

/-- STREAM_RESET_TIMEOUT (R407): RESET_MS without a frame resets the stream's recovery history. -/
def execStreamResetTimeout (k : Fin 256) (s : State) : Host.Outcome State Fault Refusal :=
  .next (s.inUnit .STRM k (fun s =>
    if s.h .strmTake k = 0 then s
    else
      let s := s.passAge (s.h .strmAt k + msTicks (s.rd (.twn .STRM_RESET_MS) k))
      (((s.setH .strmTake k 0).setH .strmHist k 0).count (.twn .SCNT_RESETS) k)))

end Sys2Proof.Machine
end

