-- ==== Sys2Proof/Machine/Forward.lean ====
section
/-! DEFINITION. A frame's way in: the MAC (R243-R246), the ingress pipeline (R217-R221), its destinations (R229-R232), the
cut-through decision (R233), and its end (R235, R236). -/

namespace Sys2Proof.Machine

/-! ## Ends of a frame in reception -/

/-- Every copy of frame `h` that waits for its end becomes complete (R233). -/
def State.markDone (s : State) (h : Nat) : State :=
  { s with queues := s.queues.map (fun e => (e.1, e.2.map (fun d => if d.handle = h then { d with done := true } else d))),
           tx := s.tx.map (fun e => (e.1, e.2.map (fun t => if t.desc.handle = h then { t with desc := { t.desc with done := true } } else t))) }

/-- The place of the PTP header of a stamp descriptor (Table 6.1). -/
def sdHdr (w : Nat) : Nat := bits 10 8 w
/-- ACT of a stamp descriptor. -/
def sdAct (w : Nat) : Nat := bits 0 3 w

/-- The receive record of a frame that asked for one (R201, R202): VOID when its head left and it was stomped (R205). -/
def State.rxRecord (s : State) (p : Nat) (r : Rx) (stomp : Bool) : State :=
  if ¬ r.recd then s
  else
    s.recWrite p { time := mdARR.get r.md, tx := false, caution := r.caution,
                   void := r.void || !s.dlyOk p || (stomp && r.ct), ct := r.ct, gen := mdTS_GEN.get r.md, cyc := r.cyc,
                   octets := r.octets, hdr := sdHdr (mdSTAMP.get r.md) }

/-- The cells the frame still lacks are requested one by one (R257); a refusal loses its rest (Table 8.3). -/
def State.fillCells (s : State) (p : Nat) : Nat → State
  | 0 => s
  | n + 1 =>
    match s.rxOf p with
    | none => s
    | some r =>
      if r.dead ∨ cellsOf r.octets.length ≤ r.cells.length then s
      else
        match s.grant p 0 with
        | (some h, s) => (s.addCell p h).fillCells p n
        | (none, s) => s.failRx p 4

/-- A copy that waited for its frame's end is offered; a refused one gives its reference back. -/
def State.offerLate (s : State) (h : Nat) (x : Nat × Nat × Copy) : State :=
  match s.offerTo x.1 x.2.1 0 x.2.2 with
  | (true, s) => s
  | (false, s) => s.drop1 h

/-- The port's peer-delay responder takes a frame (R209). It holds one; a further one is dropped and counted (log
entry 49). -/
def State.pdrTake (s : State) (p : Nat) (r : Rx) : State :=
  let s := s.setRx p none
  if (s.rxOf (72 + p)).isSome then s.count (.stamp .SPORT_PDR_DROP) p else s.setRx (72 + p) (some r)

/-- The last cell is written and the FCS checked (R233, R243): the copies become eligible, or the frame fails. -/
def State.frameEnd (s : State) (p : Nat) : State :=
  match s.rxOf p with
  | none => s
  | some r =>
    if ¬ r.entered then s
    else
      let s := if r.dead then s else s.fillCells p (cellsOf r.octets.length)
      match s.rxOf p with
      | none => s
      | some r =>
        let bad := r.err ≠ 0
        let s := if r.dead ∨ ¬ bad then s else s.failRx p r.err
        let s := s.rxRecord p r bad
        if bad ∨ r.dead then s.setRx p none
        else
          let s := if r.cells = [] then s else s.markDone (r.cells.headD 0)
          r.late.foldl (fun s x => s.offerLate (r.cells.headD 0) x) (if r.pdr then s.pdrTake p r else s.setRx p none)

/-- FRAME_COMPLETE (R233). -/
def execFrameComplete (p : Fin 72) (s : State) : Host.Outcome State Fault Refusal :=
  .next (s.inUnit .PORT p (fun s => s.frameEnd p))

/-- CUT_THROUGH_UNDERRUN (R235): the next cell of the cut-through frame in transmission on port p is not written within
1 µs. -/
def execCutThroughUnderrun (p : Fin 72) (s : State) : Host.Outcome State Fault Refusal :=
  .next (s.inUnit .PORT p (fun s => match s.txOf p with
    | some t => if t.desc.ct ∧ ¬ t.desc.done then s.stompTx p else s
    | none => s))

/-! ## The MAC (R243-R246) -/

/-- The frame counts in the Clause 30 statistics (Table 16.7). Octets are those of data and padding: the frame without
addresses, EtherType and FCS (log entry 47). -/
def State.macCount (s : State) (p : Nat) (l : List Byte) : State :=
  let n := l.length
  if n < 64 then s.bump (.port .STAT_UNDERSIZE) p
  else if s.rd (.port .MAX_LEN) p < n then s.bump (.port .STAT_TOO_LONG) p
  else if ¬ fcsGood l then s.bump (.port .STAT_FCS_ERR) p
  else
    let s := (s.bump (.port .STAT_FRAMES_RX) p).bump (.port .STAT_OCTETS_RX) p (n - 18)
    if frameDa l = 2 ^ 48 - 1 then s.bump (.port .STAT_BCAST_RX) p
    else if fieldAt l 0 1 % 2 = 1 then s.bump (.port .STAT_MCAST_RX) p else s

/-- What is wrong with a frame: 0 nothing, 1 FCS, 2 longer than MAX_LEN. -/
def State.macErr (s : State) (p : Nat) (l : List Byte) : Nat :=
  if s.rd (.port .MAX_LEN) p < l.length then 2 else if fcsGood l then 0 else 1

/-- A management frame is taken in place of its program's destination: MGMT_TRAP, and always in SURVEY (R245). -/
def State.traps (s : State) (p md : Nat) : Bool :=
  (mdSTA_HIT.get md == 1 || mdMGMT_HIT.get md == 1) && (s.on (.port .CTL_MGMT_TRAP) p || s.mode == modeSurvey)

/-- User frames are forwarded: in the four forwarding modes, and not on the port of a running asymmetry survey (R30, R134). -/
def State.forwards (s : State) (p : Nat) : Bool :=
  2 ≤ s.mode && s.mode ≤ 5 && !(s.h .survKind == 1 && s.survPort == p)

/-- Metadata at stage 0 (Table 9.7). -/
def State.rxMd (s : State) (p : Nat) (l : List Byte) (stamp : Nat) (void : Bool) : Nat :=
  let m := mdLEN.put l.length 0
  let m := mdIN_PORT.put p m
  let m := match s.staHit p l with | some k => mdSTA_IDX.put k (mdSTA_HIT.put 1 m) | none => m
  let m := mdMGMT_HIT.put (s.mgmtAt l).isSome.toNat m
  let m := mdTS_VOID.put void.toNat (mdTS_CAUTION.put s.caution.toNat m)
  mdTS_GEN.put s.stampGen (mdARR.put (of96 stamp) m)

/-- The frame is taken into the port's receive queue, which holds one frame that has not entered the pipeline
(log entry 48). -/
def State.rxTake (s : State) (p : Nat) (x : StampIn) (l : List Byte) : State :=
  let void := s.laneVoid (s.stampLane p x.lane) || x.uncorr
  let md := s.rxMd p l (s.rxStamp p x) void
  let err := s.macErr p l
  if l.length ≤ 192 ∧ err ≠ 0 then s
  else if s.traps p md then
    s.setRx p (some { octets := l, err := err, md := md, void := void, caution := s.caution, cyc := s.cyc16 })
  else if s.pstate p ≠ pUP then s.count (.port .CNT_DOWN_DROP) p
  else if ¬ s.forwards p then (if s.mode = modeDormant ∨ s.mode = modeService then s else s.count (.port .CNT_DOWN_DROP) p)
  else s.setRx p (some { octets := l, err := err, md := md, void := void, caution := s.caution, cyc := s.cyc16 })

/-- A frame is received (R243-R246): counted; a MAC Control frame is consumed, PAUSE and PFC being the commands
PAUSE_RECEIVE and PFC_RECEIVE; a survey message is the survey controller's (R137). -/
def State.frameRx (s : State) (p : Nat) (x : StampIn) (l : List Byte) : State :=
  let s := s.frameEnd p
  let good := 64 ≤ l.length && s.macErr p l == 0
  match macCtl l with
  | some op =>
    if ¬ good then s.macCount p l
    else if op = 0x0001 ∨ op = 0x0101 then s.macCount p l
    else ((s.macCount p l).bump (.port .STAT_CTL_RX) p).count (.port .CNT_CTL_DROP) p
  | none =>
    let s := s.macCount p l
    if l.length < 64 then s
    else if good ∧ s.isSurvey l then s
    else
      let s := if good then s.watchRx p l else s
      match s.rxOf p with
      | some _ => s.count (.port .CNT_IN_OVERRUN) p
      | none => s.rxTake p x l

/-- FRAME_RECEIVE (R243): the octets from octet 0 of R189 to the FCS. -/
def execFrameReceive (p : Fin 72) (x : StampIn) (octets : List (BitVec 8)) (s : State) :
    Host.Outcome State Fault Refusal :=
  .next (s.inUnit .PORT p (fun s =>
    s.when (s.up .LANE p && 1 ≤ s.rd (.lane .STATUS_EFF_MODE) p && s.rd (.lane .STATUS_EFF_MODE) p ≤ 7)
      (fun s => s.frameRx p x octets)))

/-! ## Copies (R229-R233) -/

/-- One copy wanted: kind, destination, queue. -/
structure Want where
  kind : Nat
  dest : Nat
  tc : Nat
  deriving DecidableEq, Repr

/-- The port bits of a group (Table 7.10). -/
def State.mcgPorts (s : State) (g : Nat) : Nat :=
  s.rd (.core .MCG_PORTS0) g + 2 ^ 32 * s.rd (.core .MCG_PORTS1) g + 2 ^ 64 * s.rd (.core .MCG_PORTS2) g

/-- The copies of a group (R231). -/
def State.groupWants (s : State) (g inPort tc : Nat) : List Want :=
  let hair := s.on (.core .MCG_HAIRPIN) g
  ((bitsOf 72 (s.mcgPorts g)).filter (fun p => hair || p != inPort)).map (fun p => ⟨dkPORT, p, tc⟩) ++
  (bitsOf 16 (s.rd (.core .MCG_ENGINES) g)).map (fun e => ⟨dkENGINE, 64 * e + s.rd (.core .MCG_EQ) g, 0⟩) ++
  (if s.on (.core .MCG_HOST_EN) g then [⟨dkHOST, s.rd (.core .MCG_HOSTQ) g, 0⟩] else [])

/-- The copies the destination fields ask for (R229, R231); `none` for BAD_DEST (R230). -/
def State.wants (s : State) (md : Nat) : Option (List Want) :=
  let kind := mdDKIND.get md
  let dest := mdDEST.get md
  let tc := mdTC.get md
  let mir := mdMIRROR.get md
  if 5 ≤ kind ∨ ¬ s.destOk kind dest ∨ (mir ≠ 0 ∧ ¬ (mir ≤ 72 ∧ s.portOn (mir - 1))) then none
  else
    let main := if kind = dkGROUP then s.groupWants dest (mdIN_PORT.get md) tc else [⟨kind, dest, tc⟩]
    let mirror := if mir = 0 then [] else
      if kind = dkGROUP ∧ mir - 1 = mdIN_PORT.get md ∧ ¬ s.on (.core .MCG_HAIRPIN) dest then []
      else [⟨dkPORT, mir - 1, tc⟩]
    some (main ++ mirror)

/-- A copy to queue t of port q is cut through (R233). -/
def State.cutThrough (s : State) (md q t : Nat) : Bool :=
  let p := mdIN_PORT.get md
  mdCT_OK.get md == 1 && s.on (.port .CTL_CT_EN) q && s.pstate q == pUP && (s.txOf q).isNone && (s.ctlOf q).isEmpty &&
  s.drained q && !s.paused (8 * q + t) && s.gateOpen q t && s.guardOk q t (s.rd (.port .MAX_LEN) p) &&
  decide (p < 72) && s.rate q ≤ s.rate p

/-- One copy is offered; a refused one gives its reference back (R231). A copy for an engine, a host queue or the Reeve is
stored and forwarded, and waits for the end of a frame still arriving (R233). -/
def State.copyOut (s : State) (h md : Nat) (w : Want) : State :=
  let p := mdIN_PORT.get md
  let ct := w.kind == dkPORT && s.cutThrough md w.dest w.tc
  let d : Copy := { handle := h, md := mdTC.put w.tc md, done := w.kind != dkPORT, ct := ct }
  match s.rxOf p with
  | none => s
  | some r =>
    if w.kind ≠ dkPORT ∧ 192 < r.octets.length then s.setRx p (some { r with late := r.late ++ [(w.kind, w.dest, d)] })
    else
      match s.offerTo w.kind w.dest w.tc d with
      | (true, s) => if ct then s.setRx p (some { r with ct := true }) else s
      | (false, s) => s.drop1 h

/-- The descriptors of a frame are made: the count is set before any copy is offered; each market cycle beyond the first
that they hold the enqueue step is a stall cycle (R231, R232). -/
def State.makeCopies (s : State) (pr h md : Nat) (ws : List Want) : State :=
  let n := ws.length
  let s := s.count (.core .PAIR_CNT_STALL_CYC) pr ((n + 3) / 4 - 1)
  let s := s.setBuf h { s.buf h with refs := n, pri := mdPFC_PRI.get md, len := mdLEN.get md }
  if n = 0 then s.freeBuf h else ws.foldl (fun s w => s.copyOut h md w) s

/-! ## The ingress pipeline -/

/-- The window as it stands after the pipeline, and what follows it. -/
def frameAfter (old : List Byte) (win : List Byte) : List Byte :=
  let new := win ++ old.drop 192
  if new = old then old else refcs old (fcsBody new)

/-- The frame leaves stage 11 and is dropped: its cells go (R230). -/
def State.rxDrop (s : State) (p : Nat) : State :=
  match s.rxOf p with
  | none => s
  | some r =>
    let s := if r.cells = [] then s else s.freeBuf (r.cells.headD 0)
    s.setRx p (some { r with dead := true, entered := true, cells := [] })

/-- The frame's first cell is in the Granary; the whole of a frame that has arrived whole (R234, R257). -/
def State.rxStore (s : State) (p : Nat) : State :=
  match s.rxOf p with
  | none => s
  | some r =>
    if r.octets.length ≤ 192 ∨ r.cells ≠ [] then s.fillCells p (if r.octets.length ≤ 192 then 1 else 0)
    else s.fillCells p 1

/-- The frame with destination fields `md` is enqueued (R229-R231, R245). -/
def State.ingressOut (s : State) (p pr md : Nat) : State :=
  let trap := s.traps p md
  let s := s.rxStore p
  match s.rxOf p with
  | none => s
  | some r =>
    if r.dead then s
    else
      let h := r.cells.headD 0
      let md := mdHANDLE.put h md
      if trap then
        let s := s.count (.port .CNT_TRAPPED) p
        let q := if s.on (.port .CTL_MGMT_DEST) p then s.rd (.port .CTL_HOSTQ) p else 16
        s.makeCopies pr h md [⟨dkHOST, q, 0⟩]
      else if mdDKIND.get md = dkDROP ∧ mdMIRROR.get md = 0 then (s.count (.core .PAIR_CNT_NO_DEST) pr).rxDrop p
      else match s.wants md with
        | none => (s.count (.core .PAIR_CNT_BAD_DEST) pr).rxDrop p
        | some ws => s.makeCopies pr h md ws

/-- The frame's head window is complete and the frame runs through the ingress pipeline (R219-R222, R245, R407). -/
def State.ingress (s : State) (p : Nat) : State :=
  match s.rxOf p with
  | none => s
  | some r =>
    if r.entered ∨ r.dead then s
    else
      let pr := portSlice p
      let md := mdBANK.put (s.rd (.core .PAIR_CTL_BANK_APPLIED) pr) (mdPAIR_GEN.put (s.h .unitGen (194 + pr)) r.md)
      let (t, s) := s.pipeline pr false { md := md, win := r.octets.take 192 }
      let octets := frameAfter r.octets t.win
      let sd := mdSTAMP.get t.md
      let r := { r with octets := octets, md := t.md, entered := true, recd := bit 31 sd, pdr := bit 30 sd }
      let s := s.setRx p (some r)
      let s := match r.cells with
        | [] => s
        | h :: _ => s.setFrameBytes h 0 (octets.take (256 * r.cells.length))
      match s.streamPass octets with
      | (false, s) => s.rxDrop p
      | (true, s) => if r.pdr then s else s.ingressOut p pr t.md

/-- HEAD_WINDOW_COMPLETE (R219). -/
def execHeadWindowComplete (p : Fin 72) (s : State) : Host.Outcome State Fault Refusal :=
  .next (s.inUnit .PORT p (fun s => s.ingress p))

end Sys2Proof.Machine
end

