-- ==== Sys2Proof/Machine/Egress.lean ====
section
/-! DEFINITION. A frame's way out: the scheduler (R238, R239), the egress pipeline, the departure time and the transmit
actions (R189-R199), and the end of a transmission. -/

namespace Sys2Proof.Machine

/-! ## The scheduler -/

/-- The head of queue t of port p could start but for its guard: complete or cut through, in the Granary, not paused, its
gate open (R238). -/
def State.headReady (s : State) (p t : Nat) : Bool :=
  match s.queue (8 * p + t) with
  | [] => false
  | d :: _ => (d.done || d.ct) && !d.cel && !s.paused (8 * p + t) && s.gateOpen p t

/-- Octets the guard counts the head of a queue at: a cut-through head at MAX_LEN (R238). -/
def State.guardLen (s : State) (d : Copy) : Nat :=
  if d.ct ∧ ¬ d.done then s.rd (.port .MAX_LEN) (mdIN_PORT.get d.md) else d.len

/-- The head of queue t of port p. -/
def State.headOf (s : State) (p t : Nat) : Copy := (s.queue (8 * p + t)).headD { handle := 0, md := 0 }

/-- Queue t of port p is eligible (R238). -/
def State.eligible (s : State) (p t : Nat) : Bool := s.headReady p t && s.guardOk p t (s.guardLen (s.headOf p t))

/-- A head the guard holds is counted once (HELD of Table 7.12). -/
def State.heldMark (s : State) (p : Nat) : State :=
  (List.range 8).foldl (fun s t =>
    let k := 8 * p + t
    let h := (s.headOf p t).handle + 1
    if s.headReady p t ∧ ¬ s.eligible p t ∧ s.h .gateHeld k ≠ h then
      (s.setH .gateHeld k h).count (.core .GATE_HELD) p
    else s) s

/-- Deficit-weighted round robin among the eligible queues with SP = 0: the queue visited gains QUANTUM once a visit and is
served while its deficit holds its head (R239). -/
def State.dwrrPick (s : State) (p : Nat) : Nat → Option Nat × State
  | 0 => (none, s)
  | n + 1 =>
    let t := s.h .dwrrAt p
    let k := 8 * p + t
    let next := (s.setH .dwrrAt p ((t + 1) % 8)).setH .dwrrIn p 0
    if ¬ s.eligible p t ∨ s.on (.core .QUEUE_SP) k then next.dwrrPick p n
    else
      let s := if s.h .dwrrIn p = 1 then s
        else (s.setH .dwrr k (s.h .dwrr k + s.rd (.core .QUEUE_QUANTUM) k)).setH .dwrrIn p 1
      let len := (s.headOf p t).len
      if len ≤ s.h .dwrr k then (some t, s.setH .dwrr k (s.h .dwrr k - len))
      else ((s.setH .dwrrAt p ((t + 1) % 8)).setH .dwrrIn p 0).dwrrPick p n

/-- The scheduler's choice (R239). Visits enough for the longest frame at the smallest quantum. -/
def State.schedPick (s : State) (p : Nat) : Option Nat × State :=
  let e := (List.range 8).filter (fun t => s.eligible p t)
  match (e.reverse).find? (fun t => s.on (.core .QUEUE_SP) (8 * p + t)) with
  | some t => (some t, s)
  | none => if e = [] then (none, s) else s.dwrrPick p 2100

/-! ## Into transmission -/

/-- The octets of a copy that starts transmission: of a frame still arriving as they arrive (R234); an injected frame gains
an FCS (R246). -/
def State.copyOctets (s : State) (d : Copy) : List Byte :=
  if mdINJ.get d.md ≠ 0 then withFcs (s.frameBytes d.handle 0 (d.len - 4))
  else if d.done then s.copyBytes d
  else match s.rxOf (mdIN_PORT.get d.md) with
    | some r => if r.cells.headD 0 = d.handle then r.octets else s.copyBytes d
    | none => s.copyBytes d

/-- Zero octets make a short frame 64 octets long, its FCS updated (R246). -/
def padFrame (l : List Byte) : List Byte := if l.length < 64 then refcs l (padBody (fcsBody l)) else l

/-- A copy taken from its queue passes the egress pipeline of its port's slice and starts transmission (R217, R237). -/
def State.txStart (s : State) (p t : Nat) (d : Copy) (cong : Bool) : State :=
  let pr := portSlice p
  let l := s.copyOctets d
  let md := mdCONG.put cong.toNat (mdBANK.put (s.rd (.core .PAIR_CTL_BANK_APPLIED) pr) d.md)
  let (x, s) := s.pipeline pr true { md := md, win := l.take 192 }
  s.setTx p (some { desc := { d with md := x.md }, queue := t, octets := padFrame (frameAfter l x.win) })

/-- An uncorrectable error in cell `k` of the frame, at bit `sub` of its bank: counted and raised (R258). -/
def State.granUe (s : State) (d : Copy) (k sub : Nat) : State :=
  let c := ((s.buf d.handle).cells d.handle).getD k d.handle
  (s.count (.pool .ECC_UE) 0).raise .POOL_GRAN_UE (locWord 1 0 0x07 (hIdx c / 8192) sub)

/-- The copy chosen leaves its queue; an error in its first cell drops it before its transmission starts, one in a later
cell stomps it (R258). -/
def State.selectFrom (s : State) (p t : Nat) (ue : Option (Fin 64 × BitVec 16)) : State :=
  let k := 8 * p + t
  match s.queue k with
  | [] => s
  | d :: q =>
    let cong := decide (s.rd (.core .QUEUE_ECN_THR) k < qDepth (s.queue k))
    let s := s.setQueue k q
    let s := if q = [] then s.setH .dwrr k 0 else s
    match ue with
    | some (n, sub) =>
      if d.nCells ≤ n.val then s.txStart p t d cong
      else if n.val = 0 then (s.granUe d 0 sub.toNat).drop1 d.handle
      else ((s.granUe d n sub.toNat).txStart p t d cong).stompTx p
    | none => s.txStart p t d cong

/-- The transmitter of port p starts its next frame: its own frames first, whatever the gates and pauses (R239). -/
def State.select (s : State) (p : Nat) (ue : Option (Fin 64 × BitVec 16)) : State :=
  if s.pstate p ≠ pUP ∨ (s.txOf p).isSome then s
  else match s.ctlOf p with
    | t :: rest => (s.setCtl p rest).setTx p (some t)
    | [] =>
      match (s.heldMark p).schedPick p with
      | (none, s) => s
      | (some t, s) => s.selectFrom p t ue

/-- SCHEDULER_SELECT (R239). `ue`: an uncorrectable error the read meets, in which cell of the frame and at which bit. -/
def execSchedulerSelect (p : Fin 72) (ue : Option (Fin 64 × BitVec 16)) (s : State) : Host.Outcome State Fault Refusal :=
  .next (s.inUnit .PORT p (fun s => s.select p ue))

/-! ## Transmit actions (R189-R199) -/

/-- PLANE, LINK, L4, DOM and AUX_OFS of a stamp descriptor (Table 6.1). -/
def sdPlane (w : Nat) : Bool := bit 3 w
def sdLink (w : Nat) : Bool := bit 4 w
def sdL4 (w : Nat) : Nat := bits 5 2 w
def sdDom (w : Nat) : Nat := bits 7 3 w
def sdAux (w : Nat) : Nat := bits 18 8 w

/-- The stomp causes of Table 6.3, in its order. -/
inductive StampErr where
  | voidTime | noRole | descErr | noTrailer
  deriving DecidableEq, Repr

/-- The fields an action touches lie within the frame (DESC_ERR of Table 6.3). -/
def fieldsIn (sd len : Nat) : Bool :=
  let h := sdHdr sd
  let a := sdAct sd
  h + 34 ≤ len && (if a = 2 then h + 44 ≤ len else if a = 5 then h + sdAux sd + 12 ≤ len else true)

/-- The first cause of Table 6.3 that holds for an action on a frame of body `l`. `dVoid`: the departure time would carry
VOID. -/
def State.stampErr (s : State) (p : Nat) (t : Tx) (l : List Byte) (dVoid : Bool) : Option StampErr :=
  let sd := mdSTAMP.get t.desc.md
  let a := sdAct sd
  if dVoid ∨ (a = 3 ∧ mdTS_ABSENT.get t.desc.md = 0 ∧ mdTS_VOID.get t.desc.md = 1) then some .voidTime
  else if (a = 2 ∨ a = 4) ∧ sdPlane sd ∧ ¬ s.dlyOk p then some .noRole
  else if 6 ≤ a ∨ sdL4 sd = 3 ∨ sdHdr sd < 14 ∨ ¬ fieldsIn sd l.length ∨ (a = 3 ∧ mdTS_ABSENT.get t.desc.md = 1) then
    some .descErr
  else if sdL4 sd = 2 ∧ trailerAt l (sdHdr sd) = none then some .noTrailer
  else none

/-- The cause's counter of Table 6.3. -/
def StampErr.cnt : StampErr → Fld
  | .voidTime => .stamp .SPORT_CNT_VOID_STOMP
  | .noRole => .stamp .SPORT_CNT2_NOROLE
  | .descErr => .stamp .SPORT_CNT2_DESC_ERR
  | .noTrailer => .stamp .SPORT_CNT2_NO_TRAILER

/-- Transmit port's share of the fibre plane; an invalid delay leaves the ball time (R193, R197). -/
def State.planeTx (s : State) (p : Nat) (plane : Bool) : Int :=
  if plane ∧ s.dlyOk p then (s.fibreTx p : Int) else 0
/-- Receive port's share. -/
def State.planeRx (s : State) (p : Nat) (plane : Bool) : Int :=
  if plane ∧ s.dlyOk p then (s.fibreRx p : Int) else 0

/-- What an action adds to cf, from the ball departure `d` in 2^-16 ns (R190, R192, R193). -/
def State.cfAdd (s : State) (p : Nat) (md : Nat) (d : Nat) : Int :=
  let sd := mdSTAMP.get md
  let a := sdAct sd
  let dp : Int := (d : Int) + s.planeTx p (sdPlane sd)
  let ip := mdIN_PORT.get md
  if a = 2 then dp % 65536
  else if a = 3 then
    let ap : Int := (u96 (mdARR.get md) : Int) - s.planeRx ip (sdPlane sd)
    divRound ((dp - ap) * (2199023255552 + s.rdS (.stamp .DOM_RATE_OFS) (sdDom sd))) 2199023255552 +
      (if sdLink sd then s.rdS (.stamp .SPORT_PEER_DLY) ip else 0)
  else if a = 4 then dp - (u96 (mdREF.get md) : Int)
  else 0

/-- The aligned 16-bit words of the UDP datagram before octet `stop`, from the UDP header on. -/
def udpWords (l : List Byte) (h stop : Nat) : List Nat :=
  (List.range ((stop + 8 - h) / 2)).map (fun k => beNat (octetsAt l (h - 8 + 2 * k) 2))

/-- The checksum follows a change of a frame's body (R199). -/
def csumFix (old new : List Byte) (h l4 : Nat) : List Byte :=
  if l4 = 1 then octetsPut new (h - 2) [0, 0]
  else if l4 = 2 then match trailerAt old h with
    | some t =>
      let pairs := ((udpWords old h t).zip (udpWords new h t)).filter (fun x => x.1 != x.2)
      octetsPut new t (beBytes 2 (trailerUpd (beNat (octetsAt old t 2)) (pairs.map (·.1)) (pairs.map (·.2))))
    | none => new
  else new

/-- The action of Table 6.2 on a frame's body. -/
def State.stampAct (s : State) (p : Nat) (t : Tx) (l : List Byte) (d : Nat) : List Byte × State :=
  let sd := mdSTAMP.get t.desc.md
  let a := sdAct sd
  let h := sdHdr sd
  let dp := ((d : Int) + s.planeTx p (sdPlane sd)).toNat
  let add := s.cfAdd p t.desc.md d
  let touches := a = 2 ∨ a = 3 ∨ a = 4
  let (cf, s) := if touches then s.cfSat (toS 64 (beNat (octetsAt l (h + 8) 8)) + add) (locLane p) else (0, s)
  let l1 := if touches then octetsPut l (h + 8) (beBytes 8 cf) else l
  let l2 := if a = 2 then octetsPut l1 (h + 34) (beBytes 10 (of96 dp / 65536)) else l1
  let l3 := if a = 5 then octetsPut l2 (h + sdAux sd) (beBytes 12 (of96 d)) else l2
  let off := a = 3 ∧ sdPlane sd ∧ (¬ s.dlyOk p ∨ ¬ s.dlyOk (mdIN_PORT.get t.desc.md))
  (csumFix l l3 h (sdL4 sd), if off then s.count (.stamp .SPORT_CNT2_PLANE_OFF) p else s)

/-- A survey RESP takes t3 at octet `o`, 17 octets behind its FLAGS (Table 4.5); a VOID time is flagged there. -/
def State.survStamp (s : State) (l : List Byte) (o d : Nat) (void : Bool) : List Byte :=
  let b := octetsPut (fcsBody l) o (beBytes 12 (of96 d))
  let f := fieldAt b (o - 17) 1
  let f := if s.caution then setBit 0 f else f
  refcs l (octetsPut b (o - 17) (beBytes 1 (if void then setBit 1 f else f)))

/-- The frame in transmission on port p leaves: its departure time is fixed and its action applied in flight (R194-R199). -/
def State.depart (s : State) (p : Nat) (x : StampOut) : State :=
  match s.txOf p with
  | none => s
  | some t =>
    if t.departed then s
    else
      let d := s.txStamp p x
      let void := s.laneVoid (s.stampLane p x.lane)
      let t := { t with dep := d, departed := true, void := void, caution := s.caution, gen := s.stampGen, cyc := s.cyc16 }
      let a := sdAct (mdSTAMP.get t.desc.md)
      let s := if t.own = 2 then s.setH .pdrFuDep p (d + s.fibreTx p + 1)
        else if t.own = 3 then (s.setH .survT1 p (d + 1)).setH .survT1Bad p (void || s.caution).toNat else s
      let t := if t.own = 4 then { t with octets := s.survStamp t.octets t.desc.handle d void } else t
      if ¬ s.on (.stamp .CTL_EN) 0 ∨ a ≤ 1 then s.setTx p (some t)
      else
        let body := fcsBody t.octets
        match s.stampErr p t body void with
        | some e => ((s.setTx p (some { t with stomped := true })).count e.cnt p).raiseP .STAMP_STOMP p
        | none =>
          let (l, s) := s.stampAct p t body d
          s.setTx p (some { t with octets := refcs t.octets l })

/-- FRAME_DEPARTURE (R194). -/
def execFrameDeparture (p : Fin 72) (x : StampOut) (s : State) : Host.Outcome State Fault Refusal :=
  .next (s.inUnit .PORT p (fun s => s.depart p x))

/-! ## The end of a transmission -/

/-- The transmit record of ACT = RING (R202, R204, R205). -/
def State.txRecord (s : State) (p : Nat) (t : Tx) : State :=
  let sd := mdSTAMP.get t.desc.md
  if sdAct sd ≠ 1 then s
  else s.recWrite p { time := of96 t.dep, tx := true, caution := t.caution, void := t.void || !s.dlyOk p || t.stomped,
                      ct := t.desc.ct, gen := t.gen, cyc := t.cyc, octets := t.octets, hdr := sdHdr sd }

/-- The statistics of a frame sent correctly (Table 16.7, log entry 47). -/
def State.txStats (s : State) (p : Nat) (t : Tx) : State :=
  if t.stomped then s
  else
    let l := t.octets
    let s := (s.bump (.port .STAT_FRAMES_TX) p).bump (.port .STAT_OCTETS_TX) p (l.length - 18)
    let s := if frameDa l = 2 ^ 48 - 1 then s.bump (.port .STAT_BCAST_TX) p
      else if fieldAt l 0 1 % 2 = 1 then s.bump (.port .STAT_MCAST_TX) p else s
    if t.own = 1 then (s.bump (.port .STAT_CTL_TX) p).bump (.port .STAT_PAUSE_TX) p else s

/-- The last octet of the frame in transmission leaves the ball. A cut-through copy still arriving does not end. -/
def State.txEnd (s : State) (p : Nat) : State :=
  match s.txOf p with
  | none => s
  | some t =>
    if ¬ t.departed ∨ (t.desc.ct ∧ ¬ t.desc.done ∧ ¬ t.stomped) then s
    else
      let s := ((s.txRecord p t).txStats p t).setTx p none
      if t.own = 0 then s.drop1 t.desc.handle else s

/-- FRAME_TRANSMIT_END (R202). -/
def execFrameTransmitEnd (p : Fin 72) (s : State) : Host.Outcome State Fault Refusal :=
  .next (s.inUnit .PORT p (fun s => s.txEnd p))

end Sys2Proof.Machine
end

