-- ==== Sys2Proof/Machine/Inband.lean ====
section
/-! DEFINITION. Management messages: the header of Table 12.2, and in-band frames (R412). -/

namespace Sys2Proof.Machine

/-- The header of Table 12.2 before a body of `len` octets. -/
def State.msgHdr (s : State) (cls len seq src dst hops : Nat) (late : Bool := false) : List Byte :=
  beBytes 1 cls ++ [1] ++ beBytes 2 len ++ beBytes 2 seq ++ beBytes 2 src ++ beBytes 2 dst ++ beBytes 1 hops ++
    beBytes 1 (s.caution.toNat + 4 * late.toNat) ++ beBytes 2 (s.rd (.glb .DEV_GEN) 0) ++ [0, 0]

/-- What stands between the source address and the message: by TRE.L4 the EtherType, or IPv4 or IPv6 and UDP. -/
def State.inbandHead (s : State) (len : Nat) : List Byte :=
  if s.rd (.twn .TRE_L4) 0 = 0 then beBytes 2 (s.rd (.twn .TRE_ETYPE) 0)
  else Config.udpHead (s.rd (.twn .TRE_L4) 0) (s.rd (.twn .TRE_UDP) 0) len

/-- In-band management is enabled (R137, R412). -/
def State.inbandOn (s : State) : Bool := s.rd (.twn .TRE_ETYPE) 0 != 0 || s.rd (.twn .TRE_UDP) 0 != 0

/-- A frame with an in-band message waits to leave port p, ahead of its queues. `ofs`: octet of the body that takes the
departure time. -/
def State.inbandPut (s : State) (p own ofs : Nat) (msg : List Byte) : State :=
  let hd := s.inbandHead msg.length
  let l := withFcs (padBody (beBytes 6 (s.rd (.twn .TRE_DA) 0) ++ beBytes 6 (s.rd (.port .STA_ADDR) (8 * p)) ++ hd ++ msg))
  s.setCtl p (s.ctlOf p ++ [{ desc := { handle := 12 + hd.length + 16 + ofs, md := 0 }, queue := 0, octets := l, own := own }])

/-- A message of class `cls` from this node, with the class's next SEQ and 16 hops (Table 12.2). -/
def State.inbandSend (s : State) (p own ofs cls dst : Nat) (body : List Byte) (late : Bool := false) : State :=
  if ¬ s.inbandOn then s
  else
    let m := s.msgHdr cls body.length (s.h .treSeq cls) (s.rd (.twn .TRE_NODE) 0) dst 16 late ++ body
    (s.setH .treSeq cls ((s.h .treSeq cls + 1) % 65536)).inbandPut p own ofs m

end Sys2Proof.Machine
end

