-- ==== Sys2Proof/Machine/Twin.lean ====
section
/-! DEFINITION. The twin link, the twin tracker and the role logic (R389-R406). -/

namespace Sys2Proof.Machine

/-! ## The twin link (R391-R393) -/

/-- Twin lane k (T0, T1) is in TWIN mode and RUN. -/
def State.twLaneRun (s : State) (k : Nat) : Bool :=
  s.up .LANE (72 + k) && s.rd (.lane .STATUS_EFF_MODE) (72 + k) == 11 && s.rd (.lane .TWIN_TSTATE) (72 + k) == 4

/-- Either lane runs. -/
def State.twLanes (s : State) : Bool := s.twLaneRun 0 || s.twLaneRun 1

/-- This JT72 is a twin. -/
def State.isTwin (s : State) : Bool := s.domOn .bell && s.role != twSOLO

/-- TWN_ACT (R390): `none` while it floats. -/
def State.twnAct (s : State) : Option Bool := if s.domOn .bell then some (s.role == twACTIVE) else none

/-- A message is sent on both lanes that run. -/
def State.twSend (s : State) (cls : Nat) (body : List Byte) (void : Bool := false) : State :=
  if ¬ s.twLanes then s
  else
    let seq := s.h .twSeq cls
    let m := s.msgHdr cls body.length seq (s.rd (.twn .CFG_TWIN_ID) 0) 0xFFFF 16
    let m := m.set 11 (BitVec.ofNat 8 (s.caution.toNat + 2 * void.toNat))
    { s.setH .twSeq cls ((seq + 1) % 65536) with twTx := Assoc.set natLt [] cls (m ++ body) s.twTx }

/-- A received message of class `cls`: ignored in SOLO, counted where its CRC, CLASS or VER is bad, discarded where the
other lane brought it first (R389, R391, R393); else `k`. -/
def State.twTake (s : State) (cls : Nat) (h : TwHdr) (k : State → State) : State :=
  if ¬ s.isTwin ∨ ¬ s.twLaneRun h.lane then s
  else if h.bad then s.count (.twn .CNT_RX_BAD) 0
  else if s.h .twSeen cls = h.seq.toNat + 1 then s
  else k (s.setH .twSeen cls (h.seq.toNat + 1))

/-! ## Tracker states (R395, R397, R400, R405) -/

/-- The tracker's cycle differs from the active's (R398). -/
def State.twMismatch (s : State) : Bool := s.h .twMisCyc == 1

/-- ALIGNED counts as LOCKED for the history while the active's copied SEL_STATE is LOCKED (R397). -/
def State.trkLock (s : State) : State :=
  if ¬ s.standby then s
  else
    let now := s.trk == tkALIGNED && s.copied 17 1 % 8 == 5
    if now ∧ s.h .locked = 0 then ((s.setH .locked 0 1).setH .histSlot 0 (s.copied 17 1 / 16)).histRestart
    else if ¬ now ∧ s.h .locked = 1 then s.histSum.setH .locked 0 0
    else s

/-- The tracker enters a state; leaving TRACKING or ALIGNED for neither, the standby holds (R400). -/
def State.trkSet (s : State) (n : Nat) : State :=
  if n = s.trk then s
  else
    let ran := s.trk = tkTRACKING ∨ s.trk = tkALIGNED
    let s := s.wr (.twn .STATUS_TSTATE) 0 n
    let s := (s.setH .trkIn 0 0).setH .trkOut 0 0
    let s := if n = tkSEEKING then (s.setH .trkN 0 0).setHS .trkSum 0 0 else s
    let s := if s.trkRuns then (s.wr (.bell .STATUS_SRC_APPLIED) 0 1).setH .servoAwait 0 0 else s
    let s := if ran ∧ ¬ s.trkRuns then (s.setTwl 0 []).setTwl 1 [] else s
    let s := s.trkLock
    (if s.standby then s.modeRecheck else s).selStatus

/-- The tracker follows role, link and STEPPED (R395, R398, R405). -/
def State.trkSync (s : State) : State :=
  let ok := s.on (.bell .STATUS_STEPPED) 0 && !s.twMismatch
  if ¬ s.standby then s.trkSet tkOFF
  else if ¬ s.twUp then s.trkSet tkORPHAN
  else if s.trk = tkOFF then s.trkSet tkSEEKING
  else if s.trk = tkORPHAN then s.trkSet (if ok then tkTRACKING else tkSEEKING)
  else if s.trk = tkSEEKING then (if ok ∧ s.h .trkN ≠ 0 then s.trkSet tkTRACKING else s)
  else if ok then s else s.trkSet tkSEEKING

/-! ## HELLO (R392, R402) -/

/-- TWIN_HELLO_SEND (R392): every 1 ms. -/
def State.helloSend (s : State) : State :=
  let s := s.passAge (s.h .twHelloAt)
  let rel := s.h .relinq != 0
  let body := beBytes 1 (s.rd (.twn .CFG_TWIN_ID) 0) ++ beBytes 1 s.role ++ beBytes 2 (s.rd (.twn .STATUS_ROLE_GEN) 0) ++
    beBytes 1 (s.rd (.bell .CTL_CYCLE) 0) ++ beBytes 1 s.trk ++ beBytes 1 rel.toNat
  ((s.twSend 0x10 body).setH .relinq 0 (s.h .relinq - 1)).setH .twHelloAt 0 (s.age + msTicks 1)

/-- TWIN_HELLO_SEND (R392). -/
def execTwinHelloSend (s : State) : Host.Outcome State Fault Refusal :=
  .next (if s.isTwin ∧ s.twLanes then s.helloSend else s)

/-- Both twins are STANDBY with the link UP (R402): the second of TWN.NO_ACTIVE runs. -/
def State.noActiveWatch (s : State) : State :=
  if s.standby ∧ s.twUp ∧ s.rd (.twn .STATUS_PEER_ROLE) 0 = twSTANDBY then
    (if s.h .noActAt = 0 then s.setH .noActAt 0 (s.age + ticksPerSec) else s)
  else s.setH .noActAt 0 0

/-- What a HELLO asks of the roles (Table 12.4). -/
def State.helloRole (s : State) (b : TwHello) : State :=
  let gen := s.rd (.twn .STATUS_ROLE_GEN) 0
  if s.standby ∧ b.relinq ∧ s.h .intRole ≠ twACTIVE + 1 then s.intRequest { role := twACTIVE + 1 }
  else if s.role = twACTIVE ∧ b.role.val = twACTIVE ∧
      (gen < b.roleGen.toNat ∨ (gen = b.roleGen.toNat ∧ s.rd (.twn .CFG_TWIN_ID) 0 = 1)) ∧ s.h .intRole ≠ twSTANDBY + 1 then
    (s.raise .TWN_ROLE_CLASH locBell).intRequest { role := twSTANDBY + 1 }
  else s

/-- A HELLO (R392, R398): one with the own TWIN_ID holds the link in HELLO. -/
def State.helloTake (s : State) (b : TwHello) : State :=
  let same := b.twin.val == s.rd (.twn .CFG_TWIN_ID) 0
  let cyc := b.cycle.toNat != s.rd (.bell .CTL_CYCLE) 0
  let s := s.setH .twMisCyc 0 cyc.toNat
  let s := s.wr (.twn .STATUS_CFG_MISMATCH) 0 (same || cyc).toNat
  let s := (s.wr (.twn .STATUS_PEER_ROLE) 0 b.role).setH .peerT 0 b.tstate
  if same then
    (if s.twUp then ((s.wr (.twn .STATUS_LINK) 0 1).raise .TWN_LINK_LOST locBell) else s.wr (.twn .STATUS_LINK) 0 1).trkSync
  else
    let s := s.setH .twHeard 0 s.age
    let s := if s.twUp then s else (s.wr (.twn .STATUS_LINK) 0 2).raise .TWN_LINK_UP locBell
    ((s.trkSync).helloRole b).noActiveWatch

/-- TWIN_HELLO_RECEIVE (R392). -/
def execTwinHelloReceive (h : TwHdr) (b : TwHello) (s : State) : Host.Outcome State Fault Refusal :=
  .next (s.twTake 0x10 h (fun s => s.helloTake b))

/-- No HELLO within TMO: the link goes DOWN (R392, R405), and the sequence watch may take over (R406). -/
def State.twinTimeout (s : State) : State :=
  if s.rd (.twn .STATUS_LINK) 0 = 0 then s
  else
    let s := s.passAge (s.h .twHeard + msTicks (s.rd (.twn .CFG_TMO) 0))
    let s' := (((s.wr (.twn .STATUS_LINK) 0 0).raise .TWN_LINK_LOST locBell).noActiveWatch).trkSync
    State.autoTakeFrom s s'

/-- TWIN_LINK_TIMEOUT (R392). -/
def execTwinLinkTimeout (s : State) : Host.Outcome State Fault Refusal :=
  .next (if s.isTwin then s.twinTimeout else s)

/-- NO_ACTIVE (R402): every second. -/
def execNoActive (s : State) : Host.Outcome State Fault Refusal :=
  .next (s.inDom .bell (fun s => if s.h .noActAt = 0 then s else
    let s := (s.passAge (s.h .noActAt)).raise .TWN_NO_ACTIVE locBell
    s.setH .noActAt 0 (s.age + ticksPerSec)))

/-! ## STATE (R399) -/

/-- AGE in effect: the fitted rate, or OSC_AGE (R170). -/
def State.ageEff (s : State) : Int := if s.h .holdKind = 1 then s.hS .fitAge else s.rdS (.sel .HOLD_AGE) 0

/-- The BELL_LEAP word. -/
def State.leapWord (s : State) : Nat := s.word (Fld.addr (.bell .LEAP_UTC_OFS) 0)

/-- The body of STATE (Table 12.3). -/
def State.stateBody (s : State) : List Byte :=
  beBytes 4 (s.h .cycNum) ++ beBytes 6 (s.rd (.bell .FREQ_NOW) 0) ++ beBytes 6 (s.rd (.bell .HWS_I) 0) ++
  beBytes 1 (s.mode + 8 * s.rd (.glb .MODE_ROLE) 0 + 64 * s.rd (.bell .STATUS_STEPPED) 0) ++
  beBytes 1 (s.rd (.sel .STATUS_STATE) 0 + 16 * s.rd (.sel .STATUS_ACTIVE) 0) ++
  beBytes 2 (s.rd (.bell .JUMP_GEN) 0) ++ beBytes 4 s.leapWord ++ beBytes 6 (s.rd (.bell .LEAP_AT_SEC) 0) ++
  (List.range 16).flatMap (fun n =>
    beBytes 1 (s.sstate n + 16 * s.rd (.sel .SLOT_STAT_CAUSE) n) ++
    beBytes 1 (s.qrank n + 16 * s.rd (.sel .SLOT_CFG_PRIO) n)) ++
  beBytes 6 (s.rd (.sel .HOLD_Y0) 0) ++ beBytes 4 (s.rd (.sel .HOLD_U_Y) 0) ++ beBytes 4 (s.rd (.sel .HOLD_U_A) 0) ++
  beBytes 2 (s.rd (.sel .HOLD_T0) 0) ++ beBytes 4 (ofS 32 s.ageEff) ++ beBytes 4 (s.rd (.sel .HOLD_HIST_S) 0) ++
  beBytes 1 s.histValid.toNat ++ List.replicate 17 0

/-- The active sends STATE at each servo deadline (Table 12.1); a standby counts a deadline without one. -/
def State.stateSend (s : State) : State :=
  if s.role = twACTIVE then s.twSend 0x11 s.stateBody
  else if s.standby then
    (if s.h .twGot = 0 then s.count (.twn .CNT_STATE_MISS) 0 else s).setH .twGot 0 0
  else s

/-- A STATE's 104 octets as received: TWN_COPY holds octet k at its address plus k. -/
def State.stateTake (s : State) (b : BitVec 832) : State :=
  let s := s.wr (.twn .COPY) 0 (leNat (beBytes 104 b.toNat))
  (((s.setH .twGot 0 1).setH .twLeap 0 1).trkLock).selStatus

/-- TWIN_STATE_RECEIVE (R399): by a standby; `b` holds the first octet in its most significant byte. -/
def execTwinStateReceive (h : TwHdr) (b : BitVec 832) (s : State) : Host.Outcome State Fault Refusal :=
  .next (s.twTake 0x11 h (fun s => s.when s.standby (fun s => s.stateTake b)))

/-- At the boundary after receipt the leap fields are copied (R399). -/
def State.leapCopy (s : State) : State :=
  if s.standby ∧ s.h .twLeap = 1 then
    let w := s.copied 20 4
    let s := [BellF.LEAP_UTC_OFS, .LEAP61, .LEAP59, .LEAP_UTC_VALID, .LEAP_TIME_TRACEABLE, .LEAP_FREQ_TRACEABLE,
      .LEAP_TIME_SOURCE].foldl (fun s f => s.wr (.bell f) 0 ((Fld.bell f).desc.fromWord 0 w 0)) s
    ((s.wr (.bell .LEAP_AT_SEC) 0 (s.copied 24 6)).setH .twLeap 0 0).leapWatch
  else s

/-! ## PHASE exchanges (R394, R395) -/

/-- Receive stamp on twin lane k: only T_WORD applies (R112, Table 4.1). -/
def State.twRxStamp (s : State) (k : Nat) (x : StampIn) : Nat :=
  let n := 72 + k
  stampOf (s.now - x.ago.toNat) (1 + s.rd (.lane .TWIN_CUR_RATE) n)
    (((x.txPhase.toNat + x.rxPhase.toNat : Nat) : Int) - (64 * s.rd (.lane .ALIGN_WORD_OFS) n : Nat))
    (-(s.rd (.lane .FIX_RX_A) n : Int))

/-- Transmit stamp on twin lane k. -/
def State.twTxStamp (s : State) (k : Nat) (x : StampOut) : Nat :=
  let n := 72 + k
  stampOf (s.now - x.ago.toNat) (1 + s.rd (.lane .TWIN_CUR_RATE) n)
    ((x.txPhase.toNat + 64 * s.h .txWord n : Nat) : Int) (s.rd (.lane .FIX_TX_A) n)

/-- The twin lane in use: T0, or T1 when T0 is not in RUN (R394). -/
def State.twLaneUse (s : State) : Nat := if s.twLaneRun 0 then 0 else 1

/-- TWIN_PHASE_REQ_SEND (R394): by a standby with the link UP, every 1 ms; its departure is stamped. -/
def execTwinPhaseReqSend (x : StampOut) (s : State) : Host.Outcome State Fault Refusal :=
  .next (if s.isTwin ∧ s.standby ∧ s.twUp ∧ s.twLanes then
    let s := s.passAge (s.h .twReqAt)
    let k := s.twLaneUse
    let seq := s.h .twSeq 0x12
    let s := (s.setH .twT1 0 (s.twTxStamp k x)).setH .twT1Ok 0 (seq + 1)
    let s := (s.setH .twT1Bad 0 (s.caution || s.laneVoid (72 + k)).toNat).setH .twLane 0 k
    (s.twSend 0x12 []).setH .twReqAt 0 (s.age + msTicks 1)
  else s)

/-- TWIN_PHASE_REQ_RECEIVE (R392): the active answers with t2 and, inserted in flight, t3. -/
def execTwinPhaseReqReceive (h : TwHdr) (x : StampIn) (y : StampOut) (s : State) : Host.Outcome State Fault Refusal :=
  .next (s.twTake 0x12 h (fun s => s.when (s.role == twACTIVE) (fun s =>
    let k := h.lane.val
    (s.twSend 0x13 (beBytes 12 (of96 (s.twRxStamp k x)) ++ beBytes 12 (of96 (s.twTxStamp k y))) (s.laneVoid (72 + k))))))

/-- The first-lock step is requested as under R80, at now + 1 ms (R395). -/
def State.trkStep (s : State) : State :=
  let d := -divRound (s.hS .trkSum) 16
  let t := bell96 (s.now + msTicks 1)
  let s := (s.setH .trkN 0 0).setHS .trkSum 0 0
  if s.on (.bell .STATUS_STEPPED) 0 ∨ ¬ s.stepOk t d then
    (s.wr (.bell .STATUS_STEP_REFUSED) 0 1).raise .BELL_STEP_REFUSED locBell
  else s.stepArm t d false

/-- A step commit is in hand. -/
def State.stepInHand (s : State) : Bool := s.cstate != 0 && s.h .commitKind == 2

/-- An offset that has passed the gate (R395). -/
def State.trkSample (s : State) (x : Int) : State :=
  if s.trk = tkSEEKING then
    if s.stepInHand then s
    else
      let s := (s.setH .trkN 0 (s.h .trkN + 1)).setHS .trkSum 0 (s.hS .trkSum + x)
      if s.on (.bell .STATUS_STEPPED) 0 then s.trkSync
      else if 16 ≤ s.h .trkN then s.trkStep else s
  else if s.trkRuns then s.setTwl 0 (x :: s.twls 0)
  else s

/-- An exchange is complete (R394): verdicts 1 to 4 of Table 3.2, then the tracker. With another CYCLE than the active's the
tracker posts nothing (R398). -/
def State.trkExchange (s : State) (lane : Nat) (t1 t2 t3 t4 : Int) : State :=
  let x := divRound ((t4 - t3) - (t2 - t1)) 2 - s.rdS (.twn .TW_ASYM) lane
  if s.twMismatch then s
  else match s.verdict x t4.toNat with
    | .disc => s
    | .ref => s.jumpRefuse x
    | _ => s.jumpWithin.trkSample x

/-- TWIN_PHASE_RESP_RECEIVE (R394): it must answer the request in hand on the lane it left on; a stamp with VOID or CAUTION
on either end is not used. -/
def execTwinPhaseRespReceive (h : TwHdr) (x : StampIn) (t2 t3 : BitVec 96) (s : State) : Host.Outcome State Fault Refusal :=
  .next (s.twTake 0x13 h (fun s =>
    if s.standby ∧ s.twUp ∧ s.h .twT1Ok ≠ 0 ∧ h.lane.val = s.h .twLane then
      let k := h.lane.val
      let bad := s.h .twT1Bad == 1 || s.caution || s.laneVoid (72 + k) || h.flags.toNat % 4 != 0
      let t1 := s.h .twT1
      let s := s.setH .twT1Ok 0 0
      if bad then s else s.trkExchange k t1 (u96 t2.toNat) (u96 t3.toNat) (s.twRxStamp k x)
    else s))

/-! ## The tracker's cycle (R395, R396) -/

/-- The cycle closes: OFS, and the run of cycles within or beyond ALIGN_THR. -/
def State.trkBoundary (s : State) : State :=
  if ¬ s.standby then s
  else
    let l := s.twls 0
    let s := (s.setTwl 1 l).setTwl 0 []
    if l = [] ∨ ¬ s.trkRuns then s.setH .trkIn 0 0
    else
      let x := meanOf l
      let s := s.wrS (.twn .OFS) 0 x
      let near := decide (x.natAbs * 1000 ≤ s.rd (.twn .CFG_ALIGN_THR) 0 * 65536)
      let n := s.rd (.twn .CFG_ALIGN_CYC) 0
      let s := if near then (s.setH .trkIn 0 (s.h .trkIn + 1)).setH .trkOut 0 0
        else (s.setH .trkOut 0 (s.h .trkOut + 1)).setH .trkIn 0 0
      if s.trk = tkTRACKING ∧ n ≤ s.h .trkIn then (s.trkSet tkALIGNED).raise .TWN_ALIGN locBell
      else if s.trk = tkALIGNED ∧ n ≤ s.h .trkOut then s.trkSet tkTRACKING
      else s

/-- The tracker's word at a deadline (R396): from the offsets of the closed cycle, as R91 takes its samples. -/
def State.trkDeadline (s : State) : State :=
  if ¬ s.trkRuns then s
  else
    let fa := toS 48 (s.copied 4 6)
    let i := s.rdS (.twn .TWN_I) 0
    let l := s.twls 1
    let x := meanOf l
    let i := if l = [] then i else i - (s.rd (.twn .TW_KI) 0 * x) / 65536
    let f := if l = [] then fa + i else fa + i - (s.rd (.twn .TW_KP) 0 * x) / 65536
    let s := s.wrS (.twn .TWN_I) 0 i
    let s := if s.trk = tkALIGNED then
        let log := (s.rdS (.twn .TWN_I) 0 :: s.twls 2).take (64 * 2 ^ s.h .cycEff)
        (s.setTwl 2 log).wrS (.twn .TWN_DOSC) 0 (meanOf log)
      else s.setTwl 2 []
    if s.rd (.bell .STATUS_NCO_SRC) 0 = ncoSERVO then s.putWord f else s

/-! ## Swap (R403) -/

/-- SWAP_FAIL. -/
def State.swapFail (s : State) : State := (s.wr (.twn .CTL_SWAP_FAIL) 0 1).setH .swapPend 0 0

/-- The role after a swap. -/
def State.otherRole (s : State) : Nat := if s.standby then twACTIVE else twSTANDBY

/-- Unit 27 is committed at T to the other role; with the controller busy, or T no longer acceptable to it, the internal
request of R105 carries the role. -/
def State.swapArm (s : State) (t : Nat) : State :=
  let n := s.otherRole
  if s.cstate = 0 ∧ s.tOk t then
    let s := s.wr (.twn .CTL_ROLE) 0 n
    (s.arm 0 (2 ^ 27) (clrBit 27 (s.rd (.glb .COMMIT_PEND) 0)) ((s.rd (.glb .DEV_GEN) 0 + 1) % 65536) t).setH .roleInt 0 1
  else s.intRequest { role := n + 1 }

/-- TWN_SWAP.GO is written. -/
def State.swapGo (s : State) : State :=
  let t := s.rd (.twn .SWAP_T) 0
  if ¬ s.isTwin ∨ ¬ s.twUp ∨ u96 t * 5 < tickQ (s.now + msTicks 2) then s.swapFail
  else
    let s := s.twSend 0x14 (beBytes 12 t ++ beBytes 2 (s.rd (.twn .STATUS_ROLE_GEN) 0))
    (s.setH .swapPend 0 1).setH .swapAt 0 (s.age + msTicks 1)

/-- TWN_SWAP_GO (R403). -/
def execTwnSwapGo (r : Req) (s : State) : Host.Outcome State Fault Refusal :=
  .next (s.writeTo r .TWN 0 State.swapGo)

/-- The standby of the pair is ALIGNED. -/
def State.pairAligned (s : State) : Bool := if s.standby then s.trk == tkALIGNED else s.h .peerT == tkALIGNED

/-- TWIN_SWAP_RECEIVE (R403): the answer, and the commit where the swap is accepted. -/
def execTwinSwapReceive (h : TwHdr) (t : BitVec 96) (_gen : BitVec 16) (s : State) : Host.Outcome State Fault Refusal :=
  .next (s.twTake 0x14 h (fun s =>
    let al := s.pairAligned
    let ok := al && s.twUp && s.cstate == 0 && s.tOk t.toNat
    let s := s.twSend 0x15 (beBytes 1 (ok.toNat + 2 * al.toNat))
    if ok then s.swapArm t.toNat else s))

/-- TWIN_SWAP_ACK_RECEIVE (R403). -/
def execTwinSwapAckReceive (h : TwHdr) (accepted aligned : Bool) (s : State) : Host.Outcome State Fault Refusal :=
  .next (s.twTake 0x15 h (fun s =>
    if s.h .swapPend = 0 then s
    else if accepted ∧ aligned then (s.setH .swapPend 0 0).swapArm (s.rd (.twn .SWAP_T) 0)
    else s.swapFail))

/-- SWAP_ACK_TIMEOUT (R403): 1 ms. -/
def execSwapAckTimeout (s : State) : Host.Outcome State Fault Refusal :=
  .next (s.inDom .bell (fun s => if s.h .swapPend = 0 then s else (s.passAge (s.h .swapAt)).swapFail))

end Sys2Proof.Machine
end

