-- ==== Sys2Proof/Machine/Image.lean ====
section
/-! DEFINITION. TZ images: header, segments and the refusal codes of Table 9.12 (R316, R317, R456, R457, R467). -/

namespace Sys2Proof.Machine

/-- A little-endian field of an image. -/
def imgAt (l : List Byte) (o n : Nat) : Nat := leNat ((l.drop o).take n)

def imgCLASS (l : List Byte) : Nat := imgAt l 6 1
def imgPRIV (l : List Byte) : Nat := imgAt l 7 1
def imgSEG_CNT (l : List Byte) : Nat := imgAt l 12 2
def imgENTRY (l : List Byte) : Nat := imgAt l 16 8
def imgIMAGE_ID (l : List Byte) : Nat := imgAt l 24 8
def imgSEC_VER (l : List Byte) : Nat := imgAt l 32 4
def imgTHREADS (l : List Byte) : Nat := imgAt l 36 2
def imgENGINES (l : List Byte) : Nat := imgAt l 38 2
def imgSTACK (l : List Byte) : Nat := imgAt l 40 4
def imgKEY_IDX (l : List Byte) : Nat := imgAt l 44 1

/-- A segment entry (Table 9.11). -/
structure Seg where
  kind : Nat
  access : Nat
  target : Nat
  dest : Nat
  size : Nat
  ofs : Nat
  deriving DecidableEq, Repr

/-- The segments of an image. -/
def imgSegs (l : List Byte) : List Seg :=
  (List.range (imgSEG_CNT l)).map (fun k =>
    let o := 64 + 32 * k
    { kind := imgAt l o 1, access := imgAt l (o + 1) 1, target := imgAt l (o + 4) 4, dest := imgAt l (o + 8) 8,
      size := imgAt l (o + 16) 8, ofs := imgAt l (o + 24) 8 })

/-- The contents of a segment: octets of the image, or zeros. -/
def Seg.contents (g : Seg) (l : List Byte) : List Byte :=
  if g.kind = 2 ∨ g.kind = 3 then List.replicate g.size 0 else (l.drop g.ofs).take g.size

/-- Two memory segments overlap. -/
def Seg.overlaps (a b : Seg) : Bool := decide (a.dest < b.dest + b.size) && decide (b.dest < a.dest + a.size)

/-- No two of a list of segments overlap. -/
def segsApart : List Seg → Bool
  | [] => true
  | g :: t => t.all (fun h => !g.overlaps h) && segsApart t

/-- Octets of the memory an image of a class is loaded into. That of the Weighhouse core is given by no rule. -/
def imgMemory (cls : Nat) : Nat := if cls = 0 then 0x400000 else if cls = 2 then 0x200000 else 2 ^ 48

/-- One segment is well formed for the class (code 3). -/
def segOk (l : List Byte) (cls : Nat) (g : Seg) : Bool :=
  if cls = 1 then g.kind == 4 && g.size == 96 && decide (g.ofs + 96 + 64 ≤ l.length)
  else decide (g.kind ≤ 3) && decide (g.dest + g.size ≤ imgMemory cls) && (cls != 0 || g.dest % 4096 == 0) &&
    (2 ≤ g.kind || decide (g.ofs + g.size + 64 ≤ l.length))

/-- Code 1. -/
def imgCode1 (l : List Byte) : Bool :=
  imgAt l 0 4 != 0x4D495A54 || imgAt l 4 2 != 1 || imgAt l 8 4 != l.length || decide (l.length < 160)

/-- Code 2. -/
def imgCode2 (l : List Byte) : Bool :=
  !(match imgCLASS l with
    | 0 => decide (imgPRIV l ≤ 1) | 1 => imgPRIV l == 0 | 2 => imgPRIV l == 1 | 3 => imgPRIV l == 2 | _ => false)

/-- Code 3. -/
def imgCode3 (l : List Byte) : Bool :=
  let g := imgSegs l
  imgSEG_CNT l == 0 || decide (64 < imgSEG_CNT l) || !g.all (segOk l (imgCLASS l)) ||
    (imgCLASS l != 1 && !segsApart g)

/-- Code 4: a stage-cell image has no entry. -/
def imgCode4 (l : List Byte) : Bool :=
  imgCLASS l != 1 &&
    !(imgSegs l).any (fun g => g.kind == 0 && decide (g.dest ≤ imgENTRY l) && decide (imgENTRY l < g.dest + g.size))

/-- Slot k of the key store verifies: written and not revoked (R456). -/
def State.keyLive (s : State) (k : Nat) : Bool :=
  bit (2 * k) (s.rd (.ree .KEYS_BITS) 0) && !bit (2 * k + 1) (s.rd (.ree .KEYS_BITS) 0)

/-- The key of slot k. -/
def State.keyOf (s : State) (k : Nat) : List Byte := leBytes 32 (s.h .keySlot k)

/-- Slot k may sign an image of a class in the present life-cycle state (Tables 14.6, 14.9). -/
def State.keyFor (s : State) (cls k : Nat) : Bool :=
  if cls = 3 then k == 3
  else match s.lc with
    | 1 => k == 0 | 2 => decide (k ≤ 2) | 3 => decide (k ≤ 2) | 4 => k == 0 | _ => false

/-- Code 5. -/
def State.imgCode5 (s : State) (l : List Byte) : Bool :=
  let k := imgKEY_IDX l
  !(s.keyFor (imgCLASS l) k && s.keyLive k &&
    Config.ed25519Verify (s.keyOf k) (l.take (l.length - 64)) (l.drop (l.length - 64)))

/-- The stored anti-rollback value of a class (R457, R443). -/
def State.arbOf (s : State) (cls : Nat) : Nat :=
  match cls with
  | 0 => s.rd (.ree .ARB_ENG) 0 | 1 => s.rd (.ree .ARB_STG) 0 | 2 => s.rd (.ree .ARB_REV) 0 | _ => s.h .wArb

/-- The first refusal code 1-6 an image meets, 0 for none (Table 9.12). -/
def State.imgCode (s : State) (l : List Byte) : Nat :=
  if imgCode1 l then 1 else if imgCode2 l then 2 else if imgCode3 l then 3 else if imgCode4 l then 4
  else if s.imgCode5 l then 5 else if imgSEC_VER l < s.arbOf (imgCLASS l) then 6 else 0

/-- A refused image is logged (R317): the code and the low 48 bits of IMAGE_ID. -/
def State.imgRefused (s : State) (code : Nat) (l : List Byte) (src : LedSrc := .reeve) : State :=
  s.ledger 0x0002 true locReeve (code + 65536 * (imgIMAGE_ID l % 2 ^ 48)) src

end Sys2Proof.Machine
end

