-- ==== Sys2Proof/Machine/Survey.lean ====
section
/-! DEFINITION. Port delay checks and the survey controller: asymmetry and loopback surveys, both ends (R122-R142). -/

namespace Sys2Proof.Machine

/-! ## Tracked round trip and delay checks (R142) -/

/-- A round trip of port p is tracked while DLY_VALID = 1: RT is the mean of the last 1000. -/
def State.rtTrack (s : State) (p : Nat) (rt : Int) : State :=
  if ¬ s.dlyOk p then s
  else
    let l := (rt :: s.rts p).take 1000
    (((s.setRts p l).wr (.lane .RT) p (ofS 64 (meanOf l))).setH .rtTracked p 1).modelFollow p

/-- START with KIND 0 on port p. -/
def State.checkGo (s : State) (p : Nat) : State := ((s.wr (.surv .CTL_KIND) 0 0).wr (.surv .CTL_PORT) 0 p).checkStart p

/-- DELAY_CHECK_START (R142): START with KIND 0. The automatic start belongs to the port's way up. -/
def execDelayCheckStart (r : Req) (p : Fin 72) (s : State) : Host.Outcome State Fault Refusal :=
  .next (s.writeTo r .SURV 0 (fun s => s.checkGo p))

/-- 100 ms after ALIGN_VALID: the module delays are read where MOD_SRC = 1, the loopback comparison of R122 runs. -/
def State.checkRun (s : State) (p : Nat) (cmis : Option (BitVec 16 × BitVec 16)) (resid : Nat) : State :=
  let s := if s.rd (.lane .DLY_CFG_MOD_SRC) p = 1 then s.modDelays p cmis else s
  ((s.wr (.lane .RESID) p resid).wr (.lane .RESID_VALID) p 1).setH .chkStage p 2

/-- DELAY_CHECK_WAIT_EXPIRY (R142). `cmis`: what the read of the module delays returns; `resid`: the loopback's residual. -/
def execDelayCheckWaitExpiry (p : Fin 72) (cmis : Option (BitVec 16 × BitVec 16)) (resid : BitVec 16) (s : State) :
    Host.Outcome State Fault Refusal :=
  .next (s.inUnit .LANE p (fun s =>
    s.when (s.h .chkStage p == 1 && s.on (.lane .ALIGN_VALID) p && s.h .modAwait p == 0)
      (fun s => s.checkRun p cmis resid.toNat)))

/-- The check passes: the mean round trip, where there is one, becomes the tracked value. -/
def State.checkPass (s : State) (p : Nat) (rt : Option Int) : State :=
  match rt with
  | none => s.dlyValid p
  | some v => (((s.setRts p [v]).wr (.lane .RT) p (ofS 64 v)).setH .rtTracked p 1).modelFollow p |>.dlyValid p

/-- The check passes or fails (R142). -/
def State.checkGood (s : State) (p : Nat) (rt : Option Int) : Bool :=
  (s.rd (.lane .DLY_CFG_MOD_SRC) p != 1 || s.h .modRead p == 1) &&
  (match rt with
   | none => true
   | some v => s.h .rtTracked p == 0 || 60 * ticksPerSec ≤ s.h .linkGap p ||
       decide (10 * (v - s.rdS (.lane .RT) p).natAbs ≤ 32768))

/-- The check ends. -/
def State.checkDone (s : State) (p : Nat) (rt : Option Int) : State :=
  let s := (s.wr (.lane .DLY_STAT_CHECKING) p 0).setH .chkStage p 0
  if s.checkGood p rt then s.checkPass p rt else (s.dlyInvalid p 5).raiseP .LANE_DELAY_SHIFT p

/-- DELAY_CHECK_DONE (R142). `rt`: the mean over the exchanges, or over the port's PTP path-delay means, if any. -/
def execDelayCheckDone (p : Fin 72) (rt : Option (BitVec 64)) (s : State) : Host.Outcome State Fault Refusal :=
  .next (s.inUnit .LANE p (fun s => s.when (s.h .chkStage p == 2) (fun s => s.checkDone p (rt.map BitVec.toInt))))

/-! ## Survey messages (Table 4.5) -/

/-- Body of a survey message. -/
def survBody (ty flags seq id ta dlySum lambda : Nat) : List Byte :=
  beBytes 1 ty ++ beBytes 1 flags ++ beBytes 2 seq ++ beBytes 2 id ++ beBytes 12 ta ++ beBytes 12 0 ++ beBytes 4 dlySum ++
    beBytes 4 lambda ++ beBytes 4 0

/-- A survey message leaves port p. -/
def State.survSend (s : State) (p own : Nat) (body : List Byte) : State := s.inbandSend p own 18 0x05 0xFFFF body

/-- STATE of the survey controller (Table 4.11). -/
def State.sstat (s : State) : Nat := s.rd (.surv .STATUS_STATE) 0

/-- The segment is of pair B: order A, B, B, A (R135). -/
def State.segB (s : State) : Bool := s.rd (.surv .STATUS_SEG) 0 == 1 || s.rd (.surv .STATUS_SEG) 0 == 2

/-- Pair B is measured on PORT_B. -/
def State.hasPortB (s : State) : Bool := s.variant.hasPort (s.rd (.surv .CTL_PORT_B) 0)

/-- The port whose span the segment measures (R133). -/
def State.measPort (s : State) : Nat := if s.segB && s.hasPortB then s.rd (.surv .CTL_PORT_B) 0 else s.survPort

/-- Wavelength of a pair: 0-3 A to D, in 0.1 pm. -/
def State.lam (s : State) (k : Nat) : Nat := s.rd (.surv .LAMBDA) k

/-- The survey controller holds Weighhouse slot 3: a unipolar INTERVAL from the PPSOUT0 tap to WH_IN (R433). -/
def State.wghHold (s : State) : State :=
  s.inDom .weigh (fun s =>
    let s := s.wrAll [.wgh .SLOT_TYPE, .wgh .SLOT_PS_A, .wgh .SLOT_PS_B, .wgh .SLOT_MODE, .wgh .SLOT_COUNT_N, .wgh .SLOT_MADE] 3 0
    let s := (s.wr (.wgh .SLOT_SRC_A) 3 4).wr (.wgh .SLOT_SRC_B) 3 (s.rd (.surv .CTL_WH_IN) 0)
    (s.wr (.wgh .SLOT_RUNSTATE) 3 2).setWslot 3 {})

/-- The peer is told the survey's end, pair A restored on both ends, where the link allows (Table 4.4). -/
def State.survEnd (s : State) : State :=
  let p := s.survPort
  let s := if s.linkUp p then s.survSend p 5 (survBody 4 0 0 (s.h .survId) 0 0 (s.lam 1)) else s
  s.setH .survPair 0 0

/-- The survey fails: ERR, the peer told, then IDLE. -/
def State.survStop (s : State) (err : Nat) : State := s.survEnd.survFail err

/-- The controller enters TUNE for the segment in hand (Table 4.4). -/
def State.tuneStart (s : State) : State :=
  let b := s.segB && !s.hasPortB
  let s := (s.wr (.surv .STATUS_STATE) 0 1).setH .survPair 0 b.toNat
  let s := ((s.setH .survAck 0 0).setH .survWaited 0 0).setH .survAt 0 s.age
  s.survSend s.survPort 5 (survBody 2 0 0 (s.h .survId) 0 0 (if s.hasPortB then 0 else s.lam (if b then 3 else 1)))

/-- The segment is discarded and repeated; its third repeat fails (Table 4.4). -/
def State.segRepeat (s : State) : State :=
  let n := s.h .survRep + 1
  if 3 ≤ n then s.survStop 3 else (s.setH .survRep 0 n).tuneStart

/-! ## Starting (R133, R137) -/

/-- The port carries the selected reference: as a clock, or as an observer's port. -/
def State.portSelected (s : State) (p : Nat) : Bool :=
  s.h .selSlot != 0 &&
  (let src := s.slotSrc (s.h .selSlot - 1)
   src == p || (decide (78 ≤ src) && s.rd (.stamp .OBS_CFG_PORT) (src - 78) == p))

/-- An asymmetry START is acceptable (R133, R137). `probe`: the peer has answered a probe request within 100 ms. -/
def State.asymOk (s : State) (p : Nat) (probe : Bool) : Bool :=
  let d : Int := ((s.lam 0 + s.lam 1 : Nat) : Int) - (s.lam 2 + s.lam 3 : Nat)
  decide (50000 ≤ d.natAbs) && s.lam 0 != 0 && s.lam 1 != 0 && s.lam 2 != 0 && s.lam 3 != 0 && s.dlyOk p &&
  (!s.portSelected p || s.mode == modeSurvey) && probe && s.inbandOn

/-- A START is refused. -/
def State.survRefuse (s : State) : State := s.wr (.surv .STATUS_REFUSED) 0 1

/-- The controller starts afresh. SURVEY_ID is the initiator's to choose: a free value. -/
def State.survFresh (s : State) (kind : Nat) : State :=
  let s := ((s.setH .survId 0 (s.freeVal 16)).nextFree.setH .survKind 0 kind).wr (.surv .CTL_START) 0 1
  let s := ((s.wr (.surv .STATUS_ERR) 0 0).wr (.surv .STATUS_CYCLE) 0 0).wr (.surv .STATUS_SEG) 0 0
  ((s.setH .survRep 0 0).setH .survRtA 0 0).setH .survSplit 0 0

/-- START with KIND 1 on port p; a START while a survey runs changes nothing. -/
def State.asymStart (s : State) (p : Nat) (probe : Bool) : State :=
  if s.survRuns then s
  else
    let s := (s.wr (.surv .CTL_KIND) 0 1).wr (.surv .CTL_PORT) 0 p
    if s.asymOk p probe then (s.survFresh 1).tuneStart else s.survRefuse

/-- ASYM_SURVEY_START (R133). -/
def execAsymSurveyStart (r : Req) (p : Fin 72) (probe : Bool) (s : State) : Host.Outcome State Fault Refusal :=
  .next (s.writeTo r .SURV 0 (fun s => s.asymStart p probe))

/-! ## The asymmetry survey (Table 4.4) -/

/-- Link, FEC and alignment of a port are valid. -/
def State.spanOk (s : State) (p : Nat) : Bool :=
  s.linkUp p && s.on (.lane .ALIGN_VALID) p && (s.rd (.lane .CTL_FEC) p == 0 || s.on (.lane .STATUS_FEC_LOCK) p)

/-- TUNE ends when the peer has acknowledged, RETUNE_WAIT has elapsed and the span is valid. -/
def State.tryMeasure (s : State) : State :=
  if s.h .survAck = 1 ∧ s.h .survWaited = 1 ∧ s.spanOk s.measPort then
    let s := (s.wr (.surv .STATUS_STATE) 0 2).setH .survCnt 0 0
    ((s.setHS .survSum 0 0).setH .survMiss 0 0).setH .survOpen 0 0
  else s

/-- Ticks of RETUNE_WAIT. -/
def State.retuneTicks (s : State) : Nat := msTicks (100 * s.rd (.surv .SEQ_RETUNE_WAIT) 0)

/-- RETUNE_WAIT_EXPIRY (R135). `tuned`: the local module reports its grid channel tuned. -/
def execRetuneWaitExpiry (tuned : Bool) (s : State) : Host.Outcome State Fault Refusal :=
  .next (s.inUnit .SURV 0 (fun s => s.when (s.h .survKind == 1 && s.sstat == 1 && tuned) (fun s =>
    ((s.passAge (s.h .survAt + s.retuneTicks)).setH .survWaited 0 1).tryMeasure)))

/-- The message belongs to the survey in hand on port p. -/
def State.survMine (s : State) (p st : Nat) (m : SurvMsg) : Bool :=
  s.h .survKind == 1 && s.sstat == st && m.id.toNat == s.h .survId && s.inbandOn &&
  (if st = 1 then s.survPort == p else s.measPort == p)

/-- SURVEY_TUNE_ACK_RECEIVE (R135, R138): an answer with bit 2 acknowledges nothing (log entry 53). -/
def execSurveyTuneAckReceive (p : Fin 72) (m : SurvMsg) (s : State) : Host.Outcome State Fault Refusal :=
  .next (s.inUnit .SURV 0 (fun s => s.when (s.survMine p 1 m && !bit 2 m.flags.toNat)
    (fun s => (s.setH .survAck 0 1).tryMeasure)))

/-- TUNE is given up (Table 4.4). -/
def State.tuneFail (s : State) : State :=
  if s.h .survAck = 0 then (s.passAge (s.h .survAt + msTicks 5000)).survStop 1
  else (s.passAge (s.h .survAt + s.retuneTicks + msTicks 5000)).survStop 2

/-- SURVEY_TUNE_TIMEOUT (R135). -/
def execSurveyTuneTimeout (s : State) : Host.Outcome State Fault Refusal :=
  .next (s.inUnit .SURV 0 (fun s => s.when (s.h .survKind == 1 && s.sstat == 1) State.tuneFail))

/-- A REQ leaves the port measured; one still open counts as unanswered. -/
def State.exchange (s : State) : State :=
  let s := if s.h .survOpen = 1 then s.setH .survMiss 0 (s.h .survMiss + 1) else s
  let n := (s.h .survSeq + 1) % 65536
  ((s.setH .survSeq 0 n).setH .survOpen 0 1).survSend s.measPort 3 (survBody 0 0 n (s.h .survId) 0 0 0)

/-- SURVEY_EXCHANGE (R135). -/
def execSurveyExchange (s : State) : Host.Outcome State Fault Refusal :=
  .next (s.inUnit .SURV 0 (fun s => s.when (s.h .survKind == 1 && s.sstat == 2) State.exchange))

/-- SURVEY_PEER_TIMEOUT (R135): no response to three consecutive requests. -/
def execSurveyPeerTimeout (s : State) : Host.Outcome State Fault Refusal :=
  .next (s.inUnit .SURV 0 (fun s =>
    s.when (s.h .survKind == 1 && s.sstat == 2 && 3 ≤ s.h .survMiss + s.h .survOpen) (fun s => s.survStop 1)))

/-- A cycle is complete: its ΔRT, and the pair-A round trips (R135). -/
def State.cycleEnd (s : State) : State :=
  let a := s.hS .survMean 0 + s.hS .survMean 3
  let b := s.hS .survMean 1 + s.hS .survMean 2
  let k := s.rd (.surv .STATUS_CYCLE) 0
  let s := (s.setHS .survDrt k (a - b)).setHS .survRtA 0 (s.hS .survRtA + a)
  if k + 1 < s.rd (.surv .SEQ_K) 0 then ((s.wr (.surv .STATUS_CYCLE) 0 (k + 1)).wr (.surv .STATUS_SEG) 0 0).tuneStart
  else s.wr (.surv .STATUS_STATE) 0 3

/-- A segment is complete (Table 4.4). -/
def State.segEnd (s : State) : State :=
  let g := s.rd (.surv .STATUS_SEG) 0
  let s := (s.setHS .survMean g (divRound (s.hS .survSum) (s.rd (.surv .SEQ_N) 0))).setH .survRep 0 0
  if g = 3 then s.cycleEnd else (s.wr (.surv .STATUS_SEG) 0 (g + 1)).tuneStart

/-- The round trip of an exchange less both ends' ball-to-fibre delays (R135), in 2^-16 ns. -/
def State.exchRt (s : State) (p : Nat) (t4 : ObsStamp) (m : SurvMsg) : Int :=
  ((u96 t4.time.toNat : Int) - (s.h .survT1 p - 1 : Nat)) - ((u96 m.tb.toNat : Int) - u96 m.ta.toNat) -
    (s.fibreTx p + s.fibreRx p : Nat) - m.dlySum.toNat

/-- A RESP completes an exchange, or spoils its segment (Table 4.4). -/
def State.survResp (s : State) (p : Nat) (t4 : ObsStamp) (m : SurvMsg) : State :=
  let s := (s.setH .survOpen 0 0).setH .survMiss 0 0
  if t4.void ∨ t4.caution ∨ s.h .survT1Bad p = 1 ∨ bits 0 2 m.flags.toNat ≠ 0 then s.segRepeat
  else
    let rt := s.exchRt p t4 m
    let s := if s.segB then s else s.rtTrack p rt
    let s := (s.setHS .survSum 0 (s.hS .survSum + rt)).setH .survCnt 0 (s.h .survCnt + 1)
    if s.rd (.surv .SEQ_N) 0 ≤ s.h .survCnt then s.segEnd else s

/-- SURVEY_RESP_RECEIVE (R135). `t4`: the stamp of the response at this end's ball. -/
def execSurveyRespReceive (p : Fin 72) (t4 : ObsStamp) (m : SurvMsg) (s : State) : Host.Outcome State Fault Refusal :=
  .next (s.inUnit .SURV 0 (fun s =>
    s.when (s.survMine p 2 m && s.h .survOpen == 1 && m.seq.toNat == s.h .survSeq && s.h .survT1 p != 0)
      (fun s => s.survResp p t4 m)))

/-! ## The solution (R139) -/

/-- Integer square root, rounded down, from the highest bit `2^n` on. -/
def isqrt (v : Nat) : Nat → Nat → Nat
  | 0, r => if (r + 1) * (r + 1) ≤ v then r + 1 else r
  | n + 1, r => isqrt v n (if (r + 2 ^ (n + 1)) * (r + 2 ^ (n + 1)) ≤ v then r + 2 ^ (n + 1) else r)

/-- The quantities of R139 in 0.1 pm and its squares. -/
structure Solve where
  sig : Int
  del : Int
  q : Int
  p : Int
  deriving DecidableEq, Repr

/-- σ, δ, q and p from the wavelengths. -/
def State.solveIn (s : State) : Solve :=
  let x := fun k => (s.lam k : Int) - 15500000
  { sig := x 0 + x 1 - x 2 - x 3, del := x 0 - x 1,
    q := x 0 * x 0 + x 1 * x 1 - x 2 * x 2 - x 3 * x 3, p := x 0 * x 0 - x 1 * x 1 }

/-- Twice the ΔRTs of the K cycles. -/
def State.drts (s : State) : List Int := (List.range (s.rd (.surv .SEQ_K) 0)).map (fun k => s.hS .survDrt k)

/-- Δ in 2^-16 ns as numerator and denominator; the denominator carries the sign of σ. -/
def State.deltaFrac (s : State) : Int × Int :=
  let w := s.solveIn
  let tg : Int := s.rd (.lane .FIBRE_TG) s.survPort
  (sumInt s.drts * w.del * 4 * tg * 1000000000000 +
     s.hS .survRtA * (s.rd (.lane .FIBRE_S) s.survPort : Int) * (w.p * w.sig - w.q * w.del),
   8 * (s.rd (.surv .SEQ_K) 0 : Int) * tg * w.sig * 1000000000000)

/-- u(Δ)² in 2^-32 ns² as numerator and denominator; u(ΔRT) is the sample standard deviation over √K (log entry 54). -/
def State.uFrac (s : State) : Nat × Nat :=
  let w := s.solveIn
  let p := s.survPort
  let k := s.rd (.surv .SEQ_K) 0
  let k1 := max (k - 1) 1
  let d := s.drts
  let sum := sumInt d
  let var := ((k : Int) * sumInt (d.map (fun x => x * x)) - sum * sum).toNat
  let qq := (4 * s.rd (.lane .FIBRE_TG) p * 1000000000000) ^ 2
  let sig := w.sig.natAbs
  let del := w.del.natAbs
  let slope := (s.hS .survRtA).natAbs * s.rd (.lane .FIBRE_S_U) p * (w.p * w.sig - w.q * w.del).natAbs
  (del ^ 2 * sig ^ 2 * var * qq + (s.rd (.surv .U_LAMBDA) 0) ^ 2 * sum.natAbs ^ 2 * (2 * sig ^ 2 + 4 * del ^ 2) * k1 * qq +
     slope ^ 2 * k1 * sig ^ 2,
   4 * k ^ 2 * k1 * sig ^ 4 * qq)

/-- u(ASYM) in 2^-16 ns, rounded to nearest. -/
def State.uAsym (s : State) : Nat := (isqrt (s.uFrac.1 / s.uFrac.2) 64 0 + 1) / 2

/-- A fraction rounded to nearest. -/
def fracRound (f : Int × Int) (m : Nat) : Int := if f.2 < 0 then divRound (-f.1) (m * f.2.natAbs) else divRound f.1 (m * f.2.natAbs)

/-- SOLVE completes: the results are published, pair A is restored, and ASYM is to be applied where AUTO_APPLY allows
(Table 4.4). -/
def State.solve (s : State) : State :=
  let p := s.survPort
  let k := s.rd (.surv .SEQ_K) 0
  let u := s.uAsym
  let s := s.wrS (.surv .DRT) 0 (divRound (sumInt s.drts) (2 * k))
  let s := (s.wrS (.surv .DELTA) 0 (fracRound s.deltaFrac 1)).wr (.surv .U) 0 u
  let s := s.wr (.surv .LEN) 0 (divRound (s.hS .survRtA * 1000000) (2 * k * 131072 * s.rd (.lane .FIBRE_TG) p)).toNat
  let asym := fracRound (-s.deltaFrac.1, s.deltaFrac.2) 2
  let s := ((s.wr (.surv .STATUS_STATE) 0 4).wr (.surv .STATUS_DONE) 0 1).wr (.surv .CTL_START) 0 0
  let s := (s.setHS .survMean 4 asym).survEnd.setH .survKind 0 0
  let s := s.raiseP .LANE_SURVEY_DONE p
  if s.on (.surv .CTL_AUTO_APPLY) 0 ∧ u * 10000 ≤ s.rd (.surv .U_MAX) 0 * 65536 then s.setH .survApply 0 (p + 1) else s

/-- SURVEY_SOLVE (R139). -/
def execSurveySolve (s : State) : Host.Outcome State Fault Refusal :=
  .next (s.inUnit .SURV 0 (fun s => s.when (s.h .survKind == 1 && s.sstat == 3) State.solve))

/-- APPLY is written: in DONE of an asymmetry survey the result waits for the next servo cycle boundary. -/
def State.survApplyGo (s : State) : State :=
  if s.sstat = 4 ∧ s.rd (.surv .CTL_KIND) 0 = 1 then s.setH .survApply 0 (s.survPort + 1) else s

/-- SURVEY_APPLY (R135). -/
def execSurveyApply (r : Req) (s : State) : Host.Outcome State Fault Refusal :=
  .next (s.writeTo r .SURV 0 State.survApplyGo)

/-- At a servo cycle boundary a waiting result takes effect (Table 4.4). -/
def State.asymBoundary (s : State) : State :=
  match s.h .survApply with
  | 0 => s
  | p + 1 =>
    let s := (s.setH .survApply 0 0).wrS (.lane .ASYM) p (s.hS .survMean 4)
    ((s.wr (.lane .ASYM_U) p (s.rd (.surv .U) 0)).wr (.lane .DLY_STAT_ASYM_SRC) p srcSURVEY).raiseP .LANE_ASYM_APPLIED p

/-- At a servo cycle boundary the four delays of every port take effect (R125). -/
def State.delayBoundary (s : State) : State :=
  (List.range 72).foldl (fun s p =>
    ((s.setH .effBrdTx p (s.rd (.lane .BRD_TX) p)).setH .effBrdRx p (s.rd (.lane .BRD_RX) p)).setH .effModTx p
      (s.rd (.lane .MOD_TX) p) |>.setH .effModRx p (s.rd (.lane .MOD_RX) p)) s

/-- SURVEY_ABORT (R135). -/
def execSurveyAbort (r : Req) (s : State) : Host.Outcome State Fault Refusal :=
  .next (s.writeTo r .SURV 0 (fun s => s.when s.survRuns (fun s => s.survStop 4)))

/-! ## The responder's side (R136, R138) -/

/-- Port p answers survey messages. -/
def State.answers (s : State) (p : Nat) : Bool := s.on (.lane .DLY_CFG_RESP_EN) p && s.inbandOn

/-- No other survey is open on port p. -/
def State.peerOk (s : State) (p : Nat) (m : SurvMsg) : Bool := s.h .survPeer p == 0 || s.h .survPeer p == m.id.toNat + 1

/-- SURVEY_REQ_RECEIVE (R136): the answer carries t2, DLY_SUM and, inserted in flight, t3. -/
def execSurveyReqReceive (p : Fin 72) (t2 : ObsStamp) (m : SurvMsg) (s : State) : Host.Outcome State Fault Refusal :=
  .next (s.inUnit .PORT p (fun s => s.when (s.answers p && s.peerOk p m) (fun s =>
    s.survSend p 4 (survBody 1 (t2.caution.toNat + 2 * t2.void.toNat) m.seq.toNat m.id.toNat t2.time.toNat
      (s.fibreTx p + s.fibreRx p) 0))))

/-- SURVEY_TUNE_RECEIVE (R138). `ok`: a grid channel within 1 GHz exists and the module reports no tuning fault. -/
def execSurveyTuneReceive (p : Fin 72) (m : SurvMsg) (ok : Bool) (s : State) : Host.Outcome State Fault Refusal :=
  .next (s.inUnit .PORT p (fun s => s.when (s.answers p && s.peerOk p m) (fun s =>
    (s.setH .survPeer p (m.id.toNat + 1)).survSend p 5
      (survBody 3 (if ok ∨ m.lambda.toNat = 0 then 0 else 4) m.seq.toNat m.id.toNat 0 0 0))))

/-- SURVEY_END_RECEIVE (R136). -/
def execSurveyEndReceive (p : Fin 72) (m : SurvMsg) (s : State) : Host.Outcome State Fault Refusal :=
  .next (s.inUnit .PORT p (fun s => s.when (s.peerOk p m && s.inbandOn) (fun s => s.setH .survPeer p 0)))

/-! ## The loopback survey (R127-R129) -/

/-- Phase 2: the lane in its Ethernet mode loops requests to itself. -/
def State.loopPhase2 (s : State) : State := (s.setH .survPhase 0 2).laneApply s.survPort

/-- START with KIND 2: phase 1 places the lane in RAW-NRZ; with WH_IN = 3 phase 2 alone is run (R127, R128). -/
def State.loopStart (s : State) (p : Nat) : State :=
  if s.survRuns then s
  else
    let s := (s.wr (.surv .CTL_KIND) 0 2).wr (.surv .CTL_PORT) 0 p
    if ¬ s.inbandOn ∨ ¬ s.variant.hasPort p then s.survRefuse
    else
      let s := ((s.survFresh 2).setH .survAt 0 s.age).wr (.surv .STATUS_STATE) 0 2
      if s.rd (.surv .CTL_WH_IN) 0 = 3 then (s.setH .survSplit 0 1).setH .survPhase 0 2
      else
        let s := (s.setH .survPhase 0 1).wghHold
        let s := if s.on (.lane .STATUS_LINK_UP) p then s.linkDown p true else s
        (s.wr (.lane .STATUS_EFF_MODE) p 9).txSync p

/-- LOOPBACK_SURVEY_START (R127). -/
def execLoopbackSurveyStart (r : Req) (p : Fin 72) (s : State) : Host.Outcome State Fault Refusal :=
  .next (s.writeTo r .SURV 0 (fun s => s.loopStart p))

/-- Phase 1 fails with ERR = PROBE; phase 2 is completed alone (R128). -/
def State.probeFail (s : State) : State := ((s.wr (.surv .STATUS_ERR) 0 5).setH .survSplit 0 1).loopPhase2

/-- Phase 1 ends: more than 4 bad records of 64 fail it, else MOD_TX follows from the mean interval (R127, R128). -/
def State.phase1 (s : State) (mean : Int) (bad rec : Nat) : State :=
  let p := s.survPort
  let s := (s.passAge (s.h .survAt + msTicks 64000)).wr (.surv .WHREC) 0 rec
  if 4 < bad then s.probeFail
  else
    let v := mean - 65536000 + (s.outDelay 8 / 125 : Nat) - s.rd (.surv .PROBE_D_PROBE) 0 - s.rd (.lane .BRD_TX) p
    (s.setH .loopTx p (ofS 32 v)).loopPhase2

/-- LOOPBACK_PHASE1_DONE (R127). `mean`: mean interval of the 64 s in 2^-16 ns; `bad`: records with WITHIN_RES, ORDER or
DEAD; `rec`: counter of the last record used. -/
def execLoopbackPhase1Done (mean : BitVec 64) (bad : Fin 65) (rec : BitVec 32) (s : State) :
    Host.Outcome State Fault Refusal :=
  .next (s.inUnit .SURV 0 (fun s => s.when (s.h .survKind == 2 && s.h .survPhase == 1)
    (fun s => s.phase1 mean.toInt bad rec.toNat)))

/-- LOOPBACK_PROBE_TIMEOUT (R128). -/
def execLoopbackProbeTimeout (s : State) : Host.Outcome State Fault Refusal :=
  .next (s.inUnit .SURV 0 (fun s => s.when (s.h .survKind == 2 && s.h .survPhase == 1) State.probeFail))

/-- The module delays of port p become those of its last loopback survey where MOD_SRC = 2 (R124). -/
def State.loopTake (s : State) (p : Nat) : State :=
  if s.rd (.lane .DLY_CFG_MOD_SRC) p = 2 ∧ s.h .loopHave p = 1 then
    let s := (s.wr (.lane .MOD_TX) p (s.h .loopTx p)).wr (.lane .MOD_RX) p (s.h .loopRx p)
    ((s.setH .effModTx p (s.h .loopTx p)).setH .effModRx p (s.h .loopRx p)).setH .modAwait p 0
  else s

/-- Phase 2 ends: MOD_RX is the remainder, or both follow from the assumed split (R127, R128). -/
def State.loopDone (s : State) (rt : Int) : State :=
  let p := s.survPort
  let split := s.h .survSplit == 1
  let rest := rt - s.rd (.surv .FIX_D_LOOP) 0 - s.rd (.lane .BRD_TX) p - s.rd (.lane .BRD_RX) p
  let tx : Int := if split then divRound (rest * s.rd (.lane .DLY_CFG_TX_SHARE) p) 100 else toS 32 (s.h .loopTx p)
  let s := ((s.wrS (.surv .RT_LOOP) 0 rt).setH .loopTx p (ofS 32 tx)).setH .loopRx p (ofS 32 (rest - tx))
  let s := (s.setH .loopHave p 1).wr (.lane .DLY_STAT_SPLIT_ASSUMED) p split.toNat
  let s := ((s.wr (.surv .STATUS_STATE) 0 4).wr (.surv .STATUS_DONE) 0 1).wr (.surv .CTL_START) 0 0
  let s := ((s.setH .survKind 0 0).setH .survPhase 0 0).loopTake p
  s.wghFree.raiseP .LANE_SURVEY_DONE p

/-- LOOPBACK_SURVEY_DONE (R127). `rt`: the mean round trip of the 4096 looped requests between ball stamps. -/
def execLoopbackSurveyDone (rt : BitVec 64) (s : State) : Host.Outcome State Fault Refusal :=
  .next (s.inUnit .SURV 0 (fun s => s.when (s.h .survKind == 2 && s.h .survPhase == 2) (fun s => s.loopDone rt.toInt)))

end Sys2Proof.Machine
end

