-- ==== Sys2Proof/Machine/Weigh.lean ====
section
/-! DEFINITION. The Weighhouse (R418-R448): interpolators, measurement slots, records, sealed parameters, commands. -/

namespace Sys2Proof.Machine

/-- The Weighhouse works: its domain is on and its core runs. -/
def State.wghOn (s : State) : Bool := s.domOn .weigh && s.rd (.wgh .STATUS_STATE) 0 == 2

/-- An effect that needs the Weighhouse working. -/
def State.inWgh (s : State) (k : State → State) : State := if s.wghOn then k s else s

/-! ## Interpolators (R425-R428) -/

/-- Temperature of the Hearth die (Table 14.3). -/
def State.hearthTemp (s : State) : Int := s.rdS (.ree .TEMP_T) 22

/-- A pair within the limits of R428. -/
def pairOk (n1 n2 : Nat) : Bool := 3800 + n1 ≤ n2 && n2 ≤ 4200 + n1 && 16 ≤ n1 && n1 ≤ 400

/-- An interpolator makes a pair: outside the limits its source is CAL_BAD, and a first one raises WGH.CAL_FAULT (R428). -/
def State.wghPair (s : State) (k n1 n2 : Nat) : State :=
  let s := (s.setH .wN1 k n1).setH .wN2 k n2
  let old := s.rd (.wgh .STATUS_CAL_BAD) 0
  if pairOk n1 n2 then s.wr (.wgh .STATUS_CAL_BAD) 0 (clrBit k old)
  else
    let s := s.wr (.wgh .STATUS_CAL_BAD) 0 (setBit k old)
    if bit k old then s else s.raise .WGH_CAL_FAULT locWgh k

/-- INTERPOLATOR_CALIBRATE (R426): after 1 ms without an edge. -/
def execInterpolatorCalibrate (src : Fin 8) (n1 n2 : BitVec 12) (s : State) : Host.Outcome State Fault Refusal :=
  .next (s.inWgh (fun s => s.wghPair src n1.toNat n2.toNat))

/-- OVR_RATE and CAL_BAD of a source as they stand, in their places of an edge's flags. -/
def State.srcFlags (s : State) (k : Nat) : Nat :=
  4 * (bit k (s.rd (.wgh .STATUS_OVR_RATE) 0)).toNat + 8 * (bit k (s.rd (.wgh .STATUS_CAL_BAD) 0)).toNat

/-- Flags of an edge taken now (R423, R428, R435). -/
def State.edgeFlags (s : State) (k : Nat) : Nat :=
  (s.rd (.hrt .SUPPLY_CAUTION) 0) + 2 * (s.domOn .bell && !s.on (.sel .OSTAT_LOCK) 0).toNat +
    s.srcFlags k + 16 * (s.mode == modeService).toNat

/-- The timestamp of R425 as an exact fraction of 2^-16 ns: t = K Tc − τ with τ = Tc (1 + (N − N1) / (N2 − N1)) + c(N), less
a tap's delay; IN_DLY is subtracted in the result. A pair with N2 = N1 leaves the denominator 0. -/
def State.wghStamp (s : State) (e : WEdge) : WStamp :=
  let k := e.src.val
  let n1 : Int := s.h .wN1 k
  let d : Int := (s.h .wN2 k : Int) - n1
  let tap := if 4 ≤ k then Config.wghTap k s.hearthTemp else 0
  let fix := (((e.k.toNat : Int) - 1) * 327680 - tap) * 65536 - Config.inl k s.hearthTemp e.code.toNat
  let num := fix * d - 327680 * 65536 * ((e.code.toNat : Int) - n1)
  { src := k, num := if d < 0 then -num else num, den := d.natAbs * 65536, time := coarse96 s.coarse,
    flags := s.edgeFlags k, n1 := s.h .wN1 k, n2 := s.h .wN2 k }

/-- The edge comes less than 250 ns after the source's last timestamp (R427). -/
def State.wghDead (s : State) (x : WStamp) : Bool :=
  match s.wlastOf x.src with
  | none => false
  | some y => decide (x.num * y.den - y.num * x.den < 16384000 * (x.den * y.den : Nat))

/-! ## Configurations and parameters -/

/-- A CONFIG that Table 13.3 and the ranges of R430 and R431 allow. -/
def WCfg.ok (c : WCfg) : Bool :=
  decide (c.type ≤ 3) && decide (c.a ≤ 7) && decide (c.b ≤ 7) && decide (c.psA ≤ 2) && decide (c.psB ≤ 2) &&
  decide (c.mode ≤ 1) && decide (1 ≤ c.gate) && decide (c.gate ≤ 10000) && decide (1 ≤ c.ivMax) &&
  decide (c.ivMax ≤ 10000000) && ((c.type != 0 && c.type != 3) || (c.psA == 0 && c.psB == 0)) &&
  (c.type != 0 || c.a != c.b) && (c.type != 3 || c.a == 4)

/-- The configuration of a slot. -/
def State.wcfg (s : State) (k : Nat) : WCfg :=
  { type := s.rd (.wgh .SLOT_TYPE) k, a := s.rd (.wgh .SLOT_SRC_A) k, b := s.rd (.wgh .SLOT_SRC_B) k,
    psA := s.rd (.wgh .SLOT_PS_A) k, psB := s.rd (.wgh .SLOT_PS_B) k, mode := s.rd (.wgh .SLOT_MODE) k,
    gate := s.rd (.wgh .SLOT_GATE) k, ivMax := s.rd (.wgh .SLOT_IV_MAX) k, countN := s.rd (.wgh .SLOT_COUNT_N) k }

/-- What a slot has in hand is dropped; its counts and flags stay. -/
def WSlot.drop (x : WSlot) : WSlot := { x with opened := none, edges := 0, lastA := none, waits := [] }

/-- A configuration takes effect. -/
def State.wcfgSet (s : State) (k : Nat) (c : WCfg) : State :=
  let s := (s.wr (.wgh .SLOT_TYPE) k c.type).wr (.wgh .SLOT_SRC_A) k c.a
  let s := ((s.wr (.wgh .SLOT_SRC_B) k c.b).wr (.wgh .SLOT_PS_A) k c.psA).wr (.wgh .SLOT_PS_B) k c.psB
  let s := ((s.wr (.wgh .SLOT_MODE) k c.mode).wr (.wgh .SLOT_GATE) k c.gate).wr (.wgh .SLOT_IV_MAX) k c.ivMax
  let x := s.wslot k
  (s.wr (.wgh .SLOT_COUNT_N) k c.countN).setWslot k { x.drop with next := none }

/-- The sealed parameters as they stand. -/
def State.wparams (s : State) : WParams :=
  { instr := s.rd (.wgh .INSTR_ID) 0, dly := (List.range 4).map (fun i => toS 64 (s.h .wDly i)),
    legal := s.rd (.wgh .LEGAL_SLOTS) 0, tb := s.rd (.wgh .TB_REQ) 0 }

/-- RUNSTATE of a slot. -/
def State.wrunState (s : State) (k : Nat) : Nat := s.rd (.wgh .SLOT_RUNSTATE) k

/-- A slot stops; a configuration that waits takes effect (R432). -/
def State.whalt (s : State) (k : Nat) : State :=
  let x := s.wslot k
  let s := (s.wr (.wgh .SLOT_RUNSTATE) k 0).setWslot k { x.drop with stop := false }
  match x.next with
  | some c => s.wcfgSet k c
  | none => s

/-! ## Records (R434-R438) -/

/-- The time base meets TB_REQ (Table 13.6). -/
def State.tbOk (s : State) (tb : Nat) : Bool :=
  let st := s.rd (.sel .STATUS_STATE) 0
  tb == 0 || (s.dacMode && (st == 5 || st == 2))

/-- Octets 0-127 of a record, RECNO still 0 (Table 13.5). -/
def State.wrecord (s : State) (slot type flags value count : Nat) (a b : Option WStamp) (ps : Nat × Nat) (x : WSlot) :
    List Byte :=
  let cal := fun (o : Option WStamp) => match o with | none => [0, 0, 0, 0] | some w => beBytes 2 w.n1 ++ beBytes 2 w.n2
  let c := s.wcfg slot
  let meas := decide (type < 4)
  beBytes 4 0x57485231 ++ beBytes 2 1 ++ beBytes 1 type ++ beBytes 1 slot ++
  beBytes 1 (if meas then c.a + 16 * ps.1 else 0) ++ beBytes 1 (if meas then c.b + 16 * ps.2 else 0) ++
  beBytes 2 flags ++ beBytes 8 0 ++ beBytes 4 (s.rd (.wgh .EVCNT) 0) ++ leBytes 8 (s.rd (.wgh .KEY_ID) 0) ++
  leBytes 32 (s.rd (.wgh .FW_ID) 0) ++
  beBytes 12 (match a with | some w => w.time | none => coarse96 s.coarse) ++ beBytes 8 value ++ beBytes 8 count ++
  beBytes 2 (s.h .unitGen 6) ++ beBytes 2 (min x.dead 65535) ++ beBytes 2 (min x.order 65535) ++
  beBytes 2 (min x.misc 65535) ++ cal a ++ cal b ++
  beBytes 4 (s.rd (.sel .HOLD_DAC_CODE) 0 + 2 ^ 20 * s.dacMode.toNat + 2 ^ 21 * s.rd (.sel .STATUS_STATE) 0) ++
  leBytes 16 x.par.instr

/-- The flags of a record from those of its edges, of its sources as the result is made (R423, R428) and of its slot
(R435). -/
def State.wflags (s : State) (slot extra : Nat) (a b : Option WStamp) (x : WSlot) : Nat :=
  let fl : Option WStamp → Nat := fun o => match o with | none => 0 | some w => w.flags ||| s.srcFlags w.src
  let e := fl a ||| fl b
  let a0 := match a with | none => 0 | some w => w.flags
  let cal := bit 3 e
  let ovr := bit 2 e
  let void := cal || ovr || bit 1 a0
  let service := bit 4 a0
  let legal := bit slot x.par.legal && !void && !cal && !service && s.tbOk x.par.tb
  (extra ||| x.flags) + (bit 0 e).toNat + 2 * void.toNat + 64 * legal.toNat + 128 * cal.toNat + 256 * ovr.toNat +
    1024 * service.toNat

/-- A result is made: it waits for signing, or finds the queue full and is lost (R437); the slot is at a result boundary
(R432, R440). -/
def State.wresult (s : State) (k extra : Nat) (value count : Nat) (a b : Option WStamp) : State :=
  let x := s.wslot k
  let c := s.wcfg k
  let s := if 32 ≤ s.wqueue.length then s.setWslot k { x with misc := x.misc + 1, flags := x.flags ||| 4096 }
    else
      let r := s.wrecord k c.type (s.wflags k extra a b x) value count a b (c.psA, c.psB) x
      let s := { s with wqueue := s.wqueue ++ [r] }
      (s.bump (.wgh .SLOT_MADE) k).setWslot k { x with dead := 0, order := 0, misc := 0, flags := 0 }
  let x := s.wslot k
  let fin := x.stop || (c.countN != 0 && decide (c.countN ≤ s.rd (.wgh .SLOT_MADE) k))
  let s := s.setWslot k { x with par := s.wparams }
  let s : State := match x.next with | some c => s.wcfgSet k c | none => s
  if fin ∧ s.wrunState k = 1 then s.whalt k else s

/-- RECNO goes on by 1, with a checkpoint every 65 536 records; the signed record enters its hatch slot (R434, R436,
R438). -/
def State.recordSign (s : State) : State :=
  match s.wqueue with
  | [] => s
  | r :: l =>
    let n := s.rd (.wgh .HEAD_RECNO) 0 + 1
    let body := r.take 12 ++ beBytes 8 n ++ r.drop 20
    let s := { s with wqueue := l }
    let s := s.wr (.wgh .RECORD) (n % 256) (leNat (body ++ Config.ecdsaSign body))
    let s := s.wr (.wgh .HEAD_RECNO) 0 n
    if s.h .wCkpt + 65536 ≤ n then s.setH .wCkpt 0 n else s

/-- RECORD_SIGN (R437). -/
def execRecordSign (s : State) : Host.Outcome State Fault Refusal := .next (s.inWgh State.recordSign)

/-! ## Measurements (R429-R432, Table 13.4) -/

/-- A stamp less the IN_DLY of its source under the slot's parameters (R422). -/
def WStamp.less (x : WStamp) (p : WParams) : Int :=
  if x.src < 4 then x.num - p.dly.getD x.src 0 * x.den else x.num

/-- The interval from one stamp to another as a fraction of 2^-16 ns. -/
def wspan (p : WParams) (a b : WStamp) : Int × Nat := (b.less p * a.den - a.less p * b.den, a.den * b.den)

/-- A value the manual states no result for: a pair with N2 = N1 divides by 0. -/
def State.wvalue (s : State) (open_ : Bool) (v : Int) : Nat × State :=
  if open_ then (s.freeVal 64, s.nextFree) else (ofS 64 v, s)

/-- An INTERVAL closes: from `a` to `b`, or bipolar from B to A with NEG (Table 13.4). -/
def State.wclose (s : State) (k : Nat) (a b : WStamp) (neg : Bool) : State :=
  let p := (s.wslot k).par
  let d := wspan p a b
  let small := decide (d.1.natAbs * 1000 < 81920 * d.2)
  let (v, s) := s.wvalue (d.2 == 0) (if small then 0 else divRound d.1 d.2)
  let s := s.setWslot k { (s.wslot k).drop with openAt := 0 }
  s.wresult k (if small then 4 else 32 * neg.toNat) v 0 (some (if neg then b else a)) (some (if neg then a else b))

/-- An edge opens an INTERVAL. -/
def State.wopen (s : State) (k : Nat) (sideB : Bool) (w : WStamp) : State :=
  s.setWslot k { s.wslot k with opened := some (sideB, w), openAt := s.age, edges := 0 }

/-- A needed edge in the dead time: dropped and counted (R427). -/
def State.wdead (s : State) (k : Nat) : State :=
  let x := s.wslot k
  s.setWslot k { x with dead := x.dead + 1, flags := x.flags ||| 16 }

/-- An edge on an INTERVAL slot; `w` is its stamp, `none` in the dead time. -/
def State.wInterval (s : State) (k : Nat) (sideB : Bool) (w : Option WStamp) : State :=
  let x := s.wslot k
  match x.opened with
  | none =>
    if sideB ∧ s.rd (.wgh .SLOT_MODE) k = 0 then s.setWslot k { x with order := x.order + 1, flags := x.flags ||| 8 }
    else match w with
      | none => s.wdead k
      | some w => s.wopen k sideB w
  | some (side, o) =>
    match w with
    | none => s.wdead k
    | some w =>
      if side = sideB then
        (s.setWslot k { x with misc := x.misc + 1, flags := x.flags ||| 2048 }).wopen k sideB w
      else if side then s.wclose k w o true else s.wclose k o w false

/-- Whether an INTERVAL or PPS_OFFSET slot needs an edge. -/
def State.wIntervalNeeds (s : State) (k : Nat) (sideB : Bool) : Bool :=
  !(sideB && s.rd (.wgh .SLOT_MODE) k == 0 && (s.wslot k).opened.isNone)

/-- Half a second in 2^-16 ns. -/
def halfSec : Nat := 500000000 * 65536

/-- A B edge of PPS_OFFSET takes the nearest of its A edges within (−0.5 s, +0.5 s], or counts in TIMEOUT (R431). -/
def State.wpair (s : State) (k : Nat) (x : WWait) (after : Option WStamp) : State :=
  let p := (s.wslot k).par
  let cand := (x.prev.toList ++ after.toList).map (fun a => (a, wspan p a x.b))
  let cand := cand.filter (fun c => decide (-((halfSec * c.2.2 : Nat) : Int) < c.2.1) && 
      decide (c.2.1 ≤ ((halfSec * c.2.2 : Nat) : Int)))
  let best := cand.foldl (fun m c => match m with
    | none => some c
    | some m =>
      if c.2.1.natAbs * m.2.2 < m.2.1.natAbs * c.2.2 ∨ (c.2.1.natAbs * m.2.2 = m.2.1.natAbs * c.2.2 ∧ 0 < c.2.1)
        then some c else some m) (none : Option (WStamp × (Int × Nat)))
  match best with
  | none =>
    let y := s.wslot k
    let s := s.setWslot k { y with misc := y.misc + 1, flags := y.flags ||| 512 }
    if y.stop ∧ y.waits = [] then s.whalt k else s
  | some (a, d) =>
    let (v, s) := s.wvalue (d.2 == 0) (divRound d.1 d.2)
    if d.1 < 0 then s.wresult k 0 v 0 (some x.b) (some a) else s.wresult k 0 v 0 (some a) (some x.b)

/-- An A edge settles the B edges that wait, oldest first, until the slot stops or takes a new configuration. -/
def State.wsettle (s : State) (k : Nat) (w : WStamp) (n : Nat) : State :=
  match n with
  | 0 => s
  | n + 1 =>
    let x := s.wslot k
    match x.waits with
    | [] => s
    | b :: l => ((s.setWslot k { x with waits := l }).wpair k b (some w)).wsettle k w n

/-- An edge on a PPS_OFFSET slot: A settles the B edges that wait, B waits for the next A. -/
def State.wPps (s : State) (k : Nat) (sideB : Bool) (w : Option WStamp) : State :=
  match w with
  | none => s.wdead k
  | some w =>
    let x := s.wslot k
    if sideB then s.setWslot k { x with waits := x.waits ++ [⟨w, x.lastA, s.age⟩] }
    else
      (s.setWslot k { x with lastA := some w }).wsettle k w x.waits.length

/-- Prescale factor of a code (R423). -/
def prescale (c : Nat) : Nat := if c = 1 then 4 else if c = 2 then 16 else 1

/-- At least GATE ms lie between two stamps (R430). -/
def gateOver (gate : Nat) (a b : WStamp) : Bool :=
  decide ((gate * 1000000 * 65536 * (a.den * b.den) : Nat) ≤ b.num * a.den - a.num * b.den)

/-- A gate closes: PERIOD or FREQUENCY (R430, Table 13.3). -/
def State.wgate (s : State) (k : Nat) (a b : WStamp) (edges : Nat) : State :=
  let c := s.wcfg k
  let n := edges * prescale c.psA
  let d := wspan (s.wslot k).par a b
  let bad := d.2 == 0 || n == 0 || decide (d.1 ≤ 0)
  let (v, s) := s.wvalue bad (if c.type = 1 then divRound d.1 (d.2 * n)
    else divRound ((n * d.2 * (1000000000 * 65536 * 65536) : Nat) : Int) d.1.toNat)
  let s := s.setWslot k { s.wslot k with opened := some (false, b), openAt := s.age, edges := 0 }
  s.wresult k 0 v n (some a) (some b)

/-- An edge on a PERIOD or FREQUENCY slot: `n` prescaled edges since the last command. One in the dead time is counted and
neither opens nor closes a gate. -/
def State.wGateEdge (s : State) (k n : Nat) (w : Option WStamp) : State :=
  let x := s.wslot k
  match x.opened, w with
  | none, none => s.wdead k
  | none, some w => s.wopen k false w
  | some _, none => s.setWslot k { x with edges := x.edges + n }
  | some (_, o), some w =>
    let s := s.setWslot k { x with edges := x.edges + n }
    if gateOver (s.rd (.wgh .SLOT_GATE) k) o w then s.wgate k o w (x.edges + n) else s

/-- A slot measures with a source. -/
def State.wuses (s : State) (k src : Nat) : Bool :=
  let c := s.wcfg k
  s.wrunState k != 0 && (c.a == src || ((c.type == 0 || c.type == 3) && c.b == src))

/-- A slot needs a timestamp of an edge (R423). -/
def State.wneeds (s : State) (k : Nat) (w : WStamp) : Bool :=
  let c := s.wcfg k
  s.wuses k w.src &&
    (if c.type = 0 then s.wIntervalNeeds k (c.a != w.src)
     else if c.type = 3 then true
     else match (s.wslot k).opened with
       | none => true
       | some (_, o) => gateOver c.gate o w)

/-- An edge reaches a slot. -/
def State.wslotEdge (s : State) (k n src : Nat) (w : Option WStamp) : State :=
  let c := s.wcfg k
  if ¬ s.wuses k src then s
  else if c.type = 0 then s.wInterval k (c.a != src) w
  else if c.type = 3 then
    (if c.b = 4 then
       let s := s.wPps k false w
       if s.wuses k src ∧ s.wcfg k = c then s.wPps k true w else s
     else s.wPps k (c.a != src) w)
  else s.wGateEdge k n w

/-- Edges in hand are marked: their source went over its rate while the result was open (R423). -/
def WStamp.mark (x : WStamp) : WStamp := { x with flags := x.flags ||| 4 }

/-- All edges a slot has in hand are marked. -/
def WSlot.mark (x : WSlot) : WSlot :=
  { x with opened := x.opened.map (fun o => (o.1, o.2.mark)), lastA := x.lastA.map WStamp.mark,
           waits := x.waits.map (fun w => { w with b := w.b.mark, prev := w.prev.map WStamp.mark }) }

/-- A source goes over its rate: OVR_RATE, also on the results in progress that use it (R423). -/
def State.wOver (s : State) (k : Nat) : State :=
  let s := (s.wr (.wgh .STATUS_OVR_RATE) 0 (setBit k (s.rd (.wgh .STATUS_OVR_RATE) 0))).setH .wOvrAt k s.age
  (List.range 4).foldl (fun s i => if s.wuses i k then s.setWslot i (s.wslot i).mark else s) s

/-- WEIGHHOUSE_EDGE (R423-R431). A stamp serves every slot that needs it; the pair made after the edge scales the next
(R426). -/
def State.wedge (s : State) (e : WEdge) : State :=
  let k := e.src.val
  let s := if e.fast then s.wOver k else s
  let w := s.wghStamp e
  let need := (List.range 4).any (fun i => s.wneeds i w)
  let dead := s.wghDead w
  let s := if need ∧ ¬ dead then s.setWlast k (some w) else s
  let s := (List.range 4).foldl (fun s i => s.wslotEdge i e.count.toNat k (if dead then none else some w)) s
  if need ∧ ¬ dead then s.wghPair k e.n1.toNat e.n2.toNat else s

/-- A source carries edges: a tap none while BELL is off (R421), the TOUT0 tap none while TOUT0 is disabled or squelched
(R422). -/
def State.srcLive (s : State) (k : Nat) : Bool :=
  decide (k < 4) || (s.domOn .bell && (k != 5 || (s.outEn 0 && !s.outSquelched 0)))

/-- WEIGHHOUSE_EDGE (R425). -/
def execWeighhouseEdge (e : WEdge) (s : State) : Host.Outcome State Fault Refusal :=
  .next (s.inWgh (fun s => if s.srcLive e.src then s.wedge e else s))

/-- OVR_RATE_CLEAR (R423): after 1 ms within the limit. -/
def execOvrRateClear (src : Fin 8) (s : State) : Host.Outcome State Fault Refusal :=
  .next (s.inWgh (fun s => if bit src.val (s.rd (.wgh .STATUS_OVR_RATE) 0) then
    (s.passAge (s.h .wOvrAt src + msTicks 1)).wr (.wgh .STATUS_OVR_RATE) 0 (clrBit src.val (s.rd (.wgh .STATUS_OVR_RATE) 0))
  else s))

/-- An INTERVAL open longer than IV_MAX is discarded; a B edge of PPS_OFFSET that has waited 0.5 s takes what lies before it
(R431). -/
def State.wtimeout (s : State) (k : Nat) : State :=
  let x := s.wslot k
  let c := s.wcfg k
  if c.type = 0 then
    match x.opened with
    | none => s
    | some _ =>
      let s := s.passAge (x.openAt + usTicks c.ivMax + 1)
      let s := s.setWslot k { x.drop with misc := x.misc + 1, flags := x.flags ||| 512 }
      if x.stop then s.whalt k else s
  else if c.type = 3 then
    match x.waits with
    | [] => s
    | b :: l =>
      let s := s.passAge (b.at_ + msTicks 500)
      (s.setWslot k { x with waits := l }).wpair k b none
  else s

/-- WGH_INTERVAL_TIMEOUT (R431). -/
def execWghIntervalTimeout (slot : Fin 4) (s : State) : Host.Outcome State Fault Refusal :=
  .next (s.inWgh (fun s => s.wtimeout slot))

/-! ## Sealed parameters, event counter, attempts (R439-R444) -/

/-- An event is counted and logged: kind 1 image, 2 parameter, 3 key (R444). Octets: EVCNT, kind, the ID or SEC_VER, FW_ID,
coarse time. A full log keeps its entries. -/
def State.wghEvent (s : State) (kind id : Nat) : State :=
  let n := s.rd (.wgh .EVCNT) 0
  let s := s.count (.wgh .EVCNT) 0
  if 1024 ≤ n then s
  else s.wr (.wgh .LOG_ENTRY) n (leNat (beBytes 4 (n + 1) ++ beBytes 1 kind ++ [0, 0, 0] ++ beBytes 4 id ++
    leBytes 8 (s.rd (.wgh .FW_ID) 0) ++ beBytes 12 (coarse96 s.coarse)))

/-- EVCNT or the event log is full (R440, R443): the log holds 1024 entries, one for each count. -/
def State.wghFull (s : State) : Bool := decide (1024 ≤ s.rd (.wgh .EVCNT) 0)

/-- A locked setting was to be changed in SEALED (R441): `what` is the register address or parameter ID. -/
def State.sealAttempt (s : State) (what : Nat) (r : Req) : State :=
  ((s.count (.wgh .ATTEMPT) 0).ledger 0x0004 true locWgh (what + 2 ^ 32 * reqIdx r)).raise .WGH_SEAL_ATTEMPT locWgh
    (what + 2 ^ 32 * reqIdx r)

/-- A sealed parameter's value is in its range (Table 13.6). -/
def paramOk (id v : Nat) : Bool :=
  match id with
  | 0 => true
  | 1 | 2 | 3 | 4 => decide ((toS 64 v).natAbs ≤ 1000000 * 65536)
  | 5 | 6 | 7 | 8 => decide (v < 8192) && decide (v % 4096 ≤ 1200)
  | 9 => decide (v < 16)
  | 10 => decide (v < 2)
  | _ => false

/-- A sealed parameter takes a value; slots use it from their next result boundary (R440). IN_DLY is kept whole, its mirror
holds the low 32 bits. -/
def State.paramSet (s : State) (id v : Nat) : State :=
  match id with
  | 0 => s.wr (.wgh .INSTR_ID) 0 (leNat (beBytes 16 v))
  | 1 | 2 | 3 | 4 => (s.setH .wDly (id - 1) (trunc 64 v)).wr (.wgh .IN_DLY) (id - 1) v
  | 5 | 6 | 7 | 8 => s.wr (.wgh .IN_THR) (id - 5) v
  | 9 => s.wr (.wgh .LEGAL_SLOTS) 0 v
  | _ => s.wr (.wgh .TB_REQ) 0 v

/-- SET_PARAM: the response code and what it does (R440, R441). -/
def State.setParam (s : State) (id v : Nat) : Nat × State :=
  if s.lc = 3 then (3, s.sealAttempt id .reeve)
  else if s.mode ≠ modeService then (4, s)
  else if ¬ paramOk id v then (2, s)
  else if s.wghFull then (6, s)
  else (0, ((s.paramSet id v).wghEvent 2 id).raise .WGH_PARAM_CHANGED locWgh)

/-! ## Commands (R445) -/

/-- A response. -/
def State.wghRsp (s : State) (seq code detail : Nat) (data : Nat := 0) : State :=
  let s := ((s.wr (.wgh .RSP_CODE) 0 code).wr (.wgh .RSP_DETAIL) 0 detail).wr (.wgh .RSP_SEQ) 0 seq
  (s.wr (.wgh .RSP_DATA) 0 data).wr (.wgh .STATUS_BUSY) 0 (code == 7).toNat

/-- CONFIG (R432): one argument in each word in the order of Table 13.7; the prescale codes share a word, A's in bits 1:0. -/
def State.wghConfig (s : State) (k : Nat) (a : Nat → Nat) : Nat × State :=
  let c : WCfg := { type := a 1, a := a 2, b := a 3, psA := bits 0 2 (a 4), psB := bits 2 2 (a 4), mode := a 5,
                    gate := a 6, ivMax := a 7, countN := a 8 }
  if ¬ c.ok then (2, s)
  else if s.wrunState k = 1 then (0, s.setWslot k { s.wslot k with next := some c })
  else (0, s.wcfgSet k c)

/-- RUN (R432). -/
def State.wghRun (s : State) (k : Nat) : Nat × State :=
  if ¬ (s.wcfg k).ok then (2, s)
  else if s.wrunState k = 1 then (0, s.setWslot k { s.wslot k with stop := false })
  else
    let s := (s.wr (.wgh .SLOT_RUNSTATE) k 1).wr (.wgh .SLOT_MADE) k 0
    let x := s.wslot k
    (0, s.setWslot k { x.drop with stop := false, par := s.wparams })

/-- STOP: after the result in progress. -/
def State.wghStop (s : State) (k : Nat) : Nat × State :=
  let x := s.wslot k
  if s.wrunState k ≠ 1 then (0, s)
  else if x.opened.isSome ∨ x.waits ≠ [] then (0, s.setWslot k { x with stop := true })
  else (0, s.whalt k)

/-- The staged image. -/
def State.wghStaged (s : State) (len : Nat) : List Byte := s.bytes .wghStage 0 len

/-- IMAGE_INSTALL: verified under Table 9.12 against slot 3 and the Weighhouse's own anti-rollback value (R443). -/
def State.wghInstall (s : State) (seq len : Nat) : State :=
  let l := s.wghStaged len
  let code := if 0x40000 < len then 1 else if imgCLASS l ≠ 3 ∧ ¬ imgCode1 l then 2 else s.imgCode l
  if s.mode ≠ modeService then s.wghRsp seq 4 0
  else if s.wghFull then s.wghRsp seq 6 0
  else if code ≠ 0 then (s.imgRefused code l .rom).wghRsp seq 5 code
  else (((s.setH .wRun 0 5).setH .wRunLen 0 len).setH .wRunSeq 0 seq).wghRsp seq 7 0

/-- VERIFY is accepted in SERVICE while every slot is stopped (R446). -/
def State.wghVerify (s : State) (seq : Nat) : State :=
  if s.mode ≠ modeService then s.wghRsp seq 4 0
  else if (List.range 4).any (fun k => s.wrunState k != 0) then s.wghRsp seq 1 0
  else ((s.setH .wRun 0 6).setH .wRunSeq 0 seq).wghRsp seq 7 0

/-- READ_ID: EVCNT, KEY_ID and the first 16 octets of FW_ID, which is what the seven words hold. -/
def State.wghId (s : State) (seq : Nat) : State :=
  s.wghRsp seq 0 0 (s.rd (.wgh .EVCNT) 0 + 2 ^ 32 * s.rd (.wgh .KEY_ID) 0 + 2 ^ 96 * trunc 128 (s.rd (.wgh .FW_ID) 0))

/-- A command is posted (R445): `w` are words 0-15. Slot 3 is BUSY while the survey holds it (R433). -/
def State.wghCommand (s : State) (w : List Nat) : State :=
  let a := fun (i : Nat) => w.getD i 0
  let op := bits 0 8 (a 0)
  let k := bits 8 2 (a 0)
  let seq := bits 16 16 (a 0)
  let slot := fun (f : Nat × State) => f.2.wghRsp seq f.1 0
  if ¬ s.wghOn ∨ s.on (.wgh .STATUS_BUSY) 0 then s.count (.wgh .STATUS_CMD_LOST) 0
  else if 1 ≤ op ∧ op ≤ 3 ∧ s.wrunState k = 2 then s.wghRsp seq 1 0
  else match op with
    | 1 => slot (s.wghConfig k a)
    | 2 => slot (s.wghRun k)
    | 3 => slot (s.wghStop k)
    | 4 => slot (s.setParam (a 1) (a 2 + 2 ^ 32 * a 3 + 2 ^ 64 * a 4 + 2 ^ 96 * a 5))
    | 5 => s.wghInstall seq (a 1)
    | 6 => s.wghVerify seq
    | 7 => s.wghId seq
    | _ => s.wghRsp seq 2 0

/-- A command as the Reeve posts it: words 1-15, then word 0. -/
def State.wghPost (s : State) (op slot seq : Nat) (args : List (BitVec 32)) : State :=
  s.writeTo .reeve .WGH 0 (fun s =>
    s.wghCommand ((op + 256 * slot + 65536 * seq) :: (args.take 15).map (fun w => w.toNat)))

/-- WGH_CONFIG (R432). -/
def execWghConfig (slot : Fin 4) (seq : BitVec 16) (args : List (BitVec 32)) (s : State) : Host.Outcome State Fault Refusal :=
  .next (s.wghPost 1 slot seq.toNat args)
/-- WGH_RUN (R432). -/
def execWghRun (slot : Fin 4) (seq : BitVec 16) (s : State) : Host.Outcome State Fault Refusal :=
  .next (s.wghPost 2 slot seq.toNat [])
/-- WGH_STOP (R432). -/
def execWghStop (slot : Fin 4) (seq : BitVec 16) (s : State) : Host.Outcome State Fault Refusal :=
  .next (s.wghPost 3 slot seq.toNat [])
/-- WGH_SET_PARAM (R440): the ID, then the value, lowest word first. -/
def execWghSetParam (seq : BitVec 16) (args : List (BitVec 32)) (s : State) : Host.Outcome State Fault Refusal :=
  .next (s.wghPost 4 0 seq.toNat args)
/-- WGH_IMAGE_INSTALL (R443). -/
def execWghImageInstall (seq : BitVec 16) (len : BitVec 32) (s : State) : Host.Outcome State Fault Refusal :=
  .next (s.wghPost 5 0 seq.toNat [len])
/-- WGH_VERIFY (R446). -/
def execWghVerify (seq : BitVec 16) (args : List (BitVec 32)) (s : State) : Host.Outcome State Fault Refusal :=
  .next (s.wghPost 6 0 seq.toNat args)
/-- WGH_READ_ID (R445). -/
def execWghReadId (seq : BitVec 16) (s : State) : Host.Outcome State Fault Refusal :=
  .next (s.wghPost 7 0 seq.toNat [])

/-- The Weighhouse core restarts from its installed image (R420, R443): results not yet signed are counted in their slots,
open ones are dropped; configurations and counts stay. -/
def State.wghRestart (s : State) : State :=
  let q := s.wqueue
  let s := { s with wqueue := [] }
  let s := { s with treg := s.treg.filter (fun e => e.1.1 != 321) }
  let s := q.foldl (fun s r =>
    let k := (r.getD 7 0).toNat
    let x := s.wslot k
    s.setWslot k { x with misc := x.misc + 1, flags := x.flags ||| 4096 }) s
  let s := (List.range 4).foldl (fun s k => s.setWslot k (s.wslot k).drop) s
  let hd := s.bytes .wghNvm 0 128
  ((s.setTr 321 rPC (imgENTRY hd)).setTr 321 rSTATE tRUNNING).wr (.wgh .STATUS_STATE) 0 2

/-- The image is installed (R443): NVM, the anti-rollback value, EVCNT and the log, FW_ID, then the restart. -/
def State.wghInstalled (s : State) : State :=
  let l := s.wghStaged (s.h .wRunLen)
  let s := s.setBytes .wghNvm 0 l
  let s := (imgSegs l).foldl (fun s g => s.setBytes .wghMem g.dest (g.contents l)) s
  let s := s.setH .wArb 0 (max (s.h .wArb) (imgSEC_VER l))
  let s := s.wr (.wgh .FW_ID) 0 (leNat (beBytes 32 (Config.sha256 l)))
  let s := s.wghEvent 1 (imgSEC_VER l)
  let seq := s.h .wRunSeq
  ((s.setH .wRun 0 0).wghRestart.wghRsp seq 0 0).raise .WGH_IMAGE_UPDATED locWgh

/-- WGH_IMAGE_INSTALLED (R443). -/
def execWghImageInstalled (s : State) : Host.Outcome State Fault Refusal :=
  .next (s.inWgh (fun s => s.when (s.h .wRun == 5) State.wghInstalled))

/-- The verification ends with a record of TYPE 4 whose VALUE tells the failed checks (R446). -/
def State.wghVerified (s : State) (fails : Nat) : State :=
  let seq := s.h .wRunSeq
  let x : WSlot := { par := s.wparams }
  let r := s.wrecord 0 4 (1024 + bits 0 2 (s.edgeFlags 0)) fails 0 none none (0, 0) x
  let y := s.wslot 0
  let s := if 32 ≤ s.wqueue.length then s.setWslot 0 { y with misc := y.misc + 1, flags := y.flags ||| 4096 }
    else { s with wqueue := s.wqueue ++ [r] }
  ((s.setH .wRun 0 0).wghRsp seq 0 0).raise .WGH_VERIFY_DONE locWgh

/-- WGH_VERIFY_DONE (R446): `fails` is what the five checks found. -/
def execWghVerifyDone (fails : Fin 32) (s : State) : Host.Outcome State Fault Refusal :=
  .next (s.inWgh (fun s => s.when (s.h .wRun == 6) (fun s => s.wghVerified fails)))

/-- A host's write to a WGH offset is ignored and counted (R419). -/
def State.wghHostWrite (s : State) (r : Req) : State := if isHost r then s.count (.wgh .STATUS_HOST_WR) 0 else s

/-- WGH_HOST_WRITE (R419). -/
def execWghHostWrite (r : Req) (s : State) : Host.Outcome State Fault Refusal :=
  .next (s.writeTo r .WGH 0 (fun s => s.wghHostWrite r))

end Sys2Proof.Machine
end

