-- ==== Sys2Proof/Machine/Mains.lean ====
section
/-! DEFINITION. Losing and starting power domains: what a loss takes away (Table 15.5), the starts of the main domains
(Table 15.4, R507), DORMANT entry (R494), and what each domain does when it becomes ON (Table 15.2). -/

namespace Sys2Proof.Machine

/-- The main domains: REEVE to CELLAR. -/
def mainDoms : List Dom := [.reeve, .bell, .core, .trunkA, .trunkB, .spur, .engine, .cellar]

/-- The memories of the domains in `ds` are wiped (Tables 8.5, 15.5). -/
def State.wipeDoms (s : State) (ds : List Dom) : State :=
  let w (s : State) (d : Dom) (r : Region) : State := if d ∈ ds then s.wipe r 0 (2 ^ 64) else s
  let s := (w s .core .granary)
  let s := w s .cellar .cellar
  let s := w s .engine .pantry
  let s := w (w s .reeve .sram) .reeve .reeStage
  w (w s .weigh .wghMem) .weigh .wghStage

/-- Bits 119:112 of a 128-bit Crier register: the sources that latch in the Hearth (R515). -/
def hearthBits (v : Nat) : Nat := bits 112 8 v

/-- The domains in `ds` lose their fields with the survival codes in `lost`, and their memories; CONTEXT_LOST is set for
each (R504). LATCH, EN and MASK of sources 112-119 lie in the Hearth (R515). -/
def State.loseDoms (s : State) (ds : List Dom) (lost : List Surv) : State :=
  let old := s
  let s := (s.lose ds lost).wipeDoms ds
  let s := if Dom.reeve ∈ ds ∧ Dom.hearth ∉ ds then
      [Fld.cri .LATCH, Fld.cri .EN, Fld.cri .MASK].foldl (fun s f =>
        s.wr f 0 (putBits 112 8 (hearthBits (old.rd f 0)) (s.rd f 0))) s
    else s
  let s := s.wr (.hrt .CTX_CONTEXT_LOST) 0 (s.rd (.hrt .CTX_CONTEXT_LOST) 0 ||| maskOf (ds.map Dom.idx))
  let s := s.setH .ctxRaise 0 1
  ds.foldl (fun s d => s.setDom d 0) s

/-- GLB.CONTEXT_LOST is raised, now or when the Crier runs again (R504). -/
def State.ctxReport (s : State) : State :=
  if s.h .ctxRaise = 1 ∧ s.domOn .reeve then
    (s.setH .ctxRaise 0 0).raise .GLB_CONTEXT_LOST locHearth (s.rd (.hrt .CTX_CONTEXT_LOST) 0)
  else s

/-- The rails that feed a domain, by rail code (Table 15.1). -/
def domRails : Dom → List Nat
  | .hearth => [0] | .weigh => [0] | .reeve => [1, 2, 5] | .bell => [1, 2, 4, 5] | .core => [1, 2]
  | .trunkA => [1, 3, 4] | .trunkB => [1, 3, 4] | .spur => [1, 3, 4] | .engine => [1, 2] | .cellar => [1, 6, 7]

/-- The supplies of a domain are good (R484). -/
def State.supplyGood (s : State) (d : Dom) : Bool := (domRails d).all (fun r => bit r (s.rd (.hrt .SUPPLY_GOOD) 0))

/-- Every main rail is good. -/
def State.mainsGood (s : State) : Bool := bits 1 7 (s.rd (.hrt .SUPPLY_GOOD) 0) == 127

/-- Nothing holds the main domains off: RESET_N, the crystal, MAIN_EN (R480, R496, R500). -/
def State.mainsFree (s : State) : Bool := s.h .mainHold == 0 && s.h .mainEn == 0

/-- MAIN_EN goes low for a reason: the board switches the main rails off (R480). -/
def State.mainEnLow (s : State) (why : Nat) : State :=
  (s.setH .mainEn 0 why).wr (.hrt .SUPPLY_GOOD) 0 (s.rd (.hrt .SUPPLY_GOOD) 0 % 2)

/-- The main domains are switched off with the loss of the given codes. -/
def State.mainsOff (s : State) (lost : List Surv) : State := s.loseDoms mainDoms lost

/-- The main domains start with a reset kind of Table 15.4: HRT_PWR_REQ bits 9:3 read 0 and bit 2 reads 1, LAST is
recorded, and the VCORE code is the Almanac's
(R485), and the Hearth releases REEVE (R499, R507). W-coded fields survive a warm reset only (Table 15.5). -/
def State.startMains (s : State) (kind : Nat) : State :=
  let s := s.mainsOff (if kind = 4 then [.N, .F] else [.N, .F, .W])
  let s := s.wr (.hrt .PWR_REQ) 0 (s.rd (.hrt .PWR_REQ) 0 % 2 + 2)
  let s := (s.wr (.hrt .RESET_LAST) 0 kind).setH .startKind 0 0
  let s := s.wr (.hrt .SUPPLY_VID) 0 (min Config.almVid 20)
  (s.setDom .reeve 1).setH .bootPend 0 1

/-- A start of a kind: at once with the rails good and nothing held, else when they are. -/
def State.startWhen (s : State) (kind : Nat) : State :=
  if s.mainsGood ∧ s.mainsFree then s.startMains kind
  else (s.mainsOff [.N, .F, .W]).setH .startKind 0 (kind + 1)

/-- The Hearth takes the coarse timescale from the PPSOUT0 tap (R94, R474, R494). -/
def State.coarseTake (s : State) : State :=
  if s.domOn .bell then { s.wr (.hrt .COARSE_ST_VALID) 0 1 with coarse := 16 * s.now } else s

/-- While BELL is off in DAC mode the DAC goes on carrying the held correction (R172). -/
def State.dacDormant (s : State) : State :=
  if s.domOn .bell ∨ ¬ s.dacMode ∨ s.dacK = 0 ∨ s.h .holdKind = 0 ∨ s.h .dacPinned = 1 then s
  else s.wr (.sel .HOLD_DAC_CODE) 0 (dacCode s.dacK s.holdTotal)

/-- The main domains go off for DORMANT (R494): the held correction goes on through the DAC (R172), the Hearth has the coarse timescale, the three bits of HRT_PWR_REQ that the
commit clears read 0, and MAIN_EN goes low where RAILS_OFF = 1. -/
def State.dormant (s : State) : State :=
  let s := if s.rd (.bell .STATUS_NCO_SRC) 0 ≠ ncoHOLD ∧ s.histValid then s.holdSelect else s
  let s := ((s.coarseTake).mainsOff [.N, .F, .W]).dacDormant
  let s := s.wr (.hrt .PWR_REQ) 0 (s.rd (.hrt .PWR_REQ) 0 % 2)
  if s.on (.hrt .PWR_REQ_RAILS_OFF) 0 then s.mainEnLow 1 else s

/-! ## A domain becomes ON (Table 15.2) -/

/-- The Weighhouse boots its installed image. -/
def State.weighUp (s : State) : State :=
  let s := (List.range 8).foldl (fun s k =>
    let s := (s.setH .wN1 k (s.freeVal 12)).nextFree
    (s.setH .wN2 k (s.freeVal 12)).nextFree) s
  s.wghRestart

/-- REEVE is released: the start window opens, the Hearth link trains, REE_NONCE takes a new value (R458, R491); the records
the Hearth holds are written (R515), and what a reset left to report is raised (R504, Table 3.6). -/
def State.reeveUp (s : State) : State :=
  let s := (s.setH .startWindow 0 1).setH .hlink 0 1
  let s := (s.wr (.ree .NONCE) 0 (s.freeVal 128)).nextFree
  let s : State := s.held.foldl (fun s r => s.recPut r) { s with held := [] }
  let s := s.ctxReport
  if s.h .splitRaise = 1 then (s.setH .splitRaise 0 0).raise .GLB_COMMIT_SPLIT else s

/-- BELL starts: the timescale from the Hearth's coarse copy, the output PLL locked, the selector and the watches
(R32, R43, R156), the Almanac's nominal correction published (R173); the held word or the nominal one (Table 5.8). -/
def State.bellUp (s : State) : State :=
  let s := (s.wrS (.sel .HOLD_NOM) 0 Config.almNom).wrS (.sel .HOLD_NOM_T) 0 Config.almTNom
  let s := (s.loadTime).wr (.sel .OSTAT_LOCK) 0 1
  let s := s.wr (.bell .STATUS_GATE_CAUTION) 0 (s.rd (.hrt .SUPPLY_CAUTION) 0)
  let s := s.setNco (s.ncoFor s.mode)
  let s := s.selStart
  (s.wordRefresh.outsSync).selStatus

/-- CORE starts: the Granary is wiped (Table 8.5). -/
def State.coreStart (s : State) : State := s.granWipeStart

/-- ENGINE starts with its Pantries wiped; the first time after a start the Reeve places the firmware servo (R87). -/
def State.engineUp (s : State) : State :=
  if s.h .servoPlaced = 1 then s
  else
    let s := s.setH .servoPlaced 0 1
    let e := s.rd (.bell .CTL_SERVO_ENG) 0
    let good (k : Nat) : Bool := s.variant.hasEngine k && !s.on (.eng .CTL_UNUSABLE) k
    if good e then s
    else match ((List.range 15).map (fun k => (e + 1 + k) % 16)).find? good with
      | some k =>
        let s := (s.wr (.bell .CTL_SERVO_ENG) 0 k).raise .BELL_SERVO_MOVED (locEngine k)
        (s.wr (.bell .STATUS_SRC_APPLIED) 0 1).setH .servoAwait 0 1
      | none => s.servoFallback

/-- CELLAR starts: the PHYs train and every stack is wiped (Table 8.5). -/
def State.cellarUp (s : State) : State := (List.range 4).foldl (fun s k => s.stackWipeStart k) s

/-- What a domain does when it becomes ON. -/
def State.domUp (s : State) (d : Dom) : State :=
  match d with
  | .weigh => s.weighUp
  | .reeve => s.reeveUp
  | .bell => s.bellUp
  | .core => s.coreStart
  | .engine => s.engineUp
  | .cellar => s.cellarUp
  | _ => s

end Sys2Proof.Machine
end

