-- ==== Sys2Proof/Machine/FnReset.lean ====
section
/-! DEFINITION. Function resets (R506, Table 15.6). A function is numbered: port p at p, quad q at 72 + q, pipeline pair s at
88 + s, engine e at 96 + e, Cellar stack k at 112 + k, the Weighhouse at 116. -/

namespace Sys2Proof.Machine

/-- The function a location word names (Table 15.6): a port by its first lane. -/
def State.fnOf (s : State) (loc : Nat) : Option Nat :=
  let idx := bits 12 9 loc
  let die := bits 26 3 loc
  let key := (bits 29 3 loc, bits 21 5 loc)
  if key = (2, 0x06) ∧ die = 0 ∧ idx < 72 ∧ s.rd (.lane .CTL_MODE) idx ≠ 8 then some idx
  else if key = (3, 0x04) ∧ die = 0 ∧ idx < 16 then some (72 + idx)
  else if key = (4, 0x03) ∧ die = 0 ∧ idx < 8 then some (88 + idx)
  else if key = (5, 0x09) ∧ die = 0 ∧ idx < 16 then some (96 + idx)
  else if key = (6, 0x01) ∧ 2 ≤ die ∧ die < 6 then some (110 + die)
  else if key = (6, 0x0F) ∧ die = 1 then some 116
  else none

/-- Location word of function k. -/
def fnLoc (k : Nat) : Nat :=
  if k < 72 then locLane k else if k < 88 then locQuad (k - 72) else if k < 96 then locSlice (k - 88)
  else if k < 112 then locEngine (k - 96) else if k < 116 then locStack (k - 112) else locWgh

/-- The function is present, usable and its domain on (R506). -/
def State.fnOk (s : State) (k : Nat) : Bool :=
  if k < 72 then s.variant.hasPort k && s.domOn (laneDom k)
  else if k < 88 then s.variant.hasQuad (k - 72) && s.domOn (quadDom (k - 72)) && !bit (k - 72) (s.h .quadBad)
  else if k < 96 then s.domOn .core && !bit (k - 88) (s.h .pairBad)
  else if k < 112 then s.variant.hasEngine (k - 96) && s.domOn .engine && !s.on (.eng .CTL_UNUSABLE) (k - 96)
  else if k < 116 then s.variant.hasStack (k - 112) && s.domOn .cellar && s.rd (.cel .STACK_STATE) (k - 112) != 4
  else s.domOn .weigh

/-- Microseconds a function reset takes (Table 15.6). -/
def fnTime (k : Nat) : Nat :=
  if k < 72 then 100 else if k < 88 then 400 else if k < 96 then 10 else if k < 112 then 50 else if k < 116 then 27000 else 2000

/-- Fields coded F and N of the units a predicate picks return to their reset values; shadows stay (R16, R99). -/
def State.resetFN (s : State) (p : Grp → Nat → Bool) : State :=
  { s with
    regs := s.regs.filter (fun x => decide (x.1.1.desc.surv ≠ .F ∧ x.1.1.desc.surv ≠ .N) || x.1.1.desc.nvm ||
      x.1.1.desc.shadow || !p x.1.1.desc.grp x.1.2)
    applied := s.applied.filter (fun x => !p x.1.1.desc.grp x.1.2) }

/-- The lanes, PCS, FEC and MAC of port p return to their reset values; a link that was up goes down by Table 7.4. -/
def State.portFreset (s : State) (p : Nat) : State :=
  let lanes := s.portLanes p
  let s := s.linkDown p true
  let st := s.rd (.port .STATUS_PSTATE) p
  let s := s.resetFN (fun g i => (g == .LANE && lanes.contains i) || ([Grp.PORT, .PORTSTAT].contains g && i == p))
  let s := (s.wr (.port .STATUS_PSTATE) p st).setH .rtTracked p 0
  let s := lanes.foldl (fun s n => (s.setH .slipBits n 0).setH .laneOwner n 0) (s.setRts p [])
  lanes.foldl (fun s n => s.txSync n) s

/-- The PLL of quad q and its four lanes are reset; every port on them goes down. -/
def State.quadFreset (s : State) (q : Nat) : State :=
  let s := (List.range 4).foldl (fun s k => s.portFreset (4 * q + k)) s
  s.resetFN (fun g i => g == .QUAD && i == q)

/-- Frames in the pair are dropped; its program banks return to all-zero words. -/
def State.pairFreset (s : State) (pr : Nat) : State :=
  let s := (slicePorts pr).foldl (fun s p => (s.truncate p).failRx p 3) s
  let s := { s with tracks := s.tracks.filter (fun t => t.1 / 24 != pr) }
  s.resetFN (fun g i => (g == .PAIR && i == pr) || ([Grp.CELLAIN, .CELLAEG, .CELLBIN, .CELLBEG].contains g && g.outer i / 12 == pr))

/-- The pools take the loss of stacks: spilled bins are lost, spilling goes off (R275, R488). -/
def State.stacksLost (s : State) (gone : Nat → Bool) : State :=
  let s := s.binsLose (fun b => match b.home with | some h => s.variant.nStacks != 0 && gone (hIdx h % s.variant.nStacks) | none => false)
  if s.on (.pool .CTL_SPILL_EN) 0 then (s.wr (.pool .CTL_SPILL_EN) 0 0).raise .POOL_SPILL_OFF locHearth else s

/-- Stack k is retrained and wiped. -/
def State.stackFreset (s : State) (k : Nat) : State := (s.stacksLost (fun j => j == k)).stackWipeStart k

/-- A life-cycle transition is in hand: warm and function resets are discarded (R502). -/
def State.inTransition (s : State) : Bool := s.h .lcPend != 0 || s.on (.ree .LC_ARMED) 0

/-- The Weighhouse core is reset: results not yet signed and those in progress go, fields coded N return to their reset
values (R420, R503). -/
def State.wghFreset (s : State) : State :=
  let s := (s.wghRestart.resetFN (fun g _ => g.info.blk == .wgh)).setH .wRun 0 0
  s.wr (.wgh .STATUS_STATE) 0 1

/-- Function k is reset; a reset that still runs discards the request (R506), and so does a life-cycle transition (R502). -/
def State.fnReset (s : State) (k : Nat) : State :=
  if s.h .frEnd k ≠ 0 ∨ s.inTransition then s
  else
    let s := s.setH .frEnd k (1 + s.age + usTicks (fnTime k))
    if k < 72 then s.portFreset k
    else if k < 88 then s.quadFreset (k - 72)
    else if k < 96 then s.pairFreset (k - 88)
    else if k < 112 then s.engFreset (k - 96)
    else if k < 116 then s.stackFreset (k - 112)
    else s.wghFreset

/-- The lanes of port p come up again in the modes they hold. -/
def State.portRestart (s : State) (p : Nat) : State :=
  let mates := (List.range 64).filter (fun n => s.rd (.lane .CTL_MODE) n == 8 && s.h .laneOwner n == p + 1)
  (p :: mates).foldl (fun s n => s.laneApply n) s

/-- Function k restarts. -/
def State.fnRestart (s : State) (k : Nat) : State :=
  if k < 72 then s.portRestart k
  else if k < 88 then (List.range 4).foldl (fun s j => s.laneApply (4 * (k - 72) + j)) s
  else if k < 96 then s.chkSync (k - 88)
  else if k < 112 then (if s.on (.eng .CTL_WIPING) (k - 96) then (s.pantryWipe (k - 96)).wr (.eng .CTL_WIPING) (k - 96) 0 else s)
  else if k < 116 then (if s.rd (.cel .STACK_STATE) (k - 112) = 2 then s.stackWiped (k - 112) else s)
  else s.wghRestart

/-- A location word is written to GLB_FRESET (R506). -/
def State.fresetWrite (s : State) (loc : Nat) : State :=
  match s.fnOf loc with
  | some k => if s.fnOk k then s.fnReset k else s.wr (.glb .CLK_EN_REFUSED) 0 1
  | none => s.wr (.glb .CLK_EN_REFUSED) 0 1

/-- GLB_FRESET (R506). -/
def execGlbFreset (r : Req) (loc : BitVec 32) (s : State) : Host.Outcome State Fault Refusal :=
  .next (s.writeTo r .GLB 0 (fun s => s.fresetWrite loc.toNat))

end Sys2Proof.Machine
end

