-- ==== Sys2Proof/Machine/Recovery.lean ====
section
/-! DEFINITION. Warm resets (R501), the banks of the boot flash (R459, R463, R464) and the recovery ladder (R479, R480). -/

namespace Sys2Proof.Machine

/-! ## Warm reset -/

/-- A warm reset is to act at age `t`. -/
def State.warmAtSet (s : State) (t : Nat) : State :=
  if s.h .warmAt ≠ 0 ∨ s.inTransition then s else s.setH .warmAt 0 (t + 1)

/-- What a warm reset does to the commit in hand (Table 3.6): ARMED is cancelled with a Ledger entry, APPLYING becomes
SPLIT, reported after the reset. -/
def State.commitCut (s : State) : State :=
  if s.cstate = 1 then
    let gen := s.rd (.glb .DEV_GEN) 0
    let s := if s.h .commitKind = 0 then
        s.wr (.glb .COMMIT_PEND) 0 (s.rd (.glb .COMMIT_PEND) 0 ||| s.rd (.glb .COMMIT_PART) 0) else s
    let s := (s.wr (.glb .COMMIT_PART) 0 (s.h .asidePart)).wr (.glb .COMMIT_VEC) 0 (s.h .asideVec)
    let s := (s.wr (.glb .COMMIT_LATE) 0 (s.h .asideLate)).wr (.glb .COMMIT_SPLIT) 0 (s.h .asideSplit)
    let s := (s.wr (.glb .DEV_GEN) 0 (gen + 65535)).wr (.glb .COMMIT_STATE) 0 0
    s.ledger 0x0001 false locReeve gen .reeve
  else if s.cstate = 2 then
    let s := s.wr (.glb .COMMIT_SPLIT) 0 (andNot (s.rd (.glb .COMMIT_PART) 0) (s.rd (.glb .COMMIT_VEC) 0))
    (s.wr (.glb .COMMIT_STATE) 0 3).setH .splitRaise 0 1
  else s

/-- The switch-die domains are reset and restarted (R501). -/
def State.warmReset (s : State) : State :=
  let s := (s.commitCut).startMains 4
  s.count (.hrt .RESET_WARM_CNT) 0

/-- WARM_RESET (R501): the scheduled one acts. -/
def execWarmReset (s : State) : Host.Outcome State Fault Refusal :=
  .next (s.inDom .reeve (fun s => s.when (s.h .warmAt != 0 && !s.inTransition)
    (fun s => ((s.passAge (s.h .warmAt - 1)).warmReset).pass 6250)))

/-! ## Banks -/

/-- State of bank b (Table 14.15): 0 EMPTY, 1 WRITING, 2 TRIAL, 3 ACTIVE, 4 PREVIOUS, 5 BAD. -/
def State.bank (s : State) (b : Nat) : Nat := s.rd (if b = 0 then .ree .BANK_STATE0 else .ree .BANK_STATE1) 0

/-- The state of bank b set. -/
def State.setBank (s : State) (b v : Nat) : State := s.wr (if b = 0 then .ree .BANK_STATE0 else .ree .BANK_STATE1) 0 v

/-- Flash offset of bank b (R459). -/
def bankBase (b : Nat) : Nat := b * Config.flashHalf

/-- The 4 KiB directory of bank b. -/
def State.dirOf (s : State) (b : Nat) : List Byte := s.bytes .flash (bankBase b) 4096

/-- A directory is valid: its MAGIC and its CRC-32C (R459). -/
def dirValid (l : List Byte) : Bool := imgAt l 0 4 == 0x4B4E4142 && crc32c (l.take 4092) == imgAt l 4092 4

/-- A directory entry. -/
structure DirEnt where
  cls : Nat
  id : Nat
  ofs : Nat
  len : Nat
  mask : Nat
  deriving DecidableEq, Repr

/-- The entries of a directory; one of length 0 is empty. -/
def dirEnts (l : List Byte) : List DirEnt :=
  ((List.range 64).map (fun k =>
    let o := 64 + 32 * k
    { cls := imgAt l o 1, id := imgAt l (o + 8) 8, ofs := imgAt l (o + 16) 4, len := imgAt l (o + 20) 4,
      mask := imgAt l (o + 24) 4 })).filter (fun e => e.len != 0)

/-- The image of a directory entry of bank b. -/
def State.entImage (s : State) (b : Nat) (e : DirEnt) : List Byte := s.bytes .flash (bankBase b + e.ofs) e.len

/-- The directory of bank b is written with the bank's state and trial count; its entries stay (R459, R463). -/
def State.dirWrite (s : State) (b trial : Nat) : State :=
  let ents := ((s.dirOf b).drop 64).take 2048
  let head := leBytes 4 0x4B4E4142 ++ leBytes 4 (s.h .bankSeq b) ++ leBytes 1 (s.bank b) ++ leBytes 1 trial
  let body := head ++ List.replicate 54 0 ++ ents ++ List.replicate 1980 0
  s.setBytes .flash (bankBase b) (body ++ leBytes 4 (crc32c body))

/-- Bank b enters a state, in its directory and in NVM. -/
def State.bankPut (s : State) (b st trial : Nat) : State :=
  ((s.setBank b st).wr (.ree .BANK_TRIAL_CNT) 0 trial).dirWrite b trial

/-- A Ledger UPDATE entry: 1 activate, 2 confirm, 3 revert; bank; BANK_SEQ (Table 14.5). -/
def State.updLedger (s : State) (what b : Nat) (src : LedSrc := .reeve) : State :=
  s.ledger 0x000B true locReeve (what + 256 * b + 2 ^ 32 * s.h .bankSeq b) src

/-- The trial bank is given up: BAD (Table 14.8). -/
def State.bankRevert (s : State) (b : Nat) (src : LedSrc := .reeve) : State :=
  let s := (s.bankPut b 5 (s.rd (.ree .BANK_TRIAL_CNT) 0)).updLedger 3 b src
  (s.setH .confirmAt 0 0).raise .REE_UPDATE_REVERTED locReeve b

/-- The booted bank. -/
def State.booted (s : State) : Nat := s.rd (.ree .BOOT_BANK) 0

/-- The booted bank is on trial. -/
def State.onTrial (s : State) : Bool := s.rd (.ree .STATUS_RSTATE) 0 == 1 && s.bank s.booted == 2

/-- Highest SEC_VER of a class among the images of bank b. -/
def State.topVer (s : State) (b cls : Nat) : Nat :=
  ((dirEnts (s.dirOf b)).filter (fun e => e.cls == cls)).foldl (fun m e => max m (imgSEC_VER (s.entImage b e))) 0

/-- A counter is raised to `v`, never beyond 255 (R457). -/
def State.arbRaise (s : State) (f : Fld) (v : Nat) : State := s.wr f 0 (max (s.rd f 0) (min v 255))

/-- The trial bank is confirmed (Table 14.8, R457). -/
def State.bankConfirm (s : State) : State :=
  let b := s.booted
  let s := if s.bank (1 - b) = 3 then s.bankPut (1 - b) 4 0 else s
  let s := s.bankPut b 3 0
  let s := s.arbRaise (.ree .ARB_ENG) (s.topVer b 0)
  let s := s.arbRaise (.ree .ARB_STG) (s.topVer b 1)
  let s := s.arbRaise (.ree .ARB_REV) (s.topVer b 2)
  (s.setH .confirmAt 0 0).updLedger 2 b

/-- 1 is written to REE_BANK.CONFIRM (Table 14.8): the firmware of the trial bank confirms it. -/
def State.confirmWrite (s : State) : State := if s.onTrial then s.bankConfirm else s

/-- CONFIRM_TIMEOUT (R464): the trial bank is BAD, and a warm reset follows to ACTIVE. -/
def execConfirmTimeout (s : State) : Host.Outcome State Fault Refusal :=
  .next (s.inDom .reeve (fun s => s.when (s.h .confirmAt != 0 && s.onTrial)
    (fun s =>
      let s := s.passAge (s.h .confirmAt - 1)
      (s.bankRevert s.booted).warmAtSet s.age)))

/-! ## Recovery ladder -/

/-- A step of the ladder is recorded: a RECOVERY entry, lasting for steps 3 and 4, and REE.RECOVERY with the step
(R479). -/
def State.recovery (s : State) (step attempt loc : Nat) : State :=
  (s.ledger 0x0008 (decide (3 ≤ step)) loc (step + 256 * attempt) .reeve).raise .REE_RECOVERY loc step

/-- A time kept as 1 + age lies within the last `secs` seconds. -/
def State.within (s : State) (t secs : Nat) : Bool := t != 0 && decide (s.age + 1 - t < secs * ticksPerSec)

/-- The ladder ends: MAIN_EN stays low (R480). -/
def State.exhausted (s : State) : State :=
  ((s.mainsOff [.N, .F, .W]).mainEnLow 3).ledger 0x000D true locHearth 0

/-- Step 4 (Table 14.12): MAIN_EN is low for 500 ms and a Hearth-kept start follows; a second one within 3600 s ends the
ladder. -/
def State.powerCycle (s : State) (loc : Nat) : State :=
  if s.within (s.h .cycAge) 3600 then s.exhausted
  else
    let s := (s.recovery 4 1 loc).setH .cycAge 0 (s.age + 1)
    let s := ((s.mainsOff [.N, .F, .W]).mainEnLow 2).setH .startKind 0 9
    (s.passAge (s.age + msTicks 500)).setH .mainEn 0 0

/-- Step 3 (Table 14.12): relinquish, then the warm reset 2 ms later; the third within 3600 s escalates to step 4. -/
def State.step3 (s : State) (loc : Nat) : State :=
  if s.inTransition then s
  else if s.within (s.h .warmAge 1) 3600 then s.powerCycle loc
  else
    let n := if s.within (s.h .warmAge 0) 3600 then 2 else 1
    let s := s.recovery 3 n loc
    let s := (s.setH .warmAge 1 (s.h .warmAge 0)).setH .warmAge 0 (s.age + 1)
    (s.relinquish).warmAtSet (s.age + msTicks 2)

/-- GLB_RESET is written (R544, R501): with the key and WARM = 1 a warm reset 2 ms later; every other write is counted. -/
def State.resetWrite (s : State) (warm : Bool) (key : Nat) : State :=
  if warm ∧ key = 0x5A5A then s.step3 locReeve else s.count (.glb .RESET_ST_KEY_ERR) 0

/-- GLB_RESET (R544). -/
def execGlbReset (r : Req) (warm : Bool) (key : BitVec 16) (s : State) : Host.Outcome State Fault Refusal :=
  .next (s.writeTo r .GLB 0 (fun s => s.resetWrite warm key.toNat))

/-- REE_WDT.KICK is written: 0xA5 restarts the watchdog (R451). The watchdog's running time is left out (log entry 82). -/
def State.wdtKick (s : State) (v : Nat) : State := if v = 0xA5 then s.setH .wdtAt 0 s.age else s

/-- WDT_KICK (R451). -/
def execWdtKick (r : Req) (v : BitVec 8) (s : State) : Host.Outcome State Fault Refusal :=
  .next (s.writeTo r .REE 0 (fun s => s.wdtKick v.toNat))

/-- Milliseconds of the watchdog: 5000 while the ROM runs (R451). -/
def State.wdtMs (s : State) : Nat := if s.rd (.ree .STATUS_RSTATE) 0 = 0 then 5000 else s.rd (.ree .WDT_MS) 0

/-- WDT_TRIP (R451): a kick is missed; a trial bank is given up (Table 14.8). -/
def execWdtTrip (s : State) : Host.Outcome State Fault Refusal :=
  .next (s.inDom .reeve (fun s => s.when (s.on (.ree .WDT_EN) 0 || s.rd (.ree .STATUS_RSTATE) 0 == 0)
    (fun s =>
      let s := s.passAge (s.h .wdtAt + msTicks s.wdtMs)
      let s := ((s.count (.ree .BOOT_WDT_TRIP) 0).raise .REE_WDT locReeve).setH .wdtAt 0 s.age
      let s := if s.onTrial then s.bankRevert s.booted else s
      s.step3 locReeve)))

/-- Function k is marked unusable by the ladder (Table 14.12). -/
def State.ladderMark (s : State) (k : Nat) : State :=
  if k < 88 then ((s.setH .quadBad 0 (setBit (k - 72) (s.h .quadBad))).setH .markWhy k 2).ledger 0x0007 true (fnLoc k) 2 .reeve
  else if k < 96 then ((s.setH .pairBad 0 (setBit (k - 88) (s.h .pairBad))).setH .markWhy (k - 72) 2).ledger 0x0007 true (fnLoc k) 2 .reeve
  else if k < 112 then s.engMark (k - 96) 2
  else ((s.setH .stackBad 0 (setBit (k - 112) (s.h .stackBad))).setH .markWhy (k - 24) 2).stackFail (k - 112) 0

/-- Step 2 (Table 14.12): the function is reset and its context restored by the Reeve; the third time within 600 s an
engine, pair, quad or stack is marked unusable and any other function escalates. -/
def State.step2 (s : State) (k : Nat) : State :=
  if s.within (s.h .reAge (2 * k + 1)) 600 then
    let s := s.recovery 2 3 (fnLoc k)
    if 72 ≤ k ∧ k < 116 then s.ladderMark k else s.step3 (fnLoc k)
  else
    let n := if s.within (s.h .reAge (2 * k)) 600 then 2 else 1
    let s := s.recovery 2 n (fnLoc k)
    let s := (s.setH .reAge (2 * k + 1) (s.h .reAge (2 * k))).setH .reAge (2 * k) (s.age + 1)
    let old := s
    let s := s.fnReset k
    let s : State := (old.regs.filter (fun x => decide (x.1.1.desc.surv = .F) && decide (s.rd x.1.1 x.1.2 ≠ x.2))).foldl
      (fun s x => s.wr x.1.1 x.1.2 x.2) s
    (List.range 64).foldl (fun s n => s.setH .laneOwner n (old.h .laneOwner n)) s

/-- RECOVERY_REINIT (R479): of the function a location word names; what names none escalates. -/
def execRecoveryReinit (loc : BitVec 32) (s : State) : Host.Outcome State Fault Refusal :=
  .next (s.inDom .reeve (fun s => match s.fnOf loc.toNat with
    | some k => if s.fnOk k then s.step2 k else s
    | none => s.step3 loc.toNat))

/-- Milliseconds before repeat n of step 1. -/
def retryMs (n : Nat) : Nat := if n ≤ 1 then 1 else if n = 2 then 10 else 100

/-- RECOVERY_RETRY (R479): repeat `n` (1-3) of a failed operation, `fails` its outcome; when the third fails, step 2 for the
function the location names. -/
def execRecoveryRetry (loc : BitVec 32) (n : Fin 4) (fails : Bool) (s : State) : Host.Outcome State Fault Refusal :=
  .next (s.inDom .reeve (fun s =>
    let s := (s.passAge (s.age + msTicks (retryMs n.val))).recovery 1 n.val loc.toNat
    if n.val < 3 ∨ ¬ fails then s
    else match s.fnOf loc.toNat with
      | some k => s.step2 k
      | none => s.step3 loc.toNat))

/-- RECOVERY_POWER_CYCLE (R479): the firmware entry is not reached within 5 s, or the warm resets escalate. -/
def execRecoveryPowerCycle (s : State) : Host.Outcome State Fault Refusal := .next (s.powerCycle locHearth)

end Sys2Proof.Machine
end

