-- ==== Sys2Proof/Machine/Life.lean ====
section
/-! DEFINITION. The Reeve's services: tokens and keys (R456-R458), self-test verdicts and marks (R473-R478), the life
cycle (R467-R471), loading images (R318, R319), the mailboxes (R481) and their commands (Table 14.13). -/

namespace Sys2Proof.Machine

/-! ## Tokens -/

/-- The octets of REE_TOKEN. -/
def State.token (s : State) : List Byte := leBytes 160 (s.rd (.ree .TOKEN) 0)

/-- A big-endian field of a token (Table 14.7). -/
def tokAt (l : List Byte) (o n : Nat) : Nat := beNat ((l.drop o).take n)

/-- The public key a token carries. -/
def tokKey (l : List Byte) : Nat := leNat ((l.drop 40).take 32)

/-- The token authorises OP `op` on `target` under one of the listed slots, 4 being the ROM key (R458). -/
def State.tokenOk (s : State) (op target : Nat) (slots : List Nat) : Bool :=
  let l := s.token
  let k := tokAt l 6 1
  tokAt l 0 4 == 0x4E4B5441 && tokAt l 4 1 == op && tokAt l 5 1 == target && slots.contains k &&
  tokAt l 8 16 == s.rd (.glb .DEVICE_UID) 0 && tokAt l 24 16 == s.rd (.ree .NONCE) 0 && (k == 4 || s.keyLive k) &&
  Config.ed25519Verify (if k = 4 then Config.romKey else s.keyOf k) (l.take 96) (l.drop 96)

/-- REE_NONCE takes a new value after every token check (R458). -/
def State.nonceNew (s : State) : State := (s.wr (.ree .NONCE) 0 (s.freeVal 128)).nextFree

/-- Slot k of the key store is written with a key. -/
def State.keyWrite (s : State) (k key : Nat) : State :=
  (s.setH .keySlot k key).wr (.ree .KEYS_BITS) 0 (setBit (2 * k) (s.rd (.ree .KEYS_BITS) 0))

/-- Slot k is written. -/
def State.keyWritten (s : State) (k : Nat) : Bool := bit (2 * k) (s.rd (.ree .KEYS_BITS) 0)

/-! ## Self-test -/

/-- The outcome of a run as one number. -/
def lbPack (v : Lbist) : Nat :=
  v.eng.toNat + 2 ^ 16 * v.pair.toNat + 2 ^ 24 * v.fatal.toNat + 2 ^ 27 * v.stack.toNat + 2 ^ 31 * v.unit.toNat

/-- Milliseconds a set takes on the variant (Table 14.11): absent blocks are skipped (R473). -/
def lbMs (v : Variant) (full : Bool) : Nat :=
  let n (m : Nat) : Nat := (bitsOf 16 m).length
  let t (a b : Nat) : Nat := if full then b else a
  n v.engines * t 12 45 + 8 * t 10 40 + 48 * t 1 3 + n v.quads * t 1 4 + n v.stacks * t 2 8 + t 40 150 + t 12 45 + t 4 25

/-- A new verdict is stored (R474-R477): `n` names the failed blocks, `full` the set. FATAL clears only by a full set. -/
def State.lbStore (s : State) (full : Bool) (n : Nat) : State :=
  let v := s.variant
  let eng := bits 0 16 n &&& v.engines
  let pair := bits 16 8 n
  let fatal := bits 24 3 n
  let stack := bits 27 4 n &&& v.stacks
  let unit := bits 31 48 n + 2 ^ 48 * (bits 79 16 n &&& v.quads)
  let old := s.rd (.ree .BOOT_CNT) 0
  let fails := (bitsOf 16 eng ++ bitsOf 8 pair ++ bitsOf 3 fatal ++ bitsOf 4 stack ++ bitsOf 64 unit).length
  let s := ((s.wr (.ree .LBIST_VALID) 0 1).wr (.ree .LBIST_FULL) 0 full.toNat).wr (.ree .LBIST_AGE_H) 0 0
  let s := s.wr (.ree .LBIST_FATAL) 0 (if fatal ≠ 0 ∨ (¬ full ∧ s.on (.ree .LBIST_FATAL) 0) then 1 else 0)
  let s := ((s.wr (.ree .LBIST_FAIL_ENG) 0 eng).wr (.ree .LBIST_FAIL_PAIR) 0 pair).wr (.ree .LBIST_FAIL_FATAL) 0 fatal
  let s := (s.wr (.ree .LBIST_FAIL_STACK) 0 stack).wr (.ree .LBIST_FAIL_UNIT) 0 unit
  let s := ((s.wr (.ree .BOOT_CNT) 0 0).setH .verdAge 0 s.age).setH .verdSpan 0 1
  let s := s.ledger 0x0006 true locReeve (full.toNat + 256 * fails + 2 ^ 32 * old) .reeve
  if fails = 0 then s else s.raise .REE_LBIST_FAIL locReeve fails

/-- A verdict is valid (R475), this start counted. -/
def State.verdictValid (s : State) : Bool :=
  s.on (.ree .LBIST_VALID) 0 && s.h .verdSpan == 1 && decide (s.age - s.h .verdAge < 30 * 86400 * ticksPerSec) &&
  decide (s.rd (.ree .BOOT_CNT) 0 < 64)

/-- The hidden mask of marked blocks of a kind, first place of the kind in `markWhy`, number of blocks, location. -/
structure MarkKind where
  mask : Hid
  first : Nat
  count : Nat
  loc : Nat → Nat

/-- Marked blocks kept in masks: pairs, Granary banks, quads, stacks. -/
def markKinds : List MarkKind :=
  [⟨.pairBad, 16, 8, locSlice⟩, ⟨.bankBad, 24, 48, locBank⟩, ⟨.quadBad, 72, 16, locQuad⟩, ⟨.stackBad, 88, 4, locStack⟩]

/-- Block j of a kind follows the verdict in force: `bad`, it failed (R476). -/
def State.markFollow (s : State) (m : MarkKind) (j : Nat) (bad : Bool) : State :=
  let marked := bit j (s.h m.mask)
  if bad ∧ ¬ marked then
    ((s.setH m.mask 0 (setBit j (s.h m.mask))).setH .markWhy (m.first + j) 1).ledger 0x0007 true (m.loc j) 1 .rom
  else if ¬ bad ∧ marked ∧ s.h .markWhy (m.first + j) = 1 then
    (s.setH m.mask 0 (clrBit j (s.h m.mask))).setH .markWhy (m.first + j) 0
  else s

/-- Engine e follows the verdict in force. -/
def State.markEngine (s : State) (e : Nat) (bad : Bool) : State :=
  if bad then s.engMark e 1
  else if s.on (.eng .CTL_UNUSABLE) e ∧ s.h .markWhy e = 1 then (s.wr (.eng .CTL_UNUSABLE) e 0).setH .markWhy e 0
  else s

/-- The verdict in force is applied (R476). -/
def State.applyMarks (s : State) : State :=
  let fail (k : Nat) : Nat :=
    if k = 16 then s.rd (.ree .LBIST_FAIL_PAIR) 0
    else if k = 24 then bits 0 48 (s.rd (.ree .LBIST_FAIL_UNIT) 0)
    else if k = 72 then bits 48 16 (s.rd (.ree .LBIST_FAIL_UNIT) 0)
    else s.rd (.ree .LBIST_FAIL_STACK) 0
  let eng := s.rd (.ree .LBIST_FAIL_ENG) 0
  let s := (bitsOf 16 s.variant.engines).foldl (fun s e => s.markEngine e (bit e eng)) s
  markKinds.foldl (fun s m => (List.range m.count).foldl (fun s j => s.markFollow m j (bit j (fail m.first))) s) s

/-- UNMARK of the block a location word names (R476): 2 it names none, 3 no host or ladder mark stands, 0 done. -/
def State.unmark (s : State) (loc : Nat) : Nat × State :=
  match (List.range 16).find? (fun e => locEngine e == loc) with
  | some e =>
    if 2 ≤ s.h .markWhy e then (0, ((s.wr (.eng .CTL_UNUSABLE) e 0).wr (.eng .CTL_MARK) e 0).setH .markWhy e 0) else (3, s)
  | none =>
    match markKinds.findSome? (fun m => ((List.range m.count).find? (fun j => m.loc j == loc)).map (fun j => (m, j))) with
    | none => (2, s)
    | some (m, j) =>
      let host := m.first == 88 && s.on (.cel .STACK_MARK) j
      if host ∨ 2 ≤ s.h .markWhy (m.first + j) then
        let s := (s.setH m.mask 0 (clrBit j (s.h m.mask))).setH .markWhy (m.first + j) 0
        if m.first = 88 then
          (0, (s.wr (.cel .STACK_MARK) j 0).when (s.domOn .cellar && s.rd (.cel .STACK_STATE) j == 4) (fun s => s.stackWipeStart j))
        else (0, s)
      else (3, s)

/-! ## Life cycle -/

/-- Octets of the Weighhouse device key that a new key gives: X then Y. -/
def State.wghKeyNew (s : State) : State :=
  let key := s.freeVal 512
  let s := (s.nextFree.wr (.wgh .PUBKEY) 0 key).setH .wKey 0 1
  let s := s.wr (.wgh .KEY_ID) 0 (leNat ((beBytes 32 (Config.sha256 (leBytes 64 key))).take 8))
  s.wghEvent 3 0

/-- The Weighhouse signing key is erased. -/
def State.wghKeyErase (s : State) : State := ((s.setH .wKey 0 0).wr (.wgh .PUBKEY) 0 0).wr (.wgh .KEY_ID) 0 0

/-- SCRAP erases the key store and the Weighhouse's NVM, but EVCNT, ATTEMPT and the record number (Table 14.10, R469). -/
def State.scrapErase (s : State) : State :=
  let s := (List.range 4).foldl (fun s k => s.setH .keySlot k 0) s.wghKeyErase
  let s := (List.range 8).foldl (fun s k => s.setH .wDly k 0) (s.wipe .wghNvm 0 (2 ^ 64))
  { s with regs := s.regs.filter (fun e => decide (¬ (e.1.1.desc.grp.info.blk = .wgh ∧ e.1.1.desc.nvm)) ||
      [Fld.wgh .EVCNT, .wgh .ATTEMPT, .wgh .HEAD_RECNO].contains e.1.1) }

/-- The transition to state `dst` from its step 4 on (R469, R471, Table 14.10): the main domains off, the wipes and erasures,
the new state, and a Hearth-kept start. -/
def State.lcDo (s : State) (dst : Nat) : State :=
  let from_ := s.lc
  let s := (s.wr (.ree .LC_ARMED) 0 1).mainsOff [.N, .F, .W]
  let s := { s with regs := s.regs.filter (fun e => decide (e.1.1 ≠ Fld.ree .RING_ENTRY)) }
  let s := if dst = 1 then s.keyWrite 0 (s.h .lcArg)
    else if dst = 2 then (if from_ = 4 then s.bump (.ree .LC_RETURN_USED) 0 else s).wghKeyNew
    else if dst = 4 then s.wghKeyErase
    else if dst = 5 then s.scrapErase
    else s
  let s := (s.wr (.ree .LC_STATE) 0 dst).wr (.wgh .STATUS_SEALED) 0 (if dst = 3 then 1 else 0)
  let s := ((s.wr (.ree .LC_ARMED) 0 0).setH .lcTo 0 0).setH .lcArg 0 0
  let s := s.ledger 0x0009 true locReeve (from_ + 256 * dst + 65536 * s.rd (.ree .LC_RETURN_USED) 0)
  s.startMains 7

/-- Token slots that authorise a transition (Tables 14.6, 14.10); none for one that does not exist. -/
def lcSlots (from_ dst : Nat) : List Nat :=
  if from_ = 0 ∧ dst = 1 then [4]
  else if (from_ = 1 ∨ from_ = 4) ∧ dst = 2 then [0]
  else if from_ = 2 ∧ dst = 3 then [0, 1, 2]
  else if (from_ = 2 ∨ from_ = 3) ∧ dst = 4 then [0]
  else if from_ ≤ 4 ∧ dst = 5 then [0, 1, 2]
  else []

/-- An update is in WRITING or TRIAL. -/
def State.updating (s : State) : Bool := [s.bank 0, s.bank 1].any (fun b => b == 1 || b == 2)

/-- LC_REQ (R469-R471): the response code, and the transition: a twin role is relinquished and DORMANT committed; a part
whose Reeve has not booted has no commit to make. -/
def State.lcReq (s : State) (dst : Nat) : Nat × State :=
  let from_ := s.lc
  if lcSlots from_ dst = [] then (3, s)
  else if from_ = 4 ∧ dst = 2 ∧ 4 ≤ s.rd (.ree .LC_RETURN_USED) 0 then (8, s)
  else if s.updating ∨ (from_ = 1 ∧ dst = 2 ∧ ¬ s.keyWritten 3) ∨ ((from_ = 2 ∨ from_ = 3) ∧ s.mode ≠ modeService) then (3, s)
  else if s.h .lcPend ≠ 0 ∨ s.h .shut ≠ 0 then (1, s)
  else
    let good := s.tokenOk 7 dst (lcSlots from_ dst)
    let s := (if good then s.setH .lcArg 0 (tokKey s.token) else s).nonceNew
    if ¬ good then (4, s)
    else
      let s := (s.setH .lcPend 0 (dst + 1)).setH .lcTo 0 (dst + 1)
      if s.mode = modeDormant then (7, s) else (7, (s.relinquish).intRequest { mode := modeDormant + 1 })

/-- KEY_PROG (Table 14.6). -/
def State.keyProg (s : State) (k : Nat) : Nat × State :=
  let ok := (k = 3 ∧ s.lc = 1) ∨ ((k = 1 ∨ k = 2) ∧ (s.lc = 2 ∨ s.lc = 4))
  if k = 0 ∨ 4 ≤ k then (2, s)
  else if ¬ ok ∨ s.keyWritten k then (3, s)
  else
    let good := s.tokenOk 8 k (if k = 3 then [0] else [0, 3 - k])
    let key := tokKey s.token
    let s := s.nonceNew
    if good then (0, s.keyWrite k key) else (4, s)

/-- REVOKE (Table 14.6). -/
def State.revoke (s : State) (k : Nat) : Nat × State :=
  if k = 0 ∨ 4 ≤ k then (2, s)
  else if ¬ (s.lc = 2 ∨ s.lc = 3 ∨ s.lc = 4) ∨ ¬ s.keyWritten k then (3, s)
  else
    let good := s.tokenOk 9 k (if k = 3 then [0] else [0, 3 - k])
    let s := s.nonceNew
    if good then (0, s.wr (.ree .KEYS_BITS) 0 (setBit (2 * k + 1) (s.rd (.ree .KEYS_BITS) 0))) else (4, s)

/-! ## Shutdown and LBIST_RUN -/

/-- The shutdown in SERVICE (R474): with LBIST the Hearth takes the coarse timescale and the short set's verdict is stored;
then REE.SHUTDOWN_DONE, and last of all the commit of DORMANT. -/
def State.shutService (s : State) : State :=
  let s := if s.h .shut = 1 then
      let n := if s.h .lbRes = 0 then s.freeVal 95 else s.h .lbRes - 1
      ((s.nextFree.coarseTake).passAge (s.age + msTicks (lbMs s.variant false))).lbStore false n
    else s
  ((s.raise .REE_SHUTDOWN_DONE locReeve).setH .shut 0 3).intRequest { mode := modeDormant + 1 }

/-- SHUTDOWN (R474). -/
def State.shutdown (s : State) (lbist : Bool) (v : Option Nat) : Nat × State :=
  if s.h .shut ≠ 0 ∨ s.h .lcPend ≠ 0 then (1, s)
  else
    let s := (s.setH .shut 0 (if lbist then 1 else 2)).setH .lbRes 0 (match v with | some n => n + 1 | none => 0)
    let s := s.relinquish
    if s.mode = modeService then (7, s.shutService)
    else (7, s.intRequest { mode := modeService + 1 })

/-- LBIST_RUN (R478): the full set, then a Hearth-kept start that applies the new verdict. -/
def State.lbistRun (s : State) (v : Option Nat) : Nat × State :=
  if s.mode ≠ modeService ∨ s.role = twACTIVE ∨ s.updating then (3, s)
  else
    let n := match v with | some n => n | none => s.freeVal 95
    let s := (s.nextFree.coarseTake).passAge (s.age + msTicks (lbMs s.variant true))
    (7, (s.lbStore true n).startWhen 1)

/-! ## Images -/

/-- Image of class `cls`, or with an identity, in the booted bank. -/
def State.findImage (s : State) (p : DirEnt → Bool) : Option (DirEnt × List Byte) :=
  let l := s.dirOf s.booted
  if ¬ dirValid l then none else ((dirEnts l).find? p).map (fun e => (e, s.entImage s.booted e))

/-- Code 7 for the engines of a mask (Table 9.12). -/
def State.engTargetBad (s : State) (l : List Byte) (mask : Nat) : Bool :=
  (bitsOf 16 mask).any (fun e => !s.variant.hasEngine e || s.on (.eng .CTL_UNUSABLE) e || !bit e (imgENGINES l) ||
    (bitsOf 8 (imgTHREADS l)).any (fun t => s.tstate e t != tIDLE))

/-- Top of the stack of the j-th started thread: the stacks lie in a KIND 3 segment (R318). -/
def stackTop (l : List Byte) (j : Nat) : Nat :=
  match (imgSegs l).find? (fun g => g.kind == 3) with
  | some g => g.dest + (j + 1) * imgSTACK l
  | none => 0

/-- Thread t of engine e is set at the image's entry and started (R318). -/
def State.startAt (s : State) (l : List Byte) (e t j : Nat) : State :=
  let i := thrIdx e t
  let s := (s.wr (.eng .THR_TCTL_PRIV) i (imgPRIV l)).wr (.eng .THR_TPC_PC) i (imgENTRY l)
  (s.setTr i 2 (stackTop l j)).thrStart .reeve e t

/-- An engine image is loaded into engine e (R318). -/
def State.loadEngine (s : State) (l : List Byte) (e : Nat) : State :=
  let s := s.wr (.eng .CTL_CLK_EN) e 1
  let s := (imgSegs l).foldl (fun s g =>
    let s := if g.kind = 3 then s else s.setBytes .pantry (e * 0x400000 + g.dest) (g.contents l)
    (List.range ((g.size + 4095) / 4096)).foldl (fun s k =>
      let i := 1024 * e + g.dest / 4096 + k
      let s := (s.wr (.eng .PATTR_U_R) i (bits 0 1 g.access)).wr (.eng .PATTR_U_W) i (bits 1 1 g.access)
      (s.wr (.eng .PATTR_U_X) i (bits 2 1 g.access)).wr (.eng .PATTR_CODE) i (if g.kind = 0 then 1 else 0)) s) s
  let ts := bitsOf 8 (imgTHREADS l)
  (List.range ts.length).foldl (fun s j => s.startAt l e (ts.getD j 0) j) s

/-- A stage-cell image is loaded into the bank not in effect of each pair of its masks (R319). -/
def State.loadStage (s : State) (l : List Byte) (mask : Nat) : State :=
  (imgSegs l).foldl (fun s g =>
    (bitsOf 8 (bits 8 8 g.target &&& mask)).foldl (fun s pr =>
      let bankB := !s.on (.core .PAIR_CTL_BANK_APPLIED) pr
      let c := 12 * pr + bits 0 4 g.target
      let body := g.contents l
      let s := (List.range 24).foldl (fun s k => s.wr (insnFld (bit 4 g.target) bankB) (24 * c + k) (imgAt body (4 * k) 4)) s
      s.chkSync pr) s) s

/-- An image is checked and loaded on a mask of engines or pairs: 0, or its refusal code (R317-R319). -/
def State.loadImage (s : State) (l : List Byte) (mask : Nat) : Nat × State :=
  let cls := imgCLASS l
  let code := s.imgCode l
  let code := if code ≠ 0 then code
    else if cls = 0 then (if s.engTargetBad l mask then 7 else 0)
    else if cls = 1 then (if 256 ≤ mask then 7 else 0)
    else 2
  if code ≠ 0 then (code, s.imgRefused code l)
  else if cls = 0 then (0, (bitsOf 16 mask).foldl (fun s e => s.loadEngine l e) s)
  else (0, s.loadStage l mask)

/-- After boot the firmware loads the images of a class from the booted bank (Table 14.2). -/
def State.fwLoad (s : State) (cls : Nat) : State :=
  let l := s.dirOf s.booted
  if s.rd (.ree .STATUS_RSTATE) 0 ≠ 1 ∨ s.on (.ree .BOOT_RECOVERY) 0 ∨ ¬ dirValid l then s
  else ((dirEnts l).filter (fun e => e.cls == cls)).foldl (fun s e => (s.loadImage (s.entImage s.booted e) e.mask).2) s

/-! ## Updates -/

/-- The bank a source writes. -/
def State.writing (s : State) : Option Nat := if s.bank 0 = 1 then some 0 else if s.bank 1 = 1 then some 1 else none

/-- UPDATE_BEGIN (Table 14.8) by source `src`: 0 host mailbox, 1 I2C mailbox, 2 in band. -/
def State.updBegin (s : State) (b src : Nat) : Nat × State :=
  if 2 ≤ b then (2, s)
  else if ¬ (s.bank b = 0 ∨ s.bank b = 5 ∨ s.bank b = 4) then (3, s)
  else
    let s := (s.wipe .flash (bankBase b) (bankBase b + 4096)).setBank b 1
    (0, (s.setH .bankSeq b (s.h .bankSeq (1 - b) + 1)).setH .bankSrc 0 (src + 1))

/-- Data programmed into the WRITING bank by source `src` (R465). -/
def State.updWrite (s : State) (src ofs : Nat) (data : List Byte) : Nat × State :=
  match s.writing with
  | none => (3, s)
  | some b =>
    if s.h .bankSrc ≠ src + 1 then (1, s)
    else if data.length = 0 ∨ 2 ^ 20 < data.length ∨ Config.flashHalf < ofs + data.length then (2, s)
    else (0, s.setBytes .flash (bankBase b + ofs) data)

/-- The first refused image of bank b with its code (Table 14.8). -/
def State.bankBadImage (s : State) (b : Nat) : Option (Nat × List Byte) :=
  (dirEnts (s.dirOf b)).findSome? (fun e =>
    let l := s.entImage b e
    if s.imgCode l = 0 then none else some (s.imgCode l, l))

/-- UPDATE_ACTIVATE (Table 14.8): the response code and detail. -/
def State.updActivate (s : State) (src : Nat) : Nat × Nat × State :=
  match s.writing with
  | none => (3, 0, s)
  | some b =>
    if s.h .bankSrc ≠ src + 1 then (1, 0, s)
    else match s.bankBadImage b with
      | some (code, l) => (5, code, s.imgRefused code l)
      | none => (0, 0, ((s.bankPut b 2 0).updLedger 1 b).warmAtSet (s.age + msTicks 10))

/-! ## Recovery boot -/

/-- The Reeve runs an image from SRAM (R460): its segments, its entry. -/
def State.reeveRun (s : State) (l : List Byte) : State :=
  let s : State := (imgSegs l).foldl (fun s g => if g.kind = 3 then s else s.setBytes .sram g.dest (g.contents l)) s
  let s := ((s.setTr 128 rPC (imgENTRY l)).setTr 128 rSTATE tRUNNING).setTr 128 rLEVEL 1
  (s.wr (.ree .STATUS_RSTATE) 0 1).setH .wdtAt 0 s.age

/-- Once the Reeve has booted the mode is SURVEY, or SERVICE with FATAL = 1 (R30, R477, Table 5.8). -/
def State.modeStartUp (s : State) : State :=
  let s := s.wr (.glb .MODE) 0 (if s.on (.ree .LBIST_FATAL) 0 then modeService else modeSurvey)
  if s.domOn .bell then (s.setNco (s.ncoFor s.mode)).selStatus else s

/-- RECOVERY_GO (R462): the staged image is checked and run. -/
def State.recoveryGo (s : State) : Nat × Nat × State :=
  let l := s.bytes .reeStage 0 (s.rdMem .reeStage 8 4)
  let code := if 0x200000 < l.length then 1 else if imgCLASS l ≠ 2 ∧ ¬ imgCode1 l then 2 else s.imgCode l
  if s.rd (.ree .STATUS_RSTATE) 0 ≠ 2 then (3, 0, s)
  else if code ≠ 0 then (5, code, s.imgRefused code l .rom)
  else (0, 0, (s.reeveRun l).modeStartUp)

/-! ## Almanac and context -/

/-- ALMANAC_WRITE (R120, Table 14.13): a set whose CRC-32C, in its last word, matches is rewritten. -/
def State.almWrite (s : State) (k addr : Nat) : Nat × State :=
  let l := s.bytes .host addr Config.almSetLen
  let n := l.length - 4
  if s.mode ≠ modeService ∨ s.variant ≠ .x ∨ s.lc = 3 then (3, s)
  else if 17 ≤ k ∨ crc32c (l.take n) ≠ imgAt l n 4 then (2, s)
  else
    let s := (s.setBytes .almanac (k * Config.almSetLen) l).setH .almImg k (1 + leNat l)
    let s := (s.setH .almBad 0 (clrBit k (s.h .almBad))).ledger 0x8000 true locReeve k .reeve
    (0, (List.range 74).foldl (fun s n => if s.up .LANE n then s.calEval n else s) s)

/-- The fields of a domain that the Reeve saves: code W and F, no shadows (R493, R99). -/
def ctxField (d : Dom) (x : (Fld × Nat) × Nat) : Bool :=
  decide (fldDom x.1.1 x.1.2 = d) && decide (x.1.1.desc.surv = .W ∨ x.1.1.desc.surv = .F)

/-- The Reeve saves a domain's context before it is switched off (R493). -/
def State.ctxSave (s : State) (d : Dom) : State :=
  let kept := s.ctx.filter (fun x => decide (fldDom x.1.1 x.1.2 ≠ d))
  let s := { s with ctx := kept ++ s.regs.filter (ctxField d) }
  s.setH .ctxHave 0 (setBit d.idx (s.h .ctxHave))

/-- CONTEXT_RESTORE (R493). -/
def State.ctxRestore (s : State) (k : Nat) : Nat × State :=
  match Dom.all[k]? with
  | none => (2, s)
  | some d =>
    if ¬ bit k (s.h .ctxHave) ∨ ¬ s.domOn d then (3, s)
    else
      let s : State := (s.ctx.filter (fun x => decide (fldDom x.1.1 x.1.2 = d))).foldl (fun s x => s.wr x.1.1 x.1.2 x.2) s
      let s := (List.range 74).foldl (fun s n => if laneDom n = d ∧ s.rd (.lane .CTL_MODE) n ≠ 0 then s.laneApply n else s) s
      (0, s.clrBitF (.hrt .CTX_CONTEXT_LOST) 0 k)

/-! ## Mailboxes (R481) -/

/-- The response of mailbox m. -/
def State.mboxAnswer (s : State) (m seq code : Nat) (detail : Nat := 0) (data : Nat := 0) : State :=
  let s := ((s.wr (.ree .MBOX_CODE) m code).wr (.ree .MBOX_DETAIL) m detail).wr (.ree .MBOX_SEQ) m seq
  (s.wr (.ree .MBOX_DATA) m data).wr (.ree .MBOX_BUSY) m 0

/-- The WGH pass-through (R445, R466): the words are posted as WGH_CMD; for an installation the image of the booted bank is
copied into the staging window first. The response is WGH_RSP's code word and data. -/
def State.wghPass (s : State) (w : List Nat) : Nat × State :=
  let s := if bits 0 8 (w.getD 0 0) = 5 then
      match s.findImage (fun e => e.cls == 3) with
      | some (_, l) => s.setBytes .wghStage 0 (l.take 0x40000)
      | none => s
    else s
  let s := s.wghCommand w
  (s.rd (.wgh .RSP_CODE) 0 + 256 * s.rd (.wgh .RSP_DETAIL) 0 + 65536 * s.rd (.wgh .RSP_SEQ) 0 +
    2 ^ 32 * s.rd (.wgh .RSP_DATA) 0, s)

/-- A response of a code alone. -/
def mbPlain (r : Nat × State) : Nat × Nat × Nat × State := (r.1, 0, 0, r.2)
/-- A response of a code and a detail. -/
def mbDet (r : Nat × Nat × State) : Nat × Nat × Nat × State := (r.1, r.2.1, 0, r.2.2)

/-- A response OK with data. -/
def mbData (r : Nat × State) : Nat × Nat × Nat × State := (0, 0, r.1, r.2)

/-- A command of mailbox m runs (Table 14.13): response code, detail, data. `v` is the outcome of a self-test it runs. -/
def State.mboxRun (s : State) (m : Nat) (w : List Nat) (v : Option Nat) : Nat × Nat × Nat × State :=
  let a (i : Nat) : Nat := w.getD i 0
  let op := bits 0 8 (a 0)
  let late := s.mode == modeDormant
  if s.rd (.ree .STATUS_RSTATE) 0 = 2 ∧ op ≠ 15 ∧ op ≠ 7 then (3, 0, 0, s)
  else match op with
    | 1 => if late then (3, 0, 0, s) else mbPlain (s.updBegin (a 1) m)
    | 2 => if late then (3, 0, 0, s) else
        mbPlain (s.updWrite m (a 4) (s.bytes .host (a 1 + 2 ^ 32 * a 2) (min (a 3) (2 ^ 20 + 1))))
    | 3 => if late then (3, 0, 0, s) else mbDet (s.updActivate m)
    | 4 => if s.onTrial then (0, 0, 0, s.bankConfirm) else (3, 0, 0, s)
    | 5 =>
      if late then (3, 0, 0, s)
      else match s.findImage (fun e => e.id == a 1 + 2 ^ 32 * a 2 && decide (e.cls ≤ 1)) with
        | none => (2, 0, 0, s)
        | some (e, l) =>
          if a 3 = 0 then (2, 0, 0, s)
          else if ¬ s.domOn (if e.cls = 0 then .engine else .core) then (3, 0, 0, s)
          else
            let r := s.loadImage l (a 3)
            if r.1 = 0 then (0, 0, 0, r.2) else (5, r.1, 0, r.2)
    | 6 =>
      if ¬ s.domOn .weigh then (3, 0, 0, s)
      else mbData (s.wghPass (w.drop 1))
    | 7 => mbPlain (s.lcReq (a 1))
    | 8 => mbPlain (s.keyProg (a 1))
    | 9 => mbPlain (s.revoke (a 1))
    | 10 => mbPlain (s.shutdown (a 1 % 2 == 1) v)
    | 11 => mbPlain (s.lbistRun v)
    | 12 => mbPlain (s.almWrite (a 1) (a 2 + 2 ^ 32 * a 3))
    | 13 => mbPlain (s.ctxRestore (a 1))
    | 14 => if s.mode = modeService then mbPlain (s.unmark (a 1)) else (3, 0, 0, s)
    | 15 => mbDet s.recoveryGo
    | _ => (2, 0, 0, s)

/-- The Reeve, or the ROM in recovery boot, serves the command that waits in mailbox m. A life-cycle transition of a part
whose Reeve has not booted follows at once (R471). A command that restarts REEVE leaves no response (R478). -/
def State.mboxServe (s : State) (m : Nat) (v : Option Nat) : State :=
  let st := s.rd (.ree .STATUS_RSTATE) 0
  if ¬ (s.on (.ree .MBOX_BUSY) m ∧ (st = 1 ∨ st = 2)) then s
  else
    let n := s.rd (.ree .MBOX_WORD) m
    let w := (List.range 16).map (fun i => bits (32 * i) 32 n)
    let r := s.mboxRun m w v
    let s := if r.2.2.2.domOn .reeve then r.2.2.2.mboxAnswer m (bits 16 16 n) r.1 r.2.1 r.2.2.1 else r.2.2.2
    if s.h .lcPend ≠ 0 ∧ s.mode = modeDormant then (s.setH .lcPend 0 0).lcDo (s.h .lcPend - 1) else s

/-- A command is posted to mailbox m (R481): discarded and counted while BUSY = 1. -/
def State.mboxPost (s : State) (m : Nat) (w : List Nat) (v : Option Nat := none) : State :=
  if s.on (.ree .MBOX_BUSY) m then s.count (.ree .MBOX_CMD_LOST) m
  else
    let n := (w.take 16).reverse.foldl (fun n x => n * 2 ^ 32 + x % 2 ^ 32) 0
    ((s.wr (.ree .MBOX_WORD) m n).wr (.ree .MBOX_BUSY) m 1).mboxServe m v

/-- A mailbox command with OP `op`, sequence number and arguments; in a domain that is off nothing is posted, nor by a
host whose endpoint is not enabled (R530). -/
def State.mailbox (s : State) (m : Fin 2) (op : Nat) (seq : BitVec 16) (args : List Nat) (v : Option Nat := none) : State :=
  s.inDom .reeve (fun s => s.when (decide (m = 1) || s.h .pcieOn == 1) fun s => s.mboxPost m.val ((op + 65536 * seq.toNat) :: args) v)

/-- Words of a 64-bit argument. -/
def twoWords (n : Nat) : List Nat := [n % 2 ^ 32, n / 2 ^ 32]

/-- UPDATE_BEGIN (R463). -/
def execUpdateBegin (m : Fin 2) (seq : BitVec 16) (bank : BitVec 32) (s : State) : Host.Outcome State Fault Refusal :=
  .next (s.mailbox m 1 seq [bank.toNat])
/-- UPDATE_WRITE (R465). -/
def execUpdateWrite (m : Fin 2) (seq : BitVec 16) (addr : BitVec 64) (len ofs : BitVec 32) (s : State) :
    Host.Outcome State Fault Refusal :=
  .next (s.mailbox m 2 seq (twoWords addr.toNat ++ [len.toNat, ofs.toNat]))
/-- UPDATE_ACTIVATE (R463). -/
def execUpdateActivate (m : Fin 2) (seq : BitVec 16) (s : State) : Host.Outcome State Fault Refusal := .next (s.mailbox m 3 seq [])
/-- UPDATE_CONFIRM (R463). -/
def execUpdateConfirm (m : Fin 2) (seq : BitVec 16) (s : State) : Host.Outcome State Fault Refusal := .next (s.mailbox m 4 seq [])
/-- LOAD_IMAGE (R318, R319). -/
def execLoadImage (m : Fin 2) (seq : BitVec 16) (id : BitVec 64) (mask : BitVec 32) (s : State) :
    Host.Outcome State Fault Refusal :=
  .next (s.mailbox m 5 seq (twoWords id.toNat ++ [mask.toNat]))
/-- WGH_PASSTHROUGH (R445). -/
def execWghPassthrough (m : Fin 2) (seq : BitVec 16) (words : List (BitVec 32)) (s : State) : Host.Outcome State Fault Refusal :=
  .next (s.mailbox m 6 seq (words.map BitVec.toNat))
/-- LC_REQ (R469). -/
def execLcReq (m : Fin 2) (seq : BitVec 16) (target : BitVec 32) (s : State) : Host.Outcome State Fault Refusal :=
  .next (s.mailbox m 7 seq [target.toNat])
/-- KEY_PROG (R456). -/
def execKeyProg (m : Fin 2) (seq : BitVec 16) (slot : BitVec 32) (s : State) : Host.Outcome State Fault Refusal :=
  .next (s.mailbox m 8 seq [slot.toNat])
/-- REVOKE (R456). -/
def execRevoke (m : Fin 2) (seq : BitVec 16) (slot : BitVec 32) (s : State) : Host.Outcome State Fault Refusal :=
  .next (s.mailbox m 9 seq [slot.toNat])
/-- SHUTDOWN (R474): `v` is the outcome of the short set. -/
def execShutdown (m : Fin 2) (seq : BitVec 16) (lbist : Bool) (v : Lbist) (s : State) : Host.Outcome State Fault Refusal :=
  .next (s.mailbox m 10 seq [lbist.toNat] (some (lbPack v)))
/-- LBIST_RUN (R478): `v` is the outcome of the full set. -/
def execLbistRun (m : Fin 2) (seq : BitVec 16) (v : Lbist) (s : State) : Host.Outcome State Fault Refusal :=
  .next (s.mailbox m 11 seq [] (some (lbPack v)))
/-- ALMANAC_WRITE (R120). -/
def execAlmanacWrite (m : Fin 2) (seq : BitVec 16) (set : BitVec 32) (addr : BitVec 64) (s : State) :
    Host.Outcome State Fault Refusal :=
  .next (s.mailbox m 12 seq (set.toNat :: twoWords addr.toNat))
/-- CONTEXT_RESTORE (R493). -/
def execContextRestore (m : Fin 2) (seq : BitVec 16) (dom : BitVec 32) (s : State) : Host.Outcome State Fault Refusal :=
  .next (s.mailbox m 13 seq [dom.toNat])
/-- UNMARK (R476). -/
def execUnmark (m : Fin 2) (seq : BitVec 16) (loc : BitVec 32) (s : State) : Host.Outcome State Fault Refusal :=
  .next (s.mailbox m 14 seq [loc.toNat])
/-- RECOVERY_GO (R462). -/
def execRecoveryGo (m : Fin 2) (seq : BitVec 16) (s : State) : Host.Outcome State Fault Refusal := .next (s.mailbox m 15 seq [])

end Sys2Proof.Machine
end

