-- ==== Sys2Proof/Machine/Sense.lean ====
section
/-! DEFINITION. The Hearth's sensors (R453), the Almanac sets it checks (R120), the VCORE code (R485, R560), thermal trips
(R557) and the life counters (R558-R561). -/

namespace Sys2Proof.Machine

/-! ## Sensors -/

/-- Almanac set k fails its check (R120): skipped, reported, logged; the fixed delays are evaluated again. -/
def State.almFail (s : State) (k : Nat) : State :=
  if s.variant ≠ .x ∨ bit k (s.h .almBad) then s
  else
    let s := (s.setH .almBad 0 (setBit k (s.h .almBad))).ledger 0x0003 true locHearth k
    let s := s.raise .HRT_ALMANAC_SET_BAD locHearth k
    (List.range 74).foldl (fun s n => if s.up .LANE n then s.calEval n else s) s

/-- REE.SENSOR_LIMIT with the number of the sensor (R453), or 3, the kind of the ageing monitors (R560). -/
def State.sensorLimit (s : State) (n : Nat) : State := s.raise .REE_SENSOR_LIMIT locHearth n

/-- Nominal voltage of monitor i in mV (Table 14.3); none for the PD input. -/
def State.voltNom (s : State) (i : Nat) : Option Nat :=
  if i ≤ 1 then some (700 + 5 * s.rd (.hrt .SUPPLY_VID) 0)
  else if i ≤ 4 then some 800 else if i ≤ 6 then some 1200 else if i = 7 then some 1800 else if i ≤ 11 then some 1100
  else if i = 12 then some 1800 else if i = 13 then some 3300 else if i = 14 then some 1500 else none

/-- A temperature in 1/16 °C, as a number that grows with it. -/
def tempRank (v : Nat) : Nat := (toS 16 v + 32768).toNat

/-- A temperature reading: published, judged against its band, kept for the minute, and the fixed delays of the sensor's
lanes follow a change of 0.5 °C (R119, R453, R559). -/
def State.tempSample (s : State) (i v : Nat) : State :=
  let s := s.wr (.ree .TEMP_T) i v
  let t := toS 16 v
  let s := if i ≤ 21 then s.setH .tjMax 0 (max (s.h .tjMax) (tempRank v + 1)) else s
  let s := if ¬ (i = 23 ∧ v = 0x8000) ∧ (t < 16 * s.rdS (.ree .TEMP_LIM_LO) i ∨ 16 * s.rdS (.ree .TEMP_LIM_HI) i < t) then
      s.sensorLimit i else s
  let s := (List.range 74).foldl (fun s n =>
    let last := s.h .calTemp n
    if laneSensor n = i ∧ s.up .LANE n ∧ (last = 0 ∨ 8 ≤ (t - toS 16 (last - 1)).natAbs) then s.calEval n else s) s
  if i = s.rd (.sel .HOLD_CFG_TSENS) 0 then s.dacDormant else s

/-- Mean loss of the ageing monitors in whole percent. -/
def State.ageLoss (s : State) : Nat := (List.range 8).foldl (fun n i => n + s.rd (.ree .AGE_LOSS) i) 0 / 800

/-- The VCORE code the ageing calls for, before its cap (R485). -/
def State.vidCalled (s : State) : Nat := min Config.almVid 20 + s.ageLoss

/-- A sensor reading is published (R453). -/
def State.sensorSample (s : State) (x : Sens) : State :=
  match x with
  | .temp i v => s.tempSample i.val v.toNat
  | .volt i v =>
    let s := s.wr (.ree .VOLT_V) i.val v.toNat
    match s.voltNom i.val with
    | some n => if 100 * v.toNat < 95 * n ∨ 105 * n < 100 * v.toNat then s.sensorLimit i.val else s
    | none => s
  | .proc i v => s.wr (.ree .PROC_F) i.val v.toNat
  | .age i v =>
    let s := s.wr (.ree .AGE_LOSS) i.val v.toNat
    if 20 < s.vidCalled ∧ ¬ s.on (.hrt .LIFE_ST_VID_CAP) 0 then (s.wr (.hrt .LIFE_ST_VID_CAP) 0 1).sensorLimit 3 else s

/-- SENSOR_SAMPLE (R453); `bad`: an Almanac set read for it that fails its check (R120). -/
def execSensorSample (x : Sens) (bad : Option (Fin 17)) (s : State) : Host.Outcome State Fault Refusal :=
  .next (s.inDom .hearth (fun s =>
    let s := s.sensorSample x
    match bad with | some k => s.almFail k.val | none => s))

/-- VID_STEP (R485): the code moves by one toward the target, 1 ms after the last move. -/
def execVidStep (s : State) : Host.Outcome State Fault Refusal :=
  .next (s.inDom .hearth (fun s =>
    let n := s.rd (.hrt .SUPPLY_VID) 0
    let goal := min s.vidCalled 20
    (s.pass (msTicks 1)).wr (.hrt .SUPPLY_VID) 0 (if n < goal then n + 1 else if goal < n then n - 1 else n)))

/-! ## Thermal trip -/

/-- THERMAL_TRIP (R557): sensor i reads 125 °C or more. The third trip within 3600 s ends like the recovery ladder. -/
def State.thermalTrip (s : State) (i v : Nat) : State :=
  if toS 16 v < 2000 then s
  else
    let third := s.within (s.h .tripAge 1) 3600
    let s := (s.setH .tripAge 1 (s.h .tripAge 0)).setH .tripAge 0 (s.age + 1)
    let s := (s.mainsOff [.N, .F, .W]).mainEnLow (if third then 3 else 4)
    let s := (s.setH .mainEnAt 0 (s.age + 60 * ticksPerSec)).setH .startKind 0 10
    let s := (s.wr (.hrt .RESET_LAST) 0 9).ledger 0x000E true locHearth (i + 2 ^ 16 * v)
    (s.raise .HRT_THERMAL_TRIP locHearth (i + 2 ^ 16 * v)).count (.hrt .LIFE_ST_TRIP_CNT) 0

/-- THERMAL_TRIP (R557). -/
def execThermalTrip (i : Fin 22) (v : BitVec 16) (s : State) : Host.Outcome State Fault Refusal :=
  .next (s.inDom .hearth (fun s => s.thermalTrip i.val v.toNat))

/-- THERMAL_RELEASE (R557): 60 s after the trip MAIN_EN is released; the start follows once the rails are good. -/
def execThermalRelease (s : State) : Host.Outcome State Fault Refusal :=
  .next (s.inDom .hearth (fun s => s.when (s.h .mainEn == 4) (fun s => (s.passAge (s.h .mainEnAt)).setH .mainEn 0 0)))

/-! ## Life counters -/

/-- Band of a reading in 1/16 °C (Table 18.10). -/
def lifeBand (t : Int) : Nat :=
  if t < 1360 then 0 else if t < 1520 then 1 else if t < 1680 then 2 else if t < 1840 then 3 else if t < 2000 then 4 else 5

/-- Weight of a band in units of 0.5 h. -/
def lifeWeight (b : Nat) : Nat := 2 ^ b

/-- LIFE_MINUTE (R559): while CORE is on, the minute counts in the band of its highest reading. -/
def State.lifeMinute (s : State) : State :=
  let r := if s.h .tjMax ≠ 0 then s.h .tjMax - 1
    else (List.range 22).foldl (fun m i => max m (tempRank (s.rd (.ree .TEMP_T) i))) 0
  let t : Int := (r : Int) - 32768
  let s := s.setH .tjMax 0 0
  if ¬ s.domOn .core then s
  else
    let s := s.setH .lifeMin (lifeBand t) (s.h .lifeMin (lifeBand t) + 1)
    if s.rdS (.hrt .LIFE_MAX_TJ_MAX) 0 < t then s.wrS (.hrt .LIFE_MAX_TJ_MAX) 0 t else s

/-- LIFE_MINUTE (R559). -/
def execLifeMinute (s : State) : Host.Outcome State Fault Refusal := .next (s.inDom .hearth State.lifeMinute)

/-- LIFE_HOUR (R559, R561): whole hours move into the counters and EQUIV; the budget's end is reported once. -/
def State.lifeHour (s : State) : State :=
  let s := (List.range 6).foldl (fun s b =>
    let h := s.h .lifeMin b / 60
    let s := (s.setH .lifeMin b (s.h .lifeMin b % 60)).count (.hrt .LIFEH_HOURS) b h
    s.count (.hrt .LIFE_EQ_EQUIV) 0 (h * lifeWeight b)) s
  if 701280 ≤ s.rd (.hrt .LIFE_EQ_EQUIV) 0 ∧ ¬ s.on (.hrt .LIFE_ST_BUDGET_OUT) 0 then
    ((s.wr (.hrt .LIFE_ST_BUDGET_OUT) 0 1).ledger 0x000F true locHearth 0).raise .REE_SENSOR_LIMIT locHearth
  else s

/-- LIFE_HOUR (R559). -/
def execLifeHour (s : State) : Host.Outcome State Fault Refusal := .next (s.inDom .hearth State.lifeHour)

end Sys2Proof.Machine
end

