-- ==== Sys2Proof/Machine/Tally.lean ====
section
/-! DEFINITION. What the Crier does after a raise (holds, REARM, the Reeve's record FIFO, MSI-X masks: R516, R519) and the
Tally: counters, dumps and instruction sampling (R520-R526). The signals a counter counts come from outside the model: a
counter is brought up to date when something looks at it, in CYCLES mode exactly, in the other modes by a free value. -/

namespace Sys2Proof.Machine

/-! ## Delivery -/

/-- The end of vector v's hold: one message, if it went pending again and still is (R516). -/
def State.holdEnd (s : State) (v : Nat) : State :=
  if s.h .vecHold v = 0 then s
  else
    let again := s.h .vecAgain v == 1 && s.vecPending v
    let s := (s.setH .vecHold v 0).setH .vecAgain v 0
    if again then s.vecSend v else s

/-- VECTOR_HOLD_EXPIRY (R516). -/
def execVectorHoldExpiry (v : Fin 64) (s : State) : Host.Outcome State Fault Refusal :=
  .next (s.inUnit .CRI 0 (fun s => s.holdEnd v))

/-- A write of 1 to CRI_VEC[v].REARM resends the message of a pending vector (R516). -/
def State.rearm (s : State) (v : Nat) : State := if s.vecPending v then s.vecSend v else s

/-- REARM_WRITE (R516). -/
def execRearmWrite (r : Req) (v : Fin 64) (s : State) : Host.Outcome State Fault Refusal :=
  .next (s.writeTo r .CRIVEC v (fun s => s.rearm v))

/-- A record with SRC 0x7FF: what an empty FIFO returns (R519). -/
def emptyRec : Nat := 0x7FF * 2 ^ 96

/-- CRI_RFIFO word 0 is read: by the Reeve, the oldest record leaves the FIFO for the Reeve's latch; by any other requester
it reads 0 (R519, Table 16.8). -/
def State.rfifoRead (s : State) (r : Req) : State :=
  if r ≠ .reeve then s.ok
  else match s.rfifo with
    | [] => (s.setLatch r (emptyRec / 2 ^ 32) .reeve).ok (emptyRec % 2 ^ 32)
    | x :: l => (State.setLatch { s with rfifo := l } r (x.toNat / 2 ^ 32) .reeve).ok (x.toNat % 2 ^ 32)

/-- RFIFO_READ (R519). -/
def execRfifoRead (r : Req) (s : State) : Host.Outcome State Fault Refusal :=
  .next (match s.access r .CRI 0 with | some s' => s' | none => s.rfifoRead r)

/-- The host unmasks vector v in the MSI-X table: a message held with its pending bit is sent (R516). -/
def State.unmask (s : State) (v : Nat) : State :=
  let s := s.setH .msixOpen v 1
  if s.h .msixPend v = 1 then (s.setH .msixPend v 0).setH .vecMsgs v (s.h .vecMsgs v + 1) else s

/-- MSIX_VECTOR_UNMASK (R516). -/
def execMsixVectorUnmask (v : Fin 64) (s : State) : Host.Outcome State Fault Refusal :=
  .next (s.inUnit .CRI 0 (fun s => s.unmask v))

/-! ## Counters -/

/-- What a location word names for a counter's signal: its unit works (`some true`), stands still (`some false`), or there is
no such pair of unit and signal on the variant (Table 16.4). -/
def State.talUnit (s : State) (loc sig : Nat) : Option Bool :=
  let i := bits 12 9 loc
  let die := bits 26 3 loc
  let core := s.domOn .core
  let named := fun (ok : Bool) (l : Nat) (up : Bool) => if ok && loc == l then some up else none
  match bits 21 5 loc with
  | 0x06 =>
    if sig ≤ 5 then named (s.variant.hasLane i) (locLane i) (s.up .LANE i)
    else named (s.variant.hasPort i && ((0x10 ≤ sig && sig ≤ 0x16) || (0x40 ≤ sig && sig ≤ 0x57))) (locLane i) (s.up .PORT i)
  | 0x03 => named (decide (i < 8 ∧ sig ≤ 3)) (locSlice i) (core && !bit i (s.h .pairBad))
  | 0x09 => named (s.variant.hasEngine i && decide (sig ≤ 7)) (locEngine i) (s.up .ENG i && !s.on (.eng .CTL_UNUSABLE) i)
  | 0x07 => named (decide (i < 48 ∧ sig ≤ 1)) (locBank i) (core && !bit i (s.h .bankBad))
  | 0x0B => named (decide (2 ≤ die ∧ i < 16 ∧ sig ≤ 2) && s.variant.hasStack (die - 2)) (locWord 6 die 0x0B i) (s.stackReady (die - 2))
  | 0x0C => named (decide (sig ≤ 3)) locBell (s.domOn .bell)
  | 0x01 => named (decide (0x10 ≤ sig ∧ sig ≤ 0x17)) (locWord 6 0 0x01 0) core
  | _ => none

/-- Market cycles up to `age` t: 1.5 GHz, twelve to five bell ticks. -/
def marketCycles (t : Nat) : Nat := t * 12 / 5

/-- Counter i counts (R520). -/
def State.talCounts (s : State) (i : Nat) : Bool :=
  s.on (.tal .CTR_EN) i &&
  (s.rd (.tal .CTR_MODE) i == 3 || s.talUnit (s.h .talLoc i) (s.rd (.tal .CTR_SIG) i) == some true)

/-- OVF of counter i is set and TAL.OVERFLOW raised (R522). -/
def State.talOvf (s : State) (i detail : Nat) : State := (s.setBitF (.tal .OVF) 0 i).raise .TAL_OVERFLOW locReeve detail

/-- Counter i is brought up to date: CYCLES by the market cycles that have passed, ABOVE and AT_OR_BELOW by at most as many,
SUM by any amount. -/
def State.talBring (s : State) (i : Nat) : State :=
  if ¬ s.talCounts i then s
  else
    let cyc := marketCycles s.age - marketCycles (s.h .talAt i)
    let s := s.setH .talAt i s.age
    let m := s.rd (.tal .CTR_MODE) i
    let n := if m = 3 then cyc else if m = 0 then s.freeVal 48 else s.freeVal 48 % (cyc + 1)
    let s := if m = 3 then s else s.nextFree
    let v := s.rd (.tal .CTR_VAL) i + n
    let s := s.wr (.tal .CTR_VAL) i v
    if v < 2 ^ 48 then s else s.talOvf i i

/-- The Tally's clock is gated or ungated (R498): the counts so far are taken, and none is made while it stands. -/
def State.talGate (s : State) (on : Bool) : State :=
  (List.range 512).foldl (fun s i => if on then (if s.on (.tal .CTR_EN) i then s.setH .talAt i s.age else s)
    else s.talBring i) s

/-- A CFG write is accepted (R521): MODE 3 looks at neither LOC nor SIG. -/
def State.talCfgOk (s : State) (i w : Nat) : Bool :=
  bits 1 2 w == 3 || (s.talUnit (s.rd (.tal .CTR_LOC) i) (bits 8 8 w)).isSome

/-- CFG of counter i as a word. -/
def State.talCfgWord (s : State) (i : Nat) : Nat :=
  s.rd (.tal .CTR_EN) i + 2 * s.rd (.tal .CTR_MODE) i + 256 * s.rd (.tal .CTR_SIG) i

/-- A write of CFG of counter i, its old selection wrapping in the same cycle or not (R521, R522). -/
def State.talCfg (s : State) (i w : Nat) (wraps : Bool) : State :=
  let s := s.talBring i
  if ¬ s.talCfgOk i w then s.wr (.tal .CFG_REFUSED) 0 1
  else
    let wraps := wraps && s.talCounts i
    let old := s.talCfgWord i
    let s := s.clrBitF (.tal .OVF) 0 i
    let s := (s.setH .talLoc i (s.rd (.tal .CTR_LOC) i)).setH .talThr i (s.rd (.tal .CTR_THR) i)
    let s := ((s.wr (.tal .CTR_EN) i (bits 0 1 w)).wr (.tal .CTR_MODE) i (bits 1 2 w)).wr (.tal .CTR_SIG) i (bits 8 8 w)
    let s := ((s.wr (.tal .CTR_VAL) i (s.rd (.tal .CTR_PRELOAD) i)).setH .talResel i 1).setH .talAt i s.age
    if wraps then s.talOvf i (i + old * 2 ^ 32) else s

/-- TALLY_CFG_WRITE (R521). -/
def execTallyCfgWrite (r : Req) (i : Fin 512) (cfg : BitVec 32) (wraps : Bool) (s : State) : Host.Outcome State Fault Refusal :=
  .next (s.writeTo r .CTR i (fun s => s.talCfg i cfg.toNat wraps))

/-- COUNTER_WRAP (R522): a counting counter goes from 2^48 - 1 to 0. -/
def execCounterWrap (i : Fin 512) (s : State) : Host.Outcome State Fault Refusal :=
  .next (s.inUnit .CTR i (fun s => s.when (s.talCounts i) (fun s =>
    ((s.setH .talAt i s.age).wr (.tal .CTR_VAL) i 0).talOvf i i)))

/-! ## Dumps -/

/-- Octets written to host memory (LOC 0) or to the Cellar (LOC 1), where those of a stack that cannot be used are lost. -/
def State.locPut (s : State) (loc a : Nat) (b : List Byte) : State :=
  if loc = 0 then s.setBytes .host a b
  else if s.stackReady (a / 2 ^ 34) then s.setBytes .cellar a b else s

/-- Entry of counter i in a dump (Table 16.5). -/
def State.talEntry (s : State) (i : Nat) : Nat :=
  s.rd (.tal .CTR_VAL) i + s.h .talResel i * 2 ^ 61 + (if bit i (s.rd (.tal .OVF) 0) then 2 ^ 62 else 0) +
  s.rd (.tal .CTR_EN) i * 2 ^ 63

/-- The octets of a dump (Table 16.5). -/
def State.talDump (s : State) (first n : Nat) : List Byte :=
  leBytes 4 0x544C4C59 ++ leBytes 4 (s.rd (.tal .DUMP_SEQ) 0) ++ leBytes 12 s.bellNow ++ leBytes 2 first ++
    leBytes 2 (first + n - 1) ++ leBytes 40 0 ++ (List.range n).flatMap (fun j => leBytes 8 (s.talEntry (first + j)))

/-- A multiple of PERIOD is reached: the snapshot is dumped, or skipped while the last dump is not fully written (R524,
R525). -/
def State.tallyDump (s : State) (late : Bool) : State :=
  if late then (((s.count (.tal .DUMP_SKIP) 0).bump (.tal .DUMP_SEQ) 0).raise .TAL_DUMP_LATE locReeve)
  else
    let first := s.rd (.tal .DUMP_FIRST) 0
    let n := s.rd (.tal .DUMP_LAST) 0 + 1 - first
    let s := (List.range n).foldl (fun s j => s.talBring (first + j)) s
    let len := 64 + 8 * n
    let slot := s.rd (.tal .DUMP_SEQ) 0 % 2 ^ s.rd (.tal .DUMP_SLOTS_LOG) 0
    let a := s.rd (.tal .DUMP_BASE) 0 + slot * (len + Config.dumpGap len)
    let s := s.locPut (s.rd (.tal .DUMP_LOC) 0) a (s.talDump first n)
    let s := (List.range n).foldl (fun s j => s.setH .talResel (first + j) 0) s
    s.bump (.tal .DUMP_SEQ) 0

/-- The next multiple of PERIOD on bell time, in 2^-16 ns. -/
def State.nextDump (s : State) : Nat :=
  let p := s.rd (.tal .DUMP_PERIOD) 0 * 65536
  (s.nowU / p + 1) * p

/-- TALLY_DUMP (R524, R525). -/
def execTallyDump (late : Bool) (s : State) : Host.Outcome State Fault Refusal :=
  .next (s.inUnit .TAL 0 (fun s => s.when (s.on (.tal .DUMP_EN) 0 && s.domOn .bell) (fun s =>
    (s.passTo (tickAt s.nextDump)).tallyDump late)))

/-! ## Instruction sampling -/

/-- SAMPLE_TAG (R526): the pseudo-random part of the reload is a free value. -/
def execSampleTag (e : Fin 16) (s : State) : Host.Outcome State Fault Refusal :=
  .next (s.inUnit .TAL 0 (fun s => s.when (s.up .ENG e && s.on (.tal .SAMP_EN) e) (fun s =>
    ((s.setH .sampTag e 1).setH .sampCnt e
      (s.rd (.tal .SAMP_PERIOD) e + s.freeVal (s.rd (.tal .SAMP_JITTER_LOG) e))).nextFree)))

/-- The 32 octets of a sample record (Table 16.6); ISSUE, the engine's CYCLE at issue, is a free value. -/
def State.sampBytes (s : State) (e : Nat) (x : Sample) : List Byte :=
  let who := e + 16 * x.thread.val + 128 * s.rd (.eng .THR_TCTL_PRIV) (8 * e + x.thread.val)
  let flags := (1 - s.h .sampPhase e) + 2 * s.h .sampLost e + 4 * x.predFalse.toNat + 8 * x.exc.toNat
  leBytes 6 x.pc.toNat ++ leBytes 1 who ++ leBytes 1 flags ++ leBytes 4 x.insn.toNat ++ leBytes 8 (s.freeVal 64) ++
    leBytes 2 (min x.lat.toNat 65535) ++ leBytes 1 x.stall.toNat ++ leBytes 1 0 ++ leBytes 8 x.ea.toNat

/-- A sample record enters the engine's ring, or is dropped when it is full (R526, R202, R203). -/
def State.sampPut (s : State) (e : Nat) (x : Sample) : State :=
  let size := 2 ^ s.rd (.tal .SAMP_SIZE_LOG) e
  let head := s.rd (.tal .SAMP_HEAD) e
  if (head + 1) % size = s.rd (.tal .SAMP_TAIL) e % size then (s.count (.tal .SAMP_LOST) e).setH .sampLost e 1
  else
    let s := (s.locPut (s.rd (.tal .SAMP_LOC) e) (s.rd (.tal .SAMP_BASE) e + 32 * head) (s.sampBytes e x)).nextFree
    let s := (s.setH .sampLost e 0).wr (.tal .SAMP_HEAD) e ((head + 1) % size)
    let s := if head + 1 = size then s.setH .sampPhase e (1 - s.h .sampPhase e) else s
    let s := s.bump (.tal .SAMP_SAMPLES) e
    if s.rd (.tal .SAMP_SAMPLES) e % 2 ^ s.rd (.tal .SAMP_WM_LOG) e = 0 then s.raise .TAL_SAMPLE locReeve e else s

/-- SAMPLE_RECORD (R526): the tagged instruction of engine e completes. -/
def execSampleRecord (e : Fin 16) (x : Sample) (s : State) : Host.Outcome State Fault Refusal :=
  .next (s.inUnit .TAL 0 (fun s => s.when (s.up .ENG e && s.on (.tal .SAMP_EN) e && s.h .sampTag e == 1) (fun s =>
    (s.setH .sampTag e 0).sampPut e x)))

end Sys2Proof.Machine
end

