-- ==== Sys2Proof/Machine/Supply.lean ====
section
/-! DEFINITION. Rails and CAUTION (R483-R490), switching domains (R491-R493), clocks (R495-R498) and the resets and starts of
chapter 15 that the Hearth decides. -/

namespace Sys2Proof.Machine

/-! ## Switching domains -/

/-- Lane n is OFF. -/
def State.laneOff (s : State) (n : Nat) : Bool :=
  !s.variant.hasLane n || (s.rd (.lane .CTL_MODE) n == 0 && s.rd (.lane .STATUS_EFF_MODE) n == 0)

/-- Every lane from `a` to `b - 1` is OFF. -/
def State.lanesOff (s : State) (a b : Nat) : Bool := (List.range (b - a)).all (fun k => s.laneOff (a + k))

/-- A gather group of half h (or of either) is in RUN or DRAINING. -/
def State.gthBusy (s : State) : Bool := (List.range 512).any (fun g => gState s g == gRUN || gState s g == gDRAIN)

/-- A domain is quiet (Table 15.2). -/
def State.quiet (s : State) (d : Dom) : Bool :=
  match d with
  | .weigh => (List.range 4).all (fun k => s.rd (.wgh .SLOT_RUNSTATE) k == 0)
  | .trunkA => s.lanesOff 0 32
  | .trunkB => s.lanesOff 32 64
  | .spur => s.lanesOff 64 74
  | .engine =>
    (List.range 128).all (fun i => let t := s.tstate (i / 8) (i % 8); !s.variant.hasEngine (i / 8) || t == tIDLE || t == tHALTED) &&
    !s.gthBusy && s.on (.bell .STATUS_SRC_APPLIED) 0 &&
    !(List.range 72).any (fun p => s.on (.stamp .SPORT_CFG_RING_EN) p && s.on (.stamp .SPORT_CFG_RING_LOC) p)
  | .cellar =>
    !s.on (.pool .CTL_SPILL_EN) 0 && (List.range 360).all (fun i => i % 4 == 0 || s.rd (.pool .OWN_USE) i == 0) &&
    s.bins.all (fun b => b.home.isNone)
  | _ => false

/-- Domains that depend on `d` (Table 1.7). -/
def Dom.users (d : Dom) : List Dom := Dom.all.filter (fun e => decide (e.prereq = some d))

/-- The prerequisite of a domain is ON. -/
def State.prereqOn (s : State) (d : Dom) : Bool := match d.prereq with | none => true | some p => s.domOn p

/-- The request bit of a domain. -/
def reqBit (d : Dom) (v : Nat) : Bool := bit (d.idx - 1) v

/-- A request to switch domain `d` from `old` to `new` is allowed (R29, R491). -/
def State.switchOk (s : State) (r : Req) (d : Dom) (old new : Nat) : Bool :=
  if reqBit d old = reqBit d new then true
  else if d = .reeve then false
  else if d = .bell ∨ d = .core then r == .reeve && s.h .startWindow == 1 && reqBit d new && s.prereqOn d
  else if reqBit d new then s.prereqOn d
  else d.users.all (fun e => s.domState e == 0) && s.quiet d

/-- Domain `d` follows an accepted request. Before a switch-off the Reeve saves the context (R493). -/
def State.switch (s : State) (d : Dom) (old new : Nat) : State :=
  if reqBit d old = reqBit d new then s
  else if reqBit d new then s.setDom d 1
  else ((if s.rd (.ree .STATUS_RSTATE) 0 = 1 then s.ctxSave d else s).loseDoms [d] [.N, .F, .W]).ctxReport

/-- HRT_PWR_REQ is written (R29, R491): bits 9:1, RAILS_OFF. -/
def State.pwrReqWrite (s : State) (r : Req) (v : Nat) (railsOff : Bool) : State :=
  let s := s.wr (.hrt .PWR_REQ_RAILS_OFF) 0 railsOff.toNat
  let old := s.rd (.hrt .PWR_REQ) 0
  let ds := Dom.all.drop 1
  if ds.all (fun d => s.switchOk r d old v) then
    ds.foldl (fun s d => s.switch d old v) (s.wr (.hrt .PWR_REQ) 0 v)
  else (s.wr (.hrt .PWR_REQ_CFG_REFUSED) 0 1).raise .GLB_DOMAIN_REFUSED locHearth

/-- HRT_PWR_REQ_WRITE (R491). -/
def execHrtPwrReqWrite (r : Req) (req : BitVec 9) (railsOff : Bool) (s : State) : Host.Outcome State Fault Refusal :=
  .next (s.writeTo r .HRT 0 (fun s => s.pwrReqWrite r req.toNat railsOff))

/-! ## Rails -/

/-- Domains whose supplies have come back start again where their request bit still stands (R484, R488). -/
def State.domReturn (s : State) : State :=
  (Dom.all.drop 1).foldl (fun s d =>
    if reqBit d (s.rd (.hrt .PWR_REQ) 0) ∧ s.supplyGood d ∧ s.h .startKind = 0 ∧ s.mainsFree ∧
      (s.domState d = 2 ∨ (s.domState d = 0 ∧ (d = .weigh ∨ s.domOn .reeve))) then s.setDom d 1 else s) s

/-- RAIL_GOOD (R484). -/
def execRailGood (rail : Fin 8) (s : State) : Host.Outcome State Fault Refusal :=
  .next (s.inDom .hearth (fun s => (s.setBitF (.hrt .SUPPLY_GOOD) 0 rail.val).domReturn))

/-- SUPPLY_CAUTION_ENTRY (R487): a rail is below warning, `mv` its lowest voltage so far. -/
def State.cautionEntry (s : State) (rail mv : Nat) : State :=
  if s.on (.hrt .SUPPLY_CAUTION) 0 then s.wr (.hrt .VMIN) 0 (min mv (s.rd (.hrt .VMIN) 0))
  else
    let s := ((s.wr (.hrt .SUPPLY_CAUTION) 0 1).wr (.hrt .SUPPLY_RAIL) 0 rail).wr (.hrt .VMIN) 0 mv
    let s := (s.count (.hrt .VMIN_CAUTION_CNT) 0).raise .HRT_SUPPLY_CAUTION locHearth rail
    if s.domOn .bell then s.wr (.bell .STATUS_GATE_CAUTION) 0 1 else s

/-- SUPPLY_CAUTION_ENTRY (R487). -/
def execSupplyCautionEntry (rail : Fin 8) (mv : BitVec 16) (s : State) : Host.Outcome State Fault Refusal :=
  .next (s.inDom .hearth (fun s => s.cautionEntry rail.val mv.toNat))

/-- CAUTION ends (R487): the Reeve logs the rail and the minimum (Table 14.5). -/
def State.cautionExit (s : State) : State :=
  if ¬ s.on (.hrt .SUPPLY_CAUTION) 0 then s
  else
    let s := ((s.wr (.hrt .SUPPLY_CAUTION) 0 0).setH .cautionEnd 0 s.age).raise .HRT_SUPPLY_CAUTION_EXIT locHearth
    if s.domOn .reeve then
      s.ledger 0x0005 false locHearth (s.rd (.hrt .SUPPLY_RAIL) 0 + 2 ^ 16 * s.rd (.hrt .VMIN) 0) .reeve
    else s

/-- SUPPLY_CAUTION_EXIT (R487): every rail has been above its warning level for 100 µs. -/
def execSupplyCautionExit (s : State) : Host.Outcome State Fault Refusal := .next (s.inDom .hearth State.cautionExit)

/-- The domains of a list and those that depend on them (R28). -/
def closeDoms (l : List Dom) : List Dom :=
  let up (l : List Dom) : List Dom := Dom.all.filter (fun d => l.contains d || (match d.prereq with | some p => l.contains p | none => false))
  up (up (up l))

/-- Hearth power is lost (R488): everything but NVM, OTP and memory outside the part. -/
def State.hearthLost (s : State) : State :=
  let s := s.loseDoms Dom.all [.N, .F, .W, .H]
  { s with now := 0, coarse := 0, hist := [], held := [] }

/-- A rail is below its reset level (R488). While the Hearth itself holds the main rails off, no main domain has power to
lose. -/
def State.supplyReset (s : State) (rail : Nat) : State :=
  if rail = 0 then s.hearthLost
  else
    let s := s.wr (.hrt .SUPPLY_GOOD) 0 (clrBit rail (s.rd (.hrt .SUPPLY_GOOD) 0))
    let s := s.cautionExit.count (.hrt .RESET_SUPPLY_CNT) 0
    let fed := closeDoms (Dom.all.filter (fun d => (domRails d).contains rail))
    if fed.contains .reeve then
      if s.h .mainEn = 0 then (s.mainsOff [.N, .F, .W]).setH .startKind 0 6 else s
    else
      let s := if fed.contains .core then s
        else (List.range 72).foldl (fun s p =>
          if s.variant.hasPort p ∧ s.domOn (laneDom p) ∧ fed.contains (laneDom p) then s.linkDown p true else s) s
      let s := if fed.contains .cellar ∧ s.domOn .cellar then s.stacksLost (fun _ => true) else s
      (s.loseDoms (fed.filter (fun d => s.domState d != 0)) [.N, .F, .W]).ctxReport

/-- SUPPLY_RESET (R488). -/
def execSupplyReset (rail : Fin 8) (s : State) : Host.Outcome State Fault Refusal :=
  .next (s.inDom .hearth (fun s => s.supplyReset rail.val))

/-- HEARTH_SRC_CHANGE (R489): the source that carries the load, PSE power, the class granted. -/
def State.srcChange (s : State) (src pd cls : Nat) : State :=
  let old := s.rd (.hrt .LINE_SRC) 0
  let s := ((s.wr (.hrt .LINE_SRC) 0 src).wr (.hrt .LINE_PD_POWERED) 0 pd).wr (.hrt .LINE_CLASS) 0 cls
  if old = src then s else s.raise .HRT_HEARTH_SRC locHearth src

/-- HEARTH_SRC_CHANGE (R489). -/
def execHearthSrcChange (src : Fin 3) (pd : Bool) (cls : BitVec 4) (s : State) : Host.Outcome State Fault Refusal :=
  .next (s.inDom .hearth (fun s => s.srcChange src.val pd.toNat cls.toNat))

/-! ## Clocks -/

/-- MAIN_EN is released where it is low for a reason: 1 DORMANT, 3 the ladder's end. -/
def State.mainEnFree (s : State) (why : Nat) : State := if s.h .mainEn = why then s.setH .mainEn 0 0 else s

/-- CRYSTAL_STABLE (R495); after a loss a Hearth-kept start follows (R496). -/
def execCrystalStable (s : State) : Host.Outcome State Fault Refusal :=
  .next (s.inDom .hearth (fun s =>
    let s := (s.pass (msTicks 2)).wr (.hrt .CLK_XTAL_OK) 0 1
    if bit 1 (s.h .mainHold) then ((s.setH .mainHold 0 (clrBit 1 (s.h .mainHold))).mainEnFree 1).startWhen 6 else s))

/-- CRYSTAL_STABLE_TIMEOUT (R495). -/
def execCrystalStableTimeout (s : State) : Host.Outcome State Fault Refusal :=
  .next (s.inDom .hearth (fun s => s.when (!s.on (.hrt .CLK_XTAL_OK) 0)
    (fun s => (s.pass (msTicks 100)).raise .GLB_CLOCK_FAULT locHearth)))

/-- CRYSTAL_LOSS (R496): the main domains are held in reset. -/
def execCrystalLoss (s : State) : Host.Outcome State Fault Refusal :=
  .next (s.inDom .hearth (fun s => s.when (s.on (.hrt .CLK_XTAL_OK) 0) (fun s =>
    let s := ((s.wr (.hrt .CLK_XTAL_OK) 0 0).count (.hrt .CLK_XTAL_LOSS) 0).raise .GLB_CLOCK_FAULT locHearth
    ((s.mainsOff [.N, .F, .W]).setH .mainHold 0 (setBit 1 (s.h .mainHold))).wr (.hrt .RESET_LAST) 0 6)))

/-- The holdover history is discarded (R497). -/
def State.histDiscard (s : State) : State := ({ s with hist := [] }).histRestart.wrAll [.sel .HOLD_HIST_S, .sel .HOLD_STAT_HIST_VALID] 0 0

/-- OCXO_LOSS (R497). -/
def execOcxoLoss (s : State) : Host.Outcome State Fault Refusal :=
  .next (s.inDom .hearth (fun s => s.when (s.rd (.hrt .CLK_HSRC) 0 == 0) (fun s =>
    let s := ((s.wr (.hrt .CLK_HSRC) 0 1).wr (.hrt .CLK_OCXO_PRESENT) 0 0).setH .ocxoLost 0 1
    s.histDiscard.raise .GLB_CLOCK_FAULT locHearth)))

/-- HCLK_RETRY is written 1; `present`: HCLK_IN is within its limits (R497). -/
def State.hclkRetry (s : State) (present : Bool) : State :=
  if present ∧ (s.mode = modeSurvey ∨ s.mode = modeService) then
    ((s.wr (.hrt .CLK_HSRC) 0 0).wr (.hrt .CLK_OCXO_PRESENT) 0 1).setH .ocxoLost 0 0
  else s

/-- HCLK_RETRY (R497). -/
def execHclkRetry (r : Req) (present : Bool) (s : State) : Host.Outcome State Fault Refusal :=
  .next (s.writeTo r .HRT 0 (fun s => s.hclkRetry present))

/-- One enable of GLB_CLK_EN: absent units ignore the write, a 0 needs a quiet block (R498). -/
def State.clkSet (s : State) (f : Fld) (k : Nat) (present v quiet : Bool) : State :=
  let old := s.rd f 0
  if ¬ present ∨ bit k old = v then s
  else if v then s.wr f 0 (setBit k old)
  else if quiet then s.wr f 0 (clrBit k old)
  else s.wr (.glb .CLK_EN_REFUSED) 0 1

/-- GLB_CLK_EN is written (R498, Table 15.3). -/
def State.clkEnWrite (s : State) (v : Nat) : State :=
  let s := (List.range 16).foldl (fun s q =>
    s.clkSet (.glb .CLK_EN_QUAD) q (s.variant.hasQuad q) (bit q v) (s.lanesOff (4 * q) (4 * q + 4))) s
  let s := s.clkSet (.glb .CLK_EN_SPUR) 0 true (bit 16 v) (s.lanesOff 64 72)
  let s := s.clkSet (.glb .CLK_EN_TWIN) 0 true (bit 17 v) (s.lanesOff 72 74 && s.role == twSOLO)
  let s := s.clkSet (.glb .CLK_EN_STAMP) 0 true (bit 18 v) (!s.on (.stamp .CTL_EN) 0)
  let tal := s.rd (.glb .CLK_EN_TAL) 0
  let s' := s.clkSet (.glb .CLK_EN_TAL) 0 true (bit 19 v) (!s.on (.tal .DUMP_EN) 0)
  let s := if s'.rd (.glb .CLK_EN_TAL) 0 = tal then s'
    else if bit 19 v then s'.talGate true else (s.talGate false).clkSet (.glb .CLK_EN_TAL) 0 true false true
  let s := (List.range 8).foldl (fun s m =>
    s.clkSet (.glb .CLK_EN_MOD) m true (bit (20 + m) v) (!s.on (.mod .CFG_ENABLE) m)) s
  let s := (List.range 2).foldl (fun s h =>
    s.clkSet (.glb .CLK_EN_GTH) h true (bit (28 + h) v) ((List.range 256).all (fun g => gState s (256 * h + g) == gOFF))) s
  let s := s.clkSet (.glb .CLK_EN_SURV) 0 true (bit 30 v) (s.rd (.surv .STATUS_STATE) 0 == 0)
  (List.range 4).foldl (fun s k =>
    s.clkSet (.glb .CLK_EN_CEL) k (s.variant.hasStack k) (bit (32 + k) v)
      (!s.on (.pool .CTL_OPEN) 0 || s.rd (.cel .STACK_STATE) k == 4)) s

/-- CLK_EN_WRITE (R498): the upper word is written with what the requester's hold register carries (R11); a 1 in bit 63
clears REFUSED. -/
def execClkEnWrite (r : Req) (v : BitVec 64) (s : State) : Host.Outcome State Fault Refusal :=
  .next (s.writeTo r .GLB 0 (fun s =>
    let s := if bit 63 v.toNat then s.wr (.glb .CLK_EN_REFUSED) 0 0 else s
    (s.clkEnWrite v.toNat).holdClear r (Fld.addr (.glb .CLK_EN_QUAD) 0)))

/-! ## Starts and resets -/

/-- COLD_START (R499): the whole package starts; `ocxo`: HCLK_IN measures 10 MHz ±50 ppm (R497). -/
def State.coldStart (s : State) (ocxo : Bool) : State :=
  let s := s.hearthLost.setDom .hearth 3
  let s := (s.setBitF (.hrt .SUPPLY_GOOD) 0 0).wr (.hrt .SUPPLY_VID) 0 (min Config.almVid 20)
  let s := (s.wr (.hrt .CLK_HSRC) 0 (if ocxo then 0 else 1)).wr (.hrt .CLK_OCXO_PRESENT) 0 ocxo.toNat
  let s := s.wr (.wgh .STATUS_SEALED) 0 (if s.lc = 3 then 1 else 0)
  ((s.setDom .weigh 1).setDom .reeve 1).setH .bootPend 0 1

/-- COLD_START (R499). -/
def execColdStart (ocxo : Bool) (s : State) : Host.Outcome State Fault Refusal := .next (s.coldStart ocxo)

/-- HEARTH_KEPT_START (R499): the main rails are good while the Hearth stayed up. -/
def execHearthKeptStart (s : State) : Host.Outcome State Fault Refusal :=
  .next (s.inDom .hearth (fun s =>
    if ¬ s.mainsGood ∨ ¬ s.mainsFree then s
    else if s.h .startKind ≠ 0 then s.startMains (s.h .startKind - 1)
    else if s.domState .reeve = 0 then s.startMains 1
    else s))

/-- PIN_RESET (R500): RESET_N is low; the main domains stay in reset. -/
def execPinReset (s : State) : Host.Outcome State Fault Refusal :=
  .next (s.inDom .hearth (fun s => (s.mainsOff [.N, .F, .W]).setH .mainHold 0 (setBit 0 (s.h .mainHold))))

/-- PIN_RESET_RELEASE (R500): it ends the hold of an exhausted ladder too. -/
def execPinResetRelease (s : State) : Host.Outcome State Fault Refusal :=
  .next (s.inDom .hearth (fun s => s.when (bit 0 (s.h .mainHold)) (fun s =>
    let s := s.setH .mainHold 0 (clrBit 0 (s.h .mainHold))
    ((s.mainEnFree 1).mainEnFree 3).startWhen 3)))

/-- The part sleeps in DORMANT. -/
def State.asleep (s : State) : Bool := s.domState .reeve == 0 && s.h .startKind == 0 && s.h .mainHold == 0 && decide (s.h .mainEn ≤ 1)

/-- WAKE (R494): by WAKE_N, or by the Hearth coarse time reaching HRT_WAKE_AT. -/
def execWake (pin : Bool) (s : State) : Host.Outcome State Fault Refusal :=
  .next (s.inDom .hearth (fun s =>
    if ¬ s.asleep then s
    else if pin then (if s.on (.hrt .WAKE_PIN_EN) 0 then (s.setH .mainEn 0 0).startWhen 2 else s)
    else if s.on (.hrt .WAKE_EN) 0 then
      let at_ := (u96 (s.rd (.hrt .WAKE_AT_T) 0) * 10 + 65535) / 65536
      (((s.pass ((at_ - s.coarse + 15) / 16)).setH .mainEn 0 0)).startWhen 2
    else s))

/-- HEARTH_LINK_LOSS (R479): the Hearth link drops; `fails` attempts to retrain it fail, the third brings a warm reset. -/
def State.linkLoss (s : State) (fails : Nat) : State :=
  let s := s.setH .hlink 0 0
  let s := (List.range (min fails 3)).foldl (fun s k =>
    (s.passAge (s.age + msTicks (retryMs (k + 1)))).recovery 1 (k + 1) locHearth) s
  if 3 ≤ fails then s.step3 locHearth else s.setH .hlink 0 1

/-- HEARTH_LINK_LOSS (R479). -/
def execHearthLinkLoss (fails : Fin 4) (s : State) : Host.Outcome State Fault Refusal :=
  .next (s.inDom .reeve (fun s => s.linkLoss fails.val))

end Sys2Proof.Machine
end

