-- ==== Sys2Proof/Machine/Outputs.lean ====
section
/-! DEFINITION. The time-of-day output (R182) and the capture inputs (R183-R185). -/

namespace Sys2Proof.Machine

/-! ## Time of day (R182) -/

/-- Bits per second of a BAUD code. -/
def todBaud (c : Nat) : Nat := [9600, 19200, 38400, 115200].getD c 9600

/-- A message of `n` octets after `done` octets, the first start bit START ms after the edge, ends before 500 ms. -/
def todFits (start baud done n : Nat) : Bool :=
  1000 * (start * baud) + 10000000 * (done + n) < 500000 * baud

/-- The rising edge of PPSOUT[SRC] is there to follow. -/
def State.ppsDrives (s : State) (j : Nat) : Bool :=
  s.rdA (.sel .PPS_CTL_EN) j == 1 && !s.squelched (s.rd (.sel .PPS_CTL_SQUELCH) j)

/-- One message is sent, or TOD.OVERRUN raised; answers the octets on the line so far. -/
def State.todMsg (s : State) (start baud done n : Nat) : State × Nat :=
  if todFits start baud done n then (s.count (.sel .TOD_SENT) 0, done + n)
  else (s.raise .TOD_OVERRUN locBell, done)

/-- The two messages of a second, the second after the first. -/
def State.todTwo (s : State) (start baud : Nat) : State :=
  let r := s.todMsg start baud 0 Config.todEventLen
  (r.1.todMsg start baud r.2 Config.todAnnounceLen).1

/-- Ticks from a second's edge of output j to its first message, START ms later. -/
def State.todOff (s : State) (j start : Nat) : Nat :=
  (toS 24 (s.rdA (.sel .PPS_DLY_COARSE) j) * 100 / 1600 + msTicks start).toNat

/-- The messages of the next second. -/
def State.todSend (s : State) : State :=
  let j := s.rdA (.sel .TOD_SRC) 0
  let start := s.rdA (.sel .TOD_START) 0
  if s.rdA (.sel .TOD_EN) 0 = 0 ∨ ¬ s.ppsDrives j then s
  else
    let off := s.todOff j start
    (s.passTo ((s.now + ticksPerSec - 1 - off) / ticksPerSec * ticksPerSec + off)).todTwo start
      (todBaud (s.rdA (.sel .TOD_BAUD) 0))

/-- TOD_SEND (R182). -/
def execTodSend (s : State) : Host.Outcome State Fault Refusal := .next (s.inDom .bell State.todSend)

/-! ## Captures (R183-R185) -/

/-- Some capture FIFO holds a record. -/
def State.capsAny (s : State) : Bool := (List.range 8).any (fun k => !(s.cap k).isEmpty)

/-- A record enters FIFO k; a full FIFO drops it (R183). -/
def State.capPush (s : State) (k : Nat) (r : CapRec) : State :=
  let l := s.cap k
  if 64 ≤ l.length then (s.count (.sel .ECAP_CNT_OVERRUN) k).raise .ECAP_OVERRUN (locEcap k)
  else
    let any := s.capsAny
    let s := (s.setCap k (l ++ [r])).wr (.sel .ECAP_FILL_LEVEL) k (l.length + 1)
    if any then s else s.raise .ECAP_READY (locEcap k)

/-- A time in 2^-16 ns / 125, rounded once, in the 96-bit form (R8, R108). -/
def timeV (v : Int) : Nat := of96 (max 0 (divRound v 125)).toNat

/-- The generation a capture record carries: the new one while a step's phase shift runs (R82, R103). -/
def State.capGen (s : State) (k : Nat) : Nat :=
  if s.on (.bell .STATUS_STEPPING) 0 then s.h .unitGen 1 else s.h .unitGen (16 + k)

/-- An interval opens on side `side` of the pair at even input `e` (R185). -/
def State.ivBegin (s : State) (e side : Nat) (v : Int) (fl : Nat) : State :=
  (((s.setH .ivOpen e (side + 1)).setHS .ivStart e v).setH .ivFlags e fl).setH .ivAt e s.age

/-- An edge of the pair at even input `e` (R185): mode 1 unipolar, 2 bipolar. -/
def State.ivEdge (s : State) (e side mode : Nat) (v : Int) (fl : Nat) : State :=
  let op := s.h .ivOpen e
  if op = 0 then
    if mode = 1 ∧ side = 1 then s.count (.sel .ECAP_CNT_ORDER) e else s.ivBegin e side v fl
  else if op = side + 1 then (s.count (.sel .ECAP_CNT2_RESTART) e).ivBegin e side v fl
  else
    let d := v - s.hS .ivStart e
    let f := s.h .ivFlags e ||| fl
    let small := decide (d.natAbs < 81920)
    let r : CapRec :=
      { time := if small then 0 else timeV d.natAbs
        gen := s.capGen e, caution := bit 0 f, void := bit 1 f, iv := true, withinRes := small
        neg := mode == 2 && op == 2 }
    (s.setH .ivOpen e 0).capPush e r

/-- An edge at the ball of ECAPk, `ofs` × 10 ps after the present tick (R183). -/
def State.capEdge (s : State) (k : Nat) (rise : Bool) (ofs : Nat) : State :=
  let sel := s.rd (.sel .ECAP_CFG_EDGE) k
  if s.rdA (.sel .ECAP_CFG_EN) k = 0 ∨ (sel = 0 ∧ ¬ rise) ∨ (sel = 1 ∧ rise) then s
  else
    let at_ := s.age * 160 + ofs
    let last := s.h .ecapLast k
    if last ≠ 0 ∧ at_ + 1 - last ≤ 2000 then s.count (.sel .ECAP_CNT_DEAD) k
    else
      let s := s.setH .ecapLast k (at_ + 1)
      let v : Int := (s.nowV + ofs * 81920 : Nat) -
        (Config.ecapDelay k (s.rdS (.ree .TEMP_T) 19) + s.rdS (.sel .ECAP_CAB_DLY) k) * 125
      let fl := s.rd (.hrt .SUPPLY_CAUTION) 0 + (if s.on (.sel .OSTAT_LOCK) 0 then 0 else 2)
      let s := s.capPush k { time := timeV v, gen := s.capGen k, rise := rise, caution := bit 0 fl, void := bit 1 fl }
      let mode := s.rd (.sel .ECAP_CFG_IV_MODE) (k / 2 * 2)
      if mode = 0 then s else s.ivEdge (k / 2 * 2) (k % 2) mode v fl

/-- CAPTURE_EDGE (R183). -/
def execCaptureEdge (k : Fin 8) (rise : Bool) (ofs : Fin 160) (s : State) : Host.Outcome State Fault Refusal :=
  .next (s.inDom .bell (fun s => s.capEdge k rise ofs))

/-- An interval open longer than IV_MAX is discarded (R185). -/
def State.ivTimeout (s : State) (e : Nat) : State :=
  if s.h .ivOpen e = 0 then s
  else
    let s := s.passAge (s.h .ivAt e + usTicks (s.rd (.sel .ECAP_IVMAX_IV_MAX) e) + 1)
    (s.setH .ivOpen e 0).count (.sel .ECAP_CNT_TIMEOUT) e

/-- INTERVAL_TIMEOUT (R185). -/
def execIntervalTimeout (j : Fin 4) (s : State) : Host.Outcome State Fault Refusal :=
  .next (s.inDom .bell (fun s => s.ivTimeout (2 * j)))

/-- The FLAGS word of a record read (Table 5.15). -/
def CapRec.flags (r : CapRec) : Nat :=
  r.gen % 65536 + 2 ^ 16 * r.rise.toNat + 2 ^ 17 * r.caution.toNat + 2 ^ 18 * r.void.toNat + 2 ^ 19 +
    2 ^ 20 * r.iv.toNat + 2 ^ 21 * r.withinRes.toNat + 2 ^ 22 * r.neg.toNat

/-- A read of word 0 of FIFO k: the oldest record goes to the reader's latch, TIME's upper words and FLAGS above them; on an
empty FIFO VALID = 0 (R184). -/
def State.capRead (s : State) (r : Req) (k : Nat) : State × Nat :=
  match s.cap k with
  | [] => (s.setLatch r 0 .bell, 0)
  | e :: t =>
    (((s.setCap k t).wr (.sel .ECAP_FILL_LEVEL) k t.length).setLatch r (e.time / 2 ^ 32 + e.flags * 2 ^ 64) .bell,
      e.time % 2 ^ 32)

/-- CAPTURE_FIFO_READ (R184). -/
def execCaptureFifoRead (r : Req) (k : Fin 8) (s : State) : Host.Outcome State Fault Refusal :=
  .next (match s.access r .ECAP k with
    | some s' => s'
    | none => let (s', v) := s.capRead r k; s'.ok v)

end Sys2Proof.Machine
end

