-- ==== Sys2Proof/Machine/Ptp.lean ====
section
/-! DEFINITION. The peer-delay responder (R209, R210) and the observers (R211-R214). Message layouts are those of IEEE 1588
(log entry 51). -/

namespace Sys2Proof.Machine

/-! ## The peer-delay responder -/

/-- A 10-octet PTP timestamp of a time in 2^-16 ns: seconds and whole nanoseconds. -/
def ptpTs (u : Nat) : List Byte := beBytes 10 (of96 u / 65536)

/-- A response of the responder: message type, flags, cf, timestamp; the rest from the request's header `h` (R209). -/
def State.pdrFrame (s : State) (p : Nat) (da : Nat) (h : List Byte) (ty flags : Nat) (cf : Int) (ts : List Byte) :
    List Byte :=
  let hd := beBytes 1 (fieldAt h 0 1 / 16 * 16 + ty) ++ octetsAt h 1 1 ++ beBytes 2 54 ++ octetsAt h 4 2 ++
    beBytes 2 flags ++ beBytes 8 (ofS 64 cf) ++ beBytes 4 0 ++ beBytes 8 (s.rd (.stamp .CLKID) 0) ++ beBytes 2 (p + 1) ++
    octetsAt h 30 2 ++ [5, 0x7F]
  withFcs (padBody (beBytes 6 da ++ beBytes 6 (s.rd (.port .STA_ADDR) (8 * p)) ++ beBytes 2 0x88F7 ++ hd ++ ts ++
    octetsAt h 20 10))

/-- The request is one the responder answers (R209). -/
def State.pdrMatch (s : State) (p : Nat) (sd : Nat) (h : List Byte) : Bool :=
  let d := s.rd (.stamp .SPORT_CFG_PDR_DOM) p
  fieldAt h 0 1 % 16 == 2 && sdL4 sd == 0 && fieldAt h 4 1 == s.rd (.stamp .DOM_DOMAIN_NUM) d &&
  fieldAt h 0 1 / 16 == s.rd (.stamp .DOM_MAJOR_SDO) d && fieldAt h 5 1 == s.rd (.stamp .DOM_MINOR_SDO) d

/-- A frame of the responder waits to leave, with its stamp descriptor and REF. -/
def State.pdrPut (s : State) (p : Nat) (octets : List Byte) (sd ref : Nat) : State :=
  let md := mdSTAMP.put sd (mdREF.put ref (mdIN_PORT.put p 0))
  s.setCtl p (s.ctlOf p ++ [{ desc := { handle := 0, md := md }, queue := 0, octets := octets, own := 2 }])

/-- The responder acts on the frame it holds (R209, R210): with PDR_MODE = 1 a one-step Pdelay_Resp with TURNAROUND at
PLANE 1; with PDR_MODE = 2 a Pdelay_Resp with the arrival time, and a Pdelay_Resp_Follow_Up owed. -/
def State.pdrRespond (s : State) (p : Nat) : State :=
  match s.rxOf (72 + p) with
  | none => s
  | some r =>
    let s := s.setRx (72 + p) none
    let sd := mdSTAMP.get r.md
    let h := octetsAt (fcsBody r.octets) (sdHdr sd) 34
    let mode := s.rd (.stamp .SPORT_CFG_PDR_MODE) p
    if mode = 0 ∨ ¬ s.pdrMatch p sd h then s.count (.stamp .SPORT_PDR_DROP) p
    else if ¬ s.dlyOk p then s.count (.stamp .SPORT_CNT2_NOROLE) p
    else
      let da := frameDa r.octets
      let a := u96 (mdARR.get r.md) - s.fibreRx p
      let cf := toS 64 (fieldAt h 8 8)
      if mode = 1 then s.pdrPut p (s.pdrFrame p da h 3 0 cf (List.replicate 10 0)) (4 + 8 + 14 * 1024) (of96 a)
      else
        let s := s.pdrPut p (s.pdrFrame p da h 3 0x0200 (a % 65536 : Nat) (ptpTs a)) (14 * 1024) 0
        ((((s.setH .pdrFu p 1).setH .pdrFuData p (beNat h)).setHS .pdrFuCf p cf).setH .pdrFuDep p 0).setH .pdrDa p da

/-- PEER_DELAY_RESPOND (R209). -/
def execPeerDelayRespond (p : Fin 72) (s : State) : Host.Outcome State Fault Refusal :=
  .next (s.inUnit .PORT p (fun s => s.pdrRespond p))

/-- The owed Pdelay_Resp_Follow_Up, once its response has left: the fibre-plane departure, with the request's cf added
(R210). -/
def State.pdrFollow (s : State) (p : Nat) : State :=
  if s.h .pdrFu p = 0 ∨ s.h .pdrFuDep p = 0 then s
  else
    let d := s.h .pdrFuDep p - 1
    let f := s.pdrFrame p (s.h .pdrDa p) (beBytes 34 (s.h .pdrFuData p)) 0xA 0 (s.hS .pdrFuCf p + (d % 65536 : Nat)) (ptpTs d)
    ((s.pdrPut p f (14 * 1024) 0).setH .pdrFu p 0).setH .pdrFuDep p 0

/-- PDELAY_FOLLOW_UP_SEND (R210). -/
def execPdelayFollowUpSend (p : Fin 72) (s : State) : Host.Outcome State Fault Refusal :=
  .next (s.inUnit .PORT p (fun s => s.pdrFollow p))

/-! ## Observers -/

/-- A PTP timestamp in 2^-16 ns. -/
def tsU (t : BitVec 80) : Int := (t.toNat / 2 ^ 32 * 1000000000 + t.toNat % 2 ^ 32 : Nat) * (65536 : Int)

/-- The message is one observer o considers (R211). -/
def State.obsTakes (s : State) (o : Nat) (h : ObsHdr) (m : ObsMsg) : Bool :=
  let d := s.rd (.stamp .OBS_CFG_DOM) o
  s.on (.stamp .CTL_EN) 0 && s.on (.stamp .OBS_CFG_EN) o && h.port.val == s.rd (.stamp .OBS_CFG_PORT) o &&
  h.domain.toNat == s.rd (.stamp .DOM_DOMAIN_NUM) d && h.sdo.toNat == s.rd (.stamp .DOM_MAJOR_SDO) d &&
  (match m with
   | .delayReq .. | .pdelayReq .. => true
   | _ => h.spid.toNat == s.rd (.stamp .OBS_PARENT) o)

/-- ASYM of a port (R131). -/
def State.asym (s : State) (p : Nat) : Int := s.rdS (.lane .ASYM) p

/-- An exchange is complete, or discarded for a cause of R213. -/
def State.obsExch (s : State) (o : Nat) (bad : Bool) (ofs mpd : Int) (t2 : Int) : State :=
  if bad ∨ ¬ s.dlyOk (s.rd (.stamp .OBS_CFG_PORT) o) then s.count (.stamp .OBS_CNT_OBS_DISC) o
  else
    let s := s.count (.stamp .OBS_CNT_EXCH) o
    s.setObs o { s.obsOf o with exch := (s.obsOf o).exch ++ [(ofs, mpd, t2.toNat)] }

/-- A Sync is whole: with MECH = 1 and a mean link delay it makes an exchange (R212). -/
def State.obsWhole (s : State) (o : Nat) (x : ObsSync) : State :=
  if ¬ s.on (.stamp .OBS_CFG_MECH) o then s
  else match (s.obsOf o).mpd with
    | none => s
    | some mpd => s.obsExch o x.bad (x.t2 - x.t1 - mpd - s.asym (s.rd (.stamp .OBS_CFG_PORT) o)) mpd x.t2

/-- The exchange of a Delay_Resp with the latest Sync whose t2 precedes its request's t3 (R212, R213). -/
def State.obsE2E (s : State) (o : Nat) (req : ObsReq) (t4 : Int) : State :=
  match (s.obsOf o).syncs.find? (fun x => x.whole && decide (x.t2 < req.t3)) with
  | none => s
  | some x =>
    let a := x.t2 - x.t1
    let b := t4 - req.t3
    let bad := x.bad || req.bad || decide ((1000000000 * 65536 : Int) < req.t3 - x.t2)
    s.obsExch o bad (divRound (a - b) 2 - s.asym (s.rd (.stamp .OBS_CFG_PORT) o)) (divRound (a + b) 2) x.t2

/-- A peer-delay exchange is complete: the mean link delay (IEEE 1588), unless a stamp was VOID or CAUTION. -/
def State.obsPdDone (s : State) (o : Nat) (x : ObsPd) : State :=
  let st := s.obsOf o
  if x.bad then (s.setObs o { st with pd := none }).count (.stamp .OBS_CNT_OBS_DISC) o
  else s.setObs o { st with pd := none, mpd := some (divRound (x.t4 - x.t1 - x.sub) 2) }

/-- A message of the parent has come: both kinds end STALE (R214, log entry 52). -/
def State.obsSeen (s : State) (o k : Nat) : State :=
  let s := s.setH .obsHas o (setBit k (s.h .obsHas o))
  if s.h .obsHas o = 3 then (s.wr (.stamp .OBS_CFG_STALE) o 0).sigRefresh else s

/-- A message is paired (R212, R214). Its stamps are taken to the fibre plane (R193). -/
def State.obsMsg (s : State) (o : Nat) (h : ObsHdr) (m : ObsMsg) : State :=
  let p := h.port.val
  let seq := h.seq.toNat
  let cf := h.cf.toInt
  let st := s.obsOf o
  let rx := fun (x : ObsStamp) => (u96 x.time.toNat : Int) - s.fibreRx p
  let tx := fun (x : ObsStamp) => (u96 x.time.toNat : Int) + s.fibreTx p
  let bad := fun (x : ObsStamp) => x.void || x.caution
  match m with
  | .sync x two origin li =>
    let y : ObsSync := ⟨seq, tsU origin * (!two).toNat + cf, !two, rx x, bad x⟩
    let s := s.setObs o { st with syncs := (y :: st.syncs).take 16 }
    let s := ((s.setH .obsSync o (s.age + 1)).setH .obsSyncInt o li.toNat).obsSeen o 1
    if two then s else s.obsWhole o y
  | .followUp precise =>
    match st.syncs.find? (fun y => y.seq == seq && !y.whole) with
    | none => s
    | some y =>
      let y' : ObsSync := { y with t1 := y.t1 + tsU precise + cf, whole := true }
      (s.setObs o { st with syncs := st.syncs.map (fun z => if z = y then y' else z) }).obsWhole o y'
  | .delayReq x => s.setObs o { st with reqs := (⟨seq, tx x, bad x⟩ :: st.reqs).take 16 }
  | .delayResp receive =>
    if s.on (.stamp .OBS_CFG_MECH) o then s
    else match st.reqs.find? (fun y => y.seq == seq) with
      | none => s
      | some y => (s.setObs o { st with reqs := st.reqs.filter (fun z => z.seq != seq) }).obsE2E o y (tsU receive - cf)
  | .pdelayReq x => s.setObs o { st with pd := some { seq := seq, t1 := tx x, bad := bad x } }
  | .pdelayResp x two receipt =>
    match st.pd with
    | none => s
    | some y =>
      if y.seq ≠ seq then s
      else
        let y : ObsPd := { y with t4 := rx x, sub := cf - (if two then tsU receipt else 0), got := true, bad := y.bad || bad x }
        if two then s.setObs o { st with pd := some y } else s.obsPdDone o y
  | .pdelayRespFollowUp origin =>
    match st.pd with
    | none => s
    | some y => if y.seq = seq ∧ y.got then s.obsPdDone o { y with sub := y.sub + tsU origin + cf } else s
  | .announce cls acc li =>
    let s := s.wr (.stamp .OBS_ANN_CLASS) o cls.toNat
    let s := s.wr (.stamp .OBS_ANN_ACC) o acc.toNat
    let s := s.wr (.stamp .OBS_ANN_LOG_INT) o li.toNat
    ((s.setH .obsAnn o (s.age + 1)).obsSeen o 0).sigRefresh

/-- OBSERVER_MESSAGE (R212). -/
def execObserverMessage (o : Fin 4) (h : ObsHdr) (m : ObsMsg) (s : State) : Host.Outcome State Fault Refusal :=
  .next (s.inUnit .OBS o (fun s => s.when (s.obsTakes o h m) (fun s => s.obsMsg o h m)))

/-- Ticks of three message intervals, `v` a signed log2 of seconds. -/
def threeInts (v : Nat) : Nat :=
  let i := toS 8 v
  if 0 ≤ i then 3 * ticksPerSec * 2 ^ i.toNat else 3 * ticksPerSec / 2 ^ (-i).toNat

/-- The age at which observer o has lacked one of its parent's messages for three intervals (R214). -/
def State.obsDue (s : State) (o : Nat) : Option Nat :=
  let a := if s.h .obsAnn o = 0 then [] else [s.h .obsAnn o - 1 + threeInts (s.rd (.stamp .OBS_ANN_LOG_INT) o)]
  let y := if s.h .obsSync o = 0 then [] else [s.h .obsSync o - 1 + threeInts (s.h .obsSyncInt o)]
  match a ++ y with
  | [] => none
  | x :: l => some (l.foldl min x)

/-- Observer o goes STALE (R214). -/
def State.obsStale (s : State) (o : Nat) : State :=
  match s.obsDue o with
  | none => s
  | some t =>
    let s := (((s.passAge t).setH .obsHas o 0).setH .obsAnn o 0).setH .obsSync o 0
    ((s.wr (.stamp .OBS_CFG_STALE) o 1).raise .STAMP_OBS_STALE (locLane (s.rd (.stamp .OBS_CFG_PORT) o))).sigRefresh

/-- OBSERVER_STALE (R214). -/
def execObserverStale (o : Fin 4) (s : State) : Host.Outcome State Fault Refusal :=
  .next (s.inUnit .OBS o (fun s => s.when (s.on (.stamp .OBS_CFG_EN) o && s.on (.stamp .CTL_EN) 0) (fun s => s.obsStale o)))

/-- A write of PARENT, PORT or DOM clears the observer's pairing state (R211). -/
def State.obsClear (s : State) (o : Nat) : State :=
  (((s.setObs o {}).setH .obsHas o 0).setH .obsAnn o 0).setH .obsSync o 0

/-- STAMP_OBS CFG is written: a PORT above 71 is refused. -/
def State.obsCfg (s : State) (o w : Nat) : State :=
  let s := (s.wr (.stamp .OBS_CFG_EN) o (bits 0 1 w)).wr (.stamp .OBS_CFG_MECH) o (bits 11 1 w)
  let s := s.wr (.stamp .OBS_CFG_DOM) o (bits 8 3 w)
  let s := if bits 1 7 w < 72 then s.wr (.stamp .OBS_CFG_PORT) o (bits 1 7 w) else s.stampRefused
  (s.obsClear o).sigRefresh

/-- The write of an observer's configuration. -/
def State.obsWrite (s : State) (o : Nat) : ObsWrite → State
  | .cfg w => s.obsCfg o w.toNat
  | .parent v => ((s.wr (.stamp .OBS_PARENT) o v.toNat).obsClear o).sigRefresh

/-- OBSERVER_CFG_WRITE (R211). -/
def execObserverCfgWrite (r : Req) (o : Fin 4) (w : ObsWrite) (s : State) : Host.Outcome State Fault Refusal :=
  .next (s.writeTo r .OBS o (fun s => s.obsWrite o w))

/-- At a servo cycle boundary observer o posts the mean of the closing cycle's exchanges: registers, the slots that name it,
and the gate where such a slot steers the clock (R163, R213). -/
def State.obsPost (s : State) (o : Nat) : State :=
  let x := s.obsOf o
  match x.exch with
  | [] => s
  | l =>
    let ofs := meanOf (l.map (fun e => e.1))
    let at_ := (l.getLastD (0, 0, 0)).2.2
    let s := s.setObs o { x with exch := [] }
    let s := (s.wrS (.stamp .OBS_OFS) o ofs).wrS (.stamp .OBS_MPD) o (meanOf (l.map (fun e => e.2.1)))
    let s := (List.range 16).foldl (fun s n => if s.slotSrc n = 78 + o then s.wrS (.sel .SLOT_PHASE) n ofs else s) s
    if s.steers ∧ s.slotSrc (s.h .selSlot - 1) = 78 + o then
      s.measPost ofs (of96 at_) (s.rd (.sel .SLOT_SRC_ID) (s.h .selSlot - 1))
    else s

end Sys2Proof.Machine
end

