-- ==== Sys2Proof/Machine/Dma.lean ====
section
/-! DEFINITION. The PCIe endpoint and the frame DMA (R529-R535): its reset, BAR2, and the rings of the sixteen host queues. -/

namespace Sys2Proof.Machine

/-! ## Rings (R532) -/

/-- A refused write of a DMA queue. -/
def State.dmaRefused (s : State) (q : Nat) : State := s.wr (.glb .DMA_CFG_REFUSED) q 1

/-- One direction's SIZE_LOG: changed only while its ring is off, to 6-14. -/
def State.dmaSize (s : State) (q : Nat) (en size : Fld) (v : Nat) : State :=
  if v = s.rd size q then s
  else if s.on en q ∨ v < 6 ∨ 14 < v then s.dmaRefused q
  else s.wr size q v

/-- One direction's EN: going to 1 sets HEAD to 0 and PHASE to 1; going to 0 leaves later descriptors unread. -/
def State.dmaEn (s : State) (q : Nat) (en head : Fld) (phase : Hid) (v : Bool) : State :=
  if v = s.on en q then s
  else if v then ((s.wr en q 1).wr head q 0).setH phase q 0
  else s.wr en q 0

/-- DMA CFG of host queue q is written. -/
def State.dmaCfgWrite (s : State) (q w : Nat) : State :=
  let s := if bit 31 w then s.wr (.glb .DMA_CFG_REFUSED) q 0 else s
  let s := s.dmaSize q (.glb .DMA_CFG_RX_EN) (.glb .DMA_CFG_RX_SIZE_LOG) (bits 4 4 w)
  let s := s.dmaSize q (.glb .DMA_CFG_TX_EN) (.glb .DMA_CFG_TX_SIZE_LOG) (bits 8 4 w)
  let s := if bits 16 8 w = 0 then s.dmaRefused q else s.wr (.glb .DMA_CFG_WEIGHT) q (bits 16 8 w)
  let s := s.dmaEn q (.glb .DMA_CFG_RX_EN) (.glb .DMA_RXHT_HEAD) .dmaRxPhase (bit 0 w)
  s.dmaEn q (.glb .DMA_CFG_TX_EN) (.glb .DMA_TXHT_HEAD) .dmaTxPhase (bit 1 w)

/-- DMA_RING_ENABLE (R532): a write of DMA CFG. -/
def execDmaRingEnable (r : Req) (q : Fin 16) (w : BitVec 32) (s : State) : Host.Outcome State Fault Refusal :=
  .next (s.writeTo r .DMA q (fun s => s.dmaCfgWrite q w.toNat))

/-- HEAD of a ring advances; PHASE changes where it wraps (R202). -/
def State.dmaNext (s : State) (q : Nat) (size head : Fld) (phase : Hid) : State :=
  let h := s.rd head q + 1
  if h < 2 ^ s.rd size q then s.wr head q h else (s.wr head q 0).setH phase q (1 - s.h phase q)

/-- PHASE as a descriptor carries it. -/
def State.phaseBit (s : State) (phase : Hid) (q : Nat) : Nat := 1 - s.h phase q

/-! ## Transmission by the host (R533) -/

/-- STATUS codes of a transmit descriptor (Table 17.2). -/
def stSENT : Nat := 0
def stNO_BUFFER : Nat := 1
def stREFUSED : Nat := 2
def stBAD_LEN : Nat := 3
def stBAD_DEST : Nat := 4

/-- The metadata the host gives in a transmit descriptor at `a`: DESTW, STAMP and REF. -/
def State.dmaMd (s : State) (a : Nat) : Nat :=
  s.rdMem .host (a + 12) 4 * 2 ^ 224 + s.rdMem .host (a + 16) 4 * 2 ^ 192 + s.rdMem .host (a + 20) 12 * 2 ^ 256

/-- The frame at host address of descriptor `a` is copied into the granted cells `hs` and offered: STATUS. -/
def State.dmaCopy (s : State) (a len md : Nat) (hs : List Nat) : Nat × State :=
  let h := hs.headD 0
  let s := s.joinChain 1 (mdPFC_PRI.get md) hs
  let s := s.setFrameBytes h 0 (s.bytes .host (s.rdMem .host a 8) len)
  let r := (s.setBuf h { s.buf h with len := len + 4 }).offerMd { handle := h, md := injMd md h (len + 4) 2 0 }
  (if r.1 then stSENT else stREFUSED, if r.1 then r.2 else r.2.drop1 h)

/-- The frame of the descriptor at `a` is copied into pool-0 cells of owner 89 and offered: STATUS. -/
def State.dmaSend (s : State) (a : Nat) : Nat × State :=
  let len := s.rdMem .host (a + 8) 2
  let md := s.dmaMd a
  let kind := mdDKIND.get md
  if len < 60 ∨ 16379 < len then (stBAD_LEN, s)
  else if ¬ kindOk kind ∨ ¬ (s.destOk kind (mdDEST.get md) ∨ (kind = dkENGINE ∧ mdDEST.get md < 1024)) then (stBAD_DEST, s)
  else match s.grantChain 89 (cellsOf (len + 4)) [] with
    | (none, s) => (stNO_BUFFER, s)
    | (some hs, s) =>
      s.dmaCopy a len md hs

/-- The next descriptor of transmit ring q is served. -/
def State.dmaTx (s : State) (q : Nat) : State :=
  let a := s.rd (.glb .DMA_TX_BASE) q + 32 * s.rd (.glb .DMA_TXHT_HEAD) q
  let (st, s) := s.dmaSend a
  let s := s.wrMem .host (a + 10) 1 (s.phaseBit .dmaTxPhase q + 2 * st)
  s.dmaNext q (.glb .DMA_CFG_TX_SIZE_LOG) (.glb .DMA_TXHT_HEAD) .dmaTxPhase

/-- Transmit ring q is on and holds a posted descriptor. -/
def State.dmaTxReady (s : State) (q : Nat) : Bool :=
  s.on (.glb .DMA_CFG_TX_EN) q &&
  s.rd (.glb .DMA_TXHT_HEAD) q != s.rd (.glb .DMA_TXHT_TAIL) q % 2 ^ s.rd (.glb .DMA_CFG_TX_SIZE_LOG) q

/-- DMA_TX_DESCRIPTOR (R533). -/
def execDmaTxDescriptor (q : Fin 16) (s : State) : Host.Outcome State Fault Refusal :=
  .next (s.inUnit .DMA q (fun s => s.when (s.domOn .core && s.dmaTxReady q) (fun s => s.dmaTx q)))

/-! ## Reception by the host (R534) -/

/-- The oldest frame of receive queue q is written to the buffer of the next posted descriptor (Table 17.3) and its
reference dropped. -/
def State.dmaRx (s : State) (q : Nat) : State :=
  match s.hq q with
  | [] => s
  | d :: t =>
    let a := s.rd (.glb .DMA_RX_BASE) q + 32 * s.rd (.glb .DMA_RXHT_HEAD) q
    let l := s.copyOctets d
    let size := s.rdMem .host (a + 8) 2
    let m := d.md
    let s := (s.setHq q t).setBytes .host (s.rdMem .host a 8) (l.take size)
    let flags := s.phaseBit .dmaRxPhase q + (if size < l.length then 2 else 0) + 4 * mdTS_ABSENT.get m + 8 * mdTS_VOID.get m +
      16 * mdTS_CAUTION.get m + 32 * mdSTA_HIT.get m + 64 * mdMGMT_HIT.get m
    let s := s.setBytes .host (a + 8) (leBytes 2 l.length ++ leBytes 1 flags ++ leBytes 1 (mdIN_PORT.get m) ++
      leBytes 12 (mdARR.get m) ++ leBytes 2 (mdTS_GEN.get m) ++ leBytes 6 (mdSCRATCH.get m))
    (s.drop1 d.handle).dmaNext q (.glb .DMA_CFG_RX_SIZE_LOG) (.glb .DMA_RXHT_HEAD) .dmaRxPhase

/-- DMA_RX_FRAME (R534): a frame of receive queue q, accepted when it was offered. -/
def execDmaRxFrame (q : Fin 16) (s : State) : Host.Outcome State Fault Refusal :=
  .next (s.inUnit .DMA q (fun s => s.when (s.domOn .core && s.on (.glb .DMA_CFG_RX_EN) q) (fun s => s.dmaRx q)))

/-! ## The endpoint (R530) -/

/-- Fields of one DMA queue. -/
def dmaFields : List Fld := (GlbF.all.map Fld.glb).filter (fun f => decide (f.desc.grp = .DMA))

/-- An endpoint reset: the endpoint and the frame DMA alone. The MSI-X table is masked again, as PCIe gives. -/
def State.endpointReset (s : State) : State :=
  let s := s.count (.glb .PCI_LINK_RESETS) 0
  let s := (s.wr (.glb .PCI_SPEED) 0 0).wr (.glb .PCI_WIDTH) 0 0
  let s := (List.range 16).foldl (fun s q => ((s.hq q).foldl (fun s d => s.drop1 d.handle) s).setHq q []) s
  let s := (List.range 16).foldl (fun s q =>
    ((dmaFields.foldl (fun s f => s.wr f q f.desc.reset) s).setH .dmaRxPhase q 0).setH .dmaTxPhase q 0) s
  (List.range 64).foldl (fun s v => (s.setH .msixOpen v 0).setH .msixPend v 0) s

/-- ENDPOINT_RESET (R530). -/
def execEndpointReset (s : State) : Host.Outcome State Fault Refusal := .next (s.inDom .reeve State.endpointReset)

/-! ## BAR2 (R531) -/

/-- Pantry bytes of engine e at offset `o` are protected code (R294). -/
def State.codePage (s : State) (e o : Nat) : Bool :=
  (s.lc == 2 || s.lc == 3) && s.on (.eng .PATTR_CODE) (1024 * e + o / 4096 % 1024)

/-- Where a BAR2 address lies, if an access completes there. -/
def State.bar2At (s : State) (a : Nat) (write : Bool) : Option (Region × Nat) :=
  if a < 2 ^ 36 then if s.stackReady (a / 2 ^ 34) then some (.cellar, a) else none
  else
    let e := (a - 2 ^ 36) / 0x400000
    let o := (a - 2 ^ 36) % 0x400000
    if s.variant.hasEngine e ∧ s.domOn .engine ∧ ¬ s.on (.eng .CTL_WIPING) e ∧ ¬ (write ∧ s.codePage e o) then
      some (.pantry, e * 0x400000 + o)
    else none

/-- Octets written through BAR2, each where its address lies. -/
def State.bar2Put (s : State) (a : Nat) : List Byte → State
  | [] => s
  | b :: t => (match s.bar2At a true with
    | some x => s.setByte x.1 x.2 b
    | none => s).bar2Put (a + 1) t

/-- A host write through BAR2: all of it, or a completer abort. -/
def State.bar2Write (s : State) (a : Nat) (data : List Byte) : State :=
  if (List.range data.length).all (fun k => (s.bar2At (a + k) true).isSome) then (s.bar2Put a data).ok
  else s.busError

/-- BAR2_WRITE (R531, R294). The endpoint answers only once it is enabled (R530). -/
def execBar2Write (a : BitVec 37) (data : List (BitVec 8)) (s : State) : Host.Outcome State Fault Refusal :=
  .next (s.inDom .reeve (fun s => s.when (s.h .pcieOn == 1) (fun s => s.bar2Write a.toNat data)))

end Sys2Proof.Machine
end

