-- ==== Sys2Proof/Machine/RegRules.lean ====
section
/-! DEFINITION. What the register tables say of one field: which written values its rule accepts, which bit a refused write
sets, and what a changed value brings about at once. -/

namespace Sys2Proof.Machine

/-- A value lies in a range. -/
def inR (lo hi v : Nat) : Bool := decide (lo ≤ v ∧ v ≤ hi)

/-- Bytes of the present Cellar in 64 KiB units. -/
def State.cellarUnits (s : State) : Nat := s.variant.nStacks * 2 ^ 18

/-- The state with RSV of an owner changed keeps Σ RSV of an open pool within its count, or does not raise it (R264). -/
def State.rsvOk (s : State) (i v : Nat) : Bool :=
  !s.on (.pool .CTL_OPEN) 0 || decide (v ≤ s.rd (.pool .OWN_RSV) i) ||
  decide (s.sumRsv (i % 4) - s.rd (.pool .OWN_RSV) i + v ≤ s.poolTotal (i % 4))

/-- A gather group's configuration can be written (R386). -/
def State.grpFree (s : State) (i : Nat) : Bool := gState s i == gOFF

/-- Configuration fields of a gather group but EN, WBANK and RELIVE. -/
def grpCfg (f : Fld) : Bool :=
  decide (f.desc.grp = .GRP) && f != .gth .GRP_EN && f != .gth .GRP_WBANK && f != .gth .GRP_RELIVE

/-- The rule of a field accepts a changed value `v` from requester `r` (R12, R563 and the field's own rule). Ranges that a
register table gives without saying what happens outside them are taken as refused (log entry 60). -/
def State.fieldOk (s : State) (r : Req) (f : Fld) (i v : Nat) : Bool :=
  match f with
  | .lane .CTL_LOOPBACK => v != 3
  | .lane .RM_SKIP_INTERVAL => inR 256 4096 v
  | .lane .TWIN_MAX_RATE => v != 3
  | .lane .MOD_TX | .lane .MOD_RX => s.rd (.lane .DLY_CFG_MOD_SRC) i == 0
  | .lane .DLY_CFG_MOD_SRC => v != 3
  | .lane .DLY_CFG_TX_SHARE => inR 0 100 v
  | .mod .ADDR_SLOT => inR 0 8 v
  | .mod .CMD_LEN => inR 1 128 v
  | .bell .CTL_DL => v != 0
  | .bell .JUMP_CFG_THR => inR 2 1000000 v
  | .bell .JUMP_CFG_PERSIST => inR 1 3600 v
  | .surv .CTL_KIND => v != 3
  | .surv .SEQ_N => decide (64 ≤ v)
  | .surv .SEQ_K | .surv .SEQ_RETUNE_WAIT => v != 0
  | .sel .TIMES_WTR | .sel .TIMES2_LOCK_CYC | .sel .HOLD_LIM_TE_MAX | .sel .HOLD_LIM_T_MAX | .sel .HOLD_DAC_K => v != 0
  | .sel .TIMES2_LOCK_THR => inR 1 1000 v
  | .sel .SLOT_CFG_SCALE | .sel .OPLL_IN_SCALE | .sel .TOUT_CTL_TKIND | .sel .ECAP_CFG_EDGE | .sel .ECAP_CFG_IV_MODE => v != 3
  | .sel .SLOT_RDIV | .sel .TOUT_TRIG_W_WIDTH => v != 0
  | .sel .HOLD_CFG_TSENS => inR 0 23 v
  | .sel .HOLD_CFG_HIST_MIN => inR 600 65535 v
  | .sel .DPLL_BW => inR 1 1000000 v
  | .sel .TOUT_DIV => decide (8 ≤ v)
  | .sel .PPS_WIDTH => inR 1 500000 v
  | .sel .TOD_START => inR 1 250 v
  | .sel .ECAP_IVMAX_IV_MAX => inR 1 16000000 v
  | .stamp .SPORT_RBASE => !s.on (.stamp .SPORT_CFG_RING_EN) i &&
      v % (if s.rd (.stamp .SPORT_CFG_RING_LOC) i = 0 then 64 else 32) == 0
  | .port .CTL_FC_MODE => v != 3
  | .port .MAX_LEN => inR 64 16383 v
  | .port .PWD_HOLD => v != 0
  | .port .XON_THR => decide (v ≤ s.rd (.port .XOFF_THR) i)
  | .core .QUEUE_QUANTUM => decide (64 ≤ v)
  | .core .GATE_LEN => inR 1 256 v
  | .core .GATE_CYCLE => inR 1000 1000000000 v
  | .core .ADMIN_INTERVAL => v != 0
  | .pool .CFG_C1 | .pool .CFG_C2 | .pool .CFG_C3 => !s.on (.pool .CTL_OPEN) 0
  | .pool .OWN_RSV => s.rsvOk i v
  | .pool .OWN_MAX => decide (s.rd (.pool .OWN_RSV) i ≤ v)
  | .pool .SPILL_REFILL_THR => decide (v ≤ s.rd (.pool .SPILL_THR) i)
  | .cel .CTL_ENG_SIZE => inR 0 16 v && !s.on (.pool .CTL_OPEN) 0
  | .cel .STACK_UE_LIM => v != 0
  | .eng .TVEC => v % 4 == 0
  | .eng .THR_TCTL_PRIV => s.tstate (i / 8) (i % 8) == tIDLE
  | .eng .THR_TPC_PC => (s.tstate (i / 8) (i % 8) == tIDLE || s.tstate (i / 8) (i % 8) == tSTOPPED) && !s.hostBarred r
  | .eng .EQ_MAX => inR 0 4096 v
  | .eng .CWIN_EN => v == 0 || decide (s.rd (.eng .CWIN_BASE) i + s.rd (.eng .CWIN_SIZE) i ≤ s.cellarUnits)
  | .eng .CWIN_BASE => !s.on (.eng .CWIN_EN) i || decide (v + s.rd (.eng .CWIN_SIZE) i ≤ s.cellarUnits)
  | .eng .CWIN_SIZE => !s.on (.eng .CWIN_EN) i || decide (s.rd (.eng .CWIN_BASE) i + v ≤ s.cellarUnits)
  | .eng .PATTR_U_R | .eng .PATTR_U_W | .eng .PATTR_U_X => !s.hostBarred r
  | .gth .ENG_GSHARE => inR 0 16 v
  | .gth .GRP_EN => v == 0 || s.gthEnOk i
  | .twn .CTL_ROLE => v != 3
  | .twn .CFG_TMO | .twn .CFG_ALIGN_THR | .twn .CFG_ALIGN_CYC | .twn .WATCH_SEQ_LOSS | .twn .STRM_WINDOW
  | .twn .STRM_RESET_MS => v != 0
  | .twn .WATCH_PORT => inR 0 71 v
  | .twn .TRE_L4 => v != 3
  | .twn .SNAP_CMD_SNAP_LOC => v == 0 || s.variant != .s
  | .ree .WDT_EN => v == 1 || !(s.lc == 2 || s.lc == 3)
  | .ree .WDT_MS | .ree .BANK_CONFIRM_S => decide (10 ≤ v)
  | .tal .DUMP_LOC | .tal .SAMP_LOC => v == 0 || s.variant != .s
  | .tal .DUMP_SLOTS_LOG => inR 0 12 v
  | .tal .DUMP_PERIOD => inR 1000 1000000000 v
  | .tal .DUMP_BASE | .tal .SAMP_BASE => v % 64 == 0
  | .tal .SAMP_SIZE_LOG => inR 6 16 v
  | .tal .SAMP_WM_LOG => inR 1 16 v
  | .tal .SAMP_PERIOD => decide (1024 ≤ v)
  | .cri .RING_SIZE => inR 6 16 v && !s.on (.cri .RING_EN) 0
  | .cri .RING_RBASE => v % 64 == 0 && !s.on (.cri .RING_EN) 0
  | .glb .COMMIT_GRACE => inR 10 1000000 v
  | .glb .DMA_RX_BASE => v % 64 == 0 && !s.on (.glb .DMA_CFG_RX_EN) i
  | .glb .DMA_TX_BASE => v % 64 == 0 && !s.on (.glb .DMA_CFG_TX_EN) i
  | f => !grpCfg f || s.grpFree i

/-- The bit a refused write of a field sets. A table that names none for the field sets none (log entry 61). -/
def State.fieldRefuse (s : State) (f : Fld) (i : Nat) : State :=
  let s := if f.desc.shadow then s.wr (.glb .COMMIT_STATE_SHADOW_REFUSED) 0 1 else s
  match f with
  | .lane _ => if 0x80 ≤ f.desc.off then s.wr (.lane .DLY_STAT_CFG_REFUSED) i 1 else s.wr (.lane .CTL_CFG_REFUSED) i 1
  | .quad _ => s.wr (.quad .CTL_CFG_REFUSED) i 1
  | .mod _ => s.wr (.mod .STATUS_REFUSED) i 1
  | .bell _ => s.wr (.bell .CTL_CFG_REFUSED) 0 1
  | .sel _ => s.wr (.sel .CTL_CFG_REFUSED) 0 1
  | .stamp _ => s.stampRefused
  | .port _ => s.wr (.port .CTL_CFG_REFUSED) (f.desc.grp.outer i) 1
  | .core .QUEUE_QUANTUM => s.coreRefused
  | .core _ => s.wr (.port .CTL_CFG_REFUSED) (f.desc.grp.outer i) 1
  | .pool _ | .cel .CTL_ENG_SIZE => s.poolRefused
  | .eng .THR_TCTL_PRIV | .eng .THR_TPC_PC => s.thrRefused i
  | .eng _ => s.wr (.eng .CTL_CFG_REFUSED) (f.desc.grp.outer i) 1
  | .gth _ => s.wr (.gth .CTL_CFG_REFUSED) (f.desc.grp.outer i) 1
  | .twn _ => s.wr (.twn .CTL_CFG_REFUSED) 0 1
  | .ree _ => s.wr (.ree .STATUS_CFG_REFUSED) 0 1
  | .tal _ => s.wr (.tal .CFG_REFUSED) 0 1
  | .cri _ => s.wr (.cri .RING_CFG_REFUSED) 0 1
  | .glb .COMMIT_GRACE => s.wr (.glb .COMMIT_STATE_CFG_REFUSED) 0 1
  | .glb .DMA_RX_BASE | .glb .DMA_TX_BASE => s.dmaRefused i
  | _ => s

/-- What a field's new value brings about at once. `old` is the state before the write. -/
def State.fieldAfter (old s : State) (f : Fld) (i : Nat) : State :=
  match f with
  | .lane .ASYM => s.wr (.lane .DLY_STAT_ASYM_SRC) i srcENTERED
  | .lane .FIBRE_D | .lane .FIBRE_S | .lane .FIBRE_S_U | .lane .FIBRE_TG | .lane .OP_LAMBDA_OUT | .lane .OP_LAMBDA_IN =>
    s.modelFollow i
  | .sel .SLOT_RDIV | .sel .SLOT_FNOM | .sel .SLOT_CFG_SCALE =>
    (if s.slotCfgOk i then s else s.wr (.sel .CTL_CFG_REFUSED) 0 1).sigRefresh
  | .sel .TOUT_CTL_SQUELCH => s.outsSync
  | .bell .LEAP_AT_SEC => s.leapWatch
  | .cri .LATCH | .cri .MASK | .cri .PORT_LATCH | .cri .PORT_MASK | .cri .VMAP | .cri .PVMAP => State.vecUpdateAll old s
  | .pool .OWN_RSV => s.sharedCheck (i % 4)
  | .cri .RING_EN => if s.on (.cri .RING_EN) 0 then (s.wr (.cri .RING_HEAD) 0 0).setH .ringPhase 0 1 else s
  | _ => s

/-- A field of a lane's block that lies on the lane's kind (R68, R144): SKIP_INTERVAL and the rate of a twin lane,
TX_REF and VCO of a spur lane, the delays of a port's first lane. -/
def State.laneHas (s : State) (n : Nat) (f : Fld) : Bool :=
  let o := f.desc.off
  if f = .lane .CTL_TX_REF ∨ f = .lane .RAW_VCO then Machine.isSpur n
  else if f = .lane .RAW_DIV then !Machine.isTwin n
  else if f = .lane .TXEQ_PRE3 ∨ f = .lane .TXEQ_PRE2 ∨ f = .lane .TXEQ_POST2 then Machine.isTrunk n
  else if o = 0x30 ∨ o = 0x38 then Machine.isTwin n
  else if 0x80 ≤ o ∧ o ≤ 0xB8 then decide (n < 72) && s.rd (.lane .CTL_MODE) n != 8
  else true

/-- A field that exists at its place: on a lane, where its kind has it. -/
def State.fieldHere (s : State) (f : Fld) (i : Nat) : Bool := if f.desc.grp = .LANE then s.laneHas i f else true

end Sys2Proof.Machine
end

