-- ==== Sys2Proof/Machine/RegWrite.lean ====
section
/-! DEFINITION. A requester's write of one register word: which register it reaches, how multi-word values are held, what
each access type does, and the registers whose write is an operation of their block (R9-R15, R99, R562, R563). -/

namespace Sys2Proof.Machine

/-- A register that a word belongs to: its group, instance and offset, the number of the word in it, and the words of the
multi-word value it is (1 where each word stands on its own). -/
structure Reg where
  grp : Grp
  inst : Nat
  off : Nat
  k : Nat
  words : Nat
  deriving DecidableEq, Repr

/-- The registers in the word at an address. -/
def regsAt (a : Nat) : List Reg :=
  ((fieldsAt a).map (fun e => (⟨e.1.desc.grp, e.2.1, e.1.desc.off, e.2.2, e.1.desc.vw⟩ : Reg))).eraseDups

/-- Fields of a register. -/
def Reg.fields (g : Reg) : List Fld :=
  g.grp.info.blk.fields.filter (fun f => decide (f.desc.grp = g.grp) && f.desc.off == g.off)

/-- Fields of a register that a write of value `v` reaches: all of a multi-word value, else those in the word. -/
def Reg.reached (g : Reg) : List Fld :=
  if 1 < g.words then g.fields else g.fields.filter (fun f => f.desc.inWord g.k)

/-- What a write of `v` gives a field that holds `old`: `v` is the word, or the whole multi-word value. -/
def Reg.newVal (g : Reg) (f : Fld) (v old : Nat) : Nat :=
  if 1 < g.words then bits f.desc.lsb f.desc.width v else f.desc.fromWord g.k v old

/-- An RW or RWL field is written with a changed value (R12, R99, R563). -/
def State.fieldSet (s : State) (r : Req) (f : Fld) (i new : Nat) : State :=
  if ¬ s.fieldOk r f i new then s.fieldRefuse f i
  else if f.desc.shadow then s.shadowWrite (shadowUnit f i) (fun s => s.wr f i new)
  else State.fieldAfter s (s.wr f i new) f i

/-- One field of a register is written (Table 0.4). In SEALED an RWL field ignores it (R441 counts the write once, in
`plainBut`). -/
def State.fieldWrite (r : Req) (g : Reg) (v : Nat) (s : State) (f : Fld) : State :=
  let i := g.inst
  let old := s.rd f i
  if ¬ s.fieldHere f i then s
  else match f.desc.acc with
    | .RO | .RC | .W1S => s
    | .W1C => State.fieldAfter s (s.wr f i (old &&& (old ^^^ g.newVal f v 0))) f i
    | .WO => s.wr f i (g.newVal f v old)
    | .RW => if g.newVal f v old = old then s else s.fieldSet r f i (g.newVal f v old)
    | .RWL => if g.newVal f v old = old ∨ s.lc = 3 then s else s.fieldSet r f i (g.newVal f v old)

/-- A write would change an RWL field of the register. -/
def State.rwlHit (s : State) (g : Reg) (v : Nat) : Bool :=
  g.reached.any (fun f => decide (f.desc.acc = .RWL) && s.fieldHere f g.inst && g.newVal f v (s.rd f g.inst) != s.rd f g.inst)

/-- The fields of a register but `skip` take a write: those that clear first, so that a refusal by the same write is seen.
An ignored RWL write in SEALED is noticed by the Weighhouse (R441). -/
def State.plainBut (s : State) (r : Req) (a : Nat) (g : Reg) (v : Nat) (skip : List Fld) : State :=
  let l := g.reached.filter (fun f => !skip.contains f)
  let s := (l.filter (fun f => decide (f.desc.acc = .W1C))).foldl (State.fieldWrite r g v) s
  let s := if s.lc = 3 ∧ s.rwlHit g v then s.sealAttempt a r else s
  (l.filter (fun f => decide (f.desc.acc ≠ .W1C))).foldl (State.fieldWrite r g v) s

/-- Every field of a register takes a write by its access type. -/
def State.plain (s : State) (r : Req) (a : Nat) (g : Reg) (v : Nat) : State := s.plainBut r a g v []

/-! ## Registers whose write is an operation -/

/-- Word `k` of GLB_COMMIT_MARK is written (R99). -/
def State.markWrite (s : State) (k w : Nat) : State :=
  if w = 0 then s
  else if s.cstate ≠ 0 then s.wr (.glb .COMMIT_STATE_SHADOW_REFUSED) 0 1
  else
    let m := maskOf ((bitsOf 32 w).map (· + 32 * k) |>.filter (fun u => decide (u < 222) && unitPresent s.variant u))
    s.wr (.glb .COMMIT_PEND) 0 (s.rd (.glb .COMMIT_PEND) 0 ||| m)

/-- Word `k` of GLB_COMMIT_PEND is written (R546). -/
def State.pendWrite (s : State) (k w : Nat) : State :=
  let p := s.rd (.glb .COMMIT_PEND) 0
  s.wr (.glb .COMMIT_PEND) 0 (p &&& (p ^^^ (w * 2 ^ (32 * k))))

/-- GLB_COMMIT_CTL is written: OP 1 COMMIT, 2 ROLLBACK, 3 CANCEL, with GEN and the time in COMMIT_T (R100). -/
def State.commitCtl (s : State) (op gen : Nat) : State :=
  let t := s.rd (.glb .COMMIT_T) 0
  if op = 1 then s.doCommit gen t
  else if op = 2 then s.doRollback gen t
  else if op = 3 then s.doCancel
  else s

/-- GLB registers with an operation. -/
def State.glbWrite (s : State) (r : Req) (a : Nat) (g : Reg) (v : Nat) : State :=
  if g.grp = .DMA then (if g.off = 0 then s.dmaCfgWrite g.inst v else s.plain r a g v)
  else match g.off with
    | 0x40 => (if bit 63 v then s.wr (.glb .CLK_EN_REFUSED) 0 0 else s).clkEnWrite v
    | 0x48 => s.fresetWrite v
    | 0x50 => s.resetWrite (bit 0 v) (bits 16 16 v)
    | 0x60 => s.targetWrite (bits 0 3 v)
    | 0x100 => s.commitCtl (bits 0 2 v) (bits 16 16 v)
    | 0x120 => s.pendWrite g.k v
    | 0x1C0 => s.markWrite g.k v
    | _ => s.plain r a g v

/-- BELL registers with an operation. LEAP with both leap flags set is refused whole. -/
def State.bellWrite (s : State) (r : Req) (a : Nat) (g : Reg) (v : Nat) : State :=
  if g.grp ≠ .BELL then s.plain r a g v
  else match g.off with
    | 0x28 => s.fwUpd (bits 0 48 v) (bits 48 16 v)
    | 0x40 => if bit 0 v then s.stepReq (bit 1 v) else s.plain r a g v
    | 0x90 => s.stepAuthWrite (bits 0 16 v)
    | 0xD0 => if bit 16 v ∧ bit 17 v then s.wr (.bell .CTL_CFG_REFUSED) 0 1 else (s.plain r a g v).leapWatch
    | 0x114 => s.measPost (s.rdS (.bell .MEAS_OFS) 0) (s.rd (.bell .MEAS_AT) 0) (bits 0 8 v)
    | _ => s.plain r a g v

/-- LANE_CTL is written (R35-R38, R51). -/
def State.laneCtlWrite (s : State) (r : Req) (a : Nat) (g : Reg) (v : Nat) : State :=
  let n := g.inst
  let s := s.plainBut r a g v [.lane .CTL_MODE, .lane .CTL_FEC, .lane .CTL_MEDIUM, .lane .CTL_TX_IDLE]
  let s := s.modeWrite n (bits 0 4 v) (bits 4 2 v) (bit 6 v)
  if bit 12 v = s.on (.lane .CTL_TX_IDLE) n then s else s.txIdleWrite n (bit 12 v)

/-- LANE registers with an operation. -/
def State.laneWrite (s : State) (r : Req) (a : Nat) (g : Reg) (v : Nat) : State :=
  match g.off with
  | 0 => s.laneCtlWrite r a g v
  | 8 => s.rawWrite g.inst (bits 0 4 v) (bits 8 20 v)
  | 0x10 => s.txeqWrite g.inst v
  | 0x28 => let s := s.plain r a g v
            if bit 0 v then s.slip g.inst else s
  | _ => s.plain r a g v

/-- QUAD_CTL is written (R42). -/
def State.quadWrite (s : State) (r : Req) (a : Nat) (g : Reg) (v : Nat) : State :=
  (s.plainBut r a g v [.quad .CTL_FAMILY, .quad .CTL_VCO]).quadPllWrite g.inst (bits 0 2 v) (bits 8 20 v)

/-- MOD registers: GO starts the transaction (R64). -/
def State.modWrite (s : State) (r : Req) (a : Nat) (g : Reg) (v : Nat) : State :=
  if g.grp = .MOD ∧ g.off = 8 ∧ bit 9 v then s.modGo g.inst (bits 0 8 v) (bit 8 v) else s.plain r a g v

/-- START of SURV_CTL, by KIND and PORT. Whether the peer has answered the asymmetry survey's probe is a free value here. -/
def State.survStart (s : State) (kind p : Nat) : State :=
  if kind = 3 ∨ ¬ s.variant.hasPort p then s.survRefuse
  else if kind = 0 then s.checkGo p
  else if kind = 1 then s.nextFree.asymStart p (s.freeVal 1 == 1)
  else s.loopStart p

/-- SURV registers: ABORT, APPLY and START act after the fields. -/
def State.survWrite (s : State) (r : Req) (a : Nat) (g : Reg) (v : Nat) : State :=
  let s := s.plain r a g v
  if g.grp ≠ .SURV ∨ g.off ≠ 0 then s
  else
    let s := if bit 1 v ∧ s.survRuns then s.survStop 4 else s
    let s := if bit 19 v then s.survApplyGo else s
    if bit 0 v then s.survStart (bits 2 2 v) (bits 4 7 v) else s

/-- SEL_SLOT CFG is written (R145, R156). -/
def State.slotCfgWrite (s : State) (r : Req) (a : Nat) (g : Reg) (v : Nat) : State :=
  let n := g.inst
  let s := s.plainBut r a g v [.sel .SLOT_CFG_ENABLE, .sel .SLOT_CFG_SRC, .sel .SLOT_CFG_LOCKOUT]
  let s := s.slotWrite n (bit 0 v) (bits 1 7 v)
  if bit 20 v = s.on (.sel .SLOT_CFG_LOCKOUT) n then s else s.lockoutWrite n (bit 20 v)

/-- SEL, TOUT, PPS, TOD and ECAP registers with an operation. -/
def State.selWrite (s : State) (r : Req) (a : Nat) (g : Reg) (v : Nat) : State :=
  match g.grp, g.off with
  | .SEL, 0 => (s.plainBut r a g v [.sel .CTL_FORCE_EN, .sel .CTL_FORCE_SLOT]).forceWrite (bit 2 v) (bits 4 4 v)
  | .SEL, 0x94 => s.dacCodeWrite (bits 0 20 v)
  | .SLOT, 0 => s.slotCfgWrite r a g v
  | .TOUT, 0x2C =>
    let s := s.plain r a g v
    let s := if bit 0 v then s.trigArm g.inst else s
    if bit 2 v then s.trigDisarm g.inst else s
  | _, _ => s.plain r a g v

/-- STAMP registers with an operation. -/
def State.stampWrite (s : State) (r : Req) (a : Nat) (g : Reg) (v : Nat) : State :=
  match g.grp, g.off with
  | .OBS, 0 => s.obsWrite g.inst (.cfg (BitVec.ofNat _ v))
  | .OBS, 4 => s.obsWrite g.inst (.parent (BitVec.ofNat _ v))
  | .SPORT, 0 => s.sportCfgWrite g.inst v
  | _, _ => s.plain r a g v

/-- PORT_CTL: EN acts after the other fields (R250). -/
def State.portWrite (s : State) (r : Req) (a : Nat) (g : Reg) (v : Nat) : State :=
  if g.grp = .PORT ∧ g.off = 0 then
    let s := s.plainBut r a g v [.port .CTL_EN]
    if bit 0 v = s.on (.port .CTL_EN) g.inst then s else s.portEnWrite g.inst (bit 0 v)
  else s.plain r a g v

/-- CORE registers with an operation: stage-cell programs, tables, lookup commands. -/
def State.coreWrite (s : State) (r : Req) (a : Nat) (g : Reg) (v : Nat) : State :=
  match g.grp, g.off with
  | .CELLAIN, _ => s.progWrite r (g.inst / 24) false false (g.inst % 24) v
  | .CELLAEG, _ => s.progWrite r (g.inst / 24) true false (g.inst % 24) v
  | .CELLBIN, _ => s.progWrite r (g.inst / 24) false true (g.inst % 24) v
  | .CELLBEG, _ => s.progWrite r (g.inst / 24) true true (g.inst % 24) v
  | .LKPTBL, 0 => s.tblWrite0 g.inst v
  | .LKPTBL, 4 => s.tblWrite1 g.inst v
  | .LKPCMD, 0 => if bit 31 v then s.lkGo g.inst (bits 0 3 v) (bits 3 6 v) (bits 9 2 v) else s.plain r a g v
  | _, _ => s.plain r a g v

/-- POOL registers with an operation. -/
def State.poolWrite (s : State) (r : Req) (a : Nat) (g : Reg) (v : Nat) : State :=
  match g.grp, g.off with
  | .POOL, 0 => ((s.plainBut r a g v [.pool .CTL_OPEN, .pool .CTL_SPILL_EN]).openWrite (bit 0 v)).spillEnWrite (bit 1 v)
  | .POOL, 0x20 => s.thaw v
  | _, _ => s.plain r a g v

/-- CEL registers: MARK takes a stack out of use (R275). -/
def State.celWrite (s : State) (r : Req) (a : Nat) (g : Reg) (v : Nat) : State :=
  let s := s.plain r a g v
  if g.grp = .STACK ∧ g.off = 0 ∧ bit 8 v then s.stackMark g.inst else s

/-- ENG_CTL is written: the fields, then MARK, STOP_ALL, CINV and FRESET. -/
def State.engCtlWrite (s : State) (r : Req) (a : Nat) (g : Reg) (v : Nat) : State :=
  let e := g.inst
  let s := s.plain r a g v
  let s := if bit 1 v then (s.wr (.eng .CTL_MARK) e 1).engMark e 3 else s
  let s := if bit 3 v then s.stopAll e else s
  let s := if bit 4 v then s.cinvStart e else s
  if bit 6 v then s.engFreset e else s

/-- TCTL of a thread is written: PRIV and HIPRI, then START, STOP, RESUME and CLEAR (R300). -/
def State.tctlWrite (s : State) (r : Req) (a : Nat) (g : Reg) (v : Nat) : State :=
  let e := g.inst / 8
  let t := g.inst % 8
  let s := s.plain r a g v
  let s := if bit 0 v then s.thrStart r e t else s
  let s := if bit 1 v then s.thrStop e t else s
  let s := if bit 2 v then s.thrResume e t else s
  if bit 3 v then s.thrClear e t else s

/-- ENG registers with an operation. -/
def State.engWrite (s : State) (r : Req) (a : Nat) (g : Reg) (v : Nat) : State :=
  match g.grp, g.off with
  | .ENG, 0 => s.engCtlWrite r a g v
  | .THR, 0 => s.tctlWrite r a g v
  | .HATCH, 8 => s.hatchReg r (g.inst / 16) (g.inst % 16) v
  | _, _ => s.plain r a g v

/-- TAL registers with an operation. FIRST and LAST of a dump are judged together (R524). -/
def State.talWrite (s : State) (r : Req) (a : Nat) (g : Reg) (v : Nat) : State :=
  match g.grp, g.off with
  | .CTR, 8 => s.talCfg g.inst v false
  | .TAL, 0x9018 =>
    if bits 16 9 v < bits 0 9 v then s.wr (.tal .CFG_REFUSED) 0 1
    else (s.wr (.tal .DUMP_FIRST) 0 (bits 0 9 v)).wr (.tal .DUMP_LAST) 0 (bits 16 9 v)
  | _, _ => s.plain r a g v

/-- CRI registers with an operation: the ring's SIZE before its EN, REARM after HOLD. -/
def State.criWrite (s : State) (r : Req) (a : Nat) (g : Reg) (v : Nat) : State :=
  match g.grp, g.off with
  | .CRI, 0xA00 => (s.plainBut r a g v [.cri .RING_EN]).plainBut r a g v [.cri .RING_SIZE, .cri .RING_CFG_REFUSED]
  | .CRIVEC, _ => let s := s.plain r a g v
                  if bit 1 v then s.rearm g.inst else s
  | _, _ => s.plain r a g v

/-- Word `k` of a mailbox is written: word 0 posts the command with words 1-15 as they stand; they do not change while
BUSY = 1 (R481). -/
def State.mboxWrite (s : State) (m k v : Nat) : State :=
  let n := s.rd (.ree .MBOX_WORD) m
  if k = 0 then s.mboxPost m (v :: (List.range 15).map (fun i => bits (32 * i + 32) 32 n))
  else if s.on (.ree .MBOX_BUSY) m then s
  else s.wr (.ree .MBOX_WORD) m (putBits (32 * k) 32 v n)

/-- REE registers with an operation. -/
def State.reeWrite (s : State) (r : Req) (a : Nat) (g : Reg) (v : Nat) : State :=
  match g.grp, g.off with
  | .REE, 4 =>
    let en := s.on (.ree .WDT_EN) 0
    let s := (s.plainBut r a g v [.ree .WDT_KICK]).wdtKick (bits 0 8 v)
    if ¬ en ∧ s.on (.ree .WDT_EN) 0 then s.setH .wdtAt 0 s.age else s
  | .REE, 0x30 => let s := s.plain r a g v
                  if bit 10 v then s.confirmWrite else s
  | .MBOX, 0 => s.mboxWrite g.inst g.k v
  | _, _ => s.plain r a g v

/-- HRT registers with an operation. Whether the OCXO is found within its limits at HCLK_RETRY is a free value here. -/
def State.hrtWrite (s : State) (r : Req) (a : Nat) (g : Reg) (v : Nat) : State :=
  match g.grp, g.off with
  | .HRT, 0 => (s.plainBut r a g v [.hrt .PWR_REQ, .hrt .PWR_REQ_RAILS_OFF]).pwrReqWrite r (bits 1 9 v) (bit 16 v)
  | .HRT, 0x30 => if bit 2 v then s.nextFree.hclkRetry (s.freeVal 1 == 1) else s
  | _, _ => s.plain r a g v

/-- TWN registers with an operation; SNAP_CMD's triggers follow in `writeWord`. -/
def State.twnWrite (s : State) (r : Req) (a : Nat) (g : Reg) (v : Nat) : State :=
  match g.grp, g.off with
  | .TWN, 0x1C => if bit 0 v then s.swapGo else s
  | _, _ => s.plain r a g v

/-- A value reaches a register: `v` is the word, or the whole multi-word value. -/
def State.regWrite (s : State) (r : Req) (a : Nat) (g : Reg) (v : Nat) : State :=
  match g.grp.info.blk with
  | .glb => s.glbWrite r a g v
  | .cri => s.criWrite r a g v
  | .bell => s.bellWrite r a g v
  | .sel => s.selWrite r a g v
  | .stamp => s.stampWrite r a g v
  | .lane => s.laneWrite r a g v
  | .quad => s.quadWrite r a g v
  | .mod => s.modWrite r a g v
  | .surv => s.survWrite r a g v
  | .port => s.portWrite r a g v
  | .core => s.coreWrite r a g v
  | .pool => s.poolWrite r a g v
  | .eng => s.engWrite r a g v
  | .gth => if g.grp = .GRP ∧ g.off = 0x68 then s.relive g.inst (bits 16 8 v) else s.plain r a g v
  | .tal => s.talWrite r a g v
  | .ree => s.reeWrite r a g v
  | .wgh => s
  | .hrt => s.hrtWrite r a g v
  | .twn => s.twnWrite r a g v
  | .cel => s.celWrite r a g v

/-- A field takes writes. -/
def Acc.writable : Acc → Bool
  | .RO | .RC => false
  | _ => true

/-- One word of a register is written: a lower word of a writable multi-word value is held for its requester; its highest
word lets the whole value take effect (R11). -/
def State.wordInto (s : State) (r : Req) (a w : Nat) (g : Reg) : State :=
  if g.words ≤ 1 then s.regWrite r a g w
  else if ¬ g.fields.any (fun f => f.desc.acc.writable) then s
  else if g.k + 1 < g.words then s.holdPut r a w (g.grp.dom (g.grp.outer g.inst))
  else
    let a0 := a - 4 * g.k
    (s.holdClearAll r a0 g.words).regWrite r a g (s.heldValue r a0 g.words w)

/-! ## Windows and blocks -/

/-- The group whose unit a word of block `b` with no register belongs to. -/
def homeUnit (b : Blk) (a : Nat) : Grp × Nat :=
  match b with
  | .glb => (.GLB, 0) | .cri => (.CRI, 0) | .bell => (.BELL, 0) | .sel => (.SEL, 0) | .stamp => (.STAMP, 0)
  | .lane => (.LANE, (a - 0x800000) / 0x4000) | .quad => (.QUAD, (a - 0xD00000) / 0x1000)
  | .mod => (.MOD, (a - 0xE00000) / 0x1000) | .surv => (.SURV, 0) | .port => (.PORT, (a - 0x1000000) / 0x10000)
  | .core => (.PAIR, 0) | .pool => (.POOL, 0) | .eng => (.ENG, (a - 0x4000000) / 0x100000)
  | .gth => (.GTH, (a - 0x5000000) / 0x100000) | .tal => (.TAL, 0) | .ree => (.REE, 0) | .wgh => (.WGH, 0)
  | .hrt => (.HRT, 0) | .twn => (.TWN, 0) | .cel => (.CEL, 0)

/-- The unit whose registers an access to `a` reaches. -/
def unitOf (b : Blk) (a : Nat) : Grp × Nat :=
  match fieldsAt a with
  | (f, i, _) :: _ => (f.desc.grp, i)
  | [] => homeUnit b a

/-- ENG_CTL lies at `a`: it is not gated (R498). -/
def engCtlAt (b : Blk) (a : Nat) : Bool := decide (b = .eng) && a % 0x100000 == 0

/-- Offset of `a` in a block's window from `lo` to below `hi`, relative to the block's base. -/
def inWin (base lo hi a : Nat) : Option Nat := if base + lo ≤ a ∧ a < base + hi then some (a - base - lo) else none

/-- The Pantry window of the engine at `a`: engine and Pantry offset (R303's engine block, PWIN_PAGE × 512 KiB). -/
def State.pwinAt (s : State) (a : Nat) : Option (Nat × Nat) :=
  if 0x4000000 ≤ a ∧ a < 0x5000000 ∧ 0x80000 ≤ a % 0x100000 then
    let e := (a - 0x4000000) / 0x100000
    some (e, s.rd (.eng .PWIN_PAGE) e * 0x80000 + (a % 0x100000 - 0x80000))
  else none

/-- A write of the Weighhouse's region by the Reeve: commands and the staging window; everything else is read-only (R419,
R445). -/
def State.wghWord (s : State) (a w : Nat) : State :=
  match inWin 0x7800000 0x400 0x440 a, inWin 0x7800000 0x100000 0x140000 a with
  | some o, _ =>
    let n := s.rd (.wgh .CMD_WORD) 0
    if o = 0 then s.wghCommand (w :: (List.range 15).map (fun i => bits (32 * i + 32) 32 n))
    else s.wr (.wgh .CMD_WORD) 0 (putBits (8 * o) 32 w n)
  | none, some o => s.wrMem .wghStage o 4 w
  | none, none => s

/-- A word reaches its block's registers or window. -/
def State.wordWrite (s : State) (r : Req) (b : Blk) (a w : Nat) : State :=
  if b = .wgh then (if r = .reeve then s.wghWord a w else s.wghHostWrite r)
  else match (if b = .ree then inWin 0x7000000 0x100000 0x300000 a else none) with
    | some o => s.wrMem .reeStage o 4 w
    | none => (regsAt a).foldl (fun s g => s.wordInto r a w g) s

/-- The requester is engine `e`: only its threads at P reach the device region (Table 9.4). -/
def ownEng (r : Req) (e : Nat) : Bool :=
  match r with
  | .eng x => x.val == e
  | _ => false

/-- A write through an engine's Pantry window; the engine's Pantry does not answer while it is wiped (R303), and protected
code pages take writes from the Reeve and the engine itself alone (R294). -/
def State.pwinWrite (s : State) (r : Req) (e o w : Nat) : State :=
  if s.on (.eng .CTL_WIPING) e then s.busError
  else if s.codePage e o ∧ r ≠ .reeve ∧ ¬ ownEng r e then s.busError
  else (s.wrMem .pantry (e * 0x400000 + o) 4 w).ok

/-- Offsets the I2C target may write (R538). -/
def i2cMayWrite (a : Nat) : Bool :=
  match blkAt a with
  | some .glb | some .hrt | some .wgh => true
  | _ => decide (0x7000200 ≤ a ∧ a < 0x7000300)

/-- A requester writes the word at BAR0 offset `a` (R9, R15, R538); `narrow` is an access of fewer than 32 bits. -/
def State.writeWord0 (s : State) (r : Req) (a w : Nat) (narrow : Bool := false) : State :=
  if narrow ∨ a % 4 ≠ 0 then s.busError
  else if r = .i2c ∧ ¬ i2cMayWrite a then { s with resp := ⟨.refused, 0⟩ }
  else match blkAt a with
    | none => if r = .host ∧ s.h .pcieOn = 0 then s.busError else s.ok
    | some b =>
      let u := unitOf b a
      match s.access r u.1 u.2 (!engCtlAt b a), s.pwinAt a with
      | some s', _ => s'
      | none, some x => s.pwinWrite r x.1 x.2 w
      | none, none => (s.wordWrite r b a w).ok

end Sys2Proof.Machine
end

