-- ==== Sys2Proof/Machine/RegRead.lean ====
section
/-! DEFINITION. A requester's read of one register word: what each field shows, the snapshot latch of multi-word values, the
fields that clear on read, the FIFOs and windows (R9-R15, R184, R513-R523, R537, R543, R562). -/

namespace Sys2Proof.Machine

/-- The LIVE bits of the level sources of the device (Table 16.1); every other source reads 0 (R509). -/
def State.devLive (s : State) : Nat :=
  let b (n : Nat) (c : Bool) : Nat := if c then 2 ^ n else 0
  let bell := s.domOn .bell
  let core := s.domOn .core
  b 2 (s.h .ocxoLost == 1 || bit 1 (s.h .mainHold)) +
  b 11 (bell && s.rd (.bell .STATUS_JSTATE) 0 != 0) + b 16 (bell && s.on (.bell .STATUS_SRC_APPLIED) 0) +
  b 27 (bell && s.on (.sel .STATUS_CONFLICT) 0) + b 30 (bell && s.rd (.sel .STATUS_STATE) 0 == 5) +
  b 32 (bell && s.on (.sel .HOLD_STAT_EXPIRED) 0) + b 33 (bell && !s.on (.sel .OSTAT_LOCK) 0) + b 42 (bell && s.capsAny) +
  b 49 (core && (List.range 4).any (fun o => s.on (.stamp .OBS_CFG_EN) o && s.on (.stamp .OBS_CFG_STALE) o)) +
  b 73 (core && (List.range 4).any (fun p => s.h .poolEmptied p == 1)) +
  b 112 (s.rd (.wgh .STATUS_CAL_BAD) 0 != 0) + b 118 (s.on (.hrt .SUPPLY_CAUTION) 0) + b 122 (s.cstate == 3) +
  b 124 (bell && s.rd (.twn .STATUS_LINK) 0 == 0)

/-- The LIVE bits of port p's level sources (Table 16.2). -/
def State.portLive (s : State) (p : Nat) : Nat :=
  if ¬ s.domOn .core then 0
  else (if s.pstate p ≠ pUP then 1 else 0) + (if s.dlyOk p then 0 else 2 ^ 8) +
    (if s.on (.lane .STATUS_AN_MISMATCH) p then 2 ^ 15 else 0)

/-- Ports with a pending source (CRI_PSUM). -/
def State.portSum (s : State) : Nat := maskOf ((List.range 72).filter (fun p => s.portPend p != 0))

/-- Hours since the verdict in force, while the Hearth has kept the time (R475); after a loss of Hearth power a free value. -/
def State.verdHours (s : State) : Nat :=
  if ¬ s.on (.ree .LBIST_VALID) 0 then 0
  else if s.h .verdSpan = 1 then min 0xFFFFFF ((s.age - s.h .verdAge) / (3600 * ticksPerSec))
  else s.freeVal 24

/-- Fields that show what the environment has brought and no command reports: error counts, idle insertions and deletions of
Ethernet (R46), the adapted equaliser, a stack's temperature. A read of one is a free value. -/
def freeField (f : Fld) : Bool :=
  match f with
  | .lane .RXEQ_DFE_VAL | .lane .RM_CNT_INS | .lane .RM_CNT_DEL | .port .STAT_FEC_CORR | .port .STAT_FEC_UNCORR
  | .port .STAT_SYM_ERR | .pool .ECC_CE | .cel .STACK_CE | .cel .STACK_UE | .cel .STACK_TEMP | .eng .ECC_CE => true
  | .ree .LBIST_AGE_H => true
  | _ => false

/-- The bits of one free value that a field takes, each field of a register its own. -/
def State.freeBits (s : State) (f : Fld) : Nat := bits f.desc.lsb f.desc.width (Config.free s.freeN)

/-- What a field shows: its value, or what it is computed from. -/
def State.shown (s : State) (f : Fld) (i : Nat) : Nat :=
  if ¬ s.fieldHere f i ∨ f.desc.acc = .WO then 0
  else match f with
    | .lane .RXEQ_DFE_VAL | .port .STAT_FEC_CORR | .port .STAT_FEC_UNCORR | .port .STAT_SYM_ERR | .pool .ECC_CE
    | .cel .STACK_CE | .cel .STACK_UE | .cel .STACK_TEMP | .eng .ECC_CE => s.freeBits f
    | .lane .RM_CNT_INS | .lane .RM_CNT_DEL => if Machine.isTwin i then s.rd f i else s.freeBits f
    | .ree .LBIST_AGE_H => s.verdHours
    | .lane .EYE_AGE => if s.on (.lane .EYE_VALID) i then min 127 ((s.age - s.h .eyeAt i) / msTicks 1) else 127
    | .lane .PHASE_PH_VALID => (s.on (.lane .PHASE_PH_VALID) i && s.phValid i).toNat
    | .bell .NOW => s.bellNow
    | .core .TBL_COUNT => s.tblCount i
    | .core .QUEUE_DEPTH => qDepth (s.queue i)
    | .core .GATE_LEAD => s.gateLead i
    | .pool .STAT_TOTAL => s.poolTotal i
    | .pool .STAT_FREE => s.poolFree i
    | .pool .STAT_SHARED => s.poolShared i
    | .pool .STAT_FROZEN => (s.bufs.filter (fun e => hPool e.1 == i && e.2.frozen)).length
    | .pool .SPILL_GRAN_DEPTH => granDepth (s.queue i)
    | .pool .SPILL_CEL_DEPTH => celDepth (s.queue i)
    | .eng .QSTORE_FREE => 4096 - s.eqStore i
    | .eng .EQ_DEPTH => (s.eq i).length
    | .eng .HATCH_FILL => (s.hatch i).length
    | .gth .SPILL_USED => s.spilled i
    | .gth .ENG_QDEPTH => (s.gqOf i).length
    | .gth .GRP_OPEN => min 255 (s.openBins i).length
    | .ree .ARCH_ENTRY => Assoc.get 0 (s.rd (.ree .ARCH_IDX) 0) s.archive
    | .hrt .COARSE_TIME => coarse96 s.coarse
    | .cri .LIVE => s.devLive
    | .cri .PORT_LIVE => s.portLive i
    | .cri .VEC_PEND => (s.vecPending i).toNat
    | .cri .PSUM => s.portSum
    | .tal .CTR_OVF => (bit i (s.rd (.tal .OVF) 0)).toNat
    | _ => s.rd f i

/-- The bits of a register word that are its fields'. -/
def Reg.mask (g : Reg) : Nat :=
  (g.fields.filter (fun f => f.desc.inWord g.k)).foldl (fun n f => n + f.desc.toWord g.k (2 ^ f.desc.width - 1)) 0

/-- The value of a register: every field at its place. -/
def State.regVal (s : State) (g : Reg) : Nat := g.fields.foldl (fun n f => n + s.shown f g.inst * 2 ^ f.desc.lsb) 0

/-- The fields of a word that clear on read do so (R12). -/
def State.rcClear (s : State) (g : Reg) : State :=
  g.reached.foldl (fun s f => if f.desc.acc = .RC then s.wr f g.inst 0 else s) s

/-- One register of a word is read: the state after, and its bits of the word. The lowest word of a multi-word value copies
the upper ones into the requester's latch, and an upper word returns the latch (R10); `alone`: no other register shares the
word. -/
def State.regRead (s : State) (r : Req) (g : Reg) (alone : Bool) : State × Nat :=
  if 1 < g.words ∧ 0 < g.k then
    let l := s.latchOf r / 2 ^ (32 * (g.k - 1)) % 2 ^ 32
    (s, if alone then l else l &&& g.mask)
  else
    let v := s.regVal g
    let s' := if g.fields.any freeField then s.nextFree else s
    if 1 < g.words then (s'.setLatch r (v / 2 ^ 32) (g.grp.dom (g.grp.outer g.inst)), v % 2 ^ 32)
    else (s'.rcClear g, v / 2 ^ (32 * g.k) % 2 ^ 32)

/-- The word at `a` as its registers give it. -/
def State.regsRead (s : State) (r : Req) (a : Nat) : State :=
  let l := regsAt a
  let x := l.foldl (fun x g => let y := x.1.regRead r g (l.length == 1); (y.1, x.2 + y.2)) (s, 0)
  x.1.ok x.2

/-- A counter's VAL is read low: brought up to date, then VAL[47:32] and OVF go to the latch (R523). -/
def State.ctrRead (s : State) (r : Req) (i : Nat) : State :=
  let s := s.talBring i
  let v := s.rd (.tal .CTR_VAL) i
  (s.setLatch r (v / 2 ^ 32 + (if bit i (s.rd (.tal .OVF) 0) then 2 ^ 31 else 0)) .reeve).ok (v % 2 ^ 32)

/-- Word `k` of the Reeve's record FIFO: word 0 takes a record, the others return the Reeve's latch; other requesters read 0
(R519, Table 16.8). -/
def State.rfifoWord (s : State) (r : Req) (k : Nat) : State :=
  if k = 0 then s.rfifoRead r
  else s.ok (if r = .reeve then s.latchOf r / 2 ^ (32 * (k - 1)) % 2 ^ 32 else 0)

/-- The words of the Weighhouse's region that only the Reeve sees: WGH_CMD and the staging window (Table 13.4's note). -/
def State.wghSecret (s : State) (r : Req) (a : Nat) : Option Nat :=
  match inWin 0x7800000 0x400 0x440 a, inWin 0x7800000 0x100000 0x140000 a with
  | some _, _ => some 0
  | none, some o => some (if r = .reeve then s.rdMem .wghStage o 4 else 0)
  | none, none => none

/-- The registers of a word are read, a FIFO or window of its block first. -/
def State.wordRead (s : State) (r : Req) (b : Blk) (a : Nat) : State :=
  match regsAt a, (if b = .ree then inWin 0x7000000 0x100000 0x300000 a else none), (if b = .wgh then s.wghSecret r a else none) with
  | _, some o, _ => s.ok (s.rdMem .reeStage o 4)
  | _, none, some v => s.ok v
  | g :: _, none, none =>
    if g.grp = .ECAP ∧ g.off = 0x10 ∧ g.k = 0 then let x := s.capRead r g.inst; x.1.ok x.2
    else if g.grp = .ECAP ∧ g.off = 0x1C then s.ok (s.latchOf r / 2 ^ 64 % 2 ^ 32)
    else if g.grp = .CTR ∧ g.off = 0x10 ∧ g.k = 0 then s.ctrRead r g.inst
    else if g.grp = .CTR ∧ g.off = 0x10 then s.ok (s.latchOf r % 2 ^ 32)
    else if g.grp = .CRI ∧ g.off = 0xB00 then s.rfifoWord r g.k
    else s.regsRead r a
  | [], none, none => s.ok 0

/-- A read through an engine's Pantry window (R303). -/
def State.pwinRead (s : State) (e o : Nat) : State :=
  if s.on (.eng .CTL_WIPING) e then s.busError else s.ok (s.rdMem .pantry (e * 0x400000 + o) 4)

/-- The bits of a Crier word that sources 112-119 hold in the Hearth (R515): words 3 of LATCH, EN and MASK, LIVE, and their
FOLD bytes. -/
def criHearth (a : Nat) : Option Nat :=
  if a = 0x10000C ∨ a = 0x10001C ∨ a = 0x10002C ∨ a = 0x10003C then some 0x00FF0000
  else if a = 0x1000B0 ∨ a = 0x1000B4 then some 0xFFFFFFFF
  else none

/-- What the I2C target still reads of the REEVE domain's blocks while that domain is off: the identity registers (R543) and
the Crier's sources 112-119 (R538). -/
def State.hearthRead (s : State) (a : Nat) : Option State :=
  if a ≤ 0x28 then some (s.regsRead .i2c a)
  else match criHearth a with
    | some m => let s := s.regsRead .i2c a
                some (s.ok (s.resp.data % 2 ^ 32 &&& m))
    | none => none

/-- A requester reads the word at BAR0 offset `a` (R9, R15); `narrow` is an access of fewer than 32 bits. -/
def State.readWord (s : State) (r : Req) (a : Nat) (narrow : Bool := false) : State :=
  if narrow ∨ a % 4 ≠ 0 then s.busError
  else match blkAt a with
    | none => if r = .host ∧ s.h .pcieOn = 0 then s.busError else s.ok
    | some b =>
      let u := unitOf b a
      match (if r = .i2c ∧ ¬ s.domOn .reeve then s.hearthRead a else none), s.access r u.1 u.2 (!engCtlAt b a), s.pwinAt a with
      | some s', _, _ => s'
      | none, some s', _ => s'
      | none, none, some x => s.pwinRead x.1 x.2
      | none, none, none => s.wordRead r b a

/-- MULTIWORD_LOW_READ (R10). -/
def execMultiwordLowRead (r : Req) (a : BitVec 32) (s : State) : Host.Outcome State Fault Refusal := .next (s.readWord r a.toNat)

/-- RC_FIELD_READ (R12). -/
def execRcFieldRead (r : Req) (a : BitVec 32) (s : State) : Host.Outcome State Fault Refusal := .next (s.readWord r a.toNat)

end Sys2Proof.Machine
end

