-- ==== Sys2Proof/Machine/Snap.lean ====
section
/-! DEFINITION. Snapshots (R410, R411), and with SNAP_CMD's triggers the whole of a register write. The manual gives the
header's contents and length and the records' fields, not their places: the layout is the model's (log entry 62). -/

namespace Sys2Proof.Machine

/-- The groups of each part of SNAP_SEL, with the offsets of it that the part covers (R410). -/
def snapGroups (part : Nat) : List (Grp × (Nat → Bool)) :=
  let all (l : List Grp) : List (Grp × (Nat → Bool)) := l.map (fun g => (g, fun _ => true))
  match part with
  | 0 => all [.LKPTBL, .MCG, .QUEUE, .GATE, .GATEADM]
  | 1 => all [.PORT, .PORTSTA, .PORTXOFF]
  | 2 => all [.POOL, .OWN, .SPILL]
  | 3 => all [.GRP, .GTHENG]
  | 4 => all [.STAMP, .DOM, .OBS, .SPORT]
  | 5 => (.SEL, fun o => decide (o < 0x80)) :: all [.SLOT]
  | 6 => (.SEL, fun o => o == 0xA20) :: all [.TOUT, .PPS]
  | _ => []

/-- Instances of a group. -/
def Grp.insts (g : Grp) : Nat := g.info.dims.foldl (fun n d => n * d.1) 1

/-- A field that a snapshot keeps: a setting, the gather groups' EN excepted. -/
def snapFld (f : Fld) : Bool := (decide (f.desc.acc = .RW) || decide (f.desc.acc = .RWL)) && f != .gth .GRP_EN

/-- The words of a field's register that hold it, as offsets in its group. -/
def Desc.wordOffs (d : Desc) : List Nat :=
  (List.range ((d.lsb + d.width + 31) / 32 - d.lsb / 32)).map (fun k => d.off + 4 * (d.lsb / 32 + k))

/-- Offsets of the words of a group that hold settings. -/
def Grp.setWords (g : Grp) : List Nat :=
  ((g.info.blk.fields.filter (fun f => decide (f.desc.grp = g) && snapFld f)).flatMap (fun f => f.desc.wordOffs)).eraseDups

/-- The word at an address as a snapshot keeps it. -/
def State.setWord (s : State) (a : Nat) : Nat :=
  ((fieldsAt a).filter (fun e => snapFld e.1)).foldl (fun n e => n + e.1.desc.toWord e.2.2 (s.rd e.1 e.2.1)) 0

/-- Addresses of the words a snapshot with selection `sel` keeps. -/
def State.snapAddrs (s : State) (sel : Nat) : List Nat :=
  (bitsOf 7 sel).flatMap (fun part => (snapGroups part).flatMap (fun x =>
    ((List.range x.1.insts).filter (fun i => x.1.present s.variant i)).flatMap (fun i =>
      (x.1.setWords.filter x.2).map (fun o => x.1.addr i + o))))

/-- A lookup entry in a snapshot: table, index, key, mask, data, visibility, HIT. -/
def lkBytes (e : (Nat × Nat) × LkEntry) : List Byte :=
  leBytes 4 e.1.1 ++ leBytes 4 e.1.2 ++ leBytes 80 e.2.key ++ leBytes 80 e.2.mask ++ leBytes 32 e.2.data ++
    leBytes 2 e.2.vis ++ leBytes 2 e.2.hit.toNat

/-- Octets of a lookup entry in a snapshot. -/
def lkLen : Nat := 204

/-- What follows a snapshot's header: a record {address, 1, word} for each word, an end record with the number of lookup
entries, and the entries. -/
def State.snapBody (s : State) (sel : Nat) : List Byte :=
  let lk := if bit 0 sel then s.lkp.filter (fun e => e.2.valid) else []
  (s.snapAddrs sel).flatMap (fun a => leBytes 4 a ++ leBytes 4 1 ++ leBytes 4 (s.setWord a)) ++
    leBytes 4 0xFFFFFFFF ++ leBytes 4 0 ++ leBytes 4 lk.length ++ lk.flatMap lkBytes

/-- A snapshot: the header, its CRC-32C over all the rest, and the body (R410). -/
def State.snapBytes (s : State) (sel : Nat) : List Byte :=
  let body := s.snapBody sel
  let head := leBytes 4 0x50534E54 ++ leBytes 4 (32 + body.length) ++ leBytes 2 (s.rd (.glb .DEV_GEN) 0) ++
    leBytes 12 s.bellNow ++ leBytes 6 sel
  head ++ leBytes 4 (crc32c (head ++ body)) ++ body

/-- SNAP_ADDR in host memory, or in the engine region of the Cellar, which must hold `n` octets there. -/
def State.snapRoom (s : State) (n : Nat) : Bool :=
  let a := s.rd (.twn .SNAP_ADDR) 0
  s.rd (.twn .SNAP_CMD_SNAP_LOC) 0 == 0 ||
    (s.stackReady (a / 2 ^ 34) && decide (a % 2 ^ 34 + n ≤ s.rd (.cel .CTL_ENG_SIZE) 0 * 2 ^ 30))

/-- `n` octets of the place SNAP_ADDR names. -/
def State.snapRead (s : State) (n : Nat) : List Byte :=
  s.bytes (if s.rd (.twn .SNAP_CMD_SNAP_LOC) 0 = 0 then .host else .cellar) (s.rd (.twn .SNAP_ADDR) 0) n

/-- SNAP_CMD.SAVE (R410): the Reeve begins. -/
def State.snapSave (s : State) : State :=
  if s.on (.twn .SNAP_STAT_BUSY) 0 then s
  else ((s.wr (.twn .SNAP_STAT_BUSY) 0 1).setH .snapOp 0 1).setH .snapStale 0 0

/-- The snapshot is written, or found stale or too long (R410). -/
def State.snapSaved (s : State) : State :=
  let l := s.snapBytes (s.rd (.twn .SNAP_CMD_SNAP_SEL) 0)
  if s.h .snapStale = 1 then s.wr (.twn .SNAP_STAT_CODE) 0 1
  else if ¬ s.snapRoom l.length then s.wr (.twn .SNAP_STAT_CODE) 0 3
  else
    let s := s.setBytes (if s.rd (.twn .SNAP_CMD_SNAP_LOC) 0 = 0 then .host else .cellar) (s.rd (.twn .SNAP_ADDR) 0) l
    (s.wr (.twn .SNAP_LEN) 0 l.length).wr (.twn .SNAP_STAT_CODE) 0 0

/-- Header and CRC of a snapshot are good (R411). -/
def snapGood (l : List Byte) (n : Nat) : Bool :=
  leNat (l.take 4) == 0x50534E54 && decide (32 ≤ n) &&
    crc32c (l.take 28 ++ l.drop 32) == leNat ((l.drop 28).take 4)

/-- A lookup entry of a snapshot is put back. -/
def State.lkPut (s : State) (e : List Byte) : State :=
  let x (o n : Nat) : Nat := leNat ((e.drop o).take n)
  let v : LkEntry :=
    { valid := true, key := x 8 80, mask := x 88 80, data := x 168 32, vis := x 200 2, hit := x 202 2 == 1 }
  s.setEntry (x 0 4) (x 4 4) v

/-- The records of a snapshot are written, by the Reeve; then its lookup entries. -/
def State.snapRecords (s : State) (l : List Byte) : Nat → State
  | 0 => s
  | n + 1 =>
    let a := leNat (l.take 4)
    let w := leNat ((l.drop 8).take 4)
    let rest := l.drop 12
    if a = 0xFFFFFFFF then
      (List.range w).foldl (fun s k => s.lkPut ((rest.drop (lkLen * k)).take lkLen)) s
    else (s.writeWord0 .reeve a w).snapRecords rest n

/-- SNAP_CMD.RESTORE, or a switchover with AUTO_RESTORE = 1 (R411): the check, then the records, and the commit of what they
left pending at now + 1 ms. -/
def State.snapRestore (s : State) : State :=
  if s.on (.twn .SNAP_STAT_BUSY) 0 then s
  else
    let n := leNat ((s.snapRead 8).drop 4)
    let l := s.snapRead n
    let s := s.wr (.twn .SNAP_STAT_BUSY) 0 1
    if ¬ snapGood l n then s.setH .snapOp 0 3
    else
      let r := s.resp
      let s : State := { s.snapRecords (l.drop 32) ((n - 32) / 12) with resp := r }
      let s := if s.rd (.glb .COMMIT_PEND) 0 = 0 then s
        else s.doCommit ((s.rd (.glb .DEV_GEN) 0 + 1) % 65536) (bell96 (s.now + msTicks 1))
      s.setH .snapOp 0 2

/-- SNAP_DONE (R410, R411): the code of what ran. -/
def State.snapDone (s : State) : State :=
  if ¬ s.on (.twn .SNAP_STAT_BUSY) 0 then s
  else
    let s := if s.h .snapOp = 1 then s.snapSaved else s.wr (.twn .SNAP_STAT_CODE) 0 (if s.h .snapOp = 3 then 2 else 0)
    (s.wr (.twn .SNAP_STAT_BUSY) 0 0).setH .snapOp 0 0

/-- The Reeve's firmware runs. -/
def State.fwRuns (s : State) : Bool := s.domOn .reeve && s.rd (.ree .STATUS_RSTATE) 0 == 1

/-- SNAP_SAVE (R410). -/
def execSnapSave (r : Req) (s : State) : Host.Outcome State Fault Refusal :=
  .next (s.writeTo r .TWN 0 (fun s => s.when s.fwRuns State.snapSave))

/-- SNAP_RESTORE (R411). -/
def execSnapRestore (r : Req) (s : State) : Host.Outcome State Fault Refusal :=
  .next (s.writeTo r .TWN 0 (fun s => s.when s.fwRuns State.snapRestore))

/-- SNAP_DONE (R411). -/
def execSnapDone (s : State) : Host.Outcome State Fault Refusal :=
  .next (s.inUnit .TWN 0 (fun s => s.when s.fwRuns State.snapDone))

/-- Address of SNAP_CMD. -/
def snapCmdAddr : Nat := 0x7E00300

/-- SNAP_CMD's triggers: SAVE, then RESTORE. -/
def State.snapGo (s : State) (w : Nat) : State :=
  if ¬ s.fwRuns then s
  else
    let s := if bit 0 w then s.snapSave else s
    if bit 1 w then s.snapRestore else s

/-- A requester writes the word at BAR0 offset `a`. -/
def State.writeWord (s : State) (r : Req) (a w : Nat) (narrow : Bool := false) : State :=
  let s' := s.writeWord0 r a w narrow
  if a = snapCmdAddr ∧ s'.resp.code = .ok then s'.snapGo w else s'

/-! ## Commands -/

/-- REGISTER_WRITE (R12). -/
def execRegisterWrite (r : Req) (a v : BitVec 32) (narrow : Bool) (s : State) : Host.Outcome State Fault Refusal :=
  .next (s.writeWord r a.toNat v.toNat narrow)

/-- MULTIWORD_HIGH_WRITE (R11). -/
def execMultiwordHighWrite (r : Req) (a v : BitVec 32) (s : State) : Host.Outcome State Fault Refusal :=
  .next (s.writeWord r a.toNat v.toNat)

/-- SHADOW_WRITE (R99). -/
def execShadowWrite (r : Req) (a v : BitVec 32) (s : State) : Host.Outcome State Fault Refusal :=
  .next (s.writeWord r a.toNat v.toNat)

/-- COMMIT_MARK_WRITE (R99): word `k` of GLB_COMMIT_MARK. -/
def execCommitMarkWrite (r : Req) (k : Fin 8) (v : BitVec 32) (s : State) : Host.Outcome State Fault Refusal :=
  .next (s.writeTo r .GLB 0 (fun s => s.markWrite k v.toNat))

/-- COMMIT_PEND_CLEAR (R546): word `k` of GLB_COMMIT_PEND. -/
def execCommitPendClear (r : Req) (k : Fin 8) (v : BitVec 32) (s : State) : Host.Outcome State Fault Refusal :=
  .next (s.writeTo r .GLB 0 (fun s => s.pendWrite k v.toNat))

/-- COMMIT (R100, R545): T is what GLB_COMMIT_T holds. -/
def execCommit (r : Req) (gen : BitVec 16) (s : State) : Host.Outcome State Fault Refusal :=
  .next (s.writeTo r .GLB 0 (fun s => s.doCommit gen.toNat (s.rd (.glb .COMMIT_T) 0)))

/-- ROLLBACK (R104, R545). -/
def execRollback (r : Req) (gen : BitVec 16) (s : State) : Host.Outcome State Fault Refusal :=
  .next (s.writeTo r .GLB 0 (fun s => s.doRollback gen.toNat (s.rd (.glb .COMMIT_T) 0)))

/-- CANCEL (R100). -/
def execCancel (r : Req) (s : State) : Host.Outcome State Fault Refusal :=
  .next (s.writeTo r .GLB 0 State.doCancel)

end Sys2Proof.Machine
end

