-- ==== Sys2Proof/Machine/Tree.lean ====
section
/-! DEFINITION. Timing trees: the in-band classes of Table 12.5 that the Reeve serves (R412 to R415). -/

namespace Sys2Proof.Machine

/-- No upstream port: the node is the manager (Table 12.9). -/
def State.treTop (s : State) : Bool := s.rd (.twn .TRE_UP_PORT) 0 == 0x7F

/-- Depth of the node below the manager. -/
def State.depth (s : State) : Nat := if s.treTop then 0 else s.h .treDepth

/-- The ports of DOWN_MASK that work. -/
def State.downPorts (s : State) : List Nat :=
  (List.range 72).filter (fun p => bit p (s.rd (.twn .TRE_DOWN_MASK) 0) && s.up .PORT p)

/-- A port that messages from above come from; one that messages from below come from. -/
def State.treUp (s : State) (p : Nat) : Bool := s.rd (.twn .TRE_UP_PORT) 0 == p
def State.treDown (s : State) (p : Nat) : Bool := bit p (s.rd (.twn .TRE_DOWN_MASK) 0)

/-- A message of this node to the manager. -/
def State.treSend (s : State) (cls : Nat) (body : List Byte) (late : Bool := false) : State :=
  let p := s.rd (.twn .TRE_UP_PORT) 0
  if s.up .PORT p ∧ p < 72 then s.inbandSend p 5 0 cls (s.rd (.twn .TRE_MGR_NODE) 0) body late else s

/-- The octets of a relayed message: HOPS − 1, all else as received (R413). -/
def treRelayed (h : TreHdr) (cls : Nat) (body : List Byte) : List Byte :=
  beBytes 1 cls ++ [1] ++ beBytes 2 body.length ++ beBytes 2 h.seq.toNat ++ beBytes 2 h.src.toNat ++ beBytes 2 h.dst.toNat ++
    beBytes 1 (h.hops.toNat - 1) ++ beBytes 1 h.flags.toNat ++ beBytes 2 h.gen.toNat ++ [0, 0] ++ body

/-- The message leaves on each port of a list. -/
def State.treRelay (s : State) (ps : List Nat) (h : TreHdr) (cls : Nat) (body : List Byte) : State :=
  ps.foldl (fun s p => s.inbandPut p 5 0 (treRelayed h cls body)) s

/-- A message that is dropped (R393, R413). -/
def State.treDrop (s : State) : State := s.count (.twn .TRE_DROP) 0

/-- An in-band message reaches the Reeve's firmware (R412): its frame was trapped there under R245. -/
def State.treLive (s : State) (p : Nat) : Bool :=
  s.fwRuns && s.inbandOn && s.up .PORT p && (s.on (.port .CTL_MGMT_TRAP) p || s.mode == modeSurvey) &&
    !s.on (.port .CTL_MGMT_DEST) p

/-- The firmware takes a message: its frame leaves the Reeve's queue, and one with a bad header or no hops left is dropped. -/
def State.treTake (s : State) (p : Nat) (h : TreHdr) (k : State → State) : State :=
  s.inUnit .TWN 0 (fun s =>
    if ¬ s.treLive p then s
    else
      let s : State := match s.hq 16 with
        | [] => s
        | d :: l => (s.setHq 16 l).drop1 d.handle
      if h.bad ∨ h.hops.toNat = 0 then s.treDrop else k s)

/-- A message of a downward class (R413): accepted, relayed, both, or dropped. -/
def State.treFromAbove (s : State) (p : Nat) (h : TreHdr) (cls : Nat) (body : List Byte) (act : State → State) : State :=
  s.treTake p h (fun s =>
    let node := s.rd (.twn .TRE_NODE) 0
    let above := s.treUp p && !s.on (.twn .TRE_TOO_DEEP) 0
    let mine := above && h.src.toNat == s.rd (.twn .TRE_MGR_NODE) 0 && (h.dst.toNat == node || h.dst.toNat == 0xFFFF)
    let on := above && h.dst.toNat != node && 2 ≤ h.hops.toNat
    if !mine && !on then s.treDrop
    else
      let s := if on then s.treRelay s.downPorts h cls body else s
      s.when mine act)

/-- A message of an upward class (R413): relayed to UP_PORT; the manager is where it ends. -/
def State.treFromBelow (s : State) (p : Nat) (h : TreHdr) (cls : Nat) (body : List Byte) : State :=
  s.treTake p h (fun s =>
    let up := s.rd (.twn .TRE_UP_PORT) 0
    let node := s.rd (.twn .TRE_NODE) 0
    let below := s.treDown p
    let mine := below && (h.dst.toNat == node || h.dst.toNat == 0xFFFF)
    let on := below && h.dst.toNat != node && 2 ≤ h.hops.toNat && !s.treTop
    if !mine && !on then s.treDrop
    else if on then s.treRelay ([up].filter (fun p => p < 72 && s.up .PORT p)) h cls body else s)

/-! ## HELLO (R412, R413) -/

/-- A HELLO leaves UP_PORT and every port of DOWN_MASK, once a second. -/
def State.treHello (s : State) : State :=
  let s := s.passAge (s.h .treHelloAt)
  let body := beBytes 2 (s.rd (.twn .TRE_NODE) 0) ++ beBytes 1 s.role ++ beBytes 1 s.depth
  let up := s.rd (.twn .TRE_UP_PORT) 0
  let ps := (if up < 72 ∧ s.up .PORT up then [up] else []) ++ s.downPorts
  let m := s.msgHdr 0x01 body.length (s.h .treSeq 1) (s.rd (.twn .TRE_NODE) 0) 0xFFFF 16 ++ body
  let s : State := ps.foldl (fun s p => s.inbandPut p 5 0 m) s
  (s.setH .treSeq 1 ((s.h .treSeq 1 + 1) % 65536)).setH .treHelloAt 0 (s.age + ticksPerSec)

/-- TREE_HELLO_SEND (R412). -/
def execTreeHelloSend (s : State) : Host.Outcome State Fault Refusal :=
  .next (s.inUnit .TWN 0 (fun s => if s.fwRuns ∧ s.inbandOn then s.treHello else s))

/-- TREE_HELLO_RECEIVE (R413): from above it gives the node its depth. -/
def execTreeHelloReceive (p : Fin 72) (h : TreHdr) (_node : BitVec 16) (_role depth : BitVec 8) (s : State) :
    Host.Outcome State Fault Refusal :=
  .next (s.treTake p h (fun s =>
    if s.treUp p then
      (s.setH .treDepth 0 (depth.toNat + 1)).wr (.twn .TRE_TOO_DEEP) 0 (if 16 < depth.toNat + 1 then 1 else 0)
    else if s.treDown p then s else s.treDrop))

/-! ## REG (R413) -/

/-- The host accesses that a REG message stands for. -/
def State.treReg (s : State) (a : Nat) (wr : Bool) (n : Nat) (ws : List (BitVec 32)) : State :=
  if n = 0 ∨ 64 < n then s
  else
    let r := s.resp
    let s : State := if wr then
        (List.range (min n ws.length)).foldl (fun s k => s.writeWord .host (a + 4 * k) (ws.getD k 0).toNat) s
      else (List.range n).foldl (fun s k => s.readWord .host (a + 4 * k)) s
    { s with resp := r }

/-- TREE_REG_RECEIVE (R413). -/
def execTreeRegReceive (p : Fin 72) (h : TreHdr) (a : BitVec 32) (wr : Bool) (count : BitVec 8) (words : List (BitVec 32))
    (s : State) : Host.Outcome State Fault Refusal :=
  .next (s.treFromAbove p h 0x02
    (beBytes 4 a.toNat ++ beBytes 1 count.toNat ++ beBytes 1 wr.toNat ++ words.flatMap (fun w => beBytes 4 w.toNat))
    (fun s => s.when (s.on (.twn .TRE_REG_EN) 0) (fun s => s.treReg a.toNat wr count.toNat words)))

/-! ## COMMIT and REPORT (R414) -/

/-- A REPORT. -/
def State.treReport (s : State) (tgen code split : Nat) : State :=
  s.treSend 0x04 (beBytes 2 tgen ++ beBytes 2 (s.rd (.glb .DEV_GEN) 0) ++ beBytes 1 code ++ beBytes 1 split) (decide (code = 1))

/-- A worker's own commit or rollback at T (R414). -/
def State.treCommit (s : State) (t tgen : Nat) (rollback : Bool) : State :=
  let busy := !(s.cstate == 0 || (rollback && s.cstate == 3))
  let gen := (s.rd (.glb .DEV_GEN) 0 + 1) % 65536
  let u := u96 t * 5
  if busy then s.treReport tgen 2 0
  else if ¬ rollback ∧ s.rd (.glb .COMMIT_PEND) 0 = 0 then s.treReport tgen 3 0
  else if s.timeQ + tickQ (86400 * ticksPerSec) < u then s.treReport tgen 4 0
  else
    let late := decide (u < s.timeQ + tickQ (usTicks 10))
    let t := if late then of96 ((s.timeQ + tickQ (usTicks 10) + 4) / 5) else t
    let s' := if rollback then s.doRollback gen t else s.doCommit gen t
    if s'.cstate ≠ 1 then s'
    else
      let s' := s'.setH .treRep 0 (1 + tgen)
      if late then
        ((s'.wr (.glb .COMMIT_LATE) 0 (s'.rd (.glb .COMMIT_PART) 0)).raise .GLB_COMMIT_LATE).treReport tgen 1 0
      else s'.treReport tgen 0 0

/-- TREE_COMMIT_RECEIVE (R414). -/
def execTreeCommitReceive (p : Fin 72) (h : TreHdr) (t : BitVec 96) (tgen : BitVec 16) (rollback : Bool) (s : State) :
    Host.Outcome State Fault Refusal :=
  .next (s.treFromAbove p h 0x03 (beBytes 12 t.toNat ++ beBytes 2 tgen.toNat ++ beBytes 1 rollback.toNat)
    (fun s => s.treCommit t.toNat tgen.toNat rollback))

/-- The second REPORT of an in-band commit: 5 DONE or 6 SPLIT with the units left (R414). -/
def State.treSecond (s : State) (code split : Nat) : State :=
  if s.h .treRep = 0 then s else (s.setH .treRep 0 0).treReport (s.h .treRep - 1) code split

/-- TREE_REPORT_RECEIVE (R413). -/
def execTreeReportReceive (p : Fin 72) (h : TreHdr) (tgen gen : BitVec 16) (code split : BitVec 8) (s : State) :
    Host.Outcome State Fault Refusal :=
  .next (s.treFromBelow p h 0x04
    (beBytes 2 tgen.toNat ++ beBytes 2 gen.toNat ++ beBytes 1 code.toNat ++ beBytes 1 split.toNat))

/-! ## RECORD (R415) -/

/-- The record with counter `n`, if its slot still holds it (R438, R415). -/
def State.recOf (s : State) (n : Nat) : Option (List Byte) :=
  let l := leBytes 192 (s.rd (.wgh .RECORD) (n % 256))
  if l.take 4 = beBytes 4 0x57485231 ∧ beNat ((l.drop 12).take 8) = n then some l else none

/-- The records asked for, one to a message. -/
def State.treRecords (s : State) (n m : Nat) : State :=
  if m = 0 ∨ 64 < m then s
  else (List.range m).foldl (fun s k => match s.recOf (n + k) with
    | some l => s.treSend 0x06 l
    | none => s) s

/-- TREE_RECORD_RECEIVE (R413, R415). -/
def execTreeRecordReceive (p : Fin 72) (h : TreHdr) (r : TreRec) (s : State) : Host.Outcome State Fault Refusal :=
  .next (match r with
    | .ask n m => s.treFromAbove p h 0x06 (beBytes 8 n.toNat ++ beBytes 1 m.toNat) (fun s => s.treRecords n.toNat m.toNat)
    | .give l => s.treFromBelow p h 0x06 l)

/-! ## IMAGE (R415) -/

/-- An IMAGE_ACK: the octets received in order, a refusal code. -/
def State.treAck (s : State) (id upto code : Nat) : State :=
  s.treSend 0x08 (beBytes 8 id ++ beBytes 4 upto ++ beBytes 1 code)

/-- The next block in order is written; the last one has the bank verified and activated (R415, R465). -/
def State.treBlock (s : State) (id ofs : Nat) (data : List Byte) : State :=
  let tot := s.h .treImgTot
  if data.length = 0 ∨ 1000 < data.length ∨ tot < ofs + data.length then s.treAck id ofs 0
  else
    let (code, s) := s.updWrite 2 ofs data
    if code ≠ 0 then s.treAck id ofs 0
    else
      let s := s.setH .treImgOfs 0 (ofs + data.length)
      if ofs + data.length < tot then s.treAck id (ofs + data.length) 0
      else
        let (code, detail, s) := s.updActivate 2
        (s.setH .treImgTot 0 0).treAck id tot (if code = 5 then detail else 0)

/-- An IMAGE block: the first begins the update, one out of order is dropped. -/
def State.treImage (s : State) (id total ofs : Nat) (data : List Byte) : State :=
  let cur := s.h .treImgTot != 0 && s.h .treImgId == id
  if ofs = 0 ∧ !cur then
    let (code, s) := s.updBegin (1 - s.booted) 2
    if code ≠ 0 ∨ total = 0 then s.treAck id 0 0
    else (((s.setH .treImgTot 0 total).setH .treImgId 0 id).setH .treImgOfs 0 0).treBlock id 0 data
  else if cur ∧ ofs = s.h .treImgOfs then s.treBlock id ofs data
  else s.treAck id (if s.h .treImgId = id then s.h .treImgOfs else 0) 0

/-- TREE_IMAGE_RECEIVE (R413, R415). -/
def execTreeImageReceive (p : Fin 72) (h : TreHdr) (id : BitVec 64) (total ofs : BitVec 32) (data : List Byte) (s : State) :
    Host.Outcome State Fault Refusal :=
  .next (s.treFromAbove p h 0x07 (beBytes 8 id.toNat ++ beBytes 4 total.toNat ++ beBytes 4 ofs.toNat ++ data)
    (fun s => s.treImage id.toNat total.toNat ofs.toNat data))

/-- TREE_IMAGE_ACK_RECEIVE (R413). -/
def execTreeImageAckReceive (p : Fin 72) (h : TreHdr) (id : BitVec 64) (upto : BitVec 32) (code : BitVec 8) (s : State) :
    Host.Outcome State Fault Refusal :=
  .next (s.treFromBelow p h 0x08 (beBytes 8 id.toNat ++ beBytes 4 upto.toNat ++ beBytes 1 code.toNat))

end Sys2Proof.Machine
end

