-- ==== Sys2Proof/Machine/Commit.lean ====
section
/-! DEFINITION. Timed commits as they apply (R101 to R105, Table 3.6), the mode transitions (R174, R175, Table 5.8) and the
role changes (R402, Table 12.4). -/

namespace Sys2Proof.Machine

/-! ## Mode transitions (Table 5.8) -/

/-- A transition of Table 5.8 that the JT72 makes itself. -/
def ownRow (m t : Nat) : Bool :=
  if t = 4 then m == 2 || m == 3 else if t = 5 then m == 2 || m == 3 || m == 4
  else if t = 2 ∨ t = 3 then m == 4 || m == 5 else targetRow m t

/-- Mode `new` is in effect (Tables 3.1, 5.8). -/
def State.modeEnter (s : State) (new : Nat) : State :=
  let old := s.mode
  let s := if (old = modeHoldover ∨ old = modeFreeRun) ∧ new ≠ old then s.holdLeave else s
  let s := if new = modeHoldover ∧ old ≠ modeHoldover then s.holdSelect else s
  let s := s.wr (.glb .MODE) 0 new
  if s.domOn .bell then s.setNco (s.ncoFor new) else s

/-- The selection is evaluated again for a new role; what it asks of the mode in effect is settled by the commit itself. -/
def State.quietReselect (s : State) : State :=
  let keep := [Hid.intFull, .intUnits, .intMode, .intRole, .intSrc].map (fun x => (x, s.h x))
  let merged := s.rd (.glb .INT_MERGED) 0
  let s : State := keep.foldl (fun s x => s.setH x.1 0 x.2) s.reselect
  s.wr (.glb .INT_MERGED) 0 merged

/-- The mode that a commit of FOLLOW or LEAD leads to from mode `old`. -/
def State.roleMode (s : State) (old t : Nat) : Nat :=
  if s.hasRef then t else if old = modeHoldover ∨ old = modeFreeRun then old else s.fallbackMode

/-- The main domains go off for DORMANT; a life-cycle transition that waits for it follows (R471, R494). -/
def State.goDormant (s : State) : State :=
  let lp := s.h .lcPend
  let s := s.dormant
  if lp = 0 then s else s.lcDo (lp - 1)

/-- Unit 0 applies TARGET `t` (R163, R164, R172, R175). -/
def State.modeGo (s : State) (t : Nat) : State :=
  let old := s.mode
  let s := (s.setH .dacPinned 0 0).setH .startWindow 0 0
  if t = modeDormant then s.relinquish.goDormant
  else if t = modeService then
    let s := s.relinquish.modeEnter modeService
    let s := s.selStatus
    if s.h .shut = 1 ∨ s.h .shut = 2 then s.shutService else s
  else if t = modeFollow ∨ t = modeLead then
    let s := (s.wr (.glb .MODE_ROLE) 0 t).quietReselect
    let s := s.modeEnter (s.roleMode old t)
    let s := if s.mode = modeLead ∧ s.rdA (.sel .DPLL_LOOP) 0 = 0 then
        let s := (s.wr (.bell .CTL_SERVO_SRC) 0 1).wrA (.bell .CTL_SERVO_SRC) 0 1
        if s.trkRuns then s else s.servoSrc 1 true
      else s
    (s.modeRecheck).selStatus
  else ((s.modeEnter t).modeRecheck).selStatus

/-- Unit 0 applies: a TARGET without a row from the mode in effect, and one that a ROLLBACK restores and that names the mode
in effect, leave the mode as it is; a restored 4 or 5 acts as the restored ROLE (R175). -/
def State.modeApply (s : State) : State :=
  let back := s.h .commitKind == 1
  let t := s.rdA (.glb .MODE_TARGET) 0
  let t := if back ∧ (t = 4 ∨ t = 5) then s.rd (.glb .MODE_ROLE) 0 else t
  if back ∧ t = s.mode then s
  else if targetRow s.mode t ∨ (¬ back ∧ ownRow s.mode t) then s.modeGo t
  else s

/-! ## Roles (Table 12.4) -/

/-- The role in mode copied from the other twin is taken up (Table 12.4). -/
def State.roleCopied (s : State) (copied : Nat) : State :=
  if copied = modeFollow ∨ copied = modeLead then
    let s := s.wr (.glb .MODE_ROLE) 0 copied
    if 2 ≤ s.mode ∧ s.mode ≤ 5 then
      ((s.wr (.glb .MODE_TARGET) 0 copied).wrA (.glb .MODE_TARGET) 0 copied).modeGo copied
    else s
  else s

/-- Leaving STANDBY for ACTIVE (Table 12.4): the word stays, the role in mode is the copied one, the selector steers. -/
def State.roleActive (s : State) : State :=
  let s := (s.wrS (.bell .HWS_I) 0 s.wordNow).trkSet tkOFF
  let s := s.roleCopied (s.copied 16 1 / 8 % 8)
  let s := if s.domOn .bell then s.reselect else s
  if s.on (.twn .CTL_AUTO_RESTORE) 0 then s.setH .autoRest 0 1 else s

/-- Unit 27 applies the role `n`: a change that Table 12.4 gives; from ACTIVE to STANDBY only the twins' own. -/
def State.roleApply (s : State) (n : Nat) : State :=
  let old := s.role
  if n = old ∨ 2 < n ∨ (old = twACTIVE ∧ n = twSTANDBY ∧ s.h .roleInt = 0) then s
  else
    let s := (s.wr (.twn .STATUS_ROLE_APPLIED) 0 n).bump (.twn .STATUS_ROLE_GEN) 0
    let s := s.raise .TWN_ROLE_CHANGE locBell
    let s := if n = twSOLO then (s.wr (.twn .STATUS_LINK) 0 0).trkSet tkOFF
      else if n = twSTANDBY then
        let s := (if s.h .locked = 1 then s.unlock else s).trkSync
        (s.modeRecheck).selStatus
      else if old = twSTANDBY then s.roleActive
      else s
    s.noActiveWatch

/-! ## A unit applies -/

/-- The shadow fields of unit `u` that differ from their reset value. -/
def State.unitShadows (l : List ((Fld × Nat) × Nat)) (u : Nat) : List ((Fld × Nat) × Nat) :=
  l.filter (fun x => x.1.1.desc.shadow && shadowUnit x.1.1 x.1.2 == u)

/-- What unit `u` has in its shadows takes effect as its settings. -/
def State.takeShadows (s : State) (u : Nat) : State :=
  let s : State := { s with applied := s.applied.filter (fun x => shadowUnit x.1.1 x.1.2 != u) }
  (State.unitShadows s.regs u).foldl (fun s x => s.wrA x.1.1 x.1.2 x.2) s

/-- The shadows of unit `u` return to what it held before the last commit (R104). -/
def State.shadowsBack (s : State) (u : Nat) : State :=
  let old := s.prev.filter (fun x => shadowUnit x.1.1 x.1.2 == u)
  let s : State := { s with regs := s.regs.filter (fun x => !(x.1.1.desc.shadow && shadowUnit x.1.1 x.1.2 == u)) }
  old.foldl (fun s x => s.wr x.1.1 x.1.2 x.2) s

/-- The servo engine is usable. -/
def State.servoUsable (s : State) : Bool :=
  let e := s.rd (.bell .CTL_SERVO_ENG) 0
  s.variant.hasEngine e && s.domOn .engine && !s.on (.eng .CTL_UNUSABLE) e

/-- The settings of unit `u` have changed at bell time `t`, in 2^-16 ns. -/
def State.unitEffect (s : State) (u t : Nat) : State :=
  if u = 0 then s.modeApply
  else if u = 1 then s.servoSrc (s.rdA (.bell .CTL_SERVO_SRC) 0) s.servoUsable
  else if u = 4 then s.reselect
  else if 8 ≤ u ∧ u < 16 then s.outApplied (u - 8)
  else if u = 27 then s.roleApply (s.rdA (.twn .CTL_ROLE) 0)
  else if u = 30 ∨ u = 31 then s.gthCommit (u - 30) t
  else if 32 ≤ u ∧ u < 48 then s.wr (.quad .CTL_TX_REF_APPLIED) (u - 32) (s.rdA (.quad .CTL_TX_REF) (u - 32))
  else if 48 ≤ u ∧ u < 122 then
    let n := u - 48
    if 64 ≤ n ∧ n < 72 then s.wr (.lane .STATUS_TX_REF_APPLIED) n (s.rdA (.lane .CTL_TX_REF) n) else s
  else if 122 ≤ u ∧ u < 194 then s.gateCommit (u - 122) t
  else if 194 ≤ u ∧ u < 202 then s.wr (.core .PAIR_CTL_BANK_APPLIED) (u - 194) (s.rdA (.core .PAIR_CTL_BANK) (u - 194))
  else s

/-- The function whose reset keeps a unit from applying (R102, R506). -/
def unitFn (u : Nat) : Option Nat :=
  if u = 6 then some 116
  else if 32 ≤ u ∧ u < 48 then some (72 + (u - 32))
  else if 48 ≤ u ∧ u < 120 then some (u - 48)
  else if 122 ≤ u ∧ u < 194 then some (u - 122)
  else if 194 ≤ u ∧ u < 202 then some (88 + (u - 194))
  else if 202 ≤ u ∧ u < 218 then some (96 + (u - 202))
  else if 218 ≤ u ∧ u < 222 then some (112 + (u - 218))
  else none

/-- The unit has power and is not in function reset (R102). -/
def State.unitReady (s : State) (u : Nat) : Bool :=
  unitPresent s.variant u && s.domOn (unitDom u) && (match unitFn u with | some k => s.h .frEnd k == 0 | none => true)

/-- The bank that a pair would apply passes its check (R224). -/
def State.bankOk (s : State) (u : Nat) : Bool :=
  if 194 ≤ u ∧ u < 202 then
    let pr := u - 194
    if s.on (.core .PAIR_CTL_BANK) pr then s.on (.core .PAIR_CTL_CHK_B) pr else s.on (.core .PAIR_CTL_CHK_A) pr
  else true

/-- Unit `u` applies at `t` and reports it in VEC (R101, R103); of a step commit the step alone (R80). A pair whose target
bank fails its check does not apply (R224). -/
def State.unitTry (s : State) (u t : Nat) (late : Bool) : State :=
  let step := s.h .commitKind == 2
  if ¬ s.unitReady u then s
  else if ¬ step ∧ ¬ s.bankOk u then (if late then s else s.raise .CORE_PROG_REFUSED (locSlice (u - 194)))
  else
    let s := if late then (s.setBitF (.glb .COMMIT_LATE) 0 u).raise .GLB_COMMIT_LATE else s
    let s := (s.setH .unitGen u (s.rd (.glb .DEV_GEN) 0)).setBitF (.glb .COMMIT_VEC) 0 u
    if step then (if u = 1 then s.stepApply else s)
    else (s.takeShadows u).unitEffect u t

/-! ## The commit controller (Table 3.6) -/

/-- Participants that have not applied. -/
def State.missing (s : State) : Nat := andNot (s.rd (.glb .COMMIT_PART) 0) (s.rd (.glb .COMMIT_VEC) 0)

/-- The commit is done when the last participant has applied. -/
def State.commitDone (s : State) : State :=
  if ¬ s.domOn .reeve ∨ s.missing ≠ 0 ∨ (s.cstate ≠ 2 ∧ s.cstate ≠ 3) then s
  else
    let s := ((s.wr (.glb .COMMIT_STATE) 0 0).raise .GLB_COMMIT_DONE).treSecond 5 0
    if s.h .autoRest = 1 then (s.setH .autoRest 0 0).when s.fwRuns State.snapRestore else s

/-- Time passes until T; with the bell clock off, by the coarse copy (log entry 12). -/
def State.passCommit (s : State) (t : Nat) : State :=
  if s.domOn .bell then s.passTo (tickAt t) else s.pass ((t * 5 - s.timeQ + 524287) / 524288)

/-- The settings the participants hold at T, with the ROLE that unit 0 holds (R104, R175). -/
def State.prevOf (s : State) (part : Nat) : List ((Fld × Nat) × Nat) :=
  let l := s.applied.filter (fun x => bit (shadowUnit x.1.1 x.1.2) part)
  if bit 0 part then Assoc.set fldLt (resetVal s.variant (.glb .MODE_ROLE) 0) (.glb .MODE_ROLE, 0) (s.rd (.glb .MODE_ROLE) 0) l else l

/-- ROLE as unit 0 held it before the last commit. -/
def State.prevRole (s : State) : Nat := Assoc.get (resetVal s.variant (.glb .MODE_ROLE) 0) (.glb .MODE_ROLE, 0) s.prev

/-- T is reached (Table 3.6): every participant that can applies, unit 0 last (R101). -/
def State.commitApply (s : State) : State :=
  if s.cstate ≠ 1 then s
  else
    let t := u96 (s.h .commitT)
    let kind := s.h .commitKind
    let s := (s.passCommit t).wr (.glb .COMMIT_STATE) 0 2
    let part := s.rd (.glb .COMMIT_PART) 0
    let us := bitsOf 222 part
    let old := s.prevOf part
    let s := if kind = 1 then
        let s : State := us.foldl (fun s u => s.shadowsBack u) s
        if bit 0 part then s.wr (.glb .MODE_ROLE) 0 s.prevRole else s
      else s
    let s : State := { s with prev := old }
    let s : State := (us.filter (fun u => u != 0)).foldl (fun s u => s.unitTry u t false) s
    let s := if kind = 2 then (List.range 72).foldl (fun s p => if s.up .GATE p then s.gateSync p else s) s.trkSync
      else s
    let s := if bit 0 part then s.unitTry 0 t false else s
    s.commitDone

/-- COMMIT_APPLY (R101). -/
def execCommitApply (s : State) : Host.Outcome State Fault Refusal := .next (s.inDom .reeve State.commitApply)

/-- COMMIT_GRACE_EXPIRY (R100): SPLIT. -/
def State.commitGrace (s : State) : State :=
  if s.cstate ≠ 2 then s
  else
    let s := s.passCommit (u96 (s.h .commitT) + s.rd (.glb .COMMIT_GRACE) 0 * 65536000)
    let s := (s.wr (.glb .COMMIT_SPLIT) 0 s.missing).wr (.glb .COMMIT_STATE) 0 3
    (s.raise .GLB_COMMIT_SPLIT).treSecond 6 (bitsOf 222 s.missing).length

/-- COMMIT_GRACE_EXPIRY (R100). -/
def execCommitGraceExpiry (s : State) : Host.Outcome State Fault Refusal := .next (s.inDom .reeve State.commitGrace)

/-- A unit that missed T applies (R102). -/
def State.unitLate (s : State) (u : Nat) : State :=
  if (s.cstate = 2 ∨ s.cstate = 3) ∧ bit u s.missing then (s.unitTry u s.nowU true).commitDone else s

/-- COMMIT_LATE_APPLY (R102). -/
def execCommitLateApply (u : Fin 222) (s : State) : Host.Outcome State Fault Refusal :=
  .next (s.inDom .reeve (fun s => s.unitLate u))

/-- The late units of a domain that has come on apply (R102, R492). -/
def State.domLate (s : State) (d : Dom) : State :=
  ((List.range 222).filter (fun u => decide (unitDom u = d))).foldl (fun s u => s.unitLate u) s

/-- The late units of a function that has left reset apply (R102). -/
def State.fnLate (s : State) (k : Nat) : State :=
  ((List.range 222).filter (fun u => unitFn u == some k)).foldl (fun s u => s.unitLate u) s

/-! ## Internal requests (R105) -/

/-- INTERNAL_COMMIT_REQUEST (R105). -/
def execInternalCommitRequest (mode : Option (Fin 7)) (role : Option (Fin 3)) (src : Option Bool) (s : State) :
    Host.Outcome State Fault Refusal :=
  .next (s.inDom .reeve (fun s => s.intRequest
    { mode := match mode with | some m => m.val + 1 | none => 0
      role := match role with | some r => r.val + 1 | none => 0
      src := match src with | some b => b.toNat + 1 | none => 0 }))

/-- The entry is written to the shadows and committed at now + 1 ms; a mode request without a row from the mode in effect is
dropped (R105, R174). -/
def State.intIssue (s : State) : State :=
  if s.h .intFull = 0 ∨ s.cstate ≠ 0 then s
  else
    let m := s.h .intMode
    let r := s.h .intRole
    let v := s.h .intSrc
    let mOk := m != 0 && ownRow s.mode (m - 1) && s.fatalOk (m - 1)
    let s := [Hid.intFull, .intUnits, .intMode, .intRole, .intSrc].foldl (fun s x => s.setH x 0 0) s
    let units := (if mOk then 1 else 0) + (if v = 0 then 0 else 2) + (if r = 0 then 0 else 2 ^ 27)
    if units = 0 then s
    else
      let s := if mOk then s.wr (.glb .MODE_TARGET) 0 (m - 1) else s
      let s := if v = 0 then s else s.wr (.bell .CTL_SERVO_SRC) 0 (v - 1)
      let s := if r = 0 then s else s.wr (.twn .CTL_ROLE) 0 (r - 1)
      let t := of96 ((s.timeQ + tickQ (msTicks 1) + 4) / 5)
      let s := s.arm 0 (s.rd (.glb .COMMIT_PEND) 0 ||| units) 0 ((s.rd (.glb .DEV_GEN) 0 + 1) % 65536) t
      if r = 0 then s else s.setH .roleInt 0 1

/-- INTERNAL_COMMIT_ISSUE (R105). -/
def execInternalCommitIssue (s : State) : Host.Outcome State Fault Refusal := .next (s.inDom .reeve State.intIssue)

end Sys2Proof.Machine
end

