-- ==== Sys2Proof/Machine/Boot.lean ====
section
/-! DEFINITION. The boot sequence (R460, R461), domains that finish their switch-on (Table 15.2) and functions that leave
reset (R506). -/

namespace Sys2Proof.Machine

/-! ## The boot ROM -/

/-- The Reeve image of a bank that passes R461, or how it fails: 0 for its directory, else a code of Table 9.12 and the
image. -/
def State.bootImage (s : State) (b : Nat) : Except (Nat × List Byte) (List Byte) :=
  let l := s.dirOf b
  if ¬ dirValid l then .error (0, [])
  else match (dirEnts l).filter (fun e => e.cls == 2) with
    | [e] =>
      let i := s.entImage b e
      let code := s.imgCode i
      if code = 0 then .ok i else .error (code, i)
    | _ => .error (0, [])

/-- A candidate fails (R461): it is logged, and a TRIAL bank's count rises; at 3 the bank is BAD (Table 14.8). -/
def State.bootFail (s : State) (b code : Nat) (l : List Byte) : State :=
  let s := if code = 0 then s.recovery 1 3 locReeve else s.imgRefused code l .rom
  if s.bank b ≠ 2 then s
  else
    let n := s.rd (.ree .BANK_TRIAL_CNT) 0 + 1
    let s := s.bankPut b 2 (min n 3)
    if 3 ≤ n then s.bankRevert b .rom else s

/-- The candidates in order: TRIAL with a count below 3, ACTIVE, PREVIOUS (R460). -/
def State.bootOrder (s : State) : List Nat :=
  let of_ (st : Nat) : List Nat := [0, 1].filter (fun b => s.bank b == st)
  (if s.rd (.ree .BANK_TRIAL_CNT) 0 < 3 then of_ 2 else []) ++ of_ 3 ++ of_ 4

/-- The firmware of bank b is entered: the endpoint is enabled, the mode is SURVEY or SERVICE, and the mailboxes are served;
the trial's time begins at its first entry (R464, Table 5.8). -/
def State.bootInto (s : State) (b : Nat) (l : List Byte) : State :=
  let s := ((s.wr (.ree .BOOT_BANK) 0 b).wr (.ree .BOOT_RECOVERY) 0 0).setH .pcieOn 0 1
  let s := (s.reeveRun l).modeStartUp
  let s := if s.bank b = 2 ∧ s.h .confirmAt = 0 then
      s.setH .confirmAt 0 (1 + s.age + s.rd (.ree .BANK_CONFIRM_S) 0 * ticksPerSec) else s
  (s.mboxServe 0 none).mboxServe 1 none

/-- Recovery boot (R462). -/
def State.recoveryBoot (s : State) : State :=
  ((s.wr (.ree .STATUS_RSTATE) 0 2).wr (.ree .BOOT_RECOVERY) 0 1).setH .pcieOn 0 1

/-- The first good candidate is entered. -/
def State.bootFrom (s : State) : List Nat → State
  | [] => s.recoveryBoot
  | b :: bs => match s.bootImage b with
    | .ok l => s.bootInto b l
    | .error x => State.bootFrom (s.bootFail b x.1 x.2) bs

/-- The boot sequence: `v` is the outcome of the full set where the verdict is not valid, `alm` the Almanac sets whose CRC
fails (R120, R460, R471, R472, R475). -/
def State.boot (s : State) (v : Lbist) (alm : Nat) : State :=
  let s := (s.setH .bootPend 0 0).wipe .sram 0 (2 ^ 64)
  if s.on (.ree .LC_ARMED) 0 ∧ s.h .lcTo ≠ 0 then s.lcDo (s.h .lcTo - 1)
  else if s.lc = 5 then s.wr (.ree .STATUS_RSTATE) 0 3
  else
    let s := s.count (.ree .BOOT_CNT) 0
    let s := if s.verdictValid then s else (s.pass (msTicks (lbMs s.variant true))).lbStore true (lbPack v)
    let s := s.applyMarks
    let s := (bitsOf 17 alm).foldl (fun s k => s.almFail k) s
    let s := if s.lc = 0 ∨ s.lc = 1 ∨ s.lc = 4 then s.wr (.ree .LC_SCAN_READY) 0 1 else s
    s.bootFrom s.bootOrder

/-- BOOT (R460): REEVE is released and the crystal stable (R495). -/
def execBoot (v : Lbist) (alm : BitVec 17) (s : State) : Host.Outcome State Fault Refusal :=
  .next (s.inDom .reeve (fun s => s.when (s.h .bootPend == 1 && s.on (.hrt .CLK_XTAL_OK) 0) (fun s => s.boot v alm.toNat)))

/-! ## Domains -/

/-- Microseconds of a domain's switch-on (Table 15.2). -/
def domTime : Dom → Nat
  | .weigh => 2000
  | .trunkA | .trunkB | .spur => 50
  | .engine => 100
  | .cellar => 27000
  | _ => 0

/-- The images the firmware loads once a domain is on, at its first switch-on after a start (Table 14.2). -/
def State.fwLoadFor (s : State) (d : Dom) (first : Bool) : State :=
  match d with
  | .engine => if first then s.fwLoad 0 else s
  | .core => s.fwLoad 1
  | _ => s

/-- Domain `d` is ON (R491, R492, Table 15.2); its supplies having failed meanwhile, it stays ISOLATED (R484). -/
def State.domPowered (s : State) (d : Dom) : State :=
  if s.domState d ≠ 1 ∨ ¬ s.prereqOn d ∨ (d = .reeve ∧ ¬ s.mainsFree) then s
  else if ¬ s.supplyGood d then s.setDom d 2
  else
    let first := s.h .servoPlaced == 0
    let s := (((s.pass (usTicks (domTime d))).setDom d 3).domUp d).ctxReport
    (s.domLate d).fwLoadFor d first

/-- DOMAIN_POWERED (R491). -/
def execDomainPowered (d : Fin 10) (s : State) : Host.Outcome State Fault Refusal :=
  .next (match Dom.all[d.val]? with
    | some d => s.domPowered d
    | none => s)

/-! ## Functions -/

/-- The function restarts; a pair's banks are checked before it applies what it missed (R224). -/
def State.fnDone (s : State) (k : Nat) : State :=
  if s.h .frEnd k = 0 then s
  else
    let s := (s.passAge (s.h .frEnd k - 1)).setH .frEnd k 0
    if ¬ s.fnOk k then s
    else if 88 ≤ k ∧ k < 96 then (s.fnRestart k).fnLate k
    else (s.fnLate k).fnRestart k

/-- FUNCTION_RESET_DONE (R506): of function k, numbered as in FnReset. -/
def execFunctionResetDone (k : Fin 117) (s : State) : Host.Outcome State Fault Refusal := .next (s.fnDone k.val)

end Sys2Proof.Machine
end

