-- ==== Sys2Proof/Machine/Access.lean ====
section
/-! DEFINITION. Access paths beside PCIe: the board-management I2C target (R536 to R538) and the JTAG TAP (R472, R540,
R541). -/

namespace Sys2Proof.Machine

/-! ## I2C -/

/-- I2C_WRITE (R537, R538): a write with a wrong PEC is not carried out. -/
def execI2cWrite (a v : BitVec 32) (pecBad : Bool) (s : State) : Host.Outcome State Fault Refusal :=
  .next (s.inDom .hearth (fun s => if pecBad then { s with resp := ⟨.refused, 0⟩ } else s.writeWord .i2c a.toNat v.toNat))

/-- I2C_READ (R537, R538). -/
def execI2cRead (a : BitVec 32) (s : State) : Host.Outcome State Fault Refusal :=
  .next (s.inDom .hearth (fun s => s.readWord .i2c a.toNat))

/-- I2C_BUS_TIMEOUT (R536): a transaction that would stretch too long is answered BUSY, and one the bus itself times out is
discarded. -/
def execI2cBusTimeout (discarded : Bool) (s : State) : Host.Outcome State Fault Refusal :=
  .next (s.inDom .hearth (fun s => if discarded then s else { s with resp := ⟨.busy, 0⟩ }))

/-! ## JTAG -/

/-- RESET_N is low. -/
def State.resetLow (s : State) : Bool := bit 0 (s.h .mainHold)

/-- An instruction is loaded, and `v` is what its register shifts out first. -/
def State.tapLoad (s : State) (ir v : Nat) : State := { s.setH .jtagIr 0 ir with resp := ⟨.ok, v⟩ }

/-- An instruction that takes control of the balls: only while RESET_N is low; otherwise it acts as BYPASS and is counted
(R541). -/
def State.tapHold (s : State) (ir : Nat) : State :=
  if s.resetLow then s.tapLoad ir 0
  else ((s.when (s.domOn .reeve) (fun s => s.count (.glb .JTAG_HELD) 0)).tapLoad 0 0)

/-- BYPASS (R540). -/
def execBypass (s : State) : Host.Outcome State Fault Refusal := .next (s.tapLoad 0 0)

/-- IDCODE (R540): 0x04A7_233F. -/
def execIdcode (s : State) : Host.Outcome State Fault Refusal := .next (s.tapLoad 1 0x04A7233F)

/-- SAMPLE_PRELOAD (R540): the boundary register is preloaded with `v`; what it sampled from the balls is a free value. -/
def execSamplePreload (v : BitVec 1024) (s : State) : Host.Outcome State Fault Refusal :=
  .next ((s.nextFree.setH .jtagBsr 0 v.toNat).tapLoad 2 (s.freeVal 1024))

/-- EXTEST (R541). -/
def execExtest (s : State) : Host.Outcome State Fault Refusal := .next (s.tapHold 3)
/-- EXTEST_PULSE (R540, R541). -/
def execExtestPulse (s : State) : Host.Outcome State Fault Refusal := .next (s.tapHold 4)
/-- EXTEST_TRAIN (R540, R541). -/
def execExtestTrain (s : State) : Host.Outcome State Fault Refusal := .next (s.tapHold 5)
/-- CLAMP (R541). -/
def execClamp (s : State) : Host.Outcome State Fault Refusal := .next (s.tapHold 6)
/-- HIGHZ (R541). -/
def execHighz (s : State) : Host.Outcome State Fault Refusal := .next (s.tapHold 7)

/-- Internal scan is reachable (R472). -/
def State.scanOk (s : State) : Bool :=
  s.domOn .reeve && s.on (.ree .LC_SCAN_READY) 0 && (s.lc == 0 || s.lc == 1 || s.lc == 4)

/-- INTERNAL_SCAN (R472): where it is reachable a chain shifts out a value of its own; otherwise zeros, a count and a Ledger
entry. -/
def execInternalScan (s : State) : Host.Outcome State Fault Refusal :=
  .next (if s.scanOk then s.nextFree.tapLoad 8 (s.freeVal 1024)
    else ((s.count (.ree .LC_SCAN_REFUSED) 0).ledger 0x000A true locReeve s.lc).tapLoad 8 0)

end Sys2Proof.Machine
end

