-- ==== Sys2Proof/Machine/Cycle.lean ====
section
/-! DEFINITION. The servo cycle: its boundary (R77, R78) and its deadline (R88-R91). -/

namespace Sys2Proof.Machine

/-- The deadline of the cycle in hand (R88-R91, R172, R396, R399). -/
def State.deadline (s : State) : State :=
  if s.h .dlPend = 0 then s
  else
    let s := s.passTo (deadlineTick (s.h .cycEff) (s.h .dlEff) (s.h .cycNum))
    let s := ((s.servoDeadline.trkDeadline).stateSend).dacCount
    (s.setH .dlPend 0 0).cyclePublish

/-- SERVO_DEADLINE (R88). -/
def execServoDeadline (s : State) : Host.Outcome State Fault Refusal := .next (s.inDom .bell State.deadline)

/-- The next cycle begins: CYCLE and DL written meanwhile take effect at a whole second (R78). -/
def State.cycleNext (s : State) : State :=
  let n := s.h .cycNum + 1
  let s := if n % 2 ^ s.h .cycEff = 0 then
      let s := (s.setH .cycEff 0 (s.rd (.bell .CTL_CYCLE) 0)).setH .dlEff 0 (s.rd (.bell .CTL_DL) 0)
      s.setH .cycNum 0 (cycleAt (s.h .cycEff) s.now)
    else s.setH .cycNum 0 n
  (s.setH .dlPend 0 1).cyclePublish

/-- A boundary: a deadline still pending comes first; then the header of the closing cycle (R77), the lock (R162), the phase
of the selected slot (R163), the observers (R213), the delays and survey results that wait (R125, Table 4.4), the copied
leap fields (R399), and the held or nominal word (R170, R173). `phase` is what the selected slot's phase detector reads. -/
def State.boundary (s : State) (phase : Nat) : State :=
  let s := s.deadline
  let s := s.passTo (boundaryTick (s.h .cycEff) (s.h .cycNum + 1))
  let s := (s.cycleClose.cycleNext).lockEval
  let s := if s.h .selSlot ≠ 0 ∧ s.slotSrc (s.h .selSlot - 1) < 78 then s.phasePost phase else s
  let s := (List.range 4).foldl (fun s o => s.obsPost o) s
  let s := ((s.trkBoundary.delayBoundary).asymBoundary).leapCopy
  let s := if s.mode = modeHoldover then s.holdPublish else s
  s.wordRefresh.selStatus

/-- SERVO_CYCLE_BOUNDARY (R77). -/
def execServoCycleBoundary (phase : BitVec 64) (s : State) : Host.Outcome State Fault Refusal :=
  .next (s.inDom .bell (fun s => s.boundary phase.toNat))

end Sys2Proof.Machine
end

