-- ==== Sys2Proof/Machine/EngMem.lean ====
section
/-! DEFINITION. Memory accesses of the TZ cores: the address spaces of Tables 9.4 and 14.1, their checks, loads and stores
(R330), atomics (R331) and vector moves (R336). -/

namespace Sys2Proof.Machine

/-- Where an address of a core lies. -/
inductive Place where
  /-- a Pantry: engine, offset; `own` through the base of the own Pantry -/
  | pantry (e o : Nat) (own : Bool)
  | cellar (a : Nat)
  | device (a : Nat)
  | sram (a : Nat)
  | rom (a : Nat)
  | flash (a : Nat)
  /-- the Weighhouse core's own memory, which the manual gives no map of (log entry 63) -/
  | wgh (a : Nat)
  | none
  deriving DecidableEq, Repr

/-- The access of `n` octets at `a` lies wholly in `size` octets from `base`. -/
def inSpan (base size a n : Nat) : Bool := decide (base ≤ a ∧ a + n ≤ base + size)

/-- The regions that engines and the Reeve share: Pantries, Cellar, device registers. -/
def sharedPlace (a n : Nat) : Place :=
  if inSpan 0x10000000000 (16 * 0x400000) a n then
    .pantry ((a - 0x10000000000) / 0x400000) ((a - 0x10000000000) % 0x400000) false
  else if inSpan 0x100000000000 (4 * 2 ^ 34) a n then .cellar (a - 0x100000000000)
  else if inSpan 0x200000000000 0x10000000 a n then .device (a - 0x200000000000)
  else .none

/-- The region that an access of a core lies wholly in (R290, R450). -/
def coreSpot (c : Core) (a n : Nat) : Place :=
  match c with
  | .eng e _ => if a + n ≤ 0x400000 then .pantry e.val a true else sharedPlace a n
  | .reeve =>
    if a + n ≤ 0x200000 then .sram a
    else if inSpan 0x8000000000 0x10000 a n then .rom (a - 0x8000000000)
    else if inSpan 0x300000000000 0x40000000 a n then .flash (a - 0x300000000000)
    else sharedPlace a n
  | .wgh => .wgh a
  | .cell .. => .none

/-- Kind of an access. -/
inductive Acs where
  | load | store | atomic
  deriving DecidableEq, Repr

/-- The kind reads; it writes. -/
def Acs.reads : Acs → Bool | .store => false | _ => true
def Acs.writes : Acs → Bool | .load => false | _ => true

/-- The cause an access of the kind raises where it cannot be made. -/
def Acs.cause : Acs → Nat | .load => cLOAD | _ => cSTORE

/-- Requester that a core is. -/
def coreReq : Core → Req
  | .eng e _ => .eng e
  | _ => .reeve

/-- The access is not permitted at U (R293, Table 9.4). -/
def State.protBad (s : State) (c : Core) (p : Place) (n : Nat) (k : Acs) : Bool :=
  !s.privP c &&
  (match p with
   | .pantry e o true =>
     (k.reads && !s.on (.eng .PATTR_U_R) (1024 * e + o / 4096)) || (k.writes && !s.on (.eng .PATTR_U_W) (1024 * e + o / 4096))
   | .pantry _ _ false => true
   | .cellar a =>
     (k.reads && !s.cwinOk (engOf c) a n false) || (k.writes && !s.cwinOk (engOf c) a n true)
   | .device _ => true
   | _ => false)

/-- A store to a protected code page is barred: all but the Reeve's and those of the own engine's threads at P (R294). -/
def State.codeBarred (s : State) (c : Core) (e o : Nat) : Bool :=
  s.codePage e o &&
  (match c with
   | .eng x _ => !(x.val == e && s.privP c)
   | _ => false)

/-- The access cannot be made where it lies (R275, R290, R291, R294, R450). -/
def State.placeBad (s : State) (c : Core) (p : Place) (n : Nat) (k : Acs) : Bool :=
  match p with
  | .pantry e o _ =>
    !s.variant.hasEngine e || !s.domOn .engine || s.on (.eng .CTL_WIPING) e || (k.writes && s.codeBarred c e o) ||
    (match c with
     | .eng x _ => x.val != e && s.on (.eng .CTL_UNUSABLE) e
     | _ => false)
  | .cellar a => !s.stackReady (a / 2 ^ 34)
  | .device a => !(n == 4 || n == 8) || decide (k = .atomic) || (isEng c && decide (0x7800000 ≤ a ∧ a < 0x7C00000))
  | .rom _ | .flash _ => k.writes
  | .none => true
  | .sram _ | .wgh _ => false

/-- The exception of an access of `n` octets at `a`, if any (R291, R293, R290). -/
def State.memExc (s : State) (c : Core) (a n : Nat) (k : Acs) : Option Nat :=
  let p := coreSpot c a n
  if a % n ≠ 0 then some cMISALIGN
  else if s.protBad c p n k then some cPROT
  else if s.placeBad c p n k then some k.cause
  else none

/-- An engine's line of the Cellar as its cache gives it, filled on a miss (R283); `none`: the miss met an uncorrectable
error. -/
def State.lineGet (s : State) (e line : Nat) (ue : Bool) : Option (Nat × State) :=
  match s.cacheGet e line with
  | some v => some (v, s)
  | none =>
    if ue then none
    else
      let v := s.rdMem .cellar (64 * line) 64
      some (v, s.cacheFill e line v)

/-- Registers read as 4 or 8 octets, low word first; `none` at a bus error (R291). -/
def State.devGet (s : State) (c : Core) (a n : Nat) : Option (Nat × State) :=
  let r := s.resp
  let s1 := s.readWord (coreReq c) a
  if s1.resp.code ≠ .ok then none
  else if n = 4 then some (s1.resp.data, { s1 with resp := r })
  else
    let s2 := s1.readWord (coreReq c) (a + 4)
    if s2.resp.code ≠ .ok then none else some (s1.resp.data + 2 ^ 32 * s2.resp.data, { s2 with resp := r })

/-- Registers written as 4 or 8 octets, low word first; `none` at a bus error. -/
def State.devPut (s : State) (c : Core) (a n v : Nat) : Option State :=
  let r := s.resp
  let s1 := s.writeWord (coreReq c) a (v % 2 ^ 32)
  if s1.resp.code ≠ .ok then none
  else if n = 4 then some { s1 with resp := r }
  else
    let s2 := s1.writeWord (coreReq c) (a + 4) (v / 2 ^ 32)
    if s2.resp.code ≠ .ok then none else some { s2 with resp := r }

/-- A permitted load: the value and the state, or the cause it raises. `ue`: data read from a Pantry or the Cellar has an
uncorrectable error. -/
def State.memGet (s : State) (c : Core) (a n : Nat) (ue : Bool) : Except Nat (Nat × State) :=
  match coreSpot c a n with
  | .pantry e o _ => if ue then .error cDATA_UE else .ok (s.rdMem .pantry (e * 0x400000 + o) n, s)
  | .cellar o =>
    if isEng c then match s.lineGet (engOf c) (o / 64) ue with
      | some (v, s) => .ok (bits (8 * (o % 64)) (8 * n) v, s)
      | none => .error cDATA_UE
    else if ue then .error cDATA_UE else .ok (s.rdMem .cellar o n, s)
  | .device o => match s.devGet c o n with
    | some x => .ok x
    | none => .error cLOAD
  | .sram o => .ok (s.rdMem .sram o n, s)
  | .rom o => .ok (leNat ((List.range n).map (fun k => Config.romByte (o + k))), s)
  | .flash o => .ok (s.rdMem .flash o n, s)
  | .wgh o => .ok (s.rdMem .wghMem o n, s)
  | .none => .error cLOAD

/-- An engine's cached line takes the octets of its own store (R283). -/
def State.lineStore (s : State) (e o n v : Nat) : State :=
  match s.cacheGet e (o / 64) with
  | some l => s.cacheSet e (o / 64) (putBits (8 * (o % 64)) (8 * n) v l)
  | none => s

/-- A permitted store. -/
def State.memPut (s : State) (c : Core) (a n v : Nat) : Except Nat State :=
  match coreSpot c a n with
  | .pantry e o _ => .ok (s.wrMem .pantry (e * 0x400000 + o) n v)
  | .cellar o => .ok ((if isEng c then s.lineStore (engOf c) o n v else s).wrMem .cellar o n v)
  | .device o => match s.devPut c o n v with
    | some s => .ok s
    | none => .error cSTORE
  | .sram o => .ok (s.wrMem .sram o n v)
  | .wgh o => .ok (s.wrMem .wghMem o n v)
  | .rom _ | .flash _ | .none => .error cSTORE

/-- The whole of a load of `n` octets at `a` whose value goes where `f` puts it. -/
def State.loadTo (s : State) (c : Core) (a n : Nat) (ue : Bool) (f : State → Nat → State) : Sig × State :=
  match s.memExc c a n .load with
  | some cause => (.exc cause a, s)
  | none => match s.memGet c a n ue with
    | .ok (v, s') => (.next, f s' v)
    | .error cause => (.exc cause a, s)

/-- The whole of a store of `n` octets at `a`. -/
def State.storeAt (s : State) (c : Core) (a n v : Nat) : Sig × State :=
  match s.memExc c a n .store with
  | some cause => (.exc cause a, s)
  | none => match s.memPut c a n v with
    | .ok s' => (.next, s')
    | .error cause => (.exc cause a, s)

/-- The address of a load or store: g[a] + `scale` × the signed immediate, modulo 2^64. -/
def State.ea (s : State) (c : Core) (i : IIns) (scale : Nat) : Nat := ofS 64 ((s.g c i.a : Int) + scale * toS 12 i.imm.toNat)

/-! ## Loads and stores (Table 10.4) -/

/-- A load of 2^k octets. -/
def State.tzLd (x : Issue) (k : Nat) (ue : Bool) (i : IIns) (s : State) : State :=
  s.issue x i.pred (encI (0x18 + k) i) (isTz x.core)
    (fun s => s.loadTo x.core (s.ea x.core i 1) (2 ^ k) ue (fun s v => s.setG x.core i.d v))

/-- A store of 2^k octets. -/
def State.tzSt (x : Issue) (k : Nat) (i : IIns) (s : State) : State :=
  s.issue x i.pred (encI (0x1C + k) i) (isTz x.core)
    (fun s => s.storeAt x.core (s.ea x.core i 1) (2 ^ k) (trunc (8 * 2 ^ k) (s.g x.core i.d)))

/-- LD_B (R330). -/
def execLdB (x : Issue) (ue : Bool) (i : IIns) (s : State) : Host.Outcome State Fault Refusal := .next (s.tzLd x 0 ue i)
/-- LD_H (R330). -/
def execLdH (x : Issue) (ue : Bool) (i : IIns) (s : State) : Host.Outcome State Fault Refusal := .next (s.tzLd x 1 ue i)
/-- LD_W (R330). -/
def execLdW (x : Issue) (ue : Bool) (i : IIns) (s : State) : Host.Outcome State Fault Refusal := .next (s.tzLd x 2 ue i)
/-- LD_D (R330). -/
def execLdD (x : Issue) (ue : Bool) (i : IIns) (s : State) : Host.Outcome State Fault Refusal := .next (s.tzLd x 3 ue i)
/-- ST_B (R330). -/
def execStB (x : Issue) (i : IIns) (s : State) : Host.Outcome State Fault Refusal := .next (s.tzSt x 0 i)
/-- ST_H (R330). -/
def execStH (x : Issue) (i : IIns) (s : State) : Host.Outcome State Fault Refusal := .next (s.tzSt x 1 i)
/-- ST_W (R330). -/
def execStW (x : Issue) (i : IIns) (s : State) : Host.Outcome State Fault Refusal := .next (s.tzSt x 2 i)
/-- ST_D (R330). -/
def execStD (x : Issue) (i : IIns) (s : State) : Host.Outcome State Fault Refusal := .next (s.tzSt x 3 i)

/-! ## Atomics (R296, R331) -/

/-- The function of an atomic of major 0x20. -/
def amoFn (f old b : Nat) : Nat :=
  match f with
  | 0 => trunc 64 (old + b)
  | 1 => old &&& b
  | 2 => old ||| b
  | 3 => old ^^^ b
  | 4 => b
  | 5 => if s64 b < s64 old then b else old
  | 6 => if s64 old < s64 b then b else old
  | 7 => min old b
  | _ => max old b

/-- The 8 octets that an atomic reads, beside the cache. -/
def State.wordAt (s : State) (c : Core) (a : Nat) : Nat :=
  match coreSpot c a 8 with
  | .cellar o => s.rdMem .cellar o 8
  | _ => match s.memGet c a 8 false with
    | .ok (v, _) => v
    | .error _ => 0

/-- An atomic at `a`: what stands there goes to g[d]; `f` gives what is written, if anything. It passes by the cache and
invalidates any line it hits. `ue`: the read meets an uncorrectable error. -/
def State.atomicAt (s : State) (c : Core) (a d : Nat) (ue : Bool) (f : Nat → Option Nat) : Sig × State :=
  match s.memExc c a 8 .atomic with
  | some cause => (.exc cause a, s)
  | none =>
    let p := coreSpot c a 8
    let ecc : Bool := match p with | .pantry .. | .cellar _ => true | _ => false
    if ue ∧ ecc then (.exc cDATA_UE a, s)
    else
      let old := s.wordAt c a
      let s := match p with | .cellar o => if isEng c then s.cacheDrop (engOf c) (o / 64) else s | _ => s
      match (match f old with | some v => s.memPut c a 8 v | none => .ok s) with
      | .ok s => (.next, s.setG c d old)
      | .error cause => (.exc cause a, s)

/-- An atomic of major 0x20. -/
def State.tzAmo (x : Issue) (f : Nat) (ue : Bool) (i : RIns) (s : State) : State :=
  s.issue x i.pred (encR 0x20 f i) (isTz x.core)
    (fun s => s.atomicAt x.core (s.g x.core i.a) i.d ue (fun old => some (amoFn f old (s.g x.core i.b))))

/-- AMO_ADD (R331). -/
def execAmoAdd (x : Issue) (ue : Bool) (i : RIns) (s : State) : Host.Outcome State Fault Refusal := .next (s.tzAmo x 0 ue i)
/-- AMO_AND (R331). -/
def execAmoAnd (x : Issue) (ue : Bool) (i : RIns) (s : State) : Host.Outcome State Fault Refusal := .next (s.tzAmo x 1 ue i)
/-- AMO_OR (R331). -/
def execAmoOr (x : Issue) (ue : Bool) (i : RIns) (s : State) : Host.Outcome State Fault Refusal := .next (s.tzAmo x 2 ue i)
/-- AMO_XOR (R331). -/
def execAmoXor (x : Issue) (ue : Bool) (i : RIns) (s : State) : Host.Outcome State Fault Refusal := .next (s.tzAmo x 3 ue i)
/-- AMO_SWAP (R331). -/
def execAmoSwap (x : Issue) (ue : Bool) (i : RIns) (s : State) : Host.Outcome State Fault Refusal := .next (s.tzAmo x 4 ue i)
/-- AMO_MIN (R331). -/
def execAmoMin (x : Issue) (ue : Bool) (i : RIns) (s : State) : Host.Outcome State Fault Refusal := .next (s.tzAmo x 5 ue i)
/-- AMO_MAX (R331). -/
def execAmoMax (x : Issue) (ue : Bool) (i : RIns) (s : State) : Host.Outcome State Fault Refusal := .next (s.tzAmo x 6 ue i)
/-- AMO_MINU (R331). -/
def execAmoMinu (x : Issue) (ue : Bool) (i : RIns) (s : State) : Host.Outcome State Fault Refusal := .next (s.tzAmo x 7 ue i)
/-- AMO_MAXU (R331). -/
def execAmoMaxu (x : Issue) (ue : Bool) (i : RIns) (s : State) : Host.Outcome State Fault Refusal := .next (s.tzAmo x 8 ue i)

/-- CAS (R331). -/
def execCas (x : Issue) (ue : Bool) (i : RIns) (s : State) : Host.Outcome State Fault Refusal :=
  .next (s.issue x i.pred (encR 0x21 0 i) (isTz x.core)
    (fun s => s.atomicAt x.core (s.g x.core i.a) i.d ue
      (fun old => if old = s.g x.core i.d then some (s.g x.core i.b) else none)))

/-! ## Vector moves (R336) -/

/-- VLD (R336). -/
def execVld (x : Issue) (ue : Bool) (i : IIns) (s : State) : Host.Outcome State Fault Refusal :=
  .next (s.issue x i.pred (encI 0x2C i) (isEng x.core)
    (fun s => s.loadTo x.core (s.ea x.core i 64) 64 ue (fun s v => s.setV x.core i.d v)))

/-- VST (R336). -/
def execVst (x : Issue) (i : IIns) (s : State) : Host.Outcome State Fault Refusal :=
  .next (s.issue x i.pred (encI 0x2D i) (isEng x.core)
    (fun s => s.storeAt x.core (s.ea x.core i 64) 64 (s.v x.core i.d)))

end Sys2Proof.Machine
end

