-- ==== Sys2Proof/Machine/TzVector.lean ====
section
/-! DEFINITION. TZ vector instructions without memory (R332-R337). -/

namespace Sys2Proof.Machine

/-! ## Elements (Table 10.5) -/

/-- A complex element type. -/
def tyC (ty : Nat) : Bool := 4 ≤ ty
/-- Element width in bits. -/
def tyW (ty : Nat) : Nat := if tyC ty then 2 ^ (ty - 1) else 2 ^ (ty + 2)
/-- Elements per register. -/
def tyN (ty : Nat) : Nat := 512 / tyW ty
/-- Part width in bits: of a real type, the element. -/
def tyP (ty : Nat) : Nat := if tyC ty then tyW ty / 2 else tyW ty

/-- Element `i` of a register. -/
def vel (ty v i : Nat) : Nat := bits (i * tyW ty) (tyW ty) v
/-- Real part of element `i`, or the element of a real type, as a signed value. -/
def vre (ty v i : Nat) : Int := toS (tyP ty) (vel ty v i)
/-- Imaginary part of element `i`. -/
def vim (ty v i : Nat) : Int := toS (tyP ty) (vel ty v i / 2 ^ tyP ty)
/-- An element of two parts. -/
def mkC (ty : Nat) (re im : Int) : Nat := ofS (tyP ty) re + ofS (tyP ty) im * 2 ^ tyP ty

/-- The mask field selects element `i` (R285). -/
def State.vsel (s : State) (c : Core) (pm ty i : Nat) : Bool :=
  pm == 0 || bit (if tyN ty = 128 then i / 2 else i) (s.p c pm)

/-- A register with the selected elements replaced (R285). -/
def vmap (ty old : Nat) (sel : Nat → Bool) (f : Nat → Nat) : Nat :=
  (List.range (tyN ty)).foldl (fun v i => if sel i then putBits (i * tyW ty) (tyW ty) (f i) v else v) old

/-! ## Element-wise operations (Table 10.6) -/

/-- Element `i` of operation `f` of major 0x28. -/
def vop (f ty a b i : Nat) : Nat :=
  let re := fun v => vre ty v i
  let im := fun v => vim ty v i
  let x := vel ty a i
  let y := vel ty b i
  if f = 0 then if tyC ty then mkC ty (re a + re b) (im a + im b) else x + y
  else if f = 1 then if tyC ty then mkC ty (re a - re b) (im a - im b) else ofS (tyW ty) (re a - re b)
  else if f = 2 then
    if tyC ty then mkC ty (re a * re b - im a * im b) (re a * im b + im a * re b) else ofS (tyW ty) (re a * re b)
  else if f = 3 then x &&& y
  else if f = 4 then x ||| y
  else if f = 5 then x ^^^ y
  else if f = 6 then
    let n := y % tyP ty
    if tyC ty then mkC ty (re a / (2 ^ n : Nat)) (im a / (2 ^ n : Nat)) else ofS (tyW ty) (re a / (2 ^ n : Nat))
  else if f = 7 then if re a ≤ re b then x else y
  else if re a ≤ re b then y else x

/-- Major 0x28: vmin and vmax of complex types are ILLEGAL. -/
def State.tzVop (x : Issue) (f : Nat) (i : VIns) (s : State) : State :=
  s.issue x 0 (encV 0x28 f i) (isEng x.core && (f < 7 || !tyC i.ty))
    (fun s => (.next, s.setV x.core i.vd (vmap i.ty (s.v x.core i.vd) (s.vsel x.core i.pm i.ty)
      (vop f i.ty (s.v x.core i.va) (s.v x.core i.vb)))))

/-- VADD (R333). -/
def execVadd (x : Issue) (i : VIns) (s : State) : Host.Outcome State Fault Refusal := .next (s.tzVop x 0 i)
/-- VSUB (R333). -/
def execVsub (x : Issue) (i : VIns) (s : State) : Host.Outcome State Fault Refusal := .next (s.tzVop x 1 i)
/-- VMUL (R333). -/
def execVmul (x : Issue) (i : VIns) (s : State) : Host.Outcome State Fault Refusal := .next (s.tzVop x 2 i)
/-- VAND (R333). -/
def execVand (x : Issue) (i : VIns) (s : State) : Host.Outcome State Fault Refusal := .next (s.tzVop x 3 i)
/-- VOR (R333). -/
def execVor (x : Issue) (i : VIns) (s : State) : Host.Outcome State Fault Refusal := .next (s.tzVop x 4 i)
/-- VXOR (R333). -/
def execVxor (x : Issue) (i : VIns) (s : State) : Host.Outcome State Fault Refusal := .next (s.tzVop x 5 i)
/-- VSHR (R333). -/
def execVshr (x : Issue) (i : VIns) (s : State) : Host.Outcome State Fault Refusal := .next (s.tzVop x 6 i)
/-- VMIN (R333). -/
def execVmin (x : Issue) (i : VIns) (s : State) : Host.Outcome State Fault Refusal := .next (s.tzVop x 7 i)
/-- VMAX (R333). -/
def execVmax (x : Issue) (i : VIns) (s : State) : Host.Outcome State Fault Refusal := .next (s.tzVop x 8 i)

/-! ## Accumulation (Table 10.7) -/

/-- Products per accumulator, G. -/
def accG (ty : Nat) : Nat :=
  if ty = 0 then 8 else if ty = 1 then 4 else if ty = 2 then 2 else if ty = 3 then 2
  else if ty = 4 then 8 else if ty = 5 then 4 else if ty = 6 then 4 else 2
/-- Width of an accumulator, or of each of its parts. -/
def accW (ty : Nat) : Nat := if ty = 3 ∨ ty = 6 ∨ ty = 7 then 64 else 32
/-- Accumulators in vd. -/
def accN (ty : Nat) : Nat := tyN ty / accG ty

/-- Sum of the selected products of accumulator `j`: real products, or the real or imaginary parts of complex ones. -/
def accSum (ty j : Nat) (sel : Nat → Bool) (f : Nat → Int) : Int :=
  (List.range (accG ty)).foldl (fun n k => if sel (accG ty * j + k) then n + f (accG ty * j + k) else n) 0

/-- vd after vmac of real elements. -/
def vmacReal (ty old a b : Nat) (sel : Nat → Bool) : Nat :=
  (List.range (accN ty)).foldl (fun v j =>
    putBits (j * accW ty) (accW ty) (ofS (accW ty) (toS (accW ty) (bits (j * accW ty) (accW ty) old) +
      accSum ty j sel (fun i => vre ty a i * vre ty b i))) v) old

/-- vd after vcmac (sign 1) or vcmacj (sign −1) of complex elements. -/
def vmacCplx (ty old a b : Nat) (sg : Int) (sel : Nat → Bool) : Nat :=
  let w := accW ty
  (List.range (accN ty)).foldl (fun v j =>
    let re := toS w (bits (2 * j * w) w old) +
      accSum ty j sel (fun i => vre ty a i * vre ty b i - vim ty a i * (sg * vim ty b i))
    let im := toS w (bits ((2 * j + 1) * w) w old) +
      accSum ty j sel (fun i => vre ty a i * (sg * vim ty b i) + vim ty a i * vre ty b i)
    putBits ((2 * j + 1) * w) w (ofS w im) (putBits (2 * j * w) w (ofS w re) v)) old

/-- VMAC: real types only (R334). -/
def execVmac (x : Issue) (i : VIns) (s : State) : Host.Outcome State Fault Refusal :=
  .next (s.issue x 0 (encV 0x29 0 i) (isEng x.core && !tyC i.ty)
    (fun s => (.next, s.setV x.core i.vd (vmacReal i.ty (s.v x.core i.vd) (s.v x.core i.va) (s.v x.core i.vb)
      (s.vsel x.core i.pm i.ty)))))

/-- Major 0x2A, f 0 vcmac, 1 vcmacj: complex types only (R334). -/
def State.tzVcmac (x : Issue) (f : Nat) (i : VIns) (s : State) : State :=
  s.issue x 0 (encV 0x2A f i) (isEng x.core && tyC i.ty)
    (fun s => (.next, s.setV x.core i.vd (vmacCplx i.ty (s.v x.core i.vd) (s.v x.core i.va) (s.v x.core i.vb)
      (if f = 0 then 1 else -1) (s.vsel x.core i.pm i.ty))))

/-- VCMAC (R334). -/
def execVcmac (x : Issue) (i : VIns) (s : State) : Host.Outcome State Fault Refusal := .next (s.tzVcmac x 0 i)
/-- VCMACJ (R334). -/
def execVcmacj (x : Issue) (i : VIns) (s : State) : Host.Outcome State Fault Refusal := .next (s.tzVcmac x 1 i)

/-! ## Reduction (R335) -/

/-- The selected element indices. -/
def selIdx (ty : Nat) (sel : Nat → Bool) : List Nat := (List.range (tyN ty)).filter sel

/-- vred.sum. -/
def vredSum (ty a : Nat) (sel : Nat → Bool) : Nat :=
  let sum := fun (f : Nat → Int) => (selIdx ty sel).foldl (fun n i => n + f i) 0
  if tyC ty then u64' (sum (vre ty a)) + u64' (sum (vim ty a)) * 2 ^ 64 else u64' (sum (vre ty a))
where u64' (i : Int) : Nat := ofS 64 i

/-- The first selected element that is largest by `key`, in index order. -/
def bestIdx (key : Nat → Int) : List Nat → Option Nat
  | [] => none
  | i :: t => match bestIdx key t with
    | none => some i
    | some j => if key i < key j then some j else some i

/-- vred.max: with no element selected the value fields are 0 and the index field is ones. -/
def vredMax (ty a : Nat) (sel : Nat → Bool) : Nat :=
  let key := fun i => if tyC ty then vre ty a i * vre ty a i + vim ty a i * vim ty a i else vre ty a i
  match bestIdx key (selIdx ty sel) with
  | none => if tyC ty then ones64 * 2 ^ 128 else ones64 * 2 ^ 64
  | some i =>
    if tyC ty then ofS 64 (vre ty a i) + ofS 64 (vim ty a i) * 2 ^ 64 + i * 2 ^ 128
    else ofS 64 (vre ty a i) + i * 2 ^ 64

/-- vred.cat: the selected elements packed from element 0. -/
def vredCat (ty a : Nat) (sel : Nat → Bool) : Nat :=
  ((selIdx ty sel).zip (List.range (tyN ty))).foldl (fun v p => v + vel ty a p.1 * 2 ^ (p.2 * tyW ty)) 0

/-- Major 0x2B: vb 0; the bits of vd it does not write become 0. -/
def State.tzVred (x : Issue) (f : Nat) (i : VIns) (s : State) : State :=
  s.issue x 0 (encV 0x2B f i) (isEng x.core && i.vb == 0)
    (fun s =>
      let a := s.v x.core i.va
      let sel := s.vsel x.core i.pm i.ty
      (.next, s.setV x.core i.vd (if f = 0 then vredSum i.ty a sel else if f = 1 then vredMax i.ty a sel
        else vredCat i.ty a sel)))

/-- VRED_SUM (R335). -/
def execVredSum (x : Issue) (i : VIns) (s : State) : Host.Outcome State Fault Refusal := .next (s.tzVred x 0 i)
/-- VRED_MAX (R335). -/
def execVredMax (x : Issue) (i : VIns) (s : State) : Host.Outcome State Fault Refusal := .next (s.tzVred x 1 i)
/-- VRED_CAT (R335). -/
def execVredCat (x : Issue) (i : VIns) (s : State) : Host.Outcome State Fault Refusal := .next (s.tzVred x 2 i)

/-! ## Moves (R336) -/

/-- VMOV (R336). -/
def execVmov (x : Issue) (i : VIns) (s : State) : Host.Outcome State Fault Refusal :=
  .next (s.issue x 0 (encV 0x2E 0 i) (isEng x.core)
    (fun s => (.next, s.setV x.core i.vd (vmap i.ty (s.v x.core i.vd) (s.vsel x.core i.pm i.ty)
      (vel i.ty (s.v x.core i.va))))))

/-- VSPLAT (R336): va names a g register; a complex element takes its low bits as real part, the next as imaginary. -/
def execVsplat (x : Issue) (i : VIns) (s : State) : Host.Outcome State Fault Refusal :=
  .next (s.issue x 0 (encV 0x2E 1 i) (isEng x.core)
    (fun s => (.next, s.setV x.core i.vd (vmap i.ty (s.v x.core i.vd) (s.vsel x.core i.pm i.ty)
      (fun _ => s.g x.core i.va)))))

/-- VPERM (R336): the index is vb[i] unsigned, its real part for a complex type, modulo the element count. -/
def execVperm (x : Issue) (i : VIns) (s : State) : Host.Outcome State Fault Refusal :=
  .next (s.issue x 0 (encV 0x2E 2 i) (isEng x.core)
    (fun s => (.next, s.setV x.core i.vd (vmap i.ty (s.v x.core i.vd) (s.vsel x.core i.pm i.ty)
      (fun k => vel i.ty (s.v x.core i.va) (vel i.ty (s.v x.core i.vb) k % 2 ^ tyP i.ty % tyN i.ty))))))

/-! ## Conversion (R337) -/

/-- Saturation of a signed value to `w` bits. -/
def satS (w : Nat) (i : Int) : Int := max (-(2 ^ (w - 1) : Nat)) (min i ((2 ^ (w - 1) : Nat) - 1))

/-- The pair of types is one vcvt takes: both real or both complex, widths equal or a factor of 2 apart. -/
def cvtOk (a b : Nat) : Bool :=
  tyC a == tyC b && (tyW a == tyW b || tyW a == 2 * tyW b || tyW b == 2 * tyW a)

/-- An element of `src` carried to type `ty`, each part saturated. -/
def cvtEl (ty src a i : Nat) : Nat :=
  if tyC ty then mkC ty (satS (tyP ty) (vre src a i)) (satS (tyP ty) (vim src a i)) else ofS (tyW ty) (satS (tyW ty) (vre src a i))

/-- vd after vcvt from type `src` to `dst`, half `h`. -/
def vcvt (src dst h old a : Nat) (sel : Nat → Bool) : Nat :=
  if tyW src = tyW dst then vmap dst old sel (vel src a)
  else if tyW src < tyW dst then vmap dst old sel (fun i => cvtEl dst src a (h * tyN dst + i))
  else vmap dst old (fun i => i / tyN src == h && sel i) (fun i => cvtEl dst src a (i % tyN src))

/-- VCVT (R337): f[2:0] the destination type, f[3] the half; pm selects destination lanes. -/
def execVcvt (x : Issue) (f : Fin 16) (i : VIns) (s : State) : Host.Outcome State Fault Refusal :=
  .next (s.issue x 0 (encV 0x2F f i) (isEng x.core && cvtOk i.ty (f % 8))
    (fun s => (.next, s.setV x.core i.vd (vcvt i.ty (f % 8) (f / 8) (s.v x.core i.vd) (s.v x.core i.va)
      (s.vsel x.core i.pm (f % 8))))))

end Sys2Proof.Machine
end

