-- ==== Sys2Proof/Machine/Dispatch.lean ====
section
/-! DEFINITION. The dispatch: one arm per constructor of Instr, each a direct call of its meaning. -/

namespace Sys2Proof.Machine

/-- The effect of one command on everything but the queue. -/
def exec (i : Instr) (s : State) : Host.Outcome State Fault Refusal :=
  match i with
  | .registerWrite r a v narrow => Sys2Proof.Machine.execRegisterWrite r a v narrow s
  | .multiwordLowRead r a => Sys2Proof.Machine.execMultiwordLowRead r a s
  | .multiwordHighWrite r a v => Sys2Proof.Machine.execMultiwordHighWrite r a v s
  | .shadowWrite r a v => Sys2Proof.Machine.execShadowWrite r a v s
  | .commitMarkWrite r k v => Sys2Proof.Machine.execCommitMarkWrite r k v s
  | .commitPendClear r k v => Sys2Proof.Machine.execCommitPendClear r k v s
  | .commit r gen => Sys2Proof.Machine.execCommit r gen s
  | .rollback r gen => Sys2Proof.Machine.execRollback r gen s
  | .cancel r => Sys2Proof.Machine.execCancel r s
  | .commitApply => Sys2Proof.Machine.execCommitApply s
  | .commitGraceExpiry => Sys2Proof.Machine.execCommitGraceExpiry s
  | .commitLateApply u => Sys2Proof.Machine.execCommitLateApply u s
  | .internalCommitRequest mode role src => Sys2Proof.Machine.execInternalCommitRequest mode role src s
  | .internalCommitIssue => Sys2Proof.Machine.execInternalCommitIssue s
  | .laneModeWrite r n mode fec medium => Sys2Proof.Machine.execLaneModeWrite r n mode fec medium s
  | .laneTxeqWrite r n v => Sys2Proof.Machine.execLaneTxeqWrite r n v s
  | .laneRawWrite r n div vco => Sys2Proof.Machine.execLaneRawWrite r n div vco s
  | .quadCtlWrite r q family txRef vco => Sys2Proof.Machine.execQuadCtlWrite r q family txRef vco s
  | .quadPllLock q => Sys2Proof.Machine.execQuadPllLock q s
  | .txIdleExit r n => Sys2Proof.Machine.execTxIdleExit r n s
  | .rxCdrAcquire n => Sys2Proof.Machine.execRxCdrAcquire n s
  | .slip r n => Sys2Proof.Machine.execSlip r n s
  | .slipDone n => Sys2Proof.Machine.execSlipDone n s
  | .alignmentEvent n word gbx fec am => Sys2Proof.Machine.execAlignmentEvent n word gbx fec am s
  | .anResolved n mode => Sys2Proof.Machine.execAnResolved n mode s
  | .eyeScan n w h worst => Sys2Proof.Machine.execEyeScan n w h worst s
  | .offerReceive t rate switch countdown => Sys2Proof.Machine.execOfferReceive t rate switch countdown s
  | .twinSwitchLock t => Sys2Proof.Machine.execTwinSwitchLock t s
  | .twinSwitchTimeout t => Sys2Proof.Machine.execTwinSwitchTimeout t s
  | .twinLockLoss t => Sys2Proof.Machine.execTwinLockLoss t s
  | .skipBlockReceive t fill slip => Sys2Proof.Machine.execSkipBlockReceive t fill slip s
  | .moduleGo r m len write => Sys2Proof.Machine.execModuleGo r m len write s
  | .moduleTransactionDone m res => Sys2Proof.Machine.execModuleTransactionDone m res s
  | .moduleTimeout m => Sys2Proof.Machine.execModuleTimeout m s
  | .moduleChange p present cmis => Sys2Proof.Machine.execModuleChange p present cmis s
  | .measPost r ofs at_ src => Sys2Proof.Machine.execMeasPost r ofs at_ src s
  | .jumpPersist => Sys2Proof.Machine.execJumpPersist s
  | .servoCycleBoundary phase => Sys2Proof.Machine.execServoCycleBoundary phase s
  | .servoDeadline => Sys2Proof.Machine.execServoDeadline s
  | .bellFwUpd r freq seq => Sys2Proof.Machine.execBellFwUpd r freq seq s
  | .stepReq r kind => Sys2Proof.Machine.execStepReq r kind s
  | .stepDone => Sys2Proof.Machine.execStepDone s
  | .stepAuth r gen => Sys2Proof.Machine.execStepAuth r gen s
  | .replicaMarker n agrees stepFlag => Sys2Proof.Machine.execReplicaMarker n agrees stepFlag s
  | .replicaEcho n dly => Sys2Proof.Machine.execReplicaEcho n dly s
  | .coarseCopySet => Sys2Proof.Machine.execCoarseCopySet s
  | .leapApplied => Sys2Proof.Machine.execLeapApplied s
  | .frameReceive p x octets => Sys2Proof.Machine.execFrameReceive p x octets s
  | .phasePublish n tx rx => Sys2Proof.Machine.execPhasePublish n tx rx s
  | .sensorSample x bad => Sys2Proof.Machine.execSensorSample x bad s
  | .delayCheckStart r p => Sys2Proof.Machine.execDelayCheckStart r p s
  | .delayCheckWaitExpiry p cmis resid => Sys2Proof.Machine.execDelayCheckWaitExpiry p cmis resid s
  | .delayCheckDone p rt => Sys2Proof.Machine.execDelayCheckDone p rt s
  | .asymSurveyStart r p probe => Sys2Proof.Machine.execAsymSurveyStart r p probe s
  | .loopbackSurveyStart r p => Sys2Proof.Machine.execLoopbackSurveyStart r p s
  | .loopbackPhase1Done mean bad rec => Sys2Proof.Machine.execLoopbackPhase1Done mean bad rec s
  | .loopbackProbeTimeout => Sys2Proof.Machine.execLoopbackProbeTimeout s
  | .loopbackSurveyDone rt => Sys2Proof.Machine.execLoopbackSurveyDone rt s
  | .surveyAbort r => Sys2Proof.Machine.execSurveyAbort r s
  | .surveyApply r => Sys2Proof.Machine.execSurveyApply r s
  | .surveyExchange => Sys2Proof.Machine.execSurveyExchange s
  | .surveyReqReceive p t2 m => Sys2Proof.Machine.execSurveyReqReceive p t2 m s
  | .surveyRespReceive p t4 m => Sys2Proof.Machine.execSurveyRespReceive p t4 m s
  | .surveyTuneReceive p m ok => Sys2Proof.Machine.execSurveyTuneReceive p m ok s
  | .surveyTuneAckReceive p m => Sys2Proof.Machine.execSurveyTuneAckReceive p m s
  | .surveyEndReceive p m => Sys2Proof.Machine.execSurveyEndReceive p m s
  | .retuneWaitExpiry tuned => Sys2Proof.Machine.execRetuneWaitExpiry tuned s
  | .surveyTuneTimeout => Sys2Proof.Machine.execSurveyTuneTimeout s
  | .surveyPeerTimeout => Sys2Proof.Machine.execSurveyPeerTimeout s
  | .surveySolve => Sys2Proof.Machine.execSurveySolve s
  | .slotEnableWrite r n v => Sys2Proof.Machine.execSlotEnableWrite r n v s
  | .slotSrcWrite r n src => Sys2Proof.Machine.execSlotSrcWrite r n src s
  | .slotLockoutWrite r n v => Sys2Proof.Machine.execSlotLockoutWrite r n v s
  | .signalPresenceChange src present => Sys2Proof.Machine.execSignalPresenceChange src present s
  | .monitorEvaluation ms => Sys2Proof.Machine.execMonitorEvaluation ms s
  | .longWindowEvaluation ms => Sys2Proof.Machine.execLongWindowEvaluation ms s
  | .wtrExpiry n => Sys2Proof.Machine.execWtrExpiry n s
  | .forceWrite r en slot => Sys2Proof.Machine.execForceWrite r en slot s
  | .esmcReceive p ssm ext => Sys2Proof.Machine.execEsmcReceive p ssm ext s
  | .esmcTimeout p => Sys2Proof.Machine.execEsmcTimeout p s
  | .esmcInfoSend p => Sys2Proof.Machine.execEsmcInfoSend p s
  | .esmcEventSend p => Sys2Proof.Machine.execEsmcEventSend p s
  | .referenceLoopUpdate phase => Sys2Proof.Machine.execReferenceLoopUpdate phase s
  | .opllUnlock => Sys2Proof.Machine.execOpllUnlock s
  | .opllRelock => Sys2Proof.Machine.execOpllRelock s
  | .holdoverHistoryEntry => Sys2Proof.Machine.execHoldoverHistoryEntry s
  | .holdoverExpired => Sys2Proof.Machine.execHoldoverExpired s
  | .dacTransfer => Sys2Proof.Machine.execDacTransfer s
  | .dacCodeWrite r v => Sys2Proof.Machine.execDacCodeWrite r v s
  | .trigArm r k => Sys2Proof.Machine.execTrigArm r k s
  | .trigDisarm r k => Sys2Proof.Machine.execTrigDisarm r k s
  | .triggerFire k => Sys2Proof.Machine.execTriggerFire k s
  | .triggerDone k => Sys2Proof.Machine.execTriggerDone k s
  | .todSend => Sys2Proof.Machine.execTodSend s
  | .captureEdge k rise ofs => Sys2Proof.Machine.execCaptureEdge k rise ofs s
  | .captureFifoRead r k => Sys2Proof.Machine.execCaptureFifoRead r k s
  | .intervalTimeout j => Sys2Proof.Machine.execIntervalTimeout j s
  | .frameDeparture p x => Sys2Proof.Machine.execFrameDeparture p x s
  | .frameTransmitEnd p => Sys2Proof.Machine.execFrameTransmitEnd p s
  | .ringEnableWrite r p w => Sys2Proof.Machine.execRingEnableWrite r p w s
  | .peerDelayRespond p => Sys2Proof.Machine.execPeerDelayRespond p s
  | .pdelayFollowUpSend p => Sys2Proof.Machine.execPdelayFollowUpSend p s
  | .observerMessage o h m => Sys2Proof.Machine.execObserverMessage o h m s
  | .observerStale o => Sys2Proof.Machine.execObserverStale o s
  | .observerCfgWrite r o w => Sys2Proof.Machine.execObserverCfgWrite r o w s
  | .headWindowComplete p => Sys2Proof.Machine.execHeadWindowComplete p s
  | .frameComplete p => Sys2Proof.Machine.execFrameComplete p s
  | .cutThroughUnderrun p => Sys2Proof.Machine.execCutThroughUnderrun p s
  | .schedulerSelect p ue => Sys2Proof.Machine.execSchedulerSelect p ue s
  | .programWordWrite r c eg bankB k w => Sys2Proof.Machine.execProgramWordWrite r c eg bankB k w s
  | .lkpTblWrite r t word1 w => Sys2Proof.Machine.execLkpTblWrite r t word1 w s
  | .lkpNop r i0 tbl vis => Sys2Proof.Machine.execLkpNop r i0 tbl vis s
  | .lkpInsert r i0 tbl vis => Sys2Proof.Machine.execLkpInsert r i0 tbl vis s
  | .lkpDelete r i0 tbl vis => Sys2Proof.Machine.execLkpDelete r i0 tbl vis s
  | .lkpModify r i0 tbl vis => Sys2Proof.Machine.execLkpModify r i0 tbl vis s
  | .lkpReadKey r i0 tbl vis => Sys2Proof.Machine.execLkpReadKey r i0 tbl vis s
  | .lkpReadIndex r i0 tbl vis => Sys2Proof.Machine.execLkpReadIndex r i0 tbl vis s
  | .lkpWriteIndex r i0 tbl vis => Sys2Proof.Machine.execLkpWriteIndex r i0 tbl vis s
  | .lkpClearHit r i0 tbl vis => Sys2Proof.Machine.execLkpClearHit r i0 tbl vis s
  | .gateEdge p => Sys2Proof.Machine.execGateEdge p s
  | .gateListSwap p => Sys2Proof.Machine.execGateListSwap p s
  | .pauseReceive p quanta => Sys2Proof.Machine.execPauseReceive p quanta s
  | .pfcReceive p en times => Sys2Proof.Machine.execPfcReceive p en times s
  | .pauseExpiry p c => Sys2Proof.Machine.execPauseExpiry p c s
  | .pauseFrameSend p c => Sys2Proof.Machine.execPauseFrameSend p c s
  | .pauseStorm p t => Sys2Proof.Machine.execPauseStorm p t s
  | .pauseHoldExpiry p t => Sys2Proof.Machine.execPauseHoldExpiry p t s
  | .portEnWrite r p v => Sys2Proof.Machine.execPortEnWrite r p v s
  | .linkDown p lock => Sys2Proof.Machine.execLinkDown p lock s
  | .linkUp p => Sys2Proof.Machine.execLinkUp p s
  | .holdoffExpiry p => Sys2Proof.Machine.execHoldoffExpiry p s
  | .flushStep sl => Sys2Proof.Machine.execFlushStep sl s
  | .poolRequest fp fe rs => Sys2Proof.Machine.execPoolRequest fp fe rs s
  | .bufferRef w h k => Sys2Proof.Machine.execBufferRef w h k s
  | .bufferDeref w h k => Sys2Proof.Machine.execBufferDeref w h k s
  | .poolThaw r h => Sys2Proof.Machine.execPoolThaw r h s
  | .poolOpenWrite r v => Sys2Proof.Machine.execPoolOpenWrite r v s
  | .spillEnWrite r v => Sys2Proof.Machine.execSpillEnWrite r v s
  | .spill p t => Sys2Proof.Machine.execSpill p t s
  | .refill p t => Sys2Proof.Machine.execRefill p t s
  | .stackFail k c => Sys2Proof.Machine.execStackFail k c s
  | .stackMark r k => Sys2Proof.Machine.execStackMark r k s
  | .wipeDone m => Sys2Proof.Machine.execWipeDone m s
  | .threadStart r e t => Sys2Proof.Machine.execThreadStart r e t s
  | .threadStop r e t => Sys2Proof.Machine.execThreadStop r e t s
  | .threadResume r e t => Sys2Proof.Machine.execThreadResume r e t s
  | .threadClear r e t => Sys2Proof.Machine.execThreadClear r e t s
  | .stopAll r e => Sys2Proof.Machine.execStopAll r e s
  | .engCinvWrite r e => Sys2Proof.Machine.execEngCinvWrite r e s
  | .engMark r e => Sys2Proof.Machine.execEngMark r e s
  | .engFreset r e => Sys2Proof.Machine.execEngFreset r e s
  | .pantryWipeDone e => Sys2Proof.Machine.execPantryWipeDone e s
  | .asyncStoreFail e t a => Sys2Proof.Machine.execAsyncStoreFail e t a s
  | .waitDeadline e t => Sys2Proof.Machine.execWaitDeadline e t s
  | .hatchPut r e h v => Sys2Proof.Machine.execHatchPut r e h v s
  | .engineQueueOffer e q h md => Sys2Proof.Machine.execEngineQueueOffer e q h md s
  | .add x i0 => Sys2Proof.Machine.execAdd x i0 s
  | .sub x i0 => Sys2Proof.Machine.execSub x i0 s
  | .tzAnd x i0 => Sys2Proof.Machine.execTzAnd x i0 s
  | .or x i0 => Sys2Proof.Machine.execOr x i0 s
  | .xor x i0 => Sys2Proof.Machine.execXor x i0 s
  | .shl x i0 => Sys2Proof.Machine.execShl x i0 s
  | .shr x i0 => Sys2Proof.Machine.execShr x i0 s
  | .sar x i0 => Sys2Proof.Machine.execSar x i0 s
  | .mul x i0 => Sys2Proof.Machine.execMul x i0 s
  | .mulh x i0 => Sys2Proof.Machine.execMulh x i0 s
  | .div x i0 => Sys2Proof.Machine.execDiv x i0 s
  | .rem x i0 => Sys2Proof.Machine.execRem x i0 s
  | .min x i0 => Sys2Proof.Machine.execMin x i0 s
  | .max x i0 => Sys2Proof.Machine.execMax x i0 s
  | .minu x i0 => Sys2Proof.Machine.execMinu x i0 s
  | .maxu x i0 => Sys2Proof.Machine.execMaxu x i0 s
  | .addi x i0 => Sys2Proof.Machine.execAddi x i0 s
  | .andi x i0 => Sys2Proof.Machine.execAndi x i0 s
  | .ori x i0 => Sys2Proof.Machine.execOri x i0 s
  | .xori x i0 => Sys2Proof.Machine.execXori x i0 s
  | .shli x i0 => Sys2Proof.Machine.execShli x i0 s
  | .shri x i0 => Sys2Proof.Machine.execShri x i0 s
  | .sari x i0 => Sys2Proof.Machine.execSari x i0 s
  | .lui x i0 => Sys2Proof.Machine.execLui x i0 s
  | .cmp x f i0 => Sys2Proof.Machine.execCmp x f i0 s
  | .cmpi x i0 => Sys2Proof.Machine.execCmpi x i0 s
  | .pand x i0 => Sys2Proof.Machine.execPand x i0 s
  | .por x i0 => Sys2Proof.Machine.execPor x i0 s
  | .pxor x i0 => Sys2Proof.Machine.execPxor x i0 s
  | .pandn x i0 => Sys2Proof.Machine.execPandn x i0 s
  | .pmov x k i0 => Sys2Proof.Machine.execPmov x k i0 s
  | .bfx x i0 => Sys2Proof.Machine.execBfx x i0 s
  | .bfi x i0 => Sys2Proof.Machine.execBfi x i0 s
  | .br x i0 => Sys2Proof.Machine.execBr x i0 s
  | .brn x i0 => Sys2Proof.Machine.execBrn x i0 s
  | .jal x i0 => Sys2Proof.Machine.execJal x i0 s
  | .skip x i0 => Sys2Proof.Machine.execSkip x i0 s
  | .ldB x ue i0 => Sys2Proof.Machine.execLdB x ue i0 s
  | .ldH x ue i0 => Sys2Proof.Machine.execLdH x ue i0 s
  | .ldW x ue i0 => Sys2Proof.Machine.execLdW x ue i0 s
  | .ldD x ue i0 => Sys2Proof.Machine.execLdD x ue i0 s
  | .stB x i0 => Sys2Proof.Machine.execStB x i0 s
  | .stH x i0 => Sys2Proof.Machine.execStH x i0 s
  | .stW x i0 => Sys2Proof.Machine.execStW x i0 s
  | .stD x i0 => Sys2Proof.Machine.execStD x i0 s
  | .amoAdd x ue i0 => Sys2Proof.Machine.execAmoAdd x ue i0 s
  | .amoAnd x ue i0 => Sys2Proof.Machine.execAmoAnd x ue i0 s
  | .amoOr x ue i0 => Sys2Proof.Machine.execAmoOr x ue i0 s
  | .amoXor x ue i0 => Sys2Proof.Machine.execAmoXor x ue i0 s
  | .amoSwap x ue i0 => Sys2Proof.Machine.execAmoSwap x ue i0 s
  | .amoMin x ue i0 => Sys2Proof.Machine.execAmoMin x ue i0 s
  | .amoMax x ue i0 => Sys2Proof.Machine.execAmoMax x ue i0 s
  | .amoMinu x ue i0 => Sys2Proof.Machine.execAmoMinu x ue i0 s
  | .amoMaxu x ue i0 => Sys2Proof.Machine.execAmoMaxu x ue i0 s
  | .cas x ue i0 => Sys2Proof.Machine.execCas x ue i0 s
  | .vadd x i0 => Sys2Proof.Machine.execVadd x i0 s
  | .vsub x i0 => Sys2Proof.Machine.execVsub x i0 s
  | .vmul x i0 => Sys2Proof.Machine.execVmul x i0 s
  | .vand x i0 => Sys2Proof.Machine.execVand x i0 s
  | .vor x i0 => Sys2Proof.Machine.execVor x i0 s
  | .vxor x i0 => Sys2Proof.Machine.execVxor x i0 s
  | .vshr x i0 => Sys2Proof.Machine.execVshr x i0 s
  | .vmin x i0 => Sys2Proof.Machine.execVmin x i0 s
  | .vmax x i0 => Sys2Proof.Machine.execVmax x i0 s
  | .vmac x i0 => Sys2Proof.Machine.execVmac x i0 s
  | .vcmac x i0 => Sys2Proof.Machine.execVcmac x i0 s
  | .vcmacj x i0 => Sys2Proof.Machine.execVcmacj x i0 s
  | .vredSum x i0 => Sys2Proof.Machine.execVredSum x i0 s
  | .vredMax x i0 => Sys2Proof.Machine.execVredMax x i0 s
  | .vredCat x i0 => Sys2Proof.Machine.execVredCat x i0 s
  | .vld x ue i0 => Sys2Proof.Machine.execVld x ue i0 s
  | .vst x i0 => Sys2Proof.Machine.execVst x i0 s
  | .vmov x i0 => Sys2Proof.Machine.execVmov x i0 s
  | .vsplat x i0 => Sys2Proof.Machine.execVsplat x i0 s
  | .vperm x i0 => Sys2Proof.Machine.execVperm x i0 s
  | .vcvt x f i0 => Sys2Proof.Machine.execVcvt x f i0 s
  | .fext x ue i0 => Sys2Proof.Machine.execFext x ue i0 s
  | .fins x i0 => Sys2Proof.Machine.execFins x i0 s
  | .fcsum x f i0 => Sys2Proof.Machine.execFcsum x f i0 s
  | .fcfadd x f i0 => Sys2Proof.Machine.execFcfadd x f i0 s
  | .mdld x i0 => Sys2Proof.Machine.execMdld x i0 s
  | .mdst x i0 => Sys2Proof.Machine.execMdst x i0 s
  | .fwin x i0 => Sys2Proof.Machine.execFwin x i0 s
  | .lkx x i0 => Sys2Proof.Machine.execLkx x i0 s
  | .lkt x i0 => Sys2Proof.Machine.execLkt x i0 s
  | .lkres x i0 => Sys2Proof.Machine.execLkres x i0 s
  | .lkupd x f i0 => Sys2Proof.Machine.execLkupd x f i0 s
  | .tnow x i0 => Sys2Proof.Machine.execTnow x i0 s
  | .tcmp x f i0 => Sys2Proof.Machine.execTcmp x f i0 s
  | .tadd x i0 => Sys2Proof.Machine.execTadd x i0 s
  | .tsub x i0 => Sys2Proof.Machine.execTsub x i0 s
  | .tmov x i0 => Sys2Proof.Machine.execTmov x i0 s
  | .tmovLo x i0 => Sys2Proof.Machine.execTmovLo x i0 s
  | .tmovHi x i0 => Sys2Proof.Machine.execTmovHi x i0 s
  | .tmovSet x i0 => Sys2Proof.Machine.execTmovSet x i0 s
  | .twait x i0 => Sys2Proof.Machine.execTwait x i0 s
  | .twaitFire c => Sys2Proof.Machine.execTwaitFire c s
  | .temit x f i0 => Sys2Proof.Machine.execTemit x f i0 s
  | .emitRelease e => Sys2Proof.Machine.execEmitRelease e s
  | .palloc x f i0 => Sys2Proof.Machine.execPalloc x f i0 s
  | .pderef x i0 => Sys2Proof.Machine.execPderef x i0 s
  | .pref x i0 => Sys2Proof.Machine.execPref x i0 s
  | .qenq x i0 => Sys2Proof.Machine.execQenq x i0 s
  | .qdeq x f i0 => Sys2Proof.Machine.execQdeq x f i0 s
  | .hput x i0 => Sys2Proof.Machine.execHput x i0 s
  | .hget x f i0 => Sys2Proof.Machine.execHget x f i0 s
  | .evraise x i0 => Sys2Proof.Machine.execEvraise x i0 s
  | .trap x i0 => Sys2Proof.Machine.execTrap x i0 s
  | .tret x i0 => Sys2Proof.Machine.execTret x i0 s
  | .fence x i0 => Sys2Proof.Machine.execFence x i0 s
  | .cinv x i0 => Sys2Proof.Machine.execCinv x i0 s
  | .yield x i0 => Sys2Proof.Machine.execYield x i0 s
  | .halt x i0 => Sys2Proof.Machine.execHalt x i0 s
  | .bkpt x i0 => Sys2Proof.Machine.execBkpt x i0 s
  | .csrr x i0 => Sys2Proof.Machine.execCsrr x i0 s
  | .csrw x i0 => Sys2Proof.Machine.execCsrw x i0 s
  | .contributionOffer hf => Sys2Proof.Machine.execContributionOffer hf s
  | .gatherStep e => Sys2Proof.Machine.execGatherStep e s
  | .binDeadline g => Sys2Proof.Machine.execBinDeadline g s
  | .outputAllocTimeout e => Sys2Proof.Machine.execOutputAllocTimeout e s
  | .reliveWrite r g m => Sys2Proof.Machine.execReliveWrite r g m s
  | .twinHelloSend => Sys2Proof.Machine.execTwinHelloSend s
  | .twinHelloReceive h b => Sys2Proof.Machine.execTwinHelloReceive h b s
  | .twinLinkTimeout => Sys2Proof.Machine.execTwinLinkTimeout s
  | .twinStateReceive h b => Sys2Proof.Machine.execTwinStateReceive h b s
  | .twinPhaseReqSend x => Sys2Proof.Machine.execTwinPhaseReqSend x s
  | .twinPhaseReqReceive h x y => Sys2Proof.Machine.execTwinPhaseReqReceive h x y s
  | .twinPhaseRespReceive h x t2 t3 => Sys2Proof.Machine.execTwinPhaseRespReceive h x t2 t3 s
  | .twnSwapGo r => Sys2Proof.Machine.execTwnSwapGo r s
  | .twinSwapReceive h t gen => Sys2Proof.Machine.execTwinSwapReceive h t gen s
  | .twinSwapAckReceive h accepted aligned => Sys2Proof.Machine.execTwinSwapAckReceive h accepted aligned s
  | .swapAckTimeout => Sys2Proof.Machine.execSwapAckTimeout s
  | .noActive => Sys2Proof.Machine.execNoActive s
  | .streamResetTimeout k => Sys2Proof.Machine.execStreamResetTimeout k s
  | .snapSave r => Sys2Proof.Machine.execSnapSave r s
  | .snapRestore r => Sys2Proof.Machine.execSnapRestore r s
  | .snapDone => Sys2Proof.Machine.execSnapDone s
  | .treeHelloSend => Sys2Proof.Machine.execTreeHelloSend s
  | .treeHelloReceive p h node role depth => Sys2Proof.Machine.execTreeHelloReceive p h node role depth s
  | .treeRegReceive p h a wr count words => Sys2Proof.Machine.execTreeRegReceive p h a wr count words s
  | .treeCommitReceive p h t tgen rollback => Sys2Proof.Machine.execTreeCommitReceive p h t tgen rollback s
  | .treeReportReceive p h tgen gen code split => Sys2Proof.Machine.execTreeReportReceive p h tgen gen code split s
  | .treeRecordReceive p h r => Sys2Proof.Machine.execTreeRecordReceive p h r s
  | .treeImageReceive p h id total ofs data => Sys2Proof.Machine.execTreeImageReceive p h id total ofs data s
  | .treeImageAckReceive p h id upto code => Sys2Proof.Machine.execTreeImageAckReceive p h id upto code s
  | .wghConfig slot seq args => Sys2Proof.Machine.execWghConfig slot seq args s
  | .wghRun slot seq => Sys2Proof.Machine.execWghRun slot seq s
  | .wghStop slot seq => Sys2Proof.Machine.execWghStop slot seq s
  | .wghSetParam seq args => Sys2Proof.Machine.execWghSetParam seq args s
  | .wghImageInstall seq len => Sys2Proof.Machine.execWghImageInstall seq len s
  | .wghImageInstalled => Sys2Proof.Machine.execWghImageInstalled s
  | .wghVerify seq args => Sys2Proof.Machine.execWghVerify seq args s
  | .wghVerifyDone fails => Sys2Proof.Machine.execWghVerifyDone fails s
  | .wghReadId seq => Sys2Proof.Machine.execWghReadId seq s
  | .wghHostWrite r => Sys2Proof.Machine.execWghHostWrite r s
  | .weighhouseEdge e => Sys2Proof.Machine.execWeighhouseEdge e s
  | .interpolatorCalibrate src n1 n2 => Sys2Proof.Machine.execInterpolatorCalibrate src n1 n2 s
  | .ovrRateClear src => Sys2Proof.Machine.execOvrRateClear src s
  | .wghIntervalTimeout slot => Sys2Proof.Machine.execWghIntervalTimeout slot s
  | .recordSign => Sys2Proof.Machine.execRecordSign s
  | .updateBegin m seq bank => Sys2Proof.Machine.execUpdateBegin m seq bank s
  | .updateWrite m seq addr len ofs => Sys2Proof.Machine.execUpdateWrite m seq addr len ofs s
  | .updateActivate m seq => Sys2Proof.Machine.execUpdateActivate m seq s
  | .updateConfirm m seq => Sys2Proof.Machine.execUpdateConfirm m seq s
  | .confirmTimeout => Sys2Proof.Machine.execConfirmTimeout s
  | .loadImage m seq id mask => Sys2Proof.Machine.execLoadImage m seq id mask s
  | .wghPassthrough m seq words => Sys2Proof.Machine.execWghPassthrough m seq words s
  | .lcReq m seq target => Sys2Proof.Machine.execLcReq m seq target s
  | .keyProg m seq slot => Sys2Proof.Machine.execKeyProg m seq slot s
  | .revoke m seq slot => Sys2Proof.Machine.execRevoke m seq slot s
  | .shutdown m seq lbist v => Sys2Proof.Machine.execShutdown m seq lbist v s
  | .lbistRun m seq v => Sys2Proof.Machine.execLbistRun m seq v s
  | .almanacWrite m seq set addr => Sys2Proof.Machine.execAlmanacWrite m seq set addr s
  | .contextRestore m seq dom => Sys2Proof.Machine.execContextRestore m seq dom s
  | .unmark m seq loc => Sys2Proof.Machine.execUnmark m seq loc s
  | .recoveryGo m seq => Sys2Proof.Machine.execRecoveryGo m seq s
  | .wdtKick r v => Sys2Proof.Machine.execWdtKick r v s
  | .wdtTrip => Sys2Proof.Machine.execWdtTrip s
  | .boot v alm => Sys2Proof.Machine.execBoot v alm s
  | .recoveryRetry loc n fails => Sys2Proof.Machine.execRecoveryRetry loc n fails s
  | .recoveryReinit loc => Sys2Proof.Machine.execRecoveryReinit loc s
  | .recoveryPowerCycle => Sys2Proof.Machine.execRecoveryPowerCycle s
  | .railGood rail => Sys2Proof.Machine.execRailGood rail s
  | .supplyCautionEntry rail mv => Sys2Proof.Machine.execSupplyCautionEntry rail mv s
  | .supplyCautionExit => Sys2Proof.Machine.execSupplyCautionExit s
  | .supplyReset rail => Sys2Proof.Machine.execSupplyReset rail s
  | .vidStep => Sys2Proof.Machine.execVidStep s
  | .hearthSrcChange src pd cls => Sys2Proof.Machine.execHearthSrcChange src pd cls s
  | .hrtPwrReqWrite r req railsOff => Sys2Proof.Machine.execHrtPwrReqWrite r req railsOff s
  | .domainPowered d => Sys2Proof.Machine.execDomainPowered d s
  | .wake pin => Sys2Proof.Machine.execWake pin s
  | .crystalStable => Sys2Proof.Machine.execCrystalStable s
  | .crystalLoss => Sys2Proof.Machine.execCrystalLoss s
  | .ocxoLoss => Sys2Proof.Machine.execOcxoLoss s
  | .hclkRetry r present => Sys2Proof.Machine.execHclkRetry r present s
  | .clkEnWrite r v => Sys2Proof.Machine.execClkEnWrite r v s
  | .coldStart ocxo => Sys2Proof.Machine.execColdStart ocxo s
  | .hearthKeptStart => Sys2Proof.Machine.execHearthKeptStart s
  | .pinReset => Sys2Proof.Machine.execPinReset s
  | .glbReset r warm key => Sys2Proof.Machine.execGlbReset r warm key s
  | .warmReset => Sys2Proof.Machine.execWarmReset s
  | .glbFreset r loc => Sys2Proof.Machine.execGlbFreset r loc s
  | .functionResetDone k => Sys2Proof.Machine.execFunctionResetDone k s
  | .vectorHoldExpiry v => Sys2Proof.Machine.execVectorHoldExpiry v s
  | .rearmWrite r v => Sys2Proof.Machine.execRearmWrite r v s
  | .rfifoRead r => Sys2Proof.Machine.execRfifoRead r s
  | .tallyCfgWrite r i0 cfg wraps => Sys2Proof.Machine.execTallyCfgWrite r i0 cfg wraps s
  | .counterWrap i0 => Sys2Proof.Machine.execCounterWrap i0 s
  | .tallyDump late => Sys2Proof.Machine.execTallyDump late s
  | .sampleTag e => Sys2Proof.Machine.execSampleTag e s
  | .sampleRecord e x => Sys2Proof.Machine.execSampleRecord e x s
  | .endpointReset => Sys2Proof.Machine.execEndpointReset s
  | .dmaRingEnable r q w => Sys2Proof.Machine.execDmaRingEnable r q w s
  | .dmaTxDescriptor q => Sys2Proof.Machine.execDmaTxDescriptor q s
  | .dmaRxFrame q => Sys2Proof.Machine.execDmaRxFrame q s
  | .i2cWrite a v pecBad => Sys2Proof.Machine.execI2cWrite a v pecBad s
  | .i2cRead a => Sys2Proof.Machine.execI2cRead a s
  | .i2cBusTimeout discarded => Sys2Proof.Machine.execI2cBusTimeout discarded s
  | .bypass => Sys2Proof.Machine.execBypass s
  | .idcode => Sys2Proof.Machine.execIdcode s
  | .samplePreload v => Sys2Proof.Machine.execSamplePreload v s
  | .extest => Sys2Proof.Machine.execExtest s
  | .extestPulse => Sys2Proof.Machine.execExtestPulse s
  | .extestTrain => Sys2Proof.Machine.execExtestTrain s
  | .clamp => Sys2Proof.Machine.execClamp s
  | .highz => Sys2Proof.Machine.execHighz s
  | .internalScan => Sys2Proof.Machine.execInternalScan s
  | .thermalTrip i0 v => Sys2Proof.Machine.execThermalTrip i0 v s
  | .thermalRelease => Sys2Proof.Machine.execThermalRelease s
  | .lifeMinute => Sys2Proof.Machine.execLifeMinute s
  | .lifeHour => Sys2Proof.Machine.execLifeHour s
  | .rcFieldRead r a => Sys2Proof.Machine.execRcFieldRead r a s
  | .receiverElectricalIdle n => Sys2Proof.Machine.execReceiverElectricalIdle n s
  | .crystalStableTimeout => Sys2Proof.Machine.execCrystalStableTimeout s
  | .pinResetRelease => Sys2Proof.Machine.execPinResetRelease s
  | .gateCautionEnd => Sys2Proof.Machine.execGateCautionEnd s
  | .cinvDone e => Sys2Proof.Machine.execCinvDone e s
  | .msixVectorUnmask v => Sys2Proof.Machine.execMsixVectorUnmask v s
  | .bar2Write a data => Sys2Proof.Machine.execBar2Write a data s
  | .hearthLinkLoss fails => Sys2Proof.Machine.execHearthLinkLoss fails s

end Sys2Proof.Machine
end

