-- ==== Sys2Proof/Machine/Step.lean ====
section
/-! DEFINITION. One step: the command at the front of the queue, or one bell tick of time while the queue is empty. -/

namespace Sys2Proof.Machine

/-- One step (log entry 1): with a command waiting, its effect on the state with the queue's rest; with none, one tick of
1.6 ns passes. -/
def step (s : State) : Host.Outcome State Fault Refusal :=
  match s.pending with
  | [] => .next (s.pass 1)
  | i :: l => exec i { s with pending := l }

/-- The state with the command that a word spells at the front of its queue. The table of operations gives no row any bits,
so no word spells one. -/
def State.withFetchWord (s : State) (nbits w : Nat) : State :=
  match decodeTableWord nbits w with
  | some i => { s with pending := i :: s.pending }
  | none => s

end Sys2Proof.Machine
end

