-- ==== Sys2Proof/WellFormed.lean ====
section
/-! DEFINITION. Commands whose operands lie within the limits that the manual sets and that their types do not. -/

namespace Sys2Proof

/-- A place in a codeword of 5440 bits (R115). -/
def StampIn.ok (x : StampIn) : Bool := decide (x.f.toNat < 5440)

/-- A place in a codeword of 5440 bits (R115). -/
def StampOut.ok (x : StampOut) : Bool := decide (x.f.toNat < 5440)

/-- No two elements name the same slot. -/
def slotsDiffer (l : List (Fin 16)) : Bool := l.eraseDups.length == l.length

/-- The operands of a command lie within the manual's limits; every other operand's type holds exactly its values. -/
def Instr.wellFormed : Instr → Bool
  | .monitorEvaluation ms => slotsDiffer (ms.map (fun m => m.slot))
  | .longWindowEvaluation ms => slotsDiffer (ms.map (fun m => m.slot))
  | .frameReceive _ x _ => x.ok
  | .treeRegReceive _ _ _ wr count words =>
    decide (1 ≤ count.toNat ∧ count.toNat ≤ 64) && (!wr || words.length == count.toNat)
  | .treeImageReceive _ _ _ _ _ data => decide (1 ≤ data.length ∧ data.length ≤ 1000)
  | .wghConfig _ _ args => decide (args.length ≤ 15)
  | .wghSetParam _ args => decide (args.length ≤ 15)
  | .wghVerify _ args => decide (args.length ≤ 15)
  | .wghPassthrough _ _ words => decide (words.length ≤ 15)
  | _ => true

end Sys2Proof
end

