-- ==== Sys2Proof/Safety.lean ====
section
/-! DEFINITION. What a safe state is, in the terms the statements use. -/

namespace Sys2Proof.Machine

/-- Memory is in its canonical form: addresses strictly rising, no entry equal to what an unlisted address reads as. -/
abbrev Memory.wf (l : List Host.Cell) : Bool := Assoc.wf natLt (0 : BitVec 8) l

/-- A register store is in its canonical form on a variant. -/
def regsWf (v : Variant) (l : List ((Fld × Nat) × Nat)) : Bool :=
  Assoc.sorted fldLt l && l.all (fun e => decide (e.2 ≠ resetVal v e.1.1 e.1.2))

/-- The mode in effect is one of Table 5.7. -/
def State.modeLegal (s : State) : Bool := decide (s.mode ≤ modeService)

/-- The command queue holds only well-formed commands. -/
def State.queueOk (s : State) : Bool := s.pending.all Instr.wellFormed

/-- Every value of a register store lies in its field's width. -/
def regsFit (l : List ((Fld × Nat) × Nat)) : Bool := l.all (fun e => decide (e.2 < 2 ^ e.1.1.desc.width))

/-- The stores of a state are in canonical form and hold only values that their fields can hold. -/
def State.canonical (s : State) : Prop :=
  s.memWf = true ∧ regsWf s.variant s.regs = true ∧ regsWf s.variant s.applied = true ∧ regsFit s.regs = true ∧
    regsFit s.applied = true

/-- A requester's access reaches the registers of unit `i` of a group: the unit is present, its domain on, its clock
running, and the way to it open (R3, R15, R18, R492). -/
abbrev Reaches (s : State) (r : Req) (g : Grp) (i : Nat) (gated : Bool := true) : Prop := s.access r g i gated = none

/-- A word access of a requester at `a` in block `b` reaches the registers there, and no window or operation of its own
(R9, R15, R303, R410, R419, R462). -/
structure WordOpen (s : State) (r : Req) (b : Blk) (a : Nat) : Prop where
  whole : a % 4 = 0
  bus : r ≠ .i2c
  blk : blkAt a = some b
  notWgh : b ≠ .wgh
  notStage : b = .ree → inWin 0x7000000 0x100000 0x300000 a = none
  open_ : Reaches s r (unitOf b a).1 (unitOf b a).2 (!engCtlAt b a)
  notPantry : s.pwinAt a = none
  notSnap : a ≠ snapCmdAddr

/-- The core issues an instruction under predicate register `k` at this step: the core can issue, no exception comes
before the instruction, and the predicate is 1 (R280, R285, R297). -/
structure Issues (s : State) (x : Issue) (k : Nat) : Prop where
  can : s.canIssue x.core = true
  pre : s.preTrap x = none
  pred : s.p x.core k % 2 = 1

/-- A twin message of class `cls` that this twin acts on: it is no SOLO, the lane runs, and the message is good and the
first copy of its SEQ (R389, R391, R393). -/
structure TwinTakes (s : State) (cls : Nat) (h : TwHdr) : Prop where
  twin : s.isTwin = true
  lane : s.twLaneRun h.lane = true
  good : h.bad = false
  fresh : s.h .twSeen cls ≠ h.seq.toNat + 1

/-- An in-band message on port `p` that the Reeve's firmware acts on: it was trapped there, its header is good and it has
hops left (R412, R413). -/
structure TreeTakes (s : State) (p : Nat) (h : TreHdr) : Prop where
  unit : s.up .TWN 0 = true
  live : s.treLive p = true
  good : h.bad = false
  hops : h.hops.toNat ≠ 0

/-- The Weighhouse takes a command that the Reeve posts: the Reeve reaches it, its core runs and no command runs (R445). -/
structure WghTakes (s : State) : Prop where
  reach : Reaches s .reeve .WGH 0
  runs : s.wghOn = true
  free : s.on (.wgh .STATUS_BUSY) 0 = false

/-- The firmware serves a command that mailbox `m` takes: REEVE is on, the way to the mailbox open, no command waits and no
life-cycle transition is in hand (R481, R530). -/
structure MailTakes (s : State) (m : Nat) : Prop where
  on_ : s.domOn .reeve = true
  way : m = 1 ∨ s.h .pcieOn = 1
  free : s.on (.ree .MBOX_BUSY) m = false
  fw : s.rd (.ree .STATUS_RSTATE) 0 = 1
  idle : s.h .lcPend = 0

/-- Mailbox `m` holds the answer `code` to the command with sequence number `q` (R481). -/
structure Answered (s : State) (m q code : Nat) : Prop where
  code : s.rd (.ree .MBOX_CODE) m = code
  seq : s.rd (.ree .MBOX_SEQ) m = q
  busy : s.on (.ree .MBOX_BUSY) m = false

/-- The fields of mailbox `m` that a command and its answer write. -/
def mboxFlds (m : Nat) : List (Fld × Nat) :=
  [(.ree .MBOX_WORD, m), (.ree .MBOX_BUSY, m), (.ree .MBOX_CODE, m), (.ree .MBOX_DETAIL, m), (.ree .MBOX_SEQ, m),
    (.ree .MBOX_DATA, m)]

/-- A state without its registers, settings in effect, hidden values, memory, core registers and last answer: what is
left to compare are its queues, lists and clocks. -/
def State.others (s : State) : State :=
  { s with regs := [], applied := [], hid := [], mem := [], treg := [], resp := ⟨.ok, 0⟩ }

/-- From `s` to `t` nothing changes but the register fields in `fs` and the hidden values in `hs`: every other register,
every setting in effect, every byte of memory, every register of a core, every queue and list stay. -/
def Frame (s t : State) (fs : List (Fld × Nat)) (hs : List (Hid × Nat)) : Prop :=
  (∀ f i, (f, i) ∉ fs → t.rd f i = s.rd f i) ∧ (∀ f i, t.rdA f i = s.rdA f i) ∧
  (∀ x i, (x, i) ∉ hs → t.h x i = s.h x i) ∧ (∀ r a, t.byte r a = s.byte r a) ∧ (∀ c n, t.tr c n = s.tr c n) ∧
  t.others = s.others

end Sys2Proof.Machine
end

