-- ==== Sys2Proof/Certificates/Slice0/Obligations.lean ====
section
/-! DEFINITION. The statements for the provers. -/

open Sys2Proof Sys2Proof.Machine

/-- R10, R11, R12, R99, R546: what REGISTER_WRITE, MULTIWORD_HIGH_WRITE, SHADOW_WRITE, MULTIWORD_LOW_READ, RC_FIELD_READ,
COMMIT_MARK_WRITE and COMMIT_PEND_CLEAR do where the access reaches its registers: every register of a written word takes
it; a lower word of a multi-word value is only held; the low word of a multi-word value latches the rest; fields that clear
on read do; marks set and W1C bits clear pending units. Readings of the model: log entries 41, 61, 68, 69. -/
def Obligations.RegisterCommandsComplete : Prop :=
  -- a written word goes to every register that lies in it
  (∀ (r : Req) (a v : BitVec 32) (b : Blk) (s : State), WordOpen s r b a.toNat →
    exec (.registerWrite r a v false) s =
      .next ((regsAt a.toNat).foldl (fun s g => s.wordInto r a.toNat v.toNat g) s).ok) ∧
  -- the highest word of a multi-word value brings the whole value, with the words its requester holds
  (∀ (r : Req) (a v : BitVec 32) (b : Blk) (g : Reg) (s : State), WordOpen s r b a.toNat → regsAt a.toNat = [g] →
    1 < g.words → g.k + 1 = g.words → (∃ f ∈ g.fields, f.desc.acc.writable = true) →
    exec (.multiwordHighWrite r a v) s =
      .next (((s.holdClearAll r (a.toNat - 4 * g.k) g.words).regWrite r a.toNat g
        (s.heldValue r (a.toNat - 4 * g.k) g.words v.toNat)).ok)) ∧
  -- a lower word is held for its requester and changes no register
  (∀ (r : Req) (a v : BitVec 32) (b : Blk) (g : Reg) (s : State), WordOpen s r b a.toNat → regsAt a.toNat = [g] →
    1 < g.words → g.k + 1 < g.words → (∃ f ∈ g.fields, f.desc.acc.writable = true) →
    ∃ u : State, exec (.registerWrite r a v false) s = .next u.ok ∧ u.heldOr r a.toNat = v.toNat ∧
      (∀ f i, u.rd f i = s.rd f i) ∧ (∀ f i, u.rdA f i = s.rdA f i) ∧ (∀ x i, u.h x i = s.h x i) ∧
      (∀ q d, u.byte q d = s.byte q d)) ∧
  -- a shadow takes the value and marks its unit, and the setting in effect stays (GLB_COMMIT idle)
  (∀ (r : Req) (f : Fld) (i new : Nat) (s : State), f.desc.shadow = true → s.fieldOk r f i new = true → s.cstate = 0 →
    f ≠ .glb .COMMIT_PEND → (∃ u : State, s.fieldSet r f i new = u ∧ u.rd f i = trunc f.desc.width new ∧
      u.rd (.glb .COMMIT_PEND) 0 = trunc 256 (setBit (shadowUnit f i) (s.rd (.glb .COMMIT_PEND) 0)) ∧
      Frame s u [(f, i), (.glb .COMMIT_PEND, 0)] [])) ∧
  (∀ (r : Req) (a v : BitVec 32) (b : Blk) (s : State), WordOpen s r b a.toNat →
    exec (.shadowWrite r a v) s =
      .next ((regsAt a.toNat).foldl (fun s g => s.wordInto r a.toNat v.toNat g) s).ok) ∧
  -- the low word of a multi-word value copies the upper words into the requester's latch
  (∀ (r : Req) (a : BitVec 32) (b : Blk) (g : Reg) (s : State), WordOpen s r b a.toNat → regsAt a.toNat = [g] →
    1 < g.words → g.k = 0 → g.grp ≠ .ECAP → g.grp ≠ .CTR → g.grp ≠ .CRI → g.fields.any freeField = false →
    ∃ u : State, exec (.multiwordLowRead r a) s = .next (u.ok (s.regVal g % 2 ^ 32)) ∧ u.latchOf r = s.regVal g / 2 ^ 32 ∧
      (∀ f i, u.rd f i = s.rd f i) ∧ (∀ f i, u.rdA f i = s.rdA f i) ∧ (∀ x i, u.h x i = s.h x i) ∧
      (∀ q d, u.byte q d = s.byte q d)) ∧
  -- fields that clear on read do so
  (∀ (r : Req) (a : BitVec 32) (b : Blk) (g : Reg) (s : State), WordOpen s r b a.toNat → regsAt a.toNat = [g] →
    g.words = 1 → g.grp ≠ .ECAP → g.grp ≠ .CTR → g.grp ≠ .CRI → g.fields.any freeField = false →
    exec (.rcFieldRead r a) s = .next ((s.rcClear g).ok (s.regVal g / 2 ^ (32 * g.k) % 2 ^ 32))) ∧
  -- a mark sets the bits of present units, and only those
  (∀ (r : Req) (k : Fin 8) (v : BitVec 32) (s : State), Reaches s r .GLB 0 → v ≠ 0 → s.cstate = 0 →
    ∃ u : State, exec (.commitMarkWrite r k v) s = .next u.ok ∧
      (∀ n, n < 222 → bit n (u.rd (.glb .COMMIT_PEND) 0) =
        (bit n (s.rd (.glb .COMMIT_PEND) 0) ||
          (decide (n / 32 = k.val) && v.getLsbD (n % 32) && unitPresent s.variant n))) ∧
      Frame s u [(.glb .COMMIT_PEND, 0)] []) ∧
  -- a clear takes the written bits out
  (∀ (r : Req) (k : Fin 8) (v : BitVec 32) (s : State), Reaches s r .GLB 0 →
    ∃ u : State, exec (.commitPendClear r k v) s = .next u.ok ∧
      (∀ n, n < 222 → bit n (u.rd (.glb .COMMIT_PEND) 0) =
        (bit n (s.rd (.glb .COMMIT_PEND) 0) && !(decide (n / 32 = k.val) && v.getLsbD (n % 32)))) ∧
      Frame s u [(.glb .COMMIT_PEND, 0)] [])

/-- Fields that the masks and the state of the commit controller lie in. -/
def commitFlds : List (Fld × Nat) :=
  [(.glb .COMMIT_PART, 0), (.glb .COMMIT_PEND, 0), (.glb .COMMIT_VEC, 0), (.glb .COMMIT_LATE, 0), (.glb .COMMIT_SPLIT, 0),
   (.glb .DEV_GEN, 0), (.glb .COMMIT_STATE, 0)]

/-- What the controller keeps of a commit beside its registers. -/
def commitHids : List (Hid × Nat) :=
  [(.asidePart, 0), (.asideVec, 0), (.asideLate, 0), (.asideSplit, 0), (.commitKind, 0), (.roleInt, 0), (.commitT, 0),
   (.snapStale, 0), (.treRep, 0)]

/-- Table 3.6, R100: an acceptable COMMIT arms the controller, an acceptable ROLLBACK arms it with the PART of the last
commit, a CANCEL in time returns it to idle with what arming set aside; an unacceptable one changes nothing and raises
GLB.COMMIT_REFUSED. R100: when a COMMIT and a ROLLBACK are acceptable: the next generation, a time between 10 µs and 86 400
s ahead, a set of participants that is not empty, and an idle controller (idle or split for a ROLLBACK); with unit 0 among
them, a target that Table 5.8 and R477 allow (R175). Readings of the model: log entries 12, 17. -/
def Obligations.CommitControllerArms : Prop :=
  (∀ (r : Req) (gen : BitVec 16) (s : State), Reaches s r .GLB 0 →
    s.commitOk gen.toNat (s.rd (.glb .COMMIT_T) 0) = true →
    ∃ u : State, exec (.commit r gen) s = .next u.ok ∧ u.cstate = 1 ∧
      (∀ n, n < 222 → bit n (u.rd (.glb .COMMIT_PART) 0) = bit n (s.rd (.glb .COMMIT_PEND) 0)) ∧
      u.rd (.glb .COMMIT_PEND) 0 = 0 ∧ u.rd (.glb .COMMIT_VEC) 0 = 0 ∧ u.rd (.glb .COMMIT_LATE) 0 = 0 ∧
      u.rd (.glb .DEV_GEN) 0 = gen.toNat ∧ u.h .commitT = s.rd (.glb .COMMIT_T) 0 ∧
      u.h .asidePart = s.rd (.glb .COMMIT_PART) 0 ∧ u.h .asideVec = s.rd (.glb .COMMIT_VEC) 0 ∧
      u.h .asideLate = s.rd (.glb .COMMIT_LATE) 0 ∧ u.h .asideSplit = s.rd (.glb .COMMIT_SPLIT) 0 ∧
      Frame s u commitFlds commitHids) ∧
  (∀ (r : Req) (gen : BitVec 16) (s : State), Reaches s r .GLB 0 →
    s.rollbackOk gen.toNat (s.rd (.glb .COMMIT_T) 0) = true →
    ∃ u : State, exec (.rollback r gen) s = .next u.ok ∧ u.cstate = 1 ∧ u.h .commitKind = 1 ∧
      (∀ n, n < 222 → bit n (u.rd (.glb .COMMIT_PART) 0) = bit n (s.rd (.glb .COMMIT_PART) 0)) ∧
      (∀ n, n < 222 → bit n (u.rd (.glb .COMMIT_PEND) 0) = bit n (s.rd (.glb .COMMIT_PEND) 0)) ∧
      u.rd (.glb .COMMIT_VEC) 0 = 0 ∧ u.rd (.glb .COMMIT_LATE) 0 = 0 ∧ u.rd (.glb .DEV_GEN) 0 = gen.toNat ∧
      u.h .commitT = s.rd (.glb .COMMIT_T) 0 ∧ Frame s u commitFlds commitHids) ∧
  (∀ (r : Req) (s : State), Reaches s r .GLB 0 → s.cstate = 1 →
    s.timeQ + tickQ (usTicks 10) ≤ u96 (s.h .commitT) * 5 →
    ∃ u : State, exec (.cancel r) s = .next u.ok ∧ u.cstate = 0 ∧
      (∀ n, n < 222 → bit n (u.rd (.glb .COMMIT_PEND) 0) =
        (bit n (s.rd (.glb .COMMIT_PEND) 0) || (decide (s.h .commitKind = 0) && bit n (s.rd (.glb .COMMIT_PART) 0)))) ∧
      (∀ n, n < 222 → bit n (u.rd (.glb .COMMIT_PART) 0) = bit n (s.h .asidePart)) ∧
      (∀ n, n < 222 → bit n (u.rd (.glb .COMMIT_VEC) 0) = bit n (s.h .asideVec)) ∧
      (∀ n, n < 222 → bit n (u.rd (.glb .COMMIT_LATE) 0) = bit n (s.h .asideLate)) ∧
      (∀ n, n < 222 → bit n (u.rd (.glb .COMMIT_SPLIT) 0) = bit n (s.h .asideSplit)) ∧
      u.rd (.glb .DEV_GEN) 0 = (s.rd (.glb .DEV_GEN) 0 + 65535) % 65536 ∧ Frame s u commitFlds []) ∧
  (∀ (r : Req) (gen : BitVec 16) (s : State), Reaches s r .GLB 0 →
    s.commitOk gen.toNat (s.rd (.glb .COMMIT_T) 0) = false →
    exec (.commit r gen) s = .next (s.raise .GLB_COMMIT_REFUSED).ok) ∧
  (∀ (r : Req) (gen : BitVec 16) (s : State), Reaches s r .GLB 0 →
    s.rollbackOk gen.toNat (s.rd (.glb .COMMIT_T) 0) = false →
    exec (.rollback r gen) s = .next (s.raise .GLB_COMMIT_REFUSED).ok) ∧
  (∀ (r : Req) (s : State), Reaches s r .GLB 0 →
    (s.cstate ≠ 1 ∨ u96 (s.h .commitT) * 5 < s.timeQ + tickQ (usTicks 10)) →
    exec (.cancel r) s = .next (s.raise .GLB_COMMIT_REFUSED).ok) ∧
  (∀ (gen t : Nat) (s : State), s.commitOk gen t = true ↔
    (s.cstate = 0 ∧ gen = (s.rd (.glb .DEV_GEN) 0 + 1) % 65536 ∧ s.timeQ + tickQ (usTicks 10) ≤ u96 t * 5 ∧
      u96 t * 5 ≤ s.timeQ + tickQ (86400 * ticksPerSec) ∧ s.rd (.glb .COMMIT_PEND) 0 ≠ 0 ∧
      (bit 0 (s.rd (.glb .COMMIT_PEND) 0) = true →
        targetRow s.mode (s.rd (.glb .MODE_TARGET) 0) = true ∧ s.fatalOk (s.rd (.glb .MODE_TARGET) 0) = true))) ∧
  (∀ (gen t : Nat) (s : State), s.rollbackOk gen t = true ↔
    ((s.cstate = 0 ∨ s.cstate = 3) ∧ gen = (s.rd (.glb .DEV_GEN) 0 + 1) % 65536 ∧
      s.timeQ + tickQ (usTicks 10) ≤ u96 t * 5 ∧ u96 t * 5 ≤ s.timeQ + tickQ (86400 * ticksPerSec) ∧
      s.rd (.glb .COMMIT_PART) 0 ≠ 0 ∧ (bit 0 (s.rd (.glb .COMMIT_PART) 0) = true → s.fatalOk s.prevTarget = true)))

/-- R101, R102, R104, R105, Table 3.6: at T the participants apply one by one, unit 0 last, after time has passed to T; what
is missing at the end of the grace is SPLIT; a late unit applies when it can; an internal request enters the one-entry queue
or is merged into it, and is committed at now + 1 ms once the controller is idle. Readings of the model: log entries 12, 17,
18. -/
def Obligations.CommitControllerApplies : Prop :=
  -- COMMIT_APPLY of a COMMIT (kind 0): unit 0 after the others
  (∀ (s w : State) (t part : Nat), s.domOn .reeve = true → s.cstate = 1 → s.h .commitKind = 0 → t = u96 (s.h .commitT) →
    w = (s.passCommit t).wr (.glb .COMMIT_STATE) 0 2 → part = w.rd (.glb .COMMIT_PART) 0 →
    exec .commitApply s = .next (State.commitDone
      ((if bit 0 part then (fun x => State.unitTry x 0 t false) else id)
        (((bitsOf 222 part).filter (fun n => n != 0)).foldl (fun x n => x.unitTry n t false)
          { w with prev := w.prevOf part })))) ∧
  -- a unit that is ready, and whose settings bring nothing else about, takes its shadows and reports itself
  (∀ (n t : Nat) (s : State), s.unitReady n = true → s.h .commitKind = 0 → (n = 5 ∨ n = 7 ∨ n = 28 ∨ n = 29) →
    s.unitTry n t false = ((s.setH .unitGen n (s.rd (.glb .DEV_GEN) 0)).setBitF (.glb .COMMIT_VEC) 0 n).takeShadows n) ∧
  -- a unit that is not ready leaves everything as it is
  (∀ (n t : Nat) (s : State) (late : Bool), s.unitReady n = false → s.unitTry n t late = s) ∧
  -- COMMIT_GRACE_EXPIRY
  (∀ (s : State), s.domOn .reeve = true → s.cstate = 2 →
    (let w := s.passCommit (u96 (s.h .commitT) + s.rd (.glb .COMMIT_GRACE) 0 * 65536000)
     ∃ u : State, exec .commitGraceExpiry s =
         .next ((u.raise .GLB_COMMIT_SPLIT).treSecond 6 (bitsOf 222 u.missing).length) ∧
       u.cstate = 3 ∧ (∀ n, n < 222 → bit n (u.rd (.glb .COMMIT_SPLIT) 0) =
         (bit n (w.rd (.glb .COMMIT_PART) 0) && !bit n (w.rd (.glb .COMMIT_VEC) 0))) ∧
       Frame w u [(.glb .COMMIT_SPLIT, 0), (.glb .COMMIT_STATE, 0)] [])) ∧
  -- COMMIT_LATE_APPLY
  (∀ (n : Fin 222) (s : State), s.domOn .reeve = true → (s.cstate = 2 ∨ s.cstate = 3) →
    bit n (s.rd (.glb .COMMIT_PART) 0) = true → bit n (s.rd (.glb .COMMIT_VEC) 0) = false →
    exec (.commitLateApply n) s = .next (s.unitTry n s.nowU true).commitDone) ∧
  -- INTERNAL_COMMIT_REQUEST into an empty entry, and merged into a full one
  (∀ (m : Option (Fin 7)) (o : Option (Fin 3)) (v : Option Bool) (s : State), s.domOn .reeve = true →
    ∃ u : State, exec (.internalCommitRequest m o v) s = .next u ∧ u.h .intFull = 1 ∧
      u.h .intUnits = s.h .intUnits ||| (m.isSome.toNat + 2 * v.isSome.toNat + 2 ^ 27 * o.isSome.toNat) ∧
      (∀ x, m = some x → u.h .intMode = x.val + 1) ∧ (∀ x, o = some x → u.h .intRole = x.val + 1) ∧
      (∀ x, v = some x → u.h .intSrc = x.toNat + 1) ∧
      (s.h .intFull = 1 → u.rd (.glb .INT_MERGED) 0 = satAdd 4 (s.rd (.glb .INT_MERGED) 0) 1) ∧
      Frame s u [(.glb .INT_MERGED, 0)] [(.intFull, 0), (.intUnits, 0), (.intMode, 0), (.intRole, 0), (.intSrc, 0)]) ∧
  -- INTERNAL_COMMIT_ISSUE of a servo source
  (∀ (s : State), s.domOn .reeve = true → s.cstate = 0 → s.h .intFull = 1 → s.h .intMode = 0 → s.h .intRole = 0 →
    s.h .intSrc ≠ 0 →
    ∃ u : State, exec .internalCommitIssue s = .next u ∧ u.cstate = 1 ∧ u.h .intFull = 0 ∧
      u.rd (.bell .CTL_SERVO_SRC) 0 = (s.h .intSrc - 1) % 2 ∧ bit 1 (u.rd (.glb .COMMIT_PART) 0) = true ∧
      u.rd (.glb .COMMIT_PEND) 0 = 0 ∧ u.rd (.glb .DEV_GEN) 0 = (s.rd (.glb .DEV_GEN) 0 + 1) % 65536 ∧
      u.h .commitT = of96 ((s.timeQ + tickQ (msTicks 1) + 4) / 5) ∧
      Frame s u ((.bell .CTL_SERVO_SRC, 0) :: commitFlds)
        (commitHids ++ [(.intFull, 0), (.intUnits, 0), (.intMode, 0), (.intRole, 0), (.intSrc, 0)]))

/-- R35, R42, R43, R44, R47, R50-R54: LANE_MODE_WRITE, LANE_TXEQ_WRITE, LANE_RAW_WRITE, QUAD_CTL_WRITE, QUAD_PLL_LOCK,
TX_IDLE_EXIT, SLIP and SLIP_DONE, where they are accepted, and what a refused one leaves. Readings of the model: log entries
60, 61. -/
def Obligations.LaneConfigurationCompletes : Prop :=
  -- a mode that Table 2.2 allows on the lane, that differs from what the lane has, and whose quad, FEC and rate fit
  (∀ (r : Req) (n : Fin 74) (m : Fin 16) (fec : Fin 4) (medium : Bool) (s : State), Reaches s r .LANE n →
    s.rd (.lane .CTL_MODE) n ≠ 8 → (s.rd (.lane .CTL_MODE) n ≠ m.val ∨ s.rd (.lane .CTL_FEC) n ≠ fec.val ∨
      s.on (.lane .CTL_MEDIUM) n ≠ medium) → s.modeOk n m fec medium = true →
    exec (.laneModeWrite r n m fec medium) s = .next (s.modeSet n m fec medium).ok) ∧
  -- a refused one sets CFG_REFUSED and raises LANE.MODE_REFUSED on the lane's port
  (∀ (r : Req) (n : Fin 74) (m : Fin 16) (fec : Fin 4) (medium : Bool) (s : State), Reaches s r .LANE n →
    s.rd (.lane .CTL_MODE) n ≠ 8 → (s.rd (.lane .CTL_MODE) n ≠ m.val ∨ s.rd (.lane .CTL_FEC) n ≠ fec.val ∨
      s.on (.lane .CTL_MEDIUM) n ≠ medium) → s.modeOk n m fec medium = false →
    ∃ u : State, exec (.laneModeWrite r n m fec medium) s =
        .next (u.raiseP .LANE_MODE_REFUSED (u.lanePort n)).ok ∧
      u.rd (.lane .CTL_CFG_REFUSED) n = 1 ∧ Frame s u [(.lane .CTL_CFG_REFUSED, n.val)] []) ∧
  -- a trunk lane takes six coefficients when MAIN is at least 16 and the magnitudes sum to at most 64
  (∀ (r : Req) (n : Fin 74) (v : BitVec 64) (s : State), Reaches s r .LANE n → n.val < 64 →
    16 ≤ toS 8 (bits 24 8 v.toNat) →
    (toS 8 (bits 0 8 v.toNat)).natAbs + (toS 8 (bits 8 8 v.toNat)).natAbs + (toS 8 (bits 16 8 v.toNat)).natAbs +
      (toS 8 (bits 24 8 v.toNat)).natAbs + (toS 8 (bits 32 8 v.toNat)).natAbs + (toS 8 (bits 40 8 v.toNat)).natAbs ≤ 64 →
    exec (.laneTxeqWrite r n v) s = .next ((((((((s.wr (.lane .TXEQ_PRE3) n (bits 0 8 v.toNat)).wr (.lane .TXEQ_PRE2) n
      (bits 8 8 v.toNat)).wr (.lane .TXEQ_PRE1) n (bits 16 8 v.toNat)).wr (.lane .TXEQ_MAIN) n (bits 24 8 v.toNat)).wr
      (.lane .TXEQ_POST1) n (bits 32 8 v.toNat)).wr (.lane .TXEQ_POST2) n (bits 40 8 v.toNat)).holdClear r
      (Fld.addr (.lane .TXEQ_PRE3) n)).ok)) ∧
  -- MAIN below 16 is refused
  (∀ (r : Req) (n : Fin 74) (v : BitVec 64) (s : State), Reaches s r .LANE n → toS 8 (bits 24 8 v.toNat) < 16 →
    exec (.laneTxeqWrite r n v) s =
      .next ((s.wr (.lane .CTL_CFG_REFUSED) n 1).holdClear r (Fld.addr (.lane .TXEQ_PRE3) n)).ok) ∧
  -- DIV and VCO of a spur lane that does not run a raw mode
  (∀ (r : Req) (n : Fin 74) (div : Fin 16) (vco : BitVec 20) (s : State), Reaches s r .LANE n → 64 ≤ n.val → n.val < 72 →
    div.val ≤ 8 → 424000 ≤ vco.toNat → vco.toNat ≤ 850000 → s.rd (.lane .CTL_MODE) n ≠ 9 →
    exec (.laneRawWrite r n div vco) s =
      .next ((s.wr (.lane .RAW_DIV) n div).wr (.lane .RAW_VCO) n vco.toNat).ok) ∧
  -- a code of DIV above 8 is refused
  (∀ (r : Req) (n : Fin 74) (div : Fin 16) (vco : BitVec 20) (s : State), Reaches s r .LANE n → n.val < 64 → 8 < div.val →
    ∃ u : State, exec (.laneRawWrite r n div vco) s = .next u.ok ∧ u.rd (.lane .CTL_CFG_REFUSED) n = 1) ∧
  -- FAMILY and VCO of a quad whose lanes are all OFF
  (∀ (r : Req) (q : Fin 16) (family : Fin 4) (x : Bool) (vco : BitVec 20) (s : State), Reaches s r .QUAD q →
    (∀ k, k < 4 → s.rd (.lane .CTL_MODE) (4 * q.val + k) = 0) → 424000 ≤ vco.toNat → vco.toNat ≤ 850000 →
    exec (.quadCtlWrite r q family x vco) s =
      .next (((s.wr (.quad .CTL_FAMILY) q family).wr (.quad .CTL_VCO) q vco.toNat).shadowSet (.quad .CTL_TX_REF) q
        x.toNat).ok) ∧
  -- the PLL of a quad with a lane that is not OFF locks, and its transmitters follow
  (∀ (q : Fin 16) (s : State), s.up .QUAD q = true → (∃ k, k < 4 ∧ s.rd (.lane .CTL_MODE) (4 * q.val + k) ≠ 0) →
    exec (.quadPllLock q) s = .next (((((s.wr (.quad .CTL_PLL_LOCK) q 1).txSync (4 * q.val)).txSync (4 * q.val + 1)).txSync
      (4 * q.val + 2)).txSync (4 * q.val + 3))) ∧
  -- TX_IDLE goes to 0 and the transmitter's state follows
  (∀ (r : Req) (n : Fin 74) (s : State), Reaches s r .LANE n →
    exec (.txIdleExit r n) s = .next ((s.wr (.lane .CTL_TX_IDLE) n 0).txSync n).ok) ∧
  -- a slip in a raw mode starts, and is refused while one is in progress
  (∀ (r : Req) (n : Fin 74) (s : State), Reaches s r .LANE n → n.val < 72 →
    (s.rd (.lane .STATUS_EFF_MODE) n = 9 ∨ s.rd (.lane .STATUS_EFF_MODE) n = 10) → s.on (.lane .SLIP_BUSY) n = false →
    exec (.slip r n) s = .next (s.wr (.lane .SLIP_BUSY) n 1).ok) ∧
  (∀ (r : Req) (n : Fin 74) (s : State), Reaches s r .LANE n → n.val < 72 → s.on (.lane .SLIP_BUSY) n = true →
    exec (.slip r n) s = .next (s.wr (.lane .SLIP_REFUSED) n 1).ok) ∧
  -- a slip that completes moves the boundary by one bit, in PAM4 by one symbol of two
  (∀ (n : Fin 74) (s : State), s.up .LANE n = true → s.on (.lane .SLIP_BUSY) n = true →
    exec (.slipDone n) s = .next ((s.wr (.lane .SLIP_BUSY) n 0).setH .slipBits n
      ((s.h .slipBits n + (if s.rd (.lane .STATUS_EFF_MODE) n = 10 then 2 else 1)) % 64)))

/-- R39, R52, R55-R57: RX_CDR_ACQUIRE, RECEIVER_ELECTRICAL_IDLE, ALIGNMENT_EVENT, AN_RESOLVED, EYE_SCAN and PHASE_PUBLISH on
a lane that works. R59, R60, Table 2.6: the bring-up of a twin lane and its elastic buffer: OFFER_RECEIVE, TWIN_SWITCH_LOCK,
TWIN_SWITCH_TIMEOUT, TWIN_LOCK_LOSS and SKIP_BLOCK_RECEIVE. Readings of the model: log entries 16, 32, 79. -/
def Obligations.LaneEventsComplete : Prop :=
  (∀ (n : Fin 74) (s : State), s.up .LANE n = true → 1 ≤ s.rd (.lane .STATUS_EFF_MODE) n →
    s.rd (.lane .STATUS_EFF_MODE) n ≤ 8 → s.pllOk n = true →
    exec (.rxCdrAcquire n) s = .next ((((((((s.wr (.lane .STATUS_CDR_LOCK) n 0).wr (.lane .PHASE_PH_VALID) n 0).wr
      (.lane .EYE_VALID) n 0).wr (.lane .RESID_VALID) n 0).wr (.lane .STATUS_CDR_LOCK) n 1).wr (.lane .STATUS_RX_IDLE) n 0).wr
      (.lane .STATUS_SIG_DET) n 1))) ∧
  (∀ (n : Fin 74) (s : State), s.up .LANE n = true → s.rd (.lane .STATUS_EFF_MODE) n ≠ 0 →
    exec (.receiverElectricalIdle n) s = .next ((((((s.wr (.lane .STATUS_CDR_LOCK) n 0).wr (.lane .PHASE_PH_VALID) n 0).wr
      (.lane .EYE_VALID) n 0).wr (.lane .RESID_VALID) n 0).wr (.lane .STATUS_RX_IDLE) n 1).wr (.lane .STATUS_SIG_DET) n 0)) ∧
  -- the positions of a 10GBASE-R lane are published, with the terms they give
  (∀ (n : Fin 74) (word gbx : Fin 64) (fec : BitVec 13) (am : BitVec 15) (s : State), s.up .LANE n = true →
    s.rd (.lane .STATUS_EFF_MODE) n = 2 → s.laneMode n = 2 → s.laneFec n = 0 →
    s.rd (.lane .ALIGN_WORD_OFS) n = word.val → s.rd (.lane .ALIGN_GBX_PHASE) n = gbx.val →
    s.rd (.lane .ALIGN_FEC_POS) n = 0 → s.rd (.lane .ALIGN_AM_POS) n = 0 →
    exec (.alignmentEvent n word gbx fec am) s = .next ((((((s.wr (.lane .ALIGN_WORD_OFS) n word).wr (.lane .ALIGN_GBX_PHASE) n
      gbx).wr (.lane .ALIGN_FEC_POS) n 0).wr (.lane .ALIGN_AM_POS) n 0).wr (.lane .ALIGN_VALID) n
      (s.rd (.lane .STATUS_BLOCK_LOCK) n)).putTerms n)) ∧
  -- negotiation that resolves the configured mode, and another one
  (∀ (n : Fin 72) (m : Fin 16) (s : State), s.up .LANE n = true → s.on (.lane .CTL_MEDIUM) n = true →
    1 ≤ m.val → m.val ≤ 7 → s.rd (.lane .STATUS_EFF_MODE) n = m.val →
    exec (.anResolved n m) s = .next ((s.wr (.lane .STATUS_AN_DONE) n 1).wr (.lane .STATUS_AN_MISMATCH) n 0)) ∧
  (∀ (n : Fin 72) (m : Fin 16) (s : State), s.up .LANE n = true → s.on (.lane .CTL_MEDIUM) n = true →
    1 ≤ s.rd (.lane .STATUS_EFF_MODE) n → s.rd (.lane .STATUS_EFF_MODE) n ≤ 7 → s.rd (.lane .STATUS_EFF_MODE) n ≠ m.val →
    exec (.anResolved n m) s =
      .next (((s.wr (.lane .STATUS_AN_DONE) n 1).wr (.lane .STATUS_AN_MISMATCH) n 1).raiseP .LANE_AN_MISMATCH n)) ∧
  (∀ (n : Fin 74) (w : Fin 65) (h : Fin 256) (worst : Fin 4) (s : State), s.up .LANE n = true →
    s.on (.lane .STATUS_CDR_LOCK) n = true →
    exec (.eyeScan n w h worst) s = .next (((((s.wr (.lane .EYE_W) n w).wr (.lane .EYE_H) n h).wr (.lane .EYE_WORST) n
      (if (4 ≤ s.laneMode n ∧ s.laneMode n ≤ 7) ∨ s.laneMode n = 10 then worst.val else 0)).wr (.lane .EYE_VALID) n 1).setH
      .eyeAt n s.age)) ∧
  (∀ (n : Fin 74) (tx : BitVec 16) (rx : BitVec 12) (s : State), s.up .LANE n = true →
    ∃ u : State, exec (.phasePublish n tx rx) s = .next u ∧ u.rd (.lane .PHASE_TX_PHASE) n = tx.toNat ∧
      u.rd (.lane .PHASE_RX_PHASE) n = rx.toNat ∧
      Frame s u [(.lane .PHASE_TX_PHASE, n.val), (.lane .PHASE_RX_PHASE, n.val), (.lane .PHASE_PH_VALID, n.val)] []) ∧
  -- the first of a run of offers is only remembered
  (∀ (t : Fin 2) (rate : Fin 3) (sw : Bool) (c : Fin 16) (s : State), s.up .LANE (72 + t.val) = true →
    s.rd (.lane .TWIN_TSTATE) (72 + t.val) = 1 → s.h .offerRate (72 + t.val) ≠ rate.val + 1 →
    exec (.offerReceive t rate sw c) s =
      .next ((s.setH .offerRate (72 + t.val) (rate.val + 1)).setH .offerCnt (72 + t.val) 1)) ∧
  -- two consistent offers, in block lock, lead to STEP at the agreed rate, or straight to RUN at the base rate
  (∀ (t : Fin 2) (rate : Fin 3) (sw : Bool) (c : Fin 16) (s : State), s.up .LANE (72 + t.val) = true →
    s.rd (.lane .TWIN_TSTATE) (72 + t.val) = 1 → s.h .offerRate (72 + t.val) = rate.val + 1 →
    1 ≤ s.h .offerCnt (72 + t.val) → s.on (.lane .STATUS_BLOCK_LOCK) (72 + t.val) = true →
    ∃ u : State, exec (.offerReceive t rate sw c) s = .next u ∧
      u.h .twinRate (72 + t.val) = s.agreedRate (72 + t.val) rate ∧
      u.rd (.lane .TWIN_TSTATE) (72 + t.val) = (if s.agreedRate (72 + t.val) rate = 0 then 4 else 2) ∧
      Frame s u [(.lane .TWIN_TSTATE, 72 + t.val), (.lane .TWIN_CUR_RATE, 72 + t.val)]
        [(.offerRate, 72 + t.val), (.offerCnt, 72 + t.val), (.twinRate, 72 + t.val)]) ∧
  -- the last offer of the countdown leads to SWITCH
  (∀ (t : Fin 2) (rate : Fin 3) (s : State), s.up .LANE (72 + t.val) = true → s.rd (.lane .TWIN_TSTATE) (72 + t.val) = 2 →
    exec (.offerReceive t rate true 0) s =
      .next ((s.wr (.lane .TWIN_TSTATE) (72 + t.val) 3).txSync (72 + t.val))) ∧
  (∀ (t : Fin 2) (s : State), s.up .LANE (72 + t.val) = true → s.rd (.lane .TWIN_TSTATE) (72 + t.val) = 3 →
    exec (.twinSwitchLock t) s = .next (((((s.wr (.lane .TWIN_TSTATE) (72 + t.val) 4).wr (.lane .TWIN_CUR_RATE) (72 + t.val)
      (s.h .twinRate (72 + t.val))).wr (.lane .STATUS_CDR_LOCK) (72 + t.val) 1).wr (.lane .STATUS_BLOCK_LOCK) (72 + t.val)
      1).txSync (72 + t.val))) ∧
  (∀ (t : Fin 2) (s : State), s.up .LANE (72 + t.val) = true → s.rd (.lane .TWIN_TSTATE) (72 + t.val) = 3 →
    exec (.twinSwitchTimeout t) s = .next (((s.twinFail (72 + t.val) (s.h .twinRate (72 + t.val))).twinBase
      (72 + t.val)).raise .TWN_RATE_FALLBACK (locLane (72 + t.val)))) ∧
  (∀ (t : Fin 2) (s : State), s.up .LANE (72 + t.val) = true → s.rd (.lane .TWIN_TSTATE) (72 + t.val) = 4 →
    exec (.twinLockLoss t) s = .next ((s.twinBase (72 + t.val)).raise .TWN_RATE_FALLBACK (locLane (72 + t.val)))) ∧
  -- in BASE the lane has rate 0, no block lock and no offers
  (∀ (n : Nat) (s : State), ∃ u : State, s.twinBase n = u ∧ u.rd (.lane .TWIN_TSTATE) n = 1 ∧
    u.rd (.lane .TWIN_CUR_RATE) n = 0 ∧ u.rd (.lane .STATUS_BLOCK_LOCK) n = 0 ∧ u.h .offerCnt n = 0 ∧
    Frame s u [(.lane .TWIN_TSTATE, n), (.lane .TWIN_CUR_RATE, n), (.lane .STATUS_BLOCK_LOCK, n),
      (.lane .STATUS_TX_IDLE_ST, n)] [(.offerRate, n), (.offerCnt, n)]) ∧
  -- a SKIP deletes above 12 blocks, inserts below 4, and a slip raises TWN.ELASTIC_SLIP
  (∀ (t : Fin 2) (fill : Fin 17) (s : State), s.up .LANE (72 + t.val) = true → s.rd (.lane .TWIN_TSTATE) (72 + t.val) ≠ 0 →
    exec (.skipBlockReceive t fill false) s = .next (if 12 < fill.val then s.count (.lane .RM_CNT_DEL) (72 + t.val)
      else if fill.val < 4 then s.count (.lane .RM_CNT_INS) (72 + t.val) else s)) ∧
  (∀ (t : Fin 2) (fill : Fin 17) (s : State), s.up .LANE (72 + t.val) = true → s.rd (.lane .TWIN_TSTATE) (72 + t.val) ≠ 0 →
    4 ≤ fill.val → fill.val ≤ 12 →
    exec (.skipBlockReceive t fill true) s = .next (s.raise .TWN_ELASTIC_SLIP (locLane (72 + t.val))))

/-- R63-R67: MODULE_GO, MODULE_TRANSACTION_DONE, MODULE_TIMEOUT and MODULE_CHANGE. Readings of the model: log entries 34,
79. -/
def Obligations.ModuleMasterCompletes : Prop :=
  (∀ (r : Req) (m : Fin 8) (len : BitVec 8) (write : Bool) (s : State), Reaches s r .MOD m →
    s.on (.mod .STATUS_BUSY) m = false → 1 ≤ len.toNat → len.toNat ≤ 128 → s.on (.mod .CFG_ENABLE) m = true →
    exec (.moduleGo r m len write) s = .next ((((s.wr (.mod .CMD_LEN) m len.toNat).wr (.mod .CMD_WRITE) m write.toNat).wr
      (.mod .CMD_GO) m 1).wr (.mod .STATUS_BUSY) m 1).ok) ∧
  (∀ (r : Req) (m : Fin 8) (len : BitVec 8) (write : Bool) (s : State), Reaches s r .MOD m →
    (s.on (.mod .STATUS_BUSY) m = true ∨ len.toNat = 0 ∨ 128 < len.toNat) →
    exec (.moduleGo r m len write) s = .next (s.wr (.mod .STATUS_REFUSED) m 1).ok) ∧
  -- a transaction that does not write the laser page ends
  (∀ (m : Fin 8) (s : State), s.up .MOD m = true → s.on (.mod .STATUS_BUSY) m = true → s.modLaser m = false →
    exec (.moduleTransactionDone m .nack) s = .next (((s.wr (.mod .CMD_GO) m 0).wr (.mod .STATUS_BUSY) m 0).wr
      (.mod .STATUS_NACK) m 1)) ∧
  (∀ (m : Fin 8) (s : State), s.up .MOD m = true → s.on (.mod .STATUS_BUSY) m = true → s.modLaser m = false →
    exec (.moduleTransactionDone m .absent) s = .next (((s.wr (.mod .CMD_GO) m 0).wr (.mod .STATUS_BUSY) m 0).wr
      (.mod .STATUS_ABSENT) m 1)) ∧
  (∀ (m : Fin 8) (data : List Byte) (s : State), s.up .MOD m = true → s.on (.mod .STATUS_BUSY) m = true →
    s.modLaser m = false → s.on (.mod .CMD_WRITE) m = false →
    exec (.moduleTransactionDone m (.ok data)) s = .next ((((s.wr (.mod .CMD_GO) m 0).wr (.mod .STATUS_BUSY) m 0).wr
      (.mod .STATUS_DONE) m 1).modBuf m 0 (data.take (s.rd (.mod .CMD_LEN) m)))) ∧
  -- one that writes it while a survey or a check holds the module is locked out (R65)
  (∀ (m : Fin 8) (res : ModRes) (s : State), s.up .MOD m = true → s.on (.mod .STATUS_BUSY) m = true → s.modLaser m = true →
    s.slotHeld (slotPort m (s.rd (.mod .ADDR_SLOT) m)) = true →
    exec (.moduleTransactionDone m res) s = .next (((s.wr (.mod .CMD_GO) m 0).wr (.mod .STATUS_BUSY) m 0).wr
      (.mod .STATUS_LOCKED) m 1)) ∧
  (∀ (m : Fin 8) (s : State), s.up .MOD m = true → s.on (.mod .STATUS_BUSY) m = true →
    exec (.moduleTimeout m) s = .next (((s.wr (.mod .CMD_GO) m 0).wr (.mod .STATUS_BUSY) m 0).wr (.mod .STATUS_TIMEOUT) m
      1)) ∧
  -- a debounced change of presence
  (∀ (p : Fin 72) (present : Bool) (cmis : Option (BitVec 16 × BitVec 16)) (s : State), s.up .LANE p = true →
    s.on (.lane .STATUS_MOD_PRESENT) p ≠ present →
    exec (.moduleChange p present cmis) s = .next (s.moduleChange p present cmis))

/-- R75, R76, R84, R85: MEAS_POST gives a sample the first verdict of Table 3.2 that holds; JUMP_PERSIST; GATE_CAUTION_END.
R77, R78, R88-R91, R164: SERVO_CYCLE_BOUNDARY, SERVO_DEADLINE, BELL_FW_UPD and REFERENCE_LOOP_UPDATE. Readings of the model:
log entries 21, 35. -/
def Obligations.GateAndServoComplete : Prop :=
  -- verdict 1: the sample is discarded, whatever else would hold
  (∀ (r : Req) (ofs : BitVec 64) (at_ : BitVec 96) (src : BitVec 8) (s : State), Reaches s r .BELL 0 →
    (s.on (.bell .STATUS_GATE_CAUTION) 0 = true ∨ s.on (.bell .STATUS_STEPPING) 0 = true ∨ u96 at_.toNat < s.h .stepEnd ∨
      s.nowU < u96 at_.toNat ∨ u96 at_.toNat + 2 * s.periodU < s.nowU) →
    exec (.measPost r ofs at_ src) s = .next (s.count (.bell .GATE_DISC) 0).ok) ∧
  -- verdict 2: beyond JUMP_THR after the first step, in IDLE: a jump generation begins
  (∀ (r : Req) (ofs : BitVec 64) (at_ : BitVec 96) (src : BitVec 8) (s : State), Reaches s r .BELL 0 →
    s.gateDiscards (u96 at_.toNat) = false → s.on (.bell .STATUS_STEPPED) 0 = true →
    s.rd (.bell .JUMP_CFG_THR) 0 * 65536 < ofs.toInt.natAbs → s.rd (.bell .STATUS_JSTATE) 0 = 0 →
    ∃ u : State, exec (.measPost r ofs at_ src) s = .next (u.raise .BELL_JUMP_REFUSED locBell).ok ∧
      u.rd (.bell .STATUS_JSTATE) 0 = 1 ∧ u.rd (.bell .CLEAR_CNT) 0 = 0 ∧
      u.rd (.bell .JUMP_GEN) 0 = (s.rd (.bell .JUMP_GEN) 0 + 1) % 2 ^ 16 ∧ u.refused = [ofs.toInt] ∧
      u.h .jumpAt = s.age + s.rd (.bell .JUMP_CFG_PERSIST) 0 * ticksPerSec ∧ u.h .jumpFirst = s.age) ∧
  -- verdict 3: the ring is full
  (∀ (r : Req) (ofs : BitVec 64) (at_ : BitVec 96) (src : BitVec 8) (s : State), Reaches s r .BELL 0 →
    s.gateDiscards (u96 at_.toNat) = false → ofs.toInt.natAbs ≤ s.rd (.bell .JUMP_CFG_THR) 0 * 65536 →
    255 ≤ (gateSamples s.meas).length →
    exec (.measPost r ofs at_ src) s = .next ((s.count (.bell .GATE_OVR) 0).jumpWithin).ok) ∧
  -- verdict 4: the sample enters the ring
  (∀ (r : Req) (ofs : BitVec 64) (at_ : BitVec 96) (src : BitVec 8) (s : State), Reaches s r .BELL 0 →
    s.gateDiscards (u96 at_.toNat) = false → ofs.toInt.natAbs ≤ s.rd (.bell .JUMP_CFG_THR) 0 * 65536 →
    (gateSamples s.meas).length < 255 →
    ∃ u : State, exec (.measPost r ofs at_ src) s = .next u.jumpWithin.ok ∧
      u.meas = s.meas ++ [(ofs.toInt, src.toNat)] ∧ u.rd (.bell .GATE_ACC) 0 = satAdd 32 (s.rd (.bell .GATE_ACC) 0) 1 ∧
      (∀ f i, (f, i) ≠ (Fld.bell .GATE_ACC, 0) → u.rd f i = s.rd f i)) ∧
  -- the eighth sample within the threshold ends a jump
  (∀ (s : State), s.rd (.bell .STATUS_JSTATE) 0 = 0 → s.jumpWithin = s) ∧
  (∀ (s : State), s.rd (.bell .STATUS_JSTATE) 0 ≠ 0 → s.rd (.bell .CLEAR_CNT) 0 < 7 →
    s.jumpWithin = s.wr (.bell .CLEAR_CNT) 0 (s.rd (.bell .CLEAR_CNT) 0 + 1)) ∧
  (∀ (s : State), s.rd (.bell .STATUS_JSTATE) 0 ≠ 0 → s.rd (.bell .CLEAR_CNT) 0 = 7 →
    s.jumpWithin = { ((s.wr (.bell .CLEAR_CNT) 0 8).wr (.bell .STATUS_JSTATE) 0 0).raise .BELL_JUMP_CLEARED locBell with
      refused := [] }) ∧
  -- the persistence timer runs out in REFUSED
  (∀ (s w : State), s.domOn .bell = true → s.rd (.bell .STATUS_JSTATE) 0 = 1 → w = s.passAge (s.h .jumpAt) →
    ∃ u : State, exec .jumpPersist s = .next u ∧
      u = (fun v : State => if v.mode = modeFollow ∨ v.mode = modeLead then v.intRequest { mode := v.fallbackMode + 1 } else v)
        (((((w.wr (.bell .STATUS_JSTATE) 0 2).histSum.holdFreeze).wr (.bell .STATUS_NCO_SRC) 0 ncoHOLD).histTrim
          (((w.wr (.bell .STATUS_JSTATE) 0 2).histSum.holdFreeze).h .jumpFirst -
            ((w.wr (.bell .STATUS_JSTATE) 0 2).histSum.holdFreeze).rd (.sel .TIMES2_GUARD_SHORT) 0 * ticksPerSec)).raise
          .BELL_JUMP_PERSIST locBell)) ∧
  -- 10 ms after CAUTION the gate opens
  (∀ (s : State), s.domOn .bell = true → s.on (.bell .STATUS_GATE_CAUTION) 0 = true → s.on (.hrt .SUPPLY_CAUTION) 0 = false →
    exec .gateCautionEnd s = .next ((s.passAge (s.h .cautionEnd + msTicks 10)).wr (.bell .STATUS_GATE_CAUTION) 0 0)) ∧
  -- the deadline of the cycle in hand: time passes to it, the servo's word takes effect, and the deadline is done
  (∀ (s w : State), s.domOn .bell = true → s.h .dlPend ≠ 0 →
    w = s.passTo (deadlineTick (s.h .cycEff) (s.h .dlEff) (s.h .cycNum)) →
    exec .servoDeadline s =
      .next (((((w.servoDeadline.trkDeadline).stateSend).dacCount).setH .dlPend 0 0).cyclePublish)) ∧
  -- firmware's word within the cycle's deadline, under the cycle's number, becomes the word
  (∀ (s : State), s.loopRuns = false → s.on (.bell .STATUS_SRC_APPLIED) 0 = false → s.h .fwPend ≠ 0 →
    s.servoDeadline = ((((s.setH .fwPend 0 0).wrS (.bell .HWS_I) 0 ((s.setH .fwPend 0 0).hwServo.1)).wrS (.bell .HWS_I) 0
      (toS 48 (s.h .fwPend - 1))).wr (.bell .STATUS_MISS_CNT) 0 0).servoWord (toS 48 (s.h .fwPend - 1))) ∧
  -- the third miss in a row hands over to the hardware servo
  (∀ (s : State), s.loopRuns = false → s.on (.bell .STATUS_SRC_APPLIED) 0 = false → s.h .fwPend = 0 →
    s.rd (.bell .STATUS_MISS_CNT) 0 < 2 →
    s.servoDeadline = ((((s.setH .fwPend 0 0).wrS (.bell .HWS_I) 0 ((s.setH .fwPend 0 0).hwServo.1)).wr
      (.bell .STATUS_MISS_CNT) 0 (s.rd (.bell .STATUS_MISS_CNT) 0 + 1)).raise .BELL_SERVO_MISS locBell)) ∧
  -- BELL_FW_UPD with the number of the cycle
  (∀ (r : Req) (freq : BitVec 48) (seq : BitVec 16) (s : State), Reaches s r .BELL 0 →
    s.on (.bell .STATUS_SRC_APPLIED) 0 = false → seq.toNat = s.rd (.bell .CYCLE_NUM) 0 % 65536 →
    exec (.bellFwUpd r freq seq) s = .next (s.setH .fwPend 0 (freq.toNat + 1)).ok) ∧
  (∀ (r : Req) (freq : BitVec 48) (seq : BitVec 16) (s : State), Reaches s r .BELL 0 →
    s.on (.bell .STATUS_SRC_APPLIED) 0 = false → seq.toNat ≠ s.rd (.bell .CYCLE_NUM) 0 % 65536 →
    exec (.bellFwUpd r freq seq) s = .next (s.count (.bell .SERVO_CNT_SEQ_ERR) 0).ok) ∧
  (∀ (r : Req) (freq : BitVec 48) (seq : BitVec 16) (s : State), Reaches s r .BELL 0 →
    s.on (.bell .STATUS_SRC_APPLIED) 0 = true → s.h .servoAwait = 0 →
    exec (.bellFwUpd r freq seq) s = .next (s.count (.bell .SERVO_CNT_LATE_UPD) 0).ok) ∧
  -- a boundary: the pending deadline first, then the tick of the next boundary
  (∀ (phase : BitVec 64) (s w : State), s.domOn .bell = true →
    w = s.deadline.passTo (boundaryTick (s.deadline.h .cycEff) (s.deadline.h .cycNum + 1)) →
    (w.cycleClose.cycleNext.lockEval).h .selSlot = 0 →
    ∃ u : State, exec (.servoCycleBoundary phase) s = .next u.wordRefresh.selStatus ∧
      u = (fun v : State => if v.mode = modeHoldover then v.holdPublish else v)
        (((((List.range 4).foldl (fun s o => s.obsPost o) w.cycleClose.cycleNext.lockEval).trkBoundary.delayBoundary).asymBoundary).leapCopy)) ∧
  -- the reference loop leaves a phase that the gate refuses alone
  (∀ (phase : BitVec 64) (s : State), s.domOn .bell = true → s.loopRuns = true →
    s.verdict (phase.toInt - s.hS .buildOut) s.nowU = .ref →
    exec (.referenceLoopUpdate phase) s = .next (s.jumpRefuse (phase.toInt - s.hS .buildOut))) ∧
  (∀ (phase : BitVec 64) (s : State), s.domOn .bell = true → s.loopRuns = true →
    s.verdict (phase.toInt - s.hS .buildOut) s.nowU = .acc →
    ∃ u w : State, exec (.referenceLoopUpdate phase) s = .next { w with meas := w.meas ++ [(phase.toInt - s.hS .buildOut, 256)] } ∧
      u = (s.wr (.bell .HWS_I) 0 (s.freeVal 48)).nextFree ∧
      w = (u.nextFree.servoWord (toS 48 (u.freeVal 48))).jumpWithin)

/-- R79-R83, R86: STEP_REQ, STEP_AUTH and STEP_DONE. R93-R97, R167: REPLICA_MARKER, REPLICA_ECHO, COARSE_COPY_SET,
LEAP_APPLIED, OPLL_UNLOCK and OPLL_RELOCK. Readings of the model: log entries 12, 36. -/
def Obligations.TimescaleCompletes : Prop :=
  -- an acceptable step becomes a timed commit of units 1, 3, 8-15 and 24-26, split as R81 gives
  (∀ (r : Req) (s : State), Reaches s r .BELL 0 → s.on (.bell .STATUS_STEPPED) 0 = false →
    (s.rdS (.bell .STEP_OFS) 0).natAbs ≤ 2 ^ 59 → s.stepOk (s.rd (.bell .STEP_T) 0) (s.rdS (.bell .STEP_OFS) 0) = true →
    exec (.stepReq r false) s = .next ((s.wr (.bell .STEP_CTL_KIND) 0 0).stepArm (s.rd (.bell .STEP_T) 0)
      (s.rdS (.bell .STEP_OFS) 0) false).ok) ∧
  (∀ (t : Nat) (d : Int) (auth : Bool) (s : State), ∃ u : State, s.stepArm t d auth = u ∧ u.cstate = 1 ∧
    u.h .commitKind = 2 ∧ u.h .commitT = t ∧ u.h .stepAuth = auth.toNat ∧ u.h .stepS = (stepSplit d).2 ∧
    u.rd (.glb .COMMIT_PART) 0 = 0x0700FF0A ∧ u.rd (.glb .DEV_GEN) 0 = (s.rd (.glb .DEV_GEN) 0 + 1) % 65536) ∧
  -- a step is refused once STEPPED = 1
  (∀ (r : Req) (kind : Bool) (s : State), Reaches s r .BELL 0 → s.on (.bell .STATUS_STEPPED) 0 = true →
    exec (.stepReq r kind) s = .next ((((s.wr (.bell .STEP_CTL_KIND) 0 kind.toNat).wr (.bell .STATUS_STEP_REFUSED) 0 1).raise
      .BELL_STEP_REFUSED locBell).ok)) ∧
  -- an authorised step undoes the refused offset
  (∀ (r : Req) (gen : BitVec 16) (s : State), Reaches s r .BELL 0 → gen.toNat = s.rd (.bell .JUMP_GEN) 0 →
    s.rd (.bell .STATUS_JSTATE) 0 = 2 → s.stepOk (s.rd (.bell .STEP_T) 0) (-s.rdS (.bell .JUMP_OFS) 0) = true →
    exec (.stepAuth r gen) s =
      .next (s.stepArm (s.rd (.bell .STEP_T) 0) (-s.rdS (.bell .JUMP_OFS) 0) true).ok) ∧
  (∀ (r : Req) (gen : BitVec 16) (s : State), Reaches s r .BELL 0 →
    (gen.toNat ≠ s.rd (.bell .JUMP_GEN) 0 ∨ s.rd (.bell .STATUS_JSTATE) 0 ≠ 2) →
    exec (.stepAuth r gen) s =
      .next ((s.wr (.bell .STATUS_AUTH_REFUSED) 0 1).raise .BELL_STEP_AUTH_REFUSED locBell).ok) ∧
  -- the split gives the step back: whole ticks and phase steps of 2^-16 ns times 512/5, to half a phase step
  (∀ (d : Int), let k := (stepSplit d).1; let n := (stepSplit d).2
    n < 1024 ∧ (d * 5 - (k * 524288 + n * 512)).natAbs ≤ 256) ∧
  -- the phase shift is complete, 10 ns for each phase step
  (∀ (s w : State), s.domOn .bell = true → s.on (.bell .STATUS_STEPPING) 0 = true → s.rd (.bell .STATUS_JSTATE) 0 = 0 →
    w = s.pass ((s.h .stepS * 100 + 15) / 16) →
    ∃ u v : State, exec .stepDone s = .next v ∧ v = (fun x : State =>
        if x.rd (.bell .STATUS_JSTATE) 0 = 2 ∧ x.h .stepAuth = 1 then
          { (x.wr (.bell .STATUS_JSTATE) 0 0).wrAll [.bell .CLEAR_CNT, .bell .JUMP_OFS] 0 0 with refused := [] }
        else x) (u.raise .BELL_STEP_DONE locBell) ∧
      u.rd (.bell .STATUS_STEPPING) 0 = 0 ∧ u.h .stepEnd = w.nowU ∧
      Frame w u [(.bell .STATUS_STEPPING, 0), (.bell .STEP_LAST_SUB, 0), (.bell .STEP_LAST_GEN, 0)] [(.stepEnd, 0)]) ∧
  -- a marker that agrees, or that a step explains, ends the run of disagreements
  (∀ (n : Fin 90) (a st : Bool) (s : State), s.repUp n = true → s.on (.bell .REP_VALID) n = true → s.h .repBad n < 3 →
    (a = true ∨ st = true) → exec (.replicaMarker n a st) s = .next (s.setH .repBad n 0)) ∧
  -- the third disagreement in a row is a fault, and the next marker reloads the replica
  (∀ (n : Fin 90) (s : State), s.repUp n = true → s.on (.bell .REP_VALID) n = true → s.h .repBad n < 2 →
    exec (.replicaMarker n false false) s = .next (s.setH .repBad n (s.h .repBad n + 1))) ∧
  (∀ (n : Fin 90) (s : State), s.repUp n = true → s.on (.bell .REP_VALID) n = true → s.h .repBad n = 2 →
    exec (.replicaMarker n false false) s = .next (((s.setH .repBad n 3).wr (.bell .REP_FAULT) n 1).raise .BELL_REP_FAULT
      (locRep n) (locRep n))) ∧
  (∀ (n : Fin 90) (a st : Bool) (s : State), s.repUp n = true → (s.on (.bell .REP_VALID) n = false ∨ 3 ≤ s.h .repBad n) →
    exec (.replicaMarker n a st) s = .next ((s.setH .repBad n 0).wr (.bell .REP_VALID) n 1)) ∧
  (∀ (n : Fin 90) (dly : BitVec 24) (s : State), s.repUp n = true →
    exec (.replicaEcho n dly) s = .next (s.wr (.bell .REP_DLY) n dly.toNat)) ∧
  -- the coarse copy is set at the next whole second, to the bell time there
  (∀ (s w : State), s.domOn .bell = true → w = s.passTo ((s.now + ticksPerSec - 1) / ticksPerSec * ticksPerSec) →
    exec .coarseCopySet s = .next { w.wr (.hrt .COARSE_ST_VALID) 0 1 with coarse := 16 * w.now }) ∧
  -- a leap of one second, once SEC reaches BELL_LEAP_AT
  (∀ (s w : State), s.domOn .bell = true → s.h .leapArm = 1 → s.leapSet = true →
    w = s.passTo (s.rd (.bell .LEAP_AT_SEC) 0 * ticksPerSec) →
    exec .leapApplied s = .next ((((w.wrS (.bell .LEAP_UTC_OFS) 0 (w.rdS (.bell .LEAP_UTC_OFS) 0 +
      (if w.on (.bell .LEAP61) 0 then 1 else -1))).wrAll [.bell .LEAP61, .bell .LEAP59] 0 0).setH .leapArm 0 0).raise
      .BELL_LEAP_APPLIED locBell)) ∧
  -- the output PLL loses lock: armed triggers are cut, the count advances, and PLL.OPLL_UNLOCK is raised
  (∀ (s : State), s.domOn .bell = true → s.on (.sel .OSTAT_LOCK) 0 = true →
    ∃ u w : State, exec .opllUnlock s = .next (u.raise .PLL_OPLL_UNLOCK locBell).outsSync ∧
      w = ((((List.range 8).foldl (fun s k => s.trigCut k) s).wr (.sel .OSTAT_LOCK) 0 0).count (.sel .OSTAT_UNLOCK_CNT) 0) ∧
      u = (if w.on (.twn .CTL_RELINQ_UNLOCK) 0 then w.relinquish else w)) ∧
  -- it relocks: the timescale is loaded again and the mode of Table 5.8 is asked for
  (∀ (s w : State), s.domOn .bell = true → s.on (.sel .OSTAT_LOCK) 0 = false →
    w = (s.wr (.sel .OSTAT_LOCK) 0 1).loadTime → w.mode ≠ modeFollow → w.mode ≠ modeLead → w.mode ≠ modeHoldover →
    exec .opllRelock s = .next (w.setNco (w.ncoFor w.mode)).selStatus)

/-- R124, R142, Table 4.6: DELAY_CHECK_START, DELAY_CHECK_WAIT_EXPIRY and DELAY_CHECK_DONE: what the three steps of a port
delay check write, and when the check passes. Readings of the model: log entries 30, 33, 74. -/
def Obligations.DelayChecksComplete : Prop :=
  (∀ (r : Req) (p : Fin 72) (s : State), Reaches s r .SURV 0 →
    exec (.delayCheckStart r p) s = .next (((((s.wr (.surv .CTL_KIND) 0 0).wr (.surv .CTL_PORT) 0 p).wr
      (.lane .DLY_STAT_CHECKING) p 1).setH .chkStage p 1).ok)) ∧
  -- 100 ms after ALIGN_VALID, with the module delays entered by the host: the loopback's residual is published
  (∀ (p : Fin 72) (cmis : Option (BitVec 16 × BitVec 16)) (resid : BitVec 16) (s : State), s.up .LANE p = true →
    s.h .chkStage p = 1 → s.on (.lane .ALIGN_VALID) p = true → s.h .modAwait p = 0 →
    s.rd (.lane .DLY_CFG_MOD_SRC) p ≠ 1 →
    exec (.delayCheckWaitExpiry p cmis resid) s =
      .next (((s.wr (.lane .RESID) p resid.toNat).wr (.lane .RESID_VALID) p 1).setH .chkStage p 2)) ∧
  -- with MOD_SRC = 1 the module delays are read first
  (∀ (p : Fin 72) (cmis : Option (BitVec 16 × BitVec 16)) (resid : BitVec 16) (s : State), s.up .LANE p = true →
    s.h .chkStage p = 1 → s.on (.lane .ALIGN_VALID) p = true → s.h .modAwait p = 0 →
    s.rd (.lane .DLY_CFG_MOD_SRC) p = 1 →
    exec (.delayCheckWaitExpiry p cmis resid) s = .next ((((s.modDelays p cmis).wr (.lane .RESID) p resid.toNat).wr
      (.lane .RESID_VALID) p 1).setH .chkStage p 2)) ∧
  -- the check ends: it passes as R142 gives, and fails otherwise
  (∀ (p : Fin 72) (rt : Option (BitVec 64)) (s : State), s.up .LANE p = true → s.h .chkStage p = 2 →
    s.checkGood p (rt.map BitVec.toInt) = true →
    exec (.delayCheckDone p rt) s =
      .next (((s.wr (.lane .DLY_STAT_CHECKING) p 0).setH .chkStage p 0).checkPass p (rt.map BitVec.toInt))) ∧
  (∀ (p : Fin 72) (rt : Option (BitVec 64)) (s : State), s.up .LANE p = true → s.h .chkStage p = 2 →
    s.checkGood p (rt.map BitVec.toInt) = false →
    exec (.delayCheckDone p rt) s = .next ((((s.wr (.lane .DLY_STAT_CHECKING) p 0).setH .chkStage p 0).dlyInvalid p
      5).raiseP .LANE_DELAY_SHIFT p)) ∧
  (∀ (p : Nat) (v : Int) (s : State), s.checkGood p (some v) = true ↔
    ((s.rd (.lane .DLY_CFG_MOD_SRC) p = 1 → s.h .modRead p = 1) ∧
      (s.h .rtTracked p = 0 ∨ 60 * ticksPerSec ≤ s.h .linkGap p ∨
        10 * (v - s.rdS (.lane .RT) p).natAbs ≤ 32768))) ∧
  -- validity given and taken raises LANE.DELAY_VALID on each change
  (∀ (p : Nat) (s : State), s.on (.lane .DLY_STAT_DLY_VALID) p = false →
    s.dlyValid p = (s.wr (.lane .DLY_STAT_DLY_VALID) p 1).raiseP .LANE_DELAY_VALID p (s.rd (.lane .DLY_STAT_CAUSE) p)) ∧
  (∀ (p : Nat) (s : State), s.on (.lane .DLY_STAT_DLY_VALID) p = true →
    s.dlyInvalid p 5 = ((((s.wr (.lane .DLY_STAT_DLY_VALID) p 0).wr (.lane .DLY_STAT_CAUSE) p 5).wr
      (.lane .DLY_STAT_CHECKING) p 0).setH .chkStage p 0).raiseP .LANE_DELAY_VALID p 5)

/-- R133-R135, R139, Table 4.4: the asymmetry survey at the end that runs it. Readings of the model: log entries 35, 54, 74,
87. -/
def Obligations.AsymmetrySurveyCompletes : Prop :=
  -- a START that R133 refuses
  (∀ (r : Req) (p : Fin 72) (probe : Bool) (s : State), Reaches s r .SURV 0 → s.h .survKind = 0 →
    (probe = false ∨ s.dlyOk p = false ∨ s.rd (.surv .LAMBDA) 0 = 0) →
    exec (.asymSurveyStart r p probe) s = .next ((((s.wr (.surv .CTL_KIND) 0 1).wr (.surv .CTL_PORT) 0 p).wr
      (.surv .STATUS_REFUSED) 0 1).ok)) ∧
  -- an acceptable START enters TUNE for the first segment
  (∀ (r : Req) (p : Fin 72) (probe : Bool) (s : State), Reaches s r .SURV 0 → s.h .survKind = 0 →
    ((s.wr (.surv .CTL_KIND) 0 1).wr (.surv .CTL_PORT) 0 p).asymOk p probe = true →
    exec (.asymSurveyStart r p probe) s =
      .next (((((s.wr (.surv .CTL_KIND) 0 1).wr (.surv .CTL_PORT) 0 p).survFresh 1).tuneStart).ok)) ∧
  (∀ (s : State), ∃ u : State, s.survFresh 1 = u ∧ u.h .survKind = 1 ∧ u.h .survId = s.freeVal 16 ∧
    u.rd (.surv .CTL_START) 0 = 1 ∧ u.rd (.surv .STATUS_ERR) 0 = 0 ∧ u.rd (.surv .STATUS_CYCLE) 0 = 0 ∧
    u.rd (.surv .STATUS_SEG) 0 = 0) ∧
  -- TUNE ends with the last of: acknowledgement, RETUNE_WAIT, a valid span
  (∀ (s w : State), s.up .SURV 0 = true → s.h .survKind = 1 → s.sstat = 1 →
    w = (s.passAge (s.h .survAt + s.retuneTicks)).setH .survWaited 0 1 → w.h .survAck = 1 → w.spanOk w.measPort = true →
    exec (.retuneWaitExpiry true) s = .next (((((w.wr (.surv .STATUS_STATE) 0 2).setH .survCnt 0 0).setHS .survSum 0
      0).setH .survMiss 0 0).setH .survOpen 0 0)) ∧
  (∀ (p : Fin 72) (m : SurvMsg) (s : State), s.up .SURV 0 = true → s.survMine p 1 m = true →
    m.flags.getLsbD 2 = false → s.h .survWaited ≠ 1 →
    exec (.surveyTuneAckReceive p m) s = .next (s.setH .survAck 0 1)) ∧
  -- TUNE without an acknowledgement in 5 s, or without a link in RETUNE_WAIT + 5 s
  (∀ (s : State), s.up .SURV 0 = true → s.h .survKind = 1 → s.sstat = 1 →
    exec .surveyTuneTimeout s = .next (if s.h .survAck = 0 then (s.passAge (s.h .survAt + msTicks 5000)).survStop 1
      else (s.passAge (s.h .survAt + s.retuneTicks + msTicks 5000)).survStop 2)) ∧
  -- an exchange: the next SEQ in a REQ on the port measured
  (∀ (s : State), s.up .SURV 0 = true → s.h .survKind = 1 → s.sstat = 2 → s.h .survOpen ≠ 1 →
    exec .surveyExchange s = .next (((s.setH .survSeq 0 ((s.h .survSeq + 1) % 65536)).setH .survOpen 0 1).survSend s.measPort
      3 (survBody 0 0 ((s.h .survSeq + 1) % 65536) (s.h .survId) 0 0 0))) ∧
  -- a RESP whose stamps are good adds its round trip; N of them end the segment
  (∀ (p : Fin 72) (t4 : ObsStamp) (m : SurvMsg) (s w : State), s.up .SURV 0 = true → s.survMine p 2 m = true →
    s.h .survOpen = 1 → m.seq.toNat = s.h .survSeq → s.h .survT1 p ≠ 0 → t4.void = false → t4.caution = false →
    s.h .survT1Bad p ≠ 1 → bits 0 2 m.flags.toNat = 0 → s.segB = true →
    w = ((((s.setH .survOpen 0 0).setH .survMiss 0 0).setHS .survSum 0 (s.hS .survSum + s.exchRt p t4 m)).setH .survCnt 0
      (s.h .survCnt + 1)) →
    exec (.surveyRespReceive p t4 m) s = .next (if s.rd (.surv .SEQ_N) 0 ≤ s.h .survCnt + 1 then w.segEnd else w)) ∧
  -- CAUTION or VOID on a stamp repeats the segment
  (∀ (p : Fin 72) (t4 : ObsStamp) (m : SurvMsg) (s : State), s.up .SURV 0 = true → s.survMine p 2 m = true →
    s.h .survOpen = 1 → m.seq.toNat = s.h .survSeq → s.h .survT1 p ≠ 0 → (t4.void = true ∨ t4.caution = true) →
    exec (.surveyRespReceive p t4 m) s = .next (((s.setH .survOpen 0 0).setH .survMiss 0 0).segRepeat)) ∧
  -- no response to three consecutive requests
  (∀ (s : State), s.up .SURV 0 = true → s.h .survKind = 1 → s.sstat = 2 → 3 ≤ s.h .survMiss + s.h .survOpen →
    exec .surveyPeerTimeout s = .next (s.survEnd.survFail 1)) ∧
  (∀ (s : State), s.up .SURV 0 = true → s.h .survKind = 1 → s.sstat = 3 → exec .surveySolve s = .next s.solve) ∧
  -- APPLY in DONE waits for the next servo cycle boundary
  (∀ (r : Req) (s : State), Reaches s r .SURV 0 → s.sstat = 4 → s.rd (.surv .CTL_KIND) 0 = 1 →
    exec (.surveyApply r) s = .next (s.setH .survApply 0 (s.survPort + 1)).ok) ∧
  (∀ (s : State) (p : Nat), s.h .survApply = p + 1 → s.asymBoundary =
    ((((s.setH .survApply 0 0).wrS (.lane .ASYM) p (s.hS .survMean 4)).wr (.lane .ASYM_U) p (s.rd (.surv .U) 0)).wr
      (.lane .DLY_STAT_ASYM_SRC) p 1).raiseP .LANE_ASYM_APPLIED p) ∧
  (∀ (r : Req) (s : State), Reaches s r .SURV 0 → s.h .survKind ≠ 0 →
    exec (.surveyAbort r) s = .next (s.survEnd.survFail 4).ok)

/-- R136, R138: SURVEY_REQ_RECEIVE, SURVEY_TUNE_RECEIVE and SURVEY_END_RECEIVE at the end that answers. R127-R129: the
loopback survey. Readings of the model: log entries 38, 53, 74, 87. -/
def Obligations.SurveyMessagesComplete : Prop :=
  (∀ (p : Fin 72) (t2 : ObsStamp) (m : SurvMsg) (s : State), s.up .PORT p = true → s.on (.lane .DLY_CFG_RESP_EN) p = true →
    s.inbandOn = true → s.h .survPeer p = 0 →
    exec (.surveyReqReceive p t2 m) s = .next (s.survSend p 4 (survBody 1 (t2.caution.toNat + 2 * t2.void.toNat)
      m.seq.toNat m.id.toNat t2.time.toNat (s.fibreTx p + s.fibreRx p) 0))) ∧
  (∀ (p : Fin 72) (m : SurvMsg) (ok : Bool) (s : State), s.up .PORT p = true → s.on (.lane .DLY_CFG_RESP_EN) p = true →
    s.inbandOn = true → s.h .survPeer p = 0 → m.lambda.toNat ≠ 0 →
    exec (.surveyTuneReceive p m ok) s = .next ((s.setH .survPeer p (m.id.toNat + 1)).survSend p 5
      (survBody 3 (if ok then 0 else 4) m.seq.toNat m.id.toNat 0 0 0))) ∧
  -- a port that does not answer, or one of another survey, drops the message
  (∀ (p : Fin 72) (m : SurvMsg) (ok : Bool) (s : State), s.up .PORT p = true →
    (s.on (.lane .DLY_CFG_RESP_EN) p = false ∨ (s.h .survPeer p ≠ 0 ∧ s.h .survPeer p ≠ m.id.toNat + 1)) →
    exec (.surveyTuneReceive p m ok) s = .next s) ∧
  (∀ (p : Fin 72) (m : SurvMsg) (s : State), s.up .PORT p = true → s.inbandOn = true → s.h .survPeer p = m.id.toNat + 1 →
    exec (.surveyEndReceive p m) s = .next (s.setH .survPeer p 0)) ∧
  -- a message waits ahead of the port's queues, with the header's next SEQ of its class
  (∀ (p own ofs cls dst : Nat) (body : List Byte) (s : State), s.inbandOn = true →
    ∃ u : State, s.inbandSend p own ofs cls dst body = u ∧ u.h .treSeq cls = (s.h .treSeq cls + 1) % 65536 ∧
      (u.ctlOf p).length = (s.ctlOf p).length + 1 ∧ (∀ q, q ≠ p → u.ctlOf q = s.ctlOf q) ∧
      (∀ f i, u.rd f i = s.rd f i) ∧ (∀ x i, (x, i) ≠ (Hid.treSeq, cls) → u.h x i = s.h x i)) ∧
  (∀ (p own ofs cls dst : Nat) (body : List Byte) (s : State), s.inbandOn = false →
    s.inbandSend p own ofs cls dst body = s) ∧
  -- refused while in-band management is off (R137)
  (∀ (r : Req) (p : Fin 72) (s : State), Reaches s r .SURV 0 → s.h .survKind = 0 → s.inbandOn = false →
    exec (.loopbackSurveyStart r p) s = .next ((((s.wr (.surv .CTL_KIND) 0 2).wr (.surv .CTL_PORT) 0 p).wr
      (.surv .STATUS_REFUSED) 0 1).ok)) ∧
  -- with WH_IN = 3 phase 2 alone
  (∀ (r : Req) (p : Fin 72) (s w : State), Reaches s r .SURV 0 → s.h .survKind = 0 → s.inbandOn = true →
    s.variant.hasPort p = true → s.rd (.surv .CTL_WH_IN) 0 = 3 →
    w = (((s.wr (.surv .CTL_KIND) 0 2).wr (.surv .CTL_PORT) 0 p).survFresh 2) →
    exec (.loopbackSurveyStart r p) s = .next (((((w.setH .survAt 0 w.age).wr (.surv .STATUS_STATE) 0 2).setH .survSplit 0
      1).setH .survPhase 0 2).ok)) ∧
  -- phase 1 ends after 64 s: MOD_TX follows from the mean interval, unless more than 4 records are bad
  (∀ (mean : BitVec 64) (bad : Fin 65) (rec : BitVec 32) (s w : State), s.up .SURV 0 = true → s.h .survKind = 2 →
    s.h .survPhase = 1 → bad.val ≤ 4 →
    w = (s.passAge (s.h .survAt + msTicks 64000)).wr (.surv .WHREC) 0 rec.toNat →
    exec (.loopbackPhase1Done mean bad rec) s = .next ((w.setH .loopTx s.survPort (ofS 32 (mean.toInt - 65536000 +
      (w.outDelay 8 / 125 : Nat) - w.rd (.surv .PROBE_D_PROBE) 0 - w.rd (.lane .BRD_TX) s.survPort))).loopPhase2)) ∧
  (∀ (mean : BitVec 64) (bad : Fin 65) (rec : BitVec 32) (s : State), s.up .SURV 0 = true → s.h .survKind = 2 →
    s.h .survPhase = 1 → 4 < bad.val →
    exec (.loopbackPhase1Done mean bad rec) s =
      .next (((s.passAge (s.h .survAt + msTicks 64000)).wr (.surv .WHREC) 0 rec.toNat).probeFail)) ∧
  -- no record within 2 s of a launch: ERR = PROBE, and phase 2 with the assumed split
  (∀ (s : State), s.up .SURV 0 = true → s.h .survKind = 2 → s.h .survPhase = 1 →
    exec .loopbackProbeTimeout s = .next ((((s.wr (.surv .STATUS_ERR) 0 5).setH .survSplit 0 1).setH .survPhase 0
      2).laneApply s.survPort)) ∧
  -- phase 2 ends: MOD_RX is the remainder of the round trip, or both follow from TX_SHARE
  (∀ (rt : BitVec 64) (s : State), s.up .SURV 0 = true → s.h .survKind = 2 → s.h .survPhase = 2 →
    exec (.loopbackSurveyDone rt) s = .next (s.loopDone rt.toInt)) ∧
  (∀ (rt : Int) (s : State) (p : Nat) (rest : Int), p = s.survPort → s.h .survSplit ≠ 1 →
    rest = rt - s.rd (.surv .FIX_D_LOOP) 0 - s.rd (.lane .BRD_TX) p - s.rd (.lane .BRD_RX) p →
    ∃ u : State, s.loopDone rt = ((u.loopTake p).wghFree).raiseP .LANE_SURVEY_DONE p ∧
      u.h .loopRx p = ofS 32 (rest - toS 32 (s.h .loopTx p)) ∧ u.h .loopHave p = 1 ∧
      u.rd (.lane .DLY_STAT_SPLIT_ASSUMED) p = 0 ∧ u.sstat = 4 ∧ u.rd (.surv .STATUS_DONE) 0 = 1 ∧
      u.rd (.surv .CTL_START) 0 = 0 ∧ u.h .survKind = 0) ∧
  (∀ (rt : Int) (s : State) (p : Nat) (rest : Int), p = s.survPort → s.h .survSplit = 1 →
    rest = rt - s.rd (.surv .FIX_D_LOOP) 0 - s.rd (.lane .BRD_TX) p - s.rd (.lane .BRD_RX) p →
    ∃ u : State, s.loopDone rt = ((u.loopTake p).wghFree).raiseP .LANE_SURVEY_DONE p ∧
      u.h .loopTx p = ofS 32 (divRound (rest * s.rd (.lane .DLY_CFG_TX_SHARE) p) 100) ∧
      u.h .loopRx p = ofS 32 (rest - divRound (rest * s.rd (.lane .DLY_CFG_TX_SHARE) p) 100) ∧
      u.rd (.lane .DLY_STAT_SPLIT_ASSUMED) p = 1)

/-- R145, R156, R159, Table 5.5: SLOT_ENABLE_WRITE, SLOT_SRC_WRITE, SLOT_LOCKOUT_WRITE, FORCE_WRITE, SIGNAL_PRESENCE_CHANGE
and WTR_EXPIRY. Readings of the model: log entry 24. -/
def Obligations.SlotCommandsComplete : Prop :=
  -- a slot whose source no other enabled slot names, and that the variant has, is enabled: it enters LOS
  (∀ (r : Req) (n : Fin 16) (s : State), Reaches s r .SLOT n → s.on (.sel .SLOT_CFG_ENABLE) n = false →
    s.slotSrc n < 82 → s.srcTaken n (s.slotSrc n) = false → s.srcAbsent (s.slotSrc n) = false → s.slotCfgOk n = true →
    s.on (.sel .SLOT_CFG_LOCKOUT) n = false →
    exec (.slotEnableWrite r n true) s = .next ((((s.wr (.sel .SLOT_CFG_SRC) n (s.slotSrc n)).wr (.sel .SLOT_CFG_ENABLE) n
      1).wr (.sel .SLOT_STAT_SSTATE) n 1).sigRefresh.ok)) ∧
  -- ENABLE written 0: OFF, windows cleared
  (∀ (r : Req) (n : Fin 16) (s : State), Reaches s r .SLOT n → s.on (.sel .SLOT_CFG_ENABLE) n = true →
    exec (.slotEnableWrite r n false) s = .next ((((((s.trimFor n 1).clearWindows n).wr (.sel .SLOT_STAT_SSTATE) n 0).wr
      (.sel .SLOT_CFG_SRC) n (s.slotSrc n)).wr (.sel .SLOT_CFG_ENABLE) n 0).sigRefresh.ok)) ∧
  -- a source that another enabled slot names, and a reserved code, are refused
  (∀ (r : Req) (n : Fin 16) (s : State), Reaches s r .SLOT n → s.on (.sel .SLOT_CFG_ENABLE) n = false →
    s.srcTaken n (s.slotSrc n) = true →
    exec (.slotEnableWrite r n true) s = .next (s.wr (.sel .CTL_CFG_REFUSED) 0 1).ok) ∧
  (∀ (r : Req) (n : Fin 16) (src : BitVec 7) (s : State), Reaches s r .SLOT n → src.toNat ≠ s.slotSrc n →
    (82 ≤ src.toNat ∨ s.srcTaken n src.toNat = true) →
    exec (.slotSrcWrite r n src) s = .next (s.wr (.sel .CTL_CFG_REFUSED) 0 1).ok) ∧
  -- SRC of a slot that is off
  (∀ (r : Req) (n : Fin 16) (src : BitVec 7) (s : State), Reaches s r .SLOT n → src.toNat ≠ s.slotSrc n → src.toNat < 82 →
    s.srcTaken n src.toNat = false → s.on (.sel .SLOT_CFG_ENABLE) n = false →
    exec (.slotSrcWrite r n src) s = .next (((s.wr (.sel .SLOT_CFG_SRC) n src.toNat).wr (.sel .SLOT_CFG_ENABLE) n
      0).sigRefresh.ok)) ∧
  -- LOCKOUT written 1 and 0
  (∀ (r : Req) (n : Fin 16) (s : State), Reaches s r .SLOT n → s.sstate n ≠ 0 → s.sstate n ≠ 6 →
    exec (.slotLockoutWrite r n true) s = .next (((((s.wr (.sel .SLOT_CFG_LOCKOUT) n 1).trimFor n 5).wr
      (.sel .SLOT_STAT_SSTATE) n 6).reselect).ok)) ∧
  (∀ (r : Req) (n : Fin 16) (s : State), Reaches s r .SLOT n → s.sstate n = 6 →
    exec (.slotLockoutWrite r n false) s = .next (((((s.wr (.sel .SLOT_CFG_LOCKOUT) n 0).wr (.sel .SLOT_STAT_SSTATE) n
      4).wr (.sel .SLOT_STAT_CAUSE) n 5).reselect).ok)) ∧
  -- a force of a QUALIFIED slot, and of another one
  (∀ (r : Req) (slot : Fin 16) (s : State), Reaches s r .SEL 0 → s.rd (.sel .CTL_FORCE_EN) 0 = 0 → s.sstate slot = 3 →
    exec (.forceWrite r true slot) s = .next (((((s.wr (.sel .CTL_FORCE_EN) 0 1).wr (.sel .CTL_FORCE_SLOT) 0 slot).setH
      .forceChg 0 1).reselect).ok)) ∧
  (∀ (r : Req) (slot : Fin 16) (s : State), Reaches s r .SEL 0 → s.rd (.sel .CTL_FORCE_EN) 0 = 0 → s.sstate slot ≠ 3 →
    exec (.forceWrite r true slot) s = .next (s.wr (.sel .CTL_CFG_REFUSED) 0 1).ok) ∧
  -- presence of a REFIN or PPSIN signal, and of a source that its own registers tell
  (∀ (src : Fin 82) (present : Bool) (s : State), s.domOn .bell = true → 72 ≤ src.val → src.val < 78 →
    exec (.signalPresenceChange src present) s = .next ((s.setH .slotIn src present.toNat).sigUpdateAll.reselect)) ∧
  (∀ (src : Fin 82) (present : Bool) (s : State), s.domOn .bell = true → src.val < 72 →
    exec (.signalPresenceChange src present) s = .next (s.sigUpdateAll.reselect)) ∧
  -- what one slot does as its signal comes and goes
  (∀ (n : Nat) (s : State), s.sstate n = 1 → s.srcSignal n = true → s.h .slotSig n ≠ 1 →
    s.sigUpdate n = (((s.setH .slotSig n 1).setH .sigAt n s.age).wr (.sel .SLOT_STAT_SSTATE) n 2)) ∧
  (∀ (n : Nat) (s : State), s.sstate n = 2 → s.srcSignal n = false → s.h .slotSig n = 1 →
    s.sigUpdate n = (s.clearWindows n).wr (.sel .SLOT_STAT_SSTATE) n 1) ∧
  (∀ (n : Nat) (s : State), (s.sstate n = 3 ∨ s.sstate n = 5) → s.srcSignal n = false → s.h .slotSig n = 1 →
    s.sigUpdate n = (((((s.clearWindows n).wr (.sel .SLOT_STAT_SSTATE) n 4).wr (.sel .SLOT_STAT_CAUSE) n 1).raise
      .SEL_DISQUALIFIED locBell).trimFor n 1)) ∧
  -- wait-to-restore runs out: QUALIFIED
  (∀ (n : Fin 16) (s w : State), s.domOn .bell = true → s.sstate n = 5 → w = s.passAge (s.h .wtrAt n) →
    exec (.wtrExpiry n) s = .next ((((((w.wr (.sel .SLOT_STAT_SSTATE) n 3).wr (.sel .SLOT_STAT_CAUSE) n 0).raise
      .SEL_QUALIFIED locBell).wr (.sel .SLOT_WTR_LEFT) n 0).reselect)))

/-- R148, R152, R153, Table 5.2, Table 5.5: MONITOR_EVALUATION and LONG_WINDOW_EVALUATION: each slot's verdict, the vote and
the ranks. R149, R150, Table 5.3: ESMC_RECEIVE, ESMC_TIMEOUT, ESMC_INFO_SEND and ESMC_EVENT_SEND. Readings of the model: log
entries 24, 79. -/
def Obligations.MonitorsAndEsmcComplete : Prop :=
  (∀ (ms : List SlotMeas) (s : State), s.domOn .bell = true → s.mode ≠ 0 →
    exec (.monitorEvaluation ms) s = .next (s.monitorEval ms)) ∧
  (∀ (ms : List SlotLong) (s : State), s.domOn .bell = true → s.mode ≠ 0 →
    exec (.longWindowEvaluation ms) s = .next (s.longEval ms)) ∧
  -- the selector does not run in DORMANT (R157)
  (∀ (ms : List SlotMeas) (s : State), s.mode = 0 → exec (.monitorEvaluation ms) s = .next s) ∧
  -- a QUALIFIED or WTR slot whose rank becomes 15, whose window is beyond HARD, or that was outvoted three times
  (∀ (n : Nat) (s : State), (s.sstate n = 3 ∨ s.sstate n = 5) → s.beyond n 0 .SLOT_SOFT = false →
    s.beyond n 1 .SLOT_SOFT = false → s.qrank n = 15 → s.judge n = s.disq n 2) ∧
  (∀ (n : Nat) (s : State), s.sstate n = 3 → s.qrank n ≠ 15 → s.beyond n 0 .SLOT_SOFT = true →
    s.beyond n 1 .SLOT_HARD = true →
    s.judge n = ((s.wr (.sel .SLOT_STAT_SOFT_HIT) n 1).raise .SEL_SOFT_LIMIT locBell).disq n 3) ∧
  (∀ (n : Nat) (s : State), s.sstate n = 3 → s.qrank n ≠ 15 → s.beyond n 0 .SLOT_SOFT = false →
    s.beyond n 1 .SLOT_SOFT = false → s.beyond n 0 .SLOT_HARD = false → s.beyond n 1 .SLOT_HARD = false →
    s.judge n = (if 3 ≤ s.h .ovMid n then s.disq n 4 else s)) ∧
  -- QUALIFYING with a full middle window within SOFT
  (∀ (n : Nat) (s : State), s.sstate n = 2 → s.beyond n 0 .SLOT_SOFT = false → s.beyond n 1 .SLOT_SOFT = false →
    s.judge n = (if s.yValid n 1 = true ∧ s.qrank n < 15 then s.qualify n else s)) ∧
  -- DISQUALIFIED with a signal, a rank, every window within SOFT, and not outvoted: wait-to-restore
  (∀ (n : Nat) (s : State), s.sstate n = 4 → s.beyond n 0 .SLOT_SOFT = false → s.beyond n 1 .SLOT_SOFT = false →
    s.beyond n 2 .SLOT_SOFT = false → s.judge n =
      (if s.h .slotSig n = 1 ∧ s.qrank n < 15 ∧ s.on (.sel .SLOT_STAT_OUTVOTED) n = false then s.wtrStart n else s)) ∧
  -- fewer than three qualified slots outvote none; two that differ by more than AGREE conflict
  (∀ (k : Nat) (s : State) (x y : Nat × Int),
    s.windowOf k ((List.range 16).filter (fun n => s.sstate n == ssQUALIFIED)) = [x, y] →
    s.vote k = ([], decide (s.agree.toNat < (x.2 - y.2).natAbs))) ∧
  -- ranks of Table 5.2
  (∀ (n : Nat) (s : State), s.on (.sel .SLOT_CFG_QOVR_EN) n = true → s.slotRank n = s.rd (.sel .SLOT_CFG_QOVR) n) ∧
  (∀ (n : Nat) (s : State), s.on (.sel .SLOT_CFG_QOVR_EN) n = false → 72 ≤ s.slotSrc n → s.slotSrc n < 78 →
    s.slotRank n = 15) ∧
  (∀ (n : Nat) (s : State) (c : Nat), s.on (.sel .SLOT_CFG_QOVR_EN) n = false → s.slotSrc n < 72 →
    s.portCode (s.slotSrc n) = some c → s.slotRank n = (if s.qlOpt then rank2 c else rank1 c)) ∧
  -- the better of two keys is chosen, and a slot that is not QUALIFIED never
  (∀ (s : State) (n : Nat), s.pick = some n → s.candidate n = true ∧ s.selRuns = true) ∧
  (∀ (p : Fin 72) (ssm : BitVec 4) (s : State), s.up .PORT p = true →
    exec (.esmcReceive p ssm none) s = .next ((s.setH .portQl p (1 + ssm.toNat)).setH .esmcAt p s.age)) ∧
  (∀ (p : Fin 72) (ssm : BitVec 4) (e : BitVec 8) (s : State), s.up .PORT p = true →
    ∃ u : State, exec (.esmcReceive p ssm (some e)) s = .next u ∧ u.h .esmcAt p = s.age ∧
      u.portCode p = some (if s.qlOpt then ssm.toNat else e.toNat) ∧ Frame s u [] [(.portQl, p.val), (.esmcAt, p.val)]) ∧
  -- 5 s without a PDU: QL-FAILED, which has rank 15
  (∀ (p : Fin 72) (s : State), s.up .PORT p = true →
    ∃ u : State, exec (.esmcTimeout p) s = .next u ∧ u.portCode p = none ∧
      Frame (s.passAge (s.h .esmcAt p + 5 * ticksPerSec)) u [] [(.portQl, p.val)]) ∧
  -- the quality of Table 5.3 goes out each second, and at once when it changed
  (∀ (p : Fin 72) (s : State), s.esmcOn p = true →
    exec (.esmcInfoSend p) s = .next ((s.setH .esmcTx p (1 + s.txQuality p)).setH .esmcCnt p (s.h .esmcCnt p + 1))) ∧
  (∀ (p : Fin 72) (s : State), s.esmcOn p = true → s.h .esmcTx p % 64 ≠ 1 + s.txQuality p →
    exec (.esmcEventSend p) s = .next ((s.setH .esmcTx p (65 + s.txQuality p)).setH .esmcCnt p (s.h .esmcCnt p + 1))) ∧
  (∀ (p : Nat) (s : State), s.txRefBell p = false → s.txQuality p = 0xF) ∧
  (∀ (p : Nat) (s : State), s.txRefBell p = true → (s.rd (.sel .STATUS_STATE) 0 = 2 ∨ s.rd (.sel .STATUS_STATE) 0 = 3) →
    s.txQuality p = s.rd (.sel .ESMC_HOLD_QL) 0) ∧
  (∀ (p n : Nat) (s : State), s.h .selSlot = n + 1 → s.slotSrc n = p → s.rd (.sel .STATUS_STATE) 0 = 5 →
    s.txQuality p = 0xF)

/-- R168-R172, Table 5.8: HOLDOVER_HISTORY_ENTRY, HOLDOVER_EXPIRED, DAC_TRANSFER and DAC_CODE_WRITE, and the held word.
Readings of the model: log entries 23, 35. -/
def Obligations.HoldoverCompletes : Prop :=
  -- an entry is complete 64 s after it began, with the means of the correction and of the temperature
  (∀ (s w : State) (n : Nat), s.domOn .bell = true → s.recording = true → w = (s.passAge (s.h .histStart + histTicks)).histSum →
    n = max 1 (w.age - w.h .histStart) →
    exec .holdoverHistoryEntry s = .next (({ w with hist := (w.hist ++ [(⟨w.age, divRound (w.hS .histSum) n,
      divRound (w.hS .histTemp) n⟩ : HistEntry)]).drop (w.hist.length + 1 - 1024) }).histRestart.histPublish)) ∧
  -- HIST_S counts 64 s for each retained entry, and HIST_VALID compares it with HIST_MIN
  (∀ (s : State), s.histPublish = (s.wr (.sel .HOLD_HIST_S) 0 (64 * s.hist.length)).wr (.sel .HOLD_STAT_HIST_VALID) 0
    (if s.rd (.sel .HOLD_CFG_HIST_MIN) 0 ≤ 64 * s.hist.length then 1 else 0)) ∧
  -- a discard keeps the entries wholly before it
  (∀ (s : State) (cut : Nat), (s.histTrim cut).hist = s.hist.filter (fun e => decide (e.fin ≤ cut))) ∧
  -- the bound or the time is beyond its limit
  (∀ (s : State), s.domOn .bell = true → s.mode = 4 → s.holdOver = true → s.on (.sel .HOLD_STAT_EXPIRED) 0 = false →
    exec .holdoverExpired s = .next (((s.holdPublish.wr (.sel .HOLD_STAT_EXPIRED) 0 1).raise .SEL_HOLDOVER_EXPIRED
      locBell).selStatus)) ∧
  (∀ (s : State), s.holdOver = true ↔
    (s.rd (.sel .HOLD_LIM_TE_MAX) 0 * 16000000000 <
      (s.rd (.sel .HOLD_U_Y) 0 * 16 + s.rd (.sel .HOLD_TC_U) 0 * (s.tsens - s.rdS (.sel .HOLD_T0) 0).natAbs) * s.holdSecs *
        1000 + 8 * s.rd (.sel .HOLD_U_A) 0 * s.holdSecs * s.holdSecs ∨
      s.rd (.sel .HOLD_LIM_T_MAX) 0 * 3600 < s.holdSecs)) ∧
  -- the held word of R170, and the constant where no entry is retained
  (∀ (s : State), s.h .holdKind = 1 → s.holdTotal = s.rdS (.sel .HOLD_Y0) 0 +
    (s.rdS (.sel .HOLD_TC) 0 * (s.tsens - s.rdS (.sel .HOLD_T0) 0) * 281475).tdiv 16000000 +
    (s.hS .fitAge * s.holdSecs * 281475).tdiv 1000000000) ∧
  (∀ (s : State), s.h .holdKind = 2 → s.holdTotal = s.hS .holdWord) ∧
  -- the DAC moves by one step toward the mean word of 16 deadlines
  (∀ (s w : State), s.domOn .bell = true → 16 ≤ s.h .dacCnt → s.dacMode = true →
    s.h .dacCnt * s.dacK < (2 * s.hS .dacSum).natAbs → w = (s.setH .dacSum 0 0).setH .dacCnt 0 0 →
    exec .dacTransfer s = .next (w.dacStep (decide (0 < s.hS .dacSum)))) ∧
  (∀ (s w : State), s.rd (.sel .HOLD_DAC_CODE) 0 < 0xFFFFF → w = s.histSum →
    s.dacStep true = ((((w.wr (.sel .HOLD_DAC_CODE) 0 (w.rd (.sel .HOLD_DAC_CODE) 0 + 1)).wrS (.sel .HOLD_DAC_XFER) 0
      (w.rdS (.sel .HOLD_DAC_XFER) 0 + 1)).wrS (.bell .HWS_I) 0 (w.rdS (.bell .HWS_I) 0 - w.dacK)).putWord
      (w.wordNow - w.dacK))) ∧
  (∀ (s : State), s.rd (.sel .HOLD_DAC_CODE) 0 = 0xFFFFF → s.dacStep true = s) ∧
  -- CODE is set in SURVEY and SERVICE, and refused elsewhere
  (∀ (r : Req) (v : BitVec 20) (s : State), Reaches s r .SEL 0 → v.toNat ≠ s.rd (.sel .HOLD_DAC_CODE) 0 →
    (s.rd (.glb .MODE) 0 = 1 ∨ s.rd (.glb .MODE) 0 = 6) →
    exec (.dacCodeWrite r v) s = .next (((s.wr (.sel .HOLD_DAC_CODE) 0 v.toNat).setH .dacPinned 0 1).wordRefresh.ok)) ∧
  (∀ (r : Req) (v : BitVec 20) (s : State), Reaches s r .SEL 0 → v.toNat ≠ s.rd (.sel .HOLD_DAC_CODE) 0 →
    s.rd (.glb .MODE) 0 ≠ 1 → s.rd (.glb .MODE) 0 ≠ 6 →
    exec (.dacCodeWrite r v) s = .next (s.wr (.sel .CTL_CFG_REFUSED) 0 1).ok) ∧
  -- the word in effect never leaves ±200 ppm
  (∀ (s : State) (w : Int), w ≤ freqLimit → -freqLimit ≤ w → s.putWord w = s.histSum.wrS (.bell .FREQ_NOW) 0 w) ∧
  (∀ (s : State) (w : Int), freqLimit < w → s.putWord w = (((s.histSum.wrS (.bell .FREQ_NOW) 0 freqLimit).wr
    (.bell .STATUS_FREQ_CLAMPED) 0 1).raise .BELL_FREQ_CLAMPED locBell))

/-- R176-R180: TRIG_ARM, TRIG_DISARM, TRIGGER_FIRE and TRIGGER_DONE. R182-R185: TOD_SEND, CAPTURE_EDGE, CAPTURE_FIFO_READ
and INTERVAL_TIMEOUT. Readings of the model: log entry 29. -/
def Obligations.TriggersAndCapturesComplete : Prop :=
  -- an acceptable ARM
  (∀ (r : Req) (k : Fin 8) (s : State) (at_ : Nat), Reaches s r .TOUT k → s.outTrig k = true → s.outEn k = true →
    at_ = u96 (s.rd (.sel .TOUT_TRIG_T) k) * 125 + s.outDelay k → s.nowV + usTicks 1 * 13107200 ≤ at_ →
    s.rd (.sel .TOUT_CTL_TKIND) k ≠ 2 →
    exec (.trigArm r k) s = .next (((((((((s.trigEnd k).tapSet k at_).setH .trigState k 1).setH .trigAt k at_).setH .trigKind k
      (s.rd (.sel .TOUT_CTL_TKIND) k)).setH .trigW k (s.rd (.sel .TOUT_TRIG_W_WIDTH) k)).setH .trigN k 1).setH .trigP k
      (s.rdA (.sel .TOUT_DIV) k)).wr (.sel .TOUT_TRIG_CTL_ARMED) k 1).ok) ∧
  -- too late, disabled, or a TRAIN whose WIDTH is not below DIV: MISSED
  (∀ (r : Req) (k : Fin 8) (s : State), Reaches s r .TOUT k → s.outTrig k = true →
    (u96 (s.rd (.sel .TOUT_TRIG_T) k) * 125 + s.outDelay k < s.nowV + usTicks 1 * 13107200 ∨ s.outEn k = false ∨
      (s.rd (.sel .TOUT_CTL_TKIND) k = 2 ∧ s.rdA (.sel .TOUT_DIV) k ≤ s.rd (.sel .TOUT_TRIG_W_WIDTH) k)) →
    exec (.trigArm r k) s =
      .next ((s.wr (.sel .TOUT_TRIG_CTL_MISSED) k 1).raise .TOUT_TRIG_MISSED (locTout k)).ok) ∧
  -- DISARM drops a trigger that waits
  (∀ (r : Req) (k : Fin 8) (s : State), Reaches s r .TOUT k → s.h .trigState k = 1 →
    exec (.trigDisarm r k) s =
      .next (((s.setH .trigState k 0).setH .trigSq k 0).wr (.sel .TOUT_TRIG_CTL_ARMED) k 0).ok) ∧
  -- at its time an armed trigger runs, or is missed where squelched
  (∀ (k : Fin 8) (s w : State), s.domOn .bell = true → s.h .trigState k = 1 → w = s.passTo (tickAtV (s.h .trigAt k)) →
    exec (.triggerFire k) s = .next (if w.outSquelched k then (w.trigEnd k).trigMissed k
      else (w.setH .trigState k 2).setH .trigFired k (max (s.h .trigAt k) s.nowV))) ∧
  -- the last pulse ends: DONE
  (∀ (k : Fin 8) (s w : State), s.domOn .bell = true → s.h .trigState k = 2 → s.h .trigKind k ≠ 0 → s.h .trigN k ≠ 0 →
    w = s.passTo (tickAtV (max (s.h .trigAt k + (s.h .trigN k - 1) * s.h .trigP k * vcoV) (s.h .trigFired k) +
      s.h .trigW k * vcoV)) → w.h .trigSq k = 0 →
    exec (.triggerDone k) s = .next ((w.trigEnd k).wr (.sel .TOUT_TRIG_CTL_DONE) k 1)) ∧
  -- TAP is a tap whose trimmed delay is nearest the remainder, and the lowest of them (R178)
  (∀ (out rem : Nat) (temp : Int) (t : Nat), t < 256 →
    (((Config.tapDelay out temp (tapFor out temp rem).1 * 8192 : Nat) - (rem * 100 : Nat) : Int)).natAbs ≤
      (((Config.tapDelay out temp t * 8192 : Nat) - (rem * 100 : Nat) : Int)).natAbs ∧
    (t < (tapFor out temp rem).1 →
      (((Config.tapDelay out temp (tapFor out temp rem).1 * 8192 : Nat) - (rem * 100 : Nat) : Int)).natAbs <
        (((Config.tapDelay out temp t * 8192 : Nat) - (rem * 100 : Nat) : Int)).natAbs)) ∧
  -- the two messages of a second, START ms after the edge
  (∀ (s w : State) (j start baud : Nat), s.domOn .bell = true → s.rdA (.sel .TOD_EN) 0 ≠ 0 → j = s.rdA (.sel .TOD_SRC) 0 →
    s.ppsDrives j = true → start = s.rdA (.sel .TOD_START) 0 → baud = todBaud (s.rdA (.sel .TOD_BAUD) 0) →
    w = s.passTo ((s.now + ticksPerSec - 1 - s.todOff j start) / ticksPerSec * ticksPerSec + s.todOff j start) →
    exec .todSend s = .next (w.todTwo start baud)) ∧
  (∀ (s : State) (start baud done n : Nat), todFits start baud done n = false →
    s.todMsg start baud done n = (s.raise .TOD_OVERRUN locBell, done)) ∧
  -- an edge that is not selected, or of an input that is off, changes nothing
  (∀ (k : Fin 8) (rise : Bool) (ofs : Fin 160) (s : State), s.domOn .bell = true →
    (s.rdA (.sel .ECAP_CFG_EN) k = 0 ∨ (s.rd (.sel .ECAP_CFG_EDGE) k = 0 ∧ rise = false) ∨
      (s.rd (.sel .ECAP_CFG_EDGE) k = 1 ∧ rise = true)) → exec (.captureEdge k rise ofs) s = .next s) ∧
  -- an edge within 20 ns of the last accepted one is dropped and counted DEAD
  (∀ (k : Fin 8) (ofs : Fin 160) (s : State), s.domOn .bell = true → s.rdA (.sel .ECAP_CFG_EN) k ≠ 0 →
    s.rd (.sel .ECAP_CFG_EDGE) k ≠ 1 → s.h .ecapLast k ≠ 0 → s.age * 160 + ofs.val + 1 - s.h .ecapLast k ≤ 2000 →
    exec (.captureEdge k true ofs) s = .next (s.count (.sel .ECAP_CNT_DEAD) k)) ∧
  -- an accepted edge: its record, with the fixed delay and the cable's taken off, enters the FIFO
  (∀ (k : Fin 8) (ofs : Fin 160) (s : State), s.domOn .bell = true → s.rdA (.sel .ECAP_CFG_EN) k ≠ 0 →
    s.rd (.sel .ECAP_CFG_EDGE) k ≠ 1 → s.h .ecapLast k = 0 → s.rd (.sel .ECAP_CFG_IV_MODE) (k.val / 2 * 2) = 0 →
    s.rd (.hrt .SUPPLY_CAUTION) 0 = 0 → s.on (.sel .OSTAT_LOCK) 0 = true →
    exec (.captureEdge k true ofs) s = .next ((s.setH .ecapLast k (s.age * 160 + ofs.val + 1)).capPush k
      { time := timeV ((s.nowV + ofs.val * 81920 : Nat) - (Config.ecapDelay k (s.rdS (.ree .TEMP_T) 19) +
          s.rdS (.sel .ECAP_CAB_DLY) k) * 125),
        gen := s.capGen k, rise := true, caution := false, void := false })) ∧
  -- the FIFO holds 64 records; READY is raised when the first of all FIFOs comes
  (∀ (k : Nat) (rec : CapRec) (s : State), 64 ≤ (s.cap k).length →
    s.capPush k rec = (s.count (.sel .ECAP_CNT_OVERRUN) k).raise .ECAP_OVERRUN (locEcap k)) ∧
  (∀ (k : Nat) (rec : CapRec) (s : State), (s.cap k).length < 64 → s.capsAny = true →
    s.capPush k rec = (s.setCap k (s.cap k ++ [rec])).wr (.sel .ECAP_FILL_LEVEL) k ((s.cap k).length + 1)) ∧
  -- a read of word 0 takes the oldest record into the reader's latch
  (∀ (r : Req) (k : Fin 8) (e : CapRec) (t : List CapRec) (s : State), Reaches s r .ECAP k → s.cap k = e :: t →
    exec (.captureFifoRead r k) s = .next ((((s.setCap k t).wr (.sel .ECAP_FILL_LEVEL) k t.length).setLatch r
      (e.time / 2 ^ 32 + e.flags * 2 ^ 64) .bell).ok (e.time % 2 ^ 32))) ∧
  (∀ (r : Req) (k : Fin 8) (s : State), Reaches s r .ECAP k → s.cap k = [] →
    exec (.captureFifoRead r k) s = .next ((s.setLatch r 0 .bell).ok 0)) ∧
  -- intervals (R185): the first edge opens, the other input's closes; ORDER, RESTART and TIMEOUT are counted
  (∀ (e : Nat) (v : Int) (fl : Nat) (s : State), s.h .ivOpen e = 0 →
    s.ivEdge e 0 1 v fl = s.ivBegin e 0 v fl ∧ s.ivEdge e 1 1 v fl = s.count (.sel .ECAP_CNT_ORDER) e ∧
      s.ivEdge e 1 2 v fl = s.ivBegin e 1 v fl) ∧
  (∀ (e mode side : Nat) (v : Int) (fl : Nat) (s : State), s.h .ivOpen e = side + 1 →
    s.ivEdge e side mode v fl = (s.count (.sel .ECAP_CNT2_RESTART) e).ivBegin e side v fl) ∧
  (∀ (e : Nat) (v : Int) (s : State), s.h .ivOpen e = 1 → 81920 ≤ (v - s.hS .ivStart e).natAbs → s.h .ivFlags e = 0 →
    s.ivEdge e 1 1 v 0 = (s.setH .ivOpen e 0).capPush e
      { time := timeV (v - s.hS .ivStart e).natAbs, gen := s.capGen e, iv := true }) ∧
  (∀ (j : Fin 4) (s w : State), s.domOn .bell = true → s.h .ivOpen (2 * j.val) ≠ 0 →
    w = s.passAge (s.h .ivAt (2 * j.val) + usTicks (s.rd (.sel .ECAP_IVMAX_IV_MAX) (2 * j.val)) + 1) →
    exec (.intervalTimeout j) s = .next ((w.setH .ivOpen (2 * j.val) 0).count (.sel .ECAP_CNT_TIMEOUT) (2 * j.val)))

/-- R200, R202, R203: RING_ENABLE_WRITE, and how a record enters its ring: 32 octets at RBASE + 32 × HEAD, HEAD after them,
PHASE at each wrap; a full ring drops it. Readings of the model: log entries 43, 44, 85. -/
def Obligations.StampRingsComplete : Prop :=
  -- RING_EN written 1 with the ring's fields as they are: HEAD 0, PHASE 1
  (∀ (r : Req) (p : Fin 72) (w : BitVec 32) (s : State), Reaches s r .SPORT p → s.on (.stamp .SPORT_CFG_RING_EN) p = false →
    bits 0 1 w.toNat = 1 → bits 1 1 w.toNat = s.rd (.stamp .SPORT_CFG_RING_LOC) p →
    bits 2 4 w.toNat = s.rd (.stamp .SPORT_CFG_RING_ENG) p → bits 6 5 w.toNat = s.rd (.stamp .SPORT_CFG_RING_SIZE) p →
    bits 11 2 w.toNat ≠ 3 →
    exec (.ringEnableWrite r p w) s = .next ((((((s.wr (.stamp .SPORT_CFG_PDR_DOM) p (bits 13 3 w.toNat)).wr
      (.stamp .SPORT_CFG_PDR_MODE) p (bits 11 2 w.toNat)).wr (.stamp .SPORT_CFG_RING_EN) p 1).wr (.stamp .SPORT_HEAD) p
      0).setH .sringPhase p 0).ok)) ∧
  -- the fields do not change while RING_EN = 1
  (∀ (r : Req) (p : Fin 72) (w : BitVec 32) (s : State), Reaches s r .SPORT p → s.on (.stamp .SPORT_CFG_RING_EN) p = true →
    bits 0 1 w.toNat = 1 → bits 6 5 w.toNat ≠ s.rd (.stamp .SPORT_CFG_RING_SIZE) p → bits 11 2 w.toNat ≠ 3 →
    exec (.ringEnableWrite r p w) s = .next ((((s.wr (.stamp .CTL_CFG_REFUSED) 0 1).wr (.stamp .SPORT_CFG_PDR_DOM) p
      (bits 13 3 w.toNat)).wr (.stamp .SPORT_CFG_PDR_MODE) p (bits 11 2 w.toNat)).ok)) ∧
  -- a record in host memory
  (∀ (p : Nat) (rec : StampRec) (s : State) (size head : Nat), s.on (.stamp .CTL_EN) 0 = true →
    s.on (.stamp .SPORT_CFG_RING_EN) p = true → s.rd (.stamp .SPORT_CFG_RING_LOC) p = 0 →
    (if s.h .recSec = s.age / ticksPerSec then s.h .recCnt else 0) < recRate →
    size = 2 ^ s.rd (.stamp .SPORT_CFG_RING_SIZE) p → head = s.rd (.stamp .SPORT_HEAD) p → head < size → size ≤ 2 ^ 16 →
    (head + 1) % size ≠ s.rd (.stamp .SPORT_TAIL) p % size →
    ∃ u : State, s.recWrite p rec = u ∧ u.rd (.stamp .SPORT_HEAD) p = (head + 1) % size ∧ u.h .sringLost p = 0 ∧
      (head + 1 = size → u.h .sringPhase p = 1 - s.h .sringPhase p) ∧
      (head + 1 ≠ size → u.h .sringPhase p = s.h .sringPhase p) ∧
      (∀ k, k < 32 → u.byte .host (s.rd (.stamp .SPORT_RBASE) p + 32 * head + k) =
        (rec.toBytes p (s.h .sringPhase p == 0) (s.h .sringLost p == 1)).getD k 0) ∧
      (∀ g a, ¬ (g = .host ∧ s.rd (.stamp .SPORT_RBASE) p + 32 * head ≤ a ∧
        a < s.rd (.stamp .SPORT_RBASE) p + 32 * head + 32) → u.byte g a = s.byte g a) ∧
      (∀ f i, (f, i) ≠ (Fld.stamp .SPORT_HEAD, p) → u.rd f i = s.rd f i)) ∧
  -- a full ring drops the record
  (∀ (p : Nat) (rec : StampRec) (s : State), s.on (.stamp .CTL_EN) 0 = true → s.on (.stamp .SPORT_CFG_RING_EN) p = true →
    s.rd (.stamp .SPORT_CFG_RING_LOC) p = 0 → s.recCount.1 = true →
    (s.rd (.stamp .SPORT_HEAD) p + 1) % 2 ^ s.rd (.stamp .SPORT_CFG_RING_SIZE) p =
      s.rd (.stamp .SPORT_TAIL) p % 2 ^ s.rd (.stamp .SPORT_CFG_RING_SIZE) p →
    s.recWrite p rec = (((s.recCount.2.count (.stamp .SPORT_CNT_LOST) p).setH .sringLost p 1).raiseP .STAMP_RING_FULL p)) ∧
  -- with EN or RING_EN 0 none is made
  (∀ (p : Nat) (rec : StampRec) (s : State), (s.on (.stamp .CTL_EN) 0 = false ∨ s.on (.stamp .SPORT_CFG_RING_EN) p = false) →
    s.recWrite p rec = s) ∧
  -- every record is 32 octets long
  (∀ (rec : StampRec) (p : Nat) (phase lost : Bool), (rec.toBytes p phase lost).length = 32)

/-- R190, R194-R197, R202, R239: SCHEDULER_SELECT, FRAME_DEPARTURE and FRAME_TRANSMIT_END. Readings of the model: log
entries 33, 45, 51, 84. -/
def Obligations.TransmissionCompletes : Prop :=
  -- a port's own frames go first
  (∀ (p : Fin 72) (ue : Option (Fin 64 × BitVec 16)) (s : State) (t : Tx) (rest : List Tx), s.up .PORT p = true →
    s.pstate p = pUP → s.txOf p = none → s.ctlOf p = t :: rest →
    exec (.schedulerSelect p ue) s = .next ((s.setCtl p rest).setTx p (some t))) ∧
  -- then the scheduler's choice among the queues
  (∀ (p : Fin 72) (s : State) (t : Nat), s.up .PORT p = true → s.pstate p = pUP → s.txOf p = none → s.ctlOf p = [] →
    (s.heldMark p).schedPick p = (some t, s.heldMark p) →
    exec (.schedulerSelect p none) s = .next ((s.heldMark p).selectFrom p t none)) ∧
  (∀ (p : Fin 72) (ue : Option (Fin 64 × BitVec 16)) (s : State), s.up .PORT p = true →
    (s.pstate p ≠ pUP ∨ (s.txOf p).isSome = true) → exec (.schedulerSelect p ue) s = .next s) ∧
  -- the highest eligible strict-priority queue, whatever the others hold
  (∀ (p t : Nat) (s : State), t < 8 → s.eligible p t = true → s.on (.core .QUEUE_SP) (8 * p + t) = true →
    (∀ q, t < q → q < 8 → s.eligible p q = true → s.on (.core .QUEUE_SP) (8 * p + q) = false) →
    s.schedPick p = (some t, s)) ∧
  (∀ (p : Nat) (s : State), (∀ t, t < 8 → s.eligible p t = false) → s.schedPick p = (none, s)) ∧
  -- the departure time is fixed once
  (∀ (p : Fin 72) (x : StampOut) (s : State) (t : Tx), s.up .PORT p = true → s.txOf p = some t → t.departed = true →
    exec (.frameDeparture p x) s = .next s) ∧
  -- a frame with action NONE or RING departs with its time, flags and generation
  (∀ (p : Fin 72) (x : StampOut) (s : State) (t : Tx), s.up .PORT p = true → s.txOf p = some t → t.departed = false →
    t.own = 0 → sdAct (mdSTAMP.get t.desc.md) ≤ 1 →
    exec (.frameDeparture p x) s = .next (s.setTx p (some { t with
      dep := s.txStamp p x, departed := true, void := s.laneVoid (s.stampLane p x.lane), caution := s.caution,
      gen := s.stampGen, cyc := s.cyc16 }))) ∧
  -- a frame that would carry a VOID time is stomped, counted and reported (R196)
  (∀ (p : Fin 72) (x : StampOut) (s : State) (t : Tx), s.up .PORT p = true → s.txOf p = some t → t.departed = false →
    t.own = 0 → s.on (.stamp .CTL_EN) 0 = true → 2 ≤ sdAct (mdSTAMP.get t.desc.md) →
    s.laneVoid (s.stampLane p x.lane) = true →
    exec (.frameDeparture p x) s = .next (((s.setTx p (some { t with
      dep := s.txStamp p x, departed := true, void := true, caution := s.caution, gen := s.stampGen, cyc := s.cyc16,
      stomped := true })).count (.stamp .SPORT_CNT_VOID_STOMP) p).raiseP .STAMP_STOMP p)) ∧
  -- the terms that the actions add to cf (Table 6.2)
  (∀ (p md d : Nat) (s : State), sdAct (mdSTAMP.get md) = 4 → sdPlane (mdSTAMP.get md) = false →
    s.cfAdd p md d = (d : Int) - u96 (mdREF.get md)) ∧
  (∀ (p md d : Nat) (s : State), sdAct (mdSTAMP.get md) = 3 → sdPlane (mdSTAMP.get md) = false →
    sdLink (mdSTAMP.get md) = false → s.rd (.stamp .DOM_RATE_OFS) (sdDom (mdSTAMP.get md)) = 0 →
    s.cfAdd p md d = (d : Int) - u96 (mdARR.get md)) ∧
  -- the last octet leaves: the record, the statistics, and the copy's cells go back
  (∀ (p : Fin 72) (s : State) (t : Tx), s.up .PORT p = true → s.txOf p = some t → t.departed = true →
    (t.desc.ct = false ∨ t.desc.done = true ∨ t.stomped = true) → t.own = 0 →
    exec (.frameTransmitEnd p) s = .next ((((s.txRecord p t).txStats p t).setTx p none).drop1 t.desc.handle)) ∧
  (∀ (p : Fin 72) (s : State) (t : Tx), s.up .PORT p = true → s.txOf p = some t → t.departed = false →
    exec (.frameTransmitEnd p) s = .next s) ∧
  -- only ACT = RING makes a transmit record (R191)
  (∀ (p : Nat) (t : Tx) (s : State), sdAct (mdSTAMP.get t.desc.md) ≠ 1 → s.txRecord p t = s)

/-- R209, R210: PEER_DELAY_RESPOND and PDELAY_FOLLOW_UP_SEND. Readings of the model: log entries 49, 51. -/
def Obligations.PeerDelayResponderCompletes : Prop :=
  -- a frame that is no request for it, and every frame with PDR_MODE = 0, is dropped and counted
  (∀ (p : Fin 72) (s : State) (r : Rx), s.up .PORT p = true → s.rxOf (72 + p.val) = some r →
    s.rd (.stamp .SPORT_CFG_PDR_MODE) p = 0 →
    exec (.peerDelayRespond p) s = .next ((s.setRx (72 + p.val) none).count (.stamp .SPORT_PDR_DROP) p)) ∧
  -- with DLY_VALID = 0 it is counted in NOROLE
  (∀ (p : Fin 72) (s : State) (r : Rx), s.up .PORT p = true → s.rxOf (72 + p.val) = some r →
    s.rd (.stamp .SPORT_CFG_PDR_MODE) p ≠ 0 → s.dlyOk p = false →
    s.pdrMatch p (mdSTAMP.get r.md) (octetsAt (fcsBody r.octets) (sdHdr (mdSTAMP.get r.md)) 34) = true →
    exec (.peerDelayRespond p) s = .next ((s.setRx (72 + p.val) none).count (.stamp .SPORT_CNT2_NOROLE) p)) ∧
  -- one-step: a Pdelay_Resp with cf of the request, action TURNAROUND at PLANE 1, REF the fibre-plane arrival
  (∀ (p : Fin 72) (s : State) (r : Rx) (h : List Byte) (a : Nat), s.up .PORT p = true → s.rxOf (72 + p.val) = some r →
    s.rd (.stamp .SPORT_CFG_PDR_MODE) p = 1 → s.dlyOk p = true →
    h = octetsAt (fcsBody r.octets) (sdHdr (mdSTAMP.get r.md)) 34 → s.pdrMatch p (mdSTAMP.get r.md) h = true →
    a = u96 (mdARR.get r.md) - s.fibreRx p →
    exec (.peerDelayRespond p) s = .next ((s.setRx (72 + p.val) none).pdrPut p (s.pdrFrame p (frameDa r.octets) h 3 0
      (toS 64 (fieldAt h 8 8)) (List.replicate 10 0)) (4 + 8 + 14 * 1024) (of96 a))) ∧
  -- the follow-up, once its response has left
  (∀ (p : Fin 72) (s : State), s.up .PORT p = true → s.h .pdrFu p ≠ 0 → s.h .pdrFuDep p ≠ 0 →
    exec (.pdelayFollowUpSend p) s = .next (((s.pdrPut p (s.pdrFrame p (s.h .pdrDa p) (beBytes 34 (s.h .pdrFuData p)) 0xA 0
      (s.hS .pdrFuCf p + ((s.h .pdrFuDep p - 1) % 65536 : Nat)) (ptpTs (s.h .pdrFuDep p - 1))) (14 * 1024) 0).setH .pdrFu p
      0).setH .pdrFuDep p 0)) ∧
  (∀ (p : Fin 72) (s : State), s.up .PORT p = true → (s.h .pdrFu p = 0 ∨ s.h .pdrFuDep p = 0) →
    exec (.pdelayFollowUpSend p) s = .next s) ∧
  -- a frame of the responder waits on its port, after those that wait there
  (∀ (p : Nat) (octets : List Byte) (sd ref : Nat) (s : State), ((s.pdrPut p octets sd ref).ctlOf p).length =
    (s.ctlOf p).length + 1 ∧ (∀ q, q ≠ p → (s.pdrPut p octets sd ref).ctlOf q = s.ctlOf q) ∧
    (∀ f i, (s.pdrPut p octets sd ref).rd f i = s.rd f i))

/-- R211-R214: OBSERVER_MESSAGE, OBSERVER_STALE and OBSERVER_CFG_WRITE. Readings of the model: log entries 50, 52. -/
def Obligations.ObserversComplete : Prop :=
  (∀ (o : Fin 4) (h : ObsHdr) (m : ObsMsg) (s : State), s.up .OBS o = true → s.obsTakes o h m = true →
    exec (.observerMessage o h m) s = .next (s.obsMsg o h m)) ∧
  -- a message of another port, domain or parent is not considered
  (∀ (o : Fin 4) (h : ObsHdr) (m : ObsMsg) (s : State), s.up .OBS o = true →
    (h.port.val ≠ s.rd (.stamp .OBS_CFG_PORT) o ∨
      h.domain.toNat ≠ s.rd (.stamp .DOM_DOMAIN_NUM) (s.rd (.stamp .OBS_CFG_DOM) o) ∨
      s.on (.stamp .OBS_CFG_EN) o = false) →
    exec (.observerMessage o h m) s = .next s) ∧
  -- a Delay_Req is kept with its fibre-plane time
  (∀ (o : Nat) (h : ObsHdr) (x : ObsStamp) (s : State), s.obsMsg o h (.delayReq x) = s.setObs o { s.obsOf o with
    reqs := ((⟨h.seq.toNat, (u96 x.time.toNat : Int) + s.fibreTx h.port, x.void || x.caution⟩ : ObsReq) ::
      (s.obsOf o).reqs).take 16 }) ∧
  -- the exchange of a Delay_Resp: OFS and MPD of R212
  (∀ (o : Nat) (req : ObsReq) (t4 : Int) (x : ObsSync) (s : State),
    (s.obsOf o).syncs.find? (fun y => y.whole && decide (y.t2 < req.t3)) = some x → x.bad = false → req.bad = false →
    req.t3 - x.t2 ≤ 1000000000 * 65536 → s.dlyOk (s.rd (.stamp .OBS_CFG_PORT) o) = true →
    ∃ u : State, s.obsE2E o req t4 = u ∧ (u.obsOf o).exch = (s.obsOf o).exch ++
      [(divRound (x.t2 - x.t1 - (t4 - req.t3)) 2 - s.asym (s.rd (.stamp .OBS_CFG_PORT) o),
        divRound (x.t2 - x.t1 + (t4 - req.t3)) 2, x.t2.toNat)] ∧
      Frame { s with obs := u.obs } u [(.stamp .OBS_CNT_EXCH, o)] []) ∧
  -- an exchange with a VOID or CAUTION stamp is discarded and counted (R213)
  (∀ (o : Nat) (ofs mpd t2 : Int) (s : State), s.obsExch o true ofs mpd t2 = s.count (.stamp .OBS_CNT_OBS_DISC) o) ∧
  -- three intervals without one of the parent's messages
  (∀ (o : Fin 4) (t : Nat) (s : State), s.up .OBS o = true → s.on (.stamp .OBS_CFG_EN) o = true →
    s.on (.stamp .CTL_EN) 0 = true → s.obsDue o = some t →
    exec (.observerStale o) s = .next ((((((s.passAge t).setH .obsHas o 0).setH .obsAnn o 0).setH .obsSync o 0).wr
      (.stamp .OBS_CFG_STALE) o 1).raise .STAMP_OBS_STALE (locLane ((s.passAge t).rd (.stamp .OBS_CFG_PORT) o))).sigRefresh) ∧
  -- PARENT, PORT or DOM written: the pairing starts afresh
  (∀ (r : Req) (o : Fin 4) (v : BitVec 80) (s : State), Reaches s r .OBS o →
    exec (.observerCfgWrite r o (.parent v)) s = .next (((s.wr (.stamp .OBS_PARENT) o v.toNat).obsClear o).sigRefresh).ok) ∧
  (∀ (r : Req) (o : Fin 4) (w : BitVec 32) (s : State), Reaches s r .OBS o → bits 1 7 w.toNat < 72 →
    exec (.observerCfgWrite r o (.cfg w)) s = .next ((((((s.wr (.stamp .OBS_CFG_EN) o (bits 0 1 w.toNat)).wr
      (.stamp .OBS_CFG_MECH) o (bits 11 1 w.toNat)).wr (.stamp .OBS_CFG_DOM) o (bits 8 3 w.toNat)).wr (.stamp .OBS_CFG_PORT) o
      (bits 1 7 w.toNat)).obsClear o).sigRefresh).ok) ∧
  (∀ (o : Nat) (s : State), ((s.obsClear o).obsOf o) = {} ∧ (s.obsClear o).h .obsHas o = 0)

/-- R219-R223, R229, R230, R233, R235, R243-R246: FRAME_RECEIVE, HEAD_WINDOW_COMPLETE, FRAME_COMPLETE, CUT_THROUGH_UNDERRUN
and PROGRAM_WORD_WRITE. Readings of the model: log entries 37, 38, 47, 48, 84. -/
def Obligations.ForwardingCompletes : Prop :=
  -- a lane in an Ethernet mode takes what its port receives
  (∀ (p : Fin 72) (x : StampIn) (l : List Byte) (s : State), s.up .PORT p = true → s.up .LANE p = true →
    1 ≤ s.rd (.lane .STATUS_EFF_MODE) p → s.rd (.lane .STATUS_EFF_MODE) p ≤ 7 →
    exec (.frameReceive p x l) s = .next (s.frameRx p x l)) ∧
  -- a frame shorter than 64 octets is counted and dropped
  (∀ (p : Nat) (x : StampIn) (l : List Byte) (s : State), l.length < 64 → macCtl l = none →
    s.frameRx p x l = (s.frameEnd p).bump (.port .STAT_UNDERSIZE) p) ∧
  -- a MAC Control frame of another opcode than PAUSE and PFC is dropped and counted, never forwarded
  (∀ (p op : Nat) (x : StampIn) (l : List Byte) (s : State), macCtl l = some op → op ≠ 0x0001 → op ≠ 0x0101 →
    64 ≤ l.length → (s.frameEnd p).macErr p l = 0 →
    s.frameRx p x l = ((((s.frameEnd p).macCount p l).bump (.port .STAT_CTL_RX) p).count (.port .CNT_CTL_DROP) p)) ∧
  -- a short frame with an error is never taken; one on a port that is not UP is counted in DOWN_DROP
  (∀ (p : Nat) (x : StampIn) (l : List Byte) (s : State), l.length ≤ 192 → s.macErr p l ≠ 0 → s.rxTake p x l = s) ∧
  (∀ (p : Nat) (x : StampIn) (l : List Byte) (s : State), s.macErr p l = 0 → s.pstate p ≠ pUP →
    s.traps p (s.rxMd p l (s.rxStamp p x) (s.laneVoid (s.stampLane p x.lane) || x.uncorr)) = false →
    s.rxTake p x l = s.count (.port .CNT_DOWN_DROP) p) ∧
  -- a user frame in a forwarding mode is taken with its stamp and flags
  (∀ (p : Nat) (x : StampIn) (l : List Byte) (s : State), s.macErr p l = 0 → s.pstate p = pUP → s.forwards p = true →
    s.rxTake p x l = s.setRx p (some
      { octets := l, err := 0, md := s.rxMd p l (s.rxStamp p x) (s.laneVoid (s.stampLane p x.lane) || x.uncorr),
        void := s.laneVoid (s.stampLane p x.lane) || x.uncorr, caution := s.caution, cyc := s.cyc16 })) ∧
  (∀ (p : Nat) (s : State), s.forwards p = true ↔
    (2 ≤ s.mode ∧ s.mode ≤ 5 ∧ ¬ (s.h .survKind = 1 ∧ s.survPort = p))) ∧
  -- the head window is complete: nothing waits, or the frame runs through the 12 stages
  (∀ (p : Fin 72) (s : State), s.up .PORT p = true → s.rxOf p = none → exec (.headWindowComplete p) s = .next s) ∧
  (∀ (p : Fin 72) (s t : State) (r : Rx) (tr : Track) (pr : Nat), s.up .PORT p = true → s.rxOf p = some r →
    r.entered = false → r.dead = false → r.cells = [] → pr = portSlice p →
    s.pipeline pr false ⟨mdBANK.put (s.rd (.core .PAIR_CTL_BANK_APPLIED) pr) (mdPAIR_GEN.put (s.h .unitGen (194 + pr)) r.md),
      r.octets.take 192, 0, 0, []⟩ = (tr, t) →
    exec (.headWindowComplete p) s = .next (
      (fun (b : Bool × State) => if b.1 = false then b.2.rxDrop p else if bit 30 (mdSTAMP.get tr.md) then b.2
        else b.2.ingressOut p pr tr.md)
      ((t.setRx p (some { r with
        octets := frameAfter r.octets tr.win, md := tr.md, entered := true, recd := bit 31 (mdSTAMP.get tr.md),
        pdr := bit 30 (mdSTAMP.get tr.md) })).streamPass (frameAfter r.octets tr.win)))) ∧
  -- DKIND 0 and no mirror: NO_DEST; a destination that is absent or off: BAD_DEST
  (∀ (md : Nat) (s : State), 5 ≤ mdDKIND.get md → s.wants md = none) ∧
  (∀ (md : Nat) (s : State), mdDKIND.get md = 1 → mdMIRROR.get md = 0 → mdDEST.get md < 72 →
    s.portOn (mdDEST.get md) = true → s.wants md = some [⟨1, mdDEST.get md, mdTC.get md⟩]) ∧
  (∀ (md : Nat) (s : State), mdDKIND.get md = 1 → mdDEST.get md < 72 → s.portOn (mdDEST.get md) = false →
    s.wants md = none) ∧
  -- the frame's end: nothing to end, and a frame dropped in the pipeline
  (∀ (p : Fin 72) (s : State), s.up .PORT p = true → s.rxOf p = none → exec (.frameComplete p) s = .next s) ∧
  (∀ (p : Fin 72) (s : State) (r : Rx), s.up .PORT p = true → s.rxOf p = some r → r.entered = true → r.dead = true →
    r.recd = false → exec (.frameComplete p) s = .next (s.setRx p none)) ∧
  (∀ (p : Fin 72) (s : State) (r : Rx), s.up .PORT p = true → s.rxOf p = some r → r.entered = true → r.dead = false →
    r.err = 0 → r.recd = false → r.late = [] → r.pdr = false → r.cells ≠ [] → cellsOf r.octets.length ≤ r.cells.length →
    exec (.frameComplete p) s = .next ((s.markDone (r.cells.headD 0)).setRx p none)) ∧
  -- an underrun stomps the cut-through frame in transmission
  (∀ (p : Fin 72) (s : State) (t : Tx), s.up .PORT p = true → s.txOf p = some t → t.desc.ct = true → t.desc.done = false →
    exec (.cutThroughUnderrun p) s = .next (s.stompTx p)) ∧
  (∀ (p : Fin 72) (s : State) (t : Tx), s.up .PORT p = true → s.txOf p = some t → t.desc.ct = false →
    exec (.cutThroughUnderrun p) s = .next s) ∧
  -- a program word of the bank in effect is refused, one of the other bank is written at once
  (∀ (r : Req) (c : Fin 96) (eg bankB : Bool) (k : Fin 24) (w : BitVec 32) (s : State), Reaches s r .PAIR (cellPair c) →
    s.on (.core .PAIR_CTL_BANK_APPLIED) (cellPair c) = bankB →
    exec (.programWordWrite r c eg bankB k w) s = .next (s.wr (.core .PAIR_CTL_CFG_REFUSED) (cellPair c) 1).ok) ∧
  (∀ (r : Req) (c : Fin 96) (eg bankB : Bool) (k : Fin 24) (w : BitVec 32) (s : State), Reaches s r .PAIR (cellPair c) →
    s.on (.core .PAIR_CTL_BANK_APPLIED) (cellPair c) ≠ bankB → (isHost r = false ∨ s.mode = 6) →
    exec (.programWordWrite r c eg bankB k w) s =
      .next ((s.wr (insnFld eg bankB) (24 * c + k) w.toNat).chkSync (cellPair c)).ok)

/-- R240-R242, R247-R249: GATE_EDGE, GATE_LIST_SWAP, PAUSE_RECEIVE, PFC_RECEIVE, PAUSE_EXPIRY, PAUSE_FRAME_SEND, PAUSE_STORM
and PAUSE_HOLD_EXPIRY. Readings of the model: log entries 5, 37. -/
def Obligations.GatesAndPausesComplete : Prop :=
  -- with OPER_EN = 0 every gate is open
  (∀ (p : Fin 72) (s : State), s.up .GATE p = true → s.on (.core .GATE_OPER_EN) p = false →
    exec (.gateEdge p) s = .next s) ∧
  (∀ (p : Nat) (s : State), s.on (.core .GATE_OPER_EN) p = false → ∀ t, t < 8 → (s.gateSync p).gateOpen p t = true) ∧
  -- at an edge each gate takes the state that the operating list gives for the time GATE_LEAD ahead
  (∀ (p : Fin 72) (s w : State), s.up .GATE p = true → s.on (.core .GATE_OPER_EN) p = true →
    w = s.passTo (tickAt ((s.gateEntry p (s.nowU + s.gateLead p * 65536)).2 - s.gateLead p * 65536)) →
    exec (.gateEdge p) s = .next (w.gateSync p)) ∧
  (∀ (p : Nat) (s : State), s.on (.core .GATE_OPER_EN) p = true → ∀ t, t < 8 →
    (s.gateSync p).gateOpen p t = bit t (s.operGates p (s.gateEntry p (s.nowU + s.gateLead p * 65536)).1)) ∧
  -- the new list starts at its first cycle start at or after T
  (∀ (p : Fin 72) (s w : State), s.up .GATE p = true → s.on (.core .GATE_PEND) p = true →
    w = s.passTo (tickAt (s.h .gateAt p - s.gateLead p * 65536)) → exec (.gateListSwap p) s = .next (w.gateSwap p)) ∧
  (∀ (p : Fin 72) (s : State), s.up .GATE p = true → s.on (.core .GATE_PEND) p = false →
    exec (.gateListSwap p) s = .next s) ∧
  (∀ (p t b c : Nat) (s : State), b = u96 (s.rdA (.core .GATE_BASE) p) → c = s.rdA (.core .GATE_CYCLE) p * 65536 → 0 < c →
    ∃ n, (s.gateCommit p t).h .gateAt p = b + n * c ∧ (b ≤ t → t ≤ b + n * c) ∧ (0 < n → b + n * c < t + c) ∧
      (s.gateCommit p t).rd (.core .GATE_PEND) p = 1) ∧
  -- a PAUSE of the type selected pauses the queues; another is counted and has no effect
  (∀ (p : Fin 72) (quanta : BitVec 16) (s : State), s.up .PORT p = true → s.rd (.port .CTL_FC_MODE) p = 1 →
    s.on (.port .FC_RX_EN) p = true →
    exec (.pauseReceive p quanta) s = .next ((s.pauseCount p).pauseSet p 8 quanta.toNat (queuesOf p 0xFF))) ∧
  (∀ (p : Fin 72) (quanta : BitVec 16) (s : State), s.up .PORT p = true → s.rd (.port .CTL_FC_MODE) p ≠ 1 →
    exec (.pauseReceive p quanta) s = .next ((s.pauseCount p).count (.port .CNT_PAUSE_IGN) p)) ∧
  (∀ (p : Fin 72) (times : BitVec 128) (s : State), s.up .PORT p = true → s.rd (.port .CTL_FC_MODE) p ≠ 2 →
    exec (.pfcReceive p 0 times) s = .next ((s.pauseCount p).count (.port .CNT_PAUSE_IGN) p)) ∧
  (∀ (p : Fin 72) (en : BitVec 8) (times : BitVec 128) (s : State), s.up .PORT p = true → s.rd (.port .CTL_FC_MODE) p = 2 →
    exec (.pfcReceive p en times) s = .next ((bitsOf 8 (en.toNat &&& s.rd (.port .FC_RX_PFC_EN) p)).foldl (fun x i =>
      x.pauseSet p i (pfcTime times.toNat i) (queuesOf p (bits (8 * i) 8 (x.rd (.port .PFC_MAP) p))))
      ((bitsOf 8 en.toNat).foldl (fun x i => x.bump (.port .PFC_RX) (8 * p + i)) (s.pauseCount p)))) ∧
  -- one queue takes the new time in place of the old; quanta 0 resumes it
  (∀ (p c q quanta : Nat) (s : State), s.inHold q = false →
    s.pauseSet p c quanta [q] = (s.setH .pauseEnd (9 * q + c) (if quanta = 0 then 0 else
      s.age + uTicks (bitsU (s.rate p) (512 * quanta)) + 1)).pauseSync q) ∧
  (∀ (q : Nat) (s : State), (s.pauseSync q).paused q = s.pauseRuns q) ∧
  -- the time of a class that pauses nothing, and of one that does
  (∀ (p : Fin 72) (c : Fin 9) (s : State) (qs : List Nat), s.up .PORT p = true →
    qs = (queuesOf p 0xFF).filter (fun q => s.h .pauseEnd (9 * q + c) != 0) →
    exec (.pauseExpiry p c) s = .next (qs.foldl (fun x q => (x.setH .pauseEnd (9 * q + c) 0).pauseSync q)
      (s.passAge (qs.foldl (fun m q => max m (s.h .pauseEnd (9 * q + c) - 1)) 0)))) ∧
  -- XOFF, its repetition and XON
  (∀ (p : Fin 72) (c : Fin 9) (s : State), s.up .PORT p = true → s.txPauses p c = true → s.h .xoffAt (9 * p + c) = 0 →
    exec (.pauseFrameSend p c) s = .next (if s.rd (.port .XOFF_THR) (8 * p + (if c.val = 8 then 0 else c.val)) ≤ s.heldCells p c
      then (s.ctlPut p 1 (s.pauseFrame p c (s.rd (.port .TX_QUANTA) p))).setH .xoffAt (9 * p + c) (s.age + 1) else s)) ∧
  (∀ (p : Fin 72) (c : Fin 9) (s : State), s.up .PORT p = true → s.txPauses p c = true → s.h .xoffAt (9 * p + c) ≠ 0 →
    s.heldCells p c ≤ s.rd (.port .XON_THR) (8 * p + (if c.val = 8 then 0 else c.val)) →
    exec (.pauseFrameSend p c) s = .next ((s.ctlPut p 1 (s.pauseFrame p c 0)).setH .xoffAt (9 * p + c) 0)) ∧
  (∀ (p : Fin 72) (c : Fin 9) (s : State), s.up .PORT p = true → s.txPauses p c = false →
    exec (.pauseFrameSend p c) s = .next s) ∧
  -- the watchdog trips on a paused queue, and its hold ends
  (∀ (p : Fin 72) (t : Fin 8) (s : State), s.up .PORT p = true → s.paused (8 * p + t) = true →
    s.rd (.port .PWD_LIMIT) p ≠ 0 → exec (.pauseStorm p t) s = .next (s.pwdTrip (8 * p + t))) ∧
  (∀ (p : Fin 72) (t : Fin 8) (s : State), s.up .PORT p = true →
    (s.paused (8 * p + t) = false ∨ s.rd (.port .PWD_LIMIT) p = 0) → exec (.pauseStorm p t) s = .next s) ∧
  (∀ (p : Fin 72) (t : Fin 8) (s w : State), s.up .PORT p = true → s.inHold (8 * p + t) = true →
    w = s.passAge (s.h .pwdEnd (8 * p + t)) →
    exec (.pauseHoldExpiry p t) s =
      .next (w.wr (.port .STATUS_PWD_HOLD) p (clrBit t (w.rd (.port .STATUS_PWD_HOLD) p))))

/-- R250-R252, Table 7.4: PORT_EN_WRITE, LINK_UP, LINK_DOWN, HOLDOFF_EXPIRY and FLUSH_STEP: the rows of the port's state
machine. Readings of the model: log entries 31, 84. -/
def Obligations.PortStatesComplete : Prop :=
  -- DISABLED to DOWN, and to HOLDOFF with the link up
  (∀ (r : Req) (p : Fin 72) (s : State), Reaches s r .PORT p → bit (portSlice p) (s.h .pairBad) = false →
    s.pstate p = pDISABLED → s.linkUp p = false →
    exec (.portEnWrite r p true) s = .next ((s.wr (.port .CTL_EN) p 1).wr (.port .STATUS_PSTATE) p pDOWN).ok) ∧
  (∀ (r : Req) (p : Fin 72) (s : State), Reaches s r .PORT p → bit (portSlice p) (s.h .pairBad) = false →
    s.pstate p = pDISABLED → s.linkUp p = true →
    exec (.portEnWrite r p true) s =
      .next (((s.wr (.port .CTL_EN) p 1).wr (.port .STATUS_PSTATE) p pHOLDOFF).holdStart p).ok) ∧
  -- a port of a slice with an unusable pair
  (∀ (r : Req) (p : Fin 72) (s : State), Reaches s r .PORT p → bit (portSlice p) (s.h .pairBad) = true →
    exec (.portEnWrite r p true) s = .next (s.wr (.port .CTL_CFG_REFUSED) p 1).ok) ∧
  -- EN written 0: DRAINING; in DRAINING and DISABLED only EN changes
  (∀ (r : Req) (p : Fin 72) (s : State), Reaches s r .PORT p →
    (s.pstate p = pUP ∨ s.pstate p = pHOLDOFF ∨ s.pstate p = pDOWN) →
    exec (.portEnWrite r p false) s = .next ((((s.wr (.port .CTL_EN) p 0).holdStop p).drainStart p).ok)) ∧
  (∀ (r : Req) (p : Fin 72) (s : State), Reaches s r .PORT p → (s.pstate p = pDISABLED ∨ s.pstate p = pDRAINING) →
    exec (.portEnWrite r p false) s = .next (s.wr (.port .CTL_EN) p 0).ok) ∧
  -- link up in DOWN, DRAINING and DISABLED
  (∀ (p : Fin 72) (s : State), s.up .PORT p = true → s.linkCan p = true → s.on (.lane .STATUS_LINK_UP) p = false →
    ∃ u : State, exec (.linkUp p) s = .next u ∧ u.rd (.lane .STATUS_LINK_UP) p = 1 ∧
      u.h .linkGap p = s.age - s.h .linkDownAt p ∧
      (s.pstate p = pDOWN → u.pstate p = pHOLDOFF) ∧ (s.pstate p ≠ pDOWN → u.pstate p = s.pstate p) ∧
      ((s.pstate p = pDOWN ∨ s.pstate p = pDRAINING) → u.h .holdRun p = 1 ∧ u.h .holdDone p = 0 ∧
        u.h .holdAt p = s.age + msTicks (s.rd (.port .CTL_HOLDOFF) p))) ∧
  -- link down in UP, HOLDOFF, DRAINING
  (∀ (p : Fin 72) (s : State), s.up .PORT p = true → s.on (.lane .STATUS_LINK_UP) p = true → s.pstate p = pUP →
    exec (.linkDown p false) s =
      .next ((((s.wr (.lane .STATUS_LINK_UP) p 0).holdStop p).raiseP .PORT_LINK_DOWN p).drainStart p)) ∧
  (∀ (p : Fin 72) (s : State), s.up .PORT p = true → s.on (.lane .STATUS_LINK_UP) p = true → s.pstate p = pHOLDOFF →
    exec (.linkDown p false) s = .next (((((s.wr (.lane .STATUS_LINK_UP) p 0).holdStop p).wr (.port .STATUS_PSTATE) p
      pDOWN).failRx p 3).survLinkDown p)) ∧
  (∀ (p : Fin 72) (s : State), s.up .PORT p = true → s.on (.lane .STATUS_LINK_UP) p = true → s.pstate p = pDRAINING →
    exec (.linkDown p false) s = .next ((s.wr (.lane .STATUS_LINK_UP) p 0).holdStop p)) ∧
  (∀ (p : Fin 72) (lock : Bool) (s : State), s.up .PORT p = true → s.on (.lane .STATUS_LINK_UP) p = false →
    exec (.linkDown p lock) s = .next s) ∧
  -- the hold-off timer in HOLDOFF and in DRAINING
  (∀ (p : Fin 72) (s w : State), s.up .PORT p = true → s.h .holdRun p ≠ 0 → w = s.passAge (s.h .holdAt p) →
    w.pstate p = pHOLDOFF →
    exec (.holdoffExpiry p) s =
      .next ((((w.wr (.port .STATUS_PSTATE) p pUP).holdStop p).raiseP .PORT_LINK_UP p).autoCheck p)) ∧
  (∀ (p : Fin 72) (s w : State), s.up .PORT p = true → s.h .holdRun p ≠ 0 → w = s.passAge (s.h .holdAt p) →
    w.pstate p = pDRAINING → exec (.holdoffExpiry p) s = .next ((w.setH .holdRun p 0).setH .holdDone p 1)) ∧
  -- the flush: one descriptor a cycle, of the draining ports of a slice in turn
  (∀ (sl : Fin 8) (s : State), s.domOn .core = true → s.flushPort sl = none → exec (.flushStep sl) s = .next s) ∧
  (∀ (sl : Fin 8) (s : State) (p : Nat), s.domOn .core = true → s.flushPort sl = some p →
    exec (.flushStep sl) s = .next ((s.setH .flushNext sl ((if p < 64 then p % 8 else 8) + 1)).flushOne p)) ∧
  (∀ (sl p : Nat) (s : State), s.flushPort sl = some p → s.pstate p = pDRAINING ∧ s.drained p = false) ∧
  (∀ (p t : Nat) (d : Copy) (q : List Copy) (s : State), t < 8 → s.queue (8 * p + t) = d :: q →
    (∀ u, u < t → s.queue (8 * p + u) = []) →
    s.flushOne p = (fun x : State => if x.drained p then x.drainDone p else x)
      ((s.setQueue (8 * p + t) q).drop1 d.handle)) ∧
  -- the flush is complete: DISABLED, DOWN, HOLDOFF or UP by EN, the link and the timer
  (∀ (p : Nat) (s w : State), w = s.raiseP .PORT_DRAIN_DONE p → w.h .modeWait p = 0 →
    (w.on (.port .CTL_EN) p = false → (s.drainDone p) = (w.wr (.port .STATUS_PSTATE) p pDISABLED).holdStop p) ∧
    (w.on (.port .CTL_EN) p = true → w.linkUp p = false →
      s.drainDone p = (w.wr (.port .STATUS_PSTATE) p pDOWN).holdStop p) ∧
    (w.on (.port .CTL_EN) p = true → w.linkUp p = true → w.h .holdDone p ≠ 1 →
      s.drainDone p = w.wr (.port .STATUS_PSTATE) p pHOLDOFF))

/-- R225-R228, Table 7.2, Table 7.8: the commands of the lookup store and the writes of a table descriptor: each command
runs to its end and gives the code of its row. Readings of the model: log entries 27, 28, 77. -/
def Obligations.LookupCommandsComplete : Prop :=
  (∀ (r : Req) (i : Fin 2) (tbl : Fin 64) (vis : Fin 4) (s : State), Reaches s r .LKPCMD i →
    exec (.lkpNop r i tbl vis) s = .next (s.lkGo i 0 tbl vis).ok ∧
    exec (.lkpInsert r i tbl vis) s = .next (s.lkGo i 1 tbl vis).ok ∧
    exec (.lkpDelete r i tbl vis) s = .next (s.lkGo i 2 tbl vis).ok ∧
    exec (.lkpModify r i tbl vis) s = .next (s.lkGo i 3 tbl vis).ok ∧
    exec (.lkpReadKey r i tbl vis) s = .next (s.lkGo i 4 tbl vis).ok ∧
    exec (.lkpReadIndex r i tbl vis) s = .next (s.lkGo i 5 tbl vis).ok ∧
    exec (.lkpWriteIndex r i tbl vis) s = .next (s.lkGo i 6 tbl vis).ok ∧
    exec (.lkpClearHit r i tbl vis) s = .next (s.lkGo i 7 tbl vis).ok) ∧
  -- a command's code and HIT stand in STATUS, whatever its OP
  (∀ (i op tbl vis : Nat) (s v w : State) (o : LkOut),
    v = ((s.wr (.core .LKP_OP) i op).wr (.core .LKP_TBL) i tbl).wr (.core .LKP_VIS) i vis →
    (if i = 0 then v.setH .snapStale 0 1 else v).lkRun op (s.ifCmd i tbl vis) = (o, w) →
    s.lkGo i op tbl vis =
      (((w.wr (.core .LKP_STATUS_CODE) i o.code).wr (.core .LKP_STATUS_HIT) i o.hit.toNat).ifReturn i op o)) ∧
  -- a table that is off
  (∀ (op : Nat) (c : LkCmd) (s : State), op < 8 → s.tblKind c.tbl = 0 → (s.lkRun op c).1.code = lkBADTABLE ∧
    (s.lkRun op c).2 = s) ∧
  -- INSERT of a key that is there, DELETE, MODIFY and READ_KEY of one that is not
  (∀ (c : LkCmd) (i : Nat) (e : LkEntry) (s : State), s.tblKind c.tbl = 1 →
    s.findKey c.tbl (trunc (s.rd (.core .TBL_KEY_BITS) c.tbl) c.key) = some (i, e) →
    s.lkRun 1 c = ({ code := lkEXISTS, index := i }, s) ∧
    s.lkRun 2 c = ({ code := lkOK, index := i }, s.setEntry c.tbl i {}) ∧
    s.lkRun 3 c = ({ code := lkOK, index := i },
      s.setEntry c.tbl i { e with data := trunc (s.tblDataBits c.tbl) c.data, vis := c.vis }) ∧
    s.lkRun 4 c = ({ code := lkOK, hit := e.hit, index := i, ent := some e }, s)) ∧
  (∀ (c : LkCmd) (s : State), s.tblKind c.tbl = 1 →
    s.findKey c.tbl (trunc (s.rd (.core .TBL_KEY_BITS) c.tbl) c.key) = none →
    s.lkRun 2 c = ({ code := lkABSENT }, s) ∧ s.lkRun 3 c = ({ code := lkABSENT }, s) ∧
    s.lkRun 4 c = ({ code := lkABSENT }, s)) ∧
  -- INSERT of a new key into a free candidate slot, and FULL
  (∀ (c : LkCmd) (i key : Nat) (e : LkEntry) (s : State), s.tblKind c.tbl = 1 → s.tblCap c.tbl ≠ 0 →
    key = trunc (s.rd (.core .TBL_KEY_BITS) c.tbl) c.key → s.findKey c.tbl key = none →
    (s.slots c.tbl key).find? (fun k => !(s.entry c.tbl k).valid) = some i →
    e = { valid := true, key := key, data := trunc (s.tblDataBits c.tbl) c.data, vis := c.vis } →
    (s.lkRun 1 c).1.code = lkOK ∧ (s.lkRun 1 c).2 = s.setEntry c.tbl i e) ∧
  (∀ (c : LkCmd) (s : State), s.tblKind c.tbl = 1 → (s.lkRun 1 c).1.code = lkFULL →
    (s.lkRun 1 c).2 = s.raise .CORE_LKP_FULL locLookup 0) ∧
  -- the commands by INDEX
  (∀ (c : LkCmd) (s : State), s.tblKind c.tbl ≠ 0 → c.index < s.tblCap c.tbl →
    s.lkRun 5 c = (⟨lkOK, (s.entry c.tbl c.index).hit, c.index, some (s.entry c.tbl c.index)⟩, s) ∧
    s.lkRun 7 c = ({ code := lkOK, hit := (s.entry c.tbl c.index).hit, index := c.index },
      s.setEntry c.tbl c.index { s.entry c.tbl c.index with hit := false })) ∧
  (∀ (c : LkCmd) (s : State), s.tblKind c.tbl = 2 → s.tblCap c.tbl ≤ c.index →
    (s.lkRun 5 c).1.code = lkBADINDEX ∧ (s.lkRun 6 c).1.code = lkBADINDEX ∧ (s.lkRun 7 c).1.code = lkBADINDEX) ∧
  -- a ternary entry matches in its unmasked bits, with VIS bit b set (R227, R228)
  (∀ (t b key i : Nat) (e : LkEntry) (s : State), s.lookFind t 1 b key = some (i, e) →
    bit b e.vis = true ∧ ((key ^^^ e.key) &&& e.mask) = 0) ∧
  -- a table descriptor: words of a table that is off
  (∀ (r : Req) (t : Fin 64) (w : BitVec 32) (s : State), Reaches s r .LKPTBL t → s.tblKind t = 0 → bits 0 16 w.toNat < 768 →
    exec (.lkpTblWrite r t true w) s =
      .next ((s.wr (.core .TBL_BASE) t (bits 0 16 w.toNat)).wr (.core .TBL_SIZE) t (bits 16 16 w.toNat)).ok) ∧
  (∀ (r : Req) (t : Fin 64) (w : BitVec 32) (s : State), Reaches s r .LKPTBL t → s.tblKind t ≠ 0 →
    exec (.lkpTblWrite r t true w) s = .next s.coreRefused.ok) ∧
  (∀ (r : Req) (t : Fin 64) (w : BitVec 32) (s : State), Reaches s r .LKPTBL t → s.tblKind t = 0 →
    bits 0 2 w.toNat = 2 → 2 ≤ bits 2 3 w.toNat → bits 15 9 w.toNat ≤ 256 → 1 ≤ bits 5 10 w.toNat →
    bits 5 10 w.toNat ≤ 640 → s.tblFits t 2 = true →
    exec (.lkpTblWrite r t false w) s = .next (((((s.wr (.core .TBL_KIND) t 2).wr (.core .TBL_STAGE) t
      (bits 2 3 w.toNat)).wr (.core .TBL_KEY_BITS) t (bits 5 10 w.toNat)).wr (.core .TBL_DATA_BITS) t
      (bits 15 9 w.toNat)).ok)) ∧
  (∀ (r : Req) (t : Fin 64) (w : BitVec 32) (s : State), Reaches s r .LKPTBL t → bits 0 2 w.toNat = 3 →
    exec (.lkpTblWrite r t false w) s = .next s.coreRefused.ok)

/-- R256, R264-R271: POOL_REQUEST, BUFFER_REF, BUFFER_DEREF, POOL_THAW. Readings of the model: log entry 75. -/
def Obligations.PoolCommandsComplete : Prop :=
  -- one request alone, to a pool that grants it: from reserve, or from the shared part below MAX
  (∀ (fp : Fin 8) (fe : Fin 16) (e : Fin 16) (p : Fin 4) (fb : Bool) (i : Nat) (s : State), s.domOn .core = true →
    s.poolGrants p = true → (s.inReserve (72 + e) p = true ∨ s.inShare (72 + e) p = true) → s.findFree p = some i →
    exec (.poolRequest fp fe [⟨.eng e, p, fb⟩]) s =
      .next ((s.take (72 + e) p i).setH .poolCmd (72 + e) (mkHandle p i + 2))) ∧
  -- denied, and not tried elsewhere: counted for the owner and the pool
  (∀ (fp : Fin 8) (fe : Fin 16) (e : Fin 16) (p : Fin 4) (s : State), s.domOn .core = true →
    s.inReserve (72 + e) p = false → s.inShare (72 + e) p = false →
    exec (.poolRequest fp fe [⟨.eng e, p, false⟩]) s =
      .next ((s.count (.pool .OWN_DENY) (ownIdx (72 + e) p)).setH .poolCmd (72 + e) 1)) ∧
  -- denied in pool 1 with FALLBACK, granted in pool 2
  (∀ (fp : Fin 8) (fe : Fin 16) (e : Fin 16) (i : Nat) (s w : State), s.domOn .core = true →
    s.inReserve (72 + e) 1 = false → s.inShare (72 + e) 1 = false → w = s.count (.pool .OWN_DENY) (ownIdx (72 + e) 1) →
    w.poolGrants 2 = true → (w.inReserve (72 + e) 2 = true ∨ w.inShare (72 + e) 2 = true) → w.findFree 2 = some i →
    exec (.poolRequest fp fe [⟨.eng e, 1, true⟩]) s =
      .next ((w.take (72 + e) 2 i).setH .poolCmd (72 + e) (mkHandle 2 i + 2))) ∧
  -- a grant sets the count to 1, charges the owner and moves the cursor past the buffer
  (∀ (o p i : Nat) (s : State), o < 90 → p < 4 → i < 2 ^ 30 → s.rd (.pool .OWN_USE) (ownIdx o p) + 1 < 2 ^ 30 →
    (s.take o p i).buf (mkHandle p i) = { held := true, owner := o, refs := 1, head := mkHandle p i } ∧
    (s.take o p i).rd (.pool .OWN_USE) (ownIdx o p) = s.rd (.pool .OWN_USE) (ownIdx o p) + 1 ∧
    (s.take o p i).h .poolCursor p = (i + 1) % s.poolRange p ∧
    (∀ h, h ≠ mkHandle p i → (s.take o p i).buf h = s.buf h)) ∧
  -- nothing is granted before the pools open
  (∀ (o p : Nat) (s : State), s.on (.pool .CTL_OPEN) 0 = false →
    s.grant o p = (none, s.count (.pool .OWN_DENY) (ownIdx o p))) ∧
  -- REF
  (∀ (w : PoolWho) (h : BitVec 32) (k : Fin 256) (s : State) (b : Buf), s.domOn .core = true → 1 ≤ k.val →
    s.handleOk h.toNat = true → s.buf h.toNat = b → b.frozen = false → b.held = true → b.refs + k.val ≤ 255 →
    exec (.bufferRef w h k) s = .next (s.setBuf h.toNat { b with refs := b.refs + k.val })) ∧
  (∀ (w : PoolWho) (h : BitVec 32) (k : Fin 256) (s : State), s.domOn .core = true → 1 ≤ k.val →
    s.handleOk h.toNat = true → (s.buf h.toNat).frozen = false → (s.buf h.toNat).held = true →
    255 < (s.buf h.toNat).refs + k.val →
    exec (.bufferRef w h k) s = .next (s.count (.pool .STAT_REF_OVER) (hPool h.toNat))) ∧
  -- DEREF to a count above zero, to zero, and below zero or on a free buffer
  (∀ (w : PoolWho) (h : BitVec 32) (k : Fin 256) (s : State) (b : Buf), s.domOn .core = true → 1 ≤ k.val →
    s.handleOk h.toNat = true → s.buf h.toNat = b → b.frozen = false → b.held = true → k.val < b.refs →
    exec (.bufferDeref w h k) s = .next (s.setBuf h.toNat { b with refs := b.refs - k.val })) ∧
  (∀ (w : PoolWho) (h : BitVec 32) (k : Fin 256) (s : State), s.domOn .core = true → 1 ≤ k.val →
    s.handleOk h.toNat = true → (s.buf h.toNat).frozen = false → (s.buf h.toNat).held = true →
    (s.buf h.toNat).refs = k.val → exec (.bufferDeref w h k) s = .next (s.freeBuf h.toNat)) ∧
  (∀ (w : PoolWho) (h : BitVec 32) (k : Fin 256) (s : State), s.domOn .core = true → 1 ≤ k.val →
    s.handleOk h.toNat = true → (s.buf h.toNat).frozen = false →
    ((s.buf h.toNat).held = false ∨ (s.buf h.toNat).refs < k.val) →
    exec (.bufferDeref w h k) s = .next (s.freeze h.toNat (whoOwner w))) ∧
  -- an invalid handle, and a frozen buffer: refused and counted
  (∀ (w : PoolWho) (h : BitVec 32) (k : Fin 256) (s : State), s.domOn .core = true → 1 ≤ k.val →
    s.handleOk h.toNat = false →
    exec (.bufferRef w h k) s = .next (s.count (.pool .STAT_BAD_HANDLE) (hPool h.toNat)) ∧
    exec (.bufferDeref w h k) s = .next (s.count (.pool .STAT_BAD_HANDLE) (hPool h.toNat))) ∧
  (∀ (w : PoolWho) (h : BitVec 32) (k : Fin 256) (s : State), s.domOn .core = true → 1 ≤ k.val →
    s.handleOk h.toNat = true → (s.buf h.toNat).frozen = true →
    exec (.bufferRef w h k) s = .next (s.count (.pool .STAT_FROZEN_OP) (hPool h.toNat)) ∧
    exec (.bufferDeref w h k) s = .next (s.count (.pool .STAT_FROZEN_OP) (hPool h.toNat))) ∧
  -- what is freed has no count and no owner, its chain with it
  (∀ (h : Nat) (s : State), ∀ k ∈ (s.buf h).cells h, (s.freeBuf h).buf k = {}) ∧
  -- what is frozen keeps its count, and POOL_FROZEN names it
  (∀ (h q : Nat) (s : State), h < 2 ^ 32 → ((s.freeze h q).buf h).frozen = true ∧ ((s.freeze h q).buf h).held = false ∧
    ((s.freeze h q).buf h).refs = (s.buf h).refs ∧ (s.freeze h q).rd (.pool .FROZEN_HANDLE) 0 = h) ∧
  -- THAW
  (∀ (r : Req) (h : BitVec 32) (s : State), Reaches s r .POOL 0 → s.handleOk h.toNat = true →
    (s.buf h.toNat).frozen = true →
    exec (.poolThaw r h) s = .next ((((s.buf (s.buf h.toNat).head).cells (s.buf h.toNat).head).foldl
      (fun x k => x.setBuf k {}) s).sharedCheck (hPool h.toNat)).ok) ∧
  (∀ (r : Req) (h : BitVec 32) (s : State), Reaches s r .POOL 0 → (s.buf h.toNat).frozen = false →
    exec (.poolThaw r h) s = .next (s.wr (.pool .CTL_CFG_REFUSED) 0 1).ok)

/-- R261, R272-R277: POOL_OPEN_WRITE, SPILL_EN_WRITE, SPILL, REFILL, STACK_FAIL, STACK_MARK and WIPE_DONE. Readings of the
model: log entries 20, 22. -/
def Obligations.CellarCommandsComplete : Prop :=
  -- OPEN
  (∀ (r : Req) (s : State), Reaches s r .POOL 0 →
    exec (.poolOpenWrite r false) s = .next (s.wr (.pool .CTL_OPEN) 0 0).ok ∧
    (s.on (.pool .CTL_OPEN) 0 = false → s.openOk = true →
      exec (.poolOpenWrite r true) s = .next (s.wr (.pool .CTL_OPEN) 0 1).ok) ∧
    (s.on (.pool .CTL_OPEN) 0 = false → s.openOk = false →
      exec (.poolOpenWrite r true) s = .next (s.wr (.pool .CTL_CFG_REFUSED) 0 1).ok)) ∧
  (∀ s : State, 2 ^ 34 < s.rd (.cel .CTL_ENG_SIZE) 0 * 2 ^ 30 + s.rd (.pool .CFG_C3) 0 * 131072 +
    s.rd (.pool .CFG_C2) 0 * 16384 + s.rd (.pool .CFG_C1) 0 * 2048 → s.openOk = false) ∧
  -- SPILL_EN
  (∀ (r : Req) (s : State), Reaches s r .POOL 0 → s.on (.pool .CTL_SPILL_EN) 0 = false → s.readyStacks ≠ [] →
    (∀ p, 1 ≤ p → p ≤ 3 → s.sumRsv p ≤ s.poolTotal p) →
    exec (.spillEnWrite r true) s = .next (s.wr (.pool .CTL_SPILL_EN) 0 1).ok) ∧
  (∀ (r : Req) (s : State), Reaches s r .POOL 0 → s.on (.pool .CTL_SPILL_EN) 0 = false →
    (s.readyStacks = [] ∨ ∃ p, 1 ≤ p ∧ p ≤ 3 ∧ s.poolTotal p < s.sumRsv p) →
    exec (.spillEnWrite r true) s = .next (s.wr (.pool .CTL_CFG_REFUSED) 0 1).ok) ∧
  (∀ (r : Req) (s : State), Reaches s r .POOL 0 →
    exec (.spillEnWrite r false) s = .next (s.wr (.pool .CTL_SPILL_EN) 0 0).ok) ∧
  -- the address of a buffer (R260)
  (∀ (p i n : Nat) (s : State), 1 ≤ p → p ≤ 3 → n = s.variant.nStacks →
    s.cellarAddr p i = i % n * 2 ^ 34 + s.rd (.cel .CTL_ENG_SIZE) 0 * 2 ^ 30 +
      (if p = 3 then 0 else if p = 2 then s.rd (.pool .CFG_C3) 0 * 131072
        else s.rd (.pool .CFG_C3) 0 * 131072 + s.rd (.pool .CFG_C2) 0 * 16384) + i / n * poolSize p) ∧
  -- the mover spills the oldest copy that waits
  (∀ (p : Fin 72) (t : Fin 8) (s : State), s.up .PORT p = true →
    (s.queue (8 * p + t)).find? (fun d => d.spill) = none → exec (.spill p t) s = .next s) ∧
  (∀ (p : Fin 72) (t : Fin 8) (s w : State) (d : Copy) (h : Nat), s.up .PORT p = true →
    (s.queue (8 * p + t)).find? (fun d => d.spill) = some d → d.done = true →
    s.grantFb (s.buf d.handle).owner (if d.len ≤ 2048 then 1 else 2) true = (some h, w) →
    ∃ v : State, v = (w.setFrameBytes h 0 (w.copyBytes d)) ∧
      exec (.spill p t) s = .next (((v.setBuf h { v.buf h with len := d.len }).setQueue (8 * p + t)
        (updFirst (fun e => e.spill) (fun e => some { e with handle := h, md := mdHANDLE.put h e.md, spill := false })
          (v.queue (8 * p + t)))).drop1 d.handle)) ∧
  (∀ (p : Fin 72) (t : Fin 8) (s w : State) (d : Copy), s.up .PORT p = true →
    (s.queue (8 * p + t)).find? (fun d => d.spill) = some d → d.done = true →
    s.grantFb (s.buf d.handle).owner (if d.len ≤ 2048 then 1 else 2) true = (none, w) →
    exec (.spill p t) s = .next (w.spillDenied (8 * p + t) d)) ∧
  -- a refill: enough in the Granary part; a frame of a stack that is gone; a denial waits
  (∀ (p : Fin 72) (t : Fin 8) (s : State), s.up .PORT p = true →
    s.rd (.pool .SPILL_REFILL_THR) (8 * p + t) ≤ granDepth (s.queue (8 * p + t)) → exec (.refill p t) s = .next s) ∧
  (∀ (p : Fin 72) (t : Fin 8) (k : Nat) (s : State) (d : Copy), s.up .PORT p = true → k = 8 * p + t →
    granDepth (s.queue k) < s.rd (.pool .SPILL_REFILL_THR) k → (s.queue k).find? (fun d => d.cel) = some d →
    d.spill = false → s.usable (hPool d.handle) (hIdx d.handle) = false →
    exec (.refill p t) s = .next (((s.setQueue k (updFirst (fun e => e.cel) (fun _ => none) (s.queue k))).count
      (.pool .SPILL_LOST) k).drop1 d.handle)) ∧
  (∀ (p : Fin 72) (t : Fin 8) (k : Nat) (s w : State) (d : Copy), s.up .PORT p = true → k = 8 * p + t →
    granDepth (s.queue k) < s.rd (.pool .SPILL_REFILL_THR) k → (s.queue k).find? (fun d => d.cel) = some d →
    d.spill = false → s.usable (hPool d.handle) (hIdx d.handle) = true →
    s.grantChain (s.buf d.handle).owner d.nCells [] = (none, w) →
    exec (.refill p t) s = .next (w.count (.pool .SPILL_REFILL_WAIT) k)) ∧
  (∀ (p : Fin 72) (t : Fin 8) (k : Nat) (s w : State) (d : Copy) (h : Nat) (hs : List Nat), s.up .PORT p = true →
    k = 8 * p + t → granDepth (s.queue k) < s.rd (.pool .SPILL_REFILL_THR) k →
    (s.queue k).find? (fun d => d.cel) = some d → d.spill = false → s.usable (hPool d.handle) (hIdx d.handle) = true →
    s.grantChain (s.buf d.handle).owner d.nCells [] = (some (h :: hs), w) →
    ∃ v : State, v = (fun x : State => x.setFrameBytes h 0 (x.copyBytes d)) (w.joinChain 1 (mdPFC_PRI.get d.md) (h :: hs)) ∧
      exec (.refill p t) s = .next (((v.setBuf h { v.buf h with len := d.len }).setQueue k
        (updFirst (fun e => e.cel) (fun e => some { e with handle := h, md := mdHANDLE.put h e.md, cel := false })
          (v.queue k))).drop1 d.handle)) ∧
  -- a stack fails once: unusable, a lasting entry, CEL.STACK_FAIL, spilling off
  (∀ (k : Fin 4) (c : StackCause) (s : State), s.up .STACK k = true →
    ∃ u : State, exec (.stackFail k c) s = .next u ∧ (s.rd (.cel .STACK_STATE) k = 4 → u = s) ∧
      (s.rd (.cel .STACK_STATE) k ≠ 4 → u.rd (.cel .STACK_STATE) k = 4 ∧ u.on (.pool .CTL_SPILL_EN) 0 = false ∧
        u.stackReady k = false)) ∧
  (∀ (r : Req) (k : Fin 4) (s : State), Reaches s r .STACK k →
    exec (.stackMark r k) s = .next ((s.wr (.cel .STACK_MARK) k 1).stackFail k 4).ok) ∧
  -- a wipe ends: every byte of the memory reads 0, its buffers are free, the stack ready
  (∀ s : State, s.domOn .core = true → s.h .granWipe = 1 →
    ∃ u : State, exec (.wipeDone none) s = .next u ∧ u.h .granWipe = 0 ∧ (∀ a, a < 393216 * 256 → u.byte .granary a = 0) ∧
      (∀ i, i < 2 ^ 30 → u.buf (mkHandle 0 i) = {}) ∧
      ((∀ k, k < 4 → s.rd (.cel .STACK_STATE) k ≠ 2) → u.rd (.pool .CTL_WIPE_DONE) 0 = 1)) ∧
  (∀ s : State, s.domOn .core = true → s.h .granWipe ≠ 1 → exec (.wipeDone none) s = .next s) ∧
  (∀ (k : Fin 4) (s : State), s.domOn .cellar = true → s.rd (.cel .STACK_STATE) k = 2 →
    ∃ u : State, exec (.wipeDone (some k)) s = .next u ∧
      (∀ a, k.val * 2 ^ 34 ≤ a → a < (k.val + 1) * 2 ^ 34 → u.byte .cellar a = 0) ∧
      u.rd (.cel .STACK_STATE) k = (if s.on (.cel .STACK_MARK) k || bit k (s.h .stackBad) then 4 else 3))

/-- R283, R289, R299-R304, R307, Table 9.6: THREAD_START, THREAD_STOP, THREAD_RESUME, THREAD_CLEAR, STOP_ALL,
ENG_CINV_WRITE, CINV_DONE, ENG_MARK, ENG_FRESET, PANTRY_WIPE_DONE, ASYNC_STORE_FAIL, HATCH_PUT and ENGINE_QUEUE_OFFER.
Readings of the model: log entries 39, 77, 78. -/
def Obligations.EngineCommandsComplete : Prop :=
  -- START: from IDLE, at TPC and the level of TCTL.PRIV; refused in any other state, and to a host in FIELD and SEALED
  (∀ (r : Req) (e : Fin 16) (t : Fin 8) (s : State), Reaches s r .ENG e → s.tstate e t = tIDLE →
    (isHost r = false ∨ (s.lc ≠ 2 ∧ s.lc ≠ 3)) → s.on (.eng .CTL_UNUSABLE) e = false →
    ∃ u : State, exec (.threadStart r e t) s = .next u ∧ u.tstate e t = tRUNNING ∧
      u.tr (thrIdx e t) rLEVEL = s.rd (.eng .THR_TCTL_PRIV) (thrIdx e t) ∧ u.intrap (.eng e t) = false ∧
      u.pc (.eng e t) = s.rd (.eng .THR_TPC_PC) (thrIdx e t)) ∧
  (∀ (r : Req) (e : Fin 16) (t : Fin 8) (s : State), Reaches s r .ENG e →
    (s.tstate e t ≠ tIDLE ∨ (isHost r = true ∧ (s.lc = 2 ∨ s.lc = 3))) →
    exec (.threadStart r e t) s = .next (s.wr (.eng .THR_TCTL_REFUSED) (thrIdx e t) 1).ok) ∧
  -- STOP: RUNNING, WAITING, another state
  (∀ (r : Req) (e : Fin 16) (t : Fin 8) (s : State), Reaches s r .ENG e → s.tstate e t = tRUNNING →
    exec (.threadStop r e t) s = .next (s.setTstate e t tSTOPPED).ok) ∧
  (∀ (r : Req) (e : Fin 16) (t : Fin 8) (s : State), Reaches s r .ENG e → s.tstate e t = tWAITING →
    exec (.threadStop r e t) s = .next ((s.setTr (thrIdx e t) rWAIT 0).setTstate e t tSTOPPED).ok) ∧
  (∀ (r : Req) (e : Fin 16) (t : Fin 8) (s : State), Reaches s r .ENG e → s.tstate e t ≠ tRUNNING →
    s.tstate e t ≠ tWAITING →
    exec (.threadStop r e t) s = .next (s.wr (.eng .THR_TCTL_REFUSED) (thrIdx e t) 1).ok) ∧
  -- RESUME
  (∀ (r : Req) (e : Fin 16) (t : Fin 8) (s : State), Reaches s r .ENG e → s.tstate e t = tSTOPPED →
    exec (.threadResume r e t) s = .next ((s.setTstate e t tRUNNING).setTr (thrIdx e t) rPCHI 0).ok) ∧
  (∀ (r : Req) (e : Fin 16) (t : Fin 8) (s : State), Reaches s r .ENG e → s.tstate e t ≠ tSTOPPED →
    exec (.threadResume r e t) s = .next (s.wr (.eng .THR_TCTL_REFUSED) (thrIdx e t) 1).ok) ∧
  -- CLEAR: IDLE with every register 0, from IDLE, STOPPED and HALTED
  (∀ (r : Req) (e : Fin 16) (t : Fin 8) (s : State), Reaches s r .ENG e → s.tstate e t ≠ tRUNNING →
    s.tstate e t ≠ tWAITING →
    ∃ u : State, exec (.threadClear r e t) s = .next u ∧ u.tstate e t = tIDLE ∧ u.pc (.eng e t) = 0 ∧
      (∀ n, u.tr (thrIdx e t) n = 0) ∧ (∀ c n, c ≠ thrIdx e t → u.tr c n = s.tr c n)) ∧
  (∀ (r : Req) (e : Fin 16) (t : Fin 8) (s : State), Reaches s r .ENG e →
    (s.tstate e t = tRUNNING ∨ s.tstate e t = tWAITING) →
    exec (.threadClear r e t) s = .next (s.wr (.eng .THR_TCTL_REFUSED) (thrIdx e t) 1).ok) ∧
  (∀ (r : Req) (e : Fin 16) (s : State), Reaches s r .ENG e false →
    exec (.stopAll r e) s = .next ((List.range 8).foldl (fun x t => x.thrStop e t) s).ok) ∧
  -- the cache: every line is gone when the invalidation completes
  (∀ (r : Req) (e : Fin 16) (s : State), Reaches s r .ENG e false →
    exec (.engCinvWrite r e) s = .next (s.wr (.eng .CTL_CINV_BUSY) e 1).ok) ∧
  (∀ (e : Fin 16) (s : State), s.up .ENG e = true → s.on (.eng .CTL_CINV_BUSY) e = true →
    exec (.cinvDone e) s = .next ((s.cacheClear e).wr (.eng .CTL_CINV_BUSY) e 0) ∧
    (∀ l, (s.cacheClear e).cacheGet e l = none)) ∧
  (∀ (e : Fin 16) (s : State), s.up .ENG e = true → s.on (.eng .CTL_CINV_BUSY) e = false →
    exec (.cinvDone e) s = .next s) ∧
  -- an engine marked unusable: every thread HALTED with TCAUSE = UNUSABLE, its queues empty; a second mark does nothing
  (∀ (r : Req) (e : Fin 16) (s : State), Reaches s r .ENG e false → s.on (.eng .CTL_UNUSABLE) e = false →
    ∃ u : State, exec (.engMark r e) s = .next u ∧ u.on (.eng .CTL_UNUSABLE) e = true ∧ u.on (.eng .CTL_MARK) e = true ∧
      (∀ t, t < 8 → u.tstate e t = tHALTED ∧ u.rd (.eng .THR_TCAUSE_CAUSE) (thrIdx e t) = cUNUSABLE) ∧
      (∀ q, q < 64 → u.eq (64 * e + q) = []) ∧ (∀ q d, (u.eqOffer e q d).1 = false)) ∧
  (∀ (r : Req) (e : Fin 16) (s : State), Reaches s r .ENG e false → s.on (.eng .CTL_UNUSABLE) e = true →
    exec (.engMark r e) s = .next (s.wr (.eng .CTL_MARK) e 1).ok) ∧
  -- the function reset: threads IDLE and cleared, queues, hatches and cache empty, fields of code F at reset, the wipe
  (∀ (r : Req) (e : Fin 16) (s : State), Reaches s r .ENG e false →
    ∃ u : State, exec (.engFreset r e) s = .next u ∧ u.on (.eng .CTL_WIPING) e = true ∧
      u.h .pwipeAt e = u.age + usTicks 50 ∧
      (∀ t, t < 8 → u.tstate e t = tIDLE ∧ ∀ n, u.tr (thrIdx e t) n = 0) ∧ (∀ q, q < 64 → u.eq (64 * e + q) = []) ∧
      (∀ h, h < 16 → u.hatch (16 * e + h) = []) ∧ (∀ l, u.cacheGet e l = none) ∧ u.rd (.eng .CTL_CLK_EN) e = 0 ∧
      u.rd (.eng .TVEC) e = 0) ∧
  (∀ (e : Fin 16) (s w : State), s.domOn .engine = true → s.on (.eng .CTL_WIPING) e = true →
    w = s.passAge (s.h .pwipeAt e) →
    exec (.pantryWipeDone e) s = .next ((w.pantryWipe e).wr (.eng .CTL_WIPING) e 0) ∧
    (∀ a, a < 0x400000 → (w.pantryWipe e).byte .pantry (e * 0x400000 + a) = 0)) ∧
  -- a posted store that fails: the first is kept for the boundary, the others counted
  (∀ (e : Fin 16) (t : Fin 8) (a : BitVec 48) (s : State), s.up .ENG e = true → s.tr (thrIdx e t) rASYNC = 0 →
    exec (.asyncStoreFail e t a) s = .next (s.setTr (thrIdx e t) rASYNC (a.toNat + 1))) ∧
  (∀ (e : Fin 16) (t : Fin 8) (a : BitVec 48) (s : State), s.up .ENG e = true → s.tr (thrIdx e t) rASYNC ≠ 0 →
    exec (.asyncStoreFail e t a) s = .next (s.count (.eng .ECC_UE) e)) ∧
  -- a hatch takes a message of the Reeve or a host where SEND has its bit, and 16 messages at most
  (∀ (r : Req) (e h : Fin 16) (v : BitVec 64) (k : Nat) (s : State), Reaches s r .ENG e → k = 16 * e + h →
    (r = .reeve ∨ isHost r = true) → bit (if r = .reeve then 16 else 17) (s.rd (.eng .HATCH_SEND) k) = true →
    (s.hatch k).length < 16 →
    exec (.hatchPut r e h v) s = .next ((s.setHatch k (s.hatch k ++ [v.toNat])).hatchWake e h).ok) ∧
  (∀ (r : Req) (e h : Fin 16) (v : BitVec 64) (k : Nat) (s : State), Reaches s r .ENG e → k = 16 * e + h →
    (r = .reeve ∨ isHost r = true) → bit (if r = .reeve then 16 else 17) (s.rd (.eng .HATCH_SEND) k) = true →
    16 ≤ (s.hatch k).length →
    exec (.hatchPut r e h v) s = .next ((s.count (.eng .HATCH_FULL_CNT) k).wr (.eng .HATCH_HREFUSED) k 1).ok) ∧
  (∀ (r : Req) (e h : Fin 16) (v : BitVec 64) (k : Nat) (s : State), Reaches s r .ENG e → k = 16 * e + h →
    (r = .reeve ∨ isHost r = true) → bit (if r = .reeve then 16 else 17) (s.rd (.eng .HATCH_SEND) k) = false →
    exec (.hatchPut r e h v) s = .next (s.wr (.eng .HATCH_HREFUSED) k 1).ok) ∧
  -- an input queue takes a copy, or refuses it, counts it and gives its reference back
  (∀ (e : Fin 16) (q : Fin 64) (h : BitVec 32) (md : BitVec 512) (k : Nat) (s : State), s.domOn .core = true →
    s.engTakes e = true → k = 64 * e + q → mdDKIND.get md.toNat ≠ 3 → (s.eq k).length < s.rd (.eng .EQ_MAX) k →
    s.eqStore e < 4096 →
    exec (.engineQueueOffer e q h md) s = .next ((s.setEq k (s.eq k ++
      [({ handle := h.toNat, md := mdHANDLE.put h.toNat md.toNat } : Copy)])).eqWake e q)) ∧
  (∀ (e : Fin 16) (q : Fin 64) (h : BitVec 32) (md : BitVec 512) (k : Nat) (s : State), s.domOn .core = true →
    k = 64 * e + q → (s.engTakes e = false ∨ (mdDKIND.get md.toNat ≠ 3 ∧
      (s.rd (.eng .EQ_MAX) k ≤ (s.eq k).length ∨ 4096 ≤ s.eqStore e))) →
    exec (.engineQueueOffer e q h md) s = .next ((s.count (.eng .EQ_DROP) k).drop1 h.toNat))

/-- R301, R305-R307, R348-R351, R353: TWAIT, TWAIT_FIRE, WAIT_DEADLINE, TEMIT, EMIT_RELEASE, PALLOC, PDEREF, PREF, QENQ,
QDEQ, HPUT, HGET and CINV, each issued by a thread with its predicate 1 and legal fields. Readings of the model: log entries
25, 26, 45, 76. -/
def Obligations.EngineInstructionsComplete : Prop :=
  -- twait: a time reached goes on with 0; else the thread waits, and ones follow at the time
  (∀ (x : Issue) (i : RIns) (s : State), Issues s x i.pred → isTz x.core = true → i.d.val < 8 → i.a.val < 4 → i.b.val = 0 →
    s.timeReached (s.t x.core i.a) = true →
    exec (.twait x i) s = .next (s.finish x.core (.next, s.setP x.core i.d 0))) ∧
  (∀ (x : Issue) (i : RIns) (s : State), Issues s x i.pred → isTz x.core = true → i.d.val < 8 → i.a.val < 4 → i.b.val = 0 →
    s.timeReached (s.t x.core i.a) = false →
    exec (.twait x i) s = .next ((((s.setTr (coreNo x.core) rWAIT wTWAIT).setTr (coreNo x.core) rWP i.d).setTr (coreNo x.core)
      rDEADLINE (s.t x.core i.a + 1)).setCst x.core tWAITING)) ∧
  (∀ (c : Core) (s w : State), s.coreUp c = true → s.cst c = tWAITING → s.tr (coreNo c) rWAIT = wTWAIT →
    w = s.passBell (s.tr (coreNo c) rDEADLINE - 1) →
    exec (.twaitFire c) s = .next ((w.setP c (w.tr (coreNo c) rWP) ones64).waitEnd c)) ∧
  (∀ (c : Core) (s : State), (s.cst c ≠ tWAITING ∨ s.tr (coreNo c) rWAIT ≠ wTWAIT) → exec (.twaitFire c) s = .next s) ∧
  -- the deadline of a qdeq or hget: 0xFFFFFFFF and 0
  (∀ (e : Fin 16) (t : Fin 8) (c : Core) (s w : State), c = .eng e t → s.up .ENG e = true → s.cst c = tWAITING →
    s.tr (coreNo c) rDEADLINE ≠ 0 → (s.tr (coreNo c) rWAIT = wQDEQ ∨ s.tr (coreNo c) rWAIT = wHGET) →
    w = s.passBell (s.tr (coreNo c) rDEADLINE - 1) →
    exec (.waitDeadline e t) s =
      .next (((w.setP c (w.tr (coreNo c) rWP) 0).setG c (w.tr (coreNo c) rWD) 0xFFFFFFFF).waitEnd c)) ∧
  (∀ (e : Fin 16) (t : Fin 8) (s : State), (s.tstate e t ≠ tWAITING ∨ s.tr (thrIdx e t) rDEADLINE = 0) →
    exec (.waitDeadline e t) s = .next s) ∧
  -- a completed wait: RUNNING at the next instruction
  (∀ (e : Fin 16) (t : Fin 8) (s : State), s.pc (.eng e t) + 4 < 2 ^ 48 →
    (s.waitEnd (.eng e t)).tstate e t = tRUNNING ∧ (s.waitEnd (.eng e t)).pc (.eng e t) = s.pc (.eng e t) + 4 ∧
    (s.waitEnd (.eng e t)).tr (thrIdx e t) rWAIT = 0) ∧
  -- temit: kept in order of time and then of issue, or refused; a metadata access that may not be made traps
  (∀ (x : Issue) (f : Fin 128) (i : RIns) (md h len : Nat) (s w : State), Issues s x i.pred → isEng x.core = true →
    i.d.val < 8 → f.val < 4 → s.mdExc x.core (s.g x.core i.b) false = none → md = s.mdAt x.core (s.g x.core i.b) →
    h = s.g x.core i.a % 2 ^ 32 → kindOk (mdDKIND.get md) = true → s.heldHandle h = true →
    (s.emits.filter (fun y => y.eng == engOf x.core)).length < 64 → s.frameLen h = (len, w) →
    exec (.temit x f i) s = .next (s.finish x.core (.next, { w with
      emits := emitIn ⟨engOf x.core, w.t x.core f, h, injMd md h len 1 (engOf x.core)⟩ w.emits }.setP x.core i.d ones64))) ∧
  (∀ (x : Issue) (f : Fin 128) (i : RIns) (s : State), Issues s x i.pred → isEng x.core = true → i.d.val < 8 → f.val < 4 →
    s.mdExc x.core (s.g x.core i.b) false = none →
    (kindOk (mdDKIND.get (s.mdAt x.core (s.g x.core i.b))) = false ∨ s.heldHandle (s.g x.core i.a % 2 ^ 32) = false ∨
      64 ≤ (s.emits.filter (fun y => y.eng == engOf x.core)).length) →
    exec (.temit x f i) s = .next (s.finish x.core (.next, s.setP x.core i.d 0))) ∧
  (∀ (x : Issue) (f : Fin 128) (i : RIns) (k v : Nat) (s : State), Issues s x i.pred → isEng x.core = true → i.d.val < 8 →
    f.val < 4 → s.mdExc x.core (s.g x.core i.b) false = some (k, v) →
    exec (.temit x f i) s = .next (s.finish x.core (.exc k v, s))) ∧
  (∀ (y : Emit) (l : List Emit), (emitIn y l).Perm (y :: l)) ∧
  (∀ (e : Fin 16) (s : State) (y : Emit), s.up .ENG e = true → s.emits.find? (fun z => z.eng == e.val) = some y →
    exec (.emitRelease e) s = .next ((fun w : State => { w with emits := w.emits.erase y }.offerOrDrop
      { handle := y.handle, md := y.md }) (s.passBell y.time))) ∧
  (∀ (e : Fin 16) (s : State), s.emits.find? (fun z => z.eng == e.val) = none → exec (.emitRelease e) s = .next s) ∧
  -- palloc, pderef, pref
  (∀ (x : Issue) (f : Fin 128) (i : RIns) (h : Nat) (s w : State), Issues s x i.pred → isEng x.core = true → f.val < 8 →
    i.a.val = 0 → i.b.val < 8 → s.grantFb (72 + engOf x.core) (f % 4) (bit 2 f) = (some h, w) →
    exec (.palloc x f i) s = .next (s.finish x.core (.next, (w.setG x.core i.d h).setP x.core i.b ones64))) ∧
  (∀ (x : Issue) (f : Fin 128) (i : RIns) (s w : State), Issues s x i.pred → isEng x.core = true → f.val < 8 →
    i.a.val = 0 → i.b.val < 8 → s.grantFb (72 + engOf x.core) (f % 4) (bit 2 f) = (none, w) →
    exec (.palloc x f i) s = .next (s.finish x.core (.next, (w.setG x.core i.d 0xFFFFFFFF).setP x.core i.b 0))) ∧
  (∀ (x : Issue) (i : RIns) (b : Bool) (s w : State), Issues s x i.pred → isEng x.core = true → i.d.val < 8 →
    s.deref (s.g x.core i.a) (s.g x.core i.b % 256) (72 + engOf x.core) = (b, w) →
    exec (.pderef x i) s = .next (s.finish x.core (.next, w.setP x.core i.d (if b then ones64 else 0)))) ∧
  (∀ (x : Issue) (i : RIns) (b : Bool) (s w : State), Issues s x i.pred → isEng x.core = true → i.d.val < 8 →
    s.ref (s.g x.core i.a) (s.g x.core i.b % 256) (72 + engOf x.core) = (b, w) →
    exec (.pref x i) s = .next (s.finish x.core (.next, w.setP x.core i.d (if b then ones64 else 0)))) ∧
  -- qenq: the copy is offered with HANDLE, LEN, IN_PORT, INJ, SRC_ENG and TS_ABSENT overwritten
  (∀ (x : Issue) (i : RIns) (md h len : Nat) (b : Bool) (s v w : State), Issues s x i.pred → isEng x.core = true →
    i.d.val < 8 → s.mdExc x.core (s.g x.core i.b) false = none → md = s.mdAt x.core (s.g x.core i.b) →
    h = s.g x.core i.a % 2 ^ 32 → kindOk (mdDKIND.get md) = true → s.heldHandle h = true → s.frameLen h = (len, v) →
    v.offerMd { handle := h, md := injMd md h len 1 (engOf x.core) } = (b, w) →
    exec (.qenq x i) s = .next (s.finish x.core (.next, w.setP x.core i.d (if b then ones64 else 0)))) ∧
  (∀ (x : Issue) (i : RIns) (s : State), Issues s x i.pred → isEng x.core = true → i.d.val < 8 →
    s.mdExc x.core (s.g x.core i.b) false = none → (kindOk (mdDKIND.get (s.mdAt x.core (s.g x.core i.b))) = false ∨
      s.heldHandle (s.g x.core i.a % 2 ^ 32) = false) →
    exec (.qenq x i) s = .next (s.finish x.core (.next, s.setP x.core i.d 0))) ∧
  -- qdeq: the head of the lowest-numbered queue; nothing with the deadline past; else the thread waits
  (∀ (x : Issue) (f : Fin 128) (i : RIns) (q : Nat) (s : State), Issues s x i.pred → isEng x.core = true → f.val < 64 →
    s.mdExc x.core (s.g x.core i.a) true = none → s.eqPick (engOf x.core) (s.g x.core i.b) = some q →
    exec (.qdeq x f i) s =
      .next (s.finish x.core (.next, s.qdeqPut x.core q i.d (bits 3 3 f) (s.g x.core i.a)))) ∧
  (∀ (x : Issue) (f : Fin 128) (i : RIns) (s : State), Issues s x i.pred → isEng x.core = true → f.val < 64 →
    s.mdExc x.core (s.g x.core i.a) true = none → s.eqPick (engOf x.core) (s.g x.core i.b) = none →
    (s.g x.core i.b = 0 ∨ s.deadlinePast x.core f = true) →
    exec (.qdeq x f i) s =
      .next (s.finish x.core (.next, (s.setG x.core i.d 0xFFFFFFFF).setP x.core (bits 3 3 f) 0))) ∧
  (∀ (x : Issue) (f : Fin 128) (i : RIns) (s : State), Issues s x i.pred → isEng x.core = true → f.val < 64 →
    s.mdExc x.core (s.g x.core i.a) true = none → s.eqPick (engOf x.core) (s.g x.core i.b) = none →
    s.g x.core i.b ≠ 0 → s.deadlinePast x.core f = false →
    exec (.qdeq x f i) s = .next ((((s.waitBegin x.core wQDEQ i.d f).setTr (coreNo x.core) rWMASK (s.g x.core i.b)).setTr
      (coreNo x.core) rWADDR (s.g x.core i.a)).setCst x.core tWAITING)) ∧
  (∀ (c : Core) (q d p a : Nat) (s : State) (y : Copy) (l : List Copy), s.eq (64 * engOf c + q) = y :: l →
    s.qdeqPut c q d p a = ((((s.setEq (64 * engOf c + q) l).wrMem .pantry (engOf c * 0x400000 + a) 64
      (mdHANDLE.put y.handle y.md)).setG c d y.handle).setP c p ones64)) ∧
  -- hput: an engine that is not there, a sender that may not send, a full hatch, a put
  (∀ (x : Issue) (i : RIns) (e : Nat) (s : State), Issues s x i.pred → isEng x.core = true → i.d.val < 8 →
    e = s.g x.core i.a % 16 → (s.variant.hasEngine e = false ∨ s.on (.eng .CTL_UNUSABLE) e = true) →
    exec (.hput x i) s = .next (s.finish x.core (.exc cSTORE (s.g x.core i.a), s))) ∧
  (∀ (x : Issue) (i : RIns) (e h : Nat) (s : State), Issues s x i.pred → isEng x.core = true → i.d.val < 8 →
    e = s.g x.core i.a % 16 → h = bits 4 4 (s.g x.core i.a) → s.variant.hasEngine e = true →
    s.on (.eng .CTL_UNUSABLE) e = false → (bit (engOf x.core) (s.rd (.eng .HATCH_SEND) (16 * e + h)) = false ∨
      (s.privP x.core = false ∧ s.on (.eng .HATCH_U_SEND) (16 * e + h) = false)) →
    exec (.hput x i) s = .next (s.finish x.core (.exc cPROT (s.g x.core i.a), s))) ∧
  (∀ (x : Issue) (i : RIns) (e h : Nat) (b : Bool) (s w : State), Issues s x i.pred → isEng x.core = true → i.d.val < 8 →
    e = s.g x.core i.a % 16 → h = bits 4 4 (s.g x.core i.a) → s.variant.hasEngine e = true →
    s.on (.eng .CTL_UNUSABLE) e = false → bit (engOf x.core) (s.rd (.eng .HATCH_SEND) (16 * e + h)) = true →
    (s.privP x.core = true ∨ s.on (.eng .HATCH_U_SEND) (16 * e + h) = true) →
    s.hatchPut e h (s.g x.core i.b) = (b, w) →
    exec (.hput x i) s = .next (s.finish x.core (.next, w.setP x.core i.d (if b then ones64 else 0)))) ∧
  (∀ (e h v : Nat) (s : State), 16 ≤ (s.hatch (16 * e + h)).length →
    s.hatchPut e h v = (false, s.count (.eng .HATCH_FULL_CNT) (16 * e + h))) ∧
  -- hget: the oldest message; the deadline past; else the thread waits
  (∀ (x : Issue) (f : Fin 128) (i : RIns) (k v : Nat) (l : List Nat) (s : State), Issues s x i.pred → isEng x.core = true →
    f.val < 64 → i.b.val < 16 → i.a.val = 0 → k = 16 * engOf x.core + i.b → s.hatch k = v :: l →
    exec (.hget x f i) s =
      .next (s.finish x.core (.next, ((s.setHatch k l).setG x.core i.d v).setP x.core (bits 3 3 f) ones64))) ∧
  (∀ (x : Issue) (f : Fin 128) (i : RIns) (s : State), Issues s x i.pred → isEng x.core = true → f.val < 64 →
    i.b.val < 16 → i.a.val = 0 → s.hatch (16 * engOf x.core + i.b) = [] → s.deadlinePast x.core f = true →
    exec (.hget x f i) s =
      .next (s.finish x.core (.next, (s.setG x.core i.d 0xFFFFFFFF).setP x.core (bits 3 3 f) 0))) ∧
  (∀ (x : Issue) (f : Fin 128) (i : RIns) (s : State), Issues s x i.pred → isEng x.core = true → f.val < 64 →
    i.b.val < 16 → i.a.val = 0 → s.hatch (16 * engOf x.core + i.b) = [] → s.deadlinePast x.core f = false →
    exec (.hget x f i) s =
      .next (((s.waitBegin x.core wHGET i.d f).setTr (coreNo x.core) rWMASK i.b).setCst x.core tWAITING)) ∧
  -- cinv completes with the invalidation
  (∀ (e : Fin 16) (t : Fin 8) (fu : Bool) (i : RIns) (s : State), Issues s ⟨.eng e t, fu⟩ i.pred → i.d.val = 0 →
    i.a.val = 0 → i.b.val = 0 →
    exec (.cinv ⟨.eng e t, fu⟩ i) s = .next (s.finish (.eng e t) (.next, s.cacheClear e)))

/-- R285, R297-R299, R300, R322: what ends an instruction on an engine thread, on the Reeve and in a stage cell: the next pc
and the count, the entry of a trap, HALTED, and in a stage cell PROG_FAULT. Readings of the model: log entries 76, 78. -/
def Obligations.InstructionEndings : Prop :=
  -- a core that cannot issue does nothing; a predicate that reads 0 lets nothing happen but the step to the next instruction
  (∀ (x : Issue) (k w : Nat) (l : Bool) (f : State → Sig × State) (s : State), s.canIssue x.core = false →
    s.issue x k w l f = s) ∧
  (∀ (x : Issue) (k w : Nat) (l : Bool) (f : State → Sig × State) (s : State), s.canIssue x.core = true →
    s.preTrap x = none → s.p x.core k % 2 = 0 → s.issue x k w l f = s.finish x.core (.next, s)) ∧
  -- a word that breaks its rules raises ILLEGAL with the word as its value
  (∀ (x : Issue) (k w : Nat) (f : State → Sig × State) (s : State), Issues s x k →
    s.issue x k w false f = s.finish x.core (.exc cILLEGAL w, s)) ∧
  -- an engine thread: pc + 4, one more retired; a jump; a wait; a trap
  (∀ (e : Fin 16) (t : Fin 8) (s u : State), s.pc (.eng e t) + 4 < 2 ^ 48 →
    (s.finish (.eng e t) (.next, u)).pc (.eng e t) = s.pc (.eng e t) + 4 ∧
    (s.finish (.eng e t) (.next, u)).tr (thrIdx e t) rINSTRET = (u.tr (thrIdx e t) rINSTRET + 1) % 2 ^ 64 ∧
    (∀ n, n ≠ rINSTRET → n ≠ rPCHI → (s.finish (.eng e t) (.next, u)).tr (thrIdx e t) n = u.tr (thrIdx e t) n) ∧
    (∀ r a, (s.finish (.eng e t) (.next, u)).byte r a = u.byte r a)) ∧
  (∀ (c : Core) (a : Nat) (s u : State), isTz c = true → a < 2 ^ 64 → (s.finish c (.jump a, u)).pc c = a) ∧
  (∀ (c : Core) (s u : State), s.finish c (.wait, u) = u.setCst c tWAITING) ∧
  (∀ (c : Core) (k v : Nat) (s u : State), isTz c = true → s.finish c (.exc k v, u) = u.trap c k v) ∧
  (∀ (c : Fin 96) (eg : Bool) (k v : Nat) (s u : State),
    s.finish (.cell c eg) (.exc k v, u) = u.count (.core .PAIR_CNT_PROG_FAULT) (cellPair c) ∧
    s.finish (.cell c eg) (.next, u) = u) ∧
  -- the entry of a trap (R298)
  (∀ (e : Fin 16) (t : Fin 8) (k v : Nat) (s : State), s.intrap (.eng e t) = false → s.rd (.eng .TVEC) e ≠ 0 →
    s.rd (.eng .TVEC) e < 2 ^ 48 → s.pc (.eng e t) < 2 ^ 48 → k < 2 ^ 8 → v < 2 ^ 64 →
    ∃ u : State, s.trap (.eng e t) k v = u ∧ u.rd (.eng .THR_TEPC_EPC) (thrIdx e t) = s.pc (.eng e t) ∧
      u.rd (.eng .THR_TCAUSE_CAUSE) (thrIdx e t) = k ∧ u.rd (.eng .THR_TVAL_VAL) (thrIdx e t) = v ∧
      u.tr (thrIdx e t) rPPRV = (s.privP (.eng e t)).toNat ∧ u.intrap (.eng e t) = true ∧ u.privP (.eng e t) = true ∧
      u.pc (.eng e t) = s.rd (.eng .TVEC) e ∧ u.tstate e t = s.tstate e t) ∧
  -- with INTRAP = 1 or TVEC = 0 the thread is HALTED and ENG.THREAD_FAULT raised
  (∀ (e : Fin 16) (t : Fin 8) (k v : Nat) (s : State), (s.intrap (.eng e t) = true ∨ s.rd (.eng .TVEC) e = 0) →
    s.trap (.eng e t) k v = ((s.recordTrap (.eng e t) k (s.pc (.eng e t)) v).setTstate e t tHALTED).raise .ENG_THREAD_FAULT
      (locEngine e) t) ∧
  -- before an instruction: an ASYNC that waits, a fetch that is not allowed, a fetch error
  (∀ (e : Fin 16) (t : Fin 8) (fu : Bool) (a : Nat) (s : State), s.tr (thrIdx e t) rASYNC = a + 1 →
    s.preTrap ⟨.eng e t, fu⟩ = some ((s.setTr (thrIdx e t) rASYNC 0).trap (.eng e t) cASYNC a)) ∧
  (∀ (e : Fin 16) (t : Fin 8) (fu : Bool) (s : State), s.tr (thrIdx e t) rASYNC = 0 →
    (0x400000 ≤ s.pc (.eng e t) ∨ (s.privP (.eng e t) = false ∧
      s.on (.eng .PATTR_U_X) (1024 * e + s.pc (.eng e t) / 4096) = false)) →
    s.preTrap ⟨.eng e t, fu⟩ = some (s.trap (.eng e t) cFETCH (s.pc (.eng e t)))) ∧
  (∀ (e : Fin 16) (t : Fin 8) (s : State), s.tr (thrIdx e t) rASYNC = 0 → s.fetchOk (.eng e t) = true →
    s.preTrap ⟨.eng e t, true⟩ = some (s.trap (.eng e t) cFETCH_UE (s.pc (.eng e t))) ∧
    s.preTrap ⟨.eng e t, false⟩ = none) ∧
  -- g0 and p0 (R284)
  (∀ (c : Core) (v : Nat) (s : State), s.g c 0 = 0 ∧ s.p c 0 = 2 ^ 64 - 1 ∧ s.setG c 0 v = s ∧ s.setP c 0 v = s) ∧
  (∀ (c : Core) (n v : Nat) (s : State), n ≠ 0 → (s.setG c n v).g c n = v % 2 ^ 64 ∧ (s.setP c n v).p c n = v % 2 ^ 64)

/-- R325-R327, Tables 10.1 and 10.2: the integer, immediate, compare, predicate and bit-field instructions. Readings of the
model: log entry 76. -/
def Obligations.IntegerInstructionsComplete : Prop :=
  (∀ (x : Issue) (i : RIns) (a b : Nat) (s : State), Issues s x i.pred → gOk x.core i.d = true → gOk x.core i.a = true →
    gOk x.core i.b = true → a = s.g x.core i.a → b = s.g x.core i.b →
    exec (.add x i) s = .next (s.finish x.core (.next, s.setG x.core i.d (a + b))) ∧
    exec (.sub x i) s = .next (s.finish x.core (.next, s.setG x.core i.d (u64 ((a : Int) - b)))) ∧
    exec (.tzAnd x i) s = .next (s.finish x.core (.next, s.setG x.core i.d (a &&& b))) ∧
    exec (.or x i) s = .next (s.finish x.core (.next, s.setG x.core i.d (a ||| b))) ∧
    exec (.xor x i) s = .next (s.finish x.core (.next, s.setG x.core i.d (a ^^^ b))) ∧
    exec (.shl x i) s = .next (s.finish x.core (.next, s.setG x.core i.d (a * 2 ^ (b % 64)))) ∧
    exec (.shr x i) s = .next (s.finish x.core (.next, s.setG x.core i.d (a / 2 ^ (b % 64)))) ∧
    exec (.sar x i) s = .next (s.finish x.core (.next, s.setG x.core i.d (u64 (s64 a / (2 ^ (b % 64) : Nat))))) ∧
    exec (.mul x i) s = .next (s.finish x.core (.next, s.setG x.core i.d (a * b))) ∧
    exec (.min x i) s = .next (s.finish x.core (.next, s.setG x.core i.d (if s64 a ≤ s64 b then a else b))) ∧
    exec (.max x i) s = .next (s.finish x.core (.next, s.setG x.core i.d (if s64 a ≤ s64 b then b else a))) ∧
    exec (.minu x i) s = .next (s.finish x.core (.next, s.setG x.core i.d (min a b))) ∧
    exec (.maxu x i) s = .next (s.finish x.core (.next, s.setG x.core i.d (max a b)))) ∧
  -- mulh, div and rem, on the cores that run threads
  (∀ (x : Issue) (i : RIns) (a b : Nat) (s : State), Issues s x i.pred → isTz x.core = true → a = s.g x.core i.a →
    b = s.g x.core i.b →
    exec (.mulh x i) s = .next (s.finish x.core (.next, s.setG x.core i.d (u64 (s64 a * s64 b / (2 ^ 64 : Nat))))) ∧
    (b = 0 → exec (.div x i) s = .next (s.finish x.core (.next, s.setG x.core i.d ones64)) ∧
      exec (.rem x i) s = .next (s.finish x.core (.next, s.setG x.core i.d a))) ∧
    (a = 2 ^ 63 → b = 2 ^ 64 - 1 → exec (.div x i) s = .next (s.finish x.core (.next, s.setG x.core i.d (2 ^ 63))) ∧
      exec (.rem x i) s = .next (s.finish x.core (.next, s.setG x.core i.d 0))) ∧
    (b ≠ 0 → exec (.div x i) s = .next (s.finish x.core (.next, s.setG x.core i.d (u64 ((s64 a).tdiv (s64 b))))) ∧
      exec (.rem x i) s = .next (s.finish x.core (.next, s.setG x.core i.d (u64 ((s64 a).tmod (s64 b))))))) ∧
  (∀ (x : Issue) (i : RIns) (s : State), Issues s x i.pred → isTz x.core = false →
    exec (.div x i) s = .next (s.finish x.core (.exc cILLEGAL (encR 0x00 0x0A i), s))) ∧
  -- immediates: 12 bits, signed
  (∀ (x : Issue) (i : IIns) (a m : Nat) (s : State), Issues s x i.pred → gOk x.core i.d = true → gOk x.core i.a = true →
    a = s.g x.core i.a → m = u64 (toS 12 i.imm.toNat) →
    exec (.addi x i) s = .next (s.finish x.core (.next, s.setG x.core i.d (a + m))) ∧
    exec (.andi x i) s = .next (s.finish x.core (.next, s.setG x.core i.d (a &&& m))) ∧
    exec (.ori x i) s = .next (s.finish x.core (.next, s.setG x.core i.d (a ||| m))) ∧
    exec (.xori x i) s = .next (s.finish x.core (.next, s.setG x.core i.d (a ^^^ m)))) ∧
  -- shifts by imm[5:0]; imm[11:8] other than 0 is ILLEGAL
  (∀ (x : Issue) (i : IIns) (a n : Nat) (s : State), Issues s x i.pred → gOk x.core i.d = true → gOk x.core i.a = true →
    bits 8 4 i.imm.toNat = 0 → a = s.g x.core i.a → n = bits 0 6 i.imm.toNat →
    exec (.shli x i) s = .next (s.finish x.core (.next, s.setG x.core i.d (a * 2 ^ n))) ∧
    exec (.shri x i) s = .next (s.finish x.core (.next, s.setG x.core i.d (a / 2 ^ n))) ∧
    exec (.sari x i) s = .next (s.finish x.core (.next, s.setG x.core i.d (u64 (s64 a / (2 ^ n : Nat)))))) ∧
  (∀ (x : Issue) (i : IIns) (s : State), Issues s x i.pred → bits 8 4 i.imm.toNat ≠ 0 →
    ∃ w, exec (.shli x i) s = .next (s.finish x.core (.exc cILLEGAL w, s))) ∧
  (∀ (x : Issue) (i : JIns) (s : State), Issues s x 0 → gOk x.core i.d = true →
    exec (.lui x i) s =
      .next (s.finish x.core (.next, s.setG x.core i.d (u64 (toS 32 (i.imm.toNat * 4096)))))) ∧
  -- compares: codes 0-5; 6 and 7 are ILLEGAL
  (∀ (x : Issue) (f : Fin 128) (i : RIns) (a b : Nat) (s : State), Issues s x i.pred → i.d.val < 8 →
    gOk x.core i.a = true → gOk x.core i.b = true → a = s.g x.core i.a → b = s.g x.core i.b → f.val < 6 →
    exec (.cmp x f i) s = .next (s.finish x.core (.next, s.setP x.core i.d (if (match f.val with
      | 0 => decide (a = b) | 1 => decide (a ≠ b) | 2 => decide (s64 a < s64 b) | 3 => decide (a < b)
      | 4 => decide (s64 b ≤ s64 a) | _ => decide (b ≤ a)) then ones64 else 0)))) ∧
  (∀ (x : Issue) (i : IIns) (s : State), Issues s x i.pred → i.d.val < 8 → gOk x.core i.a = true →
    bits 9 3 i.imm.toNat < 6 →
    exec (.cmpi x i) s = .next (s.finish x.core (.next, s.setP x.core i.d (allIf (Sys2Proof.Machine.cond (bits 9 3 i.imm.toNat)
      (s.g x.core i.a) (u64 (toS 9 i.imm.toNat))))))) ∧
  (∀ (x : Issue) (i : IIns) (s : State), Issues s x i.pred → 6 ≤ bits 9 3 i.imm.toNat →
    exec (.cmpi x i) s = .next (s.finish x.core (.exc cILLEGAL (encI 0x08 i), s))) ∧
  -- predicates
  (∀ (x : Issue) (i : RIns) (a b : Nat) (s : State), Issues s x i.pred → i.d.val < 8 → i.a.val < 8 → i.b.val < 8 →
    a = s.p x.core i.a → b = s.p x.core i.b →
    exec (.pand x i) s = .next (s.finish x.core (.next, s.setP x.core i.d (a &&& b))) ∧
    exec (.por x i) s = .next (s.finish x.core (.next, s.setP x.core i.d (a ||| b))) ∧
    exec (.pxor x i) s = .next (s.finish x.core (.next, s.setP x.core i.d (a ^^^ b))) ∧
    exec (.pandn x i) s = .next (s.finish x.core (.next, s.setP x.core i.d (andNot a b)))) ∧
  (∀ (x : Issue) (i : RIns) (s : State), Issues s x i.pred → i.b.val = 0 → i.d.val < 8 → i.a.val < 8 →
    exec (.pmov x 0 i) s = .next (s.finish x.core (.next, s.setP x.core i.d (s.p x.core i.a))) ∧
    exec (.pmov x 1 i) s = .next (s.finish x.core (.next, s.setP x.core i.d (s.g x.core i.a))) ∧
    exec (.pmov x 2 i) s = .next (s.finish x.core (.next, s.setG x.core i.d (s.p x.core i.a)))) ∧
  -- bit fields: pos + len at most 64, else ILLEGAL
  (∀ (x : Issue) (i : IIns) (pos len : Nat) (s : State), Issues s x i.pred → gOk x.core i.d = true →
    gOk x.core i.a = true → pos = bits 0 6 i.imm.toNat → len = bits 6 5 i.imm.toNat + 1 → pos + len ≤ 64 →
    exec (.bfx x i) s = .next (s.finish x.core (.next, s.setG x.core i.d (s.g x.core i.a / 2 ^ pos % 2 ^ len))) ∧
    exec (.bfi x i) s =
      .next (s.finish x.core (.next, s.setG x.core i.d (putBits pos len (s.g x.core i.a) (s.g x.core i.d))))) ∧
  (∀ (x : Issue) (i : IIns) (s : State), Issues s x i.pred → 64 < bits 0 6 i.imm.toNat + bits 6 5 i.imm.toNat + 1 →
    ∃ w, exec (.bfx x i) s = .next (s.finish x.core (.exc cILLEGAL w, s)))

/-- R313, R328, R346, R347, R352-R354: the branch, time, event and system instructions. Readings of the model: log entries
26, 76. -/
def Obligations.ControlInstructionsComplete : Prop :=
  -- br and brn: pc-relative where a is 0, else relative to g[a]; the link; a target that is not aligned; not taken
  (∀ (x : Issue) (i : IIns) (base tgt : Nat) (s : State), Issues s x 0 → isTz x.core = true →
    base = (if i.a = 0 then s.pc x.core else s.g x.core i.a) → tgt = u64 ((base : Int) + 4 * toS 12 i.imm.toNat) →
    tgt % 4 = 0 →
    (s.p x.core i.pred % 2 = 1 →
      exec (.br x i) s = .next (s.finish x.core (.jump tgt, s.setG x.core i.d (s.pc x.core + 4)))) ∧
    (s.p x.core i.pred % 2 = 0 → i.pred ≠ 0 →
      exec (.brn x i) s = .next (s.finish x.core (.jump tgt, s.setG x.core i.d (s.pc x.core + 4))))) ∧
  (∀ (x : Issue) (i : IIns) (base tgt : Nat) (s : State), Issues s x 0 → isTz x.core = true →
    base = (if i.a = 0 then s.pc x.core else s.g x.core i.a) → tgt = u64 ((base : Int) + 4 * toS 12 i.imm.toNat) →
    tgt % 4 ≠ 0 → s.p x.core i.pred % 2 = 1 →
    exec (.br x i) s = .next (s.finish x.core (.exc cMISALIGN tgt, s))) ∧
  (∀ (x : Issue) (i : IIns) (s : State), Issues s x 0 → isTz x.core = true →
    (s.p x.core i.pred % 2 = 0 → exec (.br x i) s = .next (s.finish x.core (.next, s))) ∧
    (s.p x.core i.pred % 2 = 1 → i.pred ≠ 0 → exec (.brn x i) s = .next (s.finish x.core (.next, s))) ∧
    (i.pred = 0 → exec (.brn x i) s = .next (s.finish x.core (.exc cILLEGAL (encI 0x11 i), s)))) ∧
  (∀ (x : Issue) (i : JIns) (tgt : Nat) (s : State), Issues s x 0 → isTz x.core = true →
    tgt = u64 ((s.pc x.core : Int) + 4 * toS 20 i.imm.toNat) → tgt % 4 = 0 →
    exec (.jal x i) s = .next (s.finish x.core (.jump tgt, s.setG x.core i.d (s.pc x.core + 4)))) ∧
  (∀ (x : Issue) (i : IIns) (n : Nat) (s : State), Issues s x i.pred → isTz x.core = true → i.a = 0 → i.d = 0 →
    n = i.imm.toNat → 1 ≤ n → n ≤ 2047 →
    exec (.skip x i) s = .next (s.finish x.core (.jump (s.pc x.core + 4 * (n + 1)), s))) ∧
  (∀ (x : Issue) (i : IIns) (s : State), Issues s x i.pred → (i.imm.toNat = 0 ∨ 2048 ≤ i.imm.toNat) →
    exec (.skip x i) s = .next (s.finish x.core (.exc cILLEGAL (encI 0x13 i), s))) ∧
  -- time
  (∀ (x : Issue) (i : RIns) (s : State), Issues s x i.pred → tNumOk x.core i.d = true → i.a = 0 → i.b = 0 →
    exec (.tnow x i) s = .next (s.finish x.core (.next, s.setT x.core i.d s.bellNow))) ∧
  (∀ (x : Issue) (f : Fin 128) (i : RIns) (a b : Nat) (s : State), Issues s x i.pred → i.d.val < 8 →
    tNumOk x.core i.a = true → tNumOk x.core i.b = true → f.val < 4 → a = s.t x.core i.a → b = s.t x.core i.b →
    exec (.tcmp x f i) s = .next (s.finish x.core (.next, s.setP x.core i.d (if (match f.val with
      | 0 => decide (a = b) | 1 => decide (a ≠ b) | 2 => decide (a < b) | _ => decide (a ≤ b)) then ones64 else 0)))) ∧
  (∀ (x : Issue) (i : RIns) (s : State), Issues s x i.pred → tNumOk x.core i.d = true → tNumOk x.core i.a = true →
    gOk x.core i.b = true →
    exec (.tadd x i) s = .next (s.finish x.core (.next, s.setT x.core i.d
      (normTime ((u96 (s.t x.core i.a) : Int) + s64 (s.g x.core i.b)))))) ∧
  (∀ u : Int, normTime u = of96 (if u < 0 then 0 else if uMax < u then uMax else u.toNat)) ∧
  (∀ (x : Issue) (i : RIns) (d : Int) (s : State), Issues s x i.pred → gOk x.core i.d = true → tNumOk x.core i.a = true →
    tNumOk x.core i.b = true → d = (u96 (s.t x.core i.a) : Int) - u96 (s.t x.core i.b) →
    exec (.tsub x i) s = .next (s.finish x.core (.next, s.setG x.core i.d
      (u64 (if d < -(2 ^ 63) then -(2 ^ 63) else if 2 ^ 63 - 1 < d then 2 ^ 63 - 1 else d))))) ∧
  (∀ (x : Issue) (i : RIns) (s : State), Issues s x i.pred → tNumOk x.core i.d = true → tNumOk x.core i.a = true →
    exec (.tmov x i) s = .next (s.finish x.core (.next, s.setT x.core i.d (s.t x.core i.a)))) ∧
  (∀ (x : Issue) (i : RIns) (s : State), Issues s x i.pred → gOk x.core i.d = true → tNumOk x.core i.a = true →
    exec (.tmovLo x i) s = .next (s.finish x.core (.next, s.setG x.core i.d (bits 0 64 (s.t x.core i.a)))) ∧
    exec (.tmovHi x i) s = .next (s.finish x.core (.next, s.setG x.core i.d (bits 64 32 (s.t x.core i.a))))) ∧
  (∀ (x : Issue) (i : RIns) (s : State), Issues s x i.pred → tNumOk x.core i.d = true → gOk x.core i.a = true →
    gOk x.core i.b = true →
    exec (.tmovSet x i) s = .next (s.finish x.core (.next, s.setT x.core i.d
      (normTime (u96 (s.g x.core i.b % 2 ^ 32 * 2 ^ 64 + s.g x.core i.a)))))) ∧
  -- system: trap, tret, fence, yield, halt, bkpt
  (∀ (x : Issue) (i : RIns) (s : State), Issues s x i.pred → isTz x.core = true → i.d = 0 →
    exec (.trap x i) s = .next (s.trap x.core cTRAP (i.b * 32 + i.a))) ∧
  (∀ (x : Issue) (i : RIns) (s : State), Issues s x i.pred → isTz x.core = true → i.a = 0 → i.b = 0 → i.d = 0 →
    exec (.fence x i) s = .next (s.finish x.core (.next, s)) ∧
    exec (.halt x i) s = .next (s.finish x.core (.halt, s)) ∧
    exec (.bkpt x i) s = .next (s.trap x.core cBKPT (s.pc x.core)) ∧
    (s.intrap x.core = true → s.privP x.core = true →
      exec (.tret x i) s = .next (s.finish x.core (.jump (s.epc x.core),
        (s.setTr (coreNo x.core) rLEVEL (s.tr (coreNo x.core) rPPRV)).setIntrap x.core 0))) ∧
    (s.intrap x.core = false → exec (.tret x i) s = .next (s.trap x.core cILLEGAL (encR 0x70 1 i))) ∧
    (s.intrap x.core = true → s.privP x.core = false →
      exec (.tret x i) s = .next (s.trap x.core cPRIV (encR 0x70 1 i)))) ∧
  (∀ (e : Fin 16) (t : Fin 8) (fu : Bool) (i : RIns) (s : State), Issues s ⟨.eng e t, fu⟩ i.pred → i.a = 0 → i.b = 0 →
    i.d = 0 →
    exec (.yield ⟨.eng e t, fu⟩ i) s = .next (s.finish (.eng e t) (.next, s.setH .lastInRotation e (t + 1)))) ∧
  (∀ (e : Fin 16) (t : Fin 8) (s u : State), s.pc (.eng e t) + 4 < 2 ^ 48 →
    (s.finish (.eng e t) (.halt, u)).tstate e t = tIDLE ∧
    (s.finish (.eng e t) (.halt, u)).rd (.eng .THR_TPC_PC) (thrIdx e t) = s.pc (.eng e t) + 4) ∧
  -- csrr and csrw: an unlisted number, at U, and at P; a read-only number ignores a write
  (∀ (x : Issue) (i : IIns) (n : Nat) (s : State), Issues s x i.pred → isTz x.core = true → i.a = 0 → n = csrNo i →
    csrListed n = true → (s.privP x.core = true ∨ n = 0) → n ≠ 0x10 →
    exec (.csrr x i) s = .next (s.finish x.core (.next, s.setG x.core i.d (s.csr x.core n)))) ∧
  (∀ (x : Issue) (i : IIns) (s : State), Issues s x i.pred → isTz x.core = true → i.a = 0 → csrNo i = 0x10 →
    s.privP x.core = true →
    exec (.csrr x i) s = .next (s.finish x.core (.next, s.nextFree.setG x.core i.d (s.freeVal 64)))) ∧
  (∀ (x : Issue) (i : IIns) (s : State), Issues s x i.pred → csrListed (csrNo i) = false →
    ∃ w, exec (.csrr x i) s = .next (s.finish x.core (.exc cILLEGAL w, s))) ∧
  (∀ (x : Issue) (i : IIns) (s : State), Issues s x i.pred → isTz x.core = true → i.d = 0 → csrListed (csrNo i) = true →
    s.privP x.core = true →
    exec (.csrw x i) s = .next (s.finish x.core (.next, s.setCsr x.core (csrNo i) (s.g x.core i.a)))) ∧
  (∀ (x : Issue) (i : IIns) (s : State), Issues s x i.pred → isTz x.core = true → i.d = 0 → csrListed (csrNo i) = true →
    s.privP x.core = false →
    ∃ w, exec (.csrw x i) s = .next (s.trap x.core cPRIV w)) ∧
  (∀ (c : Core) (n v : Nat) (s : State), (n = 0 ∨ n = 0x10 ∨ n = 0x11) → s.setCsr c n v = s) ∧
  (∀ (e : Fin 16) (t : Fin 8) (s : State), s.csr (.eng e t) 0 = 8 * e + t) ∧
  -- evraise: the program event of the engine, or of the cell's pair
  (∀ (e : Fin 16) (t : Fin 8) (fu : Bool) (i : IIns) (s : State), Issues s ⟨.eng e t, fu⟩ i.pred → i.a = 0 → i.d = 0 →
    exec (.evraise ⟨.eng e t, fu⟩ i) s = .next (s.finish (.eng e t) (.next,
      s.raise .ENG_PROG_EVENT (locEngine e) (i.imm.toNat + 2 ^ 12 * t)))) ∧
  (∀ (c : Fin 96) (eg fu : Bool) (i : IIns) (s : State), Issues s ⟨.cell c eg, fu⟩ i.pred → i.a = 0 → i.d = 0 →
    exec (.evraise ⟨.cell c eg, fu⟩ i) s = .next (s.raise .CORE_PROG_EVENT (locSlice (cellPair c))
      (i.imm.toNat + 2 ^ 12 * (2 * c + eg.toNat))))

/-- R290-R296, R330, R331, R336, Tables 9.4 and 10.4: loads, stores, atomics and vector moves. Readings of the model: log
entries 76, 78. -/
def Obligations.MemoryInstructionsComplete : Prop :=
  -- loads: the value read, zero-extended; the exception of the address; the exception met while reading
  (∀ (x : Issue) (ue : Bool) (i : IIns) (a : Nat) (s : State), Issues s x i.pred → isTz x.core = true → a = s.ea x.core i 1 →
    (∀ v w, s.memExc x.core a 1 .load = none → s.memGet x.core a 1 ue = .ok (v, w) →
      exec (.ldB x ue i) s = .next (s.finish x.core (.next, w.setG x.core i.d v))) ∧
    (∀ v w, s.memExc x.core a 2 .load = none → s.memGet x.core a 2 ue = .ok (v, w) →
      exec (.ldH x ue i) s = .next (s.finish x.core (.next, w.setG x.core i.d v))) ∧
    (∀ v w, s.memExc x.core a 4 .load = none → s.memGet x.core a 4 ue = .ok (v, w) →
      exec (.ldW x ue i) s = .next (s.finish x.core (.next, w.setG x.core i.d v))) ∧
    (∀ v w, s.memExc x.core a 8 .load = none → s.memGet x.core a 8 ue = .ok (v, w) →
      exec (.ldD x ue i) s = .next (s.finish x.core (.next, w.setG x.core i.d v))) ∧
    (∀ k, s.memExc x.core a 8 .load = some k → exec (.ldD x ue i) s = .next (s.trap x.core k a)) ∧
    (∀ k, s.memExc x.core a 8 .load = none → s.memGet x.core a 8 ue = .error k →
      exec (.ldD x ue i) s = .next (s.trap x.core k a))) ∧
  -- stores: the low octets of g[d]
  (∀ (x : Issue) (i : IIns) (a v : Nat) (s : State), Issues s x i.pred → isTz x.core = true → a = s.ea x.core i 1 →
    v = s.g x.core i.d →
    (∀ w, s.memExc x.core a 1 .store = none → s.memPut x.core a 1 (v % 2 ^ 8) = .ok w →
      exec (.stB x i) s = .next (s.finish x.core (.next, w))) ∧
    (∀ w, s.memExc x.core a 2 .store = none → s.memPut x.core a 2 (v % 2 ^ 16) = .ok w →
      exec (.stH x i) s = .next (s.finish x.core (.next, w))) ∧
    (∀ w, s.memExc x.core a 4 .store = none → s.memPut x.core a 4 (v % 2 ^ 32) = .ok w →
      exec (.stW x i) s = .next (s.finish x.core (.next, w))) ∧
    (∀ w, s.memExc x.core a 8 .store = none → s.memPut x.core a 8 (v % 2 ^ 64) = .ok w →
      exec (.stD x i) s = .next (s.finish x.core (.next, w))) ∧
    (∀ k, s.memExc x.core a 8 .store = some k → exec (.stD x i) s = .next (s.trap x.core k a)) ∧
    (∀ k, s.memExc x.core a 8 .store = none → s.memPut x.core a 8 (v % 2 ^ 64) = .error k →
      exec (.stD x i) s = .next (s.trap x.core k a))) ∧
  -- what is read and written in the own Pantry, another engine's Pantry and the Cellar
  (∀ (e : Fin 16) (t : Fin 8) (a n : Nat) (s : State), a + n ≤ 0x400000 →
    s.memGet (.eng e t) a n false = .ok (s.rdMem .pantry (e * 0x400000 + a) n, s) ∧
    s.memGet (.eng e t) a n true = .error cDATA_UE ∧
    (∀ v, s.memPut (.eng e t) a n v = .ok (s.wrMem .pantry (e * 0x400000 + a) n v))) ∧
  (∀ (e : Fin 16) (t : Fin 8) (f o n : Nat) (s : State), f < 16 → o + n ≤ 0x400000 → 0 < n →
    s.memGet (.eng e t) (0x10000000000 + f * 0x400000 + o) n false = .ok (s.rdMem .pantry (f * 0x400000 + o) n, s)) ∧
  -- the exceptions of an address, in the order of R322: MISALIGN, PROT, LOAD or STORE
  (∀ (c : Core) (a n : Nat) (k : Acs) (s : State),
    (a % n ≠ 0 → s.memExc c a n k = some cMISALIGN) ∧
    (a % n = 0 → s.protBad c (coreSpot c a n) n k = true → s.memExc c a n k = some cPROT) ∧
    (a % n = 0 → s.protBad c (coreSpot c a n) n k = false → s.placeBad c (coreSpot c a n) n k = true →
      s.memExc c a n k = some (if k = .load then cLOAD else cSTORE)) ∧
    (a % n = 0 → s.protBad c (coreSpot c a n) n k = false → s.placeBad c (coreSpot c a n) n k = false →
      s.memExc c a n k = none)) ∧
  (∀ (e : Fin 16) (t : Fin 8) (a n : Nat) (k : Acs) (s : State), s.privP (.eng e t) = true →
    s.protBad (.eng e t) (coreSpot (.eng e t) a n) n k = false) ∧
  -- atomics: what stood there goes to g[d], the operation's value to the word
  (∀ (x : Issue) (i : RIns) (a b old : Nat) (s w : State), Issues s x i.pred → isTz x.core = true → a = s.g x.core i.a →
    b = s.g x.core i.b → s.memExc x.core a 8 .atomic = none → old = s.wordAt x.core a →
    w = (match coreSpot x.core a 8 with
      | .cellar o => if isEng x.core then s.cacheDrop (engOf x.core) (o / 64) else s | _ => s) →
    (∀ u, w.memPut x.core a 8 ((old + b) % 2 ^ 64) = .ok u →
      exec (.amoAdd x false i) s = .next (s.finish x.core (.next, u.setG x.core i.d old))) ∧
    (∀ u, w.memPut x.core a 8 (old &&& b) = .ok u →
      exec (.amoAnd x false i) s = .next (s.finish x.core (.next, u.setG x.core i.d old))) ∧
    (∀ u, w.memPut x.core a 8 (old ||| b) = .ok u →
      exec (.amoOr x false i) s = .next (s.finish x.core (.next, u.setG x.core i.d old))) ∧
    (∀ u, w.memPut x.core a 8 (old ^^^ b) = .ok u →
      exec (.amoXor x false i) s = .next (s.finish x.core (.next, u.setG x.core i.d old))) ∧
    (∀ u, w.memPut x.core a 8 b = .ok u →
      exec (.amoSwap x false i) s = .next (s.finish x.core (.next, u.setG x.core i.d old))) ∧
    (∀ u, w.memPut x.core a 8 (if s64 b < s64 old then b else old) = .ok u →
      exec (.amoMin x false i) s = .next (s.finish x.core (.next, u.setG x.core i.d old))) ∧
    (∀ u, w.memPut x.core a 8 (if s64 old < s64 b then b else old) = .ok u →
      exec (.amoMax x false i) s = .next (s.finish x.core (.next, u.setG x.core i.d old))) ∧
    (∀ u, w.memPut x.core a 8 (min old b) = .ok u →
      exec (.amoMinu x false i) s = .next (s.finish x.core (.next, u.setG x.core i.d old))) ∧
    (∀ u, w.memPut x.core a 8 (max old b) = .ok u →
      exec (.amoMaxu x false i) s = .next (s.finish x.core (.next, u.setG x.core i.d old))) ∧
    (∀ u, old = s.g x.core i.d → w.memPut x.core a 8 b = .ok u →
      exec (.cas x false i) s = .next (s.finish x.core (.next, u.setG x.core i.d old))) ∧
    (old ≠ s.g x.core i.d → exec (.cas x false i) s = .next (s.finish x.core (.next, w.setG x.core i.d old)))) ∧
  (∀ (x : Issue) (ue : Bool) (i : RIns) (k : Nat) (s : State), Issues s x i.pred → isTz x.core = true →
    s.memExc x.core (s.g x.core i.a) 8 .atomic = some k →
    exec (.amoAdd x ue i) s = .next (s.trap x.core k (s.g x.core i.a)) ∧
    exec (.cas x ue i) s = .next (s.trap x.core k (s.g x.core i.a))) ∧
  -- 64 bytes
  (∀ (x : Issue) (ue : Bool) (i : IIns) (a v : Nat) (s w : State), Issues s x i.pred → isEng x.core = true →
    a = s.ea x.core i 64 → s.memExc x.core a 64 .load = none → s.memGet x.core a 64 ue = .ok (v, w) →
    exec (.vld x ue i) s = .next (s.finish x.core (.next, w.setV x.core i.d v))) ∧
  (∀ (x : Issue) (i : IIns) (a : Nat) (s w : State), Issues s x i.pred → isEng x.core = true →
    a = s.ea x.core i 64 → s.memExc x.core a 64 .store = none → s.memPut x.core a 64 (s.v x.core i.d) = .ok w →
    exec (.vst x i) s = .next (s.finish x.core (.next, w))) ∧
  (∀ (x : Issue) (ue : Bool) (i : IIns) (s : State), Issues s x i.pred → isEng x.core = true → s.ea x.core i 64 % 64 ≠ 0 →
    exec (.vld x ue i) s = .next (s.trap x.core cMISALIGN (s.ea x.core i 64)) ∧
    exec (.vst x i) s = .next (s.trap x.core cMISALIGN (s.ea x.core i 64)))

/-- R285, R332-R337: the vector instructions without memory. Readings of the model: log entries 35, 76. -/
def Obligations.VectorInstructionsComplete : Prop :=
  -- selected elements take the operation's value, the others keep theirs
  (∀ (ty old i : Nat) (sel : Nat → Bool) (f : Nat → Nat), ty < 8 → i < tyN ty →
    vel ty (vmap ty old sel f) i = (if sel i then f i % 2 ^ tyW ty else vel ty old i)) ∧
  (∀ (c : Core) (ty i : Nat) (s : State), s.vsel c 0 ty i = true ∧
    (∀ pm, pm ≠ 0 → ty ≠ 0 → ty < 8 → s.vsel c pm ty i = bit i (s.p c pm)) ∧
    (∀ pm, pm ≠ 0 → s.vsel c pm 0 i = bit (i / 2) (s.p c pm))) ∧
  -- major 0x28
  (∀ (x : Issue) (i : VIns) (a b : Nat) (put : (Nat → Nat) → Host.Outcome State Fault Refusal) (s : State), Issues s x 0 →
    isEng x.core = true → a = s.v x.core i.va → b = s.v x.core i.vb →
    put = (fun f => .next (s.finish x.core (.next, s.setV x.core i.vd (vmap i.ty (s.v x.core i.vd)
      (s.vsel x.core i.pm i.ty) f)))) →
    exec (.vadd x i) s = put (vop 0 i.ty a b) ∧ exec (.vsub x i) s = put (vop 1 i.ty a b) ∧
    exec (.vmul x i) s = put (vop 2 i.ty a b) ∧
    exec (.vand x i) s = put (fun k => vel i.ty a k &&& vel i.ty b k) ∧
    exec (.vor x i) s = put (fun k => vel i.ty a k ||| vel i.ty b k) ∧
    exec (.vxor x i) s = put (fun k => vel i.ty a k ^^^ vel i.ty b k) ∧
    exec (.vshr x i) s = put (vop 6 i.ty a b) ∧
    (tyC i.ty = false →
      exec (.vmin x i) s = put (fun k => if vre i.ty a k ≤ vre i.ty b k then vel i.ty a k else vel i.ty b k) ∧
      exec (.vmax x i) s = put (fun k => if vre i.ty a k ≤ vre i.ty b k then vel i.ty b k else vel i.ty a k)) ∧
    exec (.vmov x i) s = put (vel i.ty a) ∧
    exec (.vsplat x i) s = put (fun _ => s.g x.core i.va) ∧
    exec (.vperm x i) s = put (fun k => vel i.ty a (vel i.ty b k % 2 ^ tyP i.ty % tyN i.ty))) ∧
  (∀ (x : Issue) (i : VIns) (s : State), Issues s x 0 → isEng x.core = true → tyC i.ty = true →
    exec (.vmin x i) s = .next (s.finish x.core (.exc cILLEGAL (encV 0x28 7 i), s)) ∧
    exec (.vmax x i) s = .next (s.finish x.core (.exc cILLEGAL (encV 0x28 8 i), s)) ∧
    exec (.vmac x i) s = .next (s.finish x.core (.exc cILLEGAL (encV 0x29 0 i), s))) ∧
  -- sum, difference, product and shift of real elements, and of the parts of complex ones
  (∀ (ty a b k : Nat), tyC ty = false →
    vop 0 ty a b k = vel ty a k + vel ty b k ∧ vop 1 ty a b k = ofS (tyW ty) (vre ty a k - vre ty b k) ∧
    vop 2 ty a b k = ofS (tyW ty) (vre ty a k * vre ty b k) ∧
    vop 6 ty a b k = ofS (tyW ty) (vre ty a k / (2 ^ (vel ty b k % tyW ty) : Nat))) ∧
  (∀ (ty a b k : Nat), tyC ty = true →
    vop 0 ty a b k = mkC ty (vre ty a k + vre ty b k) (vim ty a k + vim ty b k) ∧
    vop 1 ty a b k = mkC ty (vre ty a k - vre ty b k) (vim ty a k - vim ty b k) ∧
    vop 2 ty a b k = mkC ty (vre ty a k * vre ty b k - vim ty a k * vim ty b k)
      (vre ty a k * vim ty b k + vim ty a k * vre ty b k)) ∧
  -- multiply and accumulate
  (∀ (x : Issue) (i : VIns) (old a b : Nat) (s : State), Issues s x 0 → isEng x.core = true → old = s.v x.core i.vd →
    a = s.v x.core i.va → b = s.v x.core i.vb →
    (tyC i.ty = false → exec (.vmac x i) s = .next (s.finish x.core (.next, s.setV x.core i.vd
      (vmacReal i.ty old a b (s.vsel x.core i.pm i.ty))))) ∧
    (tyC i.ty = true →
      exec (.vcmac x i) s = .next (s.finish x.core (.next, s.setV x.core i.vd
        (vmacCplx i.ty old a b 1 (s.vsel x.core i.pm i.ty)))) ∧
      exec (.vcmacj x i) s = .next (s.finish x.core (.next, s.setV x.core i.vd
        (vmacCplx i.ty old a b (-1) (s.vsel x.core i.pm i.ty)))))) ∧
  (∀ (ty old a b j w g : Nat) (sel : Nat → Bool), ty < 4 → w = accW ty → g = accG ty → j < accN ty →
    bits (j * w) w (vmacReal ty old a b sel) = ofS w (toS w (bits (j * w) w old) + ((List.range g).map (fun k =>
      if sel (g * j + k) then vre ty a (g * j + k) * vre ty b (g * j + k) else 0)).sum)) ∧
  (∀ (ty old a b j w g : Nat) (sg : Int) (sel : Nat → Bool), 4 ≤ ty → ty < 8 → w = accW ty → g = accG ty → j < accN ty →
    bits (2 * j * w) w (vmacCplx ty old a b sg sel) = ofS w (toS w (bits (2 * j * w) w old) + ((List.range g).map (fun k =>
      if sel (g * j + k) then vre ty a (g * j + k) * vre ty b (g * j + k) -
        vim ty a (g * j + k) * (sg * vim ty b (g * j + k)) else 0)).sum) ∧
    bits ((2 * j + 1) * w) w (vmacCplx ty old a b sg sel) = ofS w (toS w (bits ((2 * j + 1) * w) w old) +
      ((List.range g).map (fun k => if sel (g * j + k) then vre ty a (g * j + k) * (sg * vim ty b (g * j + k)) +
        vim ty a (g * j + k) * vre ty b (g * j + k) else 0)).sum)) ∧
  -- reductions
  (∀ (x : Issue) (i : VIns) (a : Nat) (s : State), Issues s x 0 → isEng x.core = true → i.vb = 0 → a = s.v x.core i.va →
    exec (.vredSum x i) s = .next (s.finish x.core (.next, s.setV x.core i.vd (vredSum i.ty a (s.vsel x.core i.pm i.ty)))) ∧
    exec (.vredMax x i) s = .next (s.finish x.core (.next, s.setV x.core i.vd (vredMax i.ty a (s.vsel x.core i.pm i.ty)))) ∧
    exec (.vredCat x i) s = .next (s.finish x.core (.next, s.setV x.core i.vd (vredCat i.ty a (s.vsel x.core i.pm i.ty))))) ∧
  (∀ (x : Issue) (i : VIns) (s : State), Issues s x 0 → i.vb ≠ 0 →
    exec (.vredSum x i) s = .next (s.finish x.core (.exc cILLEGAL (encV 0x2B 0 i), s))) ∧
  (∀ (ty a : Nat) (sel : Nat → Bool), tyC ty = false →
    vredSum ty a sel = ofS 64 ((selIdx ty sel).map (vre ty a)).sum) ∧
  (∀ (ty a : Nat) (sel : Nat → Bool), tyC ty = false → (∀ k, k < tyN ty → sel k = false) →
    vredMax ty a sel = ones64 * 2 ^ 64) ∧
  (∀ (ty a : Nat) (sel : Nat → Bool) (k : Nat), tyC ty = false → k < tyN ty → sel k = true →
    ∃ j, j < tyN ty ∧ sel j = true ∧ vredMax ty a sel = ofS 64 (vre ty a j) + j * 2 ^ 64 ∧ vre ty a k ≤ vre ty a j ∧
      (vre ty a k = vre ty a j → j ≤ k)) ∧
  (∀ (ty a : Nat) (sel : Nat → Bool) (k : Nat), ty < 8 → k < (selIdx ty sel).length →
    vel ty (vredCat ty a sel) k = vel ty a ((selIdx ty sel).getD k 0)) ∧
  -- conversions
  (∀ (x : Issue) (f : Fin 16) (i : VIns) (s : State), Issues s x 0 → isEng x.core = true → cvtOk i.ty (f % 8) = true →
    exec (.vcvt x f i) s = .next (s.finish x.core (.next, s.setV x.core i.vd (vcvt i.ty (f % 8) (f / 8)
      (s.v x.core i.vd) (s.v x.core i.va) (s.vsel x.core i.pm (f % 8)))))) ∧
  (∀ (x : Issue) (f : Fin 16) (i : VIns) (s : State), Issues s x 0 → cvtOk i.ty (f % 8) = false →
    exec (.vcvt x f i) s = .next (s.finish x.core (.exc cILLEGAL (encV 0x2F f i), s))) ∧
  (∀ (src dst h old a : Nat) (sel : Nat → Bool), (tyW src = tyW dst → vcvt src dst h old a sel = vmap dst old sel (vel src a)) ∧
    (tyW src < tyW dst → vcvt src dst h old a sel = vmap dst old sel (fun k => cvtEl dst src a (h * tyN dst + k))) ∧
    (tyW dst < tyW src → vcvt src dst h old a sel = vmap dst old (fun k => k / tyN src == h && sel k)
      (fun k => cvtEl dst src a (k % tyN src))))

/-- R314, R315, R338-R345, R356: the frame and lookup instructions, on engines and in stage cells. Readings of the model:
log entries 40, 45, 83. -/
def Obligations.FrameInstructionsComplete : Prop :=
  -- fext and fins on an engine: big-endian at base + offset; beyond the bound LOAD or STORE with the offset
  (∀ (e : Fin 16) (t : Fin 8) (fu ue : Bool) (i : IIns) (o n h off : Nat) (c : Core) (s : State), c = .eng e t →
    Issues s ⟨c, fu⟩ i.pred → o = bits 0 10 i.imm.toNat → n = 2 ^ bits 10 2 i.imm.toNat → h = s.g c i.a % 2 ^ 32 →
    off = bits 32 16 (s.g c i.a) + o →
    (s.frExc c i.a o n false = none →
      exec (.fext ⟨c, fu⟩ false i) s = .next (s.finish c (.next, s.setG c i.d (beNat (s.frameBytes h off n)))) ∧
      exec (.fext ⟨c, fu⟩ true i) s = .next (s.trap c cDATA_UE off)) ∧
    (s.frExc c i.a o n true = none →
      exec (.fins ⟨c, fu⟩ i) s = .next (s.finish c (.next, s.setFrameBytes h off (beBytes n (s.g c i.d))))) ∧
    (s.handleOk h = true → (hPool h = 0 ∨ s.privP c = true) → s.frameBound h < off + n →
      exec (.fext ⟨c, fu⟩ ue i) s = .next (s.trap c cLOAD off) ∧ exec (.fins ⟨c, fu⟩ i) s = .next (s.trap c cSTORE off)) ∧
    (s.handleOk h = false →
      exec (.fext ⟨c, fu⟩ ue i) s = .next ((s.count (.pool .STAT_BAD_HANDLE) (hPool h)).trap c cLOAD off))) ∧
  -- in a stage cell: the window, its end, and beyond its extent (Table 10.11)
  (∀ (n : Fin 96) (eg fu ue : Bool) (i : IIns) (o w off : Nat) (c : Core) (t : Track) (s : State), c = .cell n eg →
    Issues s ⟨c, fu⟩ i.pred → i.d.val < 16 → i.a.val < 16 → o = bits 0 10 i.imm.toNat → w = 2 ^ bits 10 2 i.imm.toNat →
    off = s.g c i.a + o → t = s.track (trackNo n eg) →
    (off + w ≤ t.win.length → off + w ≤ t.extent →
      exec (.fext ⟨c, fu⟩ ue i) s = .next (s.setG c i.d (beNat (octetsAt t.win off w)))) ∧
    (t.win.length < off + w → off + w ≤ t.extent →
      exec (.fext ⟨c, fu⟩ ue i) s = .next (((s.setTrack (trackNo n eg) { t with md := mdSHORT.put 1 t.md }).count
        (.core .PAIR_CNT_PROG_FAULT) (cellPair n)).setG c i.d (beNat (octetsAt t.win off w)))) ∧
    (t.extent < off + w →
      exec (.fext ⟨c, fu⟩ ue i) s = .next ((s.setG c i.d 0).count (.core .PAIR_CNT_PROG_FAULT) (cellPair n))) ∧
    (off + w ≤ t.win.length →
      exec (.fins ⟨c, fu⟩ i) s = .next (s.setTrack (trackNo n eg) { t with
        win := octetsPut t.win off (beBytes w (s.g c i.d)) })) ∧
    (t.win.length < off + w →
      exec (.fins ⟨c, fu⟩ i) s = .next (s.count (.core .PAIR_CNT_PROG_FAULT) (cellPair n)))) ∧
  -- checksum update (R340), with the manual's example
  (∀ (x : Issue) (f : Fin 128) (i : RIns) (s : State), Issues s x i.pred → (isEng x.core = true ∨ isCell x.core = true) →
    gOk x.core i.d = true → gOk x.core i.a = true → gOk x.core i.b = true → f.val < 3 →
    exec (.fcsum x f i) s = .next (s.finish x.core (.next, s.setG x.core i.d
      (csumUpd (2 ^ f.val) (s.g x.core i.d) (s.g x.core i.a) (s.g x.core i.b))))) ∧
  csumUpd 1 0xB861 0x4011 0x3F11 = 0xB961 ∧
  -- correction field (R341)
  (∀ (e : Fin 16) (t : Fin 8) (fu : Bool) (f : Fin 128) (i : RIns) (l : List Byte) (hd h cf : Nat) (c : Core) (s w : State),
    c = .eng e t → Issues s ⟨c, fu⟩ i.pred → f.val < 3 → hd = s.g c i.a % 2 ^ 32 → h = bits 32 16 (s.g c i.a) →
    s.frExc c i.a 0 16 true = none → l = s.frameBytes hd 0 (s.frameBound hd) →
    (f.val ≠ 2 ∨ trailerAt l h ≠ none) →
    s.cfSat (toS 64 (beNat (octetsAt l (h + 8) 8)) + s64 (s.g c i.b)) (locEngine e) = (cf, w) →
    exec (.fcfadd ⟨c, fu⟩ f i) s =
      .next (s.finish c (.next, (w.setFrameBytes hd 0 (cfStore l h f cf)).setG c i.d cf))) ∧
  (∀ (v : Int) (loc : Nat) (s : State), -(2 ^ 63) ≤ v → v < 2 ^ 63 → s.cfSat v loc = (ofS 64 v, s)) ∧
  (∀ (v : Int) (loc : Nat) (s : State), (v < -(2 ^ 63) ∨ 2 ^ 63 ≤ v) → (s.cfSat v loc).1 = 0x7FFFFFFFFFFFFFFF) ∧
  (∀ (n : Fin 96) (eg fu : Bool) (f : Fin 128) (i : RIns) (h : Nat) (c : Core) (t : Track) (s : State), c = .cell n eg →
    Issues s ⟨c, fu⟩ i.pred → i.d.val < 16 → i.a.val < 16 → i.b.val < 16 → f.val = 2 → h = s.g c i.a →
    t = s.track (trackNo n eg) → h + 16 ≤ t.win.length → trailerAt t.win h = none →
    exec (.fcfadd ⟨c, fu⟩ f i) s = .next ((s.setG c i.d (beNat (octetsAt t.win (h + 8) 8))).count
      (.core .PAIR_CNT_PROG_FAULT) (cellPair n))) ∧
  (∀ (x : Issue) (f : Fin 128) (i : RIns) (s : State), Issues s x i.pred → 3 ≤ f.val →
    exec (.fcfadd x f i) s = .next (s.finish x.core (.exc cILLEGAL (encR 0x43 f i), s))) ∧
  -- metadata and window: ILLEGAL on a core that runs threads
  (∀ (x : Issue) (i : IIns) (s : State), Issues s x i.pred → isTz x.core = true →
    exec (.mdld x i) s = .next (s.trap x.core cILLEGAL (encI 0x44 i)) ∧
    exec (.mdst x i) s = .next (s.trap x.core cILLEGAL (encI 0x45 i)) ∧
    exec (.fwin x i) s = .next (s.trap x.core cILLEGAL (encI 0x46 i))) ∧
  (∀ (n : Fin 96) (eg fu : Bool) (i : IIns) (o w : Nat) (c : Core) (t : Track) (s : State), c = .cell n eg →
    Issues s ⟨c, fu⟩ i.pred → i.d.val < 16 → bits 6 4 i.imm.toNat = 0 → o = bits 0 6 i.imm.toNat →
    w = 2 ^ bits 10 2 i.imm.toNat → t = s.track (trackNo n eg) →
    (o % w = 0 → exec (.mdld ⟨c, fu⟩ i) s = .next (s.setG c i.d (bits (8 * o) (8 * w) t.md))) ∧
    (o % w ≠ 0 → exec (.mdld ⟨c, fu⟩ i) s =
      .next ((s.setG c i.d 0).count (.core .PAIR_CNT_PROG_FAULT) (cellPair n))) ∧
    (o % w = 0 → (∀ k, k < 8 * w → mdForbidden (cellStage n) eg (8 * o + k) = false ∧ mdListed (8 * o + k) = true) →
      exec (.mdst ⟨c, fu⟩ i) s =
        .next (s.setTrack (trackNo n eg) { t with md := putBits (8 * o) (8 * w) (s.g c i.d) t.md })) ∧
    ((o % w ≠ 0 ∨ ∃ k, k < 8 * w ∧ mdForbidden (cellStage n) eg (8 * o + k) = true) →
      exec (.mdst ⟨c, fu⟩ i) s = .next (s.count (.core .PAIR_CNT_PROG_FAULT) (cellPair n)))) ∧
  (∀ (n : Fin 96) (eg fu : Bool) (i : IIns) (o m : Nat) (c : Core) (t : Track) (s : State), c = .cell n eg →
    Issues s ⟨c, fu⟩ i.pred → i.d = 0 → i.a.val < 16 → o = s.g c i.a → t = s.track (trackNo n eg) →
    (m = i.imm.toNat → 1 ≤ m → m ≤ 32 → o ≤ t.win.length → t.ins + m ≤ 32 →
      exec (.fwin ⟨c, fu⟩ i) s = .next (s.setTrack (trackNo n eg) { t with
        win := t.win.take o ++ List.replicate m 0 ++ t.win.drop o
        ins := t.ins + m
        md := mdLEN.put (mdLEN.get t.md + m) t.md })) ∧
    (m + i.imm.toNat = 4096 → 1 ≤ m → m ≤ 64 → o + m ≤ t.win.length → t.del + m ≤ 64 →
      exec (.fwin ⟨c, fu⟩ i) s = .next (s.setTrack (trackNo n eg) { t with
        win := t.win.take o ++ t.win.drop (o + m)
        del := t.del + m
        md := mdLEN.put (mdLEN.get t.md - m) t.md })) ∧
    (m = i.imm.toNat → 1 ≤ m → m ≤ 32 → 32 < t.ins + m →
      exec (.fwin ⟨c, fu⟩ i) s = .next (s.count (.core .PAIR_CNT_PROG_FAULT) (cellPair n)))) ∧
  -- lookups: on an engine the latest result is kept; in a stage cell once of a kind in stages 2-7, on a table bound there
  (∀ (e : Fin 16) (t : Fin 8) (fu : Bool) (i : IIns) (tb key m : Nat) (r : LkRes) (c : Core) (s w : State), c = .eng e t →
    Issues s ⟨c, fu⟩ i.pred → i.d = 0 → bits 7 5 i.imm.toNat = 0 → tb = bits 0 6 i.imm.toNat →
    key = s.lkKey c i.a ((s.rd (.core .TBL_KEY_BITS) tb + 63) / 64) → m = thrIdx e t →
    (s.look tb 0 (bits 6 1 i.imm.toNat) key = (r, w) →
      exec (.lkx ⟨c, fu⟩ i) s = .next (s.finish c (.next,
        ((w.setTr m (rLK 0) 1).setTr m (rLK 0 + 1) r.hit.toNat).setTr m (rLK 0 + 2) r.data))) ∧
    (s.look tb 1 (bits 6 1 i.imm.toNat) key = (r, w) →
      exec (.lkt ⟨c, fu⟩ i) s = .next (s.finish c (.next,
        ((w.setTr m (rLK 1) 1).setTr m (rLK 1 + 1) r.hit.toNat).setTr m (rLK 1 + 2) r.data)))) ∧
  (∀ (tb kind b key : Nat) (s : State), s.tblKind tb ≠ kind + 1 → s.look tb kind b key = (⟨false, 0⟩, s)) ∧
  (∀ (n : Fin 96) (eg fu : Bool) (i : IIns) (tb key : Nat) (r : LkRes) (c : Core) (t : Track) (s w : State), c = .cell n eg →
    Issues s ⟨c, fu⟩ i.pred → i.d = 0 → i.a.val < 16 → bits 6 6 i.imm.toNat = 0 → tb = bits 0 6 i.imm.toNat →
    key = s.lkKey c i.a ((s.rd (.core .TBL_KEY_BITS) tb + 63) / 64) → t = s.track (trackNo n eg) → 2 ≤ cellStage n →
    cellStage n ≤ 7 → s.tblKind tb ≠ 0 → s.rd (.core .TBL_STAGE) tb = cellStage n →
    ((∀ e ∈ t.look, e.1 ≠ (cellStage n, 0)) → s.look tb 0 (mdBANK.get t.md) key = (r, w) →
      exec (.lkx ⟨c, fu⟩ i) s = .next (w.setTrack (trackNo n eg) { t with look := ((cellStage n, 0), r) :: t.look })) ∧
    ((∀ e ∈ t.look, e.1 ≠ (cellStage n, 1)) → s.look tb 1 (mdBANK.get t.md) key = (r, w) →
      exec (.lkt ⟨c, fu⟩ i) s = .next (w.setTrack (trackNo n eg) { t with look := ((cellStage n, 1), r) :: t.look }))) ∧
  -- lkres: the kept result; none is a miss; in a stage cell too early is a miss and counted
  (∀ (e : Fin 16) (t : Fin 8) (fu : Bool) (i : IIns) (k m : Nat) (c : Core) (s : State), c = .eng e t →
    Issues s ⟨c, fu⟩ i.pred → bits 7 5 i.imm.toNat = 0 → bits 0 3 i.imm.toNat = 0 → k = bits 3 1 i.imm.toNat →
    m = thrIdx e t →
    (bits 6 1 i.imm.toNat = 0 → exec (.lkres ⟨c, fu⟩ i) s = .next (s.finish c (.next, s.setG c i.d
      (if s.tr m (rLK k) = 1 ∧ s.tr m (rLK k + 1) = 1 then bits (64 * bits 4 2 i.imm.toNat) 64 (s.tr m (rLK k + 2)) else 0)))) ∧
    (bits 6 1 i.imm.toNat = 1 → i.d.val < 8 → exec (.lkres ⟨c, fu⟩ i) s = .next (s.finish c (.next, s.setP c i.d
      (if s.tr m (rLK k) = 1 ∧ s.tr m (rLK k + 1) = 1 then ones64 else 0))))) ∧
  (∀ (n : Fin 96) (eg fu : Bool) (i : IIns) (c : Core) (s : State), c = .cell n eg → Issues s ⟨c, fu⟩ i.pred →
    bits 7 5 i.imm.toNat = 0 → bits 6 1 i.imm.toNat = 0 → i.d.val < 16 → cellStage n < bits 0 3 i.imm.toNat + 2 →
    exec (.lkres ⟨c, fu⟩ i) s = .next ((s.setG c i.d 0).count (.core .PAIR_CNT_PROG_FAULT) (cellPair n))) ∧
  -- lkupd: PRIV at U, MISALIGN, LOAD; else CODE, HIT and INDEX
  (∀ (e : Fin 16) (t : Fin 8) (fu : Bool) (f : Fin 128) (i : RIns) (c : Core) (s : State), c = .eng e t →
    Issues s ⟨c, fu⟩ i.pred → f.val < 8 →
    (s.privP c = false → exec (.lkupd ⟨c, fu⟩ f i) s = .next (s.trap c cPRIV (encR 0x4B f i))) ∧
    (s.privP c = true → s.g c i.a % 64 ≠ 0 → exec (.lkupd ⟨c, fu⟩ f i) s = .next (s.trap c cMISALIGN (s.g c i.a))) ∧
    (s.privP c = true → s.g c i.a % 64 = 0 → 0x400000 < s.g c i.a + 256 →
      exec (.lkupd ⟨c, fu⟩ f i) s = .next (s.trap c cLOAD (s.g c i.a)))) ∧
  (∀ (e : Fin 16) (t : Fin 8) (fu : Bool) (f : Fin 128) (i : RIns) (base : Nat) (o : LkOut) (c : Core) (s w : State),
    c = .eng e t → Issues s ⟨c, fu⟩ i.pred → f.val < 8 → s.privP c = true → s.g c i.a % 64 = 0 →
    s.g c i.a + 256 ≤ 0x400000 → base = e * 0x400000 + s.g c i.a →
    s.lkRun f ⟨s.g c i.b % 64, s.rdMem .pantry base 80, s.rdMem .pantry (base + 80) 80, s.rdMem .pantry (base + 160) 32,
      bits 0 22 (s.rdMem .pantry (base + 192) 4), bits 0 2 (s.rdMem .pantry (base + 196) 1)⟩ = (o, w) →
    ∃ u : State, exec (.lkupd ⟨c, fu⟩ f i) s =
        .next (s.finish c (.next, u.setG c i.d (o.code + 8 * o.hit.toNat + o.index * 2 ^ 16))) ∧
      (∀ r a, (r ≠ .pantry ∨ a < base ∨ base + 256 ≤ a) → u.byte r a = w.byte r a) ∧
      (f.val < 4 → o.ent = none → u = w) ∧
      (∀ en, o.ent = some en → u.rdMem .pantry (base + 160) 32 = en.data % 2 ^ 256 ∧
        (f.val = 5 → u.rdMem .pantry base 80 = en.key % 2 ^ 640 ∧ u.rdMem .pantry (base + 80) 80 = en.mask % 2 ^ 640)) ∧
      ((f.val = 4 ∨ f.val = 5 ∨ f.val = 7) → o.code = lkOK →
        u.rdMem .pantry (base + 192) 4 = o.index % 2 ^ 32))

/-- R358-R370, R376, R379-R384, R387: CONTRIBUTION_OFFER, GATHER_STEP, BIN_DEADLINE, OUTPUT_ALLOC_TIMEOUT and RELIVE_WRITE.
Readings of the model: log entries 42, 55, 88. -/
def Obligations.GatheringCompletes : Prop :=
  -- the unit examines its oldest waiting contribution
  (∀ (hf : Fin 2) (s : State) (d : Copy) (l : List Copy), s.up .GTH hf = true → s.ginOf hf = d :: l →
    exec (.contributionOffer hf) s = .next ((s.setGin hf l).contribute hf d)) ∧
  (∀ (hf : Fin 2) (s : State), s.up .GTH hf = true → s.ginOf hf = [] → exec (.contributionOffer hf) s = .next s) ∧
  -- row 1: no such group here, or one that does not run
  (∀ (hf g : Nat) (d : Copy) (s : State), g = mdGRP.get d.md → (511 < g ∨ g / 256 ≠ hf ∨ (gState s g ≠ gRUN ∧ gState s g ≠ gDRAIN)) →
    s.contribute hf d = (s.count (.gth .BAD_GBAD) hf).drop1 d.handle) ∧
  -- row 2: the payload ends beyond LEN − 4
  (∀ (hf g ofs : Nat) (d : Copy) (s : State), g = mdGRP.get d.md → ofs = mdSTIME_OFS.get d.md → g ≤ 511 → g / 256 = hf →
    (gState s g = gRUN ∨ gState s g = gDRAIN) → d.len - 4 < s.payAt g ofs + gPLEN s g →
    s.contribute hf d = (s.count (.gth .GCNT_BAD_LEN) g).drop1 d.handle) ∧
  -- rows 3 to 10, of a contribution that fits: contributor, run, early, late, double, claimed
  (∀ (hf g ofs c t n : Nat) (ci : Int) (d : Copy) (s : State), g = mdGRP.get d.md → ofs = mdSTIME_OFS.get d.md → g ≤ 511 →
    g / 256 = hf → (gState s g = gRUN ∨ gState s g = gDRAIN) → ci = s.cidAt g ofs → 0 ≤ ci → ci < (d.len - 4 : Nat) →
    ofs + stimeLen (s.rd (.gth .GRP_SAMPLE_FMT) g) ≤ d.len - 4 → s.payAt g ofs + gPLEN s g ≤ d.len - 4 →
    c = beNat (s.frameBytes d.handle ci.toNat 1) → t = s.sampleTime g d.handle ofs → n = (t - gT0 s g) / gBPER s g →
    (bit c (s.rd (.gth .GRP_EXPECT) g) = false → s.contribute hf d = (s.count (.gth .GCNT_NOT_EXP) g).drop1 d.handle) ∧
    (bit c (s.rd (.gth .GRP_EXPECT) g) = true →
      (t < gT0 s g ∨ n < s.h .gthStart g ∨ (gState s g = gDRAIN ∧ s.h .gthStop g ≤ n)) →
      s.contribute hf d = (s.count (.gth .GCNT_OUT_RUN) g).drop1 d.handle) ∧
    (bit c (s.rd (.gth .GRP_EXPECT) g) = true → gT0 s g ≤ t → s.h .gthStart g ≤ n → gState s g = gRUN →
      (s.nowU + s.rd (.gth .GRP_FUTURE) g * gBPER s g < gStart s g n →
        s.contribute hf d = (s.count (.gth .GCNT_EARLY) g).drop1 d.handle) ∧
      (gStart s g n ≤ s.nowU + s.rd (.gth .GRP_FUTURE) g * gBPER s g →
        (s.binLate g n = true → s.contribute hf d = s.contribLate g n c d.handle ofs) ∧
        (∀ b, s.binLate g n = false → s.binOf g n = some b → bit c b.claims = true →
          s.contribute hf d = (s.count (.gth .GCNT_DUP) g).drop1 d.handle) ∧
        (s.binLate g n = false → (∀ b, s.binOf g n = some b → bit c b.claims = false) →
          s.contribute hf d = s.contribClaim g n c d.handle ofs)))) ∧
  -- an open bin takes the claim, and the serving engine's queue the descriptor; a queue of 512 is full
  (∀ (g n c h ofs : Nat) (b : Bin) (s : State), s.binOf g n = some b → (s.gqOf b.eng).length < 512 →
    s.contribClaim g n c h ofs = (s.setBin { b with claims := setBit c b.claims }).setGq b.eng
      (s.gqOf b.eng ++ [⟨g, n, c, h, s.payAt g ofs⟩])) ∧
  (∀ (g n c h ofs : Nat) (b : Bin) (s : State), s.binOf g n = some b → 512 ≤ (s.gqOf b.eng).length →
    s.contribClaim g n c h ofs =
      ((s.count (.gth .ENG_QFULL) b.eng).drop1 h).raise .GTH_QUEUE_FULL (locEngine b.eng)) ∧
  -- no place: EVICT = 0 drops it and raises GTH.NO_SLOT
  (∀ (g n c h ofs e : Nat) (s w : State), s.binOf g n = none → gServe s g n = some e → s.binPlace g n e = (false, w) →
    s.contribClaim g n c h ofs = ((w.count (.gth .GCNT_NO_SLOT) g).drop1 h).raise .GTH_NO_SLOT (locHalf (g / 256)) g) ∧
  -- a free slot opens the bin there
  (∀ (g n e : Nat) (s : State), s.slotHolder g n e = none → s.on (.gth .GRP_BIN_HOME) g = false →
    s.binPlace g n e = (true, s.binOpen g n e none)) ∧
  -- late: dropped with GTH.LATE, or a supplement of this contributor alone
  (∀ (g n c h ofs e : Nat) (s : State), gServe s g n = some e → s.on (.gth .GRP_LATE_MODE) g = false →
    s.contribLate g n c h ofs = ((s.count (.gth .GCNT_LATE) g).drop1 h).raise .GTH_LATE (locHalf (g / 256)) g) ∧
  (∀ (g n c h ofs e : Nat) (s : State), gServe s g n = some e → s.on (.gth .GRP_LATE_MODE) g = true →
    s.rd (.gth .GRP_FLOOR) g ≤ n + s.rd (.gth .GRP_LATE_MAX) g →
    s.contribLate g n c h ofs = ((s.gEmitFrames g n e { supp := true } (gBank s g n) (2 ^ c) (s.reduce g e (gBank s g n) c
      (s.frameBytes h (s.payAt g ofs) (gPLEN s g)) (gZero s g))).count (.gth .GCNT_SUPP) g).drop1 h) ∧
  -- the serving engine and the slot of a bin (R363)
  (∀ (g n k : Nat) (l : List Nat) (s : State), l = gList s g → l ≠ [] → k = l.getD (n % l.length) 0 →
    bit k (s.rd (.gth .GRP_ENG_LIVE) g) = true → gServe s g n = some (8 * (g / 256) + k)) ∧
  (∀ (g n : Nat) (s : State), gList s g ≠ [] → s.rd (.gth .GRP_NSLOT) g ≠ 0 →
    gSlot s g n = n / (gList s g).length % s.rd (.gth .GRP_NSLOT) g) ∧
  -- a gather step accumulates the oldest claimed contribution and emits the bin that it completes
  (∀ (e : Fin 16) (s : State), s.up .GTH (e / 8) = true → (∀ x ∈ s.gouts, x.eng ≠ e) → s.gqOf e = [] →
    exec (.gatherStep e) s = .next s) ∧
  (∀ (e : Fin 16) (s w : State) (x : Contrib) (l : List Contrib) (b c : Bin), s.up .GTH (e / 8) = true →
    (∀ x ∈ s.gouts, x.eng ≠ e) → s.gqOf e = x :: l → s.binOf x.grp x.n = some b →
    c = { b with
      done := setBit x.c b.done
      acc := (s.setGq e l).reduce x.grp b.eng b.bank x.c ((s.setGq e l).frameBytes x.handle x.pay (gPLEN s x.grp)) b.acc } →
    w = ((s.setGq e l).setBin c).drop1 x.handle → w.binOf x.grp x.n = some c →
    exec (.gatherStep e) s = .next (if w.binDue c then w.binEmit c {} else w)) ∧
  (∀ (b : Bin) (s : State), s.binDue b = true ↔ (b.emitted = false ∧ b.lost = false ∧ b.claims = b.done ∧
    (b.fired = true ∨ b.claims = s.rd (.gth .GRP_EXPECT) b.grp))) ∧
  -- a deadline: FLOOR passes the bin; one never opened is emitted empty where EMIT_EMPTY says so
  (∀ (g : Fin 512) (n : Nat) (s w : State), s.up .GTH (g / 256) = true → (gState s g = gRUN ∨ gState s g = gDRAIN) →
    n = s.rd (.gth .GRP_FLOOR) g → w = s.passBell (of96 (gDeadline s g n)) →
    exec (.binDeadline g) s = .next ((w.wr (.gth .GRP_FLOOR) g (n + 1)).binFire g n)) ∧
  (∀ (g : Fin 512) (s : State), s.up .GTH (g / 256) = true → (gState s g ≠ gRUN ∧ gState s g ≠ gDRAIN) →
    exec (.binDeadline g) s = .next s) ∧
  (∀ (g n : Nat) (s : State), s.binOf g n = none → s.on (.gth .GRP_EMIT_EMPTY) g = false → s.binFire g n = s) ∧
  (∀ (g n : Nat) (b : Bin) (s : State), s.binOf g n = some b → b.emitted = false → b.lost = false → b.claims = b.done →
    s.binFire g n = (s.setBin { b with fired := true }).binEmit { b with fired := true } {}) ∧
  (∀ (g n : Nat) (s : State), gDeadline s g n =
    gT0 s g + (n + 1) * gBPER s g + s.rd (.gth .GRP_DL_OFS) g * 65536) ∧
  -- an output whose buffers are still denied after 10 µs is lost
  (∀ (e : Fin 16) (s : State), s.up .GTH (e / 8) = true → (∀ x ∈ s.gouts, x.eng ≠ e) →
    exec (.outputAllocTimeout e) s = .next s) ∧
  (∀ (e : Fin 16) (s w : State) (x : GOut) (b : Bool), s.up .GTH (e / 8) = true →
    s.gouts.find? (fun y => y.eng == e.val) = some x → { s with gouts := s.gouts.erase x }.goutTry x = (b, w) →
    exec (.outputAllocTimeout e) s = .next (if b then w else w.count (.gth .GCNT_BIN_LOST) x.grp)) ∧
  -- RELIVE: the bits of serving engines that are usable return to ENG_LIVE
  (∀ (r : Req) (g : Fin 512) (m : BitVec 8) (s : State), Reaches s r .GTH (g / 256) →
    s.rd (.gth .GRP_ENG_LIVE) g < 2 ^ 8 →
    ∃ u : State, exec (.reliveWrite r g m) s = .next u.ok ∧ (∀ j, j < 8 → (bit j (u.rd (.gth .GRP_ENG_LIVE) g) = true ↔
      (bit j (s.rd (.gth .GRP_ENG_LIVE) g) = true ∨ (bit j m.toNat = true ∧ bit j (s.rd (.gth .GRP_ENG_MASK) g) = true ∧
        s.engTakes (8 * (g / 256) + j) = true)))) ∧ Frame s u [(.gth .GRP_ENG_LIVE, g)] [])

/-- R389-R407: the commands of the twin link, the tracker and the swap, and STREAM_RESET_TIMEOUT. Readings of the model: log
entry 56. -/
def Obligations.TwinLinkCompletes : Prop :=
  -- HELLO every 1 ms; in SOLO nothing
  (∀ s w : State, s.isTwin = true → s.twLanes = true → w = s.passAge (s.h .twHelloAt) →
    exec .twinHelloSend s = .next (((w.twSend 0x10 (beBytes 1 (w.rd (.twn .CFG_TWIN_ID) 0) ++ beBytes 1 w.role ++
      beBytes 2 (w.rd (.twn .STATUS_ROLE_GEN) 0) ++ beBytes 1 (w.rd (.bell .CTL_CYCLE) 0) ++ beBytes 1 w.trk ++
      beBytes 1 (if w.h .relinq = 0 then 0 else 1))).setH .relinq 0 (w.h .relinq - 1)).setH .twHelloAt 0
        (w.age + msTicks 1))) ∧
  (∀ (h : TwHdr) (b : TwHello) (s : State), s.isTwin = false →
    exec .twinHelloSend s = .next s ∧ exec (.twinHelloReceive h b) s = .next s ∧ exec .twinLinkTimeout s = .next s) ∧
  -- a bad message is counted; the second copy of one is discarded
  (∀ (h : TwHdr) (b : TwHello) (s : State), s.isTwin = true → s.twLaneRun h.lane = true → h.bad = true →
    exec (.twinHelloReceive h b) s = .next (s.count (.twn .CNT_RX_BAD) 0)) ∧
  (∀ (h : TwHdr) (b : TwHello) (s : State), s.isTwin = true → s.twLaneRun h.lane = true → h.bad = false →
    s.h .twSeen 0x10 = h.seq.toNat + 1 → exec (.twinHelloReceive h b) s = .next s) ∧
  -- HELLO of the other twin: UP, TWN.LINK_UP; of the own TWIN_ID: the link stays in HELLO with CFG_MISMATCH
  (∀ (h : TwHdr) (b : TwHello) (s : State), TwinTakes s 0x10 h →
    ∃ u : State, exec (.twinHelloReceive h b) s = .next u ∧
      (b.twin.val ≠ s.rd (.twn .CFG_TWIN_ID) 0 → u.twUp = true ∧ u.h .twHeard = u.age) ∧
      (b.twin.val = s.rd (.twn .CFG_TWIN_ID) 0 → u.rd (.twn .STATUS_LINK) 0 = 1 ∧ u.rd (.twn .STATUS_CFG_MISMATCH) 0 = 1) ∧
      u.rd (.twn .STATUS_PEER_ROLE) 0 = b.role) ∧
  -- no HELLO within TMO: DOWN, and the standby's tracker in ORPHAN
  (∀ s : State, s.isTwin = true → s.rd (.twn .STATUS_LINK) 0 ≠ 0 →
    ∃ u : State, exec .twinLinkTimeout s = .next u ∧ u.rd (.twn .STATUS_LINK) 0 = 0 ∧
      (s.standby = true → u.trk = tkORPHAN) ∧ u.role = s.role) ∧
  (∀ s : State, s.isTwin = true → s.rd (.twn .STATUS_LINK) 0 = 0 → exec .twinLinkTimeout s = .next s) ∧
  (∀ s : State, s.domOn .bell = true → s.h .noActAt ≠ 0 → exec .noActive s =
    .next ((fun w : State => w.setH .noActAt 0 (w.age + ticksPerSec))
      ((s.passAge (s.h .noActAt)).raise .TWN_NO_ACTIVE locBell))) ∧
  -- STATE: the standby holds the last one received
  (∀ (h : TwHdr) (b : BitVec 832) (s : State), TwinTakes s 0x11 h → s.standby = true →
    exec (.twinStateReceive h b) s = .next ((s.setH .twSeen 0x11 (h.seq.toNat + 1)).stateTake b)) ∧
  (∀ (h : TwHdr) (b : BitVec 832) (s : State), TwinTakes s 0x11 h → s.standby = false →
    exec (.twinStateReceive h b) s = .next (s.setH .twSeen 0x11 (h.seq.toNat + 1))) ∧
  (∀ (b : BitVec 832) (s : State), (s.stateTake b).rd (.twn .COPY) 0 = leNat (beBytes 104 b.toNat)) ∧
  -- PHASE exchanges: OFS = ((t4 − t3) − (t2 − t1)) / 2 − TW_ASYM
  (∀ (x : StampOut) (k : Nat) (s w : State), s.isTwin = true → s.standby = true → s.twUp = true → s.twLanes = true →
    w = s.passAge (s.h .twReqAt) → k = w.twLaneUse →
    ∃ u : State, exec (.twinPhaseReqSend x) s = .next u ∧ u.h .twT1 = w.twTxStamp k x ∧
      u.h .twT1Ok = w.h .twSeq 0x12 + 1 ∧ u.h .twLane = k ∧ u.h .twReqAt = w.age + msTicks 1) ∧
  (∀ (x : StampOut) (s : State), (s.standby = false ∨ s.twUp = false) → exec (.twinPhaseReqSend x) s = .next s) ∧
  (∀ (h : TwHdr) (x : StampIn) (y : StampOut) (k : Nat) (s w : State), TwinTakes s 0x12 h → s.role = twACTIVE →
    k = h.lane → w = s.setH .twSeen 0x12 (h.seq.toNat + 1) →
    exec (.twinPhaseReqReceive h x y) s = .next (w.twSend 0x13 (beBytes 12 (of96 (w.twRxStamp k x)) ++
      beBytes 12 (of96 (w.twTxStamp k y))) (w.laneVoid (72 + k)))) ∧
  (∀ (h : TwHdr) (x : StampIn) (t2 t3 : BitVec 96) (s w : State), TwinTakes s 0x13 h → s.standby = true →
    s.twUp = true → s.h .twT1Ok ≠ 0 → h.lane.val = s.h .twLane → s.h .twT1Bad = 0 → s.caution = false →
    s.laneVoid (72 + h.lane.val) = false → h.flags.toNat % 4 = 0 →
    w = (s.setH .twSeen 0x13 (h.seq.toNat + 1)).setH .twT1Ok 0 0 →
    exec (.twinPhaseRespReceive h x t2 t3) s =
      .next (w.trkExchange h.lane (s.h .twT1 : Nat) (u96 t2.toNat : Nat) (u96 t3.toNat : Nat) (w.twRxStamp h.lane x : Nat))) ∧
  (∀ (lane : Nat) (t1 t2 t3 t4 x : Int) (s : State), s.twMismatch = false →
    x = divRound ((t4 - t3) - (t2 - t1)) 2 - s.rdS (.twn .TW_ASYM) lane →
    (s.verdict x t4.toNat = .disc → s.trkExchange lane t1 t2 t3 t4 = s) ∧
    (s.verdict x t4.toNat = .ref → s.trkExchange lane t1 t2 t3 t4 = s.jumpRefuse x)) ∧
  (∀ (lane : Nat) (t1 t2 t3 t4 : Int) (s : State), s.twMismatch = true → s.trkExchange lane t1 t2 t3 t4 = s) ∧
  -- swap
  (∀ (r : Req) (s : State), Reaches s r .TWN 0 →
    (s.twUp = false ∨ s.isTwin = false ∨ u96 (s.rd (.twn .SWAP_T) 0) * 5 < tickQ (s.now + msTicks 2)) →
    exec (.twnSwapGo r) s = .next ((s.wr (.twn .CTL_SWAP_FAIL) 0 1).setH .swapPend 0 0).ok) ∧
  (∀ (r : Req) (s w : State), Reaches s r .TWN 0 → s.twUp = true → s.isTwin = true →
    tickQ (s.now + msTicks 2) ≤ u96 (s.rd (.twn .SWAP_T) 0) * 5 →
    w = s.twSend 0x14 (beBytes 12 (s.rd (.twn .SWAP_T) 0) ++ beBytes 2 (s.rd (.twn .STATUS_ROLE_GEN) 0)) →
    exec (.twnSwapGo r) s = .next ((w.setH .swapPend 0 1).setH .swapAt 0 (w.age + msTicks 1)).ok) ∧
  (∀ (h : TwHdr) (t : BitVec 96) (g : BitVec 16) (s w : State), TwinTakes s 0x14 h →
    w = s.setH .twSeen 0x14 (h.seq.toNat + 1) → w.pairAligned = false →
    exec (.twinSwapReceive h t g) s = .next (w.twSend 0x15 (beBytes 1 0))) ∧
  (∀ (h : TwHdr) (t : BitVec 96) (g : BitVec 16) (s w : State), TwinTakes s 0x14 h →
    w = s.setH .twSeen 0x14 (h.seq.toNat + 1) → w.pairAligned = true → w.twUp = true → w.cstate = 0 → w.tOk t.toNat = true →
    exec (.twinSwapReceive h t g) s = .next ((w.twSend 0x15 (beBytes 1 3)).swapArm t.toNat)) ∧
  (∀ (h : TwHdr) (a b : Bool) (s w : State), TwinTakes s 0x15 h → w = s.setH .twSeen 0x15 (h.seq.toNat + 1) →
    (w.h .swapPend = 0 → exec (.twinSwapAckReceive h a b) s = .next w) ∧
    (w.h .swapPend ≠ 0 → a = true → b = true →
      exec (.twinSwapAckReceive h a b) s = .next ((w.setH .swapPend 0 0).swapArm (w.rd (.twn .SWAP_T) 0))) ∧
    (w.h .swapPend ≠ 0 → (a = false ∨ b = false) →
      exec (.twinSwapAckReceive h a b) s = .next ((w.wr (.twn .CTL_SWAP_FAIL) 0 1).setH .swapPend 0 0))) ∧
  (∀ s : State, s.domOn .bell = true → s.h .swapPend ≠ 0 →
    exec .swapAckTimeout s = .next (((s.passAge (s.h .swapAt)).wr (.twn .CTL_SWAP_FAIL) 0 1).setH .swapPend 0 0)) ∧
  (∀ s : State, s.domOn .bell = true → s.h .swapPend = 0 → exec .swapAckTimeout s = .next s) ∧
  -- the recovery history of a stream resets after RESET_MS without a frame
  (∀ (k : Fin 256) (s : State), s.up .STRM k = true → s.h .strmTake k ≠ 0 →
    exec (.streamResetTimeout k) s = .next ((((s.passAge (s.h .strmAt k + msTicks (s.rd (.twn .STRM_RESET_MS) k))).setH
      .strmTake k 0).setH .strmHist k 0).count (.twn .SCNT_RESETS) k)) ∧
  (∀ (k : Fin 256) (s : State), s.up .STRM k = true → s.h .strmTake k = 0 → exec (.streamResetTimeout k) s = .next s)

/-- R410-R415: SNAP_SAVE, SNAP_RESTORE, SNAP_DONE, and the in-band messages of Table 12.5 at a node. Readings of the model:
log entries 19, 56, 62, 86. -/
def Obligations.SnapshotsAndTreesComplete : Prop :=
  (∀ (r : Req) (s : State), Reaches s r .TWN 0 → s.fwRuns = true → s.on (.twn .SNAP_STAT_BUSY) 0 = false →
    exec (.snapSave r) s = .next (((s.wr (.twn .SNAP_STAT_BUSY) 0 1).setH .snapOp 0 1).setH .snapStale 0 0).ok) ∧
  (∀ (r : Req) (s : State), Reaches s r .TWN 0 → s.fwRuns = true → s.on (.twn .SNAP_STAT_BUSY) 0 = true →
    exec (.snapSave r) s = .next s.ok ∧ exec (.snapRestore r) s = .next s.ok) ∧
  -- a bad header or CRC writes nothing
  (∀ (r : Req) (n : Nat) (s : State), Reaches s r .TWN 0 → s.fwRuns = true → s.on (.twn .SNAP_STAT_BUSY) 0 = false →
    n = leNat ((s.snapRead 8).drop 4) → snapGood (s.snapRead n) n = false →
    exec (.snapRestore r) s = .next ((s.wr (.twn .SNAP_STAT_BUSY) 0 1).setH .snapOp 0 3).ok) ∧
  (∀ (r : Req) (n : Nat) (s w : State), Reaches s r .TWN 0 → s.fwRuns = true → s.on (.twn .SNAP_STAT_BUSY) 0 = false →
    n = leNat ((s.snapRead 8).drop 4) → snapGood (s.snapRead n) n = true →
    w = (s.wr (.twn .SNAP_STAT_BUSY) 0 1).snapRecords ((s.snapRead n).drop 32) ((n - 32) / 12) →
    w.rd (.glb .COMMIT_PEND) 0 = 0 →
    exec (.snapRestore r) s = .next (({ w with resp := s.resp } : State).setH .snapOp 0 2).ok) ∧
  -- the end: OK, STALE, NO_SPACE, BAD_CRC
  (∀ s : State, s.up .TWN 0 = true → s.fwRuns = true → s.on (.twn .SNAP_STAT_BUSY) 0 = true →
    ∃ u : State, exec .snapDone s = .next u ∧ u.rd (.twn .SNAP_STAT_BUSY) 0 = 0 ∧
      (s.h .snapOp = 3 → u.rd (.twn .SNAP_STAT_CODE) 0 = 2) ∧ (s.h .snapOp = 2 → u.rd (.twn .SNAP_STAT_CODE) 0 = 0) ∧
      (s.h .snapOp = 1 → s.h .snapStale = 1 → u.rd (.twn .SNAP_STAT_CODE) 0 = 1) ∧
      (s.h .snapOp = 1 → s.h .snapStale ≠ 1 →
        s.snapRoom (s.snapBytes (s.rd (.twn .SNAP_CMD_SNAP_SEL) 0)).length = false → u.rd (.twn .SNAP_STAT_CODE) 0 = 3) ∧
      (s.h .snapOp = 1 → s.h .snapStale ≠ 1 →
        s.snapRoom (s.snapBytes (s.rd (.twn .SNAP_CMD_SNAP_SEL) 0)).length = true → u.rd (.twn .SNAP_STAT_CODE) 0 = 0 ∧
        u.rd (.twn .SNAP_LEN) 0 = (s.snapBytes (s.rd (.twn .SNAP_CMD_SNAP_SEL) 0)).length % 2 ^ 32)) ∧
  (∀ s : State, s.up .TWN 0 = true → s.on (.twn .SNAP_STAT_BUSY) 0 = false → exec .snapDone s = .next s) ∧
  -- HELLO once a second
  (∀ s : State, s.up .TWN 0 = true → s.fwRuns = true → s.inbandOn = true → exec .treeHelloSend s = .next s.treHello) ∧
  (∀ s : State, s.inbandOn = false → exec .treeHelloSend s = .next s) ∧
  (∀ (p : Fin 72) (h : TreHdr) (n : BitVec 16) (ro d : BitVec 8) (s w : State), TreeTakes s p h →
    w = (match s.hq 16 with | [] => s | c :: l => (s.setHq 16 l).drop1 c.handle) → s.treUp p = true →
    w.rd (.twn .TRE_UP_PORT) 0 = s.rd (.twn .TRE_UP_PORT) 0 →
    exec (.treeHelloReceive p h n ro d) s =
      .next ((w.setH .treDepth 0 (d.toNat + 1)).wr (.twn .TRE_TOO_DEEP) 0 (if 16 < d.toNat + 1 then 1 else 0))) ∧
  -- HOPS 0, a bad header, a port that is neither UP_PORT nor of DOWN_MASK, a source that is not the manager: dropped
  (∀ (p : Fin 72) (h : TreHdr) (k : State → State) (s w : State), s.up .TWN 0 = true → s.treLive p = true →
    (h.bad = true ∨ h.hops.toNat = 0) →
    w = (match s.hq 16 with | [] => s | c :: l => (s.setHq 16 l).drop1 c.handle) →
    s.treTake p h k = w.count (.twn .TRE_DROP) 0) ∧
  (∀ (p : Fin 72) (h : TreHdr) (cls : Nat) (body : List Byte) (act : State → State) (s w : State), TreeTakes s p h →
    w = (match s.hq 16 with | [] => s | c :: l => (s.setHq 16 l).drop1 c.handle) →
    (w.treUp p = false → s.treFromAbove p h cls body act = w.count (.twn .TRE_DROP) 0) ∧
    -- for this node alone: obeyed, not relayed
    (w.treUp p = true → w.on (.twn .TRE_TOO_DEEP) 0 = false → h.src.toNat = w.rd (.twn .TRE_MGR_NODE) 0 →
      h.dst.toNat = w.rd (.twn .TRE_NODE) 0 → s.treFromAbove p h cls body act = act w) ∧
    -- for another node, with hops left: relayed with HOPS − 1 on every port of DOWN_MASK
    (w.treUp p = true → w.on (.twn .TRE_TOO_DEEP) 0 = false → h.dst.toNat ≠ w.rd (.twn .TRE_NODE) 0 → h.dst.toNat ≠ 0xFFFF →
      2 ≤ h.hops.toNat → s.treFromAbove p h cls body act = w.treRelay w.downPorts h cls body)) ∧
  (∀ (p : Fin 72) (h : TreHdr) (a : BitVec 32) (wr : Bool) (n : BitVec 8) (ws : List (BitVec 32)) (s : State),
    exec (.treeRegReceive p h a wr n ws) s = .next (s.treFromAbove p h 0x02
      (beBytes 4 a.toNat ++ beBytes 1 n.toNat ++ beBytes 1 wr.toNat ++ ws.flatMap (fun w => beBytes 4 w.toNat))
      (fun x => if x.on (.twn .TRE_REG_EN) 0 then x.treReg a.toNat wr n.toNat ws else x))) ∧
  (∀ (p : Fin 72) (h : TreHdr) (t : BitVec 96) (g : BitVec 16) (rb : Bool) (s : State),
    exec (.treeCommitReceive p h t g rb) s = .next (s.treFromAbove p h 0x03
      (beBytes 12 t.toNat ++ beBytes 2 g.toNat ++ beBytes 1 rb.toNat) (fun x => x.treCommit t.toNat g.toNat rb))) ∧
  -- the worker's answer: BUSY, EMPTY, RANGE; armed, its own GEN + 1 at T
  (∀ (t g : Nat) (s : State),
    (s.cstate ≠ 0 → s.treCommit t g false = s.treReport g 2 0) ∧
    (s.cstate = 0 → s.rd (.glb .COMMIT_PEND) 0 = 0 → s.treCommit t g false = s.treReport g 3 0) ∧
    (s.cstate = 0 → s.rd (.glb .COMMIT_PEND) 0 ≠ 0 → s.timeQ + tickQ (86400 * ticksPerSec) < u96 t * 5 →
      s.treCommit t g false = s.treReport g 4 0) ∧
    (∀ w : State, s.cstate = 0 → s.rd (.glb .COMMIT_PEND) 0 ≠ 0 → s.timeQ + tickQ (usTicks 10) ≤ u96 t * 5 →
      u96 t * 5 ≤ s.timeQ + tickQ (86400 * ticksPerSec) → w = s.doCommit ((s.rd (.glb .DEV_GEN) 0 + 1) % 65536) t →
      w.cstate = 1 → s.treCommit t g false = (w.setH .treRep 0 (1 + g)).treReport g 0 0)) ∧
  -- upward classes are relayed to UP_PORT
  (∀ (p : Fin 72) (h : TreHdr) (cls : Nat) (body : List Byte) (s w : State), TreeTakes s p h →
    w = (match s.hq 16 with | [] => s | c :: l => (s.setHq 16 l).drop1 c.handle) →
    (w.treDown p = false → s.treFromBelow p h cls body = w.count (.twn .TRE_DROP) 0) ∧
    (w.treDown p = true → h.dst.toNat ≠ w.rd (.twn .TRE_NODE) 0 → 2 ≤ h.hops.toNat → w.treTop = false →
      w.rd (.twn .TRE_UP_PORT) 0 < 72 → w.up .PORT (w.rd (.twn .TRE_UP_PORT) 0) = true →
      s.treFromBelow p h cls body = w.treRelay [w.rd (.twn .TRE_UP_PORT) 0] h cls body) ∧
    (w.treDown p = true → h.dst.toNat = w.rd (.twn .TRE_NODE) 0 → s.treFromBelow p h cls body = w)) ∧
  (∀ (p : Fin 72) (h : TreHdr) (tg g : BitVec 16) (c sp : BitVec 8) (s : State),
    exec (.treeReportReceive p h tg g c sp) s = .next (s.treFromBelow p h 0x04
      (beBytes 2 tg.toNat ++ beBytes 2 g.toNat ++ beBytes 1 c.toNat ++ beBytes 1 sp.toNat))) ∧
  (∀ (p : Fin 72) (h : TreHdr) (n : BitVec 64) (m : BitVec 8) (l : List Byte) (s : State),
    exec (.treeRecordReceive p h (.ask n m)) s = .next (s.treFromAbove p h 0x06 (beBytes 8 n.toNat ++ beBytes 1 m.toNat)
      (fun x => x.treRecords n.toNat m.toNat)) ∧
    exec (.treeRecordReceive p h (.give l)) s = .next (s.treFromBelow p h 0x06 l)) ∧
  (∀ (p : Fin 72) (h : TreHdr) (id : BitVec 64) (tot ofs : BitVec 32) (l : List Byte) (s : State),
    exec (.treeImageReceive p h id tot ofs l) s = .next (s.treFromAbove p h 0x07
      (beBytes 8 id.toNat ++ beBytes 4 tot.toNat ++ beBytes 4 ofs.toNat ++ l)
      (fun x => x.treImage id.toNat tot.toNat ofs.toNat l))) ∧
  -- a block out of order is dropped, and the octets in order acknowledged
  (∀ (id tot ofs : Nat) (l : List Byte) (s : State), s.h .treImgTot ≠ 0 → s.h .treImgId = id → ofs ≠ s.h .treImgOfs →
    s.treImage id tot ofs l = s.treAck id (s.h .treImgOfs) 0) ∧
  (∀ (p : Fin 72) (h : TreHdr) (id : BitVec 64) (up : BitVec 32) (c : BitVec 8) (s : State),
    exec (.treeImageAckReceive p h id up c) s = .next (s.treFromBelow p h 0x08
      (beBytes 8 id.toNat ++ beBytes 4 up.toNat ++ beBytes 1 c.toNat)))

/-- R432, R440-R446: the commands the Reeve posts, WGH_HOST_WRITE, and what ends an installation and a verification.
Readings of the model: log entries 57, 63. -/
def Obligations.WeighhouseCommandsComplete : Prop :=
  -- CONFIG: taken at once by a slot that does not run, at the next result boundary by one that does; else BAD_ARG
  (∀ (k : Fin 4) (q : BitVec 16) (l : List (BitVec 32)) (a : Nat → Nat) (c : WCfg) (s : State), WghTakes s →
    a = (fun i => ((l.take 15).map (fun w => w.toNat)).getD (i - 1) 0) →
    c = { type := a 1, a := a 2, b := a 3, psA := bits 0 2 (a 4), psB := bits 2 2 (a 4), mode := a 5,
          gate := a 6, ivMax := a 7, countN := a 8 } →
    (c.ok = true → s.wrunState k = 0 →
      exec (.wghConfig k q l) s = .next ((s.wcfgSet k c).wghRsp q.toNat 0 0).ok) ∧
    (c.ok = true → s.wrunState k = 1 →
      exec (.wghConfig k q l) s = .next ((s.setWslot k { s.wslot k with next := some c }).wghRsp q.toNat 0 0).ok) ∧
    (c.ok = false → s.wrunState k ≠ 2 → exec (.wghConfig k q l) s = .next (s.wghRsp q.toNat 2 0).ok)) ∧
  -- what Table 13.3, R430 and R431 ask of a configuration
  (∀ c : WCfg, c.ok = true ↔ c.type ≤ 3 ∧ c.a ≤ 7 ∧ c.b ≤ 7 ∧ c.psA ≤ 2 ∧ c.psB ≤ 2 ∧ c.mode ≤ 1 ∧
    (1 ≤ c.gate ∧ c.gate ≤ 10000) ∧ (1 ≤ c.ivMax ∧ c.ivMax ≤ 10000000) ∧
    ((c.type = 0 ∨ c.type = 3) → c.psA = 0 ∧ c.psB = 0) ∧ (c.type = 0 → c.a ≠ c.b) ∧ (c.type = 3 → c.a = 4)) ∧
  -- RUN and STOP
  (∀ (k : Fin 4) (q : BitVec 16) (s : State), WghTakes s → s.wrunState k = 0 → (s.wcfg k).ok = true →
    ∃ u : State, exec (.wghRun k q) s = .next u ∧ u.wrunState k = 1 ∧ u.rd (.wgh .SLOT_MADE) k = 0 ∧
      (u.wslot k).opened = none ∧ (u.wslot k).stop = false ∧ u.rd (.wgh .RSP_CODE) 0 = 0 ∧
      u.rd (.wgh .RSP_SEQ) 0 = q.toNat) ∧
  (∀ (k : Fin 4) (q : BitVec 16) (s : State), WghTakes s → s.wrunState k = 1 → (s.wslot k).opened ≠ none →
    exec (.wghStop k q) s = .next ((s.setWslot k { s.wslot k with stop := true }).wghRsp q.toNat 0 0).ok) ∧
  (∀ (k : Fin 4) (q : BitVec 16) (s : State), WghTakes s → s.wrunState k = 1 → (s.wslot k).opened = none →
    (s.wslot k).waits = [] → exec (.wghStop k q) s = .next ((s.whalt k).wghRsp q.toNat 0 0).ok) ∧
  -- a slot that the survey holds answers BUSY
  (∀ (k : Fin 4) (q : BitVec 16) (l : List (BitVec 32)) (s : State), WghTakes s → s.wrunState k = 2 →
    exec (.wghConfig k q l) s = .next (s.wghRsp q.toNat 1 0).ok ∧
    exec (.wghRun k q) s = .next (s.wghRsp q.toNat 1 0).ok ∧
    exec (.wghStop k q) s = .next (s.wghRsp q.toNat 1 0).ok) ∧
  -- SET_PARAM
  (∀ (q : BitVec 16) (i v0 v1 v2 v3 : BitVec 32) (id v : Nat) (s : State), WghTakes s → id = i.toNat →
    v = v0.toNat + 2 ^ 32 * v1.toNat + 2 ^ 64 * v2.toNat + 2 ^ 96 * v3.toNat →
    (s.lc = 3 → exec (.wghSetParam q [i, v0, v1, v2, v3]) s = .next ((s.sealAttempt id .reeve).wghRsp q.toNat 3 0).ok) ∧
    (s.lc ≠ 3 → s.mode ≠ modeService → exec (.wghSetParam q [i, v0, v1, v2, v3]) s = .next (s.wghRsp q.toNat 4 0).ok) ∧
    (s.lc ≠ 3 → s.mode = modeService → paramOk id v = false →
      exec (.wghSetParam q [i, v0, v1, v2, v3]) s = .next (s.wghRsp q.toNat 2 0).ok) ∧
    (s.lc ≠ 3 → s.mode = modeService → paramOk id v = true → 1024 ≤ s.rd (.wgh .EVCNT) 0 →
      exec (.wghSetParam q [i, v0, v1, v2, v3]) s = .next (s.wghRsp q.toNat 6 0).ok) ∧
    (s.lc ≠ 3 → s.mode = modeService → paramOk id v = true → s.rd (.wgh .EVCNT) 0 < 1024 →
      exec (.wghSetParam q [i, v0, v1, v2, v3]) s =
        .next (((((s.paramSet id v).wghEvent 2 id).raise .WGH_PARAM_CHANGED locWgh).wghRsp q.toNat 0 0).ok))) ∧
  -- an event is counted once; an attempt on a sealed setting too
  (∀ (kind id : Nat) (s : State), s.rd (.wgh .EVCNT) 0 < 1024 →
    (s.wghEvent kind id).rd (.wgh .EVCNT) 0 = s.rd (.wgh .EVCNT) 0 + 1) ∧
  (∀ (what : Nat) (r : Req) (s : State), s.rd (.wgh .ATTEMPT) 0 < 2 ^ 32 - 1 →
    (s.sealAttempt what r).rd (.wgh .ATTEMPT) 0 = s.rd (.wgh .ATTEMPT) 0 + 1) ∧
  -- IMAGE_INSTALL
  (∀ (q : BitVec 16) (n : BitVec 32) (s : State), WghTakes s → s.mode ≠ modeService →
    exec (.wghImageInstall q n) s = .next (s.wghRsp q.toNat 4 0).ok) ∧
  (∀ (q : BitVec 16) (n : BitVec 32) (s : State), WghTakes s → s.mode = modeService → 1024 ≤ s.rd (.wgh .EVCNT) 0 →
    exec (.wghImageInstall q n) s = .next (s.wghRsp q.toNat 6 0).ok) ∧
  (∀ (q : BitVec 16) (n : BitVec 32) (s : State), WghTakes s → s.mode = modeService → s.rd (.wgh .EVCNT) 0 < 1024 →
    n.toNat ≤ 0x40000 → imgCLASS (s.wghStaged n.toNat) = 3 → s.imgCode (s.wghStaged n.toNat) = 0 →
    exec (.wghImageInstall q n) s = .next
      ((((s.setH .wRun 0 5).setH .wRunLen 0 n.toNat).setH .wRunSeq 0 q.toNat).wghRsp q.toNat 7 0).ok) ∧
  (∀ (q : BitVec 16) (n : BitVec 32) (c : Nat) (s : State), WghTakes s → s.mode = modeService →
    s.rd (.wgh .EVCNT) 0 < 1024 → n.toNat ≤ 0x40000 → imgCLASS (s.wghStaged n.toNat) = 3 →
    s.imgCode (s.wghStaged n.toNat) = c → c ≠ 0 →
    exec (.wghImageInstall q n) s = .next ((s.imgRefused c (s.wghStaged n.toNat) .rom).wghRsp q.toNat 5 c).ok) ∧
  (∀ s : State, s.wghOn = true → s.h .wRun = 5 → s.rd (.wgh .EVCNT) 0 < 1024 →
    ∃ u : State, exec .wghImageInstalled s = .next u ∧ u.rd (.wgh .EVCNT) 0 = s.rd (.wgh .EVCNT) 0 + 1 ∧
      u.h .wArb = max (s.h .wArb) (imgSEC_VER (s.wghStaged (s.h .wRunLen))) ∧ u.h .wRun = 0 ∧ u.wqueue = [] ∧
      u.rd (.wgh .RSP_CODE) 0 = 0 ∧ u.on (.wgh .STATUS_BUSY) 0 = false) ∧
  (∀ s : State, s.wghOn = true → s.h .wRun ≠ 5 → exec .wghImageInstalled s = .next s) ∧
  -- VERIFY: in SERVICE while every slot is stopped
  (∀ (q : BitVec 16) (l : List (BitVec 32)) (s : State), WghTakes s → s.mode ≠ modeService →
    exec (.wghVerify q l) s = .next (s.wghRsp q.toNat 4 0).ok) ∧
  (∀ (q : BitVec 16) (l : List (BitVec 32)) (s : State), WghTakes s → s.mode = modeService →
    (∀ k, k < 4 → s.wrunState k = 0) →
    exec (.wghVerify q l) s = .next (((s.setH .wRun 0 6).setH .wRunSeq 0 q.toNat).wghRsp q.toNat 7 0).ok) ∧
  (∀ (q : BitVec 16) (l : List (BitVec 32)) (k : Nat) (s : State), WghTakes s → s.mode = modeService → k < 4 →
    s.wrunState k ≠ 0 → exec (.wghVerify q l) s = .next (s.wghRsp q.toNat 1 0).ok) ∧
  (∀ (f : Fin 32) (s : State), s.wghOn = true → s.h .wRun = 6 → s.wqueue.length < 32 →
    ∃ u : State, exec (.wghVerifyDone f) s = .next u ∧ u.wqueue.length = s.wqueue.length + 1 ∧ u.h .wRun = 0 ∧
      u.rd (.wgh .RSP_CODE) 0 = 0 ∧ u.on (.wgh .STATUS_BUSY) 0 = false) ∧
  (∀ (f : Fin 32) (s : State), s.wghOn = true → s.h .wRun ≠ 6 → exec (.wghVerifyDone f) s = .next s) ∧
  -- READ_ID
  (∀ (q : BitVec 16) (s : State), WghTakes s → exec (.wghReadId q) s = .next ((s.wghRsp q.toNat 0 0
    (s.rd (.wgh .EVCNT) 0 + 2 ^ 32 * s.rd (.wgh .KEY_ID) 0 + 2 ^ 96 * trunc 128 (s.rd (.wgh .FW_ID) 0)))).ok) ∧
  -- BUSY: discarded and counted
  (∀ (k : Fin 4) (q : BitVec 16) (l : List (BitVec 32)) (n : BitVec 32) (t : Host.Outcome State Fault Refusal) (s : State),
    Reaches s .reeve .WGH 0 → s.on (.wgh .STATUS_BUSY) 0 = true → t = .next (s.count (.wgh .STATUS_CMD_LOST) 0).ok →
    exec (.wghConfig k q l) s = t ∧ exec (.wghRun k q) s = t ∧ exec (.wghStop k q) s = t ∧
    exec (.wghSetParam q l) s = t ∧ exec (.wghImageInstall q n) s = t ∧ exec (.wghVerify q l) s = t ∧
    exec (.wghReadId q) s = t) ∧
  -- a host's write is ignored and counted
  (∀ (r : Req) (s : State), Reaches s r .WGH 0 → isHost r = true →
    exec (.wghHostWrite r) s = .next (s.count (.wgh .STATUS_HOST_WR) 0).ok)

/-- R422-R438: WEIGHHOUSE_EDGE, INTERPOLATOR_CALIBRATE, OVR_RATE_CLEAR, WGH_INTERVAL_TIMEOUT and RECORD_SIGN. Readings of
the model: log entries 57, 79. -/
def Obligations.WeighhouseMeasures : Prop :=
  -- without the Weighhouse, or from a tap that carries no edges, nothing
  (∀ (e : WEdge) (s : State), s.wghOn = false → exec (.weighhouseEdge e) s = .next s) ∧
  (∀ (e : WEdge) (s : State), s.wghOn = true → 4 ≤ e.src.val → s.domOn .bell = false →
    exec (.weighhouseEdge e) s = .next s) ∧
  (∀ (e : WEdge) (s : State), s.wghOn = true → e.src.val = 5 → (s.outEn 0 = false ∨ s.outSquelched 0 = true) →
    exec (.weighhouseEdge e) s = .next s) ∧
  -- no slot uses the source
  (∀ (e : WEdge) (s : State), s.wghOn = true → s.srcLive e.src = true → e.fast = false →
    (∀ i, i < 4 → s.wuses i e.src = false) → exec (.weighhouseEdge e) s = .next s) ∧
  (∀ (e : WEdge) (s : State), s.wghOn = true → s.srcLive e.src = true → e.fast = true →
    (∀ i, i < 4 → s.wuses i e.src = false) →
    exec (.weighhouseEdge e) s = .next ((s.wr (.wgh .STATUS_OVR_RATE) 0
      (setBit e.src (s.rd (.wgh .STATUS_OVR_RATE) 0))).setH .wOvrAt e.src s.age)) ∧
  -- an INTERVAL slot alone on its sources: the edge is stamped, reaches the slot, and a pair is made
  (∀ (e : WEdge) (k : Nat) (w : WStamp) (s : State), s.wghOn = true → s.srcLive e.src = true → e.fast = false → k < 4 →
    (∀ i, i < 4 → i ≠ k → s.wrunState i = 0) → s.wuses k e.src = true → (s.wcfg k).type = 0 →
    s.wIntervalNeeds k ((s.wcfg k).a != e.src.val) = true → w = s.wghStamp e → s.wghDead w = false →
    exec (.weighhouseEdge e) s = .next (((s.setWlast e.src (some w)).wInterval k ((s.wcfg k).a != e.src.val)
      (some w)).wghPair e.src e.n1.toNat e.n2.toNat)) ∧
  (∀ (e : WEdge) (k : Nat) (w : WStamp) (s : State), s.wghOn = true → s.srcLive e.src = true → e.fast = false → k < 4 →
    (∀ i, i < 4 → i ≠ k → s.wrunState i = 0) → s.wuses k e.src = true → (s.wcfg k).type = 0 →
    s.wIntervalNeeds k ((s.wcfg k).a != e.src.val) = true → w = s.wghStamp e → s.wghDead w = true →
    exec (.weighhouseEdge e) s = .next (s.wInterval k ((s.wcfg k).a != e.src.val) none)) ∧
  -- Table 13.4
  (∀ (k : Nat) (x : WSlot) (w : WStamp) (s : State), s.wslot k = x → x.opened = none →
    s.wInterval k false (some w) = s.wopen k false w ∧
    (s.rd (.wgh .SLOT_MODE) k = 0 → s.wInterval k true (some w) =
      s.setWslot k { x with order := x.order + 1, flags := x.flags ||| 8 }) ∧
    (s.rd (.wgh .SLOT_MODE) k ≠ 0 → s.wInterval k true (some w) = s.wopen k true w)) ∧
  (∀ (k : Nat) (b : Bool) (x : WSlot) (o w : WStamp) (s : State), s.wslot k = x → x.opened = some (b, o) →
    s.wInterval k b (some w) = (s.setWslot k { x with misc := x.misc + 1, flags := x.flags ||| 2048 }).wopen k b w ∧
    (b = false → s.wInterval k true (some w) = s.wclose k o w false) ∧
    (b = true → s.wInterval k false (some w) = s.wclose k w o true) ∧
    s.wInterval k b none = s.setWslot k { x with dead := x.dead + 1, flags := x.flags ||| 16 }) ∧
  -- the timestamp: t = K Tc − τ with τ = Tc (1 + (N − N1) / (N2 − N1)) + c(N)
  (∀ (e : WEdge) (s : State) (n1 n2 : Nat), e.src.val < 4 → n1 = s.h .wN1 e.src → n2 = s.h .wN2 e.src → n1 < n2 →
    (s.wghStamp e).den = (n2 - n1) * 65536 ∧
    (s.wghStamp e).num = ((((e.k.toNat : Int) - 1) * 327680) * 65536 - Config.inl e.src s.hearthTemp e.code.toNat) *
      ((n2 : Int) - n1) - 327680 * 65536 * ((e.code.toNat : Int) - n1)) ∧
  -- a pair within the limits of R428 clears CAL_BAD, one outside sets it; the first raises WGH.CAL_FAULT
  (∀ (k : Fin 8) (a b : BitVec 12) (s w : State), s.wghOn = true → pairOk a.toNat b.toNat = true →
    w = (s.setH .wN1 k a.toNat).setH .wN2 k b.toNat →
    exec (.interpolatorCalibrate k a b) s =
      .next (w.wr (.wgh .STATUS_CAL_BAD) 0 (clrBit k (w.rd (.wgh .STATUS_CAL_BAD) 0)))) ∧
  (∀ (k : Fin 8) (a b : BitVec 12) (s : State), s.wghOn = true → pairOk a.toNat b.toNat = false →
    ∃ u : State, exec (.interpolatorCalibrate k a b) s = .next u ∧ bit k (u.rd (.wgh .STATUS_CAL_BAD) 0) = true ∧
      u.h .wN1 k = a.toNat ∧ u.h .wN2 k = b.toNat) ∧
  (∀ n1 n2 : Nat, pairOk n1 n2 = true ↔ 3800 + n1 ≤ n2 ∧ n2 ≤ 4200 + n1 ∧ 16 ≤ n1 ∧ n1 ≤ 400) ∧
  -- the flag of a source clears 1 ms after it was last over its rate
  (∀ (k : Fin 8) (s w : State), s.wghOn = true → bit k (s.rd (.wgh .STATUS_OVR_RATE) 0) = true →
    w = s.passAge (s.h .wOvrAt k + msTicks 1) →
    exec (.ovrRateClear k) s = .next (w.wr (.wgh .STATUS_OVR_RATE) 0 (clrBit k (s.rd (.wgh .STATUS_OVR_RATE) 0)))) ∧
  (∀ (k : Fin 8) (s : State), s.wghOn = true → bit k (s.rd (.wgh .STATUS_OVR_RATE) 0) = false →
    exec (.ovrRateClear k) s = .next s) ∧
  -- an INTERVAL open longer than IV_MAX is discarded and counted
  (∀ (k : Fin 4) (o : Bool × WStamp) (x : WSlot) (s w : State), s.wghOn = true → s.rd (.wgh .SLOT_TYPE) k = 0 →
    s.wslot k = x → x.opened = some o → x.stop = false →
    w = s.passAge (x.openAt + usTicks (s.rd (.wgh .SLOT_IV_MAX) k) + 1) →
    exec (.wghIntervalTimeout k) s =
      .next (w.setWslot k { x.drop with misc := x.misc + 1, flags := x.flags ||| 512 })) ∧
  (∀ (k : Fin 4) (s : State), s.wghOn = true → s.rd (.wgh .SLOT_TYPE) k = 0 → (s.wslot k).opened = none →
    exec (.wghIntervalTimeout k) s = .next s) ∧
  -- a result: into the queue of 32, or lost and counted
  (∀ (k extra v n : Nat) (a b : Option WStamp) (s : State), k < 4 → s.wqueue.length < 32 → (s.wslot k).stop = false →
    (s.wslot k).next = none → s.rd (.wgh .SLOT_COUNT_N) k = 0 →
    (s.wresult k extra v n a b).wqueue.length = s.wqueue.length + 1 ∧
    ((s.wresult k extra v n a b).wslot k).misc = 0 ∧ (s.wresult k extra v n a b).wrunState k = s.wrunState k) ∧
  (∀ (k extra v n : Nat) (a b : Option WStamp) (s : State), k < 4 → 32 ≤ s.wqueue.length → (s.wslot k).stop = false →
    (s.wslot k).next = none → s.rd (.wgh .SLOT_COUNT_N) k = 0 →
    (s.wresult k extra v n a b).wqueue = s.wqueue ∧
    ((s.wresult k extra v n a b).wslot k).misc = (s.wslot k).misc + 1) ∧
  -- a record is signed: RECNO goes on by 1 and the record lies in slot RECNO mod 256
  (∀ (r : List Byte) (l : List (List Byte)) (n : Nat) (body : List Byte) (s : State), s.wghOn = true → s.wqueue = r :: l →
    n = s.rd (.wgh .HEAD_RECNO) 0 + 1 → n < 2 ^ 64 → body = r.take 12 ++ beBytes 8 n ++ r.drop 20 →
    body.length = 128 →
    ∃ u : State, exec .recordSign s = .next u ∧ u.wqueue = l ∧ u.rd (.wgh .HEAD_RECNO) 0 = n ∧
      u.rd (.wgh .RECORD) (n % 256) = trunc 1536 (leNat (body ++ Config.ecdsaSign body)) ∧
      u.h .wCkpt = (if s.h .wCkpt + 65536 ≤ n then n else s.h .wCkpt)) ∧
  (∀ s : State, s.wghOn = true → s.wqueue = [] → exec .recordSign s = .next s)

/-- R318, R319, R457, R463-R465: the update commands and LOAD_IMAGE, CONFIRM_TIMEOUT. Readings of the model: log entries 58,
59. -/
def Obligations.UpdateCommandsComplete : Prop :=
  -- UPDATE_BEGIN on an EMPTY, BAD or PREVIOUS bank
  (∀ (m : Fin 2) (q : BitVec 16) (b : BitVec 32) (s : State), MailTakes s m → s.mode ≠ modeDormant → b.toNat < 2 →
    (s.bank b.toNat = 0 ∨ s.bank b.toNat = 4 ∨ s.bank b.toNat = 5) →
    ∃ u : State, exec (.updateBegin m q b) s = .next u ∧ Answered u m q.toNat 0 ∧ u.bank b.toNat = 1 ∧
      u.bank (1 - b.toNat) = s.bank (1 - b.toNat) ∧ u.h .bankSrc = m + 1 ∧
      u.h .bankSeq b.toNat = s.h .bankSeq (1 - b.toNat) + 1 ∧
      (∀ a, bankBase b.toNat ≤ a → a < bankBase b.toNat + 4096 → u.byte .flash a = 0) ∧
      (∀ r a, (r = .flash → a < bankBase b.toNat ∨ bankBase b.toNat + 4096 ≤ a) → u.byte r a = s.byte r a)) ∧
  -- it, and the other update commands, refused
  (∀ (m : Fin 2) (q : BitVec 16) (b : BitVec 32) (x : BitVec 64) (l o : BitVec 32) (s : State), MailTakes s m →
    s.mode = modeDormant →
    (∃ u : State, exec (.updateBegin m q b) s = .next u ∧ Answered u m q.toNat 3 ∧ Frame s u (mboxFlds m) []) ∧
    (∃ u : State, exec (.updateWrite m q x l o) s = .next u ∧ Answered u m q.toNat 3 ∧ Frame s u (mboxFlds m) []) ∧
    (∃ u : State, exec (.updateActivate m q) s = .next u ∧ Answered u m q.toNat 3 ∧ Frame s u (mboxFlds m) [])) ∧
  (∀ (m : Fin 2) (q : BitVec 16) (b : BitVec 32) (s : State), MailTakes s m → s.mode ≠ modeDormant → 2 ≤ b.toNat →
    ∃ u : State, exec (.updateBegin m q b) s = .next u ∧ Answered u m q.toNat 2 ∧ Frame s u (mboxFlds m) []) ∧
  (∀ (m : Fin 2) (q : BitVec 16) (b : BitVec 32) (s : State), MailTakes s m → s.mode ≠ modeDormant → b.toNat < 2 →
    (s.bank b.toNat = 1 ∨ s.bank b.toNat = 2 ∨ s.bank b.toNat = 3) →
    ∃ u : State, exec (.updateBegin m q b) s = .next u ∧ Answered u m q.toNat 3 ∧ Frame s u (mboxFlds m) []) ∧
  -- UPDATE_WRITE: host data into the WRITING bank; nothing else of the flash changes
  (∀ (m : Fin 2) (q : BitVec 16) (x : BitVec 64) (l o : BitVec 32) (b : Nat) (s : State), MailTakes s m →
    s.mode ≠ modeDormant → s.writing = some b → s.h .bankSrc = m + 1 → 1 ≤ l.toNat → l.toNat ≤ 2 ^ 20 →
    o.toNat + l.toNat ≤ Config.flashHalf →
    ∃ u : State, exec (.updateWrite m q x l o) s = .next u ∧ Answered u m q.toNat 0 ∧
      (∀ i, i < l.toNat → u.byte .flash (bankBase b + o.toNat + i) = s.byte .host (x.toNat + i)) ∧
      (∀ r a, (r = .flash → a < bankBase b + o.toNat ∨ bankBase b + o.toNat + l.toNat ≤ a) → u.byte r a = s.byte r a) ∧
      (∀ f i, (f, i) ∉ mboxFlds m → u.rd f i = s.rd f i)) ∧
  (∀ (m : Fin 2) (q : BitVec 16) (x : BitVec 64) (l o : BitVec 32) (s : State), MailTakes s m → s.mode ≠ modeDormant →
    (s.writing = none → ∃ u : State, exec (.updateWrite m q x l o) s = .next u ∧ Answered u m q.toNat 3 ∧
      Frame s u (mboxFlds m) []) ∧
    (∀ b, s.writing = some b → s.h .bankSrc ≠ m + 1 → ∃ u : State, exec (.updateWrite m q x l o) s = .next u ∧
      Answered u m q.toNat 1 ∧ Frame s u (mboxFlds m) []) ∧
    (∀ b, s.writing = some b → s.h .bankSrc = m + 1 →
      (l.toNat = 0 ∨ 2 ^ 20 < l.toNat ∨ Config.flashHalf < o.toNat + l.toNat) →
      ∃ u : State, exec (.updateWrite m q x l o) s = .next u ∧ Answered u m q.toNat 2 ∧ Frame s u (mboxFlds m) [])) ∧
  -- UPDATE_ACTIVATE: TRIAL and a warm reset 10 ms later, or IMAGE_REFUSED with the code
  (∀ (m : Fin 2) (q : BitVec 16) (b : Nat) (s : State), MailTakes s m → s.mode ≠ modeDormant → s.writing = some b →
    s.h .bankSrc = m + 1 → s.bankBadImage b = none → s.h .warmAt = 0 → s.on (.ree .LC_ARMED) 0 = false →
    ∃ u : State, exec (.updateActivate m q) s = .next u ∧ Answered u m q.toNat 0 ∧ u.bank b = 2 ∧
      u.rd (.ree .BANK_TRIAL_CNT) 0 = 0 ∧ u.h .warmAt = s.age + msTicks 10 + 1) ∧
  (∀ (m : Fin 2) (q : BitVec 16) (b c : Nat) (l : List Byte) (s : State), MailTakes s m → s.mode ≠ modeDormant →
    s.writing = some b → s.h .bankSrc = m + 1 → s.bankBadImage b = some (c, l) → c < 256 →
    ∃ u : State, exec (.updateActivate m q) s = .next u ∧ Answered u m q.toNat 5 ∧ u.rd (.ree .MBOX_DETAIL) m = c ∧
      u.bank b = 1) ∧
  -- UPDATE_CONFIRM while the trial bank runs: it is ACTIVE, the old ACTIVE is PREVIOUS, no counter falls
  (∀ (m : Fin 2) (q : BitVec 16) (b : Nat) (s : State), MailTakes s m → b = s.booted → s.bank b = 2 → regsFit s.regs = true →
    ∃ u : State, exec (.updateConfirm m q) s = .next u ∧ Answered u m q.toNat 0 ∧ u.bank b = 3 ∧
      (s.bank (1 - b) = 3 → u.bank (1 - b) = 4) ∧ u.h .confirmAt = 0 ∧
      s.rd (.ree .ARB_ENG) 0 ≤ u.rd (.ree .ARB_ENG) 0 ∧ s.rd (.ree .ARB_STG) 0 ≤ u.rd (.ree .ARB_STG) 0 ∧
      s.rd (.ree .ARB_REV) 0 ≤ u.rd (.ree .ARB_REV) 0) ∧
  (∀ (m : Fin 2) (q : BitVec 16) (s : State), MailTakes s m → s.bank s.booted ≠ 2 →
    ∃ u : State, exec (.updateConfirm m q) s = .next u ∧ Answered u m q.toNat 3 ∧ Frame s u (mboxFlds m) []) ∧
  -- CONFIRM_S elapses: the trial bank is BAD and a warm reset follows
  (∀ (b : Nat) (s : State), s.domOn .reeve = true → s.h .confirmAt ≠ 0 → s.rd (.ree .STATUS_RSTATE) 0 = 1 →
    b = s.booted → s.bank b = 2 → s.h .warmAt = 0 → s.h .lcPend = 0 → s.on (.ree .LC_ARMED) 0 = false →
    ∃ u : State, exec .confirmTimeout s = .next u ∧ u.bank b = 5 ∧ u.h .confirmAt = 0 ∧ u.h .warmAt = u.age + 1) ∧
  (∀ s : State, s.domOn .reeve = true → (s.h .confirmAt = 0 ∨ s.bank s.booted ≠ 2) → exec .confirmTimeout s = .next s) ∧
  -- LOAD_IMAGE
  (∀ (m : Fin 2) (q : BitVec 16) (id : BitVec 64) (k : BitVec 32) (e : DirEnt) (l : List Byte) (s : State), MailTakes s m →
    s.mode ≠ modeDormant → s.findImage (fun e => e.id == id.toNat && decide (e.cls ≤ 1)) = some (e, l) → k.toNat ≠ 0 →
    s.domOn (if e.cls = 0 then .engine else .core) = true →
    ∃ w : State, Frame s w [(.ree .MBOX_WORD, m), (.ree .MBOX_BUSY, m)] [] ∧
      ((w.loadImage l k.toNat).1 = 0 →
        exec (.loadImage m q id k) s = .next ((w.loadImage l k.toNat).2.mboxAnswer m q.toNat 0)) ∧
      ((w.loadImage l k.toNat).1 ≠ 0 →
        exec (.loadImage m q id k) s = .next ((w.loadImage l k.toNat).2.mboxAnswer m q.toNat 5 (w.loadImage l k.toNat).1))) ∧
  (∀ (l : List Byte) (k c : Nat) (s : State), s.imgCode l = c → c ≠ 0 → s.loadImage l k = (c, s.imgRefused c l)) ∧
  (∀ (l : List Byte) (k : Nat) (s : State), s.imgCode l = 0 → imgCLASS l = 0 → s.engTargetBad l k = true →
    s.loadImage l k = (7, s.imgRefused 7 l)) ∧
  (∀ (l : List Byte) (k : Nat) (s : State), s.imgCode l = 0 → imgCLASS l = 0 → s.engTargetBad l k = false →
    s.loadImage l k = (0, (bitsOf 16 k).foldl (fun s e => s.loadEngine l e) s)) ∧
  (∀ (l : List Byte) (k : Nat) (s : State), s.imgCode l = 0 → imgCLASS l = 1 → k < 256 →
    s.loadImage l k = (0, s.loadStage l k)) ∧
  (∀ (m : Fin 2) (q : BitVec 16) (id : BitVec 64) (k : BitVec 32) (s : State), MailTakes s m →
    s.mode ≠ modeDormant → s.findImage (fun e => e.id == id.toNat && decide (e.cls ≤ 1)) = none →
    ∃ u : State, exec (.loadImage m q id k) s = .next u ∧ Answered u m q.toNat 2 ∧ Frame s u (mboxFlds m) []) ∧
  -- a post to a mailbox that is BUSY is discarded and counted
  (∀ (m : Fin 2) (q : BitVec 16) (b : BitVec 32) (x : BitVec 64) (l o : BitVec 32) (t : Host.Outcome State Fault Refusal)
    (s : State), s.domOn .reeve = true → (m.val = 1 ∨ s.h .pcieOn = 1) → s.on (.ree .MBOX_BUSY) m = true →
    t = .next (s.count (.ree .MBOX_CMD_LOST) m) →
    exec (.updateBegin m q b) s = t ∧ exec (.updateWrite m q x l o) s = t ∧ exec (.updateActivate m q) s = t ∧
    exec (.updateConfirm m q) s = t ∧ exec (.loadImage m q x l) s = t)

/-- R445, R456-R458, R462, R469-R478, R493: the other mailbox commands. Readings of the model: log entries 13, 59. -/
def Obligations.ReeveCommandsComplete : Prop :=
  -- WGH passes its words and copies the response
  (∀ (m : Fin 2) (q : BitVec 16) (l : List (BitVec 32)) (s : State), MailTakes s m → s.domOn .weigh = true →
    ∃ (w : State) (x : List Nat), Frame s w [(.ree .MBOX_WORD, m), (.ree .MBOX_BUSY, m)] [] ∧ x.length = 15 ∧
      (∀ i, i < 15 → x.getD i 0 = (l.getD i 0).toNat) ∧
      exec (.wghPassthrough m q l) s = .next ((w.wghPass x).2.mboxAnswer m q.toNat 0 0 (w.wghPass x).1)) ∧
  (∀ (m : Fin 2) (q : BitVec 16) (l : List (BitVec 32)) (s : State), MailTakes s m → s.domOn .weigh = false →
    ∃ u : State, exec (.wghPassthrough m q l) s = .next u ∧ Answered u m q.toNat 3 ∧ Frame s u (mboxFlds m) []) ∧
  -- LC_REQ: accepted with a token; DORMANT is requested and the transition waits for it
  (∀ (m : Fin 2) (q : BitVec 16) (d : BitVec 32) (s : State), MailTakes s m → s.mode ≠ modeDormant →
    lcSlots s.lc d.toNat ≠ [] → ¬ (s.lc = 4 ∧ d.toNat = 2 ∧ 4 ≤ s.rd (.ree .LC_RETURN_USED) 0) → s.updating = false →
    (s.lc = 1 → d.toNat = 2 → s.keyWritten 3 = true) → (s.lc = 2 ∨ s.lc = 3 → s.mode = modeService) →
    s.h .shut = 0 →
    ∃ u : State, exec (.lcReq m q d) s = .next u ∧
      (s.tokenOk 7 d.toNat (lcSlots s.lc d.toNat) = true → Answered u m q.toNat 7 ∧ u.h .lcPend = d.toNat + 1 ∧
        u.h .lcTo = d.toNat + 1 ∧ u.h .intMode = modeDormant + 1 ∧ u.lc = s.lc) ∧
      (s.tokenOk 7 d.toNat (lcSlots s.lc d.toNat) = false → Answered u m q.toNat 4 ∧ u.h .lcPend = 0 ∧ u.lc = s.lc)) ∧
  (∀ (m : Fin 2) (q : BitVec 16) (d : BitVec 32) (s : State), MailTakes s m →
    (lcSlots s.lc d.toNat = [] → ∃ u : State, exec (.lcReq m q d) s = .next u ∧ Answered u m q.toNat 3 ∧
      Frame s u (mboxFlds m) []) ∧
    (s.lc = 4 → d.toNat = 2 → 4 ≤ s.rd (.ree .LC_RETURN_USED) 0 → ∃ u : State, exec (.lcReq m q d) s = .next u ∧
      Answered u m q.toNat 8 ∧ Frame s u (mboxFlds m) []) ∧
    (s.lc = 2 ∨ s.lc = 3 → s.mode ≠ modeService → ∃ u : State, exec (.lcReq m q d) s = .next u ∧
      Answered u m q.toNat 3 ∧ Frame s u (mboxFlds m) []) ∧
    (s.lc = 1 → d.toNat = 2 → s.keyWritten 3 = false → ∃ u : State, exec (.lcReq m q d) s = .next u ∧
      Answered u m q.toNat 3 ∧ Frame s u (mboxFlds m) [])) ∧
  -- the transition itself
  (∀ (d : Nat) (s : State), d ≤ 5 → s.rd (.wgh .EVCNT) 0 < 2 ^ 32 → (s.lcDo d).lc = d ∧
    (s.lcDo d).on (.ree .LC_ARMED) 0 = false ∧ s.rd (.wgh .EVCNT) 0 ≤ (s.lcDo d).rd (.wgh .EVCNT) 0) ∧
  -- KEY_PROG and REVOKE
  (∀ (m : Fin 2) (q : BitVec 16) (k : BitVec 32) (s : State), MailTakes s m →
    ((k.toNat = 3 ∧ s.lc = 1) ∨ ((k.toNat = 1 ∨ k.toNat = 2) ∧ (s.lc = 2 ∨ s.lc = 4))) → s.keyWritten k.toNat = false →
    ∃ u : State, exec (.keyProg m q k) s = .next u ∧
      (s.tokenOk 8 k.toNat (if k.toNat = 3 then [0] else [0, 3 - k.toNat]) = true → Answered u m q.toNat 0 ∧
        u.keyWritten k.toNat = true ∧ u.h .keySlot k.toNat = tokKey s.token) ∧
      (s.tokenOk 8 k.toNat (if k.toNat = 3 then [0] else [0, 3 - k.toNat]) = false → Answered u m q.toNat 4 ∧
        u.keyWritten k.toNat = false ∧ u.h .keySlot k.toNat = s.h .keySlot k.toNat)) ∧
  (∀ (m : Fin 2) (q : BitVec 16) (k : BitVec 32) (s : State), MailTakes s m → 1 ≤ k.toNat → k.toNat ≤ 3 →
    s.keyWritten k.toNat = true →
    ∃ u : State, exec (.keyProg m q k) s = .next u ∧ Answered u m q.toNat 3 ∧ Frame s u (mboxFlds m) []) ∧
  (∀ (m : Fin 2) (q : BitVec 16) (k : BitVec 32) (s : State), MailTakes s m → (k.toNat = 0 ∨ 4 ≤ k.toNat) →
    (∃ u : State, exec (.keyProg m q k) s = .next u ∧ Answered u m q.toNat 2 ∧ Frame s u (mboxFlds m) []) ∧
    (∃ u : State, exec (.revoke m q k) s = .next u ∧ Answered u m q.toNat 2 ∧ Frame s u (mboxFlds m) [])) ∧
  (∀ (m : Fin 2) (q : BitVec 16) (k : BitVec 32) (s : State), MailTakes s m → 1 ≤ k.toNat → k.toNat ≤ 3 →
    (s.lc = 2 ∨ s.lc = 3 ∨ s.lc = 4) → s.keyWritten k.toNat = true →
    ∃ u : State, exec (.revoke m q k) s = .next u ∧
      (s.tokenOk 9 k.toNat (if k.toNat = 3 then [0] else [0, 3 - k.toNat]) = true →
        Answered u m q.toNat 0 ∧ u.keyLive k.toNat = false) ∧
      (s.tokenOk 9 k.toNat (if k.toNat = 3 then [0] else [0, 3 - k.toNat]) = false →
        Answered u m q.toNat 4 ∧ u.keyLive k.toNat = s.keyLive k.toNat)) ∧
  (∀ (m : Fin 2) (q : BitVec 16) (k : BitVec 32) (s : State), MailTakes s m → 1 ≤ k.toNat → k.toNat ≤ 3 →
    s.keyWritten k.toNat = false →
    ∃ u : State, exec (.revoke m q k) s = .next u ∧ Answered u m q.toNat 3 ∧ Frame s u (mboxFlds m) []) ∧
  -- SHUTDOWN: SERVICE is requested first; in SERVICE it ends with REE.SHUTDOWN_DONE and the request of DORMANT
  (∀ (m : Fin 2) (q : BitVec 16) (b : Bool) (v : Lbist) (s : State), MailTakes s m → s.h .shut = 0 →
    s.mode ≠ modeService → s.role ≠ twACTIVE →
    ∃ u : State, exec (.shutdown m q b v) s = .next u ∧ Answered u m q.toNat 7 ∧ u.h .shut = (if b then 1 else 2) ∧
      u.h .intMode = modeService + 1) ∧
  (∀ (m : Fin 2) (q : BitVec 16) (b : Bool) (v : Lbist) (s : State), MailTakes s m → s.h .shut = 0 →
    s.mode = modeService → s.role ≠ twACTIVE →
    ∃ u : State, exec (.shutdown m q b v) s = .next u ∧ Answered u m q.toNat 7 ∧ u.h .shut = 3 ∧
      u.h .intMode = modeDormant + 1 ∧ (b = true → u.on (.ree .LBIST_VALID) 0 = true ∧ u.rd (.ree .BOOT_CNT) 0 = 0 ∧
        u.on (.ree .LBIST_FULL) 0 = false) ∧
      (b = false → u.rd (.ree .BOOT_CNT) 0 = s.rd (.ree .BOOT_CNT) 0)) ∧
  (∀ (m : Fin 2) (q : BitVec 16) (b : Bool) (v : Lbist) (s : State), MailTakes s m → s.h .shut ≠ 0 →
    ∃ u : State, exec (.shutdown m q b v) s = .next u ∧ Answered u m q.toNat 1 ∧ Frame s u (mboxFlds m) []) ∧
  -- LBIST_RUN: the full set's verdict, then a Hearth-kept start
  (∀ (m : Fin 2) (q : BitVec 16) (v : Lbist) (s : State), MailTakes s m → s.mode = modeService → s.role ≠ twACTIVE →
    s.updating = false → s.mainsGood = true → s.mainsFree = true →
    ∃ u : State, exec (.lbistRun m q v) s = .next u ∧ u.on (.ree .LBIST_VALID) 0 = true ∧
      u.on (.ree .LBIST_FULL) 0 = true ∧ u.rd (.hrt .RESET_LAST) 0 = 1 ∧ u.h .bootPend = 1 ∧ u.domOn .reeve = false) ∧
  (∀ (m : Fin 2) (q : BitVec 16) (v : Lbist) (s : State), MailTakes s m →
    (s.mode ≠ modeService ∨ s.role = twACTIVE ∨ s.updating = true) →
    ∃ u : State, exec (.lbistRun m q v) s = .next u ∧ Answered u m q.toNat 3 ∧ Frame s u (mboxFlds m) []) ∧
  -- ALMANAC_WRITE: in SERVICE, on X, not SEALED, and a set whose CRC-32C matches
  (∀ (m : Fin 2) (q : BitVec 16) (k : BitVec 32) (x : BitVec 64) (l : List Byte) (s : State), MailTakes s m →
    l = s.bytes .host x.toNat Config.almSetLen →
    (s.mode ≠ modeService ∨ s.variant ≠ .x ∨ s.lc = 3 → ∃ u : State, exec (.almanacWrite m q k x) s = .next u ∧
      Answered u m q.toNat 3 ∧ Frame s u (mboxFlds m) []) ∧
    (s.mode = modeService → s.variant = .x → s.lc ≠ 3 →
      (17 ≤ k.toNat ∨ crc32c (l.take (l.length - 4)) ≠ imgAt l (l.length - 4) 4) →
      ∃ u : State, exec (.almanacWrite m q k x) s = .next u ∧ Answered u m q.toNat 2 ∧ Frame s u (mboxFlds m) []) ∧
    (s.mode = modeService → s.variant = .x → s.lc ≠ 3 → k.toNat < 17 →
      crc32c (l.take (l.length - 4)) = imgAt l (l.length - 4) 4 →
      ∃ u : State, exec (.almanacWrite m q k x) s = .next u ∧ Answered u m q.toNat 0 ∧
        bit k.toNat (u.h .almBad) = false)) ∧
  -- CONTEXT_RESTORE
  (∀ (m : Fin 2) (q : BitVec 16) (k : BitVec 32) (s : State), MailTakes s m → 10 ≤ k.toNat →
    ∃ u : State, exec (.contextRestore m q k) s = .next u ∧ Answered u m q.toNat 2 ∧ Frame s u (mboxFlds m) []) ∧
  (∀ (m : Fin 2) (q : BitVec 16) (k : BitVec 32) (d : Dom) (s : State), MailTakes s m → Dom.all[k.toNat]? = some d →
    (bit k.toNat (s.h .ctxHave) = false ∨ s.domOn d = false) →
    ∃ u : State, exec (.contextRestore m q k) s = .next u ∧ Answered u m q.toNat 3 ∧ Frame s u (mboxFlds m) []) ∧
  (∀ (m : Fin 2) (q : BitVec 16) (k : BitVec 32) (d : Dom) (s : State), MailTakes s m → Dom.all[k.toNat]? = some d →
    bit k.toNat (s.h .ctxHave) = true → s.domOn d = true → d ≠ .reeve → d ≠ .hearth →
    ∃ u : State, exec (.contextRestore m q k) s = .next u ∧ Answered u m q.toNat 0 ∧
      bit k.toNat (u.rd (.hrt .CTX_CONTEXT_LOST) 0) = false) ∧
  -- UNMARK in SERVICE
  (∀ (m : Fin 2) (q : BitVec 16) (x : BitVec 32) (s : State), MailTakes s m → s.mode ≠ modeService →
    ∃ u : State, exec (.unmark m q x) s = .next u ∧ Answered u m q.toNat 3 ∧ Frame s u (mboxFlds m) []) ∧
  (∀ (m : Fin 2) (q : BitVec 16) (x : BitVec 32) (e : Nat) (s : State), MailTakes s m → s.mode = modeService → e < 16 →
    x.toNat = locEngine e →
    (2 ≤ s.h .markWhy e → ∃ u : State, exec (.unmark m q x) s = .next u ∧ Answered u m q.toNat 0 ∧
      u.on (.eng .CTL_UNUSABLE) e = false ∧ u.h .markWhy e = 0) ∧
    (s.h .markWhy e < 2 → ∃ u : State, exec (.unmark m q x) s = .next u ∧ Answered u m q.toNat 3 ∧
      Frame s u (mboxFlds m) [])) ∧
  -- RECOVERY_GO outside recovery boot is refused; in recovery boot it runs a good image and refuses another
  (∀ (m : Fin 2) (q : BitVec 16) (s : State), MailTakes s m →
    ∃ u : State, exec (.recoveryGo m q) s = .next u ∧ Answered u m q.toNat 3 ∧ Frame s u (mboxFlds m) []) ∧
  (∀ (l : List Byte) (s : State), l = s.bytes .reeStage 0 (s.rdMem .reeStage 8 4) → s.rd (.ree .STATUS_RSTATE) 0 = 2 →
    l.length ≤ 0x200000 → imgCLASS l = 2 →
    (s.imgCode l = 0 → s.recoveryGo = (0, 0, (s.reeveRun l).modeStartUp)) ∧
    (s.imgCode l ≠ 0 → s.recoveryGo = (5, s.imgCode l, s.imgRefused (s.imgCode l) l .rom)))

/-- R451, R460-R462, R479, R480, R491, R501, R506: watchdog, resets, the recovery ladder, BOOT, DOMAIN_POWERED and
FUNCTION_RESET_DONE. Readings of the model: log entries 64, 71, 82. -/
def Obligations.RecoveryAndBootComplete : Prop :=
  -- the watchdog
  (∀ (r : Req) (s : State), Reaches s r .REE 0 →
    exec (.wdtKick r 0xA5) s = .next (s.setH .wdtAt 0 s.age).ok ∧
    (∀ v : BitVec 8, v ≠ 0xA5 → exec (.wdtKick r v) s = .next s.ok)) ∧
  (∀ s w : State, s.domOn .reeve = true → s.on (.ree .WDT_EN) 0 = true → s.onTrial = false →
    w = s.passAge (s.h .wdtAt + msTicks s.wdtMs) →
    exec .wdtTrip s =
      .next ((((w.count (.ree .BOOT_WDT_TRIP) 0).raise .REE_WDT locReeve).setH .wdtAt 0 w.age).step3 locReeve)) ∧
  (∀ s : State, s.domOn .reeve = true → s.on (.ree .WDT_EN) 0 = false → s.rd (.ree .STATUS_RSTATE) 0 ≠ 0 →
    exec .wdtTrip s = .next s) ∧
  (∀ s : State, (s.rd (.ree .STATUS_RSTATE) 0 = 0 → s.wdtMs = 5000) ∧
    (s.rd (.ree .STATUS_RSTATE) 0 ≠ 0 → s.wdtMs = s.rd (.ree .WDT_MS) 0)) ∧
  -- GLB_RESET: with the key step 3 of the ladder, else counted
  (∀ (r : Req) (w : Bool) (k : BitVec 16) (s : State), Reaches s r .GLB 0 →
    (w = true → k = 0x5A5A → exec (.glbReset r w k) s = .next (s.step3 locReeve).ok) ∧
    (w = false ∨ k ≠ 0x5A5A → exec (.glbReset r w k) s = .next (s.count (.glb .RESET_ST_KEY_ERR) 0).ok)) ∧
  -- step 3: a warm reset 2 ms later; the third within 3600 s is a power cycle (log entry 64); none in a transition
  (∀ (l : Nat) (s : State), s.inTransition = false → s.within (s.h .warmAge 1) 3600 = false → s.h .warmAt = 0 →
    (s.step3 l).h .warmAt = s.age + msTicks 2 + 1 ∧ (s.step3 l).h .warmAge 0 = s.age + 1 ∧
    (s.step3 l).h .warmAge 1 = s.h .warmAge 0) ∧
  (∀ (l : Nat) (s : State), s.inTransition = false → s.within (s.h .warmAge 1) 3600 = true →
    s.step3 l = s.powerCycle l) ∧
  (∀ (l : Nat) (s : State), s.inTransition = true → s.step3 l = s) ∧
  -- WARM_RESET: the reset that was asked for acts
  (∀ s : State, s.domOn .reeve = true → s.h .warmAt ≠ 0 → s.inTransition = false →
    ∃ u : State, exec .warmReset s = .next u ∧ u.rd (.hrt .RESET_LAST) 0 = 4 ∧ u.h .bootPend = 1 ∧
      u.domOn .reeve = false ∧ u.domOn .bell = false ∧ u.domOn .core = false ∧ u.domOn .engine = false ∧
      u.rd (.hrt .RESET_WARM_CNT) 0 = satAdd 16 (s.rd (.hrt .RESET_WARM_CNT) 0) 1 ∧
      u.rd (.wgh .EVCNT) 0 = s.rd (.wgh .EVCNT) 0 ∧ u.rd (.ree .LC_STATE) 0 = s.rd (.ree .LC_STATE) 0) ∧
  (∀ s : State, (s.h .warmAt = 0 ∨ s.inTransition = true ∨ s.domOn .reeve = false) → exec .warmReset s = .next s) ∧
  -- step 4: MAIN_EN low for 500 ms; a second one within 3600 s ends the ladder with the main domains off
  (∀ s : State, s.within (s.h .cycAge) 3600 = false →
    ∃ u : State, exec .recoveryPowerCycle s = .next u ∧ u.age = s.age + msTicks 500 ∧ u.h .cycAge = s.age + 1 ∧
      u.h .mainEn = 0 ∧ (∀ d, d ∈ mainDoms → u.domState d = 0) ∧ u.rd (.hrt .SUPPLY_GOOD) 0 < 2) ∧
  (∀ s : State, s.within (s.h .cycAge) 3600 = true →
    ∃ u : State, exec .recoveryPowerCycle s = .next u ∧ u.h .mainEn = 3 ∧ (∀ d, d ∈ mainDoms → u.domState d = 0) ∧
      u.mainsFree = false) ∧
  -- step 2: the function named is reset; one that may not be reset is left; a location of none goes to step 3
  (∀ (l : BitVec 32) (k : Nat) (s : State), s.domOn .reeve = true → s.fnOf l.toNat = some k →
    (s.fnOk k = true → exec (.recoveryReinit l) s = .next (s.step2 k)) ∧
    (s.fnOk k = false → exec (.recoveryReinit l) s = .next s)) ∧
  (∀ (l : BitVec 32) (s : State), s.domOn .reeve = true → s.fnOf l.toNat = none →
    exec (.recoveryReinit l) s = .next (s.step3 l.toNat)) ∧
  (∀ (k : Nat) (s : State), s.within (s.h .reAge (2 * k + 1)) 600 = true →
    (72 ≤ k → k < 116 → s.step2 k = (s.recovery 2 3 (fnLoc k)).ladderMark k) ∧
    (k < 72 ∨ 116 ≤ k → s.step2 k = (s.recovery 2 3 (fnLoc k)).step3 (fnLoc k))) ∧
  (∀ (k : Nat) (s : State), s.within (s.h .reAge (2 * k + 1)) 600 = false →
    (s.step2 k).h .reAge (2 * k) = s.age + 1 ∧ (s.step2 k).h .reAge (2 * k + 1) = s.h .reAge (2 * k)) ∧
  -- step 1: the repeats at 1, 10 and 100 ms; when the third fails, step 2
  (∀ (l : BitVec 32) (n : Fin 4) (f : Bool) (s : State), s.domOn .reeve = true → (n.val < 3 ∨ f = false) →
    exec (.recoveryRetry l n f) s = .next ((s.passAge (s.age + msTicks (retryMs n))).recovery 1 n l.toNat)) ∧
  (∀ (l : BitVec 32) (k : Nat) (s w : State), s.domOn .reeve = true →
    w = (s.passAge (s.age + msTicks 100)).recovery 1 3 l.toNat → w.fnOf l.toNat = some k →
    exec (.recoveryRetry l 3 true) s = .next (w.step2 k)) ∧
  -- BOOT waits for REEVE and the crystal; a part in SCRAP halts
  (∀ (v : Lbist) (a : BitVec 17) (s : State), (s.domOn .reeve = false ∨ s.h .bootPend ≠ 1 ∨
    s.on (.hrt .CLK_XTAL_OK) 0 = false) → exec (.boot v a) s = .next s) ∧
  (∀ (v : Lbist) (a : BitVec 17) (s : State), s.domOn .reeve = true → s.h .bootPend = 1 →
    s.on (.hrt .CLK_XTAL_OK) 0 = true → s.on (.ree .LC_ARMED) 0 = false → s.lc = 5 →
    ∃ u : State, exec (.boot v a) s = .next u ∧ u.rd (.ree .STATUS_RSTATE) 0 = 3 ∧ u.h .bootPend = 0 ∧
      (∀ x, x < 2 ^ 64 → u.byte .sram x = 0)) ∧
  -- with no bootable bank the ROM enters recovery boot
  (∀ (v : Lbist) (s : State), s.domOn .reeve = true → s.h .bootPend = 1 → s.on (.hrt .CLK_XTAL_OK) 0 = true →
    s.on (.ree .LC_ARMED) 0 = false → s.lc ≠ 5 → s.bank 0 = 0 → s.bank 1 = 0 →
    ∃ u : State, exec (.boot v 0) s = .next u ∧ u.rd (.ree .STATUS_RSTATE) 0 = 2 ∧
      u.rd (.ree .BOOT_RECOVERY) 0 = 1 ∧ u.h .pcieOn = 1) ∧
  -- the candidates: TRIAL with a count below 3, then ACTIVE, then PREVIOUS; the first good one is entered
  (∀ s : State, s.bank 0 = 3 → s.bank 1 = 2 → s.rd (.ree .BANK_TRIAL_CNT) 0 < 3 → s.bootOrder = [1, 0]) ∧
  (∀ s : State, s.bank 0 = 3 → s.bank 1 = 2 → 3 ≤ s.rd (.ree .BANK_TRIAL_CNT) 0 → s.bootOrder = [0]) ∧
  (∀ s : State, s.bank 0 = 4 → s.bank 1 = 3 → s.bootOrder = [1, 0]) ∧
  (∀ (b : Nat) (bs : List Nat) (l : List Byte) (s : State), s.bootImage b = .ok l →
    s.bootFrom (b :: bs) = s.bootInto b l) ∧
  (∀ (b c : Nat) (bs : List Nat) (l : List Byte) (s : State), s.bootImage b = .error (c, l) →
    s.bootFrom (b :: bs) = (s.bootFail b c l).bootFrom bs) ∧
  (∀ (b : Nat) (l : List Byte) (s : State), b < 2 → s.on (.ree .MBOX_BUSY) 0 = false → s.on (.ree .MBOX_BUSY) 1 = false →
    s.domOn .bell = false →
    (s.bootInto b l).rd (.ree .STATUS_RSTATE) 0 = 1 ∧ (s.bootInto b l).booted = b ∧ (s.bootInto b l).h .pcieOn = 1 ∧
    (s.bootInto b l).tr 128 rPC = imgENTRY l ∧
    (s.bootInto b l).mode = (if s.on (.ree .LBIST_FATAL) 0 then modeService else modeSurvey)) ∧
  -- a domain becomes ON when it was switched on, the domain it needs is on and its supplies are good
  (∀ (i : Fin 10) (d : Dom) (s : State), Dom.all[i.val]? = some d → s.domState d = 1 → s.prereqOn d = true →
    (d = .reeve → s.mainsFree = true) → s.supplyGood d = true →
    exec (.domainPowered i) s = .next ((((((s.pass (usTicks (domTime d))).setDom d 3).domUp d).ctxReport).domLate d).fwLoadFor
      d (s.h .servoPlaced == 0))) ∧
  (∀ (i : Fin 10) (d : Dom) (s : State), Dom.all[i.val]? = some d → s.domState d = 1 → s.prereqOn d = true →
    (d = .reeve → s.mainsFree = true) → s.supplyGood d = false → exec (.domainPowered i) s = .next (s.setDom d 2)) ∧
  (∀ (i : Fin 10) (d : Dom) (s : State), Dom.all[i.val]? = some d → (s.domState d ≠ 1 ∨ s.prereqOn d = false) →
    exec (.domainPowered i) s = .next s) ∧
  -- a function restarts when its reset ends
  (∀ (k : Fin 117) (s w : State), s.h .frEnd k ≠ 0 → w = (s.passAge (s.h .frEnd k - 1)).setH .frEnd k 0 →
    w.fnOk k = true →
    (k.val < 88 ∨ 96 ≤ k.val → exec (.functionResetDone k) s = .next ((w.fnLate k).fnRestart k)) ∧
    (88 ≤ k.val → k.val < 96 → exec (.functionResetDone k) s = .next ((w.fnRestart k).fnLate k))) ∧
  (∀ (k : Fin 117) (s : State), s.h .frEnd k = 0 → exec (.functionResetDone k) s = .next s)

/-- R484-R498: rails and CAUTION, domain switching, clocks, VID_STEP, HEARTH_SRC_CHANGE, CLK_EN_WRITE. Readings of the
model: log entries 65, 89. -/
def Obligations.SupplyCommandsComplete : Prop :=
  -- a rail is good; a domain it fed returns
  (∀ (k : Fin 8) (s : State), s.domOn .hearth = true →
    ∃ u : State, exec (.railGood k) s = .next u ∧ bit k (u.rd (.hrt .SUPPLY_GOOD) 0) = true ∧
      (∀ d, s.domState d = 3 → u.domState d = 3)) ∧
  (∀ (k : Fin 8) (s : State), s.domOn .hearth = true → s.h .startKind ≠ 0 →
    exec (.railGood k) s = .next (s.setBitF (.hrt .SUPPLY_GOOD) 0 k)) ∧
  -- CAUTION begins: the rail, the minimum, the count; a further dip only lowers the minimum
  (∀ (k : Fin 8) (mv : BitVec 16) (s : State), s.domOn .hearth = true → s.on (.hrt .SUPPLY_CAUTION) 0 = false →
    ∃ u : State, exec (.supplyCautionEntry k mv) s = .next u ∧ u.on (.hrt .SUPPLY_CAUTION) 0 = true ∧
      u.rd (.hrt .SUPPLY_RAIL) 0 = k ∧ u.rd (.hrt .VMIN) 0 = mv.toNat ∧
      u.rd (.hrt .VMIN_CAUTION_CNT) 0 = satAdd 16 (s.rd (.hrt .VMIN_CAUTION_CNT) 0) 1 ∧
      (s.domOn .bell = true → u.on (.bell .STATUS_GATE_CAUTION) 0 = true) ∧ (∀ d, u.domState d = s.domState d)) ∧
  (∀ (k : Fin 8) (mv : BitVec 16) (s : State), s.domOn .hearth = true → s.on (.hrt .SUPPLY_CAUTION) 0 = true →
    exec (.supplyCautionEntry k mv) s = .next (s.wr (.hrt .VMIN) 0 (min mv.toNat (s.rd (.hrt .VMIN) 0)))) ∧
  (∀ s w : State, s.domOn .hearth = true → s.on (.hrt .SUPPLY_CAUTION) 0 = true → s.domOn .reeve = true →
    w = ((s.wr (.hrt .SUPPLY_CAUTION) 0 0).setH .cautionEnd 0 s.age).raise .HRT_SUPPLY_CAUTION_EXIT locHearth →
    exec .supplyCautionExit s = .next (w.ledger 0x0005 false locHearth
      (w.rd (.hrt .SUPPLY_RAIL) 0 + 2 ^ 16 * w.rd (.hrt .VMIN) 0) .reeve)) ∧
  (∀ s : State, s.domOn .hearth = true → s.on (.hrt .SUPPLY_CAUTION) 0 = false → exec .supplyCautionExit s = .next s) ∧
  -- a supply reset of a rail that feeds REEVE takes every main domain; of one that does not, the domains it feeds
  (∀ (k : Fin 8) (s : State), s.domOn .hearth = true → (k.val = 1 ∨ k.val = 2 ∨ k.val = 5) → s.h .mainEn = 0 →
    ∃ u : State, exec (.supplyReset k) s = .next u ∧ (∀ d, d ∈ mainDoms → u.domState d = 0) ∧ u.h .startKind = 6 ∧
      bit k (u.rd (.hrt .SUPPLY_GOOD) 0) = false ∧ u.domState .hearth = s.domState .hearth ∧
      u.domState .weigh = s.domState .weigh ∧ u.on (.hrt .SUPPLY_CAUTION) 0 = false) ∧
  (∀ (k : Fin 8) (s : State), s.domOn .hearth = true → (k.val = 6 ∨ k.val = 7) →
    ∃ u : State, exec (.supplyReset k) s = .next u ∧ u.domState .cellar = 0 ∧ u.domState .reeve = s.domState .reeve ∧
      u.domState .core = s.domState .core ∧
      (s.domState .cellar ≠ 0 → bit 9 (u.rd (.hrt .CTX_CONTEXT_LOST) 0) = true)) ∧
  (∀ s : State, s.domOn .hearth = true → ∃ u : State, exec (.supplyReset 0) s = .next u ∧ (∀ d, u.domState d = 0) ∧
    u.on (.hrt .COARSE_ST_VALID) 0 = false ∧ u.rd (.wgh .EVCNT) 0 = s.rd (.wgh .EVCNT) 0 ∧
    u.rd (.ree .LC_STATE) 0 = s.rd (.ree .LC_STATE) 0) ∧
  -- VID moves by one code toward what the ageing calls for
  (∀ (n g : Nat) (s : State), s.domOn .hearth = true → n = s.rd (.hrt .SUPPLY_VID) 0 → g = min s.vidCalled 20 →
    exec .vidStep s = .next ((s.pass (msTicks 1)).wr (.hrt .SUPPLY_VID) 0
      (if n < g then n + 1 else if g < n then n - 1 else n))) ∧
  -- the source of the Hearth's supply
  (∀ (x : Fin 3) (pd : Bool) (c : BitVec 4) (s w : State), s.domOn .hearth = true →
    w = ((s.wr (.hrt .LINE_SRC) 0 x).wr (.hrt .LINE_PD_POWERED) 0 pd.toNat).wr (.hrt .LINE_CLASS) 0 c.toNat →
    (s.rd (.hrt .LINE_SRC) 0 = x → exec (.hearthSrcChange x pd c) s = .next w) ∧
    (s.rd (.hrt .LINE_SRC) 0 ≠ x → exec (.hearthSrcChange x pd c) s = .next (w.raise .HRT_HEARTH_SRC locHearth x))) ∧
  -- HRT_PWR_REQ: refused whole, or each domain follows its bit
  (∀ (r : Req) (v : BitVec 9) (o : Bool) (s : State), Reaches s r .HRT 0 →
    (Dom.all.drop 1).all (fun d => s.switchOk r d (s.rd (.hrt .PWR_REQ) 0) v.toNat) = false →
    exec (.hrtPwrReqWrite r v o) s = .next ((((s.wr (.hrt .PWR_REQ_RAILS_OFF) 0 o.toNat).wr (.hrt .PWR_REQ_CFG_REFUSED)
      0 1).raise .GLB_DOMAIN_REFUSED locHearth).ok)) ∧
  (∀ (r : Req) (v : BitVec 9) (o : Bool) (s : State), Reaches s r .HRT 0 → v.toNat = s.rd (.hrt .PWR_REQ) 0 →
    exec (.hrtPwrReqWrite r v o) s = .next (((s.wr (.hrt .PWR_REQ_RAILS_OFF) 0 o.toNat).wr (.hrt .PWR_REQ) 0 v.toNat).ok)) ∧
  (∀ (r : Req) (d : Dom) (old new : Nat) (s : State),
    (reqBit .reeve old ≠ reqBit .reeve new → s.switchOk r .reeve old new = false) ∧
    (reqBit d old = false → reqBit d new = true → d ≠ .reeve → d ≠ .bell → d ≠ .core → s.switchOk r d old new = s.prereqOn d) ∧
    (reqBit d old = true → reqBit d new = false → s.quiet d = false → s.switchOk r d old new = false) ∧
    (reqBit .bell old ≠ reqBit .bell new → (r ≠ .reeve ∨ s.h .startWindow ≠ 1) → s.switchOk r .bell old new = false) ∧
    (reqBit .core old ≠ reqBit .core new → s.domOn .bell = false → s.switchOk r .core old new = false)) ∧
  -- the crystal: stable, not in time, lost
  (∀ s : State, s.domOn .hearth = true → bit 1 (s.h .mainHold) = false →
    exec .crystalStable s = .next ((s.pass (msTicks 2)).wr (.hrt .CLK_XTAL_OK) 0 1)) ∧
  (∀ s : State, s.domOn .hearth = true → bit 1 (s.h .mainHold) = true → s.h .mainHold = 2 → s.mainsGood = true →
    s.h .mainEn = 0 →
    ∃ u : State, exec .crystalStable s = .next u ∧ u.on (.hrt .CLK_XTAL_OK) 0 = true ∧ u.rd (.hrt .RESET_LAST) 0 = 6 ∧
      u.h .bootPend = 1 ∧ u.domState .reeve = 1) ∧
  (∀ s : State, s.domOn .hearth = true → s.on (.hrt .CLK_XTAL_OK) 0 = false →
    exec .crystalStableTimeout s = .next ((s.pass (msTicks 100)).raise .GLB_CLOCK_FAULT locHearth)) ∧
  (∀ s : State, s.domOn .hearth = true → s.on (.hrt .CLK_XTAL_OK) 0 = true →
    exec .crystalStableTimeout s = .next s ∧
    ∃ u : State, exec .crystalLoss s = .next u ∧ u.on (.hrt .CLK_XTAL_OK) 0 = false ∧ u.rd (.hrt .RESET_LAST) 0 = 6 ∧
      (∀ d, d ∈ mainDoms → u.domState d = 0) ∧ u.mainsFree = false) ∧
  (∀ s : State, s.domOn .hearth = true → s.on (.hrt .CLK_XTAL_OK) 0 = false → exec .crystalLoss s = .next s) ∧
  -- the OCXO: its loss discards the history; a retry in SURVEY or SERVICE takes it back
  (∀ s : State, s.domOn .hearth = true → s.rd (.hrt .CLK_HSRC) 0 = 0 →
    ∃ u : State, exec .ocxoLoss s = .next u ∧ u.rd (.hrt .CLK_HSRC) 0 = 1 ∧ u.on (.hrt .CLK_OCXO_PRESENT) 0 = false ∧
      u.hist = [] ∧ u.on (.sel .HOLD_STAT_HIST_VALID) 0 = false) ∧
  (∀ s : State, s.domOn .hearth = true → s.rd (.hrt .CLK_HSRC) 0 ≠ 0 → exec .ocxoLoss s = .next s) ∧
  (∀ (r : Req) (s : State), Reaches s r .HRT 0 →
    exec (.hclkRetry r false) s = .next s.ok ∧
    ((s.mode = modeSurvey ∨ s.mode = modeService) → exec (.hclkRetry r true) s =
      .next (((s.wr (.hrt .CLK_HSRC) 0 0).wr (.hrt .CLK_OCXO_PRESENT) 0 1).setH .ocxoLost 0 0).ok) ∧
    (s.mode ≠ modeSurvey → s.mode ≠ modeService → exec (.hclkRetry r true) s = .next s.ok)) ∧
  -- a clock enable: absent units ignore it, a 0 needs a quiet block
  (∀ (r : Req) (v : BitVec 64) (s : State), Reaches s r .GLB 0 → bit 63 v.toNat = false →
    exec (.clkEnWrite r v) s = .next ((s.clkEnWrite v.toNat).holdClear r (Fld.addr (.glb .CLK_EN_QUAD) 0)).ok) ∧
  (∀ (f : Fld) (k : Nat) (v q : Bool) (s : State),
    s.clkSet f k false v q = s ∧
    (bit k (s.rd f 0) = v → s.clkSet f k true v q = s) ∧
    (bit k (s.rd f 0) = false → s.clkSet f k true true q = s.wr f 0 (setBit k (s.rd f 0))) ∧
    (bit k (s.rd f 0) = true → s.clkSet f k true false true = s.wr f 0 (clrBit k (s.rd f 0))) ∧
    (bit k (s.rd f 0) = true → s.clkSet f k true false false = s.wr (.glb .CLK_EN_REFUSED) 0 1))

/-- R479, R494, R499-R502, R506: starts and resets. Readings of the model: log entries 64, 65, 89. -/
def Obligations.StartsAndResetsComplete : Prop :=
  -- a cold start: the Hearth and WEIGH start, REEVE is released, the coarse timescale is invalid
  (∀ (o : Bool) (s : State), ∃ u : State, exec (.coldStart o) s = .next u ∧ u.domState .hearth = 3 ∧
    u.domState .weigh = 1 ∧ u.domState .reeve = 1 ∧ (∀ d, d ≠ .hearth → d ≠ .weigh → d ≠ .reeve → u.domState d = 0) ∧
    u.h .bootPend = 1 ∧ u.rd (.hrt .RESET_LAST) 0 = 0 ∧ u.on (.hrt .COARSE_ST_VALID) 0 = false ∧
    u.rd (.hrt .CTX_CONTEXT_LOST) 0 = 0x3FF ∧ u.rd (.hrt .CLK_HSRC) 0 = (if o then 0 else 1) ∧
    u.rd (.wgh .EVCNT) 0 = s.rd (.wgh .EVCNT) 0 ∧ u.rd (.ree .LC_STATE) 0 = s.rd (.ree .LC_STATE) 0) ∧
  -- a Hearth-kept start, when the main rails are good and nothing holds them
  (∀ s : State, s.domOn .hearth = true → s.mainsGood = true → s.mainsFree = true →
    (s.h .startKind ≠ 0 → exec .hearthKeptStart s = .next (s.startMains (s.h .startKind - 1))) ∧
    (s.h .startKind = 0 → s.domState .reeve = 0 → exec .hearthKeptStart s = .next (s.startMains 1)) ∧
    (s.h .startKind = 0 → s.domState .reeve ≠ 0 → exec .hearthKeptStart s = .next s)) ∧
  (∀ s : State, s.domOn .hearth = true → (s.mainsGood = false ∨ s.mainsFree = false) →
    exec .hearthKeptStart s = .next s) ∧
  -- every start of the main domains requests REEVE alone and waits for its boot
  (∀ (k : Nat) (s : State), k < 16 →
    (s.startMains k).rd (.hrt .PWR_REQ) 0 = s.rd (.hrt .PWR_REQ) 0 % 2 + 2 ∧ (s.startMains k).rd (.hrt .RESET_LAST) 0 = k ∧
    (s.startMains k).domState .reeve = 1 ∧ (s.startMains k).h .bootPend = 1 ∧
    (∀ d, d ∈ mainDoms → d ≠ .reeve → (s.startMains k).domState d = 0) ∧
    (∀ d, d ∈ mainDoms → bit d.idx ((s.startMains k).rd (.hrt .CTX_CONTEXT_LOST) 0) = true)) ∧
  -- RESET_N
  (∀ s : State, s.domOn .hearth = true → ∃ u : State, exec .pinReset s = .next u ∧ (∀ d, d ∈ mainDoms → u.domState d = 0) ∧
    bit 0 (u.h .mainHold) = true ∧ u.mainsFree = false ∧ u.rd (.wgh .EVCNT) 0 = s.rd (.wgh .EVCNT) 0) ∧
  (∀ s : State, s.domOn .hearth = true → bit 0 (s.h .mainHold) = false → exec .pinResetRelease s = .next s) ∧
  (∀ s : State, s.domOn .hearth = true → s.h .mainHold = 1 → s.mainsGood = true →
    (s.h .mainEn = 0 ∨ s.h .mainEn = 1 ∨ s.h .mainEn = 3) →
    ∃ u : State, exec .pinResetRelease s = .next u ∧ u.rd (.hrt .RESET_LAST) 0 = 3 ∧ u.domState .reeve = 1 ∧
      u.h .bootPend = 1 ∧ u.h .mainEn = 0) ∧
  -- the wake from DORMANT
  (∀ (p : Bool) (s : State), s.domOn .hearth = true → s.asleep = false → exec (.wake p) s = .next s) ∧
  (∀ s : State, s.domOn .hearth = true → s.asleep = true →
    (s.on (.hrt .WAKE_PIN_EN) 0 = true → exec (.wake true) s = .next ((s.setH .mainEn 0 0).startWhen 2)) ∧
    (s.on (.hrt .WAKE_PIN_EN) 0 = false → exec (.wake true) s = .next s) ∧
    (s.on (.hrt .WAKE_EN) 0 = false → exec (.wake false) s = .next s)) ∧
  (∀ s : State, s.domOn .hearth = true → s.asleep = true → s.on (.hrt .WAKE_EN) 0 = true →
    ∃ w : State, exec (.wake false) s = .next ((w.setH .mainEn 0 0).startWhen 2) ∧
      u96 (s.rd (.hrt .WAKE_AT_T) 0) * 10 ≤ w.coarse * 65536) ∧
  (∀ (k : Nat) (s : State), s.mainsGood = true → s.mainsFree = true → s.startWhen k = s.startMains k) ∧
  -- the Hearth link: retrained, or a warm reset after the third failure
  (∀ s : State, s.domOn .reeve = true → exec (.hearthLinkLoss 0) s = .next ((s.setH .hlink 0 0).setH .hlink 0 1)) ∧
  (∀ s : State, s.domOn .reeve = true → s.inTransition = false → s.h .warmAt = 0 →
    s.within (s.h .warmAge 1) 3600 = false →
    ∃ u : State, exec (.hearthLinkLoss 3) s = .next u ∧ u.h .hlink = 0 ∧ u.age = s.age + msTicks 111) ∧
  -- a function reset
  (∀ (r : Req) (l : BitVec 32) (k : Nat) (s : State), Reaches s r .GLB 0 → s.fnOf l.toNat = some k →
    (s.fnOk k = true → exec (.glbFreset r l) s = .next (s.fnReset k).ok) ∧
    (s.fnOk k = false → exec (.glbFreset r l) s = .next (s.wr (.glb .CLK_EN_REFUSED) 0 1).ok)) ∧
  (∀ (r : Req) (l : BitVec 32) (s : State), Reaches s r .GLB 0 → s.fnOf l.toNat = none →
    exec (.glbFreset r l) s = .next (s.wr (.glb .CLK_EN_REFUSED) 0 1).ok) ∧
  (∀ (k : Nat) (s : State), (s.h .frEnd k ≠ 0 ∨ s.inTransition = true) → s.fnReset k = s) ∧
  (∀ (k : Nat) (s : State), k < 117 → s.h .frEnd k = 0 → s.inTransition = false →
    (s.fnReset k).h .frEnd k = 1 + s.age + usTicks (fnTime k))

/-- R453, R485, R557-R561: sensors, thermal trips and life counters. Readings of the model: log entries 13, 14, 65. -/
def Obligations.SensorsAndLifeComplete : Prop :=
  -- a reading is published; outside its limits REE.SENSOR_LIMIT
  (∀ (i : Fin 24) (v : BitVec 16) (s : State), s.domOn .hearth = true →
    ∃ u : State, exec (.sensorSample (.temp i v) none) s = .next u ∧ u.rd (.ree .TEMP_T) i = v.toNat) ∧
  (∀ (i : Fin 16) (v : BitVec 16) (s w : State), s.domOn .hearth = true → w = s.wr (.ree .VOLT_V) i v.toNat →
    (∀ n, s.voltNom i = some n → 95 * n ≤ 100 * v.toNat → 100 * v.toNat ≤ 105 * n →
      exec (.sensorSample (.volt i v) none) s = .next w) ∧
    (∀ n, s.voltNom i = some n → (100 * v.toNat < 95 * n ∨ 105 * n < 100 * v.toNat) →
      exec (.sensorSample (.volt i v) none) s = .next (w.raise .REE_SENSOR_LIMIT locHearth i)) ∧
    (s.voltNom i = none → exec (.sensorSample (.volt i v) none) s = .next w)) ∧
  (∀ (i : Fin 8) (v : BitVec 24) (s : State), s.domOn .hearth = true →
    exec (.sensorSample (.proc i v) none) s = .next (s.wr (.ree .PROC_F) i v.toNat)) ∧
  (∀ (i : Fin 8) (v : BitVec 16) (s w : State), s.domOn .hearth = true → w = s.wr (.ree .AGE_LOSS) i v.toNat →
    (w.vidCalled ≤ 20 ∨ s.on (.hrt .LIFE_ST_VID_CAP) 0 = true →
      exec (.sensorSample (.age i v) none) s = .next w) ∧
    (20 < w.vidCalled → s.on (.hrt .LIFE_ST_VID_CAP) 0 = false →
      exec (.sensorSample (.age i v) none) s =
        .next ((w.wr (.hrt .LIFE_ST_VID_CAP) 0 1).raise .REE_SENSOR_LIMIT locHearth 3))) ∧
  -- a thermal trip
  (∀ (i : Fin 22) (v : BitVec 16) (s : State), s.domOn .hearth = true → 2000 ≤ toS 16 v.toNat →
    ∃ u : State, exec (.thermalTrip i v) s = .next u ∧ (∀ d, d ∈ mainDoms → u.domState d = 0) ∧
      u.rd (.hrt .RESET_LAST) 0 = 9 ∧ u.h .mainEn = (if s.within (s.h .tripAge 1) 3600 then 3 else 4) ∧
      u.rd (.hrt .LIFE_ST_TRIP_CNT) 0 = satAdd 16 (s.rd (.hrt .LIFE_ST_TRIP_CNT) 0) 1 ∧
      u.domState .weigh = s.domState .weigh ∧ u.coarse = s.coarse) ∧
  (∀ (i : Fin 22) (v : BitVec 16) (s : State), s.domOn .hearth = true → toS 16 v.toNat < 2000 →
    exec (.thermalTrip i v) s = .next s) ∧
  (∀ s : State, s.domOn .hearth = true →
    (s.h .mainEn = 4 → exec .thermalRelease s = .next ((s.passAge (s.h .mainEnAt)).setH .mainEn 0 0)) ∧
    (s.h .mainEn ≠ 4 → exec .thermalRelease s = .next s)) ∧
  -- the minute of the highest reading, and the hour
  (∀ (t : Int) (s : State), s.domOn .hearth = true → s.domOn .core = true → 0 < s.h .tjMax →
    t = (s.h .tjMax : Int) - 1 - 32768 → -32768 ≤ t → t < 32768 →
    ∃ u : State, exec .lifeMinute s = .next u ∧ u.h .lifeMin (lifeBand t) = s.h .lifeMin (lifeBand t) + 1 ∧
      u.h .tjMax = 0 ∧ u.rdS (.hrt .LIFE_MAX_TJ_MAX) 0 = max t (s.rdS (.hrt .LIFE_MAX_TJ_MAX) 0)) ∧
  (∀ s : State, s.domOn .hearth = true → s.domOn .core = false →
    exec .lifeMinute s = .next (s.setH .tjMax 0 0)) ∧
  (∀ s : State, s.domOn .hearth = true → (∀ b, b < 6 → s.rd (.hrt .LIFEH_HOURS) b < 2 ^ 32) →
    ∃ u : State, exec .lifeHour s = .next u ∧ ∀ b, b < 6 → u.h .lifeMin b = s.h .lifeMin b % 60 ∧
      u.rd (.hrt .LIFEH_HOURS) b = min (s.rd (.hrt .LIFEH_HOURS) b + s.h .lifeMin b / 60) (2 ^ 32 - 1)) ∧
  (∀ t : Int, (t < 85 * 16 → lifeBand t = 0) ∧ (85 * 16 ≤ t → t < 95 * 16 → lifeBand t = 1) ∧
    (95 * 16 ≤ t → t < 105 * 16 → lifeBand t = 2) ∧ (105 * 16 ≤ t → t < 115 * 16 → lifeBand t = 3) ∧
    (115 * 16 ≤ t → t < 125 * 16 → lifeBand t = 4) ∧ (125 * 16 ≤ t → lifeBand t = 5))

/-- R516, R519: VECTOR_HOLD_EXPIRY, REARM_WRITE, RFIFO_READ, MSIX_VECTOR_UNMASK. Readings of the model: log entries 9, 67.
-/
def Obligations.DeliveryCommandsComplete : Prop :=
  -- the end of a hold: one message if the vector went pending again within it and still is
  (∀ (v : Fin 64) (s w : State), s.up .CRI 0 = true → s.h .vecHold v = 1 → w = (s.setH .vecHold v 0).setH .vecAgain v 0 →
    (s.h .vecAgain v = 1 → s.vecPending v = true → exec (.vectorHoldExpiry v) s = .next (w.vecSend v)) ∧
    ((s.h .vecAgain v = 0 ∨ s.vecPending v = false) → exec (.vectorHoldExpiry v) s = .next w)) ∧
  (∀ (v : Fin 64) (s : State), s.up .CRI 0 = true → s.h .vecHold v = 0 → exec (.vectorHoldExpiry v) s = .next s) ∧
  -- REARM sends the message of a pending vector
  (∀ (r : Req) (v : Fin 64) (s : State), Reaches s r .CRIVEC v →
    (s.vecPending v = true → exec (.rearmWrite r v) s = .next (s.vecSend v).ok) ∧
    (s.vecPending v = false → exec (.rearmWrite r v) s = .next s.ok)) ∧
  -- a message goes out, or sets the pending bit of a masked entry; HOLD starts a hold
  (∀ (v : Nat) (s : State), s.rd (.cri .VEC_HOLD) v = 0 →
    (s.h .msixOpen v = 0 → s.vecSend v = s.setH .msixPend v 1) ∧
    (s.h .msixOpen v ≠ 0 → s.vecSend v = s.setH .vecMsgs v (s.h .vecMsgs v + 1))) ∧
  (∀ (v : Nat) (s : State), s.rd (.cri .VEC_HOLD) v ≠ 0 → (s.vecSend v).h .vecHold v = 1) ∧
  -- the MSI-X table unmasks a vector: a message held with its pending bit is sent
  (∀ (v : Fin 64) (s : State), s.up .CRI 0 = true →
    (s.h .msixPend v = 1 → exec (.msixVectorUnmask v) s =
      .next (((s.setH .msixOpen v 1).setH .msixPend v 0).setH .vecMsgs v (s.h .vecMsgs v + 1))) ∧
    (s.h .msixPend v ≠ 1 → exec (.msixVectorUnmask v) s = .next (s.setH .msixOpen v 1))) ∧
  -- the Reeve's record FIFO: the oldest record leaves for the Reeve's latch; an empty one returns SRC 0x7FF; others read 0
  (∀ (x : EvRec) (l : List EvRec) (s : State), Reaches s .reeve .CRI 0 → s.rfifo = x :: l →
    ∃ u : State, exec (.rfifoRead .reeve) s = .next u ∧ u.rfifo = l ∧ u.resp = ⟨.ok, x.toNat % 2 ^ 32⟩ ∧
      u.latchOf .reeve = x.toNat / 2 ^ 32) ∧
  (∀ s : State, Reaches s .reeve .CRI 0 → s.rfifo = [] →
    ∃ u : State, exec (.rfifoRead .reeve) s = .next u ∧ u.rfifo = [] ∧ u.resp = ⟨.ok, 0⟩ ∧ u.latchOf .reeve = 0x7FF * 2 ^ 64) ∧
  (∀ (r : Req) (s : State), Reaches s r .CRI 0 → r ≠ .reeve → exec (.rfifoRead r) s = .next s.ok)

/-- R520-R526: TALLY_CFG_WRITE, COUNTER_WRAP, TALLY_DUMP, SAMPLE_TAG, SAMPLE_RECORD. Readings of the model: log entries 72,
73, 85. -/
def Obligations.TallyCommandsComplete : Prop :=
  -- CFG reprograms a counter from PRELOAD, with the LOC and THR that were held
  (∀ (r : Req) (i : Fin 512) (c : BitVec 32) (w : Bool) (s : State), Reaches s r .CTR i → s.talCounts i = false →
    s.talCfgOk i c.toNat = true → regsFit s.regs = true →
    ∃ u : State, exec (.tallyCfgWrite r i c w) s = .next u.ok ∧ u.rd (.tal .CTR_EN) i = bits 0 1 c.toNat ∧
      u.rd (.tal .CTR_MODE) i = bits 1 2 c.toNat ∧ u.rd (.tal .CTR_SIG) i = bits 8 8 c.toNat ∧
      u.rd (.tal .CTR_VAL) i = s.rd (.tal .CTR_PRELOAD) i ∧ bit i (u.rd (.tal .OVF) 0) = false ∧
      u.h .talLoc i = s.rd (.tal .CTR_LOC) i ∧ u.h .talThr i = s.rd (.tal .CTR_THR) i ∧
      Frame s u [(.tal .CTR_EN, i.val), (.tal .CTR_MODE, i.val), (.tal .CTR_SIG, i.val), (.tal .CTR_VAL, i.val), (.tal .OVF, 0)]
        [(.talLoc, i.val), (.talThr, i.val), (.talResel, i.val), (.talAt, i.val)]) ∧
  -- an absent unit, or a KIND and SIG that Table 16.4 lacks, is refused
  (∀ (r : Req) (i : Fin 512) (c : BitVec 32) (w : Bool) (s : State), Reaches s r .CTR i → s.talCounts i = false →
    bits 1 2 c.toNat ≠ 3 → s.talUnit (s.rd (.tal .CTR_LOC) i) (bits 8 8 c.toNat) = none →
    exec (.tallyCfgWrite r i c w) s = .next (s.wr (.tal .CFG_REFUSED) 0 1).ok) ∧
  -- a counting counter wraps to 0: OVF and TAL.OVERFLOW
  (∀ (i : Fin 512) (s : State), s.up .CTR i = true → s.talCounts i = true →
    exec (.counterWrap i) s = .next ((((s.setH .talAt i s.age).wr (.tal .CTR_VAL) i 0).setBitF (.tal .OVF) 0 i).raise
      .TAL_OVERFLOW locReeve i)) ∧
  (∀ (i : Fin 512) (s : State), s.up .CTR i = true → s.talCounts i = false → exec (.counterWrap i) s = .next s) ∧
  -- a counter in CYCLES mode has counted the market cycles since it was looked at last
  (∀ (i : Nat) (s : State), i < 512 → s.on (.tal .CTR_EN) i = true → s.rd (.tal .CTR_MODE) i = 3 →
    s.rd (.tal .CTR_VAL) i + (marketCycles s.age - marketCycles (s.h .talAt i)) < 2 ^ 48 →
    (s.talBring i).rd (.tal .CTR_VAL) i = s.rd (.tal .CTR_VAL) i + (marketCycles s.age - marketCycles (s.h .talAt i))) ∧
  (∀ (i : Nat) (s : State), s.talCounts i = false → s.talBring i = s) ∧
  -- a dump at the next multiple of PERIOD, or a skip while the last is not fully written; SEQ goes on either way
  (∀ (s : State) (late : Bool), s.up .TAL 0 = true → s.on (.tal .DUMP_EN) 0 = true → s.domOn .bell = true →
    exec (.tallyDump late) s = .next ((s.passTo (tickAt s.nextDump)).tallyDump late)) ∧
  (∀ s : State, s.tallyDump true =
    (((s.count (.tal .DUMP_SKIP) 0).bump (.tal .DUMP_SEQ) 0).raise .TAL_DUMP_LATE locReeve)) ∧
  (∀ s : State, s.rd (.tal .DUMP_LOC) 0 = 0 → s.rd (.tal .DUMP_FIRST) 0 ≤ s.rd (.tal .DUMP_LAST) 0 →
    s.rd (.tal .DUMP_LAST) 0 < 512 → (∀ i, i < 512 → s.talCounts i = false) →
    ∃ a : Nat, (s.tallyDump false).bytes .host a 8 = leBytes 4 0x544C4C59 ++ leBytes 4 (s.rd (.tal .DUMP_SEQ) 0) ∧
      (∀ j, s.rd (.tal .DUMP_FIRST) 0 + j ≤ s.rd (.tal .DUMP_LAST) 0 →
        (s.tallyDump false).bytes .host (a + 64 + 8 * j) 8 = leBytes 8 (s.talEntry (s.rd (.tal .DUMP_FIRST) 0 + j))) ∧
      (s.tallyDump false).rd (.tal .DUMP_SEQ) 0 = (s.rd (.tal .DUMP_SEQ) 0 + 1) % 2 ^ 32) ∧
  -- a tag, and its reload with PERIOD and a jitter below 2^JITTER_LOG
  (∀ (e : Fin 16) (s : State), s.up .TAL 0 = true → s.up .ENG e = true → s.on (.tal .SAMP_EN) e = true →
    ∃ u : State, exec (.sampleTag e) s = .next u ∧ u.h .sampTag e = 1 ∧ s.rd (.tal .SAMP_PERIOD) e ≤ u.h .sampCnt e ∧
      u.h .sampCnt e < s.rd (.tal .SAMP_PERIOD) e + 2 ^ s.rd (.tal .SAMP_JITTER_LOG) e) ∧
  -- the tagged instruction completes: its record enters the ring, or is lost when the ring is full
  (∀ (e : Fin 16) (x : Sample) (s : State), s.up .TAL 0 = true → s.up .ENG e = true → s.on (.tal .SAMP_EN) e = true →
    s.h .sampTag e = 1 → (s.rd (.tal .SAMP_HEAD) e + 1) % 2 ^ s.rd (.tal .SAMP_SIZE_LOG) e =
      s.rd (.tal .SAMP_TAIL) e % 2 ^ s.rd (.tal .SAMP_SIZE_LOG) e →
    exec (.sampleRecord e x) s =
      .next (((s.setH .sampTag e 0).wr (.tal .SAMP_LOST) e (satAdd 16 (s.rd (.tal .SAMP_LOST) e) 1)).setH .sampLost e 1)) ∧
  (∀ (e : Fin 16) (x : Sample) (s : State), s.up .TAL 0 = true → s.up .ENG e = true → s.on (.tal .SAMP_EN) e = true →
    s.h .sampTag e = 1 → s.rd (.tal .SAMP_LOC) e = 0 →
    (s.rd (.tal .SAMP_HEAD) e + 1) % 2 ^ s.rd (.tal .SAMP_SIZE_LOG) e ≠
      s.rd (.tal .SAMP_TAIL) e % 2 ^ s.rd (.tal .SAMP_SIZE_LOG) e → s.rd (.tal .SAMP_SIZE_LOG) e ≤ 16 →
    s.rd (.tal .SAMP_HEAD) e + 1 < 2 ^ s.rd (.tal .SAMP_SIZE_LOG) e → s.rd (.tal .SAMP_WM_LOG) e ≤ 16 →
    (s.rd (.tal .SAMP_SAMPLES) e + 1) % 2 ^ s.rd (.tal .SAMP_WM_LOG) e ≠ 0 →
    ∃ u : State, exec (.sampleRecord e x) s = .next u ∧ u.h .sampTag e = 0 ∧
      u.rd (.tal .SAMP_HEAD) e = s.rd (.tal .SAMP_HEAD) e + 1 ∧
      u.rd (.tal .SAMP_SAMPLES) e = (s.rd (.tal .SAMP_SAMPLES) e + 1) % 2 ^ 48 ∧
      u.bytes .host (s.rd (.tal .SAMP_BASE) e + 32 * s.rd (.tal .SAMP_HEAD) e) 6 = leBytes 6 x.pc.toNat ∧
      u.bytes .host (s.rd (.tal .SAMP_BASE) e + 32 * s.rd (.tal .SAMP_HEAD) e + 24) 8 = leBytes 8 x.ea.toNat ∧
      ∀ r a, (r = .host → a < s.rd (.tal .SAMP_BASE) e + 32 * s.rd (.tal .SAMP_HEAD) e ∨
        s.rd (.tal .SAMP_BASE) e + 32 * s.rd (.tal .SAMP_HEAD) e + 32 ≤ a) → u.byte r a = s.byte r a)

/-- R530-R535: ENDPOINT_RESET, DMA_RING_ENABLE, DMA_TX_DESCRIPTOR, DMA_RX_FRAME, BAR2_WRITE. Readings of the model: log
entries 66, 67, 85. -/
def Obligations.HostCommandsComplete : Prop :=
  -- an endpoint reset takes the endpoint and the frame DMA alone
  (∀ s : State, s.domOn .reeve = true → s.rd (.glb .PCI_LINK_RESETS) 0 < 2 ^ 16 →
    ∃ u : State, exec .endpointReset s = .next u ∧
      u.rd (.glb .PCI_LINK_RESETS) 0 = min (s.rd (.glb .PCI_LINK_RESETS) 0 + 1) 65535 ∧
      u.rd (.glb .PCI_SPEED) 0 = 0 ∧ u.rd (.glb .PCI_WIDTH) 0 = 0 ∧
      (∀ q, q < 16 → u.hq q = [] ∧ u.on (.glb .DMA_CFG_RX_EN) q = false ∧ u.on (.glb .DMA_CFG_TX_EN) q = false ∧
        u.rd (.glb .DMA_TX_BASE) q = 0 ∧ u.rd (.glb .DMA_RX_BASE) q = 0 ∧ u.rd (.glb .DMA_RXDROP) q = 0) ∧
      (∀ v, v < 64 → u.h .msixOpen v = 0 ∧ u.h .msixPend v = 0) ∧
      (∀ d, u.domState d = s.domState d) ∧ u.age = s.age ∧ (∀ k, u.queue k = s.queue k) ∧
      u.nowU = s.nowU) ∧
  -- CFG of a host queue: EN going to 1 sets HEAD to 0 and PHASE to 1
  (∀ (r : Req) (q : Fin 16) (w : BitVec 32) (s : State), Reaches s r .DMA q → s.on (.glb .DMA_CFG_RX_EN) q = false →
    s.on (.glb .DMA_CFG_TX_EN) q = false → bit 0 w.toNat = true → bit 1 w.toNat = true →
    6 ≤ bits 4 4 w.toNat → bits 4 4 w.toNat ≤ 14 → 6 ≤ bits 8 4 w.toNat → bits 8 4 w.toNat ≤ 14 → bits 16 8 w.toNat ≠ 0 →
    bit 31 w.toNat = false →
    ∃ u : State, exec (.dmaRingEnable r q w) s = .next u.ok ∧ u.on (.glb .DMA_CFG_RX_EN) q = true ∧
      u.on (.glb .DMA_CFG_TX_EN) q = true ∧ u.rd (.glb .DMA_RXHT_HEAD) q = 0 ∧ u.rd (.glb .DMA_TXHT_HEAD) q = 0 ∧
      u.phaseBit .dmaRxPhase q = 1 ∧ u.phaseBit .dmaTxPhase q = 1 ∧
      u.rd (.glb .DMA_CFG_RX_SIZE_LOG) q = bits 4 4 w.toNat ∧ u.rd (.glb .DMA_CFG_TX_SIZE_LOG) q = bits 8 4 w.toNat ∧
      u.rd (.glb .DMA_CFG_WEIGHT) q = bits 16 8 w.toNat ∧
      Frame s u [(.glb .DMA_CFG_RX_EN, q.val), (.glb .DMA_CFG_TX_EN, q.val), (.glb .DMA_CFG_RX_SIZE_LOG, q.val),
        (.glb .DMA_CFG_TX_SIZE_LOG, q.val), (.glb .DMA_CFG_WEIGHT, q.val), (.glb .DMA_RXHT_HEAD, q.val),
        (.glb .DMA_TXHT_HEAD, q.val)] [(.dmaRxPhase, q.val), (.dmaTxPhase, q.val)]) ∧
  -- SIZE_LOG is refused while its ring is on, and outside 6-14; WEIGHT 0 is refused
  (∀ (q v : Nat) (en size : Fld) (s : State), v ≠ s.rd size q → (s.on en q = true ∨ v < 6 ∨ 14 < v) →
    s.dmaSize q en size v = s.wr (.glb .DMA_CFG_REFUSED) q 1) ∧
  -- EN going to 0 leaves later descriptors unread
  (∀ (q : Nat) (en head : Fld) (ph : Hid) (s : State), s.on en q = true → s.dmaEn q en head ph false = s.wr en q 0) ∧
  -- a posted transmit descriptor is served, and its FLAGS carry PHASE and STATUS
  (∀ (q : Fin 16) (a st : Nat) (s w : State), s.up .DMA q = true → s.domOn .core = true → s.dmaTxReady q = true →
    a = s.rd (.glb .DMA_TX_BASE) q + 32 * s.rd (.glb .DMA_TXHT_HEAD) q → s.dmaSend a = (st, w) →
    exec (.dmaTxDescriptor q) s = .next ((w.wrMem .host (a + 10) 1 (w.phaseBit .dmaTxPhase q + 2 * st)).dmaNext q
      (.glb .DMA_CFG_TX_SIZE_LOG) (.glb .DMA_TXHT_HEAD) .dmaTxPhase)) ∧
  (∀ (q : Fin 16) (s : State), s.up .DMA q = true → s.dmaTxReady q = false → exec (.dmaTxDescriptor q) s = .next s) ∧
  -- STATUS: BAD_LEN outside 60-16 379 octets, BAD_DEST, NO_BUFFER when pool 0 denies a cell, else what the offer says
  (∀ (a : Nat) (s : State), (s.rdMem .host (a + 8) 2 < 60 ∨ 16379 < s.rdMem .host (a + 8) 2) → s.dmaSend a = (3, s)) ∧
  (∀ (a : Nat) (s : State), 60 ≤ s.rdMem .host (a + 8) 2 → s.rdMem .host (a + 8) 2 ≤ 16379 →
    kindOk (mdDKIND.get (s.dmaMd a)) = false → s.dmaSend a = (4, s)) ∧
  (∀ (a : Nat) (s w : State), 60 ≤ s.rdMem .host (a + 8) 2 → s.rdMem .host (a + 8) 2 ≤ 16379 →
    kindOk (mdDKIND.get (s.dmaMd a)) = true → s.destOk (mdDKIND.get (s.dmaMd a)) (mdDEST.get (s.dmaMd a)) = true →
    s.grantChain 89 (cellsOf (s.rdMem .host (a + 8) 2 + 4)) [] = (none, w) → s.dmaSend a = (1, w)) ∧
  (∀ (a : Nat) (hs : List Nat) (s w : State), 60 ≤ s.rdMem .host (a + 8) 2 → s.rdMem .host (a + 8) 2 ≤ 16379 →
    kindOk (mdDKIND.get (s.dmaMd a)) = true → s.destOk (mdDKIND.get (s.dmaMd a)) (mdDEST.get (s.dmaMd a)) = true →
    s.grantChain 89 (cellsOf (s.rdMem .host (a + 8) 2 + 4)) [] = (some hs, w) →
    s.dmaSend a = w.dmaCopy a (s.rdMem .host (a + 8) 2) (s.dmaMd a) hs ∧
    ((s.dmaSend a).1 = 0 ∨ (s.dmaSend a).1 = 2)) ∧
  -- HEAD advances, and PHASE changes where it wraps
  (∀ (q : Nat) (size head : Fld) (ph : Hid) (s : State),
    (s.rd head q + 1 < 2 ^ s.rd size q → s.dmaNext q size head ph = s.wr head q (s.rd head q + 1)) ∧
    (2 ^ s.rd size q ≤ s.rd head q + 1 → s.dmaNext q size head ph = (s.wr head q 0).setH ph q (1 - s.h ph q))) ∧
  -- the oldest frame of a receive queue is written to the next posted buffer and leaves the queue
  (∀ (q : Fin 16) (s : State), s.up .DMA q = true → s.domOn .core = true → s.on (.glb .DMA_CFG_RX_EN) q = true →
    exec (.dmaRxFrame q) s = .next (s.dmaRx q) ∧ (s.hq q = [] → s.dmaRx q = s)) ∧
  (∀ (q : Fin 16) (d : Copy) (t : List Copy) (a : Nat) (l : List Byte) (s : State), s.up .DMA q = true →
    s.domOn .core = true → s.on (.glb .DMA_CFG_RX_EN) q = true → s.hq q = d :: t →
    a = s.rd (.glb .DMA_RX_BASE) q + 32 * s.rd (.glb .DMA_RXHT_HEAD) q → l = s.copyOctets d →
    l.length ≤ s.rdMem .host (a + 8) 2 → l.length < 65536 → (s.rdMem .host a 8 + l.length ≤ a ∨ a + 32 ≤ s.rdMem .host a 8) →
    s.rd (.glb .DMA_RXHT_HEAD) q + 1 < 2 ^ s.rd (.glb .DMA_CFG_RX_SIZE_LOG) q →
    s.rd (.glb .DMA_CFG_RX_SIZE_LOG) q ≤ 14 →
    ∃ u : State, exec (.dmaRxFrame q) s = .next u ∧ u.hq q = t ∧
      u.bytes .host (s.rdMem .host a 8) l.length = l ∧ u.rdMem .host (a + 8) 2 = l.length ∧
      u.rd (.glb .DMA_RXHT_HEAD) q = s.rd (.glb .DMA_RXHT_HEAD) q + 1) ∧
  (∀ (q : Fin 16) (s : State), s.up .DMA q = true → s.on (.glb .DMA_CFG_RX_EN) q = false →
    exec (.dmaRxFrame q) s = .next s) ∧
  -- BAR2: a write to a stack that can be used, a write to a Pantry that is not wiping, a completer abort otherwise
  (∀ (a : BitVec 37) (data : List (BitVec 8)) (s : State), s.domOn .reeve = true → s.h .pcieOn = 1 →
    a.toNat + data.length ≤ 2 ^ 36 → a.toNat / 2 ^ 34 = (a.toNat + data.length - 1) / 2 ^ 34 →
    s.stackReady (a.toNat / 2 ^ 34) = true →
    exec (.bar2Write a data) s = .next (s.setBytes .cellar a.toNat data).ok) ∧
  (∀ (a : BitVec 37) (data : List (BitVec 8)) (s : State), s.domOn .reeve = true → s.h .pcieOn = 1 → data ≠ [] →
    a.toNat < 2 ^ 36 → s.stackReady (a.toNat / 2 ^ 34) = false → exec (.bar2Write a data) s = .next s.busError) ∧
  (∀ (a : BitVec 37) (data : List (BitVec 8)) (e : Nat) (s : State), s.domOn .reeve = true → s.h .pcieOn = 1 →
    e < 16 → a.toNat / 0x400000 = 2 ^ 14 + e → (a.toNat + data.length - 1) / 0x400000 = 2 ^ 14 + e →
    s.variant.hasEngine e = true → s.domOn .engine = true → s.on (.eng .CTL_WIPING) e = false → s.lc ≠ 2 → s.lc ≠ 3 →
    exec (.bar2Write a data) s = .next (s.setBytes .pantry (a.toNat - 2 ^ 36) data).ok) ∧
  (∀ (a : BitVec 37) (data : List (BitVec 8)) (e : Nat) (s : State), s.domOn .reeve = true → s.h .pcieOn = 1 → data ≠ [] →
    a.toNat / 0x400000 = 2 ^ 14 + e → (s.variant.hasEngine e = false ∨ s.on (.eng .CTL_WIPING) e = true) →
    exec (.bar2Write a data) s = .next s.busError)

/-- R536-R541, R472: the I2C target and the JTAG TAP. Readings of the model: log entries 68, 70. -/
def Obligations.BoardCommandsComplete : Prop :=
  -- I2C reads every offset; it writes as a requester of its own, and not at all with a wrong PEC or outside its regions
  (∀ (a : BitVec 32) (s : State), s.domOn .hearth = true →
    exec (.i2cRead a) s = .next (s.readWord .i2c a.toNat)) ∧
  (∀ (a v : BitVec 32) (s : State), s.domOn .hearth = true →
    exec (.i2cWrite a v false) s = .next (s.writeWord .i2c a.toNat v.toNat) ∧
    exec (.i2cWrite a v true) s = .next { s with resp := ⟨.refused, 0⟩ }) ∧
  (∀ (a v : BitVec 32) (b : Blk) (s : State), s.domOn .hearth = true → a.toNat % 4 = 0 → blkAt a.toNat = some b →
    b ≠ .glb → b ≠ .hrt → b ≠ .wgh → (a.toNat < 0x7000200 ∨ 0x7000300 ≤ a.toNat) →
    exec (.i2cWrite a v false) s = .next { s with resp := ⟨.refused, 0⟩ }) ∧
  -- the identity is read over I2C with the Hearth alone
  (∀ s : State, s.domOn .hearth = true → s.domOn .reeve = false → s.rd (.glb .ID) 0 = 0x4A540048 →
    ∃ u : State, exec (.i2cRead 0) s = .next u ∧ u.resp = ⟨.ok, 0x4A540048⟩) ∧
  (∀ (a : BitVec 32) (s : State), s.domOn .hearth = true → s.domOn .reeve = false → a.toNat % 4 = 0 →
    0x2C ≤ a.toNat → a.toNat < 0x1000 → exec (.i2cRead a) s = .next s.busError) ∧
  -- a transaction held too long is answered BUSY, or discarded
  (∀ s : State, s.domOn .hearth = true → exec (.i2cBusTimeout false) s = .next { s with resp := ⟨.busy, 0⟩ } ∧
    exec (.i2cBusTimeout true) s = .next s) ∧
  -- BYPASS, IDCODE, SAMPLE/PRELOAD
  (∀ s : State, exec .bypass s = .next { s.setH .jtagIr 0 0 with resp := ⟨.ok, 0⟩ } ∧
    exec .idcode s = .next { s.setH .jtagIr 0 1 with resp := ⟨.ok, 0x04A7233F⟩ }) ∧
  (∀ (v : BitVec 1024) (s : State), ∃ x : Nat, exec (.samplePreload v) s =
    .next { (s.nextFree.setH .jtagBsr 0 v.toNat).setH .jtagIr 0 2 with resp := ⟨.ok, x⟩ }) ∧
  -- the instructions that take the balls: only while RESET_N is low; else BYPASS, and HELD counts
  (∀ s : State, bit 0 (s.h .mainHold) = true →
    exec .extest s = .next (s.tapLoad 3 0) ∧ exec .extestPulse s = .next (s.tapLoad 4 0) ∧
    exec .extestTrain s = .next (s.tapLoad 5 0) ∧ exec .clamp s = .next (s.tapLoad 6 0) ∧
    exec .highz s = .next (s.tapLoad 7 0)) ∧
  (∀ s u : State, bit 0 (s.h .mainHold) = false → s.domOn .reeve = true →
    u = (s.wr (.glb .JTAG_HELD) 0 (satAdd 16 (s.rd (.glb .JTAG_HELD) 0) 1)).tapLoad 0 0 →
    exec .extest s = .next u ∧ exec .extestPulse s = .next u ∧ exec .extestTrain s = .next u ∧ exec .clamp s = .next u ∧
    exec .highz s = .next u) ∧
  -- internal scan: only in BLANK, MAKE and RETURN after the Hearth's clear; else zeros, SCAN_REFUSED and a Ledger entry
  (∀ s : State, s.domOn .reeve = true → s.on (.ree .LC_SCAN_READY) 0 = true → (s.lc = 0 ∨ s.lc = 1 ∨ s.lc = 4) →
    ∃ x : Nat, exec .internalScan s = .next (s.nextFree.tapLoad 8 x)) ∧
  (∀ s : State, (s.domOn .reeve = false ∨ s.on (.ree .LC_SCAN_READY) 0 = false ∨ (s.lc ≠ 0 ∧ s.lc ≠ 1 ∧ s.lc ≠ 4)) →
    exec .internalScan s = .next (((s.wr (.ree .LC_SCAN_REFUSED) 0 (satAdd 16 (s.rd (.ree .LC_SCAN_REFUSED) 0) 1)).ledger
      0x000A true locReeve s.lc).tapLoad 8 0))

/-- A step takes the command at the front of the queue, and on an empty queue one tick of 1.6 ns passes (log entry 1, DESIGN
CHOICE). The table gives no row any bits, so no word spells a command. Readings of the model: log entries 1, 80, 81. -/
def Obligations.StepTakesTheFront : Prop :=
  (∀ (c : Instr) (l : List Instr) (s : State), s.pending = c :: l → step s = exec c { s with pending := l }) ∧
  (∀ s : State, s.pending = [] → step s = .next (s.pass 1)) ∧
  (∀ (n w : Nat) (s : State), decodeTableWord n w = none ∧ s.withFetchWord n w = s)

/-- No step faults or refuses; each takes one command from the queue and adds none, no step turns the clock back, and the
part stays the variant it is. Readings of the model: log entries 1, 10, 81. -/
def Obligations.EveryStepGoesOn : Prop :=
  ∀ s : State, ∃ t : State, step s = .next t ∧ t.pending = s.pending.tail ∧ s.age ≤ t.age ∧ t.variant = s.variant

/-- Every step keeps the canonical form of memory and of the register stores, and every field within its width. Readings of
the model: log entries 4, 81. -/
def Obligations.CanonicalKept : Prop :=
  ∀ s t : State, s.canonical → step s = .next t → t.canonical

/-- The canonical form holds at reset. Readings of the model: log entries 2, 4. -/
def Obligations.CanonicalAtReset : Prop := State.reset.canonical

/-- What reset leaves: every register field at the reset value of its table, HEARTH on and every other domain off, the queue
empty, nothing in memory (that memory reads 0 is the model's choice, log entry 2). Readings of the model: log entries 2, 3,
4. -/
def Obligations.ResetState : Prop :=
  (∀ (f : Fld) (i : Nat), State.reset.rd f i = resetVal .x f i) ∧
  (∀ (r : Region) (a : Nat), State.reset.byte r a = 0) ∧
  State.reset.pending = [] ∧ State.reset.rd (.glb .ID) 0 = 0x4A540048 ∧ State.reset.rd (.glb .VARIANT) 0 = 2 ∧
  State.reset.rd (.glb .QUADS) 0 = 0xFFFF ∧ State.reset.rd (.glb .ENGINES) 0 = 0xFFFF ∧
  State.reset.rd (.glb .STACKS) 0 = 0xF ∧ State.reset.rd (.cri .EN) 0 = 2 ^ 128 - 1 ∧
  State.reset.rd (.cri .MASK) 0 = 2 ^ 128 - 1 ∧ State.reset.rd (.tal .DUMP_PERIOD) 0 = 1000000000 ∧
  State.reset.rd (.glb .COMMIT_GRACE) 0 = 1000 ∧ State.reset.rd (.glb .DMA_CFG_WEIGHT) 3 = 1 ∧
  State.reset.domState .hearth = 3 ∧ (∀ d : Dom, d ≠ .hearth → State.reset.domState d = 0)

/-- R3, R9, R15, R18, R492, R498, R530: how an access ends that does not reach a register. Readings of the model: log
entries 15, 68. -/
def Obligations.AccessEndings : Prop :=
  -- narrower than 32 bits, or misaligned
  (∀ (r : Req) (a v : BitVec 32) (n : Bool) (s : State), (n = true ∨ a.toNat % 4 ≠ 0) →
    exec (.registerWrite r a v n) s = .next s.busError) ∧
  (∀ (r : Req) (a : BitVec 32) (s : State), a.toNat % 4 ≠ 0 → exec (.multiwordLowRead r a) s = .next s.busError) ∧
  -- no register there, or no block
  (∀ (r : Req) (a v : BitVec 32) (b : Blk) (s : State), WordOpen s r b a.toNat → regsAt a.toNat = [] →
    exec (.registerWrite r a v false) s = .next s.ok ∧ exec (.multiwordLowRead r a) s = .next s.ok) ∧
  (∀ (r : Req) (a v : BitVec 32) (s : State), a.toNat % 4 = 0 → blkAt a.toNat = none → r ≠ .i2c →
    (r = .host → s.h .pcieOn ≠ 0) → a.toNat ≠ snapCmdAddr →
    exec (.registerWrite r a v false) s = .next s.ok ∧ exec (.multiwordLowRead r a) s = .next s.ok) ∧
  -- the endpoint is not enabled
  (∀ (a v : BitVec 32) (s : State), a.toNat % 4 = 0 → s.h .pcieOn = 0 →
    exec (.registerWrite .host a v false) s = .next s.busError ∧ exec (.multiwordLowRead .host a) s = .next s.busError) ∧
  -- an absent unit reads 0 and ignores writes, whatever its domain and clock
  (∀ (r : Req) (a v : BitVec 32) (b : Blk) (s : State), a.toNat % 4 = 0 → blkAt a.toNat = some b → r ≠ .i2c →
    (r = .host → s.h .pcieOn ≠ 0) → a.toNat ≠ snapCmdAddr →
    (unitOf b a.toNat).1.present s.variant (unitOf b a.toNat).2 = false →
    exec (.registerWrite r a v false) s = .next s.ok ∧ exec (.multiwordLowRead r a) s = .next s.ok) ∧
  -- a present unit whose domain is off, or whose clock is gated
  (∀ (r : Req) (a v : BitVec 32) (b : Blk) (g : Grp) (i : Nat) (s : State), a.toNat % 4 = 0 → blkAt a.toNat = some b →
    r ≠ .i2c → unitOf b a.toNat = (g, i) → g.present s.variant i = true →
    (s.domOn (g.dom (g.outer i)) = false ∨ (engCtlAt b a.toNat = false ∧ s.clkOn g (g.outer i) = false)) →
    exec (.registerWrite r a v false) s = .next s.busError ∧ exec (.multiwordLowRead r a) s = .next s.busError)

/-- R513: EN lets a raise latch; the first raise writes one record, further ones count in FOLD; with EN = 0 a raise leaves
nothing. Of the records' ways the Reeve's FIFO is shown; the ring is in `State.ringPut`. Readings of the model: log entries
9, 11. -/
def Obligations.RaiseLatches : Prop :=
  (∀ (e : Ev) (n l d p : Nat) (s : State), e.src.1 = .dev n → bit n (s.rd (.cri .EN) 0) = false → s.raise e l d p = s) ∧
  (∀ (e : Ev) (n l d p : Nat) (s : State), e.src.1 = .dev n → bit n (s.rd (.cri .EN) 0) = true → s.domOn .reeve = true →
    bit n (s.rd (.cri .LATCH) 0) = true →
    s.raise e l d p = s.wr (.cri .FOLD) (n / 4) (putBits (8 * (n % 4)) 8
      (min (bits (8 * (n % 4)) 8 (s.rd (.cri .FOLD) (n / 4)) + 1) 255) (s.rd (.cri .FOLD) (n / 4)))) ∧
  (∀ (e : Ev) (n l d p : Nat) (s : State), e.src.1 = .dev n → bit n (s.rd (.cri .EN) 0) = true → s.domOn .reeve = true →
    bit n (s.rd (.cri .LATCH) 0) = false →
    bit n ((s.raise e l d p).rd (.cri .LATCH) 0) = true ∧
    (s.rfifo.length < 256 → (s.raise e l d p).rfifo = s.rfifo ++ [s.mkRec e p l d]) ∧
    (256 ≤ s.rfifo.length → (s.raise e l d p).rfifo = s.rfifo ∧
      (s.raise e l d p).rd (.cri .RFIFO_LOST) 0 = satAdd 16 (s.rd (.cri .RFIFO_LOST) 0) 1)) ∧
  -- a port's source
  (∀ (e : Ev) (k l d p : Nat) (s : State), e.src.1 = .port k →
    (s.domOn .reeve = false ∨ s.variant.hasPort p = false ∨ bit k (s.rd (.cri .PORT_EN) p) = false) → s.raise e l d p = s) ∧
  (∀ (e : Ev) (k l d p : Nat) (s : State), e.src.1 = .port k → s.domOn .reeve = true → s.variant.hasPort p = true →
    bit k (s.rd (.cri .PORT_EN) p) = true → bit k (s.rd (.cri .PORT_LATCH) p) = true → s.raise e l d p = s) ∧
  (∀ (e : Ev) (k l d p : Nat) (s : State), e.src.1 = .port k → s.domOn .reeve = true → s.variant.hasPort p = true →
    bit k (s.rd (.cri .PORT_EN) p) = true → bit k (s.rd (.cri .PORT_LATCH) p) = false →
    bit k ((s.raise e l d p).rd (.cri .PORT_LATCH) p) = true ∧
    (s.rfifo.length < 256 → (s.raise e l d p).rfifo = s.rfifo ++ [s.mkRec e p l d])) ∧
  -- a write of EN leaves the latches
  (∀ (r : Req) (v : Nat) (s : State), (s.fieldSet r (.cri .EN) 0 v).rd (.cri .LATCH) 0 = s.rd (.cri .LATCH) 0)

/-- R515: sources 112-119 latch in the Hearth while REEVE is off and hold one record each, with TIME_COARSE; the others
leave no trace then. Readings of the model: log entry 11. -/
def Obligations.HearthHoldsRecords : Prop :=
  (∀ (e : Ev) (n l d p : Nat) (s : State), e.src.1 = .dev n → s.domOn .reeve = false → (n < 112 ∨ 119 < n) →
    s.raise e l d p = s) ∧
  (∀ (e : Ev) (n l d p : Nat) (s : State), e.src.1 = .dev n → s.domOn .reeve = false → 112 ≤ n → n ≤ 119 →
    bit n (s.rd (.cri .EN) 0) = true → bit n (s.rd (.cri .LATCH) 0) = false →
    bit n ((s.raise e l d p).rd (.cri .LATCH) 0) = true ∧ (s.raise e l d p).rfifo = s.rfifo ∧
    (s.raise e l d p).held = s.held ++ [{ s.mkRec e p l d with timeCoarse := true }]) ∧
  (∀ (e : Ev) (n l d p : Nat) (s : State), e.src.1 = .dev n → s.domOn .reeve = false → 112 ≤ n → n ≤ 119 →
    bit n (s.rd (.cri .LATCH) 0) = true → s.raise e l d p = s)

/-- R544: only KEY = 0x5A5A with WARM = 1 acts; every other write of GLB_RESET is ignored and counted. Readings of the
model: log entry 64. -/
def Obligations.KeyedReset : Prop :=
  (∀ (r : Req) (w : Bool) (k : BitVec 16) (s : State), Reaches s r .GLB 0 → (w = false ∨ k ≠ 0x5A5A) →
    ∃ u : State, exec (.glbReset r w k) s = .next u.ok ∧
      u.rd (.glb .RESET_ST_KEY_ERR) 0 = trunc 8 (min (s.rd (.glb .RESET_ST_KEY_ERR) 0 + 1) 255) ∧
      Frame s u [(.glb .RESET_ST_KEY_ERR, 0)] []) ∧
  (∀ (r : Req) (s : State), Reaches s r .GLB 0 → s.inTransition = false → s.h .warmAt = 0 →
    s.within (s.h .warmAge 1) 3600 = false →
    ∃ u : State, exec (.glbReset r true 0x5A5A) s = .next u.ok ∧ u.h .warmAt = s.age + msTicks 2 + 1)

/-- R546: a written 1 clears the unit's pending mark and leaves every shadow; the next shadow write, or a 1 in
GLB_COMMIT_MARK, marks it again. Readings of the model: log entry 17. -/
def Obligations.PendingMarkCleared : Prop :=
  (∀ (r : Req) (k : Fin 8) (v : BitVec 32) (s : State), Reaches s r .GLB 0 →
    ∃ u : State, exec (.commitPendClear r k v) s = .next u.ok ∧
      (∀ n, n < 222 → n / 32 = k.val → v.getLsbD (n % 32) = true → bit n (u.rd (.glb .COMMIT_PEND) 0) = false) ∧
      (∀ n, n < 222 → (n / 32 ≠ k.val ∨ v.getLsbD (n % 32) = false) →
        bit n (u.rd (.glb .COMMIT_PEND) 0) = bit n (s.rd (.glb .COMMIT_PEND) 0)) ∧
      Frame s u [(.glb .COMMIT_PEND, 0)] []) ∧
  (∀ (r : Req) (f : Fld) (i new : Nat) (u : State), f.desc.shadow = true → u.fieldOk r f i new = true → u.cstate = 0 →
    shadowUnit f i < 222 → bit (shadowUnit f i) ((u.fieldSet r f i new).rd (.glb .COMMIT_PEND) 0) = true) ∧
  (∀ (r : Req) (k : Fin 8) (v : BitVec 32) (n : Nat) (u : State), Reaches u r .GLB 0 → u.cstate = 0 → n < 222 →
    n / 32 = k.val → v.getLsbD (n % 32) = true → unitPresent u.variant n = true →
    ∃ w : State, exec (.commitMarkWrite r k v) u = .next w.ok ∧ bit n (w.rd (.glb .COMMIT_PEND) 0) = true ∧
      Frame u w [(.glb .COMMIT_PEND, 0)] [])

/-- R16: what a loss of domains takes from the registers: the fields of those domains with a lost survival code return to
their reset values; every other field, and everything in NVM or OTP, keeps its value. Readings of the model: log entry 6. -/
def Obligations.LossTakesByCode : Prop :=
  (∀ (ds : List Dom) (lost : List Surv) (f : Fld) (i : Nat) (s : State),
    (fldDom f i ∉ ds ∨ f.desc.surv ∉ lost ∨ f.desc.nvm = true) → (s.lose ds lost).rd f i = s.rd f i) ∧
  (∀ (ds : List Dom) (lost : List Surv) (f : Fld) (i : Nat) (s : State), fldDom f i ∈ ds → f.desc.surv ∈ lost →
    f.desc.nvm = false → (s.lose ds lost).rd f i = resetVal s.variant f i) ∧
  (∀ (ds : List Dom) (lost : List Surv) (s : State), (s.lose ds lost).variant = s.variant ∧ (s.lose ds lost).age = s.age ∧
    (s.lose ds lost).mem = s.mem ∧ (s.lose ds lost).archive = s.archive)

/-- R441, R468: in SEALED a write of a register whose reached fields are all RWL changes none of them; where it would have
changed one, the attempt is counted, entered in the Ledger and raised. Readings of the model: log entries 57, 69. -/
def Obligations.SealedFieldsAreLocked : Prop :=
  (∀ (r : Req) (a v : Nat) (g : Reg) (s : State), s.lc = 3 → (∀ f ∈ g.reached, f.desc.acc = .RWL) →
    s.rwlHit g v = true → s.plain r a g v = s.sealAttempt a r) ∧
  (∀ (r : Req) (a v : Nat) (g : Reg) (s : State), s.lc = 3 → (∀ f ∈ g.reached, f.desc.acc = .RWL) →
    s.rwlHit g v = false → s.plain r a g v = s) ∧
  (∀ (r : Req) (a : Nat) (f : Fld) (i : Nat) (s : State), f.desc.acc = .RWL → (s.sealAttempt a r).rd f i = s.rd f i)
end

