-- ==== Sys2Proof/Laws/Bits.lean ====
section
/-! SUPPORT. Bits of numbers: what each bit operation does to each bit. -/

namespace Sys2Proof

theorem bit_testBit (k n : Nat) : bit k n = n.testBit k := by
  simp only [bit, Nat.testBit_eq_decide_div_mod_eq]
  by_cases h : n / 2 ^ k % 2 = 1 <;> simp [h]

@[simp] theorem bit_zero (k : Nat) : bit k 0 = false := by simp [bit_testBit]

@[simp] theorem bit_or (k a b : Nat) : bit k (a ||| b) = (bit k a || bit k b) := by simp [bit_testBit]

@[simp] theorem bit_and (k a b : Nat) : bit k (a &&& b) = (bit k a && bit k b) := by simp [bit_testBit]

@[simp] theorem bit_xor (k a b : Nat) : bit k (a ^^^ b) = (bit k a ^^ bit k b) := by simp [bit_testBit]

@[simp] theorem bit_andNot (k a b : Nat) : bit k (andNot a b) = (bit k a && !bit k b) := by
  simp only [andNot, bit_xor, bit_and]; cases bit k a <;> cases bit k b <;> rfl

theorem bit_trunc (k w n : Nat) : bit k (trunc w n) = (decide (k < w) && bit k n) := by
  simp [bit_testBit, trunc, Nat.testBit_mod_two_pow]

theorem setBit_or (k n : Nat) : setBit k n = n ||| 2 ^ k := by
  unfold setBit
  split
  · next h =>
    rw [bit_testBit] at h
    apply Nat.eq_of_testBit_eq
    intro j
    rw [Nat.testBit_or, Nat.testBit_two_pow]
    by_cases e : k = j
    · subst e; simp [h]
    · simp [e]
  · next h =>
    rw [bit_testBit] at h
    have e : n &&& 2 ^ k = 0 := by
      apply Nat.eq_of_testBit_eq
      intro j
      rw [Nat.testBit_and, Nat.testBit_two_pow, Nat.zero_testBit]
      by_cases e : k = j
      · subst e; simpa using h
      · simp [e]
    have hw : n + 2 ^ k < 2 ^ (n + 2 ^ k) := Nat.lt_two_pow_self
    have hz : BitVec.ofNat (n + 2 ^ k) n &&& BitVec.ofNat (n + 2 ^ k) (2 ^ k) = 0#(n + 2 ^ k) := by
      rw [← BitVec.ofNat_and, e]
    have ha := congrArg BitVec.toNat (BitVec.add_eq_or_of_and_eq_zero _ _ hz)
    have ho : n ||| 2 ^ k < 2 ^ (n + 2 ^ k) := Nat.or_lt_two_pow (Nat.lt_of_le_of_lt (Nat.le_add_right _ _) hw) (Nat.lt_of_le_of_lt (Nat.le_add_left _ _) hw)
    rw [← BitVec.ofNat_add, ← BitVec.ofNat_or, BitVec.toNat_ofNat, BitVec.toNat_ofNat, Nat.mod_eq_of_lt hw,
      Nat.mod_eq_of_lt ho] at ha
    exact ha

@[simp] theorem bit_setBit (j k n : Nat) : bit j (setBit k n) = (bit j n || decide (j = k)) := by
  rw [setBit_or, bit_or, bit_testBit j (2 ^ k), Nat.testBit_two_pow]
  congr 1
  by_cases h : k = j
  · simp [h]
  · simp [h, Ne.symm h]

theorem bit_foldl_setBit (ks : List Nat) (j m : Nat) :
    bit j (ks.foldl (fun m k => setBit k m) m) = (bit j m || decide (j ∈ ks)) := by
  induction ks generalizing m with
  | nil => simp
  | cons k t ih =>
    rw [List.foldl_cons, ih, bit_setBit]
    by_cases h : j = k <;> simp [h]

@[simp] theorem bit_maskOf (ks : List Nat) (j : Nat) : bit j (maskOf ks) = decide (j ∈ ks) := by
  rw [maskOf, bit_foldl_setBit]; simp

theorem mem_bitsOf (w n k : Nat) : k ∈ bitsOf w n ↔ k < w ∧ bit k n = true := by
  simp [bitsOf]

theorem bits_lt (lsb w n : Nat) : bits lsb w n < 2 ^ w := Nat.mod_lt _ (Nat.two_pow_pos w)

theorem trunc_lt (w n : Nat) : trunc w n < 2 ^ w := Nat.mod_lt _ (Nat.two_pow_pos w)

theorem trunc_of_lt {w n : Nat} (h : n < 2 ^ w) : trunc w n = n := Nat.mod_eq_of_lt h

theorem satAdd_of_le {w a b : Nat} (h : a + b ≤ 2 ^ w - 1) : satAdd w a b = a + b := Nat.min_eq_left h

theorem satAdd_lt (w a b : Nat) : satAdd w a b < 2 ^ w :=
  Nat.lt_of_le_of_lt (Nat.min_le_right _ _) (Nat.sub_lt (Nat.two_pow_pos w) Nat.one_pos)

end Sys2Proof
end

