-- ==== Sys2Proof/Laws/Store.lean ====
section
/-! SUPPORT. Laws of the sparse stores: read after write, and that every write keeps the canonical form. -/

namespace Sys2Proof.Machine

variable {κ α : Type} [DecidableEq κ]

theorem Assoc.get_erase_same (d : α) (k : κ) (l : List (κ × α)) : Assoc.get d k (Assoc.erase k l) = d := by
  induction l with
  | nil => rfl
  | cons e t ih =>
    obtain ⟨k', v⟩ := e
    by_cases h : k' = k <;> simp [Assoc.erase, Assoc.get, h, ih]

theorem Assoc.get_erase_other (d : α) {j k : κ} (h : j ≠ k) (l : List (κ × α)) :
    Assoc.get d j (Assoc.erase k l) = Assoc.get d j l := by
  induction l with
  | nil => rfl
  | cons e t ih =>
    obtain ⟨k', v⟩ := e
    by_cases h1 : k' = k
    · subst h1; simp [Assoc.erase, Assoc.get, ih, Ne.symm h]
    · by_cases h2 : k' = j
      · subst h2; simp [Assoc.erase, Assoc.get, h1]
      · simp [Assoc.erase, Assoc.get, h1, h2, ih]

theorem Assoc.get_ins_other (lt : κ → κ → Bool) (d v : α) {j k : κ} (h : j ≠ k) (l : List (κ × α)) :
    Assoc.get d j (Assoc.ins lt k v l) = Assoc.get d j l := by
  induction l with
  | nil => simp [Assoc.ins, Assoc.get, Ne.symm h]
  | cons e t ih =>
    obtain ⟨k', v'⟩ := e
    by_cases h1 : lt k k' <;> by_cases h2 : k' = j
    · subst h2; simp [Assoc.ins, Assoc.get, h1, Ne.symm h]
    · simp [Assoc.ins, Assoc.get, h1, h2, Ne.symm h]
    · subst h2; simp [Assoc.ins, Assoc.get, h1]
    · simp [Assoc.ins, Assoc.get, h1, h2, ih]

theorem Assoc.get_ins_same (lt : κ → κ → Bool) (d v : α) (k : κ) (l : List (κ × α))
    (h : ∀ e ∈ l, e.1 ≠ k) : Assoc.get d k (Assoc.ins lt k v l) = v := by
  induction l with
  | nil => simp [Assoc.ins, Assoc.get]
  | cons e t ih =>
    obtain ⟨k', v'⟩ := e
    have hk : k' ≠ k := h (k', v') (by simp)
    have ht : ∀ e ∈ t, e.1 ≠ k := fun e he => h e (by simp [he])
    by_cases h1 : lt k k' <;> simp [Assoc.ins, Assoc.get, h1, hk, ih ht]

theorem Assoc.erase_ne (k : κ) (l : List (κ × α)) : ∀ e ∈ Assoc.erase k l, e.1 ≠ k := by
  induction l with
  | nil => simp [Assoc.erase]
  | cons e t ih =>
    obtain ⟨k', v⟩ := e
    by_cases h : k' = k
    · simpa [Assoc.erase, h] using ih
    · intro e he
      simp [Assoc.erase, h] at he
      rcases he with rfl | he
      · exact h
      · exact ih e he

theorem Assoc.mem_erase (k : κ) (l : List (κ × α)) : ∀ e ∈ Assoc.erase k l, e ∈ l := by
  induction l with
  | nil => simp [Assoc.erase]
  | cons e t ih =>
    obtain ⟨k', v⟩ := e
    intro x hx
    by_cases h : k' = k
    · simp [Assoc.erase, h] at hx
      exact List.mem_cons_of_mem _ (ih x hx)
    · simp [Assoc.erase, h] at hx
      rcases hx with rfl | hx
      · simp
      · exact List.mem_cons_of_mem _ (ih x hx)

/-- Reading what was written gives the value written. -/
theorem Assoc.get_set_same [DecidableEq α] (lt : κ → κ → Bool) (d v : α) (k : κ) (l : List (κ × α)) :
    Assoc.get d k (Assoc.set lt d k v l) = v := by
  unfold Assoc.set
  split
  · next h => rw [h]; exact Assoc.get_erase_same d k l
  · exact Assoc.get_ins_same lt d v k _ (Assoc.erase_ne k l)

/-- A write leaves every other key alone. -/
theorem Assoc.get_set_other [DecidableEq α] (lt : κ → κ → Bool) (d v : α) {j k : κ} (h : j ≠ k) (l : List (κ × α)) :
    Assoc.get d j (Assoc.set lt d k v l) = Assoc.get d j l := by
  unfold Assoc.set
  split
  · exact Assoc.get_erase_other d h l
  · rw [Assoc.get_ins_other lt d v h, Assoc.get_erase_other d h]

/-- The same where another key reads as another default. -/
theorem Assoc.get_set_ne [DecidableEq α] (lt : κ → κ → Bool) (e d v : α) {j k : κ} (h : j ≠ k) (l : List (κ × α)) :
    Assoc.get e j (Assoc.set lt d k v l) = Assoc.get e j l := by
  unfold Assoc.set
  split
  · exact Assoc.get_erase_other e h l
  · rw [Assoc.get_ins_other lt e v h, Assoc.get_erase_other e h]

omit [DecidableEq κ] in
theorem Assoc.mem_ins (lt : κ → κ → Bool) (k : κ) (v : α) (l : List (κ × α)) :
    ∀ e ∈ Assoc.ins lt k v l, e = (k, v) ∨ e ∈ l := by
  induction l with
  | nil => simp [Assoc.ins]
  | cons a t ih =>
    obtain ⟨k', v'⟩ := a
    intro e he
    by_cases h : lt k k'
    · simpa [Assoc.ins, h] using he
    · simp [Assoc.ins, h] at he
      rcases he with rfl | he
      · simp
      · rcases ih e he with h1 | h1
        · exact .inl h1
        · exact .inr (List.mem_cons_of_mem _ h1)

theorem Assoc.sorted_erase (lt : κ → κ → Bool) (k : κ) (l : List (κ × α)) (h : Assoc.sorted lt l = true) :
    Assoc.sorted lt (Assoc.erase k l) = true := by
  induction l with
  | nil => rfl
  | cons a t ih =>
    obtain ⟨k', v'⟩ := a
    simp only [Assoc.sorted, Bool.and_eq_true, List.all_eq_true] at h
    by_cases hk : k' = k
    · simpa [Assoc.erase, hk] using ih h.2
    · simp only [Assoc.erase, hk, if_false, Assoc.sorted, Bool.and_eq_true, List.all_eq_true]
      exact ⟨fun e he => h.1 e (Assoc.mem_erase k t e he), ih h.2⟩

theorem Assoc.sorted_ins (lt : κ → κ → Bool) (tr : ∀ a b c, lt a b = true → lt b c = true → lt a c = true)
    (tot : ∀ a b, a ≠ b → lt a b = false → lt b a = true) (k : κ) (v : α) (l : List (κ × α))
    (hne : ∀ e ∈ l, e.1 ≠ k) (h : Assoc.sorted lt l = true) : Assoc.sorted lt (Assoc.ins lt k v l) = true := by
  induction l with
  | nil => rfl
  | cons a t ih =>
    obtain ⟨k', v'⟩ := a
    have hs := h
    simp only [Assoc.sorted, Bool.and_eq_true, List.all_eq_true] at h
    by_cases hk : lt k k' = true
    · simp only [Assoc.ins, hk, if_true, Assoc.sorted, Bool.and_eq_true, List.all_eq_true]
      refine ⟨?_, by simpa [Assoc.sorted] using h⟩
      intro e he
      rcases List.mem_cons.1 he with rfl | he
      · exact hk
      · exact tr _ _ _ hk (h.1 e he)
    · have hk' : lt k' k = true := tot k k' (fun e => hne (k', v') (by simp) e.symm) (by simpa using hk)
      simp only [Assoc.ins, hk, if_false, Assoc.sorted, Bool.and_eq_true, List.all_eq_true, Bool.false_eq_true]
      refine ⟨?_, ih (fun e he => hne e (by simp [he])) h.2⟩
      intro e he
      rcases Assoc.mem_ins lt k v t e he with rfl | he
      · exact hk'
      · exact h.1 e he

/-- Every write keeps the canonical form. -/
theorem Assoc.wf_set [DecidableEq α] (lt : κ → κ → Bool) (tr : ∀ a b c, lt a b = true → lt b c = true → lt a c = true)
    (tot : ∀ a b, a ≠ b → lt a b = false → lt b a = true) (d : α) (k : κ) (v : α) (l : List (κ × α))
    (h : Assoc.wf lt d l = true) : Assoc.wf lt d (Assoc.set lt d k v l) = true := by
  simp only [Assoc.wf, Bool.and_eq_true, List.all_eq_true] at h ⊢
  unfold Assoc.set
  split
  · exact ⟨Assoc.sorted_erase lt k l h.1, fun e he => h.2 e (Assoc.mem_erase k l e he)⟩
  · next hv =>
    refine ⟨Assoc.sorted_ins lt tr tot k v _ (Assoc.erase_ne k l) (Assoc.sorted_erase lt k l h.1), ?_⟩
    intro e he
    rcases Assoc.mem_ins lt k v _ e he with rfl | he
    · simpa using hv
    · exact h.2 e (Assoc.mem_erase k l e he)

end Sys2Proof.Machine
end

