-- ==== Sys2Proof/Laws/State.lean ====
section
    /-! SUPPORT. What each named update leaves in each field of the state and in each reading of it, and what a
    reading gives
after an update of the same store. -/

namespace Sys2Proof.Machine

variable (s : State)

/-- The fields `wr` leaves alone. -/
@[simp] theorem State.wr_fields (f : Fld) (i v : Nat) :
        (s.wr f i v).variant = s.variant ∧ (s.wr f i v).applied = s.applied ∧ (s.wr f i v).prev = s.prev ∧ (s.wr f i
    v).hid = s.hid ∧ (s.wr f i v).now = s.now ∧ (s.wr f i v).coarse = s.coarse ∧ (s.wr f i v).age = s.age ∧ (s.wr f
    i v).hist = s.hist ∧ (s.wr f i v).y4096 = s.y4096 ∧ (s.wr f i v).meas = s.meas ∧ (s.wr f i v).measPrev =
    s.measPrev ∧ (s.wr f i v).refused = s.refused ∧ (s.wr f i v).caps = s.caps ∧ (s.wr f i v).mem = s.mem ∧ (s.wr f
    i v).latch = s.latch ∧ (s.wr f i v).hold = s.hold ∧ (s.wr f i v).resp = s.resp ∧ (s.wr f i v).freeN = s.freeN ∧
    (s.wr f i v).rfifo = s.rfifo ∧ (s.wr f i v).held = s.held ∧ (s.wr f i v).archive = s.archive ∧ (s.wr f i v).treg
    = s.treg ∧ (s.wr f i v).bufs = s.bufs ∧ (s.wr f i v).queues = s.queues ∧ (s.wr f i v).eqs = s.eqs ∧ (s.wr f i
    v).hostq = s.hostq ∧ (s.wr f i v).hatches = s.hatches ∧ (s.wr f i v).cache = s.cache ∧ (s.wr f i v).bins =
    s.bins ∧ (s.wr f i v).gq = s.gq ∧ (s.wr f i v).gin = s.gin ∧ (s.wr f i v).gouts = s.gouts ∧ (s.wr f i v).emits =
    s.emits ∧ (s.wr f i v).rx = s.rx ∧ (s.wr f i v).tx = s.tx ∧ (s.wr f i v).ctl = s.ctl ∧ (s.wr f i v).tracks =
    s.tracks ∧ (s.wr f i v).obs = s.obs ∧ (s.wr f i v).rtLog = s.rtLog ∧ (s.wr f i v).twl = s.twl ∧ (s.wr f i
    v).twTx = s.twTx ∧ (s.wr f i v).wslots = s.wslots ∧ (s.wr f i v).wlast = s.wlast ∧ (s.wr f i v).wqueue =
    s.wqueue ∧ (s.wr f i v).ctx = s.ctx ∧ (s.wr f i v).lkp = s.lkp ∧ (s.wr f i v).pending = s.pending := by
  (repeat' apply And.intro) <;> rfl

/-- The fields `wrA` leaves alone. -/
@[simp] theorem State.wrA_fields (f : Fld) (i v : Nat) :
        (s.wrA f i v).variant = s.variant ∧ (s.wrA f i v).regs = s.regs ∧ (s.wrA f i v).prev = s.prev ∧ (s.wrA f i
    v).hid = s.hid ∧ (s.wrA f i v).now = s.now ∧ (s.wrA f i v).coarse = s.coarse ∧ (s.wrA f i v).age = s.age ∧
    (s.wrA f i v).hist = s.hist ∧ (s.wrA f i v).y4096 = s.y4096 ∧ (s.wrA f i v).meas = s.meas ∧ (s.wrA f i
    v).measPrev = s.measPrev ∧ (s.wrA f i v).refused = s.refused ∧ (s.wrA f i v).caps = s.caps ∧ (s.wrA f i v).mem =
    s.mem ∧ (s.wrA f i v).latch = s.latch ∧ (s.wrA f i v).hold = s.hold ∧ (s.wrA f i v).resp = s.resp ∧ (s.wrA f i
    v).freeN = s.freeN ∧ (s.wrA f i v).rfifo = s.rfifo ∧ (s.wrA f i v).held = s.held ∧ (s.wrA f i v).archive =
    s.archive ∧ (s.wrA f i v).treg = s.treg ∧ (s.wrA f i v).bufs = s.bufs ∧ (s.wrA f i v).queues = s.queues ∧ (s.wrA
    f i v).eqs = s.eqs ∧ (s.wrA f i v).hostq = s.hostq ∧ (s.wrA f i v).hatches = s.hatches ∧ (s.wrA f i v).cache =
    s.cache ∧ (s.wrA f i v).bins = s.bins ∧ (s.wrA f i v).gq = s.gq ∧ (s.wrA f i v).gin = s.gin ∧ (s.wrA f i
    v).gouts = s.gouts ∧ (s.wrA f i v).emits = s.emits ∧ (s.wrA f i v).rx = s.rx ∧ (s.wrA f i v).tx = s.tx ∧ (s.wrA
    f i v).ctl = s.ctl ∧ (s.wrA f i v).tracks = s.tracks ∧ (s.wrA f i v).obs = s.obs ∧ (s.wrA f i v).rtLog = s.rtLog
    ∧ (s.wrA f i v).twl = s.twl ∧ (s.wrA f i v).twTx = s.twTx ∧ (s.wrA f i v).wslots = s.wslots ∧ (s.wrA f i
    v).wlast = s.wlast ∧ (s.wrA f i v).wqueue = s.wqueue ∧ (s.wrA f i v).ctx = s.ctx ∧ (s.wrA f i v).lkp = s.lkp ∧
    (s.wrA f i v).pending = s.pending := by
  (repeat' apply And.intro) <;> rfl

/-- The fields `setH` leaves alone. -/
@[simp] theorem State.setH_fields (x : Hid) (i v : Nat) :
        (s.setH x i v).variant = s.variant ∧ (s.setH x i v).regs = s.regs ∧ (s.setH x i v).applied = s.applied ∧
    (s.setH x i v).prev = s.prev ∧ (s.setH x i v).now = s.now ∧ (s.setH x i v).coarse = s.coarse ∧ (s.setH x i
    v).age = s.age ∧ (s.setH x i v).hist = s.hist ∧ (s.setH x i v).y4096 = s.y4096 ∧ (s.setH x i v).meas = s.meas ∧
    (s.setH x i v).measPrev = s.measPrev ∧ (s.setH x i v).refused = s.refused ∧ (s.setH x i v).caps = s.caps ∧
    (s.setH x i v).mem = s.mem ∧ (s.setH x i v).latch = s.latch ∧ (s.setH x i v).hold = s.hold ∧ (s.setH x i v).resp
    = s.resp ∧ (s.setH x i v).freeN = s.freeN ∧ (s.setH x i v).rfifo = s.rfifo ∧ (s.setH x i v).held = s.held ∧
    (s.setH x i v).archive = s.archive ∧ (s.setH x i v).treg = s.treg ∧ (s.setH x i v).bufs = s.bufs ∧ (s.setH x i
    v).queues = s.queues ∧ (s.setH x i v).eqs = s.eqs ∧ (s.setH x i v).hostq = s.hostq ∧ (s.setH x i v).hatches =
    s.hatches ∧ (s.setH x i v).cache = s.cache ∧ (s.setH x i v).bins = s.bins ∧ (s.setH x i v).gq = s.gq ∧ (s.setH x
    i v).gin = s.gin ∧ (s.setH x i v).gouts = s.gouts ∧ (s.setH x i v).emits = s.emits ∧ (s.setH x i v).rx = s.rx ∧
    (s.setH x i v).tx = s.tx ∧ (s.setH x i v).ctl = s.ctl ∧ (s.setH x i v).tracks = s.tracks ∧ (s.setH x i v).obs =
    s.obs ∧ (s.setH x i v).rtLog = s.rtLog ∧ (s.setH x i v).twl = s.twl ∧ (s.setH x i v).twTx = s.twTx ∧ (s.setH x i
    v).wslots = s.wslots ∧ (s.setH x i v).wlast = s.wlast ∧ (s.setH x i v).wqueue = s.wqueue ∧ (s.setH x i v).ctx =
    s.ctx ∧ (s.setH x i v).lkp = s.lkp ∧ (s.setH x i v).pending = s.pending := by
  (repeat' apply And.intro) <;> rfl

/-- The fields `setByte` leaves alone. -/
@[simp] theorem State.setByte_fields (r : Region) (a : Nat) (b : Byte) :
        (s.setByte r a b).variant = s.variant ∧ (s.setByte r a b).regs = s.regs ∧ (s.setByte r a b).applied =
    s.applied ∧ (s.setByte r a b).prev = s.prev ∧ (s.setByte r a b).hid = s.hid ∧ (s.setByte r a b).now = s.now ∧
    (s.setByte r a b).coarse = s.coarse ∧ (s.setByte r a b).age = s.age ∧ (s.setByte r a b).hist = s.hist ∧
    (s.setByte r a b).y4096 = s.y4096 ∧ (s.setByte r a b).meas = s.meas ∧ (s.setByte r a b).measPrev = s.measPrev ∧
    (s.setByte r a b).refused = s.refused ∧ (s.setByte r a b).caps = s.caps ∧ (s.setByte r a b).latch = s.latch ∧
    (s.setByte r a b).hold = s.hold ∧ (s.setByte r a b).resp = s.resp ∧ (s.setByte r a b).freeN = s.freeN ∧
    (s.setByte r a b).rfifo = s.rfifo ∧ (s.setByte r a b).held = s.held ∧ (s.setByte r a b).archive = s.archive ∧
    (s.setByte r a b).treg = s.treg ∧ (s.setByte r a b).bufs = s.bufs ∧ (s.setByte r a b).queues = s.queues ∧
    (s.setByte r a b).eqs = s.eqs ∧ (s.setByte r a b).hostq = s.hostq ∧ (s.setByte r a b).hatches = s.hatches ∧
    (s.setByte r a b).cache = s.cache ∧ (s.setByte r a b).bins = s.bins ∧ (s.setByte r a b).gq = s.gq ∧ (s.setByte r
    a b).gin = s.gin ∧ (s.setByte r a b).gouts = s.gouts ∧ (s.setByte r a b).emits = s.emits ∧ (s.setByte r a b).rx
    = s.rx ∧ (s.setByte r a b).tx = s.tx ∧ (s.setByte r a b).ctl = s.ctl ∧ (s.setByte r a b).tracks = s.tracks ∧
    (s.setByte r a b).obs = s.obs ∧ (s.setByte r a b).rtLog = s.rtLog ∧ (s.setByte r a b).twl = s.twl ∧ (s.setByte r
    a b).twTx = s.twTx ∧ (s.setByte r a b).wslots = s.wslots ∧ (s.setByte r a b).wlast = s.wlast ∧ (s.setByte r a
    b).wqueue = s.wqueue ∧ (s.setByte r a b).ctx = s.ctx ∧ (s.setByte r a b).lkp = s.lkp ∧ (s.setByte r a b).pending
    = s.pending := by
  (repeat' apply And.intro) <;> rfl

/-- The fields `setTr` leaves alone. -/
@[simp] theorem State.setTr_fields (c n v : Nat) :
        (s.setTr c n v).variant = s.variant ∧ (s.setTr c n v).regs = s.regs ∧ (s.setTr c n v).applied = s.applied ∧
    (s.setTr c n v).prev = s.prev ∧ (s.setTr c n v).hid = s.hid ∧ (s.setTr c n v).now = s.now ∧ (s.setTr c n
    v).coarse = s.coarse ∧ (s.setTr c n v).age = s.age ∧ (s.setTr c n v).hist = s.hist ∧ (s.setTr c n v).y4096 =
    s.y4096 ∧ (s.setTr c n v).meas = s.meas ∧ (s.setTr c n v).measPrev = s.measPrev ∧ (s.setTr c n v).refused =
    s.refused ∧ (s.setTr c n v).caps = s.caps ∧ (s.setTr c n v).mem = s.mem ∧ (s.setTr c n v).latch = s.latch ∧
    (s.setTr c n v).hold = s.hold ∧ (s.setTr c n v).resp = s.resp ∧ (s.setTr c n v).freeN = s.freeN ∧ (s.setTr c n
    v).rfifo = s.rfifo ∧ (s.setTr c n v).held = s.held ∧ (s.setTr c n v).archive = s.archive ∧ (s.setTr c n v).bufs
    = s.bufs ∧ (s.setTr c n v).queues = s.queues ∧ (s.setTr c n v).eqs = s.eqs ∧ (s.setTr c n v).hostq = s.hostq ∧
    (s.setTr c n v).hatches = s.hatches ∧ (s.setTr c n v).cache = s.cache ∧ (s.setTr c n v).bins = s.bins ∧ (s.setTr
    c n v).gq = s.gq ∧ (s.setTr c n v).gin = s.gin ∧ (s.setTr c n v).gouts = s.gouts ∧ (s.setTr c n v).emits =
    s.emits ∧ (s.setTr c n v).rx = s.rx ∧ (s.setTr c n v).tx = s.tx ∧ (s.setTr c n v).ctl = s.ctl ∧ (s.setTr c n
    v).tracks = s.tracks ∧ (s.setTr c n v).obs = s.obs ∧ (s.setTr c n v).rtLog = s.rtLog ∧ (s.setTr c n v).twl =
    s.twl ∧ (s.setTr c n v).twTx = s.twTx ∧ (s.setTr c n v).wslots = s.wslots ∧ (s.setTr c n v).wlast = s.wlast ∧
    (s.setTr c n v).wqueue = s.wqueue ∧ (s.setTr c n v).ctx = s.ctx ∧ (s.setTr c n v).lkp = s.lkp ∧ (s.setTr c n
    v).pending = s.pending := by
  (repeat' apply And.intro) <;> rfl

/-- The fields `nextFree` leaves alone. -/
@[simp] theorem State.nextFree_fields :
        (s.nextFree).variant = s.variant ∧ (s.nextFree).regs = s.regs ∧ (s.nextFree).applied = s.applied ∧
    (s.nextFree).prev = s.prev ∧ (s.nextFree).hid = s.hid ∧ (s.nextFree).now = s.now ∧ (s.nextFree).coarse =
    s.coarse ∧ (s.nextFree).age = s.age ∧ (s.nextFree).hist = s.hist ∧ (s.nextFree).y4096 = s.y4096 ∧
    (s.nextFree).meas = s.meas ∧ (s.nextFree).measPrev = s.measPrev ∧ (s.nextFree).refused = s.refused ∧
    (s.nextFree).caps = s.caps ∧ (s.nextFree).mem = s.mem ∧ (s.nextFree).latch = s.latch ∧ (s.nextFree).hold =
    s.hold ∧ (s.nextFree).resp = s.resp ∧ (s.nextFree).rfifo = s.rfifo ∧ (s.nextFree).held = s.held ∧
    (s.nextFree).archive = s.archive ∧ (s.nextFree).treg = s.treg ∧ (s.nextFree).bufs = s.bufs ∧ (s.nextFree).queues
    = s.queues ∧ (s.nextFree).eqs = s.eqs ∧ (s.nextFree).hostq = s.hostq ∧ (s.nextFree).hatches = s.hatches ∧
    (s.nextFree).cache = s.cache ∧ (s.nextFree).bins = s.bins ∧ (s.nextFree).gq = s.gq ∧ (s.nextFree).gin = s.gin ∧
    (s.nextFree).gouts = s.gouts ∧ (s.nextFree).emits = s.emits ∧ (s.nextFree).rx = s.rx ∧ (s.nextFree).tx = s.tx ∧
    (s.nextFree).ctl = s.ctl ∧ (s.nextFree).tracks = s.tracks ∧ (s.nextFree).obs = s.obs ∧ (s.nextFree).rtLog =
    s.rtLog ∧ (s.nextFree).twl = s.twl ∧ (s.nextFree).twTx = s.twTx ∧ (s.nextFree).wslots = s.wslots ∧
    (s.nextFree).wlast = s.wlast ∧ (s.nextFree).wqueue = s.wqueue ∧ (s.nextFree).ctx = s.ctx ∧ (s.nextFree).lkp =
    s.lkp ∧ (s.nextFree).pending = s.pending := by
  (repeat' apply And.intro) <;> rfl

/-- The fields `ok` leaves alone. -/
@[simp] theorem State.ok_fields (v : Nat) :
        (s.ok v).variant = s.variant ∧ (s.ok v).regs = s.regs ∧ (s.ok v).applied = s.applied ∧ (s.ok v).prev =
    s.prev ∧ (s.ok v).hid = s.hid ∧ (s.ok v).now = s.now ∧ (s.ok v).coarse = s.coarse ∧ (s.ok v).age = s.age ∧ (s.ok
    v).hist = s.hist ∧ (s.ok v).y4096 = s.y4096 ∧ (s.ok v).meas = s.meas ∧ (s.ok v).measPrev = s.measPrev ∧ (s.ok
    v).refused = s.refused ∧ (s.ok v).caps = s.caps ∧ (s.ok v).mem = s.mem ∧ (s.ok v).latch = s.latch ∧ (s.ok
    v).hold = s.hold ∧ (s.ok v).freeN = s.freeN ∧ (s.ok v).rfifo = s.rfifo ∧ (s.ok v).held = s.held ∧ (s.ok
    v).archive = s.archive ∧ (s.ok v).treg = s.treg ∧ (s.ok v).bufs = s.bufs ∧ (s.ok v).queues = s.queues ∧ (s.ok
    v).eqs = s.eqs ∧ (s.ok v).hostq = s.hostq ∧ (s.ok v).hatches = s.hatches ∧ (s.ok v).cache = s.cache ∧ (s.ok
    v).bins = s.bins ∧ (s.ok v).gq = s.gq ∧ (s.ok v).gin = s.gin ∧ (s.ok v).gouts = s.gouts ∧ (s.ok v).emits =
    s.emits ∧ (s.ok v).rx = s.rx ∧ (s.ok v).tx = s.tx ∧ (s.ok v).ctl = s.ctl ∧ (s.ok v).tracks = s.tracks ∧ (s.ok
    v).obs = s.obs ∧ (s.ok v).rtLog = s.rtLog ∧ (s.ok v).twl = s.twl ∧ (s.ok v).twTx = s.twTx ∧ (s.ok v).wslots =
    s.wslots ∧ (s.ok v).wlast = s.wlast ∧ (s.ok v).wqueue = s.wqueue ∧ (s.ok v).ctx = s.ctx ∧ (s.ok v).lkp = s.lkp ∧
    (s.ok v).pending = s.pending := by
  (repeat' apply And.intro) <;> rfl

/-- The fields `busError` leaves alone. -/
@[simp] theorem State.busError_fields :
        (s.busError).variant = s.variant ∧ (s.busError).regs = s.regs ∧ (s.busError).applied = s.applied ∧
    (s.busError).prev = s.prev ∧ (s.busError).hid = s.hid ∧ (s.busError).now = s.now ∧ (s.busError).coarse =
    s.coarse ∧ (s.busError).age = s.age ∧ (s.busError).hist = s.hist ∧ (s.busError).y4096 = s.y4096 ∧
    (s.busError).meas = s.meas ∧ (s.busError).measPrev = s.measPrev ∧ (s.busError).refused = s.refused ∧
    (s.busError).caps = s.caps ∧ (s.busError).mem = s.mem ∧ (s.busError).latch = s.latch ∧ (s.busError).hold =
    s.hold ∧ (s.busError).freeN = s.freeN ∧ (s.busError).rfifo = s.rfifo ∧ (s.busError).held = s.held ∧
    (s.busError).archive = s.archive ∧ (s.busError).treg = s.treg ∧ (s.busError).bufs = s.bufs ∧ (s.busError).queues
    = s.queues ∧ (s.busError).eqs = s.eqs ∧ (s.busError).hostq = s.hostq ∧ (s.busError).hatches = s.hatches ∧
    (s.busError).cache = s.cache ∧ (s.busError).bins = s.bins ∧ (s.busError).gq = s.gq ∧ (s.busError).gin = s.gin ∧
    (s.busError).gouts = s.gouts ∧ (s.busError).emits = s.emits ∧ (s.busError).rx = s.rx ∧ (s.busError).tx = s.tx ∧
    (s.busError).ctl = s.ctl ∧ (s.busError).tracks = s.tracks ∧ (s.busError).obs = s.obs ∧ (s.busError).rtLog =
    s.rtLog ∧ (s.busError).twl = s.twl ∧ (s.busError).twTx = s.twTx ∧ (s.busError).wslots = s.wslots ∧
    (s.busError).wlast = s.wlast ∧ (s.busError).wqueue = s.wqueue ∧ (s.busError).ctx = s.ctx ∧ (s.busError).lkp =
    s.lkp ∧ (s.busError).pending = s.pending := by
  (repeat' apply And.intro) <;> rfl

/-- The fields `setBuf` leaves alone. -/
@[simp] theorem State.setBuf_fields (k : Nat) (b : Buf) :
        (s.setBuf k b).variant = s.variant ∧ (s.setBuf k b).regs = s.regs ∧ (s.setBuf k b).applied = s.applied ∧
    (s.setBuf k b).prev = s.prev ∧ (s.setBuf k b).hid = s.hid ∧ (s.setBuf k b).now = s.now ∧ (s.setBuf k b).coarse =
    s.coarse ∧ (s.setBuf k b).age = s.age ∧ (s.setBuf k b).hist = s.hist ∧ (s.setBuf k b).y4096 = s.y4096 ∧
    (s.setBuf k b).meas = s.meas ∧ (s.setBuf k b).measPrev = s.measPrev ∧ (s.setBuf k b).refused = s.refused ∧
    (s.setBuf k b).caps = s.caps ∧ (s.setBuf k b).mem = s.mem ∧ (s.setBuf k b).latch = s.latch ∧ (s.setBuf k b).hold
    = s.hold ∧ (s.setBuf k b).resp = s.resp ∧ (s.setBuf k b).freeN = s.freeN ∧ (s.setBuf k b).rfifo = s.rfifo ∧
    (s.setBuf k b).held = s.held ∧ (s.setBuf k b).archive = s.archive ∧ (s.setBuf k b).treg = s.treg ∧ (s.setBuf k
    b).queues = s.queues ∧ (s.setBuf k b).eqs = s.eqs ∧ (s.setBuf k b).hostq = s.hostq ∧ (s.setBuf k b).hatches =
    s.hatches ∧ (s.setBuf k b).cache = s.cache ∧ (s.setBuf k b).bins = s.bins ∧ (s.setBuf k b).gq = s.gq ∧ (s.setBuf
    k b).gin = s.gin ∧ (s.setBuf k b).gouts = s.gouts ∧ (s.setBuf k b).emits = s.emits ∧ (s.setBuf k b).rx = s.rx ∧
    (s.setBuf k b).tx = s.tx ∧ (s.setBuf k b).ctl = s.ctl ∧ (s.setBuf k b).tracks = s.tracks ∧ (s.setBuf k b).obs =
    s.obs ∧ (s.setBuf k b).rtLog = s.rtLog ∧ (s.setBuf k b).twl = s.twl ∧ (s.setBuf k b).twTx = s.twTx ∧ (s.setBuf k
    b).wslots = s.wslots ∧ (s.setBuf k b).wlast = s.wlast ∧ (s.setBuf k b).wqueue = s.wqueue ∧ (s.setBuf k b).ctx =
    s.ctx ∧ (s.setBuf k b).lkp = s.lkp ∧ (s.setBuf k b).pending = s.pending := by
  (repeat' apply And.intro) <;> rfl

/-- The fields `setQueue` leaves alone. -/
@[simp] theorem State.setQueue_fields (k : Nat) (l : List Copy) :
        (s.setQueue k l).variant = s.variant ∧ (s.setQueue k l).regs = s.regs ∧ (s.setQueue k l).applied = s.applied
    ∧ (s.setQueue k l).prev = s.prev ∧ (s.setQueue k l).hid = s.hid ∧ (s.setQueue k l).now = s.now ∧ (s.setQueue k
    l).coarse = s.coarse ∧ (s.setQueue k l).age = s.age ∧ (s.setQueue k l).hist = s.hist ∧ (s.setQueue k l).y4096 =
    s.y4096 ∧ (s.setQueue k l).meas = s.meas ∧ (s.setQueue k l).measPrev = s.measPrev ∧ (s.setQueue k l).refused =
    s.refused ∧ (s.setQueue k l).caps = s.caps ∧ (s.setQueue k l).mem = s.mem ∧ (s.setQueue k l).latch = s.latch ∧
    (s.setQueue k l).hold = s.hold ∧ (s.setQueue k l).resp = s.resp ∧ (s.setQueue k l).freeN = s.freeN ∧ (s.setQueue
    k l).rfifo = s.rfifo ∧ (s.setQueue k l).held = s.held ∧ (s.setQueue k l).archive = s.archive ∧ (s.setQueue k
    l).treg = s.treg ∧ (s.setQueue k l).bufs = s.bufs ∧ (s.setQueue k l).eqs = s.eqs ∧ (s.setQueue k l).hostq =
    s.hostq ∧ (s.setQueue k l).hatches = s.hatches ∧ (s.setQueue k l).cache = s.cache ∧ (s.setQueue k l).bins =
    s.bins ∧ (s.setQueue k l).gq = s.gq ∧ (s.setQueue k l).gin = s.gin ∧ (s.setQueue k l).gouts = s.gouts ∧
    (s.setQueue k l).emits = s.emits ∧ (s.setQueue k l).rx = s.rx ∧ (s.setQueue k l).tx = s.tx ∧ (s.setQueue k
    l).ctl = s.ctl ∧ (s.setQueue k l).tracks = s.tracks ∧ (s.setQueue k l).obs = s.obs ∧ (s.setQueue k l).rtLog =
    s.rtLog ∧ (s.setQueue k l).twl = s.twl ∧ (s.setQueue k l).twTx = s.twTx ∧ (s.setQueue k l).wslots = s.wslots ∧
    (s.setQueue k l).wlast = s.wlast ∧ (s.setQueue k l).wqueue = s.wqueue ∧ (s.setQueue k l).ctx = s.ctx ∧
    (s.setQueue k l).lkp = s.lkp ∧ (s.setQueue k l).pending = s.pending := by
  (repeat' apply And.intro) <;> rfl

/-- The fields `setEq` leaves alone. -/
@[simp] theorem State.setEq_fields (k : Nat) (l : List Copy) :
        (s.setEq k l).variant = s.variant ∧ (s.setEq k l).regs = s.regs ∧ (s.setEq k l).applied = s.applied ∧
    (s.setEq k l).prev = s.prev ∧ (s.setEq k l).hid = s.hid ∧ (s.setEq k l).now = s.now ∧ (s.setEq k l).coarse =
    s.coarse ∧ (s.setEq k l).age = s.age ∧ (s.setEq k l).hist = s.hist ∧ (s.setEq k l).y4096 = s.y4096 ∧ (s.setEq k
    l).meas = s.meas ∧ (s.setEq k l).measPrev = s.measPrev ∧ (s.setEq k l).refused = s.refused ∧ (s.setEq k l).caps
    = s.caps ∧ (s.setEq k l).mem = s.mem ∧ (s.setEq k l).latch = s.latch ∧ (s.setEq k l).hold = s.hold ∧ (s.setEq k
    l).resp = s.resp ∧ (s.setEq k l).freeN = s.freeN ∧ (s.setEq k l).rfifo = s.rfifo ∧ (s.setEq k l).held = s.held ∧
    (s.setEq k l).archive = s.archive ∧ (s.setEq k l).treg = s.treg ∧ (s.setEq k l).bufs = s.bufs ∧ (s.setEq k
    l).queues = s.queues ∧ (s.setEq k l).hostq = s.hostq ∧ (s.setEq k l).hatches = s.hatches ∧ (s.setEq k l).cache =
    s.cache ∧ (s.setEq k l).bins = s.bins ∧ (s.setEq k l).gq = s.gq ∧ (s.setEq k l).gin = s.gin ∧ (s.setEq k
    l).gouts = s.gouts ∧ (s.setEq k l).emits = s.emits ∧ (s.setEq k l).rx = s.rx ∧ (s.setEq k l).tx = s.tx ∧
    (s.setEq k l).ctl = s.ctl ∧ (s.setEq k l).tracks = s.tracks ∧ (s.setEq k l).obs = s.obs ∧ (s.setEq k l).rtLog =
    s.rtLog ∧ (s.setEq k l).twl = s.twl ∧ (s.setEq k l).twTx = s.twTx ∧ (s.setEq k l).wslots = s.wslots ∧ (s.setEq k
    l).wlast = s.wlast ∧ (s.setEq k l).wqueue = s.wqueue ∧ (s.setEq k l).ctx = s.ctx ∧ (s.setEq k l).lkp = s.lkp ∧
    (s.setEq k l).pending = s.pending := by
  (repeat' apply And.intro) <;> rfl

/-- The fields `setHq` leaves alone. -/
@[simp] theorem State.setHq_fields (k : Nat) (l : List Copy) :
        (s.setHq k l).variant = s.variant ∧ (s.setHq k l).regs = s.regs ∧ (s.setHq k l).applied = s.applied ∧
    (s.setHq k l).prev = s.prev ∧ (s.setHq k l).hid = s.hid ∧ (s.setHq k l).now = s.now ∧ (s.setHq k l).coarse =
    s.coarse ∧ (s.setHq k l).age = s.age ∧ (s.setHq k l).hist = s.hist ∧ (s.setHq k l).y4096 = s.y4096 ∧ (s.setHq k
    l).meas = s.meas ∧ (s.setHq k l).measPrev = s.measPrev ∧ (s.setHq k l).refused = s.refused ∧ (s.setHq k l).caps
    = s.caps ∧ (s.setHq k l).mem = s.mem ∧ (s.setHq k l).latch = s.latch ∧ (s.setHq k l).hold = s.hold ∧ (s.setHq k
    l).resp = s.resp ∧ (s.setHq k l).freeN = s.freeN ∧ (s.setHq k l).rfifo = s.rfifo ∧ (s.setHq k l).held = s.held ∧
    (s.setHq k l).archive = s.archive ∧ (s.setHq k l).treg = s.treg ∧ (s.setHq k l).bufs = s.bufs ∧ (s.setHq k
    l).queues = s.queues ∧ (s.setHq k l).eqs = s.eqs ∧ (s.setHq k l).hatches = s.hatches ∧ (s.setHq k l).cache =
    s.cache ∧ (s.setHq k l).bins = s.bins ∧ (s.setHq k l).gq = s.gq ∧ (s.setHq k l).gin = s.gin ∧ (s.setHq k
    l).gouts = s.gouts ∧ (s.setHq k l).emits = s.emits ∧ (s.setHq k l).rx = s.rx ∧ (s.setHq k l).tx = s.tx ∧
    (s.setHq k l).ctl = s.ctl ∧ (s.setHq k l).tracks = s.tracks ∧ (s.setHq k l).obs = s.obs ∧ (s.setHq k l).rtLog =
    s.rtLog ∧ (s.setHq k l).twl = s.twl ∧ (s.setHq k l).twTx = s.twTx ∧ (s.setHq k l).wslots = s.wslots ∧ (s.setHq k
    l).wlast = s.wlast ∧ (s.setHq k l).wqueue = s.wqueue ∧ (s.setHq k l).ctx = s.ctx ∧ (s.setHq k l).lkp = s.lkp ∧
    (s.setHq k l).pending = s.pending := by
  (repeat' apply And.intro) <;> rfl

/-- The fields `setHatch` leaves alone. -/
@[simp] theorem State.setHatch_fields (k : Nat) (l : List Nat) :
        (s.setHatch k l).variant = s.variant ∧ (s.setHatch k l).regs = s.regs ∧ (s.setHatch k l).applied = s.applied
    ∧ (s.setHatch k l).prev = s.prev ∧ (s.setHatch k l).hid = s.hid ∧ (s.setHatch k l).now = s.now ∧ (s.setHatch k
    l).coarse = s.coarse ∧ (s.setHatch k l).age = s.age ∧ (s.setHatch k l).hist = s.hist ∧ (s.setHatch k l).y4096 =
    s.y4096 ∧ (s.setHatch k l).meas = s.meas ∧ (s.setHatch k l).measPrev = s.measPrev ∧ (s.setHatch k l).refused =
    s.refused ∧ (s.setHatch k l).caps = s.caps ∧ (s.setHatch k l).mem = s.mem ∧ (s.setHatch k l).latch = s.latch ∧
    (s.setHatch k l).hold = s.hold ∧ (s.setHatch k l).resp = s.resp ∧ (s.setHatch k l).freeN = s.freeN ∧ (s.setHatch
    k l).rfifo = s.rfifo ∧ (s.setHatch k l).held = s.held ∧ (s.setHatch k l).archive = s.archive ∧ (s.setHatch k
    l).treg = s.treg ∧ (s.setHatch k l).bufs = s.bufs ∧ (s.setHatch k l).queues = s.queues ∧ (s.setHatch k l).eqs =
    s.eqs ∧ (s.setHatch k l).hostq = s.hostq ∧ (s.setHatch k l).cache = s.cache ∧ (s.setHatch k l).bins = s.bins ∧
    (s.setHatch k l).gq = s.gq ∧ (s.setHatch k l).gin = s.gin ∧ (s.setHatch k l).gouts = s.gouts ∧ (s.setHatch k
    l).emits = s.emits ∧ (s.setHatch k l).rx = s.rx ∧ (s.setHatch k l).tx = s.tx ∧ (s.setHatch k l).ctl = s.ctl ∧
    (s.setHatch k l).tracks = s.tracks ∧ (s.setHatch k l).obs = s.obs ∧ (s.setHatch k l).rtLog = s.rtLog ∧
    (s.setHatch k l).twl = s.twl ∧ (s.setHatch k l).twTx = s.twTx ∧ (s.setHatch k l).wslots = s.wslots ∧ (s.setHatch
    k l).wlast = s.wlast ∧ (s.setHatch k l).wqueue = s.wqueue ∧ (s.setHatch k l).ctx = s.ctx ∧ (s.setHatch k l).lkp
    = s.lkp ∧ (s.setHatch k l).pending = s.pending := by
  (repeat' apply And.intro) <;> rfl

/-- The fields `setRx` leaves alone. -/
@[simp] theorem State.setRx_fields (p : Nat) (x : Option Rx) :
        (s.setRx p x).variant = s.variant ∧ (s.setRx p x).regs = s.regs ∧ (s.setRx p x).applied = s.applied ∧
    (s.setRx p x).prev = s.prev ∧ (s.setRx p x).hid = s.hid ∧ (s.setRx p x).now = s.now ∧ (s.setRx p x).coarse =
    s.coarse ∧ (s.setRx p x).age = s.age ∧ (s.setRx p x).hist = s.hist ∧ (s.setRx p x).y4096 = s.y4096 ∧ (s.setRx p
    x).meas = s.meas ∧ (s.setRx p x).measPrev = s.measPrev ∧ (s.setRx p x).refused = s.refused ∧ (s.setRx p x).caps
    = s.caps ∧ (s.setRx p x).mem = s.mem ∧ (s.setRx p x).latch = s.latch ∧ (s.setRx p x).hold = s.hold ∧ (s.setRx p
    x).resp = s.resp ∧ (s.setRx p x).freeN = s.freeN ∧ (s.setRx p x).rfifo = s.rfifo ∧ (s.setRx p x).held = s.held ∧
    (s.setRx p x).archive = s.archive ∧ (s.setRx p x).treg = s.treg ∧ (s.setRx p x).bufs = s.bufs ∧ (s.setRx p
    x).queues = s.queues ∧ (s.setRx p x).eqs = s.eqs ∧ (s.setRx p x).hostq = s.hostq ∧ (s.setRx p x).hatches =
    s.hatches ∧ (s.setRx p x).cache = s.cache ∧ (s.setRx p x).bins = s.bins ∧ (s.setRx p x).gq = s.gq ∧ (s.setRx p
    x).gin = s.gin ∧ (s.setRx p x).gouts = s.gouts ∧ (s.setRx p x).emits = s.emits ∧ (s.setRx p x).tx = s.tx ∧
    (s.setRx p x).ctl = s.ctl ∧ (s.setRx p x).tracks = s.tracks ∧ (s.setRx p x).obs = s.obs ∧ (s.setRx p x).rtLog =
    s.rtLog ∧ (s.setRx p x).twl = s.twl ∧ (s.setRx p x).twTx = s.twTx ∧ (s.setRx p x).wslots = s.wslots ∧ (s.setRx p
    x).wlast = s.wlast ∧ (s.setRx p x).wqueue = s.wqueue ∧ (s.setRx p x).ctx = s.ctx ∧ (s.setRx p x).lkp = s.lkp ∧
    (s.setRx p x).pending = s.pending := by
  (repeat' apply And.intro) <;> rfl

/-- The fields `setTx` leaves alone. -/
@[simp] theorem State.setTx_fields (p : Nat) (x : Option Tx) :
        (s.setTx p x).variant = s.variant ∧ (s.setTx p x).regs = s.regs ∧ (s.setTx p x).applied = s.applied ∧
    (s.setTx p x).prev = s.prev ∧ (s.setTx p x).hid = s.hid ∧ (s.setTx p x).now = s.now ∧ (s.setTx p x).coarse =
    s.coarse ∧ (s.setTx p x).age = s.age ∧ (s.setTx p x).hist = s.hist ∧ (s.setTx p x).y4096 = s.y4096 ∧ (s.setTx p
    x).meas = s.meas ∧ (s.setTx p x).measPrev = s.measPrev ∧ (s.setTx p x).refused = s.refused ∧ (s.setTx p x).caps
    = s.caps ∧ (s.setTx p x).mem = s.mem ∧ (s.setTx p x).latch = s.latch ∧ (s.setTx p x).hold = s.hold ∧ (s.setTx p
    x).resp = s.resp ∧ (s.setTx p x).freeN = s.freeN ∧ (s.setTx p x).rfifo = s.rfifo ∧ (s.setTx p x).held = s.held ∧
    (s.setTx p x).archive = s.archive ∧ (s.setTx p x).treg = s.treg ∧ (s.setTx p x).bufs = s.bufs ∧ (s.setTx p
    x).queues = s.queues ∧ (s.setTx p x).eqs = s.eqs ∧ (s.setTx p x).hostq = s.hostq ∧ (s.setTx p x).hatches =
    s.hatches ∧ (s.setTx p x).cache = s.cache ∧ (s.setTx p x).bins = s.bins ∧ (s.setTx p x).gq = s.gq ∧ (s.setTx p
    x).gin = s.gin ∧ (s.setTx p x).gouts = s.gouts ∧ (s.setTx p x).emits = s.emits ∧ (s.setTx p x).rx = s.rx ∧
    (s.setTx p x).ctl = s.ctl ∧ (s.setTx p x).tracks = s.tracks ∧ (s.setTx p x).obs = s.obs ∧ (s.setTx p x).rtLog =
    s.rtLog ∧ (s.setTx p x).twl = s.twl ∧ (s.setTx p x).twTx = s.twTx ∧ (s.setTx p x).wslots = s.wslots ∧ (s.setTx p
    x).wlast = s.wlast ∧ (s.setTx p x).wqueue = s.wqueue ∧ (s.setTx p x).ctx = s.ctx ∧ (s.setTx p x).lkp = s.lkp ∧
    (s.setTx p x).pending = s.pending := by
  (repeat' apply And.intro) <;> rfl

/-- The fields `setCtl` leaves alone. -/
@[simp] theorem State.setCtl_fields (p : Nat) (l : List Tx) :
        (s.setCtl p l).variant = s.variant ∧ (s.setCtl p l).regs = s.regs ∧ (s.setCtl p l).applied = s.applied ∧
    (s.setCtl p l).prev = s.prev ∧ (s.setCtl p l).hid = s.hid ∧ (s.setCtl p l).now = s.now ∧ (s.setCtl p l).coarse =
    s.coarse ∧ (s.setCtl p l).age = s.age ∧ (s.setCtl p l).hist = s.hist ∧ (s.setCtl p l).y4096 = s.y4096 ∧
    (s.setCtl p l).meas = s.meas ∧ (s.setCtl p l).measPrev = s.measPrev ∧ (s.setCtl p l).refused = s.refused ∧
    (s.setCtl p l).caps = s.caps ∧ (s.setCtl p l).mem = s.mem ∧ (s.setCtl p l).latch = s.latch ∧ (s.setCtl p l).hold
    = s.hold ∧ (s.setCtl p l).resp = s.resp ∧ (s.setCtl p l).freeN = s.freeN ∧ (s.setCtl p l).rfifo = s.rfifo ∧
    (s.setCtl p l).held = s.held ∧ (s.setCtl p l).archive = s.archive ∧ (s.setCtl p l).treg = s.treg ∧ (s.setCtl p
    l).bufs = s.bufs ∧ (s.setCtl p l).queues = s.queues ∧ (s.setCtl p l).eqs = s.eqs ∧ (s.setCtl p l).hostq =
    s.hostq ∧ (s.setCtl p l).hatches = s.hatches ∧ (s.setCtl p l).cache = s.cache ∧ (s.setCtl p l).bins = s.bins ∧
    (s.setCtl p l).gq = s.gq ∧ (s.setCtl p l).gin = s.gin ∧ (s.setCtl p l).gouts = s.gouts ∧ (s.setCtl p l).emits =
    s.emits ∧ (s.setCtl p l).rx = s.rx ∧ (s.setCtl p l).tx = s.tx ∧ (s.setCtl p l).tracks = s.tracks ∧ (s.setCtl p
    l).obs = s.obs ∧ (s.setCtl p l).rtLog = s.rtLog ∧ (s.setCtl p l).twl = s.twl ∧ (s.setCtl p l).twTx = s.twTx ∧
    (s.setCtl p l).wslots = s.wslots ∧ (s.setCtl p l).wlast = s.wlast ∧ (s.setCtl p l).wqueue = s.wqueue ∧ (s.setCtl
    p l).ctx = s.ctx ∧ (s.setCtl p l).lkp = s.lkp ∧ (s.setCtl p l).pending = s.pending := by
  (repeat' apply And.intro) <;> rfl

/-- The fields `setTrack` leaves alone. -/
@[simp] theorem State.setTrack_fields (k : Nat) (x : Track) :
        (s.setTrack k x).variant = s.variant ∧ (s.setTrack k x).regs = s.regs ∧ (s.setTrack k x).applied = s.applied
    ∧ (s.setTrack k x).prev = s.prev ∧ (s.setTrack k x).hid = s.hid ∧ (s.setTrack k x).now = s.now ∧ (s.setTrack k
    x).coarse = s.coarse ∧ (s.setTrack k x).age = s.age ∧ (s.setTrack k x).hist = s.hist ∧ (s.setTrack k x).y4096 =
    s.y4096 ∧ (s.setTrack k x).meas = s.meas ∧ (s.setTrack k x).measPrev = s.measPrev ∧ (s.setTrack k x).refused =
    s.refused ∧ (s.setTrack k x).caps = s.caps ∧ (s.setTrack k x).mem = s.mem ∧ (s.setTrack k x).latch = s.latch ∧
    (s.setTrack k x).hold = s.hold ∧ (s.setTrack k x).resp = s.resp ∧ (s.setTrack k x).freeN = s.freeN ∧ (s.setTrack
    k x).rfifo = s.rfifo ∧ (s.setTrack k x).held = s.held ∧ (s.setTrack k x).archive = s.archive ∧ (s.setTrack k
    x).treg = s.treg ∧ (s.setTrack k x).bufs = s.bufs ∧ (s.setTrack k x).queues = s.queues ∧ (s.setTrack k x).eqs =
    s.eqs ∧ (s.setTrack k x).hostq = s.hostq ∧ (s.setTrack k x).hatches = s.hatches ∧ (s.setTrack k x).cache =
    s.cache ∧ (s.setTrack k x).bins = s.bins ∧ (s.setTrack k x).gq = s.gq ∧ (s.setTrack k x).gin = s.gin ∧
    (s.setTrack k x).gouts = s.gouts ∧ (s.setTrack k x).emits = s.emits ∧ (s.setTrack k x).rx = s.rx ∧ (s.setTrack k
    x).tx = s.tx ∧ (s.setTrack k x).ctl = s.ctl ∧ (s.setTrack k x).obs = s.obs ∧ (s.setTrack k x).rtLog = s.rtLog ∧
    (s.setTrack k x).twl = s.twl ∧ (s.setTrack k x).twTx = s.twTx ∧ (s.setTrack k x).wslots = s.wslots ∧ (s.setTrack
    k x).wlast = s.wlast ∧ (s.setTrack k x).wqueue = s.wqueue ∧ (s.setTrack k x).ctx = s.ctx ∧ (s.setTrack k x).lkp
    = s.lkp ∧ (s.setTrack k x).pending = s.pending := by
  (repeat' apply And.intro) <;> rfl

/-- The fields `setEntry` leaves alone. -/
@[simp] theorem State.setEntry_fields (t i : Nat) (x : LkEntry) :
        (s.setEntry t i x).variant = s.variant ∧ (s.setEntry t i x).regs = s.regs ∧ (s.setEntry t i x).applied =
    s.applied ∧ (s.setEntry t i x).prev = s.prev ∧ (s.setEntry t i x).hid = s.hid ∧ (s.setEntry t i x).now = s.now ∧
    (s.setEntry t i x).coarse = s.coarse ∧ (s.setEntry t i x).age = s.age ∧ (s.setEntry t i x).hist = s.hist ∧
    (s.setEntry t i x).y4096 = s.y4096 ∧ (s.setEntry t i x).meas = s.meas ∧ (s.setEntry t i x).measPrev = s.measPrev
    ∧ (s.setEntry t i x).refused = s.refused ∧ (s.setEntry t i x).caps = s.caps ∧ (s.setEntry t i x).mem = s.mem ∧
    (s.setEntry t i x).latch = s.latch ∧ (s.setEntry t i x).hold = s.hold ∧ (s.setEntry t i x).resp = s.resp ∧
    (s.setEntry t i x).freeN = s.freeN ∧ (s.setEntry t i x).rfifo = s.rfifo ∧ (s.setEntry t i x).held = s.held ∧
    (s.setEntry t i x).archive = s.archive ∧ (s.setEntry t i x).treg = s.treg ∧ (s.setEntry t i x).bufs = s.bufs ∧
    (s.setEntry t i x).queues = s.queues ∧ (s.setEntry t i x).eqs = s.eqs ∧ (s.setEntry t i x).hostq = s.hostq ∧
    (s.setEntry t i x).hatches = s.hatches ∧ (s.setEntry t i x).cache = s.cache ∧ (s.setEntry t i x).bins = s.bins ∧
    (s.setEntry t i x).gq = s.gq ∧ (s.setEntry t i x).gin = s.gin ∧ (s.setEntry t i x).gouts = s.gouts ∧ (s.setEntry
    t i x).emits = s.emits ∧ (s.setEntry t i x).rx = s.rx ∧ (s.setEntry t i x).tx = s.tx ∧ (s.setEntry t i x).ctl =
    s.ctl ∧ (s.setEntry t i x).tracks = s.tracks ∧ (s.setEntry t i x).obs = s.obs ∧ (s.setEntry t i x).rtLog =
    s.rtLog ∧ (s.setEntry t i x).twl = s.twl ∧ (s.setEntry t i x).twTx = s.twTx ∧ (s.setEntry t i x).wslots =
    s.wslots ∧ (s.setEntry t i x).wlast = s.wlast ∧ (s.setEntry t i x).wqueue = s.wqueue ∧ (s.setEntry t i x).ctx =
    s.ctx ∧ (s.setEntry t i x).pending = s.pending := by
  (repeat' apply And.intro) <;> rfl

/-- The fields `setLong` leaves alone. -/
@[simp] theorem State.setLong_fields (n : Nat) (l : List Int) :
        (s.setLong n l).variant = s.variant ∧ (s.setLong n l).regs = s.regs ∧ (s.setLong n l).applied = s.applied ∧
    (s.setLong n l).prev = s.prev ∧ (s.setLong n l).hid = s.hid ∧ (s.setLong n l).now = s.now ∧ (s.setLong n
    l).coarse = s.coarse ∧ (s.setLong n l).age = s.age ∧ (s.setLong n l).hist = s.hist ∧ (s.setLong n l).meas =
    s.meas ∧ (s.setLong n l).measPrev = s.measPrev ∧ (s.setLong n l).refused = s.refused ∧ (s.setLong n l).caps =
    s.caps ∧ (s.setLong n l).mem = s.mem ∧ (s.setLong n l).latch = s.latch ∧ (s.setLong n l).hold = s.hold ∧
    (s.setLong n l).resp = s.resp ∧ (s.setLong n l).freeN = s.freeN ∧ (s.setLong n l).rfifo = s.rfifo ∧ (s.setLong n
    l).held = s.held ∧ (s.setLong n l).archive = s.archive ∧ (s.setLong n l).treg = s.treg ∧ (s.setLong n l).bufs =
    s.bufs ∧ (s.setLong n l).queues = s.queues ∧ (s.setLong n l).eqs = s.eqs ∧ (s.setLong n l).hostq = s.hostq ∧
    (s.setLong n l).hatches = s.hatches ∧ (s.setLong n l).cache = s.cache ∧ (s.setLong n l).bins = s.bins ∧
    (s.setLong n l).gq = s.gq ∧ (s.setLong n l).gin = s.gin ∧ (s.setLong n l).gouts = s.gouts ∧ (s.setLong n
    l).emits = s.emits ∧ (s.setLong n l).rx = s.rx ∧ (s.setLong n l).tx = s.tx ∧ (s.setLong n l).ctl = s.ctl ∧
    (s.setLong n l).tracks = s.tracks ∧ (s.setLong n l).obs = s.obs ∧ (s.setLong n l).rtLog = s.rtLog ∧ (s.setLong n
    l).twl = s.twl ∧ (s.setLong n l).twTx = s.twTx ∧ (s.setLong n l).wslots = s.wslots ∧ (s.setLong n l).wlast =
    s.wlast ∧ (s.setLong n l).wqueue = s.wqueue ∧ (s.setLong n l).ctx = s.ctx ∧ (s.setLong n l).lkp = s.lkp ∧
    (s.setLong n l).pending = s.pending := by
  (repeat' apply And.intro) <;> rfl

/-- The fields `setCap` leaves alone. -/
@[simp] theorem State.setCap_fields (k : Nat) (l : List CapRec) :
        (s.setCap k l).variant = s.variant ∧ (s.setCap k l).regs = s.regs ∧ (s.setCap k l).applied = s.applied ∧
    (s.setCap k l).prev = s.prev ∧ (s.setCap k l).hid = s.hid ∧ (s.setCap k l).now = s.now ∧ (s.setCap k l).coarse =
    s.coarse ∧ (s.setCap k l).age = s.age ∧ (s.setCap k l).hist = s.hist ∧ (s.setCap k l).y4096 = s.y4096 ∧
    (s.setCap k l).meas = s.meas ∧ (s.setCap k l).measPrev = s.measPrev ∧ (s.setCap k l).refused = s.refused ∧
    (s.setCap k l).mem = s.mem ∧ (s.setCap k l).latch = s.latch ∧ (s.setCap k l).hold = s.hold ∧ (s.setCap k l).resp
    = s.resp ∧ (s.setCap k l).freeN = s.freeN ∧ (s.setCap k l).rfifo = s.rfifo ∧ (s.setCap k l).held = s.held ∧
    (s.setCap k l).archive = s.archive ∧ (s.setCap k l).treg = s.treg ∧ (s.setCap k l).bufs = s.bufs ∧ (s.setCap k
    l).queues = s.queues ∧ (s.setCap k l).eqs = s.eqs ∧ (s.setCap k l).hostq = s.hostq ∧ (s.setCap k l).hatches =
    s.hatches ∧ (s.setCap k l).cache = s.cache ∧ (s.setCap k l).bins = s.bins ∧ (s.setCap k l).gq = s.gq ∧ (s.setCap
    k l).gin = s.gin ∧ (s.setCap k l).gouts = s.gouts ∧ (s.setCap k l).emits = s.emits ∧ (s.setCap k l).rx = s.rx ∧
    (s.setCap k l).tx = s.tx ∧ (s.setCap k l).ctl = s.ctl ∧ (s.setCap k l).tracks = s.tracks ∧ (s.setCap k l).obs =
    s.obs ∧ (s.setCap k l).rtLog = s.rtLog ∧ (s.setCap k l).twl = s.twl ∧ (s.setCap k l).twTx = s.twTx ∧ (s.setCap k
    l).wslots = s.wslots ∧ (s.setCap k l).wlast = s.wlast ∧ (s.setCap k l).wqueue = s.wqueue ∧ (s.setCap k l).ctx =
    s.ctx ∧ (s.setCap k l).lkp = s.lkp ∧ (s.setCap k l).pending = s.pending := by
  (repeat' apply And.intro) <;> rfl

/-- The fields `setObs` leaves alone. -/
@[simp] theorem State.setObs_fields (o : Nat) (x : ObsState) :
        (s.setObs o x).variant = s.variant ∧ (s.setObs o x).regs = s.regs ∧ (s.setObs o x).applied = s.applied ∧
    (s.setObs o x).prev = s.prev ∧ (s.setObs o x).hid = s.hid ∧ (s.setObs o x).now = s.now ∧ (s.setObs o x).coarse =
    s.coarse ∧ (s.setObs o x).age = s.age ∧ (s.setObs o x).hist = s.hist ∧ (s.setObs o x).y4096 = s.y4096 ∧
    (s.setObs o x).meas = s.meas ∧ (s.setObs o x).measPrev = s.measPrev ∧ (s.setObs o x).refused = s.refused ∧
    (s.setObs o x).caps = s.caps ∧ (s.setObs o x).mem = s.mem ∧ (s.setObs o x).latch = s.latch ∧ (s.setObs o x).hold
    = s.hold ∧ (s.setObs o x).resp = s.resp ∧ (s.setObs o x).freeN = s.freeN ∧ (s.setObs o x).rfifo = s.rfifo ∧
    (s.setObs o x).held = s.held ∧ (s.setObs o x).archive = s.archive ∧ (s.setObs o x).treg = s.treg ∧ (s.setObs o
    x).bufs = s.bufs ∧ (s.setObs o x).queues = s.queues ∧ (s.setObs o x).eqs = s.eqs ∧ (s.setObs o x).hostq =
    s.hostq ∧ (s.setObs o x).hatches = s.hatches ∧ (s.setObs o x).cache = s.cache ∧ (s.setObs o x).bins = s.bins ∧
    (s.setObs o x).gq = s.gq ∧ (s.setObs o x).gin = s.gin ∧ (s.setObs o x).gouts = s.gouts ∧ (s.setObs o x).emits =
    s.emits ∧ (s.setObs o x).rx = s.rx ∧ (s.setObs o x).tx = s.tx ∧ (s.setObs o x).ctl = s.ctl ∧ (s.setObs o
    x).tracks = s.tracks ∧ (s.setObs o x).rtLog = s.rtLog ∧ (s.setObs o x).twl = s.twl ∧ (s.setObs o x).twTx =
    s.twTx ∧ (s.setObs o x).wslots = s.wslots ∧ (s.setObs o x).wlast = s.wlast ∧ (s.setObs o x).wqueue = s.wqueue ∧
    (s.setObs o x).ctx = s.ctx ∧ (s.setObs o x).lkp = s.lkp ∧ (s.setObs o x).pending = s.pending := by
  (repeat' apply And.intro) <;> rfl

/-- The fields `setGq` leaves alone. -/
@[simp] theorem State.setGq_fields (e : Nat) (l : List Contrib) :
        (s.setGq e l).variant = s.variant ∧ (s.setGq e l).regs = s.regs ∧ (s.setGq e l).applied = s.applied ∧
    (s.setGq e l).prev = s.prev ∧ (s.setGq e l).hid = s.hid ∧ (s.setGq e l).now = s.now ∧ (s.setGq e l).coarse =
    s.coarse ∧ (s.setGq e l).age = s.age ∧ (s.setGq e l).hist = s.hist ∧ (s.setGq e l).y4096 = s.y4096 ∧ (s.setGq e
    l).meas = s.meas ∧ (s.setGq e l).measPrev = s.measPrev ∧ (s.setGq e l).refused = s.refused ∧ (s.setGq e l).caps
    = s.caps ∧ (s.setGq e l).mem = s.mem ∧ (s.setGq e l).latch = s.latch ∧ (s.setGq e l).hold = s.hold ∧ (s.setGq e
    l).resp = s.resp ∧ (s.setGq e l).freeN = s.freeN ∧ (s.setGq e l).rfifo = s.rfifo ∧ (s.setGq e l).held = s.held ∧
    (s.setGq e l).archive = s.archive ∧ (s.setGq e l).treg = s.treg ∧ (s.setGq e l).bufs = s.bufs ∧ (s.setGq e
    l).queues = s.queues ∧ (s.setGq e l).eqs = s.eqs ∧ (s.setGq e l).hostq = s.hostq ∧ (s.setGq e l).hatches =
    s.hatches ∧ (s.setGq e l).cache = s.cache ∧ (s.setGq e l).bins = s.bins ∧ (s.setGq e l).gin = s.gin ∧ (s.setGq e
    l).gouts = s.gouts ∧ (s.setGq e l).emits = s.emits ∧ (s.setGq e l).rx = s.rx ∧ (s.setGq e l).tx = s.tx ∧
    (s.setGq e l).ctl = s.ctl ∧ (s.setGq e l).tracks = s.tracks ∧ (s.setGq e l).obs = s.obs ∧ (s.setGq e l).rtLog =
    s.rtLog ∧ (s.setGq e l).twl = s.twl ∧ (s.setGq e l).twTx = s.twTx ∧ (s.setGq e l).wslots = s.wslots ∧ (s.setGq e
    l).wlast = s.wlast ∧ (s.setGq e l).wqueue = s.wqueue ∧ (s.setGq e l).ctx = s.ctx ∧ (s.setGq e l).lkp = s.lkp ∧
    (s.setGq e l).pending = s.pending := by
  (repeat' apply And.intro) <;> rfl

/-- The fields `setGin` leaves alone. -/
@[simp] theorem State.setGin_fields (e : Nat) (l : List Copy) :
        (s.setGin e l).variant = s.variant ∧ (s.setGin e l).regs = s.regs ∧ (s.setGin e l).applied = s.applied ∧
    (s.setGin e l).prev = s.prev ∧ (s.setGin e l).hid = s.hid ∧ (s.setGin e l).now = s.now ∧ (s.setGin e l).coarse =
    s.coarse ∧ (s.setGin e l).age = s.age ∧ (s.setGin e l).hist = s.hist ∧ (s.setGin e l).y4096 = s.y4096 ∧
    (s.setGin e l).meas = s.meas ∧ (s.setGin e l).measPrev = s.measPrev ∧ (s.setGin e l).refused = s.refused ∧
    (s.setGin e l).caps = s.caps ∧ (s.setGin e l).mem = s.mem ∧ (s.setGin e l).latch = s.latch ∧ (s.setGin e l).hold
    = s.hold ∧ (s.setGin e l).resp = s.resp ∧ (s.setGin e l).freeN = s.freeN ∧ (s.setGin e l).rfifo = s.rfifo ∧
    (s.setGin e l).held = s.held ∧ (s.setGin e l).archive = s.archive ∧ (s.setGin e l).treg = s.treg ∧ (s.setGin e
    l).bufs = s.bufs ∧ (s.setGin e l).queues = s.queues ∧ (s.setGin e l).eqs = s.eqs ∧ (s.setGin e l).hostq =
    s.hostq ∧ (s.setGin e l).hatches = s.hatches ∧ (s.setGin e l).cache = s.cache ∧ (s.setGin e l).bins = s.bins ∧
    (s.setGin e l).gq = s.gq ∧ (s.setGin e l).gouts = s.gouts ∧ (s.setGin e l).emits = s.emits ∧ (s.setGin e l).rx =
    s.rx ∧ (s.setGin e l).tx = s.tx ∧ (s.setGin e l).ctl = s.ctl ∧ (s.setGin e l).tracks = s.tracks ∧ (s.setGin e
    l).obs = s.obs ∧ (s.setGin e l).rtLog = s.rtLog ∧ (s.setGin e l).twl = s.twl ∧ (s.setGin e l).twTx = s.twTx ∧
    (s.setGin e l).wslots = s.wslots ∧ (s.setGin e l).wlast = s.wlast ∧ (s.setGin e l).wqueue = s.wqueue ∧ (s.setGin
    e l).ctx = s.ctx ∧ (s.setGin e l).lkp = s.lkp ∧ (s.setGin e l).pending = s.pending := by
  (repeat' apply And.intro) <;> rfl

/-- The fields `setRts` leaves alone. -/
@[simp] theorem State.setRts_fields (p : Nat) (l : List Int) :
        (s.setRts p l).variant = s.variant ∧ (s.setRts p l).regs = s.regs ∧ (s.setRts p l).applied = s.applied ∧
    (s.setRts p l).prev = s.prev ∧ (s.setRts p l).hid = s.hid ∧ (s.setRts p l).now = s.now ∧ (s.setRts p l).coarse =
    s.coarse ∧ (s.setRts p l).age = s.age ∧ (s.setRts p l).hist = s.hist ∧ (s.setRts p l).y4096 = s.y4096 ∧
    (s.setRts p l).meas = s.meas ∧ (s.setRts p l).measPrev = s.measPrev ∧ (s.setRts p l).refused = s.refused ∧
    (s.setRts p l).caps = s.caps ∧ (s.setRts p l).mem = s.mem ∧ (s.setRts p l).latch = s.latch ∧ (s.setRts p l).hold
    = s.hold ∧ (s.setRts p l).resp = s.resp ∧ (s.setRts p l).freeN = s.freeN ∧ (s.setRts p l).rfifo = s.rfifo ∧
    (s.setRts p l).held = s.held ∧ (s.setRts p l).archive = s.archive ∧ (s.setRts p l).treg = s.treg ∧ (s.setRts p
    l).bufs = s.bufs ∧ (s.setRts p l).queues = s.queues ∧ (s.setRts p l).eqs = s.eqs ∧ (s.setRts p l).hostq =
    s.hostq ∧ (s.setRts p l).hatches = s.hatches ∧ (s.setRts p l).cache = s.cache ∧ (s.setRts p l).bins = s.bins ∧
    (s.setRts p l).gq = s.gq ∧ (s.setRts p l).gin = s.gin ∧ (s.setRts p l).gouts = s.gouts ∧ (s.setRts p l).emits =
    s.emits ∧ (s.setRts p l).rx = s.rx ∧ (s.setRts p l).tx = s.tx ∧ (s.setRts p l).ctl = s.ctl ∧ (s.setRts p
    l).tracks = s.tracks ∧ (s.setRts p l).obs = s.obs ∧ (s.setRts p l).twl = s.twl ∧ (s.setRts p l).twTx = s.twTx ∧
    (s.setRts p l).wslots = s.wslots ∧ (s.setRts p l).wlast = s.wlast ∧ (s.setRts p l).wqueue = s.wqueue ∧ (s.setRts
    p l).ctx = s.ctx ∧ (s.setRts p l).lkp = s.lkp ∧ (s.setRts p l).pending = s.pending := by
  (repeat' apply And.intro) <;> rfl

/-- The fields `setTwl` leaves alone. -/
@[simp] theorem State.setTwl_fields (k : Nat) (l : List Int) :
        (s.setTwl k l).variant = s.variant ∧ (s.setTwl k l).regs = s.regs ∧ (s.setTwl k l).applied = s.applied ∧
    (s.setTwl k l).prev = s.prev ∧ (s.setTwl k l).hid = s.hid ∧ (s.setTwl k l).now = s.now ∧ (s.setTwl k l).coarse =
    s.coarse ∧ (s.setTwl k l).age = s.age ∧ (s.setTwl k l).hist = s.hist ∧ (s.setTwl k l).y4096 = s.y4096 ∧
    (s.setTwl k l).meas = s.meas ∧ (s.setTwl k l).measPrev = s.measPrev ∧ (s.setTwl k l).refused = s.refused ∧
    (s.setTwl k l).caps = s.caps ∧ (s.setTwl k l).mem = s.mem ∧ (s.setTwl k l).latch = s.latch ∧ (s.setTwl k l).hold
    = s.hold ∧ (s.setTwl k l).resp = s.resp ∧ (s.setTwl k l).freeN = s.freeN ∧ (s.setTwl k l).rfifo = s.rfifo ∧
    (s.setTwl k l).held = s.held ∧ (s.setTwl k l).archive = s.archive ∧ (s.setTwl k l).treg = s.treg ∧ (s.setTwl k
    l).bufs = s.bufs ∧ (s.setTwl k l).queues = s.queues ∧ (s.setTwl k l).eqs = s.eqs ∧ (s.setTwl k l).hostq =
    s.hostq ∧ (s.setTwl k l).hatches = s.hatches ∧ (s.setTwl k l).cache = s.cache ∧ (s.setTwl k l).bins = s.bins ∧
    (s.setTwl k l).gq = s.gq ∧ (s.setTwl k l).gin = s.gin ∧ (s.setTwl k l).gouts = s.gouts ∧ (s.setTwl k l).emits =
    s.emits ∧ (s.setTwl k l).rx = s.rx ∧ (s.setTwl k l).tx = s.tx ∧ (s.setTwl k l).ctl = s.ctl ∧ (s.setTwl k
    l).tracks = s.tracks ∧ (s.setTwl k l).obs = s.obs ∧ (s.setTwl k l).rtLog = s.rtLog ∧ (s.setTwl k l).twTx =
    s.twTx ∧ (s.setTwl k l).wslots = s.wslots ∧ (s.setTwl k l).wlast = s.wlast ∧ (s.setTwl k l).wqueue = s.wqueue ∧
    (s.setTwl k l).ctx = s.ctx ∧ (s.setTwl k l).lkp = s.lkp ∧ (s.setTwl k l).pending = s.pending := by
  (repeat' apply And.intro) <;> rfl

/-- The fields `setWslot` leaves alone. -/
@[simp] theorem State.setWslot_fields (k : Nat) (x : WSlot) :
        (s.setWslot k x).variant = s.variant ∧ (s.setWslot k x).regs = s.regs ∧ (s.setWslot k x).applied = s.applied
    ∧ (s.setWslot k x).prev = s.prev ∧ (s.setWslot k x).hid = s.hid ∧ (s.setWslot k x).now = s.now ∧ (s.setWslot k
    x).coarse = s.coarse ∧ (s.setWslot k x).age = s.age ∧ (s.setWslot k x).hist = s.hist ∧ (s.setWslot k x).y4096 =
    s.y4096 ∧ (s.setWslot k x).meas = s.meas ∧ (s.setWslot k x).measPrev = s.measPrev ∧ (s.setWslot k x).refused =
    s.refused ∧ (s.setWslot k x).caps = s.caps ∧ (s.setWslot k x).mem = s.mem ∧ (s.setWslot k x).latch = s.latch ∧
    (s.setWslot k x).hold = s.hold ∧ (s.setWslot k x).resp = s.resp ∧ (s.setWslot k x).freeN = s.freeN ∧ (s.setWslot
    k x).rfifo = s.rfifo ∧ (s.setWslot k x).held = s.held ∧ (s.setWslot k x).archive = s.archive ∧ (s.setWslot k
    x).treg = s.treg ∧ (s.setWslot k x).bufs = s.bufs ∧ (s.setWslot k x).queues = s.queues ∧ (s.setWslot k x).eqs =
    s.eqs ∧ (s.setWslot k x).hostq = s.hostq ∧ (s.setWslot k x).hatches = s.hatches ∧ (s.setWslot k x).cache =
    s.cache ∧ (s.setWslot k x).bins = s.bins ∧ (s.setWslot k x).gq = s.gq ∧ (s.setWslot k x).gin = s.gin ∧
    (s.setWslot k x).gouts = s.gouts ∧ (s.setWslot k x).emits = s.emits ∧ (s.setWslot k x).rx = s.rx ∧ (s.setWslot k
    x).tx = s.tx ∧ (s.setWslot k x).ctl = s.ctl ∧ (s.setWslot k x).tracks = s.tracks ∧ (s.setWslot k x).obs = s.obs
    ∧ (s.setWslot k x).rtLog = s.rtLog ∧ (s.setWslot k x).twl = s.twl ∧ (s.setWslot k x).twTx = s.twTx ∧ (s.setWslot
    k x).wlast = s.wlast ∧ (s.setWslot k x).wqueue = s.wqueue ∧ (s.setWslot k x).ctx = s.ctx ∧ (s.setWslot k x).lkp
    = s.lkp ∧ (s.setWslot k x).pending = s.pending := by
  (repeat' apply And.intro) <;> rfl

/-- The fields `setWlast` leaves alone. -/
@[simp] theorem State.setWlast_fields (k : Nat) (x : Option WStamp) :
        (s.setWlast k x).variant = s.variant ∧ (s.setWlast k x).regs = s.regs ∧ (s.setWlast k x).applied = s.applied
    ∧ (s.setWlast k x).prev = s.prev ∧ (s.setWlast k x).hid = s.hid ∧ (s.setWlast k x).now = s.now ∧ (s.setWlast k
    x).coarse = s.coarse ∧ (s.setWlast k x).age = s.age ∧ (s.setWlast k x).hist = s.hist ∧ (s.setWlast k x).y4096 =
    s.y4096 ∧ (s.setWlast k x).meas = s.meas ∧ (s.setWlast k x).measPrev = s.measPrev ∧ (s.setWlast k x).refused =
    s.refused ∧ (s.setWlast k x).caps = s.caps ∧ (s.setWlast k x).mem = s.mem ∧ (s.setWlast k x).latch = s.latch ∧
    (s.setWlast k x).hold = s.hold ∧ (s.setWlast k x).resp = s.resp ∧ (s.setWlast k x).freeN = s.freeN ∧ (s.setWlast
    k x).rfifo = s.rfifo ∧ (s.setWlast k x).held = s.held ∧ (s.setWlast k x).archive = s.archive ∧ (s.setWlast k
    x).treg = s.treg ∧ (s.setWlast k x).bufs = s.bufs ∧ (s.setWlast k x).queues = s.queues ∧ (s.setWlast k x).eqs =
    s.eqs ∧ (s.setWlast k x).hostq = s.hostq ∧ (s.setWlast k x).hatches = s.hatches ∧ (s.setWlast k x).cache =
    s.cache ∧ (s.setWlast k x).bins = s.bins ∧ (s.setWlast k x).gq = s.gq ∧ (s.setWlast k x).gin = s.gin ∧
    (s.setWlast k x).gouts = s.gouts ∧ (s.setWlast k x).emits = s.emits ∧ (s.setWlast k x).rx = s.rx ∧ (s.setWlast k
    x).tx = s.tx ∧ (s.setWlast k x).ctl = s.ctl ∧ (s.setWlast k x).tracks = s.tracks ∧ (s.setWlast k x).obs = s.obs
    ∧ (s.setWlast k x).rtLog = s.rtLog ∧ (s.setWlast k x).twl = s.twl ∧ (s.setWlast k x).twTx = s.twTx ∧ (s.setWlast
    k x).wslots = s.wslots ∧ (s.setWlast k x).wqueue = s.wqueue ∧ (s.setWlast k x).ctx = s.ctx ∧ (s.setWlast k
    x).lkp = s.lkp ∧ (s.setWlast k x).pending = s.pending := by
  (repeat' apply And.intro) <;> rfl

/-- The readings `wr` leaves alone. -/
@[simp] theorem State.wr_readings (f : Fld) (i v : Nat) :
        (∀ (g : Fld) (j : Nat), (s.wr f i v).rdA g j = s.rdA g j) ∧ (∀ (y : Hid) (j : Nat), (s.wr f i v).h y j = s.h
    y j) ∧ (∀ (y : Hid) (j : Nat), (s.wr f i v).hS y j = s.hS y j) ∧ (∀ (q : Region) (d : Nat), (s.wr f i v).byte q
    d = s.byte q d) ∧ (∀ (d m : Nat), (s.wr f i v).tr d m = s.tr d m) ∧ (∀ (j : Nat), (s.wr f i v).buf j = s.buf j)
    ∧ (∀ (j : Nat), (s.wr f i v).queue j = s.queue j) ∧ (∀ (j : Nat), (s.wr f i v).eq j = s.eq j) ∧ (∀ (j : Nat),
    (s.wr f i v).hq j = s.hq j) ∧ (∀ (j : Nat), (s.wr f i v).hatch j = s.hatch j) ∧ (∀ (j : Nat), (s.wr f i v).rxOf
    j = s.rxOf j) ∧ (∀ (j : Nat), (s.wr f i v).txOf j = s.txOf j) ∧ (∀ (j : Nat), (s.wr f i v).ctlOf j = s.ctlOf j)
    ∧ (∀ (j : Nat), (s.wr f i v).track j = s.track j) ∧ (∀ (a j : Nat), (s.wr f i v).entry a j = s.entry a j) ∧ (∀
    (j : Nat), (s.wr f i v).long j = s.long j) ∧ (∀ (j : Nat), (s.wr f i v).cap j = s.cap j) ∧ (∀ (j : Nat), (s.wr f
    i v).obsOf j = s.obsOf j) ∧ (∀ (j : Nat), (s.wr f i v).gqOf j = s.gqOf j) ∧ (∀ (j : Nat), (s.wr f i v).ginOf j =
    s.ginOf j) ∧ (∀ (j : Nat), (s.wr f i v).rts j = s.rts j) ∧ (∀ (j : Nat), (s.wr f i v).twls j = s.twls j) ∧ (∀ (j
    : Nat), (s.wr f i v).wslot j = s.wslot j) ∧ (∀ (j : Nat), (s.wr f i v).wlastOf j = s.wlastOf j) := by
  (repeat' apply And.intro) <;> intros <;> rfl

/-- The readings `wrA` leaves alone. -/
@[simp] theorem State.wrA_readings (f : Fld) (i v : Nat) :
        (∀ (g : Fld) (j : Nat), (s.wrA f i v).rd g j = s.rd g j) ∧ (∀ (g : Fld) (j : Nat), (s.wrA f i v).on g j =
    s.on g j) ∧ (∀ (g : Fld) (j : Nat), (s.wrA f i v).rdS g j = s.rdS g j) ∧ (∀ (y : Hid) (j : Nat), (s.wrA f i v).h
    y j = s.h y j) ∧ (∀ (y : Hid) (j : Nat), (s.wrA f i v).hS y j = s.hS y j) ∧ (∀ (q : Region) (d : Nat), (s.wrA f
    i v).byte q d = s.byte q d) ∧ (∀ (d m : Nat), (s.wrA f i v).tr d m = s.tr d m) ∧ (∀ (d : Dom), (s.wrA f i
    v).domState d = s.domState d) ∧ (∀ (d : Dom), (s.wrA f i v).domOn d = s.domOn d) ∧ (∀ (g : Grp) (j : Nat),
    (s.wrA f i v).clkOn g j = s.clkOn g j) ∧ (∀ (g : Grp) (j : Nat), (s.wrA f i v).up g j = s.up g j) ∧ (∀ (j :
    Nat), (s.wrA f i v).buf j = s.buf j) ∧ (∀ (j : Nat), (s.wrA f i v).queue j = s.queue j) ∧ (∀ (j : Nat), (s.wrA f
    i v).eq j = s.eq j) ∧ (∀ (j : Nat), (s.wrA f i v).hq j = s.hq j) ∧ (∀ (j : Nat), (s.wrA f i v).hatch j = s.hatch
    j) ∧ (∀ (j : Nat), (s.wrA f i v).rxOf j = s.rxOf j) ∧ (∀ (j : Nat), (s.wrA f i v).txOf j = s.txOf j) ∧ (∀ (j :
    Nat), (s.wrA f i v).ctlOf j = s.ctlOf j) ∧ (∀ (j : Nat), (s.wrA f i v).track j = s.track j) ∧ (∀ (a j : Nat),
    (s.wrA f i v).entry a j = s.entry a j) ∧ (∀ (j : Nat), (s.wrA f i v).long j = s.long j) ∧ (∀ (j : Nat), (s.wrA f
    i v).cap j = s.cap j) ∧ (∀ (j : Nat), (s.wrA f i v).obsOf j = s.obsOf j) ∧ (∀ (j : Nat), (s.wrA f i v).gqOf j =
    s.gqOf j) ∧ (∀ (j : Nat), (s.wrA f i v).ginOf j = s.ginOf j) ∧ (∀ (j : Nat), (s.wrA f i v).rts j = s.rts j) ∧ (∀
    (j : Nat), (s.wrA f i v).twls j = s.twls j) ∧ (∀ (j : Nat), (s.wrA f i v).wslot j = s.wslot j) ∧ (∀ (j : Nat),
    (s.wrA f i v).wlastOf j = s.wlastOf j) := by
  (repeat' apply And.intro) <;> intros <;> rfl

/-- The readings `setH` leaves alone. -/
@[simp] theorem State.setH_readings (x : Hid) (i v : Nat) :
        (∀ (g : Fld) (j : Nat), (s.setH x i v).rd g j = s.rd g j) ∧ (∀ (g : Fld) (j : Nat), (s.setH x i v).rdA g j =
    s.rdA g j) ∧ (∀ (g : Fld) (j : Nat), (s.setH x i v).on g j = s.on g j) ∧ (∀ (g : Fld) (j : Nat), (s.setH x i
    v).rdS g j = s.rdS g j) ∧ (∀ (q : Region) (d : Nat), (s.setH x i v).byte q d = s.byte q d) ∧ (∀ (d m : Nat),
    (s.setH x i v).tr d m = s.tr d m) ∧ (∀ (d : Dom), (s.setH x i v).domState d = s.domState d) ∧ (∀ (d : Dom),
    (s.setH x i v).domOn d = s.domOn d) ∧ (∀ (g : Grp) (j : Nat), (s.setH x i v).clkOn g j = s.clkOn g j) ∧ (∀ (g :
    Grp) (j : Nat), (s.setH x i v).up g j = s.up g j) ∧ (∀ (j : Nat), (s.setH x i v).buf j = s.buf j) ∧ (∀ (j :
    Nat), (s.setH x i v).queue j = s.queue j) ∧ (∀ (j : Nat), (s.setH x i v).eq j = s.eq j) ∧ (∀ (j : Nat), (s.setH
    x i v).hq j = s.hq j) ∧ (∀ (j : Nat), (s.setH x i v).hatch j = s.hatch j) ∧ (∀ (j : Nat), (s.setH x i v).rxOf j
    = s.rxOf j) ∧ (∀ (j : Nat), (s.setH x i v).txOf j = s.txOf j) ∧ (∀ (j : Nat), (s.setH x i v).ctlOf j = s.ctlOf
    j) ∧ (∀ (j : Nat), (s.setH x i v).track j = s.track j) ∧ (∀ (a j : Nat), (s.setH x i v).entry a j = s.entry a j)
    ∧ (∀ (j : Nat), (s.setH x i v).long j = s.long j) ∧ (∀ (j : Nat), (s.setH x i v).cap j = s.cap j) ∧ (∀ (j :
    Nat), (s.setH x i v).obsOf j = s.obsOf j) ∧ (∀ (j : Nat), (s.setH x i v).gqOf j = s.gqOf j) ∧ (∀ (j : Nat),
    (s.setH x i v).ginOf j = s.ginOf j) ∧ (∀ (j : Nat), (s.setH x i v).rts j = s.rts j) ∧ (∀ (j : Nat), (s.setH x i
    v).twls j = s.twls j) ∧ (∀ (j : Nat), (s.setH x i v).wslot j = s.wslot j) ∧ (∀ (j : Nat), (s.setH x i v).wlastOf
    j = s.wlastOf j) := by
  (repeat' apply And.intro) <;> intros <;> rfl

/-- The readings `setByte` leaves alone. -/
@[simp] theorem State.setByte_readings (r : Region) (a : Nat) (b : Byte) :
        (∀ (g : Fld) (j : Nat), (s.setByte r a b).rd g j = s.rd g j) ∧ (∀ (g : Fld) (j : Nat), (s.setByte r a b).rdA
    g j = s.rdA g j) ∧ (∀ (g : Fld) (j : Nat), (s.setByte r a b).on g j = s.on g j) ∧ (∀ (g : Fld) (j : Nat),
    (s.setByte r a b).rdS g j = s.rdS g j) ∧ (∀ (y : Hid) (j : Nat), (s.setByte r a b).h y j = s.h y j) ∧ (∀ (y :
    Hid) (j : Nat), (s.setByte r a b).hS y j = s.hS y j) ∧ (∀ (d m : Nat), (s.setByte r a b).tr d m = s.tr d m) ∧ (∀
    (d : Dom), (s.setByte r a b).domState d = s.domState d) ∧ (∀ (d : Dom), (s.setByte r a b).domOn d = s.domOn d) ∧
    (∀ (g : Grp) (j : Nat), (s.setByte r a b).clkOn g j = s.clkOn g j) ∧ (∀ (g : Grp) (j : Nat), (s.setByte r a
    b).up g j = s.up g j) ∧ (∀ (j : Nat), (s.setByte r a b).buf j = s.buf j) ∧ (∀ (j : Nat), (s.setByte r a b).queue
    j = s.queue j) ∧ (∀ (j : Nat), (s.setByte r a b).eq j = s.eq j) ∧ (∀ (j : Nat), (s.setByte r a b).hq j = s.hq j)
    ∧ (∀ (j : Nat), (s.setByte r a b).hatch j = s.hatch j) ∧ (∀ (j : Nat), (s.setByte r a b).rxOf j = s.rxOf j) ∧ (∀
    (j : Nat), (s.setByte r a b).txOf j = s.txOf j) ∧ (∀ (j : Nat), (s.setByte r a b).ctlOf j = s.ctlOf j) ∧ (∀ (j :
    Nat), (s.setByte r a b).track j = s.track j) ∧ (∀ (a j : Nat), (s.setByte r a b).entry a j = s.entry a j) ∧ (∀
    (j : Nat), (s.setByte r a b).long j = s.long j) ∧ (∀ (j : Nat), (s.setByte r a b).cap j = s.cap j) ∧ (∀ (j :
    Nat), (s.setByte r a b).obsOf j = s.obsOf j) ∧ (∀ (j : Nat), (s.setByte r a b).gqOf j = s.gqOf j) ∧ (∀ (j :
    Nat), (s.setByte r a b).ginOf j = s.ginOf j) ∧ (∀ (j : Nat), (s.setByte r a b).rts j = s.rts j) ∧ (∀ (j : Nat),
    (s.setByte r a b).twls j = s.twls j) ∧ (∀ (j : Nat), (s.setByte r a b).wslot j = s.wslot j) ∧ (∀ (j : Nat),
    (s.setByte r a b).wlastOf j = s.wlastOf j) := by
  (repeat' apply And.intro) <;> intros <;> rfl

/-- The readings `setTr` leaves alone. -/
@[simp] theorem State.setTr_readings (c n v : Nat) :
        (∀ (g : Fld) (j : Nat), (s.setTr c n v).rd g j = s.rd g j) ∧ (∀ (g : Fld) (j : Nat), (s.setTr c n v).rdA g j
    = s.rdA g j) ∧ (∀ (g : Fld) (j : Nat), (s.setTr c n v).on g j = s.on g j) ∧ (∀ (g : Fld) (j : Nat), (s.setTr c n
    v).rdS g j = s.rdS g j) ∧ (∀ (y : Hid) (j : Nat), (s.setTr c n v).h y j = s.h y j) ∧ (∀ (y : Hid) (j : Nat),
    (s.setTr c n v).hS y j = s.hS y j) ∧ (∀ (q : Region) (d : Nat), (s.setTr c n v).byte q d = s.byte q d) ∧ (∀ (d :
    Dom), (s.setTr c n v).domState d = s.domState d) ∧ (∀ (d : Dom), (s.setTr c n v).domOn d = s.domOn d) ∧ (∀ (g :
    Grp) (j : Nat), (s.setTr c n v).clkOn g j = s.clkOn g j) ∧ (∀ (g : Grp) (j : Nat), (s.setTr c n v).up g j = s.up
    g j) ∧ (∀ (j : Nat), (s.setTr c n v).buf j = s.buf j) ∧ (∀ (j : Nat), (s.setTr c n v).queue j = s.queue j) ∧ (∀
    (j : Nat), (s.setTr c n v).eq j = s.eq j) ∧ (∀ (j : Nat), (s.setTr c n v).hq j = s.hq j) ∧ (∀ (j : Nat),
    (s.setTr c n v).hatch j = s.hatch j) ∧ (∀ (j : Nat), (s.setTr c n v).rxOf j = s.rxOf j) ∧ (∀ (j : Nat), (s.setTr
    c n v).txOf j = s.txOf j) ∧ (∀ (j : Nat), (s.setTr c n v).ctlOf j = s.ctlOf j) ∧ (∀ (j : Nat), (s.setTr c n
    v).track j = s.track j) ∧ (∀ (a j : Nat), (s.setTr c n v).entry a j = s.entry a j) ∧ (∀ (j : Nat), (s.setTr c n
    v).long j = s.long j) ∧ (∀ (j : Nat), (s.setTr c n v).cap j = s.cap j) ∧ (∀ (j : Nat), (s.setTr c n v).obsOf j =
    s.obsOf j) ∧ (∀ (j : Nat), (s.setTr c n v).gqOf j = s.gqOf j) ∧ (∀ (j : Nat), (s.setTr c n v).ginOf j = s.ginOf
    j) ∧ (∀ (j : Nat), (s.setTr c n v).rts j = s.rts j) ∧ (∀ (j : Nat), (s.setTr c n v).twls j = s.twls j) ∧ (∀ (j :
    Nat), (s.setTr c n v).wslot j = s.wslot j) ∧ (∀ (j : Nat), (s.setTr c n v).wlastOf j = s.wlastOf j) := by
  (repeat' apply And.intro) <;> intros <;> rfl

/-- The readings `nextFree` leaves alone. -/
@[simp] theorem State.nextFree_readings :
        (∀ (g : Fld) (j : Nat), (s.nextFree).rd g j = s.rd g j) ∧ (∀ (g : Fld) (j : Nat), (s.nextFree).rdA g j =
    s.rdA g j) ∧ (∀ (g : Fld) (j : Nat), (s.nextFree).on g j = s.on g j) ∧ (∀ (g : Fld) (j : Nat), (s.nextFree).rdS
    g j = s.rdS g j) ∧ (∀ (y : Hid) (j : Nat), (s.nextFree).h y j = s.h y j) ∧ (∀ (y : Hid) (j : Nat),
    (s.nextFree).hS y j = s.hS y j) ∧ (∀ (q : Region) (d : Nat), (s.nextFree).byte q d = s.byte q d) ∧ (∀ (d m :
    Nat), (s.nextFree).tr d m = s.tr d m) ∧ (∀ (d : Dom), (s.nextFree).domState d = s.domState d) ∧ (∀ (d : Dom),
    (s.nextFree).domOn d = s.domOn d) ∧ (∀ (g : Grp) (j : Nat), (s.nextFree).clkOn g j = s.clkOn g j) ∧ (∀ (g : Grp)
    (j : Nat), (s.nextFree).up g j = s.up g j) ∧ (∀ (j : Nat), (s.nextFree).buf j = s.buf j) ∧ (∀ (j : Nat),
    (s.nextFree).queue j = s.queue j) ∧ (∀ (j : Nat), (s.nextFree).eq j = s.eq j) ∧ (∀ (j : Nat), (s.nextFree).hq j
    = s.hq j) ∧ (∀ (j : Nat), (s.nextFree).hatch j = s.hatch j) ∧ (∀ (j : Nat), (s.nextFree).rxOf j = s.rxOf j) ∧ (∀
    (j : Nat), (s.nextFree).txOf j = s.txOf j) ∧ (∀ (j : Nat), (s.nextFree).ctlOf j = s.ctlOf j) ∧ (∀ (j : Nat),
    (s.nextFree).track j = s.track j) ∧ (∀ (a j : Nat), (s.nextFree).entry a j = s.entry a j) ∧ (∀ (j : Nat),
    (s.nextFree).long j = s.long j) ∧ (∀ (j : Nat), (s.nextFree).cap j = s.cap j) ∧ (∀ (j : Nat), (s.nextFree).obsOf
    j = s.obsOf j) ∧ (∀ (j : Nat), (s.nextFree).gqOf j = s.gqOf j) ∧ (∀ (j : Nat), (s.nextFree).ginOf j = s.ginOf j)
    ∧ (∀ (j : Nat), (s.nextFree).rts j = s.rts j) ∧ (∀ (j : Nat), (s.nextFree).twls j = s.twls j) ∧ (∀ (j : Nat),
    (s.nextFree).wslot j = s.wslot j) ∧ (∀ (j : Nat), (s.nextFree).wlastOf j = s.wlastOf j) := by
  (repeat' apply And.intro) <;> intros <;> rfl

/-- The readings `ok` leaves alone. -/
@[simp] theorem State.ok_readings (v : Nat) :
        (∀ (g : Fld) (j : Nat), (s.ok v).rd g j = s.rd g j) ∧ (∀ (g : Fld) (j : Nat), (s.ok v).rdA g j = s.rdA g j)
    ∧ (∀ (g : Fld) (j : Nat), (s.ok v).on g j = s.on g j) ∧ (∀ (g : Fld) (j : Nat), (s.ok v).rdS g j = s.rdS g j) ∧
    (∀ (y : Hid) (j : Nat), (s.ok v).h y j = s.h y j) ∧ (∀ (y : Hid) (j : Nat), (s.ok v).hS y j = s.hS y j) ∧ (∀ (q
    : Region) (d : Nat), (s.ok v).byte q d = s.byte q d) ∧ (∀ (d m : Nat), (s.ok v).tr d m = s.tr d m) ∧ (∀ (d :
    Dom), (s.ok v).domState d = s.domState d) ∧ (∀ (d : Dom), (s.ok v).domOn d = s.domOn d) ∧ (∀ (g : Grp) (j :
    Nat), (s.ok v).clkOn g j = s.clkOn g j) ∧ (∀ (g : Grp) (j : Nat), (s.ok v).up g j = s.up g j) ∧ (∀ (j : Nat),
    (s.ok v).buf j = s.buf j) ∧ (∀ (j : Nat), (s.ok v).queue j = s.queue j) ∧ (∀ (j : Nat), (s.ok v).eq j = s.eq j)
    ∧ (∀ (j : Nat), (s.ok v).hq j = s.hq j) ∧ (∀ (j : Nat), (s.ok v).hatch j = s.hatch j) ∧ (∀ (j : Nat), (s.ok
    v).rxOf j = s.rxOf j) ∧ (∀ (j : Nat), (s.ok v).txOf j = s.txOf j) ∧ (∀ (j : Nat), (s.ok v).ctlOf j = s.ctlOf j)
    ∧ (∀ (j : Nat), (s.ok v).track j = s.track j) ∧ (∀ (a j : Nat), (s.ok v).entry a j = s.entry a j) ∧ (∀ (j :
    Nat), (s.ok v).long j = s.long j) ∧ (∀ (j : Nat), (s.ok v).cap j = s.cap j) ∧ (∀ (j : Nat), (s.ok v).obsOf j =
    s.obsOf j) ∧ (∀ (j : Nat), (s.ok v).gqOf j = s.gqOf j) ∧ (∀ (j : Nat), (s.ok v).ginOf j = s.ginOf j) ∧ (∀ (j :
    Nat), (s.ok v).rts j = s.rts j) ∧ (∀ (j : Nat), (s.ok v).twls j = s.twls j) ∧ (∀ (j : Nat), (s.ok v).wslot j =
    s.wslot j) ∧ (∀ (j : Nat), (s.ok v).wlastOf j = s.wlastOf j) := by
  (repeat' apply And.intro) <;> intros <;> rfl

/-- The readings `busError` leaves alone. -/
@[simp] theorem State.busError_readings :
        (∀ (g : Fld) (j : Nat), (s.busError).rd g j = s.rd g j) ∧ (∀ (g : Fld) (j : Nat), (s.busError).rdA g j =
    s.rdA g j) ∧ (∀ (g : Fld) (j : Nat), (s.busError).on g j = s.on g j) ∧ (∀ (g : Fld) (j : Nat), (s.busError).rdS
    g j = s.rdS g j) ∧ (∀ (y : Hid) (j : Nat), (s.busError).h y j = s.h y j) ∧ (∀ (y : Hid) (j : Nat),
    (s.busError).hS y j = s.hS y j) ∧ (∀ (q : Region) (d : Nat), (s.busError).byte q d = s.byte q d) ∧ (∀ (d m :
    Nat), (s.busError).tr d m = s.tr d m) ∧ (∀ (d : Dom), (s.busError).domState d = s.domState d) ∧ (∀ (d : Dom),
    (s.busError).domOn d = s.domOn d) ∧ (∀ (g : Grp) (j : Nat), (s.busError).clkOn g j = s.clkOn g j) ∧ (∀ (g : Grp)
    (j : Nat), (s.busError).up g j = s.up g j) ∧ (∀ (j : Nat), (s.busError).buf j = s.buf j) ∧ (∀ (j : Nat),
    (s.busError).queue j = s.queue j) ∧ (∀ (j : Nat), (s.busError).eq j = s.eq j) ∧ (∀ (j : Nat), (s.busError).hq j
    = s.hq j) ∧ (∀ (j : Nat), (s.busError).hatch j = s.hatch j) ∧ (∀ (j : Nat), (s.busError).rxOf j = s.rxOf j) ∧ (∀
    (j : Nat), (s.busError).txOf j = s.txOf j) ∧ (∀ (j : Nat), (s.busError).ctlOf j = s.ctlOf j) ∧ (∀ (j : Nat),
    (s.busError).track j = s.track j) ∧ (∀ (a j : Nat), (s.busError).entry a j = s.entry a j) ∧ (∀ (j : Nat),
    (s.busError).long j = s.long j) ∧ (∀ (j : Nat), (s.busError).cap j = s.cap j) ∧ (∀ (j : Nat), (s.busError).obsOf
    j = s.obsOf j) ∧ (∀ (j : Nat), (s.busError).gqOf j = s.gqOf j) ∧ (∀ (j : Nat), (s.busError).ginOf j = s.ginOf j)
    ∧ (∀ (j : Nat), (s.busError).rts j = s.rts j) ∧ (∀ (j : Nat), (s.busError).twls j = s.twls j) ∧ (∀ (j : Nat),
    (s.busError).wslot j = s.wslot j) ∧ (∀ (j : Nat), (s.busError).wlastOf j = s.wlastOf j) := by
  (repeat' apply And.intro) <;> intros <;> rfl

/-- The readings `setBuf` leaves alone. -/
@[simp] theorem State.setBuf_readings (k : Nat) (b : Buf) :
        (∀ (g : Fld) (j : Nat), (s.setBuf k b).rd g j = s.rd g j) ∧ (∀ (g : Fld) (j : Nat), (s.setBuf k b).rdA g j =
    s.rdA g j) ∧ (∀ (g : Fld) (j : Nat), (s.setBuf k b).on g j = s.on g j) ∧ (∀ (g : Fld) (j : Nat), (s.setBuf k
    b).rdS g j = s.rdS g j) ∧ (∀ (y : Hid) (j : Nat), (s.setBuf k b).h y j = s.h y j) ∧ (∀ (y : Hid) (j : Nat),
    (s.setBuf k b).hS y j = s.hS y j) ∧ (∀ (q : Region) (d : Nat), (s.setBuf k b).byte q d = s.byte q d) ∧ (∀ (d m :
    Nat), (s.setBuf k b).tr d m = s.tr d m) ∧ (∀ (d : Dom), (s.setBuf k b).domState d = s.domState d) ∧ (∀ (d :
    Dom), (s.setBuf k b).domOn d = s.domOn d) ∧ (∀ (g : Grp) (j : Nat), (s.setBuf k b).clkOn g j = s.clkOn g j) ∧ (∀
    (g : Grp) (j : Nat), (s.setBuf k b).up g j = s.up g j) ∧ (∀ (j : Nat), (s.setBuf k b).queue j = s.queue j) ∧ (∀
    (j : Nat), (s.setBuf k b).eq j = s.eq j) ∧ (∀ (j : Nat), (s.setBuf k b).hq j = s.hq j) ∧ (∀ (j : Nat), (s.setBuf
    k b).hatch j = s.hatch j) ∧ (∀ (j : Nat), (s.setBuf k b).rxOf j = s.rxOf j) ∧ (∀ (j : Nat), (s.setBuf k b).txOf
    j = s.txOf j) ∧ (∀ (j : Nat), (s.setBuf k b).ctlOf j = s.ctlOf j) ∧ (∀ (j : Nat), (s.setBuf k b).track j =
    s.track j) ∧ (∀ (a j : Nat), (s.setBuf k b).entry a j = s.entry a j) ∧ (∀ (j : Nat), (s.setBuf k b).long j =
    s.long j) ∧ (∀ (j : Nat), (s.setBuf k b).cap j = s.cap j) ∧ (∀ (j : Nat), (s.setBuf k b).obsOf j = s.obsOf j) ∧
    (∀ (j : Nat), (s.setBuf k b).gqOf j = s.gqOf j) ∧ (∀ (j : Nat), (s.setBuf k b).ginOf j = s.ginOf j) ∧ (∀ (j :
    Nat), (s.setBuf k b).rts j = s.rts j) ∧ (∀ (j : Nat), (s.setBuf k b).twls j = s.twls j) ∧ (∀ (j : Nat),
    (s.setBuf k b).wslot j = s.wslot j) ∧ (∀ (j : Nat), (s.setBuf k b).wlastOf j = s.wlastOf j) := by
  (repeat' apply And.intro) <;> intros <;> rfl

/-- The readings `setQueue` leaves alone. -/
@[simp] theorem State.setQueue_readings (k : Nat) (l : List Copy) :
        (∀ (g : Fld) (j : Nat), (s.setQueue k l).rd g j = s.rd g j) ∧ (∀ (g : Fld) (j : Nat), (s.setQueue k l).rdA g
    j = s.rdA g j) ∧ (∀ (g : Fld) (j : Nat), (s.setQueue k l).on g j = s.on g j) ∧ (∀ (g : Fld) (j : Nat),
    (s.setQueue k l).rdS g j = s.rdS g j) ∧ (∀ (y : Hid) (j : Nat), (s.setQueue k l).h y j = s.h y j) ∧ (∀ (y : Hid)
    (j : Nat), (s.setQueue k l).hS y j = s.hS y j) ∧ (∀ (q : Region) (d : Nat), (s.setQueue k l).byte q d = s.byte q
    d) ∧ (∀ (d m : Nat), (s.setQueue k l).tr d m = s.tr d m) ∧ (∀ (d : Dom), (s.setQueue k l).domState d =
    s.domState d) ∧ (∀ (d : Dom), (s.setQueue k l).domOn d = s.domOn d) ∧ (∀ (g : Grp) (j : Nat), (s.setQueue k
    l).clkOn g j = s.clkOn g j) ∧ (∀ (g : Grp) (j : Nat), (s.setQueue k l).up g j = s.up g j) ∧ (∀ (j : Nat),
    (s.setQueue k l).buf j = s.buf j) ∧ (∀ (j : Nat), (s.setQueue k l).eq j = s.eq j) ∧ (∀ (j : Nat), (s.setQueue k
    l).hq j = s.hq j) ∧ (∀ (j : Nat), (s.setQueue k l).hatch j = s.hatch j) ∧ (∀ (j : Nat), (s.setQueue k l).rxOf j
    = s.rxOf j) ∧ (∀ (j : Nat), (s.setQueue k l).txOf j = s.txOf j) ∧ (∀ (j : Nat), (s.setQueue k l).ctlOf j =
    s.ctlOf j) ∧ (∀ (j : Nat), (s.setQueue k l).track j = s.track j) ∧ (∀ (a j : Nat), (s.setQueue k l).entry a j =
    s.entry a j) ∧ (∀ (j : Nat), (s.setQueue k l).long j = s.long j) ∧ (∀ (j : Nat), (s.setQueue k l).cap j = s.cap
    j) ∧ (∀ (j : Nat), (s.setQueue k l).obsOf j = s.obsOf j) ∧ (∀ (j : Nat), (s.setQueue k l).gqOf j = s.gqOf j) ∧
    (∀ (j : Nat), (s.setQueue k l).ginOf j = s.ginOf j) ∧ (∀ (j : Nat), (s.setQueue k l).rts j = s.rts j) ∧ (∀ (j :
    Nat), (s.setQueue k l).twls j = s.twls j) ∧ (∀ (j : Nat), (s.setQueue k l).wslot j = s.wslot j) ∧ (∀ (j : Nat),
    (s.setQueue k l).wlastOf j = s.wlastOf j) := by
  (repeat' apply And.intro) <;> intros <;> rfl

/-- The readings `setEq` leaves alone. -/
@[simp] theorem State.setEq_readings (k : Nat) (l : List Copy) :
        (∀ (g : Fld) (j : Nat), (s.setEq k l).rd g j = s.rd g j) ∧ (∀ (g : Fld) (j : Nat), (s.setEq k l).rdA g j =
    s.rdA g j) ∧ (∀ (g : Fld) (j : Nat), (s.setEq k l).on g j = s.on g j) ∧ (∀ (g : Fld) (j : Nat), (s.setEq k
    l).rdS g j = s.rdS g j) ∧ (∀ (y : Hid) (j : Nat), (s.setEq k l).h y j = s.h y j) ∧ (∀ (y : Hid) (j : Nat),
    (s.setEq k l).hS y j = s.hS y j) ∧ (∀ (q : Region) (d : Nat), (s.setEq k l).byte q d = s.byte q d) ∧ (∀ (d m :
    Nat), (s.setEq k l).tr d m = s.tr d m) ∧ (∀ (d : Dom), (s.setEq k l).domState d = s.domState d) ∧ (∀ (d : Dom),
    (s.setEq k l).domOn d = s.domOn d) ∧ (∀ (g : Grp) (j : Nat), (s.setEq k l).clkOn g j = s.clkOn g j) ∧ (∀ (g :
    Grp) (j : Nat), (s.setEq k l).up g j = s.up g j) ∧ (∀ (j : Nat), (s.setEq k l).buf j = s.buf j) ∧ (∀ (j : Nat),
    (s.setEq k l).queue j = s.queue j) ∧ (∀ (j : Nat), (s.setEq k l).hq j = s.hq j) ∧ (∀ (j : Nat), (s.setEq k
    l).hatch j = s.hatch j) ∧ (∀ (j : Nat), (s.setEq k l).rxOf j = s.rxOf j) ∧ (∀ (j : Nat), (s.setEq k l).txOf j =
    s.txOf j) ∧ (∀ (j : Nat), (s.setEq k l).ctlOf j = s.ctlOf j) ∧ (∀ (j : Nat), (s.setEq k l).track j = s.track j)
    ∧ (∀ (a j : Nat), (s.setEq k l).entry a j = s.entry a j) ∧ (∀ (j : Nat), (s.setEq k l).long j = s.long j) ∧ (∀
    (j : Nat), (s.setEq k l).cap j = s.cap j) ∧ (∀ (j : Nat), (s.setEq k l).obsOf j = s.obsOf j) ∧ (∀ (j : Nat),
    (s.setEq k l).gqOf j = s.gqOf j) ∧ (∀ (j : Nat), (s.setEq k l).ginOf j = s.ginOf j) ∧ (∀ (j : Nat), (s.setEq k
    l).rts j = s.rts j) ∧ (∀ (j : Nat), (s.setEq k l).twls j = s.twls j) ∧ (∀ (j : Nat), (s.setEq k l).wslot j =
    s.wslot j) ∧ (∀ (j : Nat), (s.setEq k l).wlastOf j = s.wlastOf j) := by
  (repeat' apply And.intro) <;> intros <;> rfl

/-- The readings `setHq` leaves alone. -/
@[simp] theorem State.setHq_readings (k : Nat) (l : List Copy) :
        (∀ (g : Fld) (j : Nat), (s.setHq k l).rd g j = s.rd g j) ∧ (∀ (g : Fld) (j : Nat), (s.setHq k l).rdA g j =
    s.rdA g j) ∧ (∀ (g : Fld) (j : Nat), (s.setHq k l).on g j = s.on g j) ∧ (∀ (g : Fld) (j : Nat), (s.setHq k
    l).rdS g j = s.rdS g j) ∧ (∀ (y : Hid) (j : Nat), (s.setHq k l).h y j = s.h y j) ∧ (∀ (y : Hid) (j : Nat),
    (s.setHq k l).hS y j = s.hS y j) ∧ (∀ (q : Region) (d : Nat), (s.setHq k l).byte q d = s.byte q d) ∧ (∀ (d m :
    Nat), (s.setHq k l).tr d m = s.tr d m) ∧ (∀ (d : Dom), (s.setHq k l).domState d = s.domState d) ∧ (∀ (d : Dom),
    (s.setHq k l).domOn d = s.domOn d) ∧ (∀ (g : Grp) (j : Nat), (s.setHq k l).clkOn g j = s.clkOn g j) ∧ (∀ (g :
    Grp) (j : Nat), (s.setHq k l).up g j = s.up g j) ∧ (∀ (j : Nat), (s.setHq k l).buf j = s.buf j) ∧ (∀ (j : Nat),
    (s.setHq k l).queue j = s.queue j) ∧ (∀ (j : Nat), (s.setHq k l).eq j = s.eq j) ∧ (∀ (j : Nat), (s.setHq k
    l).hatch j = s.hatch j) ∧ (∀ (j : Nat), (s.setHq k l).rxOf j = s.rxOf j) ∧ (∀ (j : Nat), (s.setHq k l).txOf j =
    s.txOf j) ∧ (∀ (j : Nat), (s.setHq k l).ctlOf j = s.ctlOf j) ∧ (∀ (j : Nat), (s.setHq k l).track j = s.track j)
    ∧ (∀ (a j : Nat), (s.setHq k l).entry a j = s.entry a j) ∧ (∀ (j : Nat), (s.setHq k l).long j = s.long j) ∧ (∀
    (j : Nat), (s.setHq k l).cap j = s.cap j) ∧ (∀ (j : Nat), (s.setHq k l).obsOf j = s.obsOf j) ∧ (∀ (j : Nat),
    (s.setHq k l).gqOf j = s.gqOf j) ∧ (∀ (j : Nat), (s.setHq k l).ginOf j = s.ginOf j) ∧ (∀ (j : Nat), (s.setHq k
    l).rts j = s.rts j) ∧ (∀ (j : Nat), (s.setHq k l).twls j = s.twls j) ∧ (∀ (j : Nat), (s.setHq k l).wslot j =
    s.wslot j) ∧ (∀ (j : Nat), (s.setHq k l).wlastOf j = s.wlastOf j) := by
  (repeat' apply And.intro) <;> intros <;> rfl

/-- The readings `setHatch` leaves alone. -/
@[simp] theorem State.setHatch_readings (k : Nat) (l : List Nat) :
        (∀ (g : Fld) (j : Nat), (s.setHatch k l).rd g j = s.rd g j) ∧ (∀ (g : Fld) (j : Nat), (s.setHatch k l).rdA g
    j = s.rdA g j) ∧ (∀ (g : Fld) (j : Nat), (s.setHatch k l).on g j = s.on g j) ∧ (∀ (g : Fld) (j : Nat),
    (s.setHatch k l).rdS g j = s.rdS g j) ∧ (∀ (y : Hid) (j : Nat), (s.setHatch k l).h y j = s.h y j) ∧ (∀ (y : Hid)
    (j : Nat), (s.setHatch k l).hS y j = s.hS y j) ∧ (∀ (q : Region) (d : Nat), (s.setHatch k l).byte q d = s.byte q
    d) ∧ (∀ (d m : Nat), (s.setHatch k l).tr d m = s.tr d m) ∧ (∀ (d : Dom), (s.setHatch k l).domState d =
    s.domState d) ∧ (∀ (d : Dom), (s.setHatch k l).domOn d = s.domOn d) ∧ (∀ (g : Grp) (j : Nat), (s.setHatch k
    l).clkOn g j = s.clkOn g j) ∧ (∀ (g : Grp) (j : Nat), (s.setHatch k l).up g j = s.up g j) ∧ (∀ (j : Nat),
    (s.setHatch k l).buf j = s.buf j) ∧ (∀ (j : Nat), (s.setHatch k l).queue j = s.queue j) ∧ (∀ (j : Nat),
    (s.setHatch k l).eq j = s.eq j) ∧ (∀ (j : Nat), (s.setHatch k l).hq j = s.hq j) ∧ (∀ (j : Nat), (s.setHatch k
    l).rxOf j = s.rxOf j) ∧ (∀ (j : Nat), (s.setHatch k l).txOf j = s.txOf j) ∧ (∀ (j : Nat), (s.setHatch k l).ctlOf
    j = s.ctlOf j) ∧ (∀ (j : Nat), (s.setHatch k l).track j = s.track j) ∧ (∀ (a j : Nat), (s.setHatch k l).entry a
    j = s.entry a j) ∧ (∀ (j : Nat), (s.setHatch k l).long j = s.long j) ∧ (∀ (j : Nat), (s.setHatch k l).cap j =
    s.cap j) ∧ (∀ (j : Nat), (s.setHatch k l).obsOf j = s.obsOf j) ∧ (∀ (j : Nat), (s.setHatch k l).gqOf j = s.gqOf
    j) ∧ (∀ (j : Nat), (s.setHatch k l).ginOf j = s.ginOf j) ∧ (∀ (j : Nat), (s.setHatch k l).rts j = s.rts j) ∧ (∀
    (j : Nat), (s.setHatch k l).twls j = s.twls j) ∧ (∀ (j : Nat), (s.setHatch k l).wslot j = s.wslot j) ∧ (∀ (j :
    Nat), (s.setHatch k l).wlastOf j = s.wlastOf j) := by
  (repeat' apply And.intro) <;> intros <;> rfl

/-- The readings `setRx` leaves alone. -/
@[simp] theorem State.setRx_readings (p : Nat) (x : Option Rx) :
        (∀ (g : Fld) (j : Nat), (s.setRx p x).rd g j = s.rd g j) ∧ (∀ (g : Fld) (j : Nat), (s.setRx p x).rdA g j =
    s.rdA g j) ∧ (∀ (g : Fld) (j : Nat), (s.setRx p x).on g j = s.on g j) ∧ (∀ (g : Fld) (j : Nat), (s.setRx p
    x).rdS g j = s.rdS g j) ∧ (∀ (y : Hid) (j : Nat), (s.setRx p x).h y j = s.h y j) ∧ (∀ (y : Hid) (j : Nat),
    (s.setRx p x).hS y j = s.hS y j) ∧ (∀ (q : Region) (d : Nat), (s.setRx p x).byte q d = s.byte q d) ∧ (∀ (d m :
    Nat), (s.setRx p x).tr d m = s.tr d m) ∧ (∀ (d : Dom), (s.setRx p x).domState d = s.domState d) ∧ (∀ (d : Dom),
    (s.setRx p x).domOn d = s.domOn d) ∧ (∀ (g : Grp) (j : Nat), (s.setRx p x).clkOn g j = s.clkOn g j) ∧ (∀ (g :
    Grp) (j : Nat), (s.setRx p x).up g j = s.up g j) ∧ (∀ (j : Nat), (s.setRx p x).buf j = s.buf j) ∧ (∀ (j : Nat),
    (s.setRx p x).queue j = s.queue j) ∧ (∀ (j : Nat), (s.setRx p x).eq j = s.eq j) ∧ (∀ (j : Nat), (s.setRx p x).hq
    j = s.hq j) ∧ (∀ (j : Nat), (s.setRx p x).hatch j = s.hatch j) ∧ (∀ (j : Nat), (s.setRx p x).txOf j = s.txOf j)
    ∧ (∀ (j : Nat), (s.setRx p x).ctlOf j = s.ctlOf j) ∧ (∀ (j : Nat), (s.setRx p x).track j = s.track j) ∧ (∀ (a j
    : Nat), (s.setRx p x).entry a j = s.entry a j) ∧ (∀ (j : Nat), (s.setRx p x).long j = s.long j) ∧ (∀ (j : Nat),
    (s.setRx p x).cap j = s.cap j) ∧ (∀ (j : Nat), (s.setRx p x).obsOf j = s.obsOf j) ∧ (∀ (j : Nat), (s.setRx p
    x).gqOf j = s.gqOf j) ∧ (∀ (j : Nat), (s.setRx p x).ginOf j = s.ginOf j) ∧ (∀ (j : Nat), (s.setRx p x).rts j =
    s.rts j) ∧ (∀ (j : Nat), (s.setRx p x).twls j = s.twls j) ∧ (∀ (j : Nat), (s.setRx p x).wslot j = s.wslot j) ∧
    (∀ (j : Nat), (s.setRx p x).wlastOf j = s.wlastOf j) := by
  (repeat' apply And.intro) <;> intros <;> rfl

/-- The readings `setTx` leaves alone. -/
@[simp] theorem State.setTx_readings (p : Nat) (x : Option Tx) :
        (∀ (g : Fld) (j : Nat), (s.setTx p x).rd g j = s.rd g j) ∧ (∀ (g : Fld) (j : Nat), (s.setTx p x).rdA g j =
    s.rdA g j) ∧ (∀ (g : Fld) (j : Nat), (s.setTx p x).on g j = s.on g j) ∧ (∀ (g : Fld) (j : Nat), (s.setTx p
    x).rdS g j = s.rdS g j) ∧ (∀ (y : Hid) (j : Nat), (s.setTx p x).h y j = s.h y j) ∧ (∀ (y : Hid) (j : Nat),
    (s.setTx p x).hS y j = s.hS y j) ∧ (∀ (q : Region) (d : Nat), (s.setTx p x).byte q d = s.byte q d) ∧ (∀ (d m :
    Nat), (s.setTx p x).tr d m = s.tr d m) ∧ (∀ (d : Dom), (s.setTx p x).domState d = s.domState d) ∧ (∀ (d : Dom),
    (s.setTx p x).domOn d = s.domOn d) ∧ (∀ (g : Grp) (j : Nat), (s.setTx p x).clkOn g j = s.clkOn g j) ∧ (∀ (g :
    Grp) (j : Nat), (s.setTx p x).up g j = s.up g j) ∧ (∀ (j : Nat), (s.setTx p x).buf j = s.buf j) ∧ (∀ (j : Nat),
    (s.setTx p x).queue j = s.queue j) ∧ (∀ (j : Nat), (s.setTx p x).eq j = s.eq j) ∧ (∀ (j : Nat), (s.setTx p x).hq
    j = s.hq j) ∧ (∀ (j : Nat), (s.setTx p x).hatch j = s.hatch j) ∧ (∀ (j : Nat), (s.setTx p x).rxOf j = s.rxOf j)
    ∧ (∀ (j : Nat), (s.setTx p x).ctlOf j = s.ctlOf j) ∧ (∀ (j : Nat), (s.setTx p x).track j = s.track j) ∧ (∀ (a j
    : Nat), (s.setTx p x).entry a j = s.entry a j) ∧ (∀ (j : Nat), (s.setTx p x).long j = s.long j) ∧ (∀ (j : Nat),
    (s.setTx p x).cap j = s.cap j) ∧ (∀ (j : Nat), (s.setTx p x).obsOf j = s.obsOf j) ∧ (∀ (j : Nat), (s.setTx p
    x).gqOf j = s.gqOf j) ∧ (∀ (j : Nat), (s.setTx p x).ginOf j = s.ginOf j) ∧ (∀ (j : Nat), (s.setTx p x).rts j =
    s.rts j) ∧ (∀ (j : Nat), (s.setTx p x).twls j = s.twls j) ∧ (∀ (j : Nat), (s.setTx p x).wslot j = s.wslot j) ∧
    (∀ (j : Nat), (s.setTx p x).wlastOf j = s.wlastOf j) := by
  (repeat' apply And.intro) <;> intros <;> rfl

/-- The readings `setCtl` leaves alone. -/
@[simp] theorem State.setCtl_readings (p : Nat) (l : List Tx) :
        (∀ (g : Fld) (j : Nat), (s.setCtl p l).rd g j = s.rd g j) ∧ (∀ (g : Fld) (j : Nat), (s.setCtl p l).rdA g j =
    s.rdA g j) ∧ (∀ (g : Fld) (j : Nat), (s.setCtl p l).on g j = s.on g j) ∧ (∀ (g : Fld) (j : Nat), (s.setCtl p
    l).rdS g j = s.rdS g j) ∧ (∀ (y : Hid) (j : Nat), (s.setCtl p l).h y j = s.h y j) ∧ (∀ (y : Hid) (j : Nat),
    (s.setCtl p l).hS y j = s.hS y j) ∧ (∀ (q : Region) (d : Nat), (s.setCtl p l).byte q d = s.byte q d) ∧ (∀ (d m :
    Nat), (s.setCtl p l).tr d m = s.tr d m) ∧ (∀ (d : Dom), (s.setCtl p l).domState d = s.domState d) ∧ (∀ (d :
    Dom), (s.setCtl p l).domOn d = s.domOn d) ∧ (∀ (g : Grp) (j : Nat), (s.setCtl p l).clkOn g j = s.clkOn g j) ∧ (∀
    (g : Grp) (j : Nat), (s.setCtl p l).up g j = s.up g j) ∧ (∀ (j : Nat), (s.setCtl p l).buf j = s.buf j) ∧ (∀ (j :
    Nat), (s.setCtl p l).queue j = s.queue j) ∧ (∀ (j : Nat), (s.setCtl p l).eq j = s.eq j) ∧ (∀ (j : Nat),
    (s.setCtl p l).hq j = s.hq j) ∧ (∀ (j : Nat), (s.setCtl p l).hatch j = s.hatch j) ∧ (∀ (j : Nat), (s.setCtl p
    l).rxOf j = s.rxOf j) ∧ (∀ (j : Nat), (s.setCtl p l).txOf j = s.txOf j) ∧ (∀ (j : Nat), (s.setCtl p l).track j =
    s.track j) ∧ (∀ (a j : Nat), (s.setCtl p l).entry a j = s.entry a j) ∧ (∀ (j : Nat), (s.setCtl p l).long j =
    s.long j) ∧ (∀ (j : Nat), (s.setCtl p l).cap j = s.cap j) ∧ (∀ (j : Nat), (s.setCtl p l).obsOf j = s.obsOf j) ∧
    (∀ (j : Nat), (s.setCtl p l).gqOf j = s.gqOf j) ∧ (∀ (j : Nat), (s.setCtl p l).ginOf j = s.ginOf j) ∧ (∀ (j :
    Nat), (s.setCtl p l).rts j = s.rts j) ∧ (∀ (j : Nat), (s.setCtl p l).twls j = s.twls j) ∧ (∀ (j : Nat),
    (s.setCtl p l).wslot j = s.wslot j) ∧ (∀ (j : Nat), (s.setCtl p l).wlastOf j = s.wlastOf j) := by
  (repeat' apply And.intro) <;> intros <;> rfl

/-- The readings `setTrack` leaves alone. -/
@[simp] theorem State.setTrack_readings (k : Nat) (x : Track) :
        (∀ (g : Fld) (j : Nat), (s.setTrack k x).rd g j = s.rd g j) ∧ (∀ (g : Fld) (j : Nat), (s.setTrack k x).rdA g
    j = s.rdA g j) ∧ (∀ (g : Fld) (j : Nat), (s.setTrack k x).on g j = s.on g j) ∧ (∀ (g : Fld) (j : Nat),
    (s.setTrack k x).rdS g j = s.rdS g j) ∧ (∀ (y : Hid) (j : Nat), (s.setTrack k x).h y j = s.h y j) ∧ (∀ (y : Hid)
    (j : Nat), (s.setTrack k x).hS y j = s.hS y j) ∧ (∀ (q : Region) (d : Nat), (s.setTrack k x).byte q d = s.byte q
    d) ∧ (∀ (d m : Nat), (s.setTrack k x).tr d m = s.tr d m) ∧ (∀ (d : Dom), (s.setTrack k x).domState d =
    s.domState d) ∧ (∀ (d : Dom), (s.setTrack k x).domOn d = s.domOn d) ∧ (∀ (g : Grp) (j : Nat), (s.setTrack k
    x).clkOn g j = s.clkOn g j) ∧ (∀ (g : Grp) (j : Nat), (s.setTrack k x).up g j = s.up g j) ∧ (∀ (j : Nat),
    (s.setTrack k x).buf j = s.buf j) ∧ (∀ (j : Nat), (s.setTrack k x).queue j = s.queue j) ∧ (∀ (j : Nat),
    (s.setTrack k x).eq j = s.eq j) ∧ (∀ (j : Nat), (s.setTrack k x).hq j = s.hq j) ∧ (∀ (j : Nat), (s.setTrack k
    x).hatch j = s.hatch j) ∧ (∀ (j : Nat), (s.setTrack k x).rxOf j = s.rxOf j) ∧ (∀ (j : Nat), (s.setTrack k
    x).txOf j = s.txOf j) ∧ (∀ (j : Nat), (s.setTrack k x).ctlOf j = s.ctlOf j) ∧ (∀ (a j : Nat), (s.setTrack k
    x).entry a j = s.entry a j) ∧ (∀ (j : Nat), (s.setTrack k x).long j = s.long j) ∧ (∀ (j : Nat), (s.setTrack k
    x).cap j = s.cap j) ∧ (∀ (j : Nat), (s.setTrack k x).obsOf j = s.obsOf j) ∧ (∀ (j : Nat), (s.setTrack k x).gqOf
    j = s.gqOf j) ∧ (∀ (j : Nat), (s.setTrack k x).ginOf j = s.ginOf j) ∧ (∀ (j : Nat), (s.setTrack k x).rts j =
    s.rts j) ∧ (∀ (j : Nat), (s.setTrack k x).twls j = s.twls j) ∧ (∀ (j : Nat), (s.setTrack k x).wslot j = s.wslot
    j) ∧ (∀ (j : Nat), (s.setTrack k x).wlastOf j = s.wlastOf j) := by
  (repeat' apply And.intro) <;> intros <;> rfl

/-- The readings `setEntry` leaves alone. -/
@[simp] theorem State.setEntry_readings (t i : Nat) (x : LkEntry) :
        (∀ (g : Fld) (j : Nat), (s.setEntry t i x).rd g j = s.rd g j) ∧ (∀ (g : Fld) (j : Nat), (s.setEntry t i
    x).rdA g j = s.rdA g j) ∧ (∀ (g : Fld) (j : Nat), (s.setEntry t i x).on g j = s.on g j) ∧ (∀ (g : Fld) (j :
    Nat), (s.setEntry t i x).rdS g j = s.rdS g j) ∧ (∀ (y : Hid) (j : Nat), (s.setEntry t i x).h y j = s.h y j) ∧ (∀
    (y : Hid) (j : Nat), (s.setEntry t i x).hS y j = s.hS y j) ∧ (∀ (q : Region) (d : Nat), (s.setEntry t i x).byte
    q d = s.byte q d) ∧ (∀ (d m : Nat), (s.setEntry t i x).tr d m = s.tr d m) ∧ (∀ (d : Dom), (s.setEntry t i
    x).domState d = s.domState d) ∧ (∀ (d : Dom), (s.setEntry t i x).domOn d = s.domOn d) ∧ (∀ (g : Grp) (j : Nat),
    (s.setEntry t i x).clkOn g j = s.clkOn g j) ∧ (∀ (g : Grp) (j : Nat), (s.setEntry t i x).up g j = s.up g j) ∧ (∀
    (j : Nat), (s.setEntry t i x).buf j = s.buf j) ∧ (∀ (j : Nat), (s.setEntry t i x).queue j = s.queue j) ∧ (∀ (j :
    Nat), (s.setEntry t i x).eq j = s.eq j) ∧ (∀ (j : Nat), (s.setEntry t i x).hq j = s.hq j) ∧ (∀ (j : Nat),
    (s.setEntry t i x).hatch j = s.hatch j) ∧ (∀ (j : Nat), (s.setEntry t i x).rxOf j = s.rxOf j) ∧ (∀ (j : Nat),
    (s.setEntry t i x).txOf j = s.txOf j) ∧ (∀ (j : Nat), (s.setEntry t i x).ctlOf j = s.ctlOf j) ∧ (∀ (j : Nat),
    (s.setEntry t i x).track j = s.track j) ∧ (∀ (j : Nat), (s.setEntry t i x).long j = s.long j) ∧ (∀ (j : Nat),
    (s.setEntry t i x).cap j = s.cap j) ∧ (∀ (j : Nat), (s.setEntry t i x).obsOf j = s.obsOf j) ∧ (∀ (j : Nat),
    (s.setEntry t i x).gqOf j = s.gqOf j) ∧ (∀ (j : Nat), (s.setEntry t i x).ginOf j = s.ginOf j) ∧ (∀ (j : Nat),
    (s.setEntry t i x).rts j = s.rts j) ∧ (∀ (j : Nat), (s.setEntry t i x).twls j = s.twls j) ∧ (∀ (j : Nat),
    (s.setEntry t i x).wslot j = s.wslot j) ∧ (∀ (j : Nat), (s.setEntry t i x).wlastOf j = s.wlastOf j) := by
  (repeat' apply And.intro) <;> intros <;> rfl

/-- The readings `setLong` leaves alone. -/
@[simp] theorem State.setLong_readings (n : Nat) (l : List Int) :
        (∀ (g : Fld) (j : Nat), (s.setLong n l).rd g j = s.rd g j) ∧ (∀ (g : Fld) (j : Nat), (s.setLong n l).rdA g j
    = s.rdA g j) ∧ (∀ (g : Fld) (j : Nat), (s.setLong n l).on g j = s.on g j) ∧ (∀ (g : Fld) (j : Nat), (s.setLong n
    l).rdS g j = s.rdS g j) ∧ (∀ (y : Hid) (j : Nat), (s.setLong n l).h y j = s.h y j) ∧ (∀ (y : Hid) (j : Nat),
    (s.setLong n l).hS y j = s.hS y j) ∧ (∀ (q : Region) (d : Nat), (s.setLong n l).byte q d = s.byte q d) ∧ (∀ (d m
    : Nat), (s.setLong n l).tr d m = s.tr d m) ∧ (∀ (d : Dom), (s.setLong n l).domState d = s.domState d) ∧ (∀ (d :
    Dom), (s.setLong n l).domOn d = s.domOn d) ∧ (∀ (g : Grp) (j : Nat), (s.setLong n l).clkOn g j = s.clkOn g j) ∧
    (∀ (g : Grp) (j : Nat), (s.setLong n l).up g j = s.up g j) ∧ (∀ (j : Nat), (s.setLong n l).buf j = s.buf j) ∧ (∀
    (j : Nat), (s.setLong n l).queue j = s.queue j) ∧ (∀ (j : Nat), (s.setLong n l).eq j = s.eq j) ∧ (∀ (j : Nat),
    (s.setLong n l).hq j = s.hq j) ∧ (∀ (j : Nat), (s.setLong n l).hatch j = s.hatch j) ∧ (∀ (j : Nat), (s.setLong n
    l).rxOf j = s.rxOf j) ∧ (∀ (j : Nat), (s.setLong n l).txOf j = s.txOf j) ∧ (∀ (j : Nat), (s.setLong n l).ctlOf j
    = s.ctlOf j) ∧ (∀ (j : Nat), (s.setLong n l).track j = s.track j) ∧ (∀ (a j : Nat), (s.setLong n l).entry a j =
    s.entry a j) ∧ (∀ (j : Nat), (s.setLong n l).cap j = s.cap j) ∧ (∀ (j : Nat), (s.setLong n l).obsOf j = s.obsOf
    j) ∧ (∀ (j : Nat), (s.setLong n l).gqOf j = s.gqOf j) ∧ (∀ (j : Nat), (s.setLong n l).ginOf j = s.ginOf j) ∧ (∀
    (j : Nat), (s.setLong n l).rts j = s.rts j) ∧ (∀ (j : Nat), (s.setLong n l).twls j = s.twls j) ∧ (∀ (j : Nat),
    (s.setLong n l).wslot j = s.wslot j) ∧ (∀ (j : Nat), (s.setLong n l).wlastOf j = s.wlastOf j) := by
  (repeat' apply And.intro) <;> intros <;> rfl

/-- The readings `setCap` leaves alone. -/
@[simp] theorem State.setCap_readings (k : Nat) (l : List CapRec) :
        (∀ (g : Fld) (j : Nat), (s.setCap k l).rd g j = s.rd g j) ∧ (∀ (g : Fld) (j : Nat), (s.setCap k l).rdA g j =
    s.rdA g j) ∧ (∀ (g : Fld) (j : Nat), (s.setCap k l).on g j = s.on g j) ∧ (∀ (g : Fld) (j : Nat), (s.setCap k
    l).rdS g j = s.rdS g j) ∧ (∀ (y : Hid) (j : Nat), (s.setCap k l).h y j = s.h y j) ∧ (∀ (y : Hid) (j : Nat),
    (s.setCap k l).hS y j = s.hS y j) ∧ (∀ (q : Region) (d : Nat), (s.setCap k l).byte q d = s.byte q d) ∧ (∀ (d m :
    Nat), (s.setCap k l).tr d m = s.tr d m) ∧ (∀ (d : Dom), (s.setCap k l).domState d = s.domState d) ∧ (∀ (d :
    Dom), (s.setCap k l).domOn d = s.domOn d) ∧ (∀ (g : Grp) (j : Nat), (s.setCap k l).clkOn g j = s.clkOn g j) ∧ (∀
    (g : Grp) (j : Nat), (s.setCap k l).up g j = s.up g j) ∧ (∀ (j : Nat), (s.setCap k l).buf j = s.buf j) ∧ (∀ (j :
    Nat), (s.setCap k l).queue j = s.queue j) ∧ (∀ (j : Nat), (s.setCap k l).eq j = s.eq j) ∧ (∀ (j : Nat),
    (s.setCap k l).hq j = s.hq j) ∧ (∀ (j : Nat), (s.setCap k l).hatch j = s.hatch j) ∧ (∀ (j : Nat), (s.setCap k
    l).rxOf j = s.rxOf j) ∧ (∀ (j : Nat), (s.setCap k l).txOf j = s.txOf j) ∧ (∀ (j : Nat), (s.setCap k l).ctlOf j =
    s.ctlOf j) ∧ (∀ (j : Nat), (s.setCap k l).track j = s.track j) ∧ (∀ (a j : Nat), (s.setCap k l).entry a j =
    s.entry a j) ∧ (∀ (j : Nat), (s.setCap k l).long j = s.long j) ∧ (∀ (j : Nat), (s.setCap k l).obsOf j = s.obsOf
    j) ∧ (∀ (j : Nat), (s.setCap k l).gqOf j = s.gqOf j) ∧ (∀ (j : Nat), (s.setCap k l).ginOf j = s.ginOf j) ∧ (∀ (j
    : Nat), (s.setCap k l).rts j = s.rts j) ∧ (∀ (j : Nat), (s.setCap k l).twls j = s.twls j) ∧ (∀ (j : Nat),
    (s.setCap k l).wslot j = s.wslot j) ∧ (∀ (j : Nat), (s.setCap k l).wlastOf j = s.wlastOf j) := by
  (repeat' apply And.intro) <;> intros <;> rfl

/-- The readings `setObs` leaves alone. -/
@[simp] theorem State.setObs_readings (o : Nat) (x : ObsState) :
        (∀ (g : Fld) (j : Nat), (s.setObs o x).rd g j = s.rd g j) ∧ (∀ (g : Fld) (j : Nat), (s.setObs o x).rdA g j =
    s.rdA g j) ∧ (∀ (g : Fld) (j : Nat), (s.setObs o x).on g j = s.on g j) ∧ (∀ (g : Fld) (j : Nat), (s.setObs o
    x).rdS g j = s.rdS g j) ∧ (∀ (y : Hid) (j : Nat), (s.setObs o x).h y j = s.h y j) ∧ (∀ (y : Hid) (j : Nat),
    (s.setObs o x).hS y j = s.hS y j) ∧ (∀ (q : Region) (d : Nat), (s.setObs o x).byte q d = s.byte q d) ∧ (∀ (d m :
    Nat), (s.setObs o x).tr d m = s.tr d m) ∧ (∀ (d : Dom), (s.setObs o x).domState d = s.domState d) ∧ (∀ (d :
    Dom), (s.setObs o x).domOn d = s.domOn d) ∧ (∀ (g : Grp) (j : Nat), (s.setObs o x).clkOn g j = s.clkOn g j) ∧ (∀
    (g : Grp) (j : Nat), (s.setObs o x).up g j = s.up g j) ∧ (∀ (j : Nat), (s.setObs o x).buf j = s.buf j) ∧ (∀ (j :
    Nat), (s.setObs o x).queue j = s.queue j) ∧ (∀ (j : Nat), (s.setObs o x).eq j = s.eq j) ∧ (∀ (j : Nat),
    (s.setObs o x).hq j = s.hq j) ∧ (∀ (j : Nat), (s.setObs o x).hatch j = s.hatch j) ∧ (∀ (j : Nat), (s.setObs o
    x).rxOf j = s.rxOf j) ∧ (∀ (j : Nat), (s.setObs o x).txOf j = s.txOf j) ∧ (∀ (j : Nat), (s.setObs o x).ctlOf j =
    s.ctlOf j) ∧ (∀ (j : Nat), (s.setObs o x).track j = s.track j) ∧ (∀ (a j : Nat), (s.setObs o x).entry a j =
    s.entry a j) ∧ (∀ (j : Nat), (s.setObs o x).long j = s.long j) ∧ (∀ (j : Nat), (s.setObs o x).cap j = s.cap j) ∧
    (∀ (j : Nat), (s.setObs o x).gqOf j = s.gqOf j) ∧ (∀ (j : Nat), (s.setObs o x).ginOf j = s.ginOf j) ∧ (∀ (j :
    Nat), (s.setObs o x).rts j = s.rts j) ∧ (∀ (j : Nat), (s.setObs o x).twls j = s.twls j) ∧ (∀ (j : Nat),
    (s.setObs o x).wslot j = s.wslot j) ∧ (∀ (j : Nat), (s.setObs o x).wlastOf j = s.wlastOf j) := by
  (repeat' apply And.intro) <;> intros <;> rfl

/-- The readings `setGq` leaves alone. -/
@[simp] theorem State.setGq_readings (e : Nat) (l : List Contrib) :
        (∀ (g : Fld) (j : Nat), (s.setGq e l).rd g j = s.rd g j) ∧ (∀ (g : Fld) (j : Nat), (s.setGq e l).rdA g j =
    s.rdA g j) ∧ (∀ (g : Fld) (j : Nat), (s.setGq e l).on g j = s.on g j) ∧ (∀ (g : Fld) (j : Nat), (s.setGq e
    l).rdS g j = s.rdS g j) ∧ (∀ (y : Hid) (j : Nat), (s.setGq e l).h y j = s.h y j) ∧ (∀ (y : Hid) (j : Nat),
    (s.setGq e l).hS y j = s.hS y j) ∧ (∀ (q : Region) (d : Nat), (s.setGq e l).byte q d = s.byte q d) ∧ (∀ (d m :
    Nat), (s.setGq e l).tr d m = s.tr d m) ∧ (∀ (d : Dom), (s.setGq e l).domState d = s.domState d) ∧ (∀ (d : Dom),
    (s.setGq e l).domOn d = s.domOn d) ∧ (∀ (g : Grp) (j : Nat), (s.setGq e l).clkOn g j = s.clkOn g j) ∧ (∀ (g :
    Grp) (j : Nat), (s.setGq e l).up g j = s.up g j) ∧ (∀ (j : Nat), (s.setGq e l).buf j = s.buf j) ∧ (∀ (j : Nat),
    (s.setGq e l).queue j = s.queue j) ∧ (∀ (j : Nat), (s.setGq e l).eq j = s.eq j) ∧ (∀ (j : Nat), (s.setGq e l).hq
    j = s.hq j) ∧ (∀ (j : Nat), (s.setGq e l).hatch j = s.hatch j) ∧ (∀ (j : Nat), (s.setGq e l).rxOf j = s.rxOf j)
    ∧ (∀ (j : Nat), (s.setGq e l).txOf j = s.txOf j) ∧ (∀ (j : Nat), (s.setGq e l).ctlOf j = s.ctlOf j) ∧ (∀ (j :
    Nat), (s.setGq e l).track j = s.track j) ∧ (∀ (a j : Nat), (s.setGq e l).entry a j = s.entry a j) ∧ (∀ (j :
    Nat), (s.setGq e l).long j = s.long j) ∧ (∀ (j : Nat), (s.setGq e l).cap j = s.cap j) ∧ (∀ (j : Nat), (s.setGq e
    l).obsOf j = s.obsOf j) ∧ (∀ (j : Nat), (s.setGq e l).ginOf j = s.ginOf j) ∧ (∀ (j : Nat), (s.setGq e l).rts j =
    s.rts j) ∧ (∀ (j : Nat), (s.setGq e l).twls j = s.twls j) ∧ (∀ (j : Nat), (s.setGq e l).wslot j = s.wslot j) ∧
    (∀ (j : Nat), (s.setGq e l).wlastOf j = s.wlastOf j) := by
  (repeat' apply And.intro) <;> intros <;> rfl

/-- The readings `setGin` leaves alone. -/
@[simp] theorem State.setGin_readings (e : Nat) (l : List Copy) :
        (∀ (g : Fld) (j : Nat), (s.setGin e l).rd g j = s.rd g j) ∧ (∀ (g : Fld) (j : Nat), (s.setGin e l).rdA g j =
    s.rdA g j) ∧ (∀ (g : Fld) (j : Nat), (s.setGin e l).on g j = s.on g j) ∧ (∀ (g : Fld) (j : Nat), (s.setGin e
    l).rdS g j = s.rdS g j) ∧ (∀ (y : Hid) (j : Nat), (s.setGin e l).h y j = s.h y j) ∧ (∀ (y : Hid) (j : Nat),
    (s.setGin e l).hS y j = s.hS y j) ∧ (∀ (q : Region) (d : Nat), (s.setGin e l).byte q d = s.byte q d) ∧ (∀ (d m :
    Nat), (s.setGin e l).tr d m = s.tr d m) ∧ (∀ (d : Dom), (s.setGin e l).domState d = s.domState d) ∧ (∀ (d :
    Dom), (s.setGin e l).domOn d = s.domOn d) ∧ (∀ (g : Grp) (j : Nat), (s.setGin e l).clkOn g j = s.clkOn g j) ∧ (∀
    (g : Grp) (j : Nat), (s.setGin e l).up g j = s.up g j) ∧ (∀ (j : Nat), (s.setGin e l).buf j = s.buf j) ∧ (∀ (j :
    Nat), (s.setGin e l).queue j = s.queue j) ∧ (∀ (j : Nat), (s.setGin e l).eq j = s.eq j) ∧ (∀ (j : Nat),
    (s.setGin e l).hq j = s.hq j) ∧ (∀ (j : Nat), (s.setGin e l).hatch j = s.hatch j) ∧ (∀ (j : Nat), (s.setGin e
    l).rxOf j = s.rxOf j) ∧ (∀ (j : Nat), (s.setGin e l).txOf j = s.txOf j) ∧ (∀ (j : Nat), (s.setGin e l).ctlOf j =
    s.ctlOf j) ∧ (∀ (j : Nat), (s.setGin e l).track j = s.track j) ∧ (∀ (a j : Nat), (s.setGin e l).entry a j =
    s.entry a j) ∧ (∀ (j : Nat), (s.setGin e l).long j = s.long j) ∧ (∀ (j : Nat), (s.setGin e l).cap j = s.cap j) ∧
    (∀ (j : Nat), (s.setGin e l).obsOf j = s.obsOf j) ∧ (∀ (j : Nat), (s.setGin e l).gqOf j = s.gqOf j) ∧ (∀ (j :
    Nat), (s.setGin e l).rts j = s.rts j) ∧ (∀ (j : Nat), (s.setGin e l).twls j = s.twls j) ∧ (∀ (j : Nat),
    (s.setGin e l).wslot j = s.wslot j) ∧ (∀ (j : Nat), (s.setGin e l).wlastOf j = s.wlastOf j) := by
  (repeat' apply And.intro) <;> intros <;> rfl

/-- The readings `setRts` leaves alone. -/
@[simp] theorem State.setRts_readings (p : Nat) (l : List Int) :
        (∀ (g : Fld) (j : Nat), (s.setRts p l).rd g j = s.rd g j) ∧ (∀ (g : Fld) (j : Nat), (s.setRts p l).rdA g j =
    s.rdA g j) ∧ (∀ (g : Fld) (j : Nat), (s.setRts p l).on g j = s.on g j) ∧ (∀ (g : Fld) (j : Nat), (s.setRts p
    l).rdS g j = s.rdS g j) ∧ (∀ (y : Hid) (j : Nat), (s.setRts p l).h y j = s.h y j) ∧ (∀ (y : Hid) (j : Nat),
    (s.setRts p l).hS y j = s.hS y j) ∧ (∀ (q : Region) (d : Nat), (s.setRts p l).byte q d = s.byte q d) ∧ (∀ (d m :
    Nat), (s.setRts p l).tr d m = s.tr d m) ∧ (∀ (d : Dom), (s.setRts p l).domState d = s.domState d) ∧ (∀ (d :
    Dom), (s.setRts p l).domOn d = s.domOn d) ∧ (∀ (g : Grp) (j : Nat), (s.setRts p l).clkOn g j = s.clkOn g j) ∧ (∀
    (g : Grp) (j : Nat), (s.setRts p l).up g j = s.up g j) ∧ (∀ (j : Nat), (s.setRts p l).buf j = s.buf j) ∧ (∀ (j :
    Nat), (s.setRts p l).queue j = s.queue j) ∧ (∀ (j : Nat), (s.setRts p l).eq j = s.eq j) ∧ (∀ (j : Nat),
    (s.setRts p l).hq j = s.hq j) ∧ (∀ (j : Nat), (s.setRts p l).hatch j = s.hatch j) ∧ (∀ (j : Nat), (s.setRts p
    l).rxOf j = s.rxOf j) ∧ (∀ (j : Nat), (s.setRts p l).txOf j = s.txOf j) ∧ (∀ (j : Nat), (s.setRts p l).ctlOf j =
    s.ctlOf j) ∧ (∀ (j : Nat), (s.setRts p l).track j = s.track j) ∧ (∀ (a j : Nat), (s.setRts p l).entry a j =
    s.entry a j) ∧ (∀ (j : Nat), (s.setRts p l).long j = s.long j) ∧ (∀ (j : Nat), (s.setRts p l).cap j = s.cap j) ∧
    (∀ (j : Nat), (s.setRts p l).obsOf j = s.obsOf j) ∧ (∀ (j : Nat), (s.setRts p l).gqOf j = s.gqOf j) ∧ (∀ (j :
    Nat), (s.setRts p l).ginOf j = s.ginOf j) ∧ (∀ (j : Nat), (s.setRts p l).twls j = s.twls j) ∧ (∀ (j : Nat),
    (s.setRts p l).wslot j = s.wslot j) ∧ (∀ (j : Nat), (s.setRts p l).wlastOf j = s.wlastOf j) := by
  (repeat' apply And.intro) <;> intros <;> rfl

/-- The readings `setTwl` leaves alone. -/
@[simp] theorem State.setTwl_readings (k : Nat) (l : List Int) :
        (∀ (g : Fld) (j : Nat), (s.setTwl k l).rd g j = s.rd g j) ∧ (∀ (g : Fld) (j : Nat), (s.setTwl k l).rdA g j =
    s.rdA g j) ∧ (∀ (g : Fld) (j : Nat), (s.setTwl k l).on g j = s.on g j) ∧ (∀ (g : Fld) (j : Nat), (s.setTwl k
    l).rdS g j = s.rdS g j) ∧ (∀ (y : Hid) (j : Nat), (s.setTwl k l).h y j = s.h y j) ∧ (∀ (y : Hid) (j : Nat),
    (s.setTwl k l).hS y j = s.hS y j) ∧ (∀ (q : Region) (d : Nat), (s.setTwl k l).byte q d = s.byte q d) ∧ (∀ (d m :
    Nat), (s.setTwl k l).tr d m = s.tr d m) ∧ (∀ (d : Dom), (s.setTwl k l).domState d = s.domState d) ∧ (∀ (d :
    Dom), (s.setTwl k l).domOn d = s.domOn d) ∧ (∀ (g : Grp) (j : Nat), (s.setTwl k l).clkOn g j = s.clkOn g j) ∧ (∀
    (g : Grp) (j : Nat), (s.setTwl k l).up g j = s.up g j) ∧ (∀ (j : Nat), (s.setTwl k l).buf j = s.buf j) ∧ (∀ (j :
    Nat), (s.setTwl k l).queue j = s.queue j) ∧ (∀ (j : Nat), (s.setTwl k l).eq j = s.eq j) ∧ (∀ (j : Nat),
    (s.setTwl k l).hq j = s.hq j) ∧ (∀ (j : Nat), (s.setTwl k l).hatch j = s.hatch j) ∧ (∀ (j : Nat), (s.setTwl k
    l).rxOf j = s.rxOf j) ∧ (∀ (j : Nat), (s.setTwl k l).txOf j = s.txOf j) ∧ (∀ (j : Nat), (s.setTwl k l).ctlOf j =
    s.ctlOf j) ∧ (∀ (j : Nat), (s.setTwl k l).track j = s.track j) ∧ (∀ (a j : Nat), (s.setTwl k l).entry a j =
    s.entry a j) ∧ (∀ (j : Nat), (s.setTwl k l).long j = s.long j) ∧ (∀ (j : Nat), (s.setTwl k l).cap j = s.cap j) ∧
    (∀ (j : Nat), (s.setTwl k l).obsOf j = s.obsOf j) ∧ (∀ (j : Nat), (s.setTwl k l).gqOf j = s.gqOf j) ∧ (∀ (j :
    Nat), (s.setTwl k l).ginOf j = s.ginOf j) ∧ (∀ (j : Nat), (s.setTwl k l).rts j = s.rts j) ∧ (∀ (j : Nat),
    (s.setTwl k l).wslot j = s.wslot j) ∧ (∀ (j : Nat), (s.setTwl k l).wlastOf j = s.wlastOf j) := by
  (repeat' apply And.intro) <;> intros <;> rfl

/-- The readings `setWslot` leaves alone. -/
@[simp] theorem State.setWslot_readings (k : Nat) (x : WSlot) :
        (∀ (g : Fld) (j : Nat), (s.setWslot k x).rd g j = s.rd g j) ∧ (∀ (g : Fld) (j : Nat), (s.setWslot k x).rdA g
    j = s.rdA g j) ∧ (∀ (g : Fld) (j : Nat), (s.setWslot k x).on g j = s.on g j) ∧ (∀ (g : Fld) (j : Nat),
    (s.setWslot k x).rdS g j = s.rdS g j) ∧ (∀ (y : Hid) (j : Nat), (s.setWslot k x).h y j = s.h y j) ∧ (∀ (y : Hid)
    (j : Nat), (s.setWslot k x).hS y j = s.hS y j) ∧ (∀ (q : Region) (d : Nat), (s.setWslot k x).byte q d = s.byte q
    d) ∧ (∀ (d m : Nat), (s.setWslot k x).tr d m = s.tr d m) ∧ (∀ (d : Dom), (s.setWslot k x).domState d =
    s.domState d) ∧ (∀ (d : Dom), (s.setWslot k x).domOn d = s.domOn d) ∧ (∀ (g : Grp) (j : Nat), (s.setWslot k
    x).clkOn g j = s.clkOn g j) ∧ (∀ (g : Grp) (j : Nat), (s.setWslot k x).up g j = s.up g j) ∧ (∀ (j : Nat),
    (s.setWslot k x).buf j = s.buf j) ∧ (∀ (j : Nat), (s.setWslot k x).queue j = s.queue j) ∧ (∀ (j : Nat),
    (s.setWslot k x).eq j = s.eq j) ∧ (∀ (j : Nat), (s.setWslot k x).hq j = s.hq j) ∧ (∀ (j : Nat), (s.setWslot k
    x).hatch j = s.hatch j) ∧ (∀ (j : Nat), (s.setWslot k x).rxOf j = s.rxOf j) ∧ (∀ (j : Nat), (s.setWslot k
    x).txOf j = s.txOf j) ∧ (∀ (j : Nat), (s.setWslot k x).ctlOf j = s.ctlOf j) ∧ (∀ (j : Nat), (s.setWslot k
    x).track j = s.track j) ∧ (∀ (a j : Nat), (s.setWslot k x).entry a j = s.entry a j) ∧ (∀ (j : Nat), (s.setWslot
    k x).long j = s.long j) ∧ (∀ (j : Nat), (s.setWslot k x).cap j = s.cap j) ∧ (∀ (j : Nat), (s.setWslot k x).obsOf
    j = s.obsOf j) ∧ (∀ (j : Nat), (s.setWslot k x).gqOf j = s.gqOf j) ∧ (∀ (j : Nat), (s.setWslot k x).ginOf j =
    s.ginOf j) ∧ (∀ (j : Nat), (s.setWslot k x).rts j = s.rts j) ∧ (∀ (j : Nat), (s.setWslot k x).twls j = s.twls j)
    ∧ (∀ (j : Nat), (s.setWslot k x).wlastOf j = s.wlastOf j) := by
  (repeat' apply And.intro) <;> intros <;> rfl

/-- The readings `setWlast` leaves alone. -/
@[simp] theorem State.setWlast_readings (k : Nat) (x : Option WStamp) :
        (∀ (g : Fld) (j : Nat), (s.setWlast k x).rd g j = s.rd g j) ∧ (∀ (g : Fld) (j : Nat), (s.setWlast k x).rdA g
    j = s.rdA g j) ∧ (∀ (g : Fld) (j : Nat), (s.setWlast k x).on g j = s.on g j) ∧ (∀ (g : Fld) (j : Nat),
    (s.setWlast k x).rdS g j = s.rdS g j) ∧ (∀ (y : Hid) (j : Nat), (s.setWlast k x).h y j = s.h y j) ∧ (∀ (y : Hid)
    (j : Nat), (s.setWlast k x).hS y j = s.hS y j) ∧ (∀ (q : Region) (d : Nat), (s.setWlast k x).byte q d = s.byte q
    d) ∧ (∀ (d m : Nat), (s.setWlast k x).tr d m = s.tr d m) ∧ (∀ (d : Dom), (s.setWlast k x).domState d =
    s.domState d) ∧ (∀ (d : Dom), (s.setWlast k x).domOn d = s.domOn d) ∧ (∀ (g : Grp) (j : Nat), (s.setWlast k
    x).clkOn g j = s.clkOn g j) ∧ (∀ (g : Grp) (j : Nat), (s.setWlast k x).up g j = s.up g j) ∧ (∀ (j : Nat),
    (s.setWlast k x).buf j = s.buf j) ∧ (∀ (j : Nat), (s.setWlast k x).queue j = s.queue j) ∧ (∀ (j : Nat),
    (s.setWlast k x).eq j = s.eq j) ∧ (∀ (j : Nat), (s.setWlast k x).hq j = s.hq j) ∧ (∀ (j : Nat), (s.setWlast k
    x).hatch j = s.hatch j) ∧ (∀ (j : Nat), (s.setWlast k x).rxOf j = s.rxOf j) ∧ (∀ (j : Nat), (s.setWlast k
    x).txOf j = s.txOf j) ∧ (∀ (j : Nat), (s.setWlast k x).ctlOf j = s.ctlOf j) ∧ (∀ (j : Nat), (s.setWlast k
    x).track j = s.track j) ∧ (∀ (a j : Nat), (s.setWlast k x).entry a j = s.entry a j) ∧ (∀ (j : Nat), (s.setWlast
    k x).long j = s.long j) ∧ (∀ (j : Nat), (s.setWlast k x).cap j = s.cap j) ∧ (∀ (j : Nat), (s.setWlast k x).obsOf
    j = s.obsOf j) ∧ (∀ (j : Nat), (s.setWlast k x).gqOf j = s.gqOf j) ∧ (∀ (j : Nat), (s.setWlast k x).ginOf j =
    s.ginOf j) ∧ (∀ (j : Nat), (s.setWlast k x).rts j = s.rts j) ∧ (∀ (j : Nat), (s.setWlast k x).twls j = s.twls j)
    ∧ (∀ (j : Nat), (s.setWlast k x).wslot j = s.wslot j) := by
  (repeat' apply And.intro) <;> intros <;> rfl

/-! ## A reading after an update of its own store -/

@[simp] theorem State.rd_wr (f g : Fld) (i j v : Nat) :
    (s.wr f i v).rd g j = if g = f ∧ j = i then trunc f.desc.width v else s.rd g j := by
  unfold State.rd State.wr
  by_cases h : g = f ∧ j = i
  · obtain ⟨rfl, rfl⟩ := h; simp [Assoc.get_set_same]
  · rw [if_neg h]; apply Assoc.get_set_ne; exact fun e => h (Prod.mk.inj e)

@[simp] theorem State.rdA_wrA (f g : Fld) (i j v : Nat) :
    (s.wrA f i v).rdA g j = if g = f ∧ j = i then trunc f.desc.width v else s.rdA g j := by
  unfold State.rdA State.wrA
  by_cases h : g = f ∧ j = i
  · obtain ⟨rfl, rfl⟩ := h; simp [Assoc.get_set_same]
  · rw [if_neg h]; apply Assoc.get_set_ne; exact fun e => h (Prod.mk.inj e)

@[simp] theorem State.h_setH (x y : Hid) (i j v : Nat) :
    (s.setH x i v).h y j = if y = x ∧ j = i then v else s.h y j := by
  unfold State.h State.setH
  by_cases h : y = x ∧ j = i
  · obtain ⟨rfl, rfl⟩ := h; simp [Assoc.get_set_same]
  · rw [if_neg h]; apply Assoc.get_set_ne; exact fun e => h (Prod.mk.inj e)

@[simp] theorem State.tr_setTr (c n d m v : Nat) :
    (s.setTr c n v).tr d m = if d = c ∧ m = n then v else s.tr d m := by
  unfold State.tr State.setTr
  by_cases h : d = c ∧ m = n
  · obtain ⟨rfl, rfl⟩ := h; simp [Assoc.get_set_same]
  · rw [if_neg h]; apply Assoc.get_set_ne; exact fun e => h (Prod.mk.inj e)

@[simp] theorem State.on_wr (f g : Fld) (i j v : Nat) :
    (s.wr f i v).on g j = if g = f ∧ j = i then trunc f.desc.width v == 1 else s.on g j := by
  unfold State.on; rw [State.rd_wr]; split <;> rfl

theorem State.byte_setByte_same (r : Region) (a : Nat) (b : Byte) : (s.setByte r a b).byte r a = b :=
  Assoc.get_set_same _ _ _ _ _

theorem State.byte_setByte_other (r q : Region) (a d : Nat) (b : Byte) (h : q.key d ≠ r.key a) :
    (s.setByte r a b).byte q d = s.byte q d :=
  Assoc.get_set_other _ _ _ h _

theorem Region.idx_lt (r : Region) : r.idx < 16 := by cases r <;> decide

/-- A key names one byte of one region. -/
theorem Region.key_inj {r q : Region} {a d : Nat} (h : q.key d = r.key a) : q = r ∧ d = a := by
  unfold Region.key at h
  have hr := r.idx_lt
  have hq := q.idx_lt
  have e : q.idx = r.idx ∧ d = a := by omega
  refine ⟨?_, e.2⟩
  simpa only [Region.idx, Region.ofNat_ctorIdx] using congrArg Region.ofNat e.1

@[simp] theorem State.byte_setByte (r q : Region) (a d : Nat) (b : Byte) :
    (s.setByte r a b).byte q d = if q = r ∧ d = a then b else s.byte q d := by
  by_cases h : q = r ∧ d = a
  · obtain ⟨rfl, rfl⟩ := h; simpa using s.byte_setByte_same _ _ _
  · rw [if_neg h]; exact s.byte_setByte_other _ _ _ _ _ (fun e => h (Region.key_inj e))

/-- What a run of bytes leaves in memory. -/
theorem State.byte_setBytes (s : State) (r q : Region) (a d : Nat) (l : List Byte) :
    (s.setBytes r a l).byte q d = if q = r ∧ a ≤ d ∧ d < a + l.length then l.getD (d - a) 0 else s.byte q d := by
  induction l generalizing s a with
  | nil =>
    have h : ¬ (q = r ∧ a ≤ d ∧ d < a + 0) := by omega
    simp only [State.setBytes, List.length_nil, if_neg h]
  | cons b t ih =>
    simp only [State.setBytes, ih, State.byte_setByte, List.length_cons]
    by_cases hq : q = r
    · by_cases h1 : d = a
      · subst h1
        have h2 : ¬ (d + 1 ≤ d ∧ d < d + 1 + t.length) := by omega
        have h3 : d ≤ d ∧ d < d + (t.length + 1) := by omega
        simp [hq, h2, h3]
      · by_cases h2 : a + 1 ≤ d ∧ d < a + 1 + t.length
        · have h3 : a ≤ d ∧ d < a + (t.length + 1) := by omega
          have h4 : d - a = d - (a + 1) + 1 := by omega
          rw [if_pos ⟨hq, h2⟩, if_pos ⟨hq, h3⟩, h4, List.getD_cons_succ]
        · have h3 : ¬ (a ≤ d ∧ d < a + (t.length + 1)) := by omega
          rw [if_neg (fun e => h2 e.2), if_neg (fun e => h1 e.2), if_neg (fun e => h3 e.2)]
    · simp [hq]

theorem Assoc.get_filter {κ α : Type} [DecidableEq κ] (d : α) (k : κ) (p : κ → Bool) (l : List (κ × α)) :
    Assoc.get d k (l.filter (fun e => p e.1)) = if p k then Assoc.get d k l else d := by
  induction l with
  | nil => simp [Assoc.get]
  | cons a t ih =>
    rw [List.filter_cons]
    by_cases h : a.1 = k
    · by_cases hp : p k = true <;> simp [Assoc.get, h, hp, ih]
    · by_cases hp : p a.1 = true <;> simp [Assoc.get, h, hp, ih]

/-- What a wipe leaves in memory. -/
theorem State.byte_wipe (s : State) (r q : Region) (lo hi d : Nat) :
    (s.wipe r lo hi).byte q d = if q = r ∧ lo ≤ d ∧ d < hi then 0 else s.byte q d := by
  have hr := r.idx_lt
  have hq := q.idx_lt
  have h1 : q.key d % 16 = q.idx := by unfold Region.key; omega
  have h2 : q.key d / 16 = d := by unfold Region.key; omega
  have h3 : q.idx = r.idx ↔ q = r :=
    ⟨fun e => by simpa only [Region.idx, Region.ofNat_ctorIdx] using congrArg Region.ofNat e, fun e => by rw [e]⟩
  unfold State.byte State.wipe
  have := Assoc.get_filter (0 : Byte) (q.key d)
    (fun c => decide (¬ (c % 16 = r.idx ∧ lo ≤ c / 16 ∧ c / 16 < hi))) s.mem
  rw [this, h1, h2]
  simp only [h3, decide_eq_true_eq]
  by_cases h : q = r ∧ lo ≤ d ∧ d < hi
  · rw [if_pos h, if_neg (fun n => n h)]
  · rw [if_neg h, if_pos h]

end Sys2Proof.Machine
end

