-- ==== Sys2Proof/Laws/Frame.lean ====
section
/-! SUPPORT. The frame of a chain of updates: each update of a listed field or hidden value keeps it. -/

namespace Sys2Proof.Machine

variable {s t u : State} {fs : List (Fld × Nat)} {hs : List (Hid × Nat)}

theorem Frame.refl : Frame s s fs hs :=
  ⟨fun _ _ _ => rfl, fun _ _ => rfl, fun _ _ _ => rfl, fun _ _ => rfl, fun _ _ => rfl, rfl⟩

theorem Frame.trans (h : Frame s t fs hs) (k : Frame t u fs hs) : Frame s u fs hs :=
  ⟨fun f i m => (k.1 f i m).trans (h.1 f i m), fun f i => (k.2.1 f i).trans (h.2.1 f i),
   fun x i m => (k.2.2.1 x i m).trans (h.2.2.1 x i m), fun r a => (k.2.2.2.1 r a).trans (h.2.2.2.1 r a),
   fun c n => (k.2.2.2.2.1 c n).trans (h.2.2.2.2.1 c n), k.2.2.2.2.2.trans h.2.2.2.2.2⟩

theorem Frame.mono {fs' : List (Fld × Nat)} {hs' : List (Hid × Nat)} (h : Frame s t fs hs) (a : ∀ x ∈ fs, x ∈ fs')
    (b : ∀ x ∈ hs, x ∈ hs') : Frame s t fs' hs' :=
  ⟨fun f i m => h.1 f i (fun k => m (a _ k)), h.2.1, fun x i m => h.2.2.1 x i (fun k => m (b _ k)), h.2.2.2⟩

theorem Frame.wr (f : Fld) (i v : Nat) (m : (f, i) ∈ fs) (h : Frame s t fs hs) : Frame s (t.wr f i v) fs hs := by
  refine ⟨fun g j k => ?_, h.2.1, h.2.2.1, h.2.2.2.1, h.2.2.2.2.1, h.2.2.2.2.2⟩
  rw [State.rd_wr, if_neg (fun e => k (by rw [e.1, e.2]; exact m))]
  exact h.1 g j k

theorem Frame.setH (x : Hid) (i v : Nat) (m : (x, i) ∈ hs) (h : Frame s t fs hs) : Frame s (t.setH x i v) fs hs := by
  refine ⟨h.1, h.2.1, fun y j k => ?_, h.2.2.2.1, h.2.2.2.2.1, h.2.2.2.2.2⟩
  rw [State.h_setH, if_neg (fun e => k (by rw [e.1, e.2]; exact m))]
  exact h.2.2.1 y j k

theorem Frame.wrS (f : Fld) (i : Nat) (v : Int) (m : (f, i) ∈ fs) (h : Frame s t fs hs) : Frame s (t.wrS f i v) fs hs :=
  h.wr f i _ m

theorem Frame.setHS (x : Hid) (i : Nat) (v : Int) (m : (x, i) ∈ hs) (h : Frame s t fs hs) : Frame s (t.setHS x i v) fs hs :=
  h.setH x i _ m

theorem Frame.count (f : Fld) (i n : Nat) (m : (f, i) ∈ fs) (h : Frame s t fs hs) : Frame s (t.count f i n) fs hs :=
  h.wr f i _ m

theorem Frame.bump (f : Fld) (i n : Nat) (m : (f, i) ∈ fs) (h : Frame s t fs hs) : Frame s (t.bump f i n) fs hs :=
  h.wr f i _ m

theorem Frame.setBitF (f : Fld) (i k : Nat) (m : (f, i) ∈ fs) (h : Frame s t fs hs) : Frame s (t.setBitF f i k) fs hs :=
  h.wr f i _ m

theorem Frame.clrBitF (f : Fld) (i k : Nat) (m : (f, i) ∈ fs) (h : Frame s t fs hs) : Frame s (t.clrBitF f i k) fs hs :=
  h.wr f i _ m

theorem Frame.resp (x : Resp) (h : Frame s t fs hs) : Frame s { t with resp := x } fs hs := h

end Sys2Proof.Machine
end

