-- ==== Sys2Proof/Laws/Keeps.lean ====
section
/-! SUPPORT. What every operation of the model can do to the stores, said once: a property of states that the primitive
updates keep is kept by everything built from them. -/

namespace Sys2Proof.Machine

/-- A property of states that every primitive update keeps. Time only advances, and the variant, the command queue and
the counter of free values are never set otherwise. -/
structure Closed (P : State → Prop) : Prop where
  wr : ∀ {s : State} (f : Fld) (i v : Nat), P s → P (s.wr f i v)
  wrA : ∀ {s : State} (f : Fld) (i v : Nat), P s → P (s.wrA f i v)
  setH : ∀ {s : State} (x : Hid) (i v : Nat), P s → P (s.setH x i v)
  setByte : ∀ {s : State} (r : Region) (a : Nat) (b : Byte), P s → P (s.setByte r a b)
  setTr : ∀ {s : State} (c n v : Nat), P s → P (s.setTr c n v)
  nextFree : ∀ {s : State}, P s → P s.nextFree
  regsF : ∀ {s : State} (q : (Fld × Nat) × Nat → Bool), P s → P { s with regs := s.regs.filter q }
  appliedF : ∀ {s : State} (q : (Fld × Nat) × Nat → Bool), P s → P { s with applied := s.applied.filter q }
  hidF : ∀ {s : State} (q : (Hid × Nat) × Nat → Bool), P s → P { s with hid := s.hid.filter q }
  memF : ∀ {s : State} (q : Host.Cell → Bool), P s → P { s with mem := s.mem.filter q }
  tregF : ∀ {s : State} (q : (Nat × Nat) × Nat → Bool), P s → P { s with treg := s.treg.filter q }
  age : ∀ {s : State} (n : Nat), P s → P { s with age := s.age + n }
  rest : ∀ {s t : State}, t.variant = s.variant ∧ t.regs = s.regs ∧ t.applied = s.applied ∧ t.hid = s.hid ∧ t.mem = s.mem ∧
    t.treg = s.treg ∧ t.age = s.age ∧ t.freeN = s.freeN ∧ t.pending = s.pending → P s → P t

/-- The property of what an outcome hands on. -/
def OkP (P : State → Prop) : Host.Outcome State Fault Refusal → Prop
  | .next s => P s
  | _ => True

variable {P : State → Prop}

theorem okS {s : State} (h : P s) : OkP P (.next s) := h

theorem iteS {c : Prop} [Decidable c] {a b : State} (ha : P a) (hb : P b) : P (if c then a else b) := by
  split <;> assumption

theorem cutS {a : Prop} {x : State} (ha : P x) (hb : P x → a) : a := hb ha

theorem pr2 {β : Type} {x : β × State} {a : β} {t : State} (h : P x.2) (e : x = (a, t)) : P t := by
  rw [e] at h; exact h

theorem pr1 {β : Type} {x : State × β} {a : β} {t : State} (h : P x.1) (e : x = (t, a)) : P t := by
  rw [e] at h; exact h

theorem pr22 {β γ : Type} {x : β × γ × State} {a : β} {b : γ} {t : State} (h : P x.2.2) (e : x = (a, b, t)) : P t := by
  rw [e] at h; exact h

theorem pr222 {β γ δ : Type} {x : β × γ × δ × State} {a : β} {b : γ} {c : δ} {t : State} (h : P x.2.2.2)
    (e : x = (a, b, c, t)) : P t := by
  rw [e] at h; exact h

theorem foldS {α : Type} {f : State → α → State} {l : List α} {s : State} (h : P s) (hf : ∀ s x, P s → P (f s x)) :
    P (l.foldl f s) := by
  induction l generalizing s with
  | nil => exact h
  | cons x t ih => exact ih (hf _ _ h)

theorem foldP {α β : Type} {f : β × State → α → β × State} {l : List α} {s : β × State} (h : P s.2)
    (hf : ∀ s x, P s.2 → P (f s x).2) : P (l.foldl f s).2 := by
  induction l generalizing s with
  | nil => exact h
  | cons x t ih => exact ih (hf _ _ h)

theorem foldQ {α β : Type} {f : State × β → α → State × β} {l : List α} {s : State × β} (h : P s.1)
    (hf : ∀ s x, P s.1 → P (f s x).1) : P (l.foldl f s).1 := by
  induction l generalizing s with
  | nil => exact h
  | cons x t ih => exact ih (hf _ _ h)

theorem Closed.filt (C : Closed P) {s : State} {q1 q2 : (Fld × Nat) × Nat → Bool} {q3 : (Hid × Nat) × Nat → Bool}
    {q4 : (Nat × Nat) × Nat → Bool} (h : P s) :
    P { s with regs := s.regs.filter q1, applied := s.applied.filter q2, hid := s.hid.filter q3,
               treg := s.treg.filter q4 } := by
  have a := C.regsF q1 h
  have b := C.appliedF q2 a
  have c := C.hidF q3 b
  exact C.tregF q4 c

theorem Closed.hist_keeps (C : Closed P) {s : State} {x : List HistEntry} (h : P s) : P { s with hist := x } :=
  C.rest (s := s) ⟨rfl, rfl, rfl, rfl, rfl, rfl, rfl, rfl, rfl⟩ h

theorem Closed.y4096_keeps (C : Closed P) {s : State} {x : List (Nat × List Int)} (h : P s) : P { s with y4096 := x } :=
  C.rest (s := s) ⟨rfl, rfl, rfl, rfl, rfl, rfl, rfl, rfl, rfl⟩ h

theorem Closed.meas_keeps (C : Closed P) {s : State} {x : List (Int × Nat)} (h : P s) : P { s with meas := x } :=
  C.rest (s := s) ⟨rfl, rfl, rfl, rfl, rfl, rfl, rfl, rfl, rfl⟩ h

theorem Closed.measPrev_keeps (C : Closed P) {s : State} {x : List (Int × Nat)} (h : P s) : P { s with measPrev := x } :=
  C.rest (s := s) ⟨rfl, rfl, rfl, rfl, rfl, rfl, rfl, rfl, rfl⟩ h

theorem Closed.refused_keeps (C : Closed P) {s : State} {x : List Int} (h : P s) : P { s with refused := x } :=
  C.rest (s := s) ⟨rfl, rfl, rfl, rfl, rfl, rfl, rfl, rfl, rfl⟩ h

theorem Closed.caps_keeps (C : Closed P) {s : State} {x : List (Nat × List CapRec)} (h : P s) : P { s with caps := x } :=
  C.rest (s := s) ⟨rfl, rfl, rfl, rfl, rfl, rfl, rfl, rfl, rfl⟩ h

theorem Closed.latch_keeps (C : Closed P) {s : State} {x : List (Nat × (Nat × Nat))} (h : P s) : P { s with latch := x } :=
  C.rest (s := s) ⟨rfl, rfl, rfl, rfl, rfl, rfl, rfl, rfl, rfl⟩ h

theorem Closed.hold_keeps (C : Closed P) {s : State} {x : List ((Nat × Nat) × (Nat × Nat))} (h : P s) : P { s with hold := x } :=
  C.rest (s := s) ⟨rfl, rfl, rfl, rfl, rfl, rfl, rfl, rfl, rfl⟩ h

theorem Closed.resp_keeps (C : Closed P) {s : State} {x : Resp} (h : P s) : P { s with resp := x } :=
  C.rest (s := s) ⟨rfl, rfl, rfl, rfl, rfl, rfl, rfl, rfl, rfl⟩ h

theorem Closed.rfifo_keeps (C : Closed P) {s : State} {x : List EvRec} (h : P s) : P { s with rfifo := x } :=
  C.rest (s := s) ⟨rfl, rfl, rfl, rfl, rfl, rfl, rfl, rfl, rfl⟩ h

theorem Closed.held_keeps (C : Closed P) {s : State} {x : List EvRec} (h : P s) : P { s with held := x } :=
  C.rest (s := s) ⟨rfl, rfl, rfl, rfl, rfl, rfl, rfl, rfl, rfl⟩ h

theorem Closed.archive_keeps (C : Closed P) {s : State} {x : List (Nat × Nat)} (h : P s) : P { s with archive := x } :=
  C.rest (s := s) ⟨rfl, rfl, rfl, rfl, rfl, rfl, rfl, rfl, rfl⟩ h

theorem Closed.bufs_keeps (C : Closed P) {s : State} {x : List (Nat × Buf)} (h : P s) : P { s with bufs := x } :=
  C.rest (s := s) ⟨rfl, rfl, rfl, rfl, rfl, rfl, rfl, rfl, rfl⟩ h

theorem Closed.queues_keeps (C : Closed P) {s : State} {x : List (Nat × List Copy)} (h : P s) : P { s with queues := x } :=
  C.rest (s := s) ⟨rfl, rfl, rfl, rfl, rfl, rfl, rfl, rfl, rfl⟩ h

theorem Closed.eqs_keeps (C : Closed P) {s : State} {x : List (Nat × List Copy)} (h : P s) : P { s with eqs := x } :=
  C.rest (s := s) ⟨rfl, rfl, rfl, rfl, rfl, rfl, rfl, rfl, rfl⟩ h

theorem Closed.hostq_keeps (C : Closed P) {s : State} {x : List (Nat × List Copy)} (h : P s) : P { s with hostq := x } :=
  C.rest (s := s) ⟨rfl, rfl, rfl, rfl, rfl, rfl, rfl, rfl, rfl⟩ h

theorem Closed.hatches_keeps (C : Closed P) {s : State} {x : List (Nat × List Nat)} (h : P s) : P { s with hatches := x } :=
  C.rest (s := s) ⟨rfl, rfl, rfl, rfl, rfl, rfl, rfl, rfl, rfl⟩ h

theorem Closed.cache_keeps (C : Closed P) {s : State} {x : List ((Nat × Nat) × Nat)} (h : P s) : P { s with cache := x } :=
  C.rest (s := s) ⟨rfl, rfl, rfl, rfl, rfl, rfl, rfl, rfl, rfl⟩ h

theorem Closed.bins_keeps (C : Closed P) {s : State} {x : List Bin} (h : P s) : P { s with bins := x } :=
  C.rest (s := s) ⟨rfl, rfl, rfl, rfl, rfl, rfl, rfl, rfl, rfl⟩ h

theorem Closed.gq_keeps (C : Closed P) {s : State} {x : List (Nat × List Contrib)} (h : P s) : P { s with gq := x } :=
  C.rest (s := s) ⟨rfl, rfl, rfl, rfl, rfl, rfl, rfl, rfl, rfl⟩ h

theorem Closed.gin_keeps (C : Closed P) {s : State} {x : List (Nat × List Copy)} (h : P s) : P { s with gin := x } :=
  C.rest (s := s) ⟨rfl, rfl, rfl, rfl, rfl, rfl, rfl, rfl, rfl⟩ h

theorem Closed.gouts_keeps (C : Closed P) {s : State} {x : List GOut} (h : P s) : P { s with gouts := x } :=
  C.rest (s := s) ⟨rfl, rfl, rfl, rfl, rfl, rfl, rfl, rfl, rfl⟩ h

theorem Closed.emits_keeps (C : Closed P) {s : State} {x : List Emit} (h : P s) : P { s with emits := x } :=
  C.rest (s := s) ⟨rfl, rfl, rfl, rfl, rfl, rfl, rfl, rfl, rfl⟩ h

theorem Closed.rx_keeps (C : Closed P) {s : State} {x : List (Nat × Option Rx)} (h : P s) : P { s with rx := x } :=
  C.rest (s := s) ⟨rfl, rfl, rfl, rfl, rfl, rfl, rfl, rfl, rfl⟩ h

theorem Closed.tx_keeps (C : Closed P) {s : State} {x : List (Nat × Option Tx)} (h : P s) : P { s with tx := x } :=
  C.rest (s := s) ⟨rfl, rfl, rfl, rfl, rfl, rfl, rfl, rfl, rfl⟩ h

theorem Closed.ctl_keeps (C : Closed P) {s : State} {x : List (Nat × List Tx)} (h : P s) : P { s with ctl := x } :=
  C.rest (s := s) ⟨rfl, rfl, rfl, rfl, rfl, rfl, rfl, rfl, rfl⟩ h

theorem Closed.tracks_keeps (C : Closed P) {s : State} {x : List (Nat × Track)} (h : P s) : P { s with tracks := x } :=
  C.rest (s := s) ⟨rfl, rfl, rfl, rfl, rfl, rfl, rfl, rfl, rfl⟩ h

theorem Closed.obs_keeps (C : Closed P) {s : State} {x : List (Nat × ObsState)} (h : P s) : P { s with obs := x } :=
  C.rest (s := s) ⟨rfl, rfl, rfl, rfl, rfl, rfl, rfl, rfl, rfl⟩ h

theorem Closed.rtLog_keeps (C : Closed P) {s : State} {x : List (Nat × List Int)} (h : P s) : P { s with rtLog := x } :=
  C.rest (s := s) ⟨rfl, rfl, rfl, rfl, rfl, rfl, rfl, rfl, rfl⟩ h

theorem Closed.twl_keeps (C : Closed P) {s : State} {x : List (Nat × List Int)} (h : P s) : P { s with twl := x } :=
  C.rest (s := s) ⟨rfl, rfl, rfl, rfl, rfl, rfl, rfl, rfl, rfl⟩ h

theorem Closed.twTx_keeps (C : Closed P) {s : State} {x : List (Nat × List Byte)} (h : P s) : P { s with twTx := x } :=
  C.rest (s := s) ⟨rfl, rfl, rfl, rfl, rfl, rfl, rfl, rfl, rfl⟩ h

theorem Closed.wslots_keeps (C : Closed P) {s : State} {x : List (Nat × WSlot)} (h : P s) : P { s with wslots := x } :=
  C.rest (s := s) ⟨rfl, rfl, rfl, rfl, rfl, rfl, rfl, rfl, rfl⟩ h

theorem Closed.wlast_keeps (C : Closed P) {s : State} {x : List (Nat × Option WStamp)} (h : P s) : P { s with wlast := x } :=
  C.rest (s := s) ⟨rfl, rfl, rfl, rfl, rfl, rfl, rfl, rfl, rfl⟩ h

theorem Closed.wqueue_keeps (C : Closed P) {s : State} {x : List (List Byte)} (h : P s) : P { s with wqueue := x } :=
  C.rest (s := s) ⟨rfl, rfl, rfl, rfl, rfl, rfl, rfl, rfl, rfl⟩ h

theorem Closed.ctx_keeps (C : Closed P) {s : State} {x : List ((Fld × Nat) × Nat)} (h : P s) : P { s with ctx := x } :=
  C.rest (s := s) ⟨rfl, rfl, rfl, rfl, rfl, rfl, rfl, rfl, rfl⟩ h

theorem Closed.lkp_keeps (C : Closed P) {s : State} {x : List ((Nat × Nat) × LkEntry)} (h : P s) : P { s with lkp := x } :=
  C.rest (s := s) ⟨rfl, rfl, rfl, rfl, rfl, rfl, rfl, rfl, rfl⟩ h

theorem Closed.prev_keeps (C : Closed P) {s : State} {x : List ((Fld × Nat) × Nat)} (h : P s) : P { s with prev := x } :=
  C.rest (s := s) ⟨rfl, rfl, rfl, rfl, rfl, rfl, rfl, rfl, rfl⟩ h

theorem Closed.now_keeps (C : Closed P) {s : State} {x : Nat} (h : P s) : P { s with now := x } :=
  C.rest (s := s) ⟨rfl, rfl, rfl, rfl, rfl, rfl, rfl, rfl, rfl⟩ h

theorem Closed.coarse_keeps (C : Closed P) {s : State} {x : Nat} (h : P s) : P { s with coarse := x } :=
  C.rest (s := s) ⟨rfl, rfl, rfl, rfl, rfl, rfl, rfl, rfl, rfl⟩ h

theorem Closed.meas_measPrev_keeps (C : Closed P) {s : State} {x0 : List (Int × Nat)} {x1 : List (Int × Nat)} (h : P s) :
    P { s with meas := x0, measPrev := x1 } :=
  C.rest (s := s) ⟨rfl, rfl, rfl, rfl, rfl, rfl, rfl, rfl, rfl⟩ h

theorem Closed.now_coarse_hist_held_keeps (C : Closed P) {s : State} {x0 : Nat} {x1 : Nat} {x2 : List HistEntry} {x3 : List EvRec} (h : P s) :
    P { s with now := x0, coarse := x1, hist := x2, held := x3 } :=
  C.rest (s := s) ⟨rfl, rfl, rfl, rfl, rfl, rfl, rfl, rfl, rfl⟩ h

theorem Closed.queues_tx_keeps (C : Closed P) {s : State} {x0 : List (Nat × List Copy)} {x1 : List (Nat × Option Tx)} (h : P s) :
    P { s with queues := x0, tx := x1 } :=
  C.rest (s := s) ⟨rfl, rfl, rfl, rfl, rfl, rfl, rfl, rfl, rfl⟩ h

end Sys2Proof.Machine
end

