-- ==== Sys2Proof/Laws/KeepsOps.lean ====
section
/-! SUPPORT. The named operations, flags, arming and the tally: what each definition hands on keeps every property the primitive updates keep. -/

namespace Sys2Proof.Machine

variable {P : State → Prop}

theorem State.wrS_keeps (C : Closed P) {s : State} {f : Fld} {i : Nat} {v : Int} (h0 : P s) :
    P (State.wrS s f i v) := by
  unfold State.wrS
  with_reducible repeat' first
    | assumption | refine C.wr _ _ _ ?_

theorem State.count_keeps (C : Closed P) {s : State} {f : Fld} {i : Nat} {n : Nat} (h0 : P s) :
    P (State.count s f i n) := by
  unfold State.count
  with_reducible repeat' first
    | assumption | refine C.wr _ _ _ ?_

theorem State.bump_keeps (C : Closed P) {s : State} {f : Fld} {i : Nat} {n : Nat} (h0 : P s) :
    P (State.bump s f i n) := by
  unfold State.bump
  with_reducible repeat' first
    | assumption | refine C.wr _ _ _ ?_

theorem State.setBitF_keeps (C : Closed P) {s : State} {f : Fld} {i k : Nat} (h0 : P s) :
    P (State.setBitF s f i k) := by
  unfold State.setBitF
  with_reducible repeat' first
    | assumption | refine C.wr _ _ _ ?_

theorem State.clrBitF_keeps (C : Closed P) {s : State} {f : Fld} {i k : Nat} (h0 : P s) :
    P (State.clrBitF s f i k) := by
  unfold State.clrBitF
  with_reducible repeat' first
    | assumption | refine C.wr _ _ _ ?_

theorem State.wrAll_keeps (C : Closed P) {s : State} {fs : List Fld} {i v : Nat} (h0 : P s) :
    P (State.wrAll s fs i v) := by
  unfold State.wrAll
  with_reducible repeat' first
    | assumption | intro _ | refine C.wr _ _ _ ?_ | refine foldS ?_ ?_

theorem State.setHS_keeps (C : Closed P) {s : State} {x : Hid} {i : Nat} {v : Int} (h0 : P s) :
    P (State.setHS s x i v) := by
  unfold State.setHS
  with_reducible repeat' first
    | assumption | refine C.setH _ _ _ ?_

theorem State.setBytes_keeps (C : Closed P) {s : State} {r : Region} {a : Nat} {l : List Byte} (h0 : P s) :
    P (State.setBytes s r a l) := by
  induction l generalizing s a with
  | nil => exact h0
  | cons b t ih => exact ih (C.setByte _ _ _ h0)

theorem State.wrMem_keeps (C : Closed P) {s : State} {r : Region} {a n v : Nat} (h0 : P s) :
    P (State.wrMem s r a n v) := by
  unfold State.wrMem
  with_reducible repeat' first
    | assumption | refine State.setBytes_keeps C ?_

theorem State.wipe_keeps (C : Closed P) {s : State} {r : Region} {lo hi : Nat} (h0 : P s) :
    P (State.wipe s r lo hi) := by
  unfold State.wipe
  with_reducible repeat' first
    | assumption | (fail_if_no_progress refine C.memF _ ?_)

theorem State.setBuf_keeps (C : Closed P) {s : State} {h : Nat} {b : Buf} (h0 : P s) : P (State.setBuf s h b) := by
  unfold State.setBuf
  with_reducible repeat' first
    | assumption | (fail_if_no_progress refine C.bufs_keeps ?_)

theorem State.setQueue_keeps (C : Closed P) {s : State} {k : Nat} {l : List Copy} (h0 : P s) :
    P (State.setQueue s k l) := by
  unfold State.setQueue
  with_reducible repeat' first
    | assumption | (fail_if_no_progress refine C.queues_keeps ?_)

theorem State.setEq_keeps (C : Closed P) {s : State} {k : Nat} {l : List Copy} (h0 : P s) : P (State.setEq s k l) := by
  unfold State.setEq
  with_reducible repeat' first
    | assumption | (fail_if_no_progress refine C.eqs_keeps ?_)

theorem State.setHq_keeps (C : Closed P) {s : State} {k : Nat} {l : List Copy} (h0 : P s) : P (State.setHq s k l) := by
  unfold State.setHq
  with_reducible repeat' first
    | assumption | (fail_if_no_progress refine C.hostq_keeps ?_)

theorem State.setHatch_keeps (C : Closed P) {s : State} {k : Nat} {l : List Nat} (h0 : P s) :
    P (State.setHatch s k l) := by
  unfold State.setHatch
  with_reducible repeat' first
    | assumption | (fail_if_no_progress refine C.hatches_keeps ?_)

theorem State.setRx_keeps (C : Closed P) {s : State} {p : Nat} {r : Option Rx} (h0 : P s) : P (State.setRx s p r) := by
  unfold State.setRx
  with_reducible repeat' first
    | assumption | (fail_if_no_progress refine C.rx_keeps ?_)

theorem State.setTx_keeps (C : Closed P) {s : State} {p : Nat} {r : Option Tx} (h0 : P s) : P (State.setTx s p r) := by
  unfold State.setTx
  with_reducible repeat' first
    | assumption | (fail_if_no_progress refine C.tx_keeps ?_)

theorem State.setCtl_keeps (C : Closed P) {s : State} {p : Nat} {l : List Tx} (h0 : P s) : P (State.setCtl s p l) := by
  unfold State.setCtl
  with_reducible repeat' first
    | assumption | (fail_if_no_progress refine C.ctl_keeps ?_)

theorem State.setTrack_keeps (C : Closed P) {s : State} {k : Nat} {t : Track} (h0 : P s) :
    P (State.setTrack s k t) := by
  unfold State.setTrack
  with_reducible repeat' first
    | assumption | (fail_if_no_progress refine C.tracks_keeps ?_)

theorem State.setEntry_keeps (C : Closed P) {s : State} {t i : Nat} {e : LkEntry} (h0 : P s) :
    P (State.setEntry s t i e) := by
  unfold State.setEntry
  with_reducible repeat' first
    | assumption | (fail_if_no_progress refine C.lkp_keeps ?_)

theorem State.setLong_keeps (C : Closed P) {s : State} {n : Nat} {l : List Int} (h0 : P s) :
    P (State.setLong s n l) := by
  unfold State.setLong
  with_reducible repeat' first
    | assumption | (fail_if_no_progress refine C.y4096_keeps ?_)

theorem State.setCap_keeps (C : Closed P) {s : State} {k : Nat} {l : List CapRec} (h0 : P s) :
    P (State.setCap s k l) := by
  unfold State.setCap
  with_reducible repeat' first
    | assumption | (fail_if_no_progress refine C.caps_keeps ?_)

theorem State.setObs_keeps (C : Closed P) {s : State} {o : Nat} {x : ObsState} (h0 : P s) : P (State.setObs s o x) := by
  unfold State.setObs
  with_reducible repeat' first
    | assumption | (fail_if_no_progress refine C.obs_keeps ?_)

theorem State.setGq_keeps (C : Closed P) {s : State} {e : Nat} {l : List Contrib} (h0 : P s) :
    P (State.setGq s e l) := by
  unfold State.setGq
  with_reducible repeat' first
    | assumption | (fail_if_no_progress refine C.gq_keeps ?_)

theorem State.setGin_keeps (C : Closed P) {s : State} {h : Nat} {l : List Copy} (h0 : P s) :
    P (State.setGin s h l) := by
  unfold State.setGin
  with_reducible repeat' first
    | assumption | (fail_if_no_progress refine C.gin_keeps ?_)

theorem State.setRts_keeps (C : Closed P) {s : State} {p : Nat} {l : List Int} (h0 : P s) : P (State.setRts s p l) := by
  unfold State.setRts
  with_reducible repeat' first
    | assumption | (fail_if_no_progress refine C.rtLog_keeps ?_)

theorem State.setTwl_keeps (C : Closed P) {s : State} {k : Nat} {l : List Int} (h0 : P s) : P (State.setTwl s k l) := by
  unfold State.setTwl
  with_reducible repeat' first
    | assumption | (fail_if_no_progress refine C.twl_keeps ?_)

theorem State.setWslot_keeps (C : Closed P) {s : State} {k : Nat} {x : WSlot} (h0 : P s) :
    P (State.setWslot s k x) := by
  unfold State.setWslot
  with_reducible repeat' first
    | assumption | (fail_if_no_progress refine C.wslots_keeps ?_)

theorem State.setWlast_keeps (C : Closed P) {s : State} {k : Nat} {x : Option WStamp} (h0 : P s) :
    P (State.setWlast s k x) := by
  unfold State.setWlast
  with_reducible repeat' first
    | assumption | (fail_if_no_progress refine C.wlast_keeps ?_)

theorem State.ok_keeps (C : Closed P) {s : State} {v : Nat} (h0 : P s) : P (State.ok s v) := by
  unfold State.ok
  with_reducible repeat' first
    | assumption | (fail_if_no_progress refine C.resp_keeps ?_)

theorem State.busError_keeps (C : Closed P) {s : State} (h0 : P s) : P (State.busError s) := by
  unfold State.busError
  with_reducible repeat' first
    | assumption | (fail_if_no_progress refine C.resp_keeps ?_)

theorem State.setDom_keeps (C : Closed P) {s : State} {d : Dom} {v : Nat} (h0 : P s) : P (State.setDom s d v) := by
  unfold State.setDom
  with_reducible repeat' first
    | assumption | refine C.wr _ _ _ ?_

theorem State.inUnit_keeps (C : Closed P) {s : State} {g : Grp} {i : Nat} {k : State → State}
    (h0 : P s) (h1 : ∀ s, P s → P (k s)) :
    P (State.inUnit s g i k) := by
  unfold State.inUnit
  with_reducible repeat' first
    | assumption | refine h1 _ ?_ | refine iteS ?_ ?_

theorem State.inDom_keeps (C : Closed P) {s : State} {d : Dom} {k : State → State}
    (h0 : P s) (h1 : ∀ s, P s → P (k s)) :
    P (State.inDom s d k) := by
  unfold State.inDom
  with_reducible repeat' first
    | assumption | refine h1 _ ?_ | refine iteS ?_ ?_

theorem State.when_keeps (C : Closed P) {s : State} {c : Bool} {k : State → State}
    (h0 : P s) (h1 : ∀ s, P s → P (k s)) :
    P (State.when s c k) := by
  unfold State.when
  with_reducible repeat' first
    | assumption | refine h1 _ ?_ | refine iteS ?_ ?_

theorem State.access_keeps (C : Closed P) {s : State} {r : Req} {g : Grp} {i : Nat} {gated : Bool} (h0 : P s) :
    ∀ t, State.access s r g i gated = some t → P t := by
  intro t ht
  unfold State.access at ht
  repeat' split at ht
  all_goals first
    | (cases ht; first | exact State.ok_keeps C h0 | exact State.busError_keeps C h0)
    | cases ht

theorem State.writeTo_keeps (C : Closed P) {s : State} {r : Req} {g : Grp} {i : Nat} {k : State → State} {gated : Bool}
    (h0 : P s) (h1 : ∀ s, P s → P (k s)) : P (State.writeTo s r g i k gated) := by
  unfold State.writeTo
  split
  · exact State.access_keeps C h0 _ ‹_›
  · exact State.ok_keeps C (h1 _ h0)

-- 1 S
theorem State.lose_keeps (C : Closed P) {s : State} {ds : List Dom} {lost : List Surv} (h0 : P s) :
    P (State.lose s ds lost) := by
  unfold State.lose
  exact C.rest (s := { s with regs := (s.regs.filter _), applied := (s.applied.filter _), hid := (s.hid.filter _), treg := (s.treg.filter _) }) ⟨rfl, rfl, rfl, rfl, rfl, rfl, rfl, rfl, rfl⟩ (C.filt h0)

theorem State.pass_keeps (C : Closed P) {s : State} {n : Nat} (h0 : P s) : P (State.pass s n) := by
  unfold State.pass
  exact C.rest (s := { s with age := s.age + n }) ⟨rfl, rfl, rfl, rfl, rfl, rfl, rfl, rfl, rfl⟩ (C.age n h0)

theorem State.passTo_keeps (C : Closed P) {s : State} {t : Nat} (h0 : P s) : P (State.passTo s t) := by
  unfold State.passTo
  with_reducible repeat' first
    | assumption | refine State.pass_keeps C ?_ | refine iteS ?_ ?_

theorem State.passAge_keeps (C : Closed P) {s : State} {t : Nat} (h0 : P s) : P (State.passAge s t) := by
  unfold State.passAge
  with_reducible repeat' first
    | assumption | refine State.pass_keeps C ?_

theorem State.vecSend_keeps (C : Closed P) {s : State} {v : Nat} (h0 : P s) : P (State.vecSend s v) := by
  unfold State.vecSend
  with_reducible repeat' first
    | assumption
    | (fail_if_no_progress (extract_lets +onlyGivenNames x); refine cutS (P := P) (x := x) ?_ (fun hx => ?_);
       (on_goal 1 => (unfold x; try clear x)); (on_goal 2 => clear_value x))
    | refine C.setH _ _ _ ?_ | refine iteS ?_ ?_

theorem State.vecUpdate_keeps (C : Closed P) {old s : State} {v : Nat} (h0 : P old) (h1 : P s) :
    P (State.vecUpdate old s v) := by
  unfold State.vecUpdate
  with_reducible repeat' first
    | assumption | refine C.setH _ _ _ ?_ | refine State.vecSend_keeps C ?_ | refine iteS ?_ ?_

theorem State.vecUpdateAll_keeps (C : Closed P) {old s : State} (h0 : P old) (h1 : P s) :
    P (State.vecUpdateAll old s) := by
  unfold State.vecUpdateAll
  with_reducible repeat' first
    | assumption | intro _ | refine State.vecUpdate_keeps C ?_ ?_ | refine foldS ?_ ?_

theorem State.latchDev_keeps (C : Closed P) {s : State} {n : Nat} (h0 : P s) : P (State.latchDev s n) := by
  unfold State.latchDev
  with_reducible repeat' first
    | assumption | refine State.setBitF_keeps C ?_ | refine State.vecUpdate_keeps C ?_ ?_ | refine C.wr _ _ _ ?_
    | refine iteS ?_ ?_

theorem State.ringPut_keeps (C : Closed P) {s : State} {r : EvRec} (h0 : P s) : P (State.ringPut s r) := by
  unfold State.ringPut
  with_reducible repeat' first
    | assumption
    | (fail_if_no_progress (extract_lets +onlyGivenNames x); refine cutS (P := P) (x := x) ?_ (fun hx => ?_);
       (on_goal 1 => (unfold x; try clear x)); (on_goal 2 => clear_value x))
    | refine State.count_keeps C ?_ | refine State.latchDev_keeps C ?_ | refine State.setBytes_keeps C ?_
    | refine C.setH _ _ _ ?_ | refine C.wr _ _ _ ?_ | refine iteS ?_ ?_

theorem State.recPut_keeps (C : Closed P) {s : State} {r : EvRec} (h0 : P s) : P (State.recPut s r) := by
  unfold State.recPut
  with_reducible repeat' first
    | assumption
    | (fail_if_no_progress (extract_lets +onlyGivenNames x); refine cutS (P := P) (x := x) ?_ (fun hx => ?_);
       (on_goal 1 => (unfold x; try clear x)); (on_goal 2 => clear_value x))
    | refine State.count_keeps C ?_ | refine State.ringPut_keeps C ?_ | refine iteS ?_ ?_
    | (fail_if_no_progress refine C.rfifo_keeps ?_)

theorem State.raise_keeps (C : Closed P) {s : State} {e : Ev} {loc : Nat} {detail : Nat} {port : Nat} (h0 : P s) :
    P (State.raise s e loc detail port) := by
  unfold State.raise
  with_reducible repeat' first
    | assumption
    | (fail_if_no_progress (extract_lets +onlyGivenNames x); refine cutS (P := P) (x := x) ?_ (fun hx => ?_);
       (on_goal 1 => (unfold x; try clear x)); (on_goal 2 => clear_value x))
    | refine State.latchDev_keeps C ?_ | refine State.recPut_keeps C ?_ | refine State.setBitF_keeps C ?_
    | refine State.vecUpdate_keeps C ?_ ?_ | refine iteS ?_ ?_ | (fail_if_no_progress refine C.held_keeps ?_)
    | (fail_if_no_progress (extract_lets +onlyGivenNames x)) | split

theorem State.raiseP_keeps (C : Closed P) {s : State} {e : Ev} {p : Nat} {detail : Nat} (h0 : P s) :
    P (State.raiseP s e p detail) := by
  unfold State.raiseP
  with_reducible repeat' first
    | assumption | refine State.raise_keeps C ?_

theorem State.ledger_keeps (C : Closed P) {s : State} {code : Nat} {lasting : Bool} {loc detail : Nat}
    {src : LedSrc} (h0 : P s) :
    P (State.ledger s code lasting loc detail src) := by
  unfold State.ledger
  with_reducible repeat' first
    | assumption | refine State.bump_keeps C ?_ | refine C.setH _ _ _ ?_ | refine C.wr _ _ _ ?_ | refine iteS ?_ ?_
    | (fail_if_no_progress refine C.archive_keeps ?_)

theorem State.commitRefused_keeps (C : Closed P) {s : State} (h0 : P s) : P (State.commitRefused s) := by
  unfold State.commitRefused
  with_reducible repeat' first
    | assumption | refine State.raise_keeps C ?_

theorem State.arm_keeps (C : Closed P) {s : State} {kind part pend gen t : Nat} (h0 : P s) :
    P (State.arm s kind part pend gen t) := by
  unfold State.arm
  with_reducible repeat' first
    | assumption
    | (fail_if_no_progress (extract_lets +onlyGivenNames x); refine cutS (P := P) (x := x) ?_ (fun hx => ?_);
       (on_goal 1 => (unfold x; try clear x)); (on_goal 2 => clear_value x))
    | refine C.setH _ _ _ ?_ | refine C.wr _ _ _ ?_

theorem State.doCommit_keeps (C : Closed P) {s : State} {gen t : Nat} (h0 : P s) : P (State.doCommit s gen t) := by
  unfold State.doCommit
  with_reducible repeat' first
    | assumption | refine State.arm_keeps C ?_ | refine State.commitRefused_keeps C ?_ | refine iteS ?_ ?_

theorem State.doRollback_keeps (C : Closed P) {s : State} {gen t : Nat} (h0 : P s) : P (State.doRollback s gen t) := by
  unfold State.doRollback
  with_reducible repeat' first
    | assumption | refine State.arm_keeps C ?_ | refine State.commitRefused_keeps C ?_ | refine iteS ?_ ?_

theorem State.doCancel_keeps (C : Closed P) {s : State} (h0 : P s) : P (State.doCancel s) := by
  unfold State.doCancel
  with_reducible repeat' first
    | assumption
    | (fail_if_no_progress (extract_lets +onlyGivenNames x); refine cutS (P := P) (x := x) ?_ (fun hx => ?_);
       (on_goal 1 => (unfold x; try clear x)); (on_goal 2 => clear_value x))
    | refine State.commitRefused_keeps C ?_ | refine C.wr _ _ _ ?_ | refine iteS ?_ ?_

theorem State.shadowWrite_keeps (C : Closed P) {s : State} {unit : Nat} {k : State → State}
    (h0 : P s) (h1 : ∀ s, P s → P (k s)) :
    P (State.shadowWrite s unit k) := by
  unfold State.shadowWrite
  with_reducible repeat' first
    | assumption | refine State.setBitF_keeps C ?_ | refine C.wr _ _ _ ?_ | refine h1 _ ?_ | refine iteS ?_ ?_

theorem State.shadowSet_keeps (C : Closed P) {s : State} {f : Fld} {i v : Nat} {good : Bool} (h0 : P s) :
    P (State.shadowSet s f i v good) := by
  unfold State.shadowSet
  with_reducible repeat' first
    | assumption | intro _ | refine State.shadowWrite_keeps C ?_ ?_ | refine C.wr _ _ _ ?_ | refine iteS ?_ ?_

theorem State.targetWrite_keeps (C : Closed P) {s : State} {t : Nat} (h0 : P s) : P (State.targetWrite s t) := by
  unfold State.targetWrite
  with_reducible repeat' first
    | assumption
    | (fail_if_no_progress (extract_lets +onlyGivenNames x); refine cutS (P := P) (x := x) ?_ (fun hx => ?_);
       (on_goal 1 => (unfold x; try clear x)); (on_goal 2 => clear_value x))
    | refine C.wr _ _ _ ?_ | refine iteS ?_ ?_

theorem State.intRequest_keeps (C : Closed P) {s : State} {q : IntReq} (h0 : P s) : P (State.intRequest s q) := by
  unfold State.intRequest
  with_reducible repeat' first
    | assumption
    | (fail_if_no_progress (extract_lets +onlyGivenNames x); refine cutS (P := P) (x := x) ?_ (fun hx => ?_);
       (on_goal 1 => (unfold x; try clear x)); (on_goal 2 => clear_value x))
    | refine State.count_keeps C ?_ | refine C.setH _ _ _ ?_ | refine iteS ?_ ?_

theorem State.relinquish_keeps (C : Closed P) {s : State} (h0 : P s) : P (State.relinquish s) := by
  unfold State.relinquish
  with_reducible repeat' first
    | assumption | refine State.intRequest_keeps C ?_ | refine C.setH _ _ _ ?_ | refine iteS ?_ ?_

theorem State.holdPut_keeps (C : Closed P) {s : State} {r : Req} {a w : Nat} {d : Dom} (h0 : P s) :
    P (State.holdPut s r a w d) := by
  unfold State.holdPut
  with_reducible repeat' first
    | assumption | (fail_if_no_progress refine C.hold_keeps ?_)

theorem State.holdClear_keeps (C : Closed P) {s : State} {r : Req} {a : Nat} (h0 : P s) :
    P (State.holdClear s r a) := by
  unfold State.holdClear
  with_reducible repeat' first
    | assumption | (fail_if_no_progress refine C.hold_keeps ?_)

theorem State.holdClearAll_keeps (C : Closed P) {s : State} {r : Req} {a n : Nat} (h0 : P s) :
    P (State.holdClearAll s r a n) := by
  unfold State.holdClearAll
  with_reducible repeat' first
    | assumption | intro _ | refine State.holdClear_keeps C ?_ | refine foldS ?_ ?_

theorem State.setLatch_keeps (C : Closed P) {s : State} {r : Req} {v : Nat} {d : Dom} (h0 : P s) :
    P (State.setLatch s r v d) := by
  unfold State.setLatch
  with_reducible repeat' first
    | assumption | (fail_if_no_progress refine C.latch_keeps ?_)

theorem State.sharedCheck_keeps (C : Closed P) {s : State} {p : Nat} (h0 : P s) : P (State.sharedCheck s p) := by
  unfold State.sharedCheck
  with_reducible repeat' first
    | assumption | refine State.raise_keeps C ?_ | refine C.setH _ _ _ ?_ | refine iteS ?_ ?_

theorem State.take_keeps (C : Closed P) {s : State} {o p i : Nat} (h0 : P s) : P (State.take s o p i) := by
  unfold State.take
  with_reducible repeat' first
    | assumption | refine State.bump_keeps C ?_ | refine State.setBuf_keeps C ?_ | refine C.setH _ _ _ ?_
    | refine State.sharedCheck_keeps C ?_

theorem State.grant_keeps (C : Closed P) {s : State} {o p : Nat} (h0 : P s) : P (State.grant s o p).2 := by
  unfold State.grant
  with_reducible repeat' first
    | assumption | refine State.count_keeps C ?_ | refine State.take_keeps C ?_ | split

theorem State.grantFb_keeps (C : Closed P) {s : State} {o p : Nat} {fb : Bool} (h0 : P s) :
    P (State.grantFb s o p fb).2 := by
  unfold State.grantFb
  with_reducible repeat' first
    | assumption | refine State.grant_keeps C ?_ | (refine pr2 (State.grant_keeps C ?_) (by assumption)) | split

theorem State.uncharge_keeps (C : Closed P) {s : State} {hs : List Nat} (h0 : P s) : P (State.uncharge s hs) := by
  unfold State.uncharge
  with_reducible repeat' first
    | assumption | intro _ | refine C.wr _ _ _ ?_ | refine foldS ?_ ?_

theorem State.freeBuf_keeps (C : Closed P) {s : State} {h : Nat} (h0 : P s) : P (State.freeBuf s h) := by
  unfold State.freeBuf
  with_reducible repeat' first
    | assumption | intro _ | refine State.setBuf_keeps C ?_ | refine State.sharedCheck_keeps C ?_
    | refine State.uncharge_keeps C ?_ | refine foldS ?_ ?_

theorem State.freeze_keeps (C : Closed P) {s : State} {h requester : Nat} (h0 : P s) :
    P (State.freeze s h requester) := by
  unfold State.freeze
  with_reducible repeat' first
    | assumption | intro _ | refine State.raise_keeps C ?_ | refine State.setBuf_keeps C ?_
    | refine State.uncharge_keeps C ?_ | refine C.wr _ _ _ ?_ | refine foldS ?_ ?_ | refine iteS ?_ ?_

theorem State.refRefused_keeps (C : Closed P) {s : State} {h : Nat} (h0 : P s) :
    ∀ t, State.refRefused s h = some t → P t := by
  intro t ht
  unfold State.refRefused at ht
  repeat' split at ht
  all_goals first
    | contradiction
    | (obtain rfl := Option.some.inj ht
       repeat' first
         | with_reducible assumption
         | with_reducible refine State.count_keeps C ?_)

theorem State.ref_keeps (C : Closed P) {s : State} {h k requester : Nat} (h0 : P s) :
    P (State.ref s h k requester).2 := by
  unfold State.ref
  with_reducible repeat' first
    | assumption | refine State.count_keeps C ?_ | refine State.freeze_keeps C ?_
    | (refine State.refRefused_keeps C ?_ _ (by assumption)) | refine State.setBuf_keeps C ?_
    | (fail_if_no_progress (extract_lets +onlyGivenNames x)) | split

theorem State.deref_keeps (C : Closed P) {s : State} {h k requester : Nat} (h0 : P s) :
    P (State.deref s h k requester).2 := by
  unfold State.deref
  with_reducible repeat' first
    | assumption | refine State.freeBuf_keeps C ?_ | refine State.freeze_keeps C ?_
    | (refine State.refRefused_keeps C ?_ _ (by assumption)) | refine State.setBuf_keeps C ?_
    | (fail_if_no_progress (extract_lets +onlyGivenNames x)) | split

theorem State.drop1_keeps (C : Closed P) {s : State} {h : Nat} (h0 : P s) : P (State.drop1 s h) := by
  unfold State.drop1
  with_reducible repeat' first
    | assumption | refine State.deref_keeps C ?_

theorem State.poolAnswer_keeps (C : Closed P) {s : State} {w : PoolWho} {r : Option Nat} (h0 : P s) :
    P (State.poolAnswer s w r) := by
  unfold State.poolAnswer
  with_reducible repeat' first
    | assumption | refine C.setH _ _ _ ?_

theorem State.addCell_keeps (C : Closed P) {s : State} {p h : Nat} (h0 : P s) : P (State.addCell s p h) := by
  unfold State.addCell
  with_reducible repeat' first
    | assumption | refine State.setBuf_keeps C ?_ | refine State.setBytes_keeps C ?_ | refine State.setRx_keeps C ?_
    | refine iteS ?_ ?_ | split

theorem State.stompTx_keeps (C : Closed P) {s : State} {p : Nat} (h0 : P s) : P (State.stompTx s p) := by
  unfold State.stompTx
  with_reducible repeat' first
    | assumption
    | (fail_if_no_progress (extract_lets +onlyGivenNames x); refine cutS (P := P) (x := x) ?_ (fun hx => ?_);
       (on_goal 1 => (unfold x; try clear x)); (on_goal 2 => clear_value x))
    | refine State.count_keeps C ?_ | refine State.raiseP_keeps C ?_ | refine State.setTx_keeps C ?_
    | refine iteS ?_ ?_ | split

theorem State.stompCopies_keeps (C : Closed P) {s : State} {h : Nat} (h0 : P s) : P (State.stompCopies s h) := by
  unfold State.stompCopies
  with_reducible repeat' first
    | assumption | intro _ | refine State.stompTx_keeps C ?_ | refine foldS ?_ ?_ | refine iteS ?_ ?_ | split

theorem State.dropQueued_keeps (C : Closed P) {s : State} {h : Nat} (h0 : P s) : P (State.dropQueued s h) := by
  unfold State.dropQueued
  with_reducible repeat' first
    | assumption | intro _ | refine State.drop1_keeps C ?_ | refine State.setQueue_keeps C ?_ | refine foldS ?_ ?_
    | refine iteS ?_ ?_

theorem State.failRx_keeps (C : Closed P) {s : State} {p err : Nat} (h0 : P s) : P (State.failRx s p err) := by
  unfold State.failRx
  with_reducible repeat' first
    | assumption | intro _ | refine State.drop1_keeps C ?_ | refine State.dropQueued_keeps C ?_
    | refine State.freeBuf_keeps C ?_ | refine State.setRx_keeps C ?_ | refine State.stompCopies_keeps C ?_
    | refine foldS ?_ ?_ | refine iteS ?_ ?_ | split

theorem State.poolEffect_keeps (C : Closed P) {s : State} {w : PoolWho} {r : Option Nat} (h0 : P s) :
    P (State.poolEffect s w r) := by
  unfold State.poolEffect
  with_reducible repeat' first
    | assumption | refine State.addCell_keeps C ?_ | refine State.failRx_keeps C ?_ | refine State.freeBuf_keeps C ?_
    | refine State.poolAnswer_keeps C ?_ | refine iteS ?_ ?_ | split

theorem State.poolCycle_keeps (C : Closed P) {s : State} {fp fe p : Nat} {direct fb : List PoolReq} (h0 : P s) :
    P (State.poolCycle s fp fe p direct fb).2 := by
  unfold State.poolCycle
  with_reducible repeat' first
    | assumption | intro _ | (refine pr2 (State.grant_keeps C ?_) (by assumption))
    | refine State.poolEffect_keeps C ?_ | refine foldP ?_ ?_ | split

theorem execPoolRequest_keeps (C : Closed P) {fp : Fin 8} {fe : Fin 16} {rs : List PoolReq} {s : State} (h0 : P s) :
    OkP P (execPoolRequest fp fe rs s) := by
  unfold execPoolRequest
  with_reducible refine okS ?_
  with_reducible repeat' first
    | assumption | intro _ | refine State.inDom_keeps C ?_ ?_ | refine State.poolCycle_keeps C ?_

theorem execBufferRef_keeps (C : Closed P) {w : PoolWho} {h : BitVec 32} {k : Fin 256} {s : State} (h0 : P s) :
    OkP P (execBufferRef w h k s) := by
  unfold execBufferRef
  with_reducible refine okS ?_
  with_reducible repeat' first
    | assumption | intro _ | refine State.inDom_keeps C ?_ ?_ | refine State.ref_keeps C ?_

theorem execBufferDeref_keeps (C : Closed P) {w : PoolWho} {h : BitVec 32} {k : Fin 256} {s : State} (h0 : P s) :
    OkP P (execBufferDeref w h k s) := by
  unfold execBufferDeref
  with_reducible refine okS ?_
  with_reducible repeat' first
    | assumption | intro _ | refine State.deref_keeps C ?_ | refine State.inDom_keeps C ?_ ?_

theorem State.poolRefused_keeps (C : Closed P) {s : State} (h0 : P s) : P (State.poolRefused s) := by
  unfold State.poolRefused
  with_reducible repeat' first
    | assumption | refine C.wr _ _ _ ?_

theorem State.thaw_keeps (C : Closed P) {s : State} {h : Nat} (h0 : P s) : P (State.thaw s h) := by
  unfold State.thaw
  with_reducible repeat' first
    | assumption | intro _ | refine State.poolRefused_keeps C ?_ | refine State.setBuf_keeps C ?_
    | refine State.sharedCheck_keeps C ?_ | refine foldS ?_ ?_ | refine iteS ?_ ?_

theorem execPoolThaw_keeps (C : Closed P) {r : Req} {h : BitVec 32} {s : State} (h0 : P s) :
    OkP P (execPoolThaw r h s) := by
  unfold execPoolThaw
  with_reducible refine okS ?_
  with_reducible repeat' first
    | assumption | intro _ | refine State.thaw_keeps C ?_ | refine State.writeTo_keeps C ?_ ?_

theorem State.openWrite_keeps (C : Closed P) {s : State} {v : Bool} (h0 : P s) : P (State.openWrite s v) := by
  unfold State.openWrite
  with_reducible repeat' first
    | assumption | refine State.poolRefused_keeps C ?_ | refine C.wr _ _ _ ?_ | refine iteS ?_ ?_

theorem execPoolOpenWrite_keeps (C : Closed P) {r : Req} {v : Bool} {s : State} (h0 : P s) :
    OkP P (execPoolOpenWrite r v s) := by
  unfold execPoolOpenWrite
  with_reducible refine okS ?_
  with_reducible repeat' first
    | assumption | intro _ | refine State.openWrite_keeps C ?_ | refine State.writeTo_keeps C ?_ ?_

theorem State.spillEnWrite_keeps (C : Closed P) {s : State} {v : Bool} (h0 : P s) : P (State.spillEnWrite s v) := by
  unfold State.spillEnWrite
  with_reducible repeat' first
    | assumption | refine State.poolRefused_keeps C ?_ | refine C.wr _ _ _ ?_ | refine iteS ?_ ?_

theorem execSpillEnWrite_keeps (C : Closed P) {r : Req} {v : Bool} {s : State} (h0 : P s) :
    OkP P (execSpillEnWrite r v s) := by
  unfold execSpillEnWrite
  with_reducible refine okS ?_
  with_reducible repeat' first
    | assumption | intro _ | refine State.spillEnWrite_keeps C ?_ | refine State.writeTo_keeps C ?_ ?_

theorem State.gDrained_keeps (C : Closed P) {s : State} {g : Nat} (h0 : P s) : P (State.gDrained s g) := by
  unfold State.gDrained
  with_reducible repeat' first
    | assumption | refine C.wr _ _ _ ?_ | refine iteS ?_ ?_ | (fail_if_no_progress refine C.bins_keeps ?_)

theorem State.binLose_keeps (C : Closed P) {s : State} {b : Bin} (h0 : P s) : P (State.binLose s b) := by
  unfold State.binLose
  with_reducible repeat' first
    | assumption | intro _ | refine State.count_keeps C ?_ | refine State.drop1_keeps C ?_
    | refine State.gDrained_keeps C ?_ | refine State.raise_keeps C ?_ | refine State.setGq_keeps C ?_ | refine foldS ?_ ?_
    | (fail_if_no_progress refine C.bins_keeps ?_) | split

theorem State.binsLose_keeps (C : Closed P) {s : State} {p : Bin → Bool} (h0 : P s) : P (State.binsLose s p) := by
  unfold State.binsLose
  with_reducible repeat' first
    | assumption | intro _ | refine State.binLose_keeps C ?_ | refine foldS ?_ ?_

theorem State.stackFail_keeps (C : Closed P) {s : State} {k cause : Nat} (h0 : P s) :
    P (State.stackFail s k cause) := by
  unfold State.stackFail
  with_reducible repeat' first
    | assumption | intro _
    | (fail_if_no_progress (extract_lets +onlyGivenNames x); refine cutS (P := P) (x := x) ?_ (fun hx => ?_);
       (on_goal 1 => (unfold x; try clear x)); (on_goal 2 => clear_value x))
    | refine State.binsLose_keeps C ?_ | refine State.ledger_keeps C ?_ | refine State.raise_keeps C ?_
    | refine State.sharedCheck_keeps C ?_ | refine C.wr _ _ _ ?_ | refine foldS ?_ ?_ | refine iteS ?_ ?_

theorem execStackFail_keeps (C : Closed P) {k : Fin 4} {c : StackCause} {s : State} (h0 : P s) :
    OkP P (execStackFail k c s) := by
  unfold execStackFail
  with_reducible refine okS ?_
  with_reducible repeat' first
    | assumption | intro _ | refine State.inUnit_keeps C ?_ ?_ | refine State.stackFail_keeps C ?_

theorem State.stackMark_keeps (C : Closed P) {s : State} {k : Nat} (h0 : P s) : P (State.stackMark s k) := by
  unfold State.stackMark
  with_reducible repeat' first
    | assumption | refine State.stackFail_keeps C ?_ | refine C.wr _ _ _ ?_

theorem execStackMark_keeps (C : Closed P) {r : Req} {k : Fin 4} {s : State} (h0 : P s) :
    OkP P (execStackMark r k s) := by
  unfold execStackMark
  with_reducible refine okS ?_
  with_reducible repeat' first
    | assumption | intro _ | refine State.stackMark_keeps C ?_ | refine State.writeTo_keeps C ?_ ?_

theorem State.granWipeStart_keeps (C : Closed P) {s : State} (h0 : P s) : P (State.granWipeStart s) := by
  unfold State.granWipeStart
  with_reducible repeat' first
    | assumption | refine C.setH _ _ _ ?_ | refine C.wr _ _ _ ?_

theorem State.stackWipeStart_keeps (C : Closed P) {s : State} {k : Nat} (h0 : P s) : P (State.stackWipeStart s k) := by
  unfold State.stackWipeStart
  with_reducible repeat' first
    | assumption | refine C.wr _ _ _ ?_ | refine iteS ?_ ?_

theorem State.wipeBufs_keeps (C : Closed P) {s : State} {inMem : Nat → Bool} (h0 : P s) :
    P (State.wipeBufs s inMem) := by
  unfold State.wipeBufs
  with_reducible repeat' first
    | assumption | intro _ | refine State.uncharge_keeps C ?_ | refine foldS ?_ ?_ | refine iteS ?_ ?_
    | (fail_if_no_progress refine C.bufs_keeps ?_)

theorem State.wipeFlag_keeps (C : Closed P) {s : State} (h0 : P s) : P (State.wipeFlag s) := by
  unfold State.wipeFlag
  with_reducible repeat' first
    | assumption | refine C.wr _ _ _ ?_ | refine iteS ?_ ?_

theorem State.granWiped_keeps (C : Closed P) {s : State} (h0 : P s) : P (State.granWiped s) := by
  unfold State.granWiped
  with_reducible repeat' first
    | assumption
    | (fail_if_no_progress (extract_lets +onlyGivenNames x); refine cutS (P := P) (x := x) ?_ (fun hx => ?_);
       (on_goal 1 => (unfold x; try clear x)); (on_goal 2 => clear_value x))
    | refine C.setH _ _ _ ?_ | refine State.wipe_keeps C ?_ | refine State.wipeBufs_keeps C ?_
    | refine State.wipeFlag_keeps C ?_

theorem State.stackWiped_keeps (C : Closed P) {s : State} {k : Nat} (h0 : P s) : P (State.stackWiped s k) := by
  unfold State.stackWiped
  with_reducible repeat' first
    | assumption | refine State.wipe_keeps C ?_ | refine State.wipeBufs_keeps C ?_ | refine State.wipeFlag_keeps C ?_
    | refine C.wr _ _ _ ?_

theorem execWipeDone_keeps (C : Closed P) {m : Option (Fin 4)} {s : State} (h0 : P s) : OkP P (execWipeDone m s) := by
  unfold execWipeDone
  with_reducible refine okS ?_
  with_reducible repeat' first
    | assumption | intro _ | refine State.granWiped_keeps C ?_ | refine State.inDom_keeps C ?_ ?_
    | refine State.stackWiped_keeps C ?_ | refine State.when_keeps C ?_ ?_ | split

theorem State.holdEnd_keeps (C : Closed P) {s : State} {v : Nat} (h0 : P s) : P (State.holdEnd s v) := by
  unfold State.holdEnd
  with_reducible repeat' first
    | assumption | refine C.setH _ _ _ ?_ | refine State.vecSend_keeps C ?_ | refine iteS ?_ ?_

theorem execVectorHoldExpiry_keeps (C : Closed P) {v : Fin 64} {s : State} (h0 : P s) :
    OkP P (execVectorHoldExpiry v s) := by
  unfold execVectorHoldExpiry
  with_reducible refine okS ?_
  with_reducible repeat' first
    | assumption | intro _ | refine State.holdEnd_keeps C ?_ | refine State.inUnit_keeps C ?_ ?_

theorem State.rearm_keeps (C : Closed P) {s : State} {v : Nat} (h0 : P s) : P (State.rearm s v) := by
  unfold State.rearm
  with_reducible repeat' first
    | assumption | refine State.vecSend_keeps C ?_ | refine iteS ?_ ?_

theorem execRearmWrite_keeps (C : Closed P) {r : Req} {v : Fin 64} {s : State} (h0 : P s) :
    OkP P (execRearmWrite r v s) := by
  unfold execRearmWrite
  with_reducible refine okS ?_
  with_reducible repeat' first
    | assumption | intro _ | refine State.rearm_keeps C ?_ | refine State.writeTo_keeps C ?_ ?_

theorem State.rfifoRead_keeps (C : Closed P) {s : State} {r : Req} (h0 : P s) : P (State.rfifoRead s r) := by
  unfold State.rfifoRead
  with_reducible repeat' first
    | assumption | refine State.ok_keeps C ?_ | refine State.setLatch_keeps C ?_ | refine iteS ?_ ?_
    | (fail_if_no_progress refine C.rfifo_keeps ?_) | split

theorem execRfifoRead_keeps (C : Closed P) {r : Req} {s : State} (h0 : P s) : OkP P (execRfifoRead r s) := by
  unfold execRfifoRead
  with_reducible refine okS ?_
  with_reducible repeat' first
    | assumption | (refine State.access_keeps C ?_ _ (by assumption)) | refine State.rfifoRead_keeps C ?_ | split

theorem State.unmask_keeps (C : Closed P) {s : State} {v : Nat} (h0 : P s) : P (State.unmask s v) := by
  unfold State.unmask
  with_reducible repeat' first
    | assumption
    | (fail_if_no_progress (extract_lets +onlyGivenNames x); refine cutS (P := P) (x := x) ?_ (fun hx => ?_);
       (on_goal 1 => (unfold x; try clear x)); (on_goal 2 => clear_value x))
    | refine C.setH _ _ _ ?_ | refine iteS ?_ ?_

theorem execMsixVectorUnmask_keeps (C : Closed P) {v : Fin 64} {s : State} (h0 : P s) :
    OkP P (execMsixVectorUnmask v s) := by
  unfold execMsixVectorUnmask
  with_reducible refine okS ?_
  with_reducible repeat' first
    | assumption | intro _ | refine State.inUnit_keeps C ?_ ?_ | refine State.unmask_keeps C ?_

theorem State.talOvf_keeps (C : Closed P) {s : State} {i detail : Nat} (h0 : P s) : P (State.talOvf s i detail) := by
  unfold State.talOvf
  with_reducible repeat' first
    | assumption | refine State.raise_keeps C ?_ | refine State.setBitF_keeps C ?_

theorem State.talBring_keeps (C : Closed P) {s : State} {i : Nat} (h0 : P s) : P (State.talBring s i) := by
  unfold State.talBring
  with_reducible repeat' first
    | assumption | refine C.nextFree ?_ | refine C.setH _ _ _ ?_ | refine State.talOvf_keeps C ?_
    | refine C.wr _ _ _ ?_ | refine iteS ?_ ?_

theorem State.talGate_keeps (C : Closed P) {s : State} {on : Bool} (h0 : P s) : P (State.talGate s on) := by
  unfold State.talGate
  with_reducible repeat' first
    | assumption | intro _ | refine C.setH _ _ _ ?_ | refine State.talBring_keeps C ?_ | refine foldS ?_ ?_
    | refine iteS ?_ ?_

theorem State.talCfg_keeps (C : Closed P) {s : State} {i w : Nat} {wraps : Bool} (h0 : P s) :
    P (State.talCfg s i w wraps) := by
  unfold State.talCfg
  with_reducible repeat' first
    | assumption
    | (fail_if_no_progress (extract_lets +onlyGivenNames x); refine cutS (P := P) (x := x) ?_ (fun hx => ?_);
       (on_goal 1 => (unfold x; try clear x)); (on_goal 2 => clear_value x))
    | refine State.clrBitF_keeps C ?_ | refine C.setH _ _ _ ?_ | refine State.talBring_keeps C ?_
    | refine State.talOvf_keeps C ?_ | refine C.wr _ _ _ ?_ | refine iteS ?_ ?_

theorem execTallyCfgWrite_keeps (C : Closed P) {r : Req} {i : Fin 512} {cfg : BitVec 32} {wraps : Bool} {s : State}
    (h0 : P s) :
    OkP P (execTallyCfgWrite r i cfg wraps s) := by
  unfold execTallyCfgWrite
  with_reducible refine okS ?_
  with_reducible repeat' first
    | assumption | intro _ | refine State.talCfg_keeps C ?_ | refine State.writeTo_keeps C ?_ ?_

theorem execCounterWrap_keeps (C : Closed P) {i : Fin 512} {s : State} (h0 : P s) : OkP P (execCounterWrap i s) := by
  unfold execCounterWrap
  with_reducible refine okS ?_
  with_reducible repeat' first
    | assumption | intro _ | refine State.inUnit_keeps C ?_ ?_ | refine C.setH _ _ _ ?_
    | refine State.talOvf_keeps C ?_ | refine State.when_keeps C ?_ ?_ | refine C.wr _ _ _ ?_

theorem State.locPut_keeps (C : Closed P) {s : State} {loc a : Nat} {b : List Byte} (h0 : P s) :
    P (State.locPut s loc a b) := by
  unfold State.locPut
  with_reducible repeat' first
    | assumption | refine State.setBytes_keeps C ?_ | refine iteS ?_ ?_

theorem State.tallyDump_keeps (C : Closed P) {s : State} {late : Bool} (h0 : P s) : P (State.tallyDump s late) := by
  unfold State.tallyDump
  with_reducible repeat' first
    | assumption | intro _ | refine State.bump_keeps C ?_ | refine State.count_keeps C ?_
    | refine State.locPut_keeps C ?_ | refine State.raise_keeps C ?_ | refine C.setH _ _ _ ?_
    | refine State.talBring_keeps C ?_ | refine foldS ?_ ?_ | refine iteS ?_ ?_

theorem execTallyDump_keeps (C : Closed P) {late : Bool} {s : State} (h0 : P s) : OkP P (execTallyDump late s) := by
  unfold execTallyDump
  with_reducible refine okS ?_
  with_reducible repeat' first
    | assumption | intro _ | refine State.inUnit_keeps C ?_ ?_ | refine State.passTo_keeps C ?_
    | refine State.tallyDump_keeps C ?_ | refine State.when_keeps C ?_ ?_

theorem execSampleTag_keeps (C : Closed P) {e : Fin 16} {s : State} (h0 : P s) : OkP P (execSampleTag e s) := by
  unfold execSampleTag
  with_reducible refine okS ?_
  with_reducible repeat' first
    | assumption | intro _ | refine State.inUnit_keeps C ?_ ?_ | refine C.nextFree ?_ | refine C.setH _ _ _ ?_
    | refine State.when_keeps C ?_ ?_

theorem State.sampPut_keeps (C : Closed P) {s : State} {e : Nat} {x : Sample} (h0 : P s) : P (State.sampPut s e x) := by
  unfold State.sampPut
  with_reducible repeat' first
    | assumption
    | (fail_if_no_progress (extract_lets +onlyGivenNames x); refine cutS (P := P) (x := x) ?_ (fun hx => ?_);
       (on_goal 1 => (unfold x; try clear x)); (on_goal 2 => clear_value x))
    | refine State.bump_keeps C ?_ | refine State.count_keeps C ?_ | refine State.locPut_keeps C ?_
    | refine C.nextFree ?_ | refine State.raise_keeps C ?_ | refine C.setH _ _ _ ?_ | refine C.wr _ _ _ ?_
    | refine iteS ?_ ?_

theorem execSampleRecord_keeps (C : Closed P) {e : Fin 16} {x : Sample} {s : State} (h0 : P s) :
    OkP P (execSampleRecord e x s) := by
  unfold execSampleRecord
  with_reducible refine okS ?_
  with_reducible repeat' first
    | assumption | intro _ | refine State.inUnit_keeps C ?_ ?_ | refine State.sampPut_keeps C ?_
    | refine C.setH _ _ _ ?_ | refine State.when_keeps C ?_ ?_

end Sys2Proof.Machine
end

