-- ==== Sys2Proof/Laws/KeepsClock.lean ====
section
/-! SUPPORT. The bell clock, holdover, triggers and the selector: what each definition hands on keeps every property the primitive updates keep. -/

namespace Sys2Proof.Machine

variable {P : State → Prop}

theorem State.histSum_keeps (C : Closed P) {s : State} (h0 : P s) : P (State.histSum s) := by
  unfold State.histSum
  with_reducible repeat' first
    | assumption | refine C.setH _ _ _ ?_ | refine State.setHS_keeps C ?_ | refine iteS ?_ ?_

theorem State.putWord_keeps (C : Closed P) {s : State} {w : Int} (h0 : P s) : P (State.putWord s w) := by
  unfold State.putWord
  with_reducible repeat' first
    | assumption
    | (fail_if_no_progress (extract_lets +onlyGivenNames x); refine cutS (P := P) (x := x) ?_ (fun hx => ?_);
       (on_goal 1 => (unfold x; try clear x)); (on_goal 2 => clear_value x))
    | refine State.histSum_keeps C ?_ | refine State.raise_keeps C ?_ | refine C.wr _ _ _ ?_
    | refine State.wrS_keeps C ?_ | refine iteS ?_ ?_

theorem State.histPublish_keeps (C : Closed P) {s : State} (h0 : P s) : P (State.histPublish s) := by
  unfold State.histPublish
  with_reducible repeat' first
    | assumption | refine C.wr _ _ _ ?_

theorem State.histRestart_keeps (C : Closed P) {s : State} (h0 : P s) : P (State.histRestart s) := by
  unfold State.histRestart
  with_reducible repeat' first
    | assumption | refine C.setH _ _ _ ?_

theorem State.histEntry_keeps (C : Closed P) {s : State} (h0 : P s) : P (State.histEntry s) := by
  unfold State.histEntry
  with_reducible repeat' first
    | assumption
    | (fail_if_no_progress (extract_lets +onlyGivenNames x); refine cutS (P := P) (x := x) ?_ (fun hx => ?_);
       (on_goal 1 => (unfold x; try clear x)); (on_goal 2 => clear_value x))
    | refine State.histPublish_keeps C ?_ | refine State.histRestart_keeps C ?_ | refine State.histSum_keeps C ?_
    | refine State.passAge_keeps C ?_ | refine iteS ?_ ?_ | (fail_if_no_progress refine C.hist_keeps ?_)

theorem execHoldoverHistoryEntry_keeps (C : Closed P) {s : State} (h0 : P s) : OkP P (execHoldoverHistoryEntry s) := by
  unfold execHoldoverHistoryEntry
  with_reducible refine okS ?_
  with_reducible repeat' first
    | assumption | intro _ | refine State.histEntry_keeps C ?_ | refine State.inDom_keeps C ?_ ?_

theorem State.histTrim_keeps (C : Closed P) {s : State} {cut : Nat} (h0 : P s) : P (State.histTrim s cut) := by
  unfold State.histTrim
  with_reducible repeat' first
    | assumption
    | (fail_if_no_progress (extract_lets +onlyGivenNames x); refine cutS (P := P) (x := x) ?_ (fun hx => ?_);
       (on_goal 1 => (unfold x; try clear x)); (on_goal 2 => clear_value x))
    | refine State.histPublish_keeps C ?_ | refine State.histRestart_keeps C ?_ | refine iteS ?_ ?_
    | (fail_if_no_progress refine C.hist_keeps ?_)

theorem State.histGuard_keeps (C : Closed P) {s : State} {sec : Nat} (h0 : P s) : P (State.histGuard s sec) := by
  unfold State.histGuard
  with_reducible repeat' first
    | assumption | refine State.histTrim_keeps C ?_

theorem State.holdCopy_keeps (C : Closed P) {s : State} (h0 : P s) : P (State.holdCopy s) := by
  unfold State.holdCopy
  with_reducible repeat' first
    | assumption
    | (fail_if_no_progress (extract_lets +onlyGivenNames x); refine cutS (P := P) (x := x) ?_ (fun hx => ?_);
       (on_goal 1 => (unfold x; try clear x)); (on_goal 2 => clear_value x))
    | refine C.setH _ _ _ ?_ | refine State.setHS_keeps C ?_ | refine C.wr _ _ _ ?_ | refine State.wrS_keeps C ?_

theorem State.holdSelect_keeps (C : Closed P) {s : State} (h0 : P s) : P (State.holdSelect s) := by
  unfold State.holdSelect
  with_reducible repeat' first
    | assumption
    | (fail_if_no_progress (extract_lets +onlyGivenNames x); refine cutS (P := P) (x := x) ?_ (fun hx => ?_);
       (on_goal 1 => (unfold x; try clear x)); (on_goal 2 => clear_value x))
    | refine State.histSum_keeps C ?_ | refine State.holdCopy_keeps C ?_ | refine C.nextFree ?_
    | refine C.setH _ _ _ ?_ | refine State.setHS_keeps C ?_ | refine C.wr _ _ _ ?_ | refine State.wrAll_keeps C ?_
    | refine State.wrS_keeps C ?_ | refine iteS ?_ ?_

theorem State.holdFreeze_keeps (C : Closed P) {s : State} (h0 : P s) : P (State.holdFreeze s) := by
  unfold State.holdFreeze
  with_reducible repeat' first
    | assumption | refine C.setH _ _ _ ?_ | refine State.setHS_keeps C ?_

theorem State.carry_keeps (C : Closed P) {s : State} {total : Int} (h0 : P s) : P (State.carry s total) := by
  unfold State.carry
  with_reducible repeat' first
    | assumption
    | (fail_if_no_progress (extract_lets +onlyGivenNames x); refine cutS (P := P) (x := x) ?_ (fun hx => ?_);
       (on_goal 1 => (unfold x; try clear x)); (on_goal 2 => clear_value x))
    | refine State.histSum_keeps C ?_ | refine State.putWord_keeps C ?_ | refine C.wr _ _ _ ?_ | refine iteS ?_ ?_

theorem State.wordRefresh_keeps (C : Closed P) {s : State} (h0 : P s) : P (State.wordRefresh s) := by
  unfold State.wordRefresh
  with_reducible repeat' first
    | assumption | refine State.carry_keeps C ?_ | refine State.putWord_keeps C ?_ | refine iteS ?_ ?_

theorem State.setNco_keeps (C : Closed P) {s : State} {n : Nat} (h0 : P s) : P (State.setNco s n) := by
  unfold State.setNco
  with_reducible repeat' first
    | assumption | refine State.histSum_keeps C ?_ | refine State.holdSelect_keeps C ?_
    | refine State.wordRefresh_keeps C ?_ | refine C.wr _ _ _ ?_ | refine iteS ?_ ?_

theorem State.holdPublish_keeps (C : Closed P) {s : State} (h0 : P s) : P (State.holdPublish s) := by
  unfold State.holdPublish
  with_reducible repeat' first
    | assumption | refine C.wr _ _ _ ?_

theorem State.holdLeave_keeps (C : Closed P) {s : State} (h0 : P s) : P (State.holdLeave s) := by
  unfold State.holdLeave
  with_reducible repeat' first
    | assumption | refine State.wrAll_keeps C ?_

theorem State.dacStep_keeps (C : Closed P) {s : State} {up : Bool} (h0 : P s) : P (State.dacStep s up) := by
  unfold State.dacStep
  with_reducible repeat' first
    | assumption
    | (fail_if_no_progress (extract_lets +onlyGivenNames x); refine cutS (P := P) (x := x) ?_ (fun hx => ?_);
       (on_goal 1 => (unfold x; try clear x)); (on_goal 2 => clear_value x))
    | refine State.histSum_keeps C ?_ | refine State.putWord_keeps C ?_ | refine C.wr _ _ _ ?_
    | refine State.wrS_keeps C ?_ | refine iteS ?_ ?_

theorem State.dacTransfer_keeps (C : Closed P) {s : State} (h0 : P s) : P (State.dacTransfer s) := by
  unfold State.dacTransfer
  with_reducible repeat' first
    | assumption | refine State.dacStep_keeps C ?_ | refine C.setH _ _ _ ?_ | refine iteS ?_ ?_

theorem State.dacCount_keeps (C : Closed P) {s : State} (h0 : P s) : P (State.dacCount s) := by
  unfold State.dacCount
  with_reducible repeat' first
    | assumption | refine C.setH _ _ _ ?_ | refine State.setHS_keeps C ?_ | refine iteS ?_ ?_

theorem execDacTransfer_keeps (C : Closed P) {s : State} (h0 : P s) : OkP P (execDacTransfer s) := by
  unfold execDacTransfer
  with_reducible refine okS ?_
  with_reducible repeat' first
    | assumption | intro _ | refine State.dacTransfer_keeps C ?_ | refine State.inDom_keeps C ?_ ?_
    | refine State.when_keeps C ?_ ?_

theorem State.dacCodeWrite_keeps (C : Closed P) {s : State} {v : Nat} (h0 : P s) : P (State.dacCodeWrite s v) := by
  unfold State.dacCodeWrite
  with_reducible repeat' first
    | assumption | refine C.setH _ _ _ ?_ | refine State.wordRefresh_keeps C ?_ | refine C.wr _ _ _ ?_
    | refine iteS ?_ ?_

theorem execDacCodeWrite_keeps (C : Closed P) {r : Req} {v : BitVec 20} {s : State} (h0 : P s) :
    OkP P (execDacCodeWrite r v s) := by
  unfold execDacCodeWrite
  with_reducible refine okS ?_
  with_reducible repeat' first
    | assumption | intro _ | refine State.dacCodeWrite_keeps C ?_ | refine State.writeTo_keeps C ?_ ?_

theorem State.tapSet_keeps (C : Closed P) {s : State} {k v : Nat} (h0 : P s) : P (State.tapSet s k v) := by
  unfold State.tapSet
  with_reducible repeat' first
    | assumption | refine C.wr _ _ _ ?_ | refine State.wrS_keeps C ?_

theorem State.trigMissed_keeps (C : Closed P) {s : State} {k : Nat} (h0 : P s) : P (State.trigMissed s k) := by
  unfold State.trigMissed
  with_reducible repeat' first
    | assumption | refine State.raise_keeps C ?_ | refine C.wr _ _ _ ?_

theorem State.trigEnd_keeps (C : Closed P) {s : State} {k : Nat} (h0 : P s) : P (State.trigEnd s k) := by
  unfold State.trigEnd
  with_reducible repeat' first
    | assumption | refine C.setH _ _ _ ?_ | refine C.wr _ _ _ ?_

theorem State.sqMissed_keeps (C : Closed P) {s : State} {k : Nat} (h0 : P s) : P (State.sqMissed s k) := by
  unfold State.sqMissed
  with_reducible repeat' first
    | assumption | refine State.trigMissed_keeps C ?_ | refine iteS ?_ ?_

theorem State.trigSquelch_keeps (C : Closed P) {s : State} {k : Nat} (h0 : P s) : P (State.trigSquelch s k) := by
  unfold State.trigSquelch
  with_reducible repeat' first
    | assumption | refine C.setH _ _ _ ?_ | refine State.sqMissed_keeps C ?_ | refine State.trigEnd_keeps C ?_
    | refine State.trigMissed_keeps C ?_ | refine iteS ?_ ?_

theorem State.outSync_keeps (C : Closed P) {s : State} {k : Nat} (h0 : P s) : P (State.outSync s k) := by
  unfold State.outSync
  with_reducible repeat' first
    | assumption
    | (fail_if_no_progress (extract_lets +onlyGivenNames x); refine cutS (P := P) (x := x) ?_ (fun hx => ?_);
       (on_goal 1 => (unfold x; try clear x)); (on_goal 2 => clear_value x))
    | refine State.tapSet_keeps C ?_ | refine State.trigSquelch_keeps C ?_ | refine C.wr _ _ _ ?_ | refine iteS ?_ ?_

theorem State.outsSync_keeps (C : Closed P) {s : State} (h0 : P s) : P (State.outsSync s) := by
  unfold State.outsSync
  with_reducible repeat' first
    | assumption | intro _ | refine State.outSync_keeps C ?_ | refine foldS ?_ ?_

theorem State.trigCut_keeps (C : Closed P) {s : State} {k : Nat} (h0 : P s) : P (State.trigCut s k) := by
  unfold State.trigCut
  with_reducible repeat' first
    | assumption | refine State.trigEnd_keeps C ?_ | refine State.trigMissed_keeps C ?_ | refine iteS ?_ ?_

theorem State.outApplied_keeps (C : Closed P) {s : State} {k : Nat} (h0 : P s) : P (State.outApplied s k) := by
  unfold State.outApplied
  with_reducible repeat' first
    | assumption
    | (fail_if_no_progress (extract_lets +onlyGivenNames x); refine cutS (P := P) (x := x) ?_ (fun hx => ?_);
       (on_goal 1 => (unfold x; try clear x)); (on_goal 2 => clear_value x))
    | refine State.outSync_keeps C ?_ | refine State.trigEnd_keeps C ?_ | refine State.trigMissed_keeps C ?_
    | refine iteS ?_ ?_

theorem State.trigArm_keeps (C : Closed P) {s : State} {k : Nat} (h0 : P s) : P (State.trigArm s k) := by
  unfold State.trigArm
  with_reducible repeat' first
    | assumption
    | (fail_if_no_progress (extract_lets +onlyGivenNames x); refine cutS (P := P) (x := x) ?_ (fun hx => ?_);
       (on_goal 1 => (unfold x; try clear x)); (on_goal 2 => clear_value x))
    | refine C.setH _ _ _ ?_ | refine State.tapSet_keeps C ?_ | refine State.trigEnd_keeps C ?_
    | refine State.trigMissed_keeps C ?_ | refine C.wr _ _ _ ?_ | refine iteS ?_ ?_

theorem execTrigArm_keeps (C : Closed P) {r : Req} {k : Fin 8} {s : State} (h0 : P s) : OkP P (execTrigArm r k s) := by
  unfold execTrigArm
  with_reducible refine okS ?_
  with_reducible repeat' first
    | assumption | intro _ | refine State.trigArm_keeps C ?_ | refine State.writeTo_keeps C ?_ ?_

theorem State.trigDisarm_keeps (C : Closed P) {s : State} {k : Nat} (h0 : P s) : P (State.trigDisarm s k) := by
  unfold State.trigDisarm
  with_reducible repeat' first
    | assumption | refine C.setH _ _ _ ?_ | refine State.trigEnd_keeps C ?_ | refine C.wr _ _ _ ?_ | refine iteS ?_ ?_

theorem execTrigDisarm_keeps (C : Closed P) {r : Req} {k : Fin 8} {s : State} (h0 : P s) :
    OkP P (execTrigDisarm r k s) := by
  unfold execTrigDisarm
  with_reducible refine okS ?_
  with_reducible repeat' first
    | assumption | intro _ | refine State.trigDisarm_keeps C ?_ | refine State.writeTo_keeps C ?_ ?_

theorem State.trigFire_keeps (C : Closed P) {s : State} {k : Nat} (h0 : P s) : P (State.trigFire s k) := by
  unfold State.trigFire
  with_reducible repeat' first
    | assumption | refine State.passTo_keeps C ?_ | refine C.setH _ _ _ ?_ | refine State.trigEnd_keeps C ?_
    | refine State.trigMissed_keeps C ?_ | refine iteS ?_ ?_

theorem execTriggerFire_keeps (C : Closed P) {k : Fin 8} {s : State} (h0 : P s) : OkP P (execTriggerFire k s) := by
  unfold execTriggerFire
  with_reducible refine okS ?_
  with_reducible repeat' first
    | assumption | intro _ | refine State.inDom_keeps C ?_ ?_ | refine State.trigFire_keeps C ?_

theorem State.trigDone_keeps (C : Closed P) {s : State} {k : Nat} (h0 : P s) : P (State.trigDone s k) := by
  unfold State.trigDone
  with_reducible repeat' first
    | assumption | refine State.passTo_keeps C ?_ | refine State.sqMissed_keeps C ?_ | refine State.trigEnd_keeps C ?_
    | refine C.wr _ _ _ ?_ | refine iteS ?_ ?_

theorem execTriggerDone_keeps (C : Closed P) {k : Fin 8} {s : State} (h0 : P s) : OkP P (execTriggerDone k s) := by
  unfold execTriggerDone
  with_reducible refine okS ?_
  with_reducible repeat' first
    | assumption | intro _ | refine State.inDom_keeps C ?_ ?_ | refine State.trigDone_keeps C ?_

theorem State.clearWindows_keeps (C : Closed P) {s : State} {n : Nat} (h0 : P s) : P (State.clearWindows s n) := by
  unfold State.clearWindows
  with_reducible repeat' first
    | assumption
    | (fail_if_no_progress (extract_lets +onlyGivenNames x); refine cutS (P := P) (x := x) ?_ (fun hx => ?_);
       (on_goal 1 => (unfold x; try clear x)); (on_goal 2 => clear_value x))
    | refine C.setH _ _ _ ?_ | refine State.setLong_keeps C ?_ | refine State.wrAll_keeps C ?_

theorem State.qualify_keeps (C : Closed P) {s : State} {n : Nat} (h0 : P s) : P (State.qualify s n) := by
  unfold State.qualify
  with_reducible repeat' first
    | assumption | refine State.raise_keeps C ?_ | refine C.wr _ _ _ ?_

theorem State.trimFor_keeps (C : Closed P) {s : State} {n cause : Nat} (h0 : P s) : P (State.trimFor s n cause) := by
  unfold State.trimFor
  with_reducible repeat' first
    | assumption | refine State.histGuard_keeps C ?_ | refine iteS ?_ ?_

theorem State.disq_keeps (C : Closed P) {s : State} {n cause : Nat} (h0 : P s) : P (State.disq s n cause) := by
  unfold State.disq
  with_reducible repeat' first
    | assumption
    | (fail_if_no_progress (extract_lets +onlyGivenNames x); refine cutS (P := P) (x := x) ?_ (fun hx => ?_);
       (on_goal 1 => (unfold x; try clear x)); (on_goal 2 => clear_value x))
    | refine State.raise_keeps C ?_ | refine State.trimFor_keeps C ?_ | refine C.wr _ _ _ ?_

theorem State.wtrStart_keeps (C : Closed P) {s : State} {n : Nat} (h0 : P s) : P (State.wtrStart s n) := by
  unfold State.wtrStart
  with_reducible repeat' first
    | assumption | refine C.setH _ _ _ ?_ | refine C.wr _ _ _ ?_

theorem State.sigUpdate_keeps (C : Closed P) {s : State} {n : Nat} (h0 : P s) : P (State.sigUpdate s n) := by
  unfold State.sigUpdate
  with_reducible repeat' first
    | assumption
    | (fail_if_no_progress (extract_lets +onlyGivenNames x); refine cutS (P := P) (x := x) ?_ (fun hx => ?_);
       (on_goal 1 => (unfold x; try clear x)); (on_goal 2 => clear_value x))
    | refine State.clearWindows_keeps C ?_ | refine State.disq_keeps C ?_ | refine C.setH _ _ _ ?_
    | refine C.wr _ _ _ ?_ | refine iteS ?_ ?_

theorem State.sigUpdateAll_keeps (C : Closed P) {s : State} (h0 : P s) : P (State.sigUpdateAll s) := by
  unfold State.sigUpdateAll
  with_reducible repeat' first
    | assumption | intro _ | refine State.sigUpdate_keeps C ?_ | refine foldS ?_ ?_

theorem State.rankUpdate_keeps (C : Closed P) {s : State} {n : Nat} (h0 : P s) : P (State.rankUpdate s n) := by
  unfold State.rankUpdate
  with_reducible repeat' first
    | assumption | refine C.wr _ _ _ ?_

theorem State.unlock_keeps (C : Closed P) {s : State} (h0 : P s) : P (State.unlock s) := by
  unfold State.unlock
  with_reducible repeat' first
    | assumption
    | (fail_if_no_progress (extract_lets +onlyGivenNames x); refine cutS (P := P) (x := x) ?_ (fun hx => ?_);
       (on_goal 1 => (unfold x; try clear x)); (on_goal 2 => clear_value x))
    | refine State.histSum_keeps C ?_ | refine State.raise_keeps C ?_ | refine C.setH _ _ _ ?_

theorem State.lock_keeps (C : Closed P) {s : State} (h0 : P s) : P (State.lock s) := by
  unfold State.lock
  with_reducible repeat' first
    | assumption
    | (fail_if_no_progress (extract_lets +onlyGivenNames x); refine cutS (P := P) (x := x) ?_ (fun hx => ?_);
       (on_goal 1 => (unfold x; try clear x)); (on_goal 2 => clear_value x))
    | refine State.histRestart_keeps C ?_ | refine State.raise_keeps C ?_ | refine C.setH _ _ _ ?_

theorem State.selStatus_keeps (C : Closed P) {s : State} (h0 : P s) : P (State.selStatus s) := by
  unfold State.selStatus
  with_reducible repeat' first
    | assumption | refine State.outsSync_keeps C ?_ | refine C.wr _ _ _ ?_

theorem State.modeRecheck_keeps (C : Closed P) {s : State} (h0 : P s) : P (State.modeRecheck s) := by
  unfold State.modeRecheck
  with_reducible repeat' first
    | assumption | refine State.intRequest_keeps C ?_ | refine State.setNco_keeps C ?_ | refine iteS ?_ ?_

theorem State.selSwitch_keeps (C : Closed P) {s : State} {new : Option Nat} {forced : Bool} (h0 : P s) :
    P (State.selSwitch s new forced) := by
  unfold State.selSwitch
  with_reducible repeat' first
    | assumption | refine State.count_keeps C ?_ | refine State.histGuard_keeps C ?_
    | refine State.modeRecheck_keeps C ?_ | refine State.raise_keeps C ?_ | refine C.setH _ _ _ ?_
    | refine State.setHS_keeps C ?_ | refine State.unlock_keeps C ?_ | refine iteS ?_ ?_ | split

theorem State.reselect_keeps (C : Closed P) {s : State} (h0 : P s) : P (State.reselect s) := by
  unfold State.reselect
  with_reducible repeat' first
    | assumption | refine State.raise_keeps C ?_ | refine State.selStatus_keeps C ?_
    | refine State.selSwitch_keeps C ?_ | refine C.setH _ _ _ ?_ | refine C.wr _ _ _ ?_ | refine iteS ?_ ?_

theorem State.sigRefresh_keeps (C : Closed P) {s : State} (h0 : P s) : P (State.sigRefresh s) := by
  unfold State.sigRefresh
  with_reducible repeat' first
    | assumption | refine State.reselect_keeps C ?_ | refine State.sigUpdateAll_keeps C ?_ | refine iteS ?_ ?_

theorem execSignalPresenceChange_keeps (C : Closed P) {src : Fin 82} {present : Bool} {s : State} (h0 : P s) :
    OkP P (execSignalPresenceChange src present s) := by
  unfold execSignalPresenceChange
  with_reducible refine okS ?_
  with_reducible repeat' first
    | assumption | intro _ | refine State.inDom_keeps C ?_ ?_ | refine C.setH _ _ _ ?_
    | refine State.sigRefresh_keeps C ?_ | refine iteS ?_ ?_

theorem State.selStart_keeps (C : Closed P) {s : State} (h0 : P s) : P (State.selStart s) := by
  unfold State.selStart
  with_reducible repeat' first
    | assumption | intro _
    | (fail_if_no_progress (extract_lets +onlyGivenNames x); refine cutS (P := P) (x := x) ?_ (fun hx => ?_);
       (on_goal 1 => (unfold x; try clear x)); (on_goal 2 => clear_value x))
    | refine State.clearWindows_keeps C ?_ | refine C.setH _ _ _ ?_ | refine State.sigRefresh_keeps C ?_
    | refine C.wr _ _ _ ?_ | refine foldS ?_ ?_

theorem State.ovRun_keeps (C : Closed P) {s : State} {x : Hid} {out : List Nat} (h0 : P s) :
    P (State.ovRun s x out) := by
  unfold State.ovRun
  with_reducible repeat' first
    | assumption | intro _ | refine C.setH _ _ _ ?_ | refine foldS ?_ ?_

theorem State.measure_keeps (C : Closed P) {s : State} {m : SlotMeas} (h0 : P s) : P (State.measure s m) := by
  unfold State.measure
  with_reducible repeat' first
    | assumption | refine C.wr _ _ _ ?_ | refine iteS ?_ ?_

theorem State.judge_keeps (C : Closed P) {s : State} {n : Nat} (h0 : P s) : P (State.judge s n) := by
  unfold State.judge
  with_reducible repeat' first
    | assumption | refine State.disq_keeps C ?_ | refine State.qualify_keeps C ?_ | refine State.raise_keeps C ?_
    | refine C.wr _ _ _ ?_ | refine State.wtrStart_keeps C ?_ | refine iteS ?_ ?_

theorem State.monitorEval_keeps (C : Closed P) {s : State} {ms : List SlotMeas} (h0 : P s) :
    P (State.monitorEval s ms) := by
  unfold State.monitorEval
  with_reducible repeat' first
    | assumption | intro _
    | (fail_if_no_progress (extract_lets +onlyGivenNames x); refine cutS (P := P) (x := x) ?_ (fun hx => ?_);
       (on_goal 1 => (unfold x; try clear x)); (on_goal 2 => clear_value x))
    | refine State.judge_keeps C ?_ | refine State.measure_keeps C ?_ | refine State.ovRun_keeps C ?_
    | refine State.passAge_keeps C ?_ | refine State.raise_keeps C ?_ | refine State.rankUpdate_keeps C ?_
    | refine State.reselect_keeps C ?_ | refine C.setH _ _ _ ?_ | refine State.sigUpdateAll_keeps C ?_
    | refine C.wr _ _ _ ?_ | refine foldS ?_ ?_ | refine iteS ?_ ?_

theorem execMonitorEvaluation_keeps (C : Closed P) {ms : List SlotMeas} {s : State} (h0 : P s) :
    OkP P (execMonitorEvaluation ms s) := by
  unfold execMonitorEvaluation
  with_reducible refine okS ?_
  with_reducible repeat' first
    | assumption | refine State.monitorEval_keeps C ?_ | refine iteS ?_ ?_

theorem State.measureLong_keeps (C : Closed P) {s : State} {m : SlotLong} (h0 : P s) : P (State.measureLong s m) := by
  unfold State.measureLong
  with_reducible repeat' first
    | assumption
    | (fail_if_no_progress (extract_lets +onlyGivenNames x); refine cutS (P := P) (x := x) ?_ (fun hx => ?_);
       (on_goal 1 => (unfold x; try clear x)); (on_goal 2 => clear_value x))
    | refine State.setLong_keeps C ?_ | refine C.wr _ _ _ ?_ | refine State.wrS_keeps C ?_ | refine iteS ?_ ?_
    | (fail_if_no_progress (extract_lets +onlyGivenNames x)) | split

theorem State.judgeLong_keeps (C : Closed P) {s : State} {n : Nat} (h0 : P s) : P (State.judgeLong s n) := by
  unfold State.judgeLong
  with_reducible repeat' first
    | assumption | refine State.disq_keeps C ?_ | refine State.raise_keeps C ?_ | refine C.wr _ _ _ ?_
    | refine State.wtrStart_keeps C ?_ | refine iteS ?_ ?_

theorem State.longEval_keeps (C : Closed P) {s : State} {ms : List SlotLong} (h0 : P s) : P (State.longEval s ms) := by
  unfold State.longEval
  with_reducible repeat' first
    | assumption | intro _
    | (fail_if_no_progress (extract_lets +onlyGivenNames x); refine cutS (P := P) (x := x) ?_ (fun hx => ?_);
       (on_goal 1 => (unfold x; try clear x)); (on_goal 2 => clear_value x))
    | refine State.judgeLong_keeps C ?_ | refine State.measureLong_keeps C ?_ | refine State.ovRun_keeps C ?_
    | refine State.passAge_keeps C ?_ | refine State.reselect_keeps C ?_ | refine C.setH _ _ _ ?_
    | refine State.sigUpdateAll_keeps C ?_ | refine C.wr _ _ _ ?_ | refine foldS ?_ ?_ | refine iteS ?_ ?_

theorem execLongWindowEvaluation_keeps (C : Closed P) {ms : List SlotLong} {s : State} (h0 : P s) :
    OkP P (execLongWindowEvaluation ms s) := by
  unfold execLongWindowEvaluation
  with_reducible refine okS ?_
  with_reducible repeat' first
    | assumption | refine State.longEval_keeps C ?_ | refine iteS ?_ ?_

theorem execWtrExpiry_keeps (C : Closed P) {n : Fin 16} {s : State} (h0 : P s) : OkP P (execWtrExpiry n s) := by
  unfold execWtrExpiry
  with_reducible refine okS ?_
  with_reducible repeat' first
    | assumption | intro _ | refine State.inDom_keeps C ?_ ?_ | refine State.passAge_keeps C ?_
    | refine State.qualify_keeps C ?_ | refine State.reselect_keeps C ?_ | refine C.wr _ _ _ ?_ | refine iteS ?_ ?_

theorem State.slotOff_keeps (C : Closed P) {s : State} {n : Nat} (h0 : P s) : P (State.slotOff s n) := by
  unfold State.slotOff
  with_reducible repeat' first
    | assumption | refine State.clearWindows_keeps C ?_ | refine State.trimFor_keeps C ?_ | refine C.wr _ _ _ ?_

theorem State.slotLos_keeps (C : Closed P) {s : State} {n : Nat} (h0 : P s) : P (State.slotLos s n) := by
  unfold State.slotLos
  with_reducible repeat' first
    | assumption
    | (fail_if_no_progress (extract_lets +onlyGivenNames x); refine cutS (P := P) (x := x) ?_ (fun hx => ?_);
       (on_goal 1 => (unfold x; try clear x)); (on_goal 2 => clear_value x))
    | refine C.wr _ _ _ ?_ | refine iteS ?_ ?_

theorem State.slotWrite_keeps (C : Closed P) {s : State} {n : Nat} {en : Bool} {src : Nat} (h0 : P s) :
    P (State.slotWrite s n en src) := by
  unfold State.slotWrite
  with_reducible repeat' first
    | assumption
    | (fail_if_no_progress (extract_lets +onlyGivenNames x); refine cutS (P := P) (x := x) ?_ (fun hx => ?_);
       (on_goal 1 => (unfold x; try clear x)); (on_goal 2 => clear_value x))
    | refine State.sigRefresh_keeps C ?_ | refine State.slotLos_keeps C ?_ | refine State.slotOff_keeps C ?_
    | refine C.wr _ _ _ ?_ | refine iteS ?_ ?_

theorem execSlotEnableWrite_keeps (C : Closed P) {r : Req} {n : Fin 16} {v : Bool} {s : State} (h0 : P s) :
    OkP P (execSlotEnableWrite r n v s) := by
  unfold execSlotEnableWrite
  with_reducible refine okS ?_
  with_reducible repeat' first
    | assumption | intro _ | refine State.slotWrite_keeps C ?_ | refine State.writeTo_keeps C ?_ ?_

theorem execSlotSrcWrite_keeps (C : Closed P) {r : Req} {n : Fin 16} {src : BitVec 7} {s : State} (h0 : P s) :
    OkP P (execSlotSrcWrite r n src s) := by
  unfold execSlotSrcWrite
  with_reducible refine okS ?_
  with_reducible repeat' first
    | assumption | intro _ | refine State.slotWrite_keeps C ?_ | refine State.writeTo_keeps C ?_ ?_

theorem State.lockoutWrite_keeps (C : Closed P) {s : State} {n : Nat} {v : Bool} (h0 : P s) :
    P (State.lockoutWrite s n v) := by
  unfold State.lockoutWrite
  with_reducible repeat' first
    | assumption
    | (fail_if_no_progress (extract_lets +onlyGivenNames x); refine cutS (P := P) (x := x) ?_ (fun hx => ?_);
       (on_goal 1 => (unfold x; try clear x)); (on_goal 2 => clear_value x))
    | refine State.reselect_keeps C ?_ | refine State.trimFor_keeps C ?_ | refine C.wr _ _ _ ?_ | refine iteS ?_ ?_

theorem execSlotLockoutWrite_keeps (C : Closed P) {r : Req} {n : Fin 16} {v : Bool} {s : State} (h0 : P s) :
    OkP P (execSlotLockoutWrite r n v s) := by
  unfold execSlotLockoutWrite
  with_reducible refine okS ?_
  with_reducible repeat' first
    | assumption | intro _ | refine State.lockoutWrite_keeps C ?_ | refine State.writeTo_keeps C ?_ ?_

theorem State.forceWrite_keeps (C : Closed P) {s : State} {en : Bool} {slot : Nat} (h0 : P s) :
    P (State.forceWrite s en slot) := by
  unfold State.forceWrite
  with_reducible repeat' first
    | assumption | refine State.reselect_keeps C ?_ | refine C.setH _ _ _ ?_ | refine C.wr _ _ _ ?_
    | refine iteS ?_ ?_

theorem execForceWrite_keeps (C : Closed P) {r : Req} {en : Bool} {slot : Fin 16} {s : State} (h0 : P s) :
    OkP P (execForceWrite r en slot s) := by
  unfold execForceWrite
  with_reducible refine okS ?_
  with_reducible repeat' first
    | assumption | intro _ | refine State.forceWrite_keeps C ?_ | refine State.writeTo_keeps C ?_ ?_

theorem execEsmcReceive_keeps (C : Closed P) {p : Fin 72} {ssm : BitVec 4} {ext : Option (BitVec 8)} {s : State}
    (h0 : P s) :
    OkP P (execEsmcReceive p ssm ext s) := by
  unfold execEsmcReceive
  with_reducible refine okS ?_
  with_reducible repeat' first
    | assumption | intro _ | refine State.inUnit_keeps C ?_ ?_ | refine C.setH _ _ _ ?_

theorem execEsmcTimeout_keeps (C : Closed P) {p : Fin 72} {s : State} (h0 : P s) : OkP P (execEsmcTimeout p s) := by
  unfold execEsmcTimeout
  with_reducible refine okS ?_
  with_reducible repeat' first
    | assumption | intro _ | refine State.inUnit_keeps C ?_ ?_ | refine State.passAge_keeps C ?_
    | refine C.setH _ _ _ ?_

theorem execEsmcInfoSend_keeps (C : Closed P) {p : Fin 72} {s : State} (h0 : P s) : OkP P (execEsmcInfoSend p s) := by
  unfold execEsmcInfoSend
  with_reducible refine okS ?_
  with_reducible repeat' first
    | assumption | refine C.setH _ _ _ ?_ | refine iteS ?_ ?_

theorem execEsmcEventSend_keeps (C : Closed P) {p : Fin 72} {s : State} (h0 : P s) : OkP P (execEsmcEventSend p s) := by
  unfold execEsmcEventSend
  with_reducible refine okS ?_
  with_reducible repeat' first
    | assumption | refine C.setH _ _ _ ?_ | refine iteS ?_ ?_

theorem State.cyclePublish_keeps (C : Closed P) {s : State} (h0 : P s) : P (State.cyclePublish s) := by
  unfold State.cyclePublish
  with_reducible repeat' first
    | assumption | refine C.wr _ _ _ ?_

theorem State.cyclePlace_keeps (C : Closed P) {s : State} (h0 : P s) : P (State.cyclePlace s) := by
  unfold State.cyclePlace
  with_reducible repeat' first
    | assumption | refine State.cyclePublish_keeps C ?_ | refine C.setH _ _ _ ?_

theorem State.cycleClose_keeps (C : Closed P) {s : State} (h0 : P s) : P (State.cycleClose s) := by
  unfold State.cycleClose
  with_reducible repeat' first
    | assumption | intro _ | refine State.inDom_keeps C ?_ ?_ | refine State.setBytes_keeps C ?_
    | (fail_if_no_progress refine C.meas_measPrev_keeps ?_)

theorem State.ringSample_keeps (C : Closed P) {s : State} {ofs : Int} {at_ src : Nat} (h0 : P s) :
    P (State.ringSample s ofs at_ src) := by
  unfold State.ringSample
  with_reducible repeat' first
    | assumption | intro _ | refine State.inDom_keeps C ?_ ?_ | refine State.setBytes_keeps C ?_
    | (fail_if_no_progress refine C.meas_keeps ?_)

theorem State.jumpNew_keeps (C : Closed P) {s : State} {ofs : Int} (h0 : P s) : P (State.jumpNew s ofs) := by
  unfold State.jumpNew
  with_reducible repeat' first
    | assumption | refine State.bump_keeps C ?_ | refine State.wrS_keeps C ?_
    | (fail_if_no_progress refine C.refused_keeps ?_)

theorem State.jumpTimer_keeps (C : Closed P) {s : State} (h0 : P s) : P (State.jumpTimer s) := by
  unfold State.jumpTimer
  with_reducible repeat' first
    | assumption | refine C.setH _ _ _ ?_

theorem State.jumpRefuse_keeps (C : Closed P) {s : State} {ofs : Int} (h0 : P s) : P (State.jumpRefuse s ofs) := by
  unfold State.jumpRefuse
  with_reducible repeat' first
    | assumption
    | (fail_if_no_progress (extract_lets +onlyGivenNames x); refine cutS (P := P) (x := x) ?_ (fun hx => ?_);
       (on_goal 1 => (unfold x; try clear x)); (on_goal 2 => clear_value x))
    | refine State.jumpNew_keeps C ?_ | refine State.jumpTimer_keeps C ?_ | refine State.raise_keeps C ?_
    | refine C.setH _ _ _ ?_ | refine C.wr _ _ _ ?_ | refine State.wrS_keeps C ?_ | refine iteS ?_ ?_
    | (fail_if_no_progress refine C.refused_keeps ?_)

theorem State.jumpWithin_keeps (C : Closed P) {s : State} (h0 : P s) : P (State.jumpWithin s) := by
  unfold State.jumpWithin
  with_reducible repeat' first
    | assumption
    | (fail_if_no_progress (extract_lets +onlyGivenNames x); refine cutS (P := P) (x := x) ?_ (fun hx => ?_);
       (on_goal 1 => (unfold x; try clear x)); (on_goal 2 => clear_value x))
    | refine State.raise_keeps C ?_ | refine C.wr _ _ _ ?_ | refine iteS ?_ ?_
    | (fail_if_no_progress refine C.refused_keeps ?_)

theorem State.jumpPersist_keeps (C : Closed P) {s : State} (h0 : P s) : P (State.jumpPersist s) := by
  unfold State.jumpPersist
  with_reducible repeat' first
    | assumption
    | (fail_if_no_progress (extract_lets +onlyGivenNames x); refine cutS (P := P) (x := x) ?_ (fun hx => ?_);
       (on_goal 1 => (unfold x; try clear x)); (on_goal 2 => clear_value x))
    | refine State.histSum_keeps C ?_ | refine State.histTrim_keeps C ?_ | refine State.holdFreeze_keeps C ?_
    | refine State.intRequest_keeps C ?_ | refine State.passAge_keeps C ?_ | refine State.raise_keeps C ?_
    | refine C.wr _ _ _ ?_ | refine iteS ?_ ?_

theorem execJumpPersist_keeps (C : Closed P) {s : State} (h0 : P s) : OkP P (execJumpPersist s) := by
  unfold execJumpPersist
  with_reducible refine okS ?_
  with_reducible repeat' first
    | assumption | intro _ | refine State.inDom_keeps C ?_ ?_ | refine State.jumpPersist_keeps C ?_

theorem State.measPost_keeps (C : Closed P) {s : State} {ofs : Int} {at_ src : Nat} (h0 : P s) :
    P (State.measPost s ofs at_ src) := by
  unfold State.measPost
  with_reducible repeat' first
    | assumption | refine State.count_keeps C ?_ | refine State.jumpRefuse_keeps C ?_
    | refine State.jumpWithin_keeps C ?_ | refine State.ringSample_keeps C ?_ | split

theorem execMeasPost_keeps (C : Closed P) {r : Req} {ofs : BitVec 64} {at_ : BitVec 96} {src : BitVec 8}
    {s : State} (h0 : P s) :
    OkP P (execMeasPost r ofs at_ src s) := by
  unfold execMeasPost
  with_reducible refine okS ?_
  with_reducible repeat' first
    | assumption | intro _ | refine State.measPost_keeps C ?_ | refine State.writeTo_keeps C ?_ ?_

theorem execGateCautionEnd_keeps (C : Closed P) {s : State} (h0 : P s) : OkP P (execGateCautionEnd s) := by
  unfold execGateCautionEnd
  with_reducible refine okS ?_
  with_reducible repeat' first
    | assumption | intro _ | refine State.inDom_keeps C ?_ ?_ | refine State.passAge_keeps C ?_ | refine C.wr _ _ _ ?_
    | refine iteS ?_ ?_

theorem State.servoWord_keeps (C : Closed P) {s : State} {w : Int} (h0 : P s) : P (State.servoWord s w) := by
  unfold State.servoWord
  with_reducible repeat' first
    | assumption | refine State.putWord_keeps C ?_ | refine iteS ?_ ?_

theorem State.servoFallback_keeps (C : Closed P) {s : State} (h0 : P s) : P (State.servoFallback s) := by
  unfold State.servoFallback
  with_reducible repeat' first
    | assumption | refine State.raise_keeps C ?_ | refine C.setH _ _ _ ?_ | refine C.wr _ _ _ ?_

theorem State.fwUpd_keeps (C : Closed P) {s : State} {freq seq : Nat} (h0 : P s) : P (State.fwUpd s freq seq) := by
  unfold State.fwUpd
  with_reducible repeat' first
    | assumption | refine State.count_keeps C ?_ | refine C.setH _ _ _ ?_ | refine iteS ?_ ?_

theorem execBellFwUpd_keeps (C : Closed P) {r : Req} {freq : BitVec 48} {seq : BitVec 16} {s : State} (h0 : P s) :
    OkP P (execBellFwUpd r freq seq s) := by
  unfold execBellFwUpd
  with_reducible refine okS ?_
  with_reducible repeat' first
    | assumption | intro _ | refine State.fwUpd_keeps C ?_ | refine State.writeTo_keeps C ?_ ?_

theorem State.servoDeadline_keeps (C : Closed P) {s : State} (h0 : P s) : P (State.servoDeadline s) := by
  unfold State.servoDeadline
  with_reducible repeat' first
    | assumption | refine State.raise_keeps C ?_ | refine State.servoFallback_keeps C ?_
    | refine State.servoWord_keeps C ?_ | refine C.setH _ _ _ ?_ | refine C.wr _ _ _ ?_ | refine State.wrS_keeps C ?_
    | refine iteS ?_ ?_

theorem State.servoSrc_keeps (C : Closed P) {s : State} {v : Nat} {usable : Bool} (h0 : P s) :
    P (State.servoSrc s v usable) := by
  unfold State.servoSrc
  with_reducible repeat' first
    | assumption | refine C.setH _ _ _ ?_ | refine C.wr _ _ _ ?_ | refine iteS ?_ ?_

theorem State.lockEval_keeps (C : Closed P) {s : State} (h0 : P s) : P (State.lockEval s) := by
  unfold State.lockEval
  with_reducible repeat' first
    | assumption | refine State.lock_keeps C ?_ | refine C.setH _ _ _ ?_ | refine State.unlock_keeps C ?_
    | refine iteS ?_ ?_ | split

theorem State.phasePost_keeps (C : Closed P) {s : State} {phase : Nat} (h0 : P s) : P (State.phasePost s phase) := by
  unfold State.phasePost
  with_reducible repeat' first
    | assumption | refine State.measPost_keeps C ?_ | refine C.wr _ _ _ ?_ | refine iteS ?_ ?_

theorem State.loopUpdate_keeps (C : Closed P) {s : State} {phase : Int} (h0 : P s) : P (State.loopUpdate s phase) := by
  unfold State.loopUpdate
  with_reducible repeat' first
    | assumption
    | (fail_if_no_progress (extract_lets +onlyGivenNames x); refine cutS (P := P) (x := x) ?_ (fun hx => ?_);
       (on_goal 1 => (unfold x; try clear x)); (on_goal 2 => clear_value x))
    | refine State.jumpRefuse_keeps C ?_ | refine State.jumpWithin_keeps C ?_ | refine C.nextFree ?_
    | refine State.servoWord_keeps C ?_ | refine C.wr _ _ _ ?_ | refine iteS ?_ ?_
    | (fail_if_no_progress refine C.meas_keeps ?_) | (fail_if_no_progress (extract_lets +onlyGivenNames x)) | split

theorem execReferenceLoopUpdate_keeps (C : Closed P) {phase : BitVec 64} {s : State} (h0 : P s) :
    OkP P (execReferenceLoopUpdate phase s) := by
  unfold execReferenceLoopUpdate
  with_reducible refine okS ?_
  with_reducible repeat' first
    | assumption | intro _ | refine State.inDom_keeps C ?_ ?_ | refine State.loopUpdate_keeps C ?_

theorem State.leapApply_keeps (C : Closed P) {s : State} (h0 : P s) : P (State.leapApply s) := by
  unfold State.leapApply
  with_reducible repeat' first
    | assumption | refine State.raise_keeps C ?_ | refine C.setH _ _ _ ?_ | refine State.wrAll_keeps C ?_
    | refine State.wrS_keeps C ?_

theorem State.leapWatch_keeps (C : Closed P) {s : State} (h0 : P s) : P (State.leapWatch s) := by
  unfold State.leapWatch
  with_reducible repeat' first
    | assumption | refine C.setH _ _ _ ?_ | refine iteS ?_ ?_

theorem execLeapApplied_keeps (C : Closed P) {s : State} (h0 : P s) : OkP P (execLeapApplied s) := by
  unfold execLeapApplied
  with_reducible refine okS ?_
  with_reducible repeat' first
    | assumption | intro _ | refine State.inDom_keeps C ?_ ?_ | refine State.leapApply_keeps C ?_
    | refine State.passTo_keeps C ?_ | refine iteS ?_ ?_

theorem State.stepArm_keeps (C : Closed P) {s : State} {t : Nat} {d : Int} {auth : Bool} (h0 : P s) :
    P (State.stepArm s t d auth) := by
  unfold State.stepArm
  with_reducible repeat' first
    | assumption | refine State.arm_keeps C ?_ | refine C.setH _ _ _ ?_ | refine State.setHS_keeps C ?_

theorem State.stepReq_keeps (C : Closed P) {s : State} {kind : Bool} (h0 : P s) : P (State.stepReq s kind) := by
  unfold State.stepReq
  with_reducible repeat' first
    | assumption
    | (fail_if_no_progress (extract_lets +onlyGivenNames x); refine cutS (P := P) (x := x) ?_ (fun hx => ?_);
       (on_goal 1 => (unfold x; try clear x)); (on_goal 2 => clear_value x))
    | refine State.raise_keeps C ?_ | refine State.stepArm_keeps C ?_ | refine C.wr _ _ _ ?_ | refine iteS ?_ ?_

theorem execStepReq_keeps (C : Closed P) {r : Req} {kind : Bool} {s : State} (h0 : P s) :
    OkP P (execStepReq r kind s) := by
  unfold execStepReq
  with_reducible refine okS ?_
  with_reducible repeat' first
    | assumption | intro _ | refine State.stepReq_keeps C ?_ | refine State.writeTo_keeps C ?_ ?_

theorem State.stepAuthWrite_keeps (C : Closed P) {s : State} {gen : Nat} (h0 : P s) :
    P (State.stepAuthWrite s gen) := by
  unfold State.stepAuthWrite
  with_reducible repeat' first
    | assumption | refine State.raise_keeps C ?_ | refine State.stepArm_keeps C ?_ | refine C.wr _ _ _ ?_
    | refine iteS ?_ ?_

theorem execStepAuth_keeps (C : Closed P) {r : Req} {gen : BitVec 16} {s : State} (h0 : P s) :
    OkP P (execStepAuth r gen s) := by
  unfold execStepAuth
  with_reducible refine okS ?_
  with_reducible repeat' first
    | assumption | intro _ | refine State.stepAuthWrite_keeps C ?_ | refine State.writeTo_keeps C ?_ ?_

theorem State.stepApply_keeps (C : Closed P) {s : State} (h0 : P s) : P (State.stepApply s) := by
  unfold State.stepApply
  with_reducible repeat' first
    | assumption
    | (fail_if_no_progress (extract_lets +onlyGivenNames x); refine cutS (P := P) (x := x) ?_ (fun hx => ?_);
       (on_goal 1 => (unfold x; try clear x)); (on_goal 2 => clear_value x))
    | refine State.cycleClose_keeps C ?_ | refine State.cyclePlace_keeps C ?_ | refine State.leapApply_keeps C ?_
    | refine State.leapWatch_keeps C ?_ | refine C.setH _ _ _ ?_ | refine C.wr _ _ _ ?_ | refine iteS ?_ ?_
    | (fail_if_no_progress refine C.now_keeps ?_)

theorem State.stepDone_keeps (C : Closed P) {s : State} (h0 : P s) : P (State.stepDone s) := by
  unfold State.stepDone
  with_reducible repeat' first
    | assumption
    | (fail_if_no_progress (extract_lets +onlyGivenNames x); refine cutS (P := P) (x := x) ?_ (fun hx => ?_);
       (on_goal 1 => (unfold x; try clear x)); (on_goal 2 => clear_value x))
    | refine State.pass_keeps C ?_ | refine State.raise_keeps C ?_ | refine C.setH _ _ _ ?_ | refine C.wr _ _ _ ?_
    | refine State.wrAll_keeps C ?_ | refine iteS ?_ ?_ | (fail_if_no_progress refine C.refused_keeps ?_)

theorem execStepDone_keeps (C : Closed P) {s : State} (h0 : P s) : OkP P (execStepDone s) := by
  unfold execStepDone
  with_reducible refine okS ?_
  with_reducible repeat' first
    | assumption | intro _ | refine State.inDom_keeps C ?_ ?_ | refine State.stepDone_keeps C ?_

theorem State.unstep_keeps (C : Closed P) {s : State} (h0 : P s) : P (State.unstep s) := by
  unfold State.unstep
  with_reducible repeat' first
    | assumption
    | (fail_if_no_progress (extract_lets +onlyGivenNames x); refine cutS (P := P) (x := x) ?_ (fun hx => ?_);
       (on_goal 1 => (unfold x; try clear x)); (on_goal 2 => clear_value x))
    | refine C.setH _ _ _ ?_ | refine State.wrAll_keeps C ?_ | (fail_if_no_progress refine C.refused_keeps ?_)

theorem State.loadTime_keeps (C : Closed P) {s : State} (h0 : P s) : P (State.loadTime s) := by
  unfold State.loadTime
  with_reducible repeat' first
    | assumption
    | (fail_if_no_progress (extract_lets +onlyGivenNames x); refine cutS (P := P) (x := x) ?_ (fun hx => ?_);
       (on_goal 1 => (unfold x; try clear x)); (on_goal 2 => clear_value x))
    | refine State.cyclePlace_keeps C ?_ | refine State.leapWatch_keeps C ?_ | refine C.setH _ _ _ ?_
    | refine State.unstep_keeps C ?_ | (fail_if_no_progress refine C.meas_measPrev_keeps ?_)
    | (fail_if_no_progress refine C.now_keeps ?_)

theorem State.opllUnlock_keeps (C : Closed P) {s : State} (h0 : P s) : P (State.opllUnlock s) := by
  unfold State.opllUnlock
  with_reducible repeat' first
    | assumption | intro _
    | (fail_if_no_progress (extract_lets +onlyGivenNames x); refine cutS (P := P) (x := x) ?_ (fun hx => ?_);
       (on_goal 1 => (unfold x; try clear x)); (on_goal 2 => clear_value x))
    | refine State.count_keeps C ?_ | refine State.outsSync_keeps C ?_ | refine State.raise_keeps C ?_
    | refine State.relinquish_keeps C ?_ | refine State.trigCut_keeps C ?_ | refine C.wr _ _ _ ?_ | refine foldS ?_ ?_
    | refine iteS ?_ ?_

theorem execOpllUnlock_keeps (C : Closed P) {s : State} (h0 : P s) : OkP P (execOpllUnlock s) := by
  unfold execOpllUnlock
  with_reducible refine okS ?_
  with_reducible repeat' first
    | assumption | intro _ | refine State.inDom_keeps C ?_ ?_ | refine State.opllUnlock_keeps C ?_

theorem State.opllRelock_keeps (C : Closed P) {s : State} (h0 : P s) : P (State.opllRelock s) := by
  unfold State.opllRelock
  with_reducible repeat' first
    | assumption
    | (fail_if_no_progress (extract_lets +onlyGivenNames x); refine cutS (P := P) (x := x) ?_ (fun hx => ?_);
       (on_goal 1 => (unfold x; try clear x)); (on_goal 2 => clear_value x))
    | refine State.intRequest_keeps C ?_ | refine State.loadTime_keeps C ?_ | refine State.selStatus_keeps C ?_
    | refine State.setNco_keeps C ?_ | refine C.wr _ _ _ ?_ | refine iteS ?_ ?_

theorem execOpllRelock_keeps (C : Closed P) {s : State} (h0 : P s) : OkP P (execOpllRelock s) := by
  unfold execOpllRelock
  with_reducible refine okS ?_
  with_reducible repeat' first
    | assumption | intro _ | refine State.inDom_keeps C ?_ ?_ | refine State.opllRelock_keeps C ?_

theorem State.repMarker_keeps (C : Closed P) {s : State} {n : Nat} {agrees stepFlag : Bool} (h0 : P s) :
    P (State.repMarker s n agrees stepFlag) := by
  unfold State.repMarker
  with_reducible repeat' first
    | assumption
    | (fail_if_no_progress (extract_lets +onlyGivenNames x); refine cutS (P := P) (x := x) ?_ (fun hx => ?_);
       (on_goal 1 => (unfold x; try clear x)); (on_goal 2 => clear_value x))
    | refine State.raise_keeps C ?_ | refine C.setH _ _ _ ?_ | refine C.wr _ _ _ ?_ | refine iteS ?_ ?_

theorem execReplicaMarker_keeps (C : Closed P) {n : Fin 90} {agrees stepFlag : Bool} {s : State} (h0 : P s) :
    OkP P (execReplicaMarker n agrees stepFlag s) := by
  unfold execReplicaMarker
  with_reducible refine okS ?_
  with_reducible repeat' first
    | assumption | refine State.repMarker_keeps C ?_ | refine iteS ?_ ?_

theorem execReplicaEcho_keeps (C : Closed P) {n : Fin 90} {dly : BitVec 24} {s : State} (h0 : P s) :
    OkP P (execReplicaEcho n dly s) := by
  unfold execReplicaEcho
  with_reducible refine okS ?_
  with_reducible repeat' first
    | assumption | refine C.wr _ _ _ ?_ | refine iteS ?_ ?_

theorem State.coarseSet_keeps (C : Closed P) {s : State} (h0 : P s) : P (State.coarseSet s) := by
  unfold State.coarseSet
  with_reducible repeat' first
    | assumption
    | (fail_if_no_progress (extract_lets +onlyGivenNames x); refine cutS (P := P) (x := x) ?_ (fun hx => ?_);
       (on_goal 1 => (unfold x; try clear x)); (on_goal 2 => clear_value x))
    | refine State.passTo_keeps C ?_ | refine C.wr _ _ _ ?_ | (fail_if_no_progress refine C.coarse_keeps ?_)

theorem execCoarseCopySet_keeps (C : Closed P) {s : State} (h0 : P s) : OkP P (execCoarseCopySet s) := by
  unfold execCoarseCopySet
  with_reducible refine okS ?_
  with_reducible repeat' first
    | assumption | intro _ | refine State.coarseSet_keeps C ?_ | refine State.inDom_keeps C ?_ ?_

theorem State.expire_keeps (C : Closed P) {s : State} (h0 : P s) : P (State.expire s) := by
  unfold State.expire
  with_reducible repeat' first
    | assumption | refine State.holdPublish_keeps C ?_ | refine State.raise_keeps C ?_
    | refine State.selStatus_keeps C ?_ | refine C.wr _ _ _ ?_ | refine iteS ?_ ?_

theorem execHoldoverExpired_keeps (C : Closed P) {s : State} (h0 : P s) : OkP P (execHoldoverExpired s) := by
  unfold execHoldoverExpired
  with_reducible refine okS ?_
  with_reducible repeat' first
    | assumption | intro _ | refine State.expire_keeps C ?_ | refine State.inDom_keeps C ?_ ?_
    | refine State.passAge_keeps C ?_ | refine iteS ?_ ?_

end Sys2Proof.Machine
end

