-- ==== Sys2Proof/Laws/KeepsCore.lean ====
section
/-! SUPPORT. Frames, threads, scalar instructions, lookup and cells: what each definition hands on keeps every property the primitive updates keep. -/

namespace Sys2Proof.Machine

variable {P : State → Prop}

theorem State.setFrameBytes_keeps (C : Closed P) {s : State} {h o : Nat} {l : List Byte} (h0 : P s) :
    P (State.setFrameBytes s h o l) := by
  induction l generalizing s o with
  | nil => exact h0
  | cons b t ih => exact ih (C.setByte _ _ _ h0)

theorem State.spillDenied_keeps (C : Closed P) {s : State} {k : Nat} {d : Copy} (h0 : P s) :
    P (State.spillDenied s k d) := by
  unfold State.spillDenied
  with_reducible repeat' first
    | assumption
    | (fail_if_no_progress (extract_lets +onlyGivenNames x); refine cutS (P := P) (x := x) ?_ (fun hx => ?_);
       (on_goal 1 => (unfold x; try clear x)); (on_goal 2 => clear_value x))
    | refine State.count_keeps C ?_ | refine State.drop1_keeps C ?_ | refine State.setQueue_keeps C ?_
    | refine iteS ?_ ?_

theorem State.spill_keeps (C : Closed P) {s : State} {k : Nat} (h0 : P s) : P (State.spill s k) := by
  unfold State.spill
  with_reducible repeat' first
    | assumption
    | (fail_if_no_progress (extract_lets +onlyGivenNames x); refine cutS (P := P) (x := x) ?_ (fun hx => ?_);
       (on_goal 1 => (unfold x; try clear x)); (on_goal 2 => clear_value x))
    | refine State.drop1_keeps C ?_ | (refine pr2 (State.grantFb_keeps C ?_) (by assumption))
    | refine State.setBuf_keeps C ?_ | refine State.setFrameBytes_keeps C ?_ | refine State.setQueue_keeps C ?_
    | refine State.spillDenied_keeps C ?_ | refine iteS ?_ ?_ | split

theorem execSpill_keeps (C : Closed P) {p : Fin 72} {t : Fin 8} {s : State} (h0 : P s) : OkP P (execSpill p t s) := by
  unfold execSpill
  with_reducible refine okS ?_
  with_reducible repeat' first
    | assumption | intro _ | refine State.inUnit_keeps C ?_ ?_ | refine State.spill_keeps C ?_

theorem State.grantChain_keeps (C : Closed P) {s : State} {o n : Nat} {got : List Nat} (h0 : P s) :
    P (State.grantChain s o n got).2 := by
  induction n generalizing s got with
  | zero => exact h0
  | succ n ih =>
    unfold State.grantChain
    have hg := State.grant_keeps C (s := s) (o := o) (p := 0) h0
    generalize s.grant o 0 = x at hg
    obtain ⟨a, t⟩ := x
    cases a with
    | none => exact foldS hg (fun s h hs => State.freeBuf_keeps C hs)
    | some h => exact ih hg

theorem State.joinChain_keeps (C : Closed P) {s : State} {refs pri : Nat} {l : List Nat} (h0 : P s) :
    P (State.joinChain s refs pri l) := by
  cases l with
  | nil => exact h0
  | cons h t => exact foldS (State.setBuf_keeps C h0) (fun s c hs => State.setBuf_keeps C hs)

theorem State.refill_keeps (C : Closed P) {s : State} {k : Nat} (h0 : P s) : P (State.refill s k) := by
  unfold State.refill
  with_reducible repeat' first
    | assumption | refine State.count_keeps C ?_ | refine State.drop1_keeps C ?_
    | (refine pr2 (State.grantChain_keeps C ?_) (by assumption)) | refine State.joinChain_keeps C ?_
    | refine State.setBuf_keeps C ?_ | refine State.setFrameBytes_keeps C ?_ | refine State.setQueue_keeps C ?_
    | refine iteS ?_ ?_ | split

theorem execRefill_keeps (C : Closed P) {p : Fin 72} {t : Fin 8} {s : State} (h0 : P s) : OkP P (execRefill p t s) := by
  unfold execRefill
  with_reducible refine okS ?_
  with_reducible repeat' first
    | assumption | intro _ | refine State.inUnit_keeps C ?_ ?_ | refine State.refill_keeps C ?_

theorem State.setG_keeps (C : Closed P) {s : State} {c : Core} {n v : Nat} (h0 : P s) : P (State.setG s c n v) := by
  unfold State.setG
  with_reducible repeat' first
    | assumption | refine C.setTr _ _ _ ?_ | refine iteS ?_ ?_

theorem State.setP_keeps (C : Closed P) {s : State} {c : Core} {n v : Nat} (h0 : P s) : P (State.setP s c n v) := by
  unfold State.setP
  with_reducible repeat' first
    | assumption | refine C.setTr _ _ _ ?_ | refine iteS ?_ ?_

theorem State.setT_keeps (C : Closed P) {s : State} {c : Core} {n v : Nat} (h0 : P s) : P (State.setT s c n v) := by
  unfold State.setT
  with_reducible repeat' first
    | assumption | refine C.setTr _ _ _ ?_

theorem State.setV_keeps (C : Closed P) {s : State} {c : Core} {n v : Nat} (h0 : P s) : P (State.setV s c n v) := by
  unfold State.setV
  with_reducible repeat' first
    | assumption | refine C.setTr _ _ _ ?_

theorem State.setPc_keeps (C : Closed P) {s : State} {c : Core} {v : Nat} (h0 : P s) : P (State.setPc s c v) := by
  unfold State.setPc
  with_reducible repeat' first
    | assumption | refine C.setTr _ _ _ ?_ | refine C.wr _ _ _ ?_ | split

theorem State.setTstate_keeps (C : Closed P) {s : State} {e t v : Nat} (h0 : P s) : P (State.setTstate s e t v) := by
  unfold State.setTstate
  with_reducible repeat' first
    | assumption | refine C.wr _ _ _ ?_

theorem State.setCst_keeps (C : Closed P) {s : State} {c : Core} {v : Nat} (h0 : P s) : P (State.setCst s c v) := by
  unfold State.setCst
  with_reducible repeat' first
    | assumption
    | (fail_if_no_progress (extract_lets +onlyGivenNames x); refine cutS (P := P) (x := x) ?_ (fun hx => ?_);
       (on_goal 1 => (unfold x; try clear x)); (on_goal 2 => clear_value x))
    | refine C.setTr _ _ _ ?_ | refine State.setTstate_keeps C ?_ | refine C.wr _ _ _ ?_ | refine iteS ?_ ?_ | split

theorem State.setIntrap_keeps (C : Closed P) {s : State} {c : Core} {v : Nat} (h0 : P s) :
    P (State.setIntrap s c v) := by
  unfold State.setIntrap
  with_reducible repeat' first
    | assumption | refine C.setTr _ _ _ ?_ | refine C.wr _ _ _ ?_ | split

theorem State.recordTrap_keeps (C : Closed P) {s : State} {c : Core} {cause epc val : Nat} (h0 : P s) :
    P (State.recordTrap s c cause epc val) := by
  unfold State.recordTrap
  with_reducible repeat' first
    | assumption | refine C.setTr _ _ _ ?_ | refine C.wr _ _ _ ?_ | split

theorem State.trap_keeps (C : Closed P) {s : State} {c : Core} {cause val : Nat} (h0 : P s) :
    P (State.trap s c cause val) := by
  unfold State.trap
  with_reducible repeat' first
    | assumption
    | (fail_if_no_progress (extract_lets +onlyGivenNames x); refine cutS (P := P) (x := x) ?_ (fun hx => ?_);
       (on_goal 1 => (unfold x; try clear x)); (on_goal 2 => clear_value x))
    | refine State.raise_keeps C ?_ | refine State.recordTrap_keeps C ?_ | refine State.setCst_keeps C ?_
    | refine State.setIntrap_keeps C ?_ | refine State.setPc_keeps C ?_ | refine C.setTr _ _ _ ?_ | refine iteS ?_ ?_
    | split

theorem State.tretBody_keeps (C : Closed P) {s : State} {c : Core} (h0 : P s) : P (State.tretBody s c).2 := by
  unfold State.tretBody
  with_reducible repeat' first
    | assumption | refine State.setIntrap_keeps C ?_ | refine C.setTr _ _ _ ?_

theorem State.progFault_keeps (C : Closed P) {s : State} {c : Core} (h0 : P s) : P (State.progFault s c) := by
  unfold State.progFault
  with_reducible repeat' first
    | assumption | refine State.count_keeps C ?_ | split

theorem State.finish_keeps (C : Closed P) {old : State} {c : Core} {r : Sig × State} (h0 : P old) (h1 : P r.2) :
    P (State.finish old c r) := by
  unfold State.finish
  extract_lets k
  have hk : ∀ s, P s → P (k s) := by
    intro s hs
    show P (match c with | .cell _ _ => s | _ => _)
    split
    · exact hs
    · exact C.setTr _ _ _ hs
  split
  · exact hk _ (State.setPc_keeps C h1)
  · exact hk _ (State.setPc_keeps C h1)
  · exact State.setCst_keeps C h1
  · exact hk _ (State.setCst_keeps C (State.setPc_keeps C h1))
  · split
    · exact State.progFault_keeps C h1
    · exact State.trap_keeps C h1

theorem State.preTrap_keeps (C : Closed P) {s : State} {x : Issue} (h0 : P s) :
    ∀ t, State.preTrap s x = some t → P t := by
  intro t ht
  unfold State.preTrap at ht
  repeat' split at ht
  all_goals first
    | contradiction
    | (obtain rfl := Option.some.inj ht
       repeat' first
         | with_reducible assumption
         | with_reducible refine C.setTr _ _ _ ?_
         | with_reducible refine State.trap_keeps C ?_)

theorem State.issue_keeps (C : Closed P) {s : State} {x : Issue} {k w : Nat} {legal : Bool}
    {f : State → Sig × State} (h0 : P s) (h1 : ∀ s, P s → P (f s).2) :
    P (State.issue s x k w legal f) := by
  unfold State.issue
  with_reducible repeat' first
    | assumption | refine State.finish_keeps C ?_ ?_ | (refine State.preTrap_keeps C ?_ _ (by assumption))
    | refine h1 _ ?_ | refine iteS ?_ ?_ | split

theorem State.tzAlu_keeps (C : Closed P) {x : Issue} {f : Nat} {i : RIns} {s : State} (h0 : P s) :
    P (State.tzAlu x f i s) := by
  unfold State.tzAlu
  with_reducible repeat' first
    | assumption | intro _ | refine State.issue_keeps C ?_ ?_ | refine State.setG_keeps C ?_

theorem execAdd_keeps (C : Closed P) {x : Issue} {i : RIns} {s : State} (h0 : P s) : OkP P (execAdd x i s) := by
  unfold execAdd
  with_reducible refine okS ?_
  with_reducible repeat' first
    | assumption | refine State.tzAlu_keeps C ?_

theorem execSub_keeps (C : Closed P) {x : Issue} {i : RIns} {s : State} (h0 : P s) : OkP P (execSub x i s) := by
  unfold execSub
  with_reducible refine okS ?_
  with_reducible repeat' first
    | assumption | refine State.tzAlu_keeps C ?_

theorem execTzAnd_keeps (C : Closed P) {x : Issue} {i : RIns} {s : State} (h0 : P s) : OkP P (execTzAnd x i s) := by
  unfold execTzAnd
  with_reducible refine okS ?_
  with_reducible repeat' first
    | assumption | refine State.tzAlu_keeps C ?_

theorem execOr_keeps (C : Closed P) {x : Issue} {i : RIns} {s : State} (h0 : P s) : OkP P (execOr x i s) := by
  unfold execOr
  with_reducible refine okS ?_
  with_reducible repeat' first
    | assumption | refine State.tzAlu_keeps C ?_

theorem execXor_keeps (C : Closed P) {x : Issue} {i : RIns} {s : State} (h0 : P s) : OkP P (execXor x i s) := by
  unfold execXor
  with_reducible refine okS ?_
  with_reducible repeat' first
    | assumption | refine State.tzAlu_keeps C ?_

theorem execShl_keeps (C : Closed P) {x : Issue} {i : RIns} {s : State} (h0 : P s) : OkP P (execShl x i s) := by
  unfold execShl
  with_reducible refine okS ?_
  with_reducible repeat' first
    | assumption | refine State.tzAlu_keeps C ?_

theorem execShr_keeps (C : Closed P) {x : Issue} {i : RIns} {s : State} (h0 : P s) : OkP P (execShr x i s) := by
  unfold execShr
  with_reducible refine okS ?_
  with_reducible repeat' first
    | assumption | refine State.tzAlu_keeps C ?_

theorem execSar_keeps (C : Closed P) {x : Issue} {i : RIns} {s : State} (h0 : P s) : OkP P (execSar x i s) := by
  unfold execSar
  with_reducible refine okS ?_
  with_reducible repeat' first
    | assumption | refine State.tzAlu_keeps C ?_

theorem execMul_keeps (C : Closed P) {x : Issue} {i : RIns} {s : State} (h0 : P s) : OkP P (execMul x i s) := by
  unfold execMul
  with_reducible refine okS ?_
  with_reducible repeat' first
    | assumption | refine State.tzAlu_keeps C ?_

theorem execMulh_keeps (C : Closed P) {x : Issue} {i : RIns} {s : State} (h0 : P s) : OkP P (execMulh x i s) := by
  unfold execMulh
  with_reducible refine okS ?_
  with_reducible repeat' first
    | assumption | refine State.tzAlu_keeps C ?_

theorem execDiv_keeps (C : Closed P) {x : Issue} {i : RIns} {s : State} (h0 : P s) : OkP P (execDiv x i s) := by
  unfold execDiv
  with_reducible refine okS ?_
  with_reducible repeat' first
    | assumption | refine State.tzAlu_keeps C ?_

theorem execRem_keeps (C : Closed P) {x : Issue} {i : RIns} {s : State} (h0 : P s) : OkP P (execRem x i s) := by
  unfold execRem
  with_reducible refine okS ?_
  with_reducible repeat' first
    | assumption | refine State.tzAlu_keeps C ?_

theorem execMin_keeps (C : Closed P) {x : Issue} {i : RIns} {s : State} (h0 : P s) : OkP P (execMin x i s) := by
  unfold execMin
  with_reducible refine okS ?_
  with_reducible repeat' first
    | assumption | refine State.tzAlu_keeps C ?_

theorem execMax_keeps (C : Closed P) {x : Issue} {i : RIns} {s : State} (h0 : P s) : OkP P (execMax x i s) := by
  unfold execMax
  with_reducible refine okS ?_
  with_reducible repeat' first
    | assumption | refine State.tzAlu_keeps C ?_

theorem execMinu_keeps (C : Closed P) {x : Issue} {i : RIns} {s : State} (h0 : P s) : OkP P (execMinu x i s) := by
  unfold execMinu
  with_reducible refine okS ?_
  with_reducible repeat' first
    | assumption | refine State.tzAlu_keeps C ?_

theorem execMaxu_keeps (C : Closed P) {x : Issue} {i : RIns} {s : State} (h0 : P s) : OkP P (execMaxu x i s) := by
  unfold execMaxu
  with_reducible refine okS ?_
  with_reducible repeat' first
    | assumption | refine State.tzAlu_keeps C ?_

theorem State.tzAluI_keeps (C : Closed P) {x : Issue} {op : Nat} {i : IIns} {s : State} (h0 : P s) :
    P (State.tzAluI x op i s) := by
  unfold State.tzAluI
  with_reducible repeat' first
    | assumption | intro _ | refine State.issue_keeps C ?_ ?_ | refine State.setG_keeps C ?_

theorem execAddi_keeps (C : Closed P) {x : Issue} {i : IIns} {s : State} (h0 : P s) : OkP P (execAddi x i s) := by
  unfold execAddi
  with_reducible refine okS ?_
  with_reducible repeat' first
    | assumption | refine State.tzAluI_keeps C ?_

theorem execAndi_keeps (C : Closed P) {x : Issue} {i : IIns} {s : State} (h0 : P s) : OkP P (execAndi x i s) := by
  unfold execAndi
  with_reducible refine okS ?_
  with_reducible repeat' first
    | assumption | refine State.tzAluI_keeps C ?_

theorem execOri_keeps (C : Closed P) {x : Issue} {i : IIns} {s : State} (h0 : P s) : OkP P (execOri x i s) := by
  unfold execOri
  with_reducible refine okS ?_
  with_reducible repeat' first
    | assumption | refine State.tzAluI_keeps C ?_

theorem execXori_keeps (C : Closed P) {x : Issue} {i : IIns} {s : State} (h0 : P s) : OkP P (execXori x i s) := by
  unfold execXori
  with_reducible refine okS ?_
  with_reducible repeat' first
    | assumption | refine State.tzAluI_keeps C ?_

theorem State.tzShiftI_keeps (C : Closed P) {x : Issue} {k : Nat} {i : IIns} {s : State} (h0 : P s) :
    P (State.tzShiftI x k i s) := by
  unfold State.tzShiftI
  with_reducible repeat' first
    | assumption | intro _ | refine State.issue_keeps C ?_ ?_ | refine State.setG_keeps C ?_

theorem execShli_keeps (C : Closed P) {x : Issue} {i : IIns} {s : State} (h0 : P s) : OkP P (execShli x i s) := by
  unfold execShli
  with_reducible refine okS ?_
  with_reducible repeat' first
    | assumption | refine State.tzShiftI_keeps C ?_

theorem execShri_keeps (C : Closed P) {x : Issue} {i : IIns} {s : State} (h0 : P s) : OkP P (execShri x i s) := by
  unfold execShri
  with_reducible refine okS ?_
  with_reducible repeat' first
    | assumption | refine State.tzShiftI_keeps C ?_

theorem execSari_keeps (C : Closed P) {x : Issue} {i : IIns} {s : State} (h0 : P s) : OkP P (execSari x i s) := by
  unfold execSari
  with_reducible refine okS ?_
  with_reducible repeat' first
    | assumption | refine State.tzShiftI_keeps C ?_

theorem State.tzLui_keeps (C : Closed P) {x : Issue} {i : JIns} {s : State} (h0 : P s) : P (State.tzLui x i s) := by
  unfold State.tzLui
  with_reducible repeat' first
    | assumption | intro _ | refine State.issue_keeps C ?_ ?_ | refine State.setG_keeps C ?_

theorem execLui_keeps (C : Closed P) {x : Issue} {i : JIns} {s : State} (h0 : P s) : OkP P (execLui x i s) := by
  unfold execLui
  with_reducible refine okS ?_
  with_reducible repeat' first
    | assumption | refine State.tzLui_keeps C ?_

theorem State.tzCmp_keeps (C : Closed P) {x : Issue} {f : Nat} {i : RIns} {s : State} (h0 : P s) :
    P (State.tzCmp x f i s) := by
  unfold State.tzCmp
  with_reducible repeat' first
    | assumption | intro _ | refine State.issue_keeps C ?_ ?_ | refine State.setP_keeps C ?_

theorem execCmp_keeps (C : Closed P) {x : Issue} {f : Fin 128} {i : RIns} {s : State} (h0 : P s) :
    OkP P (execCmp x f i s) := by
  unfold execCmp
  with_reducible refine okS ?_
  with_reducible repeat' first
    | assumption | refine State.tzCmp_keeps C ?_

theorem State.tzCmpi_keeps (C : Closed P) {x : Issue} {i : IIns} {s : State} (h0 : P s) : P (State.tzCmpi x i s) := by
  unfold State.tzCmpi
  with_reducible repeat' first
    | assumption | intro _ | refine State.issue_keeps C ?_ ?_ | refine State.setP_keeps C ?_

theorem execCmpi_keeps (C : Closed P) {x : Issue} {i : IIns} {s : State} (h0 : P s) : OkP P (execCmpi x i s) := by
  unfold execCmpi
  with_reducible refine okS ?_
  with_reducible repeat' first
    | assumption | refine State.tzCmpi_keeps C ?_

theorem State.tzPred_keeps (C : Closed P) {x : Issue} {f : Nat} {i : RIns} {s : State} (h0 : P s) :
    P (State.tzPred x f i s) := by
  unfold State.tzPred
  with_reducible repeat' first
    | assumption | intro _ | refine State.issue_keeps C ?_ ?_ | refine State.setP_keeps C ?_

theorem execPand_keeps (C : Closed P) {x : Issue} {i : RIns} {s : State} (h0 : P s) : OkP P (execPand x i s) := by
  unfold execPand
  with_reducible refine okS ?_
  with_reducible repeat' first
    | assumption | refine State.tzPred_keeps C ?_

theorem execPor_keeps (C : Closed P) {x : Issue} {i : RIns} {s : State} (h0 : P s) : OkP P (execPor x i s) := by
  unfold execPor
  with_reducible refine okS ?_
  with_reducible repeat' first
    | assumption | refine State.tzPred_keeps C ?_

theorem execPxor_keeps (C : Closed P) {x : Issue} {i : RIns} {s : State} (h0 : P s) : OkP P (execPxor x i s) := by
  unfold execPxor
  with_reducible refine okS ?_
  with_reducible repeat' first
    | assumption | refine State.tzPred_keeps C ?_

theorem execPandn_keeps (C : Closed P) {x : Issue} {i : RIns} {s : State} (h0 : P s) : OkP P (execPandn x i s) := by
  unfold execPandn
  with_reducible refine okS ?_
  with_reducible repeat' first
    | assumption | refine State.tzPred_keeps C ?_

theorem State.tzPmov_keeps (C : Closed P) {x : Issue} {f : Nat} {i : RIns} {s : State} (h0 : P s) :
    P (State.tzPmov x f i s) := by
  unfold State.tzPmov
  with_reducible repeat' first
    | assumption | intro _ | refine State.issue_keeps C ?_ ?_ | refine State.setG_keeps C ?_
    | refine State.setP_keeps C ?_ | refine iteS ?_ ?_

theorem execPmov_keeps (C : Closed P) {x : Issue} {k : Fin 3} {i : RIns} {s : State} (h0 : P s) :
    OkP P (execPmov x k i s) := by
  unfold execPmov
  with_reducible refine okS ?_
  with_reducible repeat' first
    | assumption | refine State.tzPmov_keeps C ?_

theorem State.tzBf_keeps (C : Closed P) {x : Issue} {ins : Nat} {i : IIns} {s : State} (h0 : P s) :
    P (State.tzBf x ins i s) := by
  unfold State.tzBf
  with_reducible repeat' first
    | assumption | intro _ | refine State.issue_keeps C ?_ ?_ | refine State.setG_keeps C ?_

theorem execBfx_keeps (C : Closed P) {x : Issue} {i : IIns} {s : State} (h0 : P s) : OkP P (execBfx x i s) := by
  unfold execBfx
  with_reducible refine okS ?_
  with_reducible repeat' first
    | assumption | refine State.tzBf_keeps C ?_

theorem execBfi_keeps (C : Closed P) {x : Issue} {i : IIns} {s : State} (h0 : P s) : OkP P (execBfi x i s) := by
  unfold execBfi
  with_reducible refine okS ?_
  with_reducible repeat' first
    | assumption | refine State.tzBf_keeps C ?_

theorem State.branchTo_keeps (C : Closed P) {s : State} {c : Core} {d base : Nat} {off : Int} (h0 : P s) :
    P (State.branchTo s c d base off).2 := by
  unfold State.branchTo
  with_reducible repeat' first
    | assumption | refine State.setG_keeps C ?_ | (fail_if_no_progress (extract_lets +onlyGivenNames x)) | split

theorem State.tzBr_keeps (C : Closed P) {x : Issue} {brn : Nat} {i : IIns} {s : State} (h0 : P s) :
    P (State.tzBr x brn i s) := by
  unfold State.tzBr
  with_reducible repeat' first
    | assumption | intro _ | refine State.branchTo_keeps C ?_ | refine State.issue_keeps C ?_ ?_ | split

theorem execBr_keeps (C : Closed P) {x : Issue} {i : IIns} {s : State} (h0 : P s) : OkP P (execBr x i s) := by
  unfold execBr
  with_reducible refine okS ?_
  with_reducible repeat' first
    | assumption | refine State.tzBr_keeps C ?_

theorem execBrn_keeps (C : Closed P) {x : Issue} {i : IIns} {s : State} (h0 : P s) : OkP P (execBrn x i s) := by
  unfold execBrn
  with_reducible refine okS ?_
  with_reducible repeat' first
    | assumption | refine State.tzBr_keeps C ?_

theorem State.tzJal_keeps (C : Closed P) {x : Issue} {i : JIns} {s : State} (h0 : P s) : P (State.tzJal x i s) := by
  unfold State.tzJal
  with_reducible repeat' first
    | assumption | intro _ | refine State.branchTo_keeps C ?_ | refine State.issue_keeps C ?_ ?_

theorem execJal_keeps (C : Closed P) {x : Issue} {i : JIns} {s : State} (h0 : P s) : OkP P (execJal x i s) := by
  unfold execJal
  with_reducible refine okS ?_
  with_reducible repeat' first
    | assumption | refine State.tzJal_keeps C ?_

theorem State.tzSkip_keeps (C : Closed P) {x : Issue} {i : IIns} {s : State} (h0 : P s) : P (State.tzSkip x i s) := by
  unfold State.tzSkip
  with_reducible repeat' first
    | assumption | intro _ | refine State.issue_keeps C ?_ ?_

theorem execSkip_keeps (C : Closed P) {x : Issue} {i : IIns} {s : State} (h0 : P s) : OkP P (execSkip x i s) := by
  unfold execSkip
  with_reducible refine okS ?_
  with_reducible repeat' first
    | assumption | refine State.tzSkip_keeps C ?_

theorem State.tzTnow_keeps (C : Closed P) {x : Issue} {i : RIns} {s : State} (h0 : P s) : P (State.tzTnow x i s) := by
  unfold State.tzTnow
  with_reducible repeat' first
    | assumption | intro _ | refine State.issue_keeps C ?_ ?_ | refine State.setT_keeps C ?_

theorem execTnow_keeps (C : Closed P) {x : Issue} {i : RIns} {s : State} (h0 : P s) : OkP P (execTnow x i s) := by
  unfold execTnow
  with_reducible refine okS ?_
  with_reducible repeat' first
    | assumption | refine State.tzTnow_keeps C ?_

theorem State.tzTcmp_keeps (C : Closed P) {x : Issue} {f : Nat} {i : RIns} {s : State} (h0 : P s) :
    P (State.tzTcmp x f i s) := by
  unfold State.tzTcmp
  with_reducible repeat' first
    | assumption | intro _ | refine State.issue_keeps C ?_ ?_ | refine State.setP_keeps C ?_

theorem execTcmp_keeps (C : Closed P) {x : Issue} {f : Fin 128} {i : RIns} {s : State} (h0 : P s) :
    OkP P (execTcmp x f i s) := by
  unfold execTcmp
  with_reducible refine okS ?_
  with_reducible repeat' first
    | assumption | refine State.tzTcmp_keeps C ?_

theorem State.tzTadd_keeps (C : Closed P) {x : Issue} {i : RIns} {s : State} (h0 : P s) : P (State.tzTadd x i s) := by
  unfold State.tzTadd
  with_reducible repeat' first
    | assumption | intro _ | refine State.issue_keeps C ?_ ?_ | refine State.setT_keeps C ?_

theorem execTadd_keeps (C : Closed P) {x : Issue} {i : RIns} {s : State} (h0 : P s) : OkP P (execTadd x i s) := by
  unfold execTadd
  with_reducible refine okS ?_
  with_reducible repeat' first
    | assumption | refine State.tzTadd_keeps C ?_

theorem State.tzTsub_keeps (C : Closed P) {x : Issue} {i : RIns} {s : State} (h0 : P s) : P (State.tzTsub x i s) := by
  unfold State.tzTsub
  with_reducible repeat' first
    | assumption | intro _ | refine State.issue_keeps C ?_ ?_ | refine State.setG_keeps C ?_

theorem execTsub_keeps (C : Closed P) {x : Issue} {i : RIns} {s : State} (h0 : P s) : OkP P (execTsub x i s) := by
  unfold execTsub
  with_reducible refine okS ?_
  with_reducible repeat' first
    | assumption | refine State.tzTsub_keeps C ?_

theorem State.tzTmov_keeps (C : Closed P) {x : Issue} {f : Nat} {i : RIns} {s : State} (h0 : P s) :
    P (State.tzTmov x f i s) := by
  unfold State.tzTmov
  with_reducible repeat' first
    | assumption | intro _ | refine State.issue_keeps C ?_ ?_ | refine State.setG_keeps C ?_
    | refine State.setT_keeps C ?_ | refine iteS ?_ ?_

theorem execTmov_keeps (C : Closed P) {x : Issue} {i : RIns} {s : State} (h0 : P s) : OkP P (execTmov x i s) := by
  unfold execTmov
  with_reducible refine okS ?_
  with_reducible repeat' first
    | assumption | refine State.tzTmov_keeps C ?_

theorem execTmovLo_keeps (C : Closed P) {x : Issue} {i : RIns} {s : State} (h0 : P s) : OkP P (execTmovLo x i s) := by
  unfold execTmovLo
  with_reducible refine okS ?_
  with_reducible repeat' first
    | assumption | refine State.tzTmov_keeps C ?_

theorem execTmovHi_keeps (C : Closed P) {x : Issue} {i : RIns} {s : State} (h0 : P s) : OkP P (execTmovHi x i s) := by
  unfold execTmovHi
  with_reducible refine okS ?_
  with_reducible repeat' first
    | assumption | refine State.tzTmov_keeps C ?_

theorem State.tzTset_keeps (C : Closed P) {x : Issue} {i : RIns} {s : State} (h0 : P s) : P (State.tzTset x i s) := by
  unfold State.tzTset
  with_reducible repeat' first
    | assumption | intro _ | refine State.issue_keeps C ?_ ?_ | refine State.setT_keeps C ?_

theorem execTmovSet_keeps (C : Closed P) {x : Issue} {i : RIns} {s : State} (h0 : P s) : OkP P (execTmovSet x i s) := by
  unfold execTmovSet
  with_reducible refine okS ?_
  with_reducible repeat' first
    | assumption | refine State.tzTset_keeps C ?_

theorem State.tzTrap_keeps (C : Closed P) {x : Issue} {i : RIns} {s : State} (h0 : P s) : P (State.tzTrap x i s) := by
  unfold State.tzTrap
  with_reducible repeat' first
    | assumption | intro _ | refine State.issue_keeps C ?_ ?_

theorem execTrap_keeps (C : Closed P) {x : Issue} {i : RIns} {s : State} (h0 : P s) : OkP P (execTrap x i s) := by
  unfold execTrap
  with_reducible refine okS ?_
  with_reducible repeat' first
    | assumption | refine State.tzTrap_keeps C ?_

theorem State.tzTret_keeps (C : Closed P) {x : Issue} {i : RIns} {s : State} (h0 : P s) : P (State.tzTret x i s) := by
  unfold State.tzTret
  with_reducible repeat' first
    | assumption | intro _ | refine State.issue_keeps C ?_ ?_ | refine State.tretBody_keeps C ?_ | split

theorem execTret_keeps (C : Closed P) {x : Issue} {i : RIns} {s : State} (h0 : P s) : OkP P (execTret x i s) := by
  unfold execTret
  with_reducible refine okS ?_
  with_reducible repeat' first
    | assumption | refine State.tzTret_keeps C ?_

theorem State.tzFence_keeps (C : Closed P) {x : Issue} {i : RIns} {s : State} (h0 : P s) : P (State.tzFence x i s) := by
  unfold State.tzFence
  with_reducible repeat' first
    | assumption | intro _ | refine State.issue_keeps C ?_ ?_

theorem execFence_keeps (C : Closed P) {x : Issue} {i : RIns} {s : State} (h0 : P s) : OkP P (execFence x i s) := by
  unfold execFence
  with_reducible refine okS ?_
  with_reducible repeat' first
    | assumption | refine State.tzFence_keeps C ?_

theorem State.tzYield_keeps (C : Closed P) {x : Issue} {i : RIns} {s : State} (h0 : P s) : P (State.tzYield x i s) := by
  unfold State.tzYield
  with_reducible repeat' first
    | assumption | intro _ | refine State.issue_keeps C ?_ ?_ | refine C.setH _ _ _ ?_ | split

theorem execYield_keeps (C : Closed P) {x : Issue} {i : RIns} {s : State} (h0 : P s) : OkP P (execYield x i s) := by
  unfold execYield
  with_reducible refine okS ?_
  with_reducible repeat' first
    | assumption | refine State.tzYield_keeps C ?_

theorem State.tzHalt_keeps (C : Closed P) {x : Issue} {i : RIns} {s : State} (h0 : P s) : P (State.tzHalt x i s) := by
  unfold State.tzHalt
  with_reducible repeat' first
    | assumption | intro _ | refine State.issue_keeps C ?_ ?_

theorem execHalt_keeps (C : Closed P) {x : Issue} {i : RIns} {s : State} (h0 : P s) : OkP P (execHalt x i s) := by
  unfold execHalt
  with_reducible refine okS ?_
  with_reducible repeat' first
    | assumption | refine State.tzHalt_keeps C ?_

theorem State.tzBkpt_keeps (C : Closed P) {x : Issue} {i : RIns} {s : State} (h0 : P s) : P (State.tzBkpt x i s) := by
  unfold State.tzBkpt
  with_reducible repeat' first
    | assumption | intro _ | refine State.issue_keeps C ?_ ?_

theorem execBkpt_keeps (C : Closed P) {x : Issue} {i : RIns} {s : State} (h0 : P s) : OkP P (execBkpt x i s) := by
  unfold execBkpt
  with_reducible refine okS ?_
  with_reducible repeat' first
    | assumption | refine State.tzBkpt_keeps C ?_

theorem State.setCsr_keeps (C : Closed P) {s : State} {c : Core} {n v : Nat} (h0 : P s) : P (State.setCsr s c n v) := by
  unfold State.setCsr
  with_reducible repeat' first
    | assumption | refine State.setIntrap_keeps C ?_ | refine C.setTr _ _ _ ?_ | refine C.wr _ _ _ ?_
    | refine iteS ?_ ?_ | (fail_if_no_progress (extract_lets +onlyGivenNames x)) | split

theorem State.tzCsrr_keeps (C : Closed P) {x : Issue} {i : IIns} {s : State} (h0 : P s) : P (State.tzCsrr x i s) := by
  unfold State.tzCsrr
  with_reducible repeat' first
    | assumption | intro _ | refine State.issue_keeps C ?_ ?_ | refine C.nextFree ?_ | refine State.setG_keeps C ?_
    | refine iteS ?_ ?_ | (fail_if_no_progress (extract_lets +onlyGivenNames x)) | split

theorem execCsrr_keeps (C : Closed P) {x : Issue} {i : IIns} {s : State} (h0 : P s) : OkP P (execCsrr x i s) := by
  unfold execCsrr
  with_reducible refine okS ?_
  with_reducible repeat' first
    | assumption | refine State.tzCsrr_keeps C ?_

theorem State.tzCsrw_keeps (C : Closed P) {x : Issue} {i : IIns} {s : State} (h0 : P s) : P (State.tzCsrw x i s) := by
  unfold State.tzCsrw
  with_reducible repeat' first
    | assumption | intro _ | refine State.issue_keeps C ?_ ?_ | refine State.setCsr_keeps C ?_ | split

theorem execCsrw_keeps (C : Closed P) {x : Issue} {i : IIns} {s : State} (h0 : P s) : OkP P (execCsrw x i s) := by
  unfold execCsrw
  with_reducible refine okS ?_
  with_reducible repeat' first
    | assumption | refine State.tzCsrw_keeps C ?_

theorem State.tzEvraise_keeps (C : Closed P) {x : Issue} {i : IIns} {s : State} (h0 : P s) :
    P (State.tzEvraise x i s) := by
  unfold State.tzEvraise
  with_reducible repeat' first
    | assumption | intro _ | refine State.issue_keeps C ?_ ?_ | refine State.raise_keeps C ?_ | split

theorem execEvraise_keeps (C : Closed P) {x : Issue} {i : IIns} {s : State} (h0 : P s) : OkP P (execEvraise x i s) := by
  unfold execEvraise
  with_reducible refine okS ?_
  with_reducible repeat' first
    | assumption | refine State.tzEvraise_keeps C ?_

theorem State.look_keeps (C : Closed P) {s : State} {t kind b key : Nat} (h0 : P s) :
    P (State.look s t kind b key).2 := by
  unfold State.look
  with_reducible repeat' first
    | assumption | refine State.setEntry_keeps C ?_ | split

theorem State.place_keeps (C : Closed P) {s : State} {t : Nat} {e : LkEntry} {n : Nat} (h0 : P s) :
    ∀ u, State.place s t e n = some u → P u := by
  induction n generalizing s e with
  | zero =>
    intro u hu
    unfold State.place at hu
    split at hu
    · obtain rfl := Option.some.inj hu
      exact State.setEntry_keeps C h0
    · cases hu
  | succ n ih =>
    intro u hu
    unfold State.place at hu
    split at hu
    · obtain rfl := Option.some.inj hu
      exact State.setEntry_keeps C h0
    · exact ih (State.setEntry_keeps C (C.nextFree h0)) u hu

theorem State.lkInsert_keeps (C : Closed P) {s : State} {c : LkCmd} (h0 : P s) : P (State.lkInsert s c).2 := by
  unfold State.lkInsert
  split
  · exact h0
  · extract_lets key
    split
    · exact h0
    · split
      · next heq =>
        split at heq
        · cases heq
        · exact State.place_keeps C h0 _ heq
      · dsimp only; with_reducible exact State.raise_keeps C h0

theorem State.lkDelete_keeps (C : Closed P) {s : State} {c : LkCmd} (h0 : P s) : P (State.lkDelete s c).2 := by
  unfold State.lkDelete
  with_reducible repeat' first
    | assumption | refine State.setEntry_keeps C ?_ | split

theorem State.lkModify_keeps (C : Closed P) {s : State} {c : LkCmd} (h0 : P s) : P (State.lkModify s c).2 := by
  unfold State.lkModify
  with_reducible repeat' first
    | assumption | refine State.setEntry_keeps C ?_ | split

theorem State.lkReadKey_keeps (C : Closed P) {s : State} {c : LkCmd} (h0 : P s) : P (State.lkReadKey s c).2 := by
  unfold State.lkReadKey
  with_reducible repeat' first
    | assumption | split

theorem State.lkReadIndex_keeps (C : Closed P) {s : State} {c : LkCmd} (h0 : P s) : P (State.lkReadIndex s c).2 := by
  unfold State.lkReadIndex
  with_reducible repeat' first
    | assumption | (fail_if_no_progress (extract_lets +onlyGivenNames x)) | split

theorem State.lkWriteIndex_keeps (C : Closed P) {s : State} {c : LkCmd} (h0 : P s) : P (State.lkWriteIndex s c).2 := by
  unfold State.lkWriteIndex
  with_reducible repeat' first
    | assumption | refine State.setEntry_keeps C ?_ | (fail_if_no_progress (extract_lets +onlyGivenNames x)) | split

theorem State.lkClearHit_keeps (C : Closed P) {s : State} {c : LkCmd} (h0 : P s) : P (State.lkClearHit s c).2 := by
  unfold State.lkClearHit
  with_reducible repeat' first
    | assumption | refine State.setEntry_keeps C ?_ | (fail_if_no_progress (extract_lets +onlyGivenNames x)) | split

theorem State.lkNop_keeps (C : Closed P) {s : State} {c : LkCmd} (h0 : P s) : P (State.lkNop s c).2 := by
  unfold State.lkNop
  with_reducible repeat' first
    | assumption

theorem State.lkRun_keeps (C : Closed P) {s : State} {op : Nat} {c : LkCmd} (h0 : P s) : P (State.lkRun s op c).2 := by
  unfold State.lkRun
  with_reducible repeat' first
    | assumption | refine State.lkClearHit_keeps C ?_ | refine State.lkDelete_keeps C ?_
    | refine State.lkInsert_keeps C ?_ | refine State.lkModify_keeps C ?_ | refine State.lkNop_keeps C ?_
    | refine State.lkReadIndex_keeps C ?_ | refine State.lkReadKey_keeps C ?_ | refine State.lkWriteIndex_keeps C ?_
    | split

theorem State.ifReturn_keeps (C : Closed P) {s : State} {i op : Nat} {o : LkOut} (h0 : P s) :
    P (State.ifReturn s i op o) := by
  unfold State.ifReturn
  with_reducible repeat' first
    | assumption
    | (fail_if_no_progress (extract_lets +onlyGivenNames x); refine cutS (P := P) (x := x) ?_ (fun hx => ?_);
       (on_goal 1 => (unfold x; try clear x)); (on_goal 2 => clear_value x))
    | refine C.wr _ _ _ ?_ | refine iteS ?_ ?_ | split

theorem State.lkGo_keeps (C : Closed P) {s : State} {i op tbl vis : Nat} (h0 : P s) :
    P (State.lkGo s i op tbl vis) := by
  unfold State.lkGo
  with_reducible repeat' first
    | assumption
    | (fail_if_no_progress (extract_lets +onlyGivenNames x); refine cutS (P := P) (x := x) ?_ (fun hx => ?_);
       (on_goal 1 => (unfold x; try clear x)); (on_goal 2 => clear_value x))
    | refine State.ifReturn_keeps C ?_ | refine State.lkRun_keeps C ?_ | refine C.setH _ _ _ ?_ | refine C.wr _ _ _ ?_
    | refine iteS ?_ ?_

theorem execLkpNop_keeps (C : Closed P) {r : Req} {i : Fin 2} {tbl : Fin 64} {vis : Fin 4} {s : State} (h0 : P s) :
    OkP P (execLkpNop r i tbl vis s) := by
  unfold execLkpNop
  with_reducible refine okS ?_
  with_reducible repeat' first
    | assumption | intro _ | refine State.lkGo_keeps C ?_ | refine State.writeTo_keeps C ?_ ?_

theorem execLkpInsert_keeps (C : Closed P) {r : Req} {i : Fin 2} {tbl : Fin 64} {vis : Fin 4} {s : State} (h0 : P s) :
    OkP P (execLkpInsert r i tbl vis s) := by
  unfold execLkpInsert
  with_reducible refine okS ?_
  with_reducible repeat' first
    | assumption | intro _ | refine State.lkGo_keeps C ?_ | refine State.writeTo_keeps C ?_ ?_

theorem execLkpDelete_keeps (C : Closed P) {r : Req} {i : Fin 2} {tbl : Fin 64} {vis : Fin 4} {s : State} (h0 : P s) :
    OkP P (execLkpDelete r i tbl vis s) := by
  unfold execLkpDelete
  with_reducible refine okS ?_
  with_reducible repeat' first
    | assumption | intro _ | refine State.lkGo_keeps C ?_ | refine State.writeTo_keeps C ?_ ?_

theorem execLkpModify_keeps (C : Closed P) {r : Req} {i : Fin 2} {tbl : Fin 64} {vis : Fin 4} {s : State} (h0 : P s) :
    OkP P (execLkpModify r i tbl vis s) := by
  unfold execLkpModify
  with_reducible refine okS ?_
  with_reducible repeat' first
    | assumption | intro _ | refine State.lkGo_keeps C ?_ | refine State.writeTo_keeps C ?_ ?_

theorem execLkpReadKey_keeps (C : Closed P) {r : Req} {i : Fin 2} {tbl : Fin 64} {vis : Fin 4} {s : State} (h0 : P s) :
    OkP P (execLkpReadKey r i tbl vis s) := by
  unfold execLkpReadKey
  with_reducible refine okS ?_
  with_reducible repeat' first
    | assumption | intro _ | refine State.lkGo_keeps C ?_ | refine State.writeTo_keeps C ?_ ?_

theorem execLkpReadIndex_keeps (C : Closed P) {r : Req} {i : Fin 2} {tbl : Fin 64} {vis : Fin 4} {s : State}
    (h0 : P s) :
    OkP P (execLkpReadIndex r i tbl vis s) := by
  unfold execLkpReadIndex
  with_reducible refine okS ?_
  with_reducible repeat' first
    | assumption | intro _ | refine State.lkGo_keeps C ?_ | refine State.writeTo_keeps C ?_ ?_

theorem execLkpWriteIndex_keeps (C : Closed P) {r : Req} {i : Fin 2} {tbl : Fin 64} {vis : Fin 4} {s : State}
    (h0 : P s) :
    OkP P (execLkpWriteIndex r i tbl vis s) := by
  unfold execLkpWriteIndex
  with_reducible refine okS ?_
  with_reducible repeat' first
    | assumption | intro _ | refine State.lkGo_keeps C ?_ | refine State.writeTo_keeps C ?_ ?_

theorem execLkpClearHit_keeps (C : Closed P) {r : Req} {i : Fin 2} {tbl : Fin 64} {vis : Fin 4} {s : State} (h0 : P s) :
    OkP P (execLkpClearHit r i tbl vis s) := by
  unfold execLkpClearHit
  with_reducible refine okS ?_
  with_reducible repeat' first
    | assumption | intro _ | refine State.lkGo_keeps C ?_ | refine State.writeTo_keeps C ?_ ?_

theorem State.coreRefused_keeps (C : Closed P) {s : State} (h0 : P s) : P (State.coreRefused s) := by
  unfold State.coreRefused
  with_reducible repeat' first
    | assumption | refine C.setH _ _ _ ?_

theorem State.tblWrite0_keeps (C : Closed P) {s : State} {t w : Nat} (h0 : P s) : P (State.tblWrite0 s t w) := by
  unfold State.tblWrite0
  with_reducible repeat' first
    | assumption
    | (fail_if_no_progress (extract_lets +onlyGivenNames x); refine cutS (P := P) (x := x) ?_ (fun hx => ?_);
       (on_goal 1 => (unfold x; try clear x)); (on_goal 2 => clear_value x))
    | refine State.coreRefused_keeps C ?_ | refine C.wr _ _ _ ?_ | refine iteS ?_ ?_
    | (fail_if_no_progress refine C.lkp_keeps ?_)

theorem State.tblWrite1_keeps (C : Closed P) {s : State} {t w : Nat} (h0 : P s) : P (State.tblWrite1 s t w) := by
  unfold State.tblWrite1
  with_reducible repeat' first
    | assumption | refine State.coreRefused_keeps C ?_ | refine C.wr _ _ _ ?_ | refine iteS ?_ ?_

theorem execLkpTblWrite_keeps (C : Closed P) {r : Req} {t : Fin 64} {word1 : Bool} {w : BitVec 32} {s : State}
    (h0 : P s) :
    OkP P (execLkpTblWrite r t word1 w s) := by
  unfold execLkpTblWrite
  with_reducible refine okS ?_
  with_reducible repeat' first
    | assumption | intro _ | refine State.tblWrite0_keeps C ?_ | refine State.tblWrite1_keeps C ?_
    | refine State.writeTo_keeps C ?_ ?_ | refine iteS ?_ ?_

theorem State.badHandle_keeps (C : Closed P) {s : State} {c : Core} {a : Nat} (h0 : P s) :
    P (State.badHandle s c a) := by
  unfold State.badHandle
  with_reducible repeat' first
    | assumption | refine State.count_keeps C ?_ | refine iteS ?_ ?_

theorem State.fextEng_keeps (C : Closed P) {s : State} {c : Core} {d a o n : Nat} {ue : Bool} (h0 : P s) :
    P (State.fextEng s c d a o n ue).2 := by
  unfold State.fextEng
  with_reducible repeat' first
    | assumption | refine State.badHandle_keeps C ?_ | refine State.setG_keeps C ?_
    | (fail_if_no_progress (extract_lets +onlyGivenNames x)) | split

theorem State.fextCell_keeps (C : Closed P) {s : State} {c : Core} {k d a o n : Nat} (h0 : P s) :
    P (State.fextCell s c k d a o n).2 := by
  unfold State.fextCell
  with_reducible repeat' first
    | assumption
    | (fail_if_no_progress (extract_lets +onlyGivenNames x); refine cutS (P := P) (x := x) ?_ (fun hx => ?_);
       (on_goal 1 => (unfold x; try clear x)); (on_goal 2 => clear_value x))
    | refine State.progFault_keeps C ?_ | refine State.setG_keeps C ?_ | refine State.setTrack_keeps C ?_
    | refine iteS ?_ ?_ | (fail_if_no_progress (extract_lets +onlyGivenNames x)) | split

theorem State.tzFext_keeps (C : Closed P) {x : Issue} {ue : Bool} {i : IIns} {s : State} (h0 : P s) :
    P (State.tzFext x ue i s) := by
  unfold State.tzFext
  with_reducible repeat' first
    | assumption | intro _ | refine State.fextCell_keeps C ?_ | refine State.fextEng_keeps C ?_
    | refine State.issue_keeps C ?_ ?_ | split

theorem execFext_keeps (C : Closed P) {x : Issue} {ue : Bool} {i : IIns} {s : State} (h0 : P s) :
    OkP P (execFext x ue i s) := by
  unfold execFext
  with_reducible refine okS ?_
  with_reducible repeat' first
    | assumption | refine State.tzFext_keeps C ?_

theorem State.tzFins_keeps (C : Closed P) {x : Issue} {i : IIns} {s : State} (h0 : P s) : P (State.tzFins x i s) := by
  unfold State.tzFins
  with_reducible repeat' first
    | assumption | intro _ | refine State.badHandle_keeps C ?_ | refine State.issue_keeps C ?_ ?_
    | refine State.progFault_keeps C ?_ | refine State.setFrameBytes_keeps C ?_ | refine State.setTrack_keeps C ?_
    | (fail_if_no_progress (extract_lets +onlyGivenNames x)) | split

theorem execFins_keeps (C : Closed P) {x : Issue} {i : IIns} {s : State} (h0 : P s) : OkP P (execFins x i s) := by
  unfold execFins
  with_reducible refine okS ?_
  with_reducible repeat' first
    | assumption | refine State.tzFins_keeps C ?_

theorem State.tzFcsum_keeps (C : Closed P) {x : Issue} {f : Nat} {i : RIns} {s : State} (h0 : P s) :
    P (State.tzFcsum x f i s) := by
  unfold State.tzFcsum
  with_reducible repeat' first
    | assumption | intro _ | refine State.issue_keeps C ?_ ?_ | refine State.setG_keeps C ?_

theorem execFcsum_keeps (C : Closed P) {x : Issue} {f : Fin 128} {i : RIns} {s : State} (h0 : P s) :
    OkP P (execFcsum x f i s) := by
  unfold execFcsum
  with_reducible refine okS ?_
  with_reducible repeat' first
    | assumption | refine State.tzFcsum_keeps C ?_

theorem State.cfSat_keeps (C : Closed P) {s : State} {v : Int} {loc : Nat} (h0 : P s) : P (State.cfSat s v loc).2 := by
  unfold State.cfSat
  with_reducible repeat' first
    | assumption | refine State.count_keeps C ?_ | refine State.raise_keeps C ?_ | split

theorem State.fcfaddEng_keeps (C : Closed P) {s : State} {c : Core} {l4 d a b : Nat} (h0 : P s) :
    P (State.fcfaddEng s c l4 d a b).2 := by
  unfold State.fcfaddEng
  with_reducible repeat' first
    | assumption | refine State.badHandle_keeps C ?_ | refine State.cfSat_keeps C ?_
    | refine State.setFrameBytes_keeps C ?_ | refine State.setG_keeps C ?_
    | (fail_if_no_progress (extract_lets +onlyGivenNames x)) | split

theorem State.fcfaddCell_keeps (C : Closed P) {s : State} {c : Core} {k l4 d a b : Nat} (h0 : P s) :
    P (State.fcfaddCell s c k l4 d a b).2 := by
  unfold State.fcfaddCell
  with_reducible repeat' first
    | assumption | refine State.cfSat_keeps C ?_ | refine State.progFault_keeps C ?_ | refine State.setG_keeps C ?_
    | refine State.setTrack_keeps C ?_ | (fail_if_no_progress (extract_lets +onlyGivenNames x)) | split

theorem State.tzFcfadd_keeps (C : Closed P) {x : Issue} {f : Nat} {i : RIns} {s : State} (h0 : P s) :
    P (State.tzFcfadd x f i s) := by
  unfold State.tzFcfadd
  with_reducible repeat' first
    | assumption | intro _ | refine State.fcfaddCell_keeps C ?_ | refine State.fcfaddEng_keeps C ?_
    | refine State.issue_keeps C ?_ ?_ | split

theorem execFcfadd_keeps (C : Closed P) {x : Issue} {f : Fin 128} {i : RIns} {s : State} (h0 : P s) :
    OkP P (execFcfadd x f i s) := by
  unfold execFcfadd
  with_reducible refine okS ?_
  with_reducible repeat' first
    | assumption | refine State.tzFcfadd_keeps C ?_

theorem State.tzMdld_keeps (C : Closed P) {x : Issue} {i : IIns} {s : State} (h0 : P s) : P (State.tzMdld x i s) := by
  unfold State.tzMdld
  with_reducible repeat' first
    | assumption | intro _ | refine State.issue_keeps C ?_ ?_ | refine State.progFault_keeps C ?_
    | refine State.setG_keeps C ?_ | split

theorem execMdld_keeps (C : Closed P) {x : Issue} {i : IIns} {s : State} (h0 : P s) : OkP P (execMdld x i s) := by
  unfold execMdld
  with_reducible refine okS ?_
  with_reducible repeat' first
    | assumption | refine State.tzMdld_keeps C ?_

theorem State.tzMdst_keeps (C : Closed P) {x : Issue} {i : IIns} {s : State} (h0 : P s) : P (State.tzMdst x i s) := by
  unfold State.tzMdst
  with_reducible repeat' first
    | assumption | intro _ | refine State.issue_keeps C ?_ ?_ | refine State.progFault_keeps C ?_
    | refine State.setTrack_keeps C ?_ | (fail_if_no_progress (extract_lets +onlyGivenNames x)) | split

theorem execMdst_keeps (C : Closed P) {x : Issue} {i : IIns} {s : State} (h0 : P s) : OkP P (execMdst x i s) := by
  unfold execMdst
  with_reducible refine okS ?_
  with_reducible repeat' first
    | assumption | refine State.tzMdst_keeps C ?_

theorem State.tzFwin_keeps (C : Closed P) {x : Issue} {i : IIns} {s : State} (h0 : P s) : P (State.tzFwin x i s) := by
  unfold State.tzFwin
  with_reducible repeat' first
    | assumption | intro _ | refine State.issue_keeps C ?_ ?_ | refine State.progFault_keeps C ?_
    | refine State.setTrack_keeps C ?_ | (fail_if_no_progress (extract_lets +onlyGivenNames x)) | split

theorem execFwin_keeps (C : Closed P) {x : Issue} {i : IIns} {s : State} (h0 : P s) : OkP P (execFwin x i s) := by
  unfold execFwin
  with_reducible refine okS ?_
  with_reducible repeat' first
    | assumption | refine State.tzFwin_keeps C ?_

theorem State.tzLk_keeps (C : Closed P) {x : Issue} {kind : Nat} {i : IIns} {s : State} (h0 : P s) :
    P (State.tzLk x kind i s) := by
  unfold State.tzLk
  with_reducible repeat' first
    | assumption | intro _ | refine State.issue_keeps C ?_ ?_ | refine State.look_keeps C ?_
    | refine State.progFault_keeps C ?_ | refine C.setTr _ _ _ ?_ | refine State.setTrack_keeps C ?_
    | (fail_if_no_progress (extract_lets +onlyGivenNames x)) | split

theorem execLkx_keeps (C : Closed P) {x : Issue} {i : IIns} {s : State} (h0 : P s) : OkP P (execLkx x i s) := by
  unfold execLkx
  with_reducible refine okS ?_
  with_reducible repeat' first
    | assumption | refine State.tzLk_keeps C ?_

theorem execLkt_keeps (C : Closed P) {x : Issue} {i : IIns} {s : State} (h0 : P s) : OkP P (execLkt x i s) := by
  unfold execLkt
  with_reducible refine okS ?_
  with_reducible repeat' first
    | assumption | refine State.tzLk_keeps C ?_

theorem State.tzLkres_keeps (C : Closed P) {x : Issue} {i : IIns} {s : State} (h0 : P s) : P (State.tzLkres x i s) := by
  unfold State.tzLkres
  with_reducible repeat' first
    | assumption | intro _ | refine State.issue_keeps C ?_ ?_ | refine State.progFault_keeps C ?_
    | refine State.setG_keeps C ?_ | refine State.setP_keeps C ?_ | refine iteS ?_ ?_
    | (fail_if_no_progress (extract_lets +onlyGivenNames x)) | split

theorem execLkres_keeps (C : Closed P) {x : Issue} {i : IIns} {s : State} (h0 : P s) : OkP P (execLkres x i s) := by
  unfold execLkres
  with_reducible refine okS ?_
  with_reducible repeat' first
    | assumption | refine State.tzLkres_keeps C ?_

theorem State.tzLkupd_keeps (C : Closed P) {x : Issue} {f : Nat} {i : RIns} {s : State} (h0 : P s) :
    P (State.tzLkupd x f i s) := by
  unfold State.tzLkupd
  with_reducible repeat' first
    | assumption | intro _
    | (fail_if_no_progress (extract_lets +onlyGivenNames x); refine cutS (P := P) (x := x) ?_ (fun hx => ?_);
       (on_goal 1 => (unfold x; try clear x)); (on_goal 2 => clear_value x))
    | refine State.issue_keeps C ?_ ?_ | refine State.lkRun_keeps C ?_ | refine State.setG_keeps C ?_
    | refine State.wrMem_keeps C ?_ | refine iteS ?_ ?_ | (fail_if_no_progress (extract_lets +onlyGivenNames x))
    | split

theorem execLkupd_keeps (C : Closed P) {x : Issue} {f : Fin 128} {i : RIns} {s : State} (h0 : P s) :
    OkP P (execLkupd x f i s) := by
  unfold execLkupd
  with_reducible refine okS ?_
  with_reducible repeat' first
    | assumption | refine State.tzLkupd_keeps C ?_

theorem State.chkSync_keeps (C : Closed P) {s : State} {pr : Nat} (h0 : P s) : P (State.chkSync s pr) := by
  unfold State.chkSync
  with_reducible repeat' first
    | assumption | refine C.wr _ _ _ ?_

theorem State.progWrite_keeps (C : Closed P) {s : State} {r : Req} {c : Nat} {eg bankB : Bool} {k w : Nat} (h0 : P s) :
    P (State.progWrite s r c eg bankB k w) := by
  unfold State.progWrite
  with_reducible repeat' first
    | assumption | refine State.chkSync_keeps C ?_ | refine C.wr _ _ _ ?_ | refine iteS ?_ ?_

theorem execProgramWordWrite_keeps (C : Closed P) {r : Req} {c : Fin 96} {eg bankB : Bool} {k : Fin 24}
    {w : BitVec 32} {s : State} (h0 : P s) :
    OkP P (execProgramWordWrite r c eg bankB k w s) := by
  unfold execProgramWordWrite
  with_reducible refine okS ?_
  with_reducible repeat' first
    | assumption | intro _ | refine State.progWrite_keeps C ?_ | refine State.writeTo_keeps C ?_ ?_

theorem State.cellWord_keeps (C : Closed P) {s : State} {c : Fin 96} {eg : Bool} {w : Nat} (h0 : P s) :
    P (State.cellWord s c eg w) := by
  unfold State.cellWord
  with_reducible repeat' first
    | assumption | refine State.progFault_keeps C ?_ | refine State.tzAlu_keeps C ?_ | refine State.tzAluI_keeps C ?_
    | refine State.tzBf_keeps C ?_ | refine State.tzCmp_keeps C ?_ | refine State.tzCmpi_keeps C ?_
    | refine State.tzEvraise_keeps C ?_ | refine State.tzFcfadd_keeps C ?_ | refine State.tzFcsum_keeps C ?_
    | refine State.tzFext_keeps C ?_ | refine State.tzFins_keeps C ?_ | refine State.tzFwin_keeps C ?_
    | refine State.tzLk_keeps C ?_ | refine State.tzLkres_keeps C ?_ | refine State.tzLui_keeps C ?_
    | refine State.tzMdld_keeps C ?_ | refine State.tzMdst_keeps C ?_ | refine State.tzPmov_keeps C ?_
    | refine State.tzPred_keeps C ?_ | refine State.tzShiftI_keeps C ?_ | refine State.tzTadd_keeps C ?_
    | refine State.tzTcmp_keeps C ?_ | refine State.tzTmov_keeps C ?_ | refine State.tzTnow_keeps C ?_
    | refine State.tzTset_keeps C ?_ | refine State.tzTsub_keeps C ?_ | refine iteS ?_ ?_

theorem State.cellProg_keeps (C : Closed P) {s : State} {c : Fin 96} {eg : Bool} {n : Nat} {l : List Nat} (h0 : P s) :
    P (State.cellProg s c eg n l) := by
  induction l generalizing s n with
  | nil => cases n <;> exact h0
  | cons w t ih =>
    cases n with
    | succ n => exact ih h0
    | zero =>
      unfold State.cellProg
      split
      · exact ih h0
      · exact ih (State.cellWord_keeps C h0)

theorem State.clearCell_keeps (C : Closed P) {s : State} {c : Fin 96} {eg : Bool} (h0 : P s) :
    P (State.clearCell s c eg) := by
  unfold State.clearCell
  with_reducible repeat' first
    | assumption | (fail_if_no_progress refine C.tregF _ ?_)

theorem State.stage_keeps (C : Closed P) {s : State} {c : Fin 96} {eg : Bool} {t : Track} (h0 : P s) :
    P (State.stage s c eg t).2 := by
  unfold State.stage
  with_reducible repeat' first
    | assumption | refine State.cellProg_keeps C ?_ | refine State.clearCell_keeps C ?_
    | refine State.setTrack_keeps C ?_

theorem State.pipeline_keeps (C : Closed P) {s : State} {pr : Nat} {eg : Bool} {t : Track} (h0 : P s) :
    P (State.pipeline s pr eg t).2 := by
  unfold State.pipeline
  with_reducible repeat' first
    | assumption | intro _ | refine State.stage_keeps C ?_ | refine foldP ?_ ?_

end Sys2Proof.Machine
end

