-- ==== Sys2Proof/Laws/KeepsLink.lean ====
section
/-! SUPPORT. Links, lanes, gates, stamps and offers: what each definition hands on keeps every property the primitive updates keep. -/

namespace Sys2Proof.Machine

variable {P : State → Prop}

theorem State.modelAsym_keeps (C : Closed P) {s : State} {p : Nat} (h0 : P s) : P (State.modelAsym s p) := by
  unfold State.modelAsym
  with_reducible repeat' first
    | assumption | refine C.wr _ _ _ ?_ | refine State.wrS_keeps C ?_ | refine iteS ?_ ?_

theorem State.modelFollow_keeps (C : Closed P) {s : State} {p : Nat} (h0 : P s) : P (State.modelFollow s p) := by
  unfold State.modelFollow
  with_reducible repeat' first
    | assumption | refine State.modelAsym_keeps C ?_ | refine iteS ?_ ?_

theorem State.dlyInvalid_keeps (C : Closed P) {s : State} {p cause : Nat} (h0 : P s) :
    P (State.dlyInvalid s p cause) := by
  unfold State.dlyInvalid
  with_reducible repeat' first
    | assumption | refine State.modelFollow_keeps C ?_ | refine State.raiseP_keeps C ?_ | refine C.setH _ _ _ ?_
    | refine State.setRts_keeps C ?_ | refine C.wr _ _ _ ?_ | refine iteS ?_ ?_

theorem State.dlyValid_keeps (C : Closed P) {s : State} {p : Nat} (h0 : P s) : P (State.dlyValid s p) := by
  unfold State.dlyValid
  with_reducible repeat' first
    | assumption | refine State.raiseP_keeps C ?_ | refine C.wr _ _ _ ?_ | refine iteS ?_ ?_

theorem State.calPut_keeps (C : Closed P) {s : State} {n : Nat} {t : Int} {lo hi : Nat} {deg extrap : Bool} (h0 : P s) :
    P (State.calPut s n t lo hi deg extrap) := by
  unfold State.calPut
  with_reducible repeat' first
    | assumption
    | (fail_if_no_progress (extract_lets +onlyGivenNames x); refine cutS (P := P) (x := x) ?_ (fun hx => ?_);
       (on_goal 1 => (unfold x; try clear x)); (on_goal 2 => clear_value x))
    | refine C.wr _ _ _ ?_

theorem State.calEval_keeps (C : Closed P) {s : State} {n : Nat} (h0 : P s) : P (State.calEval s n) := by
  unfold State.calEval
  with_reducible repeat' first
    | assumption
    | (fail_if_no_progress (extract_lets +onlyGivenNames x); refine cutS (P := P) (x := x) ?_ (fun hx => ?_);
       (on_goal 1 => (unfold x; try clear x)); (on_goal 2 => clear_value x))
    | refine State.calPut_keeps C ?_ | refine State.dlyInvalid_keeps C ?_ | refine C.setH _ _ _ ?_
    | refine C.wr _ _ _ ?_ | refine State.wrS_keeps C ?_ | refine iteS ?_ ?_
    | (fail_if_no_progress (extract_lets +onlyGivenNames x)) | (clear_value *; split)

theorem State.checkStart_keeps (C : Closed P) {s : State} {p : Nat} (h0 : P s) : P (State.checkStart s p) := by
  unfold State.checkStart
  with_reducible repeat' first
    | assumption | refine C.setH _ _ _ ?_ | refine C.wr _ _ _ ?_

theorem State.autoCheck_keeps (C : Closed P) {s : State} {p : Nat} (h0 : P s) : P (State.autoCheck s p) := by
  unfold State.autoCheck
  with_reducible repeat' first
    | assumption | refine State.checkStart_keeps C ?_ | refine iteS ?_ ?_

theorem State.wghFree_keeps (C : Closed P) {s : State} (h0 : P s) : P (State.wghFree s) := by
  unfold State.wghFree
  with_reducible repeat' first
    | assumption | refine C.wr _ _ _ ?_ | refine iteS ?_ ?_

theorem State.survFail_keeps (C : Closed P) {s : State} {err : Nat} (h0 : P s) : P (State.survFail s err) := by
  unfold State.survFail
  with_reducible repeat' first
    | assumption
    | (fail_if_no_progress (extract_lets +onlyGivenNames x); refine cutS (P := P) (x := x) ?_ (fun hx => ?_);
       (on_goal 1 => (unfold x; try clear x)); (on_goal 2 => clear_value x))
    | refine State.raiseP_keeps C ?_ | refine C.setH _ _ _ ?_ | refine State.wghFree_keeps C ?_ | refine C.wr _ _ _ ?_

theorem State.survLinkDown_keeps (C : Closed P) {s : State} {p : Nat} (h0 : P s) : P (State.survLinkDown s p) := by
  unfold State.survLinkDown
  with_reducible repeat' first
    | assumption
    | (fail_if_no_progress (extract_lets +onlyGivenNames x); refine cutS (P := P) (x := x) ?_ (fun hx => ?_);
       (on_goal 1 => (unfold x; try clear x)); (on_goal 2 => clear_value x))
    | refine C.setH _ _ _ ?_ | refine State.survFail_keeps C ?_ | refine iteS ?_ ?_

theorem State.holdStart_keeps (C : Closed P) {s : State} {p : Nat} (h0 : P s) : P (State.holdStart s p) := by
  unfold State.holdStart
  with_reducible repeat' first
    | assumption | refine C.setH _ _ _ ?_

theorem State.holdStop_keeps (C : Closed P) {s : State} {p : Nat} (h0 : P s) : P (State.holdStop s p) := by
  unfold State.holdStop
  with_reducible repeat' first
    | assumption | refine C.setH _ _ _ ?_

theorem State.portUp_keeps (C : Closed P) {s : State} {p : Nat} (h0 : P s) : P (State.portUp s p) := by
  unfold State.portUp
  with_reducible repeat' first
    | assumption | refine State.autoCheck_keeps C ?_ | refine State.holdStop_keeps C ?_
    | refine State.raiseP_keeps C ?_ | refine C.wr _ _ _ ?_

theorem State.txSync_keeps (C : Closed P) {s : State} {n : Nat} (h0 : P s) : P (State.txSync s n) := by
  unfold State.txSync
  with_reducible repeat' first
    | assumption | refine C.wr _ _ _ ?_

theorem State.laneApply_keeps (C : Closed P) {s : State} {n : Nat} (h0 : P s) : P (State.laneApply s n) := by
  unfold State.laneApply
  with_reducible repeat' first
    | assumption | refine State.calEval_keeps C ?_ | refine State.txSync_keeps C ?_ | refine C.wr _ _ _ ?_
    | refine State.wrAll_keeps C ?_ | refine iteS ?_ ?_

theorem State.modeStart_keeps (C : Closed P) {s : State} {p : Nat} (h0 : P s) : P (State.modeStart s p) := by
  unfold State.modeStart
  with_reducible repeat' first
    | assumption | intro _ | refine State.laneApply_keeps C ?_ | refine C.setH _ _ _ ?_ | refine foldS ?_ ?_
    | refine iteS ?_ ?_

theorem State.drainDone_keeps (C : Closed P) {s : State} {p : Nat} (h0 : P s) : P (State.drainDone s p) := by
  unfold State.drainDone
  with_reducible repeat' first
    | assumption
    | (fail_if_no_progress (extract_lets +onlyGivenNames x); refine cutS (P := P) (x := x) ?_ (fun hx => ?_);
       (on_goal 1 => (unfold x; try clear x)); (on_goal 2 => clear_value x))
    | refine State.holdStop_keeps C ?_ | refine State.modeStart_keeps C ?_ | refine State.portUp_keeps C ?_
    | refine State.raiseP_keeps C ?_ | refine C.wr _ _ _ ?_ | refine iteS ?_ ?_

theorem State.truncate_keeps (C : Closed P) {s : State} {p : Nat} (h0 : P s) : P (State.truncate s p) := by
  unfold State.truncate
  with_reducible repeat' first
    | assumption | refine State.count_keeps C ?_ | refine State.stompTx_keeps C ?_ | split

theorem State.drainStart_keeps (C : Closed P) {s : State} {p : Nat} (h0 : P s) : P (State.drainStart s p) := by
  unfold State.drainStart
  with_reducible repeat' first
    | assumption
    | (fail_if_no_progress (extract_lets +onlyGivenNames x); refine cutS (P := P) (x := x) ?_ (fun hx => ?_);
       (on_goal 1 => (unfold x; try clear x)); (on_goal 2 => clear_value x))
    | refine State.dlyInvalid_keeps C ?_ | refine State.drainDone_keeps C ?_ | refine State.failRx_keeps C ?_
    | refine C.setH _ _ _ ?_ | refine State.survLinkDown_keeps C ?_ | refine State.truncate_keeps C ?_
    | refine C.wr _ _ _ ?_ | refine iteS ?_ ?_

theorem State.linkDown_keeps (C : Closed P) {s : State} {p : Nat} {lock : Bool} (h0 : P s) :
    P (State.linkDown s p lock) := by
  unfold State.linkDown
  with_reducible repeat' first
    | assumption
    | (fail_if_no_progress (extract_lets +onlyGivenNames x); refine cutS (P := P) (x := x) ?_ (fun hx => ?_);
       (on_goal 1 => (unfold x; try clear x)); (on_goal 2 => clear_value x))
    | refine State.drainStart_keeps C ?_ | refine State.failRx_keeps C ?_ | refine State.holdStop_keeps C ?_
    | refine State.raiseP_keeps C ?_ | refine State.survLinkDown_keeps C ?_ | refine C.wr _ _ _ ?_
    | refine State.wrAll_keeps C ?_ | refine iteS ?_ ?_

theorem execLinkDown_keeps (C : Closed P) {p : Fin 72} {lock : Bool} {s : State} (h0 : P s) :
    OkP P (execLinkDown p lock s) := by
  unfold execLinkDown
  with_reducible refine okS ?_
  with_reducible repeat' first
    | assumption | intro _ | refine State.inUnit_keeps C ?_ ?_ | refine State.linkDown_keeps C ?_
    | refine State.when_keeps C ?_ ?_

theorem State.linkRise_keeps (C : Closed P) {s : State} {p : Nat} (h0 : P s) : P (State.linkRise s p) := by
  unfold State.linkRise
  with_reducible repeat' first
    | assumption | intro _
    | (fail_if_no_progress (extract_lets +onlyGivenNames x); refine cutS (P := P) (x := x) ?_ (fun hx => ?_);
       (on_goal 1 => (unfold x; try clear x)); (on_goal 2 => clear_value x))
    | refine State.holdStart_keeps C ?_ | refine C.nextFree ?_ | refine C.setH _ _ _ ?_ | refine C.wr _ _ _ ?_
    | refine foldS ?_ ?_ | refine iteS ?_ ?_

theorem execLinkUp_keeps (C : Closed P) {p : Fin 72} {s : State} (h0 : P s) : OkP P (execLinkUp p s) := by
  unfold execLinkUp
  with_reducible refine okS ?_
  with_reducible repeat' first
    | assumption | intro _ | refine State.inUnit_keeps C ?_ ?_ | refine State.linkRise_keeps C ?_
    | refine State.when_keeps C ?_ ?_

theorem State.holdExpire_keeps (C : Closed P) {s : State} {p : Nat} (h0 : P s) : P (State.holdExpire s p) := by
  unfold State.holdExpire
  with_reducible repeat' first
    | assumption
    | (fail_if_no_progress (extract_lets +onlyGivenNames x); refine cutS (P := P) (x := x) ?_ (fun hx => ?_);
       (on_goal 1 => (unfold x; try clear x)); (on_goal 2 => clear_value x))
    | refine State.passAge_keeps C ?_ | refine State.portUp_keeps C ?_ | refine C.setH _ _ _ ?_ | refine iteS ?_ ?_

theorem execHoldoffExpiry_keeps (C : Closed P) {p : Fin 72} {s : State} (h0 : P s) : OkP P (execHoldoffExpiry p s) := by
  unfold execHoldoffExpiry
  with_reducible refine okS ?_
  with_reducible repeat' first
    | assumption | intro _ | refine State.holdExpire_keeps C ?_ | refine State.inUnit_keeps C ?_ ?_

theorem State.portEnWrite_keeps (C : Closed P) {s : State} {p : Nat} {v : Bool} (h0 : P s) :
    P (State.portEnWrite s p v) := by
  unfold State.portEnWrite
  with_reducible repeat' first
    | assumption
    | (fail_if_no_progress (extract_lets +onlyGivenNames x); refine cutS (P := P) (x := x) ?_ (fun hx => ?_);
       (on_goal 1 => (unfold x; try clear x)); (on_goal 2 => clear_value x))
    | refine State.drainStart_keeps C ?_ | refine State.holdStart_keeps C ?_ | refine State.holdStop_keeps C ?_
    | refine C.wr _ _ _ ?_ | refine iteS ?_ ?_

theorem execPortEnWrite_keeps (C : Closed P) {r : Req} {p : Fin 72} {v : Bool} {s : State} (h0 : P s) :
    OkP P (execPortEnWrite r p v s) := by
  unfold execPortEnWrite
  with_reducible refine okS ?_
  with_reducible repeat' first
    | assumption | intro _ | refine State.portEnWrite_keeps C ?_ | refine State.writeTo_keeps C ?_ ?_

theorem State.flushOne_keeps (C : Closed P) {s : State} {p : Nat} (h0 : P s) : P (State.flushOne s p) := by
  unfold State.flushOne
  with_reducible repeat' first
    | assumption
    | (fail_if_no_progress (extract_lets +onlyGivenNames x); refine cutS (P := P) (x := x) ?_ (fun hx => ?_);
       (on_goal 1 => (unfold x; try clear x)); (on_goal 2 => clear_value x))
    | refine State.drainDone_keeps C ?_ | refine State.drop1_keeps C ?_ | refine State.setQueue_keeps C ?_
    | refine iteS ?_ ?_ | split

theorem execFlushStep_keeps (C : Closed P) {sl : Fin 8} {s : State} (h0 : P s) : OkP P (execFlushStep sl s) := by
  unfold execFlushStep
  with_reducible refine okS ?_
  with_reducible repeat' first
    | assumption | intro _ | refine State.flushOne_keeps C ?_ | refine State.inDom_keeps C ?_ ?_
    | refine C.setH _ _ _ ?_ | split

theorem State.modeRefused_keeps (C : Closed P) {s : State} {n : Nat} (h0 : P s) : P (State.modeRefused s n) := by
  unfold State.modeRefused
  with_reducible repeat' first
    | assumption | refine State.raiseP_keeps C ?_ | refine C.wr _ _ _ ?_

theorem State.pllCheck_keeps (C : Closed P) {s : State} {q : Nat} (h0 : P s) : P (State.pllCheck s q) := by
  unfold State.pllCheck
  with_reducible repeat' first
    | assumption | refine C.wr _ _ _ ?_ | refine iteS ?_ ?_

theorem State.twinModeSet_keeps (C : Closed P) {s : State} {n m : Nat} (h0 : P s) : P (State.twinModeSet s n m) := by
  unfold State.twinModeSet
  with_reducible repeat' first
    | assumption
    | (fail_if_no_progress (extract_lets +onlyGivenNames x); refine cutS (P := P) (x := x) ?_ (fun hx => ?_);
       (on_goal 1 => (unfold x; try clear x)); (on_goal 2 => clear_value x))
    | refine C.setH _ _ _ ?_ | refine C.wr _ _ _ ?_ | refine State.wrAll_keeps C ?_ | refine iteS ?_ ?_

theorem State.setMembers_keeps (C : Closed P) {s : State} {n m : Nat} (h0 : P s) : P (State.setMembers s n m) := by
  unfold State.setMembers
  with_reducible repeat' first
    | assumption | intro _ | refine C.setH _ _ _ ?_ | refine C.wr _ _ _ ?_ | refine foldS ?_ ?_

theorem State.modeSet_keeps (C : Closed P) {s : State} {n m fec : Nat} {medium : Bool} (h0 : P s) :
    P (State.modeSet s n m fec medium) := by
  unfold State.modeSet
  with_reducible repeat' first
    | assumption | intro _
    | (fail_if_no_progress (extract_lets +onlyGivenNames x); refine cutS (P := P) (x := x) ?_ (fun hx => ?_);
       (on_goal 1 => (unfold x; try clear x)); (on_goal 2 => clear_value x))
    | refine State.dlyInvalid_keeps C ?_ | refine State.laneApply_keeps C ?_ | refine State.linkDown_keeps C ?_
    | refine State.pllCheck_keeps C ?_ | refine C.setH _ _ _ ?_ | refine State.setMembers_keeps C ?_
    | refine State.twinModeSet_keeps C ?_ | refine C.wr _ _ _ ?_ | refine foldS ?_ ?_ | refine iteS ?_ ?_

theorem State.modeWrite_keeps (C : Closed P) {s : State} {n m fec : Nat} {medium : Bool} (h0 : P s) :
    P (State.modeWrite s n m fec medium) := by
  unfold State.modeWrite
  with_reducible repeat' first
    | assumption | refine State.modeRefused_keeps C ?_ | refine State.modeSet_keeps C ?_ | refine C.wr _ _ _ ?_
    | refine iteS ?_ ?_

theorem execLaneModeWrite_keeps (C : Closed P) {r : Req} {n : Fin 74} {mode : Fin 16} {fec : Fin 4} {medium : Bool}
    {s : State} (h0 : P s) :
    OkP P (execLaneModeWrite r n mode fec medium s) := by
  unfold execLaneModeWrite
  with_reducible refine okS ?_
  with_reducible repeat' first
    | assumption | intro _ | refine State.modeWrite_keeps C ?_ | refine State.writeTo_keeps C ?_ ?_

theorem State.txeqWrite_keeps (C : Closed P) {s : State} {n v : Nat} (h0 : P s) : P (State.txeqWrite s n v) := by
  unfold State.txeqWrite
  with_reducible repeat' first
    | assumption | intro _ | refine C.wr _ _ _ ?_ | refine foldS ?_ ?_ | refine iteS ?_ ?_

theorem execLaneTxeqWrite_keeps (C : Closed P) {r : Req} {n : Fin 74} {v : BitVec 64} {s : State} (h0 : P s) :
    OkP P (execLaneTxeqWrite r n v s) := by
  unfold execLaneTxeqWrite
  with_reducible refine okS ?_
  with_reducible repeat' first
    | assumption | intro _ | refine State.holdClear_keeps C ?_ | refine State.txeqWrite_keeps C ?_
    | refine State.writeTo_keeps C ?_ ?_

theorem State.rawWrite_keeps (C : Closed P) {s : State} {n div vco : Nat} (h0 : P s) :
    P (State.rawWrite s n div vco) := by
  unfold State.rawWrite
  with_reducible repeat' first
    | assumption | refine C.wr _ _ _ ?_ | refine iteS ?_ ?_

theorem execLaneRawWrite_keeps (C : Closed P) {r : Req} {n : Fin 74} {div : Fin 16} {vco : BitVec 20} {s : State}
    (h0 : P s) :
    OkP P (execLaneRawWrite r n div vco s) := by
  unfold execLaneRawWrite
  with_reducible refine okS ?_
  with_reducible repeat' first
    | assumption | intro _ | refine State.rawWrite_keeps C ?_ | refine State.writeTo_keeps C ?_ ?_

theorem State.quadPllWrite_keeps (C : Closed P) {s : State} {q family vco : Nat} (h0 : P s) :
    P (State.quadPllWrite s q family vco) := by
  unfold State.quadPllWrite
  with_reducible repeat' first
    | assumption | refine C.wr _ _ _ ?_ | refine iteS ?_ ?_

theorem execQuadCtlWrite_keeps (C : Closed P) {r : Req} {q : Fin 16} {family : Fin 4} {txRef : Bool}
    {vco : BitVec 20} {s : State} (h0 : P s) :
    OkP P (execQuadCtlWrite r q family txRef vco s) := by
  unfold execQuadCtlWrite
  with_reducible refine okS ?_
  with_reducible repeat' first
    | assumption | intro _ | refine State.quadPllWrite_keeps C ?_ | refine State.shadowSet_keeps C ?_
    | refine State.writeTo_keeps C ?_ ?_

theorem State.pllLocked_keeps (C : Closed P) {s : State} {q : Nat} (h0 : P s) : P (State.pllLocked s q) := by
  unfold State.pllLocked
  with_reducible repeat' first
    | assumption | intro _ | refine State.txSync_keeps C ?_ | refine C.wr _ _ _ ?_ | refine foldS ?_ ?_
    | refine iteS ?_ ?_

theorem execQuadPllLock_keeps (C : Closed P) {q : Fin 16} {s : State} (h0 : P s) : OkP P (execQuadPllLock q s) := by
  unfold execQuadPllLock
  with_reducible refine okS ?_
  with_reducible repeat' first
    | assumption | intro _ | refine State.inUnit_keeps C ?_ ?_ | refine State.pllLocked_keeps C ?_

theorem State.txIdleWrite_keeps (C : Closed P) {s : State} {n : Nat} {v : Bool} (h0 : P s) :
    P (State.txIdleWrite s n v) := by
  unfold State.txIdleWrite
  with_reducible repeat' first
    | assumption | refine State.txSync_keeps C ?_ | refine C.wr _ _ _ ?_

theorem execTxIdleExit_keeps (C : Closed P) {r : Req} {n : Fin 74} {s : State} (h0 : P s) :
    OkP P (execTxIdleExit r n s) := by
  unfold execTxIdleExit
  with_reducible refine okS ?_
  with_reducible repeat' first
    | assumption | intro _ | refine State.txIdleWrite_keeps C ?_ | refine State.writeTo_keeps C ?_ ?_

theorem State.cdrLost_keeps (C : Closed P) {s : State} {n : Nat} (h0 : P s) : P (State.cdrLost s n) := by
  unfold State.cdrLost
  with_reducible repeat' first
    | assumption | refine State.wrAll_keeps C ?_

theorem State.cdrAcquire_keeps (C : Closed P) {s : State} {n : Nat} (h0 : P s) : P (State.cdrAcquire s n) := by
  unfold State.cdrAcquire
  with_reducible repeat' first
    | assumption
    | (fail_if_no_progress (extract_lets +onlyGivenNames x); refine cutS (P := P) (x := x) ?_ (fun hx => ?_);
       (on_goal 1 => (unfold x; try clear x)); (on_goal 2 => clear_value x))
    | refine State.cdrLost_keeps C ?_ | refine C.wr _ _ _ ?_ | refine iteS ?_ ?_

theorem execRxCdrAcquire_keeps (C : Closed P) {n : Fin 74} {s : State} (h0 : P s) : OkP P (execRxCdrAcquire n s) := by
  unfold execRxCdrAcquire
  with_reducible refine okS ?_
  with_reducible repeat' first
    | assumption | intro _ | refine State.cdrAcquire_keeps C ?_ | refine State.inUnit_keeps C ?_ ?_

theorem State.rxIdle_keeps (C : Closed P) {s : State} {n : Nat} (h0 : P s) : P (State.rxIdle s n) := by
  unfold State.rxIdle
  with_reducible repeat' first
    | assumption | refine State.cdrLost_keeps C ?_ | refine C.wr _ _ _ ?_

theorem execReceiverElectricalIdle_keeps (C : Closed P) {n : Fin 74} {s : State} (h0 : P s) :
    OkP P (execReceiverElectricalIdle n s) := by
  unfold execReceiverElectricalIdle
  with_reducible refine okS ?_
  with_reducible repeat' first
    | assumption | intro _ | refine State.inUnit_keeps C ?_ ?_ | refine State.rxIdle_keeps C ?_
    | refine State.when_keeps C ?_ ?_

theorem State.slip_keeps (C : Closed P) {s : State} {n : Nat} (h0 : P s) : P (State.slip s n) := by
  unfold State.slip
  with_reducible repeat' first
    | assumption | refine C.wr _ _ _ ?_ | refine iteS ?_ ?_

theorem execSlip_keeps (C : Closed P) {r : Req} {n : Fin 74} {s : State} (h0 : P s) : OkP P (execSlip r n s) := by
  unfold execSlip
  with_reducible refine okS ?_
  with_reducible repeat' first
    | assumption | intro _ | refine State.slip_keeps C ?_ | refine State.writeTo_keeps C ?_ ?_

theorem State.slipDone_keeps (C : Closed P) {s : State} {n : Nat} (h0 : P s) : P (State.slipDone s n) := by
  unfold State.slipDone
  with_reducible repeat' first
    | assumption | refine C.setH _ _ _ ?_ | refine C.wr _ _ _ ?_

theorem execSlipDone_keeps (C : Closed P) {n : Fin 74} {s : State} (h0 : P s) : OkP P (execSlipDone n s) := by
  unfold execSlipDone
  with_reducible refine okS ?_
  with_reducible repeat' first
    | assumption | intro _ | refine State.inUnit_keeps C ?_ ?_ | refine State.slipDone_keeps C ?_
    | refine State.when_keeps C ?_ ?_

theorem State.putTerms_keeps (C : Closed P) {s : State} {n : Nat} (h0 : P s) : P (State.putTerms s n) := by
  unfold State.putTerms
  with_reducible repeat' first
    | assumption | refine C.wr _ _ _ ?_

theorem State.alignEvent_keeps (C : Closed P) {s : State} {n word gbx fec am : Nat} (h0 : P s) :
    P (State.alignEvent s n word gbx fec am) := by
  unfold State.alignEvent
  with_reducible repeat' first
    | assumption | intro _
    | (fail_if_no_progress (extract_lets +onlyGivenNames x); refine cutS (P := P) (x := x) ?_ (fun hx => ?_);
       (on_goal 1 => (unfold x; try clear x)); (on_goal 2 => clear_value x))
    | refine State.bump_keeps C ?_ | refine State.putTerms_keeps C ?_ | refine State.raiseP_keeps C ?_
    | refine C.wr _ _ _ ?_ | refine foldS ?_ ?_ | refine iteS ?_ ?_

theorem execAlignmentEvent_keeps (C : Closed P) {n : Fin 74} {word gbx : Fin 64} {fec : BitVec 13} {am : BitVec 15}
    {s : State} (h0 : P s) :
    OkP P (execAlignmentEvent n word gbx fec am s) := by
  unfold execAlignmentEvent
  with_reducible refine okS ?_
  with_reducible repeat' first
    | assumption | intro _ | refine State.alignEvent_keeps C ?_ | refine State.inUnit_keeps C ?_ ?_
    | refine State.when_keeps C ?_ ?_

theorem execAnResolved_keeps (C : Closed P) {n : Fin 72} {mode : Fin 16} {s : State} (h0 : P s) :
    OkP P (execAnResolved n mode s) := by
  unfold execAnResolved
  with_reducible refine okS ?_
  with_reducible repeat' first
    | assumption | intro _
    | (fail_if_no_progress (extract_lets +onlyGivenNames x); refine cutS (P := P) (x := x) ?_ (fun hx => ?_);
       (on_goal 1 => (unfold x; try clear x)); (on_goal 2 => clear_value x))
    | refine State.inUnit_keeps C ?_ ?_ | refine State.raiseP_keeps C ?_ | refine State.when_keeps C ?_ ?_
    | refine C.wr _ _ _ ?_ | refine iteS ?_ ?_

theorem execEyeScan_keeps (C : Closed P) {n : Fin 74} {w : Fin 65} {h : Fin 256} {worst : Fin 4} {s : State}
    (h0 : P s) :
    OkP P (execEyeScan n w h worst s) := by
  unfold execEyeScan
  with_reducible refine okS ?_
  with_reducible repeat' first
    | assumption | intro _ | refine State.inUnit_keeps C ?_ ?_ | refine C.setH _ _ _ ?_
    | refine State.when_keeps C ?_ ?_ | refine C.wr _ _ _ ?_

theorem State.twinBase_keeps (C : Closed P) {s : State} {n : Nat} (h0 : P s) : P (State.twinBase s n) := by
  unfold State.twinBase
  with_reducible repeat' first
    | assumption
    | (fail_if_no_progress (extract_lets +onlyGivenNames x); refine cutS (P := P) (x := x) ?_ (fun hx => ?_);
       (on_goal 1 => (unfold x; try clear x)); (on_goal 2 => clear_value x))
    | refine C.setH _ _ _ ?_ | refine State.txSync_keeps C ?_ | refine C.wr _ _ _ ?_

theorem State.offer_keeps (C : Closed P) {s : State} {n rate : Nat} {switch : Bool} {countdown : Nat} (h0 : P s) :
    P (State.offer s n rate switch countdown) := by
  unfold State.offer
  with_reducible repeat' first
    | assumption | refine C.setH _ _ _ ?_ | refine State.txSync_keeps C ?_ | refine C.wr _ _ _ ?_ | refine iteS ?_ ?_

theorem execOfferReceive_keeps (C : Closed P) {t : Fin 2} {rate : Fin 3} {switch : Bool} {countdown : Fin 16}
    {s : State} (h0 : P s) :
    OkP P (execOfferReceive t rate switch countdown s) := by
  unfold execOfferReceive
  with_reducible refine okS ?_
  with_reducible repeat' first
    | assumption | intro _ | refine State.inUnit_keeps C ?_ ?_ | refine State.offer_keeps C ?_

theorem execTwinSwitchLock_keeps (C : Closed P) {t : Fin 2} {s : State} (h0 : P s) :
    OkP P (execTwinSwitchLock t s) := by
  unfold execTwinSwitchLock
  with_reducible refine okS ?_
  with_reducible repeat' first
    | assumption | intro _
    | (fail_if_no_progress (extract_lets +onlyGivenNames x); refine cutS (P := P) (x := x) ?_ (fun hx => ?_);
       (on_goal 1 => (unfold x; try clear x)); (on_goal 2 => clear_value x))
    | refine State.inUnit_keeps C ?_ ?_ | refine State.txSync_keeps C ?_ | refine State.when_keeps C ?_ ?_
    | refine C.wr _ _ _ ?_

theorem State.twinFail_keeps (C : Closed P) {s : State} {n rate : Nat} (h0 : P s) : P (State.twinFail s n rate) := by
  unfold State.twinFail
  with_reducible repeat' first
    | assumption | refine State.count_keeps C ?_ | refine iteS ?_ ?_

theorem execTwinSwitchTimeout_keeps (C : Closed P) {t : Fin 2} {s : State} (h0 : P s) :
    OkP P (execTwinSwitchTimeout t s) := by
  unfold execTwinSwitchTimeout
  with_reducible refine okS ?_
  with_reducible repeat' first
    | assumption | intro _ | refine State.inUnit_keeps C ?_ ?_ | refine State.raise_keeps C ?_
    | refine State.twinBase_keeps C ?_ | refine State.twinFail_keeps C ?_ | refine State.when_keeps C ?_ ?_

theorem execTwinLockLoss_keeps (C : Closed P) {t : Fin 2} {s : State} (h0 : P s) : OkP P (execTwinLockLoss t s) := by
  unfold execTwinLockLoss
  with_reducible refine okS ?_
  with_reducible repeat' first
    | assumption | intro _ | refine State.inUnit_keeps C ?_ ?_ | refine State.raise_keeps C ?_
    | refine State.twinBase_keeps C ?_ | refine State.when_keeps C ?_ ?_

theorem State.skip_keeps (C : Closed P) {s : State} {n fill : Nat} {slip : Bool} (h0 : P s) :
    P (State.skip s n fill slip) := by
  unfold State.skip
  with_reducible repeat' first
    | assumption
    | (fail_if_no_progress (extract_lets +onlyGivenNames x); refine cutS (P := P) (x := x) ?_ (fun hx => ?_);
       (on_goal 1 => (unfold x; try clear x)); (on_goal 2 => clear_value x))
    | refine State.count_keeps C ?_ | refine State.raise_keeps C ?_ | refine iteS ?_ ?_

theorem execSkipBlockReceive_keeps (C : Closed P) {t : Fin 2} {fill : Fin 17} {slip : Bool} {s : State} (h0 : P s) :
    OkP P (execSkipBlockReceive t fill slip s) := by
  unfold execSkipBlockReceive
  with_reducible refine okS ?_
  with_reducible repeat' first
    | assumption | intro _ | refine State.inUnit_keeps C ?_ ?_ | refine State.skip_keeps C ?_
    | refine State.when_keeps C ?_ ?_

theorem State.modGo_keeps (C : Closed P) {s : State} {m len : Nat} {write : Bool} (h0 : P s) :
    P (State.modGo s m len write) := by
  unfold State.modGo
  with_reducible repeat' first
    | assumption
    | (fail_if_no_progress (extract_lets +onlyGivenNames x); refine cutS (P := P) (x := x) ?_ (fun hx => ?_);
       (on_goal 1 => (unfold x; try clear x)); (on_goal 2 => clear_value x))
    | refine C.wr _ _ _ ?_ | refine iteS ?_ ?_

theorem execModuleGo_keeps (C : Closed P) {r : Req} {m : Fin 8} {len : BitVec 8} {write : Bool} {s : State} (h0 : P s) :
    OkP P (execModuleGo r m len write s) := by
  unfold execModuleGo
  with_reducible refine okS ?_
  with_reducible repeat' first
    | assumption | intro _ | refine State.modGo_keeps C ?_ | refine State.writeTo_keeps C ?_ ?_

theorem State.modIdle_keeps (C : Closed P) {s : State} {m : Nat} (h0 : P s) : P (State.modIdle s m) := by
  unfold State.modIdle
  with_reducible repeat' first
    | assumption | refine C.wr _ _ _ ?_

theorem State.modBuf_keeps (C : Closed P) {s : State} {m k : Nat} {l : List Byte} (h0 : P s) :
    P (State.modBuf s m k l) := by
  induction l generalizing s k with
  | nil => exact h0
  | cons b t ih => exact ih (C.wr _ _ _ h0)

theorem State.laserWritten_keeps (C : Closed P) {s : State} {p : Nat} (h0 : P s) : P (State.laserWritten s p) := by
  unfold State.laserWritten
  with_reducible repeat' first
    | assumption | refine State.modelAsym_keeps C ?_ | refine State.raiseP_keeps C ?_ | refine iteS ?_ ?_

theorem State.modDone_keeps (C : Closed P) {s : State} {m : Nat} {res : ModRes} (h0 : P s) :
    P (State.modDone s m res) := by
  unfold State.modDone
  with_reducible repeat' first
    | assumption
    | (fail_if_no_progress (extract_lets +onlyGivenNames x); refine cutS (P := P) (x := x) ?_ (fun hx => ?_);
       (on_goal 1 => (unfold x; try clear x)); (on_goal 2 => clear_value x))
    | refine State.laserWritten_keeps C ?_ | refine State.modBuf_keeps C ?_ | refine State.modIdle_keeps C ?_
    | refine C.wr _ _ _ ?_ | refine iteS ?_ ?_ | split

theorem execModuleTransactionDone_keeps (C : Closed P) {m : Fin 8} {res : ModRes} {s : State} (h0 : P s) :
    OkP P (execModuleTransactionDone m res s) := by
  unfold execModuleTransactionDone
  with_reducible refine okS ?_
  with_reducible repeat' first
    | assumption | intro _ | refine State.inUnit_keeps C ?_ ?_ | refine State.modDone_keeps C ?_
    | refine State.when_keeps C ?_ ?_

theorem execModuleTimeout_keeps (C : Closed P) {m : Fin 8} {s : State} (h0 : P s) : OkP P (execModuleTimeout m s) := by
  unfold execModuleTimeout
  with_reducible refine okS ?_
  with_reducible repeat' first
    | assumption | intro _ | refine State.inUnit_keeps C ?_ ?_ | refine State.modIdle_keeps C ?_
    | refine State.when_keeps C ?_ ?_ | refine C.wr _ _ _ ?_

theorem State.modDelays_keeps (C : Closed P) {s : State} {p : Nat} {r : Option (BitVec 16 × BitVec 16)} (h0 : P s) :
    P (State.modDelays s p r) := by
  unfold State.modDelays
  with_reducible repeat' first
    | assumption
    | (fail_if_no_progress (extract_lets +onlyGivenNames x); refine cutS (P := P) (x := x) ?_ (fun hx => ?_);
       (on_goal 1 => (unfold x; try clear x)); (on_goal 2 => clear_value x))
    | refine C.setH _ _ _ ?_ | refine C.wr _ _ _ ?_ | split

theorem State.moduleChange_keeps (C : Closed P) {s : State} {p : Nat} {present : Bool}
    {cmis : Option (BitVec 16 × BitVec 16)} (h0 : P s) :
    P (State.moduleChange s p present cmis) := by
  unfold State.moduleChange
  with_reducible repeat' first
    | assumption
    | (fail_if_no_progress (extract_lets +onlyGivenNames x); refine cutS (P := P) (x := x) ?_ (fun hx => ?_);
       (on_goal 1 => (unfold x; try clear x)); (on_goal 2 => clear_value x))
    | refine State.checkStart_keeps C ?_ | refine State.dlyInvalid_keeps C ?_ | refine State.modDelays_keeps C ?_
    | refine State.modIdle_keeps C ?_ | refine State.modelAsym_keeps C ?_ | refine State.raiseP_keeps C ?_
    | refine C.setH _ _ _ ?_ | refine C.wr _ _ _ ?_ | refine State.wrAll_keeps C ?_ | refine iteS ?_ ?_

theorem execModuleChange_keeps (C : Closed P) {p : Fin 72} {present : Bool} {cmis : Option (BitVec 16 × BitVec 16)}
    {s : State} (h0 : P s) :
    OkP P (execModuleChange p present cmis s) := by
  unfold execModuleChange
  with_reducible refine okS ?_
  with_reducible repeat' first
    | assumption | intro _ | refine State.inUnit_keeps C ?_ ?_ | refine State.moduleChange_keeps C ?_
    | refine State.when_keeps C ?_ ?_

theorem State.gatePut_keeps (C : Closed P) {s : State} {p k g : Nat} (h0 : P s) : P (State.gatePut s p k g) := by
  unfold State.gatePut
  with_reducible repeat' first
    | assumption | intro _
    | (fail_if_no_progress (extract_lets +onlyGivenNames x); refine cutS (P := P) (x := x) ?_ (fun hx => ?_);
       (on_goal 1 => (unfold x; try clear x)); (on_goal 2 => clear_value x))
    | refine C.wr _ _ _ ?_ | refine foldS ?_ ?_

theorem State.gateSync_keeps (C : Closed P) {s : State} {p : Nat} (h0 : P s) : P (State.gateSync s p) := by
  unfold State.gateSync
  with_reducible repeat' first
    | assumption | refine State.gatePut_keeps C ?_ | refine iteS ?_ ?_

theorem execGateEdge_keeps (C : Closed P) {p : Fin 72} {s : State} (h0 : P s) : OkP P (execGateEdge p s) := by
  unfold execGateEdge
  with_reducible refine okS ?_
  with_reducible repeat' first
    | assumption | intro _ | refine State.gateSync_keeps C ?_ | refine State.inUnit_keeps C ?_ ?_
    | refine State.passTo_keeps C ?_ | refine iteS ?_ ?_

theorem State.gateCommit_keeps (C : Closed P) {s : State} {p t : Nat} (h0 : P s) : P (State.gateCommit s p t) := by
  unfold State.gateCommit
  with_reducible repeat' first
    | assumption | refine C.setH _ _ _ ?_ | refine C.wr _ _ _ ?_

theorem State.gateSwap_keeps (C : Closed P) {s : State} {p : Nat} (h0 : P s) : P (State.gateSwap s p) := by
  unfold State.gateSwap
  with_reducible repeat' first
    | assumption | intro _
    | (fail_if_no_progress (extract_lets +onlyGivenNames x); refine cutS (P := P) (x := x) ?_ (fun hx => ?_);
       (on_goal 1 => (unfold x; try clear x)); (on_goal 2 => clear_value x))
    | refine State.gateSync_keeps C ?_ | refine C.setH _ _ _ ?_ | refine C.wr _ _ _ ?_ | refine foldS ?_ ?_

theorem execGateListSwap_keeps (C : Closed P) {p : Fin 72} {s : State} (h0 : P s) : OkP P (execGateListSwap p s) := by
  unfold execGateListSwap
  with_reducible refine okS ?_
  with_reducible repeat' first
    | assumption | intro _ | refine State.gateSwap_keeps C ?_ | refine State.inUnit_keeps C ?_ ?_
    | refine State.passTo_keeps C ?_ | refine iteS ?_ ?_

theorem State.pauseSync_keeps (C : Closed P) {s : State} {q : Nat} (h0 : P s) : P (State.pauseSync s q) := by
  unfold State.pauseSync
  with_reducible repeat' first
    | assumption | refine C.setH _ _ _ ?_ | refine C.wr _ _ _ ?_ | refine iteS ?_ ?_

theorem State.pauseSet_keeps (C : Closed P) {s : State} {p c quanta : Nat} {qs : List Nat} (h0 : P s) :
    P (State.pauseSet s p c quanta qs) := by
  unfold State.pauseSet
  with_reducible repeat' first
    | assumption | intro _
    | (fail_if_no_progress (extract_lets +onlyGivenNames x); refine cutS (P := P) (x := x) ?_ (fun hx => ?_);
       (on_goal 1 => (unfold x; try clear x)); (on_goal 2 => clear_value x))
    | refine State.count_keeps C ?_ | refine State.pauseSync_keeps C ?_ | refine C.setH _ _ _ ?_ | refine foldS ?_ ?_
    | refine iteS ?_ ?_

theorem State.pauseCount_keeps (C : Closed P) {s : State} {p : Nat} (h0 : P s) : P (State.pauseCount s p) := by
  unfold State.pauseCount
  with_reducible repeat' first
    | assumption | refine State.bump_keeps C ?_

theorem State.pauseRx_keeps (C : Closed P) {s : State} {p quanta : Nat} (h0 : P s) : P (State.pauseRx s p quanta) := by
  unfold State.pauseRx
  with_reducible repeat' first
    | assumption
    | (fail_if_no_progress (extract_lets +onlyGivenNames x); refine cutS (P := P) (x := x) ?_ (fun hx => ?_);
       (on_goal 1 => (unfold x; try clear x)); (on_goal 2 => clear_value x))
    | refine State.count_keeps C ?_ | refine State.pauseCount_keeps C ?_ | refine State.pauseSet_keeps C ?_
    | refine iteS ?_ ?_

theorem execPauseReceive_keeps (C : Closed P) {p : Fin 72} {quanta : BitVec 16} {s : State} (h0 : P s) :
    OkP P (execPauseReceive p quanta s) := by
  unfold execPauseReceive
  with_reducible refine okS ?_
  with_reducible repeat' first
    | assumption | intro _ | refine State.inUnit_keeps C ?_ ?_ | refine State.pauseRx_keeps C ?_

theorem State.pfcRx_keeps (C : Closed P) {s : State} {p en times : Nat} (h0 : P s) : P (State.pfcRx s p en times) := by
  unfold State.pfcRx
  with_reducible repeat' first
    | assumption | intro _
    | (fail_if_no_progress (extract_lets +onlyGivenNames x); refine cutS (P := P) (x := x) ?_ (fun hx => ?_);
       (on_goal 1 => (unfold x; try clear x)); (on_goal 2 => clear_value x))
    | refine State.bump_keeps C ?_ | refine State.count_keeps C ?_ | refine State.pauseCount_keeps C ?_
    | refine State.pauseSet_keeps C ?_ | refine foldS ?_ ?_ | refine iteS ?_ ?_

theorem execPfcReceive_keeps (C : Closed P) {p : Fin 72} {en : BitVec 8} {times : BitVec 128} {s : State} (h0 : P s) :
    OkP P (execPfcReceive p en times s) := by
  unfold execPfcReceive
  with_reducible refine okS ?_
  with_reducible repeat' first
    | assumption | intro _ | refine State.inUnit_keeps C ?_ ?_ | refine State.pfcRx_keeps C ?_

theorem execPauseExpiry_keeps (C : Closed P) {p : Fin 72} {c : Fin 9} {s : State} (h0 : P s) :
    OkP P (execPauseExpiry p c s) := by
  unfold execPauseExpiry
  with_reducible refine okS ?_
  with_reducible repeat' first
    | assumption | intro _ | refine State.inUnit_keeps C ?_ ?_ | refine State.passAge_keeps C ?_
    | refine State.pauseSync_keeps C ?_ | refine C.setH _ _ _ ?_ | refine foldS ?_ ?_

theorem State.pwdTrip_keeps (C : Closed P) {s : State} {q : Nat} (h0 : P s) : P (State.pwdTrip s q) := by
  unfold State.pwdTrip
  with_reducible repeat' first
    | assumption | intro _ | refine State.count_keeps C ?_ | refine State.passAge_keeps C ?_
    | refine State.pauseSync_keeps C ?_ | refine State.raiseP_keeps C ?_ | refine C.setH _ _ _ ?_
    | refine C.wr _ _ _ ?_ | refine foldS ?_ ?_

theorem execPauseStorm_keeps (C : Closed P) {p : Fin 72} {t : Fin 8} {s : State} (h0 : P s) :
    OkP P (execPauseStorm p t s) := by
  unfold execPauseStorm
  with_reducible refine okS ?_
  with_reducible repeat' first
    | assumption | intro _ | refine State.inUnit_keeps C ?_ ?_ | refine State.pwdTrip_keeps C ?_
    | refine State.when_keeps C ?_ ?_

theorem execPauseHoldExpiry_keeps (C : Closed P) {p : Fin 72} {t : Fin 8} {s : State} (h0 : P s) :
    OkP P (execPauseHoldExpiry p t s) := by
  unfold execPauseHoldExpiry
  with_reducible refine okS ?_
  with_reducible repeat' first
    | assumption | intro _
    | (fail_if_no_progress (extract_lets +onlyGivenNames x); refine cutS (P := P) (x := x) ?_ (fun hx => ?_);
       (on_goal 1 => (unfold x; try clear x)); (on_goal 2 => clear_value x))
    | refine State.inUnit_keeps C ?_ ?_ | refine State.passAge_keeps C ?_ | refine C.wr _ _ _ ?_ | refine iteS ?_ ?_

theorem State.ctlPut_keeps (C : Closed P) {s : State} {p own : Nat} {octets : List Byte} (h0 : P s) :
    P (State.ctlPut s p own octets) := by
  unfold State.ctlPut
  with_reducible repeat' first
    | assumption | refine State.setCtl_keeps C ?_

theorem State.pauseSend_keeps (C : Closed P) {s : State} {p c : Nat} (h0 : P s) : P (State.pauseSend s p c) := by
  unfold State.pauseSend
  with_reducible repeat' first
    | assumption
    | (fail_if_no_progress (extract_lets +onlyGivenNames x); refine cutS (P := P) (x := x) ?_ (fun hx => ?_);
       (on_goal 1 => (unfold x; try clear x)); (on_goal 2 => clear_value x))
    | refine State.ctlPut_keeps C ?_ | refine State.passAge_keeps C ?_ | refine C.setH _ _ _ ?_ | refine iteS ?_ ?_

theorem execPauseFrameSend_keeps (C : Closed P) {p : Fin 72} {c : Fin 9} {s : State} (h0 : P s) :
    OkP P (execPauseFrameSend p c s) := by
  unfold execPauseFrameSend
  with_reducible refine okS ?_
  with_reducible repeat' first
    | assumption | intro _ | refine State.inUnit_keeps C ?_ ?_ | refine State.pauseSend_keeps C ?_

theorem execPhasePublish_keeps (C : Closed P) {n : Fin 74} {tx : BitVec 16} {rx : BitVec 12} {s : State} (h0 : P s) :
    OkP P (execPhasePublish n tx rx s) := by
  unfold execPhasePublish
  with_reducible refine okS ?_
  with_reducible repeat' first
    | assumption | intro _ | refine State.inUnit_keeps C ?_ ?_ | refine C.wr _ _ _ ?_

theorem State.recCount_keeps (C : Closed P) {s : State} (h0 : P s) : P (State.recCount s).2 := by
  unfold State.recCount
  with_reducible repeat' first
    | assumption | refine C.setH _ _ _ ?_ | (fail_if_no_progress (extract_lets +onlyGivenNames x)) | split

theorem State.recLost_keeps (C : Closed P) {s : State} {p : Nat} (h0 : P s) : P (State.recLost s p) := by
  unfold State.recLost
  with_reducible repeat' first
    | assumption | refine State.count_keeps C ?_ | refine C.setH _ _ _ ?_

theorem State.recWrite_keeps (C : Closed P) {s : State} {p : Nat} {r : StampRec} (h0 : P s) :
    P (State.recWrite s p r) := by
  unfold State.recWrite
  with_reducible repeat' first
    | assumption | refine State.count_keeps C ?_ | refine State.raise_keeps C ?_ | refine State.raiseP_keeps C ?_
    | (refine pr2 (State.recCount_keeps C ?_) (by assumption)) | refine State.recLost_keeps C ?_
    | refine State.setBytes_keeps C ?_ | refine C.setH _ _ _ ?_ | refine C.wr _ _ _ ?_ | refine iteS ?_ ?_ | split

theorem State.ringEnWrite_keeps (C : Closed P) {s : State} {p : Nat} {v : Bool} (h0 : P s) :
    P (State.ringEnWrite s p v) := by
  unfold State.ringEnWrite
  with_reducible repeat' first
    | assumption | refine C.setH _ _ _ ?_ | refine C.wr _ _ _ ?_ | refine iteS ?_ ?_

theorem State.stampRefused_keeps (C : Closed P) {s : State} (h0 : P s) : P (State.stampRefused s) := by
  unfold State.stampRefused
  with_reducible repeat' first
    | assumption | refine C.wr _ _ _ ?_

theorem State.sportCfgWrite_keeps (C : Closed P) {s : State} {p w : Nat} (h0 : P s) :
    P (State.sportCfgWrite s p w) := by
  unfold State.sportCfgWrite
  with_reducible repeat' first
    | assumption
    | (fail_if_no_progress (extract_lets +onlyGivenNames x); refine cutS (P := P) (x := x) ?_ (fun hx => ?_);
       (on_goal 1 => (unfold x; try clear x)); (on_goal 2 => clear_value x))
    | refine State.ringEnWrite_keeps C ?_ | refine State.stampRefused_keeps C ?_ | refine C.wr _ _ _ ?_
    | refine iteS ?_ ?_

theorem execRingEnableWrite_keeps (C : Closed P) {r : Req} {p : Fin 72} {w : BitVec 32} {s : State} (h0 : P s) :
    OkP P (execRingEnableWrite r p w s) := by
  unfold execRingEnableWrite
  with_reducible refine okS ?_
  with_reducible repeat' first
    | assumption | intro _ | refine State.sportCfgWrite_keeps C ?_ | refine State.writeTo_keeps C ?_ ?_

theorem State.waitEnd_keeps (C : Closed P) {s : State} {c : Core} (h0 : P s) : P (State.waitEnd s c) := by
  unfold State.waitEnd
  with_reducible repeat' first
    | assumption | refine State.setCst_keeps C ?_ | refine State.setPc_keeps C ?_ | refine C.setTr _ _ _ ?_

theorem State.waitDeadline_keeps (C : Closed P) {s : State} {c : Core} {kind : Nat} (h0 : P s) :
    P (State.waitDeadline s c kind) := by
  unfold State.waitDeadline
  with_reducible repeat' first
    | assumption | refine State.setG_keeps C ?_ | refine State.setP_keeps C ?_ | refine iteS ?_ ?_

theorem State.qdeqPut_keeps (C : Closed P) {s : State} {c : Core} {q d p addr : Nat} (h0 : P s) :
    P (State.qdeqPut s c q d p addr) := by
  unfold State.qdeqPut
  with_reducible repeat' first
    | assumption
    | (fail_if_no_progress (extract_lets +onlyGivenNames x); refine cutS (P := P) (x := x) ?_ (fun hx => ?_);
       (on_goal 1 => (unfold x; try clear x)); (on_goal 2 => clear_value x))
    | refine State.setEq_keeps C ?_ | refine State.setG_keeps C ?_ | refine State.setP_keeps C ?_
    | refine State.wrMem_keeps C ?_ | split

theorem State.eqWake_keeps (C : Closed P) {s : State} {e q : Nat} (h0 : P s) : P (State.eqWake s e q) := by
  unfold State.eqWake
  with_reducible repeat' first
    | assumption | refine C.nextFree ?_ | refine State.qdeqPut_keeps C ?_ | refine State.waitEnd_keeps C ?_ | split

theorem State.eqOffer_keeps (C : Closed P) {s : State} {e q : Nat} {d : Copy} (h0 : P s) :
    P (State.eqOffer s e q d).2 := by
  unfold State.eqOffer
  with_reducible repeat' first
    | assumption | refine State.count_keeps C ?_ | refine State.eqWake_keeps C ?_ | refine State.setEq_keeps C ?_
    | refine State.setGin_keeps C ?_ | (fail_if_no_progress (extract_lets +onlyGivenNames x)) | split

theorem State.hqOffer_keeps (C : Closed P) {s : State} {q : Nat} {d : Copy} (h0 : P s) : P (State.hqOffer s q d).2 := by
  unfold State.hqOffer
  with_reducible repeat' first
    | assumption | refine State.count_keeps C ?_ | refine State.setHq_keeps C ?_ | split

theorem State.portOffer_keeps (C : Closed P) {s : State} {p t : Nat} {d : Copy} (h0 : P s) :
    P (State.portOffer s p t d).2 := by
  unfold State.portOffer
  with_reducible repeat' first
    | assumption | refine State.count_keeps C ?_ | refine State.setQueue_keeps C ?_
    | (fail_if_no_progress (extract_lets +onlyGivenNames x)) | split

theorem State.offerTo_keeps (C : Closed P) {s : State} {kind dest tc : Nat} {d : Copy} (h0 : P s) :
    P (State.offerTo s kind dest tc d).2 := by
  unfold State.offerTo
  with_reducible repeat' first
    | assumption | refine State.eqOffer_keeps C ?_ | refine State.hqOffer_keeps C ?_
    | refine State.portOffer_keeps C ?_ | split

theorem State.offerMd_keeps (C : Closed P) {s : State} {d : Copy} (h0 : P s) : P (State.offerMd s d).2 := by
  unfold State.offerMd
  with_reducible repeat' first
    | assumption | refine State.eqOffer_keeps C ?_ | refine State.offerTo_keeps C ?_
    | (fail_if_no_progress (extract_lets +onlyGivenNames x)) | split

theorem State.frameLen_keeps (C : Closed P) {s : State} {h : Nat} (h0 : P s) : P (State.frameLen s h).2 := by
  unfold State.frameLen
  with_reducible repeat' first
    | assumption | refine C.nextFree ?_ | split

end Sys2Proof.Machine
end

