-- ==== Sys2Proof/Laws/KeepsEngine.lean ====
section
/-! SUPPORT. The engines and the gather units: what each definition hands on keeps every property the primitive updates keep. -/

namespace Sys2Proof.Machine

variable {P : State → Prop}

theorem State.thrRefused_keeps (C : Closed P) {s : State} {i : Nat} (h0 : P s) : P (State.thrRefused s i) := by
  unfold State.thrRefused
  with_reducible repeat' first
    | assumption | refine C.wr _ _ _ ?_

theorem State.thrStart_keeps (C : Closed P) {s : State} {r : Req} {e t : Nat} (h0 : P s) :
    P (State.thrStart s r e t) := by
  unfold State.thrStart
  with_reducible repeat' first
    | assumption
    | (fail_if_no_progress (extract_lets +onlyGivenNames x); refine cutS (P := P) (x := x) ?_ (fun hx => ?_);
       (on_goal 1 => (unfold x; try clear x)); (on_goal 2 => clear_value x))
    | refine C.setTr _ _ _ ?_ | refine State.setTstate_keeps C ?_ | refine State.thrRefused_keeps C ?_
    | refine C.wr _ _ _ ?_ | refine iteS ?_ ?_

theorem State.thrStop_keeps (C : Closed P) {s : State} {e t : Nat} (h0 : P s) : P (State.thrStop s e t) := by
  unfold State.thrStop
  with_reducible repeat' first
    | assumption | refine C.setTr _ _ _ ?_ | refine State.setTstate_keeps C ?_ | refine State.thrRefused_keeps C ?_
    | refine iteS ?_ ?_

theorem State.thrResume_keeps (C : Closed P) {s : State} {e t : Nat} (h0 : P s) : P (State.thrResume s e t) := by
  unfold State.thrResume
  with_reducible repeat' first
    | assumption | refine C.setTr _ _ _ ?_ | refine State.setTstate_keeps C ?_ | refine State.thrRefused_keeps C ?_
    | refine iteS ?_ ?_

theorem State.thrZero_keeps (C : Closed P) {s : State} {e t : Nat} (h0 : P s) : P (State.thrZero s e t) := by
  unfold State.thrZero
  with_reducible repeat' first
    | assumption | refine C.wr _ _ _ ?_ | (fail_if_no_progress refine C.tregF _ ?_)

theorem State.thrClear_keeps (C : Closed P) {s : State} {e t : Nat} (h0 : P s) : P (State.thrClear s e t) := by
  unfold State.thrClear
  with_reducible repeat' first
    | assumption | refine State.setTstate_keeps C ?_ | refine State.thrRefused_keeps C ?_
    | refine State.thrZero_keeps C ?_ | refine iteS ?_ ?_

theorem execThreadStart_keeps (C : Closed P) {r : Req} {e : Fin 16} {t : Fin 8} {s : State} (h0 : P s) :
    OkP P (execThreadStart r e t s) := by
  unfold execThreadStart
  with_reducible refine okS ?_
  with_reducible repeat' first
    | assumption | intro _ | refine State.thrStart_keeps C ?_ | refine State.writeTo_keeps C ?_ ?_

theorem execThreadStop_keeps (C : Closed P) {r : Req} {e : Fin 16} {t : Fin 8} {s : State} (h0 : P s) :
    OkP P (execThreadStop r e t s) := by
  unfold execThreadStop
  with_reducible refine okS ?_
  with_reducible repeat' first
    | assumption | intro _ | refine State.thrStop_keeps C ?_ | refine State.writeTo_keeps C ?_ ?_

theorem execThreadResume_keeps (C : Closed P) {r : Req} {e : Fin 16} {t : Fin 8} {s : State} (h0 : P s) :
    OkP P (execThreadResume r e t s) := by
  unfold execThreadResume
  with_reducible refine okS ?_
  with_reducible repeat' first
    | assumption | intro _ | refine State.thrResume_keeps C ?_ | refine State.writeTo_keeps C ?_ ?_

theorem execThreadClear_keeps (C : Closed P) {r : Req} {e : Fin 16} {t : Fin 8} {s : State} (h0 : P s) :
    OkP P (execThreadClear r e t s) := by
  unfold execThreadClear
  with_reducible refine okS ?_
  with_reducible repeat' first
    | assumption | intro _ | refine State.thrClear_keeps C ?_ | refine State.writeTo_keeps C ?_ ?_

theorem State.stopAll_keeps (C : Closed P) {s : State} {e : Nat} (h0 : P s) : P (State.stopAll s e) := by
  unfold State.stopAll
  with_reducible repeat' first
    | assumption | intro _ | refine State.thrStop_keeps C ?_ | refine foldS ?_ ?_

theorem execStopAll_keeps (C : Closed P) {r : Req} {e : Fin 16} {s : State} (h0 : P s) : OkP P (execStopAll r e s) := by
  unfold execStopAll
  with_reducible refine okS ?_
  with_reducible repeat' first
    | assumption | intro _ | refine State.stopAll_keeps C ?_ | refine State.writeTo_keeps C ?_ ?_

theorem State.cacheSet_keeps (C : Closed P) {s : State} {e line v : Nat} (h0 : P s) :
    P (State.cacheSet s e line v) := by
  unfold State.cacheSet
  with_reducible repeat' first
    | assumption | (fail_if_no_progress refine C.cache_keeps ?_)

theorem State.cacheDrop_keeps (C : Closed P) {s : State} {e line : Nat} (h0 : P s) : P (State.cacheDrop s e line) := by
  unfold State.cacheDrop
  with_reducible repeat' first
    | assumption | (fail_if_no_progress refine C.cache_keeps ?_)

theorem State.cacheClear_keeps (C : Closed P) {s : State} {e : Nat} (h0 : P s) : P (State.cacheClear s e) := by
  unfold State.cacheClear
  with_reducible repeat' first
    | assumption | (fail_if_no_progress refine C.cache_keeps ?_)

theorem State.cacheFill_keeps (C : Closed P) {s : State} {e line v : Nat} (h0 : P s) :
    P (State.cacheFill s e line v) := by
  unfold State.cacheFill
  with_reducible repeat' first
    | assumption | refine State.cacheDrop_keeps C ?_ | refine State.cacheSet_keeps C ?_ | refine C.nextFree ?_
    | refine iteS ?_ ?_

theorem State.cinvStart_keeps (C : Closed P) {s : State} {e : Nat} (h0 : P s) : P (State.cinvStart s e) := by
  unfold State.cinvStart
  with_reducible repeat' first
    | assumption | refine C.wr _ _ _ ?_

theorem execEngCinvWrite_keeps (C : Closed P) {r : Req} {e : Fin 16} {s : State} (h0 : P s) :
    OkP P (execEngCinvWrite r e s) := by
  unfold execEngCinvWrite
  with_reducible refine okS ?_
  with_reducible repeat' first
    | assumption | intro _ | refine State.cinvStart_keeps C ?_ | refine State.writeTo_keeps C ?_ ?_

theorem execCinvDone_keeps (C : Closed P) {e : Fin 16} {s : State} (h0 : P s) : OkP P (execCinvDone e s) := by
  unfold execCinvDone
  with_reducible refine okS ?_
  with_reducible repeat' first
    | assumption | intro _ | refine State.cacheClear_keeps C ?_ | refine State.inUnit_keeps C ?_ ?_
    | refine State.when_keeps C ?_ ?_ | refine C.wr _ _ _ ?_

theorem State.tzCinv_keeps (C : Closed P) {x : Issue} {i : RIns} {s : State} (h0 : P s) : P (State.tzCinv x i s) := by
  unfold State.tzCinv
  with_reducible repeat' first
    | assumption | intro _ | refine State.cacheClear_keeps C ?_ | refine State.issue_keeps C ?_ ?_ | split

theorem execCinv_keeps (C : Closed P) {x : Issue} {i : RIns} {s : State} (h0 : P s) : OkP P (execCinv x i s) := by
  unfold execCinv
  with_reducible refine okS ?_
  with_reducible repeat' first
    | assumption | refine State.tzCinv_keeps C ?_

theorem State.tzTwait_keeps (C : Closed P) {x : Issue} {i : RIns} {s : State} (h0 : P s) : P (State.tzTwait x i s) := by
  unfold State.tzTwait
  with_reducible repeat' first
    | assumption | intro _ | refine State.issue_keeps C ?_ ?_ | refine State.setP_keeps C ?_ | refine C.setTr _ _ _ ?_
    | (fail_if_no_progress (extract_lets +onlyGivenNames x)) | split

theorem execTwait_keeps (C : Closed P) {x : Issue} {i : RIns} {s : State} (h0 : P s) : OkP P (execTwait x i s) := by
  unfold execTwait
  with_reducible refine okS ?_
  with_reducible repeat' first
    | assumption | refine State.tzTwait_keeps C ?_

theorem State.passBell_keeps (C : Closed P) {s : State} {v : Nat} (h0 : P s) : P (State.passBell s v) := by
  unfold State.passBell
  with_reducible repeat' first
    | assumption | refine State.passTo_keeps C ?_ | refine iteS ?_ ?_

theorem State.twaitFire_keeps (C : Closed P) {s : State} {c : Core} (h0 : P s) : P (State.twaitFire s c) := by
  unfold State.twaitFire
  with_reducible repeat' first
    | assumption | refine State.passBell_keeps C ?_ | refine State.setP_keeps C ?_ | refine State.waitEnd_keeps C ?_

theorem execTwaitFire_keeps (C : Closed P) {c : Core} {s : State} (h0 : P s) : OkP P (execTwaitFire c s) := by
  unfold execTwaitFire
  with_reducible refine okS ?_
  with_reducible repeat' first
    | assumption | intro _ | refine State.twaitFire_keeps C ?_ | refine State.when_keeps C ?_ ?_

theorem execWaitDeadline_keeps (C : Closed P) {e : Fin 16} {t : Fin 8} {s : State} (h0 : P s) :
    OkP P (execWaitDeadline e t s) := by
  unfold execWaitDeadline
  with_reducible refine okS ?_
  with_reducible repeat' first
    | assumption | intro _ | refine State.passBell_keeps C ?_ | refine State.waitDeadline_keeps C ?_
    | refine State.waitEnd_keeps C ?_ | refine State.when_keeps C ?_ ?_

theorem execAsyncStoreFail_keeps (C : Closed P) {e : Fin 16} {t : Fin 8} {a : BitVec 48} {s : State} (h0 : P s) :
    OkP P (execAsyncStoreFail e t a s) := by
  unfold execAsyncStoreFail
  with_reducible refine okS ?_
  with_reducible repeat' first
    | assumption | intro _ | refine State.count_keeps C ?_ | refine State.inUnit_keeps C ?_ ?_
    | refine C.setTr _ _ _ ?_ | refine iteS ?_ ?_

theorem State.tzTemit_keeps (C : Closed P) {x : Issue} {f : Nat} {i : RIns} {s : State} (h0 : P s) :
    P (State.tzTemit x f i s) := by
  unfold State.tzTemit
  with_reducible repeat' first
    | assumption | intro _ | refine State.frameLen_keeps C ?_ | refine State.issue_keeps C ?_ ?_
    | refine State.setP_keeps C ?_ | (fail_if_no_progress refine C.emits_keeps ?_)
    | (fail_if_no_progress (extract_lets +onlyGivenNames x)) | split

theorem execTemit_keeps (C : Closed P) {x : Issue} {f : Fin 128} {i : RIns} {s : State} (h0 : P s) :
    OkP P (execTemit x f i s) := by
  unfold execTemit
  with_reducible refine okS ?_
  with_reducible repeat' first
    | assumption | refine State.tzTemit_keeps C ?_

theorem State.offerOrDrop_keeps (C : Closed P) {s : State} {d : Copy} (h0 : P s) : P (State.offerOrDrop s d) := by
  unfold State.offerOrDrop
  with_reducible repeat' first
    | assumption | refine State.drop1_keeps C ?_ | (refine pr2 (State.offerMd_keeps C ?_) (by assumption)) | split

theorem State.emitRelease_keeps (C : Closed P) {s : State} {e : Nat} (h0 : P s) : P (State.emitRelease s e) := by
  unfold State.emitRelease
  with_reducible repeat' first
    | assumption
    | (fail_if_no_progress (extract_lets +onlyGivenNames x); refine cutS (P := P) (x := x) ?_ (fun hx => ?_);
       (on_goal 1 => (unfold x; try clear x)); (on_goal 2 => clear_value x))
    | refine State.offerOrDrop_keeps C ?_ | refine State.passBell_keeps C ?_
    | (fail_if_no_progress refine C.emits_keeps ?_) | split

theorem execEmitRelease_keeps (C : Closed P) {e : Fin 16} {s : State} (h0 : P s) : OkP P (execEmitRelease e s) := by
  unfold execEmitRelease
  with_reducible refine okS ?_
  with_reducible repeat' first
    | assumption | intro _ | refine State.emitRelease_keeps C ?_ | refine State.inUnit_keeps C ?_ ?_

theorem State.tzPalloc_keeps (C : Closed P) {x : Issue} {f : Nat} {i : RIns} {s : State} (h0 : P s) :
    P (State.tzPalloc x f i s) := by
  unfold State.tzPalloc
  with_reducible repeat' first
    | assumption | intro _ | (refine pr2 (State.grantFb_keeps C ?_) (by assumption))
    | refine State.issue_keeps C ?_ ?_ | refine State.setG_keeps C ?_ | refine State.setP_keeps C ?_ | split

theorem execPalloc_keeps (C : Closed P) {x : Issue} {f : Fin 128} {i : RIns} {s : State} (h0 : P s) :
    OkP P (execPalloc x f i s) := by
  unfold execPalloc
  with_reducible refine okS ?_
  with_reducible repeat' first
    | assumption | refine State.tzPalloc_keeps C ?_

theorem State.setPb_keeps (C : Closed P) {s : State} {c : Core} {n : Nat} {b : Bool} (h0 : P s) :
    P (State.setPb s c n b) := by
  unfold State.setPb
  with_reducible repeat' first
    | assumption | refine State.setP_keeps C ?_

theorem State.tzPderef_keeps (C : Closed P) {x : Issue} {i : RIns} {s : State} (h0 : P s) :
    P (State.tzPderef x i s) := by
  unfold State.tzPderef
  with_reducible repeat' first
    | assumption | intro _ | refine State.deref_keeps C ?_ | refine State.issue_keeps C ?_ ?_
    | refine State.setPb_keeps C ?_

theorem execPderef_keeps (C : Closed P) {x : Issue} {i : RIns} {s : State} (h0 : P s) : OkP P (execPderef x i s) := by
  unfold execPderef
  with_reducible refine okS ?_
  with_reducible repeat' first
    | assumption | refine State.tzPderef_keeps C ?_

theorem State.tzPref_keeps (C : Closed P) {x : Issue} {i : RIns} {s : State} (h0 : P s) : P (State.tzPref x i s) := by
  unfold State.tzPref
  with_reducible repeat' first
    | assumption | intro _ | refine State.issue_keeps C ?_ ?_ | refine State.ref_keeps C ?_
    | refine State.setPb_keeps C ?_

theorem execPref_keeps (C : Closed P) {x : Issue} {i : RIns} {s : State} (h0 : P s) : OkP P (execPref x i s) := by
  unfold execPref
  with_reducible refine okS ?_
  with_reducible repeat' first
    | assumption | refine State.tzPref_keeps C ?_

theorem State.qenqMd_keeps (C : Closed P) {s : State} {c : Core} {md h d : Nat} (h0 : P s) :
    P (State.qenqMd s c md h d).2 := by
  unfold State.qenqMd
  split
  · exact State.setP_keeps C h0
  · exact State.setPb_keeps C (State.offerMd_keeps C (State.frameLen_keeps C h0))

theorem State.tzQenq_keeps (C : Closed P) {x : Issue} {i : RIns} {s : State} (h0 : P s) : P (State.tzQenq x i s) := by
  unfold State.tzQenq
  with_reducible repeat' first
    | assumption | intro _ | refine State.issue_keeps C ?_ ?_ | refine State.qenqMd_keeps C ?_
    | (fail_if_no_progress (extract_lets +onlyGivenNames x)) | split

theorem execQenq_keeps (C : Closed P) {x : Issue} {i : RIns} {s : State} (h0 : P s) : OkP P (execQenq x i s) := by
  unfold execQenq
  with_reducible refine okS ?_
  with_reducible repeat' first
    | assumption | refine State.tzQenq_keeps C ?_

theorem State.waitBegin_keeps (C : Closed P) {s : State} {c : Core} {kind d f : Nat} (h0 : P s) :
    P (State.waitBegin s c kind d f) := by
  unfold State.waitBegin
  with_reducible repeat' first
    | assumption | refine C.setTr _ _ _ ?_

theorem State.noGet_keeps (C : Closed P) {s : State} {c : Core} {d f : Nat} (h0 : P s) : P (State.noGet s c d f) := by
  unfold State.noGet
  with_reducible repeat' first
    | assumption | refine State.setG_keeps C ?_ | refine State.setP_keeps C ?_

theorem State.tzQdeq_keeps (C : Closed P) {x : Issue} {f : Nat} {i : RIns} {s : State} (h0 : P s) :
    P (State.tzQdeq x f i s) := by
  unfold State.tzQdeq
  with_reducible repeat' first
    | assumption | intro _ | refine State.issue_keeps C ?_ ?_ | refine State.noGet_keeps C ?_
    | refine State.qdeqPut_keeps C ?_ | refine C.setTr _ _ _ ?_ | refine State.waitBegin_keeps C ?_
    | (fail_if_no_progress (extract_lets +onlyGivenNames x)) | split

theorem execQdeq_keeps (C : Closed P) {x : Issue} {f : Fin 128} {i : RIns} {s : State} (h0 : P s) :
    OkP P (execQdeq x f i s) := by
  unfold execQdeq
  with_reducible refine okS ?_
  with_reducible repeat' first
    | assumption | refine State.tzQdeq_keeps C ?_

theorem execEngineQueueOffer_keeps (C : Closed P) {e : Fin 16} {q : Fin 64} {h : BitVec 32} {md : BitVec 512}
    {s : State} (h0 : P s) :
    OkP P (execEngineQueueOffer e q h md s) := by
  unfold execEngineQueueOffer
  with_reducible refine okS ?_
  with_reducible repeat' first
    | assumption | intro _ | refine State.drop1_keeps C ?_ | (refine pr2 (State.eqOffer_keeps C ?_) (by assumption))
    | refine State.inDom_keeps C ?_ ?_ | split

theorem State.hatchGet_keeps (C : Closed P) {s : State} {c : Core} {h d p : Nat} (h0 : P s) :
    P (State.hatchGet s c h d p) := by
  unfold State.hatchGet
  with_reducible repeat' first
    | assumption | refine State.setG_keeps C ?_ | refine State.setHatch_keeps C ?_ | refine State.setP_keeps C ?_
    | (fail_if_no_progress (extract_lets +onlyGivenNames x)) | split

theorem State.hatchWake_keeps (C : Closed P) {s : State} {e h : Nat} (h0 : P s) : P (State.hatchWake s e h) := by
  unfold State.hatchWake
  with_reducible repeat' first
    | assumption | refine State.hatchGet_keeps C ?_ | refine C.nextFree ?_ | refine State.waitEnd_keeps C ?_ | split

theorem State.hatchPut_keeps (C : Closed P) {s : State} {e h v : Nat} (h0 : P s) : P (State.hatchPut s e h v).2 := by
  unfold State.hatchPut
  with_reducible repeat' first
    | assumption | refine State.count_keeps C ?_ | refine State.hatchWake_keeps C ?_
    | refine State.setHatch_keeps C ?_ | (fail_if_no_progress (extract_lets +onlyGivenNames x)) | split

theorem State.hatchReg_keeps (C : Closed P) {s : State} {r : Req} {e h v : Nat} (h0 : P s) :
    P (State.hatchReg s r e h v) := by
  unfold State.hatchReg
  with_reducible repeat' first
    | assumption | (refine pr2 (State.hatchPut_keeps C ?_) (by assumption)) | refine C.wr _ _ _ ?_ | refine iteS ?_ ?_
    | split

theorem execHatchPut_keeps (C : Closed P) {r : Req} {e : Fin 16} {h : Fin 16} {v : BitVec 64} {s : State} (h0 : P s) :
    OkP P (execHatchPut r e h v s) := by
  unfold execHatchPut
  with_reducible refine okS ?_
  with_reducible repeat' first
    | assumption | intro _ | refine State.hatchReg_keeps C ?_ | refine State.writeTo_keeps C ?_ ?_

theorem State.tzHput_keeps (C : Closed P) {x : Issue} {i : RIns} {s : State} (h0 : P s) : P (State.tzHput x i s) := by
  unfold State.tzHput
  with_reducible repeat' first
    | assumption | intro _ | refine State.hatchPut_keeps C ?_ | refine State.issue_keeps C ?_ ?_
    | refine State.setPb_keeps C ?_ | (fail_if_no_progress (extract_lets +onlyGivenNames x)) | split

theorem execHput_keeps (C : Closed P) {x : Issue} {i : RIns} {s : State} (h0 : P s) : OkP P (execHput x i s) := by
  unfold execHput
  with_reducible refine okS ?_
  with_reducible repeat' first
    | assumption | refine State.tzHput_keeps C ?_

theorem State.tzHget_keeps (C : Closed P) {x : Issue} {f : Nat} {i : RIns} {s : State} (h0 : P s) :
    P (State.tzHget x f i s) := by
  unfold State.tzHget
  with_reducible repeat' first
    | assumption | intro _ | refine State.hatchGet_keeps C ?_ | refine State.issue_keeps C ?_ ?_
    | refine State.noGet_keeps C ?_ | refine C.setTr _ _ _ ?_ | refine State.waitBegin_keeps C ?_
    | (fail_if_no_progress (extract_lets +onlyGivenNames x)) | split

theorem execHget_keeps (C : Closed P) {x : Issue} {f : Fin 128} {i : RIns} {s : State} (h0 : P s) :
    OkP P (execHget x f i s) := by
  unfold execHget
  with_reducible refine okS ?_
  with_reducible repeat' first
    | assumption | refine State.tzHget_keeps C ?_

theorem State.gthFault_keeps (C : Closed P) {s : State} {g : Nat} (h0 : P s) : P (State.gthFault s g) := by
  unfold State.gthFault
  with_reducible repeat' first
    | assumption | refine State.raise_keeps C ?_ | refine C.wr _ _ _ ?_

theorem State.goutOffer_keeps (C : Closed P) {s : State} {x : GOut} {h : Nat} (h0 : P s) :
    P (State.goutOffer s x h) := by
  unfold State.goutOffer
  with_reducible repeat' first
    | assumption | refine State.count_keeps C ?_ | refine State.offerOrDrop_keeps C ?_ | refine iteS ?_ ?_
    | (fail_if_no_progress refine C.emits_keeps ?_) | (fail_if_no_progress (extract_lets +onlyGivenNames x)) | split

theorem State.goutLost_keeps (C : Closed P) {s : State} {x : GOut} (h0 : P s) : P (State.goutLost s x) := by
  unfold State.goutLost
  with_reducible repeat' first
    | assumption | refine State.count_keeps C ?_

theorem State.goutTry_keeps (C : Closed P) {s : State} {x : GOut} (h0 : P s) : P (State.goutTry s x).2 := by
  unfold State.goutTry
  with_reducible repeat' first
    | assumption | refine State.goutLost_keeps C ?_ | refine State.goutOffer_keeps C ?_
    | (refine pr2 (State.grantChain_keeps C ?_) (by assumption)) | refine State.joinChain_keeps C ?_
    | refine State.setBuf_keeps C ?_ | refine State.setFrameBytes_keeps C ?_ | split

theorem State.goutSend_keeps (C : Closed P) {s : State} {x : GOut} (h0 : P s) : P (State.goutSend s x) := by
  unfold State.goutSend
  with_reducible repeat' first
    | assumption | (refine pr2 (State.goutTry_keeps C ?_) (by assumption))
    | (fail_if_no_progress refine C.gouts_keeps ?_) | split

theorem execOutputAllocTimeout_keeps (C : Closed P) {e : Fin 16} {s : State} (h0 : P s) :
    OkP P (execOutputAllocTimeout e s) := by
  unfold execOutputAllocTimeout
  with_reducible refine okS ?_
  with_reducible repeat' first
    | assumption | intro _ | refine State.goutLost_keeps C ?_
    | (refine pr2 (State.goutTry_keeps C ?_) (by assumption)) | refine State.inUnit_keeps C ?_ ?_
    | (fail_if_no_progress refine C.gouts_keeps ?_) | split

theorem State.gEmitFrames_keeps (C : Closed P) {s : State} {g n e : Nat} {k : EmitKind} {bank : Bool} {done : Nat}
    {acc : List Int} (h0 : P s) :
    P (State.gEmitFrames s g n e k bank done acc) := by
  unfold State.gEmitFrames
  with_reducible repeat' first
    | assumption | intro _ | refine State.count_keeps C ?_ | refine State.goutSend_keeps C ?_ | refine foldS ?_ ?_
    | refine iteS ?_ ?_

theorem State.setBin_keeps (C : Closed P) {s : State} {b : Bin} (h0 : P s) : P (State.setBin s b) := by
  unfold State.setBin
  with_reducible repeat' first
    | assumption | (fail_if_no_progress refine C.bins_keeps ?_)

theorem State.binEmit_keeps (C : Closed P) {s : State} {b : Bin} {k : EmitKind} (h0 : P s) :
    P (State.binEmit s b k) := by
  unfold State.binEmit
  with_reducible repeat' first
    | assumption | refine State.count_keeps C ?_ | refine State.drop1_keeps C ?_ | refine State.gDrained_keeps C ?_
    | refine State.gEmitFrames_keeps C ?_ | refine State.setBin_keeps C ?_ | refine iteS ?_ ?_
    | (fail_if_no_progress refine C.bins_keeps ?_) | split

theorem State.accumulate_keeps (C : Closed P) {s : State} {x : Contrib} (h0 : P s) : P (State.accumulate s x) := by
  unfold State.accumulate
  with_reducible repeat' first
    | assumption | refine State.drop1_keeps C ?_ | refine State.setBin_keeps C ?_
    | (fail_if_no_progress (extract_lets +onlyGivenNames x)) | split

theorem State.gatherStep_keeps (C : Closed P) {s : State} {e : Nat} (h0 : P s) : P (State.gatherStep s e) := by
  unfold State.gatherStep
  with_reducible repeat' first
    | assumption | intro _
    | (fail_if_no_progress (extract_lets +onlyGivenNames x); refine cutS (P := P) (x := x) ?_ (fun hx => ?_);
       (on_goal 1 => (unfold x; try clear x)); (on_goal 2 => clear_value x))
    | refine State.accumulate_keeps C ?_ | refine State.binEmit_keeps C ?_
    | (refine pr2 (State.goutTry_keeps C ?_) (by assumption)) | refine State.setGq_keeps C ?_ | refine foldS ?_ ?_
    | refine iteS ?_ ?_ | (fail_if_no_progress refine C.gouts_keeps ?_) | split

theorem execGatherStep_keeps (C : Closed P) {e : Fin 16} {s : State} (h0 : P s) : OkP P (execGatherStep e s) := by
  unfold execGatherStep
  with_reducible refine okS ?_
  with_reducible repeat' first
    | assumption | intro _ | refine State.gatherStep_keeps C ?_ | refine State.inUnit_keeps C ?_ ?_

theorem State.emptyEmit_keeps (C : Closed P) {s : State} {g n : Nat} (h0 : P s) : P (State.emptyEmit s g n) := by
  unfold State.emptyEmit
  with_reducible repeat' first
    | assumption | refine State.count_keeps C ?_ | refine State.gEmitFrames_keeps C ?_
    | refine State.gthFault_keeps C ?_ | refine iteS ?_ ?_ | split

theorem State.binFire_keeps (C : Closed P) {s : State} {g n : Nat} (h0 : P s) : P (State.binFire s g n) := by
  unfold State.binFire
  with_reducible repeat' first
    | assumption | refine State.binEmit_keeps C ?_ | refine State.emptyEmit_keeps C ?_
    | refine State.setBin_keeps C ?_ | refine iteS ?_ ?_ | (fail_if_no_progress refine C.bins_keeps ?_) | split

theorem State.binDeadline_keeps (C : Closed P) {s : State} {g : Nat} (h0 : P s) : P (State.binDeadline s g) := by
  unfold State.binDeadline
  with_reducible repeat' first
    | assumption | refine State.binFire_keeps C ?_ | refine State.passBell_keeps C ?_ | refine C.wr _ _ _ ?_

theorem execBinDeadline_keeps (C : Closed P) {g : Fin 512} {s : State} (h0 : P s) : OkP P (execBinDeadline g s) := by
  unfold execBinDeadline
  with_reducible refine okS ?_
  with_reducible repeat' first
    | assumption | intro _ | refine State.binDeadline_keeps C ?_ | refine State.inUnit_keeps C ?_ ?_
    | refine State.when_keeps C ?_ ?_

theorem State.contribDrop_keeps (C : Closed P) {s : State} {f : Fld} {i h : Nat} (h0 : P s) :
    P (State.contribDrop s f i h) := by
  unfold State.contribDrop
  with_reducible repeat' first
    | assumption | refine State.count_keeps C ?_ | refine State.drop1_keeps C ?_

theorem State.binHome_keeps (C : Closed P) {s : State} {g e : Nat} (h0 : P s) : P (State.binHome s g e).2 := by
  unfold State.binHome
  with_reducible repeat' first
    | assumption | refine State.grantFb_keeps C ?_ | split

theorem State.binOpen_keeps (C : Closed P) {s : State} {g n e : Nat} {home : Option Nat} (h0 : P s) :
    P (State.binOpen s g n e home) := by
  unfold State.binOpen
  with_reducible repeat' first
    | assumption | (fail_if_no_progress refine C.bins_keeps ?_)

theorem State.evict_keeps (C : Closed P) {s : State} {b : Bin} (h0 : P s) : P (State.evict s b) := by
  unfold State.evict
  with_reducible repeat' first
    | assumption | intro _
    | (fail_if_no_progress (extract_lets +onlyGivenNames x); refine cutS (P := P) (x := x) ?_ (fun hx => ?_);
       (on_goal 1 => (unfold x; try clear x)); (on_goal 2 => clear_value x))
    | refine State.accumulate_keeps C ?_ | refine State.binEmit_keeps C ?_ | refine State.count_keeps C ?_
    | refine State.setBin_keeps C ?_ | refine State.setGq_keeps C ?_ | refine foldS ?_ ?_ | refine iteS ?_ ?_
    | (fail_if_no_progress (extract_lets +onlyGivenNames x)) | split

theorem State.binPlace_keeps (C : Closed P) {s : State} {g n e : Nat} (h0 : P s) : P (State.binPlace s g n e).2 := by
  unfold State.binPlace
  extract_lets holder always
  clear_value holder always
  split
  · exact State.binOpen_keeps C h0
  · split
    next home s1 e1 =>
    have h1 : P s1 := by
      split at e1
      · exact pr2 (State.binHome_keeps C h0) e1
      · cases e1; exact h0
    split
    · dsimp only; with_reducible exact State.raise_keeps C (State.count_keeps C (State.binOpen_keeps C h1))
    · split
      · split
        · exact State.binOpen_keeps C (State.evict_keeps C h1)
        · exact h1
      · exact h1

theorem State.contribLate_keeps (C : Closed P) {s : State} {g n c h ofs : Nat} (h0 : P s) :
    P (State.contribLate s g n c h ofs) := by
  unfold State.contribLate
  with_reducible repeat' first
    | assumption
    | (fail_if_no_progress (extract_lets +onlyGivenNames x); refine cutS (P := P) (x := x) ?_ (fun hx => ?_);
       (on_goal 1 => (unfold x; try clear x)); (on_goal 2 => clear_value x))
    | refine State.contribDrop_keeps C ?_ | refine State.count_keeps C ?_ | refine State.drop1_keeps C ?_
    | refine State.gEmitFrames_keeps C ?_ | refine State.raise_keeps C ?_ | refine iteS ?_ ?_
    | (fail_if_no_progress (extract_lets +onlyGivenNames x)) | split

theorem State.contribClaim_keeps (C : Closed P) {s : State} {g n c h ofs : Nat} (h0 : P s) :
    P (State.contribClaim s g n c h ofs) := by
  unfold State.contribClaim
  extract_lets serve
  clear_value serve
  split
  · exact State.gthFault_keeps C (State.contribDrop_keeps C h0)
  · split
    next ok s1 e1 =>
    have h1 : P s1 := by
      split at e1
      · cases e1; exact h0
      · exact pr2 (State.binPlace_keeps C h0) e1
    split
    · exact State.raise_keeps C (State.contribDrop_keeps C h1)
    · split
      · exact State.raise_keeps C (State.contribDrop_keeps C h0)
      · split
        · exact State.drop1_keeps C h1
        · exact State.setGq_keeps C (State.setBin_keeps C h1)

theorem State.contribute_keeps (C : Closed P) {s : State} {hf : Nat} {d : Copy} (h0 : P s) :
    P (State.contribute s hf d) := by
  unfold State.contribute
  with_reducible repeat' first
    | assumption | refine State.contribClaim_keeps C ?_ | refine State.contribDrop_keeps C ?_
    | refine State.contribLate_keeps C ?_ | refine iteS ?_ ?_

theorem execContributionOffer_keeps (C : Closed P) {hf : Fin 2} {s : State} (h0 : P s) :
    OkP P (execContributionOffer hf s) := by
  unfold execContributionOffer
  with_reducible refine okS ?_
  with_reducible repeat' first
    | assumption | intro _ | refine State.contribute_keeps C ?_ | refine State.inUnit_keeps C ?_ ?_
    | refine State.setGin_keeps C ?_ | split

theorem State.gthEngLost_keeps (C : Closed P) {s : State} {e : Nat} (h0 : P s) : P (State.gthEngLost s e) := by
  unfold State.gthEngLost
  with_reducible repeat' first
    | assumption | intro _
    | (fail_if_no_progress (extract_lets +onlyGivenNames x); refine cutS (P := P) (x := x) ?_ (fun hx => ?_);
       (on_goal 1 => (unfold x; try clear x)); (on_goal 2 => clear_value x))
    | refine State.binsLose_keeps C ?_ | refine State.clrBitF_keeps C ?_ | refine State.gDrained_keeps C ?_
    | refine State.gthFault_keeps C ?_ | refine State.setGq_keeps C ?_ | refine foldS ?_ ?_ | refine iteS ?_ ?_
    | (fail_if_no_progress refine C.gouts_keeps ?_)

theorem State.relive_keeps (C : Closed P) {s : State} {g m : Nat} (h0 : P s) : P (State.relive s g m) := by
  unfold State.relive
  with_reducible repeat' first
    | assumption | intro _ | refine State.setBitF_keeps C ?_ | refine foldS ?_ ?_

theorem execReliveWrite_keeps (C : Closed P) {r : Req} {g : Fin 512} {m : BitVec 8} {s : State} (h0 : P s) :
    OkP P (execReliveWrite r g m s) := by
  unfold execReliveWrite
  with_reducible refine okS ?_
  with_reducible repeat' first
    | assumption | intro _ | refine State.relive_keeps C ?_ | refine State.writeTo_keeps C ?_ ?_

theorem State.gthApply_keeps (C : Closed P) {s : State} {g u : Nat} (h0 : P s) : P (State.gthApply s g u) := by
  unfold State.gthApply
  with_reducible repeat' first
    | assumption | refine State.gDrained_keeps C ?_ | refine C.setH _ _ _ ?_ | refine C.wr _ _ _ ?_
    | refine iteS ?_ ?_

theorem State.gthCommit_keeps (C : Closed P) {s : State} {hf u : Nat} (h0 : P s) : P (State.gthCommit s hf u) := by
  unfold State.gthCommit
  with_reducible repeat' first
    | assumption | intro _ | refine State.gthApply_keeps C ?_ | refine foldS ?_ ?_

theorem State.eqFlush_keeps (C : Closed P) {s : State} {e : Nat} {counted : Bool} (h0 : P s) :
    P (State.eqFlush s e counted) := by
  unfold State.eqFlush
  with_reducible repeat' first
    | assumption | intro _ | refine State.count_keeps C ?_ | refine State.drop1_keeps C ?_
    | refine State.setEq_keeps C ?_ | refine foldS ?_ ?_ | refine iteS ?_ ?_

theorem State.emitFlush_keeps (C : Closed P) {s : State} {e : Nat} (h0 : P s) : P (State.emitFlush s e) := by
  unfold State.emitFlush
  with_reducible repeat' first
    | assumption | intro _ | refine State.drop1_keeps C ?_ | refine foldS ?_ ?_
    | (fail_if_no_progress refine C.emits_keeps ?_)

theorem State.servoLost_keeps (C : Closed P) {s : State} {e : Nat} (h0 : P s) : P (State.servoLost s e) := by
  unfold State.servoLost
  with_reducible repeat' first
    | assumption | refine State.servoFallback_keeps C ?_ | refine iteS ?_ ?_

theorem State.engMark_keeps (C : Closed P) {s : State} {e why : Nat} (h0 : P s) : P (State.engMark s e why) := by
  unfold State.engMark
  with_reducible repeat' first
    | assumption | intro _
    | (fail_if_no_progress (extract_lets +onlyGivenNames x); refine cutS (P := P) (x := x) ?_ (fun hx => ?_);
       (on_goal 1 => (unfold x; try clear x)); (on_goal 2 => clear_value x))
    | refine State.emitFlush_keeps C ?_ | refine State.eqFlush_keeps C ?_ | refine State.gthEngLost_keeps C ?_
    | refine State.ledger_keeps C ?_ | refine State.raise_keeps C ?_ | refine State.servoLost_keeps C ?_
    | refine C.setH _ _ _ ?_ | refine State.setTstate_keeps C ?_ | refine C.wr _ _ _ ?_ | refine foldS ?_ ?_
    | refine iteS ?_ ?_

theorem execEngMark_keeps (C : Closed P) {r : Req} {e : Fin 16} {s : State} (h0 : P s) : OkP P (execEngMark r e s) := by
  unfold execEngMark
  with_reducible refine okS ?_
  with_reducible repeat' first
    | assumption | intro _ | refine State.engMark_keeps C ?_ | refine C.wr _ _ _ ?_
    | refine State.writeTo_keeps C ?_ ?_

theorem State.resetF_keeps (C : Closed P) {s : State} {p : Grp → Nat → Bool} (h0 : P s) : P (State.resetF s p) := by
  unfold State.resetF
  with_reducible repeat' first
    | assumption | (fail_if_no_progress refine C.regsF _ ?_)

theorem State.engFreset_keeps (C : Closed P) {s : State} {e : Nat} (h0 : P s) : P (State.engFreset s e) := by
  unfold State.engFreset
  with_reducible repeat' first
    | assumption | intro _
    | (fail_if_no_progress (extract_lets +onlyGivenNames x); refine cutS (P := P) (x := x) ?_ (fun hx => ?_);
       (on_goal 1 => (unfold x; try clear x)); (on_goal 2 => clear_value x))
    | refine State.cacheClear_keeps C ?_ | refine State.emitFlush_keeps C ?_ | refine State.eqFlush_keeps C ?_
    | refine State.gthEngLost_keeps C ?_ | refine State.resetF_keeps C ?_ | refine C.setH _ _ _ ?_
    | refine State.setHatch_keeps C ?_ | refine State.setTstate_keeps C ?_ | refine State.thrZero_keeps C ?_
    | refine C.wr _ _ _ ?_ | refine foldS ?_ ?_

theorem execEngFreset_keeps (C : Closed P) {r : Req} {e : Fin 16} {s : State} (h0 : P s) :
    OkP P (execEngFreset r e s) := by
  unfold execEngFreset
  with_reducible refine okS ?_
  with_reducible repeat' first
    | assumption | intro _ | refine State.engFreset_keeps C ?_ | refine State.writeTo_keeps C ?_ ?_

theorem State.pantryWipe_keeps (C : Closed P) {s : State} {e : Nat} (h0 : P s) : P (State.pantryWipe s e) := by
  unfold State.pantryWipe
  with_reducible repeat' first
    | assumption | refine State.wipe_keeps C ?_

theorem execPantryWipeDone_keeps (C : Closed P) {e : Fin 16} {s : State} (h0 : P s) :
    OkP P (execPantryWipeDone e s) := by
  unfold execPantryWipeDone
  with_reducible refine okS ?_
  with_reducible repeat' first
    | assumption | intro _ | refine State.inDom_keeps C ?_ ?_ | refine State.pantryWipe_keeps C ?_
    | refine State.passAge_keeps C ?_ | refine State.when_keeps C ?_ ?_ | refine C.wr _ _ _ ?_

end Sys2Proof.Machine
end

