-- ==== Sys2Proof/Laws/KeepsNet.lean ====
section
/-! SUPPORT. Streams, forwarding, egress, in-band messages, twins, images and surveys: what each definition hands on keeps every property the primitive updates keep. -/

namespace Sys2Proof.Machine

variable {P : State → Prop}

theorem State.recover_keeps (C : Closed P) {s : State} {k seq : Nat} (h0 : P s) : P (State.recover s k seq).2 := by
  unfold State.recover
  with_reducible repeat' first
    | assumption | refine State.count_keeps C ?_ | refine C.setH _ _ _ ?_ | refine C.wr _ _ _ ?_
    | (fail_if_no_progress (extract_lets +onlyGivenNames x)) | split

theorem State.autoTakeFrom_keeps (C : Closed P) {old s : State} (h0 : P old) (h1 : P s) :
    P (State.autoTakeFrom old s) := by
  unfold State.autoTakeFrom
  with_reducible repeat' first
    | assumption | refine State.intRequest_keeps C ?_ | refine State.raise_keeps C ?_ | refine iteS ?_ ?_

theorem State.watchMoved_keeps (C : Closed P) {s : State} {k : Nat} (h0 : P s) : P (State.watchMoved s k) := by
  unfold State.watchMoved
  with_reducible repeat' first
    | assumption | intro _
    | (fail_if_no_progress (extract_lets +onlyGivenNames x); refine cutS (P := P) (x := x) ?_ (fun hx => ?_);
       (on_goal 1 => (unfold x; try clear x)); (on_goal 2 => clear_value x))
    | refine State.autoTakeFrom_keeps C ?_ ?_ | refine C.wr _ _ _ ?_ | refine foldS ?_ ?_ | refine iteS ?_ ?_

theorem State.watchRx_keeps (C : Closed P) {s : State} {p : Nat} {l : List Byte} (h0 : P s) :
    P (State.watchRx s p l) := by
  unfold State.watchRx
  with_reducible repeat' first
    | assumption | intro _
    | (fail_if_no_progress (extract_lets +onlyGivenNames x); refine cutS (P := P) (x := x) ?_ (fun hx => ?_);
       (on_goal 1 => (unfold x; try clear x)); (on_goal 2 => clear_value x))
    | refine State.autoTakeFrom_keeps C ?_ ?_ | refine C.wr _ _ _ ?_ | refine foldS ?_ ?_ | refine iteS ?_ ?_ | split

theorem State.streamPass_keeps (C : Closed P) {s : State} {l : List Byte} (h0 : P s) : P (State.streamPass s l).2 := by
  unfold State.streamPass
  with_reducible repeat' first
    | assumption | refine State.count_keeps C ?_ | refine State.recover_keeps C ?_
    | refine State.watchMoved_keeps C ?_ | split

theorem execStreamResetTimeout_keeps (C : Closed P) {k : Fin 256} {s : State} (h0 : P s) :
    OkP P (execStreamResetTimeout k s) := by
  unfold execStreamResetTimeout
  with_reducible refine okS ?_
  with_reducible repeat' first
    | assumption | intro _
    | (fail_if_no_progress (extract_lets +onlyGivenNames x); refine cutS (P := P) (x := x) ?_ (fun hx => ?_);
       (on_goal 1 => (unfold x; try clear x)); (on_goal 2 => clear_value x))
    | refine State.count_keeps C ?_ | refine State.inUnit_keeps C ?_ ?_ | refine State.passAge_keeps C ?_
    | refine C.setH _ _ _ ?_ | refine iteS ?_ ?_

theorem State.markDone_keeps (C : Closed P) {s : State} {h : Nat} (h0 : P s) : P (State.markDone s h) :=
  C.queues_tx_keeps h0

theorem State.rxRecord_keeps (C : Closed P) {s : State} {p : Nat} {r : Rx} {stomp : Bool} (h0 : P s) :
    P (State.rxRecord s p r stomp) := by
  unfold State.rxRecord
  with_reducible repeat' first
    | assumption | refine State.recWrite_keeps C ?_ | refine iteS ?_ ?_

theorem State.fillCells_keeps (C : Closed P) {s : State} {p n : Nat} (h0 : P s) : P (State.fillCells s p n) := by
  induction n generalizing s with
  | zero => exact h0
  | succ n ih =>
    unfold State.fillCells
    split
    · exact h0
    · split
      · exact h0
      · have hg := State.grant_keeps C (s := s) (o := p) (p := 0) h0
        generalize s.grant p 0 = x at hg
        obtain ⟨a, t⟩ := x
        cases a with
        | none => exact State.failRx_keeps C hg
        | some h => exact ih (State.addCell_keeps C hg)

theorem State.offerLate_keeps (C : Closed P) {s : State} {h : Nat} {x : Nat × Nat × Copy} (h0 : P s) :
    P (State.offerLate s h x) := by
  unfold State.offerLate
  with_reducible repeat' first
    | assumption | refine State.drop1_keeps C ?_ | (refine pr2 (State.offerTo_keeps C ?_) (by assumption)) | split

theorem State.pdrTake_keeps (C : Closed P) {s : State} {p : Nat} {r : Rx} (h0 : P s) : P (State.pdrTake s p r) := by
  unfold State.pdrTake
  with_reducible repeat' first
    | assumption
    | (fail_if_no_progress (extract_lets +onlyGivenNames x); refine cutS (P := P) (x := x) ?_ (fun hx => ?_);
       (on_goal 1 => (unfold x; try clear x)); (on_goal 2 => clear_value x))
    | refine State.count_keeps C ?_ | refine State.setRx_keeps C ?_ | refine iteS ?_ ?_

theorem State.frameEnd_keeps (C : Closed P) {s : State} {p : Nat} (h0 : P s) : P (State.frameEnd s p) := by
  unfold State.frameEnd
  with_reducible repeat' first
    | assumption | intro _
    | (fail_if_no_progress (extract_lets +onlyGivenNames x); refine cutS (P := P) (x := x) ?_ (fun hx => ?_);
       (on_goal 1 => (unfold x; try clear x)); (on_goal 2 => clear_value x))
    | refine State.failRx_keeps C ?_ | refine State.fillCells_keeps C ?_ | refine State.markDone_keeps C ?_
    | refine State.offerLate_keeps C ?_ | refine State.pdrTake_keeps C ?_ | refine State.rxRecord_keeps C ?_
    | refine State.setRx_keeps C ?_ | refine foldS ?_ ?_ | refine iteS ?_ ?_ | split

theorem execFrameComplete_keeps (C : Closed P) {p : Fin 72} {s : State} (h0 : P s) : OkP P (execFrameComplete p s) := by
  unfold execFrameComplete
  with_reducible refine okS ?_
  with_reducible repeat' first
    | assumption | intro _ | refine State.frameEnd_keeps C ?_ | refine State.inUnit_keeps C ?_ ?_

theorem execCutThroughUnderrun_keeps (C : Closed P) {p : Fin 72} {s : State} (h0 : P s) :
    OkP P (execCutThroughUnderrun p s) := by
  unfold execCutThroughUnderrun
  with_reducible refine okS ?_
  with_reducible repeat' first
    | assumption | intro _ | refine State.inUnit_keeps C ?_ ?_ | refine State.stompTx_keeps C ?_ | refine iteS ?_ ?_
    | split

theorem State.macCount_keeps (C : Closed P) {s : State} {p : Nat} {l : List Byte} (h0 : P s) :
    P (State.macCount s p l) := by
  unfold State.macCount
  with_reducible repeat' first
    | assumption
    | (fail_if_no_progress (extract_lets +onlyGivenNames x); refine cutS (P := P) (x := x) ?_ (fun hx => ?_);
       (on_goal 1 => (unfold x; try clear x)); (on_goal 2 => clear_value x))
    | refine State.bump_keeps C ?_ | refine iteS ?_ ?_

theorem State.rxTake_keeps (C : Closed P) {s : State} {p : Nat} {x : StampIn} {l : List Byte} (h0 : P s) :
    P (State.rxTake s p x l) := by
  unfold State.rxTake
  with_reducible repeat' first
    | assumption | refine State.count_keeps C ?_ | refine State.setRx_keeps C ?_ | refine iteS ?_ ?_

theorem State.frameRx_keeps (C : Closed P) {s : State} {p : Nat} {x : StampIn} {l : List Byte} (h0 : P s) :
    P (State.frameRx s p x l) := by
  unfold State.frameRx
  with_reducible repeat' first
    | assumption
    | (fail_if_no_progress (extract_lets +onlyGivenNames x); refine cutS (P := P) (x := x) ?_ (fun hx => ?_);
       (on_goal 1 => (unfold x; try clear x)); (on_goal 2 => clear_value x))
    | refine State.bump_keeps C ?_ | refine State.count_keeps C ?_ | refine State.frameEnd_keeps C ?_
    | refine State.macCount_keeps C ?_ | refine State.rxTake_keeps C ?_ | refine State.watchRx_keeps C ?_
    | refine iteS ?_ ?_ | (fail_if_no_progress (extract_lets +onlyGivenNames x)) | split

theorem execFrameReceive_keeps (C : Closed P) {p : Fin 72} {x : StampIn} {octets : List (BitVec 8)} {s : State}
    (h0 : P s) :
    OkP P (execFrameReceive p x octets s) := by
  unfold execFrameReceive
  with_reducible refine okS ?_
  with_reducible repeat' first
    | assumption | intro _ | refine State.frameRx_keeps C ?_ | refine State.inUnit_keeps C ?_ ?_
    | refine State.when_keeps C ?_ ?_

theorem State.copyOut_keeps (C : Closed P) {s : State} {h md : Nat} {w : Want} (h0 : P s) :
    P (State.copyOut s h md w) := by
  unfold State.copyOut
  with_reducible repeat' first
    | assumption | refine State.drop1_keeps C ?_ | (refine pr2 (State.offerTo_keeps C ?_) (by assumption))
    | refine State.setRx_keeps C ?_ | refine iteS ?_ ?_ | (fail_if_no_progress (extract_lets +onlyGivenNames x))
    | split

theorem State.makeCopies_keeps (C : Closed P) {s : State} {pr h md : Nat} {ws : List Want} (h0 : P s) :
    P (State.makeCopies s pr h md ws) := by
  unfold State.makeCopies
  with_reducible repeat' first
    | assumption | intro _ | refine State.copyOut_keeps C ?_ | refine State.count_keeps C ?_
    | refine State.freeBuf_keeps C ?_ | refine State.setBuf_keeps C ?_ | refine foldS ?_ ?_ | refine iteS ?_ ?_

theorem State.rxDrop_keeps (C : Closed P) {s : State} {p : Nat} (h0 : P s) : P (State.rxDrop s p) := by
  unfold State.rxDrop
  with_reducible repeat' first
    | assumption
    | (fail_if_no_progress (extract_lets +onlyGivenNames x); refine cutS (P := P) (x := x) ?_ (fun hx => ?_);
       (on_goal 1 => (unfold x; try clear x)); (on_goal 2 => clear_value x))
    | refine State.freeBuf_keeps C ?_ | refine State.setRx_keeps C ?_ | refine iteS ?_ ?_ | split

theorem State.rxStore_keeps (C : Closed P) {s : State} {p : Nat} (h0 : P s) : P (State.rxStore s p) := by
  unfold State.rxStore
  with_reducible repeat' first
    | assumption | refine State.fillCells_keeps C ?_ | refine iteS ?_ ?_ | split

theorem State.ingressOut_keeps (C : Closed P) {s : State} {p pr md : Nat} (h0 : P s) :
    P (State.ingressOut s p pr md) := by
  unfold State.ingressOut
  with_reducible repeat' first
    | assumption
    | (fail_if_no_progress (extract_lets +onlyGivenNames x); refine cutS (P := P) (x := x) ?_ (fun hx => ?_);
       (on_goal 1 => (unfold x; try clear x)); (on_goal 2 => clear_value x))
    | refine State.count_keeps C ?_ | refine State.makeCopies_keeps C ?_ | refine State.rxDrop_keeps C ?_
    | refine State.rxStore_keeps C ?_ | refine iteS ?_ ?_ | (fail_if_no_progress (extract_lets +onlyGivenNames x))
    | split

theorem State.ingress_keeps (C : Closed P) {s : State} {p : Nat} (h0 : P s) : P (State.ingress s p) := by
  unfold State.ingress
  with_reducible repeat' first
    | assumption
    | (fail_if_no_progress (extract_lets +onlyGivenNames x); refine cutS (P := P) (x := x) ?_ (fun hx => ?_);
       (on_goal 1 => (unfold x; try clear x)); (on_goal 2 => clear_value x))
    | refine State.ingressOut_keeps C ?_ | (refine pr2 (State.pipeline_keeps C ?_) (by assumption))
    | refine State.rxDrop_keeps C ?_ | refine State.setFrameBytes_keeps C ?_ | refine State.setRx_keeps C ?_
    | (refine pr2 (State.streamPass_keeps C ?_) (by assumption)) | refine iteS ?_ ?_
    | (fail_if_no_progress (extract_lets +onlyGivenNames x)) | split

theorem execHeadWindowComplete_keeps (C : Closed P) {p : Fin 72} {s : State} (h0 : P s) :
    OkP P (execHeadWindowComplete p s) := by
  unfold execHeadWindowComplete
  with_reducible refine okS ?_
  with_reducible repeat' first
    | assumption | intro _ | refine State.inUnit_keeps C ?_ ?_ | refine State.ingress_keeps C ?_

theorem State.heldMark_keeps (C : Closed P) {s : State} {p : Nat} (h0 : P s) : P (State.heldMark s p) := by
  unfold State.heldMark
  with_reducible repeat' first
    | assumption | intro _ | refine State.count_keeps C ?_ | refine C.setH _ _ _ ?_ | refine foldS ?_ ?_
    | refine iteS ?_ ?_

theorem State.dwrrPick_keeps (C : Closed P) {s : State} {p n : Nat} (h0 : P s) : P (State.dwrrPick s p n).2 := by
  induction n generalizing s with
  | zero => exact h0
  | succ n ih =>
    unfold State.dwrrPick
    repeat' first
      | with_reducible assumption
      | (fail_if_no_progress (extract_lets +onlyGivenNames x); with_reducible refine cutS (P := P) (x := x) ?_ (fun hx => ?_); (on_goal 1 => (unfold x; try clear x)); (on_goal 2 => clear_value x))
      | with_reducible refine C.setH _ _ _ ?_
      | with_reducible refine ih ?_
      | with_reducible refine iteS ?_ ?_
      | (fail_if_no_progress (extract_lets +onlyGivenNames x))
      | split

theorem State.schedPick_keeps (C : Closed P) {s : State} {p : Nat} (h0 : P s) : P (State.schedPick s p).2 := by
  unfold State.schedPick
  with_reducible repeat' first
    | assumption | refine State.dwrrPick_keeps C ?_ | (fail_if_no_progress (extract_lets +onlyGivenNames x)) | split

theorem State.txStart_keeps (C : Closed P) {s : State} {p t : Nat} {d : Copy} {cong : Bool} (h0 : P s) :
    P (State.txStart s p t d cong) := by
  unfold State.txStart
  with_reducible repeat' first
    | assumption | refine State.pipeline_keeps C ?_ | refine State.setTx_keeps C ?_

theorem State.granUe_keeps (C : Closed P) {s : State} {d : Copy} {k sub : Nat} (h0 : P s) :
    P (State.granUe s d k sub) := by
  unfold State.granUe
  with_reducible repeat' first
    | assumption | refine State.count_keeps C ?_ | refine State.raise_keeps C ?_

theorem State.selectFrom_keeps (C : Closed P) {s : State} {p t : Nat} {ue : Option (Fin 64 × BitVec 16)} (h0 : P s) :
    P (State.selectFrom s p t ue) := by
  unfold State.selectFrom
  with_reducible repeat' first
    | assumption
    | (fail_if_no_progress (extract_lets +onlyGivenNames x); refine cutS (P := P) (x := x) ?_ (fun hx => ?_);
       (on_goal 1 => (unfold x; try clear x)); (on_goal 2 => clear_value x))
    | refine State.drop1_keeps C ?_ | refine State.granUe_keeps C ?_ | refine C.setH _ _ _ ?_
    | refine State.setQueue_keeps C ?_ | refine State.stompTx_keeps C ?_ | refine State.txStart_keeps C ?_
    | refine iteS ?_ ?_ | (fail_if_no_progress (extract_lets +onlyGivenNames x)) | split

theorem State.select_keeps (C : Closed P) {s : State} {p : Nat} {ue : Option (Fin 64 × BitVec 16)} (h0 : P s) :
    P (State.select s p ue) := by
  unfold State.select
  with_reducible repeat' first
    | assumption | refine State.heldMark_keeps C ?_ | (refine pr2 (State.schedPick_keeps C ?_) (by assumption))
    | refine State.selectFrom_keeps C ?_ | refine State.setCtl_keeps C ?_ | refine State.setTx_keeps C ?_
    | refine iteS ?_ ?_ | split

theorem execSchedulerSelect_keeps (C : Closed P) {p : Fin 72} {ue : Option (Fin 64 × BitVec 16)} {s : State}
    (h0 : P s) :
    OkP P (execSchedulerSelect p ue s) := by
  unfold execSchedulerSelect
  with_reducible refine okS ?_
  with_reducible repeat' first
    | assumption | intro _ | refine State.inUnit_keeps C ?_ ?_ | refine State.select_keeps C ?_

theorem State.stampAct_keeps (C : Closed P) {s : State} {p : Nat} {t : Tx} {l : List Byte} {d : Nat} (h0 : P s) :
    P (State.stampAct s p t l d).2 := by
  unfold State.stampAct
  with_reducible repeat' first
    | assumption | refine State.cfSat_keeps C ?_ | refine State.count_keeps C ?_ | refine iteS ?_ ?_ | split

theorem State.depart_keeps (C : Closed P) {s : State} {p : Nat} {x : StampOut} (h0 : P s) : P (State.depart s p x) := by
  unfold State.depart
  with_reducible repeat' first
    | assumption | refine State.count_keeps C ?_ | refine State.raiseP_keeps C ?_ | refine C.setH _ _ _ ?_
    | refine State.setTx_keeps C ?_ | refine State.stampAct_keeps C ?_ | refine iteS ?_ ?_
    | (fail_if_no_progress (extract_lets +onlyGivenNames x)) | split

theorem execFrameDeparture_keeps (C : Closed P) {p : Fin 72} {x : StampOut} {s : State} (h0 : P s) :
    OkP P (execFrameDeparture p x s) := by
  unfold execFrameDeparture
  with_reducible refine okS ?_
  with_reducible repeat' first
    | assumption | intro _ | refine State.depart_keeps C ?_ | refine State.inUnit_keeps C ?_ ?_

theorem State.txRecord_keeps (C : Closed P) {s : State} {p : Nat} {t : Tx} (h0 : P s) : P (State.txRecord s p t) := by
  unfold State.txRecord
  with_reducible repeat' first
    | assumption | refine State.recWrite_keeps C ?_ | refine iteS ?_ ?_

theorem State.txStats_keeps (C : Closed P) {s : State} {p : Nat} {t : Tx} (h0 : P s) : P (State.txStats s p t) := by
  unfold State.txStats
  with_reducible repeat' first
    | assumption | refine State.bump_keeps C ?_ | refine iteS ?_ ?_

theorem State.txEnd_keeps (C : Closed P) {s : State} {p : Nat} (h0 : P s) : P (State.txEnd s p) := by
  unfold State.txEnd
  with_reducible repeat' first
    | assumption
    | (fail_if_no_progress (extract_lets +onlyGivenNames x); refine cutS (P := P) (x := x) ?_ (fun hx => ?_);
       (on_goal 1 => (unfold x; try clear x)); (on_goal 2 => clear_value x))
    | refine State.drop1_keeps C ?_ | refine State.setTx_keeps C ?_ | refine State.txRecord_keeps C ?_
    | refine State.txStats_keeps C ?_ | refine iteS ?_ ?_ | split

theorem execFrameTransmitEnd_keeps (C : Closed P) {p : Fin 72} {s : State} (h0 : P s) :
    OkP P (execFrameTransmitEnd p s) := by
  unfold execFrameTransmitEnd
  with_reducible refine okS ?_
  with_reducible repeat' first
    | assumption | intro _ | refine State.inUnit_keeps C ?_ ?_ | refine State.txEnd_keeps C ?_

theorem State.inbandPut_keeps (C : Closed P) {s : State} {p own ofs : Nat} {msg : List Byte} (h0 : P s) :
    P (State.inbandPut s p own ofs msg) := by
  unfold State.inbandPut
  with_reducible repeat' first
    | assumption | refine State.setCtl_keeps C ?_

theorem State.inbandSend_keeps (C : Closed P) {s : State} {p own ofs cls dst : Nat} {body : List Byte}
    {late : Bool} (h0 : P s) :
    P (State.inbandSend s p own ofs cls dst body late) := by
  unfold State.inbandSend
  with_reducible repeat' first
    | assumption | refine State.inbandPut_keeps C ?_ | refine C.setH _ _ _ ?_ | refine iteS ?_ ?_

theorem State.twSend_keeps (C : Closed P) {s : State} {cls : Nat} {body : List Byte} {void : Bool} (h0 : P s) :
    P (State.twSend s cls body void) := by
  unfold State.twSend
  with_reducible repeat' first
    | assumption | refine C.setH _ _ _ ?_ | refine iteS ?_ ?_ | (fail_if_no_progress refine C.twTx_keeps ?_)

theorem State.twTake_keeps (C : Closed P) {s : State} {cls : Nat} {h : TwHdr} {k : State → State}
    (h0 : P s) (h1 : ∀ s, P s → P (k s)) :
    P (State.twTake s cls h k) := by
  unfold State.twTake
  with_reducible repeat' first
    | assumption | refine State.count_keeps C ?_ | refine C.setH _ _ _ ?_ | refine h1 _ ?_ | refine iteS ?_ ?_

theorem State.trkLock_keeps (C : Closed P) {s : State} (h0 : P s) : P (State.trkLock s) := by
  unfold State.trkLock
  with_reducible repeat' first
    | assumption | refine State.histRestart_keeps C ?_ | refine State.histSum_keeps C ?_ | refine C.setH _ _ _ ?_
    | refine iteS ?_ ?_

theorem State.trkSet_keeps (C : Closed P) {s : State} {n : Nat} (h0 : P s) : P (State.trkSet s n) := by
  unfold State.trkSet
  with_reducible repeat' first
    | assumption | refine State.modeRecheck_keeps C ?_ | refine State.selStatus_keeps C ?_ | refine C.setH _ _ _ ?_
    | refine State.setHS_keeps C ?_ | refine State.setTwl_keeps C ?_ | refine State.trkLock_keeps C ?_
    | refine C.wr _ _ _ ?_ | refine iteS ?_ ?_

theorem State.trkSync_keeps (C : Closed P) {s : State} (h0 : P s) : P (State.trkSync s) := by
  unfold State.trkSync
  with_reducible repeat' first
    | assumption | refine State.trkSet_keeps C ?_ | refine iteS ?_ ?_

theorem State.helloSend_keeps (C : Closed P) {s : State} (h0 : P s) : P (State.helloSend s) := by
  unfold State.helloSend
  with_reducible repeat' first
    | assumption
    | (fail_if_no_progress (extract_lets +onlyGivenNames x); refine cutS (P := P) (x := x) ?_ (fun hx => ?_);
       (on_goal 1 => (unfold x; try clear x)); (on_goal 2 => clear_value x))
    | refine State.passAge_keeps C ?_ | refine C.setH _ _ _ ?_ | refine State.twSend_keeps C ?_

theorem execTwinHelloSend_keeps (C : Closed P) {s : State} (h0 : P s) : OkP P (execTwinHelloSend s) := by
  unfold execTwinHelloSend
  with_reducible refine okS ?_
  with_reducible repeat' first
    | assumption | refine State.helloSend_keeps C ?_ | refine iteS ?_ ?_

theorem State.noActiveWatch_keeps (C : Closed P) {s : State} (h0 : P s) : P (State.noActiveWatch s) := by
  unfold State.noActiveWatch
  with_reducible repeat' first
    | assumption | refine C.setH _ _ _ ?_ | refine iteS ?_ ?_

theorem State.helloRole_keeps (C : Closed P) {s : State} {b : TwHello} (h0 : P s) : P (State.helloRole s b) := by
  unfold State.helloRole
  with_reducible repeat' first
    | assumption | refine State.intRequest_keeps C ?_ | refine State.raise_keeps C ?_ | refine iteS ?_ ?_

theorem State.helloTake_keeps (C : Closed P) {s : State} {b : TwHello} (h0 : P s) : P (State.helloTake s b) := by
  unfold State.helloTake
  with_reducible repeat' first
    | assumption
    | (fail_if_no_progress (extract_lets +onlyGivenNames x); refine cutS (P := P) (x := x) ?_ (fun hx => ?_);
       (on_goal 1 => (unfold x; try clear x)); (on_goal 2 => clear_value x))
    | refine State.helloRole_keeps C ?_ | refine State.noActiveWatch_keeps C ?_ | refine State.raise_keeps C ?_
    | refine C.setH _ _ _ ?_ | refine State.trkSync_keeps C ?_ | refine C.wr _ _ _ ?_ | refine iteS ?_ ?_

theorem execTwinHelloReceive_keeps (C : Closed P) {h : TwHdr} {b : TwHello} {s : State} (h0 : P s) :
    OkP P (execTwinHelloReceive h b s) := by
  unfold execTwinHelloReceive
  with_reducible refine okS ?_
  with_reducible repeat' first
    | assumption | intro _ | refine State.helloTake_keeps C ?_ | refine State.twTake_keeps C ?_ ?_

theorem State.twinTimeout_keeps (C : Closed P) {s : State} (h0 : P s) : P (State.twinTimeout s) := by
  unfold State.twinTimeout
  with_reducible repeat' first
    | assumption
    | (fail_if_no_progress (extract_lets +onlyGivenNames x); refine cutS (P := P) (x := x) ?_ (fun hx => ?_);
       (on_goal 1 => (unfold x; try clear x)); (on_goal 2 => clear_value x))
    | refine State.autoTakeFrom_keeps C ?_ ?_ | refine State.noActiveWatch_keeps C ?_
    | refine State.passAge_keeps C ?_ | refine State.raise_keeps C ?_ | refine State.trkSync_keeps C ?_
    | refine C.wr _ _ _ ?_ | refine iteS ?_ ?_

theorem execTwinLinkTimeout_keeps (C : Closed P) {s : State} (h0 : P s) : OkP P (execTwinLinkTimeout s) := by
  unfold execTwinLinkTimeout
  with_reducible refine okS ?_
  with_reducible repeat' first
    | assumption | refine State.twinTimeout_keeps C ?_ | refine iteS ?_ ?_

theorem execNoActive_keeps (C : Closed P) {s : State} (h0 : P s) : OkP P (execNoActive s) := by
  unfold execNoActive
  with_reducible refine okS ?_
  with_reducible repeat' first
    | assumption | intro _
    | (fail_if_no_progress (extract_lets +onlyGivenNames x); refine cutS (P := P) (x := x) ?_ (fun hx => ?_);
       (on_goal 1 => (unfold x; try clear x)); (on_goal 2 => clear_value x))
    | refine State.inDom_keeps C ?_ ?_ | refine State.passAge_keeps C ?_ | refine State.raise_keeps C ?_
    | refine C.setH _ _ _ ?_ | refine iteS ?_ ?_

theorem State.stateSend_keeps (C : Closed P) {s : State} (h0 : P s) : P (State.stateSend s) := by
  unfold State.stateSend
  with_reducible repeat' first
    | assumption | refine State.count_keeps C ?_ | refine C.setH _ _ _ ?_ | refine State.twSend_keeps C ?_
    | refine iteS ?_ ?_

theorem State.stateTake_keeps (C : Closed P) {s : State} {b : BitVec 832} (h0 : P s) : P (State.stateTake s b) := by
  unfold State.stateTake
  with_reducible repeat' first
    | assumption
    | (fail_if_no_progress (extract_lets +onlyGivenNames x); refine cutS (P := P) (x := x) ?_ (fun hx => ?_);
       (on_goal 1 => (unfold x; try clear x)); (on_goal 2 => clear_value x))
    | refine State.selStatus_keeps C ?_ | refine C.setH _ _ _ ?_ | refine State.trkLock_keeps C ?_
    | refine C.wr _ _ _ ?_

theorem execTwinStateReceive_keeps (C : Closed P) {h : TwHdr} {b : BitVec 832} {s : State} (h0 : P s) :
    OkP P (execTwinStateReceive h b s) := by
  unfold execTwinStateReceive
  with_reducible refine okS ?_
  with_reducible repeat' first
    | assumption | intro _ | refine State.stateTake_keeps C ?_ | refine State.twTake_keeps C ?_ ?_
    | refine State.when_keeps C ?_ ?_

theorem State.leapCopy_keeps (C : Closed P) {s : State} (h0 : P s) : P (State.leapCopy s) := by
  unfold State.leapCopy
  with_reducible repeat' first
    | assumption | intro _ | refine State.leapWatch_keeps C ?_ | refine C.setH _ _ _ ?_ | refine C.wr _ _ _ ?_
    | refine foldS ?_ ?_ | refine iteS ?_ ?_

theorem execTwinPhaseReqSend_keeps (C : Closed P) {x : StampOut} {s : State} (h0 : P s) :
    OkP P (execTwinPhaseReqSend x s) := by
  unfold execTwinPhaseReqSend
  with_reducible refine okS ?_
  with_reducible repeat' first
    | assumption
    | (fail_if_no_progress (extract_lets +onlyGivenNames x); refine cutS (P := P) (x := x) ?_ (fun hx => ?_);
       (on_goal 1 => (unfold x; try clear x)); (on_goal 2 => clear_value x))
    | refine State.passAge_keeps C ?_ | refine C.setH _ _ _ ?_ | refine State.twSend_keeps C ?_ | refine iteS ?_ ?_

theorem execTwinPhaseReqReceive_keeps (C : Closed P) {h : TwHdr} {x : StampIn} {y : StampOut} {s : State} (h0 : P s) :
    OkP P (execTwinPhaseReqReceive h x y s) := by
  unfold execTwinPhaseReqReceive
  with_reducible refine okS ?_
  with_reducible repeat' first
    | assumption | intro _ | refine State.twSend_keeps C ?_ | refine State.twTake_keeps C ?_ ?_
    | refine State.when_keeps C ?_ ?_

theorem State.trkStep_keeps (C : Closed P) {s : State} (h0 : P s) : P (State.trkStep s) := by
  unfold State.trkStep
  with_reducible repeat' first
    | assumption | refine State.raise_keeps C ?_ | refine C.setH _ _ _ ?_ | refine State.setHS_keeps C ?_
    | refine State.stepArm_keeps C ?_ | refine C.wr _ _ _ ?_ | refine iteS ?_ ?_

theorem State.trkSample_keeps (C : Closed P) {s : State} {x : Int} (h0 : P s) : P (State.trkSample s x) := by
  unfold State.trkSample
  with_reducible repeat' first
    | assumption
    | (fail_if_no_progress (extract_lets +onlyGivenNames x); refine cutS (P := P) (x := x) ?_ (fun hx => ?_);
       (on_goal 1 => (unfold x; try clear x)); (on_goal 2 => clear_value x))
    | refine C.setH _ _ _ ?_ | refine State.setHS_keeps C ?_ | refine State.setTwl_keeps C ?_
    | refine State.trkStep_keeps C ?_ | refine State.trkSync_keeps C ?_ | refine iteS ?_ ?_

theorem State.trkExchange_keeps (C : Closed P) {s : State} {lane : Nat} {t1 t2 t3 t4 : Int} (h0 : P s) :
    P (State.trkExchange s lane t1 t2 t3 t4) := by
  unfold State.trkExchange
  with_reducible repeat' first
    | assumption | refine State.jumpRefuse_keeps C ?_ | refine State.jumpWithin_keeps C ?_
    | refine State.trkSample_keeps C ?_ | refine iteS ?_ ?_ | split

theorem execTwinPhaseRespReceive_keeps (C : Closed P) {h : TwHdr} {x : StampIn} {t2 t3 : BitVec 96} {s : State}
    (h0 : P s) :
    OkP P (execTwinPhaseRespReceive h x t2 t3 s) := by
  unfold execTwinPhaseRespReceive
  with_reducible refine okS ?_
  with_reducible repeat' first
    | assumption | intro _ | refine C.setH _ _ _ ?_ | refine State.trkExchange_keeps C ?_
    | refine State.twTake_keeps C ?_ ?_ | refine iteS ?_ ?_

theorem State.trkBoundary_keeps (C : Closed P) {s : State} (h0 : P s) : P (State.trkBoundary s) := by
  unfold State.trkBoundary
  with_reducible repeat' first
    | assumption | refine State.raise_keeps C ?_ | refine C.setH _ _ _ ?_ | refine State.setTwl_keeps C ?_
    | refine State.trkSet_keeps C ?_ | refine State.wrS_keeps C ?_ | refine iteS ?_ ?_

theorem State.trkDeadline_keeps (C : Closed P) {s : State} (h0 : P s) : P (State.trkDeadline s) := by
  unfold State.trkDeadline
  with_reducible repeat' first
    | assumption | refine State.putWord_keeps C ?_ | refine State.setTwl_keeps C ?_ | refine State.wrS_keeps C ?_
    | refine iteS ?_ ?_

theorem State.swapFail_keeps (C : Closed P) {s : State} (h0 : P s) : P (State.swapFail s) := by
  unfold State.swapFail
  with_reducible repeat' first
    | assumption | refine C.setH _ _ _ ?_ | refine C.wr _ _ _ ?_

theorem State.swapArm_keeps (C : Closed P) {s : State} {t : Nat} (h0 : P s) : P (State.swapArm s t) := by
  unfold State.swapArm
  with_reducible repeat' first
    | assumption
    | (fail_if_no_progress (extract_lets +onlyGivenNames x); refine cutS (P := P) (x := x) ?_ (fun hx => ?_);
       (on_goal 1 => (unfold x; try clear x)); (on_goal 2 => clear_value x))
    | refine State.arm_keeps C ?_ | refine State.intRequest_keeps C ?_ | refine C.setH _ _ _ ?_ | refine C.wr _ _ _ ?_
    | refine iteS ?_ ?_

theorem State.swapGo_keeps (C : Closed P) {s : State} (h0 : P s) : P (State.swapGo s) := by
  unfold State.swapGo
  with_reducible repeat' first
    | assumption
    | (fail_if_no_progress (extract_lets +onlyGivenNames x); refine cutS (P := P) (x := x) ?_ (fun hx => ?_);
       (on_goal 1 => (unfold x; try clear x)); (on_goal 2 => clear_value x))
    | refine C.setH _ _ _ ?_ | refine State.swapFail_keeps C ?_ | refine State.twSend_keeps C ?_ | refine iteS ?_ ?_

theorem execTwnSwapGo_keeps (C : Closed P) {r : Req} {s : State} (h0 : P s) : OkP P (execTwnSwapGo r s) := by
  unfold execTwnSwapGo
  with_reducible refine okS ?_
  with_reducible repeat' first
    | assumption | intro _ | refine State.swapGo_keeps C ?_ | refine State.writeTo_keeps C ?_ ?_

theorem execTwinSwapReceive_keeps (C : Closed P) {h : TwHdr} {t : BitVec 96} {_gen : BitVec 16} {s : State} (h0 : P s) :
    OkP P (execTwinSwapReceive h t _gen s) := by
  unfold execTwinSwapReceive
  with_reducible refine okS ?_
  with_reducible repeat' first
    | assumption | intro _ | refine State.swapArm_keeps C ?_ | refine State.twSend_keeps C ?_
    | refine State.twTake_keeps C ?_ ?_ | refine iteS ?_ ?_

theorem execTwinSwapAckReceive_keeps (C : Closed P) {h : TwHdr} {accepted aligned : Bool} {s : State} (h0 : P s) :
    OkP P (execTwinSwapAckReceive h accepted aligned s) := by
  unfold execTwinSwapAckReceive
  with_reducible refine okS ?_
  with_reducible repeat' first
    | assumption | intro _ | refine C.setH _ _ _ ?_ | refine State.swapArm_keeps C ?_
    | refine State.swapFail_keeps C ?_ | refine State.twTake_keeps C ?_ ?_ | refine iteS ?_ ?_

theorem execSwapAckTimeout_keeps (C : Closed P) {s : State} (h0 : P s) : OkP P (execSwapAckTimeout s) := by
  unfold execSwapAckTimeout
  with_reducible refine okS ?_
  with_reducible repeat' first
    | assumption | intro _ | refine State.inDom_keeps C ?_ ?_ | refine State.passAge_keeps C ?_
    | refine State.swapFail_keeps C ?_ | refine iteS ?_ ?_

theorem State.imgRefused_keeps (C : Closed P) {s : State} {code : Nat} {l : List Byte} {src : LedSrc} (h0 : P s) :
    P (State.imgRefused s code l src) := by
  unfold State.imgRefused
  with_reducible repeat' first
    | assumption | refine State.ledger_keeps C ?_

theorem State.rtTrack_keeps (C : Closed P) {s : State} {p : Nat} {rt : Int} (h0 : P s) : P (State.rtTrack s p rt) := by
  unfold State.rtTrack
  with_reducible repeat' first
    | assumption | refine State.modelFollow_keeps C ?_ | refine C.setH _ _ _ ?_ | refine State.setRts_keeps C ?_
    | refine C.wr _ _ _ ?_ | refine iteS ?_ ?_

theorem State.checkGo_keeps (C : Closed P) {s : State} {p : Nat} (h0 : P s) : P (State.checkGo s p) := by
  unfold State.checkGo
  with_reducible repeat' first
    | assumption | refine State.checkStart_keeps C ?_ | refine C.wr _ _ _ ?_

theorem execDelayCheckStart_keeps (C : Closed P) {r : Req} {p : Fin 72} {s : State} (h0 : P s) :
    OkP P (execDelayCheckStart r p s) := by
  unfold execDelayCheckStart
  with_reducible refine okS ?_
  with_reducible repeat' first
    | assumption | intro _ | refine State.checkGo_keeps C ?_ | refine State.writeTo_keeps C ?_ ?_

theorem State.checkRun_keeps (C : Closed P) {s : State} {p : Nat} {cmis : Option (BitVec 16 × BitVec 16)}
    {resid : Nat} (h0 : P s) :
    P (State.checkRun s p cmis resid) := by
  unfold State.checkRun
  with_reducible repeat' first
    | assumption
    | (fail_if_no_progress (extract_lets +onlyGivenNames x); refine cutS (P := P) (x := x) ?_ (fun hx => ?_);
       (on_goal 1 => (unfold x; try clear x)); (on_goal 2 => clear_value x))
    | refine State.modDelays_keeps C ?_ | refine C.setH _ _ _ ?_ | refine C.wr _ _ _ ?_ | refine iteS ?_ ?_

theorem execDelayCheckWaitExpiry_keeps (C : Closed P) {p : Fin 72} {cmis : Option (BitVec 16 × BitVec 16)}
    {resid : BitVec 16} {s : State} (h0 : P s) :
    OkP P (execDelayCheckWaitExpiry p cmis resid s) := by
  unfold execDelayCheckWaitExpiry
  with_reducible refine okS ?_
  with_reducible repeat' first
    | assumption | intro _ | refine State.checkRun_keeps C ?_ | refine State.inUnit_keeps C ?_ ?_
    | refine State.when_keeps C ?_ ?_

theorem State.checkPass_keeps (C : Closed P) {s : State} {p : Nat} {rt : Option Int} (h0 : P s) :
    P (State.checkPass s p rt) := by
  unfold State.checkPass
  with_reducible repeat' first
    | assumption | refine State.dlyValid_keeps C ?_ | refine State.modelFollow_keeps C ?_ | refine C.setH _ _ _ ?_
    | refine State.setRts_keeps C ?_ | refine C.wr _ _ _ ?_ | split

theorem State.checkDone_keeps (C : Closed P) {s : State} {p : Nat} {rt : Option Int} (h0 : P s) :
    P (State.checkDone s p rt) := by
  unfold State.checkDone
  with_reducible repeat' first
    | assumption
    | (fail_if_no_progress (extract_lets +onlyGivenNames x); refine cutS (P := P) (x := x) ?_ (fun hx => ?_);
       (on_goal 1 => (unfold x; try clear x)); (on_goal 2 => clear_value x))
    | refine State.checkPass_keeps C ?_ | refine State.dlyInvalid_keeps C ?_ | refine State.raiseP_keeps C ?_
    | refine C.setH _ _ _ ?_ | refine C.wr _ _ _ ?_ | refine iteS ?_ ?_

theorem execDelayCheckDone_keeps (C : Closed P) {p : Fin 72} {rt : Option (BitVec 64)} {s : State} (h0 : P s) :
    OkP P (execDelayCheckDone p rt s) := by
  unfold execDelayCheckDone
  with_reducible refine okS ?_
  with_reducible repeat' first
    | assumption | intro _ | refine State.checkDone_keeps C ?_ | refine State.inUnit_keeps C ?_ ?_
    | refine State.when_keeps C ?_ ?_

theorem State.survSend_keeps (C : Closed P) {s : State} {p own : Nat} {body : List Byte} (h0 : P s) :
    P (State.survSend s p own body) := by
  unfold State.survSend
  with_reducible repeat' first
    | assumption | refine State.inbandSend_keeps C ?_

theorem State.wghHold_keeps (C : Closed P) {s : State} (h0 : P s) : P (State.wghHold s) := by
  unfold State.wghHold
  with_reducible repeat' first
    | assumption | intro _
    | (fail_if_no_progress (extract_lets +onlyGivenNames x); refine cutS (P := P) (x := x) ?_ (fun hx => ?_);
       (on_goal 1 => (unfold x; try clear x)); (on_goal 2 => clear_value x))
    | refine State.inDom_keeps C ?_ ?_ | refine State.setWslot_keeps C ?_ | refine C.wr _ _ _ ?_
    | refine State.wrAll_keeps C ?_

theorem State.survEnd_keeps (C : Closed P) {s : State} (h0 : P s) : P (State.survEnd s) := by
  unfold State.survEnd
  with_reducible repeat' first
    | assumption | refine C.setH _ _ _ ?_ | refine State.survSend_keeps C ?_ | refine iteS ?_ ?_

theorem State.survStop_keeps (C : Closed P) {s : State} {err : Nat} (h0 : P s) : P (State.survStop s err) := by
  unfold State.survStop
  with_reducible repeat' first
    | assumption | refine State.survEnd_keeps C ?_ | refine State.survFail_keeps C ?_

theorem State.tuneStart_keeps (C : Closed P) {s : State} (h0 : P s) : P (State.tuneStart s) := by
  unfold State.tuneStart
  with_reducible repeat' first
    | assumption | refine C.setH _ _ _ ?_ | refine State.survSend_keeps C ?_ | refine C.wr _ _ _ ?_

theorem State.segRepeat_keeps (C : Closed P) {s : State} (h0 : P s) : P (State.segRepeat s) := by
  unfold State.segRepeat
  with_reducible repeat' first
    | assumption | refine C.setH _ _ _ ?_ | refine State.survStop_keeps C ?_ | refine State.tuneStart_keeps C ?_
    | refine iteS ?_ ?_

theorem State.survRefuse_keeps (C : Closed P) {s : State} (h0 : P s) : P (State.survRefuse s) := by
  unfold State.survRefuse
  with_reducible repeat' first
    | assumption | refine C.wr _ _ _ ?_

theorem State.survFresh_keeps (C : Closed P) {s : State} {kind : Nat} (h0 : P s) : P (State.survFresh s kind) := by
  unfold State.survFresh
  with_reducible repeat' first
    | assumption
    | (fail_if_no_progress (extract_lets +onlyGivenNames x); refine cutS (P := P) (x := x) ?_ (fun hx => ?_);
       (on_goal 1 => (unfold x; try clear x)); (on_goal 2 => clear_value x))
    | refine C.nextFree ?_ | refine C.setH _ _ _ ?_ | refine C.wr _ _ _ ?_

theorem State.asymStart_keeps (C : Closed P) {s : State} {p : Nat} {probe : Bool} (h0 : P s) :
    P (State.asymStart s p probe) := by
  unfold State.asymStart
  with_reducible repeat' first
    | assumption
    | (fail_if_no_progress (extract_lets +onlyGivenNames x); refine cutS (P := P) (x := x) ?_ (fun hx => ?_);
       (on_goal 1 => (unfold x; try clear x)); (on_goal 2 => clear_value x))
    | refine State.survFresh_keeps C ?_ | refine State.survRefuse_keeps C ?_ | refine State.tuneStart_keeps C ?_
    | refine C.wr _ _ _ ?_ | refine iteS ?_ ?_

theorem execAsymSurveyStart_keeps (C : Closed P) {r : Req} {p : Fin 72} {probe : Bool} {s : State} (h0 : P s) :
    OkP P (execAsymSurveyStart r p probe s) := by
  unfold execAsymSurveyStart
  with_reducible refine okS ?_
  with_reducible repeat' first
    | assumption | intro _ | refine State.asymStart_keeps C ?_ | refine State.writeTo_keeps C ?_ ?_

theorem State.tryMeasure_keeps (C : Closed P) {s : State} (h0 : P s) : P (State.tryMeasure s) := by
  unfold State.tryMeasure
  with_reducible repeat' first
    | assumption
    | (fail_if_no_progress (extract_lets +onlyGivenNames x); refine cutS (P := P) (x := x) ?_ (fun hx => ?_);
       (on_goal 1 => (unfold x; try clear x)); (on_goal 2 => clear_value x))
    | refine C.setH _ _ _ ?_ | refine State.setHS_keeps C ?_ | refine C.wr _ _ _ ?_ | refine iteS ?_ ?_

theorem execRetuneWaitExpiry_keeps (C : Closed P) {tuned : Bool} {s : State} (h0 : P s) :
    OkP P (execRetuneWaitExpiry tuned s) := by
  unfold execRetuneWaitExpiry
  with_reducible refine okS ?_
  with_reducible repeat' first
    | assumption | intro _ | refine State.inUnit_keeps C ?_ ?_ | refine State.passAge_keeps C ?_
    | refine C.setH _ _ _ ?_ | refine State.tryMeasure_keeps C ?_ | refine State.when_keeps C ?_ ?_

theorem execSurveyTuneAckReceive_keeps (C : Closed P) {p : Fin 72} {m : SurvMsg} {s : State} (h0 : P s) :
    OkP P (execSurveyTuneAckReceive p m s) := by
  unfold execSurveyTuneAckReceive
  with_reducible refine okS ?_
  with_reducible repeat' first
    | assumption | intro _ | refine State.inUnit_keeps C ?_ ?_ | refine C.setH _ _ _ ?_
    | refine State.tryMeasure_keeps C ?_ | refine State.when_keeps C ?_ ?_

theorem State.tuneFail_keeps (C : Closed P) {s : State} (h0 : P s) : P (State.tuneFail s) := by
  unfold State.tuneFail
  with_reducible repeat' first
    | assumption | refine State.passAge_keeps C ?_ | refine State.survStop_keeps C ?_ | refine iteS ?_ ?_

theorem execSurveyTuneTimeout_keeps (C : Closed P) {s : State} (h0 : P s) : OkP P (execSurveyTuneTimeout s) := by
  unfold execSurveyTuneTimeout
  with_reducible refine okS ?_
  with_reducible repeat' first
    | assumption | intro _ | refine State.inUnit_keeps C ?_ ?_ | refine State.tuneFail_keeps C ?_
    | refine State.when_keeps C ?_ ?_

theorem State.exchange_keeps (C : Closed P) {s : State} (h0 : P s) : P (State.exchange s) := by
  unfold State.exchange
  with_reducible repeat' first
    | assumption
    | (fail_if_no_progress (extract_lets +onlyGivenNames x); refine cutS (P := P) (x := x) ?_ (fun hx => ?_);
       (on_goal 1 => (unfold x; try clear x)); (on_goal 2 => clear_value x))
    | refine C.setH _ _ _ ?_ | refine State.survSend_keeps C ?_ | refine iteS ?_ ?_

theorem execSurveyExchange_keeps (C : Closed P) {s : State} (h0 : P s) : OkP P (execSurveyExchange s) := by
  unfold execSurveyExchange
  with_reducible refine okS ?_
  with_reducible repeat' first
    | assumption | intro _ | refine State.exchange_keeps C ?_ | refine State.inUnit_keeps C ?_ ?_
    | refine State.when_keeps C ?_ ?_

theorem execSurveyPeerTimeout_keeps (C : Closed P) {s : State} (h0 : P s) : OkP P (execSurveyPeerTimeout s) := by
  unfold execSurveyPeerTimeout
  with_reducible refine okS ?_
  with_reducible repeat' first
    | assumption | intro _ | refine State.inUnit_keeps C ?_ ?_ | refine State.survStop_keeps C ?_
    | refine State.when_keeps C ?_ ?_

theorem State.cycleEnd_keeps (C : Closed P) {s : State} (h0 : P s) : P (State.cycleEnd s) := by
  unfold State.cycleEnd
  with_reducible repeat' first
    | assumption | refine State.setHS_keeps C ?_ | refine State.tuneStart_keeps C ?_ | refine C.wr _ _ _ ?_
    | refine iteS ?_ ?_

theorem State.segEnd_keeps (C : Closed P) {s : State} (h0 : P s) : P (State.segEnd s) := by
  unfold State.segEnd
  with_reducible repeat' first
    | assumption | refine State.cycleEnd_keeps C ?_ | refine C.setH _ _ _ ?_ | refine State.setHS_keeps C ?_
    | refine State.tuneStart_keeps C ?_ | refine C.wr _ _ _ ?_ | refine iteS ?_ ?_

theorem State.survResp_keeps (C : Closed P) {s : State} {p : Nat} {t4 : ObsStamp} {m : SurvMsg} (h0 : P s) :
    P (State.survResp s p t4 m) := by
  unfold State.survResp
  with_reducible repeat' first
    | assumption
    | (fail_if_no_progress (extract_lets +onlyGivenNames x); refine cutS (P := P) (x := x) ?_ (fun hx => ?_);
       (on_goal 1 => (unfold x; try clear x)); (on_goal 2 => clear_value x))
    | refine State.rtTrack_keeps C ?_ | refine State.segEnd_keeps C ?_ | refine State.segRepeat_keeps C ?_
    | refine C.setH _ _ _ ?_ | refine State.setHS_keeps C ?_ | refine iteS ?_ ?_

theorem execSurveyRespReceive_keeps (C : Closed P) {p : Fin 72} {t4 : ObsStamp} {m : SurvMsg} {s : State} (h0 : P s) :
    OkP P (execSurveyRespReceive p t4 m s) := by
  unfold execSurveyRespReceive
  with_reducible refine okS ?_
  with_reducible repeat' first
    | assumption | intro _ | refine State.inUnit_keeps C ?_ ?_ | refine State.survResp_keeps C ?_
    | refine State.when_keeps C ?_ ?_

theorem State.solve_keeps (C : Closed P) {s : State} (h0 : P s) : P (State.solve s) := by
  unfold State.solve
  with_reducible repeat' first
    | assumption | refine State.raiseP_keeps C ?_ | refine C.setH _ _ _ ?_ | refine State.setHS_keeps C ?_
    | refine State.survEnd_keeps C ?_ | refine C.wr _ _ _ ?_ | refine State.wrS_keeps C ?_ | refine iteS ?_ ?_

theorem execSurveySolve_keeps (C : Closed P) {s : State} (h0 : P s) : OkP P (execSurveySolve s) := by
  unfold execSurveySolve
  with_reducible refine okS ?_
  with_reducible repeat' first
    | assumption | intro _ | refine State.inUnit_keeps C ?_ ?_ | refine State.solve_keeps C ?_
    | refine State.when_keeps C ?_ ?_

theorem State.survApplyGo_keeps (C : Closed P) {s : State} (h0 : P s) : P (State.survApplyGo s) := by
  unfold State.survApplyGo
  with_reducible repeat' first
    | assumption | refine C.setH _ _ _ ?_ | refine iteS ?_ ?_

theorem execSurveyApply_keeps (C : Closed P) {r : Req} {s : State} (h0 : P s) : OkP P (execSurveyApply r s) := by
  unfold execSurveyApply
  with_reducible refine okS ?_
  with_reducible repeat' first
    | assumption | intro _ | refine State.survApplyGo_keeps C ?_ | refine State.writeTo_keeps C ?_ ?_

theorem State.asymBoundary_keeps (C : Closed P) {s : State} (h0 : P s) : P (State.asymBoundary s) := by
  unfold State.asymBoundary
  with_reducible repeat' first
    | assumption
    | (fail_if_no_progress (extract_lets +onlyGivenNames x); refine cutS (P := P) (x := x) ?_ (fun hx => ?_);
       (on_goal 1 => (unfold x; try clear x)); (on_goal 2 => clear_value x))
    | refine State.raiseP_keeps C ?_ | refine C.setH _ _ _ ?_ | refine C.wr _ _ _ ?_ | refine State.wrS_keeps C ?_
    | split

theorem State.delayBoundary_keeps (C : Closed P) {s : State} (h0 : P s) : P (State.delayBoundary s) := by
  unfold State.delayBoundary
  with_reducible repeat' first
    | assumption | intro _ | refine C.setH _ _ _ ?_ | refine foldS ?_ ?_

theorem execSurveyAbort_keeps (C : Closed P) {r : Req} {s : State} (h0 : P s) : OkP P (execSurveyAbort r s) := by
  unfold execSurveyAbort
  with_reducible refine okS ?_
  with_reducible repeat' first
    | assumption | intro _ | refine State.survStop_keeps C ?_ | refine State.when_keeps C ?_ ?_
    | refine State.writeTo_keeps C ?_ ?_

theorem execSurveyReqReceive_keeps (C : Closed P) {p : Fin 72} {t2 : ObsStamp} {m : SurvMsg} {s : State} (h0 : P s) :
    OkP P (execSurveyReqReceive p t2 m s) := by
  unfold execSurveyReqReceive
  with_reducible refine okS ?_
  with_reducible repeat' first
    | assumption | intro _ | refine State.inUnit_keeps C ?_ ?_ | refine State.survSend_keeps C ?_
    | refine State.when_keeps C ?_ ?_

theorem execSurveyTuneReceive_keeps (C : Closed P) {p : Fin 72} {m : SurvMsg} {ok : Bool} {s : State} (h0 : P s) :
    OkP P (execSurveyTuneReceive p m ok s) := by
  unfold execSurveyTuneReceive
  with_reducible refine okS ?_
  with_reducible repeat' first
    | assumption | intro _ | refine State.inUnit_keeps C ?_ ?_ | refine C.setH _ _ _ ?_
    | refine State.survSend_keeps C ?_ | refine State.when_keeps C ?_ ?_

theorem execSurveyEndReceive_keeps (C : Closed P) {p : Fin 72} {m : SurvMsg} {s : State} (h0 : P s) :
    OkP P (execSurveyEndReceive p m s) := by
  unfold execSurveyEndReceive
  with_reducible refine okS ?_
  with_reducible repeat' first
    | assumption | intro _ | refine State.inUnit_keeps C ?_ ?_ | refine C.setH _ _ _ ?_
    | refine State.when_keeps C ?_ ?_

theorem State.loopPhase2_keeps (C : Closed P) {s : State} (h0 : P s) : P (State.loopPhase2 s) := by
  unfold State.loopPhase2
  with_reducible repeat' first
    | assumption | refine State.laneApply_keeps C ?_ | refine C.setH _ _ _ ?_

theorem State.loopStart_keeps (C : Closed P) {s : State} {p : Nat} (h0 : P s) : P (State.loopStart s p) := by
  unfold State.loopStart
  with_reducible repeat' first
    | assumption
    | (fail_if_no_progress (extract_lets +onlyGivenNames x); refine cutS (P := P) (x := x) ?_ (fun hx => ?_);
       (on_goal 1 => (unfold x; try clear x)); (on_goal 2 => clear_value x))
    | refine State.linkDown_keeps C ?_ | refine C.setH _ _ _ ?_ | refine State.survFresh_keeps C ?_
    | refine State.survRefuse_keeps C ?_ | refine State.txSync_keeps C ?_ | refine State.wghHold_keeps C ?_
    | refine C.wr _ _ _ ?_ | refine iteS ?_ ?_

theorem execLoopbackSurveyStart_keeps (C : Closed P) {r : Req} {p : Fin 72} {s : State} (h0 : P s) :
    OkP P (execLoopbackSurveyStart r p s) := by
  unfold execLoopbackSurveyStart
  with_reducible refine okS ?_
  with_reducible repeat' first
    | assumption | intro _ | refine State.loopStart_keeps C ?_ | refine State.writeTo_keeps C ?_ ?_

theorem State.probeFail_keeps (C : Closed P) {s : State} (h0 : P s) : P (State.probeFail s) := by
  unfold State.probeFail
  with_reducible repeat' first
    | assumption | refine State.loopPhase2_keeps C ?_ | refine C.setH _ _ _ ?_ | refine C.wr _ _ _ ?_

theorem State.phase1_keeps (C : Closed P) {s : State} {mean : Int} {bad rec : Nat} (h0 : P s) :
    P (State.phase1 s mean bad rec) := by
  unfold State.phase1
  with_reducible repeat' first
    | assumption | refine State.loopPhase2_keeps C ?_ | refine State.passAge_keeps C ?_
    | refine State.probeFail_keeps C ?_ | refine C.setH _ _ _ ?_ | refine C.wr _ _ _ ?_ | refine iteS ?_ ?_

theorem execLoopbackPhase1Done_keeps (C : Closed P) {mean : BitVec 64} {bad : Fin 65} {rec : BitVec 32} {s : State}
    (h0 : P s) :
    OkP P (execLoopbackPhase1Done mean bad rec s) := by
  unfold execLoopbackPhase1Done
  with_reducible refine okS ?_
  with_reducible repeat' first
    | assumption | intro _ | refine State.inUnit_keeps C ?_ ?_ | refine State.phase1_keeps C ?_
    | refine State.when_keeps C ?_ ?_

theorem execLoopbackProbeTimeout_keeps (C : Closed P) {s : State} (h0 : P s) : OkP P (execLoopbackProbeTimeout s) := by
  unfold execLoopbackProbeTimeout
  with_reducible refine okS ?_
  with_reducible repeat' first
    | assumption | intro _ | refine State.inUnit_keeps C ?_ ?_ | refine State.probeFail_keeps C ?_
    | refine State.when_keeps C ?_ ?_

theorem State.loopTake_keeps (C : Closed P) {s : State} {p : Nat} (h0 : P s) : P (State.loopTake s p) := by
  unfold State.loopTake
  with_reducible repeat' first
    | assumption
    | (fail_if_no_progress (extract_lets +onlyGivenNames x); refine cutS (P := P) (x := x) ?_ (fun hx => ?_);
       (on_goal 1 => (unfold x; try clear x)); (on_goal 2 => clear_value x))
    | refine C.setH _ _ _ ?_ | refine C.wr _ _ _ ?_ | refine iteS ?_ ?_

theorem State.loopDone_keeps (C : Closed P) {s : State} {rt : Int} (h0 : P s) : P (State.loopDone s rt) := by
  unfold State.loopDone
  with_reducible repeat' first
    | assumption | refine State.loopTake_keeps C ?_ | refine State.raiseP_keeps C ?_ | refine C.setH _ _ _ ?_
    | refine State.wghFree_keeps C ?_ | refine C.wr _ _ _ ?_ | refine State.wrS_keeps C ?_

theorem execLoopbackSurveyDone_keeps (C : Closed P) {rt : BitVec 64} {s : State} (h0 : P s) :
    OkP P (execLoopbackSurveyDone rt s) := by
  unfold execLoopbackSurveyDone
  with_reducible refine okS ?_
  with_reducible repeat' first
    | assumption | intro _ | refine State.inUnit_keeps C ?_ ?_ | refine State.loopDone_keeps C ?_
    | refine State.when_keeps C ?_ ?_

end Sys2Proof.Machine
end

