-- ==== Sys2Proof/Laws/KeepsWeigh.lean ====
section
/-! SUPPORT. The Weighhouse, mains, function resets and the recovery ladder: what each definition hands on keeps every property the primitive updates keep. -/

namespace Sys2Proof.Machine

variable {P : State → Prop}

theorem State.inWgh_keeps (C : Closed P) {s : State} {k : State → State} (h0 : P s) (h1 : ∀ s, P s → P (k s)) :
    P (State.inWgh s k) := by
  unfold State.inWgh
  with_reducible repeat' first
    | assumption | refine h1 _ ?_ | refine iteS ?_ ?_

theorem State.wghPair_keeps (C : Closed P) {s : State} {k n1 n2 : Nat} (h0 : P s) : P (State.wghPair s k n1 n2) := by
  unfold State.wghPair
  with_reducible repeat' first
    | assumption
    | (fail_if_no_progress (extract_lets +onlyGivenNames x); refine cutS (P := P) (x := x) ?_ (fun hx => ?_);
       (on_goal 1 => (unfold x; try clear x)); (on_goal 2 => clear_value x))
    | refine State.raise_keeps C ?_ | refine C.setH _ _ _ ?_ | refine C.wr _ _ _ ?_ | refine iteS ?_ ?_

theorem execInterpolatorCalibrate_keeps (C : Closed P) {src : Fin 8} {n1 n2 : BitVec 12} {s : State} (h0 : P s) :
    OkP P (execInterpolatorCalibrate src n1 n2 s) := by
  unfold execInterpolatorCalibrate
  with_reducible refine okS ?_
  with_reducible repeat' first
    | assumption | intro _ | refine State.inWgh_keeps C ?_ ?_ | refine State.wghPair_keeps C ?_

theorem State.wcfgSet_keeps (C : Closed P) {s : State} {k : Nat} {c : WCfg} (h0 : P s) : P (State.wcfgSet s k c) := by
  unfold State.wcfgSet
  with_reducible repeat' first
    | assumption
    | (fail_if_no_progress (extract_lets +onlyGivenNames x); refine cutS (P := P) (x := x) ?_ (fun hx => ?_);
       (on_goal 1 => (unfold x; try clear x)); (on_goal 2 => clear_value x))
    | refine State.setWslot_keeps C ?_ | refine C.wr _ _ _ ?_

theorem State.whalt_keeps (C : Closed P) {s : State} {k : Nat} (h0 : P s) : P (State.whalt s k) := by
  unfold State.whalt
  with_reducible repeat' first
    | assumption
    | (fail_if_no_progress (extract_lets +onlyGivenNames x); refine cutS (P := P) (x := x) ?_ (fun hx => ?_);
       (on_goal 1 => (unfold x; try clear x)); (on_goal 2 => clear_value x))
    | refine State.setWslot_keeps C ?_ | refine State.wcfgSet_keeps C ?_ | refine C.wr _ _ _ ?_
    | (fail_if_no_progress (extract_lets +onlyGivenNames x)) | split

theorem State.wresult_keeps (C : Closed P) {s : State} {k extra : Nat} {value count : Nat} {a b : Option WStamp}
    (h0 : P s) :
    P (State.wresult s k extra value count a b) := by
  unfold State.wresult
  with_reducible repeat' first
    | assumption
    | (fail_if_no_progress (extract_lets +onlyGivenNames x); refine cutS (P := P) (x := x) ?_ (fun hx => ?_);
       (on_goal 1 => (unfold x; try clear x)); (on_goal 2 => clear_value x))
    | refine State.bump_keeps C ?_ | refine State.setWslot_keeps C ?_ | refine State.wcfgSet_keeps C ?_
    | refine State.whalt_keeps C ?_ | refine iteS ?_ ?_ | (fail_if_no_progress refine C.wqueue_keeps ?_)
    | (fail_if_no_progress (extract_lets +onlyGivenNames x)) | split

theorem State.recordSign_keeps (C : Closed P) {s : State} (h0 : P s) : P (State.recordSign s) := by
  unfold State.recordSign
  with_reducible repeat' first
    | assumption | refine C.setH _ _ _ ?_ | refine C.wr _ _ _ ?_ | refine iteS ?_ ?_
    | (fail_if_no_progress refine C.wqueue_keeps ?_) | (fail_if_no_progress (extract_lets +onlyGivenNames x)) | split

theorem execRecordSign_keeps (C : Closed P) {s : State} (h0 : P s) : OkP P (execRecordSign s) := by
  unfold execRecordSign
  with_reducible refine okS ?_
  with_reducible repeat' first
    | assumption | intro _ | refine State.inWgh_keeps C ?_ ?_ | refine State.recordSign_keeps C ?_

theorem State.wvalue_keeps (C : Closed P) {s : State} {open_ : Bool} {v : Int} (h0 : P s) :
    P (State.wvalue s open_ v).2 := by
  unfold State.wvalue
  with_reducible repeat' first
    | assumption | refine C.nextFree ?_ | split

theorem State.wclose_keeps (C : Closed P) {s : State} {k : Nat} {a b : WStamp} {neg : Bool} (h0 : P s) :
    P (State.wclose s k a b neg) := by
  unfold State.wclose
  with_reducible repeat' first
    | assumption | refine State.setWslot_keeps C ?_ | refine State.wresult_keeps C ?_ | refine State.wvalue_keeps C ?_

theorem State.wopen_keeps (C : Closed P) {s : State} {k : Nat} {sideB : Bool} {w : WStamp} (h0 : P s) :
    P (State.wopen s k sideB w) := by
  unfold State.wopen
  with_reducible repeat' first
    | assumption | refine State.setWslot_keeps C ?_

theorem State.wdead_keeps (C : Closed P) {s : State} {k : Nat} (h0 : P s) : P (State.wdead s k) := by
  unfold State.wdead
  with_reducible repeat' first
    | assumption | refine State.setWslot_keeps C ?_

theorem State.wInterval_keeps (C : Closed P) {s : State} {k : Nat} {sideB : Bool} {w : Option WStamp} (h0 : P s) :
    P (State.wInterval s k sideB w) := by
  unfold State.wInterval
  with_reducible repeat' first
    | assumption | refine State.setWslot_keeps C ?_ | refine State.wclose_keeps C ?_ | refine State.wdead_keeps C ?_
    | refine State.wopen_keeps C ?_ | refine iteS ?_ ?_ | (fail_if_no_progress (extract_lets +onlyGivenNames x))
    | split

theorem State.wpair_keeps (C : Closed P) {s : State} {k : Nat} {x : WWait} {after : Option WStamp} (h0 : P s) :
    P (State.wpair s k x after) := by
  unfold State.wpair
  with_reducible repeat' first
    | assumption
    | (fail_if_no_progress (extract_lets +onlyGivenNames x); refine cutS (P := P) (x := x) ?_ (fun hx => ?_);
       (on_goal 1 => (unfold x; try clear x)); (on_goal 2 => clear_value x))
    | refine State.setWslot_keeps C ?_ | refine State.whalt_keeps C ?_ | refine State.wresult_keeps C ?_
    | refine State.wvalue_keeps C ?_ | refine iteS ?_ ?_ | (fail_if_no_progress (extract_lets +onlyGivenNames x))
    | (clear_value *; split)

theorem State.wsettle_keeps (C : Closed P) {k : Nat} {w : WStamp} {n : Nat} {s : State} (h0 : P s) :
    P (State.wsettle s k w n) := by
  induction n generalizing s with
  | zero => exact h0
  | succ n ih =>
    unfold State.wsettle
    dsimp only
    split
    · exact h0
    · exact ih (State.wpair_keeps C (State.setWslot_keeps C h0))

theorem State.wPps_keeps (C : Closed P) {s : State} {k : Nat} {sideB : Bool} {w : Option WStamp} (h0 : P s) :
    P (State.wPps s k sideB w) := by
  unfold State.wPps
  with_reducible repeat' first
    | assumption | intro _
    | (fail_if_no_progress (extract_lets +onlyGivenNames x); refine cutS (P := P) (x := x) ?_ (fun hx => ?_);
       (on_goal 1 => (unfold x; try clear x)); (on_goal 2 => clear_value x))
    | refine State.setWslot_keeps C ?_ | refine State.wdead_keeps C ?_ | refine State.wsettle_keeps C ?_
    | refine foldS ?_ ?_ | refine iteS ?_ ?_ | (fail_if_no_progress (extract_lets +onlyGivenNames x)) | split

theorem State.wgate_keeps (C : Closed P) {s : State} {k : Nat} {a b : WStamp} {edges : Nat} (h0 : P s) :
    P (State.wgate s k a b edges) := by
  unfold State.wgate
  with_reducible repeat' first
    | assumption | refine State.setWslot_keeps C ?_ | refine State.wresult_keeps C ?_ | refine State.wvalue_keeps C ?_

theorem State.wGateEdge_keeps (C : Closed P) {s : State} {k n : Nat} {w : Option WStamp} (h0 : P s) :
    P (State.wGateEdge s k n w) := by
  unfold State.wGateEdge
  with_reducible repeat' first
    | assumption
    | (fail_if_no_progress (extract_lets +onlyGivenNames x); refine cutS (P := P) (x := x) ?_ (fun hx => ?_);
       (on_goal 1 => (unfold x; try clear x)); (on_goal 2 => clear_value x))
    | refine State.setWslot_keeps C ?_ | refine State.wdead_keeps C ?_ | refine State.wgate_keeps C ?_
    | refine State.wopen_keeps C ?_ | refine iteS ?_ ?_ | (fail_if_no_progress (extract_lets +onlyGivenNames x))
    | split

theorem State.wslotEdge_keeps (C : Closed P) {s : State} {k n src : Nat} {w : Option WStamp} (h0 : P s) :
    P (State.wslotEdge s k n src w) := by
  unfold State.wslotEdge
  with_reducible repeat' first
    | assumption | refine State.wGateEdge_keeps C ?_ | refine State.wInterval_keeps C ?_
    | refine State.wPps_keeps C ?_ | refine iteS ?_ ?_

theorem State.wOver_keeps (C : Closed P) {s : State} {k : Nat} (h0 : P s) : P (State.wOver s k) := by
  unfold State.wOver
  with_reducible repeat' first
    | assumption | intro _ | refine C.setH _ _ _ ?_ | refine State.setWslot_keeps C ?_ | refine C.wr _ _ _ ?_
    | refine foldS ?_ ?_ | refine iteS ?_ ?_

theorem State.wedge_keeps (C : Closed P) {s : State} {e : WEdge} (h0 : P s) : P (State.wedge s e) := by
  unfold State.wedge
  with_reducible repeat' first
    | assumption | intro _ | refine C.setH _ _ _ ?_ | refine State.setWlast_keeps C ?_
    | refine State.wghPair_keeps C ?_ | refine State.wOver_keeps C ?_ | refine State.wslotEdge_keeps C ?_ | refine foldS ?_ ?_
    | refine iteS ?_ ?_

theorem execWeighhouseEdge_keeps (C : Closed P) {e : WEdge} {s : State} (h0 : P s) :
    OkP P (execWeighhouseEdge e s) := by
  unfold execWeighhouseEdge
  with_reducible refine okS ?_
  with_reducible repeat' first
    | assumption | intro _ | refine State.inWgh_keeps C ?_ ?_ | refine State.wedge_keeps C ?_ | refine iteS ?_ ?_

theorem execOvrRateClear_keeps (C : Closed P) {src : Fin 8} {s : State} (h0 : P s) :
    OkP P (execOvrRateClear src s) := by
  unfold execOvrRateClear
  with_reducible refine okS ?_
  with_reducible repeat' first
    | assumption | intro _ | refine State.inWgh_keeps C ?_ ?_ | refine State.passAge_keeps C ?_ | refine C.wr _ _ _ ?_
    | refine iteS ?_ ?_

theorem State.wtimeout_keeps (C : Closed P) {s : State} {k : Nat} (h0 : P s) : P (State.wtimeout s k) := by
  unfold State.wtimeout
  with_reducible repeat' first
    | assumption
    | (fail_if_no_progress (extract_lets +onlyGivenNames x); refine cutS (P := P) (x := x) ?_ (fun hx => ?_);
       (on_goal 1 => (unfold x; try clear x)); (on_goal 2 => clear_value x))
    | refine State.passAge_keeps C ?_ | refine State.setWslot_keeps C ?_ | refine State.whalt_keeps C ?_
    | refine State.wpair_keeps C ?_ | refine iteS ?_ ?_ | (fail_if_no_progress (extract_lets +onlyGivenNames x))
    | split

theorem execWghIntervalTimeout_keeps (C : Closed P) {slot : Fin 4} {s : State} (h0 : P s) :
    OkP P (execWghIntervalTimeout slot s) := by
  unfold execWghIntervalTimeout
  with_reducible refine okS ?_
  with_reducible repeat' first
    | assumption | intro _ | refine State.inWgh_keeps C ?_ ?_ | refine State.wtimeout_keeps C ?_

theorem State.wghEvent_keeps (C : Closed P) {s : State} {kind id : Nat} (h0 : P s) : P (State.wghEvent s kind id) := by
  unfold State.wghEvent
  with_reducible repeat' first
    | assumption | refine C.wr _ _ _ ?_ | refine State.count_keeps C ?_ | refine iteS ?_ ?_

theorem State.sealAttempt_keeps (C : Closed P) {s : State} {what : Nat} {r : Req} (h0 : P s) :
    P (State.sealAttempt s what r) := by
  unfold State.sealAttempt
  with_reducible repeat' first
    | assumption | refine State.count_keeps C ?_ | refine State.ledger_keeps C ?_ | refine State.raise_keeps C ?_

theorem State.paramSet_keeps (C : Closed P) {s : State} {id v : Nat} (h0 : P s) : P (State.paramSet s id v) := by
  unfold State.paramSet
  with_reducible repeat' first
    | assumption | refine C.setH _ _ _ ?_ | refine C.wr _ _ _ ?_ | split

theorem State.setParam_keeps (C : Closed P) {s : State} {id v : Nat} (h0 : P s) : P (State.setParam s id v).2 := by
  unfold State.setParam
  with_reducible repeat' first
    | assumption | refine State.paramSet_keeps C ?_ | refine State.raise_keeps C ?_
    | refine State.sealAttempt_keeps C ?_ | refine State.wghEvent_keeps C ?_ | split

theorem State.wghRsp_keeps (C : Closed P) {s : State} {seq code detail : Nat} {data : Nat} (h0 : P s) :
    P (State.wghRsp s seq code detail data) := by
  unfold State.wghRsp
  with_reducible repeat' first
    | assumption
    | (fail_if_no_progress (extract_lets +onlyGivenNames x); refine cutS (P := P) (x := x) ?_ (fun hx => ?_);
       (on_goal 1 => (unfold x; try clear x)); (on_goal 2 => clear_value x))
    | refine C.wr _ _ _ ?_

theorem State.wghConfig_keeps (C : Closed P) {s : State} {k : Nat} {a : Nat → Nat} (h0 : P s) :
    P (State.wghConfig s k a).2 := by
  unfold State.wghConfig
  with_reducible repeat' first
    | assumption | refine State.setWslot_keeps C ?_ | refine State.wcfgSet_keeps C ?_
    | (fail_if_no_progress (extract_lets +onlyGivenNames x)) | split

theorem State.wghRun_keeps (C : Closed P) {s : State} {k : Nat} (h0 : P s) : P (State.wghRun s k).2 := by
  unfold State.wghRun
  with_reducible repeat' first
    | assumption
    | (fail_if_no_progress (extract_lets +onlyGivenNames x); refine cutS (P := P) (x := x) ?_ (fun hx => ?_);
       (on_goal 1 => (unfold x; try clear x)); (on_goal 2 => clear_value x))
    | refine State.setWslot_keeps C ?_ | refine C.wr _ _ _ ?_ | (fail_if_no_progress (extract_lets +onlyGivenNames x))
    | split

theorem State.wghStop_keeps (C : Closed P) {s : State} {k : Nat} (h0 : P s) : P (State.wghStop s k).2 := by
  unfold State.wghStop
  with_reducible repeat' first
    | assumption | refine State.setWslot_keeps C ?_ | refine State.whalt_keeps C ?_
    | (fail_if_no_progress (extract_lets +onlyGivenNames x)) | split

theorem State.wghInstall_keeps (C : Closed P) {s : State} {seq len : Nat} (h0 : P s) :
    P (State.wghInstall s seq len) := by
  unfold State.wghInstall
  with_reducible repeat' first
    | assumption | refine State.imgRefused_keeps C ?_ | refine C.setH _ _ _ ?_ | refine State.wghRsp_keeps C ?_
    | refine iteS ?_ ?_

theorem State.wghVerify_keeps (C : Closed P) {s : State} {seq : Nat} (h0 : P s) : P (State.wghVerify s seq) := by
  unfold State.wghVerify
  with_reducible repeat' first
    | assumption | refine C.setH _ _ _ ?_ | refine State.wghRsp_keeps C ?_ | refine iteS ?_ ?_

theorem State.wghId_keeps (C : Closed P) {s : State} {seq : Nat} (h0 : P s) : P (State.wghId s seq) := by
  unfold State.wghId
  with_reducible repeat' first
    | assumption | refine State.wghRsp_keeps C ?_

theorem State.wghCommand_keeps (C : Closed P) {s : State} {w : List Nat} (h0 : P s) : P (State.wghCommand s w) := by
  unfold State.wghCommand
  with_reducible repeat' first
    | assumption | refine State.count_keeps C ?_ | refine State.setParam_keeps C ?_
    | refine State.wghConfig_keeps C ?_ | refine State.wghId_keeps C ?_ | refine State.wghInstall_keeps C ?_
    | refine State.wghRsp_keeps C ?_ | refine State.wghRun_keeps C ?_ | refine State.wghStop_keeps C ?_
    | refine State.wghVerify_keeps C ?_ | refine iteS ?_ ?_ | split

theorem State.wghPost_keeps (C : Closed P) {s : State} {op slot seq : Nat} {args : List (BitVec 32)} (h0 : P s) :
    P (State.wghPost s op slot seq args) := by
  unfold State.wghPost
  with_reducible repeat' first
    | assumption | intro _ | refine State.wghCommand_keeps C ?_ | refine State.writeTo_keeps C ?_ ?_

theorem execWghConfig_keeps (C : Closed P) {slot : Fin 4} {seq : BitVec 16} {args : List (BitVec 32)} {s : State}
    (h0 : P s) :
    OkP P (execWghConfig slot seq args s) := by
  unfold execWghConfig
  with_reducible refine okS ?_
  with_reducible repeat' first
    | assumption | refine State.wghPost_keeps C ?_

theorem execWghRun_keeps (C : Closed P) {slot : Fin 4} {seq : BitVec 16} {s : State} (h0 : P s) :
    OkP P (execWghRun slot seq s) := by
  unfold execWghRun
  with_reducible refine okS ?_
  with_reducible repeat' first
    | assumption | refine State.wghPost_keeps C ?_

theorem execWghStop_keeps (C : Closed P) {slot : Fin 4} {seq : BitVec 16} {s : State} (h0 : P s) :
    OkP P (execWghStop slot seq s) := by
  unfold execWghStop
  with_reducible refine okS ?_
  with_reducible repeat' first
    | assumption | refine State.wghPost_keeps C ?_

theorem execWghSetParam_keeps (C : Closed P) {seq : BitVec 16} {args : List (BitVec 32)} {s : State} (h0 : P s) :
    OkP P (execWghSetParam seq args s) := by
  unfold execWghSetParam
  with_reducible refine okS ?_
  with_reducible repeat' first
    | assumption | refine State.wghPost_keeps C ?_

theorem execWghImageInstall_keeps (C : Closed P) {seq : BitVec 16} {len : BitVec 32} {s : State} (h0 : P s) :
    OkP P (execWghImageInstall seq len s) := by
  unfold execWghImageInstall
  with_reducible refine okS ?_
  with_reducible repeat' first
    | assumption | refine State.wghPost_keeps C ?_

theorem execWghVerify_keeps (C : Closed P) {seq : BitVec 16} {args : List (BitVec 32)} {s : State} (h0 : P s) :
    OkP P (execWghVerify seq args s) := by
  unfold execWghVerify
  with_reducible refine okS ?_
  with_reducible repeat' first
    | assumption | refine State.wghPost_keeps C ?_

theorem execWghReadId_keeps (C : Closed P) {seq : BitVec 16} {s : State} (h0 : P s) : OkP P (execWghReadId seq s) := by
  unfold execWghReadId
  with_reducible refine okS ?_
  with_reducible repeat' first
    | assumption | refine State.wghPost_keeps C ?_

theorem State.wghRestart_keeps (C : Closed P) {s : State} (h0 : P s) : P (State.wghRestart s) := by
  unfold State.wghRestart
  with_reducible repeat' first
    | assumption | intro _ | refine C.setTr _ _ _ ?_ | refine State.setWslot_keeps C ?_ | refine C.wr _ _ _ ?_
    | refine foldS ?_ ?_ | (fail_if_no_progress refine C.wqueue_keeps ?_) | (fail_if_no_progress refine C.tregF _ ?_)

theorem State.wghInstalled_keeps (C : Closed P) {s : State} (h0 : P s) : P (State.wghInstalled s) := by
  unfold State.wghInstalled
  with_reducible repeat' first
    | assumption | intro _ | refine State.raise_keeps C ?_ | refine State.setBytes_keeps C ?_ | refine C.setH _ _ _ ?_
    | refine State.wghEvent_keeps C ?_ | refine State.wghRestart_keeps C ?_ | refine State.wghRsp_keeps C ?_
    | refine C.wr _ _ _ ?_ | refine foldS ?_ ?_

theorem execWghImageInstalled_keeps (C : Closed P) {s : State} (h0 : P s) : OkP P (execWghImageInstalled s) := by
  unfold execWghImageInstalled
  with_reducible refine okS ?_
  with_reducible repeat' first
    | assumption | intro _ | refine State.inWgh_keeps C ?_ ?_ | refine State.wghInstalled_keeps C ?_
    | refine State.when_keeps C ?_ ?_

theorem State.wghVerified_keeps (C : Closed P) {s : State} {fails : Nat} (h0 : P s) :
    P (State.wghVerified s fails) := by
  unfold State.wghVerified
  with_reducible repeat' first
    | assumption | refine State.setWslot_keeps C ?_ | refine State.raise_keeps C ?_ | refine C.setH _ _ _ ?_ | refine State.wghRsp_keeps C ?_
    | refine iteS ?_ ?_ | (fail_if_no_progress refine C.wqueue_keeps ?_)

theorem execWghVerifyDone_keeps (C : Closed P) {fails : Fin 32} {s : State} (h0 : P s) :
    OkP P (execWghVerifyDone fails s) := by
  unfold execWghVerifyDone
  with_reducible refine okS ?_
  with_reducible repeat' first
    | assumption | intro _ | refine State.inWgh_keeps C ?_ ?_ | refine State.wghVerified_keeps C ?_
    | refine State.when_keeps C ?_ ?_

theorem State.wghHostWrite_keeps (C : Closed P) {s : State} {r : Req} (h0 : P s) : P (State.wghHostWrite s r) := by
  unfold State.wghHostWrite
  with_reducible repeat' first
    | assumption | refine State.count_keeps C ?_ | refine iteS ?_ ?_

theorem execWghHostWrite_keeps (C : Closed P) {r : Req} {s : State} (h0 : P s) : OkP P (execWghHostWrite r s) := by
  unfold execWghHostWrite
  with_reducible refine okS ?_
  with_reducible repeat' first
    | assumption | intro _ | refine State.wghHostWrite_keeps C ?_ | refine State.writeTo_keeps C ?_ ?_

theorem State.wipeDoms_keeps (C : Closed P) {s : State} {ds : List Dom} (h0 : P s) : P (State.wipeDoms s ds) := by
  unfold State.wipeDoms
  with_reducible repeat' first
    | assumption | refine State.wipe_keeps C ?_ | refine iteS ?_ ?_

theorem State.loseDoms_keeps (C : Closed P) {s : State} {ds : List Dom} {lost : List Surv} (h0 : P s) :
    P (State.loseDoms s ds lost) := by
  unfold State.loseDoms
  with_reducible repeat' first
    | assumption | intro _
    | (fail_if_no_progress (extract_lets +onlyGivenNames x); refine cutS (P := P) (x := x) ?_ (fun hx => ?_);
       (on_goal 1 => (unfold x; try clear x)); (on_goal 2 => clear_value x))
    | refine State.lose_keeps C ?_ | refine State.setDom_keeps C ?_ | refine C.setH _ _ _ ?_
    | refine State.wipeDoms_keeps C ?_ | refine C.wr _ _ _ ?_ | refine foldS ?_ ?_ | refine iteS ?_ ?_

theorem State.ctxReport_keeps (C : Closed P) {s : State} (h0 : P s) : P (State.ctxReport s) := by
  unfold State.ctxReport
  with_reducible repeat' first
    | assumption | refine State.raise_keeps C ?_ | refine C.setH _ _ _ ?_ | refine iteS ?_ ?_

theorem State.mainEnLow_keeps (C : Closed P) {s : State} {why : Nat} (h0 : P s) : P (State.mainEnLow s why) := by
  unfold State.mainEnLow
  with_reducible repeat' first
    | assumption | refine C.setH _ _ _ ?_ | refine C.wr _ _ _ ?_

theorem State.mainsOff_keeps (C : Closed P) {s : State} {lost : List Surv} (h0 : P s) : P (State.mainsOff s lost) := by
  unfold State.mainsOff
  with_reducible repeat' first
    | assumption | refine State.loseDoms_keeps C ?_

theorem State.startMains_keeps (C : Closed P) {s : State} {kind : Nat} (h0 : P s) : P (State.startMains s kind) := by
  unfold State.startMains
  with_reducible repeat' first
    | assumption
    | (fail_if_no_progress (extract_lets +onlyGivenNames x); refine cutS (P := P) (x := x) ?_ (fun hx => ?_);
       (on_goal 1 => (unfold x; try clear x)); (on_goal 2 => clear_value x))
    | refine State.mainsOff_keeps C ?_ | refine State.setDom_keeps C ?_ | refine C.setH _ _ _ ?_
    | refine C.wr _ _ _ ?_

theorem State.startWhen_keeps (C : Closed P) {s : State} {kind : Nat} (h0 : P s) : P (State.startWhen s kind) := by
  unfold State.startWhen
  with_reducible repeat' first
    | assumption | refine State.mainsOff_keeps C ?_ | refine C.setH _ _ _ ?_ | refine State.startMains_keeps C ?_
    | refine iteS ?_ ?_

theorem State.coarseTake_keeps (C : Closed P) {s : State} (h0 : P s) : P (State.coarseTake s) := by
  unfold State.coarseTake
  with_reducible repeat' first
    | assumption | refine C.wr _ _ _ ?_ | refine iteS ?_ ?_ | (fail_if_no_progress refine C.coarse_keeps ?_)

theorem State.dacDormant_keeps (C : Closed P) {s : State} (h0 : P s) : P (State.dacDormant s) := by
  unfold State.dacDormant
  with_reducible repeat' first
    | assumption | refine C.wr _ _ _ ?_ | refine iteS ?_ ?_

theorem State.dormant_keeps (C : Closed P) {s : State} (h0 : P s) : P (State.dormant s) := by
  unfold State.dormant
  with_reducible repeat' first
    | assumption
    | (fail_if_no_progress (extract_lets +onlyGivenNames x); refine cutS (P := P) (x := x) ?_ (fun hx => ?_);
       (on_goal 1 => (unfold x; try clear x)); (on_goal 2 => clear_value x))
    | refine State.coarseTake_keeps C ?_ | refine State.dacDormant_keeps C ?_ | refine State.holdSelect_keeps C ?_
    | refine State.mainEnLow_keeps C ?_ | refine State.mainsOff_keeps C ?_ | refine C.wr _ _ _ ?_ | refine iteS ?_ ?_

theorem State.weighUp_keeps (C : Closed P) {s : State} (h0 : P s) : P (State.weighUp s) := by
  unfold State.weighUp
  with_reducible repeat' first
    | assumption | intro _
    | (fail_if_no_progress (extract_lets +onlyGivenNames x); refine cutS (P := P) (x := x) ?_ (fun hx => ?_);
       (on_goal 1 => (unfold x; try clear x)); (on_goal 2 => clear_value x))
    | refine C.nextFree ?_ | refine C.setH _ _ _ ?_ | refine State.wghRestart_keeps C ?_ | refine foldS ?_ ?_

theorem State.reeveUp_keeps (C : Closed P) {s : State} (h0 : P s) : P (State.reeveUp s) := by
  unfold State.reeveUp
  with_reducible repeat' first
    | assumption | intro _
    | (fail_if_no_progress (extract_lets +onlyGivenNames x); refine cutS (P := P) (x := x) ?_ (fun hx => ?_);
       (on_goal 1 => (unfold x; try clear x)); (on_goal 2 => clear_value x))
    | refine State.ctxReport_keeps C ?_ | refine C.nextFree ?_ | refine State.raise_keeps C ?_
    | refine State.recPut_keeps C ?_ | refine C.setH _ _ _ ?_ | refine C.wr _ _ _ ?_ | refine foldS ?_ ?_
    | refine iteS ?_ ?_ | (fail_if_no_progress refine C.held_keeps ?_)

theorem State.bellUp_keeps (C : Closed P) {s : State} (h0 : P s) : P (State.bellUp s) := by
  unfold State.bellUp
  with_reducible repeat' first
    | assumption
    | (fail_if_no_progress (extract_lets +onlyGivenNames x); refine cutS (P := P) (x := x) ?_ (fun hx => ?_);
       (on_goal 1 => (unfold x; try clear x)); (on_goal 2 => clear_value x))
    | refine State.loadTime_keeps C ?_ | refine State.outsSync_keeps C ?_ | refine State.selStart_keeps C ?_
    | refine State.selStatus_keeps C ?_ | refine State.setNco_keeps C ?_ | refine State.wordRefresh_keeps C ?_
    | refine C.wr _ _ _ ?_ | refine State.wrS_keeps C ?_

theorem State.coreStart_keeps (C : Closed P) {s : State} (h0 : P s) : P (State.coreStart s) := by
  unfold State.coreStart
  with_reducible repeat' first
    | assumption | refine State.granWipeStart_keeps C ?_

theorem State.engineUp_keeps (C : Closed P) {s : State} (h0 : P s) : P (State.engineUp s) := by
  unfold State.engineUp
  with_reducible repeat' first
    | assumption
    | (fail_if_no_progress (extract_lets +onlyGivenNames x); refine cutS (P := P) (x := x) ?_ (fun hx => ?_);
       (on_goal 1 => (unfold x; try clear x)); (on_goal 2 => clear_value x))
    | refine State.raise_keeps C ?_ | refine State.servoFallback_keeps C ?_ | refine C.setH _ _ _ ?_
    | refine C.wr _ _ _ ?_ | refine iteS ?_ ?_ | split

theorem State.cellarUp_keeps (C : Closed P) {s : State} (h0 : P s) : P (State.cellarUp s) := by
  unfold State.cellarUp
  with_reducible repeat' first
    | assumption | intro _ | refine State.stackWipeStart_keeps C ?_ | refine foldS ?_ ?_

theorem State.domUp_keeps (C : Closed P) {s : State} {d : Dom} (h0 : P s) : P (State.domUp s d) := by
  unfold State.domUp
  with_reducible repeat' first
    | assumption | refine State.bellUp_keeps C ?_ | refine State.cellarUp_keeps C ?_
    | refine State.coreStart_keeps C ?_ | refine State.engineUp_keeps C ?_ | refine State.reeveUp_keeps C ?_
    | refine State.weighUp_keeps C ?_ | split

theorem State.resetFN_keeps (C : Closed P) {s : State} {p : Grp → Nat → Bool} (h0 : P s) : P (State.resetFN s p) := by
  have a := C.appliedF (fun x => !p x.1.1.desc.grp x.1.2) h0
  exact C.regsF (s := { s with applied := s.applied.filter (fun x => !p x.1.1.desc.grp x.1.2) }) _ a

theorem State.portFreset_keeps (C : Closed P) {s : State} {p : Nat} (h0 : P s) : P (State.portFreset s p) := by
  unfold State.portFreset
  with_reducible repeat' first
    | assumption | intro _ | refine State.linkDown_keeps C ?_ | refine State.resetFN_keeps C ?_
    | refine C.setH _ _ _ ?_ | refine State.setRts_keeps C ?_ | refine State.txSync_keeps C ?_ | refine C.wr _ _ _ ?_
    | refine foldS ?_ ?_

theorem State.quadFreset_keeps (C : Closed P) {s : State} {q : Nat} (h0 : P s) : P (State.quadFreset s q) := by
  unfold State.quadFreset
  with_reducible repeat' first
    | assumption | intro _
    | (fail_if_no_progress (extract_lets +onlyGivenNames x); refine cutS (P := P) (x := x) ?_ (fun hx => ?_);
       (on_goal 1 => (unfold x; try clear x)); (on_goal 2 => clear_value x))
    | refine State.portFreset_keeps C ?_ | refine State.resetFN_keeps C ?_ | refine foldS ?_ ?_

theorem State.pairFreset_keeps (C : Closed P) {s : State} {pr : Nat} (h0 : P s) : P (State.pairFreset s pr) := by
  unfold State.pairFreset
  with_reducible repeat' first
    | assumption | intro _
    | (fail_if_no_progress (extract_lets +onlyGivenNames x); refine cutS (P := P) (x := x) ?_ (fun hx => ?_);
       (on_goal 1 => (unfold x; try clear x)); (on_goal 2 => clear_value x))
    | refine State.failRx_keeps C ?_ | refine State.resetFN_keeps C ?_ | refine State.truncate_keeps C ?_
    | refine foldS ?_ ?_ | (fail_if_no_progress refine C.tracks_keeps ?_)

theorem State.stacksLost_keeps (C : Closed P) {s : State} {gone : Nat → Bool} (h0 : P s) :
    P (State.stacksLost s gone) := by
  unfold State.stacksLost
  with_reducible repeat' first
    | assumption
    | (fail_if_no_progress (extract_lets +onlyGivenNames x); refine cutS (P := P) (x := x) ?_ (fun hx => ?_);
       (on_goal 1 => (unfold x; try clear x)); (on_goal 2 => clear_value x))
    | refine State.binsLose_keeps C ?_ | refine State.raise_keeps C ?_ | refine C.wr _ _ _ ?_ | refine iteS ?_ ?_

theorem State.stackFreset_keeps (C : Closed P) {s : State} {k : Nat} (h0 : P s) : P (State.stackFreset s k) := by
  unfold State.stackFreset
  with_reducible repeat' first
    | assumption | refine State.stackWipeStart_keeps C ?_ | refine State.stacksLost_keeps C ?_

theorem State.wghFreset_keeps (C : Closed P) {s : State} (h0 : P s) : P (State.wghFreset s) := by
  unfold State.wghFreset
  with_reducible repeat' first
    | assumption | refine C.wr _ _ _ ?_ | refine C.setH _ _ _ ?_ | refine State.resetFN_keeps C ?_
    | refine State.wghRestart_keeps C ?_

theorem State.fnReset_keeps (C : Closed P) {s : State} {k : Nat} (h0 : P s) : P (State.fnReset s k) := by
  unfold State.fnReset
  with_reducible repeat' first
    | assumption
    | (fail_if_no_progress (extract_lets +onlyGivenNames x); refine cutS (P := P) (x := x) ?_ (fun hx => ?_);
       (on_goal 1 => (unfold x; try clear x)); (on_goal 2 => clear_value x))
    | refine State.engFreset_keeps C ?_ | refine State.wghFreset_keeps C ?_ | refine State.pairFreset_keeps C ?_ | refine State.portFreset_keeps C ?_
    | refine State.quadFreset_keeps C ?_ | refine C.setH _ _ _ ?_ | refine State.stackFreset_keeps C ?_
    | refine iteS ?_ ?_

theorem State.portRestart_keeps (C : Closed P) {s : State} {p : Nat} (h0 : P s) : P (State.portRestart s p) := by
  unfold State.portRestart
  with_reducible repeat' first
    | assumption | intro _ | refine State.laneApply_keeps C ?_ | refine foldS ?_ ?_

theorem State.fnRestart_keeps (C : Closed P) {s : State} {k : Nat} (h0 : P s) : P (State.fnRestart s k) := by
  unfold State.fnRestart
  with_reducible repeat' first
    | assumption | intro _ | refine State.chkSync_keeps C ?_ | refine State.laneApply_keeps C ?_
    | refine State.pantryWipe_keeps C ?_ | refine State.portRestart_keeps C ?_ | refine State.stackWiped_keeps C ?_
    | refine State.wghRestart_keeps C ?_ | refine C.wr _ _ _ ?_ | refine foldS ?_ ?_ | refine iteS ?_ ?_

theorem State.fresetWrite_keeps (C : Closed P) {s : State} {loc : Nat} (h0 : P s) : P (State.fresetWrite s loc) := by
  unfold State.fresetWrite
  with_reducible repeat' first
    | assumption | refine State.fnReset_keeps C ?_ | refine C.wr _ _ _ ?_ | refine iteS ?_ ?_ | split

theorem execGlbFreset_keeps (C : Closed P) {r : Req} {loc : BitVec 32} {s : State} (h0 : P s) :
    OkP P (execGlbFreset r loc s) := by
  unfold execGlbFreset
  with_reducible refine okS ?_
  with_reducible repeat' first
    | assumption | intro _ | refine State.fresetWrite_keeps C ?_ | refine State.writeTo_keeps C ?_ ?_

theorem State.warmAtSet_keeps (C : Closed P) {s : State} {t : Nat} (h0 : P s) : P (State.warmAtSet s t) := by
  unfold State.warmAtSet
  with_reducible repeat' first
    | assumption | refine C.setH _ _ _ ?_ | refine iteS ?_ ?_

theorem State.commitCut_keeps (C : Closed P) {s : State} (h0 : P s) : P (State.commitCut s) := by
  unfold State.commitCut
  with_reducible repeat' first
    | assumption
    | (fail_if_no_progress (extract_lets +onlyGivenNames x); refine cutS (P := P) (x := x) ?_ (fun hx => ?_);
       (on_goal 1 => (unfold x; try clear x)); (on_goal 2 => clear_value x))
    | refine State.ledger_keeps C ?_ | refine C.setH _ _ _ ?_ | refine C.wr _ _ _ ?_ | refine iteS ?_ ?_

theorem State.warmReset_keeps (C : Closed P) {s : State} (h0 : P s) : P (State.warmReset s) := by
  unfold State.warmReset
  with_reducible repeat' first
    | assumption
    | (fail_if_no_progress (extract_lets +onlyGivenNames x); refine cutS (P := P) (x := x) ?_ (fun hx => ?_);
       (on_goal 1 => (unfold x; try clear x)); (on_goal 2 => clear_value x))
    | refine State.commitCut_keeps C ?_ | refine State.count_keeps C ?_ | refine State.startMains_keeps C ?_

theorem execWarmReset_keeps (C : Closed P) {s : State} (h0 : P s) : OkP P (execWarmReset s) := by
  unfold execWarmReset
  with_reducible refine okS ?_
  with_reducible repeat' first
    | assumption | intro _ | refine State.inDom_keeps C ?_ ?_ | refine State.pass_keeps C ?_
    | refine State.passAge_keeps C ?_ | refine State.warmReset_keeps C ?_ | refine State.when_keeps C ?_ ?_

theorem State.setBank_keeps (C : Closed P) {s : State} {b v : Nat} (h0 : P s) : P (State.setBank s b v) := by
  unfold State.setBank
  with_reducible repeat' first
    | assumption | refine C.wr _ _ _ ?_

theorem State.dirWrite_keeps (C : Closed P) {s : State} {b trial : Nat} (h0 : P s) : P (State.dirWrite s b trial) := by
  unfold State.dirWrite
  with_reducible repeat' first
    | assumption | refine State.setBytes_keeps C ?_

theorem State.bankPut_keeps (C : Closed P) {s : State} {b st trial : Nat} (h0 : P s) :
    P (State.bankPut s b st trial) := by
  unfold State.bankPut
  with_reducible repeat' first
    | assumption | refine State.dirWrite_keeps C ?_ | refine State.setBank_keeps C ?_ | refine C.wr _ _ _ ?_

theorem State.updLedger_keeps (C : Closed P) {s : State} {what b : Nat} {src : LedSrc} (h0 : P s) :
    P (State.updLedger s what b src) := by
  unfold State.updLedger
  with_reducible repeat' first
    | assumption | refine State.ledger_keeps C ?_

theorem State.bankRevert_keeps (C : Closed P) {s : State} {b : Nat} {src : LedSrc} (h0 : P s) :
    P (State.bankRevert s b src) := by
  unfold State.bankRevert
  with_reducible repeat' first
    | assumption
    | (fail_if_no_progress (extract_lets +onlyGivenNames x); refine cutS (P := P) (x := x) ?_ (fun hx => ?_);
       (on_goal 1 => (unfold x; try clear x)); (on_goal 2 => clear_value x))
    | refine State.bankPut_keeps C ?_ | refine State.raise_keeps C ?_ | refine C.setH _ _ _ ?_
    | refine State.updLedger_keeps C ?_

theorem State.arbRaise_keeps (C : Closed P) {s : State} {f : Fld} {v : Nat} (h0 : P s) : P (State.arbRaise s f v) := by
  unfold State.arbRaise
  with_reducible repeat' first
    | assumption | refine C.wr _ _ _ ?_

theorem State.bankConfirm_keeps (C : Closed P) {s : State} (h0 : P s) : P (State.bankConfirm s) := by
  unfold State.bankConfirm
  with_reducible repeat' first
    | assumption | refine State.arbRaise_keeps C ?_ | refine State.bankPut_keeps C ?_ | refine C.setH _ _ _ ?_
    | refine State.updLedger_keeps C ?_ | refine iteS ?_ ?_

theorem State.confirmWrite_keeps (C : Closed P) {s : State} (h0 : P s) : P (State.confirmWrite s) := by
  unfold State.confirmWrite
  with_reducible repeat' first
    | assumption | refine State.bankConfirm_keeps C ?_ | refine iteS ?_ ?_

theorem execConfirmTimeout_keeps (C : Closed P) {s : State} (h0 : P s) : OkP P (execConfirmTimeout s) := by
  unfold execConfirmTimeout
  with_reducible refine okS ?_
  with_reducible repeat' first
    | assumption | intro _
    | (fail_if_no_progress (extract_lets +onlyGivenNames x); refine cutS (P := P) (x := x) ?_ (fun hx => ?_);
       (on_goal 1 => (unfold x; try clear x)); (on_goal 2 => clear_value x))
    | refine State.bankRevert_keeps C ?_ | refine State.inDom_keeps C ?_ ?_ | refine State.passAge_keeps C ?_
    | refine State.warmAtSet_keeps C ?_ | refine State.when_keeps C ?_ ?_

theorem State.recovery_keeps (C : Closed P) {s : State} {step attempt loc : Nat} (h0 : P s) :
    P (State.recovery s step attempt loc) := by
  unfold State.recovery
  with_reducible repeat' first
    | assumption | refine State.ledger_keeps C ?_ | refine State.raise_keeps C ?_

theorem State.exhausted_keeps (C : Closed P) {s : State} (h0 : P s) : P (State.exhausted s) := by
  unfold State.exhausted
  with_reducible repeat' first
    | assumption | refine State.ledger_keeps C ?_ | refine State.mainEnLow_keeps C ?_
    | refine State.mainsOff_keeps C ?_

theorem State.powerCycle_keeps (C : Closed P) {s : State} {loc : Nat} (h0 : P s) : P (State.powerCycle s loc) := by
  unfold State.powerCycle
  with_reducible repeat' first
    | assumption
    | (fail_if_no_progress (extract_lets +onlyGivenNames x); refine cutS (P := P) (x := x) ?_ (fun hx => ?_);
       (on_goal 1 => (unfold x; try clear x)); (on_goal 2 => clear_value x))
    | refine State.exhausted_keeps C ?_ | refine State.mainEnLow_keeps C ?_ | refine State.mainsOff_keeps C ?_
    | refine State.passAge_keeps C ?_ | refine State.recovery_keeps C ?_ | refine C.setH _ _ _ ?_ | refine iteS ?_ ?_

theorem State.step3_keeps (C : Closed P) {s : State} {loc : Nat} (h0 : P s) : P (State.step3 s loc) := by
  unfold State.step3
  with_reducible repeat' first
    | assumption | refine State.powerCycle_keeps C ?_ | refine State.recovery_keeps C ?_
    | refine State.relinquish_keeps C ?_ | refine C.setH _ _ _ ?_ | refine State.warmAtSet_keeps C ?_
    | refine iteS ?_ ?_

theorem State.resetWrite_keeps (C : Closed P) {s : State} {warm : Bool} {key : Nat} (h0 : P s) :
    P (State.resetWrite s warm key) := by
  unfold State.resetWrite
  with_reducible repeat' first
    | assumption | refine State.count_keeps C ?_ | refine State.step3_keeps C ?_ | refine iteS ?_ ?_

theorem execGlbReset_keeps (C : Closed P) {r : Req} {warm : Bool} {key : BitVec 16} {s : State} (h0 : P s) :
    OkP P (execGlbReset r warm key s) := by
  unfold execGlbReset
  with_reducible refine okS ?_
  with_reducible repeat' first
    | assumption | intro _ | refine State.resetWrite_keeps C ?_ | refine State.writeTo_keeps C ?_ ?_

theorem State.wdtKick_keeps (C : Closed P) {s : State} {v : Nat} (h0 : P s) : P (State.wdtKick s v) := by
  unfold State.wdtKick
  with_reducible repeat' first
    | assumption | refine C.setH _ _ _ ?_ | refine iteS ?_ ?_

theorem execWdtKick_keeps (C : Closed P) {r : Req} {v : BitVec 8} {s : State} (h0 : P s) :
    OkP P (execWdtKick r v s) := by
  unfold execWdtKick
  with_reducible refine okS ?_
  with_reducible repeat' first
    | assumption | intro _ | refine State.wdtKick_keeps C ?_ | refine State.writeTo_keeps C ?_ ?_

theorem execWdtTrip_keeps (C : Closed P) {s : State} (h0 : P s) : OkP P (execWdtTrip s) := by
  unfold execWdtTrip
  with_reducible refine okS ?_
  with_reducible repeat' first
    | assumption | intro _
    | (fail_if_no_progress (extract_lets +onlyGivenNames x); refine cutS (P := P) (x := x) ?_ (fun hx => ?_);
       (on_goal 1 => (unfold x; try clear x)); (on_goal 2 => clear_value x))
    | refine State.bankRevert_keeps C ?_ | refine State.count_keeps C ?_ | refine State.inDom_keeps C ?_ ?_
    | refine State.passAge_keeps C ?_ | refine State.raise_keeps C ?_ | refine C.setH _ _ _ ?_
    | refine State.step3_keeps C ?_ | refine State.when_keeps C ?_ ?_ | refine iteS ?_ ?_

theorem State.ladderMark_keeps (C : Closed P) {s : State} {k : Nat} (h0 : P s) : P (State.ladderMark s k) := by
  unfold State.ladderMark
  with_reducible repeat' first
    | assumption | refine State.engMark_keeps C ?_ | refine State.ledger_keeps C ?_ | refine C.setH _ _ _ ?_
    | refine State.stackFail_keeps C ?_ | refine iteS ?_ ?_

theorem State.step2_keeps (C : Closed P) {s : State} {k : Nat} (h0 : P s) : P (State.step2 s k) := by
  unfold State.step2
  with_reducible repeat' first
    | assumption | intro _
    | (fail_if_no_progress (extract_lets +onlyGivenNames x); refine cutS (P := P) (x := x) ?_ (fun hx => ?_);
       (on_goal 1 => (unfold x; try clear x)); (on_goal 2 => clear_value x))
    | refine State.fnReset_keeps C ?_ | refine State.ladderMark_keeps C ?_ | refine State.recovery_keeps C ?_
    | refine C.setH _ _ _ ?_ | refine State.step3_keeps C ?_ | refine C.wr _ _ _ ?_ | refine foldS ?_ ?_
    | refine iteS ?_ ?_

theorem execRecoveryReinit_keeps (C : Closed P) {loc : BitVec 32} {s : State} (h0 : P s) :
    OkP P (execRecoveryReinit loc s) := by
  unfold execRecoveryReinit
  with_reducible refine okS ?_
  with_reducible repeat' first
    | assumption | intro _ | refine State.inDom_keeps C ?_ ?_ | refine State.step2_keeps C ?_
    | refine State.step3_keeps C ?_ | refine iteS ?_ ?_ | split

theorem execRecoveryRetry_keeps (C : Closed P) {loc : BitVec 32} {n : Fin 4} {fails : Bool} {s : State} (h0 : P s) :
    OkP P (execRecoveryRetry loc n fails s) := by
  unfold execRecoveryRetry
  with_reducible refine okS ?_
  with_reducible repeat' first
    | assumption | intro _
    | (fail_if_no_progress (extract_lets +onlyGivenNames x); refine cutS (P := P) (x := x) ?_ (fun hx => ?_);
       (on_goal 1 => (unfold x; try clear x)); (on_goal 2 => clear_value x))
    | refine State.inDom_keeps C ?_ ?_ | refine State.passAge_keeps C ?_ | refine State.recovery_keeps C ?_
    | refine State.step2_keeps C ?_ | refine State.step3_keeps C ?_ | refine iteS ?_ ?_ | split

theorem execRecoveryPowerCycle_keeps (C : Closed P) {s : State} (h0 : P s) : OkP P (execRecoveryPowerCycle s) := by
  unfold execRecoveryPowerCycle
  with_reducible refine okS ?_
  with_reducible repeat' first
    | assumption | refine State.powerCycle_keeps C ?_

end Sys2Proof.Machine
end

