-- ==== Sys2Proof/Laws/KeepsLife.lean ====
section
/-! SUPPORT. Life cycle, sensors, supply and DMA: what each definition hands on keeps every property the primitive updates keep. -/

namespace Sys2Proof.Machine

variable {P : State → Prop}

theorem State.nonceNew_keeps (C : Closed P) {s : State} (h0 : P s) : P (State.nonceNew s) := by
  unfold State.nonceNew
  with_reducible repeat' first
    | assumption | refine C.nextFree ?_ | refine C.wr _ _ _ ?_

theorem State.keyWrite_keeps (C : Closed P) {s : State} {k key : Nat} (h0 : P s) : P (State.keyWrite s k key) := by
  unfold State.keyWrite
  with_reducible repeat' first
    | assumption | refine C.setH _ _ _ ?_ | refine C.wr _ _ _ ?_

theorem State.lbStore_keeps (C : Closed P) {s : State} {full : Bool} {n : Nat} (h0 : P s) :
    P (State.lbStore s full n) := by
  unfold State.lbStore
  with_reducible repeat' first
    | assumption | refine State.ledger_keeps C ?_ | refine State.raise_keeps C ?_ | refine C.setH _ _ _ ?_
    | refine C.wr _ _ _ ?_ | refine iteS ?_ ?_

theorem State.markFollow_keeps (C : Closed P) {s : State} {m : MarkKind} {j : Nat} {bad : Bool} (h0 : P s) :
    P (State.markFollow s m j bad) := by
  unfold State.markFollow
  with_reducible repeat' first
    | assumption | refine State.ledger_keeps C ?_ | refine C.setH _ _ _ ?_ | refine iteS ?_ ?_

theorem State.markEngine_keeps (C : Closed P) {s : State} {e : Nat} {bad : Bool} (h0 : P s) :
    P (State.markEngine s e bad) := by
  unfold State.markEngine
  with_reducible repeat' first
    | assumption | refine State.engMark_keeps C ?_ | refine C.setH _ _ _ ?_ | refine C.wr _ _ _ ?_ | refine iteS ?_ ?_

theorem State.applyMarks_keeps (C : Closed P) {s : State} (h0 : P s) : P (State.applyMarks s) := by
  unfold State.applyMarks
  with_reducible repeat' first
    | assumption | intro _ | refine State.markEngine_keeps C ?_ | refine State.markFollow_keeps C ?_
    | refine foldS ?_ ?_

theorem State.unmark_keeps (C : Closed P) {s : State} {loc : Nat} (h0 : P s) : P (State.unmark s loc).2 := by
  unfold State.unmark
  with_reducible repeat' first
    | assumption | intro _
    | (fail_if_no_progress (extract_lets +onlyGivenNames x); refine cutS (P := P) (x := x) ?_ (fun hx => ?_);
       (on_goal 1 => (unfold x; try clear x)); (on_goal 2 => clear_value x))
    | refine C.setH _ _ _ ?_ | refine State.stackWipeStart_keeps C ?_ | refine State.when_keeps C ?_ ?_
    | refine C.wr _ _ _ ?_ | (fail_if_no_progress (extract_lets +onlyGivenNames x)) | split

theorem State.wghKeyNew_keeps (C : Closed P) {s : State} (h0 : P s) : P (State.wghKeyNew s) := by
  unfold State.wghKeyNew
  with_reducible repeat' first
    | assumption | refine C.nextFree ?_ | refine C.setH _ _ _ ?_ | refine State.wghEvent_keeps C ?_
    | refine C.wr _ _ _ ?_

theorem State.wghKeyErase_keeps (C : Closed P) {s : State} (h0 : P s) : P (State.wghKeyErase s) := by
  unfold State.wghKeyErase
  with_reducible repeat' first
    | assumption | refine C.setH _ _ _ ?_ | refine C.wr _ _ _ ?_

theorem State.scrapErase_keeps (C : Closed P) {s : State} (h0 : P s) : P (State.scrapErase s) := by
  unfold State.scrapErase
  with_reducible repeat' first
    | assumption | intro _
    | (fail_if_no_progress (extract_lets +onlyGivenNames x); refine cutS (P := P) (x := x) ?_ (fun hx => ?_);
       (on_goal 1 => (unfold x; try clear x)); (on_goal 2 => clear_value x))
    | refine C.setH _ _ _ ?_ | refine State.wghKeyErase_keeps C ?_ | refine State.wipe_keeps C ?_ | refine foldS ?_ ?_
    | (fail_if_no_progress refine C.regsF _ ?_)

theorem State.lcDo_keeps (C : Closed P) {s : State} {dst : Nat} (h0 : P s) : P (State.lcDo s dst) := by
  unfold State.lcDo
  with_reducible repeat' first
    | assumption | refine State.bump_keeps C ?_ | refine State.keyWrite_keeps C ?_ | refine State.ledger_keeps C ?_
    | refine State.mainsOff_keeps C ?_ | refine State.scrapErase_keeps C ?_ | refine C.setH _ _ _ ?_
    | refine State.startMains_keeps C ?_ | refine State.wghKeyErase_keeps C ?_ | refine State.wghKeyNew_keeps C ?_
    | refine C.wr _ _ _ ?_ | refine iteS ?_ ?_ | (fail_if_no_progress refine C.regsF _ ?_)

theorem State.lcReq_keeps (C : Closed P) {s : State} {dst : Nat} (h0 : P s) : P (State.lcReq s dst).2 := by
  unfold State.lcReq
  with_reducible repeat' first
    | assumption
    | (fail_if_no_progress (extract_lets +onlyGivenNames x); refine cutS (P := P) (x := x) ?_ (fun hx => ?_);
       (on_goal 1 => (unfold x; try clear x)); (on_goal 2 => clear_value x))
    | refine State.intRequest_keeps C ?_ | refine State.nonceNew_keeps C ?_ | refine State.relinquish_keeps C ?_
    | refine C.setH _ _ _ ?_ | refine iteS ?_ ?_ | (fail_if_no_progress (extract_lets +onlyGivenNames x)) | split

theorem State.keyProg_keeps (C : Closed P) {s : State} {k : Nat} (h0 : P s) : P (State.keyProg s k).2 := by
  unfold State.keyProg
  with_reducible repeat' first
    | assumption
    | (fail_if_no_progress (extract_lets +onlyGivenNames x); refine cutS (P := P) (x := x) ?_ (fun hx => ?_);
       (on_goal 1 => (unfold x; try clear x)); (on_goal 2 => clear_value x))
    | refine State.keyWrite_keeps C ?_ | refine State.nonceNew_keeps C ?_
    | (fail_if_no_progress (extract_lets +onlyGivenNames x)) | split

theorem State.revoke_keeps (C : Closed P) {s : State} {k : Nat} (h0 : P s) : P (State.revoke s k).2 := by
  unfold State.revoke
  with_reducible repeat' first
    | assumption
    | (fail_if_no_progress (extract_lets +onlyGivenNames x); refine cutS (P := P) (x := x) ?_ (fun hx => ?_);
       (on_goal 1 => (unfold x; try clear x)); (on_goal 2 => clear_value x))
    | refine State.nonceNew_keeps C ?_ | refine C.wr _ _ _ ?_ | (fail_if_no_progress (extract_lets +onlyGivenNames x))
    | split

theorem State.shutService_keeps (C : Closed P) {s : State} (h0 : P s) : P (State.shutService s) := by
  unfold State.shutService
  with_reducible repeat' first
    | assumption | refine State.coarseTake_keeps C ?_ | refine State.intRequest_keeps C ?_
    | refine State.lbStore_keeps C ?_ | refine C.nextFree ?_ | refine State.passAge_keeps C ?_
    | refine State.raise_keeps C ?_ | refine C.setH _ _ _ ?_ | refine iteS ?_ ?_

theorem State.shutdown_keeps (C : Closed P) {s : State} {lbist : Bool} {v : Option Nat} (h0 : P s) :
    P (State.shutdown s lbist v).2 := by
  unfold State.shutdown
  with_reducible repeat' first
    | assumption
    | (fail_if_no_progress (extract_lets +onlyGivenNames x); refine cutS (P := P) (x := x) ?_ (fun hx => ?_);
       (on_goal 1 => (unfold x; try clear x)); (on_goal 2 => clear_value x))
    | refine State.intRequest_keeps C ?_ | refine State.relinquish_keeps C ?_ | refine C.setH _ _ _ ?_
    | refine State.shutService_keeps C ?_ | split

theorem State.lbistRun_keeps (C : Closed P) {s : State} {v : Option Nat} (h0 : P s) : P (State.lbistRun s v).2 := by
  unfold State.lbistRun
  with_reducible repeat' first
    | assumption
    | (fail_if_no_progress (extract_lets +onlyGivenNames x); refine cutS (P := P) (x := x) ?_ (fun hx => ?_);
       (on_goal 1 => (unfold x; try clear x)); (on_goal 2 => clear_value x))
    | refine State.coarseTake_keeps C ?_ | refine State.lbStore_keeps C ?_ | refine C.nextFree ?_
    | refine State.passAge_keeps C ?_ | refine State.startWhen_keeps C ?_
    | (fail_if_no_progress (extract_lets +onlyGivenNames x)) | split

theorem State.startAt_keeps (C : Closed P) {s : State} {l : List Byte} {e t j : Nat} (h0 : P s) :
    P (State.startAt s l e t j) := by
  unfold State.startAt
  with_reducible repeat' first
    | assumption | refine C.setTr _ _ _ ?_ | refine State.thrStart_keeps C ?_ | refine C.wr _ _ _ ?_

theorem State.loadEngine_keeps (C : Closed P) {s : State} {l : List Byte} {e : Nat} (h0 : P s) :
    P (State.loadEngine s l e) := by
  unfold State.loadEngine
  with_reducible repeat' first
    | assumption | intro _
    | (fail_if_no_progress (extract_lets +onlyGivenNames x); refine cutS (P := P) (x := x) ?_ (fun hx => ?_);
       (on_goal 1 => (unfold x; try clear x)); (on_goal 2 => clear_value x))
    | refine State.setBytes_keeps C ?_ | refine State.startAt_keeps C ?_ | refine C.wr _ _ _ ?_ | refine foldS ?_ ?_
    | refine iteS ?_ ?_

theorem State.loadStage_keeps (C : Closed P) {s : State} {l : List Byte} {mask : Nat} (h0 : P s) :
    P (State.loadStage s l mask) := by
  unfold State.loadStage
  with_reducible repeat' first
    | assumption | intro _ | refine State.chkSync_keeps C ?_ | refine C.wr _ _ _ ?_ | refine foldS ?_ ?_

theorem State.loadImage_keeps (C : Closed P) {s : State} {l : List Byte} {mask : Nat} (h0 : P s) :
    P (State.loadImage s l mask).2 := by
  unfold State.loadImage
  with_reducible repeat' first
    | assumption | intro _ | refine State.imgRefused_keeps C ?_ | refine State.loadEngine_keeps C ?_
    | refine State.loadStage_keeps C ?_ | refine foldS ?_ ?_ | (fail_if_no_progress (extract_lets +onlyGivenNames x))
    | split

theorem State.fwLoad_keeps (C : Closed P) {s : State} {cls : Nat} (h0 : P s) : P (State.fwLoad s cls) := by
  unfold State.fwLoad
  with_reducible repeat' first
    | assumption | intro _ | refine State.loadImage_keeps C ?_ | refine foldS ?_ ?_ | refine iteS ?_ ?_

theorem State.updBegin_keeps (C : Closed P) {s : State} {b src : Nat} (h0 : P s) : P (State.updBegin s b src).2 := by
  unfold State.updBegin
  with_reducible repeat' first
    | assumption
    | (fail_if_no_progress (extract_lets +onlyGivenNames x); refine cutS (P := P) (x := x) ?_ (fun hx => ?_);
       (on_goal 1 => (unfold x; try clear x)); (on_goal 2 => clear_value x))
    | refine State.setBank_keeps C ?_ | refine C.setH _ _ _ ?_ | refine State.wipe_keeps C ?_ | split

theorem State.updWrite_keeps (C : Closed P) {s : State} {src ofs : Nat} {data : List Byte} (h0 : P s) :
    P (State.updWrite s src ofs data).2 := by
  unfold State.updWrite
  with_reducible repeat' first
    | assumption | refine State.setBytes_keeps C ?_ | split

theorem State.updActivate_keeps (C : Closed P) {s : State} {src : Nat} (h0 : P s) :
    P (State.updActivate s src).2.2 := by
  unfold State.updActivate
  with_reducible repeat' first
    | assumption | refine State.bankPut_keeps C ?_ | refine State.imgRefused_keeps C ?_
    | refine State.updLedger_keeps C ?_ | refine State.warmAtSet_keeps C ?_ | split

theorem State.reeveRun_keeps (C : Closed P) {s : State} {l : List Byte} (h0 : P s) : P (State.reeveRun s l) := by
  unfold State.reeveRun
  with_reducible repeat' first
    | assumption | intro _
    | (fail_if_no_progress (extract_lets +onlyGivenNames x); refine cutS (P := P) (x := x) ?_ (fun hx => ?_);
       (on_goal 1 => (unfold x; try clear x)); (on_goal 2 => clear_value x))
    | refine State.setBytes_keeps C ?_ | refine C.setH _ _ _ ?_ | refine C.setTr _ _ _ ?_ | refine C.wr _ _ _ ?_
    | refine foldS ?_ ?_ | refine iteS ?_ ?_

theorem State.modeStartUp_keeps (C : Closed P) {s : State} (h0 : P s) : P (State.modeStartUp s) := by
  unfold State.modeStartUp
  with_reducible repeat' first
    | assumption
    | (fail_if_no_progress (extract_lets +onlyGivenNames x); refine cutS (P := P) (x := x) ?_ (fun hx => ?_);
       (on_goal 1 => (unfold x; try clear x)); (on_goal 2 => clear_value x))
    | refine State.selStatus_keeps C ?_ | refine State.setNco_keeps C ?_ | refine C.wr _ _ _ ?_ | refine iteS ?_ ?_

theorem State.recoveryGo_keeps (C : Closed P) {s : State} (h0 : P s) : P (State.recoveryGo s).2.2 := by
  unfold State.recoveryGo
  with_reducible repeat' first
    | assumption | refine State.imgRefused_keeps C ?_ | refine State.modeStartUp_keeps C ?_
    | refine State.reeveRun_keeps C ?_ | (fail_if_no_progress (extract_lets +onlyGivenNames x)) | split

theorem State.almWrite_keeps (C : Closed P) {s : State} {k addr : Nat} (h0 : P s) : P (State.almWrite s k addr).2 := by
  unfold State.almWrite
  with_reducible repeat' first
    | assumption | intro _
    | (fail_if_no_progress (extract_lets +onlyGivenNames x); refine cutS (P := P) (x := x) ?_ (fun hx => ?_);
       (on_goal 1 => (unfold x; try clear x)); (on_goal 2 => clear_value x))
    | refine State.calEval_keeps C ?_ | refine State.ledger_keeps C ?_ | refine State.setBytes_keeps C ?_
    | refine C.setH _ _ _ ?_ | refine foldS ?_ ?_ | refine iteS ?_ ?_
    | (fail_if_no_progress (extract_lets +onlyGivenNames x)) | split

theorem State.ctxSave_keeps (C : Closed P) {s : State} {d : Dom} (h0 : P s) : P (State.ctxSave s d) := by
  unfold State.ctxSave
  with_reducible repeat' first
    | assumption | refine C.setH _ _ _ ?_ | (fail_if_no_progress refine C.ctx_keeps ?_)

theorem State.ctxRestore_keeps (C : Closed P) {s : State} {k : Nat} (h0 : P s) : P (State.ctxRestore s k).2 := by
  unfold State.ctxRestore
  with_reducible repeat' first
    | assumption | intro _
    | (fail_if_no_progress (extract_lets +onlyGivenNames x); refine cutS (P := P) (x := x) ?_ (fun hx => ?_);
       (on_goal 1 => (unfold x; try clear x)); (on_goal 2 => clear_value x))
    | refine State.clrBitF_keeps C ?_ | refine State.laneApply_keeps C ?_ | refine C.wr _ _ _ ?_ | refine foldS ?_ ?_
    | refine iteS ?_ ?_ | split

theorem State.mboxAnswer_keeps (C : Closed P) {s : State} {m seq code : Nat} {detail : Nat} {data : Nat} (h0 : P s) :
    P (State.mboxAnswer s m seq code detail data) := by
  unfold State.mboxAnswer
  with_reducible repeat' first
    | assumption
    | (fail_if_no_progress (extract_lets +onlyGivenNames x); refine cutS (P := P) (x := x) ?_ (fun hx => ?_);
       (on_goal 1 => (unfold x; try clear x)); (on_goal 2 => clear_value x))
    | refine C.wr _ _ _ ?_

theorem State.wghPass_keeps (C : Closed P) {s : State} {w : List Nat} (h0 : P s) : P (State.wghPass s w).2 := by
  unfold State.wghPass
  with_reducible repeat' first
    | assumption
    | (fail_if_no_progress (extract_lets +onlyGivenNames x); refine cutS (P := P) (x := x) ?_ (fun hx => ?_);
       (on_goal 1 => (unfold x; try clear x)); (on_goal 2 => clear_value x))
    | refine State.setBytes_keeps C ?_ | refine State.wghCommand_keeps C ?_ | refine iteS ?_ ?_ | split

theorem mbPlain_keeps (C : Closed P) {r : Nat × State} (h0 : P r.2) : P (mbPlain r).2.2.2 := by
  unfold mbPlain
  with_reducible repeat' first
    | assumption

theorem mbDet_keeps (C : Closed P) {r : Nat × Nat × State} (h0 : P r.2.2) : P (mbDet r).2.2.2 := h0

theorem mbData_keeps (C : Closed P) {r : Nat × State} (h0 : P r.2) : P (mbData r).2.2.2 := by
  unfold mbData
  with_reducible repeat' first
    | assumption

theorem State.mboxRun_keeps (C : Closed P) {s : State} {m : Nat} {w : List Nat} {v : Option Nat} (h0 : P s) :
    P (State.mboxRun s m w v).2.2.2 := by
  unfold State.mboxRun
  with_reducible repeat' first
    | assumption | refine State.almWrite_keeps C ?_ | refine State.bankConfirm_keeps C ?_
    | refine State.ctxRestore_keeps C ?_ | refine State.keyProg_keeps C ?_ | refine State.lbistRun_keeps C ?_
    | refine State.lcReq_keeps C ?_ | refine State.loadImage_keeps C ?_ | refine mbData_keeps C ?_
    | refine mbDet_keeps C ?_ | refine mbPlain_keeps C ?_ | refine State.recoveryGo_keeps C ?_
    | refine State.revoke_keeps C ?_ | refine State.shutdown_keeps C ?_ | refine State.unmark_keeps C ?_
    | refine State.updActivate_keeps C ?_ | refine State.updBegin_keeps C ?_ | refine State.updWrite_keeps C ?_
    | refine State.wghPass_keeps C ?_ | (fail_if_no_progress (extract_lets +onlyGivenNames x)) | split
    | (clear_value *; split)

theorem State.mboxServe_keeps (C : Closed P) {s : State} {m : Nat} {v : Option Nat} (h0 : P s) :
    P (State.mboxServe s m v) := by
  unfold State.mboxServe
  with_reducible repeat' first
    | assumption | refine State.lcDo_keeps C ?_ | refine State.mboxAnswer_keeps C ?_ | refine State.mboxRun_keeps C ?_
    | refine C.setH _ _ _ ?_ | refine iteS ?_ ?_

theorem State.mboxPost_keeps (C : Closed P) {s : State} {m : Nat} {w : List Nat} {v : Option Nat} (h0 : P s) :
    P (State.mboxPost s m w v) := by
  unfold State.mboxPost
  with_reducible repeat' first
    | assumption | refine State.count_keeps C ?_ | refine State.mboxServe_keeps C ?_ | refine C.wr _ _ _ ?_
    | refine iteS ?_ ?_

theorem State.mailbox_keeps (C : Closed P) {s : State} {m : Fin 2} {op : Nat} {seq : BitVec 16} {args : List Nat}
    {v : Option Nat} (h0 : P s) :
    P (State.mailbox s m op seq args v) := by
  unfold State.mailbox
  with_reducible repeat' first
    | assumption | intro _ | refine State.inDom_keeps C ?_ ?_ | refine State.mboxPost_keeps C ?_
    | refine State.when_keeps C ?_ ?_

theorem execUpdateBegin_keeps (C : Closed P) {m : Fin 2} {seq : BitVec 16} {bank : BitVec 32} {s : State} (h0 : P s) :
    OkP P (execUpdateBegin m seq bank s) := by
  unfold execUpdateBegin
  with_reducible refine okS ?_
  with_reducible repeat' first
    | assumption | refine State.mailbox_keeps C ?_

theorem execUpdateWrite_keeps (C : Closed P) {m : Fin 2} {seq : BitVec 16} {addr : BitVec 64} {len ofs : BitVec 32}
    {s : State} (h0 : P s) :
    OkP P (execUpdateWrite m seq addr len ofs s) := by
  unfold execUpdateWrite
  with_reducible refine okS ?_
  with_reducible repeat' first
    | assumption | refine State.mailbox_keeps C ?_

theorem execUpdateActivate_keeps (C : Closed P) {m : Fin 2} {seq : BitVec 16} {s : State} (h0 : P s) :
    OkP P (execUpdateActivate m seq s) := by
  unfold execUpdateActivate
  with_reducible refine okS ?_
  with_reducible repeat' first
    | assumption | refine State.mailbox_keeps C ?_

theorem execUpdateConfirm_keeps (C : Closed P) {m : Fin 2} {seq : BitVec 16} {s : State} (h0 : P s) :
    OkP P (execUpdateConfirm m seq s) := by
  unfold execUpdateConfirm
  with_reducible refine okS ?_
  with_reducible repeat' first
    | assumption | refine State.mailbox_keeps C ?_

theorem execLoadImage_keeps (C : Closed P) {m : Fin 2} {seq : BitVec 16} {id : BitVec 64} {mask : BitVec 32}
    {s : State} (h0 : P s) :
    OkP P (execLoadImage m seq id mask s) := by
  unfold execLoadImage
  with_reducible refine okS ?_
  with_reducible repeat' first
    | assumption | refine State.mailbox_keeps C ?_

theorem execWghPassthrough_keeps (C : Closed P) {m : Fin 2} {seq : BitVec 16} {words : List (BitVec 32)}
    {s : State} (h0 : P s) :
    OkP P (execWghPassthrough m seq words s) := by
  unfold execWghPassthrough
  with_reducible refine okS ?_
  with_reducible repeat' first
    | assumption | refine State.mailbox_keeps C ?_

theorem execLcReq_keeps (C : Closed P) {m : Fin 2} {seq : BitVec 16} {target : BitVec 32} {s : State} (h0 : P s) :
    OkP P (execLcReq m seq target s) := by
  unfold execLcReq
  with_reducible refine okS ?_
  with_reducible repeat' first
    | assumption | refine State.mailbox_keeps C ?_

theorem execKeyProg_keeps (C : Closed P) {m : Fin 2} {seq : BitVec 16} {slot : BitVec 32} {s : State} (h0 : P s) :
    OkP P (execKeyProg m seq slot s) := by
  unfold execKeyProg
  with_reducible refine okS ?_
  with_reducible repeat' first
    | assumption | refine State.mailbox_keeps C ?_

theorem execRevoke_keeps (C : Closed P) {m : Fin 2} {seq : BitVec 16} {slot : BitVec 32} {s : State} (h0 : P s) :
    OkP P (execRevoke m seq slot s) := by
  unfold execRevoke
  with_reducible refine okS ?_
  with_reducible repeat' first
    | assumption | refine State.mailbox_keeps C ?_

theorem execShutdown_keeps (C : Closed P) {m : Fin 2} {seq : BitVec 16} {lbist : Bool} {v : Lbist} {s : State}
    (h0 : P s) :
    OkP P (execShutdown m seq lbist v s) := by
  unfold execShutdown
  with_reducible refine okS ?_
  with_reducible repeat' first
    | assumption | refine State.mailbox_keeps C ?_

theorem execLbistRun_keeps (C : Closed P) {m : Fin 2} {seq : BitVec 16} {v : Lbist} {s : State} (h0 : P s) :
    OkP P (execLbistRun m seq v s) := by
  unfold execLbistRun
  with_reducible refine okS ?_
  with_reducible repeat' first
    | assumption | refine State.mailbox_keeps C ?_

theorem execAlmanacWrite_keeps (C : Closed P) {m : Fin 2} {seq : BitVec 16} {set : BitVec 32} {addr : BitVec 64}
    {s : State} (h0 : P s) :
    OkP P (execAlmanacWrite m seq set addr s) := by
  unfold execAlmanacWrite
  with_reducible refine okS ?_
  with_reducible repeat' first
    | assumption | refine State.mailbox_keeps C ?_

theorem execContextRestore_keeps (C : Closed P) {m : Fin 2} {seq : BitVec 16} {dom : BitVec 32} {s : State} (h0 : P s) :
    OkP P (execContextRestore m seq dom s) := by
  unfold execContextRestore
  with_reducible refine okS ?_
  with_reducible repeat' first
    | assumption | refine State.mailbox_keeps C ?_

theorem execUnmark_keeps (C : Closed P) {m : Fin 2} {seq : BitVec 16} {loc : BitVec 32} {s : State} (h0 : P s) :
    OkP P (execUnmark m seq loc s) := by
  unfold execUnmark
  with_reducible refine okS ?_
  with_reducible repeat' first
    | assumption | refine State.mailbox_keeps C ?_

theorem execRecoveryGo_keeps (C : Closed P) {m : Fin 2} {seq : BitVec 16} {s : State} (h0 : P s) :
    OkP P (execRecoveryGo m seq s) := by
  unfold execRecoveryGo
  with_reducible refine okS ?_
  with_reducible repeat' first
    | assumption | refine State.mailbox_keeps C ?_

theorem State.almFail_keeps (C : Closed P) {s : State} {k : Nat} (h0 : P s) : P (State.almFail s k) := by
  unfold State.almFail
  with_reducible repeat' first
    | assumption | intro _
    | (fail_if_no_progress (extract_lets +onlyGivenNames x); refine cutS (P := P) (x := x) ?_ (fun hx => ?_);
       (on_goal 1 => (unfold x; try clear x)); (on_goal 2 => clear_value x))
    | refine State.calEval_keeps C ?_ | refine State.ledger_keeps C ?_ | refine State.raise_keeps C ?_
    | refine C.setH _ _ _ ?_ | refine foldS ?_ ?_ | refine iteS ?_ ?_

theorem State.sensorLimit_keeps (C : Closed P) {s : State} {n : Nat} (h0 : P s) :
    P (State.sensorLimit s n) := by
  unfold State.sensorLimit
  with_reducible repeat' first
    | assumption | refine State.raise_keeps C ?_

theorem State.tempSample_keeps (C : Closed P) {s : State} {i v : Nat} (h0 : P s) : P (State.tempSample s i v) := by
  unfold State.tempSample
  with_reducible repeat' first
    | assumption | intro _
    | (fail_if_no_progress (extract_lets +onlyGivenNames x); refine cutS (P := P) (x := x) ?_ (fun hx => ?_);
       (on_goal 1 => (unfold x; try clear x)); (on_goal 2 => clear_value x))
    | refine State.calEval_keeps C ?_ | refine State.dacDormant_keeps C ?_ | refine State.sensorLimit_keeps C ?_
    | refine C.setH _ _ _ ?_ | refine C.wr _ _ _ ?_ | refine foldS ?_ ?_ | refine iteS ?_ ?_

theorem State.sensorSample_keeps (C : Closed P) {s : State} {x : Sens} (h0 : P s) : P (State.sensorSample s x) := by
  unfold State.sensorSample
  with_reducible repeat' first
    | assumption
    | (fail_if_no_progress (extract_lets +onlyGivenNames x); refine cutS (P := P) (x := x) ?_ (fun hx => ?_);
       (on_goal 1 => (unfold x; try clear x)); (on_goal 2 => clear_value x))
    | refine State.sensorLimit_keeps C ?_ | refine State.tempSample_keeps C ?_ | refine C.wr _ _ _ ?_
    | refine iteS ?_ ?_ | split

theorem execSensorSample_keeps (C : Closed P) {x : Sens} {bad : Option (Fin 17)} {s : State} (h0 : P s) :
    OkP P (execSensorSample x bad s) := by
  unfold execSensorSample
  with_reducible refine okS ?_
  with_reducible repeat' first
    | assumption | intro _
    | (fail_if_no_progress (extract_lets +onlyGivenNames x); refine cutS (P := P) (x := x) ?_ (fun hx => ?_);
       (on_goal 1 => (unfold x; try clear x)); (on_goal 2 => clear_value x))
    | refine State.almFail_keeps C ?_ | refine State.inDom_keeps C ?_ ?_ | refine State.sensorSample_keeps C ?_
    | split

theorem execVidStep_keeps (C : Closed P) {s : State} (h0 : P s) : OkP P (execVidStep s) := by
  unfold execVidStep
  with_reducible refine okS ?_
  with_reducible repeat' first
    | assumption | intro _ | refine State.inDom_keeps C ?_ ?_ | refine State.pass_keeps C ?_ | refine C.wr _ _ _ ?_

theorem State.thermalTrip_keeps (C : Closed P) {s : State} {i v : Nat} (h0 : P s) : P (State.thermalTrip s i v) := by
  unfold State.thermalTrip
  with_reducible repeat' first
    | assumption | refine State.count_keeps C ?_ | refine State.ledger_keeps C ?_ | refine State.mainEnLow_keeps C ?_
    | refine State.mainsOff_keeps C ?_ | refine State.raise_keeps C ?_ | refine C.setH _ _ _ ?_ | refine C.wr _ _ _ ?_
    | refine iteS ?_ ?_

theorem execThermalTrip_keeps (C : Closed P) {i : Fin 22} {v : BitVec 16} {s : State} (h0 : P s) :
    OkP P (execThermalTrip i v s) := by
  unfold execThermalTrip
  with_reducible refine okS ?_
  with_reducible repeat' first
    | assumption | intro _ | refine State.inDom_keeps C ?_ ?_ | refine State.thermalTrip_keeps C ?_

theorem execThermalRelease_keeps (C : Closed P) {s : State} (h0 : P s) : OkP P (execThermalRelease s) := by
  unfold execThermalRelease
  with_reducible refine okS ?_
  with_reducible repeat' first
    | assumption | intro _ | refine State.inDom_keeps C ?_ ?_ | refine State.passAge_keeps C ?_
    | refine C.setH _ _ _ ?_ | refine State.when_keeps C ?_ ?_

theorem State.lifeMinute_keeps (C : Closed P) {s : State} (h0 : P s) : P (State.lifeMinute s) := by
  unfold State.lifeMinute
  with_reducible repeat' first
    | assumption
    | (fail_if_no_progress (extract_lets +onlyGivenNames x); refine cutS (P := P) (x := x) ?_ (fun hx => ?_);
       (on_goal 1 => (unfold x; try clear x)); (on_goal 2 => clear_value x))
    | refine C.setH _ _ _ ?_ | refine State.wrS_keeps C ?_ | refine iteS ?_ ?_

theorem execLifeMinute_keeps (C : Closed P) {s : State} (h0 : P s) : OkP P (execLifeMinute s) := by
  unfold execLifeMinute
  with_reducible refine okS ?_
  with_reducible repeat' first
    | assumption | intro _ | refine State.inDom_keeps C ?_ ?_ | refine State.lifeMinute_keeps C ?_

theorem State.lifeHour_keeps (C : Closed P) {s : State} (h0 : P s) : P (State.lifeHour s) := by
  unfold State.lifeHour
  with_reducible repeat' first
    | assumption | intro _
    | (fail_if_no_progress (extract_lets +onlyGivenNames x); refine cutS (P := P) (x := x) ?_ (fun hx => ?_);
       (on_goal 1 => (unfold x; try clear x)); (on_goal 2 => clear_value x))
    | refine State.count_keeps C ?_ | refine State.ledger_keeps C ?_ | refine State.raise_keeps C ?_
    | refine C.setH _ _ _ ?_ | refine C.wr _ _ _ ?_ | refine foldS ?_ ?_ | refine iteS ?_ ?_

theorem execLifeHour_keeps (C : Closed P) {s : State} (h0 : P s) : OkP P (execLifeHour s) := by
  unfold execLifeHour
  with_reducible refine okS ?_
  with_reducible repeat' first
    | assumption | intro _ | refine State.inDom_keeps C ?_ ?_ | refine State.lifeHour_keeps C ?_

theorem State.switch_keeps (C : Closed P) {s : State} {d : Dom} {old new : Nat} (h0 : P s) :
    P (State.switch s d old new) := by
  unfold State.switch
  with_reducible repeat' first
    | assumption | refine State.ctxReport_keeps C ?_ | refine State.ctxSave_keeps C ?_
    | refine State.loseDoms_keeps C ?_ | refine State.setDom_keeps C ?_ | refine iteS ?_ ?_

theorem State.pwrReqWrite_keeps (C : Closed P) {s : State} {r : Req} {v : Nat} {railsOff : Bool} (h0 : P s) :
    P (State.pwrReqWrite s r v railsOff) := by
  unfold State.pwrReqWrite
  with_reducible repeat' first
    | assumption | intro _
    | (fail_if_no_progress (extract_lets +onlyGivenNames x); refine cutS (P := P) (x := x) ?_ (fun hx => ?_);
       (on_goal 1 => (unfold x; try clear x)); (on_goal 2 => clear_value x))
    | refine State.raise_keeps C ?_ | refine State.switch_keeps C ?_ | refine C.wr _ _ _ ?_ | refine foldS ?_ ?_
    | refine iteS ?_ ?_

theorem execHrtPwrReqWrite_keeps (C : Closed P) {r : Req} {req : BitVec 9} {railsOff : Bool} {s : State} (h0 : P s) :
    OkP P (execHrtPwrReqWrite r req railsOff s) := by
  unfold execHrtPwrReqWrite
  with_reducible refine okS ?_
  with_reducible repeat' first
    | assumption | intro _ | refine State.pwrReqWrite_keeps C ?_ | refine State.writeTo_keeps C ?_ ?_

theorem State.domReturn_keeps (C : Closed P) {s : State} (h0 : P s) : P (State.domReturn s) := by
  unfold State.domReturn
  with_reducible repeat' first
    | assumption | intro _ | refine State.setDom_keeps C ?_ | refine foldS ?_ ?_ | refine iteS ?_ ?_

theorem execRailGood_keeps (C : Closed P) {rail : Fin 8} {s : State} (h0 : P s) : OkP P (execRailGood rail s) := by
  unfold execRailGood
  with_reducible refine okS ?_
  with_reducible repeat' first
    | assumption | intro _ | refine State.domReturn_keeps C ?_ | refine State.inDom_keeps C ?_ ?_
    | refine State.setBitF_keeps C ?_

theorem State.cautionEntry_keeps (C : Closed P) {s : State} {rail mv : Nat} (h0 : P s) :
    P (State.cautionEntry s rail mv) := by
  unfold State.cautionEntry
  with_reducible repeat' first
    | assumption
    | (fail_if_no_progress (extract_lets +onlyGivenNames x); refine cutS (P := P) (x := x) ?_ (fun hx => ?_);
       (on_goal 1 => (unfold x; try clear x)); (on_goal 2 => clear_value x))
    | refine State.count_keeps C ?_ | refine State.raise_keeps C ?_ | refine C.wr _ _ _ ?_ | refine iteS ?_ ?_

theorem execSupplyCautionEntry_keeps (C : Closed P) {rail : Fin 8} {mv : BitVec 16} {s : State} (h0 : P s) :
    OkP P (execSupplyCautionEntry rail mv s) := by
  unfold execSupplyCautionEntry
  with_reducible refine okS ?_
  with_reducible repeat' first
    | assumption | intro _ | refine State.cautionEntry_keeps C ?_ | refine State.inDom_keeps C ?_ ?_

theorem State.cautionExit_keeps (C : Closed P) {s : State} (h0 : P s) : P (State.cautionExit s) := by
  unfold State.cautionExit
  with_reducible repeat' first
    | assumption
    | (fail_if_no_progress (extract_lets +onlyGivenNames x); refine cutS (P := P) (x := x) ?_ (fun hx => ?_);
       (on_goal 1 => (unfold x; try clear x)); (on_goal 2 => clear_value x))
    | refine State.ledger_keeps C ?_ | refine State.raise_keeps C ?_ | refine C.setH _ _ _ ?_ | refine C.wr _ _ _ ?_
    | refine iteS ?_ ?_

theorem execSupplyCautionExit_keeps (C : Closed P) {s : State} (h0 : P s) : OkP P (execSupplyCautionExit s) := by
  unfold execSupplyCautionExit
  with_reducible refine okS ?_
  with_reducible repeat' first
    | assumption | intro _ | refine State.cautionExit_keeps C ?_ | refine State.inDom_keeps C ?_ ?_

theorem State.hearthLost_keeps (C : Closed P) {s : State} (h0 : P s) : P (State.hearthLost s) := by
  unfold State.hearthLost
  with_reducible repeat' first
    | assumption
    | (fail_if_no_progress (extract_lets +onlyGivenNames x); refine cutS (P := P) (x := x) ?_ (fun hx => ?_);
       (on_goal 1 => (unfold x; try clear x)); (on_goal 2 => clear_value x))
    | refine State.loseDoms_keeps C ?_ | (fail_if_no_progress refine C.now_coarse_hist_held_keeps ?_)

theorem State.supplyReset_keeps (C : Closed P) {s : State} {rail : Nat} (h0 : P s) : P (State.supplyReset s rail) := by
  unfold State.supplyReset
  with_reducible repeat' first
    | assumption | intro _
    | (fail_if_no_progress (extract_lets +onlyGivenNames x); refine cutS (P := P) (x := x) ?_ (fun hx => ?_);
       (on_goal 1 => (unfold x; try clear x)); (on_goal 2 => clear_value x))
    | refine State.cautionExit_keeps C ?_ | refine State.count_keeps C ?_ | refine State.ctxReport_keeps C ?_
    | refine State.hearthLost_keeps C ?_ | refine State.linkDown_keeps C ?_ | refine State.loseDoms_keeps C ?_
    | refine State.mainsOff_keeps C ?_ | refine C.setH _ _ _ ?_ | refine State.stacksLost_keeps C ?_
    | refine C.wr _ _ _ ?_ | refine foldS ?_ ?_ | refine iteS ?_ ?_

theorem execSupplyReset_keeps (C : Closed P) {rail : Fin 8} {s : State} (h0 : P s) :
    OkP P (execSupplyReset rail s) := by
  unfold execSupplyReset
  with_reducible refine okS ?_
  with_reducible repeat' first
    | assumption | intro _ | refine State.inDom_keeps C ?_ ?_ | refine State.supplyReset_keeps C ?_

theorem State.srcChange_keeps (C : Closed P) {s : State} {src pd cls : Nat} (h0 : P s) :
    P (State.srcChange s src pd cls) := by
  unfold State.srcChange
  with_reducible repeat' first
    | assumption | refine State.raise_keeps C ?_ | refine C.wr _ _ _ ?_ | refine iteS ?_ ?_

theorem execHearthSrcChange_keeps (C : Closed P) {src : Fin 3} {pd : Bool} {cls : BitVec 4} {s : State} (h0 : P s) :
    OkP P (execHearthSrcChange src pd cls s) := by
  unfold execHearthSrcChange
  with_reducible refine okS ?_
  with_reducible repeat' first
    | assumption | intro _ | refine State.inDom_keeps C ?_ ?_ | refine State.srcChange_keeps C ?_

theorem State.mainEnFree_keeps (C : Closed P) {s : State} {n : Nat} (h0 : P s) : P (State.mainEnFree s n) := by
  unfold State.mainEnFree
  with_reducible repeat' first
    | assumption | refine C.setH _ _ _ ?_ | refine iteS ?_ ?_

theorem execCrystalStable_keeps (C : Closed P) {s : State} (h0 : P s) : OkP P (execCrystalStable s) := by
  unfold execCrystalStable
  with_reducible refine okS ?_
  with_reducible repeat' first
    | assumption | refine State.mainEnFree_keeps C ?_ | intro _
    | (fail_if_no_progress (extract_lets +onlyGivenNames x); refine cutS (P := P) (x := x) ?_ (fun hx => ?_);
       (on_goal 1 => (unfold x; try clear x)); (on_goal 2 => clear_value x))
    | refine State.inDom_keeps C ?_ ?_ | refine State.pass_keeps C ?_ | refine C.setH _ _ _ ?_
    | refine State.startWhen_keeps C ?_ | refine C.wr _ _ _ ?_ | refine iteS ?_ ?_

theorem execCrystalStableTimeout_keeps (C : Closed P) {s : State} (h0 : P s) : OkP P (execCrystalStableTimeout s) := by
  unfold execCrystalStableTimeout
  with_reducible refine okS ?_
  with_reducible repeat' first
    | assumption | intro _ | refine State.inDom_keeps C ?_ ?_ | refine State.pass_keeps C ?_
    | refine State.raise_keeps C ?_ | refine State.when_keeps C ?_ ?_

theorem execCrystalLoss_keeps (C : Closed P) {s : State} (h0 : P s) : OkP P (execCrystalLoss s) := by
  unfold execCrystalLoss
  with_reducible refine okS ?_
  with_reducible repeat' first
    | assumption | intro _
    | (fail_if_no_progress (extract_lets +onlyGivenNames x); refine cutS (P := P) (x := x) ?_ (fun hx => ?_);
       (on_goal 1 => (unfold x; try clear x)); (on_goal 2 => clear_value x))
    | refine State.count_keeps C ?_ | refine State.inDom_keeps C ?_ ?_ | refine State.mainsOff_keeps C ?_
    | refine State.raise_keeps C ?_ | refine C.setH _ _ _ ?_ | refine State.when_keeps C ?_ ?_ | refine C.wr _ _ _ ?_

theorem State.histDiscard_keeps (C : Closed P) {s : State} (h0 : P s) : P (State.histDiscard s) := by
  unfold State.histDiscard
  with_reducible repeat' first
    | assumption | refine State.histRestart_keeps C ?_ | refine State.wrAll_keeps C ?_
    | (fail_if_no_progress refine C.hist_keeps ?_)

theorem execOcxoLoss_keeps (C : Closed P) {s : State} (h0 : P s) : OkP P (execOcxoLoss s) := by
  unfold execOcxoLoss
  with_reducible refine okS ?_
  with_reducible repeat' first
    | assumption | intro _
    | (fail_if_no_progress (extract_lets +onlyGivenNames x); refine cutS (P := P) (x := x) ?_ (fun hx => ?_);
       (on_goal 1 => (unfold x; try clear x)); (on_goal 2 => clear_value x))
    | refine State.histDiscard_keeps C ?_ | refine State.inDom_keeps C ?_ ?_ | refine State.raise_keeps C ?_
    | refine C.setH _ _ _ ?_ | refine State.when_keeps C ?_ ?_ | refine C.wr _ _ _ ?_

theorem State.hclkRetry_keeps (C : Closed P) {s : State} {present : Bool} (h0 : P s) :
    P (State.hclkRetry s present) := by
  unfold State.hclkRetry
  with_reducible repeat' first
    | assumption | refine C.setH _ _ _ ?_ | refine C.wr _ _ _ ?_ | refine iteS ?_ ?_

theorem execHclkRetry_keeps (C : Closed P) {r : Req} {present : Bool} {s : State} (h0 : P s) :
    OkP P (execHclkRetry r present s) := by
  unfold execHclkRetry
  with_reducible refine okS ?_
  with_reducible repeat' first
    | assumption | intro _ | refine State.hclkRetry_keeps C ?_ | refine State.writeTo_keeps C ?_ ?_

theorem State.clkSet_keeps (C : Closed P) {s : State} {f : Fld} {k : Nat} {present v quiet : Bool} (h0 : P s) :
    P (State.clkSet s f k present v quiet) := by
  unfold State.clkSet
  with_reducible repeat' first
    | assumption | refine C.wr _ _ _ ?_ | refine iteS ?_ ?_

theorem State.clkEnWrite_keeps (C : Closed P) {s : State} {v : Nat} (h0 : P s) : P (State.clkEnWrite s v) := by
  unfold State.clkEnWrite
  with_reducible repeat' first
    | assumption | intro _
    | (fail_if_no_progress (extract_lets +onlyGivenNames x); refine cutS (P := P) (x := x) ?_ (fun hx => ?_);
       (on_goal 1 => (unfold x; try clear x)); (on_goal 2 => clear_value x))
    | refine State.clkSet_keeps C ?_ | refine State.talGate_keeps C ?_ | refine foldS ?_ ?_ | refine iteS ?_ ?_

theorem execClkEnWrite_keeps (C : Closed P) {r : Req} {v : BitVec 64} {s : State} (h0 : P s) :
    OkP P (execClkEnWrite r v s) := by
  unfold execClkEnWrite
  with_reducible refine okS ?_
  with_reducible repeat' first
    | assumption | intro _
    | (fail_if_no_progress (extract_lets +onlyGivenNames x); refine cutS (P := P) (x := x) ?_ (fun hx => ?_);
       (on_goal 1 => (unfold x; try clear x)); (on_goal 2 => clear_value x))
    | refine State.clkEnWrite_keeps C ?_ | refine State.holdClear_keeps C ?_ | refine C.wr _ _ _ ?_
    | refine State.writeTo_keeps C ?_ ?_ | refine iteS ?_ ?_

theorem State.coldStart_keeps (C : Closed P) {s : State} {ocxo : Bool} (h0 : P s) : P (State.coldStart s ocxo) := by
  unfold State.coldStart
  with_reducible repeat' first
    | assumption
    | (fail_if_no_progress (extract_lets +onlyGivenNames x); refine cutS (P := P) (x := x) ?_ (fun hx => ?_);
       (on_goal 1 => (unfold x; try clear x)); (on_goal 2 => clear_value x))
    | refine State.hearthLost_keeps C ?_ | refine State.setBitF_keeps C ?_ | refine State.setDom_keeps C ?_
    | refine C.setH _ _ _ ?_ | refine C.wr _ _ _ ?_

theorem execColdStart_keeps (C : Closed P) {ocxo : Bool} {s : State} (h0 : P s) : OkP P (execColdStart ocxo s) := by
  unfold execColdStart
  with_reducible refine okS ?_
  with_reducible repeat' first
    | assumption | refine State.coldStart_keeps C ?_

theorem execHearthKeptStart_keeps (C : Closed P) {s : State} (h0 : P s) : OkP P (execHearthKeptStart s) := by
  unfold execHearthKeptStart
  with_reducible refine okS ?_
  with_reducible repeat' first
    | assumption | intro _ | refine State.inDom_keeps C ?_ ?_ | refine State.startMains_keeps C ?_ | refine iteS ?_ ?_

theorem execPinReset_keeps (C : Closed P) {s : State} (h0 : P s) : OkP P (execPinReset s) := by
  unfold execPinReset
  with_reducible refine okS ?_
  with_reducible repeat' first
    | assumption | intro _ | refine State.inDom_keeps C ?_ ?_ | refine State.mainsOff_keeps C ?_
    | refine C.setH _ _ _ ?_

theorem execPinResetRelease_keeps (C : Closed P) {s : State} (h0 : P s) : OkP P (execPinResetRelease s) := by
  unfold execPinResetRelease
  with_reducible refine okS ?_
  with_reducible repeat' first
    | assumption | refine State.mainEnFree_keeps C ?_ | intro _
    | (fail_if_no_progress (extract_lets +onlyGivenNames x); refine cutS (P := P) (x := x) ?_ (fun hx => ?_);
       (on_goal 1 => (unfold x; try clear x)); (on_goal 2 => clear_value x))
    | refine State.inDom_keeps C ?_ ?_ | refine C.setH _ _ _ ?_ | refine State.startWhen_keeps C ?_
    | refine State.when_keeps C ?_ ?_ | refine iteS ?_ ?_

theorem execWake_keeps (C : Closed P) {pin : Bool} {s : State} (h0 : P s) : OkP P (execWake pin s) := by
  unfold execWake
  with_reducible refine okS ?_
  with_reducible repeat' first
    | assumption | intro _ | refine State.inDom_keeps C ?_ ?_ | refine State.pass_keeps C ?_ | refine C.setH _ _ _ ?_
    | refine State.startWhen_keeps C ?_ | refine iteS ?_ ?_

theorem State.linkLoss_keeps (C : Closed P) {s : State} {fails : Nat} (h0 : P s) : P (State.linkLoss s fails) := by
  unfold State.linkLoss
  with_reducible repeat' first
    | assumption | intro _
    | (fail_if_no_progress (extract_lets +onlyGivenNames x); refine cutS (P := P) (x := x) ?_ (fun hx => ?_);
       (on_goal 1 => (unfold x; try clear x)); (on_goal 2 => clear_value x))
    | refine State.passAge_keeps C ?_ | refine State.recovery_keeps C ?_ | refine C.setH _ _ _ ?_
    | refine State.step3_keeps C ?_ | refine foldS ?_ ?_ | refine iteS ?_ ?_

theorem execHearthLinkLoss_keeps (C : Closed P) {fails : Fin 4} {s : State} (h0 : P s) :
    OkP P (execHearthLinkLoss fails s) := by
  unfold execHearthLinkLoss
  with_reducible refine okS ?_
  with_reducible repeat' first
    | assumption | intro _ | refine State.inDom_keeps C ?_ ?_ | refine State.linkLoss_keeps C ?_

theorem State.dmaRefused_keeps (C : Closed P) {s : State} {q : Nat} (h0 : P s) : P (State.dmaRefused s q) := by
  unfold State.dmaRefused
  with_reducible repeat' first
    | assumption | refine C.wr _ _ _ ?_

theorem State.dmaSize_keeps (C : Closed P) {s : State} {q : Nat} {en size : Fld} {v : Nat} (h0 : P s) :
    P (State.dmaSize s q en size v) := by
  unfold State.dmaSize
  with_reducible repeat' first
    | assumption | refine State.dmaRefused_keeps C ?_ | refine C.wr _ _ _ ?_ | refine iteS ?_ ?_

theorem State.dmaEn_keeps (C : Closed P) {s : State} {q : Nat} {en head : Fld} {phase : Hid} {v : Bool} (h0 : P s) :
    P (State.dmaEn s q en head phase v) := by
  unfold State.dmaEn
  with_reducible repeat' first
    | assumption | refine C.setH _ _ _ ?_ | refine C.wr _ _ _ ?_ | refine iteS ?_ ?_

theorem State.dmaCfgWrite_keeps (C : Closed P) {s : State} {q w : Nat} (h0 : P s) : P (State.dmaCfgWrite s q w) := by
  unfold State.dmaCfgWrite
  with_reducible repeat' first
    | assumption
    | (fail_if_no_progress (extract_lets +onlyGivenNames x); refine cutS (P := P) (x := x) ?_ (fun hx => ?_);
       (on_goal 1 => (unfold x; try clear x)); (on_goal 2 => clear_value x))
    | refine State.dmaEn_keeps C ?_ | refine State.dmaRefused_keeps C ?_ | refine State.dmaSize_keeps C ?_
    | refine C.wr _ _ _ ?_ | refine iteS ?_ ?_

theorem execDmaRingEnable_keeps (C : Closed P) {r : Req} {q : Fin 16} {w : BitVec 32} {s : State} (h0 : P s) :
    OkP P (execDmaRingEnable r q w s) := by
  unfold execDmaRingEnable
  with_reducible refine okS ?_
  with_reducible repeat' first
    | assumption | intro _ | refine State.dmaCfgWrite_keeps C ?_ | refine State.writeTo_keeps C ?_ ?_

theorem State.dmaNext_keeps (C : Closed P) {s : State} {q : Nat} {size head : Fld} {phase : Hid} (h0 : P s) :
    P (State.dmaNext s q size head phase) := by
  unfold State.dmaNext
  with_reducible repeat' first
    | assumption | refine C.setH _ _ _ ?_ | refine C.wr _ _ _ ?_ | refine iteS ?_ ?_

theorem State.dmaCopy_keeps (C : Closed P) {s : State} {a len md : Nat} {hs : List Nat} (h0 : P s) :
    P (State.dmaCopy s a len md hs).2 := by
  have hr := fun x h b o l => State.offerMd_keeps (d := x) C (State.setBuf_keeps (h := h) (b := b) C
    (State.setFrameBytes_keeps (h := h) (o := o) (l := l) C
      (State.joinChain_keeps (refs := 1) (pri := mdPFC_PRI.get md) (l := hs) C h0)))
  exact iteS (hr _ _ _ _ _) (State.drop1_keeps C (hr _ _ _ _ _))

theorem State.dmaSend_keeps (C : Closed P) {s : State} {a : Nat} (h0 : P s) : P (State.dmaSend s a).2 := by
  unfold State.dmaSend
  with_reducible repeat' first
    | assumption | refine State.dmaCopy_keeps C ?_ | (refine pr2 (State.grantChain_keeps C ?_) (by assumption))
    | (fail_if_no_progress (extract_lets +onlyGivenNames x)) | split

theorem State.dmaTx_keeps (C : Closed P) {s : State} {q : Nat} (h0 : P s) : P (State.dmaTx s q) := by
  unfold State.dmaTx
  with_reducible repeat' first
    | assumption | refine State.dmaNext_keeps C ?_ | refine State.dmaSend_keeps C ?_ | refine State.wrMem_keeps C ?_

theorem execDmaTxDescriptor_keeps (C : Closed P) {q : Fin 16} {s : State} (h0 : P s) :
    OkP P (execDmaTxDescriptor q s) := by
  unfold execDmaTxDescriptor
  with_reducible refine okS ?_
  with_reducible repeat' first
    | assumption | intro _ | refine State.dmaTx_keeps C ?_ | refine State.inUnit_keeps C ?_ ?_
    | refine State.when_keeps C ?_ ?_

theorem State.dmaRx_keeps (C : Closed P) {s : State} {q : Nat} (h0 : P s) : P (State.dmaRx s q) := by
  unfold State.dmaRx
  with_reducible repeat' first
    | assumption | refine State.dmaNext_keeps C ?_ | refine State.drop1_keeps C ?_ | refine State.setBytes_keeps C ?_
    | refine State.setHq_keeps C ?_ | (fail_if_no_progress (extract_lets +onlyGivenNames x)) | split

theorem execDmaRxFrame_keeps (C : Closed P) {q : Fin 16} {s : State} (h0 : P s) : OkP P (execDmaRxFrame q s) := by
  unfold execDmaRxFrame
  with_reducible refine okS ?_
  with_reducible repeat' first
    | assumption | intro _ | refine State.dmaRx_keeps C ?_ | refine State.inUnit_keeps C ?_ ?_
    | refine State.when_keeps C ?_ ?_

theorem State.endpointReset_keeps (C : Closed P) {s : State} (h0 : P s) : P (State.endpointReset s) := by
  unfold State.endpointReset
  with_reducible repeat' first
    | assumption | intro _
    | (fail_if_no_progress (extract_lets +onlyGivenNames x); refine cutS (P := P) (x := x) ?_ (fun hx => ?_);
       (on_goal 1 => (unfold x; try clear x)); (on_goal 2 => clear_value x))
    | refine State.count_keeps C ?_ | refine State.drop1_keeps C ?_ | refine C.setH _ _ _ ?_
    | refine State.setHq_keeps C ?_ | refine C.wr _ _ _ ?_ | refine foldS ?_ ?_

theorem execEndpointReset_keeps (C : Closed P) {s : State} (h0 : P s) : OkP P (execEndpointReset s) := by
  unfold execEndpointReset
  with_reducible refine okS ?_
  with_reducible repeat' first
    | assumption | intro _ | refine State.endpointReset_keeps C ?_ | refine State.inDom_keeps C ?_ ?_

theorem State.bar2Put_keeps (C : Closed P) {s : State} {a : Nat} {l : List Byte} (h0 : P s) :
    P (State.bar2Put s a l) := by
  induction l generalizing s a with
  | nil => exact h0
  | cons b t ih =>
    unfold State.bar2Put
    refine ih ?_
    split
    · exact C.setByte _ _ _ h0
    · exact h0

theorem State.bar2Write_keeps (C : Closed P) {s : State} {a : Nat} {data : List Byte} (h0 : P s) :
    P (State.bar2Write s a data) := by
  unfold State.bar2Write
  with_reducible repeat' first
    | assumption | refine State.bar2Put_keeps C ?_ | refine State.busError_keeps C ?_ | refine State.ok_keeps C ?_
    | refine iteS ?_ ?_

theorem execBar2Write_keeps (C : Closed P) {a : BitVec 37} {data : List (BitVec 8)} {s : State} (h0 : P s) :
    OkP P (execBar2Write a data s) := by
  unfold execBar2Write
  with_reducible refine okS ?_
  with_reducible repeat' first
    | assumption | intro _ | refine State.bar2Write_keeps C ?_ | refine State.inDom_keeps C ?_ ?_
    | refine State.when_keeps C ?_ ?_

end Sys2Proof.Machine
end

