-- ==== Sys2Proof/Laws/KeepsReg.lean ====
section
/-! SUPPORT. Register rules, writes, reads and snapshots: what each definition hands on keeps every property the primitive updates keep. -/

namespace Sys2Proof.Machine

variable {P : State → Prop}

theorem State.fieldRefuse_keeps (C : Closed P) {s : State} {f : Fld} {i : Nat} (h0 : P s) :
    P (State.fieldRefuse s f i) := by
  unfold State.fieldRefuse
  with_reducible repeat' first
    | assumption
    | (fail_if_no_progress (extract_lets +onlyGivenNames x); refine cutS (P := P) (x := x) ?_ (fun hx => ?_);
       (on_goal 1 => (unfold x; try clear x)); (on_goal 2 => clear_value x))
    | refine State.coreRefused_keeps C ?_ | refine State.dmaRefused_keeps C ?_ | refine State.poolRefused_keeps C ?_
    | refine State.stampRefused_keeps C ?_ | refine State.thrRefused_keeps C ?_ | refine C.wr _ _ _ ?_
    | refine iteS ?_ ?_ | split

theorem State.fieldAfter_keeps (C : Closed P) {old s : State} {f : Fld} {i : Nat} (h0 : P old) (h1 : P s) :
    P (State.fieldAfter old s f i) := by
  unfold State.fieldAfter
  with_reducible repeat' first
    | assumption | refine State.leapWatch_keeps C ?_ | refine State.modelFollow_keeps C ?_
    | refine State.outsSync_keeps C ?_ | refine C.setH _ _ _ ?_ | refine State.sharedCheck_keeps C ?_
    | refine State.sigRefresh_keeps C ?_ | refine State.vecUpdateAll_keeps C ?_ ?_ | refine C.wr _ _ _ ?_
    | refine iteS ?_ ?_ | split

theorem State.pdrPut_keeps (C : Closed P) {s : State} {p : Nat} {octets : List Byte} {sd ref : Nat} (h0 : P s) :
    P (State.pdrPut s p octets sd ref) := by
  unfold State.pdrPut
  with_reducible repeat' first
    | assumption | refine State.setCtl_keeps C ?_

theorem State.pdrRespond_keeps (C : Closed P) {s : State} {p : Nat} (h0 : P s) : P (State.pdrRespond s p) := by
  unfold State.pdrRespond
  with_reducible repeat' first
    | assumption
    | (fail_if_no_progress (extract_lets +onlyGivenNames x); refine cutS (P := P) (x := x) ?_ (fun hx => ?_);
       (on_goal 1 => (unfold x; try clear x)); (on_goal 2 => clear_value x))
    | refine State.count_keeps C ?_ | refine State.pdrPut_keeps C ?_ | refine C.setH _ _ _ ?_
    | refine State.setHS_keeps C ?_ | refine State.setRx_keeps C ?_ | refine iteS ?_ ?_
    | (fail_if_no_progress (extract_lets +onlyGivenNames x)) | split

theorem execPeerDelayRespond_keeps (C : Closed P) {p : Fin 72} {s : State} (h0 : P s) :
    OkP P (execPeerDelayRespond p s) := by
  unfold execPeerDelayRespond
  with_reducible refine okS ?_
  with_reducible repeat' first
    | assumption | intro _ | refine State.inUnit_keeps C ?_ ?_ | refine State.pdrRespond_keeps C ?_

theorem State.pdrFollow_keeps (C : Closed P) {s : State} {p : Nat} (h0 : P s) : P (State.pdrFollow s p) := by
  unfold State.pdrFollow
  with_reducible repeat' first
    | assumption | refine State.pdrPut_keeps C ?_ | refine C.setH _ _ _ ?_ | refine iteS ?_ ?_

theorem execPdelayFollowUpSend_keeps (C : Closed P) {p : Fin 72} {s : State} (h0 : P s) :
    OkP P (execPdelayFollowUpSend p s) := by
  unfold execPdelayFollowUpSend
  with_reducible refine okS ?_
  with_reducible repeat' first
    | assumption | intro _ | refine State.inUnit_keeps C ?_ ?_ | refine State.pdrFollow_keeps C ?_

theorem State.obsExch_keeps (C : Closed P) {s : State} {o : Nat} {bad : Bool} {ofs mpd : Int} {t2 : Int} (h0 : P s) :
    P (State.obsExch s o bad ofs mpd t2) := by
  unfold State.obsExch
  with_reducible repeat' first
    | assumption
    | (fail_if_no_progress (extract_lets +onlyGivenNames x); refine cutS (P := P) (x := x) ?_ (fun hx => ?_);
       (on_goal 1 => (unfold x; try clear x)); (on_goal 2 => clear_value x))
    | refine State.count_keeps C ?_ | refine State.setObs_keeps C ?_ | refine iteS ?_ ?_

theorem State.obsWhole_keeps (C : Closed P) {s : State} {o : Nat} {x : ObsSync} (h0 : P s) :
    P (State.obsWhole s o x) := by
  unfold State.obsWhole
  with_reducible repeat' first
    | assumption | refine State.obsExch_keeps C ?_ | refine iteS ?_ ?_ | split

theorem State.obsE2E_keeps (C : Closed P) {s : State} {o : Nat} {req : ObsReq} {t4 : Int} (h0 : P s) :
    P (State.obsE2E s o req t4) := by
  unfold State.obsE2E
  with_reducible repeat' first
    | assumption | refine State.obsExch_keeps C ?_ | (fail_if_no_progress (extract_lets +onlyGivenNames x)) | split

theorem State.obsPdDone_keeps (C : Closed P) {s : State} {o : Nat} {x : ObsPd} (h0 : P s) :
    P (State.obsPdDone s o x) := by
  unfold State.obsPdDone
  with_reducible repeat' first
    | assumption | refine State.count_keeps C ?_ | refine State.setObs_keeps C ?_ | refine iteS ?_ ?_

theorem State.obsSeen_keeps (C : Closed P) {s : State} {o k : Nat} (h0 : P s) : P (State.obsSeen s o k) := by
  unfold State.obsSeen
  with_reducible repeat' first
    | assumption
    | (fail_if_no_progress (extract_lets +onlyGivenNames x); refine cutS (P := P) (x := x) ?_ (fun hx => ?_);
       (on_goal 1 => (unfold x; try clear x)); (on_goal 2 => clear_value x))
    | refine C.setH _ _ _ ?_ | refine State.sigRefresh_keeps C ?_ | refine C.wr _ _ _ ?_ | refine iteS ?_ ?_

theorem State.obsMsg_keeps (C : Closed P) {s : State} {o : Nat} {h : ObsHdr} {m : ObsMsg} (h0 : P s) :
    P (State.obsMsg s o h m) := by
  unfold State.obsMsg
  with_reducible repeat' first
    | assumption
    | (fail_if_no_progress (extract_lets +onlyGivenNames x); refine cutS (P := P) (x := x) ?_ (fun hx => ?_);
       (on_goal 1 => (unfold x; try clear x)); (on_goal 2 => clear_value x))
    | refine State.obsE2E_keeps C ?_ | refine State.obsPdDone_keeps C ?_ | refine State.obsSeen_keeps C ?_
    | refine State.obsWhole_keeps C ?_ | refine C.setH _ _ _ ?_ | refine State.setObs_keeps C ?_
    | refine State.sigRefresh_keeps C ?_ | refine C.wr _ _ _ ?_ | refine iteS ?_ ?_
    | (fail_if_no_progress (extract_lets +onlyGivenNames x)) | split

theorem execObserverMessage_keeps (C : Closed P) {o : Fin 4} {h : ObsHdr} {m : ObsMsg} {s : State} (h0 : P s) :
    OkP P (execObserverMessage o h m s) := by
  unfold execObserverMessage
  with_reducible refine okS ?_
  with_reducible repeat' first
    | assumption | intro _ | refine State.inUnit_keeps C ?_ ?_ | refine State.obsMsg_keeps C ?_
    | refine State.when_keeps C ?_ ?_

theorem State.obsStale_keeps (C : Closed P) {s : State} {o : Nat} (h0 : P s) : P (State.obsStale s o) := by
  unfold State.obsStale
  with_reducible repeat' first
    | assumption
    | (fail_if_no_progress (extract_lets +onlyGivenNames x); refine cutS (P := P) (x := x) ?_ (fun hx => ?_);
       (on_goal 1 => (unfold x; try clear x)); (on_goal 2 => clear_value x))
    | refine State.passAge_keeps C ?_ | refine State.raise_keeps C ?_ | refine C.setH _ _ _ ?_
    | refine State.sigRefresh_keeps C ?_ | refine C.wr _ _ _ ?_ | split

theorem execObserverStale_keeps (C : Closed P) {o : Fin 4} {s : State} (h0 : P s) : OkP P (execObserverStale o s) := by
  unfold execObserverStale
  with_reducible refine okS ?_
  with_reducible repeat' first
    | assumption | intro _ | refine State.inUnit_keeps C ?_ ?_ | refine State.obsStale_keeps C ?_
    | refine State.when_keeps C ?_ ?_

theorem State.obsClear_keeps (C : Closed P) {s : State} {o : Nat} (h0 : P s) : P (State.obsClear s o) := by
  unfold State.obsClear
  with_reducible repeat' first
    | assumption | refine C.setH _ _ _ ?_ | refine State.setObs_keeps C ?_

theorem State.obsCfg_keeps (C : Closed P) {s : State} {o w : Nat} (h0 : P s) : P (State.obsCfg s o w) := by
  unfold State.obsCfg
  with_reducible repeat' first
    | assumption
    | (fail_if_no_progress (extract_lets +onlyGivenNames x); refine cutS (P := P) (x := x) ?_ (fun hx => ?_);
       (on_goal 1 => (unfold x; try clear x)); (on_goal 2 => clear_value x))
    | refine State.obsClear_keeps C ?_ | refine State.sigRefresh_keeps C ?_ | refine State.stampRefused_keeps C ?_
    | refine C.wr _ _ _ ?_ | refine iteS ?_ ?_

theorem State.obsWrite_keeps (C : Closed P) {s : State} {o : Nat} {w : ObsWrite}
    (h0 : P s) : P (State.obsWrite s o w) := by
  cases w with
  | cfg w => exact State.obsCfg_keeps C h0
  | parent v => exact State.sigRefresh_keeps C (State.obsClear_keeps C (C.wr _ _ _ h0))

theorem execObserverCfgWrite_keeps (C : Closed P) {r : Req} {o : Fin 4} {w : ObsWrite} {s : State} (h0 : P s) :
    OkP P (execObserverCfgWrite r o w s) := by
  unfold execObserverCfgWrite
  with_reducible refine okS ?_
  with_reducible repeat' first
    | assumption | intro _ | refine State.obsWrite_keeps C ?_ | refine State.writeTo_keeps C ?_ ?_

theorem State.obsPost_keeps (C : Closed P) {s : State} {o : Nat} (h0 : P s) : P (State.obsPost s o) := by
  unfold State.obsPost
  with_reducible repeat' first
    | assumption | intro _
    | (fail_if_no_progress (extract_lets +onlyGivenNames x); refine cutS (P := P) (x := x) ?_ (fun hx => ?_);
       (on_goal 1 => (unfold x; try clear x)); (on_goal 2 => clear_value x))
    | refine State.measPost_keeps C ?_ | refine State.setObs_keeps C ?_ | refine State.wrS_keeps C ?_
    | refine foldS ?_ ?_ | refine iteS ?_ ?_ | (fail_if_no_progress (extract_lets +onlyGivenNames x)) | split

theorem State.fieldSet_keeps (C : Closed P) {s : State} {r : Req} {f : Fld} {i new : Nat} (h0 : P s) :
    P (State.fieldSet s r f i new) := by
  unfold State.fieldSet
  with_reducible repeat' first
    | assumption | intro _ | refine State.fieldAfter_keeps C ?_ ?_ | refine State.fieldRefuse_keeps C ?_
    | refine State.shadowWrite_keeps C ?_ ?_ | refine C.wr _ _ _ ?_ | refine iteS ?_ ?_

theorem State.fieldWrite_keeps (C : Closed P) {r : Req} {g : Reg} {v : Nat} {s : State} {f : Fld} (h0 : P s) :
    P (State.fieldWrite r g v s f) := by
  unfold State.fieldWrite
  with_reducible repeat' first
    | assumption | refine State.fieldAfter_keeps C ?_ ?_ | refine State.fieldSet_keeps C ?_ | refine C.wr _ _ _ ?_
    | refine iteS ?_ ?_ | split

theorem State.plainBut_keeps (C : Closed P) {s : State} {r : Req} {a : Nat} {g : Reg} {v : Nat} {skip : List Fld}
    (h0 : P s) :
    P (State.plainBut s r a g v skip) := by
  unfold State.plainBut
  with_reducible repeat' first
    | assumption | intro _ | refine State.fieldWrite_keeps C ?_ | refine State.sealAttempt_keeps C ?_
    | refine foldS ?_ ?_ | refine iteS ?_ ?_

theorem State.plain_keeps (C : Closed P) {s : State} {r : Req} {a : Nat} {g : Reg} {v : Nat} (h0 : P s) :
    P (State.plain s r a g v) := by
  unfold State.plain
  with_reducible repeat' first
    | assumption | refine State.plainBut_keeps C ?_

theorem State.markWrite_keeps (C : Closed P) {s : State} {k w : Nat} (h0 : P s) : P (State.markWrite s k w) := by
  unfold State.markWrite
  with_reducible repeat' first
    | assumption | refine C.wr _ _ _ ?_ | refine iteS ?_ ?_

theorem State.pendWrite_keeps (C : Closed P) {s : State} {k w : Nat} (h0 : P s) : P (State.pendWrite s k w) := by
  unfold State.pendWrite
  with_reducible repeat' first
    | assumption | refine C.wr _ _ _ ?_

theorem State.commitCtl_keeps (C : Closed P) {s : State} {op gen : Nat} (h0 : P s) : P (State.commitCtl s op gen) := by
  unfold State.commitCtl
  with_reducible repeat' first
    | assumption | refine State.doCancel_keeps C ?_ | refine State.doCommit_keeps C ?_
    | refine State.doRollback_keeps C ?_ | refine iteS ?_ ?_

theorem State.glbWrite_keeps (C : Closed P) {s : State} {r : Req} {a : Nat} {g : Reg} {v : Nat} (h0 : P s) :
    P (State.glbWrite s r a g v) := by
  unfold State.glbWrite
  with_reducible repeat' first
    | assumption | refine State.clkEnWrite_keeps C ?_ | refine State.commitCtl_keeps C ?_
    | refine State.dmaCfgWrite_keeps C ?_ | refine State.fresetWrite_keeps C ?_ | refine State.markWrite_keeps C ?_
    | refine State.pendWrite_keeps C ?_ | refine State.plain_keeps C ?_ | refine State.resetWrite_keeps C ?_
    | refine State.targetWrite_keeps C ?_ | refine C.wr _ _ _ ?_ | refine iteS ?_ ?_ | split

theorem State.bellWrite_keeps (C : Closed P) {s : State} {r : Req} {a : Nat} {g : Reg} {v : Nat} (h0 : P s) :
    P (State.bellWrite s r a g v) := by
  unfold State.bellWrite
  with_reducible repeat' first
    | assumption | refine State.fwUpd_keeps C ?_ | refine State.leapWatch_keeps C ?_
    | refine State.measPost_keeps C ?_ | refine State.plain_keeps C ?_ | refine State.stepAuthWrite_keeps C ?_
    | refine State.stepReq_keeps C ?_ | refine C.wr _ _ _ ?_ | refine iteS ?_ ?_ | split

theorem State.laneCtlWrite_keeps (C : Closed P) {s : State} {r : Req} {a : Nat} {g : Reg} {v : Nat} (h0 : P s) :
    P (State.laneCtlWrite s r a g v) := by
  unfold State.laneCtlWrite
  with_reducible repeat' first
    | assumption | refine State.modeWrite_keeps C ?_ | refine State.plainBut_keeps C ?_
    | refine State.txIdleWrite_keeps C ?_ | refine iteS ?_ ?_

theorem State.laneWrite_keeps (C : Closed P) {s : State} {r : Req} {a : Nat} {g : Reg} {v : Nat} (h0 : P s) :
    P (State.laneWrite s r a g v) := by
  unfold State.laneWrite
  with_reducible repeat' first
    | assumption
    | (fail_if_no_progress (extract_lets +onlyGivenNames x); refine cutS (P := P) (x := x) ?_ (fun hx => ?_);
       (on_goal 1 => (unfold x; try clear x)); (on_goal 2 => clear_value x))
    | refine State.laneCtlWrite_keeps C ?_ | refine State.plain_keeps C ?_ | refine State.rawWrite_keeps C ?_
    | refine State.slip_keeps C ?_ | refine State.txeqWrite_keeps C ?_ | refine iteS ?_ ?_ | split

theorem State.quadWrite_keeps (C : Closed P) {s : State} {r : Req} {a : Nat} {g : Reg} {v : Nat} (h0 : P s) :
    P (State.quadWrite s r a g v) := by
  unfold State.quadWrite
  with_reducible repeat' first
    | assumption | refine State.plainBut_keeps C ?_ | refine State.quadPllWrite_keeps C ?_

theorem State.modWrite_keeps (C : Closed P) {s : State} {r : Req} {a : Nat} {g : Reg} {v : Nat} (h0 : P s) :
    P (State.modWrite s r a g v) := by
  unfold State.modWrite
  with_reducible repeat' first
    | assumption | refine State.modGo_keeps C ?_ | refine State.plain_keeps C ?_ | refine iteS ?_ ?_

theorem State.survStart_keeps (C : Closed P) {s : State} {kind p : Nat} (h0 : P s) : P (State.survStart s kind p) := by
  unfold State.survStart
  with_reducible repeat' first
    | assumption | refine State.asymStart_keeps C ?_ | refine State.checkGo_keeps C ?_
    | refine State.loopStart_keeps C ?_ | refine C.nextFree ?_ | refine State.survRefuse_keeps C ?_
    | refine iteS ?_ ?_

theorem State.survWrite_keeps (C : Closed P) {s : State} {r : Req} {a : Nat} {g : Reg} {v : Nat} (h0 : P s) :
    P (State.survWrite s r a g v) := by
  unfold State.survWrite
  with_reducible repeat' first
    | assumption
    | (fail_if_no_progress (extract_lets +onlyGivenNames x); refine cutS (P := P) (x := x) ?_ (fun hx => ?_);
       (on_goal 1 => (unfold x; try clear x)); (on_goal 2 => clear_value x))
    | refine State.plain_keeps C ?_ | refine State.survApplyGo_keeps C ?_ | refine State.survStart_keeps C ?_
    | refine State.survStop_keeps C ?_ | refine iteS ?_ ?_

theorem State.slotCfgWrite_keeps (C : Closed P) {s : State} {r : Req} {a : Nat} {g : Reg} {v : Nat} (h0 : P s) :
    P (State.slotCfgWrite s r a g v) := by
  unfold State.slotCfgWrite
  with_reducible repeat' first
    | assumption | refine State.lockoutWrite_keeps C ?_ | refine State.plainBut_keeps C ?_
    | refine State.slotWrite_keeps C ?_ | refine iteS ?_ ?_

theorem State.selWrite_keeps (C : Closed P) {s : State} {r : Req} {a : Nat} {g : Reg} {v : Nat} (h0 : P s) :
    P (State.selWrite s r a g v) := by
  unfold State.selWrite
  with_reducible repeat' first
    | assumption
    | (fail_if_no_progress (extract_lets +onlyGivenNames x); refine cutS (P := P) (x := x) ?_ (fun hx => ?_);
       (on_goal 1 => (unfold x; try clear x)); (on_goal 2 => clear_value x))
    | refine State.dacCodeWrite_keeps C ?_ | refine State.forceWrite_keeps C ?_ | refine State.plain_keeps C ?_
    | refine State.plainBut_keeps C ?_ | refine State.slotCfgWrite_keeps C ?_ | refine State.trigArm_keeps C ?_
    | refine State.trigDisarm_keeps C ?_ | refine iteS ?_ ?_ | split

theorem State.stampWrite_keeps (C : Closed P) {s : State} {r : Req} {a : Nat} {g : Reg} {v : Nat} (h0 : P s) :
    P (State.stampWrite s r a g v) := by
  unfold State.stampWrite
  with_reducible repeat' first
    | assumption | refine State.obsWrite_keeps C ?_ | refine State.plain_keeps C ?_
    | refine State.sportCfgWrite_keeps C ?_ | split

theorem State.portWrite_keeps (C : Closed P) {s : State} {r : Req} {a : Nat} {g : Reg} {v : Nat} (h0 : P s) :
    P (State.portWrite s r a g v) := by
  unfold State.portWrite
  with_reducible repeat' first
    | assumption
    | (fail_if_no_progress (extract_lets +onlyGivenNames x); refine cutS (P := P) (x := x) ?_ (fun hx => ?_);
       (on_goal 1 => (unfold x; try clear x)); (on_goal 2 => clear_value x))
    | refine State.plain_keeps C ?_ | refine State.plainBut_keeps C ?_ | refine State.portEnWrite_keeps C ?_
    | refine iteS ?_ ?_

theorem State.coreWrite_keeps (C : Closed P) {s : State} {r : Req} {a : Nat} {g : Reg} {v : Nat} (h0 : P s) :
    P (State.coreWrite s r a g v) := by
  unfold State.coreWrite
  with_reducible repeat' first
    | assumption | refine State.lkGo_keeps C ?_ | refine State.plain_keeps C ?_ | refine State.progWrite_keeps C ?_
    | refine State.tblWrite0_keeps C ?_ | refine State.tblWrite1_keeps C ?_ | refine iteS ?_ ?_ | split

theorem State.poolWrite_keeps (C : Closed P) {s : State} {r : Req} {a : Nat} {g : Reg} {v : Nat} (h0 : P s) :
    P (State.poolWrite s r a g v) := by
  unfold State.poolWrite
  with_reducible repeat' first
    | assumption | refine State.openWrite_keeps C ?_ | refine State.plain_keeps C ?_
    | refine State.plainBut_keeps C ?_ | refine State.spillEnWrite_keeps C ?_ | refine State.thaw_keeps C ?_ | split

theorem State.celWrite_keeps (C : Closed P) {s : State} {r : Req} {a : Nat} {g : Reg} {v : Nat} (h0 : P s) :
    P (State.celWrite s r a g v) := by
  unfold State.celWrite
  with_reducible repeat' first
    | assumption
    | (fail_if_no_progress (extract_lets +onlyGivenNames x); refine cutS (P := P) (x := x) ?_ (fun hx => ?_);
       (on_goal 1 => (unfold x; try clear x)); (on_goal 2 => clear_value x))
    | refine State.plain_keeps C ?_ | refine State.stackMark_keeps C ?_ | refine iteS ?_ ?_

theorem State.engCtlWrite_keeps (C : Closed P) {s : State} {r : Req} {a : Nat} {g : Reg} {v : Nat} (h0 : P s) :
    P (State.engCtlWrite s r a g v) := by
  unfold State.engCtlWrite
  with_reducible repeat' first
    | assumption | refine State.cinvStart_keeps C ?_ | refine State.engFreset_keeps C ?_
    | refine State.engMark_keeps C ?_ | refine State.plain_keeps C ?_ | refine State.stopAll_keeps C ?_
    | refine C.wr _ _ _ ?_ | refine iteS ?_ ?_

theorem State.tctlWrite_keeps (C : Closed P) {s : State} {r : Req} {a : Nat} {g : Reg} {v : Nat} (h0 : P s) :
    P (State.tctlWrite s r a g v) := by
  unfold State.tctlWrite
  with_reducible repeat' first
    | assumption | refine State.plain_keeps C ?_ | refine State.thrClear_keeps C ?_
    | refine State.thrResume_keeps C ?_ | refine State.thrStart_keeps C ?_ | refine State.thrStop_keeps C ?_
    | refine iteS ?_ ?_

theorem State.engWrite_keeps (C : Closed P) {s : State} {r : Req} {a : Nat} {g : Reg} {v : Nat} (h0 : P s) :
    P (State.engWrite s r a g v) := by
  unfold State.engWrite
  with_reducible repeat' first
    | assumption | refine State.engCtlWrite_keeps C ?_ | refine State.hatchReg_keeps C ?_
    | refine State.plain_keeps C ?_ | refine State.tctlWrite_keeps C ?_ | split

theorem State.talWrite_keeps (C : Closed P) {s : State} {r : Req} {a : Nat} {g : Reg} {v : Nat} (h0 : P s) :
    P (State.talWrite s r a g v) := by
  unfold State.talWrite
  with_reducible repeat' first
    | assumption | refine State.plain_keeps C ?_ | refine State.talCfg_keeps C ?_ | refine C.wr _ _ _ ?_
    | refine iteS ?_ ?_ | split

theorem State.criWrite_keeps (C : Closed P) {s : State} {r : Req} {a : Nat} {g : Reg} {v : Nat} (h0 : P s) :
    P (State.criWrite s r a g v) := by
  unfold State.criWrite
  with_reducible repeat' first
    | assumption
    | (fail_if_no_progress (extract_lets +onlyGivenNames x); refine cutS (P := P) (x := x) ?_ (fun hx => ?_);
       (on_goal 1 => (unfold x; try clear x)); (on_goal 2 => clear_value x))
    | refine State.plain_keeps C ?_ | refine State.plainBut_keeps C ?_ | refine State.rearm_keeps C ?_
    | refine iteS ?_ ?_ | split

theorem State.mboxWrite_keeps (C : Closed P) {s : State} {m k v : Nat} (h0 : P s) : P (State.mboxWrite s m k v) := by
  unfold State.mboxWrite
  with_reducible repeat' first
    | assumption | refine State.mboxPost_keeps C ?_ | refine C.wr _ _ _ ?_ | refine iteS ?_ ?_

theorem State.reeWrite_keeps (C : Closed P) {s : State} {r : Req} {a : Nat} {g : Reg} {v : Nat} (h0 : P s) :
    P (State.reeWrite s r a g v) := by
  unfold State.reeWrite
  with_reducible repeat' first
    | assumption
    | (fail_if_no_progress (extract_lets +onlyGivenNames x); refine cutS (P := P) (x := x) ?_ (fun hx => ?_);
       (on_goal 1 => (unfold x; try clear x)); (on_goal 2 => clear_value x))
    | refine State.confirmWrite_keeps C ?_ | refine State.mboxWrite_keeps C ?_ | refine State.plain_keeps C ?_
    | refine State.plainBut_keeps C ?_ | refine C.setH _ _ _ ?_ | refine State.wdtKick_keeps C ?_ | refine iteS ?_ ?_
    | (fail_if_no_progress (extract_lets +onlyGivenNames x)) | split

theorem State.hrtWrite_keeps (C : Closed P) {s : State} {r : Req} {a : Nat} {g : Reg} {v : Nat} (h0 : P s) :
    P (State.hrtWrite s r a g v) := by
  unfold State.hrtWrite
  with_reducible repeat' first
    | assumption | refine State.hclkRetry_keeps C ?_ | refine C.nextFree ?_ | refine State.plain_keeps C ?_
    | refine State.plainBut_keeps C ?_ | refine State.pwrReqWrite_keeps C ?_ | refine iteS ?_ ?_ | split

theorem State.twnWrite_keeps (C : Closed P) {s : State} {r : Req} {a : Nat} {g : Reg} {v : Nat} (h0 : P s) :
    P (State.twnWrite s r a g v) := by
  unfold State.twnWrite
  with_reducible repeat' first
    | assumption | refine State.plain_keeps C ?_ | refine State.swapGo_keeps C ?_ | refine iteS ?_ ?_ | split

theorem State.regWrite_keeps (C : Closed P) {s : State} {r : Req} {a : Nat} {g : Reg} {v : Nat} (h0 : P s) :
    P (State.regWrite s r a g v) := by
  unfold State.regWrite
  with_reducible repeat' first
    | assumption | refine State.bellWrite_keeps C ?_ | refine State.celWrite_keeps C ?_
    | refine State.coreWrite_keeps C ?_ | refine State.criWrite_keeps C ?_ | refine State.engWrite_keeps C ?_
    | refine State.glbWrite_keeps C ?_ | refine State.hrtWrite_keeps C ?_ | refine State.laneWrite_keeps C ?_
    | refine State.modWrite_keeps C ?_ | refine State.plain_keeps C ?_ | refine State.poolWrite_keeps C ?_
    | refine State.portWrite_keeps C ?_ | refine State.quadWrite_keeps C ?_ | refine State.reeWrite_keeps C ?_
    | refine State.relive_keeps C ?_ | refine State.selWrite_keeps C ?_ | refine State.stampWrite_keeps C ?_
    | refine State.survWrite_keeps C ?_ | refine State.talWrite_keeps C ?_ | refine State.twnWrite_keeps C ?_
    | refine iteS ?_ ?_ | split

theorem State.wordInto_keeps (C : Closed P) {s : State} {r : Req} {a w : Nat} {g : Reg} (h0 : P s) :
    P (State.wordInto s r a w g) := by
  unfold State.wordInto
  with_reducible repeat' first
    | assumption | refine State.holdClearAll_keeps C ?_ | refine State.holdPut_keeps C ?_
    | refine State.regWrite_keeps C ?_ | refine iteS ?_ ?_

theorem State.wghWord_keeps (C : Closed P) {s : State} {a w : Nat} (h0 : P s) : P (State.wghWord s a w) := by
  unfold State.wghWord
  with_reducible repeat' first
    | assumption | refine State.wghCommand_keeps C ?_ | refine C.wr _ _ _ ?_ | refine State.wrMem_keeps C ?_
    | refine iteS ?_ ?_ | (fail_if_no_progress (extract_lets +onlyGivenNames x)) | split

theorem State.wordWrite_keeps (C : Closed P) {s : State} {r : Req} {b : Blk} {a w : Nat} (h0 : P s) :
    P (State.wordWrite s r b a w) := by
  unfold State.wordWrite
  with_reducible repeat' first
    | assumption | intro _ | refine State.wghHostWrite_keeps C ?_ | refine State.wghWord_keeps C ?_
    | refine State.wordInto_keeps C ?_ | refine State.wrMem_keeps C ?_ | refine foldS ?_ ?_ | refine iteS ?_ ?_
    | split

theorem State.pwinWrite_keeps (C : Closed P) {s : State} {r : Req} {e o w : Nat} (h0 : P s) :
    P (State.pwinWrite s r e o w) := by
  unfold State.pwinWrite
  with_reducible repeat' first
    | assumption | refine State.busError_keeps C ?_ | refine State.ok_keeps C ?_ | refine State.wrMem_keeps C ?_
    | refine iteS ?_ ?_

theorem State.writeWord0_keeps (C : Closed P) {s : State} {r : Req} {a w : Nat} {narrow : Bool} (h0 : P s) :
    P (State.writeWord0 s r a w narrow) := by
  unfold State.writeWord0
  with_reducible repeat' first
    | assumption | (refine State.access_keeps C ?_ _ (by assumption)) | refine State.busError_keeps C ?_
    | refine State.ok_keeps C ?_ | refine State.pwinWrite_keeps C ?_ | refine State.wordWrite_keeps C ?_
    | refine iteS ?_ ?_ | (fail_if_no_progress refine C.resp_keeps ?_)
    | (fail_if_no_progress (extract_lets +onlyGivenNames x)) | split

theorem State.todMsg_keeps (C : Closed P) {s : State} {start baud done n : Nat} (h0 : P s) :
    P (State.todMsg s start baud done n).1 := by
  unfold State.todMsg
  with_reducible repeat' first
    | assumption | refine State.count_keeps C ?_ | refine State.raise_keeps C ?_ | split

theorem State.todTwo_keeps (C : Closed P) {s : State} {start baud : Nat} (h0 : P s) :
    P (State.todTwo s start baud) := by
  unfold State.todTwo
  with_reducible repeat' first
    | assumption | refine State.todMsg_keeps C ?_

theorem State.todSend_keeps (C : Closed P) {s : State} (h0 : P s) : P (State.todSend s) := by
  unfold State.todSend
  with_reducible repeat' first
    | assumption | refine State.passTo_keeps C ?_ | refine State.todTwo_keeps C ?_ | refine iteS ?_ ?_

theorem execTodSend_keeps (C : Closed P) {s : State} (h0 : P s) : OkP P (execTodSend s) := by
  unfold execTodSend
  with_reducible refine okS ?_
  with_reducible repeat' first
    | assumption | intro _ | refine State.inDom_keeps C ?_ ?_ | refine State.todSend_keeps C ?_

theorem State.capPush_keeps (C : Closed P) {s : State} {k : Nat} {r : CapRec} (h0 : P s) : P (State.capPush s k r) := by
  unfold State.capPush
  with_reducible repeat' first
    | assumption | refine State.count_keeps C ?_ | refine State.raise_keeps C ?_ | refine State.setCap_keeps C ?_
    | refine C.wr _ _ _ ?_ | refine iteS ?_ ?_

theorem State.ivBegin_keeps (C : Closed P) {s : State} {e side : Nat} {v : Int} {fl : Nat} (h0 : P s) :
    P (State.ivBegin s e side v fl) := by
  unfold State.ivBegin
  with_reducible repeat' first
    | assumption | refine C.setH _ _ _ ?_ | refine State.setHS_keeps C ?_

theorem State.ivEdge_keeps (C : Closed P) {s : State} {e side mode : Nat} {v : Int} {fl : Nat} (h0 : P s) :
    P (State.ivEdge s e side mode v fl) := by
  unfold State.ivEdge
  with_reducible repeat' first
    | assumption | refine State.capPush_keeps C ?_ | refine State.count_keeps C ?_ | refine State.ivBegin_keeps C ?_
    | refine C.setH _ _ _ ?_ | refine iteS ?_ ?_

theorem State.capEdge_keeps (C : Closed P) {s : State} {k : Nat} {rise : Bool} {ofs : Nat} (h0 : P s) :
    P (State.capEdge s k rise ofs) := by
  unfold State.capEdge
  with_reducible repeat' first
    | assumption
    | (fail_if_no_progress (extract_lets +onlyGivenNames x); refine cutS (P := P) (x := x) ?_ (fun hx => ?_);
       (on_goal 1 => (unfold x; try clear x)); (on_goal 2 => clear_value x))
    | refine State.capPush_keeps C ?_ | refine State.count_keeps C ?_ | refine State.ivEdge_keeps C ?_
    | refine C.setH _ _ _ ?_ | refine iteS ?_ ?_

theorem execCaptureEdge_keeps (C : Closed P) {k : Fin 8} {rise : Bool} {ofs : Fin 160} {s : State} (h0 : P s) :
    OkP P (execCaptureEdge k rise ofs s) := by
  unfold execCaptureEdge
  with_reducible refine okS ?_
  with_reducible repeat' first
    | assumption | intro _ | refine State.capEdge_keeps C ?_ | refine State.inDom_keeps C ?_ ?_

theorem State.ivTimeout_keeps (C : Closed P) {s : State} {e : Nat} (h0 : P s) : P (State.ivTimeout s e) := by
  unfold State.ivTimeout
  with_reducible repeat' first
    | assumption
    | (fail_if_no_progress (extract_lets +onlyGivenNames x); refine cutS (P := P) (x := x) ?_ (fun hx => ?_);
       (on_goal 1 => (unfold x; try clear x)); (on_goal 2 => clear_value x))
    | refine State.count_keeps C ?_ | refine State.passAge_keeps C ?_ | refine C.setH _ _ _ ?_ | refine iteS ?_ ?_

theorem execIntervalTimeout_keeps (C : Closed P) {j : Fin 4} {s : State} (h0 : P s) :
    OkP P (execIntervalTimeout j s) := by
  unfold execIntervalTimeout
  with_reducible refine okS ?_
  with_reducible repeat' first
    | assumption | intro _ | refine State.inDom_keeps C ?_ ?_ | refine State.ivTimeout_keeps C ?_

theorem State.capRead_keeps (C : Closed P) {s : State} {r : Req} {k : Nat} (h0 : P s) : P (State.capRead s r k).1 := by
  unfold State.capRead
  with_reducible repeat' first
    | assumption | refine State.setCap_keeps C ?_ | refine State.setLatch_keeps C ?_ | refine C.wr _ _ _ ?_ | split

theorem execCaptureFifoRead_keeps (C : Closed P) {r : Req} {k : Fin 8} {s : State} (h0 : P s) :
    OkP P (execCaptureFifoRead r k s) := by
  unfold execCaptureFifoRead
  with_reducible refine okS ?_
  with_reducible repeat' first
    | assumption | (refine State.access_keeps C ?_ _ (by assumption)) | refine State.capRead_keeps C ?_
    | refine State.ok_keeps C ?_ | split

theorem State.rcClear_keeps (C : Closed P) {s : State} {g : Reg} (h0 : P s) : P (State.rcClear s g) := by
  unfold State.rcClear
  with_reducible repeat' first
    | assumption | intro _ | refine C.wr _ _ _ ?_ | refine foldS ?_ ?_ | refine iteS ?_ ?_

theorem State.regRead_keeps (C : Closed P) {s : State} {r : Req} {g : Reg} {alone : Bool} (h0 : P s) :
    P (State.regRead s r g alone).1 := by
  unfold State.regRead
  with_reducible repeat' first
    | assumption
    | (fail_if_no_progress (extract_lets +onlyGivenNames x); refine cutS (P := P) (x := x) ?_ (fun hx => ?_);
       (on_goal 1 => (unfold x; try clear x)); (on_goal 2 => clear_value x))
    | refine C.nextFree ?_ | refine State.rcClear_keeps C ?_ | refine State.setLatch_keeps C ?_ | refine iteS ?_ ?_
    | (fail_if_no_progress (extract_lets +onlyGivenNames x)) | split

theorem State.regsRead_keeps (C : Closed P) {s : State} {r : Req} {a : Nat} (h0 : P s) : P (State.regsRead s r a) := by
  unfold State.regsRead
  with_reducible repeat' first
    | assumption | intro _ | refine State.ok_keeps C ?_ | refine State.regRead_keeps C ?_ | refine foldQ ?_ ?_

theorem State.ctrRead_keeps (C : Closed P) {s : State} {r : Req} {i : Nat} (h0 : P s) : P (State.ctrRead s r i) := by
  unfold State.ctrRead
  with_reducible repeat' first
    | assumption
    | (fail_if_no_progress (extract_lets +onlyGivenNames x); refine cutS (P := P) (x := x) ?_ (fun hx => ?_);
       (on_goal 1 => (unfold x; try clear x)); (on_goal 2 => clear_value x))
    | refine State.ok_keeps C ?_ | refine State.setLatch_keeps C ?_ | refine State.talBring_keeps C ?_

theorem State.rfifoWord_keeps (C : Closed P) {s : State} {r : Req} {k : Nat} (h0 : P s) :
    P (State.rfifoWord s r k) := by
  unfold State.rfifoWord
  with_reducible repeat' first
    | assumption | refine State.ok_keeps C ?_ | refine State.rfifoRead_keeps C ?_ | refine iteS ?_ ?_

theorem State.wordRead_keeps (C : Closed P) {s : State} {r : Req} {b : Blk} {a : Nat} (h0 : P s) :
    P (State.wordRead s r b a) := by
  unfold State.wordRead
  with_reducible repeat' first
    | assumption | refine State.capRead_keeps C ?_ | refine State.ctrRead_keeps C ?_ | refine State.ok_keeps C ?_
    | refine State.regsRead_keeps C ?_ | refine State.rfifoWord_keeps C ?_ | refine iteS ?_ ?_ | split

theorem State.pwinRead_keeps (C : Closed P) {s : State} {e o : Nat} (h0 : P s) : P (State.pwinRead s e o) := by
  unfold State.pwinRead
  with_reducible repeat' first
    | assumption | refine State.busError_keeps C ?_ | refine State.ok_keeps C ?_ | refine iteS ?_ ?_

theorem State.hearthRead_keeps (C : Closed P) {s : State} {a : Nat} (h0 : P s) :
    ∀ t, State.hearthRead s a = some t → P t := by
  intro t ht
  unfold State.hearthRead at ht
  repeat' split at ht
  all_goals first
    | contradiction
    | (obtain rfl := Option.some.inj ht
       repeat' first
         | with_reducible assumption
         | with_reducible refine State.ok_keeps C ?_
         | with_reducible refine State.regsRead_keeps C ?_)

theorem State.readWord_keeps (C : Closed P) {s : State} {r : Req} {a : Nat} {narrow : Bool} (h0 : P s) :
    P (State.readWord s r a narrow) := by
  unfold State.readWord
  refine iteS (State.busError_keeps C h0) ?_
  split
  · exact iteS (State.busError_keeps C h0) (State.ok_keeps C h0)
  · extract_lets u
    clear_value u
    split
    · next h _ _ _ _ he =>
      split at he
      · exact State.hearthRead_keeps C h0 _ he
      · cases he
    · next he => exact State.access_keeps C h0 _ he
    · exact State.pwinRead_keeps C h0
    · exact State.wordRead_keeps C h0

theorem execMultiwordLowRead_keeps (C : Closed P) {r : Req} {a : BitVec 32} {s : State} (h0 : P s) :
    OkP P (execMultiwordLowRead r a s) := by
  unfold execMultiwordLowRead
  with_reducible refine okS ?_
  with_reducible repeat' first
    | assumption | refine State.readWord_keeps C ?_

theorem execRcFieldRead_keeps (C : Closed P) {r : Req} {a : BitVec 32} {s : State} (h0 : P s) :
    OkP P (execRcFieldRead r a s) := by
  unfold execRcFieldRead
  with_reducible refine okS ?_
  with_reducible repeat' first
    | assumption | refine State.readWord_keeps C ?_

theorem State.snapSave_keeps (C : Closed P) {s : State} (h0 : P s) : P (State.snapSave s) := by
  unfold State.snapSave
  with_reducible repeat' first
    | assumption | refine C.setH _ _ _ ?_ | refine C.wr _ _ _ ?_ | refine iteS ?_ ?_

theorem State.snapSaved_keeps (C : Closed P) {s : State} (h0 : P s) : P (State.snapSaved s) := by
  unfold State.snapSaved
  with_reducible repeat' first
    | assumption
    | (fail_if_no_progress (extract_lets +onlyGivenNames x); refine cutS (P := P) (x := x) ?_ (fun hx => ?_);
       (on_goal 1 => (unfold x; try clear x)); (on_goal 2 => clear_value x))
    | refine State.setBytes_keeps C ?_ | refine C.wr _ _ _ ?_ | refine iteS ?_ ?_

theorem State.lkPut_keeps (C : Closed P) {s : State} {e : List Byte} (h0 : P s) : P (State.lkPut s e) := by
  unfold State.lkPut
  with_reducible repeat' first
    | assumption | refine State.setEntry_keeps C ?_

theorem State.snapRecords_keeps (C : Closed P) {s : State} {l : List Byte} {n : Nat} (h0 : P s) :
    P (State.snapRecords s l n) := by
  induction n generalizing s l with
  | zero => exact h0
  | succ n ih =>
    unfold State.snapRecords
    extract_lets a w rest
    split
    · exact foldS h0 (fun s k hs => State.lkPut_keeps C hs)
    · exact ih (State.writeWord0_keeps C h0)

theorem State.snapRestore_keeps (C : Closed P) {s : State} (h0 : P s) : P (State.snapRestore s) := by
  unfold State.snapRestore
  with_reducible repeat' first
    | assumption
    | (fail_if_no_progress (extract_lets +onlyGivenNames x); refine cutS (P := P) (x := x) ?_ (fun hx => ?_);
       (on_goal 1 => (unfold x; try clear x)); (on_goal 2 => clear_value x))
    | refine State.doCommit_keeps C ?_ | refine C.setH _ _ _ ?_ | refine State.snapRecords_keeps C ?_
    | refine C.wr _ _ _ ?_ | refine iteS ?_ ?_ | (fail_if_no_progress refine C.resp_keeps ?_)

theorem State.snapDone_keeps (C : Closed P) {s : State} (h0 : P s) : P (State.snapDone s) := by
  unfold State.snapDone
  with_reducible repeat' first
    | assumption
    | (fail_if_no_progress (extract_lets +onlyGivenNames x); refine cutS (P := P) (x := x) ?_ (fun hx => ?_);
       (on_goal 1 => (unfold x; try clear x)); (on_goal 2 => clear_value x))
    | refine C.setH _ _ _ ?_ | refine State.snapSaved_keeps C ?_ | refine C.wr _ _ _ ?_ | refine iteS ?_ ?_

theorem execSnapSave_keeps (C : Closed P) {r : Req} {s : State} (h0 : P s) : OkP P (execSnapSave r s) := by
  unfold execSnapSave
  with_reducible refine okS ?_
  with_reducible repeat' first
    | assumption | intro _ | refine State.snapSave_keeps C ?_ | refine State.when_keeps C ?_ ?_
    | refine State.writeTo_keeps C ?_ ?_

theorem execSnapRestore_keeps (C : Closed P) {r : Req} {s : State} (h0 : P s) : OkP P (execSnapRestore r s) := by
  unfold execSnapRestore
  with_reducible refine okS ?_
  with_reducible repeat' first
    | assumption | intro _ | refine State.snapRestore_keeps C ?_ | refine State.when_keeps C ?_ ?_
    | refine State.writeTo_keeps C ?_ ?_

theorem execSnapDone_keeps (C : Closed P) {s : State} (h0 : P s) : OkP P (execSnapDone s) := by
  unfold execSnapDone
  with_reducible refine okS ?_
  with_reducible repeat' first
    | assumption | intro _ | refine State.inUnit_keeps C ?_ ?_ | refine State.snapDone_keeps C ?_
    | refine State.when_keeps C ?_ ?_

theorem State.snapGo_keeps (C : Closed P) {s : State} {w : Nat} (h0 : P s) : P (State.snapGo s w) := by
  unfold State.snapGo
  with_reducible repeat' first
    | assumption
    | (fail_if_no_progress (extract_lets +onlyGivenNames x); refine cutS (P := P) (x := x) ?_ (fun hx => ?_);
       (on_goal 1 => (unfold x; try clear x)); (on_goal 2 => clear_value x))
    | refine State.snapRestore_keeps C ?_ | refine State.snapSave_keeps C ?_ | refine iteS ?_ ?_

theorem State.writeWord_keeps (C : Closed P) {s : State} {r : Req} {a w : Nat} {narrow : Bool} (h0 : P s) :
    P (State.writeWord s r a w narrow) := by
  unfold State.writeWord
  with_reducible repeat' first
    | assumption
    | (fail_if_no_progress (extract_lets +onlyGivenNames x); refine cutS (P := P) (x := x) ?_ (fun hx => ?_);
       (on_goal 1 => (unfold x; try clear x)); (on_goal 2 => clear_value x))
    | refine State.snapGo_keeps C ?_ | refine State.writeWord0_keeps C ?_ | refine iteS ?_ ?_

theorem execRegisterWrite_keeps (C : Closed P) {r : Req} {a v : BitVec 32} {narrow : Bool} {s : State} (h0 : P s) :
    OkP P (execRegisterWrite r a v narrow s) := by
  unfold execRegisterWrite
  with_reducible refine okS ?_
  with_reducible repeat' first
    | assumption | refine State.writeWord_keeps C ?_

theorem execMultiwordHighWrite_keeps (C : Closed P) {r : Req} {a v : BitVec 32} {s : State} (h0 : P s) :
    OkP P (execMultiwordHighWrite r a v s) := by
  unfold execMultiwordHighWrite
  with_reducible refine okS ?_
  with_reducible repeat' first
    | assumption | refine State.writeWord_keeps C ?_

theorem execShadowWrite_keeps (C : Closed P) {r : Req} {a v : BitVec 32} {s : State} (h0 : P s) :
    OkP P (execShadowWrite r a v s) := by
  unfold execShadowWrite
  with_reducible refine okS ?_
  with_reducible repeat' first
    | assumption | refine State.writeWord_keeps C ?_

theorem execCommitMarkWrite_keeps (C : Closed P) {r : Req} {k : Fin 8} {v : BitVec 32} {s : State} (h0 : P s) :
    OkP P (execCommitMarkWrite r k v s) := by
  unfold execCommitMarkWrite
  with_reducible refine okS ?_
  with_reducible repeat' first
    | assumption | intro _ | refine State.markWrite_keeps C ?_ | refine State.writeTo_keeps C ?_ ?_

theorem execCommitPendClear_keeps (C : Closed P) {r : Req} {k : Fin 8} {v : BitVec 32} {s : State} (h0 : P s) :
    OkP P (execCommitPendClear r k v s) := by
  unfold execCommitPendClear
  with_reducible refine okS ?_
  with_reducible repeat' first
    | assumption | intro _ | refine State.pendWrite_keeps C ?_ | refine State.writeTo_keeps C ?_ ?_

theorem execCommit_keeps (C : Closed P) {r : Req} {gen : BitVec 16} {s : State} (h0 : P s) :
    OkP P (execCommit r gen s) := by
  unfold execCommit
  with_reducible refine okS ?_
  with_reducible repeat' first
    | assumption | intro _ | refine State.doCommit_keeps C ?_ | refine State.writeTo_keeps C ?_ ?_

theorem execRollback_keeps (C : Closed P) {r : Req} {gen : BitVec 16} {s : State} (h0 : P s) :
    OkP P (execRollback r gen s) := by
  unfold execRollback
  with_reducible refine okS ?_
  with_reducible repeat' first
    | assumption | intro _ | refine State.doRollback_keeps C ?_ | refine State.writeTo_keeps C ?_ ?_

theorem execCancel_keeps (C : Closed P) {r : Req} {s : State} (h0 : P s) : OkP P (execCancel r s) := by
  unfold execCancel
  with_reducible refine okS ?_
  with_reducible repeat' first
    | assumption | intro _ | refine State.doCancel_keeps C ?_ | refine State.writeTo_keeps C ?_ ?_

end Sys2Proof.Machine
end

