-- ==== Sys2Proof/Laws/KeepsSys.lean ====
section
/-! SUPPORT. Trees, commits, boot, pins, engine memory, the servo cycle and vectors: what each definition hands on keeps every property the primitive updates keep. -/

namespace Sys2Proof.Machine

variable {P : State → Prop}

theorem State.treSend_keeps (C : Closed P) {s : State} {cls : Nat} {body : List Byte} {late : Bool} (h0 : P s) :
    P (State.treSend s cls body late) := by
  unfold State.treSend
  with_reducible repeat' first
    | assumption | refine State.inbandSend_keeps C ?_ | refine iteS ?_ ?_

theorem State.treRelay_keeps (C : Closed P) {s : State} {ps : List Nat} {h : TreHdr} {cls : Nat} {body : List Byte}
    (h0 : P s) :
    P (State.treRelay s ps h cls body) := by
  unfold State.treRelay
  with_reducible repeat' first
    | assumption | intro _ | refine State.inbandPut_keeps C ?_ | refine foldS ?_ ?_

theorem State.treDrop_keeps (C : Closed P) {s : State} (h0 : P s) : P (State.treDrop s) := by
  unfold State.treDrop
  with_reducible repeat' first
    | assumption | refine State.count_keeps C ?_

theorem State.treTake_keeps (C : Closed P) {s : State} {p : Nat} {h : TreHdr} {k : State → State}
    (h0 : P s) (h1 : ∀ s, P s → P (k s)) :
    P (State.treTake s p h k) := by
  unfold State.treTake
  with_reducible repeat' first
    | assumption | intro _
    | (fail_if_no_progress (extract_lets +onlyGivenNames x); refine cutS (P := P) (x := x) ?_ (fun hx => ?_);
       (on_goal 1 => (unfold x; try clear x)); (on_goal 2 => clear_value x))
    | refine State.drop1_keeps C ?_ | refine State.inUnit_keeps C ?_ ?_ | refine State.setHq_keeps C ?_
    | refine State.treDrop_keeps C ?_ | refine h1 _ ?_ | refine iteS ?_ ?_ | split

theorem State.treFromAbove_keeps (C : Closed P) {s : State} {p : Nat} {h : TreHdr} {cls : Nat} {body : List Byte}
    {act : State → State} (h0 : P s) (h1 : ∀ s, P s → P (act s)) :
    P (State.treFromAbove s p h cls body act) := by
  unfold State.treFromAbove
  with_reducible repeat' first
    | assumption | intro _
    | (fail_if_no_progress (extract_lets +onlyGivenNames x); refine cutS (P := P) (x := x) ?_ (fun hx => ?_);
       (on_goal 1 => (unfold x; try clear x)); (on_goal 2 => clear_value x))
    | refine State.treDrop_keeps C ?_ | refine State.treRelay_keeps C ?_ | refine State.treTake_keeps C ?_ ?_
    | refine State.when_keeps C ?_ ?_ | refine iteS ?_ ?_

theorem State.treFromBelow_keeps (C : Closed P) {s : State} {p : Nat} {h : TreHdr} {cls : Nat} {body : List Byte}
    (h0 : P s) :
    P (State.treFromBelow s p h cls body) := by
  unfold State.treFromBelow
  with_reducible repeat' first
    | assumption | intro _ | refine State.treDrop_keeps C ?_ | refine State.treRelay_keeps C ?_
    | refine State.treTake_keeps C ?_ ?_ | refine iteS ?_ ?_

theorem State.treHello_keeps (C : Closed P) {s : State} (h0 : P s) : P (State.treHello s) := by
  unfold State.treHello
  with_reducible repeat' first
    | assumption | intro _
    | (fail_if_no_progress (extract_lets +onlyGivenNames x); refine cutS (P := P) (x := x) ?_ (fun hx => ?_);
       (on_goal 1 => (unfold x; try clear x)); (on_goal 2 => clear_value x))
    | refine State.inbandPut_keeps C ?_ | refine State.passAge_keeps C ?_ | refine C.setH _ _ _ ?_
    | refine foldS ?_ ?_

theorem execTreeHelloSend_keeps (C : Closed P) {s : State} (h0 : P s) : OkP P (execTreeHelloSend s) := by
  unfold execTreeHelloSend
  with_reducible refine okS ?_
  with_reducible repeat' first
    | assumption | intro _ | refine State.inUnit_keeps C ?_ ?_ | refine State.treHello_keeps C ?_ | refine iteS ?_ ?_

theorem execTreeHelloReceive_keeps (C : Closed P) {p : Fin 72} {h : TreHdr} {_node : BitVec 16}
    {_role depth : BitVec 8} {s : State} (h0 : P s) :
    OkP P (execTreeHelloReceive p h _node _role depth s) := by
  unfold execTreeHelloReceive
  with_reducible refine okS ?_
  with_reducible repeat' first
    | assumption | intro _ | refine C.setH _ _ _ ?_ | refine State.treDrop_keeps C ?_
    | refine State.treTake_keeps C ?_ ?_ | refine C.wr _ _ _ ?_ | refine iteS ?_ ?_

theorem State.treReg_keeps (C : Closed P) {s : State} {a : Nat} {wr : Bool} {n : Nat} {ws : List (BitVec 32)}
    (h0 : P s) :
    P (State.treReg s a wr n ws) := by
  unfold State.treReg
  with_reducible repeat' first
    | assumption | intro _ | refine State.readWord_keeps C ?_ | refine State.writeWord_keeps C ?_ | refine foldS ?_ ?_
    | refine iteS ?_ ?_ | (fail_if_no_progress refine C.resp_keeps ?_)

theorem execTreeRegReceive_keeps (C : Closed P) {p : Fin 72} {h : TreHdr} {a : BitVec 32} {wr : Bool}
    {count : BitVec 8} {words : List (BitVec 32)} {s : State} (h0 : P s) :
    OkP P (execTreeRegReceive p h a wr count words s) := by
  unfold execTreeRegReceive
  with_reducible refine okS ?_
  with_reducible repeat' first
    | assumption | intro _ | refine State.treFromAbove_keeps C ?_ ?_ | refine State.treReg_keeps C ?_
    | refine State.when_keeps C ?_ ?_

theorem State.treReport_keeps (C : Closed P) {s : State} {tgen code split : Nat} (h0 : P s) :
    P (State.treReport s tgen code split) := by
  unfold State.treReport
  with_reducible repeat' first
    | assumption | refine State.treSend_keeps C ?_

theorem State.treCommit_keeps (C : Closed P) {s : State} {t tgen : Nat} {rollback : Bool} (h0 : P s) :
    P (State.treCommit s t tgen rollback) := by
  unfold State.treCommit
  with_reducible repeat' first
    | assumption
    | (fail_if_no_progress (extract_lets +onlyGivenNames x); refine cutS (P := P) (x := x) ?_ (fun hx => ?_);
       (on_goal 1 => (unfold x; try clear x)); (on_goal 2 => clear_value x))
    | refine State.doCommit_keeps C ?_ | refine State.doRollback_keeps C ?_ | refine State.raise_keeps C ?_
    | refine C.setH _ _ _ ?_ | refine State.treReport_keeps C ?_ | refine C.wr _ _ _ ?_ | refine iteS ?_ ?_

theorem execTreeCommitReceive_keeps (C : Closed P) {p : Fin 72} {h : TreHdr} {t : BitVec 96} {tgen : BitVec 16}
    {rollback : Bool} {s : State} (h0 : P s) :
    OkP P (execTreeCommitReceive p h t tgen rollback s) := by
  unfold execTreeCommitReceive
  with_reducible refine okS ?_
  with_reducible repeat' first
    | assumption | intro _ | refine State.treCommit_keeps C ?_ | refine State.treFromAbove_keeps C ?_ ?_

theorem State.treSecond_keeps (C : Closed P) {s : State} {code split : Nat} (h0 : P s) :
    P (State.treSecond s code split) := by
  unfold State.treSecond
  with_reducible repeat' first
    | assumption | refine C.setH _ _ _ ?_ | refine State.treReport_keeps C ?_ | refine iteS ?_ ?_

theorem execTreeReportReceive_keeps (C : Closed P) {p : Fin 72} {h : TreHdr} {tgen gen : BitVec 16}
    {code split : BitVec 8} {s : State} (h0 : P s) :
    OkP P (execTreeReportReceive p h tgen gen code split s) := by
  unfold execTreeReportReceive
  with_reducible refine okS ?_
  with_reducible repeat' first
    | assumption | refine State.treFromBelow_keeps C ?_

theorem State.treRecords_keeps (C : Closed P) {s : State} {n m : Nat} (h0 : P s) : P (State.treRecords s n m) := by
  unfold State.treRecords
  with_reducible repeat' first
    | assumption | intro _ | refine State.treSend_keeps C ?_ | refine foldS ?_ ?_ | refine iteS ?_ ?_ | split

theorem execTreeRecordReceive_keeps (C : Closed P) {p : Fin 72} {h : TreHdr} {r : TreRec} {s : State} (h0 : P s) :
    OkP P (execTreeRecordReceive p h r s) := by
  unfold execTreeRecordReceive
  with_reducible refine okS ?_
  with_reducible repeat' first
    | assumption | intro _ | refine State.treFromAbove_keeps C ?_ ?_ | refine State.treFromBelow_keeps C ?_
    | refine State.treRecords_keeps C ?_ | split

theorem State.treAck_keeps (C : Closed P) {s : State} {id upto code : Nat} (h0 : P s) :
    P (State.treAck s id upto code) := by
  unfold State.treAck
  with_reducible repeat' first
    | assumption | refine State.treSend_keeps C ?_

theorem State.treBlock_keeps (C : Closed P) {s : State} {id ofs : Nat} {data : List Byte} (h0 : P s) :
    P (State.treBlock s id ofs data) := by
  unfold State.treBlock
  with_reducible repeat' first
    | assumption
    | (fail_if_no_progress (extract_lets +onlyGivenNames x); refine cutS (P := P) (x := x) ?_ (fun hx => ?_);
       (on_goal 1 => (unfold x; try clear x)); (on_goal 2 => clear_value x))
    | refine C.setH _ _ _ ?_ | refine State.treAck_keeps C ?_ | refine State.updActivate_keeps C ?_
    | refine State.updWrite_keeps C ?_ | refine iteS ?_ ?_

theorem State.treImage_keeps (C : Closed P) {s : State} {id total ofs : Nat} {data : List Byte} (h0 : P s) :
    P (State.treImage s id total ofs data) := by
  unfold State.treImage
  with_reducible repeat' first
    | assumption | refine C.setH _ _ _ ?_ | refine State.treAck_keeps C ?_ | refine State.treBlock_keeps C ?_
    | refine State.updBegin_keeps C ?_ | refine iteS ?_ ?_

theorem execTreeImageReceive_keeps (C : Closed P) {p : Fin 72} {h : TreHdr} {id : BitVec 64} {total ofs : BitVec 32}
    {data : List Byte} {s : State} (h0 : P s) :
    OkP P (execTreeImageReceive p h id total ofs data s) := by
  unfold execTreeImageReceive
  with_reducible refine okS ?_
  with_reducible repeat' first
    | assumption | intro _ | refine State.treFromAbove_keeps C ?_ ?_ | refine State.treImage_keeps C ?_

theorem execTreeImageAckReceive_keeps (C : Closed P) {p : Fin 72} {h : TreHdr} {id : BitVec 64} {upto : BitVec 32}
    {code : BitVec 8} {s : State} (h0 : P s) :
    OkP P (execTreeImageAckReceive p h id upto code s) := by
  unfold execTreeImageAckReceive
  with_reducible refine okS ?_
  with_reducible repeat' first
    | assumption | refine State.treFromBelow_keeps C ?_

theorem State.modeEnter_keeps (C : Closed P) {s : State} {new : Nat} (h0 : P s) : P (State.modeEnter s new) := by
  unfold State.modeEnter
  with_reducible repeat' first
    | assumption | refine State.holdLeave_keeps C ?_ | refine State.holdSelect_keeps C ?_
    | refine State.setNco_keeps C ?_ | refine C.wr _ _ _ ?_ | refine iteS ?_ ?_

theorem State.quietReselect_keeps (C : Closed P) {s : State} (h0 : P s) : P (State.quietReselect s) := by
  unfold State.quietReselect
  with_reducible repeat' first
    | assumption | intro _ | refine State.reselect_keeps C ?_ | refine C.setH _ _ _ ?_ | refine C.wr _ _ _ ?_
    | refine foldS ?_ ?_

theorem State.goDormant_keeps (C : Closed P) {s : State} (h0 : P s) : P (State.goDormant s) := by
  unfold State.goDormant
  with_reducible repeat' first
    | assumption | refine State.dormant_keeps C ?_ | refine State.lcDo_keeps C ?_ | refine iteS ?_ ?_

theorem State.modeGo_keeps (C : Closed P) {s : State} {t : Nat} (h0 : P s) : P (State.modeGo s t) := by
  unfold State.modeGo
  with_reducible repeat' first
    | assumption
    | (fail_if_no_progress (extract_lets +onlyGivenNames x); refine cutS (P := P) (x := x) ?_ (fun hx => ?_);
       (on_goal 1 => (unfold x; try clear x)); (on_goal 2 => clear_value x))
    | refine State.goDormant_keeps C ?_ | refine State.modeEnter_keeps C ?_ | refine State.modeRecheck_keeps C ?_
    | refine State.quietReselect_keeps C ?_ | refine State.relinquish_keeps C ?_ | refine State.selStatus_keeps C ?_
    | refine State.servoSrc_keeps C ?_ | refine C.setH _ _ _ ?_ | refine State.shutService_keeps C ?_
    | refine C.wr _ _ _ ?_ | refine C.wrA _ _ _ ?_ | refine iteS ?_ ?_

theorem State.modeApply_keeps (C : Closed P) {s : State} (h0 : P s) : P (State.modeApply s) := by
  unfold State.modeApply
  with_reducible repeat' first
    | assumption | refine State.modeGo_keeps C ?_ | refine iteS ?_ ?_

theorem State.roleCopied_keeps (C : Closed P) {s : State} {copied : Nat} (h0 : P s) :
    P (State.roleCopied s copied) := by
  unfold State.roleCopied
  with_reducible repeat' first
    | assumption
    | (fail_if_no_progress (extract_lets +onlyGivenNames x); refine cutS (P := P) (x := x) ?_ (fun hx => ?_);
       (on_goal 1 => (unfold x; try clear x)); (on_goal 2 => clear_value x))
    | refine State.modeGo_keeps C ?_ | refine C.wr _ _ _ ?_ | refine C.wrA _ _ _ ?_ | refine iteS ?_ ?_

theorem State.roleActive_keeps (C : Closed P) {s : State} (h0 : P s) : P (State.roleActive s) := by
  unfold State.roleActive
  with_reducible repeat' first
    | assumption
    | (fail_if_no_progress (extract_lets +onlyGivenNames x); refine cutS (P := P) (x := x) ?_ (fun hx => ?_);
       (on_goal 1 => (unfold x; try clear x)); (on_goal 2 => clear_value x))
    | refine State.reselect_keeps C ?_ | refine State.roleCopied_keeps C ?_ | refine C.setH _ _ _ ?_
    | refine State.trkSet_keeps C ?_ | refine State.wrS_keeps C ?_ | refine iteS ?_ ?_

theorem State.roleApply_keeps (C : Closed P) {s : State} {n : Nat} (h0 : P s) : P (State.roleApply s n) := by
  unfold State.roleApply
  with_reducible repeat' first
    | assumption
    | (fail_if_no_progress (extract_lets +onlyGivenNames x); refine cutS (P := P) (x := x) ?_ (fun hx => ?_);
       (on_goal 1 => (unfold x; try clear x)); (on_goal 2 => clear_value x))
    | refine State.bump_keeps C ?_ | refine State.modeRecheck_keeps C ?_ | refine State.noActiveWatch_keeps C ?_
    | refine State.raise_keeps C ?_ | refine State.roleActive_keeps C ?_ | refine State.selStatus_keeps C ?_
    | refine State.trkSet_keeps C ?_ | refine State.trkSync_keeps C ?_ | refine State.unlock_keeps C ?_
    | refine C.wr _ _ _ ?_ | refine iteS ?_ ?_

theorem State.takeShadows_keeps (C : Closed P) {s : State} {u : Nat} (h0 : P s) : P (State.takeShadows s u) := by
  unfold State.takeShadows
  with_reducible repeat' first
    | assumption | intro _
    | (fail_if_no_progress (extract_lets +onlyGivenNames x); refine cutS (P := P) (x := x) ?_ (fun hx => ?_);
       (on_goal 1 => (unfold x; try clear x)); (on_goal 2 => clear_value x))
    | refine C.wrA _ _ _ ?_ | refine foldS ?_ ?_ | (fail_if_no_progress refine C.appliedF _ ?_)

theorem State.shadowsBack_keeps (C : Closed P) {s : State} {u : Nat} (h0 : P s) : P (State.shadowsBack s u) := by
  unfold State.shadowsBack
  with_reducible repeat' first
    | assumption | intro _ | refine C.wr _ _ _ ?_ | refine foldS ?_ ?_ | (fail_if_no_progress refine C.regsF _ ?_)

theorem State.unitEffect_keeps (C : Closed P) {s : State} {u t : Nat} (h0 : P s) : P (State.unitEffect s u t) := by
  unfold State.unitEffect
  with_reducible repeat' first
    | assumption | refine State.gateCommit_keeps C ?_ | refine State.gthCommit_keeps C ?_
    | refine State.modeApply_keeps C ?_ | refine State.outApplied_keeps C ?_ | refine State.reselect_keeps C ?_
    | refine State.roleApply_keeps C ?_ | refine State.servoSrc_keeps C ?_ | refine C.wr _ _ _ ?_ | refine iteS ?_ ?_

theorem State.unitTry_keeps (C : Closed P) {s : State} {u t : Nat} {late : Bool} (h0 : P s) :
    P (State.unitTry s u t late) := by
  unfold State.unitTry
  with_reducible repeat' first
    | assumption
    | (fail_if_no_progress (extract_lets +onlyGivenNames x); refine cutS (P := P) (x := x) ?_ (fun hx => ?_);
       (on_goal 1 => (unfold x; try clear x)); (on_goal 2 => clear_value x))
    | refine State.raise_keeps C ?_ | refine State.setBitF_keeps C ?_ | refine C.setH _ _ _ ?_
    | refine State.stepApply_keeps C ?_ | refine State.takeShadows_keeps C ?_ | refine State.unitEffect_keeps C ?_
    | refine iteS ?_ ?_

theorem State.commitDone_keeps (C : Closed P) {s : State} (h0 : P s) : P (State.commitDone s) := by
  unfold State.commitDone
  with_reducible repeat' first
    | assumption | intro _
    | (fail_if_no_progress (extract_lets +onlyGivenNames x); refine cutS (P := P) (x := x) ?_ (fun hx => ?_);
       (on_goal 1 => (unfold x; try clear x)); (on_goal 2 => clear_value x))
    | refine State.raise_keeps C ?_ | refine C.setH _ _ _ ?_ | refine State.snapRestore_keeps C ?_
    | refine State.treSecond_keeps C ?_ | refine State.when_keeps C ?_ ?_ | refine C.wr _ _ _ ?_ | refine iteS ?_ ?_

theorem State.passCommit_keeps (C : Closed P) {s : State} {t : Nat} (h0 : P s) : P (State.passCommit s t) := by
  unfold State.passCommit
  with_reducible repeat' first
    | assumption | refine State.pass_keeps C ?_ | refine State.passTo_keeps C ?_ | refine iteS ?_ ?_

theorem State.commitApply_keeps (C : Closed P) {s : State} (h0 : P s) : P (State.commitApply s) := by
  unfold State.commitApply
  with_reducible repeat' first
    | assumption | intro _
    | (fail_if_no_progress (extract_lets +onlyGivenNames x); refine cutS (P := P) (x := x) ?_ (fun hx => ?_);
       (on_goal 1 => (unfold x; try clear x)); (on_goal 2 => clear_value x))
    | refine State.commitDone_keeps C ?_ | refine State.gateSync_keeps C ?_ | refine State.passCommit_keeps C ?_
    | refine State.shadowsBack_keeps C ?_ | refine State.trkSync_keeps C ?_ | refine State.unitTry_keeps C ?_
    | refine C.wr _ _ _ ?_ | refine foldS ?_ ?_ | refine iteS ?_ ?_ | (fail_if_no_progress refine C.prev_keeps ?_)

theorem execCommitApply_keeps (C : Closed P) {s : State} (h0 : P s) : OkP P (execCommitApply s) := by
  unfold execCommitApply
  with_reducible refine okS ?_
  with_reducible repeat' first
    | assumption | intro _ | refine State.commitApply_keeps C ?_ | refine State.inDom_keeps C ?_ ?_

theorem State.commitGrace_keeps (C : Closed P) {s : State} (h0 : P s) : P (State.commitGrace s) := by
  unfold State.commitGrace
  with_reducible repeat' first
    | assumption
    | (fail_if_no_progress (extract_lets +onlyGivenNames x); refine cutS (P := P) (x := x) ?_ (fun hx => ?_);
       (on_goal 1 => (unfold x; try clear x)); (on_goal 2 => clear_value x))
    | refine State.passCommit_keeps C ?_ | refine State.raise_keeps C ?_ | refine State.treSecond_keeps C ?_
    | refine C.wr _ _ _ ?_ | refine iteS ?_ ?_

theorem execCommitGraceExpiry_keeps (C : Closed P) {s : State} (h0 : P s) : OkP P (execCommitGraceExpiry s) := by
  unfold execCommitGraceExpiry
  with_reducible refine okS ?_
  with_reducible repeat' first
    | assumption | intro _ | refine State.commitGrace_keeps C ?_ | refine State.inDom_keeps C ?_ ?_

theorem State.unitLate_keeps (C : Closed P) {s : State} {u : Nat} (h0 : P s) : P (State.unitLate s u) := by
  unfold State.unitLate
  with_reducible repeat' first
    | assumption | refine State.commitDone_keeps C ?_ | refine State.unitTry_keeps C ?_ | refine iteS ?_ ?_

theorem execCommitLateApply_keeps (C : Closed P) {u : Fin 222} {s : State} (h0 : P s) :
    OkP P (execCommitLateApply u s) := by
  unfold execCommitLateApply
  with_reducible refine okS ?_
  with_reducible repeat' first
    | assumption | intro _ | refine State.inDom_keeps C ?_ ?_ | refine State.unitLate_keeps C ?_

theorem State.domLate_keeps (C : Closed P) {s : State} {d : Dom} (h0 : P s) : P (State.domLate s d) := by
  unfold State.domLate
  with_reducible repeat' first
    | assumption | intro _ | refine State.unitLate_keeps C ?_ | refine foldS ?_ ?_

theorem State.fnLate_keeps (C : Closed P) {s : State} {k : Nat} (h0 : P s) : P (State.fnLate s k) := by
  unfold State.fnLate
  with_reducible repeat' first
    | assumption | intro _ | refine State.unitLate_keeps C ?_ | refine foldS ?_ ?_

theorem execInternalCommitRequest_keeps (C : Closed P) {mode : Option (Fin 7)} {role : Option (Fin 3)}
    {src : Option Bool} {s : State} (h0 : P s) :
    OkP P (execInternalCommitRequest mode role src s) := by
  unfold execInternalCommitRequest
  with_reducible refine okS ?_
  with_reducible repeat' first
    | assumption | intro _ | refine State.inDom_keeps C ?_ ?_ | refine State.intRequest_keeps C ?_

theorem State.intIssue_keeps (C : Closed P) {s : State} (h0 : P s) : P (State.intIssue s) := by
  unfold State.intIssue
  with_reducible repeat' first
    | assumption | intro _
    | (fail_if_no_progress (extract_lets +onlyGivenNames x); refine cutS (P := P) (x := x) ?_ (fun hx => ?_);
       (on_goal 1 => (unfold x; try clear x)); (on_goal 2 => clear_value x))
    | refine State.arm_keeps C ?_ | refine C.setH _ _ _ ?_ | refine C.wr _ _ _ ?_ | refine foldS ?_ ?_
    | refine iteS ?_ ?_

theorem execInternalCommitIssue_keeps (C : Closed P) {s : State} (h0 : P s) : OkP P (execInternalCommitIssue s) := by
  unfold execInternalCommitIssue
  with_reducible refine okS ?_
  with_reducible repeat' first
    | assumption | intro _ | refine State.inDom_keeps C ?_ ?_ | refine State.intIssue_keeps C ?_

theorem State.bootFail_keeps (C : Closed P) {s : State} {b code : Nat} {l : List Byte} (h0 : P s) :
    P (State.bootFail s b code l) := by
  unfold State.bootFail
  with_reducible repeat' first
    | assumption
    | (fail_if_no_progress (extract_lets +onlyGivenNames x); refine cutS (P := P) (x := x) ?_ (fun hx => ?_);
       (on_goal 1 => (unfold x; try clear x)); (on_goal 2 => clear_value x))
    | refine State.bankPut_keeps C ?_ | refine State.bankRevert_keeps C ?_ | refine State.imgRefused_keeps C ?_
    | refine State.recovery_keeps C ?_ | refine iteS ?_ ?_

theorem State.bootInto_keeps (C : Closed P) {s : State} {b : Nat} {l : List Byte} (h0 : P s) :
    P (State.bootInto s b l) := by
  unfold State.bootInto
  with_reducible repeat' first
    | assumption
    | (fail_if_no_progress (extract_lets +onlyGivenNames x); refine cutS (P := P) (x := x) ?_ (fun hx => ?_);
       (on_goal 1 => (unfold x; try clear x)); (on_goal 2 => clear_value x))
    | refine State.mboxServe_keeps C ?_ | refine State.modeStartUp_keeps C ?_ | refine State.reeveRun_keeps C ?_
    | refine C.setH _ _ _ ?_ | refine C.wr _ _ _ ?_ | refine iteS ?_ ?_

theorem State.recoveryBoot_keeps (C : Closed P) {s : State} (h0 : P s) : P (State.recoveryBoot s) := by
  unfold State.recoveryBoot
  with_reducible repeat' first
    | assumption | refine C.setH _ _ _ ?_ | refine C.wr _ _ _ ?_

theorem State.bootFrom_keeps (C : Closed P) {s : State} {l : List Nat} (h0 : P s) : P (State.bootFrom s l) := by
  induction l generalizing s with
  | nil => exact State.recoveryBoot_keeps C h0
  | cons b t ih =>
    unfold State.bootFrom
    split
    · exact State.bootInto_keeps C h0
    · exact ih (State.bootFail_keeps C h0)

theorem State.boot_keeps (C : Closed P) {s : State} {v : Lbist} {alm : Nat} (h0 : P s) : P (State.boot s v alm) := by
  unfold State.boot
  with_reducible repeat' first
    | assumption | intro _
    | (fail_if_no_progress (extract_lets +onlyGivenNames x); refine cutS (P := P) (x := x) ?_ (fun hx => ?_);
       (on_goal 1 => (unfold x; try clear x)); (on_goal 2 => clear_value x))
    | refine State.almFail_keeps C ?_ | refine State.applyMarks_keeps C ?_ | refine State.bootFrom_keeps C ?_
    | refine State.count_keeps C ?_ | refine State.lbStore_keeps C ?_ | refine State.lcDo_keeps C ?_
    | refine State.pass_keeps C ?_ | refine C.setH _ _ _ ?_ | refine State.wipe_keeps C ?_ | refine C.wr _ _ _ ?_
    | refine foldS ?_ ?_ | refine iteS ?_ ?_

theorem execBoot_keeps (C : Closed P) {v : Lbist} {alm : BitVec 17} {s : State} (h0 : P s) :
    OkP P (execBoot v alm s) := by
  unfold execBoot
  with_reducible refine okS ?_
  with_reducible repeat' first
    | assumption | intro _ | refine State.boot_keeps C ?_ | refine State.inDom_keeps C ?_ ?_
    | refine State.when_keeps C ?_ ?_

theorem State.fwLoadFor_keeps (C : Closed P) {s : State} {d : Dom} {first : Bool} (h0 : P s) :
    P (State.fwLoadFor s d first) := by
  unfold State.fwLoadFor
  with_reducible repeat' first
    | assumption | refine State.fwLoad_keeps C ?_ | refine iteS ?_ ?_ | split

theorem State.domPowered_keeps (C : Closed P) {s : State} {d : Dom} (h0 : P s) : P (State.domPowered s d) := by
  unfold State.domPowered
  with_reducible repeat' first
    | assumption | refine State.ctxReport_keeps C ?_ | refine State.domLate_keeps C ?_ | refine State.domUp_keeps C ?_
    | refine State.fwLoadFor_keeps C ?_ | refine State.pass_keeps C ?_ | refine State.setDom_keeps C ?_
    | refine iteS ?_ ?_

theorem execDomainPowered_keeps (C : Closed P) {d : Fin 10} {s : State} (h0 : P s) : OkP P (execDomainPowered d s) := by
  unfold execDomainPowered
  with_reducible refine okS ?_
  with_reducible repeat' first
    | assumption | refine State.domPowered_keeps C ?_ | split

theorem State.fnDone_keeps (C : Closed P) {s : State} {k : Nat} (h0 : P s) : P (State.fnDone s k) := by
  unfold State.fnDone
  with_reducible repeat' first
    | assumption
    | (fail_if_no_progress (extract_lets +onlyGivenNames x); refine cutS (P := P) (x := x) ?_ (fun hx => ?_);
       (on_goal 1 => (unfold x; try clear x)); (on_goal 2 => clear_value x))
    | refine State.fnLate_keeps C ?_ | refine State.fnRestart_keeps C ?_ | refine State.passAge_keeps C ?_
    | refine C.setH _ _ _ ?_ | refine iteS ?_ ?_

theorem execFunctionResetDone_keeps (C : Closed P) {k : Fin 117} {s : State} (h0 : P s) :
    OkP P (execFunctionResetDone k s) := by
  unfold execFunctionResetDone
  with_reducible refine okS ?_
  with_reducible repeat' first
    | assumption | refine State.fnDone_keeps C ?_

theorem execI2cWrite_keeps (C : Closed P) {a v : BitVec 32} {pecBad : Bool} {s : State} (h0 : P s) :
    OkP P (execI2cWrite a v pecBad s) := by
  unfold execI2cWrite
  with_reducible refine okS ?_
  with_reducible repeat' first
    | assumption | intro _ | refine State.inDom_keeps C ?_ ?_ | refine State.writeWord_keeps C ?_ | refine iteS ?_ ?_
    | (fail_if_no_progress refine C.resp_keeps ?_)

theorem execI2cRead_keeps (C : Closed P) {a : BitVec 32} {s : State} (h0 : P s) : OkP P (execI2cRead a s) := by
  unfold execI2cRead
  with_reducible refine okS ?_
  with_reducible repeat' first
    | assumption | intro _ | refine State.inDom_keeps C ?_ ?_ | refine State.readWord_keeps C ?_

theorem execI2cBusTimeout_keeps (C : Closed P) {discarded : Bool} {s : State} (h0 : P s) :
    OkP P (execI2cBusTimeout discarded s) := by
  unfold execI2cBusTimeout
  with_reducible refine okS ?_
  with_reducible repeat' first
    | assumption | intro _ | refine State.inDom_keeps C ?_ ?_ | refine iteS ?_ ?_
    | (fail_if_no_progress refine C.resp_keeps ?_)

theorem State.tapLoad_keeps (C : Closed P) {s : State} {ir v : Nat} (h0 : P s) : P (State.tapLoad s ir v) := by
  unfold State.tapLoad
  with_reducible repeat' first
    | assumption | refine C.setH _ _ _ ?_ | (fail_if_no_progress refine C.resp_keeps ?_)

theorem State.tapHold_keeps (C : Closed P) {s : State} {ir : Nat} (h0 : P s) : P (State.tapHold s ir) := by
  unfold State.tapHold
  with_reducible repeat' first
    | assumption | intro _ | refine State.count_keeps C ?_ | refine State.tapLoad_keeps C ?_
    | refine State.when_keeps C ?_ ?_ | refine iteS ?_ ?_

theorem execBypass_keeps (C : Closed P) {s : State} (h0 : P s) : OkP P (execBypass s) := by
  unfold execBypass
  with_reducible refine okS ?_
  with_reducible repeat' first
    | assumption | refine State.tapLoad_keeps C ?_

theorem execIdcode_keeps (C : Closed P) {s : State} (h0 : P s) : OkP P (execIdcode s) := by
  unfold execIdcode
  with_reducible refine okS ?_
  with_reducible repeat' first
    | assumption | refine State.tapLoad_keeps C ?_

theorem execSamplePreload_keeps (C : Closed P) {v : BitVec 1024} {s : State} (h0 : P s) :
    OkP P (execSamplePreload v s) := by
  unfold execSamplePreload
  with_reducible refine okS ?_
  with_reducible repeat' first
    | assumption | refine C.nextFree ?_ | refine C.setH _ _ _ ?_ | refine State.tapLoad_keeps C ?_

theorem execExtest_keeps (C : Closed P) {s : State} (h0 : P s) : OkP P (execExtest s) := by
  unfold execExtest
  with_reducible refine okS ?_
  with_reducible repeat' first
    | assumption | refine State.tapHold_keeps C ?_

theorem execExtestPulse_keeps (C : Closed P) {s : State} (h0 : P s) : OkP P (execExtestPulse s) := by
  unfold execExtestPulse
  with_reducible refine okS ?_
  with_reducible repeat' first
    | assumption | refine State.tapHold_keeps C ?_

theorem execExtestTrain_keeps (C : Closed P) {s : State} (h0 : P s) : OkP P (execExtestTrain s) := by
  unfold execExtestTrain
  with_reducible refine okS ?_
  with_reducible repeat' first
    | assumption | refine State.tapHold_keeps C ?_

theorem execClamp_keeps (C : Closed P) {s : State} (h0 : P s) : OkP P (execClamp s) := by
  unfold execClamp
  with_reducible refine okS ?_
  with_reducible repeat' first
    | assumption | refine State.tapHold_keeps C ?_

theorem execHighz_keeps (C : Closed P) {s : State} (h0 : P s) : OkP P (execHighz s) := by
  unfold execHighz
  with_reducible refine okS ?_
  with_reducible repeat' first
    | assumption | refine State.tapHold_keeps C ?_

theorem execInternalScan_keeps (C : Closed P) {s : State} (h0 : P s) : OkP P (execInternalScan s) := by
  unfold execInternalScan
  with_reducible refine okS ?_
  with_reducible repeat' first
    | assumption | refine State.count_keeps C ?_ | refine State.ledger_keeps C ?_ | refine C.nextFree ?_
    | refine State.tapLoad_keeps C ?_ | refine iteS ?_ ?_

theorem State.lineGet_keeps (C : Closed P) {s : State} {e line : Nat} {ue : Bool} (h0 : P s) :
    ∀ t, State.lineGet s e line ue = some t → P t.2 := by
  intro t ht
  unfold State.lineGet at ht
  split at ht
  · obtain rfl := Option.some.inj ht; exact h0
  · split at ht
    · cases ht
    · obtain rfl := Option.some.inj ht; exact State.cacheFill_keeps C h0

theorem State.devGet_keeps (C : Closed P) {s : State} {c : Core} {a n : Nat} (h0 : P s) :
    ∀ t, State.devGet s c a n = some t → P t.2 := by
  intro t ht
  unfold State.devGet at ht
  extract_lets r s1 s2 at ht
  have h1 : P s1 := State.readWord_keeps C h0
  have h2 : P s2 := State.readWord_keeps C h1
  repeat' split at ht
  all_goals first
    | contradiction
    | (obtain rfl := Option.some.inj ht
       first | exact C.resp_keeps h1 | exact C.resp_keeps h2)

theorem State.devPut_keeps (C : Closed P) {s : State} {c : Core} {a n v : Nat} (h0 : P s) :
    ∀ t, State.devPut s c a n v = some t → P t := by
  intro t ht
  unfold State.devPut at ht
  extract_lets r s1 s2 at ht
  have h1 : P s1 := State.writeWord_keeps C h0
  have h2 : P s2 := State.writeWord_keeps C h1
  repeat' split at ht
  all_goals first
    | contradiction
    | (obtain rfl := Option.some.inj ht
       first | exact C.resp_keeps h1 | exact C.resp_keeps h2)

theorem State.memGet_keeps (C : Closed P) {s : State} {c : Core} {a n : Nat} {ue : Bool} (h0 : P s) :
    ∀ t, State.memGet s c a n ue = .ok t → P t.2 := by
  intro t ht
  unfold State.memGet at ht
  repeat' split at ht
  all_goals first
    | contradiction
    | (obtain rfl := Except.ok.inj ht
       first
         | exact h0
         | exact (State.lineGet_keeps C h0 _ ‹State.lineGet _ _ _ _ = some _› :)
         | exact (State.devGet_keeps C h0 _ ‹State.devGet _ _ _ _ = some _› :))

theorem State.lineStore_keeps (C : Closed P) {s : State} {e o n v : Nat} (h0 : P s) :
    P (State.lineStore s e o n v) := by
  unfold State.lineStore
  with_reducible repeat' first
    | assumption | refine State.cacheSet_keeps C ?_ | split

theorem State.memPut_keeps (C : Closed P) {s : State} {c : Core} {a n v : Nat} (h0 : P s) :
    ∀ t, State.memPut s c a n v = .ok t → P t := by
  intro t ht
  unfold State.memPut at ht
  repeat' split at ht
  all_goals first
    | contradiction
    | (obtain rfl := Except.ok.inj ht
       first | exact State.wrMem_keeps C h0 | exact State.wrMem_keeps C (State.lineStore_keeps C h0)
             | exact State.devPut_keeps C h0 _ (by assumption))

theorem State.loadTo_keeps (C : Closed P) {s : State} {c : Core} {a n : Nat} {ue : Bool} {f : State → Nat → State}
    (h0 : P s) (h1 : ∀ s n, P s → P (f s n)) :
    P (State.loadTo s c a n ue f).2 := by
  unfold State.loadTo
  with_reducible repeat' first
    | assumption | (refine State.memGet_keeps C ?_ _ (by assumption)) | refine h1 _ _ ?_ | split

theorem State.storeAt_keeps (C : Closed P) {s : State} {c : Core} {a n v : Nat} (h0 : P s) :
    P (State.storeAt s c a n v).2 := by
  unfold State.storeAt
  with_reducible repeat' first
    | assumption | (refine State.memPut_keeps C ?_ _ (by assumption)) | split

theorem State.tzLd_keeps (C : Closed P) {x : Issue} {k : Nat} {ue : Bool} {i : IIns} {s : State} (h0 : P s) :
    P (State.tzLd x k ue i s) := by
  unfold State.tzLd
  with_reducible repeat' first
    | assumption | intro _ | refine State.issue_keeps C ?_ ?_ | refine State.loadTo_keeps C ?_ ?_
    | refine State.setG_keeps C ?_

theorem State.tzSt_keeps (C : Closed P) {x : Issue} {k : Nat} {i : IIns} {s : State} (h0 : P s) :
    P (State.tzSt x k i s) := by
  unfold State.tzSt
  with_reducible repeat' first
    | assumption | intro _ | refine State.issue_keeps C ?_ ?_ | refine State.storeAt_keeps C ?_

theorem execLdB_keeps (C : Closed P) {x : Issue} {ue : Bool} {i : IIns} {s : State} (h0 : P s) :
    OkP P (execLdB x ue i s) := by
  unfold execLdB
  with_reducible refine okS ?_
  with_reducible repeat' first
    | assumption | refine State.tzLd_keeps C ?_

theorem execLdH_keeps (C : Closed P) {x : Issue} {ue : Bool} {i : IIns} {s : State} (h0 : P s) :
    OkP P (execLdH x ue i s) := by
  unfold execLdH
  with_reducible refine okS ?_
  with_reducible repeat' first
    | assumption | refine State.tzLd_keeps C ?_

theorem execLdW_keeps (C : Closed P) {x : Issue} {ue : Bool} {i : IIns} {s : State} (h0 : P s) :
    OkP P (execLdW x ue i s) := by
  unfold execLdW
  with_reducible refine okS ?_
  with_reducible repeat' first
    | assumption | refine State.tzLd_keeps C ?_

theorem execLdD_keeps (C : Closed P) {x : Issue} {ue : Bool} {i : IIns} {s : State} (h0 : P s) :
    OkP P (execLdD x ue i s) := by
  unfold execLdD
  with_reducible refine okS ?_
  with_reducible repeat' first
    | assumption | refine State.tzLd_keeps C ?_

theorem execStB_keeps (C : Closed P) {x : Issue} {i : IIns} {s : State} (h0 : P s) : OkP P (execStB x i s) := by
  unfold execStB
  with_reducible refine okS ?_
  with_reducible repeat' first
    | assumption | refine State.tzSt_keeps C ?_

theorem execStH_keeps (C : Closed P) {x : Issue} {i : IIns} {s : State} (h0 : P s) : OkP P (execStH x i s) := by
  unfold execStH
  with_reducible refine okS ?_
  with_reducible repeat' first
    | assumption | refine State.tzSt_keeps C ?_

theorem execStW_keeps (C : Closed P) {x : Issue} {i : IIns} {s : State} (h0 : P s) : OkP P (execStW x i s) := by
  unfold execStW
  with_reducible refine okS ?_
  with_reducible repeat' first
    | assumption | refine State.tzSt_keeps C ?_

theorem execStD_keeps (C : Closed P) {x : Issue} {i : IIns} {s : State} (h0 : P s) : OkP P (execStD x i s) := by
  unfold execStD
  with_reducible refine okS ?_
  with_reducible repeat' first
    | assumption | refine State.tzSt_keeps C ?_

theorem State.atomicAt_keeps (C : Closed P) {s : State} {c : Core} {a d : Nat} {ue : Bool} {f : Nat → Option Nat}
    (h0 : P s) :
    P (State.atomicAt s c a d ue f).2 := by
  unfold State.atomicAt
  split
  · exact h0
  · extract_lets p ecc old s1
    split
    · exact h0
    · have h1 : P s1 := by
        unfold s1
        clear_value p
        cases p <;> first | exact iteS (State.cacheDrop_keeps C h0) h0 | exact h0
      clear_value s1 old
      split
      · next s' he =>
        split at he
        · exact State.setG_keeps C (State.memPut_keeps C h1 _ he)
        · cases he; exact State.setG_keeps C h1
      · exact h1

theorem State.tzAmo_keeps (C : Closed P) {x : Issue} {f : Nat} {ue : Bool} {i : RIns} {s : State} (h0 : P s) :
    P (State.tzAmo x f ue i s) := by
  unfold State.tzAmo
  with_reducible repeat' first
    | assumption | intro _ | refine State.atomicAt_keeps C ?_ | refine State.issue_keeps C ?_ ?_

theorem execAmoAdd_keeps (C : Closed P) {x : Issue} {ue : Bool} {i : RIns} {s : State} (h0 : P s) :
    OkP P (execAmoAdd x ue i s) := by
  unfold execAmoAdd
  with_reducible refine okS ?_
  with_reducible repeat' first
    | assumption | refine State.tzAmo_keeps C ?_

theorem execAmoAnd_keeps (C : Closed P) {x : Issue} {ue : Bool} {i : RIns} {s : State} (h0 : P s) :
    OkP P (execAmoAnd x ue i s) := by
  unfold execAmoAnd
  with_reducible refine okS ?_
  with_reducible repeat' first
    | assumption | refine State.tzAmo_keeps C ?_

theorem execAmoOr_keeps (C : Closed P) {x : Issue} {ue : Bool} {i : RIns} {s : State} (h0 : P s) :
    OkP P (execAmoOr x ue i s) := by
  unfold execAmoOr
  with_reducible refine okS ?_
  with_reducible repeat' first
    | assumption | refine State.tzAmo_keeps C ?_

theorem execAmoXor_keeps (C : Closed P) {x : Issue} {ue : Bool} {i : RIns} {s : State} (h0 : P s) :
    OkP P (execAmoXor x ue i s) := by
  unfold execAmoXor
  with_reducible refine okS ?_
  with_reducible repeat' first
    | assumption | refine State.tzAmo_keeps C ?_

theorem execAmoSwap_keeps (C : Closed P) {x : Issue} {ue : Bool} {i : RIns} {s : State} (h0 : P s) :
    OkP P (execAmoSwap x ue i s) := by
  unfold execAmoSwap
  with_reducible refine okS ?_
  with_reducible repeat' first
    | assumption | refine State.tzAmo_keeps C ?_

theorem execAmoMin_keeps (C : Closed P) {x : Issue} {ue : Bool} {i : RIns} {s : State} (h0 : P s) :
    OkP P (execAmoMin x ue i s) := by
  unfold execAmoMin
  with_reducible refine okS ?_
  with_reducible repeat' first
    | assumption | refine State.tzAmo_keeps C ?_

theorem execAmoMax_keeps (C : Closed P) {x : Issue} {ue : Bool} {i : RIns} {s : State} (h0 : P s) :
    OkP P (execAmoMax x ue i s) := by
  unfold execAmoMax
  with_reducible refine okS ?_
  with_reducible repeat' first
    | assumption | refine State.tzAmo_keeps C ?_

theorem execAmoMinu_keeps (C : Closed P) {x : Issue} {ue : Bool} {i : RIns} {s : State} (h0 : P s) :
    OkP P (execAmoMinu x ue i s) := by
  unfold execAmoMinu
  with_reducible refine okS ?_
  with_reducible repeat' first
    | assumption | refine State.tzAmo_keeps C ?_

theorem execAmoMaxu_keeps (C : Closed P) {x : Issue} {ue : Bool} {i : RIns} {s : State} (h0 : P s) :
    OkP P (execAmoMaxu x ue i s) := by
  unfold execAmoMaxu
  with_reducible refine okS ?_
  with_reducible repeat' first
    | assumption | refine State.tzAmo_keeps C ?_

theorem execCas_keeps (C : Closed P) {x : Issue} {ue : Bool} {i : RIns} {s : State} (h0 : P s) :
    OkP P (execCas x ue i s) := by
  unfold execCas
  with_reducible refine okS ?_
  with_reducible repeat' first
    | assumption | intro _ | refine State.atomicAt_keeps C ?_ | refine State.issue_keeps C ?_ ?_

theorem execVld_keeps (C : Closed P) {x : Issue} {ue : Bool} {i : IIns} {s : State} (h0 : P s) :
    OkP P (execVld x ue i s) := by
  unfold execVld
  with_reducible refine okS ?_
  with_reducible repeat' first
    | assumption | intro _ | refine State.issue_keeps C ?_ ?_ | refine State.loadTo_keeps C ?_ ?_
    | refine State.setV_keeps C ?_

theorem execVst_keeps (C : Closed P) {x : Issue} {i : IIns} {s : State} (h0 : P s) : OkP P (execVst x i s) := by
  unfold execVst
  with_reducible refine okS ?_
  with_reducible repeat' first
    | assumption | intro _ | refine State.issue_keeps C ?_ ?_ | refine State.storeAt_keeps C ?_

theorem State.deadline_keeps (C : Closed P) {s : State} (h0 : P s) : P (State.deadline s) := by
  unfold State.deadline
  with_reducible repeat' first
    | assumption
    | (fail_if_no_progress (extract_lets +onlyGivenNames x); refine cutS (P := P) (x := x) ?_ (fun hx => ?_);
       (on_goal 1 => (unfold x; try clear x)); (on_goal 2 => clear_value x))
    | refine State.cyclePublish_keeps C ?_ | refine State.dacCount_keeps C ?_ | refine State.passTo_keeps C ?_
    | refine State.servoDeadline_keeps C ?_ | refine C.setH _ _ _ ?_ | refine State.stateSend_keeps C ?_
    | refine State.trkDeadline_keeps C ?_ | refine iteS ?_ ?_

theorem execServoDeadline_keeps (C : Closed P) {s : State} (h0 : P s) : OkP P (execServoDeadline s) := by
  unfold execServoDeadline
  with_reducible refine okS ?_
  with_reducible repeat' first
    | assumption | intro _ | refine State.deadline_keeps C ?_ | refine State.inDom_keeps C ?_ ?_

theorem State.cycleNext_keeps (C : Closed P) {s : State} (h0 : P s) : P (State.cycleNext s) := by
  unfold State.cycleNext
  with_reducible repeat' first
    | assumption
    | (fail_if_no_progress (extract_lets +onlyGivenNames x); refine cutS (P := P) (x := x) ?_ (fun hx => ?_);
       (on_goal 1 => (unfold x; try clear x)); (on_goal 2 => clear_value x))
    | refine State.cyclePublish_keeps C ?_ | refine C.setH _ _ _ ?_ | refine iteS ?_ ?_

theorem State.boundary_keeps (C : Closed P) {s : State} {phase : Nat} (h0 : P s) : P (State.boundary s phase) := by
  unfold State.boundary
  with_reducible repeat' first
    | assumption | intro _
    | (fail_if_no_progress (extract_lets +onlyGivenNames x); refine cutS (P := P) (x := x) ?_ (fun hx => ?_);
       (on_goal 1 => (unfold x; try clear x)); (on_goal 2 => clear_value x))
    | refine State.asymBoundary_keeps C ?_ | refine State.cycleClose_keeps C ?_ | refine State.cycleNext_keeps C ?_
    | refine State.deadline_keeps C ?_ | refine State.delayBoundary_keeps C ?_ | refine State.holdPublish_keeps C ?_
    | refine State.leapCopy_keeps C ?_ | refine State.lockEval_keeps C ?_ | refine State.obsPost_keeps C ?_
    | refine State.passTo_keeps C ?_ | refine State.phasePost_keeps C ?_ | refine State.selStatus_keeps C ?_
    | refine State.trkBoundary_keeps C ?_ | refine State.wordRefresh_keeps C ?_ | refine foldS ?_ ?_
    | refine iteS ?_ ?_

theorem execServoCycleBoundary_keeps (C : Closed P) {phase : BitVec 64} {s : State} (h0 : P s) :
    OkP P (execServoCycleBoundary phase s) := by
  unfold execServoCycleBoundary
  with_reducible refine okS ?_
  with_reducible repeat' first
    | assumption | intro _ | refine State.boundary_keeps C ?_ | refine State.inDom_keeps C ?_ ?_

theorem State.tzVop_keeps (C : Closed P) {x : Issue} {f : Nat} {i : VIns} {s : State} (h0 : P s) :
    P (State.tzVop x f i s) := by
  unfold State.tzVop
  with_reducible repeat' first
    | assumption | intro _ | refine State.issue_keeps C ?_ ?_ | refine State.setV_keeps C ?_

theorem execVadd_keeps (C : Closed P) {x : Issue} {i : VIns} {s : State} (h0 : P s) : OkP P (execVadd x i s) := by
  unfold execVadd
  with_reducible refine okS ?_
  with_reducible repeat' first
    | assumption | refine State.tzVop_keeps C ?_

theorem execVsub_keeps (C : Closed P) {x : Issue} {i : VIns} {s : State} (h0 : P s) : OkP P (execVsub x i s) := by
  unfold execVsub
  with_reducible refine okS ?_
  with_reducible repeat' first
    | assumption | refine State.tzVop_keeps C ?_

theorem execVmul_keeps (C : Closed P) {x : Issue} {i : VIns} {s : State} (h0 : P s) : OkP P (execVmul x i s) := by
  unfold execVmul
  with_reducible refine okS ?_
  with_reducible repeat' first
    | assumption | refine State.tzVop_keeps C ?_

theorem execVand_keeps (C : Closed P) {x : Issue} {i : VIns} {s : State} (h0 : P s) : OkP P (execVand x i s) := by
  unfold execVand
  with_reducible refine okS ?_
  with_reducible repeat' first
    | assumption | refine State.tzVop_keeps C ?_

theorem execVor_keeps (C : Closed P) {x : Issue} {i : VIns} {s : State} (h0 : P s) : OkP P (execVor x i s) := by
  unfold execVor
  with_reducible refine okS ?_
  with_reducible repeat' first
    | assumption | refine State.tzVop_keeps C ?_

theorem execVxor_keeps (C : Closed P) {x : Issue} {i : VIns} {s : State} (h0 : P s) : OkP P (execVxor x i s) := by
  unfold execVxor
  with_reducible refine okS ?_
  with_reducible repeat' first
    | assumption | refine State.tzVop_keeps C ?_

theorem execVshr_keeps (C : Closed P) {x : Issue} {i : VIns} {s : State} (h0 : P s) : OkP P (execVshr x i s) := by
  unfold execVshr
  with_reducible refine okS ?_
  with_reducible repeat' first
    | assumption | refine State.tzVop_keeps C ?_

theorem execVmin_keeps (C : Closed P) {x : Issue} {i : VIns} {s : State} (h0 : P s) : OkP P (execVmin x i s) := by
  unfold execVmin
  with_reducible refine okS ?_
  with_reducible repeat' first
    | assumption | refine State.tzVop_keeps C ?_

theorem execVmax_keeps (C : Closed P) {x : Issue} {i : VIns} {s : State} (h0 : P s) : OkP P (execVmax x i s) := by
  unfold execVmax
  with_reducible refine okS ?_
  with_reducible repeat' first
    | assumption | refine State.tzVop_keeps C ?_

theorem execVmac_keeps (C : Closed P) {x : Issue} {i : VIns} {s : State} (h0 : P s) : OkP P (execVmac x i s) := by
  unfold execVmac
  with_reducible refine okS ?_
  with_reducible repeat' first
    | assumption | intro _ | refine State.issue_keeps C ?_ ?_ | refine State.setV_keeps C ?_

theorem State.tzVcmac_keeps (C : Closed P) {x : Issue} {f : Nat} {i : VIns} {s : State} (h0 : P s) :
    P (State.tzVcmac x f i s) := by
  unfold State.tzVcmac
  with_reducible repeat' first
    | assumption | intro _ | refine State.issue_keeps C ?_ ?_ | refine State.setV_keeps C ?_

theorem execVcmac_keeps (C : Closed P) {x : Issue} {i : VIns} {s : State} (h0 : P s) : OkP P (execVcmac x i s) := by
  unfold execVcmac
  with_reducible refine okS ?_
  with_reducible repeat' first
    | assumption | refine State.tzVcmac_keeps C ?_

theorem execVcmacj_keeps (C : Closed P) {x : Issue} {i : VIns} {s : State} (h0 : P s) : OkP P (execVcmacj x i s) := by
  unfold execVcmacj
  with_reducible refine okS ?_
  with_reducible repeat' first
    | assumption | refine State.tzVcmac_keeps C ?_

theorem State.tzVred_keeps (C : Closed P) {x : Issue} {f : Nat} {i : VIns} {s : State} (h0 : P s) :
    P (State.tzVred x f i s) := by
  unfold State.tzVred
  with_reducible repeat' first
    | assumption | intro _ | refine State.issue_keeps C ?_ ?_ | refine State.setV_keeps C ?_

theorem execVredSum_keeps (C : Closed P) {x : Issue} {i : VIns} {s : State} (h0 : P s) : OkP P (execVredSum x i s) := by
  unfold execVredSum
  with_reducible refine okS ?_
  with_reducible repeat' first
    | assumption | refine State.tzVred_keeps C ?_

theorem execVredMax_keeps (C : Closed P) {x : Issue} {i : VIns} {s : State} (h0 : P s) : OkP P (execVredMax x i s) := by
  unfold execVredMax
  with_reducible refine okS ?_
  with_reducible repeat' first
    | assumption | refine State.tzVred_keeps C ?_

theorem execVredCat_keeps (C : Closed P) {x : Issue} {i : VIns} {s : State} (h0 : P s) : OkP P (execVredCat x i s) := by
  unfold execVredCat
  with_reducible refine okS ?_
  with_reducible repeat' first
    | assumption | refine State.tzVred_keeps C ?_

theorem execVmov_keeps (C : Closed P) {x : Issue} {i : VIns} {s : State} (h0 : P s) : OkP P (execVmov x i s) := by
  unfold execVmov
  with_reducible refine okS ?_
  with_reducible repeat' first
    | assumption | intro _ | refine State.issue_keeps C ?_ ?_ | refine State.setV_keeps C ?_

theorem execVsplat_keeps (C : Closed P) {x : Issue} {i : VIns} {s : State} (h0 : P s) : OkP P (execVsplat x i s) := by
  unfold execVsplat
  with_reducible refine okS ?_
  with_reducible repeat' first
    | assumption | intro _ | refine State.issue_keeps C ?_ ?_ | refine State.setV_keeps C ?_

theorem execVperm_keeps (C : Closed P) {x : Issue} {i : VIns} {s : State} (h0 : P s) : OkP P (execVperm x i s) := by
  unfold execVperm
  with_reducible refine okS ?_
  with_reducible repeat' first
    | assumption | intro _ | refine State.issue_keeps C ?_ ?_ | refine State.setV_keeps C ?_

theorem execVcvt_keeps (C : Closed P) {x : Issue} {f : Fin 16} {i : VIns} {s : State} (h0 : P s) :
    OkP P (execVcvt x f i s) := by
  unfold execVcvt
  with_reducible refine okS ?_
  with_reducible repeat' first
    | assumption | intro _ | refine State.issue_keeps C ?_ ?_ | refine State.setV_keeps C ?_

end Sys2Proof.Machine
end

