-- ==== Sys2Proof/Laws/KeepsStep.lean ====
section
/-! SUPPORT. Every command and every step: what each definition hands on keeps every property the primitive updates keep. -/

namespace Sys2Proof.Machine

variable {P : State → Prop}

theorem exec_keeps (C : Closed P) {i : Instr} {s : State} (hP : P s) : OkP P (exec i s) := by
  cases i with
  | registerWrite _ _ _ _ => exact execRegisterWrite_keeps C hP
  | multiwordLowRead _ _ => exact execMultiwordLowRead_keeps C hP
  | multiwordHighWrite _ _ _ => exact execMultiwordHighWrite_keeps C hP
  | shadowWrite _ _ _ => exact execShadowWrite_keeps C hP
  | commitMarkWrite _ _ _ => exact execCommitMarkWrite_keeps C hP
  | commitPendClear _ _ _ => exact execCommitPendClear_keeps C hP
  | commit _ _ => exact execCommit_keeps C hP
  | rollback _ _ => exact execRollback_keeps C hP
  | cancel _ => exact execCancel_keeps C hP
  | commitApply => exact execCommitApply_keeps C hP
  | commitGraceExpiry => exact execCommitGraceExpiry_keeps C hP
  | commitLateApply _ => exact execCommitLateApply_keeps C hP
  | internalCommitRequest _ _ _ => exact execInternalCommitRequest_keeps C hP
  | internalCommitIssue => exact execInternalCommitIssue_keeps C hP
  | laneModeWrite _ _ _ _ _ => exact execLaneModeWrite_keeps C hP
  | laneTxeqWrite _ _ _ => exact execLaneTxeqWrite_keeps C hP
  | laneRawWrite _ _ _ _ => exact execLaneRawWrite_keeps C hP
  | quadCtlWrite _ _ _ _ _ => exact execQuadCtlWrite_keeps C hP
  | quadPllLock _ => exact execQuadPllLock_keeps C hP
  | txIdleExit _ _ => exact execTxIdleExit_keeps C hP
  | rxCdrAcquire _ => exact execRxCdrAcquire_keeps C hP
  | slip _ _ => exact execSlip_keeps C hP
  | slipDone _ => exact execSlipDone_keeps C hP
  | alignmentEvent _ _ _ _ _ => exact execAlignmentEvent_keeps C hP
  | anResolved _ _ => exact execAnResolved_keeps C hP
  | eyeScan _ _ _ _ => exact execEyeScan_keeps C hP
  | offerReceive _ _ _ _ => exact execOfferReceive_keeps C hP
  | twinSwitchLock _ => exact execTwinSwitchLock_keeps C hP
  | twinSwitchTimeout _ => exact execTwinSwitchTimeout_keeps C hP
  | twinLockLoss _ => exact execTwinLockLoss_keeps C hP
  | skipBlockReceive _ _ _ => exact execSkipBlockReceive_keeps C hP
  | moduleGo _ _ _ _ => exact execModuleGo_keeps C hP
  | moduleTransactionDone _ _ => exact execModuleTransactionDone_keeps C hP
  | moduleTimeout _ => exact execModuleTimeout_keeps C hP
  | moduleChange _ _ _ => exact execModuleChange_keeps C hP
  | measPost _ _ _ _ => exact execMeasPost_keeps C hP
  | jumpPersist => exact execJumpPersist_keeps C hP
  | servoCycleBoundary _ => exact execServoCycleBoundary_keeps C hP
  | servoDeadline => exact execServoDeadline_keeps C hP
  | bellFwUpd _ _ _ => exact execBellFwUpd_keeps C hP
  | stepReq _ _ => exact execStepReq_keeps C hP
  | stepDone => exact execStepDone_keeps C hP
  | stepAuth _ _ => exact execStepAuth_keeps C hP
  | replicaMarker _ _ _ => exact execReplicaMarker_keeps C hP
  | replicaEcho _ _ => exact execReplicaEcho_keeps C hP
  | coarseCopySet => exact execCoarseCopySet_keeps C hP
  | leapApplied => exact execLeapApplied_keeps C hP
  | frameReceive _ _ _ => exact execFrameReceive_keeps C hP
  | phasePublish _ _ _ => exact execPhasePublish_keeps C hP
  | sensorSample _ _ => exact execSensorSample_keeps C hP
  | delayCheckStart _ _ => exact execDelayCheckStart_keeps C hP
  | delayCheckWaitExpiry _ _ _ => exact execDelayCheckWaitExpiry_keeps C hP
  | delayCheckDone _ _ => exact execDelayCheckDone_keeps C hP
  | asymSurveyStart _ _ _ => exact execAsymSurveyStart_keeps C hP
  | loopbackSurveyStart _ _ => exact execLoopbackSurveyStart_keeps C hP
  | loopbackPhase1Done _ _ _ => exact execLoopbackPhase1Done_keeps C hP
  | loopbackProbeTimeout => exact execLoopbackProbeTimeout_keeps C hP
  | loopbackSurveyDone _ => exact execLoopbackSurveyDone_keeps C hP
  | surveyAbort _ => exact execSurveyAbort_keeps C hP
  | surveyApply _ => exact execSurveyApply_keeps C hP
  | surveyExchange => exact execSurveyExchange_keeps C hP
  | surveyReqReceive _ _ _ => exact execSurveyReqReceive_keeps C hP
  | surveyRespReceive _ _ _ => exact execSurveyRespReceive_keeps C hP
  | surveyTuneReceive _ _ _ => exact execSurveyTuneReceive_keeps C hP
  | surveyTuneAckReceive _ _ => exact execSurveyTuneAckReceive_keeps C hP
  | surveyEndReceive _ _ => exact execSurveyEndReceive_keeps C hP
  | retuneWaitExpiry _ => exact execRetuneWaitExpiry_keeps C hP
  | surveyTuneTimeout => exact execSurveyTuneTimeout_keeps C hP
  | surveyPeerTimeout => exact execSurveyPeerTimeout_keeps C hP
  | surveySolve => exact execSurveySolve_keeps C hP
  | slotEnableWrite _ _ _ => exact execSlotEnableWrite_keeps C hP
  | slotSrcWrite _ _ _ => exact execSlotSrcWrite_keeps C hP
  | slotLockoutWrite _ _ _ => exact execSlotLockoutWrite_keeps C hP
  | signalPresenceChange _ _ => exact execSignalPresenceChange_keeps C hP
  | monitorEvaluation _ => exact execMonitorEvaluation_keeps C hP
  | longWindowEvaluation _ => exact execLongWindowEvaluation_keeps C hP
  | wtrExpiry _ => exact execWtrExpiry_keeps C hP
  | forceWrite _ _ _ => exact execForceWrite_keeps C hP
  | esmcReceive _ _ _ => exact execEsmcReceive_keeps C hP
  | esmcTimeout _ => exact execEsmcTimeout_keeps C hP
  | esmcInfoSend _ => exact execEsmcInfoSend_keeps C hP
  | esmcEventSend _ => exact execEsmcEventSend_keeps C hP
  | referenceLoopUpdate _ => exact execReferenceLoopUpdate_keeps C hP
  | opllUnlock => exact execOpllUnlock_keeps C hP
  | opllRelock => exact execOpllRelock_keeps C hP
  | holdoverHistoryEntry => exact execHoldoverHistoryEntry_keeps C hP
  | holdoverExpired => exact execHoldoverExpired_keeps C hP
  | dacTransfer => exact execDacTransfer_keeps C hP
  | dacCodeWrite _ _ => exact execDacCodeWrite_keeps C hP
  | trigArm _ _ => exact execTrigArm_keeps C hP
  | trigDisarm _ _ => exact execTrigDisarm_keeps C hP
  | triggerFire _ => exact execTriggerFire_keeps C hP
  | triggerDone _ => exact execTriggerDone_keeps C hP
  | todSend => exact execTodSend_keeps C hP
  | captureEdge _ _ _ => exact execCaptureEdge_keeps C hP
  | captureFifoRead _ _ => exact execCaptureFifoRead_keeps C hP
  | intervalTimeout _ => exact execIntervalTimeout_keeps C hP
  | frameDeparture _ _ => exact execFrameDeparture_keeps C hP
  | frameTransmitEnd _ => exact execFrameTransmitEnd_keeps C hP
  | ringEnableWrite _ _ _ => exact execRingEnableWrite_keeps C hP
  | peerDelayRespond _ => exact execPeerDelayRespond_keeps C hP
  | pdelayFollowUpSend _ => exact execPdelayFollowUpSend_keeps C hP
  | observerMessage _ _ _ => exact execObserverMessage_keeps C hP
  | observerStale _ => exact execObserverStale_keeps C hP
  | observerCfgWrite _ _ _ => exact execObserverCfgWrite_keeps C hP
  | headWindowComplete _ => exact execHeadWindowComplete_keeps C hP
  | frameComplete _ => exact execFrameComplete_keeps C hP
  | cutThroughUnderrun _ => exact execCutThroughUnderrun_keeps C hP
  | schedulerSelect _ _ => exact execSchedulerSelect_keeps C hP
  | programWordWrite _ _ _ _ _ _ => exact execProgramWordWrite_keeps C hP
  | lkpTblWrite _ _ _ _ => exact execLkpTblWrite_keeps C hP
  | lkpNop _ _ _ _ => exact execLkpNop_keeps C hP
  | lkpInsert _ _ _ _ => exact execLkpInsert_keeps C hP
  | lkpDelete _ _ _ _ => exact execLkpDelete_keeps C hP
  | lkpModify _ _ _ _ => exact execLkpModify_keeps C hP
  | lkpReadKey _ _ _ _ => exact execLkpReadKey_keeps C hP
  | lkpReadIndex _ _ _ _ => exact execLkpReadIndex_keeps C hP
  | lkpWriteIndex _ _ _ _ => exact execLkpWriteIndex_keeps C hP
  | lkpClearHit _ _ _ _ => exact execLkpClearHit_keeps C hP
  | gateEdge _ => exact execGateEdge_keeps C hP
  | gateListSwap _ => exact execGateListSwap_keeps C hP
  | pauseReceive _ _ => exact execPauseReceive_keeps C hP
  | pfcReceive _ _ _ => exact execPfcReceive_keeps C hP
  | pauseExpiry _ _ => exact execPauseExpiry_keeps C hP
  | pauseFrameSend _ _ => exact execPauseFrameSend_keeps C hP
  | pauseStorm _ _ => exact execPauseStorm_keeps C hP
  | pauseHoldExpiry _ _ => exact execPauseHoldExpiry_keeps C hP
  | portEnWrite _ _ _ => exact execPortEnWrite_keeps C hP
  | linkDown _ _ => exact execLinkDown_keeps C hP
  | linkUp _ => exact execLinkUp_keeps C hP
  | holdoffExpiry _ => exact execHoldoffExpiry_keeps C hP
  | flushStep _ => exact execFlushStep_keeps C hP
  | poolRequest _ _ _ => exact execPoolRequest_keeps C hP
  | bufferRef _ _ _ => exact execBufferRef_keeps C hP
  | bufferDeref _ _ _ => exact execBufferDeref_keeps C hP
  | poolThaw _ _ => exact execPoolThaw_keeps C hP
  | poolOpenWrite _ _ => exact execPoolOpenWrite_keeps C hP
  | spillEnWrite _ _ => exact execSpillEnWrite_keeps C hP
  | spill _ _ => exact execSpill_keeps C hP
  | refill _ _ => exact execRefill_keeps C hP
  | stackFail _ _ => exact execStackFail_keeps C hP
  | stackMark _ _ => exact execStackMark_keeps C hP
  | wipeDone _ => exact execWipeDone_keeps C hP
  | threadStart _ _ _ => exact execThreadStart_keeps C hP
  | threadStop _ _ _ => exact execThreadStop_keeps C hP
  | threadResume _ _ _ => exact execThreadResume_keeps C hP
  | threadClear _ _ _ => exact execThreadClear_keeps C hP
  | stopAll _ _ => exact execStopAll_keeps C hP
  | engCinvWrite _ _ => exact execEngCinvWrite_keeps C hP
  | engMark _ _ => exact execEngMark_keeps C hP
  | engFreset _ _ => exact execEngFreset_keeps C hP
  | pantryWipeDone _ => exact execPantryWipeDone_keeps C hP
  | asyncStoreFail _ _ _ => exact execAsyncStoreFail_keeps C hP
  | waitDeadline _ _ => exact execWaitDeadline_keeps C hP
  | hatchPut _ _ _ _ => exact execHatchPut_keeps C hP
  | engineQueueOffer _ _ _ _ => exact execEngineQueueOffer_keeps C hP
  | add _ _ => exact execAdd_keeps C hP
  | sub _ _ => exact execSub_keeps C hP
  | tzAnd _ _ => exact execTzAnd_keeps C hP
  | or _ _ => exact execOr_keeps C hP
  | xor _ _ => exact execXor_keeps C hP
  | shl _ _ => exact execShl_keeps C hP
  | shr _ _ => exact execShr_keeps C hP
  | sar _ _ => exact execSar_keeps C hP
  | mul _ _ => exact execMul_keeps C hP
  | mulh _ _ => exact execMulh_keeps C hP
  | div _ _ => exact execDiv_keeps C hP
  | rem _ _ => exact execRem_keeps C hP
  | min _ _ => exact execMin_keeps C hP
  | max _ _ => exact execMax_keeps C hP
  | minu _ _ => exact execMinu_keeps C hP
  | maxu _ _ => exact execMaxu_keeps C hP
  | addi _ _ => exact execAddi_keeps C hP
  | andi _ _ => exact execAndi_keeps C hP
  | ori _ _ => exact execOri_keeps C hP
  | xori _ _ => exact execXori_keeps C hP
  | shli _ _ => exact execShli_keeps C hP
  | shri _ _ => exact execShri_keeps C hP
  | sari _ _ => exact execSari_keeps C hP
  | lui _ _ => exact execLui_keeps C hP
  | cmp _ _ _ => exact execCmp_keeps C hP
  | cmpi _ _ => exact execCmpi_keeps C hP
  | pand _ _ => exact execPand_keeps C hP
  | por _ _ => exact execPor_keeps C hP
  | pxor _ _ => exact execPxor_keeps C hP
  | pandn _ _ => exact execPandn_keeps C hP
  | pmov _ _ _ => exact execPmov_keeps C hP
  | bfx _ _ => exact execBfx_keeps C hP
  | bfi _ _ => exact execBfi_keeps C hP
  | br _ _ => exact execBr_keeps C hP
  | brn _ _ => exact execBrn_keeps C hP
  | jal _ _ => exact execJal_keeps C hP
  | skip _ _ => exact execSkip_keeps C hP
  | ldB _ _ _ => exact execLdB_keeps C hP
  | ldH _ _ _ => exact execLdH_keeps C hP
  | ldW _ _ _ => exact execLdW_keeps C hP
  | ldD _ _ _ => exact execLdD_keeps C hP
  | stB _ _ => exact execStB_keeps C hP
  | stH _ _ => exact execStH_keeps C hP
  | stW _ _ => exact execStW_keeps C hP
  | stD _ _ => exact execStD_keeps C hP
  | amoAdd _ _ _ => exact execAmoAdd_keeps C hP
  | amoAnd _ _ _ => exact execAmoAnd_keeps C hP
  | amoOr _ _ _ => exact execAmoOr_keeps C hP
  | amoXor _ _ _ => exact execAmoXor_keeps C hP
  | amoSwap _ _ _ => exact execAmoSwap_keeps C hP
  | amoMin _ _ _ => exact execAmoMin_keeps C hP
  | amoMax _ _ _ => exact execAmoMax_keeps C hP
  | amoMinu _ _ _ => exact execAmoMinu_keeps C hP
  | amoMaxu _ _ _ => exact execAmoMaxu_keeps C hP
  | cas _ _ _ => exact execCas_keeps C hP
  | vadd _ _ => exact execVadd_keeps C hP
  | vsub _ _ => exact execVsub_keeps C hP
  | vmul _ _ => exact execVmul_keeps C hP
  | vand _ _ => exact execVand_keeps C hP
  | vor _ _ => exact execVor_keeps C hP
  | vxor _ _ => exact execVxor_keeps C hP
  | vshr _ _ => exact execVshr_keeps C hP
  | vmin _ _ => exact execVmin_keeps C hP
  | vmax _ _ => exact execVmax_keeps C hP
  | vmac _ _ => exact execVmac_keeps C hP
  | vcmac _ _ => exact execVcmac_keeps C hP
  | vcmacj _ _ => exact execVcmacj_keeps C hP
  | vredSum _ _ => exact execVredSum_keeps C hP
  | vredMax _ _ => exact execVredMax_keeps C hP
  | vredCat _ _ => exact execVredCat_keeps C hP
  | vld _ _ _ => exact execVld_keeps C hP
  | vst _ _ => exact execVst_keeps C hP
  | vmov _ _ => exact execVmov_keeps C hP
  | vsplat _ _ => exact execVsplat_keeps C hP
  | vperm _ _ => exact execVperm_keeps C hP
  | vcvt _ _ _ => exact execVcvt_keeps C hP
  | fext _ _ _ => exact execFext_keeps C hP
  | fins _ _ => exact execFins_keeps C hP
  | fcsum _ _ _ => exact execFcsum_keeps C hP
  | fcfadd _ _ _ => exact execFcfadd_keeps C hP
  | mdld _ _ => exact execMdld_keeps C hP
  | mdst _ _ => exact execMdst_keeps C hP
  | fwin _ _ => exact execFwin_keeps C hP
  | lkx _ _ => exact execLkx_keeps C hP
  | lkt _ _ => exact execLkt_keeps C hP
  | lkres _ _ => exact execLkres_keeps C hP
  | lkupd _ _ _ => exact execLkupd_keeps C hP
  | tnow _ _ => exact execTnow_keeps C hP
  | tcmp _ _ _ => exact execTcmp_keeps C hP
  | tadd _ _ => exact execTadd_keeps C hP
  | tsub _ _ => exact execTsub_keeps C hP
  | tmov _ _ => exact execTmov_keeps C hP
  | tmovLo _ _ => exact execTmovLo_keeps C hP
  | tmovHi _ _ => exact execTmovHi_keeps C hP
  | tmovSet _ _ => exact execTmovSet_keeps C hP
  | twait _ _ => exact execTwait_keeps C hP
  | twaitFire _ => exact execTwaitFire_keeps C hP
  | temit _ _ _ => exact execTemit_keeps C hP
  | emitRelease _ => exact execEmitRelease_keeps C hP
  | palloc _ _ _ => exact execPalloc_keeps C hP
  | pderef _ _ => exact execPderef_keeps C hP
  | pref _ _ => exact execPref_keeps C hP
  | qenq _ _ => exact execQenq_keeps C hP
  | qdeq _ _ _ => exact execQdeq_keeps C hP
  | hput _ _ => exact execHput_keeps C hP
  | hget _ _ _ => exact execHget_keeps C hP
  | evraise _ _ => exact execEvraise_keeps C hP
  | trap _ _ => exact execTrap_keeps C hP
  | tret _ _ => exact execTret_keeps C hP
  | fence _ _ => exact execFence_keeps C hP
  | cinv _ _ => exact execCinv_keeps C hP
  | yield _ _ => exact execYield_keeps C hP
  | halt _ _ => exact execHalt_keeps C hP
  | bkpt _ _ => exact execBkpt_keeps C hP
  | csrr _ _ => exact execCsrr_keeps C hP
  | csrw _ _ => exact execCsrw_keeps C hP
  | contributionOffer _ => exact execContributionOffer_keeps C hP
  | gatherStep _ => exact execGatherStep_keeps C hP
  | binDeadline _ => exact execBinDeadline_keeps C hP
  | outputAllocTimeout _ => exact execOutputAllocTimeout_keeps C hP
  | reliveWrite _ _ _ => exact execReliveWrite_keeps C hP
  | twinHelloSend => exact execTwinHelloSend_keeps C hP
  | twinHelloReceive _ _ => exact execTwinHelloReceive_keeps C hP
  | twinLinkTimeout => exact execTwinLinkTimeout_keeps C hP
  | twinStateReceive _ _ => exact execTwinStateReceive_keeps C hP
  | twinPhaseReqSend _ => exact execTwinPhaseReqSend_keeps C hP
  | twinPhaseReqReceive _ _ _ => exact execTwinPhaseReqReceive_keeps C hP
  | twinPhaseRespReceive _ _ _ _ => exact execTwinPhaseRespReceive_keeps C hP
  | twnSwapGo _ => exact execTwnSwapGo_keeps C hP
  | twinSwapReceive _ _ gen => exact execTwinSwapReceive_keeps (_gen := gen) C hP
  | twinSwapAckReceive _ _ _ => exact execTwinSwapAckReceive_keeps C hP
  | swapAckTimeout => exact execSwapAckTimeout_keeps C hP
  | noActive => exact execNoActive_keeps C hP
  | streamResetTimeout _ => exact execStreamResetTimeout_keeps C hP
  | snapSave _ => exact execSnapSave_keeps C hP
  | snapRestore _ => exact execSnapRestore_keeps C hP
  | snapDone => exact execSnapDone_keeps C hP
  | treeHelloSend => exact execTreeHelloSend_keeps C hP
  | treeHelloReceive _ _ node role _ => exact execTreeHelloReceive_keeps (_node := node) (_role := role) C hP
  | treeRegReceive _ _ _ _ _ _ => exact execTreeRegReceive_keeps C hP
  | treeCommitReceive _ _ _ _ _ => exact execTreeCommitReceive_keeps C hP
  | treeReportReceive _ _ _ _ _ _ => exact execTreeReportReceive_keeps C hP
  | treeRecordReceive _ _ _ => exact execTreeRecordReceive_keeps C hP
  | treeImageReceive _ _ _ _ _ _ => exact execTreeImageReceive_keeps C hP
  | treeImageAckReceive _ _ _ _ _ => exact execTreeImageAckReceive_keeps C hP
  | wghConfig _ _ _ => exact execWghConfig_keeps C hP
  | wghRun _ _ => exact execWghRun_keeps C hP
  | wghStop _ _ => exact execWghStop_keeps C hP
  | wghSetParam _ _ => exact execWghSetParam_keeps C hP
  | wghImageInstall _ _ => exact execWghImageInstall_keeps C hP
  | wghImageInstalled => exact execWghImageInstalled_keeps C hP
  | wghVerify _ _ => exact execWghVerify_keeps C hP
  | wghVerifyDone _ => exact execWghVerifyDone_keeps C hP
  | wghReadId _ => exact execWghReadId_keeps C hP
  | wghHostWrite _ => exact execWghHostWrite_keeps C hP
  | weighhouseEdge _ => exact execWeighhouseEdge_keeps C hP
  | interpolatorCalibrate _ _ _ => exact execInterpolatorCalibrate_keeps C hP
  | ovrRateClear _ => exact execOvrRateClear_keeps C hP
  | wghIntervalTimeout _ => exact execWghIntervalTimeout_keeps C hP
  | recordSign => exact execRecordSign_keeps C hP
  | updateBegin _ _ _ => exact execUpdateBegin_keeps C hP
  | updateWrite _ _ _ _ _ => exact execUpdateWrite_keeps C hP
  | updateActivate _ _ => exact execUpdateActivate_keeps C hP
  | updateConfirm _ _ => exact execUpdateConfirm_keeps C hP
  | confirmTimeout => exact execConfirmTimeout_keeps C hP
  | loadImage _ _ _ _ => exact execLoadImage_keeps C hP
  | wghPassthrough _ _ _ => exact execWghPassthrough_keeps C hP
  | lcReq _ _ _ => exact execLcReq_keeps C hP
  | keyProg _ _ _ => exact execKeyProg_keeps C hP
  | revoke _ _ _ => exact execRevoke_keeps C hP
  | shutdown _ _ _ _ => exact execShutdown_keeps C hP
  | lbistRun _ _ _ => exact execLbistRun_keeps C hP
  | almanacWrite _ _ _ _ => exact execAlmanacWrite_keeps C hP
  | contextRestore _ _ _ => exact execContextRestore_keeps C hP
  | unmark _ _ _ => exact execUnmark_keeps C hP
  | recoveryGo _ _ => exact execRecoveryGo_keeps C hP
  | wdtKick _ _ => exact execWdtKick_keeps C hP
  | wdtTrip => exact execWdtTrip_keeps C hP
  | boot _ _ => exact execBoot_keeps C hP
  | recoveryRetry _ _ _ => exact execRecoveryRetry_keeps C hP
  | recoveryReinit _ => exact execRecoveryReinit_keeps C hP
  | recoveryPowerCycle => exact execRecoveryPowerCycle_keeps C hP
  | railGood _ => exact execRailGood_keeps C hP
  | supplyCautionEntry _ _ => exact execSupplyCautionEntry_keeps C hP
  | supplyCautionExit => exact execSupplyCautionExit_keeps C hP
  | supplyReset _ => exact execSupplyReset_keeps C hP
  | vidStep => exact execVidStep_keeps C hP
  | hearthSrcChange _ _ _ => exact execHearthSrcChange_keeps C hP
  | hrtPwrReqWrite _ _ _ => exact execHrtPwrReqWrite_keeps C hP
  | domainPowered _ => exact execDomainPowered_keeps C hP
  | wake _ => exact execWake_keeps C hP
  | crystalStable => exact execCrystalStable_keeps C hP
  | crystalLoss => exact execCrystalLoss_keeps C hP
  | ocxoLoss => exact execOcxoLoss_keeps C hP
  | hclkRetry _ _ => exact execHclkRetry_keeps C hP
  | clkEnWrite _ _ => exact execClkEnWrite_keeps C hP
  | coldStart _ => exact execColdStart_keeps C hP
  | hearthKeptStart => exact execHearthKeptStart_keeps C hP
  | pinReset => exact execPinReset_keeps C hP
  | glbReset _ _ _ => exact execGlbReset_keeps C hP
  | warmReset => exact execWarmReset_keeps C hP
  | glbFreset _ _ => exact execGlbFreset_keeps C hP
  | functionResetDone _ => exact execFunctionResetDone_keeps C hP
  | vectorHoldExpiry _ => exact execVectorHoldExpiry_keeps C hP
  | rearmWrite _ _ => exact execRearmWrite_keeps C hP
  | rfifoRead _ => exact execRfifoRead_keeps C hP
  | tallyCfgWrite _ _ _ _ => exact execTallyCfgWrite_keeps C hP
  | counterWrap _ => exact execCounterWrap_keeps C hP
  | tallyDump _ => exact execTallyDump_keeps C hP
  | sampleTag _ => exact execSampleTag_keeps C hP
  | sampleRecord _ _ => exact execSampleRecord_keeps C hP
  | endpointReset => exact execEndpointReset_keeps C hP
  | dmaRingEnable _ _ _ => exact execDmaRingEnable_keeps C hP
  | dmaTxDescriptor _ => exact execDmaTxDescriptor_keeps C hP
  | dmaRxFrame _ => exact execDmaRxFrame_keeps C hP
  | i2cWrite _ _ _ => exact execI2cWrite_keeps C hP
  | i2cRead _ => exact execI2cRead_keeps C hP
  | i2cBusTimeout _ => exact execI2cBusTimeout_keeps C hP
  | bypass => exact execBypass_keeps C hP
  | idcode => exact execIdcode_keeps C hP
  | samplePreload _ => exact execSamplePreload_keeps C hP
  | extest => exact execExtest_keeps C hP
  | extestPulse => exact execExtestPulse_keeps C hP
  | extestTrain => exact execExtestTrain_keeps C hP
  | clamp => exact execClamp_keeps C hP
  | highz => exact execHighz_keeps C hP
  | internalScan => exact execInternalScan_keeps C hP
  | thermalTrip _ _ => exact execThermalTrip_keeps C hP
  | thermalRelease => exact execThermalRelease_keeps C hP
  | lifeMinute => exact execLifeMinute_keeps C hP
  | lifeHour => exact execLifeHour_keeps C hP
  | rcFieldRead _ _ => exact execRcFieldRead_keeps C hP
  | receiverElectricalIdle _ => exact execReceiverElectricalIdle_keeps C hP
  | crystalStableTimeout => exact execCrystalStableTimeout_keeps C hP
  | pinResetRelease => exact execPinResetRelease_keeps C hP
  | gateCautionEnd => exact execGateCautionEnd_keeps C hP
  | cinvDone _ => exact execCinvDone_keeps C hP
  | msixVectorUnmask _ => exact execMsixVectorUnmask_keeps C hP
  | bar2Write _ _ => exact execBar2Write_keeps C hP
  | hearthLinkLoss _ => exact execHearthLinkLoss_keeps C hP

theorem step_keeps (C : Closed P) (hp : ∀ {s : State} (l : List Instr), P s → P { s with pending := l })
    {s : State} (h : P s) :
    OkP P (step s) := by
  unfold step
  split
  · exact State.pass_keeps C h
  · exact exec_keeps C (hp _ h)

end Sys2Proof.Machine
end

