-- ==== Sys2Proof/Laws/Order.lean ====
section
/-! SUPPORT. The orders of the stores' keys are strict and total, so that every write keeps a store's canonical form. -/

namespace Sys2Proof.Machine

theorem pairLt_trans {a b c d e f : Nat} (h1 : pairLt a b c d = true) (h2 : pairLt c d e f = true) :
    pairLt a b e f = true := by
  simp [pairLt] at *; omega

theorem pairLt_total {a b c d : Nat} (h : ¬ (a = c ∧ b = d)) (h1 : pairLt a b c d = false) : pairLt c d a b = true := by
  simp [pairLt] at *; omega

theorem natLt_trans (a b c : Nat) (h1 : natLt a b = true) (h2 : natLt b c = true) : natLt a c = true := by
  simp [natLt] at *; omega

theorem natLt_total (a b : Nat) (h : a ≠ b) (h1 : natLt a b = false) : natLt b a = true := by
  simp [natLt] at *; omega

theorem pairKeyLt_trans (a b c : Nat × Nat) (h1 : pairKeyLt a b = true) (h2 : pairKeyLt b c = true) :
    pairKeyLt a c = true := pairLt_trans h1 h2

theorem pairKeyLt_total (a b : Nat × Nat) (h : a ≠ b) (h1 : pairKeyLt a b = false) : pairKeyLt b a = true :=
  pairLt_total (fun e => h (Prod.ext e.1 e.2)) h1

theorem Hid.ctorIdx_inj {a b : Hid} (h : a.ctorIdx = b.ctorIdx) : a = b := by
  rw [← Hid.ofNat_ctorIdx a, ← Hid.ofNat_ctorIdx b, h]

theorem hidLt_trans (a b c : Hid × Nat) (h1 : hidLt a b = true) (h2 : hidLt b c = true) : hidLt a c = true :=
  pairLt_trans h1 h2

theorem hidLt_total (a b : Hid × Nat) (h : a ≠ b) (h1 : hidLt a b = false) : hidLt b a = true :=
  pairLt_total (fun e => h (Prod.ext (Hid.ctorIdx_inj e.1) e.2)) h1

/-- A field is known by its block and its number in the block. -/
theorem Fld.idx_inj {a b : Fld} (h : a.blkIdx = b.blkIdx) (k : a.subIdx = b.subIdx) : a = b := by
  cases a <;> cases b <;> simp [Fld.blkIdx] at h <;> simp only [Fld.subIdx] at k <;> congr 1
  · simpa only [GlbF.ofNat_ctorIdx] using congrArg GlbF.ofNat k
  · simpa only [CriF.ofNat_ctorIdx] using congrArg CriF.ofNat k
  · simpa only [BellF.ofNat_ctorIdx] using congrArg BellF.ofNat k
  · simpa only [SelF.ofNat_ctorIdx] using congrArg SelF.ofNat k
  · simpa only [StampF.ofNat_ctorIdx] using congrArg StampF.ofNat k
  · simpa only [LaneF.ofNat_ctorIdx] using congrArg LaneF.ofNat k
  · simpa only [QuadF.ofNat_ctorIdx] using congrArg QuadF.ofNat k
  · simpa only [ModF.ofNat_ctorIdx] using congrArg ModF.ofNat k
  · simpa only [SurvF.ofNat_ctorIdx] using congrArg SurvF.ofNat k
  · simpa only [PortF.ofNat_ctorIdx] using congrArg PortF.ofNat k
  · simpa only [CoreF.ofNat_ctorIdx] using congrArg CoreF.ofNat k
  · simpa only [PoolF.ofNat_ctorIdx] using congrArg PoolF.ofNat k
  · simpa only [CelF.ofNat_ctorIdx] using congrArg CelF.ofNat k
  · simpa only [EngF.ofNat_ctorIdx] using congrArg EngF.ofNat k
  · simpa only [GthF.ofNat_ctorIdx] using congrArg GthF.ofNat k
  · simpa only [TalF.ofNat_ctorIdx] using congrArg TalF.ofNat k
  · simpa only [ReeF.ofNat_ctorIdx] using congrArg ReeF.ofNat k
  · simpa only [WghF.ofNat_ctorIdx] using congrArg WghF.ofNat k
  · simpa only [HrtF.ofNat_ctorIdx] using congrArg HrtF.ofNat k
  · simpa only [TwnF.ofNat_ctorIdx] using congrArg TwnF.ofNat k

theorem fldLt_trans (a b c : Fld × Nat) (h1 : fldLt a b = true) (h2 : fldLt b c = true) : fldLt a c = true := by
  simp only [fldLt, Bool.or_eq_true, Bool.and_eq_true, decide_eq_true_eq, beq_iff_eq] at *
  rcases h1 with h1 | ⟨e1, h1⟩ <;> rcases h2 with h2 | ⟨e2, h2⟩
  · exact .inl (by omega)
  · exact .inl (by omega)
  · exact .inl (by omega)
  · exact .inr ⟨by omega, pairLt_trans h1 h2⟩

theorem fldLt_total (a b : Fld × Nat) (h : a ≠ b) (h1 : fldLt a b = false) : fldLt b a = true := by
  simp only [fldLt, Bool.or_eq_true, Bool.and_eq_true, Bool.or_eq_false_iff, Bool.and_eq_false_iff,
    decide_eq_true_eq, decide_eq_false_iff_not, beq_iff_eq, beq_eq_false_iff_ne] at *
  by_cases e : b.1.blkIdx = a.1.blkIdx
  · refine .inr ⟨e, pairLt_total (fun k => h (Prod.ext (Fld.idx_inj e.symm k.1) k.2)) ?_⟩
    rcases h1.2 with h2 | h2
    · exact absurd e.symm h2
    · exact h2
  · exact .inl (by omega)

end Sys2Proof.Machine
end

