-- ==== Sys2Proof/Laws/Memory.lean ====
section
/-! SUPPORT. Memory and the register stores keep their canonical form under every operation over them. -/

namespace Sys2Proof.Machine

theorem Assoc.sorted_filter {κ α : Type} (lt : κ → κ → Bool) (q : κ × α → Bool) (l : List (κ × α))
    (h : Assoc.sorted lt l = true) : Assoc.sorted lt (l.filter q) = true := by
  induction l with
  | nil => rfl
  | cons a t ih =>
    simp only [Assoc.sorted, Bool.and_eq_true, List.all_eq_true] at h
    rw [List.filter_cons]
    split
    · simp only [Assoc.sorted, Bool.and_eq_true, List.all_eq_true]
      exact ⟨fun e he => h.1 e (List.mem_filter.1 he).1, ih h.2⟩
    · exact ih h.2

theorem Assoc.wf_filter {κ α : Type} [DecidableEq α] (lt : κ → κ → Bool) (d : α) (q : κ × α → Bool) (l : List (κ × α))
    (h : Assoc.wf lt d l = true) : Assoc.wf lt d (l.filter q) = true := by
  simp only [Assoc.wf, Bool.and_eq_true, List.all_eq_true] at h ⊢
  exact ⟨Assoc.sorted_filter lt q l h.1, fun e he => h.2 e (List.mem_filter.1 he).1⟩

theorem State.memWf_setByte {s : State} (r : Region) (a : Nat) (b : Byte) (h : s.memWf = true) :
    (s.setByte r a b).memWf = true :=
  Assoc.wf_set natLt natLt_trans natLt_total 0 _ _ _ h

theorem State.memWf_setBytes {s : State} (r : Region) (a : Nat) (l : List Byte) (h : s.memWf = true) :
    (s.setBytes r a l).memWf = true := by
  induction l generalizing s a with
  | nil => exact h
  | cons b t ih => exact ih _ (State.memWf_setByte r a b h)

theorem State.memWf_wrMem {s : State} (r : Region) (a n v : Nat) (h : s.memWf = true) : (s.wrMem r a n v).memWf = true :=
  State.memWf_setBytes r a _ h

theorem State.memWf_wipe {s : State} (r : Region) (lo hi : Nat) (h : s.memWf = true) : (s.wipe r lo hi).memWf = true :=
  Assoc.wf_filter natLt 0 _ _ h

theorem State.memWf_reset : State.reset.memWf = true := rfl

theorem regsWf_set {v : Variant} {l : List ((Fld × Nat) × Nat)} (f : Fld) (i x : Nat) (h : regsWf v l = true) :
    regsWf v (Assoc.set fldLt (resetVal v f i) (f, i) x l) = true := by
  simp only [regsWf, Bool.and_eq_true, List.all_eq_true, decide_eq_true_eq] at h ⊢
  unfold Assoc.set
  split
  · exact ⟨Assoc.sorted_erase _ _ _ h.1, fun e he => h.2 e (Assoc.mem_erase _ _ e he)⟩
  · next hv =>
    refine ⟨Assoc.sorted_ins _ fldLt_trans fldLt_total _ _ _ (Assoc.erase_ne _ l) (Assoc.sorted_erase _ _ _ h.1), ?_⟩
    intro e he
    rcases Assoc.mem_ins _ _ _ _ e he with rfl | he
    · exact hv
    · exact h.2 e (Assoc.mem_erase _ _ e he)

theorem regsWf_filter {v : Variant} {l : List ((Fld × Nat) × Nat)} (q : (Fld × Nat) × Nat → Bool) (h : regsWf v l = true) :
    regsWf v (l.filter q) = true := by
  simp only [regsWf, Bool.and_eq_true, List.all_eq_true, decide_eq_true_eq] at h ⊢
  exact ⟨Assoc.sorted_filter _ _ _ h.1, fun e he => h.2 e (List.mem_filter.1 he).1⟩

theorem State.regsWf_wr {s : State} (f : Fld) (i v : Nat) (h : regsWf s.variant s.regs = true) :
    regsWf (s.wr f i v).variant (s.wr f i v).regs = true := regsWf_set f i _ h

theorem State.regsWf_wrA {s : State} (f : Fld) (i v : Nat) (h : regsWf s.variant s.applied = true) :
    regsWf (s.wrA f i v).variant (s.wrA f i v).applied = true := regsWf_set f i _ h

end Sys2Proof.Machine
end

