-- ==== Sys2Proof/Laws/Raise.lean ====
section
/-! SUPPORT. What raising an event and writing a Ledger entry can do, said once: an event changes the Crier's registers, its
hidden values, host memory, the Reeve's record FIFO and the held records, and nothing else; a Ledger entry changes the
Ledger's registers and the archive. -/

namespace Sys2Proof.Machine

/-- A state without what an event may change. -/
def State.sansCrier (s : State) : State := { s with regs := [], hid := [], mem := [], rfifo := [], held := [] }

/-- Hidden values that an event may change. -/
def crierHids : List Hid := [.vecAgain, .msixPend, .vecMsgs, .vecHold, .ringLostNext, .ringPhase]

/-- A register field of the Crier. -/
def Fld.isCri : Fld → Bool
  | .cri _ => true
  | _ => false

/-- Nothing changes from `s` to `t` but what the Crier holds. -/
structure CrierOnly (s t : State) : Prop where
  others : t.sansCrier = s.sansCrier
  rd : ∀ f i, f.isCri = false → t.rd f i = s.rd f i
  h : ∀ x i, x ∉ crierHids → t.h x i = s.h x i
  byte : ∀ r a, r ≠ .host → t.byte r a = s.byte r a

variable {s t u : State}

theorem CrierOnly.refl : CrierOnly s s := ⟨rfl, fun _ _ _ => rfl, fun _ _ _ => rfl, fun _ _ _ => rfl⟩

theorem CrierOnly.trans (a : CrierOnly s t) (b : CrierOnly t u) : CrierOnly s u :=
  ⟨b.others.trans a.others, fun f i m => (b.rd f i m).trans (a.rd f i m), fun x i m => (b.h x i m).trans (a.h x i m),
   fun r i m => (b.byte r i m).trans (a.byte r i m)⟩

theorem CrierOnly.wr (f : Fld) (i v : Nat) (m : f.isCri = true) (a : CrierOnly s t) : CrierOnly s (t.wr f i v) :=
  ⟨a.others, fun g j k => by
    rw [State.rd_wr, if_neg (fun e => by rw [e.1, m] at k; exact Bool.noConfusion k)]; exact a.rd g j k, a.h, a.byte⟩

theorem CrierOnly.setH (x : Hid) (i v : Nat) (m : x ∈ crierHids) (a : CrierOnly s t) : CrierOnly s (t.setH x i v) :=
  ⟨a.others, a.rd, fun y j k => by
    rw [State.h_setH, if_neg (fun e => k (by rw [e.1]; exact m))]; exact a.h y j k, a.byte⟩

theorem CrierOnly.setBytes (p : Nat) (l : List Byte) (a : CrierOnly s t) : CrierOnly s (t.setBytes .host p l) := by
  induction l generalizing t p with
  | nil => exact a
  | cons b l ih =>
    refine ih (t := t.setByte .host p b) (p + 1) ⟨a.others, a.rd, a.h, fun r d m => ?_⟩
    rw [State.byte_setByte, if_neg (fun e => m e.1)]; exact a.byte r d m

theorem CrierOnly.fifo (x y : List EvRec) (a : CrierOnly s t) : CrierOnly s { t with rfifo := x, held := y } :=
  ⟨a.others, a.rd, a.h, a.byte⟩

theorem State.vecSend_crier (v : Nat) (a : CrierOnly s t) : CrierOnly s (t.vecSend v) := by
  have b : ∀ w : State, CrierOnly s w → CrierOnly s (if w.rd (.cri .VEC_HOLD) v = 0 then w else w.setH .vecHold v 1) := by
    intro w c
    split
    · exact c
    · exact c.setH _ _ _ (by decide)
  unfold State.vecSend
  dsimp only
  split
  · exact b _ (a.setH _ _ _ (by decide))
  · exact b _ (a.setH _ _ _ (by decide))

theorem State.vecUpdate_crier (old : State) (v : Nat) (a : CrierOnly s t) : CrierOnly s (State.vecUpdate old t v) := by
  unfold State.vecUpdate
  split
  · split
    · exact a.setH _ _ _ (by decide)
    · exact State.vecSend_crier v a
  · exact a

theorem State.latchDev_crier (n : Nat) (a : CrierOnly s t) : CrierOnly s (t.latchDev n) := by
  unfold State.latchDev
  split
  · split
    · exact a.wr _ _ _ rfl
    · exact State.vecUpdate_crier _ _ (a.wr _ _ _ rfl)
  · exact a

theorem State.ringPut_crier (r : EvRec) (a : CrierOnly s t) : CrierOnly s (t.ringPut r) := by
  unfold State.ringPut
  split
  · exact a
  · dsimp only
    split
    · exact State.latchDev_crier _ ((a.wr _ _ _ rfl).setH _ _ _ (by decide))
    · have b := (((a.setBytes (t.rd (.cri .RING_RBASE) 0 + 32 * t.rd (.cri .RING_HEAD) 0)
        (r.toBytes (t.h .ringPhase == 1) (t.h .ringLostNext == 1))).setH .ringLostNext 0 0 (by decide)).wr (.cri .RING_HEAD) 0
        ((t.rd (.cri .RING_HEAD) 0 + 1) % 2 ^ t.rd (.cri .RING_SIZE) 0) rfl)
      split
      · exact b.setH _ _ _ (by decide)
      · exact b

theorem State.recPut_crier (r : EvRec) (a : CrierOnly s t) : CrierOnly s (t.recPut r) := by
  unfold State.recPut
  dsimp only
  split
  · exact State.ringPut_crier r ⟨a.others, a.rd, a.h, a.byte⟩
  · exact State.ringPut_crier r (a.wr _ _ _ rfl)

/-- An event changes nothing outside the Crier. -/
theorem State.raise_crier (s : State) (e : Ev) (l d p : Nat) : CrierOnly s (s.raise e l d p) := by
  unfold State.raise
  split
  · split
    · exact .refl
    · split
      · split
        · exact State.latchDev_crier _ .refl
        · exact State.recPut_crier _ (State.latchDev_crier _ .refl)
      · split
        · split
          · exact .refl
          · have b : CrierOnly s (s.setBitF (.cri .LATCH) 0 ‹Nat›) := CrierOnly.refl.wr _ _ _ rfl
            exact ⟨b.others, b.rd, b.h, b.byte⟩
        · exact .refl
  · split
    · exact .refl
    · split
      · exact .refl
      · exact State.recPut_crier _ (State.vecUpdate_crier _ _ (CrierOnly.refl.wr _ _ _ rfl))

/-! ## Readings after an event -/

variable (s) (e : Ev) (l d p : Nat)

@[simp] theorem State.rd_raise_glb (x : GlbF) (i : Nat) : (s.raise e l d p).rd (.glb x) i = s.rd (.glb x) i :=
  (s.raise_crier e l d p).rd _ _ rfl

@[simp] theorem State.rd_raise_bell (x : BellF) (i : Nat) : (s.raise e l d p).rd (.bell x) i = s.rd (.bell x) i :=
  (s.raise_crier e l d p).rd _ _ rfl

@[simp] theorem State.rd_raise_sel (x : SelF) (i : Nat) : (s.raise e l d p).rd (.sel x) i = s.rd (.sel x) i :=
  (s.raise_crier e l d p).rd _ _ rfl

@[simp] theorem State.rd_raise_stamp (x : StampF) (i : Nat) : (s.raise e l d p).rd (.stamp x) i = s.rd (.stamp x) i :=
  (s.raise_crier e l d p).rd _ _ rfl

@[simp] theorem State.rd_raise_lane (x : LaneF) (i : Nat) : (s.raise e l d p).rd (.lane x) i = s.rd (.lane x) i :=
  (s.raise_crier e l d p).rd _ _ rfl

@[simp] theorem State.rd_raise_quad (x : QuadF) (i : Nat) : (s.raise e l d p).rd (.quad x) i = s.rd (.quad x) i :=
  (s.raise_crier e l d p).rd _ _ rfl

@[simp] theorem State.rd_raise_mod (x : ModF) (i : Nat) : (s.raise e l d p).rd (.mod x) i = s.rd (.mod x) i :=
  (s.raise_crier e l d p).rd _ _ rfl

@[simp] theorem State.rd_raise_surv (x : SurvF) (i : Nat) : (s.raise e l d p).rd (.surv x) i = s.rd (.surv x) i :=
  (s.raise_crier e l d p).rd _ _ rfl

@[simp] theorem State.rd_raise_port (x : PortF) (i : Nat) : (s.raise e l d p).rd (.port x) i = s.rd (.port x) i :=
  (s.raise_crier e l d p).rd _ _ rfl

@[simp] theorem State.rd_raise_core (x : CoreF) (i : Nat) : (s.raise e l d p).rd (.core x) i = s.rd (.core x) i :=
  (s.raise_crier e l d p).rd _ _ rfl

@[simp] theorem State.rd_raise_pool (x : PoolF) (i : Nat) : (s.raise e l d p).rd (.pool x) i = s.rd (.pool x) i :=
  (s.raise_crier e l d p).rd _ _ rfl

@[simp] theorem State.rd_raise_cel (x : CelF) (i : Nat) : (s.raise e l d p).rd (.cel x) i = s.rd (.cel x) i :=
  (s.raise_crier e l d p).rd _ _ rfl

@[simp] theorem State.rd_raise_eng (x : EngF) (i : Nat) : (s.raise e l d p).rd (.eng x) i = s.rd (.eng x) i :=
  (s.raise_crier e l d p).rd _ _ rfl

@[simp] theorem State.rd_raise_gth (x : GthF) (i : Nat) : (s.raise e l d p).rd (.gth x) i = s.rd (.gth x) i :=
  (s.raise_crier e l d p).rd _ _ rfl

@[simp] theorem State.rd_raise_tal (x : TalF) (i : Nat) : (s.raise e l d p).rd (.tal x) i = s.rd (.tal x) i :=
  (s.raise_crier e l d p).rd _ _ rfl

@[simp] theorem State.rd_raise_ree (x : ReeF) (i : Nat) : (s.raise e l d p).rd (.ree x) i = s.rd (.ree x) i :=
  (s.raise_crier e l d p).rd _ _ rfl

@[simp] theorem State.rd_raise_wgh (x : WghF) (i : Nat) : (s.raise e l d p).rd (.wgh x) i = s.rd (.wgh x) i :=
  (s.raise_crier e l d p).rd _ _ rfl

@[simp] theorem State.rd_raise_hrt (x : HrtF) (i : Nat) : (s.raise e l d p).rd (.hrt x) i = s.rd (.hrt x) i :=
  (s.raise_crier e l d p).rd _ _ rfl

@[simp] theorem State.rd_raise_twn (x : TwnF) (i : Nat) : (s.raise e l d p).rd (.twn x) i = s.rd (.twn x) i :=
  (s.raise_crier e l d p).rd _ _ rfl

@[simp] theorem State.on_raise_glb (x : GlbF) (i : Nat) : (s.raise e l d p).on (.glb x) i = s.on (.glb x) i := by
  simp only [State.on, State.rd_raise_glb]

@[simp] theorem State.on_raise_bell (x : BellF) (i : Nat) : (s.raise e l d p).on (.bell x) i = s.on (.bell x) i := by
  simp only [State.on, State.rd_raise_bell]

@[simp] theorem State.on_raise_sel (x : SelF) (i : Nat) : (s.raise e l d p).on (.sel x) i = s.on (.sel x) i := by
  simp only [State.on, State.rd_raise_sel]

@[simp] theorem State.on_raise_stamp (x : StampF) (i : Nat) : (s.raise e l d p).on (.stamp x) i = s.on (.stamp x) i := by
  simp only [State.on, State.rd_raise_stamp]

@[simp] theorem State.on_raise_lane (x : LaneF) (i : Nat) : (s.raise e l d p).on (.lane x) i = s.on (.lane x) i := by
  simp only [State.on, State.rd_raise_lane]

@[simp] theorem State.on_raise_quad (x : QuadF) (i : Nat) : (s.raise e l d p).on (.quad x) i = s.on (.quad x) i := by
  simp only [State.on, State.rd_raise_quad]

@[simp] theorem State.on_raise_mod (x : ModF) (i : Nat) : (s.raise e l d p).on (.mod x) i = s.on (.mod x) i := by
  simp only [State.on, State.rd_raise_mod]

@[simp] theorem State.on_raise_surv (x : SurvF) (i : Nat) : (s.raise e l d p).on (.surv x) i = s.on (.surv x) i := by
  simp only [State.on, State.rd_raise_surv]

@[simp] theorem State.on_raise_port (x : PortF) (i : Nat) : (s.raise e l d p).on (.port x) i = s.on (.port x) i := by
  simp only [State.on, State.rd_raise_port]

@[simp] theorem State.on_raise_core (x : CoreF) (i : Nat) : (s.raise e l d p).on (.core x) i = s.on (.core x) i := by
  simp only [State.on, State.rd_raise_core]

@[simp] theorem State.on_raise_pool (x : PoolF) (i : Nat) : (s.raise e l d p).on (.pool x) i = s.on (.pool x) i := by
  simp only [State.on, State.rd_raise_pool]

@[simp] theorem State.on_raise_cel (x : CelF) (i : Nat) : (s.raise e l d p).on (.cel x) i = s.on (.cel x) i := by
  simp only [State.on, State.rd_raise_cel]

@[simp] theorem State.on_raise_eng (x : EngF) (i : Nat) : (s.raise e l d p).on (.eng x) i = s.on (.eng x) i := by
  simp only [State.on, State.rd_raise_eng]

@[simp] theorem State.on_raise_gth (x : GthF) (i : Nat) : (s.raise e l d p).on (.gth x) i = s.on (.gth x) i := by
  simp only [State.on, State.rd_raise_gth]

@[simp] theorem State.on_raise_tal (x : TalF) (i : Nat) : (s.raise e l d p).on (.tal x) i = s.on (.tal x) i := by
  simp only [State.on, State.rd_raise_tal]

@[simp] theorem State.on_raise_ree (x : ReeF) (i : Nat) : (s.raise e l d p).on (.ree x) i = s.on (.ree x) i := by
  simp only [State.on, State.rd_raise_ree]

@[simp] theorem State.on_raise_wgh (x : WghF) (i : Nat) : (s.raise e l d p).on (.wgh x) i = s.on (.wgh x) i := by
  simp only [State.on, State.rd_raise_wgh]

@[simp] theorem State.on_raise_hrt (x : HrtF) (i : Nat) : (s.raise e l d p).on (.hrt x) i = s.on (.hrt x) i := by
  simp only [State.on, State.rd_raise_hrt]

@[simp] theorem State.on_raise_twn (x : TwnF) (i : Nat) : (s.raise e l d p).on (.twn x) i = s.on (.twn x) i := by
  simp only [State.on, State.rd_raise_twn]

theorem State.h_raise (x : Hid) (i : Nat) (m : x ∉ crierHids) : (s.raise e l d p).h x i = s.h x i :=
  (s.raise_crier e l d p).h _ _ m

theorem State.byte_raise (r : Region) (a : Nat) (m : r ≠ .host) : (s.raise e l d p).byte r a = s.byte r a :=
  (s.raise_crier e l d p).byte _ _ m

@[simp] theorem State.domState_raise (x : Dom) : (s.raise e l d p).domState x = s.domState x := by
  simp only [State.domState, State.rd_raise_hrt]

@[simp] theorem State.domOn_raise (x : Dom) : (s.raise e l d p).domOn x = s.domOn x := by
  simp only [State.domOn, State.domState_raise]

@[simp] theorem State.variant_raise : (s.raise e l d p).variant = s.variant := by
  have h := congrArg State.variant (s.raise_crier e l d p).others
  exact h

@[simp] theorem State.applied_raise : (s.raise e l d p).applied = s.applied := by
  have h := congrArg State.applied (s.raise_crier e l d p).others
  exact h

@[simp] theorem State.prev_raise : (s.raise e l d p).prev = s.prev := by
  have h := congrArg State.prev (s.raise_crier e l d p).others
  exact h

@[simp] theorem State.now_raise : (s.raise e l d p).now = s.now := by
  have h := congrArg State.now (s.raise_crier e l d p).others
  exact h

@[simp] theorem State.coarse_raise : (s.raise e l d p).coarse = s.coarse := by
  have h := congrArg State.coarse (s.raise_crier e l d p).others
  exact h

@[simp] theorem State.age_raise : (s.raise e l d p).age = s.age := by
  have h := congrArg State.age (s.raise_crier e l d p).others
  exact h

@[simp] theorem State.hist_raise : (s.raise e l d p).hist = s.hist := by
  have h := congrArg State.hist (s.raise_crier e l d p).others
  exact h

@[simp] theorem State.y4096_raise : (s.raise e l d p).y4096 = s.y4096 := by
  have h := congrArg State.y4096 (s.raise_crier e l d p).others
  exact h

@[simp] theorem State.meas_raise : (s.raise e l d p).meas = s.meas := by
  have h := congrArg State.meas (s.raise_crier e l d p).others
  exact h

@[simp] theorem State.measPrev_raise : (s.raise e l d p).measPrev = s.measPrev := by
  have h := congrArg State.measPrev (s.raise_crier e l d p).others
  exact h

@[simp] theorem State.refused_raise : (s.raise e l d p).refused = s.refused := by
  have h := congrArg State.refused (s.raise_crier e l d p).others
  exact h

@[simp] theorem State.caps_raise : (s.raise e l d p).caps = s.caps := by
  have h := congrArg State.caps (s.raise_crier e l d p).others
  exact h

@[simp] theorem State.latch_raise : (s.raise e l d p).latch = s.latch := by
  have h := congrArg State.latch (s.raise_crier e l d p).others
  exact h

@[simp] theorem State.hold_raise : (s.raise e l d p).hold = s.hold := by
  have h := congrArg State.hold (s.raise_crier e l d p).others
  exact h

@[simp] theorem State.resp_raise : (s.raise e l d p).resp = s.resp := by
  have h := congrArg State.resp (s.raise_crier e l d p).others
  exact h

@[simp] theorem State.freeN_raise : (s.raise e l d p).freeN = s.freeN := by
  have h := congrArg State.freeN (s.raise_crier e l d p).others
  exact h

@[simp] theorem State.archive_raise : (s.raise e l d p).archive = s.archive := by
  have h := congrArg State.archive (s.raise_crier e l d p).others
  exact h

@[simp] theorem State.treg_raise : (s.raise e l d p).treg = s.treg := by
  have h := congrArg State.treg (s.raise_crier e l d p).others
  exact h

@[simp] theorem State.bufs_raise : (s.raise e l d p).bufs = s.bufs := by
  have h := congrArg State.bufs (s.raise_crier e l d p).others
  exact h

@[simp] theorem State.queues_raise : (s.raise e l d p).queues = s.queues := by
  have h := congrArg State.queues (s.raise_crier e l d p).others
  exact h

@[simp] theorem State.eqs_raise : (s.raise e l d p).eqs = s.eqs := by
  have h := congrArg State.eqs (s.raise_crier e l d p).others
  exact h

@[simp] theorem State.hostq_raise : (s.raise e l d p).hostq = s.hostq := by
  have h := congrArg State.hostq (s.raise_crier e l d p).others
  exact h

@[simp] theorem State.hatches_raise : (s.raise e l d p).hatches = s.hatches := by
  have h := congrArg State.hatches (s.raise_crier e l d p).others
  exact h

@[simp] theorem State.emits_raise : (s.raise e l d p).emits = s.emits := by
  have h := congrArg State.emits (s.raise_crier e l d p).others
  exact h

@[simp] theorem State.bins_raise : (s.raise e l d p).bins = s.bins := by
  have h := congrArg State.bins (s.raise_crier e l d p).others
  exact h

@[simp] theorem State.gq_raise : (s.raise e l d p).gq = s.gq := by
  have h := congrArg State.gq (s.raise_crier e l d p).others
  exact h

@[simp] theorem State.gin_raise : (s.raise e l d p).gin = s.gin := by
  have h := congrArg State.gin (s.raise_crier e l d p).others
  exact h

@[simp] theorem State.gouts_raise : (s.raise e l d p).gouts = s.gouts := by
  have h := congrArg State.gouts (s.raise_crier e l d p).others
  exact h

@[simp] theorem State.rx_raise : (s.raise e l d p).rx = s.rx := by
  have h := congrArg State.rx (s.raise_crier e l d p).others
  exact h

@[simp] theorem State.tx_raise : (s.raise e l d p).tx = s.tx := by
  have h := congrArg State.tx (s.raise_crier e l d p).others
  exact h

@[simp] theorem State.ctl_raise : (s.raise e l d p).ctl = s.ctl := by
  have h := congrArg State.ctl (s.raise_crier e l d p).others
  exact h

@[simp] theorem State.tracks_raise : (s.raise e l d p).tracks = s.tracks := by
  have h := congrArg State.tracks (s.raise_crier e l d p).others
  exact h

@[simp] theorem State.obs_raise : (s.raise e l d p).obs = s.obs := by
  have h := congrArg State.obs (s.raise_crier e l d p).others
  exact h

@[simp] theorem State.rtLog_raise : (s.raise e l d p).rtLog = s.rtLog := by
  have h := congrArg State.rtLog (s.raise_crier e l d p).others
  exact h

@[simp] theorem State.twl_raise : (s.raise e l d p).twl = s.twl := by
  have h := congrArg State.twl (s.raise_crier e l d p).others
  exact h

@[simp] theorem State.twTx_raise : (s.raise e l d p).twTx = s.twTx := by
  have h := congrArg State.twTx (s.raise_crier e l d p).others
  exact h

@[simp] theorem State.wslots_raise : (s.raise e l d p).wslots = s.wslots := by
  have h := congrArg State.wslots (s.raise_crier e l d p).others
  exact h

@[simp] theorem State.wlast_raise : (s.raise e l d p).wlast = s.wlast := by
  have h := congrArg State.wlast (s.raise_crier e l d p).others
  exact h

@[simp] theorem State.wqueue_raise : (s.raise e l d p).wqueue = s.wqueue := by
  have h := congrArg State.wqueue (s.raise_crier e l d p).others
  exact h

@[simp] theorem State.ctx_raise : (s.raise e l d p).ctx = s.ctx := by
  have h := congrArg State.ctx (s.raise_crier e l d p).others
  exact h

@[simp] theorem State.lkp_raise : (s.raise e l d p).lkp = s.lkp := by
  have h := congrArg State.lkp (s.raise_crier e l d p).others
  exact h

@[simp] theorem State.cache_raise : (s.raise e l d p).cache = s.cache := by
  have h := congrArg State.cache (s.raise_crier e l d p).others
  exact h

@[simp] theorem State.pending_raise : (s.raise e l d p).pending = s.pending := by
  have h := congrArg State.pending (s.raise_crier e l d p).others
  exact h

@[simp] theorem State.rdA_raise (f : Fld) (i : Nat) : (s.raise e l d p).rdA f i = s.rdA f i := by
  simp only [State.rdA, State.applied_raise, State.variant_raise]

@[simp] theorem State.tr_raise (c n : Nat) : (s.raise e l d p).tr c n = s.tr c n := by
  simp only [State.tr, State.treg_raise]

/-! ## Readings after a Ledger entry -/

variable (c : Nat) (b : Bool) (q : LedSrc)

/-- Fields that a Ledger entry may change. -/
def ledgerFlds : List Fld := [.ree .RING_ENTRY, .ree .LEDGER_HEAD, .ree .LEDGER_SEQ, .ree .ARCH_WRAP]

/-- A state without what a Ledger entry may change. -/
def State.sansLedger (s : State) : State := { s with regs := [], hid := [], archive := [] }

/-- Nothing changes from `s` to `t` but what the Ledger holds. -/
structure LedgerOnly (s t : State) : Prop where
  others : t.sansLedger = s.sansLedger
  rd : ∀ f i, f ∉ ledgerFlds → t.rd f i = s.rd f i
  h : ∀ x i, x ≠ .archCount → t.h x i = s.h x i

theorem LedgerOnly.wr {s t : State} (f : Fld) (i v : Nat) (m : f ∈ ledgerFlds) (a : LedgerOnly s t) : LedgerOnly s (t.wr f i v) :=
  ⟨a.others, fun g j k => by rw [State.rd_wr, if_neg (fun e => k (by rw [e.1]; exact m))]; exact a.rd g j k, a.h⟩

theorem LedgerOnly.archive {s t : State} (x : List (Nat × Nat)) (v : Nat) (a : LedgerOnly s t) :
    LedgerOnly s (State.setH { t with archive := x } .archCount 0 v) :=
  ⟨a.others, a.rd, fun y j k => by rw [State.h_setH, if_neg (fun e => k e.1)]; exact a.h y j k⟩

/-- A Ledger entry changes nothing but the Ledger. -/
theorem State.ledger_only : LedgerOnly s (s.ledger c b l d q) := by
  unfold State.ledger
  dsimp only
  have a : LedgerOnly s s := ⟨rfl, fun _ _ _ => rfl, fun _ _ _ => rfl⟩
  split
  · split
    · exact ((((a.wr _ _ _ (by decide)).wr _ _ _ (by decide)).wr _ _ _ (by decide)).archive _ _)
    · exact ((((a.wr _ _ _ (by decide)).wr _ _ _ (by decide)).wr _ _ _ (by decide)).archive _ _).wr _ _ _ (by decide)
  · exact (((a.wr _ _ _ (by decide)).wr _ _ _ (by decide)).wr _ _ _ (by decide))

theorem State.rd_ledger (f : Fld) (i : Nat) (m : f ∉ ledgerFlds) : (s.ledger c b l d q).rd f i = s.rd f i :=
  (s.ledger_only l d c b q).rd f i m

@[simp] theorem State.rd_ledger_glb (x : GlbF) (i : Nat) : (s.ledger c b l d q).rd (.glb x) i = s.rd (.glb x) i :=
  s.rd_ledger l d c b q _ _ (by simp [ledgerFlds])

@[simp] theorem State.rd_ledger_bell (x : BellF) (i : Nat) : (s.ledger c b l d q).rd (.bell x) i = s.rd (.bell x) i :=
  s.rd_ledger l d c b q _ _ (by simp [ledgerFlds])

@[simp] theorem State.rd_ledger_sel (x : SelF) (i : Nat) : (s.ledger c b l d q).rd (.sel x) i = s.rd (.sel x) i :=
  s.rd_ledger l d c b q _ _ (by simp [ledgerFlds])

@[simp] theorem State.rd_ledger_stamp (x : StampF) (i : Nat) : (s.ledger c b l d q).rd (.stamp x) i = s.rd (.stamp x) i :=
  s.rd_ledger l d c b q _ _ (by simp [ledgerFlds])

@[simp] theorem State.rd_ledger_lane (x : LaneF) (i : Nat) : (s.ledger c b l d q).rd (.lane x) i = s.rd (.lane x) i :=
  s.rd_ledger l d c b q _ _ (by simp [ledgerFlds])

@[simp] theorem State.rd_ledger_quad (x : QuadF) (i : Nat) : (s.ledger c b l d q).rd (.quad x) i = s.rd (.quad x) i :=
  s.rd_ledger l d c b q _ _ (by simp [ledgerFlds])

@[simp] theorem State.rd_ledger_mod (x : ModF) (i : Nat) : (s.ledger c b l d q).rd (.mod x) i = s.rd (.mod x) i :=
  s.rd_ledger l d c b q _ _ (by simp [ledgerFlds])

@[simp] theorem State.rd_ledger_surv (x : SurvF) (i : Nat) : (s.ledger c b l d q).rd (.surv x) i = s.rd (.surv x) i :=
  s.rd_ledger l d c b q _ _ (by simp [ledgerFlds])

@[simp] theorem State.rd_ledger_port (x : PortF) (i : Nat) : (s.ledger c b l d q).rd (.port x) i = s.rd (.port x) i :=
  s.rd_ledger l d c b q _ _ (by simp [ledgerFlds])

@[simp] theorem State.rd_ledger_core (x : CoreF) (i : Nat) : (s.ledger c b l d q).rd (.core x) i = s.rd (.core x) i :=
  s.rd_ledger l d c b q _ _ (by simp [ledgerFlds])

@[simp] theorem State.rd_ledger_pool (x : PoolF) (i : Nat) : (s.ledger c b l d q).rd (.pool x) i = s.rd (.pool x) i :=
  s.rd_ledger l d c b q _ _ (by simp [ledgerFlds])

@[simp] theorem State.rd_ledger_cel (x : CelF) (i : Nat) : (s.ledger c b l d q).rd (.cel x) i = s.rd (.cel x) i :=
  s.rd_ledger l d c b q _ _ (by simp [ledgerFlds])

@[simp] theorem State.rd_ledger_eng (x : EngF) (i : Nat) : (s.ledger c b l d q).rd (.eng x) i = s.rd (.eng x) i :=
  s.rd_ledger l d c b q _ _ (by simp [ledgerFlds])

@[simp] theorem State.rd_ledger_gth (x : GthF) (i : Nat) : (s.ledger c b l d q).rd (.gth x) i = s.rd (.gth x) i :=
  s.rd_ledger l d c b q _ _ (by simp [ledgerFlds])

@[simp] theorem State.rd_ledger_tal (x : TalF) (i : Nat) : (s.ledger c b l d q).rd (.tal x) i = s.rd (.tal x) i :=
  s.rd_ledger l d c b q _ _ (by simp [ledgerFlds])

@[simp] theorem State.rd_ledger_wgh (x : WghF) (i : Nat) : (s.ledger c b l d q).rd (.wgh x) i = s.rd (.wgh x) i :=
  s.rd_ledger l d c b q _ _ (by simp [ledgerFlds])

@[simp] theorem State.rd_ledger_hrt (x : HrtF) (i : Nat) : (s.ledger c b l d q).rd (.hrt x) i = s.rd (.hrt x) i :=
  s.rd_ledger l d c b q _ _ (by simp [ledgerFlds])

@[simp] theorem State.rd_ledger_twn (x : TwnF) (i : Nat) : (s.ledger c b l d q).rd (.twn x) i = s.rd (.twn x) i :=
  s.rd_ledger l d c b q _ _ (by simp [ledgerFlds])

@[simp] theorem State.rd_ledger_cri (x : CriF) (i : Nat) : (s.ledger c b l d q).rd (.cri x) i = s.rd (.cri x) i :=
  s.rd_ledger l d c b q _ _ (by simp [ledgerFlds])

theorem State.h_ledger (x : Hid) (i : Nat) (m : x ≠ .archCount) : (s.ledger c b l d q).h x i = s.h x i :=
  (s.ledger_only l d c b q).h _ _ m

@[simp] theorem State.byte_ledger (r : Region) (a : Nat) : (s.ledger c b l d q).byte r a = s.byte r a := by
  have h := congrArg State.mem (s.ledger_only l d c b q).others
  have h2 : (s.ledger c b l d q).mem = s.mem := h
  simp only [State.byte, h2]

@[simp] theorem State.domState_ledger (x : Dom) : (s.ledger c b l d q).domState x = s.domState x := by
  simp only [State.domState, State.rd_ledger_hrt]

@[simp] theorem State.domOn_ledger (x : Dom) : (s.ledger c b l d q).domOn x = s.domOn x := by
  simp only [State.domOn, State.domState_ledger]

@[simp] theorem State.variant_ledger : (s.ledger c b l d q).variant = s.variant := by
  have h := congrArg State.variant (s.ledger_only l d c b q).others
  exact h

@[simp] theorem State.applied_ledger : (s.ledger c b l d q).applied = s.applied := by
  have h := congrArg State.applied (s.ledger_only l d c b q).others
  exact h

@[simp] theorem State.prev_ledger : (s.ledger c b l d q).prev = s.prev := by
  have h := congrArg State.prev (s.ledger_only l d c b q).others
  exact h

@[simp] theorem State.now_ledger : (s.ledger c b l d q).now = s.now := by
  have h := congrArg State.now (s.ledger_only l d c b q).others
  exact h

@[simp] theorem State.coarse_ledger : (s.ledger c b l d q).coarse = s.coarse := by
  have h := congrArg State.coarse (s.ledger_only l d c b q).others
  exact h

@[simp] theorem State.age_ledger : (s.ledger c b l d q).age = s.age := by
  have h := congrArg State.age (s.ledger_only l d c b q).others
  exact h

@[simp] theorem State.hist_ledger : (s.ledger c b l d q).hist = s.hist := by
  have h := congrArg State.hist (s.ledger_only l d c b q).others
  exact h

@[simp] theorem State.y4096_ledger : (s.ledger c b l d q).y4096 = s.y4096 := by
  have h := congrArg State.y4096 (s.ledger_only l d c b q).others
  exact h

@[simp] theorem State.meas_ledger : (s.ledger c b l d q).meas = s.meas := by
  have h := congrArg State.meas (s.ledger_only l d c b q).others
  exact h

@[simp] theorem State.measPrev_ledger : (s.ledger c b l d q).measPrev = s.measPrev := by
  have h := congrArg State.measPrev (s.ledger_only l d c b q).others
  exact h

@[simp] theorem State.refused_ledger : (s.ledger c b l d q).refused = s.refused := by
  have h := congrArg State.refused (s.ledger_only l d c b q).others
  exact h

@[simp] theorem State.caps_ledger : (s.ledger c b l d q).caps = s.caps := by
  have h := congrArg State.caps (s.ledger_only l d c b q).others
  exact h

@[simp] theorem State.latch_ledger : (s.ledger c b l d q).latch = s.latch := by
  have h := congrArg State.latch (s.ledger_only l d c b q).others
  exact h

@[simp] theorem State.hold_ledger : (s.ledger c b l d q).hold = s.hold := by
  have h := congrArg State.hold (s.ledger_only l d c b q).others
  exact h

@[simp] theorem State.resp_ledger : (s.ledger c b l d q).resp = s.resp := by
  have h := congrArg State.resp (s.ledger_only l d c b q).others
  exact h

@[simp] theorem State.freeN_ledger : (s.ledger c b l d q).freeN = s.freeN := by
  have h := congrArg State.freeN (s.ledger_only l d c b q).others
  exact h

@[simp] theorem State.treg_ledger : (s.ledger c b l d q).treg = s.treg := by
  have h := congrArg State.treg (s.ledger_only l d c b q).others
  exact h

@[simp] theorem State.bufs_ledger : (s.ledger c b l d q).bufs = s.bufs := by
  have h := congrArg State.bufs (s.ledger_only l d c b q).others
  exact h

@[simp] theorem State.queues_ledger : (s.ledger c b l d q).queues = s.queues := by
  have h := congrArg State.queues (s.ledger_only l d c b q).others
  exact h

@[simp] theorem State.eqs_ledger : (s.ledger c b l d q).eqs = s.eqs := by
  have h := congrArg State.eqs (s.ledger_only l d c b q).others
  exact h

@[simp] theorem State.hostq_ledger : (s.ledger c b l d q).hostq = s.hostq := by
  have h := congrArg State.hostq (s.ledger_only l d c b q).others
  exact h

@[simp] theorem State.hatches_ledger : (s.ledger c b l d q).hatches = s.hatches := by
  have h := congrArg State.hatches (s.ledger_only l d c b q).others
  exact h

@[simp] theorem State.emits_ledger : (s.ledger c b l d q).emits = s.emits := by
  have h := congrArg State.emits (s.ledger_only l d c b q).others
  exact h

@[simp] theorem State.bins_ledger : (s.ledger c b l d q).bins = s.bins := by
  have h := congrArg State.bins (s.ledger_only l d c b q).others
  exact h

@[simp] theorem State.gq_ledger : (s.ledger c b l d q).gq = s.gq := by
  have h := congrArg State.gq (s.ledger_only l d c b q).others
  exact h

@[simp] theorem State.gin_ledger : (s.ledger c b l d q).gin = s.gin := by
  have h := congrArg State.gin (s.ledger_only l d c b q).others
  exact h

@[simp] theorem State.gouts_ledger : (s.ledger c b l d q).gouts = s.gouts := by
  have h := congrArg State.gouts (s.ledger_only l d c b q).others
  exact h

@[simp] theorem State.rx_ledger : (s.ledger c b l d q).rx = s.rx := by
  have h := congrArg State.rx (s.ledger_only l d c b q).others
  exact h

@[simp] theorem State.tx_ledger : (s.ledger c b l d q).tx = s.tx := by
  have h := congrArg State.tx (s.ledger_only l d c b q).others
  exact h

@[simp] theorem State.ctl_ledger : (s.ledger c b l d q).ctl = s.ctl := by
  have h := congrArg State.ctl (s.ledger_only l d c b q).others
  exact h

@[simp] theorem State.tracks_ledger : (s.ledger c b l d q).tracks = s.tracks := by
  have h := congrArg State.tracks (s.ledger_only l d c b q).others
  exact h

@[simp] theorem State.obs_ledger : (s.ledger c b l d q).obs = s.obs := by
  have h := congrArg State.obs (s.ledger_only l d c b q).others
  exact h

@[simp] theorem State.rtLog_ledger : (s.ledger c b l d q).rtLog = s.rtLog := by
  have h := congrArg State.rtLog (s.ledger_only l d c b q).others
  exact h

@[simp] theorem State.twl_ledger : (s.ledger c b l d q).twl = s.twl := by
  have h := congrArg State.twl (s.ledger_only l d c b q).others
  exact h

@[simp] theorem State.twTx_ledger : (s.ledger c b l d q).twTx = s.twTx := by
  have h := congrArg State.twTx (s.ledger_only l d c b q).others
  exact h

@[simp] theorem State.wslots_ledger : (s.ledger c b l d q).wslots = s.wslots := by
  have h := congrArg State.wslots (s.ledger_only l d c b q).others
  exact h

@[simp] theorem State.wlast_ledger : (s.ledger c b l d q).wlast = s.wlast := by
  have h := congrArg State.wlast (s.ledger_only l d c b q).others
  exact h

@[simp] theorem State.wqueue_ledger : (s.ledger c b l d q).wqueue = s.wqueue := by
  have h := congrArg State.wqueue (s.ledger_only l d c b q).others
  exact h

@[simp] theorem State.ctx_ledger : (s.ledger c b l d q).ctx = s.ctx := by
  have h := congrArg State.ctx (s.ledger_only l d c b q).others
  exact h

@[simp] theorem State.lkp_ledger : (s.ledger c b l d q).lkp = s.lkp := by
  have h := congrArg State.lkp (s.ledger_only l d c b q).others
  exact h

@[simp] theorem State.cache_ledger : (s.ledger c b l d q).cache = s.cache := by
  have h := congrArg State.cache (s.ledger_only l d c b q).others
  exact h

@[simp] theorem State.pending_ledger : (s.ledger c b l d q).pending = s.pending := by
  have h := congrArg State.pending (s.ledger_only l d c b q).others
  exact h

@[simp] theorem State.rfifo_ledger : (s.ledger c b l d q).rfifo = s.rfifo := by
  have h := congrArg State.rfifo (s.ledger_only l d c b q).others
  exact h

@[simp] theorem State.held_ledger : (s.ledger c b l d q).held = s.held := by
  have h := congrArg State.held (s.ledger_only l d c b q).others
  exact h

@[simp] theorem State.mem_ledger : (s.ledger c b l d q).mem = s.mem := by
  have h := congrArg State.mem (s.ledger_only l d c b q).others
  exact h

end Sys2Proof.Machine
end

/-! What the Crier's latches, FOLD counts and record FIFO show after an event is raised (R513, R519). -/

namespace Sys2Proof.Machine

/-! ## Every source has its latch -/

/-- A device source has a bit in the 128 of CRI.LATCH (R508). -/
theorem Ev.dev_lt {e : Ev} {n : Nat} (h : e.src.1 = .dev n) : n < 128 := by
  cases e <;> cases h <;> decide

/-- A port source has a bit in the 24 of CRI.PORT_LATCH (R508). -/
theorem Ev.port_lt {e : Ev} {k : Nat} (h : e.src.1 = .port k) : k < 24 := by
  cases e <;> cases h <;> decide

/-- Writing a wide field with bit `k` set leaves the bits that were set, and sets `k` where the field has it. -/
theorem State.bit_setBitF (s : State) (f : Fld) (i k j : Nat) (hj : j < f.desc.width) :
    bit j ((s.setBitF f i k).rd f i) = (bit j (s.rd f i) || decide (j = k)) := by
  simp [State.setBitF, bit_trunc, hj]

/-! ## What latching and the ring leave alone -/

/-- The Crier's registers that latching a device source and the event ring write. -/
def latchFlds : List Fld := [.cri .LATCH, .cri .FOLD, .cri .RING_LOST, .cri .RING_HEAD]

/-- From `s` to `t` the record FIFO is untouched, no register but those of `latchFlds` changes, and no LATCH falls. -/
structure LatchStep (s t : State) : Prop where
  fifo : t.rfifo = s.rfifo
  rd : ∀ f i, f ∉ latchFlds → t.rd f i = s.rd f i
  latch : ∀ k, k < 128 → bit k (s.rd (.cri .LATCH) 0) = true → bit k (t.rd (.cri .LATCH) 0) = true

variable {s t : State}

theorem LatchStep.refl : LatchStep s s := ⟨rfl, fun _ _ _ => rfl, fun _ _ h => h⟩

theorem LatchStep.setH (x : Hid) (i v : Nat) (a : LatchStep s t) : LatchStep s (t.setH x i v) :=
  ⟨a.fifo, a.rd, a.latch⟩

theorem LatchStep.setBytes (r : Region) (p : Nat) (l : List Byte) (a : LatchStep s t) : LatchStep s (t.setBytes r p l) := by
  induction l generalizing t p with
  | nil => exact a
  | cons b l ih => exact ih (t := t.setByte r p b) (p + 1) ⟨a.fifo, a.rd, a.latch⟩

/-- A write of a register of `latchFlds` other than LATCH. -/
theorem LatchStep.wr (f : Fld) (i v : Nat) (m : f ∈ latchFlds) (hf : .cri .LATCH ≠ f) (a : LatchStep s t) :
    LatchStep s (t.wr f i v) where
  fifo := a.fifo
  rd g j hg := by
    have ne : ¬ (g = f ∧ j = i) := fun e => hg (by rw [e.1]; exact m)
    rw [State.rd_wr, if_neg ne]; exact a.rd g j hg
  latch k hk h := by
    rw [State.rd_wr, if_neg (fun e => hf e.1)]; exact a.latch k hk h

/-- One more LATCH set. -/
theorem LatchStep.setLatch (n : Nat) (a : LatchStep s t) : LatchStep s (t.setBitF (.cri .LATCH) 0 n) where
  fifo := a.fifo
  rd g j hg := by
    have ne : ¬ (g = .cri .LATCH ∧ j = 0) := fun e => hg (by rw [e.1]; decide)
    rw [State.setBitF, State.rd_wr, if_neg ne]; exact a.rd g j hg
  latch k hk h := by
    rw [State.bit_setBitF _ _ _ _ _ hk, a.latch k hk h]; rfl

theorem State.vecSend_latchStep (v : Nat) (a : LatchStep s t) : LatchStep s (t.vecSend v) := by
  unfold State.vecSend
  dsimp only
  split <;> split
  · exact a.setH ..
  · exact (a.setH ..).setH ..
  · exact a.setH ..
  · exact (a.setH ..).setH ..

/-- The vectors' messages and holds are no registers (R516). -/
theorem State.vecUpdate_latchStep (old : State) (v : Nat) (a : LatchStep s t) : LatchStep s (State.vecUpdate old t v) := by
  unfold State.vecUpdate
  split
  · split
    · exact a.setH ..
    · exact State.vecSend_latchStep v a
  · exact a

theorem State.latchDev_latchStep (n : Nat) (a : LatchStep s t) : LatchStep s (t.latchDev n) := by
  unfold State.latchDev
  split
  · split
    · exact a.wr _ _ _ (by decide) (by decide)
    · exact State.vecUpdate_latchStep _ _ (a.setLatch n)
  · exact a

/-- The event ring, also when full and raising CRI.RING_LOST (R518). -/
theorem State.ringPut_latchStep (r : EvRec) (a : LatchStep s t) : LatchStep s (t.ringPut r) := by
  unfold State.ringPut
  split
  · exact a
  · dsimp only
    split
    · exact State.latchDev_latchStep 3 ((a.wr _ _ _ (by decide) (by decide)).setH ..)
    · have taken := ((a.setBytes .host (t.rd (.cri .RING_RBASE) 0 + 32 * t.rd (.cri .RING_HEAD) 0)
        (r.toBytes (t.h .ringPhase == 1) (t.h .ringLostNext == 1))).setH .ringLostNext 0 0).wr (.cri .RING_HEAD) 0
        ((t.rd (.cri .RING_HEAD) 0 + 1) % 2 ^ t.rd (.cri .RING_SIZE) 0) (by decide) (by decide)
      split
      · exact taken.setH ..
      · exact taken

/-! ## The Reeve's record FIFO (R519) -/

variable (s : State) (r : EvRec)

theorem State.recPut_of_room (h : s.rfifo.length < 256) :
    s.recPut r = State.ringPut { s with rfifo := s.rfifo ++ [r] } r := by
  simp only [State.recPut, if_pos h]

theorem State.recPut_of_full (h : 256 ≤ s.rfifo.length) : s.recPut r = (s.count (.cri .RFIFO_LOST) 0).ringPut r := by
  simp only [State.recPut, if_neg (Nat.not_lt.2 h)]

theorem State.rfifo_recPut_of_room (h : s.rfifo.length < 256) : (s.recPut r).rfifo = s.rfifo ++ [r] := by
  rw [s.recPut_of_room r h]; exact (State.ringPut_latchStep r .refl).fifo

theorem State.rfifo_recPut_of_full (h : 256 ≤ s.rfifo.length) : (s.recPut r).rfifo = s.rfifo := by
  rw [s.recPut_of_full r h]; exact (State.ringPut_latchStep r .refl).fifo

theorem State.rfifoLost_recPut_of_full (h : 256 ≤ s.rfifo.length) :
    (s.recPut r).rd (.cri .RFIFO_LOST) 0 = satAdd 16 (s.rd (.cri .RFIFO_LOST) 0) 1 := by
  rw [s.recPut_of_full r h, (State.ringPut_latchStep r .refl).rd _ _ (by decide), State.count, State.rd_wr,
    if_pos ⟨rfl, rfl⟩]
  exact trunc_of_lt (satAdd_lt 16 _ _)

/-- A record writes no register but RFIFO_LOST and those of the ring. -/
theorem State.rd_recPut (f : Fld) (i : Nat) (m : f ∉ latchFlds) (hf : f ≠ .cri .RFIFO_LOST) :
    (s.recPut r).rd f i = s.rd f i := by
  rcases Nat.lt_or_ge s.rfifo.length 256 with room | full
  · rw [s.recPut_of_room r room]; exact (State.ringPut_latchStep r .refl).rd f i m
  · rw [s.recPut_of_full r full, (State.ringPut_latchStep r .refl).rd f i m, State.count, State.rd_wr,
      if_neg (fun e => hf e.1)]

/-- A record leaves every LATCH that is set. -/
theorem State.latch_recPut {k : Nat} (hk : k < 128) (h : bit k (s.rd (.cri .LATCH) 0) = true) :
    bit k ((s.recPut r).rd (.cri .LATCH) 0) = true := by
  rcases Nat.lt_or_ge s.rfifo.length 256 with room | full
  · rw [s.recPut_of_room r room]; exact (State.ringPut_latchStep r .refl).latch k hk h
  · rw [s.recPut_of_full r full]
    refine (State.ringPut_latchStep r .refl).latch k hk ?_
    rw [State.count, State.rd_wr, if_neg (by decide)]; exact h

/-! ## A device source's latch -/

variable {s} {n k : Nat}

theorem State.latchDev_of_set (en : bit n (s.rd (.cri .EN) 0) = true) (set : bit n (s.rd (.cri .LATCH) 0) = true) :
    s.latchDev n = s.wr (.cri .FOLD) (n / 4) (putBits (8 * (n % 4)) 8
      (satAdd 8 (bits (8 * (n % 4)) 8 (s.rd (.cri .FOLD) (n / 4))) 1) (s.rd (.cri .FOLD) (n / 4))) := by
  rw [State.latchDev, if_pos en, if_pos set]

theorem State.latch_latchDev_of_clear (hn : n < 128) (en : bit n (s.rd (.cri .EN) 0) = true)
    (clear : bit n (s.rd (.cri .LATCH) 0) = false) : bit n ((s.latchDev n).rd (.cri .LATCH) 0) = true := by
  rw [State.latchDev, if_pos en, if_neg (by simp [clear])]
  refine (State.vecUpdate_latchStep s _ .refl).latch n hn ?_
  rw [State.bit_setBitF _ _ _ _ _ hn]; simp

/-! ## The cases of a raise -/

variable {e : Ev} {l d p : Nat}

theorem State.raise_dev_of_disabled (src : e.src.1 = .dev n) (en : bit n (s.rd (.cri .EN) 0) = false) :
    s.raise e l d p = s := by
  simp [State.raise, src, en]

theorem State.raise_dev_of_set (src : e.src.1 = .dev n) (en : bit n (s.rd (.cri .EN) 0) = true)
    (up : s.domOn .reeve = true) (set : bit n (s.rd (.cri .LATCH) 0) = true) : s.raise e l d p = s.latchDev n := by
  simp [State.raise, src, en, up, set]

theorem State.raise_dev_of_clear (src : e.src.1 = .dev n) (en : bit n (s.rd (.cri .EN) 0) = true)
    (up : s.domOn .reeve = true) (clear : bit n (s.rd (.cri .LATCH) 0) = false) :
    s.raise e l d p = (s.latchDev n).recPut (s.mkRec e p l d) := by
  simp [State.raise, src, en, up, clear]

theorem State.raise_port_of_silent (src : e.src.1 = .port k)
    (off : s.domOn .reeve = false ∨ s.variant.hasPort p = false ∨ bit k (s.rd (.cri .PORT_EN) p) = false) :
    s.raise e l d p = s := by
  simp only [State.raise, src]
  exact if_pos (by simpa using off)

theorem State.raise_port_of_set (src : e.src.1 = .port k) (set : bit k (s.rd (.cri .PORT_LATCH) p) = true) :
    s.raise e l d p = s := by
  simp [State.raise, src, set]

theorem State.raise_port_of_clear (src : e.src.1 = .port k) (up : s.domOn .reeve = true)
    (port : s.variant.hasPort p = true) (en : bit k (s.rd (.cri .PORT_EN) p) = true)
    (clear : bit k (s.rd (.cri .PORT_LATCH) p) = false) :
    s.raise e l d p =
      (State.vecUpdate s (s.setBitF (.cri .PORT_LATCH) p k) (s.vecOfPort p)).recPut (s.mkRec e p l d) := by
  simp [State.raise, src, up, port, en, clear]

/-! ## A first raise -/

/-- The first raise of a device source latches it and writes one record, or counts it lost (R513, R519). -/
theorem State.raise_dev_first (src : e.src.1 = .dev n) (en : bit n (s.rd (.cri .EN) 0) = true)
    (up : s.domOn .reeve = true) (clear : bit n (s.rd (.cri .LATCH) 0) = false) :
    bit n ((s.raise e l d p).rd (.cri .LATCH) 0) = true ∧
    (s.rfifo.length < 256 → (s.raise e l d p).rfifo = s.rfifo ++ [s.mkRec e p l d]) ∧
    (256 ≤ s.rfifo.length → (s.raise e l d p).rfifo = s.rfifo ∧
      (s.raise e l d p).rd (.cri .RFIFO_LOST) 0 = satAdd 16 (s.rd (.cri .RFIFO_LOST) 0) 1) := by
  have hn : n < 128 := Ev.dev_lt src
  have latched : LatchStep s (s.latchDev n) := State.latchDev_latchStep n .refl
  rw [State.raise_dev_of_clear src en up clear, ← latched.fifo, ← latched.rd (.cri .RFIFO_LOST) 0 (by decide)]
  exact ⟨State.latch_recPut _ _ hn (State.latch_latchDev_of_clear hn en clear), State.rfifo_recPut_of_room _ _,
    fun full => ⟨State.rfifo_recPut_of_full _ _ full, State.rfifoLost_recPut_of_full _ _ full⟩⟩

/-- The first raise of a port's source latches it and writes one record (R513). -/
theorem State.raise_port_first (src : e.src.1 = .port k) (up : s.domOn .reeve = true)
    (port : s.variant.hasPort p = true) (en : bit k (s.rd (.cri .PORT_EN) p) = true)
    (clear : bit k (s.rd (.cri .PORT_LATCH) p) = false) :
    bit k ((s.raise e l d p).rd (.cri .PORT_LATCH) p) = true ∧
    (s.rfifo.length < 256 → (s.raise e l d p).rfifo = s.rfifo ++ [s.mkRec e p l d]) := by
  have vectors : LatchStep (s.setBitF (.cri .PORT_LATCH) p k) _ :=
    State.vecUpdate_latchStep s (s.vecOfPort p) .refl
  have fifo : (State.vecUpdate s (s.setBitF (.cri .PORT_LATCH) p k) (s.vecOfPort p)).rfifo = s.rfifo := vectors.fifo
  rw [State.raise_port_of_clear src up port en clear]
  constructor
  · rw [State.rd_recPut _ _ _ _ (by decide) (by decide), vectors.rd _ _ (by decide),
      State.bit_setBitF _ _ _ _ _ (Ev.port_lt src)]
    simp
  · rw [← fifo]; exact State.rfifo_recPut_of_room _ _

/-! ## A write of EN -/

/-- Accepted or refused, a write of EN touches no LATCH. -/
theorem State.latch_fieldSet_en (r : Req) (v : Nat) (s : State) :
    (s.fieldSet r (.cri .EN) 0 v).rd (.cri .LATCH) 0 = s.rd (.cri .LATCH) 0 := by
  have refused : s.fieldRefuse (.cri .EN) 0 = s.wr (.cri .RING_CFG_REFUSED) 0 1 := rfl
  have taken : State.fieldAfter s (s.wr (.cri .EN) 0 v) (.cri .EN) 0 = s.wr (.cri .EN) 0 v := rfl
  have plain : (Fld.cri .EN).desc.shadow = false := rfl
  unfold State.fieldSet
  split
  · rw [refused, State.rd_wr, if_neg (by decide)]
  · rw [plain, if_neg Bool.false_ne_true, taken, State.rd_wr, if_neg (by decide)]

/-- Settles O55, case by case of `State.raise`: the first raise goes through the latch, the record and the ring, none of
which undoes what the one before it did. -/
theorem raiseLatches : Obligations.RaiseLatches := by
  unfold Obligations.RaiseLatches
  refine ⟨?disabled, ?fold, ?first, ?portSilent, ?portSet, ?portFirst, ?writeEn⟩
  case disabled => exact fun _ _ _ _ _ _ => State.raise_dev_of_disabled
  case fold =>
    intro e n l d p s src en up set
    rw [State.raise_dev_of_set src en up set, State.latchDev_of_set en set]
    rfl
  case first => exact fun _ _ _ _ _ _ => State.raise_dev_first
  case portSilent => exact fun _ _ _ _ _ _ => State.raise_port_of_silent
  case portSet => exact fun _ _ _ _ _ _ src _ _ _ => State.raise_port_of_set src
  case portFirst => exact fun _ _ _ _ _ _ => State.raise_port_first
  case writeEn => exact State.latch_fieldSet_en

end Sys2Proof.Machine

/-! Marking and clearing the units of GLB_COMMIT_PEND (R99, R546). -/

namespace Sys2Proof.Machine

/-! ## Register writes that arrive -/

/-- A write by a requester that reaches the registers completes with its effect. -/
theorem State.writeTo_of_reaches {s : State} {r : Req} {g : Grp} {i : Nat} {gated : Bool} (reach : Reaches s r g i gated)
    (k : State → State) : s.writeTo r g i k gated = (k s).ok := by
  unfold State.writeTo
  rw [reach]

/-! ## Words of a mask of units -/

/-- Bit `n` of a mask lies in its word `n / 32`, at place `n % 32`. -/
theorem div_mod_32_iff (k j n : Nat) : (j < 32 ∧ j + 32 * k = n) ↔ (n / 32 = k ∧ n % 32 = j) := by omega

theorem bit_toNat (v : BitVec 32) (j : Nat) : bit j v.toNat = v.getLsbD j := by
  rw [bit_testBit, BitVec.testBit_toNat]

/-- A word at its place in a mask. -/
theorem bit_word (v : BitVec 32) (k n : Nat) :
    bit n (v.toNat * 2 ^ (32 * k)) = (decide (n / 32 = k) && v.getLsbD (n % 32)) := by
  rw [bit_testBit, Nat.testBit_mul_two_pow, BitVec.testBit_toNat]
  by_cases word : n / 32 = k
  · have place : n - 32 * k = n % 32 := by omega
    have low : 32 * k ≤ n := by omega
    simp [word, place, low]
  · by_cases low : 32 * k ≤ n
    · have beyond : v.getLsbD (n - 32 * k) = false := v.getLsbD_of_ge _ (by omega)
      simp [word, beyond]
    · simp [word, low]

/-- The units that a word of GLB_COMMIT_MARK names. -/
theorem mem_wordUnits (v : BitVec 32) (k n : Nat) :
    n ∈ (bitsOf 32 v.toNat).map (· + 32 * k) ↔ n / 32 = k ∧ v.getLsbD (n % 32) = true := by
  simp only [List.mem_map, mem_bitsOf, bit_toNat]
  constructor
  · rintro ⟨j, ⟨hj, set⟩, rfl⟩
    obtain ⟨word, place⟩ := (div_mod_32_iff k j _).1 ⟨hj, rfl⟩
    exact ⟨word, by rw [place]; exact set⟩
  · rintro ⟨word, set⟩
    obtain ⟨hj, sum⟩ := (div_mod_32_iff k _ n).2 ⟨word, rfl⟩
    exact ⟨n % 32, ⟨hj, set⟩, sum⟩

/-! ## What the three writes leave in GLB_COMMIT_PEND -/

/-- GLB_COMMIT_PEND holds 256 bits. -/
theorem State.bit_wr_commitPend (s : State) {n : Nat} (hn : n < 256) (m : Nat) :
    bit n ((s.wr (.glb .COMMIT_PEND) 0 m).rd (.glb .COMMIT_PEND) 0) = bit n m := by
  have width : (Fld.glb .COMMIT_PEND).desc.width = 256 := rfl
  simp [bit_trunc, width, hn]

/-- A written 1 clears its mark, and a written 0 leaves it (R546). -/
theorem State.bit_pendWrite (s : State) (k : Nat) (v : BitVec 32) {n : Nat} (hn : n < 256) :
    bit n ((s.pendWrite k v.toNat).rd (.glb .COMMIT_PEND) 0) =
      (bit n (s.rd (.glb .COMMIT_PEND) 0) && !(decide (n / 32 = k) && v.getLsbD (n % 32))) := by
  unfold State.pendWrite
  rw [State.bit_wr_commitPend _ hn, bit_and, bit_xor, bit_word]
  cases bit n (s.rd (.glb .COMMIT_PEND) 0) <;> simp

/-- The clear writes no other register, so every shadow stays (R546). -/
theorem State.pendWrite_frame (s : State) (k w : Nat) : Frame s (s.pendWrite k w) [(.glb .COMMIT_PEND, 0)] [] :=
  Frame.refl.wr _ _ _ (by decide)

/-- With the controller IDLE a word of GLB_COMMIT_MARK that is not 0 marks the present units it names (R99). -/
theorem State.bit_markWrite {s : State} (idle : s.cstate = 0) (k : Nat) {v : BitVec 32} (hv : v.toNat ≠ 0) {n : Nat}
    (hn : n < 222) :
    bit n ((s.markWrite k v.toNat).rd (.glb .COMMIT_PEND) 0) =
      (bit n (s.rd (.glb .COMMIT_PEND) 0) ||
        (decide (n / 32 = k) && v.getLsbD (n % 32) && unitPresent s.variant n)) := by
  unfold State.markWrite
  rw [if_neg hv, if_neg (not_not_intro idle), State.bit_wr_commitPend _ (by omega), bit_or, bit_maskOf]
  congr 1
  rw [Bool.eq_iff_iff]
  simp only [List.mem_filter, mem_wordUnits, Bool.and_eq_true, decide_eq_true_eq, hn, true_and]

/-- With the controller IDLE a mark writes no other register. -/
theorem State.markWrite_frame {s : State} (idle : s.cstate = 0) (k w : Nat) :
    Frame s (s.markWrite k w) [(.glb .COMMIT_PEND, 0)] [] := by
  unfold State.markWrite
  rw [if_neg (not_not_intro idle)]
  split
  · exact .refl
  · exact Frame.refl.wr _ _ _ (by decide)

/-- With the controller IDLE a shadow write that is accepted marks the shadow's unit (R99). -/
theorem State.bit_fieldSet_shadow {s : State} {r : Req} {f : Fld} {i new : Nat} (shadow : f.desc.shadow = true)
    (ok : s.fieldOk r f i new = true) (idle : s.cstate = 0) (unit : shadowUnit f i < 222) :
    bit (shadowUnit f i) ((s.fieldSet r f i new).rd (.glb .COMMIT_PEND) 0) = true := by
  have taken : s.fieldSet r f i new = (s.wr f i new).setBitF (.glb .COMMIT_PEND) 0 (shadowUnit f i) := by
    simp [State.fieldSet, State.shadowWrite, ok, shadow, idle]
  have place : shadowUnit f i < (Fld.glb .COMMIT_PEND).desc.width := Nat.lt_trans unit (by decide)
  rw [taken, State.bit_setBitF _ _ _ _ _ place]
  simp

/-- Settles O58: the three writes, by what each leaves in each bit of GLB_COMMIT_PEND. -/
theorem pendingMarkCleared : Obligations.PendingMarkCleared := by
  unfold Obligations.PendingMarkCleared
  refine ⟨?cleared, ?shadow, ?marked⟩
  case cleared =>
    intro r k v s reach
    refine ⟨s.pendWrite k v.toNat, ?runs, ?gone, ?stays, s.pendWrite_frame _ _⟩
    case runs => exact congrArg Host.Outcome.next (State.writeTo_of_reaches reach _)
    case gone =>
      intro n hn word set
      rw [State.bit_pendWrite _ _ _ (by omega), set]
      simp [word]
    case stays =>
      intro n hn other
      rw [State.bit_pendWrite _ _ _ (by omega)]
      rcases other with word | unset
      · simp [word]
      · simp [unset]
  case shadow => exact fun _ _ _ _ _ => State.bit_fieldSet_shadow
  case marked =>
    intro r k v n u reach idle hn word set present
    have hv : v.toNat ≠ 0 := fun zero => by
      rw [← bit_toNat, zero, bit_zero] at set
      exact Bool.noConfusion set
    refine ⟨u.markWrite k v.toNat, ?runs, ?bit, State.markWrite_frame idle _ _⟩
    case runs => exact congrArg Host.Outcome.next (State.writeTo_of_reaches reach _)
    case bit =>
      rw [State.bit_markWrite idle _ hv hn, set, present]
      simp [word]

end Sys2Proof.Machine

/-! When a write of GLB_RESET schedules the warm reset (R501, R502, R544). -/

namespace Sys2Proof.Machine

/-- What decides whether a warm reset is scheduled, and when, is the same in `s` and `t`: the clock, a reset that waits and
the life-cycle transition in hand. -/
structure SameResetInputs (s t : State) : Prop where
  age : t.age = s.age
  warmAt : t.h .warmAt = s.h .warmAt
  lcPend : t.h .lcPend = s.h .lcPend
  armed : t.rd (.ree .LC_ARMED) 0 = s.rd (.ree .LC_ARMED) 0

namespace SameResetInputs

variable {s t : State}

theorem refl : SameResetInputs s s := ⟨rfl, rfl, rfl, rfl⟩

theorem inTransition (a : SameResetInputs s t) : t.inTransition = s.inTransition := by
  unfold State.inTransition State.on
  rw [a.lcPend, a.armed]

theorem setH (x : Hid) (i v : Nat) (notWarm : x ≠ .warmAt) (notPend : x ≠ .lcPend) (a : SameResetInputs s t) :
    SameResetInputs s (t.setH x i v) where
  age := a.age
  warmAt := by rw [State.h_setH, if_neg (fun e => notWarm e.1.symm)]; exact a.warmAt
  lcPend := by rw [State.h_setH, if_neg (fun e => notPend e.1.symm)]; exact a.lcPend
  armed := a.armed

theorem count (f : Fld) (i n : Nat) (notArmed : f ≠ .ree .LC_ARMED) (a : SameResetInputs s t) :
    SameResetInputs s (t.count f i n) where
  age := a.age
  warmAt := a.warmAt
  lcPend := a.lcPend
  armed := by rw [State.count, State.rd_wr, if_neg (fun e => notArmed e.1.symm)]; exact a.armed

theorem ledger (c : Nat) (b : Bool) (l d : Nat) (q : LedSrc) (a : SameResetInputs s t) :
    SameResetInputs s (t.ledger c b l d q) where
  age := by rw [State.age_ledger]; exact a.age
  warmAt := by rw [State.h_ledger _ _ _ _ _ _ _ _ (by decide)]; exact a.warmAt
  lcPend := by rw [State.h_ledger _ _ _ _ _ _ _ _ (by decide)]; exact a.lcPend
  armed := by rw [State.rd_ledger _ _ _ _ _ _ _ _ (by decide)]; exact a.armed

theorem raise (e : Ev) (l d p : Nat) (a : SameResetInputs s t) : SameResetInputs s (t.raise e l d p) where
  age := by rw [State.age_raise]; exact a.age
  warmAt := by rw [State.h_raise _ _ _ _ _ _ _ (by decide)]; exact a.warmAt
  lcPend := by rw [State.h_raise _ _ _ _ _ _ _ (by decide)]; exact a.lcPend
  armed := by rw [State.rd_raise_ree]; exact a.armed

theorem recovery (step attempt loc : Nat) (a : SameResetInputs s t) : SameResetInputs s (t.recovery step attempt loc) :=
  (a.ledger ..).raise ..

theorem setH_unless (c : Prop) [Decidable c] (x : Hid) (i v : Nat) (notWarm : x ≠ .warmAt) (notPend : x ≠ .lcPend)
    (a : SameResetInputs s t) : SameResetInputs s (if c then t else t.setH x i v) := by
  split
  · exact a
  · exact a.setH _ _ _ notWarm notPend

/-- An internal request touches only its queue and the count of merges (R105). -/
theorem intRequest (q : IntReq) (a : SameResetInputs s t) : SameResetInputs s (t.intRequest q) := by
  have entry : SameResetInputs s
      (if t.h .intFull = 1 then t.count (.glb .INT_MERGED) 0 else t.setH .intFull 0 1) := by
    split
    · exact a.count _ _ _ (by decide)
    · exact a.setH _ _ _ (by decide) (by decide)
  have units := entry.setH .intUnits 0 ((if t.h .intFull = 1 then t.count (.glb .INT_MERGED) 0
    else t.setH .intFull 0 1).h .intUnits ||| q.units) (by decide) (by decide)
  have mode := units.setH_unless (q.mode = 0) .intMode 0 q.mode (by decide) (by decide)
  have role := mode.setH_unless (q.role = 0) .intRole 0 q.role (by decide) (by decide)
  exact role.setH_unless (q.src = 0) .intSrc 0 q.src (by decide) (by decide)

/-- An active that relinquishes leaves the scheduling of the reset alone (R404). -/
theorem relinquish (a : SameResetInputs s t) : SameResetInputs s t.relinquish := by
  unfold State.relinquish
  split
  · exact (a.setH _ _ _ (by decide) (by decide)).intRequest _
  · exact a

end SameResetInputs

variable {s : State}

/-- A warm reset that nothing discards is scheduled (R501, R502). -/
theorem State.h_warmAtSet (idle : s.inTransition = false) (unset : s.h .warmAt = 0) (t : Nat) :
    (s.warmAtSet t).h .warmAt = t + 1 := by
  unfold State.warmAtSet
  rw [if_neg (by simp [idle, unset]), State.h_setH]
  simp

/-- Step 3 of the ladder, short of its third reset within the hour, schedules the warm reset 2 ms later (R479, R501). -/
theorem State.step3_warmAt (idle : s.inTransition = false) (unset : s.h .warmAt = 0)
    (few : s.within (s.h .warmAge 1) 3600 = false) (loc : Nat) :
    (s.step3 loc).h .warmAt = s.age + msTicks 2 + 1 := by
  unfold State.step3
  simp only [idle, few, Bool.false_eq_true, if_false]
  generalize (if s.within (s.h .warmAge 0) 3600 = true then 2 else 1) = n
  have same := (((SameResetInputs.refl (s := s)).recovery 3 n loc).setH .warmAge 1
    ((s.recovery 3 n loc).h .warmAge 0) (by decide) (by decide)).setH .warmAge 0
    ((s.recovery 3 n loc).age + 1) (by decide) (by decide)
  have ready := same.relinquish
  have kept := same.age
  rw [State.h_warmAtSet (ready.inTransition.trans idle) (ready.warmAt.trans unset)]
  exact congrArg (· + msTicks 2 + 1) kept

/-- GLB_RESET without the key or without WARM = 1 only counts (R544). -/
theorem State.resetWrite_of_unkeyed {warm : Bool} {key : BitVec 16} (h : warm = false ∨ key ≠ 0x5A5A) :
    s.resetWrite warm key.toNat = s.count (.glb .RESET_ST_KEY_ERR) 0 := by
  have unkeyed : ¬ (warm = true ∧ key.toNat = 0x5A5A) := by
    rintro ⟨isWarm, isKey⟩
    rcases h with cold | wrong
    · exact Bool.noConfusion (cold.symm.trans isWarm)
    · exact wrong (BitVec.eq_of_toNat_eq isKey)
  unfold State.resetWrite
  rw [if_neg unkeyed]

/-- Settles O57: every other write is one step of a saturating counter, and the keyed one is step 3 of the ladder. -/
theorem keyedReset : Obligations.KeyedReset := by
  unfold Obligations.KeyedReset
  refine ⟨?counted, ?keyed⟩
  case counted =>
    intro r w k s reach unkeyed
    refine ⟨s.count (.glb .RESET_ST_KEY_ERR) 0, ?runs, ?value, Frame.refl.count _ _ _ (by decide)⟩
    case runs =>
      rw [← State.resetWrite_of_unkeyed unkeyed]
      exact congrArg Host.Outcome.next (State.writeTo_of_reaches reach _)
    case value =>
      rw [State.count, State.rd_wr, if_pos ⟨rfl, rfl⟩]
      rfl
  case keyed =>
    intro r s reach idle unset few
    exact ⟨s.step3 locReeve, congrArg Host.Outcome.next (State.writeTo_of_reaches reach _),
      State.step3_warmAt idle unset few _⟩

end Sys2Proof.Machine

/-! What every step keeps (log entries 1, 4, 10, 81): it goes on, takes one command and no more, never turns the clock
back, and leaves the stores in canonical form. -/

namespace Sys2Proof.Machine

/-! ## Every command has an effect -/

/-- Every command hands on a state: none faults and none is refused. -/
theorem exec_goes_on (i : Instr) (s : State) : ∃ t : State, exec i s = .next t := by
  cases i <;> exact ⟨_, rfl⟩

/-- A property that every primitive update keeps holds of what a command hands on. -/
theorem exec_next_keeps {P : State → Prop} (C : Closed P) {i : Instr} {s t : State} (runs : exec i s = .next t)
    (h : P s) : P t := by
  have kept := exec_keeps C (i := i) h
  rwa [runs] at kept

/-! ## What no primitive update does -/

/-- No primitive update touches the command queue or the variant, and none turns the clock back. -/
theorem closed_goesOn (l : List Instr) (a : Nat) (v : Variant) :
    Closed (fun t => t.pending = l ∧ a ≤ t.age ∧ t.variant = v) where
  wr _ _ _ h := h
  wrA _ _ _ h := h
  setH _ _ _ h := h
  setByte _ _ _ h := h
  setTr _ _ _ h := h
  nextFree h := h
  regsF _ h := h
  appliedF _ h := h
  hidF _ h := h
  memF _ h := h
  tregF _ h := h
  age _ h := ⟨h.1, Nat.le_trans h.2.1 (Nat.le_add_right _ _), h.2.2⟩
  rest same h := by
    obtain ⟨variant, -, -, -, -, -, age, -, pending⟩ := same
    rw [variant, age, pending]
    exact h

/-- Settles O50: a command keeps what no primitive update touches, and so does a tick of time. -/
theorem everyStepGoesOn : Obligations.EveryStepGoesOn := by
  unfold Obligations.EveryStepGoesOn
  intro s
  unfold step
  split
  case h_1 empty =>
    have kept := State.pass_keeps (closed_goesOn [] s.age s.variant) (s := s) (n := 1) ⟨empty, Nat.le_refl _, rfl⟩
    exact ⟨s.pass 1, rfl, by rw [empty]; exact kept.1, kept.2⟩
  case h_2 c l waiting =>
    obtain ⟨t, runs⟩ := exec_goes_on c { s with pending := l }
    have kept := exec_next_keeps (closed_goesOn l s.age s.variant) runs ⟨rfl, Nat.le_refl _, rfl⟩
    exact ⟨t, runs, by rw [waiting]; exact kept.1, kept.2⟩

/-! ## The canonical form -/

theorem regsFit_filter {l : List ((Fld × Nat) × Nat)} (q : (Fld × Nat) × Nat → Bool) (h : regsFit l = true) :
    regsFit (l.filter q) = true := by
  simp only [regsFit, List.all_eq_true] at h ⊢
  exact fun e he => h e (List.mem_filter.1 he).1

/-- A write cut to the field's width fits the field, and leaves what stood in the store for other fields. -/
theorem regsFit_set {l : List ((Fld × Nat) × Nat)} (d : Nat) (f : Fld) (i v : Nat) (h : regsFit l = true) :
    regsFit (Assoc.set fldLt d (f, i) (trunc f.desc.width v) l) = true := by
  simp only [regsFit, List.all_eq_true, decide_eq_true_eq] at h ⊢
  intro e he
  unfold Assoc.set at he
  split at he
  · exact h e (Assoc.mem_erase _ _ e he)
  · rcases Assoc.mem_ins _ _ _ _ e he with rfl | old
    · exact trunc_lt _ _
    · exact h e (Assoc.mem_erase _ _ e old)

/-- Every primitive update keeps the canonical form. -/
theorem closed_canonical : Closed State.canonical where
  wr f i v h := by
    obtain ⟨mem, regs, applied, fits, appliedFits⟩ := h
    exact ⟨mem, State.regsWf_wr f i v regs, applied, regsFit_set _ f i v fits, appliedFits⟩
  wrA f i v h := by
    obtain ⟨mem, regs, applied, fits, appliedFits⟩ := h
    exact ⟨mem, regs, State.regsWf_wrA f i v applied, fits, regsFit_set _ f i v appliedFits⟩
  setH _ _ _ h := h
  setByte r a b h := ⟨State.memWf_setByte r a b h.1, h.2⟩
  setTr _ _ _ h := h
  nextFree h := h
  regsF q h := by
    obtain ⟨mem, regs, applied, fits, appliedFits⟩ := h
    exact ⟨mem, regsWf_filter q regs, applied, regsFit_filter q fits, appliedFits⟩
  appliedF q h := by
    obtain ⟨mem, regs, applied, fits, appliedFits⟩ := h
    exact ⟨mem, regs, regsWf_filter q applied, fits, regsFit_filter q appliedFits⟩
  hidF _ h := h
  memF q h := ⟨Assoc.wf_filter natLt 0 q _ h.1, h.2⟩
  tregF _ h := h
  age _ h := h
  rest same h := by
    obtain ⟨variant, regs, applied, -, mem, -⟩ := same
    unfold State.canonical State.memWf
    rw [variant, regs, applied, mem]
    exact h

/-- Settles O51: the canonical form is a property that every primitive update keeps, and the queue has no part in it. -/
theorem canonicalKept : Obligations.CanonicalKept := by
  unfold Obligations.CanonicalKept
  intro s t canonical runs
  have kept := step_keeps closed_canonical (fun _ h => h) canonical
  rwa [runs] at kept

/-- Settles O52: every store is empty at reset. -/
theorem canonicalAtReset : Obligations.CanonicalAtReset := ⟨rfl, rfl, rfl, rfl, rfl⟩

end Sys2Proof.Machine

/-! Reset, what a loss of domains takes, and how an access ends (R9, R16, R441, R468, R515). -/

namespace Sys2Proof.Machine

/-! ## Reset -/

/-- Settles O49. -/
theorem stepTakesTheFront : Obligations.StepTakesTheFront := by
  unfold Obligations.StepTakesTheFront
  refine ⟨?front, ?tick, ?words⟩
  case front =>
    intro c l s waiting
    unfold step
    rw [waiting]
  case tick =>
    intro s empty
    unfold step
    rw [empty]
  case words =>
    intro n w s
    exact ⟨rfl, rfl⟩

/-- Settles O53. -/
theorem resetState : Obligations.ResetState := by
  unfold Obligations.ResetState
  refine ⟨fun _ _ => rfl, fun _ _ => rfl, rfl, rfl, rfl, rfl, rfl, rfl, rfl, rfl, rfl, rfl, rfl, rfl, ?off⟩
  intro d
  cases d <;> decide

/-! ## A loss of domains (R16) -/

/-- A loss of the domains `ds` resets a field that lies in them with a lost survival code, unless NVM holds it. -/
theorem State.rd_lose (s : State) (ds : List Dom) (lost : List Surv) (f : Fld) (i : Nat) :
    (s.lose ds lost).rd f i =
      if fldDom f i ∈ ds ∧ f.desc.surv ∈ lost ∧ f.desc.nvm = false then resetVal s.variant f i else s.rd f i := by
  have filtered := Assoc.get_filter (resetVal s.variant f i) (f, i) (fun k : Fld × Nat =>
    decide (¬ (fldDom k.1 k.2 ∈ ds ∧ k.1.desc.surv ∈ lost ∧ k.1.desc.nvm = false))) s.regs
  refine Eq.trans filtered ?_
  simp only [decide_eq_true_eq, ite_not]
  rfl

/-- Settles O59: a loss filters the register store by a predicate on its keys. -/
theorem lossTakesByCode : Obligations.LossTakesByCode := by
  unfold Obligations.LossTakesByCode
  refine ⟨?kept, ?lost, fun _ _ _ => ⟨rfl, rfl, rfl, rfl⟩⟩
  case kept =>
    intro ds lost f i s some
    rw [State.rd_lose, if_neg]
    rintro ⟨inDs, code, volatile⟩
    rcases some with outside | survives | nvm
    · exact outside inDs
    · exact survives code
    · exact Bool.noConfusion (volatile.symm.trans nvm)
  case lost =>
    intro ds lost f i s inDs code volatile
    rw [State.rd_lose, if_pos ⟨inDs, code, volatile⟩]

/-! ## Events while REEVE is off (R515) -/

section
variable {s : State} {e : Ev} {n l d p : Nat} (src : e.src.1 = .dev n) (off : s.domOn .reeve = false)
include src off

/-- With REEVE off only sources 112 to 119 leave a trace. -/
theorem State.raise_off_of_other (other : n < 112 ∨ 119 < n) : s.raise e l d p = s := by
  have outside : ¬ (112 ≤ n ∧ n ≤ 119) := by omega
  unfold State.raise
  simp [src, off, outside]

/-- A source of the Hearth whose latch stands leaves no second record. -/
theorem State.raise_off_of_set (set : bit n (s.rd (.cri .LATCH) 0) = true) : s.raise e l d p = s := by
  unfold State.raise
  simp [src, off, set]

theorem State.raise_off_of_clear (lo : 112 ≤ n) (hi : n ≤ 119) (en : bit n (s.rd (.cri .EN) 0) = true)
    (clear : bit n (s.rd (.cri .LATCH) 0) = false) :
    s.raise e l d p = { s.setBitF (.cri .LATCH) 0 n with
      held := s.held ++ [{ s.mkRec e p l d with timeCoarse := true }] } := by
  unfold State.raise
  simp [src, off, lo, hi, en, clear]

end

/-- Settles O56: the three cases of a raise with REEVE off. -/
theorem hearthHoldsRecords : Obligations.HearthHoldsRecords := by
  unfold Obligations.HearthHoldsRecords
  refine ⟨?other, ?first, ?again⟩
  case other => exact fun _ _ _ _ _ _ => State.raise_off_of_other
  case first =>
    intro e n l d p s src off lo hi en clear
    rw [State.raise_off_of_clear src off lo hi en clear]
    refine ⟨?latched, rfl, rfl⟩
    case latched =>
      have set := s.bit_setBitF (.cri .LATCH) 0 n n (Nat.lt_of_le_of_lt hi (by decide))
      rw [decide_eq_true rfl, Bool.or_true] at set
      exact set
  case again => exact fun _ _ _ _ _ _ src off _ _ => State.raise_off_of_set src off

/-! ## Locked registers (R441, R468) -/

/-- In SEALED a write changes no RWL field. -/
theorem State.fieldWrite_of_sealed {s : State} {f : Fld} (r : Req) (g : Reg) (v : Nat) (sealed_ : s.lc = 3)
    (locked : f.desc.acc = .RWL) : State.fieldWrite r g v s f = s := by
  unfold State.fieldWrite
  simp [locked, sealed_]

theorem State.foldl_fieldWrite_of_sealed {s : State} {l : List Fld} (r : Req) (g : Reg) (v : Nat) (sealed_ : s.lc = 3)
    (locked : ∀ f ∈ l, f.desc.acc = .RWL) : l.foldl (State.fieldWrite r g v) s = s := by
  induction l with
  | nil => rfl
  | cons f t ih =>
    rw [List.foldl_cons, State.fieldWrite_of_sealed r g v sealed_ (locked f List.mem_cons_self)]
    exact ih (fun x hx => locked x (List.mem_cons_of_mem _ hx))

/-- An attempt on a sealed setting leaves every register outside the Crier, the Ledger and its own counter. -/
theorem State.rd_sealAttempt (s : State) (a : Nat) (r : Req) {f : Fld} (i : Nat) (notCri : f.isCri = false)
    (notLedger : f ∉ ledgerFlds) (notCount : f ≠ .wgh .ATTEMPT) : (s.sealAttempt a r).rd f i = s.rd f i := by
  unfold State.sealAttempt
  rw [(State.raise_crier _ _ _ _ _).rd f i notCri, State.rd_ledger _ _ _ _ _ _ f i notLedger]
  exact (State.rd_wr ..).trans (if_neg (fun e => notCount e.1))

theorem State.lc_sealAttempt (s : State) (a : Nat) (r : Req) : (s.sealAttempt a r).lc = s.lc :=
  s.rd_sealAttempt a r 0 rfl (by decide) (by decide)

/-- In SEALED a write of a register of RWL fields alone leaves at most the note of the attempt. -/
theorem State.plain_of_sealed {s : State} (r : Req) (a v : Nat) (g : Reg) (sealed_ : s.lc = 3)
    (locked : ∀ f ∈ g.reached, f.desc.acc = .RWL) :
    s.plain r a g v = if s.rwlHit g v then s.sealAttempt a r else s := by
  have noClear : (g.reached.filter (fun f => !([] : List Fld).contains f)).filter
      (fun f => decide (f.desc.acc = .W1C)) = [] := by
    rw [List.filter_eq_nil_iff]
    intro f hf isClear
    have isLocked := locked f (List.mem_of_mem_filter hf)
    rw [isLocked] at isClear
    exact absurd isClear (by decide)
  have after : ∀ t : State, t.lc = 3 →
      ((g.reached.filter (fun f => !([] : List Fld).contains f)).filter
        (fun f => decide (f.desc.acc ≠ .W1C))).foldl (State.fieldWrite r g v) t = t :=
    fun t ht => State.foldl_fieldWrite_of_sealed r g v ht
      (fun f hf => locked f (List.mem_of_mem_filter (List.mem_of_mem_filter hf)))
  unfold State.plain State.plainBut
  dsimp only
  rw [noClear, List.foldl_nil]
  simp only [sealed_, true_and]
  split
  · exact after _ ((s.lc_sealAttempt a r).trans sealed_)
  · exact after _ sealed_

/-- Settles O60. -/
theorem sealedFieldsAreLocked : Obligations.SealedFieldsAreLocked := by
  unfold Obligations.SealedFieldsAreLocked
  refine ⟨?hit, ?miss, ?kept⟩
  case hit =>
    intro r a v g s sealed_ locked hit
    rw [State.plain_of_sealed r a v g sealed_ locked, if_pos hit]
  case miss =>
    intro r a v g s sealed_ locked miss
    rw [State.plain_of_sealed r a v g sealed_ locked, miss]
    exact if_neg Bool.false_ne_true
  case kept =>
    intro r a f i s locked
    refine s.rd_sealAttempt a r i ?notCri ?notLedger ?notCount
    case notCri => 
      cases f with
      | cri x => exact absurd locked (by cases x <;> decide)
      | _ => rfl
    case notLedger =>
      intro isLedger
      fin_cases isLedger <;> exact absurd locked (by decide)
    case notCount =>
      rintro rfl
      exact absurd locked (by decide)

end Sys2Proof.Machine

/-! How a register access goes: the accesses that end before any register, and what the written and read words do (R9-R12,
R15, R18, R99, R492, R498, R530). -/

namespace Sys2Proof.Machine

/-! ## The word accesses, by how far they come -/

section
variable {s u : State} {r : Req} {b : Blk} {a : Nat}

/-- An access that ends before its registers ends so for a write. -/
theorem State.writeWord0_of_ended (w : Nat) (whole : a % 4 = 0) (bus : r ≠ .i2c) (blk : blkAt a = some b)
    (ended : s.access r (unitOf b a).1 (unitOf b a).2 (!engCtlAt b a) = some u) : s.writeWord0 r a w = u := by
  unfold State.writeWord0
  simp [whole, bus, blk, ended]

theorem State.writeWord_of_ended (w : Nat) (whole : a % 4 = 0) (bus : r ≠ .i2c) (blk : blkAt a = some b)
    (ended : s.access r (unitOf b a).1 (unitOf b a).2 (!engCtlAt b a) = some u)
    (quiet : a ≠ snapCmdAddr ∨ u.resp.code ≠ .ok) : s.writeWord r a w = u := by
  unfold State.writeWord
  rw [State.writeWord0_of_ended w whole bus blk ended]
  exact if_neg (fun e => quiet.elim (fun h => h e.1) (fun h => h e.2))

theorem State.readWord_of_ended (whole : a % 4 = 0) (bus : r ≠ .i2c) (blk : blkAt a = some b)
    (ended : s.access r (unitOf b a).1 (unitOf b a).2 (!engCtlAt b a) = some u) : s.readWord r a = u := by
  unfold State.readWord
  simp [whole, bus, blk, ended]

/-- An access that no register, window or operation of its own takes reaches the words of its block. -/
theorem WordOpen.writeWord (reach : WordOpen s r b a) (w : Nat) :
    s.writeWord r a w = ((regsAt a).foldl (fun s g => s.wordInto r a w g) s).ok := by
  obtain ⟨whole, bus, blk, notWgh, notStage, open_, notPantry, notSnap⟩ := reach
  have inWindow : (if b = .ree then inWin 0x7000000 0x100000 0x300000 a else none) = none := by
    split
    · exact notStage ‹_›
    · rfl
  unfold State.writeWord State.writeWord0 State.wordWrite
  simp only [notSnap, false_and, if_false, whole, bus, blk, notPantry, notWgh, inWindow]
  rw [open_]
  simp

theorem WordOpen.readWord (reach : WordOpen s r b a) : s.readWord r a = s.wordRead r b a := by
  obtain ⟨whole, bus, blk, -, -, open_, notPantry, -⟩ := reach
  unfold State.readWord
  simp only [whole, bus, blk, notPantry]
  rw [open_]
  simp

theorem WordOpen.wordRead_nil (reach : WordOpen s r b a) (empty : regsAt a = []) : s.wordRead r b a = s.ok := by
  unfold State.wordRead
  have inWindow : (if b = .ree then inWin 0x7000000 0x100000 0x300000 a else none) = none := by
    split
    · exact reach.notStage ‹_›
    · rfl
  rw [empty, inWindow, if_neg reach.notWgh]

/-! ## Accesses that end before any register -/

/-- A misaligned or narrow write is a bus error, also at SNAP_CMD (R9). -/
theorem State.writeWord_of_misfit {narrow : Bool} (w : Nat) (misfit : narrow = true ∨ a % 4 ≠ 0) :
    s.writeWord r a w narrow = s.busError := by
  have ended : s.writeWord0 r a w narrow = s.busError := by
    unfold State.writeWord0
    exact if_pos misfit
  unfold State.writeWord
  rw [ended]
  exact if_neg (fun e => RespCode.noConfusion e.2)

theorem State.readWord_of_misfit (misfit : a % 4 ≠ 0) : s.readWord r a = s.busError := by
  unfold State.readWord
  exact if_pos (.inr misfit)

/-- Outside every block the requester reads 0 and its writes are ignored (R15). -/
theorem State.writeWord_of_hole (w : Nat) (whole : a % 4 = 0) (hole : blkAt a = none) (bus : r ≠ .i2c)
    (enabled : r = .host → s.h .pcieOn ≠ 0) (notSnap : a ≠ snapCmdAddr) : s.writeWord r a w = s.ok := by
  unfold State.writeWord State.writeWord0
  simp [whole, hole, bus, notSnap]
  exact fun isHost unset => absurd unset (enabled isHost)

theorem State.readWord_of_hole (whole : a % 4 = 0) (hole : blkAt a = none)
    (enabled : r = .host → s.h .pcieOn ≠ 0) : s.readWord r a = s.ok := by
  unfold State.readWord
  simp [whole, hole]
  exact fun isHost unset => absurd unset (enabled isHost)

/-- The endpoint that is not enabled answers the host nowhere (R530). -/
theorem State.access_of_disabled (g : Grp) (i : Nat) (gated : Bool) (disabled : s.h .pcieOn = 0) :
    s.access .host g i gated = some s.busError := by
  unfold State.access
  exact if_pos ⟨rfl, disabled⟩

theorem State.access_of_absent {g : Grp} {i : Nat} (gated : Bool) (enabled : r = .host → s.h .pcieOn ≠ 0)
    (absent : g.present s.variant i = false) : s.access r g i gated = some s.ok := by
  unfold State.access
  rw [if_neg (fun e => enabled e.1 e.2), if_pos (by simp [absent])]

/-- A present unit without power or clock answers with a bus error (R18, R492, R498). -/
theorem State.access_of_dead {g : Grp} {i : Nat} {gated : Bool} (present : g.present s.variant i = true)
    (dead : s.domOn (g.dom (g.outer i)) = false ∨ (gated = true ∧ s.clkOn g (g.outer i) = false)) :
    s.access r g i gated = some s.busError := by
  unfold State.access
  rcases dead with off | ⟨isGated, still⟩
  · simp [present, off]
  · simp [present, isGated, still]

end

/-- Settles O54: the ways an access ends, in the order in which `writeWord0` and `readWord` ask for them. -/
theorem accessEndings : Obligations.AccessEndings := by
  unfold Obligations.AccessEndings
  refine ⟨?misfitWrite, ?misfitRead, ?noRegister, ?noBlock, ?disabled, ?absent, ?dead⟩
  case misfitWrite =>
    intro r a v n s misfit
    exact congrArg Host.Outcome.next (State.writeWord_of_misfit _ misfit)
  case misfitRead =>
    intro r a s misfit
    exact congrArg Host.Outcome.next (State.readWord_of_misfit misfit)
  case noRegister =>
    intro r a v b s reach empty
    refine ⟨congrArg Host.Outcome.next ?_, congrArg Host.Outcome.next ?_⟩
    · exact (reach.writeWord v.toNat).trans (by rw [empty, List.foldl_nil])
    · exact reach.readWord.trans (reach.wordRead_nil empty)
  case noBlock =>
    intro r a v s whole hole bus enabled notSnap
    exact ⟨congrArg Host.Outcome.next (State.writeWord_of_hole _ whole hole bus enabled notSnap),
      congrArg Host.Outcome.next (State.readWord_of_hole whole hole enabled)⟩
  case disabled =>
    intro a v s whole disabled
    cases blk : blkAt a.toNat with
    | none => 
      refine ⟨congrArg Host.Outcome.next ?_, congrArg Host.Outcome.next ?_⟩
      · unfold State.writeWord State.writeWord0
        simp [whole, blk, disabled]
        exact fun _ e => RespCode.noConfusion e
      · unfold State.readWord
        simp [whole, blk, disabled]
    | some b =>
      have ended := s.access_of_disabled (unitOf b a.toNat).1 (unitOf b a.toNat).2 (!engCtlAt b a.toNat) disabled
      exact ⟨congrArg Host.Outcome.next (State.writeWord_of_ended _ whole (by decide) blk ended (.inr (by simp [State.busError]))),
        congrArg Host.Outcome.next (State.readWord_of_ended whole (by decide) blk ended)⟩
  case absent =>
    intro r a v b s whole blk bus enabled notSnap absent
    have ended := State.access_of_absent (!engCtlAt b a.toNat) enabled absent
    exact ⟨congrArg Host.Outcome.next (State.writeWord_of_ended _ whole bus blk ended (.inl notSnap)),
      congrArg Host.Outcome.next (State.readWord_of_ended whole bus blk ended)⟩
  case dead =>
    intro r a v b g i s whole blk bus unit present dead
    have ended : s.access r (unitOf b a.toNat).1 (unitOf b a.toNat).2 (!engCtlAt b a.toNat) = some s.busError := by
      rw [unit]
      refine State.access_of_dead present (dead.imp_right ?_)
      rintro ⟨notCtl, still⟩
      exact ⟨by rw [notCtl]; rfl, still⟩
    exact ⟨congrArg Host.Outcome.next (State.writeWord_of_ended _ whole bus blk ended (.inr (by simp [State.busError]))),
      congrArg Host.Outcome.next (State.readWord_of_ended whole bus blk ended)⟩

end Sys2Proof.Machine

/-! What a register word does where the access reaches its registers (R10-R12, R99, R546). -/

namespace Sys2Proof.Machine

variable {s : State} {r : Req} {b : Blk} {a : Nat} {g : Reg}

/-! ## Multi-word values (R10, R11) -/

/-- The highest word of a multi-word value brings the whole value. -/
theorem State.wordInto_of_highest (w : Nat) (multi : 1 < g.words) (highest : g.k + 1 = g.words)
    (writable : ∃ f ∈ g.fields, f.desc.acc.writable = true) :
    s.wordInto r a w g = (s.holdClearAll r (a - 4 * g.k) g.words).regWrite r a g
      (s.heldValue r (a - 4 * g.k) g.words w) := by
  have some : g.fields.any (fun f => f.desc.acc.writable) = true := List.any_eq_true.2 writable
  unfold State.wordInto
  rw [if_neg (Nat.not_le.2 multi), some, if_neg (by decide), if_neg (by omega)]

/-- A lower word is held for its requester. -/
theorem State.wordInto_of_lower (w : Nat) (multi : 1 < g.words) (lower : g.k + 1 < g.words)
    (writable : ∃ f ∈ g.fields, f.desc.acc.writable = true) :
    s.wordInto r a w g = s.holdPut r a w (g.grp.dom (g.grp.outer g.inst)) := by
  have some : g.fields.any (fun f => f.desc.acc.writable) = true := List.any_eq_true.2 writable
  unfold State.wordInto
  rw [if_neg (Nat.not_le.2 multi), some, if_neg (by decide), if_pos lower]

theorem State.heldOr_holdPut (w : Nat) (d : Dom) : (s.holdPut r a w d).heldOr r a = w := by
  unfold State.heldOr State.holdPut
  dsimp only
  rw [Assoc.get_set_same]

theorem State.latchOf_setLatch (v : Nat) (d : Dom) : (s.setLatch r v d).latchOf r = v := by
  unfold State.latchOf State.setLatch
  dsimp only
  rw [Assoc.get_set_same]

/-- A word that one register of no FIFO fills reads as that register. -/
theorem WordOpen.readWord_alone (reach : WordOpen s r b a) (alone : regsAt a = [g]) (notCap : g.grp ≠ .ECAP)
    (notCtr : g.grp ≠ .CTR) (notCri : g.grp ≠ .CRI) :
    s.readWord r a = (s.regRead r g true).1.ok (s.regRead r g true).2 := by
  have inWindow : (if b = .ree then inWin 0x7000000 0x100000 0x300000 a else none) = none := by
    split
    · exact reach.notStage ‹_›
    · rfl
  rw [reach.readWord]
  unfold State.wordRead
  rw [alone, inWindow, if_neg reach.notWgh]
  simp [State.regsRead, alone, notCap, notCtr, notCri]

/-- The low word of a multi-word value latches the upper ones. -/
theorem State.regRead_of_lowest (alone : Bool) (multi : 1 < g.words) (lowest : g.k = 0)
    (steady : g.fields.any freeField = false) :
    s.regRead r g alone =
      (s.setLatch r (s.regVal g / 2 ^ 32) (g.grp.dom (g.grp.outer g.inst)), s.regVal g % 2 ^ 32) := by
  unfold State.regRead
  simp [multi, lowest, steady]

theorem State.regRead_of_single (alone : Bool) (single : g.words = 1) (steady : g.fields.any freeField = false) :
    s.regRead r g alone = (s.rcClear g, s.regVal g / 2 ^ (32 * g.k) % 2 ^ 32) := by
  unfold State.regRead
  simp [single, steady]

/-! ## Shadows (R99) -/

/-- A shadow write that is accepted takes the value and marks its unit; the setting in effect stays. -/
theorem State.fieldSet_shadow {f : Fld} {i new : Nat} (shadow : f.desc.shadow = true)
    (ok : s.fieldOk r f i new = true) (idle : s.cstate = 0) :
    s.fieldSet r f i new = (s.wr f i new).setBitF (.glb .COMMIT_PEND) 0 (shadowUnit f i) := by
  simp [State.fieldSet, State.shadowWrite, ok, shadow, idle]

/-- Settles O1: each access by how far it comes, then by what its word does. -/
theorem registerCommandsComplete : Obligations.RegisterCommandsComplete := by
  unfold Obligations.RegisterCommandsComplete
  refine ⟨?word, ?highest, ?lower, ?shadow, ?shadowWord, ?lowRead, ?readClear, ?mark, ?clear⟩
  case word => exact fun r a v b s reach => congrArg Host.Outcome.next (reach.writeWord v.toNat)
  case highest =>
    intro r a v b g s reach alone multi highest writable
    refine congrArg Host.Outcome.next ((reach.writeWord v.toNat).trans ?_)
    rw [alone, List.foldl_cons, List.foldl_nil, State.wordInto_of_highest _ multi highest writable]
  case lower =>
    intro r a v b g s reach alone multi lower writable
    refine ⟨s.holdPut r a.toNat v.toNat (g.grp.dom (g.grp.outer g.inst)),
      congrArg Host.Outcome.next ((reach.writeWord v.toNat).trans ?_), State.heldOr_holdPut _ _, fun _ _ => rfl,
      fun _ _ => rfl, fun _ _ => rfl, fun _ _ => rfl⟩
    rw [alone, List.foldl_cons, List.foldl_nil, State.wordInto_of_lower _ multi lower writable]
  case shadow =>
    intro r f i new s shadow ok idle notPend
    refine ⟨_, State.fieldSet_shadow shadow ok idle, ?value, ?marks, ?frame⟩
    case value =>
      have same : ¬ (f = Fld.glb .COMMIT_PEND ∧ i = 0) := fun e => notPend e.1
      simp [State.setBitF, same]
    case marks =>
      have other : ¬ (Fld.glb .COMMIT_PEND = f ∧ 0 = i) := fun e => notPend e.1.symm
      have width : (Fld.glb .COMMIT_PEND).desc.width = 256 := rfl
      simp [State.setBitF, other, width]
    case frame =>
      exact (Frame.refl.wr f i new List.mem_cons_self).setBitF _ _ _ (by simp)
  case shadowWord => exact fun r a v b s reach => congrArg Host.Outcome.next (reach.writeWord v.toNat)
  case lowRead =>
    intro r a b g s reach alone multi lowest notCap notCtr notCri steady
    refine ⟨s.setLatch r (s.regVal g / 2 ^ 32) (g.grp.dom (g.grp.outer g.inst)),
      congrArg Host.Outcome.next ((reach.readWord_alone alone notCap notCtr notCri).trans ?_),
      State.latchOf_setLatch _ _, fun _ _ => rfl, fun _ _ => rfl, fun _ _ => rfl, fun _ _ => rfl⟩
    rw [State.regRead_of_lowest _ multi lowest steady]
  case readClear =>
    intro r a b g s reach alone single notCap notCtr notCri steady
    refine congrArg Host.Outcome.next ((reach.readWord_alone alone notCap notCtr notCri).trans ?_)
    rw [State.regRead_of_single _ single steady]
  case mark =>
    intro r k v s reach nonzero idle
    have nonzeroNat : v.toNat ≠ 0 := fun zero => nonzero (BitVec.eq_of_toNat_eq zero)
    exact ⟨s.markWrite k v.toNat, congrArg Host.Outcome.next (State.writeTo_of_reaches reach _),
      fun n hn => State.bit_markWrite idle _ nonzeroNat hn, State.markWrite_frame idle _ _⟩
  case clear =>
    intro r k v s reach
    exact ⟨s.pendWrite k v.toNat, congrArg Host.Outcome.next (State.writeTo_of_reaches reach _),
      fun n hn => State.bit_pendWrite _ _ _ (by omega), s.pendWrite_frame _ _⟩

end Sys2Proof.Machine

/-! The commit controller (R100-R105, Table 3.6). -/

namespace Sys2Proof.Machine

variable {s : State}

/-! ## The masks of the controller -/

/-- The mask fields of the controller hold a bit for every unit. -/
theorem bit_trunc_mask {n : Nat} (hn : n < 222) (m : Nat) : bit n (trunc 256 m) = bit n m := by
  simp [bit_trunc, Nat.lt_trans hn (by decide : 222 < 256)]

/-! ## Arming -/

section
variable (kind part pend gen t : Nat)

/-- What arming writes, beside what it sets aside. -/
theorem State.values_arm : (s.arm kind part pend gen t).cstate = 1 ∧
    (s.arm kind part pend gen t).rd (.glb .COMMIT_PART) 0 = trunc 256 part ∧
    (s.arm kind part pend gen t).rd (.glb .COMMIT_PEND) 0 = trunc 256 pend ∧
    (s.arm kind part pend gen t).rd (.glb .COMMIT_VEC) 0 = 0 ∧ (s.arm kind part pend gen t).rd (.glb .COMMIT_LATE) 0 = 0 ∧
    (s.arm kind part pend gen t).rd (.glb .DEV_GEN) 0 = trunc 16 gen ∧
    (s.arm kind part pend gen t).h .commitKind = kind ∧ (s.arm kind part pend gen t).h .commitT = t := by
  refine ⟨?_, ?_, ?_, ?_, ?_, ?_, ?_, ?_⟩ <;> simp [State.arm, State.cstate] <;> rfl

/-- Arming sets the masks of the last commit aside. -/
theorem State.aside_arm : (s.arm kind part pend gen t).h .asidePart = s.rd (.glb .COMMIT_PART) 0 ∧
    (s.arm kind part pend gen t).h .asideVec = s.rd (.glb .COMMIT_VEC) 0 ∧
    (s.arm kind part pend gen t).h .asideLate = s.rd (.glb .COMMIT_LATE) 0 ∧
    (s.arm kind part pend gen t).h .asideSplit = s.rd (.glb .COMMIT_SPLIT) 0 := by
  simp [State.arm]

theorem State.frame_arm : Frame s (s.arm kind part pend gen t) commitFlds commitHids := by
  unfold State.arm
  dsimp only
  with_reducible repeat' first
    | refine Frame.wr _ _ _ ?_ ?_
    | refine Frame.setH _ _ _ ?_ ?_
    | exact Frame.refl
  all_goals decide

end

/-! ## Acceptance (R100, R175, R477) -/

theorem State.commitOk_iff (gen t : Nat) : s.commitOk gen t = true ↔
    (s.cstate = 0 ∧ gen = (s.rd (.glb .DEV_GEN) 0 + 1) % 65536 ∧ s.timeQ + tickQ (usTicks 10) ≤ u96 t * 5 ∧
      u96 t * 5 ≤ s.timeQ + tickQ (86400 * ticksPerSec) ∧ s.rd (.glb .COMMIT_PEND) 0 ≠ 0 ∧
      (bit 0 (s.rd (.glb .COMMIT_PEND) 0) = true →
        targetRow s.mode (s.rd (.glb .MODE_TARGET) 0) = true ∧ s.fatalOk (s.rd (.glb .MODE_TARGET) 0) = true)) := by
  cases unit0 : bit 0 (s.rd (.glb .COMMIT_PEND) 0) <;> simp [State.commitOk, State.tOk, unit0, and_assoc]

theorem State.rollbackOk_iff (gen t : Nat) : s.rollbackOk gen t = true ↔
    ((s.cstate = 0 ∨ s.cstate = 3) ∧ gen = (s.rd (.glb .DEV_GEN) 0 + 1) % 65536 ∧
      s.timeQ + tickQ (usTicks 10) ≤ u96 t * 5 ∧ u96 t * 5 ≤ s.timeQ + tickQ (86400 * ticksPerSec) ∧
      s.rd (.glb .COMMIT_PART) 0 ≠ 0 ∧ (bit 0 (s.rd (.glb .COMMIT_PART) 0) = true → s.fatalOk s.prevTarget = true)) := by
  cases unit0 : bit 0 (s.rd (.glb .COMMIT_PART) 0) <;> simp [State.rollbackOk, State.tOk, unit0, and_assoc]

/-! ## Cancelling -/

/-- What a CANCEL in time leaves (Table 3.6). -/
def State.cancelled (s : State) : State :=
  let pend := if s.h .commitKind = 0 then s.wr (.glb .COMMIT_PEND) 0
    (s.rd (.glb .COMMIT_PEND) 0 ||| s.rd (.glb .COMMIT_PART) 0) else s
  (((((pend.wr (.glb .COMMIT_PART) 0 (s.h .asidePart)).wr (.glb .COMMIT_VEC) 0 (s.h .asideVec)).wr
    (.glb .COMMIT_LATE) 0 (s.h .asideLate)).wr (.glb .COMMIT_SPLIT) 0 (s.h .asideSplit)).wr
    (.glb .DEV_GEN) 0 (s.rd (.glb .DEV_GEN) 0 + 65535)).wr (.glb .COMMIT_STATE) 0 0

theorem State.doCancel_of_timely (armed : s.cstate = 1)
    (timely : s.timeQ + tickQ (usTicks 10) ≤ u96 (s.h .commitT) * 5) : s.doCancel = s.cancelled := by
  unfold State.doCancel State.cancelled
  rw [if_pos ⟨armed, timely⟩]
  split <;> simp

theorem State.cancelled_frame : Frame s s.cancelled commitFlds [] := by
  have pend : Frame s (if s.h .commitKind = 0 then s.wr (.glb .COMMIT_PEND) 0
      (s.rd (.glb .COMMIT_PEND) 0 ||| s.rd (.glb .COMMIT_PART) 0) else s) commitFlds [] := by
    split
    · exact Frame.refl.wr _ _ _ (by decide)
    · exact .refl
  exact (((((pend.wr _ _ _ (by decide)).wr _ _ _ (by decide)).wr _ _ _ (by decide)).wr _ _ _ (by decide)).wr
    _ _ _ (by decide)).wr _ _ _ (by decide)

theorem State.bit_pend_cancelled {n : Nat} (hn : n < 222) : bit n (s.cancelled.rd (.glb .COMMIT_PEND) 0) =
    (bit n (s.rd (.glb .COMMIT_PEND) 0) || (decide (s.h .commitKind = 0) && bit n (s.rd (.glb .COMMIT_PART) 0))) := by
  unfold State.cancelled
  by_cases kind : s.h .commitKind = 0
  · have width : (Fld.glb .COMMIT_PEND).desc.width = 256 := rfl
    simp [kind, width, bit_trunc_mask hn]
  · simp [kind]

/-- The masks that arming set aside are back. -/
theorem State.masks_cancelled : s.cancelled.cstate = 0 ∧
    s.cancelled.rd (.glb .COMMIT_PART) 0 = trunc 256 (s.h .asidePart) ∧
    s.cancelled.rd (.glb .COMMIT_VEC) 0 = trunc 256 (s.h .asideVec) ∧
    s.cancelled.rd (.glb .COMMIT_LATE) 0 = trunc 256 (s.h .asideLate) ∧
    s.cancelled.rd (.glb .COMMIT_SPLIT) 0 = trunc 256 (s.h .asideSplit) ∧
    s.cancelled.rd (.glb .DEV_GEN) 0 = trunc 16 (s.rd (.glb .DEV_GEN) 0 + 65535) := by
  refine ⟨?_, ?_, ?_, ?_, ?_, ?_⟩ <;> simp [State.cancelled, State.cstate] <;> rfl

/-- Settles O2. -/
theorem commitControllerArms : Obligations.CommitControllerArms := by
  unfold Obligations.CommitControllerArms
  refine ⟨?commit, ?rollback, ?cancel, ?commitRefused, ?rollbackRefused, ?cancelRefused,
    fun _ _ _ => State.commitOk_iff _ _, fun _ _ _ => State.rollbackOk_iff _ _⟩
  case commit =>
    intro r gen s reach ok
    have runs : s.doCommit gen.toNat (s.rd (.glb .COMMIT_T) 0) = s.arm 0 (s.rd (.glb .COMMIT_PEND) 0) 0 gen.toNat
        (s.rd (.glb .COMMIT_T) 0) := if_pos ok
    obtain ⟨state, part, pend, vec, late, devGen, -, at_⟩ :=
      s.values_arm 0 (s.rd (.glb .COMMIT_PEND) 0) 0 gen.toNat (s.rd (.glb .COMMIT_T) 0)
    obtain ⟨asidePart, asideVec, asideLate, asideSplit⟩ :=
      s.aside_arm 0 (s.rd (.glb .COMMIT_PEND) 0) 0 gen.toNat (s.rd (.glb .COMMIT_T) 0)
    exact ⟨_, congrArg Host.Outcome.next ((State.writeTo_of_reaches reach _).trans (congrArg State.ok runs)), state,
      fun n hn => by rw [part, bit_trunc_mask hn], pend, vec, late, devGen.trans (trunc_of_lt gen.isLt), at_,
      asidePart, asideVec, asideLate, asideSplit, s.frame_arm _ _ _ _ _⟩
  case rollback =>
    intro r gen s reach ok
    have runs : s.doRollback gen.toNat (s.rd (.glb .COMMIT_T) 0) = s.arm 1 (s.rd (.glb .COMMIT_PART) 0)
        (s.rd (.glb .COMMIT_PEND) 0) gen.toNat (s.rd (.glb .COMMIT_T) 0) := if_pos ok
    obtain ⟨state, part, pend, vec, late, devGen, kind, at_⟩ := s.values_arm 1 (s.rd (.glb .COMMIT_PART) 0)
      (s.rd (.glb .COMMIT_PEND) 0) gen.toNat (s.rd (.glb .COMMIT_T) 0)
    exact ⟨_, congrArg Host.Outcome.next ((State.writeTo_of_reaches reach _).trans (congrArg State.ok runs)), state, kind,
      fun n hn => by rw [part, bit_trunc_mask hn], fun n hn => by rw [pend, bit_trunc_mask hn], vec, late,
      devGen.trans (trunc_of_lt gen.isLt), at_, s.frame_arm _ _ _ _ _⟩
  case cancel =>
    intro r s reach armed timely
    obtain ⟨state, part, vec, late, split_, devGen⟩ := s.masks_cancelled
    exact ⟨_, congrArg Host.Outcome.next ((State.writeTo_of_reaches reach _).trans
      (congrArg State.ok (State.doCancel_of_timely armed timely))), state, fun n hn => State.bit_pend_cancelled hn,
      fun n hn => by rw [part, bit_trunc_mask hn], fun n hn => by rw [vec, bit_trunc_mask hn],
      fun n hn => by rw [late, bit_trunc_mask hn], fun n hn => by rw [split_, bit_trunc_mask hn], devGen,
      s.cancelled_frame⟩
  case commitRefused =>
    intro r gen s reach refused
    exact congrArg Host.Outcome.next ((State.writeTo_of_reaches reach _).trans
      (congrArg State.ok (if_neg (ne_true_of_eq_false refused))))
  case rollbackRefused =>
    intro r gen s reach refused
    exact congrArg Host.Outcome.next ((State.writeTo_of_reaches reach _).trans
      (congrArg State.ok (if_neg (ne_true_of_eq_false refused))))
  case cancelRefused =>
    intro r s reach late
    have notTimely : ¬ (s.cstate = 1 ∧ s.timeQ + tickQ (usTicks 10) ≤ u96 (s.h .commitT) * 5) := by
      rintro ⟨armed, timely⟩
      rcases late with idle | past
      · exact idle armed
      · omega
    exact congrArg Host.Outcome.next ((State.writeTo_of_reaches reach _).trans (congrArg State.ok (if_neg notTimely)))

end Sys2Proof.Machine

/-! The commit controller as it applies (R101-R105, Table 3.6). -/

namespace Sys2Proof.Machine

variable {s : State}

/-! ## A unit applies (R101, R102) -/

theorem State.unitTry_of_unready {n t : Nat} {late : Bool} (unready : s.unitReady n = false) : s.unitTry n t late = s := by
  unfold State.unitTry
  dsimp only
  rw [if_pos (by simp [unready])]

/-- Units whose settings bring nothing else about. -/
theorem State.unitEffect_of_plain {n : Nat} (t : Nat) (plain : n = 5 ∨ n = 7 ∨ n = 28 ∨ n = 29) : s.unitEffect n t = s := by
  rcases plain with rfl | rfl | rfl | rfl <;> rfl

theorem State.unitTry_of_plain {n : Nat} (t : Nat) (ready : s.unitReady n = true) (kind : s.h .commitKind = 0)
    (plain : n = 5 ∨ n = 7 ∨ n = 28 ∨ n = 29) :
    s.unitTry n t false =
      ((s.setH .unitGen n (s.rd (.glb .DEV_GEN) 0)).setBitF (.glb .COMMIT_VEC) 0 n).takeShadows n := by
  have bank : s.bankOk n = true := by rcases plain with rfl | rfl | rfl | rfl <;> rfl
  unfold State.unitTry
  simp only [ready, kind, bank, State.unitEffect_of_plain t plain]
  rfl

/-! ## The end of the grace (R100) -/

/-- The participants that have not applied are SPLIT. -/
def State.splitMarked (s : State) : State := (s.wr (.glb .COMMIT_SPLIT) 0 s.missing).wr (.glb .COMMIT_STATE) 0 3

theorem State.missing_splitMarked : s.splitMarked.missing = s.missing := by
  simp [State.splitMarked, State.missing]

theorem State.bit_split_splitMarked {n : Nat} (hn : n < 222) : bit n (s.splitMarked.rd (.glb .COMMIT_SPLIT) 0) =
    (bit n (s.rd (.glb .COMMIT_PART) 0) && !bit n (s.rd (.glb .COMMIT_VEC) 0)) := by
  have width : (Fld.glb .COMMIT_SPLIT).desc.width = 256 := rfl
  simp [State.splitMarked, State.missing, width, bit_trunc_mask hn]

/-! ## Internal requests (R105) -/

section
variable (q : IntReq)

/-- What an internal request leaves in the one-entry queue. -/
theorem State.intRequest_entry : (s.intRequest q).h .intFull = 1 ∧ (s.intRequest q).h .intUnits = s.h .intUnits ||| q.units ∧
    (q.mode ≠ 0 → (s.intRequest q).h .intMode = q.mode) ∧ (q.role ≠ 0 → (s.intRequest q).h .intRole = q.role) ∧
    (q.src ≠ 0 → (s.intRequest q).h .intSrc = q.src) := by
  unfold State.intRequest
  dsimp only
  refine ⟨?_, ?_, ?_, ?_, ?_⟩ <;> split <;> split <;> split <;> split <;> simp_all [State.count]

/-- A request that finds the entry full is merged into it and counted. -/
theorem State.intRequest_merged (full : s.h .intFull = 1) :
    (s.intRequest q).rd (.glb .INT_MERGED) 0 = satAdd 4 (s.rd (.glb .INT_MERGED) 0) 1 := by
  have width : (Fld.glb .INT_MERGED).desc.width = 4 := rfl
  unfold State.intRequest
  rw [if_pos full]
  dsimp only
  split <;> split <;> split <;> simp [State.count, width, trunc_of_lt (satAdd_lt 4 _ _)]

theorem State.intRequest_frame : Frame s (s.intRequest q) [(.glb .INT_MERGED, 0)]
    [(.intFull, 0), (.intUnits, 0), (.intMode, 0), (.intRole, 0), (.intSrc, 0)] := by
  have setUnless : ∀ (c : Prop) [Decidable c] (t : State) (x : Hid) (v : Nat),
      (x, 0) ∈ [(Hid.intFull, 0), (.intUnits, 0), (.intMode, 0), (.intRole, 0), (.intSrc, 0)] →
      Frame s t [(.glb .INT_MERGED, 0)] [(.intFull, 0), (.intUnits, 0), (.intMode, 0), (.intRole, 0), (.intSrc, 0)] →
      Frame s (if c then t else t.setH x 0 v) [(.glb .INT_MERGED, 0)]
        [(.intFull, 0), (.intUnits, 0), (.intMode, 0), (.intRole, 0), (.intSrc, 0)] := by
    intro c _ t x v m h
    split
    · exact h
    · exact h.setH _ _ _ m
  unfold State.intRequest
  refine setUnless _ _ _ _ (by decide) (setUnless _ _ _ _ (by decide) (setUnless _ _ _ _ (by decide) ?_))
  refine Frame.setH _ _ _ (by decide) ?_
  split
  · exact Frame.refl.count _ _ _ (by decide)
  · exact Frame.refl.setH _ _ _ (by decide)

end

/-- The request that the operands of INTERNAL_COMMIT_REQUEST make. -/
def intReqOf (m : Option (Fin 7)) (o : Option (Fin 3)) (v : Option Bool) : IntReq :=
  { mode := match m with | some m => m.val + 1 | none => 0
    role := match o with | some r => r.val + 1 | none => 0
    src := match v with | some b => b.toNat + 1 | none => 0 }

theorem units_intReqOf (m : Option (Fin 7)) (o : Option (Fin 3)) (v : Option Bool) :
    (intReqOf m o v).units = m.isSome.toNat + 2 * v.isSome.toNat + 2 ^ 27 * o.isSome.toNat := by
  cases m <;> cases o <;> cases v <;> rfl

/-! ## An internal commit of a servo source -/

/-- The entry is taken out, its servo source written to the shadow. -/
def State.srcIssued (s : State) : State :=
  (([Hid.intFull, .intUnits, .intMode, .intRole, .intSrc].foldl (fun s x => s.setH x 0 0) s)).wr
    (.bell .CTL_SERVO_SRC) 0 (s.h .intSrc - 1)

theorem State.intIssue_of_src (idle : s.cstate = 0) (full : s.h .intFull = 1) (noMode : s.h .intMode = 0)
    (noRole : s.h .intRole = 0) (src : s.h .intSrc ≠ 0) :
    s.intIssue = s.srcIssued.arm 0 (s.rd (.glb .COMMIT_PEND) 0 ||| 2) 0 ((s.rd (.glb .DEV_GEN) 0 + 1) % 65536)
      (of96 ((s.timeQ + tickQ (msTicks 1) + 4) / 5)) := by
  unfold State.intIssue
  simp [idle, full, noMode, noRole, src, State.srcIssued, State.timeQ, State.domOn, State.domState]

theorem State.srcIssued_frame : Frame s s.srcIssued [(.bell .CTL_SERVO_SRC, 0)]
    [(.intFull, 0), (.intUnits, 0), (.intMode, 0), (.intRole, 0), (.intSrc, 0)] := by
  unfold State.srcIssued
  simp only [List.foldl_cons, List.foldl_nil]
  exact (((((Frame.refl.setH _ _ _ (by decide)).setH _ _ _ (by decide)).setH _ _ _ (by decide)).setH
    _ _ _ (by decide)).setH _ _ _ (by decide)).wr _ _ _ (by decide)

/-- Settles O3. -/
theorem commitControllerApplies : Obligations.CommitControllerApplies := by
  unfold Obligations.CommitControllerApplies
  refine ⟨?apply, ?plain, ?unready, ?grace, ?late, ?request, ?issue⟩
  case apply =>
    intro s w t part on_ armed kind at_ after parts
    refine congrArg Host.Outcome.next ((if_pos on_).trans ?_)
    unfold State.commitApply
    rw [if_neg (not_not_intro armed)]
    subst at_ after parts
    dsimp only
    rw [kind]
    split <;> rfl
  case plain => exact fun _ t _ => State.unitTry_of_plain t
  case unready => exact fun _ _ _ _ => State.unitTry_of_unready
  case grace =>
    intro s on_ applying
    refine ⟨(s.passCommit (u96 (s.h .commitT) + s.rd (.glb .COMMIT_GRACE) 0 * 65536000)).splitMarked, ?runs, ?state,
      fun _ => State.bit_split_splitMarked, ?frame⟩
    case runs =>
      refine congrArg Host.Outcome.next ((if_pos on_).trans ?_)
      unfold State.commitGrace
      rw [if_neg (not_not_intro applying)]
      rfl
    case state =>
      simp [State.splitMarked, State.cstate]
      rfl
    case frame => exact (Frame.refl.wr _ _ _ (by decide)).wr _ _ _ (by decide)
  case late =>
    intro n s on_ open_ part unapplied
    refine congrArg Host.Outcome.next ((if_pos on_).trans ?_)
    have missing : bit n s.missing = true := by simp [State.missing, part, unapplied]
    exact if_pos ⟨open_, missing⟩
  case request =>
    intro m o v s on_
    obtain ⟨full, units, mode, role, src⟩ := s.intRequest_entry (intReqOf m o v)
    refine ⟨s.intRequest (intReqOf m o v), congrArg Host.Outcome.next (if_pos on_), full,
      by rw [units, units_intReqOf], ?_, ?_, ?_, State.intRequest_merged _, s.intRequest_frame _⟩
    · rintro x rfl
      exact mode (Nat.succ_ne_zero _)
    · rintro x rfl
      exact role (Nat.succ_ne_zero _)
    · rintro x rfl
      exact src (Nat.succ_ne_zero _)
  case issue =>
    intro s on_ idle full noMode noRole src
    obtain ⟨state, part, pend, -, -, devGen, -, at_⟩ := s.srcIssued.values_arm 0 (s.rd (.glb .COMMIT_PEND) 0 ||| 2) 0
      ((s.rd (.glb .DEV_GEN) 0 + 1) % 65536) (of96 ((s.timeQ + tickQ (msTicks 1) + 4) / 5))
    have armed := s.srcIssued.frame_arm 0 (s.rd (.glb .COMMIT_PEND) 0 ||| 2) 0 ((s.rd (.glb .DEV_GEN) 0 + 1) % 65536)
      (of96 ((s.timeQ + tickQ (msTicks 1) + 4) / 5))
    have taken := s.srcIssued_frame
    obtain ⟨keepRd, -, keepH, -⟩ := armed
    refine ⟨_, congrArg Host.Outcome.next ((if_pos on_).trans (State.intIssue_of_src idle full noMode noRole src)), state,
      ?empty, ?source, ?participant, pend, ?gen, at_, ?frame⟩
    case empty =>
      rw [keepH _ _ (by decide)]
      simp [State.srcIssued]
    case source =>
      rw [keepRd _ _ (by decide)]
      have width : (Fld.bell .CTL_SERVO_SRC).desc.width = 1 := rfl
      simp [State.srcIssued, width, trunc]
    case participant =>
      rw [part, bit_trunc_mask (by decide)]
      simp
      exact .inr rfl
    case gen => exact devGen.trans (Nat.mod_mod _ _)
    case frame =>
      exact (taken.mono (by simp) (by simp)).trans ((s.srcIssued.frame_arm _ _ _ _ _).mono
        (fun x hx => List.mem_cons_of_mem _ hx) (fun x hx => List.mem_append_left _ hx))

end Sys2Proof.Machine

/-! Effects that reach their unit, and what a run of bytes leaves alone. -/

namespace Sys2Proof.Machine

@[simp] theorem trunc_zero (w : Nat) : trunc w 0 = 0 := Nat.zero_mod _

variable {s : State}

theorem State.inDom_of_on {d : Dom} (on_ : s.domOn d = true) (k : State → State) : s.inDom d k = k s := if_pos on_

theorem State.inDom_of_off {d : Dom} (off : s.domOn d = false) (k : State → State) : s.inDom d k = s :=
  if_neg (ne_true_of_eq_false off)

theorem State.inUnit_of_up {g : Grp} {i : Nat} (up : s.up g i = true) (k : State → State) : s.inUnit g i k = k s := if_pos up

theorem State.when_of_true {c : Bool} (h : c = true) (k : State → State) : s.when c k = k s := if_pos h

theorem State.when_of_false {c : Bool} (h : c = false) (k : State → State) : s.when c k = s :=
  if_neg (ne_true_of_eq_false h)

/-- A run of bytes changes the memories alone. -/
theorem State.setBytes_mem (s : State) (r : Region) (a : Nat) (l : List Byte) :
    s.setBytes r a l = { s with mem := (s.setBytes r a l).mem } := by
  induction l generalizing s a with
  | nil => rfl
  | cons b t ih =>
    show (s.setByte r a b).setBytes r (a + 1) t = _
    rw [ih]
    rfl

/-- A register reading rests on the variant and the register store. -/
theorem State.rd_congr {t : State} (variant : t.variant = s.variant) (regs : t.regs = s.regs) (f : Fld) (i : Nat) :
    t.rd f i = s.rd f i := by
  unfold State.rd
  rw [variant, regs]

@[simp] theorem State.variant_setBytes (r : Region) (a : Nat) (l : List Byte) : (s.setBytes r a l).variant = s.variant := by
  rw [State.setBytes_mem]

@[simp] theorem State.regs_setBytes (r : Region) (a : Nat) (l : List Byte) : (s.setBytes r a l).regs = s.regs := by
  rw [State.setBytes_mem]

@[simp] theorem State.rd_setBytes (r : Region) (a : Nat) (l : List Byte) (f : Fld) (i : Nat) :
    (s.setBytes r a l).rd f i = s.rd f i := by
  rw [State.setBytes_mem]
  rfl

@[simp] theorem State.rdA_setBytes (r : Region) (a : Nat) (l : List Byte) (f : Fld) (i : Nat) :
    (s.setBytes r a l).rdA f i = s.rdA f i := by
  rw [State.setBytes_mem]
  rfl

@[simp] theorem State.h_setBytes (r : Region) (a : Nat) (l : List Byte) (x : Hid) (i : Nat) :
    (s.setBytes r a l).h x i = s.h x i := by
  rw [State.setBytes_mem]
  rfl

@[simp] theorem State.tr_setBytes (r : Region) (a : Nat) (l : List Byte) (c n : Nat) :
    (s.setBytes r a l).tr c n = s.tr c n := by
  rw [State.setBytes_mem]
  rfl

end Sys2Proof.Machine

/-! The measurement gate, the jump checker and the servo cycle (R75-R78, R84, R85, R88-R91, R164). -/

namespace Sys2Proof.Machine

variable {s : State}

/-! ## Verdicts of the gate (Table 3.2) -/

theorem State.gateDiscards_of {at_ : Nat} (cause : s.on (.bell .STATUS_GATE_CAUTION) 0 = true ∨
    s.on (.bell .STATUS_STEPPING) 0 = true ∨ at_ < s.h .stepEnd ∨ s.nowU < at_ ∨ at_ + 2 * s.periodU < s.nowU) :
    s.gateDiscards at_ = true := by
  simpa [State.gateDiscards, or_assoc] using cause

section
variable {ofs : Int} {at_ : Nat}

theorem State.verdict_of_discard (discards : s.gateDiscards at_ = true) : s.verdict ofs at_ = .disc := if_pos discards

theorem State.verdict_of_far (fits : s.gateDiscards at_ = false) (stepped : s.on (.bell .STATUS_STEPPED) 0 = true)
    (far : s.rd (.bell .JUMP_CFG_THR) 0 * 65536 < ofs.natAbs) : s.verdict ofs at_ = .ref := by
  unfold State.verdict
  rw [if_neg (ne_true_of_eq_false fits), if_pos ⟨stepped, far⟩]

theorem State.verdict_of_near (fits : s.gateDiscards at_ = false)
    (near : ofs.natAbs ≤ s.rd (.bell .JUMP_CFG_THR) 0 * 65536) :
    s.verdict ofs at_ = if 255 ≤ (gateSamples s.meas).length then .ovr else .acc := by
  unfold State.verdict
  rw [if_neg (ne_true_of_eq_false fits), if_neg (fun e => absurd near (Nat.not_le.2 e.2))]

end

section
variable {ofs : Int} {at_ src : Nat}

theorem State.measPost_of_disc (first : s.verdict ofs (u96 at_) = .disc) :
    s.measPost ofs at_ src = s.count (.bell .GATE_DISC) 0 := by
  unfold State.measPost
  rw [first]

theorem State.measPost_of_ref (first : s.verdict ofs (u96 at_) = .ref) :
    s.measPost ofs at_ src = (s.count (.bell .GATE_REF) 0).jumpRefuse ofs := by
  unfold State.measPost
  rw [first]

theorem State.measPost_of_ovr (first : s.verdict ofs (u96 at_) = .ovr) :
    s.measPost ofs at_ src = (s.count (.bell .GATE_OVR) 0).jumpWithin := by
  unfold State.measPost
  rw [first]

theorem State.measPost_of_acc (first : s.verdict ofs (u96 at_) = .acc) :
    s.measPost ofs at_ src = ((s.count (.bell .GATE_ACC) 0).ringSample ofs at_ src).jumpWithin := by
  unfold State.measPost
  rw [first]

end

/-- An accepted sample joins the cycle in hand; of the registers none changes. -/
theorem State.ringSample_meas (ofs : Int) (at_ src : Nat) : (s.ringSample ofs at_ src).meas = s.meas ++ [(ofs, src)] := by
  unfold State.ringSample State.inDom
  dsimp only
  split
  · rw [State.setBytes_mem]
  · rfl

theorem State.ringSample_rd (ofs : Int) (at_ src : Nat) (f : Fld) (i : Nat) :
    (s.ringSample ofs at_ src).rd f i = s.rd f i := by
  refine State.rd_congr ?_ ?_ f i <;> unfold State.ringSample State.inDom <;> dsimp only <;> split <;> simp

/-! ## The jump checker (R84, R85, Table 3.3) -/

/-- The state in which the first refused sample of a jump leaves the checker. -/
def State.jumpBegun (s : State) (ofs : Int) : State :=
  ((((s.wr (.bell .CLEAR_CNT) 0 0).jumpNew ofs).wr (.bell .STATUS_JSTATE) 0 1).jumpTimer).setH .jumpFirst 0 s.age

theorem State.jumpRefuse_of_idle (ofs : Int) (idle : s.rd (.bell .STATUS_JSTATE) 0 = 0) :
    s.jumpRefuse ofs = (s.jumpBegun ofs).raise .BELL_JUMP_REFUSED locBell := by
  unfold State.jumpRefuse
  dsimp only
  rw [if_pos idle]
  rfl

theorem State.jumpBegun_values (ofs : Int) : (s.jumpBegun ofs).rd (.bell .STATUS_JSTATE) 0 = 1 ∧
    (s.jumpBegun ofs).rd (.bell .CLEAR_CNT) 0 = 0 ∧
    (s.jumpBegun ofs).rd (.bell .JUMP_GEN) 0 = (s.rd (.bell .JUMP_GEN) 0 + 1) % 2 ^ 16 ∧
    (s.jumpBegun ofs).refused = [ofs] ∧
    (s.jumpBegun ofs).h .jumpAt = s.age + s.rd (.bell .JUMP_CFG_PERSIST) 0 * ticksPerSec ∧
    (s.jumpBegun ofs).h .jumpFirst = s.age := by
  have begun : ∀ f i, (s.jumpBegun ofs).rd f i = (((((s.wr (.bell .CLEAR_CNT) 0 0).bump (.bell .JUMP_GEN) 0).wrS
      (.bell .JUMP_OFS) 0 ofs).wr (.bell .STATUS_JSTATE) 0 1).rd f i) := fun _ _ => rfl
  have persist : ((s.wr (.bell .CLEAR_CNT) 0 0).jumpNew ofs).rd (.bell .JUMP_CFG_PERSIST) 0 =
      (((s.wr (.bell .CLEAR_CNT) 0 0).bump (.bell .JUMP_GEN) 0).wrS (.bell .JUMP_OFS) 0 ofs).rd
        (.bell .JUMP_CFG_PERSIST) 0 := rfl
  refine ⟨?state, ?clear, ?generation, rfl, ?timer, by simp [State.jumpBegun]⟩
  case state =>
    rw [begun, State.rd_wr, if_pos ⟨rfl, rfl⟩]
    rfl
  case clear => simp [begun, State.bump, State.wrS]
  case generation =>
    have width : (Fld.bell .JUMP_GEN).desc.width = 16 := rfl
    simp [begun, State.bump, State.wrS, width, trunc]
  case timer =>
    have age : ((s.wr (.bell .CLEAR_CNT) 0 0).jumpNew ofs).age = s.age := rfl
    simp [State.jumpBegun, State.jumpTimer, persist, age, State.bump, State.wrS]

theorem State.jumpWithin_of_idle (idle : s.rd (.bell .STATUS_JSTATE) 0 = 0) : s.jumpWithin = s := if_pos idle

theorem State.jumpWithin_of_few (jump : s.rd (.bell .STATUS_JSTATE) 0 ≠ 0) (few : s.rd (.bell .CLEAR_CNT) 0 < 7) :
    s.jumpWithin = s.wr (.bell .CLEAR_CNT) 0 (s.rd (.bell .CLEAR_CNT) 0 + 1) := by
  unfold State.jumpWithin
  dsimp only
  rw [if_neg jump, if_neg (by omega)]

theorem State.jumpWithin_of_eighth (jump : s.rd (.bell .STATUS_JSTATE) 0 ≠ 0) (seven : s.rd (.bell .CLEAR_CNT) 0 = 7) :
    s.jumpWithin = { ((s.wr (.bell .CLEAR_CNT) 0 8).wr (.bell .STATUS_JSTATE) 0 0).raise .BELL_JUMP_CLEARED locBell with
      refused := [] } := by
  unfold State.jumpWithin
  dsimp only
  rw [if_neg jump, seven]
  rfl

/-! ## The servo (R88-R91) -/

/-- The hardware servo's integrator at a deadline; the posted word has been taken. -/
def State.deadlineInt (s : State) : State := (s.setH .fwPend 0 0).wrS (.bell .HWS_I) 0 ((s.setH .fwPend 0 0).hwServo.1)

theorem State.loopRuns_setH_fwPend (v : Nat) : (s.setH .fwPend 0 v).loopRuns = s.loopRuns := by
  simp [State.loopRuns, State.mode, State.standby, State.role, State.slotSrc]
  rfl

/-- Firmware's word within the deadline is the word. -/
theorem State.servoDeadline_of_word (noLoop : s.loopRuns = false) (soft : s.on (.bell .STATUS_SRC_APPLIED) 0 = false)
    (posted : s.h .fwPend ≠ 0) :
    s.servoDeadline = ((s.deadlineInt.wrS (.bell .HWS_I) 0 (toS 48 (s.h .fwPend - 1))).wr
      (.bell .STATUS_MISS_CNT) 0 0).servoWord (toS 48 (s.h .fwPend - 1)) := by
  unfold State.servoDeadline
  dsimp only
  rw [State.loopRuns_setH_fwPend, noLoop, soft, if_neg Bool.false_ne_true, if_pos ⟨posted, .inl Bool.false_ne_true⟩,
    if_neg Bool.false_ne_true]
  rfl

/-- A miss below the third is only counted. -/
theorem State.servoDeadline_of_miss (noLoop : s.loopRuns = false) (soft : s.on (.bell .STATUS_SRC_APPLIED) 0 = false)
    (none_ : s.h .fwPend = 0) (few : s.rd (.bell .STATUS_MISS_CNT) 0 < 2) :
    s.servoDeadline = (s.deadlineInt.wr (.bell .STATUS_MISS_CNT) 0 (s.rd (.bell .STATUS_MISS_CNT) 0 + 1)).raise
      .BELL_SERVO_MISS locBell := by
  have count : s.deadlineInt.rd (.bell .STATUS_MISS_CNT) 0 = s.rd (.bell .STATUS_MISS_CNT) 0 := by
    simp [State.deadlineInt, State.wrS]
  have integral : s.deadlineInt = (s.setH .fwPend 0 0).wrS (.bell .HWS_I) 0 ((s.setH .fwPend 0 0).hwServo.1) := rfl
  unfold State.servoDeadline
  dsimp only
  rw [State.loopRuns_setH_fwPend, noLoop, soft, if_neg Bool.false_ne_true, if_neg (fun e => e.1 none_),
    if_neg Bool.false_ne_true, ← integral, count, if_neg (by omega), Nat.min_eq_right (by omega)]

/-- Settles O7: the gate by the first verdict that holds, the servo by what was posted. -/
theorem gateAndServoComplete : Obligations.GateAndServoComplete := by
  unfold Obligations.GateAndServoComplete
  refine ⟨?disc, ?ref, ?ovr, ?acc, fun _ => State.jumpWithin_of_idle, fun _ => State.jumpWithin_of_few,
    fun _ => State.jumpWithin_of_eighth, ?persist, ?caution, ?deadline, fun _ => State.servoDeadline_of_word,
    fun _ => State.servoDeadline_of_miss, ?update, ?wrongCycle, ?lateUpdate, ?boundary, ?loopRef, ?loopAcc⟩
  case disc =>
    intro r ofs at_ src s reach cause
    refine congrArg Host.Outcome.next ((State.writeTo_of_reaches reach _).trans (congrArg State.ok ?_))
    exact State.measPost_of_disc (State.verdict_of_discard (State.gateDiscards_of cause))
  case ref =>
    intro r ofs at_ src s reach fits stepped far idle
    have idle' : (s.count (.bell .GATE_REF) 0).rd (.bell .STATUS_JSTATE) 0 = 0 := by simp [State.count, idle]
    obtain ⟨state, clear, generation, refused, timer, first⟩ := (s.count (.bell .GATE_REF) 0).jumpBegun_values ofs.toInt
    refine ⟨(s.count (.bell .GATE_REF) 0).jumpBegun ofs.toInt,
      congrArg Host.Outcome.next ((State.writeTo_of_reaches reach _).trans (congrArg State.ok ?_)), state, clear,
      generation.trans (by simp [State.count]), refused, timer.trans (by simp [State.count]), first⟩
    rw [State.measPost_of_ref (State.verdict_of_far fits stepped far), State.jumpRefuse_of_idle _ idle']
  case ovr =>
    intro r ofs at_ src s reach fits near full
    refine congrArg Host.Outcome.next ((State.writeTo_of_reaches reach _).trans (congrArg State.ok ?_))
    exact State.measPost_of_ovr ((State.verdict_of_near fits near).trans (if_pos full))
  case acc =>
    intro r ofs at_ src s reach fits near room
    have width : (Fld.bell .GATE_ACC).desc.width = 32 := rfl
    refine ⟨(s.count (.bell .GATE_ACC) 0).ringSample ofs.toInt at_.toNat src.toNat,
      congrArg Host.Outcome.next ((State.writeTo_of_reaches reach _).trans (congrArg State.ok ?_)),
      State.ringSample_meas _ _ _, ?_, ?_⟩
    · exact State.measPost_of_acc ((State.verdict_of_near fits near).trans (if_neg (Nat.not_le.2 room)))
    · rw [State.ringSample_rd]
      simp [State.count, width, trunc_of_lt (satAdd_lt 32 _ _)]
    · intro f i other
      rw [State.ringSample_rd, State.count, State.rd_wr, if_neg (fun e => other (Prod.ext e.1 e.2))]
  case persist =>
    intro s w on_ refused waited
    refine ⟨_, congrArg Host.Outcome.next (State.inDom_of_on on_ _), ?_⟩
    subst waited
    unfold State.jumpPersist
    rw [if_neg (not_not_intro refused)]
    simp
  case caution =>
    intro s on_ caution ended
    refine congrArg Host.Outcome.next ((State.inDom_of_on on_ _).trans (if_pos ⟨caution, ?_⟩))
    rw [ended]
    exact Bool.false_ne_true
  case deadline =>
    intro s w on_ pending reached
    refine congrArg Host.Outcome.next ((State.inDom_of_on on_ _).trans ?_)
    subst reached
    unfold State.deadline
    rw [if_neg pending]
  case update =>
    intro r freq seq s reach soft number
    refine congrArg Host.Outcome.next ((State.writeTo_of_reaches reach _).trans (congrArg State.ok ?_))
    simp [State.fwUpd, soft, number]
  case wrongCycle =>
    intro r freq seq s reach soft number
    refine congrArg Host.Outcome.next ((State.writeTo_of_reaches reach _).trans (congrArg State.ok ?_))
    simp [State.fwUpd, soft, number]
  case lateUpdate =>
    intro r freq seq s reach hard settled
    refine congrArg Host.Outcome.next ((State.writeTo_of_reaches reach _).trans (congrArg State.ok ?_))
    exact if_pos ⟨hard, settled⟩
  case boundary =>
    intro phase s w on_ reached noSlot
    refine ⟨_, congrArg Host.Outcome.next ((State.inDom_of_on on_ _).trans ?_), rfl⟩
    subst reached
    unfold State.boundary
    dsimp only
    simp only [noSlot, ne_eq, not_true_eq_false, false_and, if_false]
  case loopRef =>
    intro phase s on_ runs verdict
    refine congrArg Host.Outcome.next ((State.inDom_of_on on_ _).trans ?_)
    unfold State.loopUpdate
    simp only [runs, verdict, not_true_eq_false, if_false]
  case loopAcc =>
    intro phase s on_ runs verdict
    refine ⟨_, _, congrArg Host.Outcome.next ((State.inDom_of_on on_ _).trans ?_), rfl, rfl⟩
    unfold State.loopUpdate
    simp only [runs, verdict, not_true_eq_false, if_false]

end Sys2Proof.Machine

/-! Stamp rings (R200, R202, R203). -/

namespace Sys2Proof.Machine

@[simp] theorem length_leBytes (n v : Nat) : (leBytes n v).length = n := by
  induction n generalizing v with
  | zero => rfl
  | succ n ih => simp [leBytes, ih]

@[simp] theorem length_octetsAt (l : List Byte) (o n : Nat) : (octetsAt l o n).length = n := by simp [octetsAt]

/-- Every record is 32 octets long (Table 6.4). -/
@[simp] theorem StampRec.length_toBytes (rec : StampRec) (p : Nat) (phase lost : Bool) :
    (rec.toBytes p phase lost).length = 32 := by simp [StampRec.toBytes]

variable {s : State} {p : Nat}

/-- The record of a second below the rate only moves the counts of the second. -/
theorem State.recCount_of_few (few : (if s.h .recSec = s.age / ticksPerSec then s.h .recCnt else 0) < recRate) :
    s.recCount = (true, (s.setH .recSec 0 (s.age / ticksPerSec)).setH .recCnt 0
      ((if s.h .recSec = s.age / ticksPerSec then s.h .recCnt else 0) + 1)) := if_pos few

theorem State.recCount_rd (f : Fld) (i : Nat) : s.recCount.2.rd f i = s.rd f i := by
  unfold State.recCount
  dsimp only
  generalize (if s.h .recSec = s.age / ticksPerSec then s.h .recCnt else 0) = n
  split <;> rfl

theorem State.ringOk_of_host (loc : s.rd (.stamp .SPORT_CFG_RING_LOC) p = 0) : s.ringOk p = true := by
  simp [State.ringOk, loc]

/-- A record in a host ring: its octets, HEAD after them, PHASE at the wrap (R202). -/
def State.recPlaced (s : State) (p : Nat) (rec : StampRec) : State :=
  let size := 2 ^ s.rd (.stamp .SPORT_CFG_RING_SIZE) p
  let head := s.rd (.stamp .SPORT_HEAD) p
  let s := s.setBytes .host (s.rd (.stamp .SPORT_RBASE) p + 32 * head)
    (rec.toBytes p (s.h .sringPhase p == 0) (s.h .sringLost p == 1))
  let s := (s.setH .sringLost p 0).wr (.stamp .SPORT_HEAD) p ((head + 1) % size)
  if head + 1 = size then s.setH .sringPhase p (1 - s.h .sringPhase p) else s

section
variable {rec : StampRec} (en : s.on (.stamp .CTL_EN) 0 = true) (ringEn : s.on (.stamp .SPORT_CFG_RING_EN) p = true)
  (loc : s.rd (.stamp .SPORT_CFG_RING_LOC) p = 0)
include en ringEn loc

theorem State.recWrite_of_room {t : State} (counted : s.recCount = (true, t))
    (room : (s.rd (.stamp .SPORT_HEAD) p + 1) % 2 ^ s.rd (.stamp .SPORT_CFG_RING_SIZE) p ≠
      s.rd (.stamp .SPORT_TAIL) p % 2 ^ s.rd (.stamp .SPORT_CFG_RING_SIZE) p) :
    s.recWrite p rec = t.recPlaced p rec := by
  have same : ∀ f i, t.rd f i = s.rd f i := fun f i => by rw [← s.recCount_rd, counted]
  unfold State.recWrite
  rw [if_neg (by simp [en, ringEn]), if_neg (by simp [State.ringOk_of_host loc]), counted]
  dsimp only
  rw [same, same, same, if_neg room, same, if_pos loc]
  unfold State.recPlaced
  simp only [same]

theorem State.recWrite_of_full (counted : s.recCount.1 = true)
    (full : (s.rd (.stamp .SPORT_HEAD) p + 1) % 2 ^ s.rd (.stamp .SPORT_CFG_RING_SIZE) p =
      s.rd (.stamp .SPORT_TAIL) p % 2 ^ s.rd (.stamp .SPORT_CFG_RING_SIZE) p) :
    s.recWrite p rec = (s.recCount.2.recLost p).raiseP .STAMP_RING_FULL p := by
  obtain ⟨passes, t, counting⟩ : ∃ b t, s.recCount = (b, t) := ⟨_, _, rfl⟩
  have same : ∀ f i, t.rd f i = s.rd f i := fun f i => by rw [← s.recCount_rd, counting]
  rw [counting] at counted ⊢
  obtain rfl : passes = true := counted
  unfold State.recWrite
  rw [if_neg (by simp [en, ringEn]), if_neg (by simp [State.ringOk_of_host loc]), counting]
  dsimp only
  rw [same, same, same, if_pos full]

end

theorem State.recWrite_of_off (rec : StampRec)
    (off : s.on (.stamp .CTL_EN) 0 = false ∨ s.on (.stamp .SPORT_CFG_RING_EN) p = false) : s.recWrite p rec = s := by
  unfold State.recWrite
  rw [if_pos (by simpa using off)]

/-! ## What a record leaves in its ring -/

section
variable (rec : StampRec)

/-- The record without the wrap's change of PHASE. -/
def State.recStored (s : State) (p : Nat) (rec : StampRec) : State :=
  ((s.setBytes .host (s.rd (.stamp .SPORT_RBASE) p + 32 * s.rd (.stamp .SPORT_HEAD) p)
    (rec.toBytes p (s.h .sringPhase p == 0) (s.h .sringLost p == 1))).setH .sringLost p 0).wr (.stamp .SPORT_HEAD) p
    ((s.rd (.stamp .SPORT_HEAD) p + 1) % 2 ^ s.rd (.stamp .SPORT_CFG_RING_SIZE) p)

theorem State.recPlaced_eq : s.recPlaced p rec =
    if s.rd (.stamp .SPORT_HEAD) p + 1 = 2 ^ s.rd (.stamp .SPORT_CFG_RING_SIZE) p then
      (s.recStored p rec).setH .sringPhase p (1 - s.h .sringPhase p)
    else s.recStored p rec := by
  have phase : (s.recStored p rec).h .sringPhase p = s.h .sringPhase p := by simp [State.recStored]
  rw [← phase]
  rfl

theorem State.recPlaced_rd (f : Fld) (i : Nat) : (s.recPlaced p rec).rd f i = (s.recStored p rec).rd f i := by
  rw [State.recPlaced_eq]
  split
  · simp only [State.setH_readings]
  · rfl

theorem State.recPlaced_byte (g : Region) (a : Nat) : (s.recPlaced p rec).byte g a = (s.recStored p rec).byte g a := by
  rw [State.recPlaced_eq]
  split
  · simp only [State.setH_readings]
  · rfl

theorem State.recPlaced_head (size : 2 ^ s.rd (.stamp .SPORT_CFG_RING_SIZE) p ≤ 2 ^ 16) :
    (s.recPlaced p rec).rd (.stamp .SPORT_HEAD) p =
      (s.rd (.stamp .SPORT_HEAD) p + 1) % 2 ^ s.rd (.stamp .SPORT_CFG_RING_SIZE) p := by
  rw [State.recPlaced_rd, State.recStored, State.rd_wr, if_pos ⟨rfl, rfl⟩]
  exact trunc_of_lt (Nat.lt_of_lt_of_le (Nat.mod_lt _ (Nat.two_pow_pos _)) size)

theorem State.recPlaced_rd_other {f : Fld} {i : Nat} (other : (f, i) ≠ (Fld.stamp .SPORT_HEAD, p)) :
    (s.recPlaced p rec).rd f i = s.rd f i := by
  rw [State.recPlaced_rd, State.recStored, State.rd_wr, if_neg (fun e => other (Prod.ext e.1 e.2))]
  simp only [State.setH_readings, State.rd_setBytes]

theorem State.recPlaced_lost : (s.recPlaced p rec).h .sringLost p = 0 := by
  rw [State.recPlaced_eq]
  split <;> simp [State.recStored]

theorem State.recPlaced_phase : (s.recPlaced p rec).h .sringPhase p =
    if s.rd (.stamp .SPORT_HEAD) p + 1 = 2 ^ s.rd (.stamp .SPORT_CFG_RING_SIZE) p then 1 - s.h .sringPhase p
    else s.h .sringPhase p := by
  rw [State.recPlaced_eq]
  split <;> simp [State.recStored]

theorem State.recStored_byte (g : Region) (a : Nat) : (s.recStored p rec).byte g a =
    if g = .host ∧ s.rd (.stamp .SPORT_RBASE) p + 32 * s.rd (.stamp .SPORT_HEAD) p ≤ a ∧
        a < s.rd (.stamp .SPORT_RBASE) p + 32 * s.rd (.stamp .SPORT_HEAD) p + 32 then
      (rec.toBytes p (s.h .sringPhase p == 0) (s.h .sringLost p == 1)).getD
        (a - (s.rd (.stamp .SPORT_RBASE) p + 32 * s.rd (.stamp .SPORT_HEAD) p)) 0
    else s.byte g a := by
  unfold State.recStored
  simp only [State.wr_readings, State.setH_readings]
  rw [State.byte_setBytes, StampRec.length_toBytes]

end

/-- Settles O16. -/
theorem stampRingsComplete : Obligations.StampRingsComplete := by
  unfold Obligations.StampRingsComplete
  refine ⟨?enable, ?locked, ?placed, ?full, fun _ rec _ => State.recWrite_of_off rec,
    fun rec p _ _ => rec.length_toBytes p _ _⟩
  case enable =>
    intro r p w s reach idle one loc eng size mode
    refine congrArg Host.Outcome.next ((State.writeTo_of_reaches reach _).trans (congrArg State.ok ?_))
    unfold State.sportCfgWrite State.ringEnWrite
    simp [idle, one, loc, eng, size, mode]
  case locked =>
    intro r p w s reach runs one size mode
    refine congrArg Host.Outcome.next ((State.writeTo_of_reaches reach _).trans (congrArg State.ok ?_))
    unfold State.sportCfgWrite State.ringEnWrite
    simp [runs, one, size, mode, State.stampRefused]
  case placed =>
    intro p rec s size head en ringEn loc few sizeIs headIs inside small room
    subst sizeIs headIs
    refine ⟨_, State.recWrite_of_room en ringEn loc (State.recCount_of_few few) room, State.recPlaced_head rec small,
      State.recPlaced_lost rec, ?wraps, ?stays, ?octets, ?elsewhere, ?others⟩
    case wraps =>
      intro wraps
      rw [State.recPlaced_phase]
      exact (if_pos wraps).trans (by simp)
    case stays =>
      intro stays
      rw [State.recPlaced_phase]
      exact (if_neg stays).trans (by simp)
    case octets =>
      intro k hk
      rw [State.recPlaced_byte, State.recStored_byte]
      simp [hk]
    case elsewhere =>
      intro g a outside
      rw [State.recPlaced_byte, State.recStored_byte]
      exact if_neg outside
    case others =>
      intro f i other
      rw [State.recPlaced_rd_other rec other]
      rfl
  case full =>
    intro p rec s en ringEn loc counted full
    exact State.recWrite_of_full en ringEn loc counted full

end Sys2Proof.Machine

/-! A frame's way in: the MAC, the receive queue, the ingress pipeline and the frame's end (R219-R235, R243-R246). -/

namespace Sys2Proof.Machine

variable {s : State} {p : Nat} {l : List Byte} {x : StampIn}

/-! ## The MAC (R243-R246) -/

theorem State.frameRx_of_short (short : l.length < 64) (user : macCtl l = none) :
    s.frameRx p x l = (s.frameEnd p).bump (.port .STAT_UNDERSIZE) p := by
  unfold State.frameRx State.macCount
  simp only [user, short, if_true]

theorem State.frameRx_of_ctl {op : Nat} (ctl : macCtl l = some op) (notPause : op ≠ 0x0001) (notPfc : op ≠ 0x0101)
    (whole : 64 ≤ l.length) (good : (s.frameEnd p).macErr p l = 0) :
    s.frameRx p x l = ((((s.frameEnd p).macCount p l).bump (.port .STAT_CTL_RX) p).count (.port .CNT_CTL_DROP) p) := by
  unfold State.frameRx
  simp [ctl, whole, good, notPause, notPfc]

theorem State.forwards_iff : s.forwards p = true ↔ (2 ≤ s.mode ∧ s.mode ≤ 5 ∧ ¬ (s.h .survKind = 1 ∧ s.survPort = p)) := by
  simp [State.forwards, and_assoc, imp_iff_not_or]

/-- A frame that its port does not take, by the first reason of R244 that holds. -/
theorem State.rxTake_of_short_bad (short : l.length ≤ 192) (bad : s.macErr p l ≠ 0) : s.rxTake p x l = s :=
  if_pos ⟨short, bad⟩

theorem State.rxTake_of_down (good : s.macErr p l = 0) (down : s.pstate p ≠ pUP)
    (user : s.traps p (s.rxMd p l (s.rxStamp p x) (s.laneVoid (s.stampLane p x.lane) || x.uncorr)) = false) :
    s.rxTake p x l = s.count (.port .CNT_DOWN_DROP) p := by
  unfold State.rxTake
  dsimp only
  rw [if_neg (fun e => e.2 good), user, if_neg Bool.false_ne_true, if_pos down]

/-- On a port that is UP in a forwarding mode a good frame is taken, whether it is a trapped one or not. -/
theorem State.rxTake_of_up (good : s.macErr p l = 0) (up : s.pstate p = pUP) (forwards : s.forwards p = true) :
    s.rxTake p x l = s.setRx p (some
      { octets := l, err := 0, md := s.rxMd p l (s.rxStamp p x) (s.laneVoid (s.stampLane p x.lane) || x.uncorr),
        void := s.laneVoid (s.stampLane p x.lane) || x.uncorr, caution := s.caution, cyc := s.cyc16 }) := by
  unfold State.rxTake
  dsimp only
  rw [if_neg (fun e => e.2 good), if_neg (not_not_intro up), if_neg (not_not_intro forwards), ite_self, good]

/-! ## The ingress pipeline (R219-R222) -/

theorem State.ingress_of_none (empty : s.rxOf p = none) : s.ingress p = s := by
  unfold State.ingress
  rw [empty]

/-- A frame none of whose cells is written yet runs through the pipeline and leaves it dropped, to the responder or to its
destinations. -/
theorem State.ingress_of_waiting {r : Rx} {t : State} {tr : Track} (waits : s.rxOf p = some r)
    (fresh : r.entered = false) (live : r.dead = false) (noCells : r.cells = [])
    (runs : s.pipeline (portSlice p) false
      ⟨mdBANK.put (s.rd (.core .PAIR_CTL_BANK_APPLIED) (portSlice p))
        (mdPAIR_GEN.put (s.h .unitGen (194 + portSlice p)) r.md), r.octets.take 192, 0, 0, []⟩ = (tr, t)) :
    s.ingress p = (fun (b : Bool × State) => if b.1 = false then b.2.rxDrop p else if bit 30 (mdSTAMP.get tr.md) then b.2
        else b.2.ingressOut p (portSlice p) tr.md)
      ((t.setRx p (some { r with
        octets := frameAfter r.octets tr.win, md := tr.md, entered := true, recd := bit 31 (mdSTAMP.get tr.md),
        pdr := bit 30 (mdSTAMP.get tr.md) })).streamPass (frameAfter r.octets tr.win)) := by
  unfold State.ingress
  rw [waits]
  simp only [fresh, live, noCells, Bool.false_eq_true, or_self, if_false, runs]
  split
  · next gone => rw [gone]; rfl
  · next passes => rw [passes]; rfl

/-! ## Destinations (R229, R230) -/

theorem State.wants_of_reserved {md : Nat} (reserved : 5 ≤ mdDKIND.get md) : s.wants md = none := if_pos (.inl reserved)

theorem State.wants_of_port {md : Nat} (kind : mdDKIND.get md = 1) (noMirror : mdMIRROR.get md = 0)
    (dest : mdDEST.get md < 72) (on_ : s.portOn (mdDEST.get md) = true) :
    s.wants md = some [⟨1, mdDEST.get md, mdTC.get md⟩] := by
  simp [State.wants, State.destOk, dkPORT, dkGROUP, kind, noMirror, dest, on_]

theorem State.wants_of_off {md : Nat} (kind : mdDKIND.get md = 1) (off : s.portOn (mdDEST.get md) = false) :
    s.wants md = none := by
  simp [State.wants, State.destOk, dkPORT, kind, off]

/-! ## The end of a frame (R233, R235) -/

theorem State.frameEnd_of_none (empty : s.rxOf p = none) : s.frameEnd p = s := by
  unfold State.frameEnd
  rw [empty]

section
variable {r : Rx} (waits : s.rxOf p = some r) (entered : r.entered = true) (noRecord : r.recd = false)
include waits entered noRecord

theorem State.frameEnd_of_dead (dead : r.dead = true) : s.frameEnd p = s.setRx p none := by
  unfold State.frameEnd
  simp [waits, entered, dead, State.rxRecord, noRecord]

omit entered noRecord in
/-- A frame with all its cells needs no more of them. -/
theorem State.fillCells_of_whole (n : Nat) (whole : cellsOf r.octets.length ≤ r.cells.length) : s.fillCells p n = s := by
  cases n with
  | zero => rfl
  | succ n =>
    unfold State.fillCells
    simp only [waits, whole, or_true, if_true]

theorem State.frameEnd_of_good (live : r.dead = false) (good : r.err = 0) (none_ : r.late = []) (user : r.pdr = false)
    (cells : r.cells ≠ []) (whole : cellsOf r.octets.length ≤ r.cells.length) :
    s.frameEnd p = (s.markDone (r.cells.headD 0)).setRx p none := by
  unfold State.frameEnd
  simp [waits, entered, live, good, none_, user, cells, State.fillCells_of_whole waits _ whole,
    State.rxRecord, noRecord]

end

/-- Settles O20. -/
theorem forwardingCompletes : Obligations.ForwardingCompletes := by
  unfold Obligations.ForwardingCompletes
  refine ⟨?receive, fun _ _ _ _ => State.frameRx_of_short, fun _ _ _ _ _ => State.frameRx_of_ctl,
    fun _ _ _ _ => State.rxTake_of_short_bad, fun _ _ _ _ => State.rxTake_of_down, fun _ _ _ _ => State.rxTake_of_up,
    fun _ _ => State.forwards_iff, ?headNone, ?head, fun _ _ => State.wants_of_reserved, fun _ _ => State.wants_of_port,
    fun _ _ kind _ => State.wants_of_off kind, ?endNone, ?endDead, ?endGood, ?underrun, ?stored, ?inEffect, ?other⟩
  case receive =>
    intro p x l s up lane lo hi
    exact congrArg Host.Outcome.next ((State.inUnit_of_up up _).trans (State.when_of_true (by simp [lane, lo, hi]) _))
  case headNone =>
    intro p s up empty
    exact congrArg Host.Outcome.next ((State.inUnit_of_up up _).trans (State.ingress_of_none empty))
  case head =>
    intro p s t r tr pr up waits fresh live noCells slice runs
    subst slice
    exact congrArg Host.Outcome.next ((State.inUnit_of_up up _).trans
      (State.ingress_of_waiting waits fresh live noCells runs))
  case endNone =>
    intro p s up empty
    exact congrArg Host.Outcome.next ((State.inUnit_of_up up _).trans (State.frameEnd_of_none empty))
  case endDead =>
    intro p s r up waits entered dead noRecord
    exact congrArg Host.Outcome.next ((State.inUnit_of_up up _).trans
      (State.frameEnd_of_dead waits entered noRecord dead))
  case endGood =>
    intro p s r up waits entered live good noRecord none_ user cells whole
    exact congrArg Host.Outcome.next ((State.inUnit_of_up up _).trans
      (State.frameEnd_of_good waits entered noRecord live good none_ user cells whole))
  case underrun =>
    intro p s t up sends cut open_
    refine congrArg Host.Outcome.next ((State.inUnit_of_up up _).trans ?_)
    simp [sends, cut, open_]
  case stored =>
    intro p s t up sends stored
    refine congrArg Host.Outcome.next ((State.inUnit_of_up up _).trans ?_)
    simp [sends, stored]
  case inEffect =>
    intro r c eg bankB k w s reach inEffect
    exact congrArg Host.Outcome.next ((State.writeTo_of_reaches reach _).trans (congrArg State.ok (if_pos (.inl inEffect))))
  case other =>
    intro r c eg bankB k w s reach other may
    refine congrArg Host.Outcome.next ((State.writeTo_of_reaches reach _).trans (congrArg State.ok (if_neg ?_)))
    rintro (same | ⟨host, notService⟩)
    · exact other same
    · rcases may with part | service
      · exact Bool.noConfusion (part.symm.trans host)
      · exact notService service

end Sys2Proof.Machine

/-! How an instruction that a core issues runs, and what its ends leave (R285, R297). -/

namespace Sys2Proof.Machine

variable {s : State} {x : Issue} {k w : Nat} {f : State → Sig × State}

/-- Nothing comes before an instruction that a core issues with legal fields: its body runs. -/
theorem Issues.runs {legal : Bool} (issues : Issues s x k) (isLegal : legal = true) :
    s.issue x k w legal f = s.finish x.core (f s) := by
  obtain ⟨can, pre, pred⟩ := issues
  unfold State.issue
  rw [if_neg (not_not_intro can), pre]
  simp [pred, isLegal]

/-- The same, with the end its body comes to. -/
theorem Issues.ends {legal : Bool} {r : Sig × State} (issues : Issues s x k) (isLegal : legal = true) (body : f s = r) :
    s.issue x k w legal f = s.finish x.core r := by rw [issues.runs isLegal, body]

/-- An instruction that breaks its rules raises ILLEGAL with its word. -/
theorem Issues.illegal {legal : Bool} (issues : Issues s x k) (broken : legal = false) :
    s.issue x k w legal f = s.finish x.core (.exc cILLEGAL w, s) := by
  obtain ⟨can, pre, pred⟩ := issues
  unfold State.issue
  rw [if_neg (not_not_intro can), pre]
  simp [pred, broken]

theorem State.finish_wait (c : Core) (t : State) : s.finish c (.wait, t) = t.setCst c tWAITING := rfl

theorem tNumOk_of_tz {c : Core} {n : Nat} (tz : isTz c = true) (hn : n < 4) : tNumOk c n = true := by
  cases c <;> simp_all [isTz, tNumOk]

theorem pOk_of_lt {n : Nat} (hn : n < 8) : pOk n = true := decide_eq_true hn

end Sys2Proof.Machine

/-! Where the deadline of a wait does not write the register that the wait named (R301, R351). -/

namespace Sys2Proof.Machine

/-! ## A wait whose result predicate is number 28

`State.waitDeadline` reads the destination register after it has written the predicate, and the registers of a core lie in
one store: predicate 28 would lie where the destination is kept. No instruction begins such a wait, but a state may hold
one. -/

/-- Thread 0 of engine 0 waits in a qdeq with destination g1, result predicate 28 and a deadline that has passed. -/
def strayWait : State :=
  ((((((State.reset.wr (.hrt .PWR_STAT_STATE) 0 0xFFFFF).wr (.eng .CTL_CLK_EN) 0 1).setTstate 0 0 tWAITING).setTr 0 rWAIT
    wQDEQ).setTr 0 rDEADLINE 1).setTr 0 rWD 1).setTr 0 rWP 28

/-- What register n of core c holds after a command; 0 where the command hands on no state. -/
def trAfter (c n : Nat) : Host.Outcome State Fault Refusal → Nat
  | .next s => s.tr c n
  | _ => 0

theorem strayWait_waits : strayWait.up .ENG 0 = true ∧ strayWait.cst (.eng 0 0) = tWAITING ∧
    strayWait.tr 0 rDEADLINE = 1 ∧ strayWait.tr 0 rWAIT = wQDEQ := by decide

/-- A deadline of 1 that is due at 0: no time passes to the next step. -/
theorem State.passBell_due {s : State} {c n : Nat} (timed : s.tr c n = 1) : s.passBell 0 = s.passBell (s.tr c n - 1) := by
  rw [timed]

/-- The command leaves g1 as it was: it reads the destination as 0. -/
theorem strayWait_deadline : trAfter 0 1 (exec (.waitDeadline 0 0) strayWait) = 0 := by decide

/-- The statement would have ones there. -/
theorem strayWait_stated : ((((strayWait.passBell 0).setP (.eng 0 0) ((strayWait.passBell 0).tr 0 rWP) 0).setG (.eng 0 0)
    ((strayWait.passBell 0).tr 0 rWD) 0xFFFFFFFF).waitEnd (.eng 0 0)).tr 0 1 = 0xFFFFFFFF := by decide

/-- Refutes O27: the clause on the deadline of a qdeq or hget fails in `strayWait`. -/
theorem not_engineInstructionsComplete : ¬ Obligations.EngineInstructionsComplete := by
  unfold Obligations.EngineInstructionsComplete
  rintro ⟨-, -, -, -, deadline, -⟩
  obtain ⟨up, waits, timed, kind⟩ := strayWait_waits
  have stated := deadline 0 0 (.eng 0 0) strayWait (strayWait.passBell 0) rfl up waits
    (fun none_ => absurd (timed.symm.trans none_) (by decide)) (.inl kind) (State.passBell_due timed)
  have left := congrArg (trAfter 0 1) stated
  rw [strayWait_deadline] at left
  exact absurd (left.trans strayWait_stated) (by decide)

end Sys2Proof.Machine

/-! Loads, stores, atomics and vector moves of the TZ cores (R290-R296, R330, R331, R336). -/

namespace Sys2Proof.Machine

variable {s u w : State} {x : Issue} {c : Core} {a n v old : Nat} {ue : Bool}

/-! ## What an access comes to -/

/-- A core that is no stage cell takes the trap of an exception. -/
theorem State.finish_exc_of_tz (tz : isTz c = true) (k v : Nat) (u : State) : s.finish c (.exc k v, u) = u.trap c k v := by
  cases c with
  | cell => exact absurd tz Bool.false_ne_true
  | eng | reeve | wgh => rfl

theorem isTz_of_isEng (eng : isEng c = true) : isTz c = true := by
  cases c with
  | eng => rfl
  | reeve | wgh | cell => exact absurd eng Bool.false_ne_true

section Access
variable {f : State → Nat → State} {k : Nat}

theorem State.loadTo_ok (may : s.memExc c a n .load = none) (get : s.memGet c a n ue = .ok (v, w)) :
    s.loadTo c a n ue f = (.next, f w v) := by simp only [State.loadTo, may, get]

theorem State.loadTo_bad (bad : s.memExc c a n .load = some k) : s.loadTo c a n ue f = (.exc k a, s) := by
  simp only [State.loadTo, bad]

theorem State.loadTo_error (may : s.memExc c a n .load = none) (get : s.memGet c a n ue = .error k) :
    s.loadTo c a n ue f = (.exc k a, s) := by simp only [State.loadTo, may, get]

theorem State.storeAt_ok (may : s.memExc c a n .store = none) (put : s.memPut c a n v = .ok w) :
    s.storeAt c a n v = (.next, w) := by simp only [State.storeAt, may, put]

theorem State.storeAt_bad (bad : s.memExc c a n .store = some k) : s.storeAt c a n v = (.exc k a, s) := by
  simp only [State.storeAt, bad]

theorem State.storeAt_error (may : s.memExc c a n .store = none) (put : s.memPut c a n v = .error k) :
    s.storeAt c a n v = (.exc k a, s) := by simp only [State.storeAt, may, put]

end Access

/-- The order of R322: alignment, permission, place. -/
theorem State.memExc_misaligned {k : Acs} (odd : a % n ≠ 0) : s.memExc c a n k = some cMISALIGN := if_pos odd

theorem State.memExc_aligned {k : Acs} (even : a % n = 0) : s.memExc c a n k =
    (if s.protBad c (coreSpot c a n) n k then some cPROT
     else if s.placeBad c (coreSpot c a n) n k then some k.cause else none) := if_neg (not_not_intro even)

/-- The own Pantry lies at 0. -/
theorem coreSpot_own (e : Fin 16) (t : Fin 8) (fits : a + n ≤ 0x400000) :
    coreSpot (.eng e t) a n = .pantry e a true := if_pos fits

/-- The Pantry of engine f lies at 0x100_0000_0000 + f × 4 MiB for every engine. -/
theorem coreSpot_other (e : Fin 16) (t : Fin 8) {f o : Nat} (isEngine : f < 16) (fits : o + n ≤ 0x400000) (some_ : 0 < n) :
    coreSpot (.eng e t) (0x10000000000 + f * 0x400000 + o) n = .pantry f o false := by
  have away : ¬ 0x10000000000 + f * 0x400000 + o + n ≤ 0x400000 := by omega
  have lies : inSpan 0x10000000000 (16 * 0x400000) (0x10000000000 + f * 0x400000 + o) n = true := by
    unfold inSpan; exact decide_eq_true ⟨by omega, by omega⟩
  have engine : (0x10000000000 + f * 0x400000 + o - 0x10000000000) / 0x400000 = f := by omega
  have offset : (0x10000000000 + f * 0x400000 + o - 0x10000000000) % 0x400000 = o := by omega
  unfold coreSpot sharedPlace
  simp only [if_neg away, if_pos lies, engine, offset]

theorem State.memGet_pantry {e o : Nat} {own : Bool} (lies : coreSpot c a n = .pantry e o own) :
    s.memGet c a n false = .ok (s.rdMem .pantry (e * 0x400000 + o) n, s) := by simp [State.memGet, lies]

/-! ## Atomics -/

/-- The state with the line of the Cellar that an atomic hits taken from the cache of its engine (R296). -/
def State.pastCache (s : State) (c : Core) (a : Nat) : State :=
  match coreSpot c a 8 with
  | .cellar o => if isEng c then s.cacheDrop (engOf c) (o / 64) else s
  | _ => s

section Atomic
variable {d k : Nat} {f : Nat → Option Nat}

theorem State.atomicAt_writes (may : s.memExc c a 8 .atomic = none) (gives : f (s.wordAt c a) = some v)
    (put : (s.pastCache c a).memPut c a 8 v = .ok u) :
    s.atomicAt c a d false f = (.next, u.setG c d (s.wordAt c a)) := by
  unfold State.pastCache at put
  cases lies : coreSpot c a 8 <;> simp only [lies] at put <;> simp [State.atomicAt, may, gives, lies, put]

theorem State.atomicAt_keeps_word (may : s.memExc c a 8 .atomic = none) (gives : f (s.wordAt c a) = none) :
    s.atomicAt c a d false f = (.next, (s.pastCache c a).setG c d (s.wordAt c a)) := by
  unfold State.pastCache
  cases lies : coreSpot c a 8 <;> simp [State.atomicAt, may, gives, lies]

theorem State.atomicAt_bad (bad : s.memExc c a 8 .atomic = some k) : s.atomicAt c a d ue f = (.exc k a, s) := by
  simp only [State.atomicAt, bad]

end Atomic

/-- An atomic of major 0x20 that may be made and whose value is stored. -/
theorem State.tzAmo_writes {i : RIns} {f : Nat} (issues : Issues s x i.pred) (tz : isTz x.core = true)
    (may : s.memExc x.core (s.g x.core i.a) 8 .atomic = none)
    (put : (s.pastCache x.core (s.g x.core i.a)).memPut x.core (s.g x.core i.a) 8
      (amoFn f (s.wordAt x.core (s.g x.core i.a)) (s.g x.core i.b)) = .ok u) :
    s.tzAmo x f false i = s.finish x.core (.next, u.setG x.core i.d (s.wordAt x.core (s.g x.core i.a))) :=
  issues.ends tz (State.atomicAt_writes may rfl put)

/-- A store of n octets, which takes the low 8n bits of g[d]. -/
theorem State.tzSt_ends {i : IIns} {k m : Nat} {r : Sig × State} (issues : Issues s x i.pred) (tz : isTz x.core = true)
    (octets : 2 ^ k = n) (width : 8 * n = m)
    (body : s.storeAt x.core (s.ea x.core i 1) n (s.g x.core i.d % 2 ^ m) = r) :
    s.tzSt x k i = s.finish x.core r := by
  subst octets width
  exact issues.ends tz body

/-! ## The obligation -/

/-- Settles O31: what the access comes to decides how its instruction ends. -/
theorem memoryInstructionsComplete : Obligations.MemoryInstructionsComplete := by
  unfold Obligations.MemoryInstructionsComplete
  refine ⟨?loads, ?stores, ?own, ?other, ?exceptions, ?atP, ?atomics, ?atomicBad, ?vld, ?vst, ?vectorMisaligned⟩
  case loads =>
    rintro x ue i _ s issues tz rfl
    have ends {k : Nat} {r} (h : s.loadTo x.core (s.ea x.core i 1) (2 ^ k) ue (fun s v => s.setG x.core i.d v) = r) :
        s.tzLd x k ue i = s.finish x.core r := issues.ends tz h
    have traps {k : Nat} (h : s.loadTo x.core (s.ea x.core i 1) 8 ue (fun s v => s.setG x.core i.d v) =
        (.exc k (s.ea x.core i 1), s)) : s.tzLd x 3 ue i = s.trap x.core k (s.ea x.core i 1) :=
      (ends h).trans (State.finish_exc_of_tz tz ..)
    exact ⟨fun v w may get => congrArg _ (ends (k := 0) (State.loadTo_ok may get)),
      fun v w may get => congrArg _ (ends (k := 1) (State.loadTo_ok may get)),
      fun v w may get => congrArg _ (ends (k := 2) (State.loadTo_ok may get)),
      fun v w may get => congrArg _ (ends (k := 3) (State.loadTo_ok may get)),
      fun k bad => congrArg _ (traps (State.loadTo_bad bad)),
      fun k may get => congrArg _ (traps (State.loadTo_error may get))⟩
  case stores =>
    rintro x i _ _ s issues tz rfl rfl
    have traps {k : Nat} (h : s.storeAt x.core (s.ea x.core i 1) 8 (s.g x.core i.d % 2 ^ 64) =
        (.exc k (s.ea x.core i 1), s)) : s.tzSt x 3 i = s.trap x.core k (s.ea x.core i 1) :=
      (State.tzSt_ends (k := 3) (n := 8) (m := 64) issues tz rfl rfl h).trans (State.finish_exc_of_tz tz ..)
    exact ⟨fun w may put => congrArg _ (State.tzSt_ends (k := 0) (n := 1) (m := 8) issues tz rfl rfl
        (State.storeAt_ok may put)),
      fun w may put => congrArg _ (State.tzSt_ends (k := 1) (n := 2) (m := 16) issues tz rfl rfl
        (State.storeAt_ok may put)),
      fun w may put => congrArg _ (State.tzSt_ends (k := 2) (n := 4) (m := 32) issues tz rfl rfl
        (State.storeAt_ok may put)),
      fun w may put => congrArg _ (State.tzSt_ends (k := 3) (n := 8) (m := 64) issues tz rfl rfl
        (State.storeAt_ok may put)),
      fun k bad => congrArg _ (traps (State.storeAt_bad bad)),
      fun k may put => congrArg _ (traps (State.storeAt_error may put))⟩
  case own =>
    intro e t a n s fits
    simp [State.memGet, State.memPut, coreSpot_own e t fits]
  case other =>
    intro e t f o n s isEngine fits some_
    exact State.memGet_pantry (coreSpot_other e t isEngine fits some_)
  case exceptions =>
    intro c a n k s
    refine ⟨State.memExc_misaligned, fun even bad => ?_, fun even may bad => ?_, fun even may good => ?_⟩
    · simp [State.memExc_aligned even, bad]
    · cases k <;> simp [State.memExc_aligned even, may, bad, Acs.cause]
    · simp [State.memExc_aligned even, may, good]
  case atP =>
    intro e t a n k s privileged
    simp [State.protBad, privileged]
  case atomics =>
    rintro x i _ _ _ s w issues tz rfl rfl may rfl past
    have drops : w = s.pastCache x.core (s.g x.core i.a) := past
    subst drops
    exact ⟨fun u put => congrArg _ (State.tzAmo_writes (f := 0) issues tz may put),
      fun u put => congrArg _ (State.tzAmo_writes (f := 1) issues tz may put),
      fun u put => congrArg _ (State.tzAmo_writes (f := 2) issues tz may put),
      fun u put => congrArg _ (State.tzAmo_writes (f := 3) issues tz may put),
      fun u put => congrArg _ (State.tzAmo_writes (f := 4) issues tz may put),
      fun u put => congrArg _ (State.tzAmo_writes (f := 5) issues tz may put),
      fun u put => congrArg _ (State.tzAmo_writes (f := 6) issues tz may put),
      fun u put => congrArg _ (State.tzAmo_writes (f := 7) issues tz may put),
      fun u put => congrArg _ (State.tzAmo_writes (f := 8) issues tz may put),
      fun u holds put => congrArg _ (issues.ends tz (State.atomicAt_writes may (if_pos holds) put)),
      fun differs => congrArg _ (issues.ends tz (State.atomicAt_keeps_word may (if_neg differs)))⟩
  case atomicBad =>
    intro x ue i k s issues tz bad
    exact ⟨congrArg _ ((issues.ends tz (State.atomicAt_bad bad)).trans (State.finish_exc_of_tz tz ..)),
      congrArg _ ((issues.ends tz (State.atomicAt_bad bad)).trans (State.finish_exc_of_tz tz ..))⟩
  case vld =>
    rintro x ue i _ v s w issues eng rfl may get
    exact congrArg _ (issues.ends eng (State.loadTo_ok may get))
  case vst =>
    rintro x i _ s w issues eng rfl may put
    exact congrArg _ (issues.ends eng (State.storeAt_ok may put))
  case vectorMisaligned =>
    intro x ue i s issues eng odd
    have traps := State.finish_exc_of_tz (s := s) (isTz_of_isEng eng) cMISALIGN (s.ea x.core i 64) s
    exact ⟨congrArg _ ((issues.ends eng (State.loadTo_bad (State.memExc_misaligned odd))).trans traps),
      congrArg _ ((issues.ends eng (State.storeAt_bad (State.memExc_misaligned odd))).trans traps)⟩

end Sys2Proof.Machine

/-! Fields of a number that is written field by field, and what the vector instructions make of their elements (R285,
R332-R337). -/

namespace Sys2Proof.Machine

variable {l w m k n v : Nat}

/-! ## Fields of a number -/

/-- A number with a field replaced: what lies above, the field, what lies below. -/
theorem putBits_eq (l w v n : Nat) :
    putBits l w v n = n / 2 ^ (l + w) * 2 ^ (l + w) + (v % 2 ^ w * 2 ^ l + n % 2 ^ l) := by
  have low := Nat.div_add_mod n (2 ^ l)
  have high := Nat.div_add_mod (n / 2 ^ l) (2 ^ w)
  rw [Nat.div_div_eq_div_mul, ← pow_add] at high
  have whole : n = n / 2 ^ (l + w) * 2 ^ (l + w) + bits l w n * 2 ^ l + n % 2 ^ l := by
    calc n = 2 ^ l * (2 ^ w * (n / 2 ^ (l + w)) + n / 2 ^ l % 2 ^ w) + n % 2 ^ l := by rw [high, low]
      _ = _ := by unfold bits; ring
  unfold putBits
  omega

theorem putBits_low_lt (l w v n : Nat) : v % 2 ^ w * 2 ^ l + n % 2 ^ l < 2 ^ (l + w) := by
  have value : v % 2 ^ w + 1 ≤ 2 ^ w := Nat.mod_lt _ (Nat.two_pow_pos w)
  have below : n % 2 ^ l < 2 ^ l := Nat.mod_lt _ (Nat.two_pow_pos l)
  have := Nat.mul_le_mul_right (2 ^ l) value
  rw [pow_add, Nat.mul_comm (2 ^ l)]
  linarith

/-- Above the field the number keeps its bits. -/
theorem putBits_div (l w v n : Nat) : putBits l w v n / 2 ^ (l + w) = n / 2 ^ (l + w) := by
  rw [putBits_eq, Nat.mul_comm, Nat.mul_add_div (Nat.two_pow_pos _), Nat.div_eq_of_lt (putBits_low_lt ..), Nat.add_zero]

/-- Below the field the number keeps its bits. -/
theorem putBits_mod (l w v n : Nat) : putBits l w v n % 2 ^ l = n % 2 ^ l := by
  rw [putBits_eq, pow_add]
  have split : n / (2 ^ l * 2 ^ w) * (2 ^ l * 2 ^ w) + (v % 2 ^ w * 2 ^ l + n % 2 ^ l) =
      n % 2 ^ l + 2 ^ l * (n / (2 ^ l * 2 ^ w) * 2 ^ w + v % 2 ^ w) := by ring
  rw [split, Nat.add_mul_mod_self_left, Nat.mod_mod]

@[simp] theorem bits_putBits_same (l w v n : Nat) : bits l w (putBits l w v n) = v % 2 ^ w := by
  have split : putBits l w v n = n % 2 ^ l + 2 ^ l * (v % 2 ^ w + 2 ^ w * (n / 2 ^ (l + w))) := by
    rw [putBits_eq, pow_add]; ring
  unfold bits
  rw [split, Nat.add_mul_div_left _ _ (Nat.two_pow_pos l), Nat.div_eq_of_lt (Nat.mod_lt _ (Nat.two_pow_pos l)), Nat.zero_add,
    Nat.add_mul_mod_self_left, Nat.mod_mod]

/-- A field at or above a bit is a field of what lies above it. -/
theorem bits_of_le (h : m ≤ l) (w n : Nat) : bits l w n = bits (l - m) w (n / 2 ^ m) := by
  unfold bits
  rw [Nat.div_div_eq_div_mul, ← pow_add, Nat.add_sub_cancel' h]

/-- A field below a bit is a field of what lies below it. -/
theorem bits_mod (h : l + w ≤ m) (n : Nat) : bits l w (n % 2 ^ m) = bits l w n := by
  unfold bits
  rw [← Nat.mod_mul_right_div_self, ← Nat.mod_mul_right_div_self, ← pow_add, Nat.mod_mod_of_dvd _ (pow_dvd_pow 2 h)]

theorem bits_putBits_apart (apart : l + w ≤ m ∨ m + k ≤ l) (v n : Nat) :
    bits m k (putBits l w v n) = bits m k n := by
  rcases apart with above | below
  · rw [bits_of_le above, putBits_div, ← bits_of_le above]
  · rw [← bits_mod below, putBits_mod, bits_mod below]

/-- Fields of one width at different places lie apart. -/
theorem apart_of_ne {i j : Nat} (w : Nat) (ne : j ≠ i) : j * w + w ≤ i * w ∨ i * w + w ≤ j * w := by
  rcases Nat.lt_or_gt_of_ne ne with less | more
  · exact .inl (by simpa [Nat.succ_mul] using Nat.mul_le_mul_right w (Nat.succ_le_of_lt less))
  · exact .inr (by simpa [Nat.succ_mul] using Nat.mul_le_mul_right w (Nat.succ_le_of_lt more))

/-- A field of a number to which steps 0 to N − 1 were applied, of which step i alone is about the field. -/
theorem bits_foldl_range {g : Nat → Nat → Nat} {i N old r : Nat} (inside : i < N)
    (others : ∀ j v, j ≠ i → bits l w (g v j) = bits l w v)
    (own : ∀ v, bits l w v = bits l w old → bits l w (g v i) = r) :
    bits l w ((List.range N).foldl g old) = r := by
  have before : ∀ M, M ≤ i → bits l w ((List.range M).foldl g old) = bits l w old := by
    intro M
    induction M with
    | zero => exact fun _ => rfl
    | succ M ih =>
      intro less
      rw [List.range_succ, List.foldl_append]
      exact (others M _ (by omega)).trans (ih (by omega))
  induction N with
  | zero => exact absurd inside (Nat.not_lt_zero i)
  | succ N ih =>
    rw [List.range_succ, List.foldl_append]
    rcases Nat.lt_succ_iff_lt_or_eq.mp inside with less | rfl
    · exact (others N _ (by omega)).trans (ih less)
    · exact own _ (before _ le_rfl)

end Sys2Proof.Machine

/-! The vector instructions without memory (R285, R332-R337). -/

namespace Sys2Proof.Machine

variable {s : State} {x : Issue}

/-! ## Element types -/

theorem tyW_pos (ty : Nat) : 0 < tyW ty := by
  unfold tyW
  split <;> exact Nat.two_pow_pos _

/-- Only the elements of type 0 are as many as 128. -/
theorem tyN_eq_128_iff {ty : Nat} (known : ty < 8) : tyN ty = 128 ↔ ty = 0 := by
  interval_cases ty <;> decide

theorem tyP_of_real {ty : Nat} (real : tyC ty = false) : tyP ty = tyW ty := by simp [tyP, real]

/-- Element i of a register whose selected elements were replaced. -/
theorem vel_vmap {ty i : Nat} (old : Nat) (sel : Nat → Bool) (f : Nat → Nat) (inside : i < tyN ty) :
    vel ty (vmap ty old sel f) i = (if sel i then f i % 2 ^ tyW ty else vel ty old i) := by
  refine bits_foldl_range inside (fun j v ne => ?_) (fun v kept => ?_)
  · split
    · exact bits_putBits_apart (apart_of_ne _ ne) ..
    · rfl
  · cases sel i <;> simp [kept, vel]

/-! ## Accumulators -/

/-- The accumulators lie within the register: 32 or 64 bits each, or two parts of them. -/
theorem accSum_eq (ty j : Nat) (sel : Nat → Bool) (f : Nat → Int) : accSum ty j sel f =
    ((List.range (accG ty)).map (fun k => if sel (accG ty * j + k) then f (accG ty * j + k) else 0)).sum := by
  have folds (l : List Nat) (z : Int) : l.foldl (fun n k => if sel (accG ty * j + k) then n + f (accG ty * j + k) else n) z =
      z + (l.map (fun k => if sel (accG ty * j + k) then f (accG ty * j + k) else 0)).sum := by
    induction l generalizing z with
    | nil => simp
    | cons k l ih =>
      rw [List.foldl_cons, ih, List.map_cons, List.sum_cons]
      split <;> ring
  exact (folds _ 0).trans (Int.zero_add _)

theorem ofS_lt (w : Nat) (i : Int) : ofS w i < 2 ^ w := by
  have positive : (0 : Int) < (2 ^ w : Nat) := Int.natCast_pos.mpr (Nat.two_pow_pos w)
  have below := Int.emod_lt_of_pos i positive
  have above := Int.emod_nonneg i positive.ne'
  unfold ofS
  omega

/-- Accumulator j after the accumulation of real products. -/
theorem bits_vmacReal {ty j : Nat} (old a b : Nat) (sel : Nat → Bool) (inside : j < accN ty) :
    bits (j * accW ty) (accW ty) (vmacReal ty old a b sel) = ofS (accW ty) (toS (accW ty) (bits (j * accW ty) (accW ty) old) +
      accSum ty j sel (fun i => vre ty a i * vre ty b i)) := by
  refine bits_foldl_range inside (fun i v ne => bits_putBits_apart (apart_of_ne _ ne) ..) (fun v _ => ?_)
  exact (bits_putBits_same ..).trans (Nat.mod_eq_of_lt (ofS_lt ..))

/-- The parts of accumulator j after the accumulation of complex products. -/
theorem bits_vmacCplx {ty j : Nat} (old a b : Nat) (sg : Int) (sel : Nat → Bool) (inside : j < accN ty) :
    bits (2 * j * accW ty) (accW ty) (vmacCplx ty old a b sg sel) =
      ofS (accW ty) (toS (accW ty) (bits (2 * j * accW ty) (accW ty) old) +
        accSum ty j sel (fun i => vre ty a i * vre ty b i - vim ty a i * (sg * vim ty b i))) ∧
    bits ((2 * j + 1) * accW ty) (accW ty) (vmacCplx ty old a b sg sel) =
      ofS (accW ty) (toS (accW ty) (bits ((2 * j + 1) * accW ty) (accW ty) old) +
        accSum ty j sel (fun i => vre ty a i * (sg * vim ty b i) + vim ty a i * vre ty b i)) := by
  constructor
  · refine bits_foldl_range inside (fun i v ne => ?_) (fun v _ => ?_)
    · exact (bits_putBits_apart (apart_of_ne _ (by omega)) ..).trans (bits_putBits_apart (apart_of_ne _ (by omega)) ..)
    · exact ((bits_putBits_apart (apart_of_ne _ (by omega)) ..).trans (bits_putBits_same ..)).trans
        (Nat.mod_eq_of_lt (ofS_lt ..))
  · refine bits_foldl_range inside (fun i v ne => ?_) (fun v _ => ?_)
    · exact (bits_putBits_apart (apart_of_ne _ (by omega)) ..).trans (bits_putBits_apart (apart_of_ne _ (by omega)) ..)
    · exact (bits_putBits_same ..).trans (Nat.mod_eq_of_lt (ofS_lt ..))

/-! ## Reductions -/

theorem mem_selIdx {ty k : Nat} {sel : Nat → Bool} : k ∈ selIdx ty sel ↔ k < tyN ty ∧ sel k = true := by
  simp [selIdx]

theorem length_selIdx_le (ty : Nat) (sel : Nat → Bool) : (selIdx ty sel).length ≤ tyN ty :=
  (List.length_filter_le ..).trans (List.length_range.le)

theorem vredSum_of_real {ty : Nat} (a : Nat) (sel : Nat → Bool) (real : tyC ty = false) :
    vredSum ty a sel = ofS 64 ((selIdx ty sel).map (vre ty a)).sum := by
  have folds (l : List Nat) (z : Int) : l.foldl (fun n i => n + vre ty a i) z = z + (l.map (vre ty a)).sum := by
    induction l generalizing z with
    | nil => simp
    | cons k l ih => rw [List.foldl_cons, ih, List.map_cons, List.sum_cons, Int.add_assoc]
  simp [vredSum, vredSum.u64', real, folds]

/-- The best of a rising list of indices is one that no other beats, and the first of its equals. -/
theorem bestIdx_best {key : Nat → Int} {l : List Nat} (rising : l.Pairwise (· < ·)) {k : Nat} (listed : k ∈ l) :
    ∃ j, bestIdx key l = some j ∧ j ∈ l ∧ ∀ i ∈ l, key i ≤ key j ∧ (key i = key j → j ≤ i) := by
  induction l generalizing k with
  | nil => exact absurd listed List.not_mem_nil
  | cons h t ih =>
    obtain ⟨first, tail⟩ := List.pairwise_cons.mp rising
    cases t with
    | nil => exact ⟨h, rfl, by simp, by simp⟩
    | cons h' t =>
      obtain ⟨j, best, inTail, wins⟩ := ih tail (List.mem_cons_self)
      by_cases less : key h < key j
      · refine ⟨j, by rw [bestIdx, best]; exact if_pos less, List.mem_cons_of_mem _ inTail, fun i inList => ?_⟩
        rcases List.mem_cons.mp inList with rfl | later
        · exact ⟨less.le, fun same => absurd same less.ne⟩
        · exact wins i later
      · refine ⟨h, by rw [bestIdx, best]; exact if_neg less, List.mem_cons_self, fun i inList => ?_⟩
        rcases List.mem_cons.mp inList with rfl | later
        · exact ⟨le_rfl, fun _ => le_rfl⟩
        · exact ⟨((wins i later).1).trans (not_lt.mp less), fun _ => (first i later).le⟩

theorem bestIdx_of_none {ty : Nat} {sel : Nat → Bool} (key : Nat → Int) (unselected : ∀ k, k < tyN ty → sel k = false) :
    bestIdx key (selIdx ty sel) = none := by
  have empty : selIdx ty sel = [] := List.filter_eq_nil_iff.mpr (fun k inside => by
    simp [unselected k (List.mem_range.mp inside)])
  rw [empty]; rfl

/-- The elements packed one after the other are the digits of the register in base 2^width. -/
theorem vredCat_eq (ty a : Nat) (sel : Nat → Bool) :
    vredCat ty a sel = Nat.ofDigits (2 ^ tyW ty) ((selIdx ty sel).map (vel ty a)) := by
  have folds (l : List Nat) (m n v : Nat) (fits : l.length ≤ n) :
      (l.zip (List.range' m n)).foldl (fun v p => v + vel ty a p.1 * 2 ^ (p.2 * tyW ty)) v =
        v + 2 ^ (m * tyW ty) * Nat.ofDigits (2 ^ tyW ty) (l.map (vel ty a)) := by
    induction l generalizing m n v with
    | nil => simp
    | cons k l ih =>
      obtain ⟨n, rfl⟩ : ∃ n', n = n' + 1 := ⟨n - 1, by simp at fits; omega⟩
      rw [List.range'_succ, List.zip_cons_cons, List.foldl_cons, ih _ _ _ (Nat.le_of_succ_le_succ fits), List.map_cons,
        Nat.ofDigits_cons, Nat.succ_mul, pow_add]
      ring
  have whole := folds (selIdx ty sel) 0 (tyN ty) 0 (length_selIdx_le ..)
  rw [← List.range_eq_range'] at whole
  simpa [vredCat] using whole

/-- Digit k of a number of digits below the base. -/
theorem ofDigits_digit {b k : Nat} {l : List Nat} (digits : ∀ d ∈ l, d < b) (inside : k < l.length) :
    Nat.ofDigits b l / b ^ k % b = l[k] := by
  induction l generalizing k with
  | nil => exact absurd inside (Nat.not_lt_zero k)
  | cons d l ih =>
    have small := digits d List.mem_cons_self
    cases k with
    | zero => simp [Nat.ofDigits_cons, Nat.mod_eq_of_lt small]
    | succ k =>
      rw [Nat.ofDigits_cons, Nat.pow_succ', ← Nat.div_div_eq_div_mul,
        Nat.add_mul_div_left _ _ (Nat.zero_lt_of_lt small), Nat.div_eq_of_lt small, Nat.zero_add]
      exact ih (fun d later => digits d (List.mem_cons_of_mem _ later)) (Nat.lt_of_succ_lt_succ inside)

theorem vel_vredCat {ty k : Nat} (a : Nat) (sel : Nat → Bool) (inside : k < (selIdx ty sel).length) :
    vel ty (vredCat ty a sel) k = vel ty a ((selIdx ty sel).getD k 0) := by
  have digit := ofDigits_digit (b := 2 ^ tyW ty) (l := (selIdx ty sel).map (vel ty a)) (k := k)
    (fun d listed => by
      obtain ⟨i, -, rfl⟩ := List.mem_map.mp listed
      exact bits_lt ..)
    (by simpa using inside)
  rw [vel, vredCat_eq, bits, Nat.mul_comm, pow_mul, digit, List.getElem_map]
  simp [List.getD_eq_getElem?_getD, List.getElem?_eq_getElem inside]

/-! ## The obligation -/

/-- A vector instruction that computes on registers ends with its result written. -/
theorem Issues.computes {legal : Bool} {w : Nat} {f : State → State} (issues : Issues s x 0) (isLegal : legal = true) :
    (.next (s.issue x 0 w legal (fun s => (.next, f s))) : Host.Outcome State Fault Refusal) =
      .next (s.finish x.core (.next, f s)) := congrArg _ (issues.ends isLegal rfl)

/-- Settles O32: each element, accumulator or packed field is one field of the register that the fold writes. -/
theorem vectorInstructionsComplete : Obligations.VectorInstructionsComplete := by
  unfold Obligations.VectorInstructionsComplete
  refine ⟨fun ty old i sel f _ inside => vel_vmap old sel f inside, ?selected, ?operations, ?illegal, ?realOps, ?complexOps,
    ?accumulate, ?realSums, ?complexSums, ?reduce, ?reduceIllegal, fun ty a sel real => vredSum_of_real a sel real,
    ?maxOfNone, ?maxOfSome, fun ty a sel k _ inside => vel_vredCat a sel inside, ?convert, ?convertIllegal, ?converted⟩
  case selected =>
    intro c ty i s
    refine ⟨rfl, fun pm masked notNibble known => ?_, fun pm masked => ?_⟩
    · simp [State.vsel, masked, tyN_eq_128_iff known, notNibble]
    · simp [State.vsel, masked, tyN_eq_128_iff (ty := 0) (by decide)]
  case operations =>
    rintro x i _ _ _ s issues eng rfl rfl rfl
    have legal {f : Nat} (always : f < 7) : (isEng x.core && (decide (f < 7) || !tyC i.ty)) = true := by simp [eng, always]
    refine ⟨issues.computes (legal (by decide)), issues.computes (legal (by decide)), issues.computes (legal (by decide)),
      issues.computes (legal (by decide)), issues.computes (legal (by decide)), issues.computes (legal (by decide)),
      issues.computes (legal (by decide)), fun real => ?_, issues.computes eng, issues.computes eng, issues.computes eng⟩
    have legal' : (isEng x.core && (false || !tyC i.ty)) = true := by simp [eng, real]
    exact ⟨issues.computes legal', issues.computes legal'⟩
  case illegal =>
    intro x i s issues eng complex
    exact ⟨congrArg _ (issues.illegal (by simp [complex])), congrArg _ (issues.illegal (by simp [complex])),
      congrArg _ (issues.illegal (by simp [complex]))⟩
  case realOps =>
    intro ty a b k real
    simp [vop, real, tyP_of_real real]
  case complexOps =>
    intro ty a b k complex
    simp [vop, complex]
  case accumulate =>
    rintro x i _ _ _ s issues eng rfl rfl rfl
    exact ⟨fun real => issues.computes (by simp [eng, real]),
      fun complex => ⟨issues.computes (by simp [eng, complex]), issues.computes (by simp [eng, complex])⟩⟩
  case realSums =>
    rintro ty old a b j _ _ sel - rfl rfl inside
    rw [bits_vmacReal old a b sel inside, accSum_eq]
  case complexSums =>
    rintro ty old a b j _ _ sg sel - - rfl rfl inside
    obtain ⟨re, im⟩ := bits_vmacCplx old a b sg sel inside
    rw [re, im, accSum_eq, accSum_eq]
    exact ⟨rfl, rfl⟩
  case reduce =>
    rintro x i _ s issues eng noSource rfl
    have legal : (isEng x.core && i.vb == 0) = true := by simp [eng, noSource]
    exact ⟨issues.computes legal, issues.computes legal, issues.computes legal⟩
  case reduceIllegal =>
    intro x i s issues source
    exact congrArg _ (issues.illegal (by simp [source]))
  case maxOfNone =>
    intro ty a sel real unselected
    simp [vredMax, bestIdx_of_none _ unselected, real]
  case maxOfSome =>
    intro ty a sel k real inside selected
    have rising : (selIdx ty sel).Pairwise (· < ·) := List.pairwise_lt_range.filter _
    obtain ⟨j, best, listed, wins⟩ := bestIdx_best (key := vre ty a) rising (mem_selIdx.mpr ⟨inside, selected⟩)
    obtain ⟨within, chosen⟩ := mem_selIdx.mp listed
    obtain ⟨most, first⟩ := wins k (mem_selIdx.mpr ⟨inside, selected⟩)
    exact ⟨j, within, chosen, by simp [vredMax, real, best], most, first⟩
  case convert =>
    intro x f i s issues eng fits
    exact issues.computes (by simp [eng, fits])
  case convertIllegal =>
    intro x f i s issues unfit
    exact congrArg _ (issues.illegal (by simp [unfit]))
  case converted =>
    intro src dst h old a sel
    refine ⟨fun same => if_pos same, fun wider => ?_, fun narrower => ?_⟩
    · rw [vcvt, if_neg wider.ne, if_pos wider]
    · rw [vcvt, if_neg narrower.ne', if_neg narrower.asymm]

end Sys2Proof.Machine

/-! What the operations of the pools change: the pools' registers, their buffers, and what an event changes (R262-R270). -/

namespace Sys2Proof.Machine

/-- A state without what the pools and an event may change. -/
def State.sansPool (s : State) : State := { s with regs := [], hid := [], mem := [], rfifo := [], held := [], bufs := [] }

/-- Hidden values that the pools or an event may change. -/
def poolHids : List Hid := .poolCursor :: .poolEmptied :: crierHids

/-- A register field of the Crier or of the pools. -/
def Fld.isPool : Fld → Bool
  | .cri _ | .pool _ => true
  | _ => false

theorem Fld.isCri_of_isPool {f : Fld} (m : f.isPool = false) : f.isCri = false := by
  cases f <;> simp_all [Fld.isPool, Fld.isCri]

/-- Nothing changes from `s` to `t` but what the pools and the Crier hold. -/
structure PoolOnly (s t : State) : Prop where
  others : t.sansPool = s.sansPool
  rd : ∀ f i, f.isPool = false → t.rd f i = s.rd f i
  h : ∀ x i, x ∉ poolHids → t.h x i = s.h x i
  byte : ∀ r a, r ≠ .host → t.byte r a = s.byte r a

variable {s t : State}

theorem PoolOnly.refl : PoolOnly s s := ⟨rfl, fun _ _ _ => rfl, fun _ _ _ => rfl, fun _ _ _ => rfl⟩

theorem PoolOnly.wr (f : Fld) (i v : Nat) (m : f.isPool = true) (a : PoolOnly s t) : PoolOnly s (t.wr f i v) :=
  ⟨a.others, fun g j k => by
    rw [State.rd_wr, if_neg (fun e => by rw [e.1, m] at k; exact Bool.noConfusion k)]; exact a.rd g j k, a.h, a.byte⟩

theorem PoolOnly.setH (x : Hid) (i v : Nat) (m : x ∈ poolHids) (a : PoolOnly s t) : PoolOnly s (t.setH x i v) :=
  ⟨a.others, a.rd, fun y j k => by
    rw [State.h_setH, if_neg (fun e => k (by rw [e.1]; exact m))]; exact a.h y j k, a.byte⟩

theorem PoolOnly.setBuf (h : Nat) (b : Buf) (a : PoolOnly s t) : PoolOnly s (t.setBuf h b) := ⟨a.others, a.rd, a.h, a.byte⟩

theorem PoolOnly.raise (e : Ev) (l d p : Nat) (a : PoolOnly s t) : PoolOnly s (t.raise e l d p) := by
  have event := t.raise_crier e l d p
  refine ⟨(congrArg (fun u : State => { u with bufs := [] }) event.others).trans a.others, fun f i m => ?_,
    fun x i m => ?_, fun r b m => (event.byte r b m).trans (a.byte r b m)⟩
  · exact (event.rd f i (Fld.isCri_of_isPool m)).trans (a.rd f i m)
  · exact (event.h x i (fun c => m (List.mem_cons_of_mem _ (List.mem_cons_of_mem _ c)))).trans (a.h x i m)

theorem PoolOnly.foldl {α : Type} (l : List α) (f : State → α → State) (each : ∀ u x, PoolOnly s u → PoolOnly s (f u x))
    (a : PoolOnly s t) : PoolOnly s (l.foldl f t) := by
  induction l generalizing t with
  | nil => exact a
  | cons x l ih => exact ih (each t x a)

theorem PoolOnly.sharedCheck (p : Nat) (a : PoolOnly s t) : PoolOnly s (t.sharedCheck p) := by
  unfold State.sharedCheck
  split
  · split
    · exact a
    · exact (a.setH _ _ _ (by decide)).raise ..
  · split
    · exact a.setH _ _ _ (by decide)
    · exact a

theorem PoolOnly.uncharge (hs : List Nat) (a : PoolOnly s t) : PoolOnly s (t.uncharge hs) :=
  a.foldl _ _ (fun _ _ b => b.wr _ _ _ rfl)

theorem PoolOnly.freeBuf (h : Nat) (a : PoolOnly s t) : PoolOnly s (t.freeBuf h) :=
  ((a.uncharge _).foldl _ _ (fun _ _ b => b.setBuf ..)).sharedCheck _

theorem PoolOnly.freeze (h r : Nat) (a : PoolOnly s t) : PoolOnly s (t.freeze h r) := by
  unfold State.freeze
  dsimp only
  refine ((PoolOnly.foldl _ _ (fun _ _ b => b.setBuf ..) ?_).wr _ _ _ rfl).raise ..
  split
  · exact a.uncharge _
  · exact a

theorem PoolOnly.deref (h k r : Nat) (a : PoolOnly s t) : PoolOnly s (t.deref h k r).2 := by
  unfold State.deref State.refRefused
  split
  · exact a
  · split
    next refused =>
      split at refused
      · exact (Option.some.inj refused) ▸ a.wr _ _ _ rfl
      · split at refused
        · exact (Option.some.inj refused) ▸ a.wr _ _ _ rfl
        · exact nomatch refused
    · dsimp only
      split
      · exact a.freeze _ _
      · split
        · exact a.freeBuf _
        · exact a.setBuf _ _

theorem PoolOnly.drop1 (h : Nat) (a : PoolOnly s t) : PoolOnly s (t.drop1 h) := a.deref h 1 90

theorem PoolOnly.take (o p i : Nat) (a : PoolOnly s t) : PoolOnly s (t.take o p i) :=
  (((a.setBuf _ _).wr _ _ _ rfl).setH _ _ _ (by decide)).sharedCheck _

theorem PoolOnly.grant (o p : Nat) (a : PoolOnly s t) : PoolOnly s (t.grant o p).2 := by
  unfold State.grant
  split
  · split
    · exact a.take ..
    · exact a.wr _ _ _ rfl
  · exact a.wr _ _ _ rfl

/-! ## Readings after a release -/

theorem State.rd_drop1 (s : State) (h : Nat) {f : Fld} (i : Nat) (outside : f.isPool = false) :
    (s.drop1 h).rd f i = s.rd f i := (PoolOnly.refl.drop1 h).rd f i outside

theorem State.on_drop1 (s : State) (h : Nat) {f : Fld} (i : Nat) (outside : f.isPool = false) :
    (s.drop1 h).on f i = s.on f i := congrArg (· == 1) (s.rd_drop1 h i outside)

end Sys2Proof.Machine

/-! Time-coherent gathering (R358-R370, R376, R379-R384, R387). -/

namespace Sys2Proof.Machine

variable {s w : State} {g n c h ofs e hf : Nat} {b : Bin} {d : Copy}

/-! ## The verdicts of Table 11.3 -/

/-- Row 1. -/
theorem State.contribute_stray
    (stray : 511 < g ∨ g / 256 ≠ hf ∨ (gState s g ≠ gRUN ∧ gState s g ≠ gDRAIN)) (group : g = mdGRP.get d.md) :
    s.contribute hf d = (s.count (.gth .BAD_GBAD) hf).drop1 d.handle := by
  subst group
  exact if_pos (by rwa [not_or])

/-- The contribution is of a group of the half that runs. -/
def State.gthRuns (s : State) (hf g : Nat) : Prop := g ≤ 511 ∧ g / 256 = hf ∧ (gState s g = gRUN ∨ gState s g = gDRAIN)

/-- The sample time and payload of the contribution lie within it, before its last 4 octets. -/
def State.gthFits (s : State) (g ofs : Nat) (d : Copy) : Prop :=
  0 ≤ s.cidAt g ofs ∧ s.cidAt g ofs < (d.len - 4 : Nat) ∧ ofs + stimeLen (s.rd (.gth .GRP_SAMPLE_FMT) g) ≤ d.len - 4 ∧
    s.payAt g ofs + gPLEN s g ≤ d.len - 4

/-- Rows 3 to 10. -/
def State.contribFit (s : State) (g ofs : Nat) (d : Copy) (c t n : Nat) : State :=
  if ¬ bit c (s.rd (.gth .GRP_EXPECT) g) then s.contribDrop (.gth .GCNT_NOT_EXP) g d.handle
  else if t < gT0 s g ∨ n < s.h .gthStart g ∨ (gState s g = gDRAIN ∧ s.h .gthStop g ≤ n) then
    s.contribDrop (.gth .GCNT_OUT_RUN) g d.handle
  else if s.nowU + s.rd (.gth .GRP_FUTURE) g * gBPER s g < gStart s g n then s.contribDrop (.gth .GCNT_EARLY) g d.handle
  else if s.binLate g n then s.contribLate g n c d.handle ofs
  else if (match s.binOf g n with | some b => bit c b.claims | none => false) then s.contribDrop (.gth .GCNT_DUP) g d.handle
  else s.contribClaim g n c d.handle ofs

theorem State.gthRuns.not_stray (runs : s.gthRuns hf g) :
    ¬ (511 < g ∨ g / 256 ≠ hf ∨ ¬ (gState s g = gRUN ∨ gState s g = gDRAIN)) := by
  obtain ⟨known, half, running⟩ := runs
  simp [half, running, Nat.not_lt.mpr known]

/-- Row 2. -/
theorem State.contribute_long (group : g = mdGRP.get d.md) (place : ofs = mdSTIME_OFS.get d.md) (runs : s.gthRuns hf g)
    (long : d.len - 4 < s.payAt g ofs + gPLEN s g) :
    s.contribute hf d = (s.count (.gth .GCNT_BAD_LEN) g).drop1 d.handle := by
  subst group place
  exact (if_neg runs.not_stray).trans (if_pos (.inr (.inr (.inr long))))

theorem State.contribute_fit (group : g = mdGRP.get d.md) (place : ofs = mdSTIME_OFS.get d.md) (runs : s.gthRuns hf g)
    (fits : s.gthFits g ofs d) :
    s.contribute hf d = s.contribFit g ofs d (beNat (s.frameBytes d.handle (s.cidAt g ofs).toNat 1))
      (s.sampleTime g d.handle ofs) ((s.sampleTime g d.handle ofs - gT0 s g) / gBPER s g) := by
  subst group place
  obtain ⟨starts, within, timed, paid⟩ := fits
  exact (if_neg runs.not_stray).trans (if_neg (by simp [timed, paid, starts, within]))

theorem State.contribFit_unexpected {t : Nat} (unexpected : bit c (s.rd (.gth .GRP_EXPECT) g) = false) :
    s.contribFit g ofs d c t n = (s.count (.gth .GCNT_NOT_EXP) g).drop1 d.handle :=
  if_pos (by simp [unexpected])

theorem State.contribFit_outside {t : Nat} (expected : bit c (s.rd (.gth .GRP_EXPECT) g) = true)
    (outside : t < gT0 s g ∨ n < s.h .gthStart g ∨ (gState s g = gDRAIN ∧ s.h .gthStop g ≤ n)) :
    s.contribFit g ofs d c t n = (s.count (.gth .GCNT_OUT_RUN) g).drop1 d.handle :=
  (if_neg (not_not_intro expected)).trans (if_pos outside)

/-- Rows 6 to 10, of a contribution to a group in RUN. -/
theorem State.contribFit_inRun {t : Nat} (expected : bit c (s.rd (.gth .GRP_EXPECT) g) = true) (since : gT0 s g ≤ t)
    (first : s.h .gthStart g ≤ n) (running : gState s g = gRUN) :
    s.contribFit g ofs d c t n =
      (if s.nowU + s.rd (.gth .GRP_FUTURE) g * gBPER s g < gStart s g n then s.contribDrop (.gth .GCNT_EARLY) g d.handle
       else if s.binLate g n then s.contribLate g n c d.handle ofs
       else if (match s.binOf g n with | some b => bit c b.claims | none => false) then
         s.contribDrop (.gth .GCNT_DUP) g d.handle
       else s.contribClaim g n c d.handle ofs) := by
  have notDrain : gState s g ≠ gDRAIN := by rw [running]; decide
  exact (if_neg (not_not_intro expected)).trans
    (if_neg (by simp [Nat.not_lt.mpr since, Nat.not_lt.mpr first, notDrain]))

/-! ## Claims -/

theorem State.contribClaim_open (opened : s.binOf g n = some b) (room : (s.gqOf b.eng).length < 512) :
    s.contribClaim g n c h ofs = (s.setBin { b with claims := setBit c b.claims }).setGq b.eng
      (s.gqOf b.eng ++ [⟨g, n, c, h, s.payAt g ofs⟩]) := by
  simp [State.contribClaim, opened, Nat.not_le.mpr room]

theorem State.contribClaim_full (opened : s.binOf g n = some b) (full : 512 ≤ (s.gqOf b.eng).length) :
    s.contribClaim g n c h ofs = ((s.count (.gth .ENG_QFULL) b.eng).drop1 h).raise .GTH_QUEUE_FULL (locEngine b.eng) := by
  simp [State.contribClaim, opened, full, State.contribDrop]

theorem State.contribClaim_noPlace (unopened : s.binOf g n = none) (serves : gServe s g n = some e)
    (noPlace : s.binPlace g n e = (false, w)) :
    s.contribClaim g n c h ofs =
      ((w.count (.gth .GCNT_NO_SLOT) g).drop1 h).raise .GTH_NO_SLOT (locHalf (g / 256)) g := by
  simp [State.contribClaim, unopened, serves, noPlace, State.contribDrop]

/-! ## Late contributions -/

/-- A contribution's end changes no field outside the pools but its counter. -/
theorem State.on_contribDrop (s : State) {f x : Fld} (i h j : Nat) (ne : x ≠ f) (outside : x.isPool = false) :
    (s.contribDrop f i h).on x j = s.on x j := by
  unfold State.contribDrop State.count
  rw [State.on_drop1 _ _ _ outside, State.on_wr, if_neg (fun same => ne same.1)]

theorem State.contribLate_dropped (serves : gServe s g n = some e) (drops : s.on (.gth .GRP_LATE_MODE) g = false) :
    s.contribLate g n c h ofs = ((s.count (.gth .GCNT_LATE) g).drop1 h).raise .GTH_LATE (locHalf (g / 256)) g := by
  have still : (s.contribDrop (.gth .GCNT_LATE) g h).on (.gth .GRP_LATE_MODE) g = false :=
    (s.on_contribDrop g h g (by decide) rfl).trans drops
  simp only [State.contribLate, serves, drops, still]
  rfl

theorem State.contribLate_supplement (serves : gServe s g n = some e) (emits : s.on (.gth .GRP_LATE_MODE) g = true)
    (recent : s.rd (.gth .GRP_FLOOR) g ≤ n + s.rd (.gth .GRP_LATE_MAX) g) :
    s.contribLate g n c h ofs = ((s.gEmitFrames g n e { supp := true } (gBank s g n) (2 ^ c) (s.reduce g e (gBank s g n) c
      (s.frameBytes h (s.payAt g ofs) (gPLEN s g)) (gZero s g))).count (.gth .GCNT_SUPP) g).drop1 h := by
  simp [State.contribLate, serves, emits, Nat.not_lt.mpr recent]

/-! ## The serving engine -/

/-- The live engine that stands first in line for a bin serves it. -/
theorem gServe_of_live {k : Nat} {l : List Nat} (list : l = gList s g) (some_ : l ≠ []) (first : k = l.getD (n % l.length) 0)
    (live : bit k (s.rd (.gth .GRP_ENG_LIVE) g) = true) : gServe s g n = some (8 * (g / 256) + k) := by
  subst list
  have inside : n % (gList s g).length < (gList s g).length := Nat.mod_lt _ (List.length_pos_iff.mpr some_)
  have front : (gList s g).drop (n % (gList s g).length) =
      k :: (gList s g).drop (n % (gList s g).length + 1) := by
    rw [List.drop_eq_getElem_cons inside, first, List.getD_eq_getElem?_getD, List.getElem?_eq_getElem inside]; rfl
  simp [gServe, some_, front, live]

/-! ## Gather steps, deadlines, outputs -/

/-- With nothing of the engine waiting for buffers, its gather unit turns to its queue. -/
theorem State.gatherStep_of_noOutput (noOutput : ∀ x ∈ s.gouts, x.eng ≠ e) : s.gatherStep e = (match s.gqOf e with
    | [] => s
    | x :: l => match ((s.setGq e l).accumulate x).binOf x.grp x.n with
      | none => (s.setGq e l).accumulate x
      | some b => if ((s.setGq e l).accumulate x).binDue b then ((s.setGq e l).accumulate x).binEmit b {}
        else (s.setGq e l).accumulate x) := by
  have none_ : s.gouts.filter (fun x => x.eng == e) = [] :=
    List.filter_eq_nil_iff.mpr (fun x inside same => noOutput x inside (eq_of_beq same))
  unfold State.gatherStep
  rw [none_]
  rfl

theorem State.binDue_iff (b : Bin) (s : State) : s.binDue b = true ↔ (b.emitted = false ∧ b.lost = false ∧ b.claims = b.done ∧
    (b.fired = true ∨ b.claims = s.rd (.gth .GRP_EXPECT) b.grp)) := by
  simp [State.binDue, and_assoc]

theorem State.binFire_done (opened : s.binOf g n = some b) (waits : b.emitted = false) (kept : b.lost = false)
    (done : b.claims = b.done) :
    s.binFire g n = (s.setBin { b with fired := true }).binEmit { b with fired := true } {} := by
  have due : (s.setBin { b with fired := true }).binDue { b with fired := true } = true :=
    (State.binDue_iff ..).mpr ⟨waits, kept, done, .inl rfl⟩
  unfold State.binFire
  rw [opened]
  exact (if_neg (by simp [waits, kept])).trans (if_pos due)

/-- The engine's oldest output that waits for its buffers, when it is tried a last time. -/
theorem State.outputTimeout_found {x : GOut} {got : Bool} (found : s.gouts.find? (fun y => y.eng == e) = some x)
    (tried : { s with gouts := s.gouts.erase x }.goutTry x = (got, w)) :
    (match s.gouts.find? (fun x => x.eng == e) with
      | none => s
      | some x => match { s with gouts := s.gouts.erase x }.goutTry x with
        | (true, s) => s
        | (false, s) => s.goutLost x) = (if got then w else w.count (.gth .GCNT_BIN_LOST) x.grp) := by
  rw [found]
  dsimp only
  rw [tried]
  cases got <;> rfl

/-! ## Relive -/

/-- Setting bits of a wide field one after the other sets those bits. -/
theorem State.bit_foldl_setBitF (s : State) (f : Fld) (i j : Nat) (l : List Nat) (inside : j < f.desc.width) :
    bit j ((l.foldl (fun s k => s.setBitF f i k) s).rd f i) = (bit j (s.rd f i) || decide (j ∈ l)) := by
  induction l generalizing s with
  | nil => simp
  | cons k l ih => simp [ih, State.bit_setBitF _ _ _ _ _ inside, Bool.or_assoc]

theorem Frame.foldl_setBitF {s t : State} (f : Fld) (i : Nat) (l : List Nat) (a : Frame s t [(f, i)] []) :
    Frame s (l.foldl (fun s k => s.setBitF f i k) t) [(f, i)] [] := by
  induction l generalizing t with
  | nil => exact a
  | cons k l ih => exact ih (Frame.wr _ _ _ (by simp) a)

/-! ## The obligation -/

/-- Settles O34: the verdicts of Table 11.3 in their order, and what each step of a bin comes to. -/
theorem gatheringCompletes : Obligations.GatheringCompletes := by
  unfold Obligations.GatheringCompletes
  refine ⟨?offer, ?nothing, ?stray, ?long, ?fits, ?claim, ?full, ?noPlace, ?place, ?late, ?supplement, ?serving, ?slot,
    ?noStep, ?step, fun b s => State.binDue_iff b s, ?deadline, ?idle, ?unopened, ?fire, fun _ _ _ => rfl, ?noTimeout,
    ?timeout, ?relive⟩
  case offer =>
    intro hf s d l up waits
    refine congrArg Host.Outcome.next ((State.inUnit_of_up up _).trans ?_)
    rw [waits]
  case nothing =>
    intro hf s up empty
    refine congrArg Host.Outcome.next ((State.inUnit_of_up up _).trans ?_)
    rw [empty]
  case stray =>
    intro hf g d s group stray
    exact State.contribute_stray stray group
  case long =>
    intro hf g ofs d s group place known half running long
    exact State.contribute_long group place ⟨known, half, running⟩ long
  case fits =>
    rintro hf g ofs _ _ _ _ d s group place known half running rfl starts within timed paid rfl rfl rfl
    rw [State.contribute_fit group place ⟨known, half, running⟩ ⟨starts, within, timed, paid⟩]
    refine ⟨State.contribFit_unexpected, State.contribFit_outside, fun expected since first run => ?_⟩
    rw [State.contribFit_inRun expected since first run]
    refine ⟨fun early => if_pos early, fun soon => ?_⟩
    rw [if_neg (Nat.not_lt.mpr soon)]
    refine ⟨fun late => if_pos late, fun b onTime opened claimed => ?_, fun onTime unclaimed => ?_⟩
    · simp [onTime, opened, claimed, State.contribDrop]
    · rw [onTime]
      refine (if_neg Bool.false_ne_true).trans (if_neg ?_)
      split
      next b opened => simp [unclaimed b opened]
      next => exact Bool.false_ne_true
  case claim => exact fun g n c h ofs b s => State.contribClaim_open
  case full => exact fun g n c h ofs b s => State.contribClaim_full
  case noPlace => exact fun g n c h ofs e s w => State.contribClaim_noPlace
  case place =>
    intro g n e s free always
    simp [State.binPlace, free, always]
  case late => exact fun g n c h ofs e s => State.contribLate_dropped
  case supplement => exact fun g n c h ofs e s => State.contribLate_supplement
  case serving => exact fun g n k l s => gServe_of_live
  case slot =>
    intro g n s some_ slots
    simp [gSlot, some_, slots]
  case noStep =>
    intro e s up noOutput empty
    refine congrArg Host.Outcome.next ((State.inUnit_of_up up _).trans ?_)
    rw [State.gatherStep_of_noOutput noOutput, empty]
  case step =>
    rintro e s w x l b c up noOutput queued opened rfl rfl found
    refine congrArg Host.Outcome.next ((State.inUnit_of_up up _).trans ?_)
    have accumulated : (s.setGq e l).accumulate x = ((s.setGq e l).setBin { b with
        done := setBit x.c b.done
        acc := (s.setGq e l).reduce x.grp b.eng b.bank x.c ((s.setGq e l).frameBytes x.handle x.pay (gPLEN s x.grp)) b.acc
        }).drop1 x.handle := by
      unfold State.accumulate
      rw [show (s.setGq e l).binOf x.grp x.n = some b from opened]
      rfl
    rw [State.gatherStep_of_noOutput noOutput, queued]
    dsimp only
    rw [accumulated, found]
  case deadline =>
    rintro g n s w up running rfl rfl
    refine congrArg Host.Outcome.next ((State.inUnit_of_up up _).trans (State.when_of_true (by simpa using running) _))
  case idle =>
    intro g s up idle
    refine congrArg Host.Outcome.next ((State.inUnit_of_up up _).trans (State.when_of_false (by simpa using idle) _))
  case unopened =>
    intro g n s unopened silent
    simp [State.binFire, State.emptyEmit, unopened, silent]
  case fire => exact fun g n b s => State.binFire_done
  case noTimeout =>
    intro e s up noOutput
    refine congrArg Host.Outcome.next ((State.inUnit_of_up up _).trans ?_)
    have none_ : s.gouts.find? (fun x => x.eng == e.val) = none :=
      List.find?_eq_none.mpr (fun x inside same => noOutput x inside (eq_of_beq same))
    rw [none_]
  case timeout =>
    intro e s w x got up found tried
    exact congrArg Host.Outcome.next ((State.inUnit_of_up up _).trans (State.outputTimeout_found found tried))
  case relive =>
    intro r g m s reach small
    refine ⟨s.relive g m.toNat, congrArg Host.Outcome.next (State.writeTo_of_reaches reach _), fun j below => ?_,
      Frame.foldl_setBitF _ _ _ .refl⟩
    unfold State.relive
    rw [State.bit_foldl_setBitF _ _ _ _ _ below]
    simp [mem_bitsOf, below]

end Sys2Proof.Machine

/-! What the Weighhouse makes of edges: timestamps, results, records (R422-R438). -/

namespace Sys2Proof.Machine

variable {s : State} {k i : Nat}

/-! ## Steps over the slots -/

/-- Of the steps 0 to N − 1 only step k changes the state. -/
theorem foldl_range_only {α : Type} {g : α → Nat → α} {s : α} {N : Nat} (inside : k < N)
    (before : ∀ i, i < N → i ≠ k → g s i = s) (after : ∀ i, i < N → i ≠ k → g (g s k) i = g s k) :
    (List.range N).foldl g s = g s k := by
  have idle : ∀ M, M ≤ k → (List.range M).foldl g s = s := by
    intro M
    induction M with
    | zero => exact fun _ => rfl
    | succ M ih =>
      intro less
      rw [List.range_succ, List.foldl_append, ih (by omega)]
      exact before M (by omega) (by omega)
  induction N with
  | zero => exact absurd inside (Nat.not_lt_zero k)
  | succ N ih =>
    rw [List.range_succ, List.foldl_append]
    rcases Nat.lt_succ_iff_lt_or_eq.mp inside with less | rfl
    · rw [ih less (fun i h => before i (by omega)) (fun i h => after i (by omega))]
      exact after N (by omega) (by omega)
    · rw [idle k le_rfl]; rfl

theorem foldl_range_id {α : Type} {g : α → Nat → α} {s : α} {N : Nat} (still : ∀ i, i < N → g s i = s) :
    (List.range N).foldl g s = s := by
  induction N with
  | zero => rfl
  | succ N ih =>
    rw [List.range_succ, List.foldl_append, ih (fun i h => still i (by omega))]
    exact still N (by omega)

/-! ## Slots -/

@[simp] theorem State.wslot_setWslot (s : State) (k : Nat) (x : WSlot) : (s.setWslot k x).wslot k = x :=
  Assoc.get_set_same ..

/-- The values a slot is configured with do not tell whether it runs. -/
theorem State.wrunState_wcfgSet (s : State) (k : Nat) (c : WCfg) : (s.wcfgSet k c).wrunState i = s.wrunState i := by
  simp [State.wcfgSet, State.wrunState]

/-- A configuration that waits takes effect. -/
def State.wtake (s : State) (k : Nat) : Option WCfg → State
  | some c => s.wcfgSet k c
  | none => s

theorem State.wrunState_wtake (s : State) (k : Nat) (o : Option WCfg) : (s.wtake k o).wrunState i = s.wrunState i := by
  cases o with
  | none => rfl
  | some c => exact s.wrunState_wcfgSet k c

theorem State.whalt_eq (s : State) (k : Nat) : s.whalt k =
    ((s.wr (.wgh .SLOT_RUNSTATE) k 0).setWslot k { (s.wslot k).drop with stop := false }).wtake k (s.wslot k).next := by
  rcases waits : (s.wslot k).next with _ | c <;> simp only [State.whalt, State.wtake, waits]

theorem State.wrunState_whalt (ne : i ≠ k) : (s.whalt k).wrunState i = s.wrunState i := by
  rw [State.whalt_eq, State.wrunState_wtake]
  change (s.wr (.wgh .SLOT_RUNSTATE) k 0).rd (.wgh .SLOT_RUNSTATE) i = s.rd (.wgh .SLOT_RUNSTATE) i
  rw [State.rd_wr, if_neg (fun same => ne same.2)]

/-! ## Results -/

section Result
variable {extra v n : Nat} {a b : Option WStamp}

/-- A result is made, or lost where the queue is full. -/
def State.wmade (s : State) (k extra v n : Nat) (a b : Option WStamp) : State :=
  let x := s.wslot k
  let c := s.wcfg k
  if 32 ≤ s.wqueue.length then s.setWslot k { x with misc := x.misc + 1, flags := x.flags ||| 4096 }
  else
    let r := s.wrecord k c.type (s.wflags k extra a b x) v n a b (c.psA, c.psB) x
    let s := { s with wqueue := s.wqueue ++ [r] }
    (s.bump (.wgh .SLOT_MADE) k).setWslot k { x with dead := 0, order := 0, misc := 0, flags := 0 }

/-- A slot at a result boundary: the parameters, the configuration that waits, the end of its run. -/
def State.wboundary (s : State) (k countN : Nat) : State :=
  let x := s.wslot k
  let t := (s.setWslot k { x with par := s.wparams }).wtake k x.next
  if (x.stop || (countN != 0 && decide (countN ≤ s.rd (.wgh .SLOT_MADE) k))) = true ∧ t.wrunState k = 1 then t.whalt k else t

theorem State.wresult_eq (s : State) : s.wresult k extra v n a b = (s.wmade k extra v n a b).wboundary k (s.wcfg k).countN := by
  unfold State.wresult State.wboundary State.wtake
  rfl

theorem State.wrunState_wmade (i : Nat) : (s.wmade k extra v n a b).wrunState i = s.wrunState i := by
  unfold State.wmade
  split
  · rfl
  · change (s.bump (.wgh .SLOT_MADE) k).rd (.wgh .SLOT_RUNSTATE) i = s.rd (.wgh .SLOT_RUNSTATE) i
    rw [State.bump, State.rd_wr, if_neg (fun same => absurd same.1 (by decide))]

theorem State.wrunState_wboundary (countN : Nat) (ne : i ≠ k) : (s.wboundary k countN).wrunState i = s.wrunState i := by
  have taken : ((s.setWslot k { s.wslot k with par := s.wparams }).wtake k (s.wslot k).next).wrunState i = s.wrunState i :=
    State.wrunState_wtake ..
  unfold State.wboundary
  dsimp only
  split
  · rw [State.wrunState_whalt ne, taken]
  · exact taken

/-- What a result does to its slot leaves the other slots' run states. -/
theorem State.wrunState_wresult (ne : i ≠ k) : (s.wresult k extra v n a b).wrunState i = s.wrunState i := by
  rw [State.wresult_eq, State.wrunState_wboundary _ ne, State.wrunState_wmade]

/-- A boundary where nothing waits and the slot goes on. -/
theorem State.wboundary_goesOn (runs : (s.wslot k).stop = false) (same : (s.wslot k).next = none) :
    s.wboundary k 0 = s.setWslot k { s.wslot k with par := s.wparams } := by
  simp [State.wboundary, runs, same, State.wtake]

end Result

/-! ## Edges on an INTERVAL slot -/

theorem State.wrunState_wvalue (unstated : Bool) (v : Int) : (s.wvalue unstated v).2.wrunState i = s.wrunState i := by
  cases unstated <;> rfl

theorem State.wrunState_wclose (x y : WStamp) (neg : Bool) (ne : i ≠ k) :
    (s.wclose k x y neg).wrunState i = s.wrunState i := by
  unfold State.wclose
  exact (State.wrunState_wresult ne).trans (State.wrunState_wvalue ..)

/-- An edge on an INTERVAL slot leaves the other slots' run states. -/
theorem State.wrunState_wInterval (side : Bool) (w : Option WStamp) (ne : i ≠ k) :
    (s.wInterval k side w).wrunState i = s.wrunState i := by
  unfold State.wInterval
  dsimp only
  split
  · split
    · rfl
    · split <;> rfl
  · split
    · rfl
    · split
      · rfl
      · split
        · exact State.wrunState_wclose _ _ _ ne
        · exact State.wrunState_wclose _ _ _ ne

theorem State.wuses_idle {src : Nat} (idle : s.wrunState i = 0) : s.wuses i src = false := by simp [State.wuses, idle]

theorem State.wslotEdge_unused {n src : Nat} {w : Option WStamp} (unused : s.wuses i src = false) :
    s.wslotEdge i n src w = s := if_pos (by simp [unused])

/-- An edge that only an INTERVAL slot uses reaches that slot. -/
theorem State.slots_edge {n src : Nat} {w : Option WStamp} (inside : k < 4)
    (idle : ∀ i, i < 4 → i ≠ k → s.wrunState i = 0) (uses : s.wuses k src = true) (interval : (s.wcfg k).type = 0) :
    (List.range 4).foldl (fun s i => s.wslotEdge i n src w) s = s.wInterval k ((s.wcfg k).a != src) w := by
  have reached : s.wslotEdge k n src w = s.wInterval k ((s.wcfg k).a != src) w :=
    (if_neg (not_not_intro uses)).trans (if_pos interval)
  rw [← reached]
  refine foldl_range_only inside (fun i known ne => State.wslotEdge_unused (State.wuses_idle (idle i known ne)))
    (fun i known ne => State.wslotEdge_unused (State.wuses_idle ?_))
  rw [reached, State.wrunState_wInterval _ _ ne]
  exact idle i known ne

/-- A stamp that no slot needs leaves source and pair as they are. -/
theorem State.wneeds_none {w : WStamp} (unused : ∀ i, i < 4 → s.wuses i w.src = false) :
    (List.range 4).any (fun i => s.wneeds i w) = false := by
  refine List.any_eq_false.mpr (fun i inside => ?_)
  simp [State.wneeds, unused i (List.mem_range.mp inside)]

theorem State.wneeds_interval {w : WStamp} (inside : k < 4) (uses : s.wuses k w.src = true) (interval : (s.wcfg k).type = 0)
    (needs : s.wIntervalNeeds k ((s.wcfg k).a != w.src) = true) : (List.range 4).any (fun i => s.wneeds i w) = true :=
  List.any_eq_true.mpr ⟨k, List.mem_range.mpr inside, by simp [State.wneeds, uses, interval, needs]⟩

/-- An edge once its source's rate is noted. -/
def State.wedgeOn (s : State) (e : WEdge) : State :=
  let k := e.src.val
  let w := s.wghStamp e
  let need := (List.range 4).any (fun i => s.wneeds i w)
  let dead := s.wghDead w
  let s := if need ∧ ¬ dead then s.setWlast k (some w) else s
  let s := (List.range 4).foldl (fun s i => s.wslotEdge i e.count.toNat k (if dead then none else some w)) s
  if need ∧ ¬ dead then s.wghPair k e.n1.toNat e.n2.toNat else s

theorem State.wedge_slow {e : WEdge} (slow : e.fast = false) : s.wedge e = s.wedgeOn e := by
  unfold State.wedge State.wedgeOn
  rw [slow]
  rfl

theorem State.wedge_fast {e : WEdge} (fast : e.fast = true) : s.wedge e = (s.wOver e.src).wedgeOn e := by
  unfold State.wedge State.wedgeOn
  rw [fast]
  rfl

/-- An edge that no slot uses. -/
theorem State.wedgeOn_unused {e : WEdge} (unused : ∀ i, i < 4 → s.wuses i e.src = false) : s.wedgeOn e = s := by
  have none_ : (List.range 4).any (fun i => s.wneeds i (s.wghStamp e)) = false := State.wneeds_none unused
  unfold State.wedgeOn
  simp only [none_, Bool.false_eq_true, false_and, if_false]
  exact foldl_range_id (fun i known => State.wslotEdge_unused (unused i known))

/-- An edge that a slot needs, outside the dead time: stamped, handed to the slots, and its pair made. -/
theorem State.wedgeOn_live {e : WEdge} (needed : (List.range 4).any (fun i => s.wneeds i (s.wghStamp e)) = true)
    (alive : s.wghDead (s.wghStamp e) = false) : s.wedgeOn e =
      ((List.range 4).foldl (fun t i => t.wslotEdge i e.count.toNat e.src (some (s.wghStamp e)))
        (s.setWlast e.src (some (s.wghStamp e)))).wghPair e.src e.n1.toNat e.n2.toNat := by
  unfold State.wedgeOn
  simp [needed, alive]

theorem State.wedgeOn_dead {e : WEdge} (dead : s.wghDead (s.wghStamp e) = true) :
    s.wedgeOn e = (List.range 4).foldl (fun s i => s.wslotEdge i e.count.toNat e.src none) s := by
  unfold State.wedgeOn
  simp [dead]

/-- A source that no slot uses is marked as over its rate. -/
theorem State.wOver_unused (unused : ∀ i, i < 4 → s.wuses i k = false) : s.wOver k =
    (s.wr (.wgh .STATUS_OVR_RATE) 0 (setBit k (s.rd (.wgh .STATUS_OVR_RATE) 0))).setH .wOvrAt k s.age := by
  unfold State.wOver
  refine foldl_range_id (fun i known => if_neg ?_)
  simpa [State.wuses, State.wcfg, State.wrunState] using unused i known

/-! ## Pairs, records -/

theorem State.wghPair_ok {n1 n2 : Nat} (ok : pairOk n1 n2 = true) : s.wghPair k n1 n2 =
    ((s.setH .wN1 k n1).setH .wN2 k n2).wr (.wgh .STATUS_CAL_BAD) 0
      (clrBit k (((s.setH .wN1 k n1).setH .wN2 k n2).rd (.wgh .STATUS_CAL_BAD) 0)) := if_pos ok

/-- A pair outside the limits stands as it was measured, and its source is CAL_BAD. -/
theorem State.wghPair_bad {n1 n2 : Nat} (known : k < 8) (bad : pairOk n1 n2 = false) :
    bit k ((s.wghPair k n1 n2).rd (.wgh .STATUS_CAL_BAD) 0) = true ∧ (s.wghPair k n1 n2).h .wN1 k = n1 ∧
      (s.wghPair k n1 n2).h .wN2 k = n2 := by
  have width : (Fld.wgh .STATUS_CAL_BAD).desc.width = 8 := rfl
  unfold State.wghPair
  rw [if_neg (ne_true_of_eq_false bad)]
  dsimp only
  split <;> simp [bit_trunc, width, known, State.h_raise _ _ _ _ _ _ _ (show Hid.wN1 ∉ crierHids by decide),
    State.h_raise _ _ _ _ _ _ _ (show Hid.wN2 ∉ crierHids by decide)]

/-- The record numbered n is signed and lies in its slot. -/
def State.recordPut (s : State) (r : List Byte) (l : List (List Byte)) (n : Nat) : State :=
  let body := r.take 12 ++ beBytes 8 n ++ r.drop 20
  (State.wr { s with wqueue := l } (.wgh .RECORD) (n % 256) (leNat (body ++ Config.ecdsaSign body))).wr (.wgh .HEAD_RECNO) 0 n

theorem State.recordSign_eq {r : List Byte} {l : List (List Byte)} (waits : s.wqueue = r :: l) : s.recordSign =
    (let n := s.rd (.wgh .HEAD_RECNO) 0 + 1
     if s.h .wCkpt + 65536 ≤ n then (s.recordPut r l n).setH .wCkpt 0 n else s.recordPut r l n) := by
  unfold State.recordSign
  rw [waits]
  rfl

theorem State.recordPut_values (s : State) (r : List Byte) (l : List (List Byte)) {n : Nat} (small : n < 2 ^ 64) :
    (s.recordPut r l n).wqueue = l ∧ (s.recordPut r l n).rd (.wgh .HEAD_RECNO) 0 = n ∧
      (s.recordPut r l n).rd (.wgh .RECORD) (n % 256) =
        trunc 1536 (leNat (r.take 12 ++ beBytes 8 n ++ r.drop 20 ++ Config.ecdsaSign (r.take 12 ++ beBytes 8 n ++ r.drop 20))) ∧
      (s.recordPut r l n).h .wCkpt = s.h .wCkpt := by
  have number : (Fld.wgh .HEAD_RECNO).desc.width = 64 := rfl
  have record : (Fld.wgh .RECORD).desc.width = 1536 := rfl
  unfold State.recordPut
  refine ⟨rfl, ?_, ?_, rfl⟩
  · rw [State.rd_wr, if_pos ⟨rfl, rfl⟩, number, trunc_of_lt small]
  · rw [State.rd_wr, if_neg (fun same => absurd same.1 (by decide)), State.rd_wr, if_pos ⟨rfl, rfl⟩, record]

/-! ## The obligation -/

/-- Settles O38: which slots an edge reaches, and what each part of the Weighhouse makes of it. -/
theorem weighhouseMeasures : Obligations.WeighhouseMeasures := by
  unfold Obligations.WeighhouseMeasures
  have works {s t : State} {f : State → State} (on_ : s.wghOn = true) (gives : f s = t) : s.inWgh f = t :=
    (if_pos on_).trans gives
  refine ⟨?off, ?noBell, ?noOutput, ?unused, ?unusedFast, ?live, ?dead, ?unopened, ?opened, ?stamp, ?pair, ?badPair,
    ?limits, ?clears, ?clear, ?timeout, ?noTimeout, ?queued, ?lost, ?signed, ?unsigned⟩
  case off =>
    intro e s off
    exact congrArg Host.Outcome.next (if_neg (by simp [off]))
  case noBell =>
    intro e s on_ tap off
    exact congrArg Host.Outcome.next (works on_ (if_neg (by simp [State.srcLive, off, Nat.not_lt.mpr tap])))
  case noOutput =>
    intro e s on_ tap off
    refine congrArg Host.Outcome.next (works on_ (if_neg ?_))
    rcases off with off | off <;> simp [State.srcLive, tap, off]
  case unused =>
    intro e s on_ live slow unused
    exact congrArg Host.Outcome.next (works on_
      ((if_pos live).trans ((State.wedge_slow slow).trans (State.wedgeOn_unused unused))))
  case unusedFast =>
    intro e s on_ live fast unused
    refine congrArg Host.Outcome.next (works on_ ((if_pos live).trans ((State.wedge_fast fast).trans ?_)))
    rw [State.wOver_unused unused]
    refine State.wedgeOn_unused (fun i known => ?_)
    simpa [State.wuses, State.wcfg, State.wrunState] using unused i known
  case live =>
    rintro e k _ s on_ live slow inside idle uses interval needs rfl alive
    refine congrArg Host.Outcome.next (works on_ ((if_pos live).trans ((State.wedge_slow slow).trans ?_)))
    rw [State.wedgeOn_live (State.wneeds_interval inside uses interval needs) alive]
    have reached := State.slots_edge (s := s.setWlast e.src (some (s.wghStamp e))) (n := e.count.toNat) (src := e.src)
      (w := some (s.wghStamp e)) inside (by simpa [State.wrunState] using idle)
      (by simpa [State.wuses, State.wcfg, State.wrunState] using uses) (by simpa [State.wcfg] using interval)
    rw [reached]
    rfl
  case dead =>
    rintro e k _ s on_ live slow inside idle uses interval needs rfl dead
    refine congrArg Host.Outcome.next (works on_ ((if_pos live).trans ((State.wedge_slow slow).trans ?_)))
    rw [State.wedgeOn_dead dead]
    exact State.slots_edge inside idle uses interval
  case unopened =>
    rintro k _ w s rfl unopened
    simp +contextual [State.wInterval, unopened]
  case opened =>
    rintro k side _ o w s rfl opened
    refine ⟨by simp [State.wInterval, opened], fun a => by simp [State.wInterval, opened, a],
      fun b => by simp [State.wInterval, opened, b], by simp [State.wInterval, opened, State.wdead]⟩
  case stamp =>
    rintro e s _ _ input rfl rfl rising
    have positive : (0 : Int) < (s.h .wN2 e.src : Int) - s.h .wN1 e.src := by omega
    refine ⟨?_, ?_⟩
    · have size : ((s.h .wN2 e.src : Int) - s.h .wN1 e.src).natAbs = s.h .wN2 e.src - s.h .wN1 e.src := by omega
      simp only [State.wghStamp, size]
    · simp only [State.wghStamp, if_neg (not_lt.mpr positive.le), if_neg (Nat.not_le.mpr input), Int.sub_zero]
  case pair =>
    rintro k a b s _ on_ ok rfl
    exact congrArg Host.Outcome.next (works on_ (State.wghPair_ok ok))
  case badPair =>
    intro k a b s on_ bad
    exact ⟨_, congrArg Host.Outcome.next (works on_ rfl), State.wghPair_bad k.isLt bad⟩
  case limits =>
    intro n1 n2
    simp [pairOk, and_assoc]
  case clears =>
    rintro k s _ on_ flagged rfl
    exact congrArg Host.Outcome.next (works on_ (if_pos flagged))
  case clear =>
    intro k s on_ unflagged
    exact congrArg Host.Outcome.next (works on_ (if_neg (by simp [unflagged])))
  case timeout =>
    rintro k o _ s _ on_ interval rfl opened goesOn rfl
    refine congrArg Host.Outcome.next (works on_ ?_)
    simp [State.wtimeout, State.wcfg, interval, opened, goesOn]
  case noTimeout =>
    intro k s on_ interval unopened
    refine congrArg Host.Outcome.next (works on_ ?_)
    simp [State.wtimeout, State.wcfg, interval, unopened]
  case queued =>
    intro k extra v n a b s _ room goesOn same endless
    have endless' : (s.wcfg k).countN = 0 := endless
    rw [State.wresult_eq, endless']
    have made : s.wmade k extra v n a b = (State.bump { s with wqueue := s.wqueue ++ [s.wrecord k (s.wcfg k).type
        (s.wflags k extra a b (s.wslot k)) v n a b ((s.wcfg k).psA, (s.wcfg k).psB) (s.wslot k)] } (.wgh .SLOT_MADE) k).setWslot
        k { s.wslot k with dead := 0, order := 0, misc := 0, flags := 0 } := if_neg (Nat.not_le.mpr room)
    rw [State.wboundary_goesOn (by simp [made, goesOn]) (by simp [made, same])]
    refine ⟨by rw [made]; simp [State.bump], by simp [made], ?_⟩
    exact State.wrunState_wmade k
  case lost =>
    intro k extra v n a b s _ full goesOn same endless
    have endless' : (s.wcfg k).countN = 0 := endless
    rw [State.wresult_eq, endless']
    have made : s.wmade k extra v n a b =
        s.setWslot k { s.wslot k with misc := (s.wslot k).misc + 1, flags := (s.wslot k).flags ||| 4096 } := if_pos full
    rw [State.wboundary_goesOn (by simp [made, goesOn]) (by simp [made, same])]
    exact ⟨by simp [made], by simp [made]⟩
  case signed =>
    rintro r l _ _ s on_ waits rfl small rfl length
    refine ⟨_, congrArg Host.Outcome.next (works on_ rfl), ?_⟩
    obtain ⟨left, number, record, checkpoint⟩ := s.recordPut_values r l small
    rw [State.recordSign_eq waits]
    dsimp only
    split
    · exact ⟨left, number, record, by simp⟩
    · exact ⟨left, number, record, checkpoint⟩
  case unsigned =>
    intro s on_ empty
    refine congrArg Host.Outcome.next (works on_ ?_)
    rw [State.recordSign, empty]

end Sys2Proof.Machine

/-! Where the event that a release brings about is written over the frame just received (R270, R518, R534). -/

namespace Sys2Proof.Machine

/-! ## A receive descriptor in the event ring

The reference of the copy is dropped after the descriptor is written. The drop of a reference to a free buffer freezes it
and raises POOL.REF_UNDERFLOW, and the record of the event lies in host memory, where software may have put the ring over
the descriptor. -/

/-- Receive ring 0 at host address 4 and the event ring at 0; a copy of buffer 0, which is free, waits in queue 0. -/
def ringOver : State :=
  (((((((State.reset.wr (.hrt .PWR_STAT_STATE) 0 0xFFFFF).wr (.glb .DMA_CFG_RX_EN) 0 1).wr (.glb .DMA_CFG_RX_SIZE_LOG) 0 6).wr
    (.glb .DMA_RX_BASE) 0 4).wr (.cri .EN) 0 (2 ^ 74)).wr (.cri .RING_SIZE) 0 8).wr (.cri .RING_EN) 0 1).setHq 0
      [{ handle := 0, md := 0 }]

/-- The 2 octets at a host address after a command; 0 where the command hands on no state. -/
def hostWordAfter (a : Nat) : Host.Outcome State Fault Refusal → Nat
  | .next s => s.rdMem .host a 2
  | _ => 0

theorem ringOver_receives : ringOver.up .DMA 0 = true ∧ ringOver.domOn .core = true ∧
    ringOver.on (.glb .DMA_CFG_RX_EN) 0 = true ∧ ringOver.hq 0 = [{ handle := 0, md := 0 }] ∧
    ringOver.copyOctets { handle := 0, md := 0 } = [] := by decide

theorem ringOver_ring : ringOver.rd (.glb .DMA_RX_BASE) 0 = 4 ∧ ringOver.rd (.glb .DMA_RXHT_HEAD) 0 = 0 ∧
    ringOver.rd (.glb .DMA_CFG_RX_SIZE_LOG) 0 = 6 ∧ ringOver.rdMem .host 4 8 = 0 := by decide

/-- The field of the descriptor that is to hold the frame's length holds the number of the event's source. -/
theorem ringOver_after : hostWordAfter 12 (exec (.dmaRxFrame 0) ringOver) = 74 := by decide +kernel

/-- Refutes O47: in `ringOver` the descriptor of a received frame does not hold its length. -/
theorem not_hostCommandsComplete : ¬ Obligations.HostCommandsComplete := by
  unfold Obligations.HostCommandsComplete
  rintro ⟨-, -, -, -, -, -, -, -, -, -, -, -, received, -⟩
  obtain ⟨up, core, enabled, waits, octets⟩ := ringOver_receives
  obtain ⟨base, head, size, buffer⟩ := ringOver_ring
  obtain ⟨u, runs, -, -, length, -⟩ := received 0 { handle := 0, md := 0 } [] 4 [] ringOver up core enabled waits
    (by rw [show ((0 : Fin 16) : Nat) = 0 from rfl, base, head]) octets.symm (Nat.zero_le _) (by decide)
    (.inl (by rw [buffer]; decide)) (by rw [show ((0 : Fin 16) : Nat) = 0 from rfl, head, size]; decide)
    (by rw [show ((0 : Fin 16) : Nat) = 0 from rfl, size]; decide)
  have after := ringOver_after
  rw [runs] at after
  exact absurd (length.symm.trans after) (by decide)

end Sys2Proof.Machine

/-! Lanes: modes, equaliser, raw rate, quad PLL, idle and slips (R35-R54). -/

namespace Sys2Proof.Machine

variable {s t : State} {k : State → State}

/-! ## What a command comes to where its unit works -/

/-- A write that reaches its registers, followed by its completion. -/
theorem next_writeTo {r : Req} {g : Grp} {i : Nat} {gated : Bool} (reach : Reaches s r g i gated) (h : k s = t) :
    (.next (s.writeTo r g i k gated) : Host.Outcome State Fault Refusal) = .next t.ok :=
  congrArg Host.Outcome.next ((State.writeTo_of_reaches reach k).trans (congrArg State.ok h))

/-- An event of a unit that works. -/
theorem next_inUnit {g : Grp} {i : Nat} (up : s.up g i = true) (h : k s = t) :
    (.next (s.inUnit g i k) : Host.Outcome State Fault Refusal) = .next t :=
  congrArg Host.Outcome.next ((State.inUnit_of_up up k).trans h)

/-- An event of a unit that works, under a condition of its own. -/
theorem next_inUnit_when {g : Grp} {i : Nat} {c : State → Bool} (up : s.up g i = true) (met : c s = true) (h : k s = t) :
    (.next (s.inUnit g i (fun s => s.when (c s) k)) : Host.Outcome State Fault Refusal) = .next t :=
  next_inUnit up ((State.when_of_true met k).trans h)

theorem next_inUnit_idle {g : Grp} {i : Nat} {c : State → Bool} (up : s.up g i = true) (unmet : c s = false) :
    (.next (s.inUnit g i (fun s => s.when (c s) k)) : Host.Outcome State Fault Refusal) = .next s :=
  next_inUnit up (State.when_of_false unmet k)

/-- An event of a domain that is on. -/
theorem next_inDom {d : Dom} (on_ : s.domOn d = true) (h : k s = t) :
    (.next (s.inDom d k) : Host.Outcome State Fault Refusal) = .next t :=
  congrArg Host.Outcome.next ((State.inDom_of_on on_ k).trans h)

theorem next_inDom_when {d : Dom} {c : State → Bool} (on_ : s.domOn d = true) (met : c s = true) (h : k s = t) :
    (.next (s.inDom d (fun s => s.when (c s) k)) : Host.Outcome State Fault Refusal) = .next t :=
  next_inDom on_ ((State.when_of_true met k).trans h)

theorem next_inDom_idle {d : Dom} {c : State → Bool} (on_ : s.domOn d = true) (unmet : c s = false) :
    (.next (s.inDom d (fun s => s.when (c s) k)) : Host.Outcome State Fault Refusal) = .next s :=
  next_inDom on_ (State.when_of_false unmet k)

/-! ## Lane modes -/

section Mode
variable {n m fec : Nat} {medium : Bool}

/-- A write that changes something on a lane that is no member. -/
theorem State.modeWrite_changes (single : s.rd (.lane .CTL_MODE) n ≠ 8)
    (changes : s.rd (.lane .CTL_MODE) n ≠ m ∨ s.rd (.lane .CTL_FEC) n ≠ fec ∨ s.on (.lane .CTL_MEDIUM) n ≠ medium) :
    s.modeWrite n m fec medium = (if s.modeOk n m fec medium then s.modeSet n m fec medium else s.modeRefused n) := by
  have differs : ¬ (s.rd (.lane .CTL_MODE) n = m ∧ s.rd (.lane .CTL_FEC) n = fec ∧ s.on (.lane .CTL_MEDIUM) n = medium) := by
    rintro ⟨mode, code, med⟩
    rcases changes with h | h | h
    · exact h mode
    · exact h code
    · exact h med
  exact (if_neg single).trans (if_neg differs)

/-- Where the quad lies does not depend on the refusal. -/
theorem State.lanePort_wr_refused (s : State) (n i v : Nat) : (s.wr (.lane .CTL_CFG_REFUSED) i v).lanePort n = s.lanePort n := by
  simp [State.lanePort]

end Mode

/-! ## The obligation -/

/-- Settles O4: each write is accepted or refused by the test at its head. -/
theorem laneConfigurationCompletes : Obligations.LaneConfigurationCompletes := by
  unfold Obligations.LaneConfigurationCompletes
  have refused : (Fld.lane .CTL_CFG_REFUSED).desc.width = 1 := rfl
  refine ⟨?mode, ?modeRefused, ?taps, ?tapsRefused, ?raw, ?rawRefused, ?quad, ?locks, ?idle, ?slip, ?slipRefused, ?slipDone⟩
  case mode =>
    intro r n m fec medium s reach single changes ok
    exact next_writeTo reach ((State.modeWrite_changes single changes).trans (if_pos ok))
  case modeRefused =>
    intro r n m fec medium s reach single changes bad
    refine ⟨s.wr (.lane .CTL_CFG_REFUSED) n 1, ?_, by simp [refused, trunc], Frame.wr _ _ _ (by simp) .refl⟩
    rw [State.lanePort_wr_refused]
    exact next_writeTo reach ((State.modeWrite_changes single changes).trans (if_neg (by simp [bad])))
  case taps =>
    intro r n v s reach trunk main sum
    refine next_writeTo reach ?_
    simp [State.txeqWrite, taps, isTrunk, trunk, coefAbs, Int.not_lt.mpr main, Nat.not_lt.mpr sum]
  case tapsRefused =>
    intro r n v s reach main
    refine next_writeTo reach ?_
    simp [State.txeqWrite, main]
  case raw =>
    intro r n div vco s reach low high code least most notRaw
    refine next_writeTo reach ?_
    simp [State.rawWrite, isTwin, isSpur, Nat.not_le.mpr high, low, high, Nat.not_lt.mpr code, least, most, notRaw]
  case rawRefused =>
    intro r n div vco s reach trunk code
    refine ⟨_, next_writeTo reach rfl, ?_⟩
    have notTwin : ¬ 72 ≤ n.val := by omega
    simp [State.rawWrite, isTwin, isSpur, notTwin, Nat.not_le.mpr trunk, code, refused, trunc]
  case quad =>
    intro r q family x vco s reach off least most
    refine next_writeTo reach ?_
    have idle : (List.range 4).any (fun k => s.rd (.lane .CTL_MODE) (4 * q.val + k) != 0) = false := by
      simpa using off
    simp only [State.quadPllWrite, idle, least, most]
    simp
  case locks =>
    rintro q s up ⟨k, inside, runs⟩
    refine next_inUnit up ?_
    have busy : ¬ ((List.range 4).all (fun k => s.rd (.lane .CTL_MODE) (4 * q.val + k) == 0)) = true := by
      intro all
      exact runs (by simpa using List.all_eq_true.mp all k (List.mem_range.mpr inside))
    exact if_neg busy
  case idle =>
    intro r n s reach
    exact next_writeTo reach rfl
  case slip =>
    intro r n s reach lane raw free
    refine next_writeTo reach ?_
    simp [State.slip, isTwin, Nat.not_le.mpr lane, State.rawMode, raw, free]
  case slipRefused =>
    intro r n s reach lane busy
    refine next_writeTo reach ?_
    simp [State.slip, isTwin, Nat.not_le.mpr lane, busy]
  case slipDone =>
    intro n s up busy
    refine next_inUnit_when up busy rfl

end Sys2Proof.Machine

/-! Lanes: clock recovery, alignment, negotiation, eye scans and the twin lanes (R39, R52, R55-R57, R59, R60); module masters
(R63-R67). -/

namespace Sys2Proof.Machine

variable {s : State}

/-! ## Twin lanes -/

/-- Offer number `offerCnt + 1` of a run of consistent ones, in block lock. -/
theorem State.offer_consistent {n rate : Nat} {sw : Bool} {c : Nat} (base : s.rd (.lane .TWIN_TSTATE) n = 1)
    (same : s.h .offerRate n = rate + 1) (second : 1 ≤ s.h .offerCnt n) (lock : s.on (.lane .STATUS_BLOCK_LOCK) n = true) :
    s.offer n rate sw c =
      (let t := ((s.setH .offerRate n (rate + 1)).setH .offerCnt n (s.h .offerCnt n + 1)).setH .twinRate n (s.agreedRate n rate)
       if s.agreedRate n rate = 0 then (t.wr (.lane .TWIN_TSTATE) n 4).wr (.lane .TWIN_CUR_RATE) n 0
       else t.wr (.lane .TWIN_TSTATE) n 2) := by
  have agreed (u v : Nat) : ((s.setH .offerRate n u).setH .offerCnt n v).agreedRate n rate = s.agreedRate n rate := by
    simp [State.agreedRate, State.rateExcluded]
  have counted : ¬ (s.h .offerCnt n + 1 < 2) := by omega
  simp [State.offer, base, same, counted, lock, agreed]

/-- What BASE leaves. -/
theorem State.twinBase_values (s : State) (n : Nat) : (s.twinBase n).rd (.lane .TWIN_TSTATE) n = 1 ∧
    (s.twinBase n).rd (.lane .TWIN_CUR_RATE) n = 0 ∧ (s.twinBase n).rd (.lane .STATUS_BLOCK_LOCK) n = 0 ∧
    (s.twinBase n).h .offerCnt n = 0 := by
  have state : (Fld.lane .TWIN_TSTATE).desc.width = 3 := rfl
  simp [State.twinBase, State.txSync, state, trunc]

theorem State.twinBase_frame (s : State) (n : Nat) : Frame s (s.twinBase n) [(.lane .TWIN_TSTATE, n),
    (.lane .TWIN_CUR_RATE, n), (.lane .STATUS_BLOCK_LOCK, n), (.lane .STATUS_TX_IDLE_ST, n)]
    [(.offerRate, n), (.offerCnt, n)] := by
  unfold State.twinBase State.txSync
  dsimp only
  exact Frame.wr _ _ _ (by simp) (Frame.wr _ _ _ (by simp) (Frame.setH _ _ _ (by simp) (Frame.setH _ _ _ (by simp)
    (Frame.wr _ _ _ (by simp) (Frame.wr _ _ _ (by simp) .refl)))))

/-! ## The obligations -/

/-- Settles O5: what each event of a lane that works writes. -/
theorem laneEventsComplete : Obligations.LaneEventsComplete := by
  unfold Obligations.LaneEventsComplete
  refine ⟨?cdr, ?idle, ?aligned, ?resolved, ?mismatch, ?eye, ?phase, ?first, ?agreed, ?last, ?lock, ?timeout, ?lost, ?base,
    ?skip, ?slip⟩
  case cdr =>
    intro n s up low high pll
    refine next_inUnit up ?_
    have mode : ¬ (s.rd (.lane .STATUS_EFF_MODE) n = 0 ∨ ¬ s.pllOk n = true) := by simp [pll]; omega
    have plain : ¬ (s.rd (.lane .STATUS_EFF_MODE) n = 9 ∨ s.rd (.lane .STATUS_EFF_MODE) n = 10 ∨
      s.rd (.lane .STATUS_EFF_MODE) n = 11) := by omega
    exact (if_neg mode).trans (if_neg plain)
  case idle =>
    intro n s up mode
    exact next_inUnit_when up (by simpa using mode) rfl
  case aligned =>
    intro n word gbx fec am s up mode port code samWord samGbx samFec samAm
    refine next_inUnit_when up (by simp [mode]) ?_
    simp [State.alignEvent, port, code, State.rawMode, mode, wOut, fecNK, hasMarkers, samWord, samGbx, samFec, samAm]
  case resolved =>
    intro n m s up medium low high same
    refine next_inUnit_when up (by simp [medium, same, low, high]) ?_
    simp [same]
  case mismatch =>
    intro n m s up medium low high differs
    refine next_inUnit_when up (by simp [medium, low, high]) ?_
    simp [Ne.symm differs]
  case eye =>
    intro n w h worst s up lock
    exact next_inUnit_when up lock rfl
  case phase =>
    intro n tx rx s up
    have tx16 : (Fld.lane .PHASE_TX_PHASE).desc.width = 16 := rfl
    have rx12 : (Fld.lane .PHASE_RX_PHASE).desc.width = 12 := rfl
    refine ⟨_, next_inUnit up rfl, by simp [tx16, trunc_of_lt tx.isLt], by simp [rx12, trunc_of_lt rx.isLt],
      Frame.wr _ _ _ (by simp) (Frame.wr _ _ _ (by simp) (Frame.wr _ _ _ (by simp) .refl))⟩
  case first =>
    intro t rate sw c s up base differs
    refine next_inUnit up ?_
    simp [State.offer, base, differs]
  case agreed =>
    intro t rate sw c s up base same second lock
    have state : (Fld.lane .TWIN_TSTATE).desc.width = 3 := rfl
    refine ⟨_, next_inUnit up (State.offer_consistent base same second lock), ?_⟩
    dsimp only
    split
    · exact ⟨by simp, by simp [state, trunc], Frame.wr _ _ _ (by simp) (Frame.wr _ _ _ (by simp) (Frame.setH _ _ _ (by simp)
        (Frame.setH _ _ _ (by simp) (Frame.setH _ _ _ (by simp) .refl))))⟩
    · exact ⟨by simp, by simp [state, trunc], Frame.wr _ _ _ (by simp) (Frame.setH _ _ _ (by simp)
        (Frame.setH _ _ _ (by simp) (Frame.setH _ _ _ (by simp) .refl)))⟩
  case last =>
    intro t rate s up step
    refine next_inUnit up ?_
    simp [State.offer, step]
  case lock =>
    intro t s up switch
    refine next_inUnit_when up (by simp [switch]) ?_
    simp
  case timeout =>
    intro t s up switch
    exact next_inUnit_when up (by simp [switch]) rfl
  case lost =>
    intro t s up run
    exact next_inUnit_when up (by simp [run]) rfl
  case base =>
    intro n s
    obtain ⟨state, rate, lock, offers⟩ := s.twinBase_values n
    exact ⟨_, rfl, state, rate, lock, offers, s.twinBase_frame n⟩
  case skip =>
    intro t fill s up running
    exact next_inUnit_when up (by simpa using running) rfl
  case slip =>
    intro t fill s up running least most
    refine next_inUnit_when up (by simpa using running) ?_
    simp [State.skip, Nat.not_lt.mpr least, Nat.not_lt.mpr most]

/-- The master's module and command do not change as it goes idle. -/
theorem State.slotHeld_modIdle (s : State) (m p : Nat) : (s.modIdle m).slotHeld p = s.slotHeld p := by
  simp [State.slotHeld, State.survRuns, State.survPort, State.modIdle]

/-- A transaction that does not touch the laser page ends with its result. -/
theorem State.modDone_plain {m : Nat} {res : ModRes} (plain : s.modLaser m = false) : s.modDone m res = (match res with
    | .nack => (s.modIdle m).wr (.mod .STATUS_NACK) m 1
    | .absent => (s.modIdle m).wr (.mod .STATUS_ABSENT) m 1
    | .ok data =>
      let t := (s.modIdle m).wr (.mod .STATUS_DONE) m 1
      if t.on (.mod .CMD_WRITE) m then t else t.modBuf m 0 (data.take (t.rd (.mod .CMD_LEN) m))) := by
  cases res <;> simp [State.modDone, plain]

/-- Settles O6: how a transaction of a module master begins and ends. -/
theorem moduleMasterCompletes : Obligations.ModuleMasterCompletes := by
  unfold Obligations.ModuleMasterCompletes
  refine ⟨?go, ?refused, ?nack, ?absent, ?data, ?locked, ?timeout, ?change⟩
  case go =>
    intro r m len write s reach free least most enabled
    refine next_writeTo reach ?_
    have some_ : len.toNat ≠ 0 := by omega
    have fits : ¬ (len.toNat = 0 ∨ 128 < len.toNat) := by omega
    unfold State.modGo
    rw [if_neg (by simp [free]), if_neg fits]
    simp [enabled]
  case refused =>
    intro r m len write s reach bad
    refine next_writeTo reach ?_
    unfold State.modGo
    split
    · rfl
    next free => rw [if_pos (bad.resolve_left free)]
  case nack =>
    intro m s up busy plain
    exact next_inUnit_when up busy (State.modDone_plain plain)
  case absent =>
    intro m s up busy plain
    exact next_inUnit_when up busy (State.modDone_plain plain)
  case data =>
    intro m data s up busy plain reads
    refine next_inUnit_when up busy ((State.modDone_plain plain).trans ?_)
    simp [State.modIdle, reads]
  case locked =>
    intro m res s up busy laser held
    refine next_inUnit_when up busy ?_
    simp [State.modDone, laser, State.slotHeld_modIdle, held]
    rfl
  case timeout =>
    intro m s up busy
    exact next_inUnit_when up busy rfl
  case change =>
    intro p present cmis s up changed
    exact next_inUnit_when up (by simpa using changed) rfl

end Sys2Proof.Machine

/-! The timescale: steps, replicas, the coarse copy, leap seconds, the output PLL (R79-R97, R167); delay checks (R142). -/

namespace Sys2Proof.Machine

variable {s : State}

/-! ## Steps -/

/-- The split of R81 gives the step back to half a phase step. -/
theorem stepSplit_near (d : Int) : (stepSplit d).2 < 1024 ∧
    (d * 5 - ((stepSplit d).1 * 524288 + (stepSplit d).2 * 512)).natAbs ≤ 256 := by
  have exact_ := Int.mul_ediv_add_emod (d * 5) 524288
  have rest := Int.emod_nonneg (d * 5) (show (524288 : Int) ≠ 0 by decide)
  have below := Int.emod_lt_of_pos (d * 5) (show (0 : Int) < 524288 by decide)
  have steps := Nat.div_add_mod ((d * 5 % 524288).toNat + 256) 512
  have part := Nat.mod_lt ((d * 5 % 524288).toNat + 256) (show 512 > 0 by decide)
  have shape : stepSplit d = if ((d * 5 % 524288).toNat + 256) / 512 = 1024 then (d * 5 / 524288 + 1, 0)
      else (d * 5 / 524288, ((d * 5 % 524288).toNat + 256) / 512) := rfl
  rw [shape]
  generalize d * 5 / 524288 = k at *
  generalize d * 5 % 524288 = r at *
  generalize d * 5 = q at *
  clear shape
  generalize (r.toNat + 256) / 512 = n at *
  generalize (r.toNat + 256) % 512 = m at *
  rcases Decidable.em (n = 1024) with whole | split_
  · simp only [if_pos whole]
    omega
  · simp only [if_neg split_]
    omega

/-- A step that R80 allows. -/
theorem State.stepReq_ok (first : s.on (.bell .STATUS_STEPPED) 0 = false) (small : (s.rdS (.bell .STEP_OFS) 0).natAbs ≤ 2 ^ 59)
    (ok : s.stepOk (s.rd (.bell .STEP_T) 0) (s.rdS (.bell .STEP_OFS) 0) = true) :
    s.stepReq false = (s.wr (.bell .STEP_CTL_KIND) 0 0).stepArm (s.rd (.bell .STEP_T) 0) (s.rdS (.bell .STEP_OFS) 0) false := by
  have ok' : (s.wr (.bell .STEP_CTL_KIND) 0 0).stepOk (s.rd (.bell .STEP_T) 0) (s.rdS (.bell .STEP_OFS) 0) = true := by
    simpa [State.stepOk, State.cstate, State.tOk, State.timeQ, State.domOn, State.domState] using ok
  have ofs : (s.wr (.bell .STEP_CTL_KIND) 0 0).rdS (.bell .STEP_OFS) 0 = s.rdS (.bell .STEP_OFS) 0 := by simp [State.rdS]
  unfold State.stepReq
  refine (if_neg ?_).trans ?_
  · simp only [Bool.false_eq_true, if_false, not_or]
    refine ⟨by simp [first], fun far => Nat.not_lt.mpr small (ofs ▸ far.2), ?_⟩
    simpa using (congrArg _ ofs).trans ok'
  · simp [ofs]

theorem State.stepReq_late {kind : Bool} (late : s.on (.bell .STATUS_STEPPED) 0 = true) : s.stepReq kind =
    (((s.wr (.bell .STEP_CTL_KIND) 0 kind.toNat).wr (.bell .STATUS_STEP_REFUSED) 0 1).raise .BELL_STEP_REFUSED locBell) := by
  simp [State.stepReq, late]

/-- The phase steps of a step are complete; firmware's record of it is not yet cleared. -/
def State.stepEnded (w : State) (n : Nat) : State :=
  let v := ((w.wr (.bell .STATUS_STEPPING) 0 0).setH .stepEnd 0 w.nowU)
  (v.wr (.bell .STEP_LAST_SUB) 0 n).wr (.bell .STEP_LAST_GEN) 0 (v.h .unitGen 1)

theorem State.stepDone_eq (steps : s.on (.bell .STATUS_STEPPING) 0 = true) : s.stepDone =
    (let v := ((s.pass ((s.h .stepS * 100 + 15) / 16)).stepEnded (s.h .stepS)).raise .BELL_STEP_DONE locBell
     if v.rd (.bell .STATUS_JSTATE) 0 = 2 ∧ v.h .stepAuth = 1 then
       { (v.wr (.bell .STATUS_JSTATE) 0 0).wrAll [.bell .CLEAR_CNT, .bell .JUMP_OFS] 0 0 with refused := [] }
     else v) := by
  unfold State.stepDone
  rw [if_neg (not_not_intro steps)]
  rfl

theorem State.stepEnded_values (w : State) (n : Nat) : (w.stepEnded n).rd (.bell .STATUS_STEPPING) 0 = 0 ∧
    (w.stepEnded n).h .stepEnd = w.nowU := by simp [State.stepEnded]

theorem State.stepEnded_frame (w : State) (n : Nat) : Frame w (w.stepEnded n) [(.bell .STATUS_STEPPING, 0),
    (.bell .STEP_LAST_SUB, 0), (.bell .STEP_LAST_GEN, 0)] [(.stepEnd, 0)] :=
  Frame.wr _ _ _ (by simp) (Frame.wr _ _ _ (by simp) (Frame.setH _ _ _ (by simp) (Frame.wr _ _ _ (by simp) .refl)))

/-! ## Replicas -/

theorem State.repMarker_reload {n : Nat} {a st : Bool} (reloads : s.on (.bell .REP_VALID) n = false ∨ 3 ≤ s.h .repBad n) :
    s.repMarker n a st = (s.setH .repBad n 0).wr (.bell .REP_VALID) n 1 :=
  if_pos (by simpa using reloads)

theorem State.repMarker_agrees {n : Nat} {a st : Bool} (valid : s.on (.bell .REP_VALID) n = true) (few : s.h .repBad n < 3)
    (fits : a = true ∨ st = true) : s.repMarker n a st = s.setH .repBad n 0 :=
  (if_neg (by simp [valid, few])).trans (if_pos fits)

theorem State.repMarker_differs {n : Nat} (valid : s.on (.bell .REP_VALID) n = true) (few : s.h .repBad n < 3) :
    s.repMarker n false false = (if s.h .repBad n + 1 = 3 then
      ((s.setH .repBad n (s.h .repBad n + 1)).wr (.bell .REP_FAULT) n 1).raise .BELL_REP_FAULT (locRep n) (locRep n)
      else s.setH .repBad n (s.h .repBad n + 1)) :=
  (if_neg (by simp [valid, few])).trans (if_neg (by simp))

/-! ## The obligations -/

/-- Settles O8: what the steps, the replicas, the coarse copy, the leap and the output PLL write. -/
theorem timescaleCompletes : Obligations.TimescaleCompletes := by
  unfold Obligations.TimescaleCompletes
  refine ⟨?step, ?armed, ?late, ?authorised, ?unauthorised, stepSplit_near, ?done, ?agrees, ?differs, ?fault, ?reload, ?echo,
    ?coarse, ?leap, ?unlock, ?relock⟩
  case step =>
    intro r s reach first small ok
    exact next_writeTo reach (State.stepReq_ok first small ok)
  case armed =>
    intro t d auth s
    obtain ⟨state, part, -, -, -, gen, kind, at_⟩ := State.values_arm
      (s := ((s.setHS .stepK 0 (stepSplit d).1).setH .stepS 0 (stepSplit d).2).setH .stepAuth 0 auth.toNat) 2 stepUnits
      (((s.setHS .stepK 0 (stepSplit d).1).setH .stepS 0 (stepSplit d).2).setH .stepAuth 0 auth.toNat |>.rd
        (.glb .COMMIT_PEND) 0) ((s.rd (.glb .DEV_GEN) 0 + 1) % 65536) t
    have runs : s.stepArm t d auth = (((s.setHS .stepK 0 (stepSplit d).1).setH .stepS 0 (stepSplit d).2).setH .stepAuth 0
        auth.toNat).arm 2 stepUnits ((((s.setHS .stepK 0 (stepSplit d).1).setH .stepS 0 (stepSplit d).2).setH .stepAuth 0
        auth.toNat).rd (.glb .COMMIT_PEND) 0) ((s.rd (.glb .DEV_GEN) 0 + 1) % 65536) t := rfl
    refine ⟨_, runs, state, kind, at_, ?_, ?_, part.trans (by decide), gen.trans (trunc_of_lt (Nat.mod_lt _ (by decide)))⟩
    · simp [State.arm]
    · simp [State.arm]
  case late =>
    intro r kind s reach late
    exact next_writeTo reach (State.stepReq_late late)
  case authorised =>
    intro r gen s reach current refused ok
    refine next_writeTo reach (if_neg ?_)
    simp [current, refused, ok]
  case unauthorised =>
    intro r gen s reach bad
    refine next_writeTo reach (if_pos ?_)
    rcases bad with other | state
    · exact .inl other
    · exact .inr (.inl state)
  case done =>
    rintro s w on_ steps - rfl
    obtain ⟨over_, end_⟩ := State.stepEnded_values (s.pass ((s.h .stepS * 100 + 15) / 16)) (s.h .stepS)
    exact ⟨_, _, next_inDom on_ (State.stepDone_eq steps), rfl, over_, end_, State.stepEnded_frame ..⟩
  case agrees =>
    intro n a st s up valid few fits
    exact congrArg Host.Outcome.next ((if_pos up).trans (State.repMarker_agrees valid few fits))
  case differs =>
    intro n s up valid few
    refine congrArg Host.Outcome.next ((if_pos up).trans ((State.repMarker_differs valid (by omega)).trans (if_neg ?_)))
    omega
  case fault =>
    intro n s up valid twice
    refine congrArg Host.Outcome.next ((if_pos up).trans ((State.repMarker_differs valid (by omega)).trans ?_))
    rw [twice]
    exact if_pos rfl
  case reload =>
    intro n a st s up reloads
    exact congrArg Host.Outcome.next ((if_pos up).trans (State.repMarker_reload reloads))
  case echo =>
    intro n dly s up
    exact congrArg Host.Outcome.next (if_pos up)
  case coarse =>
    rintro s _ on_ rfl
    exact next_inDom on_ rfl
  case leap =>
    rintro s _ on_ armed set_ rfl
    exact next_inDom on_ (if_pos ⟨armed, set_⟩)
  case unlock =>
    intro s on_ locked
    exact ⟨_, _, next_inDom on_ (if_neg (not_not_intro locked)), rfl, rfl⟩
  case relock =>
    rintro s _ on_ unlocked rfl follow lead holdover
    refine next_inDom on_ ((if_neg (by simp [unlocked])).trans ?_)
    dsimp only
    rw [if_neg (by simp [follow, lead, holdover])]

/-- The end of a check changes nothing that its verdict reads. -/
theorem State.checkGood_ended (s : State) (p : Nat) (rt : Option Int) :
    ((s.wr (.lane .DLY_STAT_CHECKING) p 0).setH .chkStage p 0).checkGood p rt = s.checkGood p rt := by
  cases rt <;> simp [State.checkGood, State.rdS] <;> rfl

/-- Settles O9: the three steps of a delay check. -/
theorem delayChecksComplete : Obligations.DelayChecksComplete := by
  unfold Obligations.DelayChecksComplete
  refine ⟨?start, ?entered, ?read, ?pass, ?fail, ?good, ?valid, ?invalid⟩
  case start =>
    intro r p s reach
    exact next_writeTo reach rfl
  case entered =>
    intro p cmis resid s up stage aligned awaited source
    exact next_inUnit_when up (by simp [stage, aligned, awaited]) (by simp only [State.checkRun, if_neg source])
  case read =>
    intro p cmis resid s up stage aligned awaited source
    exact next_inUnit_when up (by simp [stage, aligned, awaited]) (by simp only [State.checkRun, if_pos source])
  case pass =>
    intro p rt s up stage good
    exact next_inUnit_when up (by simp [stage]) (if_pos (by rw [State.checkGood_ended, good]))
  case fail =>
    intro p rt s up stage bad
    exact next_inUnit_when up (by simp [stage]) (if_neg (by rw [State.checkGood_ended, bad]; exact Bool.false_ne_true))
  case good =>
    intro p v s
    simp [State.checkGood, or_assoc, imp_iff_not_or]
  case valid =>
    intro p s invalid
    simp [State.dlyValid, invalid]
  case invalid =>
    intro p s valid
    simp [State.dlyInvalid, valid]

end Sys2Proof.Machine

/-! The survey controller: the asymmetry survey, the messages of both ends, the loopback survey (R127-R139). -/

namespace Sys2Proof.Machine

variable {s : State}

/-! ## Messages on a port's own list -/

@[simp] theorem State.ctlOf_setCtl (s : State) (p : Nat) (l : List Tx) : (s.setCtl p l).ctlOf p = l := Assoc.get_set_same ..

theorem State.ctlOf_setCtl_other (s : State) {p q : Nat} (l : List Tx) (apart : q ≠ p) : (s.setCtl p l).ctlOf q = s.ctlOf q :=
  Assoc.get_set_other _ _ _ apart _

/-- A START in an idle controller. -/
theorem State.asymStart_idle {p : Nat} {probe : Bool} (idle : s.h .survKind = 0) : s.asymStart p probe =
    (let w := (s.wr (.surv .CTL_KIND) 0 1).wr (.surv .CTL_PORT) 0 p
     if w.asymOk p probe then (w.survFresh 1).tuneStart else w.survRefuse) := by
  simp [State.asymStart, State.survRuns, idle]

theorem State.loopStart_idle {p : Nat} (idle : s.h .survKind = 0) : s.loopStart p =
    (let w := (s.wr (.surv .CTL_KIND) 0 2).wr (.surv .CTL_PORT) 0 p
     if ¬ w.inbandOn ∨ ¬ w.variant.hasPort p then w.survRefuse
     else
       let v := ((w.survFresh 2).setH .survAt 0 (w.survFresh 2).age).wr (.surv .STATUS_STATE) 0 2
       if v.rd (.surv .CTL_WH_IN) 0 = 3 then (v.setH .survSplit 0 1).setH .survPhase 0 2
       else
         let x := (v.setH .survPhase 0 1).wghHold
         let y := if x.on (.lane .STATUS_LINK_UP) p then x.linkDown p true else x
         (y.wr (.lane .STATUS_EFF_MODE) p 9).txSync p) :=
  if_neg (by simp [State.survRuns, idle])

@[simp] theorem State.rd_setHS (s : State) (f : Fld) (i : Nat) (x : Hid) (j : Nat) (v : Int) : (s.setHS x j v).rd f i = s.rd f i := by
  simp [State.setHS]

/-- Closing an exchange changes nothing that its round trip reads. -/
theorem State.exchange_closed (s : State) (p : Nat) (t4 : ObsStamp) (m : SurvMsg) :
    ((s.setH .survOpen 0 0).setH .survMiss 0 0).exchRt p t4 m = s.exchRt p t4 m ∧
    ((s.setH .survOpen 0 0).setH .survMiss 0 0).segB = s.segB ∧
    ((s.setH .survOpen 0 0).setH .survMiss 0 0).hS .survSum = s.hS .survSum := by
  simp [State.exchRt, State.fibreTx, State.fibreRx, State.segB, State.hS]

/-- What a START writes first tells nothing about in-band management. -/
theorem State.inbandOn_wr_surv (s : State) (f : SurvF) (i v : Nat) : (s.wr (.surv f) i v).inbandOn = s.inbandOn := by
  simp [State.inbandOn]

theorem State.answers_eq {p : Nat} (enabled : s.on (.lane .DLY_CFG_RESP_EN) p = true) (inband : s.inbandOn = true) :
    s.answers p = true := by simp [State.answers, enabled, inband]

/-! ## The obligations -/

/-- Settles O10: the asymmetry survey, state by state of Table 4.4. -/
theorem asymmetrySurveyCompletes : Obligations.AsymmetrySurveyCompletes := by
  unfold Obligations.AsymmetrySurveyCompletes
  refine ⟨?refused, ?starts, ?fresh, ?measures, ?acked, ?timeout, ?exchange, ?resp, ?spoilt, ?silent, ?solve, ?apply,
    ?boundary, ?abort⟩
  case refused =>
    intro r p probe s reach idle bad
    refine next_writeTo reach ((State.asymStart_idle idle).trans (if_neg ?_))
    rcases bad with h | h | h <;> simp [State.asymOk, State.lam, State.dlyOk] at h ⊢ <;> simp [h]
  case starts =>
    intro r p probe s reach idle ok
    exact next_writeTo reach ((State.asymStart_idle idle).trans (if_pos ok))
  case fresh =>
    intro s
    exact ⟨_, rfl, by simp [State.survFresh], by simp [State.survFresh], by simp [State.survFresh]; rfl,
      by simp [State.survFresh], by simp [State.survFresh], by simp [State.survFresh]⟩
  case measures =>
    rintro s w up runs tune rfl acked span
    exact next_inUnit_when up (by simp [runs, tune]) (if_pos ⟨acked, by simp, span⟩)
  case acked =>
    intro p m s up mine answer waits
    have acks : bit 2 m.flags.toNat = false := by simpa [bit, BitVec.getLsbD, Nat.testBit_eq_decide_div_mod_eq] using answer
    refine next_inUnit_when up (by simp [mine, acks]) (if_neg ?_)
    simp [waits]
  case timeout =>
    intro s up runs tune
    exact next_inUnit_when up (by simp [runs, tune]) rfl
  case exchange =>
    intro s up runs measures closed
    exact next_inUnit_when up (by simp [runs, measures]) (by simp only [State.exchange, if_neg closed])
  case resp =>
    rintro p t4 m s w up mine open_ seq sent void caution fine flags segB rfl
    refine next_inUnit_when up (by simp [mine, open_, seq, sent]) ((if_neg ?_).trans ?_)
    · simp [void, caution, fine, flags]
    · obtain ⟨trip, pair, sum⟩ := State.exchange_closed s p t4 m
      simp [pair.trans segB, trip, sum]
  case spoilt =>
    intro p t4 m s up mine open_ seq sent bad
    refine next_inUnit_when up (by simp [mine, open_, seq, sent]) (if_pos ?_)
    rcases bad with h | h
    · exact .inl h
    · exact .inr (.inl h)
  case silent =>
    intro s up runs measures three
    exact next_inUnit_when up (by simp [runs, measures, three]) rfl
  case solve =>
    intro s up runs solves
    exact next_inUnit_when up (by simp [runs, solves]) rfl
  case apply =>
    intro r s reach done asym
    exact next_writeTo reach (if_pos ⟨done, asym⟩)
  case boundary =>
    intro s p waits
    simp only [State.asymBoundary, waits]
    simp [State.hS, State.wrS, srcSURVEY]
  case abort =>
    intro r s reach runs
    exact next_writeTo reach (if_pos (by simp [State.survRuns, runs]))

/-- Settles O11: what answers a survey message, and the loopback survey. -/
theorem surveyMessagesComplete : Obligations.SurveyMessagesComplete := by
  unfold Obligations.SurveyMessagesComplete
  refine ⟨?req, ?tune, ?dropped, ?end_, ?sends, ?off, ?refused, ?alone, ?phase1, ?badRecords, ?probe, ?phase2, ?remainder,
    ?assumed⟩
  case req =>
    intro p t2 m s up enabled inband free
    exact next_inUnit_when up (by simp [State.answers_eq enabled inband, State.peerOk, free]) rfl
  case tune =>
    intro p m ok s up enabled inband free tunes
    refine next_inUnit_when up (by simp [State.answers_eq enabled inband, State.peerOk, free]) ?_
    simp [tunes]
  case dropped =>
    intro p m ok s up silent
    refine next_inUnit_idle up ?_
    rcases silent with disabled | ⟨open_, other⟩
    · simp [State.answers, disabled]
    · simp [State.peerOk, open_, other]
  case end_ =>
    intro p m s up inband mine
    exact next_inUnit_when up (by simp [State.peerOk, mine, inband]) rfl
  case sends =>
    intro p own ofs cls dst body s inband
    have runs : s.inbandSend p own ofs cls dst body = (s.setH .treSeq cls ((s.h .treSeq cls + 1) % 65536)).inbandPut p own ofs
        (s.msgHdr cls body.length (s.h .treSeq cls) (s.rd (.twn .TRE_NODE) 0) dst 16 false ++ body) :=
      if_neg (not_not_intro inband)
    refine ⟨_, runs, ?_, ?_, ?_, ?_, ?_⟩
    · simp [State.inbandPut]
    · simp [State.inbandPut]
    · intro q other
      simp only [State.inbandPut, State.ctlOf_setCtl_other _ _ other]
      rfl
    · intro f i
      simp [State.inbandPut]
    · intro x i other
      have apart : ¬ (x = .treSeq ∧ i = cls) := fun h => other (by rw [h.1, h.2])
      simp only [State.inbandPut, State.setCtl_readings, State.h_setH, if_neg apart]
  case off =>
    intro p own ofs cls dst body s off
    exact if_pos (by simp [off])
  case refused =>
    intro r p s reach idle off
    refine next_writeTo reach ((State.loopStart_idle idle).trans (if_pos (.inl ?_)))
    simp [State.inbandOn_wr_surv, off]
  case alone =>
    rintro r p s w reach idle inband present input rfl
    refine next_writeTo reach ((State.loopStart_idle idle).trans ((if_neg ?_).trans (if_pos ?_)))
    · simp [State.inbandOn_wr_surv, inband, present]
    · simp [State.survFresh, input]
  case phase1 =>
    rintro mean bad rec s w up runs phase few rfl
    refine next_inUnit_when up (by simp [runs, phase]) ?_
    exact if_neg (Nat.not_lt.mpr few)
  case badRecords =>
    intro mean bad rec s up runs phase many
    exact next_inUnit_when up (by simp [runs, phase]) (if_pos many)
  case probe =>
    intro s up runs phase
    refine next_inUnit_when up (by simp [runs, phase]) ?_
    simp [State.probeFail, State.loopPhase2, State.survPort]
  case phase2 =>
    intro rt s up runs phase
    exact next_inUnit_when up (by simp [runs, phase]) rfl
  case remainder =>
    have state : (Fld.surv .STATUS_STATE).desc.width = 4 := rfl
    have done : (Fld.surv .STATUS_DONE).desc.width = 1 := rfl
    rintro rt s p rest rfl split rfl
    refine ⟨_, rfl, ?_, ?_, ?_, ?_, ?_, ?_, ?_⟩
    · simp [split]
    · simp
    · simp [beq_eq_false_iff_ne.mpr split, trunc_zero]
    · simp [State.sstat, state, trunc]
    · simp [done, trunc]
    · simp
    · simp
  case assumed =>
    have single : (Fld.lane .DLY_STAT_SPLIT_ASSUMED).desc.width = 1 := rfl
    rintro rt s p rest rfl split rfl
    refine ⟨_, rfl, ?_, ?_, ?_⟩
    · simp [split]
    · simp [split]
    · simp [split, single, trunc]

end Sys2Proof.Machine

/-! The reference selector: writes of a slot, forcing, presence, the monitors' verdicts, ranks and ESMC (R145-R162). -/

namespace Sys2Proof.Machine

variable {s : State} {n : Nat}

/-! ## Writes of a slot -/

section Write
variable {src : Nat} {en : Bool}

theorem State.slotWrite_refused (bad : (src ≠ s.slotSrc n ∧ (82 ≤ src ∨ s.srcTaken n src = true)) ∨
    (en = true ∧ s.on (.sel .SLOT_CFG_ENABLE) n = false ∧ s.srcTaken n src = true)) :
    s.slotWrite n en src = s.wr (.sel .CTL_CFG_REFUSED) 0 1 :=
  if_pos (by simpa [or_assoc, and_assoc] using bad)

/-- A slot that is off takes its source and its enable. -/
theorem State.slotWrite_off (off : s.on (.sel .SLOT_CFG_ENABLE) n = false) (changes : en = true ∨ src ≠ s.slotSrc n)
    (listed : src = s.slotSrc n ∨ src < 82) (free : s.srcTaken n src = false) : s.slotWrite n en src =
    (let w := (s.wr (.sel .SLOT_CFG_SRC) n src).wr (.sel .SLOT_CFG_ENABLE) n en.toNat
     (if en then w.slotLos n else w).sigRefresh) := by
  have fine : ¬ ((src != s.slotSrc n && (82 ≤ src || s.srcTaken n src)) || (en && !false && s.srcTaken n src)) = true := by
    rcases listed with rfl | h
    · simp [free]
    · simp [free, Nat.not_le.mpr h]
  unfold State.slotWrite
  rw [off]
  refine (if_neg fine).trans ((if_neg ?_).trans ?_)
  · rcases changes with h | h <;> simp [h]
  · simp

/-- A slot that is on is switched off. -/
theorem State.slotWrite_on (on_ : s.on (.sel .SLOT_CFG_ENABLE) n = true) : s.slotWrite n false (s.slotSrc n) =
    (((s.slotOff n).wr (.sel .SLOT_CFG_SRC) n (s.slotSrc n)).wr (.sel .SLOT_CFG_ENABLE) n 0).sigRefresh := by
  simp [State.slotWrite, on_]

/-- A slot with a legal scaling and a source that the variant has enters LOS. -/
theorem State.slotLos_enters (listed : s.slotSrc n < 82) (present : s.srcAbsent (s.slotSrc n) = false)
    (legal : s.slotCfgOk n = true) (open_ : s.on (.sel .SLOT_CFG_LOCKOUT) n = false) :
    ((s.wr (.sel .SLOT_CFG_SRC) n (s.slotSrc n)).wr (.sel .SLOT_CFG_ENABLE) n 1).slotLos n =
      ((s.wr (.sel .SLOT_CFG_SRC) n (s.slotSrc n)).wr (.sel .SLOT_CFG_ENABLE) n 1).wr (.sel .SLOT_STAT_SSTATE) n 1 := by
  have width : (Fld.sel .SLOT_CFG_SRC).desc.width = 7 := rfl
  have same : trunc 7 (s.slotSrc n) = s.slotSrc n := trunc_of_lt (by omega)
  have src : ((s.wr (.sel .SLOT_CFG_SRC) n (s.slotSrc n)).wr (.sel .SLOT_CFG_ENABLE) n 1).slotSrc n = s.slotSrc n := by
    simpa [State.slotSrc, width] using same
  have fin : (((s.wr (.sel .SLOT_CFG_SRC) n (s.slotSrc n)).wr (.sel .SLOT_CFG_ENABLE) n 1).wr (.sel .SLOT_STAT_SSTATE) n
      1).slotFin n = s.slotFin n := by
    have src' : (((s.wr (.sel .SLOT_CFG_SRC) n (s.slotSrc n)).wr (.sel .SLOT_CFG_ENABLE) n 1).wr (.sel .SLOT_STAT_SSTATE) n
      1).slotSrc n = s.slotSrc n := by simpa [State.slotSrc, width] using same
    simp only [State.slotFin, src']
    simp
  have cfg : (((s.wr (.sel .SLOT_CFG_SRC) n (s.slotSrc n)).wr (.sel .SLOT_CFG_ENABLE) n 1).wr (.sel .SLOT_STAT_SSTATE) n
      1).slotCfgOk n = true := by
    have src' : (((s.wr (.sel .SLOT_CFG_SRC) n (s.slotSrc n)).wr (.sel .SLOT_CFG_ENABLE) n 1).wr (.sel .SLOT_STAT_SSTATE) n
      1).slotSrc n = s.slotSrc n := by simpa [State.slotSrc, width] using same
    rw [← legal]
    simp only [State.slotCfgOk, src', fin]
    simp
  have unlocked : ((s.wr (.sel .SLOT_CFG_SRC) n (s.slotSrc n)).wr (.sel .SLOT_CFG_ENABLE) n 1).on (.sel .SLOT_CFG_LOCKOUT) n =
      false := by simpa using open_
  unfold State.slotLos
  rw [src]
  refine (if_neg ?_).trans ?_
  · simpa [State.srcAbsent] using present
  · rw [unlocked]
    exact if_pos cfg

end Write

/-! ## The choice of a slot -/

/-- The best of a list is in it. -/
theorem State.bestOf_mem (s : State) (l : List Nat) : s.bestOf l = some n → n ∈ l := by
  have general : ∀ (l : List Nat) (b : Option Nat), l.foldl (fun b n => match b with
      | none => some n
      | some m => if s.slotKey n < s.slotKey m then some n else b) b = some n → n ∈ l ∨ b = some n := by
    intro l
    induction l with
    | nil => exact fun b h => .inr h
    | cons x xs ih =>
      intro b h
      rcases ih _ h with inTail | now
      · exact .inl (List.mem_cons_of_mem _ inTail)
      · cases b with
        | none => exact .inl (by simp_all)
        | some m =>
          dsimp only at now
          split at now
          · exact .inl (by simp_all)
          · exact .inr now
  intro h
  rcases general l none h with h | h
  · exact h
  · cases h

theorem State.candidate_of_bestOf (h : s.bestOf s.candidates = some n) : s.candidate n = true :=
  (List.mem_filter.mp (State.bestOf_mem s _ h)).2

theorem State.candidate_of_freshPick (h : s.freshPick = some n) : s.candidate n = true :=
  (List.mem_filter.mp (List.mem_filter.mp (State.bestOf_mem s _ h)).1).2

theorem State.candidate_of_forced (h : s.forced = true) : s.candidate (s.rd (.sel .CTL_FORCE_SLOT) 0) = true := by
  simp only [State.forced, Bool.and_eq_true] at h
  exact h.2

/-- What is picked is a candidate of a selector that runs. -/
theorem State.candidate_of_pick (h : s.pick = some n) : s.candidate n = true ∧ s.selRuns = true := by
  unfold State.pick at h
  dsimp only at h
  rcases Bool.eq_false_or_eq_true s.selRuns with runs | stopped
  · refine ⟨?_, runs⟩
    rw [if_neg (not_not_intro runs)] at h
    split at h
    · cases h
      exact State.candidate_of_forced ‹_›
    · split at h
      · exact State.candidate_of_freshPick h
      · rename_i c current
        have held : s.candidate c = true := by
          split at current
          · cases current
          · split at current
            · cases current
              assumption
            · cases current
        split at h
        · cases h
          exact held
        · split at h
          · exact State.candidate_of_freshPick h
          · split at h
            · cases h
              exact held
            · rename_i b best
              split at h
              · cases h
                exact State.candidate_of_bestOf best
              · cases h
                exact held
  · rw [if_pos (by simp [stopped])] at h
    cases h

/-! ## The obligations -/

/-- Settles O12: what the writes of a slot, a force, a change of presence and the end of wait-to-restore do. -/
theorem slotCommandsComplete : Obligations.SlotCommandsComplete := by
  unfold Obligations.SlotCommandsComplete
  refine ⟨?enable, ?disable, ?taken, ?badSrc, ?src, ?lockout, ?release, ?force, ?forceRefused, ?input, ?port, ?appears,
    ?leaves, ?lost, ?restored⟩
  case enable =>
    intro r n s reach off listed free present legal open_
    refine next_writeTo reach ((State.slotWrite_off off (.inl rfl) (.inl rfl) free).trans ?_)
    exact congrArg State.sigRefresh (State.slotLos_enters listed present legal open_)
  case disable =>
    intro r n s reach on_
    exact next_writeTo reach (State.slotWrite_on on_)
  case taken =>
    intro r n s reach off taken
    exact next_writeTo reach (State.slotWrite_refused (.inr ⟨rfl, off, taken⟩))
  case badSrc =>
    intro r n src s reach changes bad
    exact next_writeTo reach (State.slotWrite_refused (.inl ⟨changes, bad⟩))
  case src =>
    intro r n src s reach changes listed free off
    refine next_writeTo reach ?_
    rw [off]
    exact State.slotWrite_off off (.inr changes) (.inr listed) free
  case lockout =>
    intro r n s reach notOff notLocked
    refine next_writeTo reach ?_
    have state : (s.wr (.sel .SLOT_CFG_LOCKOUT) n 1).sstate n = s.sstate n := by simp [State.sstate]
    unfold State.lockoutWrite
    dsimp only [Bool.toNat_true]
    rw [state, if_pos ⟨rfl, notOff, notLocked⟩]
    rfl
  case release =>
    intro r n s reach locked
    refine next_writeTo reach ?_
    have state : (s.wr (.sel .SLOT_CFG_LOCKOUT) n 0).sstate n = 6 := by simpa [State.sstate] using locked
    unfold State.lockoutWrite
    dsimp only [Bool.toNat_false]
    rw [state, if_neg (by simp), if_pos ⟨by simp, rfl⟩]
    rfl
  case force =>
    intro r slot s reach off qualified
    refine next_writeTo reach ((if_neg ?_).trans (if_neg ?_))
    · simp [off]
    · simp [qualified, ssQUALIFIED]
  case forceRefused =>
    intro r slot s reach off unqualified
    refine next_writeTo reach ((if_neg ?_).trans (if_pos ⟨rfl, unqualified⟩))
    simp [off]
  case input =>
    intro src present s on_ low high
    refine next_inDom on_ ?_
    rw [if_pos ⟨low, high⟩]
    exact if_pos (by simpa using on_)
  case port =>
    intro src present s on_ low
    refine next_inDom on_ ?_
    rw [if_neg (by omega)]
    exact if_pos on_
  case appears =>
    intro n s los signal new
    simp [State.sigUpdate, los, signal, new, ssOFF, ssLOS, ssQUALIFYING]
  case leaves =>
    intro n s qualifying gone had
    simp [State.sigUpdate, qualifying, gone, had, ssOFF, ssLOS, ssQUALIFYING]
  case lost =>
    intro n s state gone had
    rcases state with h | h <;>
      simp [State.sigUpdate, h, gone, had, ssOFF, ssQUALIFYING, ssQUALIFIED, ssWTR, State.disq, ssDISQ]
  case restored =>
    rintro n s _ on_ waits rfl
    exact next_inDom on_ (if_pos waits)

/-- Settles O13: the monitors' verdicts, the vote, the ranks, the choice, and the ESMC messages. -/
theorem monitorsAndEsmcComplete : Obligations.MonitorsAndEsmcComplete := by
  unfold Obligations.MonitorsAndEsmcComplete
  refine ⟨?monitor, ?long, ?dormant, ?rank15, ?hard, ?outvoted, ?qualifies, ?waits, ?conflict, ?override, ?pulse, ?code,
    ?pick, ?ssm, ?tlv, ?silent, ?info, ?event, ?local_, ?held, ?loop⟩
  case monitor =>
    intro ms s on_ mode
    exact congrArg Host.Outcome.next (if_pos (by simp [State.selRuns, on_, modeDormant, mode]))
  case long =>
    intro ms s on_ mode
    exact congrArg Host.Outcome.next (if_pos (by simp [State.selRuns, on_, modeDormant, mode]))
  case dormant =>
    intro ms s mode
    exact congrArg Host.Outcome.next (if_neg (by simp [State.selRuns, modeDormant, mode]))
  case rank15 =>
    intro n s state short middle rank
    rcases state with h | h <;> simp [State.judge, short, middle, h, rank, ssQUALIFIED, ssWTR]
  case hard =>
    intro n s state rank soft hard
    have state' : ((s.wr (.sel .SLOT_STAT_SOFT_HIT) n 1).raise .SEL_SOFT_LIMIT locBell).sstate n = 3 := by
      simpa [State.sstate] using state
    have rank' : ((s.wr (.sel .SLOT_STAT_SOFT_HIT) n 1).raise .SEL_SOFT_LIMIT locBell).qrank n ≠ 15 := by
      simpa [State.qrank] using rank
    simp [State.judge, soft, hard, state', rank', ssQUALIFIED]
  case outvoted =>
    intro n s state rank short middle shortHard middleHard
    simp [State.judge, short, middle, shortHard, middleHard, state, rank, ssQUALIFIED, ssWTR]
  case qualifies =>
    intro n s state short middle
    simp [State.judge, short, middle, state, ssQUALIFIED, ssWTR, ssQUALIFYING]
  case waits =>
    intro n s state short middle long
    simp [State.judge, short, middle, long, state, ssQUALIFIED, ssWTR, ssQUALIFYING, ssDISQ, and_assoc]
  case conflict =>
    intro k s x y two
    simp only [State.vote, two]
  case override =>
    intro n s on_
    simp [State.slotRank, on_]
  case pulse =>
    intro n s off low high
    simp [State.slotRank, off, Nat.not_lt.mpr low, Nat.not_le.mpr high]
  case code =>
    intro n s c off port code
    simp [State.slotRank, off, port, code]
  case pick => exact fun s n h => State.candidate_of_pick h
  case ssm =>
    intro p ssm s up
    exact next_inUnit up rfl
  case tlv =>
    intro p ssm e s up
    refine ⟨_, next_inUnit up rfl, by simp, ?_, Frame.setH _ _ _ (by simp) (Frame.setH _ _ _ (by simp) .refl)⟩
    have ssm_ := ssm.isLt
    have ql : (((s.setH .portQl p (1 + ssm.toNat + 32 * (1 + e.toNat))).setH .esmcAt p s.age).h .portQl p) =
        (ssm.toNat + 32 * (1 + e.toNat)) + 1 := by simp; omega
    have ext : (ssm.toNat + 32 * (1 + e.toNat)) / 32 = 1 + e.toNat := by omega
    have low : (ssm.toNat + 32 * (1 + e.toNat)) % 32 = ssm.toNat := by omega
    simp only [State.portCode, ql, ext, low]
    by_cases option2 : s.rdA (.sel .CTL_QL_OPT) 0 = 1 <;> simp [State.qlOpt, option2]
  case silent =>
    intro p s up
    exact ⟨_, next_inUnit up rfl, by simp [State.portCode], Frame.setH _ _ _ (by simp) .refl⟩
  case info =>
    intro p s sends
    exact congrArg Host.Outcome.next (if_pos sends)
  case event =>
    intro p s sends differs
    exact congrArg Host.Outcome.next (if_pos (by simp [sends, differs]))
  case local_ =>
    intro p s other
    simp [State.txQuality, other]
  case held =>
    intro p s bell state
    rcases state with h | h <;> simp [State.txQuality, bell, h]
  case loop =>
    intro p n s selected same locked
    simp [State.txQuality, locked, selected, same]

end Sys2Proof.Machine

/-! Holdover (R168-R173); timing outputs and triggers, time of day, captures and intervals (R176-R185). -/

namespace Sys2Proof.Machine

variable {s : State}

/-! ## Holdover -/

/-- Bringing the history's sums up to the present changes no register. -/
@[simp] theorem State.rd_histSum (s : State) (f : Fld) (i : Nat) : s.histSum.rd f i = s.rd f i := by
  unfold State.histSum
  split <;> simp [State.setHS]

/-- What is published in HOLDOVER does not bear on the limits. -/
theorem State.holdOver_holdPublish (s : State) : s.holdPublish.holdOver = s.holdOver := by
  have secs : s.holdPublish.holdSecs = s.holdSecs := by simp [State.holdPublish, State.holdSecs]
  have bound : s.holdPublish.holdBound = s.holdBound := by
    unfold State.holdBound
    rw [secs]
    simp [State.holdPublish, State.tsens, State.rdS]
  have limits : s.holdPublish.rd (.sel .HOLD_LIM_TE_MAX) 0 = s.rd (.sel .HOLD_LIM_TE_MAX) 0 ∧
      s.holdPublish.rd (.sel .HOLD_LIM_T_MAX) 0 = s.rd (.sel .HOLD_LIM_T_MAX) 0 := by simp [State.holdPublish]
  unfold State.holdOver
  rw [secs, bound, limits.1, limits.2]

theorem State.hist_histTrim (s : State) (cut : Nat) : (s.histTrim cut).hist = s.hist.filter (fun e => decide (e.fin ≤ cut)) := by
  unfold State.histTrim
  dsimp only
  split <;> rfl

theorem State.putWord_within {w : Int} (high : w ≤ freqLimit) (low : -freqLimit ≤ w) :
    s.putWord w = s.histSum.wrS (.bell .FREQ_NOW) 0 w := if_neg (by omega)

theorem State.putWord_above {w : Int} (high : freqLimit < w) : s.putWord w = (((s.histSum.wrS (.bell .FREQ_NOW) 0 freqLimit).wr
    (.bell .STATUS_FREQ_CLAMPED) 0 1).raise .BELL_FREQ_CLAMPED locBell) := by
  have positive : ¬ w < 0 := by
    have limit : (0 : Int) < freqLimit := by decide
    omega
  unfold State.putWord
  dsimp only
  rw [if_pos (.inl high), if_neg positive]

/-- A step of the DAC upward moves the code, the count, the servo's integral and the word together. -/
theorem State.dacStep_up (below : s.rd (.sel .HOLD_DAC_CODE) 0 < 0xFFFFF) : s.dacStep true =
    (let w := s.histSum
     (((w.wr (.sel .HOLD_DAC_CODE) 0 (w.rd (.sel .HOLD_DAC_CODE) 0 + 1)).wrS (.sel .HOLD_DAC_XFER) 0
       (w.rdS (.sel .HOLD_DAC_XFER) 0 + 1)).wrS (.bell .HWS_I) 0 (w.rdS (.bell .HWS_I) 0 - w.dacK)).putWord
       (w.wordNow - w.dacK)) := by
  have code : ((s.rd (.sel .HOLD_DAC_CODE) 0 : Int) + 1).toNat = s.rd (.sel .HOLD_DAC_CODE) 0 + 1 := by omega
  unfold State.dacStep
  dsimp only
  rw [if_pos rfl, if_neg (by omega), code]
  simp [State.rdS, State.wrS, State.dacK, State.wordNow]

/-- Settles O14: the history, the limits, the held word, the DAC and the clamp of the word. -/
theorem holdoverCompletes : Obligations.HoldoverCompletes := by
  unfold Obligations.HoldoverCompletes
  refine ⟨?entry, ?publish, State.hist_histTrim, ?expired, ?limits, ?model, ?constant, ?transfer, ?up, ?top, ?code,
    ?codeRefused, ?within, ?above⟩
  case entry =>
    rintro s _ _ on_ records rfl rfl
    refine next_inDom on_ ((if_pos records).trans ?_)
    simp
  case publish => exact fun s => rfl
  case expired =>
    intro s on_ mode over_ fresh
    refine next_inDom on_ ((if_neg (not_not_intro mode)).trans ((if_pos over_).trans ((if_neg ?_).trans (if_pos ?_))))
    · simp [mode, modeHoldover, fresh]
    · rw [State.holdOver_holdPublish, over_]
  case limits =>
    intro s
    show (decide _ || decide _) = true ↔ _
    rw [Bool.or_eq_true, decide_eq_true_iff, decide_eq_true_iff]
    rfl
  case model => exact fun s kind => if_pos kind
  case constant => exact fun s kind => if_neg (by simp [kind])
  case transfer =>
    rintro s _ on_ sixteen mode far rfl
    refine next_inDom_when on_ (by simpa using sixteen) ((if_neg ?_).trans (if_pos far))
    simp only [not_or, not_not]
    exact ⟨by omega, by simpa [State.dacMode] using mode⟩
  case up =>
    rintro s _ below rfl
    exact State.dacStep_up below
  case top =>
    intro s full
    exact if_pos (.inr (by simp [full]))
  case code =>
    intro r v s reach changes mode
    refine next_writeTo reach ((if_neg changes).trans (if_neg ?_))
    rintro ⟨notSurvey, notService⟩
    rcases mode with h | h
    · exact notSurvey h
    · exact notService h
  case codeRefused =>
    intro r v s reach changes notSurvey notService
    exact next_writeTo reach ((if_neg changes).trans (if_pos ⟨notSurvey, notService⟩))
  case within => exact fun s w high low => State.putWord_within high low
  case above => exact fun s w high => State.putWord_above high

/-! ## Triggers -/

/-- Distance of a tap's delay from the remainder (R178). -/
def tapOff (out rem : Nat) (temp : Int) (t : Nat) : Int := (Config.tapDelay out temp t * 8192 : Nat) - (rem * 100 : Nat)

/-- The search over the taps below `m` keeps a nearest one, and the lowest of them. -/
def TapBest (out rem : Nat) (temp : Int) (m : Nat) (b : Nat × Int) : Prop :=
  b.1 < m ∧ b.2 = tapOff out rem temp b.1 ∧ ∀ t, t < m → b.2.natAbs ≤ (tapOff out rem temp t).natAbs ∧
    (t < b.1 → b.2.natAbs < (tapOff out rem temp t).natAbs)

theorem tapBest_foldl (out rem : Nat) (temp : Int) (m : Nat) : TapBest out rem temp (m + 1)
    ((List.range (m + 1)).foldl (fun b t => if t = 0 ∨ (tapOff out rem temp t).natAbs < b.2.natAbs then
      (t, tapOff out rem temp t) else b) (0, 0)) := by
  induction m with
  | zero =>
    refine ⟨by simp, by simp, ?_⟩
    intro t small
    obtain rfl : t = 0 := by omega
    simp
  | succ m ih =>
    rw [List.range_succ, List.foldl_append]
    obtain ⟨within, off, best⟩ := ih
    generalize (List.range (m + 1)).foldl _ _ = b at within off best ⊢
    rcases Decidable.em ((tapOff out rem temp (m + 1)).natAbs < b.2.natAbs) with nearer | farther
    · simp only [List.foldl_cons, List.foldl_nil, if_pos (Or.inr nearer)]
      refine ⟨by simp, rfl, fun t small => ?_⟩
      rcases Nat.lt_or_ge t (m + 1) with old | new
      · have := (best t old).1
        exact ⟨by dsimp only; omega, fun _ => by dsimp only; omega⟩
      · obtain rfl : t = m + 1 := by omega
        exact ⟨le_refl _, fun h => absurd h (lt_irrefl _)⟩
    · have keep : ¬ (m + 1 = 0 ∨ (tapOff out rem temp (m + 1)).natAbs < b.2.natAbs) := by simp [farther]
      simp only [List.foldl_cons, List.foldl_nil, if_neg keep]
      refine ⟨Nat.lt_succ_of_lt within, off, fun t small => ?_⟩
      rcases Nat.lt_or_ge t (m + 1) with old | new
      · exact best t old
      · obtain rfl : t = m + 1 := by omega
        exact ⟨by omega, fun h => by omega⟩

theorem tapFor_best (out rem : Nat) (temp : Int) : TapBest out rem temp 256 (tapFor out temp rem) := tapBest_foldl out rem temp 255

/-! ## Captures -/

@[simp] theorem State.cap_setCap (s : State) (k : Nat) (l : List CapRec) : (s.setCap k l).cap k = l := Assoc.get_set_same ..

theorem State.capPush_full {k : Nat} {rec : CapRec} (full : 64 ≤ (s.cap k).length) :
    s.capPush k rec = (s.count (.sel .ECAP_CNT_OVERRUN) k).raise .ECAP_OVERRUN (locEcap k) := if_pos full

theorem State.capPush_waiting {k : Nat} {rec : CapRec} (room : (s.cap k).length < 64) (waits : s.capsAny = true) :
    s.capPush k rec = (s.setCap k (s.cap k ++ [rec])).wr (.sel .ECAP_FILL_LEVEL) k ((s.cap k).length + 1) :=
  (if_neg (Nat.not_le.mpr room)).trans (if_pos waits)

/-- A record that enters a FIFO leaves the pairing mode as it is. -/
theorem State.rd_capPush_mode (s : State) (k i : Nat) (rec : CapRec) :
    (s.capPush k rec).rd (.sel .ECAP_CFG_IV_MODE) i = s.rd (.sel .ECAP_CFG_IV_MODE) i := by
  unfold State.capPush
  dsimp only
  split
  · simp [State.count]
  · split <;> simp

/-- A read of a FIFO that is reached. -/
theorem next_captureFifoRead {r : Req} {k : Fin 8} (reach : Reaches s r .ECAP k) :
    exec (.captureFifoRead r k) s = .next ((s.capRead r k).1.ok (s.capRead r k).2) := by
  show Host.Outcome.next (match s.access r .ECAP k with
    | some s' => s'
    | none => let (s', v) := s.capRead r k; s'.ok v) = _
  rw [show s.access r .ECAP k = none from reach]

/-- Settles O15: triggers, the time of day, captures and intervals. -/
theorem triggersAndCapturesComplete : Obligations.TriggersAndCapturesComplete := by
  unfold Obligations.TriggersAndCapturesComplete
  refine ⟨?arm, ?missed, ?disarm, ?fire, ?done, ?tap, ?tod, ?overrun, ?unselected, ?dead, ?accepted, ?full, ?enters, ?read,
    ?empty, ?opens, ?restart, ?closes, ?timeout⟩
  case arm =>
    rintro r k s _ reach trig enabled rfl late kind
    refine next_writeTo reach ((if_neg (not_not_intro trig)).trans ((if_neg ?_).trans ?_))
    · simp only [not_or, Nat.not_lt, not_not]
      exact ⟨late, enabled, fun h => kind h.1⟩
    · dsimp only
      rw [if_neg kind]
  case missed =>
    intro r k s reach trig bad
    refine next_writeTo reach ((if_neg (not_not_intro trig)).trans (if_pos ?_))
    simpa using bad
  case disarm =>
    intro r k s reach waits
    exact next_writeTo reach (if_pos (by simp [waits]))
  case fire =>
    rintro k s _ on_ waits rfl
    exact next_inDom on_ (if_neg (not_not_intro waits))
  case done =>
    rintro k s _ on_ runs kind count rfl open_
    refine next_inDom on_ ((if_neg (by simp [runs, kind, count])).trans ?_)
    dsimp only
    rw [if_neg (by rw [open_]; decide)]
  case tap =>
    intro out rem temp t small
    obtain ⟨-, off, best⟩ := tapFor_best out rem temp
    have here := best t small
    rw [off] at here
    exact here
  case tod =>
    rintro s _ _ _ _ on_ enabled rfl drives rfl rfl rfl
    exact next_inDom on_ (if_neg (by simp [enabled, drives]))
  case overrun => exact fun s start baud done n late => if_neg (by simp [late])
  case unselected =>
    intro k rise ofs s on_ idle
    refine next_inDom on_ (if_pos ?_)
    simpa using idle
  case dead =>
    intro k ofs s on_ enabled edge last near
    exact next_inDom on_ ((if_neg (by simp [enabled, edge])).trans (if_pos ⟨last, near⟩))
  case accepted =>
    intro k ofs s on_ enabled edge first mode fine lock
    refine next_inDom on_ ((if_neg (by simp [enabled, edge])).trans ((if_neg (by simp [first])).trans ?_))
    have gen : (s.setH .ecapLast k (s.age * 160 + ofs.val + 1)).capGen k = s.capGen k := by simp [State.capGen]
    dsimp only
    rw [State.rd_capPush_mode, if_pos (by simpa using mode), gen]
    simp [fine, lock, bit, State.nowV, State.rdS]
  case full => exact fun k rec s full => State.capPush_full full
  case enters => exact fun k rec s room waits => State.capPush_waiting room waits
  case read =>
    intro r k e t s reach holds
    rw [next_captureFifoRead reach]
    simp [State.capRead, holds]
  case empty =>
    intro r k s reach holds
    rw [next_captureFifoRead reach]
    simp [State.capRead, holds]
  case opens =>
    intro e v fl s closed
    simp [State.ivEdge, closed]
  case restart =>
    intro e mode side v fl s open_
    simp [State.ivEdge, open_]
  case closes =>
    intro e v s open_ far clean
    simp [State.ivEdge, open_, clean, Nat.not_lt.mpr far, bit]
  case timeout =>
    rintro j s _ on_ open_ rfl
    exact next_inDom on_ (if_neg open_)

end Sys2Proof.Machine

/-! The way out of a frame (R190-R197, R239), the peer-delay responder (R209, R210) and the observers (R211-R214). -/

namespace Sys2Proof.Machine

variable {s : State} {p : Nat}

/-! ## The scheduler -/

theorem State.select_own {t : Tx} {rest : List Tx} {ue : Option (Fin 64 × BitVec 16)} (up : s.pstate p = pUP)
    (idle : s.txOf p = none) (waits : s.ctlOf p = t :: rest) : s.select p ue = (s.setCtl p rest).setTx p (some t) := by
  refine (if_neg (by simp [up, idle])).trans ?_
  simp only [waits]

theorem State.select_queue {t : Nat} (up : s.pstate p = pUP) (idle : s.txOf p = none) (empty : s.ctlOf p = [])
    (pick : (s.heldMark p).schedPick p = (some t, s.heldMark p)) : s.select p none = (s.heldMark p).selectFrom p t none := by
  refine (if_neg (by simp [up, idle])).trans ?_
  simp only [empty, pick]

/-- The first element of a list in falling order that satisfies a test. -/
theorem find_reverse_range {f : Nat → Bool} {t : Nat} : ∀ n, t < n → f t = true → (∀ q, t < q → q < n → f q = false) →
    ((List.range n).reverse).find? f = some t := by
  intro n
  induction n with
  | zero => intro h; omega
  | succ n ih =>
    intro small hit above
    rw [List.range_succ, List.reverse_append]
    rcases Nat.lt_or_ge t n with lower | top
    · have miss : f n = false := above n lower (Nat.lt_succ_self n)
      simp only [List.reverse_singleton, List.singleton_append, List.find?_cons, miss]
      exact ih lower hit fun q h k => above q h (Nat.lt_succ_of_lt k)
    · obtain rfl : t = n := by omega
      simp [hit]

/-- The highest eligible queue with strict priority is chosen. -/
theorem State.schedPick_strict {t : Nat} (small : t < 8) (eligible : s.eligible p t = true)
    (strict : s.on (.core .QUEUE_SP) (8 * p + t) = true)
    (above : ∀ q, t < q → q < 8 → s.eligible p q = true → s.on (.core .QUEUE_SP) (8 * p + q) = false) :
    s.schedPick p = (some t, s) := by
  have found : (((List.range 8).filter (fun t => s.eligible p t)).reverse).find? (fun t => s.on (.core .QUEUE_SP) (8 * p + t)) =
      some t := by
    rw [← List.filter_reverse, List.find?_filter]
    refine find_reverse_range 8 small (by simp [eligible, strict]) fun q h k => ?_
    rcases Bool.eq_false_or_eq_true (s.eligible p q) with e | e
    · simp [above q h k e]
    · simp [e]
  unfold State.schedPick
  simp only [found]

theorem State.schedPick_none (none_ : ∀ t, t < 8 → s.eligible p t = false) : s.schedPick p = (none, s) := by
  have empty : (List.range 8).filter (fun t => s.eligible p t) = [] :=
    List.filter_eq_nil_iff.mpr fun t h => by simp [none_ t (List.mem_range.mp h)]
  unfold State.schedPick
  simp only [empty]
  rfl

/-! ## Departure -/

section Depart
variable {x : StampOut} {t : Tx}

theorem State.depart_fixed (sends : s.txOf p = some t) (gone : t.departed = true) : s.depart p x = s := by
  unfold State.depart
  rw [sends]
  exact if_pos gone

/-- A frame whose descriptor asks for no action at departure. -/
theorem State.depart_plain (sends : s.txOf p = some t) (waits : t.departed = false) (user : t.own = 0)
    (plain : sdAct (mdSTAMP.get t.desc.md) ≤ 1) : s.depart p x = s.setTx p (some { t with
      dep := s.txStamp p x, departed := true, void := s.laneVoid (s.stampLane p x.lane), caution := s.caution,
      gen := s.stampGen, cyc := s.cyc16 }) := by
  unfold State.depart
  rw [sends]
  simp [waits, user, plain]

/-- A frame whose action would carry a VOID time. -/
theorem State.depart_void (sends : s.txOf p = some t) (waits : t.departed = false) (user : t.own = 0)
    (enabled : s.on (.stamp .CTL_EN) 0 = true) (acts : 2 ≤ sdAct (mdSTAMP.get t.desc.md))
    (void : s.laneVoid (s.stampLane p x.lane) = true) : s.depart p x = (((s.setTx p (some { t with
      dep := s.txStamp p x, departed := true, void := true, caution := s.caution, gen := s.stampGen, cyc := s.cyc16,
      stomped := true })).count (.stamp .SPORT_CNT_VOID_STOMP) p).raiseP .STAMP_STOMP p) := by
  have cause : ∀ (t : Tx) (l : List Byte), s.stampErr p t l true = some .voidTime := by
    intro t l
    unfold State.stampErr
    exact if_pos (Or.inl rfl)
  have act : ¬ (¬ s.on (.stamp .CTL_EN) 0 = true ∨ sdAct (mdSTAMP.get t.desc.md) ≤ 1) := by
    rintro (off | plain)
    · exact off enabled
    · omega
  unfold State.depart
  rw [sends]
  simp [waits, user, void, cause, enabled, Nat.not_le.mpr acts, StampErr.cnt]

/-- Dividing a multiple gives the factor back. -/
theorem divRound_mul (a : Int) {b : Nat} (positive : 0 < b) : divRound (a * b) b = a := by
  unfold divRound
  have twice : 2 * (a * b) + b = b + a * (2 * b : Int) := by ring
  rw [twice, Int.add_mul_ediv_right _ _ (by omega), Int.ediv_eq_zero_of_lt (by omega) (by omega), Int.zero_add]

theorem toS_zero (w : Nat) : toS w 0 = 0 := by
  simp [toS]

end Depart

/-! ## The end of a transmission -/

theorem State.txEnd_waits {t : Tx} (sends : s.txOf p = some t) (waits : t.departed = false) : s.txEnd p = s := by
  unfold State.txEnd
  rw [sends]
  exact if_pos (.inl (by simp [waits]))

theorem State.txEnd_user {t : Tx} (sends : s.txOf p = some t) (gone : t.departed = true)
    (whole : t.desc.ct = false ∨ t.desc.done = true ∨ t.stomped = true) (user : t.own = 0) :
    s.txEnd p = (((s.txRecord p t).txStats p t).setTx p none).drop1 t.desc.handle := by
  have ends : ¬ (¬ t.departed = true ∨ (t.desc.ct = true ∧ ¬ t.desc.done = true ∧ ¬ t.stomped = true)) := by
    rcases whole with h | h | h <;> simp [gone, h]
  unfold State.txEnd
  rw [sends]
  exact (if_neg ends).trans (if_pos user)

/-- Settles O17: the choice of a frame, its departure and its end. -/
theorem transmissionCompletes : Obligations.TransmissionCompletes := by
  unfold Obligations.TransmissionCompletes
  refine ⟨?own, ?queue, ?busy, ?strict, ?none_, ?fixed, ?plain, ?void, ?turnaround, ?residence, ?ends, ?waits, ?record⟩
  case own => exact fun p ue s t rest up state idle waits => next_inUnit up (State.select_own state idle waits)
  case queue => exact fun p s t up state idle empty pick => next_inUnit up (State.select_queue state idle empty pick)
  case busy => exact fun p ue s up busy => next_inUnit up (if_pos busy)
  case strict => exact fun p t s small eligible strict above => State.schedPick_strict small eligible strict above
  case none_ => exact fun p s none_ => State.schedPick_none none_
  case fixed => exact fun p x s t up sends gone => next_inUnit up (State.depart_fixed sends gone)
  case plain => exact fun p x s t up sends waits user plain => next_inUnit up (State.depart_plain sends waits user plain)
  case void =>
    exact fun p x s t up sends waits user enabled acts void =>
      next_inUnit up (State.depart_void sends waits user enabled acts void)
  case turnaround =>
    intro p md d s act plane
    simp [State.cfAdd, act, plane, State.planeTx]
  case residence =>
    intro p md d s act plane link rate
    have exact_ := divRound_mul ((d : Int) - u96 (mdARR.get md)) (b := 2199023255552) (by decide)
    simp [State.cfAdd, act, plane, link, State.planeTx, State.planeRx, State.rdS, rate, toS_zero]
    exact_mod_cast exact_
  case ends => exact fun p s t up sends gone whole user => next_inUnit up (State.txEnd_user sends gone whole user)
  case waits => exact fun p s t up sends waits => next_inUnit up (State.txEnd_waits sends waits)
  case record => exact fun p t s other => if_pos other

/-! ## The peer-delay responder -/

theorem State.pdrRespond_of_holds {r : Rx} (holds : s.rxOf (72 + p) = some r) : s.pdrRespond p =
    (let w := s.setRx (72 + p) none
     let sd := mdSTAMP.get r.md
     let h := octetsAt (fcsBody r.octets) (sdHdr sd) 34
     if s.rd (.stamp .SPORT_CFG_PDR_MODE) p = 0 ∨ ¬ s.pdrMatch p sd h then w.count (.stamp .SPORT_PDR_DROP) p
     else if ¬ s.dlyOk p then w.count (.stamp .SPORT_CNT2_NOROLE) p
     else
       let a := u96 (mdARR.get r.md) - s.fibreRx p
       let cf := toS 64 (fieldAt h 8 8)
       if s.rd (.stamp .SPORT_CFG_PDR_MODE) p = 1 then
         w.pdrPut p (s.pdrFrame p (frameDa r.octets) h 3 0 cf (List.replicate 10 0)) (4 + 8 + 14 * 1024) (of96 a)
       else
         let v := w.pdrPut p (s.pdrFrame p (frameDa r.octets) h 3 0x0200 (a % 65536 : Nat) (ptpTs a)) (14 * 1024) 0
         ((((v.setH .pdrFu p 1).setH .pdrFuData p (beNat h)).setHS .pdrFuCf p cf).setH .pdrFuDep p 0).setH .pdrDa p
           (frameDa r.octets)) := by
  unfold State.pdrRespond
  rw [holds]
  rfl

/-- Settles O18: the responder's answers. -/
theorem peerDelayResponderCompletes : Obligations.PeerDelayResponderCompletes := by
  unfold Obligations.PeerDelayResponderCompletes
  refine ⟨?dropped, ?noRole, ?answer, ?follow, ?nothing, ?waits⟩
  case dropped =>
    intro p s r up holds off
    exact next_inUnit up ((State.pdrRespond_of_holds holds).trans (if_pos (.inl off)))
  case noRole =>
    intro p s r up holds mode invalid match_
    exact next_inUnit up ((State.pdrRespond_of_holds holds).trans ((if_neg (by simp [mode, match_])).trans
      (if_pos (by simp [invalid]))))
  case answer =>
    rintro p s r _ _ up holds mode valid rfl match_ rfl
    exact next_inUnit up ((State.pdrRespond_of_holds holds).trans ((if_neg (by simp [mode, match_])).trans
      ((if_neg (by simp [valid])).trans (if_pos mode))))
  case follow =>
    intro p s up owed left
    exact next_inUnit up (if_neg (by simp [owed, left]))
  case nothing => exact fun p s up none_ => next_inUnit up (if_pos none_)
  case waits =>
    intro p octets sd ref s
    refine ⟨by simp [State.pdrPut], fun q other => ?_, fun f i => by simp [State.pdrPut]⟩
    exact State.ctlOf_setCtl_other _ _ other

/-! ## Observers -/

@[simp] theorem State.obsOf_setObs (s : State) (o : Nat) (x : ObsState) : (s.setObs o x).obsOf o = x := Assoc.get_set_same ..

/-- An exchange that no cause of R213 spoils. -/
theorem State.obsExch_good {o : Nat} {ofs mpd t2 : Int} (valid : s.dlyOk (s.rd (.stamp .OBS_CFG_PORT) o) = true) :
    s.obsExch o false ofs mpd t2 = (s.count (.stamp .OBS_CNT_EXCH) o).setObs o { s.obsOf o with
      exch := (s.obsOf o).exch ++ [(ofs, mpd, t2.toNat)] } := if_neg (by simp [valid])

/-- The exchange of a Delay_Resp with a Sync and a request that are both good. -/
theorem State.obsE2E_good {o : Nat} {req : ObsReq} {t4 : Int} {x : ObsSync}
    (found : (s.obsOf o).syncs.find? (fun y => y.whole && decide (y.t2 < req.t3)) = some x) (sync : x.bad = false)
    (request : req.bad = false) (near : req.t3 - x.t2 ≤ 1000000000 * 65536) : s.obsE2E o req t4 =
    s.obsExch o false (divRound (x.t2 - x.t1 - (t4 - req.t3)) 2 - s.asym (s.rd (.stamp .OBS_CFG_PORT) o))
      (divRound (x.t2 - x.t1 + (t4 - req.t3)) 2) x.t2 := by
  unfold State.obsE2E
  simp only [found, sync, request, decide_eq_false (Int.not_lt.mpr near), Bool.or_self]

/-- Settles O19: what an observer takes, its exchanges, its silence and its configuration. -/
theorem observersComplete : Obligations.ObserversComplete := by
  unfold Obligations.ObserversComplete
  refine ⟨?taken, ?other, ?request, ?exchange, ?discarded, ?stale, ?parent, ?config, ?clear⟩
  case taken => exact fun o h m s up takes => next_inUnit_when up takes rfl
  case other =>
    intro o h m s up other
    refine next_inUnit_idle up ?_
    rcases other with port | domain | off
    · simp [State.obsTakes, port]
    · simp [State.obsTakes, domain]
    · simp [State.obsTakes, off]
  case request => exact fun o h x s => rfl
  case exchange =>
    intro o req t4 x s found sync request near valid
    refine ⟨_, rfl, ?_⟩
    rw [State.obsE2E_good found sync request near, State.obsExch_good valid]
    exact ⟨by simp, Frame.count _ _ _ (by simp) Frame.refl⟩
  case discarded => exact fun o ofs mpd t2 s => if_pos (.inl rfl)
  case stale =>
    intro o t s up enabled on_ due
    refine next_inUnit_when up (by simp [enabled, on_]) ?_
    unfold State.obsStale
    rw [due]
    simp
  case parent => exact fun r o v s reach => next_writeTo reach rfl
  case config =>
    intro r o w s reach listed
    refine next_writeTo reach ?_
    show (State.obsCfg _ _ _) = _
    unfold State.obsCfg
    dsimp only
    rw [if_pos listed]
  case clear =>
    intro o s
    refine ⟨?_, by simp [State.obsClear]⟩
    show ((s.setObs o {}).obsOf o) = {}
    exact State.obsOf_setObs ..

end Sys2Proof.Machine

/-! Gates and schedules (R240-R242), pauses and their watchdog (R247-R249), and the states of a port (R250-R252). -/

namespace Sys2Proof.Machine

variable {s : State} {p : Nat}

/-! ## Gates -/

/-- What a fold of writes of one field leaves in the register `k` of it. -/
theorem State.rd_foldl_wr (f : Fld) (v : Nat → Nat) (base k : Nat) (s : State) : ∀ n, (((List.range n).foldl (fun x t =>
    x.wr f (base + t) (v t)) s).rd f (base + k)) = if k < n then trunc f.desc.width (v k) else s.rd f (base + k) := by
  intro n
  induction n with
  | zero => simp
  | succ n ih =>
    rw [List.range_succ, List.foldl_append, List.foldl_cons, List.foldl_nil, State.rd_wr, ih]
    rcases Nat.lt_trichotomy k n with h | h | h
    · rw [if_neg (by omega), if_pos h, if_pos (by omega)]
    · rw [if_pos ⟨rfl, by omega⟩, if_pos (by omega), h]
    · rw [if_neg (by omega), if_neg (by omega), if_neg (by omega)]

/-- The gate states that are published are those the queues have. -/
theorem State.gateOpen_gatePut {t : Nat} (s : State) (p k g : Nat) (small : t < 8) : (s.gatePut p k g).gateOpen p t = bit t g := by
  have width : (Fld.core .QUEUE_GATE_OPEN).desc.width = 1 := rfl
  have value := State.rd_foldl_wr (.core .QUEUE_GATE_OPEN) (fun t => (bit t g).toNat) (8 * p) t
    ((s.wr (.core .GATE_NOW_ENTRY) p k).wr (.core .GATE_NOW_GATES) p g) 8
  rw [if_pos small, width] at value
  show ((State.gatePut s p k g).rd (.core .QUEUE_GATE_OPEN) (8 * p + t) == 1) = bit t g
  unfold State.gatePut
  rw [value]
  cases bit t g <;> rfl

theorem State.gateSync_off (off : s.on (.core .GATE_OPER_EN) p = false) : s.gateSync p = s.gatePut p 0 0xFF :=
  if_pos (by simp [State.gatesOn, off])

theorem State.gateSync_on (on_ : s.on (.core .GATE_OPER_EN) p = true) : s.gateSync p =
    s.gatePut p (s.gateEntry p (s.nowU + s.gateLead p * 65536)).1
      (s.operGates p (s.gateEntry p (s.nowU + s.gateLead p * 65536)).1) :=
  if_neg (by simp [State.gatesOn, on_])

/-- The first multiple of a cycle at or after a distance. -/
theorem ceil_bounds {d c : Nat} (positive : 0 < c) : d ≤ (d + c - 1) / c * c ∧ (d + c - 1) / c * c < d + c := by
  have split_ := Nat.div_add_mod (d + c - 1) c
  have rest := Nat.mod_lt (d + c - 1) positive
  rw [Nat.mul_comm] at split_
  omega

/-- A new admin list starts with the first cycle at or after T. -/
theorem State.gateCommit_start (t b c : Nat) (base : b = u96 (s.rdA (.core .GATE_BASE) p))
    (cycle : c = s.rdA (.core .GATE_CYCLE) p * 65536) (positive : 0 < c) : ∃ n, (s.gateCommit p t).h .gateAt p = b + n * c ∧
    (b ≤ t → t ≤ b + n * c) ∧ (0 < n → b + n * c < t + c) ∧ (s.gateCommit p t).rd (.core .GATE_PEND) p = 1 := by
  have width : (Fld.core .GATE_PEND).desc.width = 1 := rfl
  refine ⟨if t ≤ b ∨ c = 0 then 0 else (t - b + c - 1) / c, ?_, ?_, ?_, ?_⟩
  · subst base cycle
    simp [State.gateCommit]
  · intro after
    obtain ⟨reach, -⟩ := ceil_bounds (d := t - b) positive
    split <;> omega
  · intro later
    obtain ⟨-, near⟩ := ceil_bounds (d := t - b) positive
    rcases Decidable.em (t ≤ b ∨ c = 0) with early | late
    · rw [if_pos early] at later
      omega
    · rw [if_neg late]
      omega
  · simp [State.gateCommit, width, trunc]

/-! ## Pauses -/

/-- Counting a PAUSE or PFC frame changes neither the mode nor the settings of flow control. -/
theorem State.rd_pauseCount (f : PortF) (i : Nat) (apart : f ≠ .STAT_CTL_RX ∧ f ≠ .STAT_PAUSE_RX) :
    (s.pauseCount p).rd (.port f) i = s.rd (.port f) i := by
  simp [State.pauseCount, State.bump, apart]

theorem State.rd_foldl_pfcCount (f : PortF) (i : Nat) (apart : f ≠ .PFC_RX) (l : List Nat) : ∀ s : State,
    (l.foldl (fun x j => x.bump (.port .PFC_RX) (8 * p + j)) s).rd (.port f) i = s.rd (.port f) i := by
  induction l with
  | nil => exact fun _ => rfl
  | cons j l ih => exact fun s => (ih _).trans (by simp [State.bump, apart])

/-- A PFC frame in PFC mode acts on the classes it names and the port takes. -/
theorem State.pfcRx_taken {en times : Nat} (mode : s.rd (.port .CTL_FC_MODE) p = 2) : s.pfcRx p en times =
    (bitsOf 8 (en &&& s.rd (.port .FC_RX_PFC_EN) p)).foldl (fun x i =>
      x.pauseSet p i (pfcTime times i) (queuesOf p (bits (8 * i) 8 (x.rd (.port .PFC_MAP) p))))
      ((bitsOf 8 en).foldl (fun x i => x.bump (.port .PFC_RX) (8 * p + i)) (s.pauseCount p)) := by
  have keeps : ∀ f : PortF, f ≠ .PFC_RX → f ≠ .STAT_CTL_RX → f ≠ .STAT_PAUSE_RX →
      ((bitsOf 8 en).foldl (fun x i => x.bump (.port .PFC_RX) (8 * p + i)) (s.pauseCount p)).rd (.port f) p =
        s.rd (.port f) p :=
    fun f h k l => (State.rd_foldl_pfcCount f p h _ _).trans (State.rd_pauseCount f p ⟨k, l⟩)
  unfold State.pfcRx
  dsimp only
  rw [keeps .CTL_FC_MODE (by decide) (by decide) (by decide), if_neg (not_not_intro mode),
    keeps .FC_RX_PFC_EN (by decide) (by decide) (by decide)]

/-- One queue that is not held takes the new time. -/
theorem State.pauseSet_one {c q quanta : Nat} (free : s.inHold q = false) : s.pauseSet p c quanta [q] =
    (s.setH .pauseEnd (9 * q + c) (if quanta = 0 then 0 else
      s.age + uTicks (bitsU (s.rate p) (512 * quanta)) + 1)).pauseSync q := by
  simp [State.pauseSet, free]

theorem State.paused_pauseSync (s : State) (q : Nat) : (s.pauseSync q).paused q = s.pauseRuns q := by
  have width : (Fld.core .QUEUE_PAUSED).desc.width = 1 := rfl
  cases on_ : s.pauseRuns q <;> simp [State.pauseSync, State.paused, State.on, on_, width, trunc]

/-- Settles O21: gates, their lists, received and sent pauses, the watchdog. -/
theorem gatesAndPausesComplete : Obligations.GatesAndPausesComplete := by
  unfold Obligations.GatesAndPausesComplete
  refine ⟨?ungated, ?allOpen, ?edge, ?state, ?swap, ?noSwap, ?commit, ?pause, ?ignored, ?pfcIgnored, ?pfc, ?one, ?paused,
    ?expiry, ?xoff, ?xon, ?silent, ?storm, ?calm, ?hold⟩
  case ungated => exact fun p s up off => next_inUnit up (if_pos (by simp [State.gatesOn, off]))
  case allOpen =>
    intro p s off t small
    rw [State.gateSync_off off, State.gateOpen_gatePut _ _ _ _ small]
    exact (show ∀ t, t < 8 → bit t 0xFF = true by decide) t small
  case edge =>
    rintro p s _ up on_ rfl
    exact next_inUnit up (if_neg (by simp [State.gatesOn, on_]))
  case state =>
    intro p s on_ t small
    rw [State.gateSync_on on_, State.gateOpen_gatePut _ _ _ _ small]
  case swap =>
    rintro p s _ up waits rfl
    exact next_inUnit up (if_neg (not_not_intro waits))
  case noSwap => exact fun p s up none_ => next_inUnit up (if_pos (by simp [none_]))
  case commit => exact fun p t b c s base cycle positive => State.gateCommit_start t b c base cycle positive
  case pause =>
    intro p quanta s up mode takes
    refine next_inUnit up ((if_neg ?_).trans (if_neg ?_))
    · rw [State.rd_pauseCount _ _ (by decide)]
      exact not_not_intro mode
    · unfold State.on
      rw [State.rd_pauseCount _ _ (by decide)]
      exact not_not_intro takes
  case ignored =>
    intro p quanta s up mode
    refine next_inUnit up (if_pos ?_)
    rw [State.rd_pauseCount _ _ (by decide)]
    exact mode
  case pfcIgnored =>
    intro p times s up mode
    refine next_inUnit up (if_pos ?_)
    show ((s.pauseCount p).rd (.port .CTL_FC_MODE) p) ≠ 2
    rw [State.rd_pauseCount _ _ (by decide)]
    exact mode
  case pfc => exact fun p en times s up mode => next_inUnit up (State.pfcRx_taken mode)
  case one => exact fun p c q quanta s free => State.pauseSet_one free
  case paused => exact fun q s => State.paused_pauseSync s q
  case expiry =>
    rintro p c s _ up rfl
    exact next_inUnit up rfl
  case xoff =>
    intro p c s up sends first
    exact next_inUnit up ((if_neg (not_not_intro sends)).trans (if_pos first))
  case xon =>
    intro p c s up sends off low
    exact next_inUnit up ((if_neg (not_not_intro sends)).trans ((if_neg off).trans (if_pos low)))
  case silent => exact fun p c s up silent => next_inUnit up (if_pos (by simp [silent]))
  case storm => exact fun p t s up paused limit => next_inUnit_when up (by simp [paused, limit]) rfl
  case calm =>
    intro p t s up calm
    refine next_inUnit_idle up ?_
    rcases calm with h | h <;> simp [h]
  case hold =>
    rintro p t s _ up held rfl
    exact next_inUnit up (if_neg (not_not_intro held))

/-! ## Port states -/

/-- What a link start writes on one lane of the port. -/
def State.laneRise (m p : Nat) (s : State) (n : Nat) : State :=
  let s := ((s.wr (.lane .STATUS_BLOCK_LOCK) n 1).wr (.lane .STATUS_SIG_DET) n 1).wr (.lane .STATUS_AM_LOCK) n
    (if hasMarkers m (s.rd (.lane .CTL_FEC) p) then 1 else 0)
  let s := s.wr (.lane .STATUS_FEC_LOCK) n (if s.rd (.lane .CTL_FEC) p = 0 then 0 else 1)
  let s := if s.on (.lane .CTL_MEDIUM) p then s.wr (.lane .STATUS_LT_DONE) n 1 else s
  let s := (s.setH .txWord n (s.freeVal 6)).nextFree
  (s.setH .txGbx n (s.freeVal 5)).nextFree

/-- A link start on the lanes leaves the port's registers, its timers and the clock as they are. -/
structure RiseKeeps (s t : State) : Prop where
  rd : ∀ (f : PortF) (i : Nat), t.rd (.port f) i = s.rd (.port f) i
  h : ∀ (x : Hid) (i : Nat), x ≠ .txWord → x ≠ .txGbx → t.h x i = s.h x i
  age : t.age = s.age

theorem State.riseKeeps_laneRise (m p n : Nat) (s : State) : RiseKeeps s (s.laneRise m p n) := by
  by_cases medium : s.on (.lane .CTL_MEDIUM) p = true
  · refine ⟨fun f i => ?_, fun x i word slot => ?_, ?_⟩
    · simp [State.laneRise, medium]
    · simp [State.laneRise, medium, State.h_setH, word, slot]
    · simp [State.laneRise, medium]
  · refine ⟨fun f i => ?_, fun x i word slot => ?_, ?_⟩
    · simp [State.laneRise, medium]
    · simp [State.laneRise, medium, State.h_setH, word, slot]
    · simp [State.laneRise, medium]

theorem State.riseKeeps_foldl (m p : Nat) (l : List Nat) : ∀ s : State, RiseKeeps s (l.foldl (State.laneRise m p) s) := by
  induction l with
  | nil => exact fun s => ⟨fun _ _ => rfl, fun _ _ _ _ => rfl, rfl⟩
  | cons n l ih =>
    intro s
    have first := State.riseKeeps_laneRise m p n s
    have rest := ih (s.laneRise m p n)
    exact ⟨fun f i => (rest.rd f i).trans (first.rd f i),
      fun x i word slot => (rest.h x i word slot).trans (first.h x i word slot), rest.age.trans first.age⟩

/-- The link's start after its lanes: LINK_UP, and the port's row of Table 7.4. -/
theorem State.linkRise_eq (s : State) (p : Nat) : s.linkRise p =
    (let v := (s.portLanes p).foldl (State.laneRise (s.rd (.lane .STATUS_EFF_MODE) p) p) s
     let w := (v.wr (.lane .STATUS_LINK_UP) p 1).setH .linkGap p (v.age - v.h .linkDownAt p)
     if w.pstate p = pDOWN then (w.wr (.port .STATUS_PSTATE) p pHOLDOFF).holdStart p
     else if w.pstate p = pDRAINING then w.holdStart p
     else w) := rfl

/-- What the start of a link leaves. -/
theorem State.linkRise_effect (s : State) (p : Nat) : (s.linkRise p).rd (.lane .STATUS_LINK_UP) p = 1 ∧
    (s.linkRise p).h .linkGap p = s.age - s.h .linkDownAt p ∧ (s.pstate p = pDOWN → (s.linkRise p).pstate p = pHOLDOFF) ∧
    (s.pstate p ≠ pDOWN → (s.linkRise p).pstate p = s.pstate p) ∧
    ((s.pstate p = pDOWN ∨ s.pstate p = pDRAINING) → (s.linkRise p).h .holdRun p = 1 ∧ (s.linkRise p).h .holdDone p = 0 ∧
      (s.linkRise p).h .holdAt p = s.age + msTicks (s.rd (.port .CTL_HOLDOFF) p)) := by
  have link : (Fld.lane .STATUS_LINK_UP).desc.width = 1 := rfl
  have width : (Fld.port .STATUS_PSTATE).desc.width = 3 := rfl
  have keeps := State.riseKeeps_foldl (s.rd (.lane .STATUS_EFF_MODE) p) p (s.portLanes p) s
  rw [State.linkRise_eq]
  generalize (s.portLanes p).foldl _ s = v at keeps ⊢
  obtain ⟨rd, h, age⟩ := keeps
  have state : v.rd (.port .STATUS_PSTATE) p = s.pstate p := rd _ _
  have timer := rd .CTL_HOLDOFF p
  have down := h .linkDownAt p (by decide) (by decide)
  dsimp only
  rcases Decidable.em (s.pstate p = pDOWN) with isDown | notDown
  · rw [if_pos (by simpa [State.pstate] using state.trans isDown)]
    simp [State.holdStart, State.pstate, link, width, trunc, down, age, timer, pDOWN, pHOLDOFF] at isDown ⊢
    omega
  · rw [if_neg (by simpa [State.pstate] using state ▸ notDown)]
    rcases Decidable.em (s.pstate p = pDRAINING) with drains | other
    · rw [if_pos (by simpa [State.pstate] using state.trans drains)]
      have same : (((v.wr (.lane .STATUS_LINK_UP) p 1).setH .linkGap p (v.age - v.h .linkDownAt p)).holdStart p).pstate p =
          s.pstate p := by simpa [State.holdStart, State.pstate] using state
      refine ⟨by simp [State.holdStart, link, trunc], by simp [State.holdStart, down, age], fun h => absurd h notDown,
        fun _ => same, fun _ => ?_⟩
      simp [State.holdStart, age, timer]
    · rw [if_neg (by simpa [State.pstate] using state ▸ other)]
      refine ⟨by simp [link, trunc], by simp [down, age], fun h => absurd h notDown, fun _ => by simpa [State.pstate] using state,
        fun h => ?_⟩
      rcases h with h | h
      · exact absurd h notDown
      · exact absurd h other

/-- A mode that does not wait leaves the end of a drain to Table 7.4. -/
theorem State.drainDone_eq (waits : (s.raiseP .PORT_DRAIN_DONE p).h .modeWait p = 0)
    (short : (s.raiseP .PORT_DRAIN_DONE p).on (.port .CTL_EN) p = false ∨ (s.raiseP .PORT_DRAIN_DONE p).linkUp p = false ∨
      (s.raiseP .PORT_DRAIN_DONE p).h .holdDone p ≠ 1) : s.drainDone p =
    (let w := s.raiseP .PORT_DRAIN_DONE p
     if ¬ w.on (.port .CTL_EN) p then (w.wr (.port .STATUS_PSTATE) p pDISABLED).holdStop p
     else if ¬ w.linkUp p then (w.wr (.port .STATUS_PSTATE) p pDOWN).holdStop p
     else w.wr (.port .STATUS_PSTATE) p pHOLDOFF) := by
  unfold State.drainDone
  generalize s.raiseP .PORT_DRAIN_DONE p = w at waits short ⊢
  dsimp only
  split
  · exact if_neg (by simp [State.holdStop, waits])
  · split
    · exact if_neg (by simp [State.holdStop, waits])
    · rename_i enabled link
      have timer : w.h .holdDone p ≠ 1 := by
        rcases short with h | h | h
        · exact absurd h (by simpa using enabled)
        · exact absurd h (by simpa using link)
        · exact h
      rw [if_neg timer]
      exact if_neg (by simp [waits])

/-- Settles O22: the rows of Table 7.4, and the flush. -/
theorem portStatesComplete : Obligations.PortStatesComplete := by
  unfold Obligations.PortStatesComplete
  refine ⟨?down, ?holdoff, ?bad, ?drain, ?off, ?up, ?lost, ?lostHold, ?lostDrain, ?still, ?expires, ?drains, ?idle, ?flush,
    ?turn, ?one, ?done⟩
  case down =>
    intro r p s reach usable state link
    refine next_writeTo reach ((if_pos rfl).trans ((if_neg (by simp [usable])).trans ((if_neg ?_).trans (if_neg ?_))))
    · simpa [State.pstate] using state
    · simpa [State.linkUp] using link
  case holdoff =>
    intro r p s reach usable state link
    refine next_writeTo reach ((if_pos rfl).trans ((if_neg (by simp [usable])).trans ((if_neg ?_).trans (if_pos ?_))))
    · simpa [State.pstate] using state
    · simpa [State.linkUp] using link
  case bad => exact fun r p s reach bad => next_writeTo reach ((if_pos rfl).trans (if_pos bad))
  case drain =>
    intro r p s reach state
    refine next_writeTo reach ((if_neg Bool.false_ne_true).trans (if_pos ?_))
    simpa [State.pstate] using state
  case off =>
    intro r p s reach state
    refine next_writeTo reach ((if_neg Bool.false_ne_true).trans (if_neg ?_))
    rcases state with h | h <;> simp [State.pstate] at h ⊢ <;> simp [h, pUP, pHOLDOFF, pDOWN, pDISABLED, pDRAINING]
  case up =>
    intro p s up can down
    exact ⟨_, next_inUnit_when up (by simp [can, down]) rfl, State.linkRise_effect s p⟩
  case lost =>
    intro p s up link state
    exact next_inUnit_when up link (if_pos (by simpa [State.pstate] using state))
  case lostHold =>
    intro p s up link state
    have state' : (s.wr (.lane .STATUS_LINK_UP) p 0).pstate p = pHOLDOFF := by simpa [State.pstate] using state
    refine next_inUnit_when up link ((if_neg ?_).trans (if_pos state'))
    exact fun h => absurd (state'.symm.trans h) (by decide)
  case lostDrain =>
    intro p s up link state
    have state' : (s.wr (.lane .STATUS_LINK_UP) p 0).pstate p = pDRAINING := by simpa [State.pstate] using state
    refine next_inUnit_when up link ((if_neg ?_).trans ((if_neg ?_).trans (if_pos state')))
    · exact fun h => absurd (state'.symm.trans h) (by decide)
    · exact fun h => absurd (state'.symm.trans h) (by decide)
  case still => exact fun p lock s up down => next_inUnit_idle up down
  case expires =>
    rintro p s _ up runs rfl state
    exact next_inUnit up ((if_neg runs).trans (if_pos state))
  case drains =>
    rintro p s _ up runs rfl state
    refine next_inUnit up ((if_neg runs).trans ((if_neg ?_).trans (if_pos state)))
    exact fun h => absurd (state.symm.trans h) (by decide)
  case idle =>
    intro sl s on_ none_
    refine next_inDom on_ ?_
    rw [none_]
  case flush =>
    intro sl s p on_ turn
    refine next_inDom on_ ?_
    rw [turn]
  case turn =>
    intro sl p s turn
    have found := List.find?_some turn
    simpa using found
  case one =>
    intro p t d q s small head below
    have first : (List.range 8).find? (fun t => !(s.queue (8 * p + t)).isEmpty) = some t := by
      rw [List.find?_range_eq_some]
      refine ⟨by simp [head], List.mem_range.mpr small, fun u lower => by simp [below u lower]⟩
    unfold State.flushOne
    rw [first]
    simp only [head]
  case done =>
    rintro p s _ rfl waits
    refine ⟨fun off => ?_, fun on_ link => ?_, fun on_ link timer => ?_⟩
    · rw [State.drainDone_eq waits (.inl off)]
      exact if_pos (by simp [off])
    · rw [State.drainDone_eq waits (.inr (.inl link))]
      exact (if_neg (by simp [on_])).trans (if_pos (by simp [link]))
    · rw [State.drainDone_eq waits (.inr (.inr timer))]
      exact (if_neg (by simp [on_])).trans (if_neg (by simp [link]))

end Sys2Proof.Machine

/-! The lookup store (R225-R228), the pools (R256-R271) and the Cellar (R261, R272-R277). -/

namespace Sys2Proof.Machine

variable {s : State}

/-! ## The lookup store -/

theorem State.tblWrite0_put {t w : Nat} (off : s.tblKind t = 0) (kind : bits 0 2 w = 2) (stage : 2 ≤ bits 2 3 w)
    (data : bits 15 9 w ≤ 256) (low : 1 ≤ bits 5 10 w) (high : bits 5 10 w ≤ 640) (fits : s.tblFits t 2 = true) :
    s.tblWrite0 t w = ((((s.wr (.core .TBL_KIND) t 2).wr (.core .TBL_STAGE) t (bits 2 3 w)).wr (.core .TBL_KEY_BITS) t
      (bits 5 10 w)).wr (.core .TBL_DATA_BITS) t (bits 15 9 w)) := by
  unfold State.tblWrite0
  dsimp only
  rw [kind]
  refine (if_neg (by decide)).trans (if_neg ?_)
  simp [off, stage, data, low, high, fits]

theorem State.tblWrite0_reserved {t w : Nat} (kind : bits 0 2 w = 3) : s.tblWrite0 t w = s.coreRefused := by
  unfold State.tblWrite0
  dsimp only
  rw [kind]
  exact (if_neg (by decide)).trans (if_pos (Or.inr (Or.inl rfl)))

/-- A command with its operands taken runs to its end. -/
theorem State.lkGo_runs {i op tbl vis : Nat} {v w : State} {o : LkOut}
    (taken : v = ((s.wr (.core .LKP_OP) i op).wr (.core .LKP_TBL) i tbl).wr (.core .LKP_VIS) i vis)
    (runs : (if i = 0 then v.setH .snapStale 0 1 else v).lkRun op (s.ifCmd i tbl vis) = (o, w)) : s.lkGo i op tbl vis =
    (((w.wr (.core .LKP_STATUS_CODE) i o.code).wr (.core .LKP_STATUS_HIT) i o.hit.toNat).ifReturn i op o) := by
  subst taken
  have operands : (if i = 0 then ((((s.wr (.core .LKP_OP) i op).wr (.core .LKP_TBL) i tbl).wr (.core .LKP_VIS) i
      vis).setH .snapStale 0 1) else (((s.wr (.core .LKP_OP) i op).wr (.core .LKP_TBL) i tbl).wr (.core .LKP_VIS) i
      vis)).ifCmd i tbl vis = s.ifCmd i tbl vis := by
    split <;> simp [State.ifCmd]
  unfold State.lkGo
  dsimp only
  rw [operands, runs]

/-- An entry goes to a free candidate slot at once. -/
theorem State.place_free {t i : Nat} {e : LkEntry} (fuel : Nat)
    (free : (s.slots t e.key).find? (fun k => !(s.entry t k).valid) = some i) :
    s.place t e (fuel + 1) = some (s.setEntry t i e) := by
  simp only [State.place, free]

/-- Only a table with no place left answers FULL. -/
theorem State.lkInsert_full {c : LkCmd} (kind : s.tblKind c.tbl = 1) (full : (s.lkInsert c).1.code = lkFULL) :
    (s.lkInsert c).2 = s.raise .CORE_LKP_FULL locLookup 0 := by
  unfold State.lkInsert at full ⊢
  rw [if_neg (not_not_intro kind)] at full ⊢
  dsimp only at full ⊢
  split at full
  · exact absurd full (show lkEXISTS ≠ lkFULL by decide)
  · split at full
    · exact absurd full (show lkOK ≠ lkFULL by decide)
    · simp_all

/-- Settles O23: the commands of the lookup store and the writes of a table descriptor. -/
theorem lookupCommandsComplete : Obligations.LookupCommandsComplete := by
  unfold Obligations.LookupCommandsComplete
  refine ⟨?go, ?status, ?off, ?present, ?absent, ?insert, ?full, ?index, ?badIndex, ?ternary, ?word1, ?word1On, ?word0,
    ?reserved⟩
  case go =>
    intro r i tbl vis s reach
    exact ⟨next_writeTo reach rfl, next_writeTo reach rfl, next_writeTo reach rfl, next_writeTo reach rfl,
      next_writeTo reach rfl, next_writeTo reach rfl, next_writeTo reach rfl, next_writeTo reach rfl⟩
  case status => exact fun i op tbl vis s v w o taken runs => State.lkGo_runs taken runs
  case off =>
    intro op c s small off
    have cases_ : op = 0 ∨ op = 1 ∨ op = 2 ∨ op = 3 ∨ op = 4 ∨ op = 5 ∨ op = 6 ∨ op = 7 := by omega
    rcases cases_ with rfl | rfl | rfl | rfl | rfl | rfl | rfl | rfl <;>
      simp [State.lkRun, State.lkNop, State.lkInsert, State.lkDelete, State.lkModify, State.lkReadKey, State.lkReadIndex,
        State.lkWriteIndex, State.lkClearHit, off]
  case present =>
    intro c i e s kind found
    simp [State.lkRun, State.lkInsert, State.lkDelete, State.lkModify, State.lkReadKey, kind, found]
  case absent =>
    intro c s kind missing
    simp [State.lkRun, State.lkDelete, State.lkModify, State.lkReadKey, kind, missing]
  case insert =>
    rintro c i _ e s kind cap rfl missing free made
    have key : e.key = trunc (s.rd (.core .TBL_KEY_BITS) c.tbl) c.key := by rw [made]
    have placed := State.place_free (e := e) 63 (key ▸ free)
    simp [State.lkRun, State.lkInsert, kind, cap, missing, ← made, placed]
  case full =>
    exact fun c s kind full => State.lkInsert_full kind full
  case index =>
    intro c s on_ small
    simp [State.lkRun, State.lkReadIndex, State.lkClearHit, on_, Nat.not_le.mpr small]
  case badIndex =>
    intro c s kind beyond
    simp [State.lkRun, State.lkReadIndex, State.lkWriteIndex, State.lkClearHit, kind, beyond]
  case ternary =>
    intro t b key i e s found
    have hit := List.find?_some found
    simpa using hit
  case word1 => exact fun r t w s reach off base => next_writeTo reach ((if_pos rfl).trans (if_neg (by simp [off, base])))
  case word1On => exact fun r t w s reach on_ => next_writeTo reach ((if_pos rfl).trans (if_pos (Or.inl on_)))
  case word0 =>
    exact fun r t w s reach off kind stage data low high fits =>
      next_writeTo reach (State.tblWrite0_put off kind stage data low high fits)
  case reserved => exact fun r t w s reach kind => next_writeTo reach (State.tblWrite0_reserved kind)

end Sys2Proof.Machine

/-! The pool manager (R256-R271): requests, reference counts, freezing and thawing. -/

namespace Sys2Proof.Machine

variable {s : State}

/-! ## What the operations leave of the buffers -/

@[simp] theorem State.buf_setBuf (s : State) (h k : Nat) (b : Buf) : (s.setBuf h b).buf k = if k = h then b else s.buf k := by
  split
  · next same => subst same; exact Assoc.get_set_same ..
  · next other => exact Assoc.get_set_other _ _ _ other _

theorem State.bufs_sharedCheck (s : State) (p : Nat) : (s.sharedCheck p).bufs = s.bufs := by
  unfold State.sharedCheck
  split
  · split
    · rfl
    · simp
  · split <;> rfl

@[simp] theorem State.buf_sharedCheck (s : State) (p h : Nat) : (s.sharedCheck p).buf h = s.buf h :=
  congrArg (Assoc.get ({} : Buf) h) (s.bufs_sharedCheck p)

/-- The check of the shared part leaves the pools' registers as they are. -/
theorem State.rd_sharedCheck (s : State) (p : Nat) (f : PoolF) (i : Nat) : (s.sharedCheck p).rd (.pool f) i = s.rd (.pool f) i := by
  unfold State.sharedCheck
  split
  · split <;> simp
  · split <;> simp

theorem State.cursor_sharedCheck (s : State) (p i : Nat) : (s.sharedCheck p).h .poolCursor i = s.h .poolCursor i := by
  unfold State.sharedCheck
  split
  · split
    · rfl
    · rw [State.h_raise _ _ _ _ _ _ _ (by decide)]
      simp
  · split <;> simp

theorem State.bufs_uncharge (hs : List Nat) : ∀ s : State, (s.uncharge hs).bufs = s.bufs := by
  induction hs with
  | nil => exact fun s => rfl
  | cons h hs ih => exact fun s => ih _

@[simp] theorem State.buf_uncharge (s : State) (hs : List Nat) (h : Nat) : (s.uncharge hs).buf h = s.buf h :=
  congrArg (Assoc.get ({} : Buf) h) (State.bufs_uncharge hs s)

/-- Emptied buffers are empty. -/
theorem State.buf_foldl_clear (ks : List Nat) (k : Nat) : ∀ s : State,
    (ks.foldl (fun x j => x.setBuf j {}) s).buf k = if k ∈ ks then {} else s.buf k := by
  induction ks with
  | nil => simp
  | cons j ks ih =>
    intro s
    rw [List.foldl_cons, ih, State.buf_setBuf]
    by_cases tail : k ∈ ks
    · simp [tail]
    · by_cases head : k = j <;> simp [tail, head]

/-- A buffer of a frozen chain keeps its count. -/
theorem State.buf_foldl_freeze (h : Nat) (ks : List Nat) (k : Nat) : ∀ s : State,
    (ks.foldl (fun x j => x.setBuf j { x.buf j with held := false, frozen := true, head := h }) s).buf k =
      if k ∈ ks then { s.buf k with held := false, frozen := true, head := h } else s.buf k := by
  induction ks with
  | nil => simp
  | cons j ks ih =>
    intro s
    rw [List.foldl_cons, ih, State.buf_setBuf]
    by_cases tail : k ∈ ks
    · by_cases head : k = j <;> simp [tail, head]
    · by_cases head : k = j <;> simp [tail, head]

/-! ## References -/

section Reference
variable {h k q : Nat}

/-- A handle that may be used, and a count that may be applied. -/
theorem State.refRefused_none (valid : s.handleOk h = true) (thawed : (s.buf h).frozen = false) : s.refRefused h = none := by
  simp [State.refRefused, valid, thawed]

theorem State.ref_of_valid (some_ : 1 ≤ k) (most : k ≤ 255) (valid : s.handleOk h = true) (thawed : (s.buf h).frozen = false) :
    s.ref h k q = (if ¬ (s.buf h).held then (false, s.freeze h q)
      else if 255 < (s.buf h).refs + k then (false, s.count (.pool .STAT_REF_OVER) (hPool h))
      else (true, s.setBuf h { s.buf h with refs := (s.buf h).refs + k })) := by
  unfold State.ref
  rw [if_neg (by omega), State.refRefused_none valid thawed]

theorem State.deref_of_valid (some_ : 1 ≤ k) (most : k ≤ 255) (valid : s.handleOk h = true) (thawed : (s.buf h).frozen = false) :
    s.deref h k q = (if ¬ (s.buf h).held ∨ (s.buf h).refs < k then (false, s.freeze h q)
      else if (s.buf h).refs = k then (true, s.freeBuf h)
      else (true, s.setBuf h { s.buf h with refs := (s.buf h).refs - k })) := by
  unfold State.deref
  rw [if_neg (by omega), State.refRefused_none valid thawed]

/-- A count that is refused reaches no buffer. -/
theorem State.ref_refused {t : State} (some_ : 1 ≤ k) (most : k ≤ 255) (bad : s.refRefused h = some t) :
    s.ref h k q = (false, t) ∧ s.deref h k q = (false, t) := by
  have counted : ¬ (k = 0 ∨ 255 < k) := by omega
  constructor
  · unfold State.ref
    rw [if_neg counted, bad]
  · unfold State.deref
    rw [if_neg counted, bad]

end Reference

/-! ## Requests -/

section Request
variable {fp fe : Nat} {e : Fin 16} {p : Fin 4} {fb : Bool}

/-- A pool that nobody asks. -/
theorem State.poolCycle_none (s : State) (fp fe p : Nat) : s.poolCycle fp fe p [] [] = ([], s) := rfl

/-- A cycle in which an engine alone asks the pool. -/
theorem State.poolCycle_one (s : State) (fp fe p : Nat) (r : PoolReq) : s.poolCycle fp fe p [r] [] =
    (match s.grant (whoOwner r.who) p with
     | (some h, s) => ([], s.poolEffect r.who (some h))
     | (none, s) => if r.fallback && (p == 1 || p == 2) then ([r], s) else ([], s.poolEffect r.who none)) := by
  cases open_ : s.inReserve (whoOwner r.who) p <;>
    simp [State.poolCycle, open_, rankSort, rankIns] <;> rfl

/-- A request that falls back is alone in the next pool's cycle. -/
theorem State.poolCycle_fallback (s : State) (fp fe p : Nat) (r : PoolReq) : s.poolCycle fp fe p [] [r] =
    s.poolCycle fp fe p [r] [] := by
  rw [State.poolCycle_one]
  simp [State.poolCycle, rankSort, rankIns] <;> rfl

/-- The market cycle of one request. -/
def State.oneRequest (s : State) (fp fe : Nat) (r : PoolReq) : State :=
  let of := fun p => onePer ([r].filter (fun r => r.pool.val == p))
  let (_, s) := s.poolCycle fp fe 0 (of 0) []
  let (f1, s) := s.poolCycle fp fe 1 (of 1) []
  let (f2, s) := s.poolCycle fp fe 2 (of 2) f1
  let (_, s) := s.poolCycle fp fe 3 (of 3) f2
  s

/-- A request that its own pool settles. -/
theorem State.oneRequest_settled {t : State} (r : PoolReq)
    (settled : s.poolCycle fp fe r.pool.val [r] [] = ([], t)) : s.oneRequest fp fe r = t := by
  obtain ⟨who, pool, fallback⟩ := r
  have four : pool = 0 ∨ pool = 1 ∨ pool = 2 ∨ pool = 3 := by omega
  rcases four with rfl | rfl | rfl | rfl <;>
    simp_all [State.oneRequest, onePer, State.poolCycle_none]

/-- A request to pool 1 that pool 2 settles. -/
theorem State.oneRequest_fallback {t w : State} (r : PoolReq) (first : r.pool = 1)
    (denied : s.poolCycle fp fe 1 [r] [] = ([r], w)) (settled : w.poolCycle fp fe 2 [r] [] = ([], t)) :
    s.oneRequest fp fe r = t := by
  obtain ⟨who, pool, fallback⟩ := r
  obtain rfl : pool = 1 := first
  simp_all [State.oneRequest, onePer, State.poolCycle_none, State.poolCycle_fallback]

theorem State.grant_taken {o p i : Nat} (open_ : s.poolGrants p = true) (may : s.inReserve o p = true ∨ s.inShare o p = true)
    (free : s.findFree p = some i) : s.grant o p = (some (mkHandle p i), s.take o p i) := by
  unfold State.grant
  rw [if_pos (by simpa [open_] using may), free]

theorem State.grant_denied {o p : Nat} (reserve : s.inReserve o p = false) (share : s.inShare o p = false) :
    s.grant o p = (none, s.count (.pool .OWN_DENY) (ownIdx o p)) := if_neg (by simp [reserve, share])

/-- A granted request of an engine is answered. -/
theorem State.poolCycle_granted {i : Nat} {p : Nat} {pool : Fin 4} (open_ : s.poolGrants p = true)
    (may : s.inReserve (72 + e) p = true ∨ s.inShare (72 + e) p = true) (free : s.findFree p = some i) :
    s.poolCycle fp fe p [⟨.eng e, pool, fb⟩] [] = ([], (s.take (72 + e) p i).setH .poolCmd (72 + e) (mkHandle p i + 2)) := by
  rw [State.poolCycle_one]
  simp only [whoOwner, State.grant_taken open_ may free]
  rfl

end Request

/-- What a grant leaves (R263, R268). -/
theorem State.take_effect {o p i : Nat} (room : s.rd (.pool .OWN_USE) (ownIdx o p) + 1 < 2 ^ 30) :
    (s.take o p i).buf (mkHandle p i) = { held := true, owner := o, refs := 1, head := mkHandle p i } ∧
    (s.take o p i).rd (.pool .OWN_USE) (ownIdx o p) = s.rd (.pool .OWN_USE) (ownIdx o p) + 1 ∧
    (s.take o p i).h .poolCursor p = (i + 1) % s.poolRange p ∧
    (∀ h, h ≠ mkHandle p i → (s.take o p i).buf h = s.buf h) := by
  have width : (Fld.pool .OWN_USE).desc.width = 30 := rfl
  have keeps : ∀ (w : State) (f : Fld) (j v h : Nat), (w.wr f j v).buf h = w.buf h := fun _ _ _ _ _ => rfl
  have keepsH : ∀ (w : State) (x : Hid) (j v h : Nat), (w.setH x j v).buf h = w.buf h := fun _ _ _ _ _ => rfl
  unfold State.take
  dsimp only
  refine ⟨?_, ?_, ?_, fun h other => ?_⟩
  · rw [State.buf_sharedCheck, keepsH, State.bump, keeps, State.buf_setBuf, if_pos rfl]
  · rw [State.rd_sharedCheck]
    simp [State.bump, width, trunc_of_lt room]
  · rw [State.cursor_sharedCheck]
    simp [State.poolRange, State.perStack, State.bump]
  · rw [State.buf_sharedCheck, keepsH, State.bump, keeps, State.buf_setBuf, if_neg other]

/-- What is frozen keeps its count, and POOL_FROZEN names it. -/
theorem State.freeze_effect {h q : Nat} (word : h < 2 ^ 32) : ((s.freeze h q).buf h).frozen = true ∧
    ((s.freeze h q).buf h).held = false ∧ ((s.freeze h q).buf h).refs = (s.buf h).refs ∧
    (s.freeze h q).rd (.pool .FROZEN_HANDLE) 0 = h := by
  have width : (Fld.pool .FROZEN_HANDLE).desc.width = 32 := rfl
  have member : h ∈ (s.buf h).cells h := List.mem_cons_self
  have same : (if (s.buf h).held = true then s.uncharge ((s.buf h).cells h) else s).buf h = s.buf h := by
    split
    · exact State.buf_uncharge ..
    · rfl
  have buf : (s.freeze h q).buf h = { s.buf h with held := false, frozen := true, head := h } := by
    unfold State.freeze
    refine (congrArg (Assoc.get ({} : Buf) h) (State.bufs_raise ..)).trans ?_
    refine (State.buf_foldl_freeze h _ h _).trans ?_
    rw [if_pos member, same]
  rw [buf]
  refine ⟨rfl, rfl, rfl, ?_⟩
  unfold State.freeze
  simp [width, trunc_of_lt word]

/-- Settles O24: requests, grants, references, frees, freezes and thaws. -/
theorem poolCommandsComplete : Obligations.PoolCommandsComplete := by
  unfold Obligations.PoolCommandsComplete
  refine ⟨?granted, ?denied, ?fallback, ?take, ?closed, ?ref, ?refOver, ?deref, ?derefLast, ?derefBad, ?invalid, ?frozen,
    ?freed, ?freeze, ?thaw, ?noThaw⟩
  case granted =>
    intro fp fe e p fb i s on_ open_ may free
    exact next_inDom on_ (State.oneRequest_settled _ (State.poolCycle_granted open_ may free))
  case denied =>
    intro fp fe e p s on_ reserve share
    refine next_inDom on_ (State.oneRequest_settled _ ?_)
    rw [State.poolCycle_one]
    simp only [whoOwner, State.grant_denied reserve share]
    rfl
  case fallback =>
    rintro fp fe e i s _ on_ reserve share rfl open_ may free
    refine next_inDom on_ (State.oneRequest_fallback _ rfl ?_ (State.poolCycle_granted open_ may free))
    rw [State.poolCycle_one]
    simp only [whoOwner, State.grant_denied reserve share]
    rfl
  case take => exact fun o p i s _ _ _ room => State.take_effect room
  case closed => exact fun o p s closed => if_neg (by simp [State.poolGrants, closed])
  case ref =>
    rintro w h k s _ on_ some_ valid rfl thawed held most
    refine next_inDom on_ ?_
    rw [State.ref_of_valid some_ (by omega) valid thawed, if_neg (not_not_intro held), if_neg (by omega)]
  case refOver =>
    intro w h k s on_ some_ valid thawed held over_
    refine next_inDom on_ ?_
    rw [State.ref_of_valid some_ (by omega) valid thawed, if_neg (not_not_intro held), if_pos over_]
  case deref =>
    rintro w h k s _ on_ some_ valid rfl thawed held more
    refine next_inDom on_ ?_
    rw [State.deref_of_valid some_ (by omega) valid thawed, if_neg (by simp [held]; omega), if_neg (by omega)]
  case derefLast =>
    intro w h k s on_ some_ valid thawed held last
    refine next_inDom on_ ?_
    rw [State.deref_of_valid some_ (by omega) valid thawed, if_neg (by simp [held]; omega), if_pos last]
  case derefBad =>
    intro w h k s on_ some_ valid thawed bad
    refine next_inDom on_ ?_
    rw [State.deref_of_valid some_ (by omega) valid thawed, if_pos (by simpa using bad)]
  case invalid =>
    intro w h k s on_ some_ bad
    have refused : s.refRefused h.toNat = some (s.count (.pool .STAT_BAD_HANDLE) (hPool h.toNat)) := if_pos (by simp [bad])
    exact ⟨next_inDom on_ (congrArg Prod.snd (State.ref_refused some_ (by omega) refused).1),
      next_inDom on_ (congrArg Prod.snd (State.ref_refused some_ (by omega) refused).2)⟩
  case frozen =>
    intro w h k s on_ some_ valid frozen
    have refused : s.refRefused h.toNat = some (s.count (.pool .STAT_FROZEN_OP) (hPool h.toNat)) :=
      (if_neg (by simp [valid])).trans (if_pos frozen)
    exact ⟨next_inDom on_ (congrArg Prod.snd (State.ref_refused some_ (by omega) refused).1),
      next_inDom on_ (congrArg Prod.snd (State.ref_refused some_ (by omega) refused).2)⟩
  case freed =>
    intro h s k member
    unfold State.freeBuf
    dsimp only
    rw [State.buf_sharedCheck, State.buf_foldl_clear, if_pos member]
  case freeze => exact fun h q s word => State.freeze_effect word
  case thaw =>
    intro r h s reach valid frozen
    exact next_writeTo reach (if_pos (by simp [valid, frozen]))
  case noThaw =>
    intro r h s reach thawed
    exact next_writeTo reach (if_neg (by simp [thawed]))

end Sys2Proof.Machine

/-! The Cellar: OPEN and SPILL_EN, the addresses of R260, spills and refills, a stack's failure and the wipes (R261,
R272-R277). -/

namespace Sys2Proof.Machine

variable {s : State}

/-! ## Settings -/

theorem State.spillEnWrite_on (off : s.on (.pool .CTL_SPILL_EN) 0 = false) : s.spillEnWrite true =
    (if s.readyStacks = [] ∨ [1, 2, 3].any (fun p => decide (s.poolTotal p < s.sumRsv p)) then s.poolRefused
     else s.wr (.pool .CTL_SPILL_EN) 0 1) :=
  (if_neg (by simp)).trans (if_neg (by simp [off]))

/-- Some pool of the Cellar has too little for its reserves. -/
theorem State.shortPool_iff (s : State) : [1, 2, 3].any (fun p => decide (s.poolTotal p < s.sumRsv p)) = true ↔
    ∃ p, 1 ≤ p ∧ p ≤ 3 ∧ s.poolTotal p < s.sumRsv p := by
  simp only [List.any_eq_true, decide_eq_true_iff]
  constructor
  · rintro ⟨p, member, short⟩
    exact ⟨p, by simp at member; omega, by simp at member; omega, short⟩
  · rintro ⟨p, low, high, short⟩
    exact ⟨p, by simp; omega, short⟩

/-! ## Failure -/

/-- A lost bin changes no register of the Cellar. -/
theorem State.rd_binLose (s : State) (b : Bin) (f : CelF) (i : Nat) : (s.binLose b).rd (.cel f) i = s.rd (.cel f) i := by
  have dropped : ∀ (l : List Contrib) (w : State), (l.foldl (fun x c => x.drop1 c.handle) w).rd (.cel f) i = w.rd (.cel f) i := by
    intro l
    induction l with
    | nil => exact fun _ => rfl
    | cons c l ih => exact fun w => (ih _).trans (State.rd_drop1 _ _ _ rfl)
  have drained : ∀ w : State, (w.gDrained b.grp).rd (.cel f) i = w.rd (.cel f) i := by
    intro w
    unfold State.gDrained
    split <;> simp
    rfl
  unfold State.binLose
  dsimp only
  rw [drained, State.rd_raise_cel]
  cases b.home with
  | none =>
    refine (State.rd_wr ..).trans ((if_neg (by simp)).trans ?_)
    exact dropped ..
  | some h =>
    refine (State.rd_wr ..).trans ((if_neg (by simp)).trans ?_)
    exact (State.rd_drop1 _ h _ rfl).trans (dropped ..)

theorem State.rd_binsLose (s : State) (p : Bin → Bool) (f : CelF) (i : Nat) : (s.binsLose p).rd (.cel f) i = s.rd (.cel f) i := by
  have general : ∀ (l : List Bin) (w : State), (l.foldl (fun x b => x.binLose b) w).rd (.cel f) i = w.rd (.cel f) i := by
    intro l
    induction l with
    | nil => exact fun _ => rfl
    | cons b l ih => exact fun w => (ih _).trans (State.rd_binLose ..)
  exact general ..

theorem State.rd_cel_sharedCheck (s : State) (p : Nat) (f : CelF) (i : Nat) : (s.sharedCheck p).rd (.cel f) i = s.rd (.cel f) i :=
  (PoolOnly.refl.sharedCheck p).rd _ i rfl

/-- Spilling is switched off by a failure, once. -/
def State.spillOff (s : State) (k : Nat) : State :=
  if s.on (.pool .CTL_SPILL_EN) 0 then (s.wr (.pool .CTL_SPILL_EN) 0 0).raise .POOL_SPILL_OFF (locStack k) else s

theorem State.spillOff_off (s : State) (k : Nat) : (s.spillOff k).on (.pool .CTL_SPILL_EN) 0 = false := by
  unfold State.spillOff
  split
  · simp
  · next off => simpa using off

theorem State.rd_spillOff (s : State) (k : Nat) (f : CelF) (i : Nat) : (s.spillOff k).rd (.cel f) i = s.rd (.cel f) i := by
  unfold State.spillOff
  split <;> simp

/-- A stack that has not failed. -/
theorem State.stackFail_eq {k cause : Nat} (works : s.rd (.cel .STACK_STATE) k ≠ 4) :
    ∃ p : Bin → Bool, s.stackFail k cause = (((List.range 4).foldl (fun s p => s.sharedCheck p) (((s.wr (.cel .STACK_STATE) k
      4).ledger 0x000C true (locStack k) cause).raise .CEL_STACK_FAIL (locStack k) cause)).binsLose p).spillOff k :=
  ⟨_, if_neg works⟩

/-- A failed stack is unusable, and spilling is off. -/
theorem State.stackFail_effect {k cause : Nat} (works : s.rd (.cel .STACK_STATE) k ≠ 4) :
    (s.stackFail k cause).rd (.cel .STACK_STATE) k = 4 ∧ (s.stackFail k cause).on (.pool .CTL_SPILL_EN) 0 = false ∧
    (s.stackFail k cause).stackReady k = false := by
  have width : (Fld.cel .STACK_STATE).desc.width = 3 := rfl
  have checks : ∀ (l : List Nat) (w : State), (l.foldl (fun x p => x.sharedCheck p) w).rd (.cel .STACK_STATE) k =
      w.rd (.cel .STACK_STATE) k := by
    intro l
    induction l with
    | nil => exact fun _ => rfl
    | cons p l ih => exact fun w => (ih _).trans (State.rd_cel_sharedCheck ..)
  obtain ⟨p, runs⟩ := State.stackFail_eq (cause := cause) works
  have state : (s.stackFail k cause).rd (.cel .STACK_STATE) k = 4 := by
    rw [runs, State.rd_spillOff, State.rd_binsLose, checks]
    simp [width, trunc]
  refine ⟨state, ?_, by simp [State.stackReady, state]⟩
  rw [runs]
  exact State.spillOff_off ..

/-! ## Wipes -/

theorem State.bufs_wipeBufs (s : State) (m : Nat → Bool) : (s.wipeBufs m).bufs = s.bufs.filter (fun e => !m e.1) := by
  have general : ∀ (l : List (Nat × Buf)) (w : State), (l.foldl (fun x e => if e.2.held then x.uncharge [e.1] else x) w).bufs =
      w.bufs := by
    intro l
    induction l with
    | nil => exact fun _ => rfl
    | cons e l ih =>
      intro w
      rw [List.foldl_cons, ih]
      split
      · exact State.bufs_uncharge ..
      · rfl
  show (List.foldl _ s _).bufs.filter _ = _
  rw [general]

/-- A buffer of wiped memory is free. -/
theorem State.buf_wipeBufs (s : State) (m : Nat → Bool) {h : Nat} (wiped : m h = true) : (s.wipeBufs m).buf h = {} := by
  unfold State.buf
  rw [State.bufs_wipeBufs, Assoc.get_filter ({} : Buf) h (fun k => !m k)]
  simp [wiped]

/-- Freeing the buffers of a wiped memory writes only what their owners use. -/
theorem State.poolOnly_wipeBufs (s : State) (m : Nat → Bool) : PoolOnly s (s.wipeBufs m) := by
  have general : ∀ (l : List (Nat × Buf)) (w : State), PoolOnly w
      (l.foldl (fun x e => if e.2.held then x.uncharge [e.1] else x) w) := by
    intro l w
    refine PoolOnly.foldl l _ (fun u e a => ?_) .refl
    split
    · exact a.uncharge _
    · exact a
  obtain ⟨others, rd, h, byte⟩ := general (s.bufs.filter (fun e => m e.1)) s
  exact ⟨others, rd, h, byte⟩

/-- WIPE_DONE is all that the end of a wipe may still write. -/
theorem State.wipeFlag_frame (s : State) : Frame s s.wipeFlag [(.pool .CTL_WIPE_DONE, 0)] [] := by
  unfold State.wipeFlag
  split
  · exact Frame.refl
  · exact Frame.wr _ _ _ (by simp) Frame.refl

theorem State.bufs_wipeFlag (s : State) : s.wipeFlag.bufs = s.bufs := by
  unfold State.wipeFlag
  split <;> rfl

/-- The end of the Granary's wipe: its bytes read 0, its buffers are free, and WIPE_DONE is set where no stack is wiped. -/
theorem State.granWiped_effect (s : State) : s.granWiped.h .granWipe = 0 ∧
    (∀ a, a < 393216 * 256 → s.granWiped.byte .granary a = 0) ∧ (∀ i, i < 2 ^ 30 → s.granWiped.buf (mkHandle 0 i) = {}) ∧
    ((∀ k, k < 4 → s.rd (.cel .STACK_STATE) k ≠ 2) → s.granWiped.rd (.pool .CTL_WIPE_DONE) 0 = 1) := by
  have width : (Fld.pool .CTL_WIPE_DONE).desc.width = 1 := rfl
  have only := State.poolOnly_wipeBufs (s.wipe .granary 0 (393216 * 256)) (fun h => hPool h == 0)
  obtain ⟨-, -, flagH, flagByte, -, -⟩ := State.wipeFlag_frame
    ((((s.wipe .granary 0 (393216 * 256)).wipeBufs (fun h => hPool h == 0)).setH .granWipe 0 0))
  refine ⟨?_, fun a small => ?_, fun i small => ?_, fun idle => ?_⟩
  · exact (flagH .granWipe 0 (by simp)).trans (by simp)
  · refine (flagByte .granary a).trans ((only.byte .granary a (by decide)).trans ?_)
    rw [State.byte_wipe, if_pos ⟨rfl, Nat.zero_le _, small⟩]
  · have pool : (hPool (mkHandle 0 i) == 0) = true := by
      unfold hPool mkHandle bits
      rw [Nat.zero_mul, Nat.zero_add, Nat.div_eq_of_lt small]
      rfl
    exact (congrArg (Assoc.get ({} : Buf) (mkHandle 0 i)) (State.bufs_wipeFlag _)).trans (State.buf_wipeBufs _ (fun h => hPool h == 0) pool)
  · have still : ∀ k, ((((s.wipe .granary 0 (393216 * 256)).wipeBufs (fun h => hPool h == 0)).setH .granWipe 0 0)).rd
        (.cel .STACK_STATE) k = s.rd (.cel .STACK_STATE) k := fun k => only.rd _ k rfl
    have over_ : ((((s.wipe .granary 0 (393216 * 256)).wipeBufs (fun h => hPool h == 0)).setH .granWipe 0 0)).wiping =
        false := by
      simp only [State.wiping, still]
      simp only [State.h_setH, and_self, if_true, bne_self_eq_false, Bool.false_or, List.any_eq_false]
      intro k member
      simp [idle k (List.mem_range.mp member)]
    show (State.wipeFlag _).rd _ _ = 1
    unfold State.wipeFlag
    rw [if_neg (by simp [over_])]
    simp [width, trunc]

/-- The end of a stack's wipe: its bytes read 0, and it is ready, or unusable while a mark stands. -/
theorem State.stackWiped_effect (s : State) (k : Nat) :
    (∀ a, k * 2 ^ 34 ≤ a → a < (k + 1) * 2 ^ 34 → (s.stackWiped k).byte .cellar a = 0) ∧
    (s.stackWiped k).rd (.cel .STACK_STATE) k = (if s.on (.cel .STACK_MARK) k || bit k (s.h .stackBad) then 4 else 3) := by
  have width : (Fld.cel .STACK_STATE).desc.width = 3 := rfl
  have only := State.poolOnly_wipeBufs (s.wipe .cellar (k * 2 ^ 34) ((k + 1) * 2 ^ 34))
    (fun h => hPool h != 0 && s.variant.nStacks != 0 && hIdx h % s.variant.nStacks == k)
  have mark := only.rd (.cel .STACK_MARK) k rfl
  have bad := only.h .stackBad 0 (by decide)
  unfold State.stackWiped
  dsimp only
  generalize State.wipeBufs _ _ = w at only mark bad ⊢
  obtain ⟨flagRd, -, -, flagByte, -, -⟩ := State.wipeFlag_frame (w.wr (.cel .STACK_STATE) k
    (if w.on (.cel .STACK_MARK) k || bit k (w.h .stackBad) then 4 else 3))
  refine ⟨fun a low high => ?_, ?_⟩
  · refine (flagByte .cellar a).trans ((only.byte .cellar a (by decide)).trans ?_)
    rw [State.byte_wipe, if_pos ⟨rfl, low, high⟩]
  · rw [flagRd _ _ (by simp), State.rd_wr, if_pos ⟨rfl, rfl⟩, width, bad]
    unfold State.on
    rw [mark]
    show trunc 3 (if s.on (.cel .STACK_MARK) k || bit k (s.h .stackBad) then 4 else 3) =
      if s.on (.cel .STACK_MARK) k || bit k (s.h .stackBad) then 4 else 3
    split <;> rfl

/-- Settles O25: OPEN and SPILL_EN, spills and refills, failures and wipes. -/
theorem cellarCommandsComplete : Obligations.CellarCommandsComplete := by
  unfold Obligations.CellarCommandsComplete
  refine ⟨?open_, ?tooBig, ?spillOn, ?spillRefused, ?spillOff, ?address, ?noSpill, ?spills, ?denied, ?enough, ?gone, ?waits,
    ?refills, ?fails, ?mark, ?granary, ?granIdle, ?stack⟩
  case open_ =>
    intro r s reach
    refine ⟨next_writeTo reach (if_pos (by simp)), fun closed ok => next_writeTo reach ?_,
      fun closed bad => next_writeTo reach ?_⟩
    · exact (if_neg (by simp)).trans ((if_neg (by simp [closed])).trans (if_pos ok))
    · exact (if_neg (by simp)).trans ((if_neg (by simp [closed])).trans (if_neg (by simp [bad])))
  case tooBig =>
    intro s large
    unfold State.openOk
    rw [decide_eq_false (Nat.not_le.mpr large), Bool.false_and]
  case spillOn =>
    intro r s reach off ready enough
    refine next_writeTo reach ((State.spillEnWrite_on off).trans (if_neg ?_))
    rintro (none_ | short)
    · exact ready none_
    · obtain ⟨p, low, high, less⟩ := (State.shortPool_iff s).mp short
      exact absurd (enough p low high) (Nat.not_le.mpr less)
  case spillRefused =>
    intro r s reach off bad
    refine next_writeTo reach ((State.spillEnWrite_on off).trans (if_pos ?_))
    rcases bad with none_ | short
    · exact .inl none_
    · exact .inr ((State.shortPool_iff s).mpr short)
  case spillOff => exact fun r s reach => next_writeTo reach (if_pos (by simp))
  case address =>
    rintro p i _ s low high rfl
    have three : p = 1 ∨ p = 2 ∨ p = 3 := by omega
    rcases three with rfl | rfl | rfl <;> simp [State.cellarAddr]
  case noSpill =>
    intro p t s up none_
    refine next_inUnit up ?_
    unfold State.spill
    rw [none_]
  case spills =>
    intro p t s w d h up first whole granted
    refine ⟨_, rfl, next_inUnit up ?_⟩
    unfold State.spill
    rw [first]
    simp only [whole, granted]
    rfl
  case denied =>
    intro p t s w d up first whole denied
    refine next_inUnit up ?_
    unfold State.spill
    rw [first]
    simp only [whole, denied]
    rfl
  case enough => exact fun p t s up enough => next_inUnit up (if_pos enough)
  case gone =>
    rintro p t _ s d up rfl few first there lost
    refine next_inUnit up ((if_neg (Nat.not_le.mpr few)).trans ?_)
    simp only [first, there, lost]
    rfl
  case waits =>
    rintro p t _ s w d up rfl few first there usable denied
    refine next_inUnit up ((if_neg (Nat.not_le.mpr few)).trans ?_)
    simp only [first, there, usable, denied]
    rfl
  case refills =>
    rintro p t _ s w d h hs up rfl few first there usable granted
    refine ⟨_, rfl, next_inUnit up ((if_neg (Nat.not_le.mpr few)).trans ?_)⟩
    simp only [first, there, usable, granted]
    rfl
  case fails =>
    intro k c s up
    refine ⟨_, next_inUnit up rfl, fun failed => if_pos failed, fun works => State.stackFail_effect works⟩
  case mark => exact fun r k s reach => next_writeTo reach rfl
  case granary =>
    intro s on_ wipes
    exact ⟨_, next_inDom_when on_ (by simp [wipes]) rfl, State.granWiped_effect s⟩
  case granIdle => exact fun s on_ idle => next_inDom_idle on_ (by simp [idle])
  case stack =>
    intro k s on_ wipes
    exact ⟨_, next_inDom_when on_ (by simp [wipes]) rfl, State.stackWiped_effect s k⟩

end Sys2Proof.Machine

/-! The commands of the engines (R283, R289, R299-R304, R307, Table 9.6). -/

namespace Sys2Proof.Machine

/-! ## What leaves an engine's threads and queues alone -/

/-- From `s` to `t` an engine keeps its threads, its input queues and its registers, but for EQ_DROP. -/
structure EngKept (s t : State) : Prop where
  rd : ∀ f i, f ≠ EngF.EQ_DROP → t.rd (.eng f) i = s.rd (.eng f) i
  treg : t.treg = s.treg
  eqs : t.eqs = s.eqs

variable {s t : State}

theorem EngKept.refl : EngKept s s := ⟨fun _ _ _ => rfl, rfl, rfl⟩

theorem EngKept.trans {u : State} (a : EngKept s t) (b : EngKept t u) : EngKept s u :=
  ⟨fun f i m => (b.rd f i m).trans (a.rd f i m), b.treg.trans a.treg, b.eqs.trans a.eqs⟩

theorem EngKept.wr (f : Fld) (i v : Nat) (m : ∀ g, g ≠ EngF.EQ_DROP → f ≠ .eng g) (a : EngKept s t) : EngKept s (t.wr f i v) :=
  ⟨fun g j k => by
    rw [State.rd_wr, if_neg (fun e => m g k e.1.symm)]; exact a.rd g j k, a.treg, a.eqs⟩

theorem EngKept.drop1 (h : Nat) (a : EngKept s t) : EngKept s (t.drop1 h) := by
  have pool := (PoolOnly.refl (s := t)).drop1 h
  exact a.trans ⟨fun f i _ => pool.rd _ i rfl, by have same := congrArg State.treg pool.others; exact same,
    by have same := congrArg State.eqs pool.others; exact same⟩

theorem EngKept.raise (e : Ev) (l d p : Nat) (a : EngKept s t) : EngKept s (t.raise e l d p) := by
  have event := t.raise_crier e l d p
  exact a.trans ⟨fun f i _ => event.rd _ i rfl, by have same := congrArg State.treg event.others; exact same,
    by have same := congrArg State.eqs event.others; exact same⟩

theorem EngKept.ledger (c : Nat) (b : Bool) (l d : Nat) (q : LedSrc) (a : EngKept s t) : EngKept s (t.ledger c b l d q) := by
  have entry := (t.ledger_only l d c b q).others
  exact a.trans ⟨fun f i _ => by simp, by have same := congrArg State.treg entry; exact same,
    by have same := congrArg State.eqs entry; exact same⟩

theorem EngKept.foldl {α : Type} (l : List α) (f : State → α → State) (each : ∀ u x, EngKept s u → EngKept s (f u x))
    (a : EngKept s t) : EngKept s (l.foldl f t) := by
  induction l generalizing t with
  | nil => exact a
  | cons x l ih => exact ih (each t x a)

theorem EngKept.gDrained (g : Nat) (a : EngKept s t) : EngKept s (t.gDrained g) := by
  unfold State.gDrained
  split
  · exact EngKept.wr (t := { t with bins := _ }) _ _ _ (by simp) ⟨a.rd, a.treg, a.eqs⟩
  · exact a

theorem EngKept.binLose (b : Bin) (a : EngKept s t) : EngKept s (t.binLose b) := by
  have dropped : EngKept s (((t.gqOf b.eng).filter (fun c => c.grp == b.grp && c.n == b.n)).foldl (fun s c => s.drop1 c.handle)
      (t.setGq b.eng ((t.gqOf b.eng).filter (fun c => !(c.grp == b.grp && c.n == b.n))))) :=
    .foldl _ _ (fun _ _ k => k.drop1 _) ⟨a.rd, a.treg, a.eqs⟩
  unfold State.binLose
  dsimp only
  refine EngKept.gDrained _ (EngKept.raise _ _ _ _ (EngKept.wr _ _ _ (by simp) ?_))
  cases b.home with
  | none => exact ⟨dropped.rd, dropped.treg, dropped.eqs⟩
  | some h => exact ⟨(dropped.drop1 h).rd, (dropped.drop1 h).treg, (dropped.drop1 h).eqs⟩

/-- An engine that leaves the gather groups keeps its threads and its input queues. -/
theorem EngKept.gthEngLost (e : Nat) (a : EngKept s t) : EngKept s (t.gthEngLost e) := by
  have lost : EngKept s (t.binsLose (fun b => b.eng == e)) := .foldl _ _ (fun _ _ k => k.binLose _) a
  unfold State.gthEngLost
  refine EngKept.foldl _ _ (fun u k c => ?_) ⟨lost.rd, lost.treg, lost.eqs⟩
  dsimp only
  split
  · have cleared : EngKept s (u.clrBitF (.gth .GRP_ENG_LIVE) (256 * (e / 8) + k) (e % 8)) := c.wr _ _ _ (by simp)
    refine EngKept.gDrained _ ?_
    split
    · exact (cleared.wr _ _ _ (by simp)).raise ..
    · exact cleared
  · exact c

/-! ## Threads -/

@[simp] theorem State.eq_setEq (s : State) (k : Nat) (l : List Copy) : (s.setEq k l).eq k = l := Assoc.get_set_same ..

theorem State.eq_setEq_other (s : State) {k n : Nat} (l : List Copy) (other : n ≠ k) : (s.setEq k l).eq n = s.eq n :=
  Assoc.get_set_other _ _ _ other _

theorem State.hatch_setHatch (s : State) (k n : Nat) (l : List Nat) :
    (s.setHatch k l).hatch n = if n = k then l else s.hatch n := by
  by_cases same : n = k
  · rw [if_pos same, same]
    exact Assoc.get_set_same ..
  · rw [if_neg same]
    exact Assoc.get_set_other _ _ _ same _

theorem State.tstate_setTstate (s : State) (e t n m v : Nat) :
    (s.setTstate e t v).tstate n m = if thrIdx n m = thrIdx e t then trunc 3 v else s.tstate n m := by
  have width : (Fld.eng .THR_TCTL_STATE).desc.width = 3 := rfl
  simp [State.setTstate, State.tstate, width]

theorem State.rd_setTstate (s : State) (e t v i : Nat) {f : Fld} (state : f ≠ .eng .THR_TCTL_STATE)
    (status : f ≠ .eng .STATUS_TSTATE) : (s.setTstate e t v).rd f i = s.rd f i := by
  simp [State.setTstate, state, status]

theorem State.tr_thrZero (s : State) (e t c n : Nat) : (s.thrZero e t).tr c n = if c = thrIdx e t then 0 else s.tr c n := by
  refine (Assoc.get_filter 0 (c, n) (fun k => k.1 != thrIdx e t) s.treg).trans ?_
  by_cases same : c = thrIdx e t <;> simp [same, State.tr]

theorem State.tr_of_treg {s t : State} (same : t.treg = s.treg) (c n : Nat) : t.tr c n = s.tr c n :=
  congrArg (Assoc.get 0 (c, n)) same

theorem thrIdx_inj {e t n : Nat} (same : thrIdx e t = thrIdx e n) : t = n := by
  unfold thrIdx at same
  omega

/-! ## Queues that are emptied -/

/-- The queue `q` of an engine is emptied. -/
def State.eqFlush1 (s : State) (e : Nat) (counted : Bool) (q : Nat) : State :=
  let k := 64 * e + q
  let l := s.eq k
  let s := if counted then s.count (.eng .EQ_DROP) k l.length else s
  l.foldl (fun s d => s.drop1 d.handle) (s.setEq k [])

theorem State.eqFlush_eq (s : State) (e : Nat) (counted : Bool) :
    s.eqFlush e counted = (List.range 64).foldl (fun s q => s.eqFlush1 e counted q) s := rfl

/-- Emptying one queue keeps the engine's other registers, its threads and its other queues. -/
theorem State.eqFlush1_keeps (s : State) (e : Nat) (counted : Bool) (q : Nat) :
    (∀ f i, f ≠ EngF.EQ_DROP → (s.eqFlush1 e counted q).rd (.eng f) i = s.rd (.eng f) i) ∧
    (s.eqFlush1 e counted q).treg = s.treg ∧ ∀ n, (s.eqFlush1 e counted q).eq n = if n = 64 * e + q then [] else s.eq n := by
  have emptied : ∀ w : State, ∀ n, (w.setEq (64 * e + q) []).eq n = if n = 64 * e + q then [] else w.eq n := by
    intro w n
    by_cases same : n = 64 * e + q
    · rw [if_pos same, same, State.eq_setEq]
    · rw [if_neg same, State.eq_setEq_other _ _ same]
  have dropped : ∀ w : State, EngKept w ((s.eq (64 * e + q)).foldl (fun s d => s.drop1 d.handle) w) :=
    fun w => .foldl _ _ (fun _ _ k => k.drop1 _) .refl
  unfold State.eqFlush1
  dsimp only
  refine ⟨fun f i m => ?_, (dropped _).treg.trans ?_,
    fun n => (congrArg (Assoc.get [] n) (dropped _).eqs).trans ((emptied _ n).trans ?_)⟩
  · refine ((dropped _).rd f i m).trans ?_
    cases counted
    · rfl
    · exact (State.rd_wr (s := s) (.eng .EQ_DROP) (.eng f) (64 * e + q) i _).trans (if_neg (fun c => m (Fld.eng.inj c.1)))
  · cases counted <;> rfl
  · cases counted <;> rfl

/-- After the flush the engine's queues are empty; its threads and its other registers are as they were. -/
theorem State.eqFlush_empties (s : State) (e : Nat) (counted : Bool) :
    (∀ f i, f ≠ EngF.EQ_DROP → (s.eqFlush e counted).rd (.eng f) i = s.rd (.eng f) i) ∧
    (s.eqFlush e counted).treg = s.treg ∧ ∀ q, q < 64 → (s.eqFlush e counted).eq (64 * e + q) = [] := by
  rw [State.eqFlush_eq]
  have upto : ∀ N, let t := (List.range N).foldl (fun s q => s.eqFlush1 e counted q) s
      (∀ f i, f ≠ EngF.EQ_DROP → t.rd (.eng f) i = s.rd (.eng f) i) ∧ t.treg = s.treg ∧
        ∀ q, q < N → t.eq (64 * e + q) = [] := by
    intro N
    induction N with
    | zero => exact ⟨fun _ _ _ => rfl, rfl, fun q less => absurd less (Nat.not_lt_zero q)⟩
    | succ N ih =>
      obtain ⟨rds, treg, empty⟩ := ih
      rw [List.range_succ, List.foldl_append]
      obtain ⟨rds1, treg1, empty1⟩ :=
        ((List.range N).foldl (fun s q => s.eqFlush1 e counted q) s).eqFlush1_keeps e counted N
      refine ⟨fun f i m => (rds1 f i m).trans (rds f i m), treg1.trans treg, fun q less => (empty1 _).trans ?_⟩
      by_cases last : q = N
      · exact if_pos (by rw [last])
      · exact (if_neg (by omega)).trans (empty q (by omega))
  exact upto 64

/-- Pending emits that are dropped touch no thread and no queue. -/
theorem EngKept.emitFlush (e : Nat) (a : EngKept s t) : EngKept s (t.emitFlush e) :=
  .foldl _ _ (fun _ _ k => k.drop1 _) ⟨a.rd, a.treg, a.eqs⟩

/-- An engine's queues are emptied and it leaves the groups: nothing else of it changes. -/
theorem State.flushed_lost (s : State) (e : Nat) (counted : Bool) :
    let t := ((s.eqFlush e counted).emitFlush e).gthEngLost e
    (∀ f i, f ≠ EngF.EQ_DROP → t.rd (.eng f) i = s.rd (.eng f) i) ∧ t.treg = s.treg ∧
      ∀ q, q < 64 → t.eq (64 * e + q) = [] := by
  obtain ⟨rds, treg, empty⟩ := s.eqFlush_empties e counted
  have after := ((EngKept.refl (s := s.eqFlush e counted)).emitFlush e).gthEngLost e
  exact ⟨fun f i m => (after.rd f i m).trans (rds f i m), after.treg.trans treg,
    fun q less => (congrArg (Assoc.get [] (64 * e + q)) after.eqs).trans (empty q less)⟩

/-! ## An engine marked unusable -/

theorem EngKept.servoLost (e : Nat) (a : EngKept s t) : EngKept s (t.servoLost e) := by
  unfold State.servoLost
  split
  · have word := a.wr (.bell .STATUS_SRC_APPLIED) 0 1 (by simp)
    exact EngKept.raise (t := (t.wr (.bell .STATUS_SRC_APPLIED) 0 1).setH .servoAwait 0 0) _ _ _ _
      ⟨word.rd, word.treg, word.eqs⟩
  · exact a

/-- Thread `t` of an engine that is marked unusable. -/
def State.haltThr (s : State) (e t : Nat) : State :=
  (s.setTstate e t tHALTED).wr (.eng .THR_TCAUSE_CAUSE) (thrIdx e t) 0x0D

/-- The threads of an engine that is marked unusable. -/
def State.haltAll (s : State) (e : Nat) : State := (List.range 8).foldl (fun s t => s.haltThr e t) s

/-- Halting a thread sets its state and its cause, and no other thread's. -/
theorem State.haltThr_halts (s : State) (e t : Nat) :
    (∀ f i, f ≠ .eng .THR_TCTL_STATE → f ≠ .eng .STATUS_TSTATE → f ≠ .eng .THR_TCAUSE_CAUSE →
      (s.haltThr e t).rd f i = s.rd f i) ∧
    ∀ n, (s.haltThr e t).tstate e n = (if n = t then tHALTED else s.tstate e n) ∧
      (s.haltThr e t).rd (.eng .THR_TCAUSE_CAUSE) (thrIdx e n) =
        if n = t then cUNUSABLE else s.rd (.eng .THR_TCAUSE_CAUSE) (thrIdx e n) := by
  have width : (Fld.eng .THR_TCAUSE_CAUSE).desc.width = 8 := rfl
  have same : ∀ n, thrIdx e n = thrIdx e t ↔ n = t := fun n => ⟨thrIdx_inj, fun c => by rw [c]⟩
  refine ⟨fun f i state status cause => ?_, fun n => ⟨?_, ?_⟩⟩
  · exact (State.rd_wr ..).trans ((if_neg (fun c => cause c.1)).trans (State.rd_setTstate _ _ _ _ _ state status))
  · refine (State.rd_wr ..).trans ((if_neg (by simp)).trans ((State.tstate_setTstate ..).trans ?_))
    simp only [same]
    rfl
  · unfold State.haltThr
    rw [State.rd_wr, State.rd_setTstate _ _ _ _ _ (by simp) (by simp), width]
    simp only [same, true_and]
    rfl

theorem State.haltAll_halts (s : State) (e : Nat) :
    (∀ f i, f ≠ .eng .THR_TCTL_STATE → f ≠ .eng .STATUS_TSTATE → f ≠ .eng .THR_TCAUSE_CAUSE →
      (s.haltAll e).rd f i = s.rd f i) ∧
    ∀ t, t < 8 → (s.haltAll e).tstate e t = tHALTED ∧ (s.haltAll e).rd (.eng .THR_TCAUSE_CAUSE) (thrIdx e t) = cUNUSABLE := by
  have upto : ∀ N, let u := (List.range N).foldl (fun s t => s.haltThr e t) s
      (∀ f i, f ≠ .eng .THR_TCTL_STATE → f ≠ .eng .STATUS_TSTATE → f ≠ .eng .THR_TCAUSE_CAUSE → u.rd f i = s.rd f i) ∧
        ∀ t, t < N → u.tstate e t = tHALTED ∧ u.rd (.eng .THR_TCAUSE_CAUSE) (thrIdx e t) = cUNUSABLE := by
    intro N
    induction N with
    | zero => exact ⟨fun _ _ _ _ _ => rfl, fun t less => absurd less (Nat.not_lt_zero t)⟩
    | succ N ih =>
      obtain ⟨rds, halted⟩ := ih
      rw [List.range_succ, List.foldl_append]
      obtain ⟨rds1, halted1⟩ := ((List.range N).foldl (fun s t => s.haltThr e t) s).haltThr_halts e N
      refine ⟨fun f i state status cause => (rds1 f i state status cause).trans (rds f i state status cause), fun t less => ?_⟩
      obtain ⟨state1, cause1⟩ := halted1 t
      by_cases last : t = N
      · exact ⟨state1.trans (if_pos last), cause1.trans (if_pos last)⟩
      · obtain ⟨state, cause⟩ := halted t (by omega)
        exact ⟨state1.trans ((if_neg last).trans state), cause1.trans ((if_neg last).trans cause)⟩
  exact upto 8

theorem State.on_of_rd {s t : State} {f : Fld} {i : Nat} (same : t.rd f i = s.rd f i) : t.on f i = s.on f i :=
  congrArg (· == 1) same

theorem State.engMark_marks (s : State) (e why : Nat) (usable : s.on (.eng .CTL_UNUSABLE) e = false) :
    (s.engMark e why).on (.eng .CTL_UNUSABLE) e = true ∧
    (s.engMark e why).on (.eng .CTL_MARK) e = s.on (.eng .CTL_MARK) e ∧
    (∀ t, t < 8 → (s.engMark e why).tstate e t = tHALTED ∧
      (s.engMark e why).rd (.eng .THR_TCAUSE_CAUSE) (thrIdx e t) = cUNUSABLE) ∧
    ∀ q, q < 64 → (s.engMark e why).eq (64 * e + q) = [] := by
  have marks : s.engMark e why =
      ((((((((s.wr (.eng .CTL_UNUSABLE) e 1).setH .markWhy e why).haltAll e).eqFlush e true).emitFlush e).gthEngLost e).ledger
        0x0007 true (locEngine e) why).raise .ENG_UNUSABLE (locEngine e)).servoLost e :=
    if_neg (by simp [usable])
  rw [marks]
  generalize start : (s.wr (.eng .CTL_UNUSABLE) e 1).setH .markWhy e why = a
  obtain ⟨rds, halted⟩ := a.haltAll_halts e
  obtain ⟨rds1, _, empty⟩ := (a.haltAll e).flushed_lost e true
  have after := (((EngKept.refl (s := (((a.haltAll e).eqFlush e true).emitFlush e).gthEngLost e)).ledger 0x0007 true (locEngine e)
    why .hw).raise .ENG_UNUSABLE (locEngine e) 0 0).servoLost e
  have back : ∀ f i, f ≠ EngF.EQ_DROP → _ = (a.haltAll e).rd (.eng f) i := fun f i m => (after.rd f i m).trans (rds1 f i m)
  have unusable : a.on (.eng .CTL_UNUSABLE) e = true := by
    have width : (Fld.eng .CTL_UNUSABLE).desc.width = 1 := rfl
    rw [← start]
    exact (State.on_wr (s := s) (.eng .CTL_UNUSABLE) (.eng .CTL_UNUSABLE) e e 1).trans (by simp [width, trunc])
  have mark : a.on (.eng .CTL_MARK) e = s.on (.eng .CTL_MARK) e := by
    rw [← start]
    exact (State.on_wr (s := s) (.eng .CTL_UNUSABLE) (.eng .CTL_MARK) e e 1).trans (if_neg (by simp))
  refine ⟨?_, ?_, fun t less => ⟨?_, ?_⟩, fun q less => ?_⟩
  · exact (State.on_of_rd ((back _ _ (by simp)).trans (rds _ _ (by simp) (by simp) (by simp)))).trans unusable
  · exact (State.on_of_rd ((back _ _ (by simp)).trans (rds _ _ (by simp) (by simp) (by simp)))).trans mark
  · exact (back _ _ (by simp)).trans (halted t less).1
  · exact (back _ _ (by simp)).trans (halted t less).2
  · exact (congrArg (Assoc.get [] (64 * e + q)) after.eqs).trans (empty q less)

/-- An unusable engine refuses every copy but those for the gather unit of a usable one. -/
theorem State.eqOffer_unusable (s : State) (e q : Nat) (d : Copy) (unusable : s.on (.eng .CTL_UNUSABLE) e = true) :
    (s.eqOffer e q d).1 = false := by
  have takes : s.engTakes e = false := by simp [State.engTakes, unusable]
  simp [State.eqOffer, takes]

/-! ## The function reset of an engine -/

/-- Thread `t` under the function reset of its engine. -/
def State.freshThr (s : State) (e t : Nat) : State :=
  ((s.thrZero e t).setTstate e t tIDLE).wr (.eng .THR_TCAUSE_INTRAP) (thrIdx e t) 0

/-- The threads under the function reset of their engine. -/
def State.freshAll (s : State) (e : Nat) : State := (List.range 8).foldl (fun s t => s.freshThr e t) s

theorem State.freshThr_clears (s : State) (e t n : Nat) :
    (s.freshThr e t).tstate e n = (if n = t then tIDLE else s.tstate e n) ∧
    ∀ k, (s.freshThr e t).tr (thrIdx e n) k = if n = t then 0 else s.tr (thrIdx e n) k := by
  have same : thrIdx e n = thrIdx e t ↔ n = t := ⟨thrIdx_inj, fun c => by rw [c]⟩
  refine ⟨?_, fun k => ?_⟩
  · refine (State.rd_wr ..).trans ((if_neg (by simp)).trans ((State.tstate_setTstate ..).trans ?_))
    simp only [same]
    refine if_congr Iff.rfl rfl ((State.rd_wr ..).trans (if_neg (by simp)))
  · exact (State.tr_thrZero ..).trans (if_congr same rfl rfl)

theorem State.freshAll_clears (s : State) (e t : Nat) (less : t < 8) :
    (s.freshAll e).tstate e t = tIDLE ∧ ∀ k, (s.freshAll e).tr (thrIdx e t) k = 0 := by
  have upto : ∀ N, let u := (List.range N).foldl (fun s t => s.freshThr e t) s
      ∀ t, t < N → u.tstate e t = tIDLE ∧ ∀ k, u.tr (thrIdx e t) k = 0 := by
    intro N
    induction N with
    | zero => exact fun t less => absurd less (Nat.not_lt_zero t)
    | succ N ih =>
      rw [List.range_succ, List.foldl_append]
      intro u t less
      obtain ⟨state, regs⟩ := ((List.range N).foldl (fun s t => s.freshThr e t) s).freshThr_clears e N t
      by_cases last : t = N
      · exact ⟨state.trans (if_pos last), fun k => (regs k).trans (if_pos last)⟩
      · obtain ⟨before, zero⟩ := ih t (by omega)
        exact ⟨state.trans ((if_neg last).trans before), fun k => (regs k).trans ((if_neg last).trans (zero k))⟩
  exact upto 8 t less

/-- The hatches of an engine are emptied. -/
def State.hatchFlush (s : State) (e : Nat) : State := (List.range 16).foldl (fun s h => s.setHatch (16 * e + h) []) s

theorem State.hatchFlush_empties (s : State) (e : Nat) :
    (s.hatchFlush e).regs = s.regs ∧ (s.hatchFlush e).treg = s.treg ∧ (s.hatchFlush e).eqs = s.eqs ∧
      (s.hatchFlush e).variant = s.variant ∧ ∀ h, h < 16 → (s.hatchFlush e).hatch (16 * e + h) = [] := by
  have upto : ∀ N, let u := (List.range N).foldl (fun s h => s.setHatch (16 * e + h) []) s
      u.regs = s.regs ∧ u.treg = s.treg ∧ u.eqs = s.eqs ∧ u.variant = s.variant ∧ ∀ h, h < N → u.hatch (16 * e + h) = [] := by
    intro N
    induction N with
    | zero => exact ⟨rfl, rfl, rfl, rfl, fun h less => absurd less (Nat.not_lt_zero h)⟩
    | succ N ih =>
      obtain ⟨regs, treg, eqs, variant, empty⟩ := ih
      rw [List.range_succ, List.foldl_append]
      refine ⟨regs, treg, eqs, variant, fun h less => (State.hatch_setHatch ..).trans ?_⟩
      by_cases last : h = N
      · exact if_pos (by rw [last])
      · exact (if_neg (by omega)).trans (empty h (by omega))
  exact upto 16

theorem State.cacheGet_cacheClear (s : State) (e l : Nat) : (s.cacheClear e).cacheGet e l = none := by
  have gone : Assoc.get 0 (e, l) (s.cacheClear e).cache = 0 :=
    (Assoc.get_filter 0 (e, l) (fun k => k.1 != e) s.cache).trans (if_neg (by simp))
  unfold State.cacheGet
  rw [gone]

/-- What a reset of the units `p` picks leaves of a field. -/
theorem State.rd_resetF (s : State) (p : Grp → Nat → Bool) (f : Fld) (i : Nat) :
    (s.resetF p).rd f i = if decide (f.desc.surv ≠ .F) || f.desc.nvm || !p f.desc.grp i then s.rd f i else resetVal s.variant f i :=
  Assoc.get_filter (resetVal s.variant f i) (f, i) (fun k => decide (k.1.desc.surv ≠ .F) || k.1.desc.nvm || !p k.1.desc.grp k.2)
    s.regs

/-- Engine `e` under its function reset, before the fields of code F return to their reset values. -/
def State.engBlank (s : State) (e : Nat) : State :=
  ((((((s.freshAll e).eqFlush e false).emitFlush e).gthEngLost e).hatchFlush e).cacheClear e).wr (.eng .CTL_CINV_BUSY) e 0

theorem State.engFreset_eq (s : State) (e : Nat) : s.engFreset e =
    ((((s.engBlank e).resetF (fun g i => engGrp g && g.outer i == e)).wr (.eng .CTL_WIPING) e 1).setH .pwipeAt e
      (((s.engBlank e).resetF (fun g i => engGrp g && g.outer i == e)).age + usTicks 50)) := by
  simp only [State.engFreset, State.engBlank, State.freshAll, State.hatchFlush, State.freshThr]

/-- The threads, queues, hatches and cache lines of a blank engine. -/
theorem State.engBlank_blank (s : State) (e : Nat) :
    (∀ t, t < 8 → (s.engBlank e).tstate e t = tIDLE ∧ ∀ n, (s.engBlank e).tr (thrIdx e t) n = 0) ∧
    (∀ q, q < 64 → (s.engBlank e).eq (64 * e + q) = []) ∧ (∀ h, h < 16 → (s.engBlank e).hatch (16 * e + h) = []) ∧
    ∀ l, (s.engBlank e).cacheGet e l = none := by
  obtain ⟨rds, treg, empty⟩ := (s.freshAll e).flushed_lost e false
  have blank : s.engBlank e = (((((((s.freshAll e).eqFlush e false).emitFlush e).gthEngLost e).hatchFlush e).cacheClear e).wr
    (.eng .CTL_CINV_BUSY) e 0) := rfl
  generalize ((((s.freshAll e).eqFlush e false).emitFlush e).gthEngLost e) = lost at rds treg empty blank
  obtain ⟨regs2, treg2, eqs2, variant2, hatches⟩ := lost.hatchFlush_empties e
  rw [blank]
  generalize lost.hatchFlush e = idle at regs2 treg2 eqs2 variant2 hatches
  refine ⟨fun t less => ?_, fun q less => ?_, hatches, fun l => State.cacheGet_cacheClear _ e l⟩
  · obtain ⟨state, zero⟩ := s.freshAll_clears e t less
    refine ⟨?_, fun n => (State.tr_of_treg (treg2.trans treg) _ _).trans (zero n)⟩
    refine (State.rd_wr ..).trans ((if_neg (by simp)).trans (Eq.trans ?_ ((rds .THR_TCTL_STATE _ (by simp)).trans state)))
    show Assoc.get (resetVal idle.variant (.eng .THR_TCTL_STATE) (thrIdx e t)) _ idle.regs = _
    rw [variant2, regs2]
    rfl
  · exact (congrArg (Assoc.get [] (64 * e + q)) eqs2).trans (empty q less)

/-- What the function reset of engine `e` leaves (R303). -/
theorem State.engFreset_resets (s : State) (e : Fin 16) :
    (s.engFreset e).on (.eng .CTL_WIPING) e = true ∧ (s.engFreset e).h .pwipeAt e = (s.engFreset e).age + usTicks 50 ∧
    (∀ t, t < 8 → (s.engFreset e).tstate e t = tIDLE ∧ ∀ n, (s.engFreset e).tr (thrIdx e t) n = 0) ∧
    (∀ q, q < 64 → (s.engFreset e).eq (64 * e + q) = []) ∧ (∀ h, h < 16 → (s.engFreset e).hatch (16 * e + h) = []) ∧
    (∀ l, (s.engFreset e).cacheGet e l = none) ∧ (s.engFreset e).rd (.eng .CTL_CLK_EN) e = 0 ∧
    (s.engFreset e).rd (.eng .TVEC) e = 0 := by
  obtain ⟨threads, queues, hatches, lines⟩ := s.engBlank_blank e
  rw [State.engFreset_eq]
  generalize usTicks 50 = d
  generalize (s.engBlank e) = u at threads queues hatches lines
  have width : (Fld.eng .CTL_WIPING).desc.width = 1 := rfl
  have kept : ∀ (f : Fld) (i : Nat), f ≠ .eng .CTL_WIPING → ∀ v,
      (((u.resetF (fun g i => engGrp g && g.outer i == e)).wr (.eng .CTL_WIPING) e 1).setH .pwipeAt e v).rd f i =
        (u.resetF (fun g i => engGrp g && g.outer i == e)).rd f i :=
    fun f i other v => (State.rd_wr (s := u.resetF (fun g i => engGrp g && g.outer i == e)) (.eng .CTL_WIPING) f e i 1).trans
      (if_neg (fun c => other c.1))
  have outer : Grp.ENG.outer e = e := Nat.div_one _
  refine ⟨?_, (State.h_setH ..).trans (if_pos ⟨rfl, rfl⟩), fun t less => ⟨?_, (threads t less).2⟩, queues, hatches, lines, ?_, ?_⟩
  · exact (State.on_wr (s := u.resetF (fun g i => engGrp g && g.outer i == e)) (.eng .CTL_WIPING) (.eng .CTL_WIPING) e e 1).trans (by simp [width, trunc])
  · exact (kept _ _ (by simp) _).trans ((State.rd_resetF ..).trans ((if_pos rfl).trans (threads t less).1))
  · refine (kept _ _ (by simp) _).trans ((State.rd_resetF ..).trans (if_neg ?_))
    have grp : (Fld.eng .CTL_CLK_EN).desc.grp = .ENG := rfl
    rw [grp, outer]
    simp [engGrp, EngF.desc, Fld.desc]
  · refine (kept _ _ (by simp) _).trans ((State.rd_resetF ..).trans (if_neg ?_))
    have grp : (Fld.eng .TVEC).desc.grp = .ENG := rfl
    rw [grp, outer]
    simp [engGrp, EngF.desc, Fld.desc]

/-! ## The commands -/

/-- A copy keeps its kind of destination when its handle is written. -/
theorem mdDKIND_put_handle (h md : Nat) : mdDKIND.get (mdHANDLE.put h md) = mdDKIND.get md :=
  bits_putBits_apart (by decide) h md

theorem State.pc_of_parts {s : State} {e : Fin 16} {t : Fin 8} {v : Nat} (low : s.rd (.eng .THR_TPC_PC) (thrIdx e t) = v)
    (high : s.tr (thrIdx e t) rPCHI = 0) : s.pc (.eng e t) = v := by
  show s.rd (.eng .THR_TPC_PC) (thrIdx e t) + 2 ^ 48 * s.tr (thrIdx e t) rPCHI = v
  rw [low, high, Nat.mul_zero, Nat.add_zero]

theorem State.hostBarred_eq_false {s : State} {r : Req} (may : isHost r = false ∨ (s.lc ≠ 2 ∧ s.lc ≠ 3)) :
    s.hostBarred r = false := by
  rcases may with guest | ⟨field, sealed⟩
  · simp [State.hostBarred, guest]
  · simp [State.hostBarred, field, sealed]

section
variable {r : Req} (s : State) (e h v : Nat) (who : r = .reeve ∨ isHost r = true)
  (may : bit (if r = .reeve then 16 else 17) (s.rd (.eng .HATCH_SEND) (16 * e + h)) = true)
include who may

/-- A put whose SEND bit is set, of the Reeve or a host. -/
theorem State.hatchReg_may : s.hatchReg r e h v =
    match s.hatchPut e h v with
    | (true, s) => s
    | (false, s) => s.wr (.eng .HATCH_HREFUSED) (16 * e + h) 1 := by
  have barred : ¬ ((r ≠ .reeve ∧ ¬ isHost r) ∨ ¬ bit (if r = .reeve then 16 else 17) (s.rd (.eng .HATCH_SEND) (16 * e + h))) := by
    rintro (⟨other, guest⟩ | no)
    · exact who.elim other guest
    · exact no may
  exact if_neg barred

theorem State.hatchReg_put (room : (s.hatch (16 * e + h)).length < 16) :
    s.hatchReg r e h v = (s.setHatch (16 * e + h) (s.hatch (16 * e + h) ++ [v])).hatchWake e h := by
  rw [State.hatchReg_may s e h v who may]
  have put : s.hatchPut e h v = (true, _) := if_neg (Nat.not_le.mpr room)
  rw [put]

theorem State.hatchReg_full (full : 16 ≤ (s.hatch (16 * e + h)).length) : s.hatchReg r e h v =
    (s.count (.eng .HATCH_FULL_CNT) (16 * e + h)).wr (.eng .HATCH_HREFUSED) (16 * e + h) 1 := by
  rw [State.hatchReg_may s e h v who may]
  have put : s.hatchPut e h v = (false, _) := if_pos full
  rw [put]

end

/-- Settles O26: each command of an engine is followed through its cases; a mark and a function reset empty the queues and
touch the threads as Table 9.6 says, because the pools, the groups and the events leave them alone. -/
theorem engineCommandsComplete : Obligations.EngineCommandsComplete := by
  unfold Obligations.EngineCommandsComplete
  refine ⟨?start, ?startRefused, ?stopRuns, ?stopWaits, ?stopRefused, ?resume, ?resumeRefused, ?clear, ?clearRefused, ?stopAll,
    ?cinv, ?cinvDone, ?cinvIdle, ?mark, ?marked, ?reset, ?wiped, ?fails, ?failsAgain, ?put, ?putFull, ?putRefused, ?offer,
    ?offerRefused⟩
  case start =>
    intro r e t s reach idle may usable
    have width : (Fld.eng .THR_TCTL_STATE).desc.width = 3 := rfl
    refine ⟨_, next_writeTo reach (if_neg ?_), ?_, ?_, ?_, ?_⟩
    · simp [idle, State.hostBarred_eq_false may, usable]
    · exact (State.rd_wr (s := s.setTstate e t tRUNNING) (.eng .THR_TCAUSE_INTRAP) (.eng .THR_TCTL_STATE) (thrIdx e t)
        (thrIdx e t) 0).trans ((if_neg (by simp)).trans ((State.tstate_setTstate ..).trans (if_pos rfl)))
    · refine (State.tr_setTr (s := ((s.setTstate e t tRUNNING).setTr (thrIdx e t) rLEVEL _).wr (.eng .THR_TCAUSE_INTRAP) (thrIdx e t) 0)
        (thrIdx e t) rPCHI (thrIdx e t) rLEVEL 0).trans ((if_neg (by simp [rLEVEL, rPCHI])).trans ?_)
      refine (State.tr_setTr (s := s.setTstate e t tRUNNING) (thrIdx e t) rLEVEL (thrIdx e t) rLEVEL _).trans ?_
      exact (if_pos ⟨rfl, rfl⟩).trans (State.rd_setTstate _ _ _ _ _ (by simp) (by simp))
    · refine (State.on_wr (s := s.setTstate e t tRUNNING) (.eng .THR_TCAUSE_INTRAP) (.eng .THR_TCAUSE_INTRAP) (thrIdx e t)
        (thrIdx e t) 0).trans ((if_pos ⟨rfl, rfl⟩).trans ?_)
      rw [trunc_zero]
      rfl
    · refine State.pc_of_parts ?_ ((State.tr_setTr (s := ((s.setTstate e t tRUNNING).setTr (thrIdx e t) rLEVEL _).wr
        (.eng .THR_TCAUSE_INTRAP) (thrIdx e t) 0) (thrIdx e t) rPCHI (thrIdx e t) rPCHI 0).trans (if_pos ⟨rfl, rfl⟩))
      refine (State.rd_wr (s := s.setTstate e t tRUNNING) (.eng .THR_TCAUSE_INTRAP) (.eng .THR_TPC_PC) (thrIdx e t)
        (thrIdx e t) 0).trans ((if_neg (by simp)).trans ?_)
      exact State.rd_setTstate _ _ _ _ _ (by simp) (by simp)
  case startRefused =>
    intro r e t s reach barred
    refine next_writeTo reach (if_pos ?_)
    rcases barred with busy | ⟨host, lc⟩
    · exact .inl busy
    · exact .inr (.inl (by simpa [State.hostBarred, host] using lc))
  case stopRuns =>
    intro r e t s reach runs
    exact next_writeTo reach (if_pos runs)
  case stopWaits =>
    intro r e t s reach waits
    exact next_writeTo reach ((if_neg (by rw [waits]; decide)).trans (if_pos waits))
  case stopRefused =>
    intro r e t s reach still awake
    exact next_writeTo reach ((if_neg still).trans (if_neg awake))
  case resume =>
    intro r e t s reach stopped
    exact next_writeTo reach (if_pos stopped)
  case resumeRefused =>
    intro r e t s reach other
    exact next_writeTo reach (if_neg other)
  case clear =>
    intro r e t s reach still awake
    refine ⟨_, next_writeTo reach (if_neg (not_or.mpr ⟨still, awake⟩)), ?_, ?_, ?_, ?_⟩
    · exact (State.tstate_setTstate (s.thrZero e t) e t e t tIDLE).trans (if_pos rfl)
    · refine State.pc_of_parts ?_ ((State.tr_thrZero ..).trans (if_pos rfl))
      refine (State.rd_setTstate (s.thrZero e t) e t tIDLE (thrIdx e t) (by simp) (by simp)).trans ?_
      exact (State.rd_wr ..).trans ((if_pos ⟨rfl, rfl⟩).trans (trunc_zero _))
    · exact fun n => (State.tr_thrZero ..).trans (if_pos rfl)
    · exact fun c n other => (State.tr_thrZero ..).trans (if_neg other)
  case clearRefused =>
    intro r e t s reach busy
    exact next_writeTo reach (if_pos busy)
  case stopAll => exact fun r e s reach => next_writeTo reach rfl
  case cinv => exact fun r e s reach => next_writeTo reach rfl
  case cinvDone =>
    exact fun e s up busy => ⟨next_inUnit_when up busy rfl, fun l => s.cacheGet_cacheClear e l⟩
  case cinvIdle => exact fun e s up idle => next_inUnit_idle up idle
  case mark =>
    intro r e s reach usable
    have width : (Fld.eng .CTL_MARK).desc.width = 1 := rfl
    have before : (s.wr (.eng .CTL_MARK) e 1).on (.eng .CTL_UNUSABLE) e = false := by simp [usable]
    have set : (s.wr (.eng .CTL_MARK) e 1).on (.eng .CTL_MARK) e = true := by simp [width, trunc]
    obtain ⟨unusable, mark, halted, empty⟩ := (s.wr (.eng .CTL_MARK) e 1).engMark_marks e 3 before
    exact ⟨_, next_writeTo reach rfl, unusable, mark.trans set, halted, empty, fun q d => State.eqOffer_unusable _ _ _ _ unusable⟩
  case marked =>
    intro r e s reach unusable
    exact next_writeTo reach (if_pos (by simp [unusable]))
  case reset =>
    intro r e s reach
    have resets := s.engFreset_resets e
    generalize reset : s.engFreset e = u at resets
    exact ⟨u.ok, next_writeTo reach reset, resets⟩
  case wiped =>
    rintro e s w on_ wiping rfl
    refine ⟨next_inDom_when on_ wiping rfl, fun a less => (State.byte_wipe ..).trans (if_pos ⟨rfl, ?_, ?_⟩)⟩
    · omega
    · omega
  case fails =>
    intro e t a s up first
    exact next_inUnit up (if_pos first)
  case failsAgain =>
    intro e t a s up again
    exact next_inUnit up (if_neg again)
  case put =>
    rintro r e h v k s reach rfl who may room
    exact next_writeTo reach (State.hatchReg_put s e h v.toNat who may room)
  case putFull =>
    rintro r e h v k s reach rfl who may full
    exact next_writeTo reach (State.hatchReg_full s e h v.toNat who may full)
  case putRefused =>
    rintro r e h v k s reach rfl who barred
    exact next_writeTo reach (if_pos (.inr (by simp [barred])))
  case offer =>
    rintro e q h md k s on_ takes rfl kind room store
    refine next_inDom on_ ?_
    have taken : s.eqOffer e q { handle := h.toNat, md := mdHANDLE.put h.toNat md.toNat } = (true, _) :=
      (if_neg (fun c => kind ((mdDKIND_put_handle _ _).symm.trans c.2.1))).trans
        (if_neg (by simp only [takes, not_true_eq_false, false_or, not_or, Nat.not_le]; exact ⟨room, store⟩))
    show (match s.eqOffer e q _ with | (true, s) => s | (false, s) => _) = _
    rw [taken]
  case offerRefused =>
    rintro e q h md k s on_ rfl full
    refine next_inDom on_ ?_
    have gathers : ¬ (s.engTakes e ∧ mdDKIND.get (mdHANDLE.put h.toNat md.toNat) = 3 ∧
        mdGFLAGS.get (mdHANDLE.put h.toNat md.toNat) % 2 = 1) := by
      rintro ⟨takes, kind, _⟩
      rcases full with off | ⟨other, _⟩
      · exact Bool.noConfusion (takes.symm.trans off)
      · exact other ((mdDKIND_put_handle _ _).symm.trans kind)
    have refused : s.eqOffer e q { handle := h.toNat, md := mdHANDLE.put h.toNat md.toNat } =
        (false, s.count (.eng .EQ_DROP) (64 * e + q)) := by
      refine (if_neg gathers).trans (if_pos ?_)
      rcases full with off | ⟨_, deep⟩
      · exact .inl (by simp [off])
      · exact .inr deep
    show (match s.eqOffer e q _ with | (true, s) => s | (false, s) => _) = _
    rw [refused]

end Sys2Proof.Machine

/-! How an instruction ends: the next pc, a wait, a trap (R285, R297-R299, R322). -/

namespace Sys2Proof.Machine

/-! ## The pc -/

/-- A pc of 64 bits that was set is read back. -/
theorem State.pc_setPc {s : State} {c : Core} {v : Nat} (tz : isTz c = true) (fits : v < 2 ^ 64) : (s.setPc c v).pc c = v := by
  cases c with
  | eng e t =>
    have width : (Fld.eng .THR_TPC_PC).desc.width = 48 := rfl
    have low : (s.setPc (.eng e t) v).rd (.eng .THR_TPC_PC) (thrIdx e t) = v % 2 ^ 48 :=
      (State.rd_wr (s := s) (.eng .THR_TPC_PC) (.eng .THR_TPC_PC) (thrIdx e t) (thrIdx e t) v).trans (if_pos ⟨rfl, rfl⟩)
    have high : (s.setPc (.eng e t) v).tr (thrIdx e t) rPCHI = bits 48 16 v :=
      (State.tr_setTr ..).trans (if_pos ⟨rfl, rfl⟩)
    show (s.setPc (.eng e t) v).rd _ _ + 2 ^ 48 * (s.setPc (.eng e t) v).tr _ _ = v
    have top : bits 48 16 v = v / 2 ^ 48 := Nat.mod_eq_of_lt (by omega)
    rw [low, high, top]
    omega
  | reeve => exact (State.tr_setTr ..).trans ((if_pos ⟨rfl, rfl⟩).trans (Nat.mod_eq_of_lt fits))
  | wgh => exact (State.tr_setTr ..).trans ((if_pos ⟨rfl, rfl⟩).trans (Nat.mod_eq_of_lt fits))
  | cell c egress => exact nomatch tz

theorem State.tr_setPc_eng (s : State) (e : Fin 16) (t : Fin 8) (v : Nat) {n : Nat} (other : n ≠ rPCHI) :
    (s.setPc (.eng e t) v).tr (thrIdx e t) n = s.tr (thrIdx e t) n :=
  (State.tr_setTr ..).trans (if_neg (fun c => other c.2))

/-- Counting a retired instruction keeps the pc. -/
theorem State.pc_retired (s : State) (c : Core) (n : Nat) : (s.setTr (coreNo c) rINSTRET n).pc c = s.pc c := by
  have kept : ∀ k m, m ≠ rINSTRET → (s.setTr (coreNo c) rINSTRET n).tr k m = s.tr k m :=
    fun k m other => (State.tr_setTr ..).trans (if_neg (fun e => other e.2))
  cases c with
  | eng e t => exact congrArg (s.rd (.eng .THR_TPC_PC) (thrIdx e t) + 2 ^ 48 * ·) (kept _ _ (by decide))
  | reeve => exact kept _ _ (by decide)
  | wgh => exact kept _ _ (by decide)
  | cell c egress => rfl

theorem State.finish_jump (s u : State) {c : Core} (a : Nat) (tz : isTz c = true) : s.finish c (.jump a, u) =
    (u.setPc c a).setTr (coreNo c) rINSTRET (trunc 64 ((u.setPc c a).tr (coreNo c) rINSTRET + 1)) := by
  cases c with
  | cell c egress => exact nomatch tz
  | _ => rfl

theorem State.finish_next (s u : State) {c : Core} (tz : isTz c = true) : s.finish c (.next, u) =
    s.finish c (.jump (s.pc c + 4), u) := by
  cases c with
  | cell c egress => exact nomatch tz
  | _ => rfl

theorem State.pc_finish_jump (s u : State) {c : Core} {a : Nat} (tz : isTz c = true) (fits : a < 2 ^ 64) :
    (s.finish c (.jump a, u)).pc c = a := by
  rw [State.finish_jump s u a tz, State.pc_retired, State.pc_setPc tz fits]

/-! ## Traps of an engine thread -/

section
variable {s : State} {e : Fin 16} {t : Fin 8}

/-- An exception of a thread whose trap vector is open enters the handler. -/
theorem State.trap_enters (k v : Nat) (outside : s.intrap (.eng e t) = false) (vector : s.rd (.eng .TVEC) e ≠ 0) :
    s.trap (.eng e t) k v =
      (((((s.recordTrap (.eng e t) k (s.pc (.eng e t)) v).setTr (thrIdx e t) rPPRV (s.privP (.eng e t)).toNat).wr
        (.eng .THR_TCAUSE_INTRAP) (thrIdx e t) 1).setTr (thrIdx e t) rLEVEL 1).setPc (.eng e t) (s.rd (.eng .TVEC) e)) := by
  have handled : (!s.intrap (.eng e t) && s.tvec (.eng e t) != 0) = true := by
    rw [outside]
    exact bne_iff_ne.mpr vector
  have kept : ((((s.recordTrap (.eng e t) k (s.pc (.eng e t)) v).setTr (thrIdx e t) rPPRV (s.privP (.eng e t)).toNat).wr
        (.eng .THR_TCAUSE_INTRAP) (thrIdx e t) 1).setTr (thrIdx e t) rLEVEL 1).rd (.eng .TVEC) e = s.rd (.eng .TVEC) e := by
    simp [State.recordTrap]
  exact (if_pos handled).trans (congrArg _ kept)

/-- A thread in its handler, or without one, is HALTED by an exception. -/
theorem State.trap_halts (k v : Nat) (closed : s.intrap (.eng e t) = true ∨ s.rd (.eng .TVEC) e = 0) :
    s.trap (.eng e t) k v = ((s.recordTrap (.eng e t) k (s.pc (.eng e t)) v).setTstate e t tHALTED).raise .ENG_THREAD_FAULT
      (locEngine e) t := by
  have unhandled : (!s.intrap (.eng e t) && s.tvec (.eng e t) != 0) = false := by
    rcases closed with inside | novector
    · rw [inside]
      rfl
    · rw [show s.tvec (.eng e t) = 0 from novector]
      exact Bool.and_false _
  exact if_neg (by rw [unhandled]; exact Bool.false_ne_true)

theorem State.preTrap_async {fu : Bool} {a : Nat} (waits : s.tr (thrIdx e t) rASYNC = a + 1) :
    s.preTrap ⟨.eng e t, fu⟩ = some ((s.setTr (thrIdx e t) rASYNC 0).trap (.eng e t) cASYNC a) := by
  have value : s.tr (coreNo (.eng e t)) rASYNC = a + 1 := waits
  refine (if_pos (by rw [value]; exact Nat.succ_ne_zero a)).trans ?_
  rw [value]
  rfl

theorem State.preTrap_fetch {fu : Bool} (none_ : s.tr (thrIdx e t) rASYNC = 0) (barred : s.fetchOk (.eng e t) = false) :
    s.preTrap ⟨.eng e t, fu⟩ = some (s.trap (.eng e t) cFETCH (s.pc (.eng e t))) :=
  (if_neg (not_not_intro none_)).trans (if_pos (by rw [barred]; exact Bool.false_ne_true))

theorem State.preTrap_fetched {fu : Bool} (none_ : s.tr (thrIdx e t) rASYNC = 0) (may : s.fetchOk (.eng e t) = true) :
    s.preTrap ⟨.eng e t, fu⟩ = if fu then some (s.trap (.eng e t) cFETCH_UE (s.pc (.eng e t))) else none :=
  (if_neg (not_not_intro none_)).trans (if_neg (not_not_intro may))

theorem State.fetchOk_eq_false (outside : 0x400000 ≤ s.pc (.eng e t) ∨ (s.privP (.eng e t) = false ∧
    s.on (.eng .PATTR_U_X) (1024 * e + s.pc (.eng e t) / 4096) = false)) : s.fetchOk (.eng e t) = false := by
  unfold State.fetchOk
  rcases outside with beyond | ⟨user, page⟩
  · simp [Nat.not_lt.mpr beyond]
  · simp [user, page]

end

/-! ## Registers -/

theorem State.g_setG {s : State} {c : Core} {n : Nat} (v : Nat) (named : n ≠ 0) : (s.setG c n v).g c n = v % 2 ^ 64 := by
  unfold State.g State.setG
  rw [if_neg named, if_neg named]
  exact (State.tr_setTr ..).trans (if_pos ⟨rfl, rfl⟩)

theorem State.p_setP {s : State} {c : Core} {n : Nat} (v : Nat) (named : n ≠ 0) : (s.setP c n v).p c n = v % 2 ^ 64 := by
  unfold State.p State.setP
  rw [if_neg named, if_neg named]
  exact (State.tr_setTr ..).trans (if_pos ⟨rfl, rfl⟩)

/-- Settles O28: what precedes an instruction and what each of its ends leaves, read off `State.issue`, `State.finish` and
`State.trap`. -/
theorem instructionEndings : Obligations.InstructionEndings := by
  unfold Obligations.InstructionEndings
  refine ⟨?idle, ?skipped, ?illegal, ?next, ?jump, fun _ _ _ => rfl, ?exc, fun _ _ _ _ _ _ => ⟨rfl, rfl⟩, ?enters, ?halts, ?async,
    ?fetch, ?fetched, fun _ _ _ => ⟨rfl, rfl, rfl, rfl⟩, fun _ _ v _ named => ⟨State.g_setG v named, State.p_setP v named⟩⟩
  case idle =>
    intro x k w l f s still
    exact if_pos (by rw [still]; exact Bool.false_ne_true)
  case skipped =>
    intro x k w l f s can pre zero
    unfold State.issue
    rw [if_neg (not_not_intro can), pre]
    exact if_pos zero
  case illegal => exact fun x k w f s issues => issues.illegal rfl
  case next =>
    intro e t s u fits
    rw [State.finish_next s u (c := .eng e t) rfl]
    refine ⟨State.pc_finish_jump s u rfl (by omega), ?_, fun n count high => ?_, fun r a => ?_⟩
    · rw [State.finish_jump s u _ rfl]
      refine (State.tr_setTr ..).trans ((if_pos ⟨rfl, rfl⟩).trans ?_)
      exact congrArg (fun n => (n + 1) % 2 ^ 64) (State.tr_setPc_eng u e t _ (by decide))
    · rw [State.finish_jump s u _ rfl]
      exact (State.tr_setTr ..).trans ((if_neg (fun c => count c.2)).trans (State.tr_setPc_eng u e t _ high))
    · rfl
  case jump => exact fun c a s u tz fits => State.pc_finish_jump s u tz fits
  case exc =>
    intro c k v s u tz
    cases c with
    | cell c egress => exact nomatch tz
    | _ => rfl
  case enters =>
    intro e t k v s outside vector vfits pfits kfits valfits
    refine ⟨_, State.trap_enters k v outside vector, ?_, ?_, ?_, ?_, ?_, ?_, ?_, ?_⟩
    · have width : (Fld.eng .THR_TEPC_EPC).desc.width = 48 := rfl
      simpa [State.recordTrap, State.setPc, width, trunc] using pfits
    · have width : (Fld.eng .THR_TCAUSE_CAUSE).desc.width = 8 := rfl
      simpa [State.recordTrap, State.setPc, width, trunc] using kfits
    · have width : (Fld.eng .THR_TVAL_VAL).desc.width = 64 := rfl
      simpa [State.recordTrap, State.setPc, width, trunc] using valfits
    · rw [State.tr_setPc_eng _ _ _ _ (by decide)]
      simp [rLEVEL, rPPRV]
    · have width : (Fld.eng .THR_TCAUSE_INTRAP).desc.width = 1 := rfl
      simp [State.intrap, State.setPc, width, trunc]
    · rw [State.privP, State.tr_setPc_eng _ _ _ _ (by decide)]
      simp
    · exact State.pc_setPc rfl (by omega)
    · simp [State.tstate, State.recordTrap, State.setPc]
  case halts => exact fun e t k v s closed => State.trap_halts k v closed
  case async => exact fun e t fu a s waits => State.preTrap_async waits
  case fetch => exact fun e t fu s none_ outside => State.preTrap_fetch none_ (State.fetchOk_eq_false outside)
  case fetched => exact fun e t s none_ may => ⟨State.preTrap_fetched none_ may, State.preTrap_fetched none_ may⟩

end Sys2Proof.Machine

/-! The integer, immediate, compare, predicate and bit-field instructions (R325-R327, Tables 10.1 and 10.2). -/

namespace Sys2Proof.Machine

theorem gOk_of_lt {n : Nat} (c : Core) (low : n < 16) : gOk c n = true := by
  cases c with
  | cell c egress => exact decide_eq_true low
  | _ => rfl

theorem gOk_of_tz {c : Core} (n : Nat) (tz : isTz c = true) : gOk c n = true := by
  cases c with
  | cell c egress => exact nomatch tz
  | _ => rfl

section
variable {s : State} {x : Issue}

/-- An instruction of major 0x00 that the core has. -/
theorem Issues.alu {f a b : Nat} {i : RIns} (issues : Issues s x i.pred) (d : gOk x.core i.d = true) (ga : gOk x.core i.a = true)
    (gb : gOk x.core i.b = true) (has : (isTz x.core || f < 9 || 11 < f) = true) (isA : a = s.g x.core i.a)
    (isB : b = s.g x.core i.b) : s.tzAlu x f i = s.finish x.core (.next, s.setG x.core i.d (aluOp f a b)) :=
  issues.ends (by rw [d, ga, gb, has]; rfl) (by rw [isA, isB])

/-- An instruction with an immediate. -/
theorem Issues.aluI {op a m : Nat} {i : IIns} (issues : Issues s x i.pred) (d : gOk x.core i.d = true)
    (ga : gOk x.core i.a = true) (isA : a = s.g x.core i.a) (isM : m = u64 (toS 12 i.imm.toNat)) :
    s.tzAluI x op i = s.finish x.core (.next, s.setG x.core i.d
      (if op = 1 then a + m else if op = 2 then a &&& m else if op = 3 then a ||| m else a ^^^ m)) :=
  issues.ends (by rw [d, ga]; rfl) (by rw [isA, isM]; rfl)

/-- A shift by an immediate. -/
theorem Issues.shiftI {k a n : Nat} {i : IIns} (issues : Issues s x i.pred) (d : gOk x.core i.d = true)
    (ga : gOk x.core i.a = true) (clear : bits 8 4 i.imm.toNat = 0) (code : k < 3) (isA : a = s.g x.core i.a)
    (isN : n = bits 0 6 i.imm.toNat) : s.tzShiftI x k i = s.finish x.core (.next, s.setG x.core i.d (aluOp (5 + k) a n)) :=
  issues.ends (by simp [d, ga, clear, code]) (by rw [isA, isN])

/-- A bit-field instruction whose field lies in the register. -/
theorem Issues.bitField {ins pos len : Nat} {i : IIns} (issues : Issues s x i.pred) (d : gOk x.core i.d = true)
    (ga : gOk x.core i.a = true) (isPos : pos = bits 0 6 i.imm.toNat) (isLen : len = bits 6 5 i.imm.toNat + 1)
    (inside : pos + len ≤ 64) : s.tzBf x ins i = s.finish x.core (.next, s.setG x.core i.d
      (if ins = 0 then bits pos len (s.g x.core i.a) else putBits pos len (s.g x.core i.a) (s.g x.core i.d))) := by
  subst isPos isLen
  unfold State.tzBf
  refine issues.ends ?_ ?_
  · rw [d, ga]
    exact decide_eq_true inside
  · rfl

end

/-- The quotient that does not fit: the smallest value over −1 (R326). -/
theorem div_overflow : aluOp 0x0A (2 ^ 63) (2 ^ 64 - 1) = 2 ^ 63 ∧ aluOp 0x0B (2 ^ 63) (2 ^ 64 - 1) = 0 := by decide

/-- Settles O29: each instruction issues with legal fields and its body computes the operation of its table's row. -/
theorem integerInstructionsComplete : Obligations.IntegerInstructionsComplete := by
  unfold Obligations.IntegerInstructionsComplete
  refine ⟨?alu, ?divide, ?noDivide, ?immediate, ?shift, ?shiftIllegal, ?lui, ?cmp, ?cmpi, ?cmpiIllegal, ?predicates, ?moves,
    ?fields, ?fieldIllegal⟩
  case alu =>
    intro x i a b s issues d ga gb isA isB
    have runs : ∀ f : Nat, (isTz x.core || f < 9 || 11 < f) = true →
        (.next (s.tzAlu x f i) : Host.Outcome State Fault Refusal) =
          .next (s.finish x.core (.next, s.setG x.core i.d (aluOp f a b))) :=
      fun f has => congrArg _ (issues.alu d ga gb has isA isB)
    exact ⟨runs 0 (by simp), runs 1 (by simp), runs 2 (by simp), runs 3 (by simp), runs 4 (by simp), runs 5 (by simp),
      runs 6 (by simp), runs 7 (by simp), runs 8 (by simp), runs 12 (by simp), runs 13 (by simp), runs 14 (by simp),
      runs 15 (by simp)⟩
  case divide =>
    intro x i a b s issues tz isA isB
    have runs : ∀ f : Nat, (.next (s.tzAlu x f i) : Host.Outcome State Fault Refusal) =
          .next (s.finish x.core (.next, s.setG x.core i.d (aluOp f a b))) :=
      fun f => congrArg _ (issues.alu (gOk_of_tz _ tz) (gOk_of_tz _ tz) (gOk_of_tz _ tz) (by rw [tz]; rfl) isA isB)
    have result : ∀ {f v : Nat}, aluOp f a b = v → (.next (s.tzAlu x f i) : Host.Outcome State Fault Refusal) =
        .next (s.finish x.core (.next, s.setG x.core i.d v)) := fun is => is ▸ runs _
    refine ⟨result rfl, fun zero => ?_, fun least minus => ?_, fun some_ => ?_⟩
    · exact ⟨result (if_pos zero), result (if_pos zero)⟩
    · subst least minus
      exact ⟨result div_overflow.1, result div_overflow.2⟩
    · exact ⟨result (if_neg some_), result (if_neg some_)⟩
  case noDivide =>
    intro x i s issues cell
    exact congrArg _ (issues.illegal (by rw [cell]; simp))
  case immediate =>
    intro x i a m s issues d ga isA isM
    have runs : ∀ op : Nat, (.next (s.tzAluI x op i) : Host.Outcome State Fault Refusal) = .next _ :=
      fun op => congrArg _ (issues.aluI d ga isA isM)
    exact ⟨runs 1, runs 2, runs 3, runs 4⟩
  case shift =>
    intro x i a n s issues d ga clear isA isN
    have small : n % 64 = n := Nat.mod_eq_of_lt (isN ▸ Nat.mod_lt _ (by decide))
    have runs : ∀ {k v : Nat}, k < 3 → aluOp (5 + k) a (n % 64) = v →
        (.next (s.tzShiftI x k i) : Host.Outcome State Fault Refusal) =
          .next (s.finish x.core (.next, s.setG x.core i.d v)) := by
      rintro k v code rfl
      rw [small]
      exact congrArg _ (issues.shiftI d ga clear code isA isN)
    refine ⟨runs (by decide) ?_, runs (by decide) ?_, runs (by decide) ?_⟩ <;>
      simp only [aluOp, small] <;> rfl
  case shiftIllegal =>
    intro x i s issues set_
    refine ⟨_, congrArg _ (issues.illegal ?_)⟩
    simp [set_]
  case lui => exact fun x i s issues d => congrArg _ (issues.ends d rfl)
  case cmp =>
    intro x f i a b s issues d ga gb isA isB code
    refine congrArg _ (issues.ends (f := fun s => (.next, s.setP x.core i.d (allIf (cond f (s.g x.core i.a) (s.g x.core i.b)))))
      ?_ ?_)
    · simp [pOk_of_lt d, ga, gb, code]
    · subst isA isB
      obtain ⟨f, small⟩ := f
      have codes : f = 0 ∨ f = 1 ∨ f = 2 ∨ f = 3 ∨ f = 4 ∨ f = 5 := by
        have below : f < 6 := code
        omega
      rcases codes with rfl | rfl | rfl | rfl | rfl | rfl
      all_goals simp [cond, allIf, bne]
  case cmpi =>
    intro x i s issues d ga code
    refine congrArg Host.Outcome.next (?_ : s.tzCmpi x i = _)
    unfold State.tzCmpi
    refine issues.ends ?_ ?_
    · simp [pOk_of_lt d, ga, code]
    · rfl
  case cmpiIllegal =>
    intro x i s issues code
    refine congrArg Host.Outcome.next (?_ : s.tzCmpi x i = _)
    unfold State.tzCmpi
    refine issues.illegal ?_
    simp [Nat.not_lt.mpr code]
  case predicates =>
    intro x i a b s issues d pa pb isA isB
    have runs : ∀ f : Nat, (.next (s.tzPred x f i) : Host.Outcome State Fault Refusal) =
        .next (s.finish x.core (.next, s.setP x.core i.d (predOp f a b))) := fun f =>
      congrArg _ (issues.ends (by rw [pOk_of_lt d, pOk_of_lt pa, pOk_of_lt pb]; rfl) (by rw [isA, isB]))
    exact ⟨runs 0, runs 1, runs 2, runs 3⟩
  case moves =>
    intro x i s issues zero d pa
    have b0 : i.b = 0 := Fin.ext zero
    refine ⟨congrArg _ (issues.ends (by simp [b0, pOk_of_lt d, pOk_of_lt pa]) (by rfl)),
      congrArg _ (issues.ends ?_ (by rfl)), congrArg _ (issues.ends ?_ (by rfl))⟩
    · simp [b0, pOk_of_lt d, gOk_of_lt x.core (show i.a.val < 16 by omega)]
    · simp [b0, pOk_of_lt pa, gOk_of_lt x.core (show i.d.val < 16 by omega)]
  case fields =>
    intro x i pos len s issues d ga isPos isLen inside
    have runs : ∀ ins : Nat, (.next (s.tzBf x ins i) : Host.Outcome State Fault Refusal) = .next _ :=
      fun ins => congrArg _ (issues.bitField d ga isPos isLen inside)
    exact ⟨runs 0, runs 1⟩
  case fieldIllegal =>
    intro x i s issues beyond
    refine ⟨encI 0x0A (IIns.sel i 11 1 0), congrArg Host.Outcome.next (?_ : s.tzBf x 0 i = _)⟩
    unfold State.tzBf
    refine issues.illegal ?_
    simp only [Nat.add_assoc] at beyond
    simp [beyond]

end Sys2Proof.Machine

/-! The branch, time, event and system instructions (R313, R328, R346, R347, R352-R354). -/

namespace Sys2Proof.Machine

section
variable {s : State} {x : Issue}

theorem State.branchTo_aligned {d base tgt : Nat} {off : Int} (c : Core) (isTgt : tgt = u64 ((base : Int) + 4 * off))
    (aligned : tgt % 4 = 0) : s.branchTo c d base off = (.jump tgt, s.setG c d (s.pc c + 4)) := by
  subst isTgt
  exact if_neg (not_not_intro aligned)

theorem State.branchTo_misaligned {d base tgt : Nat} {off : Int} (c : Core) (isTgt : tgt = u64 ((base : Int) + 4 * off))
    (misaligned : tgt % 4 ≠ 0) : s.branchTo c d base off = (.exc cMISALIGN tgt, s) := by
  subst isTgt
  exact if_pos misaligned

/-- A branch that is taken: `brn` is 1 for major 0x11, whose predicate is not p0. -/
theorem Issues.branches {i : IIns} {brn base : Nat} (issues : Issues s x 0) (tz : isTz x.core = true)
    (isBase : base = if i.a = 0 then s.pc x.core else s.g x.core i.a) (named : (brn == 0 || i.pred != 0) = true)
    (taken : s.p x.core i.pred % 2 = 1 - brn) : s.tzBr x brn i =
      s.finish x.core (s.branchTo x.core i.d base (toS 12 i.imm.toNat)) :=
  issues.ends (by rw [tz, named]; rfl) ((if_pos taken).trans (by rw [isBase]))

theorem Issues.passes {i : IIns} {brn : Nat} (issues : Issues s x 0) (tz : isTz x.core = true)
    (named : (brn == 0 || i.pred != 0) = true) (passed : s.p x.core i.pred % 2 ≠ 1 - brn) :
    s.tzBr x brn i = s.finish x.core (.next, s) :=
  issues.ends (by rw [tz, named]; rfl) (if_neg passed)

end

/-- A value below half the range is its own signed reading. -/
theorem toS_low {n : Nat} (low : n < 2 ^ 11) : toS 12 n = n := by
  unfold toS
  rw [Nat.mod_eq_of_lt (by omega)]
  exact if_pos low

/-- CYCLE reads a free value (log entry 25). -/
theorem State.csr_cycle (s : State) (c : Core) : s.csr c 0x10 = s.freeVal 64 := by cases c <;> rfl

/-- halt leaves the thread IDLE at the next instruction. -/
theorem State.idle_after_halt {s : State} (u : State) {e : Fin 16} {t : Fin 8} (fits : s.pc (.eng e t) + 4 < 2 ^ 48) :
    (s.finish (.eng e t) (.halt, u)).tstate e t = tIDLE ∧
    (s.finish (.eng e t) (.halt, u)).rd (.eng .THR_TPC_PC) (thrIdx e t) = s.pc (.eng e t) + 4 := by
  have width : (Fld.eng .THR_TPC_PC).desc.width = 48 := rfl
  have rds : ∀ f i, (s.finish (.eng e t) (.halt, u)).rd f i =
      ((u.setPc (.eng e t) (s.pc (.eng e t) + 4)).setTstate e t tIDLE).rd f i := fun _ _ => rfl
  refine ⟨(rds _ _).trans ((State.tstate_setTstate ..).trans (if_pos rfl)), (rds _ _).trans ?_⟩
  rw [State.rd_setTstate _ _ _ _ _ (by simp) (by simp)]
  refine (State.rd_wr (s := u) (.eng .THR_TPC_PC) (.eng .THR_TPC_PC) (thrIdx e t) (thrIdx e t) _).trans
    ((if_pos ⟨rfl, rfl⟩).trans ?_)
  rw [width]
  exact Nat.mod_eq_of_lt fits

theorem normTime_eq (u : Int) : normTime u = of96 (if u < 0 then 0 else if uMax < u then uMax else u.toNat) := by
  unfold normTime
  congr 1
  split
  · rfl
  · split <;> omega

theorem sat64_eq (d : Int) : sat64 d = u64 (if d < -(2 ^ 63) then -(2 ^ 63) else if 2 ^ 63 - 1 < d then 2 ^ 63 - 1 else d) := by
  unfold sat64
  congr 1
  split
  · omega
  · split <;> omega

theorem sysZero_of {i : RIns} (a : i.a = 0) (b : i.b = 0) (d : i.d = 0) : sysZero i = true := by
  simp [sysZero, a, b, d]

/-- Settles O30: each instruction issues with legal fields and its body comes to the end its rule gives. -/
theorem controlInstructionsComplete : Obligations.ControlInstructionsComplete := by
  unfold Obligations.ControlInstructionsComplete
  refine ⟨?taken, ?misaligned, ?passed, ?jal, ?skip, ?skipIllegal, ?tnow, ?tcmp, ?tadd, normTime_eq, ?tsub, ?tmov, ?tmovParts,
    ?tset, ?trap, ?system, ?yield, ?halt, ?csrr, ?cycle, ?unlisted, ?csrw, ?csrwUser, ?readOnly, fun _ _ _ => rfl, ?evraise,
    ?evraiseCell⟩
  case taken =>
    intro x i base tgt s issues tz isBase isTgt aligned
    refine ⟨fun one => congrArg Host.Outcome.next (?_ : s.tzBr x 0 i = _), fun zero named =>
      congrArg Host.Outcome.next (?_ : s.tzBr x 1 i = _)⟩
    · exact (issues.branches tz isBase rfl one).trans (congrArg _ (State.branchTo_aligned _ isTgt aligned))
    · exact (issues.branches tz isBase (by simp [named]) zero).trans (congrArg _ (State.branchTo_aligned _ isTgt aligned))
  case misaligned =>
    intro x i base tgt s issues tz isBase isTgt misaligned one
    exact congrArg _ ((issues.branches tz isBase rfl one).trans (congrArg _ (State.branchTo_misaligned _ isTgt misaligned)))
  case passed =>
    intro x i s issues tz
    refine ⟨fun zero => congrArg _ (issues.passes tz rfl (by omega)), fun one named => congrArg _
      (issues.passes tz (by simp [named]) (by omega)), fun p0 => congrArg _ (issues.illegal ?_)⟩
    simp [p0]
  case jal =>
    intro x i tgt s issues tz isTgt aligned
    exact congrArg _ (issues.ends tz (State.branchTo_aligned _ isTgt aligned))
  case skip =>
    rintro x i n s issues tz a d rfl low high
    refine congrArg Host.Outcome.next (?_ : s.tzSkip x i = _)
    have forward : 0 < toS 12 i.imm.toNat := by
      rw [toS_low]
      · omega
      · omega
    exact issues.ends (by simp [a, d, tz, forward]) (by rfl)
  case skipIllegal =>
    intro x i s issues outside
    refine congrArg Host.Outcome.next (?_ : s.tzSkip x i = _)
    have back : ¬ 0 < toS 12 i.imm.toNat := by
      have small := i.imm.isLt
      unfold toS
      rw [Nat.mod_eq_of_lt small]
      split <;> omega
    exact issues.illegal (by simp [back])
  case tnow =>
    intro x i s issues d a b
    exact congrArg _ (issues.ends (by simp [d, a, b]) (by rfl))
  case tcmp =>
    intro x f i a b s issues d ta tb code isA isB
    refine congrArg Host.Outcome.next (?_ : s.tzTcmp x f i = _)
    unfold State.tzTcmp
    refine issues.ends ?_ ?_
    · simp [pOk_of_lt d, ta, tb, code]
    · subst isA isB
      obtain ⟨f, small⟩ := f
      have codes : f = 0 ∨ f = 1 ∨ f = 2 ∨ f = 3 := by
        have below : f < 4 := code
        omega
      rcases codes with rfl | rfl | rfl | rfl
      all_goals simp [allIf, bne]
  case tadd =>
    intro x i s issues d a b
    exact congrArg _ (issues.ends (by rw [d, a, b]; rfl) (by rfl))
  case tsub =>
    rintro x i _ s issues d a b rfl
    exact congrArg _ (issues.ends (by rw [d, a, b]; rfl) (by rw [sat64_eq]))
  case tmov =>
    intro x i s issues d a
    exact congrArg _ (issues.ends (by rw [a, if_pos rfl, d]; rfl) (by rfl))
  case tmovParts =>
    intro x i s issues d a
    exact ⟨congrArg _ (issues.ends (by rw [a, if_neg (by decide), d]; rfl) (by rfl)),
      congrArg _ (issues.ends (by rw [a, if_neg (by decide), d]; rfl) (by rfl))⟩
  case tset =>
    intro x i s issues d a b
    exact congrArg _ (issues.ends (by rw [d, a, b]; rfl) (by rw [bits, Nat.pow_zero, Nat.div_one]))
  case trap =>
    intro x i s issues tz d
    exact congrArg _ ((issues.ends (by simp [tz, d]) (by rfl)).trans (State.finish_exc_of_tz tz _ _ _))
  case system =>
    intro x i s issues tz a b d
    have zero := sysZero_of a b d
    have legal : (isTz x.core && sysZero i) = true := by rw [tz, zero]; rfl
    refine ⟨congrArg _ (issues.ends legal (by rfl)), congrArg _ (issues.ends legal (by rfl)),
      congrArg _ ((issues.ends legal (by rfl)).trans (State.finish_exc_of_tz tz _ _ _)), fun inside level => ?_, fun outside => ?_,
      fun inside level => ?_⟩
    · exact congrArg _ (issues.ends (by rw [legal, inside]; rfl) (if_pos level))
    · exact congrArg _ ((issues.illegal (by rw [legal, outside]; rfl)).trans (State.finish_exc_of_tz tz _ _ _))
    · exact congrArg _ ((issues.ends (by rw [legal, inside]; rfl) (if_neg (by simp [level]))).trans
        (State.finish_exc_of_tz tz _ _ _))
  case yield =>
    intro e t fu i s issues a b d
    exact congrArg _ (issues.ends (by rw [sysZero_of a b d]; rfl) (by rfl))
  case halt => exact fun e t s u fits => State.idle_after_halt u fits
  case csrr =>
    rintro x i _ s issues tz a rfl listed may other
    refine congrArg Host.Outcome.next (?_ : s.tzCsrr x i = _)
    unfold State.tzCsrr
    refine issues.ends (by simp [tz, a, listed]) ((if_neg ?_).trans ?_)
    · rintro ⟨user, number⟩
      exact may.elim user number
    · simp [other]
  case cycle =>
    intro x i s issues tz a cycle level
    refine congrArg Host.Outcome.next (?_ : s.tzCsrr x i = _)
    unfold State.tzCsrr
    refine issues.ends (by simp [tz, a, cycle, csrListed]) ((if_neg (by simp [level])).trans ?_)
    rw [cycle, State.csr_cycle]
    rfl
  case unlisted =>
    intro x i s issues unlisted
    refine ⟨encI 0x71 (IIns.sel i 11 1 0), congrArg Host.Outcome.next (?_ : s.tzCsrr x i = _)⟩
    unfold State.tzCsrr
    exact issues.illegal (by simp [unlisted])
  case csrw =>
    intro x i s issues tz d listed level
    refine congrArg Host.Outcome.next (?_ : s.tzCsrw x i = _)
    unfold State.tzCsrw
    exact issues.ends (by simp [tz, d, listed]) (if_neg (by simp [level]))
  case csrwUser =>
    intro x i s issues tz d listed level
    refine ⟨encI 0x71 (IIns.sel i 11 1 1), congrArg Host.Outcome.next (?_ : s.tzCsrw x i = _)⟩
    unfold State.tzCsrw
    exact (issues.ends (by simp [tz, d, listed]) (if_pos (by simp [level]))).trans (State.finish_exc_of_tz tz _ _ _)
  case readOnly =>
    intro c n v s fixed
    rcases fixed with rfl | rfl | rfl <;> cases c <;> rfl
  case evraise =>
    intro e t fu i s issues a d
    exact congrArg _ (issues.ends (by simp [a, d]) (by rfl))
  case evraiseCell =>
    intro c eg fu i s issues a d
    exact congrArg _ (issues.ends (r := (.next, _)) (by simp [a, d]) (by rfl))

end Sys2Proof.Machine

/-! Numbers in memory: what a word that was written reads back, and what it leaves of the other words. -/

namespace Sys2Proof.Machine

theorem leNat_leBytes (n v : Nat) : leNat (leBytes n v) = v % 256 ^ n := by
  induction n generalizing v with
  | zero => exact (Nat.mod_one v).symm
  | succ n ih =>
    show (BitVec.ofNat 8 v).toNat + 256 * leNat (leBytes n (v / 256)) = _
    rw [ih, BitVec.toNat_ofNat]
    exact ((congrArg (v % ·) Nat.pow_succ').trans Nat.mod_mul).symm

variable {s t : State} {r : Region} {a n : Nat}

/-- Octets that agree make up the same bytes. -/
theorem State.bytes_congr (agree : ∀ d, a ≤ d → d < a + n → t.byte r d = s.byte r d) : t.bytes r a n = s.bytes r a n := by
  induction n generalizing a with
  | zero => rfl
  | succ n ih =>
    show t.byte r a :: t.bytes r (a + 1) n = s.byte r a :: s.bytes r (a + 1) n
    rw [agree a (Nat.le_refl a) (by omega), ih (fun d low high => agree d (by omega) (by omega))]

theorem State.bytes_of_getD {l : List Byte} (agree : ∀ k, k < l.length → s.byte r (a + k) = l.getD k 0) :
    s.bytes r a l.length = l := by
  induction l generalizing a with
  | nil => rfl
  | cons b l ih =>
    show s.byte r a :: s.bytes r (a + 1) l.length = b :: l
    have first : s.byte r a = b := agree 0 (Nat.succ_pos _)
    rw [first, ih (fun k less => by
      rw [Nat.add_right_comm a 1 k]
      exact agree (k + 1) (Nat.succ_lt_succ less))]

theorem State.byte_wrMem_apart (q : Region) (v d : Nat) (apart : q ≠ r ∨ d < a ∨ a + n ≤ d) :
    (s.wrMem r a n v).byte q d = s.byte q d := by
  refine (State.byte_setBytes ..).trans (if_neg ?_)
  rw [length_leBytes]
  rintro ⟨same, low, high⟩
  rcases apart with other | below | above
  · exact other same
  · omega
  · omega

/-- A word that was written reads its value, cut to its octets. -/
theorem State.rdMem_wrMem (v : Nat) : (s.wrMem r a n v).rdMem r a n = v % 2 ^ (8 * n) := by
  have back : (s.wrMem r a n v).bytes r a (leBytes n v).length = leBytes n v :=
    State.bytes_of_getD (fun k less => by
      refine (State.byte_setBytes ..).trans ((if_pos ⟨rfl, by omega, by omega⟩).trans ?_)
      rw [Nat.add_sub_cancel_left])
  rw [length_leBytes] at back
  have octets : 256 ^ n = 2 ^ (8 * n) := (Nat.pow_mul 2 8 n).symm
  exact (congrArg leNat back).trans ((leNat_leBytes n v).trans (congrArg (v % ·) octets))

theorem State.rdMem_wrMem_apart {b m : Nat} (v : Nat) (apart : a + n ≤ b ∨ b + m ≤ a) :
    (s.wrMem r a n v).rdMem r b m = s.rdMem r b m :=
  congrArg leNat (State.bytes_congr (fun d low high => State.byte_wrMem_apart _ _ _ (.inr (by omega))))

end Sys2Proof.Machine

/-! The frame and lookup instructions, on engines and in stage cells (R314, R315, R338-R345, R356). -/

namespace Sys2Proof.Machine

/-! ## Frames on an engine -/

theorem bits_zero_lsb (w n : Nat) : bits 0 w n = n % 2 ^ w := by
  rw [bits, Nat.pow_zero, Nat.div_one]

section
variable {s : State} {e : Fin 16} {t : Fin 8}

theorem State.frExc_beyond {a o n : Nat} {write : Bool} (c : Core) (valid : s.handleOk (s.g c a % 2 ^ 32) = true)
    (may : hPool (s.g c a % 2 ^ 32) = 0 ∨ s.privP c = true)
    (beyond : s.frameBound (s.g c a % 2 ^ 32) < bits 32 16 (s.g c a) + o + n) :
    s.frExc c a o n write = some (if write then cSTORE else cLOAD, bits 32 16 (s.g c a) + o) := by
  unfold State.frExc
  rw [bits_zero_lsb]
  refine (if_neg (not_not_intro valid)).trans ((if_neg ?_).trans (if_pos (.inl beyond)))
  rintro ⟨cellar, user, _⟩
  exact may.elim cellar user

theorem State.frExc_badHandle {a o n : Nat} {write : Bool} (c : Core) (invalid : s.handleOk (s.g c a % 2 ^ 32) = false) :
    s.frExc c a o n write = some (if write then cSTORE else cLOAD, bits 32 16 (s.g c a) + o) := by
  unfold State.frExc
  rw [bits_zero_lsb]
  exact if_pos (by rw [invalid]; exact Bool.false_ne_true)

theorem State.badHandle_valid {a : Nat} (c : Core) (valid : s.handleOk (s.g c a % 2 ^ 32) = true) : s.badHandle c a = s := by
  unfold State.badHandle
  rw [bits_zero_lsb]
  exact if_pos valid

theorem State.badHandle_invalid {a : Nat} (c : Core) (invalid : s.handleOk (s.g c a % 2 ^ 32) = false) :
    s.badHandle c a = s.count (.pool .STAT_BAD_HANDLE) (hPool (s.g c a % 2 ^ 32)) := by
  unfold State.badHandle
  rw [bits_zero_lsb]
  exact if_neg (by rw [invalid]; exact Bool.false_ne_true)

section
variable {fu : Bool} {i : IIns} (issues : Issues s ⟨.eng e t, fu⟩ i.pred)
include issues

theorem Issues.fext_eng {ue : Bool} {r : Sig × State}
    (body : s.fextEng (.eng e t) i.d i.a (bits 0 10 i.imm.toNat) (2 ^ bits 10 2 i.imm.toNat) ue = r) :
    s.tzFext ⟨.eng e t, fu⟩ ue i = s.finish (.eng e t) r := by
  unfold State.tzFext
  refine issues.ends ?_ ?_
  · rfl
  · exact body

theorem Issues.fins_eng {r : Sig × State}
    (body : (match s.frExc (.eng e t) i.a (bits 0 10 i.imm.toNat) (2 ^ bits 10 2 i.imm.toNat) true with
        | some (cause, v) => (.exc cause v, s.badHandle (.eng e t) i.a)
        | none => (.next, s.setFrameBytes (bits 0 32 (s.g (.eng e t) i.a)) (bits 32 16 (s.g (.eng e t) i.a) + bits 0 10 i.imm.toNat)
          (beBytes (2 ^ bits 10 2 i.imm.toNat) (s.g (.eng e t) i.d)))) = r) :
    s.tzFins ⟨.eng e t, fu⟩ i = s.finish (.eng e t) r := by
  unfold State.tzFins
  refine issues.ends ?_ ?_
  · rfl
  · exact body

end

/-- fext and fins on an engine (R338, R339). -/
theorem frames_on_engine (fu ue : Bool) (i : IIns) (o n h off : Nat) (c : Core) (isC : c = .eng e t)
    (issues : Issues s ⟨c, fu⟩ i.pred) (isO : o = bits 0 10 i.imm.toNat) (isN : n = 2 ^ bits 10 2 i.imm.toNat)
    (isH : h = s.g c i.a % 2 ^ 32) (isOff : off = bits 32 16 (s.g c i.a) + o) :
    (s.frExc c i.a o n false = none →
      exec (.fext ⟨c, fu⟩ false i) s = .next (s.finish c (.next, s.setG c i.d (beNat (s.frameBytes h off n)))) ∧
      exec (.fext ⟨c, fu⟩ true i) s = .next (s.trap c cDATA_UE off)) ∧
    (s.frExc c i.a o n true = none →
      exec (.fins ⟨c, fu⟩ i) s = .next (s.finish c (.next, s.setFrameBytes h off (beBytes n (s.g c i.d))))) ∧
    (s.handleOk h = true → (hPool h = 0 ∨ s.privP c = true) → s.frameBound h < off + n →
      exec (.fext ⟨c, fu⟩ ue i) s = .next (s.trap c cLOAD off) ∧ exec (.fins ⟨c, fu⟩ i) s = .next (s.trap c cSTORE off)) ∧
    (s.handleOk h = false →
      exec (.fext ⟨c, fu⟩ ue i) s = .next ((s.count (.pool .STAT_BAD_HANDLE) (hPool h)).trap c cLOAD off)) := by
  subst isC isO isN isH isOff
  have reads : ∀ {ue : Bool} {r : Sig × State}, s.fextEng (.eng e t) i.d i.a (bits 0 10 i.imm.toNat)
      (2 ^ bits 10 2 i.imm.toNat) ue = r → exec (.fext ⟨.eng e t, fu⟩ ue i) s = .next (s.finish (.eng e t) r) :=
    fun body => congrArg Host.Outcome.next (issues.fext_eng body)
  refine ⟨fun clear => ⟨reads ?_, reads (r := (.exc cDATA_UE _, s)) ?_⟩, fun clear => congrArg Host.Outcome.next
    (issues.fins_eng ?_), fun valid may beyond => ⟨reads (r := (.exc cLOAD _, s)) ?_, congrArg Host.Outcome.next
    (issues.fins_eng (r := (.exc cSTORE _, s)) ?_)⟩, fun invalid => reads (r := (.exc cLOAD _, _)) ?_⟩
  · unfold State.fextEng
    rw [clear, bits_zero_lsb 32]
    rfl
  · unfold State.fextEng
    rw [clear]
    rfl
  · rw [clear, bits_zero_lsb 32]
  · unfold State.fextEng
    rw [State.frExc_beyond _ valid may beyond]
    exact congrArg _ (State.badHandle_valid _ valid)
  · rw [State.frExc_beyond _ valid may beyond]
    exact congrArg _ (State.badHandle_valid _ valid)
  · unfold State.fextEng
    rw [State.frExc_badHandle _ invalid]
    exact congrArg _ (State.badHandle_invalid _ invalid)

end

/-! ## Frames in a stage cell -/

section
variable {s : State} {n : Fin 96} {eg fu : Bool}

/-- fext and fins in a stage cell (Table 10.11). -/
theorem frames_in_cell (ue : Bool) (i : IIns) (o w off : Nat) (c : Core) (t : Track) (isC : c = .cell n eg)
    (issues : Issues s ⟨c, fu⟩ i.pred) (d : i.d.val < 16) (a : i.a.val < 16) (isO : o = bits 0 10 i.imm.toNat)
    (isW : w = 2 ^ bits 10 2 i.imm.toNat) (isOff : off = s.g c i.a + o) (isT : t = s.track (trackNo n eg)) :
    (off + w ≤ t.win.length → off + w ≤ t.extent →
      exec (.fext ⟨c, fu⟩ ue i) s = .next (s.setG c i.d (beNat (octetsAt t.win off w)))) ∧
    (t.win.length < off + w → off + w ≤ t.extent →
      exec (.fext ⟨c, fu⟩ ue i) s = .next (((s.setTrack (trackNo n eg) { t with md := mdSHORT.put 1 t.md }).count
        (.core .PAIR_CNT_PROG_FAULT) (cellPair n)).setG c i.d (beNat (octetsAt t.win off w)))) ∧
    (t.extent < off + w →
      exec (.fext ⟨c, fu⟩ ue i) s = .next ((s.setG c i.d 0).count (.core .PAIR_CNT_PROG_FAULT) (cellPair n))) ∧
    (off + w ≤ t.win.length →
      exec (.fins ⟨c, fu⟩ i) s = .next (s.setTrack (trackNo n eg) { t with
        win := octetsPut t.win off (beBytes w (s.g c i.d)) })) ∧
    (t.win.length < off + w →
      exec (.fins ⟨c, fu⟩ i) s = .next (s.count (.core .PAIR_CNT_PROG_FAULT) (cellPair n))) := by
  subst isC isO isW isOff isT
  have legal : ((isEng (.cell n eg) || isCell (.cell n eg)) && gOk (.cell n eg) i.d && gOk (.cell n eg) i.a) = true := by
    rw [gOk_of_lt _ d, gOk_of_lt _ a]
    rfl
  have reads : ∀ {u : State}, s.fextCell (.cell n eg) (trackNo n eg) i.d i.a (bits 0 10 i.imm.toNat)
      (2 ^ bits 10 2 i.imm.toNat) = (.next, u) → exec (.fext ⟨.cell n eg, fu⟩ ue i) s = .next u :=
    fun body => congrArg Host.Outcome.next (by
      unfold State.tzFext
      refine issues.ends (r := (.next, _)) ?_ ?_
      · exact legal
      · exact body)
  refine ⟨fun inside extent => reads ((if_neg (Nat.not_lt.mpr extent)).trans ?_), fun short extent =>
    reads ((if_neg (Nat.not_lt.mpr extent)).trans ?_), fun beyond => reads (if_pos beyond), fun inside =>
    congrArg Host.Outcome.next ?_, fun short => congrArg Host.Outcome.next ?_⟩
  · rw [if_neg (Nat.not_lt.mpr inside)]
  · rw [if_pos short]
    rfl
  · unfold State.tzFins
    refine issues.ends (r := (.next, _)) ?_ ?_
    · exact legal
    · exact if_neg (Nat.not_lt.mpr inside)
  · unfold State.tzFins
    refine issues.ends (r := (.next, _)) ?_ ?_
    · exact legal
    · exact if_pos short

end

/-! ## Correction fields -/

theorem State.cfSat_fits {s : State} {v : Int} (loc : Nat) (low : -(2 ^ 63) ≤ v) (high : v < 2 ^ 63) :
    s.cfSat v loc = (ofS 64 v, s) := if_neg (by omega)

theorem State.cfSat_beyond {s : State} {v : Int} (loc : Nat) (beyond : v < -(2 ^ 63) ∨ 2 ^ 63 ≤ v) :
    (s.cfSat v loc).1 = 0x7FFFFFFFFFFFFFFF := congrArg Prod.fst (if_pos (by omega))

/-- fcfadd on an engine (R341). -/
theorem Issues.fcfadd_eng {s w : State} {e : Fin 16} {t : Fin 8} {fu : Bool} {i : RIns} {f cf : Nat} {l : List Byte}
    (issues : Issues s ⟨.eng e t, fu⟩ i.pred) (code : f < 3) (clear : s.frExc (.eng e t) i.a 0 16 true = none)
    (isL : l = s.frameBytes (s.g (.eng e t) i.a % 2 ^ 32) 0 (s.frameBound (s.g (.eng e t) i.a % 2 ^ 32)))
    (trailer : f ≠ 2 ∨ trailerAt l (bits 32 16 (s.g (.eng e t) i.a)) ≠ none)
    (sum : s.cfSat (toS 64 (beNat (octetsAt l (bits 32 16 (s.g (.eng e t) i.a) + 8) 8)) + s64 (s.g (.eng e t) i.b))
      (locEngine e) = (cf, w)) :
    s.tzFcfadd ⟨.eng e t, fu⟩ f i = s.finish (.eng e t) (.next, (w.setFrameBytes (s.g (.eng e t) i.a % 2 ^ 32) 0
      (cfStore l (bits 32 16 (s.g (.eng e t) i.a)) f cf)).setG (.eng e t) i.d cf) := by
  have present : ¬ (f = 2 ∧ trailerAt l (bits 32 16 (s.g (.eng e t) i.a)) = none) := by
    rintro ⟨two, absent⟩
    exact trailer.elim (· two) (· absent)
  unfold State.tzFcfadd
  refine issues.ends ?_ ?_
  · simp [isEng, gOk, code]
  · show s.fcfaddEng (.eng e t) f i.d i.a i.b = _
    unfold State.fcfaddEng
    rw [clear, bits_zero_lsb]
    dsimp only
    rw [← isL, if_neg present, sum]

/-- fcfadd in a stage cell on a frame that has no checksum trailer. -/
theorem Issues.fcfadd_cell_untrailed {s : State} {n : Fin 96} {eg fu : Bool} {i : RIns}
    (issues : Issues s ⟨.cell n eg, fu⟩ i.pred) (d : i.d.val < 16) (a : i.a.val < 16) (b : i.b.val < 16)
    (inside : s.g (.cell n eg) i.a + 16 ≤ (s.track (trackNo n eg)).win.length)
    (absent : trailerAt (s.track (trackNo n eg)).win (s.g (.cell n eg) i.a) = none) :
    s.tzFcfadd ⟨.cell n eg, fu⟩ 2 i = (s.setG (.cell n eg) i.d
      (beNat (octetsAt (s.track (trackNo n eg)).win (s.g (.cell n eg) i.a + 8) 8))).count
        (.core .PAIR_CNT_PROG_FAULT) (cellPair n) := by
  unfold State.tzFcfadd
  refine issues.ends (r := (.next, _)) ?_ ?_
  · rw [gOk_of_lt _ d, gOk_of_lt _ a, gOk_of_lt _ b]
    rfl
  · exact (if_neg (Nat.not_lt.mpr inside)).trans (if_pos ⟨rfl, absent⟩)

/-! ## Metadata -/

section
variable {s : State} {n : Fin 96} {eg fu : Bool} {i : IIns} (issues : Issues s ⟨.cell n eg, fu⟩ i.pred)

/-- An aligned field of the metadata lies within its 64 octets. -/
theorem md_inside {m o w : Nat} (isO : o = bits 0 6 m) (isW : w = 2 ^ bits 10 2 m) (aligned : o % w = 0) : o + w ≤ 64 := by
  have low : o < 64 := isO ▸ Nat.mod_lt _ (by decide)
  have widths : ∀ k, k < 4 → w = 2 ^ k → o + w ≤ 64 := by
    intro k less isK
    have codes : k = 0 ∨ k = 1 ∨ k = 2 ∨ k = 3 := by omega
    rw [isK] at aligned ⊢
    rcases codes with rfl | rfl | rfl | rfl <;> omega
  exact widths _ (Nat.mod_lt _ (by decide)) isW

include issues

theorem Issues.mdld_cell {o w : Nat} (d : i.d.val < 16) (clear : bits 6 4 i.imm.toNat = 0) (isO : o = bits 0 6 i.imm.toNat)
    (isW : w = 2 ^ bits 10 2 i.imm.toNat) :
    (o % w = 0 → s.tzMdld ⟨.cell n eg, fu⟩ i = s.setG (.cell n eg) i.d (bits (8 * o) (8 * w) (s.track (trackNo n eg)).md)) ∧
    (o % w ≠ 0 → s.tzMdld ⟨.cell n eg, fu⟩ i = (s.setG (.cell n eg) i.d 0).count (.core .PAIR_CNT_PROG_FAULT) (cellPair n)) := by
  have legal : (isCell (.cell n eg) && gOk (.cell n eg) i.d && bits 6 4 i.imm.toNat == 0) = true := by
    rw [gOk_of_lt _ d, clear]
    rfl
  have inside : o % w = 0 → o + w ≤ 64 := md_inside isO isW
  subst isO isW
  unfold State.tzMdld
  refine ⟨fun aligned => issues.ends (r := (.next, _)) legal (if_neg ?_), fun misaligned =>
    issues.ends (r := (.next, _)) legal (if_pos (Or.inl misaligned))⟩
  rintro (misaligned | beyond)
  · exact misaligned aligned
  · exact absurd (inside aligned) (Nat.not_le.mpr beyond)

theorem Issues.mdst_cell {o w : Nat} (d : i.d.val < 16) (clear : bits 6 4 i.imm.toNat = 0) (isO : o = bits 0 6 i.imm.toNat)
    (isW : w = 2 ^ bits 10 2 i.imm.toNat) :
    (o % w = 0 → (∀ k, k < 8 * w → mdForbidden (cellStage n) eg (8 * o + k) = false ∧ mdListed (8 * o + k) = true) →
      s.tzMdst ⟨.cell n eg, fu⟩ i = s.setTrack (trackNo n eg) { s.track (trackNo n eg) with
        md := putBits (8 * o) (8 * w) (s.g (.cell n eg) i.d) (s.track (trackNo n eg)).md }) ∧
    ((o % w ≠ 0 ∨ ∃ k, k < 8 * w ∧ mdForbidden (cellStage n) eg (8 * o + k) = true) →
      s.tzMdst ⟨.cell n eg, fu⟩ i = s.count (.core .PAIR_CNT_PROG_FAULT) (cellPair n)) := by
  have legal : (isCell (.cell n eg) && gOk (.cell n eg) i.d && bits 6 4 i.imm.toNat == 0) = true := by
    rw [gOk_of_lt _ d, clear]
    rfl
  have inside : o % w = 0 → o + w ≤ 64 := md_inside isO isW
  subst isO isW
  refine ⟨fun aligned free => ?_, fun barred => ?_⟩
  · have none_ : ¬ (List.range (8 * 2 ^ bits 10 2 i.imm.toNat)).any
        (fun k => mdForbidden (cellStage n) eg (8 * bits 0 6 i.imm.toNat + k)) = true := by
      simp only [List.any_eq_true, List.mem_range, not_exists, not_and]
      exact fun k less => by simp [(free k less).1]
    have same : ∀ m v, m ≤ 8 * 2 ^ bits 10 2 i.imm.toNat → (List.range m).foldl
        (fun v k => if mdListed (8 * bits 0 6 i.imm.toNat + k) then v else clrBit k v) v = v := by
      intro m v
      induction m with
      | zero => exact fun _ => rfl
      | succ m ih =>
        intro less
        rw [List.range_succ, List.foldl_append, ih (by omega)]
        exact if_pos (free m (by omega)).2
    unfold State.tzMdst
    refine issues.ends (r := (.next, _)) legal ((if_neg ?_).trans ?_)
    · rw [not_or, not_or]
      exact ⟨not_not_intro aligned, Nat.not_lt.mpr (inside aligned), none_⟩
    · exact congrArg (fun v => (Sig.next, s.setTrack (trackNo n eg) { s.track (trackNo n eg) with
        md := putBits (8 * bits 0 6 i.imm.toNat) (8 * 2 ^ bits 10 2 i.imm.toNat) v (s.track (trackNo n eg)).md }))
        (same _ (s.g (.cell n eg) i.d) (Nat.le_refl _))
  · unfold State.tzMdst
    refine issues.ends (r := (.next, _)) legal (if_pos ?_)
    rcases barred with misaligned | ⟨k, less, forbidden⟩
    · exact .inl misaligned
    · exact .inr (.inr (List.any_eq_true.mpr ⟨k, List.mem_range.mpr less, forbidden⟩))

end

/-! ## The window -/

/-- A value of the upper half of the range reads negative. -/
theorem toS_high {n m : Nat} (sum : m + n = 4096) (some_ : 1 ≤ m) (low : m ≤ 64) : toS 12 n = -(m : Int) := by
  unfold toS
  rw [Nat.mod_eq_of_lt (by omega), if_neg (by omega)]
  omega

section
variable {s : State} {n : Fin 96} {eg fu : Bool} {i : IIns} (issues : Issues s ⟨.cell n eg, fu⟩ i.pred) (d : i.d = 0)
  (a : i.a.val < 16)
include issues d a

/-- fwin with a count that inserts. -/
theorem Issues.fwin_inserts (some_ : 1 ≤ i.imm.toNat) (low : i.imm.toNat ≤ 32) :
    (s.g (.cell n eg) i.a ≤ (s.track (trackNo n eg)).win.length → (s.track (trackNo n eg)).ins + i.imm.toNat ≤ 32 →
      s.tzFwin ⟨.cell n eg, fu⟩ i = s.setTrack (trackNo n eg) { s.track (trackNo n eg) with
        win := (s.track (trackNo n eg)).win.take (s.g (.cell n eg) i.a) ++ List.replicate i.imm.toNat 0 ++
          (s.track (trackNo n eg)).win.drop (s.g (.cell n eg) i.a)
        ins := (s.track (trackNo n eg)).ins + i.imm.toNat
        md := mdLEN.put (mdLEN.get (s.track (trackNo n eg)).md + i.imm.toNat) (s.track (trackNo n eg)).md }) ∧
    (32 < (s.track (trackNo n eg)).ins + i.imm.toNat →
      s.tzFwin ⟨.cell n eg, fu⟩ i = s.count (.core .PAIR_CNT_PROG_FAULT) (cellPair n)) := by
  have value : toS 12 i.imm.toNat = (i.imm.toNat : Int) := toS_low (by omega)
  have range : ((1 ≤ (i.imm.toNat : Int) && (i.imm.toNat : Int) ≤ 32) || (-64 ≤ (i.imm.toNat : Int) && (i.imm.toNat : Int) ≤ -1)) =
      true := by
    rw [decide_eq_true (by omega), decide_eq_true (by omega)]
    rfl
  unfold State.tzFwin
  dsimp only
  rw [value]
  refine ⟨fun inside room => issues.ends (r := (.next, _)) ?_ ((if_pos (by omega)).trans ((if_neg ?_).trans ?_)), fun full =>
    issues.ends (r := (.next, _)) ?_ ((if_pos (by omega)).trans (if_pos (Or.inr full)))⟩
  · rw [gOk_of_lt _ a, d, range]
    rfl
  · rintro (beyond | full)
    · exact absurd inside (Nat.not_le.mpr beyond)
    · exact absurd room (Nat.not_le.mpr full)
  · rfl
  · rw [gOk_of_lt _ a, d, range]
    rfl

/-- fwin with a count that removes. -/
theorem Issues.fwin_removes {m : Nat} (count : m + i.imm.toNat = 4096) (some_ : 1 ≤ m) (low : m ≤ 64)
    (inside : s.g (.cell n eg) i.a + m ≤ (s.track (trackNo n eg)).win.length) (room : (s.track (trackNo n eg)).del + m ≤ 64) :
    s.tzFwin ⟨.cell n eg, fu⟩ i = s.setTrack (trackNo n eg) { s.track (trackNo n eg) with
      win := (s.track (trackNo n eg)).win.take (s.g (.cell n eg) i.a) ++
        (s.track (trackNo n eg)).win.drop (s.g (.cell n eg) i.a + m)
      del := (s.track (trackNo n eg)).del + m
      md := mdLEN.put (mdLEN.get (s.track (trackNo n eg)).md - m) (s.track (trackNo n eg)).md } := by
  have value : toS 12 i.imm.toNat = -(m : Int) := toS_high count some_ low
  have range : ((1 ≤ -(m : Int) && -(m : Int) ≤ 32) || (-64 ≤ -(m : Int) && -(m : Int) ≤ -1)) = true := by
    rw [decide_eq_true (show -64 ≤ -(m : Int) by omega), decide_eq_true (show -(m : Int) ≤ -1 by omega)]
    exact Bool.or_true _
  have back : (- -(m : Int)).toNat = m := by omega
  unfold State.tzFwin
  dsimp only
  rw [value, back]
  refine issues.ends (r := (.next, _)) ?_ ((if_neg (by omega)).trans ((if_neg ?_).trans ?_))
  · rw [gOk_of_lt _ a, d, range]
    rfl
  · rintro (beyond | full)
    · exact absurd inside (Nat.not_le.mpr beyond)
    · exact absurd room (Nat.not_le.mpr full)
  · rfl

end

/-! ## Lookups -/

/-- A lookup on an engine keeps its result (R343). -/
theorem Issues.lk_eng {s w : State} {e : Fin 16} {t : Fin 8} {fu : Bool} {i : IIns} {kind tb key : Nat} {r : LkRes}
    (issues : Issues s ⟨.eng e t, fu⟩ i.pred) (d : i.d = 0) (clear : bits 7 5 i.imm.toNat = 0) (isTb : tb = bits 0 6 i.imm.toNat)
    (isKey : key = s.lkKey (.eng e t) i.a ((s.rd (.core .TBL_KEY_BITS) tb + 63) / 64))
    (found : s.look tb kind (bits 6 1 i.imm.toNat) key = (r, w)) : s.tzLk ⟨.eng e t, fu⟩ kind i = s.finish (.eng e t) (.next,
      ((w.setTr (thrIdx e t) (rLK kind) 1).setTr (thrIdx e t) (rLK kind + 1) r.hit.toNat).setTr (thrIdx e t) (rLK kind + 2)
        r.data) := by
  subst isTb isKey
  unfold State.tzLk
  refine issues.ends ?_ ?_
  · rw [d, clear]
    rfl
  · dsimp only
    rw [found]
    rfl

/-- A table of the other kind, or one that is off, gives a miss. -/
theorem State.look_other {s : State} {tb kind b key : Nat} (other : s.tblKind tb ≠ kind + 1) :
    s.look tb kind b key = (⟨false, 0⟩, s) := if_pos other

/-- The first lookup of its kind in a stage cell, on a table bound to the stage (R225, R343). -/
theorem Issues.lk_cell {s w : State} {n : Fin 96} {eg fu : Bool} {i : IIns} {kind tb key : Nat} {r : LkRes}
    (issues : Issues s ⟨.cell n eg, fu⟩ i.pred) (d : i.d = 0) (a : i.a.val < 16) (clear : bits 6 6 i.imm.toNat = 0)
    (isTb : tb = bits 0 6 i.imm.toNat) (isKey : key = s.lkKey (.cell n eg) i.a ((s.rd (.core .TBL_KEY_BITS) tb + 63) / 64))
    (first : 2 ≤ cellStage n) (last : cellStage n ≤ 7) (isOn : s.tblKind tb ≠ 0) (bound : s.rd (.core .TBL_STAGE) tb = cellStage n)
    (fresh : ∀ e ∈ (s.track (trackNo n eg)).look, e.1 ≠ (cellStage n, kind))
    (found : s.look tb kind (mdBANK.get (s.track (trackNo n eg)).md) key = (r, w)) :
    s.tzLk ⟨.cell n eg, fu⟩ kind i = w.setTrack (trackNo n eg) { s.track (trackNo n eg) with
      look := ((cellStage n, kind), r) :: (s.track (trackNo n eg)).look } := by
  have parts : bits 7 5 i.imm.toNat = 0 ∧ bits 6 1 i.imm.toNat = 0 := by
    unfold bits at clear ⊢
    omega
  have once : (s.track (trackNo n eg)).look.any (fun e => e.1 == (cellStage n, kind)) = false := by
    rw [List.any_eq_false]
    exact fun e member same => fresh e member (beq_iff_eq.mp same)
  subst isTb isKey
  unfold State.tzLk
  refine issues.ends (r := (.next, _)) ?_ ((if_neg ?_).trans ?_)
  · rw [d, gOk_of_lt _ a, parts.1, parts.2]
    rfl
  · rw [once]
    rintro (low | high | again | off | other)
    · exact absurd first (Nat.not_le.mpr low)
    · exact absurd last (Nat.not_le.mpr high)
    · exact Bool.false_ne_true again
    · exact isOn off
    · exact other bound
  · rw [found]
    rfl

/-- The kept result of an engine's lookup (R343, R344). -/
theorem Issues.lkres_eng {s : State} {e : Fin 16} {t : Fin 8} {fu : Bool} {i : IIns} {k m : Nat}
    (issues : Issues s ⟨.eng e t, fu⟩ i.pred) (clear : bits 7 5 i.imm.toNat = 0) (stage : bits 0 3 i.imm.toNat = 0)
    (isK : k = bits 3 1 i.imm.toNat) (isM : m = thrIdx e t) :
    (bits 6 1 i.imm.toNat = 0 → s.tzLkres ⟨.eng e t, fu⟩ i = s.finish (.eng e t) (.next, s.setG (.eng e t) i.d
      (if s.tr m (rLK k) = 1 ∧ s.tr m (rLK k + 1) = 1 then bits (64 * bits 4 2 i.imm.toNat) 64 (s.tr m (rLK k + 2)) else 0))) ∧
    (bits 6 1 i.imm.toNat = 1 → i.d.val < 8 → s.tzLkres ⟨.eng e t, fu⟩ i = s.finish (.eng e t) (.next, s.setP (.eng e t) i.d
      (if s.tr m (rLK k) = 1 ∧ s.tr m (rLK k + 1) = 1 then ones64 else 0))) := by
  subst isK isM
  refine ⟨fun word => ?_, fun predicate d => ?_⟩
  · unfold State.tzLkres
    dsimp only
    rw [word]
    refine issues.ends ?_ ?_
    · rw [clear, stage]
      rfl
    · refine congrArg (fun u => (Sig.next, s.setG (.eng e t) i.d u)) (if_congr ?_ rfl rfl)
      simp only [Bool.and_eq_true, beq_iff_eq]
      rfl
  · unfold State.tzLkres
    dsimp only
    rw [predicate]
    refine issues.ends ?_ ?_
    · rw [clear, stage, pOk_of_lt d]
      rfl
    · refine congrArg (fun u => (Sig.next, s.setP (.eng e t) i.d u)) (if_congr ?_ rfl rfl)
      simp only [Bool.and_eq_true, beq_iff_eq]
      rfl

/-- lkres too early in a stage cell is a miss that is counted. -/
theorem Issues.lkres_early {s : State} {n : Fin 96} {eg fu : Bool} {i : IIns} (issues : Issues s ⟨.cell n eg, fu⟩ i.pred)
    (clear : bits 7 5 i.imm.toNat = 0) (word : bits 6 1 i.imm.toNat = 0) (d : i.d.val < 16)
    (early : cellStage n < bits 0 3 i.imm.toNat + 2) :
    s.tzLkres ⟨.cell n eg, fu⟩ i = (s.setG (.cell n eg) i.d 0).count (.core .PAIR_CNT_PROG_FAULT) (cellPair n) := by
  unfold State.tzLkres
  dsimp only
  rw [word]
  refine issues.ends (r := (.next, _)) ?_ ?_
  · rw [clear]
    simp [isCell, gOk_of_lt _ d]
  · cases (s.track (trackNo n eg)).look.find? (fun e => e.1 == (bits 0 3 i.imm.toNat, bits 3 1 i.imm.toNat)) with
    | none => rfl
    | some e => exact if_pos early

/-! ## lkupd -/

/-- What lkupd writes of an entry into the block (R345). -/
def State.lkEntry (w : State) (f base : Nat) (o : LkOut) : State :=
  match o.ent with
  | none => w
  | some en =>
    let s := (w.wrMem .pantry (base + 160) 32 en.data).wrMem .pantry (base + 196) 1 en.vis
    if f = 5 then (s.wrMem .pantry base 80 en.key).wrMem .pantry (base + 80) 80 en.mask else s

/-- What lkupd writes into the block (R345). -/
def State.lkBlock (w : State) (f base : Nat) (o : LkOut) : State :=
  if 4 ≤ f ∧ f ≠ 6 ∧ o.code = lkOK then (w.lkEntry f base o).wrMem .pantry (base + 192) 4 o.index else w.lkEntry f base o

section
variable {w : State} {f base : Nat} {o : LkOut}

theorem block_apart {r : Region} {a : Nat} (outside : r ≠ .pantry ∨ a < base ∨ base + 256 ≤ a) (k n : Nat)
    (inside : k + n ≤ 256) : r ≠ .pantry ∨ a < base + k ∨ base + k + n ≤ a := outside.imp_right (by omega)

theorem State.byte_lkEntry_outside (r : Region) (a : Nat) (outside : r ≠ .pantry ∨ a < base ∨ base + 256 ≤ a) :
    (w.lkEntry f base o).byte r a = w.byte r a := by
  unfold State.lkEntry
  split
  · rfl
  · dsimp only
    split
    · rw [State.byte_wrMem_apart _ _ _ (block_apart outside 80 80 (by decide)),
        State.byte_wrMem_apart _ _ _ (show r ≠ .pantry ∨ a < base ∨ base + 80 ≤ a from block_apart outside 0 80 (by decide)),
        State.byte_wrMem_apart _ _ _ (block_apart outside 196 1 (by decide)),
        State.byte_wrMem_apart _ _ _ (block_apart outside 160 32 (by decide))]
    · rw [State.byte_wrMem_apart _ _ _ (block_apart outside 196 1 (by decide)),
        State.byte_wrMem_apart _ _ _ (block_apart outside 160 32 (by decide))]

theorem State.byte_lkBlock_outside (r : Region) (a : Nat) (outside : r ≠ .pantry ∨ a < base ∨ base + 256 ≤ a) :
    (w.lkBlock f base o).byte r a = w.byte r a := by
  unfold State.lkBlock
  split
  · rw [State.byte_wrMem_apart _ _ _ (block_apart outside 192 4 (by decide)), State.byte_lkEntry_outside r a outside]
  · exact State.byte_lkEntry_outside r a outside

theorem State.rdMem_lkBlock {b m : Nat} (apart : b + m ≤ base + 192 ∨ base + 196 ≤ b) :
    (w.lkBlock f base o).rdMem .pantry b m = (w.lkEntry f base o).rdMem .pantry b m := by
  unfold State.lkBlock
  split
  · exact State.rdMem_wrMem_apart _ (by omega)
  · rfl

/-- The data of the entry stands in the block. -/
theorem State.lkEntry_data {en : LkEntry} (entry : o.ent = some en) :
    (w.lkEntry f base o).rdMem .pantry (base + 160) 32 = en.data % 2 ^ 256 := by
  unfold State.lkEntry
  rw [entry]
  dsimp only
  split
  · rw [State.rdMem_wrMem_apart _ (by omega), State.rdMem_wrMem_apart _ (by omega), State.rdMem_wrMem_apart _ (by omega),
      State.rdMem_wrMem]
  · rw [State.rdMem_wrMem_apart _ (by omega), State.rdMem_wrMem]

/-- READ by index brings the key and the mask too. -/
theorem State.lkEntry_key {en : LkEntry} (entry : o.ent = some en) (byIndex : f = 5) :
    (w.lkEntry f base o).rdMem .pantry base 80 = en.key % 2 ^ 640 ∧
    (w.lkEntry f base o).rdMem .pantry (base + 80) 80 = en.mask % 2 ^ 640 := by
  unfold State.lkEntry
  rw [entry]
  dsimp only
  rw [if_pos byIndex, State.rdMem_wrMem_apart _ (by omega), State.rdMem_wrMem, State.rdMem_wrMem]
  have size : 8 * 80 = 640 := rfl
  exact ⟨congrArg (fun n => en.key % 2 ^ n) size, congrArg (fun n => en.mask % 2 ^ n) size⟩

end

section
variable {s : State} {e : Fin 16} {t : Fin 8} {fu : Bool} {f : Nat} {i : RIns}
  (issues : Issues s ⟨.eng e t, fu⟩ i.pred) (code : f < 8)
include issues code

theorem Issues.lkupd_user (user : s.privP (.eng e t) = false) :
    s.tzLkupd ⟨.eng e t, fu⟩ f i = s.trap (.eng e t) cPRIV (encR 0x4B f i) := by
  unfold State.tzLkupd
  refine issues.ends (r := (.exc _ _, s)) (decide_eq_true code) (if_pos ?_)
  rw [user]
  exact Bool.false_ne_true

theorem Issues.lkupd_misaligned (level : s.privP (.eng e t) = true) (misaligned : s.g (.eng e t) i.a % 64 ≠ 0) :
    s.tzLkupd ⟨.eng e t, fu⟩ f i = s.trap (.eng e t) cMISALIGN (s.g (.eng e t) i.a) := by
  unfold State.tzLkupd
  exact issues.ends (r := (.exc _ _, s)) (decide_eq_true code) ((if_neg (not_not_intro level)).trans (if_pos misaligned))

theorem Issues.lkupd_beyond (level : s.privP (.eng e t) = true) (aligned : s.g (.eng e t) i.a % 64 = 0)
    (beyond : 0x400000 < s.g (.eng e t) i.a + 256) :
    s.tzLkupd ⟨.eng e t, fu⟩ f i = s.trap (.eng e t) cLOAD (s.g (.eng e t) i.a) := by
  unfold State.tzLkupd
  exact issues.ends (r := (.exc _ _, s)) (decide_eq_true code)
    ((if_neg (not_not_intro level)).trans ((if_neg (not_not_intro aligned)).trans (if_pos beyond)))

/-- lkupd runs its command and writes its results. -/
theorem Issues.lkupd_runs {base : Nat} {o : LkOut} {w : State} (level : s.privP (.eng e t) = true)
    (aligned : s.g (.eng e t) i.a % 64 = 0) (inside : s.g (.eng e t) i.a + 256 ≤ 0x400000)
    (isBase : base = e * 0x400000 + s.g (.eng e t) i.a)
    (runs : s.lkRun f ⟨s.g (.eng e t) i.b % 64, s.rdMem .pantry base 80, s.rdMem .pantry (base + 80) 80,
      s.rdMem .pantry (base + 160) 32, bits 0 22 (s.rdMem .pantry (base + 192) 4),
      bits 0 2 (s.rdMem .pantry (base + 196) 1)⟩ = (o, w)) :
    s.tzLkupd ⟨.eng e t, fu⟩ f i = s.finish (.eng e t)
      (.next, (w.lkBlock f base o).setG (.eng e t) i.d (o.code + 8 * o.hit.toNat + o.index * 2 ^ 16)) := by
  subst isBase
  unfold State.tzLkupd
  refine issues.ends (decide_eq_true code) ((if_neg (not_not_intro level)).trans ((if_neg (not_not_intro aligned)).trans
    ((if_neg (Nat.not_lt.mpr inside)).trans ?_)))
  have table : bits 0 6 (s.g (.eng e t) i.b) = s.g (.eng e t) i.b % 64 := bits_zero_lsb 6 _
  dsimp only
  rw [table, runs]
  rfl

end

/-- Settles O33: each instruction issues with legal fields; what its body does is said once per core by the lemmas above. -/
theorem frameInstructionsComplete : Obligations.FrameInstructionsComplete := by
  unfold Obligations.FrameInstructionsComplete
  refine ⟨fun e t fu ue i o n h off c s isC issues => frames_on_engine fu ue i o n h off c isC issues,
    fun n eg fu ue i o w off c t s isC issues => frames_in_cell ue i o w off c t isC issues, ?sums, by decide, ?fcfadd,
    fun v loc s => State.cfSat_fits loc, fun v loc s => State.cfSat_beyond loc, ?untrailed, ?code3, ?onThreads, ?metadata, ?window,
    ?lkEng, fun tb kind b key s => State.look_other, ?lkCell, ?lkres, ?early, ?lkupdRefused, ?lkupd⟩
  case sums =>
    intro x f i s issues has d a b code
    refine congrArg _ (issues.ends ?_ (by rfl))
    have core : (isEng x.core || isCell x.core) = true := by
      rcases has with eng | cell
      · rw [eng]
        rfl
      · rw [cell]
        exact Bool.or_true _
    rw [core, d, a, b]
    exact decide_eq_true code
  case fcfadd =>
    rintro e t fu f i l hd h cf c s w rfl issues code rfl rfl clear isL trailer sum
    exact congrArg _ (issues.fcfadd_eng code clear isL trailer sum)
  case untrailed =>
    rintro n eg fu ⟨f, _⟩ i h c t s rfl issues d a b rfl rfl rfl inside absent
    exact congrArg _ (issues.fcfadd_cell_untrailed d a b inside absent)
  case code3 =>
    intro x f i s issues code
    refine congrArg _ (issues.illegal ?_)
    rw [decide_eq_false (Nat.not_lt.mpr code)]
    exact Bool.and_false _
  case onThreads =>
    intro x i s issues tz
    have thread : isCell x.core = false := by
      cases core : x.core with
      | cell n eg => rw [core] at tz; exact nomatch tz
      | _ => rfl
    refine ⟨congrArg Host.Outcome.next (?_ : s.tzMdld x i = _), congrArg Host.Outcome.next (?_ : s.tzMdst x i = _), congrArg Host.Outcome.next (?_ : s.tzFwin x i = _)⟩
    · unfold State.tzMdld
      refine (issues.illegal ?_).trans (State.finish_exc_of_tz tz _ _ _)
      rw [thread]
      rfl
    · unfold State.tzMdst
      refine (issues.illegal ?_).trans (State.finish_exc_of_tz tz _ _ _)
      rw [thread]
      rfl
    · unfold State.tzFwin
      refine (issues.illegal ?_).trans (State.finish_exc_of_tz tz _ _ _)
      rw [thread]
      rfl
  case metadata =>
    rintro n eg fu i o w c t s rfl issues d clear isO isW rfl
    obtain ⟨reads, refusesRead⟩ := issues.mdld_cell d clear isO isW
    obtain ⟨writes, refusesWrite⟩ := issues.mdst_cell d clear isO isW
    exact ⟨fun aligned => congrArg _ (reads aligned), fun misaligned => congrArg _ (refusesRead misaligned),
      fun aligned free => congrArg _ (writes aligned free), fun barred => congrArg _ (refusesWrite barred)⟩
  case window =>
    rintro n eg fu i o m c t s rfl issues d a rfl rfl
    refine ⟨?_, fun count some_ low inside room => congrArg _ (issues.fwin_removes d a count some_ low inside room), ?_⟩
    · rintro rfl some_ low inside room
      exact congrArg _ ((issues.fwin_inserts d a some_ low).1 inside room)
    · rintro rfl some_ low full
      exact congrArg _ ((issues.fwin_inserts d a some_ low).2 full)
  case lkEng =>
    rintro e t fu i tb key m r c s w rfl issues d clear isTb isKey rfl
    exact ⟨fun found => congrArg _ (issues.lk_eng d clear isTb isKey found),
      fun found => congrArg _ (issues.lk_eng d clear isTb isKey found)⟩
  case lkCell =>
    rintro n eg fu i tb key r c t s w rfl issues d a clear isTb isKey rfl first last isOn bound
    exact ⟨fun fresh found => congrArg _ (issues.lk_cell d a clear isTb isKey first last isOn bound fresh found),
      fun fresh found => congrArg _ (issues.lk_cell d a clear isTb isKey first last isOn bound fresh found)⟩
  case lkres =>
    rintro e t fu i k m c s rfl issues clear stage isK isM
    obtain ⟨word, predicate⟩ := issues.lkres_eng clear stage isK isM
    exact ⟨fun w => congrArg _ (word w), fun p d => congrArg _ (predicate p d)⟩
  case early =>
    rintro n eg fu i c s rfl issues clear word d early
    exact congrArg _ (issues.lkres_early clear word d early)
  case lkupdRefused =>
    rintro e t fu f i c s rfl issues code
    exact ⟨fun user => congrArg _ (issues.lkupd_user code user),
      fun level misaligned => congrArg _ (issues.lkupd_misaligned code level misaligned),
      fun level aligned beyond => congrArg _ (issues.lkupd_beyond code level aligned beyond)⟩
  case lkupd =>
    rintro e t fu f i base o c s w rfl issues code level aligned inside isBase runs
    refine ⟨w.lkBlock f base o, congrArg _ (issues.lkupd_runs code level aligned inside isBase runs),
      fun r a => State.byte_lkBlock_outside r a, fun reads none_ => ?_, fun en entry => ⟨?_, fun byIndex => ?_⟩, fun writes done => ?_⟩
    · refine (if_neg (fun c => absurd reads (Nat.not_lt.mpr c.1))).trans ?_
      unfold State.lkEntry
      rw [none_]
    · rw [State.rdMem_lkBlock (by omega), State.lkEntry_data entry]
    · rw [State.rdMem_lkBlock (by omega), State.rdMem_lkBlock (by omega)]
      exact State.lkEntry_key entry byIndex
    · unfold State.lkBlock
      rw [if_pos ⟨by omega, by omega, done⟩, State.rdMem_wrMem]

end Sys2Proof.Machine

/-! The twin link, the tracker and the swap (R389-R407). -/

namespace Sys2Proof.Machine

/-! ## What the timescale, the outputs and internal requests leave of the twin's state -/

/-- From `s` to `t` the twin's registers, the ageing time and the time of the last HELLO are the same. -/
structure TwnKept (s t : State) : Prop where
  rd : ∀ f i, t.rd (.twn f) i = s.rd (.twn f) i
  age : t.age = s.age
  heard : t.h .twHeard = s.h .twHeard

namespace TwnKept

variable {s t : State}

theorem refl : TwnKept s s := ⟨fun _ _ => rfl, rfl, rfl⟩

theorem trans {u : State} (a : TwnKept s t) (b : TwnKept t u) : TwnKept s u :=
  ⟨fun f i => (b.rd f i).trans (a.rd f i), b.age.trans a.age, b.heard.trans a.heard⟩

theorem wr (f : Fld) (i v : Nat) (other : ∀ g, f ≠ .twn g) (a : TwnKept s t) : TwnKept s (t.wr f i v) :=
  ⟨fun g j => by rw [State.rd_wr, if_neg (fun e => other g e.1.symm)]; exact a.rd g j, a.age, a.heard⟩

theorem wrS (f : Fld) (i : Nat) (v : Int) (other : ∀ g, f ≠ .twn g) (a : TwnKept s t) : TwnKept s (t.wrS f i v) :=
  a.wr f i _ other

theorem setH (x : Hid) (i v : Nat) (other : x ≠ .twHeard) (a : TwnKept s t) : TwnKept s (t.setH x i v) :=
  ⟨a.rd, a.age, by
    rw [State.h_setH, if_neg (fun e => other e.1.symm)]
    exact a.heard⟩

theorem setHS (x : Hid) (i : Nat) (v : Int) (other : x ≠ .twHeard) (a : TwnKept s t) : TwnKept s (t.setHS x i v) :=
  a.setH x i _ other

theorem raise (e : Ev) (l d p : Nat) (a : TwnKept s t) : TwnKept s (t.raise e l d p) := by
  have event := t.raise_crier e l d p
  exact a.trans ⟨fun f i => event.rd _ i rfl, t.age_raise .., event.h _ _ (by decide)⟩

/-- A state that differs in other parts only. -/
theorem same {u : State} (regs : u.regs = t.regs) (variant : u.variant = t.variant) (hid : u.hid = t.hid) (age : u.age = t.age)
    (a : TwnKept s t) : TwnKept s u :=
  a.trans ⟨fun f i => by unfold State.rd; rw [regs, variant], age, by unfold State.h; rw [hid]⟩

theorem histSum (a : TwnKept s t) : TwnKept s t.histSum := by
  unfold State.histSum
  split
  · exact ((a.setHS _ _ _ (by decide)).setHS _ _ _ (by decide)).setH _ _ _ (by decide)
  · exact a

theorem histRestart (a : TwnKept s t) : TwnKept s t.histRestart :=
  (((a.setH .histStart _ _ (by decide)).setH .histAt _ _ (by decide)).setH .histSum _ _ (by decide)).setH .histTemp _ _ (by decide)

theorem putWord (w : Int) (a : TwnKept s t) : TwnKept s (t.putWord w) := by
  unfold State.putWord
  dsimp only
  split
  · exact ((a.histSum.wrS _ _ _ (by simp)).wr _ _ _ (by simp)).raise ..
  · exact a.histSum.wrS _ _ _ (by simp)

theorem carry (v : Int) (a : TwnKept s t) : TwnKept s (t.carry v) := by
  unfold State.carry
  split
  · exact (iteS a.histSum (a.histSum.wr _ _ _ (by simp))).putWord _
  · exact a.putWord _

theorem wordRefresh (a : TwnKept s t) : TwnKept s t.wordRefresh := by
  unfold State.wordRefresh
  exact iteS a (iteS (iteS (a.putWord _) (a.carry _)) (iteS (a.carry _) a))

theorem holdCopy (a : TwnKept s t) : TwnKept s t.holdCopy := by
  have word := ((a.wrS (.sel .HOLD_Y0) 0 (toS 48 (t.copied 62 6) + t.rdS (.twn .TWN_DOSC) 0) (by simp)))
  exact (((((word.wr _ _ _ (by simp)).wr _ _ _ (by simp)).wr _ _ _ (by simp)).wr _ _ _ (by simp)).setH _ _ _ (by decide)).setHS
    _ _ _ (by decide)

theorem wrAll (fs : List Fld) (i v : Nat) (others : ∀ f ∈ fs, ∀ g, f ≠ .twn g) (a : TwnKept s t) : TwnKept s (t.wrAll fs i v) := by
  induction fs generalizing t with
  | nil => exact a
  | cons f fs ih => exact ih (fun f m => others f (List.mem_cons_of_mem _ m)) (a.wr f i v (others f List.mem_cons_self))

theorem nextFree (a : TwnKept s t) : TwnKept s t.nextFree := ⟨a.rd, a.age, a.heard⟩

theorem holdSelect (a : TwnKept s t) : TwnKept s t.holdSelect := by
  have start : TwnKept s ((t.histSum.setH .holdFrom 0 t.age).wr (.sel .HOLD_ELAPSED) 0 0) :=
    (a.histSum.setH _ _ _ (by decide)).wr _ _ _ (by simp)
  unfold State.holdSelect
  dsimp only
  refine iteS start.holdCopy (iteS ?_ ?_)
  · exact ((((start.wrS _ _ _ (by simp)).wrS _ _ _ (by simp)).wrAll _ _ _ (by simp)).setH _ _ _ (by decide)).setHS
      _ _ _ (by decide)
  · have words : ∀ (f : Fit) (v : Nat), TwnKept s _ := fun f v =>
      ((((start.wrS (.sel .HOLD_Y0) 0 f.y0 (by simp)).wrS (.sel .HOLD_T0) 0 f.t0 (by simp)).wr (.sel .HOLD_STAT_AGE_FITTED) 0
        f.fitted.toNat (by simp)).wr (.sel .HOLD_U_Y) 0 v (by simp)).nextFree
    exact ((iteS ((words _ _).wr _ _ _ (by simp)).nextFree ((words _ _).wr _ _ _ (by simp))).setH _ _ _ (by decide)).setHS
      _ _ _ (by decide)

theorem setNco (n : Nat) (a : TwnKept s t) : TwnKept s (t.setNco n) := by
  have selected : TwnKept s (if n = ncoHOLD ∧ t.rd (.bell .STATUS_NCO_SRC) 0 ≠ ncoHOLD then t.holdSelect else t) :=
    iteS a.holdSelect a
  exact (selected.histSum.wr _ _ _ (by simp)).wordRefresh

theorem intRequest (q : IntReq) (a : TwnKept s t) : TwnKept s (t.intRequest q) := by
  unfold State.intRequest
  have entry : TwnKept s (if t.h .intFull = 1 then t.count (.glb .INT_MERGED) 0 else t.setH .intFull 0 1) :=
    iteS (a.wr _ _ _ (by simp)) (a.setH _ _ _ (by decide))
  have units := entry.setH .intUnits 0 ((if t.h .intFull = 1 then t.count (.glb .INT_MERGED) 0 else t.setH .intFull 0 1).h
    .intUnits ||| q.units) (by decide)
  have mode := iteS (c := q.mode = 0) units (units.setH .intMode 0 q.mode (by decide))
  have role := iteS (c := q.role = 0) mode (mode.setH .intRole 0 q.role (by decide))
  exact iteS (c := q.src = 0) role (role.setH .intSrc 0 q.src (by decide))

theorem modeRecheck (a : TwnKept s t) : TwnKept s t.modeRecheck := by
  unfold State.modeRecheck
  exact iteS ((a.setNco _).intRequest _) (iteS (a.intRequest _) (iteS ((a.setNco _).intRequest _) a))

theorem trigSquelch (k : Nat) (a : TwnKept s t) : TwnKept s (t.trigSquelch k) := by
  have missed : ∀ {u : State}, TwnKept s u → TwnKept s (u.trigMissed k) := fun b => (b.wr _ _ _ (by simp)).raise ..
  have sq : TwnKept s (t.sqMissed k) := iteS (missed a) a
  unfold State.trigSquelch
  refine iteS a (iteS (iteS (missed ?_) ?_) (iteS ?_ a))
  · exact ((a.setH _ _ _ (by decide)).setH _ _ _ (by decide)).wr _ _ _ (by simp)
  · exact (a.setH _ _ _ (by decide)).setH _ _ _ (by decide)
  · exact sq.setH _ _ _ (by decide)

theorem outSync (k : Nat) (a : TwnKept s t) : TwnKept s (t.outSync k) := by
  unfold State.outSync
  dsimp only
  have shown := ((a.trigSquelch k).wr (.sel .TOUT_STAT_SQUELCHED) k ((t.trigSquelch k).outSquelched k).toNat (by simp))
  have active := shown.wr (.sel .TOUT_STAT_ACTIVE) k (((t.trigSquelch k).wr (.sel .TOUT_STAT_SQUELCHED) k
    ((t.trigSquelch k).outSquelched k).toNat).outEn k && !((t.trigSquelch k).wr (.sel .TOUT_STAT_SQUELCHED) k
    ((t.trigSquelch k).outSquelched k).toNat).outSquelched k).toNat (by simp)
  refine iteS ((active.wr _ _ _ (by simp)).wr _ _ _ (by simp)) (iteS active ?_)
  exact (active.wr _ _ _ (by simp)).wrS _ _ _ (by simp)

theorem outsSync (a : TwnKept s t) : TwnKept s t.outsSync := foldS a (fun _ k b => b.outSync k)

theorem selStatus (a : TwnKept s t) : TwnKept s t.selStatus :=
  (((a.wr _ _ _ (by simp)).wr _ _ _ (by simp)).wr _ _ _ (by simp)).outsSync

theorem trkLock (a : TwnKept s t) : TwnKept s t.trkLock := by
  unfold State.trkLock
  refine iteS a (iteS ?_ (iteS ?_ a))
  · exact ((a.setH _ _ _ (by decide)).setH _ _ _ (by decide)).histRestart
  · exact a.histSum.setH _ _ _ (by decide)

end TwnKept

/-! ## The tracker -/

section
variable {s : State}

/-- A tracker state that is set is read back; nothing else of the twin's registers moves. -/
theorem State.trkSet_kept (n : Nat) : TwnKept (s.wr (.twn .STATUS_TSTATE) 0 n) (s.trkSet n) ∨ (n = s.trk ∧ s.trkSet n = s) := by
  unfold State.trkSet
  by_cases same : n = s.trk
  · exact .inr ⟨same, if_pos same⟩
  · refine .inl ?_
    rw [if_neg same]
    dsimp only
    have entered : TwnKept (s.wr (.twn .STATUS_TSTATE) 0 n) (((s.wr (.twn .STATUS_TSTATE) 0 n).setH .trkIn 0 0).setH .trkOut 0 0) :=
      (TwnKept.refl.setH _ _ _ (by decide)).setH _ _ _ (by decide)
    generalize ((s.wr (.twn .STATUS_TSTATE) 0 n).setH .trkIn 0 0).setH .trkOut 0 0 = u at entered
    have sought : TwnKept (s.wr (.twn .STATUS_TSTATE) 0 n) (if n = tkSEEKING then (u.setH .trkN 0 0).setHS .trkSum 0 0 else u) :=
      iteS ((entered.setH _ _ _ (by decide)).setHS _ _ _ (by decide)) entered
    generalize (if n = tkSEEKING then (u.setH .trkN 0 0).setHS .trkSum 0 0 else u) = v at sought
    have ran : TwnKept (s.wr (.twn .STATUS_TSTATE) 0 n) (if v.trkRuns then (v.wr (.bell .STATUS_SRC_APPLIED) 0 1).setH .servoAwait 0 0
        else v) := iteS ((sought.wr _ _ _ (by simp)).setH _ _ _ (by decide)) sought
    generalize (if v.trkRuns then (v.wr (.bell .STATUS_SRC_APPLIED) 0 1).setH .servoAwait 0 0 else v) = w at ran
    have left : TwnKept (s.wr (.twn .STATUS_TSTATE) 0 n)
        (if (s.trk = tkTRACKING ∨ s.trk = tkALIGNED) ∧ ¬ w.trkRuns then (w.setTwl 0 []).setTwl 1 [] else w) :=
      iteS (TwnKept.same (t := w) rfl rfl rfl rfl ran) ran
    exact (iteS left.trkLock.modeRecheck left.trkLock).selStatus

theorem State.rd_trkSet (n : Nat) (f : TwnF) (i : Nat) (other : f ≠ .STATUS_TSTATE) : (s.trkSet n).rd (.twn f) i = s.rd (.twn f) i := by
  rcases s.trkSet_kept n with kept | ⟨_, same⟩
  · exact (kept.rd f i).trans ((State.rd_wr ..).trans (if_neg (fun c => other (Fld.twn.inj c.1))))
  · rw [same]

theorem State.trk_trkSet {n : Nat} (small : n < 8) : (s.trkSet n).trk = n := by
  have width : (Fld.twn .STATUS_TSTATE).desc.width = 3 := rfl
  rcases s.trkSet_kept n with kept | ⟨same, still⟩
  · refine (kept.rd .STATUS_TSTATE 0).trans ((State.rd_wr ..).trans ((if_pos ⟨rfl, rfl⟩).trans ?_))
    rw [width]
    exact Nat.mod_eq_of_lt small
  · rw [still, same]

theorem State.clock_trkSet (n : Nat) : (s.trkSet n).age = s.age ∧ (s.trkSet n).h .twHeard = s.h .twHeard := by
  rcases s.trkSet_kept n with kept | ⟨_, same⟩
  · exact ⟨kept.age, kept.heard⟩
  · rw [same]
    exact ⟨rfl, rfl⟩

/-- The tracker follows role and link by one new state at most. -/
theorem State.trkSync_sets : s.trkSync = s ∨ ∃ n, s.trkSync = s.trkSet n := by
  unfold State.trkSync
  dsimp only
  by_cases active : ¬ s.standby
  · exact .inr ⟨_, if_pos active⟩
  rw [if_neg active]
  by_cases down : ¬ s.twUp
  · exact .inr ⟨_, if_pos down⟩
  rw [if_neg down]
  by_cases off : s.trk = tkOFF
  · exact .inr ⟨_, if_pos off⟩
  rw [if_neg off]
  by_cases orphan : s.trk = tkORPHAN
  · exact .inr ⟨_, if_pos orphan⟩
  rw [if_neg orphan]
  split
  · split
    · exact .inr ⟨_, rfl⟩
    · exact .inl rfl
  · split
    · exact .inl rfl
    · exact .inr ⟨_, rfl⟩

theorem State.rd_trkSync (f : TwnF) (i : Nat) (other : f ≠ .STATUS_TSTATE) : s.trkSync.rd (.twn f) i = s.rd (.twn f) i := by
  rcases s.trkSync_sets with same | ⟨n, set⟩
  · rw [same]
  · rw [set]
    exact State.rd_trkSet n f i other

theorem State.clock_trkSync : s.trkSync.age = s.age ∧ s.trkSync.h .twHeard = s.h .twHeard := by
  rcases s.trkSync_sets with same | ⟨n, set⟩
  · rw [same]
    exact ⟨rfl, rfl⟩
  · rw [set]
    exact State.clock_trkSet n

/-- A standby whose link is down is an orphan. -/
theorem State.trk_trkSync_orphan (standby : s.standby = true) (down : s.twUp = false) : s.trkSync.trk = tkORPHAN := by
  have orphan : s.trkSync = s.trkSet tkORPHAN :=
    (if_neg (not_not_intro standby)).trans (if_pos (by rw [down]; exact Bool.false_ne_true))
  rw [orphan]
  exact State.trk_trkSet (by decide)

/-! ## HELLO -/

theorem TwnKept.noActiveWatch {t : State} (a : TwnKept s t) : TwnKept s t.noActiveWatch := by
  unfold State.noActiveWatch
  exact iteS (iteS (a.setH _ _ _ (by decide)) a) (a.setH _ _ _ (by decide))

theorem TwnKept.helloRole {t : State} (b : TwHello) (a : TwnKept s t) : TwnKept s (t.helloRole b) := by
  unfold State.helloRole
  exact iteS (a.intRequest _) (iteS ((a.raise ..).intRequest _) a)

theorem TwnKept.autoTakeFrom {t : State} (old : State) (a : TwnKept s t) : TwnKept s (State.autoTakeFrom old t) := by
  unfold State.autoTakeFrom
  exact iteS ((a.intRequest _).raise ..) a

/-- What a HELLO tells of the other twin is noted first. -/
def State.helloNote (s : State) (b : TwHello) : State :=
  let same := b.twin.val == s.rd (.twn .CFG_TWIN_ID) 0
  let cyc := b.cycle.toNat != s.rd (.bell .CTL_CYCLE) 0
  let s := s.setH .twMisCyc 0 cyc.toNat
  let s := s.wr (.twn .STATUS_CFG_MISMATCH) 0 (same || cyc).toNat
  (s.wr (.twn .STATUS_PEER_ROLE) 0 b.role).setH .peerT 0 b.tstate

theorem State.helloTake_own {b : TwHello} (own : b.twin.val = s.rd (.twn .CFG_TWIN_ID) 0) : s.helloTake b =
    (if (s.helloNote b).twUp then (((s.helloNote b).wr (.twn .STATUS_LINK) 0 1).raise .TWN_LINK_LOST locBell)
      else (s.helloNote b).wr (.twn .STATUS_LINK) 0 1).trkSync := if_pos (beq_iff_eq.mpr own)

theorem State.helloTake_other {b : TwHello} (other : b.twin.val ≠ s.rd (.twn .CFG_TWIN_ID) 0) : s.helloTake b =
    (((if (s.helloNote b).twUp then (s.helloNote b).setH .twHeard 0 (s.helloNote b).age
      else (((s.helloNote b).setH .twHeard 0 (s.helloNote b).age).wr (.twn .STATUS_LINK) 0 2).raise .TWN_LINK_UP locBell).trkSync).helloRole
        b).noActiveWatch := if_neg (fun c => other (beq_iff_eq.mp c))

theorem State.rd_helloNote (b : TwHello) (f : Fld) (i : Nat) : (s.helloNote b).rd f i =
    if f = .twn .STATUS_PEER_ROLE ∧ i = 0 then b.role.val
    else if f = .twn .STATUS_CFG_MISMATCH ∧ i = 0 then
      (b.twin.val == s.rd (.twn .CFG_TWIN_ID) 0 || b.cycle.toNat != s.rd (.bell .CTL_CYCLE) 0).toNat
    else s.rd f i := by
  have roleWidth : (Fld.twn .STATUS_PEER_ROLE).desc.width = 2 := rfl
  have flagWidth : (Fld.twn .STATUS_CFG_MISMATCH).desc.width = 1 := rfl
  have small : b.role.val % 2 ^ 2 = b.role.val := Nat.mod_eq_of_lt (by omega)
  have flag : ∀ c : Bool, trunc 1 c.toNat = c.toNat := by decide
  show State.rd ((s.wr (.twn .STATUS_CFG_MISMATCH) 0 _).wr (.twn .STATUS_PEER_ROLE) 0 _) f i = _
  rw [State.rd_wr, State.rd_wr, roleWidth, flagWidth, flag]
  exact if_congr Iff.rfl small rfl

theorem State.rd_helloNote_role (b : TwHello) : (s.helloNote b).rd (.twn .STATUS_PEER_ROLE) 0 = b.role :=
  (State.rd_helloNote ..).trans (if_pos ⟨rfl, rfl⟩)

theorem State.rd_helloNote_mismatch {b : TwHello} (own : b.twin.val = s.rd (.twn .CFG_TWIN_ID) 0) :
    (s.helloNote b).rd (.twn .STATUS_CFG_MISMATCH) 0 = 1 := by
  rw [State.rd_helloNote, if_neg (by simp), if_pos ⟨rfl, rfl⟩, beq_iff_eq.mpr own]
  rfl

/-- A HELLO of the other twin brings the link up. -/
theorem State.helloTake_up {b : TwHello} (other : b.twin.val ≠ s.rd (.twn .CFG_TWIN_ID) 0) :
    (s.helloTake b).twUp = true ∧ (s.helloTake b).h .twHeard = (s.helloTake b).age ∧
      (s.helloTake b).rd (.twn .STATUS_PEER_ROLE) 0 = b.role := by
  have linkWidth : (Fld.twn .STATUS_LINK).desc.width = 2 := rfl
  have noted := State.rd_helloNote_role (s := s) b
  rw [State.helloTake_other other]
  generalize s.helloNote b = n at noted
  have raised : ∀ u : State, TwnKept u (u.raise .TWN_LINK_UP locBell) := fun u => TwnKept.refl.raise ..
  have linked : ∃ u : State, u.twUp = true ∧ u.h .twHeard = u.age ∧ u.rd (.twn .STATUS_PEER_ROLE) 0 = b.role ∧
      (if n.twUp then n.setH .twHeard 0 n.age else ((n.setH .twHeard 0 n.age).wr (.twn .STATUS_LINK) 0 2).raise .TWN_LINK_UP locBell) =
        u := by
    by_cases isUp : n.twUp = true
    · exact ⟨n.setH .twHeard 0 n.age, isUp, (State.h_setH ..).trans (if_pos ⟨rfl, rfl⟩), noted, if_pos isUp⟩
    · have kept := raised ((n.setH .twHeard 0 n.age).wr (.twn .STATUS_LINK) 0 2)
      refine ⟨_, ?_, ?_, ?_, if_neg isUp⟩
      · refine (congrArg (· == 2) ((kept.rd .STATUS_LINK 0).trans ((State.rd_wr ..).trans (if_pos ⟨rfl, rfl⟩)))).trans ?_
        rw [linkWidth]
        rfl
      · exact kept.heard.trans (((State.h_setH ..).trans (if_pos ⟨rfl, rfl⟩)).trans kept.age.symm)
      · exact (kept.rd .STATUS_PEER_ROLE 0).trans ((State.rd_wr ..).trans ((if_neg (by simp)).trans noted))
  obtain ⟨u, isUp, heard, peer, is⟩ := linked
  rw [is]
  have after := ((TwnKept.refl (s := u.trkSync)).helloRole b).noActiveWatch
  obtain ⟨age, heardKept⟩ := u.clock_trkSync
  refine ⟨?_, ?_, ?_⟩
  · exact (congrArg (· == 2) ((after.rd .STATUS_LINK 0).trans (State.rd_trkSync _ _ (by decide)))).trans isUp
  · exact after.heard.trans (heardKept.trans (heard.trans (after.age.trans age).symm))
  · exact (after.rd .STATUS_PEER_ROLE 0).trans ((State.rd_trkSync _ _ (by decide)).trans peer)

/-- A HELLO with the own TWIN_ID holds the link in HELLO. -/
theorem State.helloTake_holds {b : TwHello} (own : b.twin.val = s.rd (.twn .CFG_TWIN_ID) 0) :
    (s.helloTake b).rd (.twn .STATUS_LINK) 0 = 1 ∧ (s.helloTake b).rd (.twn .STATUS_CFG_MISMATCH) 0 = 1 ∧
      (s.helloTake b).rd (.twn .STATUS_PEER_ROLE) 0 = b.role := by
  have linkWidth : (Fld.twn .STATUS_LINK).desc.width = 2 := rfl
  have noted := State.rd_helloNote_role (s := s) b
  have mismatch := State.rd_helloNote_mismatch own
  rw [State.helloTake_own own]
  generalize s.helloNote b = n at noted mismatch
  have held : TwnKept (n.wr (.twn .STATUS_LINK) 0 1) (if n.twUp then (n.wr (.twn .STATUS_LINK) 0 1).raise .TWN_LINK_LOST locBell
      else n.wr (.twn .STATUS_LINK) 0 1) := iteS (TwnKept.refl.raise ..) .refl
  have rds : ∀ f, f ≠ TwnF.STATUS_TSTATE → _ = (n.wr (.twn .STATUS_LINK) 0 1).rd (.twn f) 0 :=
    fun f other => (State.rd_trkSync f 0 other).trans (held.rd f 0)
  refine ⟨(rds _ (by decide)).trans ((State.rd_wr ..).trans ((if_pos ⟨rfl, rfl⟩).trans ?_)),
    (rds _ (by decide)).trans ((State.rd_wr ..).trans ((if_neg (by simp)).trans mismatch)),
    (rds _ (by decide)).trans ((State.rd_wr ..).trans ((if_neg (by simp)).trans noted))⟩
  rw [linkWidth]
  rfl

/-- The link goes down when no HELLO comes in time (R392, R405). -/
theorem State.twinTimeout_down (was : s.rd (.twn .STATUS_LINK) 0 ≠ 0) :
    s.twinTimeout.rd (.twn .STATUS_LINK) 0 = 0 ∧ (s.standby = true → s.twinTimeout.trk = tkORPHAN) ∧
      s.twinTimeout.role = s.role := by
  have runs : s.twinTimeout = State.autoTakeFrom (s.passAge (s.h .twHeard + msTicks (s.rd (.twn .CFG_TMO) 0)))
      (((((s.passAge (s.h .twHeard + msTicks (s.rd (.twn .CFG_TMO) 0))).wr (.twn .STATUS_LINK) 0 0).raise .TWN_LINK_LOST
        locBell).noActiveWatch).trkSync) := if_neg was
  rw [runs]
  generalize isW : s.passAge (s.h .twHeard + msTicks (s.rd (.twn .CFG_TMO) 0)) = w
  have passed : ∀ f i, w.rd f i = s.rd f i := fun f i => by rw [← isW]; rfl
  have lost := ((TwnKept.refl (s := w.wr (.twn .STATUS_LINK) 0 0)).raise .TWN_LINK_LOST locBell 0 0).noActiveWatch
  generalize (((w.wr (.twn .STATUS_LINK) 0 0).raise .TWN_LINK_LOST locBell).noActiveWatch) = l at lost
  have after := (TwnKept.refl (s := l.trkSync)).autoTakeFrom w
  have link : l.rd (.twn .STATUS_LINK) 0 = 0 :=
    (lost.rd .STATUS_LINK 0).trans ((State.rd_wr ..).trans ((if_pos ⟨rfl, rfl⟩).trans (trunc_zero _)))
  have role : l.role = s.role :=
    (lost.rd .STATUS_ROLE_APPLIED 0).trans ((State.rd_wr ..).trans ((if_neg (by simp)).trans (passed _ _)))
  refine ⟨?_, fun standby => ?_, ?_⟩
  · exact (after.rd .STATUS_LINK 0).trans ((State.rd_trkSync _ _ (by decide)).trans link)
  · refine (after.rd .STATUS_TSTATE 0).trans (State.trk_trkSync_orphan ?_ ?_)
    · exact (congrArg (· == twSTANDBY) role).trans standby
    · exact (congrArg (· == 2) link).trans rfl
  · exact (after.rd .STATUS_ROLE_APPLIED 0).trans ((State.rd_trkSync _ _ (by decide)).trans role)

/-! ## Messages -/

theorem TwinTakes.takes {cls : Nat} {h : TwHdr} {k : State → State} {t : State} (takes : TwinTakes s cls h)
    (body : k (s.setH .twSeen cls (h.seq.toNat + 1)) = t) : s.twTake cls h k = t := by
  obtain ⟨twin, lane, good, fresh⟩ := takes
  unfold State.twTake
  rw [if_neg (by simp [twin, lane]), if_neg (by simp [good]), if_neg fresh]
  exact body

theorem leNat_lt (l : List Byte) : leNat l < 2 ^ (8 * l.length) := by
  induction l with
  | nil => exact Nat.one_pos
  | cons b l ih =>
    have octet := b.isLt
    have size : 2 ^ (8 * (b :: l).length) = 256 * 2 ^ (8 * l.length) := by
      rw [List.length_cons, Nat.mul_succ, Nat.pow_add, Nat.mul_comm]
    rw [size]
    unfold leNat
    omega

/-- The copy of STATE holds its octets. -/
theorem State.rd_stateTake_copy (b : BitVec 832) : (s.stateTake b).rd (.twn .COPY) 0 = leNat (beBytes 104 b.toNat) := by
  have width : (Fld.twn .COPY).desc.width = 832 := rfl
  have kept := ((((TwnKept.refl (s := s.wr (.twn .COPY) 0 (leNat (beBytes 104 b.toNat)))).setH .twGot 0 1 (by decide)).setH
    .twLeap 0 1 (by decide)).trkLock).selStatus
  refine (kept.rd .COPY 0).trans ((State.rd_wr ..).trans ((if_pos ⟨rfl, rfl⟩).trans ?_))
  have length : (beBytes 104 b.toNat).length = 104 := (List.length_reverse ..).trans (length_leBytes ..)
  have fits := leNat_lt (beBytes 104 b.toNat)
  have size : 8 * 104 = 832 := rfl
  rw [length, size] at fits
  rw [width]
  exact trunc_of_lt fits

end

section
variable (s : State)

theorem State.h_setH_other {x y : Hid} (i v j : Nat) (other : y ≠ x) : (s.setH x i v).h y j = s.h y j :=
  (State.h_setH ..).trans (if_neg (fun c => other c.1))

theorem State.h_twSend (cls : Nat) (body : List Byte) {x : Hid} (void : Bool) (i : Nat) (other : x ≠ .twSeq) :
    (s.twSend cls body void).h x i = s.h x i := by
  unfold State.twSend
  split
  · rfl
  · exact State.h_setH_other s _ _ _ other

/-- A message that was seen does not touch the stamps' validity. -/
theorem State.laneVoid_seen (i v n : Nat) : (s.setH .twSeen i v).laneVoid n = s.laneVoid n := by
  have replica : (s.setH .twSeen i v).repVoid n = s.repVoid n := by
    unfold State.repVoid
    simp
  unfold State.laneVoid State.phValid
  rw [replica]
  rfl

/-- The HELLO that a twin sends. -/
theorem State.helloSend_eq : s.helloSend = let w := s.passAge (s.h .twHelloAt)
    (((w.twSend 0x10 (beBytes 1 (w.rd (.twn .CFG_TWIN_ID) 0) ++ beBytes 1 w.role ++
      beBytes 2 (w.rd (.twn .STATUS_ROLE_GEN) 0) ++ beBytes 1 (w.rd (.bell .CTL_CYCLE) 0) ++ beBytes 1 w.trk ++
      beBytes 1 (if w.h .relinq = 0 then 0 else 1))).setH .relinq 0 (w.h .relinq - 1)).setH .twHelloAt 0
        (w.age + msTicks 1)) := by
  unfold State.helloSend
  generalize s.passAge (s.h .twHelloAt) = w
  have flag : (w.h .relinq != 0).toNat = if w.h .relinq = 0 then 0 else 1 := by
    by_cases none_ : w.h .relinq = 0 <;> simp [none_]
  dsimp only
  rw [flag]

/-- The request of a PHASE exchange leaves the time and the lane of its departure. -/
theorem State.phaseReq_leaves (w : State) (t1 ok bad lane v : Nat) :
    let u := (((((w.setH .twT1 0 t1).setH .twT1Ok 0 ok).setH .twT1Bad 0 bad).setH .twLane 0 lane).twSend 0x12 []).setH .twReqAt 0 v
    u.h .twT1 = t1 ∧ u.h .twT1Ok = ok ∧ u.h .twLane = lane ∧ u.h .twReqAt = v := by
  intro u
  have sent : ∀ x, x ≠ .twSeq → x ≠ .twReqAt → u.h x = ((((w.setH .twT1 0 t1).setH .twT1Ok 0 ok).setH .twT1Bad 0 bad).setH .twLane 0
      lane).h x := fun x seq at_ => (State.h_setH_other _ _ _ _ at_).trans (State.h_twSend _ _ _ _ _ seq)
  refine ⟨(sent _ (by decide) (by decide)).trans ?_, (sent _ (by decide) (by decide)).trans ?_,
    (sent _ (by decide) (by decide)).trans ?_, (State.h_setH ..).trans (if_pos ⟨rfl, rfl⟩)⟩
  all_goals simp

end

/-- Settles O35: a message that is taken runs its body; what the body leaves of the twin's own registers follows from
`TwnKept`, because the timescale, the outputs and the internal requests never write them. -/
theorem twinLinkCompletes : Obligations.TwinLinkCompletes := by
  unfold Obligations.TwinLinkCompletes
  refine ⟨?hello, ?solo, ?bad, ?again, ?taken, ?timeout, ?down, ?noActive, ?state, ?stateActive, fun b s => s.rd_stateTake_copy b,
    ?request, ?noRequest, ?answer, ?exchange, ?verdicts, ?mismatch, ?swapFails, ?swapGoes, ?swapUnaligned, ?swapTaken, ?ack, ?late,
    ?early, ?resets, ?unset⟩
  case hello =>
    rintro s w twin lanes rfl
    exact congrArg Host.Outcome.next ((if_pos ⟨twin, lanes⟩).trans s.helloSend_eq)
  case solo =>
    intro h b s solo
    refine ⟨congrArg Host.Outcome.next (if_neg ?_), congrArg Host.Outcome.next (if_pos (.inl ?_)),
      congrArg Host.Outcome.next (if_neg ?_)⟩
    · rintro ⟨twin, _⟩
      exact Bool.noConfusion (solo.symm.trans twin)
    · rw [solo]
      exact Bool.false_ne_true
    · rw [solo]
      exact Bool.false_ne_true
  case bad =>
    intro h b s twin lane bad
    exact congrArg Host.Outcome.next ((if_neg (by simp [twin, lane])).trans (if_pos bad))
  case again =>
    intro h b s twin lane good again
    exact congrArg Host.Outcome.next ((if_neg (by simp [twin, lane])).trans ((if_neg (by simp [good])).trans (if_pos again)))
  case taken =>
    intro h b s takes
    refine ⟨_, congrArg Host.Outcome.next (takes.takes rfl), fun other => ?_, fun own => ?_, ?_⟩
    · obtain ⟨isUp, heard, _⟩ := State.helloTake_up (s := s.setH .twSeen 0x10 (h.seq.toNat + 1)) other
      exact ⟨isUp, heard⟩
    · obtain ⟨link, mismatch, _⟩ := State.helloTake_holds (s := s.setH .twSeen 0x10 (h.seq.toNat + 1)) own
      exact ⟨link, mismatch⟩
    · by_cases own : b.twin.val = s.rd (.twn .CFG_TWIN_ID) 0
      · exact (State.helloTake_holds (s := s.setH .twSeen 0x10 (h.seq.toNat + 1)) own).2.2
      · exact (State.helloTake_up (s := s.setH .twSeen 0x10 (h.seq.toNat + 1)) own).2.2
  case timeout =>
    intro s twin was
    exact ⟨_, congrArg Host.Outcome.next (if_pos twin), State.twinTimeout_down was⟩
  case down =>
    intro s twin was
    exact congrArg Host.Outcome.next ((if_pos twin).trans (if_pos was))
  case noActive => exact fun s on_ watch => next_inDom on_ (if_neg watch)
  case state =>
    intro h b s takes standby
    exact congrArg Host.Outcome.next (takes.takes (State.when_of_true standby _))
  case stateActive =>
    intro h b s takes active
    exact congrArg Host.Outcome.next (takes.takes (State.when_of_false active _))
  case request =>
    rintro x k s w twin standby isUp lanes rfl rfl
    refine ⟨_, congrArg Host.Outcome.next (if_pos ⟨twin, standby, isUp, lanes⟩), ?_⟩
    obtain ⟨t1, ok, lane, at_⟩ := State.phaseReq_leaves (s.passAge (s.h .twReqAt)) ((s.passAge (s.h .twReqAt)).twTxStamp
      (s.passAge (s.h .twReqAt)).twLaneUse x) ((s.passAge (s.h .twReqAt)).h .twSeq 0x12 + 1) _ (s.passAge (s.h .twReqAt)).twLaneUse _
    exact ⟨t1, ok, lane, at_⟩
  case noRequest =>
    intro x s out
    refine congrArg Host.Outcome.next (if_neg ?_)
    rintro ⟨_, standby, isUp, _⟩
    rcases out with active | down
    · exact Bool.noConfusion (active.symm.trans standby)
    · exact Bool.noConfusion (down.symm.trans isUp)
  case answer =>
    rintro h x y k s w takes active rfl rfl
    exact congrArg Host.Outcome.next (takes.takes (State.when_of_true (beq_iff_eq.mpr active) _))
  case exchange =>
    rintro h x t2 t3 s w takes standby isUp asked lane ok calm clear flags rfl
    have kept : ∀ x, x ≠ .twSeen → (s.setH .twSeen 0x13 (h.seq.toNat + 1)).h x = s.h x :=
      fun x other => State.h_setH_other s _ _ _ other
    refine congrArg Host.Outcome.next (takes.takes ((if_pos ⟨standby, isUp, ?asked, ?lane⟩).trans ((if_neg ?good).trans ?posts)))
    case asked =>
      rw [kept _ (by decide)]
      exact asked
    case lane =>
      rw [kept _ (by decide)]
      exact lane
    case good =>
      rw [kept _ (by decide), ok, show (s.setH .twSeen 0x13 (h.seq.toNat + 1)).caution = false from calm,
        State.laneVoid_seen, clear, flags]
      decide
    case posts => rw [kept _ (by decide)]
  case verdicts =>
    rintro lane t1 t2 t3 t4 x s same rfl
    have posts : ¬ s.twMismatch = true := by
      rw [same]
      exact Bool.false_ne_true
    refine ⟨fun disc => (if_neg posts).trans ?_, fun ref => (if_neg posts).trans ?_⟩
    · rw [disc]
    · rw [ref]
  case mismatch => exact fun lane t1 t2 t3 t4 s differs => if_pos differs
  case swapFails =>
    intro r s reach out
    refine next_writeTo reach (if_pos ?_)
    rcases out with down | solo | soon
    · exact .inr (.inl (by simp [down]))
    · exact .inl (by simp [solo])
    · exact .inr (.inr soon)
  case swapGoes =>
    rintro r s w reach isUp twin time rfl
    refine next_writeTo reach (if_neg ?_)
    rw [not_or, not_or]
    exact ⟨not_not_intro twin, not_not_intro isUp, Nat.not_lt.mpr time⟩
  case swapUnaligned =>
    rintro h t g s w takes rfl unaligned
    refine congrArg Host.Outcome.next (takes.takes ?_)
    dsimp only
    rw [unaligned]
    rfl
  case swapTaken =>
    rintro h t g s w takes rfl aligned isUp idle time
    refine congrArg Host.Outcome.next (takes.takes ?_)
    dsimp only
    rw [aligned, isUp, idle, time]
    rfl
  case ack =>
    rintro h a b s w takes rfl
    refine ⟨fun none_ => congrArg Host.Outcome.next (takes.takes (if_pos none_)), fun pend yes aligned => ?_, fun pend no => ?_⟩
    · exact congrArg Host.Outcome.next (takes.takes ((if_neg pend).trans (if_pos ⟨yes, aligned⟩)))
    · refine congrArg Host.Outcome.next (takes.takes ((if_neg pend).trans (if_neg ?_)))
      rintro ⟨yes, aligned⟩
      rcases no with refused | crooked
      · exact Bool.noConfusion (refused.symm.trans yes)
      · exact Bool.noConfusion (crooked.symm.trans aligned)
  case late => exact fun s on_ pend => next_inDom on_ (if_neg pend)
  case early => exact fun s on_ none_ => next_inDom on_ (if_pos none_)
  case resets => exact fun k s up take => next_inUnit up (if_neg take)
  case unset => exact fun k s up none_ => next_inUnit up (if_pos none_)

end Sys2Proof.Machine

/-! Snapshots, timing trees and the in-band messages at a node (R410-R415). -/

namespace Sys2Proof.Machine

/-! ## Snapshots -/

section
variable {s : State}

/-- The code that a save leaves. -/
theorem State.snapSaved_code : s.snapSaved =
    let l := s.snapBytes (s.rd (.twn .SNAP_CMD_SNAP_SEL) 0)
    if s.h .snapStale = 1 then s.wr (.twn .SNAP_STAT_CODE) 0 1
    else if ¬ s.snapRoom l.length then s.wr (.twn .SNAP_STAT_CODE) 0 3
    else ((s.setBytes (if s.rd (.twn .SNAP_CMD_SNAP_LOC) 0 = 0 then .host else .cellar) (s.rd (.twn .SNAP_ADDR) 0) l).wr
      (.twn .SNAP_LEN) 0 l.length).wr (.twn .SNAP_STAT_CODE) 0 0 := rfl

/-- The end of a save or restore. -/
def State.snapEnd (s : State) : State :=
  if s.h .snapOp = 1 then s.snapSaved else s.wr (.twn .SNAP_STAT_CODE) 0 (if s.h .snapOp = 3 then 2 else 0)

theorem State.snapDone_busy (busy : s.on (.twn .SNAP_STAT_BUSY) 0 = true) :
    s.snapDone = (s.snapEnd.wr (.twn .SNAP_STAT_BUSY) 0 0).setH .snapOp 0 0 := if_neg (not_not_intro busy)

theorem State.rd_snapDone (busy : s.on (.twn .SNAP_STAT_BUSY) 0 = true) (f : TwnF) :
    s.snapDone.rd (.twn f) 0 = if f = .SNAP_STAT_BUSY then 0 else s.snapEnd.rd (.twn f) 0 := by
  rw [State.snapDone_busy busy]
  refine (State.rd_wr (s := s.snapEnd) (.twn .SNAP_STAT_BUSY) (.twn f) 0 0 0).trans ?_
  rw [trunc_zero]
  exact if_congr ⟨fun c => Fld.twn.inj c.1, fun c => ⟨congrArg _ c, rfl⟩⟩ rfl rfl

theorem State.rd_code (t : State) (c : Nat) (small : c < 4) : (t.wr (.twn .SNAP_STAT_CODE) 0 c).rd (.twn .SNAP_STAT_CODE) 0 = c :=
  (State.rd_wr ..).trans ((if_pos ⟨rfl, rfl⟩).trans (Nat.mod_eq_of_lt (show c < 2 ^ 3 by omega)))

/-- The codes of R410 and R411, and the length of what was saved. -/
theorem State.snapEnd_codes :
    (s.h .snapOp = 3 → s.snapEnd.rd (.twn .SNAP_STAT_CODE) 0 = 2) ∧ (s.h .snapOp = 2 → s.snapEnd.rd (.twn .SNAP_STAT_CODE) 0 = 0) ∧
    (s.h .snapOp = 1 → s.h .snapStale = 1 → s.snapEnd.rd (.twn .SNAP_STAT_CODE) 0 = 1) ∧
    (s.h .snapOp = 1 → s.h .snapStale ≠ 1 → s.snapRoom (s.snapBytes (s.rd (.twn .SNAP_CMD_SNAP_SEL) 0)).length = false →
      s.snapEnd.rd (.twn .SNAP_STAT_CODE) 0 = 3) ∧
    (s.h .snapOp = 1 → s.h .snapStale ≠ 1 → s.snapRoom (s.snapBytes (s.rd (.twn .SNAP_CMD_SNAP_SEL) 0)).length = true →
      s.snapEnd.rd (.twn .SNAP_STAT_CODE) 0 = 0 ∧
      s.snapEnd.rd (.twn .SNAP_LEN) 0 = (s.snapBytes (s.rd (.twn .SNAP_CMD_SNAP_SEL) 0)).length % 2 ^ 32) := by
  have saved : s.h .snapOp = 1 → s.snapEnd = s.snapSaved := fun save => if_pos save
  refine ⟨fun bad => ?_, fun restored => ?_, fun save stale => ?_, fun save fresh full => ?_, fun save fresh room => ?_⟩
  · have ended : s.snapEnd = s.wr (.twn .SNAP_STAT_CODE) 0 2 :=
      (if_neg (by omega)).trans (congrArg (s.wr (.twn .SNAP_STAT_CODE) 0) (if_pos bad))
    rw [ended, State.rd_code _ _ (by decide)]
  · have ended : s.snapEnd = s.wr (.twn .SNAP_STAT_CODE) 0 0 :=
      (if_neg (by omega)).trans (congrArg (s.wr (.twn .SNAP_STAT_CODE) 0) (if_neg (by omega)))
    rw [ended, State.rd_code _ _ (by decide)]
  · rw [saved save, State.snapSaved_code]
    dsimp only
    rw [if_pos stale, State.rd_code _ _ (by decide)]
  · rw [saved save, State.snapSaved_code]
    dsimp only
    rw [if_neg fresh, if_pos (by rw [full]; exact Bool.false_ne_true), State.rd_code _ _ (by decide)]
  · have width : (Fld.twn .SNAP_LEN).desc.width = 32 := rfl
    rw [saved save, State.snapSaved_code]
    dsimp only
    rw [if_neg fresh, if_neg (not_not_intro room), State.rd_code _ _ (by decide)]
    refine ⟨rfl, (State.rd_wr ..).trans ((if_neg (by simp)).trans ((State.rd_wr ..).trans ((if_pos ⟨rfl, rfl⟩).trans ?_)))⟩
    rw [width]
    rfl

/-! ## In-band messages -/

/-- The state once the firmware has taken the frame of a message from the Reeve's queue. -/
def State.treTook (s : State) : State :=
  match s.hq 16 with
  | [] => s
  | c :: l => (s.setHq 16 l).drop1 c.handle

theorem TreeTakes.takes {p : Nat} {h : TreHdr} {k : State → State} {t : State} (takes : TreeTakes s p h) (body : k s.treTook = t) :
    s.treTake p h k = t := by
  obtain ⟨unit, live, good, hops⟩ := takes
  unfold State.treTake
  rw [State.inUnit_of_up unit, if_neg (not_not_intro live)]
  refine (if_neg ?_).trans body
  rintro (bad | none_)
  · exact Bool.noConfusion (good.symm.trans bad)
  · exact hops none_

/-- The state that a statement names by the queue it takes from. -/
theorem State.treTook_eq {w : State} (isW : w = match s.hq 16 with | [] => s | c :: l => (s.setHq 16 l).drop1 c.handle) :
    s.treTook = w := by
  rw [isW]
  rfl

/-- A message of a downward class that is taken. -/
theorem TreeTakes.fromAbove {p cls : Nat} {h : TreHdr} {body : List Byte} {act : State → State} (takes : TreeTakes s p h)
    (above mine on : Bool) (isAbove : (s.treTook.treUp p && !s.treTook.on (.twn .TRE_TOO_DEEP) 0) = above)
    (isMine : (above && h.src.toNat == s.treTook.rd (.twn .TRE_MGR_NODE) 0 &&
      (h.dst.toNat == s.treTook.rd (.twn .TRE_NODE) 0 || h.dst.toNat == 0xFFFF)) = mine)
    (isOn : (above && h.dst.toNat != s.treTook.rd (.twn .TRE_NODE) 0 && decide (2 ≤ h.hops.toNat)) = on) :
    s.treFromAbove p h cls body act = if !mine && !on then s.treTook.count (.twn .TRE_DROP) 0
      else (if on then s.treTook.treRelay s.treTook.downPorts h cls body else s.treTook).when mine act := by
  subst isAbove isMine isOn
  exact takes.takes rfl

/-- A message of an upward class that is taken. -/
theorem TreeTakes.fromBelow {p cls : Nat} {h : TreHdr} {body : List Byte} (takes : TreeTakes s p h) (mine on : Bool)
    (isMine : (s.treTook.treDown p && (h.dst.toNat == s.treTook.rd (.twn .TRE_NODE) 0 || h.dst.toNat == 0xFFFF)) = mine)
    (isOn : (s.treTook.treDown p && h.dst.toNat != s.treTook.rd (.twn .TRE_NODE) 0 && decide (2 ≤ h.hops.toNat) &&
      !s.treTook.treTop) = on) :
    s.treFromBelow p h cls body = if !mine && !on then s.treTook.count (.twn .TRE_DROP) 0
      else if on then s.treTook.treRelay ([s.treTook.rd (.twn .TRE_UP_PORT) 0].filter (fun p => p < 72 && s.treTook.up .PORT p)) h
        cls body else s.treTook := by
  subst isMine isOn
  exact takes.takes rfl

theorem State.treTake_dropped {p : Nat} {h : TreHdr} {k : State → State} (unit : s.up .TWN 0 = true) (live : s.treLive p = true)
    (out : h.bad = true ∨ h.hops.toNat = 0) : s.treTake p h k = s.treTook.count (.twn .TRE_DROP) 0 := by
  unfold State.treTake
  rw [State.inUnit_of_up unit, if_neg (not_not_intro live)]
  exact if_pos out

end

/-- Settles O36: a message the firmware takes runs its class's body on the state without its frame; a save's and a restore's
codes are read off their last step. -/
theorem snapshotsAndTreesComplete : Obligations.SnapshotsAndTreesComplete := by
  unfold Obligations.SnapshotsAndTreesComplete
  refine ⟨?save, ?busy, ?bad, ?restore, ?done, ?idle, ?hello, ?noHello, ?depth, ?dropped, ?above, fun _ _ _ _ _ _ _ => rfl,
    fun _ _ _ _ _ _ => rfl, ?commit, ?below, fun _ _ _ _ _ _ _ => rfl, fun _ _ _ _ _ _ => ⟨rfl, rfl⟩, fun _ _ _ _ _ _ _ => rfl,
    ?order, fun _ _ _ _ _ _ => rfl⟩
  case save =>
    intro r s reach fw free
    exact next_writeTo reach ((State.when_of_true fw _).trans (if_neg (by rw [free]; exact Bool.false_ne_true)))
  case busy =>
    intro r s reach fw busy
    exact ⟨next_writeTo reach ((State.when_of_true fw _).trans (if_pos busy)),
      next_writeTo reach ((State.when_of_true fw _).trans (if_pos busy))⟩
  case bad =>
    rintro r n s reach fw free rfl bad
    refine next_writeTo reach ((State.when_of_true fw _).trans ((if_neg (by rw [free]; exact Bool.false_ne_true)).trans
      (if_pos ?_)))
    rw [bad]
    exact Bool.false_ne_true
  case restore =>
    rintro r n s w reach fw free rfl good rfl none_
    refine next_writeTo reach ((State.when_of_true fw _).trans ((if_neg (by rw [free]; exact Bool.false_ne_true)).trans
      ((if_neg (not_not_intro good)).trans ?_)))
    exact congrArg (fun u : State => u.setH .snapOp 0 2) (if_pos none_)
  case done =>
    intro s up fw busy
    have other : ∀ f, f ≠ TwnF.SNAP_STAT_BUSY → s.snapDone.rd (.twn f) 0 = s.snapEnd.rd (.twn f) 0 :=
      fun f m => (State.rd_snapDone busy f).trans (if_neg m)
    obtain ⟨bad, restored, stale, full, saved⟩ := s.snapEnd_codes
    refine ⟨_, next_inUnit_when up fw rfl, (State.rd_snapDone busy _).trans (if_pos rfl), ?_⟩
    rw [other _ (by decide), other _ (by decide)]
    exact ⟨bad, restored, stale, full, saved⟩
  case idle =>
    intro s up free
    have ended : s.snapDone = s := if_pos (by rw [free]; exact Bool.false_ne_true)
    refine next_inUnit up ?_
    by_cases fw : s.fwRuns = true
    · exact (State.when_of_true fw _).trans ended
    · exact State.when_of_false (Bool.eq_false_iff.mpr fw) _
  case hello => exact fun s up fw on_ => next_inUnit up (if_pos ⟨fw, on_⟩)
  case noHello =>
    intro s off
    have skipped : ¬ (s.fwRuns ∧ s.inbandOn) := fun c => Bool.noConfusion (off.symm.trans c.2)
    cases up : s.up .TWN 0 with
    | true => exact next_inUnit up (if_neg skipped)
    | false => exact congrArg Host.Outcome.next (if_neg (by simp [up]))
  case depth =>
    intro p h n ro d s w takes isW isUp same
    rw [← State.treTook_eq isW] at same ⊢
    exact congrArg Host.Outcome.next (takes.takes (if_pos ((congrArg (· == p.val) same).trans isUp)))
  case dropped =>
    intro p h k s w unit live out isW
    rw [← State.treTook_eq isW]
    exact State.treTake_dropped unit live out
  case above =>
    intro p h cls body act s w takes isW
    rw [← State.treTook_eq isW]
    refine ⟨fun off => ?_, fun isUp shallow src dst => ?_, fun isUp shallow dst all hops => ?_⟩
    · exact takes.fromAbove false false false (by rw [off]; rfl) rfl rfl
    · exact takes.fromAbove true true false (by rw [isUp, shallow]; rfl) (by simp [src, dst]) (by simp [dst])
    · refine takes.fromAbove true false true (by rw [isUp, shallow]; rfl) ?_ ?_
      · rw [beq_eq_false_iff_ne.mpr dst, beq_eq_false_iff_ne.mpr all]
        exact Bool.and_false _
      · simp [dst, hops]
  case commit =>
    intro t g s
    refine ⟨fun busy => if_pos ?_, fun idle empty => (if_neg ?_).trans (if_pos ⟨by decide, empty⟩), fun idle some_ far =>
      (if_neg ?_).trans ((if_neg (fun c => some_ c.2)).trans (if_pos far)), ?_⟩
    · simp [busy]
    · simp [idle]
    · simp [idle]
    · rintro w idle some_ early inside rfl armed
      refine (if_neg (by simp [idle])).trans ((if_neg (fun c => some_ c.2)).trans ((if_neg (Nat.not_lt.mpr inside)).trans ?_))
      dsimp only
      rw [decide_eq_false (Nat.not_lt.mpr early)]
      exact (if_neg (not_not_intro armed)).trans (if_neg Bool.false_ne_true)
  case below =>
    intro p h cls body s w takes isW
    rw [← State.treTook_eq isW]
    refine ⟨fun off => ?_, fun isDown dst hops top port up => ?_, fun isDown dst => ?_⟩
    · exact takes.fromBelow false false (by rw [off]; rfl) (by rw [off]; rfl)
    · refine (takes.fromBelow (h.dst.toNat == 0xFFFF) true ?_ ?_).trans ?_
      · rw [isDown, beq_eq_false_iff_ne.mpr dst]
        rfl
      · simp [isDown, dst, hops, top]
      · rw [Bool.not_true, Bool.and_false]
        refine (if_neg Bool.false_ne_true).trans ((if_pos rfl).trans ?_)
        rw [List.filter_cons_of_pos (by simp [port, up])]
        rfl
    · exact takes.fromBelow true false (by simp [isDown, dst]) (by simp [dst])
  case order =>
    intro id tot ofs l s open_ same other
    have current : (s.h .treImgTot != 0 && s.h .treImgId == id) = true := by simp [open_, same]
    refine (if_neg ?_).trans ((if_neg (fun c => other c.2)).trans ?_)
    · rw [current]
      exact fun c => absurd c.2 (by decide)
    · rw [if_pos same]

end Sys2Proof.Machine

/-! The commands of the Weighhouse: posting, configurations, parameters, images and verification (R432, R440-R446). -/

namespace Sys2Proof.Machine

variable {s t : State}

/-! ## How a posted command is read -/

/-- Operation, slot and sequence number lie apart in word 0 (Table 13.7). -/
theorem wghWord_fields {op slot seq : Nat} (op_ : op < 256) (slot_ : slot < 4) (seq_ : seq < 65536) :
    bits 0 8 (op + 256 * slot + 65536 * seq) = op ∧ bits 8 2 (op + 256 * slot + 65536 * seq) = slot ∧
      bits 16 16 (op + 256 * slot + 65536 * seq) = seq := by
  refine ⟨?_, ?_, ?_⟩
  · change (op + 256 * slot + 65536 * seq) / 1 % 256 = op
    omega
  · change (op + 256 * slot + 65536 * seq) / 256 % 4 = slot
    omega
  · change (op + 256 * slot + 65536 * seq) / 65536 % 65536 = seq
    omega

/-- The value of SET_PARAM: words 2 to 5, the lowest first. -/
def paramWords (a : Nat → Nat) : Nat := a 2 + 2 ^ 32 * a 3 + 2 ^ 64 * a 4 + 2 ^ 96 * a 5

/-- What the Weighhouse does with a command it takes. -/
def State.wghDo (s : State) (op k seq : Nat) (a : Nat → Nat) : State :=
  let slot := fun (f : Nat × State) => f.2.wghRsp seq f.1 0
  match op with
  | 1 => slot (s.wghConfig k a)
  | 2 => slot (s.wghRun k)
  | 3 => slot (s.wghStop k)
  | 4 => slot (s.setParam (a 1) (paramWords a))
  | 5 => s.wghInstall seq (a 1)
  | 6 => s.wghVerify seq
  | 7 => s.wghId seq
  | _ => s.wghRsp seq 2 0

section Post
variable {op slot seq : Nat} {l : List Nat}

theorem State.wghCommand_does (runs : s.wghOn = true) (free : s.on (.wgh .STATUS_BUSY) 0 = false) (op_ : op < 256)
    (slot_ : slot < 4) (seq_ : seq < 65536) (mine : ¬ (1 ≤ op ∧ op ≤ 3 ∧ s.wrunState slot = 2)) :
    s.wghCommand ((op + 256 * slot + 65536 * seq) :: l) =
      s.wghDo op slot seq (fun i => ((op + 256 * slot + 65536 * seq) :: l).getD i 0) := by
  obtain ⟨isOp, isSlot, isSeq⟩ := wghWord_fields op_ slot_ seq_
  unfold State.wghCommand
  simp only [List.getD_cons_zero, isOp, isSlot, isSeq, runs, free, not_true_eq_false, Bool.false_eq_true, or_self, if_false,
    if_neg mine]
  rfl

theorem State.wghCommand_held (runs : s.wghOn = true) (free : s.on (.wgh .STATUS_BUSY) 0 = false)
    (slot_ : slot < 4) (seq_ : seq < 65536) (some_ : 1 ≤ op) (slotOp : op ≤ 3) (held : s.wrunState slot = 2) :
    s.wghCommand ((op + 256 * slot + 65536 * seq) :: l) = s.wghRsp seq 1 0 := by
  obtain ⟨isOp, isSlot, isSeq⟩ := wghWord_fields (op := op) (by omega) slot_ seq_
  unfold State.wghCommand
  simp only [List.getD_cons_zero, isOp, isSlot, isSeq, runs, free, not_true_eq_false, Bool.false_eq_true, or_self, if_false]
  exact if_pos ⟨some_, slotOp, held⟩

theorem State.wghCommand_busy (busy : s.on (.wgh .STATUS_BUSY) 0 = true) (w : List Nat) :
    s.wghCommand w = s.count (.wgh .STATUS_CMD_LOST) 0 := if_pos (Or.inr busy)

end Post

section Takes
variable {op : Nat} {slot : Fin 4} {seq : BitVec 16} {args : List (BitVec 32)}

/-- A command that the Weighhouse takes and that no held slot refuses. -/
theorem WghTakes.does (takes : WghTakes s) (op_ : op < 256) (mine : ¬ (1 ≤ op ∧ op ≤ 3 ∧ s.wrunState slot = 2))
    (h : s.wghDo op slot seq.toNat
      (fun i => ((op + 256 * slot + 65536 * seq.toNat) :: (args.take 15).map (fun w => w.toNat)).getD i 0) = t) :
    (.next (s.wghPost op slot seq.toNat args) : Host.Outcome State Fault Refusal) = .next t.ok :=
  next_writeTo takes.reach ((State.wghCommand_does takes.runs takes.free op_ slot.isLt seq.isLt mine).trans h)

/-- A command that names no slot. -/
theorem WghTakes.doesWhole (takes : WghTakes s) (op_ : op < 256) (whole : 3 < op)
    (h : s.wghDo op 0 seq.toNat
      (fun i => ((op + 256 * 0 + 65536 * seq.toNat) :: (args.take 15).map (fun w => w.toNat)).getD i 0) = t) :
    (.next (s.wghPost op 0 seq.toNat args) : Host.Outcome State Fault Refusal) = .next t.ok :=
  takes.does (slot := 0) op_ (fun c => absurd c.2.1 (Nat.not_le.mpr whole)) h

theorem WghTakes.held (takes : WghTakes s) (some_ : 1 ≤ op) (slotOp : op ≤ 3) (held : s.wrunState slot = 2) :
    (.next (s.wghPost op slot seq.toNat args) : Host.Outcome State Fault Refusal) = .next (s.wghRsp seq.toNat 1 0).ok :=
  next_writeTo takes.reach (State.wghCommand_held takes.runs takes.free slot.isLt seq.isLt some_ slotOp held)

end Takes

theorem next_inWgh {k : State → State} (on_ : s.wghOn = true) (h : k s = t) :
    (.next (s.inWgh k) : Host.Outcome State Fault Refusal) = .next t :=
  congrArg Host.Outcome.next ((if_pos on_).trans h)

/-! ## Responses -/

theorem State.wghRsp_values (s : State) (seq code detail data : Nat) :
    (s.wghRsp seq code detail data).rd (.wgh .RSP_CODE) 0 = trunc 3 code ∧
      (s.wghRsp seq code detail data).rd (.wgh .RSP_SEQ) 0 = trunc 16 seq ∧
      (s.wghRsp seq code detail data).rd (.wgh .STATUS_BUSY) 0 = (code == 7).toNat := by
  have code_ : (Fld.wgh .RSP_CODE).desc.width = 3 := rfl
  have seq_ : (Fld.wgh .RSP_SEQ).desc.width = 16 := rfl
  have busy_ : (Fld.wgh .STATUS_BUSY).desc.width = 1 := rfl
  refine ⟨by simp [State.wghRsp, code_], by simp [State.wghRsp, seq_], ?_⟩
  unfold State.wghRsp
  rw [State.rd_wr, if_pos ⟨rfl, rfl⟩, busy_]
  cases code == 7 <;> rfl

/-- The fields a response writes. -/
def WghF.isAnswer : WghF → Bool
  | .RSP_CODE | .RSP_DETAIL | .RSP_SEQ | .RSP_DATA | .STATUS_BUSY => true
  | _ => false

theorem State.rd_wghRsp (s : State) (seq code detail data : Nat) {f : WghF} (other : f.isAnswer = false) (i : Nat) :
    (s.wghRsp seq code detail data).rd (.wgh f) i = s.rd (.wgh f) i := by
  have apart : ∀ g : WghF, g.isAnswer = true → ¬ (Fld.wgh f = Fld.wgh g ∧ i = 0) := by
    rintro g isIt ⟨same, _⟩
    rw [Fld.wgh.inj same, isIt] at other
    exact Bool.noConfusion other
  unfold State.wghRsp
  rw [State.rd_wr, if_neg (apart _ rfl), State.rd_wr, if_neg (apart _ rfl), State.rd_wr, if_neg (apart _ rfl), State.rd_wr,
    if_neg (apart _ rfl), State.rd_wr, if_neg (apart _ rfl)]

/-- A response that ends a command leaves the Weighhouse free. -/
theorem State.wghRsp_done (s : State) (seq : Nat) :
    (s.wghRsp seq 0 0).rd (.wgh .RSP_CODE) 0 = 0 ∧ (s.wghRsp seq 0 0).on (.wgh .STATUS_BUSY) 0 = false := by
  obtain ⟨code, _, busy⟩ := s.wghRsp_values seq 0 0 0
  exact ⟨code, by rw [State.on, busy]; rfl⟩

/-! ## Configurations and slots -/

theorem WCfg.ok_iff (c : WCfg) : c.ok = true ↔ c.type ≤ 3 ∧ c.a ≤ 7 ∧ c.b ≤ 7 ∧ c.psA ≤ 2 ∧ c.psB ≤ 2 ∧ c.mode ≤ 1 ∧
    (1 ≤ c.gate ∧ c.gate ≤ 10000) ∧ (1 ≤ c.ivMax ∧ c.ivMax ≤ 10000000) ∧
    ((c.type = 0 ∨ c.type = 3) → c.psA = 0 ∧ c.psB = 0) ∧ (c.type = 0 → c.a ≠ c.b) ∧ (c.type = 3 → c.a = 4) := by
  simp only [WCfg.ok, Bool.and_eq_true, Bool.or_eq_true, decide_eq_true_eq, bne_iff_ne, beq_iff_eq]
  constructor
  · rintro ⟨⟨⟨⟨⟨⟨⟨⟨⟨⟨⟨⟨type, a⟩, b⟩, psA⟩, psB⟩, mode⟩, gate⟩, gate'⟩, iv⟩, iv'⟩, ps⟩, ab⟩, pps⟩
    exact ⟨type, a, b, psA, psB, mode, ⟨gate, gate'⟩, ⟨iv, iv'⟩, by omega, by omega, by omega⟩
  · rintro ⟨type, a, b, psA, psB, mode, ⟨gate, gate'⟩, ⟨iv, iv'⟩, ps, ab, pps⟩
    refine ⟨⟨⟨⟨⟨⟨⟨⟨⟨⟨⟨⟨type, a⟩, b⟩, psA⟩, psB⟩, mode⟩, gate⟩, gate'⟩, iv⟩, iv'⟩, ?_⟩, ?_⟩, ?_⟩ <;> omega

/-- A slot that starts. -/
def State.wghStarted (s : State) (k : Nat) : State :=
  let s := (s.wr (.wgh .SLOT_RUNSTATE) k 1).wr (.wgh .SLOT_MADE) k 0
  let x := s.wslot k
  s.setWslot k { x.drop with stop := false, par := s.wparams }

theorem State.wghRun_starts {k : Nat} (idle : s.wrunState k = 0) (good : (s.wcfg k).ok = true) :
    s.wghRun k = (0, s.wghStarted k) := by
  unfold State.wghRun
  rw [if_neg (not_not_intro good), if_neg (by rw [idle]; decide)]
  rfl

theorem State.wghStarted_values (s : State) (k : Nat) :
    (s.wghStarted k).rd (.wgh .SLOT_RUNSTATE) k = 1 ∧ (s.wghStarted k).rd (.wgh .SLOT_MADE) k = 0 ∧
      ((s.wghStarted k).wslot k).opened = none ∧ ((s.wghStarted k).wslot k).stop = false := by
  have runState : (Fld.wgh .SLOT_RUNSTATE).desc.width = 2 := rfl
  refine ⟨?_, ?_, ?_, ?_⟩
  · change ((s.wr (.wgh .SLOT_RUNSTATE) k 1).wr (.wgh .SLOT_MADE) k 0).rd (.wgh .SLOT_RUNSTATE) k = 1
    rw [State.rd_wr, if_neg (by simp), State.rd_wr, if_pos ⟨rfl, rfl⟩, runState]
    rfl
  · change ((s.wr (.wgh .SLOT_RUNSTATE) k 1).wr (.wgh .SLOT_MADE) k 0).rd (.wgh .SLOT_MADE) k = 0
    rw [State.rd_wr, if_pos ⟨rfl, rfl⟩]
    exact Nat.zero_mod _
  · simp [State.wghStarted, WSlot.drop]
  · simp [State.wghStarted, WSlot.drop]

/-! ## Parameters -/

section Param
variable {id v : Nat}

theorem State.setParam_sealed (sealed : s.lc = 3) : s.setParam id v = (3, s.sealAttempt id .reeve) := if_pos sealed

theorem State.setParam_mode (open_ : s.lc ≠ 3) (mode : s.mode ≠ modeService) : s.setParam id v = (4, s) :=
  (if_neg open_).trans (if_pos mode)

theorem State.setParam_range (open_ : s.lc ≠ 3) (mode : s.mode = modeService) (bad : paramOk id v = false) :
    s.setParam id v = (2, s) :=
  (if_neg open_).trans ((if_neg (not_not_intro mode)).trans (if_pos (by simp [bad])))

theorem State.setParam_full (open_ : s.lc ≠ 3) (mode : s.mode = modeService) (good : paramOk id v = true)
    (full : 1024 ≤ s.rd (.wgh .EVCNT) 0) : s.setParam id v = (6, s) :=
  (if_neg open_).trans ((if_neg (not_not_intro mode)).trans ((if_neg (not_not_intro good)).trans
    (if_pos (decide_eq_true full))))

theorem State.setParam_sets (open_ : s.lc ≠ 3) (mode : s.mode = modeService) (good : paramOk id v = true)
    (room : s.rd (.wgh .EVCNT) 0 < 1024) :
    s.setParam id v = (0, ((s.paramSet id v).wghEvent 2 id).raise .WGH_PARAM_CHANGED locWgh) :=
  (if_neg open_).trans ((if_neg (not_not_intro mode)).trans ((if_neg (not_not_intro good)).trans
    (if_neg (by simp [State.wghFull, room]))))

end Param

/-! ## Events and attempts -/

/-- A count short of its field's limit goes on by 1. -/
theorem State.rd_count_room {f : Fld} {i n : Nat} (width : f.desc.width = n) (room : s.rd f i < 2 ^ n - 1) :
    (s.count f i).rd f i = s.rd f i + 1 := by
  unfold State.count
  rw [State.rd_wr, if_pos ⟨rfl, rfl⟩, width, satAdd, Nat.min_eq_left (by omega)]
  exact trunc_of_lt (by omega)

theorem State.rd_wghEvent (room : s.rd (.wgh .EVCNT) 0 < 1024) (kind id : Nat) :
    (s.wghEvent kind id).rd (.wgh .EVCNT) 0 = s.rd (.wgh .EVCNT) 0 + 1 := by
  have width : (Fld.wgh .EVCNT).desc.width = 32 := rfl
  have counted := State.rd_count_room (s := s) (f := .wgh .EVCNT) (i := 0) width (by omega)
  unfold State.wghEvent
  rw [if_neg (Nat.not_le.mpr room), State.rd_wr, if_neg (by simp)]
  exact counted

/-- Where an event enters the log. -/
theorem State.wghEvent_eq (s : State) (kind id : Nat) : ∃ entry : Nat, s.wghEvent kind id =
    if 1024 ≤ s.rd (.wgh .EVCNT) 0 then s.count (.wgh .EVCNT) 0
    else (s.count (.wgh .EVCNT) 0).wr (.wgh .LOG_ENTRY) (s.rd (.wgh .EVCNT) 0) entry := ⟨_, rfl⟩

theorem State.h_wghEvent (s : State) (kind id : Nat) (x : Hid) (i : Nat) : (s.wghEvent kind id).h x i = s.h x i := by
  obtain ⟨entry, eq⟩ := s.wghEvent_eq kind id
  rw [eq]
  split
  · rfl
  · rfl

theorem State.attempt_sealAttempt (r : Req) (what : Nat) (room : s.rd (.wgh .ATTEMPT) 0 < 2 ^ 32 - 1) :
    (s.sealAttempt what r).rd (.wgh .ATTEMPT) 0 = s.rd (.wgh .ATTEMPT) 0 + 1 := by
  unfold State.sealAttempt
  rw [State.rd_raise_wgh, State.rd_ledger_wgh]
  exact State.rd_count_room rfl room

/-! ## Images -/

section Image
variable {q n : Nat}

theorem State.wghInstall_mode (mode : s.mode ≠ modeService) : s.wghInstall q n = s.wghRsp q 4 0 := if_pos mode

theorem State.wghInstall_full (mode : s.mode = modeService) (full : 1024 ≤ s.rd (.wgh .EVCNT) 0) :
    s.wghInstall q n = s.wghRsp q 6 0 := (if_neg (not_not_intro mode)).trans (if_pos (decide_eq_true full))

/-- The code of an image of class 3 that fits the staging memory is that of Table 9.12. -/
theorem State.wghInstall_verified (mode : s.mode = modeService) (room : s.rd (.wgh .EVCNT) 0 < 1024) (fits : n ≤ 0x40000)
    (class_ : imgCLASS (s.wghStaged n) = 3) : s.wghInstall q n =
      if s.imgCode (s.wghStaged n) ≠ 0 then
        (s.imgRefused (s.imgCode (s.wghStaged n)) (s.wghStaged n) .rom).wghRsp q 5 (s.imgCode (s.wghStaged n))
      else (((s.setH .wRun 0 5).setH .wRunLen 0 n).setH .wRunSeq 0 q).wghRsp q 7 0 := by
  have code : (if 0x40000 < n then 1 else if imgCLASS (s.wghStaged n) ≠ 3 ∧ ¬ imgCode1 (s.wghStaged n) then 2
      else s.imgCode (s.wghStaged n)) = s.imgCode (s.wghStaged n) :=
    (if_neg (Nat.not_lt.mpr fits)).trans (if_neg (fun c => c.1 class_))
  unfold State.wghInstall
  dsimp only
  rw [code, if_neg (not_not_intro mode), if_neg (by simp [State.wghFull, room])]

end Image

/-- Registers, hidden values and the records that wait are as they were. -/
structure WghSame (s t : State) : Prop where
  rd : ∀ f i, t.rd f i = s.rd f i
  h : ∀ x i, t.h x i = s.h x i
  queue : t.wqueue = s.wqueue

namespace WghSame
variable {u : State}

theorem refl : WghSame s s := ⟨fun _ _ => rfl, fun _ _ => rfl, rfl⟩

theorem loaded (r : Region) (a : Nat) (l : List Byte) (same : WghSame s t) : WghSame s (t.setBytes r a l) :=
  ⟨fun f i => (State.rd_setBytes r a l f i).trans (same.rd f i), fun x i => (State.h_setBytes r a l x i).trans (same.h x i),
   (congrArg State.wqueue (t.setBytes_mem r a l)).trans same.queue⟩

theorem slot (k : Nat) (x : WSlot) (same : WghSame s t) : WghSame s (t.setWslot k x) := ⟨same.rd, same.h, same.queue⟩

end WghSame

/-- What the core has in hand is dropped: the records that wait are counted in their slots. -/
def State.wghDropped (s : State) : State :=
  (List.range 4).foldl (fun s k => s.setWslot k (s.wslot k).drop) (s.wqueue.foldl (fun s r =>
    s.setWslot (r.getD 7 0).toNat { s.wslot (r.getD 7 0).toNat with
      misc := (s.wslot (r.getD 7 0).toNat).misc + 1, flags := (s.wslot (r.getD 7 0).toNat).flags ||| 4096 })
    { s with wqueue := [], treg := s.treg.filter (fun e => e.1.1 != 321) })

theorem State.wghDropped_same (s : State) :
    WghSame { s with wqueue := [], treg := s.treg.filter (fun e => e.1.1 != 321) } s.wghDropped :=
  foldS (foldS WghSame.refl (fun _ _ same => same.slot _ _)) (fun _ _ same => same.slot _ _)

theorem State.wghRestart_eq (s : State) : s.wghRestart = (((s.wghDropped).setTr 321 rPC
    (imgENTRY (s.wghDropped.bytes .wghNvm 0 128))).setTr 321 rSTATE tRUNNING).wr (.wgh .STATUS_STATE) 0 2 := rfl

/-- The restarted core finds no record waiting and touches no register but its own state. -/
theorem State.wghRestart_values (s : State) : s.wghRestart.wqueue = [] ∧
    (∀ f i, f ≠ .wgh .STATUS_STATE → s.wghRestart.rd f i = s.rd f i) ∧ ∀ x i, s.wghRestart.h x i = s.h x i := by
  have same := s.wghDropped_same
  rw [State.wghRestart_eq]
  generalize s.wghDropped = u at same
  generalize imgENTRY (u.bytes .wghNvm 0 128) = entry
  refine ⟨same.queue, fun f i other => ?_, same.h⟩
  exact (State.rd_wr ..).trans ((if_neg (fun c => other c.1)).trans (same.rd f i))

/-- The image in place: NVM and memory. -/
def State.wghLoaded (s : State) (l : List Byte) : State :=
  (imgSegs l).foldl (fun s g => s.setBytes .wghMem g.dest (g.contents l)) (s.setBytes .wghNvm 0 l)

theorem State.wghLoaded_same (s : State) (l : List Byte) : WghSame s (s.wghLoaded l) :=
  foldS (WghSame.refl.loaded ..) (fun _ _ same => same.loaded ..)

/-- The anti-rollback value and FW_ID follow the image, and the event is logged. -/
def State.wghNoted (s : State) (l : List Byte) : State :=
  ((s.setH .wArb 0 (max (s.h .wArb) (imgSEC_VER l))).wr (.wgh .FW_ID) 0 (leNat (beBytes 32 (Config.sha256 l)))).wghEvent 1
    (imgSEC_VER l)

theorem State.wghNoted_values (room : s.rd (.wgh .EVCNT) 0 < 1024) (l : List Byte) :
    (s.wghNoted l).rd (.wgh .EVCNT) 0 = s.rd (.wgh .EVCNT) 0 + 1 ∧
      (s.wghNoted l).h .wArb = max (s.h .wArb) (imgSEC_VER l) := by
  unfold State.wghNoted
  generalize max (s.h .wArb) (imgSEC_VER l) = m
  generalize leNat (beBytes 32 (Config.sha256 l)) = v
  have arb : ((s.setH .wArb 0 m).wr (.wgh .FW_ID) 0 v).h .wArb = m := State.h_setH ..
  have same : ((s.setH .wArb 0 m).wr (.wgh .FW_ID) 0 v).rd (.wgh .EVCNT) 0 = s.rd (.wgh .EVCNT) 0 :=
    (State.rd_wr ..).trans (if_neg (by simp))
  generalize (s.setH .wArb 0 m).wr (.wgh .FW_ID) 0 v = u at arb same
  rw [← same] at room ⊢
  exact ⟨State.rd_wghEvent room 1 _, (State.h_wghEvent ..).trans arb⟩

theorem State.wghInstalled_eq (s : State) : s.wghInstalled =
    (((((s.wghLoaded (s.wghStaged (s.h .wRunLen))).wghNoted (s.wghStaged (s.h .wRunLen))).setH .wRun 0 0).wghRestart).wghRsp
      (((s.wghLoaded (s.wghStaged (s.h .wRunLen))).wghNoted (s.wghStaged (s.h .wRunLen))).h .wRunSeq) 0 0).raise
        .WGH_IMAGE_UPDATED locWgh := rfl

theorem State.wghInstalled_values (room : s.rd (.wgh .EVCNT) 0 < 1024) :
    s.wghInstalled.rd (.wgh .EVCNT) 0 = s.rd (.wgh .EVCNT) 0 + 1 ∧
      s.wghInstalled.h .wArb = max (s.h .wArb) (imgSEC_VER (s.wghStaged (s.h .wRunLen))) ∧ s.wghInstalled.h .wRun = 0 ∧
      s.wghInstalled.wqueue = [] ∧ s.wghInstalled.rd (.wgh .RSP_CODE) 0 = 0 ∧
      s.wghInstalled.on (.wgh .STATUS_BUSY) 0 = false := by
  rw [State.wghInstalled_eq]
  generalize s.wghStaged (s.h .wRunLen) = l
  have loaded := s.wghLoaded_same l
  obtain ⟨count, arb⟩ := State.wghNoted_values (s := s.wghLoaded l) (by rw [loaded.rd]; exact room) l
  rw [loaded.rd] at count
  rw [loaded.h] at arb
  generalize (s.wghLoaded l).wghNoted l = u at count arb
  obtain ⟨queue, rd, h⟩ := (u.setH .wRun 0 0).wghRestart_values
  generalize (u.setH .wRun 0 0).wghRestart = v at queue rd h
  have event := (v.wghRsp (u.h .wRunSeq) 0 0).raise_crier .WGH_IMAGE_UPDATED locWgh 0 0
  obtain ⟨code, free⟩ := v.wghRsp_done (u.h .wRunSeq)
  refine ⟨?_, ?_, ?_, ?_, ?_, ?_⟩
  · rw [State.rd_raise_wgh, State.rd_wghRsp _ _ _ _ _ rfl, rd _ _ (by decide)]
    exact count
  · refine (State.h_raise _ _ _ _ _ _ _ (by decide)).trans ?_
    exact (h _ _).trans ((State.h_setH_other _ _ _ _ (by decide)).trans arb)
  · refine (State.h_raise _ _ _ _ _ _ _ (by decide)).trans ?_
    exact (h _ _).trans (State.h_setH ..)
  · have same := congrArg State.wqueue event.others
    exact same.trans queue
  · exact (State.rd_raise_wgh ..).trans code
  · exact (State.on_raise_wgh ..).trans free

/-! ## Verification -/

/-- The record of a verification waits for signing. -/
theorem State.wghVerified_room (room : s.wqueue.length < 32) (fails : Nat) : ∃ r : List Byte, s.wghVerified fails =
    ((State.setH { s with wqueue := s.wqueue ++ [r] } .wRun 0 0).wghRsp (s.h .wRunSeq) 0 0).raise .WGH_VERIFY_DONE locWgh := by
  refine ⟨s.wrecord 0 4 (1024 + bits 0 2 (s.edgeFlags 0)) fails 0 none none (0, 0) { par := s.wparams }, ?_⟩
  unfold State.wghVerified
  dsimp only
  rw [if_neg (Nat.not_le.mpr room)]

theorem State.wghVerified_values (room : s.wqueue.length < 32) (fails : Nat) :
    (s.wghVerified fails).wqueue.length = s.wqueue.length + 1 ∧ (s.wghVerified fails).h .wRun = 0 ∧
      (s.wghVerified fails).rd (.wgh .RSP_CODE) 0 = 0 ∧ (s.wghVerified fails).on (.wgh .STATUS_BUSY) 0 = false := by
  obtain ⟨r, eq⟩ := State.wghVerified_room room fails
  rw [eq]
  generalize hu : State.setH { s with wqueue := s.wqueue ++ [r] } .wRun 0 0 = u
  have event := (u.wghRsp (s.h .wRunSeq) 0 0).raise_crier .WGH_VERIFY_DONE locWgh 0 0
  obtain ⟨code, free⟩ := u.wghRsp_done (s.h .wRunSeq)
  refine ⟨?_, ?_, (State.rd_raise_wgh ..).trans code, (State.on_raise_wgh ..).trans free⟩
  · have same := congrArg State.wqueue event.others
    refine (congrArg List.length same).trans ?_
    subst hu
    exact List.length_append
  · refine (State.h_raise _ _ _ _ _ _ _ (by decide)).trans ?_
    have idle : u.h .wRun = 0 := by rw [← hu, State.h_setH, if_pos ⟨rfl, rfl⟩]
    exact idle

theorem State.wghVerify_accepted {q : Nat} (mode : s.mode = modeService) (idle : ∀ k, k < 4 → s.wrunState k = 0) :
    s.wghVerify q = ((s.setH .wRun 0 6).setH .wRunSeq 0 q).wghRsp q 7 0 := by
  refine (if_neg (not_not_intro mode)).trans (if_neg (fun running => ?_))
  obtain ⟨k, known, runs⟩ := List.any_eq_true.mp running
  rw [idle k (List.mem_range.mp known)] at runs
  exact absurd runs (by decide)

theorem State.wghVerify_running {q k : Nat} (mode : s.mode = modeService) (known : k < 4) (runs : s.wrunState k ≠ 0) :
    s.wghVerify q = s.wghRsp q 1 0 :=
  (if_neg (not_not_intro mode)).trans
    (if_pos (List.any_eq_true.mpr ⟨k, List.mem_range.mpr known, by simp [runs]⟩))

/-! ## The obligation -/

/-- Settles O37: word 0 of a posted command gives back its operation, slot and sequence number, and each command is read
off its rule; what ends an installation or a verification keeps the values that its event and its restart do not touch. -/
theorem weighhouseCommandsComplete : Obligations.WeighhouseCommandsComplete := by
  unfold Obligations.WeighhouseCommandsComplete
  refine ⟨?config, WCfg.ok_iff, ?run, ?stopOpen, ?stop, ?held, ?param, ?event, ?attempt, ?installMode, ?installFull,
    ?install, ?refused, ?installed, ?notInstalled, ?verifyMode, ?verify, ?verifyRunning, ?verified, ?notVerified, ?ident,
    ?busy, ?host⟩
  case config =>
    rintro k q l _ _ s takes rfl rfl
    refine ⟨fun good idle => ?_, fun good runs => ?_, fun bad mine => ?_⟩
    · refine takes.does (slot := k) (by decide) (by rw [idle]; decide) ?_
      exact congrArg (fun f : Nat × State => f.2.wghRsp q.toNat f.1 0)
        ((if_neg (not_not_intro good)).trans (if_neg (by rw [idle]; decide)))
    · refine takes.does (slot := k) (by decide) (by rw [runs]; decide) ?_
      exact congrArg (fun f : Nat × State => f.2.wghRsp q.toNat f.1 0) ((if_neg (not_not_intro good)).trans (if_pos runs))
    · refine takes.does (slot := k) (by decide) (fun c => mine c.2.2) ?_
      exact congrArg (fun f : Nat × State => f.2.wghRsp q.toNat f.1 0) (if_pos (fun good => Bool.noConfusion (bad.symm.trans good)))
  case run =>
    intro k q s takes idle good
    refine ⟨((s.wghStarted k).wghRsp q.toNat 0 0).ok, takes.does (slot := k) (args := []) (by decide) (by rw [idle]; decide)
      (congrArg (fun f : Nat × State => f.2.wghRsp q.toNat f.1 0) (State.wghRun_starts idle good)), ?_⟩
    obtain ⟨runs, made, opened, stop⟩ := s.wghStarted_values k
    obtain ⟨code, seq, _⟩ := (s.wghStarted k).wghRsp_values q.toNat 0 0 0
    have isRuns := (State.rd_wghRsp (s.wghStarted k) q.toNat 0 0 0 (f := .SLOT_RUNSTATE) rfl k).trans runs
    have isMade := (State.rd_wghRsp (s.wghStarted k) q.toNat 0 0 0 (f := .SLOT_MADE) rfl k).trans made
    exact ⟨isRuns, isMade, opened, stop, code, seq.trans (trunc_of_lt q.isLt)⟩
  case stopOpen =>
    intro k q s takes runs opened
    refine takes.does (slot := k) (args := []) (by decide) (by rw [runs]; decide) ?_
    exact congrArg (fun f : Nat × State => f.2.wghRsp q.toNat f.1 0)
      ((if_neg (not_not_intro runs)).trans (if_pos (.inl (Option.isSome_iff_ne_none.mpr opened))))
  case stop =>
    intro k q s takes runs closed none_
    refine takes.does (slot := k) (args := []) (by decide) (by rw [runs]; decide) ?_
    exact congrArg (fun f : Nat × State => f.2.wghRsp q.toNat f.1 0)
      ((if_neg (not_not_intro runs)).trans (if_neg (by simp [closed, none_])))
  case held =>
    intro k q l s takes held
    exact ⟨takes.held (by decide) (by decide) held, takes.held (args := []) (by decide) (by decide) held,
      takes.held (args := []) (by decide) (by decide) held⟩
  case param =>
    rintro q i v0 v1 v2 v3 _ _ s takes rfl rfl
    have posted : ∀ f : Nat × State, s.setParam i.toNat
        (v0.toNat + 2 ^ 32 * v1.toNat + 2 ^ 64 * v2.toNat + 2 ^ 96 * v3.toNat) = f →
        exec (.wghSetParam q [i, v0, v1, v2, v3]) s = .next (f.2.wghRsp q.toNat f.1 0).ok := by
      intro f answer
      refine takes.doesWhole (by decide) (by decide) (congrArg (fun f : Nat × State => f.2.wghRsp q.toNat f.1 0) ?_)
      rw [← answer]
      exact congrArg (s.setParam i.toNat) (by simp [paramWords])
    exact ⟨fun sealed => posted _ (State.setParam_sealed sealed), fun open_ mode => posted _ (State.setParam_mode open_ mode),
      fun open_ mode bad => posted _ (State.setParam_range open_ mode bad),
      fun open_ mode good full => posted _ (State.setParam_full open_ mode good full),
      fun open_ mode good room => posted _ (State.setParam_sets open_ mode good room)⟩
  case event => exact fun kind id s room => State.rd_wghEvent room kind id
  case attempt => exact fun what r s room => State.attempt_sealAttempt r what room
  case installMode => exact fun q n s takes mode => takes.doesWhole (by decide) (by decide) (State.wghInstall_mode mode)
  case installFull =>
    exact fun q n s takes mode full => takes.doesWhole (by decide) (by decide) (State.wghInstall_full mode full)
  case install =>
    intro q n s takes mode room fits class_ good
    exact takes.doesWhole (by decide) (by decide)
      ((State.wghInstall_verified mode room fits class_).trans (if_neg (not_not_intro good)))
  case refused =>
    rintro q n _ s takes mode room fits class_ rfl bad
    exact takes.doesWhole (by decide) (by decide) ((State.wghInstall_verified mode room fits class_).trans (if_pos bad))
  case installed =>
    intro s on_ installs room
    exact ⟨_, next_inWgh on_ (State.when_of_true (by simp [installs]) _), State.wghInstalled_values room⟩
  case notInstalled => exact fun s on_ idle => next_inWgh on_ (State.when_of_false (by simp [idle]) _)
  case verifyMode =>
    exact fun q l s takes mode => takes.doesWhole (by decide) (by decide) (if_pos mode)
  case verify =>
    exact fun q l s takes mode idle => takes.doesWhole (by decide) (by decide) (State.wghVerify_accepted mode idle)
  case verifyRunning =>
    exact fun q l k s takes mode known runs =>
      takes.doesWhole (by decide) (by decide) (State.wghVerify_running mode known runs)
  case verified =>
    intro f s on_ verifies room
    exact ⟨_, next_inWgh on_ (State.when_of_true (by simp [verifies]) _), State.wghVerified_values room f⟩
  case notVerified => exact fun f s on_ idle => next_inWgh on_ (State.when_of_false (by simp [idle]) _)
  case ident => exact fun q s takes => takes.doesWhole (args := []) (by decide) (by decide) rfl
  case busy =>
    rintro k q l n _ s reach busy rfl
    exact ⟨next_writeTo reach (State.wghCommand_busy busy _), next_writeTo reach (State.wghCommand_busy busy _),
      next_writeTo reach (State.wghCommand_busy busy _), next_writeTo reach (State.wghCommand_busy busy _),
      next_writeTo reach (State.wghCommand_busy busy _), next_writeTo reach (State.wghCommand_busy busy _),
      next_writeTo reach (State.wghCommand_busy busy _)⟩
  case host => exact fun r s reach host => next_writeTo reach (if_pos host)

end Sys2Proof.Machine

/-! What the resets and starts of ports, lanes, engines, pools and gather units leave alone: the registers of REEVE and of
the Hearth, the mode, and the hidden values that the management of the part keeps. -/

namespace Sys2Proof.Machine

/-- A register field of REEVE, but for those a Ledger entry writes, of the Hearth, or the mode. -/
def Fld.isMgmt : Fld → Bool
  | .ree .RING_ENTRY | .ree .LEDGER_HEAD | .ree .LEDGER_SEQ | .ree .ARCH_WRAP => false
  | .ree _ | .hrt _ => true
  | .glb .MODE => true
  | _ => false

/-- The hidden values of single lanes, ports, engines, pools and blocks, and those of the event and Ledger machinery. -/
def unitHids : List Hid :=
  [Hid.calTemp, .chkStage, .holdDone, .holdRun, .laneOwner, .linkDownAt, .markWhy, .modeWait, .pwipeAt, .rtTracked, .servoAwait,
    .slipBits, .survKind, .survPair, .survPeer, .survPhase, .wRun, .pairBad, .bankBad, .quadBad, .stackBad, .archCount].append poolHids

/-- A management field is no field of the Crier, of the Ledger ring or of the pools. -/
theorem Fld.apart_of_isMgmt {f : Fld} (mgmt : f.isMgmt = true) : f.isCri = false ∧ f ∉ ledgerFlds ∧ f.isPool = false := by
  cases f with
  | ree x =>
    refine ⟨rfl, fun ring => ?_, rfl⟩
    have names : x = .RING_ENTRY ∨ x = .LEDGER_HEAD ∨ x = .LEDGER_SEQ ∨ x = .ARCH_WRAP := by simpa [ledgerFlds] using ring
    rcases names with rfl | rfl | rfl | rfl <;> exact Bool.noConfusion mgmt
  | hrt x => exact ⟨rfl, by simp [ledgerFlds], rfl⟩
  | glb x => exact ⟨rfl, by simp [ledgerFlds], rfl⟩
  | _ => exact Bool.noConfusion mgmt

/-- From `s` to `t` only single units have changed. -/
structure UnitsOnly (s t : State) : Prop where
  rd : ∀ f i, f.isMgmt = true → t.rd f i = s.rd f i
  h : ∀ x i, x ∉ unitHids → t.h x i = s.h x i
  age : t.age = s.age
  variant : t.variant = s.variant

variable {s t : State}

namespace UnitsOnly

/-! ## The primitive updates -/

theorem refl : UnitsOnly s s := ⟨fun _ _ _ => rfl, fun _ _ _ => rfl, rfl, rfl⟩

theorem trans {u : State} (a : UnitsOnly s t) (b : UnitsOnly t u) : UnitsOnly s u :=
  ⟨fun f i m => (b.rd f i m).trans (a.rd f i m), fun x i m => (b.h x i m).trans (a.h x i m), b.age.trans a.age,
   b.variant.trans a.variant⟩

/-- The queues, lists and memories of the part are not looked at. -/
theorem rest {u : State} (a : UnitsOnly s t) (same : u.regs = t.regs ∧ u.hid = t.hid ∧ u.age = t.age ∧
    u.variant = t.variant) : UnitsOnly s u := by
  obtain ⟨regs, hid, age, variant⟩ := same
  refine ⟨fun f i m => ?_, fun x i m => ?_, age.trans a.age, variant.trans a.variant⟩
  · rw [← a.rd f i m, State.rd, State.rd, regs, variant]
  · rw [← a.h x i m, State.h, State.h, hid]

theorem wr (f : Fld) (i v : Nat) (a : UnitsOnly s t) (unit : f.isMgmt = false) : UnitsOnly s (t.wr f i v) :=
  ⟨fun g j m => by rw [State.rd_wr, if_neg (fun e => by rw [← e.1, m] at unit; exact Bool.noConfusion unit)]; exact a.rd g j m,
   a.h, a.age, a.variant⟩

theorem setH (x : Hid) (i v : Nat) (a : UnitsOnly s t) (unit : x ∈ unitHids) : UnitsOnly s (t.setH x i v) :=
  ⟨a.rd, fun y j m => (State.h_setH_other _ _ _ _ (fun e => m (by rw [e]; exact unit))).trans (a.h y j m),
   a.age, a.variant⟩

theorem wrAll (fs : List Fld) (i v : Nat) (a : UnitsOnly s t) (units : fs.all (fun f => !f.isMgmt) = true) :
    UnitsOnly s (t.wrAll fs i v) := by
  unfold State.wrAll
  induction fs generalizing t with
  | nil => exact a
  | cons f fs ih =>
    obtain ⟨unit, units⟩ := Bool.and_eq_true_iff.mp units
    exact ih (a.wr f i v (Bool.not_eq_true' _ |>.mp unit)) units

theorem raise (e : Ev) (l d p : Nat) (a : UnitsOnly s t) : UnitsOnly s (t.raise e l d p) := by
  have event := t.raise_crier e l d p
  exact a.trans ⟨fun f i m => event.rd f i (Fld.apart_of_isMgmt m).1,
    fun x i m => event.h x i (fun e => m (List.mem_append_right _ (List.mem_cons_of_mem _ (List.mem_cons_of_mem _ e)))),
    State.age_raise .., State.variant_raise ..⟩

theorem raiseP (e : Ev) (p d : Nat) (a : UnitsOnly s t) : UnitsOnly s (t.raiseP e p d) := a.raise ..

theorem ledger (c : Nat) (b : Bool) (l d : Nat) (q : LedSrc) (a : UnitsOnly s t) : UnitsOnly s (t.ledger c b l d q) :=
  a.trans ⟨fun f i m => (t.ledger_only l d c b q).rd f i (Fld.apart_of_isMgmt m).2.1,
    fun x i m => State.h_ledger _ _ _ _ _ _ _ _ (fun e => m (by rw [e]; decide)), State.age_ledger ..,
    by have same := congrArg State.variant (t.ledger_only l d c b q).others; exact same⟩

/-- What only the pools know of. -/
theorem pools {u : State} (a : UnitsOnly s t) (pool : PoolOnly t u) : UnitsOnly s u :=
  a.trans ⟨fun f i m => pool.rd f i (Fld.apart_of_isMgmt m).2.2, fun x i m => pool.h x i (fun e => m (List.mem_append_right _ e)),
    by have same := congrArg State.age pool.others; exact same,
    by have same := congrArg State.variant pool.others; exact same⟩

theorem drop1 (h : Nat) (a : UnitsOnly s t) : UnitsOnly s (t.drop1 h) := a.pools (PoolOnly.refl.drop1 h)

theorem freeBuf (h : Nat) (a : UnitsOnly s t) : UnitsOnly s (t.freeBuf h) := a.pools (PoolOnly.refl.freeBuf h)

/-- Fields of a unit return to their reset values. -/
theorem filtered (p : Fld × Nat → Bool) (q : (Fld × Nat) × Nat → Bool) (a : UnitsOnly s t)
    (kept : ∀ f i, f.isMgmt = true → p (f, i) = true) :
    UnitsOnly s { t with regs := t.regs.filter (fun e => p e.1), applied := t.applied.filter q } := by
  refine ⟨fun f i m => ?_, a.h, a.age, a.variant⟩
  rw [← a.rd f i m]
  exact (Assoc.get_filter _ (f, i) p _).trans (if_pos (kept f i m))

/-- A predicate of units that no management register lies in. -/
theorem resetF (p : Grp → Nat → Bool) (a : UnitsOnly s t) (unit : ∀ f i, Fld.isMgmt f = true → p f.desc.grp i = false) :
    UnitsOnly s (t.resetF p) := by
  refine ⟨fun f i m => ?_, a.h, a.age, a.variant⟩
  rw [State.rd_resetF, if_pos (by simp [unit f i m])]
  exact a.rd f i m

theorem resetFN (p : Grp → Nat → Bool) (a : UnitsOnly s t) (unit : ∀ f i, Fld.isMgmt f = true → p f.desc.grp i = false) :
    UnitsOnly s (t.resetFN p) :=
  a.filtered (fun k => decide (k.1.desc.surv ≠ .F ∧ k.1.desc.surv ≠ .N) || k.1.desc.nvm || k.1.desc.shadow ||
    !p k.1.desc.grp k.2) _ (fun f i m => by simp [unit f i m])

/-- The groups of the management registers. -/
def mgmtGrps : List Grp := [.REE, .MBOX, .TEMP, .VOLT, .PROC, .AGE, .LEDRING, .HRT, .LIFEH, .GLB, .DMA]

theorem grp_of_isMgmt {f : Fld} (mgmt : f.isMgmt = true) : f.desc.grp ∈ mgmtGrps := by
  cases f with
  | ree x => cases x <;> decide
  | hrt x => cases x <;> decide
  | glb x => cases x <;> decide
  | _ => exact Bool.noConfusion mgmt

/-- A test of groups that no management group passes. -/
theorem grp_fails {f : Fld} (mgmt : f.isMgmt = true) (p : Grp → Bool) (none_ : mgmtGrps.all (fun g => !p g) = true := by rfl) :
    p f.desc.grp = false :=
  Bool.not_eq_true' _ |>.mp (List.all_eq_true.mp none_ _ (grp_of_isMgmt mgmt))

/-! ## Lanes and ports -/

theorem setTstate (e k v : Nat) (a : UnitsOnly s t) : UnitsOnly s (t.setTstate e k v) := (a.wr _ _ _ (by rfl)).wr _ _ _ (by rfl)

theorem chkSync (k : Nat) (a : UnitsOnly s t) : UnitsOnly s (t.chkSync k) := (a.wr _ _ _ (by rfl)).wr _ _ _ (by rfl)

theorem stackWipeStart (k : Nat) (a : UnitsOnly s t) : UnitsOnly s (t.stackWipeStart k) :=
  iteS ((a.wr _ _ _ (by rfl)).wr _ _ _ (by rfl)) a

theorem modelAsym (p : Nat) (a : UnitsOnly s t) : UnitsOnly s (t.modelAsym p) :=
  iteS (((a.wr _ _ _ (by rfl)).wr _ _ _ (by rfl)).wr _ _ _ (by rfl)) (((a.wr _ _ _ (by rfl)).wr _ _ _ (by rfl)).wr _ _ _ (by rfl))

theorem modelFollow (p : Nat) (a : UnitsOnly s t) : UnitsOnly s (t.modelFollow p) := iteS (a.modelAsym p) a

theorem setRts (p : Nat) (l : List Int) (a : UnitsOnly s t) : UnitsOnly s (t.setRts p l) := a.rest ⟨rfl, rfl, rfl, rfl⟩

theorem dlyInvalid (p c : Nat) (a : UnitsOnly s t) : UnitsOnly s (t.dlyInvalid p c) := by
  have stopped := (((a.wr (.lane .DLY_STAT_DLY_VALID) p 0 (by rfl)).wr (.lane .DLY_STAT_CAUSE) p c (by rfl)).wr
    (.lane .DLY_STAT_CHECKING) p 0 (by rfl)).setH .chkStage p 0 (by decide)
  have followed := ((((stopped.wr (.lane .RT) p 0 (by rfl)).setH .rtTracked p 0 (by decide)).setRts p []).modelFollow p)
  exact iteS ((iteS followed stopped).raiseP _ _ _) (iteS followed stopped)

theorem calPut (n : Nat) (x : Int) (lo hi : Nat) (deg extrap : Bool) (a : UnitsOnly s t) :
    UnitsOnly s (t.calPut n x lo hi deg extrap) :=
  ((((((a.wr _ _ _ (by rfl)).wr _ _ _ (by rfl)).wr _ _ _ (by rfl)).wr _ _ _ (by rfl)).wr _ _ _ (by rfl)).wr _ _ _ (by rfl)).wr _ _ _ (by rfl)

theorem calEval (n : Nat) (a : UnitsOnly s t) : UnitsOnly s (t.calEval n) := by
  unfold State.calEval
  dsimp only
  generalize t.rd (.ree .TEMP_T) (laneSensor n) = raw
  generalize t.rdS (.ree .TEMP_T) (laneSensor n) = temp
  have sensed : UnitsOnly s ((t.setH .calTemp n (1 + raw)).wrS (.lane .CAL_TEMP) n (temp / 16)) :=
    (a.setH .calTemp n _ (by decide)).wr _ _ _ (by rfl)
  generalize (t.setH .calTemp n (1 + raw)).wrS (.lane .CAL_TEMP) n (temp / 16) = u at sensed ⊢
  split
  · exact sensed.calPut ..
  · exact sensed.calPut ..
  · exact sensed.calPut ..
  · have none_ := ((((sensed.wr (.lane .CAL_NONE) n 1 (by rfl)).wr (.lane .CAL_DEG) n 0 (by rfl)).wr (.lane .CAL_EXTRAP) n 0 (by rfl)).wr
      (.lane .FIX_RX_A) n 0 (by rfl)).wr (.lane .FIX_TX_A) n 0 (by rfl)
    exact iteS (none_.dlyInvalid n 4) none_

theorem checkStart (p : Nat) (a : UnitsOnly s t) : UnitsOnly s (t.checkStart p) := (a.wr _ _ _ (by rfl)).setH _ _ _ (by decide)

theorem autoCheck (p : Nat) (a : UnitsOnly s t) : UnitsOnly s (t.autoCheck p) := iteS (a.checkStart p) a

theorem wghFree (a : UnitsOnly s t) : UnitsOnly s t.wghFree := iteS (a.wr _ _ _ (by rfl)) a

theorem survFail (e : Nat) (a : UnitsOnly s t) : UnitsOnly s (t.survFail e) := by
  have failed := ((((((a.wr (.surv .STATUS_ERR) 0 e (by rfl)).wr (.surv .STATUS_FAIL) 0 1 (by rfl)).wr (.surv .STATUS_STATE) 0 0 (by rfl)).wr
    (.surv .CTL_START) 0 0 (by rfl)).setH .survKind 0 0 (by decide)).setH .survPair 0 0 (by decide)).setH .survPhase 0 0 (by decide)
  exact failed.wghFree.raiseP _ _ _

theorem survLinkDown (p : Nat) (a : UnitsOnly s t) : UnitsOnly s (t.survLinkDown p) := by
  have gone := a.setH .survPeer p 0 (by decide)
  exact iteS (gone.survFail 2) gone

theorem holdStop (p : Nat) (a : UnitsOnly s t) : UnitsOnly s (t.holdStop p) := (a.setH _ _ _ (by decide)).setH _ _ _ (by decide)

theorem portUp (p : Nat) (a : UnitsOnly s t) : UnitsOnly s (t.portUp p) :=
  (((a.wr _ _ _ (by rfl)).holdStop p).raiseP _ _ _).autoCheck p

theorem txSync (n : Nat) (a : UnitsOnly s t) : UnitsOnly s (t.txSync n) := a.wr _ _ _ (by rfl)

theorem laneApply (n : Nat) (a : UnitsOnly s t) : UnitsOnly s (t.laneApply n) := by
  have applied := (((a.wr (.lane .STATUS_EFF_MODE) n (t.rd (.lane .CTL_MODE) n) (by rfl)).wrAll [.lane .STATUS_CDR_LOCK,
    .lane .STATUS_BLOCK_LOCK, .lane .STATUS_AM_LOCK, .lane .STATUS_FEC_LOCK, .lane .STATUS_LINK_UP, .lane .STATUS_AN_DONE,
    .lane .STATUS_LT_DONE, .lane .ALIGN_VALID, .lane .TERM_RX_TERM_VALID, .lane .TERM_TX_TERM_VALID,
    .lane .PHASE_PH_VALID, .lane .EYE_VALID, .lane .RESID_VALID] n 0 (by rfl)).txSync n).calEval n
  exact iteS (applied.wr _ _ _ (by rfl)) applied

theorem modeStart (p : Nat) (a : UnitsOnly s t) : UnitsOnly s (t.modeStart p) :=
  iteS (foldS (a.setH .modeWait p 0 (by decide)) (fun _ n b => b.laneApply n)) a

/-! ## Frames in reception and transmission -/

theorem count (f : Fld) (i n : Nat) (a : UnitsOnly s t) (unit : f.isMgmt = false) : UnitsOnly s (t.count f i n) :=
  a.wr _ _ _ unit

theorem stompTx (p : Nat) (a : UnitsOnly s t) : UnitsOnly s (t.stompTx p) := by
  unfold State.stompTx
  split
  · exact a
  · exact iteS a (iteS ((UnitsOnly.count (t := t.setTx _ _) _ _ _ (a.rest ⟨rfl, rfl, rfl, rfl⟩) (by rfl)).raiseP _ _ _)
      (a.rest ⟨rfl, rfl, rfl, rfl⟩))

theorem stompCopies (h : Nat) (a : UnitsOnly s t) : UnitsOnly s (t.stompCopies h) := by
  refine foldS a (fun u p b => ?_)
  split
  · exact iteS (b.stompTx p) b
  · exact b

theorem dropQueued (h : Nat) (a : UnitsOnly s t) : UnitsOnly s (t.dropQueued h) :=
  foldS a (fun _ _ b => iteS b (foldS (b.rest ⟨rfl, rfl, rfl, rfl⟩) (fun _ _ c => c.drop1 h)))

theorem failRx (p e : Nat) (a : UnitsOnly s t) : UnitsOnly s (t.failRx p e) := by
  unfold State.failRx
  split
  · exact a
  · next r _ =>
    have dead : UnitsOnly s (t.setRx p (some { r with err := e, dead := true, late := [] })) := a.rest ⟨rfl, rfl, rfl, rfl⟩
    exact iteS dead (iteS (foldS ((dead.stompCopies _).dropQueued _) (fun _ _ b => b.drop1 _)) (dead.freeBuf _))

theorem truncate (p : Nat) (a : UnitsOnly s t) : UnitsOnly s (t.truncate p) := by
  unfold State.truncate
  split
  · exact a
  · exact (a.stompTx p).count _ _ _ (by rfl)

theorem drainDone (p : Nat) (a : UnitsOnly s t) : UnitsOnly s (t.drainDone p) := by
  have told := a.raiseP .PORT_DRAIN_DONE p 0
  exact (iteS ((told.wr (.port .STATUS_PSTATE) p pDISABLED (by rfl)).holdStop p) (iteS ((told.wr (.port .STATUS_PSTATE) p pDOWN (by rfl)).holdStop p)
    (iteS (told.portUp p) (told.wr (.port .STATUS_PSTATE) p pHOLDOFF (by rfl))))).modeStart p

theorem drainStart (p : Nat) (a : UnitsOnly s t) : UnitsOnly s (t.drainStart p) := by
  have down := (((((a.truncate p).wr (.port .STATUS_PSTATE) p pDRAINING (by rfl)).setH .linkDownAt p
    ((t.truncate p).wr (.port .STATUS_PSTATE) p pDRAINING).age (by decide)).dlyInvalid p 1).failRx p 3).survLinkDown p
  exact iteS (down.drainDone p) down

theorem linkDown (p : Nat) (lock : Bool) (a : UnitsOnly s t) : UnitsOnly s (t.linkDown p lock) := by
  have down := a.wr (.lane .STATUS_LINK_UP) p 0 (by rfl)
  have lost := iteS (c := lock = true) (down.wrAll [.lane .STATUS_BLOCK_LOCK, .lane .STATUS_AM_LOCK, .lane .STATUS_FEC_LOCK,
    .lane .ALIGN_VALID, .lane .TERM_RX_TERM_VALID, .lane .TERM_TX_TERM_VALID] p 0 (by rfl)) down
  exact iteS (((lost.holdStop p).raiseP _ _ _).drainStart p) (iteS ((((lost.holdStop p).wr _ _ _ (by rfl)).failRx p 3).survLinkDown p)
    (iteS (lost.holdStop p) ((lost.failRx p 3).survLinkDown p)))

/-! ## Gather units and engines -/

theorem setTr (c n v : Nat) (a : UnitsOnly s t) : UnitsOnly s (t.setTr c n v) := a.rest ⟨rfl, rfl, rfl, rfl⟩

theorem treg (x : List ((Nat × Nat) × Nat)) (a : UnitsOnly s t) : UnitsOnly s { t with treg := x } :=
  a.rest ⟨rfl, rfl, rfl, rfl⟩

theorem thrZero (e k : Nat) (a : UnitsOnly s t) : UnitsOnly s (t.thrZero e k) := (a.treg _).wr (.eng .THR_TPC_PC) (thrIdx e k) 0 (by rfl)

theorem gDrained (g : Nat) (a : UnitsOnly s t) : UnitsOnly s (t.gDrained g) :=
  iteS (UnitsOnly.wr (t := { t with bins := _ }) _ _ _ (a.rest ⟨rfl, rfl, rfl, rfl⟩) (by rfl)) a

theorem binLose (b : Bin) (a : UnitsOnly s t) : UnitsOnly s (t.binLose b) := by
  have dropped : UnitsOnly s (((t.gqOf b.eng).filter (fun c => c.grp == b.grp && c.n == b.n)).foldl (fun s c => s.drop1 c.handle)
      (t.setGq b.eng ((t.gqOf b.eng).filter (fun c => !(c.grp == b.grp && c.n == b.n))))) :=
    foldS (a.rest ⟨rfl, rfl, rfl, rfl⟩) (fun _ _ k => k.drop1 _)
  unfold State.binLose
  dsimp only
  refine gDrained _ (raise _ _ _ _ (count _ _ _ ?_ (by rfl)))
  cases b.home with
  | none => exact dropped.rest ⟨rfl, rfl, rfl, rfl⟩
  | some h => exact (dropped.drop1 h).rest ⟨rfl, rfl, rfl, rfl⟩

theorem binsLose (p : Bin → Bool) (a : UnitsOnly s t) : UnitsOnly s (t.binsLose p) := foldS a (fun _ _ b => b.binLose _)

theorem gthFault (g : Nat) (a : UnitsOnly s t) : UnitsOnly s (t.gthFault g) := (a.wr _ _ _ (by rfl)).raise _ _ _ _

theorem gthEngLost (e : Nat) (a : UnitsOnly s t) : UnitsOnly s (t.gthEngLost e) := by
  have lost := a.binsLose (fun b => b.eng == e)
  refine foldS (lost.rest ⟨rfl, rfl, rfl, rfl⟩) (fun u k b => ?_)
  have unlisted := b.wr (.gth .GRP_ENG_LIVE) (256 * (e / 8) + k)
    (clrBit (e % 8) (u.rd (.gth .GRP_ENG_LIVE) (256 * (e / 8) + k))) (by rfl)
  exact iteS (gDrained _ (iteS (unlisted.gthFault _) unlisted)) b

theorem eqFlush (e : Nat) (counted : Bool) (a : UnitsOnly s t) : UnitsOnly s (t.eqFlush e counted) := by
  refine foldS a (fun u q b => ?_)
  have told : UnitsOnly s (if counted then u.count (.eng .EQ_DROP) (64 * e + q) (u.eq (64 * e + q)).length else u) :=
    iteS (b.count _ _ _ (by rfl)) b
  exact foldS (told.rest ⟨rfl, rfl, rfl, rfl⟩) (fun _ _ c => c.drop1 _)

theorem emitFlush (e : Nat) (a : UnitsOnly s t) : UnitsOnly s (t.emitFlush e) :=
  foldS (a.rest ⟨rfl, rfl, rfl, rfl⟩) (fun _ _ b => b.drop1 _)

theorem servoFallback (a : UnitsOnly s t) : UnitsOnly s t.servoFallback := ((a.wr _ _ _ (by rfl)).setH _ _ _ (by decide)).raise _ _ _ _

theorem engMark (e why : Nat) (a : UnitsOnly s t) : UnitsOnly s (t.engMark e why) := by
  have marked := (a.wr (.eng .CTL_UNUSABLE) e 1 (by rfl)).setH .markWhy e why (by decide)
  have halted := foldS (l := List.range 8) (f := fun s t =>
    (s.setTstate e t tHALTED).wr (.eng .THR_TCAUSE_CAUSE) (thrIdx e t) 0x0D) marked
    (fun _ k b => (b.setTstate e k tHALTED).wr _ _ _ (by rfl))
  have told := ((((halted.eqFlush e true).emitFlush e).gthEngLost e).ledger 0x0007 true (locEngine e) why .hw).raise
    .ENG_UNUSABLE (locEngine e) 0 0
  exact iteS a (iteS told.servoFallback told)

theorem markFollow (m : MarkKind) (mask : m.mask ∈ unitHids) (j : Nat) (bad : Bool) (a : UnitsOnly s t) :
    UnitsOnly s (t.markFollow m j bad) :=
  iteS (((a.setH _ _ _ mask).setH _ _ _ (by decide)).ledger _ _ _ _ _) (iteS ((a.setH _ _ _ mask).setH _ _ _ (by decide)) a)

theorem markEngine (e : Nat) (bad : Bool) (a : UnitsOnly s t) : UnitsOnly s (t.markEngine e bad) :=
  iteS (a.engMark e 1) (iteS ((a.wr _ _ _ (by rfl)).setH _ _ _ (by decide)) a)

/-- The verdict in force marks and unmarks units (R476). -/
theorem applyMarks (a : UnitsOnly s t) : UnitsOnly s t.applyMarks := by
  have engines := foldS (l := bitsOf 16 t.variant.engines)
    (f := fun s e => s.markEngine e (bit e (t.rd (.ree .LBIST_FAIL_ENG) 0))) a (fun _ e b => b.markEngine e _)
  have masks : ∀ m ∈ markKinds, m.mask ∈ unitHids := by decide
  have follow : ∀ (l : List MarkKind), (∀ m ∈ l, m.mask ∈ unitHids) → ∀ (fail : Nat → Nat) (u : State), UnitsOnly s u →
      UnitsOnly s (l.foldl (fun s m => (List.range m.count).foldl (fun s j => s.markFollow m j (bit j (fail m.first))) s) u) := by
    intro l
    induction l with
    | nil => exact fun _ _ _ b => b
    | cons m l ih =>
      intro known fail u b
      exact ih (fun m' in_ => known m' (List.mem_cons_of_mem _ in_)) fail _
        (foldS b (fun _ j c => c.markFollow m (known m List.mem_cons_self) j _))
  exact follow markKinds masks (fun k =>
    if k = 16 then t.rd (.ree .LBIST_FAIL_PAIR) 0
    else if k = 24 then bits 0 48 (t.rd (.ree .LBIST_FAIL_UNIT) 0)
    else if k = 72 then bits 48 16 (t.rd (.ree .LBIST_FAIL_UNIT) 0)
    else t.rd (.ree .LBIST_FAIL_STACK) 0) _ engines

/-! ## Function resets -/

theorem portFreset (p : Nat) (a : UnitsOnly s t) : UnitsOnly s (t.portFreset p) := by
  unfold State.portFreset
  dsimp only
  have down := a.linkDown p true
  generalize t.portLanes p = lanes
  generalize t.linkDown p true = u at down ⊢
  have fresh := down.resetFN (fun g i => (g == .LANE && lanes.contains i) || ([Grp.PORT, .PORTSTAT].contains g && i == p))
    (fun f i m => by
      rw [grp_fails m (fun g => g == .LANE), grp_fails m (fun g => [Grp.PORT, .PORTSTAT].contains g)]
      rfl)
  generalize u.resetFN (fun g i => (g == .LANE && lanes.contains i) || ([Grp.PORT, .PORTSTAT].contains g && i == p)) = v
    at fresh ⊢
  refine foldS (foldS ?_ (fun _ _ b => (b.setH _ _ _ (by decide)).setH _ _ _ (by decide))) (fun _ _ b => b.txSync _)
  exact ((fresh.wr _ _ _ (by rfl)).setH _ _ _ (by decide)).setRts _ _

theorem quadFreset (q : Nat) (a : UnitsOnly s t) : UnitsOnly s (t.quadFreset q) := by
  have ports := foldS (l := List.range 4) (f := fun s k => s.portFreset (4 * q + k)) a (fun _ _ b => b.portFreset _)
  unfold State.quadFreset
  dsimp only
  generalize (List.range 4).foldl (fun s k => s.portFreset (4 * q + k)) t = u at ports ⊢
  exact ports.resetFN _ (fun f i m => by
    rw [grp_fails m (fun g => g == .QUAD)]
    rfl)

theorem pairFreset (k : Nat) (a : UnitsOnly s t) : UnitsOnly s (t.pairFreset k) := by
  have cut := foldS (l := slicePorts k) (f := fun s p => (s.truncate p).failRx p 3) a (fun _ p b => (b.truncate p).failRx p 3)
  unfold State.pairFreset
  dsimp only
  generalize (slicePorts k).foldl (fun s p => (s.truncate p).failRx p 3) t = u at cut ⊢
  exact resetFN _ (cut.rest ⟨rfl, rfl, rfl, rfl⟩) (fun f i m => by
    rw [grp_fails m (fun g => g == .PAIR), grp_fails m (fun g => [Grp.CELLAIN, .CELLAEG, .CELLBIN, .CELLBEG].contains g)]
    rfl)

theorem engFreset (e : Nat) (a : UnitsOnly s t) : UnitsOnly s (t.engFreset e) := by
  have idle := foldS (l := List.range 8) (f := fun s t =>
    ((s.thrZero e t).setTstate e t tIDLE).wr (.eng .THR_TCAUSE_INTRAP) (thrIdx e t) 0) a (fun _ k b =>
      ((b.thrZero e k).setTstate e k tIDLE).wr _ _ _ (by rfl))
  have empty := foldS (l := List.range 16) (f := fun s h => s.setHatch (16 * e + h) [])
    (((idle.eqFlush e false).emitFlush e).gthEngLost e) (fun _ _ b => b.rest ⟨rfl, rfl, rfl, rfl⟩)
  unfold State.engFreset
  dsimp only
  generalize (List.range 16).foldl (fun (s : State) h => s.setHatch (16 * e + h) []) _ = u at empty ⊢
  have invalid := UnitsOnly.wr (t := u.cacheClear e) (.eng .CTL_CINV_BUSY) e 0 (empty.rest ⟨rfl, rfl, rfl, rfl⟩) (by rfl)
  generalize (u.cacheClear e).wr (.eng .CTL_CINV_BUSY) e 0 = v at invalid ⊢
  have clean := invalid.resetF (fun g i => engGrp g && g.outer i == e) (fun f i m => by
    rw [grp_fails m engGrp]
    rfl)
  exact (clean.wr _ _ _ (by rfl)).setH _ _ _ (by decide)

theorem stackFreset (k : Nat) (a : UnitsOnly s t) : UnitsOnly s (t.stackFreset k) := by
  have lost := a.binsLose (fun b => match b.home with
    | some h => t.variant.nStacks != 0 && (hIdx h % t.variant.nStacks == k) | none => false)
  exact stackWipeStart _ (iteS ((lost.wr _ _ _ (by rfl)).raise _ _ _ _) lost)

theorem wghFreset (a : UnitsOnly s t) : UnitsOnly s t.wghFreset := by
  have dropped : UnitsOnly s t.wghDropped :=
    foldS (foldS (a.rest ⟨rfl, rfl, rfl, rfl⟩) (fun _ _ b => b.rest ⟨rfl, rfl, rfl, rfl⟩))
      (fun _ _ b => b.rest ⟨rfl, rfl, rfl, rfl⟩)
  have restarted : UnitsOnly s t.wghRestart := by
    rw [State.wghRestart_eq]
    exact UnitsOnly.wr _ _ _ (dropped.rest ⟨rfl, rfl, rfl, rfl⟩) (by rfl)
  exact ((restarted.resetFN (fun g _ => g.info.blk == .wgh) (fun f i m =>
    grp_fails m (fun g => g.info.blk == .wgh))).setH .wRun 0 0 (by decide)).wr _ _ _ (by rfl)

/-! ## Loading images -/

theorem thrStart (r : Req) (e k : Nat) (a : UnitsOnly s t) : UnitsOnly s (t.thrStart r e k) := by
  have runs := a.setTstate e k tRUNNING
  exact iteS (a.wr _ _ _ (by rfl)) (((runs.setTr _ _ _).wr _ _ _ (by rfl)).setTr _ _ _)

theorem startAt (l : List Byte) (e k j : Nat) (a : UnitsOnly s t) : UnitsOnly s (t.startAt l e k j) :=
  (((a.wr _ _ _ (by rfl)).wr _ _ _ (by rfl)).setTr _ _ _).thrStart _ _ _

theorem setBytes (r : Region) (n : Nat) (l : List Byte) (a : UnitsOnly s t) : UnitsOnly s (t.setBytes r n l) := by
  refine a.trans ⟨fun f i _ => State.rd_setBytes r n l f i, fun x i _ => State.h_setBytes r n l x i, ?_, ?_⟩
  · have same := congrArg State.age (t.setBytes_mem r n l)
    exact same
  · have same := congrArg State.variant (t.setBytes_mem r n l)
    exact same

theorem loadEngine (l : List Byte) (e : Nat) (a : UnitsOnly s t) : UnitsOnly s (t.loadEngine l e) := by
  have clocked := a.wr (.eng .CTL_CLK_EN) e 1 (by rfl)
  exact foldS (foldS clocked (fun _ _ b => foldS (iteS b (b.setBytes _ _ _))
    (fun _ _ c => (((c.wr _ _ _ (by rfl)).wr _ _ _ (by rfl)).wr _ _ _ (by rfl)).wr _ _ _ (by rfl)))) (fun _ _ b => b.startAt _ _ _ _)

theorem loadStage (l : List Byte) (mask : Nat) (a : UnitsOnly s t) : UnitsOnly s (t.loadStage l mask) := by
  refine foldS a (fun _ g b => foldS b (fun u k c => chkSync _ (foldS c (fun _ _ d => d.wr _ _ _ ?_))))
  cases bit 4 g.target <;> cases (!u.on (.core .PAIR_CTL_BANK_APPLIED) k) <;> rfl

theorem imgRefused (c : Nat) (l : List Byte) (q : LedSrc) (a : UnitsOnly s t) : UnitsOnly s (t.imgRefused c l q) := a.ledger ..

/-- Checking and loading an image touches engines or pairs, or the Ledger. -/
theorem loadImage (l : List Byte) (mask : Nat) (a : UnitsOnly s t) : UnitsOnly s (t.loadImage l mask).2 := by
  unfold State.loadImage
  dsimp only
  generalize (if t.imgCode l ≠ 0 then t.imgCode l else if imgCLASS l = 0 then (if t.engTargetBad l mask then 7 else 0)
    else if imgCLASS l = 1 then (if 256 ≤ mask then 7 else 0) else 2) = code
  by_cases bad : code ≠ 0
  · rw [if_pos bad]
    exact a.imgRefused _ _ _
  · rw [if_neg bad]
    by_cases engine : imgCLASS l = 0
    · rw [if_pos engine]
      exact foldS (f := fun s e => s.loadEngine l e) a (fun _ e b => b.loadEngine l e)
    · rw [if_neg engine]
      exact a.loadStage l mask

end UnitsOnly

/-- What a function reset starts: the units of function `k` are reset. -/
def State.fnResets (s : State) (k : Nat) : State :=
  if k < 72 then s.portFreset k
  else if k < 88 then s.quadFreset (k - 72)
  else if k < 96 then s.pairFreset (k - 88)
  else if k < 112 then s.engFreset (k - 96)
  else if k < 116 then s.stackFreset (k - 112)
  else s.wghFreset

theorem State.fnReset_eq (s : State) (k : Nat) : s.fnReset k =
    if s.h .frEnd k ≠ 0 ∨ s.inTransition then s else (s.setH .frEnd k (1 + s.age + usTicks (fnTime k))).fnResets k := rfl

theorem UnitsOnly.fnResets (k : Nat) (a : UnitsOnly s t) : UnitsOnly s (t.fnResets k) :=
  iteS (a.portFreset _) (iteS (a.quadFreset _) (iteS (a.pairFreset _) (iteS (a.engFreset _) (iteS (a.stackFreset _) a.wghFreset))))

end Sys2Proof.Machine

/-! The mailboxes of the Reeve: how a posted command is read, served and answered (R481, Table 14.13). -/

namespace Sys2Proof.Machine

variable {s t : State}

/-! ## The words of a command -/

/-- Words of 32 bits as one number, the first word lowest. -/
def packWords (l : List Nat) : Nat := l.reverse.foldl (fun n x => n * 2 ^ 32 + x % 2 ^ 32) 0

theorem packWords_cons (x : Nat) (l : List Nat) : packWords (x :: l) = packWords l * 2 ^ 32 + x % 2 ^ 32 := by
  unfold packWords
  rw [List.reverse_cons, List.foldl_append]
  rfl

theorem packWords_lt (l : List Nat) : packWords l < 2 ^ (32 * l.length) := by
  induction l with
  | nil => exact Nat.one_pos
  | cons x l ih =>
    have low : x % 2 ^ 32 < 2 ^ 32 := Nat.mod_lt _ (by decide)
    have size : 2 ^ (32 * (x :: l).length) = 2 ^ (32 * l.length) * 2 ^ 32 := by rw [List.length_cons, Nat.mul_succ, pow_add]
    rw [packWords_cons, size]
    calc packWords l * 2 ^ 32 + x % 2 ^ 32 < (packWords l + 1) * 2 ^ 32 := by omega
      _ ≤ 2 ^ (32 * l.length) * 2 ^ 32 := Nat.mul_le_mul_right _ ih

theorem bits_packWords (l : List Nat) (i : Nat) : bits (32 * i) 32 (packWords l) = l.getD i 0 % 2 ^ 32 := by
  induction l generalizing i with
  | nil => simp [packWords, bits]
  | cons x l ih =>
    rw [packWords_cons]
    have low : x % 2 ^ 32 < 2 ^ 32 := Nat.mod_lt _ (by decide)
    cases i with
    | zero => simp [bits, Nat.add_mod, Nat.mul_mod_left]
    | succ i =>
      have shift : (packWords l * 2 ^ 32 + x % 2 ^ 32) / 2 ^ 32 = packWords l := by omega
      rw [bits, Nat.mul_succ, pow_add, Nat.mul_comm (2 ^ (32 * i)), ← Nat.div_div_eq_div_mul, shift]
      exact ih i

/-- The sixteen words of a command, as the firmware reads them. -/
def mailWords (op q : Nat) (args : List Nat) : List Nat :=
  (List.range 16).map (fun i => ((op + 65536 * q) :: args).getD i 0)

section Words
variable {op q : Nat} {args : List Nat}

/-- The number that stands in the mailbox. -/
def mailNumber (op q : Nat) (args : List Nat) : Nat := packWords (((op + 65536 * q) :: args).take 16)

theorem mailNumber_lt (op q : Nat) (args : List Nat) : mailNumber op q args < 2 ^ (32 * 16) :=
  Nat.lt_of_lt_of_le (packWords_lt _) (Nat.pow_le_pow_right (by decide) (Nat.mul_le_mul_left _ (List.length_take_le _ _)))

theorem bits_mailNumber (op_ : op < 65536) (q_ : q < 65536) (small : ∀ x ∈ args, x < 2 ^ 32) {i : Nat} (inside : i < 16) :
    bits (32 * i) 32 (mailNumber op q args) = ((op + 65536 * q) :: args).getD i 0 := by
  have word : ((op + 65536 * q) :: args).getD i 0 < 2 ^ 32 := by
    cases i with
    | zero => rw [List.getD_cons_zero]; omega
    | succ i =>
      rw [List.getD_cons_succ, List.getD_eq_getElem?_getD]
      rcases at_ : args[i]? with _ | x
      · exact Nat.two_pow_pos 32
      · exact small x (List.mem_of_getElem? at_)
  have kept : (((op + 65536 * q) :: args).take 16).getD i 0 = ((op + 65536 * q) :: args).getD i 0 := by
    rw [List.getD_eq_getElem?_getD, List.getD_eq_getElem?_getD, List.getElem?_take_of_lt inside]
  rw [mailNumber, bits_packWords, kept, Nat.mod_eq_of_lt word]

theorem mailWords_read (op_ : op < 65536) (q_ : q < 65536) (small : ∀ x ∈ args, x < 2 ^ 32) :
    (List.range 16).map (fun i => bits (32 * i) 32 (mailNumber op q args)) = mailWords op q args :=
  List.map_congr_left (fun _ known => bits_mailNumber op_ q_ small (List.mem_range.mp known))

theorem mailSeq_read (op_ : op < 65536) (q_ : q < 65536) (small : ∀ x ∈ args, x < 2 ^ 32) :
    bits 16 16 (mailNumber op q args) = q := by
  have word := bits_mailNumber op_ q_ small (i := 0) (by decide)
  rw [List.getD_cons_zero] at word
  rw [← bits_mod (l := 16) (w := 16) (m := 32) (by decide), ← bits_zero_lsb, show (0 : Nat) = 32 * 0 from rfl, word]
  change (op + 65536 * q) / 65536 % 65536 = q
  omega

end Words

/-! ## A command that waits, and its answer -/

/-- The command stands in the mailbox. -/
def State.posted (s : State) (m n : Nat) : State := (s.wr (.ree .MBOX_WORD) m n).wr (.ree .MBOX_BUSY) m 1

theorem State.posted_frame (s : State) (m n : Nat) : Frame s (s.posted m n) [(.ree .MBOX_WORD, m), (.ree .MBOX_BUSY, m)] [] :=
  (Frame.refl.wr _ _ _ (by simp)).wr _ _ _ (by simp)

theorem State.rd_posted (s : State) (m n : Nat) {f : Fld} (i : Nat) (word : f ≠ .ree .MBOX_WORD) (busy : f ≠ .ree .MBOX_BUSY) :
    (s.posted m n).rd f i = s.rd f i := by
  unfold State.posted
  rw [State.rd_wr, if_neg (fun c => busy c.1), State.rd_wr, if_neg (fun c => word c.1)]

theorem State.mboxAnswer_frame (s : State) (m q c d x : Nat) : Frame s (s.mboxAnswer m q c d x) (mboxFlds m) [] :=
  (((((Frame.refl.wr _ _ _ (by simp [mboxFlds])).wr _ _ _ (by simp [mboxFlds])).wr _ _ _ (by simp [mboxFlds])).wr _ _ _
    (by simp [mboxFlds])).wr _ _ _ (by simp [mboxFlds]))

/-- A field of no mailbox. -/
theorem State.rd_mboxAnswer (s : State) (m q c d x : Nat) {f : Fld} (i : Nat) (other : ∀ e ∈ mboxFlds m, f ≠ e.1) :
    (s.mboxAnswer m q c d x).rd f i = s.rd f i :=
  (s.mboxAnswer_frame m q c d x).1 f i (fun in_ => other _ in_ rfl)

theorem State.mboxAnswer_answered (s : State) (m : Nat) (q : BitVec 16) {c : Nat} (small : c < 16) (d x : Nat) :
    Answered (s.mboxAnswer m q.toNat c d x) m q.toNat c := by
  have code_ : (Fld.ree .MBOX_CODE).desc.width = 4 := rfl
  have seq_ : (Fld.ree .MBOX_SEQ).desc.width = 16 := rfl
  refine ⟨?_, ?_, ?_⟩
  · unfold State.mboxAnswer
    simp [code_, trunc_of_lt (w := 4) small]
  · unfold State.mboxAnswer
    simp [seq_, trunc_of_lt q.isLt]
  · simp [State.on, State.mboxAnswer]

/-- The detail of an answer. -/
theorem State.rd_mboxAnswer_detail (s : State) (m q c : Nat) {d : Nat} (small : d < 256) (x : Nat) :
    (s.mboxAnswer m q c d x).rd (.ree .MBOX_DETAIL) m = d := by
  have width : (Fld.ree .MBOX_DETAIL).desc.width = 8 := rfl
  unfold State.mboxAnswer
  simp [width, trunc_of_lt (w := 8) small]

/-- A refused command changes the fields of its mailbox alone. -/
theorem State.refused_frame (s : State) (m n q c d x : Nat) : Frame s ((s.posted m n).mboxAnswer m q c d x) (mboxFlds m) [] :=
  ((s.posted_frame m n).mono (by simp [mboxFlds]) (by simp)).trans ((s.posted m n).mboxAnswer_frame m q c d x)

/-! ## Serving -/

/-- What the firmware does with the words of a command. -/
def State.mboxDo (s : State) (m op : Nat) (w : List Nat) (v : Option Nat) : Nat × Nat × Nat × State :=
  let a (i : Nat) : Nat := w.getD i 0
  let late := s.mode == modeDormant
  match op with
  | 1 => if late then (3, 0, 0, s) else mbPlain (s.updBegin (a 1) m)
  | 2 => if late then (3, 0, 0, s) else
      mbPlain (s.updWrite m (a 4) (s.bytes .host (a 1 + 2 ^ 32 * a 2) (min (a 3) (2 ^ 20 + 1))))
  | 3 => if late then (3, 0, 0, s) else mbDet (s.updActivate m)
  | 4 => if s.onTrial then (0, 0, 0, s.bankConfirm) else (3, 0, 0, s)
  | 5 =>
    if late then (3, 0, 0, s)
    else match s.findImage (fun e => e.id == a 1 + 2 ^ 32 * a 2 && decide (e.cls ≤ 1)) with
      | none => (2, 0, 0, s)
      | some (e, l) =>
        if a 3 = 0 then (2, 0, 0, s)
        else if ¬ s.domOn (if e.cls = 0 then .engine else .core) then (3, 0, 0, s)
        else
          let r := s.loadImage l (a 3)
          if r.1 = 0 then (0, 0, 0, r.2) else (5, r.1, 0, r.2)
  | 6 => if ¬ s.domOn .weigh then (3, 0, 0, s) else mbData (s.wghPass (w.drop 1))
  | 7 => mbPlain (s.lcReq (a 1))
  | 8 => mbPlain (s.keyProg (a 1))
  | 9 => mbPlain (s.revoke (a 1))
  | 10 => mbPlain (s.shutdown (a 1 % 2 == 1) v)
  | 11 => mbPlain (s.lbistRun v)
  | 12 => mbPlain (s.almWrite (a 1) (a 2 + 2 ^ 32 * a 3))
  | 13 => mbPlain (s.ctxRestore (a 1))
  | 14 => if s.mode = modeService then mbPlain (s.unmark (a 1)) else (3, 0, 0, s)
  | 15 => mbDet s.recoveryGo
  | _ => (2, 0, 0, s)

theorem State.mboxRun_eq (fw : s.rd (.ree .STATUS_RSTATE) 0 = 1) (m : Nat) (w : List Nat) (v : Option Nat) :
    s.mboxRun m w v = s.mboxDo m (bits 0 8 (w.getD 0 0)) w v := by
  unfold State.mboxRun
  dsimp only
  rw [if_neg (fun c => absurd (fw.symm.trans c.1) (by decide))]
  rfl

/-- What follows a command: its answer while REEVE runs, and a transition that waited for DORMANT. -/
def State.mboxDone (m q : Nat) (r : Nat × Nat × Nat × State) : State :=
  let s := if r.2.2.2.domOn .reeve then r.2.2.2.mboxAnswer m q r.1 r.2.1 r.2.2.1 else r.2.2.2
  if s.h .lcPend ≠ 0 ∧ s.mode = modeDormant then (s.setH .lcPend 0 0).lcDo (s.h .lcPend - 1) else s

section Takes
variable {m : Fin 2} {op : Nat} {q : BitVec 16} {args : List Nat} {v : Option Nat}

/-- The command runs in the state in which it stands in the mailbox. -/
theorem MailTakes.run (takes : MailTakes s m) (op_ : op < 256) (small : ∀ x ∈ args, x < 2 ^ 32) :
    ∃ n : Nat, s.mailbox m op q args v = State.mboxDone m q.toNat
      ((s.posted m n).mboxDo m op (mailWords op q.toNat args) v) := by
  refine ⟨mailNumber op q.toNat args, ?_⟩
  have way : (decide (m = 1) || s.h .pcieOn == 1) = true := by
    rcases takes.way with fixed | on_
    · have isOne : m = 1 := Fin.ext fixed
      simp [isOne]
    · simp [on_]
  have op' : op < 65536 := by omega
  have number : (s.posted m (mailNumber op q.toNat args)).rd (.ree .MBOX_WORD) m = mailNumber op q.toNat args := by
    have width : (Fld.ree .MBOX_WORD).desc.width = 512 := rfl
    unfold State.posted
    rw [State.rd_wr, if_neg (by simp), State.rd_wr, if_pos ⟨rfl, rfl⟩, width]
    exact trunc_of_lt (w := 32 * 16) (mailNumber_lt _ _ _)
  have busy : (s.posted m (mailNumber op q.toNat args)).on (.ree .MBOX_BUSY) m = true := by
    have width : (Fld.ree .MBOX_BUSY).desc.width = 1 := rfl
    unfold State.posted
    rw [State.on, State.rd_wr, if_pos ⟨rfl, rfl⟩, width]
    rfl
  have fw : (s.posted m (mailNumber op q.toNat args)).rd (.ree .STATUS_RSTATE) 0 = 1 :=
    (s.rd_posted _ _ _ (by decide) (by decide)).trans takes.fw
  have opRead : bits 0 8 ((mailWords op q.toNat args).getD 0 0) = op := by
    change (op + 65536 * q.toNat) / 1 % 256 = op
    omega
  have served : (s.posted m (mailNumber op q.toNat args)).mboxServe m v = State.mboxDone m q.toNat
      ((s.posted m (mailNumber op q.toNat args)).mboxDo m op (mailWords op q.toNat args) v) := by
    generalize s.posted m (mailNumber op q.toNat args) = u at number busy fw
    unfold State.mboxServe
    dsimp only
    rw [if_neg (not_not_intro ⟨busy, .inl fw⟩), number, mailWords_read op' q.isLt small, mailSeq_read op' q.isLt small,
      State.mboxRun_eq fw, opRead]
    rfl
  have taken : s.mboxPost m ((op + 65536 * q.toNat) :: args) v = (s.posted m (mailNumber op q.toNat args)).mboxServe m v :=
    if_neg (by simp [takes.free])
  rw [← served, ← taken]
  exact (if_pos takes.on_).trans (State.when_of_true way _)

/-- A command that leaves REEVE on and no transition waiting is answered. -/
theorem State.mboxDone_answers {code det data : Nat} {u : State} (on_ : u.domOn .reeve = true) (idle : u.h .lcPend = 0 ∨
    u.mode ≠ modeDormant) : State.mboxDone m q.toNat (code, det, data, u) = u.mboxAnswer m q.toNat code det data := by
  unfold State.mboxDone
  dsimp only
  rw [if_pos on_]
  refine if_neg (fun c => ?_)
  rcases idle with none_ | awake
  · exact c.1 none_
  · exact awake ((u.rd_mboxAnswer m q.toNat code det data 0 (by simp [mboxFlds])).symm.trans c.2)

/-- A command that, wherever it stands, leaves REEVE on and no transition waiting is answered. -/
theorem MailTakes.answers (takes : MailTakes s m) (op_ : op < 256) (small : ∀ x ∈ args, x < 2 ^ 32) {code det data : Nat}
    {u : Nat → State} (run : ∀ n, (s.posted m n).mboxDo m op (mailWords op q.toNat args) v = (code, det, data, u n))
    (on_ : ∀ n, (u n).domOn .reeve = true) (idle : ∀ n, (u n).h .lcPend = 0 ∨ (u n).mode ≠ modeDormant) :
    ∃ n : Nat, (.next (s.mailbox m op q args v) : Host.Outcome State Fault Refusal) =
      .next ((u n).mboxAnswer m q.toNat code det data) := by
  obtain ⟨n, eq⟩ := takes.run (v := v) op_ small
  exact ⟨n, by rw [eq, run, State.mboxDone_answers (on_ n) (idle n)]⟩

theorem MailTakes.posted (takes : MailTakes s m) (n : Nat) :
    (s.posted m n).domOn .reeve = true ∧ (s.posted m n).h .lcPend = 0 := by
  refine ⟨?_, takes.idle⟩
  rw [State.domOn, State.domState, s.rd_posted _ _ _ (by decide) (by decide)]
  exact takes.on_

/-- A refused command is answered, and nothing else changes. -/
theorem MailTakes.refused (takes : MailTakes s m) (op_ : op < 256) (small : ∀ x ∈ args, x < 2 ^ 32) {code : Nat}
    (code_ : code < 16)
    (run : ∀ n, (s.posted m n).mboxDo m op (mailWords op q.toNat args) v = (code, 0, 0, s.posted m n)) :
    ∃ u : State, (.next (s.mailbox m op q args v) : Host.Outcome State Fault Refusal) = .next u ∧ Answered u m q.toNat code ∧
      Frame s u (mboxFlds m) [] := by
  obtain ⟨n, eq⟩ := takes.answers op_ small run (fun n => (takes.posted n).1) (fun n => .inl (takes.posted n).2)
  exact ⟨_, eq, State.mboxAnswer_answered _ _ _ code_ _ _, s.refused_frame _ _ _ _ _ _⟩

/-- A post to a mailbox that is BUSY is discarded and counted. -/
theorem State.mailbox_busy (on_ : s.domOn .reeve = true) (way : m.val = 1 ∨ s.h .pcieOn = 1)
    (busy : s.on (.ree .MBOX_BUSY) m = true) : s.mailbox m op q args v = s.count (.ree .MBOX_CMD_LOST) m := by
  have open_ : (decide (m = 1) || s.h .pcieOn == 1) = true := by
    rcases way with fixed | on_
    · have isOne : m = 1 := Fin.ext fixed
      simp [isOne]
    · simp [on_]
  exact (if_pos on_).trans ((State.when_of_true open_ _).trans (if_pos busy))

end Takes

end Sys2Proof.Machine

/-! Updates: begin, data, activation and confirmation, and loading images (R318, R319, R457, R463-R465). -/

namespace Sys2Proof.Machine

variable {s t : State}

/-! ## The banks -/

/-- The field of the state of bank b. -/
def bankFld (b : Nat) : Fld := if b = 0 then .ree .BANK_STATE0 else .ree .BANK_STATE1

theorem bankFld_width (b : Nat) : (bankFld b).desc.width = 3 := by
  unfold bankFld
  split <;> rfl

theorem bankFld_one_sub {b : Nat} (two : b < 2) : bankFld (1 - b) ≠ bankFld b := by
  rcases (by omega : b = 0 ∨ b = 1) with rfl | rfl <;> decide

theorem State.bank_setBank (s : State) (b v : Nat) : (s.setBank b v).bank b = trunc 3 v := by
  change (s.wr (bankFld b) 0 v).rd (bankFld b) 0 = _
  rw [State.rd_wr, if_pos ⟨rfl, rfl⟩, bankFld_width]

theorem State.bank_setBank_other (s : State) {b c : Nat} (v : Nat) (other : bankFld c ≠ bankFld b) :
    (s.setBank b v).bank c = s.bank c :=
  (State.rd_wr ..).trans (if_neg (fun e => other e.1))

/-- A field that is neither a bank's state nor the trial count. -/
def Fld.isBank (f : Fld) : Bool := f == .ree .BANK_STATE0 || f == .ree .BANK_STATE1 || f == .ree .BANK_TRIAL_CNT

theorem State.rd_setBank (s : State) (b v : Nat) {f : Fld} (i : Nat) (other : f.isBank = false) :
    (s.setBank b v).rd f i = s.rd f i := by
  refine (State.rd_wr ..).trans (if_neg (fun e => ?_))
  rw [e.1] at other
  split at other <;> exact Bool.noConfusion other

section BankPut
variable {b c st trial : Nat}

theorem State.rd_dirWrite (s : State) (b trial : Nat) (f : Fld) (i : Nat) : (s.dirWrite b trial).rd f i = s.rd f i :=
  State.rd_setBytes ..

theorem State.rd_bankPut (s : State) (b st trial : Nat) {f : Fld} (i : Nat) (other : f.isBank = false) :
    (s.bankPut b st trial).rd f i = s.rd f i := by
  refine (State.rd_dirWrite ..).trans ((State.rd_wr ..).trans ((if_neg (fun e => ?_)).trans (s.rd_setBank b st i other)))
  rw [e.1] at other
  exact Bool.noConfusion other

theorem State.bank_bankPut (s : State) (b st trial : Nat) : (s.bankPut b st trial).bank b = trunc 3 st := by
  have count : ¬ (bankFld b = .ree .BANK_TRIAL_CNT ∧ 0 = 0) := by
    unfold bankFld
    split <;> simp
  exact (State.rd_dirWrite ..).trans ((State.rd_wr ..).trans ((if_neg count).trans (s.bank_setBank b st)))

theorem State.bank_bankPut_other (s : State) (st trial : Nat) (other : bankFld c ≠ bankFld b) :
    (s.bankPut b st trial).bank c = s.bank c := by
  have count : ¬ (bankFld c = .ree .BANK_TRIAL_CNT ∧ 0 = 0) := by
    unfold bankFld
    split <;> simp
  exact (State.rd_dirWrite ..).trans ((State.rd_wr ..).trans ((if_neg count).trans (s.bank_setBank_other st other)))

theorem State.trial_bankPut (s : State) (b st trial : Nat) :
    (s.bankPut b st trial).rd (.ree .BANK_TRIAL_CNT) 0 = trunc 2 trial :=
  (State.rd_dirWrite ..).trans ((State.rd_wr ..).trans (if_pos ⟨rfl, rfl⟩))

theorem State.h_bankPut (s : State) (b st trial : Nat) (x : Hid) (i : Nat) : (s.bankPut b st trial).h x i = s.h x i :=
  State.h_setBytes ..

theorem State.age_setBytes (s : State) (r : Region) (a : Nat) (l : List Byte) : (s.setBytes r a l).age = s.age := by
  rw [State.setBytes_mem]

theorem State.age_bankPut (s : State) (b st trial : Nat) : (s.bankPut b st trial).age = s.age := State.age_setBytes ..

end BankPut

/-- A Ledger entry leaves the banks alone. -/
theorem State.bank_ledger (s : State) (c : Nat) (l : Bool) (d x : Nat) (q : LedSrc) (b : Nat) :
    (s.ledger c l d x q).bank b = s.bank b := by
  refine State.rd_ledger _ _ _ _ _ _ _ _ ?_
  split <;> decide

theorem State.bank_setH (s : State) (x : Hid) (i v b : Nat) : (s.setH x i v).bank b = s.bank b := rfl

theorem State.bank_updLedger (s : State) (what d : Nat) (q : LedSrc) (b : Nat) : (s.updLedger what d q).bank b = s.bank b := by
  unfold State.updLedger
  exact State.bank_ledger ..

theorem State.rd_updLedger (s : State) (what d : Nat) (q : LedSrc) {f : Fld} (i : Nat) (other : f ∉ ledgerFlds) :
    (s.updLedger what d q).rd f i = s.rd f i := by
  unfold State.updLedger
  exact State.rd_ledger _ _ _ _ _ _ _ _ other

theorem State.h_updLedger (s : State) (what d : Nat) (q : LedSrc) {x : Hid} (i : Nat) (other : x ≠ .archCount) :
    (s.updLedger what d q).h x i = s.h x i := by
  unfold State.updLedger
  exact State.h_ledger _ _ _ _ _ _ _ _ other

theorem State.bank_mboxAnswer (s : State) (m q c d x b : Nat) : (s.mboxAnswer m q c d x).bank b = s.bank b := by
  refine s.rd_mboxAnswer m q c d x 0 ?_
  split <;> simp [mboxFlds]

theorem State.bank_posted (s : State) (m n b : Nat) : (s.posted m n).bank b = s.bank b := by
  refine s.rd_posted m n 0 ?_ ?_ <;> split <;> decide

theorem State.writing_posted (s : State) (m n : Nat) : (s.posted m n).writing = s.writing := by
  unfold State.writing
  rw [s.bank_posted, s.bank_posted]

/-- The bank that is written is in state WRITING. -/
theorem State.bank_of_writing {b : Nat} (writes : s.writing = some b) : s.bank b = 1 := by
  unfold State.writing at writes
  split at writes
  · next is0 => exact Option.some.inj writes ▸ is0
  · split at writes
    · next is1 => exact Option.some.inj writes ▸ is1
    · exact absurd writes (by simp)

/-! ## What a waiting command leaves to be read -/

section Posted
variable (s : State) (m n : Nat)

theorem State.on_posted (s : State) (m n : Nat) {f : Fld} (i : Nat) (word : f ≠ .ree .MBOX_WORD) (busy : f ≠ .ree .MBOX_BUSY) :
    (s.posted m n).on f i = s.on f i := State.on_of_rd (s.rd_posted m n i word busy)

theorem State.mode_posted : (s.posted m n).mode = s.mode := s.rd_posted _ _ _ (by decide) (by decide)

theorem State.lc_posted : (s.posted m n).lc = s.lc := s.rd_posted _ _ _ (by decide) (by decide)

theorem State.booted_posted : (s.posted m n).booted = s.booted := s.rd_posted _ _ _ (by decide) (by decide)

theorem State.domOn_posted (d : Dom) : (s.posted m n).domOn d = s.domOn d := by
  rw [State.domOn, State.domOn, State.domState, State.domState, s.rd_posted _ _ _ (by decide) (by decide)]

theorem State.bytes_posted (r : Region) (a k : Nat) : (s.posted m n).bytes r a k = s.bytes r a k :=
  State.bytes_congr (fun _ _ _ => rfl)

theorem State.keyLive_posted (k : Nat) : (s.posted m n).keyLive k = s.keyLive k := by
  rw [State.keyLive, State.keyLive, s.rd_posted _ _ _ (by decide) (by decide)]

theorem State.arbOf_posted (c : Nat) : (s.posted m n).arbOf c = s.arbOf c := by
  unfold State.arbOf
  split
  · exact s.rd_posted _ _ _ (by decide) (by decide)
  · exact s.rd_posted _ _ _ (by decide) (by decide)
  · exact s.rd_posted _ _ _ (by decide) (by decide)
  · rfl

theorem State.imgCode_posted (l : List Byte) : (s.posted m n).imgCode l = s.imgCode l := by
  have signer : ∀ c k, (s.posted m n).keyFor c k = s.keyFor c k := by
    intro c k
    rw [State.keyFor, State.keyFor, s.lc_posted]
  have signed : (s.posted m n).imgCode5 l = s.imgCode5 l := by
    unfold State.imgCode5
    dsimp only
    rw [signer, s.keyLive_posted]
    rfl
  rw [State.imgCode, State.imgCode, signed, s.arbOf_posted]

theorem State.dirOf_posted (b : Nat) : (s.posted m n).dirOf b = s.dirOf b := s.bytes_posted ..

theorem State.entImage_posted (b : Nat) (e : DirEnt) : (s.posted m n).entImage b e = s.entImage b e := s.bytes_posted ..

theorem State.bankBadImage_posted (b : Nat) : (s.posted m n).bankBadImage b = s.bankBadImage b := by
  unfold State.bankBadImage
  simp only [s.dirOf_posted, s.entImage_posted, s.imgCode_posted]

theorem State.findImage_posted (p : DirEnt → Bool) : (s.posted m n).findImage p = s.findImage p := by
  unfold State.findImage
  simp only [s.booted_posted, s.dirOf_posted, s.entImage_posted]

theorem State.onTrial_posted : (s.posted m n).onTrial = s.onTrial := by
  rw [State.onTrial, State.onTrial, s.rd_posted _ _ _ (by decide) (by decide), s.booted_posted, s.bank_posted]

end Posted

/-! ## UPDATE_BEGIN -/

section Begin
variable {b src : Nat}

/-- A bank that begins to be written. -/
def State.begun (s : State) (b src : Nat) : State :=
  let s := (s.wipe .flash (bankBase b) (bankBase b + 4096)).setBank b 1
  (s.setH .bankSeq b (s.h .bankSeq (1 - b) + 1)).setH .bankSrc 0 (src + 1)

theorem State.updBegin_starts (two : b < 2) (free : s.bank b = 0 ∨ s.bank b = 4 ∨ s.bank b = 5) :
    s.updBegin b src = (0, s.begun b src) :=
  (if_neg (Nat.not_le.mpr two)).trans (if_neg (fun c => c (by tauto)))

theorem State.updBegin_range (none_ : 2 ≤ b) : s.updBegin b src = (2, s) := if_pos none_

theorem State.updBegin_used (two : b < 2) (used : s.bank b = 1 ∨ s.bank b = 2 ∨ s.bank b = 3) : s.updBegin b src = (3, s) :=
  (if_neg (Nat.not_le.mpr two)).trans (if_pos (by omega))

theorem State.begun_values (s : State) (two : b < 2) (src : Nat) :
    (s.begun b src).bank b = 1 ∧ (s.begun b src).bank (1 - b) = s.bank (1 - b) ∧ (s.begun b src).h .bankSrc = src + 1 ∧
      (s.begun b src).h .bankSeq b = s.h .bankSeq (1 - b) + 1 ∧ (s.begun b src).domOn .reeve = s.domOn .reeve ∧
      (s.begun b src).h .lcPend = s.h .lcPend ∧ ∀ r a, (s.begun b src).byte r a =
        if r = .flash ∧ bankBase b ≤ a ∧ a < bankBase b + 4096 then 0 else s.byte r a := by
  have on_ : (s.begun b src).rd (.hrt .PWR_STAT_STATE) 0 = s.rd (.hrt .PWR_STAT_STATE) 0 :=
    State.rd_setBank (s.wipe .flash (bankBase b) (bankBase b + 4096)) b 1 0 rfl
  refine ⟨State.bank_setBank (s.wipe .flash (bankBase b) (bankBase b + 4096)) b 1,
    State.bank_setBank_other (s.wipe .flash (bankBase b) (bankBase b + 4096)) 1 (bankFld_one_sub two), State.h_setH ..,
    (State.h_setH_other _ _ _ _ (by decide)).trans ((State.h_setH ..).trans (if_pos ⟨rfl, rfl⟩)), ?_,
    (State.h_setH_other _ _ _ _ (by decide)).trans (State.h_setH_other _ _ _ _ (by decide)), ?_⟩
  · rw [State.domOn, State.domState, on_]
    rfl
  · exact fun r a => State.byte_wipe ..

end Begin

/-! ## UPDATE_WRITE -/

theorem State.length_bytes (s : State) (r : Region) (a n : Nat) : (s.bytes r a n).length = n := by
  induction n generalizing a with
  | zero => rfl
  | succ n ih => exact congrArg (· + 1) (ih (a + 1))

theorem State.getD_bytes (s : State) (r : Region) (a : Nat) {n i : Nat} (inside : i < n) :
    (s.bytes r a n).getD i 0 = s.byte r (a + i) := by
  induction n generalizing a i with
  | zero => exact absurd inside (Nat.not_lt_zero i)
  | succ n ih =>
    cases i with
    | zero => rfl
    | succ i =>
      refine (ih (a + 1) (Nat.lt_of_succ_lt_succ inside)).trans ?_
      rw [Nat.add_assoc, Nat.add_comm 1 i]

section Write
variable {b src ofs : Nat} {data : List Byte}

theorem State.updWrite_none (none_ : s.writing = none) : s.updWrite src ofs data = (3, s) := by
  rw [State.updWrite, none_]

theorem State.updWrite_other (writes : s.writing = some b) (other : s.h .bankSrc ≠ src + 1) :
    s.updWrite src ofs data = (1, s) := by
  rw [State.updWrite, writes]
  exact if_pos other

theorem State.updWrite_range (writes : s.writing = some b) (own : s.h .bankSrc = src + 1)
    (out : data.length = 0 ∨ 2 ^ 20 < data.length ∨ Config.flashHalf < ofs + data.length) : s.updWrite src ofs data = (2, s) := by
  rw [State.updWrite, writes]
  exact (if_neg (not_not_intro own)).trans (if_pos out)

theorem State.updWrite_writes (writes : s.writing = some b) (own : s.h .bankSrc = src + 1)
    (inside : ¬ (data.length = 0 ∨ 2 ^ 20 < data.length ∨ Config.flashHalf < ofs + data.length)) :
    s.updWrite src ofs data = (0, s.setBytes .flash (bankBase b + ofs) data) := by
  rw [State.updWrite, writes]
  exact (if_neg (not_not_intro own)).trans (if_neg inside)

end Write

/-! ## UPDATE_ACTIVATE -/

theorem State.inTransition_eq (lcPend : t.h .lcPend = s.h .lcPend) (armed : t.rd (.ree .LC_ARMED) 0 = s.rd (.ree .LC_ARMED) 0) :
    t.inTransition = s.inTransition := by
  rw [State.inTransition, State.inTransition, State.on, State.on, lcPend, armed]

/-- What no bank operation changes: other registers, but those of the Ledger, and hidden values but the time of the
confirmation. -/
structure BanksOnly (s t : State) : Prop where
  rd : ∀ f i, f.isMgmt = true → f.isBank = false → f ≠ .ree .ARB_ENG → f ≠ .ree .ARB_STG → f ≠ .ree .ARB_REV →
    t.rd f i = s.rd f i
  h : ∀ x i, x ∉ unitHids → x ≠ .confirmAt → x ≠ .warmAt → t.h x i = s.h x i
  age : t.age = s.age

namespace BanksOnly
variable {u : State}

theorem refl : BanksOnly s s := ⟨fun _ _ _ _ _ _ _ => rfl, fun _ _ _ _ _ => rfl, rfl⟩

theorem bankPut (b st trial : Nat) (a : BanksOnly s t) : BanksOnly s (t.bankPut b st trial) :=
  ⟨fun f i m n x y z => (t.rd_bankPut b st trial i n).trans (a.rd f i m n x y z),
   fun x i m c w => (t.h_bankPut b st trial x i).trans (a.h x i m c w), (t.age_bankPut b st trial).trans a.age⟩

theorem units (a : BanksOnly s t) (b : UnitsOnly t u) : BanksOnly s u :=
  ⟨fun f i m n x y z => (b.rd f i m).trans (a.rd f i m n x y z), fun x i m c w => (b.h x i m).trans (a.h x i m c w),
   b.age.trans a.age⟩

theorem updLedger (what b : Nat) (q : LedSrc) (a : BanksOnly s t) : BanksOnly s (t.updLedger what b q) :=
  a.units (UnitsOnly.refl.ledger _ _ _ _ _)

theorem setH (x : Hid) (i v : Nat) (own : x = .confirmAt ∨ x = .warmAt) (a : BanksOnly s t) : BanksOnly s (t.setH x i v) :=
  ⟨a.rd, fun y j m c w => (State.h_setH_other _ _ _ _ (fun e => by
    rcases own with isC | isW
    · exact c (e.trans isC)
    · exact w (e.trans isW))).trans (a.h y j m c w), a.age⟩

theorem arbRaise (f : Fld) (v : Nat) (own : f = .ree .ARB_ENG ∨ f = .ree .ARB_STG ∨ f = .ree .ARB_REV) (a : BanksOnly s t) :
    BanksOnly s (t.arbRaise f v) :=
  ⟨fun g j m n x y z => (State.rd_wr ..).trans ((if_neg (fun e => by
    rcases own with isE | isS | isR
    · exact x (e.1.trans isE)
    · exact y (e.1.trans isS)
    · exact z (e.1.trans isR))).trans (a.rd g j m n x y z)), a.h, a.age⟩

theorem warmAtSet (n : Nat) (a : BanksOnly s t) : BanksOnly s (t.warmAtSet n) :=
  iteS a (a.setH _ _ _ (.inr rfl))

theorem domOn (a : BanksOnly s t) (d : Dom) : t.domOn d = s.domOn d := by
  rw [State.domOn, State.domOn, State.domState, State.domState,
    a.rd _ _ rfl rfl (by decide) (by decide) (by decide)]

theorem lcPend (a : BanksOnly s t) : t.h .lcPend = s.h .lcPend := a.h _ _ (by decide) (by decide) (by decide)

theorem inTransition (a : BanksOnly s t) : t.inTransition = s.inTransition :=
  State.inTransition_eq a.lcPend (a.rd _ _ rfl rfl (by decide) (by decide) (by decide))

end BanksOnly

/-- The bank goes on trial, and a warm reset is asked for. -/
def State.activated (s : State) (b : Nat) : State := ((s.bankPut b 2 0).updLedger 1 b).warmAtSet (s.age + msTicks 10)

section Activate
variable {b src : Nat}

theorem State.updActivate_good (writes : s.writing = some b) (own : s.h .bankSrc = src + 1) (good : s.bankBadImage b = none) :
    s.updActivate src = (0, 0, s.activated b) := by
  rw [State.updActivate, writes]
  refine (if_neg (not_not_intro own)).trans ?_
  rw [good]
  rfl

theorem State.updActivate_bad {c : Nat} {l : List Byte} (writes : s.writing = some b) (own : s.h .bankSrc = src + 1)
    (bad : s.bankBadImage b = some (c, l)) : s.updActivate src = (5, c, s.imgRefused c l) := by
  rw [State.updActivate, writes]
  refine (if_neg (not_not_intro own)).trans ?_
  rw [bad]

theorem State.activated_only (s : State) (b : Nat) : BanksOnly s (s.activated b) :=
  ((BanksOnly.refl.bankPut b 2 0).updLedger 1 b .reeve).warmAtSet _

/-- A bank on trial whose warm reset is asked for. -/
theorem State.trial_values (idle : s.inTransition = false) (unset : s.h .warmAt = 0) (b w : Nat) :
    (((s.bankPut b 2 0).updLedger 1 b).warmAtSet w).bank b = 2 ∧
      (((s.bankPut b 2 0).updLedger 1 b).warmAtSet w).rd (.ree .BANK_TRIAL_CNT) 0 = 0 ∧
      (((s.bankPut b 2 0).updLedger 1 b).warmAtSet w).h .warmAt = w + 1 := by
  have tried : BanksOnly s ((s.bankPut b 2 0).updLedger 1 b) := (BanksOnly.refl.bankPut b 2 0).updLedger 1 b .reeve
  have bank : ((s.bankPut b 2 0).updLedger 1 b).bank b = 2 := (State.bank_updLedger ..).trans (s.bank_bankPut b 2 0)
  have trial : ((s.bankPut b 2 0).updLedger 1 b).rd (.ree .BANK_TRIAL_CNT) 0 = 0 :=
    (State.rd_updLedger _ _ _ _ _ (by decide)).trans (s.trial_bankPut b 2 0)
  have warm : ((s.bankPut b 2 0).updLedger 1 b).h .warmAt = 0 :=
    (State.h_updLedger _ _ _ _ _ (by decide)).trans ((s.h_bankPut b 2 0 _ _).trans unset)
  have free : ((s.bankPut b 2 0).updLedger 1 b).inTransition = false := tried.inTransition.trans idle
  generalize (s.bankPut b 2 0).updLedger 1 b = u at bank trial warm free
  have scheduled : u.warmAtSet w = u.setH .warmAt 0 (w + 1) := if_neg (by simp [free, warm])
  rw [scheduled]
  exact ⟨bank, trial, (State.h_setH ..).trans (if_pos ⟨rfl, rfl⟩)⟩

theorem State.activated_values (idle : s.inTransition = false) (unset : s.h .warmAt = 0) (b : Nat) :
    (s.activated b).bank b = 2 ∧ (s.activated b).rd (.ree .BANK_TRIAL_CNT) 0 = 0 ∧
      (s.activated b).h .warmAt = s.age + msTicks 10 + 1 :=
  State.trial_values idle unset b (s.age + msTicks 10)

end Activate

/-! ## UPDATE_CONFIRM -/

theorem State.rd_setH (s : State) (x : Hid) (i v : Nat) (f : Fld) (j : Nat) : (s.setH x i v).rd f j = s.rd f j := rfl

/-- A value that the store keeps fits its field, where its reset value does. -/
theorem State.rd_lt_of_fit (fits : regsFit s.regs = true) {f : Fld} {i : Nat}
    (reset : resetVal s.variant f i < 2 ^ f.desc.width) : s.rd f i < 2 ^ f.desc.width := by
  unfold State.rd
  generalize resetVal s.variant f i = d at reset
  generalize s.regs = l at fits
  induction l with
  | nil => exact reset
  | cons e l ih =>
    simp only [regsFit, List.all_cons, Bool.and_eq_true, decide_eq_true_eq] at fits
    by_cases same : e.1 = (f, i)
    · have own := fits.1
      rw [same] at own
      simpa [Assoc.get, same] using own
    · simpa [Assoc.get, same] using ih fits.2

/-- The three anti-rollback values are raised, never lowered (R457). -/
theorem State.le_arbRaise {f : Fld} (width : f.desc.width = 8) (small : s.rd f 0 < 2 ^ 8) (v : Nat) :
    s.rd f 0 ≤ (s.arbRaise f v).rd f 0 := by
  unfold State.arbRaise
  rw [State.rd_wr, if_pos ⟨rfl, rfl⟩, width, trunc_of_lt (by omega)]
  exact Nat.le_max_left ..

theorem State.rd_arbRaise_other {f g : Fld} (i v : Nat) (other : g ≠ f) : (s.arbRaise f v).rd g i = s.rd g i :=
  (State.rd_wr ..).trans (if_neg (fun e => other e.1))

/-- The directories as the confirmation leaves them: the trial bank ACTIVE, the ACTIVE one PREVIOUS. -/
def State.swapped (s : State) : State :=
  (if s.bank (1 - s.booted) = 3 then s.bankPut (1 - s.booted) 4 0 else s).bankPut s.booted 3 0

/-- The counters raised. -/
def State.raisedArb (s : State) (x y z : Nat) : State :=
  ((s.arbRaise (.ree .ARB_ENG) x).arbRaise (.ree .ARB_STG) y).arbRaise (.ree .ARB_REV) z

theorem State.bankConfirm_eq (s : State) : ∃ x y z : Nat,
    s.bankConfirm = ((s.swapped.raisedArb x y z).setH .confirmAt 0 0).updLedger 2 s.booted := ⟨_, _, _, rfl⟩

theorem State.swapped_values (two : s.booted < 2) : s.swapped.bank s.booted = 3 ∧
    (s.bank (1 - s.booted) = 3 → s.swapped.bank (1 - s.booted) = 4) := by
  refine ⟨State.bank_bankPut .., fun active => ?_⟩
  unfold State.swapped
  rw [if_pos active]
  exact (State.bank_bankPut_other _ _ _ (bankFld_one_sub two)).trans (State.bank_bankPut ..)

theorem State.swapped_only (s : State) : BanksOnly s s.swapped :=
  BanksOnly.bankPut _ _ _ (iteS (BanksOnly.refl.bankPut _ _ _) .refl)

theorem State.raisedArb_only (s : State) (x y z : Nat) : BanksOnly s (s.raisedArb x y z) :=
  ((BanksOnly.refl.arbRaise _ _ (.inl rfl)).arbRaise _ _ (.inr (.inl rfl))).arbRaise _ _ (.inr (.inr rfl))

theorem State.bank_raisedArb (s : State) (x y z b : Nat) : (s.raisedArb x y z).bank b = s.bank b := by
  have kept : ∀ (u : State) (f : Fld) (v : Nat), f = .ree .ARB_ENG ∨ f = .ree .ARB_STG ∨ f = .ree .ARB_REV →
      (u.arbRaise f v).bank b = u.bank b := by
    rintro u f v own
    refine State.rd_arbRaise_other _ _ ?_
    rcases own with rfl | rfl | rfl <;> split <;> decide
  exact (kept _ _ _ (.inr (.inr rfl))).trans ((kept _ _ _ (.inr (.inl rfl))).trans (kept _ _ _ (.inl rfl)))

/-- No counter falls. -/
theorem State.raisedArb_le (eng : s.rd (.ree .ARB_ENG) 0 < 2 ^ 8) (stg : s.rd (.ree .ARB_STG) 0 < 2 ^ 8)
    (rev : s.rd (.ree .ARB_REV) 0 < 2 ^ 8) (x y z : Nat) :
    s.rd (.ree .ARB_ENG) 0 ≤ (s.raisedArb x y z).rd (.ree .ARB_ENG) 0 ∧
      s.rd (.ree .ARB_STG) 0 ≤ (s.raisedArb x y z).rd (.ree .ARB_STG) 0 ∧
      s.rd (.ree .ARB_REV) 0 ≤ (s.raisedArb x y z).rd (.ree .ARB_REV) 0 := by
  unfold State.raisedArb
  refine ⟨?_, ?_, ?_⟩
  · rw [State.rd_arbRaise_other _ _ (by decide), State.rd_arbRaise_other _ _ (by decide)]
    exact State.le_arbRaise rfl eng x
  · have same : (s.arbRaise (.ree .ARB_ENG) x).rd (.ree .ARB_STG) 0 = s.rd (.ree .ARB_STG) 0 :=
      State.rd_arbRaise_other _ _ (by decide)
    rw [State.rd_arbRaise_other _ _ (by decide), ← same]
    exact State.le_arbRaise rfl (by rw [same]; exact stg) y
  · have same : ((s.arbRaise (.ree .ARB_ENG) x).arbRaise (.ree .ARB_STG) y).rd (.ree .ARB_REV) 0 = s.rd (.ree .ARB_REV) 0 :=
      (State.rd_arbRaise_other _ _ (by decide)).trans (State.rd_arbRaise_other _ _ (by decide))
    rw [← same]
    exact State.le_arbRaise rfl (by rw [same]; exact rev) z

theorem State.bankConfirm_only (s : State) : BanksOnly s s.bankConfirm := by
  obtain ⟨x, y, z, eq⟩ := s.bankConfirm_eq
  have a := s.swapped_only
  rw [eq]
  generalize s.swapped = u at a ⊢
  exact ((((a.arbRaise _ x (.inl rfl)).arbRaise _ y (.inr (.inl rfl))).arbRaise _ z (.inr (.inr rfl))).setH _ _ _
    (.inl rfl)).updLedger _ _ _

theorem State.regsFit_wr (fits : regsFit s.regs = true) (f : Fld) (i v : Nat) : regsFit (s.wr f i v).regs = true :=
  regsFit_set _ _ _ _ fits

theorem State.bankConfirm_values (fits : regsFit s.regs = true) : s.bankConfirm.bank s.booted = 3 ∧
    (s.bank (1 - s.booted) = 3 → s.bankConfirm.bank (1 - s.booted) = 4) ∧ s.bankConfirm.h .confirmAt = 0 ∧
    s.rd (.ree .ARB_ENG) 0 ≤ s.bankConfirm.rd (.ree .ARB_ENG) 0 ∧
    s.rd (.ree .ARB_STG) 0 ≤ s.bankConfirm.rd (.ree .ARB_STG) 0 ∧
    s.rd (.ree .ARB_REV) 0 ≤ s.bankConfirm.rd (.ree .ARB_REV) 0 := by
  have two : s.booted < 2 := State.rd_lt_of_fit fits (f := .ree .BOOT_BANK) (Nat.two_pow_pos 1)
  have eng : s.rd (.ree .ARB_ENG) 0 < 2 ^ 8 := State.rd_lt_of_fit fits (f := .ree .ARB_ENG) (Nat.two_pow_pos 8)
  have stg : s.rd (.ree .ARB_STG) 0 < 2 ^ 8 := State.rd_lt_of_fit fits (f := .ree .ARB_STG) (Nat.two_pow_pos 8)
  have rev : s.rd (.ree .ARB_REV) 0 < 2 ^ 8 := State.rd_lt_of_fit fits (f := .ree .ARB_REV) (Nat.two_pow_pos 8)
  have swapArb : ∀ f, f = .ree .ARB_ENG ∨ f = .ree .ARB_STG ∨ f = .ree .ARB_REV → s.swapped.rd f 0 = s.rd f 0 := by
    intro f own
    have bank : f.isBank = false := by rcases own with rfl | rfl | rfl <;> rfl
    refine (State.rd_bankPut _ _ _ _ _ bank).trans ?_
    split
    · exact State.rd_bankPut _ _ _ _ _ bank
    · rfl
  obtain ⟨x, y, z, eq⟩ := s.bankConfirm_eq
  obtain ⟨active, previous⟩ := State.swapped_values two
  rw [← swapArb _ (.inl rfl)] at eng ⊢
  rw [← swapArb _ (.inr (.inl rfl))] at stg ⊢
  rw [← swapArb _ (.inr (.inr rfl))] at rev ⊢
  obtain ⟨engLe, stgLe, revLe⟩ := State.raisedArb_le eng stg rev x y z
  rw [eq]
  have bank : ∀ b, (((s.swapped.raisedArb x y z).setH .confirmAt 0 0).updLedger 2 s.booted).bank b = s.swapped.bank b :=
    fun b => by rw [State.bank_updLedger, State.bank_setH, State.bank_raisedArb]
  have rd : ∀ f, f ∉ ledgerFlds → (((s.swapped.raisedArb x y z).setH .confirmAt 0 0).updLedger 2 s.booted).rd f 0 =
      (s.swapped.raisedArb x y z).rd f 0 := fun f m => by
    rw [State.rd_updLedger _ _ _ _ _ m, State.rd_setH]
  refine ⟨(bank _).trans active, fun prev => (bank _).trans (previous prev), ?_, ?_, ?_, ?_⟩
  · rw [State.h_updLedger _ _ _ _ _ (by decide), State.h_setH, if_pos ⟨rfl, rfl⟩]
  · rw [rd _ (by decide)]
    exact engLe
  · rw [rd _ (by decide)]
    exact stgLe
  · rw [rd _ (by decide)]
    exact revLe

/-! ## CONFIRM_TIMEOUT -/

theorem State.bankRevert_only (s : State) (b : Nat) (q : LedSrc) : BanksOnly s (s.bankRevert b q) := by
  unfold State.bankRevert
  exact (((BanksOnly.refl.bankPut b 5 (s.rd (.ree .BANK_TRIAL_CNT) 0)).updLedger 3 b q).setH .confirmAt 0 0 (.inl rfl)).units
    (UnitsOnly.refl.raise _ _ _ _)

theorem State.bankRevert_values (s : State) (b : Nat) (q : LedSrc) :
    (s.bankRevert b q).bank b = 5 ∧ (s.bankRevert b q).h .confirmAt = 0 ∧ (s.bankRevert b q).h .warmAt = s.h .warmAt := by
  unfold State.bankRevert
  dsimp only
  generalize s.rd (.ree .BANK_TRIAL_CNT) 0 = n
  have bank : (((s.bankPut b 5 n).updLedger 3 b q).setH .confirmAt 0 0).bank b = 5 := by
    rw [State.bank_setH, State.bank_updLedger, State.bank_bankPut]
    rfl
  have done_ : (((s.bankPut b 5 n).updLedger 3 b q).setH .confirmAt 0 0).h .confirmAt = 0 :=
    (State.h_setH ..).trans (if_pos ⟨rfl, rfl⟩)
  have warm : (((s.bankPut b 5 n).updLedger 3 b q).setH .confirmAt 0 0).h .warmAt = s.h .warmAt :=
    (State.h_setH_other _ _ _ _ (by decide)).trans ((State.h_updLedger _ _ _ _ _ (by decide)).trans (s.h_bankPut b 5 n _ _))
  generalize ((s.bankPut b 5 n).updLedger 3 b q).setH .confirmAt 0 0 = u at bank done_ warm ⊢
  have event := u.raise_crier .REE_UPDATE_REVERTED locReeve b 0
  refine ⟨?_, (event.h _ _ (by decide)).trans done_, (event.h _ _ (by decide)).trans warm⟩
  refine (event.rd _ _ ?_).trans bank
  split <;> rfl

/-- The trial's time is over: the bank is BAD, and a warm reset acts at once. -/
theorem State.revert_values (idle : s.inTransition = false) (unset : s.h .warmAt = 0) (b : Nat) :
    ((s.bankRevert b).warmAtSet s.age).bank b = 5 ∧ ((s.bankRevert b).warmAtSet s.age).h .confirmAt = 0 ∧
      ((s.bankRevert b).warmAtSet s.age).h .warmAt = ((s.bankRevert b).warmAtSet s.age).age + 1 := by
  have only := s.bankRevert_only b .reeve
  obtain ⟨bank, done_, warm⟩ := s.bankRevert_values b .reeve
  have free := only.inTransition.trans idle
  have age := only.age
  generalize s.bankRevert b .reeve = u at bank done_ warm free age
  have set_ := State.h_warmAtSet free (warm.trans unset) s.age
  have scheduled : u.warmAtSet s.age = u.setH .warmAt 0 (s.age + 1) := if_neg (by simp [free, warm, unset])
  rw [scheduled] at set_ ⊢
  refine ⟨bank, (State.h_setH_other _ _ _ _ (by decide)).trans done_, set_.trans ?_⟩
  exact congrArg (· + 1) age.symm

/-! ## LOAD_IMAGE -/

section Load
variable {l : List Byte} {k : Nat}

theorem State.loadImage_refused {c : Nat} (code : s.imgCode l = c) (bad : c ≠ 0) : s.loadImage l k = (c, s.imgRefused c l) := by
  unfold State.loadImage
  dsimp only
  rw [code, if_pos bad, if_pos bad]

theorem State.loadImage_engine (good : s.imgCode l = 0) (class_ : imgCLASS l = 0) :
    s.loadImage l k = if s.engTargetBad l k = true then (7, s.imgRefused 7 l) else
      (0, (bitsOf 16 k).foldl (fun s e => s.loadEngine l e) s) := by
  unfold State.loadImage
  dsimp only
  rw [if_neg (not_not_intro good), if_pos class_]
  by_cases bad : s.engTargetBad l k = true
  · rw [if_pos bad, if_pos bad, if_pos (by decide)]
  · rw [if_neg bad, if_neg bad, if_neg (by decide), if_pos class_]

theorem State.loadImage_stage (good : s.imgCode l = 0) (class_ : imgCLASS l = 1) (small : k < 256) :
    s.loadImage l k = (0, s.loadStage l k) := by
  have other : imgCLASS l ≠ 0 := by omega
  unfold State.loadImage
  dsimp only
  rw [if_neg (not_not_intro good), if_neg other, if_pos class_, if_neg (Nat.not_le.mpr small), if_neg (by decide), if_neg other]

end Load

theorem UnitsOnly.domOn (a : UnitsOnly s t) (d : Dom) : t.domOn d = s.domOn d := by
  rw [State.domOn, State.domOn, State.domState, State.domState, a.rd _ _ rfl]

/-! ## The obligation -/

theorem twoWords_sum (n : Nat) : n % 2 ^ 32 + 2 ^ 32 * (n / 2 ^ 32) = n := Nat.mod_add_div n _

theorem twoWords_small (x : BitVec 64) : ∀ y ∈ twoWords x.toNat, y < 2 ^ 32 := by
  have wide := x.isLt
  intro y in_
  rcases List.mem_cons.mp in_ with rfl | in_
  · exact Nat.mod_lt _ (by decide)
  · rw [List.mem_singleton.mp in_]
    omega

theorem State.late_posted (awake : s.mode ≠ modeDormant) (m n : Nat) : ((s.posted m n).mode == modeDormant) = false := by
  rw [State.mode_posted]
  exact beq_eq_false_iff_ne.mpr awake

section Rows
variable {m q : Nat} {v : Option Nat}

/-- The row of UPDATE_BEGIN. -/
theorem State.mboxDo_begin (awake : (s.mode == modeDormant) = false) (b : Nat) :
    s.mboxDo m 1 (mailWords 1 q [b]) v = mbPlain (s.updBegin b m) :=
  if_neg (by rw [awake]; exact Bool.false_ne_true)

theorem State.begin_row {b c n : Nat} {u : State} (awake : s.mode ≠ modeDormant) (begin_ : (s.posted m n).updBegin b m = (c, u)) :
    (s.posted m n).mboxDo m 1 (mailWords 1 q [b]) v = (c, 0, 0, u) := by
  rw [State.mboxDo_begin (State.late_posted awake m n), begin_]
  rfl

/-- The row of UPDATE_ACTIVATE. -/
theorem State.mboxDo_activate (awake : (s.mode == modeDormant) = false) :
    s.mboxDo m 3 (mailWords 3 q []) v = mbDet (s.updActivate m) :=
  if_neg (by rw [awake]; exact Bool.false_ne_true)

/-- The rows of UPDATE_BEGIN, UPDATE_WRITE and UPDATE_ACTIVATE in DORMANT. -/
theorem State.mboxDo_late (asleep : (s.mode == modeDormant) = true) (w : List Nat) :
    s.mboxDo m 1 w v = (3, 0, 0, s) ∧ s.mboxDo m 2 w v = (3, 0, 0, s) ∧ s.mboxDo m 3 w v = (3, 0, 0, s) :=
  ⟨if_pos asleep, if_pos asleep, if_pos asleep⟩

/-- The row of UPDATE_WRITE. -/
theorem State.mboxDo_write (awake : (s.mode == modeDormant) = false) (x l o : Nat) :
    s.mboxDo m 2 (mailWords 2 q (twoWords x ++ [l, o])) v = mbPlain (s.updWrite m o (s.bytes .host x (min l (2 ^ 20 + 1)))) := by
  refine (if_neg (by rw [awake]; exact Bool.false_ne_true)).trans ?_
  change mbPlain (s.updWrite m o (s.bytes .host (x % 2 ^ 32 + 2 ^ 32 * (x / 2 ^ 32)) (min l (2 ^ 20 + 1)))) = _
  rw [twoWords_sum]

theorem State.activate_row {c d n : Nat} {u : State} (awake : s.mode ≠ modeDormant)
    (activate : (s.posted m n).updActivate m = (c, d, u)) : (s.posted m n).mboxDo m 3 (mailWords 3 q []) v = (c, d, 0, u) := by
  rw [State.mboxDo_activate (State.late_posted awake m n), activate]
  rfl

/-- The row of UPDATE_CONFIRM. -/
theorem State.mboxDo_confirm (w : List Nat) (m : Nat) :
    s.mboxDo m 4 w v = if s.onTrial then (0, 0, 0, s.bankConfirm) else (3, 0, 0, s) := rfl

/-- What LOAD_IMAGE makes of what it finds. -/
def State.loadFound (s : State) (k : Nat) : Option (DirEnt × List Byte) → Nat × Nat × Nat × State
  | none => (2, 0, 0, s)
  | some (e, l) =>
    if k = 0 then (2, 0, 0, s)
    else if ¬ s.domOn (if e.cls = 0 then .engine else .core) then (3, 0, 0, s)
    else if (s.loadImage l k).1 = 0 then (0, 0, 0, (s.loadImage l k).2) else (5, (s.loadImage l k).1, 0, (s.loadImage l k).2)

/-- The row of LOAD_IMAGE. -/
theorem State.mboxDo_load (awake : (s.mode == modeDormant) = false) (x k : Nat) :
    s.mboxDo m 5 (mailWords 5 q (twoWords x ++ [k])) v =
      s.loadFound k (s.findImage (fun e => e.id == x && decide (e.cls ≤ 1))) := by
  have read : s.mboxDo m 5 (mailWords 5 q (twoWords x ++ [k])) v =
      s.loadFound k (s.findImage (fun e => e.id == x % 2 ^ 32 + 2 ^ 32 * (x / 2 ^ 32) && decide (e.cls ≤ 1))) := by
    refine (if_neg (by rw [awake]; exact Bool.false_ne_true)).trans ?_
    change (match s.findImage (fun e => e.id == x % 2 ^ 32 + 2 ^ 32 * (x / 2 ^ 32) && decide (e.cls ≤ 1)) with
      | none => _ | some (e, l) => _) = _
    cases s.findImage (fun e => e.id == x % 2 ^ 32 + 2 ^ 32 * (x / 2 ^ 32) && decide (e.cls ≤ 1)) <;> rfl
  rw [read, twoWords_sum]

end Rows

theorem mem_mboxFlds_of_posted {m : Nat} {e : Fld × Nat} (in_ : e ∈ [(Fld.ree .MBOX_WORD, m), (.ree .MBOX_BUSY, m)]) :
    e ∈ mboxFlds m := by
  simp only [mboxFlds, List.mem_cons] at in_ ⊢
  tauto

/-- A command word list of one word. -/
theorem oneWord_small (b : BitVec 32) : ∀ x ∈ [b.toNat], x < 2 ^ 32 := fun _ in_ => List.mem_singleton.mp in_ ▸ b.isLt

theorem writeWords_small (x : BitVec 64) (l o : BitVec 32) : ∀ y ∈ twoWords x.toNat ++ [l.toNat, o.toNat], y < 2 ^ 32 := by
  intro y in_
  rcases List.mem_append.mp in_ with low | high
  · exact twoWords_small x y low
  · rcases List.mem_cons.mp high with rfl | last
    · exact l.isLt
    · exact List.mem_singleton.mp last ▸ o.isLt

theorem loadWords_small (x : BitVec 64) (k : BitVec 32) : ∀ y ∈ twoWords x.toNat ++ [k.toNat], y < 2 ^ 32 := by
  intro y in_
  rcases List.mem_append.mp in_ with low | high
  · exact twoWords_small x y low
  · exact List.mem_singleton.mp high ▸ k.isLt

theorem noWords_small : ∀ y ∈ ([] : List Nat), y < 2 ^ 32 := fun _ in_ => absurd in_ List.not_mem_nil

section Writes
variable {m : Fin 2} {q : BitVec 16} {x : BitVec 64} {l o : BitVec 32} {b : Nat}

/-- The row of UPDATE_WRITE for data that the bank takes. -/
theorem State.writes_row (writes : s.writing = some b) (own : s.h .bankSrc = m + 1) (some_ : 1 ≤ l.toNat)
    (most : l.toNat ≤ 2 ^ 20) (inside : o.toNat + l.toNat ≤ Config.flashHalf) (n : Nat) :
    mbPlain ((s.posted m n).updWrite m o.toNat ((s.posted m n).bytes .host x.toNat (min l.toNat (2 ^ 20 + 1)))) =
      (0, 0, 0, (s.posted m n).setBytes .flash (bankBase b + o.toNat) (s.bytes .host x.toNat l.toNat)) := by
  have length : (s.bytes .host x.toNat l.toNat).length = l.toNat := s.length_bytes ..
  rw [Nat.min_eq_left (Nat.le_succ_of_le most), State.bytes_posted,
    State.updWrite_writes (src := m) ((State.writing_posted ..).trans writes) own (by rw [length]; omega)]
  rfl

/-- The row of UPDATE_WRITE for data that it refuses. -/
theorem State.writeRefused_row {c : Nat} (row : ∀ (u : State) (d : List Byte), u.writing = s.writing →
    u.h .bankSrc = s.h .bankSrc → d.length = min l.toNat (2 ^ 20 + 1) → u.updWrite m o.toNat d = (c, u)) (n : Nat) :
    mbPlain ((s.posted m n).updWrite m o.toNat ((s.posted m n).bytes .host x.toNat (min l.toNat (2 ^ 20 + 1)))) =
      (c, 0, 0, s.posted m n) := by
  rw [row _ _ (State.writing_posted ..) rfl (State.length_bytes ..)]
  rfl

/-- Data of the host enter the bank that is written. -/
theorem MailTakes.writes (takes : MailTakes s m) (awake : s.mode ≠ modeDormant) (writes : s.writing = some b)
    (own : s.h .bankSrc = m + 1) (some_ : 1 ≤ l.toNat) (most : l.toNat ≤ 2 ^ 20)
    (inside : o.toNat + l.toNat ≤ Config.flashHalf) :
    ∃ u : State, (.next (s.mailbox m 2 q (twoWords x.toNat ++ [l.toNat, o.toNat])) : Host.Outcome State Fault Refusal) = .next u ∧
      Answered u m q.toNat 0 ∧
      (∀ i, i < l.toNat → u.byte .flash (bankBase b + o.toNat + i) = s.byte .host (x.toNat + i)) ∧
      (∀ r a, (r = .flash → a < bankBase b + o.toNat ∨ bankBase b + o.toNat + l.toNat ≤ a) → u.byte r a = s.byte r a) ∧
      (∀ f i, (f, i) ∉ mboxFlds m → u.rd f i = s.rd f i) := by
  have length : (s.bytes .host x.toNat l.toNat).length = l.toNat := s.length_bytes ..
  have data_ : ∀ n, UnitsOnly (s.posted m n) ((s.posted m n).setBytes .flash (bankBase b + o.toNat)
      (s.bytes .host x.toNat l.toNat)) := fun n => UnitsOnly.refl.setBytes _ _ _
  obtain ⟨n, eq⟩ := takes.answers (q := q) (v := none) (by decide) (writeWords_small x l o)
    (fun n => (State.mboxDo_write (State.late_posted awake m n) _ _ _).trans (State.writes_row writes own some_ most inside n))
    (fun n => ((data_ n).domOn .reeve).trans (takes.posted n).1)
    (fun n => .inl (((data_ n).h _ _ (by decide)).trans (takes.posted n).2))
  have frame := s.posted_frame m n
  generalize s.posted m n = w at eq frame
  refine ⟨_, eq, State.mboxAnswer_answered _ _ _ (by decide) _ _, fun i less => ?_, fun r a out => ?_, fun f i other => ?_⟩
  · refine (State.byte_setBytes ..).trans ((if_pos ⟨rfl, by omega, by rw [length]; omega⟩).trans ?_)
    rw [Nat.add_sub_cancel_left]
    exact State.getD_bytes _ _ _ less
  · refine (State.byte_setBytes ..).trans ((if_neg (fun c => ?_)).trans (frame.2.2.2.1 r a))
    rw [length] at c
    have outside := out c.1
    omega
  · have answered := (State.mboxAnswer_frame (w.setBytes .flash (bankBase b + o.toNat) (s.bytes .host x.toNat l.toNat)) m
      q.toNat 0 0 0).1 f i other
    rw [State.rd_setBytes] at answered
    exact answered.trans (frame.1 f i (fun in_ => other (mem_mboxFlds_of_posted in_)))

/-- A refused UPDATE_WRITE, by what it is refused for. -/
theorem MailTakes.writeRefused {c : Nat} (takes : MailTakes s m) (awake : s.mode ≠ modeDormant) (small : c < 16)
    (row : ∀ (u : State) (d : List Byte), u.writing = s.writing → u.h .bankSrc = s.h .bankSrc →
      d.length = min l.toNat (2 ^ 20 + 1) → u.updWrite m o.toNat d = (c, u)) :
    ∃ u : State, (.next (s.mailbox m 2 q (twoWords x.toNat ++ [l.toNat, o.toNat])) : Host.Outcome State Fault Refusal) = .next u ∧
      Answered u m q.toNat c ∧ Frame s u (mboxFlds m) [] := by
  exact takes.refused (by decide) (writeWords_small x l o) small
    (fun n => (State.mboxDo_write (State.late_posted awake m n) _ _ _).trans (State.writeRefused_row row n))

/-- A length that the firmware reads up to one beyond the limit is out of range where the length itself is. -/
theorem outOfRange_of_min {n k ofs half : Nat} (length : n = min k (2 ^ 20 + 1))
    (out : k = 0 ∨ 2 ^ 20 < k ∨ half < ofs + k) : n = 0 ∨ 2 ^ 20 < n ∨ half < ofs + n := by
  omega

end Writes

section Loads
variable {m : Fin 2} {q : BitVec 16} {id : BitVec 64} {k : BitVec 32}

/-- LOAD_IMAGE of an image that is found, in the state in which the command stands in the mailbox. -/
theorem MailTakes.loads {e : DirEnt} {l : List Byte} (takes : MailTakes s m) (awake : s.mode ≠ modeDormant)
    (found : s.findImage (fun e => e.id == id.toNat && decide (e.cls ≤ 1)) = some (e, l)) (some_ : k.toNat ≠ 0)
    (domain : s.domOn (if e.cls = 0 then .engine else .core) = true) :
    ∃ w : State, Frame s w [(.ree .MBOX_WORD, m), (.ree .MBOX_BUSY, m)] [] ∧
      ((w.loadImage l k.toNat).1 = 0 → (.next (s.mailbox m 5 q (twoWords id.toNat ++ [k.toNat])) :
        Host.Outcome State Fault Refusal) = .next ((w.loadImage l k.toNat).2.mboxAnswer m q.toNat 0)) ∧
      ((w.loadImage l k.toNat).1 ≠ 0 → (.next (s.mailbox m 5 q (twoWords id.toNat ++ [k.toNat])) :
        Host.Outcome State Fault Refusal) =
          .next ((w.loadImage l k.toNat).2.mboxAnswer m q.toNat 5 (w.loadImage l k.toNat).1)) := by
  obtain ⟨n, eq⟩ := takes.run (q := q) (v := none) (op := 5) (by decide) (loadWords_small id k)
  have row : (s.posted m n).mboxDo m 5 (mailWords 5 q.toNat (twoWords id.toNat ++ [k.toNat])) none =
      if ((s.posted m n).loadImage l k.toNat).1 = 0 then (0, 0, 0, ((s.posted m n).loadImage l k.toNat).2)
      else (5, ((s.posted m n).loadImage l k.toNat).1, 0, ((s.posted m n).loadImage l k.toNat).2) := by
    rw [State.mboxDo_load (State.late_posted awake m n), State.findImage_posted, found]
    exact (if_neg some_).trans (if_neg (by rw [State.domOn_posted]; exact not_not_intro domain))
  obtain ⟨domOn, idle⟩ := takes.posted n
  have frame := s.posted_frame m n
  rw [row] at eq
  generalize s.posted m n = w at eq domOn idle frame
  have units := (UnitsOnly.refl (s := w)).loadImage l k.toNat
  have on_ := (units.domOn .reeve).trans domOn
  have pend := (units.h .lcPend 0 (by decide)).trans idle
  refine ⟨w, frame, fun good => ?_, fun bad => ?_⟩
  · rw [eq, if_pos good, State.mboxDone_answers on_ (.inl pend)]
  · rw [eq, if_neg bad, State.mboxDone_answers on_ (.inl pend)]

end Loads

/-- Settles O39: a command that the mailbox takes is read off its row of Table 14.13 in the state in which it stands in the
mailbox, and what it leaves of banks, flash and counters is what the bank operations leave. -/
theorem updateCommandsComplete : Obligations.UpdateCommandsComplete := by
  unfold Obligations.UpdateCommandsComplete
  refine ⟨?begins, ?dormant, ?range, ?used, ?writes, ?refused, ?activates, ?bad, ?confirms, ?noTrial, ?timeout, ?noTimeout,
    ?loads, fun l k c s code bad => State.loadImage_refused code bad, ?engineBad, ?engine,
    fun l k s good class_ small => State.loadImage_stage good class_ small, ?none_, ?busy⟩
  case begins =>
    intro m q b s takes awake two free
    obtain ⟨n, eq⟩ := takes.answers (q := q) (v := none) (by decide) (oneWord_small b)
      (fun n => State.begin_row awake (State.updBegin_starts two (by simpa only [State.bank_posted] using free)))
      (fun n => ((s.posted m n).begun_values two m).2.2.2.2.1.trans (takes.posted n).1)
      (fun n => .inl (((s.posted m n).begun_values two m).2.2.2.2.2.1.trans (takes.posted n).2))
    obtain ⟨bank, other, src, seq, _, _, byte⟩ := (s.posted m n).begun_values two m
    refine ⟨_, eq, State.mboxAnswer_answered _ _ _ (by decide) _ _, (State.bank_mboxAnswer ..).trans bank,
      (State.bank_mboxAnswer ..).trans (other.trans (State.bank_posted ..)), src, seq, fun a low high => ?_, fun r a out => ?_⟩
    · exact (byte .flash a).trans (if_pos ⟨rfl, low, high⟩)
    · refine (byte r a).trans (if_neg (fun c => ?_))
      have outside := out c.1
      omega
  case dormant =>
    intro m q b x l o s takes asleep
    have rows : ∀ n w, _ := fun n w => State.mboxDo_late (s := s.posted m n) (m := m) (v := none)
      (by rw [State.mode_posted]; exact beq_iff_eq.mpr asleep) w
    exact ⟨takes.refused (by decide) (oneWord_small b) (by decide) (fun n => (rows n _).1),
      takes.refused (by decide) (writeWords_small x l o) (by decide) (fun n => (rows n _).2.1),
      takes.refused (by decide) noWords_small (by decide) (fun n => (rows n _).2.2)⟩
  case range =>
    intro m q b s takes awake none_
    exact takes.refused (by decide) (oneWord_small b) (by decide) (fun n =>
      State.begin_row awake (State.updBegin_range none_))
  case used =>
    intro m q b s takes awake two used
    exact takes.refused (by decide) (oneWord_small b) (by decide) (fun n =>
      State.begin_row awake (State.updBegin_used two (by simpa only [State.bank_posted] using used)))
  case writes => exact fun m q x l o b s takes awake writes own some_ most inside => takes.writes awake writes own some_ most inside
  case refused =>
    intro m q x l o s takes awake
    exact ⟨fun none_ => takes.writeRefused awake (by decide) (fun u d same _ _ => State.updWrite_none (same.trans none_)),
      fun b writes other => takes.writeRefused awake (by decide)
        (fun u d same src _ => State.updWrite_other (same.trans writes) (by rw [src]; exact other)),
      fun b writes own out => takes.writeRefused awake (by decide)
        (fun u d same src length => State.updWrite_range (same.trans writes) (src.trans own) (outOfRange_of_min length out))⟩
  case activates =>
    intro m q b s takes awake writes own good unset unarmed
    have ready : ∀ n, (s.posted m n).inTransition = false := fun n => by
      rw [State.inTransition, (takes.posted n).2, State.on_posted _ _ _ _ (by decide) (by decide), unarmed]
      rfl
    obtain ⟨n, eq⟩ := takes.answers (q := q) (v := none) (by decide) noWords_small
      (fun n => State.activate_row awake (State.updActivate_good ((State.writing_posted ..).trans writes) own
        ((State.bankBadImage_posted ..).trans good)))
      (fun n => (((s.posted m n).activated_only b).domOn .reeve).trans (takes.posted n).1)
      (fun n => .inl (((s.posted m n).activated_only b).lcPend.trans (takes.posted n).2))
    obtain ⟨bank, count, warm⟩ := State.activated_values (ready n) unset b
    rw [show (s.posted m n).age = s.age from rfl] at warm
    generalize (s.posted m n).activated b = u at eq bank count warm
    exact ⟨_, eq, State.mboxAnswer_answered _ _ _ (by decide) _ _, (State.bank_mboxAnswer ..).trans bank,
      (State.rd_mboxAnswer _ _ _ _ _ _ _ (by simp [mboxFlds])).trans count, warm⟩
  case bad =>
    intro m q b c l s takes awake writes own bad small
    obtain ⟨n, eq⟩ := takes.answers (q := q) (v := none) (by decide) noWords_small
      (fun n => State.activate_row awake (State.updActivate_bad ((State.writing_posted ..).trans writes) own
        ((State.bankBadImage_posted ..).trans bad)))
      (fun n => ((UnitsOnly.refl.imgRefused c l .reeve).domOn .reeve).trans (takes.posted n).1)
      (fun n => .inl (((UnitsOnly.refl.imgRefused c l .reeve).h _ _ (by decide)).trans (takes.posted n).2))
    refine ⟨_, eq, State.mboxAnswer_answered _ _ _ (by decide) _ _, State.rd_mboxAnswer_detail _ _ _ _ small _, ?_⟩
    rw [State.bank_mboxAnswer, State.imgRefused, State.bank_ledger, State.bank_posted]
    exact State.bank_of_writing writes
  case confirms =>
    rintro m q _ s takes rfl trial fits
    have onTrial : ∀ n, (s.posted m n).onTrial = true := fun n => by
      rw [State.onTrial_posted, State.onTrial, takes.fw, trial]
      rfl
    have canon : ∀ n, regsFit (s.posted m n).regs = true := fun n => State.regsFit_wr (State.regsFit_wr fits _ _ _) _ _ _
    obtain ⟨n, eq⟩ := takes.answers (q := q) (v := none) (by decide) noWords_small
      (fun n => (State.mboxDo_confirm ..).trans (if_pos (onTrial n)))
      (fun n => ((s.posted m n).bankConfirm_only.domOn .reeve).trans (takes.posted n).1)
      (fun n => .inl ((s.posted m n).bankConfirm_only.lcPend.trans (takes.posted n).2))
    obtain ⟨active, previous, done_, eng, stg, rev⟩ := State.bankConfirm_values (canon n)
    rw [State.booted_posted] at active previous
    rw [State.bank_posted] at previous
    rw [s.rd_posted _ _ _ (by decide) (by decide)] at eng stg rev
    generalize (s.posted m n).bankConfirm = u at eq active previous done_ eng stg rev
    have answered : ∀ f, (∀ e ∈ mboxFlds m, f ≠ e.1) → (u.mboxAnswer m q.toNat 0 0 0).rd f 0 = u.rd f 0 := fun f other => State.rd_mboxAnswer _ _ _ _ _ _ _ other
    refine ⟨_, eq, State.mboxAnswer_answered _ _ _ (by decide) _ _, (State.bank_mboxAnswer ..).trans active,
      fun prev => (State.bank_mboxAnswer ..).trans (previous prev), done_, ?_, ?_, ?_⟩
    · rw [answered _ (by simp [mboxFlds])]
      exact eng
    · rw [answered _ (by simp [mboxFlds])]
      exact stg
    · rw [answered _ (by simp [mboxFlds])]
      exact rev
  case noTrial =>
    intro m q s takes none_
    have noTrial : ∀ n, ¬ (s.posted m n).onTrial = true := fun n => by
      rw [State.onTrial_posted]
      simp [State.onTrial, none_]
    exact takes.refused (by decide) noWords_small (by decide)
      (fun n => (State.mboxDo_confirm ..).trans (if_neg (noTrial n)))
  case timeout =>
    rintro _ s on_ waits fw rfl trial unset pend unarmed
    have idle : (s.passAge (s.h .confirmAt - 1)).inTransition = false :=
      (State.inTransition_eq (s := s) rfl rfl).trans (by rw [State.inTransition, pend, unarmed]; rfl)
    refine ⟨_, next_inDom_when on_ (c := fun s => s.h .confirmAt != 0 && s.onTrial) ?_ rfl, ?_⟩
    · simp [waits, State.onTrial, fw, trial]
    · exact State.revert_values idle unset s.booted
  case noTimeout =>
    intro s on_ none_
    refine next_inDom_idle on_ (c := fun s => s.h .confirmAt != 0 && s.onTrial) ?_
    rcases none_ with never | other
    · simp [never]
    · simp [State.onTrial, other]
  case loads => exact fun m q id k e l s takes awake found some_ domain => takes.loads awake found some_ domain
  case engineBad =>
    exact fun l k s good class_ bad => (State.loadImage_engine good class_).trans (if_pos bad)
  case engine =>
    exact fun l k s good class_ fine => (State.loadImage_engine good class_).trans (if_neg (by simp [fine]))
  case none_ =>
    intro m q id k s takes awake none_
    exact takes.refused (by decide) (loadWords_small id k) (by decide) (fun n => by
      rw [State.mboxDo_load (State.late_posted awake m n), State.findImage_posted, none_]
      rfl)
  case busy =>
    rintro m q b x l o _ s on_ way busy rfl
    exact ⟨congrArg Host.Outcome.next (State.mailbox_busy on_ way busy), congrArg Host.Outcome.next (State.mailbox_busy on_ way busy),
      congrArg Host.Outcome.next (State.mailbox_busy on_ way busy), congrArg Host.Outcome.next (State.mailbox_busy on_ way busy),
      congrArg Host.Outcome.next (State.mailbox_busy on_ way busy)⟩

end Sys2Proof.Machine

/-! What a loss of domains leaves (R16, Table 15.5) and what every start of the main domains has in common (R499, R507). -/

namespace Sys2Proof.Machine

variable {s : State}

/-! ## A loss of fields and hidden values -/

/-- A hidden value outlasts the loss of domains it does not lie in. -/
theorem State.h_lose {ds : List Dom} {lost : List Surv} {x : Hid} {i : Nat} (kept : ∀ d ∈ ds, x.home.dom i ≠ some d) :
    (s.lose ds lost).h x i = s.h x i := by
  refine (Assoc.get_filter 0 (x, i) (fun k : Hid × Nat => match k.1.home.dom k.2 with
    | some d => decide (¬ (d ∈ ds ∧ k.1.home.surv ∈ lost))
    | none => true) s.hid).trans (if_pos ?_)
  show (match x.home.dom i with | some d => _ | none => true) = true
  cases home : x.home.dom i with
  | none => rfl
  | some d => exact decide_eq_true (fun gone => kept d gone.1 home)

theorem State.rd_lose_kept {ds : List Dom} {lost : List Surv} {f : Fld} {i : Nat} (kept : fldDom f i ∉ ds ∨ f.desc.nvm = true) :
    (s.lose ds lost).rd f i = s.rd f i := by
  refine (s.rd_lose ds lost f i).trans (if_neg ?_)
  rintro ⟨inside, _, volatile⟩
  rcases kept with outside | nvm
  · exact outside inside
  · exact Bool.noConfusion (volatile.symm.trans nvm)

/-! ## States of domains -/

theorem State.domState_setDom (s : State) (d : Dom) (v : Nat) (e : Dom) :
    (s.setDom d v).domState e = if e = d then v % 4 else s.domState e := by
  have width : (Fld.hrt .PWR_STAT_STATE).desc.width = 20 := rfl
  have small : ∀ e : Dom, 2 * e.idx + 2 ≤ 20 := fun e => by cases e <;> decide
  have read : (s.setDom d v).domState e = bits (2 * e.idx) 2 (putBits (2 * d.idx) 2 v (s.rd (.hrt .PWR_STAT_STATE) 0)) := by
    refine (congrArg (bits (2 * e.idx) 2) ((State.rd_wr ..).trans (if_pos ⟨rfl, rfl⟩))).trans ?_
    rw [width]
    exact bits_mod (small e) _
  rw [read]
  split
  next same => subst same; exact bits_putBits_same ..
  next other =>
    refine bits_putBits_apart ?_ _ _
    have apart : e.idx ≠ d.idx := fun eq => other (by cases e <;> cases d <;> first | rfl | exact absurd eq (by decide))
    omega

theorem State.rd_setDom (s : State) (d : Dom) (v : Nat) {f : Fld} (i : Nat) (other : f ≠ .hrt .PWR_STAT_STATE) :
    (s.setDom d v).rd f i = s.rd f i :=
  (State.rd_wr ..).trans (if_neg fun same => other same.1)

/-- Domains are switched off one after another. -/
theorem setDoms_off (ds : List Dom) (s : State) :
    (∀ f i, f ≠ .hrt .PWR_STAT_STATE → (ds.foldl (fun s d => s.setDom d 0) s).rd f i = s.rd f i) ∧
    (∀ x i, (ds.foldl (fun s d => s.setDom d 0) s).h x i = s.h x i) ∧
    (∀ r a, (ds.foldl (fun s d => s.setDom d 0) s).byte r a = s.byte r a) ∧
    (∀ e, (ds.foldl (fun s d => s.setDom d 0) s).domState e = if e ∈ ds then 0 else s.domState e) ∧
    (ds.foldl (fun s d => s.setDom d 0) s).age = s.age ∧ (ds.foldl (fun s d => s.setDom d 0) s).coarse = s.coarse ∧
    (ds.foldl (fun s d => s.setDom d 0) s).variant = s.variant := by
  induction ds generalizing s with
  | nil => exact ⟨fun _ _ _ => rfl, fun _ _ => rfl, fun _ _ => rfl, fun e => rfl, rfl, rfl, rfl⟩
  | cons d ds ih =>
    obtain ⟨rd, h, byte, dom, age, coarse, variant⟩ := ih (s.setDom d 0)
    refine ⟨fun f i other => (rd f i other).trans (s.rd_setDom d 0 i other), h, byte, fun e => (dom e).trans ?_, age, coarse, variant⟩
    rw [State.domState_setDom]
    by_cases same : e = d <;> by_cases later : e ∈ ds <;> simp [same, later]

/-! ## A loss of domains -/

/-- What a loss of domains writes itself. -/
def lossFlds : List Fld := [.cri .LATCH, .cri .EN, .cri .MASK, .hrt .CTX_CONTEXT_LOST, .hrt .PWR_STAT_STATE]

/-- The bits of sources 112-119 written back to three Crier registers. -/
def State.keepSources (t old : State) : State :=
  [Fld.cri .LATCH, Fld.cri .EN, Fld.cri .MASK].foldl (fun t f =>
    t.wr f 0 (putBits 112 8 (hearthBits (old.rd f 0)) (t.rd f 0))) t

/-- Writes to a list of registers, their values computed on the way. -/
theorem wrEach_same (v : Fld → State → Nat) (fs : List Fld) (t : State) :
    (∀ f i, (∀ g ∈ fs, f ≠ g) → (fs.foldl (fun t f => t.wr f 0 (v f t)) t).rd f i = t.rd f i) ∧
    (∀ x i, (fs.foldl (fun t f => t.wr f 0 (v f t)) t).h x i = t.h x i) ∧
    (fs.foldl (fun t f => t.wr f 0 (v f t)) t).age = t.age ∧ (fs.foldl (fun t f => t.wr f 0 (v f t)) t).coarse = t.coarse ∧
    (fs.foldl (fun t f => t.wr f 0 (v f t)) t).variant = t.variant := by
  induction fs generalizing t with
  | nil => exact ⟨fun _ _ _ => rfl, fun _ _ => rfl, rfl, rfl, rfl⟩
  | cons g fs ih =>
    obtain ⟨rd, h, age, coarse, variant⟩ := ih (t.wr g 0 (v g t))
    exact ⟨fun f i away => (rd f i fun g' later => away g' (List.mem_cons_of_mem _ later)).trans
        ((State.rd_wr ..).trans (if_neg fun same => away g List.mem_cons_self same.1)), h, age, coarse, variant⟩

/-- A loss of fields and memories, but for what the Hearth holds of the Crier. -/
def State.lossKept (s : State) (ds : List Dom) (lost : List Surv) : State :=
  if Dom.reeve ∈ ds ∧ Dom.hearth ∉ ds then ((s.lose ds lost).wipeDoms ds).keepSources s else (s.lose ds lost).wipeDoms ds

/-- A loss of domains, before the domains are marked as off. -/
def State.lossBase (s : State) (ds : List Dom) (lost : List Surv) : State :=
  ((s.lossKept ds lost).wr (.hrt .CTX_CONTEXT_LOST) 0
    ((s.lossKept ds lost).rd (.hrt .CTX_CONTEXT_LOST) 0 ||| maskOf (ds.map Dom.idx))).setH .ctxRaise 0 1

theorem State.loseDoms_eq (s : State) (ds : List Dom) (lost : List Surv) :
    s.loseDoms ds lost = ds.foldl (fun s d => s.setDom d 0) (s.lossBase ds lost) := rfl

/-- Wiping the memories of domains touches nothing else. -/
theorem State.wipeDoms_same (s : State) (ds : List Dom) : (∀ f i, (s.wipeDoms ds).rd f i = s.rd f i) ∧
    (∀ x i, (s.wipeDoms ds).h x i = s.h x i) ∧ (s.wipeDoms ds).age = s.age ∧ (s.wipeDoms ds).coarse = s.coarse ∧
    (s.wipeDoms ds).variant = s.variant := by
  have step : ∀ (p : Prop) [Decidable p] (t : State) (r : Region), ∃ m, (if p then t.wipe r 0 (2 ^ 64) else t) = { t with mem := m } := by
    intro p _ t r
    split
    · exact ⟨_, rfl⟩
    · exact ⟨_, rfl⟩
  have all : ∃ m, s.wipeDoms ds = { s with mem := m } := by
    unfold State.wipeDoms
    obtain ⟨a, eq₁⟩ := step (Dom.core ∈ ds) s .granary
    obtain ⟨b, eq₂⟩ := step (Dom.cellar ∈ ds) { s with mem := a } .cellar
    obtain ⟨c, eq₃⟩ := step (Dom.engine ∈ ds) { s with mem := b } .pantry
    obtain ⟨d, eq₄⟩ := step (Dom.reeve ∈ ds) { s with mem := c } .sram
    obtain ⟨e, eq₅⟩ := step (Dom.reeve ∈ ds) { s with mem := d } .reeStage
    obtain ⟨f, eq₆⟩ := step (Dom.weigh ∈ ds) { s with mem := e } .wghMem
    obtain ⟨g, eq₇⟩ := step (Dom.weigh ∈ ds) { s with mem := f } .wghStage
    refine ⟨g, ?_⟩
    simp only [eq₁, eq₂, eq₃, eq₄, eq₅, eq₆, eq₇]
  obtain ⟨m, eq⟩ := all
  rw [eq]
  exact ⟨fun _ _ => rfl, fun _ _ => rfl, rfl, rfl, rfl⟩

theorem State.lossKept_values (s : State) (ds : List Dom) (lost : List Surv) :
    (∀ f i, (∀ g ∈ [Fld.cri .LATCH, Fld.cri .EN, Fld.cri .MASK], f ≠ g) → (s.lossKept ds lost).rd f i = (s.lose ds lost).rd f i) ∧
    (∀ x i, (s.lossKept ds lost).h x i = (s.lose ds lost).h x i) ∧ (s.lossKept ds lost).age = s.age ∧
    (s.lossKept ds lost).coarse = s.coarse ∧ (s.lossKept ds lost).variant = s.variant := by
  obtain ⟨rd, h, age, coarse, variant⟩ := (s.lose ds lost).wipeDoms_same ds
  obtain ⟨rdW, hW, ageW, coarseW, variantW⟩ := wrEach_same (fun f t => putBits 112 8 (hearthBits (s.rd f 0)) (t.rd f 0))
    [Fld.cri .LATCH, Fld.cri .EN, Fld.cri .MASK] ((s.lose ds lost).wipeDoms ds)
  unfold State.lossKept
  split
  · exact ⟨fun f i other => (rdW f i other).trans (rd f i), fun x i => (hW x i).trans (h x i), ageW.trans age,
      coarseW.trans coarse, variantW.trans variant⟩
  · exact ⟨fun f i _ => rd f i, h, age, coarse, variant⟩

/-- What a loss leaves before the domains are marked as off. -/
theorem State.lossBase_values (s : State) (ds : List Dom) (lost : List Surv) :
    (∀ f i, f ∉ lossFlds → (s.lossBase ds lost).rd f i = (s.lose ds lost).rd f i) ∧
    (s.lossBase ds lost).rd (.hrt .CTX_CONTEXT_LOST) 0 =
      ((s.lose ds lost).rd (.hrt .CTX_CONTEXT_LOST) 0 ||| maskOf (ds.map Dom.idx)) % 2 ^ 10 ∧
    (s.lossBase ds lost).rd (.hrt .PWR_STAT_STATE) 0 = (s.lose ds lost).rd (.hrt .PWR_STAT_STATE) 0 ∧
    (∀ x i, x ≠ .ctxRaise → (s.lossBase ds lost).h x i = (s.lose ds lost).h x i) ∧
    (s.lossBase ds lost).age = s.age ∧ (s.lossBase ds lost).coarse = s.coarse ∧ (s.lossBase ds lost).variant = s.variant := by
  obtain ⟨rd, h, age, coarse, variant⟩ := s.lossKept_values ds lost
  unfold State.lossBase
  generalize s.lossKept ds lost = u at rd h age coarse variant ⊢
  refine ⟨fun f i other => ?_, ?_, ?_, fun x i other => ?_, age, coarse, variant⟩
  · simp only [lossFlds, List.mem_cons, not_or] at other
    obtain ⟨latch, en, mask, ctx, _, _⟩ := other
    rw [State.rd_setH, State.rd_wr, if_neg (fun same => ctx same.1), rd f i (by simp [latch, en, mask])]
  · have width : (Fld.hrt .CTX_CONTEXT_LOST).desc.width = 10 := rfl
    rw [State.rd_setH, State.rd_wr, if_pos ⟨rfl, rfl⟩, rd _ _ (by decide), width, trunc]
  · rw [State.rd_setH, State.rd_wr, if_neg (by simp), rd _ _ (by decide)]
  · rw [State.h_setH, if_neg (fun same => other same.1)]
    exact h x i

/-- A field that a loss of domains does not take. -/
theorem State.rd_loseDoms {ds : List Dom} {lost : List Surv} {f : Fld} {i : Nat} (other : f ∉ lossFlds)
    (kept : fldDom f i ∉ ds ∨ f.desc.nvm = true) : (s.loseDoms ds lost).rd f i = s.rd f i := by
  rw [State.loseDoms_eq, (setDoms_off ds _).1 f i (fun same => other (by simp [lossFlds, same])),
    (s.lossBase_values ds lost).1 f i other, State.rd_lose_kept kept]

theorem State.rd_loseDoms_lost {ds : List Dom} {lost : List Surv} {f : Fld} {i : Nat} (other : f ∉ lossFlds)
    (inside : fldDom f i ∈ ds) (code : f.desc.surv ∈ lost) (volatile : f.desc.nvm = false) :
    (s.loseDoms ds lost).rd f i = resetVal s.variant f i := by
  rw [State.loseDoms_eq, (setDoms_off ds _).1 f i (fun same => other (by simp [lossFlds, same])),
    (s.lossBase_values ds lost).1 f i other, State.rd_lose, if_pos ⟨inside, code, volatile⟩]

/-- A hidden value that a loss of domains does not take. -/
theorem State.h_loseDoms {ds : List Dom} {lost : List Surv} {x : Hid} {i : Nat} (other : x ≠ .ctxRaise)
    (kept : ∀ d ∈ ds, x.home.dom i ≠ some d) : (s.loseDoms ds lost).h x i = s.h x i := by
  rw [State.loseDoms_eq, (setDoms_off ds _).2.1 x i, (s.lossBase_values ds lost).2.2.2.1 x i other, State.h_lose kept]

/-- The domains that are lost are off, the others as they were. -/
theorem State.domState_loseDoms {ds : List Dom} {lost : List Surv} (powered : Dom.hearth ∉ ds) (d : Dom) :
    (s.loseDoms ds lost).domState d = if d ∈ ds then 0 else s.domState d := by
  rw [State.loseDoms_eq, (setDoms_off ds _).2.2.2.1 d]
  congr 1
  refine congrArg (bits (2 * d.idx) 2) (((s.lossBase_values ds lost).2.2.1).trans (State.rd_lose_kept (.inl powered)))

theorem State.domState_loseDoms_lost {ds : List Dom} {lost : List Surv} {d : Dom} (inside : d ∈ ds) :
    (s.loseDoms ds lost).domState d = 0 := by
  rw [State.loseDoms_eq, (setDoms_off ds _).2.2.2.1 d, if_pos inside]

theorem State.contextLost_loseDoms (s : State) (ds : List Dom) (lost : List Surv) :
    (s.loseDoms ds lost).rd (.hrt .CTX_CONTEXT_LOST) 0 =
      ((s.lose ds lost).rd (.hrt .CTX_CONTEXT_LOST) 0 ||| maskOf (ds.map Dom.idx)) % 2 ^ 10 := by
  rw [State.loseDoms_eq, (setDoms_off ds _).1 _ _ (by decide), (s.lossBase_values ds lost).2.1]

theorem State.age_loseDoms (s : State) (ds : List Dom) (lost : List Surv) : (s.loseDoms ds lost).age = s.age := by
  rw [State.loseDoms_eq]
  exact (setDoms_off ds _).2.2.2.2.1.trans (s.lossBase_values ds lost).2.2.2.2.1

theorem State.coarse_loseDoms (s : State) (ds : List Dom) (lost : List Surv) : (s.loseDoms ds lost).coarse = s.coarse := by
  rw [State.loseDoms_eq]
  exact (setDoms_off ds _).2.2.2.2.2.1.trans (s.lossBase_values ds lost).2.2.2.2.2.1

/-! ## The main domains -/

/-- A hidden value that the Hearth or NVM holds. -/
def Hid.inHearth (x : Hid) : Bool := x.home == .hearth || x.home == .nvm

theorem Hid.home_of_inHearth {x : Hid} (hearth : x.inHearth = true) (i : Nat) {d : Dom} (other : d ≠ .hearth) :
    x.home.dom i ≠ some d := by
  rw [Hid.inHearth, Bool.or_eq_true, beq_iff_eq, beq_iff_eq] at hearth
  rcases hearth with home | home
  · rw [home]
    exact fun same => other (Option.some.inj same).symm
  · rw [home]
    exact fun same => nomatch same

theorem hearth_notMem_mainDoms : Dom.hearth ∉ mainDoms := by decide

theorem State.rd_mainsOff {lost : List Surv} {f : Fld} {i : Nat} (other : f ∉ lossFlds)
    (kept : fldDom f i ∉ mainDoms ∨ f.desc.nvm = true) : (s.mainsOff lost).rd f i = s.rd f i :=
  State.rd_loseDoms other kept

theorem State.h_mainsOff {lost : List Surv} {x : Hid} {i : Nat} (other : x ≠ .ctxRaise) (hearth : x.inHearth = true) :
    (s.mainsOff lost).h x i = s.h x i :=
  State.h_loseDoms other (fun _ main => Hid.home_of_inHearth hearth i (fun same => hearth_notMem_mainDoms (same ▸ main)))

theorem State.domState_mainsOff (s : State) (lost : List Surv) (d : Dom) :
    (s.mainsOff lost).domState d = if d ∈ mainDoms then 0 else s.domState d :=
  State.domState_loseDoms hearth_notMem_mainDoms d

theorem State.mainsOff_off {d : Dom} (main : d ∈ mainDoms) (s : State) (lost : List Surv) : (s.mainsOff lost).domState d = 0 :=
  State.domState_loseDoms_lost main

theorem State.age_mainsOff (s : State) (lost : List Surv) : (s.mainsOff lost).age = s.age := s.age_loseDoms mainDoms lost

theorem State.coarse_mainsOff (s : State) (lost : List Surv) : (s.mainsOff lost).coarse = s.coarse := s.coarse_loseDoms mainDoms lost

/-- Every main domain has lost its context. -/
theorem State.contextLost_mainsOff {d : Dom} (main : d ∈ mainDoms) (s : State) (lost : List Surv) :
    bit d.idx ((s.mainsOff lost).rd (.hrt .CTX_CONTEXT_LOST) 0) = true := by
  have lostMask : maskOf (mainDoms.map Dom.idx) = 0x3FC := rfl
  rw [State.mainsOff, State.contextLost_loseDoms, lostMask, bit_testBit, Nat.testBit_mod_two_pow, ← bit_testBit, bit_or]
  have inMask : d.idx < 10 ∧ bit d.idx 0x3FC = true := by
    cases d <;> revert main <;> decide
  simp [inMask]

end Sys2Proof.Machine

/-! Starts of the main domains, the resets that lead to them, and function resets (R479, R494, R499-R502, R506). -/

namespace Sys2Proof.Machine

variable {s : State}

theorem State.domState_wr {f : Fld} {i v : Nat} {d : Dom} (other : f ≠ .hrt .PWR_STAT_STATE) :
    (s.wr f i v).domState d = s.domState d :=
  congrArg (bits (2 * d.idx) 2) ((State.rd_wr ..).trans (if_neg fun same => other same.1.symm))

theorem State.domState_setH (s : State) (x : Hid) (i v : Nat) (d : Dom) : (s.setH x i v).domState d = s.domState d := rfl

theorem State.h_setDom (s : State) (d : Dom) (v : Nat) (x : Hid) (i : Nat) : (s.setDom d v).h x i = s.h x i := rfl

theorem State.h_wr (s : State) (f : Fld) (j v : Nat) (x : Hid) (i : Nat) : (s.wr f j v).h x i = s.h x i := rfl

/-! ## A start of the main domains -/

/-- The fields that a start of the main domains writes itself, besides those of their loss. -/
def startFlds : List Fld := [.hrt .PWR_REQ, .hrt .RESET_LAST, .hrt .SUPPLY_VID] ++ lossFlds

/-- The survival codes a start of a kind takes. -/
def startLost (kind : Nat) : List Surv := if kind = 4 then [.N, .F] else [.N, .F, .W]

/-- The main domains, being off, start with a kind of reset: REEVE alone is switched on. -/
def State.releaseReeve (u : State) (kind : Nat) : State :=
  (((((u.wr (.hrt .PWR_REQ) 0 (u.rd (.hrt .PWR_REQ) 0 % 2 + 2)).wr (.hrt .RESET_LAST) 0 kind).setH .startKind 0 0).wr
    (.hrt .SUPPLY_VID) 0 (min Config.almVid 20)).setDom .reeve 1).setH .bootPend 0 1

theorem State.startMains_eq (s : State) (kind : Nat) : s.startMains kind = (s.mainsOff (startLost kind)).releaseReeve kind := rfl

section Release
variable (u : State) (kind : Nat)

theorem State.rd_releaseReeve {f : Fld} {i : Nat} (other : f ∉ startFlds) : (u.releaseReeve kind).rd f i = u.rd f i := by
  simp only [startFlds, lossFlds, List.mem_append, List.mem_cons, not_or] at other
  obtain ⟨⟨req, last, vid, _⟩, _, _, _, _, state, _⟩ := other
  rw [State.releaseReeve, State.rd_setH, State.rd_setDom _ _ _ _ state, State.rd_wr, if_neg (fun same => vid same.1),
    State.rd_setH, State.rd_wr, if_neg (fun same => last same.1), State.rd_wr, if_neg (fun same => req same.1)]

theorem State.h_releaseReeve {x : Hid} {i : Nat} (start : x ≠ .startKind) (boot : x ≠ .bootPend) :
    (u.releaseReeve kind).h x i = u.h x i := by
  rw [State.releaseReeve, State.h_setH, if_neg (fun same => boot same.1), State.h_setDom, State.h_wr, State.h_setH,
    if_neg (fun same => start same.1), State.h_wr, State.h_wr]

theorem State.pwrReq_releaseReeve : (u.releaseReeve kind).rd (.hrt .PWR_REQ) 0 = u.rd (.hrt .PWR_REQ) 0 % 2 + 2 := by
  have width : (Fld.hrt .PWR_REQ).desc.width = 9 := rfl
  rw [State.releaseReeve, State.rd_setH, State.rd_setDom _ _ _ _ (by decide), State.rd_wr, if_neg (by simp), State.rd_setH,
    State.rd_wr, if_neg (by simp), State.rd_wr, if_pos ⟨rfl, rfl⟩, width]
  exact trunc_of_lt (by omega)

theorem State.resetLast_releaseReeve : (u.releaseReeve kind).rd (.hrt .RESET_LAST) 0 = kind % 16 := by
  have width : (Fld.hrt .RESET_LAST).desc.width = 4 := rfl
  rw [State.releaseReeve, State.rd_setH, State.rd_setDom _ _ _ _ (by decide), State.rd_wr, if_neg (by simp), State.rd_setH,
    State.rd_wr, if_pos ⟨rfl, rfl⟩, width]
  rfl

theorem State.contextLost_releaseReeve : (u.releaseReeve kind).rd (.hrt .CTX_CONTEXT_LOST) 0 = u.rd (.hrt .CTX_CONTEXT_LOST) 0 := by
  rw [State.releaseReeve, State.rd_setH, State.rd_setDom _ _ _ _ (by decide), State.rd_wr, if_neg (by simp), State.rd_setH,
    State.rd_wr, if_neg (by simp), State.rd_wr, if_neg (by simp)]

theorem State.domState_releaseReeve (d : Dom) : (u.releaseReeve kind).domState d = if d = .reeve then 1 else u.domState d := by
  rw [State.releaseReeve, State.domState_setH, State.domState_setDom, State.domState_wr (by decide), State.domState_setH,
    State.domState_wr (by decide), State.domState_wr (by decide)]

theorem State.bootPend_releaseReeve : (u.releaseReeve kind).h .bootPend = 1 := (State.h_setH ..).trans (if_pos ⟨rfl, rfl⟩)

theorem State.age_releaseReeve : (u.releaseReeve kind).age = u.age := rfl

end Release

theorem State.rd_startMains {kind : Nat} {f : Fld} {i : Nat} (other : f ∉ startFlds) (kept : fldDom f i ∉ mainDoms ∨ f.desc.nvm = true) :
    (s.startMains kind).rd f i = s.rd f i :=
  (State.rd_releaseReeve _ kind other).trans (State.rd_mainsOff (fun in_ => other (List.mem_append_right _ in_)) kept)

theorem State.h_startMains {kind : Nat} {x : Hid} {i : Nat} (other : x ≠ .ctxRaise) (start : x ≠ .startKind)
    (hearth : x.inHearth = true) : (s.startMains kind).h x i = s.h x i :=
  (State.h_releaseReeve _ kind start (fun same => by subst same; exact Bool.noConfusion hearth)).trans
    (State.h_mainsOff other hearth)

section StartMains
variable (s : State) (kind : Nat)

theorem State.pwrReq_startMains : (s.startMains kind).rd (.hrt .PWR_REQ) 0 = s.rd (.hrt .PWR_REQ) 0 % 2 + 2 := by
  have req : (s.mainsOff (startLost kind)).rd (.hrt .PWR_REQ) 0 = s.rd (.hrt .PWR_REQ) 0 :=
    State.rd_mainsOff (by decide) (.inl (by decide))
  rw [State.startMains_eq, State.pwrReq_releaseReeve, req]

theorem State.resetLast_startMains : (s.startMains kind).rd (.hrt .RESET_LAST) 0 = kind % 16 := by
  rw [State.startMains_eq, State.resetLast_releaseReeve]

theorem State.bootPend_startMains : (s.startMains kind).h .bootPend = 1 := by
  rw [State.startMains_eq, State.bootPend_releaseReeve]

/-- REEVE alone is switched on. -/
theorem State.domState_startMains (d : Dom) :
    (s.startMains kind).domState d = if d = .reeve then 1 else if d ∈ mainDoms then 0 else s.domState d := by
  rw [State.startMains_eq, State.domState_releaseReeve, State.domState_mainsOff]

theorem State.contextLost_startMains {d : Dom} (main : d ∈ mainDoms) :
    bit d.idx ((s.startMains kind).rd (.hrt .CTX_CONTEXT_LOST) 0) = true := by
  rw [State.startMains_eq, State.contextLost_releaseReeve]
  exact s.contextLost_mainsOff main _

theorem State.age_startMains : (s.startMains kind).age = s.age := by
  rw [State.startMains_eq, State.age_releaseReeve, State.age_mainsOff]

end StartMains

theorem State.startWhen_now {kind : Nat} (good : s.mainsGood = true) (free : s.mainsFree = true) :
    s.startWhen kind = s.startMains kind := if_pos ⟨good, free⟩

/-! ## The loss of Hearth power and the cold start -/

/-- The timescales, the holdover history and the held records are gone. -/
def State.timeLost (u : State) : State := { u with now := 0, coarse := 0, hist := [], held := [] }

theorem State.rd_timeLost (u : State) (f : Fld) (i : Nat) : u.timeLost.rd f i = u.rd f i := rfl

theorem State.domState_timeLost (u : State) (d : Dom) : u.timeLost.domState d = u.domState d := rfl

theorem State.hearthLost_eq (s : State) : s.hearthLost = (s.loseDoms Dom.all [.N, .F, .W, .H]).timeLost := rfl

/-- With the power of the Hearth every domain is off; NVM keeps. -/
theorem State.hearthLost_values (s : State) : (∀ d, s.hearthLost.domState d = 0) ∧
    s.hearthLost.rd (.hrt .CTX_CONTEXT_LOST) 0 = 0x3FF ∧
    (∀ f i, f ∉ lossFlds → f.desc.nvm = true → s.hearthLost.rd f i = s.rd f i) ∧
    (∀ f i, f ∉ lossFlds → f.desc.nvm = false → s.hearthLost.rd f i = resetVal s.variant f i) := by
  have everywhere : ∀ d : Dom, d ∈ Dom.all := fun d => by cases d <;> decide
  have codes : ∀ c : Surv, c ∈ [Surv.N, .F, .W, .H] := fun c => by cases c <;> decide
  rw [State.hearthLost_eq]
  refine ⟨fun d => ?_, ?_, fun f i other nvm => ?_, fun f i other volatile => ?_⟩
  · rw [State.domState_timeLost, State.domState_loseDoms_lost (everywhere d)]
  · have lost : (s.lose Dom.all [.N, .F, .W, .H]).rd (.hrt .CTX_CONTEXT_LOST) 0 = 0x3FF :=
      (State.rd_lose ..).trans (if_pos ⟨everywhere _, codes _, rfl⟩)
    rw [State.rd_timeLost, State.contextLost_loseDoms, lost]
    rfl
  · rw [State.rd_timeLost, State.rd_loseDoms other (.inr nvm)]
  · rw [State.rd_timeLost, State.rd_loseDoms_lost other (everywhere _) (codes _) volatile]

/-- The Hearth and WEIGH start, and REEVE is released. -/
def State.coldUp (u : State) (ocxo : Bool) : State :=
  let s := u.setDom .hearth 3
  let s := (s.setBitF (.hrt .SUPPLY_GOOD) 0 0).wr (.hrt .SUPPLY_VID) 0 (min Config.almVid 20)
  let s := (s.wr (.hrt .CLK_HSRC) 0 (if ocxo then 0 else 1)).wr (.hrt .CLK_OCXO_PRESENT) 0 ocxo.toNat
  let s := s.wr (.wgh .STATUS_SEALED) 0 (if s.lc = 3 then 1 else 0)
  ((s.setDom .weigh 1).setDom .reeve 1).setH .bootPend 0 1

theorem State.coldStart_eq (s : State) (ocxo : Bool) : s.coldStart ocxo = s.hearthLost.coldUp ocxo := rfl

/-- The fields a cold start writes after the loss. -/
def coldFlds : List Fld :=
  [.hrt .PWR_STAT_STATE, .hrt .SUPPLY_GOOD, .hrt .SUPPLY_VID, .hrt .CLK_HSRC, .hrt .CLK_OCXO_PRESENT, .wgh .STATUS_SEALED]

theorem State.rd_coldUp (u : State) (ocxo : Bool) {f : Fld} {i : Nat} (other : f ∉ coldFlds) :
    (u.coldUp ocxo).rd f i = u.rd f i := by
  simp only [coldFlds, List.mem_cons, not_or] at other
  obtain ⟨state, good, vid, src, present, sealed, _⟩ := other
  dsimp only [State.coldUp, State.setBitF]
  rw [State.rd_setH, State.rd_setDom _ _ _ _ state, State.rd_setDom _ _ _ _ state, State.rd_wr, if_neg (fun same => sealed same.1),
    State.rd_wr, if_neg (fun same => present same.1), State.rd_wr, if_neg (fun same => src same.1), State.rd_wr,
    if_neg (fun same => vid same.1), State.rd_wr, if_neg (fun same => good same.1), State.rd_setDom _ _ _ _ state]

theorem State.coldUp_values (u : State) (ocxo : Bool) : (∀ d, (u.coldUp ocxo).domState d =
      if d = .reeve then 1 else if d = .weigh then 1 else if d = .hearth then 3 else u.domState d) ∧
    (u.coldUp ocxo).rd (.hrt .CLK_HSRC) 0 = (if ocxo then 0 else 1) ∧ (u.coldUp ocxo).h .bootPend = 1 := by
  refine ⟨fun d => ?_, ?_, (State.h_setH ..).trans (if_pos ⟨rfl, rfl⟩)⟩
  · dsimp only [State.coldUp, State.setBitF]
    rw [State.domState_setH, State.domState_setDom, State.domState_setDom, State.domState_wr (by decide), State.domState_wr (by decide),
      State.domState_wr (by decide), State.domState_wr (by decide), State.domState_wr (by decide), State.domState_setDom]
  · dsimp only [State.coldUp, State.setBitF]
    rw [State.rd_setH, State.rd_setDom _ _ _ _ (by decide), State.rd_setDom _ _ _ _ (by decide), State.rd_wr, if_neg (by simp),
      State.rd_wr, if_neg (by simp), State.rd_wr, if_pos ⟨rfl, rfl⟩]
    cases ocxo <;> rfl

/-! ## Calls of the management on the twin link and the commit controller -/

theorem UnitsOnly.recovery (s : State) (step attempt loc : Nat) : UnitsOnly s (s.recovery step attempt loc) :=
  (UnitsOnly.refl.ledger _ _ _ _ _).raise _ _ _ _

/-- The hidden values of a request of the part itself, to the commit controller or for a warm reset. -/
def callHids : List Hid := [.relinq, .intFull, .intUnits, .intMode, .intRole, .intSrc, .warmAge, .warmAt]

/-- From `s` to `t` only single units have changed, and requests were put in. -/
structure CallsOnly (s t : State) : Prop where
  rd : ∀ f i, f.isMgmt = true → t.rd f i = s.rd f i
  h : ∀ x i, x ∉ unitHids → x ∉ callHids → t.h x i = s.h x i
  age : t.age = s.age
  variant : t.variant = s.variant

namespace CallsOnly
variable {t u : State}

theorem refl : CallsOnly s s := ⟨fun _ _ _ => rfl, fun _ _ _ _ => rfl, rfl, rfl⟩

theorem units (a : CallsOnly s t) (b : UnitsOnly t u) : CallsOnly s u :=
  ⟨fun f i m => (b.rd f i m).trans (a.rd f i m), fun x i m n => (b.h x i m).trans (a.h x i m n), b.age.trans a.age,
    b.variant.trans a.variant⟩

theorem setH (x : Hid) (i v : Nat) (a : CallsOnly s t) (call : x ∈ callHids) : CallsOnly s (t.setH x i v) :=
  ⟨a.rd, fun y j m n => (State.h_setH_other _ _ _ _ (fun e => n (by rw [e]; exact call))).trans (a.h y j m n), a.age, a.variant⟩

theorem intRequest (q : IntReq) (a : CallsOnly s t) : CallsOnly s (t.intRequest q) := by
  have entry : CallsOnly s (if t.h .intFull = 1 then t.count (.glb .INT_MERGED) 0 else t.setH .intFull 0 1) :=
    iteS (a.units (UnitsOnly.refl.count _ _ _ rfl)) (a.setH _ _ _ (by decide))
  have units := entry.setH .intUnits 0 ((if t.h .intFull = 1 then t.count (.glb .INT_MERGED) 0
    else t.setH .intFull 0 1).h .intUnits ||| q.units) (by decide)
  have mode := iteS (c := q.mode = 0) units (units.setH .intMode 0 q.mode (by decide))
  have role := iteS (c := q.role = 0) mode (mode.setH .intRole 0 q.role (by decide))
  exact iteS (c := q.src = 0) role (role.setH .intSrc 0 q.src (by decide))

theorem relinquish (a : CallsOnly s t) : CallsOnly s t.relinquish :=
  iteS ((a.setH _ _ _ (by decide)).intRequest _) a

theorem recovery (step attempt loc : Nat) (a : CallsOnly s t) : CallsOnly s (t.recovery step attempt loc) :=
  a.units (UnitsOnly.recovery t step attempt loc)

theorem warmAtSet (w : Nat) (a : CallsOnly s t) : CallsOnly s (t.warmAtSet w) := iteS a (a.setH _ _ _ (by decide))

theorem inTransition (a : CallsOnly s t) : t.inTransition = s.inTransition :=
  State.inTransition_eq (a.h _ _ (by decide) (by decide)) (a.rd _ _ rfl)

end CallsOnly

/-! ## The Hearth link -/

/-- A time that lies further back than a span still does later. -/
theorem State.within_later {t secs : Nat} {u : State} (far : s.within t secs = false) (later : s.age ≤ u.age) :
    u.within t secs = false := by
  rw [State.within, Bool.and_eq_false_iff] at far ⊢
  refine far.imp id (fun old => ?_)
  rw [decide_eq_false_iff_not] at old ⊢
  omega

/-- An attempt to retrain the Hearth link, after its time. -/
def State.retrain (s : State) (k : Nat) : State := (s.passAge (s.age + msTicks (retryMs (k + 1)))).recovery 1 (k + 1) locHearth

theorem State.retrain_values (s : State) (k : Nat) : (∀ f i, f.isMgmt = true → (s.retrain k).rd f i = s.rd f i) ∧
    (∀ x i, x ∉ unitHids → (s.retrain k).h x i = s.h x i) ∧ (s.retrain k).age = s.age + msTicks (retryMs (k + 1)) := by
  have waited := UnitsOnly.recovery (s.passAge (s.age + msTicks (retryMs (k + 1)))) 1 (k + 1) locHearth
  refine ⟨waited.rd, waited.h, waited.age.trans ?_⟩
  generalize msTicks (retryMs (k + 1)) = n
  show s.age + (s.age + n - s.age) = s.age + n
  omega

/-- The Hearth link after its failed attempts. -/
def State.retrained (s : State) (fails : Nat) : State := (List.range (min fails 3)).foldl State.retrain (s.setH .hlink 0 0)

theorem State.linkLoss_eq (s : State) (fails : Nat) :
    s.linkLoss fails = if 3 ≤ fails then (s.retrained fails).step3 locHearth else (s.retrained fails).setH .hlink 0 1 := rfl

theorem State.retrained_three (s : State) : s.retrained 3 = (((s.setH .hlink 0 0).retrain 0).retrain 1).retrain 2 := by
  rw [State.retrained, show List.range (min 3 3) = [0, 1, 2] from rfl, List.foldl_cons, List.foldl_cons, List.foldl_cons,
    List.foldl_nil]

/-- Step 3 of the ladder, short of its third reset within the hour, is recorded and requests. -/
theorem State.step3_only (idle : s.inTransition = false) (few : s.within (s.h .warmAge 1) 3600 = false) (loc : Nat) :
    CallsOnly s (s.step3 loc) := by
  unfold State.step3
  simp only [idle, few, Bool.false_eq_true, if_false]
  generalize (if s.within (s.h .warmAge 0) 3600 = true then 2 else 1) = n
  exact ((((CallsOnly.refl.recovery 3 n loc).setH _ _ _ (by decide)).setH _ _ _ (by decide)).relinquish).warmAtSet _

theorem State.warmAge_retrained_three (s : State) : (s.retrained 3).h .warmAge 1 = s.h .warmAge 1 := by
  rw [State.retrained_three, (State.retrain_values _ 2).2.1 _ _ (by decide), (State.retrain_values _ 1).2.1 _ _ (by decide),
    (State.retrain_values _ 0).2.1 _ _ (by decide), State.h_setH_other _ _ _ _ (by decide)]

/-- What three failed attempts leave, 1, 10 and 100 ms apart. -/
theorem State.retrained_three_values (s : State) : (s.retrained 3).age = s.age + msTicks 111 ∧ (s.retrained 3).h .hlink = 0 ∧
    (s.retrained 3).inTransition = s.inTransition := by
  obtain ⟨rdA, hA, ageA⟩ := (s.setH .hlink 0 0).retrain_values 0
  obtain ⟨rdB, hB, ageB⟩ := ((s.setH .hlink 0 0).retrain 0).retrain_values 1
  obtain ⟨rdC, hC, ageC⟩ := (((s.setH .hlink 0 0).retrain 0).retrain 1).retrain_values 2
  have waits : msTicks (retryMs (0 + 1)) + msTicks (retryMs (1 + 1)) + msTicks (retryMs (2 + 1)) = msTicks 111 := by decide
  rw [State.retrained_three]
  refine ⟨?_, ?_, State.inTransition_eq ?_ ?_⟩
  · rw [ageC, ageB, ageA, ← waits]
    exact (Nat.add_assoc ..).trans ((Nat.add_assoc ..).trans (congrArg (s.age + ·) (Nat.add_assoc ..).symm))
  · rw [hC _ _ (by decide), hB _ _ (by decide), hA _ _ (by decide), State.h_setH,
      if_pos ⟨rfl, rfl⟩]
  · rw [hC _ _ (by decide), hB _ _ (by decide), hA _ _ (by decide),
      State.h_setH_other _ _ _ _ (by decide)]
  · rw [rdC _ _ rfl, rdB _ _ rfl, rdA _ _ rfl, State.rd_setH]

/-! ## The release of RESET_N -/

theorem setBit_ne_zero (k n : Nat) : setBit k n ≠ 0 := by
  intro none_
  have set := bit_setBit k k n
  rw [none_] at set
  simp at set

/-- RESET_N is high: its hold ends, and MAIN_EN is released. -/
def State.pinReleased (s : State) : State := ((s.setH .mainHold 0 (clrBit 0 (s.h .mainHold))).mainEnFree 1).mainEnFree 3

theorem State.h_mainEnFree (s : State) (why : Nat) (x : Hid) : (s.mainEnFree why).h x =
    if x = .mainEn ∧ s.h .mainEn = why then 0 else s.h x := by
  unfold State.mainEnFree
  by_cases held : s.h .mainEn = why
  · rw [if_pos held, State.h_setH]
    simp [held]
  · rw [if_neg held, if_neg (fun c => held c.2)]

theorem State.rd_mainEnFree (s : State) (why : Nat) (f : Fld) (i : Nat) : (s.mainEnFree why).rd f i = s.rd f i :=
  iteS (P := fun u => u.rd f i = s.rd f i) rfl rfl

theorem State.pinReleased_values (s : State) (low : s.h .mainEn = 0 ∨ s.h .mainEn = 1 ∨ s.h .mainEn = 3) :
    s.pinReleased.h .mainEn = 0 ∧ s.pinReleased.h .mainHold = clrBit 0 (s.h .mainHold) ∧ s.pinReleased.mainsGood = s.mainsGood := by
  refine ⟨?_, ?_, ?_⟩
  · rw [State.pinReleased, State.h_mainEnFree, State.h_mainEnFree, State.h_setH_other _ _ _ _ (by decide)]
    rcases low with zero | one | three
    · simp [zero]
    · simp [one]
    · simp [three]
  · rw [State.pinReleased, State.h_mainEnFree, if_neg (by simp), State.h_mainEnFree, if_neg (by simp), State.h_setH, if_pos ⟨rfl, rfl⟩]
  · rw [State.mainsGood, State.mainsGood, State.pinReleased, State.rd_mainEnFree, State.rd_mainEnFree, State.rd_setH]

/-! ## The wake from DORMANT -/

/-- The coarse timescale of the Hearth after the wait for HRT_WAKE_AT. -/
theorem wake_wait (t c : Nat) : t * 10 ≤ (c + 16 * (((t * 10 + 65535) / 65536 - c + 15) / 16)) * 65536 := by
  omega

/-! ## Function resets -/

theorem State.frEnd_fnReset {k : Nat} (idle : s.h .frEnd k = 0) (free : s.inTransition = false) :
    (s.fnReset k).h .frEnd k = 1 + s.age + usTicks (fnTime k) := by
  rw [State.fnReset_eq, if_neg (by simp [idle, free])]
  generalize 1 + s.age + usTicks (fnTime k) = e
  exact ((UnitsOnly.refl.fnResets k).h .frEnd k (by decide)).trans ((State.h_setH ..).trans (if_pos ⟨rfl, rfl⟩))

/-- Settles O43: every start of the main domains is a loss of the main domains followed by the release of REEVE; a function
reset is its end time and the reset of single units. -/
theorem startsAndResetsComplete : Obligations.StartsAndResetsComplete := by
  unfold Obligations.StartsAndResetsComplete
  refine ⟨?cold, ?kept, ?held, ?starts, ?pin, ?pinIdle, ?release, ?awake, ?wakePin, ?wakeAt, fun k s => State.startWhen_now,
    ?link, ?linkLost, ?fn, ?fnNone, ?fnBusy, fun k s _ => State.frEnd_fnReset⟩
  case cold =>
    intro o s
    obtain ⟨off, ctx, kept, reset⟩ := s.hearthLost_values
    obtain ⟨dom, src, boot⟩ := s.hearthLost.coldUp_values o
    refine ⟨s.coldStart o, rfl, ?_⟩
    rw [State.coldStart_eq]
    refine ⟨dom .hearth, dom .weigh, dom .reeve, fun d hearth weigh reeve => ?_, boot, ?_, ?_, ?_, src, ?_, ?_⟩
    · rw [dom, if_neg reeve, if_neg weigh, if_neg hearth, off]
    · rw [State.rd_coldUp _ _ (by decide), reset _ _ (by decide) rfl]
      rfl
    · rw [State.on, State.rd_coldUp _ _ (by decide), reset _ _ (by decide) rfl]
      rfl
    · rw [State.rd_coldUp _ _ (by decide), ctx]
    · rw [State.rd_coldUp _ _ (by decide), kept _ _ (by decide) rfl]
    · rw [State.rd_coldUp _ _ (by decide), kept _ _ (by decide) rfl]
  case kept =>
    intro s on_ good free
    have held : ¬ (¬ s.mainsGood = true ∨ ¬ s.mainsFree = true) := by simp [good, free]
    exact ⟨fun kind => next_inDom on_ ((if_neg held).trans (if_pos kind)),
      fun kind off => next_inDom on_ ((if_neg held).trans ((if_neg (not_not_intro kind)).trans (if_pos off))),
      fun kind off => next_inDom on_ ((if_neg held).trans ((if_neg (not_not_intro kind)).trans (if_neg off)))⟩
  case held =>
    intro s on_ held
    exact next_inDom on_ (if_pos (by simpa using held))
  case starts =>
    intro k s small
    refine ⟨s.pwrReq_startMains k, (s.resetLast_startMains k).trans (Nat.mod_eq_of_lt small), s.domState_startMains k .reeve,
      s.bootPend_startMains k, fun d main other => ?_, fun d main => s.contextLost_startMains k main⟩
    rw [s.domState_startMains k d, if_neg other, if_pos main]
  case pin =>
    intro s on_
    refine ⟨_, next_inDom on_ rfl, fun d main => (State.domState_setH ..).trans (s.mainsOff_off main _), ?_, ?_, ?_⟩
    · rw [State.h_setH, if_pos ⟨rfl, rfl⟩, bit_setBit]
      simp
    · have held : setBit 0 (s.h .mainHold) ≠ 0 := setBit_ne_zero 0 _
      rw [State.mainsFree, State.h_setH, if_pos ⟨rfl, rfl⟩]
      simp [held]
    · exact (State.rd_setH ..).trans (State.rd_mainsOff (by decide) (.inl (by decide)))
  case pinIdle =>
    intro s on_ idle
    exact next_inDom_idle on_ (c := fun s => bit 0 (s.h .mainHold)) idle
  case release =>
    intro s on_ hold good low
    have free : bit 0 (s.h .mainHold) = true := by rw [hold]; rfl
    have ready := s.pinReleased_values low
    obtain ⟨en, held, rails⟩ := ready
    rw [hold] at held
    have start : s.pinReleased.startWhen 3 = s.pinReleased.startMains 3 :=
      State.startWhen_now (rails.trans good) (by rw [State.mainsFree, held, en]; rfl)
    refine ⟨s.pinReleased.startMains 3, next_inDom_when on_ (c := fun s => bit 0 (s.h .mainHold)) free start,
      State.resetLast_startMains .., State.domState_startMains .., State.bootPend_startMains .., ?_⟩
    rw [State.h_startMains (by decide) (by decide) rfl, en]
  case awake =>
    intro p s on_ awake
    exact next_inDom on_ (if_pos (by simp [awake]))
  case wakePin =>
    intro s on_ asleep
    have sleeps : ¬ ¬ s.asleep = true := not_not_intro asleep
    exact ⟨fun pin => next_inDom on_ ((if_neg sleeps).trans (if_pos pin)),
      fun pin => next_inDom on_ ((if_neg sleeps).trans (if_neg (Bool.eq_false_iff.mp pin))),
      fun timer => next_inDom on_ ((if_neg sleeps).trans (if_neg (Bool.eq_false_iff.mp timer)))⟩
  case wakeAt =>
    intro s on_ asleep timer
    exact ⟨_, next_inDom on_ ((if_neg (not_not_intro asleep)).trans (if_pos timer)), wake_wait _ _⟩
  case link =>
    intro s on_
    exact next_inDom on_ rfl
  case linkLost =>
    intro s on_ idle unset few
    obtain ⟨age, link, transition⟩ := s.retrained_three_values
    have stepped := State.step3_only (transition.trans idle) (loc := locHearth) ?few
    case few =>
      have warm : (s.retrained 3).h .warmAge 1 = s.h .warmAge 1 := s.warmAge_retrained_three
      rw [warm]
      exact State.within_later few (by rw [age]; exact Nat.le_add_right ..)
    refine ⟨s.linkLoss 3, next_inDom on_ rfl, ?_, ?_⟩
    · rw [State.linkLoss_eq, if_pos (le_refl 3), stepped.h _ _ (by decide) (by decide), link]
    · rw [State.linkLoss_eq, if_pos (le_refl 3), stepped.age, age]
  case fn =>
    intro r l k s reach names
    exact ⟨fun ok => next_writeTo reach (by rw [State.fresetWrite, names]; exact if_pos ok),
      fun bad => next_writeTo reach (by rw [State.fresetWrite, names]; exact if_neg (Bool.eq_false_iff.mp bad))⟩
  case fnNone =>
    intro r l s reach names
    exact next_writeTo reach (by rw [State.fresetWrite, names])
  case fnBusy =>
    intro k s busy
    rw [State.fnReset_eq]
    exact if_pos busy

end Sys2Proof.Machine

/-! Supplies: rails and CAUTION, domain switching, clocks (R484-R498). -/

namespace Sys2Proof.Machine

variable {s : State}

/-! ## Rails that return -/

theorem State.domReturn_waits (start : s.h .startKind ≠ 0) : s.domReturn = s := by
  refine foldS (P := fun t => t = s) rfl (fun t d same => ?_)
  subst same
  exact if_neg (fun c => start c.2.2.1)

/-- Domains that are on stay on as supplies return. -/
theorem State.domReturn_values (s : State) : (∀ d, s.domState d = 3 → s.domReturn.domState d = 3) ∧
    s.domReturn.rd (.hrt .SUPPLY_GOOD) 0 = s.rd (.hrt .SUPPLY_GOOD) 0 := by
  refine foldS (P := fun t => (∀ d, s.domState d = 3 → t.domState d = 3) ∧ t.rd (.hrt .SUPPLY_GOOD) 0 = s.rd (.hrt .SUPPLY_GOOD) 0)
    ⟨fun _ on_ => on_, rfl⟩ (fun t d kept => ?_)
  obtain ⟨on_, good⟩ := kept
  by_cases back : reqBit d (t.rd (.hrt .PWR_REQ) 0) = true ∧ t.supplyGood d = true ∧ t.h .startKind = 0 ∧ t.mainsFree = true ∧
      (t.domState d = 2 ∨ (t.domState d = 0 ∧ (d = .weigh ∨ t.domOn .reeve = true)))
  · obtain ⟨_, _, _, _, off⟩ := id back
    rw [if_pos back]
    refine ⟨fun e was => ?_, (t.rd_setDom _ _ _ (by decide)).trans good⟩
    have now_ := on_ e was
    have other : e ≠ d := by
      rintro rfl
      omega
    rw [State.domState_setDom, if_neg other, now_]
  · rw [if_neg back]
    exact ⟨on_, good⟩

/-! ## CAUTION -/

theorem UnitsOnly.domState {t : State} (a : UnitsOnly s t) (d : Dom) : t.domState d = s.domState d :=
  congrArg (bits (2 * d.idx) 2) (a.rd _ _ rfl)

theorem State.domOn_wr {f : Fld} {i v : Nat} {d : Dom} (other : f ≠ .hrt .PWR_STAT_STATE) : (s.wr f i v).domOn d = s.domOn d :=
  congrArg (· == 3) (State.domState_wr other)

/-- CAUTION begins: the rail and the minimum are noted, the dip is counted and raised. -/
def State.cautionNoted (s : State) (rail mv : Nat) : State :=
  ((((s.wr (.hrt .SUPPLY_CAUTION) 0 1).wr (.hrt .SUPPLY_RAIL) 0 rail).wr (.hrt .VMIN) 0 mv).count (.hrt .VMIN_CAUTION_CNT) 0).raise
    .HRT_SUPPLY_CAUTION locHearth rail

theorem State.cautionEntry_eq {rail mv : Nat} (clear : s.on (.hrt .SUPPLY_CAUTION) 0 = false) : s.cautionEntry rail mv =
    if (s.cautionNoted rail mv).domOn .bell then (s.cautionNoted rail mv).wr (.bell .STATUS_GATE_CAUTION) 0 1
    else s.cautionNoted rail mv :=
  if_neg (Bool.eq_false_iff.mp clear)

theorem State.cautionNoted_values (s : State) {rail mv : Nat} (small : rail < 8) (word : mv < 2 ^ 16) :
    (s.cautionNoted rail mv).on (.hrt .SUPPLY_CAUTION) 0 = true ∧ (s.cautionNoted rail mv).rd (.hrt .SUPPLY_RAIL) 0 = rail ∧
    (s.cautionNoted rail mv).rd (.hrt .VMIN) 0 = mv ∧
    (s.cautionNoted rail mv).rd (.hrt .VMIN_CAUTION_CNT) 0 = satAdd 16 (s.rd (.hrt .VMIN_CAUTION_CNT) 0) 1 ∧
    ∀ d, (s.cautionNoted rail mv).domState d = s.domState d := by
  have raised : UnitsOnly _ (s.cautionNoted rail mv) := UnitsOnly.refl.raise .HRT_SUPPLY_CAUTION locHearth rail 0
  have caution : (Fld.hrt .SUPPLY_CAUTION).desc.width = 1 := rfl
  have railWidth : (Fld.hrt .SUPPLY_RAIL).desc.width = 3 := rfl
  have vmin : (Fld.hrt .VMIN).desc.width = 16 := rfl
  have count : (Fld.hrt .VMIN_CAUTION_CNT).desc.width = 16 := rfl
  refine ⟨?_, ?_, ?_, ?_, fun d => (raised.domState d).trans ?_⟩
  · rw [State.on, raised.rd _ _ rfl, State.count, State.rd_wr, if_neg (by simp), State.rd_wr, if_neg (by simp), State.rd_wr,
      if_neg (by simp), State.rd_wr, if_pos ⟨rfl, rfl⟩, caution]
    rfl
  · rw [raised.rd _ _ rfl, State.count, State.rd_wr, if_neg (by simp), State.rd_wr, if_neg (by simp), State.rd_wr,
      if_pos ⟨rfl, rfl⟩, railWidth]
    exact trunc_of_lt (by omega)
  · rw [raised.rd _ _ rfl, State.count, State.rd_wr, if_neg (by simp), State.rd_wr, if_pos ⟨rfl, rfl⟩, vmin]
    exact trunc_of_lt word
  · rw [raised.rd _ _ rfl, State.count, State.rd_wr, if_pos ⟨rfl, rfl⟩, State.rd_wr, if_neg (by simp), State.rd_wr,
      if_neg (by simp), State.rd_wr, if_neg (by simp), count]
    refine trunc_of_lt ?_
    rw [satAdd]
    omega
  · rw [State.count, State.domState_wr (by decide), State.domState_wr (by decide), State.domState_wr (by decide),
      State.domState_wr (by decide)]

/-- The end of CAUTION, with what it raises. -/
def State.cautionOver (s : State) : State :=
  ((s.wr (.hrt .SUPPLY_CAUTION) 0 0).setH .cautionEnd 0 s.age).raise .HRT_SUPPLY_CAUTION_EXIT locHearth

theorem State.cautionExit_eq (s : State) : s.cautionExit = if ¬ s.on (.hrt .SUPPLY_CAUTION) 0 then s
    else if s.cautionOver.domOn .reeve then s.cautionOver.ledger 0x0005 false locHearth
      (s.cautionOver.rd (.hrt .SUPPLY_RAIL) 0 + 2 ^ 16 * s.cautionOver.rd (.hrt .VMIN) 0) .reeve
    else s.cautionOver := rfl

theorem State.cautionOver_values (s : State) :
    (∀ f i, f.isMgmt = true → f ≠ .hrt .SUPPLY_CAUTION → s.cautionOver.rd f i = s.rd f i) ∧
    (∀ x i, x ∉ unitHids → x ≠ .cautionEnd → s.cautionOver.h x i = s.h x i) ∧ s.cautionOver.on (.hrt .SUPPLY_CAUTION) 0 = false ∧
    s.cautionOver.variant = s.variant := by
  have raised : UnitsOnly _ s.cautionOver := UnitsOnly.refl.raise .HRT_SUPPLY_CAUTION_EXIT locHearth 0 0
  refine ⟨fun f i mgmt other => ?_, fun x i unit other => ?_, ?_, raised.variant⟩
  · rw [raised.rd f i mgmt, State.rd_setH, State.rd_wr, if_neg (fun same => other same.1)]
  · rw [raised.h x i unit]
    exact State.h_setH_other _ _ _ _ (fun same => other same)
  · rw [State.on, raised.rd _ _ rfl, State.rd_setH, State.rd_wr, if_pos ⟨rfl, rfl⟩]
    rfl

theorem State.cautionExit_logged (set : s.on (.hrt .SUPPLY_CAUTION) 0 = true) : UnitsOnly s.cautionOver s.cautionExit := by
  rw [State.cautionExit_eq, if_neg (not_not_intro set)]
  exact iteS (UnitsOnly.refl.ledger _ _ _ _ _) UnitsOnly.refl

/-- CAUTION is over, and nothing else of the management has changed. -/
theorem State.cautionExit_values (s : State) :
    (∀ f i, f.isMgmt = true → f ≠ .hrt .SUPPLY_CAUTION → s.cautionExit.rd f i = s.rd f i) ∧
    (∀ x i, x ∉ unitHids → x ≠ .cautionEnd → s.cautionExit.h x i = s.h x i) ∧ s.cautionExit.on (.hrt .SUPPLY_CAUTION) 0 = false ∧
    s.cautionExit.variant = s.variant := by
  obtain ⟨rd, h, over_, variant⟩ := s.cautionOver_values
  cases set : s.on (.hrt .SUPPLY_CAUTION) 0 with
  | false =>
    have same : s.cautionExit = s := by rw [State.cautionExit_eq, if_pos (Bool.eq_false_iff.mp set)]
    rw [same]
    exact ⟨fun _ _ _ _ => rfl, fun _ _ _ _ => rfl, set, rfl⟩
  | true =>
    have logged := State.cautionExit_logged set
    refine ⟨fun f i mgmt other => (logged.rd f i mgmt).trans (rd f i mgmt other),
      fun x i unit other => (logged.h x i unit).trans (h x i unit other), ?_, logged.variant.trans variant⟩
    rw [State.on, logged.rd _ _ rfl]
    exact over_

/-! ## Supply resets -/

/-- A rail has failed: CAUTION ends, and the reset is counted. -/
def State.railFailed (s : State) (rail : Nat) : State :=
  ((s.wr (.hrt .SUPPLY_GOOD) 0 (clrBit rail (s.rd (.hrt .SUPPLY_GOOD) 0))).cautionExit).count (.hrt .RESET_SUPPLY_CNT) 0

/-- The domains that a rail feeds, and those that depend on them. -/
def fedBy (rail : Nat) : List Dom := closeDoms (Dom.all.filter (fun d => (domRails d).contains rail))

theorem bit_clrBit_self (k n : Nat) : bit k (clrBit k n) = false := by
  unfold clrBit
  by_cases set : bit k n = true
  · have odd : n / 2 ^ k % 2 = 1 := by simpa [bit] using set
    have less : (n - 2 ^ k * 1) / 2 ^ k = n / 2 ^ k - 1 := Nat.sub_mul_div n (2 ^ k) 1
    rw [Nat.mul_one] at less
    rw [if_pos set, bit, less, beq_eq_false_iff_ne]
    omega
  · rw [if_neg set]
    exact Bool.eq_false_iff.mpr set

theorem State.railFailed_values (s : State) (rail : Nat) :
    (∀ f i, f.isMgmt = true → f ≠ .hrt .SUPPLY_CAUTION → f ≠ .hrt .SUPPLY_GOOD → f ≠ .hrt .RESET_SUPPLY_CNT →
      (s.railFailed rail).rd f i = s.rd f i) ∧
    (∀ x i, x ∉ unitHids → x ≠ .cautionEnd → (s.railFailed rail).h x i = s.h x i) ∧
    (s.railFailed rail).on (.hrt .SUPPLY_CAUTION) 0 = false ∧ bit rail ((s.railFailed rail).rd (.hrt .SUPPLY_GOOD) 0) = false ∧
    (s.railFailed rail).variant = s.variant := by
  obtain ⟨rd, h, over_, variant⟩ := (s.wr (.hrt .SUPPLY_GOOD) 0 (clrBit rail (s.rd (.hrt .SUPPLY_GOOD) 0))).cautionExit_values
  have width : (Fld.hrt .SUPPLY_GOOD).desc.width = 8 := rfl
  refine ⟨fun f i mgmt caution good count => ?_, fun x i unit other => (h x i unit other), ?_, ?_, variant⟩
  · rw [State.railFailed, State.count, State.rd_wr, if_neg (fun same => count same.1), rd f i mgmt caution, State.rd_wr,
      if_neg (fun same => good same.1)]
  · rw [State.on, State.railFailed, State.count, State.rd_wr, if_neg (by simp)]
    exact over_
  · rw [State.railFailed, State.count, State.rd_wr, if_neg (by simp), rd _ _ rfl (by decide), State.rd_wr, if_pos ⟨rfl, rfl⟩, width,
      trunc, bit_testBit, Nat.testBit_mod_two_pow, ← bit_testBit, bit_clrBit_self]
    exact Bool.and_false _

theorem State.domState_railFailed (s : State) (rail : Nat) (d : Dom) :
    (s.railFailed rail).domState d = s.domState d :=
  congrArg (bits (2 * d.idx) 2) ((s.railFailed_values rail).1 _ _ rfl (by decide) (by decide) (by decide))

theorem State.supplyReset_eq (s : State) {rail : Nat} (main : rail ≠ 0) : s.supplyReset rail =
    if (fedBy rail).contains .reeve then
      if (s.railFailed rail).h .mainEn = 0 then ((s.railFailed rail).mainsOff [.N, .F, .W]).setH .startKind 0 6 else s.railFailed rail
    else
      let s := s.railFailed rail
      let s := if (fedBy rail).contains .core then s
        else (List.range 72).foldl (fun s p =>
          if s.variant.hasPort p ∧ s.domOn (laneDom p) ∧ (fedBy rail).contains (laneDom p) then s.linkDown p true else s) s
      let s := if (fedBy rail).contains .cellar ∧ s.domOn .cellar then s.stacksLost (fun _ => true) else s
      (s.loseDoms ((fedBy rail).filter (fun d => s.domState d != 0)) [.N, .F, .W]).ctxReport :=
  if_neg main

/-- A rail of the Reeve takes every main domain. -/
theorem State.supplyReset_main {rail : Nat} (feeds : rail = 1 ∨ rail = 2 ∨ rail = 5) (released : s.h .mainEn = 0) :
    s.supplyReset rail = ((s.railFailed rail).mainsOff [.N, .F, .W]).setH .startKind 0 6 := by
  have reeve : (fedBy rail).contains .reeve = true := by
    rcases feeds with rfl | rfl | rfl <;> decide
  rw [State.supplyReset_eq s (by omega), if_pos reeve, if_pos (((s.railFailed_values rail).2.1 _ _ (by decide) (by decide)).trans released)]

/-- Stacks are lost where the Cellar runs. -/
def State.cellarCut (s : State) : State := if s.domOn .cellar then s.stacksLost (fun _ => true) else s

theorem UnitsOnly.stacksLost {t : State} (gone : Nat → Bool) (a : UnitsOnly s t) : UnitsOnly s (t.stacksLost gone) := by
  have lost := a.binsLose (fun b => match b.home with
    | some h => t.variant.nStacks != 0 && gone (hIdx h % t.variant.nStacks) | none => false)
  exact iteS ((lost.wr _ _ _ rfl).raise _ _ _ _) lost

theorem State.cellarCut_only (s : State) : UnitsOnly s s.cellarCut := iteS (UnitsOnly.refl.stacksLost _) UnitsOnly.refl

/-- A rail of the Cellar takes the Cellar alone. -/
theorem State.supplyReset_cellar {rail : Nat} (feeds : rail = 6 ∨ rail = 7) : s.supplyReset rail =
    ((s.railFailed rail).cellarCut.loseDoms ([Dom.cellar].filter (fun d => (s.railFailed rail).cellarCut.domState d != 0))
      [.N, .F, .W]).ctxReport := by
  have fed : fedBy rail = [.cellar] := by
    rcases feeds with rfl | rfl <;> decide
  rw [State.supplyReset_eq s (by omega), fed]
  generalize s.railFailed rail = u
  have lanes : (List.range 72).foldl (fun s p =>
      if s.variant.hasPort p ∧ s.domOn (laneDom p) ∧ [Dom.cellar].contains (laneDom p) then s.linkDown p true else s) u = u := by
    refine foldS (P := fun t => t = u) rfl (fun t p same => ?_)
    subst same
    refine if_neg (fun c => ?_)
    have lane : laneDom p ≠ .cellar := by
      unfold laneDom
      split
      · decide
      · split <;> decide
    exact lane (by simpa using c.2.2)
  have cut : (if [Dom.cellar].contains Dom.cellar = true ∧ u.domOn .cellar = true then u.stacksLost (fun _ => true) else u) = u.cellarCut :=
    if_congr (by simp) rfl rfl
  rw [if_neg (show ¬ [Dom.cellar].contains Dom.reeve = true by decide)]
  dsimp only
  rw [if_neg (show ¬ [Dom.cellar].contains Dom.core = true by decide), lanes, cut]

theorem State.ctxReport_only (s : State) : (∀ f i, f.isMgmt = true → s.ctxReport.rd f i = s.rd f i) := by
  intro f i mgmt
  refine iteS (P := fun u => u.rd f i = s.rd f i) ?_ rfl
  exact ((UnitsOnly.refl.raise _ _ _ _).rd f i mgmt).trans (State.rd_setH ..)


theorem State.domState_ctxReport (s : State) (d : Dom) : s.ctxReport.domState d = s.domState d :=
  congrArg (bits (2 * d.idx) 2) (s.ctxReport_only _ _ rfl)

/-! ## Requests to switch domains -/

/-- Whether a request is allowed does not rest on RAILS_OFF. -/
theorem State.switchOk_railsOff (s : State) (v : Nat) (r : Req) (d : Dom) (old new : Nat) :
    (s.wr (.hrt .PWR_REQ_RAILS_OFF) 0 v).switchOk r d old new = s.switchOk r d old new := by
  have quiet : (s.wr (.hrt .PWR_REQ_RAILS_OFF) 0 v).quiet d = s.quiet d := by
    cases d <;> simp [State.quiet, State.lanesOff, State.laneOff, State.gthBusy, gState, State.tstate, State.on, State.rd_wr]
  have state : ∀ e, (s.wr (.hrt .PWR_REQ_RAILS_OFF) 0 v).domState e = s.domState e := fun e => State.domState_wr (by decide)
  have prereq : (s.wr (.hrt .PWR_REQ_RAILS_OFF) 0 v).prereqOn d = s.prereqOn d := by
    unfold State.prereqOn State.domOn
    simp only [state]
  unfold State.switchOk
  simp only [quiet, state, prereq, State.h_wr]

/-- REEVE is never switched by request. -/
theorem State.switchOk_reeve {r : Req} {old new : Nat} (differ : reqBit .reeve old ≠ reqBit .reeve new) :
    s.switchOk r .reeve old new = false := (if_neg differ).trans (if_pos rfl)

/-- A request that changes no bit switches nothing. -/
theorem State.switch_same (s : State) (ds : List Dom) (v : Nat) : ds.foldl (fun s d => s.switch d v v) s = s := by
  refine foldS (P := fun t => t = s) rfl (fun t d same => ?_)
  subst same
  exact if_pos rfl

/-! ## Clocks -/

/-- The crystal is stable again: its hold ends, and MAIN_EN is released. -/
def State.xtalBack (s : State) : State :=
  (((s.pass (msTicks 2)).wr (.hrt .CLK_XTAL_OK) 0 1).setH .mainHold 0 (clrBit 1 (s.h .mainHold))).mainEnFree 1

theorem State.xtalBack_values (s : State) (released : s.h .mainEn = 0) : s.xtalBack.h .mainEn = 0 ∧
    s.xtalBack.h .mainHold = clrBit 1 (s.h .mainHold) ∧ s.xtalBack.mainsGood = s.mainsGood ∧
    s.xtalBack.on (.hrt .CLK_XTAL_OK) 0 = true := by
  unfold State.xtalBack
  have passed : (∀ x, (s.pass (msTicks 2)).h x = s.h x) ∧ ∀ f i, (s.pass (msTicks 2)).rd f i = s.rd f i :=
    ⟨fun _ => rfl, fun _ _ => rfl⟩
  generalize s.pass (msTicks 2) = u at passed
  obtain ⟨h, rd⟩ := passed
  refine ⟨?_, ?_, ?_, ?_⟩
  · rw [State.h_mainEnFree, State.h_setH_other _ _ _ _ (by decide), State.h_wr, h, released]
    simp
  · rw [State.h_mainEnFree, if_neg (by simp), State.h_setH, if_pos ⟨rfl, rfl⟩]
  · rw [State.mainsGood, State.mainsGood, State.rd_mainEnFree, State.rd_setH, State.rd_wr, if_neg (by simp), rd]
  · rw [State.on, State.rd_mainEnFree, State.rd_setH, State.rd_wr, if_pos ⟨rfl, rfl⟩]
    rfl

theorem State.histDiscard_eq (s : State) : s.histDiscard = (({ s with hist := [] }.histRestart).wr (.sel .HOLD_HIST_S) 0 0).wr
    (.sel .HOLD_STAT_HIST_VALID) 0 0 := rfl

theorem State.histDiscard_values (s : State) : (∀ f i, f.isMgmt = true → s.histDiscard.rd f i = s.rd f i) ∧ s.histDiscard.hist = [] ∧
    s.histDiscard.rd (.sel .HOLD_STAT_HIST_VALID) 0 = 0 := by
  rw [State.histDiscard_eq]
  refine ⟨fun f i mgmt => ?_, rfl, (State.rd_wr ..).trans (if_pos ⟨rfl, rfl⟩)⟩
  rw [State.rd_wr, if_neg (fun same => by rw [same.1] at mgmt; exact Bool.noConfusion mgmt), State.rd_wr,
    if_neg (fun same => by rw [same.1] at mgmt; exact Bool.noConfusion mgmt)]
  rfl

/-- The Hearth clock runs from the crystal. -/
def State.ocxoOut (s : State) : State := ((s.wr (.hrt .CLK_HSRC) 0 1).wr (.hrt .CLK_OCXO_PRESENT) 0 0).setH .ocxoLost 0 1

theorem State.ocxoOut_values (s : State) :
    (s.ocxoOut.histDiscard.raise .GLB_CLOCK_FAULT locHearth).rd (.hrt .CLK_HSRC) 0 = 1 ∧
    (s.ocxoOut.histDiscard.raise .GLB_CLOCK_FAULT locHearth).on (.hrt .CLK_OCXO_PRESENT) 0 = false ∧
    (s.ocxoOut.histDiscard.raise .GLB_CLOCK_FAULT locHearth).hist = [] ∧
    (s.ocxoOut.histDiscard.raise .GLB_CLOCK_FAULT locHearth).on (.sel .HOLD_STAT_HIST_VALID) 0 = false := by
  have src : s.ocxoOut.rd (.hrt .CLK_HSRC) 0 = 1 := by
    rw [State.ocxoOut, State.rd_setH, State.rd_wr, if_neg (by simp), State.rd_wr, if_pos ⟨rfl, rfl⟩]
    rfl
  have gone : s.ocxoOut.rd (.hrt .CLK_OCXO_PRESENT) 0 = 0 := by
    rw [State.ocxoOut, State.rd_setH, State.rd_wr, if_pos ⟨rfl, rfl⟩]
    rfl
  obtain ⟨rd, hist, valid⟩ := s.ocxoOut.histDiscard_values
  generalize s.ocxoOut.histDiscard = v at rd hist valid ⊢
  have event := v.raise_crier .GLB_CLOCK_FAULT locHearth 0 0
  have raised := (UnitsOnly.refl (s := v)).raise .GLB_CLOCK_FAULT locHearth 0 0
  refine ⟨?_, ?_, ?_, ?_⟩
  · rw [raised.rd _ _ rfl, rd _ _ rfl, src]
  · rw [State.on, raised.rd _ _ rfl, rd _ _ rfl, gone]
    rfl
  · have same := congrArg State.hist event.others
    exact Eq.trans same hist
  · rw [State.on, State.rd_raise_sel, valid]
    rfl

/-- Settles O42: a supply reset is a loss of the domains that the rail feeds, and switching a domain asks for its prerequisite
and its quiet. -/
theorem supplyCommandsComplete : Obligations.SupplyCommandsComplete := by
  unfold Obligations.SupplyCommandsComplete
  refine ⟨?good, ?waits, ?caution, ?dip, ?ends, ?clear, ?main, ?cellar, ?hearth, ?vid, ?src, ?refused, ?same, ?allowed, ?crystal,
    ?crystalBack, ?late, ?loss, ?lost, ?ocxo, ?ocxoGone, ?retry, ?clocks, ?enable⟩
  case good =>
    intro k s on_
    obtain ⟨kept, rails⟩ := (s.setBitF (.hrt .SUPPLY_GOOD) 0 k).domReturn_values
    refine ⟨_, next_inDom on_ rfl, ?_, fun d was => kept d ((State.domState_wr (by decide)).trans was)⟩
    have inside : k.val < (Fld.hrt .SUPPLY_GOOD).desc.width := k.isLt
    rw [rails, State.bit_setBitF _ _ _ _ _ inside]
    simp
  case waits =>
    intro k s on_ start
    exact next_inDom on_ (State.domReturn_waits start)
  case caution =>
    intro k mv s on_ clear
    obtain ⟨set, rail, vmin, count, dom⟩ := s.cautionNoted_values k.isLt mv.isLt
    have entry := State.cautionEntry_eq (rail := k) (mv := mv.toNat) clear
    generalize s.cautionNoted k mv.toNat = u at set rail vmin count dom entry
    have gate : (u.wr (.bell .STATUS_GATE_CAUTION) 0 1).on (.bell .STATUS_GATE_CAUTION) 0 = true := by
      rw [State.on, State.rd_wr, if_pos ⟨rfl, rfl⟩]
      rfl
    refine ⟨_, next_inDom on_ entry, ?_⟩
    by_cases bell : u.domOn .bell = true
    · rw [if_pos bell]
      refine ⟨?_, ?_, ?_, ?_, fun _ => gate, fun d => (State.domState_wr (by decide)).trans (dom d)⟩
      · rw [State.on, State.rd_wr, if_neg (by simp)]
        exact set
      · rw [State.rd_wr, if_neg (by simp), rail]
      · rw [State.rd_wr, if_neg (by simp), vmin]
      · rw [State.rd_wr, if_neg (by simp), count]
    · rw [if_neg bell]
      refine ⟨set, rail, vmin, count, fun was => absurd ?_ bell, dom⟩
      rw [State.domOn, dom]
      exact was
  case dip =>
    intro k mv s on_ set
    exact next_inDom on_ (if_pos set)
  case ends =>
    rintro s _ on_ set reeve rfl
    refine next_inDom on_ ?_
    have still : s.cautionOver.domOn .reeve = true :=
      (congrArg (fun v => bits (2 * Dom.reeve.idx) 2 v == 3) (s.cautionOver_values.1 _ _ rfl (by decide))).trans reeve
    rw [State.cautionExit_eq, if_neg (not_not_intro set), if_pos still]
    rfl
  case clear =>
    intro s on_ clear
    exact next_inDom on_ (if_pos (Bool.eq_false_iff.mp clear))
  case main =>
    intro k s on_ feeds released
    obtain ⟨_, _, over_, rail, _⟩ := s.railFailed_values k
    have dom := s.domState_railFailed k
    refine ⟨_, next_inDom on_ (State.supplyReset_main feeds released), fun d main => ?_, ?_, ?_, ?_, ?_, ?_⟩
    · rw [State.domState_setH, State.mainsOff_off main]
    · rw [State.h_setH, if_pos ⟨rfl, rfl⟩]
    · rw [State.rd_setH, State.rd_mainsOff (by decide) (.inl (by decide)), rail]
    · rw [State.domState_setH, State.domState_mainsOff, if_neg (by decide), dom]
    · rw [State.domState_setH, State.domState_mainsOff, if_neg (by decide), dom]
    · rw [State.on, State.rd_setH, State.rd_mainsOff (by decide) (.inl (by decide))]
      exact over_
  case cellar =>
    intro k s on_ feeds
    have dom : ∀ d, (s.railFailed k).cellarCut.domState d = s.domState d := fun d =>
      ((s.railFailed k).cellarCut_only.domState d).trans (s.domState_railFailed k d)
    refine ⟨_, next_inDom on_ (State.supplyReset_cellar feeds), ?_⟩
    generalize (s.railFailed k).cellarCut = u at dom
    have report := fun d => State.domState_ctxReport (u.loseDoms ([Dom.cellar].filter (fun d => u.domState d != 0)) [.N, .F, .W]) d
    have lost : (∀ e, (u.loseDoms ([Dom.cellar].filter (fun d => u.domState d != 0)) [.N, .F, .W]).domState e =
        if e ∈ [Dom.cellar].filter (fun d => u.domState d != 0) then 0 else u.domState e) := fun e =>
      State.domState_loseDoms (by simp) e
    refine ⟨?_, ?_, ?_, fun some_ => ?_⟩
    · rw [report, lost]
      by_cases off : u.domState .cellar = 0
      · simp [off]
      · simp [off]
    · rw [report, lost, if_neg (by simp), dom]
    · rw [report, lost, if_neg (by simp), dom]
    · rw [State.ctxReport_only _ _ _ rfl, State.contextLost_loseDoms]
      have list : [Dom.cellar].filter (fun d => u.domState d != 0) = [.cellar] := by simp [dom, some_]
      rw [list, bit_testBit, Nat.testBit_mod_two_pow, ← bit_testBit, bit_or]
      simp +decide
  case hearth =>
    intro s on_
    obtain ⟨off, _, kept, reset⟩ := s.hearthLost_values
    refine ⟨s.hearthLost, next_inDom on_ rfl, off, ?_, kept _ _ (by decide) rfl, kept _ _ (by decide) rfl⟩
    rw [State.on, reset _ _ (by decide) rfl]
    rfl
  case vid =>
    rintro _ _ s on_ rfl rfl
    exact next_inDom on_ rfl
  case src =>
    rintro x pd c s _ on_ rfl
    exact ⟨fun same => next_inDom on_ (if_pos same), fun other => next_inDom on_ (if_neg other)⟩
  case refused =>
    intro r v o s reach bad
    refine next_writeTo reach (if_neg (Bool.eq_false_iff.mp ?_))
    rw [State.rd_wr, if_neg (by simp)]
    simp only [State.switchOk_railsOff]
    exact bad
  case same =>
    intro r v o s reach same
    have all : (Dom.all.drop 1).all (fun d => (s.wr (.hrt .PWR_REQ_RAILS_OFF) 0 o.toNat).switchOk r d
        ((s.wr (.hrt .PWR_REQ_RAILS_OFF) 0 o.toNat).rd (.hrt .PWR_REQ) 0) v.toNat) = true := by
      rw [State.rd_wr, if_neg (by simp), ← same]
      exact List.all_eq_true.mpr (fun d _ => if_pos rfl)
    refine next_writeTo reach ((if_pos all).trans ?_)
    rw [State.rd_wr, if_neg (by simp), ← same]
    exact State.switch_same _ _ _
  case allowed =>
    intro r d old new s
    refine ⟨fun differ => State.switchOk_reeve differ, fun was now_ reeve bell core => ?_, fun was now_ busy => ?_,
      fun differ closed => ?_, fun differ off => ?_⟩
    · unfold State.switchOk
      rw [if_neg (by simp [was, now_]), if_neg reeve, if_neg (by simp [bell, core]), if_pos now_]
    · unfold State.switchOk
      rw [if_neg (by simp [was, now_])]
      split
      · rfl
      · split
        · simp [now_]
        · simp [now_, busy]
    · unfold State.switchOk
      rw [if_neg differ, if_neg (by decide), if_pos (.inl rfl)]
      rcases closed with other | window
      · simp [other]
      · simp [window]
    · unfold State.switchOk
      rw [if_neg differ, if_neg (by decide), if_pos (.inr rfl)]
      simp [State.prereqOn, Dom.prereq, off]
  case crystal =>
    intro s on_ free
    exact next_inDom on_ (if_neg (Bool.eq_false_iff.mp free))
  case crystalBack =>
    intro s on_ lost hold good released
    obtain ⟨en, held, rails, ok⟩ := s.xtalBack_values released
    rw [hold] at held
    have start : s.xtalBack.startWhen 6 = s.xtalBack.startMains 6 :=
      State.startWhen_now (rails.trans good) (by rw [State.mainsFree, held, en]; rfl)
    refine ⟨s.xtalBack.startMains 6, next_inDom on_ ((if_pos lost).trans start), ?_, State.resetLast_startMains ..,
      State.bootPend_startMains .., State.domState_startMains ..⟩
    rw [State.on, State.rd_startMains (by decide) (.inl (by decide))]
    exact ok
  case late =>
    intro s on_ off
    exact next_inDom_when on_ (c := fun s => !s.on (.hrt .CLK_XTAL_OK) 0) (by simp [off]) rfl
  case loss =>
    intro s on_ ok
    refine ⟨next_inDom_idle on_ (c := fun s => !s.on (.hrt .CLK_XTAL_OK) 0) (by simp [ok]), _,
      next_inDom_when on_ (c := fun s => s.on (.hrt .CLK_XTAL_OK) 0) ok rfl, ?_⟩
    have raised := (UnitsOnly.refl (s := (s.wr (.hrt .CLK_XTAL_OK) 0 0).count (.hrt .CLK_XTAL_LOSS) 0)).raise .GLB_CLOCK_FAULT locHearth 0 0
    have off : (((s.wr (.hrt .CLK_XTAL_OK) 0 0).count (.hrt .CLK_XTAL_LOSS) 0).raise .GLB_CLOCK_FAULT locHearth).rd (.hrt .CLK_XTAL_OK) 0 = 0 := by
      rw [raised.rd _ _ rfl, State.count, State.rd_wr, if_neg (by simp), State.rd_wr, if_pos ⟨rfl, rfl⟩]
      rfl
    generalize ((s.wr (.hrt .CLK_XTAL_OK) 0 0).count (.hrt .CLK_XTAL_LOSS) 0).raise .GLB_CLOCK_FAULT locHearth = u at off
    refine ⟨?_, ?_, fun d main => ?_, ?_⟩
    · rw [State.on, State.rd_wr, if_neg (by simp), State.rd_setH, State.rd_mainsOff (by decide) (.inl (by decide)), off]
      rfl
    · rw [State.rd_wr, if_pos ⟨rfl, rfl⟩]
      rfl
    · rw [State.domState_wr (by decide), State.domState_setH, State.mainsOff_off main]
    · have held : setBit 1 (u.h .mainHold) ≠ 0 := setBit_ne_zero 1 _
      rw [State.mainsFree, State.h_wr, State.h_setH, if_pos ⟨rfl, rfl⟩]
      simp [held]
  case lost =>
    intro s on_ off
    exact next_inDom_idle on_ (c := fun s => s.on (.hrt .CLK_XTAL_OK) 0) off
  case ocxo =>
    intro s on_ runs
    exact ⟨s.ocxoOut.histDiscard.raise .GLB_CLOCK_FAULT locHearth,
      next_inDom_when on_ (c := fun s => s.rd (.hrt .CLK_HSRC) 0 == 0) (by simp [runs]) rfl, s.ocxoOut_values⟩
  case ocxoGone =>
    intro s on_ other
    exact next_inDom_idle on_ (c := fun s => s.rd (.hrt .CLK_HSRC) 0 == 0) (by simp [other])
  case retry =>
    intro r s reach
    exact ⟨next_writeTo reach (if_neg (by simp)), fun mode => next_writeTo reach (if_pos ⟨rfl, mode⟩),
      fun survey service => next_writeTo reach (if_neg (by simp [survey, service]))⟩
  case clocks =>
    intro r v s reach plain
    refine next_writeTo reach ?_
    rw [plain]
    rfl
  case enable =>
    intro f k v q s
    unfold State.clkSet
    exact ⟨if_pos (.inl (by simp)), fun same => if_pos (.inr same),
      fun off => (if_neg (by simp [off])).trans (if_pos rfl),
      fun on_ => (if_neg (by simp [on_])).trans ((if_neg (by simp)).trans (if_pos rfl)),
      fun on_ => (if_neg (by simp [on_])).trans ((if_neg (by simp)).trans (if_neg (by simp)))⟩

end Sys2Proof.Machine

/-! Sensors, thermal trips and life counters (R453, R485, R557-R561). -/

namespace Sys2Proof.Machine

variable {s : State}

/-! ## Sensors -/

theorem State.temp_tempSample (s : State) (i v : Nat) (small : v < 2 ^ 16) : (s.tempSample i v).rd (.ree .TEMP_T) i = v := by
  have width : (Fld.ree .TEMP_T).desc.width = 16 := rfl
  have read : (s.wr (.ree .TEMP_T) i v).rd (.ree .TEMP_T) i = v := by
    rw [State.rd_wr, if_pos ⟨rfl, rfl⟩, width]
    exact trunc_of_lt small
  have evaluated : ∀ (u : State) (k : Nat) (c : State → Nat → Prop) [∀ s n, Decidable (c s n)], u.rd (.ree .TEMP_T) i = v →
      ((List.range k).foldl (fun s n => if c s n then s.calEval n else s) u).rd (.ree .TEMP_T) i = v := fun u k c _ is =>
    foldS (P := fun t => t.rd (.ree .TEMP_T) i = v) is (fun t n same => iteS (P := fun t => t.rd (.ree .TEMP_T) i = v)
      (((UnitsOnly.refl.calEval n).rd _ _ rfl).trans same) same)
  have dormant : ∀ u : State, u.rd (.ree .TEMP_T) i = v → u.dacDormant.rd (.ree .TEMP_T) i = v := fun u is =>
    iteS (P := fun t => t.rd (.ree .TEMP_T) i = v) is ((State.rd_wr ..).trans ((if_neg (by simp)).trans is))
  refine iteS (P := fun t => t.rd (.ree .TEMP_T) i = v) (dormant _ ?_) ?_ <;>
    exact evaluated _ 74 (fun s n => laneSensor n = i ∧ s.up .LANE n ∧
      (s.h .calTemp n = 0 ∨ 8 ≤ (toS 16 v - toS 16 (s.h .calTemp n - 1)).natAbs))
      (iteS (P := fun t => t.rd (.ree .TEMP_T) i = v)
        (((UnitsOnly.refl.raise _ _ _ _).rd _ _ rfl).trans (iteS (P := fun t => t.rd (.ree .TEMP_T) i = v) read read))
        (iteS (P := fun t => t.rd (.ree .TEMP_T) i = v) read read))

theorem State.voltNom_wr (s : State) (i j v : Nat) : (s.wr (.ree .VOLT_V) i v).voltNom j = s.voltNom j := by
  have same : (s.wr (.ree .VOLT_V) i v).rd (.hrt .SUPPLY_VID) 0 = s.rd (.hrt .SUPPLY_VID) 0 := by rw [State.rd_wr, if_neg (by simp)]
  rw [State.voltNom, State.voltNom, same]

/-! ## Thermal trips -/

/-- The main domains, being off, stay off for 60 s. -/
def State.tripSet (u : State) (why : Nat) : State :=
  let s := u.mainEnLow why
  ((s.setH .mainEnAt 0 (s.age + 60 * ticksPerSec)).setH .startKind 0 10).wr (.hrt .RESET_LAST) 0 9

/-- The trip is logged and raised. -/
def State.tripTold (s : State) (code : Nat) : State :=
  (s.ledger 0x000E true locHearth code).raise .HRT_THERMAL_TRIP locHearth code

/-- The times of the last two trips, before one. -/
def State.tripNoted (s : State) : State := (s.setH .tripAge 1 (s.h .tripAge 0)).setH .tripAge 0 (s.age + 1)

theorem State.thermalTrip_eq {i v : Nat} (hot : 2000 ≤ toS 16 v) : s.thermalTrip i v =
    (((s.tripNoted.mainsOff [.N, .F, .W]).tripSet (if s.within (s.h .tripAge 1) 3600 then 3 else 4)).tripTold (i + 2 ^ 16 * v)).count
      (.hrt .LIFE_ST_TRIP_CNT) 0 :=
  if_neg (by omega)

theorem State.tripSet_values (u : State) (why : Nat) : (∀ d, (u.tripSet why).domState d = u.domState d) ∧
    (u.tripSet why).rd (.hrt .RESET_LAST) 0 = 9 ∧ (u.tripSet why).h .mainEn = why ∧
    (u.tripSet why).rd (.hrt .LIFE_ST_TRIP_CNT) 0 = u.rd (.hrt .LIFE_ST_TRIP_CNT) 0 ∧ (u.tripSet why).coarse = u.coarse := by
  unfold State.tripSet
  refine ⟨fun d => ?_, ?_, ?_, ?_, rfl⟩
  · rw [State.domState_wr (by decide), State.domState_setH, State.domState_setH, State.mainEnLow, State.domState_wr (by decide),
      State.domState_setH]
  · rw [State.rd_wr, if_pos ⟨rfl, rfl⟩]
    rfl
  · rw [State.h_wr, State.h_setH_other _ _ _ _ (by decide), State.h_setH_other _ _ _ _ (by decide), State.mainEnLow, State.h_wr,
      State.h_setH, if_pos ⟨rfl, rfl⟩]
  · rw [State.rd_wr, if_neg (by simp), State.rd_setH, State.rd_setH, State.mainEnLow, State.rd_wr, if_neg (by simp), State.rd_setH]

theorem State.tripTold_only (w : State) (code : Nat) : UnitsOnly w (w.tripTold code) :=
  (UnitsOnly.refl.ledger _ _ _ _ _).raise _ _ _ _

theorem State.coarse_tripTold (w : State) (code : Nat) : (w.tripTold code).coarse = w.coarse := by
  have logged := congrArg State.coarse (State.ledger_only (s := w) (c := 0x000E) (b := true) (l := locHearth) (d := code) (q := .hw)).others
  have event := congrArg State.coarse (State.raise_crier (w.ledger 0x000E true locHearth code) .HRT_THERMAL_TRIP locHearth code 0).others
  exact Eq.trans event logged

theorem State.coarse_count (s : State) (f : Fld) (i n : Nat) : (s.count f i n).coarse = s.coarse := rfl

/-- What a trip leaves once it is logged, raised and counted. -/
theorem State.tripped_values (u : State) (why code : Nat) :
    (∀ d, (((u.tripSet why).tripTold code).count (.hrt .LIFE_ST_TRIP_CNT) 0).domState d = u.domState d) ∧
    (((u.tripSet why).tripTold code).count (.hrt .LIFE_ST_TRIP_CNT) 0).rd (.hrt .RESET_LAST) 0 = 9 ∧
    (((u.tripSet why).tripTold code).count (.hrt .LIFE_ST_TRIP_CNT) 0).h .mainEn = why ∧
    (((u.tripSet why).tripTold code).count (.hrt .LIFE_ST_TRIP_CNT) 0).rd (.hrt .LIFE_ST_TRIP_CNT) 0 =
      satAdd 16 (u.rd (.hrt .LIFE_ST_TRIP_CNT) 0) 1 ∧
    (((u.tripSet why).tripTold code).count (.hrt .LIFE_ST_TRIP_CNT) 0).coarse = u.coarse := by
  have width : (Fld.hrt .LIFE_ST_TRIP_CNT).desc.width = 16 := rfl
  obtain ⟨dom, last, en, trips, coarse⟩ := u.tripSet_values why
  have told := (u.tripSet why).tripTold_only code
  refine ⟨fun d => ?_, ?_, ?_, ?_, ?_⟩
  · rw [State.count, State.domState_wr (by decide), told.domState, dom]
  · rw [State.count, State.rd_wr, if_neg (by simp), told.rd _ _ rfl, last]
  · rw [State.count, State.h_wr, told.h _ _ (by decide), en]
  · rw [State.count, State.rd_wr, if_pos ⟨rfl, rfl⟩, told.rd _ _ rfl, trips, width]
    refine trunc_of_lt ?_
    rw [satAdd]
    omega
  · rw [State.coarse_count, State.coarse_tripTold, coarse]

/-! ## Life counters -/

theorem toS_ofS_16 {t : Int} (low : -32768 ≤ t) (high : t < 32768) : toS 16 (trunc 16 (ofS 16 t)) = t := by
  unfold toS trunc ofS
  norm_num
  split <;> omega

/-- The highest reading of the minute in hand, in 1/16 °C. -/
def State.minuteMax (s : State) : Int :=
  (((if s.h .tjMax ≠ 0 then s.h .tjMax - 1
    else (List.range 22).foldl (fun m i => max m (tempRank (s.rd (.ree .TEMP_T) i))) 0) : Nat) : Int) - 32768

/-- The minute in hand counts in the band of a reading, and the highest reading of all follows. -/
def State.minuteCounted (s : State) (t : Int) : State :=
  let u := (s.setH .tjMax 0 0).setH .lifeMin (lifeBand t) ((s.setH .tjMax 0 0).h .lifeMin (lifeBand t) + 1)
  if u.rdS (.hrt .LIFE_MAX_TJ_MAX) 0 < t then u.wrS (.hrt .LIFE_MAX_TJ_MAX) 0 t else u

theorem State.lifeMinute_eq (s : State) :
    s.lifeMinute = if ¬ (s.setH .tjMax 0 0).domOn .core then s.setH .tjMax 0 0 else s.minuteCounted s.minuteMax := rfl

theorem State.minuteCounted_values {t : Int} (low : -32768 ≤ t) (high : t < 32768) :
    (s.minuteCounted t).h .lifeMin (lifeBand t) = s.h .lifeMin (lifeBand t) + 1 ∧ (s.minuteCounted t).h .tjMax = 0 ∧
    (s.minuteCounted t).rdS (.hrt .LIFE_MAX_TJ_MAX) 0 = max t (s.rdS (.hrt .LIFE_MAX_TJ_MAX) 0) := by
  have width : (Fld.hrt .LIFE_MAX_TJ_MAX).desc.width = 16 := rfl
  have before : (s.setH .tjMax 0 0).h .lifeMin (lifeBand t) = s.h .lifeMin (lifeBand t) := State.h_setH_other _ _ _ _ (by decide)
  unfold State.minuteCounted
  dsimp only
  rw [before]
  generalize made : (s.setH .tjMax 0 0).setH .lifeMin (lifeBand t) (s.h .lifeMin (lifeBand t) + 1) = u
  have band : u.h .lifeMin (lifeBand t) = s.h .lifeMin (lifeBand t) + 1 := by
    rw [← made, State.h_setH, if_pos ⟨rfl, rfl⟩]
  have none_ : u.h .tjMax = 0 := by
    rw [← made, State.h_setH_other _ _ _ _ (by decide), State.h_setH, if_pos ⟨rfl, rfl⟩]
  have top : u.rdS (.hrt .LIFE_MAX_TJ_MAX) 0 = s.rdS (.hrt .LIFE_MAX_TJ_MAX) 0 := by
    rw [← made]
    rfl
  rw [← top]
  by_cases more : u.rdS (.hrt .LIFE_MAX_TJ_MAX) 0 < t
  · rw [if_pos more, max_eq_left more.le]
    refine ⟨band, none_, ?_⟩
    rw [State.rdS, State.wrS, State.rd_wr, if_pos ⟨rfl, rfl⟩, width]
    exact toS_ofS_16 low high
  · rw [if_neg more, max_eq_right (not_lt.mp more)]
    exact ⟨band, none_, rfl⟩

/-- Whole hours of band b move into its counter. -/
def State.hourMove (s : State) (b : Nat) : State :=
  let h := s.h .lifeMin b / 60
  let s := (s.setH .lifeMin b (s.h .lifeMin b % 60)).count (.hrt .LIFEH_HOURS) b h
  s.count (.hrt .LIFE_EQ_EQUIV) 0 (h * lifeWeight b)

theorem State.hourMove_values (s : State) (b c : Nat) :
    (s.hourMove b).h .lifeMin c = (if c = b then s.h .lifeMin c % 60 else s.h .lifeMin c) ∧
    (s.hourMove b).rd (.hrt .LIFEH_HOURS) c = (if c = b then min (s.rd (.hrt .LIFEH_HOURS) c + s.h .lifeMin c / 60) (2 ^ 32 - 1)
      else s.rd (.hrt .LIFEH_HOURS) c) := by
  have width : (Fld.hrt .LIFEH_HOURS).desc.width = 32 := rfl
  constructor
  · rw [State.hourMove, State.count, State.h_wr, State.count, State.h_wr, State.h_setH]
    by_cases same : c = b
    · subst same
      rw [if_pos ⟨rfl, rfl⟩, if_pos rfl]
    · rw [if_neg (fun e => same e.2), if_neg same]
  · rw [State.hourMove, State.count, State.rd_wr, if_neg (by simp), State.count, State.rd_wr, State.rd_setH]
    by_cases same : c = b
    · subst same
      rw [if_pos ⟨rfl, rfl⟩, if_pos rfl, width, satAdd]
      exact trunc_of_lt (by omega)
    · rw [if_neg (fun e => same e.2), if_neg same, State.rd_setH]

/-- The hours of the first bands. -/
theorem State.hourMoves_values (s : State) (n c : Nat) :
    ((List.range n).foldl State.hourMove s).h .lifeMin c = (if c < n then s.h .lifeMin c % 60 else s.h .lifeMin c) ∧
    ((List.range n).foldl State.hourMove s).rd (.hrt .LIFEH_HOURS) c =
      (if c < n then min (s.rd (.hrt .LIFEH_HOURS) c + s.h .lifeMin c / 60) (2 ^ 32 - 1) else s.rd (.hrt .LIFEH_HOURS) c) := by
  induction n with
  | zero => exact ⟨rfl, rfl⟩
  | succ n ih =>
    rw [List.range_succ, List.foldl_append, List.foldl_cons, List.foldl_nil]
    obtain ⟨mins, hours⟩ := ((List.range n).foldl State.hourMove s).hourMove_values n c
    rw [mins, hours, ih.1, ih.2]
    rcases Nat.lt_trichotomy c n with less | same | more
    · simp [less, less.ne, Nat.lt_succ_of_lt less]
    · subst same
      simp
    · simp [more.ne', Nat.not_lt_of_gt more, show ¬ c < n + 1 by omega]

/-- The end of the budget is noted, logged and raised. -/
def State.budgetOut (s : State) : State :=
  ((s.wr (.hrt .LIFE_ST_BUDGET_OUT) 0 1).ledger 0x000F true locHearth 0).raise .REE_SENSOR_LIMIT locHearth

theorem State.budgetOut_values (s : State) :
    (∀ f i, f.isMgmt = true → f ≠ .hrt .LIFE_ST_BUDGET_OUT → s.budgetOut.rd f i = s.rd f i) ∧
    ∀ x i, x ∉ unitHids → s.budgetOut.h x i = s.h x i := by
  have told : UnitsOnly (s.wr (.hrt .LIFE_ST_BUDGET_OUT) 0 1) s.budgetOut := (UnitsOnly.refl.ledger _ _ _ _ _).raise _ _ _ _
  exact ⟨fun f i mgmt other => (told.rd f i mgmt).trans ((State.rd_wr ..).trans (if_neg fun same => other same.1)), told.h⟩

theorem State.lifeHour_eq (s : State) : s.lifeHour =
    if 701280 ≤ ((List.range 6).foldl State.hourMove s).rd (.hrt .LIFE_EQ_EQUIV) 0 ∧
        ¬ ((List.range 6).foldl State.hourMove s).on (.hrt .LIFE_ST_BUDGET_OUT) 0 then
      ((List.range 6).foldl State.hourMove s).budgetOut
    else (List.range 6).foldl State.hourMove s := rfl

/-- Settles O44: a reading is written before it is judged; a trip is a loss of the main domains that is logged, raised and
counted; a band's hours move on alone. -/
theorem sensorsAndLifeComplete : Obligations.SensorsAndLifeComplete := by
  unfold Obligations.SensorsAndLifeComplete
  refine ⟨?temp, ?volt, ?proc, ?age, ?trip, ?cool, ?release, ?minute, ?asleep, ?hour, ?band⟩
  case temp =>
    intro i v s on_
    exact ⟨s.tempSample i v.toNat, next_inDom on_ rfl, s.temp_tempSample i v.toNat v.isLt⟩
  case volt =>
    rintro i v s _ on_ rfl
    have sampled : ∀ r, (match (s.wr (.ree .VOLT_V) i v.toNat).voltNom i with
        | some n => if 100 * v.toNat < 95 * n ∨ 105 * n < 100 * v.toNat then (s.wr (.ree .VOLT_V) i v.toNat).sensorLimit i
          else s.wr (.ree .VOLT_V) i v.toNat
        | none => s.wr (.ree .VOLT_V) i v.toNat) = r → exec (.sensorSample (.volt i v) none) s = .next r := fun r eq =>
      next_inDom on_ eq
    rw [State.voltNom_wr] at sampled
    refine ⟨fun n nom low high => sampled _ ?_, fun n nom out => sampled _ ?_, fun nom => sampled _ ?_⟩
    · rw [nom]
      exact if_neg (by omega)
    · rw [nom]
      exact if_pos out
    · rw [nom]
  case proc =>
    intro i v s on_
    exact next_inDom on_ rfl
  case age =>
    rintro i v s _ on_ rfl
    have cap : (s.wr (.ree .AGE_LOSS) i v.toNat).on (.hrt .LIFE_ST_VID_CAP) 0 = s.on (.hrt .LIFE_ST_VID_CAP) 0 := by
      rw [State.on, State.rd_wr, if_neg (by simp), State.on]
    refine ⟨fun kept => next_inDom on_ (if_neg ?_), fun called free => next_inDom on_ (if_pos ⟨called, ?_⟩)⟩
    · rw [cap]
      rintro ⟨called, free⟩
      rcases kept with low | capped
      · omega
      · exact free capped
    · rw [cap]
      exact Bool.eq_false_iff.mp free
  case trip =>
    intro i v s on_ hot
    obtain ⟨dom, last, en, trips, coarse⟩ := (s.tripNoted.mainsOff [.N, .F, .W]).tripped_values
      (if s.within (s.h .tripAge 1) 3600 then 3 else 4) (i + 2 ^ 16 * v.toNat)
    refine ⟨_, next_inDom on_ (State.thermalTrip_eq hot), fun d main => (dom d).trans (State.mainsOff_off main _ _), last, en, ?_, ?_, ?_⟩
    · rw [trips, State.rd_mainsOff (by decide) (.inl (by decide))]
      rfl
    · rw [dom, State.domState_mainsOff, if_neg (by decide)]
      rfl
    · rw [coarse, State.coarse_mainsOff]
      rfl
  case cool =>
    intro i v s on_ cool
    exact next_inDom on_ (if_pos cool)
  case release =>
    intro s on_
    exact ⟨fun low => next_inDom_when on_ (c := fun s => s.h .mainEn == 4) (by simp [low]) rfl,
      fun other => next_inDom_idle on_ (c := fun s => s.h .mainEn == 4) (by simp [other])⟩
  case minute =>
    rintro t s on_ core some_ is low high
    have max_ : s.minuteMax = t := by
      rw [State.minuteMax, if_pos (by omega), is]
      omega
    refine ⟨_, next_inDom on_ ((s.lifeMinute_eq).trans (if_neg (not_not_intro core))), ?_⟩
    rw [max_]
    exact State.minuteCounted_values low high
  case asleep =>
    intro s on_ off
    exact next_inDom on_ ((s.lifeMinute_eq).trans (if_pos (Bool.eq_false_iff.mp off)))
  case hour =>
    intro s on_ _
    refine ⟨_, next_inDom on_ s.lifeHour_eq, fun b inside => ?_⟩
    obtain ⟨mins, hours⟩ := s.hourMoves_values 6 b
    rw [if_pos inside] at mins hours
    refine iteS (P := fun t => t.h .lifeMin b = s.h .lifeMin b % 60 ∧
      t.rd (.hrt .LIFEH_HOURS) b = min (s.rd (.hrt .LIFEH_HOURS) b + s.h .lifeMin b / 60) (2 ^ 32 - 1)) ?_ ⟨mins, hours⟩
    obtain ⟨rd, h⟩ := ((List.range 6).foldl State.hourMove s).budgetOut_values
    exact ⟨(h _ _ (by decide)).trans mins, (rd _ _ rfl (by decide)).trans hours⟩
  case band =>
    intro t
    unfold lifeBand
    refine ⟨fun h => ?_, fun h k => ?_, fun h k => ?_, fun h k => ?_, fun h k => ?_, fun h => ?_⟩ <;> split_ifs <;> omega

end Sys2Proof.Machine

/-! Delivery of events (R516, R519), and the access paths beside PCIe: the I2C target and the JTAG TAP (R536-R541, R472). -/

namespace Sys2Proof.Machine

variable {s : State}

/-! ## Delivery -/

/-- A message goes out, or is held with its pending bit. -/
def State.vecOut (s : State) (v : Nat) : State :=
  if s.h .msixOpen v = 0 then s.setH .msixPend v 1 else s.setH .vecMsgs v (s.h .vecMsgs v + 1)

theorem State.vecSend_eq (s : State) (v : Nat) :
    s.vecSend v = if (s.vecOut v).rd (.cri .VEC_HOLD) v = 0 then s.vecOut v else (s.vecOut v).setH .vecHold v 1 := rfl

theorem State.rd_vecOut (s : State) (v : Nat) (f : Fld) (i : Nat) : (s.vecOut v).rd f i = s.rd f i :=
  iteS (P := fun u => u.rd f i = s.rd f i) rfl rfl

/-- Settles O45: each command is read off the definition of its effect; a hold starts after the message. -/
theorem deliveryCommandsComplete : Obligations.DeliveryCommandsComplete := by
  unfold Obligations.DeliveryCommandsComplete
  refine ⟨?ends, ?idle, ?rearm, ?message, ?hold, ?unmask, ?oldest, ?empty, ?others⟩
  case ends =>
    rintro v s _ up hold rfl
    have runs : ¬ s.h .vecHold v = 0 := by omega
    refine ⟨fun again pending => next_inUnit up ((if_neg runs).trans (if_pos ?_)), fun quiet => next_inUnit up ((if_neg runs).trans (if_neg ?_))⟩
    · simp [again, pending]
    · rcases quiet with none_ | gone
      · simp [none_]
      · simp [gone]
  case idle =>
    intro v s up none_
    exact next_inUnit up (if_pos none_)
  case rearm =>
    intro r v s reach
    exact ⟨fun pending => next_writeTo reach (if_pos pending), fun gone => next_writeTo reach (if_neg (Bool.eq_false_iff.mp gone))⟩
  case message =>
    intro v s free
    have sent : s.vecSend v = s.vecOut v := by
      rw [State.vecSend_eq, if_pos ((s.rd_vecOut v _ _).trans free)]
    rw [sent]
    exact ⟨fun masked => if_pos masked, fun open_ => if_neg open_⟩
  case hold =>
    intro v s hold
    rw [State.vecSend_eq, if_neg (fun none_ => hold ((s.rd_vecOut v _ _).symm.trans none_)), State.h_setH, if_pos ⟨rfl, rfl⟩]
  case unmask =>
    intro v s up
    have pend : (s.setH .msixOpen v 1).h .msixPend v = s.h .msixPend v := State.h_setH_other _ _ _ _ (by decide)
    refine ⟨fun waits => next_inUnit up ((if_pos (pend.trans waits)).trans ?_),
      fun none_ => next_inUnit up (if_neg (fun waits => none_ (pend.symm.trans waits)))⟩
    rw [State.h_setH_other _ _ _ _ (by decide)]
  case oldest =>
    intro x l s reach first
    refine ⟨(State.setLatch { s with rfifo := l } .reeve (x.toNat / 2 ^ 32) .reeve).ok (x.toNat % 2 ^ 32), ?_, rfl, rfl,
      State.latchOf_setLatch ..⟩
    have taken : s.rfifoRead .reeve = (State.setLatch { s with rfifo := l } .reeve (x.toNat / 2 ^ 32) .reeve).ok (x.toNat % 2 ^ 32) := by
      rw [State.rfifoRead, if_neg (by simp), first]
    refine congrArg Host.Outcome.next ?_
    rw [reach]
    exact taken
  case empty =>
    intro s reach none_
    refine ⟨(s.setLatch .reeve (emptyRec / 2 ^ 32) .reeve).ok (emptyRec % 2 ^ 32), ?_, none_, ?_, ?_⟩
    · have taken : s.rfifoRead .reeve = (s.setLatch .reeve (emptyRec / 2 ^ 32) .reeve).ok (emptyRec % 2 ^ 32) := by
        rw [State.rfifoRead, if_neg (by simp), none_]
      refine congrArg Host.Outcome.next ?_
      rw [reach]
      exact taken
    · have low : emptyRec % 2 ^ 32 = 0 := by decide
      rw [low]
      rfl
    · have high : emptyRec / 2 ^ 32 = 0x7FF * 2 ^ 64 := by decide
      rw [high]
      exact Eq.trans (b := (s.setLatch .reeve (0x7FF * 2 ^ 64) .reeve).latchOf .reeve) rfl (State.latchOf_setLatch ..)
  case others =>
    intro r s reach other
    refine congrArg Host.Outcome.next ?_
    rw [reach]
    exact if_pos other

/-! ## I2C -/

/-- Outside the regions that the I2C target may write, a write is refused. -/
theorem State.writeWord_i2c_refused {a w : Nat} (whole : a % 4 = 0) (closed : i2cMayWrite a = false) :
    s.writeWord .i2c a w = { s with resp := ⟨.refused, 0⟩ } := by
  have ended : s.writeWord0 .i2c a w = { s with resp := ⟨.refused, 0⟩ } := by
    unfold State.writeWord0
    rw [if_neg (by simp [whole]), if_pos ⟨rfl, by simp [closed]⟩]
  unfold State.writeWord
  rw [ended]
  exact if_neg (fun e => RespCode.noConfusion e.2)

theorem i2cMayWrite_of_other {a : Nat} {b : Blk} (blk : blkAt a = some b) (glb : b ≠ .glb) (hrt : b ≠ .hrt) (wgh : b ≠ .wgh)
    (out : a < 0x7000200 ∨ 0x7000300 ≤ a) : i2cMayWrite a = false := by
  have outside : decide (0x7000200 ≤ a ∧ a < 0x7000300) = false := decide_eq_false (by omega)
  rw [i2cMayWrite, blk]
  cases b <;> first | exact absurd rfl glb | exact absurd rfl hrt | exact absurd rfl wgh | exact outside

theorem blkAt_glb {a : Nat} (low : a < 0x100000) : blkAt a = some .glb := by
  have first : decide (0x00000000 ≤ a) = true ∧ decide (a ≤ 0x000FFFFF) = true := by
    constructor <;> exact decide_eq_true (by omega)
  unfold blkAt regions
  rw [List.find?_cons_of_pos (by simpa using Nat.le_of_lt_succ low)]
  rfl

/-- The unit of an address of the global block lies in that block. -/
theorem unitOf_glb (a : Nat) (low : a < 0x100000) : (unitOf .glb a).1.info.blk = .glb := by
  unfold unitOf
  cases fields : fieldsAt a with
  | nil => rfl
  | cons e es =>
    obtain ⟨f, i, k⟩ := e
    have in_ : (f, i, k) ∈ fieldsAt a := by rw [fields]; exact List.mem_cons_self
    rw [fieldsAt, blkAt_glb low] at in_
    obtain ⟨g, member, at_⟩ := List.mem_filterMap.mp in_
    have same : g = f := by
      unfold Fld.atWord at at_
      split at at_
      · exact absurd at_ (by simp)
      · split at at_
        · exact congrArg Prod.fst (Option.some.inj at_)
        · exact absurd at_ (by simp)
    subst same
    have all : ∀ g ∈ Blk.glb.fields, g.desc.grp.info.blk = .glb := by decide
    exact all g member

theorem Grp.of_glb {g : Grp} (glb : g.info.blk = .glb) : (∀ o, g.dom o = .reeve) ∧ ∀ v i, g.present v i = true := by
  cases g <;> first | exact ⟨fun _ => rfl, fun _ _ => rfl⟩ | exact Blk.noConfusion glb

/-- With REEVE off a word of the global block beyond the identity registers ends in a bus error. -/
theorem State.readWord_i2c_off {a : Nat} (whole : a % 4 = 0) (off : s.domOn .reeve = false) (beyond : 0x28 < a) (low : a < 0x100000) :
    s.readWord .i2c a = s.busError := by
  obtain ⟨dom, present⟩ := Grp.of_glb (unitOf_glb a low)
  have none_ : s.hearthRead a = none := by
    have outside : criHearth a = none := by
      unfold criHearth
      rw [if_neg (by omega), if_neg (by omega)]
    rw [State.hearthRead, if_neg (by omega), outside]
  have ended : s.access .i2c (unitOf .glb a).1 (unitOf .glb a).2 (!engCtlAt .glb a) = some s.busError :=
    State.access_of_dead (present _ _) (.inl (by rw [dom]; exact off))
  unfold State.readWord
  rw [if_neg (by simp [whole]), blkAt_glb low]
  simp only [off, none_, ended, ite_self]

/-- The register of the identity word. -/
def idReg : Reg := ⟨.GLB, 0, 0, 0, (Fld.glb .ID).desc.vw⟩

theorem regsAt_zero : regsAt 0 = [idReg] := by decide

theorem State.regVal_id (s : State) : s.regVal idReg = s.rd (.glb .ID) 0 := by
  have fields : idReg.fields = [.glb .ID] := by decide
  rw [State.regVal, fields, List.foldl_cons, List.foldl_nil]
  show 0 + s.rd (.glb .ID) 0 * 2 ^ 0 = _
  omega

/-- The identity is read from the Hearth. -/
theorem State.readWord_i2c_id (off : s.domOn .reeve = false) : (s.readWord .i2c 0).resp = ⟨.ok, s.rd (.glb .ID) 0 % 2 ^ 32⟩ := by
  have read : (s.regsRead .i2c 0).resp = ⟨.ok, s.rd (.glb .ID) 0 % 2 ^ 32⟩ := by
    have single := State.regRead_of_single (s := s) (r := .i2c) (g := idReg) (([idReg].length == 1)) (by decide) (by decide)
    have value : (([idReg].foldl (fun x g => let y := x.1.regRead .i2c g ([idReg].length == 1); (y.1, x.2 + y.2)) (s, 0)).2) =
        s.rd (.glb .ID) 0 % 2 ^ 32 := by
      rw [List.foldl_cons, List.foldl_nil, single, s.regVal_id]
      show 0 + _ = _
      simp [idReg]
    rw [State.regsRead, regsAt_zero]
    exact congrArg (fun v => (⟨.ok, v⟩ : Resp)) value
  have hearth : s.hearthRead 0 = some (s.regsRead .i2c 0) := if_pos (by decide)
  unfold State.readWord
  rw [if_neg (by decide), blkAt_glb (by decide)]
  simp only [off, hearth]
  simpa using read

/-- Settles O48: the I2C target is a requester with regions of its own, and a TAP instruction loads itself or BYPASS. -/
theorem boardCommandsComplete : Obligations.BoardCommandsComplete := by
  unfold Obligations.BoardCommandsComplete
  refine ⟨?reads, ?writes, ?regions, ?identity, ?off, ?busy, fun s => ⟨rfl, rfl⟩, fun v s => ⟨_, rfl⟩, ?held, ?counted, ?scan, ?closed⟩
  case reads => exact fun a s on_ => next_inDom on_ rfl
  case writes => exact fun a v s on_ => ⟨next_inDom on_ (if_neg (by decide)), next_inDom on_ (if_pos rfl)⟩
  case regions =>
    intro a v b s on_ whole blk glb hrt wgh out
    exact next_inDom on_ ((if_neg (by decide)).trans
      (State.writeWord_i2c_refused whole (i2cMayWrite_of_other blk glb hrt wgh out)))
  case identity =>
    intro s on_ off id
    refine ⟨s.readWord .i2c 0, next_inDom on_ rfl, (State.readWord_i2c_id off).trans ?_⟩
    rw [id]
    rfl
  case off =>
    intro a s on_ off whole low high
    exact next_inDom on_ (State.readWord_i2c_off whole off (by omega) (by omega))
  case busy => exact fun s on_ => ⟨next_inDom on_ (if_neg (by decide)), next_inDom on_ (if_pos rfl)⟩
  case held =>
    intro s low
    have load : ∀ ir, (.next (s.tapHold ir) : Host.Outcome State Fault Refusal) = .next (s.tapLoad ir 0) := fun ir =>
      congrArg Host.Outcome.next (if_pos low)
    exact ⟨load 3, load 4, load 5, load 6, load 7⟩
  case counted =>
    rintro s _ high on_ rfl
    have bypass : ∀ ir, (.next (s.tapHold ir) : Host.Outcome State Fault Refusal) =
        .next ((s.wr (.glb .JTAG_HELD) 0 (satAdd 16 (s.rd (.glb .JTAG_HELD) 0) 1)).tapLoad 0 0) := fun ir =>
      congrArg Host.Outcome.next ((if_neg (Bool.eq_false_iff.mp high)).trans
        (congrArg (fun t => State.tapLoad t 0 0) (State.when_of_true on_ _)))
    exact ⟨bypass 3, bypass 4, bypass 5, bypass 6, bypass 7⟩
  case scan =>
    intro s on_ ready cycle
    have ok : s.scanOk = true := by
      rw [State.scanOk, on_, ready]
      rcases cycle with blank | make | back
      · simp [blank]
      · simp [make]
      · simp [back]
    exact ⟨_, congrArg Host.Outcome.next (if_pos ok)⟩
  case closed =>
    intro s closed
    have refused : ¬ s.scanOk = true := by
      rw [State.scanOk]
      rcases closed with off | unready | ⟨blank, make, back⟩
      · simp [off]
      · simp [unready]
      · simp [blank, make, back]
    exact congrArg Host.Outcome.next (if_neg refused)

end Sys2Proof.Machine

/-! The watchdog, the resets and the recovery ladder (R451, R479, R480, R501). -/

namespace Sys2Proof.Machine

variable {s : State}

/-! ## What the passing of time leaves -/

theorem State.rd_passAge (s : State) (t : Nat) (f : Fld) (i : Nat) : (s.passAge t).rd f i = s.rd f i := rfl

theorem State.h_passAge (s : State) (t : Nat) (x : Hid) (i : Nat) : (s.passAge t).h x i = s.h x i := rfl

theorem State.domState_passAge (s : State) (t : Nat) (d : Dom) : (s.passAge t).domState d = s.domState d := rfl

theorem State.age_setH (s : State) (x : Hid) (i v : Nat) : (s.setH x i v).age = s.age := rfl

/-! ## The watchdog -/

/-- Whether the booted bank is on trial is told by four fields. -/
theorem State.onTrial_of_rd {t : State} (same : ∀ f ∈ [Fld.ree .STATUS_RSTATE, .ree .BOOT_BANK,
    .ree .BANK_STATE0, .ree .BANK_STATE1],
    t.rd f 0 = s.rd f 0) : t.onTrial = s.onTrial := by
  have first : t.rd (.ree .BANK_STATE0) 0 = s.rd (.ree .BANK_STATE0) 0 := same _ (by decide)
  have second : t.rd (.ree .BANK_STATE1) 0 = s.rd (.ree .BANK_STATE1) 0 := same _ (by decide)
  have banks (b : Nat) : t.bank b = s.bank b := by
    unfold State.bank
    split
    · exact first
    · exact second
  have booted : t.booted = s.booted := same (.ree .BOOT_BANK) (by decide)
  rw [State.onTrial, State.onTrial, booted, banks, same (.ree .STATUS_RSTATE) (by decide)]

/-- A trip: time passes to it, it is counted and told, and the watchdog runs anew. -/
def State.wdtTripped (w : State) : State := ((w.count (.ree .BOOT_WDT_TRIP) 0).raise .REE_WDT locReeve).setH .wdtAt 0 w.age

theorem State.onTrial_wdtTripped (w : State) : w.wdtTripped.onTrial = w.onTrial := by
  refine State.onTrial_of_rd fun f four => ?_
  have mgmt : f.isMgmt = true := (show ∀ g ∈ [Fld.ree .STATUS_RSTATE, .ree .BOOT_BANK, .ree .BANK_STATE0, .ree .BANK_STATE1],
    g.isMgmt = true by decide) f four
  have other : f ≠ .ree .BOOT_WDT_TRIP := (show ∀ g ∈ [Fld.ree .STATUS_RSTATE, .ree .BOOT_BANK, .ree .BANK_STATE0,
    .ree .BANK_STATE1], g ≠ .ree .BOOT_WDT_TRIP by decide) f four
  rw [State.wdtTripped, State.rd_setH, (UnitsOnly.refl.raise _ _ _ _).rd _ _ mgmt, State.count, State.rd_wr,
    if_neg (fun same => other same.1)]

theorem State.wdtTrip_runs (on_ : s.domOn .reeve = true) (runs : s.on (.ree .WDT_EN) 0 = true) (trial : s.onTrial = false) :
    execWdtTrip s = .next ((s.passAge (s.h .wdtAt + msTicks s.wdtMs)).wdtTripped.step3 locReeve) := by
  refine next_inDom_when on_ (by rw [runs, Bool.true_or]) ?_
  show (if (s.passAge (s.h .wdtAt + msTicks s.wdtMs)).wdtTripped.onTrial = true then _ else _ : State).step3 locReeve = _
  have untried : (s.passAge (s.h .wdtAt + msTicks s.wdtMs)).onTrial = false := trial
  rw [State.onTrial_wdtTripped, if_neg (by rw [untried]; exact Bool.false_ne_true)]
  rfl

/-! ## Steps 2 to 4 of the ladder -/

theorem State.step3_again (idle : s.inTransition = false) (third : s.within (s.h .warmAge 1) 3600 = true) (l : Nat) :
    s.step3 l = s.powerCycle l := by
  rw [State.step3, if_neg (by rw [idle]; exact Bool.false_ne_true), if_pos third]

theorem State.step3_inTransition (busy : s.inTransition = true) (l : Nat) : s.step3 l = s := by
  rw [State.step3, if_pos busy]

/-- Step 3 is remembered with the one before it. -/
def State.step3Noted (s : State) (l n : Nat) : State :=
  ((s.recovery 3 n l).setH .warmAge 1 ((s.recovery 3 n l).h .warmAge 0)).setH .warmAge 0 ((s.recovery 3 n l).age + 1)

theorem State.warmAge_step3Noted (s : State) (l n : Nat) :
    (s.step3Noted l n).h .warmAge 0 = s.age + 1 ∧ (s.step3Noted l n).h .warmAge 1 = s.h .warmAge 0 := by
  have noted := UnitsOnly.recovery s 3 n l
  have before := noted.h .warmAge 0 (by decide)
  have now := noted.age
  rw [State.step3Noted]
  generalize s.recovery 3 n l = u at before now
  simp [before, now]

theorem State.warmAge_relinquish (s : State) (i : Nat) : s.relinquish.h .warmAge i = s.h .warmAge i := by
  unfold State.relinquish State.intRequest
  split <;> simp [apply_ite (State.h · .warmAge i), State.count]

theorem State.warmAge_warmAtSet (s : State) (t i : Nat) : (s.warmAtSet t).h .warmAge i = s.h .warmAge i := by
  unfold State.warmAtSet
  split
  · rfl
  · exact State.h_setH_other _ _ _ _ (by decide)

/-- Step 3, short of its third reset within the hour, remembers its time (Table 14.12). -/
theorem State.warmAge_step3 (idle : s.inTransition = false) (few : s.within (s.h .warmAge 1) 3600 = false) (l : Nat) :
    (s.step3 l).h .warmAge 0 = s.age + 1 ∧ (s.step3 l).h .warmAge 1 = s.h .warmAge 0 := by
  have shape : ∃ n t : Nat, s.step3 l = ((s.step3Noted l n).relinquish).warmAtSet t := by
    unfold State.step3
    simp only [idle, few, Bool.false_eq_true, if_false]
    exact ⟨_, _, rfl⟩
  obtain ⟨n, t, same⟩ := shape
  rw [same, State.warmAge_warmAtSet, State.warmAge_relinquish, State.warmAge_warmAtSet, State.warmAge_relinquish]
  exact s.warmAge_step3Noted l n

/-- The function is reset once more; its context returns to the registers, and its lanes to their owners. -/
def State.step2Restored (s : State) (k : Nat) : State :=
  (List.range 64).foldl (fun t n => t.setH .laneOwner n (s.h .laneOwner n))
    ((s.regs.filter (fun x => decide (x.1.1.desc.surv = .F) && decide ((s.fnReset k).rd x.1.1 x.1.2 ≠ x.2))).foldl
      (fun t x => t.wr x.1.1 x.1.2 x.2) (s.fnReset k))

/-- Step 2 is remembered with the one before it. -/
def State.step2Noted (s : State) (k n : Nat) : State :=
  ((s.recovery 2 n (fnLoc k)).setH .reAge (2 * k + 1) ((s.recovery 2 n (fnLoc k)).h .reAge (2 * k))).setH .reAge (2 * k)
    ((s.recovery 2 n (fnLoc k)).age + 1)

theorem State.step2_third (third : s.within (s.h .reAge (2 * k + 1)) 600 = true) :
    s.step2 k = if 72 ≤ k ∧ k < 116 then (s.recovery 2 3 (fnLoc k)).ladderMark k
      else (s.recovery 2 3 (fnLoc k)).step3 (fnLoc k) := by
  rw [State.step2, if_pos third]

theorem State.step2_first (few : s.within (s.h .reAge (2 * k + 1)) 600 = false) :
    ∃ n, s.step2 k = (s.step2Noted k n).step2Restored k := by
  rw [State.step2, if_neg (by rw [few]; exact Bool.false_ne_true)]
  exact ⟨_, rfl⟩

theorem State.reAge_step2Noted (s : State) (k n : Nat) :
    (s.step2Noted k n).h .reAge (2 * k) = s.age + 1 ∧ (s.step2Noted k n).h .reAge (2 * k + 1) = s.h .reAge (2 * k) := by
  have noted := UnitsOnly.recovery s 2 n (fnLoc k)
  have before := noted.h .reAge (2 * k) (by decide)
  have now := noted.age
  rw [State.step2Noted]
  generalize s.recovery 2 n (fnLoc k) = u at before now
  simp [before, now]

theorem State.h_wrEach (l : List ((Fld × Nat) × Nat)) (s : State) (x : Hid) (i : Nat) :
    (l.foldl (fun t x => t.wr x.1.1 x.1.2 x.2) s).h x i = s.h x i := by
  induction l generalizing s with
  | nil => rfl
  | cons e l ih => exact (ih _).trans (State.h_wr ..)

theorem State.h_setHEach (v : Nat → Nat) (l : List Nat) (s : State) {x y : Hid} (other : x ≠ y) (i : Nat) :
    (l.foldl (fun t n => t.setH y n (v n)) s).h x i = s.h x i := by
  induction l generalizing s with
  | nil => rfl
  | cons e l ih => exact (ih _).trans (State.h_setH_other _ _ _ _ other)

theorem State.reAge_fnReset (s : State) (k i : Nat) : (s.fnReset k).h .reAge i = s.h .reAge i := by
  rw [State.fnReset_eq]
  split
  · rfl
  · rw [(UnitsOnly.refl.fnResets k).h _ _ (by decide), State.h_setH_other _ _ _ _ (by decide)]

theorem State.reAge_step2Restored (s : State) (k i : Nat) : (s.step2Restored k).h .reAge i = s.h .reAge i := by
  rw [State.step2Restored, State.h_setHEach _ _ _ (by decide), State.h_wrEach, State.reAge_fnReset]

/-- Step 2, short of its third time within 600 s, remembers its time (Table 14.12). -/
theorem State.reAge_step2 (few : s.within (s.h .reAge (2 * k + 1)) 600 = false) :
    (s.step2 k).h .reAge (2 * k) = s.age + 1 ∧ (s.step2 k).h .reAge (2 * k + 1) = s.h .reAge (2 * k) := by
  obtain ⟨n, same⟩ := State.step2_first few
  rw [same, State.reAge_step2Restored, State.reAge_step2Restored]
  exact s.reAge_step2Noted k n

/-! ## Step 4 of the ladder -/

theorem State.mainEnLow_values (u : State) (why : Nat) : (u.mainEnLow why).h .mainEn = why ∧
    (u.mainEnLow why).rd (.hrt .SUPPLY_GOOD) 0 < 2 ∧ (∀ d, (u.mainEnLow why).domState d = u.domState d) ∧
    (u.mainEnLow why).age = u.age ∧ ∀ x i, x ≠ .mainEn → (u.mainEnLow why).h x i = u.h x i := by
  refine ⟨?_, ?_, fun d => State.domState_wr (by decide), rfl, fun x i other => ?_⟩
  · rw [State.mainEnLow, State.h_wr, State.h_setH, if_pos ⟨rfl, rfl⟩]
  · rw [State.mainEnLow, State.rd_wr, if_pos ⟨rfl, rfl⟩]
    exact Nat.lt_of_le_of_lt (Nat.mod_le _ _) (Nat.mod_lt _ (by decide))
  · rw [State.mainEnLow, State.h_wr, State.h_setH_other _ _ _ _ other]

/-- The time of a power cycle is kept. -/
def State.cycleNoted (s : State) (l : Nat) : State := (s.recovery 4 1 l).setH .cycAge 0 (s.age + 1)

/-- The main domains are off, and their supplies with them. -/
def State.cycled (u : State) : State := ((u.mainsOff [.N, .F, .W]).mainEnLow 2).setH .startKind 0 9

/-- MAIN_EN is high again. -/
def State.mainEnBack (u : State) : State := (u.passAge (u.age + msTicks 500)).setH .mainEn 0 0

theorem State.powerCycle_first (few : s.within (s.h .cycAge) 3600 = false) (l : Nat) :
    s.powerCycle l = (s.cycleNoted l).cycled.mainEnBack := by
  rw [State.powerCycle, if_neg (by rw [few]; exact Bool.false_ne_true)]
  have now : (s.recovery 4 1 l).age = s.age := (UnitsOnly.recovery s 4 1 l).age
  rw [State.cycleNoted, ← now]
  rfl

theorem State.cycled_values (u : State) : u.cycled.h .cycAge = u.h .cycAge ∧ u.cycled.age = u.age ∧
    u.cycled.rd (.hrt .SUPPLY_GOOD) 0 < 2 ∧ ∀ d, d ∈ mainDoms → u.cycled.domState d = 0 := by
  obtain ⟨-, few, doms, now, others⟩ := (u.mainsOff [.N, .F, .W]).mainEnLow_values 2
  refine ⟨?_, ?_, ?_, fun d main => ?_⟩
  · rw [State.cycled, State.h_setH_other _ _ _ _ (by decide), others _ _ (by decide)]
    exact State.h_mainsOff (by decide) rfl
  · rw [State.cycled, State.age_setH, now, State.age_mainsOff]
  · rw [State.cycled, State.rd_setH]
    exact few
  · rw [State.cycled, State.domState_setH, doms]
    exact State.mainsOff_off main _ _

theorem State.mainEnBack_values (u : State) : u.mainEnBack.age = u.age + msTicks 500 ∧ u.mainEnBack.h .mainEn = 0 ∧
    u.mainEnBack.h .cycAge = u.h .cycAge ∧ (∀ d, u.mainEnBack.domState d = u.domState d) ∧
    u.mainEnBack.rd (.hrt .SUPPLY_GOOD) 0 = u.rd (.hrt .SUPPLY_GOOD) 0 := by
  refine ⟨?_, ?_, ?_, fun d => rfl, rfl⟩
  · generalize ms : msTicks 500 = n
    show u.age + (u.age + msTicks 500 - u.age) = u.age + n
    omega
  · rw [State.mainEnBack, State.h_setH, if_pos ⟨rfl, rfl⟩]
  · rw [State.mainEnBack, State.h_setH_other _ _ _ _ (by decide), State.h_passAge]

theorem State.powerCycle_values (few : s.within (s.h .cycAge) 3600 = false) (l : Nat) :
    (s.powerCycle l).age = s.age + msTicks 500 ∧ (s.powerCycle l).h .cycAge = s.age + 1 ∧ (s.powerCycle l).h .mainEn = 0 ∧
    (∀ d, d ∈ mainDoms → (s.powerCycle l).domState d = 0) ∧ (s.powerCycle l).rd (.hrt .SUPPLY_GOOD) 0 < 2 := by
  obtain ⟨time, free, kept, doms, good⟩ := (s.cycleNoted l).cycled.mainEnBack_values
  obtain ⟨keptOff, timeOff, goodOff, off⟩ := (s.cycleNoted l).cycled_values
  have now : (s.cycleNoted l).age = s.age := (UnitsOnly.recovery s 4 1 l).age
  have noted : (s.cycleNoted l).h .cycAge = s.age + 1 := by rw [State.cycleNoted, State.h_setH, if_pos ⟨rfl, rfl⟩]
  rw [State.powerCycle_first few]
  refine ⟨?_, (kept.trans keptOff).trans noted, free, fun d main => (doms d).trans (off d main), ?_⟩
  · rw [time, timeOff, now]
  · rw [good]
    exact goodOff

/-- The ladder has ended: MAIN_EN stays low, so nothing starts (R480). -/
theorem State.exhausted_values (s : State) : s.exhausted.h .mainEn = 3 ∧ (∀ d, d ∈ mainDoms → s.exhausted.domState d = 0) ∧
    s.exhausted.mainsFree = false := by
  obtain ⟨low, -, doms, -⟩ := (s.mainsOff [.N, .F, .W]).mainEnLow_values 3
  have held : s.exhausted.h .mainEn = 3 := by rw [State.exhausted, State.h_ledger (m := by decide), low]
  refine ⟨held, fun d main => ?_, ?_⟩
  · rw [State.exhausted, State.domState_ledger, doms]
    exact State.mainsOff_off main _ _
  · rw [State.mainsFree, held]
    exact Bool.and_false _

/-! ## The warm reset -/

/-- What becomes of the commit in hand shows in the registers of the commit controller and in the Ledger alone. -/
theorem State.rd_commitCut (s : State) {f : Fld} (i : Nat) (unit : ∀ x, f ≠ .glb x) (ring : f ∉ ledgerFlds) :
    s.commitCut.rd f i = s.rd f i := by
  unfold State.commitCut
  split
  · rw [State.rd_ledger (m := ring)]
    simp [unit, apply_ite (State.rd · f i)]
  · split
    · simp [unit]
    · rfl

theorem State.warmReset_values (s : State) : s.warmReset.rd (.hrt .RESET_LAST) 0 = 4 ∧ s.warmReset.h .bootPend = 1 ∧
    (∀ d, s.warmReset.domState d = if d = .reeve then 1 else if d ∈ mainDoms then 0 else s.commitCut.domState d) ∧
    s.warmReset.rd (.hrt .RESET_WARM_CNT) 0 = satAdd 16 (s.rd (.hrt .RESET_WARM_CNT) 0) 1 ∧
    s.warmReset.rd (.wgh .EVCNT) 0 = s.rd (.wgh .EVCNT) 0 ∧ s.warmReset.rd (.ree .LC_STATE) 0 = s.rd (.ree .LC_STATE) 0 := by
  have count : (s.commitCut.startMains 4).rd (.hrt .RESET_WARM_CNT) 0 = s.rd (.hrt .RESET_WARM_CNT) 0 :=
    (State.rd_startMains (by decide) (.inl (by decide))).trans (s.rd_commitCut _ (by simp) (by decide))
  rw [State.warmReset, State.count, count]
  refine ⟨?_, ?_, fun d => ?_, ?_, ?_, ?_⟩
  · rw [State.rd_wr, if_neg (by decide)]
    exact State.resetLast_startMains _ 4
  · rw [State.h_wr]
    exact State.bootPend_startMains _ _
  · rw [State.domState_wr (by decide)]
    exact State.domState_startMains _ _ d
  · rw [State.rd_wr, if_pos ⟨rfl, rfl⟩]
    exact Nat.mod_eq_of_lt (satAdd_lt _ _ _)
  · rw [State.rd_wr, if_neg (by decide), State.rd_startMains (by decide) (.inr rfl)]
    exact s.rd_commitCut _ (by simp) (by decide)
  · rw [State.rd_wr, if_neg (by decide), State.rd_startMains (by decide) (.inr rfl)]
    exact s.rd_commitCut _ (by simp) (by decide)

/-- A domain whose switch-on has not ended is not on. -/
theorem State.domOn_of_domState {d : Dom} {n : Nat} (state : s.domState d = n) (other : (n == 3) = false) :
    s.domOn d = false := by
  rw [State.domOn, state, other]

end Sys2Proof.Machine

/-! The boot sequence, domains that come on and functions that leave reset (R460-R462, R491, R506); the recovery ladder's
statement. -/

namespace Sys2Proof.Machine

variable {s : State}

/-! ## A self-test's verdict -/

/-- The verdict of a run is stored, the failed blocks of each kind given. -/
def State.lbNoted (s : State) (full : Bool) (eng pair fatal stack unit : Nat) : State :=
  let s := ((s.wr (.ree .LBIST_VALID) 0 1).wr (.ree .LBIST_FULL) 0 full.toNat).wr (.ree .LBIST_AGE_H) 0 0
  let s := s.wr (.ree .LBIST_FATAL) 0 (if fatal ≠ 0 ∨ (¬ full ∧ s.on (.ree .LBIST_FATAL) 0) then 1 else 0)
  let s := ((s.wr (.ree .LBIST_FAIL_ENG) 0 eng).wr (.ree .LBIST_FAIL_PAIR) 0 pair).wr (.ree .LBIST_FAIL_FATAL) 0 fatal
  let s := (s.wr (.ree .LBIST_FAIL_STACK) 0 stack).wr (.ree .LBIST_FAIL_UNIT) 0 unit
  ((s.wr (.ree .BOOT_CNT) 0 0).setH .verdAge 0 s.age).setH .verdSpan 0 1

/-- The fields a verdict is stored in. -/
def lbFlds : List Fld :=
  [.ree .LBIST_VALID, .ree .LBIST_FULL, .ree .LBIST_AGE_H, .ree .LBIST_FATAL, .ree .LBIST_FAIL_ENG, .ree .LBIST_FAIL_PAIR,
    .ree .LBIST_FAIL_FATAL, .ree .LBIST_FAIL_STACK, .ree .LBIST_FAIL_UNIT, .ree .BOOT_CNT]

theorem State.lbStore_noted (s : State) (full : Bool) (n : Nat) :
    ∃ eng pair fatal stack unit, UnitsOnly (s.lbNoted full eng pair fatal stack unit) (s.lbStore full n) :=
  ⟨_, _, _, _, _, iteS (UnitsOnly.refl.ledger _ _ _ _ _) ((UnitsOnly.refl.ledger _ _ _ _ _).raise _ _ _ _)⟩

theorem State.rd_lbNoted (s : State) (full : Bool) (eng pair fatal stack unit : Nat) {f : Fld} (i : Nat) (other : f ∉ lbFlds) :
    (s.lbNoted full eng pair fatal stack unit).rd f i = s.rd f i := by
  simp only [lbFlds, List.mem_cons, List.not_mem_nil, or_false, not_or] at other
  simp [State.lbNoted, other]

theorem State.lbNoted_values (s : State) (full : Bool) (eng pair fatal stack unit : Nat) :
    (s.lbNoted full eng pair fatal stack unit).rd (.ree .LBIST_VALID) 0 = 1 ∧
    (s.lbNoted full eng pair fatal stack unit).rd (.ree .LBIST_FULL) 0 = full.toNat ∧
    (s.lbNoted full eng pair fatal stack unit).rd (.ree .BOOT_CNT) 0 = 0 := by
  refine ⟨?_, ?_, by simp [State.lbNoted]⟩
  · simp only [State.lbNoted, State.rd_setH, State.rd_wr]
    rfl
  · cases full with
    | false => simp [State.lbNoted]
    | true =>
      simp [State.lbNoted]
      rfl

theorem State.lbStore_values (s : State) (full : Bool) (n : Nat) :
    (∀ f i, f.isMgmt = true → f ∉ lbFlds → (s.lbStore full n).rd f i = s.rd f i) ∧
    (∀ x i, x ∉ unitHids → x ≠ .verdAge → x ≠ .verdSpan → (s.lbStore full n).h x i = s.h x i) ∧
    (s.lbStore full n).rd (.ree .LBIST_VALID) 0 = 1 ∧ (s.lbStore full n).rd (.ree .LBIST_FULL) 0 = full.toNat ∧
    (s.lbStore full n).rd (.ree .BOOT_CNT) 0 = 0 := by
  obtain ⟨eng, pair, fatal, stack, unit, told⟩ := s.lbStore_noted full n
  obtain ⟨valid, whole, starts⟩ := s.lbNoted_values full eng pair fatal stack unit
  refine ⟨fun f i mgmt other => ?_, fun x i unit_ age span => ?_, (told.rd _ _ rfl).trans valid, (told.rd _ _ rfl).trans whole,
    (told.rd _ _ rfl).trans starts⟩
  · exact (told.rd _ _ mgmt).trans (s.rd_lbNoted _ _ _ _ _ _ _ other)
  · rw [told.h _ _ unit_, State.lbNoted, State.h_setH_other _ _ _ _ span, State.h_setH_other _ _ _ _ age]
    simp

/-! ## The boot sequence -/

/-- What a boot finds once REEVE's SRAM is clear. -/
def State.bootCleared (s : State) : State := (s.setH .bootPend 0 0).wipe .sram 0 (2 ^ 64)

/-- A start is counted, and its self-test run where no verdict holds. -/
def State.bootTested (u : State) (v : Lbist) : State :=
  let u := u.count (.ree .BOOT_CNT) 0
  if u.verdictValid then u else (u.pass (msTicks (lbMs u.variant true))).lbStore true (lbPack v)

/-- The scan chains are open before the part is delivered and after it returned. -/
def State.bootScan (u : State) : State := if u.lc = 0 ∨ u.lc = 1 ∨ u.lc = 4 then u.wr (.ree .LC_SCAN_READY) 0 1 else u

/-- What a boot does without a transition in hand, no Almanac set failing. -/
theorem State.boot_runs (armed : s.on (.ree .LC_ARMED) 0 = false) (v : Lbist) :
    s.boot v 0 = if s.lc = 5 then s.bootCleared.wr (.ree .STATUS_RSTATE) 0 3
      else (s.bootCleared.bootTested v).applyMarks.bootScan.bootFrom
        (s.bootCleared.bootTested v).applyMarks.bootScan.bootOrder := by
  have free : ¬ (s.bootCleared.on (.ree .LC_ARMED) 0 = true ∧ s.bootCleared.h .lcTo ≠ 0) := fun both => by
    rw [show s.bootCleared.on (.ree .LC_ARMED) 0 = s.on (.ree .LC_ARMED) 0 from rfl, armed] at both
    exact Bool.false_ne_true both.1
  unfold State.boot
  exact if_neg free

theorem State.boot_scrapped (armed : s.on (.ree .LC_ARMED) 0 = false) (scrap : s.lc = 5) (v : Lbist) (a : Nat) :
    s.boot v a = s.bootCleared.wr (.ree .STATUS_RSTATE) 0 3 := by
  have free : ¬ (s.bootCleared.on (.ree .LC_ARMED) 0 = true ∧ s.bootCleared.h .lcTo ≠ 0) := fun both => by
    rw [show s.bootCleared.on (.ree .LC_ARMED) 0 = s.on (.ree .LC_ARMED) 0 from rfl, armed] at both
    exact Bool.false_ne_true both.1
  unfold State.boot
  exact (if_neg free).trans (if_pos scrap)

/-- The states of the banks stand through the tests of a boot. -/
theorem State.rd_bootTested (u : State) (v : Lbist) {f : Fld} (mgmt : f.isMgmt = true) (i : Nat) (other : f ∉ lbFlds) :
    (u.bootTested v).rd f i = u.rd f i := by
  have counted : (u.count (.ree .BOOT_CNT) 0).rd f i = u.rd f i := by
    rw [State.count, State.rd_wr, if_neg]
    rintro ⟨rfl, -⟩
    exact other (by decide)
  unfold State.bootTested
  dsimp only
  split
  · exact counted
  · exact ((State.lbStore_values _ _ _).1 f i mgmt other).trans counted

theorem State.bank_booting (u : State) (v : Lbist) (b : Nat) : (u.bootTested v).applyMarks.bootScan.bank b = u.bank b := by
  have kept (f : Fld) (mgmt : f.isMgmt = true) (other : f ∉ lbFlds) (scan : f ≠ .ree .LC_SCAN_READY) :
      (u.bootTested v).applyMarks.bootScan.rd f 0 = u.rd f 0 := by
    have marked : (u.bootTested v).applyMarks.rd f 0 = u.rd f 0 :=
      ((UnitsOnly.refl.applyMarks).rd f 0 mgmt).trans (u.rd_bootTested v mgmt 0 other)
    unfold State.bootScan
    split
    · rw [State.rd_wr, if_neg (fun same => scan same.1), marked]
    · exact marked
  unfold State.bank
  split
  · exact kept _ rfl (by decide) (by decide)
  · exact kept _ rfl (by decide) (by decide)

theorem State.bootOrder_none (first : s.bank 0 = 0) (second : s.bank 1 = 0) : s.bootOrder = [] := by
  simp [State.bootOrder, first, second]

theorem State.recoveryBoot_values (u : State) : u.recoveryBoot.rd (.ree .STATUS_RSTATE) 0 = 2 ∧
    u.recoveryBoot.rd (.ree .BOOT_RECOVERY) 0 = 1 ∧ u.recoveryBoot.h .pcieOn = 1 := by
  refine ⟨?_, ?_, ?_⟩ <;> simp [State.recoveryBoot] <;> rfl

/-! ## The entry of the firmware -/

/-- The segments of an image go to SRAM. -/
def State.segsLoaded (s : State) (l : List Byte) : State :=
  (imgSegs l).foldl (fun s g => if g.kind = 3 then s else s.setBytes .sram g.dest (g.contents l)) s

theorem State.rd_segsLoaded (s : State) (l : List Byte) (f : Fld) (i : Nat) : (s.segsLoaded l).rd f i = s.rd f i := by
  rw [State.segsLoaded]
  generalize imgSegs l = gs
  induction gs generalizing s with
  | nil => rfl
  | cons g gs ih =>
    rw [List.foldl_cons, ih]
    split
    · rfl
    · exact State.rd_setBytes ..

theorem State.h_segsLoaded (s : State) (l : List Byte) (x : Hid) (i : Nat) : (s.segsLoaded l).h x i = s.h x i := by
  rw [State.segsLoaded]
  generalize imgSegs l = gs
  induction gs generalizing s with
  | nil => rfl
  | cons g gs ih =>
    rw [List.foldl_cons, ih]
    split
    · rfl
    · exact State.h_setBytes ..

theorem State.rd_reeveRun (s : State) (l : List Byte) {f : Fld} (i : Nat) (other : f ≠ .ree .STATUS_RSTATE) :
    (s.reeveRun l).rd f i = s.rd f i := by
  rw [← s.rd_segsLoaded l, State.reeveRun, State.rd_setH, State.rd_wr, if_neg (fun same => other same.1)]
  rfl

theorem State.reeveRun_values (s : State) (l : List Byte) : (s.reeveRun l).rd (.ree .STATUS_RSTATE) 0 = 1 ∧
    (s.reeveRun l).tr 128 rPC = imgENTRY l ∧ ∀ x i, x ≠ .wdtAt → (s.reeveRun l).h x i = s.h x i := by
  refine ⟨?_, ?_, fun x i other => ?_⟩
  · rw [State.reeveRun, State.rd_setH, State.rd_wr, if_pos ⟨rfl, rfl⟩]
    rfl
  · rw [State.reeveRun]
    show (State.setTr (State.setTr (State.setTr _ 128 rPC (imgENTRY l)) 128 rSTATE tRUNNING) 128 rLEVEL 1).tr 128 rPC = _
    simp [rPC, rSTATE, rLEVEL]
  · rw [← s.h_segsLoaded l, State.reeveRun, State.h_setH_other _ _ _ _ other, State.h_wr]
    rfl

/-- The firmware of bank b has begun to run. -/
def State.bootEntered (s : State) (b : Nat) (l : List Byte) : State :=
  ((((s.wr (.ree .BOOT_BANK) 0 b).wr (.ree .BOOT_RECOVERY) 0 0).setH .pcieOn 0 1).reeveRun l).modeStartUp

/-- A trial's time begins at its first entry. -/
def State.trialBegun (u : State) (b : Nat) : State :=
  if u.bank b = 2 ∧ u.h .confirmAt = 0 then
    u.setH .confirmAt 0 (1 + u.age + u.rd (.ree .BANK_CONFIRM_S) 0 * ticksPerSec) else u

theorem State.bootInto_eq (s : State) (b : Nat) (l : List Byte) :
    s.bootInto b l = (((s.bootEntered b l).trialBegun b).mboxServe 0 none).mboxServe 1 none := rfl

theorem State.rd_trialBegun (u : State) (b : Nat) (f : Fld) (i : Nat) : (u.trialBegun b).rd f i = u.rd f i := by
  unfold State.trialBegun
  split
  · exact State.rd_setH ..
  · rfl

theorem State.h_trialBegun (u : State) (b : Nat) {x : Hid} (i : Nat) (other : x ≠ .confirmAt) :
    (u.trialBegun b).h x i = u.h x i := by
  unfold State.trialBegun
  split
  · exact State.h_setH_other _ _ _ _ other
  · rfl

theorem State.mboxServe_idle (m : Nat) (v : Option Nat) (idle : s.on (.ree .MBOX_BUSY) m = false) : s.mboxServe m v = s := by
  unfold State.mboxServe
  exact if_pos (fun both => Bool.false_ne_true (idle.symm.trans both.1))

theorem State.modeStartUp_off (off : s.domOn .bell = false) :
    s.modeStartUp = s.wr (.glb .MODE) 0 (if s.on (.ree .LBIST_FATAL) 0 then modeService else modeSurvey) := by
  unfold State.modeStartUp
  exact if_neg (fun on_ => Bool.false_ne_true (((State.domOn_wr (by decide)).trans off).symm.trans on_))

theorem State.bootEntered_values (s : State) (b : Nat) (l : List Byte) (two : b < 2) (off : s.domOn .bell = false) :
    (s.bootEntered b l).rd (.ree .STATUS_RSTATE) 0 = 1 ∧ (s.bootEntered b l).booted = b ∧ (s.bootEntered b l).h .pcieOn = 1 ∧
    (s.bootEntered b l).tr 128 rPC = imgENTRY l ∧
    (s.bootEntered b l).mode = (if s.on (.ree .LBIST_FATAL) 0 then modeService else modeSurvey) ∧
    ∀ m, (s.bootEntered b l).on (.ree .MBOX_BUSY) m = s.on (.ree .MBOX_BUSY) m := by
  have base (f : Fld) (i : Nat) (bank : f ≠ .ree .BOOT_BANK) (rec_ : f ≠ .ree .BOOT_RECOVERY) :
      ((((s.wr (.ree .BOOT_BANK) 0 b).wr (.ree .BOOT_RECOVERY) 0 0).setH .pcieOn 0 1)).rd f i = s.rd f i := by
    simp [bank, rec_]
  have booted : ((((s.wr (.ree .BOOT_BANK) 0 b).wr (.ree .BOOT_RECOVERY) 0 0).setH .pcieOn 0 1)).rd
      (.ree .BOOT_BANK) 0 = b := by
    simp only [State.rd_setH, State.rd_wr]
    exact Nat.mod_eq_of_lt two
  have pcie : ((((s.wr (.ree .BOOT_BANK) 0 b).wr (.ree .BOOT_RECOVERY) 0 0).setH .pcieOn 0 1)).h .pcieOn = 1 := by simp
  rw [State.bootEntered]
  generalize (((s.wr (.ree .BOOT_BANK) 0 b).wr (.ree .BOOT_RECOVERY) 0 0).setH .pcieOn 0 1) = u at base booted pcie
  obtain ⟨runs, entry, others⟩ := u.reeveRun_values l
  have kept (f : Fld) (i : Nat) (state : f ≠ .ree .STATUS_RSTATE) (bank : f ≠ .ree .BOOT_BANK)
      (rec_ : f ≠ .ree .BOOT_RECOVERY) :
      (u.reeveRun l).rd f i = s.rd f i := (u.rd_reeveRun l i state).trans (base f i bank rec_)
  have bell : (u.reeveRun l).domOn .bell = false := by
    rw [← off, State.domOn, State.domState, kept _ _ (by decide) (by decide) (by decide)]
    rfl
  rw [State.modeStartUp_off bell]
  refine ⟨?_, ?_, ?_, (State.tr_of_treg rfl _ _).trans entry, ?_, fun m => ?_⟩
  · rw [State.rd_wr, if_neg (by decide), runs]
  · rw [State.booted, State.rd_wr, if_neg (by decide), u.rd_reeveRun l _ (by decide), booted]
  · rw [State.h_wr, others _ _ (by decide), pcie]
  · rw [State.mode, State.rd_wr, if_pos ⟨rfl, rfl⟩, State.on, kept _ _ (by decide) (by decide) (by decide), ← State.on]
    split <;> rfl
  · rw [State.on, State.rd_wr, if_neg (by simp), kept _ _ (by decide) (by decide) (by decide), ← State.on]

theorem State.treg_setH (s : State) (x : Hid) (i v : Nat) : (s.setH x i v).treg = s.treg := rfl

theorem State.treg_trialBegun (u : State) (b : Nat) : (u.trialBegun b).treg = u.treg := by
  unfold State.trialBegun
  split
  · exact State.treg_setH ..
  · rfl

theorem State.mboxFree_trialBegun (u : State) (b m : Nat) (free : u.on (.ree .MBOX_BUSY) m = false) :
    (u.trialBegun b).on (.ree .MBOX_BUSY) m = false := by
  rw [State.on, State.rd_trialBegun, ← State.on, free]

/-- What follows the entry of the firmware where both mailboxes are empty: the start of a trial's time. -/
def State.entryServed (u : State) (b : Nat) : State := ((u.trialBegun b).mboxServe 0 none).mboxServe 1 none

theorem State.entryServed_values (u : State) (b : Nat) (first : u.on (.ree .MBOX_BUSY) 0 = false)
    (second : u.on (.ree .MBOX_BUSY) 1 = false) : (∀ f i, (u.entryServed b).rd f i = u.rd f i) ∧
    (u.entryServed b).h .pcieOn = u.h .pcieOn ∧ ∀ c n, (u.entryServed b).tr c n = u.tr c n := by
  rw [State.entryServed, State.mboxServe_idle _ _ (u.mboxFree_trialBegun b 0 first),
      State.mboxServe_idle _ _ (u.mboxFree_trialBegun b 1 second)]
  exact ⟨u.rd_trialBegun b, u.h_trialBegun _ _ (by decide), State.tr_of_treg (u.treg_trialBegun b)⟩

/-- Where both mailboxes are empty, a bank's firmware is entered (R464, Table 5.8). -/
theorem State.bootInto_values (s : State) (b : Nat) (l : List Byte) (two : b < 2) (off : s.domOn .bell = false)
    (first : s.on (.ree .MBOX_BUSY) 0 = false) (second : s.on (.ree .MBOX_BUSY) 1 = false) :
    (s.bootInto b l).rd (.ree .STATUS_RSTATE) 0 = 1 ∧ (s.bootInto b l).booted = b ∧ (s.bootInto b l).h .pcieOn = 1 ∧
    (s.bootInto b l).tr 128 rPC = imgENTRY l ∧
    (s.bootInto b l).mode = (if s.on (.ree .LBIST_FATAL) 0 then modeService else modeSurvey) := by
  obtain ⟨runs, booted, pcie, entry, mode, busy⟩ := s.bootEntered_values b l two off
  obtain ⟨rd, h, tr⟩ := (s.bootEntered b l).entryServed_values b ((busy 0).trans first) ((busy 1).trans second)
  rw [State.bootInto_eq, ← State.entryServed, State.booted, State.mode, rd, rd, rd, h, tr]
  exact ⟨runs, booted, pcie, entry, mode⟩

/-! ## Domains and functions -/

theorem State.domPowered_on {d : Dom} (coming : s.domState d = 1) (prereq : s.prereqOn d = true)
    (free : d = .reeve → s.mainsFree = true) : s.domPowered d = if s.supplyGood d then
      ((((((s.pass (usTicks (domTime d))).setDom d 3).domUp d).ctxReport).domLate d).fwLoadFor d (s.h .servoPlaced == 0))
      else s.setDom d 2 := by
  have ready : ¬ (s.domState d ≠ 1 ∨ ¬ s.prereqOn d = true ∨ (d = .reeve ∧ ¬ s.mainsFree = true)) := by
    rintro (away | missing | ⟨reeve, held⟩)
    · exact away coming
    · exact missing prereq
    · exact held (free reeve)
  unfold State.domPowered
  rw [if_neg ready]
  cases s.supplyGood d <;> rfl

theorem State.domPowered_stays {d : Dom} (stays : s.domState d ≠ 1 ∨ s.prereqOn d = false) : s.domPowered d = s := by
  unfold State.domPowered
  refine if_pos ?_
  rcases stays with away | missing
  · exact .inl away
  · exact .inr (.inl (by rw [missing]; exact Bool.false_ne_true))

theorem next_domainPowered {i : Fin 10} {d : Dom} (named : Dom.all[i.val]? = some d) (s : State) :
    exec (.domainPowered i) s = .next (s.domPowered d) := by
  show execDomainPowered i s = _
  rw [execDomainPowered, named]

theorem State.fnDone_ends {k : Nat} {w : State} (resets : s.h .frEnd k ≠ 0)
    (then_ : w = (s.passAge (s.h .frEnd k - 1)).setH .frEnd k 0) (ok_ : w.fnOk k = true) :
    s.fnDone k = if 88 ≤ k ∧ k < 96 then (w.fnRestart k).fnLate k else (w.fnLate k).fnRestart k := by
  subst then_
  unfold State.fnDone
  rw [if_neg resets]
  exact if_neg (fun out => out ok_)

end Sys2Proof.Machine

/-! The recovery ladder, the watchdog and the boot: what they come to (R451, R460-R462, R479, R480, R491, R501, R506). -/

namespace Sys2Proof.Machine

variable {s : State}

/-- A kick of the watchdog with its key, and with another value (R451). -/
theorem next_wdtKick {r : Req} (reach : Reaches s r .REE 0) : exec (.wdtKick r 0xA5) s = .next (s.setH .wdtAt 0 s.age).ok ∧
    ∀ v : BitVec 8, v ≠ 0xA5 → exec (.wdtKick r v) s = .next s.ok := by
  refine ⟨next_writeTo reach (if_pos rfl), fun v other => next_writeTo reach (if_neg fun key => other ?_)⟩
  exact BitVec.eq_of_toNat_eq key

theorem State.rd_pass (s : State) (n : Nat) (f : Fld) (i : Nat) : (s.pass n).rd f i = s.rd f i := rfl

theorem State.h_pass (s : State) (n : Nat) (x : Hid) (i : Nat) : (s.pass n).h x i = s.h x i := rfl

theorem State.domState_pass (s : State) (n : Nat) (d : Dom) : (s.pass n).domState d = s.domState d := rfl

/-- What a warm reset leaves, some time after it (R501). -/
theorem State.warmReset_pass (w : State) (n : Nat) : (w.warmReset.pass n).rd (.hrt .RESET_LAST) 0 = 4 ∧
    (w.warmReset.pass n).h .bootPend = 1 ∧ (w.warmReset.pass n).domOn .reeve = false ∧
    (w.warmReset.pass n).domOn .bell = false ∧ (w.warmReset.pass n).domOn .core = false ∧
    (w.warmReset.pass n).domOn .engine = false ∧
    (w.warmReset.pass n).rd (.hrt .RESET_WARM_CNT) 0 = satAdd 16 (w.rd (.hrt .RESET_WARM_CNT) 0) 1 ∧
    (w.warmReset.pass n).rd (.wgh .EVCNT) 0 = w.rd (.wgh .EVCNT) 0 ∧
    (w.warmReset.pass n).rd (.ree .LC_STATE) 0 = w.rd (.ree .LC_STATE) 0 := by
  obtain ⟨last, boot, doms, count, events, cycle⟩ := w.warmReset_values
  have off (d : Dom) (k : Nat) (state : w.warmReset.domState d = k) (other : (k == 3) = false) :
      (w.warmReset.pass n).domOn d = false :=
    State.domOn_of_domState ((State.domState_pass ..).trans state) other
  rw [State.rd_pass, State.rd_pass, State.rd_pass, State.rd_pass, State.h_pass]
  exact ⟨last, boot, off _ 1 (doms .reeve) rfl, off _ 0 (doms .bell) rfl, off _ 0 (doms .core) rfl,
    off _ 0 (doms .engine) rfl, count, events, cycle⟩

/-- The scheduled warm reset acts (R501). -/
theorem next_warmReset (on_ : s.domOn .reeve = true) (due : s.h .warmAt ≠ 0) (idle : s.inTransition = false) :
    exec .warmReset s = .next ((s.passAge (s.h .warmAt - 1)).warmReset.pass 6250) := by
  refine next_inDom_when (c := fun s => s.h .warmAt != 0 && !s.inTransition) on_ ?_ rfl
  rw [idle, Bool.not_false, Bool.and_true]
  exact bne_iff_ne.mpr due

theorem next_warmReset_idle (idle : s.h .warmAt = 0 ∨ s.inTransition = true ∨ s.domOn .reeve = false) :
    exec .warmReset s = .next s := by
  cases on_ : s.domOn .reeve with
  | false =>
    show Host.Outcome.next (s.inDom _ _) = _
    rw [State.inDom, if_neg (by rw [on_]; exact Bool.false_ne_true)]
  | true =>
    refine next_inDom_idle (c := fun s => s.h .warmAt != 0 && !s.inTransition) on_ ?_
    rcases idle with unset | busy | off
    · rw [unset]
      rfl
    · rw [busy]
      exact Bool.and_false _
    · exact Bool.noConfusion (on_.symm.trans off)

theorem next_boot_idle (v : Lbist) (a : BitVec 17) (idle : s.domOn .reeve = false ∨ s.h .bootPend ≠ 1 ∨
    s.on (.hrt .CLK_XTAL_OK) 0 = false) : exec (.boot v a) s = .next s := by
  cases on_ : s.domOn .reeve with
  | false =>
    show Host.Outcome.next (s.inDom _ _) = _
    rw [State.inDom, if_neg (by rw [on_]; exact Bool.false_ne_true)]
  | true =>
    refine next_inDom_idle (c := fun s => s.h .bootPend == 1 && s.on (.hrt .CLK_XTAL_OK) 0) on_ ?_
    rcases idle with off | none_ | stopped
    · exact Bool.noConfusion (on_.symm.trans off)
    · rw [beq_eq_false_iff_ne.mpr none_]
      rfl
    · rw [stopped]
      exact Bool.and_false _

theorem next_boot (on_ : s.domOn .reeve = true) (waits : s.h .bootPend = 1) (xtal : s.on (.hrt .CLK_XTAL_OK) 0 = true)
    (v : Lbist) (a : BitVec 17) : exec (.boot v a) s = .next (s.boot v a.toNat) := by
  refine next_inDom_when (c := fun s => s.h .bootPend == 1 && s.on (.hrt .CLK_XTAL_OK) 0) on_ ?_ rfl
  rw [waits, xtal]
  rfl

theorem State.bootScrapped_values (s : State) : (s.bootCleared.wr (.ree .STATUS_RSTATE) 0 3).rd (.ree .STATUS_RSTATE) 0 = 3 ∧
    (s.bootCleared.wr (.ree .STATUS_RSTATE) 0 3).h .bootPend = 0 ∧
    ∀ x, x < 2 ^ 64 → (s.bootCleared.wr (.ree .STATUS_RSTATE) 0 3).byte .sram x = 0 := by
  refine ⟨?_, ?_, fun x inside => ?_⟩
  · rw [State.rd_wr, if_pos ⟨rfl, rfl⟩]
    rfl
  · rw [State.h_wr]
    exact (s.h_setH .bootPend .bootPend 0 0 0).trans (if_pos ⟨rfl, rfl⟩)
  · exact (State.byte_wipe _ _ _ _ _ _).trans (if_pos ⟨rfl, Nat.zero_le _, inside⟩)

/-- With no bank to start from, a boot ends in recovery boot (R460, R462). -/
theorem State.boot_recovers (armed : s.on (.ree .LC_ARMED) 0 = false) (alive : s.lc ≠ 5) (first : s.bank 0 = 0)
    (second : s.bank 1 = 0) (v : Lbist) : ∃ u : State, s.boot v 0 = u.recoveryBoot := by
  have none_ : (s.bootCleared.bootTested v).applyMarks.bootScan.bootOrder = [] :=
    State.bootOrder_none ((s.bootCleared.bank_booting v 0).trans first) ((s.bootCleared.bank_booting v 1).trans second)
  refine ⟨(s.bootCleared.bootTested v).applyMarks.bootScan, ?_⟩
  rw [State.boot_runs armed, if_neg alive, none_]
  rfl

theorem State.bootOrder_trial (active : s.bank 0 = 3) (trial : s.bank 1 = 2) :
    s.bootOrder = if s.rd (.ree .BANK_TRIAL_CNT) 0 < 3 then [1, 0] else [0] := by
  unfold State.bootOrder
  split <;> simp [active, trial]

theorem State.bootOrder_previous (previous : s.bank 0 = 4) (active : s.bank 1 = 3) : s.bootOrder = [1, 0] := by
  simp [State.bootOrder, previous, active]

/-- RECOVERY_REINIT of what a location names (R479). -/
theorem next_recoveryReinit (on_ : s.domOn .reeve = true) (l : BitVec 32) : exec (.recoveryReinit l) s = .next
    (match s.fnOf l.toNat with
      | some k => if s.fnOk k then s.step2 k else s
      | none => s.step3 l.toNat) :=
  next_inDom on_ rfl

/-- RECOVERY_RETRY short of its third failure, and at it (R479). -/
theorem next_recoveryRetry (on_ : s.domOn .reeve = true) (l : BitVec 32) (n : Fin 4) (f : Bool) :
    exec (.recoveryRetry l n f) s = .next
      (if n.val < 3 ∨ ¬ f then (s.passAge (s.age + msTicks (retryMs n.val))).recovery 1 n.val l.toNat
      else match ((s.passAge (s.age + msTicks (retryMs n.val))).recovery 1 n.val l.toNat).fnOf l.toNat with
        | some k => ((s.passAge (s.age + msTicks (retryMs n.val))).recovery 1 n.val l.toNat).step2 k
        | none => ((s.passAge (s.age + msTicks (retryMs n.val))).recovery 1 n.val l.toNat).step3 l.toNat) :=
  next_inDom on_ rfl

/-- Settles O41: the ladder by its steps, the warm reset through what a start of the main domains leaves, a boot through the
frame of the self-test's verdict. -/
theorem recoveryAndBootComplete : Obligations.RecoveryAndBootComplete := by
  unfold Obligations.RecoveryAndBootComplete
  refine ⟨fun r s reach => next_wdtKick reach, fun s w on_ runs trial at_ => ?tripped, fun s on_ stopped booted => ?wdtOff,
    fun s => ⟨fun rom => if_pos rom, fun runs => if_neg runs⟩, fun r w k s reach => ⟨fun warm key => ?keyed,
        fun unkeyed => ?unkeyed⟩,
    fun l s idle few unset => ?step3, fun l s idle third => State.step3_again idle third l,
    fun l s busy => State.step3_inTransition busy l, fun s on_ due idle => ?warm, fun s idle => next_warmReset_idle idle,
    fun s few => ?cycled, fun s again => ?ended, fun l k s on_ named => ?named, fun l s on_ none_ => ?nameless,
        fun k s third => ?third,
    fun k s few => State.reAge_step2 few, fun l n f s on_ goes => ?repeats, fun l k s w on_ after named => ?gaveUp,
    fun v a s idle => next_boot_idle v a idle, fun v a s on_ waits xtal armed scrap => ?scrapped,
    fun v s on_ waits xtal armed alive first second => ?recovers, fun s active trial few => ?trialFirst,
        fun s active trial many => ?trialSpent,
    fun s previous active => State.bootOrder_previous previous active, fun b bs l s good => ?goodBank,
        fun b c bs l s bad => ?badBank,
    fun b l s two first second off => s.bootInto_values b l two off first second,
    fun i d s named coming prereq free good => ?powered, fun i d s named coming prereq free bad => ?unsupplied,
    fun i d s named stays => ?stays, fun k s w resets then_ ok_ => ⟨fun other => ?otherFn, fun low high => ?pairFn⟩,
        fun k s rests => ?noReset⟩
  case tripped =>
    subst at_
    exact State.wdtTrip_runs on_ runs trial
  case wdtOff =>
    refine next_inDom_idle (c := fun s => s.on (.ree .WDT_EN) 0 || s.rd (.ree .STATUS_RSTATE) 0 == 0) on_ ?_
    rw [stopped, beq_eq_false_iff_ne.mpr booted]
    rfl
  case keyed =>
    subst warm key
    exact next_writeTo reach (if_pos ⟨rfl, rfl⟩)
  case unkeyed => exact next_writeTo reach (State.resetWrite_of_unkeyed unkeyed)
  case step3 => exact ⟨State.step3_warmAt idle unset few l, State.warmAge_step3 idle few l⟩
  case warm =>
    refine ⟨_, next_warmReset on_ due idle, ?_⟩
    have after := (s.passAge (s.h .warmAt - 1)).warmReset_pass 6250
    rw [State.rd_passAge, State.rd_passAge, State.rd_passAge] at after
    exact after
  case cycled => exact ⟨_, rfl, State.powerCycle_values few locHearth⟩
  case ended => exact ⟨s.exhausted, congrArg Host.Outcome.next (if_pos again), s.exhausted_values⟩
  case named =>
    rw [next_recoveryReinit on_, named]
    exact ⟨fun ok_ => congrArg Host.Outcome.next (if_pos ok_),
      fun out => congrArg Host.Outcome.next (if_neg (by rw [out]; exact Bool.false_ne_true))⟩
  case nameless => rw [next_recoveryReinit on_, none_]
  case third =>
    rw [State.step2_third third]
    refine ⟨fun low high => if_pos ⟨low, high⟩, fun outside => if_neg ?_⟩
    omega
  case repeats =>
    rw [next_recoveryRetry on_, if_pos]
    exact goes.imp id (fun good => by rw [good]; exact Bool.false_ne_true)
  case gaveUp =>
    subst after
    rw [next_recoveryRetry on_, if_neg (by decide)]
    show Host.Outcome.next (match ((s.passAge (s.age + msTicks 100)).recovery 1 3 l.toNat).fnOf l.toNat with
      | some k => ((s.passAge (s.age + msTicks 100)).recovery 1 3 l.toNat).step2 k
      | none => ((s.passAge (s.age + msTicks 100)).recovery 1 3 l.toNat).step3 l.toNat) = _
    rw [named]
  case scrapped =>
    rw [next_boot on_ waits xtal, State.boot_scrapped armed scrap]
    exact ⟨_, rfl, s.bootScrapped_values⟩
  case recovers =>
    obtain ⟨u, recovers⟩ := State.boot_recovers armed alive first second v
    rw [next_boot on_ waits xtal]
    exact ⟨u.recoveryBoot, congrArg Host.Outcome.next recovers, u.recoveryBoot_values⟩
  case trialFirst => rw [State.bootOrder_trial active trial, if_pos few]
  case trialSpent => rw [State.bootOrder_trial active trial, if_neg (by omega)]
  case goodBank => rw [State.bootFrom, good]
  case badBank => rw [State.bootFrom, bad]
  case powered => rw [next_domainPowered named, State.domPowered_on coming prereq free, if_pos good]
  case unsupplied =>
    rw [next_domainPowered named, State.domPowered_on coming prereq free, if_neg (by rw [bad]; exact Bool.false_ne_true)]
  case stays => rw [next_domainPowered named, State.domPowered_stays stays]
  case otherFn =>
    refine congrArg Host.Outcome.next ((State.fnDone_ends resets then_ ok_).trans (if_neg ?_))
    omega
  case pairFn => exact congrArg Host.Outcome.next ((State.fnDone_ends resets then_ ok_).trans (if_pos ⟨low, high⟩))
  case noReset => exact congrArg Host.Outcome.next (if_pos rests)

end Sys2Proof.Machine

/-! The mailbox commands on tokens and keys, and the pass-through to the Weighhouse (R445, R456-R458, R469-R471). -/

namespace Sys2Proof.Machine

variable {s : State}

/-! ## Commands that answer a code alone -/

theorem State.h_posted (s : State) (m n : Nat) (x : Hid) (i : Nat) : (s.posted m n).h x i = s.h x i := rfl

theorem State.h_mboxAnswer (s : State) (m q c d x : Nat) (y : Hid) (i : Nat) : (s.mboxAnswer m q c d x).h y i = s.h y i := rfl

section Plain
variable {m : Fin 2} {op : Nat} {q : BitVec 16} {args : List Nat} {v : Option Nat} {g : State → Nat × State} {c : Nat}

theorem MailTakes.plainRefused (takes : MailTakes s m) (op_ : op < 256) (small : ∀ x ∈ args, x < 2 ^ 32)
    (row : ∀ t : State, t.mboxDo m op (mailWords op q.toNat args) v = mbPlain (g t)) (code_ : c < 16)
    (same : ∀ n, g (s.posted m n) = (c, s.posted m n)) :
    ∃ u : State, (.next (s.mailbox m op q args v) : Host.Outcome State Fault Refusal) = .next u ∧ Answered u m q.toNat c ∧
      Frame s u (mboxFlds m) [] :=
  takes.refused op_ small code_ fun n => by
    rw [row, same]
    rfl

theorem MailTakes.plain {u : State → State} (takes : MailTakes s m) (op_ : op < 256) (small : ∀ x ∈ args, x < 2 ^ 32)
    (row : ∀ t : State, t.mboxDo m op (mailWords op q.toNat args) v = mbPlain (g t))
    (runs : ∀ n, g (s.posted m n) = (c, u (s.posted m n))) (on_ : ∀ n, (u (s.posted m n)).domOn .reeve = true)
    (idle : ∀ n, (u (s.posted m n)).h .lcPend = 0 ∨ (u (s.posted m n)).mode ≠ modeDormant) :
    ∃ n : Nat, (.next (s.mailbox m op q args v) : Host.Outcome State Fault Refusal) =
      .next ((u (s.posted m n)).mboxAnswer m q.toNat c 0 0) :=
  takes.answers op_ small (fun n => by
    rw [row, runs]
    rfl) on_ idle

end Plain

/-! ## What REEVE needs to answer -/

/-- From `s` to `t` the management fields and a waiting transition stand. -/
structure ReeveHeld (s t : State) : Prop where
  rd : ∀ f i, f.isMgmt = true → t.rd f i = s.rd f i
  pend : t.h .lcPend = s.h .lcPend

namespace ReeveHeld
variable {t u : State}

theorem refl : ReeveHeld s s := ⟨fun _ _ _ => rfl, rfl⟩

theorem units (a : ReeveHeld s t) (b : UnitsOnly t u) : ReeveHeld s u :=
  ⟨fun f i mgmt => (b.rd f i mgmt).trans (a.rd f i mgmt), (b.h _ _ (by decide)).trans a.pend⟩

theorem rest (a : ReeveHeld s t) (same : u.regs = t.regs ∧ u.hid = t.hid ∧ u.variant = t.variant) : ReeveHeld s u := by
  obtain ⟨regs, hid, variant⟩ := same
  refine ⟨fun f i mgmt => ?_, ?_⟩
  · rw [← a.rd f i mgmt, State.rd, State.rd, regs, variant]
  · rw [← a.pend, State.h, State.h, hid]

theorem wr (f : Fld) (i v : Nat) (a : ReeveHeld s t) (unit : f.isMgmt = false) : ReeveHeld s (t.wr f i v) :=
  a.units (UnitsOnly.refl.wr f i v unit)

theorem setH (x : Hid) (i v : Nat) (a : ReeveHeld s t) (other : Hid.lcPend ≠ x) : ReeveHeld s (t.setH x i v) :=
  ⟨fun f i mgmt => (State.rd_setH ..).trans (a.rd f i mgmt), (State.h_setH_other _ _ _ _ other).trans a.pend⟩

theorem setBytes (r : Region) (n : Nat) (l : List Byte) (a : ReeveHeld s t) : ReeveHeld s (t.setBytes r n l) :=
  a.units (UnitsOnly.refl.setBytes r n l)

theorem domOn (a : ReeveHeld s t) (d : Dom) : t.domOn d = s.domOn d := by
  rw [State.domOn, State.domState, a.rd _ _ rfl]
  rfl

/-! ## A command of the Weighhouse -/

theorem wghRsp (seq code detail data : Nat) (a : ReeveHeld s t) : ReeveHeld s (t.wghRsp seq code detail data) :=
  ((((a.wr _ _ _ (by rfl)).wr _ _ _ (by rfl)).wr _ _ _ (by rfl)).wr _ _ _ (by rfl)).wr _ _ _ (by rfl)

theorem setWslot (k : Nat) (x : WSlot) (a : ReeveHeld s t) : ReeveHeld s (t.setWslot k x) := a.rest ⟨rfl, rfl, rfl⟩

theorem wcfgSet (k : Nat) (c : WCfg) (a : ReeveHeld s t) : ReeveHeld s (t.wcfgSet k c) :=
  (((((((((a.wr _ _ _ (by rfl)).wr _ _ _ (by rfl)).wr _ _ _ (by rfl)).wr _ _ _ (by rfl)).wr _ _ _ (by rfl)).wr _ _ _ (by rfl)).wr
    _ _ _ (by rfl)).wr _ _ _ (by rfl)).wr _ _ _ (by rfl)).setWslot _ _

theorem whalt (k : Nat) (a : ReeveHeld s t) : ReeveHeld s (t.whalt k) := by
  have stopped : ReeveHeld s ((t.wr (.wgh .SLOT_RUNSTATE) k 0).setWslot k { (t.wslot k).drop with stop := false }) :=
    (a.wr _ _ _ (by rfl)).setWslot _ _
  unfold State.whalt
  dsimp only
  split
  · exact stopped.wcfgSet _ _
  · exact stopped

theorem wghConfig (k : Nat) (w : Nat → Nat) (a : ReeveHeld s t) : ReeveHeld s (t.wghConfig k w).2 := by
  unfold State.wghConfig
  dsimp only
  split
  · exact a
  · split
    · exact a.setWslot _ _
    · exact a.wcfgSet _ _

theorem wghRun (k : Nat) (a : ReeveHeld s t) : ReeveHeld s (t.wghRun k).2 := by
  unfold State.wghRun
  split
  · exact a
  · split
    · exact a.setWslot _ _
    · exact ((a.wr _ _ _ (by rfl)).wr _ _ _ (by rfl)).setWslot _ _

theorem wghStop (k : Nat) (a : ReeveHeld s t) : ReeveHeld s (t.wghStop k).2 := by
  unfold State.wghStop
  dsimp only
  split
  · exact a
  · split
    · exact a.setWslot _ _
    · exact a.whalt k

theorem paramSet (id v : Nat) (a : ReeveHeld s t) : ReeveHeld s (t.paramSet id v) := by
  unfold State.paramSet
  split
  case h_2 | h_3 | h_4 | h_5 => exact (a.setH _ _ _ (by decide)).wr _ _ _ (by rfl)
  all_goals exact a.wr _ _ _ (by rfl)

theorem wghEvent (kind id : Nat) (a : ReeveHeld s t) : ReeveHeld s (t.wghEvent kind id) :=
  have counted := a.units (UnitsOnly.refl.count (.wgh .EVCNT) 0 1 (by rfl))
  iteS counted (counted.wr _ _ _ (by rfl))

theorem setParam (id v : Nat) (a : ReeveHeld s t) : ReeveHeld s (t.setParam id v).2 := by
  unfold State.setParam
  split
  · show ReeveHeld s (t.sealAttempt id .reeve)
    exact a.units (((UnitsOnly.refl.count (.wgh .ATTEMPT) 0 1 (by rfl)).ledger _ _ _ _ _).raise _ _ _ _)
  · split
    · exact a
    · split
      · exact a
      · split
        · exact a
        · have set := (a.paramSet id v).wghEvent 2 id
          show ReeveHeld s (((t.paramSet id v).wghEvent 2 id).raise .WGH_PARAM_CHANGED locWgh)
          exact set.units (UnitsOnly.refl.raise _ _ _ _)

theorem wghInstall (q n : Nat) (a : ReeveHeld s t) : ReeveHeld s (t.wghInstall q n) :=
  iteS (a.wghRsp _ _ _ _) (iteS (a.wghRsp _ _ _ _) (iteS ((a.units (UnitsOnly.refl.imgRefused _ _ _)).wghRsp _ _ _ _)
    ((((a.setH _ _ _ (by decide)).setH _ _ _ (by decide)).setH _ _ _ (by decide)).wghRsp _ _ _ _)))

theorem wghVerify (q : Nat) (a : ReeveHeld s t) : ReeveHeld s (t.wghVerify q) :=
  iteS (a.wghRsp _ _ _ _) (iteS (a.wghRsp _ _ _ _) (((a.setH _ _ _ (by decide)).setH _ _ _ (by decide)).wghRsp _ _ _ _))

/-- A command of the Weighhouse changes nothing that REEVE needs to answer. -/
theorem wghCommand (w : List Nat) (a : ReeveHeld s t) : ReeveHeld s (t.wghCommand w) := by
  unfold State.wghCommand
  dsimp only
  refine iteS (a.units (UnitsOnly.refl.count _ _ _ (by rfl))) (iteS (a.wghRsp _ _ _ _) ?_)
  split
  · exact (a.wghConfig _ _).wghRsp _ _ _ _
  · exact (a.wghRun _).wghRsp _ _ _ _
  · exact (a.wghStop _).wghRsp _ _ _ _
  · exact (a.setParam _ _).wghRsp _ _ _ _
  · exact a.wghInstall _ _
  · exact a.wghVerify _
  · exact a.wghRsp _ _ _ _
  · exact a.wghRsp _ _ _ _

theorem wghPass (w : List Nat) (a : ReeveHeld s t) : ReeveHeld s (t.wghPass w).2 := by
  unfold State.wghPass
  refine wghCommand _ (iteS ?_ a)
  split
  · exact a.setBytes _ _ _
  · exact a

end ReeveHeld

/-! ## The pass-through to the Weighhouse -/

theorem State.mboxDo_wgh (weigh : s.domOn .weigh = true) (m : Nat) (w : List Nat) (v : Option Nat) :
    s.mboxDo m 6 w v = mbData (s.wghPass (w.drop 1)) := if_neg (not_not_intro weigh)

theorem State.mboxDo_wgh_off (off : s.domOn .weigh = false) (m : Nat) (w : List Nat) (v : Option Nat) :
    s.mboxDo m 6 w v = (3, 0, 0, s) := if_pos (by rw [off]; exact Bool.false_ne_true)

theorem passWords_small (l : List (BitVec 32)) : ∀ x ∈ l.map BitVec.toNat, x < 2 ^ 32 := by
  intro x isWord
  obtain ⟨w, -, rfl⟩ := List.mem_map.mp isWord
  exact w.isLt

/-- The words of a pass-through are those given. -/
theorem passWords_drop (q : Nat) (l : List (BitVec 32)) : ((mailWords 6 q (l.map BitVec.toNat)).drop 1).length = 15 ∧
    ∀ i, i < 15 → ((mailWords 6 q (l.map BitVec.toNat)).drop 1).getD i 0 = (l.getD i 0).toNat := by
  unfold mailWords
  refine ⟨by simp, fun i inside => ?_⟩
  have place : 1 + i < 16 := by omega
  rw [List.getD_eq_getElem?_getD, List.getElem?_drop, List.getElem?_map, List.getElem?_range place, Nat.add_comm 1 i]
  show (l.map BitVec.toNat).getD i 0 = _
  rw [List.getD_eq_getElem?_getD, List.getElem?_map, List.getD_eq_getElem?_getD]
  cases l[i]? <;> rfl

theorem next_wghPassthrough {m : Fin 2} (takes : MailTakes s m) (q : BitVec 16) (l : List (BitVec 32))
    (weigh : s.domOn .weigh = true) :
    ∃ (w : State) (x : List Nat), Frame s w [(.ree .MBOX_WORD, m), (.ree .MBOX_BUSY, m)] [] ∧ x.length = 15 ∧
      (∀ i, i < 15 → x.getD i 0 = (l.getD i 0).toNat) ∧
      exec (.wghPassthrough m q l) s = .next ((w.wghPass x).2.mboxAnswer m q.toNat 0 0 (w.wghPass x).1) := by
  obtain ⟨n, eq⟩ := takes.run (q := q) (v := none) (op := 6) (by decide) (passWords_small l)
  obtain ⟨on_, idle⟩ := takes.posted n
  obtain ⟨length, words⟩ := passWords_drop q.toNat l
  have held := (ReeveHeld.refl (s := s.posted m n)).wghPass ((mailWords 6 q.toNat (l.map BitVec.toNat)).drop 1)
  refine ⟨s.posted m n, _, s.posted_frame m n, length, words, congrArg Host.Outcome.next (eq.trans ?_)⟩
  rw [State.mboxDo_wgh (by rw [State.domOn_posted, weigh])]
  exact State.mboxDone_answers ((held.domOn _).trans on_) (.inl (held.pend.trans idle))

theorem next_wghPassthrough_off {m : Fin 2} (takes : MailTakes s m) (q : BitVec 16) (l : List (BitVec 32))
    (off : s.domOn .weigh = false) :
    ∃ u : State, exec (.wghPassthrough m q l) s = .next u ∧ Answered u m q.toNat 3 ∧ Frame s u (mboxFlds m) [] :=
  takes.refused (by decide) (passWords_small l) (by decide) fun n =>
    State.mboxDo_wgh_off (by rw [State.domOn_posted, off]) _ _ _

/-! ## Tokens -/

theorem State.keyWritten_posted (s : State) (m n k : Nat) : (s.posted m n).keyWritten k = s.keyWritten k := by
  rw [State.keyWritten, s.rd_posted _ _ _ (by decide) (by decide)]
  rfl

theorem State.token_posted (s : State) (m n : Nat) : (s.posted m n).token = s.token := by
  rw [State.token, s.rd_posted _ _ _ (by decide) (by decide)]
  rfl

theorem State.tokenOk_posted (s : State) (m n op target : Nat) (slots : List Nat) :
    (s.posted m n).tokenOk op target slots = s.tokenOk op target slots := by
  unfold State.tokenOk
  simp only [State.token_posted, State.keyLive_posted, s.rd_posted m n 0 (f := .glb .DEVICE_UID) (by decide) (by decide),
    s.rd_posted m n 0 (f := .ree .NONCE) (by decide) (by decide), State.keyOf, State.h_posted]

theorem State.updating_posted (s : State) (m n : Nat) : (s.posted m n).updating = s.updating := by
  rw [State.updating, State.bank_posted, State.bank_posted]
  rfl

theorem State.role_posted (s : State) (m n : Nat) : (s.posted m n).role = s.role := s.rd_posted _ _ _ (by decide) (by decide)

theorem State.rd_nonceNew (s : State) {f : Fld} (i : Nat) (other : f ≠ .ree .NONCE) : s.nonceNew.rd f i = s.rd f i := by
  show (s.wr (.ree .NONCE) 0 (s.freeVal 128)).rd f i = _
  rw [State.rd_wr, if_neg (fun same => other same.1)]

theorem State.h_nonceNew (s : State) (x : Hid) (i : Nat) : s.nonceNew.h x i = s.h x i := rfl

theorem State.domOn_nonceNew (s : State) (d : Dom) : s.nonceNew.domOn d = s.domOn d := by
  show (s.wr (.ree .NONCE) 0 (s.freeVal 128)).domOn d = _
  exact State.domOn_wr (by decide)

/-! ## LC_REQ -/

theorem State.lcReq_unlisted {d : Nat} (none_ : lcSlots s.lc d = []) : s.lcReq d = (3, s) := if_pos none_

theorem State.lcReq_spent (away : s.lc = 4) (used : 4 ≤ s.rd (.ree .LC_RETURN_USED) 0) : s.lcReq 2 = (8, s) := by
  unfold State.lcReq
  dsimp only
  rw [if_neg (by rw [away]; decide), if_pos ⟨away, rfl, used⟩]

theorem State.lcReq_unready {d : Nat} (unspent : ¬ (s.lc = 4 ∧ d = 2))
    (unready : (s.lc = 1 ∧ d = 2 ∧ ¬ s.keyWritten 3 = true) ∨
    ((s.lc = 2 ∨ s.lc = 3) ∧ s.mode ≠ modeService)) : s.lcReq d = (3, s) := by
  unfold State.lcReq
  dsimp only
  split
  · rfl
  · rw [if_neg (fun c => unspent ⟨c.1, c.2.1⟩), if_pos (.inr unready)]

/-- The transition is put in: DORMANT is requested, and the transition waits for it (R469). -/
def State.lcWaits (s : State) (d : Nat) : State :=
  (((s.setH .lcArg 0 (tokKey s.token)).nonceNew).setH .lcPend 0 (d + 1)).setH .lcTo 0 (d + 1)

def State.lcAccepted (s : State) (d : Nat) : State := (s.lcWaits d).relinquish.intRequest { mode := modeDormant + 1 }

theorem State.lcWaits_values (s : State) (d : Nat) : (∀ f i, f ≠ .ree .NONCE → (s.lcWaits d).rd f i = s.rd f i) ∧
    (s.lcWaits d).h .lcPend = d + 1 ∧ (s.lcWaits d).h .lcTo = d + 1 := by
  refine ⟨fun f i other => ?_, by simp [State.lcWaits], by simp [State.lcWaits]⟩
  rw [State.lcWaits, State.rd_setH, State.rd_setH, State.rd_nonceNew _ _ other, State.rd_setH]

/-- A request that nothing of the part forbids is told by its token (R458, R469). -/
theorem State.lcReq_runs {d : Nat} (awake : s.mode ≠ modeDormant) (listed : lcSlots s.lc d ≠ [])
    (unspent : ¬ (s.lc = 4 ∧ d = 2 ∧ 4 ≤ s.rd (.ree .LC_RETURN_USED) 0)) (still : s.updating = false)
    (keyed : s.lc = 1 → d = 2 → s.keyWritten 3 = true) (serviced : s.lc = 2 ∨ s.lc = 3 → s.mode = modeService)
    (idle : s.h .lcPend = 0) (up : s.h .shut = 0) :
    s.lcReq d = if s.tokenOk 7 d (lcSlots s.lc d) then (7, s.lcAccepted d) else (4, s.nonceNew) := by
  have ready : ¬ (s.updating = true ∨ (s.lc = 1 ∧ d = 2 ∧ ¬ s.keyWritten 3 = true) ∨
      ((s.lc = 2 ∨ s.lc = 3) ∧ s.mode ≠ modeService)) := by
    rintro (busy | ⟨blank, target, none_⟩ | ⟨field, other⟩)
    · exact Bool.false_ne_true (still.symm.trans busy)
    · exact none_ (keyed blank target)
    · exact other (serviced field)
  unfold State.lcReq
  dsimp only
  rw [if_neg listed, if_neg unspent, if_neg ready, if_neg (by simp [idle, up])]
  cases s.tokenOk 7 d (lcSlots s.lc d) with
  | false => rfl
  | true =>
    have awake' : (s.lcWaits d).mode ≠ modeDormant := by
      rw [State.mode, (s.lcWaits_values d).1 _ _ (by decide)]
      exact awake
    simp only [not_true_eq_false, if_false, if_true]
    exact if_neg awake'

theorem State.intMode_intRequest (s : State) (n : Nat) : (s.intRequest { mode := n + 1 }).h .intMode = n + 1 := by
  simp [State.intRequest]

theorem State.lcAccepted_values (s : State) (d : Nat) : (∀ f i, f.isMgmt = true → f ≠ .ree .NONCE →
      (s.lcAccepted d).rd f i = s.rd f i) ∧ (s.lcAccepted d).h .lcPend = d + 1 ∧ (s.lcAccepted d).h .lcTo = d + 1 ∧
    (s.lcAccepted d).h .intMode = modeDormant + 1 := by
  obtain ⟨rd, pend, dest⟩ := s.lcWaits_values d
  have calls := ((CallsOnly.refl (s := s.lcWaits d)).relinquish).intRequest { mode := modeDormant + 1 }
  exact ⟨fun f i mgmt other => (calls.rd f i mgmt).trans (rd f i other), (calls.h _ _ (by decide) (by decide)).trans pend,
    (calls.h _ _ (by decide) (by decide)).trans dest, State.intMode_intRequest _ _⟩

theorem State.lc_mboxAnswer (s : State) (m q c d x : Nat) : (s.mboxAnswer m q c d x).lc = s.lc :=
  s.rd_mboxAnswer _ _ _ _ _ _ (by simp [mboxFlds])

section Tokens
variable {m : Fin 2}

/-- A command that its token tells: with a good one it does its work, with another REE_NONCE alone is new (R458). -/
theorem MailTakes.token {op : Nat} {q : BitVec 16} {args : List Nat} {g : State → Nat × State} {c : Nat} {u : State → State}
    {good : Bool} (takes : MailTakes s m) (op_ : op < 256) (small : ∀ x ∈ args, x < 2 ^ 32)
    (row : ∀ t : State, t.mboxDo m op (mailWords op q.toNat args) none = mbPlain (g t))
    (runs : ∀ n, g (s.posted m n) = if good = true then (c, u (s.posted m n)) else (4, (s.posted m n).nonceNew))
    (on_ : ∀ n, (u (s.posted m n)).domOn .reeve = true)
    (idle : ∀ n, (u (s.posted m n)).h .lcPend = 0 ∨ (u (s.posted m n)).mode ≠ modeDormant) :
    ∃ n : Nat, (.next (s.mailbox m op q args) : Host.Outcome State Fault Refusal) = .next (if good = true then
      (u (s.posted m n)).mboxAnswer m q.toNat c 0 0 else (s.posted m n).nonceNew.mboxAnswer m q.toNat 4 0 0) := by
  cases good with
  | true => exact takes.plain op_ small row (fun n => (runs n).trans (if_pos rfl)) on_ idle
  | false =>
    exact takes.plain op_ small row (u := State.nonceNew) (fun n => (runs n).trans (if_neg Bool.false_ne_true))
      (fun n => (State.domOn_nonceNew _ _).trans (takes.posted n).1) (fun n => .inl (takes.posted n).2)

/-- LC_REQ where nothing of the part forbids the transition. -/
theorem next_lcReq (takes : MailTakes s m) (q : BitVec 16) (d : BitVec 32) (awake : s.mode ≠ modeDormant)
    (listed : lcSlots s.lc d.toNat ≠ []) (unspent : ¬ (s.lc = 4 ∧ d.toNat = 2 ∧ 4 ≤ s.rd (.ree .LC_RETURN_USED) 0))
    (still : s.updating = false) (keyed : s.lc = 1 → d.toNat = 2 → s.keyWritten 3 = true)
    (serviced : s.lc = 2 ∨ s.lc = 3 → s.mode = modeService) (up : s.h .shut = 0) :
    ∃ u : State, exec (.lcReq m q d) s = .next u ∧
      (s.tokenOk 7 d.toNat (lcSlots s.lc d.toNat) = true → Answered u m q.toNat 7 ∧ u.h .lcPend = d.toNat + 1 ∧
        u.h .lcTo = d.toNat + 1 ∧ u.h .intMode = modeDormant + 1 ∧ u.lc = s.lc) ∧
      (s.tokenOk 7 d.toNat (lcSlots s.lc d.toNat) = false → Answered u m q.toNat 4 ∧ u.h .lcPend = 0 ∧ u.lc = s.lc) := by
  have runs (n : Nat) : (s.posted m n).lcReq d.toNat = if s.tokenOk 7 d.toNat (lcSlots s.lc d.toNat) = true then
      (7, (s.posted m n).lcAccepted d.toNat) else (4, (s.posted m n).nonceNew) := by
    have spent : (s.posted m n).rd (.ree .LC_RETURN_USED) 0 = s.rd (.ree .LC_RETURN_USED) 0 :=
        State.rd_posted _ _ _ _ (by decide) (by decide)
    rw [State.lcReq_runs, State.tokenOk_posted, State.lc_posted]
    · rw [State.mode_posted]
      exact awake
    · rw [State.lc_posted]
      exact listed
    · rw [State.lc_posted, spent]
      exact unspent
    · rw [State.updating_posted, still]
    · rw [State.lc_posted, State.keyWritten_posted]
      exact keyed
    · rw [State.lc_posted, State.mode_posted]
      exact serviced
    · exact takes.idle
    · exact up
  have on_ (n : Nat) : ((s.posted m n).lcAccepted d.toNat).domOn .reeve = true := by
    rw [State.domOn, State.domState, ((s.posted m n).lcAccepted_values _).1 _ _ rfl (by decide)]
    exact (takes.posted n).1
  have mode (n : Nat) : ((s.posted m n).lcAccepted d.toNat).mode ≠ modeDormant := by
    rw [State.mode, ((s.posted m n).lcAccepted_values _).1 _ _ rfl (by decide), ← State.mode, State.mode_posted]
    exact awake
  obtain ⟨n, eq⟩ := takes.token (q := q) (op := 7) (g := fun t => t.lcReq d.toNat) (u := fun t => t.lcAccepted d.toNat)
    (by decide) (oneWord_small d) (fun _ => rfl) runs on_ (fun n => .inr (mode n))
  refine ⟨_, eq, fun good => ?accepted, fun bad => ?refused⟩
  case accepted =>
    obtain ⟨rd, pend, dest, asked⟩ := (s.posted m n).lcAccepted_values d.toNat
    rw [if_pos good]
    refine ⟨State.mboxAnswer_answered _ _ _ (by decide) _ _, ?_, ?_, ?_, ?_⟩
    · rw [State.h_mboxAnswer, pend]
    · rw [State.h_mboxAnswer, dest]
    · rw [State.h_mboxAnswer, asked]
    · rw [State.lc_mboxAnswer, State.lc, rd _ _ rfl (by decide)]
      exact State.lc_posted ..
  case refused =>
    rw [if_neg (by rw [bad]; exact Bool.false_ne_true)]
    refine ⟨State.mboxAnswer_answered _ _ _ (by decide) _ _, ?_, ?_⟩
    · rw [State.h_mboxAnswer, State.h_nonceNew, State.h_posted, takes.idle]
    · rw [State.lc_mboxAnswer, State.lc, State.rd_nonceNew _ _ (by decide)]
      exact State.lc_posted ..

/-! ## KEY_PROG and REVOKE -/

/-- The slots whose keys sign a token for slot `k` (Table 14.6). -/
def keySigners (k : Nat) : List Nat := if k = 3 then [0] else [0, 3 - k]

theorem State.keyProg_range {k : Nat} (outside : k = 0 ∨ 4 ≤ k) : s.keyProg k = (2, s) := if_pos outside

theorem State.keyProg_used {k : Nat} (low : 1 ≤ k) (high : k ≤ 3) (used : s.keyWritten k = true) : s.keyProg k = (3, s) := by
  unfold State.keyProg
  dsimp only
  rw [if_neg (by omega), if_pos (.inr used)]

theorem State.keyProg_runs {k : Nat} (fits : (k = 3 ∧ s.lc = 1) ∨ ((k = 1 ∨ k = 2) ∧ (s.lc = 2 ∨ s.lc = 4)))
    (free : s.keyWritten k = false) : s.keyProg k =
      if s.tokenOk 8 k (keySigners k) then (0, s.nonceNew.keyWrite k (tokKey s.token)) else (4, s.nonceNew) := by
  unfold State.keyProg
  dsimp only
  rw [if_neg (by omega), if_neg (by simp [fits, free])]
  rfl

theorem State.revoke_range {k : Nat} (outside : k = 0 ∨ 4 ≤ k) : s.revoke k = (2, s) := if_pos outside

theorem State.revoke_free {k : Nat} (low : 1 ≤ k) (high : k ≤ 3) (free : s.keyWritten k = false) : s.revoke k = (3, s) := by
  unfold State.revoke
  rw [if_neg (by omega), if_pos (.inr (by rw [free]; exact Bool.false_ne_true))]

/-- Slot k is revoked. -/
def State.keyRevoked (s : State) (k : Nat) : State := s.wr (.ree .KEYS_BITS) 0 (setBit (2 * k + 1) (s.rd (.ree .KEYS_BITS) 0))

theorem State.revoke_runs {k : Nat} (low : 1 ≤ k) (high : k ≤ 3) (field : s.lc = 2 ∨ s.lc = 3 ∨ s.lc = 4)
    (used : s.keyWritten k = true) : s.revoke k =
      if s.tokenOk 9 k (keySigners k) then (0, s.nonceNew.keyRevoked k) else (4, s.nonceNew) := by
  unfold State.revoke
  rw [if_neg (by omega), if_neg (by simp [field, used])]
  rfl

theorem State.keyWrite_values (s : State) {k : Nat} (small : k ≤ 3) (key : Nat) : (s.keyWrite k key).keyWritten k = true ∧
    (s.keyWrite k key).h .keySlot k = key ∧ (s.keyWrite k key).h .lcPend = s.h .lcPend ∧
    ∀ d, (s.keyWrite k key).domOn d = s.domOn d := by
  refine ⟨?_, ?_, ?_, fun d => ?_⟩
  · have width : (Fld.ree .KEYS_BITS).desc.width = 8 := rfl
    have inside : 2 * k < 8 := by omega
    rw [State.keyWritten, State.keyWrite, State.rd_wr, if_pos ⟨rfl, rfl⟩, bit_trunc, bit_setBit, width]
    simp [inside]
  · rw [State.keyWrite, State.h_wr, State.h_setH, if_pos ⟨rfl, rfl⟩]
  · rw [State.keyWrite, State.h_wr, State.h_setH_other _ _ _ _ (by decide)]
  · rw [State.keyWrite, State.domOn_wr (by decide)]
    rfl

theorem State.keysBits_told (s : State) (m n : Nat) :
    (s.posted m n).nonceNew.rd (.ree .KEYS_BITS) 0 = s.rd (.ree .KEYS_BITS) 0 :=
  (State.rd_nonceNew _ _ (by decide)).trans (s.rd_posted _ _ _ (by decide) (by decide))

theorem State.keyLive_keyRevoked (s : State) {k : Nat} (small : k ≤ 3) : (s.keyRevoked k).keyLive k = false := by
  have width : (Fld.ree .KEYS_BITS).desc.width = 8 := rfl
  have inside : 2 * k + 1 < 8 := by omega
  rw [State.keyLive, State.keyRevoked, State.rd_wr, if_pos ⟨rfl, rfl⟩, bit_trunc, bit_trunc, bit_setBit, bit_setBit, width]
  simp [inside]

/-- KEY_PROG of a slot that the part's state lets be written (R456). -/
theorem next_keyProg (takes : MailTakes s m) (q : BitVec 16) (k : BitVec 32)
    (fits : (k.toNat = 3 ∧ s.lc = 1) ∨ ((k.toNat = 1 ∨ k.toNat = 2) ∧ (s.lc = 2 ∨ s.lc = 4)))
    (free : s.keyWritten k.toNat = false) :
    ∃ u : State, exec (.keyProg m q k) s = .next u ∧
      (s.tokenOk 8 k.toNat (keySigners k.toNat) = true → Answered u m q.toNat 0 ∧
        u.keyWritten k.toNat = true ∧ u.h .keySlot k.toNat = tokKey s.token) ∧
      (s.tokenOk 8 k.toNat (keySigners k.toNat) = false → Answered u m q.toNat 4 ∧
        u.keyWritten k.toNat = false ∧ u.h .keySlot k.toNat = s.h .keySlot k.toNat) := by
  have small : k.toNat ≤ 3 := by omega
  have runs (n : Nat) : (s.posted m n).keyProg k.toNat = if s.tokenOk 8 k.toNat (keySigners k.toNat) = true then
      (0, (s.posted m n).nonceNew.keyWrite k.toNat (tokKey s.token)) else (4, (s.posted m n).nonceNew) := by
    rw [State.keyProg_runs (by rw [State.lc_posted]; exact fits) (by rw [State.keyWritten_posted, free]),
      State.tokenOk_posted, State.token_posted]
  have pend (n : Nat) : (s.posted m n).nonceNew.h .lcPend = 0 := (takes.posted n).2
  have on_ (n : Nat) : (s.posted m n).nonceNew.domOn .reeve = true := (State.domOn_nonceNew _ _).trans (takes.posted n).1
  obtain ⟨n, eq⟩ := takes.token (q := q) (op := 8) (g := fun t => t.keyProg k.toNat)
    (u := fun t => t.nonceNew.keyWrite k.toNat (tokKey s.token)) (by decide) (oneWord_small k) (fun _ => rfl) runs
    (fun n => ((State.keyWrite_values _ small _).2.2.2 _).trans (on_ n))
    (fun n => .inl ((State.keyWrite_values _ small _).2.2.1.trans (pend n)))
  refine ⟨_, eq, fun good => ?written, fun bad => ?refused⟩
  case written =>
    obtain ⟨written, key, -⟩ := (s.posted m n).nonceNew.keyWrite_values small (tokKey s.token)
    rw [if_pos good]
    refine ⟨State.mboxAnswer_answered _ _ _ (by decide) _ _, ?_, ?_⟩
    · rw [State.keyWritten, State.rd_mboxAnswer _ _ _ _ _ _ _ (by simp [mboxFlds])]
      exact written
    · rw [State.h_mboxAnswer, key]
  case refused =>
    rw [if_neg (by rw [bad]; exact Bool.false_ne_true)]
    refine ⟨State.mboxAnswer_answered _ _ _ (by decide) _ _, ?_, ?_⟩
    · rw [State.keyWritten, State.rd_mboxAnswer _ _ _ _ _ _ _ (by simp [mboxFlds]), State.keysBits_told]
      exact free
    · rw [State.h_mboxAnswer, State.h_nonceNew, State.h_posted]

/-- REVOKE of a written slot in FIELD, SEALED and RETURN (R456). -/
theorem next_revoke (takes : MailTakes s m) (q : BitVec 16) (k : BitVec 32) (low : 1 ≤ k.toNat) (high : k.toNat ≤ 3)
    (field : s.lc = 2 ∨ s.lc = 3 ∨ s.lc = 4) (used : s.keyWritten k.toNat = true) :
    ∃ u : State, exec (.revoke m q k) s = .next u ∧
      (s.tokenOk 9 k.toNat (keySigners k.toNat) = true → Answered u m q.toNat 0 ∧ u.keyLive k.toNat = false) ∧
      (s.tokenOk 9 k.toNat (keySigners k.toNat) = false →
        Answered u m q.toNat 4 ∧ u.keyLive k.toNat = s.keyLive k.toNat) := by
  have runs (n : Nat) : (s.posted m n).revoke k.toNat = if s.tokenOk 9 k.toNat (keySigners k.toNat) = true then
      (0, (s.posted m n).nonceNew.keyRevoked k.toNat) else (4, (s.posted m n).nonceNew) := by
    rw [State.revoke_runs low high (by rw [State.lc_posted]; exact field) (by rw [State.keyWritten_posted, used]),
      State.tokenOk_posted]
  obtain ⟨n, eq⟩ := takes.token (q := q) (op := 9) (g := fun t => t.revoke k.toNat)
    (u := fun t => t.nonceNew.keyRevoked k.toNat) (by decide) (oneWord_small k) (fun _ => rfl) runs
    (fun n => (State.domOn_wr (by decide)).trans ((State.domOn_nonceNew _ _).trans (takes.posted n).1))
    (fun n => .inl ((State.h_wr ..).trans (takes.posted n).2))
  refine ⟨_, eq, fun good => ?revoked, fun bad => ?refused⟩
  case revoked =>
    rw [if_pos good, State.keyLive, State.rd_mboxAnswer _ _ _ _ _ _ _ (by simp [mboxFlds])]
    exact ⟨State.mboxAnswer_answered _ _ _ (by decide) _ _, State.keyLive_keyRevoked _ high⟩
  case refused =>
    rw [if_neg (by rw [bad]; exact Bool.false_ne_true), State.keyLive, State.rd_mboxAnswer _ _ _ _ _ _ _ (by simp [mboxFlds]),
      State.keysBits_told, ← State.keyLive]
    exact ⟨State.mboxAnswer_answered _ _ _ (by decide) _ _, rfl⟩

end Tokens

end Sys2Proof.Machine

/-! The life-cycle transition, SHUTDOWN, LBIST_RUN, ALMANAC_WRITE, CONTEXT_RESTORE, UNMARK and RECOVERY_GO (R462, R469-R478,
R493). -/

namespace Sys2Proof.Machine

variable {s : State}

/-! ## What a start of the main domains keeps by its survival code -/

theorem State.rd_lose_code {ds : List Dom} {lost : List Surv} {f : Fld} (i : Nat) (code : f.desc.surv ∉ lost) :
    (s.lose ds lost).rd f i = s.rd f i :=
  (s.rd_lose ds lost f i).trans (if_neg fun gone => code gone.2.1)

theorem State.rd_startMains_code {kind : Nat} {f : Fld} (i : Nat) (other : f ∉ startFlds) (off : f ∉ lossFlds)
    (code : f.desc.surv ∉ startLost kind) : (s.startMains kind).rd f i = s.rd f i := by
  rw [State.startMains_eq, State.rd_releaseReeve _ _ other, State.mainsOff, State.loseDoms_eq,
    (setDoms_off mainDoms _).1 f i (fun same => off (by simp [lossFlds, same])),
    (s.lossBase_values mainDoms (startLost kind)).1 f i off, State.rd_lose_code i code]

/-- A hidden value that is 0 is 0 after a start, whatever its home. -/
theorem State.h_startMains_zero {kind : Nat} {x : Hid} {i : Nat} (other : x ≠ .ctxRaise) (start : x ≠ .startKind)
    (boot : x ≠ .bootPend) (zero : s.h x i = 0) : (s.startMains kind).h x i = 0 := by
  have lost : (s.lose mainDoms (startLost kind)).h x i = 0 := by
    refine (Assoc.get_filter 0 (x, i) (fun k : Hid × Nat => match k.1.home.dom k.2 with
      | some d => decide (¬ (d ∈ mainDoms ∧ k.1.home.surv ∈ startLost kind))
      | none => true) s.hid).trans ?_
    rw [← State.h, zero, ite_self]
  rw [State.startMains_eq, State.h_releaseReeve _ _ start boot, State.mainsOff, State.loseDoms_eq,
    (setDoms_off mainDoms _).2.1 x i, (s.lossBase_values mainDoms (startLost kind)).2.2.2.1 x i other, lost]

/-! ## The life-cycle transition -/

/-- The main domains are off, and the Ledger's ring is wiped. -/
def State.lcOff (s : State) : State :=
  { ((s.wr (.ree .LC_ARMED) 0 1).mainsOff [.N, .F, .W]) with
    regs := ((s.wr (.ree .LC_ARMED) 0 1).mainsOff [.N, .F, .W]).regs.filter (fun e => decide (e.1.1 ≠ Fld.ree .RING_ENTRY)) }

/-- What a transition writes and erases (Table 14.10). -/
def State.lcWork (u : State) (from_ dst : Nat) : State :=
  if dst = 1 then u.keyWrite 0 (u.h .lcArg)
  else if dst = 2 then (if from_ = 4 then u.bump (.ree .LC_RETURN_USED) 0 else u).wghKeyNew
  else if dst = 4 then u.wghKeyErase
  else if dst = 5 then u.scrapErase
  else u

/-- The new state stands, and nothing waits any more. -/
def State.lcSet (u : State) (dst : Nat) : State :=
  ((((u.wr (.ree .LC_STATE) 0 dst).wr (.wgh .STATUS_SEALED) 0 (if dst = 3 then 1 else 0)).wr (.ree .LC_ARMED) 0 0).setH
    .lcTo 0 0).setH .lcArg 0 0

def State.lcLogged (u : State) (from_ dst : Nat) : State :=
  u.ledger 0x0009 true locReeve (from_ + 256 * dst + 65536 * u.rd (.ree .LC_RETURN_USED) 0)

theorem State.lcDo_eq (s : State) (dst : Nat) :
    s.lcDo dst = (((s.lcOff.lcWork s.lc dst).lcSet dst).lcLogged s.lc dst).startMains 7 := rfl

/-- The event counter of the Weighhouse, once the main domains are off. -/
theorem State.evcnt_lcOff (s : State) : s.lcOff.rd (.wgh .EVCNT) 0 = s.rd (.wgh .EVCNT) 0 := by
  have kept : ((s.wr (.ree .LC_ARMED) 0 1).mainsOff [.N, .F, .W]).rd (.wgh .EVCNT) 0 = s.rd (.wgh .EVCNT) 0 := by
    rw [State.rd_mainsOff (by decide) (.inr rfl), State.rd_wr, if_neg (by decide)]
  rw [State.lcOff]
  generalize (s.wr (.ree .LC_ARMED) 0 1).mainsOff [.N, .F, .W] = u at kept ⊢
  rw [← kept]
  exact (Assoc.get_filter _ _ (fun k : Fld × Nat => decide (k.1 ≠ Fld.ree .RING_ENTRY)) _).trans (if_pos (by decide))

theorem State.evcnt_wghEvent (small : s.rd (.wgh .EVCNT) 0 < 2 ^ 32) (kind id : Nat) :
    s.rd (.wgh .EVCNT) 0 ≤ (s.wghEvent kind id).rd (.wgh .EVCNT) 0 := by
  have width : (Fld.wgh .EVCNT).desc.width = 32 := rfl
  have counted : s.rd (.wgh .EVCNT) 0 ≤ (s.count (.wgh .EVCNT) 0).rd (.wgh .EVCNT) 0 := by
    rw [State.count, State.rd_wr, if_pos ⟨rfl, rfl⟩, trunc_of_lt (satAdd_lt _ _ _), width, satAdd]
    omega
  obtain ⟨entry, eq⟩ := s.wghEvent_eq kind id
  rw [eq]
  split
  · exact counted
  · rw [State.rd_wr, if_neg (by simp)]
    exact counted

/-- The new device key of the Weighhouse stands in its registers. -/
def State.wghKeyed (s : State) (key id : Nat) : State :=
  ((s.nextFree.wr (.wgh .PUBKEY) 0 key).setH .wKey 0 1).wr (.wgh .KEY_ID) 0 id

theorem State.wghKeyNew_eq (s : State) : ∃ key id, s.wghKeyNew = (s.wghKeyed key id).wghEvent 3 0 := by
  unfold State.wghKeyNew
  exact ⟨s.freeVal 512, _, rfl⟩

theorem State.evcnt_wghKeyed (s : State) (key id : Nat) : (s.wghKeyed key id).rd (.wgh .EVCNT) 0 = s.rd (.wgh .EVCNT) 0 := by
  rw [State.wghKeyed, State.rd_wr, if_neg (by decide), State.rd_setH, State.rd_wr, if_neg (by decide)]
  rfl

theorem State.evcnt_wghKeyNew (small : s.rd (.wgh .EVCNT) 0 < 2 ^ 32) :
    s.rd (.wgh .EVCNT) 0 ≤ s.wghKeyNew.rd (.wgh .EVCNT) 0 := by
  obtain ⟨key, id, eq⟩ := s.wghKeyNew_eq
  rw [eq, ← s.evcnt_wghKeyed key id] at *
  exact State.evcnt_wghEvent small 3 0

theorem State.evcnt_wghKeyErase (s : State) : s.wghKeyErase.rd (.wgh .EVCNT) 0 = s.rd (.wgh .EVCNT) 0 := by
  rw [State.wghKeyErase, State.rd_wr, if_neg (by decide), State.rd_wr, if_neg (by decide), State.rd_setH]

theorem State.rd_setHEach (v : Nat → Nat) (l : List Nat) (s : State) (x : Hid) (f : Fld) (i : Nat) :
    (l.foldl (fun t n => t.setH x n (v n)) s).rd f i = s.rd f i := by
  induction l generalizing s with
  | nil => rfl
  | cons e l ih => exact (ih _).trans (State.rd_setH ..)

theorem State.rd_wipe (s : State) (r : Region) (lo hi : Nat) (f : Fld) (i : Nat) : (s.wipe r lo hi).rd f i = s.rd f i := rfl

theorem State.evcnt_scrapErase (s : State) : s.scrapErase.rd (.wgh .EVCNT) 0 = s.rd (.wgh .EVCNT) 0 := by
  have erased : ((List.range 8).foldl (fun s k => s.setH .wDly k 0)
      (((List.range 4).foldl (fun s k => s.setH .keySlot k 0) s.wghKeyErase).wipe .wghNvm 0 (2 ^ 64))).rd (.wgh .EVCNT) 0 =
        s.rd (.wgh .EVCNT) 0 := by
    rw [State.rd_setHEach (fun _ => 0), State.rd_wipe, State.rd_setHEach (fun _ => 0), State.evcnt_wghKeyErase]
  unfold State.scrapErase
  dsimp only
  generalize (List.range 8).foldl (fun s k => s.setH .wDly k 0)
    (((List.range 4).foldl (fun s k => s.setH .keySlot k 0) s.wghKeyErase).wipe .wghNvm 0 (2 ^ 64)) = u at erased ⊢
  rw [← erased]
  exact (Assoc.get_filter _ _ (fun k : Fld × Nat => decide (¬ (k.1.desc.grp.info.blk = .wgh ∧ k.1.desc.nvm)) ||
    [Fld.wgh .EVCNT, .wgh .ATTEMPT, .wgh .HEAD_RECNO].contains k.1) _).trans (if_pos (by decide))

/-- No transition takes from the event counter of the Weighhouse. -/
theorem State.evcnt_lcWork (small : s.rd (.wgh .EVCNT) 0 < 2 ^ 32) (from_ dst : Nat) :
    s.rd (.wgh .EVCNT) 0 ≤ (s.lcWork from_ dst).rd (.wgh .EVCNT) 0 := by
  unfold State.lcWork
  split
  · rw [State.keyWrite, State.rd_wr, if_neg (by decide), State.rd_setH]
  · split
    · have same : (if from_ = 4 then s.bump (.ree .LC_RETURN_USED) 0 else s).rd (.wgh .EVCNT) 0 = s.rd (.wgh .EVCNT) 0 := by
        split
        · rw [State.bump, State.rd_wr, if_neg (by decide)]
        · rfl
      rw [← same] at small ⊢
      exact State.evcnt_wghKeyNew small
    · split
      · exact s.evcnt_wghKeyErase.ge
      · split
        · exact s.evcnt_scrapErase.ge
        · exact Nat.le_refl _

theorem State.lcSet_values (u : State) {dst : Nat} (known : dst ≤ 5) : (u.lcSet dst).rd (.ree .LC_STATE) 0 = dst ∧
    (u.lcSet dst).rd (.ree .LC_ARMED) 0 = 0 ∧ (u.lcSet dst).rd (.wgh .EVCNT) 0 = u.rd (.wgh .EVCNT) 0 := by
  refine ⟨?_, by simp [State.lcSet], by simp [State.lcSet]⟩
  rw [State.lcSet, State.rd_setH, State.rd_setH, State.rd_wr, if_neg (by decide), State.rd_wr, if_neg (by decide), State.rd_wr,
    if_pos ⟨rfl, rfl⟩]
  exact Nat.mod_eq_of_lt (Nat.lt_of_le_of_lt known (by decide))

theorem State.rd_lcLogged (u : State) (from_ dst : Nat) {f : Fld} (i : Nat) (ring : f ∉ ledgerFlds) :
    (u.lcLogged from_ dst).rd f i = u.rd f i := State.rd_ledger (m := ring) ..

/-- What a transition leaves (R469, Table 14.10). -/
theorem State.lcDo_values (s : State) {d : Nat} (known : d ≤ 5) (small : s.rd (.wgh .EVCNT) 0 < 2 ^ 32) : (s.lcDo d).lc = d ∧
    (s.lcDo d).on (.ree .LC_ARMED) 0 = false ∧ s.rd (.wgh .EVCNT) 0 ≤ (s.lcDo d).rd (.wgh .EVCNT) 0 := by
  have worked := State.evcnt_lcWork (s := s.lcOff) (by rw [s.evcnt_lcOff]; exact small) s.lc d
  rw [s.evcnt_lcOff] at worked
  rw [State.lcDo_eq]
  obtain ⟨state, armed, events⟩ := (s.lcOff.lcWork s.lc d).lcSet_values known
  refine ⟨?_, ?_, ?_⟩
  · rw [State.lc, State.rd_startMains (by decide) (.inr rfl), State.rd_lcLogged _ _ _ _ (by decide), state]
  · rw [State.on, State.rd_startMains_code _ (by decide) (by decide) (by decide), State.rd_lcLogged _ _ _ _ (by decide), armed]
    rfl
  · rw [State.rd_startMains (by decide) (.inr rfl), State.rd_lcLogged _ _ _ _ (by decide), events]
    exact worked

end Sys2Proof.Machine

/-! The mailbox commands of the Reeve's services, assembled (R462, R469-R478, R493). -/

namespace Sys2Proof.Machine

variable {s : State}

/-! ## A self-test that the part runs -/

/-- The Hearth takes the coarse timescale, and after the set's time its verdict is stored (R474, R478). -/
def State.selfTested (s : State) (full : Bool) (n : Nat) : State :=
  ((s.nextFree.coarseTake).passAge (s.age + msTicks (lbMs s.variant full))).lbStore full n

theorem State.rd_coarseTake (s : State) {f : Fld} (i : Nat) (other : f ≠ .hrt .COARSE_ST_VALID) :
    s.coarseTake.rd f i = s.rd f i := by
  unfold State.coarseTake
  split
  · show (s.wr (.hrt .COARSE_ST_VALID) 0 1).rd f i = _
    rw [State.rd_wr, if_neg (fun same => other same.1)]
  · rfl

theorem State.h_coarseTake (s : State) (x : Hid) (i : Nat) : s.coarseTake.h x i = s.h x i := by
  unfold State.coarseTake
  split
  · show (s.wr (.hrt .COARSE_ST_VALID) 0 1).h x i = s.h x i
    exact State.h_wr ..
  · rfl

theorem State.selfTested_values (s : State) (full : Bool) (n : Nat) :
    (∀ f i, f.isMgmt = true → f ∉ lbFlds → f ≠ .hrt .COARSE_ST_VALID → (s.selfTested full n).rd f i = s.rd f i) ∧
    (∀ x i, x ∉ unitHids → x ≠ .verdAge → x ≠ .verdSpan → (s.selfTested full n).h x i = s.h x i) ∧
    (s.selfTested full n).rd (.ree .LBIST_VALID) 0 = 1 ∧ (s.selfTested full n).rd (.ree .LBIST_FULL) 0 = full.toNat ∧
    (s.selfTested full n).rd (.ree .BOOT_CNT) 0 = 0 := by
  obtain ⟨rd, h, stored⟩ := ((s.nextFree.coarseTake).passAge (s.age + msTicks (lbMs s.variant full))).lbStore_values full n
  refine ⟨fun f i mgmt other coarse => ?_, fun x i unit age span => ?_, stored⟩
  · rw [State.selfTested, rd f i mgmt other, State.rd_passAge, State.rd_coarseTake _ _ coarse]
    rfl
  · rw [State.selfTested, h x i unit age span, State.h_passAge, State.h_coarseTake]
    rfl

/-! ## SHUTDOWN -/

/-- The shutdown has begun, the outcome of its self-test kept. -/
def State.shutBegun (s : State) (b : Bool) (n : Nat) : State := (s.setH .shut 0 (if b then 1 else 2)).setH .lbRes 0 (n + 1)

theorem State.relinquish_idle (passive : s.role ≠ twACTIVE) : s.relinquish = s := if_neg fun both => passive both.1

theorem State.shutdown_busy (busy : s.h .shut ≠ 0) (b : Bool) (v : Option Nat) : s.shutdown b v = (1, s) := if_pos (.inl busy)

theorem State.shutdown_begins (idle : s.h .shut = 0) (free : s.h .lcPend = 0) (passive : s.role ≠ twACTIVE) (b : Bool)
    (n : Nat) :
    s.shutdown b (some n) = if s.mode = modeService then (7, (s.shutBegun b n).shutService)
      else (7, (s.shutBegun b n).intRequest { mode := modeService + 1 }) := by
  have passive' : (s.shutBegun b n).role ≠ twACTIVE := passive
  unfold State.shutdown
  rw [if_neg (by simp [idle, free])]
  show (if (s.shutBegun b n).relinquish.mode = modeService then (7, (s.shutBegun b n).relinquish.shutService)
    else (7, (s.shutBegun b n).relinquish.intRequest { mode := modeService + 1 })) = _
  rw [State.relinquish_idle passive']
  rfl

/-- The self-test of a shutdown that has one. -/
def State.shutTested (u : State) : State :=
  if u.h .shut = 1 then u.selfTested false (if u.h .lbRes = 0 then u.freeVal 95 else u.h .lbRes - 1) else u

theorem State.shutService_eq (u : State) : u.shutService =
    ((u.shutTested.raise .REE_SHUTDOWN_DONE locReeve).setH .shut 0 3).intRequest { mode := modeDormant + 1 } := rfl

theorem State.shutTested_values (u : State) :
    (∀ f i, f.isMgmt = true → f ∉ lbFlds → f ≠ .hrt .COARSE_ST_VALID → u.shutTested.rd f i = u.rd f i) ∧
    u.shutTested.h .lcPend = u.h .lcPend ∧
    (u.h .shut = 1 → u.shutTested.rd (.ree .LBIST_VALID) 0 = 1 ∧ u.shutTested.rd (.ree .LBIST_FULL) 0 = 0 ∧
      u.shutTested.rd (.ree .BOOT_CNT) 0 = 0) ∧
    (u.h .shut ≠ 1 → u.shutTested.rd (.ree .BOOT_CNT) 0 = u.rd (.ree .BOOT_CNT) 0) := by
  unfold State.shutTested
  split
  case isTrue tests =>
    obtain ⟨rd, h, valid, full, starts⟩ := u.selfTested_values false (if u.h .lbRes = 0 then u.freeVal 95 else u.h .lbRes - 1)
    exact ⟨rd, h _ _ (by decide) (by decide) (by decide), fun _ => ⟨valid, full, starts⟩, fun other => absurd tests other⟩
  case isFalse other => exact ⟨fun _ _ _ _ _ => rfl, rfl, fun tests => absurd tests other, fun _ => rfl⟩

/-- What follows the self-test: the event, the state of the shutdown, the request of DORMANT. -/
def State.shutTold (t : State) : State :=
  ((t.raise .REE_SHUTDOWN_DONE locReeve).setH .shut 0 3).intRequest { mode := modeDormant + 1 }

theorem State.shutTold_values (t : State) : (∀ f i, f.isMgmt = true → t.shutTold.rd f i = t.rd f i) ∧
    t.shutTold.h .lcPend = t.h .lcPend ∧ t.shutTold.h .shut = 3 ∧ t.shutTold.h .intMode = modeDormant + 1 := by
  have told : UnitsOnly t (t.raise .REE_SHUTDOWN_DONE locReeve) := UnitsOnly.refl.raise _ _ _ _
  rw [State.shutTold]
  have calls := (CallsOnly.refl (s := (t.raise .REE_SHUTDOWN_DONE locReeve).setH .shut 0 3)).intRequest
    { mode := modeDormant + 1 }
  refine ⟨fun f i mgmt => ?_, ?_, ?_, State.intMode_intRequest _ _⟩
  · rw [calls.rd f i mgmt, State.rd_setH, told.rd f i mgmt]
  · rw [calls.h _ _ (by decide) (by decide), State.h_setH_other _ _ _ _ (by decide), told.h _ _ (by decide)]
  · rw [calls.h _ _ (by decide) (by decide), State.h_setH, if_pos ⟨rfl, rfl⟩]

theorem shutWord_small (b : Bool) : ∀ x ∈ [b.toNat], x < 2 ^ 32 := by
  cases b <;> decide

theorem State.mboxDo_shutdown (t : State) (m q : Nat) (b : Bool) (v : Option Nat) :
    t.mboxDo m 10 (mailWords 10 q [b.toNat]) v = mbPlain (t.shutdown b v) := by
  cases b <;> rfl

section Shutdown
variable {m : Fin 2}

/-- SHUTDOWN outside SERVICE asks for SERVICE (R474). -/
theorem next_shutdown (takes : MailTakes s m) (q : BitVec 16) (b : Bool) (v : Lbist) (idle : s.h .shut = 0)
    (away : s.mode ≠ modeService) (passive : s.role ≠ twACTIVE) :
    ∃ u : State, exec (.shutdown m q b v) s = .next u ∧ Answered u m q.toNat 7 ∧ u.h .shut = (if b then 1 else 2) ∧
      u.h .intMode = modeService + 1 := by
  have calls (n : Nat) := (CallsOnly.refl (s := (s.posted m n).shutBegun b (lbPack v))).intRequest { mode := modeService + 1 }
  have begun (n : Nat) (x : Hid) (shut : x ≠ .shut) (res : x ≠ .lbRes) :
      ((s.posted m n).shutBegun b (lbPack v)).h x 0 = s.h x 0 := by
    rw [State.shutBegun, State.h_setH_other _ _ _ _ res, State.h_setH_other _ _ _ _ shut, State.h_posted]
  obtain ⟨n, eq⟩ := takes.plain (q := q) (v := some (lbPack v)) (op := 10) (g := fun t => t.shutdown b (some (lbPack v)))
    (u := fun t => (t.shutBegun b (lbPack v)).intRequest { mode := modeService + 1 }) (by decide) (shutWord_small b)
    (fun t => t.mboxDo_shutdown m q.toNat b _)
    (fun n => (State.shutdown_begins (s := s.posted m n) idle takes.idle (by rw [State.role_posted]; exact passive) b _).trans
      (if_neg (by rw [State.mode_posted]; exact away)))
    (fun n => by
      rw [State.domOn, State.domState, (calls n).rd _ _ rfl]
      exact (takes.posted n).1)
    (fun n => .inl (((calls n).h _ _ (by decide) (by decide)).trans ((begun n _ (by decide) (by decide)).trans takes.idle)))
  refine ⟨_, eq, State.mboxAnswer_answered _ _ _ (by decide) _ _, ?_, ?_⟩
  · rw [State.h_mboxAnswer, (calls n).h _ _ (by decide) (by decide), State.shutBegun, State.h_setH_other _ _ _ _ (by decide),
      State.h_setH, if_pos ⟨rfl, rfl⟩]
  · rw [State.h_mboxAnswer, State.intMode_intRequest]

/-- SHUTDOWN in SERVICE ends with its event and the request of DORMANT (R474). -/
theorem next_shutdown_service (takes : MailTakes s m) (q : BitVec 16) (b : Bool) (v : Lbist) (idle : s.h .shut = 0)
    (serviced : s.mode = modeService) (passive : s.role ≠ twACTIVE) :
    ∃ u : State, exec (.shutdown m q b v) s = .next u ∧ Answered u m q.toNat 7 ∧ u.h .shut = 3 ∧
      u.h .intMode = modeDormant + 1 ∧ (b = true → u.on (.ree .LBIST_VALID) 0 = true ∧ u.rd (.ree .BOOT_CNT) 0 = 0 ∧
        u.on (.ree .LBIST_FULL) 0 = false) ∧
      (b = false → u.rd (.ree .BOOT_CNT) 0 = s.rd (.ree .BOOT_CNT) 0) := by
  have tested (n : Nat) := ((s.posted m n).shutBegun b (lbPack v)).shutTested_values
  have told (n : Nat) := (((s.posted m n).shutBegun b (lbPack v)).shutTested).shutTold_values
  have rd (n : Nat) (f : Fld) (i : Nat) : ((s.posted m n).shutBegun b (lbPack v)).rd f i = (s.posted m n).rd f i := by
    rw [State.shutBegun, State.rd_setH, State.rd_setH]
  have shut (n : Nat) : ((s.posted m n).shutBegun b (lbPack v)).h .shut = if b then 1 else 2 := by
    rw [State.shutBegun, State.h_setH_other _ _ _ _ (by decide), State.h_setH, if_pos ⟨rfl, rfl⟩]
  have pend (n : Nat) : ((s.posted m n).shutBegun b (lbPack v)).h .lcPend = 0 := by
    rw [State.shutBegun, State.h_setH_other _ _ _ _ (by decide), State.h_setH_other _ _ _ _ (by decide), State.h_posted,
        takes.idle]
  obtain ⟨n, eq⟩ := takes.plain (q := q) (v := some (lbPack v)) (op := 10) (g := fun t => t.shutdown b (some (lbPack v)))
    (u := fun t => (t.shutBegun b (lbPack v)).shutTested.shutTold) (by decide) (shutWord_small b)
    (fun t => t.mboxDo_shutdown m q.toNat b _)
    (fun n => (State.shutdown_begins (s := s.posted m n) idle takes.idle (by rw [State.role_posted]; exact passive) b _).trans
      ((if_pos (by rw [State.mode_posted]; exact serviced)).trans (congrArg (Prod.mk 7) (State.shutService_eq _))))
    (fun n => by
      rw [State.domOn, State.domState, (told n).1 _ _ rfl, (tested n).1 _ _ rfl (by decide) (by decide), rd]
      exact (takes.posted n).1)
    (fun n => .inl ((told n).2.1.trans ((tested n).2.1.trans (pend n))))
  obtain ⟨toldRd, -, done, asked⟩ := told n
  obtain ⟨-, -, test, none_⟩ := tested n
  refine ⟨_, eq, State.mboxAnswer_answered _ _ _ (by decide) _ _, ?_, ?_, fun with_ => ?_, fun without => ?_⟩
  · rw [State.h_mboxAnswer, done]
  · rw [State.h_mboxAnswer, asked]
  · obtain ⟨valid, full, starts⟩ := test (by rw [shut, with_]; rfl)
    refine ⟨?_, ?_, ?_⟩
    · rw [State.on, State.rd_mboxAnswer _ _ _ _ _ _ _ (by simp [mboxFlds]), toldRd _ _ rfl, valid]
      rfl
    · rw [State.rd_mboxAnswer _ _ _ _ _ _ _ (by simp [mboxFlds]), toldRd _ _ rfl, starts]
    · rw [State.on, State.rd_mboxAnswer _ _ _ _ _ _ _ (by simp [mboxFlds]), toldRd _ _ rfl, full]
      rfl
  · rw [State.rd_mboxAnswer _ _ _ _ _ _ _ (by simp [mboxFlds]), toldRd _ _ rfl, none_ (by rw [shut, without]; decide), rd,
      State.rd_posted _ _ _ _ (by decide) (by decide)]

/-! ## LBIST_RUN -/

theorem State.lbistRun_refused (v : Option Nat) (no : s.mode ≠ modeService ∨ s.role = twACTIVE ∨ s.updating = true) :
    s.lbistRun v = (3, s) := if_pos no

theorem State.lbistRun_runs (n : Nat) (serviced : s.mode = modeService) (passive : s.role ≠ twACTIVE)
    (still : s.updating = false) (good : s.mainsGood = true) (free : s.mainsFree = true) :
    s.lbistRun (some n) = (7, (s.selfTested true n).startMains 1) := by
  obtain ⟨rd, h, -⟩ := s.selfTested_values true n
  have good' : (s.selfTested true n).mainsGood = true := by
    rw [State.mainsGood, rd _ _ rfl (by decide) (by decide)]
    exact good
  have free' : (s.selfTested true n).mainsFree = true := by
    rw [State.mainsFree, h _ _ (by decide) (by decide) (by decide), h _ _ (by decide) (by decide) (by decide)]
    exact free
  unfold State.lbistRun
  rw [if_neg (by simp [serviced, passive, still])]
  show (7, (s.selfTested true n).startWhen 1) = _
  rw [State.startWhen_now good' free']

theorem State.mboxDone_off {m : Fin 2} {q code det data : Nat} {u : State} (off : u.domOn .reeve = false)
    (idle : u.h .lcPend = 0) : State.mboxDone m q (code, det, data, u) = u := by
  have silent : (if u.domOn .reeve = true then u.mboxAnswer m q code det data else u) = u :=
    if_neg (by rw [off]; exact Bool.false_ne_true)
  unfold State.mboxDone
  dsimp only
  rw [silent, if_neg (fun both => both.1 idle)]

/-- What LBIST_RUN leaves: its verdict, and a part that starts again (R478). -/
theorem State.testedStart_values (s : State) (n : Nat) (idle : s.h .lcPend = 0) :
    ((s.selfTested true n).startMains 1).on (.ree .LBIST_VALID) 0 = true ∧
    ((s.selfTested true n).startMains 1).on (.ree .LBIST_FULL) 0 = true ∧
    ((s.selfTested true n).startMains 1).rd (.hrt .RESET_LAST) 0 = 1 ∧ ((s.selfTested true n).startMains 1).h .bootPend = 1 ∧
    ((s.selfTested true n).startMains 1).domOn .reeve = false ∧ ((s.selfTested true n).startMains 1).h .lcPend = 0 := by
  obtain ⟨-, h, valid, full, -⟩ := s.selfTested_values true n
  have pend : (s.selfTested true n).h .lcPend = 0 := (h _ _ (by decide) (by decide) (by decide)).trans idle
  refine ⟨?_, ?_, State.resetLast_startMains _ 1, State.bootPend_startMains _ _, ?_, ?_⟩
  · rw [State.on, State.rd_startMains_code _ (by decide) (by decide) (by decide), valid]
    rfl
  · rw [State.on, State.rd_startMains_code _ (by decide) (by decide) (by decide), full]
    rfl
  · exact State.domOn_of_domState (State.domState_startMains _ _ .reeve) rfl
  · exact State.h_startMains_zero (by decide) (by decide) (by decide) pend

theorem next_lbistRun (takes : MailTakes s m) (q : BitVec 16) (v : Lbist) (serviced : s.mode = modeService)
    (passive : s.role ≠ twACTIVE) (still : s.updating = false) (good : s.mainsGood = true) (free : s.mainsFree = true) :
    ∃ u : State, exec (.lbistRun m q v) s = .next u ∧ u.on (.ree .LBIST_VALID) 0 = true ∧
      u.on (.ree .LBIST_FULL) 0 = true ∧ u.rd (.hrt .RESET_LAST) 0 = 1 ∧ u.h .bootPend = 1 ∧ u.domOn .reeve = false := by
  obtain ⟨n, eq⟩ := takes.run (q := q) (v := some (lbPack v)) (op := 11) (by decide) noWords_small
  have supplies : (s.posted m n).mainsGood = true := by
    rw [State.mainsGood, State.rd_posted _ _ _ _ (by decide) (by decide)]
    exact good
  have row : (s.posted m n).mboxDo m 11 (mailWords 11 q.toNat []) (some (lbPack v)) =
      (7, 0, 0, ((s.posted m n).selfTested true (lbPack v)).startMains 1) := by
    show mbPlain ((s.posted m n).lbistRun (some (lbPack v))) = _
    rw [State.lbistRun_runs _ (by rw [State.mode_posted, serviced]) (by rw [State.role_posted]; exact passive)
      (by rw [State.updating_posted, still]) supplies free]
    rfl
  obtain ⟨valid, full, last, boot, off, idle⟩ := (s.posted m n).testedStart_values (lbPack v) takes.idle
  refine ⟨_, congrArg Host.Outcome.next ?_, valid, full, last, boot, off⟩
  rw [eq, row, State.mboxDone_off off idle]

end Shutdown

end Sys2Proof.Machine

/-! ALMANAC_WRITE, CONTEXT_RESTORE, UNMARK and RECOVERY_GO; the statement on the Reeve's commands (R120, R462, R476, R493). -/

namespace Sys2Proof.Machine

variable {s : State}

/-! ## ALMANAC_WRITE -/

theorem State.almWrite_refused {k a : Nat} (no : s.mode ≠ modeService ∨ s.variant ≠ .x ∨ s.lc = 3) : s.almWrite k a = (3, s) :=
  if_pos no

/-- Almanac set k is rewritten, and logged. -/
def State.almStored (s : State) (k : Nat) (l : List Byte) : State :=
  ((((s.setBytes .almanac (k * Config.almSetLen) l).setH .almImg k (1 + leNat l))).setH .almBad 0
    (clrBit k (((s.setBytes .almanac (k * Config.almSetLen) l).setH .almImg k (1 + leNat l)).h .almBad))).ledger 0x8000 true
      locReeve k .reeve

/-- The lanes evaluate their calibrations anew. -/
def State.lanesEvaluated (s : State) : State := (List.range 74).foldl (fun s n => if s.up .LANE n then s.calEval n else s) s

theorem State.almWrite_range {k a : Nat} (serviced : s.mode = modeService) (variant : s.variant = .x) (open_ : s.lc ≠ 3)
    (bad : 17 ≤ k ∨ crc32c ((s.bytes .host a Config.almSetLen).take ((s.bytes .host a Config.almSetLen).length - 4)) ≠
      imgAt (s.bytes .host a Config.almSetLen) ((s.bytes .host a Config.almSetLen).length - 4) 4) :
    s.almWrite k a = (2, s) := by
  unfold State.almWrite
  dsimp only
  rw [if_neg (by simp [serviced, variant, open_]), if_pos bad]

theorem State.almWrite_good {k a : Nat} (serviced : s.mode = modeService) (variant : s.variant = .x) (open_ : s.lc ≠ 3)
    (known : k < 17) (good : crc32c ((s.bytes .host a Config.almSetLen).take ((s.bytes .host a Config.almSetLen).length - 4)) =
      imgAt (s.bytes .host a Config.almSetLen) ((s.bytes .host a Config.almSetLen).length - 4) 4) :
    s.almWrite k a = (0, (s.almStored k (s.bytes .host a Config.almSetLen)).lanesEvaluated) := by
  have fits : ¬ (17 ≤ k ∨ crc32c ((s.bytes .host a Config.almSetLen).take ((s.bytes .host a Config.almSetLen).length - 4)) ≠
      imgAt (s.bytes .host a Config.almSetLen) ((s.bytes .host a Config.almSetLen).length - 4) 4) := by
    rintro (out | other)
    · omega
    · exact other good
  unfold State.almWrite
  dsimp only
  rw [if_neg (by simp [serviced, variant, open_]), if_neg fits]
  rfl

theorem State.lanesEvaluated_only (s : State) : UnitsOnly s s.lanesEvaluated :=
  foldS UnitsOnly.refl fun _ n b => iteS (b.calEval n) b

theorem State.almStored_values (s : State) (k : Nat) (l : List Byte) :
    (∀ f i, f.isMgmt = true → (s.almStored k l).rd f i = s.rd f i) ∧ (s.almStored k l).h .lcPend = s.h .lcPend ∧
    bit k ((s.almStored k l).h .almBad) = false := by
  rw [State.almStored]
  generalize stored : (s.setBytes .almanac (k * Config.almSetLen) l).setH .almImg k (1 + leNat l) = u
  have rd (f : Fld) (i : Nat) : u.rd f i = s.rd f i := by rw [← stored, State.rd_setH, State.rd_setBytes]
  have pend : u.h .lcPend = s.h .lcPend := by rw [← stored, State.h_setH_other _ _ _ _ (by decide), State.h_setBytes]
  have logged : UnitsOnly (u.setH .almBad 0 (clrBit k (u.h .almBad)))
    ((u.setH .almBad 0 (clrBit k (u.h .almBad))).ledger 0x8000 true locReeve k .reeve) := UnitsOnly.refl.ledger _ _ _ _ _
  refine ⟨fun f i mgmt => ?_, ?_, ?_⟩
  · rw [logged.rd f i mgmt, State.rd_setH, rd]
  · rw [logged.h _ _ (by decide), State.h_setH_other _ _ _ _ (by decide), pend]
  · rw [logged.h _ _ (by decide), State.h_setH, if_pos ⟨rfl, rfl⟩, bit_clrBit_self]

theorem almWords_small (k : BitVec 32) (x : BitVec 64) : ∀ y ∈ k.toNat :: twoWords x.toNat, y < 2 ^ 32 := by
  intro y among
  rcases List.mem_cons.mp among with rfl | word
  · exact k.isLt
  · exact twoWords_small x y word

theorem State.mboxDo_almanac (t : State) (m q k x : Nat) (v : Option Nat) :
    t.mboxDo m 12 (mailWords 12 q (k :: twoWords x)) v = mbPlain (t.almWrite k x) :=
  congrArg (fun a => mbPlain (t.almWrite k a)) (twoWords_sum x)

/-! ## CONTEXT_RESTORE -/

theorem State.ctxRestore_range {k : Nat} (none_ : Dom.all[k]? = none) : s.ctxRestore k = (2, s) := by
  rw [State.ctxRestore, none_]

theorem State.ctxRestore_missing {k : Nat} {d : Dom} (named : Dom.all[k]? = some d)
    (no : bit k (s.h .ctxHave) = false ∨ s.domOn d = false) : s.ctxRestore k = (3, s) := by
  rw [State.ctxRestore, named]
  refine if_pos ?_
  rcases no with missing | off
  · exact .inl (by rw [missing]; exact Bool.false_ne_true)
  · exact .inr (by rw [off]; exact Bool.false_ne_true)

/-- The saved fields of domain d are written back. -/
def State.ctxWritten (s : State) (d : Dom) : State :=
  (s.ctx.filter (fun x => decide (fldDom x.1.1 x.1.2 = d))).foldl (fun s x => s.wr x.1.1 x.1.2 x.2) s

/-- The lanes of domain d follow their settings again. -/
def State.lanesApplied (s : State) (d : Dom) : State :=
  (List.range 74).foldl (fun s n => if laneDom n = d ∧ s.rd (.lane .CTL_MODE) n ≠ 0 then s.laneApply n else s) s

theorem State.ctxRestore_runs {k : Nat} {d : Dom} (named : Dom.all[k]? = some d) (have_ : bit k (s.h .ctxHave) = true)
    (on_ : s.domOn d = true) :
    s.ctxRestore k = (0, ((s.ctxWritten d).lanesApplied d).clrBitF (.hrt .CTX_CONTEXT_LOST) 0 k) := by
  rw [State.ctxRestore, named]
  exact if_neg (by simp [have_, on_])

/-- Fields of another domain stand. -/
theorem State.rd_wrEach {f : Fld} {i : Nat} (l : List ((Fld × Nat) × Nat)) (s : State) (other : ∀ x ∈ l, x.1 ≠ (f, i)) :
    (l.foldl (fun s x => s.wr x.1.1 x.1.2 x.2) s).rd f i = s.rd f i := by
  induction l generalizing s with
  | nil => rfl
  | cons e l ih =>
    rw [List.foldl_cons, ih _ (fun x among => other x (List.mem_cons_of_mem _ among)), State.rd_wr, if_neg]
    rintro ⟨same, index⟩
    exact other e List.mem_cons_self (Prod.ext same.symm index.symm)

theorem State.rd_ctxWritten (s : State) {d : Dom} {f : Fld} {i : Nat} (outside : fldDom f i ≠ d) :
    (s.ctxWritten d).rd f i = s.rd f i := by
  refine State.rd_wrEach _ _ fun x among same => outside ?_
  have own := of_decide_eq_true (List.mem_filter.mp among).2
  rw [same] at own
  exact own

theorem State.lanesApplied_only (s : State) (d : Dom) : UnitsOnly s (s.lanesApplied d) :=
  foldS UnitsOnly.refl fun _ n b => iteS (b.laneApply n) b

/-- What a restored context leaves of the domains' states, and of CTX_CONTEXT_LOST. -/
theorem State.ctxRestored_values (s : State) (k : Nat) {d : Dom} (other : d ≠ .hearth) :
    (((s.ctxWritten d).lanesApplied d).clrBitF (.hrt .CTX_CONTEXT_LOST) 0 k).domOn .reeve = s.domOn .reeve ∧
    (((s.ctxWritten d).lanesApplied d).clrBitF (.hrt .CTX_CONTEXT_LOST) 0 k).h .lcPend = s.h .lcPend ∧
    bit k ((((s.ctxWritten d).lanesApplied d).clrBitF (.hrt .CTX_CONTEXT_LOST) 0 k).rd
      (.hrt .CTX_CONTEXT_LOST) 0) = false := by
  have lanes := (s.ctxWritten d).lanesApplied_only d
  have power : (s.ctxWritten d).rd (.hrt .PWR_STAT_STATE) 0 = s.rd (.hrt .PWR_STAT_STATE) 0 :=
    s.rd_ctxWritten (fun own => other own.symm)
  have pend : (s.ctxWritten d).h .lcPend = s.h .lcPend := State.h_wrEach _ _ _ _
  refine ⟨?_, ?_, ?_⟩
  · rw [State.clrBitF, State.domOn_wr (by decide), State.domOn, State.domState, lanes.rd _ _ rfl, power]
    rfl
  · rw [State.clrBitF, State.h_wr, lanes.h _ _ (by decide), pend]
  · rw [State.clrBitF, State.rd_wr, if_pos ⟨rfl, rfl⟩, bit_trunc, bit_clrBit_self, Bool.and_false]

/-! ## UNMARK -/

theorem find_locEngine : ∀ e : Fin 16, (List.range 16).find? (fun n => locEngine n == locEngine e) = some e.val := by decide

/-- The mark of engine e is taken back. -/
def State.engUnmarked (s : State) (e : Nat) : State :=
  ((s.wr (.eng .CTL_UNUSABLE) e 0).wr (.eng .CTL_MARK) e 0).setH .markWhy e 0

theorem State.unmark_engine {e : Nat} (known : e < 16) :
    s.unmark (locEngine e) = if 2 ≤ s.h .markWhy e then (0, s.engUnmarked e) else (3, s) := by
  unfold State.unmark
  rw [find_locEngine ⟨e, known⟩]
  rfl

theorem State.engUnmarked_values (s : State) (e : Nat) : (s.engUnmarked e).on (.eng .CTL_UNUSABLE) e = false ∧
    (s.engUnmarked e).h .markWhy e = 0 ∧ (s.engUnmarked e).domOn .reeve = s.domOn .reeve ∧
    (s.engUnmarked e).h .lcPend = s.h .lcPend := by
  have unmarked : ReeveHeld s ((s.wr (.eng .CTL_UNUSABLE) e 0).wr (.eng .CTL_MARK) e 0) :=
    (ReeveHeld.refl.wr _ _ _ rfl).wr _ _ _ rfl
  have held := unmarked.setH .markWhy e 0 (by decide)
  refine ⟨?_, ?_, held.domOn _, held.pend⟩
  · rw [State.on, State.engUnmarked, State.rd_setH, State.rd_wr, if_neg (by simp), State.rd_wr, if_pos ⟨rfl, rfl⟩]
    rfl
  · rw [State.engUnmarked, State.h_setH, if_pos ⟨rfl, rfl⟩]

theorem State.mboxDo_unmark (t : State) (serviced : t.mode = modeService) (m q x : Nat) (v : Option Nat) :
    t.mboxDo m 14 (mailWords 14 q [x]) v = mbPlain (t.unmark x) := if_pos serviced

theorem State.mboxDo_unmark_refused (t : State) (away : t.mode ≠ modeService) (m : Nat) (w : List Nat) (v : Option Nat) :
    t.mboxDo m 14 w v = (3, 0, 0, t) := if_neg away

/-! ## RECOVERY_GO -/

theorem State.recoveryGo_booted (fw : s.rd (.ree .STATUS_RSTATE) 0 ≠ 2) : s.recoveryGo = (3, 0, s) := if_pos fw

theorem State.recoveryGo_staged {l : List Byte} (staged : l = s.bytes .reeStage 0 (s.rdMem .reeStage 8 4))
    (rom : s.rd (.ree .STATUS_RSTATE) 0 = 2) (fits : l.length ≤ 0x200000) (class_ : imgCLASS l = 2) :
    s.recoveryGo = if s.imgCode l ≠ 0 then (5, s.imgCode l, s.imgRefused (s.imgCode l) l .rom)
      else (0, 0, (s.reeveRun l).modeStartUp) := by
  unfold State.recoveryGo
  have code : (if 0x200000 < l.length then 1 else if imgCLASS l ≠ 2 ∧ ¬ imgCode1 l = true then 2 else s.imgCode l) =
      s.imgCode l :=
    (if_neg (Nat.not_lt.mpr fits)).trans (if_neg fun other => other.1 class_)
  rw [← staged]
  dsimp only
  rw [code, if_neg (not_not_intro rom)]

/-! ## The statement -/

section Commands
variable {m : Fin 2} {q : BitVec 16}

theorem next_almanacWrite_refused (takes : MailTakes s m) (k : BitVec 32) (x : BitVec 64)
    (no : s.mode ≠ modeService ∨ s.variant ≠ .x ∨ s.lc = 3) : ∃ u : State, exec (.almanacWrite m q k x) s = .next u ∧
      Answered u m q.toNat 3 ∧ Frame s u (mboxFlds m) [] := by
  refine takes.plainRefused (v := none) (g := fun t => t.almWrite k.toNat x.toNat) (by decide) (almWords_small k x)
    (fun t => t.mboxDo_almanac _ _ _ _ _) (by decide) fun n => State.almWrite_refused ?_
  rw [State.mode_posted, State.lc_posted]
  exact no

theorem next_almanacWrite_range (takes : MailTakes s m) (k : BitVec 32) (x : BitVec 64) {l : List Byte}
    (read : l = s.bytes .host x.toNat Config.almSetLen) (serviced : s.mode = modeService) (variant : s.variant = .x)
    (open_ : s.lc ≠ 3) (bad : 17 ≤ k.toNat ∨ crc32c (l.take (l.length - 4)) ≠ imgAt l (l.length - 4) 4) :
    ∃ u : State, exec (.almanacWrite m q k x) s = .next u ∧ Answered u m q.toNat 2 ∧ Frame s u (mboxFlds m) [] := by
  subst read
  refine takes.plainRefused (v := none) (g := fun t => t.almWrite k.toNat x.toNat) (by decide) (almWords_small k x)
    (fun t => t.mboxDo_almanac _ _ _ _ _) (by decide) fun n => State.almWrite_range ?_ variant ?_ ?_
  · rw [State.mode_posted, serviced]
  · rw [State.lc_posted]
    exact open_
  · rw [State.bytes_posted]
    exact bad

theorem next_almanacWrite (takes : MailTakes s m) (k : BitVec 32) (x : BitVec 64) {l : List Byte}
    (read : l = s.bytes .host x.toNat Config.almSetLen) (serviced : s.mode = modeService) (variant : s.variant = .x)
    (open_ : s.lc ≠ 3) (known : k.toNat < 17) (good : crc32c (l.take (l.length - 4)) = imgAt l (l.length - 4) 4) :
    ∃ u : State, exec (.almanacWrite m q k x) s = .next u ∧ Answered u m q.toNat 0 ∧ bit k.toNat (u.h .almBad) = false := by
  subst read
  have stored (t : State) := t.almStored_values k.toNat (s.bytes .host x.toNat Config.almSetLen)
  have lanes (t : State) := (t.almStored k.toNat (s.bytes .host x.toNat Config.almSetLen)).lanesEvaluated_only
  obtain ⟨n, eq⟩ := takes.plain (q := q) (v := none) (op := 12) (c := 0) (g := fun t => t.almWrite k.toNat x.toNat)
    (u := fun t => (t.almStored k.toNat (s.bytes .host x.toNat Config.almSetLen)).lanesEvaluated) (by decide)
    (almWords_small k x) (fun t => t.mboxDo_almanac _ _ _ _ _)
    (fun n => by
      have written := State.almWrite_good (s := s.posted m n) (k := k.toNat) (a := x.toNat)
        (by rw [State.mode_posted, serviced]) variant (by rw [State.lc_posted]; exact open_) known (by rw [State.bytes_posted]; exact good)
      rw [State.bytes_posted] at written
      exact written)
    (fun n => by
      rw [(lanes _).domOn, State.domOn, State.domState, (stored _).1 _ _ rfl]
      exact (takes.posted n).1)
    (fun n => .inl (((lanes _).h _ _ (by decide)).trans ((stored _).2.1.trans takes.idle)))
  refine ⟨_, eq, State.mboxAnswer_answered _ _ _ (by decide) _ _, ?_⟩
  rw [State.h_mboxAnswer, (lanes _).h _ _ (by decide), (stored _).2.2]

theorem next_contextRestore_range (takes : MailTakes s m) (k : BitVec 32) (out : 10 ≤ k.toNat) :
    ∃ u : State, exec (.contextRestore m q k) s = .next u ∧ Answered u m q.toNat 2 ∧ Frame s u (mboxFlds m) [] :=
  takes.plainRefused (v := none) (g := fun t => t.ctxRestore k.toNat) (by decide) (oneWord_small k) (fun _ => rfl) (by decide)
    fun _ => State.ctxRestore_range (List.getElem?_eq_none out)

theorem next_contextRestore_missing (takes : MailTakes s m) (k : BitVec 32) {d : Dom} (named : Dom.all[k.toNat]? = some d)
    (no : bit k.toNat (s.h .ctxHave) = false ∨ s.domOn d = false) :
    ∃ u : State, exec (.contextRestore m q k) s = .next u ∧ Answered u m q.toNat 3 ∧ Frame s u (mboxFlds m) [] :=
  takes.plainRefused (v := none) (g := fun t => t.ctxRestore k.toNat) (by decide) (oneWord_small k) (fun _ => rfl) (by decide)
    fun _ => State.ctxRestore_missing named (no.imp id fun off => (State.domOn_posted ..).trans off)

theorem next_contextRestore (takes : MailTakes s m) (k : BitVec 32) {d : Dom} (named : Dom.all[k.toNat]? = some d)
    (have_ : bit k.toNat (s.h .ctxHave) = true) (on_ : s.domOn d = true) (other : d ≠ .hearth) :
    ∃ u : State, exec (.contextRestore m q k) s = .next u ∧ Answered u m q.toNat 0 ∧
      bit k.toNat (u.rd (.hrt .CTX_CONTEXT_LOST) 0) = false := by
  have restored (t : State) := t.ctxRestored_values k.toNat other
  obtain ⟨n, eq⟩ := takes.plain (q := q) (v := none) (op := 13) (c := 0) (g := fun t => t.ctxRestore k.toNat)
    (u := fun t => ((t.ctxWritten d).lanesApplied d).clrBitF (.hrt .CTX_CONTEXT_LOST) 0 k.toNat) (by decide) (oneWord_small k)
    (fun _ => rfl) (fun n => State.ctxRestore_runs named have_ ((State.domOn_posted ..).trans on_))
    (fun n => (restored _).1.trans (takes.posted n).1) (fun n => .inl ((restored _).2.1.trans takes.idle))
  refine ⟨_, eq, State.mboxAnswer_answered _ _ _ (by decide) _ _, ?_⟩
  rw [State.rd_mboxAnswer _ _ _ _ _ _ _ (by simp [mboxFlds])]
  exact (restored _).2.2

theorem next_unmark_engine (takes : MailTakes s m) (x : BitVec 32) {e : Nat} (serviced : s.mode = modeService) (known : e < 16)
    (named : x.toNat = locEngine e) :
    (2 ≤ s.h .markWhy e → ∃ u : State, exec (.unmark m q x) s = .next u ∧ Answered u m q.toNat 0 ∧
      u.on (.eng .CTL_UNUSABLE) e = false ∧ u.h .markWhy e = 0) ∧
    (s.h .markWhy e < 2 → ∃ u : State, exec (.unmark m q x) s = .next u ∧ Answered u m q.toNat 3 ∧
      Frame s u (mboxFlds m) []) := by
  have serviced' (n : Nat) : (s.posted m n).mode = modeService := by rw [State.mode_posted, serviced]
  have small := oneWord_small x
  refine ⟨fun marked => ?_, fun free => ?_⟩
  · obtain ⟨n, eq⟩ := takes.answers (q := q) (v := none) (op := 14) (by decide) small (code := 0) (det := 0) (data := 0)
      (u := fun n => (s.posted m n).engUnmarked e)
      (fun n => by
        rw [State.mboxDo_unmark _ (serviced' n), named, State.unmark_engine known]
        exact congrArg mbPlain (if_pos marked))
      (fun n => ((s.posted m n).engUnmarked_values e).2.2.1.trans (takes.posted n).1)
      (fun n => .inl (((s.posted m n).engUnmarked_values e).2.2.2.trans takes.idle))
    obtain ⟨usable, why, -⟩ := (s.posted m n).engUnmarked_values e
    refine ⟨_, eq, State.mboxAnswer_answered _ _ _ (by decide) _ _, ?_, ?_⟩
    · rw [State.on, State.rd_mboxAnswer _ _ _ _ _ _ _ (by simp [mboxFlds])]
      exact usable
    · rw [State.h_mboxAnswer, why]
  · refine takes.refused (op := 14) (v := none) (by decide) small (by decide) fun n => ?_
    rw [State.mboxDo_unmark _ (serviced' n), named, State.unmark_engine known]
    exact congrArg mbPlain (if_neg (Nat.not_le.mpr free))

end Commands

/-- Settles O40: each command is read off its row of Table 14.13 in the state in which it stands in the mailbox. -/
theorem reeveCommandsComplete : Obligations.ReeveCommandsComplete := by
  unfold Obligations.ReeveCommandsComplete
  refine ⟨fun m q l s takes weigh => next_wghPassthrough takes q l weigh, fun m q l s takes off =>
    next_wghPassthrough_off takes q l off, fun m q d s takes awake listed unspent still keyed serviced up =>
    next_lcReq takes q d awake listed unspent still keyed serviced up, fun m q d s takes => ⟨?unlisted, ?spent, ?away, ?blank⟩,
    fun d s known small => s.lcDo_values known small, fun m q k s takes fits free => next_keyProg takes q k fits free,
    fun m q k s takes low high used => ?used, fun m q k s takes out => ⟨?noSlot, ?noRevoke⟩,
    fun m q k s takes low high field used => next_revoke takes q k low high field used,
    fun m q k s takes low high free => ?free,
    fun m q b v s takes idle away passive => next_shutdown takes q b v idle away passive,
    fun m q b v s takes idle serviced passive => next_shutdown_service takes q b v idle serviced passive,
    fun m q b v s takes busy => ?busy, fun m q v s takes serviced passive still good free =>
    next_lbistRun takes q v serviced passive still good free, fun m q v s takes no => ?noTest,
    fun m q k x l s takes read => ⟨next_almanacWrite_refused takes k x, next_almanacWrite_range takes k x read,
      next_almanacWrite takes k x read⟩,
    fun m q k s takes out => next_contextRestore_range takes k out, fun m q k d s takes named no =>
    next_contextRestore_missing takes k named no, fun m q k d s takes named have_ on_ _ other =>
    next_contextRestore takes k named have_ on_ other, fun m q x s takes away => ?noUnmark,
    fun m q x e s takes serviced known named => next_unmark_engine takes x serviced known named, fun m q s takes => ?booted,
    fun l s staged rom fits class_ => ⟨fun good => ?runs, fun bad => ?refused⟩⟩
  case unlisted =>
    exact fun none_ => takes.plainRefused (v := none) (g := fun t => t.lcReq d.toNat) (by decide) (oneWord_small d)
        (fun _ => rfl)
      (by decide) fun n => State.lcReq_unlisted (by rw [State.lc_posted, none_])
  case spent =>
    intro returned field used
    refine takes.plainRefused (v := none) (g := fun t => t.lcReq d.toNat) (by decide) (oneWord_small d) (fun _ => rfl)
      (by decide) fun n => ?_
    rw [field]
    refine State.lcReq_spent (by rw [State.lc_posted, returned]) ?_
    rw [State.rd_posted _ _ _ _ (by decide) (by decide)]
    exact used
  case away =>
    intro field other
    refine takes.plainRefused (v := none) (g := fun t => t.lcReq d.toNat) (by decide) (oneWord_small d) (fun _ => rfl)
      (by decide) fun n => State.lcReq_unready ?_ (.inr ?_)
    · rw [State.lc_posted]
      omega
    · rw [State.lc_posted, State.mode_posted]
      exact ⟨field, other⟩
  case blank =>
    intro made field none_
    refine takes.plainRefused (v := none) (g := fun t => t.lcReq d.toNat) (by decide) (oneWord_small d) (fun _ => rfl)
      (by decide) fun n => State.lcReq_unready ?_ (.inl ?_)
    · rw [State.lc_posted]
      omega
    · rw [State.lc_posted, State.keyWritten_posted, none_]
      exact ⟨made, field, Bool.false_ne_true⟩
  case used =>
    exact takes.plainRefused (v := none) (g := fun t => t.keyProg k.toNat) (by decide) (oneWord_small k) (fun _ => rfl)
      (by decide) fun n => State.keyProg_used low high (by rw [State.keyWritten_posted, used])
  case noSlot =>
    exact takes.plainRefused (v := none) (g := fun t => t.keyProg k.toNat) (by decide) (oneWord_small k) (fun _ => rfl)
      (by decide) fun n => State.keyProg_range out
  case noRevoke =>
    exact takes.plainRefused (v := none) (g := fun t => t.revoke k.toNat) (by decide) (oneWord_small k) (fun _ => rfl)
      (by decide) fun n => State.revoke_range out
  case free =>
    exact takes.plainRefused (v := none) (g := fun t => t.revoke k.toNat) (by decide) (oneWord_small k) (fun _ => rfl)
      (by decide) fun n => State.revoke_free low high (by rw [State.keyWritten_posted, free])
  case busy =>
    exact takes.plainRefused (v := some (lbPack v)) (g := fun t => t.shutdown b (some (lbPack v))) (by decide)
      (shutWord_small b) (fun t => t.mboxDo_shutdown _ _ _ _) (by decide) fun n =>
        State.shutdown_busy (s := s.posted m n) busy b _
  case noTest =>
    refine takes.plainRefused (v := some (lbPack v)) (g := fun t => t.lbistRun (some (lbPack v))) (by decide) noWords_small
      (fun _ => rfl) (by decide) fun n => State.lbistRun_refused _ ?_
    rw [State.mode_posted, State.role_posted, State.updating_posted]
    exact no
  case noUnmark =>
    exact takes.refused (op := 14) (v := none) (by decide) (oneWord_small x) (by decide) fun n =>
      State.mboxDo_unmark_refused _ (by rw [State.mode_posted]; exact away) _ _ _
  case booted =>
    have fw (n : Nat) : (s.posted m n).rd (.ree .STATUS_RSTATE) 0 ≠ 2 := by
      rw [State.rd_posted _ _ _ _ (by decide) (by decide), takes.fw]
      decide
    exact takes.refused (op := 15) (v := none) (by decide) noWords_small (by decide) fun n =>
      congrArg mbDet (State.recoveryGo_booted (fw n))
  case runs => rw [State.recoveryGo_staged staged rom fits class_, if_neg (not_not_intro good)]
  case refused => rw [State.recoveryGo_staged staged rom fits class_, if_pos bad]

end Sys2Proof.Machine
